-- ==== Sys2Proof/Word.lean ====
section
/-! DEFINITION. The word types of the JM7740 (spec/00_scope.md R6, R7): bytes, 32-bit registers, 64-bit counts,
little-endian byte strings, and the canonical association tables that hold sparse per-instance data. -/

namespace Sys2Proof

/-- One byte of a structure the module defines (R6). -/
abbrev Byte := BitVec 8

/-- One register (R7): 32 bits. -/
abbrev Word := BitVec 32

/-- A string of bytes in file or wire order. -/
abbrev Bytes := List Byte

/-- Sparse data by key: strictly rising keys, no entry equal to the default (`Machine/Ops.lean` keeps this form). -/
abbrev Table (α : Type) := List (Nat × α)

/-- A byte memory; the same type as a list of `Host.Cell`. -/
abbrev Memory := Table Byte

end Sys2Proof
end

