-- ==== Sys2Proof/Config.lean ====
section
/-! DEFINITION. What the spec fixes per module or leaves open: constants with no body, so that no proof can see a
value (notes/assumptions/6.md), and the free values of the model (notes/assumptions/9.md). -/

namespace Sys2Proof.Config

/-- REV (R132): module revision, stepping and firmware build, fixed for a given module and firmware: the firmware that runs
after so many activations (R464). -/
opaque rev : Nat → Word

/-- BUILD of a firmware image staged for the given activation (R495). -/
opaque fwBuild : Nat → BitVec 16

/-- MAC address of Ethernet port A or B (R520): 6 bytes, first byte first. -/
opaque mac : Bool → BitVec 48

/-- Reference functions of curves 1 to 10 (R166): curve number and native reading give µ°C. The curves are evaluated
within 0.01 °C of their references, so the spec fixes no exact value. -/
opaque curveMicroC : Nat → Int → Int

/-- Forward thermocouple curve E(CURVE, T_cj) of R165: curve number and µ°C give nV. -/
opaque emf : Nat → Int → Int

/-- The NTC curve 11 (R168): coefficients A, B, C as single-precision words and UI_RAW in mΩ give µ°C. -/
opaque ntcMicroC : Word → Word → Word → Int → Int

/-- Sweep signal of R372, computed in double precision: F0, F1 in mHz, NSAMP − PRE, PER in fine ticks, AMP and j. -/
opaque sweep : Nat → Nat → Nat → Nat → Int → Nat → Int

/-- The demand in ppm of a source whose RLO equals RHI (R247 divides by their difference): E32 and RLO give it. -/
opaque deadSpan : Int → Int → Int

/-- SL_UNIT strap (R444): `false` unit 0. -/
opaque unit : Bool

/-- What a flash byte holds after a programming that failed or was cut off (R75): draw number and address. -/
opaque flashByte : Nat → Nat → BitVec 8

/-- Glyph bitmaps of R436: FONT, ASCII code, and a pixel's column and row. -/
opaque glyph : Nat → Nat → Nat → Nat → Bool

/-- What a text item draws beside its glyphs, in an ordinary and in a swapped line (R436): foreground, background or nothing. -/
opaque restInk : Bool → Option Bool

/-- The drawing of a bar (R436): W, H, ARG0, ARG1, the result's E32 while VALID = 1, and a pixel's column and row. -/
opaque barInk : Nat → Nat → Nat → Nat → Option Word → Nat → Nat → Option Bool

/-- A fresh free value for each count of the model's own counter (entry 9). -/
opaque freeWord : Nat → Word

end Sys2Proof.Config
end

