-- ==== Sys2Proof/Types.lean ====
section
/-! DEFINITION. The names the spec gives to fixed sets of things, and the plain data that a command carries. -/

namespace Sys2Proof

/-- The four host ports (R104), by master identity: local SPI (M1), network A (M2), network B (M3), CAN service (M5). -/
inductive HostPort where
  | m1 | m2 | m3 | m5
  deriving DecidableEq, Repr

/-- The state of an island (R17). -/
inductive IslState where
  | off | reset | run | fault
  deriving DecidableEq, Repr

/-- Device states (R82). -/
inductive DevSt where
  | off | boot | load | verify | calibrate | ready | run | degraded | safe
  deriving DecidableEq, Repr

/-- What a memory check finds in a word it reads (R49, R466). -/
inductive Ecc where
  | clean
  | corrected
  | uncorrectable (mem : Fin 64) (row : Nat)
  deriving DecidableEq, Repr

/-- Sources of a module-level fault or of an engine's failure (R29, R454). -/
inductive EngCause where
  | checkpoint | ecc | vector
  deriving DecidableEq, Repr

/-- What R119 says of a request's operation code and payload length: as the table gives them, a payload of another length, or
an operation code outside the table. -/
inductive WfForm where
  | whole
  | length
  | unknownOp (op : Byte)
  deriving DecidableEq, Repr

/-- The address fields and header of a Wayfare request (R114, R115) that passed the checks of R116. -/
structure WfReq where
  /-- network host port: `false` A, `true` B -/
  net  : Bool
  /-- client IP address and UDP port, as one number (R117) -/
  client : Nat
  session : Word
  seq : BitVec 16
  form : WfForm := .whole
  deriving DecidableEq, Repr

end Sys2Proof
end

