-- ==== Sys2Proof/Machine/DataBase.lean ====
section
/-! DEFINITION. State of island I0's time base, result store, islands, loader, device states, host ports, events and
mailboxes (spec/01 to spec/05), as plain data. Field defaults are the reset values. -/

namespace Sys2Proof.Machine
open Sys2Proof

/-! ### Time base and results (spec/01_islands_and_junction.md) -/

/-- DEVTIME (R23) and the tick numbers last worked (R25). -/
structure TimeBase where
  devtime  : Nat := 0
  lastScan : Nat := 0
  lastFine : Nat := 0
  deriving DecidableEq, Repr

/-- One result of the store (R34, R40 to R46). `q` holds the quality bits other than FRESH. -/
structure Result where
  value : Word := 0x80000000#32
  q     : Byte := 0#8
  seq   : Byte := 0#8
  /-- completion DEVTIME -/
  time  : Nat := 0
  /-- FRESH, bit 0 local, 1 network A, 2 network B, 3 CAN service (R46) -/
  fresh : BitVec 4 := 0#4
  /-- a record has arrived since the route map finished loading (R42) -/
  has   : Bool := false
  /-- DEVTIME at which the last record reached the store (R210) -/
  arrived : Nat := 0
  /-- an uncorrectable error was found in the entry (R49) -/
  lost  : Bool := false
  /-- the record itself carried SUSPECT, whatever the pairs of the result say (R209, R211, R212) -/
  susp  : Bool := false
  deriving DecidableEq, Repr

/-- One result inside a record: VALUE register address, value, quality. -/
structure Entry where
  addr  : Nat
  value : Word
  q     : Byte
  deriving DecidableEq, Repr

/-- A record waiting in an arrival slot (R34, R35): one slot per producer and target. -/
structure Record where
  prod    : Nat
  target  : Nat := 0
  entries : List Entry
  seq     : Byte
  time    : Nat
  /-- the I0 cycle in which it reached its slot (R37) -/
  arr     : Nat := 0
  deriving DecidableEq, Repr

/-- Junction, arrival slots and result store (R33 to R49). -/
structure Junction where
  slots   : List Record := []
  store   : Table Result := []
  /-- sequence number last given to a slot's records, by slot key (R40) -/
  seqs    : Table Byte := []
  overrun : Word := 0#32
  ovrLast : Nat := 0
  maxDepth : Nat := 0
  /-- I0 cycles in which the junction has drained: what orders arrivals (R37) -/
  cycle   : Nat := 0
  deriving DecidableEq, Repr

/-- Islands, causeways and engines (R15 to R32). -/
structure Islands where
  pwr    : Word := 0#32
  states : List IslState := [.run, .run, .run, .run, .off, .run, .off, .run, .run, .off, .run, .run]
  flt    : Word := 0#32
  toCnt  : Nat := 0
  toDst  : Nat := 0
  toSrc  : Nat := 0
  toScan : Nat := 0
  /-- role bytes E0 to E15, ROLE in bits 7:4, INST in bits 3:0 (R18) -/
  roles  : List Byte := List.replicate 16 0#8
  ckptMiss : Nat := 0
  /-- roles paused by an engine failure: (spare that takes the role, role byte, failed engine); started at the next tick (R29) -/
  paused : List (Nat × Byte × Nat) := []
  deriving DecidableEq, Repr

/-! ### Route map (spec/02_route_map.md) -/

/-- One section of a leg: its records as byte strings (R59). -/
structure Sect where
  id   : Nat
  recSize : Nat
  recs : List Bytes
  /-- the reserved bytes of its header are 0 (R59) -/
  resOk : Bool := true
  deriving DecidableEq, Repr

/-- One leg (R56): `body` is the payload as loaded, `sects` its sections, `ofs` its byte offset in the image. -/
structure Leg where
  typ  : Nat
  ver  : Nat
  gen  : Nat
  ofs  : Nat
  body : Bytes
  sects : List Sect
  /-- the reserved bytes of its header are 0 (R56) -/
  resOk : Bool := true
  deriving DecidableEq, Repr

/-- A route map image whose LOAD phase passed (R68). -/
structure Image where
  fmt : Nat
  len : Nat
  ocrc : Word
  mapId : Word
  mapRev : Word
  legs : List Leg
  /-- the reserved bytes of the header are 0 (R54) -/
  resOk : Bool := true
  deriving DecidableEq, Repr

/-- The loader's error (R70, R81). -/
structure RmErr where
  src  : Nat := 0
  leg  : Nat := 0
  code : Nat := 0
  deriving DecidableEq, Repr

/-- BANK_x_INFO (R81). -/
structure BankInfo where
  state : Nat := 0
  code  : Nat := 0
  rev   : Nat := 0
  deriving DecidableEq, Repr

/-- Where the image being loaded comes from: RM_SRC codes. -/
inductive LoadSrc where
  | none | bankA | bankB | staging | partner
  deriving DecidableEq, Repr

/-- Route map loader (R68 to R81), the memories apart. -/
structure Loader where
  phase    : Nat := 0
  prefB    : Bool := false
  fallback : Bool := false
  diverged : Bool := false
  err      : RmErr := {}
  errOfs   : Nat := 0
  src      : Nat := 0
  bankA    : BankInfo := {}
  bankB    : BankInfo := {}
  stgAddr  : Nat := 0
  stgState : Nat := 0
  liveAddr : Nat := 0
  liveStat : Nat := 0
  liveLegs : Nat := 0
  liveTick : Word := 0#32
  /-- the binding table locked by the first VERIFY, absent until BIND_LOCK sets (R80) -/
  lock     : Option Bytes := none
  /-- the running image (R71) -/
  img      : Option Image := none
  /-- source selected to load next (R72, R448) -/
  sel      : LoadSrc := .bankA
  /-- banks that have failed since BOOT was entered (R72) -/
  tried    : List LoadSrc := []
  /-- image that passed LOAD and waits for VERIFY -/
  cand     : Option Image := none
  /-- legs that passed a live check and wait for the scan tick (R78) -/
  livePend : List Leg := []
  /-- PROGRAM running: target bank B (R74) -/
  progB    : Bool := false
  /-- live legs of the partner lie in the live area, to be submitted at the entry to READY (R448) -/
  partnerLive : Bool := false
  /-- a restart by COMMIT is in progress: outputs hold the old safe states (R98) -/
  restarting : Bool := false
  deriving DecidableEq, Repr

/-! ### Device states (spec/03_start_and_states.md) -/

/-- A state command accepted and waiting for the next scan tick (R91, R92). -/
inductive Pend where
  | none | run | halt
  deriving DecidableEq, Repr

structure Device where
  st       : DevSt := .boot
  prev     : DevSt := .off
  stateTick : Word := 0#32
  cause    : Nat := 1
  safeCause : Nat := 0
  feedA    : Bool := true
  feedB    : Bool := true
  overtemp : Bool := false
  refused  : Bool := false
  pend     : Pend := .none
  /-- channels marked failed by their own chapters, as keys kind × 256 + index (R84) -/
  chanFail : List Nat := []
  /-- RESET_N is held low (R99) -/
  pinLow   : Bool := false
  deriving DecidableEq, Repr

/-! ### Host ports (spec/04_host_access.md) -/

/-- A register access: read, or write of a word. -/
inductive Acc where
  | rd (addr : Nat)
  | wr (addr : Nat) (v : Word)
  deriving DecidableEq, Repr

/-- The answer of the last access of a port: status of R105, address, data. -/
structure Answer where
  status : Nat := 0
  addr   : Nat := 0
  data   : Word := 0#32
  deriving DecidableEq, Repr

/-- A snapshot buffer and its registers (R124 to R128). `buf` holds VALUE and QSEQ words by address. -/
structure Snap where
  buf     : Table Word := []
  taken   : Bool := false
  time    : Nat := 0
  seq     : Byte := 0#8
  copying : Bool := false
  ready   : Bool := false
  addr    : Nat := 0x2000
  cnt     : Word := 0#32
  /-- frozen content while the copy runs: the copy shows the store at T_snap -/
  pendBuf : Table Word := []
  deriving DecidableEq, Repr

/-- What is banked per reading port (R548). -/
structure Port where
  ans    : Answer := {}
  devHi  : Option Word := none
  /-- result latch: VALUE address of the block and the QSEQ word (R47) -/
  latch  : Option (Nat × Word) := none
  /-- WRAP_CNT latched by a read of PF_RAW, of each interface (R330) -/
  wrapLatch : Table (Option Word) := []
  /-- PF_CAP latch: address of PF_CAPk_VAL, QSEQ and TS frozen by its read, until each is read (R343, R47) -/
  capLatch : Option (Nat × Option Word × Option Word) := none
  msHi   : Option Word := none
  snap   : Snap := {}
  caBufAddr : Table Nat := []
  lnCapAddr : Table Nat := []
  almFind : Word := 0#32
  almLogIdx : Nat := 0
  almLogWord : Nat := 0
  almLatch : List Word := []
  recSel : Word := 0#32
  recLatch : List Word := []
  recPos : Nat := 0
  recValid : Bool := false
  stSel  : Word := 0#32
  stLatch : List Word := []
  stPos  : Nat := 0
  deriving DecidableEq, Repr

/-- The four banked port states. -/
structure Ports where
  m1 : Port := {}
  m2 : Port := {}
  m3 : Port := {}
  m5 : Port := {}
  deriving DecidableEq, Repr

/-- A 64-bit SPI answer waiting for the next frame (R111). -/
structure SpiResp where
  status : Nat := 0
  tag    : Byte := 0#8
  addr   : Nat := 0
  data   : Word := 0#32
  deriving DecidableEq, Repr

/-- Local SPI port (R108 to R113). -/
structure Spi where
  /-- response to be shifted out in the next frame -/
  resp   : SpiResp := {}
  /-- response shifted out during the last frame -/
  out    : SpiResp := {}
  /-- outstanding access across a causeway -/
  outst  : Option (Byte × Acc) := none
  /-- a bad frame came while it was outstanding, and no frame has carried CRC_ERR since (R106, R113) -/
  crcErr : Bool := false
  /-- the nine bytes shifted out during the last frame, CRC-8 last (R110, R111) -/
  miso   : Bytes := []
  deriving DecidableEq, Repr

/-- A subscription (R121, R123). `last` holds, per listed address, what was pushed last. -/
structure Sub where
  period : Nat
  onChange : Bool
  addrs  : List Nat
  last   : List (Option (Byte × Byte)) := []
  /-- periods since the subscription, for the empty push of every 100th period (R123) -/
  periods : Nat := 0
  deriving DecidableEq, Repr

/-- What a request that crosses a causeway does when it completes. -/
inductive WfPend where
  | rd (addr : Nat)
  | wr (addr : Nat) (v : Word)
  /-- burst: present address, words still to read, step, words read so far in order -/
  | burst (addr : Nat) (todo : Nat) (step : Nat) (done : List Word)
  | snap
  deriving DecidableEq, Repr

/-- A response: header STATUS and payload words or bytes (R119). -/
structure WfResp where
  op : Nat
  status : Nat
  payload : Bytes
  deriving DecidableEq, Repr

/-- One Wayfare session (R117, R118). -/
structure Session where
  net    : Bool
  number : Word
  client : Nat
  ver    : Nat
  lastSeq : Option (BitVec 16) := none
  resp   : Option WfResp := none
  lastReq : Nat := 0
  outst  : Option (BitVec 16 × Nat × WfPend) := none
  sub    : Option Sub := none
  /-- pushes of the session (R121) -/
  pushNo : Nat := 0
  deriving DecidableEq, Repr

/-! ### Events and mailboxes (spec/05_events_and_mailboxes.md) -/

/-- Which outstanding access completes (R112, R118, R518): of the SPI port, of a Wayfare session, of the CAN service. -/
inductive AccessRef where
  | spi
  | wf (sess : Word)
  | svc
  deriving DecidableEq, Repr

/-- One entry of the message stream (R138). -/
structure MsgEntry where
  word0 : Word
  word1 : Word
  deriving DecidableEq, Repr

structure Events where
  stat  : BitVec 128 := 0#128
  mask  : BitVec 128 := BitVec.allOnes 128
  route : Table Nat := []
  occ   : Table Nat := []
  queue : List MsgEntry := []
  /-- word 0 of the head entry has been read (R139) -/
  half  : Bool := false
  ovf   : Bool := false
  lost  : Nat := 0
  deriving DecidableEq, Repr

/-- State of a mailbox channel's slot (R147, R148). -/
inductive MbSt where
  | empty | posted | acked
  deriving DecidableEq, Repr

structure MbChan where
  st   : MbSt := .empty
  msg  : List Word := List.replicate 16 0#32
  ack  : Bool := false
  code : Nat := 0
  replaced : Nat := 0
  deriving DecidableEq, Repr

/-- Doorbells and window buffer of one identity (R146, R151). -/
structure MbId where
  win  : List Word := List.replicate 16 0#32
  dbStat : Word := 0#32
  dbMask : Word := 0xFFFFFFFF#32
  deriving DecidableEq, Repr

structure Mailbox where
  chans : Table MbChan := []
  ids   : Table MbId := []
  deriving DecidableEq, Repr

/-! ### Block controls and frames sent -/

/-- BLK_CTRL of one block (R129, R131): EXPERT, the BLOCK byte, and the DEVTIME from which the 60 s run. -/
structure BlkCtl where
  expert : Bool := false
  block  : Byte := 0#8
  since  : Nat := 0
  deriving DecidableEq, Repr

/-- Where a frame that the module sends goes. -/
inductive TxChan where
  | wayfare (net : Bool) | icmp (net : Bool) | modbus (net : Bool) | iec450 (net : Bool)
  | can (c : Bool) | strait | hart (m : Nat)
  deriving DecidableEq, Repr

/-- One frame sent: destination (client number, message kind, identifier) and bytes. Nothing in the module reads it back. -/
structure TxFrame where
  chan : TxChan
  dest : Nat
  bytes : Bytes
  deriving DecidableEq, Repr

end Sys2Proof.Machine
end

