-- ==== Sys2Proof/Machine/DataDuplex.lean ====
section
/-! DEFINITION. State of the duplex pair, detour tables, self-test and firmware staging (spec/17), as plain data; the
mirrored copies stand apart. Field defaults are the reset values. -/

namespace Sys2Proof.Machine
open Sys2Proof

/-- Roles (R446). -/
inductive DupRole where
  | alone | active | standby
  deriving DecidableEq, Repr

/-- A planned swap agreed or proposed (R460). -/
structure SwapPlan where
  /-- DEVTIME of the scan tick T_s in the outgoing module -/
  at_ : Nat
  /-- this module gives up the plant -/
  outgoing : Bool
  reclaim : Bool
  deriving DecidableEq, Repr

/-- HELLO (R449). -/
structure SlHello where
  minVer : Byte
  maxVer : Byte
  unit : Bool
  /-- present role, 0xFF before READY -/
  role : Byte
  fmtAcc : Byte
  rev  : Word
  ocrc : Word
  gens : List Word
  deriving DecidableEq, Repr

/-- SWAP frame (R460): a proposal with the sender's CLEAN_S and a shaper run in progress there, or its answer. -/
inductive SwapMsg where
  | propose (reclaim : Bool) (clean : Nat) (busy : Bool)
  | agree (reclaim : Bool)
  | refuse
  deriving DecidableEq, Repr

/-- OUTCMD frame (R452): the new commanded value of one output. LO and PO carry their demand in ppm or mHz. -/
inductive OutCmd where
  | dout (k : Fin 32) (on : Bool)
  | lo (k : Fin 16) (d : Int)
  | po (k : Fin 8) (d : Int)
  | ex (k : Fin 16) (on : Bool) (vset : Fin 3)
  | ss (k : Fin 6) (on : Bool)
  deriving DecidableEq, Repr

/-- Duplex state (R444 to R464). -/
structure Duplex where
  role : DupRole := .alone
  lane0 : Bool := false
  lane1 : Bool := false
  /-- DEVTIME of the last valid frame of each lane (R445) -/
  last0 : Nat := 0
  last1 : Nat := 0
  /-- the link has been lost (down for 200 µs) or never came up -/
  lost : Bool := true
  slErr0 : Nat := 0
  slErr1 : Nat := 0
  roleIn : Bool := false
  roleOut : Bool := false
  latched : Bool := false
  latchAt : Nat := 0
  /-- DEVTIME at which the partner released the latches: the loop outputs ramp to 0 from there (R459) -/
  relAt : Option Nat := none
  /-- HELLO of the partner has completed -/
  hello : Bool := false
  pRev : Word := 0#32
  pOcrc : Word := 0#32
  pGen : List Word := []
  pRole : Nat := 0xFF
  pElig : Bool := false
  pver : Nat := 0
  /-- no version is common to both (R449) -/
  verBad : Bool := false
  stoodDown : Bool := false
  linkIneligible : Bool := false
  divIneligible : Bool := false
  /-- DEVTIME at which a MIRROR was last applied -/
  mirrorAt : Option Nat := none
  mirDiv : Word := 0#32
  consecDiv : Nat := 0
  swapCnt : Word := 0#32
  swapSkip : Bool := false
  cmdRefused : Bool := false
  plan : Option SwapPlan := none
  /-- control was taken from this home module by stand-down, reset or removal (R462) -/
  owed : Bool := false
  /-- FIND_T wait: deadline (R447) -/
  findAt : Option Nat := none
  /-- partner seen at READY during the wait -/
  foundReady : Bool := false
  /-- wait for the partner's HELLO in BOOT (R448) -/
  waitHello : Bool := false
  /-- operating times, in 1/16 s, of partner resets accepted in the last hour (R463) -/
  resets : List Nat := []
  /-- the rejoin reset of R463 is due -/
  rejoinAt : Option Nat := none
  /-- DEVTIME since which CLEAN_S counts (R467) -/
  cleanAt : Nat := 0
  /-- overlap and cross-ramp of a take-over running (R458): end of each -/
  overlap : Option Nat := none
  crossRamp : Option Nat := none
  /-- from a take-over to the next scan tick (R458 steps 3 to 6) -/
  taking : Bool := false
  /-- the latches held for 5 ms with no release: the safe states stand (R457) -/
  unreleased : Bool := false
  /-- this module's proposal of a swap waits for its answer, and whether it is a reclaim -/
  proposed : Option Bool := none
  /-- commanded value last sent in an OUTCMD, by class × 64 + index -/
  sent : Table Word := []
  fwAddr : Nat := 0
  /-- bytes of the firmware image staged: end of the highest word written -/
  fwEnd : Nat := 0
  fwStat : Nat := 0
  fwRun : Bool := false
  deriving DecidableEq, Repr

/-- The detour tables and ECC counters (R465, R466, R470). `conv` maps a UI channel to its bypass converter plus one. -/
structure Detours where
  engFuse : Word := 0#32
  engRun  : Word := 0#32
  conv    : Table Nat := []
  rowFuse : Table Nat := []
  rowRun  : Table Nat := []
  /-- corrected errors of a row by scrub pass times, keyed macro × 65536 + row -/
  rowHits : Table (List Nat) := []
  memSel  : Nat := 0
  lastKind : Nat := 0
  lastIdx : Nat := 0
  lastScan : Nat := 0
  corr    : Word := 0#32
  unc     : Word := 0#32
  stest   : Word := 0#32
  deriving DecidableEq, Repr

end Sys2Proof.Machine
end

