-- ==== Sys2Proof/Machine/DataField.lean ====
section
/-! DEFINITION. State of the digital inputs and outputs and the interlock matrix (spec/10), of the shaped outputs (spec/11)
and of the position interfaces and compare table (spec/12), as plain data. Field defaults are the reset values. -/

namespace Sys2Proof.Machine
open Sys2Proof

/-! ### Digital inputs and outputs, interlock (spec/10) -/

structure DiChan where
  /-- a first level has been accepted (R273), and the accepted level -/
  accepted : Bool := false
  level : Bool := false
  chg  : Bool := false
  owSeen : Bool := false
  opn  : Bool := false
  cnt  : Word := 0#32
  ts   : Word := 0#32
  /-- DEVTIME from which the samples of another level count: the last acceptance, or the application of the image (R273) -/
  since : Nat := 0
  deriving DecidableEq, Repr

structure SsChan where
  on   : Bool := false
  overload : Bool := false
  ovlSeen : Bool := false
  /-- DEVTIME of the latest overload or failed retry (R279) -/
  retryAt : Nat := 0
  deriving DecidableEq, Repr

structure DoChan where
  cmd  : Bool := false
  overload : Bool := false
  /-- OVERLOAD set while the output was forced on (R283) -/
  ovlForced : Bool := false
  overtemp : Bool := false
  otSeen : Bool := false
  openOn : Bool := false
  openOff : Bool := false
  darkFail : Bool := false
  refused : Bool := false
  /-- switch as R282 decides it, and DEVTIME of its last change -/
  on   : Bool := false
  chgAt : Nat := 0
  /-- value held for SAFE = 2 (R95): the switch at the moment the safe state was applied -/
  held : Option Bool := none
  /-- a commanded value has been driven since the last reset (R95) -/
  driven : Bool := false
  /-- time proportioning (R281): output, next cycle start, off edge due, lane duty in ppm, lane OFF -/
  tpOn : Bool := false
  tpNext : Nat := 0
  tpOff : Option Nat := none
  laneD : Int := 0
  laneOff : Bool := true
  /-- watch station pattern (SRC 2) -/
  ws   : Bool := false
  /-- compare pulse (SRC 3) -/
  pulse : Bool := false
  pulseEnd : Nat := 0
  /-- dark test (R286): running, its end, DEVTIME of the last one -/
  dark : Bool := false
  darkEnd : Nat := 0
  darkAt : Option Nat := none
  mA   : Nat := 0
  deriving DecidableEq, Repr

structure Digital where
  di   : Table DiChan := []
  ss   : Table SsChan := []
  dout : Table DoChan := []
  /-- over-temperature of the input groups (R276) -/
  ot   : Word := 0#32
  /-- STATE and BAD (FAULT and PIN) of each group as last seen, and changed since its last record (R277, R287) -/
  diSeen : Table Nat := []
  doSeen : Table Nat := []
  diDirty : Word := 0#32
  doDirty : Word := 0#32
  /-- measured pins DO0 to DO31 above 12 V (R287) -/
  pins : Word := 0#32
  /-- FPf voltage in mV -/
  fpMv : Table Nat := []
  /-- commanded values were driven after the last command (R95) -/
  driving : Bool := false
  deriving DecidableEq, Repr

structure Interlock where
  active  : Word := 0#32
  latched : Word := 0#32
  tripped : Word := 0#32
  refused : Word := 0#32
  last    : Word := 0#32
  cmp     : Word := 0#32
  /-- terms ACTIVE at the last evaluation under the previous image, not yet evaluated under this one (R292) -/
  carry   : Word := 0#32
  /-- charge channels that have taken a sample since their switch closed (R289) -/
  caSeen  : Word := 0#32
  deriving DecidableEq, Repr

/-! ### Shaped outputs (spec/11) -/

/-- What a context waits for (R304, R315). -/
inductive SvWait where
  | none
  | till (t : Nat)
  | current (dir : Bool) (mA : Nat) (tmoAt tgt : Nat)
  | position (pf cnt : Nat) (start : Word)
  | hold (t : Option Nat)
  | ramp
  | stall (t : Nat)
  /-- a stall that ended as the sibling left PEAK: the instruction proceeds (R315) -/
  | freed
  deriving DecidableEq, Repr

/-- Switch state that a channel calls for (R298). -/
inductive SvSw where
  | off | energise | slow | fast | quench
  deriving DecidableEq, Repr

structure SvChan where
  phase : Nat := 0
  running : Bool := false
  prof : Nat := 0
  pc   : Nat := 0
  wait : SvWait := .none
  loopN : Nat := 0
  loopAt : Option Nat := none
  fireAt : Nat := 0
  endAt : Nat := 0
  /-- target I_t and ramp goal in 1/20 mA, ramp step per sense sample in 1/20 mA (R304) -/
  tgt20 : Nat := 0
  goal20 : Nat := 0
  rate : Nat := 0
  /-- limit of R316 in force, in mA -/
  lim  : Option Nat := none
  /-- the hold target comes from SV_HTGT (R311) -/
  src1 : Bool := false
  /-- decay mode of the instruction in force (R300, R304) -/
  dec : SvSw := .slow
  sw   : SvSw := .off
  swAt : Nat := 0
  im   : Nat := 0
  queue : Option (Nat × Nat) := none
  /-- rank among firings of one I5 cycle (R312) of the one that started the run, and rank and time of the one that is queued -/
  fireBy : Nat := 0
  queueBy : Nat := 0
  queueAt : Nat := 0
  fExt : Bool := false
  fWaited : Bool := false
  fLimited : Bool := false
  fPx  : Bool := false
  refused : Bool := false
  illegal : Bool := false
  oc   : Bool := false
  stagger : Bool := false
  subSeen : Bool := false
  px   : Bool := false
  forcedOff : Bool := false
  dur  : Nat := 0
  htgt : Nat := 0
  fireCnt : Word := 0#32
  extCnt : Word := 0#32
  uflag : Word := 0#32
  marks : Table Nat := []
  pub  : Option Nat := none
  bad  : Bool := false
  last : Word := 0x80000000#32
  lastQ : Byte := 0#8
  deriving DecidableEq, Repr

structure Bank where
  oc   : Bool := false
  stalls : Nat := 0
  expired : Nat := 0
  gpf  : Nat := 0
  deriving DecidableEq, Repr

structure Shaped where
  sv : Table SvChan := []
  hb : Table Bank := []
  mcAddr : Nat := 0
  deriving DecidableEq, Repr

/-! ### Position interfaces and compare table (spec/12) -/

/-- What an interface sees (R324 to R327): accepted levels of PFn_A, PFn_B and PFn_Z (U, V and W), or a sin/cos sample in mV
about 2.5 V with the level of PFn_Z. -/
inductive PfStep where
  | lines (a b z : Bool)
  | sincos (s c : Int) (z : Bool)
  deriving DecidableEq, Repr

/-- Accepted levels of a Hall interface's three lines (R326). -/
structure HallLines where
  u : Bool
  v : Bool
  w : Bool
  deriving DecidableEq, Repr

/-- A sin/cos sample in mV about 2.5 V (R327). -/
structure SinCos where
  sin : Int
  cos : Int
  deriving DecidableEq, Repr

/-- An SSI frame as clocked (R328): the data line high before the first clock, the data bits, the bit after them where PAR = 1,
the line low after the last bit. -/
structure SsiFrame where
  high : Bool
  bits : Nat
  par  : Bool
  low  : Bool
  deriving DecidableEq, Repr

structure PfCap where
  val  : Word := 0x80000000#32
  qseq : Word := 0#32
  ts   : Word := 0#32
  deriving DecidableEq, Repr

structure PfChan where
  c    : Word := 0#32
  wrapCnt : Word := 0#32
  z    : Word := 0#32
  noref : Bool := true
  rep  : Word := 0#32
  down : Bool := false
  /-- accepted levels of the lines, the DEVTIME at which each took it (R324), and the last sector of a Hall encoder (R326) -/
  a    : Bool := false
  b    : Bool := false
  zl   : Bool := false
  aAt  : Nat := 0
  bAt  : Nat := 0
  zAt  : Nat := 0
  sector : Option Nat := none
  /-- PFn_Z has been low since the last index event (R331) -/
  zArmed : Bool := false
  idxCnt : Word := 0#32
  qerrCnt : Nat := 0
  /-- DEVTIMEs of errors, latest first (R334) -/
  errs : List Nat := []
  lastErr : Option Nat := none
  outCnt : Nat := 0
  /-- edges of the run, latest first, at most 256: DEVTIME and C (R337, R338) -/
  run  : List (Nat × Word) := []
  runUp : Bool := true
  /-- no second edge since the last error (R337) -/
  noSpeed : Bool := false
  edgeAt : Nat := 0
  edgeDt : Nat := 0
  still : Bool := false
  reversal : Bool := false
  lost : Bool := false
  suspect : Bool := false
  wrap : Bool := false
  amplErr : Bool := false
  amplSeen : Bool := false
  ssiErr : Bool := false
  mismatch : Bool := false
  qerr : Bool := false
  hallSkip : Bool := false
  hallInv : Bool := false
  ampl : Nat := 0
  ssi  : Option Nat := none
  /-- DEVTIME at which the running frame started, where the interface clocks one (R328, R329) -/
  ssiAt : Option Nat := none
  phase : Option Nat := none
  spd  : Int := 0
  last1 : Word := 0#32
  caps : Table PfCap := []
  deriving DecidableEq, Repr

/-- One compare entry: armed, hits, and POS and EN changed since the image was applied (R345). -/
structure CmpEnt where
  armed : Bool := false
  hits : Nat := 0
  pos  : Option Word := none
  en   : Option Bool := none
  deriving DecidableEq, Repr

structure Compare where
  ents : Table CmpEnt := []
  idx  : Nat := 0
  hits : Word := 0#32
  last : Word := 0#32
  err  : Bool := false
  deriving DecidableEq, Repr

/-- What a scan tick measures (R186, R287, R295): load current of each supply in µA, of each digital output in mA, the pins of
the digital outputs, the field supplies in mV. -/
structure ScanMeas where
  exCurrent : List Word
  doCurrent : List Nat
  pins : Word
  fpMv : List Nat
  deriving DecidableEq, Repr

end Sys2Proof.Machine
end

