-- ==== Sys2Proof/Machine/DataInputs.lean ====
section
/-! DEFINITION. State of the universal inputs, excitation supplies, cold junctions (spec/06), of live calibration, pair
watch and triads (spec/07), as plain data. Field defaults are the reset values. -/

namespace Sys2Proof.Machine
open Sys2Proof

/-- One universal input channel. -/
structure UiChan where
  /-- UI_FILT in force: rate code and line filter (R161) -/
  rate : Nat := 0
  line : Bool := false
  /-- an allowed UI_FILT write waiting for the next boundary (R164) -/
  pend : Option (Nat × Bool) := none
  /-- the filter and grid run (R163) -/
  conv : Bool := false
  /-- DEVTIME from which the boundaries of the present grid are spaced, and of the latest boundary that has come (R162) -/
  grid : Nat := 0
  lastAt : Nat := 0
  /-- DEVTIME of the first settled result after the last restart (R161, R178) -/
  settle : Nat := 0
  /-- a settled result has been published since READY (R163) -/
  published : Bool := false
  last : Word := 0#32
  raw  : Int := 0
  gain : Word := 0x40000000#32
  offs : Word := 0#32
  cnt  : Word := 0#32
  forceVal : Word := 0#32
  force : Bool := false
  cfgRefused : Bool := false
  filtRestart : Bool := false
  excRestart : Bool := false
  cjBad : Bool := false
  /-- publisher SRC (R185): 0 own, 1 bypass in a round, 2 bypass after detour, 3 none -/
  src  : Nat := 0
  failed : Bool := false
  /-- RANGE of the last published result and its hold by the window's hysteresis (R208) -/
  hold : Bool := false
  range : Bool := false
  /-- x of the previous non-settling result, and results still needed to clear SUSPECT (R209) -/
  prevX : Option Int := none
  susp : Nat := 0
  /-- curve 12 stands in its cut-off (R169) -/
  cut  : Bool := false
  /-- correction being ramped out (R197, R202): numerator over denominator, ramp length N, next j -/
  rampNum : Int := 0
  rampDen : Nat := 1
  rampN : Nat := 0
  rampJ : Nat := 0
  /-- loop resistance in mΩ found at the last bypass round (R160, R199) -/
  loopR : Nat := 0
  deriving DecidableEq, Repr

/-- One excitation supply. -/
structure ExChan where
  /-- EX_CTRL as written (R187) -/
  on   : Bool := false
  vset : Nat := 0
  /-- the state applied at the last T_c (R177): on, VSET, in regulation -/
  aOn  : Bool := false
  aVset : Nat := 0
  aReg : Bool := false
  /-- a change waits for this instant T_c (R177, R179) -/
  tc : Option Nat := none
  /-- end of the 1 ms after T_c (R177 step 3) -/
  discard : Option Nat := none
  /-- grid of the sensed result, its latest boundary, DEVTIME of its first settled result -/
  grid : Nat := 0
  lastAt : Nat := 0
  settle : Nat := 0
  conv : Bool := false
  published : Bool := false
  last : Word := 0#32
  regOk : Bool := false
  limit : Bool := false
  limitNow : Bool := false
  senseErr : Bool := false
  senseNow : Bool := false
  restart : Bool := false
  refused : Bool := false
  current : Word := 0#32
  deriving DecidableEq, Repr

/-- One cold-junction sensor. -/
structure CjChan where
  conv : Bool := false
  grid : Nat := 0
  lastAt : Nat := 0
  settle : Nat := 0
  deriving DecidableEq, Repr

/-- What the cross-check of a round decided (R197). -/
inductive Verdict where
  | none | agree | disagree
  deriving DecidableEq, Repr

/-- One bypass converter (R190 to R206). -/
structure Bc where
  /-- STEP of BC_STATUS: 0 idle, 1 self-calibration, 2 to 5 round steps, 6 bound, 7 failed -/
  step : Nat := 0
  chan : Nat := 0
  /-- start of the running round t0, of the previous round, and whether one has run -/
  t0   : Nat := 0
  started : Bool := false
  /-- parameters taken at the start of the round (R215) -/
  tol  : Nat := 50
  novl : Nat := 4
  per  : Nat := 10
  /-- settle time and period of the channel in the round -/
  s    : Nat := 0
  p    : Nat := 0
  sum1 : Int := 0
  cnt1 : Nat := 0
  sum2 : Int := 0
  cnt2 : Nat := 0
  /-- step 3 measured: new calibration of the own converter -/
  refs : Bool := false
  newGain : Word := 0#32
  newOffs : Word := 0#32
  verdict : Verdict := .none
  gain : Word := 0x40000000#32
  offs : Word := 0#32
  lastChan : Nat := 0
  outcome : Nat := 0
  lastScan : Nat := 0
  /-- channels of the consecutive disagreeing rounds (R203), latest first -/
  dis  : List Nat := []
  /-- expected period of its record, from its last round (R210) -/
  period : Nat := 0
  /-- last channel served (R193) -/
  pos  : Option Nat := none
  /-- the BC pre-rolls for its channel's failed converter and does not publish yet (R204) -/
  preroll : Bool := false
  deriving DecidableEq, Repr

/-- One pair watch (R211). -/
structure Pair where
  suspect : Bool := false
  /-- DEVTIME from which the present condition (beyond BAND, or within BAND) has held -/
  since : Option Nat := none
  /-- the condition timed: `true` beyond BAND -/
  beyond : Bool := false
  deriving DecidableEq, Repr

/-- One triad (R212). -/
structure Triad where
  state : Nat := 3
  used  : Nat := 0
  last  : Word := 0#32
  voted : Bool := false
  /-- scan tick of the last vote (R212) -/
  voteAt : Option Nat := none
  deriving DecidableEq, Repr

/-- Live calibration and plausibility (spec/07). -/
structure Calib where
  bcs  : Table Bc := []
  rndTol : Nat := 50
  rndNovl : Nat := 4
  rndPeriod : Nat := 10
  rndCnt : Word := 0#32
  /-- disagreement count of each channel (R200) -/
  dis  : Table Nat := []
  pairs : Table Pair := []
  triads : Table Triad := []
  deriving DecidableEq, Repr

/-- Miswire protection (R255 to R257): channels disconnected, sticky flags, reconnection times; bit order of MW_ACT. -/
structure Miswire where
  act : BitVec 128 := 0#128
  flg : BitVec 128 := 0#128
  deriving DecidableEq, Repr

/-- Reference measurement of a converter (R89, R193, R196): gain and offset, and whether the offset lies within ±0.5 %
of SPAN (the offset itself is in modulator LSBs). -/
structure RefMeas where
  gain : Word
  offs : Word
  offsIn : Bool
  deriving DecidableEq, Repr

/-- Reference measurements of CALIBRATE: one per UI channel listed, one per BC. -/
structure CalMeas where
  ui : List (Nat × RefMeas)
  bc : List RefMeas
  deriving DecidableEq, Repr

end Sys2Proof.Machine
end

