-- ==== Sys2Proof/Machine/DataLoop.lean ====
section
/-! DEFINITION. State of the loop outputs, HART masters and pulse outputs (spec/09), as plain data. Field defaults are the
reset values. -/

namespace Sys2Proof.Machine
open Sys2Proof

structure LoChan where
  /-- LO_DEMAND (SRC 0), the lane's output (SRC 1), both in ppm -/
  demand : Int := 0
  laneD : Int := 0
  /-- the lane of SRC 1 is OFF or has delivered nothing since the entry to RUN (R367) -/
  laneOff : Bool := true
  /-- commanded current I in µA (R247) -/
  cmd : Int := 0
  clamp : Bool := false
  /-- characteristic 1 stands in its cut-off (R248) -/
  cut : Bool := false
  srcBad : Bool := false
  /-- last commanded current driven since reset, for HOLD (R95) -/
  driven : Option Int := none
  /-- commanded current summed over the running window in µA × counts, up to DEVTIME `accAt` (R252) -/
  acc : Int := 0
  accAt : Nat := 0
  headroom : Bool := false
  hrRun : Nat := 0
  opn : Bool := false
  opRun : Nat := 0
  fieldOk : Bool := false
  hrSeen : Bool := false
  openSeen : Bool := false
  deriving DecidableEq, Repr

/-- A pass-through request of a HART master (R264). -/
structure HartPass where
  ch : Nat
  tag : Nat
  sender : Nat
  addr : Nat
  cmd : Nat
  data : Bytes
  reply : Nat
  deriving DecidableEq, Repr

/-- The transaction a master runs: a pass-through, or the due variables of one device by one command (R261). -/
inductive HartRun where
  | idle
  | pass
  | vars (addr : Nat) (vs : List Nat)
  /-- identification by command 0 at a polling address (R258) -/
  | ident (addr : Nat)
  deriving DecidableEq, Repr

structure HartM where
  run : HartRun := .idle
  pend : Option HartPass := none
  due : List Nat := []
  lastRc : Nat := 0
  devStat : Nat := 0
  /-- polling addresses of the devices that answer (R263) -/
  live : List Nat := []
  /-- polling addresses of the devices identified by command 0, addressed by long frames since (R258) -/
  ident : List Nat := []
  /-- consecutive failed transactions by polling address -/
  fails : Table Nat := []
  lost : Bool := false
  err : Bool := false
  noResp : Nat := 0
  commErr : Nat := 0
  deriving DecidableEq, Repr

/-- A response a HART master receives: response code, device status, whether the code is an error under HART 7, data bytes,
and per variable read its float and its two command 9 status bits (`none`: command 3). -/
structure HartResp where
  rc : Byte
  devStat : Byte
  isErr : Bool
  data : Bytes
  vals : List (Nat × Word × Option Nat)
  deriving DecidableEq, Repr

/-- What a pulse output drives: constant levels, PWM at a frequency in Hz and a duty in ppm, or 50 % at a frequency in mHz
(R265). -/
inductive PoPin where
  | low | high
  | pwm (hz : Nat) (ppm : Int)
  | freq (mHz : Int)
  deriving DecidableEq, Repr

structure PoChan where
  set : Int := 0
  laneD : Int := 0
  laneOff : Bool := true
  /-- value in effect: duty ppm or frequency mHz, taken at the last rising edge (R266) -/
  out : Int := 0
  clamp : Bool := false
  clampSeen : Bool := false
  srcBad : Bool := false
  pulse : Bool := false
  pulseEnd : Nat := 0
  /-- what was last driven by command since reset, for HOLD (R95) -/
  driven : Option PoPin := none
  deriving DecidableEq, Repr

end Sys2Proof.Machine
end

