-- ==== Sys2Proof/Machine/DataAlarm.lean ====
section
/-! DEFINITION. State of the alarm engine, groups, watch calls and patrol (spec/14), as plain data. Field defaults are the
reset values. -/

namespace Sys2Proof.Machine
open Sys2Proof

/-- One alarm point: STATE by the codes of R386. -/
structure AlmPt where
  st   : Nat := 0
  cond : Bool := false
  srcBad : Bool := false
  /-- starts of the running delays (R384); a mirrored start can lie before this module's DEVTIME 0 (R452) -/
  onAt : Option Int := none
  offAt : Option Int := none
  suppPend : Bool := false
  /-- previous usable record: E and completion time in µs (R383) -/
  prevE : Option (Int × Int) := none
  shelveEnd : Option Nat := none
  /-- start of the on-delay that brought the point into ACTIVE_UNACK (R392) -/
  upAt : Int := 0
  tick : Word := 0#32
  /-- order of the last transition among the points' (R436) -/
  order : Nat := 0
  deriving DecidableEq, Repr

structure AlmGrp where
  supp : Bool := false
  holds : Bool := false
  /-- DEVTIME at which GDELAY runs out -/
  dlyEnd : Option Nat := none
  /-- first-out latch: point plus one -/
  fo   : Nat := 0
  deriving DecidableEq, Repr

/-- Inputs worked at the next scan tick, step 4 of R385. -/
inductive AlmIn where
  | ack (s : Nat) | duty (v : Nat) | start | stop | press
  /-- ALM_CMD and ALM_XCMD words that found the engine paused (R30) -/
  | cmd (v : Word) | xcmd (v : Word)
  deriving DecidableEq, Repr

structure AlmLog where
  w0 : Word := 0#32
  w1 : Word := 0#32
  time : Nat := 0
  deriving DecidableEq, Repr

structure Alarms where
  pts  : Table AlmPt := []
  grps : Table AlmGrp := []
  /-- points that entered ACTIVE_UNACK since the previous tick: point, state before, latch clear at the entry -/
  entered : List (Nat × Nat × Bool) := []
  inq  : List AlmIn := []
  level : Nat := 0
  cause : Nat := 0
  callAt : Int := 0
  escAt : Option Nat := none
  recallAt : Option Nat := none
  /-- a PATROL call ended at the previous tick (R396) -/
  repat : Bool := false
  duty : Nat := 0
  dutyW : Nat := 0
  patrol : Nat := 0
  patEnd : Nat := 0
  patWarn : Nat := 0
  log  : Table AlmLog := []
  head : Nat := 0
  logWrap : Bool := false
  refused : Bool := false
  idx  : Nat := 0
  gidx : Nat := 0
  /-- changes of alert states not yet sent: point and new state (R512) -/
  alfDue : List (Nat × Nat) := []
  deriving DecidableEq, Repr

end Sys2Proof.Machine
end

