-- ==== Sys2Proof/Machine/DataLane.lean ====
section
/-! DEFINITION. State of the control lanes, test generators and captures (spec/13), as plain data. Field defaults are the
reset values. -/

namespace Sys2Proof.Machine
open Sys2Proof

/-- A parameter set (R375, R376). -/
structure LnPar where
  kp : Int := 0
  ki : Int := 0
  kd : Int := 0
  kf : Int := 0
  shifts : Word := 0#32
  ilo : Int := 0
  ihi : Int := 0
  olo : Int := 0
  ohi : Int := 0
  feLim : Int := 0
  feTime : Nat := 0
  deriving DecidableEq, Repr

/-- A lane as other lanes that fall due at the same tick see it (R351, R363, R364). -/
structure LnView where
  act : Nat := 0
  hi  : Bool := false
  lo  : Bool := false
  sp  : Int := 0
  spLast : Option Int := none
  started : Bool := false
  deriving DecidableEq, Repr

structure Lane where
  par  : LnPar := {}
  pendp : LnPar := {}
  req  : Nat := 0
  /-- a request waits for the next evaluation (R353), and whether LN_MODE or an action made it (R368) -/
  reqNew : Bool := false
  reqHost : Bool := false
  act  : Nat := 0
  sp   : Int := 0
  man  : Int := 0
  spEff : Int := 0
  /-- SP in use at the latest evaluation, test signal apart (R365) -/
  spUse : Int := 0
  /-- LN_SP as the latest evaluation read it (R353) -/
  spEv : Int := 0
  pv   : Int := 0
  p    : Int := 0
  i    : Int := 0
  ires : Nat := 0
  d    : Int := 0
  f    : Int := 0
  fres : Nat := 0
  /-- output of the latest evaluation since the entry to RUN (R361) -/
  u    : Option Int := none
  /-- output delivered, its completion DEVTIME, and the one before (R363) -/
  out  : Option Int := none
  outAt : Nat := 0
  outPrev : Option Int := none
  spLast : Option Int := none
  /-- mode of the previous evaluation since the entry to RUN, and whether its PV was valid (R361) -/
  prevAct : Option Nat := none
  prevPv : Bool := false
  xfer : Bool := false
  dadd : Option Int := none
  /-- start of the following-error timer, and whether this run of it has reached FE_TIME (R368) -/
  feAt : Option Nat := none
  feDone : Bool := false
  /-- fine tick of the latest evaluation, and the lane as it stood before it -/
  tick : Option Nat := none
  view : LnView := {}
  sat  : Nat := 0
  frozen : Bool := false
  hi   : Bool := false
  lo   : Bool := false
  pvBad : Bool := false
  spBad : Bool := false
  trkBad : Bool := false
  outerTrk : Bool := false
  follow : Bool := false
  testRefused : Bool := false
  cmdRefused : Bool := false
  pvSeen : Bool := false
  feSeen : Bool := false
  deriving DecidableEq, Repr

/-- A test generator and its capture (R371 to R374): STATE 0 idle, 1 pre-roll, 2 injecting, 3 DONE, 4 ABORTED. -/
structure LnGen where
  state : Nat := 0
  lane : Nat := 0
  cfg  : Bytes := []
  k    : Nat := 0
  lfsr : Nat := 0
  t0   : Nat := 0
  per  : Nat := 0
  /-- samples, latest first: SP_EFF, PV, u -/
  samples : List (Word × Word × Word) := []
  deriving DecidableEq, Repr

end Sys2Proof.Machine
end

