-- ==== Sys2Proof/Machine/DataSeq.lean ====
section
/-! DEFINITION. State of the sequencer (spec/15), as plain data. Field defaults are the reset values. -/

namespace Sys2Proof.Machine
open Sys2Proof

/-- One sequence. STATE 0 IDLE, 1 RUNNING, 2 HELD, 3 DONE; its clock runs while RUNNING (R405, R408). -/
structure Seq where
  st   : Nat := 0
  hcause : Nat := 0
  step : Nat := 0
  prev : Nat := 0
  /-- running time in DEVTIME counts before `since`, and the DEVTIME since which it runs -/
  acc  : Nat := 0
  since : Option Nat := none
  /-- running time at the entry of the present step, and its SCAN_CNT (R407) -/
  stepAt : Nat := 0
  entered : Option Nat := none
  /-- running times at which the four timers expire -/
  tmr  : List (Option Nat) := [none, none, none, none]
  v    : List Int := List.replicate 8 0
  vld  : Nat := 0
  varBad : Bool := false
  actRefused : Bool := false
  cmdRefused : Bool := false
  tmoSeen : Bool := false
  /-- commands waiting for the next scan tick (R406) -/
  q    : List Word := []
  /-- steps whose entry actions wait for the partner's acknowledgement (R452) -/
  acts : List Nat := []
  deriving DecidableEq, Repr

structure Sequencer where
  seqs : Table Seq := []
  /-- the entry to RUN has not been worked yet (R411) -/
  auto : Bool := false
  sidx : Nat := 0
  deriving DecidableEq, Repr

end Sys2Proof.Machine
end

