-- ==== Sys2Proof/Machine/DataMirror.lean ====
section
/-! DEFINITION. What a MIRROR carries (spec/17 R452), as plain data in the sender's times, and what a STANDBY keeps of it. -/

namespace Sys2Proof.Machine
open Sys2Proof

/-- The state of a role as a checkpoint holds it (R28): lanes of a CTL role, alarm state, sequencer. The roles that keep no state the spec names leave every part at its default (notes/assumptions/54.md). -/
structure RoleState where
  ln  : Table Lane := []
  alm : Alarms := {}
  seq : Sequencer := {}
  deriving DecidableEq, Repr

/-- The two checkpoint copies of a role and which was written last; `none`: not whole (R28). -/
structure Ckpt where
  a : Option RoleState := none
  b : Option RoleState := none
  lastB : Bool := false
  deriving DecidableEq, Repr

/-- A MIRROR. `at_` is the sender's DEVTIME, from which every time in it is a time elapsed or remaining. -/
structure Mirror where
  at_   : Nat
  store : Table Result
  /-- sequence numbers last given to the slots' records -/
  seqs  : Table Byte
  alm   : Alarms
  ln    : Table Lane
  /-- sequences, `acc` holding the running time and `since` absent -/
  sq    : Table Seq
  latched : Word
  /-- queued firing of each shaped output: profile and duration -/
  queues : Table (Nat × Nat)
  deriving DecidableEq, Repr

/-- What a scrub pass finds (R466): memory macro and row of an error. -/
inductive ScrubFind where
  | clean
  | corrected (mem : Fin 64) (row : Fin 65536)
  /-- uncorrectable, in the entry of result `r` -/
  | result (r : Fin 518) (mem : Fin 64) (row : Fin 65536)
  /-- uncorrectable, in checkpoint memory; `other`: the other copy is whole -/
  | checkpoint (mem : Fin 64) (row : Fin 65536) (other : Bool)
  /-- uncorrectable, in another state memory (R454) -/
  | state (mem : Fin 64) (row : Fin 65536)
  /-- uncorrectable, in a memory that holds no state -/
  | other (mem : Fin 64) (row : Fin 65536)
  deriving DecidableEq, Repr

/-- The STANDBY's side of the mirror (R452, R453, R458). -/
structure Mirrored where
  /-- arrived and not yet applied; any MIRROR arrived since the last scan tick -/
  pend : Option Mirror := none
  got  : Bool := false
  seqs : Table Byte := []
  latched : Word := 0#32
  /-- the MIRROR last sent by the module that carries the plant -/
  sent : Option Mirror := none
  /-- results of the STANDBY's own producers -/
  shadow : Table Result := []
  deriving DecidableEq, Repr

end Sys2Proof.Machine
end

