-- ==== Sys2Proof/Machine/DataNet.lean ====
section
/-! DEFINITION. State of the network island: Ethernet ports, Modbus connections, alerts, CAN controllers (spec/19), as plain
data, and what their frames carry. Field defaults are the reset values. -/

namespace Sys2Proof.Machine
open Sys2Proof

structure EthPort where
  link : Bool := false
  fd   : Bool := false
  /-- open Modbus connections: client, and DEVTIME of its last request (R507) -/
  conns : List (Nat × Nat) := []
  deriving DecidableEq, Repr

/-- A CAN controller: 1 error active, 2 error passive, 3 bus-off while it is on (R514, R520). -/
structure CanPort where
  st  : Nat := 1
  rec_ : Nat := 0
  tec : Nat := 0
  deriving DecidableEq, Repr

/-- What identifies a Modbus request: port, client connection, transaction, unit (R507). -/
structure MbReq where
  net  : Bool
  client : Nat
  tid  : BitVec 16
  unit : Byte
  deriving DecidableEq, Repr

/-- Who waits for the answer to a forwarded write (R451). A Modbus request writes one register after another: its function,
register and value or count, whether this is its last write, and the first status that was not OK. -/
inductive FwdOrg where
  | spi
  | wf (sess : Word)
  | svc
  | port (p : HostPort)
  | modbus (q : MbReq) (func reg arg : Nat) (final : Bool) (bad : Nat)
  | none
  deriving DecidableEq, Repr

/-- FWD frame (R451): a host write with the identity of its port, or the answer's status. -/
inductive FwdMsg where
  | write (p : HostPort) (addr : BitVec 15) (v : Word)
  | answer (status : Byte)
  deriving DecidableEq, Repr

/-- The network block. -/
structure Net where
  ethA : EthPort := {}
  ethB : EthPort := {}
  acnBad : Nat := 0
  arcSent : Nat := 0
  can0 : CanPort := {}
  can1 : CanPort := {}
  impErr : Nat := 0
  rawLost0 : Nat := 0
  rawLost1 : Nat := 0
  /-- VALUE last published for each imported signal (R516) -/
  lastVal : Table Word := []
  /-- state last sent in an ALF and revision counter, by alert identifier; states 0 N, 1 V, 2 A, 3 U (R512) -/
  alerts : Table Nat := []
  revs : Table Nat := []
  /-- UTC of each alert's last change, in 1/100 s of the day, and what each station's watch call was last seen at (R512) -/
  alertAt : Table Nat := []
  callSeen : Table Nat := []
  /-- line count of the TAG block (R511) -/
  line : Nat := 0
  /-- outstanding access of the CAN service: TAG and access (R518) -/
  svc  : Option (Byte × Acc) := none
  /-- forwarded writes that wait for their answers, oldest first (R451) -/
  fwds : List FwdOrg := []
  deriving DecidableEq, Repr

/-- A received CAN frame (R515 to R517). -/
structure CanFrame where
  port : Bool
  ide  : Bool
  fd   : Bool
  brs  : Bool
  id   : BitVec 29
  data : Bytes
  deriving DecidableEq, Repr

/-- An alert as an ACN names it (R512): an alarm point, the watch call at a station. -/
inductive AlertRef where
  | point (i : Fin 4096)
  | call (s : Fin 16)
  deriving DecidableEq, Repr

/-- An ACN of command S, else O, and the alert it names (R513). -/
structure AcnUse where
  silence : Bool
  alert : AlertRef
  deriving DecidableEq, Repr

/-- The version limits a HELLO carries (R117). -/
structure VerRange where
  least : Byte
  most : Byte
  deriving DecidableEq, Repr

end Sys2Proof.Machine
end

