-- ==== Sys2Proof/Syntax.lean ====
section
/-! DEFINITION. The commands of the block: one constructor per row of the spec's table of operations and events.
`p` is the host port that makes an access; `t` is the DEVTIME count at which a happening comes about
(notes/assumptions/2.md); a measured or received value is an operand. -/

namespace Sys2Proof

/-- The commands of the JM7740. Each constructor's docstring names its row and the rule the row cites. -/
inductive Instr where
  /-- SCAN_TICK (R25). -/
  | scanTick (x : Machine.ScanMeas)
  /-- FINE_TICK (R25). -/
  | fineTick (pins : Word)
  /-- ISLAND_FAULT (R17). -/
  | islandFault (i : Fin 12) (t : Nat)
  /-- CAUSEWAY_TIMEOUT (R20). -/
  | causewayTimeout (src : Fin 12) (dst : Fin 12) (t : Nat)
  /-- HOST_ACCESS_COMPLETE (R112). -/
  | hostAccessComplete (r : Machine.AccessRef) (t : Nat)
  /-- DEVTIME_LO_READ (R27). -/
  | devtimeLoRead (p : HostPort)
  /-- DEVTIME_HI_READ (R27). -/
  | devtimeHiRead (p : HostPort)
  /-- ENGINE_FAILURE (R29). -/
  | engineFailure (e : Fin 16) (c : EngCause) (t : Nat)
  /-- SPARE_START (R29). -/
  | spareStart (e : Fin 16) (t : Nat)
  /-- LOCKSTEP_MISMATCH (R32). -/
  | lockstepMismatch (t : Nat)
  /-- JUNCTION_DRAIN (R37). -/
  | junctionDrain
  /-- RESULT_VALUE_READ (R47). -/
  | resultValueRead (p : HostPort) (r : Fin 518) (ecc : Ecc)
  /-- RESULT_QSEQ_READ (R47). -/
  | resultQseqRead (p : HostPort) (r : Fin 518)
  /-- STALE_TIMEOUT (R210). -/
  | staleTimeout (r : Fin 518) (t : Nat)
  /-- SCRUB_PASS (R466). -/
  | scrubPass (f : Machine.ScrubFind) (t : Nat)
  /-- ROUTE_MAP_LOAD (R68). -/
  | routeMapLoad (flashErr : Bool) (t : Nat)
  /-- ROUTE_MAP_VERIFY (R68). -/
  | routeMapVerify (t : Nat)
  /-- STG_ADDR_WRITE (R73). -/
  | stgAddrWrite (p : HostPort) (v : Word)
  /-- STG_DATA_WRITE (R73). -/
  | stgDataWrite (p : HostPort) (v : Word)
  /-- STG_DATA_READ (R73). -/
  | stgDataRead (p : HostPort)
  /-- CHECK (R74). -/
  | checkImg (p : HostPort) (key : BitVec 16)
  /-- CHECK_COMPLETE (R75). -/
  | checkComplete
  /-- COMMIT (R76). -/
  | commitImg (p : HostPort) (key : BitVec 16)
  /-- PROGRAM_A (R74). -/
  | programA (p : HostPort) (key : BitVec 16)
  /-- PROGRAM_B (R74). -/
  | programB (p : HostPort) (key : BitVec 16)
  /-- PROGRAM_COMPLETE (R75). -/
  | programComplete (ok : Bool) (t : Nat)
  /-- PREFER_A (R74). -/
  | preferA (p : HostPort) (key : BitVec 16)
  /-- PREFER_B (R74). -/
  | preferB (p : HostPort) (key : BitVec 16)
  /-- ABORT (R74). -/
  | abortImg (p : HostPort) (key : BitVec 16)
  /-- LIVE_DATA_WRITE (R78). -/
  | liveDataWrite (p : HostPort) (v : Word)
  /-- SUBMIT (R78). -/
  | submitLive (p : HostPort)
  /-- CANCEL (R78). -/
  | cancelLive (p : HostPort)
  /-- LIVE_CHECK_COMPLETE (R78). -/
  | liveCheckComplete
  /-- LIVE_REPLACEMENT (R79). -/
  | liveReplacement (t : Nat)
  /-- SUPPLY_VALID (R88). -/
  | supplyValid (roleIn : Bool)
  /-- SUPPLY_INVALID (R524). -/
  | supplyInvalid
  /-- RESET_PIN (R99). -/
  | resetPin (low : Bool) (roleIn : Bool)
  /-- WATCHDOG_EXPIRY (R99). -/
  | watchdogExpiry (roleIn : Bool)
  /-- RUN (R102). -/
  | runCmd (p : HostPort) (key : BitVec 16)
  /-- RUN_ENTRY (R91). -/
  | runEntry (t : Nat)
  /-- HALT (R102). -/
  | haltCmd (p : HostPort) (key : BitVec 16)
  /-- HALT_EFFECT (R92). -/
  | haltEffect (t : Nat)
  /-- SAFE (R83). -/
  | safeCmd (p : HostPort) (key : BitVec 16)
  /-- RESET (R99). -/
  | resetCmd (p : HostPort) (key : BitVec 16) (roleIn : Bool)
  /-- INITIAL_CALIBRATION_COMPLETE (R89). -/
  | initialCalibrationComplete (m : Machine.CalMeas) (roleIn : Bool) (t : Nat)
  /-- FEED_LOST (R524). -/
  | feedLost (b : Bool) (t : Nat)
  /-- FEED_REGAINED (R524). -/
  | feedRegained (b : Bool) (t : Nat)
  /-- OVERTEMP_SET (R528). -/
  | overtempSet (t : Nat)
  /-- OVERTEMP_CLEAR (R528). -/
  | overtempClear (t : Nat)
  /-- SPI_NOP (R109). -/
  | spiNop (op : BitVec 4) (tag : Byte) (addr : BitVec 15) (t : Nat)
  /-- SPI_READ (R112). -/
  | spiRead (tag : Byte) (addr : BitVec 15) (t : Nat)
  /-- SPI_WRITE (R112). -/
  | spiWrite (tag : Byte) (addr : BitVec 15) (v : Word) (t : Nat)
  /-- SPI_FRAME_ERROR (R113). -/
  | spiFrameError (t : Nat)
  /-- HELLO (R117). -/
  | hello (net : Bool) (client : Nat) (ver : Machine.VerRange) (seq : BitVec 16) (sess : Word) (whole : Bool) (t : Nat)
  /-- CLOSE (R117). -/
  | closeSess (q : WfReq) (t : Nat)
  /-- WAYFARE_READ (R119). -/
  | wayfareRead (q : WfReq) (addr : Word) (t : Nat)
  /-- WAYFARE_WRITE (R119). -/
  | wayfareWrite (q : WfReq) (addr : Word) (v : Word) (t : Nat)
  /-- BURST_READ (R120). -/
  | burstRead (q : WfReq) (addr : Word) (count : BitVec 16) (mode : BitVec 16) (t : Nat)
  /-- MBX_POST (R146). -/
  | mbxPost (q : WfReq) (ch : Byte) (msg : List Word) (t : Nat)
  /-- MBX_FETCH (R146). -/
  | mbxFetch (q : WfReq) (ch : Byte) (t : Nat)
  /-- SUBSCRIBE (R121). -/
  | subscribe (q : WfReq) (period : BitVec 16) (mode : Byte) (addrs : List Word) (t : Nat)
  /-- SNAP (R124). -/
  | snapOp (q : WfReq) (t : Nat)
  /-- WAYFARE_BAD_DATAGRAM (R116). -/
  | wayfareBadDatagram (net : Bool) (t : Nat)
  /-- SESSION_EXPIRY (R117). -/
  | sessionExpiry (sess : Word) (t : Nat)
  /-- SNAP_TRIGGER (R124). -/
  | snapTrigger (p : HostPort) (t : Nat)
  /-- SNAP_COPY_COMPLETE (R124). -/
  | snapCopyComplete (p : HostPort) (t : Nat)
  /-- SNAP_ADDR_WRITE (R126). -/
  | snapAddrWrite (p : HostPort) (v : Word)
  /-- SNAP_DATA_READ (R126). -/
  | snapDataRead (p : HostPort)
  /-- BLK_CTRL_WRITE (R129). -/
  | blkCtrlWrite (p : HostPort) (b : Fin 24) (v : Word)
  /-- EXPERT_TIMEOUT (R131). -/
  | expertTimeout (b : Fin 24)
  /-- REGISTER_WRITE (R130). -/
  | registerWrite (p : HostPort) (addr : BitVec 15) (v : Word) (t : Nat)
  /-- EVT_STAT_WRITE (R135). -/
  | evtStatWrite (p : HostPort) (m : Fin 4) (v : Word) (same : Word)
  /-- EVT_MASK_WRITE (R136). -/
  | evtMaskWrite (p : HostPort) (m : Fin 4) (v : Word)
  /-- EVT_ROUTE_WRITE (R136). -/
  | evtRouteWrite (p : HostPort) (m : Fin 16) (v : Word)
  /-- EVT_MSGQ_READ (R139). -/
  | evtMsgqRead (p : HostPort)
  /-- EVT_MSG_STAT_WRITE (R141). -/
  | evtMsgStatWrite (p : HostPort) (v : Word)
  /-- MB_POST (R147). -/
  | mbPost (id : Byte) (ch : Fin 32)
  /-- MB_FETCH (R146). -/
  | mbFetch (id : Byte) (ch : Fin 32)
  /-- MB_ACK (R148). -/
  | mbAck (id : Byte) (ch : Fin 32) (v : Word)
  /-- UI_CONVERSION_COMPLETE (R162). -/
  | uiConversionComplete (n : Fin 64) (own : Int) (byp : Int) (lead : Int) (t : Nat)
  /-- UI_FILT_WRITE (R164). -/
  | uiFiltWrite (p : HostPort) (n : Fin 64) (v : Word)
  /-- UI_FILTER_RESTART (R164). -/
  | uiFilterRestart (n : Fin 64) (t : Nat)
  /-- UI_FORCE_CTRL_WRITE (R182). -/
  | uiForceCtrlWrite (p : HostPort) (n : Fin 64) (v : Word)
  /-- CJ_CONVERSION_COMPLETE (R174). -/
  | cjConversionComplete (n : Fin 8) (mC : Int) (t : Nat)
  /-- EX_CONVERSION_COMPLETE (R175). -/
  | exConversionComplete (n : Fin 16) (nv : Int) (t : Nat)
  /-- EX_CTRL_WRITE (R187). -/
  | exCtrlWrite (p : HostPort) (n : Fin 16) (v : Word)
  /-- EXC_CHANGE_APPLY (R177). -/
  | excChangeApply (n : Fin 16) (t : Nat)
  /-- EXC_SETTLE_END (R177). -/
  | excSettleEnd (n : Fin 16) (t : Nat)
  /-- EX_REG_OK_CHANGE (R181). -/
  | exRegOkChange (n : Fin 16) (ok : Bool) (t : Nat)
  /-- EX_LIMIT_ONSET (R181). -/
  | exLimitOnset (n : Fin 16) (holds : Bool) (t : Nat)
  /-- EX_SENSE_ERR_ONSET (R181). -/
  | exSenseErrOnset (n : Fin 16) (holds : Bool) (t : Nat)
  /-- BYPASS_ROUND_START (R193). -/
  | bypassRoundStart (b : Fin 4) (t : Nat)
  /-- BYPASS_TAKEOVER (R195). -/
  | bypassTakeover (b : Fin 4) (loopR : Nat) (t : Nat)
  /-- BYPASS_REFERENCES_DONE (R196). -/
  | bypassReferencesDone (b : Fin 4) (m : Machine.RefMeas) (t : Nat)
  /-- BYPASS_CROSS_CHECK (R197). -/
  | bypassCrossCheck (b : Fin 4) (t : Nat)
  /-- BYPASS_HANDBACK (R194). -/
  | bypassHandback (b : Fin 4) (t : Nat)
  /-- BC_SELF_CAL_COMPLETE (R193). -/
  | bcSelfCalComplete (b : Fin 4) (m : Machine.RefMeas) (t : Nat)
  /-- CONVERTER_FAULT (R204). -/
  | converterFault (n : Fin 64) (t : Nat)
  /-- PAIR_WATCH_TIMER (R211). -/
  | pairWatchTimer (k : Fin 64) (t : Nat)
  /-- TRIAD_VOTE (R212). -/
  | triadVote (k : Fin 16) (t : Nat)
  /-- CA_SAMPLE_TRIGGER (R220). -/
  | caSampleTrigger (n : Fin 16) (t : Nat)
  /-- CA_CONVERSION_END (R220). -/
  | caConversionEnd (n : Fin 16) (q : Int) (t : Nat)
  /-- CA_RESET_OPEN (R226). -/
  | caResetOpen (n : Fin 16) (t : Nat)
  /-- CA_CYCLE_ABANDON (R224). -/
  | caCycleAbandon (n : Fin 16) (t : Nat)
  /-- CA_RECORD_COMPLETE (R238). -/
  | caRecordComplete (n : Fin 16) (t : Nat)
  /-- CA_RANGE_REQUEST (R239). -/
  | caRangeRequest (p : HostPort) (n : Fin 16) (v : Word)
  /-- BUF_OPEN (R231). -/
  | bufOpen (p : HostPort) (n : Fin 16) (t : Nat)
  /-- BUF_RELEASE (R231). -/
  | bufRelease (p : HostPort) (n : Fin 16)
  /-- CA_BUF_DATA_READ (R231). -/
  | caBufDataRead (p : HostPort) (n : Fin 16)
  /-- BUF_HOLD_TIMEOUT (R231). -/
  | bufHoldTimeout (p : HostPort) (n : Fin 16) (t : Nat)
  /-- LO_DEMAND_WRITE (R249). -/
  | loDemandWrite (p : HostPort) (n : Fin 16) (v : Word)
  /-- LO_READBACK (R251): the window's mean current, and whether the field side is powered and communicating. -/
  | loReadback (n : Fin 16) (mean : Int) (comm : Bool) (t : Nat)
  /-- LO_FIELD_SUPPLY_LOSS (R253). -/
  | loFieldSupplyLoss (n : Fin 16) (lost : Bool) (t : Nat)
  /-- MISWIRE_DETECT (R255). -/
  | miswireDetect (ch : Fin 128) (t : Nat)
  /-- MISWIRE_RECONNECT (R257). -/
  | miswireReconnect (ch : Fin 128) (t : Nat)
  /-- HART_VARIABLE_DUE (R261). -/
  | hartVariableDue (v : Fin 128) (t : Nat)
  /-- HART_TRANSACTION_COMPLETE (R262). -/
  | hartTransactionComplete (m : Fin 32) (resp : Machine.HartResp) (t : Nat)
  /-- HART_PASS_THROUGH (R264). -/
  | hartPassThrough (ch : Fin 32) (t : Nat)
  /-- PO_PERIOD_BOUNDARY (R266). -/
  | poPeriodBoundary (n : Fin 8) (t : Nat)
  /-- PO_PULSE_END (R265). -/
  | poPulseEnd (n : Fin 8) (t : Nat)
  /-- DI_CHANGE_ACCEPTED (R273). -/
  | diChangeAccepted (n : Fin 48) (lvl : Bool) (t : Nat)
  /-- DI_OPEN_WIRE (R274). -/
  | diOpenWire (n : Fin 48) (opn : Bool) (t : Nat)
  /-- DI_GROUP_OT (R276). -/
  | diGroupOt (g : Fin 6) (on : Bool) (t : Nat)
  /-- SS_OVERLOAD (R279). -/
  | ssOverload (n : Fin 6) (t : Nat)
  /-- SS_RETRY (R279). -/
  | ssRetry (n : Fin 6) (ok : Bool) (t : Nat)
  /-- DO_CMD_WRITE (R296). -/
  | doCmdWrite (p : HostPort) (n : Fin 32) (v : Word) (t : Nat)
  /-- TP_CYCLE_START (R281). -/
  | tpCycleStart (n : Fin 32) (t : Nat)
  /-- TP_OFF_EDGE (R281). -/
  | tpOffEdge (n : Fin 32) (t : Nat)
  /-- DO_OVERLOAD (R283). -/
  | doOverload (n : Fin 32) (t : Nat)
  /-- DO_OVERTEMP (R284). -/
  | doOvertemp (n : Fin 32) (t : Nat)
  /-- DO_OVERTEMP_CLEAR (R284). -/
  | doOvertempClear (n : Fin 32) (t : Nat)
  /-- DO_OPEN_WIRE (R285). -/
  | doOpenWire (n : Fin 32) (which : Bool) (opn : Bool) (t : Nat)
  /-- DARK_TEST (R286). -/
  | darkTest (n : Fin 32) (t : Nat)
  /-- DARK_TEST_END (R286). -/
  | darkTestEnd (n : Fin 32) (fell : Bool) (t : Nat)
  /-- DO_PULSE_END (R280). -/
  | doPulseEnd (n : Fin 32) (t : Nat)
  /-- IL_RESET_WRITE (R290). -/
  | ilResetWrite (p : HostPort) (v : Word) (t : Nat)
  /-- SV_FIRE_WRITE (R310). -/
  | svFireWrite (p : HostPort) (n : Fin 16) (v : Word) (t : Nat)
  /-- QUEUED_FIRING_START (R314). -/
  | queuedFiringStart (n : Fin 16) (t : Nat)
  /-- END (R304). -/
  | endIns (n : Fin 16) (t : Nat)
  /-- SETI (R304). -/
  | seti (n : Fin 16) (t : Nat)
  /-- RAMP (R304). -/
  | ramp (n : Fin 16) (t : Nat)
  /-- WAITT (R304). -/
  | waitt (n : Fin 16) (t : Nat)
  /-- WAITI (R304). -/
  | waiti (n : Fin 16) (t : Nat)
  /-- WAITP (R304). -/
  | waitp (n : Fin 16) (t : Nat)
  /-- HOLD (R304). -/
  | holdIns (n : Fin 16) (t : Nat)
  /-- FREEW (R304). -/
  | freew (n : Fin 16) (t : Nat)
  /-- QUENCH (R304). -/
  | quench (n : Fin 16) (t : Nat)
  /-- MARK (R304). -/
  | markIns (n : Fin 16) (t : Nat)
  /-- JIF (R304). -/
  | jif (n : Fin 16) (t : Nat)
  /-- LOOP (R306). -/
  | loopIns (n : Fin 16) (t : Nat)
  /-- FLAG (R304). -/
  | flagIns (n : Fin 16) (t : Nat)
  /-- ILLEGAL_INSTRUCTION (R309). -/
  | illegalInstruction (n : Fin 16) (t : Nat)
  /-- WAITT_EXPIRY (R304). -/
  | waittExpiry (n : Fin 16) (t : Nat)
  /-- WAITI_MET (R304). -/
  | waitiMet (n : Fin 16) (t : Nat)
  /-- WAITI_TIMEOUT (R304). -/
  | waitiTimeout (n : Fin 16) (t : Nat)
  /-- WAITP_REACHED (R304). -/
  | waitpReached (n : Fin 16) (t : Nat)
  /-- WAITP_EARLY_END (R307). -/
  | waitpEarlyEnd (n : Fin 16) (t : Nat)
  /-- HOLD_END (R304). -/
  | holdEnd (n : Fin 16) (t : Nat)
  /-- RAMP_COMPLETE (R304). -/
  | rampComplete (n : Fin 16) (t : Nat)
  /-- STAGGER_EXPIRY (R316). -/
  | staggerExpiry (n : Fin 16) (t : Nat)
  /-- SV_OVER_CURRENT (R317). -/
  | svOverCurrent (n : Fin 16) (t : Nat)
  /-- BANK_OVER_CURRENT (R317). -/
  | bankOverCurrent (k : Fin 8) (t : Nat)
  /-- PF_EDGE (R325). -/
  | pfEdge (n : Fin 8) (e : Machine.PfStep) (t : Nat)
  /-- QUADRATURE_ERROR (R325). -/
  | quadratureError (n : Fin 8) (e : Machine.PfStep) (t : Nat)
  /-- HALL_ERROR (R326). -/
  | hallError (n : Fin 8) (e : Machine.HallLines) (t : Nat)
  /-- AMPLITUDE_ERROR (R327). -/
  | amplitudeError (n : Fin 8) (e : Machine.SinCos) (t : Nat)
  /-- SSI_FRAME_END (R328). -/
  | ssiFrameEnd (n : Fin 8) (frame : Machine.SsiFrame) (t : Nat)
  /-- PF_RAW_READ (R330). -/
  | pfRawRead (p : HostPort) (n : Fin 8)
  /-- PF_CAP_READ (R343). -/
  | pfCapRead (p : HostPort) (n : Fin 8) (k : Fin 4)
  /-- PF_CTRL_CLR (R335). -/
  | pfCtrlClr (p : HostPort) (n : Fin 8) (v : Word)
  /-- STILL_TIMEOUT (R337). -/
  | stillTimeout (n : Fin 8) (t : Nat)
  /-- CMP_SETPOS (R345). -/
  | cmpSetpos (p : HostPort) (v : Word)
  /-- CMP_SETEN (R345). -/
  | cmpSeten (p : HostPort) (v : Word)
  /-- LANE_EVALUATION (R355). -/
  | laneEvaluation (n : Fin 32) (t : Nat)
  /-- LN_MODE_REQUEST (R360). -/
  | lnModeRequest (p : HostPort) (n : Fin 32) (v : Word)
  /-- APPLY (R375). -/
  | applyLane (p : HostPort) (n : Fin 32)
  /-- FOLLOWING_ERROR (R368). -/
  | followingError (n : Fin 32) (t : Nat)
  /-- TEST_START (R371). -/
  | testStart (p : HostPort) (n : Fin 32) (t : Nat)
  /-- TEST_STOP (R373). -/
  | testStop (p : HostPort) (n : Fin 32) (t : Nat)
  /-- LN_CAP_DATA_READ (R374). -/
  | lnCapDataRead (p : HostPort) (n : Fin 32)
  /-- ON_DELAY_EXPIRY (R384). -/
  | onDelayExpiry (i : Fin 4096) (t : Nat)
  /-- OFF_DELAY_EXPIRY (R384). -/
  | offDelayExpiry (i : Fin 4096) (t : Nat)
  /-- SHELVE_EXPIRY (R389). -/
  | shelveExpiry (i : Fin 4096) (t : Nat)
  /-- GROUP_RELEASE (R391). -/
  | groupRelease (g : Fin 256) (t : Nat)
  /-- ACK (R389). -/
  | ackPt (p : HostPort) (i : Fin 4096) (t : Nat)
  /-- ACK_GROUP (R389). -/
  | ackGroup (p : HostPort) (g : Fin 256) (t : Nat)
  /-- ACK_ALL (R389). -/
  | ackAll (p : HostPort) (t : Nat)
  /-- ALARM_RESET (R389). -/
  | alarmReset (p : HostPort) (i : Fin 4096) (t : Nat)
  /-- SHELVE (R389). -/
  | shelvePt (p : HostPort) (i : Fin 4096) (arg : BitVec 11) (t : Nat)
  /-- UNSHELVE (R389). -/
  | unshelvePt (p : HostPort) (i : Fin 4096) (t : Nat)
  /-- INHIBIT (R389). -/
  | inhibitPt (p : HostPort) (i : Fin 4096) (t : Nat)
  /-- RELEASE (R389). -/
  | releasePt (p : HostPort) (i : Fin 4096) (t : Nat)
  /-- FO_RESET (R389). -/
  | foReset (p : HostPort) (g : Fin 256) (t : Nat)
  /-- OUT_OF_SERVICE (R389). -/
  | outOfService (p : HostPort) (i : Fin 4096) (t : Nat)
  /-- RETURN (R389). -/
  | returnPt (p : HostPort) (i : Fin 4096) (t : Nat)
  /-- CALL_ESCALATION (R397). -/
  | callEscalation (t : Nat)
  /-- CALL_RECALL (R398). -/
  | callRecall (t : Nat)
  /-- ALM_CALL_ACK (R398). -/
  | almCallAck (p : HostPort) (v : Word) (t : Nat)
  /-- ALM_DUTY_WRITE (R395). -/
  | almDutyWrite (p : HostPort) (v : Word) (t : Nat)
  /-- PATROL_START (R400). -/
  | patrolStart (p : HostPort) (t : Nat)
  /-- PATROL_STOP (R400). -/
  | patrolStop (p : HostPort) (t : Nat)
  /-- PATROL_PRESS (R400). -/
  | patrolPress (p : HostPort) (t : Nat)
  /-- PATROL_PREWARN (R400). -/
  | patrolPrewarn (t : Nat)
  /-- PATROL_EXPIRED (R400). -/
  | patrolExpired (t : Nat)
  /-- ALM_FIND_WRITE (R404). -/
  | almFindWrite (p : HostPort) (v : Word)
  /-- ALM_LOG_IDX_WRITE (R402). -/
  | almLogIdxWrite (p : HostPort) (v : Word)
  /-- ALM_LOG_DATA_READ (R402). -/
  | almLogDataRead (p : HostPort)
  /-- SEQ_START (R412). -/
  | seqStart (p : HostPort) (q : Fin 8) (at_ : Option (BitVec 10)) (t : Nat)
  /-- SEQ_STOP (R412). -/
  | seqStop (p : HostPort) (q : Fin 8) (t : Nat)
  /-- SEQ_HOLD (R412). -/
  | seqHold (p : HostPort) (q : Fin 8) (t : Nat)
  /-- SEQ_RESUME (R412). -/
  | seqResume (p : HostPort) (q : Fin 8) (t : Nat)
  /-- SEQ_GOTO (R412). -/
  | seqGoto (p : HostPort) (q : Fin 8) (arg : BitVec 10) (t : Nat)
  /-- STEP_TIMEOUT (R408). -/
  | stepTimeout (q : Fin 8) (t : Nat)
  /-- SEQ_TIMER_EXPIRY (R408). -/
  | seqTimerExpiry (q : Fin 8) (k : Fin 4) (t : Nat)
  /-- DSP_REDRAW (R432). -/
  | dspRedraw (p : HostPort) (v : Word)
  /-- DSP_FULL (R432). -/
  | dspFull (p : HostPort) (v : Word)
  /-- RENDER_COMPLETE (R435): of the rendering that started at count `start`. -/
  | renderComplete (r : Fin 32) (start : Nat) (t : Nat)
  /-- UPDATE_START (R432). -/
  | updateStart (r : Fin 32) (t : Nat)
  /-- FRAME_SCAN (R424). -/
  | frameScan (upsets : List (Nat × Nat)) (t : Nat)
  /-- BIAS_ON (R439). -/
  | biasOn (p : HostPort) (t : Nat)
  /-- BIAS_OFF (R441). -/
  | biasOff (p : HostPort) (t : Nat)
  /-- BIAS_RISE_STEP (R439). -/
  | biasRiseStep (t : Nat)
  /-- BIAS_FAULT (R440). -/
  | biasFault (t : Nat)
  /-- DISCHARGE_STEP (R441). -/
  | dischargeStep (t : Nat)
  /-- SL_HELLO (R449). -/
  | slHello (h : Machine.SlHello) (t : Nat)
  /-- SL_BEACON (R445). -/
  | slBeacon (lane : Bool) (ready : Bool) (elig : Bool) (roleIn : Bool) (t : Nat)
  /-- LINK_LANE_DOWN (R445). -/
  | linkLaneDown (lane : Bool) (t : Nat)
  /-- LINK_LOST (R445). -/
  | linkLost (t : Nat)
  /-- SL_MIRROR (R452). -/
  | slMirror (lane : Bool) (m : Option Machine.Mirror) (t : Nat)
  /-- SL_OUTCMD (R452). -/
  | slOutcmd (c : Machine.OutCmd) (t : Nat)
  /-- SL_SEQSTEP (R452). -/
  | slSeqstep (q : Fin 8) (step : Nat) (t : Nat)
  /-- SL_STAND_DOWN (R456). -/
  | slStandDown (t : Nat)
  /-- SL_SWAP (R460). -/
  | slSwap (m : Machine.SwapMsg) (t : Nat)
  /-- SL_IMAGE (R448). -/
  | slImage (live : Bool) (img : Option Bytes) (t : Nat)
  /-- SL_FWD (R451). -/
  | slFwd (f : Machine.FwdMsg) (t : Nat)
  /-- SL_RESET (R463). -/
  | slReset (roleIn : Bool) (t : Nat)
  /-- SL_FWIMG (R464). -/
  | slFwimg (img : Bytes) (t : Nat)
  /-- PARTNER_WAIT_TIMEOUT (R448). -/
  | partnerWaitTimeout (t : Nat)
  /-- FIND_TIMEOUT (R447). -/
  | findTimeout (roleIn : Bool) (t : Nat)
  /-- ROLE_IN_LOW (R456). -/
  | roleInLow (t : Nat)
  /-- OVERLAP_END (R458). -/
  | overlapEnd (t : Nat)
  /-- CROSS_RAMP_COMPLETE (R459). -/
  | crossRampComplete (t : Nat)
  /-- REL_IN_PULSE (R457). -/
  | relInPulse (t : Nat)
  /-- HOLD_LATCH_TIMEOUT (R457). -/
  | holdLatchTimeout (t : Nat)
  /-- SWAP (R460). -/
  | swapCmd (p : HostPort) (t : Nat)
  /-- SWAP_EXECUTE (R460). -/
  | swapExecute (t : Nat)
  /-- RECLAIM (R462). -/
  | reclaimCmd (t : Nat)
  /-- PARTNER_RESET (R463). -/
  | partnerReset (p : HostPort) (t : Nat)
  /-- REJOIN_RESET (R463). -/
  | rejoinReset (t : Nat)
  /-- FW_DATA_WRITE (R464). -/
  | fwDataWrite (p : HostPort) (v : Word)
  /-- FW_INSTALL (R464). -/
  | fwInstall (p : HostPort) (t : Nat)
  /-- FW_INSTALL_COMPLETE (R464). -/
  | fwInstallComplete (ok : Bool) (t : Nat)
  /-- FW_ACTIVATE (R464). -/
  | fwActivate (p : HostPort) (t : Nat)
  /-- IMAGE_CHECK (R454). -/
  | imageCheck (ok : Bool) (t : Nat)
  /-- SELF_TEST_VECTOR (R467). -/
  | selfTestVector (w : Nat) (pass : Bool) (t : Nat)
  /-- CLOCK_SECOND (R471). -/
  | clockSecond (t : Nat)
  /-- SET_BIN (R477). -/
  | setBin (p : HostPort) (t : Nat)
  /-- SET_BCD (R477). -/
  | setBcd (p : HostPort) (t : Nat)
  /-- SET_OFS (R477). -/
  | setOfs (p : HostPort) (arg : Byte) (t : Nat)
  /-- DST_STEP_FWD (R475). -/
  | dstStepFwd (p : HostPort) (t : Nat)
  /-- DST_STEP_BACK (R475). -/
  | dstStepBack (p : HostPort) (t : Nat)
  /-- CAL_SHADOW_READ (R481). -/
  | calShadowRead (p : HostPort) (k : Fin 4) (t : Nat)
  /-- CAL_DATE_READ (R481). -/
  | calDateRead (p : HostPort) (t : Nat)
  /-- SHADOW_TIMEOUT (R481). -/
  | shadowTimeout (p : HostPort) (t : Nat)
  /-- OSCILLATOR_STOP (R482). -/
  | oscillatorStop (t : Nat)
  /-- I11_SUPPLY_DIP (R482). -/
  | i11SupplyDip (dead : Bool) (t : Nat)
  /-- BACKUP_SWITCH (R482). -/
  | backupSwitch (toVbak : Bool) (t : Nat)
  /-- VBAK_MEASURE (R484). -/
  | vbakMeasure (mV : Nat) (t : Nat)
  /-- MILESTONE_COMMIT (R487). -/
  | milestoneCommit (t : Nat)
  /-- MS_LO_READ (R488). -/
  | msLoRead (p : HostPort)
  /-- WINDOW_CLOSE (R490). -/
  | windowClose (t : Nat)
  /-- HISTOGRAM_SAMPLE (R492). -/
  | histogramSample (i : Fin 512) (t : Nat)
  /-- STAT_WINDOW_ROLL (R491). -/
  | statWindowRoll (i : Fin 512) (t : Nat)
  /-- WINDOW_SAMPLE (R495). -/
  | windowSample (t : Nat)
  /-- REC_SEL_WRITE (R497). -/
  | recSelWrite (p : HostPort) (v : Word)
  /-- REC_DATA_READ (R497). -/
  | recDataRead (p : HostPort)
  /-- ST_SEL_WRITE (R497). -/
  | stSelWrite (p : HostPort) (v : Word)
  /-- ST_DATA_READ (R497). -/
  | stDataRead (p : HostPort)
  /-- REC_APPEND (R503). -/
  | recAppend (p : HostPort) (v : Word) (t : Nat)
  /-- ETH_LINK_CHANGE (R505). -/
  | ethLinkChange (net : Bool) (up : Bool) (fd : Bool) (t : Nat)
  /-- ICMP_ECHO (R504). -/
  | icmpEcho (net : Bool) (client : Nat) (t : Nat)
  /-- READ_HOLDING_REGISTERS (R509). -/
  | readHoldingRegisters (q : Machine.MbReq) (start : Nat) (count : Nat) (t : Nat)
  /-- READ_INPUT_REGISTERS (R508). -/
  | readInputRegisters (q : Machine.MbReq) (start : Nat) (count : Nat) (t : Nat)
  /-- WRITE_SINGLE_REGISTER (R509). -/
  | writeSingleRegister (q : Machine.MbReq) (reg : Nat) (val : Nat) (t : Nat)
  /-- WRITE_MULTIPLE_REGISTERS (R509). -/
  | writeMultipleRegisters (q : Machine.MbReq) (start : Nat) (vals : List (BitVec 16)) (t : Nat)
  /-- MODBUS_IDLE_CLOSE (R507). -/
  | modbusIdleClose (net : Bool) (client : Nat) (t : Nat)
  /-- ACN_ACKNOWLEDGE (R513). -/
  | acnAcknowledge (net : Bool) (a : Machine.AlertRef) (t : Nat)
  /-- ACN_REQUEST (R513). -/
  | acnRequest (net : Bool) (a : Option Machine.AlertRef) (t : Nat)
  /-- ACN_OTHER (R513). -/
  | acnOther (net : Bool) (a : Machine.AcnUse) (t : Nat)
  /-- ALC_PERIODIC (R512). -/
  | alcPeriodic (t : Nat)
  /-- CAN_FRAME_RECEIVE (R516). -/
  | canFrameReceive (f : Machine.CanFrame) (t : Nat)
  /-- CAN_RAW_SEND (R517). -/
  | canRawSend (ch : Fin 32) (t : Nat)
  /-- CAN_SERVICE_REQUEST (R518). -/
  | canServiceRequest (f : Machine.CanFrame) (t : Nat)
  /-- CAN_BUS_OFF (R514). -/
  | canBusOff (c : Bool) (t : Nat)
  /-- CAN_BUS_OFF_RECOVERY (R514). -/
  | canBusOffRecovery (c : Bool) (t : Nat)
  /-- SL_FRAME_CRC_ERROR (R445). -/
  | slFrameCrcError (lane : Bool) (t : Nat)
  /-- SEQSTEP_ACKNOWLEDGED (R452). -/
  | seqstepAcknowledged (q : Fin 8) (t : Nat)
  /-- NO_RESPONSE_AFTER_RETRIES (R263). -/
  | noResponseAfterRetries (m : Fin 32) (t : Nat)
  /-- SENSE_SAMPLE (R300). -/
  | senseSample (n : Fin 16) (mA : Nat) (t : Nat)
  /-- FP_OK_CHANGE (R287). -/
  | fpOkChange (f : Fin 4) (mv : Nat) (t : Nat)
  /-- ACN_DISCARDED (R513). -/
  | acnDiscarded (net : Bool) (t : Nat)
  deriving DecidableEq, Repr

end Sys2Proof
end

