-- ==== Sys2Proof/Decode.lean ====
section
/-! DEFINITION. The words that spell commands. The spec's table gives no row any bits: the block takes its commands from its
pins, buses and clocks, and no word spells one. -/

namespace Sys2Proof

/-- The command that a word of the table's bits spells: none, since no row has bits. -/
def decodeTableWord (_nbits _w : Nat) : Option Instr := none

end Sys2Proof
end

