-- ==== Sys2Proof/Machine/DataCharge.lean ====
section
/-! DEFINITION. State of the charge channels (spec/08), as plain data. Field defaults are the reset values. -/

namespace Sys2Proof.Machine
open Sys2Proof

/-- One stored sample (R232): number in its cycle, charge in fC, reference q_0 of its closure, flags; `j` numbers a
settling sample b + j that waits for interpolation (R239). -/
structure CaSample where
  k    : Nat
  q    : Int
  q0   : Int
  rst  : Bool
  interp : Bool
  sat  : Bool
  late : Bool
  j    : Nat
  deriving DecidableEq, Repr

/-- A cycle or block being taken or waiting for its record. Samples stand latest first. -/
structure CaCyc where
  t0   : Nat
  /-- samples that make it whole, and samples triggered so far -/
  len  : Nat
  trig : Nat := 0
  samples : List CaSample := []
  /-- range at sample 0 and at the latest sample (R232), buffer it fills: 1 A, 2 B (R230) -/
  range0 : Nat
  range1 : Nat := 0
  buf  : Nat := 1
  /-- P_peg in units of 10^(SCALE − 3) (R228, R235) -/
  peg  : Int := 0
  pegBad : Bool := false
  rstFault : Bool := false
  /-- it is stored in a buffer (R231), and yields a record (R217) -/
  store : Bool := true
  record : Bool := true
  deriving DecidableEq, Repr

/-- A conversion in progress or a trigger held (R220); `j` as in a sample, 10 more where a reset closure has ended its window. -/
structure CaConv where
  k    : Nat
  rst  : Bool
  late : Bool
  j    : Nat
  /-- it belongs to the cycle before the present one -/
  prev : Bool := false
  deriving DecidableEq, Repr

structure CaChan where
  range : Nat := 0
  /-- range commanded and not yet switched (R239, R240) -/
  req  : Option Nat := none
  deferred : Bool := false
  /-- settling sample to be triggered next, 1 to 5, or 6 while sample b + 5 is being taken; 0 none (R239), and the charge q_b -/
  settle : Nat := 0
  qb   : Int := 0
  connected : Bool := false
  closed : Bool := false
  closedAt : Nat := 0
  rstPend : Bool := false
  q0   : Int := 0
  lastQ : Int := 0
  cur  : Option CaCyc := none
  prev : Option CaCyc := none
  conv : Option CaConv := none
  held : Option CaConv := none
  /-- triggers due: crank counts or compare actions that have come (R221, R222) -/
  due  : Nat := 0
  /-- settling samples whose record is delivered before sample b + 5: buffer, word, number b + j (R239) -/
  unsettled : List (Nat × Nat × Nat) := []
  seenIdx : Bool := false
  nextAt : Nat := 0
  /-- blocks started since READY (R226) -/
  blocks : Nat := 0
  /-- range that automatic ranging has chosen from a cycle whose record is delivered (R241) -/
  nextRange : Option Nat := none
  bufA : List Word := []
  bufB : List Word := []
  /-- latest complete buffer: 0 none, 1 A, 2 B -/
  latest : Nat := 0
  /-- holds of the ports: port index, buffer, DEVTIME of the last read (R231) -/
  holds : List (Nat × Nat × Nat) := []
  cycle : Word := 0#32
  peg  : Word := 0x80000000#32
  abandon : Nat := 0
  skip : Nat := 0
  cmpIgn : Bool := false
  refused : Bool := false
  late : Bool := false
  pegBad : Bool := false
  rstFault : Bool := false
  sat  : Bool := false
  deriving DecidableEq, Repr

end Sys2Proof.Machine
end

