-- ==== Sys2Proof/Machine/DataDisp.lean ====
section
/-! DEFINITION. State of the annunciator panel drive (spec/16), as plain data. Field defaults are the reset values. -/

namespace Sys2Proof.Machine
open Sys2Proof

/-- What a content item shows (R436): text lines with whether each is drawn swapped, a bar, a lamp. -/
inductive ItemView where
  | lines (l : List (Bytes × Bool))
  | bar (e : Option Word)
  | lamp (on : Bool)
  deriving DecidableEq, Repr

/-- One region (R430 to R434, R438). A request carries whether it is of mode 0. -/
structure Rg where
  /-- what the items showed when the last rendering started (R435) -/
  shown : Option (List ItemView) := none
  /-- renderings under way: the scan tick that started each, and what it draws -/
  rendering : List (Nat × List ItemView) := []
  /-- the buffer the DSP engine wrote, two pixels per byte, and its stored CRC -/
  buf  : Bytes := []
  rendered : Bool := false
  crc  : Word := 0#32
  /-- a rendering's request held back by MIN_INT, until this DEVTIME -/
  dspAt : Option Nat := none
  /-- request that starts at the next frame boundary, and the queued one -/
  req  : Option Bool := none
  queued : Option Bool := none
  run  : Bool := false
  frame : Nat := 0
  leff : Nat := 0
  mode : Nat := 0
  band : Nat := 0
  /-- what the running waveform draws, and where -/
  img  : Bytes := []
  rx   : Nat := 0
  ry   : Nat := 0
  rw   : Nat := 0
  rh   : Nat := 0
  startAt : Option Nat := none
  /-- updates started since the image was applied, for FULL_EVERY -/
  upds : Nat := 0
  cnt  : Nat := 0
  corrupt : Bool := false
  corrSeen : Bool := false
  redraw : Bool := false
  /-- the next update is of mode 0 (R437) -/
  full0 : Bool := false
  deriving DecidableEq, Repr

/-- The panel (R422 to R443). BIAS codes of R443. -/
structure Disp where
  bias : Nat := 0
  /-- rise: its start and the steps done (R439) -/
  riseAt : Nat := 0
  riseStep : Nat := 0
  /-- discharge step reached, 0 while none runs (R441) -/
  dis  : Nat := 0
  /-- RAIL_OK bits -/
  rails : Nat := 0
  /-- waveforms complete, then the discharge runs -/
  stopping : Bool := false
  /-- the rails rise when the running discharge ends -/
  want : Bool := false
  /-- band of the previous update since the rails rose (R428), band shown, BAND_BAD -/
  bandB : Option Nat := none
  band : Nat := 0
  bandBad : Bool := false
  refused : Bool := false
  temp : Word := 0x80000000#32
  /-- DSP_VCOM as written and as in force -/
  vcomW : Nat := 0
  vcom : Nat := 0
  len  : Nat := 0
  updCnt : Word := 0#32
  rgs  : Table Rg := []
  /-- panel levels by row, two pixels per byte; an empty row stands at level 15 (R433) -/
  rows : Table Bytes := []
  /-- frames scanned: polarity (R423) -/
  frameNo : Nat := 0
  /-- DEVTIME at which scanning started, and frame periods that have ended since (R424) -/
  scanAt : Nat := 0
  scans : Nat := 0
  /-- pixels that left every region wait for level 15; frames done and frames in all of that update (R437) -/
  bgPend : Bool := false
  bg   : Option (Nat × Nat) := none
  deriving DecidableEq, Repr

end Sys2Proof.Machine
end

