-- ==== Sys2Proof/Machine/DataTime.lean ====
section
/-! DEFINITION. State of the calendar clock, the milestone stamps and the service recorder (spec/18), as plain data. Field
defaults are the reset values; what lies in I11 or MRAM starts as never powered and never written. -/

namespace Sys2Proof.Machine
open Sys2Proof

/-- A master's shadow of the calendar registers (R481): words SUBSEC, SEC_LO, SEC_HI, CAL_TIME, CAL_DATE. -/
structure Shadow where
  frozen : Bool := false
  since : Nat := 0
  words : List Word := []
  timeout : Bool := false
  deriving DecidableEq, Repr

/-- I11, its copy in I0, and the calendar block (R471 to R486, R501). -/
structure Clock where
  secs : Nat := 0
  /-- fraction in 1/32,768 s at DEVTIME `at_`, from which it runs on -/
  frac : Nat := 0
  at_  : Nat := 0
  /-- the count stands: at its end (R472) or with no oscillator (R483) -/
  halted : Bool := false
  osf  : Bool := true
  rangeEnd : Bool := false
  ofs  : Int := 0
  dst  : Bool := false
  onBackup : Bool := false
  vbak : Nat := 0
  backupLow : Bool := false
  tchEn : Bool := false
  tchR : Bool := false
  tchV : Bool := false
  alm  : Word := 0#32
  tsetLo : Word := 0#32
  tsetHi : Word := 0#32
  tsetTime : Word := 0#32
  tsetDate : Word := 0#32
  dateReject : Bool := false
  cmdRefused : Bool := false
  shadows : Table Shadow := []
  deriving DecidableEq, Repr

/-- One record of the ring (R494). -/
structure RingRec where
  typ  : Nat := 0
  sev  : Nat := 0
  seq  : Word := 0#32
  stamp : Nat := 0
  utc  : Nat := 0
  pay  : Bytes := []
  deriving DecidableEq, Repr

/-- One slot of a statistics item (R493). -/
structure StatSlot where
  opened : Nat := 0
  closed : Nat := 0
  num  : Nat := 0
  min  : Word := 0x80000000#32
  minAt : Nat := 0
  max  : Word := 0x80000000#32
  maxAt : Nat := 0
  count : Nat := 0
  bins : Table Nat := []
  deriving DecidableEq, Repr

/-- One plan item's place in the statistics store (R491, R500). -/
structure StatItem where
  /-- bytes 0x00 to 0x0B of the plan item that wrote the slots -/
  mem  : Bytes := []
  slots : Table StatSlot := []
  /-- open ring slot, 0 while none is open -/
  cur  : Nat := 0
  deriving DecidableEq, Repr

/-- MRAM of the recorder and of the milestone stamps (R487, R489). -/
structure Mram where
  ring : Table RingRec := []
  seq  : Word := 0#32
  drop : Nat := 0
  items : Table StatItem := []
  cycles : Nat := 0
  /-- port settings of the last image applied, empty where none ever was (R506) -/
  ports : Bytes := []
  op   : Nat := 0
  deriving DecidableEq, Repr

/-- The recorder outside MRAM (R490 to R498). -/
structure Recorder where
  /-- records due and count occurrences of the command at hand, placed at its end -/
  due  : List (Nat × Nat × Option Bytes) := []
  occ  : List (Nat × Nat) := []
  startup : Bool := true
  runAt : Option Nat := none
  recovAt : Option Nat := none
  /-- records accepted in the running second (R498) -/
  rateSec : Nat := 0
  rateNum : Nat := 0
  /-- operating time at DEVTIME `opAt`, in 1/16 s -/
  op   : Nat := 0
  opAt : Nat := 0
  /-- sequence number of each histogram item's last sample (R492) -/
  lastSeq : Table (Option Byte) := []
  app  : Table Word := []
  /-- scan tick of the last window sample (R490) -/
  winAt : Option Nat := none
  deriving DecidableEq, Repr

end Sys2Proof.Machine
end

