-- ==== Sys2Proof/Machine/Node.lean ====
section
/-! DEFINITION. `Node`: the whole state of the module but its byte memories and its queue of commands, and `Mems`, the
byte memories. Every operation of one family has the type `Node → Node`, so that by its type it touches neither. -/

namespace Sys2Proof.Machine
open Sys2Proof

/-- Everything the spec gives the module, memories and command queue apart. Field defaults are the reset values. -/
structure Node where
  time  : TimeBase := {}
  ports : Ports := {}
  isl   : Islands := {}
  jn    : Junction := {}
  ld    : Loader := {}
  dev   : Device := {}
  blk   : Table BlkCtl := []
  spi   : Spi := {}
  wf    : List Session := []
  evt   : Events := {}
  mbx   : Mailbox := {}
  ui    : Table UiChan := []
  ex    : Table ExChan := []
  cj    : Table CjChan := []
  cal   : Calib := {}
  mw    : Miswire := {}
  ca    : Table CaChan := []
  lo    : Table LoChan := []
  po    : Table PoChan := []
  hart  : Table HartM := []
  dig   : Digital := {}
  il    : Interlock := {}
  shp   : Shaped := {}
  pf    : Table PfChan := []
  cmp   : Compare := {}
  ln    : Table Lane := []
  gen   : Table LnGen := []
  alm   : Alarms := {}
  seq   : Sequencer := {}
  dsp   : Disp := {}
  clk   : Clock := {}
  mram  : Mram := {}
  rcd   : Recorder := {}
  dup   : Duplex := {}
  mir   : Mirrored := {}
  /-- checkpoint memory, by role byte -/
  ckpt  : Table Ckpt := []
  net   : Net := {}
  dtr   : Detours := {}
  /-- firmware activations made: what runs lies in flash (R464) -/
  fwActs : Nat := 0
  /-- frames sent (the model's own record, notes/assumptions/10.md) -/
  tx    : List TxFrame := []
  /-- the model's own counter of free values drawn (notes/assumptions/9.md) -/
  free  : Nat := 0
  deriving DecidableEq, Repr

/-- The byte memories: staging areas (R73, R78), flash banks (R72), firmware staging (R464). Each is sparse; what an
unlisted address reads as is 0 in the DRAM areas and 0xFF in flash. -/
structure Mems where
  staging : Memory := []
  live    : Memory := []
  liveEnd : Nat := 0
  flashA  : Memory := []
  flashB  : Memory := []
  fw      : Memory := []
  deriving DecidableEq, Repr

end Sys2Proof.Machine
end

