-- ==== Sys2Proof/Machine/Ops.lean ====
section
/-! DEFINITION. The shared operations: canonical tables, bit fields, bytes, time, events (R134 to R138), device-state
changes (R82), arrival slots (R34 to R36, R40) and the reading of results. -/

namespace Sys2Proof.Machine
open Sys2Proof

/-! ### Canonical tables -/

/-- The entry at a key; the default where none is listed. -/
def tget {α : Type} (d : α) : Table α → Nat → α
  | [], _ => d
  | (k', v) :: r, k => if k' = k then v else tget d r k

/-- Insert an entry among rising keys. -/
def tins {α : Type} (k : Nat) (v : α) : Table α → Table α
  | [] => [(k, v)]
  | (k', v') :: r => if k < k' then (k, v) :: (k', v') :: r else (k', v') :: tins k v r

/-- Write one entry, keeping keys strictly rising and listing no default. -/
def tset {α : Type} [DecidableEq α] (d : α) (t : Table α) (k : Nat) (v : α) : Table α :=
  let r := t.filter (fun x => x.1 != k)
  if v = d then r else tins k v r

/-- Change one entry. -/
def tmod {α : Type} [DecidableEq α] (d : α) (t : Table α) (k : Nat) (f : α → α) : Table α :=
  tset d t k (f (tget d t k))

/-- The canonical form: keys strictly rising, no entry equal to the default. -/
def twf {α : Type} [DecidableEq α] (d : α) : Table α → Bool
  | [] => true
  | [(_, v)] => decide (v ≠ d)
  | (k, v) :: (k', v') :: r => decide (v ≠ d) && decide (k < k') && twf d ((k', v') :: r)

/-- The canonical form of a byte memory whose unlisted addresses read `d`. -/
def Memory.wf (d : Byte) (m : Memory) : Bool := twf d m

/-! ### Bits, numbers, bytes -/

def b2n (b : Bool) : Nat := if b then 1 else 0

/-- Bits hi:lo of a word as a number (R4). -/
def fld (v : Word) (hi lo : Nat) : Nat := (v.toNat / 2 ^ lo) % 2 ^ (hi + 1 - lo)

/-- One bit of a word. -/
def bitOf (v : Word) (i : Nat) : Bool := v.getLsbD i

/-- A word from a number, wrapping. -/
def wd (x : Nat) : Word := BitVec.ofNat 32 x

/-- The word with bit `i` set. -/
def oneHot (i : Nat) : Word := BitVec.ofNat 32 (2 ^ i)

def setBitW (v : Word) (i : Nat) (b : Bool) : Word := if b then v ||| oneHot i else v &&& ~~~ oneHot i

/-- Saturating count (R18, R39 and the like). -/
def satInc (mx x : Nat) : Nat := if x < mx then x + 1 else mx

/-- A list updated at one place; unchanged past its end. -/
def lset {α : Type} (l : List α) (i : Nat) (v : α) : List α := l.set i v

/-- Unsigned fields of a record, little-endian (R6). -/
def u8 (r : Bytes) (k : Nat) : Nat := (r.getD k 0#8).toNat
def u16 (r : Bytes) (k : Nat) : Nat := u8 r k + 256 * u8 r (k + 1)
def u24 (r : Bytes) (k : Nat) : Nat := u16 r k + 65536 * u8 r (k + 2)
def u32 (r : Bytes) (k : Nat) : Nat := u16 r k + 65536 * u16 r (k + 2)

/-- Two's-complement reading of an n-bit number. -/
def sgn (n x : Nat) : Int := if x < 2 ^ (n - 1) then (x : Int) else (x : Int) - 2 ^ n

def i8 (r : Bytes) (k : Nat) : Int := sgn 8 (u8 r k)
def i16 (r : Bytes) (k : Nat) : Int := sgn 16 (u16 r k)
def i32 (r : Bytes) (k : Nat) : Int := sgn 32 (u32 r k)
def w32 (r : Bytes) (k : Nat) : Word := wd (u32 r k)

/-- Little-endian bytes of a number. -/
def leBytes : Nat → Nat → Bytes
  | 0, _ => []
  | n + 1, x => BitVec.ofNat 8 x :: leBytes n (x / 256)

/-- Big-endian bytes of a number. -/
def beBytes (n x : Nat) : Bytes := (leBytes n x).reverse

/-- All bytes of a range are zero (reserved fields, R52). -/
def zeros (r : Bytes) (k n : Nat) : Bool := (List.range n).all (fun i => u8 r (k + i) == 0)

/-- A signed number as a word, wrapping. -/
def wi (x : Int) : Word := BitVec.ofInt 32 x

/-- Clamp to a range. -/
def clampI (lo hi x : Int) : Int := if x < lo then lo else if hi < x then hi else x

/-- Division rounding half away from zero; `d` positive. -/
def divRound (x : Int) (d : Int) : Int :=
  if 0 ≤ x then (2 * x + d) / (2 * d) else - ((2 * (-x) + d) / (2 * d))

/-- Division truncating toward zero; 0 for a zero divisor. -/
def divTrunc (x d : Int) : Int := x.tdiv d

/-! ### Time -/

/-- DEVTIME counts per scan tick and per fine tick (R25), per second, per microsecond. -/
def scanPer : Nat := 250000
def finePer : Nat := 2500
def secPer : Nat := 250000000
def usPer : Nat := 250

/-- SCAN_CNT (R25). -/
def Node.scan (n : Node) : Word := wd (n.time.devtime / scanPer)

/-- DEVTIME moves on to the time of a happening; it never goes back (R23). -/
def Node.advance (t : Nat) (n : Node) : Node := { n with time.devtime := max n.time.devtime t }

def Node.now (n : Node) : Nat := n.time.devtime

/-! ### Islands -/

def Node.islSt (n : Node) (i : Nat) : IslState := n.isl.states.getD i .off

/-- The island runs (R17, R21). -/
def Node.isRun (n : Node) (i : Nat) : Bool := n.islSt i == .run

def Node.setIsl (i : Nat) (x : IslState) (n : Node) : Node := { n with isl.states := lset n.isl.states i x }

/-- A role runs: some engine carries it, its island is in RUN, and it is not paused by a detour (R18, R29, R30). -/
def Node.roleOn (n : Node) (code inst : Nat) : Bool :=
  let b : Byte := BitVec.ofNat 8 (code * 16 + inst)
  !n.isl.paused.any (fun x => x.2.1 == b) &&
    n.isl.roles.zipIdx.any (fun (x, e) => x == b && n.isRun (if e < 8 then 1 else 2))

/-- No scan tick has come since the reset: what the island and output status registers show of the hardware is loaded at a
tick, and before the first they read their Reset values (R11); DESIGN CHOICE (notes/assumptions/5.md). -/
def Node.showsReset (n : Node) : Bool := n.time.lastScan == 0

/-! ### Ports -/

def Node.port (n : Node) : HostPort → Port
  | .m1 => n.ports.m1 | .m2 => n.ports.m2 | .m3 => n.ports.m3 | .m5 => n.ports.m5

def Node.setPort (p : HostPort) (x : Port) (n : Node) : Node :=
  match p with
  | .m1 => { n with ports.m1 := x } | .m2 => { n with ports.m2 := x }
  | .m3 => { n with ports.m3 := x } | .m5 => { n with ports.m5 := x }

def Node.modPort (p : HostPort) (f : Port → Port) (n : Node) : Node := n.setPort p (f (n.port p))

/-- Bit of FRESH of a reading port (R46). -/
def portIdx : HostPort → Nat
  | .m1 => 0 | .m2 => 1 | .m3 => 2 | .m5 => 3

/-- Master identity code of a host port (R104, R142). -/
def portCode : HostPort → Nat
  | .m1 => 1 | .m2 => 2 | .m3 => 3 | .m5 => 5

/-- The network host port A or B. -/
def netPort (net : Bool) : HostPort := if net then .m3 else .m2

/-! ### Events (R134 to R139) -/

/-- Reserved event numbers never set (R12): the numbers the table of sources lists. -/
def evtExists (k : Nat) : Bool :=
  decide (k ≤ 9) || (decide (16 ≤ k) && decide (k ≤ 23)) || (decide (32 ≤ k) && decide (k ≤ 41))
  || (decide (48 ≤ k) && decide (k ≤ 52)) || (decide (56 ≤ k) && decide (k ≤ 61))
  || (decide (64 ≤ k) && decide (k ≤ 77)) || (decide (80 ≤ k) && decide (k ≤ 92))
  || (decide (96 ≤ k) && decide (k ≤ 102)) || (decide (104 ≤ k) && decide (k ≤ 127))

def evBit (k : Nat) : BitVec 128 := BitVec.ofNat 128 (2 ^ k)

def Events.flag (e : Events) (k : Nat) : Bool := e.stat.getLsbD k
def Events.masked (e : Events) (k : Nat) : Bool := e.mask.getLsbD k
def Events.pending (e : Events) (k : Nat) : Bool := e.flag k && !e.masked k
def Events.routeOf (e : Events) (k : Nat) : Nat := tget 0 e.route k
def Events.occOf (e : Events) (k : Nat) : Nat := tget 0 e.occ k

/-- Append one entry to the message stream, or drop it when the queue is full (R138, R139). -/
def Events.append (e : Events) (k devtime : Nat) : Events :=
  if e.queue.length < 256 then
    { e with queue := e.queue ++ [{ word0 := wd (2 ^ 31 + k * 2 ^ 24 + e.occOf k * 65536 + (devtime / scanPer) % 65536)
                                    word1 := wd devtime }] }
  else { e with ovf := true, lost := satInc 255 e.lost }

/-- The source sets its flag and counts; becoming pending on route 4 appends an entry (R134, R138). -/
def Events.occur (e : Events) (k devtime : Nat) : Events :=
  let was := e.pending k
  let e1 : Events := { e with stat := e.stat ||| evBit k, occ := tset 0 e.occ k (satInc 255 (e.occOf k)) }
  if !was && e1.pending k && e1.routeOf k == 4 then e1.append k devtime else e1

/-- Sources that became pending on the stream through a change of mask or route are appended (R136). -/
def Events.restream (old e : Events) (devtime : Nat) : Events :=
  (List.range 128).foldl (fun acc k =>
    if e.pending k && e.routeOf k == 4 && !(old.pending k && old.routeOf k == 4) then acc.append k devtime else acc) e

/-- EVT3 to EVT0 as bits 3:0 (R137). -/
def Events.pins (e : Events) : Word :=
  wd ((List.range 4).foldl (fun a r =>
    a + (if (List.range 128).any (fun k => e.pending k && e.routeOf k == r) then 2 ^ r else 0)) 0)

/-! ### The recorder's ear (R490, R492, R495) -/

/-- A record of the recorder falls due; it is placed at the end of the command at hand. `none`: its payload is the one
R495 lists for the type, read then. -/
def recNote (typ sev : Nat) (pay : Option Bytes) (n : Node) : Node :=
  { n with rcd.due := n.rcd.due ++ [(typ, sev, pay)] }

def recNoteIf (b : Bool) (typ sev : Nat) (pay : Option Bytes) (n : Node) : Node := if b then recNote typ sev pay n else n

/-- An occurrence that count items count (R492): class and channel. -/
def recOcc (cls ch : Nat) (n : Node) : Node := { n with rcd.occ := n.rcd.occ ++ [(cls, ch)] }

def recOccIf (b : Bool) (cls ch : Nat) (n : Node) : Node := if b then recOcc cls ch n else n

/-- Events that open the recovery window (R490). -/
def recovEvent (k : Nat) : Bool := [16, 18, 19, 22, 23, 112, 118].contains k

/-- Events that end a clean stretch (R467). -/
def uncleanEvent (k : Nat) : Bool := [16, 21, 112, 116].contains k

/-- Raise event `k` (R134). -/
def raise (k : Nat) (n : Node) : Node :=
  if evtExists k then
    { n with evt := n.evt.occur k n.now
             rcd.recovAt := if recovEvent k then some n.now else n.rcd.recovAt
             dup.cleanAt := if uncleanEvent k then n.now else n.dup.cleanAt }
  else n

def raiseIf (b : Bool) (k : Nat) (n : Node) : Node := if b then raise k n else n

/-! ### Device states -/

def devCode : DevSt → Nat
  | .off => 0 | .boot => 1 | .load => 2 | .verify => 3 | .calibrate => 4 | .ready => 5 | .run => 6 | .degraded => 7 | .safe => 8

/-- Logic is up: the module answers and acts (R82: in OFF nothing can be read). -/
def Node.up (n : Node) : Bool := n.dev.st != .off && !n.dev.pinLow

/-- Severity of the record of a state change (R495). -/
def enterSev : DevSt → Nat
  | .safe => 3 | .degraded => 2 | _ => 1

/-- The windows of R490 at the entry to a state. -/
def recEnter (x : DevSt) (n : Node) : Node :=
  match x with
  | .boot => { n with rcd.startup := true, rcd.runAt := none }
  | .run => { n with rcd.runAt := some (n.rcd.runAt.getD n.now) }
  | .degraded => { n with rcd.recovAt := some n.now, rcd.runAt := some (n.rcd.runAt.getD n.now) }
  | .safe => { n with rcd.recovAt := some n.now }
  | _ => n

/-- Change of device state: PREV, STATE_TICK, event 0 and a record (R82, R102, R490, R495). -/
def enter (x : DevSt) (n : Node) : Node :=
  if n.dev.st = x then n
  else recNote 2 (enterSev x) none (recEnter x (raise 0 { n with dev.prev := n.dev.st, dev.st := x, dev.stateTick := n.scan }))

/-- RUN or DEGRADED: the plant is driven (R85). -/
def Node.running (n : Node) : Bool := n.dev.st == .run || n.dev.st == .degraded

/-- Acquisition and alarm evaluation work (R85, R90). -/
def Node.acq (n : Node) : Bool := n.dev.st == .ready || n.running

/-- An image is applied in this state (R82). -/
def Node.applied (n : Node) : Bool :=
  n.dev.st == .calibrate || n.acq || n.dev.st == .safe

/-! ### Free values (notes/assumptions/9.md) -/

/-- Draw a free value: the counter advances, so each draw is another value. -/
def drawFree (n : Node) : Word × Node := (Config.freeWord n.free, { n with free := n.free + 1 })

/-! ### Junction: arrival slots (R34 to R36, R40) -/

def slotKey (prod target : Nat) : Nat := prod * 1024 + target

/-- A producer completes a record at DEVTIME `t` into its slot; an undrained record there is replaced (R36). -/
def complete (prod target : Nat) (es : List Entry) (t : Nat) (n : Node) : Node :=
  let sq : Byte := tget 0#8 n.jn.seqs (slotKey prod target) + 1#8
  let r : Record := { prod := prod, target := target, entries := es, seq := sq, time := t, arr := n.jn.cycle }
  let full := n.jn.slots.any (fun x => x.prod == prod && x.target == target)
  let rest := n.jn.slots.filter (fun x => !(x.prod == prod && x.target == target))
  let slots := rest ++ [r]
  let n1 : Node := { n with jn.slots := slots, jn.seqs := tset 0#8 n.jn.seqs (slotKey prod target) sq,
                            jn.maxDepth := max n.jn.maxDepth slots.length }
  if full then
    raise 41 { n1 with jn.overrun := (if n.jn.overrun = 0xFFFFFFFF#32 then n.jn.overrun else n.jn.overrun + 1#32),
                       jn.ovrLast := prod }
  else n1

/-- The store takes one entry of a drained record: FRESH for every port, STALE cleared (R35, R44). -/
def storeEntry (r : Record) (now : Nat) (st : Table Result) (e : Entry) : Table Result :=
  tset {} st e.addr { value := e.value, q := e.q, seq := r.seq, time := r.time, fresh := 15#4, has := true,
                      arrived := now, lost := false, susp := e.q.getLsbD 4 }

/-- The result whose VALUE register lies at `addr`. -/
def Node.res (n : Node) (addr : Nat) : Result := tget {} n.jn.store addr

/-- The QSEQ word of a result as port bit `i` sees it (R41, R46); `none`: an internal master, FRESH as 0. An entry that reads
NO_DATA reads QSEQ 0 (R42); DESIGN CHOICE
(notes/assumptions/14.md): after an uncorrectable error too, where R49 gives NO_DATA and no QSEQ. -/
def qseqWord (r : Result) (i : Option Nat) : Word :=
  if r.has && !r.lost then
    let f := match i with
      | some k => b2n (r.fresh.getLsbD k)
      | none => 0
    wd ((r.q.toNat + 2 * f) * 2 ^ 24 + r.seq.toNat * 65536 + (r.time / usPer) % 65536)
  else 0#32

/-- The VALUE word of a result: NO_DATA before its first record and after an uncorrectable error (R42, R49). -/
def valueWord (r : Result) : Word := if r.has && !r.lost then r.value else 0x80000000#32

/-- Quality as an internal reader sees it: 0 before the first record. -/
def resQ (r : Result) : Byte := if r.has && !r.lost then r.q else 0#8

end Sys2Proof.Machine
end

