-- ==== Sys2Proof/Machine/Operands.lean ====
section
/-! DEFINITION. The forms in which the route map carries its operands: CRC-32 (R53), CRC-8 (R110), the LOAD phase of an
image (R54 to R57, R68 steps 1 to 10), section framing (R59, R60, R65, R68 step 12) and record lookup (R60, R66). -/

namespace Sys2Proof.Machine
open Sys2Proof

/-! ### Checks -/

/-- One bit of the reflected CRC-32 of R53. -/
def crcBit (c : Word) : Word := if c.getLsbD 0 then (c >>> 1) ^^^ 0xEDB88320#32 else c >>> 1

def crcByte (c : Word) (b : Byte) : Word :=
  crcBit (crcBit (crcBit (crcBit (crcBit (crcBit (crcBit (crcBit (c ^^^ b.setWidth 32))))))))

/-- CRC-32 (R53). -/
def crc32 (bs : Bytes) : Word := ~~~ (bs.foldl crcByte 0xFFFFFFFF#32)

def crc8Bit (c : Byte) : Byte := if c.getLsbD 7 then (c <<< 1) ^^^ 7#8 else c <<< 1

/-- CRC-8 of the SPI port (R110). -/
def crc8 (bs : Bytes) : Byte :=
  bs.foldl (fun c b => crc8Bit (crc8Bit (crc8Bit (crc8Bit (crc8Bit (crc8Bit (crc8Bit (crc8Bit (c ^^^ b))))))))) 0#8

/-- `len` bytes of a memory from `ofs`; `d` is what an unlisted address reads as. -/
def memBytes (d : Byte) (m : Memory) (ofs len : Nat) : Bytes :=
  (List.range len).map (fun i => tget d m (ofs + i))

/-- Write a string of bytes into a memory. -/
def memWrite (d : Byte) (m : Memory) (ofs : Nat) : Bytes → Memory
  | [] => m
  | b :: r => memWrite d (tset d m ofs b) (ofs + 1) r

/-- A 32-bit word of a memory (R7), little-endian. -/
def memWord (d : Byte) (m : Memory) (ofs : Nat) : Word := w32 (memBytes d m ofs 4) 0

/-! ### LOAD phase -/

/-- A failure of R68: code of R70, TYPE of the failing leg, byte offset. -/
structure RmFail where
  code : Nat
  leg  : Nat
  ofs  : Nat
  deriving DecidableEq, Repr

/-- Leg types that a format version allows (R55). -/
def legAllowed (fmt typ : Nat) : Bool :=
  typ == 0x7F || (decide (1 ≤ typ) && decide (typ ≤ (if fmt == 1 then 0x11 else 0x13)))

/-- Fixed payload sizes (R57, R61 to R64). -/
def legFixedLen : Nat → Option Nat
  | 0x01 => some 48 | 0x02 => some 8 | 0x03 => some 16 | 0x0F => some 32 | 0x10 => some 128 | 0x13 => some 16
  | 0x7F => some 4 | _ => none

/-- Leg versions accepted (R55, R56, R57). -/
def legVerOk (fmt typ ver : Nat) : Bool := ver == 1 || (typ == 0x0E && fmt == 3 && ver == 2)

/-- Steps 5 to 8 of R68 on the leg whose header starts at `ofs`, within `total` bytes; `prev` is the TYPE before it. -/
def loadLeg (bs : Bytes) (total fmt prev ofs : Nat) : Except RmFail Leg :=
  let typ := u8 bs ofs
  let ver := u8 bs (ofs + 1)
  let len := u32 bs (ofs + 4)
  if !legAllowed fmt typ || decide (typ ≤ prev) then .error ⟨5, typ, ofs⟩
  else if !legVerOk fmt typ ver then .error ⟨6, typ, ofs⟩
  else if len % 4 != 0 || decide (total < ofs + 16 + len + 4)
      || (match legFixedLen typ with | some k => len != k | none => false) then .error ⟨7, typ, ofs⟩
  else
    let whole := (bs.drop ofs).take (16 + len)
    if crc32 whole != w32 bs (ofs + 16 + len) then .error ⟨8, typ, ofs⟩
    else .ok { typ := typ, ver := ver, gen := u32 bs (ofs + 8), ofs := ofs, body := whole.drop 16, sects := [],
               resOk := zeros whole 2 2 && zeros whole 12 4 }

/-- The walk over the legs; it ends after the first leg of TYPE 0x7F. Answers the legs and the offset after the walk,
with `true` where a closing leg was found. -/
def walkLegs (bs : Bytes) (total fmt : Nat) : Nat → Nat → Nat → Except RmFail (List Leg × Nat × Bool)
  | 0, _, ofs => .ok ([], ofs, false)
  | fuel + 1, prev, ofs =>
    if total < ofs + 16 then .ok ([], ofs, false)
    else match loadLeg bs total fmt prev ofs with
      | .error e => .error e
      | .ok l =>
        let next := ofs + 16 + l.body.length + 4
        if l.typ = 0x7F then .ok ([l], next, true)
        else match walkLegs bs total fmt fuel l.typ next with
          | .error e => .error e
          | .ok (ls, o, c) => .ok (l :: ls, o, c)

/-- The LOAD phase (R68 steps 1 to 10) over the bytes of a source. -/
def loadImage (bs : Bytes) : Except RmFail Image :=
  if (bs.take 4) != [0x4A#8, 0x4D#8, 0x57#8, 0x59#8] then .error ⟨1, 0, 0⟩
  else
    let fmt := u16 bs 4
    let total := u32 bs 8
    if fmt == 0 || decide (3 < fmt) then .error ⟨2, 0, 0⟩
    else if decide (16777216 < total) || total % 4 != 0 || decide (bs.length < total) then .error ⟨3, 0, 0⟩
    else if crc32 (bs.take 60) != w32 bs 60 then .error ⟨4, 0, 0⟩
    else match walkLegs bs total fmt 32 0 64 with
      | .error e => .error e
      | .ok (ls, o, closed) =>
        match ls.getLast? with
        | some c =>
          if !closed then .error ⟨9, 0, o⟩
          else if o != total || crc32 (bs.take c.ofs) != w32 c.body 0 then .error ⟨9, 0x7F, c.ofs⟩
          else if u16 bs 12 != ls.length then .error ⟨9, 0, 0⟩
          else .ok { fmt := fmt, len := total, ocrc := w32 c.body 0, mapId := w32 bs 16, mapRev := w32 bs 20, legs := ls,
                     resOk := zeros bs 6 2 && zeros bs 14 2 && zeros bs 0x1D 3 && zeros bs 0x30 12 }
        | none => .error ⟨9, 0, o⟩

/-! ### Section framing (R59, R60, R65) -/

/-- What R65 lists for one section. -/
structure SectSpec where
  id : Nat
  size : Nat
  max : Nat
  keyed : Bool
  deriving DecidableEq, Repr

/-- The sections of a sectioned leg (R65). -/
def sectSpec : Nat → List SectSpec
  | 0x04 => [⟨1, 32, 406, true⟩]
  | 0x05 => [⟨1, 520, 32, true⟩, ⟨2, 14408, 16, true⟩]
  | 0x06 => [⟨1, 16, 4, false⟩, ⟨2, 16, 64, true⟩, ⟨3, 16, 16, true⟩]
  | 0x07 => [⟨1, 24, 32, true⟩]
  | 0x08 => [⟨1, 264, 128, true⟩]
  | 0x09 => [⟨1, 16, 1024, true⟩]
  | 0x0A => [⟨1, 128, 32, true⟩, ⟨2, 32, 2, false⟩]
  | 0x0B => [⟨1, 32, 4096, false⟩]
  | 0x0C => [⟨1, 32, 1, false⟩, ⟨2, 16, 256, false⟩, ⟨3, 32, 16, false⟩]
  | 0x0D => [⟨1, 16, 8, false⟩, ⟨2, 64, 1024, false⟩]
  | 0x0E => [⟨1, 64, 1, false⟩, ⟨2, 4096, 32, false⟩, ⟨3, 800, 1200, false⟩, ⟨4, 32, 32, false⟩, ⟨5, 64, 1024, false⟩]
  | 0x11 => [⟨1, 64, 1, false⟩, ⟨2, 16, 128, true⟩]
  | 0x12 => [⟨1, 16, 512, false⟩]
  | _ => []

/-- Cut `k` records of `size` bytes. -/
def cutRecs (size : Nat) : Nat → Bytes → List Bytes
  | 0, _ => []
  | k + 1, bs => bs.take size :: cutRecs size k (bs.drop size)

/-- Keys strictly ascending; answers the index of the first that is not (R60). -/
def keyFault : List Bytes → Nat → Option Nat
  | a :: b :: r, i => if u16 a 0 < u16 b 0 then keyFault (b :: r) (i + 1) else some (i + 1)
  | _, _ => none

/-- Step 12 of R68 on a payload: the sections, or the byte offset of the section or record that fails. -/
def parseSects : List SectSpec → Bytes → Nat → Except Nat (List Sect)
  | [], bs, ofs => if bs.isEmpty then .ok [] else .error ofs
  | sp :: rest, bs, ofs =>
    let size := u16 bs 2
    let count := u16 bs 4
    if decide (bs.length < 8) || u8 bs 0 != sp.id || size != sp.size || decide (sp.max < count)
        || decide (bs.length < 8 + count * size) then .error ofs
    else
      let rs := cutRecs size count (bs.drop 8)
      match (if sp.keyed then keyFault rs 0 else none) with
      | some i => .error (ofs + 8 + i * size)
      | none =>
        match parseSects rest (bs.drop (8 + count * size)) (ofs + 8 + count * size) with
        | .error e => .error e
        | .ok ss => .ok ({ id := sp.id, recSize := size, recs := rs, resOk := zeros bs 1 1 && zeros bs 6 2 } :: ss)

/-! ### Lookup (R60, R66) -/

def Image.leg (g : Image) (t : Nat) : Option Leg := g.legs.find? (fun l => l.typ == t)

/-- The payload of a leg; empty where the leg is absent. -/
def Image.body (g : Image) (t : Nat) : Bytes :=
  match g.leg t with
  | some l => l.body
  | none => []

/-- The records of a section; none where the leg is absent. -/
def Image.recs (g : Image) (t sid : Nat) : List Bytes :=
  match g.leg t with
  | some l => match l.sects.find? (fun x => x.id == sid) with
    | some x => x.recs
    | none => []
  | none => []

/-- Record `i` of a dense section. -/
def Image.dense (g : Image) (t sid i : Nat) : Option Bytes := (g.recs t sid)[i]?

/-- The record with a key in a keyed section. -/
def Image.keyed (g : Image) (t sid key : Nat) : Option Bytes := (g.recs t sid).find? (fun r => u16 r 0 == key)

/-- Channel record of kind and index (R66). -/
def Image.chan (g : Image) (kind i : Nat) : Option Bytes := g.keyed 0x04 1 (kind * 256 + i)

/-- `x` lies in a range, both ends counted. -/
def inR (lo hi x : Nat) : Bool := decide (lo ≤ x) && decide (x ≤ hi)

/-- FLAGS.ENABLED of a channel record (R66). -/
def recOn (r : Bytes) : Bool := (r.getD 2 0#8).getLsbD 0

/-- SCALE of a channel record (R66). -/
def recScale (r : Bytes) : Int := i8 r 3

/-- UNIT of a channel record (R66). -/
def recUnit (r : Bytes) : Nat := u16 r 4

/-- An enabled channel (its record present and ENABLED). -/
def Image.chanOn (g : Image) (kind i : Nat) : Option Bytes := (g.chan kind i).filter recOn

/-! ### SCALE and UNIT of a result (R214, R233, R319, R340, R369, R515) -/

/-- Index of the instance whose block of `cnt` at `base` holds address `a` at an offset of `offs`; with the place in `offs`. -/
def hitAt (a base stride cnt : Nat) (offs : List Nat) : Option (Nat × Nat) :=
  if base ≤ a ∧ a < base + stride * cnt then
    (offs.findIdx? (fun o => o == (a - base) % stride)).map (fun j => ((a - base) / stride, j))
  else none

/-- SCALE and UNIT of an enabled channel record. -/
def Image.recMeta (g : Image) (kind i : Nat) : Option (Int × Nat) := (g.chanOn kind i).map (fun r => (recScale r, recUnit r))

/-- Enabled lane record. -/
def Image.laneOn (g : Image) (k : Nat) : Option Bytes := (g.keyed 0x0A 1 k).filter recOn

/-- SCALE and UNIT of the result whose VALUE register lies at `a`; `none` where the image leaves it unused. Lanes and triads
take those of other results, along at most `fuel` steps. -/
def Image.metaOf (g : Image) : Nat → Nat → Option (Int × Nat)
  | 0, _ => none
  | fuel + 1, a =>
    match hitAt a 0x2000 0x40 64 [0] with
    | some (i, _) => g.recMeta 1 i
    | none => match hitAt a 0x3800 0x40 16 [0] with
    | some (i, _) => g.recMeta 5 i
    | none => match hitAt a 0x3C00 8 128 [0] with
    | some (i, _) => g.recMeta 7 i
    | none => match hitAt a 0x3400 0x20 16 [0] with
    | some (i, _) => g.recMeta 2 i
    | none => match hitAt a 0x3600 0x10 8 [0] with
    | some (i, _) => g.recMeta 3 i
    | none => match hitAt a 0x3000 0x40 16 [0, 8, 16, 24] with
    | some (i, j) => (g.chanOn 4 i).map (fun r => if j = 1 ∧ u8 r 8 = 2 then (-2, 0x13) else (recScale r, recUnit r))
    | none => match hitAt a 0x5000 0x100 8 [0, 8] with
    | some (i, j) => (g.chanOn 0x0D i).map (fun r => if j = 0 then (recScale r, recUnit r) else (i8 r 0x1E, u8 r 0x1F))
    | none => match hitAt a 0x4C00 0x40 8 [0, 8] with
    | some (i, j) => g.recMeta 0x0B (2 * i + j)
    | none => match hitAt a 0x4300 8 6 [0] with
    | some (i, _) => if (List.range 8).any (fun j => (g.chanOn 0x0E (8 * i + j)).isSome) then some (0, 0) else none
    | none => match hitAt a 0x4600 8 4 [0] with
    | some _ => some (0, 0)
    | none => match hitAt a 0x1C80 0x10 4 [0] with
    | some _ => some (0, 0)
    | none => match hitAt a 0x1D00 0x10 16 [0] with
    | some (i, _) => (g.keyed 0x06 3 i).bind (fun r => g.metaOf fuel (u16 r 2))
    | none => match hitAt a 0x7C00 8 128 [0] with
    | some (i, _) => (g.keyed 0x11 2 i).map (fun r => (sgn 4 (u32 r 6 / 2 ^ 21 % 16), u8 r 15))
    | none => match hitAt a 0x5C00 0x80 32 [0] with
    | some (i, _) => (g.laneOn i).bind (fun r =>
        if 1 ≤ u8 r 18 ∧ u8 r 18 ≤ 4 then some (-4, 8)
        else if u8 r 18 = 5 then (g.laneOn (u8 r 19)).bind (fun q => g.metaOf fuel (u16 q 12))
        else g.metaOf fuel (u16 r 12))
    | none => none

/-- SCALE and UNIT of a used result; a chain is no longer than the lanes and a triad. -/
def Image.resMeta (g : Image) (a : Nat) : Option (Int × Nat) := g.metaOf 34 a

/-- Records of the running image; `[]`, all of whose fields read 0, where there is none. -/
def Node.recOf (n : Node) (kind i : Nat) : Bytes :=
  match n.ld.img with
  | some g => (g.chan kind i).getD []
  | none => []

/-- The channel is present and enabled in the running image. -/
def Node.chOn (n : Node) (kind i : Nat) : Bool := recOn (n.recOf kind i)

def Node.keyed (n : Node) (t sid key : Nat) : Option Bytes :=
  match n.ld.img with
  | some g => g.keyed t sid key
  | none => none

def Node.dense (n : Node) (t sid i : Nat) : Option Bytes :=
  match n.ld.img with
  | some g => g.dense t sid i
  | none => none

def Node.recs (n : Node) (t sid : Nat) : List Bytes :=
  match n.ld.img with
  | some g => g.recs t sid
  | none => []

def Node.legBody (n : Node) (t : Nat) : Bytes :=
  match n.ld.img with
  | some g => g.body t
  | none => []

/-- The image holds the leg. -/
def Node.hasLeg (n : Node) (t : Nat) : Bool :=
  match n.ld.img with
  | some g => (g.leg t).isSome
  | none => false

/-! ### Roles (R446, R450) -/

/-- The duplex policy is PAIR (R446, R468). -/
def Node.pair (n : Node) : Bool := u8 (n.legBody 0x0F) 0 == 1

/-- The module carries the plant: every role but STANDBY (R446). -/
def Node.carries (n : Node) : Bool := n.dup.role != .standby

/-- The output stages are not held off: the module carries the plant, or its latches ran out unreleased and it drives its safe
states (R457). -/
def Node.outputsOn (n : Node) : Bool := n.carries || n.dup.unreleased

/-- The module may excite and drive the plant: in CALIBRATE, before roles are settled, not while the partner's role line
shows that it carries the plant (R89, R450). -/
def Node.excites (n : Node) : Bool :=
  n.outputsOn && !(n.dev.st == .calibrate && n.pair && n.dup.roleIn)

end Sys2Proof.Machine
end

