-- ==== Sys2Proof/Machine/Flags.lean ====
section
/-! DEFINITION. The flag computations: saturation of a published value (R43), the quality byte (R44), write-1-to-clear
bits (R8), and the entries of a record built from a value and its quality. -/

namespace Sys2Proof.Machine
open Sys2Proof

/-- Saturation of a published value (R43): the word and whether it saturated. -/
def satE32 (x : Int) : Word × Bool :=
  if 2147483647 < x then (0x7FFFFFFF#32, true)
  else if x < -2147483647 then (0x80000001#32, true)
  else (wi x, false)

/-! ### Quality byte (R44), FRESH apart -/

def qVALID : Byte := 1#8
def qSETTLING : Byte := 4#8
def qRANGE : Byte := 8#8
def qSUSPECT : Byte := 16#8
def qBYPASS : Byte := 32#8
def qSTALE : Byte := 64#8
def qFORCED : Byte := 128#8

def qHas (q b : Byte) : Bool := (q &&& b) != 0#8

/-- A quality byte from its producer bits; SETTLING and saturation force VALID = 0 by the caller. -/
def mkQ (valid settling range suspect bypass forced : Bool) : Byte :=
  (if valid && !settling then qVALID else 0#8) ||| (if settling then qSETTLING else 0#8)
  ||| (if range then qRANGE else 0#8) ||| (if suspect then qSUSPECT else 0#8)
  ||| (if bypass then qBYPASS else 0#8) ||| (if forced then qFORCED else 0#8)

/-- Write-1-to-clear (R8): each 1 clears its bit. -/
def w1c (old v : Word) : Word := old &&& ~~~ v

/-- The entry of a record for a computed value: saturation at either end sets RANGE and clears VALID (R43). -/
def mkEntry (addr : Nat) (x : Int) (valid settling range bypass forced : Bool) : Entry :=
  let (w, sat) := satE32 x
  { addr := addr, value := w, q := mkQ (valid && !sat) settling (range || sat) false bypass forced }

end Sys2Proof.Machine
end

