-- ==== Sys2Proof/Machine/EventCtl.lean ====
section
/-! DEFINITION. The event controller's registers (spec/05 R134 to R141) and the block controls (spec/04 R129 to R131). -/

namespace Sys2Proof.Machine
open Sys2Proof

/-- A 32-bit slice of the 128 sources, EVT_xm layout (R141). -/
def slice128 (v : BitVec 128) (m : Nat) : Word := (v >>> (32 * m)).setWidth 32

/-- Replace a 32-bit slice. -/
def putSlice128 (v : BitVec 128) (m : Nat) (w : Word) : BitVec 128 :=
  (v &&& ~~~ ((0xFFFFFFFF#128) <<< (32 * m))) ||| ((w.setWidth 128) <<< (32 * m))

/-- Write of EVT_STATm (R135): each 1 clears a flag and its counter together, except that a source whose latest
occurrence fell into the same I0 cycle (`same`) keeps both (R9: the set wins). -/
def evtStatWrite (m : Nat) (v same : Word) (n : Node) : Node :=
  let c := v &&& ~~~ same
  { n with evt.stat := putSlice128 n.evt.stat m (w1c (slice128 n.evt.stat m) c)
           evt.occ := (List.range 32).foldl (fun o j => if c.getLsbD j then tset 0 o (32 * m + j) 0 else o) n.evt.occ }

/-- Write of EVT_MASKm; sources that become pending are treated as if they had just set (R136). -/
def evtMaskWrite (m : Nat) (v : Word) (n : Node) : Node :=
  let e : Events := { n.evt with mask := putSlice128 n.evt.mask m v }
  { n with evt := Events.restream n.evt e n.now }

/-- Write of EVT_ROUTEm: eight 4-bit codes; codes 5 to 15 leave their field unchanged (R141). -/
def evtRouteWrite (m : Nat) (v : Word) (n : Node) : Node :=
  let e : Events := { n.evt with route := (List.range 8).foldl (fun r j =>
    let c := fld v (4 * j + 3) (4 * j)
    if c ≤ 4 then tset 0 r (8 * m + j) c else r) n.evt.route }
  { n with evt := Events.restream n.evt e n.now }

/-- Read of EVT_MSGQ (R139): word 0, then word 1, which removes the entry; 0 on an empty queue. -/
def evtMsgqRead (n : Node) : Word × Node :=
  match n.evt.queue with
  | [] => (0#32, n)
  | e :: r =>
    if n.evt.half then (e.word1, { n with evt.queue := r, evt.half := false })
    else (e.word0, { n with evt.half := true })

/-- Write of EVT_MSG_STAT: clearing OVF clears LOST (R141). -/
def evtMsgStatWrite (v : Word) (n : Node) : Node :=
  if bitOf v 31 then { n with evt.ovf := false, evt.lost := 0 } else n

def evtMsgStat (n : Node) : Word := wd (b2n n.evt.ovf * 2 ^ 31 + n.evt.lost * 65536 + n.evt.queue.length)

def evtRouteWord (n : Node) (m : Nat) : Word :=
  wd ((List.range 8).foldl (fun a j => a + n.evt.routeOf (8 * m + j) * 16 ^ j) 0)

def evtOccWord (n : Node) (m : Nat) : Word :=
  wd ((List.range 4).foldl (fun a j => a + n.evt.occOf (4 * m + j) * 256 ^ j) 0)

/-! ### Block controls -/

/-- Addresses of the 24 BLK_CTRL registers (R543), by block number. -/
def blkAddr : List Nat :=
  [0x03FC, 0x07FC, 0x0BFC, 0x0FFC, 0x13FC, 0x17FC, 0x1BFC, 0x1FFC, 0x0200, 0x0204, 0x37FC, 0x0208, 0x020C, 0x43FC,
   0x47FC, 0x0210, 0x0214, 0x5BFC, 0x0218, 0x6FFC, 0x73FC, 0x77FC, 0x7BFC, 0x021C]

/-- Block numbers used by name. -/
def bGlobal : Nat := 0
def bIsl : Nat := 1
def bLoader : Nat := 2
def bEvt : Nat := 3
def bMbx : Nat := 4
def bClk : Nat := 5
def bRec : Nat := 6
def bJn : Nat := 7
def bUi : Nat := 8
def bCa : Nat := 9
def bEx : Nat := 10
def bLo : Nat := 11
def bHart : Nat := 12
def bDi : Nat := 13
def bDo : Nat := 14
def bSv : Nat := 15
def bPf : Nat := 16
def bCmp : Nat := 17
def bLn : Nat := 18
def bAlm : Nat := 19
def bSeq : Nat := 20
def bDsp : Nat := 21
def bDup : Nat := 22
def bNet : Nat := 23

def Node.blkOf (n : Node) (b : Nat) : BlkCtl := tget {} n.blk b

/-- EXPERT of a block (R129). -/
def Node.expert (n : Node) (b : Nat) : Bool := (n.blkOf b).expert

/-- BLOCK bits that a chapter defines, per block; the others read 0 (R129, R546). -/
def blkMask (b : Nat) : Byte := if b = 7 ∨ b = 6 then 1#8 else 0#8

/-- Write of a BLK_CTRL: EXPERT, and the BLOCK bits the owning chapter defines (R129). The 60 s of R131 run from the
moment EXPERT is set. -/
def blkCtrlWrite (b : Nat) (v : Word) (n : Node) : Node :=
  let o := n.blkOf b
  let e := bitOf v 0
  { n with blk := tset {} n.blk b { expert := e, block := (BitVec.ofNat 8 (fld v 15 8)) &&& blkMask b,
                                    since := if e then (if o.expert then o.since else n.now) else 0 } }

def blkCtrlWord (n : Node) (b : Nat) : Word := wd (b2n (n.blkOf b).expert + (n.blkOf b).block.toNat * 256)

/-- An accepted X-level write restarts the 60 s (R131). -/
def expertTouch (b : Nat) (n : Node) : Node :=
  if n.expert b then { n with blk := tmod {} n.blk b (fun o => { o with since := n.now }) } else n

/-- EXPERT clears at a scan tick 60 s or more after the last accepted X-level write (R131). -/
def expertTimeout (b : Nat) (n : Node) : Node :=
  let o := n.blkOf b
  if o.expert && decide (o.since + 60 * secPer ≤ n.now) then
    { n with blk := tset {} n.blk b { o with expert := false, since := 0 } } else n

def expertTimeouts (n : Node) : Node := (List.range 24).foldl (fun m b => expertTimeout b m) n

end Sys2Proof.Machine
end

