-- ==== Sys2Proof/Machine/UniversalIn.lean ====
section
/-! DEFINITION. Universal inputs, cold junctions and excitation supplies (spec/06 R155 to R189, spec/07 R207 to R209). -/

namespace Sys2Proof.Machine
open Sys2Proof

/-! ### Configuration -/

def Node.uiC (n : Node) (c : Nat) : UiChan := tget {} n.ui c
def setUi (c : Nat) (u : UiChan) (n : Node) : Node := { n with ui := tset {} n.ui c u }
def modUi (c : Nat) (f : UiChan → UiChan) (n : Node) : Node := setUi c (f (n.uiC c)) n
def Node.exC (n : Node) (k : Nat) : ExChan := tget {} n.ex k
def setEx (k : Nat) (u : ExChan) (n : Node) : Node := { n with ex := tset {} n.ex k u }
def modEx (k : Nat) (f : ExChan → ExChan) (n : Node) : Node := setEx k (f (n.exC k)) n
def Node.bcOf (n : Node) (b : Nat) : Bc := tget {} n.cal.bcs b
def setBc (b : Nat) (u : Bc) (n : Node) : Node := { n with cal.bcs := tset {} n.cal.bcs b u }
def modBc (b : Nat) (f : Bc → Bc) (n : Node) : Node := setBc b (f (n.bcOf b)) n

/-- Conversion period of a rate code, in DEVTIME counts (R161). -/
def uiPeriod : Nat → Nat
  | 0 => 100000000 | 1 => 50000000 | 2 => 25000000 | 3 => 10000000 | 4 => 5000000 | 5 => 2500000 | 6 => 1000000
  | 7 => 500000 | 8 => 250000 | 9 => 125000 | _ => 62500

/-- Full settle time of a rate code and filter, in DEVTIME counts (R161). -/
def uiSettle (rate : Nat) (line : Bool) : Nat :=
  if line then
    match rate with
    | 0 => 300000000 | 1 => 150000000 | 2 => 75000000 | 3 => 80000000 | _ => 75000000
  else 4 * uiPeriod rate

/-- A RATE and FILT that R161 allows. -/
def uiFiltOk (rate : Nat) (line : Bool) : Bool := decide (rate ≤ 10) && !(line && decide (4 < rate))

def uiMode (r : Bytes) : Nat := u8 r 8
def uiRange (r : Bytes) : Nat := u8 r 9
def uiWire (r : Bytes) : Nat := u8 r 10
def uiCurve (r : Bytes) : Nat := u8 r 13
def uiEx (r : Bytes) : Nat := u8 r 14
def uiCj (r : Bytes) : Nat := u8 r 15
def uiRref (r : Bytes) : Nat := u32 r 16

/-- Four times SPAN, exact (R207). -/
def uiSpan4 (r : Bytes) : Nat :=
  match uiMode r with
  | 1 => 80000000
  | 2 => if uiRange r = 0 then 800000000 else 8000000000
  | 3 => 800000000
  | 5 => if uiRange r = 0 then 80000000 else 800000000
  | 6 => 104000000
  | 4 => 5 * uiRref r
  | 7 => 5 * uiRref r
  | _ => 0

/-- PLAUS byte of a channel (R213, R214). -/
def Node.plaus (n : Node) (c : Nat) : Nat := u8 ((n.dense 0x06 1 (c / 16)).getD []) (c % 16)

/-- Channels bound to a supply (R176). -/
def Node.boundTo (n : Node) (k c : Nat) : Bool := n.chOn 1 c && uiEx (n.recOf 1 c) == k

/-! ### Grids (R162) -/

/-- `t` is a conversion boundary of a grid, later than the latest one that has come (R162). -/
def atBoundary (grid lastAt period t : Nat) : Bool := decide (lastAt < t) && (t - grid) % period == 0

/-- The first boundary of a grid after `t`. -/
def nextBoundary (grid period t : Nat) : Nat := grid + ((t - grid) / period + 1) * period

/-- The miswire protection has disconnected channel number `ch` of MW_ACT (filled in by `Machine/CurrentLoop.lean`). -/
def Node.miswired (n : Node) (ch : Nat) : Bool := n.mw.act.getLsbD ch

/-- A change of the bound supply has its T_c before `t`: the conversion's window is abandoned (R177 step 2). -/
def Node.uiPastTc (n : Node) (c t : Nat) : Bool :=
  decide (uiEx (n.recOf 1 c) < 16) && (n.exC (uiEx (n.recOf 1 c))).tc.any (fun x => decide (x < t))

/-- The grid of a channel stands still for the 1 ms of R177 step 3 only. -/
def Node.uiHeld (n : Node) (c : Nat) : Bool :=
  n.acq && n.chOn 1 c && !(n.uiC c).failed && !n.miswired c && decide (uiEx (n.recOf 1 c) < 16)
    && (n.exC (uiEx (n.recOf 1 c))).discard.isSome

/-! ### Curves (R165 to R172) -/

/-- Span of the built-in temperature curves, in µ°C (R166). -/
def curveSpan : Nat → Int × Int
  | 1 => (-210000000, 1200000000) | 2 => (-270000000, 1372000000) | 3 => (-270000000, 1300000000)
  | 4 => (-270000000, 400000000) | 5 => (-270000000, 1000000000) | 6 => (-50000000, 1768000000)
  | 7 => (-50000000, 1768000000) | 8 => (0, 1820000000) | 9 => (-200000000, 850000000)
  | 10 => (-200000000, 850000000) | 11 => (-80000000, 250000000) | _ => (0, 0)

/-- A quantity in millionths of its unit published at a scale (R165, R172): round(y / 10^SCALE). -/
def atScale (micro : Int) (scale : Int) : Int := divRound micro (10 ^ (scale + 6).toNat)

/-- A temperature in µ°C in the unit and scale of a record (R172). -/
def tempE32 (r : Bytes) (microC : Int) : Int :=
  atScale (if recUnit r = 5 then microC + 273150000 else microC) (recScale r)

/-- Rounded square root of a number. -/
def sqrtRound (x : Nat) : Nat := let s := x.sqrt; if s * s + s < x then s + 1 else s

/-- Curve 12 (R169) on a current in nA: y in ppm, and whether the cut-off stands; `cut` says whether it stood. -/
def curve12 (lowcut : Nat) (cut : Bool) (x : Int) : Int × Bool :=
  let f := (x - 4000000) * 65536
  let edge : Int := (lowcut : Int) * 16000000
  let low := if cut then decide (f < edge + 5242880000) else decide (f < edge)
  if low then (0, true) else ((sqrtRound (62500 * (x - 4000000).toNat) : Nat), false)

/-- Points of a user table (R170). -/
def tblX (tb : Bytes) (i : Nat) : Int := i32 tb (8 + 8 * i)
def tblY (tb : Bytes) (i : Nat) : Int := i32 tb (12 + 8 * i)
def tblN (tb : Bytes) : Nat := u16 tb 2

/-- The segment in which x lies: the last i with Xi ≤ x, at most NPTS − 2. -/
def tblSeg (tb : Bytes) (x : Int) : Nat :=
  min (tblN tb - 2) (((List.range (tblN tb)).filter (fun i => decide (tblX tb i ≤ x))).length - 1)

/-- User table (R170): numerator and denominator of y, with the end value beyond the span, and whether x lies beyond. -/
def tblEval (tb : Bytes) (x : Int) : Int × Int × Bool :=
  let last := tblN tb - 1
  if x < tblX tb 0 then (tblY tb 0, 1, true)
  else if tblX tb last < x then (tblY tb last, 1, true)
  else
    let i := tblSeg tb x
    let dx := tblX tb (i + 1) - tblX tb i
    (tblY tb i * dx + (x - tblX tb i) * (tblY tb (i + 1) - tblY tb i), dx, false)

/-- 10^39 times the resistance of curve 9 or 10 in mΩ at a temperature in µ°C: A and B as the chapter's example has them, C
below 0 °C PRESUMED from IEC 60751 (R166; notes/assumptions/55.md). -/
def rtdRef (r0 : Int) (y : Int) : Int :=
  r0 * (10 ^ 39 + 39083 * 10 ^ 26 * y - 5775 * 10 ^ 17 * y ^ 2 - (if y < 0 then 4183 * (y - 100000000) * y ^ 3 else 0))

/-- Reference function of curves 1 to 10 on a temperature in µ°C, and the factor it stands above native units (R166). -/
def curveRef (c : Nat) (y : Int) : Int := if c = 9 then rtdRef 100000 y else if c = 10 then rtdRef 1000000 y else Config.emf c y
def curveUnit (c : Nat) : Int := if c = 9 ∨ c = 10 then 10 ^ 39 else 1

/-- The greatest temperature from `lo` at which the reference function does not exceed `v`, to the whole µ°C: `k` halvings. -/
def refInverse (c : Nat) (v : Int) : Nat → Int → Int → Int
  | 0, lo, _ => lo
  | k + 1, lo, hi =>
    let m := (lo + hi) / 2
    if curveRef c m ≤ v then refInverse c v k m hi else refInverse c v k lo m

/-- 2^64 · artanh(a / b) for 3a ≤ b, by its series. -/
def atanhFix (a b : Nat) : Int :=
  ((List.range 24).foldl (fun (s, p) k => (s + p / (2 * k + 1), p * a ^ 2 / b ^ 2)) (0, a * 2 ^ 64 / b)).1

/-- 2^64 · ln x for 0 < x. -/
def lnFix (x : Nat) : Int :=
  let e := x.log2
  2 * (e * atanhFix 1 3 + atanhFix (x - 2 ^ e) (x + 2 ^ e))

/-- 2^150 times a finite single-precision value. -/
def floatFix (w : Word) : Int :=
  let m := fld w 22 0
  let e := fld w 30 23
  (if bitOf w 31 then -1 else 1) * (if e = 0 then (m : Int) * 2 else ((m : Int) + 2 ^ 23) * 2 ^ e)

/-- Temperature in µ°C of the NTC formula on x in mΩ, 0 < x; `none` where its right side is 0 or negative (R168). -/
def ntcRef (a b c : Word) (x : Int) : Option Int :=
  let l := lnFix x.toNat - lnFix 1000
  let d := floatFix a * 2 ^ 192 + floatFix b * l * 2 ^ 128 + floatFix c * l ^ 3
  if d ≤ 0 then none else some (1000000 * 2 ^ 342 / d - 273150000)

/-- A coefficient that is an infinity or no number: the spec states no curve for it. -/
def coefOpen (w : Word) : Bool := fld w 30 23 == 255

/-- The curve's own evaluation, free within 0.01 °C of the reference (R166; notes/assumptions/55.md). -/
def near (ref v : Int) : Int := clampI (ref - 10000) (ref + 10000) v

/-- Temperature of a built-in curve in µ°C, at the nearer end of its span for a reading outside it, and whether the reading
lies inside (R166 to R168). -/
def curveTemp (r : Bytes) (x : Int) : Int × Bool :=
  let c := uiCurve r
  let (lo, hi) := curveSpan c
  if c = 11 then
    let (a, b, d) := (w32 r 20, w32 r 24, w32 r 28)
    if x ≤ 0 then (hi, false)
    else if coefOpen a || coefOpen b || coefOpen d then (clampI lo hi (Config.ntcMicroC a b d x), true)
    else match ntcRef a b d x with
      | none => (hi, false)
      | some y => if y < lo then (lo, false) else if hi < y then (hi, false)
                  else (clampI lo hi (near y (Config.ntcMicroC a b d x)), true)
  else
    let v := x * curveUnit c
    if v < curveRef c lo then (lo, false) else if curveRef c hi < v then (hi, false)
    else (clampI lo hi (near (refInverse c v 32 lo (hi + 1)) (Config.curveMicroC c x)), true)

/-- The reading lies inside its curve's span (R167). -/
def inSpan (r tb : Bytes) (x : Int) : Bool :=
  let c := uiCurve r
  if c = 0 then true
  else if c = 12 then decide (0 ≤ x) && decide (x ≤ 24000000)
  else if 32 ≤ c then decide (tblX tb 0 ≤ x) && decide (x ≤ tblX tb (tblN tb - 1))
  else (curveTemp r x).2

/-- Curve and scaling of R165 on x: E32 before saturation, and whether the curve 12 cut-off stands. -/
def uiE32 (r tb : Bytes) (cut : Bool) (x : Int) : Int × Bool :=
  let c := uiCurve r
  let linear := uiMode r == 1 || uiMode r == 2 || uiMode r == 5 || uiMode r == 6
  let k := i32 r 16
  let sh := u8 r 26
  let off := i32 r 20
  if 32 ≤ c then
    let (num, den, _) := tblEval tb x
    if linear then (divRound (num * k) (den * 2 ^ sh) + off, cut) else (divRound num den, cut)
  else if linear then
    if c = 12 then
      let (y, cut') := curve12 (u16 r 24) cut (clampI 0 24000000 x)
      (divRound (y * k) (2 ^ sh) + off, cut')
    else (divRound (x * k) (2 ^ sh) + off, cut)
  else if c = 0 then (atScale (x * 1000) (recScale r), cut)
  else (tempE32 r (curveTemp r x).1, cut)

/-- The user table of a channel, empty where it uses none. -/
def Node.uiTbl (n : Node) (r : Bytes) : Bytes :=
  if 32 ≤ uiCurve r then (n.keyed 0x05 1 (uiCurve r)).getD [] else []

/-! ### The reading x (R159, R160, R165, R174, R198) -/

/-- One conversion as the hardware delivers it: calibrated reading of the converter that publishes outside rounds (the
own converter, or the bound bypass converter of a detoured channel), reading of the round's bypass converter, both in
native units before lead and cold-junction terms, and the drop on the current lead in 3-wire mode. -/
abbrev UiReading := Int × Int × Int

/-- SCALE and UNIT of a temperature source: a UI channel or a CJ sensor. -/
def microOf (r : Bytes) (v : Word) : Int :=
  let y := v.toInt * 10 ^ (recScale r + 6).toNat
  if recUnit r = 5 then y - 273150000 else y

/-- Cold-junction temperature in µ°C of channel c and whether its source is valid (R174). -/
def cjTemp (n : Node) (c : Nat) (r : Bytes) : Int × Bool :=
  match uiCj r / 64 with
  | 1 => (i32 r 16 * 1000, true)
  | 2 =>
    let k := uiCj r % 64
    let s := n.res (0x2000 + k * 0x40)
    (microOf (n.recOf 1 k) (valueWord s), qHas (resQ s) qVALID)
  | _ =>
    let m := c / 8
    let s := n.res (0x3600 + m * 0x10)
    (microOf (n.recOf 3 m) (valueWord s), qHas (resQ s) qVALID)

/-- The converter's reading that is published, with the alignment or ramp of R195, R197 and R202. -/
def uiBase (u : UiChan) (m : UiReading) : Int :=
  let base := if u.src = 1 then m.2.1 else m.1
  if u.src = 1 then divRound (base * u.rampDen + u.rampNum) u.rampDen
  else if u.rampJ < u.rampN then
    divRound (base * u.rampDen * u.rampN + u.rampNum * (u.rampN - u.rampJ : Nat)) (u.rampDen * u.rampN : Nat)
  else base

/-- x of R165: lead-corrected, loop offset removed, cold junction added. -/
def uiX (n : Node) (c : Nat) (u : UiChan) (m : UiReading) : Int :=
  let r := n.recOf 1 c
  let b := uiBase u m
  let b := if uiWire r = 3 then b - m.2.2
           else if uiWire r = 2 && uiCurve r != 11 then b - (u32 r 20 : Nat) else b
  if uiMode r = 3 then
    b - divRound (u.loopR : Nat) 20 + Config.emf (uiCurve r) (cjTemp n c r).1
  else b

/-! ### Checks (R167, R181, R208, R209) -/

/-- The channel's HART master runs multidrop (R260). -/
def uiMultidrop (n : Node) (c : Nat) : Bool := decide (c < 16) && n.chOn 6 (16 + c) && u8 (n.recOf 6 (16 + c)) 8 == 2

/-- The bound supply is off or out of regulation (R181); at the STANDBY, whose supplies only sense, ratiometric readings stay
valid while the sensed supply regulates (R156, R450). -/
def excBad (n : Node) (r : Bytes) : Bool :=
  let k := uiEx r
  let e := n.exC k
  if n.carries then decide (k < 16) && !(e.aOn && e.regOk)
  else decide (k < 16) && !(e.regOk && [4, 5, 7].contains (uiMode r))

/-- RANGE window of R208 in native units; `none`: no limit on that side. -/
def uiWindow (r : Bytes) (openChk : Bool) : Option Int × Option Int :=
  match uiMode r with
  | 1 => (some (-10200000), some 10200000)
  | 2 => if uiRange r = 0 then (some (-102000000), some 102000000) else (some (-1020000000), some 1020000000)
  | 5 => if uiRange r = 0 then (some (-10500000), some 10500000) else (some (-105000000), some 105000000)
  | 6 => if openChk then (some 3600000, some 21000000) else (some (-500000), some 24000000)
  | _ => (none, none)

/-- x lies inside the window by a margin given as a fraction of four times SPAN: `mg` / 4000 of it (R208). Ratiometric
resistance windows are compared exactly (R207). -/
def uiInside (r tb : Bytes) (openChk : Bool) (inV x : Int) (mg : Int) : Bool :=
  let w := uiWindow r openChk
  let x4 := x * 4000
  let okLo := match w.1 with | some lo => decide (lo * 4000 + mg ≤ x4) | none => true
  let okHi := match w.2 with | some hi => decide (x4 ≤ hi * 4000 - mg) | none => true
  let resist := uiMode r == 4 || uiMode r == 7
  let okR := !resist || decide (x4 ≤ (4960 * uiRref r : Nat) - mg)
  let okShort := !(resist && openChk) || decide ((10 * uiRref r : Nat) + mg ≤ x4)
  let okOpen := !(uiMode r == 3 && openChk) || decide (inV * 4000 ≤ 90000000 * 4000 - mg)
  let m1 := (mg + 3999) / 4000
  okLo && okHi && okR && okShort && okOpen && inSpan r tb (x + m1) && inSpan r tb (x - m1)

/-- The cause of a reading outside the window is an open or a short sensor (R208). -/
def uiOpenShort (r : Bytes) (openChk : Bool) (inV x : Int) : Bool :=
  openChk && match uiMode r with
    | 3 => decide (90000000 < inV)
    | 4 => decide ((4960 * uiRref r : Nat) < x * 4000) || decide (x * 4000 < (10 * uiRref r : Nat))
    | 7 => decide ((4960 * uiRref r : Nat) < x * 4000) || decide (x * 4000 < (10 * uiRref r : Nat))
    | 5 => decide ((if uiRange r = 0 then (10500000 : Int) else 105000000) < |x|)
    | 6 => decide (x < 1000000) || decide (23000000 < x)
    | _ => false

/-- The step from one result to the next exceeds L × P (R209), compared exactly to the fourth power. -/
def rateExceeded (span4 period c : Nat) (dx : Int) : Bool :=
  decide ((span4 * period) ^ 4 * 2 ^ c < (dx.natAbs * 1000000000) ^ 4 * 2 ^ 64)

/-! ### A conversion (R162 to R167, R178, R181, R182) -/

/-- What a conversion publishes and leaves in the channel: entry or none, new channel state, events to raise. -/
structure UiOut where
  entry : Option Entry
  chan  : UiChan
  ev32  : Bool
  ev34  : Bool

def uiPublish (n : Node) (c : Nat) (m : UiReading) (t : Nat) : UiOut :=
  let u := n.uiC c
  let r := n.recOf 1 c
  let tb := n.uiTbl r
  let addr := 0x2000 + c * 0x40
  let settling := decide (t < u.settle) && !(u.src == 1)
  let byp := u.src == 1 || u.src == 2
  let x := uiX n c u m
  let inV := if u.src = 1 then m.2.1 else m.1
  let openChk := decide (128 ≤ n.plaus c)
  let code := n.plaus c % 128
  let bad := excBad n r
  let cjb := uiMode r == 3 && !(cjTemp n c r).2
  let u0 : UiChan := { u with lastAt := t, raw := x, cnt := u.cnt + 1#32, cjBad := cjb,
                              rampJ := if u.src = 1 then u.rampJ else min u.rampN (u.rampJ + 1) }
  let forced : Entry := { addr := addr, value := u.forceVal, q := mkQ true false false false false true }
  if settling then
    let u1 : UiChan := { u0 with prevX := none, susp := 0 }
    if !u.published then { entry := none, chan := u1, ev32 := false, ev34 := false }
    else if u.force then { entry := some forced, chan := { u1 with last := u.forceVal, range := false }, ev32 := false, ev34 := false }
    else { entry := some { addr := addr, value := u.last, q := mkQ false true false false byp false },
           chan := u1, ev32 := false, ev34 := false }
  else
    let (e, cut) := uiE32 r tb u.cut x
    let out := !uiInside r tb openChk inV x 0
    let hold := if out then true else u.hold && !uiInside r tb openChk inV x (2 * uiSpan4 r)
    let (w, sat) := satE32 e
    let range := hold || sat
    let exceed := match u.prevX with
      | some px => decide (0 < code) && rateExceeded (uiSpan4 r) (uiPeriod u.rate) code (x - px)
      | none => false
    let susp := if exceed then 4 else u.susp - 1
    let u1 : UiChan := { u0 with prevX := some x, susp := susp, cut := cut, hold := hold, published := true }
    if u.force then
      { entry := some forced, chan := { u1 with last := u.forceVal, range := false }, ev32 := false, ev34 := false }
    else
      { entry := some { addr := addr, value := w,
                        q := mkQ (!range && !bad && !cjb && !uiMultidrop n c) false range (decide (0 < susp)) byp false },
        chan := { u1 with last := w, range := range },
        ev32 := range && !u.range, ev34 := range && !u.range && uiOpenShort r openChk inV x }

/-- A converter detour is recorded in MRAM and in DTR_LAST, with event 22 (R202 step 4, R470). -/
def recordDetour (c b : Nat) (n : Node) : Node :=
  recNote 4 3 none (raise 22 { n with dtr.conv := tset 0 n.dtr.conv c (b + 1), dtr.lastKind := 2, dtr.lastIdx := c,
                                      dtr.lastScan := n.scan.toNat % 65536 })

/-- The BC that pre-rolled for a failed converter publishes with the channel's first settled result: the detour stands
(R202 step 4, R204). -/
def prerollDone (c t : Nat) (n : Node) : Node :=
  (List.range 4).foldl (fun m b =>
    let k := m.bcOf b
    if k.preroll && k.chan == c && decide ((m.uiC c).settle ≤ t) then
      modUi c (fun u => { u with src := 2 }) (recordDetour c b (setBc b { k with preroll := false } m))
    else m) n

/-- A pre-roll is cut off: the BC is free again, the converter's failure is found anew. -/
def prerollDrop (n : Node) : Node :=
  (List.range 4).foldl (fun m b =>
    if (m.bcOf b).preroll then modBc b (fun k => { k with step := 1, chan := 0, preroll := false }) m else m) n

/-- Accumulate the pairs of a round's overlaps (R194, R195, R197) and move from step to step at the channel's boundaries. -/
def bcPair (c : Nat) (m : UiReading) (t : Nat) (n : Node) (b : Nat) : Node :=
  let k := n.bcOf b
  let ceil160 := ((40000000 + k.p - 1) / k.p) * k.p
  let tr := k.t0 + k.s + (k.novl - 1) * k.p + ceil160
  if k.chan != c then n
  else if (k.step == 2 || k.step == 3) && decide (k.t0 + k.s ≤ t) && decide (k.cnt1 < k.novl) then
    setBc b { k with step := 3, sum1 := k.sum1 + (m.1 - m.2.1), cnt1 := k.cnt1 + 1 } n
  else if (k.step == 4 || k.step == 5) && k.refs && decide (tr ≤ t) then
    if decide (tr + k.s ≤ t) && decide (k.cnt2 < k.novl) then
      setBc b { k with step := 5, sum2 := k.sum2 + (m.1 - m.2.1), cnt2 := k.cnt2 + 1 } n
    else setBc b { k with step := 5 } n
  else n

/-- UI_CONVERSION_COMPLETE without the interlock comparators: a channel reaches a conversion boundary at DEVTIME `t`. -/
def uiConvert (c : Nat) (m : UiReading) (t : Nat) (n : Node) : Node :=
  let u := n.uiC c
  if n.acq && n.isRun 3 && n.roleOn 1 (c / 32) && n.chOn 1 c && u.conv && !u.failed
      && atBoundary u.grid u.lastAt (uiPeriod u.rate) t && !n.uiPastTc c t then
    let n0 := prerollDone c t n
    let o := uiPublish n0 c m t
    let n1 := setUi c o.chan n0
    let n2 := match o.entry with
      | some e => complete c 0 [e] t n1
      | none => n1
    (List.range 4).foldl (bcPair c m t) (raiseIf o.ev34 34 (raiseIf o.ev32 32 n2))
  else n

/-! ### Filters (R163, R164) -/

/-- The filter and grid of a channel restart at `t` under its present setting. -/
def uiRestart (t : Nat) (u : UiChan) : UiChan :=
  { u with conv := true, grid := t, lastAt := t, settle := t + uiSettle u.rate u.line, prevX := none, susp := 0 }

/-- The grid of a channel stops: an allowed write that waited is stored at once (R164). -/
def uiHalt (u : UiChan) : UiChan :=
  let f := u.pend.getD (u.rate, u.line)
  { u with rate := f.1, line := f.2, pend := none, conv := false }

/-- An allowed UI_FILT write is pending while the grid runs, and stored at once otherwise; a refused one sets
CFG_REFUSED (R164). -/
def uiFiltWrite (c : Nat) (v : Word) (n : Node) : Node :=
  let rate := fld v 3 0
  let line := bitOf v 8
  let u := n.uiC c
  if !uiFiltOk rate line then setUi c { u with cfgRefused := true } n
  else if u.conv || n.uiHeld c then setUi c { u with pend := some (rate, line) } n
  else setUi c { u with rate := rate, line := line, pend := none } n

/-- D of R194, plus the 160 ms of self-calibration: the expected period of a BC producer (R210). -/
def roundPeriod (k : Bc) : Nat :=
  let ceil160 := ((40000000 + k.p - 1) / k.p) * k.p
  max (k.per * secPer) (2 * k.s + 2 * (k.novl - 1) * k.p + ceil160 + 40000000)

/-- A round of the channel is abandoned with outcome 5 and event 36; the own converter publishes again with the
calibration from before the round (R206). -/
def roundAbandon (b : Nat) (n : Node) : Node :=
  let k := n.bcOf b
  if 2 ≤ k.step && k.step ≤ 5 then
    let c := k.chan
    let n1 := modUi c (fun u => if u.src = 1 then { u with src := (if tget 0 n.dtr.conv c = 0 then 0 else 2), rampN := 0, rampJ := 0, rampNum := 0 } else u) n
    let (v, n2) := drawFree n1
    raise 36 (complete (64 + b) 0 [{ addr := 0x1C80 + b * 0x10, value := (satE32 v.toInt).1, q := mkQ true false true false false false }] n.now
      (setBc b { k with step := 1, chan := 0, lastChan := c, outcome := 5, lastScan := n.scan.toNat % 65536, dis := [],
                        period := roundPeriod k, refs := false, verdict := .none } { n2 with cal.rndCnt := n2.cal.rndCnt + 1#32 }))
  else n

/-- Rounds on a channel are abandoned. -/
def roundsOf (c : Nat) (n : Node) : Node :=
  (List.range 4).foldl (fun m b => if (m.bcOf b).chan == c then roundAbandon b m else m) n

/-- UI_FILTER_RESTART: at the boundary after an allowed write the filter and grid restart (R164), and a round on the
channel ends (R206). -/
def uiFilterRestart (c : Nat) (t : Nat) (n : Node) : Node :=
  match (n.uiC c).pend with
  | some (rate, line) =>
    let u := n.uiC c
    if u.conv && (t == u.lastAt || atBoundary u.grid u.lastAt (uiPeriod u.rate) t) then
      modUi c (fun u => uiRestart t { u with rate := rate, line := line, pend := none, filtRestart := true })
        (roundsOf c n)
    else n
  | none => n

/-- Write of UI_FORCE_CTRL (R182). -/
def uiForceCtrl (c : Nat) (v : Word) (n : Node) : Node := modUi c (fun u => { u with force := bitOf v 0 }) n

/-- Write of UI_FORCE_VAL: 0x8000_0000 is stored as 0x8000_0001 (R182). -/
def uiForceVal (c : Nat) (v : Word) (n : Node) : Node :=
  modUi c (fun u => { u with forceVal := if v = 0x80000000#32 then 0x80000001#32 else v }) n

/-- Filters start on entry to READY (R163). -/
def uiStart (t : Nat) (n : Node) : Node :=
  (List.range 64).foldl (fun m c =>
    if m.chOn 1 c && !(m.uiC c).failed && !m.miswired c then
      modUi c (fun u => uiRestart t { u with published := false, cnt := 0#32, hold := false, range := false, cut := false }) m
    else m) n

/-- Acquisition stops (SAFE, a COMMIT): no grid runs. -/
def uiStop (n : Node) : Node :=
  let n1 := (List.range 4).foldl (fun m b => roundAbandon b m) (prerollDrop n)
  (List.range 64).foldl (fun m c => modUi c uiHalt m)
    { n1 with cj := (List.range 8).foldl (fun m k => tset {} m k { tget ({} : CjChan) m k with conv := false }) n1.cj,
              ex := (List.range 16).foldl (fun m k => tset {} m k { tget ({} : ExChan) m k with conv := false }) n1.ex }

/-- A COMMIT clears FORCE (R182). -/
def uiUnforce (n : Node) : Node := (List.range 64).foldl (fun m c => modUi c (fun u => { u with force := false }) m) n

/-- UI state set from the route map when an image is applied (R164, R182). -/
def uiApply (n : Node) : Node :=
  (List.range 64).foldl (fun m c =>
    let r := m.recOf 1 c
    let u := m.uiC c
    setUi c { u with rate := u8 r 11, line := (u8 r 12 == 1), pend := none, conv := false, published := false,
                     force := false, cut := false, hold := false, range := false, prevX := none, susp := 0,
                     rampN := 0, rampJ := 0, rampNum := 0, raw := 0 } m) n

/-! ### Cold junctions (R174) -/

/-- CJ_CONVERSION_COMPLETE: the sensor reads `mC` m°C. -/
def cjConvert (k : Nat) (mC : Int) (t : Nat) (n : Node) : Node :=
  let r := n.recOf 3 k
  let j : CjChan := tget {} n.cj k
  if n.acq && n.isRun 3 && n.roleOn 1 (k / 4) && recOn r && j.conv && decide (j.settle ≤ t)
      && atBoundary j.grid j.lastAt (uiPeriod 2) t then
    complete (224 + k) 0 [mkEntry (0x3600 + k * 0x10) (tempE32 r ((mC + i16 r 8) * 1000)) true false false false false] t
      { n with cj := tset {} n.cj k { j with lastAt := t } }
  else n

def cjStart (t : Nat) (n : Node) : Node :=
  { n with cj := (List.range 8).foldl (fun m k => tset {} m k { conv := true, grid := t, lastAt := t, settle := t + uiSettle 2 true }) n.cj }

/-! ### Excitation supplies (R175 to R181, R187) -/

/-- Output state wanted of a supply in the present device state and role: on, VSET (R85, R89, R93, R96, R450). -/
def exWant (n : Node) (k : Nat) : Bool × Nat :=
  let r := n.recOf 2 k
  let e := n.exC k
  if !recOn r || !n.excites || !n.isRun 5 || n.mw.act.getLsbD (96 + k) then (false, u8 r 8)
  else match n.dev.st with
    | .calibrate => (true, u8 r 8)
    | .ready => (u8 r 9 == 1, u8 r 8)
    | .safe => (u8 r 9 == 1, u8 r 8)
    | .run => (e.on, e.vset)
    | .degraded => (e.on, e.vset)
    | _ => (n.ld.restarting && u8 r 9 == 1, u8 r 8)

/-- Something bound to the supply, or its own sensed result, is converting (R177 step 1). -/
def exConverting (n : Node) (k : Nat) : Bool :=
  (n.exC k).conv || (List.range 64).any (fun c => n.boundTo k c && (n.uiC c).conv)

/-- T_c: the new state applies, conversions on bound channels and of the supply are abandoned, samples are discarded for
1 ms (R177 steps 1 to 3); rounds on bound channels end (R180). -/
def exApply (k t : Nat) (n : Node) : Node :=
  let (on, vs) := exWant n k
  let n1 := (List.range 64).foldl (fun m c => if m.boundTo k c then
      modUi c (fun u => { u with conv := false }) (roundsOf c m) else m) n
  modEx k (fun e => { e with aOn := on, aVset := vs, aReg := e.regOk, tc := none, conv := false,
                             discard := some (t + 250000) }) n1

/-- Grids of what converts on a supply, its own sensed result among them: period and next boundary after `t`. -/
def exGrids (n : Node) (k t : Nat) : List (Nat × Nat) :=
  let own := if (n.exC k).conv then [(uiPeriod 2, nextBoundary (n.exC k).grid (uiPeriod 2) t)] else []
  own ++ ((List.range 64).filter (fun c => n.boundTo k c && (n.uiC c).conv)).map (fun c =>
    (uiPeriod (n.uiC c).rate, nextBoundary (n.uiC c).grid (uiPeriod (n.uiC c).rate) t))

/-- The next boundary of the fastest of them, the earliest where several are as fast (R177 step 1). -/
def exBoundary : List (Nat × Nat) → Option (Nat × Nat)
  | [] => none
  | x :: l => match exBoundary l with
    | none => some x
    | some y => if x.1 < y.1 || (x.1 == y.1 && x.2 < y.2) then some x else some y

/-- A change is requested at `t`: it waits for T_c, which is the end of the 1 ms that runs, or the boundary, or now where
nothing converts; a request before T_c joins the one that waits (R177, R179). -/
def exRequest (k t : Nat) (n : Node) : Node :=
  match (n.exC k).discard with
  | some d => modEx k (fun e => { e with tc := some d }) n
  | none =>
    match exBoundary (exGrids n k t) with
    | some g => if (n.exC k).tc.isSome then n else modEx k (fun e => { e with tc := some g.2 }) n
    | none => exApply k t n

/-- The wanted state or REG_OK may have changed (R177): a request where it has, or where the boundary waited for no longer
comes. -/
def exUpdate (k t : Nat) (n : Node) : Node :=
  let (on, vs) := exWant n k
  let e := n.exC k
  if on == e.aOn && vs == e.aVset && e.regOk == e.aReg && e.tc.isNone then n else exRequest k t n

/-- Every supply follows a change of device state or role. -/
def exRefresh (t : Nat) (n : Node) : Node := (List.range 16).foldl (fun m k => exUpdate k t m) n

/-- EXC_CHANGE_APPLY: the boundary T_c of a pending change has come. -/
def exChangeApply (k t : Nat) (n : Node) : Node :=
  match (n.exC k).discard, (n.exC k).tc with
  | none, some x => if x ≤ t then exApply k x n else n
  | _, _ => n

/-- EXC_SETTLE_END: the 1 ms ends; a change requested meanwhile is a new T_c, otherwise the restart flags set and, while
acquisition works, filters and grids restart (R177 step 4, R179). -/
def exSettleEnd (k t : Nat) (n : Node) : Node :=
  match (n.exC k).discard with
  | none => n
  | some d =>
    if t < d then n
    else if (n.exC k).tc.isSome then exApply k d (modEx k (fun e => { e with discard := none }) n)
    else
      let n1 := modEx k (fun e => { e with discard := none, restart := true, conv := n.acq && n.chOn 2 k,
                                           grid := d, lastAt := d, settle := d + uiSettle 2 true }) n
      let n2 := (List.range 64).foldl (fun m c =>
        if m.boundTo k c then modUi c (fun u => { u with excRestart := true }) m else m) n1
      if n.acq then
        (List.range 64).foldl (fun m c =>
          if m.boundTo k c && !(m.uiC c).failed && !m.miswired c then
            modUi c (fun u => uiRestart d (match u.pend with
              | some (rate, line) => { u with rate := rate, line := line, pend := none, filtRestart := true }
              | none => u)) m
          else m) n2
      else n2

/-- The supply is held by its safe state (R89, R93) or by the duplex role (R450). A supply without an enabled record has no
safe state. -/
def exHeld (n : Node) (k : Nat) : Bool := !n.carries || (n.dev.st == .ready && recOn (n.recOf 2 k))

/-- Write of EX_CTRL (R187): in READY, RUN and DEGRADED, while nothing holds the supply. -/
def exCtrlWrite (k : Nat) (v : Word) (n : Node) : Node :=
  if (n.dev.st == .ready || n.running) && !exHeld n k && fld v 5 4 != 3 then
    exUpdate k n.now (modEx k (fun e => { e with on := bitOf v 0, vset := fld v 5 4 }) n)
  else modEx k (fun e => { e with refused := true }) n

/-- EX_REG_OK_CHANGE: regulation is lost or regained outside the 1 ms of R177 step 3 (R181). -/
def exRegOkChange (k : Nat) (ok : Bool) (t : Nat) (n : Node) : Node :=
  if (n.exC k).discard.isSome then n
  else exUpdate k t (modEx k (fun e => { e with regOk := ok }) n)

/-- EX_LIMIT_ONSET: the 60 mA limit begins or ceases to act (R181). -/
def exLimit (k : Nat) (holds : Bool) (n : Node) : Node :=
  let e := n.exC k
  if holds && !e.limitNow then raise 35 (setEx k { e with limit := true, limitNow := true } n)
  else setEx k { e with limitNow := holds } n

/-- EX_SENSE_ERR_ONSET: output and sense voltages begin or cease to differ by more than 1 V (R181). -/
def exSenseErr (k : Nat) (holds : Bool) (n : Node) : Node :=
  let e := n.exC k
  if holds && !e.senseNow then raise 35 (setEx k { e with senseErr := true, senseNow := true } n)
  else setEx k { e with senseNow := holds } n

/-- EX_CONVERSION_COMPLETE: the supply's sensed voltage in nV (R175, R177, R178). -/
def exConvert (k : Nat) (nv : Int) (t : Nat) (n : Node) : Node :=
  let e := n.exC k
  let r := n.recOf 2 k
  let addr := 0x3400 + k * 0x20
  if n.acq && n.isRun 3 && n.roleOn 1 (k / 8) && recOn r && e.conv && atBoundary e.grid e.lastAt (uiPeriod 2) t
      && !e.tc.any (fun x => decide (x < t)) then
    let n := setEx k { e with lastAt := t } n
    if t < e.settle then
      if e.published then complete (208 + k) 0 [{ addr := addr, value := e.last, q := mkQ false true false false false false }] t n else n
    else
      let en := mkEntry addr (divRound nv (10 ^ (recScale r + 9).toNat)) true false false false false
      complete (208 + k) 0 [en] t (setEx k { e with lastAt := t, published := true, last := en.value } n)
  else n

/-- Sensed results of the supplies start with the filters at READY (R163). -/
def exStart (t : Nat) (n : Node) : Node :=
  (List.range 16).foldl (fun m k => if m.chOn 2 k then
    modEx k (fun e => { e with conv := true, published := false, grid := t, lastAt := t, settle := t + uiSettle 2 true }) m else m) n

/-- EX_CTRL from the route map (R189). -/
def exImage (n : Node) : Node :=
  (List.range 16).foldl (fun m k =>
    modEx k (fun e => { e with on := recOn (m.recOf 2 k), vset := u8 (m.recOf 2 k) 8, conv := false, published := false,
                               tc := none, discard := none }) m) n

/-! ### Registers (R185, R186) -/

def uiCfgWord (r : Bytes) : Word :=
  if r.isEmpty then 0#32
  else wd (uiEx r * 65536 + (uiWire r % 16) * 4096 + (uiRange r % 16) * 256 + uiMode r % 16)

def uiFiltWord (u : UiChan) : Word :=
  let (rate, line) := u.pend.getD (u.rate, u.line)
  wd (b2n line * 256 + rate)

def uiStatusWord (n : Node) (c : Nat) : Word :=
  let u := n.uiC c
  let r := n.recOf 1 c
  wd (u.src * 2 ^ 14 + b2n u.failed * 2 ^ 13 + b2n u.cfgRefused * 256 + b2n u.filtRestart * 128 + b2n u.excRestart * 64
    + b2n (recOn r && excBad n r) * 32 + b2n u.cjBad * 16 + b2n u.force * 8
    + b2n (u.conv && decide (n.now < u.settle)) * 4)

/-- Registers of a UI channel block at an offset; `none` where no register lies (R185). -/
def uiRead (n : Node) (c off : Nat) : Option Word :=
  let r := n.recOf 1 c
  let u := n.uiC c
  match off with
  | 0x08 => some (uiCfgWord r)
  | 0x0C => some (wd (uiCj r * 65536 + uiCurve r))
  | 0x10 => some (uiFiltWord u)
  | 0x14 => some (uiStatusWord n c)
  | 0x18 => some (wi u.raw)
  | 0x1C => some u.gain
  | 0x20 => some u.offs
  | 0x24 => some u.cnt
  | 0x28 => some u.forceVal
  | 0x2C => some (wd (b2n u.force))
  | 0x30 => some (w32 r 16)
  | 0x34 => some (w32 r 20)
  | 0x38 => some (w32 r 24)
  | 0x3C => some (w32 r 28)
  | _ => none

/-- UI_STATUS is write-1-to-clear in bits 8:6. -/
def uiStatusClear (c : Nat) (v : Word) (n : Node) : Node :=
  modUi c (fun u => { u with cfgRefused := u.cfgRefused && !bitOf v 8, filtRestart := u.filtRestart && !bitOf v 7,
                             excRestart := u.excRestart && !bitOf v 6 }) n

/-- Writes of a UI channel block. -/
def uiWrite (c off : Nat) (v : Word) (n : Node) : Node :=
  match off with
  | 0x10 => uiFiltWrite c v n
  | 0x14 => uiStatusClear c v n
  | 0x28 => uiForceVal c v n
  | 0x2C => uiForceCtrl c v n
  | _ => n

def exStatusWord (e : ExChan) : Word :=
  wd (b2n e.refused * 32 + b2n e.restart * 16 + b2n (e.senseErr || e.senseNow) * 8 + b2n (e.limit || e.limitNow) * 4
    + b2n e.regOk * 2 + b2n e.aOn)

def exBoundWord (n : Node) (k base : Nat) : Word :=
  wd ((List.range 32).foldl (fun a i => a + (if n.boundTo k (base + i) then 2 ^ i else 0)) 0)

def exRead (n : Node) (k off : Nat) : Option Word :=
  let e := n.exC k
  match off with
  | 0x08 => some (wd (e.vset * 16 + b2n e.on))
  | 0x0C => some (exStatusWord e)
  | 0x10 => some e.current
  | 0x14 => some (exBoundWord n k 0)
  | 0x18 => some (exBoundWord n k 32)
  | _ => none

/-- EX_STATUS is write-1-to-clear in bits 5:2; a condition that still holds sets its bit again (R181). -/
def exStatusClear (k : Nat) (v : Word) (n : Node) : Node :=
  modEx k (fun e => { e with refused := e.refused && !bitOf v 5, restart := e.restart && !bitOf v 4,
                             senseErr := (e.senseErr && !bitOf v 3) || e.senseNow,
                             limit := (e.limit && !bitOf v 2) || e.limitNow }) n

def exWrite (k off : Nat) (v : Word) (n : Node) : Node :=
  match off with
  | 0x08 => exCtrlWrite k v n
  | 0x0C => exStatusClear k v n
  | _ => n

end Sys2Proof.Machine
end

