-- ==== Sys2Proof/Machine/LiveCal.lean ====
section
/-! DEFINITION. Bypass rounds, detours and failures of converters, pair watch and triads (spec/07 R190 to R215). -/

namespace Sys2Proof.Machine
open Sys2Proof

/-! ### The pool (R190, R191) -/

/-- A BC is in the pool while it is neither bound nor failed; one that pre-rolls for a failed converter is bound to it. -/
def Node.inPool (n : Node) (b : Nat) : Bool := (n.bcOf b).step != 6 && (n.bcOf b).step != 7

/-- The BC that serves home set g: the first pool BC in the order g, g+1, … (R191). -/
def Node.server (n : Node) (g : Nat) : Option Nat :=
  ((List.range 4).map (fun i => (g + i) % 4)).find? (fun b => n.inPool b)

/-- Home sets a BC serves, as ADOPT bits (R215). -/
def Node.adopt (n : Node) (b : Nat) : Nat :=
  (List.range 4).foldl (fun a g => a + (if n.server g == some b then 2 ^ g else 0)) 0

/-- The served list: enabled channels of the served sets, ascending (R191). -/
def Node.servedList (n : Node) (b : Nat) : List Nat :=
  (List.range 64).filter (fun c => n.server (c / 16) == some b && n.chOn 1 c)

/-- ROUNDS_OFF (R192). -/
def Node.roundsOff (n : Node) : Bool := (n.blkOf bJn).block.getLsbD 0

/-- Rounds are stopped by ROUNDS_OFF or by the device state (R192, R215). -/
def Node.suspended (n : Node) : Bool := n.roundsOff || !n.acq

/-- A channel whose turn is skipped: settling or FAILED, or not converting (R192). -/
def Node.skips (n : Node) (c : Nat) : Bool :=
  let u := n.uiC c
  u.failed || !u.conv || decide (n.now < u.settle)

/-- The channel a BC takes next: the first unskipped one after the last, wrapping (R192, R193). -/
def Node.nextChan (n : Node) (b : Nat) : Option Nat :=
  let l := n.servedList b
  let l' := match (n.bcOf b).pos with
    | some p => l.filter (fun c => decide (p < c)) ++ l.filter (fun c => decide (c ≤ p))
    | none => l
  l'.find? (fun c => !n.skips c)

/-! ### Rounds (R193 to R200) -/

/-- BYPASS_ROUND_START at a boundary of the next channel (R193, R194 step 1). -/
def roundStart (b t : Nat) (n : Node) : Node :=
  let k := n.bcOf b
  let due := !k.started || decide (k.t0 + n.cal.rndPeriod * secPer ≤ t)
  if k.step == 0 && n.isRun 3 && !n.suspended && n.inPool b && due then
    match n.nextChan b with
    | none => n
    | some c =>
      let u := n.uiC c
      let p := uiPeriod u.rate
      if (t - u.grid) % p != 0 then n else
      setBc b { k with step := 2, chan := c, t0 := t, started := true, tol := n.cal.rndTol, novl := n.cal.rndNovl, per := n.cal.rndPeriod,
                       s := uiSettle u.rate u.line, p := p, sum1 := 0, cnt1 := 0, sum2 := 0, cnt2 := 0, refs := false,
                       verdict := .none, pos := some c } n
  else n

/-- |sum / cnt| ≤ f × TOL, exactly (R195, R197, R207). -/
def withinTol (sum : Int) (cnt f tol span4 : Nat) : Bool :=
  decide (sum.natAbs * 4000000 ≤ f * tol * span4 * cnt)

/-- A mean in native units as ppm of SPAN, rounded (R207, R215). -/
def ppmOfSpan (sum : Int) (cnt span4 : Nat) : Int := divRound (sum * 4000000) (cnt * span4 : Nat)

def disOf (n : Node) (c : Nat) : Nat := tget 0 n.cal.dis c
def setDis (c v : Nat) (n : Node) : Node := { n with cal.dis := tset 0 n.cal.dis c v }

/-- A round of BC b on its channel ends with an outcome: BC_LAST, RND_CNT, event 36, the BC's record, self-calibration
follows (R193, R200, R215). -/
def roundEnd (b outcome : Nat) (val : Option Int) (t : Nat) (n : Node) : Node :=
  let k := n.bcOf b
  let (v, n1) := match val with
    | some x => ((satE32 x).1, n)
    | none => let (w, m) := drawFree n; ((satE32 w.toInt).1, m)
  raise 36 (complete (64 + b) 0
    [{ addr := 0x1C80 + b * 0x10, value := v, q := mkQ true false (outcome != 0) false false false }] t
    (setBc b { k with step := 1, lastChan := k.chan, chan := 0, outcome := outcome, lastScan := n.scan.toNat % 65536,
                      period := roundPeriod k, verdict := .none, refs := false }
      { n1 with cal.rndCnt := n1.cal.rndCnt + 1#32 }))

/-- The own converter of a channel publishes again without correction. -/
def ownAgain (c : Nat) (n : Node) : Node :=
  modUi c (fun u => { u with src := (if tget 0 n.dtr.conv c = 0 then 0 else 2), rampN := 0, rampJ := 0, rampNum := 0 }) n

/-- A BC bound to the channel is given up as failed (R204). -/
def giveUp (c : Nat) (n : Node) : Node :=
  (List.range 4).foldl (fun m b =>
    if (m.bcOf b).step = 6 ∧ (m.bcOf b).chan = c then modBc b (fun k => { k with step := 7, chan := 0xFF, preroll := false }) m
    else m) n

/-- R202: the round's BC becomes bound to the channel, its alignment ramped out; the BC leaves the pool. -/
def detour (c b : Nat) (rampNum : Int) (rampDen rampN : Nat) (n : Node) : Node :=
  let n1 := recordDetour c b (giveUp c n)
  modBc b (fun k => { k with step := 6, chan := c })
    (modUi c (fun u => { u with src := 2, rampNum := rampNum, rampDen := max 1 rampDen, rampN := rampN, rampJ := 0 }) n1)

/-- A disagreement (R200): event 37, BC_LAST, the channel's count; then R203 and R202. Answers the node and what stands:
0 nothing more, 4 third disagreement, 6 BC failed. -/
def disagreement (b : Nat) (n : Node) : Node × Nat :=
  let k := n.bcOf b
  let c := k.chan
  let cnt := min 3 (disOf n c + 1)
  let dis := (c :: k.dis).take 3
  let n1 := raise 37 (setDis c cnt (setBc b { k with dis := dis } n))
  if dis.length = 3 && dis.Nodup then
    (dis.foldl (fun m d => setDis d (disOf m d - 1) m) n1, 6)
  else if cnt = 3 then (n1, 4)
  else (n1, 0)

/-- A BC is failed and leaves the pool with outcome 6 and event 22 (R203). -/
def bcFail (b : Nat) (n : Node) : Node := raise 22 (modBc b (fun k => { k with step := 7, chan := 0xFF, preroll := false }) n)

/-- BYPASS_TAKEOVER at the end of overlap 1 (R195): the BC takes over publishing at x_BC + A, or take-over is refused.
`loopR` is the loop resistance in mΩ that a TC channel's pre-roll found (R199). -/
def takeover (b loopR t : Nat) (n : Node) : Node :=
  let k := n.bcOf b
  let c := k.chan
  let r := n.recOf 1 c
  if k.step == 3 && k.cnt1 == k.novl then
    let n0 := if uiMode r = 3 then modUi c (fun u => { u with loopR := loopR }) n else n
    if withinTol k.sum1 k.novl 8 k.tol (uiSpan4 r) then
      modUi c (fun u => { u with src := 1, rampNum := k.sum1, rampDen := k.novl, rampN := 0, rampJ := 0 })
        (setBc b { k with step := 4 } n0)
    else
      let (n1, what) := disagreement b n0
      let n2 := roundEnd b (if what = 0 then 1 else what) (some (ppmOfSpan k.sum1 k.novl (uiSpan4 r))) t n1
      if what = 6 then bcFail b n2
      else if what = 4 then detour c b k.sum1 k.novl k.novl n2
      else n2
  else n

/-- Reference limits (R196). -/
def refsOk (m : RefMeas) : Bool :=
  decide (0x3EB851EC ≤ m.gain.toNat) && decide (m.gain.toNat ≤ 0x4147AE14) && m.offsIn

/-- BYPASS_REFERENCES_DONE (R194 step 3, R196): outside the limits the own converter is detoured with outcome 3. -/
def referencesDone (b : Nat) (m : RefMeas) (t : Nat) (n : Node) : Node :=
  let k := n.bcOf b
  if k.step == 4 && !k.refs then
    if refsOk m then setBc b { k with refs := true, newGain := m.gain, newOffs := m.offs } n
    else detour k.chan b k.sum1 k.novl k.novl (roundEnd b 3 none t n)
  else n

/-- BYPASS_CROSS_CHECK at the end of overlap 2 (R197). -/
def crossCheck (b t : Nat) (n : Node) : Node :=
  let k := n.bcOf b
  let c := k.chan
  let span4 := uiSpan4 (n.recOf 1 c)
  if k.step == 5 && k.cnt2 == k.novl && k.verdict == .none then
    if withinTol k.sum2 k.novl 1 k.tol span4 then
      setDis c 0 (setBc b { k with verdict := .agree, dis := [] } n)
    else
      let (n1, what) := disagreement b n
      if what = 6 then bcFail b (ownAgain c (roundEnd b 6 (some (ppmOfSpan k.sum2 k.novl span4)) t n1))
      else if what = 4 then detour c b k.sum1 k.novl k.novl (roundEnd b 4 (some (ppmOfSpan k.sum2 k.novl span4)) t n1)
      else modBc b (fun k => { k with verdict := .disagree, lastChan := c, outcome := 2, lastScan := n1.scan.toNat % 65536 }) n1
  else n

/-- BYPASS_HANDBACK (R194 step 5, R197): the own converter publishes again, with the correction ramped in after a pass and
the old calibration after a failure. -/
def handback (b t : Nat) (n : Node) : Node :=
  let k := n.bcOf b
  let c := k.chan
  let span4 := uiSpan4 (n.recOf 1 c)
  let val := some (ppmOfSpan k.sum2 k.novl span4)
  if k.step != 5 then n
  else match k.verdict with
    | .none => n
    | .agree =>
      roundEnd b 0 val t (modUi c (fun u =>
        { u with src := (if tget 0 n.dtr.conv c = 0 then 0 else 2), gain := k.newGain, offs := k.newOffs,
                 rampNum := k.sum1 - k.sum2, rampDen := k.novl, rampN := k.novl, rampJ := 0 }) n)
    | .disagree => roundEnd b 2 val t (ownAgain c n)

/-! ### Failures outside rounds (R204, R205) -/

/-- The channel has no converter left: FAILED, SRC = 3 (R205, R84). -/
def uiFail (c : Nat) (n : Node) : Node :=
  let n1 := modUi c (fun u => { uiHalt u with failed := true, src := 3 }) n
  { n1 with dev.chanFail := if n1.dev.chanFail.contains (256 + c) then n1.dev.chanFail else n1.dev.chanFail ++ [256 + c] }

/-- A failed converter is taken by the first pool BC in home order; until that BC has pre-rolled the channel settles, then
the BC publishes with A = 0 and the detour stands (R204, `prerollDone`); before READY it stands at once (R205). -/
def takeFailed (c : Nat) (immediate : Bool) (t : Nat) (n : Node) : Node :=
  let n0 := giveUp c n
  match n0.server (c / 16) with
  | none => uiFail c n0
  | some b =>
    let k := n0.bcOf b
    let n1 := roundAbandon b n0
    let n1 := if 2 ≤ k.step ∧ k.step ≤ 5 then modUi k.chan (fun u => uiRestart t { u with filtRestart := true }) n1 else n1
    if immediate then detour c b 0 1 0 n1
    else modUi c (fun u => { u with settle := max u.settle (t + uiSettle u.rate u.line), prevX := none, susp := 0,
                                    rampN := 0, rampJ := 0, rampNum := 0 })
      (modBc b (fun k => { k with step := 6, chan := c, preroll := true }) n1)

/-- BC_SELF_CAL_COMPLETE (R193): a BC outside the reference limits is failed; one that is bound is replaced (R204). -/
def bcSelfCal (b : Nat) (m : RefMeas) (t : Nat) (n : Node) : Node :=
  let k := n.bcOf b
  if k.step == 1 || k.step == 6 then
    if refsOk m then setBc b { k with step := (if k.step = 1 then 0 else 6), gain := m.gain, offs := m.offs } n
    else if k.step = 6 then takeFailed k.chan false t (bcFail b (roundsOf k.chan n))
    else bcFail b n
  else n

/-- CONVERTER_FAULT: the converter that publishes for a channel outside rounds is found failed (R204). -/
def converterFault (c t : Nat) (n : Node) : Node :=
  let u := n.uiC c
  if n.isRun 3 && n.chOn 1 c && !u.failed then takeFailed c false t (roundsOf c n) else n

/-! ### Initial calibration (R89, R205) -/

/-- Initial calibration loads gain and offset of every modulator; a UI converter out of limits is detoured before READY
with no ramp, a BC out of limits leaves the pool (R89, R193, R205). -/
def initialCal (m : CalMeas) (t : Nat) (n : Node) : Node :=
  let n1 := (List.range 4).foldl (fun x b =>
    match m.bc[b]? with
    | some r =>
      let k := x.bcOf b
      if refsOk r then modBc b (fun k => { k with gain := r.gain, offs := r.offs }) x
      else if k.step = 6 then takeFailed k.chan true t (bcFail b x)
      else if k.step = 7 then x else bcFail b x
    | none => x) n
  m.ui.foldl (fun x (c, r) =>
    if c < 64 && x.chOn 1 c && (x.uiC c).src == 0 then
      if refsOk r then modUi c (fun u => { u with gain := r.gain, offs := r.offs }) x
      else takeFailed c true t x
    else x) n1

/-- Detours recorded in MRAM stand again after a reset (R84, R100, R465): bound BCs and publishers; a channel that has failed
and a BC that has failed stay as they are (R205). -/
def restoreDetours (n : Node) : Node :=
  n.dtr.conv.foldl (fun x (c, b1) =>
    if (x.uiC c).failed || (x.bcOf (b1 - 1)).step == 7 then x else
    modUi c (fun u => { u with src := 2 }) (modBc (b1 - 1) (fun k => { k with step := 6, chan := c }) x)) n

/-! ### Pair watch (R211) -/

/-- SUSPECT of pair watch on the result at an address. -/
def pairSuspect (n : Node) (addr : Nat) : Bool :=
  (List.range 64).any (fun k =>
    (tget ({} : Pair) n.cal.pairs k).suspect &&
      match n.keyed 0x06 2 k with
      | some r => u16 r 2 == addr || u16 r 4 == addr
      | none => false)

/-- Set or clear SUSPECT on a stored result, without FRESH or a change of sequence. -/
def markSuspect (addr : Nat) (on : Bool) (n : Node) : Node :=
  let r := n.res addr
  if r.has then
    { n with jn.store := tset {} n.jn.store addr { r with q := if on then r.q ||| qSUSPECT else r.q &&& ~~~ qSUSPECT } }
  else n

/-- The timer of a pair has run out at `t`: the pair becomes suspect with event 38, or clears. -/
def pairTimer (k t : Nat) (n : Node) : Node :=
  match n.keyed 0x06 2 k with
  | none => n
  | some r =>
    let p : Pair := tget {} n.cal.pairs k
    match p.since with
    | none => n
    | some s =>
      if decide (t < s + u16 r 6 * 2500000) || p.suspect == p.beyond then n
      else
        let n1 : Node := { n with cal.pairs := tset {} n.cal.pairs k { p with suspect := p.beyond, since := none } }
        let a := u16 r 2
        let b := u16 r 4
        if p.beyond then raise 38 (markSuspect b true (markSuspect a true n1))
        else markSuspect b (pairSuspect n1 b || (n1.res b).susp) (markSuspect a (pairSuspect n1 a || (n1.res a).susp) n1)

/-- A pair is evaluated at a record of either member: its condition is timed while both results are VALID. -/
def pairEval (k t : Nat) (r : Bytes) (n : Node) : Node :=
  let a := n.res (u16 r 2)
  let b := n.res (u16 r 4)
  let p : Pair := tget {} n.cal.pairs k
  if !(qHas (resQ a) qVALID && qHas (resQ b) qVALID) then
    { n with cal.pairs := tset {} n.cal.pairs k { p with since := none } }
  else
    let beyond := decide ((u32 r 8 : Int) < |a.value.toInt - b.value.toInt|)
    let p1 : Pair := if beyond == p.suspect then { p with since := none, beyond := beyond }
      else if p.beyond == beyond && p.since.isSome then p
      else { p with since := some t, beyond := beyond }
    pairTimer k t { n with cal.pairs := tset {} n.cal.pairs k p1 }

/-- Every pair that a result belongs to is evaluated at its record. -/
def pairsOf (addr t : Nat) (n : Node) : Node :=
  (n.recs 0x06 2).foldl (fun m r => if u16 r 2 == addr || u16 r 4 == addr then pairEval (u16 r 0) t r m else m) n

/-! ### Triads (R212) -/

/-- Median of a list of up to three values, the lower of two. -/
def median3 (l : List Int) : Int := (l.insertionSort (fun a b => a ≤ b)).getD (l.length / 2) 0

/-- The vote of a triad: published value where there is one, new state, members used as C, B, A bits. -/
def triadVote (vals : List (Nat × Int)) (band : Nat) : Option Int × Nat × Nat :=
  let bits (l : List (Nat × Int)) : Nat := l.foldl (fun a (i, _) => a + 2 ^ i) 0
  match vals with
  | [a, b, c] =>
    let m := median3 [a.2, b.2, c.2]
    let good := vals.filter (fun x => decide (|x.2 - m| ≤ (band : Int)))
    if good.length = 3 then (some m, 0, bits vals)
    else if good.length = 2 then
      (some (divRound ((good.map (·.2)).foldl (· + ·) 0) 2), 1, bits good)
    else (none, 2, 0)
  | [a, b] =>
    if |a.2 - b.2| ≤ (band : Int) then (some (divRound (a.2 + b.2) 2), 1, bits vals) else (none, 2, 0)
  | _ => (none, 2, 0)

/-- TRIAD_VOTE at scan tick DEVTIME `t` (R212). -/
def triadDo (k t : Nat) (n : Node) : Node :=
  match n.keyed 0x06 3 k with
  | none => n
  | some r =>
    let old : Triad := tget {} n.cal.triads k
    if !n.acq || old.voteAt == some (n.now / scanPer) || n.scan.toNat % u16 r 12 != 0 then n else
    let mem := [(0, u16 r 2), (1, u16 r 4), (2, u16 r 6)]
    let live := mem.filter (fun (_, a) => qHas (resQ (n.res a)) qVALID)
    let (v, st, used) := triadVote (live.map (fun (i, a) => (i, (n.res a).value.toInt))) (u32 r 8)
    let susp := mem.any (fun (i, a) => (used / 2 ^ i) % 2 == 1 && qHas (resQ (n.res a)) qSUSPECT)
    let addr := 0x1D00 + k * 0x10
    let w := match v with
      | some x => (satE32 x).1
      | none => old.last
    let x : Triad := { state := st, used := used, last := w, voted := old.voted || v.isSome, voteAt := some (n.now / scanPer) }
    let n1 : Node := { n with cal.triads := tset {} n.cal.triads k x }
    let n2 := raiseIf ((old.state == 0 && st != 0) || (old.state == 1 && st == 2)) 39 n1
    if v.isSome || old.voted then
      complete (158 + k) 0 [{ addr := addr, value := w, q := mkQ v.isSome false false susp false false }] t n2
    else n2

/-- Triads whose PERIOD divides SCAN_CNT vote at a scan tick. -/
def triadTick (t : Nat) (n : Node) : Node :=
  (n.recs 0x06 3).foldl (fun m r =>
    let per := u16 r 12
    if 0 < per && n.scan.toNat % per == 0 then triadDo (u16 r 0) t m else m) n

/-! ### Registers (R215) -/

def bcStatusWord (n : Node) (b : Nat) : Word :=
  let k := n.bcOf b
  let ch := if (2 ≤ k.step && k.step ≤ 6) then k.chan else 0xFF
  if n.showsReset then 0#32 else wd (ch * 2 ^ 24 + k.step * 2 ^ 20 + n.adopt b * 2 ^ 16 + b2n n.suspended)

def bcLastWord (k : Bc) : Word := wd (k.lastChan * 2 ^ 24 + k.outcome * 65536 + k.lastScan)

def rndParamWord (n : Node) : Word := wd (n.cal.rndTol * 65536 + n.cal.rndNovl * 256 + n.cal.rndPeriod)

/-- A RND_PARAM write with a field outside its range changes nothing (R215). -/
def rndParamWrite (v : Word) (n : Node) : Node :=
  let tol := fld v 31 16
  let novl := fld v 11 8
  let per := fld v 7 0
  if 1 ≤ tol && tol ≤ 10000 && 2 ≤ novl && 1 ≤ per then
    { n with cal.rndTol := tol, cal.rndNovl := novl, cal.rndPeriod := per } else n

def rndDisWord (n : Node) (m : Nat) : Word :=
  wd ((List.range 16).foldl (fun a j => a + disOf n (16 * m + j) * 4 ^ j) 0)

def pwSuspWord (n : Node) (m : Nat) : Word :=
  wd ((List.range 32).foldl (fun a j => a + b2n (tget ({} : Pair) n.cal.pairs (32 * m + j)).suspect * 2 ^ j) 0)

def triStatusWord (n : Node) (k : Nat) : Word :=
  let x : Triad := tget {} n.cal.triads k
  wd (x.state * 16 + x.used)

def plausWord (n : Node) (m : Nat) : Word :=
  wd ((List.range 4).foldl (fun a j => a + n.plaus (4 * m + j) * 256 ^ j) 0)

/-- Calibration and pair state start anew when an image is applied; the disagreement counts and converter state stand
until a reset (R200, R214). -/
def calApply (n : Node) : Node := { n with cal.pairs := [], cal.triads := [] }

end Sys2Proof.Machine
end

