-- ==== Sys2Proof/Machine/ChargeAmp.lean ====
section
/-! DEFINITION. Charge channels and crank-angle capture (spec/08 R216 to R245). -/

namespace Sys2Proof.Machine
open Sys2Proof

def Node.caC (n : Node) (c : Nat) : CaChan := tget {} n.ca c
def setCa (c : Nat) (u : CaChan) (n : Node) : Node := { n with ca := tset {} n.ca c u }
def modCa (c : Nat) (f : CaChan → CaChan) (n : Node) : Node := setCa c (f (n.caC c)) n

/-! ### Record fields (R245) -/

def caMode (r : Bytes) : Nat := u8 r 8
def caAuto (r : Bytes) : Bool := (r.getD 10 0#8).getLsbD 0
def ca720 (r : Bytes) : Bool := (r.getD 10 0#8).getLsbD 1
def caDir (r : Bytes) : Bool := (r.getD 10 0#8).getLsbD 2
def caPf (r : Bytes) : Nat := u8 r 12
def caStep (r : Bytes) : Nat := u8 r 13
def caRst (r : Bytes) : Nat := u16 r 18
def caTdc (r : Bytes) : Nat := u32 r 20
def caSens (r : Bytes) : Int := i32 r 24
def caRstTime (r : Bytes) : Nat := u8 r 28
def caTmo (r : Bytes) : Nat := u8 r 29
def caBlock (r : Bytes) : Nat := u16 r 30

/-- Full scale in fC (R218). -/
def caFs (range : Nat) : Nat := 2000000 * 4 ^ range

/-- Samples of a cycle or block (R221, R222). -/
def caLen (r : Bytes) : Nat :=
  if caMode r = 2 then (if ca720 r then 7200 else 3600) / max 1 (caStep r) else caBlock r

/-- The channel works: enabled, I4 in RUN, acquisition on, this module carries the plant, not miswired (R85, R216, R217,
R256). -/
def Node.caOn (n : Node) (c : Nat) : Bool := n.acq && n.isRun 4 && n.chOn 4 c && n.carries && !n.miswired (80 + c)

/-! ### Pegging and scaling (R228, R235) -/

/-- x × 10^e, rounded where e is negative. -/
def mulPow10 (x : Int) (e : Int) : Int :=
  if 0 ≤ e then x * 10 ^ e.toNat else divRound x (10 ^ (-e).toNat)

/-- Rounded division by a divisor of either sign. -/
def divRoundS (x d : Int) : Int := if d < 0 then divRound (-x) (-d) else divRound x d

/-- SCALE and UNIT of the result of a pegging source. -/
def pegMeta (n : Node) (addr : Nat) : Int × Nat :=
  match n.ld.img with
  | some g => (g.resMeta addr).getD (0, 0)
  | none => (0, 0)

/-- P_peg in units of 10^(SCALE − 3) of the channel's UNIT, with 1 bar = 100,000 Pa (R228, R235). -/
def caPegOf (n : Node) (r : Bytes) : Int :=
  let addr := u16 r 16
  let (sc, un) := pegMeta n addr
  let e : Int := if un = 7 && recUnit r = 6 then 5 else if un = 6 && recUnit r = 7 then -5 else 0
  mulPow10 (valueWord (n.res addr)).toInt (sc + e - (recScale r - 3))

/-- A charge difference in fC as a quantity in units of 10^(SCALE − 3) (R228, R229, R235). -/
def caUnits (r : Bytes) (dq : Int) : Int := divRoundS (dq * 1000 * 10 ^ (3 - recScale r).toNat) (caSens r)

/-! ### Range switching (R239 to R241) -/

/-- Samples b + 1 to b + 5, of which the trigger numbered k would be the first, include an RST sample (R240). -/
def caMeetsReset (r : Bytes) (u : CaChan) (k len : Nat) : Bool :=
  decide (len ≤ k + 4) &&
    (caMode r == 2 || (decide (0 < caRst r) && u.blocks % caRst r == 0))

/-- Range for the cycle after `y` under automatic ranging (R241). -/
def caAutoRange (range : Nat) (y : CaCyc) : Nat :=
  let peak := y.samples.foldl (fun a s => max a (s.q - s.q0).natAbs) 0
  if y.samples.any (·.sat) || decide (9 * caFs range < 10 * peak) then min 3 (range + 1)
  else if decide (5 * peak < caFs range) then range - 1 else range

/-- The range command meets a trigger: the switch, its deferral, or nothing (R239, R240). Answers the channel, the number
of the settling sample that this trigger takes (that of the held trigger which it replaces, R220), and whether event 49 is
raised at the switch. -/
def caSwitch (r : Bytes) (u : CaChan) (k len : Nat) (closed : Bool) : CaChan × Nat × Bool :=
  let lost := match u.conv, u.held with
    | some _, some h => if h.j ≤ 5 then h.j else 0
    | _, _ => 0
  if 1 ≤ lost then (u, lost, false)
  else if 1 ≤ u.settle && u.settle ≤ 5 then
    ({ u with settle := u.settle + 1 }, u.settle, false)
  else match u.req with
    | none => (u, 0, false)
    | some q =>
      if closed then ({ u with range := q, req := none, deferred := false }, 0, true)
      else if u.deferred then (u, 0, false)
      else if caMeetsReset r u k len then ({ u with deferred := true }, 0, false)
      else ({ u with range := q, req := none, settle := 2, qb := if u.conv.isSome then u.qb else u.lastQ }, 1, false)

/-- A reset closure ends a settling window before sample b + 5: its samples are not interpolated (R240); `true` where it does.
DESIGN CHOICE (notes/assumptions/25.md): the table of R240 has no such case of a compare action. -/
def caCut (u : CaChan) : CaChan × Bool :=
  let clear (y : Option CaCyc) : Option CaCyc := y.map (fun y => { y with samples := y.samples.map (fun s => { s with j := 0 }) })
  if u.settle = 0 then (u, false)
  else if (match u.conv with | some v => v.j == 5 | none => false) then
    ({ u with settle := 6, held := u.held.map (fun v => { v with j := 0 }) }, false)
  else
    ({ u with settle := 0, conv := u.conv.map (fun v => { v with j := if v.j = 0 then 0 else v.j + 10 }),
              held := u.held.map (fun v => { v with j := 0 }), cur := clear u.cur, prev := clear u.prev, unsettled := [] }, true)

/-! ### Triggers and conversions (R220 to R229) -/

/-- The reset sample is checked once the switch is open and no sample of its closure is converting (R227). -/
def caCheckReset (c : Nat) (n : Node) : Node :=
  let u := n.caC c
  let flying := match u.conv with
    | some v => v.rst
    | none => false
  if u.rstPend && !u.closed && !flying then
    let bad := decide (caFs u.range < 200 * u.q0.natAbs)
    let mark (y : Option CaCyc) : Option CaCyc := y.map (fun y => { y with rstFault := y.rstFault || bad })
    raiseIf bad 51 (setCa c { u with rstPend := false, rstFault := u.rstFault || bad, cur := mark u.cur } n)
  else n

/-- A new cycle or block starts at its sample 0 (R223, R226, R228, R230, R231, R241). -/
def caBegin (c t : Nat) (n : Node) : Node :=
  let r := n.recOf 4 c
  let u := n.caC c
  let closes := caMode r == 2 || (decide (0 < caRst r) && u.blocks % caRst r == 0)
  let peg := caPegOf n r
  let crank := caMode r == 2
  let bad := crank && !qHas (resQ (n.res (u16 r 16))) qVALID
  let free := if u.latest = 1 then 2 else 1
  let target := match u.cur with
    | some y => if y.store && y.record then 3 - y.buf else free
    | none => free
  let busy := u.holds.any (fun h => h.2.1 == target)
  let rng := if caAuto r && closes then
      (match u.cur with
        | some y => caAutoRange u.range y
        | none => u.nextRange.getD u.range)
    else u.range
  let cyc : CaCyc := { t0 := t, len := caLen r, range0 := rng, range1 := rng, buf := target, peg := if crank then peg else 0, pegBad := bad,
                       store := !busy, record := u.connected }
  let (u0, cut) := if closes then caCut u else (u, false)
  let u1 : CaChan := { u0 with
                              prev := u0.cur, cur := some cyc, conv := u0.conv.map (fun v => { v with prev := true }),
                              range := rng, nextRange := none, blocks := u.blocks + 1, connected := u.connected || closes,
                              closed := u.closed || closes, closedAt := if closes then t else u.closedAt,
                              rstPend := u.rstPend || closes, skip := if busy then satInc 255 u.skip else u.skip,
                              peg := if crank then (satE32 (divRound peg 1000)).1 else u.peg,
                              pegBad := u.pegBad || bad }
  raiseIf (cut || rng != u.range) 49 (raiseIf bad 52 (setCa c u1 n))

/-- The first conversion of a started trigger. -/
def caPlace (v : CaConv) (u : CaChan) : CaChan :=
  match u.conv with
  | none => { u with conv := some v }
  | some _ => { u with held := some { v with late := true } }

/-- CA_SAMPLE_TRIGGER at DEVTIME `t` (R220 to R223, R226, R239). -/
def caTrigger (c t : Nat) (n : Node) : Node :=
  let r := n.recOf 4 c
  let u := n.caC c
  let timed := caMode r == 1 && decide (0 < caStep r)
  let ok := n.caOn c && (if timed then decide (u.nextAt ≤ t) else decide (0 < u.due))
  if !ok then n
  else
    let fresh := match u.cur with
      | some y => decide (y.len ≤ y.trig)
      | none => true
    let n1 := modCa c (fun u => { u with due := u.due - 1, nextAt := if timed then t + caStep r * 1000 else u.nextAt })
      (if fresh then caBegin c t n else n)
    let u := n1.caC c
    match u.cur with
    | none => n1
    | some y =>
      let (u1, j, ev) := caSwitch r u y.trig y.len u.closed
      let v : CaConv := { k := y.trig, rst := u1.closed, late := false, j := j }
      raiseIf ev 49 (setCa c (caPlace v { u1 with cur := some { y with trig := y.trig + 1, range1 := u1.range } }) n1)

/-- Interpolated charge of settling sample b + j (R239). -/
def caSettled (qb q5 : Int) (j : Nat) : Int := qb + divRound ((q5 - qb) * (j : Int)) 5

/-- The settling samples take their interpolated charges once sample b + 5 is there (R239). -/
def caInterp (qb q5 : Int) (y : CaCyc) : CaCyc :=
  { y with samples := y.samples.map (fun s => if 1 ≤ s.j && s.j ≤ 4 then { s with q := caSettled qb q5 s.j, j := 0 } else s) }

/-- The charge of a sample word takes its place. -/
def caWordQ (w : Word) (q : Int) : Word := (w &&& 0xF0000000#32) ||| wd (q % 2 ^ 28).toNat

/-- The same in the buffers, where a record was delivered before sample b + 5. -/
def caPatch (qb q5 : Int) (u : CaChan) : CaChan :=
  let fix (b : Nat) (buf : List Word) : List Word :=
    u.unsettled.foldl (fun l (x, i, j) => if x = b then l.set i (caWordQ (l.getD i 0#32) (caSettled qb q5 j)) else l) buf
  { u with bufA := fix 1 u.bufA, bufB := fix 2 u.bufB, unsettled := [] }

/-- CA_CONVERSION_END without the interlock comparators: the running conversion ends with charge `q` in fC; a held trigger
starts at once and is LATE (R220). -/
def caConvEnd (c : Nat) (q : Int) (n : Node) : Node :=
  let u := n.caC c
  match u.conv with
  | none => n
  | some v =>
    if !n.caOn c then n else
    let fs : Int := caFs u.range
    let qc := clampI (-fs) fs q
    let sat := decide (fs ≤ |q|)
    let q0 := if v.rst then qc else u.q0
    let s : CaSample := { k := v.k, q := qc, q0 := q0, rst := v.rst, interp := inR 1 4 (v.j % 10), sat := sat,
                          late := v.late, j := if v.j ≤ 4 then v.j else 0 }
    let into (y : Option CaCyc) (me : Bool) : Option CaCyc :=
      y.map (fun y =>
        let y1 := if me then { y with samples := s :: y.samples } else y
        if v.j = 5 then caInterp u.qb qc y1 else y1)
    let firstSat := sat && !(match (if v.prev then u.prev else u.cur) with
      | some y => y.samples.any (·.sat)
      | none => false)
    let u1 : CaChan := { u with conv := u.held.map (fun h => { h with rst := u.closed }), held := none, q0 := q0, lastQ := qc,
                                qb := (match u.held with | some h => if h.j = 1 then qc else u.qb | none => u.qb),
                                settle := if v.j = 5 ∧ u.settle = 6 then 0 else u.settle,
                                cur := into u.cur (!v.prev), prev := into u.prev v.prev, sat := u.sat || sat,
                                late := u.late || u.held.isSome }
    let u2 := if v.j = 5 then caPatch u.qb qc u1 else u1
    caCheckReset c (raiseIf (v.j == 5) 49 (raiseIf firstSat 50 (setCa c u2 n)))

/-- CA_RESET_OPEN: RST_TIME after closure the switch opens (R226, R227). -/
def caResetOpen (c t : Nat) (n : Node) : Node :=
  let u := n.caC c
  if u.closed && decide (u.closedAt + caRstTime (n.recOf 4 c) * usPer ≤ t) then
    caCheckReset c (setCa c { u with closed := false } n)
  else n

/-- A cycle in progress is abandoned: no record, ABANDON counts, the next cycle waits for an index (R223, R224). -/
def caAbandon (c : Nat) (n : Node) : Node :=
  let u := n.caC c
  match u.cur with
  | some y =>
    if caMode (n.recOf 4 c) == 2 && decide (y.trig < y.len) then
      setCa c { u with cur := none, conv := none, held := none, settle := 0, seenIdx := false, due := 0, unsettled := [],
                       nextRange := none, abandon := satInc 255 u.abandon } n
    else n
  | none => n

/-- A crank-angle cycle has run past CYC_TMO (R224). -/
def caTimedOut (n : Node) (c t : Nat) : Bool :=
  match (n.caC c).cur with
  | some y => decide (y.t0 + caTmo (n.recOf 4 c) * 25000000 ≤ t)
  | none => false

/-! ### Compare actions on a charge channel (R221, R225, R226) -/

inductive CaAct where
  | sample | cycleStart | reset
  deriving DecidableEq, Repr

/-- A compare action aimed at a charge channel: honoured in time mode, ignored with CMP_IGN in crank-angle mode. -/
def caAction (c : Nat) (a : CaAct) (t : Nat) (n : Node) : Node :=
  let r := n.recOf 4 c
  let u := n.caC c
  if !n.caOn c then n
  else if caMode r = 2 then setCa c { u with cmpIgn := true } n
  else match a with
    | .sample => if caStep r = 0 then setCa c { u with due := u.due + 1 } n else n
    | .cycleStart =>
      match u.cur with
      | some y =>
        let j := (u.conv.or u.held).elim 0 (fun v => if v.j ≤ 5 then v.j else 0)
        if y.trig < 16 then
          setCa c { u with cur := none, conv := none, held := none, settle := if j = 0 then u.settle else j } n
        else setCa c { u with cur := some { y with len := y.trig } } n
      | none => n
    | .reset =>
      let x := caCut u
      raiseIf x.2 49 (setCa c { x.1 with closed := true, closedAt := t, rstPend := true, connected := true } n)

/-! ### Crank-angle triggers (R222, R223) -/

/-- Raw count of sample k past the index count Z, modulo CPR (R222). -/
def caCount (r : Bytes) (cpr : Nat) (k : Nat) : Nat :=
  (caTdc r + (divRound (((caRst r + k * caStep r) * cpr : Nat) : Int) 3600).toNat) % max 1 cpr

/-- Samples of the cycle, from the one in place `pos` on, that fire at count `cnt` past Z, at most `fuel`; `may` says whether a
cycle may start (R222, R223). -/
def caReached (r : Bytes) (cpr cnt : Nat) (may : Bool) : Nat → Nat → Nat
  | 0, _ => 0
  | fuel + 1, pos =>
    let k := pos % max 1 (caLen r)
    if (k != 0 || may) && caCount r cpr k == cnt then 1 + caReached r cpr cnt may fuel (pos + 1) else 0

/-- Some crank-angle channel takes its triggers from position interface `pf`. -/
def caUses (pf : Nat) (n : Node) : Bool :=
  (List.range 16).any (fun c => n.chOn 4 c && caMode (n.recOf 4 c) == 2 && caPf (n.recOf 4 c) == pf)

/-- The raw count of position interface `pf` has moved onto `cnt` past Z upward or downward: the samples of a crank-angle
channel that lie there become due. `phase` reads a digital input. -/
def caCrank (pf cpr cnt : Nat) (up : Bool) (phase : Nat → Bool) (n : Node) : Node :=
  (List.range 16).foldl (fun m c =>
    let r := m.recOf 4 c
    let u := m.caC c
    if m.caOn c && caMode r == 2 && caPf r == pf && (up != caDir r) then
      let pos := (match u.cur with | some y => y.trig | none => 0) + u.due
      let may := u.seenIdx && (!ca720 r || phase (u8 r 15))
      setCa c { u with due := u.due + caReached r cpr cnt may (3600 / max 1 (caStep r)) pos } m
    else m) n

/-- An index pulse of the interface has been seen (R223). -/
def caIndex (pf : Nat) (n : Node) : Node :=
  (List.range 16).foldl (fun m c =>
    if m.chOn 4 c && caMode (m.recOf 4 c) == 2 && caPf (m.recOf 4 c) == pf then
      modCa c (fun u => { u with seenIdx := true }) m else m) n

/-- Every crank-angle cycle on the interface is abandoned (R224). -/
def caAbandonAll (pf : Nat) (n : Node) : Node :=
  (List.range 16).foldl (fun m c =>
    if caMode (m.recOf 4 c) == 2 && caPf (m.recOf 4 c) == pf then caAbandon c m else m) n

/-! ### Results (R233 to R238, R242) -/

def sumI (l : List Int) : Int := l.foldl (· + ·) 0
def maxI (l : List Int) : Int := match l with | [] => 0 | a :: r => r.foldl max a
def minI (l : List Int) : Int := match l with | [] => 0 | a :: r => r.foldl min a

/-- Nominal angle of sample k in tenths of a degree (R222). -/
def caAngle (r : Bytes) (k : Nat) : Nat := caRst r + k * caStep r

/-- Angle of peak in hundredths of a degree from firing TDC, reduced into its half-open range (R223, R233). -/
def caPeakAngle (r : Bytes) (k : Nat) : Int :=
  let a : Int := caAngle r k
  if ca720 r then
    let fire : Int := if caRst r = 0 then 3600 else 7200
    10 * ((a - fire + 3600) % 7200 - 3600)
  else 10 * ((a + 1800) % 3600 - 1800)

/-- A value held in `b` bits, signed; `none` where it does not fit: the spec gives no result there (R235). -/
def fitsS (b : Nat) (x : Int) : Bool := decide (-(2 ^ (b - 1)) ≤ x) && decide (x < 2 ^ (b - 1))

/-- Crank-angle results in E32 before saturation (R233 to R235): `smp` oldest first, the last of them under the cycle's q_0
(R227); `none` for those that rest on a pressure beyond 64 bits or on a W beyond 96. -/
def caCrankResults (r tab : Bytes) (peg : Int) (smp : List CaSample) : List (Option Int) :=
  let q0 := match smp.getLast? with | some s => s.q0 | none => 0
  let p := smp.map (fun s => (s.k, peg + caUnits r (s.q - q0)))
  let ps := p.map (·.2)
  let pmax := maxI ps
  let kpk := match p.find? (fun x => x.2 == pmax) with | some x => x.1 | none => 0
  let vol (k : Nat) : Int := u32 tab (8 + 4 * (caAngle r k % 3600))
  let closed := p ++ p.take 1
  let w := (closed.zip (closed.drop 1)).foldl (fun a (x, y) => a + divRound ((x.2 + y.2) * (vol y.1 - vol x.1)) 2) 0
  let vs := (List.range 3600).map (fun i => ((u32 tab (8 + 4 * i) : Nat) : Int))
  let imep := divRound w (max 1 (maxI vs - minI vs))
  let rates := (ps.zip (ps.drop 2)).map (fun (a, b) => divRound ((b - a) * 5) (max 1 (caStep r) : Nat))
  if !ps.all (fitsS 64) then [none, none, none, none]
  else [some (divRound pmax 1000), some (caPeakAngle r kpk), if fitsS 96 w then some (divRound imep 1000) else none,
        some (divRound (maxI rates) 1000)]

/-- Time-mode results in E32 before saturation (R237) over the samples that carry no RST; `none` where there is none, or where
one is beyond 64 bits. -/
def caBlockResults (r : Bytes) (smp : List CaSample) : List (Option Int) :=
  let xs := (smp.filter (fun s => !s.rst)).map (fun s => caUnits r (s.q - s.q0))
  if xs.isEmpty || !xs.all (fitsS 64) then [none, none, none, none]
  else
    let len : Int := xs.length
    let mu := divRound (sumI xs) len
    let sq := divRound (sumI (xs.map (fun x => (x - mu) * (x - mu)))) len
    [divRound (sqrtRound sq.toNat : Nat) 1000, divRound (maxI (xs.map (fun x => |x - mu|))) 1000,
     divRound (maxI xs - minI xs) 1000, divRound mu 1000].map some

/-- Results, with a free value for each that the spec leaves open (notes/assumptions/25.md). -/
def caValues : List (Option Int) → Node → List Int × Node
  | [], n => ([], n)
  | some v :: l, n => let x := caValues l n; (v :: x.1, x.2)
  | none :: l, n => let d := drawFree n; let x := caValues l d.2; (d.1.toInt :: x.1, x.2)

/-- Sample word of a buffer (R232). -/
def caSampleWord (s : CaSample) : Word :=
  wd (b2n s.rst * 2 ^ 31 + b2n s.interp * 2 ^ 30 + b2n s.sat * 2 ^ 29 + b2n s.late * 2 ^ 28 + (s.q % 2 ^ 28).toNat)

/-- The cycle whose record is due: the one before the present one, or the present one once whole. -/
def caFinished (u : CaChan) : Option (CaCyc × Bool) :=
  match u.prev with
  | some y => if (match u.conv with | some v => v.prev | none => false) then none else some (y, true)
  | none =>
    match u.cur with
    | some y => if y.len ≤ y.trig && u.conv.isNone && u.held.isNone then some (y, false) else none
    | none => none

/-- CA_RECORD_COMPLETE: the CHG engine's computation of a finished cycle or block ends at `t` (R238). -/
def caRecord (c t : Nat) (n : Node) : Node :=
  let r := n.recOf 4 c
  let u := n.caC c
  if !n.caOn c || !n.roleOn 2 (c / 8) then n else
  match caFinished u with
  | none => n
  | some (y, isPrev) =>
    let u1 : CaChan := if isPrev then { u with prev := none }
      else { u with cur := none, nextRange := some (caAutoRange u.range y) }
    if !y.record then setCa c u1 n
    else
      let smp := y.samples.reverse
      let interp := smp.any (·.interp)
      let sat := smp.any (·.sat)
      let (vals, n1) := caValues (if caMode r = 2 then caCrankResults r ((n.keyed 0x05 2 (u8 r 14)).getD []) y.peg smp
        else caBlockResults r smp) n
      let good := !y.rstFault && !y.pegBad && !sat
      let es := vals.zipIdx.map (fun (v, i) => mkEntry (0x3000 + c * 0x40 + 8 * i) v good interp sat false false)
      let cyc := u1.cycle + 1#32
      let n2 := complete (68 + c) 0 es t n1
      let sq := tget 0#8 n2.jn.seqs (slotKey (68 + c) 0)
      let q : Byte := match es with | e :: _ => e.q | [] => 0#8
      let hdr : List Word :=
        [cyc, wd smp.length, wd y.t0, wd (y.t0 / 2 ^ 32),
         (if caMode r = 2 then (satE32 (divRound y.peg 1000)).1 else 0x80000000#32),
         wd (y.range0 * 2 ^ 24 + y.range1 * 65536 + sq.toNat * 256 + q.toNat), wi (caSens r),
         (if caMode r = 2 then wd (caRst r * 65536 + caStep r) else wd (caStep r))]
      let buf := hdr ++ smp.map caSampleWord
      let u2 : CaChan := { u1 with cycle := cyc }
      let wait := (smp.zipIdx.filter (fun (s, _) => inR 1 4 s.j)).map (fun (s, i) => (y.buf, 8 + i, s.j))
      let u3 : CaChan := if !y.store then u2
        else if y.buf = 2 then { u2 with bufB := buf, latest := 2 } else { u2 with bufA := buf, latest := 1 }
      raise 48 (setCa c { u3 with unsettled := u3.unsettled ++ (if y.store then wait else []) } n2)

/-! ### Range command and buffers (R231, R239, R244) -/

/-- Write of CA_CTRL (R239, R240, R244). -/
def caCtrlWrite (c : Nat) (v : Word) (n : Node) : Node :=
  let u := n.caC c
  if !bitOf v 8 then n
  else if n.acq && n.chOn 4 c && !caAuto (n.recOf 4 c) then setCa c { u with req := some (fld v 1 0), deferred := u.deferred } n
  else setCa c { u with refused := true } n

def dropHold (i : Nat) (u : CaChan) : CaChan := { u with holds := u.holds.filter (fun h => h.1 != i) }

/-- OPEN: hold on the latest complete buffer, read index 0; RELEASE ends the hold (R231). -/
def caBufOpen (p : HostPort) (c : Nat) (n : Node) : Node :=
  let u := dropHold (portIdx p) (n.caC c)
  let u1 := if u.latest = 0 then u else { u with holds := u.holds ++ [((portIdx p), u.latest, n.now)] }
  n.modPort p (fun x => { x with caBufAddr := tset 0 x.caBufAddr c 0 }) |> setCa c u1

def caBufRelease (p : HostPort) (c : Nat) (n : Node) : Node := setCa c (dropHold (portIdx p) (n.caC c)) n

def caBufCtrl (p : HostPort) (c : Nat) (v : Word) (n : Node) : Node :=
  if fld v 1 0 = 1 then caBufOpen p c n else if fld v 1 0 = 2 then caBufRelease p c n else n

/-- Words of the buffer a port holds; none where it holds none. -/
def caHeld (u : CaChan) (i : Nat) : Option (List Word) :=
  match u.holds.find? (fun h => h.1 == i) with
  | some h => some (if h.2.1 = 1 then u.bufA else u.bufB)
  | none => none

/-- Read of CA_BUF_DATA: status, word, effect (R231). -/
def caBufData (p : HostPort) (c : Nat) (n : Node) : Nat × Word × Node :=
  let u := n.caC c
  let a := tget 0 (n.port p).caBufAddr c
  match caHeld u (portIdx p) with
  | none => (0x02, 0#32, n)
  | some buf =>
    let touch : Node := setCa c { u with holds := u.holds.map (fun h => if h.1 == (portIdx p) then (h.1, h.2.1, n.now) else h) } n
    match buf[a]? with
    | some w => (0x00, w, touch.modPort p (fun x => { x with caBufAddr := tset 0 x.caBufAddr c ((a + 1) % 65536) }))
    | none => (0x02, 0#32, touch)

/-- BUF_HOLD_TIMEOUT: 2 s after the port last read CA_BUF_DATA (R231). -/
def caHoldTimeout (p : HostPort) (c t : Nat) (n : Node) : Node :=
  let u := n.caC c
  if u.holds.any (fun h => h.1 == (portIdx p) && decide (h.2.2 + 2 * secPer ≤ t)) then setCa c (dropHold (portIdx p) u) n else n

/-! ### Start, stop, registers -/

/-- Charge channels take their records when an image is applied; buffers, counters ABANDON and SKIP stand until a reset. -/
def caApply (n : Node) : Node :=
  (List.range 16).foldl (fun m c =>
    modCa c (fun u => { u with range := u8 (m.recOf 4 c) 9, req := none, deferred := false, settle := 0, cur := none,
                               prev := none, conv := none, held := none, due := 0, unsettled := [], seenIdx := false, closed := false,
                               nextRange := none }) m) n

/-- READY: counts start, and the input switch is closed where the module carries the plant (R217, R450). -/
def caStart (t : Nat) (n : Node) : Node :=
  (List.range 16).foldl (fun m c =>
    if m.chOn 4 c then
      modCa c (fun u => { u with cycle := 0#32, blocks := 0, connected := m.carries, nextAt := t, cur := none, prev := none,
                                 seenIdx := false, conv := none, held := none, settle := 0, due := 0, unsettled := [] }) m
    else m) n

/-- On becoming ACTIVE or ALONE by take-over the switch closes at the next closure; as STANDBY it opens (R217, R459). -/
def caRole (n : Node) : Node :=
  (List.range 16).foldl (fun m c =>
    modCa c (fun u => { u with connected := false, cur := none, prev := none, conv := none, held := none, settle := 0, due := 0,
                               unsettled := [] }) m) n

def caStop (n : Node) : Node :=
  (List.range 16).foldl (fun m c => modCa c (fun u => { u with cur := none, prev := none, conv := none, held := none, settle := 0, due := 0, unsettled := [] }) m) n

def caStatusWord (u : CaChan) : Word :=
  let running := match u.cur with | some y => decide (y.trig < y.len) | none => false
  wd (u.abandon * 2 ^ 24 + u.skip * 65536 + b2n (!u.holds.isEmpty) * 1024 + b2n u.cmpIgn * 512 + b2n u.refused * 256
    + b2n u.late * 128 + b2n u.pegBad * 64 + b2n u.rstFault * 32 + b2n u.sat * 16 + b2n (decide (0 < u.settle)) * 8
    + b2n u.deferred * 4 + b2n running * 2 + b2n u.connected)

def caCfgWord (n : Node) (c : Nat) : Word :=
  let r := n.recOf 4 c
  wd (u8 r 11 * 2 ^ 24 + caStep r * 65536 + caPf r * 4096 + b2n (caDir r) * 2048 + b2n (ca720 r) * 1024 + b2n (caAuto r) * 512
    + (n.caC c).range * 16 + caMode r)

def caRead (n : Node) (p : HostPort) (c off : Nat) : Option Word :=
  let u := n.caC c
  match off with
  | 0x20 => some (caCfgWord n c)
  | 0x24 => some 0#32
  | 0x28 => some (caStatusWord u)
  | 0x2C => some u.cycle
  | 0x30 => some u.peg
  | 0x34 => some 0#32
  | 0x38 => some (wd (tget 0 (n.port p).caBufAddr c))
  | _ => none

def caStatusClear (c : Nat) (v : Word) (n : Node) : Node :=
  modCa c (fun u => { u with cmpIgn := u.cmpIgn && !bitOf v 9, refused := u.refused && !bitOf v 8, late := u.late && !bitOf v 7,
                             pegBad := u.pegBad && !bitOf v 6, rstFault := u.rstFault && !bitOf v 5, sat := u.sat && !bitOf v 4 }) n

def caWrite (p : HostPort) (c off : Nat) (v : Word) (n : Node) : Node :=
  match off with
  | 0x24 => caCtrlWrite c v n
  | 0x28 => caStatusClear c v n
  | 0x34 => caBufCtrl p c v n
  | 0x38 => n.modPort p (fun x => { x with caBufAddr := tset 0 x.caBufAddr c (fld v 15 0) })
  | _ => n

end Sys2Proof.Machine
end

