-- ==== Sys2Proof/Machine/MailboxCtl.lean ====
section
/-! DEFINITION. The mailbox fabric and the doorbells (spec/05 R142 to R154). -/

namespace Sys2Proof.Machine
open Sys2Proof

/-- The island of a master identity (R142). -/
def idIsland (id : Nat) : Nat :=
  if id == 2 || id == 3 || id == 5 then 7
  else if id == 4 then 8
  else if 8 ≤ id && id ≤ 15 then 1
  else if 16 ≤ id && id ≤ 23 then 2
  else 0

/-- Host identities of R152. -/
def idHost (id : Nat) : Bool := id == 1 || id == 2 || id == 3 || id == 5

/-- The binding of a channel: sender, receiver, bound (R143); unbound until BIND_LOCK sets (R153). -/
def mbBinding (n : Node) (ch : Nat) : Nat × Nat × Bool :=
  match n.ld.lock with
  | some tbl => (u8 tbl (4 * ch), u8 tbl (4 * ch + 1), (tbl.getD (4 * ch + 2) 0#8).getLsbD 0)
  | none => (0, 0, false)

def Node.mbChan (n : Node) (ch : Nat) : MbChan := tget {} n.mbx.chans ch
def Node.mbId (n : Node) (id : Nat) : MbId := tget {} n.mbx.ids id
def setMbChan (ch : Nat) (c : MbChan) (n : Node) : Node := { n with mbx.chans := tset {} n.mbx.chans ch c }
def setMbId (id : Nat) (c : MbId) (n : Node) : Node := { n with mbx.ids := tset {} n.mbx.ids id c }

/-- A ring: bit `ch` of DB_STATUS sets at the identity; event 126 at a host identity where unmasked (R151, R152). -/
def ring (id ch : Nat) (n : Node) : Node :=
  let d := n.mbId id
  raiseIf (idHost id && !d.dbMask.getLsbD ch) 126 (setMbId id { d with dbStat := setBitW d.dbStat ch true } n)

/-- SRC is written by the module at posting (R145). -/
def stampSrc (id : Nat) (msg : List Word) : List Word :=
  msg.set 1 ((msg.getD 1 0#32 &&& 0xFFFF00FF#32) ||| wd (id * 256))

/-- A post of a 16-word message on a channel by an identity: status and effect (R147, R150, R152). -/
def mbPostMsg (id ch : Nat) (msg : List Word) (n : Node) : Nat × Node :=
  let (snd, rcv, bound) := mbBinding n ch
  if bound && !n.isRun (idIsland rcv) then (0x01, n)
  else if !bound || snd != id then (0x06, n)
  else
    let c := n.mbChan ch
    let c' : MbChan := { st := .posted, msg := stampSrc id msg, ack := false, code := 0,
                         replaced := if c.st = .posted then satInc 255 c.replaced else c.replaced }
    (0x00, ring rcv ch (raiseIf (idHost rcv) 124 (setMbChan ch c' n)))

/-- A post from the identity's own window buffer (R146). -/
def mbPost (id ch : Nat) (n : Node) : Nat × Node := mbPostMsg id ch (n.mbId id).win n

/-- What a fetch reads: zeros from an EMPTY channel (R150). -/
def mbSlot (n : Node) (ch : Nat) : List Word :=
  if (n.mbChan ch).st = .empty then List.replicate 16 0#32 else (n.mbChan ch).msg

/-- The identity may fetch from the channel (R150). -/
def mbMayFetch (n : Node) (id ch : Nat) : Bool :=
  let (snd, rcv, bound) := mbBinding n ch
  bound && (snd == id || rcv == id)

/-- A fetch into the identity's window buffer (R146, R150). -/
def mbFetch (id ch : Nat) (n : Node) : Nat × Node :=
  if mbMayFetch n id ch then (0x00, setMbId id { n.mbId id with win := mbSlot n ch } n) else (0x06, n)

/-- A write of MB_ACKn (R148, R150): with ACK = 1 from the bound receiver while POSTED, an acknowledgement. -/
def mbAck (id ch : Nat) (v : Word) (n : Node) : Nat × Node :=
  let (snd, rcv, bound) := mbBinding n ch
  let c := n.mbChan ch
  if !bound || rcv != id then (0x06, n)
  else if bitOf v 31 && c.st == .posted then
    (0x00, ring snd ch (raiseIf (idHost snd) 125
      (setMbChan ch { c with st := .acked, ack := true, code := fld v 30 24 } n)))
  else (0x00, n)

def mbAckWord (n : Node) (ch : Nat) : Word :=
  let c := n.mbChan ch
  wd (b2n c.ack * 2 ^ 31 + c.code * 2 ^ 24 + (c.msg.getD 0 0#32).toNat % 2 ^ 24)

def mbChstatWord (n : Node) (ch : Nat) : Word :=
  let c := n.mbChan ch
  let (snd, rcv, bound) := mbBinding n ch
  let st := match c.st with | .empty => 0 | .posted => 1 | .acked => 2
  wd (st * 2 ^ 30 + b2n bound * 2 ^ 29 + c.replaced * 65536 + (if bound then rcv * 256 + snd else 0))

/-- A reset or a COMMIT empties every slot, doorbell and count and masks every doorbell (R153); window buffers of R146
are not named there and a COMMIT keeps them. -/
def mbClear (n : Node) : Node :=
  { n with mbx.chans := [],
           mbx.ids := n.mbx.ids.filterMap (fun (k, d) =>
             let d' : MbId := { win := d.win }
             if d' = ({} : MbId) then none else some (k, d')) }

def dbStatusWrite (id : Nat) (v : Word) (n : Node) : Node :=
  let d := n.mbId id
  setMbId id { d with dbStat := w1c d.dbStat v } n

def dbMaskWrite (id : Nat) (v : Word) (n : Node) : Node := setMbId id { n.mbId id with dbMask := v } n

def mbWinWrite (id i : Nat) (v : Word) (n : Node) : Node :=
  let d := n.mbId id
  setMbId id { d with win := lset d.win i v } n

end Sys2Proof.Machine
end

