-- ==== Sys2Proof/Machine/CurrentLoop.lean ====
section
/-! DEFINITION. Loop outputs, miswire bits, HART masters and pulse outputs (spec/09 R246 to R270). -/

namespace Sys2Proof.Machine
open Sys2Proof

def Node.loC (n : Node) (k : Nat) : LoChan := tget {} n.lo k
def setLo (k : Nat) (u : LoChan) (n : Node) : Node := { n with lo := tset {} n.lo k u }
def modLo (k : Nat) (f : LoChan → LoChan) (n : Node) : Node := setLo k (f (n.loC k)) n
def Node.poC (n : Node) (k : Nat) : PoChan := tget {} n.po k
def setPo (k : Nat) (u : PoChan) (n : Node) : Node := { n with po := tset {} n.po k u }
def modPo (k : Nat) (f : PoChan → PoChan) (n : Node) : Node := setPo k (f (n.poC k)) n
def Node.hmC (n : Node) (m : Nat) : HartM := tget {} n.hart m
def setHm (m : Nat) (u : HartM) (n : Node) : Node := { n with hart := tset {} n.hart m u }
def modHm (m : Nat) (f : HartM → HartM) (n : Node) : Node := setHm m (f (n.hmC m)) n

/-! ### Loop outputs (R246 to R250) -/

def loMode (r : Bytes) : Nat := u8 r 8
def loSafe (r : Bytes) : Nat := u8 r 9
def loChar (r : Bytes) : Nat := u8 r 10
def loSrc (r : Bytes) : Nat := u8 r 11
def loSafeVal (r : Bytes) : Nat := u32 r 12
def loILo (r : Bytes) : Int := u16 r 16
def loIHi (r : Bytes) : Int := u16 r 18
def loSrcAddr (r : Bytes) : Nat := u16 r 20
def loLowcut (r : Bytes) : Nat := u16 r 22

/-- d of a result source in ppm (R247, SRC 2). -/
def srcPpm (e rlo rhi : Int) : Int := if rhi = rlo then Config.deadSpan e rlo else divRoundS ((e - rlo) * 1000000) (rhi - rlo)

/-- The characteristic of R248: f as numerator and denominator, whether the cut-off stands, and whether the end of a table
clamps. The interpolated value of a table is not rounded before the current is. -/
def loCharac (n : Node) (r : Bytes) (cut : Bool) (d : Int) : (Int × Int) × Bool × Bool :=
  match loChar r with
  | 1 =>
    let lim : Int := (loLowcut r : Int) * 1000000
    let low := decide (d < 0) || (if cut then decide (d * 65536 < lim + 5000 * 65536) else decide (d * 65536 < lim))
    if low then ((0, 1), true, false) else (((sqrtRound (1000000 * d.toNat) : Nat), 1), false, false)
  | 2 =>
    let (num, den, beyond) := tblEval ((n.keyed 0x05 1 (loLowcut r)).getD []) d
    ((num, den), cut, beyond)
  | _ => ((d, 1), cut, false)

/-- Current range of a mode in µA (R246). -/
def loRange (r : Bytes) : Int × Int := if loMode r = 2 then (3600, 24000) else (0, 24000)

/-- Commanded current of a demand (R247): I, cut-off, CLAMP. -/
def loCurrent (n : Node) (r : Bytes) (cut : Bool) (d : Int) : Int × Bool × Bool :=
  let ((num, den), cut', beyond) := loCharac n r cut d
  let raw := loILo r + divRound (num * (loIHi r - loILo r)) (den * 1000000)
  let (lo, hi) := loRange r
  let i := clampI lo hi raw
  (i, cut', beyond || decide (i ≠ raw))

/-- The demand a channel presently has, or none where its source result is not VALID (R247, R250). -/
def loDemand (n : Node) (k : Nat) : Option Int :=
  let r := n.recOf 5 k
  match loSrc r with
  | 0 => some (n.loC k).demand
  | 1 => some (n.loC k).laneD
  | _ =>
    let s := n.res (loSrcAddr r)
    if qHas (resQ s) qVALID then some (srcPpm (valueWord s).toInt (i32 r 24) (i32 r 28)) else none

/-- The module drives its commanded values: RUN or DEGRADED, carrying the plant, I5 in RUN (R82, R450). -/
def Node.driving (n : Node) : Bool := n.running && n.carries && n.isRun 5

/-- The channel's lane is OFF, so that its own safe state applies (R367). -/
def loLaneOff (n : Node) (k : Nat) : Bool := loSrc (n.recOf 5 k) == 1 && (n.loC k).laneOff

/-- The commanded current takes a new value at `now`; the old one enters the sum of the window (R252). -/
def loSetCmd (i : Int) (now : Nat) (u : LoChan) : LoChan :=
  { u with cmd := i, acc := u.acc + u.cmd * ((now : Int) - u.accAt), accAt := now }

/-- The channel forms its current anew where the module drives (R247, R249); SRC_BAD follows the source in every state
(R250). -/
def loUpdate (k : Nat) (n : Node) : Node :=
  let r := n.recOf 5 k
  if !recOn r then n
  else match loDemand n k with
    | none => modLo k (fun u => { u with srcBad := true }) n
    | some d =>
      if !n.driving || loLaneOff n k then modLo k (fun u => { u with srcBad := false }) n
      else
        let (i, cut, cl) := loCurrent n r (n.loC k).cut d
        modLo k (fun u => { loSetCmd i n.now u with cut := cut, clamp := cl, srcBad := false,
                                                    driven := if n.miswired (64 + k) then u.driven else some i }) n

/-- Safe-state current in µA; `none`: hardware default (R93 to R95). -/
def loSafeCur (r : Bytes) (u : LoChan) : Option Int :=
  match loSafe r with
  | 2 => u.driven
  | 3 => some (loSafeVal r : Nat)
  | 4 => some 3600
  | 5 => some 21000
  | _ => none

/-- Length of the cross-ramp of a take-over: 100 µs (R458, R459). -/
def rampLen : Nat := 25000

/-- A current of the incoming module: 0 through the overlap, then rising to its value (R458, R459). -/
def loRampUp (n : Node) (i : Int) : Int :=
  if n.dup.overlap.isSome then 0
  else match n.dup.crossRamp with
    | some e => divRound (i * ((rampLen : Int) - ((e : Int) - n.now))) (rampLen : Nat)
    | none => i

/-- The released latch of the outgoing module still carries current (R459). -/
def loRampsDown (n : Node) : Bool := !n.carries && n.dup.relAt.any (fun a => decide (n.now < a + rampLen))

/-- The current of a released latch: falling to 0 over the cross-ramp (R459). -/
def loRampDown (n : Node) (i : Int) : Int :=
  match n.dup.relAt with
  | some a => divRound (i * ((a : Int) + rampLen - n.now)) (rampLen : Nat)
  | none => 0

/-- The current the channel's output stage is set to; `none`: hardware default, high impedance or held off. An engaged hold
latch holds the current; a take-over cross-ramps it (R457 to R459). -/
def loPin (n : Node) (k : Nat) : Option Int :=
  let r := n.recOf 5 k
  let u := n.loC k
  if n.miswired (64 + k) then none
  else if n.dup.latched then u.driven
  else if loRampsDown n then u.driven.map (loRampDown n)
  else (if !recOn r then none
  else if !n.isRun 5 || !n.outputsOn then none
  else if n.running && n.carries && !u.srcBad && !loLaneOff n k then some u.cmd
  else if n.applied || n.ld.restarting then loSafeCur r u
  else none).map (loRampUp n)

/-- A write of LO_DEMAND: in force at once in RUN and DEGRADED, stored otherwise (R249). -/
def loDemandWrite (k : Nat) (v : Word) (n : Node) : Node := loUpdate k (modLo k (fun u => { u with demand := v.toInt }) n)

/-- The lane that drives the channel has a new output in ppm (R247, SRC 1). -/
def loLane (k : Nat) (ppm : Int) (off : Bool) (n : Node) : Node :=
  loUpdate k (modLo k (fun u => { u with laneD := ppm, laneOff := off }) n)

/-- Channels whose SRC 2 result has changed follow it (R247, R250). -/
def loFollow (addr : Nat) (n : Node) : Node :=
  (List.range 16).foldl (fun m k =>
    let r := m.recOf 5 k
    if recOn r && loSrc r == 2 && loSrcAddr r == addr then loUpdate k m else m) n

/-! ### Readback, headroom, open loop (R251 to R254) -/

/-- HEADROOM after a window: counts of three in a row set and clear it (R252). -/
def loHeadroom (err : Int) (u : LoChan) : LoChan × Bool :=
  let beyond := decide (100 < |err|)
  if beyond == u.headroom then ({ u with hrRun := 0 }, false)
  else if u.hrRun + 1 < 3 then ({ u with hrRun := u.hrRun + 1 }, false)
  else ({ u with hrRun := 0, headroom := beyond, hrSeen := u.hrSeen || beyond }, beyond)

/-- OPEN of a sourcing channel after a window (R253). -/
def loOpen (mean i : Int) (u : LoChan) : LoChan × Bool :=
  let want := if u.opn then decide (50 ≤ mean) else decide (mean < 50) && decide (1000 ≤ i)
  if !want then ({ u with opRun := 0 }, false)
  else if u.opRun + 1 < 3 then ({ u with opRun := u.opRun + 1 }, false)
  else ({ u with opRun := 0, opn := !u.opn, openSeen := u.openSeen || !u.opn }, !u.opn)

/-- Counts of a readback window (R251). -/
def loWindow : Nat := 2500000

/-- Mean commanded current of the window that ends at `t`, in µA (R252). -/
def loCmdMean (t : Nat) (u : LoChan) : Int := divRound (u.acc + u.cmd * ((t : Int) - u.accAt)) (loWindow : Nat)

/-- The channel applies its commanded current (R250, R367). -/
def loCommands (n : Node) (k : Nat) : Bool := n.driving && !(n.loC k).srcBad && !loLaneOff n k

/-- OPEN of a sinking channel at a window: the field side is without supply (R253). -/
def loOpenField (u : LoChan) : LoChan × Bool :=
  if u.fieldOk || u.opn then (u, false) else ({ u with opn := true, openSeen := true }, true)

/-- LO_READBACK: a 10 ms window ends with mean measured current `mean` in µA (R251 to R254, R256). DESIGN CHOICE
(notes/assumptions/26.md): HEADROOM is judged where the channel applies its commanded current at the end of the window;
`comm` is FIELD_OK of a sourcing channel. -/
def loReadback (k : Nat) (mean : Int) (comm : Bool) (t : Nat) (n : Node) : Node :=
  let r := n.recOf 5 k
  if !(n.acq && n.isRun 5 && recOn r && t % loWindow == 0) then n
  else
    let u0 := n.loC k
    let u : LoChan := { u0 with acc := 0, accAt := t, fieldOk := if loMode r = 1 then comm else u0.fieldOk }
    let mw := n.miswired (64 + k)
    let judged := n.carries && !mw
    let (u1, e56) := if judged && loCommands n k then loHeadroom (mean - loCmdMean t u0) u else (u, false)
    let (u2, e57) := if judged then (if loMode r = 1 then loOpen mean u1.cmd u1 else loOpenField u1) else (u1, false)
    let dead := loMode r == 2 && !u2.fieldOk
    let en : Entry := if dead then mkEntry (0x3800 + k * 0x40) 0 false false true false false
      else mkEntry (0x3800 + k * 0x40) mean (!mw) false (mw || u2.headroom) false false
    complete (92 + k) 0 [en] t (raiseIf e57 57 (raiseIf e56 56 (setLo k u2 n)))

/-- LO_FIELD_SUPPLY_LOSS: the field side of a sinking channel has lost its supply for 20 ms, or has had it back for 20 ms
(R253). OPEN is not judged with the role off or while miswired (R254, R256). -/
def loFieldLoss (k : Nat) (lost : Bool) (n : Node) : Node :=
  let r := n.recOf 5 k
  let u := n.loC k
  if !(recOn r && loMode r == 2) then n
  else if !n.carries || n.miswired (64 + k) then setLo k { u with fieldOk := !lost } n
  else if lost then raiseIf (!u.opn) 57 (setLo k { u with fieldOk := false, opn := true, openSeen := true } n)
  else setLo k { u with fieldOk := true, opn := false } n

/-! ### Miswire bits (R255, R257, R269) -/

def mwBit (ch : Nat) : BitVec 128 := BitVec.ofNat 128 (2 ^ ch)

/-- The channel numbers of MW_ACT that name a channel (R269). -/
def mwExists (ch : Nat) : Bool := decide (ch < 120)

/-- The bits and event 40 of a miswired channel (R255). -/
def mwSet (ch : Nat) (n : Node) : Node :=
  raise 40 { n with mw.act := n.mw.act ||| mwBit ch, mw.flg := n.mw.flg ||| mwBit ch }

def mwClear (ch : Nat) (n : Node) : Node := { n with mw.act := n.mw.act &&& ~~~ mwBit ch }

/-- What a miswired UI, EX, CA or LO channel does (R256); position interfaces follow in `Machine/Position.lean`. -/
def mwEffect (ch t : Nat) (n : Node) : Node :=
  if ch < 64 then modUi ch uiHalt (roundsOf ch n)
  else if ch < 80 then modLo (ch - 64) (fun u => { u with hrRun := 0, opRun := 0 }) n
  else if ch < 96 then
    let c := ch - 80
    modCa c (fun u => { u with connected := false, cur := none, prev := none, conv := none, held := none, seenIdx := false,
                               settle := 0, due := 0, unsettled := [],
                               abandon := if u.cur.any (fun y => decide (y.trig < y.len)) then satInc 255 u.abandon else u.abandon }) n
  else if ch < 112 then exRequest (ch - 96) t (modEx (ch - 96) (fun e => { e with aOn := false }) n)
  else n

/-- Reconnection of a UI, EX, CA or LO channel (R256). -/
def mwRestore (ch t : Nat) (n : Node) : Node :=
  if ch < 64 then
    if n.acq && n.chOn 1 ch && !(n.uiC ch).failed then modUi ch (uiRestart t) n else n
  else if ch < 80 then modLo (ch - 64) (fun u => { u with headroom := false, hrRun := 0, opn := false, opRun := 0 }) (loUpdate (ch - 64) n)
  else if 96 ≤ ch && ch < 112 then exUpdate (ch - 96) t n
  else n

/-- A miswired UI channel publishes its last VALUE with RANGE = 1 at each normal completion (R256), or its forced value
(R182). DESIGN CHOICE (notes/assumptions/56.md): the normal completions go on from the grid that ran last. -/
def uiMiswired (c t : Nat) (n : Node) : Node :=
  let u := n.uiC c
  if n.acq && n.isRun 3 && n.roleOn 1 (c / 32) && n.chOn 1 c && u.published && !u.failed
      && atBoundary u.grid u.lastAt (uiPeriod u.rate) t then
    let w := if u.force then u.forceVal else u.last
    complete c 0 [{ addr := 0x2000 + c * 0x40, value := w, q := mkQ u.force false (!u.force) false false u.force }] t
      (setUi c { u with lastAt := t, last := w, range := u.range && !u.force } n)
  else n

/-! ### HART (R258 to R264) -/

def hmMode (r : Bytes) : Nat := u8 r 8
def hmLostN (r : Bytes) : Nat := u8 r 12
def hvMaster (r : Bytes) : Nat := u8 r 8
def hvAddr (r : Bytes) : Nat := u8 r 9
def hvSel (r : Bytes) : Nat := u8 r 10

/-- The master may transmit: enabled, in an acquisition state, carrying the plant, its channel not high impedance (R256, R264,
R450). -/
def Node.hartOn (n : Node) (m : Nat) : Bool :=
  n.acq && n.isRun 5 && n.chOn 6 m && n.carries && !n.miswired (if m < 16 then 64 + m else m - 16)

/-- Value of a single-precision float over 10^scale, as numerator and denominator; `none`: not a number (R262). -/
def floatOver (w : Word) (scale : Int) : Option (Int × Nat) :=
  let s : Int := if bitOf w 31 then -1 else 1
  let e := fld w 30 23
  let m := fld w 22 0
  if e = 255 ∧ m ≠ 0 then none
  else
    let mant := if e = 0 then m else m + 2 ^ 23
    let ex : Int := if e = 0 then -149 else (e : Int) - 150
    let num : Int := s * mant * (if 0 ≤ ex then 2 ^ ex.toNat else 1) * (if scale < 0 then 10 ^ (-scale).toNat else 1)
    let den := (if 0 ≤ ex then 1 else 2 ^ (-ex).toNat) * (if scale < 0 then 1 else 10 ^ scale.toNat)
    some (num, den)

/-- Quality of a variable (R262): VALID and FORCED. -/
def hartQ (devStat : Byte) (st : Option Nat) : Bool × Bool :=
  if devStat.getLsbD 7 then (false, false)
  else match st with
    | some 0 => (false, false)
    | some 2 => (true, true)
    | _ => (true, false)

/-- Publish one imported variable (R261, R262). -/
def hartVar (m t : Nat) (devStat : Byte) (n : Node) (x : Nat × Word × Option Nat) : Node :=
  let (v, w, st) := x
  let addr := 0x3C00 + v * 8
  let (valid, forced) := hartQ devStat st
  match floatOver w (recScale (n.recOf 7 v)) with
  | some (num, den) => complete (174 + m) v [mkEntry addr (divRound num den) valid false false false forced] t n
  | none =>
    let old := n.res addr
    complete (174 + m) v [{ addr := addr, value := (if old.has && !old.lost then old.value else 0x80000001#32), q := mkQ false false true false false forced }] t n

/-- The variables one transaction reads: the due ones of the lowest due address, by command 3 or up to eight by command 9
(R261). -/
def hartPick (n : Node) (due : List Nat) : Option (Nat × List Nat) :=
  let key (v : Nat) : Nat := hvAddr (n.recOf 7 v)
  match due.foldl (fun (a : Option Nat) v => match a with
      | none => some (key v)
      | some b => some (min b (key v))) none with
  | none => none
  | some a =>
    let here := due.filter (fun v => key v == a)
    let slots := here.filter (fun v => hvSel (n.recOf 7 v) != 4)
    if slots.isEmpty then some (a, here.take 8) else some (a, slots)

/-- The master's record and transmission of a frame: long (0x82) or short (0x02) form, primary master bit and polling address,
command, data (R258; PRESUMED as HART 7 has them, notes/assumptions/27.md). -/
def hartSend (m a cmd : Nat) (long : Bool) (data : Bytes) (u : HartM) (n : Node) : Node :=
  let frame : TxFrame :=
    { chan := .hart m
      dest := a
      bytes := [if long then 0x82#8 else 0x02#8, BitVec.ofNat 8 (b2n (u8 (n.recOf 6 m) 9 == 1) * 128 + a)] ++ leBytes 2 cmd ++ data }
  { setHm m u n with tx := n.tx ++ [frame] }

/-- An idle master starts its next transaction: a pass-through first, then due variables (R261); a device that is not
identified is asked by command 0 in a short frame first (R258). -/
def hartNext (m : Nat) (n : Node) : Node :=
  let u := n.hmC m
  if u.run != .idle || !n.hartOn m then n
  else match u.pend with
    | some p =>
      if u.ident.contains p.addr then hartSend m p.addr p.cmd true p.data { u with run := .pass } n
      else hartSend m p.addr 0 false [] { u with run := .ident p.addr } n
    | none =>
      match hartPick n u.due with
      | some (a, vs) =>
        if u.ident.contains a then
          hartSend m a (if vs.any (fun v => hvSel (n.recOf 7 v) == 4) then 9 else 3) true []
            { u with run := .vars a vs, due := u.due.filter (fun v => !vs.contains v) } n
        else hartSend m a 0 false [] { u with run := .ident a } n
      | none => n

/-- HART_VARIABLE_DUE: an imported variable falls due (R261). -/
def hartDue (v : Nat) (n : Node) : Node :=
  let r := n.recOf 7 v
  let m := hvMaster r
  if recOn r && n.hartOn m then
    hartNext m (modHm m (fun u => { u with due := if u.due.contains v then u.due else u.due ++ [v] }) n)
  else n

/-- Identity of the engine that the route map gives the role NET (R142, R264). -/
def netId (n : Node) : Nat :=
  match (n.legBody 0x03).findIdx? (fun b => b.toNat / 16 == 7) with
  | some e => 8 + e
  | none => 0

/-- Words of a message from kind, tag and payload bytes (R145). -/
def mkMsg (kind tag len : Nat) (payload : Bytes) : List Word :=
  wd (kind * 2 ^ 24 + tag % 2 ^ 24) :: wd len :: (List.range 14).map (fun i => w32 payload (4 * i))

/-- Payload bytes of a message. -/
def msgPayload (msg : List Word) : Bytes := ((msg.drop 2).flatMap (fun w => leBytes 4 w.toNat))

/-- The NET engine acknowledges a request (R148, R264). -/
def netAck (ch code : Nat) (n : Node) : Node := (mbAck (netId n) ch (wd (2 ^ 31 + code * 2 ^ 24)) n).2

/-- A pass-through ends with a return code; event 58, and 59 when it failed (R264). -/
def hartPassEnd (m code : Nat) (resp : Option HartResp) (n : Node) : Node :=
  let u := n.hmC m
  match u.pend with
  | none => setHm m { u with run := .idle } n
  | some p =>
    let n1 := setHm m { u with run := .idle, pend := none } n
    let n2 := match resp with
      | some r =>
        let d := r.data.take 48
        let pay : Bytes := [BitVec.ofNat 8 m, BitVec.ofNat 8 p.addr] ++ leBytes 2 p.cmd ++
          [BitVec.ofNat 8 d.length, r.rc, r.devStat, if 48 < r.data.length then 1#8 else 0#8] ++ d
        (mbPostMsg (netId n1) p.reply (mkMsg 0x49 p.tag (8 + d.length) pay) n1).2
      | none => n1
    raiseIf (code != 0) 59 (raise 58 (netAck p.ch code n2))

/-- Address of the device that the running transaction addresses. -/
def hartAddr (u : HartM) : Nat :=
  match u.run with
  | .vars a _ => a
  | .ident a => a
  | .pass => (match u.pend with | some p => p.addr | none => 0)
  | .idle => 0

/-- A failed transaction in the master: counters, ERR, and in multidrop the loss of a device (R263). Answers whether one is
lost. -/
def hartFailed (r : Bytes) (noResp : Bool) (u : HartM) : HartM × Bool :=
  let a := hartAddr u
  let f := tget 0 u.fails a + 1
  let lost := hmMode r == 2 && f == hmLostN r
  ({ u with err := true, noResp := if noResp then satInc 65535 u.noResp else u.noResp,
            commErr := if noResp then u.commErr else satInc 65535 u.commErr, fails := tset 0 u.fails a f, lost := u.lost || lost,
            live := if lost then u.live.filter (fun x => x != a) else u.live,
            ident := if lost then u.ident.filter (fun x => x != a) else u.ident }, lost)

/-- A transaction fails: event 59, and event 60 for a device lost (R263). -/
def hartFail (m : Nat) (noResp : Bool) (n : Node) : Node :=
  let u := n.hmC m
  let (u1, lost) := hartFailed (n.recOf 6 m) noResp u
  match u.run with
  | .pass => raiseIf lost 60 (hartPassEnd m (if noResp then 0x10 else 0x11) none (setHm m u1 n))
  | .vars _ _ => raiseIf lost 60 (raise 59 (setHm m { u1 with run := .idle } n))
  | .ident a =>
    if u.pend.any (fun p => p.addr == a) then raiseIf lost 60 (hartPassEnd m (if noResp then 0x10 else 0x11) none (setHm m u1 n))
    else raiseIf lost 60 (raise 59 (setHm m { u1 with run := .idle, due := u1.due.filter (fun v => hvAddr (n.recOf 7 v) != a) } n))
  | .idle => n

/-- HART_TRANSACTION_COMPLETE: the response to the running transaction ends at `t` (R261 to R264). -/
def hartComplete (m : Nat) (resp : HartResp) (t : Nat) (n : Node) : Node :=
  let u := n.hmC m
  if u.run == .idle || !n.hartOn m then n
  else
    let n1 := setHm m { u with lastRc := resp.rc.toNat, devStat := resp.devStat.toNat } n
    let n2 :=
      if resp.isErr then hartFail m false n1
      else match u.run with
        | .pass =>
          let a := hartAddr u
          hartPassEnd m 0 (some resp) (modHm m (fun u => { u with fails := tset 0 u.fails a 0,
                                                                  live := if u.live.contains a then u.live else u.live ++ [a] }) n1)
        | .vars a vs =>
          let n2 := (resp.vals.filter (fun x => vs.contains x.1)).foldl (hartVar m t resp.devStat) n1
          modHm m (fun u => { u with run := .idle, fails := tset 0 u.fails a 0,
                                     live := if u.live.contains a then u.live else u.live ++ [a] }) n2
        | .ident a => modHm m (fun u => { u with run := .idle, fails := tset 0 u.fails a 0, ident := u.ident ++ [a],
                                                 live := if u.live.contains a then u.live else u.live ++ [a] }) n1
        | .idle => n1
    hartNext m n2

/-- NO_RESPONSE_AFTER_RETRIES (R263). -/
def hartNoResp (m : Nat) (n : Node) : Node :=
  if (n.hmC m).run == .idle then n else hartNext m (hartFail m true n)

/-- HART_PASS_THROUGH: the NET engine takes the request posted on a channel (R264). -/
def hartPassReq (ch : Nat) (n : Node) : Node :=
  let c := n.mbChan ch
  let (snd, rcv, bound) := mbBinding n ch
  if !(bound && rcv == netId n && netId n != 0 && c.st == .posted) then n
  else if fld (c.msg.getD 0 0#32) 31 24 != 0x48 then n
  else
    let pay := msgPayload c.msg
    let m := u8 pay 0
    let reply := u8 pay 5
    let (rs, rr, rb) := mbBinding n (reply % 32)
    let tag := (c.msg.getD 0 0#32).toNat % 2 ^ 24
    if decide (31 < m) || decide (63 < u8 pay 1) || decide (48 < u8 pay 4) || decide (31 < reply) then netAck ch 0x02 n
    else if !n.hartOn m then netAck ch 0x12 n
    else if (n.hmC m).pend.isSome then netAck ch 0x13 n
    else if !(rb && rs == netId n && rr == snd) then netAck ch 0x14 n
    else
      let p : HartPass := { ch := ch, tag := tag, sender := snd, addr := u8 pay 1, cmd := u16 pay 2,
                            data := (pay.drop 8).take (u8 pay 4), reply := reply }
      hartNext m (modHm m (fun u => { u with pend := some p }) n)

def hmStatusWord (n : Node) (m : Nat) : Word :=
  let u := n.hmC m
  let r := n.recOf 6 m
  wd (u.lastRc * 2 ^ 24 + u.devStat * 65536 + min 15 u.live.length * 4096 + b2n u.lost * 32 + b2n u.err * 16
    + b2n (u.run != .idle) * 8 + (if recOn r then hmMode r else 0))

def hmErrWord (u : HartM) : Word := wd (u.noResp * 65536 + u.commErr)

def hmStatusClear (m : Nat) (v : Word) (n : Node) : Node :=
  modHm m (fun u => { u with lost := u.lost && !bitOf v 5, err := u.err && !bitOf v 4 }) n

/-! ### Pulse outputs (R265, R266) -/

def poMode (r : Bytes) : Nat := u8 r 8
def poSafe (r : Bytes) : Nat := u8 r 9
def poSrc (r : Bytes) : Nat := u8 r 10
def poSafeVal (r : Bytes) : Nat := u32 r 12
def poSrcAddr (r : Bytes) : Nat := u16 r 16
/-- PULSE_W in µs in mode 3, PWM_F in Hz in mode 1. -/
def poWidth (r : Bytes) : Nat := u16 r 18
def poFmax (r : Bytes) : Nat := u32 r 20

/-- The demand a pulse output presently has (R247, R265). -/
def poDemand (n : Node) (k : Nat) : Option Int :=
  let r := n.recOf 0x0F k
  match poSrc r with
  | 0 => some (n.poC k).set
  | 1 => some (n.poC k).laneD
  | _ =>
    let s := n.res (poSrcAddr r)
    if qHas (resQ s) qVALID then some (srcPpm (valueWord s).toInt (i32 r 24) (i32 r 28)) else none

/-- Duty in ppm or frequency in mHz of a clamped demand (R265). -/
def poValue (r : Bytes) (d : Int) : Int :=
  let c := clampI 0 1000000 d
  if poMode r = 2 then divRound (c * (poFmax r : Nat)) 1000000 else c

def poLaneOff (n : Node) (k : Nat) : Bool := poSrc (n.recOf 0x0F k) == 1 && (n.poC k).laneOff

/-- What a duty or a frequency drives (R265): constant levels at the ends of a duty, no pulses below 100 mHz. -/
def poWave (r : Bytes) (v : Int) : PoPin :=
  if poMode r = 1 then (if v ≤ 0 then .low else if 1000000 ≤ v then .high else .pwm (poWidth r) v)
  else if poMode r = 2 then (if v < 100 then .low else .freq v)
  else .low

/-- The channel applies its commanded value (R82, R250, R367). -/
def poCommands (n : Node) (k : Nat) : Bool := recOn (n.recOf 0x0F k) && n.driving && !(n.poC k).srcBad && !poLaneOff n k

/-- The safe state of the channel's record (R93, R95). -/
def poSafePin (r : Bytes) (u : PoChan) : PoPin :=
  match poSafe r with
  | 1 => .high
  | 2 => u.driven.getD .low
  | 3 => poWave r (poSafeVal r : Nat)
  | _ => .low

/-- What the output drives: nothing but low where it is disabled, held off or without an image (R94, R96); an engaged hold
latch holds a duty or frequency and cuts a pulse (R459). -/
def poPin (n : Node) (k : Nat) : PoPin :=
  let r := n.recOf 0x0F k
  let u := n.poC k
  if n.dup.latched then (if poMode r = 3 then .low else u.driven.getD .low)
  else if !recOn r then .low
  else if !n.isRun 5 || !n.outputsOn then .low
  else if poCommands n k then (if poMode r = 3 then (if u.pulse then .high else .low) else poWave r u.out)
  else if n.applied || n.ld.restarting then poSafePin r u
  else .low

/-- PO_OUT of what a safe state drives: its duty or frequency. -/
def poPinOut : PoPin → Int
  | .low => 0
  | .high => 1000000
  | .pwm _ d => d
  | .freq f => f

/-- PO_OUT: the value in effect (R266, R269). -/
def poOutVal (n : Node) (k : Nat) : Int :=
  if poCommands n k then (n.poC k).out else poPinOut (poPin n k)

/-- A demand is judged: SRC_BAD in every state (R250), CLAMP, CLAMP_SEEN and event 61 where the module drives (R266). -/
def poUpdate (k : Nat) (n : Node) : Node :=
  let r := n.recOf 0x0F k
  if !recOn r || poMode r == 3 then n
  else match poDemand n k with
    | none => modPo k (fun u => { u with srcBad := true }) n
    | some d =>
      if !n.driving || poLaneOff n k then modPo k (fun u => { u with srcBad := false }) n
      else
      let cl := decide (d < 0) || decide (1000000 < d)
      let u := n.poC k
      raiseIf (cl && !u.clamp) 61 (setPo k { u with srcBad := false, clamp := cl, clampSeen := u.clampSeen || cl } n)

/-- The value of the present demand takes effect (R265, R266). -/
def poTake (k : Nat) (n : Node) : Node :=
  let r := n.recOf 0x0F k
  if !recOn r || !n.driving || poMode r == 3 || poLaneOff n k then n
  else match poDemand n k with
    | none => poUpdate k n
    | some d => modPo k (fun u => { u with out := poValue r d, driven := some (poWave r (poValue r d)) }) (poUpdate k n)

/-- PO_PERIOD_BOUNDARY: at a rising edge the value in effect is taken (R266); a frequency output that has stopped has none. -/
def poBoundary (k : Nat) (n : Node) : Node :=
  if poMode (n.recOf 0x0F k) == 2 && decide ((n.poC k).out < 100) then n else poTake k n

/-- At a fine tick a stopped frequency output whose demand has reached 100 mHz starts its first period (R266). -/
def poFine (n : Node) : Node :=
  (List.range 8).foldl (fun m k =>
    let r := m.recOf 0x0F k
    if recOn r && m.driving && poMode r == 2 && decide ((m.poC k).out < 100) then
      match poDemand m k with
      | some d => if 100 ≤ poValue r d then poTake k m else m
      | none => m
    else m) n

/-- "pulse on a PO" compare action (R265, mode 3). -/
def poPulse (k t : Nat) (n : Node) : Node :=
  let r := n.recOf 0x0F k
  if recOn r && n.driving && poMode r == 3 then
    modPo k (fun u => { u with pulse := true, pulseEnd := t + poWidth r * usPer, out := (poWidth r : Nat), driven := some .low }) n
  else n

/-- PO_PULSE_END: the running pulse has had its width (R265). -/
def poPulseEnd (k t : Nat) (n : Node) : Node :=
  if (n.poC k).pulse && decide ((n.poC k).pulseEnd ≤ t) then modPo k (fun u => { u with pulse := false }) n else n

def poSetWrite (k : Nat) (v : Word) (n : Node) : Node := poUpdate k (modPo k (fun u => { u with set := v.toInt }) n)

def poLane (k : Nat) (ppm : Int) (off : Bool) (n : Node) : Node :=
  poUpdate k (modPo k (fun u => { u with laneD := ppm, laneOff := off }) n)

def poFollow (addr : Nat) (n : Node) : Node :=
  (List.range 8).foldl (fun m k =>
    let r := m.recOf 0x0F k
    if recOn r && poSrc r == 2 && poSrcAddr r == addr then poUpdate k m else m) n

/-- Channels on results: SRC_BAD and the value follow what the store holds now. -/
def srcSync (n : Node) : Node :=
  (List.range 8).foldl (fun m k => if poSrc (m.recOf 0x0F k) == 2 then poUpdate k m else m)
    ((List.range 16).foldl (fun m k => if loSrc (m.recOf 5 k) == 2 then loUpdate k m else m) n)

/-- HOLD keeps the value present at COMMIT, where a commanded value has been driven since the reset (R95, R98). -/
def loHoldCommit (n : Node) : Node :=
  (List.range 8).foldl (fun m k => modPo k (fun u => { u with driven := u.driven.map (fun _ => poPin n k) }) m)
    ((List.range 16).foldl (fun m k => modLo k (fun u => { u with driven := u.driven.bind (fun _ => loPin n k) }) m) n)

/-- Loop and pulse outputs take their commanded values at the entry to RUN (R91, R249). -/
def loRunEntry (n : Node) : Node :=
  (List.range 8).foldl (fun m k => poTake k m) ((List.range 16).foldl (fun m k => loUpdate k m) n)

/-- Outputs leave RUN: pulses end, flags of a command in force fall (R92, R97). -/
def loSafeEntry (n : Node) : Node :=
  (List.range 8).foldl (fun m k => modPo k (fun u => { u with pulse := false }) m) n

/-- State of this chapter when an image is applied. -/
def loApply (n : Node) : Node :=
  let n0 := (List.range 8).foldl (fun m k =>
    modPo k (fun u => { u with out := 0, clamp := false, srcBad := recOn (m.recOf 0x0F k) && poSrc (m.recOf 0x0F k) == 2,
                               pulse := false, driven := if recOn (m.recOf 0x0F k) then u.driven else none }) m) n
  let n1 := (List.range 16).foldl (fun m k =>
    modLo k (fun u => { u with srcBad := recOn (m.recOf 5 k) && loSrc (m.recOf 5 k) == 2, clamp := false, cut := false, headroom := false, hrRun := 0, opn := false, opRun := 0,
                               fieldOk := recOn (m.recOf 5 k), driven := if recOn (m.recOf 5 k) then u.driven else none }) m) n0
  { n1 with hart := n1.hart.filterMap (fun (k, u) =>
      let u' : HartM := { u with run := .idle, pend := none, due := [], live := [], ident := [], fails := [] }
      if u' = ({} : HartM) then none else some (k, u')) }

/-! ### Registers (R267, R269) -/

def loCfgWord (n : Node) (k : Nat) : Word :=
  let r := n.recOf 5 k
  wd (loSrcAddr r * 65536 + loSrc r * 1024 + loChar r * 256 + b2n (n.chOn 6 k) * 16 + loMode r)

def loStatusWord (n : Node) (k : Nat) : Word :=
  let u := n.loC k
  let r := n.recOf 5 k
  let safe := n.outputsOn && !(recOn r && loCommands n k) && !n.showsReset
  wd (b2n u.openSeen * 512 + b2n u.hrSeen * 256 + b2n (n.miswired (64 + k)) * 128 + b2n u.srcBad * 64 + b2n u.clamp * 32
    + b2n u.opn * 16 + b2n u.headroom * 8 + b2n (!n.outputsOn) * 4 + b2n safe * 2 + b2n u.fieldOk)

def loRead (n : Node) (k off : Nat) : Option Word :=
  let r := n.recOf 5 k
  let u := n.loC k
  match off with
  | 0x08 => some (loCfgWord n k)
  | 0x0C => some (wi u.demand)
  | 0x10 => some (wi u.cmd)
  | 0x14 => some (loStatusWord n k)
  | 0x18 => some (w32 r 16)
  | 0x1C => some (w32 r 20)
  | 0x20 => some (w32 r 24)
  | 0x24 => some (w32 r 28)
  | 0x28 => some (hmStatusWord n k)
  | 0x2C => some (hmStatusWord n (16 + k))
  | 0x30 => some (hmErrWord (n.hmC k))
  | 0x34 => some (hmErrWord (n.hmC (16 + k)))
  | _ => none

def loStatusClear (k : Nat) (v : Word) (n : Node) : Node :=
  modLo k (fun u => { u with openSeen := u.openSeen && !bitOf v 9, hrSeen := u.hrSeen && !bitOf v 8 }) n

def loWrite (k off : Nat) (v : Word) (n : Node) : Node :=
  match off with
  | 0x0C => loDemandWrite k v n
  | 0x14 => loStatusClear k v n
  | 0x28 => hmStatusClear k v n
  | 0x2C => hmStatusClear (16 + k) v n
  | _ => n

def poStatusWord (n : Node) (k : Nat) : Word :=
  let u := n.poC k
  let run := poCommands n k
  wd (b2n u.clampSeen * 32 + b2n u.srcBad * 16 + b2n u.clamp * 8 + b2n u.pulse * 4 + b2n (n.outputsOn && !run && !n.showsReset) * 2 + b2n run)

def poRead (n : Node) (k off : Nat) : Option Word :=
  let r := n.recOf 0x0F k
  match off with
  | 0x00 => some (wd (poSrcAddr r * 65536 + poSrc r * 256 + poMode r))
  | 0x04 => some (wi (n.poC k).set)
  | 0x08 => some (wi (poOutVal n k))
  | 0x0C => some (poStatusWord n k)
  | 0x10 => some (w32 r 16)
  | 0x14 => some (w32 r 20)
  | 0x18 => some (w32 r 24)
  | 0x1C => some (w32 r 28)
  | _ => none

def poStatusClear (k : Nat) (v : Word) (n : Node) : Node :=
  modPo k (fun u => { u with clampSeen := u.clampSeen && !bitOf v 5 }) n

def poWrite (k off : Nat) (v : Word) (n : Node) : Node :=
  match off with
  | 0x04 => poSetWrite k v n
  | 0x0C => poStatusClear k v n
  | _ => n

def mwFlgWrite (m : Nat) (v : Word) (n : Node) : Node :=
  { n with mw.flg := putSlice128 n.mw.flg m (w1c (slice128 n.mw.flg m) v) }

end Sys2Proof.Machine
end

