-- ==== Sys2Proof/Machine/Digital.lean ====
section
/-! DEFINITION. Digital inputs, sensor supplies, digital outputs and the interlock matrix (spec/10 R271 to R296). -/

namespace Sys2Proof.Machine
open Sys2Proof

def Node.diC (n : Node) (k : Nat) : DiChan := tget {} n.dig.di k
def setDi (k : Nat) (u : DiChan) (n : Node) : Node := { n with dig.di := tset {} n.dig.di k u }
def Node.ssC (n : Node) (k : Nat) : SsChan := tget {} n.dig.ss k
def setSs (k : Nat) (u : SsChan) (n : Node) : Node := { n with dig.ss := tset {} n.dig.ss k u }
def Node.doC (n : Node) (k : Nat) : DoChan := tget {} n.dig.dout k
def setDo (k : Nat) (u : DoChan) (n : Node) : Node := { n with dig.dout := tset {} n.dig.dout k u }
def modDo (k : Nat) (f : DoChan → DoChan) (n : Node) : Node := setDo k (f (n.doC k)) n

/-- An image is in force on I5: applied, or still running its terms and safe states during a restart (R86, R98, R292). -/
def Node.inForce (n : Node) : Bool := n.isRun 5 && (n.applied || n.ld.restarting)

/-! ### Records (R294) -/

def recBit (r : Bytes) (k b : Nat) : Bool := (r.getD k 0#8).getLsbD b
def diSs (r : Bytes) : Nat := u8 r 13
def doSafe (r : Bytes) : Nat := u8 r 8
def doSrc (r : Bytes) : Nat := u8 r 9
def doSrcIdx (r : Bytes) : Nat := u16 r 16
def doW (r : Bytes) : Nat := u16 r 18
def doTpCyc (r : Bytes) : Nat := u16 r 20
def doDtPer (r : Bytes) : Nat := u16 r 22

/-! ### Sensor supplies (R279) -/

/-- The supply's output is on: commanded in RUN and DEGRADED, safe state otherwise, off while overloaded. -/
def ssOut (n : Node) (s : Nat) : Bool :=
  let r := n.recOf 9 s
  let u := n.ssC s
  if !recOn r || !n.inForce || !n.outputsOn || u.overload then false
  else if n.running then u.on else u8 r 8 == 1

/-- SS_OVERLOAD: 10 ms in limit. -/
def ssOverload (s t : Nat) (n : Node) : Node :=
  if ssOut n s then raise 66 (setSs s { n.ssC s with overload := true, ovlSeen := true, retryAt := t } n) else n

/-- SS_RETRY: one second after it switched off the supply tries again, and stays on where the load allows it. -/
def ssRetry (s : Nat) (ok : Bool) (t : Nat) (n : Node) : Node :=
  let u := n.ssC s
  if u.overload && decide (u.retryAt + secPer ≤ t) then setSs s { u with overload := !ok, retryAt := t } n else n

def ssCtrlWrite (s : Nat) (v : Word) (n : Node) : Node := setSs s { n.ssC s with on := bitOf v 0 } n

/-- INIT is loaded at the entry to RUN and with the image (R279, R295). -/
def ssInit (n : Node) : Node :=
  (List.range 6).foldl (fun m s => setSs s { m.ssC s with on := u8 (m.recOf 9 s) 9 == 1 } m) n

/-! ### Digital inputs (R271 to R278) -/

/-- State of an input: its accepted level, 0 while OPEN (R274), 0 for a disabled input. -/
def diState (n : Node) (k : Nat) : Bool := n.chOn 0x0E k && (n.diC k).level && !(n.diC k).opn

/-- The input's sensor supply is off or overloaded (R277, R279). -/
def diSsBad (n : Node) (k : Nat) : Bool :=
  let s := diSs (n.recOf 0x0E k)
  n.chOn 0x0E k && decide (s < 6) && !ssOut n s

/-- BAD of an input (R277). -/
def diBad (n : Node) (k : Nat) : Bool := (n.diC k).opn || diSsBad n k

/-- A single input as its consumers see it: `none` while it is not usable (R278). -/
def diUse (n : Node) (k : Nat) : Option Bool := if n.chOn 0x0E k && !diBad n k then some (diState n k) else none

/-- Sampling period in eighths of a DEVTIME count: SPER, or an I5 cycle (R272). -/
def diPer (r : Bytes) : Nat := if u8 r 9 = 0 then u8 r 10 * 500000 else 25

/-- Consecutive samples that accept a level (R273). -/
def diSamples (r : Bytes) : Nat :=
  if u8 r 9 = 0 then max 1 ((4 * u8 r 11 + u8 r 10 - 1) / u8 r 10) else if u8 r 11 = 0 then 2 else u8 r 11 * 80000

/-- `t` is a sampling instant of input `k`: 90 µs into a window, or any I5 cycle (R272). -/
def diSampled (r : Bytes) (k t : Nat) : Bool := u8 r 9 != 0 || (t + u8 r 10 * 62500) % (u8 r 10 * 62500) == 500 * k + 22500

/-- The samples up to `t` are enough to accept another level (R273). -/
def diFiltered (r : Bytes) (u : DiChan) (t : Nat) : Bool :=
  decide ((if u.accepted then diSamples r else diSamples r - 1) * diPer r < 8 * (t - u.since + 1))

/-- DI_CHANGE_ACCEPTED: level `lvl` has passed the filter with the sample at `t` (R272, R273). -/
def diAccept (k : Nat) (lvl : Bool) (t : Nat) (n : Node) : Node :=
  let r := n.recOf 0x0E k
  let u := n.diC k
  if !(n.inForce && recOn r && diSampled r k t && diFiltered r u t) then n
  else if !u.accepted then setDi k { u with accepted := true, level := lvl, since := t } n
  else if u.level == lvl then n
  else recOcc 5 k <| raiseIf (recBit r 12 1) 64
    (setDi k { u with level := lvl, chg := true, cnt := u.cnt + 1#32, ts := wd t, since := t } n)

/-- DI_OPEN_WIRE: 20 ms below, or at or above, 0.15 mA (R274, R275). -/
def diOpenWire (k : Nat) (opn : Bool) (n : Node) : Node :=
  let r := n.recOf 0x0E k
  let u := n.diC k
  if !(n.inForce && recOn r && recBit r 12 0 && n.carries) || u.opn == opn then n
  else raiseIf opn 65 (setDi k { u with opn := opn, owSeen := u.owSeen || opn } n)

/-- DI_GROUP_OT (R276). -/
def diOt (g : Nat) (on : Bool) (n : Node) : Node := { n with dig.ot := setBitW n.dig.ot g on }

/-- STATE and BAD bits of group g. -/
def diGroupBits (n : Node) (g : Nat) : Nat :=
  (List.range 8).foldl (fun a j =>
    a + b2n (diState n (8 * g + j)) * 2 ^ j + b2n (n.chOn 0x0E (8 * g + j) && diBad n (8 * g + j)) * 2 ^ (8 + j)) 0

def diGroupOn (n : Node) (g : Nat) : Bool := (List.range 8).any (fun j => n.chOn 0x0E (8 * g + j))

/-- A group delivers its record (R277, R278). -/
def diRecord (t : Nat) (n : Node) (g : Nat) : Node :=
  if !diGroupOn n g then n
  else
    let valid := (List.range 8).any (fun j => n.chOn 0x0E (8 * g + j) && !diBad n (8 * g + j))
    let w := wd (b2n (bitOf n.dig.ot g) * 65536 + diGroupBits n g)
    complete (108 + g) 0 [{ addr := 0x4300 + 8 * g, value := w, q := mkQ valid false false false false false }] t
      { n with dig.diDirty := setBitW n.dig.diDirty g false }

/-- Changes of STATE or BAD are remembered until the next fine tick (R277). -/
def diSync (n : Node) : Node :=
  (List.range 6).foldl (fun m g =>
    let b := diGroupBits m g
    if tget 0 m.dig.diSeen g = b then m
    else { m with dig.diSeen := tset 0 m.dig.diSeen g b, dig.diDirty := setBitW m.dig.diDirty g true }) n

/-! ### Interlock matrix (R288 to R292) -/

def ilKey (r : Bytes) : Nat := u16 r 0
def ilOr (r : Bytes) : Bool := recBit r 2 0
def ilForceOn (r : Bytes) : Bool := recBit r 2 1
def ilLatch (r : Bytes) : Bool := recBit r 2 2
def ilLits (r : Bytes) : List Nat := (List.range (min 8 (u8 r 3))).map (fun i => u8 r (4 + i))
def ilDoMask (r : Bytes) : Word := w32 r 12
def ilSvMask (r : Bytes) : Nat := u16 r 16
def ilSrc (r : Bytes) : Nat := u8 r 18 / 64
def ilCh (r : Bytes) : Nat := u8 r 18 % 64

/-- The terms of the image in force. -/
def Node.terms (n : Node) : List Bytes := n.recs 0x07 1

/-- Conditions under which a comparator takes BADVAL (R289). -/
def ilCmpBad (n : Node) (r : Bytes) : Bool :=
  let c := ilCh r
  if ilSrc r = 1 then
    let u := n.uiC c
    u.failed || n.miswired c || excBad n (n.recOf 1 c) || u.cjBad || !u.published
  else !(n.caC c).connected || !bitOf n.il.caSeen c

/-- Comparator decision on a measured value, everything scaled by `k`; `h` is the hysteresis in 1/k units (R289). -/
def ilCompare (r : Bytes) (was : Bool) (x k h : Int) : Bool :=
  let lim := i32 r 20
  if recBit r 19 0 then (if was then decide (x * k < lim * k + h) else decide (x < lim))
  else (if was then decide (lim * k - h < x * k) else decide (lim < x))

def setCmp (t : Nat) (b : Bool) (n : Node) : Node := { n with il.cmp := setBitW n.il.cmp t b }

/-- A settled UI conversion of channel c with reading x reaches its comparators. -/
def ilUi (c : Nat) (x : Int) (n : Node) : Node :=
  n.terms.foldl (fun m r =>
    if ilSrc r == 1 && ilCh r == c && !ilCmpBad m r then
      setCmp (ilKey r) (ilCompare r (bitOf m.il.cmp (ilKey r)) x 8000 (uiSpan4 (m.recOf 1 c) : Nat)) m
    else m) n

/-- A sample of charge channel c with q − q_0 = x fC reaches its comparators. -/
def ilCa (c : Nat) (x : Int) (n : Node) : Node :=
  let n1 : Node := { n with il.caSeen := setBitW n.il.caSeen c true }
  n1.terms.foldl (fun m r =>
    if ilSrc r == 2 && ilCh r == c && !ilCmpBad m r then
      setCmp (ilKey r) (ilCompare r (bitOf m.il.cmp (ilKey r)) x 2000 (caFs (m.caC c).range : Nat)) m
    else m) n1

/-- A literal (R288, R293). -/
def ilLit (n : Node) (l : Nat) : Bool :=
  let v := l % 64
  let b := if l / 64 % 2 = 1 then bitOf n.il.cmp v else diState n v && !diBad n v
  b != decide (128 ≤ l)

/-- Every input that the literals name has accepted its first level (R288). -/
def ilReady (n : Node) (r : Bytes) : Bool := (ilLits r).all (fun l => l / 64 % 2 == 1 || (n.diC (l % 64)).accepted)

def ilExpr (n : Node) (r : Bytes) : Bool :=
  if ilOr r then (ilLits r).any (ilLit n) else (ilLits r).all (ilLit n)

/-- One term is evaluated (R288, R290, R292). -/
def ilTerm (n : Node) (r : Bytes) : Node :=
  let t := ilKey r
  if !ilReady n r then { n with il.active := setBitW n.il.active t false }
  else
    let on := ilExpr n r
    let was := bitOf n.il.active t || bitOf n.il.carry t
    let trips := on && !was && !bitOf n.il.latched t
    let n1 : Node := { n with il.active := setBitW n.il.active t on, il.carry := setBitW n.il.carry t false,
                              il.latched := if on && !was && ilLatch r then setBitW n.il.latched t true else n.il.latched }
    if trips then
      recNote 9 2 none <| raise 70 { n1 with il.tripped := setBitW n1.il.tripped t true, il.last := wd (t * 2 ^ 24 + n1.scan.toNat % 2 ^ 24) }
    else n1

/-- The matrix is evaluated in every I5 cycle, hence after every command (R288). -/
def ilEval (n : Node) : Node :=
  if !n.inForce then n
  else
    let seen : Word := (List.range 16).foldl (fun w c => if (n.caC c).connected then w else setBitW w c false) n.il.caSeen
    let n1 : Node := { n with il.caSeen := seen }
    let n2 := n1.terms.foldl (fun m r => if ilSrc r != 0 && ilCmpBad m r then setCmp (ilKey r) (recBit r 19 1) m else m) n1
    n2.terms.foldl ilTerm n2

/-- A term forces: ACTIVE, or LATCHED (R290). -/
def ilForces (n : Node) (r : Bytes) : Bool := bitOf n.il.active (ilKey r) || bitOf n.il.latched (ilKey r)

/-- A term forces DO k off, or on. -/
def ilDo (n : Node) (k : Nat) (on : Bool) : Bool :=
  n.inForce && n.terms.any (fun r => ilForces n r && bitOf (ilDoMask r) k && ilForceOn r == on)

/-- A term forces SV k off. -/
def ilSv (n : Node) (k : Nat) : Bool :=
  n.inForce && n.terms.any (fun r => ilForces n r && (ilSvMask r / 2 ^ k) % 2 == 1)

/-- Write of IL_RESET (R290). -/
def ilResetWrite (v : Word) (n : Node) : Node :=
  { n with il.latched := n.il.latched &&& ~~~ (v &&& ~~~ n.il.active), il.refused := n.il.refused ||| (v &&& n.il.active) }

/-- A new image is applied over a restart (R292): latches stand where the new image latches the same term; ACTIVE terms
do not trip again. -/
def ilApply (n : Node) : Node :=
  let keep : Word := n.terms.foldl (fun w r => if ilLatch r then setBitW w (ilKey r) true else w) 0#32
  { n with il.latched := n.il.latched &&& keep, il.carry := n.il.active, il.active := 0#32, il.cmp := 0#32, il.caSeen := 0#32 }

/-! ### Digital outputs (R280 to R287) -/

/-- FP_OK of group f: above 16 V (R287). -/
def fpOk (n : Node) (f : Nat) : Bool := decide (16000 < tget 0 n.dig.fpMv f)

/-- Safe state of an output (R93 to R95). -/
def doSafeVal (r : Bytes) (u : DoChan) : Bool :=
  match doSafe r with
  | 1 => true
  | 2 => u.held.getD false
  | _ => false

/-- Commanded value by SRC (R280, R281). -/
def doCommand (n : Node) (k : Nat) : Bool :=
  let r := n.recOf 0x0A k
  let u := n.doC k
  match doSrc r with
  | 0 => u.cmd
  | 1 => if u.laneOff then doSafeVal r u else u.tpOn
  | 2 => u.ws
  | _ => u.pulse

/-- The output is a lane's target and the lane is OFF or does not run: its own safe state applies (R367). -/
def doLaneSafe (n : Node) (k : Nat) : Bool :=
  doSrc (n.recOf 0x0A k) == 1 && ((n.doC k).laneOff || !n.running)

/-- The commanded value as DO_STATUS shows it (R296): none of a lane that is OFF or does not run. -/
def doCommanded (n : Node) (k : Nat) : Bool := doCommand n k && !doLaneSafe n k

/-- What rows 5 to 7 of R282 ask of the pin, protection and forcing apart. -/
def doAsk (n : Node) (k : Nat) : Bool :=
  let r := n.recOf 0x0A k
  if !recOn r || !n.inForce then false else if !n.running then doSafeVal r (n.doC k) else doCommand n k

/-- The pin by R282; while the hold latches are engaged the state is held, a compare pulse cut (R457, R459). -/
def doWant (n : Node) (k : Nat) : Bool :=
  let u := n.doC k
  if n.dup.latched then u.on && doSrc (n.recOf 0x0A k) != 3
  else if !n.outputsOn || u.overload || u.overtemp then false
  else if ilDo n k false then false
  else if ilDo n k true then true
  else doAsk n k

/-- FAULT bit of an output (R287). -/
def doFault (n : Node) (k : Nat) : Bool :=
  let u := n.doC k
  n.chOn 0x0A k && (!fpOk n (k / 8) || u.overload || u.overtemp || u.openOn || u.openOff || u.darkFail)

def doGroupBits (n : Node) (f : Nat) : Nat :=
  (List.range 8).foldl (fun a j => a + b2n (bitOf n.dig.pins (8 * f + j)) * 2 ^ j + b2n (doFault n (8 * f + j)) * 2 ^ (8 + j)) 0

/-- An output group delivers its record (R287). -/
def doRecord (t : Nat) (n : Node) (f : Nat) : Node :=
  let ok := fpOk n f
  let w := wd (b2n ok * 65536 + doGroupBits n f)
  complete (114 + f) 0 [{ addr := 0x4600 + 8 * f, value := w, q := mkQ ok false false false false false }] t
    { n with dig.doDirty := setBitW n.dig.doDirty f false }

/-- One output follows R282; HOLD takes the pin's value as the safe state comes to apply (R95); OVERLOAD clears where
the commanded value and every forcing term are off and it did not arise while forced on (R283). -/
def doStep (n : Node) (k : Nat) : Node :=
  let u := n.doC k
  let u1 : DoChan := if n.dig.driving && !n.driving && u.driven then { u with held := some u.on } else u
  let u2 : DoChan := if u.overload && !u.ovlForced && !doCommanded n k && !ilDo n k true && !ilDo n k false
    then { u1 with overload := false } else u1
  let w := doWant (setDo k u2 n) k
  let u3 : DoChan := { u2 with driven := u2.driven || (n.driving && n.chOn 0x0A k) }
  recOccIf (w && !u.on) 1 k (setDo k (if w == u.on then u3 else { u3 with on := w, chgAt := n.now }) n)

/-- Every output is decided anew after every command; group changes are remembered until the next fine tick. -/
def doSync (n : Node) : Node :=
  let n1 := (List.range 32).foldl doStep n
  let n2 : Node := { n1 with dig.driving := n1.driving }
  (List.range 4).foldl (fun m f =>
    let b := doGroupBits m f
    if tget 0 m.dig.doSeen f = b then m
    else { m with dig.doSeen := tset 0 m.dig.doSeen f b, dig.doDirty := setBitW m.dig.doDirty f true }) n2

/-- Write of DO_CMD by host or sequencer (R280, R296). -/
def doCmdWrite (k : Nat) (on : Bool) (n : Node) : Node :=
  if doSrc (n.recOf 0x0A k) = 0 then modDo k (fun u => { u with cmd := on }) n
  else modDo k (fun u => { u with refused := true }) n

/-- A time-proportioning cycle starts at DEVTIME `t` (R281): on part, MINP rules, next start. -/
def tpStart (k t : Nat) (n : Node) : Node :=
  let r := n.recOf 0x0A k
  let u := n.doC k
  if !(n.driving && recOn r && doSrc r == 1 && decide (u.tpNext ≤ t)) then n
  else
    let cyc := doTpCyc r * 25000000
    let on := (divRound (clampI 0 1000000 u.laneD * (cyc : Nat)) 1000000).toNat
    let off := cyc - on
    let mp := doW r * 250000
    let on' := if on < mp ∧ off < mp then (if off < on then cyc else 0)
      else if on < mp then 0 else if off < mp then cyc else on
    let edge : Option Nat := if 0 < on' ∧ on' < cyc then some (t + on') else none
    setDo k { u with tpOn := decide (0 < on'), tpOff := edge, tpNext := t + cyc } n

/-- TP_OFF_EDGE: the on part ends. -/
def tpOffEdge (k t : Nat) (n : Node) : Node :=
  match (n.doC k).tpOff with
  | some e => if e ≤ t then modDo k (fun u => { u with tpOn := false, tpOff := none }) n else n
  | none => n

/-- Time proportioning begins anew at the entry to RUN, at DEVTIME `t`. -/
def tpRunEntry (t : Nat) (n : Node) : Node :=
  (List.range 32).foldl (fun m k => tpStart k t (modDo k (fun u => { u with tpOn := false, tpOff := none, tpNext := t, laneD := 0 }) m)) n

/-- The lane that drives an output: its output in ppm, or that it is OFF, where HOLD takes the pin's value (R95, R281, R367). -/
def doLane (k : Nat) (ppm : Int) (off : Bool) (n : Node) : Node :=
  modDo k (fun u => { u with laneD := ppm, laneOff := off, held := if off && !u.laneOff && u.driven then some u.on else u.held }) n

/-- HOLD keeps the value present at COMMIT, where a commanded value has been driven since the reset (R95, R98). -/
def doHoldCommit (n : Node) : Node :=
  (List.range 32).foldl (fun m k => modDo k (fun u => { u with held := if u.driven then some u.on else none }) m) n

/-- "pulse on a DO" compare action (R280). -/
def doPulse (k t : Nat) (n : Node) : Node :=
  let r := n.recOf 0x0A k
  if n.driving && recOn r && doSrc r == 3 then modDo k (fun u => { u with pulse := true, pulseEnd := t + doW r * usPer }) n else n

/-- DO_PULSE_END. -/
def doPulseEnd (k t : Nat) (n : Node) : Node :=
  let u := n.doC k
  if u.pulse && decide (u.pulseEnd ≤ t) then setDo k { u with pulse := false } n else n

/-- DO_OVERLOAD: 5 ms in limit (R283). -/
def doOverload (k : Nat) (n : Node) : Node :=
  let u := n.doC k
  if u.on then recOcc 4 k <| raise 67 (setDo k { u with overload := true, ovlForced := ilDo n k true } n) else n

/-- DO_OVERTEMP (R284). -/
def doOvertemp (k : Nat) (n : Node) : Node :=
  let u := n.doC k
  if n.isRun 5 && !u.overtemp then raise 69 (setDo k { u with overtemp := true, otSeen := true } n) else n

/-- DO_OVERTEMP_CLEAR (R284). -/
def doOvertempClear (k : Nat) (n : Node) : Node := modDo k (fun u => { u with overtemp := false }) n

/-- Open-wire checks run (R285). -/
def doChecks (n : Node) (k t : Nat) : Bool :=
  let u := n.doC k
  n.inForce && n.carries && fpOk n (k / 8) && !u.overload && !u.overtemp && decide (u.chgAt + 25000000 ≤ t)

/-- DO_OPEN_WIRE: 100 ms of a reading (`opn`) or of the opposite; `which` is the check with the output off. -/
def doOpenWire (k : Nat) (which opn : Bool) (t : Nat) (n : Node) : Node :=
  let r := n.recOf 0x0A k
  let u := n.doC k
  if !(recOn r && recBit r 10 (if which then 2 else 1) && u.on == !which && doChecks n k t) then n
  else if which then raiseIf (opn && !u.openOff) 68 (setDo k { u with openOff := opn } n)
  else raiseIf (opn && !u.openOn) 68 (setDo k { u with openOn := opn } n)

/-- DARK_TEST: an on output is opened for 200 µs (R286). -/
def darkTest (k t : Nat) (n : Node) : Node :=
  let r := n.recOf 0x0A k
  let u := n.doC k
  let due := match u.darkAt with
    | some a => decide (a + doDtPer r * secPer ≤ t)
    | none => true
  if recOn r && recBit r 10 0 && n.inForce && u.on && !u.pulse && !u.dark && due then
    setDo k { u with dark := true, darkEnd := t + 50000, darkAt := some t } n
  else n

/-- DARK_TEST_END (R286). -/
def darkEnd (k : Nat) (fell : Bool) (t : Nat) (n : Node) : Node :=
  let u := n.doC k
  if u.dark && decide (u.darkEnd ≤ t) then
    raiseIf (!fell) 71 (setDo k { u with dark := false, darkFail := u.darkFail || !fell } n)
  else n

/-- FP_OK_CHANGE and the tick measurements of the field supplies (R287). -/
def fpSet (f mv : Nat) (n : Node) : Node := { n with dig.fpMv := tset 0 n.dig.fpMv f mv }

/-- Records of every group at a scan tick (R277, R287). -/
def digScan (t : Nat) (n : Node) : Node :=
  if n.acq && n.isRun 5 then (List.range 4).foldl (doRecord t) ((List.range 6).foldl (diRecord t) n) else n

/-- Records of changed groups at a fine tick that is no scan tick. -/
def digFine (t : Nat) (n : Node) : Node :=
  if n.acq && n.isRun 5 && t % scanPer != 0 then
    (List.range 4).foldl (fun m f => if bitOf m.dig.doDirty f then doRecord t m f else m)
      ((List.range 6).foldl (fun m g => if bitOf m.dig.diDirty g then diRecord t m g else m) n)
  else n

/-! ### Image and state changes -/

/-- Measured pins reach the published state; a dark test leaves it unchanged (R286, R287). -/
def pinsSet (pins : Word) (n : Node) : Node :=
  { n with dig.pins := (List.range 32).foldl (fun w k => if (n.doC k).dark then setBitW w k (bitOf n.dig.pins k) else w) pins }

/-- Inputs enabled under the old image as well keep their accepted state; of the others the first level is awaited, and what
has been counted and seen stays (R273); `oldOn` tells them. -/
def digApply (oldOn : Nat → Bool) (n : Node) : Node :=
  let n1 := (List.range 48).foldl (fun m k => if m.chOn 0x0E k && oldOn k then m
    else setDi k { m.diC k with accepted := false, level := false, opn := false, since := n.now } m) n
  ssInit ((List.range 32).foldl (fun m k =>
    modDo k (fun u => { u with tpOn := false, tpOff := none, pulse := false, dark := false, darkAt := none }) m) n1)

/-- DI_CHG_CNT counts since READY (R295). -/
def digReady (n : Node) : Node :=
  (List.range 48).foldl (fun m k => setDi k { m.diC k with cnt := 0#32 } m) n

/-! ### Registers (R295, R296) -/

def diStatusWord (n : Node) (k : Nat) : Word :=
  let u := n.diC k
  wd (b2n u.owSeen * 16 + b2n u.chg * 8 + b2n (diSsBad n k) * 4 + b2n u.opn * 2 + b2n (diState n k))

def ssStatusWord (n : Node) (s : Nat) : Word :=
  let u := n.ssC s
  wd (b2n u.ovlSeen * 8 + b2n u.overload * 4 + b2n (n.outputsOn && (!n.driving || !n.chOn 9 s) && !n.showsReset) * 2 + b2n (ssOut n s))

/-- DO_STATUS: SAFE shows where row 5 or 6 of R282, or the target's safe state of R367, decides the pin. -/
def doStatusWord (n : Node) (k : Nat) : Word :=
  let u := n.doC k
  let role := !n.outputsOn && !n.dup.latched
  let free := !role && !n.dup.latched && !u.overload && !u.overtemp
  let off := free && ilDo n k false
  let on := free && !off && ilDo n k true
  let safe := free && !off && !on && (!n.driving || !n.chOn 0x0A k || doLaneSafe n k) && !n.showsReset
  wd (b2n u.refused * 4096 + b2n u.otSeen * 2048 + b2n u.darkFail * 1024 + b2n u.openOff * 512 + b2n u.openOn * 256
    + b2n u.overtemp * 128 + b2n u.overload * 64 + b2n on * 32 + b2n off * 16 + b2n role * 8
    + b2n safe * 4 + b2n (doCommanded n k) * 2 + b2n u.on)

/-- Registers of the digital input and interlock block, DI channels apart (R295). -/
def digRead (n : Node) (addr : Nat) : Option Word :=
  if 0x4000 ≤ addr && addr < 0x4300 then
    let k := (addr - 0x4000) / 16
    match addr % 16 with
    | 0 => some (w32 (n.recOf 0x0E k) 8)
    | 4 => some (diStatusWord n k)
    | 8 => some (n.diC k).cnt
    | _ => some (n.diC k).ts
  else if 0x4340 ≤ addr && addr < 0x4370 then
    let s := (addr - 0x4340) / 8
    if addr % 8 = 0 then some (wd (b2n (n.ssC s).on)) else some (ssStatusWord n s)
  else if 0x4400 ≤ addr && addr < 0x4600 then
    let k := (addr - 0x4400) / 16
    match addr % 16 with
    | 0 => some (w32 (n.recOf 0x0A k) 8)
    | 4 => some (wd (b2n (n.doC k).cmd))
    | 8 => some (doStatusWord n k)
    | _ => some (wd (n.doC k).mA)
  else if 0x4640 ≤ addr && addr < 0x4650 then
    let f := (addr - 0x4640) / 4
    some (wd (b2n (fpOk n f) * 2 ^ 31 + (tget 0 n.dig.fpMv f / 10) % 65536))
  else match addr with
    | 0x4380 => some n.il.active
    | 0x4384 => some n.il.latched
    | 0x438C => some n.il.tripped
    | 0x4390 => some n.il.refused
    | 0x4394 => some n.il.last
    | 0x4398 => some n.il.cmp
    | _ => none

def digWrite (addr : Nat) (v : Word) (n : Node) : Node :=
  if 0x4000 ≤ addr && addr < 0x4300 then
    let k := (addr - 0x4000) / 16
    let u := n.diC k
    if addr % 16 = 4 then setDi k { u with owSeen := u.owSeen && !bitOf v 4, chg := u.chg && !bitOf v 3 } n else n
  else if 0x4340 ≤ addr && addr < 0x4370 then
    let s := (addr - 0x4340) / 8
    if addr % 8 = 0 then ssCtrlWrite s v n else setSs s { n.ssC s with ovlSeen := (n.ssC s).ovlSeen && !bitOf v 3 } n
  else if 0x4400 ≤ addr && addr < 0x4600 then
    let k := (addr - 0x4400) / 16
    match addr % 16 with
    | 4 => doCmdWrite k (bitOf v 0) n
    | 8 => modDo k (fun u => { u with refused := u.refused && !bitOf v 12, otSeen := u.otSeen && !bitOf v 11,
                                      darkFail := u.darkFail && !bitOf v 10, overload := u.overload && !bitOf v 6 }) n
    | _ => n
  else match addr with
    | 0x4388 => ilResetWrite v n
    | 0x438C => { n with il.tripped := w1c n.il.tripped v }
    | 0x4390 => { n with il.refused := w1c n.il.refused v }
    | _ => n

end Sys2Proof.Machine
end

