-- ==== Sys2Proof/Machine/Shaped.lean ====
section
/-! DEFINITION. Shaped outputs, the shaper's contexts and its microcode (spec/11 R297 to R322). -/

namespace Sys2Proof.Machine
open Sys2Proof

def Node.svC (n : Node) (k : Nat) : SvChan := tget {} n.shp.sv k
def setSv (k : Nat) (u : SvChan) (n : Node) : Node := { n with shp.sv := tset {} n.shp.sv k u }
def modSv (k : Nat) (f : SvChan → SvChan) (n : Node) : Node := setSv k (f (n.svC k)) n
def Node.hbC (n : Node) (k : Nat) : Bank := tget {} n.shp.hb k
def setHb (k : Nat) (u : Bank) (n : Node) : Node := { n with shp.hb := tset {} n.shp.hb k u }
def Node.pfC (n : Node) (k : Nat) : PfChan := tget {} n.pf k

/-! ### Records (R322) -/

def svSrc (r : Bytes) : Nat := u8 r 9
def svDefProf (r : Bytes) : Nat := u8 r 10
def svBand (r : Bytes) : Nat := 10 * u8 r 11
def svDurDef (r : Bytes) : Nat := u32 r 12
def svLaneIdx (r : Bytes) : Nat := u16 r 16
def svHoldMax (r : Bytes) : Nat := u16 r 18
def hbLim (r : Bytes) : Nat := u16 r 10
def hbStagMax (r : Bytes) : Nat := u16 r 12

/-- The other channel of the bank. -/
def svSib (k : Nat) : Nat := if k % 2 = 0 then k + 1 else k - 1

/-- Instruction i of a profile of a bank; 0 (END) past its length, and where the profile has no record (R308). -/
def svInstr (n : Node) (bank prof i : Nat) : Word := w32 ((n.keyed 0x08 1 (bank * 16 + prof)).getD []) (8 + 4 * i)

def svHasProf (n : Node) (bank prof : Nat) : Bool := (n.keyed 0x08 1 (bank * 16 + prof)).isSome

/-- Position VALID of an interface (R336). -/
def pfValid (n : Node) (f : Nat) : Bool :=
  let u := n.pfC f
  let r := n.recOf 0x0D f
  !u.lost && !n.miswired (112 + f) && !(recBit r 9 2 && u.noref)

/-! ### Switch states (R298, R299) -/

/-- A switch state asks for HBk. -/
def swDemand : SvSw → Bool
  | .energise => true | .fast => true | _ => false

/-- The channel calls for slow decay while its sibling holds HBk on (R299). -/
def svSub (n : Node) (k : Nat) : Bool := (n.svC k).sw == .slow && swDemand (n.svC (svSib k)).sw

/-- HBk is on. -/
def hbOn (n : Node) (b : Nat) : Bool := (swDemand (n.svC (2 * b)).sw || swDemand (n.svC (2 * b + 1)).sw) && !(n.hbC b).oc

def svStalled (u : SvChan) : Bool := match u.wait with | .stall _ => true | _ => false

/-- After a change on a bank: SUB_SEEN latches on both channels (R299), and a stall ends where the sibling has left PEAK
(R315). -/
def svSubMark (b : Nat) (n : Node) : Node :=
  let mark (k : Nat) (m : Node) : Node := if svSub m k then modSv k (fun u => { u with subSeen := true }) m else m
  let free (k : Nat) (m : Node) : Node :=
    if svStalled (m.svC k) && (m.svC (svSib k)).phase != 1 then modSv k (fun u => { u with wait := .freed }) m else m
  free (2 * b + 1) (free (2 * b) (mark (2 * b + 1) (mark (2 * b) n)))

/-! ### Results (R319) -/

/-- The bank's record at an END or abort of channel k: the entry of k is new, the other repeats. -/
def svRecord (k t : Nat) (n : Node) : Node :=
  let b := k / 2
  let e (j : Nat) : Entry := { addr := 0x4C00 + b * 0x40 + 8 * j, value := (n.svC (2 * b + j)).last, q := (n.svC (2 * b + j)).lastQ }
  complete (118 + b) 0 [e 0, e 1] t n

/-- The context leaves its profile: switch off, IDLE, loop counter freed. -/
def svIdle (t : Nat) (u : SvChan) : SvChan :=
  { u with running := false, phase := 0, wait := .none, loopN := 0, loopAt := none, lim := none, src1 := false,
           tgt20 := 0, goal20 := 0, dec := .slow, sw := .off, swAt := if u.sw == .off then u.swAt else t }

/-- An abort (R318, R319). -/
def svAbort (k t : Nat) (n : Node) : Node :=
  let u := n.svC k
  let u1 : SvChan := { svIdle t u with queue := none }
  if u.running then svSubMark (k / 2) (svRecord k t (setSv k { u1 with lastQ := 0#8 } n)) else setSv k u1 n

/-! ### Firing (R309 to R314) -/

/-- The channel is shut off by protection, forcing, state or an absent record (R313). -/
def svRefuses (n : Node) (k : Nat) : Bool :=
  let u := n.svC k
  u.oc || (n.hbC (k / 2)).oc || u.forcedOff || ilSv n k || !n.running || !n.isRun 5 || !n.chOn 0x0B k

/-- A run starts at `t` (R303, R305, R320); a profile without a record is an illegal run (R309). -/
def svStart (k prof dur t rank : Nat) (n : Node) : Node :=
  let u := n.svC k
  let u1 : SvChan := { u with running := true, phase := 1, prof := prof, pc := 0, wait := .none, loopN := 0, loopAt := none, fireAt := t,
                              endAt := t + dur * usPer, tgt20 := 0, goal20 := 0, lim := none, src1 := false, dec := .slow,
                              sw := .off, fireBy := rank, queue := none, fExt := false, fWaited := false, fLimited := false,
                              fPx := false, marks := [], pub := none, bad := false, fireCnt := u.fireCnt + 1#32 }
  let n1 := recOcc 2 k (setSv k u1 n)
  if svHasProf n (k / 2) prof then n1
  else raise 77 (modSv k (fun u => { u with illegal := true }) (svAbort k t n1))

/-- Two DEVTIMEs fall into one I5 cycle of 12.5 ns. -/
def sameCycle (a b : Nat) : Bool := 8 * a / 25 == 8 * b / 25

/-- The run was started in this I5 cycle by a firing that R312 puts after one of rank `rank`. -/
def svOutranks (u : SvChan) (rank t : Nat) : Bool := u.pc == 0 && u.wait == .none && sameCycle u.fireAt t && decide (rank < u.fireBy)

/-- A firing of rank 0 compare table, 1 sequencer, 2 lane or 3 register meets the channel (R313); the first row that applies
decides. Of firings in one I5 cycle the first in rank counts as the earlier, whichever comes first (R312). -/
def svFire (k prof dur t rank : Nat) (n : Node) : Node :=
  let u := n.svC k
  if !n.carries then n
  else if svRefuses n k then setSv k { u with refused := true } n
  else if u.phase == 1 || u.phase == 2 then
    let u1 : SvChan := { u with endAt := max u.endAt (t + dur * usPer), extCnt := u.extCnt + 1#32, fExt := true }
    if svOutranks u rank t then
      let n1 := setSv k { u1 with prof := prof, fireBy := rank } n
      if svHasProf n (k / 2) prof then n1
      else raise 77 (modSv k (fun u => { u with illegal := true }) (svAbort k t n1))
    else setSv k u1 n
  else if u.queue.isSome || u.phase == 3 || decide (50 ≤ u.im) then
    let later := u.queue.isSome && sameCycle u.queueAt t && decide (rank < u.queueBy)
    raise 76 (if later then n else setSv k { u with queue := some (prof, dur), queueBy := rank, queueAt := t } n)
  else svStart k prof dur t rank n

/-- QUEUED_FIRING_START: after END, at the first sense sample below 50 mA (R314). -/
def svQueued (k t : Nat) (n : Node) : Node :=
  let u := n.svC k
  match u.queue with
  | some (prof, dur) => if u.running || decide (50 ≤ u.im) || svRefuses n k || !n.carries then n else svStart k prof dur t 0 n
  | none => n

/-- A lane with SRC = 1 acts at an evaluation (R311). -/
def svLane (k : Nat) (ppm : Int) (period t : Nat) (n : Node) : Node :=
  let r := n.recOf 0x0B k
  if recOn r && svSrc r == 1 && decide (0 < ppm) then
    svFire k (svDefProf r) (2 * period) t 2 (modSv k (fun u => { u with htgt := (divRound (ppm * (svHoldMax r : Nat)) 1000000).toNat }) n)
  else n

/-! ### Instructions (R304 to R307) -/

def opOf (w : Word) : Nat := fld w 31 27

/-- The instruction at a context's PC. -/
def svCur (n : Node) (k : Nat) : Word := let u := n.svC k; svInstr n (k / 2) u.prof u.pc

/-- The context may execute: it runs, its island runs, and it waits for nothing (R302, R315). -/
def svReady (n : Node) (k : Nat) : Bool :=
  let u := n.svC k
  u.running && n.isRun 5 && (match u.wait with
    | .none => true
    | .freed => true
    | _ => false)

/-- The instruction at the PC has this opcode and the context may execute it. -/
def svAt (n : Node) (k op : Nat) : Bool := svReady n k && opOf (svCur n k) == op

/-- END: SVn off, IDLE, record by the table of R319. -/
def svEnd (k t : Nat) (n : Node) : Node :=
  if !svAt n k 0 then n
  else
    let u := n.svC k
    let v : Word := match u.pub with
      | some m => (satE32 (divRound (m : Nat) 10)).1
      | none => u.last
    let q := mkQ (u.pub.isSome && !u.bad) false u.bad false false false
    svSubMark (k / 2) (svRecord k t (setSv k { svIdle t u with last := v, lastQ := q } n))

/-- The context stands, free to execute, at a SETI or RAMP with PK = 1. -/
def svAtPeak (n : Node) (k : Nat) : Bool :=
  svReady n k && bitOf (svCur n k) 26 && (opOf (svCur n k) == 1 || opOf (svCur n k) == 2)

/-- Bank stagger of R315: the peak would exceed BANK_LIM beside the sibling's peak. SV2k counts as the earlier, so that the
context of SV2k + 1 meets the SETI at which SV2k stands too. DEDUCED (notes/assumptions/31.md). -/
def svClash (n : Node) (k i10 : Nat) : Bool :=
  let s := n.svC (svSib k)
  let w := svCur n (svSib k)
  let other := if k % 2 = 1 && svAtPeak n (svSib k) && opOf w == 1 then 200 * fld w 9 0 else s.tgt20
  s.phase == 1 && decide (20 * hbLim (n.recOf 0x0C (k / 2)) < 200 * i10 + other)

/-- Limit of R316: min(I, BANK_LIM − the sibling's I_m). -/
def svLimit (n : Node) (k i : Nat) : Nat := min i (hbLim (n.recOf 0x0C (k / 2)) - (n.svC (svSib k)).im)

/-- SETI or RAMP takes effect: target, phase, and the limit of a stagger that has expired. -/
def svTarget (k : Nat) (w : Word) (limit : Bool) (n : Node) : Node :=
  let u := n.svC k
  let i := fld w 9 0
  let pk := bitOf w 26
  let ph := if pk then 1 else if 0 < i then 2 else 3
  let lim := if limit then some (svLimit n k (10 * i)) else if pk then u.lim else none
  let u1 : SvChan := { u with phase := ph, lim := lim, dec := .slow, src1 := false, goal20 := 200 * i }
  if opOf w = 1 then setSv k { u1 with tgt20 := 200 * i, wait := .none, pc := u.pc + 1 } n
  else setSv k { u1 with rate := fld w 21 10, wait := .ramp } n

/-- STAG_MAX has passed (R316): the peak proceeds limited. -/
def svExpire (k : Nat) (n : Node) : Node :=
  let b := n.hbC (k / 2)
  raise 74 (modSv k (fun u => { u with stagger := true, fLimited := true })
    (setHb (k / 2) { b with expired := satInc 65535 b.expired } (svTarget k (svCur n k) true n)))

/-- SETI or RAMP at the PC (R315): a clash of peaks stalls the context once; STAG_MAX = 0 limits at once. -/
def svPeak (k t : Nat) (n : Node) : Node :=
  let w := svCur n k
  let u := n.svC k
  let b := n.hbC (k / 2)
  let stag := hbStagMax (n.recOf 0x0C (k / 2))
  if bitOf w 26 && u.wait == .none && svClash n k (fld w 9 0) then
    let n1 := setHb (k / 2) { b with stalls := satInc 65535 b.stalls }
      (setSv k { u with wait := .stall (t + stag * usPer), fWaited := true } n)
    if stag = 0 then svExpire k n1 else n1
  else svTarget k w false n

def svSeti (k t : Nat) (n : Node) : Node := if svAt n k 1 then svSubMark (k / 2) (svPeak k t n) else n
def svRamp (k t : Nat) (n : Node) : Node := if svAt n k 2 then svSubMark (k / 2) (svPeak k t n) else n

/-- STAGGER_EXPIRY. -/
def svStagger (k t : Nat) (n : Node) : Node :=
  match (n.svC k).wait with
  | .stall e => if e ≤ t && n.isRun 5 then svSubMark (k / 2) (svExpire k n) else n
  | _ => n

def svWaitt (k t : Nat) (n : Node) : Node :=
  if svAt n k 3 then modSv k (fun u => { u with wait := .till (t + fld (svCur n k) 23 0 * 25) }) n else n

def svWaiti (k t : Nat) (n : Node) : Node :=
  let w := svCur n k
  if svAt n k 4 then
    modSv k (fun u => { u with wait := .current (bitOf w 26) (10 * fld w 9 0) (t + fld w 19 10 * 2500) (fld w 25 20) }) n
  else n

def svWaitp (k : Nat) (n : Node) : Node :=
  let w := svCur n k
  let f := fld w 26 24
  if svAt n k 5 then modSv k (fun u => { u with wait := .position f (fld w 22 0) (n.pfC f).c }) n else n

/-- HOLD: for T, or until the command end; one whose command end has passed completes at once (R304). -/
def svHold (k t : Nat) (n : Node) : Node :=
  let w := svCur n k
  let u := n.svC k
  if !svAt n k 6 then n
  else
    let ext := bitOf w 26
    let tgt := if bitOf w 25 then 20 * u.htgt else 200 * fld w 9 0
    let done := ext && decide (u.endAt ≤ t)
    let u1 : SvChan := { u with phase := 2, lim := none, tgt20 := tgt, goal20 := tgt, src1 := bitOf w 25, dec := if bitOf w 24 then .fast else .slow }
    svSubMark (k / 2) (setSv k (if done then { u1 with wait := .none, pc := u.pc + 1 }
      else { u1 with wait := .hold (if ext then none else some (t + fld w 23 10 * 2500)) }) n)

/-- Target 0 in a decay mode; completes at once (FREEW, QUENCH). -/
def svDecay (k : Nat) (sw : SvSw) (t : Nat) (n : Node) : Node :=
  svSubMark (k / 2) (modSv k (fun u => { u with phase := 3, lim := none, tgt20 := 0, goal20 := 0, src1 := false, sw := sw, dec := sw, swAt := t,
                                                wait := .none, pc := u.pc + 1 }) n)

def svFreew (k t : Nat) (n : Node) : Node :=
  if svAt n k 7 then svDecay k (if bitOf (svCur n k) 26 then .fast else .slow) t n else n

def svQuench (k t : Nat) (n : Node) : Node := if svAt n k 8 then svDecay k .quench t n else n

/-- MARK: the time since firing in 100 ns into a slot; PUB selects it for the result. -/
def svMark (k t : Nat) (n : Node) : Node :=
  let w := svCur n k
  if svAt n k 9 then
    modSv k (fun u =>
      let m := (t - u.fireAt) / 25
      { u with marks := tset 0 u.marks (fld w 1 0) m, pub := if bitOf w 8 then some m else u.pub, wait := .none, pc := u.pc + 1 }) n
  else n

/-- JIF flags of R305. -/
def svFlags (n : Node) (k : Nat) : Nat :=
  let u := n.svC k
  b2n u.fExt + b2n u.queue.isSome * 2 + b2n u.fWaited * 4 + b2n u.fLimited * 8 + b2n u.fPx * 16
    + b2n ((n.svC (svSib k)).phase != 0) * 32 + ((n.hbC (k / 2)).gpf / (if k % 2 = 0 then 1 else 4)) % 4 * 64

def svJif (k : Nat) (n : Node) : Node :=
  let w := svCur n k
  let hit := (Nat.land (svFlags n k) (fld w 25 18) != 0) != bitOf w 26
  if svAt n k 10 then modSv k (fun u => { u with wait := .none, pc := if hit then fld w 5 0 else u.pc + 1 }) n else n

/-- The run is illegal: abort, ILLEGAL, event 77 (R309). -/
def svIllegal (k t : Nat) (n : Node) : Node :=
  raise 77 (modSv k (fun u => { u with illegal := true }) (svAbort k t n))

/-- The LOOP at the PC finds the counter bound to another address (R309). -/
def svLoopBad (n : Node) (k : Nat) : Bool :=
  let u := n.svC k
  match u.loopAt with
  | some a => a != u.pc
  | none => false

/-- LOOP (R306): the counter is loaded with N − 1 by the first arrival and freed at the end. -/
def svLoop (k t : Nat) (n : Node) : Node :=
  let w := svCur n k
  if !svAt n k 11 then n
  else if svLoopBad n k then svIllegal k t n
  else modSv k (fun u =>
    let cnt := match u.loopAt with
      | some _ => u.loopN
      | none => fld w 17 8 - 1
    if 0 < cnt then { u with loopAt := some u.pc, loopN := cnt - 1, wait := .none, pc := fld w 5 0 }
    else { u with loopAt := none, loopN := 0, wait := .none, pc := u.pc + 1 }) n

def svFlag (k : Nat) (n : Node) : Node :=
  let w := svCur n k
  if svAt n k 12 then
    raise 75 (modSv k (fun u => { u with uflag := setBitW u.uflag (fld w 3 0) true, bad := u.bad || bitOf w 8, wait := .none,
                                         pc := u.pc + 1 }) n)
  else n

/-- ILLEGAL_INSTRUCTION: the context stands at a LOOP while its counter is bound to another address, or at an opcode from
0x0D on (R304, R309). -/
def svIllegalAt (k t : Nat) (n : Node) : Node :=
  let op := opOf (svCur n k)
  if svReady n k && ((op == 11 && svLoopBad n k) || decide (13 ≤ op)) then svIllegal k t n else n

/-! ### Ends of waits -/

def svNext (u : SvChan) : SvChan := { u with wait := .none, pc := u.pc + 1 }

def svWaittEnd (k t : Nat) (n : Node) : Node :=
  match (n.svC k).wait with
  | .till e => if e ≤ t then modSv k svNext n else n
  | _ => n

def svWaitiMet (k : Nat) (n : Node) : Node :=
  let u := n.svC k
  match u.wait with
  | .current dir i _ _ => if (if dir then decide (u.im ≤ i) else decide (i ≤ u.im)) then setSv k (svNext u) n else n
  | _ => n

def svWaitiTmo (k t : Nat) (n : Node) : Node :=
  match (n.svC k).wait with
  | .current _ _ e tgt => if e ≤ t then modSv k (fun u => { u with wait := .none, pc := tgt }) n else n
  | _ => n

def svWaitpDone (k : Nat) (n : Node) : Node :=
  match (n.svC k).wait with
  | .position f cnt s => if cnt ≤ (((n.pfC f).c - s).toInt).natAbs then modSv k svNext n else n
  | _ => n

/-- R307: the position is not VALID, or STILL or REVERSAL stands. -/
def svWaitpEarly (k : Nat) (n : Node) : Node :=
  match (n.svC k).wait with
  | .position f _ _ =>
    if !pfValid n f || (n.pfC f).still || (n.pfC f).reversal then
      modSv k (fun u => { svNext u with fPx := true, px := true }) n else n
  | _ => n

def svHoldEnd (k t : Nat) (n : Node) : Node :=
  let u := n.svC k
  match u.wait with
  | .hold (some e) => if e ≤ t then setSv k (svNext u) n else n
  | .hold none => if u.endAt ≤ t then setSv k (svNext u) n else n
  | _ => n

def svRampDone (k : Nat) (n : Node) : Node :=
  let u := n.svC k
  if u.wait == .ramp && u.tgt20 == u.goal20 then setSv k (svNext u) n else n

/-! ### Sense samples and protection (R300, R316, R317) -/

/-- Regulation about the target (R300); an on or off interval lasts at least 1 µs. In phase DECAY the channel takes the decay
mode of the instruction in force. -/
def svRegulate (band t : Nat) (u : SvChan) : SvChan :=
  let tgt := match u.lim with
    | some l => min u.tgt20 (20 * l)
    | none => u.tgt20
  let want : SvSw := if u.phase == 3 then u.dec
    else if 20 * u.im + 10 * band < tgt then .energise
    else if tgt + 10 * band < 20 * u.im then u.dec else u.sw
  if u.phase != 0 then
    if want != u.sw && decide (u.swAt + usPer ≤ t) then { u with sw := want, swAt := t } else u
  else u

/-- SENSE_SAMPLE: the current of a channel is sampled (R300, R304, R311, R314, R316). -/
def svSense (k mA t : Nat) (n : Node) : Node :=
  if !n.isRun 5 then n
  else
    let u := n.svC k
    let tgt := if u.src1 then 20 * u.htgt
      else match u.wait with
        | .ramp => if u.tgt20 ≤ u.goal20 then min u.goal20 (u.tgt20 + u.rate) else max u.goal20 (u.tgt20 - u.rate)
        | _ => u.tgt20
    let n1 := setSv k { u with im := mA, tgt20 := tgt } n
    let lim := u.lim.map (fun _ => svLimit n1 k (u.goal20 / 20))
    let n2 := modSv k (fun u => svRegulate (svBand (n.recOf 0x0B k)) t { u with lim := lim }) n1
    svQueued k t (svSubMark (k / 2) n2)

/-- SV_OVER_CURRENT: above 8 A (R317). -/
def svOverCurrent (k t : Nat) (n : Node) : Node :=
  if n.isRun 5 then recOcc 3 k <| raise 72 (modSv k (fun u => { u with oc := true }) (svAbort k t n)) else n

/-- BANK_OVER_CURRENT: above 12 A (R317). -/
def bankOverCurrent (b t : Nat) (n : Node) : Node :=
  if n.isRun 5 then recOcc 3 (2 * b + 1) <| recOcc 3 (2 * b) <| raise 73 (setHb b { n.hbC b with oc := true } (svAbort (2 * b + 1) t (svAbort (2 * b) t n))) else n

/-- A run ends without a record, as the role takes the channel off (R459). -/
def svDrop (k t : Nat) (n : Node) : Node :=
  svSubMark (k / 2) (setSv k { svIdle t (n.svC k) with queue := none } n)

/-- Runs end where an interlock term, the device state or the role takes the channel off, and a command queued behind a run
that has ended is discarded (R318). -/
def svSync (n : Node) : Node :=
  (List.range 16).foldl (fun m k =>
    let u := m.svC k
    let cause := ilSv m k || !m.driving
    if u.running && cause then modSv k (fun u => { u with forcedOff := true }) (if m.carries then svAbort k m.now m else svDrop k m.now m)
    else if u.queue.isSome && cause then setSv k { u with queue := none } m
    else if u.forcedOff && !cause then setSv k { u with forcedOff := false } m else m) n

/-! ### Registers (R320, R321) -/

def svFireWrite (k : Nat) (v : Word) (n : Node) : Node :=
  if bitOf v 8 then svFire k (fld v 3 0) (n.svC k).dur n.now 3 n else n

/-- SV_HTGT: refused for SRC 1; a value above 2,000 is refused as well (notes/assumptions/31.md). -/
def svHtgtWrite (k : Nat) (v : Word) (n : Node) : Node :=
  modSv k (fun u => if svSrc (n.recOf 0x0B k) == 1 || decide (2000 < v.toNat) then { u with refused := true }
    else { u with htgt := v.toNat }) n

/-- FORCED_OFF as shown (R318). -/
def svForced (n : Node) (k : Nat) : Bool := (n.svC k).forcedOff || ilSv n k

def svStatusWord (n : Node) (k : Nat) : Word :=
  let u := n.svC k
  wd (b2n u.refused * 32768 + b2n u.illegal * 16384 + b2n u.oc * 8192 + b2n u.stagger * 4096 + b2n u.subSeen * 2048 + b2n u.px * 1024
    + b2n (svSub n k) * 128 + b2n u.queue.isSome * 64 + b2n (svForced n k) * 32 + b2n (!n.outputsOn) * 16
    + b2n (n.outputsOn && (!n.driving || !n.chOn 0x0B k || svForced n k) && !n.showsReset) * 8 + u.phase * 2 + b2n u.running)

def svRead (n : Node) (k off : Nat) : Option Word :=
  let u := n.svC k
  match off with
  | 0x00 => some (w32 (n.recOf 0x0B k) 8)
  | 0x08 => some (wd u.dur)
  | 0x0C => some (svStatusWord n k)
  | 0x10 => some (wd (u.im % 65536))
  | 0x14 => some (wd u.htgt)
  | 0x18 => some (wd (u.loopN * 65536 + b2n u.loopAt.isSome * 32768 + u.pc % 64 * 256 + u.prof))
  | 0x1C => some (wd u.endAt)
  | 0x20 => some u.fireCnt
  | 0x24 => some u.extCnt
  | 0x28 => some (match u.queue with
    | some (p, d) => wd (2 ^ 31 + d % 2 ^ 24 * 16 + p)
    | none => 0#32)
  | 0x2C => some u.uflag
  | 0x30 => some (wd (tget 0 u.marks 0))
  | 0x34 => some (wd (tget 0 u.marks 1))
  | 0x38 => some (wd (tget 0 u.marks 2))
  | 0x3C => some (wd (tget 0 u.marks 3))
  | _ => none

def svWrite (k off : Nat) (v : Word) (n : Node) : Node :=
  match off with
  | 0x04 => svFireWrite k v n
  | 0x08 => modSv k (fun u => { u with dur := fld v 23 0 }) n
  | 0x0C => modSv k (fun u => { u with refused := u.refused && !bitOf v 15, illegal := u.illegal && !bitOf v 14, oc := u.oc && !bitOf v 13,
                                       stagger := u.stagger && !bitOf v 12, subSeen := u.subSeen && !bitOf v 11, px := u.px && !bitOf v 10 }) n
  | 0x14 => svHtgtWrite k v n
  | 0x2C => modSv k (fun u => { u with uflag := w1c u.uflag v }) n
  | _ => n

def hbRead (n : Node) (b off : Nat) : Option Word :=
  let h := n.hbC b
  let r := n.recOf 0x0C b
  match off with
  | 0x10 => some (wd (hbStagMax r * 65536 + hbLim r))
  | 0x14 => some (wd (b2n h.oc * 16 + b2n (n.outputsOn && (!n.driving || !recOn r) && !n.showsReset) * 4
      + b2n (svStalled (n.svC (2 * b)) || svStalled (n.svC (2 * b + 1))) * 2 + b2n (hbOn n b)))
  | 0x18 => some (wd (((n.svC (2 * b)).im + (n.svC (2 * b + 1)).im) % 65536))
  | 0x1C => some (wd (h.stalls * 65536 + h.expired))
  | 0x20 => some (wd h.gpf)
  | _ => none

def hbWrite (b off : Nat) (v : Word) (n : Node) : Node :=
  let h := n.hbC b
  match off with
  | 0x14 => setHb b { h with oc := h.oc && !bitOf v 4 } n
  | 0x20 => setHb b { h with gpf := fld v 3 0 } n
  | _ => n

/-- Microcode window and profile maps (R321). -/
def shRead (n : Node) (addr : Nat) : Option Word :=
  if addr = 0x4E00 then some (wd n.shp.mcAddr)
  else if addr = 0x4E04 then some (svInstr n (n.shp.mcAddr / 1024 % 8) (n.shp.mcAddr / 64 % 16) (n.shp.mcAddr % 64))
  else if 0x4E10 ≤ addr && addr ≤ 0x4E1C then
    let m := (addr - 0x4E10) / 4
    some (wd ((List.range 32).foldl (fun a i => a + b2n (svHasProf n (2 * m + i / 16) (i % 16)) * 2 ^ i) 0))
  else none

/-- A read of SH_MC_DATA advances SH_MC_ADDR. -/
def shMcStep (n : Node) : Node := { n with shp.mcAddr := (n.shp.mcAddr + 1) % 8192 }

/-- Counters count since READY; runs cannot outlive a change of image. -/
def svReady0 (n : Node) : Node :=
  (List.range 16).foldl (fun m k => modSv k (fun u => { u with fireCnt := 0#32, extCnt := 0#32 }) m) n

end Sys2Proof.Machine
end

