-- ==== Sys2Proof/Machine/Position.lean ====
section
/-! DEFINITION. Position interfaces, speed and the compare table (spec/12 R323 to R349). -/

namespace Sys2Proof.Machine
open Sys2Proof

def setPf (k : Nat) (u : PfChan) (n : Node) : Node := { n with pf := tset {} n.pf k u }
def modPf (k : Nat) (f : PfChan → PfChan) (n : Node) : Node := setPf k (f (n.pfC k)) n
def Node.cmpE (n : Node) (e : Nat) : CmpEnt := tget {} n.cmp.ents e
def setCmpE (e : Nat) (u : CmpEnt) (n : Node) : Node := { n with cmp.ents := tset {} n.cmp.ents e u }

/-! ### Channel record (R349) -/

def pfType (r : Bytes) : Nat := u8 r 8
def pfInv (r : Bytes) : Bool := recBit r 9 0
def pfIdx (r : Bytes) : Bool := recBit r 9 1
def pfAngle (r : Bytes) : Bool := recBit r 9 2
def pfGray (r : Bytes) : Bool := recBit r 9 3
def pfBits (r : Bytes) : Nat := u8 r 10
def pfSpdN (r : Bytes) : Nat := u8 r 11
def pfCpr (r : Bytes) : Nat := u32 r 12
def pfSk (r : Bytes) : Int := i32 r 16
def pfPk (r : Bytes) : Int := i16 r 20
def pfPsh (r : Bytes) : Nat := u8 r 22 % 16
def pfTol (r : Bytes) : Nat := u8 r 22 / 16 % 4
def pfAmpw (r : Bytes) : Nat := u8 r 22 / 64
def pfSsh (r : Bytes) : Nat := u8 r 23 % 32
def pfStillT (r : Bytes) : Nat := u16 r 24
def pfWin (r : Bytes) : Nat := u8 r 26
def pfPubp (r : Bytes) : Nat := u8 r 27
def pfQmax (r : Bytes) : Nat := u8 r 28
def pfQwin (r : Bytes) : Nat := u8 r 29
def pfPar (r : Bytes) : Bool := recBit r 9 4

/-- Clock period of SSI in DEVTIME counts, 500 ns at CLK 0; length of a frame (R328). -/
def pfClk (r : Bytes) : Nat := 125 * 2 ^ pfTol r
def pfFrame (r : Bytes) : Nat := (pfBits r + b2n (pfPar r) + 1) * pfClk r

/-- The interface takes steps: enabled, I6 in RUN, an image applied (R330). -/
def Node.pfRuns (n : Node) (f : Nat) : Bool := n.applied && n.isRun 6 && n.chOn 0x0D f

/-- The interface works: enabled, I6 in RUN, an image applied, not miswired (R330, R336). -/
def Node.pfOn (n : Node) (f : Nat) : Bool :=
  n.pfRuns f && !n.miswired (112 + f)

/-- A number modulo `m` taken into −m/2 to m/2 − 1. -/
def symMod (x : Int) (m : Nat) : Int := (x + (m / 2 : Nat)) % (max 1 m : Nat) - (m / 2 : Nat)

/-! ### Errors and trust (R334, R335) -/

/-- Any single error: SUSPECT, a new speed run, the error-free time starts anew; LOST where more than QERR_MAX errors fall
within QERR_WIN × 10 ms. -/
def pfError (f t : Nat) (n : Node) : Node :=
  let r := n.recOf 0x0D f
  let was := (n.pfC f).lost
  let n1 := modPf f (fun u =>
    let es := t :: (u.errs.filter (fun x => decide (t ≤ x + pfQwin r * 2500000)))
    { u with qerrCnt := satInc 0xFFFFFFFF u.qerrCnt, errs := es.take 256, lastErr := some t, suspect := true, run := [],
             noSpeed := true, lost := u.lost || decide (pfQmax r < es.length) }) n
  if (n1.pfC f).lost && !was then caAbandonAll f n1 else n1

/-- The position is to be trusted again (R335). -/
def pfTrust (u : PfChan) : PfChan := { u with lost := false, suspect := false }

/-- 20 ms have passed with no error. -/
def pfClean (u : PfChan) (t : Nat) : Bool :=
  match u.lastErr with
  | some e => decide (e + 5000000 ≤ t)
  | none => true

/-! ### Reported position (R332) -/

/-- R and D after a change of C. -/
def pfReport (c : Word) (u : PfChan) : PfChan :=
  let d := (c - u.rep).toInt
  if u.down then
    if d < 0 then { u with rep := c } else if 2 ≤ d then { u with rep := c, down := false } else u
  else
    if 0 < d then { u with rep := c } else if d ≤ -2 then { u with rep := c, down := true } else u

/-! ### Speed run (R337) -/

/-- An edge enters the run: the interface and whether event 86 is raised. -/
def pfRun (up : Bool) (t : Nat) (c : Word) (u : PfChan) : PfChan × Bool :=
  let u0 : PfChan := { u with edgeDt := if u.edgeAt = 0 then 0 else min 0xFFFFFFFF (t - u.edgeAt), edgeAt := t }
  match u.run with
  | [] => ({ u0 with run := [(t, c)], runUp := up }, false)
  | _ =>
    if up == u.runUp then
      ({ u0 with run := ((t, c) :: u.run).take 256, still := false, reversal := false, noSpeed := false }, false)
    else ({ u0 with run := [(t, c)], runUp := up, reversal := u.reversal || !u.still }, !u.still)

/-- STILL_TIMEOUT (R337), also while the interface is miswired. -/
def pfStill (f t : Nat) (n : Node) : Node :=
  let u := n.pfC f
  if n.pfRuns f && !u.still && decide (u.edgeAt + pfStillT (n.recOf 0x0D f) * 250000 ≤ t) then
    caAbandonAll f (raise 86 (setPf f { u with still := true, reversal := false, run := [] } n))
  else n

/-! ### Compare table (R342 to R344) -/

def cmpPf (r : Bytes) : Nat := u8 r 2 % 8
def cmpRel (r : Bytes) : Bool := recBit r 2 4
def cmpAct (r : Bytes) : Nat := u8 r 3 % 16

def cmpPos (n : Node) (r : Bytes) : Word := ((n.cmpE (u16 r 0)).pos).getD (w32 r 4)
def cmpEn (n : Node) (r : Bytes) : Bool := ((n.cmpE (u16 r 0)).en).getD (recBit r 2 3)

/-- Distance of the compared value from POS. -/
def cmpDist (rel : Bool) (cpr : Nat) (c z pos : Word) : Nat :=
  if rel then (symMod ((c - z).toInt - pos.toNat) cpr).natAbs else ((c - pos).toInt).natAbs

/-- An entry re-arms at REARM or more counts from POS (R342). -/
def cmpRearm (f : Nat) (n : Node) : Node :=
  let u := n.pfC f
  let cpr := pfCpr (n.recOf 0x0D f)
  (n.recs 0x09 1).foldl (fun m r =>
    let e := m.cmpE (u16 r 0)
    if cmpPf r == f && !e.armed && cmpEn m r && !(cmpRel r && u.noref)
        && decide (u8 r 9 ≤ cmpDist (cmpRel r) cpr u.c u.z (cmpPos m r)) then
      setCmpE (u16 r 0) { e with armed := true } m
    else m) n

/-- The difference that a step of `d` makes to the value an entry compares: signed, or modulo CPR (R342). -/
def cmpTravel (r : Bytes) (cpr : Nat) (d : Int) : Int := if cmpRel r then symMod d cpr else d

/-- Counts from the old end of a step to POS along the direction of travel; 0: not passed (R342). -/
def cmpAhead (n : Node) (r : Bytes) (old z : Word) (cpr : Nat) (d : Int) : Nat :=
  let pos := cmpPos n r
  let dd := cmpTravel r cpr d
  let off : Int := if cmpRel r then
      let x : Int := (old - z).toInt
      (if 0 < dd then (pos.toNat : Int) - x else x - pos.toNat) % (max 1 cpr : Nat)
    else if 0 < dd then ((pos - old).toNat : Int) else ((old - pos).toNat : Int)
  if 1 ≤ off ∧ off ≤ dd.natAbs then off.toNat else 0

/-- The action of a hit (R343). -/
def cmpAction (r : Bytes) (f t : Nat) (n : Node) : Node :=
  let tg := u8 r 8
  let arg := u16 r 10
  let n1 := match cmpAct r with
    | 1 => doPulse tg t n
    | 2 => poPulse tg t n
    | 3 => caAction tg .sample t n
    | 4 => caAction tg .cycleStart t n
    | 5 => caAction tg .reset t n
    | 6 => svFire tg arg (svDurDef (n.recOf 0x0B tg)) t 0 n
    | 7 =>
      let s := n.res (0x2000 + tg * 0x40)
      let cap : PfCap := { val := valueWord s, qseq := qseqWord s none, ts := wd t }
      modPf f (fun u => { u with caps := tset {} u.caps (arg % 4) cap }) n
    | _ => n
  raiseIf (cmpAct r == 8 || recBit r 3 7) 80 n1

/-- A hit: disarmed, counted, CMP_LAST, its action. -/
def cmpHit (f t : Nat) (n : Node) (r : Bytes) : Node :=
  let k := u16 r 0
  let e := n.cmpE k
  let n1 := setCmpE k { e with armed := false, hits := satInc 65535 e.hits } n
  cmpAction r f t { n1 with cmp.hits := n1.cmp.hits + 1#32, cmp.last := wd (k * 2 ^ 22 + n1.scan.toNat % 2 ^ 22) }

/-- The compare table judges a step of C from `old` by `d` (R342, R344): hits in the order of travel, then by entry. -/
def cmpStep (f : Nat) (old : Word) (d : Int) (t : Nat) (n : Node) : Node :=
  let u := n.pfC f
  let cpr := pfCpr (n.recOf 0x0D f)
  let dir (r : Bytes) : Bool := if 0 < cmpTravel r cpr d then recBit r 2 5 else recBit r 2 6
  let cand := (n.recs 0x09 1).filter (fun r =>
    cmpPf r == f && cmpEn n r && (n.cmpE (u16 r 0)).armed && dir r && !(cmpRel r && u.noref))
  let hits := (cand.map (fun r => (cmpAhead n r old u.z cpr d, r))).filter (fun x => x.1 != 0)
  let sorted := hits.insertionSort (fun a b => a.1 ≤ b.1)
  cmpRearm f (sorted.foldl (fun m x => cmpHit f t m x.2) n)

/-! ### Count steps (R330 to R332) -/

/-- The raw counter moves by d: WRAP_CNT, WRAP and event 85 at a crossing of its end (R330). -/
def pfCount (f : Nat) (d : Int) (n : Node) : Node :=
  let u := n.pfC f
  let sum : Int := (u.c.toNat : Int) + d
  let w := sum / 4294967296
  raiseIf (w != 0) 85 (setPf f { u with c := wi sum, wrapCnt := u.wrapCnt + wi w, wrap := u.wrap || w != 0 } n)

/-- An index event after its count step (R331): mismatch, Z, NOREF, PF_IDX_CNT; trust returns (R335). -/
def pfIndexEvent (f : Nat) (n : Node) : Node :=
  let r := n.recOf 0x0D f
  let u := n.pfC f
  let mis := !u.noref && decide (0 < pfCpr r) && decide (pfTol r < (symMod (u.c - u.z).toInt (pfCpr r)).natAbs)
  let u1 : PfChan := { pfTrust u with z := u.c, noref := false, idxCnt := u.idxCnt + 1#32, mismatch := u.mismatch || mis }
  let n1 := raiseIf mis 84 (setPf f u1 n)
  caIndex f (if mis then caAbandonAll f n1 else n1)

/-- Crank-angle triggers at every count passed (R222). -/
def pfCrank (f : Nat) (old : Word) (d : Int) (n : Node) : Node :=
  let u := n.pfC f
  let cpr := pfCpr (n.recOf 0x0D f)
  if u.noref || cpr == 0 || !caUses f n then n
  else (List.range d.natAbs).foldl (fun m i =>
    let c := if 0 < d then old + wd (i + 1) else old - wd (i + 1)
    caCrank f cpr ((c - u.z).toInt % (cpr : Int)).toNat (decide (0 < d)) (diState m) m) n

/-- An accepted step of d counts at DEVTIME `t`, with an index event where `index` says so. -/
def pfStepBy (f : Nat) (d : Int) (index : Bool) (t : Nat) (n : Node) : Node :=
  let old := (n.pfC f).c
  let n1 := pfCount f d n
  let n2 := if index then pfIndexEvent f n1 else n1
  let (u, ev) := pfRun (decide (0 < d)) t (n2.pfC f).c (pfReport (n2.pfC f).c (n2.pfC f))
  let n3 := raiseIf ev 86 (setPf f u n2)
  let n4 := if ev then caAbandonAll f n3 else n3
  cmpStep f old d t (pfCrank f old d n4)

/-- s² + c² in mV²: the amplitude ratio is that over the nominal 1,000² (R327, R530). -/
def pfSq (s c : Int) : Nat := (s * s + c * c).toNat

/-- PF_AMPL: a × 1,024, to the nearest. DESIGN CHOICE (notes/assumptions/32.md): the rounding. -/
def pfAmpl (q : Nat) : Nat := (divRound ((q * 1024 : Nat) : Int) 1000000).toNat

/-- The amplitude ratio q / 1,000² lies in the window of AMPW (R327). -/
def pfAmplOk (r : Bytes) (q : Nat) : Bool :=
  match pfAmpw r with
  | 1 => inR 700000 1300000 q
  | 2 => inR 300000 1700000 q
  | _ => inR 500000 1500000 q

/-- The first `k` binary digits of the angle of (c, s) as a fraction of a turn: squaring doubles the angle, whose half of the
turn gives the next digit. -/
def turnDigits : Nat → Int → Int → Nat
  | 0, _, _ => 0
  | k + 1, c, s => (if s < 0 ∨ (s = 0 ∧ c < 0) then 2 ^ k else 0) + turnDigits k (c * c - s * s) (2 * c * s)

/-- Phase in 1/1,024 period (R327). DESIGN CHOICE (notes/assumptions/32.md): the whole 1,024ths. -/
def pfPhase (s c : Int) : Nat := turnDigits 10 c s

/-- The levels of the lines are taken, with the time of each change; a low PFn_Z arms the next index event (R324, R331). -/
def pfLines (a b z : Bool) (t : Nat) (u : PfChan) : PfChan :=
  { u with a := a, b := b, zl := z, aAt := if a == u.a then u.aAt else t, bAt := if b == u.b then u.bAt else t,
           zAt := if z == u.zl then u.zAt else t, zArmed := u.zArmed || !u.zl || !z }

/-- A line can have taken a level at `t` after GF + 1 samples of 5 ns, having taken the other at `at` (R324). -/
def lineOk (r : Bytes) (at_ t : Nat) : Bool := decide (5 * (u8 r 10 % 8 + 1) < 4 * (t - at_ + 1))

/-- Every line that changes can have changed at `t`. -/
def pfAccepts (r : Bytes) (u : PfChan) (a b z : Bool) (t : Nat) : Bool :=
  (a == u.a || lineOk r u.aAt t) && (b == u.b || lineOk r u.bAt t) && (z == u.zl || lineOk r u.zAt t)

/-- Place of (B, A) in the Gray sequence 00, 01, 11, 10 (R325). -/
def grayIdx (a b : Bool) : Nat := match b, a with | false, false => 0 | false, true => 1 | true, true => 2 | true, false => 3

/-- Count step of a quadrature interface, 2 where both lines changed (R325). -/
def quadStep (u : PfChan) (a b : Bool) : Int :=
  match (grayIdx a b + 4 - grayIdx u.a u.b) % 4 with | 1 => 1 | 2 => 2 | 3 => -1 | _ => 0

/-- Sector of a Hall interface (R326). -/
def hallSector : Bool → Bool → Bool → Option Nat
  | true, false, false => some 0 | true, true, false => some 1 | false, true, false => some 2
  | false, true, true => some 3 | false, false, true => some 4 | true, false, true => some 5
  | _, _, _ => none

/-- Count step of a Hall interface into sector `s`: `none` between sectors that are not adjacent (R326). -/
def hallStep (o s : Nat) : Option Int :=
  if s = o then some 0 else if s = (o + 1) % 6 then some 1 else if o = (s + 1) % 6 then some (-1) else none

/-- An index event comes with a step that PFn_Z accompanies high after it has been low (R331). -/
def pfIndexed (r : Bytes) (z : Bool) (u : PfChan) : Bool := pfIdx r && z && (u.zArmed || !u.zl)

/-- A step of the phase of a sin/cos interface: the counts since the last used phase; `none` where none was used yet. -/
def pfPhaseStep (u : PfChan) (ph : Nat) : Option Int := u.phase.map (fun p => symMod ((ph : Int) - p) 1024)

/-- A sin/cos sample in the window is used: its amplitude, its phase, PFn_Z. -/
def pfSample (s c : Int) (z : Bool) (t : Nat) (u : PfChan) : PfChan :=
  { pfLines u.a u.b z t u with ampl := pfAmpl (pfSq s c), amplErr := false, outCnt := 0, phase := some (pfPhase s c) }

/-- A step of `d` with its index event, the index event disarming the next. -/
def pfTurn (f : Nat) (d : Int) (index : Bool) (t : Nat) (n : Node) : Node :=
  pfStepBy f d index t (if index then modPf f (fun u => { u with zArmed := false }) n else n)

/-- PF_EDGE: lines take new levels, or a sin/cos sample is used (R324 to R327); a sample that is an error counts nothing
here. Lines are followed also while the interface does not count. -/
def pfEdge (f : Nat) (e : PfStep) (t : Nat) (n : Node) : Node :=
  let r := n.recOf 0x0D f
  let u := n.pfC f
  match e with
  | .lines a b z =>
    let n1 := modPf f (pfLines a b z t) n
    let sec := (hallSector a b z).or u.sector
    if !pfAccepts r u a b z t then n
    else if pfType r = 1 then
      let d := quadStep u a b
      if !n.pfOn f || d = 0 then n1
      else if d = 2 then n
      else pfTurn f (if pfInv r then -d else d) (pfIndexed r z u) t n1
    else if pfType r = 2 then
      let n2 := modPf f (fun u => { u with sector := sec }) n1
      match hallSector a b z, u.sector with
      | some s, some o =>
        match hallStep o s with
        | some d =>
          if !n.pfOn f || d = 0 then n2
          else
            let n3 := pfStepBy f (if pfInv r then -d else d) false t n2
            if s = 0 && pfClean u t then modPf f pfTrust n3 else n3
        | none => if n.pfOn f then n else n2
      | some _, none => n2
      | none, _ => if n.pfOn f then n else n2
    else n1
  | .sincos s c z =>
    let q := pfSq s c
    if !(n.pfOn f && pfType r == 3 && pfAmplOk r q && pfAccepts r u u.a u.b z t) then n
    else
      let n1 := modPf f (pfSample s c z t) n
      match pfPhaseStep u (pfPhase s c) with
      | none => n1
      | some d =>
        if 256 < d.natAbs then n
        else if d = 0 then n1
        else pfTurn f (if pfInv r then -d else d) (pfIndexed r z u) t n1

/-- QUADRATURE_ERROR: both lines change in one sample, or a sin/cos step exceeds 256 (R325, R327). -/
def pfQuadError (f : Nat) (e : PfStep) (t : Nat) (n : Node) : Node :=
  let r := n.recOf 0x0D f
  let u := n.pfC f
  let ok := match e with
    | .lines a b z => pfType r == 1 && pfAccepts r u a b z t && quadStep u a b == 2
    | .sincos s c z => pfType r == 3 && pfAmplOk r (pfSq s c) && pfAccepts r u u.a u.b z t && (match pfPhaseStep u (pfPhase s c) with
      | some d => decide (256 < d.natAbs)
      | none => false)
  if !(n.pfOn f && ok) then n
  else
    let u0 : PfChan := match e with
      | .lines a b z => pfLines a b z t u
      | .sincos s c z => pfSample s c z t u
    raise 81 (pfError f t (setPf f { u0 with qerr := true } n))

/-- HALL_ERROR: an invalid state, or a step between sectors that are not adjacent (R326). -/
def pfHallError (f : Nat) (a b z : Bool) (t : Nat) (n : Node) : Node :=
  let r := n.recOf 0x0D f
  let u := n.pfC f
  let sec := hallSector a b z
  let skip := match sec, u.sector with | some s, some o => (hallStep o s).isNone | _, _ => false
  if n.pfOn f && pfType r == 2 && pfAccepts r u a b z t && (sec.isNone || skip) then
    raise 82 (pfError f t (setPf f { pfLines a b z t u with sector := sec.or u.sector, hallSkip := u.hallSkip || skip,
                                                             hallInv := u.hallInv || !skip } n))
  else n

/-- AMPLITUDE_ERROR: a sin/cos sample outside its window (R327, R334); one inside clears AMPL_ERR. -/
def pfAmplError (f : Nat) (s c : Int) (n : Node) : Node :=
  let r := n.recOf 0x0D f
  let u := n.pfC f
  let a := pfAmpl (pfSq s c)
  if !(n.pfOn f && pfType r == 3) then n
  else if pfAmplOk r (pfSq s c) then setPf f { u with ampl := a, amplErr := false, outCnt := 0 } n
  else
    let lost := u.lost || decide (4 ≤ u.outCnt + 1)
    let u1 : PfChan := { u with ampl := a, amplErr := true, amplSeen := u.amplSeen || !u.amplErr, outCnt := min 4 (u.outCnt + 1), lost := lost }
    let n1 := raiseIf (!u.amplErr) 83 (setPf f u1 n)
    if lost && !u.lost then caAbandonAll f n1 else n1

/-! ### Publication (R333, R338 to R341) -/

/-- E32 of the position (R333). -/
def pfPosE32 (r : Bytes) (u : PfChan) : Int :=
  if pfAngle r then
    divRound ((u.rep - u.z).toInt % (max 1 (pfCpr r) : Nat) * pfPk r) (2 ^ pfPsh r)
  else divRound (u.rep.toInt * pfPk r) (2 ^ pfPsh r)

/-- v in milli-counts per second at publication instant `tp` (R338, R339). -/
def pfSpeed (r : Bytes) (u : PfChan) (tp : Nat) : Int :=
  match u.run with
  | [] => 0
  | (te, ce) :: rest =>
    let ok := (rest.zipIdx.find? (fun (x, i) => decide (pfSpdN r ≤ i + 1) && decide (x.1 + pfWin r * 25000 ≤ te))).map (·.1)
    match (match ok with | some x => some x | none => rest.getLast?) with
    | none => 0
    | some (ti, ci) =>
      let dc := (ce - ci).toInt
      let dt : Int := max 1 (te - ti)
      if dt < (tp - te : Nat) * (dc.natAbs : Int) then
        divRound (if u.runUp then 250000000000 else -250000000000) (max 1 (tp - te) : Nat)
      else divRound (dc * 250000000000) dt

/-- The record of an interface at `t` (R336, R337, R340). -/
def pfPublish (f t : Nat) (n : Node) : Node :=
  let r := n.recOf 0x0D f
  let u := n.pfC f
  let mw := n.miswired (112 + f)
  let base := 0x5000 + f * 0x100
  let pv := pfValid n f
  let pos := mkEntry base (pfPosE32 r u) pv false false false false
  let pos1 : Entry := if u.suspect then { pos with q := pos.q ||| qSUSPECT } else pos
  let v := if u.still || u.reversal then 0 else pfSpeed r u t
  if u.noSpeed then
    complete (84 + f) 0 [pos1, { addr := base + 8, value := u.last1, q := 0#8 }] t n
  else
    let sp := mkEntry (base + 8) (divRound (v * pfSk r) (2 ^ pfSsh r)) (!u.lost && !mw) false false false false
    complete (84 + f) 0 [pos1, sp] t (setPf f { u with spd := clampI (-2147483648) 2147483647 v, last1 := sp.value } n)

/-- SCAN_CNT × 100 + fine ticks since the scan tick, SCAN_CNT counting modulo 2^32 (R341, R25). -/
def fineCount (t : Nat) : Nat := t / scanPer % 2 ^ 32 * 100 + t % scanPer / finePer

/-- Every fine tick: standstills that have come due, then the records of the interfaces whose PUBP divides the tick; an SSI
interface of the module that carries the plant starts a frame instead (R328, R329, R341). -/
def pfFine (t : Nat) (n : Node) : Node :=
  (List.range 8).foldl (fun m f =>
    let r := m.recOf 0x0D f
    let m1 := pfStill f t m
    if !(m1.acq && m1.isRun 6 && recOn r && fineCount t % max 1 (pfPubp r) == 0) then m1
    else if pfType r != 4 then pfPublish f t m1
    else if m1.carries then modPf f (fun u => { u with ssiAt := some t }) m1 else m1) n

/-- PFn_A of an SSI interface is driven with its clock: a frame of this module's own runs (R329). -/
def pfClocks (n : Node) (f : Nat) : Bool := n.carries && pfType (n.recOf 0x0D f) == 4 && (n.pfC f).ssiAt.isSome

/-- Gray to binary. -/
def grayDecode : Nat → Nat → Nat
  | 0, v => v
  | k + 1, v => Nat.xor v (grayDecode k (v / 2))

/-- Parity of the low `k` bits. -/
def parity (k x : Nat) : Bool := (List.range k).foldl (fun p i => p != x.testBit i) false

/-- The data bits of a good frame; `none` for an error frame (R328). -/
def ssiBits (r : Bytes) (x : SsiFrame) : Option Nat :=
  if x.high && x.low && (!pfPar r || x.par == parity (pfBits r) x.bits) then some (x.bits % 2 ^ pfBits r) else none

/-- DEVTIME at which the frame that ends by `t` ended: that of the frame this module clocked, or in a STANDBY the partner's
(R328, R329, R341). -/
def ssiEnd (n : Node) (f t : Nat) : Option Nat :=
  if n.carries then ((n.pfC f).ssiAt.map (· + pfFrame (n.recOf 0x0D f))).filter (fun e => decide (e ≤ t)) else some t

/-- A frame that ended at `t` moves the counter (R328); its record follows (R341). -/
def ssiTake (f : Nat) (frame : SsiFrame) (t : Nat) (n : Node) : Node :=
  let r := n.recOf 0x0D f
  let bits := pfBits r
  let n1 :=
    if n.miswired (112 + f) then n
    else match ssiBits r frame with
      | none => raise 87 (pfError f t (modPf f (fun u => { u with ssiErr := true }) n))
      | some b =>
        let v := if pfGray r then grayDecode bits b else b
        let u := n.pfC f
        let m := match u.ssi with
          | none => cmpRearm f (setPf f { pfReport (wd v) { u with c := wd v, z := 0#32, noref := false } with ssi := some v } n)
          | some o =>
            let d := symMod ((v : Int) - o) (2 ^ bits)
            let n0 := setPf f { u with ssi := some v } n
            if d = 0 then n0 else pfStepBy f (if pfInv r then -d else d) false t n0
        if pfClean u t then modPf f pfTrust m else m
  if n1.acq then pfPublish f t (pfStill f t n1) else n1

/-- SSI_FRAME_END (R328, R341). -/
def pfSsi (f : Nat) (frame : SsiFrame) (t : Nat) (n : Node) : Node :=
  if !(n.pfRuns f && pfType (n.recOf 0x0D f) == 4) then n
  else match ssiEnd n f t with
    | some e => ssiTake f frame e (modPf f (fun u => { u with ssiAt := none }) n)
    | none => n

/-! ### Register operations (R330, R335, R343, R345) -/

/-- Read of PF_RAW: latches WRAP_CNT for the port. -/
def pfRawRead (p : HostPort) (f : Nat) (n : Node) : Word × Node :=
  ((n.pfC f).c, n.modPort p (fun x => { x with wrapLatch := tset none x.wrapLatch f (some (n.pfC f).wrapCnt) }))

/-- Read of WRAP_CNT: the latched value once, else the live one. -/
def pfWrapRead (p : HostPort) (f : Nat) (n : Node) : Word × Node :=
  match tget none (n.port p).wrapLatch f with
  | some w => (w, n.modPort p (fun x => { x with wrapLatch := tset none x.wrapLatch f none }))
  | none => ((n.pfC f).wrapCnt, n)

/-- Read of PF_CAPk_VAL: latches QSEQ and TS for the port (R343, R47). -/
def pfCapRead (p : HostPort) (f k : Nat) (n : Node) : Word × Node :=
  let c : PfCap := tget {} (n.pfC f).caps k
  (c.val, n.modPort p (fun x => { x with capLatch := some (0x5060 + f * 0x100 + k * 16, some c.qseq, some c.ts) }))

/-- Reads of PF_CAPk_QSEQ and PF_CAPk_TS: the word latched by the last read of that capture's VAL, once; live otherwise. -/
def pfCapRest (p : HostPort) (f k : Nat) (ts : Bool) (n : Node) : Word × Node :=
  let c : PfCap := tget {} (n.pfC f).caps k
  let live : Word := if ts then c.ts else c.qseq
  match (n.port p).capLatch with
  | some (a, q, x) =>
    if a != 0x5060 + f * 0x100 + k * 16 then (live, n)
    else ((if ts then x else q).getD live,
      n.modPort p (fun y => { y with capLatch := some (a, if ts then q else none, if ts then none else x) }))
  | none => (live, n)

/-- A write of 1 to PF_CTRL.CLR (R335): only without an index, and not while miswired. -/
def pfClr (f : Nat) (v : Word) (n : Node) : Node :=
  let r := n.recOf 0x0D f
  if bitOf v 0 && (pfType r == 1 || pfType r == 3) && !pfIdx r && !n.miswired (112 + f) then modPf f pfTrust n else n

/-- Record of the entry selected by CMP_IDX. -/
def cmpRec (n : Node) : Option Bytes := n.keyed 0x09 1 n.cmp.idx

/-- CMP_SETPOS (R345). -/
def cmpSetPos (v : Word) (n : Node) : Node :=
  match cmpRec n with
  | none => n
  | some r =>
    if cmpRel r && decide (pfCpr (n.recOf 0x0D (cmpPf r)) ≤ v.toNat) then { n with cmp.err := true }
    else cmpRearm (cmpPf r) (setCmpE n.cmp.idx { n.cmpE n.cmp.idx with pos := some v, armed := false } n)

/-- CMP_SETEN (R345). -/
def cmpSetEn (v : Word) (n : Node) : Node :=
  match cmpRec n with
  | none => n
  | some r => cmpRearm (cmpPf r) (setCmpE n.cmp.idx { n.cmpE n.cmp.idx with en := some (bitOf v 0), armed := false } n)

/-- An interface becomes miswired: LOST, C holds, cycles on it end (R255, R334, R336). -/
def pfMiswire (f : Nat) (n : Node) : Node := caAbandonAll f (modPf f (fun u => { u with lost := true }) n)

/-- What an interface keeps of its lines where an image is applied. -/
def pfFresh (lost : Bool) (u : PfChan) : PfChan :=
  { a := u.a, b := u.b, zl := u.zl, aAt := u.aAt, bAt := u.bAt, zAt := u.zAt, sector := hallSector u.a u.b u.zl, still := true, lost := lost }

/-- An image is applied (R330, R332, R337): counters start at 0, STILL and NOREF are 1, entries stand armed or not by R342;
the lines are as they are. -/
def pfApply (n : Node) : Node :=
  let n1 : Node := { n with cmp := { idx := n.cmp.idx, err := n.cmp.err } }
  let n2 := (List.range 8).foldl (fun m f => modPf f (pfFresh (m.miswired (112 + f))) m) n1
  (List.range 8).foldl (fun m f => cmpRearm f m) n2

/-! ### Registers (R347, R348) -/

def pfStatusWord (n : Node) (f : Nat) : Word :=
  let u := n.pfC f
  wd (b2n u.wrap * 8192 + b2n (n.miswired (112 + f)) * 4096 + b2n u.amplSeen * 2048 + b2n u.ssiErr * 1024 + b2n u.mismatch * 512
    + b2n u.qerr * 256 + b2n u.hallSkip * 128 + b2n u.hallInv * 64 + b2n u.amplErr * 32 + b2n u.noref * 16 + b2n u.lost * 8
    + b2n u.reversal * 4 + b2n u.still * 2 + b2n u.down)

/-- Registers of an interface without a side effect. -/
def pfRead (n : Node) (f off : Nat) : Option Word :=
  let u := n.pfC f
  let r := n.recOf 0x0D f
  match off with
  | 0x10 => some (w32 r 8)
  | 0x18 => some (pfStatusWord n f)
  | 0x24 => some u.rep
  | 0x28 => some u.z
  | 0x2C => some u.idxCnt
  | 0x30 => some (wd u.qerrCnt)
  | 0x34 => some (wd u.edgeAt)
  | 0x38 => some (wd u.edgeDt)
  | 0x3C => some (wi u.spd)
  | 0x40 => some (wd (u.ampl % 65536))
  | 0x44 => some (wd (u.ssi.getD 0))
  | 0x48 => some (w32 r 12)
  | _ => none

def pfWrite (f off : Nat) (v : Word) (n : Node) : Node :=
  match off with
  | 0x14 => pfClr f v n
  | 0x18 => modPf f (fun u => { u with wrap := u.wrap && !bitOf v 13, amplSeen := u.amplSeen && !bitOf v 11, ssiErr := u.ssiErr && !bitOf v 10,
                                       mismatch := u.mismatch && !bitOf v 9, qerr := u.qerr && !bitOf v 8,
                                       hallSkip := u.hallSkip && !bitOf v 7, hallInv := u.hallInv && !bitOf v 6 }) n
  | _ => n

/-- Record bytes of the selected entry, with POS and EN in force (R348). -/
def cmpDataWord (n : Node) (i : Nat) : Word :=
  match cmpRec n with
  | none => 0#32
  | some r =>
    match i with
    | 0 => setBitW (w32 r 0) 19 (cmpEn n r)
    | 1 => cmpPos n r
    | _ => w32 r (4 * i)

def cmpRead (n : Node) (addr : Nat) : Option Word :=
  match addr with
  | 0x5800 => some (wd n.cmp.idx)
  | 0x5804 => some (cmpDataWord n 0)
  | 0x5808 => some (cmpDataWord n 1)
  | 0x580C => some (cmpDataWord n 2)
  | 0x5810 => some (cmpDataWord n 3)
  | 0x581C =>
    let e := n.cmpE n.cmp.idx
    some (match cmpRec n with
      | some r => wd (b2n e.armed * 2 ^ 31 + b2n (cmpEn n r) * 2 ^ 30 + e.hits)
      | none => 0#32)
  | 0x5820 => some n.cmp.hits
  | 0x5824 => some n.cmp.last
  | 0x5828 => some (wd (b2n n.cmp.err))
  | _ => none

def cmpWrite (addr : Nat) (v : Word) (n : Node) : Node :=
  match addr with
  | 0x5800 => { n with cmp.idx := fld v 9 0 }
  | 0x5814 => cmpSetPos v n
  | 0x5818 => cmpSetEn v n
  | 0x5828 => { n with cmp.err := n.cmp.err && !bitOf v 0 }
  | _ => n

end Sys2Proof.Machine
end

