-- ==== Sys2Proof/Machine/Lanes.lean ====
section
/-! DEFINITION. Control lanes (spec/13 R350 to R378). -/

namespace Sys2Proof.Machine
open Sys2Proof

def Node.lnC (n : Node) (k : Nat) : Lane := tget {} n.ln k
def setLn (k : Nat) (u : Lane) (n : Node) : Node := { n with ln := tset {} n.ln k u }
def modLn (k : Nat) (f : Lane → Lane) (n : Node) : Node := setLn k (f (n.lnC k)) n
def Node.genC (n : Node) (g : Nat) : LnGen := tget {} n.gen g
def setGen (g : Nat) (u : LnGen) (n : Node) : Node := { n with gen := tset {} n.gen g u }

/-! ### Records (R376, R377) -/

def Node.lnRec (n : Node) (k : Nat) : Bytes := (n.keyed 0x0A 1 k).getD []
def lnOn (r : Bytes) : Bool := recBit r 2 0
def lnDmeas (r : Bytes) : Bool := recBit r 2 1
def lnSptrk (r : Bytes) : Bool := recBit r 2 2
def lnBadSafe (r : Bytes) : Bool := recBit r 2 3
def lnMode0 (r : Bytes) : Nat := u8 r 3
def lnPer (r : Bytes) : Nat := u32 r 4
def lnPhase (r : Bytes) : Nat := u32 r 8
def lnPvAddr (r : Bytes) : Nat := u16 r 12
def lnSpAddr (r : Bytes) : Nat := u16 r 14
def lnTrkAddr (r : Bytes) : Nat := u16 r 16
def lnKind (r : Bytes) : Nat := u8 r 18
def lnTgt (r : Bytes) : Nat := u8 r 19
def lnFeAct (r : Bytes) : Nat := u8 r 64

def lnPar (r : Bytes) : LnPar :=
  { kp := i32 r 20, ki := i32 r 24, kd := i32 r 28, kf := i32 r 32, shifts := w32 r 36, ilo := i32 r 40, ihi := i32 r 44,
    olo := i32 r 48, ohi := i32 r 52, feLim := i32 r 56, feTime := u32 r 60 }

/-- The one enabled lane that names lane k as its setpoint target (R362). -/
def Node.lnOuter (n : Node) (k : Nat) : Option Nat :=
  (List.range 32).find? (fun j => let r := n.lnRec j; lnOn r && lnKind r == 5 && lnTgt r == k)

/-- The lane is evaluated here and now (R85, R350, R450). -/
def Node.lnRuns (n : Node) (k : Nat) : Bool := n.running && n.carries && lnOn (n.lnRec k) && n.roleOn 3 (k / 8)

/-! ### Arithmetic of R354 -/

/-- sat32 with its flag. -/
def sat32 (v : Int) : Int × Bool := (clampI (-2147483647) 2147483647 v, decide (v < -2147483647) || decide (2147483647 < v))

/-- rshr: rounding right shift, ties away from zero. -/
def rshr (p : Int) (s : Nat) : Int := if s = 0 then p else divRound p (2 ^ s)

/-- divc: floor division by 2^s with a carried remainder. -/
def divc (q : Int) (s r : Nat) : Int × Nat :=
  let sum := q + r
  (sum / 2 ^ s, (sum % 2 ^ s).toNat)

/-- clamp with its flag. -/
def clampF (v lo hi : Int) : Int × Bool := (clampI lo hi v, decide (v < lo) || decide (hi < v))

def lnSP (p : LnPar) : Nat := fld p.shifts 4 0
def lnSI (p : LnPar) : Nat := fld p.shifts 12 8
def lnSD (p : LnPar) : Nat := fld p.shifts 20 16
def lnSF (p : LnPar) : Nat := fld p.shifts 28 24

def satBits (p i d s o : Bool) : Nat := b2n p + 2 * b2n i + 4 * b2n d + 8 * b2n s + 16 * b2n o

/-- P, filter and D of R355 on an effective setpoint and PV: the lane with P, D, F, FRES, the error e, and the SAT flags. -/
def lnPD (dmeas : Bool) (sp pv : Int) (l : Lane) : Lane × Int × Nat :=
  let c := l.par
  let (e, f1) := sat32 (sp - pv)
  let (p, f2) := sat32 (rshr (c.kp * e) (lnSP c))
  let x := if dmeas then -pv else e
  let (dx, f3) := sat32 (x - l.f)
  let (df, fres) := divc (c.kf * dx) (lnSF c) l.fres
  let (fn, f4) := sat32 (l.f + df)
  let (dd, f5) := sat32 (fn - l.f)
  let (d, f6) := sat32 (rshr (c.kd * dd) (lnSD c))
  ({ l with p := p, d := d, f := fn, fres := fres }, e, satBits (f1 || f2) false (f3 || f4 || f5 || f6) false false)

/-- I and IRES of R355 and R357; `hi` and `lo` freeze a move against an inner lane at its limit (R364). -/
def lnInteg (e : Int) (hi lo : Bool) (l : Lane) : Lane × Nat :=
  let c := l.par
  let (dq, iresN) := divc (c.ki * e) (lnSI c) l.ires
  let (dI, f1) := sat32 dq
  let (iN, f2) := clampF (l.i + dI) c.ilo c.ihi
  let tot := l.p + iN + l.d
  let frozen := (decide (0 < dI) && (decide (c.ohi < tot) || hi)) || (decide (dI < 0) && (decide (tot < c.olo) || lo))
  (if frozen then { l with frozen := true } else { l with frozen := false, i := iN, ires := iresN },
   satBits false (f1 || f2) false false false)

/-- Back-calculation of R361: I from an output, IRES = 0. -/
def lnBack (u : Int) (l : Lane) : Lane × Nat :=
  let (i, f) := clampF (u - l.p - l.d) l.par.ilo l.par.ihi
  ({ l with i := i, ires := 0 }, satBits false f false false false)

/-- u_prev of R361. -/
def lnUPrev (l : Lane) : Int := l.u.getD l.man

/-- An AUTO or CASCADE evaluation with a valid PV (R355, R361, R364, R415): the lane, u and SAT flags. -/
def lnAuto (dmeas : Bool) (sp pv gout : Int) (hi lo : Bool) (l : Lane) : Lane × Int × Nat :=
  let inAuto := l.prevAct == some 2 || l.prevAct == some 3
  let transfer := l.xfer || !inAuto || !l.prevPv
  let (i0, fa) := match l.dadd with
    | some d => clampF (l.i + d) l.par.ilo l.par.ihi
    | none => (l.i, false)
  let l0 : Lane := { l with i := i0, dadd := none, frozen := false }
  let l1 : Lane := if transfer && !l.prevPv then { l0 with f := if dmeas then -pv else (sat32 (sp - pv)).1, fres := 0 } else l0
  let (l2, e, b1) := lnPD dmeas sp pv l1
  let (l3, b2) := if transfer then lnBack (lnUPrev l) l2 else lnInteg e hi lo l2
  let (sum, f1) := sat32 (l3.p + l3.i + l3.d)
  let (v, f2) := sat32 (sum + gout)
  let (u, f3) := clampF v l3.par.olo l3.par.ohi
  (l3, u, Nat.lor (Nat.lor (satBits false fa false f1 (f2 || f3)) b1) b2)

/-! ### Setpoints, modes, targets (R359 to R367) -/

/-- A lane as it stood before tick `k`: the view kept where it has already evaluated at that tick. A lane that has not
evaluated since the entry to RUN stands in its route-map mode (R91). A write of LN_SP counts from the lane's own next
evaluation on (R353). -/
def lnView (l : Lane) (k : Nat) : LnView :=
  if l.tick = some k then l.view
  else { act := if l.prevAct.isNone && l.reqNew then l.req else l.act, hi := l.hi, lo := l.lo, sp := if l.prevAct.isSome then l.spEv else l.sp, spLast := l.spLast, started := l.prevAct.isSome }

/-- Output of an outer lane as it stood at DEVTIME `t` (R363). -/
def lnOutAt (l : Lane) (t : Nat) : Option Int := if l.outAt ≤ t then l.out else l.outPrev

/-- SP in use of lane k in a view at DEVTIME `t`, and whether its SP_ADDR result is bad (R359, R363, R366). -/
def lnSpIn (n : Node) (k : Nat) (v : LnView) (t : Nat) : Int × Bool :=
  let r := n.lnRec k
  if v.act = 3 then
    match n.lnOuter k with
    | some o => ((lnOutAt (n.lnC o) t).getD v.sp, false)
    | none => (v.sp, false)
  else if lnSpAddr r = 0 then (v.sp, false)
  else
    let s := n.res (lnSpAddr r)
    if qHas (resQ s) qVALID then ((valueWord s).toInt, false) else (v.spLast.getD v.sp, true)

/-- The target acts as R367 states. -/
def lnTargetOffRec (r : Bytes) (n : Node) : Node :=
  match lnKind r with
  | 1 => modLo (lnTgt r) (fun u => { u with laneOff := true }) n
  | 3 => modDo (lnTgt r) (fun u => { u with laneOff := true }) n
  | 4 => modPo (lnTgt r) (fun u => { u with laneOff := true }) n
  | _ => n

def lnTargetOff (k : Nat) (n : Node) : Node := lnTargetOffRec (n.lnRec k) n

/-- The output reaches its target (R370). -/
def lnTarget (k : Nat) (u : Int) (t : Nat) (n : Node) : Node :=
  let r := n.lnRec k
  match lnKind r with
  | 1 => loLane (lnTgt r) u false n
  | 2 => svLane (lnTgt r) u (10 * lnPer r) t n
  | 3 => doLane (lnTgt r) u false n
  | 4 => poLane (lnTgt r) u false n
  | _ => n

/-! ### Test generators (R371 to R373) -/

/-- A generator is running. -/
def genRuns (g : LnGen) : Bool := g.state == 1 || g.state == 2

/-- A test runs on the lane (R371). -/
def lnTesting (n : Node) (k : Nat) : Bool := let g := n.genC (k / 16); genRuns g && g.lane == k

/-- The running test of a generator ends with event 90. -/
def genEnd (g st : Nat) (n : Node) : Node :=
  if genRuns (n.genC g) then raise 90 (setGen g { n.genC g with state := st } n) else n

/-- Feedback taps of R372, as bits of the register whose stage s is bit s − 1. -/
def prbsTaps : Nat → Nat
  | 7 => 0x60 | 8 => 0xB8 | 9 => 0x110 | 10 => 0x240 | 11 => 0x500 | 12 => 0xE08 | 13 => 0x1C80 | 14 => 0x3802 | _ => 0x6000

/-- Parity of the low 15 bits. -/
def parity15 (x : Nat) : Nat := ((List.range 15).foldl (fun a i => a + x / 2 ^ i % 2) 0) % 2

/-- One shift of the register. -/
def prbsNext (nbits x : Nat) : Nat := (2 * x + parity15 (Nat.land x (prbsTaps nbits))) % 2 ^ nbits

/-- Signal of the sample at hand (R372). -/
def genSignal (g : LnGen) : Int :=
  let r := g.cfg
  let amp := i32 r 4
  let hold := max 1 (u32 r 8)
  let pre := u32 r 24
  if g.k < pre then 0
  else
    let j := g.k - pre
    match u8 r 0 with
    | 1 => if u32 r 8 ≤ j then amp else 0
    | 2 => if j / hold % 2 = 0 then amp else -amp
    | 3 => if g.lfsr / 2 ^ (u8 r 2 - 1) % 2 = 1 then amp else -amp
    | 4 => Config.sweep (u32 r 12) (u32 r 16) (u32 r 20 - pre) g.per amp j
    | _ => 0

/-- The sample of one evaluation enters the capture (R373). -/
def genSample (gi : Nat) (sp pv u : Int) (t : Nat) (n : Node) : Node :=
  let g := n.genC gi
  let r := g.cfg
  let pre := u32 r 24
  let hold := max 1 (u32 r 8)
  let step := u8 r 0 == 3 && decide (pre ≤ g.k) && (g.k - pre + 1) % hold == 0
  let g1 : LnGen := { g with k := g.k + 1, state := if pre ≤ g.k + 1 then 2 else 1, t0 := if g.k = 0 then t else g.t0,
                             lfsr := if step then prbsNext (u8 r 2) g.lfsr else g.lfsr,
                             samples := (wi sp, wi pv, wi u) :: g.samples }
  let n1 := setGen gi g1 n
  if u32 r 20 ≤ g1.k then genEnd gi 3 n1 else n1

/-- LN_TEST.START (R371). -/
def lnTestStart (k : Nat) (n : Node) : Node :=
  let gi := k / 16
  let r := (n.dense 0x0A 2 gi).getD []
  let l := n.lnC k
  let per := lnPer (n.lnRec k)
  let bad := genRuns (n.genC gi) || u8 r 0 == 0 || !lnOn (n.lnRec k)
    || (u8 r 1 == 0 && !(l.act == 2 || l.act == 3)) || (u8 r 1 == 1 && (l.act == 0 || l.act == 4))
    || (u8 r 0 == 4 && decide (25000000 < u32 r 16 * per))
  if bad then setLn k { l with testRefused := true } n
  else setGen gi { state := if u32 r 24 = 0 then 2 else 1, lane := k, cfg := r, k := 0, lfsr := 2 ^ u8 r 2 - 1, t0 := n.now, per := per } n

/-- LN_TEST.STOP (R373). -/
def lnTestStop (k : Nat) (n : Node) : Node := if lnTesting n k then genEnd (k / 16) 4 n else n

/-- Every running test ends: the lanes leave RUN or DEGRADED (R373). -/
def lnTestsAbort (n : Node) : Node := genEnd 1 4 (genEnd 0 4 n)

/-! ### The evaluation (R351, R355, R359 to R369) -/

/-- A change of the active mode: event 91, the target where it becomes OFF, the end of a test (R359, R367, R373). -/
def lnSetAct (k m : Nat) (n : Node) : Node :=
  let l := n.lnC k
  if l.act = m then n
  else
    let n1 := raise 91 (setLn k { l with act := m } n)
    let n2 := if lnTesting n1 k then genEnd (k / 16) 4 n1 else n1
    if m = 0 then lnTargetOff k n2 else n2

/-- Following error fires with output u (R368). -/
def lnFollowFire (k : Nat) (u : Int) (n : Node) : Node :=
  let r := n.lnRec k
  let n1 := raise 89 (modLn k (fun l => { l with follow := true, feSeen := true, feDone := true }) n)
  match lnFeAct r with
  | 1 => lnSetAct k 1 (modLn k (fun l => { l with man := u }) n1)
  | 2 => lnSetAct k 0 n1
  | _ => n1

/-- Supervision of one evaluation (R368): SP without test signal. -/
def lnFollow (k : Nat) (sp pv u : Int) (t : Nat) (n : Node) : Node :=
  let l := n.lnC k
  if l.par.feLim ≤ 0 then setLn k { l with feAt := none, feDone := false } n
  else if |sp - pv| ≤ l.par.feLim then setLn k { l with feAt := none, feDone := false, follow := false } n
  else
    let s := l.feAt.getD t
    let n1 := setLn k { l with feAt := some s } n
    if !l.feDone && decide (s + l.par.feTime * 250000 ≤ t) then lnFollowFire k u n1 else n1

/-- FOLLOWING_ERROR on its own: the timer has reached FE_TIME at the lane's evaluation tick `t`. -/
def lnFollowDue (k t : Nat) (n : Node) : Node :=
  let l := n.lnC k
  let due := match l.feAt with
    | some s => decide (s + l.par.feTime * 250000 ≤ t)
    | none => false
  if n.lnRuns k && (l.act == 2 || l.act == 3) && !l.pvBad && !l.feDone && !lnTesting n k && due && l.tick == some (t / finePer) then
    lnFollowFire k (lnUPrev l) n
  else n

/-- SAT flags set, with event 88 where one changes from 0 to 1 (R358). -/
def lnSatSet (k b : Nat) (n : Node) : Node :=
  let l := n.lnC k
  let new := Nat.lor l.sat b
  raiseIf (new != l.sat) 88 (setLn k { l with sat := new } n)

/-- Mode of this evaluation: a waiting request, whose change of mode clears FOLLOW_ERR where LN_MODE or an action asked for it
(R353, R368), then the loss of the outer lane (R365). -/
def lnMode (k kt t : Nat) (n : Node) : Node :=
  let l := n.lnC k
  let n1 := if l.reqNew then
      lnSetAct k l.req (setLn k { l with reqNew := false, reqHost := false,
                                         follow := l.follow && !(l.reqHost && l.req != l.act) } n)
    else n
  let l1 := n1.lnC k
  if l1.act = 3 then
    let gone := match n1.lnOuter k with
      | none => true
      | some o =>
        let v := lnView (n1.lnC o) kt
        (v.act == 0 && v.started) || !n1.roleOn 3 (o / 8)
    if gone then
      let v : LnView := { act := 3, sp := if (n1.lnOuter k).isNone && l1.prevAct.isSome then l1.spUse else l1.sp, spLast := l1.spLast }
      lnSetAct k 2 (setLn k { l1 with sp := (lnSpIn n1 k v t).1 } n1)
    else n1
  else n1

/-- Position of a lane among those of its engine due at fine tick `kt`, from 1 (R351). -/
def lnRank (n : Node) (k kt : Nat) : Nat :=
  1 + ((List.range k).filter (fun j => j / 8 == k / 8 && (let r := n.lnRec j; lnOn r && kt % max 1 (lnPer r) == lnPhase r))).length

/-- Output and record of an evaluation (R363, R369). -/
def lnDeliver (k : Nat) (u : Int) (t : Nat) (n : Node) : Node :=
  let l := n.lnC k
  let done := t + 3000 * lnRank n k (t / finePer)
  let c := n.lnRec k
  let n1 := setLn k { l with u := some u, out := some u, outAt := done, outPrev := l.out,
                             hi := u == l.par.ohi, lo := u == l.par.olo } n
  let e := mkEntry (0x5C00 + k * 0x80) u true false (l.pvBad || l.follow) false false
  let n2 := complete (126 + k) 0 [e] done n1
  if l.act = 0 || !lnOn c then n2 else lnTarget k u t n2

/-- LANE_EVALUATION: lane k falls due at DEVTIME `t`, a multiple of the fine tick (R351). -/
def lnEval (k t : Nat) (n : Node) : Node :=
  let kt := t / finePer
  let r := n.lnRec k
  let l := n.lnC k
  if !(n.lnRuns k && t % finePer == 0 && kt % max 1 (lnPer r) == lnPhase r && l.tick != some kt) then n
  else
    let view := lnView l kt
    let n1 := lnMode k kt t (setLn k { l with tick := some kt, view := view } n)
    let l := n1.lnC k
    let l := { l with outerTrk := false, frozen := false, trkBad := false }
    if l.act = 0 then
      setLn k { l with prevAct := some 0, prevPv := false, feAt := none, feDone := false, dadd := none, hi := false, lo := false } n1
    else
      let gi := k / 16
      let testing := lnTesting n1 k
      let g := n1.genC gi
      let sig := if testing then genSignal g else 0
      let atSp := u8 g.cfg 1 == 0
      let gsp := if testing && atSp then sig else 0
      let gout := if testing && !atSp then sig else 0
      let s := n1.res (lnPvAddr r)
      let ok := qHas (resQ s) qVALID
      let pv := (valueWord s).toInt
      let l := if (l.act = 1 || l.act = 4) && ok && lnSptrk r then { l with sp := pv } else l
      let (spIn, spBad) := lnSpIn n1 k { act := l.act, sp := l.sp, spLast := l.spLast } t
      let spLast := if lnSpAddr r != 0 && l.act != 3 && !spBad then some spIn else l.spLast
      let (spEff, spClip) := sat32 (spIn + gsp)
      let e92 := !ok && !l.pvBad
      let auto := l.act == 2 || l.act == 3
      let l : Lane := { l with pv := pv, spLast := spLast, spBad := spBad, spEff := spEff, spUse := spIn, spEv := l.sp, pvBad := !ok, pvSeen := l.pvSeen || (auto && !ok && (!l.pvBad || !(l.prevAct == some 2 || l.prevAct == some 3))) }
      let inner : Option LnView := if lnKind r = 5 then some (lnView (n1.lnC (lnTgt r)) kt) else none
      let track := match inner with
        | some v => v.act != 3
        | none => false
      let (l, u, bits) :=
        if track then
          let u := match inner with
            | some v => (lnSpIn n1 (lnTgt r) v t).1
            | none => lnUPrev l
          let l : Lane := { l with outerTrk := true, dadd := none }
          if ok then ((lnBack u (lnPD (lnDmeas r) spEff pv l).1).1, u, 0) else (l, u, 0)
        else if auto then
          if ok then
            let (hi, lo) := match inner with
              | some v => (v.hi, v.lo)
              | none => (false, false)
            let (l, u, b) := lnAuto (lnDmeas r) spEff pv gout hi lo l
            (l, u, Nat.lor b (satBits spClip false false false false))
          else ({ l with dadd := none }, lnUPrev l, 0)
        else
          let tr := n1.res (lnTrkAddr r)
          let trOk := qHas (resQ tr) qVALID
          let u := if l.act = 1 then clampI l.par.olo l.par.ohi (l.man + gout)
            else if trOk then clampI l.par.olo l.par.ohi (valueWord tr).toInt else lnUPrev l
          let l : Lane := { l with trkBad := l.act == 4 && !trOk, dadd := none }
          if ok then
            let (l, _, b1) := lnPD (lnDmeas r) spEff pv l
            let (l, b2) := lnBack u l
            (l, u, Nat.lor (Nat.lor b1 b2) (satBits spClip false false false false))
          else (l, u, 0)
      let n2 := raiseIf e92 92 (setLn k l n1)
      let n3 := if auto && !ok && lnBadSafe r then lnSetAct k 0 n2 else n2
      let n4 := if auto && ok && !testing then lnFollow k spIn pv u t n3 else modLn k (fun l => { l with feAt := none, feDone := false }) n3
      let n5 := lnSatSet k bits n4
      let n6 := if lnTesting n5 k then genSample gi spEff pv u t n5 else n5
      let n7 := modLn k (fun l => { l with prevAct := some l.act, prevPv := ok && l.act != 0, xfer := false }) n6
      lnDeliver k u t n7

/-- Every lane due at a fine tick evaluates, in ascending number. -/
def lnFine (t : Nat) (n : Node) : Node := (List.range 32).foldl (fun m k => lnEval k t m) n

/-! ### Commands (R360, R375, R415) -/

/-- A mode request by host or sequencer: it counts at the next evaluation (R353, R360). -/
def lnRequest (k code : Nat) (n : Node) : Node :=
  let r := n.lnRec k
  let l := n.lnC k
  if !lnOn r || decide (4 < code) || (code == 3 && (n.lnOuter k).isNone) || (code == 4 && lnTrkAddr r == 0) then
    setLn k { l with cmdRefused := true } n
  else setLn k { l with req := code, reqNew := true, reqHost := true } n

/-- Output limits allowed by a target kind (R370). -/
def lnOutOk (kind : Nat) (lo hi : Int) : Bool :=
  match kind with
  | 1 => decide (-1000000 ≤ lo) && decide (hi ≤ 1000000)
  | 4 => decide (-1000000 ≤ lo) && decide (hi ≤ 1000000)
  | 2 => decide (0 ≤ lo) && decide (hi ≤ 1000000)
  | 3 => decide (0 ≤ lo) && decide (hi ≤ 1000000)
  | _ => true

/-- A parameter set obeys R356 and R370. -/
def lnParOk (kind : Nat) (p : LnPar) : Bool :=
  decide (1 ≤ p.kf) && decide (p.kf ≤ 2 ^ lnSF p) && decide (p.ilo ≤ p.ihi) && decide (p.olo ≤ p.ohi) && lnOutOk kind p.olo p.ohi

/-- APPLY: the pending set comes into force, or is refused whole (R375). -/
def lnApplyPend (k : Nat) (n : Node) : Node :=
  let r := n.lnRec k
  let l := n.lnC k
  if lnOn r && lnParOk (lnKind r) l.pendp then setLn k { l with par := l.pendp, xfer := true } n
  else setLn k { l with cmdRefused := true } n

/-- LN_MODE write (R375, R378). -/
def lnModeWrite (k : Nat) (v : Word) (n : Node) : Node :=
  if bitOf v 8 then lnApplyPend k n else lnRequest k (fld v 2 0) n

/-- ADD_I: a bias waits for the next evaluation (R415). -/
def lnAddI (k : Nat) (d : Int) (n : Node) : Node := modLn k (fun l => { l with dadd := some (l.dadd.getD 0 + d) }) n

/-! ### Image, RUN, replacement -/

/-- A lane at its record (R360, R375). -/
def lnFresh (r : Bytes) : Lane :=
  { par := lnPar r, pendp := lnPar r, req := lnMode0 r, sp := i32 r 68, man := i32 r 72 }

/-- An image is applied: every lane stands at its record, its mode OFF until it evaluates, with event 91 where that is a change
(R359); captures are discarded with their generators' tests. -/
def lnApply (n : Node) : Node :=
  (List.range 32).foldl (fun m k =>
    raiseIf ((m.lnC k).act != 0) 91 (setLn k (if (m.keyed 0x0A 1 k).isSome then lnFresh (m.lnRec k) else {}) m)) (lnTestsAbort n)

/-- A target leaves its safe state at the entry to RUN for what stands for the lane's last output, LN_MAN within the limits
(R91, R361); a lane in OFF leaves it in its safe state (R367). DEDUCED (notes/assumptions/26.md). -/
def lnTargetBegin (k : Nat) (n : Node) : Node :=
  let r := n.lnRec k
  let l := n.lnC k
  let u := clampI l.par.olo l.par.ohi l.man
  if lnMode0 r = 0 then lnTargetOff k n
  else match lnKind r with
    | 1 => loLane (lnTgt r) u false n
    | 3 => doLane (lnTgt r) u false n
    | 4 => poLane (lnTgt r) u false n
    | _ => n

/-- A lane at the entry to RUN (R360, R361, R366, R368). -/
def lnBegin (k : Nat) (n : Node) : Node :=
  let r := n.lnRec k
  if !lnOn r then n
  else lnTargetBegin k (modLn k (fun l =>
    { l with req := lnMode0 r, reqNew := true, reqHost := false, u := none, out := none, outPrev := none, prevAct := none,
             prevPv := false, feAt := none, feDone := false, spLast := none, dadd := none }) n)

def lnRunEntry (n : Node) : Node := (List.range 32).foldl (fun m k => lnBegin k m) n

/-- A lane stops: its target acts as the record in force names it, its mode becomes OFF, a test on it ends (R79, R367, R373). -/
def lnStop (old : Bytes) (k : Nat) (n : Node) : Node :=
  let n1 := lnTargetOffRec old n
  let n2 := if (n1.lnC k).act = 0 then n1 else raise 91 (modLn k (fun l => { l with act := 0 }) n1)
  if lnTesting n2 k then genEnd (k / 16) 4 n2 else n2

/-- A lane at a record newly in force: as `lnFresh`, with its sticky flags kept (R79). -/
def lnCarry (r : Bytes) (l : Lane) : Lane :=
  { (if r.isEmpty then ({} : Lane) else lnFresh r) with
    sat := l.sat, testRefused := l.testRefused, cmdRefused := l.cmdRefused, pvSeen := l.pvSeen, feSeen := l.feSeen }

/-- A live replacement of leg 0x0A has put new records in force (R79, R375); `old` gives the records before it. -/
def lnReplace (old : Nat → Bytes) (n : Node) : Node :=
  (List.range 32).foldl (fun m k =>
    let o := old k
    let r := m.lnRec k
    if o == r then m
    else if lnOn o && lnOn r then
      modLn k (fun l => { l with par := lnPar r, pendp := lnPar r, xfer := true })
        (if lnKind o == lnKind r && lnTgt o == lnTgt r then m else lnTargetOffRec o m)
    else
      let m1 := modLn k (lnCarry r) (if lnOn o then lnStop o k m else m)
      if m.running then lnBegin k m1 else m1) n

/-! ### Registers (R378) -/

def lnStatusWord (n : Node) (k : Nat) : Word :=
  let l := n.lnC k
  wd (b2n l.testRefused * 32768 + b2n l.cmdRefused * 16384 + b2n l.pvSeen * 8192 + b2n l.feSeen * 4096 + b2n l.trkBad * 512
    + b2n (lnTesting n k) * 256 + b2n l.outerTrk * 128 + b2n l.follow * 64 + b2n l.spBad * 32 + b2n l.pvBad * 16
    + b2n l.lo * 8 + b2n l.hi * 4 + b2n l.frozen * 2 + b2n (n.lnRuns k && l.act != 0))

def lnCfgWord (r : Bytes) : Word :=
  wd (lnPvAddr r * 65536 + lnKind r % 8 * 8192 + lnTgt r % 32 * 256 + u8 r 2 % 16 * 16 + lnMode0 r % 8)

def lnTestStat (n : Node) (k : Nat) : Word :=
  let g := n.genC (k / 16)
  if g.lane = k then wd (g.state * 2 ^ 28 + g.samples.length % 32768) else 0#32

def lnRead (n : Node) (p : HostPort) (k off : Nat) : Option Word :=
  let l := n.lnC k
  let r := n.lnRec k
  match off with
  | 0x08 => some (wd (l.act * 16 + l.req))
  | 0x0C => some (lnStatusWord n k)
  | 0x10 => some (wi l.sp)
  | 0x14 => some (wi l.man)
  | 0x18 => some (wi l.spEff)
  | 0x1C => some (wi l.pv)
  | 0x20 => some (wd (lnPer r % 2 ^ 20))
  | 0x24 => some (wi l.p)
  | 0x28 => some (wi l.i)
  | 0x2C => some (wd l.ires)
  | 0x30 => some (wi l.d)
  | 0x34 => some (wi l.f)
  | 0x38 => some (wd l.fres)
  | 0x3C => some (wd l.sat)
  | 0x40 => some (wi l.par.kp)
  | 0x44 => some (wi l.par.ki)
  | 0x48 => some (wi l.par.kd)
  | 0x4C => some (wi l.par.kf)
  | 0x50 => some l.par.shifts
  | 0x54 => some (wi l.par.ilo)
  | 0x58 => some (wi l.par.ihi)
  | 0x5C => some (wi l.par.olo)
  | 0x60 => some (wi l.par.ohi)
  | 0x64 => some (wi l.par.feLim)
  | 0x68 => some (wd l.par.feTime)
  | 0x6C => some (lnCfgWord r)
  | 0x74 => some (lnTestStat n k)
  | 0x78 => some (wd (tget 0 (n.port p).lnCapAddr k))
  | _ => none

/-- Words of a capture (R374). -/
def genWord (g : LnGen) (i : Nat) : Option Word :=
  let c := g.samples.length
  match i with
  | 0 => some (wd g.lane)
  | 1 => some (wd c)
  | 2 => some (wd g.t0)
  | 3 => some (wd (g.t0 / 2 ^ 32))
  | 4 => some (wd g.per)
  | 5 => some (w32 g.cfg 24)
  | 6 => some (wd g.state)
  | 7 => some 0#32
  | _ =>
    let j := i - 8
    if j / 3 < c then
      match g.samples[c - 1 - j / 3]? with
      | some (a, b, u) => some (if j % 3 = 0 then a else if j % 3 = 1 then b else u)
      | none => none
    else none

/-- Read of LN_CAP_DATA: status, word, effect (R374). -/
def lnCapData (p : HostPort) (k : Nat) (n : Node) : Nat × Word × Node :=
  let g := n.genC (k / 16)
  let a := tget 0 (n.port p).lnCapAddr k
  let step := n.modPort p (fun x => { x with lnCapAddr := tset 0 x.lnCapAddr k ((a + 1) % 65536) })
  if g.state != 0 && g.lane == k then
    match genWord g a with
    | some w => (0x00, w, step)
    | none => (0x02, 0#32, n)
  else (0x02, 0#32, n)

def lnParWrite (off : Nat) (v : Word) (p : LnPar) : LnPar :=
  match off with
  | 0x40 => { p with kp := v.toInt }
  | 0x44 => { p with ki := v.toInt }
  | 0x48 => { p with kd := v.toInt }
  | 0x4C => { p with kf := v.toInt }
  | 0x50 => { p with shifts := v &&& 0x1F1F1F1F#32 }
  | 0x54 => { p with ilo := v.toInt }
  | 0x58 => { p with ihi := v.toInt }
  | 0x5C => { p with olo := v.toInt }
  | 0x60 => { p with ohi := v.toInt }
  | 0x64 => { p with feLim := v.toInt }
  | 0x68 => { p with feTime := fld v 21 0 }
  | _ => p

/-- LN_TEST: STOP first, then START. -/
def lnTestWrite (k : Nat) (v : Word) (n : Node) : Node :=
  let n1 := if bitOf v 1 then lnTestStop k n else n
  if bitOf v 0 then lnTestStart k n1 else n1

def lnWrite (p : HostPort) (k off : Nat) (v : Word) (n : Node) : Node :=
  match off with
  | 0x08 => lnModeWrite k v n
  | 0x0C => modLn k (fun l => { l with testRefused := l.testRefused && !bitOf v 15, cmdRefused := l.cmdRefused && !bitOf v 14,
                                       pvSeen := l.pvSeen && !bitOf v 13, feSeen := l.feSeen && !bitOf v 12 }) n
  | 0x10 => modLn k (fun l => { l with sp := v.toInt }) n
  | 0x14 => modLn k (fun l => { l with man := v.toInt }) n
  | 0x3C => modLn k (fun l => { l with sat := Nat.land l.sat (31 - fld v 4 0) }) n
  | 0x70 => lnTestWrite k v n
  | 0x78 => n.modPort p (fun x => { x with lnCapAddr := tset 0 x.lnCapAddr k (fld v 15 0) })
  | _ => modLn k (fun l => { l with pendp := lnParWrite off v l.pendp }) n

end Sys2Proof.Machine
end

