-- ==== Sys2Proof/Machine/Calendar.lean ====
section
/-! DEFINITION. Calendar clock of island I11 (spec/18 R471 to R486, R501). -/

namespace Sys2Proof.Machine
open Sys2Proof

/-! ### Count and fraction (R471, R472) -/

/-- The last second the count shows (R472). -/
def clkMax : Nat := 0x02F060597F

/-- The fraction in 1/32,768 s: it runs on with DEVTIME and waits at 0x7FFF for the second to step. -/
def clkFrac (n : Node) : Nat :=
  if n.clk.halted then n.clk.frac
  else min 0x7FFF (n.clk.frac + (n.now - n.clk.at_) * 32768 / secPer)

/-- UTC word of a record: seconds, OSF in bit 63 (R494). -/
def clkUtc (c : Clock) : Nat := c.secs % 2 ^ 40 + b2n c.osf * 2 ^ 63

/-- LOCAL_OFS register (R501). -/
def clkOfsWord (c : Clock) : Word := wd ((c.ofs % 256).toNat + b2n c.dst * 256)

/-! ### The calendar view (R474) -/

/-- VIEW of the time settings leg; UTC before an image is applied. -/
def clkLocal (n : Node) : Bool := recBit (n.legBody 0x13) 0 0

/-- Seconds since 2000-01-01 00:00:00 in the scale of the view. -/
def clkView (n : Node) : Int := n.clk.secs + (if clkLocal n then n.clk.ofs * 900 else 0)

def viewDay (x : Int) : Int := x / 86400
def viewSod (x : Int) : Nat := (x % 86400).toNat

/-- Leap years divide by 4 and either not by 100 or by 400 (R474). -/
def isLeap (y : Nat) : Bool := y % 4 == 0 && (y % 100 != 0 || y % 400 == 0)

/-- Length of a month (R474, R476). -/
def monthLen (y m : Nat) : Nat :=
  if m == 2 then (if isLeap y then 29 else 28) else if m == 4 || m == 6 || m == 9 || m == 11 then 30 else 31

/-- Days of all years before year `y`, counted from 2000-01-01 (negative before it). -/
def daysToYear (y : Nat) : Int :=
  let k : Int := (y : Int) - 1
  let leaps (z : Int) : Int := z / 4 - z / 100 + z / 400
  ((y : Int) - 2000) * 365 + leaps k - leaps 1999

/-- Days of the months before month `m` of year `y`. -/
def daysToMonth (y m : Nat) : Nat := (List.range (m - 1)).foldl (fun a i => a + monthLen y (i + 1)) 0

/-- Day number of a date. -/
def dayOf (y m d : Nat) : Int := daysToYear y + daysToMonth y m + d - 1

/-- The year of a day number: the largest year that has begun by then, near the estimate. -/
def yearOf (x : Int) : Nat :=
  let g := (2000 + x / 366).toNat - 1
  (List.range 5).foldl (fun y i => if daysToYear (g + i) ≤ x then g + i else y) g

/-- Month and day of day `r` of year `y`, counted from 0. -/
def monthDay (y : Nat) : Nat → Nat → Nat → Nat × Nat
  | 0, m, r => (m, r + 1)
  | fuel + 1, m, r => if r < monthLen y m then (m, r + 1) else monthDay y fuel (m + 1) (r - monthLen y m)

def civil (x : Int) : Nat × Nat × Nat :=
  let y := yearOf x
  let (m, d) := monthDay y 11 1 (x - daysToYear y).toNat
  (y, m, d)

/-- ISO 8601 weekday, 1 Monday; 2000-01-01 was a Saturday (R474). -/
def weekday (x : Int) : Nat := ((x + 5) % 7).toNat + 1

def bcd2 (x : Nat) : Nat := x / 10 % 10 * 16 + x % 10
def bcd4 (x : Nat) : Nat := bcd2 (x / 100) * 256 + bcd2 (x % 100)

/-- CAL_TIME (R501). -/
def calTime (n : Node) : Word :=
  let v := clkView n
  let s := viewSod v
  wd (weekday (viewDay v) * 2 ^ 24 + bcd2 (s / 3600) * 65536 + bcd2 (s / 60 % 60) * 256 + bcd2 (s % 60))

/-- CAL_DATE (R501). -/
def calDate (n : Node) : Word :=
  let (y, m, d) := civil (viewDay (clkView n))
  wd (bcd4 y * 65536 + bcd2 m * 256 + bcd2 d)

/-- The five words of the shadow, in address order (R481). -/
def clkWords (n : Node) : List Word :=
  [wd (b2n n.clk.osf * 2 ^ 31 + clkFrac n), wd n.clk.secs, wd (n.clk.secs / 2 ^ 32 % 256), calTime n, calDate n]

/-! ### Records and trust (R479, R482) -/

/-- Type 0x07 record: old and new UTC words, LOCAL_OFS and DST (R495). -/
def clkNote (sev : Nat) (old : Nat) (n : Node) : Node :=
  recNote 7 sev (some (leBytes 8 old ++ leBytes 8 (clkUtc n.clk) ++ leBytes 4 (clkOfsWord n.clk).toNat)) n

/-- OSF sets; while logic is up event 121 and a record follow (R482). -/
def osfSet (n : Node) : Node :=
  if n.clk.osf then n
  else
    let n1 : Node := { n with clk.osf := true }
    if n.up then clkNote 2 (clkUtc n.clk) (raise 121 n1) else n1

/-- At the entry to BOOT with OSF = 1 (R482). -/
def clkBoot (n : Node) : Node := if n.clk.osf then clkNote 2 (clkUtc n.clk) (raise 121 n) else n

/-- CLK_ALM (R480): the view has stepped by counting into the second of day. -/
def clkAlarm (n : Node) : Node :=
  raiseIf (n.up && !n.clk.osf && bitOf n.clk.alm 31 && viewSod (clkView n) == fld n.clk.alm 16 0) 120 n

/-- CLOCK_SECOND: the fraction wraps and the count steps, or stops at its end (R471, R472). -/
def clkSecond (n : Node) : Node :=
  if n.clk.rangeEnd then n
  else if clkMax ≤ n.clk.secs then
    osfSet { n with clk.frac := 0x7FFF, clk.at_ := n.now, clk.halted := true, clk.rangeEnd := true }
  else clkAlarm { n with clk.secs := n.clk.secs + 1, clk.frac := 0, clk.at_ := n.now, clk.halted := false }

/-- An accepted set (R479). -/
def clkSet (secs : Nat) (n : Node) : Node :=
  let n1 : Node := { n with clk.secs := secs, clk.frac := 0, clk.at_ := n.now, clk.halted := false, clk.osf := false,
                            clk.rangeEnd := false }
  clkNote 1 (clkUtc n.clk) n1

/-- A set whose value cannot exist (R478). -/
def clkReject (n : Node) : Node := raise 121 { n with clk.dateReject := true }

def clkRefuse (n : Node) : Node := { n with clk.cmdRefused := true }

/-- SET_BIN (R477); bits 31:8 of TSET_HI read 0, yet a nonzero value written there makes the set fail (R478). -/
def clkSetBin (n : Node) : Node :=
  let x := n.clk.tsetHi.toNat * 2 ^ 32 + n.clk.tsetLo.toNat
  if clkMax < x then clkReject n else clkSet x n

/-- A BCD field of `k` digits, `none` with a nibble above 9. -/
def bcdDec : Nat → Nat → Option Nat
  | 0, _ => some 0
  | k + 1, x => if 9 < x % 16 then none else (bcdDec k (x / 16)).map (fun h => h * 10 + x % 16)

/-- The TSET calendar value as seconds since 2000-01-01 in its own scale, with its year; `none` where it cannot exist. -/
def tsetDecode (time date : Word) : Option (Int × Nat) :=
  match bcdDec 4 (fld date 31 16), bcdDec 2 (fld date 15 8), bcdDec 2 (fld date 7 0),
        bcdDec 2 (fld time 23 16), bcdDec 2 (fld time 15 8), bcdDec 2 (fld time 7 0) with
  | some y, some m, some d, some h, some mi, some s =>
    if m == 0 || decide (12 < m) || d == 0 || decide (monthLen y m < d) || decide (23 < h) || decide (59 < mi) || decide (59 < s)
    then none
    else some (dayOf y m d * 86400 + h * 3600 + mi * 60 + s, y)
  | _, _, _, _, _, _ => none

/-- SET_BCD (R477, R478). -/
def clkSetBcd (n : Node) : Node :=
  match tsetDecode n.clk.tsetTime n.clk.tsetDate with
  | none => clkReject n
  | some (x, y) =>
    let utc := x - (if clkLocal n then n.clk.ofs * 900 else 0)
    if utc < 0 || (clkMax : Int) < utc || (clkLocal n && (decide (y < 1999) || decide (2400 < y))) then clkReject n
    else clkSet utc.toNat n

def ofsOk (x : Int) : Bool := decide (-56 ≤ x) && decide (x ≤ 56)

/-- LOCAL_OFS and DST take new values, with a record (R475, R479). -/
def clkOfs (x : Int) (dst : Bool) (n : Node) : Node :=
  clkNote 1 (clkUtc n.clk) { n with clk.ofs := x, clk.dst := dst }

def clkSetOfs (arg : Nat) (n : Node) : Node :=
  let x := sgn 8 arg
  if ofsOk x then clkOfs x n.clk.dst n else clkRefuse n

def clkDstFwd (n : Node) : Node :=
  if n.clk.dst || !ofsOk (n.clk.ofs + 4) then clkRefuse n else clkOfs (n.clk.ofs + 4) true n

def clkDstBack (n : Node) : Node :=
  if !n.clk.dst || !ofsOk (n.clk.ofs - 4) then clkRefuse n else clkOfs (n.clk.ofs - 4) false n

/-- A write of CLK_CMD (R477). -/
def clkCmd (v : Word) (n : Node) : Node :=
  if fld v 31 16 != 0x7A3E then clkRefuse n
  else match fld v 3 0 with
    | 1 => clkSetBin n
    | 2 => clkSetBcd n
    | 3 => clkSetOfs (fld v 15 8) n
    | 4 => clkDstFwd n
    | 5 => clkDstBack n
    | _ => clkRefuse n

/-! ### Coherent reads (R481) -/

/-- The shadow of a master, released by itself after 2 ms. -/
def Node.shadow (n : Node) (i : Nat) : Shadow :=
  let s := tget {} n.clk.shadows i
  if s.frozen && decide (s.since + 500000 ≤ n.now) then { s with frozen := false, words := [], since := 0, timeout := true } else s

def setShadow (i : Nat) (s : Shadow) (n : Node) : Node := { n with clk.shadows := tset {} n.clk.shadows i s }

/-- SHADOW_TIMEOUT: the release takes place. -/
def shadowExpire (i : Nat) (n : Node) : Node := setShadow i (n.shadow i) n

/-- A read of word `k` of the shadow set by master `i`. -/
def shadowRead (i k : Nat) (n : Node) : Word × Node :=
  let s := n.shadow i
  let s1 : Shadow := if s.frozen then s else { s with frozen := true, since := n.now, words := clkWords n }
  let w := s1.words.getD k 0#32
  let s2 : Shadow := if k = 4 then { s1 with frozen := false, words := [], since := 0 } else s1
  (w, setShadow i s2 n)

/-- CLK_STATUS as master `i` sees it (R501). -/
def clkStatus (n : Node) (i : Nat) : Word :=
  let s := n.shadow i
  let c := n.clk
  wd (b2n c.osf * 2 ^ 31 + b2n c.rangeEnd * 256 + b2n s.timeout * 128 + b2n c.dateReject * 64 + b2n c.cmdRefused * 32
    + b2n c.backupLow * 16 + b2n c.onBackup * 8 + b2n s.frozen * 4 + b2n (clkLocal n) * 2)

/-- A write of CLK_STATUS; a release by time in the very cycle of the write leaves SHADOW_TO set (R9, R481). -/
def clkStatusWrite (i : Nat) (v : Word) (n : Node) : Node :=
  let s := n.shadow i
  let was := tget {} n.clk.shadows i
  let lapse := was.frozen && was.since + 500000 == n.now
  let n1 := setShadow i { s with timeout := (s.timeout && !bitOf v 7) || lapse } n
  { n1 with clk.dateReject := n1.clk.dateReject && !bitOf v 6, clk.cmdRefused := n1.clk.cmdRefused && !bitOf v 5 }

/-! ### Supply (R482 to R485) -/

/-- The oscillator shows no edge for 250 µs: the count holds (R482, R483). -/
def clkOscStop (n : Node) : Node :=
  osfSet { n with clk.frac := clkFrac n, clk.at_ := n.now, clk.halted := true }

/-- The I11 supply stays below 1.45 V for more than 2 µs; `dead`: main and VBAK both absent, the count restarts at 0. -/
def clkDip (dead : Bool) (n : Node) : Node :=
  if dead then
    osfSet { n with clk.secs := 0, clk.frac := 0, clk.at_ := n.now, clk.halted := false, clk.rangeEnd := false, clk.ofs := 0,
                    clk.dst := false, clk.tchEn := false, clk.tchR := false, clk.tchV := false }
  else osfSet n

def clkSource (toVbak : Bool) (n : Node) : Node := { n with clk.onBackup := toVbak }

/-- VBAK is measured (R484). -/
def clkVbak (mV : Nat) (n : Node) : Node :=
  let n1 : Node := { n with clk.vbak := mV % 65536 }
  if mV < 2200 then raiseIf (!n.clk.backupLow) 122 { n1 with clk.backupLow := true }
  else if 2300 < mV then { n1 with clk.backupLow := false } else n1

/-- The trickle charger charges: enabled, from the main supply, VBAK below its limit (R485, R501). -/
def clkCharging (c : Clock) : Bool := c.tchEn && !c.onBackup && decide (c.vbak < (if c.tchV then 3300 else 3000))

/-- CLK_ALM holds EN and SOD only (R12, R501). -/
def clkAlmMask (v : Word) : Word := v &&& 0x8001FFFF#32

/-- The time settings leg at the application of an image (R485, R486). -/
def clkApply (n : Node) : Node :=
  let b := n.legBody 0x13
  let n1 : Node := { n with clk.tchEn := recBit b 3 1, clk.tchR := recBit b 3 2, clk.tchV := recBit b 3 3, clk.alm := clkAlmMask (w32 b 4) }
  if recBit b 3 0 && (i8 b 1 != n.clk.ofs || recBit b 2 0 != n.clk.dst) then clkOfs (i8 b 1) (recBit b 2 0) n1 else n1

/-- DEVTIME restarts at a reset: the fraction goes on from where it stands. -/
def clkRebase (n : Node) : Node := { n with clk.frac := clkFrac n, clk.at_ := 0 }

/-! ### Registers (R501); the shadow set and CLK_STATUS apart -/

def clkRead (n : Node) (addr : Nat) : Option Word :=
  match addr with
  | 0x1424 => some (clkOfsWord n.clk)
  | 0x1428 => some (n.clk.alm)
  | 0x142C => some (wd n.clk.vbak)
  | 0x1430 => some n.clk.tsetLo
  | 0x1434 => some (n.clk.tsetHi &&& 0xFF#32)
  | 0x1438 => some n.clk.tsetTime
  | 0x143C => some n.clk.tsetDate
  | 0x1444 => some (wd (b2n n.clk.tchV * 8 + b2n n.clk.tchR * 4 + b2n (clkCharging n.clk) * 2 + b2n n.clk.tchEn))
  | _ => none

def clkWrite (addr : Nat) (v : Word) (n : Node) : Node :=
  match addr with
  | 0x1428 => { n with clk.alm := clkAlmMask v }
  | 0x1430 => { n with clk.tsetLo := v }
  | 0x1434 => { n with clk.tsetHi := v }
  | 0x1438 => { n with clk.tsetTime := v &&& 0x07FFFFFF#32 }
  | 0x143C => { n with clk.tsetDate := v }
  | 0x1440 => clkCmd v n
  | _ => n

end Sys2Proof.Machine
end

