-- ==== Sys2Proof/Machine/Recorder.lean ====
section
/-! DEFINITION. Milestone stamps and the service recorder (spec/18 R487 to R503). -/

namespace Sys2Proof.Machine
open Sys2Proof

/-! ### Milestone stamps (R487, R488) -/

/-- Operating time in 1/16 s. -/
def opNow (n : Node) : Nat := (n.rcd.op + (n.now - n.rcd.opAt) / 15625000) % 2 ^ 40

/-- The milestone stamp (R487). -/
def msStamp (n : Node) : Nat := n.mram.cycles * 2 ^ 40 + opNow n

/-- MILESTONE_COMMIT: the operating time goes to MRAM. -/
def msCommit (n : Node) : Node := { n with mram.op := opNow n }

/-- DEVTIME restarts at a reset: the operating time goes on. -/
def msRebase (n : Node) : Node := { n with rcd.op := opNow n, rcd.opAt := 0 }

/-- Supply valid after OFF: the power cycle counts, the operating time goes on from MRAM. -/
def msPowerUp (n : Node) : Node :=
  { n with mram.cycles := satInc 0xFFFFFF n.mram.cycles, rcd.op := n.mram.op, rcd.opAt := n.now }

/-! ### Windows (R490) -/

def startupW (n : Node) : Nat := if n.hasLeg 0x13 then u16 (n.legBody 0x13) 8 * secPer else 60 * secPer
def recovW (n : Node) : Nat := if n.hasLeg 0x13 then u16 (n.legBody 0x13) 10 * secPer else 60 * secPer

def startupOpen (n : Node) : Bool :=
  n.rcd.startup && (match n.rcd.runAt with
    | some a => decide (n.now < a + startupW n)
    | none => true)

def testOpen (n : Node) : Bool :=
  (List.range 24).any n.expert || n.ui.any (fun x => x.2.force) || genRuns (n.genC 0) || genRuns (n.genC 1)

def recovOpen (n : Node) : Bool :=
  match n.rcd.recovAt with
  | some a => decide (n.now < a + recovW n)
  | none => false

/-- REC_STATUS (R502). -/
def recWindows (n : Node) : Nat := b2n (startupOpen n) + 2 * b2n (testOpen n) + 4 * b2n (recovOpen n)

/-- WINDOW_CLOSE: windows whose time has run out close. -/
def windowClose (n : Node) : Node :=
  { n with rcd.startup := startupOpen n, rcd.recovAt := if recovOpen n then n.rcd.recovAt else none }

/-! ### The ring (R494, R496, R498) -/

def ringSlots : Nat := 23831

/-- The lowest number that is no key of a table with rising keys. -/
def firstGap {α : Type} : Table α → Nat → Nat
  | [], i => i
  | (k, _) :: r, i => if k = i then firstGap r (i + 1) else i

/-- Slot with the lowest SEQ among those of severity at most `sev`. -/
def ringVictim (sev : Nat) (t : Table RingRec) : Option (Nat × Word) :=
  t.foldl (fun a x =>
    if sev < x.2.sev then a
    else match a with
      | some (_, q) => if x.2.seq < q then some (x.1, x.2.seq) else a
      | none => some (x.1, x.2.seq)) none

/-- A record is dropped (R496). -/
def recDrop (n : Node) : Node :=
  raise 123 { n with mram.drop := satInc 0xFFFFFFFF n.mram.drop }

/-- A record is placed in slot `k`. -/
def recStore (k typ sev : Nat) (pay : Bytes) (n : Node) : Node :=
  let r : RingRec := { typ := typ, sev := sev, seq := n.mram.seq, stamp := msStamp n, utc := clkUtc n.clk, pay := pay }
  { n with mram.ring := tset {} n.mram.ring k r, mram.seq := n.mram.seq + 1#32 }

/-- The rate limit of R498: the count of the running second goes on. -/
def recRate (n : Node) : Node :=
  let s := n.now / secPer
  if n.rcd.rateSec = s then { n with rcd.rateNum := n.rcd.rateNum + 1 }
  else { n with rcd.rateSec := s, rcd.rateNum := 1 }

/-- RECORD_WRITE (R496, R498). -/
def recPlace (typ sev : Nat) (pay : Bytes) (n : Node) : Node :=
  let n1 := recRate n
  if 1000 < n1.rcd.rateNum then recDrop n1
  else
    let g := firstGap n1.mram.ring 0
    if g < ringSlots then recStore g typ sev pay n1
    else match ringVictim sev n1.mram.ring with
      | some (k, _) => recStore k typ sev pay n1
      | none => recDrop n1

/-! ### Statistics (R491 to R493, R500) -/

def planKind (r : Bytes) : Nat := u8 r 0
def planWin (r : Bytes) : Nat := u8 r 1
def planSrc (r : Bytes) : Nat := u16 r 2
def planLo (r : Bytes) : Int := i32 r 4
def planHi (r : Bytes) : Int := i32 r 8
def planPer (r : Bytes) : Nat := u16 r 12
def planMask (r : Bytes) : Nat := u8 r 14

def Node.plan (n : Node) : List Bytes := n.recs 0x12 1
def Node.planItem (n : Node) (i : Nat) : Bytes := (n.dense 0x12 1 i).getD []

/-- Operating hours in 1/16 s. -/
def hourOp : Nat := 57600

/-- The item as it is written to: emptied where another plan item wrote its slots, slot 0 and the ring opened (R491, R500). -/
def statOpen (n : Node) (r : Bytes) (x : StatItem) : StatItem :=
  let b := r.take 12
  let x1 : StatItem := if x.mem = b then x else { mem := b }
  let x2 : StatItem := if (tget {} x1.slots 0).opened = 0
    then { x1 with slots := tmod {} x1.slots 0 (fun s => { s with opened := msStamp n }) } else x1
  if planWin r != 0 && x2.cur == 0 then
    { x2 with cur := 1, slots := tset {} x2.slots 1 { opened := msStamp n } }
  else x2

/-- STAT_WINDOW_ROLL of item `i`: a window that has run its length is closed and the next slot reopened (R491). -/
def statRoll (i : Nat) (n : Node) : Node :=
  let r := n.planItem i
  let x := tget {} n.mram.items i
  let s := tget {} x.slots x.cur
  if (planKind r == 1 || planKind r == 2) && x.mem == r.take 12 && planWin r != 0 && x.cur != 0
      && decide (s.opened % 2 ^ 40 + planWin r * hourOp ≤ opNow n) then
    let nx := if x.cur = 15 then 1 else x.cur + 1
    let sl := tset {} (tset {} x.slots x.cur { s with closed := msStamp n }) nx { opened := msStamp n }
    { n with mram.items := tset {} n.mram.items i { x with cur := nx, slots := sl } }
  else n

/-- Both slots that a sample or an occurrence goes to. -/
def statBoth (f : StatSlot → StatSlot) (x : StatItem) : StatItem :=
  let s := tmod {} x.slots 0 f
  { x with slots := if x.cur = 0 then s else tmod {} s x.cur f }

def statAdd (i : Nat) (f : StatSlot → StatSlot) (n : Node) : Node :=
  let n1 := statRoll i n
  let r := n1.planItem i
  { n1 with mram.items := tset {} n1.mram.items i (statBoth f (statOpen n1 r (tget {} n1.mram.items i))) }

/-- Bin of a sample (R492). -/
def statBin (lo hi e : Int) : Nat := if e < lo then 0 else if hi ≤ e then 31 else 1 + ((e - lo) * 30 / (hi - lo)).toNat

/-- A sample enters a slot (R492). -/
def statSample (lo hi : Int) (v : Word) (stamp : Nat) (s : StatSlot) : StatSlot :=
  let e := v.toInt
  let s1 : StatSlot := if s.num = 0 || decide (e < s.min.toInt) then { s with min := v, minAt := stamp } else s
  let s2 : StatSlot := if s.num = 0 || decide (s.max.toInt < e) then { s1 with max := v, maxAt := stamp } else s1
  let b := statBin lo hi e
  { s2 with num := satInc 0xFFFFFFFF s.num, bins := tmod 0 s.bins b (satInc 0xFFFFFFFF) }

/-- HISTOGRAM_SAMPLE of item `i`: every PERIOD scan ticks a new valid result is counted (R492). -/
def histSample (i : Nat) (n : Node) : Node :=
  let r := n.planItem i
  let x := n.res (planSrc r)
  if planKind r == 1 && planPer r != 0 && n.scan.toNat % planPer r == 0 && n.isRun 10 && n.roleOn 8 0 && qHas (resQ x) qVALID
      && tget none n.rcd.lastSeq i != some x.seq then
    statAdd i (statSample (planLo r) (planHi r) x.value (msStamp n))
      { n with rcd.lastSeq := tset none n.rcd.lastSeq i (some x.seq) }
  else n

/-- An occurrence is counted by every count item of its class and channel (R492). -/
def countOcc (cls ch : Nat) (n : Node) : Node :=
  n.plan.zipIdx.foldl (fun m (r, i) =>
    if planKind r == 2 && planSrc r == cls * 256 + ch then
      statAdd i (fun s => { s with count := (s.count + 1) % 2 ^ 64 }) m
    else m) n

/-- Bitmap of the items that the applied image restarts (R495, R500). -/
def restartMap (n : Node) : Bytes × Bool :=
  let hit (i : Nat) : Bool :=
    let r := n.planItem i
    (planKind r == 1 || planKind r == 2) && (tget {} n.mram.items i).mem != r.take 12
  ((List.range 64).map (fun k => BitVec.ofNat 8 ((List.range 8).foldl (fun a j => a + b2n (hit (8 * k + j)) * 2 ^ j) 0)),
   (List.range 512).any hit)

/-- The plan of an applied image (R500). -/
def recApply (n : Node) : Node :=
  let (m, any) := restartMap n
  let n1 : Node := { n with rcd.lastSeq := [] }
  if any then recNote 12 1 (some m) n1 else n1

/-! ### Window samples (R495) -/

/-- KIND 3 items due at this tick, in ascending number. -/
def windowDue (n : Node) : List (Nat × Bytes) :=
  n.plan.zipIdx.filterMap (fun (r, i) =>
    if planKind r == 3 && planPer r != 0 && n.scan.toNat % planPer r == 0 && Nat.land (planMask r) (recWindows n) != 0
    then some (i, r) else none)

/-- VALUE and QSEQ of an item, as an internal master reads them. -/
def windowWords (n : Node) (r : Bytes) : Bytes :=
  let x := n.res (planSrc r)
  leBytes 4 (valueWord x).toNat ++ leBytes 4 (qseqWord x none).toNat

/-- Records of at most 29 items each. -/
def windowRecs (n : Node) : Nat → List (Nat × Bytes) → Node → Node
  | 0, _, m => m
  | _, [], m => m
  | k + 1, (i, r) :: rest, m =>
    let part := ((i, r) :: rest).take 29
    windowRecs n k (((i, r) :: rest).drop 29)
      (recNote 10 0 (some (leBytes 2 i ++ leBytes 2 part.length ++ part.flatMap (fun x => windowWords n x.2))) m)

/-- WINDOW_SAMPLE: due items of the open windows are written as type 0x0A records. -/
def windowSample (n : Node) : Node :=
  let due := windowDue n
  if n.isRun 10 && n.roleOn 8 0 && !due.isEmpty && n.rcd.winAt != some (n.now / scanPer) then
    windowRecs n 18 due { n with rcd.winAt := some (n.now / scanPer) }
  else n

/-- The recorder at a scan tick. -/
def recScan (n : Node) : Node :=
  let n1 := (List.range n.plan.length).foldl (fun m i => histSample i (statRoll i m)) (windowClose n)
  windowSample n1

/-! ### Reading (R497) -/

def padWords (b : Bytes) : List Word := (List.range ((b.length + 3) / 4)).map (fun i => w32 b (4 * i))

/-- A record's words, header first (R494). -/
def ringWords (r : RingRec) : List Word :=
  padWords (leBytes 1 r.typ ++ leBytes 1 r.sev ++ leBytes 2 r.pay.length ++ leBytes 4 r.seq.toNat ++ leBytes 8 r.stamp
    ++ leBytes 8 r.utc ++ r.pay)

/-- The record with the lowest SEQ at or above `v`. -/
def ringSeek (v : Word) (t : Table RingRec) : Option RingRec :=
  t.foldl (fun a x =>
    if x.2.seq < v then a
    else match a with
      | some y => if x.2.seq < y.seq then some x.2 else a
      | none => some x.2) none

/-- REC_SEL_WRITE. -/
def recSelWrite (p : HostPort) (v : Word) (n : Node) : Node :=
  match ringSeek v n.mram.ring with
  | some r => n.modPort p (fun q => { q with recSel := r.seq, recLatch := ringWords r, recPos := 0, recValid := true })
  | none => n.modPort p (fun q => { q with recSel := v, recLatch := [], recPos := 0, recValid := false })

/-- A read of a latch: status NO_REGISTER past its end (R105, R497). -/
def noRegister : Nat := 2

/-- REC_DATA_READ. -/
def recDataRead (p : HostPort) (n : Node) : Nat × Word × Node :=
  let q := n.port p
  match q.recLatch[q.recPos]? with
  | some w => (0, w, n.setPort p { q with recPos := q.recPos + 1 })
  | none => (noRegister, 0#32, n)

def recRstat (q : Port) : Word := wd (b2n q.recValid * 2 ^ 31 + q.recLatch.length % 128)

/-- The 64 words of a statistics slot (R493). -/
def slotWords (s : StatSlot) : List Word :=
  padWords (leBytes 8 s.opened ++ leBytes 8 s.closed ++ leBytes 4 s.num ++ leBytes 4 0 ++ leBytes 4 s.min.toNat ++ leBytes 4 0
    ++ leBytes 8 s.minAt ++ leBytes 4 s.max.toNat ++ leBytes 4 0 ++ leBytes 8 s.maxAt ++ leBytes 8 s.count
    ++ (List.range 32).flatMap (fun b => leBytes 4 (tget 0 s.bins b)) ++ List.replicate 64 0#8)

/-- ST_SEL_WRITE. -/
def stSelWrite (p : HostPort) (v : Word) (n : Node) : Node :=
  let s := tget {} (tget {} n.mram.items (fld v 24 16)).slots (fld v 11 8)
  n.modPort p (fun q => { q with stSel := v &&& 0x01FF0F3F#32, stLatch := slotWords s, stPos := fld v 5 0 })

/-- ST_DATA_READ. -/
def stDataRead (p : HostPort) (n : Node) : Nat × Word × Node :=
  let q := n.port p
  match q.stLatch[q.stPos]? with
  | some w => (0, w, n.setPort p { q with stPos := q.stPos + 1 })
  | none => (noRegister, 0#32, n)

/-- REC_APPEND (R503): the status, and the node with the record due. -/
def recAppend (v : Word) (n : Node) : Nat × Node :=
  let len := fld v 31 24
  let sev := fld v 9 8
  let typ := fld v 7 0
  if typ < 0x80 || decide (2 < sev) || decide (240 < len) then (noRegister, n)
  else
    let b := (List.range 60).flatMap (fun i => leBytes 4 (tget 0#32 n.rcd.app i).toNat)
    (0, recNote typ sev (some (b.take len)) n)

/-- MS_LO_READ: the high half is latched for the port (R27, R488). -/
def msLoRead (p : HostPort) (n : Node) : Word × Node :=
  (wd (msStamp n), n.modPort p (fun q => { q with msHi := some (wd (msStamp n / 2 ^ 32)) }))

/-- A read of MS_HI: the latched word, once; else the live one. -/
def msHiRead (p : HostPort) (n : Node) : Word × Node :=
  ((n.port p).msHi.getD (wd (msStamp n / 2 ^ 32)), n.modPort p (fun q => { q with msHi := none }))

/-- Lowest SEQ in the ring; REC_SEQ while it is empty. -/
def recOldest (n : Node) : Word := match ringSeek 0#32 n.mram.ring with
  | some r => r.seq
  | none => n.mram.seq

/-- Registers of R502 without an effect of their reads. -/
def recRead (n : Node) (p : HostPort) (addr : Nat) : Option Word :=
  let q := n.port p
  match addr with
  | 0x1800 => some (wd (recWindows n))
  | 0x1804 => some n.mram.seq
  | 0x1808 => some (recOldest n)
  | 0x180C => some (wd n.mram.drop)
  | 0x1810 => some (wd ((n.mram.ring.filter (fun x => x.2.sev == 3)).length * 65536 + n.mram.ring.length))
  | 0x1820 => some q.recSel
  | 0x1828 => some (recRstat q)
  | 0x1830 => some q.stSel
  | 0x1838 => some (wd (tget {} n.mram.items (fld q.stSel 24 16)).cur)
  | _ => if 0x1840 ≤ addr ∧ addr ≤ 0x192C ∧ addr % 4 = 0 then some (tget 0#32 n.rcd.app ((addr - 0x1840) / 4)) else none

def recAppWrite (addr : Nat) (v : Word) (n : Node) : Node :=
  { n with rcd.app := tset 0#32 n.rcd.app ((addr - 0x1840) / 4) v }

end Sys2Proof.Machine
end

