-- ==== Sys2Proof/Machine/Alarm.lean ====
section
/-! DEFINITION. Alarm points, groups, watch calls, patrol timer and alarm log (spec/14 R379 to R404; R79 rows 0x0B, 0x0C). -/

namespace Sys2Proof.Machine
open Sys2Proof

/-! ### Records (R379, R390, R393, R394) -/

def tenMs : Nat := 2500000

def Node.almRecs (n : Node) : List Bytes := n.recs 0x0B 1
def Node.almRec (n : Node) (i : Nat) : Bytes := (n.dense 0x0B 1 i).getD []

def ptSrc (r : Bytes) : Nat := u16 r 0
def ptRef (r : Bytes) : Nat := u16 r 2
def ptCond (r : Bytes) : Nat := u8 r 4 % 16
def ptOpt (r : Bytes) : Nat := u8 r 4 / 16
def ptText (r : Bytes) : Nat := u16 r 22
def ptClass (r : Bytes) : Nat := u8 r 5 % 4
def ptOn (r : Bytes) : Bool := recBit r 6 0
def ptLatch (r : Bytes) : Bool := recBit r 6 1
def ptFirst (r : Bytes) : Bool := recBit r 6 2
def ptShelv (r : Bytes) : Bool := recBit r 6 3
def ptSupp (r : Bytes) : Bool := recBit r 6 4
def ptLim (r : Bytes) : Int := i32 r 8
def ptHys (r : Bytes) : Int := i32 r 12
def ptOnDly (r : Bytes) : Nat := u16 r 16 * tenMs
def ptOffDly (r : Bytes) : Nat := u16 r 18 * tenMs
def ptGroup (r : Bytes) : Nat := u8 r 20

/-- The point is used (R379). -/
def Node.ptUsed (n : Node) (i : Nat) : Bool := ptOn (n.almRec i)

/-- Points in use with their records, ascending. -/
def Node.points (n : Node) : List (Nat × Bytes) := n.almRecs.zipIdx.filterMap (fun (r, i) => if ptOn r then some (i, r) else none)

/-- Group records; one default group where there are none (R390). -/
def Node.groupRecs (n : Node) : List Bytes :=
  match n.ld.img with
  | some g => let rs := g.recs 0x0C 2; if rs.isEmpty then [List.replicate 16 0#8] else rs
  | none => []

def Node.groupRec (n : Node) (g : Nat) : Bytes := (n.groupRecs[g]?).getD []
def Node.groupUsed (n : Node) (g : Nat) : Bool := decide (g < n.groupRecs.length)

/-- Alarm globals, with the defaults of R393. -/
def Node.almGlob (n : Node) : Bytes :=
  match n.recs 0x0C 1 with
  | r :: _ => r
  | [] => leBytes 2 120 ++ leBytes 2 120 ++ leBytes 2 1620 ++ leBytes 2 180 ++ leBytes 2 0 ++ [0xFF#8]

def Node.t1 (n : Node) : Nat := u16 n.almGlob 0 * secPer
def Node.t2 (n : Node) : Nat := u16 n.almGlob 2 * secPer
def Node.patrolT (n : Node) : Nat := u16 n.almGlob 4 * secPer
def Node.prewarnT (n : Node) : Nat := u16 n.almGlob 6 * secPer
def Node.recallT (n : Node) : Nat := u16 n.almGlob 8 * secPer
def Node.duty0 (n : Node) : Nat := u8 n.almGlob 10

/-- KIND of station `s`, 0 unused (R394). -/
def Node.stn (n : Node) (s : Nat) : Bytes := (n.dense 0x0C 3 s).getD []
def stnKind (r : Bytes) : Nat := u8 r 0
def stnEngineer (r : Bytes) : Nat := u8 r 1

/-- The alarm engine works (R85, R403, R450). -/
def Node.almRun (n : Node) : Bool := n.acq && n.carries

/-- It evaluates: neither of its two roles is paused or lost (R30). DESIGN CHOICE (notes/assumptions/54.md): the engine stands
as a whole while one of them is. -/
def Node.almWorks (n : Node) : Bool := n.almRun && n.roleOn 4 0 && n.roleOn 4 1

def Node.almP (n : Node) (i : Nat) : AlmPt := tget {} n.alm.pts i
def setAlmP (i : Nat) (p : AlmPt) (n : Node) : Node := { n with alm.pts := tset {} n.alm.pts i p }
def Node.almG (n : Node) (g : Nat) : AlmGrp := tget {} n.alm.grps g
def setAlmG (g : Nat) (x : AlmGrp) (n : Node) : Node := { n with alm.grps := tset {} n.alm.grps g x }

/-! ### Log (R401, R402) -/

/-- One entry of the alarm log (R401). -/
def almLog (kind idx new old cause : Nat) (w1 : Word) (n : Node) : Node :=
  let e : AlmLog := { w0 := wd (new * 2 ^ 28 + old * 2 ^ 24 + cause * 2 ^ 20 + kind * 65536 + idx % 4096), w1 := w1, time := n.now }
  let q := n.alm.head
  let wrap := q != 0 && q % 1024 == 0
  raiseIf wrap 101 { n with alm.log := tset {} n.alm.log (q % 1024) e, alm.head := q + 1, alm.logWrap := n.alm.logWrap || wrap }

/-- Number of the next transition: above every point's last one (R436). -/
def almOrder (n : Node) : Nat := n.alm.pts.foldl (fun a x => max a x.2.order) 0 + 1

/-- The point enters a state, with its log entry; entries into ACTIVE_UNACK are remembered for the next tick (R387, R401). -/
def almGo (i new cause : Nat) (w1 : Option Word) (n : Node) : Node :=
  let p := n.almP i
  let r := n.almRec i
  let v := w1.getD (valueWord (n.res (ptSrc r)))
  let ent := if new = 1 ∧ p.st ≠ 1 then n.alm.entered ++ [(i, p.st, (n.almG (ptGroup r)).fo == 0)] else n.alm.entered
  let n1 := setAlmP i { p with st := new, tick := n.scan, order := almOrder n } n
  almLog 0 i new p.st cause v { n1 with alm.entered := ent, alm.alfDue := n1.alm.alfDue ++ [(i, new)] }

def modAlmP (i : Nat) (f : AlmPt → AlmPt) (n : Node) : Node := setAlmP i (f (n.almP i)) n

/-- Delays stop (R386, R388). -/
def almNoDelay (p : AlmPt) : AlmPt := { p with onAt := none, offAt := none }

/-! ### Delays and the transitions they bring (R384, R387) -/

/-- Expiry of the on-delay that started at `start`, with COND = 1. -/
def almOnExp (i : Nat) (start : Int) (n : Node) : Node :=
  let n1 := modAlmP i (fun p => { p with onAt := none }) n
  match (n.almP i).st with
  | 0 => raise 96 (almGo i 1 0 none (modAlmP i (fun p => { p with upAt := start }) n1))
  | 3 => almGo i 1 0 none (modAlmP i (fun p => { p with upAt := start }) n1)
  | _ => n1

/-- Expiry of the off-delay with COND = 0. -/
def almOffExp (i : Nat) (n : Node) : Node :=
  let n1 := modAlmP i (fun p => { p with offAt := none }) n
  let latch := ptLatch (n.almRec i)
  match (n.almP i).st with
  | 1 => if latch then almGo i 1 1 none n1 else raise 97 (almGo i 3 1 none n1)
  | 2 => if latch then almGo i 2 1 none n1 else raise 97 (almGo i 0 1 none n1)
  | _ => n1

/-- ON_DELAY_EXPIRY at `t`, where it is due. -/
def almOnDue (i t : Nat) (n : Node) : Node :=
  let p := n.almP i
  match p.onAt with
  | some a => if n.almWorks && p.cond && decide (a + (ptOnDly (n.almRec i) : Nat) ≤ (t : Int)) then almOnExp i a n else n
  | none => n

/-- OFF_DELAY_EXPIRY at `t`, where it is due. -/
def almOffDue (i t : Nat) (n : Node) : Node :=
  let p := n.almP i
  match p.offAt with
  | some a => if n.almWorks && !p.cond && decide (a + (ptOffDly (n.almRec i) : Nat) ≤ (t : Int)) then almOffExp i n else n
  | none => n

/-- COND takes a value, evaluated on a record completed at `t`; a delay starts in the annunciation states and one of 0
expires at once (R384, R386). -/
def almCond (i : Nat) (c : Bool) (t : Nat) (n : Node) : Node :=
  let p := n.almP i
  let r := n.almRec i
  if p.cond = c then n
  else if 3 < p.st then setAlmP i { p with cond := c } n
  else if c then
    let n1 := setAlmP i { p with cond := true, offAt := none, onAt := some (t : Int) } n
    if ptOnDly r = 0 then almOnExp i t n1 else n1
  else
    let n1 := setAlmP i { p with cond := false, onAt := none, offAt := some (t : Int) } n
    if ptOffDly r = 0 then almOffExp i n1 else n1

/-- NORMAL is entered from an override state or a suppression: every delay is cancelled, and with COND = 1 the on-delay
starts now (R388). -/
def almToNormal (i cause : Nat) (w1 : Option Word) (n : Node) : Node :=
  let n1 := almGo i 0 cause w1 (modAlmP i (fun p => { almNoDelay p with suppPend := false }) n)
  if (n1.almP i).cond then
    let n2 := modAlmP i (fun p => { p with onAt := some (n1.now : Int) }) n1
    if ptOnDly (n1.almRec i) = 0 then almOnExp i n1.now n2 else n2
  else n1

/-- SUPPRESSED is entered. -/
def almToSupp (i cause : Nat) (w1 : Option Word) (n : Node) : Node :=
  almGo i 4 cause w1 (modAlmP i (fun p => { almNoDelay p with suppPend := false }) n)

/-- The point leaves an override state (R388). -/
def almLeave (i cause : Nat) (n : Node) : Node :=
  let r := n.almRec i
  let n1 := modAlmP i (fun p => { p with shelveEnd := none }) n
  if ptSupp r && (n.almG (ptGroup r)).supp then almToSupp i cause none n1 else almToNormal i cause none n1

/-- The point enters override state `st`; out of an unacknowledged state the entry has CAUSE 12 and carries the command's
cause (R388, R401). -/
def almOver (i st cause : Nat) (n : Node) : Node :=
  let s := (n.almP i).st
  let drop := s == 1 || s == 3
  let n1 := modAlmP i (fun p => { almNoDelay p with suppPend := false, shelveEnd := none,
                                                    cond := p.cond && st != 7, srcBad := p.srcBad && st != 7 }) n
  almGo i st (if drop then 12 else cause) (if drop then some (wd cause) else none) n1

/-- SHELVE_EXPIRY at `t`. -/
def almShelveDue (i t : Nat) (n : Node) : Node :=
  let p := n.almP i
  match p.shelveEnd with
  | some e => if n.almWorks && p.st == 5 && decide (e ≤ t) then almLeave i 5 n else n
  | none => n

/-! ### Conditions (R381 to R383) -/

/-- DISCRETE on an input group: a masked STATE bit whose BAD bit is 1 (R382). -/
def ptDiBad (r : Bytes) (v : Word) : Bool :=
  ptCond r == 7 && decide (0x4300 ≤ ptSrc r) && decide (ptSrc r < 0x4330)
    && (List.range 8).any (fun j => bitOf (w32 r 8) j && bitOf v (8 + j))

/-- A threshold pair with its band. -/
def hysteresis (was set clear : Bool) : Bool := if set then true else if clear then false else was

/-- COND by conditions 1 to 5 and 7 on usable data (R381). -/
def ptJudge (r : Bytes) (was : Bool) (v : Word) (ref : Int) : Bool :=
  let e := v.toInt
  let lim := ptLim r
  let hys := ptHys r
  match ptCond r with
  | 1 | 3 => hysteresis was (decide (lim < e)) (decide (e ≤ lim - hys))
  | 2 | 4 => hysteresis was (decide (e < lim)) (decide (lim + hys ≤ e))
  | 5 => hysteresis was (decide (lim < |e - ref|)) (decide (|e - ref| ≤ lim - hys))
  | 7 => (v ^^^ w32 r 12) &&& w32 r 8 != 0#32
  | _ => was

/-- The quantity of condition 6 by its option. -/
def ptRate (r : Bytes) (x : Int) : Int :=
  match ptOpt r with
  | 1 => x
  | 2 => -x
  | _ => |x|

/-- Condition 6 on a usable record of E `e` completed at `us` microseconds (R381, R383). -/
def almRate (i : Nat) (r : Bytes) (e us : Int) (t : Nat) (n : Node) : Node :=
  match (n.almP i).prevE with
  | none => modAlmP i (fun p => { p with prevE := some (e, us) }) n
  | some (pe, pt) =>
    if us = pt then n
    else
      let q := ptRate r (divRound ((e - pe) * 1000000) (us - pt))
      let c := hysteresis (n.almP i).cond (decide (ptLim r < q)) (decide (q ≤ ptLim r - ptHys r))
      almCond i c t (modAlmP i (fun p => { p with prevE := some (e, us) }) n)

/-- One point is evaluated at a record of its source or its REF completed at `t` (R382, R384). -/
def almEval (i : Nat) (r : Bytes) (t : Nat) (n : Node) : Node :=
  let x := n.res (ptSrc r)
  let q := resQ x
  let y := n.res (ptRef r)
  let p := n.almP i
  if !x.has || x.lost then n
  else if p.st = 7 then
    if ptCond r != 6 then n
    else if qHas q qVALID then
      (match p.prevE with
        | some (_, us) => if us = ((x.time / usPer : Nat) : Int) then n else modAlmP i (fun p => { p with prevE := some (x.value.toInt, ((x.time / usPer : Nat) : Int)) }) n
        | none => modAlmP i (fun p => { p with prevE := some (x.value.toInt, ((x.time / usPer : Nat) : Int)) }) n)
    else modAlmP i (fun p => { p with prevE := none }) n
  else if ptCond r = 8 then
    almCond i (!qHas q qVALID || qHas q qRANGE || (ptOpt r == 1 && qHas q qSUSPECT)) t n
  else if !qHas q qVALID || (ptCond r == 5 && !qHas (resQ y) qVALID) || ptDiBad r x.value then
    modAlmP i (fun p => { p with srcBad := true, prevE := none }) n
  else
    let n1 := modAlmP i (fun p => { p with srcBad := false }) n
    if ptCond r = 6 then almRate i r x.value.toInt ((x.time / usPer : Nat) : Int) t n1
    else almCond i (ptJudge r p.cond x.value y.value.toInt) t n1

/-- The alarm engine is handed a record: every point on one of its results is evaluated (R37, R384). -/
def almRecord (addrs : List Nat) (t : Nat) (n : Node) : Node :=
  if !n.almWorks then n
  else n.points.foldl (fun m (i, r) =>
    if addrs.contains (ptSrc r) || (ptCond r == 5 && addrs.contains (ptRef r)) then almEval i r t m else m) n

/-! ### Groups (R391, R392) -/

def groupHolds (n : Node) (r : Bytes) : Bool :=
  let x := n.res (u16 r 2)
  let e := x.value.toInt
  let lim := i32 r 4
  qHas (resQ x) qVALID &&
    (match u8 r 0 with
      | 1 => decide (lim < e)
      | 2 => decide (e < lim)
      | 3 => x.value &&& w32 r 4 != 0#32
      | 4 => x.value &&& w32 r 4 == 0#32
      | _ => false)

def Node.members (n : Node) (g : Nat) : List (Nat × Bytes) := n.points.filter (fun x => ptGroup x.2 == g)

/-- The group starts suppressing (R387, R391). -/
def groupSuppress (g : Nat) (n : Node) : Node :=
  let n1 := almLog 1 g 1 0 6 0#32 (setAlmG g { n.almG g with supp := true } n)
  (n1.members g).foldl (fun m (i, r) =>
    if !ptSupp r then m
    else match (m.almP i).st with
      | 0 | 2 => almToSupp i 6 none m
      | 1 | 3 => modAlmP i (fun p => { p with suppPend := true }) m
      | _ => m) n1

/-- The group releases (R391). -/
def groupRelease (g : Nat) (n : Node) : Node :=
  let n1 := almLog 1 g 0 1 7 0#32 (setAlmG g { n.almG g with supp := false, dlyEnd := none } n)
  (n1.members g).foldl (fun m (i, _) =>
    if (m.almP i).st = 4 then almToNormal i 7 none m else modAlmP i (fun p => { p with suppPend := false }) m) n1

/-- GROUP_RELEASE at `t`, where GDELAY has run out. -/
def groupDue (g t : Nat) (n : Node) : Node :=
  let x := n.almG g
  match x.dlyEnd with
  | some e => if n.almWorks && x.supp && !groupHolds n (n.groupRec g) && decide (e ≤ t) then groupRelease g n else n
  | none => n

/-- One group at the scan tick `t` (R391). -/
def groupTick (t : Nat) (n : Node) (g : Nat) : Node :=
  let r := n.groupRec g
  let x := n.almG g
  let h := groupHolds n r
  if h then
    let n1 := setAlmG g { x with holds := true, dlyEnd := none } n
    if x.supp then n1 else groupSuppress g n1
  else
    let d := if x.supp then some (x.dlyEnd.getD (t + u16 r 8 * tenMs)) else none
    groupDue g t (setAlmG g { x with holds := false, dlyEnd := d } n)

/-- Better first-out candidate: earlier start, then lower number (R392). -/
def foBetter (n : Node) (a b : Nat) : Bool :=
  let x := (n.almP a).upAt
  let y := (n.almP b).upAt
  decide (x < y) || (x == y && decide (a < b))

/-- First-out capture of group `g` at a tick (R388, R392). -/
def foCapture (n : Node) (g : Nat) : Node :=
  let cands := n.alm.entered.filterMap (fun (i, _, clear) =>
    if clear && ptGroup (n.almRec i) == g && ptFirst (n.almRec i) && decide ((n.almP i).st < 5) then some i else none)
  match cands with
  | [] => n
  | c :: cs =>
    let x := n.almG g
    if x.fo != 0 then n
    else raise 102 (setAlmG g { x with fo := cs.foldl (fun a b => if foBetter n b a then b else a) c + 1 } n)

/-! ### Watch calls (R395 to R398) -/

/-- Class of a point and whether it stands unacknowledged, among points that are annunciated. -/
def almAny (n : Node) (cls : Nat → Bool) (sts : Nat → Bool) : Bool :=
  n.alm.pts.any (fun (i, p) => sts p.st && n.ptUsed i && cls (ptClass (n.almRec i)))

def stUnack (s : Nat) : Bool := s == 1 || s == 3
def clsAlarm (c : Nat) : Bool := c == 1
def clsAlarmWarn (c : Nat) : Bool := c == 1 || c == 2
def clsWarnCaution (c : Nat) : Bool := c == 2 || c == 3

/-- The call reaches station `s` (R396). -/
def callReaches (n : Node) (s : Nat) : Bool :=
  let r := n.stn s
  let k := stnKind r
  if n.alm.level = 0 || k = 0 then false
  else if n.alm.duty = 0xFF ∧ n.alm.cause ≠ 2 then k == 3
  else match n.alm.level with
    | 1 => k == 3 || k == 2 || (k == 1 && stnEngineer r == n.alm.duty)
    | 2 => k == 3 || k == 2 || k == 1
    | _ => true

/-- ALM_STN bits 15:0. -/
def callStations (n : Node) : Nat := (List.range 16).foldl (fun a s => a + b2n (callReaches n s) * 2 ^ s) 0

/-- A call starts at level 1 (R396, R397). -/
def callStart (cause : Nat) (n : Node) : Node :=
  almLog 2 0 1 0 13 0#32
    { n with alm.level := 1, alm.cause := cause, alm.callAt := (n.now : Int), alm.escAt := some (n.now + n.t1), alm.recallAt := if cause = 0 then none else n.alm.recallAt }

/-- The call ends, at station `s` (R398). -/
def callEnd (s : Nat) (n : Node) : Node :=
  let rec0 := if n.alm.cause = 0 ∧ n.recallT ≠ 0 then some (n.now + n.recallT) else n.alm.recallAt
  raise 99 (almLog 2 s 0 n.alm.level 14 0#32
    { n with alm.level := 0, alm.escAt := none, alm.recallAt := rec0, alm.repat := n.alm.cause == 2 })

def almRefuse (n : Node) : Node := { n with alm.refused := true }

/-- A station acknowledges the call (R398). -/
def callAck (s : Nat) (n : Node) : Node := if callReaches n s then callEnd s n else almRefuse n

/-- CALL_ESCALATION at `t`, where it is due (R396, R397). -/
def callEscalate (t : Nat) (n : Node) : Node :=
  match n.alm.escAt with
  | some e =>
    if n.almWorks && (n.alm.level == 1 || n.alm.level == 2) && decide (e ≤ t)
        && (n.alm.cause == 2 || (n.alm.cause == 0 && n.alm.duty != 0xFF)) then
      let l := n.alm.level
      raise 98 (almLog 2 0 (l + 1) l 13 0#32
        { n with alm.level := l + 1, alm.escAt := if l = 1 then some (n.now + n.t2) else none })
    else n
  | none => n

/-- CALL_RECALL at `t`, where it is due (R398). -/
def callRecall (t : Nat) (n : Node) : Node :=
  match n.alm.recallAt with
  | some e =>
    if n.almWorks && n.alm.level == 0 && decide (e ≤ t) then
      let n1 : Node := { n with alm.recallAt := none }
      if almAny n1 clsAlarm stUnack then callStart 0 n1 else n1
    else n
  | none => n

/-- Call start and end at a tick; `ent`: entries since the previous tick, `repat`: a PATROL call ended then (R396, R398). -/
def callTick (ent : List (Nat × Nat × Bool)) (repat : Bool) (n : Node) : Node :=
  let isNew (c : Nat) := ent.any (fun (i, old, _) => old == 0 && ptClass (n.almRec i) == c && decide ((n.almP i).st < 5))
  let n1 := if n.alm.level != 0 && n.alm.cause != 2 && !almAny n clsAlarmWarn stUnack then callEnd 0 n else n
  if n1.alm.level = 0 then
    if isNew 1 then callStart 0 n1
    else if isNew 2 then callStart 1 n1
    else if repat && almAny n1 clsAlarmWarn stUnack then callStart (if almAny n1 clsAlarm stUnack then 0 else 1) n1
    else n1
  else if n1.alm.cause == 1 && isNew 1 then { n1 with alm.cause := 0, alm.escAt := some (n1.now + n1.t1) }
  else n1

/-! ### Patrol (R400) -/

def patrolSet (x : Nat) (n : Node) : Node :=
  if n.alm.patrol = x then n else almLog 3 0 x n.alm.patrol 15 0#32 { n with alm.patrol := x }

def patrolLoad (n : Node) : Node :=
  patrolSet 1 { n with alm.patEnd := n.now + n.patrolT, alm.patWarn := n.now + n.patrolT - n.prewarnT }

def patrolPress (n : Node) : Node :=
  patrolLoad (if n.alm.patrol == 3 && n.alm.level != 0 && n.alm.cause == 2 then callEnd 0 n else n)

def patrolStart (n : Node) : Node := if n.alm.patrol = 0 then patrolLoad n else n
def patrolStop (n : Node) : Node := patrolSet 0 n

/-- PATROL_PREWARN at `t`. -/
def patrolWarn (t : Nat) (n : Node) : Node :=
  if n.almWorks && n.alm.patrol == 1 && decide (n.alm.patWarn ≤ t) then patrolSet 2 n else n

/-- PATROL_EXPIRED at `t`: a call of at least level 2, cause PATROL. -/
def patrolExpire (t : Nat) (n : Node) : Node :=
  if n.almWorks && n.alm.patrol == 2 && decide (n.alm.patEnd ≤ t) then
    let l := n.alm.level
    let n1 := patrolSet 3 n
    let n2 : Node := if l < 2 then
      almLog 2 0 2 l 13 0#32
        { n1 with alm.level := 2, alm.escAt := some (n1.now + n1.t2), alm.callAt := if l = 0 then (n1.now : Int) else n1.alm.callAt }
      else n1
    raise 100 { n2 with alm.cause := 2 }
  else n

/-! ### Commands (R389) -/

/-- ACK of one point (R387). -/
def almAck1 (i : Nat) (n : Node) : Node :=
  let p := n.almP i
  if p.st = 1 then (if p.suppPend then almToSupp i 2 none n else almGo i 2 2 none n)
  else if p.st = 3 then (if p.suppPend then almToSupp i 2 none n else almGo i 0 2 none n)
  else n

def almAck (i : Nat) (n : Node) : Node := if n.ptUsed i then almAck1 i n else almRefuse n

def almAckGroup (g : Nat) (n : Node) : Node :=
  if n.groupUsed g then (n.members g).foldl (fun m x => almAck1 x.1 m) n else almRefuse n

def almAckAll (n : Node) : Node := n.points.foldl (fun m x => almAck1 x.1 m) n

def almReset (i : Nat) (n : Node) : Node :=
  let p := n.almP i
  if n.ptUsed i && p.st == 2 && ptLatch (n.almRec i) && !p.cond && p.offAt.isNone then raise 97 (almGo i 0 3 none n)
  else almRefuse n

def almShelve (i arg : Nat) (n : Node) : Node :=
  let p := n.almP i
  if n.ptUsed i && ptShelv (n.almRec i) && decide (1 ≤ arg) && decide (arg ≤ 1440) && decide (p.st ≤ 5) then
    modAlmP i (fun p => { p with shelveEnd := some (n.now + arg * 60 * secPer) }) (almOver i 5 4 n)
  else almRefuse n

def almUnshelve (i : Nat) (n : Node) : Node := if n.ptUsed i && (n.almP i).st == 5 then almLeave i 5 n else almRefuse n
def almInhibit (i : Nat) (n : Node) : Node :=
  if n.ptUsed i && decide ((n.almP i).st < 6) then almOver i 6 8 n else almRefuse n
def almRelease (i : Nat) (n : Node) : Node := if n.ptUsed i && (n.almP i).st == 6 then almLeave i 9 n else almRefuse n

def almFoReset (g : Nat) (n : Node) : Node :=
  let x := n.almG g
  if !n.groupUsed g || (x.fo != 0 && (n.almP (x.fo - 1)).st == 1) then almRefuse n else setAlmG g { x with fo := 0 } n

def almOos (i : Nat) (n : Node) : Node :=
  if n.ptUsed i && (n.almP i).st != 7 then almOver i 7 10 n else almRefuse n
def almReturn (i : Nat) (n : Node) : Node := if n.ptUsed i && (n.almP i).st == 7 then almLeave i 11 n else almRefuse n

/-- A write of ALM_CMD (R389). -/
def almCmd (v : Word) (n : Node) : Node :=
  let i := fld v 11 0
  if !n.almRun then almRefuse n
  else match fld v 31 28 with
    | 1 => almAck i n
    | 2 => almAckGroup i n
    | 3 => almAckAll n
    | 4 => almReset i n
    | 5 => almShelve i (fld v 22 12) n
    | 6 => almUnshelve i n
    | 7 => almInhibit i n
    | 8 => almRelease i n
    | 9 => almFoReset i n
    | _ => almRefuse n

/-- A write of ALM_XCMD (R389). -/
def almXcmd (v : Word) (n : Node) : Node :=
  let i := fld v 11 0
  if !n.almRun then almRefuse n
  else match fld v 31 28 with
    | 1 => almOos i n
    | 2 => almReturn i n
    | _ => almRefuse n

/-! ### The scan tick (R385) -/

/-- A cabin station has this engineer (R395). -/
def dutyOk (n : Node) (v : Nat) : Bool :=
  v == 0xFF || (List.range 16).any (fun s => stnKind (n.stn s) == 1 && stnEngineer (n.stn s) == v)

def almInput (n : Node) : AlmIn → Node
  | .ack s => callAck s n
  | .duty v => if dutyOk n v then { n with alm.duty := v } else almRefuse { n with alm.dutyW := n.alm.duty }
  | .start => patrolStart n
  | .stop => patrolStop n
  | .press => patrolPress n
  | .cmd v => almCmd v n
  | .xcmd v => almXcmd v n

/-- The alarm engine's work at the scan tick `t`, in the order of R385. -/
def almScan (t : Nat) (n : Node) : Node :=
  if !n.almWorks then n
  else
    let repat := n.alm.repat
    let n0 : Node := { n with alm.repat := false }
    let n1 := n0.points.foldl (fun m (i, _) => almShelveDue i t (almOffDue i t (almOnDue i t m))) n0
    let n2 := (List.range n1.groupRecs.length).foldl (groupTick t) n1
    let n3 := (List.range n2.groupRecs.length).foldl foCapture n2
    let ent := n3.alm.entered
    let q := n3.alm.inq
    let n4 : Node := { n3 with alm.entered := [], alm.inq := [] }
    let n5 := q.foldl almInput n4
    patrolExpire t (patrolWarn t (callEscalate t (callRecall t (callTick ent repat n5))))

/-- A press of a station button: an accepted change from 0 to 1 with BAD = 0 (R394). -/
def almPress (k : Nat) (n : Node) : Node :=
  if !n.almRun || diBad n k then n
  else (List.range 16).foldl (fun m s =>
    let r := m.stn s
    let m1 : Node := if stnKind r != 0 && u8 r 2 == k then { m with alm.inq := m.alm.inq ++ [.ack s] } else m
    if stnKind r != 0 && u8 r 3 == k then { m1 with alm.inq := m1.alm.inq ++ [.press] } else m1) n

/-! ### Register commands (R389, R395, R398, R400) -/

def almQueue (x : AlmIn) (n : Node) : Node := { n with alm.inq := n.alm.inq ++ [x] }

/-- A write of ALM_CMD or ALM_XCMD; one that finds the engine paused waits for its resume (R30). DESIGN CHOICE
(notes/assumptions/54.md). -/
def almCmdWrite (v : Word) (n : Node) : Node := if n.almRun && !n.almWorks then almQueue (.cmd v) n else almCmd v n
def almXcmdWrite (v : Word) (n : Node) : Node := if n.almRun && !n.almWorks then almQueue (.xcmd v) n else almXcmd v n

/-- ALM_DUTY_WRITE (R395). -/
def almDutyWrite (v : Word) (n : Node) : Node :=
  let x := fld v 7 0
  if n.almRun && dutyOk n x then almQueue (.duty x) { n with alm.dutyW := x } else almRefuse n

/-- ALM_CALL_ACK (R398). -/
def almCallAckWrite (v : Word) (n : Node) : Node := if n.almRun then almQueue (.ack (fld v 3 0)) n else almRefuse n

/-- ALM_PATROL (R400). -/
def almPatrolWrite (v : Word) (n : Node) : Node :=
  if !n.almRun then almRefuse n
  else match fld v 2 0 with
    | 1 => almQueue .start n
    | 2 => almQueue .stop n
    | 4 => almQueue .press n
    | _ => almRefuse n

/-! ### Image application and live replacement (R79, R403) -/

/-- An image is applied; `restart`: by COMMIT (R395, R401, R403). -/
def almApply (restart : Bool) (n : Node) : Node :=
  let n1 : Node := { n with alm.pts := [], alm.grps := [], alm.entered := [], alm.level := 0, alm.cause := 0, alm.callAt := 0,
                            alm.escAt := none, alm.recallAt := none, alm.repat := false }
  let n2 : Node := if restart then n1 else { n1 with alm.duty := n1.duty0, alm.dutyW := n1.duty0 }
  almLog 4 0 0 0 15 0#32 n2

/-- A changed point restarts (R79). -/
def almRestart (i : Nat) (n : Node) : Node :=
  let p := n.almP i
  let r := n.almRec i
  let p1 : AlmPt := { almNoDelay p with suppPend := false, cond := false, srcBad := false, prevE := none }
  let n1 := setAlmP i p1 n
  if 5 ≤ p.st then n1
  else almGo i (if ptSupp r && (n.almG (ptGroup r)).supp then 4 else 0) 15 none n1

/-- Live replacement of leg 0x0B: `old` gives the records before (R79). DESIGN CHOICE (notes/assumptions/19.md): a point whose
record becomes disabled or absent is reset without a log entry, its SHELVED, INHIBITED or OUT_OF_SERVICE with it. -/
def almReplace (old : Nat → Bytes) (n : Node) : Node :=
  (List.range 4096).foldl (fun m i =>
    let r := m.almRec i
    if old i = r then m
    else if ptOn r then (if ptOn (old i) then almRestart i m else almRestart i (setAlmP i {} m))
    else setAlmP i {} m) n

/-- Live replacement of leg 0x0C: groups that become absent release; first-out latches are kept (R79). -/
def groupReplace (oldCount : Nat) (n : Node) : Node :=
  (List.range oldCount).foldl (fun m g =>
    if m.groupUsed g then m
    else
      let m1 := if (m.almG g).supp then groupRelease g m else m
      setAlmG g { fo := (m1.almG g).fo } m1) n

/-! ### Station signals on digital outputs (R399) -/

def flashOn (n : Node) : Bool := n.scan.toNat / 500 % 2 == 0

/-- HORN active at station `s`: continuous, or intermittent. -/
def hornCont (n : Node) (s : Nat) : Bool := callReaches n s && n.alm.cause != 1
def hornInt (n : Node) (s : Nat) : Bool :=
  (callReaches n s && n.alm.cause == 1) || (stnKind (n.stn s) == 3 && n.alm.patrol == 2)

def lamp (n : Node) (cls : Nat → Bool) : Bool :=
  if almAny n cls stUnack then flashOn n else almAny n cls (fun s => s == 2)

def stnSignal (n : Node) (s sig : Nat) : Bool :=
  let k := stnKind (n.stn s)
  match sig with
  | 0 => hornCont n s || (hornInt n s && flashOn n)
  | 1 => lamp n clsAlarm
  | 2 => lamp n clsWarnCaution
  | 3 => callReaches n s
  | 4 => n.alm.patrol == 1 || (decide (2 ≤ n.alm.patrol) && flashOn n)
  | 5 => (k == 1 && stnEngineer (n.stn s) == n.alm.duty) || ((k == 3 || k == 4) && n.alm.duty != 0xFF)
  | _ => false

/-- Outputs with SRC = 2 follow their signals; they keep them while the engine stands. -/
def wsSync (n : Node) : Node :=
  if !n.almWorks then n
  else (List.range 32).foldl (fun m k =>
    let r := m.recOf 0x0A k
    if recOn r && doSrc r == 2 then modDo k (fun u => { u with ws := stnSignal m (doSrcIdx r % 16) (doSrcIdx r / 16 % 8) }) m
    else m) n

/-! ### Registers (R404) -/

def almData6 (n : Node) (i : Nat) : Word :=
  let p := n.almP i
  let left := match p.shelveEnd with
    | some e => (e - n.now + 60 * secPer - 1) / (60 * secPer)
    | none => 0
  wd (p.st * 2 ^ 28 + b2n p.cond * 2 ^ 23 + b2n p.srcBad * 2 ^ 22 + b2n p.onAt.isSome * 2 ^ 21 + b2n p.offAt.isSome * 2 ^ 20
    + b2n p.suppPend * 2 ^ 19 + b2n ((n.almG (ptGroup (n.almRec i))).fo == i + 1 && n.ptUsed i) * 2 ^ 18 + left % 65536)

def almCount (n : Node) (pts : List (Nat × Bytes)) : Word :=
  let c (f : Nat → Bool) := (pts.filter (fun x => f (n.almP x.1).st)).length
  wd (c stUnack * 65536 + c (fun s => s == 1 || s == 2))

def patrolLeft (n : Node) : Nat :=
  if n.alm.patrol = 1 ∨ n.alm.patrol = 2 then (n.alm.patEnd - n.now + secPer - 1) / secPer % 65536 else 0

/-- ALM_FIND (R404): the lowest used point at or above POINT in STATE. -/
def almFind (v : Word) (n : Node) : Word :=
  let st := fld v 31 28
  let from_ := fld v 11 0
  match n.points.find? (fun x => decide (from_ ≤ x.1) && (n.almP x.1).st == st) with
  | some (i, _) => wd (st * 2 ^ 28 + 2 ^ 27 + i)
  | none => wd (st * 2 ^ 28 + from_)

def almFindWrite (p : HostPort) (v : Word) (n : Node) : Node := n.modPort p (fun q => { q with almFind := almFind v n })

def almLogIdxWrite (p : HostPort) (v : Word) (n : Node) : Node :=
  n.modPort p (fun q => { q with almLogIdx := v.toNat, almLogWord := 0, almLatch := [] })

/-- Entry q is held (R402). -/
def almLogHeld (n : Node) (q : Nat) : Bool := decide (q < n.alm.head) && decide (n.alm.head ≤ q + 1024)

/-- ALM_LOG_DATA_READ: status, word, effect (R402). -/
def almLogData (p : HostPort) (n : Node) : Nat × Word × Node :=
  let q := n.port p
  let w := q.almLogWord
  let e := tget {} n.alm.log (q.almLogIdx % 1024)
  let latch := if w = 0 then [e.w0, e.w1, wd e.time, wd (e.time / 2 ^ 32)] else q.almLatch
  if w = 0 ∧ !almLogHeld n q.almLogIdx then (noRegister, 0#32, n)
  else
    let q1 : Port := if w = 3 then { q with almLogIdx := (q.almLogIdx + 1) % 2 ^ 32, almLogWord := 0, almLatch := latch }
      else { q with almLogWord := w + 1, almLatch := latch }
    (0, latch.getD w 0#32, n.setPort p q1)

def almStn (n : Node) : Word :=
  wd (callStations n + (List.range 16).foldl (fun a s => a + b2n (hornCont n s || hornInt n s) * 2 ^ (16 + s)) 0)

def almGdata0 (n : Node) (g : Nat) : Word :=
  let x := n.almG g
  wd (b2n x.supp * 2 ^ 31 + b2n x.holds * 2 ^ 30 + b2n x.dlyEnd.isSome * 2 ^ 29 + b2n (x.fo != 0) * 2 ^ 28 + (x.fo - 1))

def almRead (n : Node) (p : HostPort) (addr : Nat) : Option Word :=
  let i := n.alm.idx
  match addr with
  | 0x6C00 => some (wd i)
  | 0x6C1C => some (almData6 n i)
  | 0x6C20 => some (n.almP i).tick
  | 0x6C40 | 0x6C44 | 0x6C58 | 0x6C60 => some 0#32
  | 0x6C48 => some (wd (b2n n.alm.logWrap * 4 + b2n n.alm.refused * 2 + b2n n.almRun))
  | 0x6C4C => some (almCount n n.points)
  | 0x6C50 => some (wd n.alm.dutyW)
  | 0x6C54 => some (wd (if n.alm.level = 0 then 0
      else n.alm.cause * 2 ^ 18 + n.alm.level * 65536 + min 65535 (((n.now : Int) - n.alm.callAt) / (secPer : Nat)).toNat))
  | 0x6C5C => some (almStn n)
  | 0x6C64 => some (wd (n.alm.patrol * 2 ^ 30 + patrolLeft n))
  | 0x6C68 => some (n.port p).almFind
  | 0x6C80 => some (wd n.alm.gidx)
  | 0x6C84 => some (almGdata0 n n.alm.gidx)
  | 0x6C88 => some (almCount n (n.members n.alm.gidx))
  | 0x6CA0 => some (wd n.alm.head)
  | 0x6CA4 => some (wd (n.port p).almLogIdx)
  | _ => if 0x6C04 ≤ addr ∧ addr ≤ 0x6C18 ∧ addr % 4 = 0 then some (w32 (n.almRec i) (addr - 0x6C04)) else none

def almWrite (p : HostPort) (addr : Nat) (v : Word) (n : Node) : Node :=
  match addr with
  | 0x6C00 => { n with alm.idx := fld v 11 0 }
  | 0x6C40 => almCmdWrite v n
  | 0x6C44 => almXcmdWrite v n
  | 0x6C48 => { n with alm.logWrap := n.alm.logWrap && !bitOf v 2, alm.refused := n.alm.refused && !bitOf v 1 }
  | 0x6C50 => almDutyWrite v n
  | 0x6C58 => almCallAckWrite v n
  | 0x6C60 => almPatrolWrite v n
  | 0x6C68 => almFindWrite p v n
  | 0x6C80 => { n with alm.gidx := fld v 7 0 }
  | 0x6CA4 => almLogIdxWrite p v n
  | _ => n

end Sys2Proof.Machine
end

