-- ==== Sys2Proof/Machine/Seq.lean ====
section
/-! DEFINITION. Sequencer (spec/15 R405 to R421; R79 row 0x0D, R92). -/

namespace Sys2Proof.Machine
open Sys2Proof

/-! ### Records (R418, R419) -/

def tenth : Nat := 25000000

def Node.seqRec (n : Node) (s : Nat) : Bytes := (n.dense 0x0D 1 s).getD []
def sqFirst (r : Bytes) : Nat := u16 r 0
def sqOn (r : Bytes) : Bool := recBit r 2 0
def sqAutostart (r : Bytes) : Bool := recBit r 2 1
def sqAutoresume (r : Bytes) : Bool := recBit r 2 2
def sqHasHold (r : Bytes) : Bool := !zeros r 4 8
def sqHoldAct (r : Bytes) : Nat := u16 r 12
def sqResumeAct (r : Bytes) : Nat := u16 r 14

def Node.stepRec (n : Node) (k : Nat) : Bytes := (n.dense 0x0D 2 k).getD (List.replicate 64 0xFF#8)
def stSeq (r : Bytes) : Nat := u8 r 0
def stNact (r : Bytes) : Nat := u8 r 1 / 2 % 4
def stNtr (r : Bytes) : Nat := u8 r 1 / 8 % 4
def stTmo (r : Bytes) : Nat := u16 r 2 * (if recBit r 1 0 then 600 * tenth else tenth)
def stNext (r : Bytes) : Nat := u16 r 4

/-- A link step has no transitions and TMO = 0 (R407). -/
def stLink (r : Bytes) : Bool := stNtr r == 0 && u16 r 2 == 0

/-- Step `k` is a step of sequence `s`. -/
def Node.stepOf (n : Node) (s k : Nat) : Bool := decide (k < 1024) && stSeq (n.stepRec k) == s

def Node.sq (n : Node) (s : Nat) : Seq := tget {} n.seq.seqs s
def setSq (s : Nat) (x : Seq) (n : Node) : Node := { n with seq.seqs := tset {} n.seq.seqs s x }
def modSq (s : Nat) (f : Seq → Seq) (n : Node) : Node := setSq s (f (n.sq s)) n

/-! ### The clock of a sequence (R408) -/

def sqClock (n : Node) (x : Seq) : Nat :=
  match x.since with
  | some a => x.acc + (n.now - a)
  | none => x.acc

/-- STATE changes; the clock runs in RUNNING only. -/
def sqState (st now : Nat) (x : Seq) : Seq :=
  match x.since with
  | some a => if st = 1 then { x with st := st } else { x with st := st, acc := x.acc + (now - a), since := none }
  | none => if st = 1 then { x with st := st, since := some now } else { x with st := st }

def sqExpired (n : Node) (x : Seq) (k : Nat) : Bool :=
  match x.tmr.getD k none with
  | some e => decide (e ≤ sqClock n x)
  | none => false

/-! ### Actions (R413 to R415) -/

/-- The lane refuses a mode request (R360). -/
def lnReqRefused (n : Node) (k code : Nat) : Bool :=
  let r := n.lnRec k
  !lnOn r || decide (4 < code) || (code == 3 && (n.lnOuter k).isNone) || (code == 4 && lnTrkAddr r == 0)

/-- The alarm engine refuses a command given by an action (R389). -/
def almActRefused (n : Node) (cmd i : Nat) : Bool :=
  !n.almRun || !n.ptUsed i || (cmd == 7 && decide (6 ≤ (n.almP i).st)) || (cmd == 8 && (n.almP i).st != 6)

/-- E32 at a result, `none` while VALID = 0. -/
def sqLoad (n : Node) (addr : Nat) : Option Int :=
  let x := n.res addr
  if qHas (resQ x) qVALID then some x.value.toInt else none

/-- SHIFT (R413, R414). -/
def sqShift (e : Option Int) (x : Seq) : Seq :=
  let v0 := e.getD (x.v.getD 0 0)
  { x with v := v0 :: x.v.take 7, vld := Nat.lor (2 * x.vld % 256) (if e.isSome then 1 else x.vld % 2), varBad := x.varBad || e.isNone }

/-- VLOAD (R413, R414). -/
def sqVload (k : Nat) (e : Option Int) (x : Seq) : Seq :=
  match e with
  | some y => { x with v := x.v.set k y, vld := Nat.lor x.vld (2 ^ k) }
  | none => { x with varBad := true }

/-- Bias of ADD_I, `none` while a variable is not loaded (R415). -/
def sqBias (x : Seq) (arg : Nat) (k : Int) : Option Int :=
  let a := arg % 8
  let b := arg / 8 % 8
  if x.vld.testBit a && x.vld.testBit b then some (rshr ((x.v.getD a 0 - x.v.getD b 0) * k) (arg / 256 % 32)) else none

/-- The action crosses to I5 while that island is not in RUN: a bus error, and no access (R21). -/
def actBusError (n : Node) (kind : Nat) : Bool := (kind == 4 || kind == 5 || kind == 6 || kind == 7) && !n.isRun 5

/-- The target refuses the action (R414). -/
def actRefused (n : Node) (kind tgt arg : Nat) (val : Word) : Bool :=
  match kind with
  | 3 => lnReqRefused n tgt val.toNat
  | 4 => doSrc (n.recOf 0x0A tgt) != 0
  | 7 => svRefuses n tgt
  | 9 => almActRefused n tgt arg
  | _ => false

/-- What an action does to its target. -/
def actDo (s kind tgt arg : Nat) (val : Word) (n : Node) : Node :=
  let x := n.sq s
  match kind with
  | 1 => modLn tgt (fun l => { l with sp := val.toInt }) n
  | 2 => modLn tgt (fun l => { l with man := val.toInt }) n
  | 3 => lnRequest tgt val.toNat n
  | 4 => doCmdWrite tgt (bitOf val 0) n
  | 5 => loDemandWrite tgt val n
  | 6 => poSetWrite tgt val n
  | 7 => svFire tgt arg val.toNat n.now 1 n
  | 8 => setSq s { x with tmr := x.tmr.set tgt (if val = 0#32 then none else some (sqClock n x + val.toNat * tenth)) } n
  | 9 => if tgt = 1 ∨ tgt = 7 ∨ tgt = 8 then almCmdWrite (wd (tgt * 2 ^ 28 + arg % 4096)) n else n
  | 10 => setSq s (sqShift (sqLoad n arg) x) n
  | 11 => setSq s (sqVload tgt (sqLoad n arg) x) n
  | 12 => match sqBias x arg val.toInt with
    | some d => lnAddI tgt d n
    | none => n
  | _ => n

/-- The action at byte `o` of a step (R413, R414). An action that ends in a bus error is refused; DEDUCED
(notes/assumptions/38.md). -/
def sqAction (s : Nat) (r : Bytes) (o : Nat) (n : Node) : Node :=
  let kind := u8 r o
  let tgt := u8 r (o + 1)
  let arg := u16 r (o + 2)
  let val := w32 r (o + 4)
  let down := actBusError n kind
  let bad := down || actRefused n kind tgt arg val
  let n1 := if down then n else if kind = 9 ∧ bad then almRefuse n else actDo s kind tgt arg val n
  if bad then modSq s (fun x => { x with actRefused := true }) n1 else n1

/-- The entry actions of a step, in order. -/
def sqActs (s k : Nat) (n : Node) : Node :=
  let r := n.stepRec k
  (List.range (stNact r)).foldl (fun m i => sqAction s r (8 + 8 * i) m) n

/-- Actions of a step named by HOLD_ACT or RESUME_ACT and of the link steps that follow it; none is entered (R410). -/
def sqChain (s : Nat) : Nat → Nat → Bool → Node → Node
  | 0, _, _, n => n
  | fuel + 1, k, first, n =>
    let r := n.stepRec k
    if !n.stepOf s k || (!first && !stLink r) then n
    else
      let n1 := sqActs s k n
      if stLink r then sqChain s fuel (stNext r) false n1 else n1

def sqAside (s k : Nat) (n : Node) : Node := sqChain s 18 k true n

/-! ### Entries, targets, hold and resume (R407 to R410) -/

/-- HELD is entered (R410). -/
def sqHold (s cause : Nat) (n : Node) : Node :=
  let n1 := modSq s (fun x => { sqState 2 n.now x with hcause := cause }) n
  sqAside s (sqHoldAct (n.seqRec s)) (raise 107 n1)

/-- Entry actions that wait are issued: the first step's, at its acknowledgement (R452). -/
def sqAcked (s : Nat) (n : Node) : Node :=
  match (n.sq s).acts with
  | [] => n
  | k :: r => sqActs s k (modSq s (fun x => { x with acts := r }) n)

/-- No STANDBY acknowledges any longer: every waiting step's actions are issued. -/
def sqAckAll (n : Node) : Node :=
  (List.range 8).foldl (fun m s => (m.sq s).acts.foldl (fun y k => sqActs s k y) (modSq s (fun x => { x with acts := [] }) m)) n

/-- One entry into step `k` (R407); a paired module issues the entry actions once the STANDBY has acknowledged the SEQSTEP
frame (R452). -/
def sqEnter1 (s k : Nat) (n : Node) : Node :=
  let n1 := modSq s (fun x => { x with prev := x.step, step := k, stepAt := sqClock n x, entered := some n.scan.toNat }) n
  if n.dup.role = .active then
    let n2 := modSq s (fun x => { x with acts := x.acts ++ [k] }) (raise 104 n1)
    { n2 with tx := n2.tx ++ [{ chan := .strait, dest := 5, bytes := BitVec.ofNat 8 s :: leBytes 2 k }] }
  else sqActs s k (raise 104 n1)

/-- A target of R409; link steps pass on at the same tick. -/
def sqGoto (s : Nat) : Nat → Nat → Node → Node
  | 0, _, n => n
  | fuel + 1, code, n =>
    if code = 0xFFFE then sqHold s 4 n
    else if code = 0xFFFF then raise 105 (modSq s (sqState 3 n.now) n)
    else
      let n1 := sqEnter1 s code n
      if stLink (n1.stepRec code) then sqGoto s fuel (stNext (n1.stepRec code)) n1 else n1

def sqTo (s code : Nat) (n : Node) : Node := sqGoto s 18 code n

/-- A resume (R410). -/
def sqResume (s : Nat) (n : Node) : Node :=
  let n1 := sqAside s (sqResumeAct (n.seqRec s)) n
  modSq s (fun x => { sqState 1 n.now x with hcause := 0 }) n1

/-- START at step `k` (R412). -/
def sqStart (s k : Nat) (n : Node) : Node :=
  let n1 := modSq s (fun x => sqState 1 n.now { x with tmr := [none, none, none, none], v := List.replicate 8 0, vld := 0, acc := 0,
                                                       since := none, hcause := 0 }) n
  sqTo s k n1

/-! ### Commands (R412) -/

def sqCmdOk (n : Node) (s : Nat) (v : Word) : Bool :=
  let x := n.sq s
  let r := n.seqRec s
  let k := fld v 25 16
  sqOn r &&
    (match fld v 3 0 with
      | 1 => n.running && (x.st == 0 || x.st == 3) && n.stepOf s (if bitOf v 26 then k else sqFirst r)
      | 2 => x.st == 1 || x.st == 2 || x.st == 3
      | 3 => n.running && x.st == 1
      | 4 => n.running && x.st == 2 && n.stepOf s x.step
      | 5 => n.running && x.st == 2 && n.stepOf s k
      | _ => false)

/-- One command of a sequence is worked (R406 step 1, R412). -/
def sqCommand (s : Nat) (n : Node) (v : Word) : Node :=
  let x := n.sq s
  let r := n.seqRec s
  let k := fld v 25 16
  if !sqCmdOk n s v then modSq s (fun x => { x with cmdRefused := true }) n
  else match fld v 3 0 with
    | 1 => sqStart s (if bitOf v 26 then k else sqFirst r) n
    | 2 => modSq s (fun x => { sqState 0 n.now x with hcause := 0 }) (if x.st = 3 then n else sqAside s (sqHoldAct r) n)
    | 3 => sqHold s 1 n
    | 4 => sqResume s n
    | 5 => sqTo s k (modSq s (fun x => { sqState 1 n.now x with hcause := 0 }) n)
    | _ => n

/-! ### Conditions (R416, R417) -/

/-- A tested bit of an input group is BAD (R278). -/
def condDiBad (addr : Nat) (v mask : Word) : Bool :=
  decide (0x4300 ≤ addr) && decide (addr < 0x4330) && (List.range 8).any (fun j => bitOf mask j && bitOf v (8 + j))

/-- Outcome before INV; `none` on data that is not usable. -/
def condRaw (n : Node) (x : Seq) (kind carg addr : Nat) (val : Word) : Option Bool :=
  match kind with
  | 0 => some true
  | 1 => (sqLoad n addr).map (fun e => decide (val.toInt < e))
  | 2 => (sqLoad n addr).map (fun e => decide (e < val.toInt))
  | 3 => if condDiBad addr (n.res addr).value val then none else (sqLoad n addr).map (fun e => wi e &&& val != 0#32)
  | 4 => if condDiBad addr (n.res addr).value val then none else (sqLoad n addr).map (fun e => wi e &&& val == 0#32)
  | 5 => some (bitOf (val &&& 0xFF#32) (n.almP addr).st)
  | 6 => some (sqExpired n x carg)
  | 7 => some (decide (val.toNat * tenth ≤ sqClock n x - x.stepAt))
  | 8 => some (decide (val.toInt < x.v.getD carg 0))
  | 9 => some (decide (x.v.getD carg 0 < val.toInt))
  | 10 => match sqLoad n addr, sqLoad n (fld val 15 0) with
    | some e, some b => some (decide (sgn 16 (fld val 31 16) < e - b))
    | _, _ => none
  | _ => some (bitOf (val &&& 0xF#32) (n.sq carg).st)

/-- The condition at byte `o` of a record (R416). -/
def sqCond (n : Node) (x : Seq) (r : Bytes) (o : Nat) : Bool :=
  match condRaw n x (u8 r o % 16) (u8 r (o + 1)) (u16 r (o + 2)) (w32 r (o + 4)) with
  | some b => b != recBit r o 7
  | none => false

/-- The transition at byte `o` of a step is true (R417). -/
def sqTrans (n : Node) (x : Seq) (r : Bytes) (o : Nat) : Bool :=
  let a := sqCond n x r (o + 4)
  match u8 r (o + 2) with
  | 0 => a
  | 1 => a && sqCond n x r (o + 12)
  | _ => a || sqCond n x r (o + 12)

/-! ### The scan tick (R406) -/

/-- The sequencer carries on: its role runs and the module carries the plant (R30, R85, R450). -/
def Node.seqRuns (n : Node) : Bool := n.carries && n.roleOn 5 0

/-- STEP_TIMEOUT, where it is due and the role runs (R31, R408). -/
def sqTimeout (s : Nat) (n : Node) : Node :=
  let x := n.sq s
  let r := n.stepRec x.step
  if n.seqRuns && x.st == 1 && stTmo r != 0 && decide (stTmo r ≤ sqClock n x - x.stepAt) then
    sqTo s (stNext r) (raise 106 (setSq s { x with tmoSeen := true } n))
  else n

/-- Step 2 of R406: hold condition and AUTORESUME. -/
def sqHoldWork (s : Nat) (n : Node) : Node :=
  let x := n.sq s
  let r := n.seqRec s
  if !sqHasHold r then n
  else if x.st = 1 ∧ sqCond n x r 4 then sqHold s 2 n
  else if x.st = 2 ∧ x.hcause = 2 ∧ sqAutoresume r ∧ !sqCond n x r 4 then sqResume s n
  else n

/-- Steps 3 and 4 of R406; a step entered at this tick waits for the next (R407). -/
def sqStepWork (s : Nat) (n : Node) : Node :=
  let x := n.sq s
  let r := n.stepRec x.step
  if x.st ≠ 1 ∨ x.entered = some n.scan.toNat then n
  else if 1 ≤ stNtr r ∧ sqTrans n x r 24 then sqTo s (u16 r 24) n
  else if 2 ≤ stNtr r ∧ sqTrans n x r 44 then sqTo s (u16 r 44) n
  else sqTimeout s n

/-- One sequence at a scan tick. -/
def sqTick (auto : Bool) (n : Node) (s : Nat) : Node :=
  let r := n.seqRec s
  let n0 := if auto && (n.sq s).st == 0 && sqOn r && sqAutostart r then sqStart s (sqFirst r) n else n
  let cmds := (n0.sq s).q
  let n1 := cmds.foldl (sqCommand s) (modSq s (fun x => { x with q := [] }) n0)
  if n1.running && sqOn r then sqStepWork s (sqHoldWork s n1) else n1

/-- The sequencer at a scan tick (R406, R411). -/
def seqScan (n : Node) : Node :=
  if n.applied && !n.seqRuns then n
  else
    let auto := n.seq.auto && n.running
    (List.range 8).foldl (sqTick auto) { n with seq.auto := n.seq.auto && !auto }

/-! ### States, image, replacement (R79, R92, R405, R411) -/

/-- HALT holds every running sequence (R92). -/
def seqHalt (n : Node) : Node := (List.range 8).foldl (fun m s => if (m.sq s).st = 1 then sqHold s 3 m else m) n

def seqRunEntry (n : Node) : Node := { n with seq.auto := true }

/-- IDLE, with timers and variables clear (R405). -/
def sqIdle (x : Seq) : Seq :=
  { step := x.step, prev := x.prev, varBad := x.varBad, actRefused := x.actRefused, cmdRefused := x.cmdRefused,
    tmoSeen := x.tmoSeen, q := x.q }

/-- The image applied by a COMMIT finds every sequence in IDLE; sticky flags and waiting commands stay (R405). -/
def seqApply (n : Node) : Node :=
  (List.range 8).foldl (fun m s => modSq s sqIdle m) { n with seq.auto := false }

/-- Live replacement of leg 0x0D (R79, R410). DESIGN CHOICE (notes/assumptions/19.md): a sequence whose record becomes disabled
is held as one whose step is gone. -/
def seqReplace (n : Node) : Node :=
  (List.range 8).foldl (fun m s =>
    let x := m.sq s
    if (sqOn (m.seqRec s) && m.stepOf s x.step) || (x.st != 1 && x.st != 2) then m
    else if x.st = 1 then
      let m1 := raise 107 (setSq s { sqState 2 m.now x with hcause := 5 } m)
      if sqOn (m.seqRec s) then sqAside s (sqHoldAct (m.seqRec s)) m1 else m1
    else setSq s { x with hcause := 5 } m) n

/-! ### Registers (R421) -/

/-- SEQ_CTRL: the command waits for the next scan tick (R406). -/
def seqCtrlWrite (s : Nat) (v : Word) (n : Node) : Node := modSq s (fun x => { x with q := x.q ++ [v] }) n

def seqStatusWord (x : Seq) : Word :=
  wd (x.st * 2 ^ 28 + x.hcause * 2 ^ 24 + x.vld * 65536 + b2n x.varBad * 16 + b2n x.actRefused * 8 + b2n x.cmdRefused * 4
    + b2n x.tmoSeen * 2)

def seqTmrLeft (n : Node) (x : Seq) (k : Nat) : Nat :=
  match x.tmr.getD k none with
  | some e => (e - sqClock n x + tenth - 1) / tenth
  | none => 0

def seqBits (n : Node) (st : Nat) : Nat := (List.range 8).foldl (fun a s => a + b2n ((n.sq s).st == st) * 2 ^ s) 0

def seqRead (n : Node) (addr : Nat) : Option Word :=
  if addr = 0x7200 then some (wd (seqBits n 1 + 256 * seqBits n 2))
  else if addr = 0x7300 then some (wd n.seq.sidx)
  else if 0x7304 ≤ addr ∧ addr ≤ 0x7340 ∧ addr % 4 = 0 then
    some (w32 ((n.dense 0x0D 2 n.seq.sidx).getD []) (addr - 0x7304))
  else if 0x7000 ≤ addr ∧ addr < 0x7200 then
    let x := n.sq ((addr - 0x7000) / 64)
    match addr % 64 with
    | 0x00 => some 0#32
    | 0x04 => some (seqStatusWord x)
    | 0x08 => some (wd (x.step + x.prev * 65536))
    | 0x0C => some (wd ((sqClock n x - x.stepAt) / tenth))
    | 0x10 => some (wd (seqTmrLeft n x 0))
    | 0x14 => some (wd (seqTmrLeft n x 1))
    | 0x18 => some (wd (seqTmrLeft n x 2))
    | 0x1C => some (wd (seqTmrLeft n x 3))
    | k => if 0x20 ≤ k ∧ k % 4 = 0 then some (wi (x.v.getD ((k - 0x20) / 4) 0)) else none
  else none

def seqWrite (addr : Nat) (v : Word) (n : Node) : Node :=
  if addr = 0x7300 then { n with seq.sidx := fld v 9 0 }
  else if 0x7000 ≤ addr ∧ addr < 0x7200 then
    let s := (addr - 0x7000) / 64
    match addr % 64 with
    | 0x00 => seqCtrlWrite s v n
    | 0x04 => modSq s (fun x => { x with varBad := x.varBad && !bitOf v 4, actRefused := x.actRefused && !bitOf v 3,
                                         cmdRefused := x.cmdRefused && !bitOf v 2, tmoSeen := x.tmoSeen && !bitOf v 1 }) n
    | _ => n
  else n

end Sys2Proof.Machine
end

