-- ==== Sys2Proof/Machine/Render.lean ====
section
/-! DEFINITION. What the DSP engine renders into a region's buffer (spec/16 R435, R436), and the ASCII text it shares with the
alert sentences (spec/19 R511, R512). -/

namespace Sys2Proof.Machine
open Sys2Proof

/-! ### Text -/

/-- The last `k` decimal digits of a number. -/
def digitsN (k x : Nat) : Bytes := (List.range k).reverse.map (fun i => BitVec.ofNat 8 (48 + x / 10 ^ i % 10))

/-- A number in decimal without leading zeros. -/
def decText (x : Nat) : Bytes := digitsN (((List.range 40).filter (fun k => decide (10 ^ (k + 1) ≤ x))).length + 1) x

/-- Bytes up to the first NUL. -/
def nulText (b : Bytes) : Bytes := b.takeWhile (· != 0#8)

/-- E32 × 10^SCALE with −SCALE decimals, none for SCALE ≥ 0 (R436). -/
def fixText (e scale : Int) : Bytes :=
  let a := e.natAbs
  (if e < 0 then [0x2D#8] else []) ++
    (if 0 ≤ scale then decText (a * 10 ^ scale.toNat)
     else decText (a / 10 ^ (-scale).toNat) ++ [0x2E#8] ++ digitsN (-scale).toNat a)

/-- Library text `t`: an item with REGION 0xFF (R436). -/
def Node.libText (n : Node) (t : Nat) : Option Bytes :=
  ((n.recs 0x0E 5).find? (fun r => u8 r 0 == 0xFF && u16 r 14 == t)).map (fun r => nulText ((r.drop 24).take 40))

/-! ### What an item shows -/

/-- Digits of the calendar view as hh:mm, or as yyyy-mm-dd. -/
def clockText (n : Node) (date : Bool) : Bytes :=
  let v := clkView n
  if date then
    let (y, m, d) := civil (viewDay v)
    digitsN 4 y ++ [0x2D#8] ++ digitsN 2 m ++ [0x2D#8] ++ digitsN 2 d
  else digitsN 2 (viewSod v / 3600) ++ [0x3A#8] ++ digitsN 2 (viewSod v / 60 % 60)

/-- Line of a point in ALARM_LIST, with whether it is drawn swapped. DESIGN CHOICE (notes/assumptions/57.md): four digits, and
single spaces between the parts. -/
def alarmLine (n : Node) (i : Nat) : Bytes × Bool :=
  let st := (n.almP i).st
  (digitsN 4 i ++ [0x20#8, if st = 1 then 0x55#8 else if st = 3 then 0x52#8 else 0x41#8]
    ++ (match n.libText (ptText (n.almRec i)) with
        | some t => 0x20#8 :: t
        | none => []), st == 1 || st == 3)

/-- Points of ALARM_LIST, newest transition first. -/
def alarmList (n : Node) (classes : Nat) : List Nat :=
  ((n.points.filter (fun x => inR 1 3 (n.almP x.1).st && classes.testBit (ptClass x.2))).map (·.1)).insertionSort
    (fun a b => (n.almP b).order ≤ (n.almP a).order)

/-- What an item shows now (R436). -/
def itemView (n : Node) (r : Bytes) : ItemView :=
  let x := n.res (u16 r 12)
  let ok := qHas (resQ x) qVALID
  let txt := nulText ((r.drop 24).take 40)
  match u8 r 1 with
  | 1 => .lines [(txt, false)]
  | 2 =>
    let scale := ((n.ld.img.bind (fun g => g.resMeta (u16 r 12))).getD (0, 0)).1
    .lines [(if ok then fixText x.value.toInt scale ++ txt else [0x2D#8, 0x2D#8, 0x2D#8, 0x2D#8], false)]
  | 3 => .bar (if ok then some x.value else none)
  | 4 => .lines ((alarmList n (u32 r 16)).map (alarmLine n))
  | 5 => .lamp (inR 1 3 (n.almP (u16 r 12)).st)
  | _ => .lines [(clockText n (u32 r 16 == 1), false)]

/-- Items of region `k` in record order. -/
def Node.items (n : Node) (k : Nat) : List Bytes := (n.recs 0x0E 5).filter (fun r => u8 r 0 == k)

/-! ### Pixels -/

/-- Width of a FONT; its height is twice that. -/
def fontW (f : Nat) : Nat := match f with
  | 0 => 8
  | 1 => 12
  | 2 => 16
  | _ => 24

/-- What an item draws at a place of its rectangle: foreground, background, or nothing. Glyphs lie in rows from the rectangle's
upper left corner; their bitmaps, the rest of a text's rectangle and the form of a bar are the font's and Config's. -/
def itemInk (r : Bytes) (v : ItemView) (x y : Nat) : Option Bool :=
  match v with
  | .lamp on => some on
  | .bar e => Config.barInk (u16 r 6) (u16 r 8) (u32 r 16) (u32 r 20) e x y
  | .lines ls =>
    let w := fontW (u8 r 10)
    match ls[y / (2 * w)]? with
    | none => Config.restInk false
    | some (t, sw) => match t[x / w]? with
      | some c => some (Config.glyph (u8 r 10) (if inR 0x20 0x7E c.toNat then c.toNat else 0x3F) (x % w) (y % (2 * w)) != sw)
      | none => Config.restInk sw

/-- Level of a pixel of a region: BG under its items, later items over earlier ones (R435). -/
def rgLevel (bg : Nat) (items : List (Bytes × ItemView)) (x y : Nat) : Nat :=
  items.foldl (fun a (r, v) =>
    if u16 r 2 ≤ x ∧ x < u16 r 2 + u16 r 6 ∧ u16 r 4 ≤ y ∧ y < u16 r 4 + u16 r 8 then
      (match itemInk r v (x - u16 r 2) (y - u16 r 4) with
        | some true => u8 r 11 / 16
        | some false => u8 r 11 % 16
        | none => a)
    else a) bg

/-- A buffer of `w` × `h` pixels in row order, two pixels per byte, low nibble first. -/
def rgPaint (w h bg : Nat) (items : List (Bytes × ItemView)) : Bytes :=
  (List.range (w * h / 2)).map (fun i =>
    let l (k : Nat) := rgLevel bg items (k % w) (k / w) % 16
    BitVec.ofNat 8 (l (2 * i) + 16 * l (2 * i + 1)))

end Sys2Proof.Machine
end

