-- ==== Sys2Proof/Machine/Display.lean ====
section
/-! DEFINITION. Annunciator panel drive (spec/16 R422 to R443). -/

namespace Sys2Proof.Machine
open Sys2Proof

/-! ### Records (R430, R442) -/

def Node.panel (n : Node) : Bytes := (n.dense 0x0E 1 0).getD []
def pnClass (r : Bytes) : Nat := u8 r 0
def pnInv (r : Bytes) : Nat := u8 r 1
def pnWidth (r : Bytes) : Nat := u16 r 2
def pnHeight (r : Bytes) : Nat := u16 r 4
def pnFrate (r : Bytes) : Nat := u8 r 6
def pnDefBand (r : Bytes) : Nat := u8 r 7
def pnTempSrc (r : Bytes) : Nat := u16 r 8
def pnVcom (r : Bytes) : Nat := u16 r 10
def pnBhys (r : Bytes) : Int := i32 r 12
/-- Threshold TBk, 1 to 7. -/
def pnTb (r : Bytes) (k : Nat) : Int := i32 r (12 + 4 * k)
def pnLstep (r : Bytes) : Nat := u8 r 0x2C
def pnGamma (r : Bytes) (l : Nat) : Nat := u8 r (0x30 + l)

def Node.rgRec (n : Node) (k : Nat) : Bytes := (n.dense 0x0E 4 k).getD []
def rgX (r : Bytes) : Nat := u16 r 0
def rgY (r : Bytes) : Nat := u16 r 2
def rgW (r : Bytes) : Nat := u16 r 4
def rgH (r : Bytes) : Nat := u16 r 6
def rgOn (r : Bytes) : Bool := recBit r 8 0
def rgPrio (r : Bytes) : Bool := recBit r 8 1
def rgMode (r : Bytes) : Nat := u8 r 8 / 4 % 4
def rgFullEvery (r : Bytes) : Nat := u8 r 9
def rgMinInt (r : Bytes) : Nat := u16 r 10 * tenMs
def rgBg (r : Bytes) : Nat := u8 r 12 % 16

def Node.rg (n : Node) (k : Nat) : Rg := tget {} n.dsp.rgs k
def setRg (k : Nat) (x : Rg) (n : Node) : Node := { n with dsp.rgs := tset {} n.dsp.rgs k x }
def modRg (k : Nat) (f : Rg → Rg) (n : Node) : Node := setRg k (f (n.rg k)) n

/-! ### Waveforms (R425, R426, R429) -/

/-- Code of a table for an old and a new level in a frame (R425). -/
def waveCode (tbl : Bytes) (o nw f : Nat) : Nat := u8 tbl ((o * 16 + nw) * 16 + f / 4) / 4 ^ (f % 4) % 4

/-- Highest frame of a byte with a nonzero code, plus one. -/
def topPair (b : Nat) : Nat := if 64 ≤ b then 4 else if 16 ≤ b then 3 else if 4 ≤ b then 2 else if 1 ≤ b then 1 else 0

/-- Length of a table (R426). -/
def waveLen (tbl : Bytes) : Nat :=
  max 1 (tbl.zipIdx.foldl (fun a (b, i) => if b = 0#8 then a else max a (i % 16 * 4 + topPair b.toNat)) 0)

/-- Signed trim of pixel x of a row (R429). -/
def trimAt (row : Bytes) (x : Nat) : Int := sgn 4 (u8 row (x / 2) / (if x % 2 = 0 then 1 else 16) % 16)

/-- UMAX: the largest positive trim (R429). -/
def umax (rows : List Bytes) : Nat :=
  let pos (x : Nat) := if x < 8 then x else 0
  rows.foldl (fun a row => row.foldl (fun b x => max b (max (pos (x.toNat % 16)) (pos (x.toNat / 16)))) a) 0

/-- Table of a band and mode; `none` in an AL panel without tables. -/
def Node.waveTbl (n : Node) (band mode : Nat) : Option Bytes := n.dense 0x0E 2 (band * 4 + mode)

/-- L_eff of an update (R425, R429, R431). -/
def leffOf (n : Node) (prio : Bool) (band mode : Nat) : Nat :=
  let l := match n.waveTbl band mode with
    | some t => waveLen t
    | none => 1
  if pnClass n.panel = 1 then min 64 (l + umax (n.recs 0x0E 3))
  else if prio && mode == 2 then 1 else l

/-- Band from a temperature (R428). -/
def bandUp (r : Bytes) (t : Int) : Nat → Nat → Nat
  | 0, b => b
  | fuel + 1, b => if b < 7 ∧ pnTb r (b + 1) ≤ t then bandUp r t fuel (b + 1) else b

def bandDown (r : Bytes) (t : Int) : Nat → Nat → Nat
  | 0, b => b
  | fuel + 1, b => if 0 < b ∧ t < pnTb r b - pnBhys r then bandDown r t fuel (b - 1) else b

/-! ### Panel levels (R433) -/

/-- Row y of the panel levels. -/
def panelRow (n : Node) (y : Nat) : Bytes :=
  match tget [] n.dsp.rows y with
  | [] => List.replicate (pnWidth n.panel / 2) 0xFF#8
  | r => r

/-- Quantising of mode 2: levels below 8 become 0, others 15 (R427). -/
def quantNib (x : Nat) : Nat := if x < 8 then 0 else 15
def quantByte (b : Byte) : Byte := BitVec.ofNat 8 (quantNib (b.toNat % 16) + 16 * quantNib (b.toNat / 16))

/-- The levels of a completed waveform stand on the panel. -/
def drawRect (x y w h : Nat) (img : Bytes) (n : Node) : Node :=
  (List.range h).foldl (fun m j =>
    let row := panelRow m (y + j)
    let seg := (img.drop (j * (w / 2))).take (w / 2)
    { m with dsp.rows := tset [] m.dsp.rows (y + j) (row.take (x / 2) ++ seg ++ row.drop (x / 2 + w / 2)) }) n

/-- Pixels in no enabled region go to level 15 (R430, R437): rows are rebuilt from the enabled regions' own segments. -/
def drawOutside (n : Node) : Node :=
  let w := pnWidth n.panel / 2
  let rgs := (n.recs 0x0E 4).filter rgOn
  (List.range (pnHeight n.panel)).foldl (fun m y =>
    let row := panelRow m y
    let row' := row.zipIdx.map (fun (b, i) =>
      if rgs.any (fun r => decide (rgY r ≤ y) && decide (y < rgY r + rgH r) && decide (rgX r / 2 ≤ i) && decide (i < (rgX r + rgW r) / 2))
      then b else 0xFF#8)
    { m with dsp.rows := tset [] m.dsp.rows y (if row' = List.replicate w 0xFF#8 then [] else row') }) n

/-! ### Requests (R432) -/

/-- The panel takes requests: BIAS ON and staying so, in a state in which updates run (R85, R432). -/
def dspTakes (n : Node) : Bool := n.dsp.bias == 2 && !n.dsp.stopping && n.acq && n.isRun 9

/-- A request meets region `k` (R432). -/
def dspRequest (k : Nat) (m0 : Bool) (n : Node) : Node :=
  let r := n.rgRec k
  let x := n.rg k
  if !rgOn r then n
  else if !dspTakes n then { n with dsp.refused := true }
  else if x.run && !rgPrio r then setRg k { x with queued := some (m0 || x.queued.getD false) } n
  else setRg k { x with req := some (m0 || x.req.getD false) } n

/-- Host requests by DSP_REDRAW and DSP_FULL. -/
def dspHost (v : Word) (m0 : Bool) (n : Node) : Node :=
  (List.range 32).foldl (fun m k => if bitOf v k then dspRequest k m0 m else m) n

/-- A rendering's request comes, no sooner than MIN_INT after the last start (R432). -/
def dspEngine (k t : Nat) (n : Node) : Node :=
  let x := n.rg k
  let due := match x.startAt with
    | some a => a + rgMinInt (n.rgRec k)
    | none => 0
  if due ≤ t then dspRequest k false (setRg k { x with dspAt := none } n) else setRg k { x with dspAt := some due } n

/-- Size of a region's buffer in bytes. -/
def rgBytes (r : Bytes) : Nat := rgW r * rgH r / 2

/-- The DSP engine works (R30, R85, R437). -/
def dspWorks (n : Node) : Bool := n.acq && n.isRun 9 && n.roleOn 6 0

/-- What the items of region `k` show now. -/
def rgViews (n : Node) (k : Nat) : List ItemView := (n.items k).map (itemView n)

/-- Rendering of region `k` starts where the content of an item has changed (R435). -/
def renderStart (n : Node) (k : Nat) : Node :=
  let v := rgViews n k
  if rgOn (n.rgRec k) && (n.rg k).shown != some v then modRg k (fun x => { x with shown := some v, rendering := x.rendering ++ [(n.now, v)] }) n else n

/-- Renderings that start at a scan tick. -/
def dspScan (n : Node) : Node := if dspWorks n then (List.range 32).foldl renderStart n else n

/-- The image of region `k` whose items show `vs`. -/
def rgDraw (n : Node) (k : Nat) (vs : List ItemView) : Bytes :=
  let r := n.rgRec k
  rgPaint (rgW r) (rgH r) (rgBg r) ((n.items k).zip vs)

/-- What completes: the rendering that started at `start`, else the redraw asked for, of the content last rendered (R438). -/
def rgDue (start : Nat) (x : Rg) : Option (List ItemView) :=
  match x.rendering.find? (fun y => y.1 == start) with
  | some y => some y.2
  | none => if x.redraw then x.shown else none

/-- RENDER_COMPLETE: the buffer is written with its CRC, and an update requested where it has changed or a redraw was asked for
(R432, R435, R438). -/
def dspRender (k start t : Nat) (n : Node) : Node :=
  let x := n.rg k
  if !(rgOn (n.rgRec k) && dspWorks n) then n
  else match rgDue start x with
    | none => n
    | some vs =>
      let px := rgDraw n k vs
      let changed := !x.rendered || x.buf != px
      let n1 := setRg k { x with buf := px, rendered := true, rendering := x.rendering.filter (fun y => y.1 != start), crc := crc32 px, redraw := false } n
      if x.redraw then dspRequest k false n1 else if changed then dspEngine k t n1 else n1

/-! ### Updates (R427, R428, R431, R434) -/

/-- The region's buffer as an update draws it; BG before the first rendering. -/
def rgImage (r : Bytes) (x : Rg) : Bytes :=
  if x.rendered then x.buf else List.replicate (rgBytes r) (BitVec.ofNat 8 (rgBg r * 17))

/-- The band for an update that starts now: the node with BAND, DSP_TEMP and BAND_BAD, and the band (R428). -/
def dspBand (n : Node) : Nat × Node :=
  let pr := n.panel
  let b0 := n.dsp.bandB.getD (pnDefBand pr)
  let x := n.res (pnTempSrc pr)
  let ok := qHas (resQ x) qVALID
  let t := x.value.toInt
  let b := if ok then bandDown pr t 8 (bandUp pr t 8 b0) else b0
  let n1 : Node := { n with dsp.bandB := some b, dsp.band := b, dsp.bandBad := !ok, dsp.temp := valueWord x }
  (b, raiseIf (b != b0) 111 n1)

/-- UPDATE_START: the waiting request of region `k` starts at a frame boundary at `t`. -/
def dspStart (k t : Nat) (n : Node) : Node :=
  let r := n.rgRec k
  let x := n.rg k
  match x.req with
  | none => n
  | some m0 =>
    if !(rgOn r && n.dsp.bias == 2 && n.isRun 9 && n.acq) || (x.run && !rgPrio r) then n
    else
      let (b, n1) := dspBand n
      let fe := rgFullEvery r
      let full := !rgPrio r && decide (2 ≤ fe) && (x.upds + 1) % fe == 0
      let mode := if m0 || x.full0 || full then 0 else rgMode r
      let l := leffOf n1 (rgPrio r) b mode
      let img := rgImage r x
      setRg k { x with req := none, run := true, frame := 0, leff := l, mode := mode, band := b,
                       img := if mode = 2 then img.map quantByte else img, rx := rgX r, ry := rgY r, rw := rgW r, rh := rgH r,
                       startAt := some t, upds := x.upds + 1, full0 := false }
        { n1 with dsp.len := l }

/-- The last frame of an update completes (R433, R434). -/
def dspDone (k : Nat) (n : Node) : Node :=
  let x := n.rg k
  let n1 := drawRect x.rx x.ry x.rw x.rh x.img n
  let n2 := setRg k { x with run := false, frame := 0, img := [], cnt := (x.cnt + 1) % 256,
                             req := match x.queued with
                               | some m => some m
                               | none => x.req
                             queued := none } n1
  raise 108 { n2 with dsp.updCnt := n2.dsp.updCnt + 1#32 }

/-- One frame of region `k`'s waveform has been scanned. -/
def dspAdvance (n : Node) (k : Nat) : Node :=
  let x := n.rg k
  if !x.run then n
  else if x.leff ≤ x.frame + 1 then dspDone k n
  else setRg k { x with frame := x.frame + 1 } n

/-- One frame of the update of the pixels outside every region (R437). -/
def dspBgAdvance (n : Node) : Node :=
  match n.dsp.bg with
  | some (f, l) =>
    if l ≤ f + 1 then
      let n1 := drawOutside n
      raise 108 { n1 with dsp.bg := none, dsp.updCnt := n1.dsp.updCnt + 1#32 }
    else { n with dsp.bg := some (f + 1, l) }
  | none => n

/-- No waveform runs on a pixel outside the enabled regions. -/
def dspBgFree (n : Node) : Bool :=
  (List.range 32).all (fun k =>
    let x := n.rg k
    let r := n.rgRec k
    !x.run || (rgOn r && x.rx == rgX r && x.ry == rgY r && x.rw == rgW r && x.rh == rgH r))

def dspBgStart (n : Node) : Node :=
  if n.dsp.bgPend && n.dsp.bg.isNone && dspBgFree n && dspTakes n then
    let (b, n1) := dspBand n
    let l := leffOf n1 false b 0
    { n1 with dsp.bg := some (0, l), dsp.bgPend := false, dsp.len := l }
  else n

/-! ### Buffer checking (R438) -/

/-- A bit of a buffer is upset. -/
def dspFlip (n : Node) (u : Nat × Nat) : Node :=
  modRg u.1 (fun x => { x with buf := x.buf.zipIdx.map (fun (b, i) => if i = u.2 / 8 then b ^^^ BitVec.ofNat 8 (2 ^ (u.2 % 8)) else b) }) n

/-- The check of one region at a frame scan. -/
def dspCheck (n : Node) (k : Nat) : Node :=
  let x := n.rg k
  if !(rgOn (n.rgRec k) && x.rendered) then n
  else if crc32 x.buf = x.crc then setRg k { x with corrupt := false } n
  else raise 109 (setRg k { x with corrupt := true, corrSeen := true, redraw := true } n)

/-! ### Bias rails (R439 to R441) -/

/-- The discharge starts; `fault`: BIAS shows FAULT. -/
def dspDischarge (fault : Bool) (n : Node) : Node :=
  { n with dsp.bias := if fault then 4 else 3, dsp.dis := 1, dsp.rails := n.dsp.rails % 16, dsp.stopping := false }

/-- Waveforms and requests are dropped. -/
def dspAbandon (n : Node) : Node :=
  let n1 := (List.range 32).foldl (fun m k =>
    modRg k (fun x => { x with run := false, frame := 0, img := [], req := none, queued := none, dspAt := none }) m) n
  { n1 with dsp.bg := none }

/-- Waveforms complete, then the discharge runs (R441). -/
def dspStop (n : Node) : Node :=
  if n.dsp.bias = 1 then dspDischarge false n
  else if n.dsp.bias = 2 then
    { (List.range 32).foldl (fun m k => modRg k (fun x => { x with req := none, queued := none, dspAt := none }) m) n
      with dsp.stopping := true }
  else n

/-- Waveforms are cut at once and the discharge runs (R441). -/
def dspCut (n : Node) : Node :=
  let n1 := dspAbandon n
  if n1.dsp.bias = 1 ∨ n1.dsp.bias = 2 then dspDischarge false n1 else n1

/-- The rise starts at `t` (R439). -/
def dspRise (t : Nat) (n : Node) : Node :=
  { n with dsp.bias := 1, dsp.riseAt := t, dsp.riseStep := 0, dsp.rails := 0, dsp.dis := 0, dsp.want := false, dsp.stopping := false }

/-- BIAS_RISE_STEP at `t`, where a 2 ms step has passed. -/
def dspRiseStep (t : Nat) (n : Node) : Node :=
  if !(n.dsp.bias == 1 && n.isRun 9 && decide (n.dsp.riseAt + 500000 * (n.dsp.riseStep + 1) ≤ t)) then n
  else
    let k := n.dsp.riseStep
    let n1 : Node := { n with dsp.riseStep := k + 1, dsp.rails := n.dsp.rails + 2 ^ k }
    if k < 4 then n1
    else (List.range 32).foldl (fun m r => dspRequest r true m)
      { n1 with dsp.bias := 2, dsp.bandB := none, dsp.scanAt := n.dsp.riseAt + 2500000, dsp.scans := 0 }

/-- BIAS_FAULT (R440). -/
def dspFault (n : Node) : Node :=
  if n.dsp.bias = 1 ∨ n.dsp.bias = 2 then raise 110 (dspDischarge true (dspAbandon n)) else n

/-- DISCHARGE_STEP (R441). -/
def dspDisStep (t : Nat) (n : Node) : Node :=
  match n.dsp.dis with
  | 1 => { n with dsp.dis := 2 }
  | 2 => { n with dsp.dis := 3, dsp.rails := Nat.land n.dsp.rails 0b00101 }
  | 3 => { n with dsp.dis := 4, dsp.rails := Nat.land n.dsp.rails 0b00001 }
  | 4 =>
    let n1 : Node := { n with dsp.dis := 0, dsp.rails := 0, dsp.bias := if n.dsp.bias = 4 then 4 else 0 }
    if n1.dsp.want && n1.acq && n1.isRun 9 then dspRise t n1 else n1
  | _ => n

/-- Frame periods that have ended at `t` since scanning started (R424). -/
def framesBy (n : Node) (t : Nat) : Nat := (t - n.dsp.scanAt) * pnFrate n.panel / secPer

/-- FRAME_SCAN at `t`: a frame period ends at this boundary (R424, R432, R438). `upsets`: buffer bits upset since the last. -/
def dspFrame (upsets : List (Nat × Nat)) (t : Nat) (n : Node) : Node :=
  let n0 := upsets.foldl dspFlip n
  if !(n0.dsp.bias == 2 && n0.isRun 9 && decide (n0.dsp.scans < framesBy n0 t)) then n0
  else
    let n1 := (List.range 32).foldl dspCheck n0
    let n2 := dspBgAdvance ((List.range 32).foldl dspAdvance n1)
    let n3 : Node := { n2 with dsp.vcom := n2.dsp.vcomW, dsp.frameNo := n2.dsp.frameNo + 1, dsp.scans := framesBy n0 t }
    if n3.dsp.stopping then
      (if (List.range 32).any (fun k => (n3.rg k).run) || n3.dsp.bg.isSome then n3 else dspDischarge false n3)
    else
      let n4 := (List.range 32).foldl (fun m k =>
        match (m.rg k).dspAt with
        | some d => if dspWorks m ∧ d ≤ t then dspRequest k false (modRg k (fun x => { x with dspAt := none }) m) else m
        | none => m) n3
      dspBgStart ((List.range 32).foldl (fun m k => dspStart k t m) n4)

/-! ### What the panel contacts carry (R423, R425, R427, R429) -/

/-- Last frame of an entry with a nonzero code, plus one. -/
def waveTop (tbl : Bytes) (o nw : Nat) : Nat := (List.range 64).foldl (fun a f => if waveCode tbl o nw f = 0 then a else f + 1) 0

/-- Length of the run of identical codes that ends before frame `top`. -/
def waveRun (tbl : Bytes) (o nw c : Nat) : Nat → Nat
  | 0 => 0
  | f + 1 => if waveCode tbl o nw f = c then waveRun tbl o nw c f + 1 else 0

/-- Trimmed EP code of a transition in frame f (R429). -/
def epCode (tbl : Bytes) (o nw f : Nat) (u : Int) : Nat :=
  let top := waveTop tbl o nw
  let c := waveCode tbl o nw (top - 1)
  if top = 0 then 0
  else if 0 ≤ u then (if f < top then waveCode tbl o nw f else if (f : Int) < top + u then c else 0)
  else
    let cut := min (-u).toNat (waveRun tbl o nw c top - 1)
    if top - cut ≤ f then 0 else waveCode tbl o nw f

/-- Level of pixel x in a row of two pixels per byte. -/
def rowLevel (row : Bytes) (x : Nat) : Nat := u8 row (x / 2) / (if x % 2 = 0 then 1 else 16) % 16

/-- Running region that covers a pixel. -/
def pixelRun (n : Node) (x y : Nat) : Option Rg :=
  ((List.range 32).map n.rg).find? (fun g => g.run && decide (g.rx ≤ x) && decide (x < g.rx + g.rw) && decide (g.ry ≤ y) && decide (y < g.ry + g.rh))

/-- Old and new level of a pixel under a running waveform, and whether the mode drives it (R427, R433). -/
def pixelMove (n : Node) (x y : Nat) : Nat × Nat × Bool :=
  let old := rowLevel (panelRow n y) x
  match pixelRun n x y with
  | some g =>
    let nw := rowLevel ((g.img.drop ((y - g.ry) * (g.rw / 2))).take (g.rw / 2)) (x - g.rx)
    (old, nw, g.mode == 0 || old != nw)
  | none => (old, old, false)

/-- Drive of an EP pixel in the present frame: code 0 VCOM, 1 VPOS, 2 VNEG (R425, R429). -/
def epDrive (n : Node) (x y : Nat) : Nat :=
  match pixelRun n x y with
  | some g =>
    let (o, nw, on) := pixelMove n x y
    let u := trimAt ((n.dense 0x0E 3 y).getD []) x
    if on then epCode ((n.waveTbl g.band g.mode).getD []) o nw g.frame u else 0
  | none => 0

/-- Source amplitude of an AL pixel in mV and its polarity (R422, R423, R425, R429). -/
def alDrive (n : Node) (x y : Nat) : Nat × Nat :=
  let pr := n.panel
  let (o, nw, on) := pixelMove n x y
  let level := match pixelRun n x y with
    | some g =>
      if !on then o
      else (match n.waveTbl g.band g.mode with
        | some t => (match waveCode t o nw g.frame with
          | 0 => o
          | 1 => nw
          | 2 => 15
          | _ => 0)
        | none => nw)
    | none => o
  let u := trimAt ((n.dense 0x0E 3 y).getD []) x
  let amp := clampI 0 15000 ((pnGamma pr level * 15000 / 255 : Nat) + u * pnLstep pr)
  let pol := match pnInv pr with
    | 0 => n.dsp.frameNo
    | 1 => n.dsp.frameNo + y
    | _ => n.dsp.frameNo + x + y
  (amp.toNat, pol % 2)

/-! ### States, image, replacement -/

/-- Entry to READY: the rails rise, at once or when a running discharge has ended (R439); after a bias fault they wait for
BIAS_ON (R440). -/
def dspReady (t : Nat) (n : Node) : Node :=
  if !n.hasLeg 0x0E || !n.isRun 9 || n.dsp.bias == 4 then n
  else if n.dsp.bias = 0 then dspRise t n
  else { n with dsp.want := true }

/-- Entry to SAFE: an EP panel completes and discharges (R441). -/
def dspSafe (n : Node) : Node := if pnClass n.panel = 1 then dspStop n else n

/-- A row of panel levels fitted to a width in bytes. -/
def fitRow (w : Nat) (row : Bytes) : Bytes := (row ++ List.replicate w 0xFF#8).take w

/-- Pixels outside every enabled region do not show level 15 (R430). -/
def dspStale (n : Node) : Bool :=
  let rgs := (n.recs 0x0E 4).filter rgOn
  n.dsp.rows.any (fun (y, row) => row.zipIdx.any (fun (b, i) => b != 0xFF#8 &&
    !rgs.any (fun r => decide (rgY r ≤ y) && decide (y < rgY r + rgH r) && decide (rgX r / 2 ≤ i) && decide (i < (rgX r + rgW r) / 2))))

/-- Panel levels fitted to the panel of the applied image. -/
def dspFit (n : Node) : Node := { n with dsp.rows := n.dsp.rows.map (fun e => (e.1, fitRow (pnWidth n.panel / 2) e.2)) }

/-- Pixels outside the regions, VCOM and the count of updates as an image's application leaves them. -/
def dspAnew (n : Node) : Node :=
  { n with dsp.bgPend := dspStale n, dsp.vcomW := pnVcom n.panel, dsp.vcom := pnVcom n.panel, dsp.updCnt := 0#32 }

/-- An image is applied: regions start anew but for their counts of updates and CORR_SEEN; what runs completes, and the panel
keeps its levels (R433, R441). -/
def dspApply (n : Node) : Node :=
  dspAnew (dspFit ((List.range 32).foldl (fun m k =>
    modRg k (fun x => { run := x.run, frame := x.frame, leff := x.leff, mode := x.mode, band := x.band, img := x.img, rx := x.rx,
                        ry := x.ry, rw := x.rw, rh := x.rh, cnt := x.cnt, corrSeen := x.corrSeen }) m) n))

/-- Live replacement of sections 4 and 5; `old` and `oldItems` give a region's record and items before. A region whose items
alone changed is rendered again (R79, R437). -/
def dspReplace (old : Nat → Bytes) (oldItems : Nat → List Bytes) (n : Node) : Node :=
  let n1 := (List.range 32).foldl (fun m k =>
    let r := m.rgRec k
    if old k = r then (if oldItems k = m.items k then m else modRg k (fun x => { x with shown := none, rendering := [] }) m)
    else modRg k (fun x => { x with full0 := true, rendered := false, shown := none, rendering := [], buf := [], redraw := false, dspAt := none,
                                    req := if rgOn r then x.req else none, queued := if rgOn r then x.queued else none }) m) n
  let gone := (List.range 32).any (fun k => rgOn (old k) && old k != n.rgRec k)
  { n1 with dsp.bgPend := n1.dsp.bgPend || gone }

/-! ### Registers (R443) -/

/-- DSP_CTRL (R443). -/
def dspCtrl (v : Word) (n : Node) : Node :=
  let on := bitOf v 0
  let off := bitOf v 1
  if (on && off) || (on && (n.dsp.bias == 1 || n.dsp.bias == 2)) || !n.acq then { n with dsp.refused := true }
  else if on then (if n.hasLeg 0x0E then dspRise n.now n else n)
  else if off then dspStop { n with dsp.want := false }
  else n

def rgMask (n : Node) (f : Rg → Bool) : Word := wd ((List.range 32).foldl (fun a k => a + b2n (f (n.rg k)) * 2 ^ k) 0)

def dspStatusWord (n : Node) : Word :=
  let d := n.dsp
  wd (pnClass n.panel * 2 ^ 28 + d.bias * 2 ^ 24 + d.band * 2 ^ 20 + b2n d.bandBad * 512 + b2n d.refused * 256 + d.rails)

def rgStatusWord (n : Node) (k : Nat) : Word :=
  let x := n.rg k
  let r := n.rgRec k
  wd (x.cnt * 2 ^ 24 + x.band * 2 ^ 20 + x.mode * 2 ^ 14 + b2n (rgPrio r) * 2 ^ 13 + b2n (rgOn r) * 2 ^ 12 + x.frame % 64 * 64
    + b2n x.corrSeen * 32 + b2n x.corrupt * 16 + b2n x.queued.isSome * 8 + b2n x.run * 4 + b2n x.redraw * 2)

def dspRead (n : Node) (addr : Nat) : Option Word :=
  match addr with
  | 0x7400 => some (dspStatusWord n)
  | 0x7404 | 0x7410 | 0x7414 => some 0#32
  | 0x7408 => some n.dsp.temp
  | 0x740C => some (wd n.dsp.vcomW)
  | 0x7418 => some (rgMask n (fun x => x.run))
  | 0x741C => some (rgMask n (fun x => x.queued.isSome))
  | 0x7420 => some (wd n.dsp.len)
  | 0x7424 => some n.dsp.updCnt
  | _ =>
    if 0x7440 ≤ addr ∧ addr < 0x7640 ∧ addr % 4 = 0 then
      let k := (addr - 0x7440) / 16
      let r := n.rgRec k
      match addr % 16 with
      | 0 => some (wd (rgY r * 65536 + rgX r))
      | 4 => some (wd (rgH r * 65536 + rgW r))
      | 8 => some (rgStatusWord n k)
      | _ => some (n.rg k).crc
    else none

def dspWrite (addr : Nat) (v : Word) (n : Node) : Node :=
  match addr with
  | 0x7400 => { n with dsp.refused := n.dsp.refused && !bitOf v 8 }
  | 0x7404 => dspCtrl v n
  | 0x740C => { n with dsp.vcomW := fld v 9 0 }
  | 0x7410 => dspHost v false n
  | 0x7414 => dspHost v true n
  | _ =>
    if 0x7440 ≤ addr ∧ addr < 0x7640 ∧ addr % 16 = 8 then
      modRg ((addr - 0x7440) / 16) (fun x => { x with corrSeen := x.corrSeen && !bitOf v 5 }) n
    else n

end Sys2Proof.Machine
end

