-- ==== Sys2Proof/Machine/States.lean ====
section
/-! DEFINITION. Device states (spec/03 R82 to R103), the detour and ECC registers (spec/17 R465 to R470), the island
registers (spec/01 R16 to R18) and the placing of the recorder's records (spec/18 R495). -/

namespace Sys2Proof.Machine
open Sys2Proof

/-- A frame leaves the module (notes/assumptions/10.md). -/
def sendFrame (c : TxChan) (dest : Nat) (b : Bytes) (n : Node) : Node :=
  { n with tx := n.tx ++ [{ chan := c, dest := dest, bytes := b }] }

/-! ### Detours (R465, R470) -/

def popcount (k : Nat) (x : Nat) : Nat := (List.range k).foldl (fun a i => a + x / 2 ^ i % 2) 0

/-- Engines that carry the spare role (R18, R84). -/
def Node.spares (n : Node) : Nat := (n.isl.roles.filter (fun b => b.toNat / 16 == 14)).length

/-- BCs left in the pool. -/
def Node.poolSize (n : Node) : Nat := ((List.range 4).filter (fun b => n.inPool b)).length

def dtrSum (n : Node) : Word :=
  wd (popcount 16 (Nat.lor n.dtr.engFuse.toNat n.dtr.engRun.toNat) * 2 ^ 24 + n.spares * 65536 + n.dtr.conv.length * 256 + n.poolSize)

def dtrUi (n : Node) (hi : Bool) : Word :=
  wd ((List.range 32).foldl (fun a i => a + b2n (tget 0 n.dtr.conv (i + 32 * b2n hi) != 0) * 2 ^ i) 0)

def dtrLast (n : Node) : Word := wd (n.dtr.lastKind * 2 ^ 28 + n.dtr.lastIdx % 4096 * 65536 + n.dtr.lastScan % 65536)

def dtrRead (n : Node) (addr : Nat) : Option Word :=
  match addr with
  | 0x0400 => some (dtrSum n)
  | 0x0404 => some (wd (n.dtr.engFuse.toNat % 65536 * 65536 + n.dtr.engRun.toNat % 65536))
  | 0x0408 => some (dtrUi n false)
  | 0x040C => some (dtrUi n true)
  | 0x0410 => some (wd (n.dtr.memSel * 65536 + tget 0 n.dtr.rowFuse n.dtr.memSel % 256 * 256 + tget 0 n.dtr.rowRun n.dtr.memSel % 256))
  | 0x0414 => some (dtrLast n)
  | 0x0418 => some n.dtr.corr
  | 0x041C => some n.dtr.unc
  | 0x0420 => some n.dtr.stest
  | _ => none

/-! ### Degradation (R84, R102) -/

/-- DEV_STATUS bits 3:1: CHAN_FAIL, CONV_DETOUR, SPARE_LOST. -/
def degradeBits (n : Node) : Nat :=
  if n.applied then b2n (!n.dev.chanFail.isEmpty) * 8 + b2n (!n.dtr.conv.isEmpty) * 4 + b2n (decide (n.spares < 2)) * 2 else 0

def Node.degraded (n : Node) : Bool := degradeBits n != 0

/-- AUTO_RUN of the applied image (R61, R102). -/
def Node.autoRun (n : Node) : Bool := n.applied && recBit (n.legBody 0x01) 0x2A 0

def devStateWord (n : Node) : Word := wd (devCode n.dev.prev * 16 + devCode n.dev.st)

def devStatusWord (n : Node) : Word :=
  wd (n.dev.safeCause * 2 ^ 24 + b2n n.dev.feedB * 2 ^ 15 + b2n n.dev.feedA * 2 ^ 14 + b2n n.dev.overtemp * 2 ^ 13
    + b2n n.dev.refused * 2 ^ 12 + b2n n.autoRun * 2 ^ 11 + degradeBits n + b2n n.degraded)

/-- Bit of a cause code 1 POWER, 2 PIN, 3 WDOG, 4 SOFT, 5 PARTNER. -/
def resetCauseWord (n : Node) : Word := oneHot (n.dev.cause - 1)

/-- RUN becomes DEGRADED and back as the conditions decide (R83). -/
def degradeSync (n : Node) : Node :=
  match n.dev.st with
  | .run => if n.degraded then enter .degraded n else n
  | .degraded => if n.degraded then n else enter .run n
  | _ => n

/-! ### Entries (R91, R92, R97) -/

/-- What the entry to SAFE stops: acquisition, control and panel updates (R85, R97). -/
def safeEntry (cause : Nat) (n : Node) : Node :=
  let n1 := lnTestsAbort (loSafeEntry (caStop (uiStop n)))
  let n2 := enter .safe { n1 with dev.safeCause := cause, dev.pend := .none }
  dspSafe (exRefresh n2.now n2)

/-- The RUN command takes effect at a scan tick (R84, R91). -/
def runEntry (t : Nat) (n : Node) : Node :=
  let n1 := enter (if n.degraded then .degraded else .run) { n with dev.pend := .none }
  seqRunEntry (tpRunEntry t (ssInit (loRunEntry (lnRunEntry (exRefresh t n1)))))

/-- HALT takes effect at a scan tick (R92). -/
def haltEffect (t : Nat) (n : Node) : Node :=
  let n1 := enter .ready { n with dev.pend := .none }
  exRefresh t (loSafeEntry (lnTestsAbort (seqHalt n1)))

/-! ### Reset (R99 to R101, R457) -/

/-- What stays of the calendar clock at a reset: everything in I11; the block's own registers do not. -/
def clkKeep (c : Clock) : Clock :=
  { c with shadows := [], tsetLo := 0#32, tsetHi := 0#32, tsetTime := 0#32, tsetDate := 0#32, dateReject := false,
           cmdRefused := false, vbak := 0, backupLow := false, alm := 0#32 }

/-- The hold latches engage at every reset other than power in a module that is ACTIVE with an eligible partner (R457). -/
def resetLatches (cause : Nat) (n : Node) : Bool := cause != 1 && n.dup.role == .active && n.dup.pElig

/-- State of the output stages that engaged latches keep through a reset. -/
def keepOutputs (n : Node) (b : Node) : Node :=
  let d : Table DoChan := n.dig.dout.filterMap (fun (k, u) => if u.on then some (k, { on := true }) else none)
  let l : Table LoChan := n.lo.filterMap (fun (k, u) => if u.driven.isSome then some (k, { driven := u.driven }) else none)
  let p : Table PoChan := n.po.filterMap (fun (k, u) => if u.driven.isSome then some (k, { driven := some (poPin n k) }) else none)
  { b with dig.dout := d, lo := l, po := p, dup.latched := true, dup.latchAt := 0 }

/-- Draws of unknown flash content that a reset makes: one where it cuts a programming off. -/
def cutDraws (n : Node) : Nat := if n.ld.stgState = 5 then 1 else 0

/-- A reset by cause 1 POWER, 2 PIN, 3 WDOG, 4 SOFT, 5 PARTNER: everything starts anew but the clock, MRAM and flash
(R99, R100); BOOT is entered, the bank selected or the partner waited for (R72, R448). -/
def resetNode (cause : Nat) (roleIn : Bool) (n : Node) : Node :=
  let m := if cause = 1 then msPowerUp { n with time := {} } else msRebase n
  let b : Node := {}
  let b1 : Node := { b with
    clk := clkKeep (clkRebase n).clk, mram := m.mram, rcd.op := m.rcd.op, rcd.opAt := 0,
    dtr.engFuse := n.dtr.engFuse, dtr.engRun := n.dtr.engRun, dtr.conv := n.dtr.conv, dtr.rowFuse := n.dtr.rowFuse,
    dtr.rowRun := n.dtr.rowRun, dev.cause := cause, dev.feedA := n.dev.feedA, dev.feedB := n.dev.feedB,
    dup.roleIn := roleIn, dup.resets := if cause = 1 then [] else n.dup.resets, dup.waitHello := roleIn,
    ld.prefB := n.ld.prefB,
    ld.sel := if roleIn then LoadSrc.none else if n.ld.prefB then LoadSrc.bankB else LoadSrc.bankA,
    tx := n.tx, free := n.free + cutDraws n, fwActs := n.fwActs }
  let b2 := if resetLatches cause n then keepOutputs n b1 else b1
  let b3 := recNoteIf (cause == 1) 1 1 none (recNote 2 1 none (clkBoot b2))
  raiseIf (cause == 3) 3 (raise 0 b3)

/-! ### DEV_CTRL (R102, R103) -/

/-- The keyed command is allowed in the present state. -/
def devAllows (n : Node) (key : BitVec 16) (cmd : Nat) : Bool :=
  key == 0x5EA5#16 && (match cmd with
    | 1 => n.dev.st == .ready
    | 2 => n.running
    | 3 => n.dev.st == .ready || n.running
    | 5 => true
    | _ => false)

/-- A DEV_CTRL write: refused, or worked (RESET apart, `true`: it resets). -/
def devCtrl (key : BitVec 16) (cmd : Nat) (n : Node) : Node × Bool :=
  if !devAllows n key cmd then ({ n with dev.refused := true }, false)
  else
    let n1 : Node := { n with dev.refused := false }
    match cmd with
    | 1 => ({ n1 with dev.pend := .run }, false)
    | 2 => ({ n1 with dev.pend := .halt }, false)
    | 3 => (safeEntry 6 n1, false)
    | _ => (n1, true)

/-! ### Feeds and temperature (R87, R535) -/

/-- A feed leaves or regains its range: events 4 and 5 at the loss. -/
def feedSet (b ok : Bool) (n : Node) : Node :=
  let was := if b then n.dev.feedB else n.dev.feedA
  if was = ok then n
  else
    let n1 : Node := if b then { n with dev.feedB := ok } else { n with dev.feedA := ok }
    recNote (if ok then 0x0D else 8) (if ok then 1 else 2) none (raiseIf (!ok) (if b then 5 else 4) n1)

/-- Module over-temperature sets or clears. -/
def overtempSet (on : Bool) (n : Node) : Node :=
  if n.dev.overtemp = on then n
  else recNote (if on then 8 else 0x0D) (if on then 2 else 1) none (raiseIf on 6 { n with dev.overtemp := on })

/-! ### Islands (R16 to R21) -/

/-- An island enters FAULT: its flag and event 16 (R17). -/
def islFltMark (i : Nat) (n : Node) : Node :=
  raise 16 { n with isl.states := lset n.isl.states i .fault, isl.flt := setBitW n.isl.flt i true }

def islStateWord (n : Node) : Word :=
  if n.showsReset then 0#32 else wd ((List.range 12).foldl (fun a i =>
    a + (match n.islSt i with | .off => 0 | .reset => 1 | .run => 2 | .fault => 3) * 4 ^ i) 0)

def cwyLast (n : Node) : Word := wd (n.isl.toDst * 4096 + n.isl.toSrc * 256 + n.isl.toScan)

def engRoleWord (n : Node) (m : Nat) : Word :=
  wd ((List.range 4).foldl (fun a j => a + (n.isl.roles.getD (4 * m + j) 0#8).toNat * 256 ^ j) 0)

def islRead (n : Node) (addr : Nat) : Option Word :=
  match addr with
  | 0x0480 => some n.isl.pwr
  | 0x0484 => some (islStateWord n)
  | 0x0488 => some n.isl.flt
  | 0x048C => some (wd n.isl.toCnt)
  | 0x0490 => some (cwyLast n)
  | 0x04A0 | 0x04A4 | 0x04A8 | 0x04AC => some (engRoleWord n ((addr - 0x04A0) / 4))
  | 0x04B0 => some (wd n.isl.ckptMiss)
  | _ => none

end Sys2Proof.Machine
end

