-- ==== Sys2Proof/Machine/Duplex.lean ====
section
/-! DEFINITION. Duplex pairs: link, roles, mirror, stand-down, take-over, planned swaps, resets by the partner, firmware
staging (spec/17 R444 to R469). -/

namespace Sys2Proof.Machine
open Sys2Proof

/-! ### Policy and identity (R444, R446, R468) -/

def dupBody (n : Node) : Bytes := n.legBody 0x0F
def dupHomeCode (n : Node) : Nat := u8 (dupBody n) 1
def dupReclaim (n : Node) : Nat := u8 (dupBody n) 2
def dupSwapOn (n : Node) : Bool := recBit (dupBody n) 3 0
def dupPeerReset (n : Node) : Bool := recBit (dupBody n) 3 1
def dupRejoin (n : Node) : Bool := recBit (dupBody n) 3 2
def dupSwapTime (n : Node) : Nat := u32 (dupBody n) 4
def dupFindT (n : Node) : Nat := u16 (dupBody n) 8 * scanPer
def dupCleanT (n : Node) : Nat := u16 (dupBody n) 10
def dupDivLimit (n : Node) : Nat := u8 (dupBody n) 12

def unitNo : Nat := b2n Config.unit

/-- This unit is the home unit (R468). -/
def isHome (n : Node) : Bool := n.pair && dupHomeCode n == unitNo

/-- The unit that waits FIND_T exactly (R447). -/
def findsFirst (n : Node) : Bool := if dupHomeCode n = 0xFF then unitNo == 0 else dupHomeCode n == unitNo

/-- CLEAN_S (R467). -/
def cleanS (n : Node) : Nat := min 0xFFFFFFFF ((n.now - n.dup.cleanAt) / secPer)

/-- A shaper run is in progress (R460). -/
def svBusy (n : Node) : Bool := n.shp.sv.any (fun x => x.2.running)

/-! ### Link and eligibility (R445, R446, R449) -/

def linkUp (n : Node) : Bool := n.dup.lane0 || n.dup.lane1

/-- LIVE_GENk: GEN of the k-th live leg; 0 where it is absent or a display leg of version 1 (R81). -/
def liveGen (n : Node) (k : Nat) : Word :=
  match n.ld.img with
  | some g => (match g.leg (0x0A + k) with
    | some l => if k = 4 ∧ l.ver < 2 then 0#32 else wd l.gen
    | none => 0#32)
  | none => 0#32

/-- LIVE_GEN0 to LIVE_GEN4 as HELLO carries them. -/
def liveGens (n : Node) : List Word := (List.range 5).map (liveGen n)

def rmOcrc (n : Node) : Word := match n.ld.img with | some g => g.ocrc | none => 0#32

/-- Both modules run the same image. -/
def sameImage (n : Node) : Bool := n.ld.img.isSome && rmOcrc n == n.dup.pOcrc && liveGens n == n.dup.pGen

def mirrorFresh (n : Node) : Bool :=
  match n.dup.mirrorAt with
  | some a => decide (n.now ≤ a + 3 * scanPer)
  | none => false

/-- INELIG (R469), the first that holds. -/
def ineligCode (n : Node) : Nat :=
  if !n.pair then 0
  else if n.dup.stoodDown then 1
  else if n.dup.linkIneligible || !linkUp n then 2
  else if n.dup.divIneligible then 3
  else if n.dup.verBad || n.dup.pver == 0 then 4
  else if !sameImage n then 5
  else if !mirrorFresh n then 6
  else 0

/-- The module is eligible (R446). -/
def eligible (n : Node) : Bool := n.pair && ineligCode n == 0

/-- Highest link version of a BUILD (R449). -/
def maxVersion (rev : Word) : Nat :=
  let b := fld rev 15 0
  if b < 0x200 then 1 else if b < 0x400 then 2 else 3

def Node.rev (n : Node) : Word := Config.rev n.fwActs

/-! ### Role changes (R446, R450, R458, R459) -/

/-- Excitation follows the role with no change of state under R177 (R459). -/
def exHandOver (n : Node) : Node :=
  (List.range 16).foldl (fun m k => let w := exWant m k; modEx k (fun e => { e with aOn := w.1, aVset := w.2, tc := none }) m) n

/-- A change of role: event 112, a record; excitation and charge inputs follow (R446, R495). -/
def setRole (r : DupRole) (n : Node) : Node :=
  if n.dup.role = r then n
  else
    let was := n.carries
    let n1 := recNote 6 2 none (raise 112 { n with dup.role := r, dup.swapCnt := n.dup.swapCnt + 1#32 })
    let n2 := if n1.carries == was then n1 else caRole (exHandOver n1)
    if r = .alone then sqAckAll n2 else n2

/-- The partner's eligibility as its beacons tell it (R446): event 113 as it ends. -/
def setPElig (e : Bool) (n : Node) : Node :=
  if n.dup.pElig = e then n
  else
    let n1 := raiseIf (!e) 113 { n with dup.pElig := e }
    if !n1.pair then n1
    else if e && n1.dup.role == .alone && n1.dup.roleOut then setRole .active n1
    else if !e && n1.dup.role == .active then setRole .alone n1
    else n1

/-! ### Lanes (R445) -/

/-- The strait link works: I8 is not OFF (R448 powers it in BOOT and LOAD). -/
def Node.straitOn (n : Node) : Bool := n.islSt 8 != .off && n.islSt 8 != .reset

/-- ROLE as HELLO and DUP_STATUS code it (R449, R469). -/
def roleCode : DupRole → Nat
  | .alone => 0 | .active => 1 | .standby => 2

/-- The HELLO of this module (R449): link versions, unit, role, formats 1 to 3 accepted, REV, OCRC and LIVE_GEN. -/
def helloBytes (n : Node) : Bytes :=
  [1#8, BitVec.ofNat 8 (maxVersion n.rev), BitVec.ofNat 8 unitNo,
   BitVec.ofNat 8 (if n.acq || n.dev.st == .safe then roleCode n.dup.role else 0xFF), 0b1110#8, 0#8, 0#8, 0#8]
    ++ leBytes 4 n.rev.toNat ++ leBytes 4 (rmOcrc n).toNat ++ (liveGens n).flatMap (fun g => leBytes 4 g.toNat)

def sendHello (n : Node) : Node := sendFrame .strait 1 (helloBytes n) n

/-- A BEACON on each lane, at each fine tick (R445). -/
def sendBeacons (n : Node) : Node := if n.straitOn then sendFrame .strait 2 [1#8] (sendFrame .strait 2 [0#8] n) else n

/-- A valid frame has come on a lane at `t`; at link up HELLO is sent. I8 leaves a FAULT by link loss. -/
def laneFrame (lane : Bool) (t : Nat) (n : Node) : Node :=
  let was := linkUp n
  let n1 : Node := if lane then { n with dup.lane1 := true, dup.last1 := t } else { n with dup.lane0 := true, dup.last0 := t }
  let n2 : Node := if n1.dup.lost then
      { n1 with dup.lost := false, isl.states := if n1.islSt 8 == .fault then lset n1.isl.states 8 .run else n1.isl.states }
    else n1
  if was then n2 else sendHello n2

/-- SL_BEACON: lane alive; partner at READY, its eligibility, and the role line. -/
def slBeacon (lane ready elig roleIn : Bool) (t : Nat) (n : Node) : Node :=
  if !n.straitOn then n
  else
    let n1 := laneFrame lane t { n with dup.roleIn := roleIn }
    let n2 : Node := if ready && n1.dup.findAt.isSome then { n1 with dup.foundReady := true } else n1
    setPElig elig n2

/-- A frame fails its CRC: SL_ERR (R445). -/
def slCrcError (lane : Bool) (n : Node) : Node :=
  if !n.straitOn then n
  else if lane then { n with dup.slErr1 := satInc 0xFFFF n.dup.slErr1 } else { n with dup.slErr0 := satInc 0xFFFF n.dup.slErr0 }

/-- LINK_LANE_DOWN: no valid frame for 50 µs. -/
def laneDown (lane : Bool) (t : Nat) (n : Node) : Node :=
  if lane then (if n.dup.lane1 && decide (n.dup.last1 + 50 * usPer ≤ t) then { n with dup.lane1 := false } else n)
  else if n.dup.lane0 && decide (n.dup.last0 + 50 * usPer ≤ t) then { n with dup.lane0 := false } else n

/-- LINK_LOST: down for 200 µs (R17, R445, R446, R456). -/
def linkLost (t : Nat) (n : Node) : Node :=
  if !n.straitOn || n.dup.lost || linkUp n || decide (t < max n.dup.last0 n.dup.last1 + 250 * usPer) then n
  else
    let n1 := islFltMark 8 { n with dup.lost := true, dup.hello := false, dup.pElig := false, dup.pver := 0, dup.proposed := none,
                                    dup.plan := none, dup.linkIneligible := n.dup.role == .standby }
    let n2 := raise 113 n1
    if n2.dup.role = .active then setRole .alone n2 else n2

/-! ### HELLO and the settling of roles (R447 to R449) -/

/-- A home unit that finds its partner carrying the plant after a start is owed control (R462). -/
def standbyAtReady (n : Node) : Node :=
  setRole .standby { n with dup.findAt := none, dup.foundReady := false, dup.roleOut := false, dup.owed := isHome n }

/-- The module carries the plant from here on. -/
def carryAtReady (r : DupRole) (n : Node) : Node :=
  setRole r { n with dup.findAt := none, dup.foundReady := false, dup.roleOut := true }

/-- Entry to READY in PAIR policy (R447 steps 1 and 2). -/
def roleSettle (roleIn : Bool) (t : Nat) (n : Node) : Node :=
  let n1 : Node := { n with dup.roleIn := roleIn }
  if !n1.pair then { n1 with dup.roleOut := false }
  else if roleIn then standbyAtReady n1
  else { n1 with dup.findAt := some (t + dupFindT n1 + (if findsFirst n1 then 0 else secPer)), dup.foundReady := false }

/-- FIND_TIMEOUT (R447 steps 2 to 4). -/
def findTimeout (roleIn : Bool) (t : Nat) (n : Node) : Node :=
  match n.dup.findAt with
  | none => n
  | some a =>
    if t < a then n
    else if !findsFirst n && roleIn then standbyAtReady { n with dup.roleIn := roleIn }
    else if n.dup.foundReady then (if findsFirst n then carryAtReady .active n else standbyAtReady n)
    else carryAtReady .alone n

/-- The image is offered to a newcomer, then the live legs; or refused for its format (R448). -/
def offerImage (fmtAcc : Byte) (n : Node) : Node :=
  match n.ld.img with
  | none => n
  | some g => sendFrame .strait 8 (if fmtAcc.getLsbD g.fmt then leBytes 4 g.ocrc.toNat else []) n

/-- SL_HELLO (R446 to R449). -/
def slHello (h : SlHello) (n : Node) : Node :=
  if !n.straitOn then n
  else
    let own := maxVersion n.rev
    let hi := min own h.maxVer.toNat
    let common := decide (max 1 h.minVer.toNat ≤ hi)
    let n1 : Node := { n with dup.pRev := h.rev, dup.pOcrc := h.ocrc, dup.pGen := h.gens, dup.pRole := h.role.toNat,
                              dup.hello := true, dup.pver := if common then hi else 0, dup.verBad := !common,
                              dup.linkIneligible := false }
    let n2 := raise 114 (raiseIf (common && decide (hi < own)) 117 n1)
    let n3 : Node := if n2.dev.st == .boot && n2.dup.waitHello then { n2 with dup.waitHello := false, ld.sel := .partner } else n2
    let n4 := if h.role.toNat = 0xFF ∧ n3.dup.roleOut ∧ n3.pair then offerImage h.fmtAcc n3 else n3
    if n4.dup.findAt.isSome && h.role.toNat != 0xFF then
      (if n4.dup.roleIn then standbyAtReady n4 else { n4 with dup.foundReady := true })
    else n4

/-- PARTNER_WAIT_TIMEOUT: 50 ms in BOOT with no HELLO (R448). -/
def partnerWaitOver (t : Nat) (n : Node) : Node :=
  if n.dev.st == .boot && n.dup.waitHello && decide (50 * scanPer ≤ t) then
    { n with dup.waitHello := false, ld.sel := if n.ld.prefB then LoadSrc.bankB else LoadSrc.bankA }
  else n

/-! ### Mirror (R452, R453) -/

/-- The pair is mirrored from this module. -/
def mirrors (n : Node) : Bool := n.pair && n.dup.roleOut && n.carries && linkUp n && n.dup.hello && n.dup.pver != 0

/-- The MIRROR that this module would send now. -/
def mirrorOf (n : Node) : Mirror :=
  { at_ := n.now, store := n.jn.store, seqs := n.jn.seqs, alm := n.alm, ln := n.ln,
    sq := n.seq.seqs.map (fun (k, x) => (k, { x with acc := sqClock n x, since := none })), latched := n.il.latched,
    queues := n.shp.sv.filterMap (fun (k, u) => u.queue.map (fun q => (k, q))) }

/-- The MIRROR is sent (R452); what it holds stays readable in the state. -/
def sendMirror (n : Node) : Node := { sendFrame .strait 3 [] n with mir.sent := some (mirrorOf n) }

/-- A time of the sender in this module's DEVTIME. -/
def shiftN (d : Int) (x : Nat) : Nat := ((x : Int) + d).toNat

def shiftPt (d : Int) (p : AlmPt) : AlmPt :=
  { p with onAt := p.onAt.map (· + d), offAt := p.offAt.map (· + d), upAt := p.upAt + d, shelveEnd := p.shelveEnd.map (shiftN d),
           prevE := p.prevE.map (fun (e, us) => (e, us + d / usPer)) }

/-- Alarm points, groups, call and patrol from the mirror; the log and the host's indices are this module's own. -/
def mirrorAlarms (d : Int) (m : Alarms) (a : Alarms) : Alarms :=
  { a with pts := m.pts.map (fun (k, p) => (k, shiftPt d p)),
           grps := m.grps.map (fun (k, g) => (k, { g with dlyEnd := g.dlyEnd.map (shiftN d) })),
           entered := [], level := m.level, cause := m.cause, callAt := m.callAt + d, escAt := m.escAt.map (shiftN d),
           recallAt := m.recallAt.map (shiftN d), repat := m.repat, duty := m.duty, dutyW := m.dutyW, patrol := m.patrol,
           patEnd := shiftN d m.patEnd, patWarn := shiftN d m.patWarn }

/-- A lane's mode, SP, u, I, IRES, F and FRES from the mirror. -/
def mirrorLane (m : Lane) (l : Lane) : Lane :=
  { l with req := m.req, act := m.act, sp := m.sp, u := m.u, i := m.i, ires := m.ires, f := m.f, fres := m.fres }

/-- A sequence from the mirror: state, step, times, timers, variables. -/
def mirrorSeq (now : Nat) (m : Seq) (x : Seq) : Seq :=
  { m with q := x.q, acts := [], since := if m.st = 1 then some now else none, entered := x.entered }

/-- One result from the mirror; FRESH sets where it is a new record. -/
def mirrorRes (d : Int) (m : Result) (x : Result) : Result :=
  { m with time := shiftN d m.time, arrived := shiftN d m.arrived, fresh := if m.seq = x.seq ∧ m.has = x.has then x.fresh else 15#4 }

/-- The STANDBY applies a MIRROR at its scan tick. -/
def applyMirror (m : Mirror) (n : Node) : Node :=
  let d : Int := (n.now : Int) - m.at_
  let ln := (List.range 32).foldl (fun a k => tset {} a k (mirrorLane (tget {} m.ln k) (tget {} n.ln k))) n.ln
  let sq := (List.range 8).foldl (fun a k => tset {} a k (mirrorSeq n.now (tget {} m.sq k) (tget {} n.seq.seqs k))) n.seq.seqs
  let sv := (List.range 16).foldl (fun a k =>
    tmod {} a k (fun u => { u with queue := if m.queues.any (fun x => x.1 == k) then some (tget (0, 0) m.queues k) else none })) n.shp.sv
  { n with jn.store := m.store.map (fun (a, r) => (a, mirrorRes d r (n.res a))), alm := mirrorAlarms d m.alm n.alm, ln := ln,
           seq.seqs := sq, shp.sv := sv, mir.seqs := m.seqs, mir.latched := m.latched, mir.pend := none,
           dup.mirrorAt := some n.now }

/-- SPAN (R207) of a UI result in result units × 4. -/
def divSpan4 (r : Bytes) : Nat :=
  let s := uiSpan4 r
  if uiCurve r = 0 ∧ u8 r 26 ≠ 0 then (s * (i32 r 16).natAbs) / 2 ^ u8 r 26 else s

/-- A UI result valid on both sides differs by more than 1 % of SPAN (R453). -/
def diverges (m : Mirror) (n : Node) : Bool :=
  (List.range 64).any (fun c =>
    let a := 0x2000 + 0x40 * c
    let x := tget {} m.store a
    let y := tget {} n.mir.shadow a
    n.chOn 1 c && qHas (resQ x) qVALID && qHas (resQ y) qVALID
      && decide (divSpan4 (n.recOf 1 c) < 400 * (x.value.toInt - y.value.toInt).natAbs))

/-- One divergence: event 116, MIR_DIV_CNT, and INELIG 3 from DIV_LIMIT on (R453). -/
def divergence (n : Node) : Node :=
  let k := n.dup.consecDiv + 1
  raise 116 { n with dup.mirDiv := n.dup.mirDiv + 1#32, dup.consecDiv := k,
                     dup.divIneligible := n.dup.divIneligible || decide (dupDivLimit n ≤ k) }

/-- SL_MIRROR: `none` fails its CRC. A good one makes the module eligible again (R453). -/
def slMirror (lane : Bool) (m : Option Mirror) (t : Nat) (n : Node) : Node :=
  if !n.straitOn || n.dup.role != .standby then n
  else match m with
    | none => divergence (slCrcError lane { n with mir.got := true })
    | some x =>
      let n1 : Node := { laneFrame lane t n with mir.got := true, mir.pend := some x }
      if diverges x n1 then divergence n1
      else { n1 with dup.consecDiv := 0, dup.divIneligible := false }

/-- The mirror's part of a scan tick: sent by the module that carries the plant, applied or missed by the STANDBY; a
take-over's first tick (R458 step 6). -/
def mirrorTick (n : Node) : Node :=
  if n.dup.taking then { n with dup.taking := false, jn.seqs := n.mir.seqs }
  else if mirrors n then sendMirror n
  else if n.dup.role = .standby ∧ n.acq then
    let n1 : Node := { n with mir.got := false }
    match n.mir.pend with
    | some m => srcSync (applyMirror m n1)
    | none => if n.mir.got || !n.dup.hello || n.dup.lost then n1 else divergence n1
  else n

/-! ### Commanded values (R452) -/

def intWord (x : Option Int) : Word := match x with | some i => wi i | none => 0x80000000#32

/-- Commanded value of every output by its key. -/
def outValues (n : Node) : List (Nat × Word) :=
  (List.range 32).map (fun k => (k, wd (b2n (doCommand n k))))
  ++ (List.range 16).map (fun k => (64 + k, intWord (loDemand n k)))
  ++ (List.range 8).map (fun k => (128 + k, intWord (poDemand n k)))
  ++ (List.range 16).map (fun k => (192 + k, wd (b2n (n.exC k).on + 16 * (n.exC k).vset)))
  ++ (List.range 6).map (fun k => (256 + k, wd (b2n (n.ssC k).on)))

/-- An ACTIVE module sends each new commanded value before it applies. -/
def outFlush (n : Node) : Node :=
  if n.dup.role = .active then
    (outValues n).foldl (fun m (k, v) =>
      if tget 0#32 m.dup.sent k = v then m
      else { sendFrame .strait 4 (leBytes 2 k ++ leBytes 4 v.toNat) m with dup.sent := tset 0#32 m.dup.sent k v }) n
  else n

/-- SL_OUTCMD at the STANDBY: the output's copy takes the value, in the place its SRC reads. -/
def slOutcmd (c : OutCmd) (n : Node) : Node :=
  if !n.straitOn || n.dup.role != .standby then n
  else match c with
    | .dout k on =>
      let s := doSrc (n.recOf 0x0A k)
      modDo k (fun u => if s = 0 then { u with cmd := on } else if s = 1 then { u with tpOn := on, laneOff := false }
        else if s = 2 then { u with ws := on } else u) n
    | .lo k d =>
      modLo k (fun u => if loSrc (n.recOf 5 k) = 1 then { u with laneD := d, laneOff := false }
        else if loSrc (n.recOf 5 k) = 0 then { u with demand := d } else u) n
    | .po k d =>
      modPo k (fun u => if poSrc (n.recOf 0x0F k) = 1 then { u with laneD := d, laneOff := false }
        else if poSrc (n.recOf 0x0F k) = 0 then { u with set := d } else u) n
    | .ex k on vs => modEx k (fun e => { e with on := on, vset := vs }) n
    | .ss k on => setSs k { n.ssC k with on := on } n

/-- SL_SEQSTEP at the STANDBY: the step is entered in its copy, its actions are not issued; the frame is acknowledged. -/
def slSeqstep (s k : Nat) (n : Node) : Node :=
  if !n.straitOn || n.dup.role != .standby then n
  else sendFrame .strait 5 [BitVec.ofNat 8 s]
    (modSq s (fun x => { x with prev := x.step, step := k, stepAt := sqClock n x, entered := some n.scan.toNat }) n)

/-! ### Take-over (R456 to R459) -/

def hundredUs : Nat := 25000

/-- The STANDBY takes control: outputs driven from its copies, SL_ROLE_OUT high, role ALONE; the overlap runs (R458). -/
def takeOver (t : Nat) (n : Node) : Node :=
  if !eligible n || n.dup.role != .standby then n
  else
    let rec1 := match n.dup.plan with | some p => p.reclaim && !p.outgoing | none => false
    let ln := n.ln.map (fun (k, l) => (k, { l with xfer := true, spLast := none, prevAct := none }))
    let n1 : Node := { n with il.latched := n.il.latched ||| n.mir.latched, ln := ln, dup.roleOut := true, dup.taking := n.acq,
                              dup.overlap := some (t + 10 * usPer), dup.pElig := false, dup.plan := none, dup.owed := false,
                              dup.proposed := none }
    let n2 := raiseIf (rec1 && isHome n) 119 (setRole .alone n1)
    if n2.running then loRunEntry n2 else n2

/-- SL_STAND_DOWN: the partner has stood down; the rejoin reset follows 1 s later where REJOIN is set (R456, R463). -/
def slStandDown (t : Nat) (n : Node) : Node :=
  if !n.straitOn then n
  else
    let n0 := setPElig false n
    let n1 := if n.dup.role = .standby then takeOver t n else if n0.dup.role = .active then setRole .alone n0 else n0
    if n1.pair && n1.dup.role == .alone && n1.dup.roleOut && dupRejoin n1 then { n1 with dup.rejoinAt := some (t + secPer) } else n1

/-- ROLE_IN_LOW: SL_ROLE_IN has stayed low for 1 µs. -/
def roleInLow (t : Nat) (n : Node) : Node := takeOver t { n with dup.roleIn := false }

/-- OVERLAP_END: SL_REL_OUT pulses, the loop outputs cross-ramp (R458 step 4). -/
def overlapEnd (t : Nat) (n : Node) : Node :=
  match n.dup.overlap with
  | some a => if a ≤ t then sendFrame .strait 0x20 [] { n with dup.overlap := none, dup.crossRamp := some (t + hundredUs) } else n
  | none => n

/-- CROSS_RAMP_COMPLETE (R458 step 5). -/
def crossRampEnd (t : Nat) (n : Node) : Node :=
  match n.dup.crossRamp with
  | some a => if a ≤ t then { n with dup.crossRamp := none } else n
  | none => n

def latch (n : Node) : Node := { n with dup.latched := true, dup.latchAt := n.now, dup.relAt := none }

/-- REL_IN_PULSE: the hold latches release (R457). -/
def relIn (n : Node) : Node := if n.dup.latched then { n with dup.latched := false, dup.relAt := some n.now } else n

/-- HOLD_LATCH_TIMEOUT: 5 ms with no release; the safe states are taken (R457). -/
def holdTimeout (t : Nat) (n : Node) : Node :=
  if n.dup.latched && decide (n.dup.latchAt + 5 * scanPer ≤ t) then
    { n with dup.latched := false, dup.unreleased := n.dup.role == .standby && n.applied } else n

/-! ### Stand-down (R454, R455) -/

def standDownNote (n : Node) : Node := recNote 6 3 none (raise 118 n)

/-- A module-level fault with its SAFE_CAUSE (R83, R454, R455). -/
def moduleFault (cause : Nat) (n : Node) : Node :=
  if !(n.dev.st == .calibrate || n.acq) then n
  else if n.pair && (n.dup.role == .standby || (n.dup.role == .active && n.dup.pElig)) then
    let n1 := sendFrame .strait 6 [] (standDownNote { n with dup.roleOut := false, dup.stoodDown := true, dup.plan := none,
                                                             dup.proposed := none, dup.owed := isHome n && n.carries })
    let n2 := if n.dup.role = .active then setRole .standby (latch n1) else n1
    safeEntry cause { n2 with dup.pElig := false }
  else if n.pair && n.dup.role == .active then safeEntry cause (setRole .alone (standDownNote n))
  else safeEntry cause n

/-! ### Planned swaps (R460 to R462) -/

def swapSkip (n : Node) : Node := { n with dup.swapSkip := true, dup.proposed := none }

def swapFrame (m : SwapMsg) (n : Node) : Node :=
  sendFrame .strait 7 (match m with
    | .propose r c b => [1#8, BitVec.ofNat 8 (b2n r)] ++ leBytes 4 c ++ [BitVec.ofNat 8 (b2n b)]
    | .agree r => [2#8, BitVec.ofNat 8 (b2n r)]
    | .refuse => [3#8]) n

/-- This module may propose or agree: the STANDBY is eligible and clean, no shaper run here. `c`: CLEAN_S of the partner. -/
def swapOk (n : Node) (c : Nat) : Bool :=
  n.pair && n.dup.hello && !svBusy n &&
    (if n.dup.role = .standby then eligible n && decide (dupCleanT n ≤ cleanS n)
     else n.dup.role == .active && n.dup.pElig && decide (dupCleanT n ≤ c))

/-- A swap is proposed; an ACTIVE module learns the STANDBY's CLEAN_S from its answer. -/
def swapPropose (reclaim : Bool) (n : Node) : Node :=
  if n.dup.plan.isSome || n.dup.proposed.isSome then n
  else if swapOk n (dupCleanT n) then
    swapFrame (.propose reclaim (cleanS n) (svBusy n)) { n with dup.proposed := some reclaim }
  else swapSkip n

/-- The agreement: event 115 in both modules, T_s a scan tick at least 100 ms ahead (R460). -/
def swapAgree (reclaim : Bool) (n : Node) : Node :=
  let p : SwapPlan := { at_ := (n.now + 100 * scanPer + scanPer - 1) / scanPer * scanPer, outgoing := n.dup.role != .standby,
                        reclaim := reclaim }
  raise 115 { n with dup.plan := some p, dup.proposed := none }

/-- SL_SWAP. -/
def slSwap (m : SwapMsg) (n : Node) : Node :=
  if !n.straitOn || !n.pair then n
  else match m with
    | .propose r c b =>
      if swapOk n c && !b && n.dup.plan.isNone then
        let r1 := r || (n.dup.role == .standby && isHome n && n.dup.owed && dupReclaim n == 2)
        swapFrame (.agree r1) (swapAgree r1 n)
      else swapFrame .refuse (swapSkip n)
    | .agree r => if n.dup.proposed.isSome then swapAgree r n else n
    | .refuse => if n.dup.proposed.isSome then swapSkip n else n

/-- SWAP_EXECUTE: at T_s the outgoing module sends its final MIRROR, stops and latches (R460). -/
def swapExecute (t : Nat) (n : Node) : Node :=
  match n.dup.plan with
  | some p =>
    if p.outgoing && decide (p.at_ ≤ t) then
      if n.dup.role = .active ∧ n.dup.pElig then
        setRole .standby (latch (sendMirror { n with dup.plan := none, dup.roleOut := false, dup.owed := false,
                                                                 dup.mirrorAt := none }))
      else swapSkip { n with dup.plan := none }
    else n
  | none => n

/-- The home unit reclaims the plant (R462). -/
def reclaimDue (n : Node) : Bool :=
  isHome n && n.dup.role == .standby && n.dup.owed && eligible n && decide (dupCleanT n ≤ cleanS n)

/-- RECLAIM: RECLAIM = 1 proposes at once; RECLAIM = 2 waits for the swap time. -/
def reclaim (n : Node) : Node := if reclaimDue n && dupReclaim n == 1 then swapPropose true n else n

/-- The calendar view reaches SWAP_TIME at this second (R461, R462). -/
def swapSecond (n : Node) : Node :=
  if !n.pair || viewSod (clkView n) != dupSwapTime n then n
  else
    let n1 := if n.dup.role = .active ∧ dupSwapOn n then (if n.clk.osf then swapSkip n else swapPropose false n) else n
    if reclaimDue n1 && dupReclaim n1 == 2 then swapPropose true n1 else n1

/-- NEXT_SWAP: seconds to the next periodic swap. -/
def nextSwap (n : Node) : Word :=
  if n.pair && dupSwapOn n then
    let s := viewSod (clkView n)
    let x := dupSwapTime n
    wd (if s < x then x - s else x + 86400 - s)
  else 0xFFFFFFFF#32

/-! ### Resets by the partner (R463) -/

def hourSixteenths : Nat := 57600

/-- The partner's reset command is accepted. -/
def peerResetOk (n : Node) : Bool :=
  n.straitOn && n.pair && dupPeerReset n && !n.carries
    && decide ((n.dup.resets.filter (fun a => decide (opNow n < a + hourSixteenths))).length < 3)

/-- The acceptance is remembered. -/
def peerResetCount (n : Node) : Node :=
  { n with dup.resets := (opNow n :: n.dup.resets).take 3 }

/-- PARTNER_RESET of DUP_CTRL sends the command. -/
def sendPeerReset (n : Node) : Node := sendFrame .strait 10 [] n

/-- REJOIN_RESET, 1 s after the partner's stand-down. -/
def rejoinReset (t : Nat) (n : Node) : Node :=
  match n.dup.rejoinAt with
  | some a =>
    if t < a then n
    else if n.dup.role = .alone then sendPeerReset { n with dup.rejoinAt := none } else { n with dup.rejoinAt := none }
  | none => n

/-! ### Firmware (R464) -/

def fwSize : Nat := 0x800000

/-- Write of FW_ADDR. -/
def fwAddrWrite (v : Word) (n : Node) : Node := { n with dup.fwAddr := fld v 22 2 * 4 }

/-- A word has been staged at FW_ADDR, which advances; FW_STAT 1. -/
def fwStaged (n : Node) : Node :=
  { n with dup.fwEnd := max n.dup.fwEnd (n.dup.fwAddr + 4), dup.fwAddr := (n.dup.fwAddr + 4) % fwSize, dup.fwStat := 1 }

/-- The last word is the CRC-32 over all the words before it. -/
def fwCrcOk (image : Bytes) : Bool :=
  decide (4 < image.length) && crc32 (image.take (image.length - 4)) == w32 image (image.length - 4)

/-- FW_INSTALL: the CRC is checked, then the idle slot is written. -/
def fwInstall (image : Bytes) (n : Node) : Node :=
  if fwCrcOk image then { n with dup.fwStat := 2, dup.fwRun := true } else { n with dup.fwStat := 4 }

/-- FW_INSTALL_COMPLETE: the slot is written, or the flash failed. -/
def fwComplete (ok : Bool) (n : Node) : Node :=
  if n.dup.fwRun then recNote 0x0B 1 none { n with dup.fwRun := false, dup.fwStat := if ok then 3 else 5 } else n

/-- FW_ACTIVATE is allowed: installed, and not carrying the plant in RUN or DEGRADED. -/
def fwActivateOk (n : Node) : Bool := n.dup.fwStat == 3 && !(n.carries && n.running)

/-! ### DUP_CTRL and registers (R469) -/

def dupRefuse (n : Node) : Node := { n with dup.cmdRefused := true }

/-- SWAP by DUP_CTRL: a module of a pair that is not ALONE. -/
def dupSwap (n : Node) : Node := if n.pair && n.dup.role != .alone then swapPropose false n else dupRefuse n

/-- PARTNER_RESET by DUP_CTRL: the link of a pair is up. -/
def dupPartnerReset (n : Node) : Node := if n.pair && linkUp n then sendPeerReset n else dupRefuse n

/-- Stages whose image FW_INSTALL takes. -/
def fwInstallOk (n : Node) : Bool := n.dup.fwStat == 1 || n.dup.fwStat == 4 || n.dup.fwStat == 5

def dupStatus (n : Node) : Word :=
  wd (roleCode n.dup.role * 2 ^ 28 + b2n (eligible n) * 2 ^ 27 + b2n n.dup.pElig * 2 ^ 26 + b2n (linkUp n) * 2 ^ 25
    + b2n n.dup.roleIn * 2 ^ 24 + b2n n.dup.roleOut * 2 ^ 23 + b2n n.dup.latched * 2 ^ 22 + b2n (isHome n) * 2 ^ 21
    + unitNo * 2 ^ 20 + b2n n.dup.swapSkip * 2 ^ 19 + b2n n.dup.cmdRefused * 2 ^ 18 + n.dup.pver * 256 + ineligCode n * 16)

def dupRead (n : Node) (addr : Nat) : Option Word :=
  match addr with
  | 0x7800 => some (dupStatus n)
  | 0x7804 => some 0#32
  | 0x7808 => some (wd (b2n n.dup.lane1 * 2 + b2n n.dup.lane0))
  | 0x780C => some (wd (n.dup.slErr1 * 65536 + n.dup.slErr0))
  | 0x7810 => some n.dup.pRev
  | 0x7814 => some n.dup.pOcrc
  | 0x7818 => some n.dup.mirDiv
  | 0x781C => some n.dup.swapCnt
  | 0x7820 => some (nextSwap n)
  | 0x7824 => some (wd (cleanS n))
  | 0x7830 | 0x7834 | 0x7838 | 0x783C => some (w32 (dupBody n) (addr - 0x7830))
  | 0x7840 => some (wd n.dup.fwAddr)
  | 0x7848 => some (wd n.dup.fwStat)
  | _ => none

def dupStatusWrite (v : Word) (n : Node) : Node :=
  { n with dup.swapSkip := n.dup.swapSkip && !bitOf v 19, dup.cmdRefused := n.dup.cmdRefused && !bitOf v 18 }

end Sys2Proof.Machine
end

