-- ==== Sys2Proof/Machine/Network.lean ====
section
/-! DEFINITION. Ethernet ports, alert sentences, CAN import and raw frames (spec/19 R504 to R520). Register accesses through
these ports stand in `Machine/Access.lean`. -/

namespace Sys2Proof.Machine
open Sys2Proof

/-! ### Port settings (R506, R519) -/

/-- Settings in use: those of the last image applied; before any, 192.168.0.240/24 with Wayfare on port A and B off (R506).
Record layout of section 1 of leg 0x11. -/
def Node.portSet (n : Node) : Bytes :=
  if n.mram.ports.isEmpty then
    leBytes 4 0xC0A800F0 ++ leBytes 4 0 ++ [24#8, 24#8, 1#8, 0#8] ++ leBytes 4 0 ++ leBytes 4 0 ++ List.replicate 16 0#8
      ++ [0xFF#8, 0#8, 0xFF#8, 0#8] ++ List.replicate 24 0#8
  else n.mram.ports

def ethIp (n : Node) (b : Bool) : Nat := u32 n.portSet (if b then 4 else 0)
def ethFlags (n : Node) (b : Bool) : Nat := u8 n.portSet (if b then 11 else 10)

/-- The port is on: I7 runs and it has an address (R505). -/
def ethOn (n : Node) (b : Bool) : Bool := n.up && n.isRun 7 && ethIp n b != 0

/-- An image's port settings are in force; at a COMMIT the running ones stay so until the new image is applied (R506). -/
def Node.netRuns (n : Node) : Bool := n.applied || n.ld.restarting

/-- Before an image is applied only Wayfare is served (R506). -/
def wayfareOn (n : Node) (b : Bool) : Bool := ethOn n b && (ethFlags n b).testBit 0
def modbusOn (n : Node) (b : Bool) : Bool := ethOn n b && (ethFlags n b).testBit 1 && n.netRuns
def alertOn (n : Node) (b : Bool) : Bool := ethOn n b && (ethFlags n b).testBit 2 && n.netRuns

def Node.eth (n : Node) (b : Bool) : EthPort := if b then n.net.ethB else n.net.ethA
def setEth (b : Bool) (x : EthPort) (n : Node) : Node := if b then { n with net.ethB := x } else { n with net.ethA := x }

/-- ETH_LINK_CHANGE: event 127 at each change (R505). -/
def ethLink (b up fd : Bool) (n : Node) : Node :=
  let e := n.eth b
  if !n.isRun 7 || (e.link == up && (e.fd == (fd && up))) then n
  else raiseIf (e.link != up) 127 (setEth b { e with link := up, fd := fd && up } n)

/-- ICMP_ECHO: answered (R504). -/
def icmpEcho (b : Bool) (client : Nat) (n : Node) : Node := if ethOn n b then sendFrame (.icmp b) client [] n else n

/-- MODBUS_IDLE_CLOSE: a connection idle for 60 s closes (R507). -/
def modbusIdle (b : Bool) (client t : Nat) (n : Node) : Node :=
  let e := n.eth b
  setEth b { e with conns := e.conns.filter (fun c => !(c.1 == client && decide (c.2 + 60 * secPer ≤ t))) } n

/-- Idle connections at a scan tick. -/
def modbusTick (n : Node) : Node :=
  let f (e : EthPort) : EthPort := { e with conns := e.conns.filter (fun c => decide (n.now < c.2 + 60 * secPer)) }
  { n with net.ethA := f n.net.ethA, net.ethB := f n.net.ethB }

/-- A request of a client: its connection, opened if fewer than four stand, and the request noted (R507). -/
def modbusConn (b : Bool) (client t : Nat) (n : Node) : Option Node :=
  let e := n.eth b
  if !modbusOn n b then none
  else if e.conns.any (fun c => c.1 == client) then
    some (setEth b { e with conns := e.conns.map (fun c => if c.1 == client then (client, t) else c) } n)
  else if e.conns.length < 4 then some (setEth b { e with conns := e.conns ++ [(client, t)] } n)
  else none

/-- Ports whose settings changed close their sessions and connections (R506). -/
def netApply (n : Node) : Node :=
  let new := (n.dense 0x11 1 0).getD (List.replicate 64 0#8)
  let old := n.portSet
  let changed (b : Bool) : Bool :=
    let o := b2n b
    u32 old (4 * o) != u32 new (4 * o) || u8 old (8 + o) != u8 new (8 + o) || u8 old (10 + o) != u8 new (10 + o)
      || u32 old (12 + 4 * o) != u32 new (12 + 4 * o)
  let n1 : Node := { n with mram.ports := new, wf := n.wf.filter (fun s => !changed s.net),
                            net.alerts := [], net.revs := [], net.alertAt := [], net.callSeen := [], net.lastVal := [] }
  let n2 := if changed false then setEth false { n1.net.ethA with conns := [] } n1 else n1
  if changed true then setEth true { n2.net.ethB with conns := [] } n2 else n2

/-! ### Alerts (R511, R512) -/

/-- Alert state of a point's state: 0 N, 1 V, 2 A, 3 U. -/
def alertState (st : Nat) : Nat := if st = 1 then 1 else if st = 2 then 2 else if st = 3 then 3 else 0

def stnNet (r : Bytes) : Bool := recBit r 4 0 && u8 r 0 != 0

def alertId : AlertRef → Nat
  | .point i => 10000 + i.val
  | .call s => 19900 + s.val

/-- The alert exists (R512, R513). -/
def alertKnown (n : Node) : AlertRef → Bool
  | .point i => n.ptUsed i.val
  | .call s => stnNet (n.stn s.val)

/-- The alert's present state. -/
def alertNow (n : Node) : AlertRef → Nat
  | .point i => alertState (n.almP i.val).st
  | .call s => b2n (callReaches n s.val)

/-- Two hexadecimal digits. -/
def hexByte (b : Byte) : Bytes :=
  let d (x : Nat) : Byte := BitVec.ofNat 8 (if x < 10 then 48 + x else 55 + x)
  [d (b.toNat / 16), d (b.toNat % 16)]

/-- Text with its checksum: `*` and the exclusive or of its bytes. -/
def summed (b : Bytes) : Bytes := b ++ 0x2A#8 :: hexByte (b.foldl (fun a x => a ^^^ x) 0#8)

/-- A sentence: talker and formatter, then its fields (R511). PRESUMED (notes/assumptions/10.md): IEC 61162-1's form. -/
def sentence (n : Node) (name : Bytes) (fields : List Bytes) : Bytes :=
  0x24#8 :: summed ((n.portSet.drop 0x1A).take 2 ++ name ++ fields.flatMap (fun f => 0x2C#8 :: f)) ++ [0x0D#8, 0x0A#8]

/-- "UdPbC" and NUL, a TAG block with `s:` and `n:`, one sentence (R511). -/
def alertDatagram (n : Node) (line : Nat) (s : Bytes) : Bytes :=
  [0x55#8, 0x64#8, 0x50#8, 0x62#8, 0x43#8, 0#8, 0x5C#8]
    ++ summed ([0x73#8, 0x3A#8] ++ (n.portSet.drop 0x1C).take 6 ++ [0x2C#8, 0x6E#8, 0x3A#8] ++ decText line) ++ 0x5C#8 :: s

/-- A datagram to the alert group on every port whose ALERT bit is set; the line count advances (R511). -/
def alertFrame (b : Bytes) (n : Node) : Node :=
  let line := n.net.line % 999 + 1
  let n1 : Node := { n with net.line := line }
  let f (p : Bool) (m : Node) : Node := if alertOn m p then sendFrame (.iec450 p) line (alertDatagram n line b) m else m
  f true (f false n1)

/-- UTC now in 1/100 s of the day. -/
def utcNow (n : Node) : Nat := n.clk.secs % 86400 * 100 + clkFrac n * 100 / 32768

/-- hhmmss.ss -/
def utcText (c : Nat) : Bytes := digitsN 2 (c / 360000) ++ digitsN 2 (c / 6000 % 60) ++ digitsN 2 (c / 100) ++ 0x2E#8 :: digitsN 2 c

/-- Priority A, W or C (R512). -/
def alertPrio (n : Node) : AlertRef → Byte
  | .point i => match ptClass (n.almRec i.val) with
    | 1 => 0x41#8
    | 2 => 0x57#8
    | _ => 0x43#8
  | .call _ => if n.alm.cause = 1 then 0x57#8 else 0x41#8

/-- State letter N, V, A or U (R512). -/
def alertLetter (st : Nat) : Byte := match st with
  | 1 => 0x56#8
  | 2 => 0x41#8
  | 3 => 0x55#8
  | _ => 0x4E#8

/-- Text of an alert: the library text or "POINT nnnn"; the station's NAME (R512). -/
def alertText (n : Node) : AlertRef → Bytes
  | .point i => (n.libText (ptText (n.almRec i.val))).getD ([0x50#8, 0x4F#8, 0x49#8, 0x4E#8, 0x54#8, 0x20#8] ++ digitsN 4 i.val)
  | .call s => nulText (((n.stn s.val).drop 8).take 16)

/-- Escalation counter (R512). -/
def alertEsc (n : Node) : AlertRef → Nat
  | .point _ => 0
  | .call _ => n.alm.level - 1

/-- The ALF of an alert in state `st` with revision `rev`; its text is cut at 82 characters (R512). -/
def alfSentence (n : Node) (a : AlertRef) (st rev : Nat) : Bytes :=
  let s (txt : Bytes) : Bytes := sentence n [0x41#8, 0x4C#8, 0x46#8]
    [[0x31#8], [0x31#8], [0x30#8], utcText (tget 0 n.net.alertAt (alertId a)), [0x42#8], [alertPrio n a], [alertLetter st], [],
     decText (alertId a), [0x31#8], decText rev, decText (alertEsc n a), txt]
  s ((alertText n a).take (82 - (s []).length))

/-- One ALF; the revision counter advances (R512). -/
def sendAlf (a : AlertRef) (n : Node) : Node :=
  let id := alertId a
  let st := alertNow n a
  let rev := tget 0 n.net.revs id % 99 + 1
  alertFrame (alfSentence n a st rev)
    { n with net.alerts := tset 0 n.net.alerts id st, net.revs := tset 0 n.net.revs id rev }

/-- The alert has changed now (R512). -/
def alertStamp (id : Nat) (n : Node) : Node := { n with net.alertAt := tset 0 n.net.alertAt id (utcNow n) }

/-- What the watch call at a station is seen at: it starts, escalates and ends. -/
def callView (n : Node) (s : Nat) : Nat := if stnNet (n.stn s) && callReaches n s then n.alm.cause * 256 + n.alm.level else 0

/-- The watch call at station `s` starts, escalates or ends. -/
def callStamp (n : Node) (s : Nat) : Node :=
  let v := callView n s
  if tget 0 n.net.callSeen s = v then n
  else alertStamp (19900 + s) { n with net.callSeen := tset 0 n.net.callSeen s v }

/-- The module sends alert sentences (R450, R511). -/
def alertSends (n : Node) : Bool := n.carries && (alertOn n false || alertOn n true)

def alertChanged (n : Node) (a : AlertRef) : Bool := alertNow n a != tget 0 n.net.alerts (alertId a)

/-- ALF at each change of an alert's state, after every command. -/
def alertFlush (n : Node) : Node :=
  if n.applied then
    let pts := (n.alm.alfDue.map (·.1)).dedup
    let n0 := (List.range 16).foldl callStamp (pts.foldl (fun m i => alertStamp (10000 + i) m) n)
    let n1 : Node := if n.alm.alfDue.isEmpty then n0 else { n0 with alm.alfDue := [] }
    if alertSends n1 then
      let n2 := pts.foldl (fun m i =>
        if h : i < 4096 then (if alertChanged m (.point ⟨i, h⟩) then sendAlf (.point ⟨i, h⟩) m else m) else m) n1
      (List.finRange 16).foldl (fun m s => if stnNet (m.stn s.val) && alertChanged m (.call s) then sendAlf (.call s) m else m) n2
    else n1
  else if n.alm.alfDue.isEmpty then n else { n with alm.alfDue := [] }

/-- Identifiers of the alerts in state V, A or U. -/
def alertList (n : Node) : List Nat :=
  n.points.filterMap (fun (i, _) => if alertState (n.almP i).st = 0 then none else some (10000 + i))
  ++ (List.range 16).filterMap (fun s => if stnNet (n.stn s) && callReaches n s then some (19900 + s) else none)

/-- ALC sentences of at most four alerts each, the `j`th of `tot` first (R512). -/
def alcSend (tot : Nat) : Nat → Nat → List Nat → Node → Node
  | 0, _, _, n => n
  | _, _, [], n => n
  | k + 1, j, x :: r, n =>
    let part := (x :: r).take 4
    let s := sentence n [0x41#8, 0x4C#8, 0x43#8]
      ([digitsN 2 tot, digitsN 2 j, digitsN 2 0, decText part.length]
        ++ part.flatMap (fun y => [[], decText y, [0x31#8], decText (tget 0 n.net.revs y)]))
    alcSend tot k (j + 1) ((x :: r).drop 4) (alertFrame s n)

/-- ALC_PERIODIC: every 30 s. -/
def alcPeriodic (n : Node) : Node :=
  let l := alertList n
  if alertSends n then alcSend ((l.length + 3) / 4) 1029 1 l n else n

/-- An ARC answer that refuses command `c` (R513, R520). -/
def sendArc (id : Nat) (c : Byte) (n : Node) : Node :=
  alertFrame (sentence n [0x41#8, 0x52#8, 0x43#8] [utcText (utcNow n), [], decText id, [0x31#8], [c]])
    { n with net.arcSent := satInc 0xFFFF n.net.arcSent }

/-- ACN_DISCARDED: counted (R513). -/
def acnDiscard (b : Bool) (n : Node) : Node :=
  if alertOn n b then { n with net.acnBad := satInc 0xFFFF n.net.acnBad } else n

/-- ACN_REQUEST: one alert, or every listed alert where the identifier is empty. -/
def acnRequest (b : Bool) (a : Option AlertRef) (n : Node) : Node :=
  if !alertOn n b then n
  else match a with
    | some x => if !alertKnown n x then acnDiscard b n else if alertSends n then sendAlf x n else n
    | none =>
      if alertSends n then
        let n1 := (n.points.filter (fun x => alertState (n.almP x.1).st != 0)).foldl (fun m (i, _) =>
          if h : i < 4096 then sendAlf (.point ⟨i, h⟩) m else m) n
        (List.finRange 16).foldl (fun m s => if stnNet (m.stn s.val) && callReaches m s.val then sendAlf (.call s) m else m) n1
      else n

/-- ACN_OTHER: commands O and S are answered with ARC. -/
def acnOther (b : Bool) (a : AcnUse) (n : Node) : Node :=
  if !alertOn n b then n
  else if !alertKnown n a.alert then acnDiscard b n
  else if alertSends n then sendArc (alertId a.alert) (if a.silence then 0x53#8 else 0x4F#8) n else n

/-! ### CAN (R514 to R517) -/

def canRate (n : Node) (p : Bool) : Nat := u8 n.portSet (0x24 + 2 * b2n p)
def canData (n : Node) (p : Bool) : Nat := u8 n.portSet (0x25 + 2 * b2n p)

/-- The controller is on. -/
def canOn (n : Node) (p : Bool) : Bool := n.up && n.isRun 7 && n.netRuns && canRate n p != 0xFF

def Node.can (n : Node) (p : Bool) : CanPort := if p then n.net.can1 else n.net.can0
def setCan (p : Bool) (x : CanPort) (n : Node) : Node := if p then { n with net.can1 := x } else { n with net.can0 := x }

/-- CAN_BUS_OFF: event 127; the error counters then hold values the spec does not give (R514). -/
def canBusOff (p : Bool) (n : Node) : Node :=
  if canOn n p && (n.can p).st != 3 then
    let (f, n1) := drawFree n
    raise 127 (setCan p { st := 3, rec_ := f.toNat % 256, tec := f.toNat / 256 % 256 } n1)
  else n

/-- CAN_BUS_OFF_RECOVERY: error active again, event 127. -/
def canRecover (p : Bool) (n : Node) : Node :=
  if canOn n p && (n.can p).st == 3 then raise 127 (setCan p {} n) else n

/-- Layout IDW: port, IDE, identifier. -/
def idwMatch (w : Word) (f : CanFrame) : Bool :=
  bitOf w 31 == f.port && bitOf w 30 == f.ide && fld w 28 0 == f.id.toNat

/-- Bit `k` of the data, counted from bit 0 of byte 0. -/
def dataBit (d : Bytes) (k : Nat) : Nat := b2n ((d.getD (k / 8) 0#8).getLsbD (k % 8))

/-- Bit positions of a field, most significant first (R515): Motorola fields run down a byte and on to the next one's bit 7. -/
def fieldBits (start len : Nat) (motorola : Bool) : List Nat :=
  if motorola then
    (List.range len).map (fun j =>
      let x := start / 8 * 8 + (7 - start % 8) + j
      x / 8 * 8 + (7 - x % 8))
  else ((List.range len).map (fun j => start + j)).reverse

/-- One import record takes a frame (R515, R516), while the NET role works (R30). DESIGN CHOICE (notes/assumptions/49.md):
an absent signal that has no value yet delivers no record (R43). -/
def canImport (f : CanFrame) (t : Nat) (r : Bytes) (n : Node) : Node :=
  if !n.roleOn 7 0 then n else
  let lay := w32 r 6
  let len := fld lay 14 9 + 1
  let bits := fieldBits (fld lay 8 0) len (bitOf lay 15)
  let sig := u16 r 0
  let addr := 0x7C00 + 8 * sig
  let prod := 206 + b2n f.port
  if bits.any (fun k => decide (8 * f.data.length ≤ k)) then { n with net.impErr := satInc 0xFFFFFFFF n.net.impErr }
  else
    let raw := bits.foldl (fun a k => 2 * a + dataBit f.data k) 0
    if bitOf lay 25 && raw == 2 ^ len - 1 then
      if tget 0x80000000#32 n.net.lastVal sig = 0x80000000#32 then n else
      complete prod sig [{ addr := addr, value := tget 0x80000000#32 n.net.lastVal sig, q := 0#8 }] t n
    else
      let v : Int := if bitOf lay 16 then sgn len raw else raw
      let e := divRound (v * i16 r 10) (2 ^ fld lay 20 17) + i16 r 12
      let en := mkEntry addr e true false false false false
      complete prod sig [en] t { n with net.lastVal := tset 0x80000000#32 n.net.lastVal sig en.value }

def importRecs (n : Node) (f : CanFrame) : List Bytes := (n.recs 0x11 2).filter (fun r => idwMatch (w32 r 2) f)

/-- The service's request identifier matches. -/
def svcReqWord (n : Node) : Word := w32 n.portSet 0x28
def svcRspWord (n : Node) : Word := w32 n.portSet 0x2C
def svcOn (n : Node) : Bool := !(svcReqWord n == 0#32 && svcRspWord n == 0#32)
def svcMatch (n : Node) (f : CanFrame) : Bool := svcOn n && idwMatch (svcReqWord n) f

/-- The frame matches RAWp_ID under RAWp_MASK. -/
def rawMatch (n : Node) (f : CanFrame) : Bool :=
  let o := 0x30 + 8 * b2n f.port
  let id := w32 n.portSet o
  let m := fld (w32 n.portSet (o + 4)) 28 0
  bitOf id 30 == f.ide && Nat.land (fld id 28 0) m == Nat.land f.id.toNat m

def rawCh (n : Node) (p : Bool) : Nat := u8 n.portSet (0x22 + b2n p)

/-- Payload of KIND 0x43 and 0x44 (R517). -/
def rawPayload (f : CanFrame) : Bytes :=
  let tr := decide (48 < f.data.length)
  [BitVec.ofNat 8 (b2n f.port), BitVec.ofNat 8 (b2n f.ide + 2 * b2n f.fd + 4 * b2n f.brs + 8 * b2n tr),
   BitVec.ofNat 8 (min 48 f.data.length), 0#8] ++ leBytes 4 f.id.toNat ++ f.data.take 48

/-- A frame for the raw channel is posted by the NET engine; one still POSTED is replaced and counted (R517). -/
def rawPost (f : CanFrame) (n : Node) : Node :=
  let c := rawCh n f.port
  let ch := c % 32
  if c < 128 then n
  else
    let lost := (n.mbChan ch).st == .posted
    let (s, n1) := mbPostMsg (netId n) ch (mkMsg 0x44 0 56 (rawPayload f)) n
    if s = 0 ∧ lost then
      (if f.port then { n1 with net.rawLost1 := satInc 0xFFFF n1.net.rawLost1 }
       else { n1 with net.rawLost0 := satInc 0xFFFF n1.net.rawLost0 })
    else n1

/-- A received frame for imports and the raw channel; imports deliver from READY on (R85, R516). -/
def canFrame (f : CanFrame) (t : Nat) (n : Node) : Node :=
  if !canOn n f.port || (n.can f.port).st == 3 then n
  else
    let rs := importRecs n f
    if !rs.isEmpty then (if n.acq then rs.foldl (fun m r => canImport f t r m) n else n)
    else if svcMatch n f then n
    else if rawMatch n f then rawPost f n else n

/-- A valid CAN FD length of at most 48. -/
def canLenOk (l : Nat) (fd : Bool) : Bool := decide (l ≤ 8) || (fd && [12, 16, 20, 24, 32, 48].contains l)

/-- CAN_RAW_SEND: a KIND 0x43 message to the NET engine is sent and acknowledged (R517). -/
def canRawSend (ch : Nat) (n : Node) : Node :=
  let c := n.mbChan ch
  let (_, rcv, bound) := mbBinding n ch
  if !bound || rcv != netId n || c.st != .posted || fld (c.msg.getD 0 0#32) 31 24 != 0x43 then n
  else
    let b := msgPayload c.msg
    let p := (b.getD 0 0#8).getLsbD 0
    let fd := recBit b 1 1
    let len := u8 b 2
    if !canLenOk len fd || 48 < len || (fd && canData n p == 0) then netAck ch 2 n
    else if !canOn n p || (n.can p).st == 3 || !n.carries then netAck ch 0x12 n
    else netAck ch 0 (sendFrame (.can p) (u32 b 4) ((b.drop 8).take len) n)

/-! ### Messages of a kind no engine knows (R148) -/

/-- Engines acknowledge messages whose KIND they do not know with code 0x01; the NET engine knows 0x48 and 0x43. -/
def mbUnknown (n : Node) : Node :=
  (List.range 32).foldl (fun m ch =>
    let c := m.mbChan ch
    let (_, rcv, bound) := mbBinding m ch
    let k := fld (c.msg.getD 0 0#32) 31 24
    if bound && c.st == .posted && decide (8 ≤ rcv) && !(rcv == netId m && (k == 0x48 || k == 0x43)) then
      (mbAck rcv ch (wd (2 ^ 31 + 2 ^ 24)) m).2
    else m) n

/-! ### Registers (R520) -/

def ethStat (n : Node) (b : Bool) : Word :=
  let e := n.eth b
  wd (b2n e.link * 2 ^ 31 + b2n e.fd * 2 ^ 30 + b2n (ethOn n b && !n.showsReset) * 2 ^ 29 + e.conns.length)

/-- MAC bytes 2 to 5, or bytes 0 and 1, first byte in the low bits. -/
def macWord (b hi : Bool) : Word :=
  let bytes := (leBytes 6 (Config.mac b).toNat).reverse
  if hi then wd (u16 bytes 0) else w32 bytes 2

def canStat (n : Node) (p : Bool) : Word :=
  let c := n.can p
  if canOn n p then wd (c.rec_ * 65536 + c.tec * 256 + c.st) else 0#32

def netRead (n : Node) (addr : Nat) : Option Word :=
  match addr with
  | 0x0100 => some (ethStat n false)
  | 0x0104 => some (ethStat n true)
  | 0x0108 => some (macWord false false)
  | 0x010C => some (macWord false true)
  | 0x0110 => some (macWord true false)
  | 0x0114 => some (macWord true true)
  | 0x0118 => some (wd (n.net.acnBad * 65536 + n.net.arcSent))
  | 0x0120 => some (canStat n false)
  | 0x0124 => some (canStat n true)
  | 0x0128 => some (wd n.net.impErr)
  | 0x012C => some (wd (n.net.rawLost1 * 65536 + n.net.rawLost0))
  | _ => none

end Sys2Proof.Machine
end

