-- ==== Sys2Proof/Machine/Junction.lean ====
section
/-! DEFINITION. The junction and the result store: addresses of results (spec/21 R547), drain (spec/01 R35 to R39), reading
(R46 to R49), result timeout (spec/07 R210), engines and their detours (R28 to R31), memory errors (spec/17 R466, R467). -/

namespace Sys2Proof.Machine
open Sys2Proof

/-! ### Where results lie (R547) -/

/-- Base, stride, instances, results per instance. -/
def resBlocks : List (Nat × Nat × Nat × Nat) :=
  [(0x2000, 0x40, 64, 1), (0x1C80, 0x10, 4, 1), (0x3000, 0x40, 16, 4), (0x5000, 0x100, 8, 2), (0x3800, 0x40, 16, 1),
   (0x4300, 8, 6, 1), (0x4600, 8, 4, 1), (0x4C00, 0x40, 8, 2), (0x5C00, 0x80, 32, 1), (0x1D00, 0x10, 16, 1),
   (0x3C00, 8, 128, 1), (0x7C00, 8, 128, 1), (0x3400, 0x20, 16, 1), (0x3600, 0x10, 8, 1)]

/-- The address is a VALUE register of the block. -/
def inBlock (a : Nat) (b : Nat × Nat × Nat × Nat) : Bool :=
  let (base, stride, cnt, k) := b
  decide (base ≤ a) && decide (a < base + stride * cnt) && decide ((a - base) % stride < 8 * k) && (a - base) % stride % 8 == 0

/-- The address is a VALUE register. -/
def isValue (a : Nat) : Bool := resBlocks.any (inBlock a)

/-- The address is a QSEQ register. -/
def isQseq (a : Nat) : Bool := decide (4 ≤ a) && isValue (a - 4)

/-- VALUE address of result `r`, counted through the blocks of R547. -/
def resAddrIn : List (Nat × Nat × Nat × Nat) → Nat → Nat
  | [], _ => 0x2000
  | (base, stride, cnt, k) :: rest, r => if r < cnt * k then base + r / k * stride + 8 * (r % k) else resAddrIn rest (r - cnt * k)

def resAddr (r : Nat) : Nat := resAddrIn resBlocks r

/-- VALUE addresses of a block in order. -/
def blockAddrs (b : Nat × Nat × Nat × Nat) : List Nat :=
  (List.range b.2.2.1).flatMap (fun i => (List.range b.2.2.2).map (fun j => b.1 + i * b.2.1 + 8 * j))

/-- Every VALUE address, ascending. -/
def allValues : List Nat := (resBlocks.flatMap blockAddrs).insertionSort (· ≤ ·)

/-! ### The drain (R35 to R38) -/

/-- Rotated index (R37). -/
def rotIdx (n : Node) (prod : Nat) : Nat := (prod + 232 - n.scan.toNat % 232) % 232

/-- Record `a` drains before record `b` (R37): by completion time, by arrival, by rotated index, by target. -/
def drainsFirst (n : Node) (a b : Record) : Bool :=
  if a.time ≠ b.time then decide (a.time < b.time)
  else if a.arr ≠ b.arr then decide (a.arr < b.arr)
  else if rotIdx n a.prod ≠ rotIdx n b.prod then decide (rotIdx n a.prod < rotIdx n b.prod)
  else decide (a.target ≤ b.target)

/-- The record that drains next; what waits further keeps its order. -/
def nextRecord (n : Node) : List Record → Option Record
  | [] => none
  | r :: rest => match nextRecord n rest with
    | none => some r
    | some x => if drainsFirst n r x then some r else some x

/-- One entry reaches the store: pair watch, alarm engine and followers work on it. -/
def deliver (r : Record) (n : Node) (e : Entry) : Node :=
  let st := storeEntry r n.now n.jn.store e
  let x : Result := tget {} st e.addr
  let x := if pairSuspect n e.addr && !qHas e.q qFORCED then { x with q := x.q ||| qSUSPECT } else x
  { n with jn.store := tset {} st e.addr x }

/-- A drained record: to the store, the pairs, the alarm engine and the outputs that follow its results; a STANDBY's own
records go to its shadow store (R452), as they do in a take-over's first instant (R458 step 6). -/
def storeRecord (r : Record) (n : Node) : Node :=
  if n.dup.role = .standby ∨ n.dup.taking then
    { n with mir.shadow := r.entries.foldl (storeEntry r n.now) n.mir.shadow }
  else
    let n1 := r.entries.foldl (deliver r) n
    let n2 := r.entries.foldl (fun m e => pairsOf e.addr r.time m) n1
    let n3 := almRecord (r.entries.map (·.addr)) r.time n2
    r.entries.foldl (fun m e => poFollow e.addr (loFollow e.addr m)) n3

/-- One lane takes one record. -/
def drainOne (n : Node) : Node :=
  match nextRecord n n.jn.slots with
  | none => n
  | some r => storeRecord r { n with jn.slots := n.jn.slots.filter (fun x => !(x.prod == r.prod && x.target == r.target)) }

/-- JUNCTION_DRAIN: one I0 cycle takes up to four records. -/
def drain (n : Node) : Node :=
  let n1 := drainOne (drainOne (drainOne (drainOne n)))
  { n1 with jn.cycle := n1.jn.cycle + 1 }

/-! ### Result timeout (R45, R210) -/

/-- Expected period of the result at an address, in DEVTIME counts; `none`: its producer has none. -/
def expectE (n : Node) (a : Nat) : Option Nat :=
  if a < 0x1D00 then
    let b := (a - 0x1C80) / 0x10
    let p := (n.bcOf b).period
    if p = 0 then none else some p
  else if a < 0x2000 then
    match n.keyed 0x06 3 ((a - 0x1D00) / 0x10) with
    | some r => some (u16 r 12 * scanPer)
    | none => none
  else if a < 0x3000 then some (uiPeriod (n.uiC ((a - 0x2000) / 0x40)).rate)
  else if a < 0x3400 then
    let r := n.recOf 4 ((a - 0x3000) / 0x40)
    some (if caMode r != 2 && caStep r != 0 then caBlock r * caStep r * 1000 else caTmo r * 25000000)
  else if a < 0x3680 then some (uiPeriod 2)
  else if a < 0x3C00 then some (10 * scanPer)
  else if a < 0x4000 then some (u16 (n.recOf 7 ((a - 0x3C00) / 8)) 12 * 25000000)
  else if a < 0x4800 then some scanPer
  else if a < 0x5000 then none
  else if a < 0x5800 then some (pfPubp (n.recOf 0x0D ((a - 0x5000) / 0x100)) * finePer)
  else if a < 0x7000 then (n.keyed 0x0A 1 ((a - 0x5C00) / 0x80)).map (fun r => lnPer r * finePer)
  else match n.keyed 0x11 2 ((a - 0x7C00) / 8) with
    | some r => some (u8 r 14 * 25000000)
    | none => none

/-- STALE_TIMEOUT of one result: VALID clears, the value stays; event 33 for UI results. -/
def staleOne (n : Node) (a : Nat) : Node :=
  let x := n.res a
  if n.dup.role == .standby || !x.has || x.lost || qHas x.q qSTALE then n
  else match expectE n a with
    | none => n
    | some e =>
      if x.time + 3 * e < n.now then
        poFollow a (loFollow a (raiseIf (decide (0x2000 ≤ a) && decide (a < 0x3000)) 33
          { n with jn.store := tset {} n.jn.store a { x with q := (x.q &&& ~~~ qVALID) ||| qSTALE } }))
      else n

/-- The store's check at a scan tick. -/
def staleTick (n : Node) : Node := (n.jn.store.map (·.1)).foldl staleOne n

/-! ### Reading (R46, R47) -/

/-- A port reads VALUE at `a`: its latch takes the QSEQ, its FRESH clears. -/
def valueRead (p : HostPort) (a : Nat) (n : Node) : Word × Node :=
  let x := n.res a
  let n1 := n.modPort p (fun q => { q with latch := some (a, qseqWord x (some (portIdx p))) })
  (valueWord x, { n1 with jn.store := tset {} n1.jn.store a { x with fresh := x.fresh &&& ~~~ BitVec.ofNat 4 (2 ^ portIdx p) } })

/-- A port reads QSEQ of the result whose VALUE lies at `a`. -/
def qseqRead (p : HostPort) (a : Nat) (n : Node) : Word × Node :=
  match (n.port p).latch with
  | some (b, w) => if b = a then (w, n.modPort p (fun q => { q with latch := none })) else (qseqWord (n.res a) (some (portIdx p)), n)
  | none => (qseqWord (n.res a) (some (portIdx p)), n)

/-! ### Memory errors (R49, R465, R466) -/

/-- An error found is counted, saturating. -/
def satW (x : Word) : Word := if x = 0xFFFFFFFF#32 then x else x + 1#32

/-- A detour of kind 1 engine, 3 row is recorded: DTR_LAST and a record (R470, R495). -/
def detourNote (kind idx : Nat) (n : Node) : Node :=
  recNote 4 3 none { n with dtr.lastKind := kind, dtr.lastIdx := idx % 4096, dtr.lastScan := n.scan.toNat % 65536 }

/-- A row is replaced by a spare row while its macro has one: event 19 (R465, R466). -/
def rowReplace (mem row : Nat) (n : Node) : Node :=
  if tget 0 n.dtr.rowFuse mem + tget 0 n.dtr.rowRun mem < 64 then
    detourNote 3 row (raise 19 { n with dtr.rowRun := tset 0 n.dtr.rowRun mem (tget 0 n.dtr.rowRun mem + 1),
                                        dtr.rowHits := tset [] n.dtr.rowHits (mem * 65536 + row) [] })
  else n

/-- A corrected error: event 20. -/
def eccCorrected (n : Node) : Node := raise 20 { n with dtr.corr := satW n.dtr.corr }

/-- An uncorrectable error: counted, recorded, its row replaced; a clean stretch ends (R466, R467, R495). -/
def eccUncorrectable (mem row : Nat) (n : Node) : Node :=
  let n1 : Node := { n with dtr.unc := satW n.dtr.unc, dup.cleanAt := n.now }
  rowReplace mem row (recNote 5 3 (some (leBytes 4 mem ++ leBytes 4 row ++ leBytes 4 n1.dtr.unc.toNat)) n1)

/-- An uncorrectable error in a result entry: event 21, NO_DATA until the next record (R49), which the outputs on
it follow (R250). -/
def resultLost (a : Nat) (n : Node) : Node :=
  let x := n.res a
  poFollow a (loFollow a (raise 21 (if x.has then { n with jn.store := tset {} n.jn.store a { x with lost := true } } else n)))

/-- What the check finds as a result is read. -/
def eccOnRead (e : Ecc) (a : Nat) (n : Node) : Node :=
  match e with
  | .clean => n
  | .corrected => eccCorrected n
  | .uncorrectable m r => eccUncorrectable m.val r (resultLost a n)

/-- A corrected error of a row on a scrub pass: three passes within 24 h replace it (R466). -/
def scrubCorrected (mem row t : Nat) (n : Node) : Node :=
  let k := mem * 65536 + row
  let hits := t :: (tget [] n.dtr.rowHits k).filter (fun a => decide (t < a + 86400 * secPer))
  let n1 := eccCorrected { n with dtr.rowHits := tset [] n.dtr.rowHits k (hits.take 3) }
  if 3 ≤ hits.length then rowReplace mem row n1 else n1

/-- SCRUB_PASS (R466): what it finds. -/
def scrub (f : ScrubFind) (t : Nat) (n : Node) : Node :=
  match f with
  | .clean => n
  | .corrected m r => scrubCorrected m.val r.val t n
  | .result i m r => eccUncorrectable m.val r.val (resultLost (resAddr i.val) n)
  | .checkpoint m r other => if other then eccUncorrectable m.val r.val n else moduleFault 3 (eccUncorrectable m.val r.val n)
  | .state m r => moduleFault 3 (eccUncorrectable m.val r.val n)
  | .other m r => eccUncorrectable m.val r.val n

/-! ### Engines (R28 to R31, R465) -/

/-- A spare for a role of engine `e`: one of the same island first, lowest number. -/
def spareFor (n : Node) (e : Nat) : Option Nat :=
  let sp := (List.range 16).filter (fun k => (n.isl.roles.getD k 0#8).toNat / 16 == 14 && !n.isl.paused.any (fun x => x.1 == k))
  match sp.find? (fun k => k / 8 == e / 8) with
  | some k => some k
  | none => sp.head?

/-- State of the role with byte `b` (R28): CTL its lanes, ALM the alarm state but its log and what waits for a tick,
SEQ the sequencer (notes/assumptions/54.md). -/
def roleSave (b : Nat) (n : Node) : RoleState :=
  match b / 16 with
  | 3 => { ln := n.ln.filter (fun x => x.1 / 8 == b % 16) }
  | 4 => { alm := { n.alm with log := [], head := 0, logWrap := false, refused := false, idx := 0, gidx := 0, inq := [], alfDue := [] } }
  | 5 => { seq := n.seq }
  | _ => {}

/-- A table with the entries that `mine` names replaced by saved ones. -/
def tmerge {α : Type} [DecidableEq α] (d : α) (mine : Nat × α → Bool) (saved t : Table α) : Table α :=
  saved.foldl (fun a x => tset d a x.1 x.2) (t.filter (fun x => !mine x))

/-- The role with byte `b` takes a saved state. -/
def roleTake (b : Nat) (s : RoleState) (n : Node) : Node :=
  match b / 16 with
  | 3 => { n with ln := tmerge {} (fun x => x.1 / 8 == b % 16) s.ln n.ln }
  | 4 => { n with alm := { s.alm with log := n.alm.log, head := n.alm.head, logWrap := n.alm.logWrap, refused := n.alm.refused,
                                      idx := n.alm.idx, gidx := n.alm.gidx, inq := n.alm.inq, alfDue := n.alm.alfDue } }
  | 5 => { n with seq := s.seq }
  | _ => n

/-- The last complete checkpoint of a role. -/
def Ckpt.last (c : Ckpt) : Option RoleState := if c.lastB then c.b else c.a

/-- The copy written last was not completed: the one before is the last. -/
def Ckpt.drop (c : Ckpt) : Ckpt := if c.lastB then { c with b := none, lastB := false } else { c with a := none, lastB := true }

/-- A checkpoint goes to the copy that was not written last. -/
def Ckpt.write (s : RoleState) (c : Ckpt) : Ckpt :=
  if c.lastB then { c with a := some s, lastB := false } else { c with b := some s, lastB := true }

/-- One role writes its checkpoint while it runs (R28, R30). -/
def ckptWrite (n : Node) (b : Byte) : Node :=
  let code := b.toNat / 16
  if decide (1 ≤ code) && decide (code ≤ 8) && n.roleOn code (b.toNat % 16) then
    { n with ckpt := tmod {} n.ckpt b.toNat (Ckpt.write (roleSave b.toNat n)) }
  else n

/-- CHECKPOINT: every role writes its state (R28). -/
def checkpoint (n : Node) : Node := n.isl.roles.foldl ckptWrite n

/-- A detour of a CTL engine ends the test of its generator (R371, R373). -/
def testDetour (b : Nat) (n : Node) : Node := if b / 16 = 3 then genEnd (b % 16 / 2) 4 n else n

/-- ENGINE_FAILURE: the engine stops, its role goes to a spare that starts at the next scan tick; event 23 and a
module-level fault where no spare is left (R29, R454). A spare that fails before it has started hands its role on. A missed
checkpoint leaves the copy before it as the last. DESIGN CHOICE (notes/assumptions/54.md): the failed engine's byte keeps its
INST, and an engine with no role to detour raises event 18 at once. -/
def engineFail (e : Nat) (c : EngCause) (n : Node) : Node :=
  let role := n.isl.roles.getD e 0#8
  if role.toNat / 16 = 15 then n
  else
    let n1 : Node := { n with
      isl.ckptMiss := if c = .checkpoint then satInc 0xFFFF n.isl.ckptMiss else n.isl.ckptMiss,
      ckpt := if c = .checkpoint then tmod {} n.ckpt role.toNat Ckpt.drop else n.ckpt,
      isl.roles := lset n.isl.roles e (BitVec.ofNat 8 (0xF0 + role.toNat % 16)),
      dtr.engRun := setBitW n.dtr.engRun e true }
    let n2 := detourNote 1 e n1
    let want := if role.toNat / 16 = 0 then none else if role.toNat / 16 = 14 then (n2.isl.paused.find? (fun x => x.1 == e)).map (fun x => x.2) else some (role, e)
    match want with
    | none => raise 18 n2
    | some (ro, of_) =>
      let n3 : Node := { n2 with isl.paused := n2.isl.paused.filter (fun x => x.1 != e) }
      match spareFor n3 e with
      | some s => testDetour ro.toNat { n3 with isl.paused := n3.isl.paused ++ [(s, ro, of_)] }
      | none => moduleFault 2 (raise 23 { n3 with isl.paused := n3.isl.paused ++ [(16, ro, of_)] })

/-- SPARE_START of engine `e`'s role: the spare takes the role at a scan tick and starts from the last complete checkpoint,
event 18 (R29 steps 3, 4). DESIGN CHOICE (notes/assumptions/54.md): with no complete checkpoint the role's state stays. -/
def spareStart (e : Nat) (n : Node) : Node :=
  match n.isl.paused.find? (fun x => x.2.2 == e && decide (x.1 < 16)) with
  | some (s, role, _) =>
    let n1 := match (tget {} n.ckpt role.toNat).last with
      | some x => roleTake role.toNat x n
      | none => n
    raise 18 { n1 with isl.roles := lset n.isl.roles s role, isl.paused := n.isl.paused.filter (fun x => x.2.2 != e) }
  | none => n

/-- Every spare that waits starts at a scan tick. -/
def spareTick (n : Node) : Node := (n.isl.paused.map (·.2.2)).foldl (fun m e => spareStart e m) n

/-- LOCKSTEP_MISMATCH (R32). -/
def lockstep (n : Node) : Node := moduleFault 1 n

/-- SELF_TEST_VECTOR: `w` below 16 an engine, above a causeway or a converter; a failed vector counts, ends a clean stretch
and fails the engine it tested (R29, R467, R470). -/
def selfTest (w : Nat) (pass : Bool) (n : Node) : Node :=
  if pass || !(n.dev.st == .calibrate || n.acq || n.dev.st == .safe) then n
  else
    let n1 : Node := { n with dtr.stest := satW n.dtr.stest, dup.cleanAt := n.now }
    if w < 16 then engineFail w .vector n1 else n1

/-! ### Island faults (R17, R20, R454) -/

/-- Islands whose FAULT is a stand-down trigger. -/
def faultStands (i : Nat) : Bool := [0, 1, 2, 3, 4, 5, 6, 10].contains i

/-- What the fault of an island stops at once. -/
def islStops (i : Nat) (n : Node) : Node :=
  if i = 3 then uiStop n else if i = 4 then caStop n else if i = 9 then dspCut n 
  else if i = 7 then { n with wf := [], net.ethA.conns := [], net.ethB.conns := [], net.svc := none } else n

/-- ISLAND_FAULT: loss of clock or an uncorrectable internal error. -/
def islandFault (i : Nat) (n : Node) : Node :=
  if n.islSt i == .off || n.islSt i == .fault then n
  else
    let n1 := islStops i (islFltMark i { n with dup.cleanAt := n.now })
    if faultStands i then moduleFault 4 n1 else n1

/-- The island at the far end of a causeway. Every causeway has I0 at one end (R19): the far end is the other, whichever way
the crossing went. DEDUCED (notes/assumptions/13.md). -/
def farEnd (src dst : Nat) : Nat := if dst = 0 then src else dst

/-- CAUSEWAY_TIMEOUT: counted, event 17, the far island in FAULT (R20). -/
def causewayTimeout (src dst : Nat) (n : Node) : Node :=
  islandFault (farEnd src dst)
    (raise 17 { n with isl.toCnt := satInc 0xFFFF n.isl.toCnt, isl.toDst := dst, isl.toSrc := src, isl.toScan := n.scan.toNat % 256 })

/-! ### Registers (R39) -/

/-- JN_STATUS and its neighbours. DESIGN CHOICE (notes/assumptions/14.md): DEPTH has 8 bits and shows 255 where more records
wait. -/
def jnRead (n : Node) (addr : Nat) : Option Word :=
  match addr with
  | 0x1C40 => some (wd (n.scan.toNat % 232 * 65536 + min 255 n.jn.slots.length))
  | 0x1C44 => some n.jn.overrun
  | 0x1C48 => some (wd n.jn.ovrLast)
  | 0x1C4C => some (wd n.jn.maxDepth)
  | _ => none

end Sys2Proof.Machine
end

