-- ==== Sys2Proof/Machine/Verify.lean ====
section
/-! DEFINITION. The VERIFY phase, step 13, on the channel plan: the record rules of R66, R93, R156, R161, R172, R173, R188,
R189, R245, R259, R265, R270, R294, R322, R328, R333, R349 (spec/02, 06, 08 to 12). Every record present is checked,
ENABLED or not (notes/assumptions/20.md). -/

namespace Sys2Proof.Machine
open Sys2Proof

def inRI (lo hi x : Int) : Bool := decide (lo ≤ x) && decide (x ≤ hi)

/-- UNIT codes of R173. -/
def unitOk (u : Nat) : Bool := decide (u ≤ 0x1B) || decide (0x8000 ≤ u)

def unitTemp (u : Nat) : Bool := u == 4 || u == 5

/-- Instances of a KIND (R66); 0 for a KIND that is an error. -/
def kindCount : Nat → Nat
  | 1 => 64 | 2 => 16 | 3 => 8 | 4 => 16 | 5 => 16 | 6 => 32 | 7 => 128 | 8 => 0 | 9 => 6 | 10 => 32 | 11 => 16 | 12 => 8
  | 13 => 8 | 14 => 48 | 15 => 8 | _ => 0

/-- SCALE and UNIT that a chapter fixes for a KIND (R270, R294, R322). -/
def kindMeta : Nat → Option (Int × Nat)
  | 5 => some (-6, 2) | 6 => some (0, 0) | 15 => some (0, 0) | 9 => some (0, 0) | 10 => some (0, 0) | 14 => some (0, 0)
  | 11 => some (-6, 0x12) | 12 => some (0, 0) | _ => none

/-- MODE, RANGE, WIRE and CURVE of a UI (R156). -/
def uiCombOk (mode range wire curve : Nat) : Bool :=
  let tbl := inR 32 63 curve
  let w3 := wire == 2 || wire == 3 || wire == 4
  match mode with
  | 0 => range == 0 && wire == 0 && curve == 0
  | 1 => range == 0 && wire == 0 && (curve == 0 || tbl)
  | 2 => decide (range ≤ 1) && wire == 0 && (curve == 0 || tbl)
  | 3 => range == 0 && wire == 0 && inR 1 8 curve
  | 4 => range == 0 && w3 && (curve == 9 || curve == 10 || tbl)
  | 5 => decide (range ≤ 1) && (wire == 4 || wire == 6) && (curve == 0 || tbl)
  | 6 => range == 0 && wire == 0 && (curve == 0 || curve == 12 || tbl)
  | 7 => range == 0 && w3 && (curve == 0 || curve == 11 || tbl)
  | _ => false

/-- UNIT of a UI in the modes that publish the physical value (R172). -/
def uiUnitOk (mode curve unit : Nat) : Bool :=
  if mode = 3 ∨ mode = 4 ∨ mode = 7 then
    if 32 ≤ curve then true else if curve = 0 then unit == 3 else unitTemp unit
  else true

def uiRecOk (r : Bytes) : Bool :=
  let mode := uiMode r
  let ex := uiEx r
  uiCombOk mode (uiRange r) (uiWire r) (uiCurve r) && !(mode == 0 && recOn r)
    && uiFiltOk (u8 r 11) (u8 r 12 == 1) && decide (u8 r 12 ≤ 1)
    && (decide (ex ≤ 15) || ex == 0xFF) && !((mode == 4 || mode == 5 || mode == 7) && ex == 0xFF)
    && (if mode = 3 then u8 r 15 / 64 != 3 else u8 r 15 == 0)
    && uiUnitOk mode (uiCurve r) (recUnit r)
    && (match mode with
      | 0 => u8 r 11 == 0 && u8 r 12 == 0 && ex == 0xFF && zeros r 16 16
      | 3 => zeros r 20 12
      | 4 => inR 10000 2000000000 (uiRref r) && (uiWire r == 2 || zeros r 20 4) && zeros r 24 8
      | 7 => inR 10000 2000000000 (uiRref r)
          && (uiCurve r == 11 || ((uiWire r == 2 || zeros r 20 4) && zeros r 24 8))
      | _ => u8 r 27 == 0 && decide (u8 r 26 ≤ 31) && (uiCurve r == 12 || u16 r 24 == 0) && zeros r 28 4)

def exRecOk (r : Bytes) : Bool := decide (u8 r 8 ≤ 2) && decide (u8 r 9 ≤ 1) && zeros r 10 22 && recUnit r == 1

def cjRecOk (r : Bytes) : Bool := zeros r 10 22 && unitTemp (recUnit r)

/-- Charge channel (R233, R245); the rule on TDC_CNT where the position interface has its CPR. -/
def caRecOk (g : Image) (r : Bytes) : Bool :=
  let m := caMode r
  decide (m ≤ 2) && !(m == 0 && recOn r) && decide (u8 r 9 ≤ 3) && decide (u8 r 10 < 8) && decide (u8 r 11 ≤ 3)
    && caSens r != 0 && decide (2 ≤ caRstTime r) && decide (1 ≤ caTmo r)
    && (match m with
      | 1 => !ca720 r && caPf r == 0 && decide (caStep r ≤ 250) && u8 r 14 == 0 && u8 r 15 == 0xFF && u16 r 16 == 0
          && caTdc r == 0 && inR 256 32768 (caBlock r) && !(caAuto r && caRst r == 0)
      | 2 => decide (caPf r ≤ 7) && [1, 2, 3, 4, 5, 6, 8, 9, 10].contains (caStep r) && decide (u8 r 14 ≤ 15)
          && (if ca720 r then decide (u8 r 15 ≤ 47) else u8 r 15 == 0xFF) && decide (caRst r ≤ 3599) && caBlock r == 0
          && isValue (u16 r 16) && (recUnit r == 6 || recUnit r == 7)
          && (match g.chan 0x0D (caPf r) with | some p => u32 p 12 == 0 || decide (caTdc r < u32 p 12) | none => true)
      | _ => !ca720 r && decide (caPf r ≤ 7) && decide (caStep r ≤ 250) && decide (u8 r 14 ≤ 15) && u8 r 15 == 0xFF)

def loRecOk (r : Bytes) : Bool :=
  let m := loMode r
  (m == 1 || m == 2) && [0, 2, 3, 4, 5].contains (loSafe r) && decide (loChar r ≤ 2) && decide (loSrc r ≤ 2)
    && (if loSafe r = 3 then inR (if m = 2 then 3600 else 0) 24000 (loSafeVal r) else loSafeVal r == 0)
    && decide (u16 r 16 ≤ 24000) && decide (u16 r 18 ≤ 24000) && u16 r 16 != u16 r 18
    && (match loSrc r with | 0 => loSrcAddr r == 0 | 1 => decide (loSrcAddr r ≤ 31) | _ => true)
    && (loChar r != 2 || inR 32 63 (loLowcut r))

def hmRecOk (i : Nat) (r : Bytes) : Bool :=
  (u8 r 8 == 1 || (u8 r 8 == 2 && decide (16 ≤ i))) && decide (u8 r 9 ≤ 1) && decide (u8 r 10 ≤ 3) && inR 5 20 (u8 r 11)
    && decide (1 ≤ u8 r 12) && zeros r 13 19

/-- ADDR 0 only on MODE 1, 1 to 63 only on MODE 2 (R270); without its master's record only the range is known. -/
def hvRecOk (g : Image) (r : Bytes) : Bool :=
  decide (u8 r 8 ≤ 31) && decide (u8 r 9 ≤ 63) && decide (u8 r 10 ≤ 4) && (u8 r 10 == 4 || u8 r 11 == 0)
    && inR 5 36000 (u16 r 12) && zeros r 14 18
    && (match g.chan 6 (u8 r 8) with
      | some m => if hmMode m = 1 then u8 r 9 == 0 else u8 r 9 != 0
      | none => true)

def poRecOk (r : Bytes) : Bool :=
  let m := poMode r
  inR 1 3 m && decide (poSafe r ≤ 3) && !(m == 3 && poSafe r != 0) && decide (poSrc r ≤ 2) && !(m == 3 && poSrc r != 0)
    && u8 r 11 == 0
    && (if poSafe r = 3 then decide (poSafeVal r ≤ (if m = 1 then 1000000 else poFmax r)) else poSafeVal r == 0)
    && (match poSrc r with | 0 => poSrcAddr r == 0 | 1 => decide (poSrcAddr r ≤ 31) | _ => true)
    && (match m with
      | 1 => inR 100 10000 (poWidth r) && poFmax r == 0
      | 2 => poWidth r == 0 && inR 100 20000000 (poFmax r)
      | _ => poFmax r == 0)

def diRecOk (r : Bytes) : Bool :=
  (u8 r 8 == 1 || u8 r 8 == 3) && decide (u8 r 9 ≤ 1) && inR 1 40 (u8 r 10) && decide (u8 r 11 ≤ 100) && decide (u8 r 12 < 4)
    && (decide (u8 r 13 ≤ 5) || u8 r 13 == 0xFF) && zeros r 14 18

def ssRecOk (r : Bytes) : Bool := decide (u8 r 8 ≤ 1) && decide (u8 r 9 ≤ 1) && zeros r 10 22

/-- The output rules (R294), with the layout of SRC_IDX for a station pattern (R399). -/
def doRecOk (r : Bytes) : Bool :=
  let src := doSrc r
  let idx := doSrcIdx r
  decide (doSafe r ≤ 2) && decide (src ≤ 3) && decide (u8 r 10 < 8) && zeros r 11 5
    && (match src with | 1 => decide (idx ≤ 31) | 2 => decide (idx < 128) && decide (idx / 16 ≤ 5) | _ => idx == 0)
    && (src == 1 || src == 3 || doW r == 0)
    && (if src = 1 then inR 1 6000 (doTpCyc r) else doTpCyc r == 0)
    && (if recBit r 10 0 then inR 1 3600 (doDtPer r) else doDtPer r == 0) && zeros r 24 8

def svRecOk (r : Bytes) : Bool :=
  u8 r 8 == 0 && decide (u8 r 9 ≤ 1) && decide (u8 r 10 ≤ 15) && inR 1 50 (u8 r 11) && inR 1 16777215 (u32 r 12)
    && (if u8 r 9 = 1 then decide (u16 r 16 ≤ 31) && inR 10 2000 (u16 r 18) else u16 r 16 == 0 && u16 r 18 == 0) && zeros r 20 12

def hbRecOk (r : Bytes) : Bool :=
  u8 r 8 == 0 && u8 r 9 == 0 && inR 2000 10000 (u16 r 10) && decide (u16 r 12 ≤ 500) && zeros r 14 18

/-- A power of two no greater than 2^BITS. -/
def pow2Upto (bits x : Nat) : Bool := (List.range (bits + 1)).any (fun k => x == 2 ^ k)

/-- The interface can report an angle (R333). -/
def pfAngleOk (r : Bytes) : Bool :=
  let cpr := u32 r 12
  decide (0 < cpr) && (match u8 r 8 with
    | 1 => recBit r 9 1
    | 3 => recBit r 9 1
    | 4 => pow2Upto (u8 r 10) cpr
    | _ => false)

/-- An SSI frame fits its publication period, in half microseconds (R328). -/
def ssiFits (r : Bytes) : Bool :=
  decide ((u8 r 10 + b2n (recBit r 9 4) + 1) * 2 ^ (u8 r 0x16 / 16 % 4) + 40 ≤ u8 r 0x1B * 20)

def pfRecOk (r : Bytes) : Bool :=
  let ty := u8 r 8
  let aux := u8 r 0x16
  decide (ty ≤ 4) && !(ty == 0 && recOn r) && decide (u8 r 9 < 32) && inR 1 64 (u8 r 11) && decide (u8 r 0x17 < 32)
    && inR 1 10000 (u16 r 0x18) && inR 1 100 (u8 r 0x1B) && decide (1 ≤ u8 r 0x1C) && decide (1 ≤ u8 r 0x1D)
    && inRI (-6) 3 (i8 r 0x1E) && decide (u8 r 0x1F ≤ 0x1B)
    && (match ty with
      | 0 => true
      | 4 => inR 8 32 (u8 r 10) && !recBit r 9 1 && decide (aux < 64) && ssiFits r
      | _ => decide (u8 r 10 ≤ 7) && !recBit r 9 3 && !recBit r 9 4
          && (match ty with
            | 1 => decide (aux < 64)
            | 2 => !recBit r 9 1 && decide (aux < 16) && u32 r 12 % 6 == 0
            | _ => aux / 64 != 3))
    && (ty == 0 || !recBit r 9 2 || pfAngleOk r)

/-- A characteristic table, where present, has 33 points (R248). -/
def charTblOk (g : Image) (r : Bytes) : Bool :=
  loChar r != 2 || (match g.keyed 0x05 1 (loLowcut r) with | some t => tblN t == 33 | none => true)

/-- The kind-specific rules of a channel record. -/
def kindRecOk (g : Image) (kind i : Nat) (r : Bytes) : Bool :=
  match kind with
  | 1 => uiRecOk r
  | 2 => exRecOk r
  | 3 => cjRecOk r
  | 4 => caRecOk g r
  | 5 => loRecOk r && charTblOk g r
  | 6 => hmRecOk i r && (decide (i < 16) || (match g.chan 1 (i - 16) with | some u => uiMode u == 6 | none => true))
  | 7 => hvRecOk g r
  | 9 => ssRecOk r
  | 10 => doRecOk r
  | 11 => svRecOk r
  | 12 => hbRecOk r
  | 13 => pfRecOk r
  | 14 => diRecOk r
  | 15 => poRecOk r
  | _ => false

/-- Distinct polling addresses that the records of master `m` up to key `key` name (R270). -/
def hartAddrs (g : Image) (m key : Nat) : Nat :=
  ((g.recs 0x04 1).filter (fun r => u8 r 1 == 7 && u8 r 8 == m && decide (u16 r 0 ≤ key)) |>.map (fun r => u8 r 9)).dedup.length

/-- The rules of every channel record (R66, R173). -/
def chanRecOk (g : Image) (r : Bytes) : Bool :=
  let kind := u8 r 1
  decide (u8 r 0 < kindCount kind) && decide (u8 r 2 < 2) && inRI (-6) 3 (recScale r) && unitOk (recUnit r) && zeros r 6 2
    && (match kindMeta kind with | some m => (recScale r, recUnit r) == m | none => true)
    && kindRecOk g kind (u8 r 0) r && !(kind == 7 && decide (15 < hartAddrs g (u8 r 8) (u16 r 0)))

end Sys2Proof.Machine
end

