-- ==== Sys2Proof/Machine/VerifyLegs.lean ====
section
/-! DEFINITION. The VERIFY phase, steps 11 to 14, on the other legs: required legs, section framing, field ranges and
reserved values (R52, R54, R56, R59, R61, R62, R143, R144, R170, R213, R214, R236, R293, R308, R346, R352, R356, R370, R376,
R377, R379, R380, R390, R393, R394, R418 to R420, R425, R429, R430, R436, R442, R468, R486, R499, R515, R519), and the engine
roles (R63). Text fields are not interpreted (notes/assumptions/20.md). -/

namespace Sys2Proof.Machine
open Sys2Proof

/-! ### Records with their places -/

/-- A record of a sectioned leg: section, index, byte offset in the image, bytes. -/
structure Item where
  sid : Nat
  idx : Nat
  ofs : Nat
  r   : Bytes

def itemsFrom (sid size : Nat) : Nat → Nat → List Bytes → List Item
  | _, _, [] => []
  | i, o, r :: rest => ⟨sid, i, o, r⟩ :: itemsFrom sid size (i + 1) (o + size) rest

def itemsOf : Nat → List Sect → List Item
  | _, [] => []
  | o, s :: rest => itemsFrom s.id s.recSize 0 (o + 8) s.recs ++ itemsOf (o + 8 + s.recs.length * s.recSize) rest

/-- The records of a leg in file order. -/
def Leg.items (l : Leg) : List Item := itemsOf (l.ofs + 16) l.sects

/-- Offset of the first section whose header has a nonzero reserved byte. -/
def sectRes : Nat → List Sect → Option Nat
  | _, [] => none
  | o, s :: rest => if s.resOk then sectRes (o + 8 + s.recs.length * s.recSize) rest else some o

/-! ### Tables, plausibility, interlock, microcode, compare (legs 0x05 to 0x09) -/

/-- User table (R170). -/
def tblOk (r : Bytes) : Bool :=
  let np := tblN r
  inR 32 63 (u16 r 0) && inR 2 64 np && zeros r 4 4
    && (List.range (np - 1)).all (fun i => decide (tblX r i < tblX r (i + 1)))
    && zeros r (8 + 8 * np) (8 * (64 - np))

/-- Volume table (R236): every volume greater than 0, and the stroke volume V_s, their spread, greater than 0. -/
def volOk (r : Bytes) : Bool :=
  let vs := (List.range 3600).map (fun i => u32 r (8 + 4 * i))
  decide (u16 r 0 ≤ 15) && zeros r 2 6 && vs.all (fun v => decide (0 < v)) && vs.any (fun v => v != u32 r 8)

/-- The used ones among some results share SCALE and UNIT (R214, R376, R380). -/
def sameMeta (g : Image) (as : List Nat) : Bool :=
  match as.filterMap g.resMeta with
  | [] => true
  | m :: rest => rest.all (fun x => x == m)

def pairOk (g : Image) (r : Bytes) : Bool :=
  decide (u16 r 0 ≤ 63) && isValue (u16 r 2) && isValue (u16 r 4) && u16 r 2 != u16 r 4 && decide (0 < i32 r 8) && zeros r 12 4 && sameMeta g [u16 r 2, u16 r 4]

def triadOk (g : Image) (r : Bytes) : Bool :=
  let m := [u16 r 2, u16 r 4, u16 r 6]
  decide (u16 r 0 ≤ 15) && m.all isValue && decide m.Nodup && m.all (fun a => !(inR 0x1D00 0x1DFF a)) && decide (0 < i32 r 8)
    && inR 1 1000 (u16 r 12) && zeros r 14 2 && sameMeta g m

/-- Interlock term (R288, R290, R293). -/
def termOk (g : Image) (r : Bytes) : Bool :=
  let nl := u8 r 3
  let src := u8 r 18 / 64
  let ch := u8 r 18 % 64
  decide (u16 r 0 ≤ 31) && decide (u8 r 2 < 8) && inR 1 8 nl && zeros r (4 + nl) (8 - nl) && decide (u8 r 19 < 4)
    && !(recBit r 2 1 && u16 r 16 != 0)
    && (match src with | 0 => ch == 0 | 1 => true | 2 => decide (ch ≤ 15) | _ => false)
    && (ilLits r).all (fun l =>
        let v := l % 64
        if l / 64 % 2 = 1 then decide (v ≤ 31)
        else decide (v ≤ 47) && (match g.chan 0x0E v with | some d => u8 d 9 == 1 | none => true))

/-- One microcode instruction at address `a` of a profile of `len` instructions (R304, R308). -/
def mcOk (len a : Nat) (w : Word) : Bool :=
  let i := fld w 9 0
  match fld w 31 27 with
  | 0 => fld w 26 0 == 0
  | 1 => fld w 25 10 == 0 && decide (i ≤ 600)
  | 2 => fld w 25 22 == 0 && decide (i ≤ 600) && fld w 21 10 != 0
  | 3 => fld w 26 24 == 0 && fld w 23 0 != 0
  | 4 => decide (i ≤ 600) && fld w 19 10 != 0 && decide (fld w 25 20 < len)
  | 5 => fld w 23 23 == 0 && fld w 22 0 != 0
  | 6 => decide (i ≤ 200) && !(bitOf w 25 && i != 0) && (if bitOf w 26 then fld w 23 10 == 0 else fld w 23 10 != 0)
  | 7 => fld w 25 0 == 0
  | 8 => fld w 26 0 == 0
  | 9 => fld w 26 9 == 0 && fld w 7 2 == 0
  | 10 => fld w 17 6 == 0 && decide (fld w 5 0 < len)
  | 11 => fld w 26 18 == 0 && fld w 7 6 == 0 && decide (2 ≤ fld w 17 8) && decide (fld w 5 0 < a) && decide (fld w 5 0 < len)
  | 12 => fld w 26 9 == 0 && fld w 7 4 == 0
  | _ => false

def profOk (r : Bytes) : Bool :=
  let len := u8 r 2
  decide (u16 r 0 ≤ 127) && inR 1 64 len && zeros r 3 5 && zeros r (8 + 4 * len) (4 * (64 - len))
    && (List.range len).all (fun a => mcOk len a (w32 r (8 + 4 * a)))

/-- CPR of an interface, 0 without a record. -/
def cprOf (g : Image) (p : Nat) : Nat := match g.chan 0x0D p with | some r => u32 r 12 | none => 0

/-- Compare entry (R343, R346). -/
def cmpOk (g : Image) (r : Bytes) : Bool :=
  let sel := u8 r 2
  let act := u8 r 3 % 16
  let tgt := u8 r 8
  let arg := u16 r 10
  decide (u16 r 0 ≤ 1023) && sel / 32 % 4 != 0 && decide (sel < 128) && inR 1 8 act && u8 r 3 / 16 % 8 == 0 && decide (1 ≤ u8 r 9)
    && zeros r 12 4
    && (!recBit r 2 4 || cprOf g (sel % 8) == 0 || decide (u32 r 4 < cprOf g (sel % 8)))
    && (match act with
      | 1 => decide (tgt ≤ 31) && arg == 0
      | 2 => decide (tgt ≤ 7) && arg == 0
      | 6 => decide (tgt ≤ 15) && decide (arg ≤ 15)
      | 7 => decide (tgt ≤ 63) && decide (arg ≤ 3)
      | 8 => tgt == 0 && arg == 0
      | _ => decide (tgt ≤ 15) && arg == 0)

/-- Entries up to key `k` that share PF, REL and POS with `r` (R344). -/
def cmpShare (g : Image) (k : Nat) (r : Bytes) : Nat :=
  ((g.recs 0x09 1).filter (fun x => decide (u16 x 0 ≤ k) && u8 x 2 % 8 == u8 r 2 % 8 && recBit x 2 4 == recBit r 2 4
    && u32 x 4 == u32 r 4)).length

/-! ### Lanes and generators (leg 0x0A) -/

/-- OUT_LO and OUT_HI allowed by the target kind (R370). -/
def outOk (kind : Nat) (lo hi : Int) : Bool :=
  match kind with
  | 1 => decide (-1000000 ≤ lo) && decide (hi ≤ 1000000)
  | 4 => decide (-1000000 ≤ lo) && decide (hi ≤ 1000000)
  | 2 => decide (0 ≤ lo) && decide (hi ≤ 1000000)
  | 3 => decide (0 ≤ lo) && decide (hi ≤ 1000000)
  | _ => true

/-- Instances of a lane target kind. -/
def tgtCount : Nat → Nat
  | 0 => 1 | 1 => 16 | 2 => 16 | 3 => 32 | 4 => 8 | 5 => 32 | _ => 0

/-- The lane is an inner lane: some lane record names it as its setpoint target (R362). -/
def innerLane (g : Image) (k : Nat) : Bool := (g.recs 0x0A 1).any (fun q => lnKind q == 5 && lnTgt q == k)

def laneOk (g : Image) (r : Bytes) : Bool :=
  let sh := w32 r 0x24
  let m0 := lnMode0 r
  decide (u16 r 0 ≤ 31) && decide (u8 r 2 < 16) && decide (m0 ≤ 4) && !(m0 == 3 && !innerLane g (u16 r 0))
    && !(m0 == 4 && lnTrkAddr r == 0) && inR 5 1000000 (lnPer r) && decide (lnPhase r < lnPer r)
    && decide (lnTgt r < tgtCount (lnKind r))
    && (sh &&& 0xE0E0E0E0#32) == 0#32
    && decide (1 ≤ i32 r 0x20) && decide (i32 r 0x20 ≤ min (2 ^ fld sh 28 24) 2147483647)
    && decide (i32 r 0x28 ≤ i32 r 0x2C) && decide (i32 r 0x30 ≤ i32 r 0x34) && outOk (lnKind r) (i32 r 0x30) (i32 r 0x34)
    && decide (0 ≤ i32 r 0x38) && inR 1 3600000 (u32 r 0x3C) && decide (lnFeAct r ≤ 2) && zeros r 0x41 3 && zeros r 0x4C 52
    && isValue (lnPvAddr r) && (lnTrkAddr r == 0 || isValue (lnTrkAddr r))
    && (lnSpAddr r == 0 || (isValue (lnSpAddr r) && sameMeta g [lnPvAddr r, lnSpAddr r]))

/-- Two lanes can fall due at one fine tick. -/
def meetLanes (a b : Nat × Nat) : Bool := (((a.2 : Int) - b.2).natAbs) % Nat.gcd a.1 b.1 == 0

/-- The two limits of R352 on the enabled lanes of one engine, as (PER, PHASE): Σ 1.2 / PER ≤ 0.96, and n × 1.2 no more than
the smallest PER of any n lanes that can fall due together. -/
def loadOk (ls : List (Nat × Nat)) : Bool :=
  let prod := ls.foldl (fun a x => a * x.1) 1
  decide (5 * ls.foldl (fun a x => a + prod / x.1) 0 ≤ 4 * prod)
    && ls.sublists.all (fun s => s.length ≤ 1 || !(s.all (fun a => s.all (fun b => meetLanes a b)))
        || s.all (fun a => decide (6 * s.length ≤ 5 * a.1)))

/-- The enabled lanes of CTL engine `e`. -/
def engLanes (g : Image) (e : Nat) : List (Nat × Nat) :=
  ((g.recs 0x0A 1).filter (fun r => recOn r && u16 r 0 / 8 == e)).map (fun r => (lnPer r, lnPhase r))

def genOk (r : Bytes) : Bool :=
  let ty := u8 r 0
  decide (ty ≤ 4) && decide (u8 r 1 ≤ 1) && (if ty = 3 then inR 7 15 (u8 r 2) else u8 r 2 == 0) && zeros r 3 1 && zeros r 0x1C 4
    && (if ty = 4 then u32 r 8 == 0 && inR 10 100000 (u32 r 12) && inR 10 100000 (u32 r 16) && decide (u32 r 12 < u32 r 16)
        else (ty == 0 || inR 1 1000000 (u32 r 8)) && u32 r 12 == 0 && u32 r 16 == 0)
    && inR 1 16384 (u32 r 20) && decide (u32 r 24 < u32 r 20)

/-! ### Alarms (legs 0x0B, 0x0C) -/

def pointOk (g : Image) (r : Bytes) : Bool :=
  let c := u8 r 4 % 16
  let opt := u8 r 4 / 16
  isValue (u16 r 0) && (c != 5 || isValue (u16 r 2)) && inR 1 8 c && (if c = 6 then inR 1 3 opt else if c = 8 then decide (opt ≤ 1) else opt == 0)
    && inR 1 3 (u8 r 5) && decide (u16 r 6 < 32) && !((c == 5 || c == 6) && decide (i32 r 8 ≤ 0))
    && (c == 7 || decide (0 ≤ i32 r 12)) && (c != 8 || i32 r 12 == 0) && (c == 5 || u16 r 2 == 0)
    && zeros r 0x15 1 && zeros r 0x18 8 && (c != 5 || sameMeta g [u16 r 0, u16 r 2])

def globalsOk (r : Bytes) : Bool :=
  let p := u16 r 4
  inR 10 3600 (u16 r 0) && inR 10 3600 (u16 r 2) && inR 60 7200 p && inR 10 (p - 10) (u16 r 6)
    && (u16 r 8 == 0 || inR 60 3600 (u16 r 8)) && (decide (u8 r 10 ≤ 15) || u8 r 10 == 0xFF) && zeros r 11 21

def groupOk (r : Bytes) : Bool :=
  decide (u8 r 0 ≤ 4) && zeros r 1 1 && (if u8 r 0 = 0 then u16 r 2 == 0 else isValue (u16 r 2)) && zeros r 12 4

def diOrNone (x : Nat) : Bool := decide (x ≤ 47) || x == 0xFF

/-- Watch station (R394); `before`: the station records before it. -/
def stationOk (before : List Bytes) (r : Bytes) : Bool :=
  match u8 r 0 with
  | 0 => zeros r 1 31
  | k => decide (k ≤ 4)
      && (if k = 1 then decide (u8 r 1 ≤ 15) && !(before.any (fun q => u8 q 0 == 1 && u8 q 1 == u8 r 1)) else u8 r 1 == 0xFF)
      && diOrNone (u8 r 2) && (if k = 3 then diOrNone (u8 r 3) else u8 r 3 == 0xFF) && decide (u8 r 4 < 4) && zeros r 5 3
      && zeros r 0x18 8

/-! ### Sequencer (leg 0x0D) -/

/-- SEQ of step `s`; `none` where it lies past COUNT. -/
def stepSeq (g : Image) (s : Nat) : Option Nat := (g.dense 0x0D 2 s).map (fun r => u8 r 0)

/-- A step code names a step of sequence `q` or one that is unused (which step 15 refuses). -/
def ownStep (g : Image) (q s : Nat) : Bool :=
  decide (s ≤ 1023) && (match stepSeq g s with | some x => x == q || x == 0xFF | none => true)

/-- A target code (R409). -/
def targetOk (g : Image) (q s : Nat) : Bool := s == 0xFFFE || s == 0xFFFF || ownStep g q s

/-- A condition at offset `o` (R416). -/
def condOk (r : Bytes) (o : Nat) : Bool :=
  let k := u8 r o % 16
  let c := u8 r (o + 1)
  decide (k ≤ 11) && u8 r o / 16 % 8 == 0
    && (match k with | 6 => decide (c ≤ 3) | 8 => decide (c ≤ 7) | 9 => decide (c ≤ 7) | 11 => decide (c ≤ 7) | _ => true)

/-- An action at offset `o` (R413). -/
def actOk (r : Bytes) (o : Nat) : Bool :=
  let tgt := u8 r (o + 1)
  let arg := u16 r (o + 2)
  let v := u32 r (o + 4)
  match u8 r o with
  | 1 => decide (tgt ≤ 31) && arg == 0
  | 2 => decide (tgt ≤ 31) && arg == 0
  | 3 => decide (tgt ≤ 31) && arg == 0 && decide (v ≤ 4)
  | 4 => decide (tgt ≤ 31) && arg == 0 && decide (v ≤ 1)
  | 5 => decide (tgt ≤ 15) && arg == 0
  | 6 => decide (tgt ≤ 7) && arg == 0
  | 7 => decide (tgt ≤ 15) && decide (arg ≤ 15) && inR 1 16777215 v
  | 8 => decide (tgt ≤ 3) && arg == 0
  | 9 => (tgt == 1 || tgt == 7 || tgt == 8) && decide (arg ≤ 4095) && v == 0
  | 10 => tgt == 0 && isValue arg && v == 0
  | 11 => decide (tgt ≤ 7) && isValue arg && v == 0
  | 12 => decide (tgt ≤ 31) && decide (arg < 8192) && arg / 64 % 4 == 0
  | _ => false

/-- A transition at offset `o` of a step of sequence `q` (R417). -/
def transOk (g : Image) (q : Nat) (r : Bytes) (o : Nat) : Bool :=
  let j := u8 r (o + 2)
  targetOk g q (u16 r o) && decide (j ≤ 2) && zeros r (o + 3) 1 && condOk r (o + 4)
    && (if j = 0 then zeros r (o + 12) 8 else condOk r (o + 12))

def seqRecOk (g : Image) (s : Nat) (r : Bytes) : Bool :=
  decide (u8 r 2 < 8) && zeros r 3 1
    && (!recBit r 2 0 || (ownStep g s (u16 r 0) && condOk r 4 && (u16 r 12 == 0xFFFF || ownStep g s (u16 r 12))
        && (u16 r 14 == 0xFFFF || ownStep g s (u16 r 14))))

def stepOk (g : Image) (r : Bytes) : Bool :=
  let q := u8 r 0
  if q = 0xFF then zeros r 1 63
  else
    let na := stNact r
    let nt := stNtr r
    decide (q ≤ 7) && decide (u8 r 1 < 32) && decide (na ≤ 2) && decide (nt ≤ 2) && zeros r 6 2
      && (List.range na).all (fun a => actOk r (8 + 8 * a)) && zeros r (8 + 8 * na) (8 * (2 - na))
      && (List.range nt).all (fun t => transOk g q r (24 + 20 * t)) && zeros r (24 + 20 * nt) (20 * (2 - nt))
      && (if u16 r 2 = 0 ∧ nt ≠ 0 then u16 r 4 == 0xFFFF else targetOk g q (u16 r 4))

/-- A step record that is a link step (R407). -/
def linkRec (r : Bytes) : Bool := u8 r 0 != 0xFF && stNtr r == 0 && u16 r 2 == 0

/-- Length of the chain of link steps from step `s`, followed at most `fuel` steps (R420). -/
def linkChain (g : Image) : Nat → Nat → Nat
  | 0, _ => 0
  | fuel + 1, s => match g.dense 0x0D 2 s with
    | some r => if linkRec r then linkChain g fuel (u16 r 4) + 1 else 0
    | none => 0

/-! ### Display (leg 0x0E) -/

def panelRec (g : Image) : Bytes := (g.dense 0x0E 1 0).getD []

/-- Panel parameters (R442, R425, R429). -/
def panelOk (g : Image) (r : Bytes) : Bool :=
  let cls := u8 r 0
  let w := u16 r 2
  let h := u16 r 4
  let tabs := (g.recs 0x0E 2).length
  let rows := (g.recs 0x0E 3).length
  (cls == 1 || cls == 2) && (if cls = 2 then decide (u8 r 1 ≤ 2) else u8 r 1 == 0) && w % 8 == 0 && inR 8 1600 w && inR 1 1200 h
    && inR 25 120 (u8 r 6) && decide (w * h * u8 r 6 ≤ 200000000) && decide (u8 r 7 ≤ 7)
    && (hitAt (u16 r 8) 0x2000 0x40 64 [0]).isSome
    && (match g.resMeta (u16 r 8) with | some m => unitTemp m.2 | none => true)
    && decide (u16 r 10 ≤ 1023) && decide (0 ≤ i32 r 12)
    && (List.range 6).all (fun i => decide (i32 r (16 + 4 * i) < i32 r (20 + 4 * i)))
    && (if cls = 2 then inR 1 20 (u8 r 0x2C) else u8 r 0x2C == 0) && zeros r 0x2D 3 && (cls == 2 || zeros r 0x30 16)
    && (tabs == 32 || (cls == 2 && tabs == 0)) && (rows == 0 || rows == h)

/-- No code 3 in a table of an EP panel (R425). -/
def waveOk (g : Image) (r : Bytes) : Bool :=
  u8 (panelRec g) 0 != 1 || r.all (fun b => (List.range 4).all (fun k => b.toNat / 4 ^ k % 4 != 3))

def regionOn (r : Bytes) : Bool := recBit r 8 0

/-- Two rectangles share a pixel. -/
def overlap (a b : Bytes) : Bool :=
  decide (u16 a 0 < u16 b 0 + u16 b 4) && decide (u16 b 0 < u16 a 0 + u16 a 4)
    && decide (u16 a 2 < u16 b 2 + u16 b 6) && decide (u16 b 2 < u16 a 2 + u16 a 6)

/-- Region `i` (R430). -/
def regionOk (g : Image) (i : Nat) (r : Bytes) : Bool :=
  let p := panelRec g
  u16 r 0 % 8 == 0 && u16 r 4 % 8 == 0 && decide (8 ≤ u16 r 4) && decide (u16 r 0 + u16 r 4 ≤ u16 p 2) && decide (1 ≤ u16 r 6)
    && decide (u16 r 2 + u16 r 6 ≤ u16 p 4) && decide (u8 r 8 < 16) && !(recBit r 8 1 && decide (4 ≤ i))
    && !(recBit r 8 1 && u8 r 8 / 4 != 2) && u8 r 9 != 1 && decide (u16 r 10 ≤ 6000) && decide (u8 r 12 < 16) && zeros r 13 19
    && !(regionOn r && (List.range i).any (fun j => match g.dense 0x0E 4 j with
        | some q => regionOn q && overlap q r
        | none => false))

/-- Content item (R436); `before`: the items before it. Its place is taken within its region. -/
def itemOk (g : Image) (before : List Bytes) (r : Bytes) : Bool :=
  let rg := u8 r 0
  let k := u8 r 1
  inR 1 6 k && decide (u8 r 10 ≤ 3)
    && (if rg = 0xFF then k == 1 && !(before.any (fun q => u8 q 0 == 0xFF && u16 q 14 == u16 r 14))
        else match g.dense 0x0E 4 rg with
          | some q => decide (u16 r 2 + u16 r 6 ≤ u16 q 4) && decide (u16 r 4 + u16 r 8 ≤ u16 q 6)
          | none => false)
    && (k != 6 || decide (u32 r 16 ≤ 1)) && ((k != 2 && k != 3) || isValue (u16 r 12))

/-! ### Fixed payloads, network, recorder (legs 0x01, 0x02, 0x0F to 0x13) -/

def idLegOk (b : Bytes) : Bool := inR 1 9999 (u16 b 0x28) && decide (u16 b 0x2A ≤ 1) && zeros b 0x2C 4

def planLegOk (b : Bytes) : Bool :=
  let p := u16 b 0
  Nat.land p 0x0C2F == 0x0C2F && decide (p < 4096) && zeros b 2 6

def dupLegOk (b : Bytes) : Bool :=
  decide (u8 b 0 ≤ 1) && (decide (u8 b 1 ≤ 1) || u8 b 1 == 0xFF) && decide (u8 b 2 ≤ 2) && !(u8 b 1 == 0xFF && u8 b 2 != 0)
    && decide (u8 b 3 < 8) && decide (u32 b 4 ≤ 86399) && inR 500 10000 (u16 b 8) && inR 10 3600 (u16 b 10) && decide (1 ≤ u8 b 12)
    && zeros b 13 19

/-- An identity of R142. -/
def idUsed (x : Nat) : Bool := decide (x ≤ 5) || inR 8 23 x

/-- Binding of channel `c` (R144). -/
def bindOk (g : Image) (b : Bytes) (c : Nat) : Bool :=
  let s := u8 b (4 * c)
  let v := u8 b (4 * c + 1)
  let roles := g.body 0x03
  if recBit b (4 * c + 2) 0 then
    u8 b (4 * c + 2) == 1 && u8 b (4 * c + 3) == 0 && idUsed s && idUsed v && s != v
      && !(decide (8 ≤ s) && u8 roles (s - 8) / 16 == 0xE) && !(decide (8 ≤ v) && u8 roles (v - 8) / 16 == 0xE)
  else zeros b (4 * c) 4

def timeLegOk (b : Bytes) : Bool :=
  let o := i8 b 1
  decide (u8 b 0 ≤ 1) && inRI (-56) 56 o && decide (u8 b 2 ≤ 1) && inRI (-56) 56 (o + 4 * u8 b 2) && decide (u8 b 3 < 16)
    && w32 b 4 == clkAlmMask (w32 b 4) && decide (fld (w32 b 4) 16 0 ≤ 86399)
    && inR 10 3600 (u16 b 8) && inR 10 3600 (u16 b 10) && zeros b 12 4

def capital (x : Nat) : Bool := inR 0x41 0x5A x
def asciiDigit (x : Nat) : Bool := inR 0x30 0x39 x

/-- Port settings (R519). -/
def netRecOk (r : Bytes) : Bool :=
  let gw (ip pfx gwy : Nat) : Bool := gwy == 0 || gwy / 2 ^ (32 - pfx) == ip / 2 ^ (32 - pfx)
  inR 8 30 (u8 r 8) && inR 8 30 (u8 r 9) && decide (u8 r 10 < 8) && decide (u8 r 11 < 8)
    && gw (u32 r 0) (u8 r 8) (u32 r 12) && gw (u32 r 4) (u8 r 9) (u32 r 16) && u32 r 0x14 / 2 ^ 24 == 239
    && decide (1024 ≤ u16 r 0x18) && capital (u8 r 0x1A) && capital (u8 r 0x1B) && capital (u8 r 0x1C) && capital (u8 r 0x1D)
    && (List.range 4).all (fun i => asciiDigit (u8 r (0x1E + i)))
    && (List.range 2).all (fun p => u8 r (0x22 + p) / 32 % 4 == 0
        && (decide (u8 r (0x24 + 2 * p) ≤ 3) || u8 r (0x24 + 2 * p) == 0xFF) && decide (u8 r (0x25 + 2 * p) ≤ 4)
        && !bitOf (w32 r (0x28 + 4 * p)) 29
        && !bitOf (w32 r (0x30 + 8 * p)) 31 && !bitOf (w32 r (0x30 + 8 * p)) 29 && decide (u32 r (0x34 + 8 * p) < 2 ^ 29))

/-- CAN signal import (R515). -/
def importOk (r : Bytes) : Bool :=
  let lay := w32 r 6
  decide (u16 r 0 ≤ 127) && !bitOf (w32 r 2) 29 && fld lay 31 26 == 0 && inRI (-6) 3 (sgn 4 (fld lay 24 21)) && i16 r 10 != 0
    && decide (1 ≤ u8 r 14) && decide (u8 r 15 ≤ 0x1B)
    && (fieldBits (fld lay 8 0) (fld lay 14 9 + 1) (bitOf lay 15)).all (fun b => decide (b < 512))

/-- Channels of a count class (R492). -/
def countChans : Nat → Nat
  | 1 => 32 | 2 => 16 | 3 => 16 | 4 => 32 | 5 => 48 | _ => 0

/-- Recorder plan item (R499). -/
def planOk (r : Bytes) : Bool :=
  let k := u8 r 0
  decide (k ≤ 3) && (k != 3 || u8 r 1 == 0) && ((k != 1 && k != 3) || isValue (u16 r 2))
    && (if k = 1 then decide (i32 r 4 < i32 r 8) && inR 1 60000 (u16 r 12) else u32 r 4 == 0 && u32 r 8 == 0)
    && (if k = 2 then decide (u8 r 2 < countChans (u8 r 3)) && u16 r 12 == 0 else true)
    && (if k = 3 then inR 10 60000 (u16 r 12) && decide (u8 r 14 < 8) else u8 r 14 == 0) && zeros r 15 1

/-! ### Step 13 over a leg -/

/-- The record rules of a sectioned leg. -/
def recOk (g : Image) (typ : Nat) (it : Item) : Bool :=
  let before (t s : Nat) : List Bytes := (g.recs t s).take it.idx
  match typ, it.sid with
  | 0x04, _ => chanRecOk g it.r
  | 0x05, 1 => tblOk it.r
  | 0x05, _ => volOk it.r
  | 0x06, 1 => true
  | 0x06, 2 => pairOk g it.r
  | 0x06, _ => triadOk g it.r
  | 0x07, _ => termOk g it.r
  | 0x08, _ => profOk it.r
  | 0x09, _ => cmpOk g it.r && decide (cmpShare g (u16 it.r 0) it.r ≤ 32)
  | 0x0A, 1 => laneOk g it.r
  | 0x0A, _ => genOk it.r
  | 0x0B, _ => pointOk g it.r
  | 0x0C, 1 => globalsOk it.r
  | 0x0C, 2 => groupOk it.r
  | 0x0C, _ => stationOk (before 0x0C 3) it.r
  | 0x0D, 1 => seqRecOk g it.idx it.r
  | 0x0D, _ => stepOk g it.r && decide (linkChain g 17 it.idx ≤ 16)
  | 0x0E, 1 => panelOk g it.r
  | 0x0E, 2 => waveOk g it.r
  | 0x0E, 3 => true
  | 0x0E, 4 => regionOk g it.idx it.r
  | 0x0E, _ => itemOk g (before 0x0E 5) it.r
  | 0x11, 1 => netRecOk it.r
  | 0x11, _ => importOk it.r
  | 0x12, _ => planOk it.r
  | _, _ => true

/-- A fixed payload keeps its rules. -/
def fixedOk (typ : Nat) (b : Bytes) : Bool :=
  match typ with
  | 0x01 => idLegOk b
  | 0x02 => planLegOk b
  | 0x0F => dupLegOk b
  | 0x13 => timeLegOk b
  | _ => true

/-- Legs whose GEN may be other than 0 (R56, R77). -/
def legLive (l : Leg) : Bool := inR 0x0A 0x0D l.typ || (l.typ == 0x0E && l.ver == 2)

/-- A rule on a whole leg (R352; R442 on section 1 of an image's display leg). -/
def wholeOk (g : Image) (l : Leg) : Bool :=
  match l.typ with
  | 0x0A => (List.range 4).all (fun e => loadOk (engLanes g e))
  | 0x0E => (g.recs 0x0E 1).length == 1
  | _ => true

/-- Step 13 on one leg, `g` holding it: the code and the offset of its first failure. -/
def rangeLeg (g : Image) (l : Leg) : Option RmFail :=
  if l.typ = 0x10 then
    if !l.resOk || l.gen != 0 then some ⟨0x0F, l.typ, l.ofs⟩
    else ((List.range 32).find? (fun c => !bindOk g l.body c)).map (fun c => ⟨0x0F, l.typ, l.ofs + 16 + 4 * c⟩)
  else if !l.resOk || (l.gen != 0 && !legLive l) || !fixedOk l.typ l.body then some ⟨0x0C, l.typ, l.ofs⟩
  else match sectRes (l.ofs + 16) l.sects with
    | some o => some ⟨0x0C, l.typ, o⟩
    | none => match l.items.find? (fun it => !recOk g l.typ it) with
      | some it => some ⟨0x0C, l.typ, it.ofs⟩
      | none => if wholeOk g l then none else some ⟨0x0C, l.typ, l.ofs⟩

/-! ### Steps 11, 12, 14 -/

/-- Step 12: the sections of every sectioned leg. -/
def fillSects : List Leg → Except RmFail (List Leg)
  | [] => .ok []
  | l :: rest =>
    match (if (sectSpec l.typ).isEmpty then .ok [] else parseSects (sectSpec l.typ) l.body (l.ofs + 16)) with
    | .error o => .error ⟨0x0B, l.typ, o⟩
    | .ok ss => match fillSects rest with
      | .error e => .error e
      | .ok ls => .ok ({ l with sects := ss } :: ls)

/-- Engines that a role needs (R18). -/
def roleNeed : List (Nat × Nat) := [(1, 2), (2, 2), (3, 4), (4, 2), (5, 1), (6, 1), (7, 1), (8, 1), (0xE, 2)]

/-- Step 14: the engine roles leg (R63). -/
def rolesOk (b : Bytes) : Bool :=
  b.length == 16 && b.all (fun x => roleNeed.any (fun r => r.1 == x.toNat / 16))
    && roleNeed.all (fun r => (List.range r.2).all (fun i =>
        (b.filter (fun x => x.toNat == r.1 * 16 + i)).length == 1)
        && (b.filter (fun x => x.toNat / 16 == r.1)).length == r.2)

end Sys2Proof.Machine
end

