-- ==== Sys2Proof/Machine/VerifyRefs.lean ====
section
/-! DEFINITION. The VERIFY phase, steps 15 and 16, and its drivers for a whole image (R68) and for a live submission (R78):
references (R69, R174, R176, R170, R214, R222, R228, R236, R245, R248, R259, R270, R278, R280, R293, R308, R322, R346, R362,
R370, R376, R380, R390, R394, R420, R436, R499), the binding lock (R80). -/

namespace Sys2Proof.Machine
open Sys2Proof

/-- Island `i` is powered by the island plan (R62). -/
def pwrOf (g : Image) (i : Nat) : Bool := (u16 (g.body 0x02) 0).testBit i

def usedRes (g : Image) (a : Nat) : Bool := (g.resMeta a).isSome

/-- The channel is present and enabled. -/
def usedCh (g : Image) (kind i : Nat) : Bool := (g.chanOn kind i).isSome

def usedTbl (g : Image) (t : Nat) : Bool := (g.keyed 0x05 1 t).isSome

/-- The profile is present in the bank of SVn (R308, R310). -/
def usedProf (g : Image) (sv p : Nat) : Bool := (g.keyed 0x08 1 (sv / 2 * 16 + p)).isSome

/-- Lane `k` is used and its target is channel `tgt` of kind `tk` (R270, R370). -/
def laneNames (g : Image) (k tk tgt : Nat) : Bool :=
  match g.laneOn k with
  | some r => lnKind r == tk && lnTgt r == tgt
  | none => false

/-- Point `i` is used (R379). -/
def usedPoint (g : Image) (i : Nat) : Bool :=
  match g.dense 0x0B 1 i with
  | some r => recBit r 6 0
  | none => false

/-- Group `i` is used (R390). -/
def usedGroup (g : Image) (i : Nat) : Bool := decide (i < max 1 (g.recs 0x0C 2).length)

/-- Station `s` is used (R394). -/
def usedStation (g : Image) (s : Nat) : Bool :=
  match g.dense 0x0C 3 s with
  | some r => u8 r 0 != 0
  | none => false

/-- Step `s` is used (R419). -/
def usedStep (g : Image) (s : Nat) : Bool :=
  match stepSeq g s with
  | some x => x != 0xFF
  | none => false

/-- Sequence `s` has a record (R418). -/
def usedSeq (g : Image) (s : Nat) : Bool := (g.dense 0x0D 1 s).isSome

/-! ### Channel plan -/

def uiRefs (g : Image) (i : Nat) (r : Bytes) : Bool :=
  let cjm := u8 r 15 / 64
  (uiEx r == 0xFF || usedCh g 2 (uiEx r)) && (decide (uiCurve r < 32) || usedTbl g (uiCurve r))
    && (if uiMode r = 3 ∧ cjm = 0 then usedCh g 3 (i / 8)
        else if uiMode r = 3 ∧ cjm = 2 then (match g.recMeta 1 (u8 r 15 % 64) with | some m => unitTemp m.2 | none => false)
        else true)

/-- A position interface fit for crank-angle triggers (R222). -/
def crankPf (g : Image) (p : Nat) : Bool :=
  match g.chanOn 0x0D p with
  | some r => decide (0 < u32 r 12) && ((u8 r 8 == 1 || u8 r 8 == 3) && recBit r 9 1)
  | none => false

def caRefs (g : Image) (r : Bytes) : Bool :=
  pwrOf g 4 && (caMode r != 2 ||
    (crankPf g (caPf r) && (g.keyed 0x05 2 (u8 r 14)).isSome
      && (!ca720 r || usedCh g 0x0E (u8 r 15))
      && (match g.resMeta (u16 r 16) with | some m => m.2 == 6 || m.2 == 7 | none => false)))

def loRefs (g : Image) (i : Nat) (r : Bytes) : Bool :=
  (match loSrc r with | 1 => laneNames g (loSrcAddr r) 1 i | 2 => usedRes g (loSrcAddr r) | _ => true)
    && (loChar r != 2 || usedTbl g (loLowcut r))

def poRefs (g : Image) (i : Nat) (r : Bytes) : Bool :=
  match poSrc r with | 1 => laneNames g (poSrcAddr r) 4 i | 2 => usedRes g (poSrcAddr r) | _ => true

def doRefs (g : Image) (i : Nat) (r : Bytes) : Bool :=
  match doSrc r with | 1 => laneNames g (doSrcIdx r) 3 i | 2 => usedStation g (doSrcIdx r % 16) | _ => true

def svRefs (g : Image) (i : Nat) (r : Bytes) : Bool :=
  usedProf g i (u8 r 10) && (u8 r 9 != 1 || laneNames g (u16 r 16) 2 i) && (!recOn r || usedCh g 0x0C (i / 2))

/-- References of a channel record (R69). -/
def chanRefs (g : Image) (r : Bytes) : Bool :=
  let i := u8 r 0
  match u8 r 1 with
  | 1 => uiRefs g i r
  | 4 => caRefs g r
  | 5 => loRefs g i r
  | 6 => if i < 16 then usedCh g 5 i else usedCh g 1 (i - 16)
  | 7 => usedCh g 6 (hvMaster r)
  | 10 => doRefs g i r
  | 11 => svRefs g i r
  | 13 => pwrOf g 6
  | 14 => diSs r == 0xFF || usedCh g 9 (diSs r)
  | 15 => poRefs g i r
  | _ => true

/-! ### Other legs -/

/-- References of an interlock term (R288, R293). -/
def termRefs (g : Image) (r : Bytes) : Bool :=
  (ilLits r).all (fun l =>
      if l / 64 % 2 = 1 then (match g.keyed 0x07 1 (l % 64) with | some t => u8 t 18 / 64 != 0 | none => false)
      else usedCh g 0x0E (l % 64))
    && (List.range 32).all (fun k => !bitOf (ilDoMask r) k || usedCh g 0x0A k)
    && (List.range 16).all (fun k => !(ilSvMask r).testBit k || usedCh g 0x0B k)
    && (match ilSrc r with | 1 => usedCh g 1 (ilCh r) | 2 => usedCh g 4 (ilCh r) | _ => true)

/-- A WAITP names a used PF (R308). -/
def profRefs (g : Image) (r : Bytes) : Bool :=
  (List.range (u8 r 2)).all (fun a =>
    let w := w32 r (8 + 4 * a)
    fld w 31 27 != 5 || usedCh g 0x0D (fld w 26 24))

/-- References of a compare entry (R343, R346). -/
def cmpRefs (g : Image) (r : Bytes) : Bool :=
  let tgt := u8 r 8
  (match g.chanOn 0x0D (u8 r 2 % 8) with | some p => !recBit r 2 4 || pfAngleOk p | none => false)
    && (match u8 r 3 % 16 with
      | 1 => (match g.chanOn 0x0A tgt with | some d => doSrc d == 3 | none => false)
      | 2 => (match g.chanOn 0x0F tgt with | some d => poMode d == 3 | none => false)
      | 6 => usedCh g 0x0B tgt && usedProf g tgt (u16 r 10)
      | 7 => usedCh g 1 tgt
      | 8 => true
      | _ => usedCh g 4 tgt)

/-- Following the setpoint targets from lane `k` for at most `fuel` lanes leads to lane `dst`. -/
def laneReach (g : Image) (dst : Nat) : Nat → Nat → Bool
  | 0, _ => false
  | fuel + 1, k => k == dst || (match g.keyed 0x0A 1 k with
    | some r => lnKind r == 5 && laneReach g dst fuel (lnTgt r)
    | none => false)

/-- References of a lane, with the rules of R362 and R370. -/
def laneRefs (g : Image) (r : Bytes) : Bool :=
  let k := u16 r 0
  let t := lnTgt r
  usedRes g (lnPvAddr r) && (lnSpAddr r == 0 || usedRes g (lnSpAddr r)) && (lnTrkAddr r == 0 || usedRes g (lnTrkAddr r))
    && (lnKind r == 0 || !((g.recs 0x0A 1).any (fun q => decide (u16 q 0 < k) && lnKind q == lnKind r && lnTgt q == t)))
    && (match lnKind r with
      | 1 => (match g.chanOn 5 t with | some c => loSrc c == 1 && loSrcAddr c == k | none => false)
      | 2 => (match g.chanOn 0x0B t with | some c => u8 c 9 == 1 && u16 c 16 == k | none => false)
      | 3 => (match g.chanOn 0x0A t with | some c => doSrc c == 1 && doSrcIdx c == k | none => false)
      | 4 => (match g.chanOn 0x0F t with | some c => poSrc c == 1 && poSrcAddr c == k | none => false)
      | 5 => (g.laneOn t).isSome && !laneReach g k 33 t
      | _ => true)

/-- References of an alarm point (R380). -/
def pointRefs (g : Image) (r : Bytes) : Bool :=
  usedRes g (u16 r 0) && usedGroup g (u8 r 0x14)
    && (u8 r 4 % 16 != 5 || (u16 r 2 != 0 && u16 r 2 != u16 r 0 && usedRes g (u16 r 2)))

def stationRefs (g : Image) (r : Bytes) : Bool :=
  u8 r 0 == 0 || ((u8 r 2 == 0xFF || usedCh g 0x0E (u8 r 2)) && (u8 r 3 == 0xFF || usedCh g 0x0E (u8 r 3)))

/-- References of a condition at offset `o` (R416). -/
def condRefs (g : Image) (r : Bytes) (o : Nat) : Bool :=
  match u8 r o % 16 with
  | 1 => usedRes g (u16 r (o + 2))
  | 2 => usedRes g (u16 r (o + 2))
  | 3 => usedRes g (u16 r (o + 2))
  | 4 => usedRes g (u16 r (o + 2))
  | 5 => usedPoint g (u16 r (o + 2))
  | 10 => usedRes g (u16 r (o + 2)) && usedRes g (u16 r (o + 4))
  | 11 => usedSeq g (u8 r (o + 1))
  | _ => true

/-- References of an action at offset `o` (R413, R420). -/
def actRefs (g : Image) (r : Bytes) (o : Nat) : Bool :=
  let t := u8 r (o + 1)
  let arg := u16 r (o + 2)
  match u8 r o with
  | 4 => (match g.chanOn 0x0A t with | some c => doSrc c == 0 | none => false)
  | 5 => (match g.chanOn 5 t with | some c => loSrc c == 0 | none => false)
  | 6 => (match g.chanOn 0x0F t with | some c => poSrc c == 0 | none => false)
  | 7 => usedCh g 0x0B t && usedProf g t arg
  | 8 => true
  | 9 => usedPoint g arg
  | 10 => usedRes g arg
  | 11 => usedRes g arg
  | _ => (g.laneOn t).isSome

/-- A target code names a used step, or HOLD or END. -/
def targetRefs (g : Image) (s : Nat) : Bool := s == 0xFFFE || s == 0xFFFF || usedStep g s

def stepRefs (g : Image) (r : Bytes) : Bool :=
  u8 r 0 == 0xFF ||
    (usedSeq g (u8 r 0) && (List.range (stNact r)).all (fun a => actRefs g r (8 + 8 * a))
      && (List.range (stNtr r)).all (fun t =>
          let o := 24 + 20 * t
          targetRefs g (u16 r o) && condRefs g r (o + 4) && (u8 r (o + 2) == 0 || condRefs g r (o + 12)))
      && targetRefs g (u16 r 4))

/-- References of a sequence; those of a disabled one are not checked (R418). -/
def seqRefs (g : Image) (r : Bytes) : Bool :=
  !recBit r 2 0 || (usedStep g (u16 r 0) && condRefs g r 4 && (u16 r 12 == 0xFFFF || usedStep g (u16 r 12))
    && (u16 r 14 == 0xFFFF || usedStep g (u16 r 14)))

/-- Channel kind of a count class (R492). -/
def countKind : Nat → Nat
  | 1 => 0x0A | 4 => 0x0A | 5 => 0x0E | _ => 0x0B

def planRefs (g : Image) (r : Bytes) : Bool :=
  match u8 r 0 with
  | 0 => true
  | 2 => usedCh g (countKind (u8 r 3)) (u8 r 2)
  | _ => usedRes g (u16 r 2)

/-- References of a record. -/
def recRefs (g : Image) (typ : Nat) (it : Item) : Bool :=
  match typ, it.sid with
  | 0x04, _ => chanRefs g it.r
  | 0x05, 2 => pwrOf g 4
  | 0x06, 2 => usedRes g (u16 it.r 2) && usedRes g (u16 it.r 4)
  | 0x06, 3 => usedRes g (u16 it.r 2) && usedRes g (u16 it.r 4) && usedRes g (u16 it.r 6)
  | 0x07, _ => termRefs g it.r
  | 0x08, _ => profRefs g it.r
  | 0x09, _ => cmpRefs g it.r
  | 0x0A, 1 => laneRefs g it.r
  | 0x0B, _ => pointRefs g it.r
  | 0x0C, 2 => u8 it.r 0 == 0 || usedRes g (u16 it.r 2)
  | 0x0C, 3 => stationRefs g it.r
  | 0x0D, 1 => seqRefs g it.r
  | 0x0D, _ => stepRefs g it.r
  | 0x0E, 1 => usedRes g (u16 it.r 8)
  | 0x0E, 5 => (match u8 it.r 1 with
      | 2 => usedRes g (u16 it.r 12)
      | 3 => usedRes g (u16 it.r 12)
      | 5 => usedPoint g (u16 it.r 12)
      | _ => true)
  | 0x12, _ => planRefs g it.r
  | _, _ => true

/-- The island that a whole leg needs is powered (R69). -/
def legPwr (g : Image) (l : Leg) : Bool :=
  match l.typ with
  | 0x09 => pwrOf g 6
  | 0x0E => pwrOf g 9
  | 0x0F => u8 l.body 0 == 0 || pwrOf g 8
  | 0x11 => pwrOf g 7
  | _ => true

/-- Step 15 on one leg. -/
def refsLeg (g : Image) (l : Leg) : Option RmFail :=
  if !legPwr g l then some ⟨0x0E, l.typ, l.ofs⟩
  else (l.items.find? (fun it => !recRefs g l.typ it)).map (fun it => ⟨0x0E, l.typ, it.ofs⟩)

/-- The first failure of a check over legs in file order. -/
def firstFail (f : Leg → Option RmFail) : List Leg → Option RmFail
  | [] => none
  | l :: rest => (f l).or (firstFail f rest)

/-- The binding table an image carries: an absent leg counts as all channels unbound (R80). -/
def bindTable (g : Image) : Bytes :=
  match g.leg 0x10 with
  | some l => l.body
  | none => List.replicate 128 0#8

/-- Step 16. -/
def bindFail (lock : Option Bytes) (g : Image) : Option RmFail :=
  match lock with
  | none => none
  | some t => if bindTable g = t then none else some ⟨0x0F, 0x10, match g.leg 0x10 with | some l => l.ofs | none => 0⟩

/-- The VERIFY phase (R68 steps 11 to 16) on an image whose LOAD phase passed: the image with its sections, or the failure. -/
def verifyImage (lock : Option Bytes) (g : Image) : Except RmFail Image :=
  match [0x01, 0x02, 0x03, 0x04].find? (fun t => (g.leg t).isNone) with
  | some t => .error ⟨0x0A, t, 0⟩
  | none => match fillSects g.legs with
    | .error e => .error e
    | .ok ls =>
      let g' : Image := { g with legs := ls }
      if !g'.resOk then .error ⟨0x0C, 0, 0⟩
      else match firstFail (rangeLeg g') ls with
        | some e => .error e
        | none => if !rolesOk (g'.body 0x03) then .error ⟨0x0D, 3, match g'.leg 0x03 with | some l => l.ofs | none => 0⟩
          else match firstFail (refsLeg g') ls with
            | some e => .error e
            | none => match bindFail lock g' with
              | some e => .error e
              | none => .ok g'

/-- The whole of R68 on the bytes of a source, where they could be read: image or failure. -/
def checkImage (lock : Option Bytes) (bs : Bytes) : Except RmFail Image :=
  match loadImage bs with
  | .error e => .error e
  | .ok g => verifyImage lock g

/-! ### Live submissions (R77, R78) -/

/-- Place of a live leg in LIVE_GEN0 to LIVE_GEN4. -/
def liveIdx (typ : Nat) : Nat := typ - 0x0A

/-- The leg type may be submitted: the display leg only where the running one has version 2 (R67, R77). -/
def liveAllowed (g : Image) (typ : Nat) : Bool :=
  inR 0x0A 0x0D typ || (typ == 0x0E && (match g.leg 0x0E with | some l => l.ver == 2 | none => false))

/-- Steps 5 to 8 and the generation check on the leg whose header starts at `ofs`, below `total`. -/
def liveLeg (g : Image) (gens : List Nat) (bs : Bytes) (total prev ofs : Nat) : Except RmFail Leg :=
  let typ := u8 bs ofs
  let ver := u8 bs (ofs + 1)
  let len := u32 bs (ofs + 4)
  if total < ofs + 16 then .error ⟨7, typ, ofs⟩
  else if !liveAllowed g typ || decide (typ ≤ prev) then .error ⟨5, typ, ofs⟩
  else if ver != (if typ = 0x0E then 2 else 1) then .error ⟨6, typ, ofs⟩
  else if len % 4 != 0 || decide (total < ofs + 16 + len + 4) then .error ⟨7, typ, ofs⟩
  else
    let whole := (bs.drop ofs).take (16 + len)
    if crc32 whole != w32 bs (ofs + 16 + len) then .error ⟨8, typ, ofs⟩
    else if u32 bs (ofs + 8) ≤ gens.getD (liveIdx typ) 0 then .error ⟨0x13, typ, ofs⟩
    else .ok { typ := typ, ver := ver, gen := u32 bs (ofs + 8), ofs := ofs, body := whole.drop 16, sects := [],
               resOk := zeros whole 2 2 && zeros whole 12 4 }

/-- The walk over a submission of `total` bytes. -/
def walkLive (g : Image) (gens : List Nat) (bs : Bytes) (total : Nat) : Nat → Nat → Nat → Except RmFail (List Leg)
  | 0, _, _ => .ok []
  | fuel + 1, prev, ofs =>
    if total ≤ ofs then .ok []
    else match liveLeg g gens bs total prev ofs with
      | .error e => .error e
      | .ok l => match walkLive g gens bs total fuel l.typ (ofs + 16 + l.body.length + 4) with
        | .error e => .error e
        | .ok ls => .ok (l :: ls)

/-- The legs of a submission whose headers the walk of R78 reaches, one bit each (LIVE_STAT.LEGS). -/
def liveSeen (bs : Bytes) : Nat → Nat → Nat → Nat
  | 0, _, a => a
  | fuel + 1, ofs, a =>
    if bs.length < ofs + 16 then a
    else
      let typ := u8 bs ofs
      let a1 := if inR 0x0A 0x0E typ && a / 2 ^ liveIdx typ % 2 == 0 then a + 2 ^ liveIdx typ else a
      liveSeen bs fuel (ofs + 16 + u32 bs (ofs + 4) + 4) a1

/-- Sections of a submitted leg; a display leg holds none in sections 1 to 3 (R78). -/
def liveSects (l : Leg) : Except RmFail Leg :=
  match parseSects (sectSpec l.typ) l.body (l.ofs + 16) with
  | .error o => .error ⟨0x0B, l.typ, o⟩
  | .ok ss =>
    if l.typ == 0x0E && ss.any (fun x => decide (x.id ≤ 3) && !x.recs.isEmpty) then .error ⟨0x0B, l.typ, l.ofs + 16⟩
    else .ok { l with sects := ss }

/-- A submitted leg as it stands in the running image: a display leg takes sections 1 to 3 of the running one (R78). -/
def merged (g : Image) (l : Leg) : Leg :=
  if l.typ = 0x0E then
    match g.leg 0x0E with
    | some o => { l with sects := o.sects.filter (fun x => decide (x.id ≤ 3)) ++ l.sects.filter (fun x => decide (4 ≤ x.id)) }
    | none => l
  else l

/-- A leg put into an image in TYPE order. -/
def putLeg (l : Leg) : List Leg → List Leg
  | [] => [l]
  | x :: rest => if l.typ = x.typ then l :: rest else if l.typ < x.typ then l :: x :: rest else x :: putLeg l rest

/-- The running image with the submitted legs in their places. -/
def withLive (g : Image) (ls : List Leg) : Image := { g with legs := ls.foldl (fun acc l => putLeg (merged g l) acc) g.legs }

/-- Steps 12 to 15 for each submitted leg in turn, `gn` the image with them all. -/
def liveFail (gn : Image) : List Leg → Option RmFail
  | [] => none
  | l :: rest => match liveSects l with
    | .error e => some e
    | .ok l' => ((rangeLeg gn l').or (refsLeg gn l')).or (liveFail gn rest)

/-- Sections filled where they parse, for the references between submitted legs. -/
def liveFilled (l : Leg) : Leg :=
  match liveSects l with
  | .ok l' => l'
  | .error _ => l

/-- The check of a live submission (R78): the submitted legs, or the failure. -/
def checkLive (g : Image) (gens : List Nat) (bs : Bytes) : Except RmFail (List Leg) :=
  if bs.isEmpty then .error ⟨0x0A, 0, 0⟩
  else match walkLive g gens bs bs.length 6 0 0 with
    | .error e => .error e
    | .ok ls =>
      let fs := ls.map liveFilled
      match liveFail (withLive g fs) ls with
      | some e => .error e
      | none => .ok fs

end Sys2Proof.Machine
end

