-- ==== Sys2Proof/Machine/Loader.lean ====
section
/-! DEFINITION. The route map loader: phases, banks and fallback (R68 to R72, R80), application of an image (R16, R71, R98),
staging, checking, programming and COMMIT (R73 to R76), live replacement (R77 to R79), the loader's registers (R81). Operations
that touch a byte memory take and give `Mems` beside the node. -/

namespace Sys2Proof.Machine
open Sys2Proof

/-! ### Errors (R70, R71) -/

def srcCode : LoadSrc → Nat
  | .none => 0 | .bankA => 1 | .bankB => 2 | .staging => 3 | .partner => 4

/-- A failure loads RM_ERR and RM_ERR_OFS and raises event 2 (R71). -/
def rmFail (src : Nat) (e : RmFail) (n : Node) : Node :=
  raise 2 { n with ld.err := { src := src, leg := e.leg, code := e.code }, ld.errOfs := e.ofs }

/-- A write that changes nothing but RM_ERR (R73, R74): code KEY 0x15 or STATE 0x14. -/
def rmCode (code : Nat) (n : Node) : Node := { n with ld.err := { src := 6, leg := 0, code := code }, ld.errOfs := 0 }

/-- A command given when it is not allowed (R74). -/
def rmRefuse (n : Node) : Node := raise 2 (rmCode 0x14 n)

/-- Record 0x03 of a load (R495). -/
def loadNote (ok : Bool) (n : Node) : Node := recNote 3 (if ok then 1 else 2) none n

/-! ### Sources (R68 step 3, R70, R72) -/

/-- The bytes of a source as far as its TOTAL_LEN reaches, the header at least. -/
def areaBytes (d : Byte) (m : Memory) : Bytes := memBytes d m 0 (max 64 (min 16777216 (memWord d m 8).toNat))

/-- The first 64 bytes of a bank read 0xFF throughout (R70). -/
def bankBlank (m : Memory) : Bool := (memBytes 0xFF#8 m 0 64).all (fun b => b == 0xFF#8)

def bankMem (m : Mems) (b : Bool) : Memory := if b then m.flashB else m.flashA

def setBankMem (m : Mems) (b : Bool) (x : Memory) : Mems := if b then { m with flashB := x } else { m with flashA := x }

def setBankInfo (b : Bool) (x : BankInfo) (n : Node) : Node := if b then { n with ld.bankB := x } else { n with ld.bankA := x }

/-- The LOAD phase over a bank: unreadable flash and an empty bank are failures of their own (R70). -/
def loadBank (m : Memory) (flashErr : Bool) : Except RmFail Image :=
  if flashErr then .error ⟨0x10, 0, 0⟩
  else if bankBlank m then .error ⟨0x11, 0, 0⟩
  else loadImage (areaBytes 0xFF#8 m)

/-- A load from a bank updates its BANK_x_INFO (R81). -/
def bankResult (src : LoadSrc) (r : Except RmFail Image) (n : Node) : Node :=
  let info : BankInfo := match r with
    | .ok g => { state := 1, code := 0, rev := g.mapRev.toNat % 65536 }
    | .error e => { state := if e.code = 0x11 then 2 else 3, code := e.code, rev := 0 }
  match src with
  | .bankA => setBankInfo false info n
  | .bankB => setBankInfo true info n
  | _ => n

/-- The other bank. -/
def otherBank : LoadSrc → LoadSrc
  | .bankA => .bankB
  | _ => .bankA

/-- The source tried next after `src` failed (R72, R76, R448): the preferred bank after a staged or a partner's image, then
the bank that has not failed since, then none; a PREFER written meanwhile changes nothing. -/
def nextSrc (n : Node) (src : LoadSrc) : LoadSrc :=
  if src = .staging ∨ src = .partner then (if n.ld.prefB then LoadSrc.bankB else LoadSrc.bankA)
  else if n.ld.tried.contains (otherBank src) then .none else otherBank src

/-- A phase fails: BOOT, the next source selected; with none left the outputs fall to hardware default (R72, R83, R98). -/
def loadFailed (e : RmFail) (n : Node) : Node :=
  let src := n.ld.sel
  let nx := nextSrc n src
  let n1 := bankResult src (.error e) (loadNote false (rmFail (srcCode src) e n))
  let n2 : Node := { n1 with ld.phase := 6, ld.cand := none, ld.sel := nx, ld.tried := n1.ld.tried ++ [src],
                             ld.stgState := if src = .staging then 4 else n1.ld.stgState,
                             ld.restarting := n1.ld.restarting && nx != .none,
                             ld.img := if nx = .none then none else n1.ld.img }
  enter .boot n2

/-- The LOAD phase ends with `r`: VERIFY is entered, or the phase has failed (R83). -/
def loadEnds (r : Except RmFail Image) (n : Node) : Node :=
  match r with
  | .ok g => enter .verify { n with ld.cand := some g, ld.phase := 3 }
  | .error e => loadFailed e n

/-- ROUTE_MAP_LOAD: the LOAD phase of the selected source completes; `flashErr`: flash could not be read (R68, R72). -/
def routeMapLoad (flashErr : Bool) (m : Mems) (n : Node) : Node :=
  let go (r : Except RmFail Image) : Node := loadEnds r (enter .load { n with ld.phase := 2 })
  if n.dev.st == .boot || (n.dev.st == .load && n.ld.sel != .partner) then
    match n.ld.sel with
    | .bankA => go (loadBank m.flashA flashErr)
    | .bankB => go (loadBank m.flashB flashErr)
    | .staging => if n.dev.st == .load then go (loadImage (areaBytes 0#8 m.staging)) else n
    | _ => n
  else n

/-! ### Application (R16, R71, R80, R98) -/

/-- Islands as the plan powers them; one in FAULT stays so (R16, R17). -/
def planIslands (pwr : Nat) (l : List IslState) : List IslState :=
  l.zipIdx.map (fun (x, i) => if x == .fault then x else if pwr.testBit i then IslState.run else IslState.off)

/-- One failed engine leaves the roles of the leg; its role goes to a spare, one of its island first (R29, R465). -/
def rolesWithout (l : List Byte) (e : Nat) : List Byte :=
  let role := l.getD e 0#8
  let l1 := lset l e (BitVec.ofNat 8 (0xF0 + role.toNat % 16))
  if role.toNat / 16 = 14 then l1
  else
    let sp := (List.range 16).filter (fun k => (l1.getD k 0#8).toNat / 16 == 14)
    match (match sp.find? (fun k => k / 8 == e / 8) with | some k => some k | none => sp.head?) with
    | some s => lset l1 s role
    | none => l1

/-- Roles of an applied image: those of leg 0x03, with the detours of the tables. -/
def mapRoles (n : Node) (g : Image) : List Byte :=
  ((List.range 16).filter (fun e => bitOf (n.dtr.engRun ||| n.dtr.engFuse) e)).foldl rolesWithout (g.body 0x03)

/-- State of every chapter when an image is applied; `was` tells the channels enabled under the image that was running. -/
def applyChapters (restart : Bool) (was : Nat → Bool) (n : Node) : Node :=
  recApply (clkApply (netApply (dspApply (seqApply (almApply restart (lnApply (pfApply (ilApply (digApply was
    (loApply (caApply (calApply (exImage (uiApply n))))))))))))))

/-- A verified image is applied (R71): binding lock, islands, roles, every chapter; CALIBRATE, event 1, a record. -/
def applyImage (g : Image) (n : Node) : Node :=
  let restart := n.ld.restarting
  let was (k : Nat) : Bool := restart && n.chOn 0x0E k
  let src := n.ld.sel
  let pwr := u16 (g.body 0x02) 0
  let n1 := bankResult src (.ok g) n
  let n2 : Node := { n1 with
    ld.img := some g, ld.cand := none, ld.src := srcCode src, ld.phase := 5, ld.diverged := false, ld.restarting := false,
    ld.fallback := (src == .bankA || src == .bankB) && n.ld.tried.contains (otherBank src),
    ld.lock := some (n.ld.lock.getD (bindTable g)), ld.stgState := if src = .staging then 3 else n.ld.stgState,
    ld.tried := [],
    isl.pwr := wd pwr, isl.states := planIslands pwr n.isl.states, isl.roles := mapRoles n g, isl.paused := [],
    jn.store := [], jn.slots := [], jn.seqs := [], mir := {}, ckpt := [] }
  let n3 := restoreDetours (applyChapters restart was n2)
  let n4 := enter .calibrate n3
  loadNote true (raise 1 (exRefresh n4.now (setRole (if n4.pair then n4.dup.role else .alone) n4)))

/-- ROUTE_MAP_VERIFY: the VERIFY phase completes (R68, R71, R83). DEDUCED (notes/assumptions/19.md): while BIND_LOCK is set an
image from any source, a bank's too, is compared with the locked table. -/
def routeMapVerify (n : Node) : Node :=
  match n.dev.st, n.ld.cand with
  | .verify, some g =>
    match verifyImage n.ld.lock g with
    | .ok g' => applyImage g' n
    | .error e => loadFailed e n
  | _, _ => n

/-- SL_IMAGE: the partner's image, checked by R68 with RM_SRC 4; `none`: its format was refused (R448). -/
def partnerImage (img : Option Bytes) (n : Node) : Node :=
  if n.dev.st == .boot && n.ld.sel == .partner then
    let n1 := enter .load { n with ld.phase := 2 }
    match img with
    | none => loadFailed ⟨0x12, 0, 0⟩ n1
    | some bs => routeMapVerify (loadEnds (loadImage bs) n1)
  else n

/-! ### Entry to READY (R82, R90, R91, R163, R447) -/

/-- INITIAL_CALIBRATION_COMPLETE: results begin, roles settle, the rails rise, AUTO_RUN asks for RUN. -/
def calibrated (m : CalMeas) (roleIn : Bool) (t : Nat) (n : Node) : Node :=
  if n.dev.st != .calibrate then n
  else
    let n1 := initialCal m t n
    let n2 := roleSettle roleIn t (enter .ready n1)
    let n3 := caStart t (exStart t (cjStart t (uiStart t (exRefresh t n2))))
    let n4 := dspReady t (svReady0 (digReady n3))
    let n5 : Node := if n4.autoRun then { n4 with dev.pend := .run } else n4
    if n5.ld.partnerLive then { n5 with ld.partnerLive := false, ld.liveStat := 2 } else n5

/-! ### Staging and commands (R73 to R76) -/

/-- The staged image is being written to flash or applied. -/
def stgHeld (n : Node) : Bool := n.ld.stgState == 5 || n.ld.stgState == 8

def stgAddrWrite (v : Word) (n : Node) : Node :=
  if stgHeld n then rmCode 0x14 n else { n with ld.stgAddr := fld v 23 2 * 4, ld.stgState := 1 }

def stgNext (n : Node) : Nat := (n.ld.stgAddr + 4) % 16777216

def stgDataWrite (v : Word) (m : Mems) (n : Node) : Mems × Node :=
  if stgHeld n then (m, rmCode 0x14 n)
  else ({ m with staging := memWrite 0#8 m.staging n.ld.stgAddr (leBytes 4 v.toNat) },
        { n with ld.stgAddr := stgNext n, ld.stgState := 1 })

/-- A read of STG_DATA: the word, and STG_ADDR advances. -/
def stgDataRead (m : Mems) (n : Node) : Word × Node := (memWord 0#8 m.staging n.ld.stgAddr, { n with ld.stgAddr := stgNext n })

/-- STG_STATE values from which a checked image may be committed or programmed. -/
def stgChecked (n : Node) : Bool := n.ld.stgState == 3 || n.ld.stgState == 6 || n.ld.stgState == 7

/-- The RM_CTRL command is allowed (R74). DESIGN CHOICE (notes/assumptions/19.md): a keyed write with a CMD outside the table is
refused as a command not allowed, with code STATE and event 2. -/
def rmAllows (n : Node) (cmd : Nat) : Bool :=
  match cmd with
  | 1 => n.ld.stgState == 1 || n.ld.stgState == 3 || n.ld.stgState == 4 || n.ld.stgState == 6 || n.ld.stgState == 7
  | 2 => stgChecked n && (n.dev.st == .boot || n.acq || n.dev.st == .safe)
  | 3 => stgChecked n
  | 4 => stgChecked n
  | 5 => n.ld.stgState != 5
  | 6 => n.ld.stgState != 5
  | 7 => n.ld.stgState != 5
  | _ => false

/-- A write of RM_CTRL (R74). COMMIT and PROGRAM begin here and end with their own steps. -/
def rmCtrl (key : Nat) (cmd : Nat) (m : Mems) (n : Node) : Mems × Node :=
  if key ≠ 0x10AD then (m, rmCode 0x15 n)
  else if !rmAllows n cmd then (m, rmRefuse n)
  else match cmd with
    | 1 => (m, { n with ld.stgState := 2 })
    | 2 => (m, { n with ld.stgState := 8 })
    | 3 => (m, { n with ld.stgState := 5, ld.progB := false })
    | 4 => (m, { n with ld.stgState := 5, ld.progB := true })
    | 5 => (m, { n with ld.prefB := false })
    | 6 => (m, { n with ld.prefB := true })
    | _ => ({ m with staging := [] }, { n with ld.stgState := 0 })

/-- CHECK_COMPLETE (R74, R75). -/
def checkComplete (m : Mems) (n : Node) : Node :=
  if n.ld.stgState ≠ 2 then n
  else match checkImage n.ld.lock (areaBytes 0#8 m.staging) with
    | .ok _ => { n with ld.stgState := 3 }
    | .error e => rmFail 3 e { n with ld.stgState := 4 }

/-- Content of a bank whose programming failed or was cut off: bytes that the spec leaves open, over the image's length. -/
def flashUnknown (m : Mems) (n : Node) : Memory :=
  memWrite 0xFF#8 [] 0 ((List.range (areaBytes 0#8 m.staging).length).map (fun i => Config.flashByte n.free i))

/-- PROGRAM_COMPLETE: flash holds the staged image, or did not read back (R74, R75). -/
def programComplete (ok : Bool) (m : Mems) (n : Node) : Mems × Node :=
  if n.ld.stgState ≠ 5 then (m, n)
  else if ok then
    let bs := areaBytes 0#8 m.staging
    (setBankMem m n.ld.progB (memWrite 0xFF#8 [] 0 bs),
     setBankInfo n.ld.progB { state := 1, code := 0, rev := u32 bs 0x14 % 65536 } { n with ld.stgState := 6 })
  else
    (setBankMem m n.ld.progB (flashUnknown m n),
     rmFail (if n.ld.progB then 2 else 1) ⟨0x10, 0, 0⟩
       (setBankInfo n.ld.progB { state := 3, code := 0x10, rev := 0 } { n with ld.stgState := 7, free := n.free + 1 }))

/-- The live area is emptied (R78). -/
def liveEmpty (m : Mems) : Mems := { m with live := [], liveEnd := 0 }

/-- A COMMIT waits and the device state allows it (R74, R83). -/
def commitDue (n : Node) : Bool := n.ld.stgState == 8 && (n.dev.st == .boot || n.acq || n.dev.st == .safe)

/-- A COMMIT begins at a scan tick (R76, R98): acquisition, control and sequences stop, the panel completes and discharges,
mailboxes empty, a live submission is cancelled; the outputs hold the safe states of the image that was running. -/
def commitBegin (m : Mems) (n : Node) : Mems × Node :=
  if commitDue n then
    let n1 := dspStop (seqApply (lnTestsAbort (loSafeEntry (doHoldCommit (loHoldCommit (caStop (uiUnforce (uiStop (mbClear n)))))))))
    let n2 : Node := { n1 with ld.restarting := n.applied || n.ld.restarting, ld.sel := .staging, ld.tried := [], ld.phase := 1, ld.livePend := [],
                               ld.liveStat := 0, ld.liveLegs := 0, dev.pend := .none }
    let n3 := enter .load n2
    (liveEmpty m, exRefresh n3.now n3)
  else (m, n)

/-! ### Live replacement (R78, R79) -/

def liveHeld (n : Node) : Bool := n.ld.liveStat == 2 || n.ld.liveStat == 3

def liveAddrWrite (v : Word) (n : Node) : Node :=
  if liveHeld n then rmCode 0x14 n else { n with ld.liveAddr := fld v 18 2 * 4, ld.liveStat := 1, ld.liveLegs := 0 }

def liveDataWrite (v : Word) (m : Mems) (n : Node) : Mems × Node :=
  if liveHeld n then (m, rmCode 0x14 n)
  else ({ m with live := memWrite 0#8 m.live n.ld.liveAddr (leBytes 4 v.toNat), liveEnd := max m.liveEnd (n.ld.liveAddr + 4) },
        { n with ld.liveAddr := (n.ld.liveAddr + 4) % 524288, ld.liveStat := 1, ld.liveLegs := 0 })

/-- A submission ends refused (R78 step 6). -/
def liveRefuse (e : RmFail) (m : Mems) (n : Node) : Mems × Node :=
  (liveEmpty m, rmFail 5 e { n with ld.liveStat := 5, ld.livePend := [] })

/-- SUBMIT (R78). DESIGN CHOICE (notes/assumptions/19.md): a SUBMIT refused with code STATE leaves the area and LIVE_STAT. -/
def liveSubmit (m : Mems) (n : Node) : Mems × Node :=
  if !n.acq || liveHeld n then (m, rmRefuse n)
  else if m.liveEnd = 0 then liveRefuse ⟨0x0A, 0, 0⟩ m { n with ld.liveLegs := 0 }
  else (m, { n with ld.liveStat := 2, ld.liveLegs := liveSeen (memBytes 0#8 m.live 0 m.liveEnd) 6 0 0 })

/-- CANCEL, before PENDING (R78, R81). -/
def liveCancel (m : Mems) (n : Node) : Mems × Node :=
  if n.ld.liveStat = 3 then (m, rmRefuse n) else (liveEmpty m, { n with ld.liveStat := 0, ld.liveLegs := 0 })

/-- A write of LIVE_CTRL. -/
def liveCtrl (v : Word) (m : Mems) (n : Node) : Mems × Node :=
  let s := if bitOf v 0 then liveSubmit m n else (m, n)
  if bitOf v 1 then liveCancel s.1 s.2 else s

/-- LIVE_CHECK_COMPLETE (R78 steps 3 to 6). -/
def liveCheck (m : Mems) (n : Node) : Mems × Node :=
  match n.ld.img with
  | none => (m, n)
  | some g =>
    if n.ld.liveStat ≠ 2 then (m, n)
    else match checkLive g ((liveGens n).map BitVec.toNat) (memBytes 0#8 m.live 0 m.liveEnd) with
      | .error e => liveRefuse e m n
      | .ok ls => (m, { n with ld.liveStat := 3, ld.livePend := ls })

/-- The legs take effect: state carries over as R79 decides. -/
def liveApply (g : Image) (n : Node) : Node :=
  let gn := withLive g n.ld.livePend
  let has (t : Nat) : Bool := n.ld.livePend.any (fun l => l.typ == t)
  let oldLn (k : Nat) : Bytes := (g.keyed 0x0A 1 k).getD []
  let oldPt (k : Nat) : Bytes := (g.dense 0x0B 1 k).getD []
  let oldRg (k : Nat) : Bytes := (g.dense 0x0E 4 k).getD []
  let oldItems (k : Nat) : List Bytes := (g.recs 0x0E 5).filter (fun r => u8 r 0 == k)
  let n1 : Node := { n with ld.img := some gn, ld.livePend := [], ld.liveStat := 4, ld.liveTick := n.scan, ld.diverged := true }
  let n2 := if has 0x0A then lnReplace oldLn n1 else n1
  let n3 := if has 0x0C then groupReplace (max 1 (g.recs 0x0C 2).length) n2 else n2
  let n4 := if has 0x0B then almReplace oldPt n3 else n3
  let n5 := if has 0x0D then seqReplace n4 else n4
  let n6 := if has 0x0E then dspReplace oldRg oldItems n5 else n5
  raise 1 n6

/-- LIVE_REPLACEMENT at a scan tick (R78 step 5); a COMMIT that begins there cancels it (R76, R81). -/
def liveReplace (m : Mems) (n : Node) : Mems × Node :=
  match n.ld.img with
  | some g => if n.ld.liveStat = 3 && !commitDue n then (liveEmpty m, liveApply g n) else (m, n)
  | none => (m, n)

/-- SL_IMAGE's live legs: they wait in the live area for the entry to READY (R448). -/
def partnerLive (bs : Bytes) (m : Mems) (n : Node) : Mems × Node :=
  if n.dev.st == .load || n.dev.st == .verify || n.dev.st == .calibrate then
    ({ m with live := memWrite 0#8 [] 0 bs, liveEnd := bs.length }, { n with ld.partnerLive := true, ld.liveLegs := liveSeen bs 6 0 0 })
  else (m, n)

/-! ### Reset of the memories (R73, R78, R100) -/

/-- A reset empties the staging areas; flash stays, but for a bank that was being programmed. -/
def resetMems (m : Mems) (n : Node) : Mems :=
  let m1 : Mems := { flashA := m.flashA, flashB := m.flashB }
  if n.ld.stgState = 5 then setBankMem m1 n.ld.progB (flashUnknown m n) else m1

/-! ### Registers (R81) -/

def rmStatus (n : Node) : Word :=
  wd (b2n n.ld.diverged * 128 + b2n (n.ld.fallback && n.applied) * 64 + b2n n.ld.prefB * 32 + b2n n.applied * 16 + n.ld.phase)

def bankWord (x : BankInfo) : Word := wd (x.state * 2 ^ 24 + x.code * 65536 + x.rev)

/-- A value of the running image; 0 while none is applied. -/
def ofImage (n : Node) (f : Image → Word) : Word :=
  match n.ld.img with
  | some g => if n.applied then f g else 0#32
  | none => 0#32

/-- The loader's registers without a side effect; STG_DATA apart. -/
def rmRead (m : Mems) (n : Node) (addr : Nat) : Option Word :=
  if 0x0860 ≤ addr ∧ addr ≤ 0x0870 ∧ addr % 4 = 0 then some (if n.applied then liveGen n ((addr - 0x0860) / 4) else 0#32)
  else match addr with
    | 0x0800 => some (rmStatus n)
    | 0x0808 => some (wd (n.ld.err.src * 2 ^ 20 + n.ld.err.leg * 256 + n.ld.err.code))
    | 0x080C => some (wd n.ld.errOfs)
    | 0x0810 => some (if n.applied then wd n.ld.src else 0#32)
    | 0x0814 => some (ofImage n (fun g => wd g.fmt))
    | 0x0818 => some (ofImage n (fun g => wd g.len))
    | 0x081C => some (ofImage n (fun g => g.ocrc))
    | 0x0820 => some (ofImage n (fun g => g.mapId))
    | 0x0824 => some (ofImage n (fun g => g.mapRev))
    | 0x0828 => some (bankWord n.ld.bankA)
    | 0x082C => some (bankWord n.ld.bankB)
    | 0x0840 => some (wd n.ld.stgAddr)
    | 0x0848 => some (wd n.ld.stgState)
    | 0x0850 => some (wd n.ld.liveAddr)
    | 0x0854 => some (memWord 0#8 m.live n.ld.liveAddr)
    | 0x085C => some (wd (n.ld.liveLegs * 256 + n.ld.liveStat))
    | 0x0874 => some n.ld.liveTick
    | 0x0880 => some (wd (b2n n.ld.lock.isSome))
    | _ => none

end Sys2Proof.Machine
end

