-- ==== Sys2Proof/Machine/Registers.lean ====
section
/-! DEFINITION. The register map (spec/21 R543 to R548 with the register tables of every chapter): level, access and island
of each address, and what a read or a write of each register does. -/

namespace Sys2Proof.Machine
open Sys2Proof

/-! ### The map -/

/-- How a register is written: not at all (ro, rc), as rw, w1c or wo. -/
inductive RegAcc where
  | ro | wr
  deriving DecidableEq, Repr

/-- Level and access of a register (R8, R12). -/
structure RegAttr where
  x : Bool
  acc : RegAcc
  deriving DecidableEq, Repr

/-- A run of `cnt` registers at offset `off` of its block. -/
structure RegRun where
  off : Nat
  cnt : Nat
  attr : RegAttr
  deriving DecidableEq, Repr

/-- Instances of a block of registers. -/
structure RegBlock where
  base : Nat
  stride : Nat
  num : Nat
  runs : List RegRun
  deriving DecidableEq, Repr

def bRo (off cnt : Nat) : RegRun := ⟨off, cnt, ⟨false, .ro⟩⟩
def bWr (off cnt : Nat) : RegRun := ⟨off, cnt, ⟨false, .wr⟩⟩
def xRo (off cnt : Nat) : RegRun := ⟨off, cnt, ⟨true, .ro⟩⟩
def xWr (off cnt : Nat) : RegRun := ⟨off, cnt, ⟨true, .wr⟩⟩

/-- Registers of the blocks below 0x2000 (R545, R18, R26, R39, R81, R102, R128, R141, R154, R215, R469, R470, R501, R502,
R520). -/
def regLow : List RegBlock :=
  [⟨0x0000, 0x400, 1, [bRo 0x00 2, bRo 0x10 3, bRo 0x20 1, bWr 0x24 1, bRo 0x28 3, bRo 0x100 7, bRo 0x120 4]⟩,
   ⟨0x0400, 0x400, 1, [bRo 0x00 4, xWr 0x10 1, bRo 0x14 4, bRo 0x80 2, bWr 0x88 1, xRo 0x8C 2, bRo 0xA0 4, xRo 0xB0 1]⟩,
   ⟨0x0800, 0x400, 1, [bRo 0x00 1, xWr 0x04 1, bRo 0x08 10, xWr 0x40 2, bRo 0x48 1, xWr 0x50 3, bRo 0x5C 7, bRo 0x80 1]⟩,
   ⟨0x0C00, 0x400, 1, [bWr 0x00 8, bRo 0x20 4, bWr 0x40 16, bRo 0x80 32, bRo 0x100 1, bRo 0x110 1, bWr 0x114 1]⟩,
   ⟨0x1000, 0x400, 1, [bWr 0x00 32, bRo 0x80 32, bWr 0x100 2, bWr 0x140 16, bWr 0x200 2, bRo 0x208 1]⟩,
   ⟨0x1400, 0x400, 1, [bRo 0x00 5, bWr 0x20 1, bRo 0x24 1, bWr 0x28 1, bRo 0x2C 1, xWr 0x30 5, bRo 0x44 1]⟩,
   ⟨0x1800, 0x400, 1, [bRo 0x00 7, bWr 0x20 1, bRo 0x24 2, bWr 0x30 1, bRo 0x34 2, xWr 0x40 60, xWr 0x130 1]⟩,
   ⟨0x1C00, 0x400, 1, [bWr 0x00 1, bRo 0x04 3, bWr 0x10 1, bRo 0x14 2, xRo 0x40 1, bRo 0x44 2, xWr 0x4C 1, xWr 0xC0 1,
                       bRo 0xC4 1, bRo 0xD0 4, bRo 0xE0 2, bRo 0x200 16]⟩,
   ⟨0x1C80, 0x10, 4, [bRo 0x00 4]⟩,
   ⟨0x1D00, 0x10, 16, [bRo 0x00 3]⟩]

/-- Registers of the channel blocks (R185, R186, R243, R267, R269, R295, R296, R320, R321, R347, R348). -/
def regMid : List RegBlock :=
  [⟨0x2000, 0x40, 64, [bRo 0x00 4, xWr 0x10 1, bWr 0x14 1, xRo 0x18 4, xWr 0x28 2, bRo 0x30 4]⟩,
   ⟨0x3000, 0x40, 16, [bRo 0x00 9, xWr 0x24 1, bWr 0x28 1, bRo 0x2C 2, bWr 0x34 2, bRo 0x3C 1]⟩,
   ⟨0x3400, 0x20, 16, [bRo 0x00 2, xWr 0x08 1, bWr 0x0C 1, bRo 0x10 3]⟩,
   ⟨0x3600, 0x10, 8, [bRo 0x00 2]⟩,
   ⟨0x3680, 0x20, 8, [bRo 0x00 1, bWr 0x04 1, bRo 0x08 1, bWr 0x0C 1, bRo 0x10 4]⟩,
   ⟨0x3780, 0x20, 1, [bRo 0x00 4, bWr 0x10 4]⟩,
   ⟨0x3800, 0x40, 16, [bRo 0x00 3, bWr 0x0C 1, bRo 0x10 1, bWr 0x14 1, bRo 0x18 4, bWr 0x28 2, bRo 0x30 2]⟩,
   ⟨0x3C00, 0x08, 128, [bRo 0x00 2]⟩,
   ⟨0x4000, 0x10, 48, [bRo 0x00 1, bWr 0x04 1, bRo 0x08 2]⟩,
   ⟨0x4300, 0x08, 6, [bRo 0x00 2]⟩,
   ⟨0x4340, 0x08, 6, [xWr 0x00 1, bWr 0x04 1]⟩,
   ⟨0x4380, 0x40, 1, [bRo 0x00 2, bWr 0x08 3, bRo 0x14 2]⟩,
   ⟨0x4400, 0x10, 32, [bRo 0x00 1, bWr 0x04 2, bRo 0x0C 1]⟩,
   ⟨0x4600, 0x08, 4, [bRo 0x00 2]⟩,
   ⟨0x4640, 0x04, 4, [bRo 0x00 1]⟩,
   ⟨0x4800, 0x40, 16, [bRo 0x00 1, bWr 0x04 3, bRo 0x10 1, bWr 0x14 1, xRo 0x18 1, bRo 0x1C 4, bWr 0x2C 1, bRo 0x30 4]⟩,
   ⟨0x4C00, 0x40, 8, [bRo 0x00 5, bWr 0x14 1, bRo 0x18 2, xWr 0x20 1]⟩,
   ⟨0x4E00, 0x100, 1, [bWr 0x00 1, bRo 0x04 1, bRo 0x10 4]⟩,
   ⟨0x5000, 0x100, 8, [bRo 0x00 5, bWr 0x14 2, bRo 0x1C 6, xRo 0x34 5, bRo 0x48 1, bRo 0x60 3, bRo 0x70 3, bRo 0x80 3, bRo 0x90 3]⟩,
   ⟨0x5800, 0x400, 1, [bWr 0x00 1, bRo 0x04 4, xWr 0x14 2, bRo 0x1C 3, bWr 0x28 1]⟩]

/-- Registers of the blocks from the lanes on (R378, R404, R421, R443, R469, R519). -/
def regHigh : List RegBlock :=
  [⟨0x5C00, 0x80, 32, [bRo 0x00 2, bWr 0x08 4, bRo 0x18 3, xRo 0x24 6, bWr 0x3C 1, xWr 0x40 11, bRo 0x6C 1, xWr 0x70 1, bRo 0x74 1,
                       bWr 0x78 1, bRo 0x7C 1]⟩,
   ⟨0x6C00, 0x400, 1, [bWr 0x00 1, bRo 0x04 8, bWr 0x40 1, xWr 0x44 1, bWr 0x48 1, bRo 0x4C 1, bWr 0x50 1, bRo 0x54 1, bWr 0x58 1,
                       bRo 0x5C 1, bWr 0x60 1, bRo 0x64 1, bWr 0x68 1, bWr 0x80 1, bRo 0x84 2, bRo 0xA0 1, bWr 0xA4 1, bRo 0xA8 1]⟩,
   ⟨0x7000, 0x40, 8, [bWr 0x00 2, bRo 0x08 14]⟩,
   ⟨0x7200, 0x200, 1, [bRo 0x00 1, bWr 0x100 1, bRo 0x104 16]⟩,
   ⟨0x7400, 0x40, 1, [bWr 0x00 1, xWr 0x04 1, bRo 0x08 1, xWr 0x0C 1, bWr 0x10 2, bRo 0x18 4]⟩,
   ⟨0x7440, 0x10, 32, [bRo 0x00 2, bWr 0x08 1, bRo 0x0C 1]⟩,
   ⟨0x7800, 0x400, 1, [bWr 0x00 1, xWr 0x04 1, bRo 0x08 8, bRo 0x30 4, xWr 0x40 2, bRo 0x48 1]⟩,
   ⟨0x7C00, 0x08, 128, [bRo 0x00 2]⟩]

def RegBlock.find (b : RegBlock) (a : Nat) : Option RegAttr :=
  if b.base ≤ a ∧ a < b.base + b.stride * b.num then
    let o := (a - b.base) % b.stride
    (b.runs.find? (fun r => decide (r.off ≤ o) && decide (o < r.off + 4 * r.cnt))).map (·.attr)
  else none

/-- The BLK_CTRL register at an address: its block number (R543, R545). -/
def blkAt (a : Nat) : Option Nat := if blkAddr.contains a then some (blkAddr.idxOf a) else none

/-- Level and access of the register at an address; `none`: reserved, unaligned or unmapped (R12, R105, R544). -/
def regAttr (a : Nat) : Option RegAttr :=
  if a % 4 ≠ 0 then none
  else if (blkAt a).isSome then some ⟨false, .wr⟩
  else (regLow ++ regMid ++ regHigh).findSome? (fun b => b.find a)

/-- Block number of an address (R543). -/
def regBlk (a : Nat) : Nat :=
  if a < 0x400 then bGlobal else if a < 0x800 then bIsl else if a < 0xC00 then bLoader else if a < 0x1000 then bEvt
  else if a < 0x1400 then bMbx else if a < 0x1800 then bClk else if a < 0x1C00 then bRec else if a < 0x2000 then bJn
  else if a < 0x3000 then bUi else if a < 0x3400 then bCa else if a < 0x3800 then bEx else if a < 0x3C00 then bLo
  else if a < 0x4000 then bHart else if a < 0x4400 then bDi else if a < 0x4800 then bDo else if a < 0x5000 then bSv
  else if a < 0x5800 then bPf else if a < 0x5C00 then bCmp else if a < 0x6C00 then bLn else if a < 0x7000 then bAlm
  else if a < 0x7400 then bSeq else if a < 0x7800 then bDsp else if a < 0x7C00 then bDup else bNet

/-- Island that an access reaches (R22, R473, R543): results, block controls and calendar reads are served in I0. -/
def regIsl (a : Nat) (wr : Bool) : Nat :=
  if (blkAt a).isSome || isValue a || isQseq a then 0
  else if 0x100 ≤ a && a ≤ 0x12C then 7
  else if a = 0x1440 ∨ a = 0x1428 then (if wr then 11 else 0)
  else if 0x1800 ≤ a && a < 0x1C00 then 10
  else if 0x2000 ≤ a && a < 0x3000 then 3
  else if 0x3000 ≤ a && a < 0x3400 then 4
  else if 0x3400 ≤ a && a < 0x3C00 then 5
  else if 0x4000 ≤ a && a < 0x5000 then 5
  else if 0x5000 ≤ a && a < 0x5C00 then 6
  else if 0x7400 ≤ a && a < 0x7800 then 9
  else 0

/-- The address names a writable register of the plant blocks (R451): LO, PO, DO, SS, EX, SV, CA, UI, lanes, alarms, sequencer,
compare table, and IL_RESET. -/
def plantReg (a : Nat) : Bool :=
  let plant := (0x2000 ≤ a && a < 0x3600) || (0x3680 ≤ a && a < 0x3780) || (0x3800 ≤ a && a < 0x3C00)
    || (0x4340 ≤ a && a < 0x4370) || a == 0x4388 || (0x4400 ≤ a && a < 0x4600) || (0x4800 ≤ a && a < 0x4E00)
    || (0x5800 ≤ a && a < 0x73FC)
  plant && (blkAt a).isNone && (match regAttr a with | some x => x.acc == .wr | none => false)

/-! ### Reads -/

/-- Global block (R26, R102, R132, R545). -/
def globRead (n : Node) (p : HostPort) (a : Nat) : Word × Node :=
  match a with
  | 0x0000 => (0x4A4D7740#32, n)
  | 0x0004 => (n.rev, n)
  | 0x0010 => (wd n.now, n.modPort p (fun q => { q with devHi := some (wd (n.now / 2 ^ 32)) }))
  | 0x0014 =>
    match (n.port p).devHi with
    | some w => (w, n.modPort p (fun q => { q with devHi := none }))
    | none => (wd (n.now / 2 ^ 32), n)
  | 0x0018 => (n.scan, n)
  | 0x0020 => (devStateWord n, n)
  | 0x0028 => (devStatusWord n, n)
  | 0x002C => (resetCauseWord n, n)
  | 0x0030 => (n.dev.stateTick, n)
  | _ => ((netRead n a).getD 0#32, n)

/-- Event controller (R139, R141). -/
def evtRead (n : Node) (a : Nat) : Word × Node :=
  let m := (a % 0x40) / 4
  if a < 0x0C10 then (slice128 n.evt.stat m, n)
  else if a < 0x0C20 then (slice128 n.evt.mask (m - 4), n)
  else if a < 0x0C40 then (slice128 (n.evt.stat &&& ~~~ n.evt.mask) (m - 8), n)
  else if a < 0x0C80 then (evtRouteWord n m, n)
  else if a < 0x0D00 then (evtOccWord n ((a - 0x0C80) / 4), n)
  else if a = 0x0D00 then (n.evt.pins, n)
  else if a = 0x0D10 then evtMsgqRead n
  else (evtMsgStat n, n)

/-- Mailbox block (R154): windows and doorbells are those of the port's identity. -/
def mbxRead (n : Node) (id a : Nat) : Word :=
  let x := n.mbId id
  if a < 0x1080 then mbAckWord n ((a - 0x1000) / 4)
  else if a < 0x1100 then mbChstatWord n ((a - 0x1080) / 4)
  else if a < 0x1140 then 0#32
  else if a < 0x1180 then x.win.getD ((a - 0x1140) / 4) 0#32
  else if a = 0x1200 then x.dbStat
  else if a = 0x1204 then x.dbMask
  else x.dbStat &&& ~~~ x.dbMask

/-- Live calibration, pair watch and triads (R215). -/
def calRead (n : Node) (a : Nat) : Word :=
  if a < 0x1CC0 then
    let b := (a - 0x1C80) / 16
    if a % 16 = 8 then bcStatusWord n b else bcLastWord (n.bcOf b)
  else if a = 0x1CC0 then rndParamWord n
  else if a = 0x1CC4 then n.cal.rndCnt
  else if a < 0x1CE0 then rndDisWord n ((a - 0x1CD0) / 4)
  else if a < 0x1D00 then pwSuspWord n ((a - 0x1CE0) / 4)
  else if a < 0x1E00 then triStatusWord n ((a - 0x1D00) / 16)
  else plausWord n ((a - 0x1E00) / 4)

/-- The next address above `a` that holds a VALUE or QSEQ register (R126). DESIGN CHOICE (notes/assumptions/22.md): past the
last it is 0x8000, which holds none and which SNAP_ADDR reads as 0. -/
def nextResult (a : Nat) : Nat :=
  if isValue a then a + 4
  else match allValues.find? (fun v => decide (a < v)) with
    | some v => v
    | none => 0x8000

/-- Read of SNAP_DATA (R126). -/
def snapDataRead (p : HostPort) (n : Node) : Nat × Word × Node :=
  let s := (n.port p).snap
  if !s.ready || s.copying || !(isValue s.addr || isQseq s.addr) then (2, 0#32, n)
  else (0, tget 0#32 s.buf s.addr, n.modPort p (fun q => { q with snap.addr := nextResult s.addr }))

/-- Snapshot registers of the port (R128). -/
def snapRead (p : HostPort) (a : Nat) (n : Node) : Nat × Word × Node :=
  let s := (n.port p).snap
  match a with
  | 0x1C04 => (0, wd (s.seq.toNat * 256 + b2n s.copying * 2 + b2n s.ready), n)
  | 0x1C08 => (0, wd s.time, n)
  | 0x1C0C => (0, wd (s.time / 2 ^ 32), n)
  | 0x1C10 => (0, wd (s.addr % 32768), n)
  | 0x1C14 => snapDataRead p n
  | 0x1C18 => (0, s.cnt, n)
  | _ => (0, 0#32, n)

/-- Calendar registers of the port (R473, R481, R501). -/
def calendarRead (p : HostPort) (a : Nat) (n : Node) : Word × Node :=
  if a < 0x1414 then shadowRead (portCode p) ((a - 0x1400) / 4) n
  else if a = 0x1420 then (clkStatus n (portCode p), n)
  else ((clkRead n a).getD 0#32, n)

/-- Recorder registers of the port (R488, R497, R502). -/
def recorderRead (p : HostPort) (a : Nat) (n : Node) : Nat × Word × Node :=
  match a with
  | 0x1814 => (0, msLoRead p n)
  | 0x1818 => (0, msHiRead p n)
  | 0x1824 => recDataRead p n
  | 0x1834 => stDataRead p n
  | _ => (0, (recRead n p a).getD 0#32, n)

/-- Position interface registers (R330, R343, R347). -/
def positionRead (p : HostPort) (a : Nat) (n : Node) : Word × Node :=
  let f := (a - 0x5000) / 0x100
  let o := a % 0x100
  if o = 0x1C then pfRawRead p f n
  else if o = 0x20 then pfWrapRead p f n
  else if 0x60 ≤ o then
    let k := (o - 0x60) / 16
    if o % 16 = 0 then pfCapRead p f k n
    else pfCapRest p f k (o % 16 == 8) n
  else ((pfRead n f o).getD 0#32, n)

/-- Firmware window: a read of FW_DATA advances FW_ADDR (R464, R469). -/
def fwDataRead (m : Mems) (n : Node) : Word × Node :=
  (memWord 0#8 m.fw n.dup.fwAddr, { n with dup.fwAddr := (n.dup.fwAddr + 4) % fwSize })

/-- Registers below 0x2000: status, word, effect. -/
def readLow (p : HostPort) (a : Nat) (m : Mems) (n : Node) : Nat × Word × Node :=
  if a < 0x0400 then (0, globRead n p a)
  else if a < 0x0480 then (0, (dtrRead n a).getD 0#32, n)
  else if a < 0x0800 then (0, (islRead n a).getD 0#32, n)
  else if a < 0x0C00 then (if a = 0x0844 then (0, stgDataRead m n) else (0, (rmRead m n a).getD 0#32, n))
  else if a < 0x1000 then (0, evtRead n a)
  else if a < 0x1400 then (0, mbxRead n (portCode p) a, n)
  else if a < 0x1800 then (0, calendarRead p a n)
  else if a < 0x1C00 then recorderRead p a n
  else if a < 0x1C40 then snapRead p a n
  else if a < 0x1C80 then (0, (jnRead n a).getD 0#32, n)
  else (0, calRead n a, n)

/-- Registers from 0x2000 up. -/
def readHigh (p : HostPort) (a : Nat) (m : Mems) (n : Node) : Nat × Word × Node :=
  if a < 0x3000 then (0, (uiRead n ((a - 0x2000) / 0x40) (a % 0x40)).getD 0#32, n)
  else if a < 0x3400 then
    let c := (a - 0x3000) / 0x40
    if a % 0x40 = 0x3C then caBufData p c n else (0, (caRead n p c (a % 0x40)).getD 0#32, n)
  else if a < 0x3600 then (0, (exRead n ((a - 0x3400) / 0x20) (a % 0x20)).getD 0#32, n)
  else if a < 0x3780 then (0, (poRead n ((a - 0x3680) / 0x20) ((a - 0x3680) % 0x20)).getD 0#32, n)
  else if a < 0x3790 then (0, slice128 n.mw.act ((a - 0x3780) / 4), n)
  else if a < 0x3800 then (0, slice128 n.mw.flg ((a - 0x3790) / 4), n)
  else if a < 0x3C00 then (0, (loRead n ((a - 0x3800) / 0x40) (a % 0x40)).getD 0#32, n)
  else if a < 0x4800 then (0, (digRead n a).getD 0#32, n)
  else if a < 0x4C00 then (0, (svRead n ((a - 0x4800) / 0x40) (a % 0x40)).getD 0#32, n)
  else if a < 0x4E00 then (0, (hbRead n ((a - 0x4C00) / 0x40) (a % 0x40)).getD 0#32, n)
  else if a < 0x5000 then (0, (shRead n a).getD 0#32, if a = 0x4E04 then shMcStep n else n)
  else if a < 0x5800 then (0, positionRead p a n)
  else if a < 0x5C00 then (0, (cmpRead n a).getD 0#32, n)
  else if a < 0x6C00 then
    let k := (a - 0x5C00) / 0x80
    if (a - 0x5C00) % 0x80 = 0x7C then lnCapData p k n else (0, (lnRead n p k ((a - 0x5C00) % 0x80)).getD 0#32, n)
  else if a < 0x7000 then (if a = 0x6CA8 then almLogData p n else (0, (almRead n p a).getD 0#32, n))
  else if a < 0x7400 then (0, (seqRead n a).getD 0#32, n)
  else if a < 0x7800 then (0, (dspRead n a).getD 0#32, n)
  else if a = 0x7844 then (0, fwDataRead m n)
  else (0, (dupRead n a).getD 0#32, n)

/-- What a read of an existing register by port `p` does: status, word, effect. -/
def regRead (p : HostPort) (a : Nat) (m : Mems) (n : Node) : Nat × Word × Node :=
  match blkAt a with
  | some b => (0, blkCtrlWord n b, n)
  | none =>
    if isValue a then (0, valueRead p a n)
    else if isQseq a then (0, qseqRead p (a - 4) n)
    else if a < 0x2000 then readLow p a m n else readHigh p a m n

/-! ### Writes -/

/-- A trigger of SNAP_CTRL (R124, R127). -/
def snapFrozen (p : HostPort) (n : Node) : Table Word :=
  n.jn.store.foldl (fun b (a, r) => tset 0#32 (tset 0#32 b a (valueWord r)) (a + 4) (qseqWord r (some (portIdx p))))
    (allValues.foldl (fun b a => tset 0#32 b a 0x80000000#32) [])

def snapTrigger (p : HostPort) (n : Node) : Node :=
  let s := (n.port p).snap
  if s.copying then n
  else n.modPort p (fun q => { q with snap := { s with copying := true, ready := false, buf := [], pendBuf := snapFrozen p n, time := n.now } })

/-- SNAP_COPY_COMPLETE: the buffer shows the store at T_snap; READY, SEQ, event 9 (R124). -/
def snapDone (p : HostPort) (n : Node) : Node :=
  let s := (n.port p).snap
  if s.copying then
    raise 9 (n.modPort p (fun q => { q with snap := { s with copying := false, ready := true, taken := true, buf := s.pendBuf, pendBuf := [],
                                                             seq := s.seq + 1#8, cnt := s.cnt + 1#32 } }))
  else n

/-- Write of SNAP_ADDR (R126). -/
def snapAddrWrite (p : HostPort) (v : Word) (n : Node) : Nat × Node :=
  if isValue v.toNat || isQseq v.toNat then (0, n.modPort p (fun q => { q with snap.addr := v.toNat })) else (2, n)

/-- Write of FW_DATA: not while an install runs (R464, R469). -/
def fwDataWrite (v : Word) (m : Mems) (n : Node) : Mems × Node :=
  if n.dup.fwRun then (m, dupRefuse n)
  else ({ m with fw := memWrite 0#8 m.fw n.dup.fwAddr (leBytes 4 v.toNat) }, fwStaged n)

/-- The staged firmware image. -/
def fwImage (m : Mems) (n : Node) : Bytes := memBytes 0#8 m.fw 0 n.dup.fwEnd

/-- FW_INSTALL (R464). -/
def fwInstallCmd (m : Mems) (n : Node) : Node := if fwInstallOk n then fwInstall (fwImage m n) n else dupRefuse n

/-- A reset with its effect on the memories. -/
def resetBoth (cause : Nat) (roleIn : Bool) (m : Mems) (n : Node) : Mems × Node := (resetMems m n, resetNode cause roleIn n)

/-- FW_ACTIVATE: the module resets into the new firmware; a record (R464, R495). -/
def fwActivate (m : Mems) (n : Node) : Mems × Node :=
  if fwActivateOk n then
    let x := resetBoth 4 n.dup.roleIn m { n with fwActs := n.fwActs + 1 }
    (x.1, recNote 0x0B 1 (some (leBytes 4 n.dup.fwStat ++ leBytes 4 (fld x.2.rev 15 0))) x.2)
  else (m, dupRefuse n)

/-- A write of DUP_CTRL: KEY in bits 31:16, CMD in bits 3:0 (R469). -/
def dupCtrl (v : Word) (m : Mems) (n : Node) : Mems × Node :=
  if fld v 31 16 ≠ 0x5A5A then (m, dupRefuse n)
  else match fld v 3 0 with
    | 1 => (m, dupSwap n)
    | 2 => (m, dupPartnerReset n)
    | 3 => (m, fwInstallCmd m n)
    | 4 => fwActivate m n
    | _ => (m, dupRefuse n)

/-- A write of DEV_CTRL: KEY in bits 31:16, CMD in bits 3:0 (R102). -/
def devCtrlWrite (v : Word) (m : Mems) (n : Node) : Mems × Node :=
  let x := devCtrl (BitVec.ofNat 16 (fld v 31 16)) (fld v 3 0) n
  if x.2 then resetBoth 4 n.dup.roleIn m x.1 else (m, x.1)

/-- Writes that reach the byte memories or reset the module; `none`: the register is another one. -/
def writeMem (a : Nat) (v : Word) (m : Mems) (n : Node) : Option (Mems × Node) :=
  match a with
  | 0x0024 => some (devCtrlWrite v m n)
  | 0x0804 => some (rmCtrl (fld v 31 16) (fld v 3 0) m n)
  | 0x0840 => some (m, stgAddrWrite v n)
  | 0x0844 => some (stgDataWrite v m n)
  | 0x0850 => some (m, liveAddrWrite v n)
  | 0x0854 => some (liveDataWrite v m n)
  | 0x0858 => some (liveCtrl v m n)
  | 0x7804 => some (dupCtrl v m n)
  | 0x7844 => some (fwDataWrite v m n)
  | _ => none

/-- Mailbox block, by master identity: status and effect. -/
def mbxWrite (id a : Nat) (v : Word) (n : Node) : Nat × Node :=
  if a < 0x1080 then mbAck id ((a - 0x1000) / 4) v n
  else if a = 0x1100 then mbPost id (fld v 4 0) n
  else if a = 0x1104 then mbFetch id (fld v 4 0) n
  else if a < 0x1180 then (0, mbWinWrite id ((a - 0x1140) / 4) v n)
  else if a = 0x1200 then (0, dbStatusWrite id v n)
  else (0, dbMaskWrite id v n)

/-- Writes below 0x2000: status and effect. -/
def writeLow (p : HostPort) (a : Nat) (v : Word) (n : Node) : Nat × Node :=
  if a = 0x0410 then (0, { n with dtr.memSel := fld v 21 16 })
  else if a = 0x0488 then (0, { n with isl.flt := w1c n.isl.flt v })
  else if a < 0x0C00 then (0, n)
  else if a < 0x0C10 then (0, evtStatWrite ((a - 0x0C00) / 4) v 0#32 n)
  else if a < 0x0C20 then (0, evtMaskWrite ((a - 0x0C10) / 4) v n)
  else if a < 0x0C80 then (0, evtRouteWrite ((a - 0x0C40) / 4) v n)
  else if a < 0x1000 then (0, evtMsgStatWrite v n)
  else if a < 0x1400 then mbxWrite (portCode p) a v n
  else if a = 0x1420 then (0, clkStatusWrite (portCode p) v n)
  else if a < 0x1800 then (0, clkWrite a v n)
  else if a = 0x1820 then (0, recSelWrite p v n)
  else if a = 0x1830 then (0, stSelWrite p v n)
  else if a < 0x1930 then (0, recAppWrite a v n)
  else if a = 0x1930 then recAppend v n
  else if a = 0x1C00 then (0, if bitOf v 0 then snapTrigger p n else n)
  else if a = 0x1C10 then snapAddrWrite p v n
  else if a = 0x1C4C then (0, { n with jn.maxDepth := if v = 0#32 then n.jn.maxDepth else 0 })
  else if a = 0x1CC0 then (0, rndParamWrite v n)
  else (0, n)

/-- Writes from 0x2000 up. -/
def writeHigh (p : HostPort) (a : Nat) (v : Word) (n : Node) : Node :=
  if a < 0x3000 then uiWrite ((a - 0x2000) / 0x40) (a % 0x40) v n
  else if a < 0x3400 then caWrite p ((a - 0x3000) / 0x40) (a % 0x40) v n
  else if a < 0x3600 then exWrite ((a - 0x3400) / 0x20) (a % 0x20) v n
  else if a < 0x3780 then poWrite ((a - 0x3680) / 0x20) ((a - 0x3680) % 0x20) v n
  else if a < 0x3800 then mwFlgWrite ((a - 0x3790) / 4) v n
  else if a < 0x3C00 then loWrite ((a - 0x3800) / 0x40) (a % 0x40) v n
  else if a < 0x4800 then digWrite a v n
  else if a < 0x4C00 then svWrite ((a - 0x4800) / 0x40) (a % 0x40) v n
  else if a < 0x4E00 then hbWrite ((a - 0x4C00) / 0x40) (a % 0x40) v n
  else if a < 0x5000 then { n with shp.mcAddr := fld v 12 0 }
  else if a < 0x5800 then pfWrite ((a - 0x5000) / 0x100) (a % 0x100) v n
  else if a < 0x5C00 then cmpWrite a v n
  else if a < 0x6C00 then lnWrite p ((a - 0x5C00) / 0x80) ((a - 0x5C00) % 0x80) v n
  else if a < 0x7000 then almWrite p a v n
  else if a < 0x7400 then seqWrite a v n
  else if a < 0x7800 then dspWrite a v n
  else if a = 0x7800 then dupStatusWrite v n
  else if a = 0x7840 then fwAddrWrite v n
  else n

/-- What a write of an existing writable register by port `p` does: status, memories, node. -/
def regWrite (p : HostPort) (a : Nat) (v : Word) (m : Mems) (n : Node) : Nat × Mems × Node :=
  match blkAt a with
  | some b => (0, m, blkCtrlWrite b v n)
  | none =>
    match writeMem a v m n with
    | some (m1, n1) => (0, m1, n1)
    | none =>
      if a < 0x2000 then
        let x := writeLow p a v n
        (x.1, m, x.2)
      else (0, m, writeHigh p a v n)

end Sys2Proof.Machine
end

