-- ==== Sys2Proof/Machine/HostAccess.lean ====
section
/-! DEFINITION. Accesses through the host ports: the status ladder (spec/04 R105, R106, R130), forwarding at a STANDBY
(spec/17 R451), the SPI port (R108 to R113), and named accesses by port. -/

namespace Sys2Proof.Machine
open Sys2Proof

/-- Outcome of a register access: status of R105, word read, whether it was forwarded, and the state after it. -/
structure AccOut where
  st : Nat
  data : Word := 0#32
  fwd : Bool := false
  mem : Mems
  node : Node

/-- An access that ends with a status and no effect. -/
def accRefuse (st : Nat) (m : Mems) (n : Node) : AccOut := { st := st, mem := m, node := n }

/-- An X-level write without EXPERT: event 7 (R130). -/
def accLocked (m : Mems) (n : Node) : AccOut := { st := 3, mem := m, node := raise 7 n }

/-- A read by a host port (R106: NO_REGISTER before ISLAND_DOWN); VALUE and QSEQ never end with ISLAND_DOWN (R22). -/
def readAccess (p : HostPort) (a : Nat) (m : Mems) (n : Node) : AccOut :=
  match regAttr a with
  | none => accRefuse 2 m n
  | some _ =>
    if !n.isRun (regIsl a false) && !isValue a && !isQseq a then accRefuse 1 m n
    else
      let x := regRead p a m n
      { st := x.1, data := x.2.1, mem := m, node := x.2.2 }

/-- The register takes the write; a ro register ignores it (R8). -/
def writeDo (p : HostPort) (a : Nat) (v : Word) (x : RegAttr) (m : Mems) (n : Node) : AccOut :=
  if x.acc = .ro then { st := 0, mem := m, node := n }
  else
    let r := regWrite p a v m n
    { st := r.1, mem := r.2.1, node := if x.x && r.1 == 0 then expertTouch (regBlk a) r.2.2 else r.2.2 }

/-- A STANDBY hands this write on (R451). -/
def forwards (n : Node) (a : Nat) : Bool := n.pair && n.dup.role == .standby && plantReg a

/-- The FWD frame of a host write. -/
def sendFwd (p : HostPort) (a : Nat) (v : Word) (n : Node) : Node :=
  sendFrame .strait 9 ([BitVec.ofNat 8 (portCode p)] ++ leBytes 2 a ++ leBytes 4 v.toNat) n

/-- The level check fails (R130). -/
def levelLocked (n : Node) (a : Nat) (x : RegAttr) : Bool := x.x && !n.expert (regBlk a)

/-- A write by a host port: NO_REGISTER, ISLAND_DOWN, EXPERT_LOCKED in this order (R106), else the write or its forwarding. -/
def writeAccess (p : HostPort) (a : Nat) (v : Word) (m : Mems) (n : Node) : AccOut :=
  match regAttr a with
  | none => accRefuse 2 m n
  | some x =>
    if forwards n a then
      if !linkUp n then accRefuse 1 m n
      else if levelLocked n a x then accLocked m n
      else { st := 4, fwd := true, mem := m, node := sendFwd p a v (if x.x then expertTouch (regBlk a) n else n) }
    else if !n.isRun (regIsl a true) then accRefuse 1 m n
    else if levelLocked n a x then accLocked m n
    else writeDo p a v x m n

/-- A forwarded write at the module that carries the plant: no level check (R130, R451). -/
def partnerWrite (p : HostPort) (a : Nat) (v : Word) (m : Mems) (n : Node) : AccOut :=
  match regAttr a with
  | none => accRefuse 2 m n
  | some x =>
    if !plantReg a then accRefuse 2 m n
    else if n.dup.role == .standby || !n.isRun (regIsl a true) then accRefuse 1 m n
    else writeDo p a v x m n

def accDo (p : HostPort) (c : Acc) (m : Mems) (n : Node) : AccOut :=
  match c with
  | .rd a => readAccess p a m n
  | .wr a v => writeAccess p a v m n

def accAddr : Acc → Nat
  | .rd a => a
  | .wr a _ => a

/-- The access crosses a causeway (R22, R112). -/
def accWaits (n : Node) (c : Acc) : Bool :=
  match c with
  | .rd a => (regAttr a).isSome && regIsl a false != 0 && n.isRun (regIsl a false)
  | .wr a _ =>
    match regAttr a with
    | none => false
    | some x => regIsl a true != 0 && n.isRun (regIsl a true) && !forwards n a && !levelLocked n a x

/-- Someone waits for the answer to a forwarded write. -/
def pushFwd (o : FwdOrg) (n : Node) : Node := { n with net.fwds := n.net.fwds ++ [o] }

/-! ### Named accesses -/

/-- An access by port `p`, performed at once; its answer is the port's. -/
def hostDo (p : HostPort) (c : Acc) (m : Mems) (n : Node) : Mems × Node :=
  let o := accDo p c m n
  let n1 := o.node.modPort p (fun q => { q with ans := { status := o.st, addr := accAddr c, data := o.data } })
  (o.mem, if o.fwd then pushFwd (.port p) n1 else n1)

/-! ### SPI (R108 to R113) -/

def spiAnswer (tag : Byte) (c : Acc) (o : AccOut) : SpiResp :=
  { status := o.st, tag := tag, addr := accAddr c, data := if o.st = 0 then o.data else 0#32 }

/-- A response as it is shifted out: response word, data word, most significant byte first, then their CRC-8 (R108, R110,
R111). -/
def SpiResp.wire (r : SpiResp) : Bytes :=
  let b := beBytes 4 (r.status * 2 ^ 24 + r.tag.toNat * 65536 + r.addr % 32768) ++ beBytes 4 r.data.toNat
  b ++ [crc8 b]

/-- A frame shifts a response out. -/
def spiShift (r : SpiResp) (n : Node) : Node := { n with spi.out := r, spi.miso := r.wire }

/-- What a frame shifts out while an access is outstanding: BUSY (R112), or first the CRC_ERR of a bad frame (R106, R113). -/
def spiHeld (tag : Byte) (c : Acc) (n : Node) : Node :=
  let n1 : Node := { n with spi.crcErr := false }
  spiShift (if n.spi.crcErr then { status := 5 } else { status := 4, tag := tag, addr := accAddr c, data := 0#32 }) n1

/-- The access of a frame starts: at once within I0, outstanding across a causeway or the link. -/
def spiStart (tag : Byte) (c : Acc) (m : Mems) (n : Node) : Mems × Node :=
  if accWaits n c then (m, { n with spi.outst := some (tag, c) })
  else
    let o := accDo .m1 c m n
    if o.fwd then (o.mem, pushFwd .spi { o.node with spi.outst := some (tag, c) })
    else (o.mem, { o.node with spi.resp := spiAnswer tag c o })

/-- A whole frame with a right CRC: what it shifts out, and its command (R111, R112). -/
def spiFrame (op : Nat) (tag : Byte) (a : Nat) (v : Word) (m : Mems) (n : Node) : Mems × Node :=
  match n.spi.outst with
  | some (tg, c) => (m, spiHeld tg c n)
  | none =>
    let n1 : Node := { spiShift n.spi.resp n with spi.resp := {} }
    match op with
    | 0 => (m, n1)
    | 1 => spiStart tag (.rd a) m n1
    | 2 => spiStart tag (.wr a v) m n1
    | _ => (m, { n1 with spi.resp := { status := 2, tag := tag, addr := a, data := 0#32 } })

/-- SPI_FRAME_ERROR (R113): event 8; the next frame carries CRC_ERR. DEDUCED (notes/assumptions/16.md): while an access is
outstanding CRC_ERR goes before BUSY (R106); the response of an access that has completed by then goes before CRC_ERR (R112). -/
def spiError (n : Node) : Node :=
  match n.spi.outst with
  | some (tg, c) => let n1 := spiHeld tg c n; raise 8 { n1 with spi.crcErr := true }
  | none => raise 8 { spiShift n.spi.resp n with spi.resp := { status := 5 } }

/-- The SPI port's outstanding access ends with this outcome. -/
def spiEnd (tag : Byte) (c : Acc) (o : AccOut) : Node :=
  { o.node with spi.outst := none, spi.crcErr := false, spi.resp := spiAnswer tag c o }

/-- HOST_ACCESS_COMPLETE of the SPI port. -/
def spiComplete (m : Mems) (n : Node) : Mems × Node :=
  match n.spi.outst with
  | some (tag, c) =>
    if n.net.fwds.contains .spi then (m, n)
    else
      let o := accDo .m1 c m n
      if o.fwd then (o.mem, pushFwd .spi o.node) else (o.mem, spiEnd tag c o)
  | none => (m, n)

end Sys2Proof.Machine
end

