-- ==== Sys2Proof/Machine/Wayfare.lean ====
section
/-! DEFINITION. Wayfare (spec/04 R114 to R123): sessions, requests, subscriptions and pushes. -/

namespace Sys2Proof.Machine
open Sys2Proof

/-- A datagram: header, payload, CRC-32 (R115, R116). -/
def wfFrame (ver op : Nat) (sess : Word) (seq st flags : Nat) (pay : Bytes) : Bytes :=
  let b := [0x57#8, 0x59#8, BitVec.ofNat 8 ver, BitVec.ofNat 8 op] ++ leBytes 4 sess.toNat ++ leBytes 2 seq
    ++ [BitVec.ofNat 8 st, BitVec.ofNat 8 flags] ++ leBytes 2 pay.length ++ [0#8, 0#8] ++ pay
  b ++ leBytes 4 (crc32 b).toNat

def wfSend (net : Bool) (client ver op : Nat) (sess : Word) (seq st : Nat) (pay : Bytes) (n : Node) : Node :=
  sendFrame (.wayfare net) client (wfFrame ver op sess seq st 1 pay) n

/-- The open session that a request names, from its own address (R117). -/
def findSession (n : Node) (q : WfReq) : Option Session :=
  n.wf.find? (fun s => s.net == q.net && s.number == q.session && s.client == q.client)

def modSession (sess : Word) (f : Session → Session) (n : Node) : Node :=
  { n with wf := n.wf.map (fun s => if s.number = sess then f s else s) }

/-- SESSION_EXPIRY: 30 s after its last request (R117). -/
def sessionExpiry (sess : Word) (n : Node) : Node :=
  { n with wf := n.wf.filter (fun s => !(s.number == sess && decide (s.lastReq + 30 * secPer ≤ n.now))) }

/-- Every session whose 30 s have run out. -/
def sessionTick (n : Node) : Node :=
  { n with wf := n.wf.filter (fun s => !decide (s.lastReq + 30 * secPer ≤ n.now)) }

/-- The answer of a session's request: stored for a repeat, and sent (R118). -/
def wfAnswer (s : Session) (op : Nat) (seq : BitVec 16) (st : Nat) (pay : Bytes) (n : Node) : Node :=
  wfSend s.net s.client s.ver op s.number seq.toNat st pay
    (modSession s.number (fun x => { x with resp := some { op := op, status := st, payload := pay }, outst := none }) n)

/-- What a request does: its answer, or that it waits. -/
inductive WfOut where
  | done (st : Nat) (pay : Bytes) (m : Mems) (n : Node)
  | wait (w : WfPend) (m : Mems) (n : Node)

/-- The OP byte that a request of operation `op` carries and its answer echoes. -/
def wfOp (q : WfReq) (op : Nat) : Nat :=
  match q.form with
  | .unknownOp k => k.toNat
  | _ => op

/-- A request on a session: NO_SESSION, a repeat, BUSY, BAD_REQUEST for an operation code or payload length outside the table,
or its execution (R105, R106, R117, R118). -/
def wfRequest (q : WfReq) (op : Nat) (body : Session → Mems → Node → WfOut) (m : Mems) (n : Node) : Mems × Node :=
  if !wayfareOn n q.net then (m, n)
  else
    let n0 := sessionTick n
    match findSession n0 q with
    | none => (m, wfSend q.net q.client 0 (wfOp q op) q.session q.seq.toNat 0x10 [] n0)
    | some s =>
      let n1 := modSession s.number (fun x => { x with lastReq := n0.now }) n0
      if s.lastSeq = some q.seq then
        match s.resp with
        | some r => (m, wfSend s.net s.client s.ver r.op s.number q.seq.toNat r.status r.payload n1)
        | none => (m, n1)
      else if s.outst.isSome then (m, wfSend s.net s.client s.ver (wfOp q op) s.number q.seq.toNat 4 [] n1)
      else
        let n2 := modSession s.number (fun x => { x with lastSeq := some q.seq, resp := none }) n1
        if q.form ≠ .whole then (m, wfAnswer s (wfOp q op) q.seq 0x11 [] n2)
        else match body s m n2 with
        | .done st pay m3 n3 => (m3, wfAnswer s op q.seq st pay n3)
        | .wait w m3 n3 => (m3, modSession s.number (fun x => { x with outst := some (q.seq, op, w) }) n3)

/-! ### Operations (R119 to R121) -/

/-- Highest Wayfare version (R132). -/
def wfModMax (n : Node) : Nat := if fld n.rev 15 0 < 0x200 then 1 else 2

/-- HELLO: `sess` is the number the module gives the new session (R117). -/
def wfHello (net : Bool) (client minV maxV : Nat) (seq : BitVec 16) (sess : Word) (whole : Bool) (n : Node) : Node :=
  if !wayfareOn n net then n
  else
    let n0 := sessionTick n
    let ver := min maxV (wfModMax n0)
    if !whole then wfSend net client 0 1 0#32 seq.toNat 0x11 [] n0
    else if ver < minV ∨ ver = 0 then wfSend net client 0 1 0#32 seq.toNat 0x12 [] n0
    else if 4 ≤ (n0.wf.filter (fun s => s.net == net)).length then wfSend net client 0 1 0#32 seq.toNat 0x13 [] n0
    else if sess = 0#32 ∨ n0.wf.any (fun s => s.number == sess) then n0
    else
      let pay := [BitVec.ofNat 8 ver, BitVec.ofNat 8 (wfModMax n0), 0#8, 0#8] ++ leBytes 4 sess.toNat ++ leBytes 4 0x4A4D7740
        ++ leBytes 4 n0.rev.toNat
      let s : Session := { net := net, number := sess, client := client, ver := ver, lastReq := n0.now }
      wfSend net client 0 1 0#32 seq.toNat 0 pay { n0 with wf := n0.wf ++ [s] }

/-- CLOSE: answered, then the session and its subscription end. -/
def wfClose (q : WfReq) (n : Node) : Node :=
  if !wayfareOn n q.net then n
  else
    let n0 := sessionTick n
    match findSession n0 q with
    | none => wfSend q.net q.client 0 (wfOp q 2) q.session q.seq.toNat 0x10 [] n0
    | some s =>
      if s.lastSeq = some q.seq then
        match s.resp with
        | some r => wfSend s.net s.client s.ver r.op s.number q.seq.toNat r.status r.payload
            (modSession s.number (fun x => { x with lastReq := n0.now }) n0)
        | none => modSession s.number (fun x => { x with lastReq := n0.now }) n0
      else if s.outst.isSome then
        wfSend s.net s.client s.ver (wfOp q 2) s.number q.seq.toNat 4 [] (modSession s.number (fun x => { x with lastReq := n0.now }) n0)
      else if q.form ≠ .whole then
        wfAnswer s (wfOp q 2) q.seq 0x11 [] (modSession s.number (fun x => { x with lastReq := n0.now, lastSeq := some q.seq }) n0)
      else wfSend s.net s.client s.ver 2 s.number q.seq.toNat 0 [] { n0 with wf := n0.wf.filter (fun x => x.number != s.number) }

/-- Answer of one register access: READ carries its word. -/
def wfAccess (c : Acc) (s : Session) (m : Mems) (n : Node) : WfOut :=
  let w : WfPend := match c with | .rd a => .rd a | .wr a v => .wr a v
  if accWaits n c then .wait w m n
  else
    let o := accDo (netPort s.net) c m n
    if o.fwd then .wait w o.mem (pushFwd (.wf s.number) o.node)
    else .done o.st (match c with | .rd _ => leBytes 4 o.data.toNat | .wr _ _ => []) o.mem o.node

def burstPay (done : List Word) : Bytes := leBytes 2 done.length ++ [0#8, 0#8] ++ done.flatMap (fun w => leBytes 4 w.toNat)

/-- The words of a burst one after another, as far as none crosses a causeway (R120). -/
def burstGo (p : HostPort) (step : Nat) (m : Mems) : Nat → Nat → List Word → Node → WfOut
  | 0, _, done, n => .done 0 (burstPay done) m n
  | k + 1, a, done, n =>
    if accWaits n (.rd a) then .wait (.burst a (k + 1) step done) m n
    else
      let o := readAccess p a m n
      if o.st ≠ 0 then .done o.st (burstPay done) m o.node else burstGo p step m k (a + step) (done ++ [o.data]) o.node

def wfBurst (a count mode : Nat) (s : Session) (m : Mems) (n : Node) : WfOut :=
  if count = 0 ∨ (if s.ver = 1 then 128 else 360) < count ∨ 1 < mode then .done 0x11 [] m n
  else burstGo (netPort s.net) (if mode = 0 then 4 else 0) m count a [] n

def wfPost (ch : Nat) (msg : List Word) (s : Session) (m : Mems) (n : Node) : WfOut :=
  if 32 ≤ ch ∨ msg.length ≠ 16 then .done 0x11 [] m n
  else
    let x := mbPostMsg (portCode (netPort s.net)) ch msg n
    .done x.1 [] m x.2

def wfFetch (ch : Nat) (s : Session) (m : Mems) (n : Node) : WfOut :=
  if 32 ≤ ch then .done 0x11 [] m n
  else if mbMayFetch n (portCode (netPort s.net)) ch then
    .done 0 ((mbSlot n ch).flatMap (fun w => leBytes 4 w.toNat) ++ leBytes 4 (mbAckWord n ch).toNat) m n
  else .done 6 [] m n

/-- SUBSCRIBE (R121, R123). -/
def wfSubscribe (period mode : Nat) (addrs : List Nat) (s : Session) (m : Mems) (n : Node) : WfOut :=
  let bad := period < 1 ∨ 10000 < period ∨ 2 < mode ∨ (mode = 2 ∧ s.ver = 1) ∨ addrs.isEmpty ∨ 120 < addrs.length
    ∨ !addrs.all isValue
  if mode = 0 then .done 0 [] m (modSession s.number (fun x => { x with sub := none }) n)
  else if bad then .done 0x11 [] m n
  else
    let sub : Sub := { period := period, onChange := mode == 2, addrs := addrs, last := addrs.map (fun _ => none) }
    .done 0 [] m (modSession s.number (fun x => { x with sub := some sub }) n)

/-- SNAP: answered once READY is set (R124). -/
def wfSnap (s : Session) (m : Mems) (n : Node) : WfOut := .wait .snap m (snapTrigger (netPort s.net) n)

def snapPay (n : Node) (p : HostPort) : Bytes :=
  let s := (n.port p).snap
  leBytes 8 s.time ++ [s.seq, 0#8, 0#8, 0#8]

/-- Sessions of the port whose SNAP waits are answered. -/
def snapAnswer (n : Node) (s : Session) : Node :=
  match s.outst with
  | some (seq, op, .snap) => wfAnswer s op seq 0 (snapPay n (netPort s.net)) n
  | _ => n

/-- SNAP_COPY_COMPLETE with the answers that wait for it. -/
def snapComplete (p : HostPort) (n : Node) : Node :=
  if (n.port p).snap.copying then
    let n1 := snapDone p n
    (n1.wf.filter (fun s => netPort s.net == p)).foldl snapAnswer n1
  else n

/-- A session's outstanding access ends with this outcome. -/
def wfEnd (s : Session) (seq : BitVec 16) (op : Nat) (st : Nat) (w : WfPend) (data : Word) (n : Node) : Node :=
  wfAnswer s op seq st (match w with
    | .rd _ => leBytes 4 data.toNat
    | .burst _ _ _ done => burstPay done
    | _ => []) n

/-- HOST_ACCESS_COMPLETE of a session. -/
def wfComplete (sess : Word) (m : Mems) (n : Node) : Mems × Node :=
  match n.wf.find? (fun s => s.number == sess) with
  | none => (m, n)
  | some s =>
    match s.outst with
    | none => (m, n)
    | some (seq, op, w) =>
      let p := netPort s.net
      match w with
      | .snap => (m, n)
      | .rd a =>
        let o := readAccess p a m n
        (o.mem, wfEnd s seq op o.st w o.data o.node)
      | .wr a v =>
        if n.net.fwds.contains (.wf sess) then (m, n)
        else
          let o := writeAccess p a v m n
          if o.fwd then (o.mem, pushFwd (.wf sess) o.node) else (o.mem, wfEnd s seq op o.st w 0#32 o.node)
      | .burst a k step done =>
        let o := readAccess p a m n
        if o.st ≠ 0 then (o.mem, wfEnd s seq op o.st w 0#32 o.node)
        else
          match burstGo p step m (k - 1) (a + step) (done ++ [o.data]) o.node with
          | .done st pay m2 n2 => (m2, wfAnswer s op seq st pay n2)
          | .wait w2 m2 n2 => (m2, modSession sess (fun x => { x with outst := some (seq, op, w2) }) n2)

/-! ### Pushes (R121 to R123) -/

/-- What a push compares: sequence number and quality without FRESH. -/
def pushKey (n : Node) (a : Nat) : Byte × Byte := ((n.res a).seq, resQ (n.res a))

def pushEntry (n : Node) (p : HostPort) (ver a : Nat) : Bytes :=
  (if ver = 1 then [] else leBytes 2 a ++ [0#8, 0#8])
    ++ leBytes 4 (valueWord (n.res a)).toNat ++ leBytes 4 (qseqWord (n.res a) (some (portIdx p))).toNat

/-- One session's push at a scan tick. -/
def pushOne (n : Node) (s : Session) : Node :=
  match s.sub with
  | none => n
  | some b =>
    if n.scan.toNat % b.period ≠ 0 then n
    else
      let per := b.periods + 1
      let now := b.addrs.map (pushKey n)
      let chosen := if b.onChange then ((b.addrs.zip (now.zip b.last)).filter (fun x => x.2.2 != some x.2.1)).map (·.1) else b.addrs
      let sends := !b.onChange || !chosen.isEmpty || per % 100 == 0
      let b1 : Sub := { b with periods := per, last := if sends then now.map some else b.last }
      let no := if sends then s.pushNo + 1 else s.pushNo
      let n1 := modSession s.number (fun x => { x with sub := some b1, pushNo := no }) n
      if sends then
        sendFrame (.wayfare s.net) s.client (wfFrame s.ver 0x31 s.number 0 0 2
          (leBytes 4 no ++ leBytes 4 n.scan.toNat ++ leBytes 2 chosen.length ++ [0#8, 0#8]
            ++ chosen.flatMap (pushEntry n (netPort s.net) s.ver))) n1
      else n1

def pushTick (n : Node) : Node := n.wf.foldl pushOne n

end Sys2Proof.Machine
end

