-- ==== Sys2Proof/Machine/Access.lean ====
section
/-! DEFINITION. The other ways to the registers: Modbus TCP (spec/19 R507 to R510), alert acknowledgements (R513), the CAN
service (R518), forwarded writes (spec/17 R451), and accesses that a causeway timeout ends (spec/01 R20). -/

namespace Sys2Proof.Machine
open Sys2Proof

/-! ### Modbus TCP -/

def mbSend (q : MbReq) (pdu : Bytes) (n : Node) : Node :=
  sendFrame (.modbus q.net) q.client
    (beBytes 2 q.tid.toNat ++ [0#8, 0#8] ++ beBytes 2 (pdu.length + 1) ++ [q.unit] ++ pdu) n

/-- An exception answer (R510). -/
def mbExcept (q : MbReq) (func code : Nat) (n : Node) : Node := mbSend q [BitVec.ofNat 8 (func + 128), BitVec.ofNat 8 code] n

/-- Exception of a status of R105. -/
def mbStatus (st : Nat) : Nat := if st = 4 then 6 else 4

/-- A request meets the server: its connection, then its unit identifier (R507, R510). -/
def mbRequest (q : MbReq) (func : Nat) (m : Mems) (body : Node → Mems × Node) (n : Node) : Mems × Node :=
  match modbusConn q.net q.client n.now n with
  | none => (m, n)
  | some n1 => if q.unit ≠ 1#8 ∧ q.unit ≠ 0xFF#8 then (m, mbExcept q func 0x0B n1) else body n1

/-- A holding register (R509). -/
def mbHolding (n : Node) (r : Nat) : Nat :=
  let half (x : Int) : Nat := if r % 2 = 0 then (wi x).toNat / 65536 else (wi x).toNat % 65536
  if r < 64 then half (n.lnC (r / 2)).sp
  else if r < 128 then half (n.lnC ((r - 64) / 2)).man
  else (n.lnC (r - 128)).req % 8

/-- READ_HOLDING_REGISTERS. -/
def mbReadHolding (q : MbReq) (start count : Nat) (m : Mems) (n : Node) : Mems × Node :=
  mbRequest q 3 m (fun n1 =>
    (m, if 160 ≤ start ∨ 160 < start + count then mbExcept q 3 2 n1
        else if count = 0 ∨ 125 < count then mbExcept q 3 3 n1
        else if !n1.isRun (regIsl 0x5C10 false) then mbExcept q 3 4 n1
        else mbSend q ([3#8, BitVec.ofNat 8 (2 * count)] ++ (List.range count).flatMap (fun i => beBytes 2 (mbHolding n1 (start + i)))) n1)) n

/-- An input register: half of a VALUE or QSEQ word, FRESH of the port as it stands (R508). -/
def mbInput (n : Node) (p : HostPort) (r : Nat) : Nat :=
  let a := 4 * (r / 2)
  let w := if isValue a then valueWord (n.res a) else qseqWord (n.res (a - 4)) (some (portIdx p))
  if r % 2 = 0 then w.toNat / 65536 else w.toNat % 65536

/-- READ_INPUT_REGISTERS (R508). -/
def mbReadInput (q : MbReq) (start count : Nat) (m : Mems) (n : Node) : Mems × Node :=
  mbRequest q 4 m (fun n1 =>
    (m, if start % 2 = 1 ∨ !(List.range count).all (fun i => isValue (4 * ((start + i) / 2)) || isQseq (4 * ((start + i) / 2)))
        then mbExcept q 4 2 n1
        else if count % 2 = 1 ∨ count < 2 ∨ 124 < count then mbExcept q 4 3 n1
        else mbSend q ([4#8, BitVec.ofNat 8 (2 * count)]
          ++ (List.range count).flatMap (fun i => beBytes 2 (mbInput n1 (netPort q.net) (start + i)))) n1)) n

/-- The end of a Modbus write: echo of register and value or count, or the exception. -/
def mbWritten (q : MbReq) (func reg arg bad : Nat) (n : Node) : Node :=
  if bad = 0 then mbSend q ([BitVec.ofNat 8 func] ++ beBytes 2 reg ++ beBytes 2 arg) n else mbExcept q func (mbStatus bad) n

/-- The writes of one request, each by the port's identity (R353, R360, R451, R509). -/
def mbWrites (q : MbReq) (func reg arg : Nat) : List (Nat × Word) → Nat → Mems → Node → Mems × Node
  | [], bad, m, n => (m, mbWritten q func reg arg bad n)
  | (a, v) :: r, bad, m, n =>
    let o := writeAccess (netPort q.net) a v m n
    if o.fwd then
      let n1 := pushFwd (.modbus q func reg arg r.isEmpty bad) o.node
      if r.isEmpty then (o.mem, n1) else mbWrites q func reg arg r bad o.mem n1
    else mbWrites q func reg arg r (if bad = 0 then o.st else bad) o.mem o.node

/-- WRITE_SINGLE_REGISTER: mode registers only. -/
def mbWriteSingle (q : MbReq) (reg val : Nat) (m : Mems) (n : Node) : Mems × Node :=
  mbRequest q 6 m (fun n1 =>
    if 160 ≤ reg then (m, mbExcept q 6 2 n1)
    else if reg < 128 then (m, mbExcept q 6 3 n1)
    else mbWrites q 6 reg val [(0x5C08 + (reg - 128) * 0x80, wd (val % 8))] 0 m n1) n

/-- Lane register of a pair of holding registers. -/
def mbPairAddr (r : Nat) : Nat := if r < 64 then 0x5C10 + r / 2 * 0x80 else 0x5C14 + (r - 64) / 2 * 0x80

/-- Lane registers and words of a list of halves, high half first. -/
def mbPairs : Nat → List (BitVec 16) → List (Nat × Word)
  | r, h :: l :: rest => (mbPairAddr r, wd (h.toNat * 65536 + l.toNat)) :: mbPairs (r + 2) rest
  | _, _ => []

/-- WRITE_MULTIPLE_REGISTERS: whole pairs of lane registers. -/
def mbWriteMultiple (q : MbReq) (start : Nat) (vals : List (BitVec 16)) (m : Mems) (n : Node) : Mems × Node :=
  mbRequest q 16 m (fun n1 =>
    if 128 < start + vals.length ∨ 128 ≤ start then (m, mbExcept q 16 2 n1)
    else if vals.length = 0 ∨ 123 < vals.length ∨ start % 2 = 1 ∨ vals.length % 2 = 1 then (m, mbExcept q 16 3 n1)
    else mbWrites q 16 start vals.length (mbPairs start vals) 0 m n1) n

/-! ### Alert acknowledgements (R513) -/

/-- ACN_ACKNOWLEDGE: ACK of the point, ALM_CALL_ACK naming the station; a STANDBY forwards and does not answer. -/
def acnAck (b : Bool) (a : AlertRef) (n : Node) : Node :=
  if !alertOn n b then n
  else if !alertKnown n a then acnDiscard b n
  else if n.pair && n.dup.role == .standby then
    if linkUp n then
      pushFwd .none (match a with
        | .point i => sendFwd (netPort b) 0x6C40 (wd (2 ^ 28 + i.val)) n
        | .call s => sendFwd (netPort b) 0x6C58 (wd s.val) n)
    else n
  else match a with
    | .point i => if almActRefused n 1 i.val then sendArc (alertId a) 0x41#8 (almRefuse n) else almCmdWrite (wd (2 ^ 28 + i.val)) n
    | .call s =>
      let n1 := almCallAckWrite (wd s.val) n
      if n.almRun && callReaches n s.val then n1 else sendArc (alertId a) 0x41#8 n1

/-! ### CAN service (R518) -/

/-- The service's answer: response word and data word. -/
def svcSend (st : Nat) (tag : Byte) (a : Nat) (data : Word) (n : Node) : Node :=
  let w := svcRspWord n
  sendFrame (.can (bitOf w 31)) (fld w 28 0)
    (leBytes 4 (st * 2 ^ 24 + tag.toNat * 65536 + a) ++ leBytes 4 (if st = 0 then data.toNat else 0)) n

/-- A request's access starts. -/
def svcStart (tag : Byte) (c : Acc) (m : Mems) (n : Node) : Mems × Node :=
  if accWaits n c then (m, { n with net.svc := some (tag, c) })
  else
    let o := accDo .m5 c m n
    if o.fwd then (o.mem, pushFwd .svc { o.node with net.svc := some (tag, c) })
    else (o.mem, svcSend o.st tag (accAddr c) o.data o.node)

/-- CAN_SERVICE_REQUEST: command word and data word of R109 in eight bytes; other lengths are discarded. -/
def svcRequest (f : CanFrame) (m : Mems) (n : Node) : Mems × Node :=
  if !canOn n f.port || (n.can f.port).st == 3 || !svcMatch n f || f.data.length != 8 then (m, n)
  else
    let w := w32 f.data 0
    let tag : Byte := BitVec.ofNat 8 (fld w 23 16)
    let a := fld w 14 0
    if n.net.svc.isSome then (m, svcSend 4 tag a 0#32 n)
    else match fld w 31 28 with
      | 0 => (m, svcSend 0 0#8 0 0#32 n)
      | 1 => svcStart tag (.rd a) m n
      | 2 => svcStart tag (.wr a (w32 f.data 4)) m n
      | _ => (m, svcSend 2 tag a 0#32 n)

/-- HOST_ACCESS_COMPLETE of the CAN service. -/
def svcComplete (m : Mems) (n : Node) : Mems × Node :=
  match n.net.svc with
  | some (tag, c) =>
    if n.net.fwds.contains .svc then (m, n)
    else
      let o := accDo .m5 c m n
      if o.fwd then (o.mem, pushFwd .svc o.node)
      else (o.mem, svcSend o.st tag (accAddr c) o.data { o.node with net.svc := none })
  | none => (m, n)

/-- HOST_ACCESS_COMPLETE. -/
def accessComplete (r : AccessRef) (m : Mems) (n : Node) : Mems × Node :=
  match r with
  | .spi => spiComplete m n
  | .wf s => wfComplete s m n
  | .svc => svcComplete m n

/-! ### Accesses that end without being performed (R20, R451) -/

/-- The SPI port's access ends with a status. -/
def spiDrop (st : Nat) (n : Node) : Node :=
  match n.spi.outst with
  | some (tag, c) => spiEnd tag c { st := st, mem := {}, node := n }
  | none => n

def svcDrop (st : Nat) (n : Node) : Node :=
  match n.net.svc with
  | some (tag, c) => svcSend st tag (accAddr c) 0#32 { n with net.svc := none }
  | none => n

def wfDrop (st : Nat) (n : Node) (s : Session) : Node :=
  match s.outst with
  | some (seq, op, w) => wfEnd s seq op st w 0#32 n
  | none => n

/-- The answer to the oldest forwarded write has come (R451). -/
def fwdAnswered (st : Nat) (n : Node) : Node :=
  match n.net.fwds with
  | [] => n
  | o :: r =>
    let n1 : Node := { n with net.fwds := r }
    match o with
    | .spi => spiDrop st n1
    | .svc => svcDrop st n1
    | .wf sess => (n1.wf.filter (fun s => s.number == sess)).foldl (wfDrop st) n1
    | .port p => n1.modPort p (fun q => { q with ans := { q.ans with status := st } })
    | .modbus q func reg arg final bad =>
      let b := if bad = 0 then st else bad
      if final then mbWritten q func reg arg b n1
      else match r with
        | .modbus q2 func2 reg2 arg2 fin2 _ :: r2 => { n1 with net.fwds := .modbus q2 func2 reg2 arg2 fin2 b :: r2 }
        | _ => n1
    | .none => n1

/-- Forwarded writes that wait when the link is lost end with ISLAND_DOWN. -/
def fwdDrop : Nat → Node → Node
  | 0, n => n
  | k + 1, n => fwdDrop k (fwdAnswered 1 n)

def fwdDropAll (n : Node) : Node := if n.dup.lost then fwdDrop n.net.fwds.length n else n

/-- SL_FWD: a write of the partner's host is applied and answered; an answer ends the access that waits for it (R451). -/
def slFwd (f : FwdMsg) (m : Mems) (n : Node) : Mems × Node :=
  if !n.straitOn || !linkUp n then (m, n)
  else match f with
    | .write p a v =>
      let o := partnerWrite p a.toNat v m n
      (o.mem, sendFrame .strait 9 [BitVec.ofNat 8 o.st] o.node)
    | .answer st => (m, fwdAnswered st.toNat n)

/-- The access waits for a crossing into island `i`. -/
def waitsFor (i : Nat) (c : Acc) : Bool :=
  match c with
  | .rd a => regIsl a false == i
  | .wr a _ => regIsl a true == i

def pendWaits (i : Nat) (w : WfPend) : Bool :=
  match w with
  | .rd a => regIsl a false == i
  | .wr a _ => regIsl a true == i
  | .burst a _ _ _ => regIsl a false == i
  | .snap => false

/-- Host accesses that waited on a crossing into island `i` end with ISLAND_DOWN (R20). -/
def dropWaiting (i : Nat) (n : Node) : Node :=
  let n1 := match n.spi.outst with
    | some (_, c) => if waitsFor i c && !n.net.fwds.contains .spi then spiDrop 1 n else n
    | none => n
  let n2 := match n1.net.svc with
    | some (_, c) => if waitsFor i c && !n1.net.fwds.contains .svc then svcDrop 1 n1 else n1
    | none => n1
  (n2.wf.filter (fun s => match s.outst with
    | some (_, _, w) => pendWaits i w && !n2.net.fwds.contains (.wf s.number)
    | none => false)).foldl (wfDrop 1) n2

end Sys2Proof.Machine
end

