-- ==== Sys2Proof/Machine/Settle.lean ====
section
/-! DEFINITION. What follows every command: outputs decided anew, degradation, the recorder's records, OUTCMD frames, alert
sentences; and the wrappers that turn an operation of a chapter into a command's effect. -/

namespace Sys2Proof.Machine
open Sys2Proof

/-! ### Records placed at the end of a command (R495) -/

/-- The payload R495 lists for a type, read when the record is placed. -/
def recPayload (typ : Nat) (n : Node) : Bytes :=
  let w (x : Word) : Bytes := leBytes 4 x.toNat
  match typ with
  | 0x01 => w (resetCauseWord n) ++ w n.rev ++ w (rmOcrc n) ++ w (dtrSum n)
  | 0x02 => w (devStateWord n) ++ w (devStatusWord n)
  | 0x03 => leBytes 4 n.ld.src ++ leBytes 4 (n.ld.err.src * 2 ^ 20 + n.ld.err.leg * 256 + n.ld.err.code) ++ leBytes 4 n.ld.errOfs
      ++ w (rmOcrc n)
  | 0x04 => w (dtrLast n) ++ w (dtrSum n)
  | 0x06 => w (dupStatus n) ++ w n.dup.pRev ++ leBytes 4 n.dev.safeCause
  | 0x0B => leBytes 4 n.dup.fwStat ++ leBytes 4 (Config.fwBuild (n.fwActs + 1)).toNat
  | _ => w (devStatusWord n)
      ++ (List.range 4).flatMap (fun f => w ((digRead n (0x4640 + 4 * f)).getD 0#32)) ++ leBytes 4 n.clk.vbak

/-- One record falls into the ring; with I10 down it is dropped. -/
def recOne (n : Node) (x : Nat × Nat × Option Bytes) : Node :=
  if n.isRun 10 then recPlace x.1 x.2.1 (x.2.2.getD (recPayload x.1 n)) n else recDrop n

/-- The records and occurrences of the command at hand are placed and counted. -/
def recFlush (n : Node) : Node :=
  if n.rcd.due.isEmpty && n.rcd.occ.isEmpty then n
  else
    let n1 := n.rcd.due.foldl recOne { n with rcd.due := [], rcd.occ := [] }
    n.rcd.occ.foldl (fun m x => countOcc x.1 x.2 m) n1

/-! ### The field after a command -/

/-- Input states, interlock terms, station signals, digital and shaped outputs follow every command (R282, R288, R318). -/
def fieldSync (n : Node) : Node := svSync (doSync (wsSync (ilEval (diSync n))))

/-- The end of a command that may touch the plant. -/
def settle (n : Node) : Node := alertFlush (outFlush (recFlush (degradeSync (fieldSync n))))

/-! ### Wrappers -/

/-- An operation on a module that is up; its outputs follow. -/
def plantOp (f : Node → Node) (n : Node) : Node := if n.up then settle (f n) else n

/-- The same at DEVTIME `t`. -/
def plantAt (t : Nat) (f : Node → Node) (n : Node) : Node := if n.up then settle (f (n.advance t)) else n

/-- An operation that also reaches the byte memories. -/
def plantMem (t : Nat) (f : Mems → Node → Mems × Node) (m : Mems) (n : Node) : Mems × Node :=
  if n.up then
    let x := f m (n.advance t)
    (x.1, if x.2.up then settle x.2 else x.2)
  else (m, n)

/-- An access by a port that reaches neither the plant nor a byte memory: its answer and effect. -/
def hostOp (p : HostPort) (c : Acc) (m : Mems) (n : Node) : Mems × Node := if n.up then hostDo p c m n else (m, n)

/-- An access by a port whose effect the plant follows. -/
def hostPlant (t : Nat) (p : HostPort) (c : Acc) (m : Mems) (n : Node) : Mems × Node := plantMem t (hostDo p c) m n

end Sys2Proof.Machine
end

