-- ==== Sys2Proof/Machine/Tick.lean ====
section
/-! DEFINITION. The work of a scan tick and of a fine tick (spec/01 R25, R28; the chapters' per-tick rules). -/

namespace Sys2Proof.Machine
open Sys2Proof

/-! ### Device commands that wait for the tick (R91, R92) -/

/-- RUN is accepted and its wait over: the role is settled (R91, R447). -/
def runDue (n : Node) : Bool := n.dev.pend == .run && n.dev.st == .ready && n.dup.findAt.isNone

def haltDue (n : Node) : Bool := n.dev.pend == .halt && n.running

/-- RUN_ENTRY, where it is due. -/
def runWhenDue (t : Nat) (n : Node) : Node := if runDue n then runEntry t n else n

/-- HALT_EFFECT, where it is due. -/
def haltWhenDue (t : Nat) (n : Node) : Node := if haltDue n then haltEffect t n else n

/-! ### Measurements -/

/-- The tick's measurements reach their registers (R186, R287, R296). -/
def tickMeas (x : ScanMeas) (n : Node) : Node :=
  let n1 := (List.range 16).foldl (fun m k => modEx k (fun e => { e with current := x.exCurrent.getD k 0#32 }) m) n
  let n2 := (List.range 32).foldl (fun m k => modDo k (fun u => { u with mA := x.doCurrent.getD k 0 }) m) n1
  let n3 := (List.range 4).foldl (fun m f => fpSet f (x.fpMv.getD f 0) m) n2
  pinsSet x.pins n3

/-! ### The scan tick -/

/-- Scan tick time: the next multiple of 250,000 counts, or the present one where time has moved past it. -/
def tickTime (per last now : Nat) : Nat := max (last + 1) (now / per) * per

/-- Cycles of time proportioning that start at this tick (R281). -/
def tpTick (t : Nat) (n : Node) : Node := (List.range 32).foldl (fun m k => tpStart k t m) n

/-- State changes of the device at the tick: COMMIT, RUN, HALT, live replacement (R76, R78, R91, R92); a COMMIT due wins
over the rows below it (R83). DESIGN CHOICE (notes/assumptions/21.md): where SAFE, a higher row, has been taken since the tick
before, a COMMIT that waits is not dropped: it begins at this tick from SAFE. -/
def deviceTick (t : Nat) (m : Mems) (n : Node) : Mems × Node :=
  let x := commitBegin m (if commitDue n then n else haltWhenDue t (runWhenDue t n))
  liveReplace x.1 x.2

/-- Work of the roles at the tick, and their checkpoints after it (R28). -/
def roleTick (t : Nat) (n : Node) : Node :=
  let n1 := digScan t (tpTick t (spareTick n))
  let n2 := staleTick (triadTick t n1)
  checkpoint (dspScan (seqScan (almScan t n2)))

/-- The recorder, block controls, ports and mailboxes at the tick. -/
def serviceTick (n : Node) : Node :=
  pushTick (mbUnknown (modbusTick (sessionTick (expertTimeouts (recScan n)))))

/-- SCAN_TICK (R25). -/
def scanTick (x : ScanMeas) (m : Mems) (n : Node) : Mems × Node :=
  let t := tickTime scanPer n.time.lastScan n.now
  let n0 := n.advance t
  let n1 := tickMeas x { n0 with time.lastScan := t / scanPer }
  let y := deviceTick t m (swapExecute t (mirrorTick n1))
  (y.1, serviceTick (roleTick t y.2))

/-! ### The fine tick -/

/-- FINE_TICK (R25): records of changed groups, positions, lanes due, pulse outputs. -/
def fineTick (pins : Word) (n : Node) : Node :=
  let t := tickTime finePer n.time.lastFine n.now
  let n0 := n.advance t
  let n1 := pinsSet pins { n0 with time.lastFine := t / finePer }
  let n2 := pfFine t (digFine t n1)
  sendBeacons (poFine (if n2.dup.taking then n2 else lnFine t n2))

end Sys2Proof.Machine
end

