-- ==== Sys2Proof/Machine/Power.lean ====
section
/-! DEFINITION. Supply, RESET_N, watchdog, resets by the partner, and the clock in a module without supply (spec/03 R82, R88,
R99 to R101; spec/17 R463; spec/18 R471 to R484; spec/20 R524). -/

namespace Sys2Proof.Machine
open Sys2Proof

/-- After a reset the records of its entry are placed and the outputs decided, where logic is up. -/
def afterReset (x : Mems × Node) : Mems × Node := (x.1, if x.2.up then settle x.2 else x.2)

/-- SUPPLY_VALID (R88, R99): only a module that is OFF comes up; with RESET_N low it waits for the release. -/
def supplyValid (roleIn : Bool) (m : Mems) (n : Node) : Mems × Node :=
  if n.dev.st != .off then (m, n)
  else if n.dev.pinLow then (m, { n with dev.st := .boot, dev.cause := 1 })
  else afterReset (resetBoth 1 roleIn m n)

/-- What a module without supply still holds: I11, MRAM, flash, its preferred bank and the detours (R100, R524). -/
def offNode (n : Node) : Node :=
  let b : Node := {}
  { b with time := n.time, clk := clkKeep n.clk, mram := n.mram, dtr.engFuse := n.dtr.engFuse, dtr.engRun := n.dtr.engRun,
           dtr.conv := n.dtr.conv, dtr.rowFuse := n.dtr.rowFuse, dtr.rowRun := n.dtr.rowRun, ld.prefB := n.ld.prefB,
           ld.sel := LoadSrc.none, dev.st := .off, dev.pinLow := n.dev.pinLow, fwActs := n.fwActs, tx := n.tx, free := n.free + cutDraws n }

/-- SUPPLY_INVALID (R524): the operating time is committed on the hold-up; then the module is OFF. -/
def supplyInvalid (m : Mems) (n : Node) : Mems × Node :=
  if n.dev.st = .off then (m, n) else (resetMems m n, offNode (msCommit n))

/-- RESET_N goes low for at least 1 µs, or is released and logic comes up 20 ms later (R99, R101). -/
def resetPin (low roleIn : Bool) (m : Mems) (n : Node) : Mems × Node :=
  if n.dev.pinLow = low then (m, n)
  else if n.dev.st = .off then (m, { n with dev.pinLow := low })
  else if low then
    let x := resetBoth 2 roleIn m n
    (x.1, { x.2 with dev.pinLow := true, rcd.due := [], rcd.occ := [] })
  else
    let x := resetBoth n.dev.cause roleIn m n
    afterReset (x.1, if n.dup.latched then keepOutputs n x.2 else x.2)

/-- WATCHDOG_EXPIRY (R99). -/
def watchdog (roleIn : Bool) (m : Mems) (n : Node) : Mems × Node :=
  if n.up then afterReset (resetBoth 3 roleIn m n) else (m, n)

/-- SL_RESET: a partner's reset command, accepted or not (R463). -/
def partnerReset (roleIn : Bool) (t : Nat) (m : Mems) (n : Node) : Mems × Node :=
  let n1 := n.advance t
  if n.up && peerResetOk n1 then afterReset (resetBoth 5 roleIn m (peerResetCount n1)) else (m, n)

/-- The RESET command of DEV_CTRL: SL_ROLE_IN is read at the reset (R94, R99, R102). -/
def softReset (roleIn : Bool) (p : HostPort) (key : BitVec 16) (m : Mems) (n : Node) : Mems × Node :=
  hostPlant 0 p (.wr 0x24 (wd (key.toNat * 65536 + 5))) m { n with dup.roleIn := roleIn }

/-- A happening of I11: the clock lives on its own supply, the module's registers and events only while it is up
(R471, R482). -/
def clockAt (t : Nat) (f : Node → Node) (n : Node) : Node :=
  if n.up then settle (f (n.advance t))
  else
    let x := f n
    { x with evt := n.evt, rcd := n.rcd, dup := n.dup, tx := n.tx }

end Sys2Proof.Machine
end

