-- ==== Sys2Proof/Machine/Field.lean ====
section
/-! DEFINITION. Happenings that reach more than one chapter: conversions and the interlock comparators they feed (R288),
inputs and the buttons they carry (R387), miswiring (R255, R256), frames on a CAN port (R517, R519). -/

namespace Sys2Proof.Machine
open Sys2Proof

/-- UI_CONVERSION_COMPLETE: the channel publishes; a settled reading reaches its interlock comparators (R158 to R174, R288). -/
def uiStep (c : Nat) (x : UiReading) (t : Nat) (n : Node) : Node :=
  if n.miswired c then uiMiswired c t n
  else
    let n1 := uiConvert c x t n
    let u := n1.uiC c
    if u.cnt != (n.uiC c).cnt && (decide (u.settle ≤ t) || u.src == 1) then ilUi c u.raw n1 else n1

/-- CA_CONVERSION_END: the sample joins its cycle and reaches its interlock comparators (R219, R288). -/
def caStepEnd (c : Nat) (q : Int) (n : Node) : Node :=
  let n1 := caConvEnd c q n
  if (n.caC c).conv.isSome && n.caOn c then ilCa c ((n1.caC c).lastQ - (n1.caC c).q0) n1 else n1

/-- CA_CYCLE_ABANDON: the time-out ends, or the position interface no longer serves (R224). -/
def caAbandonDue (c t : Nat) (n : Node) : Node :=
  let pf := n.pfC (caPf (n.recOf 4 c))
  if (n.caC c).cur.isSome && (caTimedOut n c t || (caMode (n.recOf 4 c) == 2 && (!pfValid n (caPf (n.recOf 4 c)) || pf.still)))
  then caAbandon c n else n

/-- DI_CHANGE_ACCEPTED: the input changes; a closing button presses (R272, R273, R387). -/
def diStep (k : Nat) (lvl : Bool) (t : Nat) (n : Node) : Node :=
  let n1 := diAccept k lvl t n
  if diState n1 k && !diState n k then almPress k n1 else n1

/-- MISWIRE_DETECT (R255, R256): the channel is disconnected. -/
def mwDetect (ch t : Nat) (n : Node) : Node :=
  if !mwExists ch || n.miswired ch then n
  else if 112 ≤ ch then pfMiswire (ch - 112) (mwSet ch n)
  else mwEffect ch t (mwSet ch n)

/-- MISWIRE_RECONNECT (R256). -/
def mwReconnect (ch t : Nat) (n : Node) : Node :=
  if !mwExists ch || !n.miswired ch then n else mwRestore ch t (mwClear ch n)

/-- A mailbox command of the master with identity `id` (R140 to R148): a host port's goes by its registers. -/
def mbBy (id : Nat) (c : Acc) (f : Node → Nat × Node) (m : Mems) (n : Node) : Mems × Node :=
  match id with
  | 1 => hostDo .m1 c m n
  | 2 => hostDo .m2 c m n
  | 3 => hostDo .m3 c m n
  | 5 => hostDo .m5 c m n
  | _ => if n.isRun (idIsland id) then (m, (f n).2) else (m, n)

/-- CAN_FRAME_RECEIVE: imports, raw frames and the service take a frame they match (R516 to R519). -/
def canTake (f : CanFrame) (t : Nat) (m : Mems) (n : Node) : Mems × Node :=
  let n1 := canFrame f t n
  if svcMatch n1 f then svcRequest f m n1 else (m, n1)

/-- CLOCK_SECOND: the count steps; a swap time may have come (R460, R471). -/
def clockSecond (n : Node) : Node :=
  let n1 := clkSecond n
  if n1.up then swapSecond n1 else n1

/-- A second tick of the link: the link is lost and what waited for the partner ends (R130, R445). -/
def linkLoss (t : Nat) (n : Node) : Node :=
  let n1 := linkLost t n
  if n.dup.lost == n1.dup.lost then n1 else fwdDropAll n1

/-- SL_FWIMG: the partner relays a firmware image under link version 2 (R464). -/
def fwRelay (img : Bytes) (m : Mems) (n : Node) : Mems × Node :=
  if !n.straitOn || n.dup.pver < 2 || n.dup.fwRun || fwSize < img.length then (m, n)
  else ({ m with fw := memWrite 0#8 [] 0 img }, { n with dup.fwEnd := img.length, dup.fwStat := 1 })

end Sys2Proof.Machine
end

