-- ==== Sys2Proof/Machine/State.lean ====
section
/-! DEFINITION. The state of the block: the queue of waiting commands, the byte memories, and everything else (`Node`). -/

namespace Sys2Proof.Machine
open Sys2Proof

/-- The whole state. `pending` is the queue of commands, first in, first out (notes/assumptions/1.md). -/
structure State where
  pending : List Instr := []
  mem     : Mems := {}
  node    : Node := {}
  deriving DecidableEq, Repr

/-- Faults of the block. The spec stops the module by no command: raised by no command, and safe for that reason. -/
inductive Fault where
  /-- Raised by no command; safe. -/
  | none
  deriving DecidableEq, Repr

/-- Refusals. -/
inductive Refusal where
  /-- A command without a meaning here. Raised by the dispatch only, for a command named in NOTES.md; safe. -/
  | notModelled (mnemonic : String)
  deriving DecidableEq, Repr

/-- The answer of a command. -/
abbrev Out := Host.Outcome State Fault Refusal

/-- The machine right after a power reset: BOOT, registers at the values of their tables, flash erased, nothing waiting
(R88 step 2, R99, R101; notes/assumptions/5.md). -/
def State.reset : State := { pending := [], mem := {}, node := {} }

end Sys2Proof.Machine
end

