-- ==== Sys2Proof/Machine/Lift.lean ====
section
/-! DEFINITION. From operations on the module to answers of commands; the words that the named register commands write. -/

namespace Sys2Proof.Machine
open Sys2Proof

/-- A command that leaves the byte memories alone. -/
def onNode (f : Node → Node) (s : State) : Out := .next { s with node := f s.node }

/-- A command that may also write a byte memory. -/
def onBoth (f : Mems → Node → Mems × Node) (s : State) : Out :=
  .next { s with mem := (f s.mem s.node).1, node := (f s.mem s.node).2 }

/-- A happening that the plant does not follow, at DEVTIME `t`. -/
def upAt (t : Nat) (f : Node → Node) (n : Node) : Node := if n.up then f (n.advance t) else n

/-- The same for a request that may reach registers of every kind. -/
def upMem (t : Nat) (f : Mems → Node → Mems × Node) (m : Mems) (n : Node) : Mems × Node :=
  if n.up then f m (n.advance t) else (m, n)

/-! ### Words of command registers -/

/-- KEY in bits 31:16 and CMD (RM_CTRL R74, DEV_CTRL R102, DUP_CTRL R469). -/
def keyed (key : BitVec 16) (cmd : Nat) : Word := wd (key.toNat * 65536 + cmd)

/-- ALM_CMD and ALM_XCMD: CMD in bits 31:28, ARG in bits 22:12, INDEX in bits 11:0 (R389). -/
def almCmdWord (cmd arg index : Nat) : Word := wd (cmd * 2 ^ 28 + arg * 4096 + index)

/-- SEQ_CTRL START: STEP in bits 25:16 with AT, bit 26 (R412, R421). -/
def seqStartWord (at_ : Option (BitVec 10)) : Word :=
  match at_ with
  | none => 1#32
  | some k => wd (2 ^ 26 + k.toNat * 65536 + 1)

/-- CLK_CMD: key 0x7A3E, ARG in bits 15:8, CMD in bits 3:0 (R477). -/
def clkWord (cmd arg : Nat) : Word := wd (0x7A3E * 65536 + arg * 256 + cmd)

end Sys2Proof.Machine
end

