-- ==== Sys2Proof/Machine/AlarmCmd.lean ====
section
/-! DEFINITION. Meanings of the commands: The alarm engine (spec/14). One per command, over the shared operations. -/

namespace Sys2Proof.Machine
open Sys2Proof

/-- ON_DELAY_EXPIRY (R384). -/
def execOnDelayExpiry (i : Fin 4096) (t : Nat) (s : State) : Out :=
  onNode (plantAt t (almOnDue i.val t)) s

/-- OFF_DELAY_EXPIRY (R384). -/
def execOffDelayExpiry (i : Fin 4096) (t : Nat) (s : State) : Out :=
  onNode (plantAt t (almOffDue i.val t)) s

/-- SHELVE_EXPIRY (R389). -/
def execShelveExpiry (i : Fin 4096) (t : Nat) (s : State) : Out :=
  onNode (plantAt t (almShelveDue i.val t)) s

/-- GROUP_RELEASE (R391). -/
def execGroupRelease (g : Fin 256) (t : Nat) (s : State) : Out :=
  onNode (plantAt t (groupDue g.val t)) s

/-- ACK (R389). -/
def execAckPt (p : HostPort) (i : Fin 4096) (t : Nat) (s : State) : Out :=
  onBoth (hostPlant t p (.wr 0x6C40 (almCmdWord 1 0 i.val))) s

/-- ACK_GROUP (R389). -/
def execAckGroup (p : HostPort) (g : Fin 256) (t : Nat) (s : State) : Out :=
  onBoth (hostPlant t p (.wr 0x6C40 (almCmdWord 2 0 g.val))) s

/-- ACK_ALL (R389). -/
def execAckAll (p : HostPort) (t : Nat) (s : State) : Out :=
  onBoth (hostPlant t p (.wr 0x6C40 (almCmdWord 3 0 0))) s

/-- ALARM_RESET (R389). -/
def execAlarmReset (p : HostPort) (i : Fin 4096) (t : Nat) (s : State) : Out :=
  onBoth (hostPlant t p (.wr 0x6C40 (almCmdWord 4 0 i.val))) s

/-- SHELVE (R389). -/
def execShelvePt (p : HostPort) (i : Fin 4096) (arg : BitVec 11) (t : Nat) (s : State) : Out :=
  onBoth (hostPlant t p (.wr 0x6C40 (almCmdWord 5 arg.toNat i.val))) s

/-- UNSHELVE (R389). -/
def execUnshelvePt (p : HostPort) (i : Fin 4096) (t : Nat) (s : State) : Out :=
  onBoth (hostPlant t p (.wr 0x6C40 (almCmdWord 6 0 i.val))) s

/-- INHIBIT (R389). -/
def execInhibitPt (p : HostPort) (i : Fin 4096) (t : Nat) (s : State) : Out :=
  onBoth (hostPlant t p (.wr 0x6C40 (almCmdWord 7 0 i.val))) s

/-- RELEASE (R389). -/
def execReleasePt (p : HostPort) (i : Fin 4096) (t : Nat) (s : State) : Out :=
  onBoth (hostPlant t p (.wr 0x6C40 (almCmdWord 8 0 i.val))) s

/-- FO_RESET (R389). -/
def execFoReset (p : HostPort) (g : Fin 256) (t : Nat) (s : State) : Out :=
  onBoth (hostPlant t p (.wr 0x6C40 (almCmdWord 9 0 g.val))) s

/-- OUT_OF_SERVICE (R389). -/
def execOutOfService (p : HostPort) (i : Fin 4096) (t : Nat) (s : State) : Out :=
  onBoth (hostPlant t p (.wr 0x6C44 (almCmdWord 1 0 i.val))) s

/-- RETURN (R389). -/
def execReturnPt (p : HostPort) (i : Fin 4096) (t : Nat) (s : State) : Out :=
  onBoth (hostPlant t p (.wr 0x6C44 (almCmdWord 2 0 i.val))) s

/-- CALL_ESCALATION (R397). -/
def execCallEscalation (t : Nat) (s : State) : Out :=
  onNode (plantAt t (callEscalate t)) s

/-- CALL_RECALL (R398). -/
def execCallRecall (t : Nat) (s : State) : Out :=
  onNode (plantAt t (callRecall t)) s

/-- ALM_CALL_ACK (R398). -/
def execAlmCallAck (p : HostPort) (v : Word) (t : Nat) (s : State) : Out :=
  onBoth (hostPlant t p (.wr 0x6C58 v)) s

/-- ALM_DUTY_WRITE (R395). -/
def execAlmDutyWrite (p : HostPort) (v : Word) (t : Nat) (s : State) : Out :=
  onBoth (hostPlant t p (.wr 0x6C50 v)) s

/-- PATROL_START (R400). -/
def execPatrolStart (p : HostPort) (t : Nat) (s : State) : Out :=
  onBoth (hostPlant t p (.wr 0x6C60 1#32)) s

/-- PATROL_STOP (R400). -/
def execPatrolStop (p : HostPort) (t : Nat) (s : State) : Out :=
  onBoth (hostPlant t p (.wr 0x6C60 2#32)) s

/-- PATROL_PRESS (R400). -/
def execPatrolPress (p : HostPort) (t : Nat) (s : State) : Out :=
  onBoth (hostPlant t p (.wr 0x6C60 4#32)) s

/-- PATROL_PREWARN (R400). -/
def execPatrolPrewarn (t : Nat) (s : State) : Out :=
  onNode (plantAt t (patrolWarn t)) s

/-- PATROL_EXPIRED (R400). -/
def execPatrolExpired (t : Nat) (s : State) : Out :=
  onNode (plantAt t (patrolExpire t)) s

/-- ALM_FIND_WRITE (R404). -/
def execAlmFindWrite (p : HostPort) (v : Word) (s : State) : Out :=
  onBoth (hostOp p (.wr 0x6C68 v)) s

/-- ALM_LOG_IDX_WRITE (R402). -/
def execAlmLogIdxWrite (p : HostPort) (v : Word) (s : State) : Out :=
  onBoth (hostOp p (.wr 0x6CA4 v)) s

/-- ALM_LOG_DATA_READ (R402). -/
def execAlmLogDataRead (p : HostPort) (s : State) : Out :=
  onBoth (hostOp p (.rd 0x6CA8)) s

end Sys2Proof.Machine
end

