-- ==== Sys2Proof/Machine/ChargeCmd.lean ====
section
/-! DEFINITION. Meanings of the commands: Charge channels (spec/08). One per command, over the shared operations. -/

namespace Sys2Proof.Machine
open Sys2Proof

/-- CA_SAMPLE_TRIGGER (R220). -/
def execCaSampleTrigger (n : Fin 16) (t : Nat) (s : State) : Out :=
  onNode (plantAt t (caTrigger n.val t)) s

/-- CA_CONVERSION_END (R220). -/
def execCaConversionEnd (n : Fin 16) (q : Int) (t : Nat) (s : State) : Out :=
  onNode (plantAt t (caStepEnd n.val q)) s

/-- CA_RESET_OPEN (R226). -/
def execCaResetOpen (n : Fin 16) (t : Nat) (s : State) : Out :=
  onNode (plantAt t (caResetOpen n.val t)) s

/-- CA_CYCLE_ABANDON (R224). -/
def execCaCycleAbandon (n : Fin 16) (t : Nat) (s : State) : Out :=
  onNode (plantAt t (caAbandonDue n.val t)) s

/-- CA_RECORD_COMPLETE (R238). -/
def execCaRecordComplete (n : Fin 16) (t : Nat) (s : State) : Out :=
  onNode (plantAt t (caRecord n.val t)) s

/-- CA_RANGE_REQUEST (R239). -/
def execCaRangeRequest (p : HostPort) (n : Fin 16) (v : Word) (s : State) : Out :=
  onBoth (hostPlant 0 p (.wr (0x3024 + 0x40 * n.val) v)) s

/-- BUF_OPEN (R231). -/
def execBufOpen (p : HostPort) (n : Fin 16) (t : Nat) (s : State) : Out :=
  onBoth (upMem t (hostDo p (.wr (0x3034 + 0x40 * n.val) 1#32))) s

/-- BUF_RELEASE (R231). -/
def execBufRelease (p : HostPort) (n : Fin 16) (s : State) : Out :=
  onBoth (hostOp p (.wr (0x3034 + 0x40 * n.val) 2#32)) s

/-- CA_BUF_DATA_READ (R231). -/
def execCaBufDataRead (p : HostPort) (n : Fin 16) (s : State) : Out :=
  onBoth (hostOp p (.rd ((0x303C + 0x40 * n.val)))) s

/-- BUF_HOLD_TIMEOUT (R231). -/
def execBufHoldTimeout (p : HostPort) (n : Fin 16) (t : Nat) (s : State) : Out :=
  onNode (upAt t (caHoldTimeout p n.val t)) s

end Sys2Proof.Machine
end

