-- ==== Sys2Proof/Machine/ClockCmd.lean ====
section
/-! DEFINITION. Meanings of the commands: The calendar clock (spec/18). One per command, over the shared operations. -/

namespace Sys2Proof.Machine
open Sys2Proof

/-- CLOCK_SECOND (R471). -/
def execClockSecond (t : Nat) (s : State) : Out :=
  onNode (clockAt t clockSecond) s

/-- SET_BIN (R477). -/
def execSetBin (p : HostPort) (t : Nat) (s : State) : Out :=
  onBoth (hostPlant t p (.wr 0x1440 (clkWord 1 0))) s

/-- SET_BCD (R477). -/
def execSetBcd (p : HostPort) (t : Nat) (s : State) : Out :=
  onBoth (hostPlant t p (.wr 0x1440 (clkWord 2 0))) s

/-- SET_OFS (R477). -/
def execSetOfs (p : HostPort) (arg : Byte) (t : Nat) (s : State) : Out :=
  onBoth (hostPlant t p (.wr 0x1440 (clkWord 3 arg.toNat))) s

/-- DST_STEP_FWD (R475). -/
def execDstStepFwd (p : HostPort) (t : Nat) (s : State) : Out :=
  onBoth (hostPlant t p (.wr 0x1440 (clkWord 4 0))) s

/-- DST_STEP_BACK (R475). -/
def execDstStepBack (p : HostPort) (t : Nat) (s : State) : Out :=
  onBoth (hostPlant t p (.wr 0x1440 (clkWord 5 0))) s

/-- CAL_SHADOW_READ (R481). -/
def execCalShadowRead (p : HostPort) (k : Fin 4) (t : Nat) (s : State) : Out :=
  onBoth (upMem t (hostDo p (.rd (0x1400 + 4 * k.val)))) s

/-- CAL_DATE_READ (R481). -/
def execCalDateRead (p : HostPort) (t : Nat) (s : State) : Out :=
  onBoth (upMem t (hostDo p (.rd 0x1410))) s

/-- SHADOW_TIMEOUT (R481). -/
def execShadowTimeout (p : HostPort) (t : Nat) (s : State) : Out :=
  onNode (upAt t (shadowExpire (portCode p))) s

/-- OSCILLATOR_STOP (R482). -/
def execOscillatorStop (t : Nat) (s : State) : Out :=
  onNode (clockAt t clkOscStop) s

/-- I11_SUPPLY_DIP (R482). -/
def execI11SupplyDip (dead : Bool) (t : Nat) (s : State) : Out :=
  onNode (clockAt t (clkDip dead)) s

/-- BACKUP_SWITCH (R482). -/
def execBackupSwitch (toVbak : Bool) (t : Nat) (s : State) : Out :=
  onNode (clockAt t (clkSource toVbak)) s

/-- VBAK_MEASURE (R484). -/
def execVbakMeasure (mV : Nat) (t : Nat) (s : State) : Out :=
  onNode (plantAt t (clkVbak mV)) s

end Sys2Proof.Machine
end

