-- ==== Sys2Proof/Machine/DigitalCmd.lean ====
section
/-! DEFINITION. Meanings of the commands: Digital inputs and outputs, sensor supplies, interlock (spec/10). One per command, over the shared operations. -/

namespace Sys2Proof.Machine
open Sys2Proof

/-- DI_CHANGE_ACCEPTED (R273). -/
def execDiChangeAccepted (n : Fin 48) (lvl : Bool) (t : Nat) (s : State) : Out :=
  onNode (plantAt t (diStep n.val lvl t)) s

/-- DI_OPEN_WIRE (R274). -/
def execDiOpenWire (n : Fin 48) (opn : Bool) (t : Nat) (s : State) : Out :=
  onNode (plantAt t (diOpenWire n.val opn)) s

/-- DI_GROUP_OT (R276). -/
def execDiGroupOt (g : Fin 6) (on : Bool) (t : Nat) (s : State) : Out :=
  onNode (plantAt t (diOt g.val on)) s

/-- SS_OVERLOAD (R279). -/
def execSsOverload (n : Fin 6) (t : Nat) (s : State) : Out :=
  onNode (plantAt t (ssOverload n.val t)) s

/-- SS_RETRY (R279). -/
def execSsRetry (n : Fin 6) (ok : Bool) (t : Nat) (s : State) : Out :=
  onNode (plantAt t (ssRetry n.val ok t)) s

/-- DO_CMD_WRITE (R296). -/
def execDoCmdWrite (p : HostPort) (n : Fin 32) (v : Word) (t : Nat) (s : State) : Out :=
  onBoth (hostPlant t p (.wr (0x4404 + 0x10 * n.val) v)) s

/-- TP_CYCLE_START (R281). -/
def execTpCycleStart (n : Fin 32) (t : Nat) (s : State) : Out :=
  onNode (plantAt t (tpStart n.val t)) s

/-- TP_OFF_EDGE (R281). -/
def execTpOffEdge (n : Fin 32) (t : Nat) (s : State) : Out :=
  onNode (plantAt t (tpOffEdge n.val t)) s

/-- DO_OVERLOAD (R283). -/
def execDoOverload (n : Fin 32) (t : Nat) (s : State) : Out :=
  onNode (plantAt t (doOverload n.val)) s

/-- DO_OVERTEMP (R284). -/
def execDoOvertemp (n : Fin 32) (t : Nat) (s : State) : Out :=
  onNode (plantAt t (doOvertemp n.val)) s

/-- DO_OVERTEMP_CLEAR (R284). -/
def execDoOvertempClear (n : Fin 32) (t : Nat) (s : State) : Out :=
  onNode (plantAt t (doOvertempClear n.val)) s

/-- DO_OPEN_WIRE (R285). -/
def execDoOpenWire (n : Fin 32) (which : Bool) (opn : Bool) (t : Nat) (s : State) : Out :=
  onNode (plantAt t (doOpenWire n.val which opn t)) s

/-- DARK_TEST (R286). -/
def execDarkTest (n : Fin 32) (t : Nat) (s : State) : Out :=
  onNode (plantAt t (darkTest n.val t)) s

/-- DARK_TEST_END (R286). -/
def execDarkTestEnd (n : Fin 32) (fell : Bool) (t : Nat) (s : State) : Out :=
  onNode (plantAt t (darkEnd n.val fell t)) s

/-- DO_PULSE_END (R280). -/
def execDoPulseEnd (n : Fin 32) (t : Nat) (s : State) : Out :=
  onNode (plantAt t (doPulseEnd n.val t)) s

/-- IL_RESET_WRITE (R290). -/
def execIlResetWrite (p : HostPort) (v : Word) (t : Nat) (s : State) : Out :=
  onBoth (hostPlant t p (.wr 0x4388 v)) s

/-- FP_OK_CHANGE (R287). -/
def execFpOkChange (f : Fin 4) (mv : Nat) (t : Nat) (s : State) : Out :=
  onNode (plantAt t (fpSet f.val mv)) s

end Sys2Proof.Machine
end

