-- ==== Sys2Proof/Machine/DisplayCmd.lean ====
section
/-! DEFINITION. Meanings of the commands: The annunciator display (spec/16). One per command, over the shared operations. -/

namespace Sys2Proof.Machine
open Sys2Proof

/-- DSP_REDRAW (R432). -/
def execDspRedraw (p : HostPort) (v : Word) (s : State) : Out :=
  onBoth (hostPlant 0 p (.wr 0x7410 v)) s

/-- DSP_FULL (R432). -/
def execDspFull (p : HostPort) (v : Word) (s : State) : Out :=
  onBoth (hostPlant 0 p (.wr 0x7414 v)) s

/-- RENDER_COMPLETE (R435). -/
def execRenderComplete (r : Fin 32) (start : Nat) (t : Nat) (s : State) : Out :=
  onNode (plantAt t (dspRender r.val start t)) s

/-- UPDATE_START (R432). -/
def execUpdateStart (r : Fin 32) (t : Nat) (s : State) : Out :=
  onNode (plantAt t (dspStart r.val t)) s

/-- FRAME_SCAN (R424). -/
def execFrameScan (upsets : List (Nat × Nat)) (t : Nat) (s : State) : Out :=
  onNode (plantAt t (dspFrame upsets t)) s

/-- BIAS_ON (R439). -/
def execBiasOn (p : HostPort) (t : Nat) (s : State) : Out :=
  onBoth (hostPlant t p (.wr 0x7404 1#32)) s

/-- BIAS_OFF (R441). -/
def execBiasOff (p : HostPort) (t : Nat) (s : State) : Out :=
  onBoth (hostPlant t p (.wr 0x7404 2#32)) s

/-- BIAS_RISE_STEP (R439). -/
def execBiasRiseStep (t : Nat) (s : State) : Out :=
  onNode (plantAt t (dspRiseStep t)) s

/-- BIAS_FAULT (R440). -/
def execBiasFault (t : Nat) (s : State) : Out :=
  onNode (plantAt t dspFault) s

/-- DISCHARGE_STEP (R441). -/
def execDischargeStep (t : Nat) (s : State) : Out :=
  onNode (plantAt t (dspDisStep t)) s

end Sys2Proof.Machine
end

