-- ==== Sys2Proof/Machine/DuplexCmd.lean ====
section
/-! DEFINITION. Meanings of the commands: Duplex pairs and self-repair (spec/17). One per command, over the shared operations. -/

namespace Sys2Proof.Machine
open Sys2Proof

/-- SL_HELLO (R449). -/
def execSlHello (h : SlHello) (t : Nat) (s : State) : Out :=
  onNode (plantAt t (slHello h)) s

/-- SL_BEACON (R445). -/
def execSlBeacon (lane : Bool) (ready : Bool) (elig : Bool) (roleIn : Bool) (t : Nat) (s : State) : Out :=
  onNode (plantAt t (slBeacon lane ready elig roleIn t)) s

/-- LINK_LANE_DOWN (R445). -/
def execLinkLaneDown (lane : Bool) (t : Nat) (s : State) : Out :=
  onNode (plantAt t (laneDown lane t)) s

/-- LINK_LOST (R445). -/
def execLinkLost (t : Nat) (s : State) : Out :=
  onNode (plantAt t (linkLoss t)) s

/-- SL_MIRROR (R452). -/
def execSlMirror (lane : Bool) (m : Option Mirror) (t : Nat) (s : State) : Out :=
  onNode (plantAt t (slMirror lane m t)) s

/-- SL_OUTCMD (R452). -/
def execSlOutcmd (c : OutCmd) (t : Nat) (s : State) : Out :=
  onNode (plantAt t (slOutcmd c)) s

/-- SL_SEQSTEP (R452). -/
def execSlSeqstep (q : Fin 8) (step : Nat) (t : Nat) (s : State) : Out :=
  onNode (plantAt t (slSeqstep q.val step)) s

/-- SL_STAND_DOWN (R456). -/
def execSlStandDown (t : Nat) (s : State) : Out :=
  onNode (plantAt t (slStandDown t)) s

/-- SL_SWAP (R460). -/
def execSlSwap (m : SwapMsg) (t : Nat) (s : State) : Out :=
  onNode (plantAt t (slSwap m)) s

/-- SL_IMAGE (R448). -/
def execSlImage (live : Bool) (img : Option Bytes) (t : Nat) (s : State) : Out :=
  onBoth (plantMem t (fun m k => if live then partnerLive (img.getD []) m k else (m, partnerImage img k))) s

/-- SL_FWD (R451). -/
def execSlFwd (f : FwdMsg) (t : Nat) (s : State) : Out :=
  onBoth (plantMem t (slFwd f)) s

/-- SL_RESET (R463). -/
def execSlReset (roleIn : Bool) (t : Nat) (s : State) : Out :=
  onBoth (partnerReset roleIn t) s

/-- SL_FWIMG (R464). -/
def execSlFwimg (img : Bytes) (t : Nat) (s : State) : Out :=
  onBoth (plantMem t (fwRelay img)) s

/-- PARTNER_WAIT_TIMEOUT (R448). -/
def execPartnerWaitTimeout (t : Nat) (s : State) : Out :=
  onNode (plantAt t (partnerWaitOver t)) s

/-- FIND_TIMEOUT (R447). -/
def execFindTimeout (roleIn : Bool) (t : Nat) (s : State) : Out :=
  onNode (plantAt t (findTimeout roleIn t)) s

/-- ROLE_IN_LOW (R456). -/
def execRoleInLow (t : Nat) (s : State) : Out :=
  onNode (plantAt t (roleInLow t)) s

/-- OVERLAP_END (R458). -/
def execOverlapEnd (t : Nat) (s : State) : Out :=
  onNode (plantAt t (overlapEnd t)) s

/-- CROSS_RAMP_COMPLETE (R459). -/
def execCrossRampComplete (t : Nat) (s : State) : Out :=
  onNode (plantAt t (crossRampEnd t)) s

/-- REL_IN_PULSE (R457). -/
def execRelInPulse (t : Nat) (s : State) : Out :=
  onNode (plantAt t relIn) s

/-- HOLD_LATCH_TIMEOUT (R457). -/
def execHoldLatchTimeout (t : Nat) (s : State) : Out :=
  onNode (plantAt t (holdTimeout t)) s

/-- SWAP (R460). -/
def execSwapCmd (p : HostPort) (t : Nat) (s : State) : Out :=
  onBoth (hostPlant t p (.wr 0x7804 (keyed 0x5A5A#16 1))) s

/-- SWAP_EXECUTE (R460). -/
def execSwapExecute (t : Nat) (s : State) : Out :=
  onNode (plantAt t (swapExecute t)) s

/-- RECLAIM (R462). -/
def execReclaimCmd (t : Nat) (s : State) : Out :=
  onNode (plantAt t reclaim) s

/-- PARTNER_RESET (R463). -/
def execPartnerReset (p : HostPort) (t : Nat) (s : State) : Out :=
  onBoth (hostPlant t p (.wr 0x7804 (keyed 0x5A5A#16 2))) s

/-- REJOIN_RESET (R463). -/
def execRejoinReset (t : Nat) (s : State) : Out :=
  onNode (plantAt t (rejoinReset t)) s

/-- FW_DATA_WRITE (R464). -/
def execFwDataWrite (p : HostPort) (v : Word) (s : State) : Out :=
  onBoth (hostPlant 0 p (.wr 0x7844 v)) s

/-- FW_INSTALL (R464). -/
def execFwInstall (p : HostPort) (t : Nat) (s : State) : Out :=
  onBoth (hostPlant t p (.wr 0x7804 (keyed 0x5A5A#16 3))) s

/-- FW_INSTALL_COMPLETE (R464). -/
def execFwInstallComplete (ok : Bool) (t : Nat) (s : State) : Out :=
  onNode (plantAt t (fwComplete ok)) s

/-- FW_ACTIVATE (R464). -/
def execFwActivate (p : HostPort) (t : Nat) (s : State) : Out :=
  onBoth (hostPlant t p (.wr 0x7804 (keyed 0x5A5A#16 4))) s

/-- IMAGE_CHECK (R454). -/
def execImageCheck (ok : Bool) (t : Nat) (s : State) : Out :=
  onNode (plantAt t (fun k => if ok then k else moduleFault 5 k)) s

/-- SELF_TEST_VECTOR (R467). -/
def execSelfTestVector (w : Nat) (pass : Bool) (t : Nat) (s : State) : Out :=
  onNode (plantAt t (selfTest w pass)) s

/-- SL_FRAME_CRC_ERROR (R445). -/
def execSlFrameCrcError (lane : Bool) (t : Nat) (s : State) : Out :=
  onNode (plantAt t (slCrcError lane)) s

end Sys2Proof.Machine
end

