-- ==== Sys2Proof/Machine/EventCmd.lean ====
section
/-! DEFINITION. Meanings of the commands: Events and mailboxes (spec/05). One per command, over the shared operations. -/

namespace Sys2Proof.Machine
open Sys2Proof

/-- EVT_STAT_WRITE (R135). -/
def execEvtStatWrite (p : HostPort) (m : Fin 4) (v : Word) (same : Word) (s : State) : Out :=
  onBoth (hostOp p (.wr (0x0C00 + 4 * m.val) (v &&& ~~~same))) s

/-- EVT_MASK_WRITE (R136). -/
def execEvtMaskWrite (p : HostPort) (m : Fin 4) (v : Word) (s : State) : Out :=
  onBoth (hostOp p (.wr (0x0C10 + 4 * m.val) v)) s

/-- EVT_ROUTE_WRITE (R136). -/
def execEvtRouteWrite (p : HostPort) (m : Fin 16) (v : Word) (s : State) : Out :=
  onBoth (hostOp p (.wr (0x0C40 + 4 * m.val) v)) s

/-- EVT_MSGQ_READ (R139). -/
def execEvtMsgqRead (p : HostPort) (s : State) : Out :=
  onBoth (hostOp p (.rd 0x0D10)) s

/-- EVT_MSG_STAT_WRITE (R141). -/
def execEvtMsgStatWrite (p : HostPort) (v : Word) (s : State) : Out :=
  onBoth (hostOp p (.wr 0x0D14 v)) s

/-- MB_POST (R147). -/
def execMbPost (id : Byte) (ch : Fin 32) (s : State) : Out :=
  onBoth (plantMem 0 (mbBy id.toNat (.wr 0x1100 (wd ch.val)) (mbPost id.toNat ch.val))) s

/-- MB_FETCH (R146). -/
def execMbFetch (id : Byte) (ch : Fin 32) (s : State) : Out :=
  onBoth (plantMem 0 (mbBy id.toNat (.wr 0x1104 (wd ch.val)) (mbFetch id.toNat ch.val))) s

/-- MB_ACK (R148). -/
def execMbAck (id : Byte) (ch : Fin 32) (v : Word) (s : State) : Out :=
  onBoth (plantMem 0 (mbBy id.toNat (.wr (0x1000 + 4 * ch.val) v) (mbAck id.toNat ch.val v))) s

end Sys2Proof.Machine
end

