-- ==== Sys2Proof/Machine/HostCmd.lean ====
section
/-! DEFINITION. Meanings of the commands: The SPI port, Wayfare, snapshots, block controls and register writes (spec/04). One per command, over the shared operations. -/

namespace Sys2Proof.Machine
open Sys2Proof

/-- SPI_NOP (R109). -/
def execSpiNop (op : BitVec 4) (tag : Byte) (addr : BitVec 15) (t : Nat) (s : State) : Out :=
  onBoth (upMem t (spiFrame op.toNat tag addr.toNat 0#32)) s

/-- SPI_READ (R112). -/
def execSpiRead (tag : Byte) (addr : BitVec 15) (t : Nat) (s : State) : Out :=
  onBoth (upMem t (spiFrame 1 tag addr.toNat 0#32)) s

/-- SPI_WRITE (R112). -/
def execSpiWrite (tag : Byte) (addr : BitVec 15) (v : Word) (t : Nat) (s : State) : Out :=
  onBoth (plantMem t (spiFrame 2 tag addr.toNat v)) s

/-- SPI_FRAME_ERROR (R113). -/
def execSpiFrameError (t : Nat) (s : State) : Out :=
  onNode (upAt t spiError) s

/-- HELLO (R117). -/
def execHello (net : Bool) (client : Nat) (ver : VerRange) (seq : BitVec 16) (sess : Word) (whole : Bool) (t : Nat)
    (s : State) : Out :=
  onNode (upAt t (wfHello net client ver.least.toNat ver.most.toNat seq sess whole)) s

/-- CLOSE (R117). -/
def execCloseSess (q : WfReq) (t : Nat) (s : State) : Out :=
  onNode (upAt t (wfClose q)) s

/-- WAYFARE_READ (R119). -/
def execWayfareRead (q : WfReq) (addr : Word) (t : Nat) (s : State) : Out :=
  onBoth (upMem t (wfRequest q 0x10 (wfAccess (.rd addr.toNat)))) s

/-- WAYFARE_WRITE (R119). -/
def execWayfareWrite (q : WfReq) (addr : Word) (v : Word) (t : Nat) (s : State) : Out :=
  onBoth (plantMem t (wfRequest q 0x11 (wfAccess (.wr addr.toNat v)))) s

/-- BURST_READ (R120). -/
def execBurstRead (q : WfReq) (addr : Word) (count : BitVec 16) (mode : BitVec 16) (t : Nat) (s : State) : Out :=
  onBoth (upMem t (wfRequest q 0x12 (wfBurst addr.toNat count.toNat mode.toNat))) s

/-- MBX_POST (R146). -/
def execMbxPost (q : WfReq) (ch : Byte) (msg : List Word) (t : Nat) (s : State) : Out :=
  onBoth (upMem t (wfRequest q 0x20 (wfPost ch.toNat msg))) s

/-- MBX_FETCH (R146). -/
def execMbxFetch (q : WfReq) (ch : Byte) (t : Nat) (s : State) : Out :=
  onBoth (upMem t (wfRequest q 0x21 (wfFetch ch.toNat))) s

/-- SUBSCRIBE (R121). -/
def execSubscribe (q : WfReq) (period : BitVec 16) (mode : Byte) (addrs : List Word) (t : Nat) (s : State) : Out :=
  onBoth (upMem t (wfRequest q 0x30 (wfSubscribe period.toNat mode.toNat (addrs.map (·.toNat))))) s

/-- SNAP (R124). -/
def execSnapOp (q : WfReq) (t : Nat) (s : State) : Out :=
  onBoth (upMem t (wfRequest q 0x40 wfSnap)) s

/-- WAYFARE_BAD_DATAGRAM (R116). -/
def execWayfareBadDatagram (net : Bool) (t : Nat) (s : State) : Out :=
  onNode (upAt t (fun k => raiseIf (wayfareOn k net) 8 k)) s

/-- SESSION_EXPIRY (R117). -/
def execSessionExpiry (sess : Word) (t : Nat) (s : State) : Out :=
  onNode (upAt t (sessionExpiry sess)) s

/-- SNAP_TRIGGER (R124). -/
def execSnapTrigger (p : HostPort) (t : Nat) (s : State) : Out :=
  onBoth (upMem t (hostDo p (.wr 0x1C00 1#32))) s

/-- SNAP_COPY_COMPLETE (R124). -/
def execSnapCopyComplete (p : HostPort) (t : Nat) (s : State) : Out :=
  onNode (upAt t (snapComplete p)) s

/-- SNAP_ADDR_WRITE (R126). -/
def execSnapAddrWrite (p : HostPort) (v : Word) (s : State) : Out :=
  onBoth (hostOp p (.wr 0x1C10 v)) s

/-- SNAP_DATA_READ (R126). -/
def execSnapDataRead (p : HostPort) (s : State) : Out :=
  onBoth (hostOp p (.rd 0x1C14)) s

/-- BLK_CTRL_WRITE (R129). -/
def execBlkCtrlWrite (p : HostPort) (b : Fin 24) (v : Word) (s : State) : Out :=
  onBoth (hostPlant 0 p (.wr (blkAddr.getD b.val 0) v)) s

/-- EXPERT_TIMEOUT (R131). -/
def execExpertTimeout (b : Fin 24) (s : State) : Out :=
  onNode (fun k => if k.up then expertTimeout b.val k else k) s

/-- REGISTER_WRITE (R130). -/
def execRegisterWrite (p : HostPort) (addr : BitVec 15) (v : Word) (t : Nat) (s : State) : Out :=
  onBoth (hostPlant t p (.wr addr.toNat v)) s

end Sys2Proof.Machine
end

