-- ==== Sys2Proof/Machine/InputCmd.lean ====
section
/-! DEFINITION. Meanings of the commands: Universal inputs, cold junctions, excitation supplies (spec/06). One per command, over the shared operations. -/

namespace Sys2Proof.Machine
open Sys2Proof

/-- UI_CONVERSION_COMPLETE (R162). -/
def execUiConversionComplete (n : Fin 64) (own : Int) (byp : Int) (lead : Int) (t : Nat) (s : State) : Out :=
  onNode (plantAt t (uiStep n.val ⟨own, byp, lead⟩ t)) s

/-- UI_FILT_WRITE (R164). -/
def execUiFiltWrite (p : HostPort) (n : Fin 64) (v : Word) (s : State) : Out :=
  onBoth (hostPlant 0 p (.wr (0x2010 + 0x40 * n.val) v)) s

/-- UI_FILTER_RESTART (R164). -/
def execUiFilterRestart (n : Fin 64) (t : Nat) (s : State) : Out :=
  onNode (plantAt t (uiFilterRestart n.val t)) s

/-- UI_FORCE_CTRL_WRITE (R182). -/
def execUiForceCtrlWrite (p : HostPort) (n : Fin 64) (v : Word) (s : State) : Out :=
  onBoth (hostPlant 0 p (.wr (0x202C + 0x40 * n.val) v)) s

/-- CJ_CONVERSION_COMPLETE (R174). -/
def execCjConversionComplete (n : Fin 8) (mC : Int) (t : Nat) (s : State) : Out :=
  onNode (plantAt t (cjConvert n.val mC t)) s

/-- EX_CONVERSION_COMPLETE (R175). -/
def execExConversionComplete (n : Fin 16) (nv : Int) (t : Nat) (s : State) : Out :=
  onNode (plantAt t (exConvert n.val nv t)) s

/-- EX_CTRL_WRITE (R187). -/
def execExCtrlWrite (p : HostPort) (n : Fin 16) (v : Word) (s : State) : Out :=
  onBoth (hostPlant 0 p (.wr (0x3408 + 0x20 * n.val) v)) s

/-- EXC_CHANGE_APPLY (R177). -/
def execExcChangeApply (n : Fin 16) (t : Nat) (s : State) : Out :=
  onNode (plantAt t (exChangeApply n.val t)) s

/-- EXC_SETTLE_END (R177). -/
def execExcSettleEnd (n : Fin 16) (t : Nat) (s : State) : Out :=
  onNode (plantAt t (exSettleEnd n.val t)) s

/-- EX_REG_OK_CHANGE (R181). -/
def execExRegOkChange (n : Fin 16) (ok : Bool) (t : Nat) (s : State) : Out :=
  onNode (plantAt t (exRegOkChange n.val ok t)) s

/-- EX_LIMIT_ONSET (R181). -/
def execExLimitOnset (n : Fin 16) (holds : Bool) (t : Nat) (s : State) : Out :=
  onNode (plantAt t (exLimit n.val holds)) s

/-- EX_SENSE_ERR_ONSET (R181). -/
def execExSenseErrOnset (n : Fin 16) (holds : Bool) (t : Nat) (s : State) : Out :=
  onNode (plantAt t (exSenseErr n.val holds)) s

end Sys2Proof.Machine
end

