-- ==== Sys2Proof/Machine/LaneCmd.lean ====
section
/-! DEFINITION. Meanings of the commands: Control lanes (spec/13). One per command, over the shared operations. -/

namespace Sys2Proof.Machine
open Sys2Proof

/-- LANE_EVALUATION (R355). -/
def execLaneEvaluation (n : Fin 32) (t : Nat) (s : State) : Out :=
  onNode (plantAt t (lnEval n.val t)) s

/-- LN_MODE_REQUEST (R360). -/
def execLnModeRequest (p : HostPort) (n : Fin 32) (v : Word) (s : State) : Out :=
  onBoth (hostPlant 0 p (.wr (0x5C08 + 0x80 * n.val) (v &&& 0xFFFFFEFF#32))) s

/-- APPLY (R375). -/
def execApplyLane (p : HostPort) (n : Fin 32) (s : State) : Out :=
  onBoth (hostPlant 0 p (.wr (0x5C08 + 0x80 * n.val) 0x100#32)) s

/-- FOLLOWING_ERROR (R368). -/
def execFollowingError (n : Fin 32) (t : Nat) (s : State) : Out :=
  onNode (plantAt t (lnFollowDue n.val t)) s

/-- TEST_START (R371). -/
def execTestStart (p : HostPort) (n : Fin 32) (t : Nat) (s : State) : Out :=
  onBoth (hostPlant t p (.wr (0x5C70 + 0x80 * n.val) 1#32)) s

/-- TEST_STOP (R373). -/
def execTestStop (p : HostPort) (n : Fin 32) (t : Nat) (s : State) : Out :=
  onBoth (hostPlant t p (.wr (0x5C70 + 0x80 * n.val) 2#32)) s

/-- LN_CAP_DATA_READ (R374). -/
def execLnCapDataRead (p : HostPort) (n : Fin 32) (s : State) : Out :=
  onBoth (hostOp p (.rd ((0x5C7C + 0x80 * n.val)))) s

end Sys2Proof.Machine
end

