-- ==== Sys2Proof/Machine/LoadCmd.lean ====
section
/-! DEFINITION. Meanings of the commands: Loading, staging, banks, live replacement (spec/02). One per command, over the shared operations. -/

namespace Sys2Proof.Machine
open Sys2Proof

/-- ROUTE_MAP_LOAD (R68). -/
def execRouteMapLoad (flashErr : Bool) (t : Nat) (s : State) : Out :=
  onBoth (plantMem t (fun m k => (m, routeMapLoad flashErr m k))) s

/-- ROUTE_MAP_VERIFY (R68). -/
def execRouteMapVerify (t : Nat) (s : State) : Out :=
  onNode (plantAt t routeMapVerify) s

/-- STG_ADDR_WRITE (R73). -/
def execStgAddrWrite (p : HostPort) (v : Word) (s : State) : Out :=
  onBoth (hostOp p (.wr 0x0840 v)) s

/-- STG_DATA_WRITE (R73). -/
def execStgDataWrite (p : HostPort) (v : Word) (s : State) : Out :=
  onBoth (hostPlant 0 p (.wr 0x0844 v)) s

/-- STG_DATA_READ (R73). -/
def execStgDataRead (p : HostPort) (s : State) : Out :=
  onBoth (hostOp p (.rd 0x0844)) s

/-- CHECK (R74). -/
def execCheckImg (p : HostPort) (key : BitVec 16) (s : State) : Out :=
  onBoth (hostPlant 0 p (.wr 0x0804 (keyed key 1))) s

/-- CHECK_COMPLETE (R75). -/
def execCheckComplete (s : State) : Out :=
  onBoth (plantMem 0 (fun m k => (m, checkComplete m k))) s

/-- COMMIT (R76). -/
def execCommitImg (p : HostPort) (key : BitVec 16) (s : State) : Out :=
  onBoth (hostPlant 0 p (.wr 0x0804 (keyed key 2))) s

/-- PROGRAM_A (R74). -/
def execProgramA (p : HostPort) (key : BitVec 16) (s : State) : Out :=
  onBoth (hostPlant 0 p (.wr 0x0804 (keyed key 3))) s

/-- PROGRAM_B (R74). -/
def execProgramB (p : HostPort) (key : BitVec 16) (s : State) : Out :=
  onBoth (hostPlant 0 p (.wr 0x0804 (keyed key 4))) s

/-- PROGRAM_COMPLETE (R75). -/
def execProgramComplete (ok : Bool) (t : Nat) (s : State) : Out :=
  onBoth (plantMem t (programComplete ok)) s

/-- PREFER_A (R74). -/
def execPreferA (p : HostPort) (key : BitVec 16) (s : State) : Out :=
  onBoth (hostPlant 0 p (.wr 0x0804 (keyed key 5))) s

/-- PREFER_B (R74). -/
def execPreferB (p : HostPort) (key : BitVec 16) (s : State) : Out :=
  onBoth (hostPlant 0 p (.wr 0x0804 (keyed key 6))) s

/-- ABORT (R74). -/
def execAbortImg (p : HostPort) (key : BitVec 16) (s : State) : Out :=
  onBoth (hostPlant 0 p (.wr 0x0804 (keyed key 7))) s

/-- LIVE_DATA_WRITE (R78). -/
def execLiveDataWrite (p : HostPort) (v : Word) (s : State) : Out :=
  onBoth (hostPlant 0 p (.wr 0x0854 v)) s

/-- SUBMIT (R78). -/
def execSubmitLive (p : HostPort) (s : State) : Out :=
  onBoth (hostPlant 0 p (.wr 0x0858 1#32)) s

/-- CANCEL (R78). -/
def execCancelLive (p : HostPort) (s : State) : Out :=
  onBoth (hostPlant 0 p (.wr 0x0858 2#32)) s

/-- LIVE_CHECK_COMPLETE (R78). -/
def execLiveCheckComplete (s : State) : Out :=
  onBoth (plantMem 0 liveCheck) s

/-- LIVE_REPLACEMENT (R79). -/
def execLiveReplacement (t : Nat) (s : State) : Out :=
  onBoth (plantMem t liveReplace) s

end Sys2Proof.Machine
end

