-- ==== Sys2Proof/Machine/LoopCmd.lean ====
section
/-! DEFINITION. Meanings of the commands: Current loops, pulse outputs, HART, miswiring (spec/09). One per command, over the shared operations. -/

namespace Sys2Proof.Machine
open Sys2Proof

/-- LO_DEMAND_WRITE (R249). -/
def execLoDemandWrite (p : HostPort) (n : Fin 16) (v : Word) (s : State) : Out :=
  onBoth (hostPlant 0 p (.wr (0x380C + 0x40 * n.val) v)) s

/-- LO_READBACK (R251). -/
def execLoReadback (n : Fin 16) (mean : Int) (comm : Bool) (t : Nat) (s : State) : Out :=
  onNode (plantAt t (loReadback n.val mean comm t)) s

/-- LO_FIELD_SUPPLY_LOSS (R253). -/
def execLoFieldSupplyLoss (n : Fin 16) (lost : Bool) (t : Nat) (s : State) : Out :=
  onNode (plantAt t (loFieldLoss n.val lost)) s

/-- MISWIRE_DETECT (R255). -/
def execMiswireDetect (ch : Fin 128) (t : Nat) (s : State) : Out :=
  onNode (plantAt t (mwDetect ch.val t)) s

/-- MISWIRE_RECONNECT (R257). -/
def execMiswireReconnect (ch : Fin 128) (t : Nat) (s : State) : Out :=
  onNode (plantAt t (mwReconnect ch.val t)) s

/-- HART_VARIABLE_DUE (R261). -/
def execHartVariableDue (v : Fin 128) (t : Nat) (s : State) : Out :=
  onNode (plantAt t (hartDue v.val)) s

/-- HART_TRANSACTION_COMPLETE (R262). -/
def execHartTransactionComplete (m : Fin 32) (resp : HartResp) (t : Nat) (s : State) : Out :=
  onNode (plantAt t (hartComplete m.val resp t)) s

/-- HART_PASS_THROUGH (R264). -/
def execHartPassThrough (ch : Fin 32) (t : Nat) (s : State) : Out :=
  onNode (plantAt t (hartPassReq ch.val)) s

/-- PO_PERIOD_BOUNDARY (R266). -/
def execPoPeriodBoundary (n : Fin 8) (t : Nat) (s : State) : Out :=
  onNode (plantAt t (poBoundary n.val)) s

/-- PO_PULSE_END (R265). -/
def execPoPulseEnd (n : Fin 8) (t : Nat) (s : State) : Out :=
  onNode (plantAt t (poPulseEnd n.val t)) s

/-- NO_RESPONSE_AFTER_RETRIES (R263). -/
def execNoResponseAfterRetries (m : Fin 32) (t : Nat) (s : State) : Out :=
  onNode (plantAt t (hartNoResp m.val)) s

end Sys2Proof.Machine
end

