-- ==== Sys2Proof/Machine/NetCmd.lean ====
section
/-! DEFINITION. Meanings of the commands: Ethernet, Modbus, alert sentences, CAN (spec/19). One per command, over the shared operations. -/

namespace Sys2Proof.Machine
open Sys2Proof

/-- ETH_LINK_CHANGE (R505). -/
def execEthLinkChange (net : Bool) (up : Bool) (fd : Bool) (t : Nat) (s : State) : Out :=
  onNode (plantAt t (ethLink net up fd)) s

/-- ICMP_ECHO (R504). -/
def execIcmpEcho (net : Bool) (client : Nat) (t : Nat) (s : State) : Out :=
  onNode (upAt t (icmpEcho net client)) s

/-- READ_HOLDING_REGISTERS (R509). -/
def execReadHoldingRegisters (q : MbReq) (start : Nat) (count : Nat) (t : Nat) (s : State) : Out :=
  onBoth (upMem t (mbReadHolding q start count)) s

/-- READ_INPUT_REGISTERS (R508). -/
def execReadInputRegisters (q : MbReq) (start : Nat) (count : Nat) (t : Nat) (s : State) : Out :=
  onBoth (upMem t (mbReadInput q start count)) s

/-- WRITE_SINGLE_REGISTER (R509). -/
def execWriteSingleRegister (q : MbReq) (reg : Nat) (val : Nat) (t : Nat) (s : State) : Out :=
  onBoth (plantMem t (mbWriteSingle q reg val)) s

/-- WRITE_MULTIPLE_REGISTERS (R509). -/
def execWriteMultipleRegisters (q : MbReq) (start : Nat) (vals : List (BitVec 16)) (t : Nat) (s : State) : Out :=
  onBoth (plantMem t (mbWriteMultiple q start vals)) s

/-- MODBUS_IDLE_CLOSE (R507). -/
def execModbusIdleClose (net : Bool) (client : Nat) (t : Nat) (s : State) : Out :=
  onNode (upAt t (modbusIdle net client t)) s

/-- ACN_ACKNOWLEDGE (R513). -/
def execAcnAcknowledge (net : Bool) (a : AlertRef) (t : Nat) (s : State) : Out :=
  onNode (plantAt t (acnAck net a)) s

/-- ACN_REQUEST (R513). -/
def execAcnRequest (net : Bool) (a : Option AlertRef) (t : Nat) (s : State) : Out :=
  onNode (upAt t (acnRequest net a)) s

/-- ACN_OTHER (R513). -/
def execAcnOther (net : Bool) (a : AcnUse) (t : Nat) (s : State) : Out :=
  onNode (upAt t (acnOther net a)) s

/-- ALC_PERIODIC (R512). -/
def execAlcPeriodic (t : Nat) (s : State) : Out :=
  onNode (upAt t alcPeriodic) s

/-- CAN_FRAME_RECEIVE (R516). -/
def execCanFrameReceive (f : CanFrame) (t : Nat) (s : State) : Out :=
  onBoth (plantMem t (canTake f t)) s

/-- CAN_RAW_SEND (R517). -/
def execCanRawSend (ch : Fin 32) (t : Nat) (s : State) : Out :=
  onNode (upAt t (canRawSend ch.val)) s

/-- CAN_SERVICE_REQUEST (R518). -/
def execCanServiceRequest (f : CanFrame) (t : Nat) (s : State) : Out :=
  onBoth (plantMem t (svcRequest f)) s

/-- CAN_BUS_OFF (R514). -/
def execCanBusOff (c : Bool) (t : Nat) (s : State) : Out :=
  onNode (plantAt t (canBusOff c)) s

/-- CAN_BUS_OFF_RECOVERY (R514). -/
def execCanBusOffRecovery (c : Bool) (t : Nat) (s : State) : Out :=
  onNode (plantAt t (canRecover c)) s

/-- ACN_DISCARDED (R513). -/
def execAcnDiscarded (net : Bool) (t : Nat) (s : State) : Out :=
  onNode (upAt t (acnDiscard net)) s

end Sys2Proof.Machine
end

