-- ==== Sys2Proof/Machine/PositionCmd.lean ====
section
/-! DEFINITION. Meanings of the commands: Position interfaces and the compare table (spec/12). One per command, over the shared operations. -/

namespace Sys2Proof.Machine
open Sys2Proof

/-- PF_EDGE (R325). -/
def execPfEdge (n : Fin 8) (e : PfStep) (t : Nat) (s : State) : Out :=
  onNode (plantAt t (pfEdge n.val e t)) s

/-- QUADRATURE_ERROR (R325). -/
def execQuadratureError (n : Fin 8) (e : PfStep) (t : Nat) (s : State) : Out :=
  onNode (plantAt t (pfQuadError n.val e t)) s

/-- HALL_ERROR (R326). -/
def execHallError (n : Fin 8) (e : HallLines) (t : Nat) (s : State) : Out :=
  onNode (plantAt t (pfHallError n.val e.u e.v e.w t)) s

/-- AMPLITUDE_ERROR (R327). -/
def execAmplitudeError (n : Fin 8) (e : SinCos) (t : Nat) (s : State) : Out :=
  onNode (plantAt t (pfAmplError n.val e.sin e.cos)) s

/-- SSI_FRAME_END (R328). -/
def execSsiFrameEnd (n : Fin 8) (frame : SsiFrame) (t : Nat) (s : State) : Out :=
  onNode (plantAt t (pfSsi n.val frame t)) s

/-- PF_RAW_READ (R330). -/
def execPfRawRead (p : HostPort) (n : Fin 8) (s : State) : Out :=
  onBoth (hostOp p (.rd ((0x501C + 0x100 * n.val)))) s

/-- PF_CAP_READ (R343). -/
def execPfCapRead (p : HostPort) (n : Fin 8) (k : Fin 4) (s : State) : Out :=
  onBoth (hostOp p (.rd ((0x5060 + 0x100 * n.val + 0x10 * k.val)))) s

/-- PF_CTRL_CLR (R335). -/
def execPfCtrlClr (p : HostPort) (n : Fin 8) (v : Word) (s : State) : Out :=
  onBoth (hostPlant 0 p (.wr (0x5014 + 0x100 * n.val) v)) s

/-- STILL_TIMEOUT (R337). -/
def execStillTimeout (n : Fin 8) (t : Nat) (s : State) : Out :=
  onNode (plantAt t (pfStill n.val t)) s

/-- CMP_SETPOS (R345). -/
def execCmpSetpos (p : HostPort) (v : Word) (s : State) : Out :=
  onBoth (hostPlant 0 p (.wr 0x5814 v)) s

/-- CMP_SETEN (R345). -/
def execCmpSeten (p : HostPort) (v : Word) (s : State) : Out :=
  onBoth (hostPlant 0 p (.wr 0x5818 v)) s

end Sys2Proof.Machine
end

