-- ==== Sys2Proof/Machine/RecordCmd.lean ====
section
/-! DEFINITION. Meanings of the commands: The recorder (spec/18). One per command, over the shared operations. -/

namespace Sys2Proof.Machine
open Sys2Proof

/-- MILESTONE_COMMIT (R487). -/
def execMilestoneCommit (t : Nat) (s : State) : Out :=
  onNode (upAt t msCommit) s

/-- MS_LO_READ (R488). -/
def execMsLoRead (p : HostPort) (s : State) : Out :=
  onBoth (hostOp p (.rd 0x1814)) s

/-- WINDOW_CLOSE (R490). -/
def execWindowClose (t : Nat) (s : State) : Out :=
  onNode (upAt t windowClose) s

/-- HISTOGRAM_SAMPLE (R492). -/
def execHistogramSample (i : Fin 512) (t : Nat) (s : State) : Out :=
  onNode (upAt t (histSample i.val)) s

/-- STAT_WINDOW_ROLL (R491). -/
def execStatWindowRoll (i : Fin 512) (t : Nat) (s : State) : Out :=
  onNode (upAt t (statRoll i.val)) s

/-- WINDOW_SAMPLE (R495). -/
def execWindowSample (t : Nat) (s : State) : Out :=
  onNode (plantAt t windowSample) s

/-- REC_SEL_WRITE (R497). -/
def execRecSelWrite (p : HostPort) (v : Word) (s : State) : Out :=
  onBoth (hostOp p (.wr 0x1820 v)) s

/-- REC_DATA_READ (R497). -/
def execRecDataRead (p : HostPort) (s : State) : Out :=
  onBoth (hostOp p (.rd 0x1824)) s

/-- ST_SEL_WRITE (R497). -/
def execStSelWrite (p : HostPort) (v : Word) (s : State) : Out :=
  onBoth (hostOp p (.wr 0x1830 v)) s

/-- ST_DATA_READ (R497). -/
def execStDataRead (p : HostPort) (s : State) : Out :=
  onBoth (hostOp p (.rd 0x1834)) s

/-- REC_APPEND (R503). -/
def execRecAppend (p : HostPort) (v : Word) (t : Nat) (s : State) : Out :=
  onBoth (hostPlant t p (.wr 0x1930 v)) s

end Sys2Proof.Machine
end

