-- ==== Sys2Proof/Machine/RoundCmd.lean ====
section
/-! DEFINITION. Meanings of the commands: Bypass converters, watch pairs, triads (spec/07). One per command, over the shared operations. -/

namespace Sys2Proof.Machine
open Sys2Proof

/-- BYPASS_ROUND_START (R193). -/
def execBypassRoundStart (b : Fin 4) (t : Nat) (s : State) : Out :=
  onNode (plantAt t (roundStart b.val t)) s

/-- BYPASS_TAKEOVER (R195). -/
def execBypassTakeover (b : Fin 4) (loopR : Nat) (t : Nat) (s : State) : Out :=
  onNode (plantAt t (takeover b.val loopR t)) s

/-- BYPASS_REFERENCES_DONE (R196). -/
def execBypassReferencesDone (b : Fin 4) (m : RefMeas) (t : Nat) (s : State) : Out :=
  onNode (plantAt t (referencesDone b.val m t)) s

/-- BYPASS_CROSS_CHECK (R197). -/
def execBypassCrossCheck (b : Fin 4) (t : Nat) (s : State) : Out :=
  onNode (plantAt t (crossCheck b.val t)) s

/-- BYPASS_HANDBACK (R194). -/
def execBypassHandback (b : Fin 4) (t : Nat) (s : State) : Out :=
  onNode (plantAt t (handback b.val t)) s

/-- BC_SELF_CAL_COMPLETE (R193). -/
def execBcSelfCalComplete (b : Fin 4) (m : RefMeas) (t : Nat) (s : State) : Out :=
  onNode (plantAt t (bcSelfCal b.val m t)) s

/-- CONVERTER_FAULT (R204). -/
def execConverterFault (n : Fin 64) (t : Nat) (s : State) : Out :=
  onNode (plantAt t (converterFault n.val t)) s

/-- PAIR_WATCH_TIMER (R211). -/
def execPairWatchTimer (k : Fin 64) (t : Nat) (s : State) : Out :=
  onNode (plantAt t (pairTimer k.val t)) s

/-- TRIAD_VOTE (R212). -/
def execTriadVote (k : Fin 16) (t : Nat) (s : State) : Out :=
  onNode (plantAt t (triadDo k.val t)) s

end Sys2Proof.Machine
end

