-- ==== Sys2Proof/Machine/SeqCmd.lean ====
section
/-! DEFINITION. Meanings of the commands: The sequencer (spec/15). One per command, over the shared operations. -/

namespace Sys2Proof.Machine
open Sys2Proof

/-- SEQ_START (R412). -/
def execSeqStart (p : HostPort) (q : Fin 8) (at_ : Option (BitVec 10)) (t : Nat) (s : State) : Out :=
  onBoth (hostPlant t p (.wr (0x7000 + 0x40 * q.val) (seqStartWord at_))) s

/-- SEQ_STOP (R412). -/
def execSeqStop (p : HostPort) (q : Fin 8) (t : Nat) (s : State) : Out :=
  onBoth (hostPlant t p (.wr (0x7000 + 0x40 * q.val) 2#32)) s

/-- SEQ_HOLD (R412). -/
def execSeqHold (p : HostPort) (q : Fin 8) (t : Nat) (s : State) : Out :=
  onBoth (hostPlant t p (.wr (0x7000 + 0x40 * q.val) 3#32)) s

/-- SEQ_RESUME (R412). -/
def execSeqResume (p : HostPort) (q : Fin 8) (t : Nat) (s : State) : Out :=
  onBoth (hostPlant t p (.wr (0x7000 + 0x40 * q.val) 4#32)) s

/-- SEQ_GOTO (R412). -/
def execSeqGoto (p : HostPort) (q : Fin 8) (arg : BitVec 10) (t : Nat) (s : State) : Out :=
  onBoth (hostPlant t p (.wr (0x7000 + 0x40 * q.val) (wd (5 + arg.toNat * 65536)))) s

/-- STEP_TIMEOUT (R408). -/
def execStepTimeout (q : Fin 8) (t : Nat) (s : State) : Out :=
  onNode (plantAt t (sqTimeout q.val)) s

/-- SEQ_TIMER_EXPIRY (R408). -/
def execSeqTimerExpiry (_q : Fin 8) (_k : Fin 4) (t : Nat) (s : State) : Out :=
  onNode (plantAt t (fun x => x)) s

/-- SEQSTEP_ACKNOWLEDGED (R452). -/
def execSeqstepAcknowledged (q : Fin 8) (t : Nat) (s : State) : Out :=
  onNode (plantAt t (sqAcked q.val)) s

end Sys2Proof.Machine
end

