-- ==== Sys2Proof/Machine/ShapedCmd.lean ====
section
/-! DEFINITION. Meanings of the commands: Shaped outputs (spec/11). One per command, over the shared operations. -/

namespace Sys2Proof.Machine
open Sys2Proof

/-- SV_FIRE_WRITE (R310). -/
def execSvFireWrite (p : HostPort) (n : Fin 16) (v : Word) (t : Nat) (s : State) : Out :=
  onBoth (hostPlant t p (.wr (0x4804 + 0x40 * n.val) v)) s

/-- QUEUED_FIRING_START (R314). -/
def execQueuedFiringStart (n : Fin 16) (t : Nat) (s : State) : Out :=
  onNode (plantAt t (svQueued n.val t)) s

/-- END (R304). -/
def execEndIns (n : Fin 16) (t : Nat) (s : State) : Out :=
  onNode (plantAt t (svEnd n.val t)) s

/-- SETI (R304). -/
def execSeti (n : Fin 16) (t : Nat) (s : State) : Out :=
  onNode (plantAt t (svSeti n.val t)) s

/-- RAMP (R304). -/
def execRamp (n : Fin 16) (t : Nat) (s : State) : Out :=
  onNode (plantAt t (svRamp n.val t)) s

/-- WAITT (R304). -/
def execWaitt (n : Fin 16) (t : Nat) (s : State) : Out :=
  onNode (plantAt t (svWaitt n.val t)) s

/-- WAITI (R304). -/
def execWaiti (n : Fin 16) (t : Nat) (s : State) : Out :=
  onNode (plantAt t (svWaiti n.val t)) s

/-- WAITP (R304). -/
def execWaitp (n : Fin 16) (t : Nat) (s : State) : Out :=
  onNode (plantAt t (svWaitp n.val)) s

/-- HOLD (R304). -/
def execHoldIns (n : Fin 16) (t : Nat) (s : State) : Out :=
  onNode (plantAt t (svHold n.val t)) s

/-- FREEW (R304). -/
def execFreew (n : Fin 16) (t : Nat) (s : State) : Out :=
  onNode (plantAt t (svFreew n.val t)) s

/-- QUENCH (R304). -/
def execQuench (n : Fin 16) (t : Nat) (s : State) : Out :=
  onNode (plantAt t (svQuench n.val t)) s

/-- MARK (R304). -/
def execMarkIns (n : Fin 16) (t : Nat) (s : State) : Out :=
  onNode (plantAt t (svMark n.val t)) s

/-- JIF (R304). -/
def execJif (n : Fin 16) (t : Nat) (s : State) : Out :=
  onNode (plantAt t (svJif n.val)) s

/-- LOOP (R306). -/
def execLoopIns (n : Fin 16) (t : Nat) (s : State) : Out :=
  onNode (plantAt t (svLoop n.val t)) s

/-- FLAG (R304). -/
def execFlagIns (n : Fin 16) (t : Nat) (s : State) : Out :=
  onNode (plantAt t (svFlag n.val)) s

/-- ILLEGAL_INSTRUCTION (R309). -/
def execIllegalInstruction (n : Fin 16) (t : Nat) (s : State) : Out :=
  onNode (plantAt t (svIllegalAt n.val t)) s

/-- WAITT_EXPIRY (R304). -/
def execWaittExpiry (n : Fin 16) (t : Nat) (s : State) : Out :=
  onNode (plantAt t (svWaittEnd n.val t)) s

/-- WAITI_MET (R304). -/
def execWaitiMet (n : Fin 16) (t : Nat) (s : State) : Out :=
  onNode (plantAt t (svWaitiMet n.val)) s

/-- WAITI_TIMEOUT (R304). -/
def execWaitiTimeout (n : Fin 16) (t : Nat) (s : State) : Out :=
  onNode (plantAt t (svWaitiTmo n.val t)) s

/-- WAITP_REACHED (R304). -/
def execWaitpReached (n : Fin 16) (t : Nat) (s : State) : Out :=
  onNode (plantAt t (svWaitpDone n.val)) s

/-- WAITP_EARLY_END (R307). -/
def execWaitpEarlyEnd (n : Fin 16) (t : Nat) (s : State) : Out :=
  onNode (plantAt t (svWaitpEarly n.val)) s

/-- HOLD_END (R304). -/
def execHoldEnd (n : Fin 16) (t : Nat) (s : State) : Out :=
  onNode (plantAt t (svHoldEnd n.val t)) s

/-- RAMP_COMPLETE (R304). -/
def execRampComplete (n : Fin 16) (t : Nat) (s : State) : Out :=
  onNode (plantAt t (svRampDone n.val)) s

/-- STAGGER_EXPIRY (R316). -/
def execStaggerExpiry (n : Fin 16) (t : Nat) (s : State) : Out :=
  onNode (plantAt t (svStagger n.val t)) s

/-- SV_OVER_CURRENT (R317). -/
def execSvOverCurrent (n : Fin 16) (t : Nat) (s : State) : Out :=
  onNode (plantAt t (svOverCurrent n.val t)) s

/-- BANK_OVER_CURRENT (R317). -/
def execBankOverCurrent (k : Fin 8) (t : Nat) (s : State) : Out :=
  onNode (plantAt t (bankOverCurrent k.val t)) s

/-- SENSE_SAMPLE (R300). -/
def execSenseSample (n : Fin 16) (mA : Nat) (t : Nat) (s : State) : Out :=
  onNode (plantAt t (svSense n.val mA t)) s

end Sys2Proof.Machine
end

