-- ==== Sys2Proof/Machine/StateCmd.lean ====
section
/-! DEFINITION. Meanings of the commands: Supply, resets, device states (spec/03, spec/20). One per command, over the shared operations. -/

namespace Sys2Proof.Machine
open Sys2Proof

/-- SUPPLY_VALID (R88). -/
def execSupplyValid (roleIn : Bool) (s : State) : Out :=
  onBoth (supplyValid roleIn) s

/-- SUPPLY_INVALID (R524). -/
def execSupplyInvalid (s : State) : Out :=
  onBoth supplyInvalid s

/-- RESET_PIN (R99). -/
def execResetPin (low : Bool) (roleIn : Bool) (s : State) : Out :=
  onBoth (resetPin low roleIn) s

/-- WATCHDOG_EXPIRY (R99). -/
def execWatchdogExpiry (roleIn : Bool) (s : State) : Out :=
  onBoth (watchdog roleIn) s

/-- RUN (R102). -/
def execRunCmd (p : HostPort) (key : BitVec 16) (s : State) : Out :=
  onBoth (hostPlant 0 p (.wr 0x0024 (keyed key 1))) s

/-- RUN_ENTRY (R91). -/
def execRunEntry (t : Nat) (s : State) : Out :=
  onNode (plantAt t (runWhenDue t)) s

/-- HALT (R102). -/
def execHaltCmd (p : HostPort) (key : BitVec 16) (s : State) : Out :=
  onBoth (hostPlant 0 p (.wr 0x0024 (keyed key 2))) s

/-- HALT_EFFECT (R92). -/
def execHaltEffect (t : Nat) (s : State) : Out :=
  onNode (plantAt t (haltWhenDue t)) s

/-- SAFE (R83). -/
def execSafeCmd (p : HostPort) (key : BitVec 16) (s : State) : Out :=
  onBoth (hostPlant 0 p (.wr 0x0024 (keyed key 3))) s

/-- RESET (R99). -/
def execResetCmd (p : HostPort) (key : BitVec 16) (roleIn : Bool) (s : State) : Out :=
  onBoth (softReset roleIn p key) s

/-- INITIAL_CALIBRATION_COMPLETE (R89). -/
def execInitialCalibrationComplete (m : CalMeas) (roleIn : Bool) (t : Nat) (s : State) : Out :=
  onNode (plantAt t (calibrated m roleIn t)) s

/-- FEED_LOST (R524). -/
def execFeedLost (b : Bool) (t : Nat) (s : State) : Out :=
  onNode (plantAt t (feedSet b false)) s

/-- FEED_REGAINED (R524). -/
def execFeedRegained (b : Bool) (t : Nat) (s : State) : Out :=
  onNode (plantAt t (feedSet b true)) s

/-- OVERTEMP_SET (R528). -/
def execOvertempSet (t : Nat) (s : State) : Out :=
  onNode (plantAt t (overtempSet true)) s

/-- OVERTEMP_CLEAR (R528). -/
def execOvertempClear (t : Nat) (s : State) : Out :=
  onNode (plantAt t (overtempSet false)) s

end Sys2Proof.Machine
end

