-- ==== Sys2Proof/Machine/TimeCmd.lean ====
section
/-! DEFINITION. Meanings of the commands: Ticks, islands, engines and the junction (spec/01). One per command, over the shared operations. -/

namespace Sys2Proof.Machine
open Sys2Proof

/-- SCAN_TICK (R25). -/
def execScanTick (x : ScanMeas) (s : State) : Out :=
  onBoth (plantMem 0 (scanTick x)) s

/-- FINE_TICK (R25). -/
def execFineTick (pins : Word) (s : State) : Out :=
  onNode (plantOp (fineTick pins)) s

/-- ISLAND_FAULT (R17). -/
def execIslandFault (i : Fin 12) (t : Nat) (s : State) : Out :=
  onNode (plantAt t (islandFault i.val)) s

/-- CAUSEWAY_TIMEOUT (R20). -/
def execCausewayTimeout (src : Fin 12) (dst : Fin 12) (t : Nat) (s : State) : Out :=
  onNode (plantAt t (fun k => dropWaiting (farEnd src.val dst.val) (causewayTimeout src.val dst.val k))) s

/-- HOST_ACCESS_COMPLETE (R112). -/
def execHostAccessComplete (r : AccessRef) (t : Nat) (s : State) : Out :=
  onBoth (plantMem t (accessComplete r)) s

/-- DEVTIME_LO_READ (R27). -/
def execDevtimeLoRead (p : HostPort) (s : State) : Out :=
  onBoth (hostOp p (.rd 0x0010)) s

/-- DEVTIME_HI_READ (R27). -/
def execDevtimeHiRead (p : HostPort) (s : State) : Out :=
  onBoth (hostOp p (.rd 0x0014)) s

/-- ENGINE_FAILURE (R29). -/
def execEngineFailure (e : Fin 16) (c : EngCause) (t : Nat) (s : State) : Out :=
  onNode (plantAt t (engineFail e.val c)) s

/-- SPARE_START (R29). -/
def execSpareStart (e : Fin 16) (t : Nat) (s : State) : Out :=
  onNode (plantAt t (spareStart e.val)) s

/-- LOCKSTEP_MISMATCH (R32). -/
def execLockstepMismatch (t : Nat) (s : State) : Out :=
  onNode (plantAt t lockstep) s

/-- JUNCTION_DRAIN (R37). -/
def execJunctionDrain (s : State) : Out :=
  onNode (plantOp drain) s

/-- RESULT_VALUE_READ (R47). -/
def execResultValueRead (p : HostPort) (r : Fin 518) (ecc : Ecc) (s : State) : Out :=
  onBoth (plantMem 0 (fun m k => hostDo p (.rd (resAddr r.val)) m (eccOnRead ecc (resAddr r.val) k))) s

/-- RESULT_QSEQ_READ (R47). -/
def execResultQseqRead (p : HostPort) (r : Fin 518) (s : State) : Out :=
  onBoth (hostOp p (.rd ((resAddr r.val + 4)))) s

/-- STALE_TIMEOUT (R210). -/
def execStaleTimeout (r : Fin 518) (t : Nat) (s : State) : Out :=
  onNode (plantAt t (fun k => staleOne k (resAddr r.val))) s

/-- SCRUB_PASS (R466). -/
def execScrubPass (f : ScrubFind) (t : Nat) (s : State) : Out :=
  onNode (plantAt t (scrub f t)) s

end Sys2Proof.Machine
end

