-- ==== Sys2Proof/Machine/Dispatch.lean ====
section
/-! DEFINITION. The dispatch of every command to its meaning, one arm per constructor. -/

namespace Sys2Proof.Machine
open Sys2Proof

def exec (i : Instr) (s : State) : Host.Outcome State Fault Refusal :=
  match i with
  | .scanTick x => Sys2Proof.Machine.execScanTick x s
  | .fineTick pins => Sys2Proof.Machine.execFineTick pins s
  | .islandFault n t => Sys2Proof.Machine.execIslandFault n t s
  | .causewayTimeout src dst t => Sys2Proof.Machine.execCausewayTimeout src dst t s
  | .hostAccessComplete r t => Sys2Proof.Machine.execHostAccessComplete r t s
  | .devtimeLoRead p => Sys2Proof.Machine.execDevtimeLoRead p s
  | .devtimeHiRead p => Sys2Proof.Machine.execDevtimeHiRead p s
  | .engineFailure e c t => Sys2Proof.Machine.execEngineFailure e c t s
  | .spareStart e t => Sys2Proof.Machine.execSpareStart e t s
  | .lockstepMismatch t => Sys2Proof.Machine.execLockstepMismatch t s
  | .junctionDrain => Sys2Proof.Machine.execJunctionDrain s
  | .resultValueRead p r ecc => Sys2Proof.Machine.execResultValueRead p r ecc s
  | .resultQseqRead p r => Sys2Proof.Machine.execResultQseqRead p r s
  | .staleTimeout r t => Sys2Proof.Machine.execStaleTimeout r t s
  | .scrubPass f t => Sys2Proof.Machine.execScrubPass f t s
  | .routeMapLoad flashErr t => Sys2Proof.Machine.execRouteMapLoad flashErr t s
  | .routeMapVerify t => Sys2Proof.Machine.execRouteMapVerify t s
  | .stgAddrWrite p v => Sys2Proof.Machine.execStgAddrWrite p v s
  | .stgDataWrite p v => Sys2Proof.Machine.execStgDataWrite p v s
  | .stgDataRead p => Sys2Proof.Machine.execStgDataRead p s
  | .checkImg p key => Sys2Proof.Machine.execCheckImg p key s
  | .checkComplete => Sys2Proof.Machine.execCheckComplete s
  | .commitImg p key => Sys2Proof.Machine.execCommitImg p key s
  | .programA p key => Sys2Proof.Machine.execProgramA p key s
  | .programB p key => Sys2Proof.Machine.execProgramB p key s
  | .programComplete ok t => Sys2Proof.Machine.execProgramComplete ok t s
  | .preferA p key => Sys2Proof.Machine.execPreferA p key s
  | .preferB p key => Sys2Proof.Machine.execPreferB p key s
  | .abortImg p key => Sys2Proof.Machine.execAbortImg p key s
  | .liveDataWrite p v => Sys2Proof.Machine.execLiveDataWrite p v s
  | .submitLive p => Sys2Proof.Machine.execSubmitLive p s
  | .cancelLive p => Sys2Proof.Machine.execCancelLive p s
  | .liveCheckComplete => Sys2Proof.Machine.execLiveCheckComplete s
  | .liveReplacement t => Sys2Proof.Machine.execLiveReplacement t s
  | .supplyValid roleIn => Sys2Proof.Machine.execSupplyValid roleIn s
  | .supplyInvalid => Sys2Proof.Machine.execSupplyInvalid s
  | .resetPin low roleIn => Sys2Proof.Machine.execResetPin low roleIn s
  | .watchdogExpiry roleIn => Sys2Proof.Machine.execWatchdogExpiry roleIn s
  | .runCmd p key => Sys2Proof.Machine.execRunCmd p key s
  | .runEntry t => Sys2Proof.Machine.execRunEntry t s
  | .haltCmd p key => Sys2Proof.Machine.execHaltCmd p key s
  | .haltEffect t => Sys2Proof.Machine.execHaltEffect t s
  | .safeCmd p key => Sys2Proof.Machine.execSafeCmd p key s
  | .resetCmd p key roleIn => Sys2Proof.Machine.execResetCmd p key roleIn s
  | .initialCalibrationComplete m roleIn t => Sys2Proof.Machine.execInitialCalibrationComplete m roleIn t s
  | .feedLost b t => Sys2Proof.Machine.execFeedLost b t s
  | .feedRegained b t => Sys2Proof.Machine.execFeedRegained b t s
  | .overtempSet t => Sys2Proof.Machine.execOvertempSet t s
  | .overtempClear t => Sys2Proof.Machine.execOvertempClear t s
  | .spiNop op tag addr t => Sys2Proof.Machine.execSpiNop op tag addr t s
  | .spiRead tag addr t => Sys2Proof.Machine.execSpiRead tag addr t s
  | .spiWrite tag addr v t => Sys2Proof.Machine.execSpiWrite tag addr v t s
  | .spiFrameError t => Sys2Proof.Machine.execSpiFrameError t s
  | .hello net client ver seq sess whole t => Sys2Proof.Machine.execHello net client ver seq sess whole t s
  | .closeSess q t => Sys2Proof.Machine.execCloseSess q t s
  | .wayfareRead q addr t => Sys2Proof.Machine.execWayfareRead q addr t s
  | .wayfareWrite q addr v t => Sys2Proof.Machine.execWayfareWrite q addr v t s
  | .burstRead q addr count mode t => Sys2Proof.Machine.execBurstRead q addr count mode t s
  | .mbxPost q ch msg t => Sys2Proof.Machine.execMbxPost q ch msg t s
  | .mbxFetch q ch t => Sys2Proof.Machine.execMbxFetch q ch t s
  | .subscribe q period mode addrs t => Sys2Proof.Machine.execSubscribe q period mode addrs t s
  | .snapOp q t => Sys2Proof.Machine.execSnapOp q t s
  | .wayfareBadDatagram net t => Sys2Proof.Machine.execWayfareBadDatagram net t s
  | .sessionExpiry sess t => Sys2Proof.Machine.execSessionExpiry sess t s
  | .snapTrigger p t => Sys2Proof.Machine.execSnapTrigger p t s
  | .snapCopyComplete p t => Sys2Proof.Machine.execSnapCopyComplete p t s
  | .snapAddrWrite p v => Sys2Proof.Machine.execSnapAddrWrite p v s
  | .snapDataRead p => Sys2Proof.Machine.execSnapDataRead p s
  | .blkCtrlWrite p b v => Sys2Proof.Machine.execBlkCtrlWrite p b v s
  | .expertTimeout b => Sys2Proof.Machine.execExpertTimeout b s
  | .registerWrite p addr v t => Sys2Proof.Machine.execRegisterWrite p addr v t s
  | .evtStatWrite p m v same => Sys2Proof.Machine.execEvtStatWrite p m v same s
  | .evtMaskWrite p m v => Sys2Proof.Machine.execEvtMaskWrite p m v s
  | .evtRouteWrite p m v => Sys2Proof.Machine.execEvtRouteWrite p m v s
  | .evtMsgqRead p => Sys2Proof.Machine.execEvtMsgqRead p s
  | .evtMsgStatWrite p v => Sys2Proof.Machine.execEvtMsgStatWrite p v s
  | .mbPost id ch => Sys2Proof.Machine.execMbPost id ch s
  | .mbFetch id ch => Sys2Proof.Machine.execMbFetch id ch s
  | .mbAck id ch v => Sys2Proof.Machine.execMbAck id ch v s
  | .uiConversionComplete n own byp lead t => Sys2Proof.Machine.execUiConversionComplete n own byp lead t s
  | .uiFiltWrite p n v => Sys2Proof.Machine.execUiFiltWrite p n v s
  | .uiFilterRestart n t => Sys2Proof.Machine.execUiFilterRestart n t s
  | .uiForceCtrlWrite p n v => Sys2Proof.Machine.execUiForceCtrlWrite p n v s
  | .cjConversionComplete n mC t => Sys2Proof.Machine.execCjConversionComplete n mC t s
  | .exConversionComplete n nv t => Sys2Proof.Machine.execExConversionComplete n nv t s
  | .exCtrlWrite p n v => Sys2Proof.Machine.execExCtrlWrite p n v s
  | .excChangeApply n t => Sys2Proof.Machine.execExcChangeApply n t s
  | .excSettleEnd n t => Sys2Proof.Machine.execExcSettleEnd n t s
  | .exRegOkChange n ok t => Sys2Proof.Machine.execExRegOkChange n ok t s
  | .exLimitOnset n holds t => Sys2Proof.Machine.execExLimitOnset n holds t s
  | .exSenseErrOnset n holds t => Sys2Proof.Machine.execExSenseErrOnset n holds t s
  | .bypassRoundStart b t => Sys2Proof.Machine.execBypassRoundStart b t s
  | .bypassTakeover b loopR t => Sys2Proof.Machine.execBypassTakeover b loopR t s
  | .bypassReferencesDone b m t => Sys2Proof.Machine.execBypassReferencesDone b m t s
  | .bypassCrossCheck b t => Sys2Proof.Machine.execBypassCrossCheck b t s
  | .bypassHandback b t => Sys2Proof.Machine.execBypassHandback b t s
  | .bcSelfCalComplete b m t => Sys2Proof.Machine.execBcSelfCalComplete b m t s
  | .converterFault n t => Sys2Proof.Machine.execConverterFault n t s
  | .pairWatchTimer k t => Sys2Proof.Machine.execPairWatchTimer k t s
  | .triadVote k t => Sys2Proof.Machine.execTriadVote k t s
  | .caSampleTrigger n t => Sys2Proof.Machine.execCaSampleTrigger n t s
  | .caConversionEnd n q t => Sys2Proof.Machine.execCaConversionEnd n q t s
  | .caResetOpen n t => Sys2Proof.Machine.execCaResetOpen n t s
  | .caCycleAbandon n t => Sys2Proof.Machine.execCaCycleAbandon n t s
  | .caRecordComplete n t => Sys2Proof.Machine.execCaRecordComplete n t s
  | .caRangeRequest p n v => Sys2Proof.Machine.execCaRangeRequest p n v s
  | .bufOpen p n t => Sys2Proof.Machine.execBufOpen p n t s
  | .bufRelease p n => Sys2Proof.Machine.execBufRelease p n s
  | .caBufDataRead p n => Sys2Proof.Machine.execCaBufDataRead p n s
  | .bufHoldTimeout p n t => Sys2Proof.Machine.execBufHoldTimeout p n t s
  | .loDemandWrite p n v => Sys2Proof.Machine.execLoDemandWrite p n v s
  | .loReadback n mean comm t => Sys2Proof.Machine.execLoReadback n mean comm t s
  | .loFieldSupplyLoss n lost t => Sys2Proof.Machine.execLoFieldSupplyLoss n lost t s
  | .miswireDetect ch t => Sys2Proof.Machine.execMiswireDetect ch t s
  | .miswireReconnect ch t => Sys2Proof.Machine.execMiswireReconnect ch t s
  | .hartVariableDue v t => Sys2Proof.Machine.execHartVariableDue v t s
  | .hartTransactionComplete m resp t => Sys2Proof.Machine.execHartTransactionComplete m resp t s
  | .hartPassThrough ch t => Sys2Proof.Machine.execHartPassThrough ch t s
  | .poPeriodBoundary n t => Sys2Proof.Machine.execPoPeriodBoundary n t s
  | .poPulseEnd n t => Sys2Proof.Machine.execPoPulseEnd n t s
  | .diChangeAccepted n lvl t => Sys2Proof.Machine.execDiChangeAccepted n lvl t s
  | .diOpenWire n opn t => Sys2Proof.Machine.execDiOpenWire n opn t s
  | .diGroupOt g on t => Sys2Proof.Machine.execDiGroupOt g on t s
  | .ssOverload n t => Sys2Proof.Machine.execSsOverload n t s
  | .ssRetry n ok t => Sys2Proof.Machine.execSsRetry n ok t s
  | .doCmdWrite p n v t => Sys2Proof.Machine.execDoCmdWrite p n v t s
  | .tpCycleStart n t => Sys2Proof.Machine.execTpCycleStart n t s
  | .tpOffEdge n t => Sys2Proof.Machine.execTpOffEdge n t s
  | .doOverload n t => Sys2Proof.Machine.execDoOverload n t s
  | .doOvertemp n t => Sys2Proof.Machine.execDoOvertemp n t s
  | .doOvertempClear n t => Sys2Proof.Machine.execDoOvertempClear n t s
  | .doOpenWire n which opn t => Sys2Proof.Machine.execDoOpenWire n which opn t s
  | .darkTest n t => Sys2Proof.Machine.execDarkTest n t s
  | .darkTestEnd n fell t => Sys2Proof.Machine.execDarkTestEnd n fell t s
  | .doPulseEnd n t => Sys2Proof.Machine.execDoPulseEnd n t s
  | .ilResetWrite p v t => Sys2Proof.Machine.execIlResetWrite p v t s
  | .svFireWrite p n v t => Sys2Proof.Machine.execSvFireWrite p n v t s
  | .queuedFiringStart n t => Sys2Proof.Machine.execQueuedFiringStart n t s
  | .endIns n t => Sys2Proof.Machine.execEndIns n t s
  | .seti n t => Sys2Proof.Machine.execSeti n t s
  | .ramp n t => Sys2Proof.Machine.execRamp n t s
  | .waitt n t => Sys2Proof.Machine.execWaitt n t s
  | .waiti n t => Sys2Proof.Machine.execWaiti n t s
  | .waitp n t => Sys2Proof.Machine.execWaitp n t s
  | .holdIns n t => Sys2Proof.Machine.execHoldIns n t s
  | .freew n t => Sys2Proof.Machine.execFreew n t s
  | .quench n t => Sys2Proof.Machine.execQuench n t s
  | .markIns n t => Sys2Proof.Machine.execMarkIns n t s
  | .jif n t => Sys2Proof.Machine.execJif n t s
  | .loopIns n t => Sys2Proof.Machine.execLoopIns n t s
  | .flagIns n t => Sys2Proof.Machine.execFlagIns n t s
  | .illegalInstruction n t => Sys2Proof.Machine.execIllegalInstruction n t s
  | .waittExpiry n t => Sys2Proof.Machine.execWaittExpiry n t s
  | .waitiMet n t => Sys2Proof.Machine.execWaitiMet n t s
  | .waitiTimeout n t => Sys2Proof.Machine.execWaitiTimeout n t s
  | .waitpReached n t => Sys2Proof.Machine.execWaitpReached n t s
  | .waitpEarlyEnd n t => Sys2Proof.Machine.execWaitpEarlyEnd n t s
  | .holdEnd n t => Sys2Proof.Machine.execHoldEnd n t s
  | .rampComplete n t => Sys2Proof.Machine.execRampComplete n t s
  | .staggerExpiry n t => Sys2Proof.Machine.execStaggerExpiry n t s
  | .svOverCurrent n t => Sys2Proof.Machine.execSvOverCurrent n t s
  | .bankOverCurrent k t => Sys2Proof.Machine.execBankOverCurrent k t s
  | .pfEdge n e t => Sys2Proof.Machine.execPfEdge n e t s
  | .quadratureError n e t => Sys2Proof.Machine.execQuadratureError n e t s
  | .hallError n e t => Sys2Proof.Machine.execHallError n e t s
  | .amplitudeError n e t => Sys2Proof.Machine.execAmplitudeError n e t s
  | .ssiFrameEnd n frame t => Sys2Proof.Machine.execSsiFrameEnd n frame t s
  | .pfRawRead p n => Sys2Proof.Machine.execPfRawRead p n s
  | .pfCapRead p n k => Sys2Proof.Machine.execPfCapRead p n k s
  | .pfCtrlClr p n v => Sys2Proof.Machine.execPfCtrlClr p n v s
  | .stillTimeout n t => Sys2Proof.Machine.execStillTimeout n t s
  | .cmpSetpos p v => Sys2Proof.Machine.execCmpSetpos p v s
  | .cmpSeten p v => Sys2Proof.Machine.execCmpSeten p v s
  | .laneEvaluation n t => Sys2Proof.Machine.execLaneEvaluation n t s
  | .lnModeRequest p n v => Sys2Proof.Machine.execLnModeRequest p n v s
  | .applyLane p n => Sys2Proof.Machine.execApplyLane p n s
  | .followingError n t => Sys2Proof.Machine.execFollowingError n t s
  | .testStart p n t => Sys2Proof.Machine.execTestStart p n t s
  | .testStop p n t => Sys2Proof.Machine.execTestStop p n t s
  | .lnCapDataRead p n => Sys2Proof.Machine.execLnCapDataRead p n s
  | .onDelayExpiry n t => Sys2Proof.Machine.execOnDelayExpiry n t s
  | .offDelayExpiry n t => Sys2Proof.Machine.execOffDelayExpiry n t s
  | .shelveExpiry n t => Sys2Proof.Machine.execShelveExpiry n t s
  | .groupRelease g t => Sys2Proof.Machine.execGroupRelease g t s
  | .ackPt p n t => Sys2Proof.Machine.execAckPt p n t s
  | .ackGroup p g t => Sys2Proof.Machine.execAckGroup p g t s
  | .ackAll p t => Sys2Proof.Machine.execAckAll p t s
  | .alarmReset p n t => Sys2Proof.Machine.execAlarmReset p n t s
  | .shelvePt p n arg t => Sys2Proof.Machine.execShelvePt p n arg t s
  | .unshelvePt p n t => Sys2Proof.Machine.execUnshelvePt p n t s
  | .inhibitPt p n t => Sys2Proof.Machine.execInhibitPt p n t s
  | .releasePt p n t => Sys2Proof.Machine.execReleasePt p n t s
  | .foReset p g t => Sys2Proof.Machine.execFoReset p g t s
  | .outOfService p n t => Sys2Proof.Machine.execOutOfService p n t s
  | .returnPt p n t => Sys2Proof.Machine.execReturnPt p n t s
  | .callEscalation t => Sys2Proof.Machine.execCallEscalation t s
  | .callRecall t => Sys2Proof.Machine.execCallRecall t s
  | .almCallAck p v t => Sys2Proof.Machine.execAlmCallAck p v t s
  | .almDutyWrite p v t => Sys2Proof.Machine.execAlmDutyWrite p v t s
  | .patrolStart p t => Sys2Proof.Machine.execPatrolStart p t s
  | .patrolStop p t => Sys2Proof.Machine.execPatrolStop p t s
  | .patrolPress p t => Sys2Proof.Machine.execPatrolPress p t s
  | .patrolPrewarn t => Sys2Proof.Machine.execPatrolPrewarn t s
  | .patrolExpired t => Sys2Proof.Machine.execPatrolExpired t s
  | .almFindWrite p v => Sys2Proof.Machine.execAlmFindWrite p v s
  | .almLogIdxWrite p v => Sys2Proof.Machine.execAlmLogIdxWrite p v s
  | .almLogDataRead p => Sys2Proof.Machine.execAlmLogDataRead p s
  | .seqStart p q at_ t => Sys2Proof.Machine.execSeqStart p q at_ t s
  | .seqStop p q t => Sys2Proof.Machine.execSeqStop p q t s
  | .seqHold p q t => Sys2Proof.Machine.execSeqHold p q t s
  | .seqResume p q t => Sys2Proof.Machine.execSeqResume p q t s
  | .seqGoto p q arg t => Sys2Proof.Machine.execSeqGoto p q arg t s
  | .stepTimeout q t => Sys2Proof.Machine.execStepTimeout q t s
  | .seqTimerExpiry q k t => Sys2Proof.Machine.execSeqTimerExpiry q k t s
  | .dspRedraw p v => Sys2Proof.Machine.execDspRedraw p v s
  | .dspFull p v => Sys2Proof.Machine.execDspFull p v s
  | .renderComplete r start t => Sys2Proof.Machine.execRenderComplete r start t s
  | .updateStart r t => Sys2Proof.Machine.execUpdateStart r t s
  | .frameScan upsets t => Sys2Proof.Machine.execFrameScan upsets t s
  | .biasOn p t => Sys2Proof.Machine.execBiasOn p t s
  | .biasOff p t => Sys2Proof.Machine.execBiasOff p t s
  | .biasRiseStep t => Sys2Proof.Machine.execBiasRiseStep t s
  | .biasFault t => Sys2Proof.Machine.execBiasFault t s
  | .dischargeStep t => Sys2Proof.Machine.execDischargeStep t s
  | .slHello h t => Sys2Proof.Machine.execSlHello h t s
  | .slBeacon lane ready elig roleIn t => Sys2Proof.Machine.execSlBeacon lane ready elig roleIn t s
  | .linkLaneDown lane t => Sys2Proof.Machine.execLinkLaneDown lane t s
  | .linkLost t => Sys2Proof.Machine.execLinkLost t s
  | .slMirror lane m t => Sys2Proof.Machine.execSlMirror lane m t s
  | .slOutcmd c t => Sys2Proof.Machine.execSlOutcmd c t s
  | .slSeqstep q step t => Sys2Proof.Machine.execSlSeqstep q step t s
  | .slStandDown t => Sys2Proof.Machine.execSlStandDown t s
  | .slSwap m t => Sys2Proof.Machine.execSlSwap m t s
  | .slImage live img t => Sys2Proof.Machine.execSlImage live img t s
  | .slFwd f t => Sys2Proof.Machine.execSlFwd f t s
  | .slReset roleIn t => Sys2Proof.Machine.execSlReset roleIn t s
  | .slFwimg img t => Sys2Proof.Machine.execSlFwimg img t s
  | .partnerWaitTimeout t => Sys2Proof.Machine.execPartnerWaitTimeout t s
  | .findTimeout roleIn t => Sys2Proof.Machine.execFindTimeout roleIn t s
  | .roleInLow t => Sys2Proof.Machine.execRoleInLow t s
  | .overlapEnd t => Sys2Proof.Machine.execOverlapEnd t s
  | .crossRampComplete t => Sys2Proof.Machine.execCrossRampComplete t s
  | .relInPulse t => Sys2Proof.Machine.execRelInPulse t s
  | .holdLatchTimeout t => Sys2Proof.Machine.execHoldLatchTimeout t s
  | .swapCmd p t => Sys2Proof.Machine.execSwapCmd p t s
  | .swapExecute t => Sys2Proof.Machine.execSwapExecute t s
  | .reclaimCmd t => Sys2Proof.Machine.execReclaimCmd t s
  | .partnerReset p t => Sys2Proof.Machine.execPartnerReset p t s
  | .rejoinReset t => Sys2Proof.Machine.execRejoinReset t s
  | .fwDataWrite p v => Sys2Proof.Machine.execFwDataWrite p v s
  | .fwInstall p t => Sys2Proof.Machine.execFwInstall p t s
  | .fwInstallComplete ok t => Sys2Proof.Machine.execFwInstallComplete ok t s
  | .fwActivate p t => Sys2Proof.Machine.execFwActivate p t s
  | .imageCheck ok t => Sys2Proof.Machine.execImageCheck ok t s
  | .selfTestVector w pass t => Sys2Proof.Machine.execSelfTestVector w pass t s
  | .clockSecond t => Sys2Proof.Machine.execClockSecond t s
  | .setBin p t => Sys2Proof.Machine.execSetBin p t s
  | .setBcd p t => Sys2Proof.Machine.execSetBcd p t s
  | .setOfs p arg t => Sys2Proof.Machine.execSetOfs p arg t s
  | .dstStepFwd p t => Sys2Proof.Machine.execDstStepFwd p t s
  | .dstStepBack p t => Sys2Proof.Machine.execDstStepBack p t s
  | .calShadowRead p k t => Sys2Proof.Machine.execCalShadowRead p k t s
  | .calDateRead p t => Sys2Proof.Machine.execCalDateRead p t s
  | .shadowTimeout p t => Sys2Proof.Machine.execShadowTimeout p t s
  | .oscillatorStop t => Sys2Proof.Machine.execOscillatorStop t s
  | .i11SupplyDip dead t => Sys2Proof.Machine.execI11SupplyDip dead t s
  | .backupSwitch toVbak t => Sys2Proof.Machine.execBackupSwitch toVbak t s
  | .vbakMeasure mV t => Sys2Proof.Machine.execVbakMeasure mV t s
  | .milestoneCommit t => Sys2Proof.Machine.execMilestoneCommit t s
  | .msLoRead p => Sys2Proof.Machine.execMsLoRead p s
  | .windowClose t => Sys2Proof.Machine.execWindowClose t s
  | .histogramSample n t => Sys2Proof.Machine.execHistogramSample n t s
  | .statWindowRoll n t => Sys2Proof.Machine.execStatWindowRoll n t s
  | .windowSample t => Sys2Proof.Machine.execWindowSample t s
  | .recSelWrite p v => Sys2Proof.Machine.execRecSelWrite p v s
  | .recDataRead p => Sys2Proof.Machine.execRecDataRead p s
  | .stSelWrite p v => Sys2Proof.Machine.execStSelWrite p v s
  | .stDataRead p => Sys2Proof.Machine.execStDataRead p s
  | .recAppend p v t => Sys2Proof.Machine.execRecAppend p v t s
  | .ethLinkChange net up fd t => Sys2Proof.Machine.execEthLinkChange net up fd t s
  | .icmpEcho net client t => Sys2Proof.Machine.execIcmpEcho net client t s
  | .readHoldingRegisters q start count t => Sys2Proof.Machine.execReadHoldingRegisters q start count t s
  | .readInputRegisters q start count t => Sys2Proof.Machine.execReadInputRegisters q start count t s
  | .writeSingleRegister q reg val t => Sys2Proof.Machine.execWriteSingleRegister q reg val t s
  | .writeMultipleRegisters q start vals t => Sys2Proof.Machine.execWriteMultipleRegisters q start vals t s
  | .modbusIdleClose net client t => Sys2Proof.Machine.execModbusIdleClose net client t s
  | .acnAcknowledge net a t => Sys2Proof.Machine.execAcnAcknowledge net a t s
  | .acnRequest net a t => Sys2Proof.Machine.execAcnRequest net a t s
  | .acnOther net a t => Sys2Proof.Machine.execAcnOther net a t s
  | .alcPeriodic t => Sys2Proof.Machine.execAlcPeriodic t s
  | .canFrameReceive f t => Sys2Proof.Machine.execCanFrameReceive f t s
  | .canRawSend ch t => Sys2Proof.Machine.execCanRawSend ch t s
  | .canServiceRequest f t => Sys2Proof.Machine.execCanServiceRequest f t s
  | .canBusOff c t => Sys2Proof.Machine.execCanBusOff c t s
  | .canBusOffRecovery c t => Sys2Proof.Machine.execCanBusOffRecovery c t s
  | .slFrameCrcError lane t => Sys2Proof.Machine.execSlFrameCrcError lane t s
  | .seqstepAcknowledged q t => Sys2Proof.Machine.execSeqstepAcknowledged q t s
  | .noResponseAfterRetries m t => Sys2Proof.Machine.execNoResponseAfterRetries m t s
  | .senseSample n mA t => Sys2Proof.Machine.execSenseSample n mA t s
  | .fpOkChange f mv t => Sys2Proof.Machine.execFpOkChange f mv t s
  | .acnDiscarded net t => Sys2Proof.Machine.execAcnDiscarded net t s

end Sys2Proof.Machine
end

