-- ==== Sys2Proof/Safety.lean ====
section
/-! DEFINITION. The terms in which statements about the module are made: completing a command, an access that a host port
carries out, the canonical form of the byte memories, and what a command leaves as it was. -/

namespace Sys2Proof.Machine
open Sys2Proof

/-! ### Completing -/

/-- The answer is a next state, and `P` holds of it. -/
def Ends (o : Out) (P : State → Prop) : Prop := ∃ t, o = .next t ∧ P t

/-- A write of the register at `a` through a host port is carried out in this module: it is up, the write is not handed to
the partner (R451), the register's island runs (R106), and the level check passes (R130). -/
def Takes (s : State) (a : Nat) : Prop :=
  s.node.up = true ∧ forwards s.node a = false ∧ s.node.isRun (regIsl a true) = true
    ∧ ((regAttr a).any (fun x => levelLocked s.node a x)) = false

/-- A read of the register at `a` through a host port is carried out: the module is up and the register's island runs. -/
def Serves (s : State) (a : Nat) : Prop := s.node.up = true ∧ s.node.isRun (regIsl a false) = true

/-- What port `p` was answered last: status of R105, address, data. -/
def Answered (t : State) (p : HostPort) (status addr : Nat) (data : Word) : Prop :=
  (t.node.port p).ans = { status := status, addr := addr, data := data }

/-- The write of port `p` was answered: done (status 0 of R105). -/
def Acks (t : State) (p : HostPort) (addr : Nat) : Prop := Answered t p 0 addr 0#32

/-- DEVTIME after a happening at `t` (R23). -/
def timeAfter (s : State) (t : Nat) : Nat := max s.node.time.devtime t

/-- The module has come up in BOOT from a reset by `cause` (1 POWER, 2 PIN, 3 WDOG, 4 SOFT, 5 PARTNER): DEVTIME 0, no image, no
binding lock, staging areas empty, nothing waiting; the preferred bank, the detours and the calendar's count stand (R99 to
R101). -/
def Booted (cause : Nat) (s t : State) : Prop :=
  t.node.dev.st = .boot ∧ t.node.dev.prev = .off ∧ t.node.dev.cause = cause ∧ t.node.dev.pend = .none ∧ t.node.time.devtime = 0
    ∧ t.node.ld.img = none ∧ t.node.ld.lock = none ∧ t.node.ld.stgState = 0 ∧ t.node.ld.prefB = s.node.ld.prefB
    ∧ t.mem.staging = [] ∧ t.mem.live = [] ∧ t.mem.liveEnd = 0
    ∧ (s.node.ld.stgState ≠ 5 → t.mem.flashA = s.mem.flashA ∧ t.mem.flashB = s.mem.flashB)
    ∧ t.node.dtr.conv = s.node.dtr.conv ∧ t.node.dtr.engRun = s.node.dtr.engRun ∧ t.node.clk.secs = s.node.clk.secs ∧ t.node.evt.flag 0 = true

/-- A whole request of session `x` that is not a repeat and meets no outstanding access (R117 to R119). -/
def Fresh (q : WfReq) (s : State) (t : Nat) (x : Session) : Prop :=
  s.node.up = true ∧ wayfareOn s.node q.net = true ∧ q.form = .whole ∧ findSession (sessionTick (s.node.advance t)) q = some x
    ∧ x.lastSeq ≠ some q.seq ∧ x.outst = none

/-- The module on which such a request is executed: sessions past their 30 s are gone, the request is noted (R117, R118). -/
def wfNode (q : WfReq) (s : State) (t : Nat) (x : Session) : Node :=
  modSession x.number (fun y => { y with lastSeq := some q.seq, resp := none })
    (modSession x.number (fun y => { y with lastReq := timeAfter s t }) (sessionTick (s.node.advance t)))

/-- The session's answer to this request, kept for a repeat. -/
def Responded (u : State) (x : Session) (q : WfReq) (op st : Nat) (pay : Bytes) : Prop :=
  ∃ y ∈ u.node.wf, y.number = x.number ∧ y.client = x.client ∧ y.lastSeq = some q.seq
    ∧ y.resp = some { op := op, status := st, payload := pay } ∧ y.outst = none

/-- This Wayfare response was sent to the client of the request. -/
def Replied (u : State) (q : WfReq) (ver op : Nat) (sess : Word) (st : Nat) (pay : Bytes) : Prop :=
  { chan := .wayfare q.net, dest := q.client, bytes := wfFrame ver op sess q.seq.toNat st 1 pay } ∈ u.node.tx

/-- The session waits for the access of this request. -/
def Waits (u : State) (x : Session) (q : WfReq) (op : Nat) (w : WfPend) : Prop :=
  ∃ y ∈ u.node.wf, y.number = x.number ∧ y.lastSeq = some q.seq ∧ y.outst = some (q.seq, op, w)

/-- The producer's record of these entries waits at the junction, under its next sequence number (R34 to R36, R40). -/
def Delivers (s u : State) (prod target t : Nat) (es : List Entry) : Prop :=
  { prod := prod, target := target, entries := es, seq := tget 0#8 s.node.jn.seqs (slotKey prod target) + 1#8, time := t,
    arr := s.node.jn.cycle } ∈ u.node.jn.slots

/-- Nothing takes shaped output `k` off: the module drives its plant and no interlock term names the channel (R318). -/
def SvFree (s : State) (k : Nat) : Prop :=
  s.node.up = true ∧ s.node.driving = true ∧ (s.node.svC k).forcedOff = false ∧ ∀ r ∈ s.node.terms, ilSvMask r / 2 ^ k % 2 = 0

/-- The context of shaped output `k` stands at an instruction with this opcode and may execute it (R302, R304). -/
def SvRuns (s : State) (k op : Nat) : Prop := SvFree s k ∧ svAt s.node k op = true

/-- The Modbus server takes this request: served on its port, its connection open or to be opened, its unit known (R507, R510). -/
def MbServed (s : State) (q : MbReq) : Prop :=
  s.node.up = true ∧ modbusOn s.node q.net = true
    ∧ ((s.node.eth q.net).conns.any (fun c => c.1 == q.client) = true ∨ (s.node.eth q.net).conns.length < 4)
    ∧ (q.unit = 1#8 ∨ q.unit = 0xFF#8)

/-- A Modbus answer with this PDU was sent to the client of the request. -/
def MbSent (u : State) (q : MbReq) (pdu : Bytes) : Prop :=
  { chan := .modbus q.net, dest := q.client,
    bytes := beBytes 2 q.tid.toNat ++ [0#8, 0#8] ++ beBytes 2 (pdu.length + 1) ++ [q.unit] ++ pdu } ∈ u.node.tx

/-- The CAN service answered: status and TAG over the address, then the data word (R518). -/
def SvcSent (s u : State) (st : Nat) (tag : Byte) (a : Nat) (data : Word) : Prop :=
  { chan := .can (bitOf (svcRspWord s.node) 31), dest := fld (svcRspWord s.node) 28 0,
    bytes := leBytes 4 (st * 2 ^ 24 + tag.toNat * 65536 + a) ++ leBytes 4 data.toNat } ∈ u.node.tx

/-- Alarm point `i`, let go from an override state, is SUPPRESSED where its group suppresses it, and otherwise NORMAL without a
delay; a condition that holds starts the on-delay anew, and one of 0 expires at once (R384, R388). -/
def Released (s u : State) (i t : Nat) : Prop :=
  if ptSupp (s.node.almRec i) = true ∧ (s.node.almG (ptGroup (s.node.almRec i))).supp = true then (u.node.almP i).st = 4
  else if (s.node.almP i).cond = false then (u.node.almP i).st = 0 ∧ (u.node.almP i).onAt = none ∧ (u.node.almP i).offAt = none
  else if ptOnDly (s.node.almRec i) = 0 then (u.node.almP i).st = 1 ∧ (u.node.almP i).upAt = timeAfter s t ∧ u.node.evt.flag 96 = true
  else (u.node.almP i).st = 0 ∧ (u.node.almP i).onAt = some (timeAfter s t : Int) ∧ (u.node.almP i).offAt = none

/-! ### Memories -/

/-- Every byte memory stands in its canonical form. -/
def Mems.wf (m : Mems) : Bool :=
  Memory.wf 0#8 m.staging && Memory.wf 0#8 m.live && Memory.wf 0xFF#8 m.flashA && Memory.wf 0xFF#8 m.flashB && Memory.wf 0#8 m.fw

/-! ### What a command leaves as it was -/

/-- Parts of the module's state. Where the plant's own work after a command (`settle`) reaches only some fields of a group,
the group stands in two parts. -/
inductive Part where
  | devtime
  /-- tick numbers last worked -/
  | ticks
  | port (p : HostPort)
  /-- arrival slots, their sequence numbers, overruns, cycles -/
  | slots
  /-- result store -/
  | store
  /-- device state, the one before, and the tick of the change -/
  | devState
  /-- causes, feeds, over-temperature, refusal, pending command, failed channels, reset pin -/
  | devRest
  /-- digital inputs, sensor supplies, pins and field voltages as measured -/
  | digIn
  /-- digital outputs, and what their group records and R95 remember -/
  | digOut
  /-- interlock terms -/
  | il
  | ilRefused
  | alm
  /-- alert changes not yet sent -/
  | almDue
  | dup
  /-- output commands last sent to the partner, start of the clean stretch -/
  | dupSent
  | net
  /-- alert states and line count of the sentences -/
  | netAlerts
  | isl | ld | blk | spi | wf | evt | mbx | ui | ex | cj | cal | mw | ca | lo | po | hart | shp | pf | cmp | ln | gen | seq | dsp | clk | mram | rcd | mir | ckpt | dtr | fwActs | tx | free
  deriving DecidableEq, Repr

/-- What a part holds. -/
def Part.Val : Part → Type
  | .devtime => Nat
  | .ticks => Nat × Nat
  | .port _ => Port
  | .slots => List Record × Table Byte × Word × Nat × Nat × Nat
  | .store => Table Result
  | .devState => DevSt × DevSt × Word
  | .devRest => Device
  | .digIn => Table DiChan × Table SsChan × Word × Word × Table Nat
  | .digOut => Table DoChan × Table Nat × Table Nat × Word × Word × Bool
  | .il => Interlock
  | .ilRefused => Word
  | .alm => Alarms
  | .almDue => List (Nat × Nat)
  | .dup => Duplex
  | .dupSent => Table Word × Nat
  | .net => Net
  | .netAlerts => Table Nat × Table Nat × Table Nat × Table Nat × Nat
  | .isl => Islands
  | .ld => Loader
  | .blk => Table BlkCtl
  | .spi => Spi
  | .wf => List Session
  | .evt => Events
  | .mbx => Mailbox
  | .ui => Table UiChan
  | .ex => Table ExChan
  | .cj => Table CjChan
  | .cal => Calib
  | .mw => Miswire
  | .ca => Table CaChan
  | .lo => Table LoChan
  | .po => Table PoChan
  | .hart => Table HartM
  | .shp => Shaped
  | .pf => Table PfChan
  | .cmp => Compare
  | .ln => Table Lane
  | .gen => Table LnGen
  | .seq => Sequencer
  | .dsp => Disp
  | .clk => Clock
  | .mram => Mram
  | .rcd => Recorder
  | .mir => Mirrored
  | .ckpt => Table Ckpt
  | .dtr => Detours
  | .fwActs => Nat
  | .tx => List TxFrame
  | .free => Nat

/-- A part of the module as it stands. -/
def Part.get (n : Node) : (x : Part) → x.Val
  | .devtime => n.time.devtime
  | .ticks => (n.time.lastScan, n.time.lastFine)
  | .port p => n.port p
  | .slots => (n.jn.slots, n.jn.seqs, n.jn.overrun, n.jn.ovrLast, n.jn.maxDepth, n.jn.cycle)
  | .store => n.jn.store
  | .devState => (n.dev.st, n.dev.prev, n.dev.stateTick)
  | .devRest => { n.dev with st := .off, prev := .off, stateTick := 0#32 }
  | .digIn => (n.dig.di, n.dig.ss, n.dig.ot, n.dig.pins, n.dig.fpMv)
  | .digOut => (n.dig.dout, n.dig.diSeen, n.dig.doSeen, n.dig.diDirty, n.dig.doDirty, n.dig.driving)
  | .il => { n.il with refused := 0#32 }
  | .ilRefused => n.il.refused
  | .alm => { n.alm with alfDue := [] }
  | .almDue => n.alm.alfDue
  | .dup => { n.dup with sent := [], cleanAt := 0 }
  | .dupSent => (n.dup.sent, n.dup.cleanAt)
  | .net => { n.net with alerts := [], revs := [], alertAt := [], callSeen := [], line := 0 }
  | .netAlerts => (n.net.alerts, n.net.revs, n.net.alertAt, n.net.callSeen, n.net.line)
  | .isl => n.isl
  | .ld => n.ld
  | .blk => n.blk
  | .spi => n.spi
  | .wf => n.wf
  | .evt => n.evt
  | .mbx => n.mbx
  | .ui => n.ui
  | .ex => n.ex
  | .cj => n.cj
  | .cal => n.cal
  | .mw => n.mw
  | .ca => n.ca
  | .lo => n.lo
  | .po => n.po
  | .hart => n.hart
  | .shp => n.shp
  | .pf => n.pf
  | .cmp => n.cmp
  | .ln => n.ln
  | .gen => n.gen
  | .seq => n.seq
  | .dsp => n.dsp
  | .clk => n.clk
  | .mram => n.mram
  | .rcd => n.rcd
  | .mir => n.mir
  | .ckpt => n.ckpt
  | .dtr => n.dtr
  | .fwActs => n.fwActs
  | .tx => n.tx
  | .free => n.free

/-- Every part of the module outside `ps` is as it was. -/
def Leaves (ps : List Part) (n m : Node) : Prop := ∀ x, x ∉ ps → Part.get m x = Part.get n x

/-- The pair's state is as it was, but for the values last sent and the clean stretch. -/
def DupStays (s t : State) : Prop := Part.get t.node .dup = Part.get s.node .dup

/-- The queue, the byte memories and every part of the module outside `ps` are as they were. -/
def Keeps (ps : List Part) (s t : State) : Prop := t.pending = s.pending ∧ t.mem = s.mem ∧ Leaves ps s.node t.node

/-- What raising an event changes: the controller, the recovery window, the clean stretch. -/
def eventParts : List Part := [.evt, .rcd, .dupSent]

/-- What the plant's own work after a command may change: outputs, interlock terms, runs of shaped outputs, RUN against
DEGRADED, and the records, event flags and sentences that these bring. -/
def plantParts : List Part :=
  [.slots, .devState, .evt, .digOut, .il, .shp, .almDue, .mram, .rcd, .dupSent, .netAlerts, .tx]

/-- These parts and what the plant's own work changes. -/
def withPlant (ps : List Part) : List Part := ps ++ plantParts

/-- These parts and what handing a write to the partner changes beside the port's answer: its waiter and the link's queue (R451). -/
def withLink (ps : List Part) : List Part := ps ++ [.net, .tx]

/-- These parts and what the level check of a write changes: the use of EXPERT (R131), event 7 where it is missing (R130). -/
def withLevel (ps : List Part) : List Part := ps ++ .blk :: eventParts

/-- Commands that may clear an event flag: writes of EVT_STATm, register writes that may reach them, and resets (R99, R139). -/
def mayClearFlags : Instr → Bool
  | .evtStatWrite .. | .registerWrite .. | .spiWrite .. | .wayfareWrite .. | .hostAccessComplete .. | .canServiceRequest ..
  | .canFrameReceive .. | .supplyValid .. | .supplyInvalid .. | .resetPin .. | .watchdogExpiry .. | .resetCmd .. | .slReset ..
  | .fwActivate .. => true
  | _ => false

/-- No event flag that stood is cleared. -/
def KeepsFlags (s t : State) : Prop := ∀ k, s.node.evt.flag k = true → t.node.evt.flag k = true

end Sys2Proof.Machine
end

