-- ==== Sys2Proof/Certificates/Slice0/Obligations.lean ====
section
/-! DEFINITION. What is claimed of the module: one statement per group of commands or rule. -/

section
open Sys2Proof Sys2Proof.Machine

/-- A step takes the command at the front of the queue and runs it on the rest (log entry 1).

On an empty queue the block idles (log entry 1). -/
def Obligations.StepRunsTheFrontCommand : Prop :=
  (
  ∀ (c : Instr) (q : List Instr) (s : State), step { s with pending := c :: q } = exec c { s with pending := q }) ∧
  (∀ s : State, s.pending = [] → step s = .next s)

/-- No command touches the queue of the commands behind it, stops the module, or is refused (log entry 1). -/
def Obligations.EveryCommandCompletes : Prop := ∀ (c : Instr) (s : State), Ends (exec c s) (fun t => t.pending = s.pending)

/-- After reset: no command waits, the memories stand in canonical form, the module is in BOOT after POWER, and the registers named
read the values their tables give, the status of islands, ports and outputs among them (R11, R18, R102, R128, R141, R154, R185, R215,
R243, R347, R443, R469, R545; those that SAFE and ON bits read until the first scan tick: notes/assumptions/5.md). -/
def Obligations.ResetValues : Prop :=
  State.reset.pending = [] ∧ State.reset.mem.wf = true ∧ State.reset.node.dev.st = .boot ∧ State.reset.node.dev.cause = 1
    ∧ State.reset.node.time.devtime = 0
    ∧ ∀ p : HostPort, ∀ x ∈ ([(0x0000, 0x4A4D7740#32), (0x0020, 1#32), (0x002C, 1#32), (0x0018, 0#32), (0x0488, 0#32), (0x0800, 0#32),
        (0x0848, 0#32), (0x0C00, 0#32), (0x0C10, 0xFFFFFFFF#32), (0x0C14, 0xFFFFFFFF#32), (0x0C18, 0xFFFFFFFF#32),
        (0x0C1C, 0xFFFFFFFF#32), (0x1200, 0#32), (0x1204, 0xFFFFFFFF#32), (0x1C10, 0x2000#32), (0x1CC0, 0x0032040A#32),
        (0x1D08, 0x30#32), (0x2000, 0x80000000#32), (0x2004, 0#32), (0x201C, 0x40000000#32), (0x3030, 0x80000000#32),
        (0x5018, 0x10#32), (0x5060, 0x80000000#32), (0x7408, 0x80000000#32), (0x7820, 0xFFFFFFFF#32),
        (0x0484, 0#32), (0x0100, 0#32), (0x3A14, 0#32), (0x368C, 0#32), (0x4344, 0#32), (0x4408, 0#32), (0x4640, 0#32), (0x480C, 0#32),
        (0x4C14, 0#32)] : List (Nat × Word)),
        (regRead p x.1 State.reset.mem State.reset.node).2.1 = x.2

/-- Every step keeps the byte memories of the staging area, the live area, flash banks A and B and the firmware area in canonical form:
addresses strictly rising, no entry equal to what an unlisted address reads as. -/
def Obligations.MemoriesStayCanonical : Prop :=
  ∀ s t : State, s.mem.wf = true → step s = .next t → t.mem.wf = true

/-- Event flags are sticky (R9, R135): no command clears a flag but a write that may reach EVT_STATm and a reset. -/
def Obligations.FlagsClearOnlyByWritesAndResets : Prop :=
  ∀ (c : Instr) (s : State), mayClearFlags c = false → Ends (exec c s) (KeepsFlags s)

/-- Frames of happenings in the plant: from any state, an input's, a round's, an amplifier's, a loop's, an output's, a position
interface's or a lane's happening leaves the queue, the byte memories and every part of the module but those named as they were;
what the plant's own work after a command may change is `plantParts`. -/
def Obligations.FrameOfPlantHappenings : Prop :=
  ∀ s : State,
    (∀ (i : Fin 12) (t : Nat), Ends (exec (.islandFault i t) s) (Keeps (withPlant [.devtime, .alm, .ca, .cal, .cj, .devRest, .dsp, .dup, .ex, .free, .gen, .isl, .ln, .lo, .net, .po, .seq, .ui, .wf]) s))
    ∧ (∀ (src : Fin 12) (dst : Fin 12) (t : Nat), Ends (exec (.causewayTimeout src dst t) s) (Keeps (withPlant [.devtime, .alm, .ca, .cal, .cj, .devRest, .dsp, .dup, .ex, .free, .gen, .isl, .ln, .lo, .net, .po, .seq, .spi, .ui, .wf]) s))
    ∧ (∀ (e : Fin 16) (c : EngCause) (t : Nat), Ends (exec (.engineFailure e c t) s) (Keeps (withPlant [.devtime, .alm, .ca, .cal, .cj, .ckpt, .devRest, .dsp, .dtr, .dup, .ex, .free, .gen, .isl, .ln, .lo, .po, .seq, .ui]) s))
    ∧ (∀ (e : Fin 16) (t : Nat), Ends (exec (.spareStart e t) s) (Keeps (withPlant [.devtime, .alm, .isl, .ln, .seq]) s))
    ∧ (∀ (t : Nat), Ends (exec (.lockstepMismatch t) s) (Keeps (withPlant [.devtime, .alm, .ca, .cal, .cj, .devRest, .dsp, .dup, .ex, .free, .gen, .ln, .lo, .po, .seq, .ui]) s))
    ∧ (Ends (exec (.junctionDrain) s) (Keeps (withPlant [.alm, .cal, .dup, .lo, .mir, .po, .store]) s))
    ∧ (∀ (r : Fin 518) (t : Nat), Ends (exec (.staleTimeout r t) s) (Keeps (withPlant [.devtime, .lo, .po, .store]) s))
    ∧ (∀ (f : ScrubFind) (t : Nat), Ends (exec (.scrubPass f t) s) (Keeps (withPlant [.devtime, .alm, .ca, .cal, .cj, .devRest, .dsp, .dtr, .dup, .ex, .free, .gen, .ln, .lo, .po, .seq, .store, .ui]) s))
    ∧ (∀ (t : Nat), Ends (exec (.runEntry t) s) (Keeps (withPlant [.devtime, .cal, .devRest, .digIn, .ex, .free, .ln, .lo, .po, .seq, .ui]) s))
    ∧ (∀ (t : Nat), Ends (exec (.haltEffect t) s) (Keeps (withPlant [.devtime, .alm, .cal, .devRest, .ex, .free, .gen, .ln, .lo, .po, .seq, .ui]) s))
    ∧ (∀ (m : CalMeas) (roleIn : Bool) (t : Nat), Ends (exec (.initialCalibrationComplete m roleIn t) s) (Keeps (withPlant [.devtime, .alm, .ca, .cal, .cj, .devRest, .digIn, .dsp, .dtr, .dup, .ex, .free, .ld, .ln, .lo, .po, .seq, .ui]) s))
    ∧ (∀ (b : Bool) (t : Nat), ∀ c ∈ ([.feedLost b t, .feedRegained b t] : List Instr),
        Ends (exec c s) (Keeps (withPlant [.devtime, .devRest]) s))
    ∧ (∀ (t : Nat), ∀ c ∈ ([.overtempSet t, .overtempClear t] : List Instr),
        Ends (exec c s) (Keeps (withPlant [.devtime, .devRest]) s))
    ∧ (∀ (n : Fin 64) (own : Int) (byp : Int) (lead : Int) (t : Nat), Ends (exec (.uiConversionComplete n own byp lead t) s) (Keeps (withPlant [.devtime, .cal, .dtr, .ui]) s))
    ∧ (∀ (n : Fin 64) (t : Nat), Ends (exec (.uiFilterRestart n t) s) (Keeps (withPlant [.devtime, .cal, .free, .ui]) s))
    ∧ (∀ (n : Fin 8) (mC : Int) (t : Nat), Ends (exec (.cjConversionComplete n mC t) s) (Keeps (withPlant [.devtime, .cj]) s))
    ∧ (∀ (n : Fin 16) (nv : Int) (t : Nat), Ends (exec (.exConversionComplete n nv t) s) (Keeps (withPlant [.devtime, .ex]) s))
    ∧ (∀ (n : Fin 16) (t : Nat), ∀ c ∈ ([.excChangeApply n t, .excSettleEnd n t] : List Instr),
        Ends (exec c s) (Keeps (withPlant [.devtime, .cal, .ex, .free, .ui]) s))
    ∧ (∀ (n : Fin 16) (ok : Bool) (t : Nat), Ends (exec (.exRegOkChange n ok t) s) (Keeps (withPlant [.devtime, .cal, .ex, .free, .ui]) s))
    ∧ (∀ (n : Fin 16) (holds : Bool) (t : Nat), ∀ c ∈ ([.exLimitOnset n holds t, .exSenseErrOnset n holds t] : List Instr),
        Ends (exec c s) (Keeps (withPlant [.devtime, .ex]) s))
    ∧ (∀ (b : Fin 4) (t : Nat), Ends (exec (.bypassRoundStart b t) s) (Keeps (withPlant [.devtime, .cal]) s))
    ∧ (∀ (b : Fin 4) (loopR : Nat) (t : Nat), Ends (exec (.bypassTakeover b loopR t) s) (Keeps (withPlant [.devtime, .cal, .dtr, .free, .ui]) s))
    ∧ (∀ (b : Fin 4) (m : RefMeas) (t : Nat), Ends (exec (.bypassReferencesDone b m t) s) (Keeps (withPlant [.devtime, .cal, .dtr, .free, .ui]) s))
    ∧ (∀ (b : Fin 4) (t : Nat), Ends (exec (.bypassCrossCheck b t) s) (Keeps (withPlant [.devtime, .cal, .dtr, .free, .ui]) s))
    ∧ (∀ (b : Fin 4) (t : Nat), Ends (exec (.bypassHandback b t) s) (Keeps (withPlant [.devtime, .cal, .free, .ui]) s))
    ∧ (∀ (b : Fin 4) (m : RefMeas) (t : Nat), Ends (exec (.bcSelfCalComplete b m t) s) (Keeps (withPlant [.devtime, .cal, .devRest, .dtr, .free, .ui]) s))
    ∧ (∀ (n : Fin 64) (t : Nat), Ends (exec (.converterFault n t) s) (Keeps (withPlant [.devtime, .cal, .devRest, .dtr, .free, .ui]) s))
    ∧ (∀ (k : Fin 64) (t : Nat), Ends (exec (.pairWatchTimer k t) s) (Keeps (withPlant [.devtime, .cal, .store]) s))
    ∧ (∀ (k : Fin 16) (t : Nat), Ends (exec (.triadVote k t) s) (Keeps (withPlant [.devtime, .cal]) s))
    ∧ (∀ (n : Fin 16) (t : Nat), ∀ c ∈ ([.caSampleTrigger n t, .caResetOpen n t, .caCycleAbandon n t] : List Instr),
        Ends (exec c s) (Keeps (withPlant [.devtime, .ca]) s))
    ∧ (∀ (n : Fin 16) (q : Int) (t : Nat), Ends (exec (.caConversionEnd n q t) s) (Keeps (withPlant [.devtime, .ca]) s))
    ∧ (∀ (n : Fin 16) (t : Nat), Ends (exec (.caRecordComplete n t) s) (Keeps (withPlant [.devtime, .ca, .free]) s))
    ∧ (∀ (p : HostPort) (n : Fin 16) (t : Nat), Ends (exec (.bufHoldTimeout p n t) s) (Keeps [.devtime, .ca] s))
    ∧ (∀ (n : Fin 16) (mean : Int) (comm : Bool) (t : Nat), Ends (exec (.loReadback n mean comm t) s) (Keeps (withPlant [.devtime, .lo]) s))
    ∧ (∀ (n : Fin 16) (lost : Bool) (t : Nat), Ends (exec (.loFieldSupplyLoss n lost t) s) (Keeps (withPlant [.devtime, .lo]) s))
    ∧ (∀ (ch : Fin 128) (t : Nat), Ends (exec (.miswireDetect ch t) s) (Keeps (withPlant [.devtime, .ca, .cal, .ex, .free, .lo, .mw, .pf, .ui]) s))
    ∧ (∀ (ch : Fin 128) (t : Nat), Ends (exec (.miswireReconnect ch t) s) (Keeps (withPlant [.devtime, .cal, .ex, .free, .lo, .mw, .ui]) s))
    ∧ (∀ (v : Fin 128) (t : Nat), Ends (exec (.hartVariableDue v t) s) (Keeps (withPlant [.devtime, .hart]) s))
    ∧ (∀ (m : Fin 32) (resp : HartResp) (t : Nat), Ends (exec (.hartTransactionComplete m resp t) s) (Keeps (withPlant [.devtime, .hart, .mbx]) s))
    ∧ (∀ (ch : Fin 32) (t : Nat), Ends (exec (.hartPassThrough ch t) s) (Keeps (withPlant [.devtime, .hart, .mbx]) s))
    ∧ (∀ (n : Fin 8) (t : Nat), ∀ c ∈ ([.poPeriodBoundary n t, .poPulseEnd n t] : List Instr),
        Ends (exec c s) (Keeps (withPlant [.devtime, .po]) s))
    ∧ (∀ (m : Fin 32) (t : Nat), Ends (exec (.noResponseAfterRetries m t) s) (Keeps (withPlant [.devtime, .hart, .mbx]) s))
    ∧ (∀ (n : Fin 48) (lvl : Bool) (t : Nat), Ends (exec (.diChangeAccepted n lvl t) s) (Keeps (withPlant [.devtime, .alm, .digIn]) s))
    ∧ (∀ (n : Fin 48) (opn : Bool) (t : Nat), Ends (exec (.diOpenWire n opn t) s) (Keeps (withPlant [.devtime, .digIn]) s))
    ∧ (∀ (g : Fin 6) (on : Bool) (t : Nat), Ends (exec (.diGroupOt g on t) s) (Keeps (withPlant [.devtime, .digIn]) s))
    ∧ (∀ (n : Fin 6) (t : Nat), Ends (exec (.ssOverload n t) s) (Keeps (withPlant [.devtime, .digIn]) s))
    ∧ (∀ (n : Fin 6) (ok : Bool) (t : Nat), Ends (exec (.ssRetry n ok t) s) (Keeps (withPlant [.devtime, .digIn]) s))
    ∧ (∀ (n : Fin 32) (t : Nat), ∀ c ∈ ([.tpCycleStart n t, .tpOffEdge n t, .doOverload n t, .doOvertemp n t, .doOvertempClear n t, .darkTest n t, .doPulseEnd n t] : List Instr),
        Ends (exec c s) (Keeps (withPlant [.devtime]) s))
    ∧ (∀ (n : Fin 32) (which : Bool) (opn : Bool) (t : Nat), Ends (exec (.doOpenWire n which opn t) s) (Keeps (withPlant [.devtime]) s))
    ∧ (∀ (n : Fin 32) (fell : Bool) (t : Nat), Ends (exec (.darkTestEnd n fell t) s) (Keeps (withPlant [.devtime]) s))
    ∧ (∀ (f : Fin 4) (mv : Nat) (t : Nat), Ends (exec (.fpOkChange f mv t) s) (Keeps (withPlant [.devtime, .digIn]) s))
    ∧ (∀ (n : Fin 16) (t : Nat), ∀ c ∈ ([.queuedFiringStart n t, .endIns n t, .seti n t, .ramp n t, .waitt n t, .waiti n t, .waitp n t, .holdIns n t, .freew n t, .quench n t, .markIns n t, .jif n t, .loopIns n t, .flagIns n t, .illegalInstruction n t, .waittExpiry n t, .waitiMet n t, .waitiTimeout n t, .waitpReached n t, .waitpEarlyEnd n t, .holdEnd n t, .rampComplete n t, .staggerExpiry n t, .svOverCurrent n t] : List Instr),
        Ends (exec c s) (Keeps (withPlant [.devtime]) s))
    ∧ (∀ (k : Fin 8) (t : Nat), Ends (exec (.bankOverCurrent k t) s) (Keeps (withPlant [.devtime]) s))
    ∧ (∀ (n : Fin 16) (mA : Nat) (t : Nat), Ends (exec (.senseSample n mA t) s) (Keeps (withPlant [.devtime]) s))
    ∧ (∀ (n : Fin 8) (e : PfStep) (t : Nat), Ends (exec (.pfEdge n e t) s) (Keeps (withPlant [.devtime, .ca, .cmp, .pf, .po]) s))
    ∧ (∀ (n : Fin 8) (e : PfStep) (t : Nat), Ends (exec (.quadratureError n e t) s) (Keeps (withPlant [.devtime, .ca, .pf]) s))
    ∧ (∀ (n : Fin 8) (e : HallLines) (t : Nat), Ends (exec (.hallError n e t) s) (Keeps (withPlant [.devtime, .ca, .pf]) s))
    ∧ (∀ (n : Fin 8) (e : SinCos) (t : Nat), Ends (exec (.amplitudeError n e t) s) (Keeps (withPlant [.devtime, .ca, .pf]) s))
    ∧ (∀ (n : Fin 8) (frame : SsiFrame) (t : Nat), Ends (exec (.ssiFrameEnd n frame t) s) (Keeps (withPlant [.devtime, .ca, .cmp, .pf, .po]) s))
    ∧ (∀ (n : Fin 8) (t : Nat), Ends (exec (.stillTimeout n t) s) (Keeps (withPlant [.devtime, .ca, .pf]) s))
    ∧ (∀ (n : Fin 32) (t : Nat), ∀ c ∈ ([.laneEvaluation n t, .followingError n t] : List Instr),
        Ends (exec c s) (Keeps (withPlant [.devtime, .gen, .ln, .lo, .po]) s))

/-- Frames of the other happenings: alarms, calls, patrol, sequences, display, the pair of modules, the clock, the recorder and the
network leave the queue, the byte memories and every part but those named as they were. -/
def Obligations.FrameOfServiceHappenings : Prop :=
  ∀ s : State,
    (Ends (exec (.checkComplete) s) (Keeps (withPlant [.ld]) s))
    ∧ (∀ (net : Bool) (t : Nat), Ends (exec (.wayfareBadDatagram net t) s) (Keeps [.devtime, .dupSent, .evt, .rcd] s))
    ∧ (∀ (sess : Word) (t : Nat), Ends (exec (.sessionExpiry sess t) s) (Keeps [.devtime, .wf] s))
    ∧ (∀ (p : HostPort) (t : Nat), Ends (exec (.snapCopyComplete p t) s) (Keeps [.devtime, .dupSent, .evt, .rcd, .tx, .wf, .port p] s))
    ∧ (∀ (b : Fin 24), Ends (exec (.expertTimeout b) s) (Keeps [.blk] s))
    ∧ (∀ (i : Fin 4096) (t : Nat), ∀ c ∈ ([.onDelayExpiry i t, .shelveExpiry i t] : List Instr),
        Ends (exec c s) (Keeps (withPlant [.devtime, .alm]) s))
    ∧ (∀ (i : Fin 4096) (t : Nat), Ends (exec (.offDelayExpiry i t) s) (Keeps (withPlant [.devtime, .alm, .dup]) s))
    ∧ (∀ (g : Fin 256) (t : Nat), Ends (exec (.groupRelease g t) s) (Keeps (withPlant [.devtime, .alm]) s))
    ∧ (∀ (t : Nat), ∀ c ∈ ([.callEscalation t, .callRecall t, .patrolPrewarn t, .patrolExpired t] : List Instr),
        Ends (exec c s) (Keeps (withPlant [.devtime, .alm]) s))
    ∧ (∀ (q : Fin 8) (t : Nat), ∀ c ∈ ([.stepTimeout q t, .seqstepAcknowledged q t] : List Instr),
        Ends (exec c s) (Keeps (withPlant [.devtime, .alm, .ln, .lo, .po, .seq]) s))
    ∧ (∀ (q : Fin 8) (k : Fin 4) (t : Nat), Ends (exec (.seqTimerExpiry q k t) s) (Keeps (withPlant [.devtime]) s))
    ∧ (∀ (r : Fin 32) (start : Nat) (t : Nat), Ends (exec (.renderComplete r start t) s) (Keeps (withPlant [.devtime, .dsp]) s))
    ∧ (∀ (r : Fin 32) (t : Nat), Ends (exec (.updateStart r t) s) (Keeps (withPlant [.devtime, .dsp]) s))
    ∧ (∀ (upsets : List (Nat × Nat)) (t : Nat), Ends (exec (.frameScan upsets t) s) (Keeps (withPlant [.devtime, .dsp]) s))
    ∧ (∀ (t : Nat), ∀ c ∈ ([.biasRiseStep t, .biasFault t, .dischargeStep t] : List Instr),
        Ends (exec c s) (Keeps (withPlant [.devtime, .dsp]) s))
    ∧ (∀ (h : SlHello) (t : Nat), Ends (exec (.slHello h t) s) (Keeps (withPlant [.devtime, .alm, .ca, .dup, .ex, .ld, .ln, .lo, .po, .seq]) s))
    ∧ (∀ (lane : Bool) (ready : Bool) (elig : Bool) (roleIn : Bool) (t : Nat), Ends (exec (.slBeacon lane ready elig roleIn t) s) (Keeps (withPlant [.devtime, .alm, .ca, .dup, .ex, .isl, .ln, .lo, .po, .seq]) s))
    ∧ (∀ (lane : Bool) (t : Nat), ∀ c ∈ ([.linkLaneDown lane t, .slFrameCrcError lane t] : List Instr),
        Ends (exec c s) (Keeps (withPlant [.devtime, .dup]) s))
    ∧ (∀ (t : Nat), Ends (exec (.linkLost t) s) (Keeps (withPlant [.devtime, .alm, .ca, .dup, .ex, .isl, .ln, .lo, .net, .po, .seq, .spi, .wf, .port .m1, .port .m2, .port .m3, .port .m5]) s))
    ∧ (∀ (lane : Bool) (m : Option Mirror) (t : Nat), Ends (exec (.slMirror lane m t) s) (Keeps (withPlant [.devtime, .dup, .isl, .mir]) s))
    ∧ (∀ (c : OutCmd) (t : Nat), Ends (exec (.slOutcmd c t) s) (Keeps (withPlant [.devtime, .digIn, .ex, .lo, .po]) s))
    ∧ (∀ (q : Fin 8) (step : Nat) (t : Nat), Ends (exec (.slSeqstep q step t) s) (Keeps (withPlant [.devtime, .seq]) s))
    ∧ (∀ (t : Nat), ∀ c ∈ ([.slStandDown t, .roleInLow t] : List Instr),
        Ends (exec c s) (Keeps (withPlant [.devtime, .alm, .ca, .dup, .ex, .ln, .lo, .po, .seq]) s))
    ∧ (∀ (m : SwapMsg) (t : Nat), Ends (exec (.slSwap m t) s) (Keeps (withPlant [.devtime, .dup]) s))
    ∧ (∀ (t : Nat), Ends (exec (.partnerWaitTimeout t) s) (Keeps (withPlant [.devtime, .dup, .ld]) s))
    ∧ (∀ (roleIn : Bool) (t : Nat), Ends (exec (.findTimeout roleIn t) s) (Keeps (withPlant [.devtime, .alm, .ca, .dup, .ex, .ln, .lo, .po, .seq]) s))
    ∧ (∀ (t : Nat), ∀ c ∈ ([.overlapEnd t, .crossRampComplete t, .relInPulse t, .holdLatchTimeout t, .reclaimCmd t, .rejoinReset t] : List Instr),
        Ends (exec c s) (Keeps (withPlant [.devtime, .dup]) s))
    ∧ (∀ (t : Nat), Ends (exec (.swapExecute t) s) (Keeps (withPlant [.devtime, .alm, .ca, .dup, .ex, .ln, .lo, .mir, .po, .seq]) s))
    ∧ (∀ (ok : Bool) (t : Nat), Ends (exec (.fwInstallComplete ok t) s) (Keeps (withPlant [.devtime, .dup]) s))
    ∧ (∀ (ok : Bool) (t : Nat), Ends (exec (.imageCheck ok t) s) (Keeps (withPlant [.devtime, .alm, .ca, .cal, .cj, .devRest, .dsp, .dup, .ex, .free, .gen, .ln, .lo, .po, .seq, .ui]) s))
    ∧ (∀ (w : Nat) (pass : Bool) (t : Nat), Ends (exec (.selfTestVector w pass t) s) (Keeps (withPlant [.devtime, .alm, .ca, .cal, .cj, .ckpt, .devRest, .dsp, .dtr, .dup, .ex, .free, .gen, .isl, .ln, .lo, .po, .seq, .ui]) s))
    ∧ (∀ (t : Nat), ∀ c ∈ ([.clockSecond t, .oscillatorStop t] : List Instr),
        Ends (exec c s) (Keeps [.devtime, .almDue, .clk, .devState, .digOut, .dup, .dupSent, .evt, .il, .mram, .netAlerts, .rcd, .shp, .slots, .tx] s))
    ∧ (∀ (p : HostPort) (t : Nat), Ends (exec (.shadowTimeout p t) s) (Keeps [.devtime, .clk] s))
    ∧ (∀ (dead : Bool) (t : Nat), Ends (exec (.i11SupplyDip dead t) s) (Keeps [.devtime, .almDue, .clk, .devState, .digOut, .dup, .dupSent, .evt, .il, .mram, .netAlerts, .rcd, .shp, .slots, .tx] s))
    ∧ (∀ (toVbak : Bool) (t : Nat), Ends (exec (.backupSwitch toVbak t) s) (Keeps [.devtime, .almDue, .clk, .devState, .digOut, .dup, .dupSent, .evt, .il, .mram, .netAlerts, .rcd, .shp, .slots, .tx] s))
    ∧ (∀ (mV : Nat) (t : Nat), Ends (exec (.vbakMeasure mV t) s) (Keeps (withPlant [.devtime, .clk]) s))
    ∧ (∀ (t : Nat), Ends (exec (.milestoneCommit t) s) (Keeps [.devtime, .mram] s))
    ∧ (∀ (t : Nat), Ends (exec (.windowClose t) s) (Keeps [.devtime, .rcd] s))
    ∧ (∀ (i : Fin 512) (t : Nat), Ends (exec (.histogramSample i t) s) (Keeps [.devtime, .mram, .rcd] s))
    ∧ (∀ (i : Fin 512) (t : Nat), Ends (exec (.statWindowRoll i t) s) (Keeps [.devtime, .mram] s))
    ∧ (∀ (t : Nat), Ends (exec (.windowSample t) s) (Keeps (withPlant [.devtime]) s))
    ∧ (∀ (net : Bool) (up : Bool) (fd : Bool) (t : Nat), Ends (exec (.ethLinkChange net up fd t) s) (Keeps (withPlant [.devtime, .net]) s))
    ∧ (∀ (net : Bool) (client : Nat) (t : Nat), Ends (exec (.icmpEcho net client t) s) (Keeps [.devtime, .tx] s))
    ∧ (∀ (net : Bool) (client : Nat) (t : Nat), Ends (exec (.modbusIdleClose net client t) s) (Keeps [.devtime, .net] s))
    ∧ (∀ (net : Bool) (a : AlertRef) (t : Nat), Ends (exec (.acnAcknowledge net a t) s) (Keeps (withPlant [.devtime, .alm, .net]) s))
    ∧ (∀ (net : Bool) (a : Option AlertRef) (t : Nat), Ends (exec (.acnRequest net a t) s) (Keeps [.devtime, .net, .netAlerts, .tx] s))
    ∧ (∀ (net : Bool) (a : AcnUse) (t : Nat), Ends (exec (.acnOther net a t) s) (Keeps [.devtime, .net, .netAlerts, .tx] s))
    ∧ (∀ (t : Nat), Ends (exec (.alcPeriodic t) s) (Keeps [.devtime, .netAlerts, .tx] s))
    ∧ (∀ (ch : Fin 32) (t : Nat), Ends (exec (.canRawSend ch t) s) (Keeps [.devtime, .dupSent, .evt, .mbx, .rcd, .tx] s))
    ∧ (∀ (c : Bool) (t : Nat), Ends (exec (.canBusOff c t) s) (Keeps (withPlant [.devtime, .free, .net]) s))
    ∧ (∀ (c : Bool) (t : Nat), Ends (exec (.canBusOffRecovery c t) s) (Keeps (withPlant [.devtime, .net]) s))
    ∧ (∀ (net : Bool) (t : Nat), Ends (exec (.acnDiscarded net t) s) (Keeps [.devtime, .net] s))

/-- Frames of register accesses: a read changes the port's answer and what that register's reading moves; a write, carried out or
turned away, changes the port's answer, what that register moves, where it is handed to the partner the link's queue (R451), and
where it needs EXPERT the block's use of it and event 7 (R130, R131); nothing else, and no byte memory. -/
def Obligations.FrameOfRegisterAccesses : Prop :=
  ∀ s : State,
    (∀ (p : HostPort), ∀ c ∈ ([.devtimeLoRead p, .devtimeHiRead p, .snapDataRead p, .almLogDataRead p, .msLoRead p, .recDataRead p, .stDataRead p] : List Instr),
        Ends (exec c s) (Keeps [.port p] s))
    ∧ (∀ (p : HostPort) (r : Fin 518) (ecc : Ecc), Ends (exec (.resultValueRead p r ecc) s) (Keeps (withPlant [.port p, .dtr, .lo, .po, .store]) s))
    ∧ (∀ (p : HostPort) (r : Fin 518), Ends (exec (.resultQseqRead p r) s) (Keeps [.port p] s))
    ∧ (∀ (p : HostPort) (v : Word), Ends (exec (.stgAddrWrite p v) s) (Keeps (withLevel [.port p, .ld]) s))
    ∧ (∀ (p : HostPort), Ends (exec (.stgDataRead p) s) (Keeps [.port p, .ld] s))
    ∧ (∀ (p : HostPort) (key : BitVec 16), ∀ c ∈ ([.checkImg p key, .commitImg p key, .programA p key, .programB p key, .preferA p key, .preferB p key] : List Instr),
        Ends (exec c s) (Keeps (withPlant (withLevel [.port p, .ld])) s))
    ∧ (∀ (p : HostPort) (key : BitVec 16), ∀ c ∈ ([.runCmd p key, .haltCmd p key] : List Instr),
        Ends (exec c s) (Keeps (withPlant [.port p, .devRest]) s))
    ∧ (∀ (p : HostPort) (key : BitVec 16), Ends (exec (.safeCmd p key) s) (Keeps (withPlant [.port p, .ca, .cal, .cj, .devRest, .dsp, .ex, .free, .gen, .po, .ui]) s))
    ∧ (∀ (p : HostPort) (t : Nat), Ends (exec (.snapTrigger p t) s) (Keeps [.port p, .devtime] s))
    ∧ (∀ (p : HostPort) (v : Word), ∀ c ∈ ([.snapAddrWrite p v, .recSelWrite p v, .stSelWrite p v] : List Instr),
        Ends (exec c s) (Keeps [.port p] s))
    ∧ (∀ (p : HostPort) (b : Fin 24) (v : Word), Ends (exec (.blkCtrlWrite p b v) s) (Keeps (withPlant [.port p, .blk]) s))
    ∧ (∀ (p : HostPort) (m : Fin 4) (v : Word) (same : Word), Ends (exec (.evtStatWrite p m v same) s) (Keeps [.port p, .evt] s))
    ∧ (∀ (p : HostPort) (m : Fin 4) (v : Word), Ends (exec (.evtMaskWrite p m v) s) (Keeps [.port p, .evt] s))
    ∧ (∀ (p : HostPort) (m : Fin 16) (v : Word), Ends (exec (.evtRouteWrite p m v) s) (Keeps [.port p, .evt] s))
    ∧ (∀ (p : HostPort), Ends (exec (.evtMsgqRead p) s) (Keeps [.port p, .evt] s))
    ∧ (∀ (p : HostPort) (v : Word), Ends (exec (.evtMsgStatWrite p v) s) (Keeps [.port p, .evt] s))
    ∧ (∀ (p : HostPort) (n : Fin 64) (v : Word), ∀ c ∈ ([.uiFiltWrite p n v, .uiForceCtrlWrite p n v] : List Instr),
        Ends (exec c s) (Keeps (withPlant (withLevel (withLink [.port p, .ui]))) s))
    ∧ (∀ (p : HostPort) (n : Fin 16) (v : Word), Ends (exec (.exCtrlWrite p n v) s) (Keeps (withPlant (withLevel (withLink [.port p, .cal, .ex, .free, .ui]))) s))
    ∧ (∀ (p : HostPort) (n : Fin 16) (v : Word), Ends (exec (.caRangeRequest p n v) s) (Keeps (withPlant (withLevel (withLink [.port p, .ca]))) s))
    ∧ (∀ (p : HostPort) (n : Fin 16) (t : Nat), Ends (exec (.bufOpen p n t) s) (Keeps (withLink [.port p, .devtime, .ca]) s))
    ∧ (∀ (p : HostPort) (n : Fin 16), Ends (exec (.bufRelease p n) s) (Keeps (withLink [.port p, .ca]) s))
    ∧ (∀ (p : HostPort) (n : Fin 16), Ends (exec (.caBufDataRead p n) s) (Keeps [.port p, .ca] s))
    ∧ (∀ (p : HostPort) (n : Fin 16) (v : Word), Ends (exec (.loDemandWrite p n v) s) (Keeps (withPlant (withLink [.port p, .lo])) s))
    ∧ (∀ (p : HostPort) (n : Fin 32) (v : Word) (t : Nat), Ends (exec (.doCmdWrite p n v t) s) (Keeps (withPlant (withLink [.port p, .devtime])) s))
    ∧ (∀ (p : HostPort) (v : Word) (t : Nat), Ends (exec (.ilResetWrite p v t) s) (Keeps (withPlant (withLink [.port p, .devtime, .ilRefused])) s))
    ∧ (∀ (p : HostPort) (n : Fin 16) (v : Word) (t : Nat), Ends (exec (.svFireWrite p n v t) s) (Keeps (withPlant (withLink [.port p, .devtime])) s))
    ∧ (∀ (p : HostPort) (n : Fin 8), Ends (exec (.pfRawRead p n) s) (Keeps [.port p] s))
    ∧ (∀ (p : HostPort) (n : Fin 8) (k : Fin 4), Ends (exec (.pfCapRead p n k) s) (Keeps [.port p] s))
    ∧ (∀ (p : HostPort) (n : Fin 8) (v : Word), Ends (exec (.pfCtrlClr p n v) s) (Keeps (withPlant [.port p, .pf]) s))
    ∧ (∀ (p : HostPort) (v : Word), ∀ c ∈ ([.cmpSetpos p v, .cmpSeten p v] : List Instr),
        Ends (exec c s) (Keeps (withPlant (withLevel (withLink [.port p, .cmp]))) s))
    ∧ (∀ (p : HostPort) (n : Fin 32) (v : Word), Ends (exec (.lnModeRequest p n v) s) (Keeps (withPlant (withLink [.port p, .ln])) s))
    ∧ (∀ (p : HostPort) (n : Fin 32), Ends (exec (.applyLane p n) s) (Keeps (withPlant (withLink [.port p, .ln])) s))
    ∧ (∀ (p : HostPort) (n : Fin 32) (t : Nat), ∀ c ∈ ([.testStart p n t, .testStop p n t] : List Instr),
        Ends (exec c s) (Keeps (withPlant (withLevel (withLink [.port p, .devtime, .gen, .ln]))) s))
    ∧ (∀ (p : HostPort) (n : Fin 32), Ends (exec (.lnCapDataRead p n) s) (Keeps [.port p] s))
    ∧ (∀ (p : HostPort) (i : Fin 4096) (t : Nat), ∀ c ∈ ([.ackPt p i t, .alarmReset p i t, .unshelvePt p i t, .inhibitPt p i t, .releasePt p i t] : List Instr),
        Ends (exec c s) (Keeps (withPlant (withLink [.port p, .devtime, .alm])) s))
    ∧ (∀ (p : HostPort) (g : Fin 256) (t : Nat), ∀ c ∈ ([.ackGroup p g t, .foReset p g t] : List Instr),
        Ends (exec c s) (Keeps (withPlant (withLink [.port p, .devtime, .alm])) s))
    ∧ (∀ (p : HostPort) (t : Nat), ∀ c ∈ ([.ackAll p t, .patrolStart p t, .patrolStop p t, .patrolPress p t] : List Instr),
        Ends (exec c s) (Keeps (withPlant (withLink [.port p, .devtime, .alm])) s))
    ∧ (∀ (p : HostPort) (i : Fin 4096) (arg : BitVec 11) (t : Nat), Ends (exec (.shelvePt p i arg t) s) (Keeps (withPlant (withLink [.port p, .devtime, .alm])) s))
    ∧ (∀ (p : HostPort) (i : Fin 4096) (t : Nat), ∀ c ∈ ([.outOfService p i t, .returnPt p i t] : List Instr),
        Ends (exec c s) (Keeps (withPlant (withLevel (withLink [.port p, .devtime, .alm]))) s))
    ∧ (∀ (p : HostPort) (v : Word) (t : Nat), ∀ c ∈ ([.almCallAck p v t, .almDutyWrite p v t] : List Instr),
        Ends (exec c s) (Keeps (withPlant (withLink [.port p, .devtime, .alm])) s))
    ∧ (∀ (p : HostPort) (v : Word), ∀ c ∈ ([.almFindWrite p v, .almLogIdxWrite p v] : List Instr),
        Ends (exec c s) (Keeps (withLink [.port p]) s))
    ∧ (∀ (p : HostPort) (q : Fin 8) (at_ : Option (BitVec 10)) (t : Nat), Ends (exec (.seqStart p q at_ t) s) (Keeps (withPlant (withLink [.port p, .devtime, .seq])) s))
    ∧ (∀ (p : HostPort) (q : Fin 8) (t : Nat), ∀ c ∈ ([.seqStop p q t, .seqHold p q t, .seqResume p q t] : List Instr),
        Ends (exec c s) (Keeps (withPlant (withLink [.port p, .devtime, .seq])) s))
    ∧ (∀ (p : HostPort) (q : Fin 8) (arg : BitVec 10) (t : Nat), Ends (exec (.seqGoto p q arg t) s) (Keeps (withPlant (withLink [.port p, .devtime, .seq])) s))
    ∧ (∀ (p : HostPort) (v : Word), ∀ c ∈ ([.dspRedraw p v, .dspFull p v] : List Instr),
        Ends (exec c s) (Keeps (withPlant [.port p, .dsp]) s))
    ∧ (∀ (p : HostPort) (t : Nat), ∀ c ∈ ([.biasOn p t, .biasOff p t] : List Instr),
        Ends (exec c s) (Keeps (withPlant (withLevel [.port p, .devtime, .dsp])) s))
    ∧ (∀ (p : HostPort) (t : Nat), ∀ c ∈ ([.swapCmd p t, .partnerReset p t, .fwInstall p t] : List Instr),
        Ends (exec c s) (Keeps (withPlant (withLevel [.port p, .devtime, .dup])) s))
    ∧ (∀ (p : HostPort) (t : Nat), ∀ c ∈ ([.setBin p t, .setBcd p t, .dstStepFwd p t, .dstStepBack p t] : List Instr),
        Ends (exec c s) (Keeps (withPlant (withLevel [.port p, .devtime, .clk])) s))
    ∧ (∀ (p : HostPort) (arg : Byte) (t : Nat), Ends (exec (.setOfs p arg t) s) (Keeps (withPlant (withLevel [.port p, .devtime, .clk])) s))
    ∧ (∀ (p : HostPort) (k : Fin 4) (t : Nat), Ends (exec (.calShadowRead p k t) s) (Keeps [.port p, .devtime, .clk] s))
    ∧ (∀ (p : HostPort) (t : Nat), Ends (exec (.calDateRead p t) s) (Keeps [.port p, .devtime, .clk] s))
    ∧ (∀ (p : HostPort) (v : Word) (t : Nat), Ends (exec (.recAppend p v t) s) (Keeps (withPlant (withLevel [.port p, .devtime])) s))

/-- Channels stand apart: what happens at one universal input, excitation supply, charge amplifier, loop or pulse output, digital
input, sensor supply, position interface, HART master or lane, and a write of its own registers, leaves every other channel of that
kind as it was. -/
def Obligations.OtherChannelsStand : Prop :=
  ∀ (s : State) (p : HostPort) (v : Word) (t k : Nat),
    (∀ n : Fin 64, k ≠ n.val → ∀ own byp lead, ∀ c ∈ ([.uiConversionComplete n own byp lead t, .uiFilterRestart n t, .uiFiltWrite p n v,
        .uiForceCtrlWrite p n v] : List Instr), Ends (exec c s) (fun u => u.node.uiC k = s.node.uiC k))
    ∧ (∀ n : Fin 16, k ≠ n.val → ∀ nv ok, ∀ c ∈ ([.exConversionComplete n nv t, .exCtrlWrite p n v, .excChangeApply n t, .excSettleEnd n t,
        .exRegOkChange n ok t, .exLimitOnset n ok t, .exSenseErrOnset n ok t] : List Instr),
        Ends (exec c s) (fun u => u.node.exC k = s.node.exC k))
    ∧ (∀ n : Fin 16, k ≠ n.val → ∀ q, ∀ c ∈ ([.caSampleTrigger n t, .caConversionEnd n q t, .caResetOpen n t, .caCycleAbandon n t,
        .caRecordComplete n t, .caRangeRequest p n v, .bufOpen p n t, .bufRelease p n, .caBufDataRead p n, .bufHoldTimeout p n t] : List Instr),
        Ends (exec c s) (fun u => u.node.caC k = s.node.caC k))
    ∧ (∀ n : Fin 16, k ≠ n.val → ∀ mean comm lost, ∀ c ∈ ([.loReadback n mean comm t, .loFieldSupplyLoss n lost t, .loDemandWrite p n v] : List Instr),
        Ends (exec c s) (fun u => u.node.loC k = s.node.loC k))
    ∧ (∀ n : Fin 8, k ≠ n.val → ∀ c ∈ ([.poPeriodBoundary n t, .poPulseEnd n t] : List Instr),
        Ends (exec c s) (fun u => u.node.poC k = s.node.poC k))
    ∧ (∀ n : Fin 48, k ≠ n.val → ∀ b, ∀ c ∈ ([.diChangeAccepted n b t, .diOpenWire n b t] : List Instr),
        Ends (exec c s) (fun u => u.node.diC k = s.node.diC k))
    ∧ (∀ n : Fin 6, k ≠ n.val → ∀ ok, ∀ c ∈ ([.ssOverload n t, .ssRetry n ok t] : List Instr),
        Ends (exec c s) (fun u => u.node.ssC k = s.node.ssC k))
    ∧ (∀ n : Fin 8, k ≠ n.val → ∀ (e : PfStep) (hl : HallLines) (sc : SinCos) (fr : SsiFrame), ∀ c ∈ ([.pfEdge n e t, .quadratureError n e t, .hallError n hl t, .amplitudeError n sc t,
        .ssiFrameEnd n fr t, .stillTimeout n t, .pfCtrlClr p n v] : List Instr), Ends (exec c s) (fun u => u.node.pfC k = s.node.pfC k))
    ∧ (∀ n : Fin 32, k ≠ n.val → ∀ r, ∀ c ∈ ([.hartTransactionComplete n r t, .noResponseAfterRetries n t] : List Instr),
        Ends (exec c s) (fun u => u.node.hmC k = s.node.hmC k))
    ∧ (∀ n : Fin 32, k ≠ n.val → ∀ c ∈ ([.laneEvaluation n t, .lnModeRequest p n v, .applyLane p n, .followingError n t] : List Instr),
        Ends (exec c s) (fun u => u.node.lnC k = s.node.lnC k))

/-- SCAN_TICK and FINE_TICK (R23, R25): DEVTIME moves to the next multiple of 250,000 or 2,500 counts, or to the latest one
where time has moved past it; SCAN_CNT is the number of scan ticks since 0; block controls lose EXPERT 60 s after their last
use at a scan tick (R131); a fine tick takes the pins, but for an output in a dark test, whose state stays as published (R286). -/
def Obligations.TicksAdvanceTheTimeBase : Prop :=
  (∀ (x : ScanMeas) (s : State), s.node.up = true →
    Ends (exec (.scanTick x) s) (fun t =>
      let k := max (s.node.time.lastScan + 1) (s.node.time.devtime / 250000)
      t.node.time.devtime = max s.node.time.devtime (k * 250000) ∧ t.node.time.lastScan = k
        ∧ t.node.time.lastFine = s.node.time.lastFine
        ∧ ∀ b < 24, t.node.expert b = (s.node.expert b && decide (t.node.time.devtime < (s.node.blkOf b).since + 15000000000)))) ∧
  (∀ (pins : Word) (s : State), s.node.up = true →
    Ends (exec (.fineTick pins) s) (fun t =>
      let k := max (s.node.time.lastFine + 1) (s.node.time.devtime / 2500)
      t.node.time.devtime = max s.node.time.devtime (k * 2500) ∧ t.node.time.lastFine = k
        ∧ t.node.time.lastScan = s.node.time.lastScan ∧ t.node.blk = s.node.blk
        ∧ ∀ j < 32, bitOf t.node.dig.pins j = if (s.node.doC j).dark then bitOf s.node.dig.pins j else bitOf pins j))

/-- ISLAND_FAULT and CAUSEWAY_TIMEOUT (R17, R20): a running island enters FAULT, its flag in ISL_FAULT_FLAGS and event 16 set,
no other island changes; an island that is OFF or in FAULT stays so. A timeout is counted, names both islands and sets event
17 whatever the island's state. Every causeway has I0 at one end (R19): the island at its far end enters FAULT (how R20 is
read: notes/assumptions/13.md).

The engines and the module-level fault (R28, R29, R32, R454): a failed engine gives up its role (0xF in the role field; that
its INST stays is the model's choice, notes/assumptions/54.md), its bit in the detours of the run set; a missed checkpoint is
counted; with no spare left a role's engine sets event 23. A waiting spare takes the role with the role's last complete
checkpoint, shown here for SEQ, and sets event 18. Where a lane engine's role goes to a spare, the test its generator runs is
aborted with event 90 (R373). A lockstep mismatch brings an unpaired module that acquires into SAFE with
cause 1. -/
def Obligations.IslandsEnginesAndLockstep : Prop :=
  (
  (∀ (i : Fin 12) (t : Nat) (s : State), s.node.up = true → s.node.islSt i.val = .run →
    Ends (exec (.islandFault i t) s) (fun u => u.node.islSt i.val = .fault ∧ bitOf u.node.isl.flt i.val = true
      ∧ u.node.evt.flag 16 = true ∧ (∀ j, j ≠ i.val → u.node.islSt j = s.node.islSt j)
      ∧ u.node.time.devtime = timeAfter s t)) ∧
  (∀ (a b : Fin 12) (t : Nat) (s : State), s.node.up = true → s.node.islSt (farEnd a.val b.val) = .run →
    Ends (exec (.causewayTimeout a b t) s) (fun u => u.node.islSt (farEnd a.val b.val) = .fault
      ∧ bitOf u.node.isl.flt (farEnd a.val b.val) = true
      ∧ (∀ j, j ≠ farEnd a.val b.val → u.node.islSt j = s.node.islSt j)
      ∧ u.node.isl.toDst = b.val ∧ u.node.isl.toSrc = a.val
      ∧ u.node.isl.toCnt = (if s.node.isl.toCnt < 0xFFFF then s.node.isl.toCnt + 1 else 0xFFFF)
      ∧ u.node.evt.flag 16 = true ∧ u.node.evt.flag 17 = true)) ∧
  (∀ (i : Fin 12) (t : Nat) (s : State), s.node.up = true → s.node.islSt i.val ∈ [IslState.off, .fault] →
    Ends (exec (.islandFault i t) s) (fun u => u.node.isl = s.node.isl)) ∧
  (∀ (a b : Fin 12) (t : Nat) (s : State), s.node.up = true → s.node.islSt (farEnd a.val b.val) ∈ [IslState.off, .fault] →
    Ends (exec (.causewayTimeout a b t) s) (fun u => (∀ j, u.node.islSt j = s.node.islSt j)
      ∧ u.node.isl.flt = s.node.isl.flt ∧ u.node.isl.toDst = b.val ∧ u.node.isl.toSrc = a.val
      ∧ u.node.isl.toCnt = (if s.node.isl.toCnt < 0xFFFF then s.node.isl.toCnt + 1 else 0xFFFF)
      ∧ u.node.evt.flag 17 = true))) ∧
  (
  (∀ (e : Fin 16) (c : EngCause) (t : Nat) (s : State), s.node.up = true →
    s.node.isl.roles.length = 16 → (s.node.isl.roles.getD e.val 0#8).toNat < 0xF0 →
    Ends (exec (.engineFailure e c t) s) (fun u =>
      ((u.node.isl.roles.getD e.val 0#8).toNat = 0xF0 + (s.node.isl.roles.getD e.val 0#8).toNat % 16)
      ∧ (∀ j, j ≠ e.val → u.node.isl.roles.getD j 0#8 = s.node.isl.roles.getD j 0#8)
      ∧ bitOf u.node.dtr.engRun e.val = true
      ∧ u.node.isl.ckptMiss = (if c ≠ .checkpoint then s.node.isl.ckptMiss
          else if s.node.isl.ckptMiss < 0xFFFF then s.node.isl.ckptMiss + 1 else 0xFFFF)
      ∧ (0x10 ≤ (s.node.isl.roles.getD e.val 0#8).toNat → (s.node.isl.roles.getD e.val 0#8).toNat < 0xE0 →
          (∀ j < 16, (s.node.isl.roles.getD j 0#8).toNat / 16 ≠ 14) → u.node.evt.flag 23 = true))) ∧
  (∀ (e : Fin 16) (k : Nat) (ro : Byte) (t : Nat) (s : State), s.node.up = true → s.node.isl.roles.length = 16 → k < 16 →
    s.node.isl.paused = [(k, ro, e.val)] →
    Ends (exec (.spareStart e t) s) (fun u => u.node.isl.roles.getD k 0#8 = ro ∧ u.node.isl.paused = []
      ∧ u.node.evt.flag 18 = true
      ∧ ∀ x, ro.toNat / 16 = 5 → (tget {} s.node.ckpt ro.toNat).last = some x → u.node.seq = x.seq)) ∧
  (∀ (t : Nat) (s : State), s.node.up = true → s.node.acq = true → s.node.pair = false →
    Ends (exec (.lockstepMismatch t) s) (fun u => u.node.dev.st = .safe ∧ u.node.dev.safeCause = 1 ∧ u.node.dev.prev = s.node.dev.st)) ∧
  (∀ (e : Fin 16) (c : EngCause) (j : Nat) (t : Nat) (s : State), s.node.up = true → s.node.isl.roles.length = 16 →
    (s.node.isl.roles.getD e.val 0#8).toNat / 16 = 3 → j < 16 → (s.node.isl.roles.getD j 0#8).toNat / 16 = 14 → s.node.isl.paused = [] →
    let g := (s.node.isl.roles.getD e.val 0#8).toNat % 16 / 2
    (s.node.genC g).state = 1 ∨ (s.node.genC g).state = 2 →
    Ends (exec (.engineFailure e c t) s) (fun u => (u.node.genC g).state = 4 ∧ u.node.evt.flag 90 = true)))

/-- R27: a read of DEVTIME_LO latches the upper bits for its port; the port's next read of DEVTIME_HI gives them and spends the latch;
without one it gives the live upper bits; the two words of the pair are of one instant. -/
def Obligations.DevtimePairIsCoherent : Prop :=
  (∀ (p : HostPort) (s : State), Serves s 0x0010 →
    Ends (exec (.devtimeLoRead p) s) (fun t => Answered t p 0 0x0010 (wd s.node.time.devtime)
      ∧ (t.node.port p).devHi = some (wd (s.node.time.devtime / 2 ^ 32)))) ∧
  (∀ (p : HostPort) (w : Word) (s : State), Serves s 0x0014 → (s.node.port p).devHi = some w →
    Ends (exec (.devtimeHiRead p) s) (fun t => Answered t p 0 0x0014 w ∧ (t.node.port p).devHi = none)) ∧
  (∀ (p : HostPort) (s : State), Serves s 0x0014 → (s.node.port p).devHi = none →
    Ends (exec (.devtimeHiRead p) s) (fun t => Answered t p 0 0x0014 (wd (s.node.time.devtime / 2 ^ 32)))) ∧
  (∀ (p : HostPort) (s s1 s2 s3 : State), Serves s 0x0010 → exec (.devtimeLoRead p) s = .next s1 →
    Serves s2 0x0014 → (s2.node.port p).devHi = (s1.node.port p).devHi → exec (.devtimeHiRead p) s2 = .next s3 →
    (s3.node.port p).ans.data.toNat * 2 ^ 32 + (s1.node.port p).ans.data.toNat = s.node.time.devtime % 2 ^ 64)

/-- Reading the time and the result store (R22, R27, R47, R49): DEVTIME_LO latches the high half for the port's next read of
DEVTIME_HI. A VALUE read is served whatever the islands' states, latches the QSEQ word for the port's next QSEQ read of the
same result and clears the port's FRESH; where the check corrects the entry event 20 is set and the same word is given; an
entry with an uncorrectable error reads 0x8000_0000 from then on, and event 21 is set. A QSEQ read of the latched result
spends the latch; of another result it reads the store and the latch stays.

HOST_ACCESS_COMPLETE (R46, R47, R112, R119, R120, R451, R518): the access that the SPI port, a Wayfare session or the CAN
service waits for is performed and answered: a read in this module with the register's word, a write with its status after
its effect, the last word of a burst with all of it. A write that a STANDBY takes is handed to the partner and waits on. -/
def Obligations.LatchedReads : Prop :=
  (
  (∀ (p : HostPort) (s : State), Serves s 0x0010 →
    Ends (exec (.devtimeLoRead p) s) (fun t => Answered t p 0 0x0010 (wd s.node.now)
      ∧ (t.node.port p).devHi = some (wd (s.node.now / 2 ^ 32)))) ∧
  (∀ (p : HostPort) (w : Word) (s : State), Serves s 0x0014 → (s.node.port p).devHi = some w →
    Ends (exec (.devtimeHiRead p) s) (fun t => Answered t p 0 0x0014 w ∧ (t.node.port p).devHi = none)) ∧
  (∀ (p : HostPort) (s : State), Serves s 0x0014 → (s.node.port p).devHi = none →
    Ends (exec (.devtimeHiRead p) s) (fun t => Answered t p 0 0x0014 (wd (s.node.now / 2 ^ 32)))) ∧
  (∀ (p : HostPort) (r : Fin 518) (s : State), s.node.up = true →
    Ends (exec (.resultValueRead p r .clean) s) (fun t =>
      Answered t p 0 (resAddr r.val) (valueWord (s.node.res (resAddr r.val)))
      ∧ (t.node.port p).latch = some (resAddr r.val, qseqWord (s.node.res (resAddr r.val)) (some (portIdx p)))
      ∧ (t.node.res (resAddr r.val)).fresh = (s.node.res (resAddr r.val)).fresh &&& ~~~ BitVec.ofNat 4 (2 ^ portIdx p)
      ∧ (t.node.res (resAddr r.val)).value = (s.node.res (resAddr r.val)).value
      ∧ ∀ a, a ≠ resAddr r.val → t.node.res a = s.node.res a)) ∧
  (∀ (p : HostPort) (r : Fin 518) (w : Word) (s : State), s.node.up = true →
    (s.node.port p).latch = some (resAddr r.val, w) →
    Ends (exec (.resultQseqRead p r) s) (fun t => Answered t p 0 (resAddr r.val + 4) w ∧ (t.node.port p).latch = none
      ∧ t.node.jn.store = s.node.jn.store)) ∧
  (∀ (p : HostPort) (r : Fin 518) (s : State), s.node.up = true →
    (∀ w, (s.node.port p).latch ≠ some (resAddr r.val, w)) →
    Ends (exec (.resultQseqRead p r) s) (fun t =>
      Answered t p 0 (resAddr r.val + 4) (qseqWord (s.node.res (resAddr r.val)) (some (portIdx p)))
      ∧ (t.node.port p).latch = (s.node.port p).latch ∧ t.node.jn.store = s.node.jn.store)) ∧
  (∀ (p : HostPort) (r : Fin 518) (s : State), s.node.up = true →
    Ends (exec (.resultValueRead p r .corrected) s) (fun t =>
      Answered t p 0 (resAddr r.val) (valueWord (s.node.res (resAddr r.val)))
      ∧ (t.node.port p).latch = some (resAddr r.val, qseqWord (s.node.res (resAddr r.val)) (some (portIdx p)))
      ∧ t.node.evt.flag 20 = true)) ∧
  (∀ (p : HostPort) (r : Fin 518) (m : Fin 64) (row : Nat) (s : State), s.node.up = true →
    Ends (exec (.resultValueRead p r (.uncorrectable m row)) s) (fun t =>
      Answered t p 0 (resAddr r.val) 0x80000000#32 ∧ valueWord (t.node.res (resAddr r.val)) = 0x80000000#32
      ∧ (∀ a, a ≠ resAddr r.val → t.node.res a = s.node.res a) ∧ t.node.evt.flag 21 = true))) ∧
  (
  (∀ (tag : Byte) (a : Nat) (t : Nat) (st : Nat) (w : Word) (n' : Node) (s : State), Serves s a → (regAttr a).isSome = true →
    s.node.spi.outst = some (tag, .rd a) → s.node.net.fwds = [] → regRead .m1 a s.mem (s.node.advance t) = (st, w, n') →
    Ends (exec (.hostAccessComplete .spi t) s) (fun u => u.node.spi.outst = none
      ∧ u.node.spi.resp = { status := st, tag := tag, addr := a, data := if st = 0 then w else 0#32 } ∧ u.mem = s.mem)) ∧
  (∀ (tag : Byte) (r : Fin 518) (t : Nat) (s : State), s.node.up = true →
    s.node.spi.outst = some (tag, .rd (resAddr r.val)) → s.node.net.fwds = [] →
    Ends (exec (.hostAccessComplete .spi t) s) (fun u => u.node.spi.outst = none
      ∧ u.node.spi.resp = { status := 0, tag := tag, addr := resAddr r.val, data := valueWord (s.node.res (resAddr r.val)) }
      ∧ (u.node.port .m1).latch = some (resAddr r.val, qseqWord (s.node.res (resAddr r.val)) (some 0)))) ∧
  (∀ (tag : Byte) (a : Nat) (v : Word) (t : Nat) (x : Bool) (st : Nat) (m' : Mems) (n' : Node) (s : State), Takes s a →
    regAttr a = some ⟨x, .wr⟩ → s.node.spi.outst = some (tag, .wr a v) → s.node.net.fwds = [] →
    regWrite .m1 a v s.mem (s.node.advance t) = (st, m', n') →
    Ends (exec (.hostAccessComplete .spi t) s) (fun u => u.node.spi.outst = none
      ∧ u.node.spi.resp = { status := st, tag := tag, addr := a, data := 0#32 } ∧ u.mem = m')) ∧
  (∀ (tag : Byte) (a : Nat) (v : Word) (t : Nat) (x : RegAttr) (s : State), s.node.up = true → regAttr a = some x →
    forwards s.node a = true → linkUp s.node = true → levelLocked s.node a x = false →
    s.node.spi.outst = some (tag, .wr a v) → s.node.net.fwds = [] →
    Ends (exec (.hostAccessComplete .spi t) s) (fun u => u.node.spi.outst = some (tag, .wr a v)
      ∧ u.node.net.fwds = [.spi] ∧ u.mem = s.mem)) ∧
  (∀ (x : Session) (seq : BitVec 16) (op a t st : Nat) (w : Word) (n' : Node) (s : State), Serves s a → (regAttr a).isSome = true →
    s.node.wf.find? (fun y => y.number == x.number) = some x → x.outst = some (seq, op, .rd a) →
    regRead (netPort x.net) a s.mem (s.node.advance t) = (st, w, n') →
    Ends (exec (.hostAccessComplete (.wf x.number) t) s) (fun u =>
      { chan := .wayfare x.net, dest := x.client, bytes := wfFrame x.ver op x.number seq.toNat st 1 (leBytes 4 w.toNat) } ∈ u.node.tx
      ∧ (∀ y ∈ u.node.wf, y.number = x.number → y.outst = none
          ∧ y.resp = some { op := op, status := st, payload := leBytes 4 w.toNat }) ∧ u.mem = s.mem)) ∧
  (∀ (x : Session) (seq : BitVec 16) (op a : Nat) (v : Word) (t : Nat) (y : Bool) (st : Nat) (m' : Mems) (n' : Node) (s : State),
    Takes s a → regAttr a = some ⟨y, .wr⟩ →
    s.node.wf.find? (fun z => z.number == x.number) = some x → x.outst = some (seq, op, .wr a v) → s.node.net.fwds = [] →
    regWrite (netPort x.net) a v s.mem (s.node.advance t) = (st, m', n') →
    Ends (exec (.hostAccessComplete (.wf x.number) t) s) (fun u =>
      { chan := .wayfare x.net, dest := x.client, bytes := wfFrame x.ver op x.number seq.toNat st 1 [] } ∈ u.node.tx
      ∧ (∀ z ∈ u.node.wf, z.number = x.number → z.outst = none ∧ z.resp = some { op := op, status := st, payload := [] })
      ∧ u.mem = m')) ∧
  (∀ (x : Session) (seq : BitVec 16) (op a step t : Nat) (done : List Word) (w : Word) (n' : Node) (s : State), Serves s a →
    (regAttr a).isSome = true →
    s.node.wf.find? (fun y => y.number == x.number) = some x → x.outst = some (seq, op, .burst a 1 step done) →
    regRead (netPort x.net) a s.mem (s.node.advance t) = (0, w, n') →
    Ends (exec (.hostAccessComplete (.wf x.number) t) s) (fun u =>
      { chan := .wayfare x.net, dest := x.client,
        bytes := wfFrame x.ver op x.number seq.toNat 0 1 (burstPay (done ++ [w])) } ∈ u.node.tx
      ∧ ∀ y ∈ u.node.wf, y.number = x.number → y.outst = none)) ∧
  (∀ (tag : Byte) (r : Fin 518) (t : Nat) (s : State), s.node.up = true →
    s.node.net.svc = some (tag, .rd (resAddr r.val)) → s.node.net.fwds = [] →
    Ends (exec (.hostAccessComplete .svc t) s) (fun u => u.node.net.svc = none
      ∧ SvcSent s u 0 tag (resAddr r.val) (valueWord (s.node.res (resAddr r.val))))) ∧
  (∀ (tag : Byte) (a : Nat) (v : Word) (t : Nat) (x : Bool) (m' : Mems) (n' : Node) (s : State), Takes s a →
    regAttr a = some ⟨x, .wr⟩ → s.node.net.svc = some (tag, .wr a v) → s.node.net.fwds = [] →
    regWrite .m5 a v s.mem (s.node.advance t) = (0, m', n') → svcRspWord n' = svcRspWord s.node →
    Ends (exec (.hostAccessComplete .svc t) s) (fun u => u.node.net.svc = none ∧ SvcSent s u 0 tag a 0#32 ∧ u.mem = m')))

/-- The junction and the result store (R35, R38, R42, R44, R49, R210, R466): a record that waits alone reaches the store with
its sequence number and time, FRESH for every port; a result whose three expected periods have passed becomes STALE and not
VALID and keeps its value; an uncorrectable error loses the result and its error is counted; a corrected one is counted. -/
def Obligations.StoreTakesAndLosesResults : Prop :=
  (∀ (r : Record) (e : Entry) (s : State), s.node.up = true → s.node.dup.role ≠ .standby → s.node.dup.taking = false →
    s.node.jn.slots = [r] → r.entries = [e] → s.node.recs 0x06 2 = [] →
    Ends (exec .junctionDrain s) (fun t => t.node.res e.addr
        = { value := e.value, q := e.q, seq := r.seq, time := r.time, fresh := 15#4, has := true, arrived := s.node.now, lost := false }
      ∧ ∀ a, a ≠ e.addr → t.node.res a = s.node.res a)) ∧
  (∀ (r : Fin 518) (e t : Nat) (s : State), s.node.up = true → s.node.dup.role ≠ .standby →
    (s.node.res (resAddr r.val)).has = true → (s.node.res (resAddr r.val)).lost = false →
    qHas (s.node.res (resAddr r.val)).q qSTALE = false → expectE s.node (resAddr r.val) = some e →
    (s.node.res (resAddr r.val)).time + 3 * e < timeAfter s t →
    Ends (exec (.staleTimeout r t) s) (fun u => (u.node.res (resAddr r.val)).value = (s.node.res (resAddr r.val)).value
      ∧ qHas (u.node.res (resAddr r.val)).q qSTALE = true ∧ qHas (u.node.res (resAddr r.val)).q qVALID = false
      ∧ ∀ a, a ≠ resAddr r.val → u.node.res a = s.node.res a)) ∧
  (∀ (m : Fin 64) (row : Fin 65536) (t : Nat) (s : State), s.node.up = true → s.node.dtr.corr ≠ 0xFFFFFFFF#32 →
    Ends (exec (.scrubPass (.corrected m row) t) s) (fun u => u.node.dtr.corr = s.node.dtr.corr + 1#32
      ∧ u.node.evt.flag 20 = true ∧ u.node.jn.store = s.node.jn.store)) ∧
  (∀ (r : Fin 518) (m : Fin 64) (row : Fin 65536) (t : Nat) (s : State), s.node.up = true → s.node.dtr.unc ≠ 0xFFFFFFFF#32 →
    Ends (exec (.scrubPass (.result r m row) t) s) (fun u => u.node.dtr.unc = s.node.dtr.unc + 1#32
      ∧ u.node.evt.flag 21 = true ∧ valueWord (u.node.res (resAddr r.val)) = 0x80000000#32
      ∧ qseqWord (u.node.res (resAddr r.val)) none = 0#32))

/-- The staging window (R73): STG_ADDR selects a word offset; STG_DATA writes or reads the word there and steps by 4; a write
makes STG_STATE WRITING (1), and while PROGRAMMING (5) or COMMITTING (8) it changes nothing but RM_ERR (STATE, 0x14).

The commands of RM_CTRL, allowed and with the key (R74): CHECK begins checking, COMMIT and PROGRAM hold the staged image
until their own ends, PREFER records the bank, ABORT empties the staging area; none touches the running image.

RM_CTRL turned away (R74): another key changes nothing and sets RM_ERR.CODE to KEY (0x15); a command that is not allowed
changes nothing, sets it to STATE (0x14) and raises event 2. -/
def Obligations.StagingAndLoaderCommands : Prop :=
  (
  (∀ (p : HostPort) (v : Word) (s : State), Takes s 0x0840 → s.node.ld.stgState ≠ 5 → s.node.ld.stgState ≠ 8 →
    Ends (exec (.stgAddrWrite p v) s) (fun t => Acks t p 0x0840 ∧ t.node.ld.stgAddr = v.toNat / 4 % 2 ^ 22 * 4
      ∧ t.node.ld.stgState = 1 ∧ t.mem = s.mem)) ∧
  (∀ (p : HostPort) (v : Word) (s : State), Takes s 0x0844 → s.node.ld.stgState ≠ 5 → s.node.ld.stgState ≠ 8 →
    Ends (exec (.stgDataWrite p v) s) (fun t => Acks t p 0x0844 ∧ memWord 0#8 t.mem.staging s.node.ld.stgAddr = v
      ∧ (∀ a, a < s.node.ld.stgAddr ∨ s.node.ld.stgAddr + 4 ≤ a → tget 0#8 t.mem.staging a = tget 0#8 s.mem.staging a)
      ∧ { t.mem with staging := s.mem.staging } = s.mem
      ∧ t.node.ld.stgAddr = (s.node.ld.stgAddr + 4) % 2 ^ 24 ∧ t.node.ld.stgState = 1)) ∧
  (∀ (p : HostPort) (s : State), Serves s 0x0844 →
    Ends (exec (.stgDataRead p) s) (fun t => Answered t p 0 0x0844 (memWord 0#8 s.mem.staging s.node.ld.stgAddr)
      ∧ t.node.ld = { s.node.ld with stgAddr := (s.node.ld.stgAddr + 4) % 2 ^ 24 } ∧ t.mem = s.mem)) ∧
  (∀ (p : HostPort) (v : Word) (s : State), Takes s 0x0844 → s.node.ld.stgState = 5 ∨ s.node.ld.stgState = 8 →
    Ends (exec (.stgDataWrite p v) s) (fun t => t.mem = s.mem
      ∧ t.node.ld = { s.node.ld with err := { src := t.node.ld.err.src, leg := t.node.ld.err.leg, code := 0x14 }, errOfs := t.node.ld.errOfs })) ∧
  (∀ (p : HostPort) (v : Word) (s : State), Takes s 0x0840 → s.node.ld.stgState = 5 ∨ s.node.ld.stgState = 8 →
    Ends (exec (.stgAddrWrite p v) s) (fun t => t.mem = s.mem
      ∧ t.node.ld = { s.node.ld with err := { src := t.node.ld.err.src, leg := t.node.ld.err.leg, code := 0x14 }, errOfs := t.node.ld.errOfs }))) ∧
  (
  ∀ (p : HostPort) (s : State), Takes s 0x0804 →
    (s.node.ld.stgState ∈ [1, 3, 4, 6, 7] →
      Ends (exec (.checkImg p 0x10AD#16) s) (fun t => Acks t p 0x0804 ∧ t.node.ld = { s.node.ld with stgState := 2 } ∧ t.mem = s.mem)) ∧
    (s.node.ld.stgState ∈ [3, 6, 7] → s.node.dev.st ∈ [DevSt.boot, .ready, .run, .degraded, .safe] →
      Ends (exec (.commitImg p 0x10AD#16) s) (fun t => Acks t p 0x0804 ∧ t.node.ld = { s.node.ld with stgState := 8 } ∧ t.mem = s.mem)) ∧
    (s.node.ld.stgState ∈ [3, 6, 7] →
      Ends (exec (.programA p 0x10AD#16) s) (fun t => Acks t p 0x0804 ∧ t.node.ld = { s.node.ld with stgState := 5, progB := false } ∧ t.mem = s.mem)) ∧
    (s.node.ld.stgState ∈ [3, 6, 7] →
      Ends (exec (.programB p 0x10AD#16) s) (fun t => Acks t p 0x0804 ∧ t.node.ld = { s.node.ld with stgState := 5, progB := true } ∧ t.mem = s.mem)) ∧
    (s.node.ld.stgState ≠ 5 →
      Ends (exec (.preferA p 0x10AD#16) s) (fun t => Acks t p 0x0804 ∧ t.node.ld = { s.node.ld with prefB := false } ∧ t.mem = s.mem)) ∧
    (s.node.ld.stgState ≠ 5 →
      Ends (exec (.preferB p 0x10AD#16) s) (fun t => Acks t p 0x0804 ∧ t.node.ld = { s.node.ld with prefB := true } ∧ t.mem = s.mem)) ∧
    (s.node.ld.stgState ≠ 5 →
      Ends (exec (.abortImg p 0x10AD#16) s) (fun t => Acks t p 0x0804 ∧ t.node.ld = { s.node.ld with stgState := 0 }
        ∧ t.mem = { s.mem with staging := [] }))) ∧
  (
  (∀ (p : HostPort) (key : BitVec 16) (s : State), Takes s 0x0804 →
    ∀ c ∈ [Instr.checkImg p key, .commitImg p key, .programA p key, .programB p key, .preferA p key, .preferB p key, .abortImg p key],
      (key ≠ 0x10AD#16 → Ends (exec c s) (fun t => t.mem = s.mem ∧ t.node.ld.err.code = 0x15
        ∧ t.node.ld = { s.node.ld with err := t.node.ld.err, errOfs := t.node.ld.errOfs })) ∧
      (key = 0x10AD#16 → s.node.ld.stgState = 5 → Ends (exec c s) (fun t => t.mem = s.mem ∧ t.node.ld.err.code = 0x14
        ∧ t.node.ld = { s.node.ld with err := t.node.ld.err, errOfs := t.node.ld.errOfs } ∧ t.node.evt.flag 2 = true))) ∧
  (∀ (p : HostPort) (s : State), Takes s 0x0804 →
    (s.node.ld.stgState ∈ [0, 2, 8] → Ends (exec (.checkImg p 0x10AD#16) s) (fun t => t.mem = s.mem ∧ t.node.ld.err.code = 0x14
        ∧ t.node.ld = { s.node.ld with err := t.node.ld.err, errOfs := t.node.ld.errOfs } ∧ t.node.evt.flag 2 = true)) ∧
    (s.node.ld.stgState ∈ [0, 1, 2, 4, 8] →
      ∀ c ∈ [Instr.commitImg p 0x10AD#16, .programA p 0x10AD#16, .programB p 0x10AD#16], Ends (exec c s) (fun t =>
        t.mem = s.mem ∧ t.node.ld.err.code = 0x14
        ∧ t.node.ld = { s.node.ld with err := t.node.ld.err, errOfs := t.node.ld.errOfs } ∧ t.node.evt.flag 2 = true)) ∧
    (s.node.dev.st ∈ [DevSt.load, .verify, .calibrate] → Ends (exec (.commitImg p 0x10AD#16) s) (fun t =>
        t.mem = s.mem ∧ t.node.ld.err.code = 0x14
        ∧ t.node.ld = { s.node.ld with err := t.node.ld.err, errOfs := t.node.ld.errOfs } ∧ t.node.evt.flag 2 = true))))

/-- CHECK_COMPLETE and PROGRAM_COMPLETE (R70, R74, R75): the staged image stands checked or its first failure is reported with
SRC 3 and event 2; flash holds the staged bytes, or the bank is INVALID with code FLASH (0x10); the other bank and the running
image are as they were.

The phases of a load (R68, R70 to R72, R76, R80, R83): a good LOAD phase, from the bank or the staging area, enters VERIFY; a
good VERIFY applies the image, locks the bindings, enters CALIBRATE and raises event 1. A failing phase is reported with the
source's code and event 2 and leaves the module in BOOT: a bank that fails first selects the other, the second none, a staged
image the preferred bank. -/
def Obligations.CheckProgramAndLoadPhases : Prop :=
  (
  (∀ (s : State), s.node.up = true → s.node.ld.stgState = 2 →
    (∀ g, checkImage s.node.ld.lock (areaBytes 0#8 s.mem.staging) = .ok g →
      Ends (exec .checkComplete s) (fun t => t.node.ld = { s.node.ld with stgState := 3 } ∧ t.mem = s.mem)) ∧
    (∀ e, checkImage s.node.ld.lock (areaBytes 0#8 s.mem.staging) = .error e →
      Ends (exec .checkComplete s) (fun t => t.node.ld.stgState = 4 ∧ t.node.ld.err = { src := 3, leg := e.leg, code := e.code }
        ∧ t.node.ld.errOfs = e.ofs ∧ t.node.ld.img = s.node.ld.img ∧ t.node.evt.flag 2 = true ∧ t.mem = s.mem))) ∧
  (∀ (t : Nat) (s : State), s.node.up = true → s.node.ld.stgState = 5 →
    Ends (exec (.programComplete true t) s) (fun u => u.node.ld.stgState = 6
      ∧ (∀ i < (areaBytes 0#8 s.mem.staging).length, tget 0xFF#8 (bankMem u.mem s.node.ld.progB) i = tget 0#8 s.mem.staging i)
      ∧ bankMem u.mem (!s.node.ld.progB) = bankMem s.mem (!s.node.ld.progB) ∧ u.mem.staging = s.mem.staging
      ∧ (if s.node.ld.progB then u.node.ld.bankB else u.node.ld.bankA).state = 1 ∧ u.node.ld.img = s.node.ld.img)) ∧
  (∀ (t : Nat) (s : State), s.node.up = true → s.node.ld.stgState = 5 →
    Ends (exec (.programComplete false t) s) (fun u => u.node.ld.stgState = 7
      ∧ (if s.node.ld.progB then u.node.ld.bankB else u.node.ld.bankA) = { state := 3, code := 0x10, rev := 0 }
      ∧ bankMem u.mem (!s.node.ld.progB) = bankMem s.mem (!s.node.ld.progB) ∧ u.node.ld.img = s.node.ld.img
      ∧ u.node.evt.flag 2 = true))) ∧
  (
  (∀ (g : Image) (t : Nat) (s : State), s.node.up = true → s.node.dev.st = .boot → s.node.ld.sel = .bankA →
    loadBank s.mem.flashA false = .ok g →
    Ends (exec (.routeMapLoad false t) s) (fun u => u.node.dev.st = .verify ∧ u.node.ld.cand = some g ∧ u.node.ld.phase = 3 ∧ u.mem = s.mem)) ∧
  (∀ (g : Image) (t : Nat) (s : State), s.node.up = true → s.node.dev.st = .boot → s.node.ld.sel = .bankB →
    loadBank s.mem.flashB false = .ok g →
    Ends (exec (.routeMapLoad false t) s) (fun u => u.node.dev.st = .verify ∧ u.node.ld.cand = some g ∧ u.node.ld.phase = 3 ∧ u.mem = s.mem)) ∧
  (∀ (f : Bool) (t : Nat) (e : RmFail) (s : State), s.node.up = true → s.node.dev.st = .boot → s.node.ld.sel = .bankA →
    s.node.ld.tried = [] → loadBank s.mem.flashA f = .error e →
    Ends (exec (.routeMapLoad f t) s) (fun u => u.node.dev.st = .boot ∧ u.node.ld.sel = .bankB ∧ u.node.ld.prefB = s.node.ld.prefB
      ∧ u.node.ld.err = { src := 1, leg := e.leg, code := e.code } ∧ u.node.ld.bankA.code = e.code
      ∧ u.node.evt.flag 2 = true ∧ u.mem = s.mem)) ∧
  (∀ (g h : Image) (t : Nat) (s : State), s.node.up = true → s.node.dev.st = .verify → s.node.ld.cand = some g →
    verifyImage s.node.ld.lock g = .ok h →
    Ends (exec (.routeMapVerify t) s) (fun u => u.node.dev.st = .calibrate ∧ u.node.ld.img = some h ∧ u.node.ld.phase = 5
      ∧ u.node.ld.lock.isSome = true ∧ (∀ k, s.node.ld.lock = some k → u.node.ld.lock = some k) ∧ u.node.evt.flag 1 = true
      ∧ u.mem = s.mem)) ∧
  (∀ (f : Bool) (t : Nat) (e : RmFail) (s : State), s.node.up = true → s.node.dev.st = .boot → s.node.ld.sel = .bankB →
    s.node.ld.tried = [.bankA] → loadBank s.mem.flashB f = .error e →
    Ends (exec (.routeMapLoad f t) s) (fun u => u.node.dev.st = .boot ∧ u.node.ld.sel = .none ∧ u.node.ld.img = none
      ∧ u.node.ld.err = { src := 2, leg := e.leg, code := e.code } ∧ u.node.ld.bankB.code = e.code
      ∧ u.node.evt.flag 2 = true ∧ u.mem = s.mem)) ∧
  (∀ (g : Image) (f : Bool) (t : Nat) (s : State), s.node.up = true → s.node.dev.st = .load → s.node.ld.sel = .staging →
    loadImage (areaBytes 0#8 s.mem.staging) = .ok g →
    Ends (exec (.routeMapLoad f t) s) (fun u => u.node.dev.st = .verify ∧ u.node.ld.cand = some g ∧ u.node.ld.phase = 3 ∧ u.mem = s.mem)) ∧
  (∀ (f : Bool) (t : Nat) (e : RmFail) (s : State), s.node.up = true → s.node.dev.st = .load → s.node.ld.sel = .staging →
    loadImage (areaBytes 0#8 s.mem.staging) = .error e →
    Ends (exec (.routeMapLoad f t) s) (fun u => u.node.dev.st = .boot
      ∧ u.node.ld.sel = (if s.node.ld.prefB then .bankB else .bankA)
      ∧ u.node.ld.err = { src := 3, leg := e.leg, code := e.code } ∧ u.node.evt.flag 2 = true ∧ u.mem = s.mem)) ∧
  (∀ (g : Image) (t : Nat) (e : RmFail) (s : State), s.node.up = true → s.node.dev.st = .verify → s.node.ld.cand = some g →
    verifyImage s.node.ld.lock g = .error e →
    Ends (exec (.routeMapVerify t) s) (fun u => u.node.dev.st = .boot ∧ u.node.ld.cand = none ∧ u.node.ld.err.leg = e.leg
      ∧ u.node.ld.err.code = e.code ∧ u.node.evt.flag 2 = true ∧ u.mem = s.mem)))

/-- Live replacement (R74, R76, R78, R81): words go to the live area up to LIVE_END; a SUBMIT starts the check (state 2), an empty
one is refused with MISSING (0x0A), one that is not allowed with STATE (0x14; that the area stays is the model's choice,
notes/assumptions/19.md); CANCEL empties the area before PENDING; a check that fails refuses the submission with SRC 5 and
empties the area, a good one leaves the legs pending (3), and they take effect together unless a COMMIT begins: LIVE_TICK,
DIVERGED, event 1, the area empty, flash untouched. While it is checked or pending the area is not written. -/
def Obligations.LiveReplacement : Prop :=
  (∀ (p : HostPort) (v : Word) (s : State), Takes s 0x0854 → s.node.ld.liveStat ≠ 2 → s.node.ld.liveStat ≠ 3 →
    Ends (exec (.liveDataWrite p v) s) (fun t => Acks t p 0x0854 ∧ memWord 0#8 t.mem.live s.node.ld.liveAddr = v
      ∧ (∀ a, a < s.node.ld.liveAddr ∨ s.node.ld.liveAddr + 4 ≤ a → tget 0#8 t.mem.live a = tget 0#8 s.mem.live a)
      ∧ t.mem.liveEnd = max s.mem.liveEnd (s.node.ld.liveAddr + 4) ∧ t.node.ld.liveStat = 1)) ∧
  (∀ (p : HostPort) (s : State), Takes s 0x0858 → s.node.acq = true → s.node.ld.liveStat ≠ 2 → s.node.ld.liveStat ≠ 3 →
    (s.mem.liveEnd ≠ 0 → Ends (exec (.submitLive p) s) (fun t => Acks t p 0x0858 ∧ t.node.ld.liveStat = 2 ∧ t.mem = s.mem)) ∧
    (s.mem.liveEnd = 0 → Ends (exec (.submitLive p) s) (fun t => t.node.ld.liveStat = 5 ∧ t.node.ld.err.code = 0x0A
      ∧ t.node.ld.err.src = 5 ∧ t.node.evt.flag 2 = true ∧ t.mem.live = []))) ∧
  (∀ (p : HostPort) (s : State), Takes s 0x0858 → s.node.ld.liveStat ≠ 3 →
    Ends (exec (.cancelLive p) s) (fun t => Acks t p 0x0858 ∧ t.mem = { s.mem with live := [], liveEnd := 0 } ∧ t.node.ld.liveStat = 0)) ∧
  (∀ (s : State) (g : Image) (ls : List Leg), s.node.up = true → s.node.ld.img = some g → s.node.ld.liveStat = 2 →
    checkLive g ((liveGens s.node).map BitVec.toNat) (memBytes 0#8 s.mem.live 0 s.mem.liveEnd) = .ok ls →
    Ends (exec .liveCheckComplete s) (fun t => t.node.ld = { s.node.ld with liveStat := 3, livePend := ls } ∧ t.mem = s.mem)) ∧
  (∀ (t : Nat) (s : State) (g : Image), s.node.up = true → s.node.ld.img = some g → s.node.ld.liveStat = 3 →
    commitDue s.node = false →
    Ends (exec (.liveReplacement t) s) (fun u => u.node.ld.liveStat = 4 ∧ u.node.ld.diverged = true ∧ u.node.ld.livePend = []
      ∧ u.node.ld.img = some (withLive g s.node.ld.livePend) ∧ u.node.ld.liveTick = wd (timeAfter s t / 250000)
      ∧ u.node.evt.flag 1 = true ∧ u.mem = { s.mem with live := [], liveEnd := 0 })) ∧
  (∀ (p : HostPort) (s : State), Takes s 0x0858 → s.node.acq = false ∨ s.node.ld.liveStat = 2 ∨ s.node.ld.liveStat = 3 →
    Ends (exec (.submitLive p) s) (fun t => t.node.ld.err.code = 0x14 ∧ t.node.evt.flag 2 = true ∧ t.mem = s.mem
      ∧ t.node.ld = { s.node.ld with err := t.node.ld.err, errOfs := t.node.ld.errOfs })) ∧
  (∀ (p : HostPort) (s : State), Takes s 0x0858 → s.node.ld.liveStat = 3 →
    Ends (exec (.cancelLive p) s) (fun t => t.node.ld.err.code = 0x14 ∧ t.node.evt.flag 2 = true ∧ t.mem = s.mem
      ∧ t.node.ld = { s.node.ld with err := t.node.ld.err, errOfs := t.node.ld.errOfs })) ∧
  (∀ (p : HostPort) (v : Word) (s : State), Takes s 0x0854 → s.node.ld.liveStat = 2 ∨ s.node.ld.liveStat = 3 →
    Ends (exec (.liveDataWrite p v) s) (fun t => t.node.ld.err.code = 0x14 ∧ t.mem = s.mem
      ∧ t.node.ld = { s.node.ld with err := t.node.ld.err, errOfs := t.node.ld.errOfs })) ∧
  (∀ (s : State) (g : Image) (e : RmFail), s.node.up = true → s.node.ld.img = some g → s.node.ld.liveStat = 2 →
    checkLive g ((liveGens s.node).map BitVec.toNat) (memBytes 0#8 s.mem.live 0 s.mem.liveEnd) = .error e →
    Ends (exec .liveCheckComplete s) (fun t => t.node.ld.liveStat = 5 ∧ t.node.ld.img = some g ∧ t.node.ld.livePend = []
      ∧ t.node.ld.err = { src := 5, leg := e.leg, code := e.code } ∧ t.node.evt.flag 2 = true
      ∧ t.mem = { s.mem with live := [], liveEnd := 0 })) ∧
  (∀ (t : Nat) (s : State), s.node.up = true → commitDue s.node = true →
    Ends (exec (.liveReplacement t) s) (fun u => u.node.ld = s.node.ld ∧ u.mem = s.mem))

/-- Resets (R82, R83, R88, R99 to R101): each source brings the module to BOOT with its cause, DEVTIME 0 and event 0; a low
RESET_N holds it until the release, at supply valid too; the watchdog also sets event 3; RESET needs its key; without supply it
is OFF, and flash stays. What meets a module already there changes nothing. -/
def Obligations.ResetsBringBoot : Prop :=
  (∀ (r : Bool) (s : State), s.node.dev.st = .off → s.node.dev.pinLow = false →
    Ends (exec (.supplyValid r) s) (fun t => Booted 1 s t ∧ t.node.up = true)) ∧
  (∀ (s : State), s.node.dev.st ≠ .off →
    Ends (exec .supplyInvalid s) (fun t => t.node.dev.st = .off ∧ t.node.ld.img = none ∧ t.node.ld.prefB = s.node.ld.prefB
      ∧ t.mem.staging = [] ∧ t.node.clk.secs = s.node.clk.secs
      ∧ (s.node.ld.stgState ≠ 5 → t.mem.flashA = s.mem.flashA ∧ t.mem.flashB = s.mem.flashB))) ∧
  (∀ (r : Bool) (s : State), s.node.dev.st ≠ .off → s.node.dev.pinLow = false →
    Ends (exec (.resetPin true r) s) (fun t => Booted 2 s t ∧ t.node.up = false ∧ t.node.dev.pinLow = true)) ∧
  (∀ (r : Bool) (s : State), s.node.dev.st ≠ .off → s.node.dev.pinLow = true →
    Ends (exec (.resetPin false r) s) (fun t => Booted s.node.dev.cause s t ∧ t.node.up = true)) ∧
  (∀ (r : Bool) (s : State), s.node.up = true →
    Ends (exec (.watchdogExpiry r) s) (fun t => Booted 3 s t ∧ t.node.up = true ∧ t.node.evt.flag 3 = true)) ∧
  (∀ (p : HostPort) (r : Bool) (s : State), Takes s 0x0024 →
    Ends (exec (.resetCmd p 0x5EA5#16 r) s) (fun t => Booted 4 s t ∧ t.node.up = true ∧ t.node.dup.roleIn = r)) ∧
  (∀ (r : Bool) (s : State), s.node.dev.st = .off → s.node.dev.pinLow = true →
    Ends (exec (.supplyValid r) s) (fun t => t.node.dev = { s.node.dev with st := .boot, cause := 1 } ∧ t.node.up = false
      ∧ t.mem = s.mem)) ∧
  (∀ (r : Bool) (s : State), s.node.dev.st ≠ .off → exec (.supplyValid r) s = .next s) ∧
  (∀ (s : State), s.node.dev.st = .off → exec .supplyInvalid s = .next s) ∧
  (∀ (low r : Bool) (s : State), s.node.dev.pinLow = low → exec (.resetPin low r) s = .next s) ∧
  (∀ (low r : Bool) (s : State), s.node.dev.pinLow ≠ low → s.node.dev.st = .off →
    Ends (exec (.resetPin low r) s) (fun t => t.node.dev = { s.node.dev with pinLow := low } ∧ t.node.ld = s.node.ld ∧ t.mem = s.mem)) ∧
  (∀ (r : Bool) (s : State), s.node.up = false → exec (.watchdogExpiry r) s = .next s)

/-- DEV_CTRL (R83, R91, R97, R102, R103): RUN and HALT wait for the next scan tick, SAFE is entered at once with cause 6; an
accepted write clears CMD_REFUSED; a write with another key, or not allowed in the present state, changes nothing and sets it.

Entries and conditions (R83, R87, R89 to R92, R447): calibration ends in READY, with RUN asked for where AUTO_RUN says so; RUN
enters RUN or DEGRADED, HALT enters READY, each where it was asked for and, for RUN, where the roles are settled; feeds and
over-temperature raise events 4 to 6 as they change and change no state. -/
def Obligations.DeviceStates : Prop :=
  (
  (∀ (p : HostPort) (s : State), Takes s 0x0024 → s.node.dev.st = .ready →
    Ends (exec (.runCmd p 0x5EA5#16) s) (fun t => Acks t p 0x0024 ∧ t.node.dev = { s.node.dev with pend := .run, refused := false })) ∧
  (∀ (p : HostPort) (s : State), Takes s 0x0024 → s.node.running = true →
    Ends (exec (.haltCmd p 0x5EA5#16) s) (fun t => Acks t p 0x0024 ∧ t.node.dev.pend = .halt ∧ t.node.dev.refused = false
      ∧ t.node.running = true)) ∧
  (∀ (p : HostPort) (s : State), Takes s 0x0024 → s.node.acq = true →
    Ends (exec (.safeCmd p 0x5EA5#16) s) (fun t => Acks t p 0x0024 ∧ t.node.dev.st = .safe ∧ t.node.dev.safeCause = 6
      ∧ t.node.dev.prev = s.node.dev.st ∧ t.node.dev.pend = .none ∧ t.node.dev.refused = false ∧ t.node.evt.flag 0 = true)) ∧
  (∀ (p : HostPort) (key : BitVec 16) (r : Bool) (s : State), Takes s 0x0024 →
    ∀ c ∈ [Instr.runCmd p key, .haltCmd p key, .safeCmd p key, .resetCmd p key r], key ≠ 0x5EA5#16 →
    Ends (exec c s) (fun t => t.node.dev.refused = true ∧ t.node.dev.pend = s.node.dev.pend ∧ t.node.running = s.node.running
      ∧ (s.node.running = false → t.node.dev = { s.node.dev with refused := true }) ∧ t.mem = s.mem)) ∧
  (∀ (p : HostPort) (s : State), Takes s 0x0024 → s.node.dev.st = .calibrate →
    ∀ c ∈ [Instr.runCmd p 0x5EA5#16, .haltCmd p 0x5EA5#16, .safeCmd p 0x5EA5#16],
    Ends (exec c s) (fun t => t.node.dev = { s.node.dev with refused := true } ∧ t.mem = s.mem)) ∧
  (∀ (p : HostPort) (s : State), Takes s 0x0024 → s.node.running = true →
    Ends (exec (.runCmd p 0x5EA5#16) s) (fun t => t.node.dev.refused = true ∧ t.node.dev.pend = s.node.dev.pend
      ∧ t.node.running = true ∧ t.mem = s.mem)) ∧
  (∀ (p : HostPort) (s : State), Takes s 0x0024 → s.node.acq = false →
    ∀ c ∈ [Instr.runCmd p 0x5EA5#16, .haltCmd p 0x5EA5#16, .safeCmd p 0x5EA5#16],
    Ends (exec c s) (fun t => t.node.dev = { s.node.dev with refused := true } ∧ t.mem = s.mem)) ∧
  (∀ (p : HostPort) (s : State), Takes s 0x0024 → s.node.dev.st = .ready →
    Ends (exec (.haltCmd p 0x5EA5#16) s) (fun t => t.node.dev = { s.node.dev with refused := true } ∧ t.mem = s.mem))) ∧
  (
  (∀ (x : CalMeas) (r : Bool) (t : Nat) (s : State), s.node.up = true → s.node.dev.st = .calibrate →
    Ends (exec (.initialCalibrationComplete x r t) s) (fun u => u.node.dev.st = .ready ∧ u.node.dev.prev = .calibrate
      ∧ u.node.evt.flag 0 = true ∧ (s.node.autoRun = true → u.node.dev.pend = .run))) ∧
  (∀ (t : Nat) (s : State), s.node.up = true → s.node.dev.st = .ready → s.node.dev.pend = .run → s.node.dup.findAt = none →
    Ends (exec (.runEntry t) s) (fun u => u.node.running = true ∧ u.node.dev.pend = .none ∧ u.node.evt.flag 0 = true)) ∧
  (∀ (t : Nat) (s : State), s.node.up = true → s.node.running = true → s.node.dev.pend = .halt →
    Ends (exec (.haltEffect t) s) (fun u => u.node.dev.st = .ready ∧ u.node.dev.prev = s.node.dev.st ∧ u.node.dev.pend = .none
      ∧ u.node.evt.flag 0 = true)) ∧
  (∀ (b : Bool) (t : Nat) (s : State), s.node.up = true →
    Ends (exec (.feedLost b t) s) (fun u => (if b then u.node.dev.feedB else u.node.dev.feedA) = false
      ∧ (if b then u.node.dev.feedA = s.node.dev.feedA else u.node.dev.feedB = s.node.dev.feedB)
      ∧ ((if b then s.node.dev.feedB else s.node.dev.feedA) = true → u.node.evt.flag (if b then 5 else 4) = true)
      ∧ u.node.running = s.node.running)) ∧
  (∀ (b : Bool) (t : Nat) (s : State), s.node.up = true →
    Ends (exec (.feedRegained b t) s) (fun u => (if b then u.node.dev.feedB else u.node.dev.feedA) = true
      ∧ (if b then u.node.dev.feedA = s.node.dev.feedA else u.node.dev.feedB = s.node.dev.feedB) ∧ u.node.running = s.node.running)) ∧
  (∀ (t : Nat) (s : State), s.node.up = true →
    Ends (exec (.overtempSet t) s) (fun u => u.node.dev.overtemp = true
      ∧ (s.node.dev.overtemp = false → u.node.evt.flag 6 = true) ∧ u.node.running = s.node.running)) ∧
  (∀ (t : Nat) (s : State), s.node.up = true →
    Ends (exec (.overtempClear t) s) (fun u => u.node.dev.overtemp = false ∧ u.node.running = s.node.running)) ∧
  (∀ (t : Nat) (s : State), s.node.up = true → s.node.dev.st ≠ .ready ∨ s.node.dev.pend ≠ .run ∨ s.node.dup.findAt ≠ none →
    Ends (exec (.runEntry t) s) (fun u => u.node.running = s.node.running ∧ u.node.dev.pend = s.node.dev.pend)) ∧
  (∀ (t : Nat) (s : State), s.node.up = true → s.node.running = false ∨ s.node.dev.pend ≠ .halt →
    Ends (exec (.haltEffect t) s) (fun u => u.node.running = s.node.running ∧ u.node.dev.pend = s.node.dev.pend)))

/-- The SPI port (R106, R109 to R113, R130, R451): every whole frame shifts out the answer to the one before, with its CRC-8; a NOP
asks for nothing; a reserved OP and an address with no register answer NO_REGISTER (2), a stopped island ISLAND_DOWN (1), a
missing EXPERT EXPERT_LOCKED (3, event 7); an access within I0 is answered in the next frame with the register's word or
status; one across a causeway, or a plant write of a STANDBY, stays outstanding; meanwhile a frame is answered BUSY (4) and does
nothing. A broken frame raises event 8, and the frame after it carries CRC_ERR (5), before BUSY (R106). -/
def Obligations.SpiFrames : Prop :=
  (∀ (tag : Byte) (a : BitVec 15) (t : Nat) (s : State), s.node.up = true → s.node.spi.outst = none →
    Ends (exec (.spiNop 0#4 tag a t) s) (fun u =>
      u.node = { (s.node.advance t) with spi := { s.node.spi with out := s.node.spi.resp, miso := s.node.spi.resp.wire, resp := {} } }
      ∧ u.mem = s.mem)) ∧
  (∀ (op : BitVec 4) (tag : Byte) (a : BitVec 15) (t : Nat) (s : State), s.node.up = true → s.node.spi.outst = none → 2 < op.toNat →
    Ends (exec (.spiNop op tag a t) s) (fun u => u.node.spi.out = s.node.spi.resp ∧ u.node.spi.miso = s.node.spi.resp.wire
      ∧ u.node.spi.resp = { status := 2, tag := tag, addr := a.toNat, data := 0#32 } ∧ u.mem = s.mem)) ∧
  (∀ (tag : Byte) (a : BitVec 15) (t st : Nat) (w : Word) (n' : Node) (s : State), Serves s a.toNat → s.node.spi.outst = none →
    (regAttr a.toNat).isSome = true → regIsl a.toNat false = 0 →
    regRead .m1 a.toNat s.mem { (spiShift s.node.spi.resp (s.node.advance t)) with spi.resp := {} } = (st, w, n') →
    Ends (exec (.spiRead tag a t) s) (fun u => u.node.spi.out = s.node.spi.resp ∧ u.node.spi.outst = none
      ∧ u.node.spi.resp = { status := st, tag := tag, addr := a.toNat, data := if st = 0 then w else 0#32 } ∧ u.mem = s.mem)) ∧
  (∀ (tag : Byte) (a : BitVec 15) (t : Nat) (s : State), Serves s a.toNat → s.node.spi.outst = none → (regAttr a.toNat).isSome = true →
    regIsl a.toNat false ≠ 0 →
    Ends (exec (.spiRead tag a t) s) (fun u => u.node.spi = { s.node.spi with
      out := s.node.spi.resp, miso := s.node.spi.resp.wire, resp := {}, outst := some (tag, .rd a.toNat) } ∧ u.mem = s.mem)) ∧
  (∀ (tag : Byte) (a : BitVec 15) (t : Nat) (s : State), s.node.up = true → s.node.spi.outst = none → regAttr a.toNat = none →
    Ends (exec (.spiRead tag a t) s) (fun u => u.node.spi.out = s.node.spi.resp
      ∧ u.node.spi.resp = { status := 2, tag := tag, addr := a.toNat, data := 0#32 })) ∧
  (∀ (tag : Byte) (v : Word) (t : Nat) (s : State), Takes s 0x0840 → s.node.spi.outst = none → s.node.ld.stgState ≠ 5 → s.node.ld.stgState ≠ 8 →
    Ends (exec (.spiWrite tag 0x0840#15 v t) s) (fun u => u.node.ld.stgAddr = v.toNat / 4 % 2 ^ 22 * 4
      ∧ u.node.spi.resp = { status := 0, tag := tag, addr := 0x0840, data := 0#32 })) ∧
  (∀ (tag : Byte) (a : BitVec 15) (v : Word) (t : Nat) (s : State), Takes s a.toNat → s.node.spi.outst = none → (regAttr a.toNat).isSome = true →
    regIsl a.toNat true ≠ 0 →
    Ends (exec (.spiWrite tag a v t) s) (fun u => u.node.spi = { s.node.spi with
      out := s.node.spi.resp, miso := s.node.spi.resp.wire, resp := {}, outst := some (tag, .wr a.toNat v) } ∧ u.mem = s.mem)) ∧
  (∀ (tag tg : Byte) (a : BitVec 15) (c : Acc) (v : Word) (t : Nat) (s : State), s.node.up = true → s.node.spi.outst = some (tg, c) →
    ∀ i ∈ [Instr.spiNop 0#4 tag a t, .spiRead tag a t, .spiWrite tag a v t], Ends (exec i s) (fun u => u.mem = s.mem
      ∧ u.node.spi.out = (if s.node.spi.crcErr then { status := 5 } else { status := 4, tag := tg, addr := accAddr c, data := 0#32 })
      ∧ u.node.spi.miso = u.node.spi.out.wire ∧ u.node.spi.outst = some (tg, c) ∧ u.node.spi.crcErr = false)) ∧
  (∀ (t : Nat) (s : State), s.node.up = true → s.node.spi.outst = none →
    Ends (exec (.spiFrameError t) s) (fun u => u.node.spi.out = s.node.spi.resp ∧ u.node.spi.resp = { status := 5 }
      ∧ u.node.evt.flag 8 = true ∧ u.mem = s.mem)) ∧
  (∀ (tg : Byte) (c : Acc) (t : Nat) (s : State), s.node.up = true → s.node.spi.outst = some (tg, c) →
    Ends (exec (.spiFrameError t) s) (fun u => u.node.spi.outst = some (tg, c) ∧ u.node.spi.crcErr = true
      ∧ u.node.evt.flag 8 = true ∧ u.mem = s.mem)) ∧
  (∀ (tag : Byte) (a : BitVec 15) (t : Nat) (s : State), s.node.up = true → s.node.spi.outst = none → (regAttr a.toNat).isSome = true →
    s.node.isRun (regIsl a.toNat false) = false → isValue a.toNat = false → isQseq a.toNat = false →
    Ends (exec (.spiRead tag a t) s) (fun u => u.node.spi.out = s.node.spi.resp ∧ u.node.spi.outst = none
      ∧ u.node.spi.resp = { status := 1, tag := tag, addr := a.toNat, data := 0#32 })) ∧
  (∀ (tag : Byte) (a : BitVec 15) (v : Word) (t st : Nat) (x : Bool) (m' : Mems) (n' : Node) (s : State), Takes s a.toNat →
    s.node.spi.outst = none → regAttr a.toNat = some ⟨x, .wr⟩ → regIsl a.toNat true = 0 →
    regWrite .m1 a.toNat v s.mem { (spiShift s.node.spi.resp (s.node.advance t)) with spi.resp := {} } = (st, m', n') →
    Ends (exec (.spiWrite tag a v t) s) (fun u => u.mem = m'
      ∧ u.node.spi.resp = { status := st, tag := tag, addr := a.toNat, data := 0#32 })) ∧
  (∀ (tag : Byte) (a : BitVec 15) (v : Word) (t : Nat) (s : State), s.node.up = true → s.node.spi.outst = none → regAttr a.toNat = none →
    Ends (exec (.spiWrite tag a v t) s) (fun u => u.mem = s.mem
      ∧ u.node.spi.resp = { status := 2, tag := tag, addr := a.toNat, data := 0#32 })) ∧
  (∀ (tag : Byte) (a : BitVec 15) (v : Word) (t : Nat) (x : RegAttr) (s : State), s.node.up = true → s.node.spi.outst = none →
    regAttr a.toNat = some x → forwards s.node a.toNat = false → s.node.isRun (regIsl a.toNat true) = false →
    Ends (exec (.spiWrite tag a v t) s) (fun u => u.mem = s.mem
      ∧ u.node.spi.resp = { status := 1, tag := tag, addr := a.toNat, data := 0#32 })) ∧
  (∀ (tag : Byte) (a : BitVec 15) (v : Word) (t : Nat) (x : RegAttr) (s : State), s.node.up = true → s.node.spi.outst = none →
    regAttr a.toNat = some x → forwards s.node a.toNat = false → s.node.isRun (regIsl a.toNat true) = true →
    levelLocked s.node a.toNat x = true →
    Ends (exec (.spiWrite tag a v t) s) (fun u => u.mem = s.mem ∧ u.node.evt.flag 7 = true
      ∧ u.node.spi.resp = { status := 3, tag := tag, addr := a.toNat, data := 0#32 })) ∧
  (∀ (tag : Byte) (a : BitVec 15) (v : Word) (t : Nat) (x : RegAttr) (s : State), s.node.up = true → s.node.spi.outst = none →
    regAttr a.toNat = some x → forwards s.node a.toNat = true → linkUp s.node = true → levelLocked s.node a.toNat x = false →
    Ends (exec (.spiWrite tag a v t) s) (fun u => u.mem = s.mem ∧ u.node.spi.outst = some (tag, .wr a.toNat v)
      ∧ u.node.net.fwds = s.node.net.fwds ++ [.spi]))

/-- Wayfare sessions (R115 to R119, R132): HELLO opens a session with the highest common version and answers with its number and
the module's identity under the header's session 0, and is refused without a common version (VERSION 0x12), with four sessions
open on the port (SESSIONS_FULL 0x13), or with a wrong length (BAD_REQUEST 0x11); CLOSE and 30 s without a request end it; a
damaged datagram raises event 8 and is answered by nothing; a port without the service does nothing.

Wayfare requests (R105, R106, R116 to R121, R124, R130, R451): the answer goes to the client and is kept for a repeat; a
register's word or status, one that needs a causeway or the partner waits; NO_REGISTER (2), ISLAND_DOWN (1) and EXPERT_LOCKED (3)
as R106 ranks them; a burst answers its words, with arguments out of range BAD_REQUEST (0x11); MBX_POST and MBX_FETCH work the
mailboxes or are refused; SUBSCRIBE and SNAP begin their pushes and copies. A repeat is answered again and not executed again;
with no session NO_SESSION (0x10), with an access outstanding BUSY (4), with a length or operation outside the table BAD_REQUEST. -/
def Obligations.WayfareSessionsAndRequests : Prop :=
  (
  (∀ (b : Bool) (c : Nat) (mn mx : Byte) (q : BitVec 16) (sess : Word) (t : Nat) (s : State), s.node.up = true → wayfareOn s.node b = true →
    sess ≠ 0#32 → (∀ x ∈ s.node.wf, x.number ≠ sess) → 0 < min mx.toNat (wfModMax s.node) → mn.toNat ≤ min mx.toNat (wfModMax s.node) →
    ((sessionTick (s.node.advance t)).wf.filter (fun x => x.net == b)).length < 4 →
    Ends (exec (.hello b c ⟨mn, mx⟩ q sess true t) s) (fun u => u.node.wf = (sessionTick (s.node.advance t)).wf
        ++ [{ net := b, number := sess, client := c, ver := min mx.toNat (wfModMax s.node), lastReq := timeAfter s t }]
      ∧ Replied u { net := b, client := c, session := 0#32, seq := q } 0 1 0#32 0
          ([BitVec.ofNat 8 (min mx.toNat (wfModMax s.node)), BitVec.ofNat 8 (wfModMax s.node), 0#8, 0#8] ++ leBytes 4 sess.toNat
            ++ leBytes 4 0x4A4D7740 ++ leBytes 4 s.node.rev.toNat))) ∧
  (∀ (b : Bool) (c : Nat) (mn mx : Byte) (q : BitVec 16) (sess : Word) (t : Nat) (s : State), s.node.up = true → wayfareOn s.node b = true →
    min mx.toNat (wfModMax s.node) < mn.toNat ∨ mx = 0#8 →
    Ends (exec (.hello b c ⟨mn, mx⟩ q sess true t) s) (fun u => u.node.wf = (sessionTick (s.node.advance t)).wf
      ∧ Replied u { net := b, client := c, session := 0#32, seq := q } 0 1 0#32 0x12 [])) ∧
  (∀ (b : Bool) (c : Nat) (mn mx : Byte) (q : BitVec 16) (sess : Word) (t : Nat) (s : State), s.node.up = true → wayfareOn s.node b = true →
    0 < min mx.toNat (wfModMax s.node) → mn.toNat ≤ min mx.toNat (wfModMax s.node) →
    4 ≤ ((sessionTick (s.node.advance t)).wf.filter (fun x => x.net == b)).length →
    Ends (exec (.hello b c ⟨mn, mx⟩ q sess true t) s) (fun u => u.node.wf = (sessionTick (s.node.advance t)).wf
      ∧ Replied u { net := b, client := c, session := 0#32, seq := q } 0 1 0#32 0x13 [])) ∧
  (∀ (q : WfReq) (x : Session) (t : Nat) (s : State), Fresh q s t x →
    Ends (exec (.closeSess q t) s) (fun u => (∀ y ∈ u.node.wf, y.number ≠ x.number) ∧ Replied u q x.ver 2 x.number 0 [])) ∧
  (∀ (sess : Word) (x : Session) (t : Nat) (s : State), s.node.up = true → x ∈ s.node.wf → x.number = sess →
    Ends (exec (.sessionExpiry sess t) s) (fun u =>
      (x.lastReq + 30 * 250000000 ≤ timeAfter s t → x ∉ u.node.wf) ∧ (timeAfter s t < x.lastReq + 30 * 250000000 → x ∈ u.node.wf)
      ∧ ∀ y ∈ s.node.wf, y.number ≠ sess → y ∈ u.node.wf)) ∧
  (∀ (b : Bool) (t : Nat) (s : State), s.node.up = true → wayfareOn s.node b = true →
    Ends (exec (.wayfareBadDatagram b t) s) (fun u => u.node.evt.flag 8 = true ∧ u.node.tx = s.node.tx ∧ u.node.wf = s.node.wf)) ∧
  (∀ (b : Bool) (c : Nat) (mn mx : Byte) (q : BitVec 16) (sess : Word) (t : Nat) (s : State), s.node.up = true → wayfareOn s.node b = true →
    Ends (exec (.hello b c ⟨mn, mx⟩ q sess false t) s) (fun u => u.node.wf = (sessionTick (s.node.advance t)).wf
      ∧ Replied u { net := b, client := c, session := 0#32, seq := q } 0 1 0#32 0x11 [])) ∧
  (∀ (b : Bool) (c : Nat) (mn mx : Byte) (q : BitVec 16) (sess : Word) (w : Bool) (t : Nat) (s : State), s.node.up = true →
    wayfareOn s.node b = false →
    ∀ i ∈ [Instr.hello b c ⟨mn, mx⟩ q sess w t, .wayfareBadDatagram b t], Ends (exec i s) (fun u => u.node.tx = s.node.tx
      ∧ u.node.wf = s.node.wf ∧ u.node.evt = s.node.evt))) ∧
  (
  (∀ (q : WfReq) (x : Session) (t : Nat) (s : State), Fresh q s t x →
    (Serves s 0x0020 → Ends (exec (.wayfareRead q 0x0020#32 t) s) (fun u => Responded u x q 0x10 0 (leBytes 4 (devStateWord s.node).toNat)
      ∧ Replied u q x.ver 0x10 x.number 0 (leBytes 4 (devStateWord s.node).toNat))) ∧
    (∀ a : Word, Serves s a.toNat → (regAttr a.toNat).isSome = true → regIsl a.toNat false ≠ 0 →
      Ends (exec (.wayfareRead q a t) s) (fun u => Waits u x q 0x10 (.rd a.toNat))) ∧
    (∀ v : Word, Takes s 0x0840 → s.node.ld.stgState ≠ 5 → s.node.ld.stgState ≠ 8 →
      Ends (exec (.wayfareWrite q 0x0840#32 v t) s) (fun u => u.node.ld.stgAddr = v.toNat / 4 % 2 ^ 22 * 4 ∧ Responded u x q 0x11 0 [])) ∧
    (∀ (a v : Word), Takes s a.toNat → (regAttr a.toNat).isSome = true → regIsl a.toNat true ≠ 0 →
      Ends (exec (.wayfareWrite q a v t) s) (fun u => Waits u x q 0x11 (.wr a.toNat v) ∧ u.mem = s.mem)) ∧
    (Serves s 0x0028 → Serves s 0x002C → Ends (exec (.burstRead q 0x0028#32 2#16 0#16 t) s) (fun u =>
      Responded u x q 0x12 0 (burstPay [devStatusWord s.node, resetCauseWord s.node]))) ∧
    (∀ (a : Word) (c m : BitVec 16), c = 0#16 ∨ (if x.ver = 1 then 128 else 360) < c.toNat ∨ 1 < m.toNat →
      Ends (exec (.burstRead q a c m t) s) (fun u => Responded u x q 0x12 0x11 [])) ∧
    (∀ (ch : Fin 32) (msg : List Word) (r : Nat), msg.length = 16 → mbBinding s.node ch.val = (portCode (netPort x.net), r, true) →
      s.node.isRun (idIsland r) = true →
      Ends (exec (.mbxPost q (BitVec.ofNat 8 ch.val) msg t) s) (fun u => Responded u x q 0x20 0 []
        ∧ (u.node.mbChan ch.val).st = .posted ∧ (u.node.mbChan ch.val).msg = stampSrc (portCode (netPort x.net)) msg)) ∧
    (∀ (ch : Fin 32), mbMayFetch s.node (portCode (netPort x.net)) ch.val = true →
      Ends (exec (.mbxFetch q (BitVec.ofNat 8 ch.val) t) s) (fun u => Responded u x q 0x21 0
        ((mbSlot s.node ch.val).flatMap (fun w => leBytes 4 w.toNat) ++ leBytes 4 (mbAckWord s.node ch.val).toNat)
        ∧ u.node.mbx = s.node.mbx)) ∧
    (∀ (per : BitVec 16) (mode : Byte) (l : List Word), 1 ≤ per.toNat → per.toNat ≤ 10000 → mode = 1#8 ∨ (mode = 2#8 ∧ x.ver ≠ 1) → l ≠ [] → l.length ≤ 120 →
      (∀ a ∈ l, isValue a.toNat = true) →
      Ends (exec (.subscribe q per mode l t) s) (fun u => Responded u x q 0x30 0 [] ∧ ∃ y ∈ u.node.wf, y.number = x.number ∧
        y.sub = some { period := per.toNat, onChange := mode == 2#8, addrs := l.map (·.toNat), last := l.map (fun _ => none) })) ∧
    ((s.node.port (netPort x.net)).snap.copying = false →
      Ends (exec (.snapOp q t) s) (fun u => Waits u x q 0x40 .snap ∧ (u.node.port (netPort x.net)).snap.copying = true
        ∧ (u.node.port (netPort x.net)).snap.time = timeAfter s t)) ∧
    (∀ (a : Word) (st : Nat) (w : Word) (n' : Node), Serves s a.toNat → (regAttr a.toNat).isSome = true → regIsl a.toNat false = 0 →
      regRead (netPort x.net) a.toNat s.mem (wfNode q s t x) = (st, w, n') →
      Ends (exec (.wayfareRead q a t) s) (fun u => Responded u x q 0x10 st (leBytes 4 w.toNat)
        ∧ Replied u q x.ver 0x10 x.number st (leBytes 4 w.toNat) ∧ u.mem = s.mem)) ∧
    (∀ a : Word, regAttr a.toNat = none →
      Ends (exec (.wayfareRead q a t) s) (fun u => Responded u x q 0x10 2 (leBytes 4 0))) ∧
    (∀ a : Word, (regAttr a.toNat).isSome = true → s.node.isRun (regIsl a.toNat false) = false → isValue a.toNat = false →
      isQseq a.toNat = false → Ends (exec (.wayfareRead q a t) s) (fun u => Responded u x q 0x10 1 (leBytes 4 0))) ∧
    (∀ (a v : Word) (y : Bool) (st : Nat) (m' : Mems) (n' : Node), Takes s a.toNat → regAttr a.toNat = some ⟨y, .wr⟩ →
      regIsl a.toNat true = 0 → regWrite (netPort x.net) a.toNat v s.mem (wfNode q s t x) = (st, m', n') →
      Ends (exec (.wayfareWrite q a v t) s) (fun u => Replied u q x.ver 0x11 x.number st [] ∧ u.mem = m')) ∧
    (∀ (a v : Word), regAttr a.toNat = none →
      Ends (exec (.wayfareWrite q a v t) s) (fun u => Responded u x q 0x11 2 [] ∧ u.mem = s.mem)) ∧
    (∀ (a v : Word), (regAttr a.toNat).isSome = true → forwards s.node a.toNat = false → s.node.isRun (regIsl a.toNat true) = false →
      Ends (exec (.wayfareWrite q a v t) s) (fun u => Responded u x q 0x11 1 [] ∧ u.mem = s.mem)) ∧
    (∀ (a v : Word) (y : RegAttr), regAttr a.toNat = some y → forwards s.node a.toNat = false →
      s.node.isRun (regIsl a.toNat true) = true → levelLocked s.node a.toNat y = true →
      Ends (exec (.wayfareWrite q a v t) s) (fun u => Responded u x q 0x11 3 [] ∧ u.node.evt.flag 7 = true ∧ u.mem = s.mem)) ∧
    (∀ (a v : Word) (y : RegAttr), regAttr a.toNat = some y → forwards s.node a.toNat = true → linkUp s.node = true →
      levelLocked s.node a.toNat y = false →
      Ends (exec (.wayfareWrite q a v t) s) (fun u => Waits u x q 0x11 (.wr a.toNat v)
        ∧ u.node.net.fwds = s.node.net.fwds ++ [.wf x.number] ∧ u.mem = s.mem)) ∧
    (∀ (a : Word) (c m : BitVec 16), 0 < c.toNat → c.toNat ≤ 128 → m.toNat ≤ 1 → Serves s a.toNat → (regAttr a.toNat).isSome = true →
      regIsl a.toNat false ≠ 0 → Ends (exec (.burstRead q a c m t) s) (fun u =>
        Waits u x q 0x12 (.burst a.toNat c.toNat (if m = 0#16 then 4 else 0) []))) ∧
    (∀ (ch : Fin 32) (msg : List Word), msg.length = 16 → (mbBinding s.node ch.val).2.2 = false →
      Ends (exec (.mbxPost q (BitVec.ofNat 8 ch.val) msg t) s) (fun u => Responded u x q 0x20 6 [] ∧ u.node.mbx = s.node.mbx)) ∧
    (∀ (ch : Byte) (msg : List Word), 32 ≤ ch.toNat ∨ msg.length ≠ 16 →
      Ends (exec (.mbxPost q ch msg t) s) (fun u => Responded u x q 0x20 0x11 [] ∧ u.node.mbx = s.node.mbx)) ∧
    (∀ (ch : Fin 32), mbMayFetch s.node (portCode (netPort x.net)) ch.val = false →
      Ends (exec (.mbxFetch q (BitVec.ofNat 8 ch.val) t) s) (fun u => Responded u x q 0x21 6 [])) ∧
    (∀ (ch : Byte), 32 ≤ ch.toNat → Ends (exec (.mbxFetch q ch t) s) (fun u => Responded u x q 0x21 0x11 [])) ∧
    (∀ (per : BitVec 16) (l : List Word), Ends (exec (.subscribe q per 0#8 l t) s) (fun u => Responded u x q 0x30 0 []
      ∧ ∀ y ∈ u.node.wf, y.number = x.number → y.sub = none)) ∧
    (∀ (per : BitVec 16) (mode : Byte) (l : List Word), mode ≠ 0#8 →
      per.toNat < 1 ∨ 10000 < per.toNat ∨ 2 < mode.toNat ∨ (mode = 2#8 ∧ x.ver = 1) ∨ l = [] ∨ 120 < l.length
        ∨ (∃ a ∈ l, isValue a.toNat = false) →
      Ends (exec (.subscribe q per mode l t) s) (fun u => Responded u x q 0x30 0x11 []
        ∧ ∃ y ∈ u.node.wf, y.number = x.number ∧ y.sub = x.sub)) ∧
    ((s.node.port (netPort x.net)).snap.copying = true →
      Ends (exec (.snapOp q t) s) (fun u => Waits u x q 0x40 .snap ∧ u.node.port (netPort x.net) = s.node.port (netPort x.net)))) ∧
  (∀ (q : WfReq) (t : Nat) (a v : Word) (n m per : BitVec 16) (ch mode : Byte) (msg l : List Word) (s : State), s.node.up = true →
    wayfareOn s.node q.net = true → findSession (sessionTick (s.node.advance t)) q = none →
    ∀ y ∈ [(Instr.wayfareRead q a t, 0x10), (.wayfareWrite q a v t, 0x11), (.burstRead q a n m t, 0x12), (.mbxPost q ch msg t, 0x20),
      (.mbxFetch q ch t, 0x21), (.subscribe q per mode l t, 0x30), (.snapOp q t, 0x40), (.closeSess q t, 2)],
    Ends (exec y.1 s) (fun u => Replied u q 0 (wfOp q y.2) q.session 0x10 [] ∧ u.mem = s.mem)) ∧
  (∀ (q : WfReq) (x : Session) (t : Nat) (a v : Word) (n m per : BitVec 16) (ch mode : Byte) (msg l : List Word) (s : State),
    s.node.up = true → wayfareOn s.node q.net = true → findSession (sessionTick (s.node.advance t)) q = some x →
    ∀ y ∈ [(Instr.wayfareRead q a t, 0x10), (.wayfareWrite q a v t, 0x11), (.burstRead q a n m t, 0x12), (.mbxPost q ch msg t, 0x20),
      (.mbxFetch q ch t, 0x21), (.subscribe q per mode l t, 0x30), (.snapOp q t, 0x40), (.closeSess q t, 2)],
      (∀ r, x.lastSeq = some q.seq → x.resp = some r → Ends (exec y.1 s) (fun u =>
        Replied u q x.ver r.op x.number r.status r.payload ∧ u.mem = s.mem ∧ u.node.mbx = s.node.mbx ∧ u.node.ld = s.node.ld)) ∧
      (x.lastSeq ≠ some q.seq → x.outst.isSome = true → Ends (exec y.1 s) (fun u =>
        Replied u q x.ver (wfOp q y.2) x.number 4 [] ∧ u.mem = s.mem ∧ u.node.mbx = s.node.mbx ∧ u.node.ld = s.node.ld)) ∧
      (x.lastSeq ≠ some q.seq → x.outst = none → q.form ≠ .whole → Ends (exec y.1 s) (fun u =>
        Responded u x q (wfOp q y.2) 0x11 [] ∧ Replied u q x.ver (wfOp q y.2) x.number 0x11 [] ∧ u.mem = s.mem
        ∧ u.node.mbx = s.node.mbx ∧ u.node.ld = s.node.ld))))

/-- Snapshots (R124 to R126): a trigger freezes the store at its DEVTIME for the port; when the copy completes READY is set,
SEQ counts, event 9 is raised and a session's SNAP is answered; a trigger during a copy changes nothing; SNAP_DATA gives the
frozen word and moves on; an address of no result is refused, and so is a read with no snapshot ready. -/
def Obligations.Snapshots : Prop :=
  (∀ (p : HostPort) (t : Nat) (s : State), Takes s 0x1C00 → (s.node.port p).snap.copying = false →
    Ends (exec (.snapTrigger p t) s) (fun u => Acks u p 0x1C00 ∧ (u.node.port p).snap.copying = true ∧ (u.node.port p).snap.ready = false
      ∧ (u.node.port p).snap.time = timeAfter s t
      ∧ (u.node.port p).snap.pendBuf = snapFrozen p s.node
      ∧ u.node.jn = s.node.jn)) ∧
  (∀ (p : HostPort) (t : Nat) (s : State), s.node.up = true → (s.node.port p).snap.copying = true →
    Ends (exec (.snapCopyComplete p t) s) (fun u => (u.node.port p).snap.ready = true ∧ (u.node.port p).snap.copying = false
      ∧ (u.node.port p).snap.buf = (s.node.port p).snap.pendBuf ∧ (u.node.port p).snap.seq = (s.node.port p).snap.seq + 1#8
      ∧ u.node.evt.flag 9 = true ∧ u.node.jn = s.node.jn)) ∧
  (∀ (p : HostPort) (v : Word) (s : State), Takes s 0x1C10 →
    (isValue v.toNat || isQseq v.toNat) = true →
    Ends (exec (.snapAddrWrite p v) s) (fun u => Acks u p 0x1C10 ∧ (u.node.port p).snap = { (s.node.port p).snap with addr := v.toNat })) ∧
  (∀ (p : HostPort) (v : Word) (s : State), Takes s 0x1C10 →
    (isValue v.toNat || isQseq v.toNat) = false →
    Ends (exec (.snapAddrWrite p v) s) (fun u => Answered u p 2 0x1C10 0#32 ∧ (u.node.port p).snap = (s.node.port p).snap)) ∧
  (∀ (p : HostPort) (s : State), Serves s 0x1C14 → (s.node.port p).snap.ready = true → (s.node.port p).snap.copying = false →
    (isValue (s.node.port p).snap.addr || isQseq (s.node.port p).snap.addr) = true →
    Ends (exec (.snapDataRead p) s) (fun u => Answered u p 0 0x1C14 (tget 0#32 (s.node.port p).snap.buf (s.node.port p).snap.addr)
      ∧ (u.node.port p).snap = { (s.node.port p).snap with addr := nextResult (s.node.port p).snap.addr } ∧ u.node.jn = s.node.jn)) ∧
  (∀ (p : HostPort) (s : State), Serves s 0x1C14 → (s.node.port p).snap.ready = false →
    Ends (exec (.snapDataRead p) s) (fun u => Answered u p 2 0x1C14 0#32 ∧ (u.node.port p).snap = (s.node.port p).snap)) ∧
  (∀ (p : HostPort) (t : Nat) (s : State), Takes s 0x1C00 → (s.node.port p).snap.copying = true →
    Ends (exec (.snapTrigger p t) s) (fun u => Acks u p 0x1C00 ∧ (u.node.port p).snap = (s.node.port p).snap)) ∧
  (∀ (p : HostPort) (t : Nat) (s : State), s.node.up = true → (s.node.port p).snap.copying = false →
    Ends (exec (.snapCopyComplete p t) s) (fun u => u.node = s.node.advance t)) ∧
  (∀ (x : Session) (seq : BitVec 16) (t : Nat) (s : State), s.node.up = true → (s.node.port (netPort x.net)).snap.copying = true →
    s.node.wf = [x] → x.outst = some (seq, 0x40, .snap) →
    Ends (exec (.snapCopyComplete (netPort x.net) t) s) (fun u => ∃ y, u.node.wf = [y] ∧ y.outst = none
      ∧ y.resp = some { op := 0x40, status := 0, payload := leBytes 8 (s.node.port (netPort x.net)).snap.time
          ++ [(s.node.port (netPort x.net)).snap.seq + 1#8, 0#8, 0#8, 0#8] })) ∧
  (∀ (p : HostPort) (s : State), Serves s 0x1C14 →
    (s.node.port p).snap.copying = true ∨ (isValue (s.node.port p).snap.addr || isQseq (s.node.port p).snap.addr) = false →
    Ends (exec (.snapDataRead p) s) (fun u => Answered u p 2 0x1C14 0#32 ∧ (u.node.port p).snap = (s.node.port p).snap))

/-- Block controls and register writes (R8, R106, R129 to R131, R451): EXPERT as written, cleared 60 s after its last use; a
write reaches its register and answers; a read-only register ignores it; with no register (2), the island down (1) or EXPERT
missing (3, event 7) nothing else changes; a STANDBY hands a plant write to its partner and waits. -/
def Obligations.RegisterWrites : Prop :=
  (∀ (p : HostPort) (b : Fin 24) (v : Word) (s : State), Takes s (blkAddr.getD b.val 0) →
    Ends (exec (.blkCtrlWrite p b v) s) (fun u => Acks u p (blkAddr.getD b.val 0) ∧ u.node.expert b.val = bitOf v 0
      ∧ ∀ c, c ≠ b.val → u.node.blkOf c = s.node.blkOf c)) ∧
  (∀ (b : Fin 24) (s : State), s.node.up = true →
    Ends (exec (.expertTimeout b) s) (fun u => u.node.expert b.val
        = (s.node.expert b.val && decide (s.node.time.devtime < (s.node.blkOf b.val).since + 15000000000))
      ∧ (∀ c, c ≠ b.val → u.node.blkOf c = s.node.blkOf c) ∧ Leaves [.blk] s.node u.node)) ∧
  (∀ (p : HostPort) (a : BitVec 15) (v : Word) (t : Nat) (x : Bool) (st : Nat) (m' : Mems) (n' : Node) (s : State), Takes s a.toNat →
    regAttr a.toNat = some ⟨x, .wr⟩ → regWrite p a.toNat v s.mem (s.node.advance t) = (st, m', n') → n'.up = true →
    Ends (exec (.registerWrite p a v t) s) (fun u => Answered u p st a.toNat 0#32 ∧ u.mem = m'
      ∧ Leaves ([.port p, .blk] ++ plantParts) n' u.node)) ∧
  (∀ (p : HostPort) (a : BitVec 15) (v : Word) (t : Nat) (x : Bool) (s : State), Takes s a.toNat → regAttr a.toNat = some ⟨x, .ro⟩ →
    Ends (exec (.registerWrite p a v t) s) (fun u => Acks u p a.toNat ∧ u.mem = s.mem
      ∧ Leaves ([.devtime, .port p] ++ plantParts) s.node u.node)) ∧
  (∀ (p : HostPort) (a : BitVec 15) (v : Word) (t : Nat) (s : State), s.node.up = true → regAttr a.toNat = none →
    Ends (exec (.registerWrite p a v t) s) (fun u => Answered u p 2 a.toNat 0#32 ∧ u.mem = s.mem
      ∧ Leaves ([.devtime, .port p] ++ plantParts) s.node u.node)) ∧
  (∀ (p : HostPort) (a : BitVec 15) (v : Word) (t : Nat) (x : RegAttr) (s : State), s.node.up = true → forwards s.node a.toNat = false →
    regAttr a.toNat = some x → s.node.isRun (regIsl a.toNat true) = false →
    Ends (exec (.registerWrite p a v t) s) (fun u => Answered u p 1 a.toNat 0#32 ∧ u.mem = s.mem
      ∧ Leaves ([.devtime, .port p] ++ plantParts) s.node u.node)) ∧
  (∀ (p : HostPort) (a : BitVec 15) (v : Word) (t : Nat) (x : RegAttr) (s : State), s.node.up = true → forwards s.node a.toNat = false →
    regAttr a.toNat = some x → s.node.isRun (regIsl a.toNat true) = true → levelLocked s.node a.toNat x = true →
    Ends (exec (.registerWrite p a v t) s) (fun u => Answered u p 3 a.toNat 0#32 ∧ u.node.evt.flag 7 = true ∧ u.mem = s.mem
      ∧ Leaves ([.devtime, .port p] ++ plantParts) s.node u.node)) ∧
  (∀ (p : HostPort) (a : BitVec 15) (v : Word) (t : Nat) (x : RegAttr) (s : State), s.node.up = true → forwards s.node a.toNat = true →
    regAttr a.toNat = some x → linkUp (s.node.advance t) = true → levelLocked s.node a.toNat x = false →
    Ends (exec (.registerWrite p a v t) s) (fun u => Answered u p 4 a.toNat 0#32 ∧ u.node.net.fwds = s.node.net.fwds ++ [.port p]
      ∧ u.mem = s.mem ∧ u.node.ld = s.node.ld)) ∧
  (∀ (p : HostPort) (a : BitVec 15) (v : Word) (t : Nat) (x : RegAttr) (s : State), s.node.up = true → forwards s.node a.toNat = true →
    regAttr a.toNat = some x → linkUp (s.node.advance t) = false →
    Ends (exec (.registerWrite p a v t) s) (fun u => Answered u p 1 a.toNat 0#32 ∧ u.mem = s.mem
      ∧ Leaves ([.devtime, .port p] ++ plantParts) s.node u.node)) ∧
  (∀ (p : HostPort) (a : BitVec 15) (v : Word) (t : Nat) (x : RegAttr) (s : State), s.node.up = true → forwards s.node a.toNat = true →
    regAttr a.toNat = some x → linkUp (s.node.advance t) = true → levelLocked s.node a.toNat x = true →
    Ends (exec (.registerWrite p a v t) s) (fun u => Answered u p 3 a.toNat 0#32 ∧ u.node.evt.flag 7 = true ∧ u.mem = s.mem
      ∧ Leaves ([.devtime, .port p] ++ plantParts) s.node u.node))

/-- The event controller's registers (R8, R9, R135, R136, R139, R141): a 1 in EVT_STATm clears its flag and counter unless the
source set in the same I0 cycle; EVT_MASKm and EVT_ROUTEm hold what is written, codes above 4 leaving their field; EVT_MSGQ
gives word 0, then word 1 and drops the entry, 0 when empty; OVF clears LOST. -/
def Obligations.EventRegisters : Prop :=
  (∀ (p : HostPort) (m : Fin 4) (v same : Word) (s : State), Takes s (0x0C00 + 4 * m.val) →
    Ends (exec (.evtStatWrite p m v same) s) (fun u => Acks u p (0x0C00 + 4 * m.val)
      ∧ (∀ j < 32, u.node.evt.flag (32 * m.val + j) = (s.node.evt.flag (32 * m.val + j) && !(bitOf v j && !bitOf same j)))
      ∧ (∀ j < 32, bitOf v j = true → bitOf same j = false → u.node.evt.occOf (32 * m.val + j) = 0)
      ∧ (∀ k < 128, k / 32 ≠ m.val → u.node.evt.flag k = s.node.evt.flag k ∧ u.node.evt.occOf k = s.node.evt.occOf k))) ∧
  (∀ (p : HostPort) (m : Fin 4) (v : Word) (s : State), Takes s (0x0C10 + 4 * m.val) →
    Ends (exec (.evtMaskWrite p m v) s) (fun u => Acks u p (0x0C10 + 4 * m.val)
      ∧ (∀ k < 128, u.node.evt.mask.getLsbD k = if k / 32 = m.val then bitOf v (k % 32) else s.node.evt.mask.getLsbD k)
      ∧ u.node.evt.stat = s.node.evt.stat)) ∧
  (∀ (p : HostPort) (m : Fin 16) (v : Word) (s : State), Takes s (0x0C40 + 4 * m.val) →
    Ends (exec (.evtRouteWrite p m v) s) (fun u => Acks u p (0x0C40 + 4 * m.val)
      ∧ (∀ k < 128, u.node.evt.routeOf k = if k / 8 = m.val ∧ fld v (4 * (k % 8) + 3) (4 * (k % 8)) ≤ 4
          then fld v (4 * (k % 8) + 3) (4 * (k % 8)) else s.node.evt.routeOf k)
      ∧ u.node.evt.stat = s.node.evt.stat)) ∧
  (∀ (p : HostPort) (s : State), Serves s 0x0D10 →
    (s.node.evt.queue = [] → Ends (exec (.evtMsgqRead p) s) (fun u => Answered u p 0 0x0D10 0#32 ∧ u.node.evt = s.node.evt)) ∧
    (∀ e r, s.node.evt.queue = e :: r → s.node.evt.half = false →
      Ends (exec (.evtMsgqRead p) s) (fun u => Answered u p 0 0x0D10 e.word0 ∧ u.node.evt = { s.node.evt with half := true })) ∧
    (∀ e r, s.node.evt.queue = e :: r → s.node.evt.half = true →
      Ends (exec (.evtMsgqRead p) s) (fun u => Answered u p 0 0x0D10 e.word1 ∧ u.node.evt = { s.node.evt with queue := r, half := false }))) ∧
  (∀ (p : HostPort) (v : Word) (s : State), Takes s 0x0D14 →
    Ends (exec (.evtMsgStatWrite p v) s) (fun u => Acks u p 0x0D14
      ∧ u.node.evt = if bitOf v 31 then { s.node.evt with ovf := false, lost := 0 } else s.node.evt))

/-- Mailboxes between bound identities (R143, R145 to R152): a host's or an engine's post fills the slot with its own SRC and
rings the receiver (events 124 and 126 at a host), replacing and counting a message not yet taken; a fetch copies the slot to
the caller's window; an acknowledgement while POSTED closes it with its code and rings the sender (event 125 at a host), and
changes nothing else; who is not bound is refused (status 6), a receiver on a stopped island ISLAND_DOWN (1). -/
def Obligations.Mailboxes : Prop :=
  (∀ (p : HostPort) (ch : Fin 32) (r : Nat) (s : State), Takes s 0x1100 → mbBinding s.node ch.val = (portCode p, r, true) →
    s.node.isRun (idIsland r) = true →
    Ends (exec (.mbPost (BitVec.ofNat 8 (portCode p)) ch) s) (fun u => Acks u p 0x1100 ∧ (u.node.mbChan ch.val).st = .posted
      ∧ (u.node.mbChan ch.val).msg = stampSrc (portCode p) (s.node.mbId (portCode p)).win
      ∧ (u.node.mbChan ch.val).replaced = (if (s.node.mbChan ch.val).st = .posted then min 255 ((s.node.mbChan ch.val).replaced + 1)
          else (s.node.mbChan ch.val).replaced)
      ∧ bitOf (u.node.mbId r).dbStat ch.val = true ∧ (idHost r = true → u.node.evt.flag 124 = true)
      ∧ ∀ c, c ≠ ch.val → u.node.mbChan c = s.node.mbChan c)) ∧
  (∀ (id : Byte) (ch : Fin 32) (r : Nat) (s : State), s.node.up = true → idHost id.toNat = false →
    mbBinding s.node ch.val = (id.toNat, r, true) → s.node.isRun (idIsland r) = true → s.node.isRun (idIsland id.toNat) = true →
    Ends (exec (.mbPost id ch) s) (fun u => (u.node.mbChan ch.val).st = .posted
      ∧ (u.node.mbChan ch.val).msg = stampSrc id.toNat (s.node.mbId id.toNat).win
      ∧ bitOf (u.node.mbId r).dbStat ch.val = true ∧ (idHost r = true → u.node.evt.flag 124 = true))) ∧
  (∀ (p : HostPort) (ch : Fin 32) (s : State), Takes s 0x1104 → mbMayFetch s.node (portCode p) ch.val = true →
    Ends (exec (.mbFetch (BitVec.ofNat 8 (portCode p)) ch) s) (fun u => Acks u p 0x1104
      ∧ (u.node.mbId (portCode p)).win = mbSlot s.node ch.val ∧ u.node.mbx.chans = s.node.mbx.chans)) ∧
  (∀ (id : Byte) (ch : Fin 32) (s : State), s.node.up = true → idHost id.toNat = false → mbMayFetch s.node id.toNat ch.val = true →
    s.node.isRun (idIsland id.toNat) = true →
    Ends (exec (.mbFetch id ch) s) (fun u => (u.node.mbId id.toNat).win = mbSlot s.node ch.val ∧ u.node.mbx.chans = s.node.mbx.chans)) ∧
  (∀ (p : HostPort) (ch : Fin 32) (v : Word) (snd : Nat) (s : State), Takes s (0x1000 + 4 * ch.val) →
    mbBinding s.node ch.val = (snd, portCode p, true) → (s.node.mbChan ch.val).st = .posted → bitOf v 31 = true →
    Ends (exec (.mbAck (BitVec.ofNat 8 (portCode p)) ch v) s) (fun u => Acks u p (0x1000 + 4 * ch.val)
      ∧ (u.node.mbChan ch.val).st = .acked ∧ (u.node.mbChan ch.val).code = fld v 30 24
      ∧ (u.node.mbChan ch.val).msg = (s.node.mbChan ch.val).msg ∧ bitOf (u.node.mbId snd).dbStat ch.val = true
      ∧ (idHost snd = true → u.node.evt.flag 125 = true))) ∧
  (∀ (id : Byte) (ch : Fin 32) (v : Word) (snd : Nat) (s : State), s.node.up = true → idHost id.toNat = false →
    s.node.isRun (idIsland id.toNat) = true → mbBinding s.node ch.val = (snd, id.toNat, true) → (s.node.mbChan ch.val).st = .posted →
    bitOf v 31 = true →
    Ends (exec (.mbAck id ch v) s) (fun u => (u.node.mbChan ch.val).st = .acked ∧ (u.node.mbChan ch.val).code = fld v 30 24
      ∧ bitOf (u.node.mbId snd).dbStat ch.val = true ∧ (idHost snd = true → u.node.evt.flag 125 = true))) ∧
  (∀ (p : HostPort) (ch : Fin 32) (s : State), Takes s 0x1100 → (mbBinding s.node ch.val).2.2 = false →
    Ends (exec (.mbPost (BitVec.ofNat 8 (portCode p)) ch) s) (fun u => Answered u p 6 0x1100 0#32 ∧ u.node.mbx = s.node.mbx)) ∧
  (∀ (p : HostPort) (ch : Fin 32) (snd r : Nat) (s : State), Takes s 0x1100 → mbBinding s.node ch.val = (snd, r, true) →
    s.node.isRun (idIsland r) = false →
    Ends (exec (.mbPost (BitVec.ofNat 8 (portCode p)) ch) s) (fun u => Answered u p 1 0x1100 0#32 ∧ u.node.mbx = s.node.mbx)) ∧
  (∀ (p : HostPort) (ch : Fin 32) (s : State), Takes s 0x1104 → mbMayFetch s.node (portCode p) ch.val = false →
    Ends (exec (.mbFetch (BitVec.ofNat 8 (portCode p)) ch) s) (fun u => Answered u p 6 0x1104 0#32 ∧ u.node.mbx = s.node.mbx)) ∧
  (∀ (p : HostPort) (ch : Fin 32) (v : Word) (snd r : Nat) (b : Bool) (s : State), Takes s (0x1000 + 4 * ch.val) →
    mbBinding s.node ch.val = (snd, r, b) → b = false ∨ r ≠ portCode p →
    Ends (exec (.mbAck (BitVec.ofNat 8 (portCode p)) ch v) s) (fun u => Answered u p 6 (0x1000 + 4 * ch.val) 0#32
      ∧ u.node.mbx = s.node.mbx)) ∧
  (∀ (p : HostPort) (ch : Fin 32) (v : Word) (snd : Nat) (s : State), Takes s (0x1000 + 4 * ch.val) →
    mbBinding s.node ch.val = (snd, portCode p, true) → (s.node.mbChan ch.val).st ≠ .posted ∨ bitOf v 31 = false →
    Ends (exec (.mbAck (BitVec.ofNat 8 (portCode p)) ch v) s) (fun u => Acks u p (0x1000 + 4 * ch.val)
      ∧ u.node.mbx = s.node.mbx)) ∧
  (∀ (id : Byte) (ch : Fin 32) (snd r : Nat) (b : Bool) (s : State), s.node.up = true → idHost id.toNat = false →
    mbBinding s.node ch.val = (snd, r, b) → b = false ∨ snd ≠ id.toNat ∨ s.node.isRun (idIsland r) = false →
    Ends (exec (.mbPost id ch) s) (fun u => u.node.mbx = s.node.mbx))

/-- UI conversions (R41, R43, R44, R162, R163, R165, R182): a linear voltage or current channel without curve publishes
round(x × K / 2^SH) + OFFSET, saturated; while settling it repeats its last value, SETTLING and not VALID; a forced channel
publishes the force value, VALID and FORCED; every boundary counts and shows the reading; the first settled result of a channel
whose converter failed comes from the bypass converter bound to it, and its detour then stands with event 22 (R202, R204).
Between boundaries, after T_c and while the channel does not convert nothing is published and the channel stands (R162, R177);
a miswired channel publishes its last VALUE with RANGE = 1 alone, or its forced value (R256; on the grid that ran last:
notes/assumptions/56.md).

UI registers (R161, R164, R182): an allowed UI_FILT waits for the boundary while the grid runs, or stands still for the 1 ms
of R177 step 3 only, and is stored at once otherwise; another sets CFG_REFUSED; at the boundary the filter restarts and settles anew, at no other time; FORCE is bit 0. -/
def Obligations.UniversalInputs : Prop :=
  (
  (∀ (c : Fin 64) (own byp lead : Int) (t : Nat) (s : State), s.node.up = true → s.node.acq = true → s.node.isRun 3 = true →
    s.node.chOn 1 c.val = true → (s.node.uiC c.val).conv = true → (s.node.uiC c.val).failed = false → s.node.miswired c.val = false →
    s.node.roleOn 1 (c.val / 32) = true →
    atBoundary (s.node.uiC c.val).grid (s.node.uiC c.val).lastAt (uiPeriod (s.node.uiC c.val).rate) t = true →
    s.node.uiPastTc c.val t = false →
    Ends (exec (.uiConversionComplete c own byp lead t) s) (fun u =>
      (u.node.uiC c.val).lastAt = t ∧ (u.node.uiC c.val).cnt = (s.node.uiC c.val).cnt + 1#32 ∧ u.node.time.devtime = timeAfter s t
      ∧ ((s.node.uiC c.val).settle ≤ t → (s.node.uiC c.val).force = true →
          Delivers s u c.val 0 t [{ addr := 0x2000 + c.val * 0x40, value := (s.node.uiC c.val).forceVal, q := 0x81#8 }])
      ∧ (t < (s.node.uiC c.val).settle → (s.node.uiC c.val).src = 0 → (s.node.uiC c.val).published = true → (s.node.uiC c.val).force = false →
          Delivers s u c.val 0 t [{ addr := 0x2000 + c.val * 0x40, value := (s.node.uiC c.val).last, q := 0x04#8 }])
      ∧ (∀ b < 4, (s.node.uiC c.val).settle ≤ t → (s.node.bcOf b).preroll = true → (s.node.bcOf b).chan = c.val →
          (∀ d < 4, d ≠ b → (s.node.bcOf d).preroll = true → (s.node.bcOf d).chan ≠ c.val) →
          (u.node.uiC c.val).src = 2 ∧ tget 0 u.node.dtr.conv c.val = b + 1 ∧ u.node.evt.flag 22 = true)
      ∧ ((s.node.uiC c.val).settle ≤ t → (s.node.uiC c.val).src = 0 → (s.node.uiC c.val).force = false →
          (∀ b < 4, (s.node.bcOf b).preroll = true → (s.node.bcOf b).chan ≠ c.val) →
          (s.node.uiC c.val).rampN ≤ (s.node.uiC c.val).rampJ → [1, 2, 5, 6].contains (uiMode (s.node.recOf 1 c.val)) = true →
          uiCurve (s.node.recOf 1 c.val) = 0 → [2, 3].contains (uiWire (s.node.recOf 1 c.val)) = false →
          (u.node.uiC c.val).raw = own ∧ ∃ q, Delivers s u c.val 0 t [⟨0x2000 + c.val * 0x40,
            (satE32 (divRound (own * i32 (s.node.recOf 1 c.val) 16) (2 ^ u8 (s.node.recOf 1 c.val) 26) + i32 (s.node.recOf 1 c.val) 20)).1, q⟩]))) ∧
  (∀ (c : Fin 64) (own byp lead : Int) (t : Nat) (s : State), s.node.up = true → s.node.miswired c.val = false →
    (s.node.acq = false ∨ s.node.isRun 3 = false ∨ s.node.roleOn 1 (c.val / 32) = false ∨ s.node.chOn 1 c.val = false
      ∨ (s.node.uiC c.val).conv = false ∨ (s.node.uiC c.val).failed = true ∨ s.node.uiPastTc c.val t = true
      ∨ atBoundary (s.node.uiC c.val).grid (s.node.uiC c.val).lastAt (uiPeriod (s.node.uiC c.val).rate) t = false) →
    Ends (exec (.uiConversionComplete c own byp lead t) s) (fun u => u.node.uiC c.val = s.node.uiC c.val
      ∧ u.node.jn.store = s.node.jn.store ∧ u.node.time.devtime = timeAfter s t)) ∧
  (∀ (c : Fin 64) (own byp lead : Int) (t : Nat) (s : State), s.node.up = true → s.node.miswired c.val = true → s.node.acq = true →
    s.node.isRun 3 = true → s.node.roleOn 1 (c.val / 32) = true → s.node.chOn 1 c.val = true → (s.node.uiC c.val).failed = false →
    (s.node.uiC c.val).published = true →
    atBoundary (s.node.uiC c.val).grid (s.node.uiC c.val).lastAt (uiPeriod (s.node.uiC c.val).rate) t = true →
    Ends (exec (.uiConversionComplete c own byp lead t) s) (fun u =>
      ((s.node.uiC c.val).force = false →
        Delivers s u c.val 0 t [{ addr := 0x2000 + c.val * 0x40, value := (s.node.uiC c.val).last, q := 0x08#8 }])
      ∧ ((s.node.uiC c.val).force = true →
        Delivers s u c.val 0 t [{ addr := 0x2000 + c.val * 0x40, value := (s.node.uiC c.val).forceVal, q := 0x81#8 }])))) ∧
  (
  (∀ (p : HostPort) (c : Fin 64) (v : Word) (s : State), Takes s (0x2010 + 0x40 * c.val) →
    (uiFiltOk (fld v 3 0) (bitOf v 8) = true → (s.node.uiC c.val).conv = true ∨ s.node.uiHeld c.val = true →
      Ends (exec (.uiFiltWrite p c v) s) (fun u => Acks u p (0x2010 + 0x40 * c.val)
        ∧ u.node.uiC c.val = { s.node.uiC c.val with pend := some (fld v 3 0, bitOf v 8) })) ∧
    (uiFiltOk (fld v 3 0) (bitOf v 8) = true → (s.node.uiC c.val).conv = false → s.node.uiHeld c.val = false →
      Ends (exec (.uiFiltWrite p c v) s) (fun u => Acks u p (0x2010 + 0x40 * c.val)
        ∧ u.node.uiC c.val = { s.node.uiC c.val with rate := fld v 3 0, line := bitOf v 8, pend := none })) ∧
    (uiFiltOk (fld v 3 0) (bitOf v 8) = false →
      Ends (exec (.uiFiltWrite p c v) s) (fun u => Acks u p (0x2010 + 0x40 * c.val)
        ∧ u.node.uiC c.val = { s.node.uiC c.val with cfgRefused := true }))) ∧
  (∀ (c : Fin 64) (rate : Nat) (line : Bool) (t : Nat) (s : State), s.node.up = true → (s.node.uiC c.val).pend = some (rate, line) →
    (s.node.uiC c.val).conv = true →
    t = (s.node.uiC c.val).lastAt ∨ atBoundary (s.node.uiC c.val).grid (s.node.uiC c.val).lastAt (uiPeriod (s.node.uiC c.val).rate) t = true →
    Ends (exec (.uiFilterRestart c t) s) (fun u => (u.node.uiC c.val).rate = rate ∧ (u.node.uiC c.val).line = line
      ∧ (u.node.uiC c.val).pend = none ∧ (u.node.uiC c.val).filtRestart = true ∧ (u.node.uiC c.val).settle = t + uiSettle rate line
      ∧ (u.node.uiC c.val).conv = true)) ∧
  (∀ (p : HostPort) (c : Fin 64) (v : Word) (s : State), Takes s (0x202C + 0x40 * c.val) →
    Ends (exec (.uiForceCtrlWrite p c v) s) (fun u => Acks u p (0x202C + 0x40 * c.val)
      ∧ u.node.uiC c.val = { s.node.uiC c.val with force := bitOf v 0 } ∧ ∀ d, d ≠ c.val → u.node.uiC d = s.node.uiC d)) ∧
  (∀ (c : Fin 64) (t : Nat) (s : State), s.node.up = true → t ≠ (s.node.uiC c.val).lastAt →
    ((s.node.uiC c.val).pend = none ∨ (s.node.uiC c.val).conv = false
      ∨ atBoundary (s.node.uiC c.val).grid (s.node.uiC c.val).lastAt (uiPeriod (s.node.uiC c.val).rate) t = false) →
    Ends (exec (.uiFilterRestart c t) s) (fun u => u.node.uiC c.val = s.node.uiC c.val)))

/-- Cold junctions and supplies (R163, R174, R175, R177 to R181, R187): a settled sensor publishes its temperature with its
offset, a settled supply its voltage, a settling one its last VALUE with SETTLING; EX_CTRL sets the supply where nothing holds it
(log 23: in READY only one without an enabled record) and is refused elsewhere; a change waits for T_c, abandons the conversions
it disturbs and discards 1 ms, after which filters restart, unless a change requested meanwhile makes that end the next T_c; limits
and sense errors raise event 35 once. -/
def Obligations.ColdJunctionsAndSupplies : Prop :=
  (∀ (k : Fin 8) (mC : Int) (t : Nat) (s : State), s.node.up = true → s.node.acq = true → s.node.isRun 3 = true → recOn (s.node.recOf 3 k.val) = true →
    (tget {} s.node.cj k.val).conv = true → (tget {} s.node.cj k.val).settle ≤ t →
    s.node.roleOn 1 (k.val / 4) = true →
    atBoundary (tget {} s.node.cj k.val).grid (tget {} s.node.cj k.val).lastAt (uiPeriod 2) t = true →
    Ends (exec (.cjConversionComplete k mC t) s) (fun u => Delivers s u (224 + k.val) 0 t
      [mkEntry (0x3600 + k.val * 0x10) (tempE32 (s.node.recOf 3 k.val) ((mC + i16 (s.node.recOf 3 k.val) 8) * 1000)) true false false false false])) ∧
  (∀ (k : Fin 16) (nv : Int) (t : Nat) (s : State), s.node.up = true → s.node.acq = true → s.node.isRun 3 = true → recOn (s.node.recOf 2 k.val) = true →
    (s.node.exC k.val).conv = true → (s.node.exC k.val).settle ≤ t →
    s.node.roleOn 1 (k.val / 8) = true → atBoundary (s.node.exC k.val).grid (s.node.exC k.val).lastAt (uiPeriod 2) t = true →
    (s.node.exC k.val).tc.any (fun x => decide (x < t)) = false →
    Ends (exec (.exConversionComplete k nv t) s) (fun u => Delivers s u (208 + k.val) 0 t
      [mkEntry (0x3400 + k.val * 0x20) (divRound nv (10 ^ (recScale (s.node.recOf 2 k.val) + 9).toNat)) true false false false false]
      ∧ (u.node.exC k.val).published = true)) ∧
  (∀ (p : HostPort) (k : Fin 16) (v : Word) (s : State), Takes s (0x3408 + 0x20 * k.val) →
    (s.node.dev.st = .ready ∨ s.node.running = true → exHeld s.node k.val = false → fld v 5 4 ≠ 3 →
      Ends (exec (.exCtrlWrite p k v) s) (fun u => Acks u p (0x3408 + 0x20 * k.val) ∧ (u.node.exC k.val).on = bitOf v 0
        ∧ (u.node.exC k.val).vset = fld v 5 4)) ∧
    ((s.node.dev.st ≠ .ready ∧ s.node.running = false) ∨ exHeld s.node k.val = true ∨ fld v 5 4 = 3 →
      Ends (exec (.exCtrlWrite p k v) s) (fun u => Acks u p (0x3408 + 0x20 * k.val)
        ∧ u.node.exC k.val = { s.node.exC k.val with refused := true }))) ∧
  (∀ (k : Fin 16) (x t : Nat) (s : State), s.node.up = true → (s.node.exC k.val).tc = some x → x ≤ t → (s.node.exC k.val).discard = none →
    Ends (exec (.excChangeApply k t) s) (fun u => ((u.node.exC k.val).aOn, (u.node.exC k.val).aVset) = exWant s.node k.val
      ∧ (u.node.exC k.val).aReg = (s.node.exC k.val).regOk
      ∧ (u.node.exC k.val).discard = some (x + 250000) ∧ (u.node.exC k.val).tc = none ∧ (u.node.exC k.val).conv = false
      ∧ ∀ c < 64, s.node.boundTo k.val c = true → (u.node.uiC c).conv = false)) ∧
  (∀ (k : Fin 16) (d t : Nat) (s : State), s.node.up = true → (s.node.exC k.val).discard = some d → d ≤ t →
    (s.node.exC k.val).tc = none →
    Ends (exec (.excSettleEnd k t) s) (fun u => (u.node.exC k.val).discard = none
      ∧ (u.node.exC k.val).conv = (s.node.acq && s.node.chOn 2 k.val) ∧ (u.node.exC k.val).grid = d
      ∧ (u.node.exC k.val).restart = true
      ∧ ∀ c < 64, s.node.boundTo k.val c = true → (u.node.uiC c).excRestart = true
          ∧ (s.node.acq = true → (s.node.uiC c).failed = false → s.node.miswired c = false →
              (u.node.uiC c).conv = true ∧ (u.node.uiC c).grid = d
                ∧ (u.node.uiC c).settle = d + uiSettle (u.node.uiC c).rate (u.node.uiC c).line))) ∧
  (∀ (k : Fin 16) (ok : Bool) (t : Nat) (s : State), s.node.up = true → (s.node.exC k.val).discard = none →
    Ends (exec (.exRegOkChange k ok t) s) (fun u => (u.node.exC k.val).regOk = ok)) ∧
  (∀ (k : Fin 16) (t : Nat) (s : State), s.node.up = true → (s.node.exC k.val).limitNow = false →
    Ends (exec (.exLimitOnset k true t) s) (fun u => (u.node.exC k.val).limit = true ∧ (u.node.exC k.val).limitNow = true
      ∧ u.node.evt.flag 35 = true)) ∧
  (∀ (k : Fin 16) (t : Nat) (s : State), s.node.up = true → (s.node.exC k.val).senseNow = false →
    Ends (exec (.exSenseErrOnset k true t) s) (fun u => (u.node.exC k.val).senseErr = true ∧ (u.node.exC k.val).senseNow = true
      ∧ u.node.evt.flag 35 = true)) ∧
  (∀ (k : Fin 16) (t : Nat) (s : State), s.node.up = true →
    ∀ i ∈ [Instr.exLimitOnset k false t, .exSenseErrOnset k false t], Ends (exec i s) (fun u =>
      (u.node.exC k.val).limit = (s.node.exC k.val).limit ∧ (u.node.exC k.val).senseErr = (s.node.exC k.val).senseErr)) ∧
  (∀ (k : Fin 16) (nv : Int) (t : Nat) (s : State), s.node.up = true → s.node.acq = true → s.node.isRun 3 = true → recOn (s.node.recOf 2 k.val) = true →
    (s.node.exC k.val).conv = true → t < (s.node.exC k.val).settle → (s.node.exC k.val).published = true →
    s.node.roleOn 1 (k.val / 8) = true → atBoundary (s.node.exC k.val).grid (s.node.exC k.val).lastAt (uiPeriod 2) t = true →
    (s.node.exC k.val).tc.any (fun x => decide (x < t)) = false →
    Ends (exec (.exConversionComplete k nv t) s) (fun u => Delivers s u (208 + k.val) 0 t
      [{ addr := 0x3400 + k.val * 0x20, value := (s.node.exC k.val).last, q := 0x04#8 }])) ∧
  (∀ (k : Fin 8) (mC : Int) (t : Nat) (s : State), s.node.up = true →
    (s.node.acq = false ∨ s.node.isRun 3 = false ∨ s.node.roleOn 1 (k.val / 4) = false ∨ recOn (s.node.recOf 3 k.val) = false
      ∨ (tget {} s.node.cj k.val).conv = false ∨ t < (tget {} s.node.cj k.val).settle
      ∨ atBoundary (tget {} s.node.cj k.val).grid (tget {} s.node.cj k.val).lastAt (uiPeriod 2) t = false) →
    Ends (exec (.cjConversionComplete k mC t) s) (fun u => tget {} u.node.cj k.val = tget {} s.node.cj k.val)) ∧
  (∀ (k : Fin 16) (nv : Int) (t : Nat) (s : State), s.node.up = true →
    (s.node.acq = false ∨ s.node.isRun 3 = false ∨ s.node.roleOn 1 (k.val / 8) = false ∨ recOn (s.node.recOf 2 k.val) = false
      ∨ (s.node.exC k.val).conv = false ∨ (s.node.exC k.val).tc.any (fun x => decide (x < t)) = true
      ∨ atBoundary (s.node.exC k.val).grid (s.node.exC k.val).lastAt (uiPeriod 2) t = false) →
    Ends (exec (.exConversionComplete k nv t) s) (fun u => u.node.exC k.val = s.node.exC k.val)) ∧
  (∀ (k : Fin 16) (t : Nat) (s : State), s.node.up = true →
    ((s.node.exC k.val).tc = none ∨ (s.node.exC k.val).discard ≠ none ∨ ∃ x, (s.node.exC k.val).tc = some x ∧ t < x) →
    Ends (exec (.excChangeApply k t) s) (fun u => u.node.exC k.val = s.node.exC k.val)) ∧
  (∀ (k : Fin 16) (d x t : Nat) (s : State), s.node.up = true → (s.node.exC k.val).discard = some d → d ≤ t →
    (s.node.exC k.val).tc = some x →
    Ends (exec (.excSettleEnd k t) s) (fun u => ((u.node.exC k.val).aOn, (u.node.exC k.val).aVset) = exWant s.node k.val
      ∧ (u.node.exC k.val).discard = some (d + 250000) ∧ (u.node.exC k.val).tc = none)) ∧
  (∀ (k : Fin 16) (t : Nat) (s : State), s.node.up = true →
    ((s.node.exC k.val).discard = none ∨ ∃ d, (s.node.exC k.val).discard = some d ∧ t < d) →
    Ends (exec (.excSettleEnd k t) s) (fun u => u.node.exC k.val = s.node.exC k.val)) ∧
  (∀ (k : Fin 16) (ok : Bool) (d t : Nat) (s : State), s.node.up = true → (s.node.exC k.val).discard = some d →
    Ends (exec (.exRegOkChange k ok t) s) (fun u => u.node.exC k.val = s.node.exC k.val)) ∧
  (∀ (k : Fin 16) (t : Nat) (s : State), s.node.up = true → (s.node.exC k.val).limitNow = true → (s.node.exC k.val).senseNow = true →
    ∀ i ∈ [Instr.exLimitOnset k true t, .exSenseErrOnset k true t], Ends (exec i s) (fun u =>
      u.node.exC k.val = s.node.exC k.val ∧ u.node.evt.flag 35 = s.node.evt.flag 35))

/-- A bypass round that agrees (R193 to R197): it starts on the next served channel; the bypass converter takes over with the
mean of overlap 1 while |A| ≤ 8 × TOL; good references are kept; a cross-check within TOL clears the disagreements; at
handback the own converter publishes again with the new calibration, the correction ramped over N results, event 36 and
outcome 0. Before its time, while rounds are stopped (R192) or out of its step, each of these changes nothing.

Rounds that disagree and converters that fail (R193, R195, R196, R200, R202 to R205): a refused take-over ends with outcome 1
and leaves the own converter; a failed cross-check hands back with the old calibration and outcome 2; the third disagreement of a
channel in a row detours it (outcome 4), three of one bypass converter on three channels in a row fail that converter (outcome 6);
references out of limits detour the channel at once (outcome 3, event 22); a bypass converter out
of limits leaves the pool, a bound one for good; a failed converter is replaced by the first one of the pool, which publishes once it has pre-rolled, and
without one the channel is FAILED. -/
def Obligations.BypassRounds : Prop :=
  (
  (∀ (b : Fin 4) (c t : Nat) (s : State), s.node.up = true → s.node.isRun 3 = true → s.node.suspended = false → s.node.inPool b.val = true →
    (s.node.bcOf b.val).step = 0 → ((s.node.bcOf b.val).started = true → (s.node.bcOf b.val).t0 + s.node.cal.rndPeriod * 250000000 ≤ t) →
    (s.node.advance t).nextChan b.val = some c → (t - (s.node.uiC c).grid) % uiPeriod (s.node.uiC c).rate = 0 →
    Ends (exec (.bypassRoundStart b t) s) (fun u => (u.node.bcOf b.val).step = 2 ∧ (u.node.bcOf b.val).chan = c ∧ (u.node.bcOf b.val).t0 = t
      ∧ (u.node.bcOf b.val).novl = s.node.cal.rndNovl ∧ (u.node.bcOf b.val).tol = s.node.cal.rndTol ∧ (u.node.bcOf b.val).per = s.node.cal.rndPeriod
      ∧ (u.node.bcOf b.val).started = true ∧ (u.node.bcOf b.val).pos = some c ∧ u.node.ui = s.node.ui)) ∧
  (∀ (b : Fin 4) (loopR t : Nat) (s : State), s.node.up = true → (s.node.bcOf b.val).step = 3 → (s.node.bcOf b.val).cnt1 = (s.node.bcOf b.val).novl →
    (s.node.bcOf b.val).sum1.natAbs * 4000000
      ≤ 8 * (s.node.bcOf b.val).tol * uiSpan4 (s.node.recOf 1 (s.node.bcOf b.val).chan) * (s.node.bcOf b.val).novl →
    Ends (exec (.bypassTakeover b loopR t) s) (fun u => (u.node.bcOf b.val).step = 4
      ∧ (u.node.uiC (s.node.bcOf b.val).chan).src = 1 ∧ (u.node.uiC (s.node.bcOf b.val).chan).rampNum = (s.node.bcOf b.val).sum1
      ∧ (u.node.uiC (s.node.bcOf b.val).chan).rampDen = (s.node.bcOf b.val).novl)) ∧
  (∀ (b : Fin 4) (m : RefMeas) (t : Nat) (s : State), s.node.up = true → (s.node.bcOf b.val).step = 4 → (s.node.bcOf b.val).refs = false →
    0x3EB851EC ≤ m.gain.toNat → m.gain.toNat ≤ 0x4147AE14 → m.offsIn = true →
    Ends (exec (.bypassReferencesDone b m t) s) (fun u =>
      u.node.bcOf b.val = { s.node.bcOf b.val with refs := true, newGain := m.gain, newOffs := m.offs } ∧ u.node.ui = s.node.ui)) ∧
  (∀ (b : Fin 4) (t : Nat) (s : State), s.node.up = true → (s.node.bcOf b.val).step = 5 → (s.node.bcOf b.val).cnt2 = (s.node.bcOf b.val).novl →
    (s.node.bcOf b.val).verdict = .none →
    (s.node.bcOf b.val).sum2.natAbs * 4000000
      ≤ (s.node.bcOf b.val).tol * uiSpan4 (s.node.recOf 1 (s.node.bcOf b.val).chan) * (s.node.bcOf b.val).novl →
    Ends (exec (.bypassCrossCheck b t) s) (fun u => (u.node.bcOf b.val).verdict = .agree
      ∧ disOf u.node (s.node.bcOf b.val).chan = 0 ∧ u.node.ui = s.node.ui)) ∧
  (∀ (b : Fin 4) (t : Nat) (s : State), s.node.up = true → (s.node.bcOf b.val).step = 5 → (s.node.bcOf b.val).verdict = .agree →
    tget 0 s.node.dtr.conv (s.node.bcOf b.val).chan = 0 →
    Ends (exec (.bypassHandback b t) s) (fun u =>
      let k := s.node.bcOf b.val
      (u.node.uiC k.chan).src = 0 ∧ (u.node.uiC k.chan).gain = k.newGain ∧ (u.node.uiC k.chan).offs = k.newOffs
        ∧ (u.node.uiC k.chan).rampNum = k.sum1 - k.sum2 ∧ (u.node.uiC k.chan).rampDen = k.novl ∧ (u.node.uiC k.chan).rampN = k.novl
        ∧ (u.node.bcOf b.val).outcome = 0 ∧ (u.node.bcOf b.val).step = 1 ∧ u.node.evt.flag 36 = true
        ∧ Delivers s u (64 + b.val) 0 t [⟨0x1C80 + b.val * 0x10, (satE32 (ppmOfSpan k.sum2 k.novl (uiSpan4 (s.node.recOf 1 k.chan)))).1, 0x01#8⟩])) ∧
  (∀ (b : Fin 4) (t : Nat) (s : State), s.node.up = true →
    ((s.node.bcOf b.val).step ≠ 0 ∨ s.node.isRun 3 = false ∨ s.node.suspended = true ∨ (s.node.advance t).nextChan b.val = none
      ∨ ((s.node.bcOf b.val).started = true ∧ t < (s.node.bcOf b.val).t0 + s.node.cal.rndPeriod * 250000000)
      ∨ ∃ c, (s.node.advance t).nextChan b.val = some c ∧ (t - (s.node.uiC c).grid) % uiPeriod (s.node.uiC c).rate ≠ 0) →
    Ends (exec (.bypassRoundStart b t) s) (fun u => u.node.cal = s.node.cal ∧ u.node.ui = s.node.ui)) ∧
  (∀ (b : Fin 4) (loopR t : Nat) (s : State), s.node.up = true →
    ((s.node.bcOf b.val).step ≠ 3 ∨ (s.node.bcOf b.val).cnt1 ≠ (s.node.bcOf b.val).novl) →
    Ends (exec (.bypassTakeover b loopR t) s) (fun u => u.node.cal = s.node.cal ∧ u.node.ui = s.node.ui)) ∧
  (∀ (b : Fin 4) (m : RefMeas) (t : Nat) (s : State), s.node.up = true → ((s.node.bcOf b.val).step ≠ 4 ∨ (s.node.bcOf b.val).refs = true) →
    Ends (exec (.bypassReferencesDone b m t) s) (fun u => u.node.cal = s.node.cal ∧ u.node.ui = s.node.ui)) ∧
  (∀ (b : Fin 4) (t : Nat) (s : State), s.node.up = true →
    ((s.node.bcOf b.val).step ≠ 5 ∨ (s.node.bcOf b.val).cnt2 ≠ (s.node.bcOf b.val).novl ∨ (s.node.bcOf b.val).verdict ≠ .none) →
    Ends (exec (.bypassCrossCheck b t) s) (fun u => u.node.cal = s.node.cal ∧ u.node.ui = s.node.ui)) ∧
  (∀ (b : Fin 4) (t : Nat) (s : State), s.node.up = true → ((s.node.bcOf b.val).step ≠ 5 ∨ (s.node.bcOf b.val).verdict = .none) →
    Ends (exec (.bypassHandback b t) s) (fun u => u.node.cal = s.node.cal ∧ u.node.ui = s.node.ui))) ∧
  (
  (∀ (b : Fin 4) (loopR t : Nat) (s : State), s.node.up = true → (s.node.bcOf b.val).step = 3 → (s.node.bcOf b.val).cnt1 = (s.node.bcOf b.val).novl →
    8 * (s.node.bcOf b.val).tol * uiSpan4 (s.node.recOf 1 (s.node.bcOf b.val).chan) * (s.node.bcOf b.val).novl
      < (s.node.bcOf b.val).sum1.natAbs * 4000000 → disOf s.node (s.node.bcOf b.val).chan = 0 → (s.node.bcOf b.val).dis.length < 2 →
    Ends (exec (.bypassTakeover b loopR t) s) (fun u => (u.node.bcOf b.val).step = 1 ∧ (u.node.bcOf b.val).outcome = 1
      ∧ (u.node.uiC (s.node.bcOf b.val).chan).src = (s.node.uiC (s.node.bcOf b.val).chan).src
      ∧ disOf u.node (s.node.bcOf b.val).chan = 1 ∧ u.node.evt.flag 36 = true ∧ u.node.evt.flag 37 = true)) ∧
  (∀ (b : Fin 4) (m : RefMeas) (t : Nat) (s : State), s.node.up = true → (s.node.bcOf b.val).step = 4 → (s.node.bcOf b.val).refs = false →
    m.offsIn = false →
    Ends (exec (.bypassReferencesDone b m t) s) (fun u => (u.node.bcOf b.val).step = 6 ∧ (u.node.bcOf b.val).outcome = 3
      ∧ (u.node.bcOf b.val).chan = (s.node.bcOf b.val).chan ∧ (u.node.uiC (s.node.bcOf b.val).chan).src = 2
      ∧ tget 0 u.node.dtr.conv (s.node.bcOf b.val).chan = b.val + 1 ∧ u.node.evt.flag 22 = true ∧ u.node.evt.flag 36 = true)) ∧
  (∀ (b : Fin 4) (m : RefMeas) (t : Nat) (s : State), s.node.up = true → (s.node.bcOf b.val).step = 1 →
    (refsOk m = true → Ends (exec (.bcSelfCalComplete b m t) s) (fun u =>
      u.node.bcOf b.val = { s.node.bcOf b.val with step := 0, gain := m.gain, offs := m.offs })) ∧
    (refsOk m = false → Ends (exec (.bcSelfCalComplete b m t) s) (fun u =>
      (u.node.bcOf b.val).step = 7 ∧ u.node.inPool b.val = false ∧ u.node.evt.flag 22 = true))) ∧
  (∀ (c : Fin 64) (t : Nat) (s : State), s.node.up = true → s.node.isRun 3 = true → s.node.chOn 1 c.val = true → (s.node.uiC c.val).failed = false →
    (∀ b < 4, (s.node.bcOf b).chan = c.val → (s.node.bcOf b).step < 2 ∨ 5 < (s.node.bcOf b).step) →
    (∀ b < 4, (s.node.bcOf b).step = 6 → (s.node.bcOf b).chan ≠ c.val) →
    (∀ b, s.node.server (c.val / 16) = some b → Ends (exec (.converterFault c t) s) (fun u =>
      (u.node.uiC c.val).failed = false ∧ (u.node.uiC c.val).src = (s.node.uiC c.val).src
      ∧ t + uiSettle (s.node.uiC c.val).rate (s.node.uiC c.val).line ≤ (u.node.uiC c.val).settle
      ∧ (u.node.bcOf b).step = 6 ∧ (u.node.bcOf b).chan = c.val ∧ (u.node.bcOf b).preroll = true ∧ u.node.dtr = s.node.dtr)) ∧
    (s.node.server (c.val / 16) = none → Ends (exec (.converterFault c t) s) (fun u => (u.node.uiC c.val).failed = true
      ∧ (u.node.uiC c.val).src = 3 ∧ (u.node.uiC c.val).conv = false ∧ u.node.dev.chanFail.contains (256 + c.val) = true))) ∧
  (∀ (b : Fin 4) (t : Nat) (s : State), s.node.up = true → (s.node.bcOf b.val).step = 5 → (s.node.bcOf b.val).cnt2 = (s.node.bcOf b.val).novl →
    (s.node.bcOf b.val).verdict = .none →
    (s.node.bcOf b.val).tol * uiSpan4 (s.node.recOf 1 (s.node.bcOf b.val).chan) * (s.node.bcOf b.val).novl
      < (s.node.bcOf b.val).sum2.natAbs * 4000000 → disOf s.node (s.node.bcOf b.val).chan = 0 → (s.node.bcOf b.val).dis.length < 2 →
    Ends (exec (.bypassCrossCheck b t) s) (fun u => (u.node.bcOf b.val).verdict = .disagree ∧ (u.node.bcOf b.val).outcome = 2
      ∧ (u.node.bcOf b.val).lastChan = (s.node.bcOf b.val).chan ∧ disOf u.node (s.node.bcOf b.val).chan = 1 ∧ u.node.ui = s.node.ui
      ∧ u.node.evt.flag 37 = true)) ∧
  (∀ (b : Fin 4) (t : Nat) (s : State), s.node.up = true → (s.node.bcOf b.val).step = 5 → (s.node.bcOf b.val).verdict = .disagree →
    tget 0 s.node.dtr.conv (s.node.bcOf b.val).chan = 0 →
    Ends (exec (.bypassHandback b t) s) (fun u =>
      let k := s.node.bcOf b.val
      (u.node.uiC k.chan).src = 0 ∧ (u.node.uiC k.chan).gain = (s.node.uiC k.chan).gain ∧ (u.node.uiC k.chan).offs = (s.node.uiC k.chan).offs
        ∧ (u.node.uiC k.chan).rampN = 0 ∧ (u.node.bcOf b.val).outcome = 2 ∧ (u.node.bcOf b.val).step = 1 ∧ u.node.evt.flag 36 = true
        ∧ Delivers s u (64 + b.val) 0 t [⟨0x1C80 + b.val * 0x10, (satE32 (ppmOfSpan k.sum2 k.novl (uiSpan4 (s.node.recOf 1 k.chan)))).1, 0x09#8⟩])) ∧
  (∀ (b : Fin 4) (loopR t : Nat) (s : State), s.node.up = true → (s.node.bcOf b.val).step = 3 → (s.node.bcOf b.val).cnt1 = (s.node.bcOf b.val).novl →
    8 * (s.node.bcOf b.val).tol * uiSpan4 (s.node.recOf 1 (s.node.bcOf b.val).chan) * (s.node.bcOf b.val).novl
      < (s.node.bcOf b.val).sum1.natAbs * 4000000 → disOf s.node (s.node.bcOf b.val).chan = 2 → (s.node.bcOf b.val).dis.length < 2 →
    Ends (exec (.bypassTakeover b loopR t) s) (fun u => (u.node.bcOf b.val).step = 6 ∧ (u.node.bcOf b.val).outcome = 4
      ∧ (u.node.bcOf b.val).chan = (s.node.bcOf b.val).chan ∧ (u.node.uiC (s.node.bcOf b.val).chan).src = 2
      ∧ tget 0 u.node.dtr.conv (s.node.bcOf b.val).chan = b.val + 1 ∧ u.node.evt.flag 22 = true ∧ u.node.evt.flag 37 = true)) ∧
  (∀ (b : Fin 4) (loopR c1 c2 t : Nat) (s : State), s.node.up = true → (s.node.bcOf b.val).step = 3 → (s.node.bcOf b.val).cnt1 = (s.node.bcOf b.val).novl →
    8 * (s.node.bcOf b.val).tol * uiSpan4 (s.node.recOf 1 (s.node.bcOf b.val).chan) * (s.node.bcOf b.val).novl
      < (s.node.bcOf b.val).sum1.natAbs * 4000000 →
    (s.node.bcOf b.val).dis = [c1, c2] → c1 ≠ c2 → c1 ≠ (s.node.bcOf b.val).chan → c2 ≠ (s.node.bcOf b.val).chan →
    Ends (exec (.bypassTakeover b loopR t) s) (fun u => (u.node.bcOf b.val).step = 7 ∧ (u.node.bcOf b.val).outcome = 6
      ∧ u.node.inPool b.val = false ∧ disOf u.node c1 = disOf s.node c1 - 1 ∧ disOf u.node c2 = disOf s.node c2 - 1
      ∧ u.node.evt.flag 22 = true ∧ u.node.evt.flag 36 = true)) ∧
  (∀ (b : Fin 4) (m : RefMeas) (t : Nat) (s : State), s.node.up = true → (s.node.bcOf b.val).step = 6 →
    (refsOk m = true → Ends (exec (.bcSelfCalComplete b m t) s) (fun u =>
      u.node.bcOf b.val = { s.node.bcOf b.val with gain := m.gain, offs := m.offs } ∧ u.node.ui = s.node.ui)) ∧
    (refsOk m = false → Ends (exec (.bcSelfCalComplete b m t) s) (fun u =>
      (u.node.bcOf b.val).step = 7 ∧ u.node.inPool b.val = false ∧ u.node.evt.flag 22 = true))) ∧
  (∀ (b : Fin 4) (m : RefMeas) (t : Nat) (s : State), s.node.up = true → (s.node.bcOf b.val).step ≠ 1 → (s.node.bcOf b.val).step ≠ 6 →
    Ends (exec (.bcSelfCalComplete b m t) s) (fun u => u.node.cal = s.node.cal ∧ u.node.ui = s.node.ui)) ∧
  (∀ (c : Fin 64) (t : Nat) (s : State), s.node.up = true →
    (s.node.isRun 3 = false ∨ s.node.chOn 1 c.val = false ∨ (s.node.uiC c.val).failed = true) →
    Ends (exec (.converterFault c t) s) (fun u => u.node.cal = s.node.cal ∧ u.node.ui = s.node.ui)))

/-- Pair watch and triads (R211, R212): when its timer has run out a pair becomes suspect, both stored results SUSPECT, event 38,
or clears, SUSPECT leaving the results that nothing else suspects; three valid members within the band publish their median, state 0,
all three used; where two remain, because one is not VALID or lies outside the band about the median, their mean, state 1; with fewer than two VALID members the triad is in state 2 and
publishes its last value without VALID; event 39 comes as the state worsens; between its ticks a triad stands. -/
def Obligations.PairsAndTriads : Prop :=
  (∀ (k : Fin 64) (r : Bytes) (s0 t : Nat) (s : State), s.node.up = true → s.node.keyed 0x06 2 k.val = some r →
    (tget ({} : Pair) s.node.cal.pairs k.val).since = some s0 → s0 + u16 r 6 * 2500000 ≤ t →
    (tget ({} : Pair) s.node.cal.pairs k.val).suspect = false → (tget ({} : Pair) s.node.cal.pairs k.val).beyond = true →
    Ends (exec (.pairWatchTimer k t) s) (fun u => (tget ({} : Pair) u.node.cal.pairs k.val).suspect = true ∧ u.node.evt.flag 38 = true
      ∧ ((s.node.res (u16 r 2)).has = true → qHas (u.node.res (u16 r 2)).q qSUSPECT = true)
      ∧ ((s.node.res (u16 r 4)).has = true → qHas (u.node.res (u16 r 4)).q qSUSPECT = true)
      ∧ ∀ a, a ≠ u16 r 2 → a ≠ u16 r 4 → u.node.res a = s.node.res a)) ∧
  (∀ (k : Fin 16) (r : Bytes) (t : Nat) (s : State), s.node.up = true → s.node.acq = true → s.node.keyed 0x06 3 k.val = some r →
    (tget ({} : Triad) s.node.cal.triads k.val).voteAt ≠ some (timeAfter s t / 250000) →
    (wd (timeAfter s t / 250000)).toNat % u16 r 12 = 0 →
    (∀ a ∈ [u16 r 2, u16 r 4, u16 r 6], qHas (resQ (s.node.res a)) qVALID = true) →
    (let m := median3 [(s.node.res (u16 r 2)).value.toInt, (s.node.res (u16 r 4)).value.toInt, (s.node.res (u16 r 6)).value.toInt]
     (∀ a ∈ [u16 r 2, u16 r 4, u16 r 6], |(s.node.res a).value.toInt - m| ≤ (u32 r 8 : Int)) →
     Ends (exec (.triadVote k t) s) (fun u => (tget ({} : Triad) u.node.cal.triads k.val).state = 0
       ∧ (tget ({} : Triad) u.node.cal.triads k.val).used = 7
       ∧ ∃ q, qHas q qVALID = true ∧ Delivers s u (158 + k.val) 0 t [⟨0x1D00 + k.val * 0x10, (satE32 m).1, q⟩]))) ∧
  (∀ (k : Fin 64) (r : Bytes) (s0 t : Nat) (s : State), s.node.up = true → s.node.keyed 0x06 2 k.val = some r →
    (tget ({} : Pair) s.node.cal.pairs k.val).since = some s0 → s0 + u16 r 6 * 2500000 ≤ t →
    (tget ({} : Pair) s.node.cal.pairs k.val).suspect = true → (tget ({} : Pair) s.node.cal.pairs k.val).beyond = false →
    Ends (exec (.pairWatchTimer k t) s) (fun u => (tget ({} : Pair) u.node.cal.pairs k.val).suspect = false
      ∧ u.node.evt.flag 38 = s.node.evt.flag 38
      ∧ ((∀ d < 64, d ≠ k.val → (tget ({} : Pair) s.node.cal.pairs d).suspect = false) →
          ∀ a ∈ [u16 r 2, u16 r 4], (s.node.res a).susp = false → (s.node.res a).has = true → qHas (u.node.res a).q qSUSPECT = false)
      ∧ ∀ a, a ≠ u16 r 2 → a ≠ u16 r 4 → u.node.res a = s.node.res a)) ∧
  (∀ (k : Fin 64) (t : Nat) (s : State), s.node.up = true →
    ((tget ({} : Pair) s.node.cal.pairs k.val).since = none ∨ s.node.keyed 0x06 2 k.val = none
      ∨ (tget ({} : Pair) s.node.cal.pairs k.val).suspect = (tget ({} : Pair) s.node.cal.pairs k.val).beyond
      ∨ ∃ r s0, s.node.keyed 0x06 2 k.val = some r ∧ (tget ({} : Pair) s.node.cal.pairs k.val).since = some s0 ∧ t < s0 + u16 r 6 * 2500000) →
    Ends (exec (.pairWatchTimer k t) s) (fun u => u.node.cal = s.node.cal ∧ u.node.jn.store = s.node.jn.store)) ∧
  (∀ (k : Fin 16) (r : Bytes) (i j l t : Nat) (s : State), s.node.up = true → s.node.acq = true → s.node.keyed 0x06 3 k.val = some r →
    (tget ({} : Triad) s.node.cal.triads k.val).voteAt ≠ some (timeAfter s t / 250000) →
    (wd (timeAfter s t / 250000)).toNat % u16 r 12 = 0 → i < 3 → j < 3 → l < 3 → i ≠ j → i ≠ l → j ≠ l →
    (let mid := median3 [(s.node.res (u16 r 2)).value.toInt, (s.node.res (u16 r 4)).value.toInt, (s.node.res (u16 r 6)).value.toInt]
     qHas (resQ (s.node.res (u16 r (2 + 2 * i)))) qVALID = true → qHas (resQ (s.node.res (u16 r (2 + 2 * j)))) qVALID = true →
     (qHas (resQ (s.node.res (u16 r (2 + 2 * l)))) qVALID = false ∧ |(s.node.res (u16 r (2 + 2 * i))).value.toInt - (s.node.res (u16 r (2 + 2 * j))).value.toInt| ≤ (u32 r 8 : Int)
       ∨ qHas (resQ (s.node.res (u16 r (2 + 2 * l)))) qVALID = true ∧ |(s.node.res (u16 r (2 + 2 * i))).value.toInt - mid| ≤ (u32 r 8 : Int) ∧ |(s.node.res (u16 r (2 + 2 * j))).value.toInt - mid| ≤ (u32 r 8 : Int)
         ∧ (u32 r 8 : Int) < |(s.node.res (u16 r (2 + 2 * l))).value.toInt - mid|) →
     Ends (exec (.triadVote k t) s) (fun u => (tget ({} : Triad) u.node.cal.triads k.val).state = 1
       ∧ (tget ({} : Triad) u.node.cal.triads k.val).used = 2 ^ i + 2 ^ j
       ∧ ((tget ({} : Triad) s.node.cal.triads k.val).state = 0 → u.node.evt.flag 39 = true)
       ∧ ∃ q, qHas q qVALID = true ∧ Delivers s u (158 + k.val) 0 t [⟨0x1D00 + k.val * 0x10,
           (satE32 (divRound ((s.node.res (u16 r (2 + 2 * i))).value.toInt + (s.node.res (u16 r (2 + 2 * j))).value.toInt) 2)).1, q⟩]))) ∧
  (∀ (k : Fin 16) (r : Bytes) (x t : Nat) (s : State), s.node.up = true → s.node.acq = true → s.node.keyed 0x06 3 k.val = some r →
    (tget ({} : Triad) s.node.cal.triads k.val).voteAt ≠ some (timeAfter s t / 250000) →
    (wd (timeAfter s t / 250000)).toNat % u16 r 12 = 0 →
    (∀ a ∈ [u16 r 2, u16 r 4, u16 r 6], a ≠ x → qHas (resQ (s.node.res a)) qVALID = false) → u16 r 2 ≠ u16 r 4 → u16 r 2 ≠ u16 r 6 →
    u16 r 4 ≠ u16 r 6 →
    Ends (exec (.triadVote k t) s) (fun u => (tget ({} : Triad) u.node.cal.triads k.val).state = 2
      ∧ (tget ({} : Triad) u.node.cal.triads k.val).used = 0
      ∧ ((tget ({} : Triad) s.node.cal.triads k.val).state ≤ 1 → u.node.evt.flag 39 = true)
      ∧ ((tget ({} : Triad) s.node.cal.triads k.val).voted = true → Delivers s u (158 + k.val) 0 t
          [⟨0x1D00 + k.val * 0x10, (tget ({} : Triad) s.node.cal.triads k.val).last, 0x00#8⟩]))) ∧
  (∀ (k : Fin 16) (t : Nat) (s : State), s.node.up = true →
    (s.node.acq = false ∨ s.node.keyed 0x06 3 k.val = none
      ∨ (tget ({} : Triad) s.node.cal.triads k.val).voteAt = some (timeAfter s t / 250000)
      ∨ ∃ r, s.node.keyed 0x06 3 k.val = some r ∧ (wd (timeAfter s t / 250000)).toNat % u16 r 12 ≠ 0) →
    Ends (exec (.triadVote k t) s) (fun u => u.node.cal = s.node.cal))

/-- Charge sampling (R220, R221, R223, R224, R226, R229): a due trigger converts the next sample of the running block, or opens a
block at its sample 0; a conversion joins it, clamped to full scale, event 50 at the first saturated one; a trigger during a
conversion is held and late; a range command meets the trigger and starts a settling window; RST_TIME after its
closure the switch opens; a crank cycle past CYC_TMO, or whose position no longer serves, is dropped, counted, and waits for an
index. What is not due changes nothing.

Charge records and buffers (R231, R233 to R239, R244): a finished crank cycle is delivered with its results, saturated (a free
value where the widths of R235 do not hold one: notes/assumptions/25.md), counted, stored in the buffer it took at its start, event
48; so is a whole block in time mode; one taken with the switch open yields no record; a range command is held for the next
trigger, or refused; OPEN holds the latest buffer, reads step through it, RELEASE and 2 s without a read end the hold. -/
def Obligations.ChargeChannels : Prop :=
  (
  (∀ (c : Fin 16) (y : CaCyc) (t : Nat) (s : State), s.node.up = true → s.node.caOn c.val = true → caMode (s.node.recOf 4 c.val) = 1 →
    0 < caStep (s.node.recOf 4 c.val) → (s.node.caC c.val).nextAt ≤ t → (s.node.caC c.val).cur = some y → y.trig < y.len →
    (s.node.caC c.val).settle = 0 → (s.node.caC c.val).req = none → (s.node.caC c.val).conv = none →
    Ends (exec (.caSampleTrigger c t) s) (fun u => (u.node.caC c.val).cur = some { y with trig := y.trig + 1, range1 := (s.node.caC c.val).range }
      ∧ (u.node.caC c.val).conv = some { k := y.trig, rst := (s.node.caC c.val).closed, late := false, j := 0 }
      ∧ (u.node.caC c.val).nextAt = t + caStep (s.node.recOf 4 c.val) * 1000)) ∧
  (∀ (c : Fin 16) (t : Nat) (s : State), s.node.up = true → s.node.caOn c.val = true → caMode (s.node.recOf 4 c.val) = 1 →
    0 < caStep (s.node.recOf 4 c.val) → (s.node.caC c.val).nextAt ≤ t → (s.node.caC c.val).cur = none →
    (s.node.caC c.val).settle = 0 → (s.node.caC c.val).req = none → (s.node.caC c.val).conv = none →
    Ends (exec (.caSampleTrigger c t) s) (fun u => (∃ z, (u.node.caC c.val).cur = some z ∧ z.t0 = t ∧ z.trig = 1
        ∧ z.len = caBlock (s.node.recOf 4 c.val) ∧ z.samples = [])
      ∧ (u.node.caC c.val).blocks = (s.node.caC c.val).blocks + 1)) ∧
  (∀ (c : Fin 16) (q : Int) (v : CaConv) (y : CaCyc) (t : Nat) (s : State), s.node.up = true → s.node.caOn c.val = true →
    (s.node.caC c.val).conv = some v → v.j = 0 → v.prev = false → (s.node.caC c.val).held = none → (s.node.caC c.val).cur = some y →
    Ends (exec (.caConversionEnd c q t) s) (fun u =>
      let fs : Int := caFs (s.node.caC c.val).range
      (u.node.caC c.val).conv = none ∧ (u.node.caC c.val).lastQ = max (-fs) (min fs q)
        ∧ (∃ z x, (u.node.caC c.val).cur = some z ∧ z.samples = x :: y.samples ∧ x.k = v.k ∧ x.q = max (-fs) (min fs q)
            ∧ x.rst = v.rst ∧ (x.sat = true ↔ fs ≤ |q|))
        ∧ (fs ≤ |q| → (y.samples.any (·.sat)) = false → u.node.evt.flag 50 = true))) ∧
  (∀ (c : Fin 16) (t : Nat) (s : State), s.node.up = true → (s.node.caC c.val).closed = true →
    (s.node.caC c.val).closedAt + caRstTime (s.node.recOf 4 c.val) * 250 ≤ t →
    Ends (exec (.caResetOpen c t) s) (fun u => (u.node.caC c.val).closed = false)) ∧
  (∀ (c : Fin 16) (y : CaCyc) (t : Nat) (s : State), s.node.up = true → caMode (s.node.recOf 4 c.val) = 2 → (s.node.caC c.val).cur = some y →
    y.trig < y.len → y.t0 + caTmo (s.node.recOf 4 c.val) * 25000000 ≤ t →
    Ends (exec (.caCycleAbandon c t) s) (fun u => (u.node.caC c.val).cur = none ∧ (u.node.caC c.val).conv = none
      ∧ (u.node.caC c.val).seenIdx = false ∧ (u.node.caC c.val).abandon = (if (s.node.caC c.val).abandon < 255 then (s.node.caC c.val).abandon + 1 else 255))) ∧
  (∀ (c : Fin 16) (y : CaCyc) (t : Nat) (s : State), s.node.up = true → s.node.caOn c.val = true →
    caMode (s.node.recOf 4 c.val) ≠ 1 ∨ caStep (s.node.recOf 4 c.val) = 0 → 0 < (s.node.caC c.val).due → (s.node.caC c.val).cur = some y →
    y.trig < y.len → (s.node.caC c.val).settle = 0 → (s.node.caC c.val).req = none → (s.node.caC c.val).conv = none →
    Ends (exec (.caSampleTrigger c t) s) (fun u => (u.node.caC c.val).cur = some { y with trig := y.trig + 1, range1 := (s.node.caC c.val).range }
      ∧ (u.node.caC c.val).conv = some { k := y.trig, rst := (s.node.caC c.val).closed, late := false, j := 0 }
      ∧ (u.node.caC c.val).due = (s.node.caC c.val).due - 1)) ∧
  (∀ (c : Fin 16) (y : CaCyc) (v : CaConv) (t : Nat) (s : State), s.node.up = true → s.node.caOn c.val = true →
    caMode (s.node.recOf 4 c.val) = 1 → 0 < caStep (s.node.recOf 4 c.val) → (s.node.caC c.val).nextAt ≤ t → (s.node.caC c.val).cur = some y →
    y.trig < y.len → (s.node.caC c.val).settle = 0 → (s.node.caC c.val).req = none → (s.node.caC c.val).conv = some v →
    (s.node.caC c.val).held = none →
    Ends (exec (.caSampleTrigger c t) s) (fun u => (u.node.caC c.val).conv = some v
      ∧ (u.node.caC c.val).held = some { k := y.trig, rst := (s.node.caC c.val).closed, late := true, j := 0 })) ∧
  (∀ (c : Fin 16) (y : CaCyc) (q t : Nat) (s : State), s.node.up = true → s.node.caOn c.val = true →
    caMode (s.node.recOf 4 c.val) = 1 → 0 < caStep (s.node.recOf 4 c.val) → (s.node.caC c.val).nextAt ≤ t → (s.node.caC c.val).cur = some y →
    y.trig + 4 < y.len → (s.node.caC c.val).settle = 0 → (s.node.caC c.val).req = some q → (s.node.caC c.val).deferred = false →
    (s.node.caC c.val).conv = none → (s.node.caC c.val).closed = false →
    Ends (exec (.caSampleTrigger c t) s) (fun u => (u.node.caC c.val).range = q ∧ (u.node.caC c.val).req = none
      ∧ (u.node.caC c.val).settle = 2 ∧ (u.node.caC c.val).qb = (s.node.caC c.val).lastQ
      ∧ (u.node.caC c.val).conv = some { k := y.trig, rst := false, late := false, j := 1 })) ∧
  (∀ (c : Fin 16) (t : Nat) (s : State), s.node.up = true →
    (s.node.caOn c.val = false
      ∨ (caMode (s.node.recOf 4 c.val) = 1 ∧ 0 < caStep (s.node.recOf 4 c.val) ∧ t < (s.node.caC c.val).nextAt)
      ∨ ((caMode (s.node.recOf 4 c.val) ≠ 1 ∨ caStep (s.node.recOf 4 c.val) = 0) ∧ (s.node.caC c.val).due = 0)) →
    Ends (exec (.caSampleTrigger c t) s) (fun u => u.node.ca = s.node.ca)) ∧
  (∀ (c : Fin 16) (q : Int) (t : Nat) (s : State), s.node.up = true → (s.node.caOn c.val = false ∨ (s.node.caC c.val).conv = none) →
    Ends (exec (.caConversionEnd c q t) s) (fun u => u.node.ca = s.node.ca)) ∧
  (∀ (c : Fin 16) (t : Nat) (s : State), s.node.up = true →
    ((s.node.caC c.val).closed = false ∨ t < (s.node.caC c.val).closedAt + caRstTime (s.node.recOf 4 c.val) * 250) →
    Ends (exec (.caResetOpen c t) s) (fun u => u.node.ca = s.node.ca)) ∧
  (∀ (c : Fin 16) (y : CaCyc) (t : Nat) (s : State), s.node.up = true → caMode (s.node.recOf 4 c.val) = 2 → (s.node.caC c.val).cur = some y →
    y.trig < y.len → (pfValid s.node (caPf (s.node.recOf 4 c.val)) = false ∨ (s.node.pfC (caPf (s.node.recOf 4 c.val))).still = true) →
    Ends (exec (.caCycleAbandon c t) s) (fun u => (u.node.caC c.val).cur = none ∧ (u.node.caC c.val).seenIdx = false)) ∧
  (∀ (c : Fin 16) (t : Nat) (s : State), s.node.up = true →
    (caMode (s.node.recOf 4 c.val) ≠ 2 ∨ (s.node.caC c.val).cur = none
      ∨ (∃ y, (s.node.caC c.val).cur = some y ∧ (y.len ≤ y.trig ∨ (t < y.t0 + caTmo (s.node.recOf 4 c.val) * 25000000
          ∧ pfValid s.node (caPf (s.node.recOf 4 c.val)) = true ∧ (s.node.pfC (caPf (s.node.recOf 4 c.val))).still = false)))) →
    Ends (exec (.caCycleAbandon c t) s) (fun u => u.node.ca = s.node.ca))) ∧
  (
  (∀ (c : Fin 16) (y : CaCyc) (t : Nat) (s : State), s.node.up = true → s.node.caOn c.val = true → caMode (s.node.recOf 4 c.val) = 2 →
    (s.node.caC c.val).prev = some y → (s.node.caC c.val).conv = none → y.record = true → s.node.roleOn 2 (c.val / 8) = true →
    Ends (exec (.caRecordComplete c t) s) (fun u => (u.node.caC c.val).prev = none ∧ (u.node.caC c.val).cycle = (s.node.caC c.val).cycle + 1#32
      ∧ u.node.evt.flag 48 = true ∧ (y.store = true → (u.node.caC c.val).latest = (if y.buf = 2 then 2 else 1))
      ∧ ∃ es, Delivers s u (68 + c.val) 0 t es ∧ es.length = 4
        ∧ ∀ i < 4, ∀ v, (caCrankResults (s.node.recOf 4 c.val) ((s.node.keyed 0x05 2 (u8 (s.node.recOf 4 c.val) 14)).getD []) y.peg
            y.samples.reverse)[i]? = some (some v) →
          (es[i]?).map (fun e => (e.addr, e.value)) = some (0x3000 + c.val * 0x40 + 8 * i, (satE32 v).1))) ∧
  (∀ (p : HostPort) (c : Fin 16) (v : Word) (s : State), Takes s (0x3024 + 0x40 * c.val) → bitOf v 8 = true →
    (s.node.acq = true → s.node.chOn 4 c.val = true → caAuto (s.node.recOf 4 c.val) = false →
      Ends (exec (.caRangeRequest p c v) s) (fun u => Acks u p (0x3024 + 0x40 * c.val)
        ∧ u.node.caC c.val = { s.node.caC c.val with req := some (fld v 1 0) })) ∧
    (s.node.acq = false ∨ s.node.chOn 4 c.val = false ∨ caAuto (s.node.recOf 4 c.val) = true →
      Ends (exec (.caRangeRequest p c v) s) (fun u => Acks u p (0x3024 + 0x40 * c.val)
        ∧ u.node.caC c.val = { s.node.caC c.val with refused := true }))) ∧
  (∀ (p : HostPort) (c : Fin 16) (t : Nat) (s : State), Takes s (0x3034 + 0x40 * c.val) → (s.node.caC c.val).latest ≠ 0 →
    Ends (exec (.bufOpen p c t) s) (fun u => Acks u p (0x3034 + 0x40 * c.val)
      ∧ (portIdx p, (s.node.caC c.val).latest, timeAfter s t) ∈ (u.node.caC c.val).holds
      ∧ tget 0 (u.node.port p).caBufAddr c.val = 0)) ∧
  (∀ (p : HostPort) (c : Fin 16) (s : State), Takes s (0x3034 + 0x40 * c.val) →
    Ends (exec (.bufRelease p c) s) (fun u => Acks u p (0x3034 + 0x40 * c.val) ∧ (∀ h ∈ (u.node.caC c.val).holds, h.1 ≠ portIdx p)
      ∧ ∀ h ∈ (s.node.caC c.val).holds, h.1 ≠ portIdx p → h ∈ (u.node.caC c.val).holds)) ∧
  (∀ (p : HostPort) (c : Fin 16) (buf : List Word) (w : Word) (s : State), Serves s (0x303C + 0x40 * c.val) →
    caHeld (s.node.caC c.val) (portIdx p) = some buf → buf[tget 0 (s.node.port p).caBufAddr c.val]? = some w →
    Ends (exec (.caBufDataRead p c) s) (fun u => Answered u p 0 (0x303C + 0x40 * c.val) w
      ∧ tget 0 (u.node.port p).caBufAddr c.val = (tget 0 (s.node.port p).caBufAddr c.val + 1) % 65536)) ∧
  (∀ (p : HostPort) (c : Fin 16) (s : State), Serves s (0x303C + 0x40 * c.val) → caHeld (s.node.caC c.val) (portIdx p) = none →
    Ends (exec (.caBufDataRead p c) s) (fun u => Answered u p 2 (0x303C + 0x40 * c.val) 0#32 ∧ u.node.ca = s.node.ca)) ∧
  (∀ (p : HostPort) (c : Fin 16) (b r t : Nat) (s : State), s.node.up = true → (s.node.caC c.val).holds = [(portIdx p, b, r)] →
    Ends (exec (.bufHoldTimeout p c t) s) (fun u =>
      (u.node.caC c.val).holds = if r + 500000000 ≤ t then [] else [(portIdx p, b, r)])) ∧
  (∀ (c : Fin 16) (y : CaCyc) (t : Nat) (s : State), s.node.up = true → s.node.caOn c.val = true → caMode (s.node.recOf 4 c.val) = 1 →
    (s.node.caC c.val).prev = none → (s.node.caC c.val).cur = some y → y.len ≤ y.trig → (s.node.caC c.val).conv = none →
    (s.node.caC c.val).held = none → y.record = true → s.node.roleOn 2 (c.val / 8) = true →
    Ends (exec (.caRecordComplete c t) s) (fun u => (u.node.caC c.val).cur = none ∧ (u.node.caC c.val).cycle = (s.node.caC c.val).cycle + 1#32
      ∧ u.node.evt.flag 48 = true ∧ (y.store = true → (u.node.caC c.val).latest = (if y.buf = 2 then 2 else 1))
      ∧ ∃ es, Delivers s u (68 + c.val) 0 t es ∧ es.length = 4
        ∧ ∀ i < 4, ∀ v, (caBlockResults (s.node.recOf 4 c.val) y.samples.reverse)[i]? = some (some v) →
          (es[i]?).map (fun e => (e.addr, e.value)) = some (0x3000 + c.val * 0x40 + 8 * i, (satE32 v).1))) ∧
  (∀ (c : Fin 16) (y : CaCyc) (t : Nat) (s : State), s.node.up = true → s.node.caOn c.val = true → (s.node.caC c.val).prev = some y →
    (s.node.caC c.val).conv = none → y.record = false → s.node.roleOn 2 (c.val / 8) = true →
    Ends (exec (.caRecordComplete c t) s) (fun u => u.node.caC c.val = { s.node.caC c.val with prev := none })) ∧
  (∀ (c : Fin 16) (t : Nat) (s : State), s.node.up = true →
    (s.node.caOn c.val = false ∨ s.node.roleOn 2 (c.val / 8) = false ∨ caFinished (s.node.caC c.val) = none) →
    Ends (exec (.caRecordComplete c t) s) (fun u => u.node.ca = s.node.ca)) ∧
  (∀ (p : HostPort) (c : Fin 16) (v : Word) (s : State), Takes s (0x3024 + 0x40 * c.val) → bitOf v 8 = false →
    Ends (exec (.caRangeRequest p c v) s) (fun u => Acks u p (0x3024 + 0x40 * c.val) ∧ u.node.caC c.val = s.node.caC c.val)) ∧
  (∀ (p : HostPort) (c : Fin 16) (t : Nat) (s : State), Takes s (0x3034 + 0x40 * c.val) → (s.node.caC c.val).latest = 0 →
    Ends (exec (.bufOpen p c t) s) (fun u => Acks u p (0x3034 + 0x40 * c.val)
      ∧ (∀ h ∈ (u.node.caC c.val).holds, h.1 ≠ portIdx p) ∧ tget 0 (u.node.port p).caBufAddr c.val = 0)) ∧
  (∀ (p : HostPort) (c : Fin 16) (buf : List Word) (s : State), Serves s (0x303C + 0x40 * c.val) →
    caHeld (s.node.caC c.val) (portIdx p) = some buf → buf.length ≤ tget 0 (s.node.port p).caBufAddr c.val →
    Ends (exec (.caBufDataRead p c) s) (fun u => Answered u p 2 (0x303C + 0x40 * c.val) 0#32
      ∧ tget 0 (u.node.port p).caBufAddr c.val = tget 0 (s.node.port p).caBufAddr c.val)) ∧
  (∀ (p : HostPort) (c : Fin 16) (t : Nat) (s : State), s.node.up = true → (∀ h ∈ (s.node.caC c.val).holds, h.1 ≠ portIdx p) →
    Ends (exec (.bufHoldTimeout p c t) s) (fun u => u.node.ca = s.node.ca)))

/-- Loop outputs (R246, R247, R249, R251 to R254): a demand of the host is stored and, where the channel drives it with the linear
characteristic, in force at once as I_LO + round(d × (I_HI − I_LO) / 10^6), clamped to the mode's range; a readback window is
published, the third deviation in a row from the mean commanded current sets HEADROOM with event 56 (judged where that current is
applied at the window's end: notes/assumptions/26.md, the model's choice, as is a sourcing channel's FIELD_OK from the window's operand); a lost field supply is OPEN with event 57 and reads 0, not VALID, RANGE; a
miswired channel is high impedance, its readback RANGE and not VALID.

Pulse outputs (R265, R266): at a period boundary a driven duty output takes its demand, clamped to 0 to 10^6 ppm, a frequency
output round(d × FMAX / 10^6) mHz; a source that is not VALID brings SRC_BAD and the safe state (R250); a stopped frequency, a pulse
output and one that is not driven have no boundary; a pulse ends when its width is over. -/
def Obligations.LoopAndPulseOutputs : Prop :=
  (
  (∀ (p : HostPort) (k : Fin 16) (v : Word) (s : State), Takes s (0x380C + 0x40 * k.val) →
    Ends (exec (.loDemandWrite p k v) s) (fun u => Acks u p (0x380C + 0x40 * k.val) ∧ (u.node.loC k.val).demand = v.toInt
      ∧ (∀ j, j ≠ k.val → u.node.loC j = s.node.loC j)
      ∧ (recOn (s.node.recOf 5 k.val) = true → s.node.driving = true → loSrc (s.node.recOf 5 k.val) = 0 → loChar (s.node.recOf 5 k.val) = 0 →
          let r := s.node.recOf 5 k.val
          (u.node.loC k.val).cmd = max (if loMode r = 2 then 3600 else 0) (min 24000 (loILo r + divRound (v.toInt * (loIHi r - loILo r)) 1000000)))
      ∧ (s.node.driving = false → (u.node.loC k.val).cmd = (s.node.loC k.val).cmd))) ∧
  (∀ (k : Fin 16) (mean : Int) (comm : Bool) (t : Nat) (s : State), s.node.up = true → s.node.acq = true → s.node.isRun 5 = true →
    recOn (s.node.recOf 5 k.val) = true → t % 2500000 = 0 → loMode (s.node.recOf 5 k.val) ≠ 2 → s.node.miswired (64 + k.val) = false →
    Ends (exec (.loReadback k mean comm t) s) (fun u =>
      (∃ q, Delivers s u (92 + k.val) 0 t [⟨0x3800 + k.val * 0x40, (satE32 mean).1, q⟩])
      ∧ (u.node.loC k.val).acc = 0 ∧ (u.node.loC k.val).accAt = t
      ∧ (loMode (s.node.recOf 5 k.val) = 1 → (u.node.loC k.val).fieldOk = comm)
      ∧ (s.node.driving = true → (s.node.loC k.val).srcBad = false → loLaneOff s.node k.val = false →
          100 < |mean - divRound ((s.node.loC k.val).acc + (s.node.loC k.val).cmd * ((t : Int) - (s.node.loC k.val).accAt)) 2500000| →
          (s.node.loC k.val).headroom = false → (s.node.loC k.val).hrRun = 2 →
          (u.node.loC k.val).headroom = true ∧ (u.node.loC k.val).hrSeen = true ∧ u.node.evt.flag 56 = true))) ∧
  (∀ (k : Fin 16) (t : Nat) (s : State), s.node.up = true → recOn (s.node.recOf 5 k.val) = true → loMode (s.node.recOf 5 k.val) = 2 →
    s.node.carries = true → s.node.miswired (64 + k.val) = false →
    Ends (exec (.loFieldSupplyLoss k true t) s) (fun u => (u.node.loC k.val).fieldOk = false ∧ (u.node.loC k.val).opn = true
      ∧ ((s.node.loC k.val).opn = false → u.node.evt.flag 57 = true)) ∧
    Ends (exec (.loFieldSupplyLoss k false t) s) (fun u => (u.node.loC k.val).fieldOk = true ∧ (u.node.loC k.val).opn = false)) ∧
  (∀ (k : Fin 16) (mean : Int) (comm : Bool) (t : Nat) (s : State), s.node.up = true → s.node.acq = true → s.node.isRun 5 = true →
    recOn (s.node.recOf 5 k.val) = true → t % 2500000 = 0 → loMode (s.node.recOf 5 k.val) = 2 → s.node.carries = true →
    s.node.miswired (64 + k.val) = false → (s.node.loC k.val).fieldOk = false →
    Ends (exec (.loReadback k mean comm t) s) (fun u => Delivers s u (92 + k.val) 0 t [⟨0x3800 + k.val * 0x40, 0#32, 0x08#8⟩]
      ∧ (u.node.loC k.val).opn = true)) ∧
  (∀ (k : Fin 16) (mean : Int) (comm : Bool) (t : Nat) (s : State), s.node.up = true → s.node.acq = true → s.node.isRun 5 = true →
    recOn (s.node.recOf 5 k.val) = true → t % 2500000 = 0 → s.node.miswired (64 + k.val) = true → loMode (s.node.recOf 5 k.val) ≠ 2 →
    Ends (exec (.loReadback k mean comm t) s) (fun u => Delivers s u (92 + k.val) 0 t [⟨0x3800 + k.val * 0x40, (satE32 mean).1, 0x08#8⟩]
      ∧ loPin u.node k.val = none)) ∧
  (∀ (k : Fin 16) (mean : Int) (comm : Bool) (t : Nat) (s : State), s.node.up = true →
    (s.node.acq = false ∨ s.node.isRun 5 = false ∨ recOn (s.node.recOf 5 k.val) = false ∨ t % 2500000 ≠ 0) →
    Ends (exec (.loReadback k mean comm t) s) (fun u => u.node.lo = s.node.lo)) ∧
  (∀ (k : Fin 16) (lost : Bool) (t : Nat) (s : State), s.node.up = true → recOn (s.node.recOf 5 k.val) = true → loMode (s.node.recOf 5 k.val) = 2 →
    (s.node.carries = false ∨ s.node.miswired (64 + k.val) = true) →
    Ends (exec (.loFieldSupplyLoss k lost t) s) (fun u => u.node.loC k.val = { s.node.loC k.val with fieldOk := !lost }
      ∧ u.node.evt.flag 57 = s.node.evt.flag 57)) ∧
  (∀ (k : Fin 16) (lost : Bool) (t : Nat) (s : State), s.node.up = true →
    (recOn (s.node.recOf 5 k.val) = false ∨ loMode (s.node.recOf 5 k.val) ≠ 2) →
    Ends (exec (.loFieldSupplyLoss k lost t) s) (fun u => u.node.lo = s.node.lo))) ∧
  (
  (∀ (k : Fin 8) (t : Nat) (s : State), s.node.up = true → recOn (s.node.recOf 0x0F k.val) = true → s.node.driving = true →
    poMode (s.node.recOf 0x0F k.val) = 1 → poSrc (s.node.recOf 0x0F k.val) = 0 →
    Ends (exec (.poPeriodBoundary k t) s) (fun u => (u.node.poC k.val).out = max 0 (min 1000000 (s.node.poC k.val).set)
      ∧ (u.node.poC k.val).driven = some (poWave (s.node.recOf 0x0F k.val) (max 0 (min 1000000 (s.node.poC k.val).set)))
      ∧ ((s.node.poC k.val).clamp = false → (s.node.poC k.val).set < 0 ∨ 1000000 < (s.node.poC k.val).set → u.node.evt.flag 61 = true)
      ∧ ∀ j, j ≠ k.val → u.node.poC j = s.node.poC j)) ∧
  (∀ (k : Fin 8) (t : Nat) (s : State), s.node.up = true → (s.node.poC k.val).pulse = true →
    Ends (exec (.poPulseEnd k t) s) (fun u => (u.node.poC k.val).pulse = decide (t < (s.node.poC k.val).pulseEnd))) ∧
  (∀ (k : Fin 8) (t : Nat) (s : State), s.node.up = true → recOn (s.node.recOf 0x0F k.val) = true → s.node.driving = true →
    poMode (s.node.recOf 0x0F k.val) = 2 → poSrc (s.node.recOf 0x0F k.val) = 0 → 100 ≤ (s.node.poC k.val).out →
    Ends (exec (.poPeriodBoundary k t) s) (fun u => (u.node.poC k.val).out
        = divRound (max 0 (min 1000000 (s.node.poC k.val).set) * (poFmax (s.node.recOf 0x0F k.val) : Nat)) 1000000)) ∧
  (∀ (k : Fin 8) (t : Nat) (s : State), s.node.up = true →
    (recOn (s.node.recOf 0x0F k.val) = false ∨ s.node.driving = false ∨ poMode (s.node.recOf 0x0F k.val) = 3
      ∨ (poMode (s.node.recOf 0x0F k.val) = 2 ∧ (s.node.poC k.val).out < 100)) →
    Ends (exec (.poPeriodBoundary k t) s) (fun u => u.node.po = s.node.po)) ∧
  (∀ (k : Fin 8) (t : Nat) (s : State), s.node.up = true → recOn (s.node.recOf 0x0F k.val) = true → s.node.driving = true →
    poMode (s.node.recOf 0x0F k.val) = 1 → poSrc (s.node.recOf 0x0F k.val) = 2 →
    qHas (resQ (s.node.res (poSrcAddr (s.node.recOf 0x0F k.val)))) qVALID = false →
    Ends (exec (.poPeriodBoundary k t) s) (fun u => u.node.poC k.val = { s.node.poC k.val with srcBad := true }
      ∧ (s.node.dup.latched = false → (poSafe (s.node.recOf 0x0F k.val) = 0 → poPin u.node k.val = .low)
        ∧ (poSafe (s.node.recOf 0x0F k.val) = 1 → poPin u.node k.val = .high)))) ∧
  (∀ (k : Fin 8) (t : Nat) (s : State), s.node.up = true → (s.node.poC k.val).pulse = false →
    Ends (exec (.poPulseEnd k t) s) (fun u => u.node.po = s.node.po)))

/-- Miswiring (R255 to R257, R269): a channel found miswired is marked active and latched, event 40; a UI channel stops
converting, a loop output is high impedance, a charge input opens, a supply is off; on reconnection the active bit clears, the latched one stays, and a UI channel starts again. What is so already, and a number
that names no channel, changes nothing. -/
def Obligations.Miswiring : Prop :=
  (∀ (ch : Fin 128) (t : Nat) (s : State), s.node.up = true → ch.val < 120 → s.node.miswired ch.val = false →
    Ends (exec (.miswireDetect ch t) s) (fun u => u.node.miswired ch.val = true ∧ u.node.mw.flg.getLsbD ch.val = true
      ∧ u.node.evt.flag 40 = true ∧ (ch.val < 64 → (u.node.uiC ch.val).conv = false)
      ∧ (64 ≤ ch.val → ch.val < 80 → loPin u.node (ch.val - 64) = none)
      ∧ (80 ≤ ch.val → ch.val < 96 → (u.node.caC (ch.val - 80)).connected = false ∧ (u.node.caC (ch.val - 80)).cur = none)
      ∧ (96 ≤ ch.val → ch.val < 112 → (u.node.exC (ch.val - 96)).aOn = false)
      ∧ ∀ c < 120, c ≠ ch.val → u.node.miswired c = s.node.miswired c)) ∧
  (∀ (ch : Fin 128) (t : Nat) (s : State), s.node.up = true → ch.val < 120 → s.node.miswired ch.val = true →
    Ends (exec (.miswireReconnect ch t) s) (fun u => u.node.miswired ch.val = false ∧ u.node.mw.flg = s.node.mw.flg
      ∧ (s.node.acq = true → s.node.chOn 1 ch.val = true → (s.node.uiC ch.val).failed = false → ch.val < 64 →
          (u.node.uiC ch.val).conv = true ∧ (u.node.uiC ch.val).settle = t + uiSettle (s.node.uiC ch.val).rate (s.node.uiC ch.val).line))) ∧
  (∀ (ch : Fin 128) (t : Nat) (s : State), s.node.up = true → (120 ≤ ch.val ∨ s.node.miswired ch.val = true) →
    Ends (exec (.miswireDetect ch t) s) (fun u => u.node.mw = s.node.mw ∧ u.node.ui = s.node.ui ∧ u.node.lo = s.node.lo)) ∧
  (∀ (ch : Fin 128) (t : Nat) (s : State), s.node.up = true → (120 ≤ ch.val ∨ s.node.miswired ch.val = false) →
    Ends (exec (.miswireReconnect ch t) s) (fun u => u.node.mw = s.node.mw ∧ u.node.ui = s.node.ui ∧ u.node.lo = s.node.lo))

/-- HART masters (R258 to R264): a due variable starts a transaction of an idle master and waits for a busy one; a device not
yet identified is asked by command 0 first, and the transaction follows; a good response
publishes the value over its scale and counts the device alive; a device that does not answer, or answers an error, counts, with ERR
and event 59; a pass-through request of a bound sender runs on an idle master and ends with event 58, or is acknowledged with the
code of R264 that turns it away. Without a transaction, with the master off, or of another kind, nothing changes. -/
def Obligations.HartMasters : Prop :=
  (∀ (v : Fin 128) (t : Nat) (s : State), s.node.up = true → recOn (s.node.recOf 7 v.val) = true →
    s.node.hartOn (hvMaster (s.node.recOf 7 v.val)) = true →
    let m := hvMaster (s.node.recOf 7 v.val)
    ((s.node.hmC m).run = .idle → (s.node.hmC m).pend = none → (s.node.hmC m).due = [] →
      (s.node.hmC m).ident.contains (hvAddr (s.node.recOf 7 v.val)) = true →
      Ends (exec (.hartVariableDue v t) s) (fun u => (u.node.hmC m).run = .vars (hvAddr (s.node.recOf 7 v.val)) [v.val] ∧ (u.node.hmC m).due = [])) ∧
    ((s.node.hmC m).run = .pass → (s.node.hmC m).due.contains v.val = false →
      Ends (exec (.hartVariableDue v t) s) (fun u => (u.node.hmC m).run = .pass ∧ (u.node.hmC m).due = (s.node.hmC m).due ++ [v.val])) ∧
    ((s.node.hmC m).run = .idle → (s.node.hmC m).pend = none → (s.node.hmC m).due = [] →
      (s.node.hmC m).ident.contains (hvAddr (s.node.recOf 7 v.val)) = false →
      Ends (exec (.hartVariableDue v t) s) (fun u => (u.node.hmC m).run = .ident (hvAddr (s.node.recOf 7 v.val))
        ∧ (u.node.hmC m).due = [v.val]))) ∧
  (∀ (m : Fin 32) (a v : Nat) (w : Word) (x : HartResp) (num : Int) (den t : Nat) (s : State), s.node.up = true → s.node.hartOn m.val = true →
    (s.node.hmC m.val).run = .vars a [v] → x.isErr = false → x.vals = [(v, w, none)] →
    floatOver w (recScale (s.node.recOf 7 v)) = some (num, den) → x.devStat.getLsbD 7 = false →
    Ends (exec (.hartTransactionComplete m x t) s) (fun u =>
      Delivers s u (174 + m.val) v t [mkEntry (0x3C00 + v * 8) (divRound num den) true false false false false]
      ∧ (u.node.hmC m.val).live.contains a = true ∧ (u.node.hmC m.val).lastRc = x.rc.toNat)) ∧
  (∀ (m : Fin 32) (a : Nat) (l : List Nat) (t : Nat) (s : State), s.node.up = true → (s.node.hmC m.val).run = .vars a l →
    (s.node.hmC m.val).noResp < 65535 →
    Ends (exec (.noResponseAfterRetries m t) s) (fun u => (u.node.hmC m.val).noResp = (s.node.hmC m.val).noResp + 1
      ∧ (u.node.hmC m.val).err = true ∧ u.node.evt.flag 59 = true)) ∧
  (∀ (ch : Fin 32) (snd : Nat) (t : Nat) (s : State), s.node.up = true → netId s.node ≠ 0 → mbBinding s.node ch.val = (snd, netId s.node, true) →
    (s.node.mbChan ch.val).st = .posted → fld ((s.node.mbChan ch.val).msg.getD 0 0#32) 31 24 = 0x48 →
    (let pay := msgPayload (s.node.mbChan ch.val).msg
     u8 pay 0 ≤ 31 → u8 pay 1 ≤ 63 → u8 pay 4 ≤ 48 → u8 pay 5 ≤ 31 → s.node.hartOn (u8 pay 0) = true →
     (s.node.hmC (u8 pay 0)).pend = none → (s.node.hmC (u8 pay 0)).run = .idle → mbBinding s.node (u8 pay 5) = (netId s.node, snd, true) →
     (s.node.hmC (u8 pay 0)).ident.contains (u8 pay 1) = true →
     Ends (exec (.hartPassThrough ch t) s) (fun u => (u.node.hmC (u8 pay 0)).run = .pass
       ∧ ∃ p, (u.node.hmC (u8 pay 0)).pend = some p ∧ p.ch = ch.val ∧ p.sender = snd ∧ p.addr = u8 pay 1 ∧ p.cmd = u16 pay 2))) ∧
  (∀ (v : Fin 128) (t : Nat) (s : State), s.node.up = true →
    (recOn (s.node.recOf 7 v.val) = false ∨ s.node.hartOn (hvMaster (s.node.recOf 7 v.val)) = false) →
    Ends (exec (.hartVariableDue v t) s) (fun u => u.node.hart = s.node.hart)) ∧
  (∀ (m : Fin 32) (a v : Nat) (x : HartResp) (t : Nat) (s : State), s.node.up = true → s.node.hartOn m.val = true →
    (s.node.hmC m.val).run = .ident a → (s.node.hmC m.val).pend = none → (s.node.hmC m.val).due = [v] → hvAddr (s.node.recOf 7 v) = a →
    x.isErr = false →
    Ends (exec (.hartTransactionComplete m x t) s) (fun u => (u.node.hmC m.val).ident.contains a = true
      ∧ (u.node.hmC m.val).live.contains a = true ∧ (u.node.hmC m.val).run = .vars a [v])) ∧
  (∀ (m : Fin 32) (p : HartPass) (x : HartResp) (t : Nat) (s : State), s.node.up = true → s.node.hartOn m.val = true →
    (s.node.hmC m.val).run = .pass → (s.node.hmC m.val).pend = some p → x.isErr = false →
    Ends (exec (.hartTransactionComplete m x t) s) (fun u => (u.node.hmC m.val).pend = none ∧ (u.node.hmC m.val).run ≠ .pass
      ∧ u.node.evt.flag 58 = true ∧ (u.node.hmC m.val).lastRc = x.rc.toNat)) ∧
  (∀ (m : Fin 32) (a : Nat) (l : List Nat) (x : HartResp) (t : Nat) (s : State), s.node.up = true → s.node.hartOn m.val = true →
    (s.node.hmC m.val).run = .vars a l → x.isErr = true → (s.node.hmC m.val).commErr < 65535 →
    Ends (exec (.hartTransactionComplete m x t) s) (fun u => (u.node.hmC m.val).commErr = (s.node.hmC m.val).commErr + 1
      ∧ (u.node.hmC m.val).err = true ∧ u.node.evt.flag 59 = true ∧ u.node.jn.store = s.node.jn.store)) ∧
  (∀ (m : Fin 32) (x : HartResp) (t : Nat) (s : State), s.node.up = true → ((s.node.hmC m.val).run = .idle ∨ s.node.hartOn m.val = false) →
    Ends (exec (.hartTransactionComplete m x t) s) (fun u => u.node.hart = s.node.hart)) ∧
  (∀ (m : Fin 32) (p : HartPass) (t : Nat) (s : State), s.node.up = true → (s.node.hmC m.val).run = .pass → (s.node.hmC m.val).pend = some p →
    Ends (exec (.noResponseAfterRetries m t) s) (fun u => (u.node.hmC m.val).pend = none ∧ (u.node.hmC m.val).err = true
      ∧ u.node.evt.flag 58 = true ∧ u.node.evt.flag 59 = true)) ∧
  (∀ (m : Fin 32) (t : Nat) (s : State), s.node.up = true → (s.node.hmC m.val).run = .idle →
    Ends (exec (.noResponseAfterRetries m t) s) (fun u => u.node.hart = s.node.hart)) ∧
  (∀ (ch : Fin 32) (snd code : Nat) (t : Nat) (s : State), s.node.up = true → netId s.node ≠ 0 →
    mbBinding s.node ch.val = (snd, netId s.node, true) → (s.node.mbChan ch.val).st = .posted →
    fld ((s.node.mbChan ch.val).msg.getD 0 0#32) 31 24 = 0x48 →
    (let pay := msgPayload (s.node.mbChan ch.val).msg
     let bad := 31 < u8 pay 0 ∨ 63 < u8 pay 1 ∨ 48 < u8 pay 4 ∨ 31 < u8 pay 5
     (bad ∧ code = 0x02 ∨ ¬bad ∧ s.node.hartOn (u8 pay 0) = false ∧ code = 0x12
       ∨ ¬bad ∧ s.node.hartOn (u8 pay 0) = true ∧ (s.node.hmC (u8 pay 0)).pend ≠ none ∧ code = 0x13
       ∨ ¬bad ∧ s.node.hartOn (u8 pay 0) = true ∧ (s.node.hmC (u8 pay 0)).pend = none
         ∧ mbBinding s.node (u8 pay 5) ≠ (netId s.node, snd, true) ∧ code = 0x14) →
     Ends (exec (.hartPassThrough ch t) s) (fun u => (u.node.mbChan ch.val).st = .acked ∧ (u.node.mbChan ch.val).ack = true
       ∧ (u.node.mbChan ch.val).code = code ∧ u.node.hart = s.node.hart))) ∧
  (∀ (ch : Fin 32) (t : Nat) (s : State), s.node.up = true →
    (netId s.node = 0 ∨ (mbBinding s.node ch.val).2 ≠ (netId s.node, true) ∨ (s.node.mbChan ch.val).st ≠ .posted
      ∨ fld ((s.node.mbChan ch.val).msg.getD 0 0#32) 31 24 ≠ 0x48) →
    Ends (exec (.hartPassThrough ch t) s) (fun u => u.node.hart = s.node.hart ∧ u.node.mbx = s.node.mbx))

/-- Digital inputs and sensor supplies (R273, R274, R276, R279): a change of level at a sampling instant, after the samples of
its filter, is latched, counted and stamped, with event 64 where its record asks, and at no other time; an open wire reads open with event 65; a supply in overload switches off with event 66 and tries
again after a second.

Commands of digital outputs (R280, R281, R295, R296): a host's command is taken where SRC is 0 and refused elsewhere; a time
proportioning cycle is on for round(duty × cycle) counts where the on and off parts reach the minimum, otherwise for none or all
of it; pulses end in time; what is not due changes nothing of this. -/
def Obligations.DigitalInputsAndCommands : Prop :=
  (
  (∀ (k : Fin 48) (l : Bool) (t : Nat) (s : State), s.node.up = true → s.node.inForce = true → recOn (s.node.recOf 0x0E k.val) = true →
    diSampled (s.node.recOf 0x0E k.val) k.val t = true → diFiltered (s.node.recOf 0x0E k.val) (s.node.diC k.val) t = true →
    ((s.node.diC k.val).accepted = true → (s.node.diC k.val).level ≠ l →
      Ends (exec (.diChangeAccepted k l t) s) (fun u =>
        u.node.diC k.val = { s.node.diC k.val with level := l, chg := true, cnt := (s.node.diC k.val).cnt + 1#32, ts := wd t, since := t }
        ∧ (recBit (s.node.recOf 0x0E k.val) 12 1 = true → u.node.evt.flag 64 = true) ∧ ∀ j, j ≠ k.val → u.node.diC j = s.node.diC j)) ∧
    ((s.node.diC k.val).accepted = false →
      Ends (exec (.diChangeAccepted k l t) s) (fun u => u.node.diC k.val = { s.node.diC k.val with accepted := true, level := l, since := t }))) ∧
  (∀ (k : Fin 48) (t : Nat) (s : State), s.node.up = true → s.node.inForce = true → recOn (s.node.recOf 0x0E k.val) = true →
    recBit (s.node.recOf 0x0E k.val) 12 0 = true → s.node.carries = true →
    ((s.node.diC k.val).opn = false → Ends (exec (.diOpenWire k true t) s) (fun u =>
      u.node.diC k.val = { s.node.diC k.val with opn := true, owSeen := true } ∧ u.node.evt.flag 65 = true)) ∧
    Ends (exec (.diOpenWire k false t) s) (fun u => u.node.diC k.val = { s.node.diC k.val with opn := false })) ∧
  (∀ (g : Fin 6) (on : Bool) (t : Nat) (s : State), s.node.up = true →
    Ends (exec (.diGroupOt g on t) s) (fun u => bitOf u.node.dig.ot g.val = on
      ∧ ∀ j < 32, j ≠ g.val → bitOf u.node.dig.ot j = bitOf s.node.dig.ot j)) ∧
  (∀ (k : Fin 6) (t : Nat) (s : State), s.node.up = true → ssOut s.node k.val = true →
    Ends (exec (.ssOverload k t) s) (fun u => u.node.ssC k.val = { s.node.ssC k.val with overload := true, ovlSeen := true, retryAt := t }
      ∧ ssOut u.node k.val = false ∧ u.node.evt.flag 66 = true)) ∧
  (∀ (k : Fin 6) (ok : Bool) (t : Nat) (s : State), s.node.up = true → (s.node.ssC k.val).overload = true →
    Ends (exec (.ssRetry k ok t) s) (fun u =>
      u.node.ssC k.val = if (s.node.ssC k.val).retryAt + 250000000 ≤ t then { s.node.ssC k.val with overload := !ok, retryAt := t } else s.node.ssC k.val)) ∧
  (∀ (k : Fin 48) (l : Bool) (t : Nat) (s : State), s.node.up = true →
    (s.node.inForce = false ∨ recOn (s.node.recOf 0x0E k.val) = false ∨ diSampled (s.node.recOf 0x0E k.val) k.val t = false
      ∨ diFiltered (s.node.recOf 0x0E k.val) (s.node.diC k.val) t = false
      ∨ ((s.node.diC k.val).accepted = true ∧ (s.node.diC k.val).level = l)) →
    Ends (exec (.diChangeAccepted k l t) s) (fun u => u.node.dig.di = s.node.dig.di)) ∧
  (∀ (k : Fin 48) (o : Bool) (t : Nat) (s : State), s.node.up = true →
    (s.node.inForce = false ∨ recOn (s.node.recOf 0x0E k.val) = false ∨ recBit (s.node.recOf 0x0E k.val) 12 0 = false
      ∨ s.node.carries = false ∨ (s.node.diC k.val).opn = o) →
    Ends (exec (.diOpenWire k o t) s) (fun u => u.node.dig.di = s.node.dig.di ∧ u.node.evt.flag 65 = s.node.evt.flag 65)) ∧
  (∀ (k : Fin 6) (t : Nat) (s : State), s.node.up = true → ssOut s.node k.val = false →
    Ends (exec (.ssOverload k t) s) (fun u => u.node.dig.ss = s.node.dig.ss)) ∧
  (∀ (k : Fin 6) (ok : Bool) (t : Nat) (s : State), s.node.up = true → (s.node.ssC k.val).overload = false →
    Ends (exec (.ssRetry k ok t) s) (fun u => u.node.dig.ss = s.node.dig.ss))) ∧
  (
  (∀ (p : HostPort) (k : Fin 32) (v : Word) (t : Nat) (s : State), Takes s (0x4404 + 0x10 * k.val) →
    (doSrc (s.node.recOf 0x0A k.val) = 0 → Ends (exec (.doCmdWrite p k v t) s) (fun u => Acks u p (0x4404 + 0x10 * k.val)
      ∧ (u.node.doC k.val).cmd = bitOf v 0 ∧ (u.node.doC k.val).refused = (s.node.doC k.val).refused
      ∧ ∀ j, j ≠ k.val → (u.node.doC j).cmd = (s.node.doC j).cmd)) ∧
    (doSrc (s.node.recOf 0x0A k.val) ≠ 0 → Ends (exec (.doCmdWrite p k v t) s) (fun u => Acks u p (0x4404 + 0x10 * k.val)
      ∧ (u.node.doC k.val).cmd = (s.node.doC k.val).cmd ∧ (u.node.doC k.val).refused = true))) ∧
  (∀ (k : Fin 32) (t : Nat) (s : State), s.node.up = true → s.node.driving = true → recOn (s.node.recOf 0x0A k.val) = true →
    doSrc (s.node.recOf 0x0A k.val) = 1 → (s.node.doC k.val).tpNext ≤ t →
    (let cyc := doTpCyc (s.node.recOf 0x0A k.val) * 25000000
     let on := (divRound (max 0 (min 1000000 (s.node.doC k.val).laneD) * (cyc : Int)) 1000000).toNat
     let minp := doW (s.node.recOf 0x0A k.val) * 250000
     Ends (exec (.tpCycleStart k t) s) (fun u => (u.node.doC k.val).tpNext = t + cyc
      ∧ (minp ≤ on → minp ≤ cyc - on → 0 < on → on < cyc → (u.node.doC k.val).tpOn = true ∧ (u.node.doC k.val).tpOff = some (t + on))
      ∧ (on < minp → minp ≤ cyc - on → (u.node.doC k.val).tpOn = false ∧ (u.node.doC k.val).tpOff = none)
      ∧ (minp ≤ on → cyc - on < minp → (u.node.doC k.val).tpOn = true ∧ (u.node.doC k.val).tpOff = none)
      ∧ (on < minp → cyc - on < minp → (u.node.doC k.val).tpOn = decide (cyc - on < on) ∧ (u.node.doC k.val).tpOff = none)))) ∧
  (∀ (k : Fin 32) (e t : Nat) (s : State), s.node.up = true → (s.node.doC k.val).tpOff = some e → e ≤ t →
    Ends (exec (.tpOffEdge k t) s) (fun u => (u.node.doC k.val).tpOn = false ∧ (u.node.doC k.val).tpOff = none)) ∧
  (∀ (k : Fin 32) (t : Nat) (s : State), s.node.up = true → (s.node.doC k.val).pulse = true →
    Ends (exec (.doPulseEnd k t) s) (fun u => (u.node.doC k.val).pulse = decide (t < (s.node.doC k.val).pulseEnd))) ∧
  (∀ (k : Fin 32) (t : Nat) (s : State), s.node.up = true →
    (s.node.driving = false ∨ recOn (s.node.recOf 0x0A k.val) = false ∨ doSrc (s.node.recOf 0x0A k.val) ≠ 1 ∨ t < (s.node.doC k.val).tpNext) →
    Ends (exec (.tpCycleStart k t) s) (fun u => (u.node.doC k.val).tpNext = (s.node.doC k.val).tpNext
      ∧ (u.node.doC k.val).tpOn = (s.node.doC k.val).tpOn ∧ (u.node.doC k.val).tpOff = (s.node.doC k.val).tpOff)) ∧
  (∀ (k : Fin 32) (t : Nat) (s : State), s.node.up = true →
    ((s.node.doC k.val).tpOff = none ∨ ∃ e, (s.node.doC k.val).tpOff = some e ∧ t < e) →
    Ends (exec (.tpOffEdge k t) s) (fun u => (u.node.doC k.val).tpOn = (s.node.doC k.val).tpOn
      ∧ (u.node.doC k.val).tpOff = (s.node.doC k.val).tpOff)) ∧
  (∀ (k : Fin 32) (t : Nat) (s : State), s.node.up = true → (s.node.doC k.val).pulse = false →
    Ends (exec (.doPulseEnd k t) s) (fun u => (u.node.doC k.val).pulse = false)))

/-- Protection and checks of digital outputs (R283 to R287): overload and over-temperature open the pin with events 67 and 69
(an overload stays while anything commands or forces the output on, and where it arose while forced);
open wires are found with event 68; a dark test opens an on output for 200 µs and one that did not fall fails with event 71; without cause or off its time none of these acts.

IL_RESET (R290): a latched term that is not ACTIVE is released by its 1, unless its expression over inputs is true; every other
latch stands, and a 1 for an ACTIVE term is refused. -/
def Obligations.DigitalProtection : Prop :=
  (
  (∀ (k : Fin 32) (t : Nat) (s : State), s.node.up = true → (s.node.doC k.val).on = true → s.node.dup.latched = false →
    doSrc (s.node.recOf 0x0A k.val) = 0 → (s.node.doC k.val).cmd = true →
    Ends (exec (.doOverload k t) s) (fun u => (u.node.doC k.val).on = false ∧ (u.node.doC k.val).overload = true ∧ u.node.evt.flag 67 = true)) ∧
  (∀ (k : Fin 32) (t : Nat) (s : State), s.node.up = true → s.node.isRun 5 = true → (s.node.doC k.val).overtemp = false → s.node.dup.latched = false →
    Ends (exec (.doOvertemp k t) s) (fun u => (u.node.doC k.val).overtemp = true ∧ (u.node.doC k.val).otSeen = true
      ∧ (u.node.doC k.val).on = false ∧ u.node.evt.flag 69 = true)) ∧
  (∀ (k : Fin 32) (t : Nat) (s : State), s.node.up = true →
    Ends (exec (.doOvertempClear k t) s) (fun u => (u.node.doC k.val).overtemp = false ∧ (u.node.doC k.val).otSeen = (s.node.doC k.val).otSeen)) ∧
  (∀ (k : Fin 32) (which opn : Bool) (t : Nat) (s : State), s.node.up = true → recOn (s.node.recOf 0x0A k.val) = true →
    recBit (s.node.recOf 0x0A k.val) 10 (if which then 2 else 1) = true → (s.node.doC k.val).on = !which → doChecks s.node k.val t = true →
    Ends (exec (.doOpenWire k which opn t) s) (fun u => (if which then (u.node.doC k.val).openOff else (u.node.doC k.val).openOn) = opn
      ∧ (opn = true → (if which then (s.node.doC k.val).openOff else (s.node.doC k.val).openOn) = false → u.node.evt.flag 68 = true))) ∧
  (∀ (k : Fin 32) (t : Nat) (s : State), s.node.up = true → recOn (s.node.recOf 0x0A k.val) = true → recBit (s.node.recOf 0x0A k.val) 10 0 = true →
    s.node.inForce = true → (s.node.doC k.val).on = true → (s.node.doC k.val).pulse = false → (s.node.doC k.val).dark = false →
    (s.node.doC k.val).darkAt = none →
    Ends (exec (.darkTest k t) s) (fun u => (u.node.doC k.val).dark = true ∧ (u.node.doC k.val).darkEnd = t + 50000 ∧ (u.node.doC k.val).darkAt = some t)) ∧
  (∀ (k : Fin 32) (fell : Bool) (t : Nat) (s : State), s.node.up = true → (s.node.doC k.val).dark = true → (s.node.doC k.val).darkEnd ≤ t →
    Ends (exec (.darkTestEnd k fell t) s) (fun u => (u.node.doC k.val).dark = false
      ∧ (u.node.doC k.val).darkFail = ((s.node.doC k.val).darkFail || !fell) ∧ (fell = false → u.node.evt.flag 71 = true))) ∧
  (∀ (f : Fin 4) (mv t : Nat) (s : State), s.node.up = true →
    Ends (exec (.fpOkChange f mv t) s) (fun u => tget 0 u.node.dig.fpMv f.val = mv ∧ fpOk u.node f.val = decide (16000 < mv))) ∧
  (∀ (k : Fin 32) (t : Nat) (s : State), s.node.up = true → (s.node.doC k.val).on = true →
    Ends (exec (.doOverload k t) s) (fun u => u.node.evt.flag 67 = true ∧ (doCommanded u.node k.val = true → ilDo u.node k.val false = false →
      (u.node.doC k.val).overload = true ∧ (s.node.dup.latched = false → (u.node.doC k.val).on = false))
      ∧ (ilDo s.node k.val true = true → (u.node.doC k.val).overload = true))) ∧
  (∀ (k : Fin 32) (t : Nat) (s : State), s.node.up = true → (s.node.doC k.val).on = false →
    Ends (exec (.doOverload k t) s) (fun u => u.node.evt.flag 67 = s.node.evt.flag 67)) ∧
  (∀ (k : Fin 32) (t : Nat) (s : State), s.node.up = true → (s.node.isRun 5 = false ∨ (s.node.doC k.val).overtemp = true) →
    Ends (exec (.doOvertemp k t) s) (fun u => (u.node.doC k.val).overtemp = (s.node.doC k.val).overtemp ∧ u.node.evt.flag 69 = s.node.evt.flag 69)) ∧
  (∀ (k : Fin 32) (which opn : Bool) (t : Nat) (s : State), s.node.up = true →
    (recOn (s.node.recOf 0x0A k.val) = false ∨ recBit (s.node.recOf 0x0A k.val) 10 (if which then 2 else 1) = false
      ∨ (s.node.doC k.val).on = which ∨ doChecks s.node k.val t = false) →
    Ends (exec (.doOpenWire k which opn t) s) (fun u => (u.node.doC k.val).openOff = (s.node.doC k.val).openOff
      ∧ (u.node.doC k.val).openOn = (s.node.doC k.val).openOn ∧ u.node.evt.flag 68 = s.node.evt.flag 68)) ∧
  (∀ (k : Fin 32) (t : Nat) (s : State), s.node.up = true →
    (recOn (s.node.recOf 0x0A k.val) = false ∨ recBit (s.node.recOf 0x0A k.val) 10 0 = false ∨ s.node.inForce = false
      ∨ (s.node.doC k.val).on = false ∨ (s.node.doC k.val).pulse = true
      ∨ ∃ a, (s.node.doC k.val).darkAt = some a ∧ t < a + doDtPer (s.node.recOf 0x0A k.val) * 250000000) →
    Ends (exec (.darkTest k t) s) (fun u => (u.node.doC k.val).dark = (s.node.doC k.val).dark
      ∧ (u.node.doC k.val).darkAt = (s.node.doC k.val).darkAt)) ∧
  (∀ (k : Fin 32) (fell : Bool) (t : Nat) (s : State), s.node.up = true → ((s.node.doC k.val).dark = false ∨ t < (s.node.doC k.val).darkEnd) →
    Ends (exec (.darkTestEnd k fell t) s) (fun u => (u.node.doC k.val).dark = (s.node.doC k.val).dark
      ∧ (u.node.doC k.val).darkFail = (s.node.doC k.val).darkFail))) ∧
  (
  ∀ (p : HostPort) (v : Word) (t : Nat) (s : State), Takes s 0x4388 →
    Ends (exec (.ilResetWrite p v t) s) (fun u => Acks u p 0x4388 ∧ u.node.il.refused = s.node.il.refused ||| (v &&& s.node.il.active)
      ∧ (∀ j < 32, bitOf s.node.il.latched j = true → bitOf v j = false ∨ bitOf s.node.il.active j = true → bitOf u.node.il.latched j = true)
      ∧ (∀ j < 32, bitOf v j = true → bitOf s.node.il.active j = false →
          (∀ r ∈ s.node.terms, ilKey r = j → (∀ l ∈ ilLits r, l / 64 % 2 = 0) ∧ ilExpr s.node r = false) → bitOf u.node.il.latched j = false)))

/-- R284: above 150 °C in its switch an output switches off, OVERTEMP and OT_SEEN set, event 69; once the switch has cooled OVERTEMP
clears, and the output's pin follows R282 at once, in both. (A hold latch of R457 keeps the pin of a module that was reset: the
output's module holds none.) -/
def Obligations.SwitchOvertemperature : Prop :=
  (∀ (k : Fin 32) (t : Nat) (s : State), s.node.up = true → s.node.isRun 5 = true → s.node.dup.latched = false →
    (s.node.doC k.val).overtemp = false →
    Ends (exec (.doOvertemp k t) s) (fun u => (u.node.doC k.val).on = false ∧ (u.node.doC k.val).overtemp = true
      ∧ (u.node.doC k.val).otSeen = true ∧ u.node.evt.flag 69 = true)) ∧
  (∀ (k : Fin 32) (t : Nat) (s : State), s.node.up = true →
    Ends (exec (.doOvertempClear k t) s) (fun u => (u.node.doC k.val).overtemp = false
      ∧ (u.node.doC k.val).on = doWant u.node k.val))

/-- After every command of the digital block each output's pin stands as R282 decides it: the hold latch, role, protection, the
interlock terms that force it off or on, and only then its safe state or command. -/
def Obligations.PinsFollowTheirRule : Prop :=
  ∀ (i : Fin 48) (k : Fin 32) (g : Fin 6) (f : Fin 4) (b c : Bool) (mv t : Nat) (p : HostPort) (v : Word) (s : State), s.node.up = true →
    ∀ x ∈ [Instr.diChangeAccepted i b t, .diOpenWire i b t, .diGroupOt g b t, .ssOverload g t, .ssRetry g b t, .doCmdWrite p k v t,
      .tpCycleStart k t, .tpOffEdge k t, .doOverload k t, .doOvertemp k t, .doOvertempClear k t, .doOpenWire k b c t, .darkTest k t,
      .darkTestEnd k b t, .doPulseEnd k t, .ilResetWrite p v t, .fpOkChange f mv t],
    Ends (exec x s) (fun u => ∀ j < 32, (u.node.doC j).on = doWant u.node j)

/-- Firings (R310, R313, R314, R320): an idle channel without current starts its profile, in PEAK, with its command end counted from
the firing; one in PEAK or HOLD only extends its command end; one in DECAY is queued with event 76; a refused one changes
nothing but CMD_REFUSED; a queued one starts once the channel has ended and its current is below 50 mA; one of a profile without a
record is an illegal run (R309). Of firings in one I5 cycle the order of R312 decides (log 31).

Protection of shaped outputs (R300, R316, R317): a stagger that has expired proceeds limited, with STAGGER and event 74;
over-current of a channel or a bank aborts its runs and latches, events 72 and 73; a sense sample is the channel's current, moves a
ramp one step and switches the channel about its target, not within 1 µs of the last change; with the island down none acts. -/
def Obligations.FiringsAndProtection : Prop :=
  (
  (∀ (p : HostPort) (k : Fin 16) (v : Word) (t : Nat) (s : State), Takes s (0x4804 + 0x40 * k.val) → SvFree s k.val → bitOf v 8 = true →
    let u0 := s.node.svC k.val
    (svRefuses s.node k.val = false → u0.phase = 0 → u0.queue = none → u0.im < 50 → svHasProf s.node (k.val / 2) (fld v 3 0) = true →
      Ends (exec (.svFireWrite p k v t) s) (fun u => Acks u p (0x4804 + 0x40 * k.val) ∧ (u.node.svC k.val).running = true
        ∧ (u.node.svC k.val).phase = 1 ∧ (u.node.svC k.val).prof = fld v 3 0 ∧ (u.node.svC k.val).pc = 0
        ∧ (u.node.svC k.val).fireAt = timeAfter s t ∧ (u.node.svC k.val).endAt = timeAfter s t + u0.dur * 250
        ∧ (u.node.svC k.val).fireCnt = u0.fireCnt + 1#32)) ∧
    (svRefuses s.node k.val = false → u0.phase = 1 ∨ u0.phase = 2 → svOutranks u0 3 (timeAfter s t) = false →
      Ends (exec (.svFireWrite p k v t) s) (fun u => (u.node.svC k.val).endAt = max u0.endAt (timeAfter s t + u0.dur * 250)
        ∧ (u.node.svC k.val).extCnt = u0.extCnt + 1#32 ∧ (u.node.svC k.val).prof = u0.prof ∧ (u.node.svC k.val).pc = u0.pc)) ∧
    (svRefuses s.node k.val = false → u0.phase = 3 → u0.queue = none ∨ u0.queueBy ≤ 3 →
      Ends (exec (.svFireWrite p k v t) s) (fun u => (u.node.svC k.val).queue = some (fld v 3 0, u0.dur)
        ∧ (u.node.svC k.val).endAt = u0.endAt ∧ u.node.evt.flag 76 = true)) ∧
    (svRefuses s.node k.val = true →
      Ends (exec (.svFireWrite p k v t) s) (fun u => (u.node.svC k.val).refused = true ∧ (u.node.svC k.val).phase = u0.phase
        ∧ (u.node.svC k.val).queue = u0.queue ∧ (u.node.svC k.val).fireCnt = u0.fireCnt))) ∧
  (∀ (k : Fin 16) (prof dur t : Nat) (s : State), SvFree s k.val → (s.node.svC k.val).queue = some (prof, dur) → (s.node.svC k.val).running = false →
    (s.node.svC k.val).im < 50 → svRefuses s.node k.val = false → svHasProf s.node (k.val / 2) prof = true →
    Ends (exec (.queuedFiringStart k t) s) (fun u => (u.node.svC k.val).running = true ∧ (u.node.svC k.val).prof = prof
      ∧ (u.node.svC k.val).queue = none ∧ (u.node.svC k.val).fireAt = t ∧ (u.node.svC k.val).endAt = t + dur * 250)) ∧
  (∀ (k : Fin 16) (prof dur t : Nat) (s : State), SvFree s k.val →
    ((s.node.svC k.val).queue = none
      ∨ ((s.node.svC k.val).queue = some (prof, dur)
        ∧ ((s.node.svC k.val).running = true ∨ 50 ≤ (s.node.svC k.val).im ∨ svRefuses s.node k.val = true))) →
    Ends (exec (.queuedFiringStart k t) s) (fun u => u.node.svC k.val = s.node.svC k.val)) ∧
  (∀ (p : HostPort) (k : Fin 16) (v : Word) (t : Nat) (s : State), Takes s (0x4804 + 0x40 * k.val) → SvFree s k.val →
    (bitOf v 8 = false → Ends (exec (.svFireWrite p k v t) s) (fun u => Acks u p (0x4804 + 0x40 * k.val)
      ∧ u.node.svC k.val = s.node.svC k.val)) ∧
    (bitOf v 8 = true → svRefuses s.node k.val = false → (s.node.svC k.val).phase = 0 → (s.node.svC k.val).queue = none →
      (s.node.svC k.val).im < 50 → svHasProf s.node (k.val / 2) (fld v 3 0) = false →
      Ends (exec (.svFireWrite p k v t) s) (fun u => Acks u p (0x4804 + 0x40 * k.val) ∧ (u.node.svC k.val).running = false
        ∧ (u.node.svC k.val).illegal = true ∧ (u.node.svC k.val).sw = .off ∧ u.node.evt.flag 77 = true))) ∧
  (∀ (p : HostPort) (k : Fin 16) (v : Word) (t : Nat) (s : State), Takes s (0x4804 + 0x40 * k.val) → bitOf v 8 = true →
    s.node.carries = true → svRefuses s.node k.val = true →
    Ends (exec (.svFireWrite p k v t) s) (fun u => Acks u p (0x4804 + 0x40 * k.val) ∧ (u.node.svC k.val).refused = true
      ∧ (u.node.svC k.val).fireCnt = (s.node.svC k.val).fireCnt))) ∧
  (
  (∀ (k : Fin 16) (e t : Nat) (s : State), SvFree s k.val → (s.node.svC k.val).wait = .stall e → e ≤ t → opOf (svCur s.node k.val) = 1 →
    Ends (exec (.staggerExpiry k t) s) (fun u => (u.node.svC k.val).lim = some (svLimit s.node k.val (10 * fld (svCur s.node k.val) 9 0))
      ∧ (u.node.svC k.val).stagger = true ∧ (u.node.svC k.val).fLimited = true ∧ (u.node.svC k.val).pc = (s.node.svC k.val).pc + 1
      ∧ (u.node.hbC (k.val / 2)).expired = min 65535 ((s.node.hbC (k.val / 2)).expired + 1) ∧ u.node.evt.flag 74 = true)) ∧
  (∀ (k : Fin 16) (t : Nat) (s : State), s.node.up = true → s.node.isRun 5 = true →
    Ends (exec (.svOverCurrent k t) s) (fun u => (u.node.svC k.val).oc = true ∧ (u.node.svC k.val).running = false
      ∧ (u.node.svC k.val).queue = none ∧ u.node.evt.flag 72 = true)) ∧
  (∀ (b : Fin 8) (t : Nat) (s : State), s.node.up = true → s.node.isRun 5 = true →
    Ends (exec (.bankOverCurrent b t) s) (fun u => (u.node.hbC b.val).oc = true ∧ (u.node.svC (2 * b.val)).running = false
      ∧ (u.node.svC (2 * b.val + 1)).running = false ∧ u.node.evt.flag 73 = true)) ∧
  (∀ (k : Fin 16) (mA t : Nat) (s : State), SvFree s k.val → (s.node.svC k.val).running = true → (s.node.svC k.val).wait ≠ .ramp → (s.node.svC k.val).src1 = false →
    Ends (exec (.senseSample k mA t) s) (fun u => (u.node.svC k.val).im = mA ∧ (u.node.svC k.val).tgt20 = (s.node.svC k.val).tgt20
      ∧ (u.node.svC k.val).running = true)) ∧
  (∀ (k : Fin 16) (e t : Nat) (s : State), SvFree s k.val → (s.node.svC k.val).wait = .stall e → e ≤ t → opOf (svCur s.node k.val) = 2 →
    Ends (exec (.staggerExpiry k t) s) (fun u => (u.node.svC k.val).lim = some (svLimit s.node k.val (10 * fld (svCur s.node k.val) 9 0))
      ∧ (u.node.svC k.val).stagger = true ∧ (u.node.svC k.val).wait = .ramp ∧ (u.node.svC k.val).pc = (s.node.svC k.val).pc
      ∧ u.node.evt.flag 74 = true)) ∧
  (∀ (k : Fin 16) (mA t : Nat) (s : State), SvFree s k.val → (s.node.svC k.val).running = true → (s.node.svC k.val).wait = .ramp →
    (s.node.svC k.val).src1 = false →
    Ends (exec (.senseSample k mA t) s) (fun u => (u.node.svC k.val).im = mA
      ∧ ((s.node.svC k.val).tgt20 ≤ (s.node.svC k.val).goal20 →
          (u.node.svC k.val).tgt20 = min (s.node.svC k.val).goal20 ((s.node.svC k.val).tgt20 + (s.node.svC k.val).rate))
      ∧ ((s.node.svC k.val).goal20 < (s.node.svC k.val).tgt20 →
          (u.node.svC k.val).tgt20 = max (s.node.svC k.val).goal20 ((s.node.svC k.val).tgt20 - (s.node.svC k.val).rate)))) ∧
  (∀ (k : Fin 16) (mA t : Nat) (s : State), SvFree s k.val → (s.node.svC k.val).running = true → (s.node.svC k.val).wait ≠ .ramp →
    (s.node.svC k.val).src1 = false → (s.node.svC k.val).lim = none → (s.node.svC k.val).phase = 1 ∨ (s.node.svC k.val).phase = 2 →
    (s.node.svC k.val).swAt + 250 ≤ t →
    let b := 10 * svBand (s.node.recOf 0x0B k.val)
    Ends (exec (.senseSample k mA t) s) (fun u => (u.node.svC k.val).sw = (if 20 * mA + b < (s.node.svC k.val).tgt20 then .energise
      else if (s.node.svC k.val).tgt20 + b < 20 * mA then (s.node.svC k.val).dec else (s.node.svC k.val).sw))) ∧
  (∀ (k : Fin 16) (mA t : Nat) (s : State), SvFree s k.val → (s.node.svC k.val).running = true → (s.node.svC k.val).src1 = true →
    Ends (exec (.senseSample k mA t) s) (fun u => (u.node.svC k.val).im = mA ∧ (u.node.svC k.val).tgt20 = 20 * (s.node.svC k.val).htgt)) ∧
  (∀ (k : Fin 16) (mA t : Nat) (s : State), s.node.up = true → s.node.isRun 5 = false →
    (Ends (exec (.senseSample k mA t) s) (fun u => (u.node.svC k.val).im = (s.node.svC k.val).im))
    ∧ Ends (exec (.svOverCurrent k t) s) (fun u => (u.node.svC k.val).oc = (s.node.svC k.val).oc ∧ u.node.evt.flag 72 = s.node.evt.flag 72)) ∧
  (∀ (b : Fin 8) (t : Nat) (s : State), s.node.up = true → s.node.isRun 5 = false →
    Ends (exec (.bankOverCurrent b t) s) (fun u => (u.node.hbC b.val).oc = (s.node.hbC b.val).oc ∧ u.node.evt.flag 73 = s.node.evt.flag 73)))

/-- Targets (R303, R304, R315): SETI takes its target at once, RAMP moves toward it, PEAK, HOLD or DECAY by PK and I; a peak beside
the sibling's beyond BANK_LIM stalls and counts; HOLD holds for T or to the command end; FREEW and QUENCH go to 0. A context that does
not run or waits executes nothing.

Waits (R304, R307): WAITT, WAITI and WAITP wait for their time, current and position; each ends at the next instruction when it
comes, WAITI after TMO at TGT, WAITP early with PX where the position is not VALID, still or reversing; a HOLD ends at its time
and a RAMP at its target. A wait that is not there, or has not come, does not end.

The other instructions (R304 to R306, R309, R319): MARK stores the time since firing in 100 ns; JIF jumps as its flags say; a LOOP
with its counter free and N > 1 jumps and leaves N − 2, with N = 1 falls through; FLAG sets its bit with event 75; END switches off
and delivers what PUB selected; an illegal opcode, or a LOOP whose counter is bound elsewhere, aborts with ILLEGAL and event 77. -/
def Obligations.ShaperInstructions : Prop :=
  (
  ∀ (k : Fin 16) (t : Nat) (s : State),
    let w := svCur s.node k.val
    let u0 := s.node.svC k.val
    (SvRuns s k.val 1 → bitOf w 26 = false ∨ u0.wait = .freed ∨ svClash s.node k.val (fld w 9 0) = false →
      Ends (exec (.seti k t) s) (fun u => (u.node.svC k.val).tgt20 = 200 * fld w 9 0 ∧ (u.node.svC k.val).pc = u0.pc + 1
        ∧ (u.node.svC k.val).wait = .none ∧ (u.node.svC k.val).running = true
        ∧ (u.node.svC k.val).phase = (if bitOf w 26 then 1 else if 0 < fld w 9 0 then 2 else 3))) ∧
    (SvRuns s k.val 2 → bitOf w 26 = false ∨ u0.wait = .freed ∨ svClash s.node k.val (fld w 9 0) = false →
      Ends (exec (.ramp k t) s) (fun u => (u.node.svC k.val).goal20 = 200 * fld w 9 0 ∧ (u.node.svC k.val).rate = fld w 21 10
        ∧ (u.node.svC k.val).wait = .ramp ∧ (u.node.svC k.val).pc = u0.pc ∧ (u.node.svC k.val).tgt20 = u0.tgt20
        ∧ (u.node.svC k.val).phase = (if bitOf w 26 then 1 else if 0 < fld w 9 0 then 2 else 3))) ∧
    (SvRuns s k.val 1 → bitOf w 26 = true → u0.wait = .none → svClash s.node k.val (fld w 9 0) = true →
      0 < hbStagMax (s.node.recOf 0x0C (k.val / 2)) →
      Ends (exec (.seti k t) s) (fun u => (u.node.svC k.val).wait = .stall (t + hbStagMax (s.node.recOf 0x0C (k.val / 2)) * 250)
        ∧ (u.node.svC k.val).fWaited = true ∧ (u.node.svC k.val).pc = u0.pc ∧ (u.node.svC k.val).tgt20 = u0.tgt20
        ∧ (u.node.hbC (k.val / 2)).stalls = min 65535 ((s.node.hbC (k.val / 2)).stalls + 1))) ∧
    (SvRuns s k.val 6 → bitOf w 26 = false →
      Ends (exec (.holdIns k t) s) (fun u => (u.node.svC k.val).phase = 2 ∧ (u.node.svC k.val).wait = .hold (some (t + fld w 23 10 * 2500))
        ∧ (u.node.svC k.val).tgt20 = (if bitOf w 25 then 20 * u0.htgt else 200 * fld w 9 0) ∧ (u.node.svC k.val).dec = (if bitOf w 24 then .fast else .slow))) ∧
    (SvRuns s k.val 6 → bitOf w 26 = true →
      Ends (exec (.holdIns k t) s) (fun u => (u.node.svC k.val).phase = 2
        ∧ (if u0.endAt ≤ t then (u.node.svC k.val).wait = .none ∧ (u.node.svC k.val).pc = u0.pc + 1
           else (u.node.svC k.val).wait = .hold none ∧ (u.node.svC k.val).pc = u0.pc))) ∧
    (SvRuns s k.val 7 → Ends (exec (.freew k t) s) (fun u => (u.node.svC k.val).phase = 3 ∧ (u.node.svC k.val).tgt20 = 0
      ∧ (u.node.svC k.val).sw = (if bitOf w 26 then .fast else .slow) ∧ (u.node.svC k.val).pc = u0.pc + 1)) ∧
    (SvRuns s k.val 8 → Ends (exec (.quench k t) s) (fun u => (u.node.svC k.val).phase = 3 ∧ (u.node.svC k.val).tgt20 = 0
      ∧ (u.node.svC k.val).sw = .quench ∧ (u.node.svC k.val).pc = u0.pc + 1)) ∧
    (SvRuns s k.val 1 → bitOf w 26 = true → u0.wait = .none → svClash s.node k.val (fld w 9 0) = true →
      hbStagMax (s.node.recOf 0x0C (k.val / 2)) = 0 →
      Ends (exec (.seti k t) s) (fun u => (u.node.svC k.val).stagger = true ∧ (u.node.svC k.val).fLimited = true
        ∧ (u.node.svC k.val).lim = some (svLimit s.node k.val (10 * fld w 9 0)) ∧ (u.node.svC k.val).pc = u0.pc + 1
        ∧ u.node.evt.flag 74 = true)) ∧
    (SvRuns s k.val 2 → bitOf w 26 = true → u0.wait = .none → svClash s.node k.val (fld w 9 0) = true →
      0 < hbStagMax (s.node.recOf 0x0C (k.val / 2)) →
      Ends (exec (.ramp k t) s) (fun u => (u.node.svC k.val).wait = .stall (t + hbStagMax (s.node.recOf 0x0C (k.val / 2)) * 250)
        ∧ (u.node.svC k.val).fWaited = true ∧ (u.node.svC k.val).pc = u0.pc ∧ (u.node.svC k.val).tgt20 = u0.tgt20)) ∧
    (∀ i ∈ [Instr.seti k t, .ramp k t, .holdIns k t, .freew k t, .quench k t], SvFree s k.val → svReady s.node k.val = false →
      Ends (exec i s) (fun u => u.node.svC k.val = s.node.svC k.val))) ∧
  (
  ∀ (k : Fin 16) (t : Nat) (s : State),
    let w := svCur s.node k.val
    let u0 := s.node.svC k.val
    (SvRuns s k.val 3 → Ends (exec (.waitt k t) s) (fun u => (u.node.svC k.val).wait = .till (t + fld w 23 0 * 25) ∧ (u.node.svC k.val).pc = u0.pc)) ∧
    (SvRuns s k.val 4 → Ends (exec (.waiti k t) s) (fun u =>
      (u.node.svC k.val).wait = .current (bitOf w 26) (10 * fld w 9 0) (t + fld w 19 10 * 2500) (fld w 25 20))) ∧
    (SvRuns s k.val 5 → Ends (exec (.waitp k t) s) (fun u =>
      (u.node.svC k.val).wait = .position (fld w 26 24) (fld w 22 0) (s.node.pfC (fld w 26 24)).c)) ∧
    (∀ e, SvFree s k.val → u0.wait = .till e → e ≤ t →
      Ends (exec (.waittExpiry k t) s) (fun u => (u.node.svC k.val).wait = .none ∧ (u.node.svC k.val).pc = u0.pc + 1)) ∧
    (∀ d i e g, SvFree s k.val → u0.wait = .current d i e g → (if d then u0.im ≤ i else i ≤ u0.im) →
      Ends (exec (.waitiMet k t) s) (fun u => (u.node.svC k.val).wait = .none ∧ (u.node.svC k.val).pc = u0.pc + 1)) ∧
    (∀ d i e g, SvFree s k.val → u0.wait = .current d i e g → e ≤ t →
      Ends (exec (.waitiTimeout k t) s) (fun u => (u.node.svC k.val).wait = .none ∧ (u.node.svC k.val).pc = g)) ∧
    (∀ f c b, SvFree s k.val → u0.wait = .position f c b → c ≤ (((s.node.pfC f).c - b).toInt).natAbs →
      Ends (exec (.waitpReached k t) s) (fun u => (u.node.svC k.val).wait = .none ∧ (u.node.svC k.val).pc = u0.pc + 1)) ∧
    (∀ f c b, SvFree s k.val → u0.wait = .position f c b → pfValid s.node f = false ∨ (s.node.pfC f).still = true ∨ (s.node.pfC f).reversal = true →
      Ends (exec (.waitpEarlyEnd k t) s) (fun u => (u.node.svC k.val).wait = .none ∧ (u.node.svC k.val).pc = u0.pc + 1
        ∧ (u.node.svC k.val).px = true ∧ (u.node.svC k.val).fPx = true)) ∧
    (∀ o, SvFree s k.val → u0.wait = .hold o → (match o with | some e => e | none => u0.endAt) ≤ t →
      Ends (exec (.holdEnd k t) s) (fun u => (u.node.svC k.val).wait = .none ∧ (u.node.svC k.val).pc = u0.pc + 1)) ∧
    (SvFree s k.val → u0.wait = .ramp → u0.tgt20 = u0.goal20 →
      Ends (exec (.rampComplete k t) s) (fun u => (u.node.svC k.val).wait = .none ∧ (u.node.svC k.val).pc = u0.pc + 1)) ∧
    (∀ i ∈ [Instr.waitt k t, .waiti k t, .waitp k t], SvFree s k.val → svReady s.node k.val = false →
      Ends (exec i s) (fun u => u.node.svC k.val = s.node.svC k.val)) ∧
    (∀ i ∈ [Instr.waittExpiry k t, .waitiMet k t, .waitiTimeout k t, .waitpReached k t, .waitpEarlyEnd k t, .holdEnd k t, .rampComplete k t,
        .staggerExpiry k t], SvFree s k.val → u0.wait = .none ∨ u0.wait = .freed →
      Ends (exec i s) (fun u => u.node.svC k.val = s.node.svC k.val)) ∧
    (∀ i ∈ [Instr.waittExpiry k t, .waitiTimeout k t, .holdEnd k t, .staggerExpiry k t], ∀ e, SvFree s k.val → t < e →
      u0.wait = .till e ∨ u0.wait = .hold (some e) ∨ u0.wait = .stall e ∨ (u0.wait = .hold none ∧ u0.endAt = e) →
      Ends (exec i s) (fun u => u.node.svC k.val = s.node.svC k.val))) ∧
  (
  ∀ (k : Fin 16) (t : Nat) (s : State),
    let w := svCur s.node k.val
    let u0 := s.node.svC k.val
    (SvRuns s k.val 9 → Ends (exec (.markIns k t) s) (fun u => tget 0 (u.node.svC k.val).marks (fld w 1 0) = (t - u0.fireAt) / 25
      ∧ (u.node.svC k.val).pub = (if bitOf w 8 then some ((t - u0.fireAt) / 25) else u0.pub) ∧ (u.node.svC k.val).pc = u0.pc + 1)) ∧
    (SvRuns s k.val 10 → Ends (exec (.jif k t) s) (fun u => (u.node.svC k.val).pc =
      (if (Nat.land (svFlags s.node k.val) (fld w 25 18) ≠ 0 ∧ bitOf w 26 = false) ∨ (Nat.land (svFlags s.node k.val) (fld w 25 18) = 0 ∧ bitOf w 26 = true)
       then fld w 5 0 else u0.pc + 1))) ∧
    (SvRuns s k.val 11 → u0.loopAt = none → 1 < fld w 17 8 → Ends (exec (.loopIns k t) s) (fun u => (u.node.svC k.val).pc = fld w 5 0
      ∧ (u.node.svC k.val).loopAt = some u0.pc ∧ (u.node.svC k.val).loopN = fld w 17 8 - 2)) ∧
    (SvRuns s k.val 11 → (u0.loopAt = none ∧ fld w 17 8 = 1) ∨ (u0.loopAt = some u0.pc ∧ u0.loopN = 0) →
      Ends (exec (.loopIns k t) s) (fun u => (u.node.svC k.val).pc = u0.pc + 1 ∧ (u.node.svC k.val).loopAt = none)) ∧
    (SvRuns s k.val 11 → u0.loopAt = some u0.pc → 0 < u0.loopN →
      Ends (exec (.loopIns k t) s) (fun u => (u.node.svC k.val).pc = fld w 5 0 ∧ (u.node.svC k.val).loopN = u0.loopN - 1)) ∧
    (SvRuns s k.val 12 → Ends (exec (.flagIns k t) s) (fun u => bitOf (u.node.svC k.val).uflag (fld w 3 0) = true
      ∧ (u.node.svC k.val).bad = (u0.bad || bitOf w 8) ∧ (u.node.svC k.val).pc = u0.pc + 1 ∧ u.node.evt.flag 75 = true)) ∧
    (SvRuns s k.val 0 → Ends (exec (.endIns k t) s) (fun u => (u.node.svC k.val).running = false ∧ (u.node.svC k.val).phase = 0
      ∧ (u.node.svC k.val).sw = .off ∧ (∀ m, u0.pub = some m → (u.node.svC k.val).last = (satE32 (divRound (m : Int) 10)).1)
      ∧ (u0.pub = none → (u.node.svC k.val).last = u0.last)
      ∧ qHas (u.node.svC k.val).lastQ qVALID = (u0.pub.isSome && !u0.bad) ∧ (u.node.svC k.val).queue = u0.queue)) ∧
    (SvFree s k.val → svReady s.node k.val = true → 13 ≤ opOf w → Ends (exec (.illegalInstruction k t) s) (fun u =>
      (u.node.svC k.val).running = false ∧ (u.node.svC k.val).illegal = true ∧ (u.node.svC k.val).queue = none ∧ u.node.evt.flag 77 = true)) ∧
    (∀ a, SvRuns s k.val 11 → u0.loopAt = some a → a ≠ u0.pc → ∀ i ∈ [Instr.loopIns k t, .illegalInstruction k t],
      Ends (exec i s) (fun u => (u.node.svC k.val).running = false ∧ (u.node.svC k.val).illegal = true ∧ u.node.evt.flag 77 = true)) ∧
    (∀ i ∈ [Instr.markIns k t, .jif k t, .loopIns k t, .flagIns k t, .endIns k t, .illegalInstruction k t], SvFree s k.val →
      svReady s.node k.val = false → Ends (exec i s) (fun u => u.node.svC k.val = s.node.svC k.val)))

/-- Count steps of position interfaces (R324 to R332): lines that take new levels after the samples of their filter move a
quadrature or Hall interface by one count, found from the Gray sequence or the sectors; a sin/cos sample in its window moves it by the
phase passed; the direction is the record's; a counter that passes its end adds to WRAP_CNT with event 85; an index event makes the
counter its reference; a sensor back in sector 0 after 20 ms without an error is trusted again. A first sample or sector only
becomes the reference, and levels too short for the filter are not taken.

SSI interfaces (R328, R329): the first good frame after the image loads the counter; a later one moves it by the shortest way from
the last; an error frame, whose parity or line levels are wrong, counts nothing and raises event 87; a module that carries the plant
takes the frame it has clocked once that has ended, a STANDBY the partner's; a miswired interface counts nothing. -/
def Obligations.PositionSteps : Prop :=
  (
  (∀ (f : Fin 8) (a b z : Bool) (t : Nat) (s : State), s.node.up = true → s.node.pfOn f.val = true → pfType (s.node.recOf 0x0D f.val) = 1 →
    pfAccepts (s.node.recOf 0x0D f.val) (s.node.pfC f.val) a b z t = true → quadStep (s.node.pfC f.val) a b = 1 ∨ quadStep (s.node.pfC f.val) a b = -1 →
    Ends (exec (.pfEdge f (.lines a b z) t) s) (fun u =>
      let p := s.node.pfC f.val
      let r := s.node.recOf 0x0D f.val
      let up := decide (quadStep p a b = 1) != pfInv r
      (u.node.pfC f.val).c = (if up then p.c + 1#32 else p.c - 1#32)
      ∧ (u.node.pfC f.val).a = a ∧ (u.node.pfC f.val).b = b ∧ (u.node.pfC f.val).zl = z ∧ (u.node.pfC f.val).edgeAt = t
      ∧ (up = true → p.c = 0xFFFFFFFF#32 → (u.node.pfC f.val).wrapCnt = p.wrapCnt + 1#32 ∧ (u.node.pfC f.val).wrap = true
          ∧ u.node.evt.flag 85 = true)
      ∧ (up = false → p.c = 0#32 → (u.node.pfC f.val).wrapCnt = p.wrapCnt - 1#32 ∧ (u.node.pfC f.val).wrap = true
          ∧ u.node.evt.flag 85 = true)
      ∧ (p.c ≠ 0#32 → p.c ≠ 0xFFFFFFFF#32 → (u.node.pfC f.val).wrapCnt = p.wrapCnt)
      ∧ (pfIdx r = true → z = true → p.zArmed = true ∨ p.zl = false → (u.node.pfC f.val).z = (u.node.pfC f.val).c
          ∧ (u.node.pfC f.val).noref = false ∧ (u.node.pfC f.val).idxCnt = p.idxCnt + 1#32)
      ∧ (pfIdx r = false ∨ z = false ∨ (p.zArmed = false ∧ p.zl = true) →
          (u.node.pfC f.val).z = p.z ∧ (u.node.pfC f.val).noref = p.noref ∧ (u.node.pfC f.val).idxCnt = p.idxCnt)
      ∧ ∀ j, j ≠ f.val → (u.node.pfC j).c = (s.node.pfC j).c)) ∧
  (∀ (f : Fin 8) (a b z : Bool) (sec o : Nat) (d : Int) (t : Nat) (s : State), s.node.up = true → s.node.pfOn f.val = true →
    pfType (s.node.recOf 0x0D f.val) = 2 → pfAccepts (s.node.recOf 0x0D f.val) (s.node.pfC f.val) a b z t = true →
    hallSector a b z = some sec → (s.node.pfC f.val).sector = some o → hallStep o sec = some d →
    Ends (exec (.pfEdge f (.lines a b z) t) s) (fun u =>
      let p := s.node.pfC f.val
      (u.node.pfC f.val).c = p.c + wi (if pfInv (s.node.recOf 0x0D f.val) then -d else d) ∧ (u.node.pfC f.val).sector = some sec
      ∧ (d ≠ 0 → sec = 0 → pfClean p t = true → (u.node.pfC f.val).lost = false ∧ (u.node.pfC f.val).suspect = false))) ∧
  (∀ (f : Fin 8) (sn cs : Int) (q : Nat) (z : Bool) (t : Nat) (s : State), s.node.up = true → s.node.pfOn f.val = true →
    pfType (s.node.recOf 0x0D f.val) = 3 → pfAmplOk (s.node.recOf 0x0D f.val) (pfSq sn cs) = true →
    pfAccepts (s.node.recOf 0x0D f.val) (s.node.pfC f.val) (s.node.pfC f.val).a (s.node.pfC f.val).b z t = true →
    (s.node.pfC f.val).phase = some q → (symMod ((pfPhase sn cs : Int) - q) 1024).natAbs ≤ 256 →
    Ends (exec (.pfEdge f (.sincos sn cs z) t) s) (fun u =>
      let d := symMod ((pfPhase sn cs : Int) - q) 1024
      (u.node.pfC f.val).c = (s.node.pfC f.val).c + wi (if pfInv (s.node.recOf 0x0D f.val) then -d else d)
      ∧ (u.node.pfC f.val).phase = some (pfPhase sn cs) ∧ (u.node.pfC f.val).ampl = pfAmpl (pfSq sn cs) ∧ (u.node.pfC f.val).amplErr = false)) ∧
  (∀ (f : Fin 8) (sn cs : Int) (z : Bool) (t : Nat) (s : State), s.node.up = true → s.node.pfOn f.val = true →
    pfType (s.node.recOf 0x0D f.val) = 3 → pfAmplOk (s.node.recOf 0x0D f.val) (pfSq sn cs) = true →
    pfAccepts (s.node.recOf 0x0D f.val) (s.node.pfC f.val) (s.node.pfC f.val).a (s.node.pfC f.val).b z t = true →
    (s.node.pfC f.val).phase = none →
    Ends (exec (.pfEdge f (.sincos sn cs z) t) s) (fun u => (u.node.pfC f.val).c = (s.node.pfC f.val).c
      ∧ (u.node.pfC f.val).phase = some (pfPhase sn cs) ∧ (u.node.pfC f.val).ampl = pfAmpl (pfSq sn cs))) ∧
  (∀ (f : Fin 8) (a b z : Bool) (sec : Nat) (t : Nat) (s : State), s.node.up = true → pfType (s.node.recOf 0x0D f.val) = 2 →
    pfAccepts (s.node.recOf 0x0D f.val) (s.node.pfC f.val) a b z t = true → hallSector a b z = some sec → (s.node.pfC f.val).sector = none →
    Ends (exec (.pfEdge f (.lines a b z) t) s) (fun u => (u.node.pfC f.val).c = (s.node.pfC f.val).c ∧ (u.node.pfC f.val).sector = some sec)) ∧
  (∀ (f : Fin 8) (a b z : Bool) (t : Nat) (s : State), s.node.up = true →
    pfAccepts (s.node.recOf 0x0D f.val) (s.node.pfC f.val) a b z t = false →
    Ends (exec (.pfEdge f (.lines a b z) t) s) (fun u => u.node.pf = s.node.pf ∧ u.node.cmp = s.node.cmp)) ∧
  (∀ (f : Fin 8) (a b z : Bool) (t : Nat) (s : State), s.node.up = true → (s.node.pfOn f.val = false ∨ 3 ≤ pfType (s.node.recOf 0x0D f.val)) →
    pfAccepts (s.node.recOf 0x0D f.val) (s.node.pfC f.val) a b z t = true →
    Ends (exec (.pfEdge f (.lines a b z) t) s) (fun u => (u.node.pfC f.val).c = (s.node.pfC f.val).c ∧ (u.node.pfC f.val).a = a
      ∧ (u.node.pfC f.val).b = b ∧ (u.node.pfC f.val).zl = z ∧ u.node.cmp = s.node.cmp)) ∧
  (∀ (f : Fin 8) (sn cs : Int) (z : Bool) (t : Nat) (s : State), s.node.up = true →
    (s.node.pfOn f.val = false ∨ pfType (s.node.recOf 0x0D f.val) ≠ 3 ∨ pfAmplOk (s.node.recOf 0x0D f.val) (pfSq sn cs) = false) →
    Ends (exec (.pfEdge f (.sincos sn cs z) t) s) (fun u => u.node.pf = s.node.pf ∧ u.node.cmp = s.node.cmp))) ∧
  (
  ∀ (f : Fin 8) (x : SsiFrame) (e t : Nat) (s : State), s.node.up = true → s.node.pfRuns f.val = true → pfType (s.node.recOf 0x0D f.val) = 4 →
    (let r := s.node.recOf 0x0D f.val
     (∀ b, ssiEnd s.node f.val t = some e → s.node.miswired (112 + f.val) = false → ssiBits r x = some b →
       let v := if pfGray r then grayDecode (pfBits r) b else b
       ((s.node.pfC f.val).ssi = none → Ends (exec (.ssiFrameEnd f x t) s) (fun u =>
          (u.node.pfC f.val).c = wd v ∧ (u.node.pfC f.val).ssi = some v ∧ (u.node.pfC f.val).noref = false ∧ (u.node.pfC f.val).ssiAt = none)) ∧
       (∀ o, (s.node.pfC f.val).ssi = some o → Ends (exec (.ssiFrameEnd f x t) s) (fun u =>
          (u.node.pfC f.val).c = (s.node.pfC f.val).c
              + wi (if pfInv r then -(symMod ((v : Int) - o) (2 ^ pfBits r)) else symMod ((v : Int) - o) (2 ^ pfBits r))
            ∧ (u.node.pfC f.val).ssi = some v ∧ (u.node.pfC f.val).ssiAt = none))) ∧
     (ssiEnd s.node f.val t = some e → s.node.miswired (112 + f.val) = false → ssiBits r x = none →
       Ends (exec (.ssiFrameEnd f x t) s) (fun u => (u.node.pfC f.val).ssiErr = true ∧ (u.node.pfC f.val).c = (s.node.pfC f.val).c
          ∧ (u.node.pfC f.val).ssi = (s.node.pfC f.val).ssi ∧ (u.node.pfC f.val).suspect = true ∧ u.node.evt.flag 87 = true)) ∧
     (ssiEnd s.node f.val t = some e → s.node.miswired (112 + f.val) = true →
       Ends (exec (.ssiFrameEnd f x t) s) (fun u => (u.node.pfC f.val).c = (s.node.pfC f.val).c
          ∧ (u.node.pfC f.val).ssi = (s.node.pfC f.val).ssi ∧ (u.node.pfC f.val).ssiAt = none)) ∧
     (ssiEnd s.node f.val t = none → Ends (exec (.ssiFrameEnd f x t) s) (fun u => u.node.pf = s.node.pf ∧ u.node.cmp = s.node.cmp))))

/-- Errors and trust (R325 to R327, R334, R335, R337): a quadrature, Hall or amplitude error leaves the counter, sets its flag and its
event (81, 82, 83) and is counted; LOST follows more than QERR_MAX errors in their window, or the fourth sample outside; CLR
trusts an interface without index; an interface whose edges have stopped is STILL with event 86. Levels and samples that are no
error change nothing here. -/
def Obligations.PositionErrors : Prop :=
  (∀ (f : Fin 8) (a b z : Bool) (t : Nat) (s : State), s.node.up = true → s.node.pfOn f.val = true → pfType (s.node.recOf 0x0D f.val) = 1 →
    pfAccepts (s.node.recOf 0x0D f.val) (s.node.pfC f.val) a b z t = true → quadStep (s.node.pfC f.val) a b = 2 →
    Ends (exec (.quadratureError f (.lines a b z) t) s) (fun u =>
      let p := s.node.pfC f.val
      let r := s.node.recOf 0x0D f.val
      (u.node.pfC f.val).qerr = true ∧ (u.node.pfC f.val).c = p.c ∧ (u.node.pfC f.val).suspect = true
      ∧ (u.node.pfC f.val).a = a ∧ (u.node.pfC f.val).b = b
      ∧ (u.node.pfC f.val).lastErr = some t ∧ (p.qerrCnt < 0xFFFFFFFF → (u.node.pfC f.val).qerrCnt = p.qerrCnt + 1)
      ∧ (u.node.pfC f.val).lost = (p.lost || decide (pfQmax r < 1 + (p.errs.filter (fun x => decide (t ≤ x + pfQwin r * 2500000))).length))
      ∧ u.node.evt.flag 81 = true)) ∧
  (∀ (f : Fin 8) (a b z : Bool) (t : Nat) (s : State), s.node.up = true → s.node.pfOn f.val = true → pfType (s.node.recOf 0x0D f.val) = 2 →
    pfAccepts (s.node.recOf 0x0D f.val) (s.node.pfC f.val) a b z t = true →
    (hallSector a b z = none → Ends (exec (.hallError f ⟨a, b, z⟩ t) s) (fun u => (u.node.pfC f.val).hallInv = true
      ∧ (u.node.pfC f.val).sector = (s.node.pfC f.val).sector
      ∧ (u.node.pfC f.val).c = (s.node.pfC f.val).c ∧ (u.node.pfC f.val).suspect = true ∧ u.node.evt.flag 82 = true)) ∧
    (∀ w o, hallSector a b z = some w → (s.node.pfC f.val).sector = some o → hallStep o w = none →
      Ends (exec (.hallError f ⟨a, b, z⟩ t) s) (fun u => (u.node.pfC f.val).hallSkip = true ∧ (u.node.pfC f.val).sector = some w
        ∧ (u.node.pfC f.val).c = (s.node.pfC f.val).c ∧ (u.node.pfC f.val).suspect = true ∧ u.node.evt.flag 82 = true))) ∧
  (∀ (f : Fin 8) (sn cs : Int) (t : Nat) (s : State), s.node.up = true → s.node.pfOn f.val = true → pfType (s.node.recOf 0x0D f.val) = 3 →
    (pfAmplOk (s.node.recOf 0x0D f.val) (pfSq sn cs) = false → Ends (exec (.amplitudeError f ⟨sn, cs⟩ t) s) (fun u =>
      (u.node.pfC f.val).amplErr = true ∧ (u.node.pfC f.val).ampl = pfAmpl (pfSq sn cs) ∧ (u.node.pfC f.val).c = (s.node.pfC f.val).c
      ∧ (u.node.pfC f.val).lost = ((s.node.pfC f.val).lost || decide (3 ≤ (s.node.pfC f.val).outCnt))
      ∧ ((s.node.pfC f.val).amplErr = false → u.node.evt.flag 83 = true ∧ (u.node.pfC f.val).amplSeen = true))) ∧
    (pfAmplOk (s.node.recOf 0x0D f.val) (pfSq sn cs) = true → Ends (exec (.amplitudeError f ⟨sn, cs⟩ t) s) (fun u =>
      (u.node.pfC f.val).amplErr = false ∧ (u.node.pfC f.val).outCnt = 0 ∧ (u.node.pfC f.val).lost = (s.node.pfC f.val).lost))) ∧
  (∀ (p : HostPort) (f : Fin 8) (v : Word) (s : State), Takes s (0x5014 + 0x100 * f.val) → bitOf v 0 = true →
    pfType (s.node.recOf 0x0D f.val) = 1 ∨ pfType (s.node.recOf 0x0D f.val) = 3 →
    (pfIdx (s.node.recOf 0x0D f.val) = false → s.node.miswired (112 + f.val) = false →
      Ends (exec (.pfCtrlClr p f v) s) (fun u => Acks u p (0x5014 + 0x100 * f.val)
        ∧ u.node.pfC f.val = { s.node.pfC f.val with lost := false, suspect := false })) ∧
    (pfIdx (s.node.recOf 0x0D f.val) = true → Ends (exec (.pfCtrlClr p f v) s) (fun u => u.node.pfC f.val = s.node.pfC f.val))) ∧
  (∀ (f : Fin 8) (t : Nat) (s : State), s.node.up = true → s.node.pfRuns f.val = true → (s.node.pfC f.val).still = false →
    (s.node.pfC f.val).edgeAt + pfStillT (s.node.recOf 0x0D f.val) * 250000 ≤ t →
    Ends (exec (.stillTimeout f t) s) (fun u =>
      u.node.pfC f.val = { s.node.pfC f.val with still := true, reversal := false, run := [] } ∧ u.node.evt.flag 86 = true)) ∧
  (∀ (f : Fin 8) (sn cs : Int) (z : Bool) (q t : Nat) (s : State), s.node.up = true → s.node.pfOn f.val = true →
    pfType (s.node.recOf 0x0D f.val) = 3 → pfAmplOk (s.node.recOf 0x0D f.val) (pfSq sn cs) = true →
    pfAccepts (s.node.recOf 0x0D f.val) (s.node.pfC f.val) (s.node.pfC f.val).a (s.node.pfC f.val).b z t = true →
    (s.node.pfC f.val).phase = some q → 256 < (symMod ((pfPhase sn cs : Int) - q) 1024).natAbs →
    Ends (exec (.quadratureError f (.sincos sn cs z) t) s) (fun u => (u.node.pfC f.val).qerr = true
      ∧ (u.node.pfC f.val).c = (s.node.pfC f.val).c ∧ (u.node.pfC f.val).phase = some (pfPhase sn cs)
      ∧ (u.node.pfC f.val).suspect = true ∧ u.node.evt.flag 81 = true)) ∧
  (∀ (f : Fin 8) (a b z : Bool) (t : Nat) (s : State), s.node.up = true →
    (s.node.pfOn f.val = false ∨ pfAccepts (s.node.recOf 0x0D f.val) (s.node.pfC f.val) a b z t = false) →
    ∀ i ∈ [Instr.quadratureError f (.lines a b z) t, .hallError f ⟨a, b, z⟩ t], Ends (exec i s) (fun u => u.node.pf = s.node.pf)) ∧
  (∀ (f : Fin 8) (a b z : Bool) (w o t : Nat) (s : State), s.node.up = true →
    (pfType (s.node.recOf 0x0D f.val) ≠ 1 ∨ quadStep (s.node.pfC f.val) a b ≠ 2 →
      Ends (exec (.quadratureError f (.lines a b z) t) s) (fun u => u.node.pf = s.node.pf)) ∧
    (pfType (s.node.recOf 0x0D f.val) ≠ 2 ∨ (hallSector a b z = some w ∧ ((s.node.pfC f.val).sector = none
        ∨ ((s.node.pfC f.val).sector = some o ∧ (hallStep o w).isSome = true))) →
      Ends (exec (.hallError f ⟨a, b, z⟩ t) s) (fun u => u.node.pf = s.node.pf))) ∧
  (∀ (f : Fin 8) (sn cs : Int) (t : Nat) (s : State), s.node.up = true → (s.node.pfOn f.val = false ∨ pfType (s.node.recOf 0x0D f.val) ≠ 3) →
    Ends (exec (.amplitudeError f ⟨sn, cs⟩ t) s) (fun u => u.node.pf = s.node.pf)) ∧
  (∀ (f : Fin 8) (t : Nat) (s : State), s.node.up = true →
    (s.node.pfRuns f.val = false ∨ (s.node.pfC f.val).still = true ∨ t < (s.node.pfC f.val).edgeAt + pfStillT (s.node.recOf 0x0D f.val) * 250000) →
    Ends (exec (.stillTimeout f t) s) (fun u => u.node.pf = s.node.pf)) ∧
  (∀ (p : HostPort) (f : Fin 8) (v : Word) (s : State), Takes s (0x5014 + 0x100 * f.val) →
    (bitOf v 0 = false ∨ pfType (s.node.recOf 0x0D f.val) = 2 ∨ pfType (s.node.recOf 0x0D f.val) = 4 ∨ s.node.miswired (112 + f.val) = true) →
    Ends (exec (.pfCtrlClr p f v) s) (fun u => Acks u p (0x5014 + 0x100 * f.val) ∧ u.node.pf = s.node.pf))

/-- The compare table and the latched reads (R330, R342, R343, R345): an armed entry that an upward step reaches is hit once, counted
and disarmed, event 80 where its action says so; POS and EN of the selected entry change by command, a relative POS outside one
revolution is refused with ERR, and without an entry nothing changes; PF_RAW and a capture's VALUE latch what belongs to them for the
port. -/
def Obligations.CompareTable : Prop :=
  (∀ (f : Fin 8) (a b z : Bool) (r : Bytes) (t : Nat) (s : State), s.node.up = true → s.node.pfOn f.val = true →
    pfType (s.node.recOf 0x0D f.val) = 1 → pfAccepts (s.node.recOf 0x0D f.val) (s.node.pfC f.val) a b z t = true →
    quadStep (s.node.pfC f.val) a b = (if pfInv (s.node.recOf 0x0D f.val) then -1 else 1) → s.node.recs 0x09 1 = [r] →
    cmpPf r = f.val → cmpRel r = false → cmpEn s.node r = true → (s.node.cmpE (u16 r 0)).armed = true → recBit r 2 5 = true →
    cmpPos s.node r = (s.node.pfC f.val).c + 1#32 → 0 < u8 r 9 → cmpAct r = 8 →
    Ends (exec (.pfEdge f (.lines a b z) t) s) (fun u => (u.node.cmpE (u16 r 0)).armed = false
      ∧ ((s.node.cmpE (u16 r 0)).hits < 65535 → (u.node.cmpE (u16 r 0)).hits = (s.node.cmpE (u16 r 0)).hits + 1)
      ∧ u.node.cmp.hits = s.node.cmp.hits + 1#32 ∧ u.node.evt.flag 80 = true)) ∧
  (∀ (p : HostPort) (v : Word) (r : Bytes) (s : State), Takes s 0x5814 → cmpRec s.node = some r →
    (cmpRel r = false ∨ v.toNat < pfCpr (s.node.recOf 0x0D (cmpPf r)) → Ends (exec (.cmpSetpos p v) s) (fun u => Acks u p 0x5814 ∧
      (u.node.cmpE s.node.cmp.idx).pos = some v ∧ (u.node.cmpE s.node.cmp.idx).hits = (s.node.cmpE s.node.cmp.idx).hits
      ∧ u.node.cmp.err = s.node.cmp.err)) ∧
    (cmpRel r = true → pfCpr (s.node.recOf 0x0D (cmpPf r)) ≤ v.toNat → Ends (exec (.cmpSetpos p v) s) (fun u => Acks u p 0x5814 ∧
      u.node.cmp.err = true ∧ u.node.cmp.ents = s.node.cmp.ents))) ∧
  (∀ (p : HostPort) (v : Word) (r : Bytes) (s : State), Takes s 0x5818 → cmpRec s.node = some r →
    Ends (exec (.cmpSeten p v) s) (fun u => Acks u p 0x5818 ∧ (u.node.cmpE s.node.cmp.idx).en = some (bitOf v 0)
      ∧ (u.node.cmpE s.node.cmp.idx).pos = (s.node.cmpE s.node.cmp.idx).pos
      ∧ (bitOf v 0 = false → (u.node.cmpE s.node.cmp.idx).armed = false))) ∧
  (∀ (p : HostPort) (f : Fin 8) (s : State), Serves s (0x501C + 0x100 * f.val) →
    Ends (exec (.pfRawRead p f) s) (fun u => Answered u p 0 (0x501C + 0x100 * f.val) (s.node.pfC f.val).c
      ∧ tget none (u.node.port p).wrapLatch f.val = some (s.node.pfC f.val).wrapCnt
      ∧ ∀ j, j ≠ f.val → tget none (u.node.port p).wrapLatch j = tget none (s.node.port p).wrapLatch j)) ∧
  (∀ (p : HostPort) (f : Fin 8) (k : Fin 4) (s : State), Serves s (0x5060 + 0x100 * f.val + 0x10 * k.val) →
    let c : PfCap := tget {} (s.node.pfC f.val).caps k.val
    Ends (exec (.pfCapRead p f k) s) (fun u => Answered u p 0 (0x5060 + 0x100 * f.val + 0x10 * k.val) c.val
      ∧ (u.node.port p).capLatch = some (0x5060 + f.val * 0x100 + k.val * 16, some c.qseq, some c.ts))) ∧
  (∀ (p : HostPort) (v : Word) (s : State), cmpRec s.node = none →
    (Takes s 0x5814 → Ends (exec (.cmpSetpos p v) s) (fun u => Acks u p 0x5814 ∧ u.node.cmp = s.node.cmp)) ∧
    (Takes s 0x5818 → Ends (exec (.cmpSeten p v) s) (fun u => Acks u p 0x5818 ∧ u.node.cmp = s.node.cmp)))

/-- An evaluation (R351, R354, R355, R357, R359 to R361, R363 to R366, R369). In AUTO or CASCADE with a valid PV, P, the filter, D and I
follow the error of the setpoint in use in saturating fixed point; a transfer evaluation takes I from the last output, another one
integrates, but not further past a limit, its own or that of an inner lane in CASCADE; the output is P + I + D clamped to the lane's
limits, and its record is delivered when the engine completes it. MAN and TRACK take their outputs and back-calculate I; a bad PV holds
the output or takes the lane to OFF; an outer lane tracks an inner lane that is not in CASCADE; a lane in OFF delivers nothing. A waiting
mode comes into force first, and CASCADE gives way to AUTO where the outer lane is gone. A lane that is not due stands as it was. -/
def Obligations.LaneEvaluation : Prop :=
  (∀ (k : Fin 32) (t : Nat) (s : State), s.node.up = true → s.node.lnRuns k.val = true → t % 2500 = 0 →
    t / 2500 % max 1 (lnPer (s.node.lnRec k.val)) = lnPhase (s.node.lnRec k.val) → (s.node.lnC k.val).tick ≠ some (t / 2500) →
    lnTesting s.node k.val = false →
    let r := s.node.lnRec k.val
    let l := s.node.lnC k.val
    let c := l.par
    let x := s.node.res (lnPvAddr r)
    let pv := (valueWord x).toInt
    let sp := (sat32 (lnSpIn s.node k.val { act := l.act, sp := l.sp, spLast := l.spLast } t).1).1
    let e := (sat32 (sp - pv)).1
    let y := if lnDmeas r then -pv else e
    let f0 := if l.prevPv then l.f else y
    let df := divc (c.kf * (sat32 (y - f0)).1) (lnSF c) (if l.prevPv then l.fres else 0)
    let f := (sat32 (f0 + df.1)).1
    let p := (sat32 (rshr (c.kp * e) (lnSP c))).1
    let d := (sat32 (rshr (c.kd * (sat32 (f - f0)).1) (lnSD c))).1
    let i0 := (l.dadd.map (fun a => clampI c.ilo c.ihi (l.i + a))).getD l.i
    let dI := (sat32 (divc (c.ki * e) (lnSI c) l.ires).1).1
    let iN := clampI c.ilo c.ihi (i0 + dI)
    let inner := if lnKind r = 5 then some (lnView (s.node.lnC (lnTgt r)) (t / 2500)) else none
    let stops := fun o => ((lnView (s.node.lnC o) (t / 2500)).act == 0 && (lnView (s.node.lnC o) (t / 2500)).started) || !s.node.roleOn 3 (o / 8)
    let lost := (s.node.lnOuter k.val).all stops
    let held := l.u.getD l.man
    let done := t + 3000 * lnRank s.node k.val (t / 2500)
    (l.reqNew = false → l.act = 2 ∨ (l.act = 3 ∧ lost = false) → qHas (resQ x) qVALID = true → inner.all (fun w => w.act == 3) = true →
      Ends (exec (.laneEvaluation k t) s) (fun u =>
        (u.node.lnC k.val).p = p ∧ (u.node.lnC k.val).d = d ∧ (u.node.lnC k.val).f = f ∧ (u.node.lnC k.val).fres = df.2
        ∧ (u.node.lnC k.val).pv = pv ∧ (u.node.lnC k.val).spEff = sp
        ∧ (if l.xfer = true ∨ ¬ (l.prevAct = some 2 ∨ l.prevAct = some 3) ∨ l.prevPv = false then
             (u.node.lnC k.val).i = clampI c.ilo c.ihi (held - p - d) ∧ (u.node.lnC k.val).ires = 0
           else if (0 < dI ∧ (c.ohi < p + iN + d ∨ inner.any LnView.hi = true)) ∨ (dI < 0 ∧ (p + iN + d < c.olo ∨ inner.any LnView.lo = true)) then
             (u.node.lnC k.val).i = i0 ∧ (u.node.lnC k.val).ires = l.ires ∧ (u.node.lnC k.val).frozen = true
           else (u.node.lnC k.val).i = iN ∧ (u.node.lnC k.val).ires = (divc (c.ki * e) (lnSI c) l.ires).2
             ∧ (u.node.lnC k.val).frozen = false)
        ∧ (u.node.lnC k.val).u = some (clampI c.olo c.ohi (sat32 (p + (u.node.lnC k.val).i + d)).1)
        ∧ (u.node.lnC k.val).tick = some (t / 2500)
        ∧ ∃ v, (u.node.lnC k.val).u = some v
          ∧ Delivers s u (126 + k.val) 0 done [mkEntry (0x5C00 + k.val * 0x80) v true false (u.node.lnC k.val).follow false false])) ∧
    (l.reqNew = false → l.act = 2 ∨ (l.act = 3 ∧ lost = false) → qHas (resQ x) qVALID = false → inner.all (fun w => w.act == 3) = true →
      Ends (exec (.laneEvaluation k t) s) (fun u => (u.node.lnC k.val).u = some held ∧ (u.node.lnC k.val).pvBad = true
        ∧ (u.node.lnC k.val).i = l.i ∧ (u.node.lnC k.val).ires = l.ires ∧ (u.node.lnC k.val).f = l.f ∧ (u.node.lnC k.val).fres = l.fres
        ∧ (l.pvBad = false → u.node.evt.flag 92 = true)
        ∧ (if lnBadSafe r = true then (u.node.lnC k.val).act = 0 ∧ u.node.evt.flag 91 = true else (u.node.lnC k.val).act = l.act)
        ∧ Delivers s u (126 + k.val) 0 done [mkEntry (0x5C00 + k.val * 0x80) held true false true false false])) ∧
    (l.reqNew = false → l.act = 1 → inner.all (fun w => w.act == 3) = true →
      Ends (exec (.laneEvaluation k t) s) (fun u => (u.node.lnC k.val).u = some (clampI c.olo c.ohi l.man)
        ∧ (u.node.lnC k.val).act = 1
        ∧ (if qHas (resQ x) qVALID = true then
             (u.node.lnC k.val).p = (sat32 (rshr (c.kp * (sat32 ((u.node.lnC k.val).spEff - pv)).1) (lnSP c))).1
             ∧ (u.node.lnC k.val).i = clampI c.ilo c.ihi (clampI c.olo c.ohi l.man - (u.node.lnC k.val).p - (u.node.lnC k.val).d)
             ∧ (u.node.lnC k.val).ires = 0 ∧ (u.node.lnC k.val).sp = (if lnSptrk r then pv else l.sp)
           else (u.node.lnC k.val).i = l.i ∧ (u.node.lnC k.val).f = l.f ∧ (u.node.lnC k.val).sp = l.sp ∧ (u.node.lnC k.val).pvBad = true))) ∧
    (l.reqNew = false → l.act = 0 → Ends (exec (.laneEvaluation k t) s) (fun u => (u.node.lnC k.val).u = l.u ∧ (u.node.lnC k.val).i = l.i
        ∧ (u.node.lnC k.val).act = 0 ∧ u.node.jn.slots.all (fun z => z.prod != 126 + k.val || s.node.jn.slots.contains z) = true)) ∧
    (l.reqNew = false → l.act = 4 → inner.all (fun w => w.act == 3) = true →
      Ends (exec (.laneEvaluation k t) s) (fun u => (u.node.lnC k.val).act = 4
        ∧ (if qHas (resQ (s.node.res (lnTrkAddr r))) qVALID = true then
             (u.node.lnC k.val).u = some (clampI c.olo c.ohi (valueWord (s.node.res (lnTrkAddr r))).toInt) ∧ (u.node.lnC k.val).trkBad = false
           else (u.node.lnC k.val).u = some held ∧ (u.node.lnC k.val).trkBad = true))) ∧
    (∀ w : LnView, l.reqNew = false → l.act = 1 ∨ l.act = 2 ∨ (l.act = 3 ∧ lost = false) ∨ l.act = 4 → inner = some w → w.act ≠ 3 →
      let v := (lnSpIn s.node (lnTgt r) w t).1
      Ends (exec (.laneEvaluation k t) s) (fun u => (u.node.lnC k.val).u = some v ∧ (u.node.lnC k.val).outerTrk = true
        ∧ (u.node.lnC k.val).sat = l.sat
        ∧ (u.node.lnC k.val).i = (if qHas (resQ x) qVALID = true then clampI c.ilo c.ihi (v - (u.node.lnC k.val).p - (u.node.lnC k.val).d) else l.i))) ∧
    (l.reqNew = true → l.req = 0 ∨ l.req = 1 ∨ l.req = 4 ∨ (l.req = 2 ∧ qHas (resQ x) qVALID = true ∧ c.feLim ≤ 0) →
      Ends (exec (.laneEvaluation k t) s) (fun u => (u.node.lnC k.val).act = l.req ∧ (u.node.lnC k.val).reqNew = false
        ∧ (l.act ≠ l.req → u.node.evt.flag 91 = true ∧ (l.reqHost = true → (u.node.lnC k.val).follow = false)))) ∧
    (l.reqNew = false → l.act = 3 → lost = true → qHas (resQ x) qVALID = true → c.feLim ≤ 0 →
      Ends (exec (.laneEvaluation k t) s) (fun u => (u.node.lnC k.val).act = 2 ∧ u.node.evt.flag 91 = true
        ∧ (u.node.lnC k.val).sp = match s.node.lnOuter k.val with
            | some o => (lnOutAt (s.node.lnC o) t).getD l.sp
            | none => if l.prevAct.isSome then l.spUse else l.sp))) ∧
  (∀ (k : Fin 32) (t : Nat) (s : State), s.node.up = true →
    s.node.lnRuns k.val = false ∨ t % 2500 ≠ 0 ∨ t / 2500 % max 1 (lnPer (s.node.lnRec k.val)) ≠ lnPhase (s.node.lnRec k.val)
      ∨ (s.node.lnC k.val).tick = some (t / 2500) →
    Ends (exec (.laneEvaluation k t) s) (fun u => u.node.ln = s.node.ln ∧ u.node.gen = s.node.gen))

/-- Commands to lanes (R353, R359, R360, R367, R368, R375): a mode the lane can take waits for its next evaluation; another is
refused; APPLY brings a pending set that obeys its rules into force whole, with a transfer at the next evaluation, and refuses
another; a following error that has lasted FE_TIME, at the evaluation that finds it so, sets FOLLOW_ERR and FE_SEEN with event 89 and
acts as FE_ACT says, once; a report that is not due changes no lane.

Test generators (R371 to R374): START takes the generator of the lane's half with its record, and is refused while it runs or
where the lane, its mode or a sweep's highest frequency do not suit; an evaluation of the lane under test adds its sample and steps
the generator, and the last one ends the test with event 90; STOP ends a test as aborted with event 90 and keeps the capture, and does
nothing where none runs on the lane; a read of LN_CAP_DATA gives the word at the port's LN_CAP_ADDR and moves it on, outside the
capture NO_REGISTER without moving. -/
def Obligations.LaneCommandsAndTests : Prop :=
  (
  (∀ (p : HostPort) (k : Fin 32) (v : Word) (s : State), Takes s (0x5C08 + 0x80 * k.val) →
    let r := s.node.lnRec k.val
    let bad := lnOn r = false ∨ 4 < fld v 2 0 ∨ (fld v 2 0 = 3 ∧ s.node.lnOuter k.val = none) ∨ (fld v 2 0 = 4 ∧ lnTrkAddr r = 0)
    (¬ bad → Ends (exec (.lnModeRequest p k v) s) (fun u => Acks u p (0x5C08 + 0x80 * k.val)
      ∧ u.node.lnC k.val = { s.node.lnC k.val with req := fld v 2 0, reqNew := true, reqHost := true })) ∧
    (bad → Ends (exec (.lnModeRequest p k v) s) (fun u => Acks u p (0x5C08 + 0x80 * k.val)
      ∧ u.node.lnC k.val = { s.node.lnC k.val with cmdRefused := true }))) ∧
  (∀ (p : HostPort) (k : Fin 32) (s : State), Takes s (0x5C08 + 0x80 * k.val) →
    let c := (s.node.lnC k.val).pendp
    let ok := lnOn (s.node.lnRec k.val) = true ∧ (1 ≤ c.kf ∧ c.kf ≤ 2 ^ lnSF c) ∧ c.ilo ≤ c.ihi ∧ c.olo ≤ c.ohi
      ∧ lnOutOk (lnKind (s.node.lnRec k.val)) c.olo c.ohi = true
    (ok → Ends (exec (.applyLane p k) s) (fun u => Acks u p (0x5C08 + 0x80 * k.val)
      ∧ u.node.lnC k.val = { s.node.lnC k.val with par := c, xfer := true })) ∧
    (¬ ok → Ends (exec (.applyLane p k) s) (fun u => Acks u p (0x5C08 + 0x80 * k.val)
      ∧ u.node.lnC k.val = { s.node.lnC k.val with cmdRefused := true }))) ∧
  (∀ (k : Fin 32) (a t : Nat) (s : State), s.node.up = true → s.node.lnRuns k.val = true → (s.node.lnC k.val).act = 2 ∨ (s.node.lnC k.val).act = 3 →
    (s.node.lnC k.val).pvBad = false → (s.node.lnC k.val).feDone = false → lnTesting s.node k.val = false → (s.node.lnC k.val).feAt = some a →
    a + (s.node.lnC k.val).par.feTime * 250000 ≤ t → (s.node.lnC k.val).tick = some (t / 2500) →
    Ends (exec (.followingError k t) s) (fun u => (u.node.lnC k.val).follow = true ∧ (u.node.lnC k.val).feSeen = true
      ∧ (u.node.lnC k.val).feDone = true ∧ u.node.evt.flag 89 = true
      ∧ (lnFeAct (s.node.lnRec k.val) = 1 → (u.node.lnC k.val).act = 1 ∧ u.node.evt.flag 91 = true
          ∧ (u.node.lnC k.val).man = (s.node.lnC k.val).u.getD (s.node.lnC k.val).man)
      ∧ (lnFeAct (s.node.lnRec k.val) = 2 → (u.node.lnC k.val).act = 0 ∧ u.node.evt.flag 91 = true)
      ∧ (lnFeAct (s.node.lnRec k.val) = 0 → (u.node.lnC k.val).act = (s.node.lnC k.val).act))) ∧
  (∀ (k : Fin 32) (t : Nat) (s : State), s.node.up = true →
    s.node.lnRuns k.val = false ∨ ((s.node.lnC k.val).act ≠ 2 ∧ (s.node.lnC k.val).act ≠ 3) ∨ (s.node.lnC k.val).pvBad = true
      ∨ (s.node.lnC k.val).feDone = true ∨ lnTesting s.node k.val = true ∨ (s.node.lnC k.val).tick ≠ some (t / 2500)
      ∨ (s.node.lnC k.val).feAt.all (fun a => t < a + (s.node.lnC k.val).par.feTime * 250000) = true →
    Ends (exec (.followingError k t) s) (fun u => u.node.ln = s.node.ln ∧ u.node.gen = s.node.gen))) ∧
  (
  (∀ (p : HostPort) (k : Fin 32) (t : Nat) (s : State), Takes s (0x5C70 + 0x80 * k.val) →
    let g := s.node.genC (k.val / 16)
    let r := (s.node.dense 0x0A 2 (k.val / 16)).getD []
    let l := s.node.lnC k.val
    let fast := u8 r 0 = 4 ∧ 25000000 < u32 r 16 * lnPer (s.node.lnRec k.val)
    (genRuns g = false → u8 r 0 ≠ 0 → ¬ fast → lnOn (s.node.lnRec k.val) = true →
      (u8 r 1 = 0 ∧ (l.act = 2 ∨ l.act = 3)) ∨ (u8 r 1 = 1 ∧ l.act ≠ 0 ∧ l.act ≠ 4) →
      Ends (exec (.testStart p k t) s) (fun u => Acks u p (0x5C70 + 0x80 * k.val)
        ∧ u.node.genC (k.val / 16) = { state := if u32 r 24 = 0 then 2 else 1, lane := k.val, cfg := r, k := 0, lfsr := 2 ^ u8 r 2 - 1,
                                       t0 := timeAfter s t, per := lnPer (s.node.lnRec k.val) }
        ∧ u.node.lnC k.val = l)) ∧
    (genRuns g = true ∨ u8 r 0 = 0 ∨ fast ∨ lnOn (s.node.lnRec k.val) = false ∨ (u8 r 1 = 0 ∧ l.act ≠ 2 ∧ l.act ≠ 3) ∨ (u8 r 1 = 1 ∧ (l.act = 0 ∨ l.act = 4)) →
      Ends (exec (.testStart p k t) s) (fun u => Acks u p (0x5C70 + 0x80 * k.val) ∧ u.node.genC (k.val / 16) = g
        ∧ u.node.lnC k.val = { l with testRefused := true }))) ∧
  (∀ (p : HostPort) (k : Fin 32) (t : Nat) (s : State), Takes s (0x5C70 + 0x80 * k.val) → lnTesting s.node k.val = true →
    Ends (exec (.testStop p k t) s) (fun u => Acks u p (0x5C70 + 0x80 * k.val)
      ∧ u.node.genC (k.val / 16) = { s.node.genC (k.val / 16) with state := 4 } ∧ u.node.evt.flag 90 = true)) ∧
  (∀ (p : HostPort) (k : Fin 32) (s : State), Serves s (0x5C7C + 0x80 * k.val) →
    let g := s.node.genC (k.val / 16)
    (∀ w, g.state ≠ 0 → g.lane = k.val → genWord g (tget 0 (s.node.port p).lnCapAddr k.val) = some w →
      Ends (exec (.lnCapDataRead p k) s) (fun u => Answered u p 0 (0x5C7C + 0x80 * k.val) w
        ∧ tget 0 (u.node.port p).lnCapAddr k.val = (tget 0 (s.node.port p).lnCapAddr k.val + 1) % 65536)) ∧
    (g.state = 0 ∨ g.lane ≠ k.val ∨ genWord g (tget 0 (s.node.port p).lnCapAddr k.val) = none →
      Ends (exec (.lnCapDataRead p k) s) (fun u => Answered u p 2 (0x5C7C + 0x80 * k.val) 0#32
        ∧ (u.node.port p).lnCapAddr = (s.node.port p).lnCapAddr))) ∧
  (∀ (p : HostPort) (k : Fin 32) (t : Nat) (s : State), Takes s (0x5C70 + 0x80 * k.val) → lnTesting s.node k.val = false →
    Ends (exec (.testStop p k t) s) (fun u => Acks u p (0x5C70 + 0x80 * k.val) ∧ u.node.gen = s.node.gen ∧ u.node.ln = s.node.ln)) ∧
  (∀ (k : Fin 32) (t : Nat) (s : State), s.node.up = true → s.node.lnRuns k.val = true → t % 2500 = 0 →
    t / 2500 % max 1 (lnPer (s.node.lnRec k.val)) = lnPhase (s.node.lnRec k.val) → (s.node.lnC k.val).tick ≠ some (t / 2500) →
    (s.node.lnC k.val).reqNew = false → (s.node.lnC k.val).act = 1 → lnTesting s.node k.val = true → lnKind (s.node.lnRec k.val) ≠ 5 →
    let g := s.node.genC (k.val / 16)
    let c := (s.node.lnC k.val).par
    let v := clampI c.olo c.ohi ((s.node.lnC k.val).man + if u8 g.cfg 1 = 0 then 0 else genSignal g)
    Ends (exec (.laneEvaluation k t) s) (fun u => (u.node.lnC k.val).u = some v
      ∧ (u.node.genC (k.val / 16)).k = g.k + 1
      ∧ (u.node.genC (k.val / 16)).samples = (wi (u.node.lnC k.val).spEff, valueWord (s.node.res (lnPvAddr (s.node.lnRec k.val))), wi v) :: g.samples
      ∧ (g.k = 0 → (u.node.genC (k.val / 16)).t0 = t)
      ∧ (if u32 g.cfg 20 ≤ g.k + 1 then (u.node.genC (k.val / 16)).state = 3 ∧ u.node.evt.flag 90 = true
         else (u.node.genC (k.val / 16)).state = if u32 g.cfg 24 ≤ g.k + 1 then 2 else 1))))

/-- Delays of points (R384, R386 to R389, R391): an on-delay that has run out brings NORMAL and RETURNED_UNACK into ACTIVE_UNACK, from
NORMAL with event 96 and a log entry; an off-delay ends an unlatched alarm with event 97 and only clears COND of a latched one; a
shelving that has run out and a group's release let points go. An expiry that is not due changes no point and no group. -/
def Obligations.AlarmDelays : Prop :=
  (∀ (i : Fin 4096) (a : Int) (t : Nat) (s : State), s.node.up = true → s.node.almWorks = true → (s.node.almP i.val).onAt = some a →
    (s.node.almP i.val).cond = true → a + (u16 (s.node.almRec i.val) 16 * 2500000 : Nat) ≤ t →
    ((s.node.almP i.val).st = 0 → Ends (exec (.onDelayExpiry i t) s) (fun u => (u.node.almP i.val).st = 1 ∧ (u.node.almP i.val).onAt = none
      ∧ (u.node.almP i.val).upAt = a ∧ (u.node.almP i.val).tick = wd (timeAfter s t / 250000) ∧ u.node.alm.head = s.node.alm.head + 1
      ∧ tget {} u.node.alm.log (s.node.alm.head % 1024)
          = { w0 := wd (2 ^ 28 + i.val), w1 := valueWord (s.node.res (ptSrc (s.node.almRec i.val))), time := timeAfter s t }
      ∧ u.node.evt.flag 96 = true ∧ ∀ j, j ≠ i.val → u.node.almP j = s.node.almP j)) ∧
    ((s.node.almP i.val).st = 3 → Ends (exec (.onDelayExpiry i t) s) (fun u => (u.node.almP i.val).st = 1 ∧ (u.node.almP i.val).upAt = a
      ∧ (u.node.almP i.val).onAt = none)) ∧
    ((s.node.almP i.val).st ≠ 0 → (s.node.almP i.val).st ≠ 3 → Ends (exec (.onDelayExpiry i t) s) (fun u =>
      (u.node.almP i.val).st = (s.node.almP i.val).st ∧ (u.node.almP i.val).onAt = none))) ∧
  (∀ (i : Fin 4096) (a : Int) (t : Nat) (s : State), s.node.up = true → s.node.almWorks = true → (s.node.almP i.val).offAt = some a →
    (s.node.almP i.val).cond = false → a + (u16 (s.node.almRec i.val) 18 * 2500000 : Nat) ≤ t →
    ((s.node.almP i.val).st = 1 → ptLatch (s.node.almRec i.val) = false →
      Ends (exec (.offDelayExpiry i t) s) (fun u => (u.node.almP i.val).st = 3 ∧ (u.node.almP i.val).offAt = none ∧ u.node.evt.flag 97 = true)) ∧
    ((s.node.almP i.val).st = 2 → ptLatch (s.node.almRec i.val) = false →
      Ends (exec (.offDelayExpiry i t) s) (fun u => (u.node.almP i.val).st = 0 ∧ (u.node.almP i.val).offAt = none ∧ u.node.evt.flag 97 = true)) ∧
    (ptLatch (s.node.almRec i.val) = true ∨ ((s.node.almP i.val).st ≠ 1 ∧ (s.node.almP i.val).st ≠ 2) →
      Ends (exec (.offDelayExpiry i t) s) (fun u => (u.node.almP i.val).st = (s.node.almP i.val).st ∧ (u.node.almP i.val).offAt = none))) ∧
  (∀ (i : Fin 4096) (e t : Nat) (s : State), s.node.up = true → s.node.almWorks = true → (s.node.almP i.val).shelveEnd = some e → e ≤ t →
    (s.node.almP i.val).st = 5 →
    Ends (exec (.shelveExpiry i t) s) (fun u => (u.node.almP i.val).shelveEnd = none ∧ Released s u i.val t)) ∧
  (∀ (g : Fin 256) (e t : Nat) (s : State), s.node.up = true → s.node.almWorks = true → (s.node.almG g.val).dlyEnd = some e → e ≤ t →
    (s.node.almG g.val).supp = true → groupHolds s.node (s.node.groupRec g.val) = false →
    Ends (exec (.groupRelease g t) s) (fun u => (u.node.almG g.val).supp = false ∧ (u.node.almG g.val).dlyEnd = none
      ∧ ∀ i, s.node.ptUsed i = true → ptGroup (s.node.almRec i) = g.val → (u.node.almP i).suppPend = false
          ∧ ((s.node.almP i).st = 4 → (s.node.almP i).cond = false → (u.node.almP i).st = 0)
          ∧ ((s.node.almP i).st = 4 → (s.node.almP i).cond = true → ptOnDly (s.node.almRec i) ≠ 0 →
              (u.node.almP i).st = 0 ∧ (u.node.almP i).onAt = some (timeAfter s t : Int))
          ∧ ((s.node.almP i).st ≠ 4 → (u.node.almP i).st = (s.node.almP i).st))) ∧
  (∀ (i : Fin 4096) (t : Nat) (s : State), s.node.up = true →
    s.node.almWorks = false ∨ (s.node.almP i.val).cond = false
      ∨ (s.node.almP i.val).onAt.all (fun a => decide ((t : Int) < a + (u16 (s.node.almRec i.val) 16 * 2500000 : Nat))) = true →
    Ends (exec (.onDelayExpiry i t) s) (fun u => u.node.alm.pts = s.node.alm.pts ∧ u.node.alm.head = s.node.alm.head)) ∧
  (∀ (i : Fin 4096) (t : Nat) (s : State), s.node.up = true →
    s.node.almWorks = false ∨ (s.node.almP i.val).cond = true
      ∨ (s.node.almP i.val).offAt.all (fun a => decide ((t : Int) < a + (u16 (s.node.almRec i.val) 18 * 2500000 : Nat))) = true →
    Ends (exec (.offDelayExpiry i t) s) (fun u => u.node.alm.pts = s.node.alm.pts ∧ u.node.alm.head = s.node.alm.head)) ∧
  (∀ (i : Fin 4096) (t : Nat) (s : State), s.node.up = true →
    s.node.almWorks = false ∨ (s.node.almP i.val).st ≠ 5 ∨ (s.node.almP i.val).shelveEnd.all (fun e => decide (t < e)) = true →
    Ends (exec (.shelveExpiry i t) s) (fun u => u.node.alm.pts = s.node.alm.pts ∧ u.node.alm.head = s.node.alm.head)) ∧
  (∀ (g : Fin 256) (t : Nat) (s : State), s.node.up = true →
    s.node.almWorks = false ∨ (s.node.almG g.val).supp = false ∨ groupHolds s.node (s.node.groupRec g.val) = true
      ∨ (s.node.almG g.val).dlyEnd.all (fun e => decide (t < e)) = true →
    Ends (exec (.groupRelease g t) s) (fun u => u.node.alm.pts = s.node.alm.pts ∧ u.node.alm.grps = s.node.alm.grps
      ∧ u.node.alm.head = s.node.alm.head))

/-- ACK, ACK_GROUP and ACK_ALL (R387, R389): every point they name is acknowledged by the table of transitions, every other stands;
an unused point or group is refused and changes no point.

The other point and group commands (R387 to R389, R392): each moves its point where R389 does not refuse it and otherwise changes
no point and sets CMD_REFUSED; a command to an unused point is refused.

While the alarm engine does not run (R389): every command to it is refused with CMD_REFUSED, and nothing is stored for later. While
it is only paused for a detour, its point and group commands wait for the resume (the model's choice, log entry 54). -/
def Obligations.AlarmCommands : Prop :=
  (
  let acked (p : AlmPt) : Nat := if p.st = 1 then (if p.suppPend then 4 else 2) else if p.st = 3 then (if p.suppPend then 4 else 0) else p.st
  (∀ (p : HostPort) (i : Fin 4096) (t : Nat) (s : State), Takes s 0x6C40 → s.node.almWorks = true →
    (s.node.ptUsed i.val = true →
      Ends (exec (.ackPt p i t) s) (fun u => Acks u p 0x6C40 ∧ (u.node.almP i.val).st = acked (s.node.almP i.val)
        ∧ u.node.alm.refused = s.node.alm.refused ∧ ∀ j, j ≠ i.val → u.node.almP j = s.node.almP j)) ∧
    (s.node.ptUsed i.val = false → Ends (exec (.ackPt p i t) s) (fun u => Acks u p 0x6C40 ∧ u.node.alm.refused = true
        ∧ ∀ j, u.node.almP j = s.node.almP j))) ∧
  (∀ (p : HostPort) (g : Fin 256) (t : Nat) (s : State), Takes s 0x6C40 → s.node.almWorks = true →
    (s.node.groupUsed g.val = true → Ends (exec (.ackGroup p g t) s) (fun u => Acks u p 0x6C40 ∧ u.node.alm.refused = s.node.alm.refused
      ∧ ∀ i, if s.node.ptUsed i = true ∧ ptGroup (s.node.almRec i) = g.val then (u.node.almP i).st = acked (s.node.almP i)
          else u.node.almP i = s.node.almP i)) ∧
    (s.node.groupUsed g.val = false → Ends (exec (.ackGroup p g t) s) (fun u => Acks u p 0x6C40 ∧ u.node.alm.refused = true
      ∧ ∀ j, u.node.almP j = s.node.almP j))) ∧
  (∀ (p : HostPort) (t : Nat) (s : State), Takes s 0x6C40 → s.node.almWorks = true →
    Ends (exec (.ackAll p t) s) (fun u => Acks u p 0x6C40 ∧ u.node.alm.refused = s.node.alm.refused
      ∧ ∀ i, if s.node.ptUsed i = true then (u.node.almP i).st = acked (s.node.almP i) else u.node.almP i = s.node.almP i))) ∧
  (
  (∀ (p : HostPort) (i : Fin 4096) (t : Nat) (s : State), Takes s 0x6C40 → s.node.almWorks = true → s.node.ptUsed i.val = true →
    let q := s.node.almP i.val
    let r := s.node.almRec i.val
    (q.st = 2 → ptLatch r = true → q.cond = false → q.offAt = none →
      Ends (exec (.alarmReset p i t) s) (fun u => Acks u p 0x6C40 ∧ (u.node.almP i.val).st = 0 ∧ u.node.evt.flag 97 = true)) ∧
    (¬ (q.st = 2 ∧ ptLatch r = true ∧ q.cond = false ∧ q.offAt = none) →
      Ends (exec (.alarmReset p i t) s) (fun u => Acks u p 0x6C40 ∧ u.node.alm.refused = true ∧ ∀ j, u.node.almP j = s.node.almP j)) ∧
    (∀ arg : BitVec 11, ptShelv r = true → 1 ≤ arg.toNat → arg.toNat ≤ 1440 → q.st ≤ 5 →
      Ends (exec (.shelvePt p i arg t) s) (fun u => Acks u p 0x6C40 ∧ (u.node.almP i.val).st = 5 ∧ (u.node.almP i.val).onAt = none
        ∧ (u.node.almP i.val).offAt = none ∧ (u.node.almP i.val).shelveEnd = some (timeAfter s t + arg.toNat * 60 * 250000000))) ∧
    (∀ arg : BitVec 11, ¬ (ptShelv r = true ∧ 1 ≤ arg.toNat ∧ arg.toNat ≤ 1440 ∧ q.st ≤ 5) →
      Ends (exec (.shelvePt p i arg t) s) (fun u => Acks u p 0x6C40 ∧ u.node.alm.refused = true ∧ ∀ j, u.node.almP j = s.node.almP j)) ∧
    (q.st = 5 → Ends (exec (.unshelvePt p i t) s) (fun u => Acks u p 0x6C40 ∧ Released s u i.val t ∧ (u.node.almP i.val).shelveEnd = none)) ∧
    (q.st ≠ 5 → Ends (exec (.unshelvePt p i t) s) (fun u => Acks u p 0x6C40 ∧ u.node.alm.refused = true ∧ ∀ j, u.node.almP j = s.node.almP j)) ∧
    (q.st < 6 → Ends (exec (.inhibitPt p i t) s) (fun u => Acks u p 0x6C40 ∧ (u.node.almP i.val).st = 6 ∧ (u.node.almP i.val).onAt = none
        ∧ (u.node.almP i.val).offAt = none ∧ (u.node.almP i.val).cond = q.cond)) ∧
    (6 ≤ q.st → Ends (exec (.inhibitPt p i t) s) (fun u => Acks u p 0x6C40 ∧ u.node.alm.refused = true ∧ ∀ j, u.node.almP j = s.node.almP j)) ∧
    (q.st = 6 → Ends (exec (.releasePt p i t) s) (fun u => Acks u p 0x6C40 ∧ Released s u i.val t)) ∧
    (q.st ≠ 6 → Ends (exec (.releasePt p i t) s) (fun u => Acks u p 0x6C40 ∧ u.node.alm.refused = true ∧ ∀ j, u.node.almP j = s.node.almP j))) ∧
  (∀ (p : HostPort) (i : Fin 4096) (t : Nat) (s : State), Takes s 0x6C44 → s.node.almWorks = true → s.node.ptUsed i.val = true →
    let q := s.node.almP i.val
    (q.st ≠ 7 → Ends (exec (.outOfService p i t) s) (fun u => Acks u p 0x6C44 ∧ (u.node.almP i.val).st = 7 ∧ (u.node.almP i.val).cond = false)) ∧
    (q.st = 7 → Ends (exec (.outOfService p i t) s) (fun u => Acks u p 0x6C44 ∧ u.node.alm.refused = true ∧ ∀ j, u.node.almP j = s.node.almP j)) ∧
    (q.st = 7 → Ends (exec (.returnPt p i t) s) (fun u => Acks u p 0x6C44 ∧ Released s u i.val t)) ∧
    (q.st ≠ 7 → Ends (exec (.returnPt p i t) s) (fun u => Acks u p 0x6C44 ∧ u.node.alm.refused = true ∧ ∀ j, u.node.almP j = s.node.almP j))) ∧
  (∀ (p : HostPort) (g : Fin 256) (t : Nat) (s : State), Takes s 0x6C40 → s.node.almWorks = true →
    (s.node.groupUsed g.val = true → (s.node.almG g.val).fo = 0 ∨ (s.node.almP ((s.node.almG g.val).fo - 1)).st ≠ 1 →
      Ends (exec (.foReset p g t) s) (fun u => Acks u p 0x6C40 ∧ (u.node.almG g.val).fo = 0)) ∧
    (s.node.groupUsed g.val = false ∨ ((s.node.almG g.val).fo ≠ 0 ∧ (s.node.almP ((s.node.almG g.val).fo - 1)).st = 1) →
      Ends (exec (.foReset p g t) s) (fun u => Acks u p 0x6C40 ∧ u.node.alm.refused = true ∧ u.node.almG g.val = s.node.almG g.val))) ∧
  (∀ (p : HostPort) (i : Fin 4096) (arg : BitVec 11) (t : Nat) (s : State), Takes s 0x6C40 → Takes s 0x6C44 → s.node.almWorks = true →
    s.node.ptUsed i.val = false →
    let r (a : Nat) (u : State) := Acks u p a ∧ u.node.alm.refused = true ∧ ∀ j, u.node.almP j = s.node.almP j
    Ends (exec (.alarmReset p i t) s) (r 0x6C40) ∧ Ends (exec (.shelvePt p i arg t) s) (r 0x6C40) ∧ Ends (exec (.unshelvePt p i t) s) (r 0x6C40)
      ∧ Ends (exec (.inhibitPt p i t) s) (r 0x6C40) ∧ Ends (exec (.releasePt p i t) s) (r 0x6C40) ∧ Ends (exec (.outOfService p i t) s) (r 0x6C44)
      ∧ Ends (exec (.returnPt p i t) s) (r 0x6C44))) ∧
  (
  (∀ (p : HostPort) (i : Fin 4096) (g : Fin 256) (arg : BitVec 11) (v : Word) (t : Nat) (s : State), s.node.almRun = false →
    ∀ x ∈ [(0x6C40, Instr.ackPt p i t), (0x6C40, .ackGroup p g t), (0x6C40, .ackAll p t), (0x6C40, .alarmReset p i t), (0x6C40, .shelvePt p i arg t),
      (0x6C40, .unshelvePt p i t), (0x6C40, .inhibitPt p i t), (0x6C40, .releasePt p i t), (0x6C40, .foReset p g t), (0x6C44, .outOfService p i t),
      (0x6C44, .returnPt p i t), (0x6C58, .almCallAck p v t), (0x6C50, .almDutyWrite p v t), (0x6C60, .patrolStart p t), (0x6C60, .patrolStop p t),
      (0x6C60, .patrolPress p t)],
    Takes s x.1 → Ends (exec x.2 s) (fun u => Acks u p x.1 ∧ u.node.alm.refused = true ∧ (∀ j, u.node.almP j = s.node.almP j)
      ∧ u.node.alm.inq = s.node.alm.inq ∧ u.node.alm.grps = s.node.alm.grps ∧ u.node.alm.duty = s.node.alm.duty)) ∧
  (∀ (p : HostPort) (i : Fin 4096) (g : Fin 256) (arg : BitVec 11) (t : Nat) (s : State), Takes s 0x6C40 → Takes s 0x6C44 → s.node.almRun = true →
    s.node.almWorks = false →
    let r (a : Nat) (c : AlmIn) (u : State) := Acks u p a ∧ u.node.alm.inq = s.node.alm.inq ++ [c] ∧ u.node.alm.pts = s.node.alm.pts ∧ u.node.alm.grps = s.node.alm.grps ∧ u.node.alm.refused = s.node.alm.refused
    Ends (exec (.ackPt p i t) s) (r 0x6C40 (.cmd (almCmdWord 1 0 i.val))) ∧ Ends (exec (.ackGroup p g t) s) (r 0x6C40 (.cmd (almCmdWord 2 0 g.val)))
      ∧ Ends (exec (.ackAll p t) s) (r 0x6C40 (.cmd (almCmdWord 3 0 0))) ∧ Ends (exec (.alarmReset p i t) s) (r 0x6C40 (.cmd (almCmdWord 4 0 i.val)))
      ∧ Ends (exec (.shelvePt p i arg t) s) (r 0x6C40 (.cmd (almCmdWord 5 arg.toNat i.val)))
      ∧ Ends (exec (.unshelvePt p i t) s) (r 0x6C40 (.cmd (almCmdWord 6 0 i.val))) ∧ Ends (exec (.inhibitPt p i t) s) (r 0x6C40 (.cmd (almCmdWord 7 0 i.val)))
      ∧ Ends (exec (.releasePt p i t) s) (r 0x6C40 (.cmd (almCmdWord 8 0 i.val))) ∧ Ends (exec (.foReset p g t) s) (r 0x6C40 (.cmd (almCmdWord 9 0 g.val)))
      ∧ Ends (exec (.outOfService p i t) s) (r 0x6C44 (.xcmd (almCmdWord 1 0 i.val))) ∧ Ends (exec (.returnPt p i t) s) (r 0x6C44 (.xcmd (almCmdWord 2 0 i.val)))))

/-- Watch calls and the patrol timer (R395 to R398, R400): an unanswered call rises a level with event 98; one recalled starts again for
alarms that stand unacknowledged; acknowledgements, duty and patrol commands wait for the next scan tick; the patrol timer warns,
then calls at level 2 or above with event 100. A time that is not up changes no call and not the timer.

Finding points and reading the log (R402, R404): ALM_FIND gives the port the lowest used point from POINT on in STATE, or POINT
unchanged; ALM_LOG_IDX selects word 0 of an entry; each read of ALM_LOG_DATA gives one word of it and moves on, after word 3 to the
next entry; an entry that is not held is NO_REGISTER. -/
def Obligations.CallsPatrolAndAlarmLog : Prop :=
  (
  (∀ (e t : Nat) (s : State), s.node.up = true → s.node.almWorks = true → s.node.alm.escAt = some e → e ≤ t →
    s.node.alm.level = 1 ∨ s.node.alm.level = 2 → s.node.alm.cause = 2 ∨ (s.node.alm.cause = 0 ∧ s.node.alm.duty ≠ 0xFF) →
    Ends (exec (.callEscalation t) s) (fun u => u.node.alm.level = s.node.alm.level + 1 ∧ u.node.alm.cause = s.node.alm.cause
      ∧ u.node.alm.escAt = (if s.node.alm.level = 1 then some (timeAfter s t + s.node.t2) else none) ∧ u.node.evt.flag 98 = true)) ∧
  (∀ (e t : Nat) (s : State), s.node.up = true → s.node.almWorks = true → s.node.alm.level = 0 → s.node.alm.recallAt = some e → e ≤ t →
    Ends (exec (.callRecall t) s) (fun u => u.node.alm.recallAt = none
      ∧ (if almAny s.node clsAlarm stUnack then u.node.alm.level = 1 ∧ u.node.alm.cause = 0 ∧ u.node.alm.escAt = some (timeAfter s t + s.node.t1)
         else u.node.alm.level = 0))) ∧
  (∀ (p : HostPort) (v : Word) (t : Nat) (s : State), s.node.almRun = true →
    (Takes s 0x6C58 → Ends (exec (.almCallAck p v t) s) (fun u => Acks u p 0x6C58 ∧ u.node.alm.inq = s.node.alm.inq ++ [.ack (fld v 3 0)]
      ∧ u.node.alm.level = s.node.alm.level)) ∧
    (Takes s 0x6C50 → dutyOk s.node (fld v 7 0) = true → Ends (exec (.almDutyWrite p v t) s) (fun u => Acks u p 0x6C50
      ∧ u.node.alm.dutyW = fld v 7 0 ∧ u.node.alm.inq = s.node.alm.inq ++ [.duty (fld v 7 0)] ∧ u.node.alm.duty = s.node.alm.duty)) ∧
    (Takes s 0x6C50 → dutyOk s.node (fld v 7 0) = false → Ends (exec (.almDutyWrite p v t) s) (fun u => Acks u p 0x6C50 ∧ u.node.alm.refused = true
      ∧ u.node.alm.dutyW = s.node.alm.dutyW ∧ u.node.alm.inq = s.node.alm.inq)) ∧
    (Takes s 0x6C60 → Ends (exec (.patrolStart p t) s) (fun u => Acks u p 0x6C60 ∧ u.node.alm.inq = s.node.alm.inq ++ [.start]) ∧
      Ends (exec (.patrolStop p t) s) (fun u => Acks u p 0x6C60 ∧ u.node.alm.inq = s.node.alm.inq ++ [.stop]) ∧
      Ends (exec (.patrolPress p t) s) (fun u => Acks u p 0x6C60 ∧ u.node.alm.inq = s.node.alm.inq ++ [.press]))) ∧
  (∀ (t : Nat) (s : State), s.node.up = true → s.node.almWorks = true →
    (s.node.alm.patrol = 1 → s.node.alm.patWarn ≤ t → Ends (exec (.patrolPrewarn t) s) (fun u => u.node.alm.patrol = 2
      ∧ u.node.alm.patEnd = s.node.alm.patEnd)) ∧
    (s.node.alm.patrol = 2 → s.node.alm.patEnd ≤ t → Ends (exec (.patrolExpired t) s) (fun u => u.node.alm.patrol = 3
      ∧ u.node.alm.level = max s.node.alm.level 2 ∧ u.node.alm.cause = 2 ∧ u.node.evt.flag 100 = true
      ∧ (s.node.alm.level < 2 → u.node.alm.escAt = some (timeAfter s t + s.node.t2))
      ∧ (2 ≤ s.node.alm.level → u.node.alm.escAt = s.node.alm.escAt)))) ∧
  (∀ (t : Nat) (s : State), s.node.up = true →
    let same (u : State) := u.node.alm.level = s.node.alm.level ∧ u.node.alm.cause = s.node.alm.cause ∧ u.node.alm.escAt = s.node.alm.escAt ∧ u.node.alm.recallAt = s.node.alm.recallAt ∧ u.node.alm.patrol = s.node.alm.patrol ∧ u.node.alm.head = s.node.alm.head
    (s.node.almWorks = false ∨ s.node.alm.escAt.all (fun e => decide (t < e)) = true ∨ (s.node.alm.level ≠ 1 ∧ s.node.alm.level ≠ 2)
      ∨ s.node.alm.cause = 1 ∨ (s.node.alm.cause = 0 ∧ s.node.alm.duty = 0xFF) → Ends (exec (.callEscalation t) s) same) ∧
    (s.node.almWorks = false ∨ s.node.alm.recallAt.all (fun e => decide (t < e)) = true ∨ s.node.alm.level ≠ 0 → Ends (exec (.callRecall t) s) same) ∧
    (s.node.almWorks = false ∨ s.node.alm.patrol ≠ 1 ∨ t < s.node.alm.patWarn → Ends (exec (.patrolPrewarn t) s) same) ∧
    (s.node.almWorks = false ∨ s.node.alm.patrol ≠ 2 ∨ t < s.node.alm.patEnd → Ends (exec (.patrolExpired t) s) same))) ∧
  (
  (∀ (p : HostPort) (v : Word) (s : State), Takes s 0x6C68 →
    Ends (exec (.almFindWrite p v) s) (fun u => Acks u p 0x6C68
      ∧ (∀ i, s.node.ptUsed i = true → fld v 11 0 ≤ i → (s.node.almP i).st = fld v 31 28 →
          (∀ j, s.node.ptUsed j = true → fld v 11 0 ≤ j → (s.node.almP j).st = fld v 31 28 → i ≤ j) →
          (u.node.port p).almFind = wd (fld v 31 28 * 2 ^ 28 + 2 ^ 27 + i))
      ∧ ((∀ j, s.node.ptUsed j = true → fld v 11 0 ≤ j → (s.node.almP j).st ≠ fld v 31 28) →
          (u.node.port p).almFind = wd (fld v 31 28 * 2 ^ 28 + fld v 11 0)))) ∧
  (∀ (p : HostPort) (v : Word) (s : State), Takes s 0x6CA4 →
    Ends (exec (.almLogIdxWrite p v) s) (fun u => Acks u p 0x6CA4 ∧ (u.node.port p).almLogIdx = v.toNat ∧ (u.node.port p).almLogWord = 0)) ∧
  (∀ (p : HostPort) (s : State), Serves s 0x6CA8 →
    let q := s.node.port p
    let e := tget {} s.node.alm.log (q.almLogIdx % 1024)
    (q.almLogWord = 0 → almLogHeld s.node q.almLogIdx = true → Ends (exec (.almLogDataRead p) s) (fun u =>
      Answered u p 0 0x6CA8 e.w0 ∧ (u.node.port p).almLogWord = 1 ∧ (u.node.port p).almLatch = [e.w0, e.w1, wd e.time, wd (e.time / 2 ^ 32)])) ∧
    (0 < q.almLogWord → q.almLogWord < 3 → Ends (exec (.almLogDataRead p) s) (fun u =>
      Answered u p 0 0x6CA8 (q.almLatch.getD q.almLogWord 0#32) ∧ (u.node.port p).almLogWord = q.almLogWord + 1
        ∧ (u.node.port p).almLogIdx = q.almLogIdx)) ∧
    (q.almLogWord = 3 → Ends (exec (.almLogDataRead p) s) (fun u => Answered u p 0 0x6CA8 (q.almLatch.getD 3 0#32)
        ∧ (u.node.port p).almLogWord = 0 ∧ (u.node.port p).almLogIdx = (q.almLogIdx + 1) % 2 ^ 32)) ∧
    (q.almLogWord = 0 → almLogHeld s.node q.almLogIdx = false → Ends (exec (.almLogDataRead p) s) (fun u =>
      Answered u p 2 0x6CA8 0#32 ∧ u.node.port p = { s.node.port p with ans := (u.node.port p).ans }))))

/-- Commands to a sequence and their work at the scan tick (R406, R407, R409, R412): a SEQ_CTRL write waits for the next tick; there START
of an idle sequence enters its step with event 104, STOP ends it, HOLD and RESUME hold it and let it go on with event 107, and a
command that does not suit its state sets CMD_REFUSED and changes nothing else.

Times and steps (R407 to R409, R452): a step whose time has run out goes to its NEXT step with events 106 and 104, to DONE with 105 or
to HELD with 107; a timer has expired once the sequence's clock has reached it; an acknowledged SEQSTEP lets the oldest waiting
step's entry actions act. A time that is not up, or a pause of the sequencer, changes no sequence. -/
def Obligations.Sequences : Prop :=
  (
  (∀ (p : HostPort) (q : Fin 8) (k : BitVec 10) (t : Nat) (s : State), Takes s (0x7000 + 0x40 * q.val) →
    ∀ x ∈ [(Instr.seqStart p q none t, 1#32), (.seqStart p q (some k) t, wd (2 ^ 26 + k.toNat * 65536 + 1)), (.seqStop p q t, 2#32),
      (.seqHold p q t, 3#32), (.seqResume p q t, 4#32), (.seqGoto p q k t, wd (k.toNat * 65536 + 5))],
    Ends (exec x.1 s) (fun u => Acks u p (0x7000 + 0x40 * q.val)
      ∧ u.node.sq q.val = { s.node.sq q.val with q := (s.node.sq q.val).q ++ [x.2] } ∧ ∀ j, j ≠ q.val → u.node.sq j = s.node.sq j)) ∧
  (∀ (q : Nat) (n : Node), q < 8 → sqOn (n.seqRec q) = true →
    ((n.sq q).st = 0 → n.running = true → sqFirst (n.seqRec q) < 1024 → stSeq (n.stepRec (sqFirst (n.seqRec q))) = q →
      stNact (n.stepRec (sqFirst (n.seqRec q))) = 0 → stNtr (n.stepRec (sqFirst (n.seqRec q))) ≠ 0 → n.dup.role ≠ .active →
      let m := sqCommand q n 1#32
      (m.sq q).st = 1 ∧ (m.sq q).step = sqFirst (n.seqRec q) ∧ (m.sq q).prev = (n.sq q).step ∧ (m.sq q).stepAt = 0
        ∧ (m.sq q).since = some n.now ∧ (m.sq q).entered = some n.scan.toNat ∧ m.evt.flag 104 = true) ∧
    ((n.sq q).st = 3 → (sqCommand q n 2#32).sq q = { sqState 0 n.now (n.sq q) with hcause := 0 }) ∧
    ((n.sq q).st = 1 → n.running = true → (sqCommand q n 3#32).evt.flag 107 = true ∧ ((sqCommand q n 3#32).sq q).st = 2
      ∧ ((sqCommand q n 3#32).sq q).hcause = 1 ∧ ((sqCommand q n 3#32).sq q).since = none) ∧
    ((n.sq q).st = 2 → n.running = true → n.stepOf q (n.sq q).step = true →
      ((sqCommand q n 4#32).sq q).st = 1 ∧ ((sqCommand q n 4#32).sq q).hcause = 0 ∧ ((sqCommand q n 4#32).sq q).step = (n.sq q).step) ∧
    (∀ v, fld v 3 0 = 0 ∨ 5 < fld v 3 0 ∨ (fld v 3 0 = 1 ∧ ((n.sq q).st = 1 ∨ (n.sq q).st = 2)) ∨ (fld v 3 0 = 2 ∧ (n.sq q).st = 0)
        ∨ (fld v 3 0 = 3 ∧ (n.sq q).st ≠ 1) ∨ (4 ≤ fld v 3 0 ∧ (n.sq q).st ≠ 2) →
      sqCommand q n v = setSq q { n.sq q with cmdRefused := true } n))) ∧
  (
  (∀ (q : Fin 8) (a t : Nat) (s : State), s.node.up = true → s.node.seqRuns = true → (s.node.sq q.val).st = 1 →
    (s.node.sq q.val).since = some a →
    let x := s.node.sq q.val
    let r := s.node.stepRec x.step
    stTmo r ≠ 0 → stTmo r ≤ x.acc + (timeAfter s t - a) - x.stepAt →
    (stNext r = 0xFFFF → Ends (exec (.stepTimeout q t) s) (fun u => (u.node.sq q.val).st = 3 ∧ (u.node.sq q.val).tmoSeen = true
      ∧ u.node.evt.flag 106 = true ∧ u.node.evt.flag 105 = true)) ∧
    (stNext r = 0xFFFE → Ends (exec (.stepTimeout q t) s) (fun u => (u.node.sq q.val).st = 2 ∧ (u.node.sq q.val).hcause = 4
      ∧ u.node.evt.flag 106 = true ∧ u.node.evt.flag 107 = true)) ∧
    (stNext r < 1024 → stLink (s.node.stepRec (stNext r)) = false → Ends (exec (.stepTimeout q t) s) (fun u =>
      (u.node.sq q.val).st = 1 ∧ (u.node.sq q.val).step = stNext r ∧ (u.node.sq q.val).prev = x.step
      ∧ (u.node.sq q.val).stepAt = x.acc + (timeAfter s t - a) ∧ (u.node.sq q.val).tmoSeen = true
      ∧ u.node.evt.flag 106 = true ∧ u.node.evt.flag 104 = true))) ∧
  (∀ (q : Fin 8) (k : Fin 4) (a e t : Nat) (s : State), s.node.up = true → (s.node.sq q.val).since = some a →
    (s.node.sq q.val).tmr.getD k.val none = some e → e ≤ (s.node.sq q.val).acc + (timeAfter s t - a) →
    Ends (exec (.seqTimerExpiry q k t) s) (fun u => sqExpired u.node (u.node.sq q.val) k.val = true ∧ u.node.seq = s.node.seq
      ∧ u.node.time.devtime = timeAfter s t)) ∧
  (∀ (q : Fin 8) (k : Nat) (r : List Nat) (t : Nat) (s : State), s.node.up = true → (s.node.sq q.val).acts = k :: r →
    Ends (exec (.seqstepAcknowledged q t) s) (fun u => (u.node.sq q.val).acts = r ∧ (u.node.sq q.val).step = (s.node.sq q.val).step
      ∧ (stNact (s.node.stepRec k) = 1 → u8 (s.node.stepRec k) 8 = 1 →
          (u.node.lnC (u8 (s.node.stepRec k) 9)).sp = (w32 (s.node.stepRec k) 12).toInt))) ∧
  (∀ (q : Fin 8) (t : Nat) (s : State), s.node.up = true →
    let x := s.node.sq q.val
    s.node.seqRuns = false ∨ x.st ≠ 1 ∨ stTmo (s.node.stepRec x.step) = 0
      ∨ x.since.all (fun a => decide (x.acc + (timeAfter s t - a) - x.stepAt < stTmo (s.node.stepRec x.step))) = true ∧ x.since.isSome = true →
    Ends (exec (.stepTimeout q t) s) (fun u => u.node.seq = s.node.seq)) ∧
  (∀ (q : Fin 8) (k : Fin 4) (t : Nat) (s : State), s.node.up = true →
    (s.node.sq q.val).tmr.getD k.val none = none ∨ (s.node.sq q.val).since = none
      ∨ ((s.node.sq q.val).tmr.getD k.val none).all (fun e => (s.node.sq q.val).since.all (fun a => decide ((s.node.sq q.val).acc + (timeAfter s t - a) < e))) = true →
    Ends (exec (.seqTimerExpiry q k t) s) (fun u => u.node.seq = s.node.seq)) ∧
  (∀ (q : Fin 8) (t : Nat) (s : State), s.node.up = true → (s.node.sq q.val).acts = [] →
    Ends (exec (.seqstepAcknowledged q t) s) (fun u => u.node.seq = s.node.seq ∧ u.node.ln = s.node.ln)))

/-- Requests, renderings and updates (R432, R434, R435, R438): a requested region waits for the next frame boundary, or queues behind its
running update; a panel that takes no requests refuses; a rendering that is under way, named by the scan tick that started it, or a
redraw, fills the region's buffer with what its items showed then, stores its CRC and, where the buffer has changed or a redraw was
asked for, asks for an update, the engine's own not before MIN_INT has passed; an update that starts draws in the mode its record
and request give. A rendering or a start that nothing waits for changes nothing.

A frame scan (R423, R424, R432, R434, R438): once a frame period has ended, every running waveform moves on one frame and after its
last ends with event 108 and its count; a buffer that no longer matches its CRC is CORRUPT with event 109 and asks for a redraw; a
stopping panel without a running waveform discharges. Between two boundaries only the buffers' own upsets come. -/
def Obligations.DisplayUpdatesAndFrames : Prop :=
  (
  (∀ (p : HostPort) (v : Word) (full : Bool) (s : State),
    let a := if full then 0x7414 else 0x7410
    let c : Instr := if full then .dspFull p v else .dspRedraw p v
    Takes s a →
    (dspTakes s.node = true → Ends (exec c s) (fun u => Acks u p a ∧ u.node.dsp.refused = s.node.dsp.refused
      ∧ ∀ k < 32, u.node.rg k =
        if !(bitOf v k && rgOn (s.node.rgRec k)) then s.node.rg k
        else if (s.node.rg k).run && !rgPrio (s.node.rgRec k) then { s.node.rg k with queued := some (full || (s.node.rg k).queued.getD false) }
        else { s.node.rg k with req := some (full || (s.node.rg k).req.getD false) })) ∧
    (dspTakes s.node = false → Ends (exec c s) (fun u => Acks u p a ∧ (∀ k, u.node.rg k = s.node.rg k)
      ∧ u.node.dsp.refused = (s.node.dsp.refused || (List.range 32).any (fun k => bitOf v k && rgOn (s.node.rgRec k)))))) ∧
  (∀ (r : Fin 32) (start t : Nat) (vs : List ItemView) (s : State), s.node.up = true → rgOn (s.node.rgRec r.val) = true → s.node.acq = true →
    s.node.isRun 9 = true → s.node.roleOn 6 0 = true →
    let x := s.node.rg r.val
    let px := rgDraw s.node r.val vs
    let due := (x.startAt.map (fun a => a + rgMinInt (s.node.rgRec r.val))).getD 0
    (x.rendering.find? (fun y => y.1 == start) = some (start, vs)
      ∨ (x.rendering.find? (fun y => y.1 == start) = none ∧ x.redraw = true ∧ x.shown = some vs)) →
    Ends (exec (.renderComplete r start t) s) (fun u => (u.node.rg r.val).buf = px ∧ (u.node.rg r.val).crc = crc32 px
      ∧ (u.node.rg r.val).rendered = true ∧ (u.node.rg r.val).rendering = x.rendering.filter (fun y => y.1 != start) ∧ (u.node.rg r.val).redraw = false
      ∧ (dspTakes s.node = true → x.redraw = true ∨ (due ≤ t ∧ (x.rendered = false ∨ x.buf ≠ px)) →
          (if x.run = true ∧ rgPrio (s.node.rgRec r.val) = false then (u.node.rg r.val).queued.isSome = true
           else (u.node.rg r.val).req.isSome = true))
      ∧ (x.redraw = false → t < due → x.rendered = false ∨ x.buf ≠ px → (u.node.rg r.val).dspAt = some due ∧ (u.node.rg r.val).req = x.req
          ∧ (u.node.rg r.val).queued = x.queued)
      ∧ (x.redraw = false → x.rendered = true → x.buf = px → (u.node.rg r.val).req = x.req ∧ (u.node.rg r.val).queued = x.queued
          ∧ (u.node.rg r.val).dspAt = x.dspAt))) ∧
  (∀ (r : Fin 32) (m0 : Bool) (t : Nat) (s : State), s.node.up = true → (s.node.rg r.val).req = some m0 → rgOn (s.node.rgRec r.val) = true →
    s.node.dsp.bias = 2 → s.node.isRun 9 = true → s.node.acq = true → (s.node.rg r.val).run = false ∨ rgPrio (s.node.rgRec r.val) = true →
    Ends (exec (.updateStart r t) s) (fun u => (u.node.rg r.val).run = true ∧ (u.node.rg r.val).frame = 0 ∧ (u.node.rg r.val).req = none
      ∧ (u.node.rg r.val).startAt = some t ∧ (m0 = true → (u.node.rg r.val).mode = 0)
      ∧ ((s.node.rg r.val).full0 = true → (u.node.rg r.val).mode = 0)
      ∧ (m0 = false → (s.node.rg r.val).full0 = false → rgFullEvery (s.node.rgRec r.val) < 2 ∨ rgPrio (s.node.rgRec r.val) = true →
          (u.node.rg r.val).mode = rgMode (s.node.rgRec r.val))
      ∧ u.node.dsp.len = (u.node.rg r.val).leff ∧ u.node.dsp.band = (u.node.rg r.val).band)) ∧
  (∀ (r : Fin 32) (start t : Nat) (s : State), s.node.up = true →
    rgOn (s.node.rgRec r.val) = false ∨ s.node.acq = false ∨ s.node.isRun 9 = false ∨ s.node.roleOn 6 0 = false
      ∨ ((s.node.rg r.val).rendering.find? (fun y => y.1 == start) = none ∧ ((s.node.rg r.val).redraw = false ∨ (s.node.rg r.val).shown = none)) →
    Ends (exec (.renderComplete r start t) s) (fun u => u.node.dsp = s.node.dsp)) ∧
  (∀ (r : Fin 32) (t : Nat) (s : State), s.node.up = true →
    (s.node.rg r.val).req = none ∨ rgOn (s.node.rgRec r.val) = false ∨ s.node.dsp.bias ≠ 2 ∨ s.node.isRun 9 = false ∨ s.node.acq = false
      ∨ ((s.node.rg r.val).run = true ∧ rgPrio (s.node.rgRec r.val) = false) →
    Ends (exec (.updateStart r t) s) (fun u => u.node.dsp = s.node.dsp))) ∧
  (
  (∀ (w : List (Nat × Nat)) (t : Nat) (s : State), s.node.up = true → s.node.dsp.bias = 2 → s.node.isRun 9 = true →
    s.node.dsp.scans < (t - s.node.dsp.scanAt) * pnFrate s.node.panel / 250000000 →
    let buf := fun k => ((w.foldl dspFlip s.node).rg k).buf
    Ends (exec (.frameScan w t) s) (fun u => u.node.dsp.vcom = s.node.dsp.vcomW ∧ u.node.dsp.frameNo = s.node.dsp.frameNo + 1
      ∧ u.node.dsp.scans = (t - s.node.dsp.scanAt) * pnFrate s.node.panel / 250000000
      ∧ (∀ k < 32, (s.node.rg k).run = true → (s.node.rg k).req = none → (s.node.rg k).queued = none → (s.node.rg k).dspAt = none →
          if (s.node.rg k).leff ≤ (s.node.rg k).frame + 1 then
            (u.node.rg k).run = false ∧ (u.node.rg k).cnt = ((s.node.rg k).cnt + 1) % 256 ∧ u.node.evt.flag 108 = true
          else (u.node.rg k).run = true ∧ (u.node.rg k).frame = (s.node.rg k).frame + 1 ∧ (u.node.rg k).img = (s.node.rg k).img)
      ∧ (∀ k < 32, rgOn (s.node.rgRec k) = true → (s.node.rg k).rendered = true →
          (u.node.rg k).corrupt = decide (crc32 (buf k) ≠ (s.node.rg k).crc)
          ∧ (crc32 (buf k) ≠ (s.node.rg k).crc → (u.node.rg k).corrSeen = true ∧ (u.node.rg k).redraw = true ∧ u.node.evt.flag 109 = true))
      ∧ (s.node.dsp.stopping = true → s.node.dsp.bg = none → (∀ k < 32, (s.node.rg k).run = false) →
          u.node.dsp.bias = 3 ∧ u.node.dsp.dis = 1 ∧ u.node.dsp.stopping = false))) ∧
  (∀ (w : List (Nat × Nat)) (t : Nat) (s : State), s.node.up = true →
    s.node.dsp.bias ≠ 2 ∨ s.node.isRun 9 = false ∨ (t - s.node.dsp.scanAt) * pnFrate s.node.panel / 250000000 ≤ s.node.dsp.scans →
    Ends (exec (.frameScan w t) s) (fun u => u.node.dsp = (w.foldl dspFlip s.node).dsp)))

/-- Bias rails (R439 to R441): BIAS_ON starts the rise, each step of 2 ms adds a rail and the fifth brings ON with an update of every
region; a fault cuts waveforms and discharges with event 110; the discharge takes the rails down in its order; BIAS_OFF lets running
waveforms complete first, and a rise that waits for the discharge's end is off. A step, a fault or a switch that finds nothing to do changes nothing. -/
def Obligations.BiasRails : Prop :=
  (∀ (p : HostPort) (t : Nat) (s : State), Takes s 0x7404 →
    (s.node.acq = true → s.node.hasLeg 0x0E = true → s.node.dsp.bias ≠ 1 → s.node.dsp.bias ≠ 2 →
      Ends (exec (.biasOn p t) s) (fun u => Acks u p 0x7404 ∧ u.node.dsp.bias = 1 ∧ u.node.dsp.riseAt = timeAfter s t
        ∧ u.node.dsp.riseStep = 0 ∧ u.node.dsp.rails = 0)) ∧
    (s.node.acq = false ∨ s.node.dsp.bias = 1 ∨ s.node.dsp.bias = 2 → Ends (exec (.biasOn p t) s) (fun u => Acks u p 0x7404 ∧
      u.node.dsp = { s.node.dsp with refused := true })) ∧
    (s.node.acq = true → s.node.dsp.bias = 1 → Ends (exec (.biasOff p t) s) (fun u => Acks u p 0x7404 ∧ u.node.dsp.bias = 3 ∧ u.node.dsp.dis = 1)) ∧
    (s.node.acq = true → s.node.dsp.bias = 2 → Ends (exec (.biasOff p t) s) (fun u => Acks u p 0x7404 ∧ u.node.dsp.bias = 2 ∧ u.node.dsp.stopping = true
      ∧ ∀ k < 32, (u.node.rg k).run = (s.node.rg k).run ∧ (u.node.rg k).req = none ∧ (u.node.rg k).queued = none))) ∧
  (∀ (t : Nat) (s : State), s.node.up = true →
    (s.node.dsp.bias = 1 → s.node.isRun 9 = true → s.node.dsp.riseAt + 500000 * (s.node.dsp.riseStep + 1) ≤ t →
      Ends (exec (.biasRiseStep t) s) (fun u => u.node.dsp.rails = s.node.dsp.rails + 2 ^ s.node.dsp.riseStep
        ∧ u.node.dsp.riseStep = s.node.dsp.riseStep + 1 ∧ (s.node.dsp.riseStep < 4 → u.node.dsp.bias = 1)
        ∧ (4 ≤ s.node.dsp.riseStep → u.node.dsp.bias = 2
            ∧ (s.node.acq = true → s.node.dsp.stopping = false → ∀ k < 32, rgOn (s.node.rgRec k) = true → (s.node.rg k).run = false →
                (u.node.rg k).req = some true)))) ∧
    (s.node.dsp.bias = 1 ∨ s.node.dsp.bias = 2 → Ends (exec (.biasFault t) s) (fun u => u.node.dsp.bias = 4 ∧ u.node.dsp.dis = 1
      ∧ u.node.evt.flag 110 = true ∧ ∀ k < 32, (u.node.rg k).run = false ∧ (u.node.rg k).req = none)) ∧
    (s.node.dsp.dis = 1 → Ends (exec (.dischargeStep t) s) (fun u => u.node.dsp = { s.node.dsp with dis := 2 })) ∧
    (s.node.dsp.dis = 2 → Ends (exec (.dischargeStep t) s) (fun u => u.node.dsp = { s.node.dsp with dis := 3, rails := Nat.land s.node.dsp.rails 5 })) ∧
    (s.node.dsp.dis = 3 → Ends (exec (.dischargeStep t) s) (fun u => u.node.dsp = { s.node.dsp with dis := 4, rails := Nat.land s.node.dsp.rails 1 })) ∧
    (s.node.dsp.dis = 4 → s.node.dsp.want = false → Ends (exec (.dischargeStep t) s) (fun u =>
      u.node.dsp = { s.node.dsp with dis := 0, rails := 0, bias := if s.node.dsp.bias = 4 then 4 else 0 }))) ∧
  (∀ (p : HostPort) (t : Nat) (s : State), Takes s 0x7404 →
    (s.node.acq = true → s.node.hasLeg 0x0E = false → s.node.dsp.bias ≠ 1 → s.node.dsp.bias ≠ 2 →
      Ends (exec (.biasOn p t) s) (fun u => Acks u p 0x7404 ∧ u.node.dsp = s.node.dsp)) ∧
    (s.node.acq = true → s.node.dsp.bias ≠ 1 → s.node.dsp.bias ≠ 2 →
      Ends (exec (.biasOff p t) s) (fun u => Acks u p 0x7404 ∧ u.node.dsp = { s.node.dsp with want := false })) ∧
    (s.node.acq = false → Ends (exec (.biasOff p t) s) (fun u => Acks u p 0x7404 ∧ u.node.dsp = { s.node.dsp with refused := true }))) ∧
  (∀ (t : Nat) (s : State), s.node.up = true →
    (s.node.dsp.bias ≠ 1 ∨ s.node.isRun 9 = false ∨ t < s.node.dsp.riseAt + 500000 * (s.node.dsp.riseStep + 1) →
      Ends (exec (.biasRiseStep t) s) (fun u => u.node.dsp = s.node.dsp)) ∧
    (s.node.dsp.bias ≠ 1 → s.node.dsp.bias ≠ 2 → Ends (exec (.biasFault t) s) (fun u => u.node.dsp = s.node.dsp)) ∧
    (s.node.dsp.dis = 4 → s.node.dsp.want = true → s.node.acq = true → s.node.isRun 9 = true → Ends (exec (.dischargeStep t) s) (fun u =>
      u.node.dsp.bias = 1 ∧ u.node.dsp.riseAt = t ∧ u.node.dsp.rails = 0 ∧ u.node.dsp.riseStep = 0 ∧ u.node.dsp.dis = 0)) ∧
    (s.node.dsp.dis = 4 → s.node.acq = false ∨ s.node.isRun 9 = false → Ends (exec (.dischargeStep t) s) (fun u =>
      u.node.dsp = { s.node.dsp with dis := 0, rails := 0, bias := if s.node.dsp.bias = 4 then 4 else 0 })) ∧
    (s.node.dsp.dis = 0 ∨ 4 < s.node.dsp.dis → Ends (exec (.dischargeStep t) s) (fun u => u.node.dsp = s.node.dsp)))

/-- Link and settling of roles (R445 to R449): HELLO fixes the common version with event 114, or none; a beacon brings its lane up and
tells the partner's eligibility; a silent lane goes down, and a link down for 200 µs is lost with events 16 and 113 and leaves an
ACTIVE module ALONE; the wait for the partner ends in the preferred bank, FIND_T in a role. With I8 off no frame counts, and a time
that is not up, a lane already down or a link already lost changes nothing. -/
def Obligations.LinkAndRoles : Prop :=
  (∀ (h : SlHello) (t : Nat) (s : State), s.node.up = true → s.node.straitOn = true →
    Ends (exec (.slHello h t) s) (fun u => u.node.dup.pRev = h.rev ∧ u.node.dup.pOcrc = h.ocrc ∧ u.node.dup.pGen = h.gens
      ∧ u.node.dup.hello = true ∧ u.node.evt.flag 114 = true
      ∧ (if max 1 h.minVer.toNat ≤ min (maxVersion s.node.rev) h.maxVer.toNat then
           u.node.dup.pver = min (maxVersion s.node.rev) h.maxVer.toNat ∧ u.node.dup.verBad = false
             ∧ (h.maxVer.toNat < maxVersion s.node.rev → u.node.evt.flag 117 = true)
         else u.node.dup.pver = 0 ∧ u.node.dup.verBad = true)
      ∧ (s.node.dev.st = .boot → s.node.dup.waitHello = true → u.node.dup.waitHello = false ∧ u.node.ld.sel = .partner)
      ∧ (∀ g, h.role = 0xFF#8 → s.node.dup.roleOut = true → s.node.pair = true → s.node.ld.img = some g →
          { chan := .strait, dest := 8, bytes := if h.fmtAcc.getLsbD g.fmt then leBytes 4 g.ocrc.toNat else [] } ∈ u.node.tx))) ∧
  (∀ (lane ready elig roleIn : Bool) (t : Nat) (s : State), s.node.up = true → s.node.straitOn = true →
    Ends (exec (.slBeacon lane ready elig roleIn t) s) (fun u => (if lane then u.node.dup.lane1 else u.node.dup.lane0) = true
      ∧ (if lane then u.node.dup.last1 else u.node.dup.last0) = t ∧ u.node.dup.lost = false ∧ u.node.dup.roleIn = roleIn
      ∧ u.node.dup.pElig = elig ∧ (s.node.dup.pElig = true → elig = false → u.node.evt.flag 113 = true)
      ∧ (s.node.pair = true → s.node.dup.pElig = false → elig = true → s.node.dup.role = .alone → s.node.dup.roleOut = true →
          u.node.dup.role = .active ∧ u.node.evt.flag 112 = true))) ∧
  (∀ (t : Nat) (s : State), s.node.up = true →
    (s.node.dup.lane0 = true → Ends (exec (.linkLaneDown false t) s) (fun u => u.node.dup.lane0 = decide (t < s.node.dup.last0 + 12500)
      ∧ u.node.dup.lane1 = s.node.dup.lane1)) ∧
    (s.node.dup.lane1 = true → Ends (exec (.linkLaneDown true t) s) (fun u => u.node.dup.lane1 = decide (t < s.node.dup.last1 + 12500)
      ∧ u.node.dup.lane0 = s.node.dup.lane0)) ∧
    (s.node.islSt 8 = .run → s.node.dup.lost = false → s.node.dup.lane0 = false → s.node.dup.lane1 = false →
      max s.node.dup.last0 s.node.dup.last1 + 62500 ≤ t →
      Ends (exec (.linkLost t) s) (fun u => u.node.dup.lost = true ∧ u.node.dup.hello = false ∧ u.node.dup.pElig = false
        ∧ u.node.islSt 8 = .fault ∧ u.node.evt.flag 113 = true ∧ u.node.evt.flag 16 = true
        ∧ u.node.dup.role = (if s.node.dup.role = .active then .alone else s.node.dup.role)))) ∧
  (∀ (lane : Bool) (t : Nat) (s : State), s.node.up = true → s.node.straitOn = true →
    (if lane then s.node.dup.slErr1 else s.node.dup.slErr0) < 0xFFFF →
    Ends (exec (.slFrameCrcError lane t) s) (fun u => (if lane then u.node.dup.slErr1 else u.node.dup.slErr0)
        = (if lane then s.node.dup.slErr1 else s.node.dup.slErr0) + 1)) ∧
  (∀ (t : Nat) (s : State), s.node.dev.st = .boot → s.node.dev.pinLow = false → s.node.dup.waitHello = true → 12500000 ≤ t →
    Ends (exec (.partnerWaitTimeout t) s) (fun u => u.node.dup.waitHello = false ∧ u.node.dev.st = .boot
      ∧ u.node.ld.sel = (if s.node.ld.prefB then LoadSrc.bankB else LoadSrc.bankA))) ∧
  (∀ (r : Bool) (a t : Nat) (s : State), s.node.up = true → s.node.dup.findAt = some a → a ≤ t →
    Ends (exec (.findTimeout r t) s) (fun u => u.node.dup.findAt = none
      ∧ (if findsFirst s.node then (if s.node.dup.foundReady then u.node.dup.role = .active else u.node.dup.role = .alone) ∧ u.node.dup.roleOut = true
         else if r || s.node.dup.foundReady then u.node.dup.role = .standby ∧ u.node.dup.roleOut = false
         else u.node.dup.role = .alone ∧ u.node.dup.roleOut = true))) ∧
  (∀ (h : SlHello) (lane ready elig roleIn : Bool) (t : Nat) (s : State), s.node.up = true → s.node.straitOn = false →
    Ends (exec (.slHello h t) s) (DupStays s) ∧ Ends (exec (.slBeacon lane ready elig roleIn t) s) (DupStays s)
      ∧ Ends (exec (.slFrameCrcError lane t) s) (DupStays s) ∧ Ends (exec (.linkLost t) s) (DupStays s)) ∧
  (∀ (lane : Bool) (t : Nat) (s : State), s.node.up = true →
    ((if lane then s.node.dup.lane1 else s.node.dup.lane0) = false → Ends (exec (.linkLaneDown lane t) s) (DupStays s)) ∧
    (s.node.straitOn = true → (if lane then s.node.dup.slErr1 else s.node.dup.slErr0) = 0xFFFF →
      Ends (exec (.slFrameCrcError lane t) s) (DupStays s)) ∧
    (s.node.dup.lost = true ∨ s.node.dup.lane0 = true ∨ s.node.dup.lane1 = true ∨ t < max s.node.dup.last0 s.node.dup.last1 + 62500 →
      Ends (exec (.linkLost t) s) (fun u => DupStays s u ∧ u.node.isl = s.node.isl)) ∧
    (s.node.dev.st ≠ .boot ∨ s.node.dup.waitHello = false ∨ t < 12500000 →
      Ends (exec (.partnerWaitTimeout t) s) (fun u => DupStays s u ∧ u.node.ld = s.node.ld)) ∧
    (∀ r : Bool, s.node.dup.findAt.all (fun a => decide (t < a)) = true → Ends (exec (.findTimeout r t) s) (DupStays s)))

/-- What the partner sends (R448, R451 to R453): a MIRROR waits for the tick and counts where it fails its CRC; OUTCMD and SEQSTEP change
the STANDBY's copies; an image is checked and applied, its live legs wait; a forwarded write is performed and answered, an answer
ends the access that waits. What comes to a module that is no STANDBY, outside the wait for an image, or over a link that is not
up changes nothing. -/
def Obligations.PartnerData : Prop :=
  (∀ (lane : Bool) (m : Mirror) (t : Nat) (s : State), s.node.up = true → s.node.straitOn = true → s.node.dup.role = .standby →
    (diverges m s.node = false → Ends (exec (.slMirror lane (some m) t) s) (fun u => u.node.mir.pend = some m ∧ u.node.mir.got = true
      ∧ u.node.dup.consecDiv = 0 ∧ u.node.dup.divIneligible = false)) ∧
    (diverges m s.node = true → Ends (exec (.slMirror lane (some m) t) s) (fun u => u.node.mir.pend = some m
      ∧ u.node.dup.mirDiv = s.node.dup.mirDiv + 1#32 ∧ u.node.dup.consecDiv = s.node.dup.consecDiv + 1 ∧ u.node.evt.flag 116 = true)) ∧
    Ends (exec (.slMirror lane none t) s) (fun u => u.node.mir.pend = s.node.mir.pend ∧ u.node.dup.mirDiv = s.node.dup.mirDiv + 1#32
      ∧ u.node.evt.flag 116 = true ∧ (dupDivLimit s.node ≤ s.node.dup.consecDiv + 1 → u.node.dup.divIneligible = true))) ∧
  (∀ (t : Nat) (s : State), s.node.up = true → s.node.straitOn = true → s.node.dup.role = .standby →
    (∀ (k : Fin 32) (on : Bool), doSrc (s.node.recOf 0x0A k.val) = 0 →
      Ends (exec (.slOutcmd (.dout k on) t) s) (fun u => (u.node.doC k.val).cmd = on)) ∧
    (∀ (k : Fin 16) (d : Int), loSrc (s.node.recOf 5 k.val) = 0 →
      Ends (exec (.slOutcmd (.lo k d) t) s) (fun u => (u.node.loC k.val).demand = d)) ∧
    (∀ (k : Fin 8) (d : Int), poSrc (s.node.recOf 0x0F k.val) = 0 →
      Ends (exec (.slOutcmd (.po k d) t) s) (fun u => (u.node.poC k.val).set = d)) ∧
    (∀ (k : Fin 16) (on : Bool) (v : Fin 3), Ends (exec (.slOutcmd (.ex k on v) t) s) (fun u =>
      (u.node.exC k.val).on = on ∧ (u.node.exC k.val).vset = v.val)) ∧
    (∀ (k : Fin 6) (on : Bool), Ends (exec (.slOutcmd (.ss k on) t) s) (fun u => (u.node.ssC k.val).on = on)) ∧
    (∀ (q : Fin 8) (step : Nat), Ends (exec (.slSeqstep q step t) s) (fun u => (u.node.sq q.val).step = step
      ∧ (u.node.sq q.val).prev = (s.node.sq q.val).step ∧ (u.node.sq q.val).v = (s.node.sq q.val).v
      ∧ { chan := .strait, dest := 5, bytes := [BitVec.ofNat 8 q.val] } ∈ u.node.tx))) ∧
  (∀ (t : Nat) (s : State), s.node.up = true →
    (∀ (bs : Bytes) (g h : Image), s.node.dev.st = .boot → s.node.ld.sel = .partner → loadImage bs = .ok g → verifyImage s.node.ld.lock g = .ok h →
      Ends (exec (.slImage false (some bs) t) s) (fun u => u.node.dev.st = .calibrate ∧ u.node.ld.img = some h ∧ u.node.ld.src = 4
        ∧ u.node.evt.flag 1 = true ∧ u.mem = s.mem)) ∧
    (s.node.dev.st = .boot → s.node.ld.sel = .partner → Ends (exec (.slImage false none t) s) (fun u => u.node.dev.st = .boot
        ∧ u.node.ld.err = { src := 4, leg := 0, code := 0x12 } ∧ u.node.ld.sel = (if s.node.ld.prefB then LoadSrc.bankB else LoadSrc.bankA))) ∧
    (∀ bs : Bytes, s.node.dev.st = .load ∨ s.node.dev.st = .verify ∨ s.node.dev.st = .calibrate →
      Ends (exec (.slImage true (some bs) t) s) (fun u => u.mem.liveEnd = bs.length ∧ (∀ i < bs.length, tget 0#8 u.mem.live i = bs.getD i 0#8)
        ∧ u.node.ld.partnerLive = true ∧ u.node.ld.img = s.node.ld.img))) ∧
  (∀ (t : Nat) (s : State), s.node.up = true → s.node.straitOn = true → linkUp s.node = true →
    (∀ (p : HostPort) (k : Fin 16) (v : Word), s.node.dup.role ≠ .standby → s.node.isRun 5 = true →
      Ends (exec (.slFwd (.write p (BitVec.ofNat 15 (0x380C + 0x40 * k.val)) v) t) s) (fun u => (u.node.loC k.val).demand = v.toInt
        ∧ { chan := .strait, dest := 9, bytes := [0#8] } ∈ u.node.tx)) ∧
    (∀ (p : HostPort) (r : List FwdOrg) (st : Byte), s.node.net.fwds = .port p :: r →
      Ends (exec (.slFwd (.answer st) t) s) (fun u => u.node.net.fwds = r
        ∧ (u.node.port p).ans = { (s.node.port p).ans with status := st.toNat }))) ∧
  (∀ (f : FwdMsg) (t : Nat) (s : State), s.node.up = true → s.node.straitOn = false ∨ linkUp s.node = false →
    Ends (exec (.slFwd f t) s) (fun u => u.mem = s.mem ∧ u.node.net.fwds = s.node.net.fwds ∧ u.node.ports = s.node.ports)) ∧
  (∀ (lane : Bool) (m : Option Mirror) (c : OutCmd) (q : Fin 8) (step t : Nat) (s : State), s.node.up = true →
    s.node.straitOn = false ∨ s.node.dup.role ≠ .standby →
    Ends (exec (.slMirror lane m t) s) (fun u => u.node.mir = s.node.mir ∧ u.node.dup.mirDiv = s.node.dup.mirDiv)
      ∧ Ends (exec (.slOutcmd c t) s) (fun u => u.node.lo = s.node.lo ∧ u.node.po = s.node.po ∧ u.node.ex = s.node.ex ∧ u.node.dig.ss = s.node.dig.ss
          ∧ ∀ k, (u.node.doC k).cmd = (s.node.doC k).cmd)
      ∧ Ends (exec (.slSeqstep q step t) s) (fun u => u.node.seq = s.node.seq)) ∧
  (∀ (bs : Bytes) (e : RmFail) (t : Nat) (s : State), s.node.up = true → s.node.dev.st = .boot → s.node.ld.sel = .partner →
    let failed (u : State) := u.node.dev.st = .boot ∧ u.node.ld.err = { src := 4, leg := e.leg, code := e.code } ∧ u.node.ld.sel = (if s.node.ld.prefB then LoadSrc.bankB else LoadSrc.bankA) ∧ u.node.evt.flag 2 = true ∧ u.mem = s.mem
    (loadImage bs = .error e → Ends (exec (.slImage false (some bs) t) s) failed) ∧
    (∀ g : Image, loadImage bs = .ok g → verifyImage s.node.ld.lock g = .error e → Ends (exec (.slImage false (some bs) t) s) failed)) ∧
  (∀ (i : Option Bytes) (t : Nat) (s : State), s.node.up = true →
    (s.node.dev.st ≠ .boot ∨ s.node.ld.sel ≠ .partner → Ends (exec (.slImage false i t) s) (fun u => u.node.ld = s.node.ld ∧ u.mem = s.mem)) ∧
    (s.node.dev.st ≠ .load → s.node.dev.st ≠ .verify → s.node.dev.st ≠ .calibrate →
      Ends (exec (.slImage true i t) s) (fun u => u.node.ld = s.node.ld ∧ u.mem = s.mem))) ∧
  (∀ (t : Nat) (s : State), s.node.up = true → s.node.straitOn = true → s.node.dup.role = .standby →
    (∀ (k : Fin 32) (on : Bool), doSrc (s.node.recOf 0x0A k.val) = 1 →
      Ends (exec (.slOutcmd (.dout k on) t) s) (fun u => (u.node.doC k.val).tpOn = on ∧ (u.node.doC k.val).laneOff = false)) ∧
    (∀ (k : Fin 32) (on : Bool), doSrc (s.node.recOf 0x0A k.val) = 2 →
      Ends (exec (.slOutcmd (.dout k on) t) s) (fun u => (u.node.doC k.val).ws = on)) ∧
    (∀ (k : Fin 16) (d : Int), loSrc (s.node.recOf 5 k.val) = 1 →
      Ends (exec (.slOutcmd (.lo k d) t) s) (fun u => (u.node.loC k.val).laneD = d ∧ (u.node.loC k.val).laneOff = false)) ∧
    (∀ (k : Fin 8) (d : Int), poSrc (s.node.recOf 0x0F k.val) = 1 →
      Ends (exec (.slOutcmd (.po k d) t) s) (fun u => (u.node.poC k.val).laneD = d ∧ (u.node.poC k.val).laneOff = false))) ∧
  (∀ (t : Nat) (s : State), s.node.up = true → s.node.straitOn = true → linkUp s.node = true →
    (∀ (p : HostPort) (a : BitVec 15) (v : Word), Ends (exec (.slFwd (.write p a v) t) s) (fun u =>
      { chan := .strait, dest := 9, bytes := [BitVec.ofNat 8 (partnerWrite p a.toNat v s.mem (s.node.advance t)).st] } ∈ u.node.tx)) ∧
    (∀ st : Byte, s.node.net.fwds = [] → Ends (exec (.slFwd (.answer st) t) s) (fun u => u.node.net.fwds = [] ∧ u.node.ports = s.node.ports)))

/-- Taking control (R454 to R459): a STANDBY that is eligible takes the plant when its partner stands down or its role line falls: role
ALONE, SL_ROLE_OUT high, overlap running; one that is not eligible does not; the overlap ends in the release pulse and the
cross-ramp; released latches let go, unreleased ones fall to the safe states after 5 ms. A partner that stands down leaves an ACTIVE
module ALONE, and one that carries the plant resets it 1 s later where REJOIN is set. A time that is not up changes nothing.

Checks that stand a module down (R454, R455, R467): an image that fails its check brings an unpaired module into SAFE with cause 5, a
STANDBY or an ACTIVE module with an eligible partner also out of its role; one that holds changes no role; a failed vector is counted
and fails its engine. Where neither check runs, its result changes nothing. -/
def Obligations.TakingAndLosingControl : Prop :=
  (
  (∀ (t : Nat) (s : State), s.node.up = true → s.node.dup.role = .standby → s.node.straitOn = true →
    ∀ x ∈ [Instr.roleInLow t, .slStandDown t],
    (eligible (s.node.advance t) = true → Ends (exec x s) (fun u => u.node.dup.role = .alone ∧ u.node.dup.roleOut = true
      ∧ u.node.dup.overlap = some (t + 2500) ∧ u.node.dup.swapCnt = s.node.dup.swapCnt + 1#32 ∧ u.node.evt.flag 112 = true
      ∧ u.node.dup.plan = none)) ∧
    (eligible (s.node.advance t) = false → Ends (exec x s) (fun u => u.node.dup.role = .standby ∧ u.node.dup.roleOut = s.node.dup.roleOut
      ∧ u.node.dup.overlap = s.node.dup.overlap))) ∧
  (∀ (a t : Nat) (s : State), s.node.up = true → a ≤ t →
    (s.node.dup.overlap = some a → Ends (exec (.overlapEnd t) s) (fun u => u.node.dup.overlap = none ∧ u.node.dup.crossRamp = some (t + 25000)
      ∧ { chan := .strait, dest := 0x20, bytes := [] } ∈ u.node.tx)) ∧
    (s.node.dup.crossRamp = some a → Ends (exec (.crossRampComplete t) s) (fun u => u.node.dup.crossRamp = none))) ∧
  (∀ (t : Nat) (s : State), s.node.up = true →
    Ends (exec (.relInPulse t) s) (fun u => u.node.dup.latched = false ∧ u.node.dup.unreleased = s.node.dup.unreleased
      ∧ (s.node.dup.latched = true → u.node.dup.relAt = some (timeAfter s t)))) ∧
  (∀ (t : Nat) (s : State), s.node.up = true → s.node.dup.latched = true → s.node.dup.latchAt + 1250000 ≤ t →
    Ends (exec (.holdLatchTimeout t) s) (fun u => u.node.dup.latched = false
      ∧ u.node.dup.unreleased = (s.node.dup.role == .standby && s.node.applied))) ∧
  (∀ (t : Nat) (s : State), s.node.up = true → s.node.straitOn = true → s.node.dup.role ≠ .standby →
    Ends (exec (.slStandDown t) s) (fun u => u.node.dup.pElig = false
      ∧ (s.node.pair = true → s.node.dup.role = .active → u.node.dup.role = .alone ∧ (s.node.dup.pElig = true → u.node.evt.flag 113 = true))
      ∧ (s.node.pair = true → s.node.dup.role = .alone → s.node.dup.roleOut = true → dupRejoin s.node = true →
          u.node.dup.rejoinAt = some (t + 250000000)))) ∧
  (∀ (t : Nat) (s : State), s.node.up = true →
    (s.node.dup.overlap.all (fun a => decide (t < a)) = true → Ends (exec (.overlapEnd t) s) (DupStays s)) ∧
    (s.node.dup.crossRamp.all (fun a => decide (t < a)) = true → Ends (exec (.crossRampComplete t) s) (DupStays s)) ∧
    (s.node.dup.latched = false ∨ t < s.node.dup.latchAt + 1250000 → Ends (exec (.holdLatchTimeout t) s) (DupStays s)) ∧
    (s.node.straitOn = false → Ends (exec (.slStandDown t) s) (DupStays s)) ∧
    (s.node.dup.role ≠ .standby → Ends (exec (.roleInLow t) s) (fun u => u.node.dup.role = s.node.dup.role ∧ u.node.dup.roleOut = s.node.dup.roleOut
      ∧ u.node.dup.overlap = s.node.dup.overlap ∧ u.node.dup.roleIn = false)))) ∧
  (
  (∀ (t : Nat) (s : State), s.node.up = true → s.node.acq = true ∨ s.node.dev.st = .calibrate →
    (s.node.pair = false → Ends (exec (.imageCheck false t) s) (fun u => u.node.dev.st = .safe ∧ u.node.dev.safeCause = 5
      ∧ u.node.dup.role = s.node.dup.role)) ∧
    (s.node.pair = true → s.node.dup.role = .standby ∨ (s.node.dup.role = .active ∧ s.node.dup.pElig = true) →
      Ends (exec (.imageCheck false t) s) (fun u => u.node.dev.st = .safe ∧ u.node.dev.safeCause = 5 ∧ u.node.dup.role = .standby
        ∧ u.node.dup.roleOut = false ∧ u.node.dup.stoodDown = true ∧ u.node.evt.flag 118 = true
        ∧ { chan := .strait, dest := 6, bytes := [] } ∈ u.node.tx)) ∧
    Ends (exec (.imageCheck true t) s) (fun u => u.node.dup.role = s.node.dup.role ∧ u.node.ld = s.node.ld
      ∧ u.node.running = s.node.running ∧ u.node.time.devtime = timeAfter s t)) ∧
  (∀ (w t : Nat) (s : State), s.node.up = true → s.node.acq = true ∨ s.node.dev.st = .calibrate ∨ s.node.dev.st = .safe →
    s.node.dtr.stest ≠ 0xFFFFFFFF#32 →
    (16 ≤ w → Ends (exec (.selfTestVector w false t) s) (fun u => u.node.dtr = { s.node.dtr with stest := s.node.dtr.stest + 1#32 })) ∧
    (w < 16 → s.node.applied = true → s.node.isl.roles.length = 16 → (s.node.isl.roles.getD w 0#8).toNat < 0xE0 →
      Ends (exec (.selfTestVector w false t) s) (fun u => u.node.dtr.stest = s.node.dtr.stest + 1#32 ∧ bitOf u.node.dtr.engRun w = true
        ∧ (u.node.isl.roles.getD w 0#8).toNat = 0xF0 + (s.node.isl.roles.getD w 0#8).toNat % 16)) ∧
    Ends (exec (.selfTestVector w true t) s) (fun u => u.node.dtr = s.node.dtr ∧ u.node.isl = s.node.isl)) ∧
  (∀ (t : Nat) (s : State), s.node.up = true →
    (s.node.acq = true ∨ s.node.dev.st = .calibrate → s.node.pair = true → s.node.dup.role = .active → s.node.dup.pElig = false →
      Ends (exec (.imageCheck false t) s) (fun u => u.node.dev.st = .safe ∧ u.node.dev.safeCause = 5 ∧ u.node.dup.role = .alone
        ∧ u.node.evt.flag 118 = true)) ∧
    (s.node.acq = true ∨ s.node.dev.st = .calibrate → s.node.pair = true → s.node.dup.role = .alone →
      Ends (exec (.imageCheck false t) s) (fun u => u.node.dev.st = .safe ∧ u.node.dev.safeCause = 5 ∧ u.node.dup.role = .alone)) ∧
    (s.node.acq = false → s.node.dev.st ≠ .calibrate → Ends (exec (.imageCheck false t) s) (fun u => u.node.dev = s.node.dev ∧ u.node.dup.role = s.node.dup.role)) ∧
    (∀ w : Nat, s.node.acq = false → s.node.dev.st ≠ .calibrate → s.node.dev.st ≠ .safe →
      Ends (exec (.selfTestVector w false t) s) (fun u => u.node.dtr = s.node.dtr ∧ u.node.isl = s.node.isl)) ∧
    (∀ w : Nat, s.node.acq = true ∨ s.node.dev.st = .calibrate ∨ s.node.dev.st = .safe → 16 ≤ w → s.node.dtr.stest = 0xFFFFFFFF#32 →
      Ends (exec (.selfTestVector w false t) s) (fun u => u.node.dtr = s.node.dtr))))

/-- Planned swaps and resets by the partner (R460, R462, R463): a proposal that both modules can keep is agreed with event 115, another
refused with SWAP_SKIP; at its tick the outgoing module becomes STANDBY behind its hold latches; a home unit reclaims; a reset by
the partner is obeyed only where R463 allows it. A swap already under way is not proposed again, and a time or an answer that nothing
waits for changes nothing. -/
def Obligations.PlannedSwaps : Prop :=
  (∀ (t : Nat) (s : State), s.node.up = true → s.node.straitOn = true → s.node.pair = true →
    (∀ (r b : Bool) (c : Nat),
      (swapOk (s.node.advance t) c = true → b = false → s.node.dup.plan = none → Ends (exec (.slSwap (.propose r c b) t) s) (fun u =>
        u.node.dup.plan.isSome = true ∧ u.node.evt.flag 115 = true
        ∧ ∀ p, u.node.dup.plan = some p → timeAfter s t + 25000000 ≤ p.at_ ∧ p.at_ % 250000 = 0 ∧ p.outgoing = (s.node.dup.role != .standby))) ∧
      (swapOk (s.node.advance t) c = false ∨ b = true ∨ s.node.dup.plan ≠ none → Ends (exec (.slSwap (.propose r c b) t) s) (fun u =>
        u.node.dup.swapSkip = true ∧ u.node.dup.plan = s.node.dup.plan ∧ { chan := .strait, dest := 7, bytes := [3#8] } ∈ u.node.tx))) ∧
    (∀ (r q : Bool), s.node.dup.proposed = some q →
      Ends (exec (.slSwap (.agree r) t) s) (fun u => u.node.dup.plan.isSome = true ∧ u.node.dup.proposed = none ∧ u.node.evt.flag 115 = true) ∧
      Ends (exec (.slSwap .refuse t) s) (fun u => u.node.dup.swapSkip = true ∧ u.node.dup.proposed = none ∧ u.node.dup.plan = s.node.dup.plan))) ∧
  (∀ (p : HostPort) (t : Nat) (s : State), Takes s 0x7804 →
    (s.node.pair = true → s.node.dup.role ≠ .alone → s.node.dup.plan = none → s.node.dup.proposed = none →
      (swapOk (s.node.advance t) (dupCleanT s.node) = true → Ends (exec (.swapCmd p t) s) (fun u => Acks u p 0x7804
        ∧ u.node.dup.proposed = some false ∧ u.node.dup.role = s.node.dup.role)) ∧
      (swapOk (s.node.advance t) (dupCleanT s.node) = false → Ends (exec (.swapCmd p t) s) (fun u => Acks u p 0x7804 ∧ u.node.dup.swapSkip = true
        ∧ u.node.dup.proposed = none))) ∧
    (s.node.pair = false ∨ s.node.dup.role = .alone → Ends (exec (.swapCmd p t) s) (fun u => Acks u p 0x7804 ∧ u.node.dup.cmdRefused = true
        ∧ u.node.dup.proposed = s.node.dup.proposed)) ∧
    (s.node.pair = true → linkUp s.node = true → Ends (exec (.partnerReset p t) s) (fun u => Acks u p 0x7804
        ∧ { chan := .strait, dest := 10, bytes := [] } ∈ u.node.tx ∧ u.node.dup.cmdRefused = s.node.dup.cmdRefused)) ∧
    (s.node.pair = false ∨ linkUp s.node = false → Ends (exec (.partnerReset p t) s) (fun u => Acks u p 0x7804 ∧ u.node.dup.cmdRefused = true))) ∧
  (∀ (pl : SwapPlan) (t : Nat) (s : State), s.node.up = true → s.node.dup.plan = some pl → pl.outgoing = true → pl.at_ ≤ t →
    s.node.dup.role = .active → s.node.dup.pElig = true →
    Ends (exec (.swapExecute t) s) (fun u => u.node.dup.role = .standby ∧ u.node.dup.roleOut = false ∧ u.node.dup.latched = true
      ∧ u.node.dup.latchAt = timeAfter s t ∧ u.node.dup.plan = none ∧ u.node.evt.flag 112 = true)) ∧
  (∀ (t : Nat) (s : State), s.node.up = true → reclaimDue (s.node.advance t) = true → dupReclaim s.node = 1 → s.node.dup.plan = none →
    s.node.dup.proposed = none → s.node.dup.hello = true → svBusy s.node = false →
    Ends (exec (.reclaimCmd t) s) (fun u => u.node.dup.proposed = some true ∧ u.node.dup.role = .standby)) ∧
  (∀ (a t : Nat) (s : State), s.node.up = true → s.node.dup.rejoinAt = some a → a ≤ t →
    Ends (exec (.rejoinReset t) s) (fun u => u.node.dup.rejoinAt = none
      ∧ (s.node.dup.role = .alone → { chan := .strait, dest := 10, bytes := [] } ∈ u.node.tx))) ∧
  (∀ (r : Bool) (t : Nat) (s : State), s.node.up = true →
    (peerResetOk (s.node.advance t) = true → Ends (exec (.slReset r t) s) (fun u => Booted 5 s u)) ∧
    (peerResetOk (s.node.advance t) = false → Ends (exec (.slReset r t) s) (fun u => u = s))) ∧
  (∀ (p : HostPort) (t : Nat) (s : State), Takes s 0x7804 → s.node.pair = true → s.node.dup.role ≠ .alone →
    s.node.dup.plan ≠ none ∨ s.node.dup.proposed ≠ none →
    Ends (exec (.swapCmd p t) s) (fun u => Acks u p 0x7804 ∧ u.node.dup.plan = s.node.dup.plan ∧ u.node.dup.proposed = s.node.dup.proposed
      ∧ u.node.dup.swapSkip = s.node.dup.swapSkip ∧ u.node.dup.cmdRefused = s.node.dup.cmdRefused)) ∧
  (∀ (t : Nat) (s : State), s.node.up = true →
    (∀ pl : SwapPlan, s.node.dup.plan = some pl → pl.outgoing = true → pl.at_ ≤ t → s.node.dup.role ≠ .active ∨ s.node.dup.pElig = false →
      Ends (exec (.swapExecute t) s) (fun u => u.node.dup.role = s.node.dup.role ∧ u.node.dup.plan = none ∧ u.node.dup.swapSkip = true)) ∧
    (s.node.dup.plan.all (fun x => !x.outgoing || decide (t < x.at_)) = true → Ends (exec (.swapExecute t) s) (DupStays s)) ∧
    (reclaimDue (s.node.advance t) = false ∨ dupReclaim s.node ≠ 1 → Ends (exec (.reclaimCmd t) s) (DupStays s)) ∧
    (s.node.dup.rejoinAt.all (fun a => decide (t < a)) = true → Ends (exec (.rejoinReset t) s) (DupStays s)) ∧
    (∀ m : SwapMsg, s.node.straitOn = false ∨ s.node.pair = false → Ends (exec (.slSwap m t) s) (DupStays s)) ∧
    (∀ r : Bool, s.node.dup.proposed = none → Ends (exec (.slSwap (.agree r) t) s) (DupStays s)) ∧
    (s.node.dup.proposed = none → Ends (exec (.slSwap .refuse t) s) (DupStays s)))

/-- Firmware (R464): words are staged at FW_ADDR, which moves on; a relayed image fills the staging area; an install of an image whose
CRC holds runs and ends in FW_STAT 3, or 5 where the flash fails; one whose CRC fails gives FW_STAT 4; activation resets into the
new firmware, and is refused while the module carries the plant in RUN or DEGRADED. A relay that is not taken and an end that nothing
waits for change nothing. -/
def Obligations.Firmware : Prop :=
  (∀ (p : HostPort) (v : Word) (s : State), Takes s 0x7844 →
    (s.node.dup.fwRun = false → Ends (exec (.fwDataWrite p v) s) (fun u => Acks u p 0x7844 ∧ memWord 0#8 u.mem.fw s.node.dup.fwAddr = v
      ∧ (∀ a, a < s.node.dup.fwAddr ∨ s.node.dup.fwAddr + 4 ≤ a → tget 0#8 u.mem.fw a = tget 0#8 s.mem.fw a)
      ∧ { u.mem with fw := s.mem.fw } = s.mem ∧ u.node.dup.fwAddr = (s.node.dup.fwAddr + 4) % 0x800000
      ∧ u.node.dup.fwEnd = max s.node.dup.fwEnd (s.node.dup.fwAddr + 4) ∧ u.node.dup.fwStat = 1)) ∧
    (s.node.dup.fwRun = true → Ends (exec (.fwDataWrite p v) s) (fun u => Acks u p 0x7844 ∧ u.mem = s.mem ∧ u.node.dup.cmdRefused = true
      ∧ u.node.dup.fwAddr = s.node.dup.fwAddr))) ∧
  (∀ (img : Bytes) (t : Nat) (s : State), s.node.up = true → s.node.straitOn = true → 2 ≤ s.node.dup.pver → s.node.dup.fwRun = false →
    img.length ≤ 0x800000 →
    Ends (exec (.slFwimg img t) s) (fun u => u.node.dup.fwEnd = img.length ∧ u.node.dup.fwStat = 1
      ∧ ∀ i, tget 0#8 u.mem.fw i = img.getD i 0#8)) ∧
  (∀ (p : HostPort) (t : Nat) (s : State), Takes s 0x7804 →
    let image := memBytes 0#8 s.mem.fw 0 s.node.dup.fwEnd
    (s.node.dup.fwStat ∈ [1, 4, 5] → 4 < image.length → crc32 (image.take (image.length - 4)) = w32 image (image.length - 4) →
      Ends (exec (.fwInstall p t) s) (fun u => Acks u p 0x7804 ∧ u.node.dup.fwStat = 2 ∧ u.node.dup.fwRun = true ∧ u.mem = s.mem)) ∧
    (s.node.dup.fwStat ∈ [1, 4, 5] → ¬ (4 < image.length ∧ crc32 (image.take (image.length - 4)) = w32 image (image.length - 4)) →
      Ends (exec (.fwInstall p t) s) (fun u => Acks u p 0x7804 ∧ u.node.dup.fwStat = 4 ∧ u.node.dup.fwRun = s.node.dup.fwRun ∧ u.mem = s.mem)) ∧
    (s.node.dup.fwStat ∉ [1, 4, 5] → Ends (exec (.fwInstall p t) s) (fun u => Acks u p 0x7804 ∧ u.node.dup.cmdRefused = true
        ∧ u.node.dup.fwStat = s.node.dup.fwStat)) ∧
    (s.node.dup.fwStat = 3 → s.node.carries = false ∨ s.node.running = false →
      Ends (exec (.fwActivate p t) s) (fun u => u.node.fwActs = s.node.fwActs + 1 ∧ u.node.dev.st = .boot ∧ u.node.dev.cause = 4
        ∧ u.node.ld.img = none ∧ u.mem.staging = [])) ∧
    (s.node.dup.fwStat ≠ 3 ∨ (s.node.carries = true ∧ s.node.running = true) →
      Ends (exec (.fwActivate p t) s) (fun u => Acks u p 0x7804 ∧ u.node.dup.cmdRefused = true ∧ u.node.fwActs = s.node.fwActs
        ∧ u.node.dup.fwStat = s.node.dup.fwStat))) ∧
  (∀ (ok : Bool) (t : Nat) (s : State), s.node.up = true → s.node.dup.fwRun = true →
    Ends (exec (.fwInstallComplete ok t) s) (fun u => u.node.dup.fwRun = false ∧ u.node.dup.fwStat = (if ok then 3 else 5))) ∧
  (∀ (img : Bytes) (t : Nat) (s : State), s.node.up = true →
    s.node.straitOn = false ∨ s.node.dup.pver < 2 ∨ s.node.dup.fwRun = true ∨ 0x800000 < img.length →
    Ends (exec (.slFwimg img t) s) (fun u => u.mem = s.mem ∧ DupStays s u)) ∧
  (∀ (ok : Bool) (t : Nat) (s : State), s.node.up = true → s.node.dup.fwRun = false →
    Ends (exec (.fwInstallComplete ok t) s) (DupStays s))

/-- Sets of the calendar clock (R475, R477 to R479): an accepted set starts the count at its value with a fresh second and clears OSF; a
value that cannot exist, or lies outside the count or the years of a local view, is rejected with event 121; LOCAL_OFS moves within ±14 h; DST steps move it by one hour once each way.

The running count and its supply (R471, R472, R480, R482 to R484): a second steps the count, in a module without supply too, and at
its end stops it with OSF for good; the alarm second raises event 120; a stopped oscillator or a dip sets OSF with event 121, a dead supply
starts the count at 0; VBAK below 2.2 V raises event 122.

Coherent reads of the calendar (R481): the first read of the shadow set freezes the five words for its master; the following reads give
words of the same instant; the read of CAL_DATE releases them; 2 ms without it release them with SHADOW_TO, before a read that comes later. -/
def Obligations.CalendarClock : Prop :=
  (
  ∀ (p : HostPort) (t : Nat) (s : State), Takes s 0x1440 →
    let c := s.node.clk
    let x := c.tsetHi.toNat * 2 ^ 32 + c.tsetLo.toNat
    let isSet (u : State) (v : Nat) : Prop := u.node.clk.secs = v ∧ u.node.clk.frac = 0 ∧ u.node.clk.at_ = timeAfter s t
      ∧ u.node.clk.halted = false ∧ u.node.clk.osf = false ∧ u.node.clk.rangeEnd = false
    let isRejected (u : State) : Prop := Acks u p 0x1440 ∧ u.node.clk = { c with dateReject := true } ∧ u.node.evt.flag 121 = true
    (x ≤ 0x02F060597F → Ends (exec (.setBin p t) s) (fun u => Acks u p 0x1440 ∧ isSet u x)) ∧
    (0x02F060597F < x → Ends (exec (.setBin p t) s) isRejected) ∧
    (∀ (v : Int) (y : Nat), tsetDecode c.tsetTime c.tsetDate = some (v, y) →
      let w := v - (if clkLocal s.node then c.ofs * 900 else 0)
      0 ≤ w → w ≤ 0x02F060597F → (clkLocal s.node = true → 1999 ≤ y ∧ y ≤ 2400) →
      Ends (exec (.setBcd p t) s) (fun u => Acks u p 0x1440 ∧ isSet u w.toNat)) ∧
    (tsetDecode c.tsetTime c.tsetDate = none → Ends (exec (.setBcd p t) s) isRejected) ∧
    (∀ arg : Byte, (-56 ≤ sgn 8 arg.toNat ∧ sgn 8 arg.toNat ≤ 56 →
        Ends (exec (.setOfs p arg t) s) (fun u => Acks u p 0x1440 ∧ u.node.clk = { c with ofs := sgn 8 arg.toNat })) ∧
      (¬ (-56 ≤ sgn 8 arg.toNat ∧ sgn 8 arg.toNat ≤ 56) → Ends (exec (.setOfs p arg t) s) (fun u => Acks u p 0x1440 ∧ u.node.clk = { c with cmdRefused := true }))) ∧
    (c.dst = false → -60 ≤ c.ofs → c.ofs ≤ 52 → Ends (exec (.dstStepFwd p t) s) (fun u => Acks u p 0x1440 ∧ u.node.clk = { c with ofs := c.ofs + 4, dst := true })) ∧
    (c.dst = true ∨ 52 < c.ofs ∨ c.ofs < -60 → Ends (exec (.dstStepFwd p t) s) (fun u => Acks u p 0x1440 ∧ u.node.clk = { c with cmdRefused := true })) ∧
    (c.dst = true → -52 ≤ c.ofs → c.ofs ≤ 60 → Ends (exec (.dstStepBack p t) s) (fun u => Acks u p 0x1440 ∧ u.node.clk = { c with ofs := c.ofs - 4, dst := false })) ∧
    (c.dst = false ∨ c.ofs < -52 ∨ 60 < c.ofs → Ends (exec (.dstStepBack p t) s) (fun u => Acks u p 0x1440 ∧ u.node.clk = { c with cmdRefused := true })) ∧
    (∀ (v : Int) (y : Nat), tsetDecode c.tsetTime c.tsetDate = some (v, y) →
      let w := v - (if clkLocal s.node then c.ofs * 900 else 0)
      w < 0 ∨ 0x02F060597F < w ∨ (clkLocal s.node = true ∧ (y < 1999 ∨ 2400 < y)) → Ends (exec (.setBcd p t) s) isRejected)) ∧
  (
  (∀ (t : Nat) (s : State), s.node.clk.rangeEnd = false →
    (s.node.clk.secs < 0x02F060597F → Ends (exec (.clockSecond t) s) (fun u => u.node.clk.secs = s.node.clk.secs + 1 ∧ u.node.clk.frac = 0
      ∧ u.node.clk.osf = s.node.clk.osf
      ∧ (s.node.up = true → u.node.clk.at_ = timeAfter s t)
      ∧ (s.node.up = true → s.node.clk.osf = false → bitOf s.node.clk.alm 31 = true → viewSod (clkView u.node) = fld s.node.clk.alm 16 0 →
          u.node.evt.flag 120 = true)
      ∧ (s.node.up = false → u.node.evt = s.node.evt ∧ u.node.time = s.node.time))) ∧
    (s.node.clk.secs = 0x02F060597F → Ends (exec (.clockSecond t) s) (fun u => u.node.clk.secs = s.node.clk.secs ∧ u.node.clk.rangeEnd = true
      ∧ u.node.clk.halted = true ∧ u.node.clk.osf = true
      ∧ (s.node.up = true → s.node.clk.osf = false → u.node.evt.flag 121 = true)))) ∧
  (∀ (t : Nat) (s : State),
    Ends (exec (.oscillatorStop t) s) (fun u => u.node.clk.halted = true ∧ u.node.clk.osf = true ∧ u.node.clk.secs = s.node.clk.secs
      ∧ (s.node.up = true → s.node.clk.osf = false → u.node.evt.flag 121 = true)) ∧
    Ends (exec (.i11SupplyDip false t) s) (fun u => u.node.clk = { s.node.clk with osf := true }
      ∧ (s.node.up = true → s.node.clk.osf = false → u.node.evt.flag 121 = true)) ∧
    Ends (exec (.i11SupplyDip true t) s) (fun u => u.node.clk.secs = 0 ∧ u.node.clk.frac = 0 ∧ u.node.clk.osf = true) ∧
    (∀ b : Bool, Ends (exec (.backupSwitch b t) s) (fun u => u.node.clk = { s.node.clk with onBackup := b }))) ∧
  (∀ (mV t : Nat) (s : State), s.node.up = true →
    Ends (exec (.vbakMeasure mV t) s) (fun u => u.node.clk.vbak = mV % 65536
      ∧ u.node.clk.backupLow = (if mV < 2200 then true else if 2300 < mV then false else s.node.clk.backupLow)
      ∧ (mV < 2200 → s.node.clk.backupLow = false → u.node.evt.flag 122 = true))) ∧
  (∀ (t : Nat) (s : State), s.node.clk.rangeEnd = true → Ends (exec (.clockSecond t) s) (fun u => u.node.clk = s.node.clk))) ∧
  (
  (∀ (p : HostPort) (k : Fin 4) (t : Nat) (s : State), Serves s (0x1400 + 4 * k.val) →
    let x : Shadow := tget {} s.node.clk.shadows (portCode p)
    (x.frozen = false → Ends (exec (.calShadowRead p k t) s) (fun u =>
      Answered u p 0 (0x1400 + 4 * k.val) ((clkWords (s.node.advance t)).getD k.val 0#32)
      ∧ tget {} u.node.clk.shadows (portCode p) = { x with frozen := true, since := timeAfter s t, words := clkWords (s.node.advance t) })) ∧
    (x.frozen = true → timeAfter s t < x.since + 500000 → Ends (exec (.calShadowRead p k t) s) (fun u =>
      Answered u p 0 (0x1400 + 4 * k.val) (x.words.getD k.val 0#32) ∧ tget {} u.node.clk.shadows (portCode p) = x))) ∧
  (∀ (p : HostPort) (t : Nat) (s : State), Serves s 0x1410 →
    let x : Shadow := tget {} s.node.clk.shadows (portCode p)
    (x.frozen = false → Ends (exec (.calDateRead p t) s) (fun u => Answered u p 0 0x1410 (calDate s.node)
      ∧ (tget {} u.node.clk.shadows (portCode p)).frozen = false)) ∧
    (x.frozen = true → timeAfter s t < x.since + 500000 → Ends (exec (.calDateRead p t) s) (fun u =>
      Answered u p 0 0x1410 (x.words.getD 4 0#32) ∧ (tget {} u.node.clk.shadows (portCode p)).frozen = false
      ∧ (tget {} u.node.clk.shadows (portCode p)).timeout = x.timeout))) ∧
  (∀ (p : HostPort) (t : Nat) (s : State), s.node.up = true →
    let x : Shadow := tget {} s.node.clk.shadows (portCode p)
    x.frozen = true → x.since + 500000 ≤ timeAfter s t →
    Ends (exec (.shadowTimeout p t) s) (fun u => (tget {} u.node.clk.shadows (portCode p)).frozen = false
      ∧ (tget {} u.node.clk.shadows (portCode p)).timeout = true)) ∧
  (∀ (p : HostPort) (k : Fin 4) (t : Nat) (s : State), Serves s (0x1400 + 4 * k.val) →
    let x : Shadow := tget {} s.node.clk.shadows (portCode p)
    x.frozen = true → x.since + 500000 ≤ timeAfter s t → Ends (exec (.calShadowRead p k t) s) (fun u =>
      Answered u p 0 (0x1400 + 4 * k.val) ((clkWords (s.node.advance t)).getD k.val 0#32)
      ∧ tget {} u.node.clk.shadows (portCode p)
          = { x with frozen := true, since := timeAfter s t, words := clkWords (s.node.advance t), timeout := true })) ∧
  (∀ (p : HostPort) (t : Nat) (s : State), Serves s 0x1410 →
    let x : Shadow := tget {} s.node.clk.shadows (portCode p)
    x.frozen = true → x.since + 500000 ≤ timeAfter s t → Ends (exec (.calDateRead p t) s) (fun u => Answered u p 0 0x1410 (calDate s.node)
      ∧ (tget {} u.node.clk.shadows (portCode p)).frozen = false ∧ (tget {} u.node.clk.shadows (portCode p)).timeout = true)) ∧
  (∀ (p : HostPort) (t : Nat) (s : State), s.node.up = true →
    let x : Shadow := tget {} s.node.clk.shadows (portCode p)
    x.frozen = false ∨ timeAfter s t < x.since + 500000 →
    Ends (exec (.shadowTimeout p t) s) (fun u => tget {} u.node.clk.shadows (portCode p) = x)))

/-- R488 with R27's rule: a read of MS_LO latches MS_HI for its port; that port's next read of MS_HI gives the latched word and spends
it; without one it gives the live word. -/
def Obligations.MilestonePairIsCoherent : Prop :=
  (∀ (p : HostPort) (s : State), Serves s 0x1814 →
    Ends (exec (.msLoRead p) s) (fun t => Answered t p 0 0x1814 (wd (msStamp s.node))
      ∧ (t.node.port p).msHi = some (wd (msStamp s.node / 2 ^ 32)))) ∧
  (∀ (p : HostPort) (w : Word) (m : Mems) (n : Node), (n.port p).msHi = some w →
    (regRead p 0x1818 m n).1 = 0 ∧ (regRead p 0x1818 m n).2.1 = w ∧ ((regRead p 0x1818 m n).2.2.port p).msHi = none) ∧
  (∀ (p : HostPort) (m : Mems) (n : Node), (n.port p).msHi = none →
    (regRead p 0x1818 m n).1 = 0 ∧ (regRead p 0x1818 m n).2.1 = wd (msStamp n / 2 ^ 32)) ∧
  (∀ (p : HostPort) (s s1 : State) (m : Mems) (n : Node), Serves s 0x1814 → exec (.msLoRead p) s = .next s1 →
    (n.port p).msHi = (s1.node.port p).msHi →
    (regRead p 0x1818 m n).2.1.toNat * 2 ^ 32 + (s1.node.port p).ans.data.toNat = msStamp s.node % 2 ^ 64)

/-- Milestones, windows and statistics (R487, R488, R490 to R492): a commit saves the operating time; MS_LO latches the high half for the
port; windows close when their time has run out; a sample counts once in its bin, minimum and maximum; a ring window that has run
its hours closes and the next opens. A window, a sample or a roll that is not due changes nothing.

Records and their reading (R494 to R498, R503): an appended record and a due window sample are placed in a free slot under the next
sequence number; REC_SEL finds the record with the lowest SEQ from its value on, ST_SEL a slot; each data read gives the next word,
past the last NO_REGISTER. More than 1,000 records in a second are dropped with event 123. -/
def Obligations.Recorder : Prop :=
  (
  (∀ (t : Nat) (s : State), s.node.up = true →
    Ends (exec (.milestoneCommit t) s) (fun u => u.node.mram = { s.node.mram with op := opNow (s.node.advance t) })) ∧
  (∀ (p : HostPort) (s : State), Serves s 0x1814 →
    Ends (exec (.msLoRead p) s) (fun u => Answered u p 0 0x1814 (wd (s.node.mram.cycles * 2 ^ 40 + opNow s.node))
      ∧ (u.node.port p).msHi = some (wd ((s.node.mram.cycles * 2 ^ 40 + opNow s.node) / 2 ^ 32)))) ∧
  (∀ (a t : Nat) (s : State), s.node.up = true →
    (s.node.rcd.runAt = some a → a + startupW s.node ≤ timeAfter s t → Ends (exec (.windowClose t) s) (fun u => u.node.rcd.startup = false)) ∧
    (s.node.rcd.recovAt = some a → a + recovW s.node ≤ timeAfter s t → Ends (exec (.windowClose t) s) (fun u => u.node.rcd.recovAt = none)) ∧
    (s.node.rcd.recovAt = some a → timeAfter s t < a + recovW s.node → Ends (exec (.windowClose t) s) (fun u => u.node.rcd.recovAt = some a))) ∧
  (∀ (i : Fin 512) (t : Nat) (s : State), s.node.up = true →
    let r := s.node.planItem i.val
    let x := s.node.res (planSrc r)
    let o : StatItem := tget {} s.node.mram.items i.val
    let a : StatSlot := tget {} o.slots 0
    planKind r = 1 → planPer r ≠ 0 → (wd (timeAfter s t / 250000)).toNat % planPer r = 0 → s.node.isRun 10 = true → s.node.roleOn 8 0 = true →
    qHas (resQ x) qVALID = true → tget none s.node.rcd.lastSeq i.val ≠ some x.seq → o.mem = r.take 12 → planWin r = 0 → o.cur = 0 →
    a.opened ≠ 0 → a.num < 0xFFFFFFFF → tget 0 a.bins (statBin (planLo r) (planHi r) x.value.toInt) < 0xFFFFFFFF →
    Ends (exec (.histogramSample i t) s) (fun u =>
      let b : StatSlot := tget {} (tget {} u.node.mram.items i.val).slots 0
      b.num = a.num + 1
      ∧ (∀ k, tget 0 b.bins k = tget 0 a.bins k + (if k = statBin (planLo r) (planHi r) x.value.toInt then 1 else 0))
      ∧ b.min = (if a.num = 0 ∨ x.value.toInt < a.min.toInt then x.value else a.min)
      ∧ b.max = (if a.num = 0 ∨ a.max.toInt < x.value.toInt then x.value else a.max)
      ∧ tget none u.node.rcd.lastSeq i.val = some x.seq)) ∧
  (∀ (i : Fin 512) (t : Nat) (s : State), s.node.up = true →
    let r := s.node.planItem i.val
    let o : StatItem := tget {} s.node.mram.items i.val
    let a : StatSlot := tget {} o.slots o.cur
    planKind r = 1 ∨ planKind r = 2 → o.mem = r.take 12 → planWin r ≠ 0 → o.cur ≠ 0 → o.cur ≤ 15 →
    a.opened % 2 ^ 40 + planWin r * 57600 ≤ opNow (s.node.advance t) →
    Ends (exec (.statWindowRoll i t) s) (fun u =>
      let o' : StatItem := tget {} u.node.mram.items i.val
      o'.cur = (if o.cur = 15 then 1 else o.cur + 1) ∧ tget {} o'.slots o.cur = { a with closed := msStamp (s.node.advance t) }
      ∧ tget {} o'.slots o'.cur = { opened := msStamp (s.node.advance t) })) ∧
  (∀ (t : Nat) (s : State), s.node.up = true → s.node.rcd.runAt.all (fun a => decide (timeAfter s t < a + startupW s.node)) = true →
    Ends (exec (.windowClose t) s) (fun u => u.node.rcd.startup = s.node.rcd.startup)) ∧
  (∀ (i : Fin 512) (t : Nat) (s : State), s.node.up = true →
    let r := s.node.planItem i.val
    let x := s.node.res (planSrc r)
    let due := planKind r = 1 ∧ planPer r ≠ 0 ∧ (wd (timeAfter s t / 250000)).toNat % planPer r = 0 ∧ s.node.isRun 10 = true ∧ s.node.roleOn 8 0 = true ∧ qHas (resQ x) qVALID = true ∧ tget none s.node.rcd.lastSeq i.val ≠ some x.seq
    (due → Ends (exec (.histogramSample i t) s) (fun u => tget none u.node.rcd.lastSeq i.val = some x.seq
      ∧ (tget {} u.node.mram.items i.val).mem = r.take 12)) ∧
    (¬ due → Ends (exec (.histogramSample i t) s) (fun u => u.node.rcd = s.node.rcd ∧ u.node.mram = s.node.mram))) ∧
  (∀ (i : Fin 512) (t : Nat) (s : State), s.node.up = true →
    let r := s.node.planItem i.val
    let o : StatItem := tget {} s.node.mram.items i.val
    (planKind r ≠ 1 ∧ planKind r ≠ 2) ∨ o.mem ≠ r.take 12 ∨ planWin r = 0 ∨ o.cur = 0
      ∨ opNow (s.node.advance t) < (tget {} o.slots o.cur).opened % 2 ^ 40 + planWin r * 57600 →
    Ends (exec (.statWindowRoll i t) s) (fun u => u.node.mram = s.node.mram))) ∧
  (
  (∀ (p : HostPort) (v : Word) (t : Nat) (s : State), Takes s 0x1930 → s.node.rcd.due = [] → s.node.running = false → s.node.terms = [] →
    s.node.mram.ring.length < 23831 → s.node.rcd.rateNum < 1000 →
    (0x80 ≤ fld v 7 0 → fld v 9 8 ≤ 2 → fld v 31 24 ≤ 240 → Ends (exec (.recAppend p v t) s) (fun u => Acks u p 0x1930
      ∧ u.node.mram.seq = s.node.mram.seq + 1#32
      ∧ ∃ k, tget {} u.node.mram.ring k = ⟨fld v 7 0, fld v 9 8, s.node.mram.seq, msStamp (s.node.advance t), clkUtc s.node.clk,
          ((List.range 60).flatMap (fun i => leBytes 4 (tget 0#32 s.node.rcd.app i).toNat)).take (fld v 31 24)⟩)) ∧
    (fld v 7 0 < 0x80 ∨ 2 < fld v 9 8 ∨ 240 < fld v 31 24 → Ends (exec (.recAppend p v t) s) (fun u => Answered u p 2 0x1930 0#32
      ∧ u.node.mram = s.node.mram))) ∧
  (∀ (i : Nat) (r : Bytes) (t : Nat) (s : State), s.node.up = true → s.node.rcd.due = [] → s.node.running = false → s.node.terms = [] →
    s.node.mram.ring.length < 23831 → s.node.rcd.rateNum < 1000 → s.node.isRun 10 = true → s.node.roleOn 8 0 = true →
    windowDue (s.node.advance t) = [(i, r)] → s.node.rcd.winAt ≠ some (timeAfter s t / 250000) →
    Ends (exec (.windowSample t) s) (fun u => u.node.rcd.winAt = some (timeAfter s t / 250000) ∧ u.node.mram.seq = s.node.mram.seq + 1#32
      ∧ ∃ k, tget {} u.node.mram.ring k = ⟨10, 0, s.node.mram.seq, msStamp (s.node.advance t), clkUtc s.node.clk,
          leBytes 2 i ++ leBytes 2 1 ++ leBytes 4 (valueWord (s.node.res (planSrc r))).toNat
            ++ leBytes 4 (qseqWord (s.node.res (planSrc r)) none).toNat⟩)) ∧
  (∀ (p : HostPort) (v : Word) (s : State), Takes s 0x1820 →
    (∀ k r, (k, r) ∈ s.node.mram.ring → v ≤ r.seq → (∀ y ∈ s.node.mram.ring, v ≤ y.2.seq → y = (k, r) ∨ r.seq < y.2.seq) →
      Ends (exec (.recSelWrite p v) s) (fun u => Acks u p 0x1820 ∧ (u.node.port p).recSel = r.seq ∧ (u.node.port p).recValid = true
        ∧ (u.node.port p).recLatch = ringWords r ∧ (u.node.port p).recPos = 0)) ∧
    ((∀ y ∈ s.node.mram.ring, y.2.seq < v) → Ends (exec (.recSelWrite p v) s) (fun u => Acks u p 0x1820 ∧ (u.node.port p).recValid = false ∧ (u.node.port p).recSel = v
      ∧ (u.node.port p).recLatch = []))) ∧
  (∀ (p : HostPort) (s : State), Serves s 0x1824 →
    (∀ w, (s.node.port p).recLatch[(s.node.port p).recPos]? = some w → Ends (exec (.recDataRead p) s) (fun u =>
      Answered u p 0 0x1824 w ∧ (u.node.port p).recPos = (s.node.port p).recPos + 1)) ∧
    ((s.node.port p).recLatch.length ≤ (s.node.port p).recPos → Ends (exec (.recDataRead p) s) (fun u => Answered u p 2 0x1824 0#32
      ∧ (u.node.port p).recPos = (s.node.port p).recPos))) ∧
  (∀ (p : HostPort) (v : Word) (s : State), Takes s 0x1830 →
    Ends (exec (.stSelWrite p v) s) (fun u => Acks u p 0x1830 ∧ (u.node.port p).stPos = fld v 5 0
      ∧ (u.node.port p).stLatch = slotWords (tget {} (tget {} s.node.mram.items (fld v 24 16)).slots (fld v 11 8)))) ∧
  (∀ (p : HostPort) (s : State), Serves s 0x1834 →
    (∀ w, (s.node.port p).stLatch[(s.node.port p).stPos]? = some w → Ends (exec (.stDataRead p) s) (fun u =>
      Answered u p 0 0x1834 w ∧ (u.node.port p).stPos = (s.node.port p).stPos + 1)) ∧
    ((s.node.port p).stLatch.length ≤ (s.node.port p).stPos → Ends (exec (.stDataRead p) s) (fun u => Answered u p 2 0x1834 0#32
      ∧ (u.node.port p).stPos = (s.node.port p).stPos))) ∧
  (∀ (p : HostPort) (v : Word) (t : Nat) (s : State), Takes s 0x1930 → s.node.rcd.due = [] → s.node.running = false → s.node.terms = [] →
    s.node.rcd.rateSec = timeAfter s t / 250000000 → 1000 ≤ s.node.rcd.rateNum → 0x80 ≤ fld v 7 0 → fld v 9 8 ≤ 2 → fld v 31 24 ≤ 240 →
    Ends (exec (.recAppend p v t) s) (fun u => Acks u p 0x1930 ∧ u.node.mram.ring = s.node.mram.ring ∧ u.node.mram.seq = s.node.mram.seq
      ∧ s.node.mram.drop + b2n (decide (s.node.mram.drop < 0xFFFFFFFF)) ≤ u.node.mram.drop ∧ u.node.evt.flag 123 = true)) ∧
  (∀ (t : Nat) (s : State), s.node.up = true →
    s.node.isRun 10 = false ∨ s.node.roleOn 8 0 = false ∨ windowDue (s.node.advance t) = [] ∨ s.node.rcd.winAt = some (timeAfter s t / 250000) →
    Ends (exec (.windowSample t) s) (fun u => u.node.rcd.winAt = s.node.rcd.winAt)))

/-- Ethernet ports (R504, R505, R507, R512, R513): a change of link raises event 127; an echo is answered; a connection idle for 60 s
closes; an acknowledgement by sentence acts as ACK or ALM_CALL_ACK, is forwarded by a STANDBY, or is refused with ARC; commands O and S
are answered with ARC; a request brings the ALF of one alert or of every listed one; the 30 s period lists them, four to an ALC; what is
unusable is counted; a port that is off takes nothing, and a module that does not carry the plant sends nothing. The texts of sentences
are the model's choice (notes/assumptions/10.md), as is the wait of a command for a paused engine (notes/assumptions/54.md).

Modbus TCP (R507 to R510): input registers carry results, holding registers lane setpoints, outputs and modes, high half first; a
write of a lane's mode requests it, of whole pairs sets their SP or MAN, echoed; a range that does not exist is answered with exception
2, a quantity out of range or half a pair with 3, an island that is not in RUN with 4, an unknown unit with 0x0B; a STANDBY forwards
writes; a request the server does not take leaves no trace. -/
def Obligations.EthernetAndModbus : Prop :=
  (
  (∀ (b link fd : Bool) (t : Nat) (s : State), s.node.up = true → s.node.isRun 7 = true →
    Ends (exec (.ethLinkChange b link fd t) s) (fun u => (u.node.eth b).link = link ∧ (u.node.eth b).fd = (fd && link)
      ∧ (u.node.eth b).conns = (s.node.eth b).conns ∧ u.node.eth (!b) = s.node.eth (!b)
      ∧ ((s.node.eth b).link ≠ link → u.node.evt.flag 127 = true))) ∧
  (∀ (b : Bool) (c t : Nat) (s : State), s.node.up = true → ethOn s.node b = true →
    Ends (exec (.icmpEcho b c t) s) (fun u => u.node.tx = s.node.tx ++ [{ chan := .icmp b, dest := c, bytes := [] }])) ∧
  (∀ (b : Bool) (c t : Nat) (s : State), s.node.up = true →
    Ends (exec (.modbusIdleClose b c t) s) (fun u => u.node.eth (!b) = s.node.eth (!b)
      ∧ ∀ x, x ∈ (u.node.eth b).conns ↔ x ∈ (s.node.eth b).conns ∧ ¬ (x.1 = c ∧ x.2 + 15000000000 ≤ t))) ∧
  (∀ (b : Bool) (i : Fin 4096) (t : Nat) (s : State), s.node.up = true → alertOn s.node b = true →
    let q := s.node.almP i.val
    (s.node.ptUsed i.val = true → s.node.almWorks = true → s.node.almRun = true → s.node.pair = false ∨ s.node.dup.role ≠ .standby →
      Ends (exec (.acnAcknowledge b (.point i) t) s) (fun u => (u.node.almP i.val).st =
        (if q.st = 1 then (if q.suppPend then 4 else 2) else if q.st = 3 then (if q.suppPend then 4 else 0) else q.st))) ∧
    (s.node.ptUsed i.val = true → s.node.almRun = false → s.node.pair = false ∨ s.node.dup.role ≠ .standby →
      Ends (exec (.acnAcknowledge b (.point i) t) s) (fun u => u.node.almP i.val = q ∧ u.node.alm.refused = true
        ∧ (s.node.net.arcSent < 0xFFFF → u.node.net.arcSent = s.node.net.arcSent + 1))) ∧
    (s.node.ptUsed i.val = true → alertSends s.node = true → Ends (exec (.acnRequest b (some (.point i)) t) s) (fun u =>
        tget 0 u.node.net.alerts (10000 + i.val) = alertState q.st
        ∧ tget 0 u.node.net.revs (10000 + i.val) = tget 0 s.node.net.revs (10000 + i.val) % 99 + 1
        ∧ u.node.net.line = s.node.net.line % 999 + 1
        ∧ u.node.tx = s.node.tx ++ ([false, true].filter (alertOn s.node)).map (fun p => ⟨.iec450 p, s.node.net.line % 999 + 1,
            alertDatagram s.node (s.node.net.line % 999 + 1)
              (alfSentence s.node (.point i) (alertState q.st) (tget 0 s.node.net.revs (10000 + i.val) % 99 + 1))⟩))) ∧
    (∀ silence : Bool, s.node.ptUsed i.val = true → alertSends s.node = true → s.node.net.arcSent < 0xFFFF →
      Ends (exec (.acnOther b ⟨silence, .point i⟩ t) s) (fun u => u.node.net.arcSent = s.node.net.arcSent + 1
        ∧ u.node.net.line = s.node.net.line % 999 + 1 ∧ u.node.alm = s.node.alm
        ∧ u.node.tx = s.node.tx ++ ([false, true].filter (alertOn s.node)).map (fun p => ⟨.iec450 p, s.node.net.line % 999 + 1,
            alertDatagram s.node (s.node.net.line % 999 + 1) (sentence s.node [0x41#8, 0x52#8, 0x43#8]
              [utcText (utcNow u.node), [], decText (10000 + i.val), [0x31#8], [if silence then 0x53#8 else 0x4F#8]])⟩))) ∧
    (s.node.ptUsed i.val = false → s.node.net.acnBad < 0xFFFF →
      ∀ x ∈ [Instr.acnAcknowledge b (.point i) t, .acnRequest b (some (.point i)) t, .acnOther b ⟨false, .point i⟩ t, .acnOther b ⟨true, .point i⟩ t,
          .acnDiscarded b t],
        Ends (exec x s) (fun u => u.node.net.acnBad = s.node.net.acnBad + 1)) ∧
    (s.node.net.acnBad < 0xFFFF → Ends (exec (.acnDiscarded b t) s) (fun u => u.node.net.acnBad = s.node.net.acnBad + 1))) ∧
  (∀ (t : Nat) (s : State), s.node.up = true → alertOn s.node false = true → alertOn s.node true = false → s.node.carries = true →
    alertList s.node ≠ [] → (alertList s.node).length ≤ 4 →
    Ends (exec (.alcPeriodic t) s) (fun u => u.node.net.line = s.node.net.line % 999 + 1
      ∧ u.node.tx = s.node.tx ++ [⟨.iec450 false, s.node.net.line % 999 + 1,
          alertDatagram s.node (s.node.net.line % 999 + 1) (sentence s.node [0x41#8, 0x4C#8, 0x43#8]
            ([digitsN 2 1, digitsN 2 1, digitsN 2 0, decText (alertList s.node).length]
              ++ (alertList s.node).flatMap (fun y => [[], decText y, [0x31#8], decText (tget 0 s.node.net.revs y)])))⟩])) ∧
  (∀ (t : Nat) (s : State), s.node.up = true → alertSends s.node = true → (alertList s.node).length ≤ 4112 →
    Ends (exec (.alcPeriodic t) s) (fun u =>
      u.node.net.line = (fun l : Nat => l % 999 + 1)^[((alertList s.node).length + 3) / 4] s.node.net.line
      ∧ u.node.tx.length = s.node.tx.length
          + ((alertList s.node).length + 3) / 4 * ([false, true].filter (alertOn s.node)).length)) ∧
  (∀ (t : Nat) (s : State), s.node.up = true → alertSends s.node = false →
    Ends (exec (.alcPeriodic t) s) (fun u => u.node.tx = s.node.tx ∧ u.node.net = s.node.net)) ∧
  (∀ (b link fd : Bool) (t : Nat) (s : State), s.node.up = true → s.node.isRun 7 = false →
    Ends (exec (.ethLinkChange b link fd t) s) (fun u => ∀ p, u.node.eth p = s.node.eth p)) ∧
  (∀ (b : Bool) (c t : Nat) (s : State), s.node.up = true → ethOn s.node b = false →
    Ends (exec (.icmpEcho b c t) s) (fun u => u.node.tx = s.node.tx)) ∧
  (∀ (b : Bool) (i : Fin 4096) (t : Nat) (s : State), s.node.up = true → alertOn s.node b = true → s.node.ptUsed i.val = true →
    (s.node.almRun = true → s.node.almWorks = false → s.node.pair = false ∨ s.node.dup.role ≠ .standby →
      Ends (exec (.acnAcknowledge b (.point i) t) s) (fun u => u.node.almP i.val = s.node.almP i.val
        ∧ u.node.alm.inq = s.node.alm.inq ++ [.cmd (wd (2 ^ 28 + i.val))])) ∧
    (s.node.pair = true → s.node.dup.role = .standby → linkUp s.node = true →
      Ends (exec (.acnAcknowledge b (.point i) t) s) (fun u => u.node.almP i.val = s.node.almP i.val
        ∧ u.node.net.fwds = s.node.net.fwds ++ [.none] ∧ u.node.net.arcSent = s.node.net.arcSent
        ∧ { chan := .strait, dest := 9, bytes := [BitVec.ofNat 8 (portCode (netPort b))] ++ leBytes 2 0x6C40
              ++ leBytes 4 (wd (2 ^ 28 + i.val)).toNat } ∈ u.node.tx)) ∧
    (alertSends s.node = false → ∀ x ∈ [Instr.acnRequest b (some (.point i)) t, .acnOther b ⟨false, .point i⟩ t, .acnOther b ⟨true, .point i⟩ t],
      Ends (exec x s) (fun u => u.node.tx = s.node.tx ∧ u.node.net = s.node.net))) ∧
  (∀ (b : Bool) (k : Fin 16) (t : Nat) (s : State), s.node.up = true → alertOn s.node b = true →
    (stnNet (s.node.stn k.val) = true → s.node.almRun = true → s.node.pair = false ∨ s.node.dup.role ≠ .standby →
      callReaches s.node k.val = true →
      Ends (exec (.acnAcknowledge b (.call k) t) s) (fun u => u.node.alm.inq = s.node.alm.inq ++ [.ack k.val]
        ∧ u.node.net.arcSent = s.node.net.arcSent)) ∧
    (stnNet (s.node.stn k.val) = true → s.node.almRun = false ∨ callReaches s.node k.val = false →
      s.node.pair = false ∨ s.node.dup.role ≠ .standby → s.node.net.arcSent < 0xFFFF →
      Ends (exec (.acnAcknowledge b (.call k) t) s) (fun u => u.node.net.arcSent = s.node.net.arcSent + 1)) ∧
    (stnNet (s.node.stn k.val) = true → alertSends s.node = true → Ends (exec (.acnRequest b (some (.call k)) t) s) (fun u =>
        tget 0 u.node.net.alerts (19900 + k.val) = b2n (callReaches s.node k.val)
        ∧ tget 0 u.node.net.revs (19900 + k.val) = tget 0 s.node.net.revs (19900 + k.val) % 99 + 1)) ∧
    (stnNet (s.node.stn k.val) = false → s.node.net.acnBad < 0xFFFF →
      Ends (exec (.acnAcknowledge b (.call k) t) s) (fun u => u.node.net.acnBad = s.node.net.acnBad + 1 ∧ u.node.alm.inq = s.node.alm.inq))) ∧
  (∀ (b : Bool) (t : Nat) (s : State), s.node.up = true → alertOn s.node b = true →
    (alertSends s.node = true → ∀ i : Fin 4096, 10000 + i.val ∈ alertList s.node →
      Ends (exec (.acnRequest b none t) s) (fun u => tget 0 u.node.net.alerts (10000 + i.val) = alertState (s.node.almP i.val).st)) ∧
    (alertList s.node = [] ∨ alertSends s.node = false → Ends (exec (.acnRequest b none t) s) (fun u => u.node.tx = s.node.tx))) ∧
  (∀ (b : Bool) (a : AlertRef) (o : Option AlertRef) (t : Nat) (s : State), s.node.up = true → alertOn s.node b = false →
    (∀ x ∈ [Instr.acnRequest b o t, .acnOther b ⟨false, a⟩ t, .acnOther b ⟨true, a⟩ t, .acnDiscarded b t],
      Ends (exec x s) (fun u => u.node.tx = s.node.tx ∧ u.node.net = s.node.net)) ∧
    Ends (exec (.acnAcknowledge b a t) s) (fun u => u.node.net.acnBad = s.node.net.acnBad ∧ u.node.net.arcSent = s.node.net.arcSent
      ∧ u.node.alm.inq = s.node.alm.inq ∧ u.node.net.fwds = s.node.net.fwds))) ∧
  (
  (∀ (q : MbReq) (start count t : Nat) (s : State), MbServed s q →
    (start + count ≤ 160 → 1 ≤ count → count ≤ 125 → s.node.isRun 0 = true → Ends (exec (.readHoldingRegisters q start count t) s) (fun u =>
      MbSent u q ([3#8, BitVec.ofNat 8 (2 * count)] ++ (List.range count).flatMap (fun i => beBytes 2 (mbHolding s.node (start + i))))
      ∧ (q.client, timeAfter s t) ∈ (u.node.eth q.net).conns)) ∧
    (160 < start + count → Ends (exec (.readHoldingRegisters q start count t) s) (fun u => MbSent u q [0x83#8, 2#8])) ∧
    (∀ r : Fin 518, start = resAddr r.val / 2 → count = 4 → Ends (exec (.readInputRegisters q start count t) s) (fun u =>
      let v := (valueWord (s.node.res (resAddr r.val))).toNat
      let w := (qseqWord (s.node.res (resAddr r.val)) (some (portIdx (netPort q.net)))).toNat
      MbSent u q ([4#8, 8#8] ++ beBytes 2 (v / 65536) ++ beBytes 2 (v % 65536) ++ beBytes 2 (w / 65536) ++ beBytes 2 (w % 65536)))) ∧
    (start % 2 = 1 → Ends (exec (.readInputRegisters q start count t) s) (fun u => MbSent u q [0x84#8, 2#8]))) ∧
  (∀ (q : MbReq) (k : Fin 32) (t : Nat) (s : State), MbServed s q → s.node.isRun 0 = true → s.node.pair = false ∨ s.node.dup.role ≠ .standby →
    (∀ val : Nat, lnOn (s.node.lnRec k.val) = true → val % 8 ≤ 2 → Ends (exec (.writeSingleRegister q (128 + k.val) val t) s) (fun u =>
      (u.node.lnC k.val).req = val % 8 ∧ (u.node.lnC k.val).reqNew = true
      ∧ MbSent u q ([6#8] ++ beBytes 2 (128 + k.val) ++ beBytes 2 val))) ∧
    (∀ h l : BitVec 16, Ends (exec (.writeMultipleRegisters q (2 * k.val) [h, l] t) s) (fun u =>
      (u.node.lnC k.val).sp = (h ++ l).toInt ∧ MbSent u q ([16#8] ++ beBytes 2 (2 * k.val) ++ beBytes 2 2))) ∧
    (∀ h l : BitVec 16, Ends (exec (.writeMultipleRegisters q (64 + 2 * k.val) [h, l] t) s) (fun u =>
      (u.node.lnC k.val).man = (h ++ l).toInt))) ∧
  (∀ (q : MbReq) (reg val t : Nat) (s : State), MbServed s q → 160 ≤ reg →
    Ends (exec (.writeSingleRegister q reg val t) s) (fun u => MbSent u q [0x86#8, 2#8] ∧ u.node.ln = s.node.ln)) ∧
  (∀ (q : MbReq) (start count t : Nat) (s : State), MbServed s q →
    (start + count ≤ 160 → start < 160 → count = 0 ∨ 125 < count → Ends (exec (.readHoldingRegisters q start count t) s) (fun u =>
      MbSent u q [0x83#8, 3#8])) ∧
    (start + count ≤ 160 → 1 ≤ count → count ≤ 125 → s.node.isRun 0 = false →
      Ends (exec (.readHoldingRegisters q start count t) s) (fun u => MbSent u q [0x83#8, 4#8])) ∧
    (∀ l : List (Fin 518), start % 2 = 0 → count = 4 * l.length → l.length ≤ 31 → l ≠ [] →
      l.map (fun r => resAddr r.val) = (List.range l.length).map (fun j => 2 * start + 8 * j) →
      Ends (exec (.readInputRegisters q start count t) s) (fun u => MbSent u q ([4#8, BitVec.ofNat 8 (8 * l.length)]
        ++ l.flatMap (fun r => beBytes 4 (valueWord (s.node.res (resAddr r.val))).toNat
          ++ beBytes 4 (qseqWord (s.node.res (resAddr r.val)) (some (portIdx (netPort q.net)))).toNat)))) ∧
    (∀ r : Fin 518, start = resAddr r.val / 2 → count = 0 ∨ count = 1 → Ends (exec (.readInputRegisters q start count t) s) (fun u =>
      MbSent u q [0x84#8, 3#8])) ∧
    (start < resAddr 0 / 2 → 1 ≤ count → Ends (exec (.readInputRegisters q start count t) s) (fun u => MbSent u q [0x84#8, 2#8]))) ∧
  (∀ (q : MbReq) (k : Fin 32) (val t : Nat) (s : State), MbServed s q →
    (s.node.isRun 0 = true → s.node.pair = false ∨ s.node.dup.role ≠ .standby →
      lnOn (s.node.lnRec k.val) = false ∨ 4 < val % 8 →
      Ends (exec (.writeSingleRegister q (128 + k.val) val t) s) (fun u => (u.node.lnC k.val).cmdRefused = true
        ∧ (u.node.lnC k.val).req = (s.node.lnC k.val).req ∧ (u.node.lnC k.val).reqNew = (s.node.lnC k.val).reqNew)) ∧
    (s.node.isRun 0 = false → s.node.pair = false ∨ s.node.dup.role ≠ .standby →
      Ends (exec (.writeSingleRegister q (128 + k.val) val t) s) (fun u => MbSent u q [0x86#8, 4#8] ∧ u.node.ln = s.node.ln)) ∧
    (s.node.pair = true → s.node.dup.role = .standby → linkUp s.node = true →
      Ends (exec (.writeSingleRegister q (128 + k.val) val t) s) (fun u => u.node.ln = s.node.ln
        ∧ u.node.net.fwds = s.node.net.fwds ++ [.modbus q 6 (128 + k.val) val true 0])) ∧
    (s.node.pair = true → s.node.dup.role = .standby → linkUp s.node = false →
      Ends (exec (.writeSingleRegister q (128 + k.val) val t) s) (fun u => u.node.ln = s.node.ln ∧ MbSent u q [0x86#8, 4#8]))) ∧
  (∀ (q : MbReq) (reg val t : Nat) (s : State), MbServed s q → reg < 128 →
    Ends (exec (.writeSingleRegister q reg val t) s) (fun u => MbSent u q [0x86#8, 3#8] ∧ u.node.ln = s.node.ln)) ∧
  (∀ (q : MbReq) (start : Nat) (vals : List (BitVec 16)) (t : Nat) (s : State), MbServed s q →
    (s.node.isRun 0 = true → s.node.pair = false ∨ s.node.dup.role ≠ .standby → start % 2 = 0 → vals.length % 2 = 0 → vals ≠ [] →
      (start + vals.length ≤ 64 → Ends (exec (.writeMultipleRegisters q start vals t) s) (fun u =>
        (∀ j, 2 * j < vals.length → (u.node.lnC (start / 2 + j)).sp = (vals.getD (2 * j) 0#16 ++ vals.getD (2 * j + 1) 0#16).toInt)
        ∧ MbSent u q ([16#8] ++ beBytes 2 start ++ beBytes 2 vals.length))) ∧
      (64 ≤ start → start + vals.length ≤ 128 → Ends (exec (.writeMultipleRegisters q start vals t) s) (fun u =>
        (∀ j, 2 * j < vals.length → (u.node.lnC (start / 2 - 32 + j)).man = (vals.getD (2 * j) 0#16 ++ vals.getD (2 * j + 1) 0#16).toInt)
        ∧ MbSent u q ([16#8] ++ beBytes 2 start ++ beBytes 2 vals.length)))) ∧
    (128 < start + vals.length ∨ 128 ≤ start → Ends (exec (.writeMultipleRegisters q start vals t) s) (fun u =>
      MbSent u q [0x90#8, 2#8] ∧ u.node.ln = s.node.ln)) ∧
    (start + vals.length ≤ 128 → start < 128 → vals = [] ∨ 123 < vals.length ∨ start % 2 = 1 ∨ vals.length % 2 = 1 →
      Ends (exec (.writeMultipleRegisters q start vals t) s) (fun u => MbSent u q [0x90#8, 3#8] ∧ u.node.ln = s.node.ln))) ∧
  (∀ (q : MbReq) (a c : Nat) (vals : List (BitVec 16)) (t : Nat) (s : State), s.node.up = true → modbusOn s.node q.net = true →
    ((s.node.eth q.net).conns.any (fun c => c.1 == q.client) = true ∨ (s.node.eth q.net).conns.length < 4) → q.unit ≠ 1#8 → q.unit ≠ 0xFF#8 →
    Ends (exec (.readHoldingRegisters q a c t) s) (fun u => MbSent u q [0x83#8, 0x0B#8]) ∧
    Ends (exec (.readInputRegisters q a c t) s) (fun u => MbSent u q [0x84#8, 0x0B#8]) ∧
    Ends (exec (.writeSingleRegister q a c t) s) (fun u => MbSent u q [0x86#8, 0x0B#8] ∧ u.node.ln = s.node.ln) ∧
    Ends (exec (.writeMultipleRegisters q a vals t) s) (fun u => MbSent u q [0x90#8, 0x0B#8] ∧ u.node.ln = s.node.ln)) ∧
  (∀ (q : MbReq) (a c : Nat) (vals : List (BitVec 16)) (t : Nat) (s : State), s.node.up = true →
    modbusOn s.node q.net = false ∨ ((s.node.eth q.net).conns.any (fun c => c.1 == q.client) = false ∧ 4 ≤ (s.node.eth q.net).conns.length) →
    Ends (exec (.readHoldingRegisters q a c t) s) (fun u => u.node.tx = s.node.tx ∧ u.node.net = s.node.net) ∧
    Ends (exec (.readInputRegisters q a c t) s) (fun u => u.node.tx = s.node.tx ∧ u.node.net = s.node.net) ∧
    Ends (exec (.writeSingleRegister q a c t) s) (fun u => u.node.ln = s.node.ln ∧ u.node.net.fwds = s.node.net.fwds) ∧
    Ends (exec (.writeMultipleRegisters q a vals t) s) (fun u => u.node.ln = s.node.ln ∧ u.node.net.fwds = s.node.net.fwds)))

/-- CAN ports (R514 to R518): an imported field is scaled and delivered, a frame too short for it counted; a raw frame is posted to its
channel and counted where it replaces one, a raw message sent and acknowledged or refused; the service reads and writes registers for its
client; bus-off and its end raise event 127. An absent signal's last value is delivered without VALID, and nothing where it has none (the
latter is the model's choice, notes/assumptions/49.md); a port that is off or bus-off, and an import the engine does not work on, do nothing. -/
def Obligations.CanPorts : Prop :=
  (∀ (f : CanFrame) (r : Bytes) (t : Nat) (s : State), s.node.up = true → canOn s.node f.port = true → (s.node.can f.port).st ≠ 3 →
    s.node.acq = true → s.node.roleOn 7 0 = true → importRecs s.node f = [r] → svcMatch s.node f = false →
    let lay := w32 r 6
    let len := fld lay 14 9 + 1
    let bits := fieldBits (fld lay 8 0) len (bitOf lay 15)
    let raw := bits.foldl (fun a k => 2 * a + dataBit f.data k) 0
    ((∀ k ∈ bits, k < 8 * f.data.length) → bitOf lay 25 = false ∨ raw ≠ 2 ^ len - 1 → Ends (exec (.canFrameReceive f t) s) (fun u =>
      Delivers s u (206 + b2n f.port) (u16 r 0) t [mkEntry (0x7C00 + 8 * u16 r 0)
        (divRound ((if bitOf lay 16 then sgn len raw else raw) * i16 r 10) (2 ^ fld lay 20 17) + i16 r 12) true false false false false])) ∧
    ((∃ k ∈ bits, 8 * f.data.length ≤ k) → s.node.net.impErr < 0xFFFFFFFF → Ends (exec (.canFrameReceive f t) s) (fun u =>
      u.node.net.impErr = s.node.net.impErr + 1 ∧ u.node.net.lastVal = s.node.net.lastVal)) ∧
    ((∀ k ∈ bits, k < 8 * f.data.length) → bitOf lay 25 = true → raw = 2 ^ len - 1 →
      let v := tget 0x80000000#32 s.node.net.lastVal (u16 r 0)
      (v ≠ 0x80000000#32 → Ends (exec (.canFrameReceive f t) s) (fun u =>
        Delivers s u (206 + b2n f.port) (u16 r 0) t [⟨0x7C00 + 8 * u16 r 0, v, 0#8⟩])) ∧
      (v = 0x80000000#32 → Ends (exec (.canFrameReceive f t) s) (fun u =>
        u.node.net.lastVal = s.node.net.lastVal ∧ u.node.net.impErr = s.node.net.impErr)))) ∧
  (∀ (f : CanFrame) (rcv t : Nat) (s : State), s.node.up = true → canOn s.node f.port = true → (s.node.can f.port).st ≠ 3 →
    importRecs s.node f = [] → svcMatch s.node f = false → rawMatch s.node f = true → 128 ≤ rawCh s.node f.port →
    mbBinding s.node (rawCh s.node f.port % 32) = (netId s.node, rcv, true) → s.node.isRun (idIsland rcv) = true →
    Ends (exec (.canFrameReceive f t) s) (fun u => (u.node.mbChan (rawCh s.node f.port % 32)).st = .posted
      ∧ (u.node.mbChan (rawCh s.node f.port % 32)).msg = stampSrc (netId s.node) (mkMsg 0x44 0 56 (rawPayload f)))) ∧
  (∀ (ch : Fin 32) (snd t : Nat) (s : State), s.node.up = true → mbBinding s.node ch.val = (snd, netId s.node, true) →
    (s.node.mbChan ch.val).st = .posted → fld ((s.node.mbChan ch.val).msg.getD 0 0#32) 31 24 = 0x43 →
    let b := msgPayload (s.node.mbChan ch.val).msg
    let p := (b.getD 0 0#8).getLsbD 0
    canLenOk (u8 b 2) (recBit b 1 1) = true → recBit b 1 1 = false ∨ canData s.node p ≠ 0 → canOn s.node p = true → (s.node.can p).st ≠ 3 → s.node.carries = true →
    Ends (exec (.canRawSend ch t) s) (fun u => { chan := .can p, dest := u32 b 4, bytes := (b.drop 8).take (u8 b 2) } ∈ u.node.tx
      ∧ (u.node.mbChan ch.val).st = .acked ∧ (u.node.mbChan ch.val).code = 0)) ∧
  (∀ (f : CanFrame) (t : Nat) (s : State), s.node.up = true → canOn s.node f.port = true → (s.node.can f.port).st ≠ 3 →
    svcMatch s.node f = true → f.data.length = 8 →
    let w := w32 f.data 0
    let tag : Byte := BitVec.ofNat 8 (fld w 23 16)
    let a := fld w 14 0
    (s.node.net.svc = none → fld w 31 28 = 0 → Ends (exec (.canServiceRequest f t) s) (fun u => SvcSent s u 0 0#8 0 0#32)) ∧
    (∀ r : Fin 518, s.node.net.svc = none → fld w 31 28 = 1 → a = resAddr r.val → s.node.isRun 0 = true →
      Ends (exec (.canServiceRequest f t) s) (fun u => SvcSent s u 0 tag a (valueWord (s.node.res a)))) ∧
    (s.node.net.svc = none → fld w 31 28 = 1 → (regAttr a).isSome = true → regIsl a false ≠ 0 → s.node.isRun (regIsl a false) = true →
      Ends (exec (.canServiceRequest f t) s) (fun u => u.node.net.svc = some (tag, .rd a))) ∧
    (s.node.net.svc = none → 3 ≤ fld w 31 28 → Ends (exec (.canServiceRequest f t) s) (fun u => SvcSent s u 2 tag a 0#32)) ∧
    (s.node.net.svc ≠ none → Ends (exec (.canServiceRequest f t) s) (fun u => SvcSent s u 4 tag a 0#32 ∧ u.node.net.svc = s.node.net.svc))) ∧
  (∀ (c : Bool) (t : Nat) (s : State), s.node.up = true → canOn s.node c = true →
    ((s.node.can c).st ≠ 3 → Ends (exec (.canBusOff c t) s) (fun u => (u.node.can c).st = 3 ∧ (u.node.can c).rec_ < 256
      ∧ (u.node.can c).tec < 256 ∧ u.node.can (!c) = s.node.can (!c) ∧ u.node.evt.flag 127 = true)) ∧
    ((s.node.can c).st = 3 → Ends (exec (.canBusOffRecovery c t) s) (fun u => (u.node.can c).st = 1 ∧ u.node.can (!c) = s.node.can (!c)
      ∧ u.node.evt.flag 127 = true))) ∧
  (∀ (c : Bool) (t : Nat) (s : State), s.node.up = true →
    (canOn s.node c = false ∨ (s.node.can c).st = 3 → Ends (exec (.canBusOff c t) s) (fun u => ∀ p, u.node.can p = s.node.can p)) ∧
    (canOn s.node c = false ∨ (s.node.can c).st ≠ 3 →
      Ends (exec (.canBusOffRecovery c t) s) (fun u => ∀ p, u.node.can p = s.node.can p))) ∧
  (∀ (f : CanFrame) (t : Nat) (s : State), s.node.up = true → canOn s.node f.port = false ∨ (s.node.can f.port).st = 3 →
    (Ends (exec (.canFrameReceive f t) s) (fun u => u.node.net.lastVal = s.node.net.lastVal ∧ u.node.net.impErr = s.node.net.impErr
      ∧ u.node.net.svc = s.node.net.svc ∧ ∀ ch, u.node.mbChan ch = s.node.mbChan ch)) ∧
    Ends (exec (.canServiceRequest f t) s) (fun u => u.node.net.svc = s.node.net.svc ∧ u.node.ln = s.node.ln)) ∧
  (∀ (f : CanFrame) (t : Nat) (s : State), s.node.up = true → importRecs s.node f ≠ [] → svcMatch s.node f = false →
    s.node.acq = false ∨ s.node.roleOn 7 0 = false →
    Ends (exec (.canFrameReceive f t) s) (fun u => u.node.net.lastVal = s.node.net.lastVal ∧ u.node.net.impErr = s.node.net.impErr
      ∧ ∀ ch, u.node.mbChan ch = s.node.mbChan ch)) ∧
  (∀ (f : CanFrame) (rcv t : Nat) (s : State), s.node.up = true → canOn s.node f.port = true → (s.node.can f.port).st ≠ 3 →
    importRecs s.node f = [] → svcMatch s.node f = false →
    (rawMatch s.node f = true → 128 ≤ rawCh s.node f.port → mbBinding s.node (rawCh s.node f.port % 32) = (netId s.node, rcv, true) →
      s.node.isRun (idIsland rcv) = true → (s.node.mbChan (rawCh s.node f.port % 32)).st = .posted →
      s.node.net.rawLost0 < 0xFFFF → s.node.net.rawLost1 < 0xFFFF →
      Ends (exec (.canFrameReceive f t) s) (fun u => u.node.net.rawLost0 = s.node.net.rawLost0 + b2n (!f.port)
        ∧ u.node.net.rawLost1 = s.node.net.rawLost1 + b2n f.port)) ∧
    (rawMatch s.node f = false ∨ rawCh s.node f.port < 128 →
      Ends (exec (.canFrameReceive f t) s) (fun u => ∀ ch, u.node.mbChan ch = s.node.mbChan ch))) ∧
  (∀ (ch : Fin 32) (snd t : Nat) (s : State), s.node.up = true → mbBinding s.node ch.val = (snd, netId s.node, true) →
    (s.node.mbChan ch.val).st = .posted → fld ((s.node.mbChan ch.val).msg.getD 0 0#32) 31 24 = 0x43 →
    let b := msgPayload (s.node.mbChan ch.val).msg
    let p := (b.getD 0 0#8).getLsbD 0
    (canLenOk (u8 b 2) (recBit b 1 1) = false ∨ (recBit b 1 1 = true ∧ canData s.node p = 0) →
      Ends (exec (.canRawSend ch t) s) (fun u => u.node.tx = s.node.tx
        ∧ (u.node.mbChan ch.val).st = .acked ∧ (u.node.mbChan ch.val).code = 2)) ∧
    (canLenOk (u8 b 2) (recBit b 1 1) = true → recBit b 1 1 = false ∨ canData s.node p ≠ 0 →
      canOn s.node p = false ∨ (s.node.can p).st = 3 ∨ s.node.carries = false →
      Ends (exec (.canRawSend ch t) s) (fun u => u.node.tx = s.node.tx
        ∧ (u.node.mbChan ch.val).st = .acked ∧ (u.node.mbChan ch.val).code = 0x12))) ∧
  (∀ (ch : Fin 32) (t : Nat) (s : State), s.node.up = true →
    (s.node.mbChan ch.val).st ≠ .posted ∨ fld ((s.node.mbChan ch.val).msg.getD 0 0#32) 31 24 ≠ 0x43
      ∨ (mbBinding s.node ch.val).2.1 ≠ netId s.node ∨ (mbBinding s.node ch.val).2.2 = false →
    Ends (exec (.canRawSend ch t) s) (fun u => u.node.tx = s.node.tx ∧ u.node.mbChan ch.val = s.node.mbChan ch.val)) ∧
  (∀ (f : CanFrame) (t : Nat) (s : State), s.node.up = true → canOn s.node f.port = true → (s.node.can f.port).st ≠ 3 →
    (svcMatch s.node f = true → f.data.length = 8 → s.node.net.svc = none → fld (w32 f.data 0) 31 28 = 2 →
      let a := fld (w32 f.data 0) 14 0
      accWaits s.node (.wr a (w32 f.data 4)) = true →
      Ends (exec (.canServiceRequest f t) s) (fun u =>
        u.node.net.svc = some (BitVec.ofNat 8 (fld (w32 f.data 0) 23 16), .wr a (w32 f.data 4)))) ∧
    (svcMatch s.node f = true → f.data.length = 8 → s.node.net.svc = none → 1 ≤ fld (w32 f.data 0) 31 28 → fld (w32 f.data 0) 31 28 ≤ 2 →
      let a := fld (w32 f.data 0) 14 0
      regAttr a = none → Ends (exec (.canServiceRequest f t) s) (fun u =>
        SvcSent s u 2 (BitVec.ofNat 8 (fld (w32 f.data 0) 23 16)) a 0#32 ∧ u.node.net.svc = none)) ∧
    (svcMatch s.node f = false ∨ f.data.length ≠ 8 →
      Ends (exec (.canServiceRequest f t) s) (fun u => u.node.net.svc = s.node.net.svc ∧ u.node.ln = s.node.ln)))

end
end

