-- ==== Sys2Proof/Laws/Tables.lean ====
section
/-! SUPPORT. Laws of canonical tables and byte memories: a read after a write, and that every write keeps the canonical
form. -/

namespace Sys2Proof.Machine
open Sys2Proof

variable {α : Type} [DecidableEq α]

/-! ### Reading after writing -/

omit [DecidableEq α] in
theorem tget_filter_ne (d : α) (k j : Nat) (t : Table α) :
    tget d (t.filter (fun x => x.1 != k)) j = if j = k then d else tget d t j := by
  induction t with
  | nil => simp [tget]
  | cons x r ih =>
    obtain ⟨k', v⟩ := x
    by_cases hk : k' = k
    · subst hk
      by_cases hj : j = k'
      · subst hj; simp [ih]
      · have hj' : k' ≠ j := fun h => hj h.symm
        simp [ih, hj, tget, hj']
    · by_cases hj : k' = j
      · subst hj; simp [hk, tget]
      · simp [hk, tget, hj, ih]

omit [DecidableEq α] in
theorem tget_tins (d : α) (k : Nat) (v : α) (j : Nat) (t : Table α) (h : ∀ x ∈ t, x.1 ≠ k) :
    tget d (tins k v t) j = if j = k then v else tget d t j := by
  induction t with
  | nil =>
    by_cases hj : j = k
    · subst hj; simp [tins, tget]
    · have : k ≠ j := fun h => hj h.symm
      simp [tins, tget, hj, this]
  | cons x r ih =>
    obtain ⟨k', v'⟩ := x
    have hk' : k' ≠ k := h (k', v') (by simp)
    have ih' := ih (fun x hx => h x (by simp [hx]))
    by_cases hj : j = k
    · subst hj
      by_cases hlt : j < k'
      · simp [tins, hlt, tget]
      · simp [tins, hlt, tget, hk', ih']
    · have hj' : k ≠ j := fun h => hj h.symm
      by_cases hlt : k < k'
      · simp [tins, hlt, tget, hj, hj']
      · simp [tins, hlt, tget, hj, ih']

/-- A read after a write of a table: the value written at its key, every other entry as before. -/
theorem tget_tset (d : α) (t : Table α) (k : Nat) (v : α) (j : Nat) :
    tget d (tset d t k v) j = if j = k then v else tget d t j := by
  unfold tset
  by_cases hv : v = d
  · subst hv; simp [tget_filter_ne]
  · rw [if_neg hv, tget_tins _ _ _ _ _ (by intro x hx; simpa using (List.mem_filter.mp hx).2), tget_filter_ne]
    by_cases hj : j = k <;> simp [hj]

@[simp] theorem tget_tset_same (d : α) (t : Table α) (k : Nat) (v : α) : tget d (tset d t k v) k = v := by
  simp [tget_tset]

theorem tget_tset_ne (d : α) (t : Table α) (k : Nat) (v : α) (j : Nat) (h : j ≠ k) :
    tget d (tset d t k v) j = tget d t j := by
  simp [tget_tset, h]

/-! ### The canonical form -/

omit [DecidableEq α] in
theorem mem_tins (k : Nat) (v : α) (y : Nat × α) (t : Table α) (h : y ∈ tins k v t) : y = (k, v) ∨ y ∈ t := by
  induction t with
  | nil => simpa [tins] using h
  | cons z q ihq =>
    simp only [tins] at h
    split at h
    · rcases List.mem_cons.mp h with h | h
      · exact .inl h
      · exact .inr h
    · rcases List.mem_cons.mp h with h | h
      · exact .inr (by simp [h])
      · rcases ihq h with h | h
        · exact .inl h
        · exact .inr (by simp [h])

omit [DecidableEq α] in
/-- Keys strictly rising. -/
theorem tins_sorted (k : Nat) (v : α) (t : Table α) (hs : t.Pairwise (fun x y => x.1 < y.1)) (h : ∀ x ∈ t, x.1 ≠ k) :
    (tins k v t).Pairwise (fun x y => x.1 < y.1) := by
  induction t with
  | nil => simp [tins]
  | cons x r ih =>
    obtain ⟨k', v'⟩ := x
    have hne : k' ≠ k := h (k', v') (by simp)
    rw [List.pairwise_cons] at hs
    by_cases hlt : k < k'
    · simp only [tins, hlt, if_true]
      refine List.pairwise_cons.mpr ⟨?_, List.pairwise_cons.mpr hs⟩
      intro y hy
      rcases List.mem_cons.mp hy with rfl | hy
      · exact hlt
      · exact lt_trans hlt (hs.1 y hy)
    · simp only [tins, hlt, if_false]
      refine List.pairwise_cons.mpr ⟨?_, ih hs.2 (fun x hx => h x (by simp [hx]))⟩
      intro y hy
      rcases mem_tins k v y r hy with rfl | hy
      · exact lt_of_le_of_ne (not_lt.mp hlt) hne
      · exact hs.1 y hy

/-- The canonical form, said with the library's words. -/
theorem twf_iff (d : α) (t : Table α) :
    twf d t = true ↔ t.Pairwise (fun x y => x.1 < y.1) ∧ ∀ x ∈ t, x.2 ≠ d := by
  induction t with
  | nil => simp [twf]
  | cons x r ih =>
    obtain ⟨k, v⟩ := x
    cases r with
    | nil => simp [twf]
    | cons y q =>
      obtain ⟨k', v'⟩ := y
      simp only [twf, Bool.and_eq_true, decide_eq_true_eq, ih]
      constructor
      · rintro ⟨⟨hv, hk⟩, hs, ha⟩
        refine ⟨List.pairwise_cons.mpr ⟨?_, hs⟩, ?_⟩
        · intro z hz
          rcases List.mem_cons.mp hz with rfl | hz
          · exact hk
          · exact lt_trans hk ((List.pairwise_cons.mp hs).1 z hz)
        · intro z hz
          rcases List.mem_cons.mp hz with rfl | hz
          · exact hv
          · exact ha z hz
      · rintro ⟨hs, ha⟩
        exact ⟨⟨ha (k, v) (by simp), (List.pairwise_cons.mp hs).1 (k', v') (by simp)⟩, (List.pairwise_cons.mp hs).2,
          fun z hz => ha z (by simp [hz])⟩

/-- A write keeps the canonical form. -/
theorem twf_tset (d : α) (t : Table α) (k : Nat) (v : α) (h : twf d t = true) : twf d (tset d t k v) = true := by
  rw [twf_iff] at h ⊢
  have hf : (t.filter (fun x => x.1 != k)).Pairwise (fun x y => x.1 < y.1) := h.1.sublist List.filter_sublist
  have ha : ∀ x ∈ t.filter (fun x => x.1 != k), x.2 ≠ d := fun x hx => h.2 x (List.mem_filter.mp hx).1
  have hk : ∀ x ∈ t.filter (fun x => x.1 != k), x.1 ≠ k := fun x hx => by simpa using (List.mem_filter.mp hx).2
  unfold tset
  by_cases hv : v = d
  · simpa [hv] using ⟨hf, fun a b hm hb => ha (a, b) (List.mem_filter.mpr ⟨hm, by simpa using hb⟩)⟩
  · rw [if_neg hv]
    refine ⟨tins_sorted k v _ hf hk, ?_⟩
    intro x hx
    rcases mem_tins k v x _ hx with rfl | hx
    · exact hv
    · exact ha x hx

/-! ### Byte memories -/

/-- What a byte of a memory reads after a string of bytes is written at `ofs`. -/
theorem tget_memWrite (d : Byte) (bs : Bytes) (m : Memory) (ofs a : Nat) :
    tget d (memWrite d m ofs bs) a = if ofs ≤ a ∧ a < ofs + bs.length then bs.getD (a - ofs) d else tget d m a := by
  induction bs generalizing m ofs with
  | nil => simp [memWrite]
  | cons b r ih =>
    rw [memWrite, ih, tget_tset]
    by_cases h1 : a = ofs
    · subst h1; simp
    · by_cases h2 : ofs + 1 ≤ a ∧ a < ofs + 1 + r.length
      · have h3 : ofs ≤ a ∧ a < ofs + (b :: r).length := by simp; omega
        obtain ⟨e, he⟩ : ∃ e, a = ofs + 1 + e := ⟨a - (ofs + 1), by omega⟩
        rw [if_pos h2, if_pos h3]
        have e1 : a - (ofs + 1) = e := by omega
        have e2 : a - ofs = e + 1 := by omega
        rw [e1, e2]; simp
      · have h3 : ¬ (ofs ≤ a ∧ a < ofs + (b :: r).length) := by simp; omega
        rw [if_neg h2, if_neg h3, if_neg h1]

/-- Bytes outside the written string stay. -/
theorem tget_memWrite_out (d : Byte) (bs : Bytes) (m : Memory) (ofs a : Nat) (h : a < ofs ∨ ofs + bs.length ≤ a) :
    tget d (memWrite d m ofs bs) a = tget d m a := by
  rw [tget_memWrite, if_neg (by omega)]

/-- A write of bytes keeps the canonical form. -/
theorem memWrite_wf (d : Byte) (bs : Bytes) (m : Memory) (ofs : Nat) (h : Memory.wf d m = true) :
    Memory.wf d (memWrite d m ofs bs) = true := by
  induction bs generalizing m ofs with
  | nil => exact h
  | cons b r ih => exact ih _ _ (twf_tset d m ofs b h)

@[simp] theorem length_leBytes (n x : Nat) : (leBytes n x).length = n := by
  induction n generalizing x with
  | zero => rfl
  | succ n ih => simp [leBytes, ih]

/-- A word written is the word read (R7). -/
theorem memWord_memWrite (d : Byte) (m : Memory) (ofs : Nat) (v : Word) :
    memWord d (memWrite d m ofs (leBytes 4 v.toNat)) ofs = v := by
  have hv := v.isLt
  simp only [memWord, memBytes, List.range, List.range.loop, List.map, tget_memWrite]
  simp [leBytes, w32, u32, u16, u8, wd]
  apply BitVec.eq_of_toNat_eq
  simp
  omega

end Sys2Proof.Machine
end

