-- ==== Sys2Proof/Laws/Settle.lean ====
section
/-! SUPPORT. What follows a command (`settle`), said once: the field's own work reaches the pins, the interlock terms, runs of
shaped outputs, RUN and DEGRADED, the recorder and the outgoing frames; it leaves everything else, clears no event flag and
takes no record of another producer from its slot. -/

namespace Sys2Proof.Machine
open Sys2Proof

/-- A digital output apart from what the field's own work writes: pin, hold, overload, station signal. -/
def DoChan.core (u : DoChan) : DoChan :=
  { u with overload := false, held := none, driven := false, on := false, chgAt := 0, ws := false }

/-- The module apart from what the field's own work writes. -/
def Node.core (n : Node) : Node :=
  { n with
    dig := { n.dig with dout := [], diSeen := [], doSeen := [], diDirty := 0#32, doDirty := 0#32, driving := false }
    il := { refused := n.il.refused }
    evt := {}
    shp := {}
    jn := { n.jn with slots := [], seqs := [], overrun := 0#32, ovrLast := 0, maxDepth := 0 }
    rcd := {}
    mram := {}
    dev := { n.dev with st := .boot, prev := .boot, stateTick := 0#32 }
    dup := { n.dup with sent := [], cleanAt := 0 }
    alm := { n.alm with alfDue := [] }
    net := { n.net with alerts := [], revs := [], alertAt := [], callSeen := [], line := 0 }
    tx := [] }

/-- `m` follows `n` by the field's own work. -/
structure Follows (n m : Node) : Prop where
  core : m.core = n.core
  flag : ∀ k, n.evt.flag k = true → m.evt.flag k = true
  slot : ∀ r ∈ n.jn.slots, r.prod < 118 ∨ 126 ≤ r.prod → r ∈ m.jn.slots
  dout : ∀ k, (m.doC k).core = (n.doC k).core
  mode : m.running = n.running ∧ (n.running = false → m.dev = n.dev)

theorem Follows.refl (n : Node) : Follows n n := ⟨rfl, fun _ h => h, fun _ h _ => h, fun _ => rfl, rfl, fun _ => rfl⟩

theorem Follows.trans {a b c : Node} (h : Follows a b) (g : Follows b c) : Follows a c :=
  ⟨g.core.trans h.core, fun k x => g.flag k (h.flag k x), fun r x p => g.slot r (h.slot r x p) p,
   fun k => (g.dout k).trans (h.dout k), g.mode.1.trans h.mode.1,
   fun x => (g.mode.2 (h.mode.1.trans x)).trans (h.mode.2 x)⟩

/-- A fold of following steps follows. -/
theorem Follows.foldl {β : Type} (f : Node → β → Node) (l : List β) (h : ∀ x ∈ l, ∀ n, Follows n (f n x)) (n : Node) :
    Follows n (l.foldl f n) := by
  induction l generalizing n with
  | nil => exact Follows.refl n
  | cons x r ih => exact (h x (by simp) n).trans (ih (fun y hy => h y (by simp [hy])) _)

theorem Follows.then_fold {β : Type} {n m : Node} {f : Node → β → Node} {l : List β} (h : Follows n m)
    (hf : ∀ x ∈ l, ∀ k, Follows k (f k x)) : Follows n (l.foldl f m) := h.trans (Follows.foldl f l hf m)

/-- A change of fields that `core`, events, slots and outputs do not show follows. -/
theorem Follows.of_eq {n m : Node} (hc : m.core = n.core) (he : m.evt = n.evt) (hj : m.jn.slots = n.jn.slots)
    (hd : m.dig.dout = n.dig.dout) (hv : m.dev = n.dev) : Follows n m :=
  ⟨hc, fun k h => by rw [he]; exact h, fun r h _ => by rw [hj]; exact h, fun k => by simp [Node.doC, hd],
   by simp [Node.running, hv], fun _ => hv⟩

/-! ### Events and records -/

theorem occur_flag (e : Events) (j t k : Nat) (h : e.flag k = true) : (e.occur j t).flag k = true := by
  unfold Events.occur
  have h' : ({ e with stat := e.stat ||| evBit j, occ := tset 0 e.occ j (satInc 255 (e.occOf j)) } : Events).flag k = true := by
    simp only [Events.flag] at h ⊢
    simp [h]
  dsimp only
  split
  · simp only [Events.append]
    split <;> exact h'
  · exact h'

theorem occur_flag_self (e : Events) (k t : Nat) (hk : k < 128) : (e.occur k t).flag k = true := by
  have hb : (evBit k).getLsbD k = true := by
    simp only [evBit, BitVec.getLsbD_ofNat, hk, Nat.testBit_two_pow_self, decide_true, Bool.and_self]
  unfold Events.occur
  have h' : ({ e with stat := e.stat ||| evBit k, occ := tset 0 e.occ k (satInc 255 (e.occOf k)) } : Events).flag k = true := by
    simp [Events.flag, hb]
  dsimp only
  split
  · simp only [Events.append]
    split <;> exact h'
  · exact h'

/-- Raising an event keeps every flag. -/
theorem raise_follows (k : Nat) (n : Node) : Follows n (raise k n) := by
  unfold raise
  split
  · exact ⟨rfl, fun j h => occur_flag _ _ _ _ h, fun _ h _ => h, fun _ => rfl, rfl, fun _ => rfl⟩
  · exact Follows.refl n

theorem Follows.then_raise {n m : Node} (k : Nat) (h : Follows n m) : Follows n (raise k m) := h.trans (raise_follows k m)

theorem raiseIf_follows (b : Bool) (k : Nat) (n : Node) : Follows n (raiseIf b k n) := by
  cases b
  · exact Follows.refl n
  · exact raise_follows k n

/-- Event `k` is raised: its flag is set (R134). -/
theorem raise_flag (k : Nat) (n : Node) (h : evtExists k = true) (hk : k < 128) : (raise k n).evt.flag k = true := by
  unfold raise
  rw [if_pos h]
  exact occur_flag_self _ _ _ hk

theorem recNote_follows (a b : Nat) (p : Option Bytes) (n : Node) : Follows n (recNote a b p n) := Follows.of_eq rfl rfl rfl rfl rfl

theorem Follows.then_note {n m : Node} (a b : Nat) (p : Option Bytes) (h : Follows n m) : Follows n (recNote a b p m) :=
  h.trans (recNote_follows a b p m)

theorem recOcc_follows (a b : Nat) (n : Node) : Follows n (recOcc a b n) := Follows.of_eq rfl rfl rfl rfl rfl

theorem recOccIf_follows (c : Bool) (a b : Nat) (n : Node) : Follows n (recOccIf c a b n) := by
  cases c
  · exact Follows.refl n
  · exact recOcc_follows a b n

/-- RUN and DEGRADED change into each other. -/
theorem enter_follows (x : DevSt) (n : Node) (hx : x = .run ∨ x = .degraded) (hn : n.running = true) :
    Follows n (enter x n) := by
  unfold enter
  split
  · exact Follows.refl n
  · generalize hm : raise 0 { n with dev.prev := n.dev.st, dev.st := x, dev.stateTick := n.scan } = m
    have hr : m.running = true := by
      subst hm
      simp only [raise, Node.running]
      rcases hx with rfl | rfl <;> rfl
    have h : Follows n m := by
      subst hm
      have h0 := raise_follows 0 { n with dev.prev := n.dev.st, dev.st := x, dev.stateTick := n.scan }
      exact ⟨h0.core, h0.flag, h0.slot, h0.dout, hr.trans hn.symm, fun h => by simp [hn] at h⟩
    refine Follows.then_note _ _ _ (h.trans ?_)
    rcases hx with rfl | rfl <;> exact Follows.of_eq rfl rfl rfl rfl rfl

theorem complete_follows (p g : Nat) (es : List Entry) (t : Nat) (n : Node) (h : 118 ≤ p ∧ p < 126) :
    Follows n (complete p g es t n) := by
  have hs : ∀ r ∈ n.jn.slots, r.prod < 118 ∨ 126 ≤ r.prod →
      r ∈ n.jn.slots.filter (fun x => !(x.prod == p && x.target == g)) := by
    intro r hr hp
    refine List.mem_filter.mpr ⟨hr, ?_⟩
    have : r.prod ≠ p := by omega
    simp [this]
  unfold complete
  dsimp only
  split
  · refine Follows.then_raise 41 ?_
    exact ⟨rfl, fun _ h => h, fun r hr hp => List.mem_append_left _ (hs r hr hp), fun _ => rfl, rfl, fun _ => rfl⟩
  · exact ⟨rfl, fun _ h => h, fun r hr hp => List.mem_append_left _ (hs r hr hp), fun _ => rfl, rfl, fun _ => rfl⟩

/-! ### The field -/

theorem diSync_follows (n : Node) : Follows n (diSync n) := by
  unfold diSync
  refine Follows.foldl _ _ (fun g _ m => ?_) n
  dsimp only
  split
  · exact Follows.refl m
  · exact Follows.of_eq rfl rfl rfl rfl rfl

theorem setCmp_follows (k : Nat) (b : Bool) (n : Node) : Follows n (setCmp k b n) := Follows.of_eq rfl rfl rfl rfl rfl

theorem ilTerm_follows (n : Node) (r : Bytes) : Follows n (ilTerm n r) := by
  unfold ilTerm
  dsimp only
  split
  · exact Follows.of_eq rfl rfl rfl rfl rfl
  · split
    · exact Follows.then_note _ _ _ (Follows.then_raise 70 (Follows.of_eq rfl rfl rfl rfl rfl))
    · exact Follows.of_eq rfl rfl rfl rfl rfl

theorem ilEval_follows (n : Node) : Follows n (ilEval n) := by
  unfold ilEval
  split
  · exact Follows.refl n
  · dsimp only
    refine Follows.then_fold (Follows.then_fold (Follows.of_eq rfl rfl rfl rfl rfl) (fun r _ m => ?_)) (fun r _ m => ilTerm_follows m r)
    split
    · exact setCmp_follows _ _ m
    · exact Follows.refl m

/-- Changing what `DoChan.core` does not show of one output follows. -/
theorem setDo_follows (k : Nat) (u : DoChan) (n : Node) (h : u.core = (n.doC k).core) : Follows n (setDo k u n) :=
  ⟨rfl, fun _ x => x, fun _ x _ => x, fun j => by
    simp only [Node.doC, setDo, tget_tset]
    split
    · next e => rw [e]; exact h
    · rfl, rfl, fun _ => rfl⟩

theorem doStep_follows (n : Node) (k : Nat) : Follows n (doStep n k) := by
  unfold doStep
  dsimp only
  refine Follows.trans (setDo_follows k _ n ?_) (recOccIf_follows _ _ _ _)
  repeat' split
  all_goals rfl

theorem doSync_follows (n : Node) : Follows n (doSync n) := by
  unfold doSync
  dsimp only
  have h := Follows.foldl doStep (List.range 32) (fun k _ m => doStep_follows m k) n
  generalize (List.range 32).foldl doStep n = a at h
  refine Follows.then_fold (h.trans (Follows.of_eq rfl rfl rfl rfl rfl)) (fun f _ m => ?_)
  split
  · exact Follows.refl m
  · exact Follows.of_eq rfl rfl rfl rfl rfl

theorem wsSync_follows (n : Node) : Follows n (wsSync n) := by
  unfold wsSync
  split
  · exact Follows.refl n
  · refine Follows.foldl _ _ (fun k _ m => ?_) n
    dsimp only
    split
    · exact setDo_follows k _ m rfl
    · exact Follows.refl m

/-! ### Shaped outputs -/

theorem setSv_follows (k : Nat) (u : SvChan) (n : Node) : Follows n (setSv k u n) := Follows.of_eq rfl rfl rfl rfl rfl

theorem svSubMark_follows (b : Nat) (n : Node) : Follows n (svSubMark b n) := by
  have h : ∀ (k : Nat) (m : Node),
      Follows m (if svSub m k then modSv k (fun u => { u with subSeen := true }) m else m) := by
    intro k m
    split
    · exact setSv_follows k _ m
    · exact Follows.refl m
  have g : ∀ (k : Nat) (m : Node), Follows m
      (if svStalled (m.svC k) && (m.svC (svSib k)).phase != 1 then modSv k (fun u => { u with wait := .freed }) m else m) := by
    intro k m
    split
    · exact setSv_follows k _ m
    · exact Follows.refl m
  exact (((h (2 * b) n).trans (h (2 * b + 1) _)).trans (g (2 * b) _)).trans (g (2 * b + 1) _)

theorem svAbort_follows (k t : Nat) (n : Node) (hk : k < 16) : Follows n (svAbort k t n) := by
  unfold svAbort
  dsimp only
  split
  · exact (setSv_follows k _ n).trans ((complete_follows _ _ _ _ _ (by omega)).trans (svSubMark_follows _ _))
  · exact setSv_follows k _ n

theorem svDrop_follows (k t : Nat) (n : Node) : Follows n (svDrop k t n) :=
  (setSv_follows k _ n).trans (svSubMark_follows _ _)

theorem svSync_follows (n : Node) : Follows n (svSync n) := by
  unfold svSync
  refine Follows.foldl _ _ (fun k hk m => ?_) n
  dsimp only
  split
  · refine Follows.trans ?_ (setSv_follows k _ _)
    split
    · exact svAbort_follows k _ m (List.mem_range.mp hk)
    · exact svDrop_follows k _ m
  · split
    · exact setSv_follows k _ m
    · split
      · exact setSv_follows k _ m
      · exact Follows.refl m

theorem fieldSync_follows (n : Node) : Follows n (fieldSync n) :=
  ((((diSync_follows n).trans (ilEval_follows _)).trans (wsSync_follows _)).trans (doSync_follows _)).trans (svSync_follows _)

/-! ### Degradation, recorder, frames -/

theorem degradeSync_follows (n : Node) : Follows n (degradeSync n) := by
  unfold degradeSync
  split
  · next h =>
    split
    · exact enter_follows _ n (.inr rfl) (by simp [Node.running, h])
    · exact Follows.refl n
  · next h =>
    split
    · exact Follows.refl n
    · exact enter_follows _ n (.inl rfl) (by simp [Node.running, h])
  · exact Follows.refl n

theorem recDrop_follows (n : Node) : Follows n (recDrop n) :=
  Follows.then_raise 123 (Follows.of_eq rfl rfl rfl rfl rfl)

theorem recPlace_follows (a b : Nat) (p : Bytes) (n : Node) : Follows n (recPlace a b p n) := by
  have h1 : Follows n (recRate n) := by
    unfold recRate
    dsimp only
    split <;> exact Follows.of_eq rfl rfl rfl rfl rfl
  have h2 : ∀ k m, Follows m (recStore k a b p m) := fun k m => Follows.of_eq rfl rfl rfl rfl rfl
  refine h1.trans ?_
  unfold recPlace
  dsimp only
  split
  · exact recDrop_follows _
  · split
    · exact h2 _ _
    · split
      · exact h2 _ _
      · exact recDrop_follows _

theorem statAdd_follows (i : Nat) (f : StatSlot → StatSlot) (n : Node) : Follows n (statAdd i f n) := by
  have h1 : Follows n (statRoll i n) := by
    unfold statRoll
    dsimp only
    repeat' split
    all_goals exact Follows.of_eq rfl rfl rfl rfl rfl
  exact h1.trans (Follows.of_eq rfl rfl rfl rfl rfl)

theorem countOcc_follows (c h : Nat) (n : Node) : Follows n (countOcc c h n) := by
  unfold countOcc
  refine Follows.foldl _ _ (fun x _ m => ?_) n
  dsimp only
  split
  · exact statAdd_follows _ _ m
  · exact Follows.refl m

theorem recFlush_follows (n : Node) : Follows n (recFlush n) := by
  unfold recFlush
  split
  · exact Follows.refl n
  · dsimp only
    refine Follows.then_fold (Follows.then_fold (Follows.of_eq rfl rfl rfl rfl rfl) (fun x _ m => ?_)) (fun x _ m => countOcc_follows _ _ m)
    unfold recOne
    split
    · exact recPlace_follows _ _ _ m
    · exact recDrop_follows m

theorem outFlush_follows (n : Node) : Follows n (outFlush n) := by
  unfold outFlush
  split
  · refine Follows.foldl _ _ (fun x _ m => ?_) n
    dsimp only
    split
    · exact Follows.refl m
    · exact Follows.of_eq rfl rfl rfl rfl rfl
  · exact Follows.refl n

theorem sendFrame_follows (c : TxChan) (d : Nat) (b : Bytes) (n : Node) : Follows n (sendFrame c d b n) :=
  Follows.of_eq rfl rfl rfl rfl rfl

theorem alertFrame_follows (b : Bytes) (n : Node) : Follows n (alertFrame b n) := by
  have h : ∀ (p : Bool) (m : Node),
      Follows m (if alertOn m p then sendFrame (.iec450 p) (n.net.line % 999 + 1) (alertDatagram n (n.net.line % 999 + 1) b) m else m) := by
    intro p m
    split
    · exact sendFrame_follows _ _ _ m
    · exact Follows.refl m
  exact Follows.trans (b := { n with net.line := n.net.line % 999 + 1 }) (Follows.of_eq rfl rfl rfl rfl rfl)
    ((h false _).trans (h true _))

theorem sendAlf_follows (a : AlertRef) (n : Node) : Follows n (sendAlf a n) := by
  unfold sendAlf
  refine Follows.trans (b := { n with net.alerts := tset 0 n.net.alerts (alertId a) (alertNow n a),
                                      net.revs := tset 0 n.net.revs (alertId a) (tget 0 n.net.revs (alertId a) % 99 + 1) })
    (Follows.of_eq rfl rfl rfl rfl rfl) (alertFrame_follows _ _)

theorem alfDrop_follows (n : Node) : Follows n (if n.alm.alfDue.isEmpty then n else { n with alm.alfDue := [] }) := by
  split
  · exact Follows.refl n
  · exact Follows.of_eq rfl rfl rfl rfl rfl

theorem alertStamp_follows (id : Nat) (n : Node) : Follows n (alertStamp id n) := Follows.of_eq rfl rfl rfl rfl rfl

theorem callStamp_follows (n : Node) (s : Nat) : Follows n (callStamp n s) := by
  unfold callStamp
  dsimp only
  split
  · exact Follows.refl n
  · exact Follows.of_eq rfl rfl rfl rfl rfl

theorem alertFlush_follows (n : Node) : Follows n (alertFlush n) := by
  unfold alertFlush
  split
  · dsimp only
    generalize hk : (List.range 16).foldl callStamp ((n.alm.alfDue.map (·.1)).dedup.foldl (fun m i => alertStamp (10000 + i) m) n) = k
    have h0 : Follows n k := hk ▸ Follows.then_fold (Follows.foldl _ _ (fun i _ m => alertStamp_follows _ m) n)
      (fun s _ m => callStamp_follows m s)
    generalize hm : (if n.alm.alfDue.isEmpty then k else { k with alm.alfDue := [] } : Node) = m
    have h : Follows n m := hm ▸ (by
      split
      · exact h0
      · exact h0.trans (Follows.of_eq rfl rfl rfl rfl rfl))
    split
    · refine Follows.then_fold (Follows.then_fold h (fun x _ k => ?_)) (fun x _ k => ?_)
      · split
        · split
          · exact sendAlf_follows _ k
          · exact Follows.refl k
        · exact Follows.refl k
      · split
        · exact sendAlf_follows _ k
        · exact Follows.refl k
    · exact h
  · exact alfDrop_follows n

/-- The end of a command follows the command. -/
theorem settle_follows (n : Node) : Follows n (settle n) :=
  ((((fieldSync_follows n).trans (degradeSync_follows _)).trans (recFlush_follows _)).trans (outFlush_follows _)).trans
    (alertFlush_follows _)

end Sys2Proof.Machine
end

