-- ==== Sys2Proof/Laws/State.lean ====
section
/-! SUPPORT. What each shared update of the state leaves as it was, field by field, and what each channel's update reads as
afterwards. -/

namespace Sys2Proof.Machine
open Sys2Proof

/-! ### The state as a whole -/

@[simp] theorem onNode_eq (f : Node → Node) (s : State) : onNode f s = .next { s with node := f s.node } := rfl
@[simp] theorem onBoth_eq (f : Mems → Node → Mems × Node) (s : State) :
    onBoth f s = .next { s with mem := (f s.mem s.node).1, node := (f s.mem s.node).2 } := rfl

/-! ### Wrappers, where the module is up -/

theorem plantOp_up (f : Node → Node) (n : Node) (h : n.up = true) : plantOp f n = settle (f n) := by simp [plantOp, h]
theorem plantAt_up (t : Nat) (f : Node → Node) (n : Node) (h : n.up = true) : plantAt t f n = settle (f (n.advance t)) := by
  simp [plantAt, h]
theorem upAt_up (t : Nat) (f : Node → Node) (n : Node) (h : n.up = true) : upAt t f n = f (n.advance t) := by simp [upAt, h]
theorem upMem_up (t : Nat) (f : Mems → Node → Mems × Node) (m : Mems) (n : Node) (h : n.up = true) :
    upMem t f m n = f m (n.advance t) := by simp [upMem, h]
theorem hostOp_up (p : HostPort) (c : Acc) (m : Mems) (n : Node) (h : n.up = true) : hostOp p c m n = hostDo p c m n := by
  simp [hostOp, h]
theorem plantMem_mem (t : Nat) (f : Mems → Node → Mems × Node) (m : Mems) (n : Node) (h : n.up = true) :
    (plantMem t f m n).1 = (f m (n.advance t)).1 := by simp [plantMem, h]
theorem plantMem_node (t : Nat) (f : Mems → Node → Mems × Node) (m : Mems) (n : Node) (h : n.up = true)
    (h2 : (f m (n.advance t)).2.up = true) : (plantMem t f m n).2 = settle (f m (n.advance t)).2 := by simp [plantMem, h, h2]

/-! ### Shared updates of the module -/


@[simp] theorem advance_ports (t : Nat) (n : Node) : (n.advance t).ports = n.ports := rfl
@[simp] theorem advance_isl (t : Nat) (n : Node) : (n.advance t).isl = n.isl := rfl
@[simp] theorem advance_jn (t : Nat) (n : Node) : (n.advance t).jn = n.jn := rfl
@[simp] theorem advance_ld (t : Nat) (n : Node) : (n.advance t).ld = n.ld := rfl
@[simp] theorem advance_dev (t : Nat) (n : Node) : (n.advance t).dev = n.dev := rfl
@[simp] theorem advance_blk (t : Nat) (n : Node) : (n.advance t).blk = n.blk := rfl
@[simp] theorem advance_spi (t : Nat) (n : Node) : (n.advance t).spi = n.spi := rfl
@[simp] theorem advance_wf (t : Nat) (n : Node) : (n.advance t).wf = n.wf := rfl
@[simp] theorem advance_evt (t : Nat) (n : Node) : (n.advance t).evt = n.evt := rfl
@[simp] theorem advance_mbx (t : Nat) (n : Node) : (n.advance t).mbx = n.mbx := rfl
@[simp] theorem advance_ui (t : Nat) (n : Node) : (n.advance t).ui = n.ui := rfl
@[simp] theorem advance_ex (t : Nat) (n : Node) : (n.advance t).ex = n.ex := rfl
@[simp] theorem advance_cj (t : Nat) (n : Node) : (n.advance t).cj = n.cj := rfl
@[simp] theorem advance_cal (t : Nat) (n : Node) : (n.advance t).cal = n.cal := rfl
@[simp] theorem advance_mw (t : Nat) (n : Node) : (n.advance t).mw = n.mw := rfl
@[simp] theorem advance_ca (t : Nat) (n : Node) : (n.advance t).ca = n.ca := rfl
@[simp] theorem advance_lo (t : Nat) (n : Node) : (n.advance t).lo = n.lo := rfl
@[simp] theorem advance_po (t : Nat) (n : Node) : (n.advance t).po = n.po := rfl
@[simp] theorem advance_hart (t : Nat) (n : Node) : (n.advance t).hart = n.hart := rfl
@[simp] theorem advance_dig (t : Nat) (n : Node) : (n.advance t).dig = n.dig := rfl
@[simp] theorem advance_il (t : Nat) (n : Node) : (n.advance t).il = n.il := rfl
@[simp] theorem advance_shp (t : Nat) (n : Node) : (n.advance t).shp = n.shp := rfl
@[simp] theorem advance_pf (t : Nat) (n : Node) : (n.advance t).pf = n.pf := rfl
@[simp] theorem advance_cmp (t : Nat) (n : Node) : (n.advance t).cmp = n.cmp := rfl
@[simp] theorem advance_ln (t : Nat) (n : Node) : (n.advance t).ln = n.ln := rfl
@[simp] theorem advance_gen (t : Nat) (n : Node) : (n.advance t).gen = n.gen := rfl
@[simp] theorem advance_alm (t : Nat) (n : Node) : (n.advance t).alm = n.alm := rfl
@[simp] theorem advance_seq (t : Nat) (n : Node) : (n.advance t).seq = n.seq := rfl
@[simp] theorem advance_dsp (t : Nat) (n : Node) : (n.advance t).dsp = n.dsp := rfl
@[simp] theorem advance_clk (t : Nat) (n : Node) : (n.advance t).clk = n.clk := rfl
@[simp] theorem advance_mram (t : Nat) (n : Node) : (n.advance t).mram = n.mram := rfl
@[simp] theorem advance_rcd (t : Nat) (n : Node) : (n.advance t).rcd = n.rcd := rfl
@[simp] theorem advance_dup (t : Nat) (n : Node) : (n.advance t).dup = n.dup := rfl
@[simp] theorem advance_mir (t : Nat) (n : Node) : (n.advance t).mir = n.mir := rfl
@[simp] theorem advance_ckpt (t : Nat) (n : Node) : (n.advance t).ckpt = n.ckpt := rfl
@[simp] theorem advance_net (t : Nat) (n : Node) : (n.advance t).net = n.net := rfl
@[simp] theorem advance_dtr (t : Nat) (n : Node) : (n.advance t).dtr = n.dtr := rfl
@[simp] theorem advance_fwActs (t : Nat) (n : Node) : (n.advance t).fwActs = n.fwActs := rfl
@[simp] theorem advance_tx (t : Nat) (n : Node) : (n.advance t).tx = n.tx := rfl
@[simp] theorem advance_free (t : Nat) (n : Node) : (n.advance t).free = n.free := rfl

@[simp] theorem recNote_time (a b : Nat) (p : Option Bytes) (n : Node) : (recNote a b p n).time = n.time := rfl
@[simp] theorem recNote_ports (a b : Nat) (p : Option Bytes) (n : Node) : (recNote a b p n).ports = n.ports := rfl
@[simp] theorem recNote_isl (a b : Nat) (p : Option Bytes) (n : Node) : (recNote a b p n).isl = n.isl := rfl
@[simp] theorem recNote_jn (a b : Nat) (p : Option Bytes) (n : Node) : (recNote a b p n).jn = n.jn := rfl
@[simp] theorem recNote_ld (a b : Nat) (p : Option Bytes) (n : Node) : (recNote a b p n).ld = n.ld := rfl
@[simp] theorem recNote_dev (a b : Nat) (p : Option Bytes) (n : Node) : (recNote a b p n).dev = n.dev := rfl
@[simp] theorem recNote_blk (a b : Nat) (p : Option Bytes) (n : Node) : (recNote a b p n).blk = n.blk := rfl
@[simp] theorem recNote_spi (a b : Nat) (p : Option Bytes) (n : Node) : (recNote a b p n).spi = n.spi := rfl
@[simp] theorem recNote_wf (a b : Nat) (p : Option Bytes) (n : Node) : (recNote a b p n).wf = n.wf := rfl
@[simp] theorem recNote_evt (a b : Nat) (p : Option Bytes) (n : Node) : (recNote a b p n).evt = n.evt := rfl
@[simp] theorem recNote_mbx (a b : Nat) (p : Option Bytes) (n : Node) : (recNote a b p n).mbx = n.mbx := rfl
@[simp] theorem recNote_ui (a b : Nat) (p : Option Bytes) (n : Node) : (recNote a b p n).ui = n.ui := rfl
@[simp] theorem recNote_ex (a b : Nat) (p : Option Bytes) (n : Node) : (recNote a b p n).ex = n.ex := rfl
@[simp] theorem recNote_cj (a b : Nat) (p : Option Bytes) (n : Node) : (recNote a b p n).cj = n.cj := rfl
@[simp] theorem recNote_cal (a b : Nat) (p : Option Bytes) (n : Node) : (recNote a b p n).cal = n.cal := rfl
@[simp] theorem recNote_mw (a b : Nat) (p : Option Bytes) (n : Node) : (recNote a b p n).mw = n.mw := rfl
@[simp] theorem recNote_ca (a b : Nat) (p : Option Bytes) (n : Node) : (recNote a b p n).ca = n.ca := rfl
@[simp] theorem recNote_lo (a b : Nat) (p : Option Bytes) (n : Node) : (recNote a b p n).lo = n.lo := rfl
@[simp] theorem recNote_po (a b : Nat) (p : Option Bytes) (n : Node) : (recNote a b p n).po = n.po := rfl
@[simp] theorem recNote_hart (a b : Nat) (p : Option Bytes) (n : Node) : (recNote a b p n).hart = n.hart := rfl
@[simp] theorem recNote_dig (a b : Nat) (p : Option Bytes) (n : Node) : (recNote a b p n).dig = n.dig := rfl
@[simp] theorem recNote_il (a b : Nat) (p : Option Bytes) (n : Node) : (recNote a b p n).il = n.il := rfl
@[simp] theorem recNote_shp (a b : Nat) (p : Option Bytes) (n : Node) : (recNote a b p n).shp = n.shp := rfl
@[simp] theorem recNote_pf (a b : Nat) (p : Option Bytes) (n : Node) : (recNote a b p n).pf = n.pf := rfl
@[simp] theorem recNote_cmp (a b : Nat) (p : Option Bytes) (n : Node) : (recNote a b p n).cmp = n.cmp := rfl
@[simp] theorem recNote_ln (a b : Nat) (p : Option Bytes) (n : Node) : (recNote a b p n).ln = n.ln := rfl
@[simp] theorem recNote_gen (a b : Nat) (p : Option Bytes) (n : Node) : (recNote a b p n).gen = n.gen := rfl
@[simp] theorem recNote_alm (a b : Nat) (p : Option Bytes) (n : Node) : (recNote a b p n).alm = n.alm := rfl
@[simp] theorem recNote_seq (a b : Nat) (p : Option Bytes) (n : Node) : (recNote a b p n).seq = n.seq := rfl
@[simp] theorem recNote_dsp (a b : Nat) (p : Option Bytes) (n : Node) : (recNote a b p n).dsp = n.dsp := rfl
@[simp] theorem recNote_clk (a b : Nat) (p : Option Bytes) (n : Node) : (recNote a b p n).clk = n.clk := rfl
@[simp] theorem recNote_mram (a b : Nat) (p : Option Bytes) (n : Node) : (recNote a b p n).mram = n.mram := rfl
@[simp] theorem recNote_dup (a b : Nat) (p : Option Bytes) (n : Node) : (recNote a b p n).dup = n.dup := rfl
@[simp] theorem recNote_mir (a b : Nat) (p : Option Bytes) (n : Node) : (recNote a b p n).mir = n.mir := rfl
@[simp] theorem recNote_ckpt (a b : Nat) (p : Option Bytes) (n : Node) : (recNote a b p n).ckpt = n.ckpt := rfl
@[simp] theorem recNote_net (a b : Nat) (p : Option Bytes) (n : Node) : (recNote a b p n).net = n.net := rfl
@[simp] theorem recNote_dtr (a b : Nat) (p : Option Bytes) (n : Node) : (recNote a b p n).dtr = n.dtr := rfl
@[simp] theorem recNote_fwActs (a b : Nat) (p : Option Bytes) (n : Node) : (recNote a b p n).fwActs = n.fwActs := rfl
@[simp] theorem recNote_tx (a b : Nat) (p : Option Bytes) (n : Node) : (recNote a b p n).tx = n.tx := rfl
@[simp] theorem recNote_free (a b : Nat) (p : Option Bytes) (n : Node) : (recNote a b p n).free = n.free := rfl

@[simp] theorem recNoteIf_time (c : Bool) (a b : Nat) (p : Option Bytes) (n : Node) : (recNoteIf c a b p n).time = n.time := by cases c <;> rfl
@[simp] theorem recNoteIf_ports (c : Bool) (a b : Nat) (p : Option Bytes) (n : Node) : (recNoteIf c a b p n).ports = n.ports := by cases c <;> rfl
@[simp] theorem recNoteIf_isl (c : Bool) (a b : Nat) (p : Option Bytes) (n : Node) : (recNoteIf c a b p n).isl = n.isl := by cases c <;> rfl
@[simp] theorem recNoteIf_jn (c : Bool) (a b : Nat) (p : Option Bytes) (n : Node) : (recNoteIf c a b p n).jn = n.jn := by cases c <;> rfl
@[simp] theorem recNoteIf_ld (c : Bool) (a b : Nat) (p : Option Bytes) (n : Node) : (recNoteIf c a b p n).ld = n.ld := by cases c <;> rfl
@[simp] theorem recNoteIf_dev (c : Bool) (a b : Nat) (p : Option Bytes) (n : Node) : (recNoteIf c a b p n).dev = n.dev := by cases c <;> rfl
@[simp] theorem recNoteIf_blk (c : Bool) (a b : Nat) (p : Option Bytes) (n : Node) : (recNoteIf c a b p n).blk = n.blk := by cases c <;> rfl
@[simp] theorem recNoteIf_spi (c : Bool) (a b : Nat) (p : Option Bytes) (n : Node) : (recNoteIf c a b p n).spi = n.spi := by cases c <;> rfl
@[simp] theorem recNoteIf_wf (c : Bool) (a b : Nat) (p : Option Bytes) (n : Node) : (recNoteIf c a b p n).wf = n.wf := by cases c <;> rfl
@[simp] theorem recNoteIf_evt (c : Bool) (a b : Nat) (p : Option Bytes) (n : Node) : (recNoteIf c a b p n).evt = n.evt := by cases c <;> rfl
@[simp] theorem recNoteIf_mbx (c : Bool) (a b : Nat) (p : Option Bytes) (n : Node) : (recNoteIf c a b p n).mbx = n.mbx := by cases c <;> rfl
@[simp] theorem recNoteIf_ui (c : Bool) (a b : Nat) (p : Option Bytes) (n : Node) : (recNoteIf c a b p n).ui = n.ui := by cases c <;> rfl
@[simp] theorem recNoteIf_ex (c : Bool) (a b : Nat) (p : Option Bytes) (n : Node) : (recNoteIf c a b p n).ex = n.ex := by cases c <;> rfl
@[simp] theorem recNoteIf_cj (c : Bool) (a b : Nat) (p : Option Bytes) (n : Node) : (recNoteIf c a b p n).cj = n.cj := by cases c <;> rfl
@[simp] theorem recNoteIf_cal (c : Bool) (a b : Nat) (p : Option Bytes) (n : Node) : (recNoteIf c a b p n).cal = n.cal := by cases c <;> rfl
@[simp] theorem recNoteIf_mw (c : Bool) (a b : Nat) (p : Option Bytes) (n : Node) : (recNoteIf c a b p n).mw = n.mw := by cases c <;> rfl
@[simp] theorem recNoteIf_ca (c : Bool) (a b : Nat) (p : Option Bytes) (n : Node) : (recNoteIf c a b p n).ca = n.ca := by cases c <;> rfl
@[simp] theorem recNoteIf_lo (c : Bool) (a b : Nat) (p : Option Bytes) (n : Node) : (recNoteIf c a b p n).lo = n.lo := by cases c <;> rfl
@[simp] theorem recNoteIf_po (c : Bool) (a b : Nat) (p : Option Bytes) (n : Node) : (recNoteIf c a b p n).po = n.po := by cases c <;> rfl
@[simp] theorem recNoteIf_hart (c : Bool) (a b : Nat) (p : Option Bytes) (n : Node) : (recNoteIf c a b p n).hart = n.hart := by cases c <;> rfl
@[simp] theorem recNoteIf_dig (c : Bool) (a b : Nat) (p : Option Bytes) (n : Node) : (recNoteIf c a b p n).dig = n.dig := by cases c <;> rfl
@[simp] theorem recNoteIf_il (c : Bool) (a b : Nat) (p : Option Bytes) (n : Node) : (recNoteIf c a b p n).il = n.il := by cases c <;> rfl
@[simp] theorem recNoteIf_shp (c : Bool) (a b : Nat) (p : Option Bytes) (n : Node) : (recNoteIf c a b p n).shp = n.shp := by cases c <;> rfl
@[simp] theorem recNoteIf_pf (c : Bool) (a b : Nat) (p : Option Bytes) (n : Node) : (recNoteIf c a b p n).pf = n.pf := by cases c <;> rfl
@[simp] theorem recNoteIf_cmp (c : Bool) (a b : Nat) (p : Option Bytes) (n : Node) : (recNoteIf c a b p n).cmp = n.cmp := by cases c <;> rfl
@[simp] theorem recNoteIf_ln (c : Bool) (a b : Nat) (p : Option Bytes) (n : Node) : (recNoteIf c a b p n).ln = n.ln := by cases c <;> rfl
@[simp] theorem recNoteIf_gen (c : Bool) (a b : Nat) (p : Option Bytes) (n : Node) : (recNoteIf c a b p n).gen = n.gen := by cases c <;> rfl
@[simp] theorem recNoteIf_alm (c : Bool) (a b : Nat) (p : Option Bytes) (n : Node) : (recNoteIf c a b p n).alm = n.alm := by cases c <;> rfl
@[simp] theorem recNoteIf_seq (c : Bool) (a b : Nat) (p : Option Bytes) (n : Node) : (recNoteIf c a b p n).seq = n.seq := by cases c <;> rfl
@[simp] theorem recNoteIf_dsp (c : Bool) (a b : Nat) (p : Option Bytes) (n : Node) : (recNoteIf c a b p n).dsp = n.dsp := by cases c <;> rfl
@[simp] theorem recNoteIf_clk (c : Bool) (a b : Nat) (p : Option Bytes) (n : Node) : (recNoteIf c a b p n).clk = n.clk := by cases c <;> rfl
@[simp] theorem recNoteIf_mram (c : Bool) (a b : Nat) (p : Option Bytes) (n : Node) : (recNoteIf c a b p n).mram = n.mram := by cases c <;> rfl
@[simp] theorem recNoteIf_dup (c : Bool) (a b : Nat) (p : Option Bytes) (n : Node) : (recNoteIf c a b p n).dup = n.dup := by cases c <;> rfl
@[simp] theorem recNoteIf_mir (c : Bool) (a b : Nat) (p : Option Bytes) (n : Node) : (recNoteIf c a b p n).mir = n.mir := by cases c <;> rfl
@[simp] theorem recNoteIf_ckpt (c : Bool) (a b : Nat) (p : Option Bytes) (n : Node) : (recNoteIf c a b p n).ckpt = n.ckpt := by cases c <;> rfl
@[simp] theorem recNoteIf_net (c : Bool) (a b : Nat) (p : Option Bytes) (n : Node) : (recNoteIf c a b p n).net = n.net := by cases c <;> rfl
@[simp] theorem recNoteIf_dtr (c : Bool) (a b : Nat) (p : Option Bytes) (n : Node) : (recNoteIf c a b p n).dtr = n.dtr := by cases c <;> rfl
@[simp] theorem recNoteIf_fwActs (c : Bool) (a b : Nat) (p : Option Bytes) (n : Node) : (recNoteIf c a b p n).fwActs = n.fwActs := by cases c <;> rfl
@[simp] theorem recNoteIf_tx (c : Bool) (a b : Nat) (p : Option Bytes) (n : Node) : (recNoteIf c a b p n).tx = n.tx := by cases c <;> rfl
@[simp] theorem recNoteIf_free (c : Bool) (a b : Nat) (p : Option Bytes) (n : Node) : (recNoteIf c a b p n).free = n.free := by cases c <;> rfl

@[simp] theorem recOcc_time (a b : Nat) (n : Node) : (recOcc a b n).time = n.time := rfl
@[simp] theorem recOcc_ports (a b : Nat) (n : Node) : (recOcc a b n).ports = n.ports := rfl
@[simp] theorem recOcc_isl (a b : Nat) (n : Node) : (recOcc a b n).isl = n.isl := rfl
@[simp] theorem recOcc_jn (a b : Nat) (n : Node) : (recOcc a b n).jn = n.jn := rfl
@[simp] theorem recOcc_ld (a b : Nat) (n : Node) : (recOcc a b n).ld = n.ld := rfl
@[simp] theorem recOcc_dev (a b : Nat) (n : Node) : (recOcc a b n).dev = n.dev := rfl
@[simp] theorem recOcc_blk (a b : Nat) (n : Node) : (recOcc a b n).blk = n.blk := rfl
@[simp] theorem recOcc_spi (a b : Nat) (n : Node) : (recOcc a b n).spi = n.spi := rfl
@[simp] theorem recOcc_wf (a b : Nat) (n : Node) : (recOcc a b n).wf = n.wf := rfl
@[simp] theorem recOcc_evt (a b : Nat) (n : Node) : (recOcc a b n).evt = n.evt := rfl
@[simp] theorem recOcc_mbx (a b : Nat) (n : Node) : (recOcc a b n).mbx = n.mbx := rfl
@[simp] theorem recOcc_ui (a b : Nat) (n : Node) : (recOcc a b n).ui = n.ui := rfl
@[simp] theorem recOcc_ex (a b : Nat) (n : Node) : (recOcc a b n).ex = n.ex := rfl
@[simp] theorem recOcc_cj (a b : Nat) (n : Node) : (recOcc a b n).cj = n.cj := rfl
@[simp] theorem recOcc_cal (a b : Nat) (n : Node) : (recOcc a b n).cal = n.cal := rfl
@[simp] theorem recOcc_mw (a b : Nat) (n : Node) : (recOcc a b n).mw = n.mw := rfl
@[simp] theorem recOcc_ca (a b : Nat) (n : Node) : (recOcc a b n).ca = n.ca := rfl
@[simp] theorem recOcc_lo (a b : Nat) (n : Node) : (recOcc a b n).lo = n.lo := rfl
@[simp] theorem recOcc_po (a b : Nat) (n : Node) : (recOcc a b n).po = n.po := rfl
@[simp] theorem recOcc_hart (a b : Nat) (n : Node) : (recOcc a b n).hart = n.hart := rfl
@[simp] theorem recOcc_dig (a b : Nat) (n : Node) : (recOcc a b n).dig = n.dig := rfl
@[simp] theorem recOcc_il (a b : Nat) (n : Node) : (recOcc a b n).il = n.il := rfl
@[simp] theorem recOcc_shp (a b : Nat) (n : Node) : (recOcc a b n).shp = n.shp := rfl
@[simp] theorem recOcc_pf (a b : Nat) (n : Node) : (recOcc a b n).pf = n.pf := rfl
@[simp] theorem recOcc_cmp (a b : Nat) (n : Node) : (recOcc a b n).cmp = n.cmp := rfl
@[simp] theorem recOcc_ln (a b : Nat) (n : Node) : (recOcc a b n).ln = n.ln := rfl
@[simp] theorem recOcc_gen (a b : Nat) (n : Node) : (recOcc a b n).gen = n.gen := rfl
@[simp] theorem recOcc_alm (a b : Nat) (n : Node) : (recOcc a b n).alm = n.alm := rfl
@[simp] theorem recOcc_seq (a b : Nat) (n : Node) : (recOcc a b n).seq = n.seq := rfl
@[simp] theorem recOcc_dsp (a b : Nat) (n : Node) : (recOcc a b n).dsp = n.dsp := rfl
@[simp] theorem recOcc_clk (a b : Nat) (n : Node) : (recOcc a b n).clk = n.clk := rfl
@[simp] theorem recOcc_mram (a b : Nat) (n : Node) : (recOcc a b n).mram = n.mram := rfl
@[simp] theorem recOcc_dup (a b : Nat) (n : Node) : (recOcc a b n).dup = n.dup := rfl
@[simp] theorem recOcc_mir (a b : Nat) (n : Node) : (recOcc a b n).mir = n.mir := rfl
@[simp] theorem recOcc_ckpt (a b : Nat) (n : Node) : (recOcc a b n).ckpt = n.ckpt := rfl
@[simp] theorem recOcc_net (a b : Nat) (n : Node) : (recOcc a b n).net = n.net := rfl
@[simp] theorem recOcc_dtr (a b : Nat) (n : Node) : (recOcc a b n).dtr = n.dtr := rfl
@[simp] theorem recOcc_fwActs (a b : Nat) (n : Node) : (recOcc a b n).fwActs = n.fwActs := rfl
@[simp] theorem recOcc_tx (a b : Nat) (n : Node) : (recOcc a b n).tx = n.tx := rfl
@[simp] theorem recOcc_free (a b : Nat) (n : Node) : (recOcc a b n).free = n.free := rfl

@[simp] theorem recOccIf_time (c : Bool) (a b : Nat) (n : Node) : (recOccIf c a b n).time = n.time := by cases c <;> rfl
@[simp] theorem recOccIf_ports (c : Bool) (a b : Nat) (n : Node) : (recOccIf c a b n).ports = n.ports := by cases c <;> rfl
@[simp] theorem recOccIf_isl (c : Bool) (a b : Nat) (n : Node) : (recOccIf c a b n).isl = n.isl := by cases c <;> rfl
@[simp] theorem recOccIf_jn (c : Bool) (a b : Nat) (n : Node) : (recOccIf c a b n).jn = n.jn := by cases c <;> rfl
@[simp] theorem recOccIf_ld (c : Bool) (a b : Nat) (n : Node) : (recOccIf c a b n).ld = n.ld := by cases c <;> rfl
@[simp] theorem recOccIf_dev (c : Bool) (a b : Nat) (n : Node) : (recOccIf c a b n).dev = n.dev := by cases c <;> rfl
@[simp] theorem recOccIf_blk (c : Bool) (a b : Nat) (n : Node) : (recOccIf c a b n).blk = n.blk := by cases c <;> rfl
@[simp] theorem recOccIf_spi (c : Bool) (a b : Nat) (n : Node) : (recOccIf c a b n).spi = n.spi := by cases c <;> rfl
@[simp] theorem recOccIf_wf (c : Bool) (a b : Nat) (n : Node) : (recOccIf c a b n).wf = n.wf := by cases c <;> rfl
@[simp] theorem recOccIf_evt (c : Bool) (a b : Nat) (n : Node) : (recOccIf c a b n).evt = n.evt := by cases c <;> rfl
@[simp] theorem recOccIf_mbx (c : Bool) (a b : Nat) (n : Node) : (recOccIf c a b n).mbx = n.mbx := by cases c <;> rfl
@[simp] theorem recOccIf_ui (c : Bool) (a b : Nat) (n : Node) : (recOccIf c a b n).ui = n.ui := by cases c <;> rfl
@[simp] theorem recOccIf_ex (c : Bool) (a b : Nat) (n : Node) : (recOccIf c a b n).ex = n.ex := by cases c <;> rfl
@[simp] theorem recOccIf_cj (c : Bool) (a b : Nat) (n : Node) : (recOccIf c a b n).cj = n.cj := by cases c <;> rfl
@[simp] theorem recOccIf_cal (c : Bool) (a b : Nat) (n : Node) : (recOccIf c a b n).cal = n.cal := by cases c <;> rfl
@[simp] theorem recOccIf_mw (c : Bool) (a b : Nat) (n : Node) : (recOccIf c a b n).mw = n.mw := by cases c <;> rfl
@[simp] theorem recOccIf_ca (c : Bool) (a b : Nat) (n : Node) : (recOccIf c a b n).ca = n.ca := by cases c <;> rfl
@[simp] theorem recOccIf_lo (c : Bool) (a b : Nat) (n : Node) : (recOccIf c a b n).lo = n.lo := by cases c <;> rfl
@[simp] theorem recOccIf_po (c : Bool) (a b : Nat) (n : Node) : (recOccIf c a b n).po = n.po := by cases c <;> rfl
@[simp] theorem recOccIf_hart (c : Bool) (a b : Nat) (n : Node) : (recOccIf c a b n).hart = n.hart := by cases c <;> rfl
@[simp] theorem recOccIf_dig (c : Bool) (a b : Nat) (n : Node) : (recOccIf c a b n).dig = n.dig := by cases c <;> rfl
@[simp] theorem recOccIf_il (c : Bool) (a b : Nat) (n : Node) : (recOccIf c a b n).il = n.il := by cases c <;> rfl
@[simp] theorem recOccIf_shp (c : Bool) (a b : Nat) (n : Node) : (recOccIf c a b n).shp = n.shp := by cases c <;> rfl
@[simp] theorem recOccIf_pf (c : Bool) (a b : Nat) (n : Node) : (recOccIf c a b n).pf = n.pf := by cases c <;> rfl
@[simp] theorem recOccIf_cmp (c : Bool) (a b : Nat) (n : Node) : (recOccIf c a b n).cmp = n.cmp := by cases c <;> rfl
@[simp] theorem recOccIf_ln (c : Bool) (a b : Nat) (n : Node) : (recOccIf c a b n).ln = n.ln := by cases c <;> rfl
@[simp] theorem recOccIf_gen (c : Bool) (a b : Nat) (n : Node) : (recOccIf c a b n).gen = n.gen := by cases c <;> rfl
@[simp] theorem recOccIf_alm (c : Bool) (a b : Nat) (n : Node) : (recOccIf c a b n).alm = n.alm := by cases c <;> rfl
@[simp] theorem recOccIf_seq (c : Bool) (a b : Nat) (n : Node) : (recOccIf c a b n).seq = n.seq := by cases c <;> rfl
@[simp] theorem recOccIf_dsp (c : Bool) (a b : Nat) (n : Node) : (recOccIf c a b n).dsp = n.dsp := by cases c <;> rfl
@[simp] theorem recOccIf_clk (c : Bool) (a b : Nat) (n : Node) : (recOccIf c a b n).clk = n.clk := by cases c <;> rfl
@[simp] theorem recOccIf_mram (c : Bool) (a b : Nat) (n : Node) : (recOccIf c a b n).mram = n.mram := by cases c <;> rfl
@[simp] theorem recOccIf_dup (c : Bool) (a b : Nat) (n : Node) : (recOccIf c a b n).dup = n.dup := by cases c <;> rfl
@[simp] theorem recOccIf_mir (c : Bool) (a b : Nat) (n : Node) : (recOccIf c a b n).mir = n.mir := by cases c <;> rfl
@[simp] theorem recOccIf_ckpt (c : Bool) (a b : Nat) (n : Node) : (recOccIf c a b n).ckpt = n.ckpt := by cases c <;> rfl
@[simp] theorem recOccIf_net (c : Bool) (a b : Nat) (n : Node) : (recOccIf c a b n).net = n.net := by cases c <;> rfl
@[simp] theorem recOccIf_dtr (c : Bool) (a b : Nat) (n : Node) : (recOccIf c a b n).dtr = n.dtr := by cases c <;> rfl
@[simp] theorem recOccIf_fwActs (c : Bool) (a b : Nat) (n : Node) : (recOccIf c a b n).fwActs = n.fwActs := by cases c <;> rfl
@[simp] theorem recOccIf_tx (c : Bool) (a b : Nat) (n : Node) : (recOccIf c a b n).tx = n.tx := by cases c <;> rfl
@[simp] theorem recOccIf_free (c : Bool) (a b : Nat) (n : Node) : (recOccIf c a b n).free = n.free := by cases c <;> rfl

@[simp] theorem raise_time (k : Nat) (n : Node) : (raise k n).time = n.time := by unfold raise; split <;> rfl
@[simp] theorem raise_ports (k : Nat) (n : Node) : (raise k n).ports = n.ports := by unfold raise; split <;> rfl
@[simp] theorem raise_isl (k : Nat) (n : Node) : (raise k n).isl = n.isl := by unfold raise; split <;> rfl
@[simp] theorem raise_jn (k : Nat) (n : Node) : (raise k n).jn = n.jn := by unfold raise; split <;> rfl
@[simp] theorem raise_ld (k : Nat) (n : Node) : (raise k n).ld = n.ld := by unfold raise; split <;> rfl
@[simp] theorem raise_dev (k : Nat) (n : Node) : (raise k n).dev = n.dev := by unfold raise; split <;> rfl
@[simp] theorem raise_blk (k : Nat) (n : Node) : (raise k n).blk = n.blk := by unfold raise; split <;> rfl
@[simp] theorem raise_spi (k : Nat) (n : Node) : (raise k n).spi = n.spi := by unfold raise; split <;> rfl
@[simp] theorem raise_wf (k : Nat) (n : Node) : (raise k n).wf = n.wf := by unfold raise; split <;> rfl
@[simp] theorem raise_mbx (k : Nat) (n : Node) : (raise k n).mbx = n.mbx := by unfold raise; split <;> rfl
@[simp] theorem raise_ui (k : Nat) (n : Node) : (raise k n).ui = n.ui := by unfold raise; split <;> rfl
@[simp] theorem raise_ex (k : Nat) (n : Node) : (raise k n).ex = n.ex := by unfold raise; split <;> rfl
@[simp] theorem raise_cj (k : Nat) (n : Node) : (raise k n).cj = n.cj := by unfold raise; split <;> rfl
@[simp] theorem raise_cal (k : Nat) (n : Node) : (raise k n).cal = n.cal := by unfold raise; split <;> rfl
@[simp] theorem raise_mw (k : Nat) (n : Node) : (raise k n).mw = n.mw := by unfold raise; split <;> rfl
@[simp] theorem raise_ca (k : Nat) (n : Node) : (raise k n).ca = n.ca := by unfold raise; split <;> rfl
@[simp] theorem raise_lo (k : Nat) (n : Node) : (raise k n).lo = n.lo := by unfold raise; split <;> rfl
@[simp] theorem raise_po (k : Nat) (n : Node) : (raise k n).po = n.po := by unfold raise; split <;> rfl
@[simp] theorem raise_hart (k : Nat) (n : Node) : (raise k n).hart = n.hart := by unfold raise; split <;> rfl
@[simp] theorem raise_dig (k : Nat) (n : Node) : (raise k n).dig = n.dig := by unfold raise; split <;> rfl
@[simp] theorem raise_il (k : Nat) (n : Node) : (raise k n).il = n.il := by unfold raise; split <;> rfl
@[simp] theorem raise_shp (k : Nat) (n : Node) : (raise k n).shp = n.shp := by unfold raise; split <;> rfl
@[simp] theorem raise_pf (k : Nat) (n : Node) : (raise k n).pf = n.pf := by unfold raise; split <;> rfl
@[simp] theorem raise_cmp (k : Nat) (n : Node) : (raise k n).cmp = n.cmp := by unfold raise; split <;> rfl
@[simp] theorem raise_ln (k : Nat) (n : Node) : (raise k n).ln = n.ln := by unfold raise; split <;> rfl
@[simp] theorem raise_gen (k : Nat) (n : Node) : (raise k n).gen = n.gen := by unfold raise; split <;> rfl
@[simp] theorem raise_alm (k : Nat) (n : Node) : (raise k n).alm = n.alm := by unfold raise; split <;> rfl
@[simp] theorem raise_seq (k : Nat) (n : Node) : (raise k n).seq = n.seq := by unfold raise; split <;> rfl
@[simp] theorem raise_dsp (k : Nat) (n : Node) : (raise k n).dsp = n.dsp := by unfold raise; split <;> rfl
@[simp] theorem raise_clk (k : Nat) (n : Node) : (raise k n).clk = n.clk := by unfold raise; split <;> rfl
@[simp] theorem raise_mram (k : Nat) (n : Node) : (raise k n).mram = n.mram := by unfold raise; split <;> rfl
@[simp] theorem raise_mir (k : Nat) (n : Node) : (raise k n).mir = n.mir := by unfold raise; split <;> rfl
@[simp] theorem raise_ckpt (k : Nat) (n : Node) : (raise k n).ckpt = n.ckpt := by unfold raise; split <;> rfl
@[simp] theorem raise_net (k : Nat) (n : Node) : (raise k n).net = n.net := by unfold raise; split <;> rfl
@[simp] theorem raise_dtr (k : Nat) (n : Node) : (raise k n).dtr = n.dtr := by unfold raise; split <;> rfl
@[simp] theorem raise_fwActs (k : Nat) (n : Node) : (raise k n).fwActs = n.fwActs := by unfold raise; split <;> rfl
@[simp] theorem raise_tx (k : Nat) (n : Node) : (raise k n).tx = n.tx := by unfold raise; split <;> rfl
@[simp] theorem raise_free (k : Nat) (n : Node) : (raise k n).free = n.free := by unfold raise; split <;> rfl

@[simp] theorem raiseIf_time (c : Bool) (k : Nat) (n : Node) : (raiseIf c k n).time = n.time := by cases c <;> simp [raiseIf]
@[simp] theorem raiseIf_ports (c : Bool) (k : Nat) (n : Node) : (raiseIf c k n).ports = n.ports := by cases c <;> simp [raiseIf]
@[simp] theorem raiseIf_isl (c : Bool) (k : Nat) (n : Node) : (raiseIf c k n).isl = n.isl := by cases c <;> simp [raiseIf]
@[simp] theorem raiseIf_jn (c : Bool) (k : Nat) (n : Node) : (raiseIf c k n).jn = n.jn := by cases c <;> simp [raiseIf]
@[simp] theorem raiseIf_ld (c : Bool) (k : Nat) (n : Node) : (raiseIf c k n).ld = n.ld := by cases c <;> simp [raiseIf]
@[simp] theorem raiseIf_dev (c : Bool) (k : Nat) (n : Node) : (raiseIf c k n).dev = n.dev := by cases c <;> simp [raiseIf]
@[simp] theorem raiseIf_blk (c : Bool) (k : Nat) (n : Node) : (raiseIf c k n).blk = n.blk := by cases c <;> simp [raiseIf]
@[simp] theorem raiseIf_spi (c : Bool) (k : Nat) (n : Node) : (raiseIf c k n).spi = n.spi := by cases c <;> simp [raiseIf]
@[simp] theorem raiseIf_wf (c : Bool) (k : Nat) (n : Node) : (raiseIf c k n).wf = n.wf := by cases c <;> simp [raiseIf]
@[simp] theorem raiseIf_mbx (c : Bool) (k : Nat) (n : Node) : (raiseIf c k n).mbx = n.mbx := by cases c <;> simp [raiseIf]
@[simp] theorem raiseIf_ui (c : Bool) (k : Nat) (n : Node) : (raiseIf c k n).ui = n.ui := by cases c <;> simp [raiseIf]
@[simp] theorem raiseIf_ex (c : Bool) (k : Nat) (n : Node) : (raiseIf c k n).ex = n.ex := by cases c <;> simp [raiseIf]
@[simp] theorem raiseIf_cj (c : Bool) (k : Nat) (n : Node) : (raiseIf c k n).cj = n.cj := by cases c <;> simp [raiseIf]
@[simp] theorem raiseIf_cal (c : Bool) (k : Nat) (n : Node) : (raiseIf c k n).cal = n.cal := by cases c <;> simp [raiseIf]
@[simp] theorem raiseIf_mw (c : Bool) (k : Nat) (n : Node) : (raiseIf c k n).mw = n.mw := by cases c <;> simp [raiseIf]
@[simp] theorem raiseIf_ca (c : Bool) (k : Nat) (n : Node) : (raiseIf c k n).ca = n.ca := by cases c <;> simp [raiseIf]
@[simp] theorem raiseIf_lo (c : Bool) (k : Nat) (n : Node) : (raiseIf c k n).lo = n.lo := by cases c <;> simp [raiseIf]
@[simp] theorem raiseIf_po (c : Bool) (k : Nat) (n : Node) : (raiseIf c k n).po = n.po := by cases c <;> simp [raiseIf]
@[simp] theorem raiseIf_hart (c : Bool) (k : Nat) (n : Node) : (raiseIf c k n).hart = n.hart := by cases c <;> simp [raiseIf]
@[simp] theorem raiseIf_dig (c : Bool) (k : Nat) (n : Node) : (raiseIf c k n).dig = n.dig := by cases c <;> simp [raiseIf]
@[simp] theorem raiseIf_il (c : Bool) (k : Nat) (n : Node) : (raiseIf c k n).il = n.il := by cases c <;> simp [raiseIf]
@[simp] theorem raiseIf_shp (c : Bool) (k : Nat) (n : Node) : (raiseIf c k n).shp = n.shp := by cases c <;> simp [raiseIf]
@[simp] theorem raiseIf_pf (c : Bool) (k : Nat) (n : Node) : (raiseIf c k n).pf = n.pf := by cases c <;> simp [raiseIf]
@[simp] theorem raiseIf_cmp (c : Bool) (k : Nat) (n : Node) : (raiseIf c k n).cmp = n.cmp := by cases c <;> simp [raiseIf]
@[simp] theorem raiseIf_ln (c : Bool) (k : Nat) (n : Node) : (raiseIf c k n).ln = n.ln := by cases c <;> simp [raiseIf]
@[simp] theorem raiseIf_gen (c : Bool) (k : Nat) (n : Node) : (raiseIf c k n).gen = n.gen := by cases c <;> simp [raiseIf]
@[simp] theorem raiseIf_alm (c : Bool) (k : Nat) (n : Node) : (raiseIf c k n).alm = n.alm := by cases c <;> simp [raiseIf]
@[simp] theorem raiseIf_seq (c : Bool) (k : Nat) (n : Node) : (raiseIf c k n).seq = n.seq := by cases c <;> simp [raiseIf]
@[simp] theorem raiseIf_dsp (c : Bool) (k : Nat) (n : Node) : (raiseIf c k n).dsp = n.dsp := by cases c <;> simp [raiseIf]
@[simp] theorem raiseIf_clk (c : Bool) (k : Nat) (n : Node) : (raiseIf c k n).clk = n.clk := by cases c <;> simp [raiseIf]
@[simp] theorem raiseIf_mram (c : Bool) (k : Nat) (n : Node) : (raiseIf c k n).mram = n.mram := by cases c <;> simp [raiseIf]
@[simp] theorem raiseIf_mir (c : Bool) (k : Nat) (n : Node) : (raiseIf c k n).mir = n.mir := by cases c <;> simp [raiseIf]
@[simp] theorem raiseIf_ckpt (c : Bool) (k : Nat) (n : Node) : (raiseIf c k n).ckpt = n.ckpt := by cases c <;> simp [raiseIf]
@[simp] theorem raiseIf_net (c : Bool) (k : Nat) (n : Node) : (raiseIf c k n).net = n.net := by cases c <;> simp [raiseIf]
@[simp] theorem raiseIf_dtr (c : Bool) (k : Nat) (n : Node) : (raiseIf c k n).dtr = n.dtr := by cases c <;> simp [raiseIf]
@[simp] theorem raiseIf_fwActs (c : Bool) (k : Nat) (n : Node) : (raiseIf c k n).fwActs = n.fwActs := by cases c <;> simp [raiseIf]
@[simp] theorem raiseIf_tx (c : Bool) (k : Nat) (n : Node) : (raiseIf c k n).tx = n.tx := by cases c <;> simp [raiseIf]
@[simp] theorem raiseIf_free (c : Bool) (k : Nat) (n : Node) : (raiseIf c k n).free = n.free := by cases c <;> simp [raiseIf]

@[simp] theorem complete_time (p g : Nat) (es : List Entry) (t : Nat) (n : Node) : (complete p g es t n).time = n.time := by unfold complete; dsimp only; split <;> simp
@[simp] theorem complete_ports (p g : Nat) (es : List Entry) (t : Nat) (n : Node) : (complete p g es t n).ports = n.ports := by unfold complete; dsimp only; split <;> simp
@[simp] theorem complete_isl (p g : Nat) (es : List Entry) (t : Nat) (n : Node) : (complete p g es t n).isl = n.isl := by unfold complete; dsimp only; split <;> simp
@[simp] theorem complete_ld (p g : Nat) (es : List Entry) (t : Nat) (n : Node) : (complete p g es t n).ld = n.ld := by unfold complete; dsimp only; split <;> simp
@[simp] theorem complete_dev (p g : Nat) (es : List Entry) (t : Nat) (n : Node) : (complete p g es t n).dev = n.dev := by unfold complete; dsimp only; split <;> simp
@[simp] theorem complete_blk (p g : Nat) (es : List Entry) (t : Nat) (n : Node) : (complete p g es t n).blk = n.blk := by unfold complete; dsimp only; split <;> simp
@[simp] theorem complete_spi (p g : Nat) (es : List Entry) (t : Nat) (n : Node) : (complete p g es t n).spi = n.spi := by unfold complete; dsimp only; split <;> simp
@[simp] theorem complete_wf (p g : Nat) (es : List Entry) (t : Nat) (n : Node) : (complete p g es t n).wf = n.wf := by unfold complete; dsimp only; split <;> simp
@[simp] theorem complete_mbx (p g : Nat) (es : List Entry) (t : Nat) (n : Node) : (complete p g es t n).mbx = n.mbx := by unfold complete; dsimp only; split <;> simp
@[simp] theorem complete_ui (p g : Nat) (es : List Entry) (t : Nat) (n : Node) : (complete p g es t n).ui = n.ui := by unfold complete; dsimp only; split <;> simp
@[simp] theorem complete_ex (p g : Nat) (es : List Entry) (t : Nat) (n : Node) : (complete p g es t n).ex = n.ex := by unfold complete; dsimp only; split <;> simp
@[simp] theorem complete_cj (p g : Nat) (es : List Entry) (t : Nat) (n : Node) : (complete p g es t n).cj = n.cj := by unfold complete; dsimp only; split <;> simp
@[simp] theorem complete_cal (p g : Nat) (es : List Entry) (t : Nat) (n : Node) : (complete p g es t n).cal = n.cal := by unfold complete; dsimp only; split <;> simp
@[simp] theorem complete_mw (p g : Nat) (es : List Entry) (t : Nat) (n : Node) : (complete p g es t n).mw = n.mw := by unfold complete; dsimp only; split <;> simp
@[simp] theorem complete_ca (p g : Nat) (es : List Entry) (t : Nat) (n : Node) : (complete p g es t n).ca = n.ca := by unfold complete; dsimp only; split <;> simp
@[simp] theorem complete_lo (p g : Nat) (es : List Entry) (t : Nat) (n : Node) : (complete p g es t n).lo = n.lo := by unfold complete; dsimp only; split <;> simp
@[simp] theorem complete_po (p g : Nat) (es : List Entry) (t : Nat) (n : Node) : (complete p g es t n).po = n.po := by unfold complete; dsimp only; split <;> simp
@[simp] theorem complete_hart (p g : Nat) (es : List Entry) (t : Nat) (n : Node) : (complete p g es t n).hart = n.hart := by unfold complete; dsimp only; split <;> simp
@[simp] theorem complete_dig (p g : Nat) (es : List Entry) (t : Nat) (n : Node) : (complete p g es t n).dig = n.dig := by unfold complete; dsimp only; split <;> simp
@[simp] theorem complete_il (p g : Nat) (es : List Entry) (t : Nat) (n : Node) : (complete p g es t n).il = n.il := by unfold complete; dsimp only; split <;> simp
@[simp] theorem complete_shp (p g : Nat) (es : List Entry) (t : Nat) (n : Node) : (complete p g es t n).shp = n.shp := by unfold complete; dsimp only; split <;> simp
@[simp] theorem complete_pf (p g : Nat) (es : List Entry) (t : Nat) (n : Node) : (complete p g es t n).pf = n.pf := by unfold complete; dsimp only; split <;> simp
@[simp] theorem complete_cmp (p g : Nat) (es : List Entry) (t : Nat) (n : Node) : (complete p g es t n).cmp = n.cmp := by unfold complete; dsimp only; split <;> simp
@[simp] theorem complete_ln (p g : Nat) (es : List Entry) (t : Nat) (n : Node) : (complete p g es t n).ln = n.ln := by unfold complete; dsimp only; split <;> simp
@[simp] theorem complete_gen (p g : Nat) (es : List Entry) (t : Nat) (n : Node) : (complete p g es t n).gen = n.gen := by unfold complete; dsimp only; split <;> simp
@[simp] theorem complete_alm (p g : Nat) (es : List Entry) (t : Nat) (n : Node) : (complete p g es t n).alm = n.alm := by unfold complete; dsimp only; split <;> simp
@[simp] theorem complete_seq (p g : Nat) (es : List Entry) (t : Nat) (n : Node) : (complete p g es t n).seq = n.seq := by unfold complete; dsimp only; split <;> simp
@[simp] theorem complete_dsp (p g : Nat) (es : List Entry) (t : Nat) (n : Node) : (complete p g es t n).dsp = n.dsp := by unfold complete; dsimp only; split <;> simp
@[simp] theorem complete_clk (p g : Nat) (es : List Entry) (t : Nat) (n : Node) : (complete p g es t n).clk = n.clk := by unfold complete; dsimp only; split <;> simp
@[simp] theorem complete_mram (p g : Nat) (es : List Entry) (t : Nat) (n : Node) : (complete p g es t n).mram = n.mram := by unfold complete; dsimp only; split <;> simp
@[simp] theorem complete_mir (p g : Nat) (es : List Entry) (t : Nat) (n : Node) : (complete p g es t n).mir = n.mir := by unfold complete; dsimp only; split <;> simp
@[simp] theorem complete_ckpt (p g : Nat) (es : List Entry) (t : Nat) (n : Node) : (complete p g es t n).ckpt = n.ckpt := by unfold complete; dsimp only; split <;> simp
@[simp] theorem complete_net (p g : Nat) (es : List Entry) (t : Nat) (n : Node) : (complete p g es t n).net = n.net := by unfold complete; dsimp only; split <;> simp
@[simp] theorem complete_dtr (p g : Nat) (es : List Entry) (t : Nat) (n : Node) : (complete p g es t n).dtr = n.dtr := by unfold complete; dsimp only; split <;> simp
@[simp] theorem complete_fwActs (p g : Nat) (es : List Entry) (t : Nat) (n : Node) : (complete p g es t n).fwActs = n.fwActs := by unfold complete; dsimp only; split <;> simp
@[simp] theorem complete_tx (p g : Nat) (es : List Entry) (t : Nat) (n : Node) : (complete p g es t n).tx = n.tx := by unfold complete; dsimp only; split <;> simp
@[simp] theorem complete_free (p g : Nat) (es : List Entry) (t : Nat) (n : Node) : (complete p g es t n).free = n.free := by unfold complete; dsimp only; split <;> simp

@[simp] theorem setPort_time (p : HostPort) (x : Port) (n : Node) : (n.setPort p x).time = n.time := by cases p <;> rfl
@[simp] theorem setPort_isl (p : HostPort) (x : Port) (n : Node) : (n.setPort p x).isl = n.isl := by cases p <;> rfl
@[simp] theorem setPort_jn (p : HostPort) (x : Port) (n : Node) : (n.setPort p x).jn = n.jn := by cases p <;> rfl
@[simp] theorem setPort_ld (p : HostPort) (x : Port) (n : Node) : (n.setPort p x).ld = n.ld := by cases p <;> rfl
@[simp] theorem setPort_dev (p : HostPort) (x : Port) (n : Node) : (n.setPort p x).dev = n.dev := by cases p <;> rfl
@[simp] theorem setPort_blk (p : HostPort) (x : Port) (n : Node) : (n.setPort p x).blk = n.blk := by cases p <;> rfl
@[simp] theorem setPort_spi (p : HostPort) (x : Port) (n : Node) : (n.setPort p x).spi = n.spi := by cases p <;> rfl
@[simp] theorem setPort_wf (p : HostPort) (x : Port) (n : Node) : (n.setPort p x).wf = n.wf := by cases p <;> rfl
@[simp] theorem setPort_evt (p : HostPort) (x : Port) (n : Node) : (n.setPort p x).evt = n.evt := by cases p <;> rfl
@[simp] theorem setPort_mbx (p : HostPort) (x : Port) (n : Node) : (n.setPort p x).mbx = n.mbx := by cases p <;> rfl
@[simp] theorem setPort_ui (p : HostPort) (x : Port) (n : Node) : (n.setPort p x).ui = n.ui := by cases p <;> rfl
@[simp] theorem setPort_ex (p : HostPort) (x : Port) (n : Node) : (n.setPort p x).ex = n.ex := by cases p <;> rfl
@[simp] theorem setPort_cj (p : HostPort) (x : Port) (n : Node) : (n.setPort p x).cj = n.cj := by cases p <;> rfl
@[simp] theorem setPort_cal (p : HostPort) (x : Port) (n : Node) : (n.setPort p x).cal = n.cal := by cases p <;> rfl
@[simp] theorem setPort_mw (p : HostPort) (x : Port) (n : Node) : (n.setPort p x).mw = n.mw := by cases p <;> rfl
@[simp] theorem setPort_ca (p : HostPort) (x : Port) (n : Node) : (n.setPort p x).ca = n.ca := by cases p <;> rfl
@[simp] theorem setPort_lo (p : HostPort) (x : Port) (n : Node) : (n.setPort p x).lo = n.lo := by cases p <;> rfl
@[simp] theorem setPort_po (p : HostPort) (x : Port) (n : Node) : (n.setPort p x).po = n.po := by cases p <;> rfl
@[simp] theorem setPort_hart (p : HostPort) (x : Port) (n : Node) : (n.setPort p x).hart = n.hart := by cases p <;> rfl
@[simp] theorem setPort_dig (p : HostPort) (x : Port) (n : Node) : (n.setPort p x).dig = n.dig := by cases p <;> rfl
@[simp] theorem setPort_il (p : HostPort) (x : Port) (n : Node) : (n.setPort p x).il = n.il := by cases p <;> rfl
@[simp] theorem setPort_shp (p : HostPort) (x : Port) (n : Node) : (n.setPort p x).shp = n.shp := by cases p <;> rfl
@[simp] theorem setPort_pf (p : HostPort) (x : Port) (n : Node) : (n.setPort p x).pf = n.pf := by cases p <;> rfl
@[simp] theorem setPort_cmp (p : HostPort) (x : Port) (n : Node) : (n.setPort p x).cmp = n.cmp := by cases p <;> rfl
@[simp] theorem setPort_ln (p : HostPort) (x : Port) (n : Node) : (n.setPort p x).ln = n.ln := by cases p <;> rfl
@[simp] theorem setPort_gen (p : HostPort) (x : Port) (n : Node) : (n.setPort p x).gen = n.gen := by cases p <;> rfl
@[simp] theorem setPort_alm (p : HostPort) (x : Port) (n : Node) : (n.setPort p x).alm = n.alm := by cases p <;> rfl
@[simp] theorem setPort_seq (p : HostPort) (x : Port) (n : Node) : (n.setPort p x).seq = n.seq := by cases p <;> rfl
@[simp] theorem setPort_dsp (p : HostPort) (x : Port) (n : Node) : (n.setPort p x).dsp = n.dsp := by cases p <;> rfl
@[simp] theorem setPort_clk (p : HostPort) (x : Port) (n : Node) : (n.setPort p x).clk = n.clk := by cases p <;> rfl
@[simp] theorem setPort_mram (p : HostPort) (x : Port) (n : Node) : (n.setPort p x).mram = n.mram := by cases p <;> rfl
@[simp] theorem setPort_rcd (p : HostPort) (x : Port) (n : Node) : (n.setPort p x).rcd = n.rcd := by cases p <;> rfl
@[simp] theorem setPort_dup (p : HostPort) (x : Port) (n : Node) : (n.setPort p x).dup = n.dup := by cases p <;> rfl
@[simp] theorem setPort_mir (p : HostPort) (x : Port) (n : Node) : (n.setPort p x).mir = n.mir := by cases p <;> rfl
@[simp] theorem setPort_ckpt (p : HostPort) (x : Port) (n : Node) : (n.setPort p x).ckpt = n.ckpt := by cases p <;> rfl
@[simp] theorem setPort_net (p : HostPort) (x : Port) (n : Node) : (n.setPort p x).net = n.net := by cases p <;> rfl
@[simp] theorem setPort_dtr (p : HostPort) (x : Port) (n : Node) : (n.setPort p x).dtr = n.dtr := by cases p <;> rfl
@[simp] theorem setPort_fwActs (p : HostPort) (x : Port) (n : Node) : (n.setPort p x).fwActs = n.fwActs := by cases p <;> rfl
@[simp] theorem setPort_tx (p : HostPort) (x : Port) (n : Node) : (n.setPort p x).tx = n.tx := by cases p <;> rfl
@[simp] theorem setPort_free (p : HostPort) (x : Port) (n : Node) : (n.setPort p x).free = n.free := by cases p <;> rfl

@[simp] theorem modPort_time (p : HostPort) (f : Port → Port) (n : Node) : (n.modPort p f).time = n.time := by simp [Node.modPort]
@[simp] theorem modPort_isl (p : HostPort) (f : Port → Port) (n : Node) : (n.modPort p f).isl = n.isl := by simp [Node.modPort]
@[simp] theorem modPort_jn (p : HostPort) (f : Port → Port) (n : Node) : (n.modPort p f).jn = n.jn := by simp [Node.modPort]
@[simp] theorem modPort_ld (p : HostPort) (f : Port → Port) (n : Node) : (n.modPort p f).ld = n.ld := by simp [Node.modPort]
@[simp] theorem modPort_dev (p : HostPort) (f : Port → Port) (n : Node) : (n.modPort p f).dev = n.dev := by simp [Node.modPort]
@[simp] theorem modPort_blk (p : HostPort) (f : Port → Port) (n : Node) : (n.modPort p f).blk = n.blk := by simp [Node.modPort]
@[simp] theorem modPort_spi (p : HostPort) (f : Port → Port) (n : Node) : (n.modPort p f).spi = n.spi := by simp [Node.modPort]
@[simp] theorem modPort_wf (p : HostPort) (f : Port → Port) (n : Node) : (n.modPort p f).wf = n.wf := by simp [Node.modPort]
@[simp] theorem modPort_evt (p : HostPort) (f : Port → Port) (n : Node) : (n.modPort p f).evt = n.evt := by simp [Node.modPort]
@[simp] theorem modPort_mbx (p : HostPort) (f : Port → Port) (n : Node) : (n.modPort p f).mbx = n.mbx := by simp [Node.modPort]
@[simp] theorem modPort_ui (p : HostPort) (f : Port → Port) (n : Node) : (n.modPort p f).ui = n.ui := by simp [Node.modPort]
@[simp] theorem modPort_ex (p : HostPort) (f : Port → Port) (n : Node) : (n.modPort p f).ex = n.ex := by simp [Node.modPort]
@[simp] theorem modPort_cj (p : HostPort) (f : Port → Port) (n : Node) : (n.modPort p f).cj = n.cj := by simp [Node.modPort]
@[simp] theorem modPort_cal (p : HostPort) (f : Port → Port) (n : Node) : (n.modPort p f).cal = n.cal := by simp [Node.modPort]
@[simp] theorem modPort_mw (p : HostPort) (f : Port → Port) (n : Node) : (n.modPort p f).mw = n.mw := by simp [Node.modPort]
@[simp] theorem modPort_ca (p : HostPort) (f : Port → Port) (n : Node) : (n.modPort p f).ca = n.ca := by simp [Node.modPort]
@[simp] theorem modPort_lo (p : HostPort) (f : Port → Port) (n : Node) : (n.modPort p f).lo = n.lo := by simp [Node.modPort]
@[simp] theorem modPort_po (p : HostPort) (f : Port → Port) (n : Node) : (n.modPort p f).po = n.po := by simp [Node.modPort]
@[simp] theorem modPort_hart (p : HostPort) (f : Port → Port) (n : Node) : (n.modPort p f).hart = n.hart := by simp [Node.modPort]
@[simp] theorem modPort_dig (p : HostPort) (f : Port → Port) (n : Node) : (n.modPort p f).dig = n.dig := by simp [Node.modPort]
@[simp] theorem modPort_il (p : HostPort) (f : Port → Port) (n : Node) : (n.modPort p f).il = n.il := by simp [Node.modPort]
@[simp] theorem modPort_shp (p : HostPort) (f : Port → Port) (n : Node) : (n.modPort p f).shp = n.shp := by simp [Node.modPort]
@[simp] theorem modPort_pf (p : HostPort) (f : Port → Port) (n : Node) : (n.modPort p f).pf = n.pf := by simp [Node.modPort]
@[simp] theorem modPort_cmp (p : HostPort) (f : Port → Port) (n : Node) : (n.modPort p f).cmp = n.cmp := by simp [Node.modPort]
@[simp] theorem modPort_ln (p : HostPort) (f : Port → Port) (n : Node) : (n.modPort p f).ln = n.ln := by simp [Node.modPort]
@[simp] theorem modPort_gen (p : HostPort) (f : Port → Port) (n : Node) : (n.modPort p f).gen = n.gen := by simp [Node.modPort]
@[simp] theorem modPort_alm (p : HostPort) (f : Port → Port) (n : Node) : (n.modPort p f).alm = n.alm := by simp [Node.modPort]
@[simp] theorem modPort_seq (p : HostPort) (f : Port → Port) (n : Node) : (n.modPort p f).seq = n.seq := by simp [Node.modPort]
@[simp] theorem modPort_dsp (p : HostPort) (f : Port → Port) (n : Node) : (n.modPort p f).dsp = n.dsp := by simp [Node.modPort]
@[simp] theorem modPort_clk (p : HostPort) (f : Port → Port) (n : Node) : (n.modPort p f).clk = n.clk := by simp [Node.modPort]
@[simp] theorem modPort_mram (p : HostPort) (f : Port → Port) (n : Node) : (n.modPort p f).mram = n.mram := by simp [Node.modPort]
@[simp] theorem modPort_rcd (p : HostPort) (f : Port → Port) (n : Node) : (n.modPort p f).rcd = n.rcd := by simp [Node.modPort]
@[simp] theorem modPort_dup (p : HostPort) (f : Port → Port) (n : Node) : (n.modPort p f).dup = n.dup := by simp [Node.modPort]
@[simp] theorem modPort_mir (p : HostPort) (f : Port → Port) (n : Node) : (n.modPort p f).mir = n.mir := by simp [Node.modPort]
@[simp] theorem modPort_ckpt (p : HostPort) (f : Port → Port) (n : Node) : (n.modPort p f).ckpt = n.ckpt := by simp [Node.modPort]
@[simp] theorem modPort_net (p : HostPort) (f : Port → Port) (n : Node) : (n.modPort p f).net = n.net := by simp [Node.modPort]
@[simp] theorem modPort_dtr (p : HostPort) (f : Port → Port) (n : Node) : (n.modPort p f).dtr = n.dtr := by simp [Node.modPort]
@[simp] theorem modPort_fwActs (p : HostPort) (f : Port → Port) (n : Node) : (n.modPort p f).fwActs = n.fwActs := by simp [Node.modPort]
@[simp] theorem modPort_tx (p : HostPort) (f : Port → Port) (n : Node) : (n.modPort p f).tx = n.tx := by simp [Node.modPort]
@[simp] theorem modPort_free (p : HostPort) (f : Port → Port) (n : Node) : (n.modPort p f).free = n.free := by simp [Node.modPort]

@[simp] theorem expertTouch_time (b : Nat) (n : Node) : (expertTouch b n).time = n.time := by unfold expertTouch; split <;> rfl
@[simp] theorem expertTouch_ports (b : Nat) (n : Node) : (expertTouch b n).ports = n.ports := by unfold expertTouch; split <;> rfl
@[simp] theorem expertTouch_isl (b : Nat) (n : Node) : (expertTouch b n).isl = n.isl := by unfold expertTouch; split <;> rfl
@[simp] theorem expertTouch_jn (b : Nat) (n : Node) : (expertTouch b n).jn = n.jn := by unfold expertTouch; split <;> rfl
@[simp] theorem expertTouch_ld (b : Nat) (n : Node) : (expertTouch b n).ld = n.ld := by unfold expertTouch; split <;> rfl
@[simp] theorem expertTouch_dev (b : Nat) (n : Node) : (expertTouch b n).dev = n.dev := by unfold expertTouch; split <;> rfl
@[simp] theorem expertTouch_spi (b : Nat) (n : Node) : (expertTouch b n).spi = n.spi := by unfold expertTouch; split <;> rfl
@[simp] theorem expertTouch_wf (b : Nat) (n : Node) : (expertTouch b n).wf = n.wf := by unfold expertTouch; split <;> rfl
@[simp] theorem expertTouch_evt (b : Nat) (n : Node) : (expertTouch b n).evt = n.evt := by unfold expertTouch; split <;> rfl
@[simp] theorem expertTouch_mbx (b : Nat) (n : Node) : (expertTouch b n).mbx = n.mbx := by unfold expertTouch; split <;> rfl
@[simp] theorem expertTouch_ui (b : Nat) (n : Node) : (expertTouch b n).ui = n.ui := by unfold expertTouch; split <;> rfl
@[simp] theorem expertTouch_ex (b : Nat) (n : Node) : (expertTouch b n).ex = n.ex := by unfold expertTouch; split <;> rfl
@[simp] theorem expertTouch_cj (b : Nat) (n : Node) : (expertTouch b n).cj = n.cj := by unfold expertTouch; split <;> rfl
@[simp] theorem expertTouch_cal (b : Nat) (n : Node) : (expertTouch b n).cal = n.cal := by unfold expertTouch; split <;> rfl
@[simp] theorem expertTouch_mw (b : Nat) (n : Node) : (expertTouch b n).mw = n.mw := by unfold expertTouch; split <;> rfl
@[simp] theorem expertTouch_ca (b : Nat) (n : Node) : (expertTouch b n).ca = n.ca := by unfold expertTouch; split <;> rfl
@[simp] theorem expertTouch_lo (b : Nat) (n : Node) : (expertTouch b n).lo = n.lo := by unfold expertTouch; split <;> rfl
@[simp] theorem expertTouch_po (b : Nat) (n : Node) : (expertTouch b n).po = n.po := by unfold expertTouch; split <;> rfl
@[simp] theorem expertTouch_hart (b : Nat) (n : Node) : (expertTouch b n).hart = n.hart := by unfold expertTouch; split <;> rfl
@[simp] theorem expertTouch_dig (b : Nat) (n : Node) : (expertTouch b n).dig = n.dig := by unfold expertTouch; split <;> rfl
@[simp] theorem expertTouch_il (b : Nat) (n : Node) : (expertTouch b n).il = n.il := by unfold expertTouch; split <;> rfl
@[simp] theorem expertTouch_shp (b : Nat) (n : Node) : (expertTouch b n).shp = n.shp := by unfold expertTouch; split <;> rfl
@[simp] theorem expertTouch_pf (b : Nat) (n : Node) : (expertTouch b n).pf = n.pf := by unfold expertTouch; split <;> rfl
@[simp] theorem expertTouch_cmp (b : Nat) (n : Node) : (expertTouch b n).cmp = n.cmp := by unfold expertTouch; split <;> rfl
@[simp] theorem expertTouch_ln (b : Nat) (n : Node) : (expertTouch b n).ln = n.ln := by unfold expertTouch; split <;> rfl
@[simp] theorem expertTouch_gen (b : Nat) (n : Node) : (expertTouch b n).gen = n.gen := by unfold expertTouch; split <;> rfl
@[simp] theorem expertTouch_alm (b : Nat) (n : Node) : (expertTouch b n).alm = n.alm := by unfold expertTouch; split <;> rfl
@[simp] theorem expertTouch_seq (b : Nat) (n : Node) : (expertTouch b n).seq = n.seq := by unfold expertTouch; split <;> rfl
@[simp] theorem expertTouch_dsp (b : Nat) (n : Node) : (expertTouch b n).dsp = n.dsp := by unfold expertTouch; split <;> rfl
@[simp] theorem expertTouch_clk (b : Nat) (n : Node) : (expertTouch b n).clk = n.clk := by unfold expertTouch; split <;> rfl
@[simp] theorem expertTouch_mram (b : Nat) (n : Node) : (expertTouch b n).mram = n.mram := by unfold expertTouch; split <;> rfl
@[simp] theorem expertTouch_rcd (b : Nat) (n : Node) : (expertTouch b n).rcd = n.rcd := by unfold expertTouch; split <;> rfl
@[simp] theorem expertTouch_dup (b : Nat) (n : Node) : (expertTouch b n).dup = n.dup := by unfold expertTouch; split <;> rfl
@[simp] theorem expertTouch_mir (b : Nat) (n : Node) : (expertTouch b n).mir = n.mir := by unfold expertTouch; split <;> rfl
@[simp] theorem expertTouch_ckpt (b : Nat) (n : Node) : (expertTouch b n).ckpt = n.ckpt := by unfold expertTouch; split <;> rfl
@[simp] theorem expertTouch_net (b : Nat) (n : Node) : (expertTouch b n).net = n.net := by unfold expertTouch; split <;> rfl
@[simp] theorem expertTouch_dtr (b : Nat) (n : Node) : (expertTouch b n).dtr = n.dtr := by unfold expertTouch; split <;> rfl
@[simp] theorem expertTouch_fwActs (b : Nat) (n : Node) : (expertTouch b n).fwActs = n.fwActs := by unfold expertTouch; split <;> rfl
@[simp] theorem expertTouch_tx (b : Nat) (n : Node) : (expertTouch b n).tx = n.tx := by unfold expertTouch; split <;> rfl
@[simp] theorem expertTouch_free (b : Nat) (n : Node) : (expertTouch b n).free = n.free := by unfold expertTouch; split <;> rfl

@[simp] theorem advance_now (t : Nat) (n : Node) : (n.advance t).now = max n.now t := rfl
@[simp] theorem raise_store (k : Nat) (n : Node) : (raise k n).jn.store = n.jn.store := by simp
@[simp] theorem complete_store (p g : Nat) (es : List Entry) (t : Nat) (n : Node) : (complete p g es t n).jn.store = n.jn.store := by
  unfold complete; dsimp only; split <;> simp

@[simp] theorem port_setPort (p : HostPort) (x : Port) (n : Node) : (n.setPort p x).port p = x := by cases p <;> rfl
@[simp] theorem port_modPort (p : HostPort) (f : Port → Port) (n : Node) : (n.modPort p f).port p = f (n.port p) := by
  simp [Node.modPort]

/-! ### Conditions that read the module -/

@[simp] theorem advance_up (t : Nat) (n : Node) : (n.advance t).up = n.up := by simp [Node.up]
@[simp] theorem advance_running (t : Nat) (n : Node) : (n.advance t).running = n.running := by simp [Node.running]
@[simp] theorem advance_acq (t : Nat) (n : Node) : (n.advance t).acq = n.acq := by simp [Node.acq, Node.running]
@[simp] theorem advance_isRun (t : Nat) (n : Node) (i : Nat) : (n.advance t).isRun i = n.isRun i := by simp [Node.isRun, Node.islSt]
@[simp] theorem recNote_up (a b : Nat) (p : Option Bytes) (n : Node) : (recNote a b p n).up = n.up := by simp [Node.up]
@[simp] theorem recNote_running (a b : Nat) (p : Option Bytes) (n : Node) : (recNote a b p n).running = n.running := by simp [Node.running]
@[simp] theorem recNote_acq (a b : Nat) (p : Option Bytes) (n : Node) : (recNote a b p n).acq = n.acq := by simp [Node.acq, Node.running]
@[simp] theorem recNote_isRun (a b : Nat) (p : Option Bytes) (n : Node) (i : Nat) : (recNote a b p n).isRun i = n.isRun i := by simp [Node.isRun, Node.islSt]
@[simp] theorem recNoteIf_up (c : Bool) (a b : Nat) (p : Option Bytes) (n : Node) : (recNoteIf c a b p n).up = n.up := by simp [Node.up]
@[simp] theorem recNoteIf_running (c : Bool) (a b : Nat) (p : Option Bytes) (n : Node) : (recNoteIf c a b p n).running = n.running := by simp [Node.running]
@[simp] theorem recNoteIf_acq (c : Bool) (a b : Nat) (p : Option Bytes) (n : Node) : (recNoteIf c a b p n).acq = n.acq := by simp [Node.acq, Node.running]
@[simp] theorem recNoteIf_isRun (c : Bool) (a b : Nat) (p : Option Bytes) (n : Node) (i : Nat) : (recNoteIf c a b p n).isRun i = n.isRun i := by simp [Node.isRun, Node.islSt]
@[simp] theorem recOcc_up (a b : Nat) (n : Node) : (recOcc a b n).up = n.up := by simp [Node.up]
@[simp] theorem recOcc_running (a b : Nat) (n : Node) : (recOcc a b n).running = n.running := by simp [Node.running]
@[simp] theorem recOcc_acq (a b : Nat) (n : Node) : (recOcc a b n).acq = n.acq := by simp [Node.acq, Node.running]
@[simp] theorem recOcc_isRun (a b : Nat) (n : Node) (i : Nat) : (recOcc a b n).isRun i = n.isRun i := by simp [Node.isRun, Node.islSt]
@[simp] theorem recOccIf_up (c : Bool) (a b : Nat) (n : Node) : (recOccIf c a b n).up = n.up := by simp [Node.up]
@[simp] theorem recOccIf_running (c : Bool) (a b : Nat) (n : Node) : (recOccIf c a b n).running = n.running := by simp [Node.running]
@[simp] theorem recOccIf_acq (c : Bool) (a b : Nat) (n : Node) : (recOccIf c a b n).acq = n.acq := by simp [Node.acq, Node.running]
@[simp] theorem recOccIf_isRun (c : Bool) (a b : Nat) (n : Node) (i : Nat) : (recOccIf c a b n).isRun i = n.isRun i := by simp [Node.isRun, Node.islSt]
@[simp] theorem raise_up (k : Nat) (n : Node) : (raise k n).up = n.up := by simp [Node.up]
@[simp] theorem raise_running (k : Nat) (n : Node) : (raise k n).running = n.running := by simp [Node.running]
@[simp] theorem raise_acq (k : Nat) (n : Node) : (raise k n).acq = n.acq := by simp [Node.acq, Node.running]
@[simp] theorem raise_isRun (k : Nat) (n : Node) (i : Nat) : (raise k n).isRun i = n.isRun i := by simp [Node.isRun, Node.islSt]
@[simp] theorem raiseIf_up (c : Bool) (k : Nat) (n : Node) : (raiseIf c k n).up = n.up := by simp [Node.up]
@[simp] theorem raiseIf_running (c : Bool) (k : Nat) (n : Node) : (raiseIf c k n).running = n.running := by simp [Node.running]
@[simp] theorem raiseIf_acq (c : Bool) (k : Nat) (n : Node) : (raiseIf c k n).acq = n.acq := by simp [Node.acq, Node.running]
@[simp] theorem raiseIf_isRun (c : Bool) (k : Nat) (n : Node) (i : Nat) : (raiseIf c k n).isRun i = n.isRun i := by simp [Node.isRun, Node.islSt]
@[simp] theorem complete_up (p g : Nat) (es : List Entry) (t : Nat) (n : Node) : (complete p g es t n).up = n.up := by simp [Node.up]
@[simp] theorem complete_running (p g : Nat) (es : List Entry) (t : Nat) (n : Node) : (complete p g es t n).running = n.running := by simp [Node.running]
@[simp] theorem complete_acq (p g : Nat) (es : List Entry) (t : Nat) (n : Node) : (complete p g es t n).acq = n.acq := by simp [Node.acq, Node.running]
@[simp] theorem complete_isRun (p g : Nat) (es : List Entry) (t : Nat) (n : Node) (i : Nat) : (complete p g es t n).isRun i = n.isRun i := by simp [Node.isRun, Node.islSt]
@[simp] theorem setPort_up (p : HostPort) (x : Port) (n : Node) : (n.setPort p x).up = n.up := by simp [Node.up]
@[simp] theorem setPort_running (p : HostPort) (x : Port) (n : Node) : (n.setPort p x).running = n.running := by simp [Node.running]
@[simp] theorem setPort_acq (p : HostPort) (x : Port) (n : Node) : (n.setPort p x).acq = n.acq := by simp [Node.acq, Node.running]
@[simp] theorem setPort_isRun (p : HostPort) (x : Port) (n : Node) (i : Nat) : (n.setPort p x).isRun i = n.isRun i := by simp [Node.isRun, Node.islSt]
@[simp] theorem modPort_up (p : HostPort) (f : Port → Port) (n : Node) : (n.modPort p f).up = n.up := by simp [Node.up]
@[simp] theorem modPort_running (p : HostPort) (f : Port → Port) (n : Node) : (n.modPort p f).running = n.running := by simp [Node.running]
@[simp] theorem modPort_acq (p : HostPort) (f : Port → Port) (n : Node) : (n.modPort p f).acq = n.acq := by simp [Node.acq, Node.running]
@[simp] theorem modPort_isRun (p : HostPort) (f : Port → Port) (n : Node) (i : Nat) : (n.modPort p f).isRun i = n.isRun i := by simp [Node.isRun, Node.islSt]
@[simp] theorem expertTouch_up (b : Nat) (n : Node) : (expertTouch b n).up = n.up := by simp [Node.up]
@[simp] theorem expertTouch_running (b : Nat) (n : Node) : (expertTouch b n).running = n.running := by simp [Node.running]
@[simp] theorem expertTouch_acq (b : Nat) (n : Node) : (expertTouch b n).acq = n.acq := by simp [Node.acq, Node.running]
@[simp] theorem expertTouch_isRun (b : Nat) (n : Node) (i : Nat) : (expertTouch b n).isRun i = n.isRun i := by simp [Node.isRun, Node.islSt]

/-! ### What follows a command -/

theorem Follows.time {n m : Node} (h : Follows n m) : m.time = n.time := congrArg (fun x => x.time) h.core
@[simp] theorem settle_time (n : Node) : (settle n).time = n.time := (settle_follows n).time
theorem Follows.ports {n m : Node} (h : Follows n m) : m.ports = n.ports := congrArg (fun x => x.ports) h.core
@[simp] theorem settle_ports (n : Node) : (settle n).ports = n.ports := (settle_follows n).ports
theorem Follows.isl {n m : Node} (h : Follows n m) : m.isl = n.isl := congrArg (fun x => x.isl) h.core
@[simp] theorem settle_isl (n : Node) : (settle n).isl = n.isl := (settle_follows n).isl
theorem Follows.ld {n m : Node} (h : Follows n m) : m.ld = n.ld := congrArg (fun x => x.ld) h.core
@[simp] theorem settle_ld (n : Node) : (settle n).ld = n.ld := (settle_follows n).ld
theorem Follows.blk {n m : Node} (h : Follows n m) : m.blk = n.blk := congrArg (fun x => x.blk) h.core
@[simp] theorem settle_blk (n : Node) : (settle n).blk = n.blk := (settle_follows n).blk
theorem Follows.spi {n m : Node} (h : Follows n m) : m.spi = n.spi := congrArg (fun x => x.spi) h.core
@[simp] theorem settle_spi (n : Node) : (settle n).spi = n.spi := (settle_follows n).spi
theorem Follows.wf {n m : Node} (h : Follows n m) : m.wf = n.wf := congrArg (fun x => x.wf) h.core
@[simp] theorem settle_wf (n : Node) : (settle n).wf = n.wf := (settle_follows n).wf
theorem Follows.mbx {n m : Node} (h : Follows n m) : m.mbx = n.mbx := congrArg (fun x => x.mbx) h.core
@[simp] theorem settle_mbx (n : Node) : (settle n).mbx = n.mbx := (settle_follows n).mbx
theorem Follows.ui {n m : Node} (h : Follows n m) : m.ui = n.ui := congrArg (fun x => x.ui) h.core
@[simp] theorem settle_ui (n : Node) : (settle n).ui = n.ui := (settle_follows n).ui
theorem Follows.ex {n m : Node} (h : Follows n m) : m.ex = n.ex := congrArg (fun x => x.ex) h.core
@[simp] theorem settle_ex (n : Node) : (settle n).ex = n.ex := (settle_follows n).ex
theorem Follows.cj {n m : Node} (h : Follows n m) : m.cj = n.cj := congrArg (fun x => x.cj) h.core
@[simp] theorem settle_cj (n : Node) : (settle n).cj = n.cj := (settle_follows n).cj
theorem Follows.cal {n m : Node} (h : Follows n m) : m.cal = n.cal := congrArg (fun x => x.cal) h.core
@[simp] theorem settle_cal (n : Node) : (settle n).cal = n.cal := (settle_follows n).cal
theorem Follows.mw {n m : Node} (h : Follows n m) : m.mw = n.mw := congrArg (fun x => x.mw) h.core
@[simp] theorem settle_mw (n : Node) : (settle n).mw = n.mw := (settle_follows n).mw
theorem Follows.ca {n m : Node} (h : Follows n m) : m.ca = n.ca := congrArg (fun x => x.ca) h.core
@[simp] theorem settle_ca (n : Node) : (settle n).ca = n.ca := (settle_follows n).ca
theorem Follows.lo {n m : Node} (h : Follows n m) : m.lo = n.lo := congrArg (fun x => x.lo) h.core
@[simp] theorem settle_lo (n : Node) : (settle n).lo = n.lo := (settle_follows n).lo
theorem Follows.po {n m : Node} (h : Follows n m) : m.po = n.po := congrArg (fun x => x.po) h.core
@[simp] theorem settle_po (n : Node) : (settle n).po = n.po := (settle_follows n).po
theorem Follows.hart {n m : Node} (h : Follows n m) : m.hart = n.hart := congrArg (fun x => x.hart) h.core
@[simp] theorem settle_hart (n : Node) : (settle n).hart = n.hart := (settle_follows n).hart
theorem Follows.pf {n m : Node} (h : Follows n m) : m.pf = n.pf := congrArg (fun x => x.pf) h.core
@[simp] theorem settle_pf (n : Node) : (settle n).pf = n.pf := (settle_follows n).pf
theorem Follows.cmp {n m : Node} (h : Follows n m) : m.cmp = n.cmp := congrArg (fun x => x.cmp) h.core
@[simp] theorem settle_cmp (n : Node) : (settle n).cmp = n.cmp := (settle_follows n).cmp
theorem Follows.ln {n m : Node} (h : Follows n m) : m.ln = n.ln := congrArg (fun x => x.ln) h.core
@[simp] theorem settle_ln (n : Node) : (settle n).ln = n.ln := (settle_follows n).ln
theorem Follows.gen {n m : Node} (h : Follows n m) : m.gen = n.gen := congrArg (fun x => x.gen) h.core
@[simp] theorem settle_gen (n : Node) : (settle n).gen = n.gen := (settle_follows n).gen
theorem Follows.seq {n m : Node} (h : Follows n m) : m.seq = n.seq := congrArg (fun x => x.seq) h.core
@[simp] theorem settle_seq (n : Node) : (settle n).seq = n.seq := (settle_follows n).seq
theorem Follows.dsp {n m : Node} (h : Follows n m) : m.dsp = n.dsp := congrArg (fun x => x.dsp) h.core
@[simp] theorem settle_dsp (n : Node) : (settle n).dsp = n.dsp := (settle_follows n).dsp
theorem Follows.clk {n m : Node} (h : Follows n m) : m.clk = n.clk := congrArg (fun x => x.clk) h.core
@[simp] theorem settle_clk (n : Node) : (settle n).clk = n.clk := (settle_follows n).clk
theorem Follows.mir {n m : Node} (h : Follows n m) : m.mir = n.mir := congrArg (fun x => x.mir) h.core
@[simp] theorem settle_mir (n : Node) : (settle n).mir = n.mir := (settle_follows n).mir
theorem Follows.ckpt {n m : Node} (h : Follows n m) : m.ckpt = n.ckpt := congrArg (fun x => x.ckpt) h.core
@[simp] theorem settle_ckpt (n : Node) : (settle n).ckpt = n.ckpt := (settle_follows n).ckpt
theorem Follows.dtr {n m : Node} (h : Follows n m) : m.dtr = n.dtr := congrArg (fun x => x.dtr) h.core
@[simp] theorem settle_dtr (n : Node) : (settle n).dtr = n.dtr := (settle_follows n).dtr
theorem Follows.fwActs {n m : Node} (h : Follows n m) : m.fwActs = n.fwActs := congrArg (fun x => x.fwActs) h.core
@[simp] theorem settle_fwActs (n : Node) : (settle n).fwActs = n.fwActs := (settle_follows n).fwActs
theorem Follows.free {n m : Node} (h : Follows n m) : m.free = n.free := congrArg (fun x => x.free) h.core
@[simp] theorem settle_free (n : Node) : (settle n).free = n.free := (settle_follows n).free
theorem Follows.jn_store {n m : Node} (h : Follows n m) : m.jn.store = n.jn.store := congrArg (fun x => x.jn.store) h.core
@[simp] theorem settle_jn_store (n : Node) : (settle n).jn.store = n.jn.store := (settle_follows n).jn_store
theorem Follows.dig_di {n m : Node} (h : Follows n m) : m.dig.di = n.dig.di := congrArg (fun x => x.dig.di) h.core
@[simp] theorem settle_dig_di (n : Node) : (settle n).dig.di = n.dig.di := (settle_follows n).dig_di
theorem Follows.dig_ss {n m : Node} (h : Follows n m) : m.dig.ss = n.dig.ss := congrArg (fun x => x.dig.ss) h.core
@[simp] theorem settle_dig_ss (n : Node) : (settle n).dig.ss = n.dig.ss := (settle_follows n).dig_ss
theorem Follows.dig_ot {n m : Node} (h : Follows n m) : m.dig.ot = n.dig.ot := congrArg (fun x => x.dig.ot) h.core
@[simp] theorem settle_dig_ot (n : Node) : (settle n).dig.ot = n.dig.ot := (settle_follows n).dig_ot
theorem Follows.dig_pins {n m : Node} (h : Follows n m) : m.dig.pins = n.dig.pins := congrArg (fun x => x.dig.pins) h.core
@[simp] theorem settle_dig_pins (n : Node) : (settle n).dig.pins = n.dig.pins := (settle_follows n).dig_pins
theorem Follows.dig_fpMv {n m : Node} (h : Follows n m) : m.dig.fpMv = n.dig.fpMv := congrArg (fun x => x.dig.fpMv) h.core
@[simp] theorem settle_dig_fpMv (n : Node) : (settle n).dig.fpMv = n.dig.fpMv := (settle_follows n).dig_fpMv
theorem Follows.il_refused {n m : Node} (h : Follows n m) : m.il.refused = n.il.refused := congrArg (fun x => x.il.refused) h.core
@[simp] theorem settle_il_refused (n : Node) : (settle n).il.refused = n.il.refused := (settle_follows n).il_refused
theorem Follows.dev_cause {n m : Node} (h : Follows n m) : m.dev.cause = n.dev.cause := congrArg (fun x => x.dev.cause) h.core
@[simp] theorem settle_dev_cause (n : Node) : (settle n).dev.cause = n.dev.cause := (settle_follows n).dev_cause
theorem Follows.dev_safeCause {n m : Node} (h : Follows n m) : m.dev.safeCause = n.dev.safeCause := congrArg (fun x => x.dev.safeCause) h.core
@[simp] theorem settle_dev_safeCause (n : Node) : (settle n).dev.safeCause = n.dev.safeCause := (settle_follows n).dev_safeCause
theorem Follows.dev_feedA {n m : Node} (h : Follows n m) : m.dev.feedA = n.dev.feedA := congrArg (fun x => x.dev.feedA) h.core
@[simp] theorem settle_dev_feedA (n : Node) : (settle n).dev.feedA = n.dev.feedA := (settle_follows n).dev_feedA
theorem Follows.dev_feedB {n m : Node} (h : Follows n m) : m.dev.feedB = n.dev.feedB := congrArg (fun x => x.dev.feedB) h.core
@[simp] theorem settle_dev_feedB (n : Node) : (settle n).dev.feedB = n.dev.feedB := (settle_follows n).dev_feedB
theorem Follows.dev_overtemp {n m : Node} (h : Follows n m) : m.dev.overtemp = n.dev.overtemp := congrArg (fun x => x.dev.overtemp) h.core
@[simp] theorem settle_dev_overtemp (n : Node) : (settle n).dev.overtemp = n.dev.overtemp := (settle_follows n).dev_overtemp
theorem Follows.dev_refused {n m : Node} (h : Follows n m) : m.dev.refused = n.dev.refused := congrArg (fun x => x.dev.refused) h.core
@[simp] theorem settle_dev_refused (n : Node) : (settle n).dev.refused = n.dev.refused := (settle_follows n).dev_refused
theorem Follows.dev_pend {n m : Node} (h : Follows n m) : m.dev.pend = n.dev.pend := congrArg (fun x => x.dev.pend) h.core
@[simp] theorem settle_dev_pend (n : Node) : (settle n).dev.pend = n.dev.pend := (settle_follows n).dev_pend
theorem Follows.dev_chanFail {n m : Node} (h : Follows n m) : m.dev.chanFail = n.dev.chanFail := congrArg (fun x => x.dev.chanFail) h.core
@[simp] theorem settle_dev_chanFail (n : Node) : (settle n).dev.chanFail = n.dev.chanFail := (settle_follows n).dev_chanFail
theorem Follows.dev_pinLow {n m : Node} (h : Follows n m) : m.dev.pinLow = n.dev.pinLow := congrArg (fun x => x.dev.pinLow) h.core
@[simp] theorem settle_dev_pinLow (n : Node) : (settle n).dev.pinLow = n.dev.pinLow := (settle_follows n).dev_pinLow
theorem Follows.dup_role {n m : Node} (h : Follows n m) : m.dup.role = n.dup.role := congrArg (fun x => x.dup.role) h.core
@[simp] theorem settle_dup_role (n : Node) : (settle n).dup.role = n.dup.role := (settle_follows n).dup_role
theorem Follows.dup_lane0 {n m : Node} (h : Follows n m) : m.dup.lane0 = n.dup.lane0 := congrArg (fun x => x.dup.lane0) h.core
@[simp] theorem settle_dup_lane0 (n : Node) : (settle n).dup.lane0 = n.dup.lane0 := (settle_follows n).dup_lane0
theorem Follows.dup_lane1 {n m : Node} (h : Follows n m) : m.dup.lane1 = n.dup.lane1 := congrArg (fun x => x.dup.lane1) h.core
@[simp] theorem settle_dup_lane1 (n : Node) : (settle n).dup.lane1 = n.dup.lane1 := (settle_follows n).dup_lane1
theorem Follows.dup_last0 {n m : Node} (h : Follows n m) : m.dup.last0 = n.dup.last0 := congrArg (fun x => x.dup.last0) h.core
@[simp] theorem settle_dup_last0 (n : Node) : (settle n).dup.last0 = n.dup.last0 := (settle_follows n).dup_last0
theorem Follows.dup_last1 {n m : Node} (h : Follows n m) : m.dup.last1 = n.dup.last1 := congrArg (fun x => x.dup.last1) h.core
@[simp] theorem settle_dup_last1 (n : Node) : (settle n).dup.last1 = n.dup.last1 := (settle_follows n).dup_last1
theorem Follows.dup_lost {n m : Node} (h : Follows n m) : m.dup.lost = n.dup.lost := congrArg (fun x => x.dup.lost) h.core
@[simp] theorem settle_dup_lost (n : Node) : (settle n).dup.lost = n.dup.lost := (settle_follows n).dup_lost
theorem Follows.dup_slErr0 {n m : Node} (h : Follows n m) : m.dup.slErr0 = n.dup.slErr0 := congrArg (fun x => x.dup.slErr0) h.core
@[simp] theorem settle_dup_slErr0 (n : Node) : (settle n).dup.slErr0 = n.dup.slErr0 := (settle_follows n).dup_slErr0
theorem Follows.dup_slErr1 {n m : Node} (h : Follows n m) : m.dup.slErr1 = n.dup.slErr1 := congrArg (fun x => x.dup.slErr1) h.core
@[simp] theorem settle_dup_slErr1 (n : Node) : (settle n).dup.slErr1 = n.dup.slErr1 := (settle_follows n).dup_slErr1
theorem Follows.dup_roleIn {n m : Node} (h : Follows n m) : m.dup.roleIn = n.dup.roleIn := congrArg (fun x => x.dup.roleIn) h.core
@[simp] theorem settle_dup_roleIn (n : Node) : (settle n).dup.roleIn = n.dup.roleIn := (settle_follows n).dup_roleIn
theorem Follows.dup_roleOut {n m : Node} (h : Follows n m) : m.dup.roleOut = n.dup.roleOut := congrArg (fun x => x.dup.roleOut) h.core
@[simp] theorem settle_dup_roleOut (n : Node) : (settle n).dup.roleOut = n.dup.roleOut := (settle_follows n).dup_roleOut
theorem Follows.dup_latched {n m : Node} (h : Follows n m) : m.dup.latched = n.dup.latched := congrArg (fun x => x.dup.latched) h.core
@[simp] theorem settle_dup_latched (n : Node) : (settle n).dup.latched = n.dup.latched := (settle_follows n).dup_latched
theorem Follows.dup_latchAt {n m : Node} (h : Follows n m) : m.dup.latchAt = n.dup.latchAt := congrArg (fun x => x.dup.latchAt) h.core
@[simp] theorem settle_dup_latchAt (n : Node) : (settle n).dup.latchAt = n.dup.latchAt := (settle_follows n).dup_latchAt
theorem Follows.dup_relAt {n m : Node} (h : Follows n m) : m.dup.relAt = n.dup.relAt := congrArg (fun x => x.dup.relAt) h.core
@[simp] theorem settle_dup_relAt (n : Node) : (settle n).dup.relAt = n.dup.relAt := (settle_follows n).dup_relAt
theorem Follows.dup_hello {n m : Node} (h : Follows n m) : m.dup.hello = n.dup.hello := congrArg (fun x => x.dup.hello) h.core
@[simp] theorem settle_dup_hello (n : Node) : (settle n).dup.hello = n.dup.hello := (settle_follows n).dup_hello
theorem Follows.dup_pRev {n m : Node} (h : Follows n m) : m.dup.pRev = n.dup.pRev := congrArg (fun x => x.dup.pRev) h.core
@[simp] theorem settle_dup_pRev (n : Node) : (settle n).dup.pRev = n.dup.pRev := (settle_follows n).dup_pRev
theorem Follows.dup_pOcrc {n m : Node} (h : Follows n m) : m.dup.pOcrc = n.dup.pOcrc := congrArg (fun x => x.dup.pOcrc) h.core
@[simp] theorem settle_dup_pOcrc (n : Node) : (settle n).dup.pOcrc = n.dup.pOcrc := (settle_follows n).dup_pOcrc
theorem Follows.dup_pGen {n m : Node} (h : Follows n m) : m.dup.pGen = n.dup.pGen := congrArg (fun x => x.dup.pGen) h.core
@[simp] theorem settle_dup_pGen (n : Node) : (settle n).dup.pGen = n.dup.pGen := (settle_follows n).dup_pGen
theorem Follows.dup_pRole {n m : Node} (h : Follows n m) : m.dup.pRole = n.dup.pRole := congrArg (fun x => x.dup.pRole) h.core
@[simp] theorem settle_dup_pRole (n : Node) : (settle n).dup.pRole = n.dup.pRole := (settle_follows n).dup_pRole
theorem Follows.dup_pElig {n m : Node} (h : Follows n m) : m.dup.pElig = n.dup.pElig := congrArg (fun x => x.dup.pElig) h.core
@[simp] theorem settle_dup_pElig (n : Node) : (settle n).dup.pElig = n.dup.pElig := (settle_follows n).dup_pElig
theorem Follows.dup_pver {n m : Node} (h : Follows n m) : m.dup.pver = n.dup.pver := congrArg (fun x => x.dup.pver) h.core
@[simp] theorem settle_dup_pver (n : Node) : (settle n).dup.pver = n.dup.pver := (settle_follows n).dup_pver
theorem Follows.dup_verBad {n m : Node} (h : Follows n m) : m.dup.verBad = n.dup.verBad := congrArg (fun x => x.dup.verBad) h.core
@[simp] theorem settle_dup_verBad (n : Node) : (settle n).dup.verBad = n.dup.verBad := (settle_follows n).dup_verBad
theorem Follows.dup_stoodDown {n m : Node} (h : Follows n m) : m.dup.stoodDown = n.dup.stoodDown := congrArg (fun x => x.dup.stoodDown) h.core
@[simp] theorem settle_dup_stoodDown (n : Node) : (settle n).dup.stoodDown = n.dup.stoodDown := (settle_follows n).dup_stoodDown
theorem Follows.dup_linkIneligible {n m : Node} (h : Follows n m) : m.dup.linkIneligible = n.dup.linkIneligible := congrArg (fun x => x.dup.linkIneligible) h.core
@[simp] theorem settle_dup_linkIneligible (n : Node) : (settle n).dup.linkIneligible = n.dup.linkIneligible := (settle_follows n).dup_linkIneligible
theorem Follows.dup_divIneligible {n m : Node} (h : Follows n m) : m.dup.divIneligible = n.dup.divIneligible := congrArg (fun x => x.dup.divIneligible) h.core
@[simp] theorem settle_dup_divIneligible (n : Node) : (settle n).dup.divIneligible = n.dup.divIneligible := (settle_follows n).dup_divIneligible
theorem Follows.dup_mirrorAt {n m : Node} (h : Follows n m) : m.dup.mirrorAt = n.dup.mirrorAt := congrArg (fun x => x.dup.mirrorAt) h.core
@[simp] theorem settle_dup_mirrorAt (n : Node) : (settle n).dup.mirrorAt = n.dup.mirrorAt := (settle_follows n).dup_mirrorAt
theorem Follows.dup_mirDiv {n m : Node} (h : Follows n m) : m.dup.mirDiv = n.dup.mirDiv := congrArg (fun x => x.dup.mirDiv) h.core
@[simp] theorem settle_dup_mirDiv (n : Node) : (settle n).dup.mirDiv = n.dup.mirDiv := (settle_follows n).dup_mirDiv
theorem Follows.dup_consecDiv {n m : Node} (h : Follows n m) : m.dup.consecDiv = n.dup.consecDiv := congrArg (fun x => x.dup.consecDiv) h.core
@[simp] theorem settle_dup_consecDiv (n : Node) : (settle n).dup.consecDiv = n.dup.consecDiv := (settle_follows n).dup_consecDiv
theorem Follows.dup_swapCnt {n m : Node} (h : Follows n m) : m.dup.swapCnt = n.dup.swapCnt := congrArg (fun x => x.dup.swapCnt) h.core
@[simp] theorem settle_dup_swapCnt (n : Node) : (settle n).dup.swapCnt = n.dup.swapCnt := (settle_follows n).dup_swapCnt
theorem Follows.dup_swapSkip {n m : Node} (h : Follows n m) : m.dup.swapSkip = n.dup.swapSkip := congrArg (fun x => x.dup.swapSkip) h.core
@[simp] theorem settle_dup_swapSkip (n : Node) : (settle n).dup.swapSkip = n.dup.swapSkip := (settle_follows n).dup_swapSkip
theorem Follows.dup_cmdRefused {n m : Node} (h : Follows n m) : m.dup.cmdRefused = n.dup.cmdRefused := congrArg (fun x => x.dup.cmdRefused) h.core
@[simp] theorem settle_dup_cmdRefused (n : Node) : (settle n).dup.cmdRefused = n.dup.cmdRefused := (settle_follows n).dup_cmdRefused
theorem Follows.dup_plan {n m : Node} (h : Follows n m) : m.dup.plan = n.dup.plan := congrArg (fun x => x.dup.plan) h.core
@[simp] theorem settle_dup_plan (n : Node) : (settle n).dup.plan = n.dup.plan := (settle_follows n).dup_plan
theorem Follows.dup_owed {n m : Node} (h : Follows n m) : m.dup.owed = n.dup.owed := congrArg (fun x => x.dup.owed) h.core
@[simp] theorem settle_dup_owed (n : Node) : (settle n).dup.owed = n.dup.owed := (settle_follows n).dup_owed
theorem Follows.dup_findAt {n m : Node} (h : Follows n m) : m.dup.findAt = n.dup.findAt := congrArg (fun x => x.dup.findAt) h.core
@[simp] theorem settle_dup_findAt (n : Node) : (settle n).dup.findAt = n.dup.findAt := (settle_follows n).dup_findAt
theorem Follows.dup_foundReady {n m : Node} (h : Follows n m) : m.dup.foundReady = n.dup.foundReady := congrArg (fun x => x.dup.foundReady) h.core
@[simp] theorem settle_dup_foundReady (n : Node) : (settle n).dup.foundReady = n.dup.foundReady := (settle_follows n).dup_foundReady
theorem Follows.dup_waitHello {n m : Node} (h : Follows n m) : m.dup.waitHello = n.dup.waitHello := congrArg (fun x => x.dup.waitHello) h.core
@[simp] theorem settle_dup_waitHello (n : Node) : (settle n).dup.waitHello = n.dup.waitHello := (settle_follows n).dup_waitHello
theorem Follows.dup_resets {n m : Node} (h : Follows n m) : m.dup.resets = n.dup.resets := congrArg (fun x => x.dup.resets) h.core
@[simp] theorem settle_dup_resets (n : Node) : (settle n).dup.resets = n.dup.resets := (settle_follows n).dup_resets
theorem Follows.dup_rejoinAt {n m : Node} (h : Follows n m) : m.dup.rejoinAt = n.dup.rejoinAt := congrArg (fun x => x.dup.rejoinAt) h.core
@[simp] theorem settle_dup_rejoinAt (n : Node) : (settle n).dup.rejoinAt = n.dup.rejoinAt := (settle_follows n).dup_rejoinAt
theorem Follows.dup_overlap {n m : Node} (h : Follows n m) : m.dup.overlap = n.dup.overlap := congrArg (fun x => x.dup.overlap) h.core
@[simp] theorem settle_dup_overlap (n : Node) : (settle n).dup.overlap = n.dup.overlap := (settle_follows n).dup_overlap
theorem Follows.dup_crossRamp {n m : Node} (h : Follows n m) : m.dup.crossRamp = n.dup.crossRamp := congrArg (fun x => x.dup.crossRamp) h.core
@[simp] theorem settle_dup_crossRamp (n : Node) : (settle n).dup.crossRamp = n.dup.crossRamp := (settle_follows n).dup_crossRamp
theorem Follows.dup_taking {n m : Node} (h : Follows n m) : m.dup.taking = n.dup.taking := congrArg (fun x => x.dup.taking) h.core
@[simp] theorem settle_dup_taking (n : Node) : (settle n).dup.taking = n.dup.taking := (settle_follows n).dup_taking
theorem Follows.dup_unreleased {n m : Node} (h : Follows n m) : m.dup.unreleased = n.dup.unreleased := congrArg (fun x => x.dup.unreleased) h.core
@[simp] theorem settle_dup_unreleased (n : Node) : (settle n).dup.unreleased = n.dup.unreleased := (settle_follows n).dup_unreleased
theorem Follows.dup_proposed {n m : Node} (h : Follows n m) : m.dup.proposed = n.dup.proposed := congrArg (fun x => x.dup.proposed) h.core
@[simp] theorem settle_dup_proposed (n : Node) : (settle n).dup.proposed = n.dup.proposed := (settle_follows n).dup_proposed
theorem Follows.dup_fwAddr {n m : Node} (h : Follows n m) : m.dup.fwAddr = n.dup.fwAddr := congrArg (fun x => x.dup.fwAddr) h.core
@[simp] theorem settle_dup_fwAddr (n : Node) : (settle n).dup.fwAddr = n.dup.fwAddr := (settle_follows n).dup_fwAddr
theorem Follows.dup_fwEnd {n m : Node} (h : Follows n m) : m.dup.fwEnd = n.dup.fwEnd := congrArg (fun x => x.dup.fwEnd) h.core
@[simp] theorem settle_dup_fwEnd (n : Node) : (settle n).dup.fwEnd = n.dup.fwEnd := (settle_follows n).dup_fwEnd
theorem Follows.dup_fwStat {n m : Node} (h : Follows n m) : m.dup.fwStat = n.dup.fwStat := congrArg (fun x => x.dup.fwStat) h.core
@[simp] theorem settle_dup_fwStat (n : Node) : (settle n).dup.fwStat = n.dup.fwStat := (settle_follows n).dup_fwStat
theorem Follows.dup_fwRun {n m : Node} (h : Follows n m) : m.dup.fwRun = n.dup.fwRun := congrArg (fun x => x.dup.fwRun) h.core
@[simp] theorem settle_dup_fwRun (n : Node) : (settle n).dup.fwRun = n.dup.fwRun := (settle_follows n).dup_fwRun
theorem Follows.alm_pts {n m : Node} (h : Follows n m) : m.alm.pts = n.alm.pts := congrArg (fun x => x.alm.pts) h.core
@[simp] theorem settle_alm_pts (n : Node) : (settle n).alm.pts = n.alm.pts := (settle_follows n).alm_pts
theorem Follows.alm_grps {n m : Node} (h : Follows n m) : m.alm.grps = n.alm.grps := congrArg (fun x => x.alm.grps) h.core
@[simp] theorem settle_alm_grps (n : Node) : (settle n).alm.grps = n.alm.grps := (settle_follows n).alm_grps
theorem Follows.alm_entered {n m : Node} (h : Follows n m) : m.alm.entered = n.alm.entered := congrArg (fun x => x.alm.entered) h.core
@[simp] theorem settle_alm_entered (n : Node) : (settle n).alm.entered = n.alm.entered := (settle_follows n).alm_entered
theorem Follows.alm_inq {n m : Node} (h : Follows n m) : m.alm.inq = n.alm.inq := congrArg (fun x => x.alm.inq) h.core
@[simp] theorem settle_alm_inq (n : Node) : (settle n).alm.inq = n.alm.inq := (settle_follows n).alm_inq
theorem Follows.alm_level {n m : Node} (h : Follows n m) : m.alm.level = n.alm.level := congrArg (fun x => x.alm.level) h.core
@[simp] theorem settle_alm_level (n : Node) : (settle n).alm.level = n.alm.level := (settle_follows n).alm_level
theorem Follows.alm_cause {n m : Node} (h : Follows n m) : m.alm.cause = n.alm.cause := congrArg (fun x => x.alm.cause) h.core
@[simp] theorem settle_alm_cause (n : Node) : (settle n).alm.cause = n.alm.cause := (settle_follows n).alm_cause
theorem Follows.alm_callAt {n m : Node} (h : Follows n m) : m.alm.callAt = n.alm.callAt := congrArg (fun x => x.alm.callAt) h.core
@[simp] theorem settle_alm_callAt (n : Node) : (settle n).alm.callAt = n.alm.callAt := (settle_follows n).alm_callAt
theorem Follows.alm_escAt {n m : Node} (h : Follows n m) : m.alm.escAt = n.alm.escAt := congrArg (fun x => x.alm.escAt) h.core
@[simp] theorem settle_alm_escAt (n : Node) : (settle n).alm.escAt = n.alm.escAt := (settle_follows n).alm_escAt
theorem Follows.alm_recallAt {n m : Node} (h : Follows n m) : m.alm.recallAt = n.alm.recallAt := congrArg (fun x => x.alm.recallAt) h.core
@[simp] theorem settle_alm_recallAt (n : Node) : (settle n).alm.recallAt = n.alm.recallAt := (settle_follows n).alm_recallAt
theorem Follows.alm_repat {n m : Node} (h : Follows n m) : m.alm.repat = n.alm.repat := congrArg (fun x => x.alm.repat) h.core
@[simp] theorem settle_alm_repat (n : Node) : (settle n).alm.repat = n.alm.repat := (settle_follows n).alm_repat
theorem Follows.alm_duty {n m : Node} (h : Follows n m) : m.alm.duty = n.alm.duty := congrArg (fun x => x.alm.duty) h.core
@[simp] theorem settle_alm_duty (n : Node) : (settle n).alm.duty = n.alm.duty := (settle_follows n).alm_duty
theorem Follows.alm_dutyW {n m : Node} (h : Follows n m) : m.alm.dutyW = n.alm.dutyW := congrArg (fun x => x.alm.dutyW) h.core
@[simp] theorem settle_alm_dutyW (n : Node) : (settle n).alm.dutyW = n.alm.dutyW := (settle_follows n).alm_dutyW
theorem Follows.alm_patrol {n m : Node} (h : Follows n m) : m.alm.patrol = n.alm.patrol := congrArg (fun x => x.alm.patrol) h.core
@[simp] theorem settle_alm_patrol (n : Node) : (settle n).alm.patrol = n.alm.patrol := (settle_follows n).alm_patrol
theorem Follows.alm_patEnd {n m : Node} (h : Follows n m) : m.alm.patEnd = n.alm.patEnd := congrArg (fun x => x.alm.patEnd) h.core
@[simp] theorem settle_alm_patEnd (n : Node) : (settle n).alm.patEnd = n.alm.patEnd := (settle_follows n).alm_patEnd
theorem Follows.alm_patWarn {n m : Node} (h : Follows n m) : m.alm.patWarn = n.alm.patWarn := congrArg (fun x => x.alm.patWarn) h.core
@[simp] theorem settle_alm_patWarn (n : Node) : (settle n).alm.patWarn = n.alm.patWarn := (settle_follows n).alm_patWarn
theorem Follows.alm_log {n m : Node} (h : Follows n m) : m.alm.log = n.alm.log := congrArg (fun x => x.alm.log) h.core
@[simp] theorem settle_alm_log (n : Node) : (settle n).alm.log = n.alm.log := (settle_follows n).alm_log
theorem Follows.alm_head {n m : Node} (h : Follows n m) : m.alm.head = n.alm.head := congrArg (fun x => x.alm.head) h.core
@[simp] theorem settle_alm_head (n : Node) : (settle n).alm.head = n.alm.head := (settle_follows n).alm_head
theorem Follows.alm_logWrap {n m : Node} (h : Follows n m) : m.alm.logWrap = n.alm.logWrap := congrArg (fun x => x.alm.logWrap) h.core
@[simp] theorem settle_alm_logWrap (n : Node) : (settle n).alm.logWrap = n.alm.logWrap := (settle_follows n).alm_logWrap
theorem Follows.alm_refused {n m : Node} (h : Follows n m) : m.alm.refused = n.alm.refused := congrArg (fun x => x.alm.refused) h.core
@[simp] theorem settle_alm_refused (n : Node) : (settle n).alm.refused = n.alm.refused := (settle_follows n).alm_refused
theorem Follows.alm_idx {n m : Node} (h : Follows n m) : m.alm.idx = n.alm.idx := congrArg (fun x => x.alm.idx) h.core
@[simp] theorem settle_alm_idx (n : Node) : (settle n).alm.idx = n.alm.idx := (settle_follows n).alm_idx
theorem Follows.alm_gidx {n m : Node} (h : Follows n m) : m.alm.gidx = n.alm.gidx := congrArg (fun x => x.alm.gidx) h.core
@[simp] theorem settle_alm_gidx (n : Node) : (settle n).alm.gidx = n.alm.gidx := (settle_follows n).alm_gidx
theorem Follows.net_ethA {n m : Node} (h : Follows n m) : m.net.ethA = n.net.ethA := congrArg (fun x => x.net.ethA) h.core
@[simp] theorem settle_net_ethA (n : Node) : (settle n).net.ethA = n.net.ethA := (settle_follows n).net_ethA
theorem Follows.net_ethB {n m : Node} (h : Follows n m) : m.net.ethB = n.net.ethB := congrArg (fun x => x.net.ethB) h.core
@[simp] theorem settle_net_ethB (n : Node) : (settle n).net.ethB = n.net.ethB := (settle_follows n).net_ethB
theorem Follows.net_acnBad {n m : Node} (h : Follows n m) : m.net.acnBad = n.net.acnBad := congrArg (fun x => x.net.acnBad) h.core
@[simp] theorem settle_net_acnBad (n : Node) : (settle n).net.acnBad = n.net.acnBad := (settle_follows n).net_acnBad
theorem Follows.net_arcSent {n m : Node} (h : Follows n m) : m.net.arcSent = n.net.arcSent := congrArg (fun x => x.net.arcSent) h.core
@[simp] theorem settle_net_arcSent (n : Node) : (settle n).net.arcSent = n.net.arcSent := (settle_follows n).net_arcSent
theorem Follows.net_can0 {n m : Node} (h : Follows n m) : m.net.can0 = n.net.can0 := congrArg (fun x => x.net.can0) h.core
@[simp] theorem settle_net_can0 (n : Node) : (settle n).net.can0 = n.net.can0 := (settle_follows n).net_can0
theorem Follows.net_can1 {n m : Node} (h : Follows n m) : m.net.can1 = n.net.can1 := congrArg (fun x => x.net.can1) h.core
@[simp] theorem settle_net_can1 (n : Node) : (settle n).net.can1 = n.net.can1 := (settle_follows n).net_can1
theorem Follows.net_impErr {n m : Node} (h : Follows n m) : m.net.impErr = n.net.impErr := congrArg (fun x => x.net.impErr) h.core
@[simp] theorem settle_net_impErr (n : Node) : (settle n).net.impErr = n.net.impErr := (settle_follows n).net_impErr
theorem Follows.net_rawLost0 {n m : Node} (h : Follows n m) : m.net.rawLost0 = n.net.rawLost0 := congrArg (fun x => x.net.rawLost0) h.core
@[simp] theorem settle_net_rawLost0 (n : Node) : (settle n).net.rawLost0 = n.net.rawLost0 := (settle_follows n).net_rawLost0
theorem Follows.net_rawLost1 {n m : Node} (h : Follows n m) : m.net.rawLost1 = n.net.rawLost1 := congrArg (fun x => x.net.rawLost1) h.core
@[simp] theorem settle_net_rawLost1 (n : Node) : (settle n).net.rawLost1 = n.net.rawLost1 := (settle_follows n).net_rawLost1
theorem Follows.net_lastVal {n m : Node} (h : Follows n m) : m.net.lastVal = n.net.lastVal := congrArg (fun x => x.net.lastVal) h.core
@[simp] theorem settle_net_lastVal (n : Node) : (settle n).net.lastVal = n.net.lastVal := (settle_follows n).net_lastVal
theorem Follows.net_svc {n m : Node} (h : Follows n m) : m.net.svc = n.net.svc := congrArg (fun x => x.net.svc) h.core
@[simp] theorem settle_net_svc (n : Node) : (settle n).net.svc = n.net.svc := (settle_follows n).net_svc
theorem Follows.net_fwds {n m : Node} (h : Follows n m) : m.net.fwds = n.net.fwds := congrArg (fun x => x.net.fwds) h.core
@[simp] theorem settle_net_fwds (n : Node) : (settle n).net.fwds = n.net.fwds := (settle_follows n).net_fwds

@[simp] theorem settle_running (n : Node) : (settle n).running = n.running := (settle_follows n).mode.1
theorem settle_dev (n : Node) (h : n.running = false) : (settle n).dev = n.dev := (settle_follows n).mode.2 h
@[simp] theorem settle_up (n : Node) : (settle n).up = n.up := by
  cases h : n.running
  · simp [Node.up, settle_dev n h]
  · have h2 := (settle_running n).trans h
    have h3 : n.dev.st ≠ .off := by intro e; simp [Node.running, e] at h
    have h4 : (settle n).dev.st ≠ .off := by intro e; simp [Node.running, e] at h2
    simp [Node.up, bne_iff_ne.2 h3, bne_iff_ne.2 h4]
@[simp] theorem settle_now (n : Node) : (settle n).now = n.now := by simp [Node.now]
@[simp] theorem settle_port (p : HostPort) (n : Node) : (settle n).port p = n.port p := by cases p <;> simp [Node.port]
@[simp] theorem settle_res (n : Node) (a : Nat) : (settle n).res a = n.res a := by simp [Node.res]
theorem settle_flag (n : Node) (k : Nat) (h : n.evt.flag k = true) : (settle n).evt.flag k = true := (settle_follows n).flag k h
theorem settle_slot (n : Node) (r : Record) (h : r ∈ n.jn.slots) (hp : r.prod < 118 ∨ 126 ≤ r.prod) : r ∈ (settle n).jn.slots :=
  (settle_follows n).slot r h hp
theorem settle_doC (n : Node) (k : Nat) : ((settle n).doC k).core = (n.doC k).core := (settle_follows n).dout k

/-! ### Channels: reading after writing -/

theorem almP_setAlmP (k : Nat) (u : AlmPt) (n : Node) (j : Nat) : (setAlmP k u n).almP j = if j = k then u else n.almP j := by
  simp [Node.almP, setAlmP, tget_tset]
@[simp] theorem almP_setAlmP_same (k : Nat) (u : AlmPt) (n : Node) : (setAlmP k u n).almP k = u := by simp [almP_setAlmP]
theorem almG_setAlmG (k : Nat) (u : AlmGrp) (n : Node) (j : Nat) : (setAlmG k u n).almG j = if j = k then u else n.almG j := by
  simp [Node.almG, setAlmG, tget_tset]
@[simp] theorem almG_setAlmG_same (k : Nat) (u : AlmGrp) (n : Node) : (setAlmG k u n).almG k = u := by simp [almG_setAlmG]
theorem caC_setCa (k : Nat) (u : CaChan) (n : Node) (j : Nat) : (setCa k u n).caC j = if j = k then u else n.caC j := by
  simp [Node.caC, setCa, tget_tset]
@[simp] theorem caC_setCa_same (k : Nat) (u : CaChan) (n : Node) : (setCa k u n).caC k = u := by simp [caC_setCa]
theorem loC_setLo (k : Nat) (u : LoChan) (n : Node) (j : Nat) : (setLo k u n).loC j = if j = k then u else n.loC j := by
  simp [Node.loC, setLo, tget_tset]
@[simp] theorem loC_setLo_same (k : Nat) (u : LoChan) (n : Node) : (setLo k u n).loC k = u := by simp [loC_setLo]
theorem poC_setPo (k : Nat) (u : PoChan) (n : Node) (j : Nat) : (setPo k u n).poC j = if j = k then u else n.poC j := by
  simp [Node.poC, setPo, tget_tset]
@[simp] theorem poC_setPo_same (k : Nat) (u : PoChan) (n : Node) : (setPo k u n).poC k = u := by simp [poC_setPo]
theorem hmC_setHm (k : Nat) (u : HartM) (n : Node) (j : Nat) : (setHm k u n).hmC j = if j = k then u else n.hmC j := by
  simp [Node.hmC, setHm, tget_tset]
@[simp] theorem hmC_setHm_same (k : Nat) (u : HartM) (n : Node) : (setHm k u n).hmC k = u := by simp [hmC_setHm]
theorem diC_setDi (k : Nat) (u : DiChan) (n : Node) (j : Nat) : (setDi k u n).diC j = if j = k then u else n.diC j := by
  simp [Node.diC, setDi, tget_tset]
@[simp] theorem diC_setDi_same (k : Nat) (u : DiChan) (n : Node) : (setDi k u n).diC k = u := by simp [diC_setDi]
theorem ssC_setSs (k : Nat) (u : SsChan) (n : Node) (j : Nat) : (setSs k u n).ssC j = if j = k then u else n.ssC j := by
  simp [Node.ssC, setSs, tget_tset]
@[simp] theorem ssC_setSs_same (k : Nat) (u : SsChan) (n : Node) : (setSs k u n).ssC k = u := by simp [ssC_setSs]
theorem doC_setDo (k : Nat) (u : DoChan) (n : Node) (j : Nat) : (setDo k u n).doC j = if j = k then u else n.doC j := by
  simp [Node.doC, setDo, tget_tset]
@[simp] theorem doC_setDo_same (k : Nat) (u : DoChan) (n : Node) : (setDo k u n).doC k = u := by simp [doC_setDo]
theorem rg_setRg (k : Nat) (u : Rg) (n : Node) (j : Nat) : (setRg k u n).rg j = if j = k then u else n.rg j := by
  simp [Node.rg, setRg, tget_tset]
@[simp] theorem rg_setRg_same (k : Nat) (u : Rg) (n : Node) : (setRg k u n).rg k = u := by simp [rg_setRg]
theorem lnC_setLn (k : Nat) (u : Lane) (n : Node) (j : Nat) : (setLn k u n).lnC j = if j = k then u else n.lnC j := by
  simp [Node.lnC, setLn, tget_tset]
@[simp] theorem lnC_setLn_same (k : Nat) (u : Lane) (n : Node) : (setLn k u n).lnC k = u := by simp [lnC_setLn]
theorem genC_setGen (k : Nat) (u : LnGen) (n : Node) (j : Nat) : (setGen k u n).genC j = if j = k then u else n.genC j := by
  simp [Node.genC, setGen, tget_tset]
@[simp] theorem genC_setGen_same (k : Nat) (u : LnGen) (n : Node) : (setGen k u n).genC k = u := by simp [genC_setGen]
theorem mbChan_setMbChan (k : Nat) (u : MbChan) (n : Node) (j : Nat) : (setMbChan k u n).mbChan j = if j = k then u else n.mbChan j := by
  simp [Node.mbChan, setMbChan, tget_tset]
@[simp] theorem mbChan_setMbChan_same (k : Nat) (u : MbChan) (n : Node) : (setMbChan k u n).mbChan k = u := by simp [mbChan_setMbChan]
theorem mbId_setMbId (k : Nat) (u : MbId) (n : Node) (j : Nat) : (setMbId k u n).mbId j = if j = k then u else n.mbId j := by
  simp [Node.mbId, setMbId, tget_tset]
@[simp] theorem mbId_setMbId_same (k : Nat) (u : MbId) (n : Node) : (setMbId k u n).mbId k = u := by simp [mbId_setMbId]
theorem pfC_setPf (k : Nat) (u : PfChan) (n : Node) (j : Nat) : (setPf k u n).pfC j = if j = k then u else n.pfC j := by
  simp [Node.pfC, setPf, tget_tset]
@[simp] theorem pfC_setPf_same (k : Nat) (u : PfChan) (n : Node) : (setPf k u n).pfC k = u := by simp [pfC_setPf]
theorem cmpE_setCmpE (k : Nat) (u : CmpEnt) (n : Node) (j : Nat) : (setCmpE k u n).cmpE j = if j = k then u else n.cmpE j := by
  simp [Node.cmpE, setCmpE, tget_tset]
@[simp] theorem cmpE_setCmpE_same (k : Nat) (u : CmpEnt) (n : Node) : (setCmpE k u n).cmpE k = u := by simp [cmpE_setCmpE]
theorem sq_setSq (k : Nat) (u : Seq) (n : Node) (j : Nat) : (setSq k u n).sq j = if j = k then u else n.sq j := by
  simp [Node.sq, setSq, tget_tset]
@[simp] theorem sq_setSq_same (k : Nat) (u : Seq) (n : Node) : (setSq k u n).sq k = u := by simp [sq_setSq]
theorem svC_setSv (k : Nat) (u : SvChan) (n : Node) (j : Nat) : (setSv k u n).svC j = if j = k then u else n.svC j := by
  simp [Node.svC, setSv, tget_tset]
@[simp] theorem svC_setSv_same (k : Nat) (u : SvChan) (n : Node) : (setSv k u n).svC k = u := by simp [svC_setSv]
theorem hbC_setHb (k : Nat) (u : Bank) (n : Node) (j : Nat) : (setHb k u n).hbC j = if j = k then u else n.hbC j := by
  simp [Node.hbC, setHb, tget_tset]
@[simp] theorem hbC_setHb_same (k : Nat) (u : Bank) (n : Node) : (setHb k u n).hbC k = u := by simp [hbC_setHb]
theorem uiC_setUi (k : Nat) (u : UiChan) (n : Node) (j : Nat) : (setUi k u n).uiC j = if j = k then u else n.uiC j := by
  simp [Node.uiC, setUi, tget_tset]
@[simp] theorem uiC_setUi_same (k : Nat) (u : UiChan) (n : Node) : (setUi k u n).uiC k = u := by simp [uiC_setUi]
theorem exC_setEx (k : Nat) (u : ExChan) (n : Node) (j : Nat) : (setEx k u n).exC j = if j = k then u else n.exC j := by
  simp [Node.exC, setEx, tget_tset]
@[simp] theorem exC_setEx_same (k : Nat) (u : ExChan) (n : Node) : (setEx k u n).exC k = u := by simp [exC_setEx]
theorem bcOf_setBc (k : Nat) (u : Bc) (n : Node) (j : Nat) : (setBc k u n).bcOf j = if j = k then u else n.bcOf j := by
  simp [Node.bcOf, setBc, tget_tset]
@[simp] theorem bcOf_setBc_same (k : Nat) (u : Bc) (n : Node) : (setBc k u n).bcOf k = u := by simp [bcOf_setBc]

@[simp] theorem settle_almP (n : Node) (k : Nat) : (settle n).almP k = n.almP k := by simp [Node.almP]
@[simp] theorem settle_almG (n : Node) (k : Nat) : (settle n).almG k = n.almG k := by simp [Node.almG]
@[simp] theorem settle_caC (n : Node) (k : Nat) : (settle n).caC k = n.caC k := by simp [Node.caC]
@[simp] theorem settle_loC (n : Node) (k : Nat) : (settle n).loC k = n.loC k := by simp [Node.loC]
@[simp] theorem settle_poC (n : Node) (k : Nat) : (settle n).poC k = n.poC k := by simp [Node.poC]
@[simp] theorem settle_hmC (n : Node) (k : Nat) : (settle n).hmC k = n.hmC k := by simp [Node.hmC]
@[simp] theorem settle_diC (n : Node) (k : Nat) : (settle n).diC k = n.diC k := by simp [Node.diC]
@[simp] theorem settle_ssC (n : Node) (k : Nat) : (settle n).ssC k = n.ssC k := by simp [Node.ssC]
@[simp] theorem settle_rg (n : Node) (k : Nat) : (settle n).rg k = n.rg k := by simp [Node.rg]
@[simp] theorem settle_lnC (n : Node) (k : Nat) : (settle n).lnC k = n.lnC k := by simp [Node.lnC]
@[simp] theorem settle_genC (n : Node) (k : Nat) : (settle n).genC k = n.genC k := by simp [Node.genC]
@[simp] theorem settle_mbChan (n : Node) (k : Nat) : (settle n).mbChan k = n.mbChan k := by simp [Node.mbChan]
@[simp] theorem settle_mbId (n : Node) (k : Nat) : (settle n).mbId k = n.mbId k := by simp [Node.mbId]
@[simp] theorem settle_pfC (n : Node) (k : Nat) : (settle n).pfC k = n.pfC k := by simp [Node.pfC]
@[simp] theorem settle_cmpE (n : Node) (k : Nat) : (settle n).cmpE k = n.cmpE k := by simp [Node.cmpE]
@[simp] theorem settle_sq (n : Node) (k : Nat) : (settle n).sq k = n.sq k := by simp [Node.sq]
@[simp] theorem settle_uiC (n : Node) (k : Nat) : (settle n).uiC k = n.uiC k := by simp [Node.uiC]
@[simp] theorem settle_exC (n : Node) (k : Nat) : (settle n).exC k = n.exC k := by simp [Node.exC]
@[simp] theorem settle_bcOf (n : Node) (k : Nat) : (settle n).bcOf k = n.bcOf k := by simp [Node.bcOf]
@[simp] theorem advance_uiC (t : Nat) (n : Node) (i : Nat) : (n.advance t).uiC i = n.uiC i := by simp [Node.uiC]
@[simp] theorem advance_lnC (t : Nat) (n : Node) (i : Nat) : (n.advance t).lnC i = n.lnC i := by simp [Node.lnC]
@[simp] theorem advance_svC (t : Nat) (n : Node) (i : Nat) : (n.advance t).svC i = n.svC i := by simp [Node.svC]
@[simp] theorem advance_poC (t : Nat) (n : Node) (i : Nat) : (n.advance t).poC i = n.poC i := by simp [Node.poC]
@[simp] theorem advance_almG (t : Nat) (n : Node) (i : Nat) : (n.advance t).almG i = n.almG i := by simp [Node.almG]
@[simp] theorem advance_cmpE (t : Nat) (n : Node) (i : Nat) : (n.advance t).cmpE i = n.cmpE i := by simp [Node.cmpE]
@[simp] theorem advance_genC (t : Nat) (n : Node) (i : Nat) : (n.advance t).genC i = n.genC i := by simp [Node.genC]
@[simp] theorem advance_mbId (t : Nat) (n : Node) (i : Nat) : (n.advance t).mbId i = n.mbId i := by simp [Node.mbId]
@[simp] theorem advance_pfC (t : Nat) (n : Node) (i : Nat) : (n.advance t).pfC i = n.pfC i := by simp [Node.pfC]
@[simp] theorem advance_caC (t : Nat) (n : Node) (i : Nat) : (n.advance t).caC i = n.caC i := by simp [Node.caC]
@[simp] theorem advance_exC (t : Nat) (n : Node) (i : Nat) : (n.advance t).exC i = n.exC i := by simp [Node.exC]
@[simp] theorem advance_sq (t : Nat) (n : Node) (i : Nat) : (n.advance t).sq i = n.sq i := by simp [Node.sq]
@[simp] theorem advance_loC (t : Nat) (n : Node) (i : Nat) : (n.advance t).loC i = n.loC i := by simp [Node.loC]
@[simp] theorem advance_bcOf (t : Nat) (n : Node) (i : Nat) : (n.advance t).bcOf i = n.bcOf i := by simp [Node.bcOf]
@[simp] theorem advance_hbC (t : Nat) (n : Node) (i : Nat) : (n.advance t).hbC i = n.hbC i := by simp [Node.hbC]
@[simp] theorem advance_hmC (t : Nat) (n : Node) (i : Nat) : (n.advance t).hmC i = n.hmC i := by simp [Node.hmC]
@[simp] theorem advance_doC (t : Nat) (n : Node) (i : Nat) : (n.advance t).doC i = n.doC i := by simp [Node.doC]
@[simp] theorem advance_mbChan (t : Nat) (n : Node) (i : Nat) : (n.advance t).mbChan i = n.mbChan i := by simp [Node.mbChan]
@[simp] theorem advance_ssC (t : Nat) (n : Node) (i : Nat) : (n.advance t).ssC i = n.ssC i := by simp [Node.ssC]
@[simp] theorem advance_rg (t : Nat) (n : Node) (i : Nat) : (n.advance t).rg i = n.rg i := by simp [Node.rg]
@[simp] theorem advance_almP (t : Nat) (n : Node) (i : Nat) : (n.advance t).almP i = n.almP i := by simp [Node.almP]
@[simp] theorem advance_diC (t : Nat) (n : Node) (i : Nat) : (n.advance t).diC i = n.diC i := by simp [Node.diC]
@[simp] theorem recNote_uiC (a b : Nat) (p : Option Bytes) (n : Node) (i : Nat) : (recNote a b p n).uiC i = n.uiC i := by simp [Node.uiC]
@[simp] theorem recNote_lnC (a b : Nat) (p : Option Bytes) (n : Node) (i : Nat) : (recNote a b p n).lnC i = n.lnC i := by simp [Node.lnC]
@[simp] theorem recNote_svC (a b : Nat) (p : Option Bytes) (n : Node) (i : Nat) : (recNote a b p n).svC i = n.svC i := by simp [Node.svC]
@[simp] theorem recNote_poC (a b : Nat) (p : Option Bytes) (n : Node) (i : Nat) : (recNote a b p n).poC i = n.poC i := by simp [Node.poC]
@[simp] theorem recNote_almG (a b : Nat) (p : Option Bytes) (n : Node) (i : Nat) : (recNote a b p n).almG i = n.almG i := by simp [Node.almG]
@[simp] theorem recNote_cmpE (a b : Nat) (p : Option Bytes) (n : Node) (i : Nat) : (recNote a b p n).cmpE i = n.cmpE i := by simp [Node.cmpE]
@[simp] theorem recNote_genC (a b : Nat) (p : Option Bytes) (n : Node) (i : Nat) : (recNote a b p n).genC i = n.genC i := by simp [Node.genC]
@[simp] theorem recNote_mbId (a b : Nat) (p : Option Bytes) (n : Node) (i : Nat) : (recNote a b p n).mbId i = n.mbId i := by simp [Node.mbId]
@[simp] theorem recNote_pfC (a b : Nat) (p : Option Bytes) (n : Node) (i : Nat) : (recNote a b p n).pfC i = n.pfC i := by simp [Node.pfC]
@[simp] theorem recNote_caC (a b : Nat) (p : Option Bytes) (n : Node) (i : Nat) : (recNote a b p n).caC i = n.caC i := by simp [Node.caC]
@[simp] theorem recNote_exC (a b : Nat) (p : Option Bytes) (n : Node) (i : Nat) : (recNote a b p n).exC i = n.exC i := by simp [Node.exC]
@[simp] theorem recNote_sq (a b : Nat) (p : Option Bytes) (n : Node) (i : Nat) : (recNote a b p n).sq i = n.sq i := by simp [Node.sq]
@[simp] theorem recNote_loC (a b : Nat) (p : Option Bytes) (n : Node) (i : Nat) : (recNote a b p n).loC i = n.loC i := by simp [Node.loC]
@[simp] theorem recNote_bcOf (a b : Nat) (p : Option Bytes) (n : Node) (i : Nat) : (recNote a b p n).bcOf i = n.bcOf i := by simp [Node.bcOf]
@[simp] theorem recNote_hbC (a b : Nat) (p : Option Bytes) (n : Node) (i : Nat) : (recNote a b p n).hbC i = n.hbC i := by simp [Node.hbC]
@[simp] theorem recNote_hmC (a b : Nat) (p : Option Bytes) (n : Node) (i : Nat) : (recNote a b p n).hmC i = n.hmC i := by simp [Node.hmC]
@[simp] theorem recNote_doC (a b : Nat) (p : Option Bytes) (n : Node) (i : Nat) : (recNote a b p n).doC i = n.doC i := by simp [Node.doC]
@[simp] theorem recNote_mbChan (a b : Nat) (p : Option Bytes) (n : Node) (i : Nat) : (recNote a b p n).mbChan i = n.mbChan i := by simp [Node.mbChan]
@[simp] theorem recNote_ssC (a b : Nat) (p : Option Bytes) (n : Node) (i : Nat) : (recNote a b p n).ssC i = n.ssC i := by simp [Node.ssC]
@[simp] theorem recNote_rg (a b : Nat) (p : Option Bytes) (n : Node) (i : Nat) : (recNote a b p n).rg i = n.rg i := by simp [Node.rg]
@[simp] theorem recNote_almP (a b : Nat) (p : Option Bytes) (n : Node) (i : Nat) : (recNote a b p n).almP i = n.almP i := by simp [Node.almP]
@[simp] theorem recNote_diC (a b : Nat) (p : Option Bytes) (n : Node) (i : Nat) : (recNote a b p n).diC i = n.diC i := by simp [Node.diC]
@[simp] theorem recNoteIf_uiC (c : Bool) (a b : Nat) (p : Option Bytes) (n : Node) (i : Nat) : (recNoteIf c a b p n).uiC i = n.uiC i := by simp [Node.uiC]
@[simp] theorem recNoteIf_lnC (c : Bool) (a b : Nat) (p : Option Bytes) (n : Node) (i : Nat) : (recNoteIf c a b p n).lnC i = n.lnC i := by simp [Node.lnC]
@[simp] theorem recNoteIf_svC (c : Bool) (a b : Nat) (p : Option Bytes) (n : Node) (i : Nat) : (recNoteIf c a b p n).svC i = n.svC i := by simp [Node.svC]
@[simp] theorem recNoteIf_poC (c : Bool) (a b : Nat) (p : Option Bytes) (n : Node) (i : Nat) : (recNoteIf c a b p n).poC i = n.poC i := by simp [Node.poC]
@[simp] theorem recNoteIf_almG (c : Bool) (a b : Nat) (p : Option Bytes) (n : Node) (i : Nat) : (recNoteIf c a b p n).almG i = n.almG i := by simp [Node.almG]
@[simp] theorem recNoteIf_cmpE (c : Bool) (a b : Nat) (p : Option Bytes) (n : Node) (i : Nat) : (recNoteIf c a b p n).cmpE i = n.cmpE i := by simp [Node.cmpE]
@[simp] theorem recNoteIf_genC (c : Bool) (a b : Nat) (p : Option Bytes) (n : Node) (i : Nat) : (recNoteIf c a b p n).genC i = n.genC i := by simp [Node.genC]
@[simp] theorem recNoteIf_mbId (c : Bool) (a b : Nat) (p : Option Bytes) (n : Node) (i : Nat) : (recNoteIf c a b p n).mbId i = n.mbId i := by simp [Node.mbId]
@[simp] theorem recNoteIf_pfC (c : Bool) (a b : Nat) (p : Option Bytes) (n : Node) (i : Nat) : (recNoteIf c a b p n).pfC i = n.pfC i := by simp [Node.pfC]
@[simp] theorem recNoteIf_caC (c : Bool) (a b : Nat) (p : Option Bytes) (n : Node) (i : Nat) : (recNoteIf c a b p n).caC i = n.caC i := by simp [Node.caC]
@[simp] theorem recNoteIf_exC (c : Bool) (a b : Nat) (p : Option Bytes) (n : Node) (i : Nat) : (recNoteIf c a b p n).exC i = n.exC i := by simp [Node.exC]
@[simp] theorem recNoteIf_sq (c : Bool) (a b : Nat) (p : Option Bytes) (n : Node) (i : Nat) : (recNoteIf c a b p n).sq i = n.sq i := by simp [Node.sq]
@[simp] theorem recNoteIf_loC (c : Bool) (a b : Nat) (p : Option Bytes) (n : Node) (i : Nat) : (recNoteIf c a b p n).loC i = n.loC i := by simp [Node.loC]
@[simp] theorem recNoteIf_bcOf (c : Bool) (a b : Nat) (p : Option Bytes) (n : Node) (i : Nat) : (recNoteIf c a b p n).bcOf i = n.bcOf i := by simp [Node.bcOf]
@[simp] theorem recNoteIf_hbC (c : Bool) (a b : Nat) (p : Option Bytes) (n : Node) (i : Nat) : (recNoteIf c a b p n).hbC i = n.hbC i := by simp [Node.hbC]
@[simp] theorem recNoteIf_hmC (c : Bool) (a b : Nat) (p : Option Bytes) (n : Node) (i : Nat) : (recNoteIf c a b p n).hmC i = n.hmC i := by simp [Node.hmC]
@[simp] theorem recNoteIf_doC (c : Bool) (a b : Nat) (p : Option Bytes) (n : Node) (i : Nat) : (recNoteIf c a b p n).doC i = n.doC i := by simp [Node.doC]
@[simp] theorem recNoteIf_mbChan (c : Bool) (a b : Nat) (p : Option Bytes) (n : Node) (i : Nat) : (recNoteIf c a b p n).mbChan i = n.mbChan i := by simp [Node.mbChan]
@[simp] theorem recNoteIf_ssC (c : Bool) (a b : Nat) (p : Option Bytes) (n : Node) (i : Nat) : (recNoteIf c a b p n).ssC i = n.ssC i := by simp [Node.ssC]
@[simp] theorem recNoteIf_rg (c : Bool) (a b : Nat) (p : Option Bytes) (n : Node) (i : Nat) : (recNoteIf c a b p n).rg i = n.rg i := by simp [Node.rg]
@[simp] theorem recNoteIf_almP (c : Bool) (a b : Nat) (p : Option Bytes) (n : Node) (i : Nat) : (recNoteIf c a b p n).almP i = n.almP i := by simp [Node.almP]
@[simp] theorem recNoteIf_diC (c : Bool) (a b : Nat) (p : Option Bytes) (n : Node) (i : Nat) : (recNoteIf c a b p n).diC i = n.diC i := by simp [Node.diC]
@[simp] theorem recOcc_uiC (a b : Nat) (n : Node) (i : Nat) : (recOcc a b n).uiC i = n.uiC i := by simp [Node.uiC]
@[simp] theorem recOcc_lnC (a b : Nat) (n : Node) (i : Nat) : (recOcc a b n).lnC i = n.lnC i := by simp [Node.lnC]
@[simp] theorem recOcc_svC (a b : Nat) (n : Node) (i : Nat) : (recOcc a b n).svC i = n.svC i := by simp [Node.svC]
@[simp] theorem recOcc_poC (a b : Nat) (n : Node) (i : Nat) : (recOcc a b n).poC i = n.poC i := by simp [Node.poC]
@[simp] theorem recOcc_almG (a b : Nat) (n : Node) (i : Nat) : (recOcc a b n).almG i = n.almG i := by simp [Node.almG]
@[simp] theorem recOcc_cmpE (a b : Nat) (n : Node) (i : Nat) : (recOcc a b n).cmpE i = n.cmpE i := by simp [Node.cmpE]
@[simp] theorem recOcc_genC (a b : Nat) (n : Node) (i : Nat) : (recOcc a b n).genC i = n.genC i := by simp [Node.genC]
@[simp] theorem recOcc_mbId (a b : Nat) (n : Node) (i : Nat) : (recOcc a b n).mbId i = n.mbId i := by simp [Node.mbId]
@[simp] theorem recOcc_pfC (a b : Nat) (n : Node) (i : Nat) : (recOcc a b n).pfC i = n.pfC i := by simp [Node.pfC]
@[simp] theorem recOcc_caC (a b : Nat) (n : Node) (i : Nat) : (recOcc a b n).caC i = n.caC i := by simp [Node.caC]
@[simp] theorem recOcc_exC (a b : Nat) (n : Node) (i : Nat) : (recOcc a b n).exC i = n.exC i := by simp [Node.exC]
@[simp] theorem recOcc_sq (a b : Nat) (n : Node) (i : Nat) : (recOcc a b n).sq i = n.sq i := by simp [Node.sq]
@[simp] theorem recOcc_loC (a b : Nat) (n : Node) (i : Nat) : (recOcc a b n).loC i = n.loC i := by simp [Node.loC]
@[simp] theorem recOcc_bcOf (a b : Nat) (n : Node) (i : Nat) : (recOcc a b n).bcOf i = n.bcOf i := by simp [Node.bcOf]
@[simp] theorem recOcc_hbC (a b : Nat) (n : Node) (i : Nat) : (recOcc a b n).hbC i = n.hbC i := by simp [Node.hbC]
@[simp] theorem recOcc_hmC (a b : Nat) (n : Node) (i : Nat) : (recOcc a b n).hmC i = n.hmC i := by simp [Node.hmC]
@[simp] theorem recOcc_doC (a b : Nat) (n : Node) (i : Nat) : (recOcc a b n).doC i = n.doC i := by simp [Node.doC]
@[simp] theorem recOcc_mbChan (a b : Nat) (n : Node) (i : Nat) : (recOcc a b n).mbChan i = n.mbChan i := by simp [Node.mbChan]
@[simp] theorem recOcc_ssC (a b : Nat) (n : Node) (i : Nat) : (recOcc a b n).ssC i = n.ssC i := by simp [Node.ssC]
@[simp] theorem recOcc_rg (a b : Nat) (n : Node) (i : Nat) : (recOcc a b n).rg i = n.rg i := by simp [Node.rg]
@[simp] theorem recOcc_almP (a b : Nat) (n : Node) (i : Nat) : (recOcc a b n).almP i = n.almP i := by simp [Node.almP]
@[simp] theorem recOcc_diC (a b : Nat) (n : Node) (i : Nat) : (recOcc a b n).diC i = n.diC i := by simp [Node.diC]
@[simp] theorem recOccIf_uiC (c : Bool) (a b : Nat) (n : Node) (i : Nat) : (recOccIf c a b n).uiC i = n.uiC i := by simp [Node.uiC]
@[simp] theorem recOccIf_lnC (c : Bool) (a b : Nat) (n : Node) (i : Nat) : (recOccIf c a b n).lnC i = n.lnC i := by simp [Node.lnC]
@[simp] theorem recOccIf_svC (c : Bool) (a b : Nat) (n : Node) (i : Nat) : (recOccIf c a b n).svC i = n.svC i := by simp [Node.svC]
@[simp] theorem recOccIf_poC (c : Bool) (a b : Nat) (n : Node) (i : Nat) : (recOccIf c a b n).poC i = n.poC i := by simp [Node.poC]
@[simp] theorem recOccIf_almG (c : Bool) (a b : Nat) (n : Node) (i : Nat) : (recOccIf c a b n).almG i = n.almG i := by simp [Node.almG]
@[simp] theorem recOccIf_cmpE (c : Bool) (a b : Nat) (n : Node) (i : Nat) : (recOccIf c a b n).cmpE i = n.cmpE i := by simp [Node.cmpE]
@[simp] theorem recOccIf_genC (c : Bool) (a b : Nat) (n : Node) (i : Nat) : (recOccIf c a b n).genC i = n.genC i := by simp [Node.genC]
@[simp] theorem recOccIf_mbId (c : Bool) (a b : Nat) (n : Node) (i : Nat) : (recOccIf c a b n).mbId i = n.mbId i := by simp [Node.mbId]
@[simp] theorem recOccIf_pfC (c : Bool) (a b : Nat) (n : Node) (i : Nat) : (recOccIf c a b n).pfC i = n.pfC i := by simp [Node.pfC]
@[simp] theorem recOccIf_caC (c : Bool) (a b : Nat) (n : Node) (i : Nat) : (recOccIf c a b n).caC i = n.caC i := by simp [Node.caC]
@[simp] theorem recOccIf_exC (c : Bool) (a b : Nat) (n : Node) (i : Nat) : (recOccIf c a b n).exC i = n.exC i := by simp [Node.exC]
@[simp] theorem recOccIf_sq (c : Bool) (a b : Nat) (n : Node) (i : Nat) : (recOccIf c a b n).sq i = n.sq i := by simp [Node.sq]
@[simp] theorem recOccIf_loC (c : Bool) (a b : Nat) (n : Node) (i : Nat) : (recOccIf c a b n).loC i = n.loC i := by simp [Node.loC]
@[simp] theorem recOccIf_bcOf (c : Bool) (a b : Nat) (n : Node) (i : Nat) : (recOccIf c a b n).bcOf i = n.bcOf i := by simp [Node.bcOf]
@[simp] theorem recOccIf_hbC (c : Bool) (a b : Nat) (n : Node) (i : Nat) : (recOccIf c a b n).hbC i = n.hbC i := by simp [Node.hbC]
@[simp] theorem recOccIf_hmC (c : Bool) (a b : Nat) (n : Node) (i : Nat) : (recOccIf c a b n).hmC i = n.hmC i := by simp [Node.hmC]
@[simp] theorem recOccIf_doC (c : Bool) (a b : Nat) (n : Node) (i : Nat) : (recOccIf c a b n).doC i = n.doC i := by simp [Node.doC]
@[simp] theorem recOccIf_mbChan (c : Bool) (a b : Nat) (n : Node) (i : Nat) : (recOccIf c a b n).mbChan i = n.mbChan i := by simp [Node.mbChan]
@[simp] theorem recOccIf_ssC (c : Bool) (a b : Nat) (n : Node) (i : Nat) : (recOccIf c a b n).ssC i = n.ssC i := by simp [Node.ssC]
@[simp] theorem recOccIf_rg (c : Bool) (a b : Nat) (n : Node) (i : Nat) : (recOccIf c a b n).rg i = n.rg i := by simp [Node.rg]
@[simp] theorem recOccIf_almP (c : Bool) (a b : Nat) (n : Node) (i : Nat) : (recOccIf c a b n).almP i = n.almP i := by simp [Node.almP]
@[simp] theorem recOccIf_diC (c : Bool) (a b : Nat) (n : Node) (i : Nat) : (recOccIf c a b n).diC i = n.diC i := by simp [Node.diC]
@[simp] theorem raise_uiC (k : Nat) (n : Node) (i : Nat) : (raise k n).uiC i = n.uiC i := by simp [Node.uiC]
@[simp] theorem raise_lnC (k : Nat) (n : Node) (i : Nat) : (raise k n).lnC i = n.lnC i := by simp [Node.lnC]
@[simp] theorem raise_svC (k : Nat) (n : Node) (i : Nat) : (raise k n).svC i = n.svC i := by simp [Node.svC]
@[simp] theorem raise_poC (k : Nat) (n : Node) (i : Nat) : (raise k n).poC i = n.poC i := by simp [Node.poC]
@[simp] theorem raise_almG (k : Nat) (n : Node) (i : Nat) : (raise k n).almG i = n.almG i := by simp [Node.almG]
@[simp] theorem raise_cmpE (k : Nat) (n : Node) (i : Nat) : (raise k n).cmpE i = n.cmpE i := by simp [Node.cmpE]
@[simp] theorem raise_genC (k : Nat) (n : Node) (i : Nat) : (raise k n).genC i = n.genC i := by simp [Node.genC]
@[simp] theorem raise_mbId (k : Nat) (n : Node) (i : Nat) : (raise k n).mbId i = n.mbId i := by simp [Node.mbId]
@[simp] theorem raise_pfC (k : Nat) (n : Node) (i : Nat) : (raise k n).pfC i = n.pfC i := by simp [Node.pfC]
@[simp] theorem raise_caC (k : Nat) (n : Node) (i : Nat) : (raise k n).caC i = n.caC i := by simp [Node.caC]
@[simp] theorem raise_exC (k : Nat) (n : Node) (i : Nat) : (raise k n).exC i = n.exC i := by simp [Node.exC]
@[simp] theorem raise_sq (k : Nat) (n : Node) (i : Nat) : (raise k n).sq i = n.sq i := by simp [Node.sq]
@[simp] theorem raise_loC (k : Nat) (n : Node) (i : Nat) : (raise k n).loC i = n.loC i := by simp [Node.loC]
@[simp] theorem raise_bcOf (k : Nat) (n : Node) (i : Nat) : (raise k n).bcOf i = n.bcOf i := by simp [Node.bcOf]
@[simp] theorem raise_hbC (k : Nat) (n : Node) (i : Nat) : (raise k n).hbC i = n.hbC i := by simp [Node.hbC]
@[simp] theorem raise_hmC (k : Nat) (n : Node) (i : Nat) : (raise k n).hmC i = n.hmC i := by simp [Node.hmC]
@[simp] theorem raise_doC (k : Nat) (n : Node) (i : Nat) : (raise k n).doC i = n.doC i := by simp [Node.doC]
@[simp] theorem raise_mbChan (k : Nat) (n : Node) (i : Nat) : (raise k n).mbChan i = n.mbChan i := by simp [Node.mbChan]
@[simp] theorem raise_ssC (k : Nat) (n : Node) (i : Nat) : (raise k n).ssC i = n.ssC i := by simp [Node.ssC]
@[simp] theorem raise_rg (k : Nat) (n : Node) (i : Nat) : (raise k n).rg i = n.rg i := by simp [Node.rg]
@[simp] theorem raise_almP (k : Nat) (n : Node) (i : Nat) : (raise k n).almP i = n.almP i := by simp [Node.almP]
@[simp] theorem raise_diC (k : Nat) (n : Node) (i : Nat) : (raise k n).diC i = n.diC i := by simp [Node.diC]
@[simp] theorem raiseIf_uiC (c : Bool) (k : Nat) (n : Node) (i : Nat) : (raiseIf c k n).uiC i = n.uiC i := by simp [Node.uiC]
@[simp] theorem raiseIf_lnC (c : Bool) (k : Nat) (n : Node) (i : Nat) : (raiseIf c k n).lnC i = n.lnC i := by simp [Node.lnC]
@[simp] theorem raiseIf_svC (c : Bool) (k : Nat) (n : Node) (i : Nat) : (raiseIf c k n).svC i = n.svC i := by simp [Node.svC]
@[simp] theorem raiseIf_poC (c : Bool) (k : Nat) (n : Node) (i : Nat) : (raiseIf c k n).poC i = n.poC i := by simp [Node.poC]
@[simp] theorem raiseIf_almG (c : Bool) (k : Nat) (n : Node) (i : Nat) : (raiseIf c k n).almG i = n.almG i := by simp [Node.almG]
@[simp] theorem raiseIf_cmpE (c : Bool) (k : Nat) (n : Node) (i : Nat) : (raiseIf c k n).cmpE i = n.cmpE i := by simp [Node.cmpE]
@[simp] theorem raiseIf_genC (c : Bool) (k : Nat) (n : Node) (i : Nat) : (raiseIf c k n).genC i = n.genC i := by simp [Node.genC]
@[simp] theorem raiseIf_mbId (c : Bool) (k : Nat) (n : Node) (i : Nat) : (raiseIf c k n).mbId i = n.mbId i := by simp [Node.mbId]
@[simp] theorem raiseIf_pfC (c : Bool) (k : Nat) (n : Node) (i : Nat) : (raiseIf c k n).pfC i = n.pfC i := by simp [Node.pfC]
@[simp] theorem raiseIf_caC (c : Bool) (k : Nat) (n : Node) (i : Nat) : (raiseIf c k n).caC i = n.caC i := by simp [Node.caC]
@[simp] theorem raiseIf_exC (c : Bool) (k : Nat) (n : Node) (i : Nat) : (raiseIf c k n).exC i = n.exC i := by simp [Node.exC]
@[simp] theorem raiseIf_sq (c : Bool) (k : Nat) (n : Node) (i : Nat) : (raiseIf c k n).sq i = n.sq i := by simp [Node.sq]
@[simp] theorem raiseIf_loC (c : Bool) (k : Nat) (n : Node) (i : Nat) : (raiseIf c k n).loC i = n.loC i := by simp [Node.loC]
@[simp] theorem raiseIf_bcOf (c : Bool) (k : Nat) (n : Node) (i : Nat) : (raiseIf c k n).bcOf i = n.bcOf i := by simp [Node.bcOf]
@[simp] theorem raiseIf_hbC (c : Bool) (k : Nat) (n : Node) (i : Nat) : (raiseIf c k n).hbC i = n.hbC i := by simp [Node.hbC]
@[simp] theorem raiseIf_hmC (c : Bool) (k : Nat) (n : Node) (i : Nat) : (raiseIf c k n).hmC i = n.hmC i := by simp [Node.hmC]
@[simp] theorem raiseIf_doC (c : Bool) (k : Nat) (n : Node) (i : Nat) : (raiseIf c k n).doC i = n.doC i := by simp [Node.doC]
@[simp] theorem raiseIf_mbChan (c : Bool) (k : Nat) (n : Node) (i : Nat) : (raiseIf c k n).mbChan i = n.mbChan i := by simp [Node.mbChan]
@[simp] theorem raiseIf_ssC (c : Bool) (k : Nat) (n : Node) (i : Nat) : (raiseIf c k n).ssC i = n.ssC i := by simp [Node.ssC]
@[simp] theorem raiseIf_rg (c : Bool) (k : Nat) (n : Node) (i : Nat) : (raiseIf c k n).rg i = n.rg i := by simp [Node.rg]
@[simp] theorem raiseIf_almP (c : Bool) (k : Nat) (n : Node) (i : Nat) : (raiseIf c k n).almP i = n.almP i := by simp [Node.almP]
@[simp] theorem raiseIf_diC (c : Bool) (k : Nat) (n : Node) (i : Nat) : (raiseIf c k n).diC i = n.diC i := by simp [Node.diC]
@[simp] theorem complete_uiC (p g : Nat) (es : List Entry) (t : Nat) (n : Node) (i : Nat) : (complete p g es t n).uiC i = n.uiC i := by simp [Node.uiC]
@[simp] theorem complete_lnC (p g : Nat) (es : List Entry) (t : Nat) (n : Node) (i : Nat) : (complete p g es t n).lnC i = n.lnC i := by simp [Node.lnC]
@[simp] theorem complete_svC (p g : Nat) (es : List Entry) (t : Nat) (n : Node) (i : Nat) : (complete p g es t n).svC i = n.svC i := by simp [Node.svC]
@[simp] theorem complete_poC (p g : Nat) (es : List Entry) (t : Nat) (n : Node) (i : Nat) : (complete p g es t n).poC i = n.poC i := by simp [Node.poC]
@[simp] theorem complete_almG (p g : Nat) (es : List Entry) (t : Nat) (n : Node) (i : Nat) : (complete p g es t n).almG i = n.almG i := by simp [Node.almG]
@[simp] theorem complete_cmpE (p g : Nat) (es : List Entry) (t : Nat) (n : Node) (i : Nat) : (complete p g es t n).cmpE i = n.cmpE i := by simp [Node.cmpE]
@[simp] theorem complete_genC (p g : Nat) (es : List Entry) (t : Nat) (n : Node) (i : Nat) : (complete p g es t n).genC i = n.genC i := by simp [Node.genC]
@[simp] theorem complete_mbId (p g : Nat) (es : List Entry) (t : Nat) (n : Node) (i : Nat) : (complete p g es t n).mbId i = n.mbId i := by simp [Node.mbId]
@[simp] theorem complete_pfC (p g : Nat) (es : List Entry) (t : Nat) (n : Node) (i : Nat) : (complete p g es t n).pfC i = n.pfC i := by simp [Node.pfC]
@[simp] theorem complete_caC (p g : Nat) (es : List Entry) (t : Nat) (n : Node) (i : Nat) : (complete p g es t n).caC i = n.caC i := by simp [Node.caC]
@[simp] theorem complete_exC (p g : Nat) (es : List Entry) (t : Nat) (n : Node) (i : Nat) : (complete p g es t n).exC i = n.exC i := by simp [Node.exC]
@[simp] theorem complete_sq (p g : Nat) (es : List Entry) (t : Nat) (n : Node) (i : Nat) : (complete p g es t n).sq i = n.sq i := by simp [Node.sq]
@[simp] theorem complete_loC (p g : Nat) (es : List Entry) (t : Nat) (n : Node) (i : Nat) : (complete p g es t n).loC i = n.loC i := by simp [Node.loC]
@[simp] theorem complete_bcOf (p g : Nat) (es : List Entry) (t : Nat) (n : Node) (i : Nat) : (complete p g es t n).bcOf i = n.bcOf i := by simp [Node.bcOf]
@[simp] theorem complete_hbC (p g : Nat) (es : List Entry) (t : Nat) (n : Node) (i : Nat) : (complete p g es t n).hbC i = n.hbC i := by simp [Node.hbC]
@[simp] theorem complete_hmC (p g : Nat) (es : List Entry) (t : Nat) (n : Node) (i : Nat) : (complete p g es t n).hmC i = n.hmC i := by simp [Node.hmC]
@[simp] theorem complete_doC (p g : Nat) (es : List Entry) (t : Nat) (n : Node) (i : Nat) : (complete p g es t n).doC i = n.doC i := by simp [Node.doC]
@[simp] theorem complete_mbChan (p g : Nat) (es : List Entry) (t : Nat) (n : Node) (i : Nat) : (complete p g es t n).mbChan i = n.mbChan i := by simp [Node.mbChan]
@[simp] theorem complete_ssC (p g : Nat) (es : List Entry) (t : Nat) (n : Node) (i : Nat) : (complete p g es t n).ssC i = n.ssC i := by simp [Node.ssC]
@[simp] theorem complete_rg (p g : Nat) (es : List Entry) (t : Nat) (n : Node) (i : Nat) : (complete p g es t n).rg i = n.rg i := by simp [Node.rg]
@[simp] theorem complete_almP (p g : Nat) (es : List Entry) (t : Nat) (n : Node) (i : Nat) : (complete p g es t n).almP i = n.almP i := by simp [Node.almP]
@[simp] theorem complete_diC (p g : Nat) (es : List Entry) (t : Nat) (n : Node) (i : Nat) : (complete p g es t n).diC i = n.diC i := by simp [Node.diC]
@[simp] theorem setPort_uiC (p : HostPort) (x : Port) (n : Node) (i : Nat) : (n.setPort p x).uiC i = n.uiC i := by simp [Node.uiC]
@[simp] theorem setPort_lnC (p : HostPort) (x : Port) (n : Node) (i : Nat) : (n.setPort p x).lnC i = n.lnC i := by simp [Node.lnC]
@[simp] theorem setPort_svC (p : HostPort) (x : Port) (n : Node) (i : Nat) : (n.setPort p x).svC i = n.svC i := by simp [Node.svC]
@[simp] theorem setPort_poC (p : HostPort) (x : Port) (n : Node) (i : Nat) : (n.setPort p x).poC i = n.poC i := by simp [Node.poC]
@[simp] theorem setPort_almG (p : HostPort) (x : Port) (n : Node) (i : Nat) : (n.setPort p x).almG i = n.almG i := by simp [Node.almG]
@[simp] theorem setPort_cmpE (p : HostPort) (x : Port) (n : Node) (i : Nat) : (n.setPort p x).cmpE i = n.cmpE i := by simp [Node.cmpE]
@[simp] theorem setPort_genC (p : HostPort) (x : Port) (n : Node) (i : Nat) : (n.setPort p x).genC i = n.genC i := by simp [Node.genC]
@[simp] theorem setPort_mbId (p : HostPort) (x : Port) (n : Node) (i : Nat) : (n.setPort p x).mbId i = n.mbId i := by simp [Node.mbId]
@[simp] theorem setPort_pfC (p : HostPort) (x : Port) (n : Node) (i : Nat) : (n.setPort p x).pfC i = n.pfC i := by simp [Node.pfC]
@[simp] theorem setPort_caC (p : HostPort) (x : Port) (n : Node) (i : Nat) : (n.setPort p x).caC i = n.caC i := by simp [Node.caC]
@[simp] theorem setPort_exC (p : HostPort) (x : Port) (n : Node) (i : Nat) : (n.setPort p x).exC i = n.exC i := by simp [Node.exC]
@[simp] theorem setPort_sq (p : HostPort) (x : Port) (n : Node) (i : Nat) : (n.setPort p x).sq i = n.sq i := by simp [Node.sq]
@[simp] theorem setPort_loC (p : HostPort) (x : Port) (n : Node) (i : Nat) : (n.setPort p x).loC i = n.loC i := by simp [Node.loC]
@[simp] theorem setPort_bcOf (p : HostPort) (x : Port) (n : Node) (i : Nat) : (n.setPort p x).bcOf i = n.bcOf i := by simp [Node.bcOf]
@[simp] theorem setPort_hbC (p : HostPort) (x : Port) (n : Node) (i : Nat) : (n.setPort p x).hbC i = n.hbC i := by simp [Node.hbC]
@[simp] theorem setPort_hmC (p : HostPort) (x : Port) (n : Node) (i : Nat) : (n.setPort p x).hmC i = n.hmC i := by simp [Node.hmC]
@[simp] theorem setPort_doC (p : HostPort) (x : Port) (n : Node) (i : Nat) : (n.setPort p x).doC i = n.doC i := by simp [Node.doC]
@[simp] theorem setPort_mbChan (p : HostPort) (x : Port) (n : Node) (i : Nat) : (n.setPort p x).mbChan i = n.mbChan i := by simp [Node.mbChan]
@[simp] theorem setPort_ssC (p : HostPort) (x : Port) (n : Node) (i : Nat) : (n.setPort p x).ssC i = n.ssC i := by simp [Node.ssC]
@[simp] theorem setPort_rg (p : HostPort) (x : Port) (n : Node) (i : Nat) : (n.setPort p x).rg i = n.rg i := by simp [Node.rg]
@[simp] theorem setPort_almP (p : HostPort) (x : Port) (n : Node) (i : Nat) : (n.setPort p x).almP i = n.almP i := by simp [Node.almP]
@[simp] theorem setPort_diC (p : HostPort) (x : Port) (n : Node) (i : Nat) : (n.setPort p x).diC i = n.diC i := by simp [Node.diC]
@[simp] theorem modPort_uiC (p : HostPort) (f : Port → Port) (n : Node) (i : Nat) : (n.modPort p f).uiC i = n.uiC i := by simp [Node.uiC]
@[simp] theorem modPort_lnC (p : HostPort) (f : Port → Port) (n : Node) (i : Nat) : (n.modPort p f).lnC i = n.lnC i := by simp [Node.lnC]
@[simp] theorem modPort_svC (p : HostPort) (f : Port → Port) (n : Node) (i : Nat) : (n.modPort p f).svC i = n.svC i := by simp [Node.svC]
@[simp] theorem modPort_poC (p : HostPort) (f : Port → Port) (n : Node) (i : Nat) : (n.modPort p f).poC i = n.poC i := by simp [Node.poC]
@[simp] theorem modPort_almG (p : HostPort) (f : Port → Port) (n : Node) (i : Nat) : (n.modPort p f).almG i = n.almG i := by simp [Node.almG]
@[simp] theorem modPort_cmpE (p : HostPort) (f : Port → Port) (n : Node) (i : Nat) : (n.modPort p f).cmpE i = n.cmpE i := by simp [Node.cmpE]
@[simp] theorem modPort_genC (p : HostPort) (f : Port → Port) (n : Node) (i : Nat) : (n.modPort p f).genC i = n.genC i := by simp [Node.genC]
@[simp] theorem modPort_mbId (p : HostPort) (f : Port → Port) (n : Node) (i : Nat) : (n.modPort p f).mbId i = n.mbId i := by simp [Node.mbId]
@[simp] theorem modPort_pfC (p : HostPort) (f : Port → Port) (n : Node) (i : Nat) : (n.modPort p f).pfC i = n.pfC i := by simp [Node.pfC]
@[simp] theorem modPort_caC (p : HostPort) (f : Port → Port) (n : Node) (i : Nat) : (n.modPort p f).caC i = n.caC i := by simp [Node.caC]
@[simp] theorem modPort_exC (p : HostPort) (f : Port → Port) (n : Node) (i : Nat) : (n.modPort p f).exC i = n.exC i := by simp [Node.exC]
@[simp] theorem modPort_sq (p : HostPort) (f : Port → Port) (n : Node) (i : Nat) : (n.modPort p f).sq i = n.sq i := by simp [Node.sq]
@[simp] theorem modPort_loC (p : HostPort) (f : Port → Port) (n : Node) (i : Nat) : (n.modPort p f).loC i = n.loC i := by simp [Node.loC]
@[simp] theorem modPort_bcOf (p : HostPort) (f : Port → Port) (n : Node) (i : Nat) : (n.modPort p f).bcOf i = n.bcOf i := by simp [Node.bcOf]
@[simp] theorem modPort_hbC (p : HostPort) (f : Port → Port) (n : Node) (i : Nat) : (n.modPort p f).hbC i = n.hbC i := by simp [Node.hbC]
@[simp] theorem modPort_hmC (p : HostPort) (f : Port → Port) (n : Node) (i : Nat) : (n.modPort p f).hmC i = n.hmC i := by simp [Node.hmC]
@[simp] theorem modPort_doC (p : HostPort) (f : Port → Port) (n : Node) (i : Nat) : (n.modPort p f).doC i = n.doC i := by simp [Node.doC]
@[simp] theorem modPort_mbChan (p : HostPort) (f : Port → Port) (n : Node) (i : Nat) : (n.modPort p f).mbChan i = n.mbChan i := by simp [Node.mbChan]
@[simp] theorem modPort_ssC (p : HostPort) (f : Port → Port) (n : Node) (i : Nat) : (n.modPort p f).ssC i = n.ssC i := by simp [Node.ssC]
@[simp] theorem modPort_rg (p : HostPort) (f : Port → Port) (n : Node) (i : Nat) : (n.modPort p f).rg i = n.rg i := by simp [Node.rg]
@[simp] theorem modPort_almP (p : HostPort) (f : Port → Port) (n : Node) (i : Nat) : (n.modPort p f).almP i = n.almP i := by simp [Node.almP]
@[simp] theorem modPort_diC (p : HostPort) (f : Port → Port) (n : Node) (i : Nat) : (n.modPort p f).diC i = n.diC i := by simp [Node.diC]
@[simp] theorem expertTouch_uiC (b : Nat) (n : Node) (i : Nat) : (expertTouch b n).uiC i = n.uiC i := by simp [Node.uiC]
@[simp] theorem expertTouch_lnC (b : Nat) (n : Node) (i : Nat) : (expertTouch b n).lnC i = n.lnC i := by simp [Node.lnC]
@[simp] theorem expertTouch_svC (b : Nat) (n : Node) (i : Nat) : (expertTouch b n).svC i = n.svC i := by simp [Node.svC]
@[simp] theorem expertTouch_poC (b : Nat) (n : Node) (i : Nat) : (expertTouch b n).poC i = n.poC i := by simp [Node.poC]
@[simp] theorem expertTouch_almG (b : Nat) (n : Node) (i : Nat) : (expertTouch b n).almG i = n.almG i := by simp [Node.almG]
@[simp] theorem expertTouch_cmpE (b : Nat) (n : Node) (i : Nat) : (expertTouch b n).cmpE i = n.cmpE i := by simp [Node.cmpE]
@[simp] theorem expertTouch_genC (b : Nat) (n : Node) (i : Nat) : (expertTouch b n).genC i = n.genC i := by simp [Node.genC]
@[simp] theorem expertTouch_mbId (b : Nat) (n : Node) (i : Nat) : (expertTouch b n).mbId i = n.mbId i := by simp [Node.mbId]
@[simp] theorem expertTouch_pfC (b : Nat) (n : Node) (i : Nat) : (expertTouch b n).pfC i = n.pfC i := by simp [Node.pfC]
@[simp] theorem expertTouch_caC (b : Nat) (n : Node) (i : Nat) : (expertTouch b n).caC i = n.caC i := by simp [Node.caC]
@[simp] theorem expertTouch_exC (b : Nat) (n : Node) (i : Nat) : (expertTouch b n).exC i = n.exC i := by simp [Node.exC]
@[simp] theorem expertTouch_sq (b : Nat) (n : Node) (i : Nat) : (expertTouch b n).sq i = n.sq i := by simp [Node.sq]
@[simp] theorem expertTouch_loC (b : Nat) (n : Node) (i : Nat) : (expertTouch b n).loC i = n.loC i := by simp [Node.loC]
@[simp] theorem expertTouch_bcOf (b : Nat) (n : Node) (i : Nat) : (expertTouch b n).bcOf i = n.bcOf i := by simp [Node.bcOf]
@[simp] theorem expertTouch_hbC (b : Nat) (n : Node) (i : Nat) : (expertTouch b n).hbC i = n.hbC i := by simp [Node.hbC]
@[simp] theorem expertTouch_hmC (b : Nat) (n : Node) (i : Nat) : (expertTouch b n).hmC i = n.hmC i := by simp [Node.hmC]
@[simp] theorem expertTouch_doC (b : Nat) (n : Node) (i : Nat) : (expertTouch b n).doC i = n.doC i := by simp [Node.doC]
@[simp] theorem expertTouch_mbChan (b : Nat) (n : Node) (i : Nat) : (expertTouch b n).mbChan i = n.mbChan i := by simp [Node.mbChan]
@[simp] theorem expertTouch_ssC (b : Nat) (n : Node) (i : Nat) : (expertTouch b n).ssC i = n.ssC i := by simp [Node.ssC]
@[simp] theorem expertTouch_rg (b : Nat) (n : Node) (i : Nat) : (expertTouch b n).rg i = n.rg i := by simp [Node.rg]
@[simp] theorem expertTouch_almP (b : Nat) (n : Node) (i : Nat) : (expertTouch b n).almP i = n.almP i := by simp [Node.almP]
@[simp] theorem expertTouch_diC (b : Nat) (n : Node) (i : Nat) : (expertTouch b n).diC i = n.diC i := by simp [Node.diC]

end Sys2Proof.Machine
end

