-- ==== Sys2Proof/Laws/Access.lean ====
section
/-! SUPPORT. Accesses of the host ports, said once: what a write that is carried out and a read that is served leave, and where
each register's write and read go. -/

namespace Sys2Proof.Machine
open Sys2Proof

/-- The module after a write that is carried out: status and effect given. -/
def wrDone (p : HostPort) (a : Nat) (x : Bool) (r : Nat × Mems × Node) : Node :=
  (if x && r.1 == 0 then expertTouch (regBlk a) r.2.2 else r.2.2).modPort p
    (fun q => { q with ans := { status := r.1, addr := a, data := 0#32 } })

theorem takes_up {s : State} {a : Nat} (h : Takes s a) : s.node.up = true := h.1

theorem hostDo_wr {s : State} {a : Nat} {x : Bool} (ha : regAttr a = some ⟨x, .wr⟩) (h : Takes s a) (t : Nat) (p : HostPort) (v : Word) :
    hostDo p (.wr a v) s.mem (s.node.advance t)
      = ((regWrite p a v s.mem (s.node.advance t)).2.1, wrDone p a x (regWrite p a v s.mem (s.node.advance t))) := by
  obtain ⟨_, h2, h3, h4⟩ := h
  have h2' : forwards (s.node.advance t) a = false := h2
  have h3' : (s.node.advance t).isRun (regIsl a true) = true := h3
  have h5 : levelLocked s.node a ⟨x, .wr⟩ = false := by simpa [ha] using h4
  have h4' : levelLocked (s.node.advance t) a ⟨x, .wr⟩ = false := h5
  simp only [hostDo, accDo, writeAccess, ha, h2', h3', h4', writeDo, accAddr, wrDone]
  simp

/-- A write that the plant follows. -/
theorem hostPlant_wr {s : State} {a : Nat} {x : Bool} (ha : regAttr a = some ⟨x, .wr⟩) (h : Takes s a) (t : Nat) (p : HostPort)
    (v : Word) {st : Nat} {m' : Mems} {n' : Node} (hr : regWrite p a v s.mem (s.node.advance t) = (st, m', n')) (hu : n'.up = true) :
    hostPlant t p (.wr a v) s.mem s.node = (m', settle (wrDone p a x (st, m', n'))) := by
  have hw : (wrDone p a x (st, m', n')).up = true := by
    simp only [wrDone]; split <;> simp [hu]
  simp only [hostPlant, plantMem, h.1, hostDo_wr ha h, hr, hw, if_true]

/-- A write that the plant does not follow. -/
theorem hostOp_wr {s : State} {a : Nat} {x : Bool} (ha : regAttr a = some ⟨x, .wr⟩) (h : Takes s a) (p : HostPort)
    (v : Word) {st : Nat} {m' : Mems} {n' : Node} (hr : regWrite p a v s.mem s.node = (st, m', n')) :
    hostOp p (.wr a v) s.mem s.node = (m', wrDone p a x (st, m', n')) := by
  have e : s.node.advance 0 = s.node := by simp [Node.advance]
  have := hostDo_wr ha h 0 p v
  rw [e] at this
  simp only [hostOp, h.1, this, hr, if_true]

/-- A timed write that the plant does not follow. -/
theorem upMem_wr {s : State} {a : Nat} {x : Bool} (ha : regAttr a = some ⟨x, .wr⟩) (h : Takes s a) (t : Nat) (p : HostPort)
    (v : Word) {st : Nat} {m' : Mems} {n' : Node} (hr : regWrite p a v s.mem (s.node.advance t) = (st, m', n')) :
    upMem t (hostDo p (.wr a v)) s.mem s.node = (m', wrDone p a x (st, m', n')) := by
  simp only [upMem, h.1, hostDo_wr ha h, hr, if_true]

/-- A read that is served. -/
theorem hostDo_rd {m : Mems} {n : Node} {a : Nat} {y : RegAttr} (ha : regAttr a = some y) (h : n.isRun (regIsl a false) = true)
    (p : HostPort) {st : Nat} {w : Word} {n' : Node} (hr : regRead p a m n = (st, w, n')) :
    hostDo p (.rd a) m n = (m, n'.modPort p (fun q => { q with ans := { status := st, addr := a, data := w } })) := by
  simp [hostDo, accDo, readAccess, ha, h, hr, accAddr]

theorem hostOp_rd {s : State} {a : Nat} {y : RegAttr} (ha : regAttr a = some y) (h : Serves s a)
    (p : HostPort) {st : Nat} {w : Word} {n' : Node} (hr : regRead p a s.mem s.node = (st, w, n')) :
    hostOp p (.rd a) s.mem s.node = (s.mem, n'.modPort p (fun q => { q with ans := { status := st, addr := a, data := w } })) := by
  simp only [hostOp, h.1, hostDo_rd ha h.2 p hr, if_true]

theorem upMem_rd {s : State} {a : Nat} {y : RegAttr} (ha : regAttr a = some y) (h : Serves s a) (t : Nat)
    (p : HostPort) {st : Nat} {w : Word} {n' : Node} (hr : regRead p a s.mem (s.node.advance t) = (st, w, n')) :
    upMem t (hostDo p (.rd a)) s.mem s.node
      = (s.mem, n'.modPort p (fun q => { q with ans := { status := st, addr := a, data := w } })) := by
  have h2 : (s.node.advance t).isRun (regIsl a false) = true := by simpa using h.2
  simp only [upMem, h.1, hostDo_rd ha h2 p hr, if_true]

@[simp] theorem wrDone_ans (p : HostPort) (a : Nat) (x : Bool) (r : Nat × Mems × Node) :
    ((wrDone p a x r).port p).ans = { status := r.1, addr := a, data := 0#32 } := by simp [wrDone]

@[simp] theorem wrDone_time (p : HostPort) (a : Nat) (x : Bool) (r : Nat × Mems × Node) : (wrDone p a x r).time = r.2.2.time := by
  simp only [wrDone]; split <;> simp
@[simp] theorem wrDone_isl (p : HostPort) (a : Nat) (x : Bool) (r : Nat × Mems × Node) : (wrDone p a x r).isl = r.2.2.isl := by
  simp only [wrDone]; split <;> simp
@[simp] theorem wrDone_jn (p : HostPort) (a : Nat) (x : Bool) (r : Nat × Mems × Node) : (wrDone p a x r).jn = r.2.2.jn := by
  simp only [wrDone]; split <;> simp
@[simp] theorem wrDone_ld (p : HostPort) (a : Nat) (x : Bool) (r : Nat × Mems × Node) : (wrDone p a x r).ld = r.2.2.ld := by
  simp only [wrDone]; split <;> simp
@[simp] theorem wrDone_dev (p : HostPort) (a : Nat) (x : Bool) (r : Nat × Mems × Node) : (wrDone p a x r).dev = r.2.2.dev := by
  simp only [wrDone]; split <;> simp
@[simp] theorem wrDone_spi (p : HostPort) (a : Nat) (x : Bool) (r : Nat × Mems × Node) : (wrDone p a x r).spi = r.2.2.spi := by
  simp only [wrDone]; split <;> simp
@[simp] theorem wrDone_wf (p : HostPort) (a : Nat) (x : Bool) (r : Nat × Mems × Node) : (wrDone p a x r).wf = r.2.2.wf := by
  simp only [wrDone]; split <;> simp
@[simp] theorem wrDone_evt (p : HostPort) (a : Nat) (x : Bool) (r : Nat × Mems × Node) : (wrDone p a x r).evt = r.2.2.evt := by
  simp only [wrDone]; split <;> simp
@[simp] theorem wrDone_mbx (p : HostPort) (a : Nat) (x : Bool) (r : Nat × Mems × Node) : (wrDone p a x r).mbx = r.2.2.mbx := by
  simp only [wrDone]; split <;> simp
@[simp] theorem wrDone_ui (p : HostPort) (a : Nat) (x : Bool) (r : Nat × Mems × Node) : (wrDone p a x r).ui = r.2.2.ui := by
  simp only [wrDone]; split <;> simp
@[simp] theorem wrDone_ex (p : HostPort) (a : Nat) (x : Bool) (r : Nat × Mems × Node) : (wrDone p a x r).ex = r.2.2.ex := by
  simp only [wrDone]; split <;> simp
@[simp] theorem wrDone_cj (p : HostPort) (a : Nat) (x : Bool) (r : Nat × Mems × Node) : (wrDone p a x r).cj = r.2.2.cj := by
  simp only [wrDone]; split <;> simp
@[simp] theorem wrDone_cal (p : HostPort) (a : Nat) (x : Bool) (r : Nat × Mems × Node) : (wrDone p a x r).cal = r.2.2.cal := by
  simp only [wrDone]; split <;> simp
@[simp] theorem wrDone_mw (p : HostPort) (a : Nat) (x : Bool) (r : Nat × Mems × Node) : (wrDone p a x r).mw = r.2.2.mw := by
  simp only [wrDone]; split <;> simp
@[simp] theorem wrDone_ca (p : HostPort) (a : Nat) (x : Bool) (r : Nat × Mems × Node) : (wrDone p a x r).ca = r.2.2.ca := by
  simp only [wrDone]; split <;> simp
@[simp] theorem wrDone_lo (p : HostPort) (a : Nat) (x : Bool) (r : Nat × Mems × Node) : (wrDone p a x r).lo = r.2.2.lo := by
  simp only [wrDone]; split <;> simp
@[simp] theorem wrDone_po (p : HostPort) (a : Nat) (x : Bool) (r : Nat × Mems × Node) : (wrDone p a x r).po = r.2.2.po := by
  simp only [wrDone]; split <;> simp
@[simp] theorem wrDone_hart (p : HostPort) (a : Nat) (x : Bool) (r : Nat × Mems × Node) : (wrDone p a x r).hart = r.2.2.hart := by
  simp only [wrDone]; split <;> simp
@[simp] theorem wrDone_dig (p : HostPort) (a : Nat) (x : Bool) (r : Nat × Mems × Node) : (wrDone p a x r).dig = r.2.2.dig := by
  simp only [wrDone]; split <;> simp
@[simp] theorem wrDone_il (p : HostPort) (a : Nat) (x : Bool) (r : Nat × Mems × Node) : (wrDone p a x r).il = r.2.2.il := by
  simp only [wrDone]; split <;> simp
@[simp] theorem wrDone_shp (p : HostPort) (a : Nat) (x : Bool) (r : Nat × Mems × Node) : (wrDone p a x r).shp = r.2.2.shp := by
  simp only [wrDone]; split <;> simp
@[simp] theorem wrDone_pf (p : HostPort) (a : Nat) (x : Bool) (r : Nat × Mems × Node) : (wrDone p a x r).pf = r.2.2.pf := by
  simp only [wrDone]; split <;> simp
@[simp] theorem wrDone_cmp (p : HostPort) (a : Nat) (x : Bool) (r : Nat × Mems × Node) : (wrDone p a x r).cmp = r.2.2.cmp := by
  simp only [wrDone]; split <;> simp
@[simp] theorem wrDone_ln (p : HostPort) (a : Nat) (x : Bool) (r : Nat × Mems × Node) : (wrDone p a x r).ln = r.2.2.ln := by
  simp only [wrDone]; split <;> simp
@[simp] theorem wrDone_gen (p : HostPort) (a : Nat) (x : Bool) (r : Nat × Mems × Node) : (wrDone p a x r).gen = r.2.2.gen := by
  simp only [wrDone]; split <;> simp
@[simp] theorem wrDone_alm (p : HostPort) (a : Nat) (x : Bool) (r : Nat × Mems × Node) : (wrDone p a x r).alm = r.2.2.alm := by
  simp only [wrDone]; split <;> simp
@[simp] theorem wrDone_seq (p : HostPort) (a : Nat) (x : Bool) (r : Nat × Mems × Node) : (wrDone p a x r).seq = r.2.2.seq := by
  simp only [wrDone]; split <;> simp
@[simp] theorem wrDone_dsp (p : HostPort) (a : Nat) (x : Bool) (r : Nat × Mems × Node) : (wrDone p a x r).dsp = r.2.2.dsp := by
  simp only [wrDone]; split <;> simp
@[simp] theorem wrDone_clk (p : HostPort) (a : Nat) (x : Bool) (r : Nat × Mems × Node) : (wrDone p a x r).clk = r.2.2.clk := by
  simp only [wrDone]; split <;> simp
@[simp] theorem wrDone_mram (p : HostPort) (a : Nat) (x : Bool) (r : Nat × Mems × Node) : (wrDone p a x r).mram = r.2.2.mram := by
  simp only [wrDone]; split <;> simp
@[simp] theorem wrDone_rcd (p : HostPort) (a : Nat) (x : Bool) (r : Nat × Mems × Node) : (wrDone p a x r).rcd = r.2.2.rcd := by
  simp only [wrDone]; split <;> simp
@[simp] theorem wrDone_dup (p : HostPort) (a : Nat) (x : Bool) (r : Nat × Mems × Node) : (wrDone p a x r).dup = r.2.2.dup := by
  simp only [wrDone]; split <;> simp
@[simp] theorem wrDone_mir (p : HostPort) (a : Nat) (x : Bool) (r : Nat × Mems × Node) : (wrDone p a x r).mir = r.2.2.mir := by
  simp only [wrDone]; split <;> simp
@[simp] theorem wrDone_net (p : HostPort) (a : Nat) (x : Bool) (r : Nat × Mems × Node) : (wrDone p a x r).net = r.2.2.net := by
  simp only [wrDone]; split <;> simp
@[simp] theorem wrDone_dtr (p : HostPort) (a : Nat) (x : Bool) (r : Nat × Mems × Node) : (wrDone p a x r).dtr = r.2.2.dtr := by
  simp only [wrDone]; split <;> simp
@[simp] theorem wrDone_fwActs (p : HostPort) (a : Nat) (x : Bool) (r : Nat × Mems × Node) : (wrDone p a x r).fwActs = r.2.2.fwActs := by
  simp only [wrDone]; split <;> simp
@[simp] theorem wrDone_tx (p : HostPort) (a : Nat) (x : Bool) (r : Nat × Mems × Node) : (wrDone p a x r).tx = r.2.2.tx := by
  simp only [wrDone]; split <;> simp
@[simp] theorem wrDone_free (p : HostPort) (a : Nat) (x : Bool) (r : Nat × Mems × Node) : (wrDone p a x r).free = r.2.2.free := by
  simp only [wrDone]; split <;> simp
@[simp] theorem wrDone_up (p : HostPort) (a : Nat) (x : Bool) (r : Nat × Mems × Node) : (wrDone p a x r).up = r.2.2.up := by
  simp [Node.up]
@[simp] theorem wrDone_running (p : HostPort) (a : Nat) (x : Bool) (r : Nat × Mems × Node) : (wrDone p a x r).running = r.2.2.running := by
  simp [Node.running]
@[simp] theorem wrDone_acq (p : HostPort) (a : Nat) (x : Bool) (r : Nat × Mems × Node) : (wrDone p a x r).acq = r.2.2.acq := by
  simp [Node.acq, Node.running]

/-! ### From an access to the answer of its command -/

/-- A write carried out, followed by the plant. -/
theorem ends_hostPlant {s : State} {a : Nat} {x : Bool} (ha : regAttr a = some ⟨x, .wr⟩) (h : Takes s a) (t : Nat) (p : HostPort)
    (v : Word) {st : Nat} {m' : Mems} {n' : Node} (hr : regWrite p a v s.mem (s.node.advance t) = (st, m', n')) (hu : n'.up = true)
    {P : State → Prop} (hP : P { s with mem := m', node := settle (wrDone p a x (st, m', n')) }) :
    Ends (onBoth (hostPlant t p (.wr a v)) s) P := by
  refine ⟨_, rfl, ?_⟩
  simp only [hostPlant_wr ha h t p v hr hu]
  exact hP

/-- A write carried out, not followed by the plant. -/
theorem ends_hostOp {s : State} {a : Nat} {x : Bool} (ha : regAttr a = some ⟨x, .wr⟩) (h : Takes s a) (p : HostPort)
    (v : Word) {st : Nat} {m' : Mems} {n' : Node} (hr : regWrite p a v s.mem s.node = (st, m', n'))
    {P : State → Prop} (hP : P { s with mem := m', node := wrDone p a x (st, m', n') }) :
    Ends (onBoth (hostOp p (.wr a v)) s) P := by
  refine ⟨_, rfl, ?_⟩
  simp only [hostOp_wr ha h p v hr]
  exact hP

/-- A read served. -/
theorem ends_hostRead {s : State} {a : Nat} {y : RegAttr} (ha : regAttr a = some y) (h : Serves s a)
    (p : HostPort) {st : Nat} {w : Word} {n' : Node} (hr : regRead p a s.mem s.node = (st, w, n'))
    {P : State → Prop} (hP : P { s with node := n'.modPort p (fun q => { q with ans := { status := st, addr := a, data := w } }) }) :
    Ends (onBoth (hostOp p (.rd a)) s) P := by
  refine ⟨_, rfl, ?_⟩
  simp only [hostOp_rd ha h p hr]
  exact hP

/-- A happening of the module, followed by the plant. -/
theorem ends_plantAt {s : State} (h : s.node.up = true) (t : Nat) (f : Node → Node) {P : State → Prop}
    (hP : P { s with node := settle (f (s.node.advance t)) }) : Ends (onNode (plantAt t f) s) P := by
  refine ⟨_, rfl, ?_⟩
  simp only [plantAt_up t f s.node h]
  exact hP

theorem ends_plantOp {s : State} (h : s.node.up = true) (f : Node → Node) {P : State → Prop}
    (hP : P { s with node := settle (f s.node) }) : Ends (onNode (plantOp f) s) P := by
  refine ⟨_, rfl, ?_⟩
  simp only [plantOp_up f s.node h]
  exact hP

theorem ends_upAt {s : State} (h : s.node.up = true) (t : Nat) (f : Node → Node) {P : State → Prop}
    (hP : P { s with node := f (s.node.advance t) }) : Ends (onNode (upAt t f) s) P := by
  refine ⟨_, rfl, ?_⟩
  simp only [upAt, h, if_true]
  exact hP

/-- One that reaches a byte memory. -/
theorem ends_plantMem {s : State} (h : s.node.up = true) (t : Nat) (f : Mems → Node → Mems × Node) {m' : Mems} {n' : Node}
    (hf : f s.mem (s.node.advance t) = (m', n')) (hu : n'.up = true) {P : State → Prop}
    (hP : P { s with mem := m', node := settle n' }) : Ends (onBoth (plantMem t f) s) P := by
  refine ⟨_, rfl, ?_⟩
  simp only [plantMem, h, hf, hu, if_true]
  exact hP

theorem regWrite_stgAddr (p : HostPort) (v : Word) (m : Mems) (n : Node) : regWrite p 0x0840 v m n = (0, m, stgAddrWrite v n) := rfl
theorem regWrite_stgData (p : HostPort) (v : Word) (m : Mems) (n : Node) : regWrite p 0x0844 v m n = (0, (stgDataWrite v m n).1, (stgDataWrite v m n).2) := rfl
theorem regWrite_rmCtrl (p : HostPort) (v : Word) (m : Mems) (n : Node) : regWrite p 0x0804 v m n
  = (0, (rmCtrl (fld v 31 16) (fld v 3 0) m n).1, (rmCtrl (fld v 31 16) (fld v 3 0) m n).2) := rfl
theorem regWrite_liveData (p : HostPort) (v : Word) (m : Mems) (n : Node) : regWrite p 0x0854 v m n = (0, (liveDataWrite v m n).1, (liveDataWrite v m n).2) := rfl
theorem regWrite_liveCtrl (p : HostPort) (v : Word) (m : Mems) (n : Node) : regWrite p 0x0858 v m n = (0, (liveCtrl v m n).1, (liveCtrl v m n).2) := rfl
theorem regRead_stgData (p : HostPort) (m : Mems) (n : Node) : regRead p 0x0844 m n = (0, (stgDataRead m n).1, (stgDataRead m n).2) := rfl

/-- Words of the keyed commands. -/
theorem fld_keyed_key (key : BitVec 16) (c : Nat) (h : c < 65536) : fld (keyed key c) 31 16 = key.toNat := by
  have := key.isLt
  simp [fld, keyed, wd]; omega
theorem fld_keyed_cmd (key : BitVec 16) (c : Nat) (h : c < 16) : fld (keyed key c) 3 0 = c := by
  have := key.isLt
  simp [fld, keyed, wd]; omega

end Sys2Proof.Machine
end

