-- ==== Sys2Proof/Laws/Bits.lean ====
section
/-! SUPPORT. Single bits of words. -/

namespace Sys2Proof.Machine
open Sys2Proof

theorem bitOf_setBitW (v : Word) (i j : Nat) (b : Bool) (hi : i < 32) :
    bitOf (setBitW v i b) j = if j = i then b else bitOf v j := by
  have h : (oneHot i).getLsbD j = decide (j = i) := by
    simp only [oneHot, BitVec.getLsbD_ofNat, Nat.testBit_two_pow]
    by_cases hj : j = i
    · subst hj; simp [hi]
    · have : ¬ i = j := fun h => hj h.symm
      simp [this, hj]
  unfold bitOf setBitW
  by_cases hj : j = i
  · subst hj
    cases b <;> simp [BitVec.getLsbD_or, BitVec.getLsbD_and, BitVec.getLsbD_not, h]
  · cases b <;> simp [BitVec.getLsbD_or, BitVec.getLsbD_and, BitVec.getLsbD_not, h, hj]
    intro hv
    exact BitVec.lt_of_getLsbD hv
end Sys2Proof.Machine
end

