-- ==== Sys2Proof/Laws/Updates.lean ====
section
/-! SUPPORT. What an update of some fields of the module leaves: every part (`Part.get`) but those of the fields named. -/

namespace Sys2Proof.Machine
open Sys2Proof

theorem get_upd_alm {x : Part} (n : Node) (v0 : Alarms)
    (h0 : (x ≠ .alm ∨ { v0 with alfDue := [] } = { n.alm with alfDue := [] })) (h1 : (x ≠ .almDue ∨ v0.alfDue = n.alm.alfDue)) :
    Part.get { n with alm := v0 } x = Part.get n x := by
  cases x <;> first | rfl | exact h0.resolve_left (fun h => h rfl) | exact h1.resolve_left (fun h => h rfl)

theorem get_upd_blk {x : Part} (n : Node) (v0 : Table BlkCtl)
    (h0 : x ≠ .blk) :
    Part.get { n with blk := v0 } x = Part.get n x := by
  cases x <;> first | rfl | exact absurd rfl h0

theorem get_upd_ca {x : Part} (n : Node) (v0 : Table CaChan)
    (h0 : x ≠ .ca) :
    Part.get { n with ca := v0 } x = Part.get n x := by
  cases x <;> first | rfl | exact absurd rfl h0

theorem get_upd_cal {x : Part} (n : Node) (v0 : Calib)
    (h0 : x ≠ .cal) :
    Part.get { n with cal := v0 } x = Part.get n x := by
  cases x <;> first | rfl | exact absurd rfl h0

theorem get_upd_cj {x : Part} (n : Node) (v0 : Table CjChan)
    (h0 : x ≠ .cj) :
    Part.get { n with cj := v0 } x = Part.get n x := by
  cases x <;> first | rfl | exact absurd rfl h0

theorem get_upd_ckpt {x : Part} (n : Node) (v0 : Table Ckpt)
    (h0 : x ≠ .ckpt) :
    Part.get { n with ckpt := v0 } x = Part.get n x := by
  cases x <;> first | rfl | exact absurd rfl h0

theorem get_upd_clk {x : Part} (n : Node) (v0 : Clock)
    (h0 : x ≠ .clk) :
    Part.get { n with clk := v0 } x = Part.get n x := by
  cases x <;> first | rfl | exact absurd rfl h0

theorem get_upd_cmp {x : Part} (n : Node) (v0 : Compare)
    (h0 : x ≠ .cmp) :
    Part.get { n with cmp := v0 } x = Part.get n x := by
  cases x <;> first | rfl | exact absurd rfl h0

theorem get_upd_dev {x : Part} (n : Node) (v0 : Device)
    (h0 : (x ≠ .devRest ∨ { v0 with st := DevSt.off, prev := DevSt.off, stateTick := 0#32 } = { n.dev with st := DevSt.off, prev := DevSt.off, stateTick := 0#32 })) (h1 : (x ≠ .devState ∨ (v0.st, v0.prev, v0.stateTick) = (n.dev.st, n.dev.prev, n.dev.stateTick))) :
    Part.get { n with dev := v0 } x = Part.get n x := by
  cases x <;> first | rfl | exact h0.resolve_left (fun h => h rfl) | exact h1.resolve_left (fun h => h rfl)

theorem get_upd_dig {x : Part} (n : Node) (v0 : Digital)
    (h0 : (x ≠ .digIn ∨ (v0.di, v0.ss, v0.ot, v0.pins, v0.fpMv) = (n.dig.di, n.dig.ss, n.dig.ot, n.dig.pins, n.dig.fpMv))) (h1 : (x ≠ .digOut ∨ (v0.dout, v0.diSeen, v0.doSeen, v0.diDirty, v0.doDirty, v0.driving) = (n.dig.dout, n.dig.diSeen, n.dig.doSeen, n.dig.diDirty, n.dig.doDirty, n.dig.driving))) :
    Part.get { n with dig := v0 } x = Part.get n x := by
  cases x <;> first | rfl | exact h0.resolve_left (fun h => h rfl) | exact h1.resolve_left (fun h => h rfl)

theorem get_upd_dsp {x : Part} (n : Node) (v0 : Disp)
    (h0 : x ≠ .dsp) :
    Part.get { n with dsp := v0 } x = Part.get n x := by
  cases x <;> first | rfl | exact absurd rfl h0

theorem get_upd_dtr {x : Part} (n : Node) (v0 : Detours)
    (h0 : x ≠ .dtr) :
    Part.get { n with dtr := v0 } x = Part.get n x := by
  cases x <;> first | rfl | exact absurd rfl h0

theorem get_upd_dup {x : Part} (n : Node) (v0 : Duplex)
    (h0 : (x ≠ .dup ∨ { v0 with sent := [], cleanAt := 0 } = { n.dup with sent := [], cleanAt := 0 })) (h1 : (x ≠ .dupSent ∨ (v0.sent, v0.cleanAt) = (n.dup.sent, n.dup.cleanAt))) :
    Part.get { n with dup := v0 } x = Part.get n x := by
  cases x <;> first | rfl | exact h0.resolve_left (fun h => h rfl) | exact h1.resolve_left (fun h => h rfl)

theorem get_upd_evt {x : Part} (n : Node) (v0 : Events)
    (h0 : x ≠ .evt) :
    Part.get { n with evt := v0 } x = Part.get n x := by
  cases x <;> first | rfl | exact absurd rfl h0

theorem get_upd_ex {x : Part} (n : Node) (v0 : Table ExChan)
    (h0 : x ≠ .ex) :
    Part.get { n with ex := v0 } x = Part.get n x := by
  cases x <;> first | rfl | exact absurd rfl h0

theorem get_upd_free {x : Part} (n : Node) (v0 : Nat)
    (h0 : x ≠ .free) :
    Part.get { n with free := v0 } x = Part.get n x := by
  cases x <;> first | rfl | exact absurd rfl h0

theorem get_upd_fwActs {x : Part} (n : Node) (v0 : Nat)
    (h0 : x ≠ .fwActs) :
    Part.get { n with fwActs := v0 } x = Part.get n x := by
  cases x <;> first | rfl | exact absurd rfl h0

theorem get_upd_gen {x : Part} (n : Node) (v0 : Table LnGen)
    (h0 : x ≠ .gen) :
    Part.get { n with gen := v0 } x = Part.get n x := by
  cases x <;> first | rfl | exact absurd rfl h0

theorem get_upd_hart {x : Part} (n : Node) (v0 : Table HartM)
    (h0 : x ≠ .hart) :
    Part.get { n with hart := v0 } x = Part.get n x := by
  cases x <;> first | rfl | exact absurd rfl h0

theorem get_upd_il {x : Part} (n : Node) (v0 : Interlock)
    (h0 : (x ≠ .il ∨ { v0 with refused := 0#32 } = { n.il with refused := 0#32 })) (h1 : (x ≠ .ilRefused ∨ v0.refused = n.il.refused)) :
    Part.get { n with il := v0 } x = Part.get n x := by
  cases x <;> first | rfl | exact h0.resolve_left (fun h => h rfl) | exact h1.resolve_left (fun h => h rfl)

theorem get_upd_isl {x : Part} (n : Node) (v0 : Islands)
    (h0 : x ≠ .isl) :
    Part.get { n with isl := v0 } x = Part.get n x := by
  cases x <;> first | rfl | exact absurd rfl h0

theorem get_upd_jn {x : Part} (n : Node) (v0 : Junction)
    (h0 : (x ≠ .store ∨ v0.store = n.jn.store)) (h1 : (x ≠ .slots ∨ (v0.slots, v0.seqs, v0.overrun, v0.ovrLast, v0.maxDepth, v0.cycle) = (n.jn.slots, n.jn.seqs, n.jn.overrun, n.jn.ovrLast, n.jn.maxDepth, n.jn.cycle))) :
    Part.get { n with jn := v0 } x = Part.get n x := by
  cases x <;> first | rfl | exact h0.resolve_left (fun h => h rfl) | exact h1.resolve_left (fun h => h rfl)

theorem get_upd_ld {x : Part} (n : Node) (v0 : Loader)
    (h0 : x ≠ .ld) :
    Part.get { n with ld := v0 } x = Part.get n x := by
  cases x <;> first | rfl | exact absurd rfl h0

theorem get_upd_ln {x : Part} (n : Node) (v0 : Table Lane)
    (h0 : x ≠ .ln) :
    Part.get { n with ln := v0 } x = Part.get n x := by
  cases x <;> first | rfl | exact absurd rfl h0

theorem get_upd_lo {x : Part} (n : Node) (v0 : Table LoChan)
    (h0 : x ≠ .lo) :
    Part.get { n with lo := v0 } x = Part.get n x := by
  cases x <;> first | rfl | exact absurd rfl h0

theorem get_upd_mbx {x : Part} (n : Node) (v0 : Mailbox)
    (h0 : x ≠ .mbx) :
    Part.get { n with mbx := v0 } x = Part.get n x := by
  cases x <;> first | rfl | exact absurd rfl h0

theorem get_upd_mir {x : Part} (n : Node) (v0 : Mirrored)
    (h0 : x ≠ .mir) :
    Part.get { n with mir := v0 } x = Part.get n x := by
  cases x <;> first | rfl | exact absurd rfl h0

theorem get_upd_mram {x : Part} (n : Node) (v0 : Mram)
    (h0 : x ≠ .mram) :
    Part.get { n with mram := v0 } x = Part.get n x := by
  cases x <;> first | rfl | exact absurd rfl h0

theorem get_upd_mw {x : Part} (n : Node) (v0 : Miswire)
    (h0 : x ≠ .mw) :
    Part.get { n with mw := v0 } x = Part.get n x := by
  cases x <;> first | rfl | exact absurd rfl h0

theorem get_upd_net {x : Part} (n : Node) (v0 : Net)
    (h0 : (x ≠ .net ∨ { v0 with alerts := [], revs := [], alertAt := [], callSeen := [], line := 0 } = { n.net with alerts := [], revs := [], alertAt := [], callSeen := [], line := 0 })) (h1 : (x ≠ .netAlerts ∨ (v0.alerts, v0.revs, v0.alertAt, v0.callSeen, v0.line) = (n.net.alerts, n.net.revs, n.net.alertAt, n.net.callSeen, n.net.line))) :
    Part.get { n with net := v0 } x = Part.get n x := by
  cases x <;> first | rfl | exact h0.resolve_left (fun h => h rfl) | exact h1.resolve_left (fun h => h rfl)

theorem get_upd_pf {x : Part} (n : Node) (v0 : Table PfChan)
    (h0 : x ≠ .pf) :
    Part.get { n with pf := v0 } x = Part.get n x := by
  cases x <;> first | rfl | exact absurd rfl h0

theorem get_upd_po {x : Part} (n : Node) (v0 : Table PoChan)
    (h0 : x ≠ .po) :
    Part.get { n with po := v0 } x = Part.get n x := by
  cases x <;> first | rfl | exact absurd rfl h0

theorem get_upd_rcd {x : Part} (n : Node) (v0 : Recorder)
    (h0 : x ≠ .rcd) :
    Part.get { n with rcd := v0 } x = Part.get n x := by
  cases x <;> first | rfl | exact absurd rfl h0

theorem get_upd_seq {x : Part} (n : Node) (v0 : Sequencer)
    (h0 : x ≠ .seq) :
    Part.get { n with seq := v0 } x = Part.get n x := by
  cases x <;> first | rfl | exact absurd rfl h0

theorem get_upd_shp {x : Part} (n : Node) (v0 : Shaped)
    (h0 : x ≠ .shp) :
    Part.get { n with shp := v0 } x = Part.get n x := by
  cases x <;> first | rfl | exact absurd rfl h0

theorem get_upd_spi {x : Part} (n : Node) (v0 : Spi)
    (h0 : x ≠ .spi) :
    Part.get { n with spi := v0 } x = Part.get n x := by
  cases x <;> first | rfl | exact absurd rfl h0

theorem get_upd_time {x : Part} (n : Node) (v0 : TimeBase)
    (h0 : (x ≠ .devtime ∨ v0.devtime = n.time.devtime)) (h1 : (x ≠ .ticks ∨ (v0.lastScan, v0.lastFine) = (n.time.lastScan, n.time.lastFine))) :
    Part.get { n with time := v0 } x = Part.get n x := by
  cases x <;> first | rfl | exact h0.resolve_left (fun h => h rfl) | exact h1.resolve_left (fun h => h rfl)

theorem get_upd_tx {x : Part} (n : Node) (v0 : List TxFrame)
    (h0 : x ≠ .tx) :
    Part.get { n with tx := v0 } x = Part.get n x := by
  cases x <;> first | rfl | exact absurd rfl h0

theorem get_upd_ui {x : Part} (n : Node) (v0 : Table UiChan)
    (h0 : x ≠ .ui) :
    Part.get { n with ui := v0 } x = Part.get n x := by
  cases x <;> first | rfl | exact absurd rfl h0

theorem get_upd_wf {x : Part} (n : Node) (v0 : List Session)
    (h0 : x ≠ .wf) :
    Part.get { n with wf := v0 } x = Part.get n x := by
  cases x <;> first | rfl | exact absurd rfl h0

theorem get_upd_dev_rcd {x : Part} (n : Node) (v0 : Device) (v1 : Recorder)
    (h0 : (x ≠ .devRest ∨ { v0 with st := DevSt.off, prev := DevSt.off, stateTick := 0#32 } = { n.dev with st := DevSt.off, prev := DevSt.off, stateTick := 0#32 })) (h1 : (x ≠ .devState ∨ (v0.st, v0.prev, v0.stateTick) = (n.dev.st, n.dev.prev, n.dev.stateTick))) (h2 : x ≠ .rcd) :
    Part.get { n with dev := v0, rcd := v1 } x = Part.get n x := by
  cases x <;> first | rfl | exact h0.resolve_left (fun h => h rfl) | exact h1.resolve_left (fun h => h rfl) | exact absurd rfl h2

theorem get_upd_dup_dtr {x : Part} (n : Node) (v0 : Duplex) (v1 : Detours)
    (h0 : (x ≠ .dup ∨ { v0 with sent := [], cleanAt := 0 } = { n.dup with sent := [], cleanAt := 0 })) (h1 : (x ≠ .dupSent ∨ (v0.sent, v0.cleanAt) = (n.dup.sent, n.dup.cleanAt))) (h2 : x ≠ .dtr) :
    Part.get { n with dup := v0, dtr := v1 } x = Part.get n x := by
  cases x <;> first | rfl | exact h0.resolve_left (fun h => h rfl) | exact h1.resolve_left (fun h => h rfl) | exact absurd rfl h2

theorem get_upd_ex_cj {x : Part} (n : Node) (v0 : Table ExChan) (v1 : Table CjChan)
    (h0 : x ≠ .ex) (h1 : x ≠ .cj) :
    Part.get { n with ex := v0, cj := v1 } x = Part.get n x := by
  cases x <;> first | rfl | exact absurd rfl h0 | exact absurd rfl h1

theorem get_upd_isl_dup {x : Part} (n : Node) (v0 : Islands) (v1 : Duplex)
    (h0 : x ≠ .isl) (h1 : (x ≠ .dup ∨ { v1 with sent := [], cleanAt := 0 } = { n.dup with sent := [], cleanAt := 0 })) (h2 : (x ≠ .dupSent ∨ (v1.sent, v1.cleanAt) = (n.dup.sent, n.dup.cleanAt))) :
    Part.get { n with isl := v0, dup := v1 } x = Part.get n x := by
  cases x <;> first | rfl | exact absurd rfl h0 | exact h1.resolve_left (fun h => h rfl) | exact h2.resolve_left (fun h => h rfl)

theorem get_upd_jn_dup {x : Part} (n : Node) (v0 : Junction) (v1 : Duplex)
    (h0 : (x ≠ .store ∨ v0.store = n.jn.store)) (h1 : (x ≠ .slots ∨ (v0.slots, v0.seqs, v0.overrun, v0.ovrLast, v0.maxDepth, v0.cycle) = (n.jn.slots, n.jn.seqs, n.jn.overrun, n.jn.ovrLast, n.jn.maxDepth, n.jn.cycle))) (h2 : (x ≠ .dup ∨ { v1 with sent := [], cleanAt := 0 } = { n.dup with sent := [], cleanAt := 0 })) (h3 : (x ≠ .dupSent ∨ (v1.sent, v1.cleanAt) = (n.dup.sent, n.dup.cleanAt))) :
    Part.get { n with jn := v0, dup := v1 } x = Part.get n x := by
  cases x <;> first | rfl | exact h0.resolve_left (fun h => h rfl) | exact h1.resolve_left (fun h => h rfl) | exact h2.resolve_left (fun h => h rfl) | exact h3.resolve_left (fun h => h rfl)

theorem get_upd_ld_dev {x : Part} (n : Node) (v0 : Loader) (v1 : Device)
    (h0 : x ≠ .ld) (h1 : (x ≠ .devRest ∨ { v1 with st := DevSt.off, prev := DevSt.off, stateTick := 0#32 } = { n.dev with st := DevSt.off, prev := DevSt.off, stateTick := 0#32 })) (h2 : (x ≠ .devState ∨ (v1.st, v1.prev, v1.stateTick) = (n.dev.st, n.dev.prev, n.dev.stateTick))) :
    Part.get { n with ld := v0, dev := v1 } x = Part.get n x := by
  cases x <;> first | rfl | exact absurd rfl h0 | exact h1.resolve_left (fun h => h rfl) | exact h2.resolve_left (fun h => h rfl)

theorem get_upd_ld_dup {x : Part} (n : Node) (v0 : Loader) (v1 : Duplex)
    (h0 : x ≠ .ld) (h1 : (x ≠ .dup ∨ { v1 with sent := [], cleanAt := 0 } = { n.dup with sent := [], cleanAt := 0 })) (h2 : (x ≠ .dupSent ∨ (v1.sent, v1.cleanAt) = (n.dup.sent, n.dup.cleanAt))) :
    Part.get { n with ld := v0, dup := v1 } x = Part.get n x := by
  cases x <;> first | rfl | exact absurd rfl h0 | exact h1.resolve_left (fun h => h rfl) | exact h2.resolve_left (fun h => h rfl)

theorem get_upd_ld_free {x : Part} (n : Node) (v0 : Loader) (v1 : Nat)
    (h0 : x ≠ .ld) (h1 : x ≠ .free) :
    Part.get { n with ld := v0, free := v1 } x = Part.get n x := by
  cases x <;> first | rfl | exact absurd rfl h0 | exact absurd rfl h1

theorem get_upd_ln_gen {x : Part} (n : Node) (v0 : Table Lane) (v1 : Table LnGen)
    (h0 : x ≠ .ln) (h1 : x ≠ .gen) :
    Part.get { n with ln := v0, gen := v1 } x = Part.get n x := by
  cases x <;> first | rfl | exact absurd rfl h0 | exact absurd rfl h1

theorem get_upd_mram_rcd {x : Part} (n : Node) (v0 : Mram) (v1 : Recorder)
    (h0 : x ≠ .mram) (h1 : x ≠ .rcd) :
    Part.get { n with mram := v0, rcd := v1 } x = Part.get n x := by
  cases x <;> first | rfl | exact absurd rfl h0 | exact absurd rfl h1

theorem get_upd_wf_net {x : Part} (n : Node) (v0 : List Session) (v1 : Net)
    (h0 : x ≠ .wf) (h1 : (x ≠ .net ∨ { v1 with alerts := [], revs := [], alertAt := [], callSeen := [], line := 0 } = { n.net with alerts := [], revs := [], alertAt := [], callSeen := [], line := 0 })) (h2 : (x ≠ .netAlerts ∨ (v1.alerts, v1.revs, v1.alertAt, v1.callSeen, v1.line) = (n.net.alerts, n.net.revs, n.net.alertAt, n.net.callSeen, n.net.line))) :
    Part.get { n with wf := v0, net := v1 } x = Part.get n x := by
  cases x <;> first | rfl | exact absurd rfl h0 | exact h1.resolve_left (fun h => h rfl) | exact h2.resolve_left (fun h => h rfl)

theorem get_upd_evt_rcd_dup {x : Part} (n : Node) (v0 : Events) (v1 : Recorder) (v2 : Duplex)
    (h0 : x ≠ .evt) (h1 : x ≠ .rcd) (h2 : (x ≠ .dup ∨ { v2 with sent := [], cleanAt := 0 } = { n.dup with sent := [], cleanAt := 0 })) (h3 : (x ≠ .dupSent ∨ (v2.sent, v2.cleanAt) = (n.dup.sent, n.dup.cleanAt))) :
    Part.get { n with evt := v0, rcd := v1, dup := v2 } x = Part.get n x := by
  cases x <;> first | rfl | exact absurd rfl h0 | exact absurd rfl h1 | exact h2.resolve_left (fun h => h rfl) | exact h3.resolve_left (fun h => h rfl)

theorem get_upd_il_ln_dup {x : Part} (n : Node) (v0 : Interlock) (v1 : Table Lane) (v2 : Duplex)
    (h0 : (x ≠ .il ∨ { v0 with refused := 0#32 } = { n.il with refused := 0#32 })) (h1 : (x ≠ .ilRefused ∨ v0.refused = n.il.refused)) (h2 : x ≠ .ln) (h3 : (x ≠ .dup ∨ { v2 with sent := [], cleanAt := 0 } = { n.dup with sent := [], cleanAt := 0 })) (h4 : (x ≠ .dupSent ∨ (v2.sent, v2.cleanAt) = (n.dup.sent, n.dup.cleanAt))) :
    Part.get { n with il := v0, ln := v1, dup := v2 } x = Part.get n x := by
  cases x <;> first | rfl | exact h0.resolve_left (fun h => h rfl) | exact h1.resolve_left (fun h => h rfl) | exact absurd rfl h2 | exact h3.resolve_left (fun h => h rfl) | exact h4.resolve_left (fun h => h rfl)

theorem get_upd_isl_ckpt_dtr {x : Part} (n : Node) (v0 : Islands) (v1 : Table Ckpt) (v2 : Detours)
    (h0 : x ≠ .isl) (h1 : x ≠ .ckpt) (h2 : x ≠ .dtr) :
    Part.get { n with isl := v0, ckpt := v1, dtr := v2 } x = Part.get n x := by
  cases x <;> first | rfl | exact absurd rfl h0 | exact absurd rfl h1 | exact absurd rfl h2

theorem get_upd_wf_mram_net {x : Part} (n : Node) (v0 : List Session) (v1 : Mram) (v2 : Net)
    (h0 : x ≠ .wf) (h1 : x ≠ .mram) (h2 : (x ≠ .net ∨ { v2 with alerts := [], revs := [], alertAt := [], callSeen := [], line := 0 } = { n.net with alerts := [], revs := [], alertAt := [], callSeen := [], line := 0 })) (h3 : (x ≠ .netAlerts ∨ (v2.alerts, v2.revs, v2.alertAt, v2.callSeen, v2.line) = (n.net.alerts, n.net.revs, n.net.alertAt, n.net.callSeen, n.net.line))) :
    Part.get { n with wf := v0, mram := v1, net := v2 } x = Part.get n x := by
  cases x <;> first | rfl | exact absurd rfl h0 | exact absurd rfl h1 | exact h2.resolve_left (fun h => h rfl) | exact h3.resolve_left (fun h => h rfl)

theorem get_upd_evt_rcd_dup_tx {x : Part} (n : Node) (v0 : Events) (v1 : Recorder) (v2 : Duplex) (v3 : List TxFrame)
    (h0 : x ≠ .evt) (h1 : x ≠ .rcd) (h2 : (x ≠ .dup ∨ { v2 with sent := [], cleanAt := 0 } = { n.dup with sent := [], cleanAt := 0 })) (h3 : (x ≠ .dupSent ∨ (v2.sent, v2.cleanAt) = (n.dup.sent, n.dup.cleanAt))) (h4 : x ≠ .tx) :
    Part.get { n with evt := v0, rcd := v1, dup := v2, tx := v3 } x = Part.get n x := by
  cases x <;> first | rfl | exact absurd rfl h0 | exact absurd rfl h1 | exact h2.resolve_left (fun h => h rfl) | exact h3.resolve_left (fun h => h rfl) | exact absurd rfl h4

theorem get_upd_lo_po_dig_dup {x : Part} (n : Node) (v0 : Table LoChan) (v1 : Table PoChan) (v2 : Digital) (v3 : Duplex)
    (h0 : x ≠ .lo) (h1 : x ≠ .po) (h2 : (x ≠ .digIn ∨ (v2.di, v2.ss, v2.ot, v2.pins, v2.fpMv) = (n.dig.di, n.dig.ss, n.dig.ot, n.dig.pins, n.dig.fpMv))) (h3 : (x ≠ .digOut ∨ (v2.dout, v2.diSeen, v2.doSeen, v2.diDirty, v2.doDirty, v2.driving) = (n.dig.dout, n.dig.diSeen, n.dig.doSeen, n.dig.diDirty, n.dig.doDirty, n.dig.driving))) (h4 : (x ≠ .dup ∨ { v3 with sent := [], cleanAt := 0 } = { n.dup with sent := [], cleanAt := 0 })) (h5 : (x ≠ .dupSent ∨ (v3.sent, v3.cleanAt) = (n.dup.sent, n.dup.cleanAt))) :
    Part.get { n with lo := v0, po := v1, dig := v2, dup := v3 } x = Part.get n x := by
  cases x <;> first | rfl | exact absurd rfl h0 | exact absurd rfl h1 | exact h2.resolve_left (fun h => h rfl) | exact h3.resolve_left (fun h => h rfl) | exact h4.resolve_left (fun h => h rfl) | exact h5.resolve_left (fun h => h rfl)

theorem get_upd_isl_jn_ld_mir_ckpt {x : Part} (n : Node) (v0 : Islands) (v1 : Junction) (v2 : Loader) (v3 : Mirrored) (v4 : Table Ckpt)
    (h0 : x ≠ .isl) (h1 : (x ≠ .store ∨ v1.store = n.jn.store)) (h2 : (x ≠ .slots ∨ (v1.slots, v1.seqs, v1.overrun, v1.ovrLast, v1.maxDepth, v1.cycle) = (n.jn.slots, n.jn.seqs, n.jn.overrun, n.jn.ovrLast, n.jn.maxDepth, n.jn.cycle))) (h3 : x ≠ .ld) (h4 : x ≠ .mir) (h5 : x ≠ .ckpt) :
    Part.get { n with isl := v0, jn := v1, ld := v2, mir := v3, ckpt := v4 } x = Part.get n x := by
  cases x <;> first | rfl | exact absurd rfl h0 | exact h1.resolve_left (fun h => h rfl) | exact h2.resolve_left (fun h => h rfl) | exact absurd rfl h3 | exact absurd rfl h4 | exact absurd rfl h5

theorem get_foldl {pt : Part} {β : Type} (f : Node → β → Node) (l : List β) (n : Node)
    (h : ∀ m a, Part.get (f m a) pt = Part.get m pt) : Part.get (l.foldl f n) pt = Part.get n pt := by
  induction l generalizing n with
  | nil => rfl
  | cons a r ih => exact (ih _).trans (h n a)
theorem get_ite {pt : Part} {c : Prop} [Decidable c] (a b : Node) :
    Part.get (if c then a else b) pt = if c then Part.get a pt else Part.get b pt := by split <;> rfl
end Sys2Proof.Machine
end

