-- ==== Sys2Proof/Laws/FrameBase.lean ====
section
/-! SUPPORT. What each operation of the shared operations, events and mailboxes leaves as it was: every part outside the list it names. -/

namespace Sys2Proof.Machine
open Sys2Proof
set_option linter.all false

theorem advance_get {pt : Part} (t : Nat) (n : Node)
    (hpt : pt ∉ [.devtime]) : Part.get (Node.advance t n) pt = Part.get n pt := by
  simp only [List.mem_cons, List.not_mem_nil, or_false, not_or] at hpt
  unfold Node.advance
  (repeat' split) <;> simp [hpt, get_upd_time, get_foldl, get_ite]

theorem setIsl_get {pt : Part} (i : Nat) (x : IslState) (n : Node)
    (hpt : pt ∉ [.isl]) : Part.get (Node.setIsl i x n) pt = Part.get n pt := by
  simp only [List.mem_cons, List.not_mem_nil, or_false, not_or] at hpt
  unfold Node.setIsl
  (repeat' split) <;> simp [hpt, get_upd_isl, get_foldl, get_ite]

theorem setPort_get {pt : Part} (p : HostPort) (v : Port) (n : Node) (hpt : pt ∉ [.port p]) :
    Part.get (n.setPort p v) pt = Part.get n pt := by
  simp only [List.mem_singleton] at hpt
  cases pt with
  | port q => cases p <;> cases q <;> first | rfl | exact absurd rfl hpt
  | _ => cases p <;> rfl

theorem modPort_get {pt : Part} (p : HostPort) (f : Port → Port) (n : Node) (hpt : pt ∉ [.port p]) :
    Part.get (n.modPort p f) pt = Part.get n pt := setPort_get p _ n hpt

theorem recNote_get {pt : Part} (typ sev : Nat) (pay : Option Bytes) (n : Node)
    (hpt : pt ∉ [.rcd]) : Part.get (recNote typ sev pay n) pt = Part.get n pt := by
  simp only [List.mem_cons, List.not_mem_nil, or_false, not_or] at hpt
  unfold recNote
  (repeat' split) <;> simp [hpt, get_upd_rcd, get_foldl, get_ite]

theorem recNoteIf_get {pt : Part} (b : Bool) (typ sev : Nat) (pay : Option Bytes) (n : Node)
    (hpt : pt ∉ [.rcd]) : Part.get (recNoteIf b typ sev pay n) pt = Part.get n pt := by
  simp only [List.mem_cons, List.not_mem_nil, or_false, not_or] at hpt
  unfold recNoteIf
  (repeat' split) <;> simp [hpt, recNote_get, get_foldl, get_ite]

theorem recOcc_get {pt : Part} (cls ch : Nat) (n : Node)
    (hpt : pt ∉ [.rcd]) : Part.get (recOcc cls ch n) pt = Part.get n pt := by
  simp only [List.mem_cons, List.not_mem_nil, or_false, not_or] at hpt
  unfold recOcc
  (repeat' split) <;> simp [hpt, get_upd_rcd, get_foldl, get_ite]

theorem recOccIf_get {pt : Part} (b : Bool) (cls ch : Nat) (n : Node)
    (hpt : pt ∉ [.rcd]) : Part.get (recOccIf b cls ch n) pt = Part.get n pt := by
  simp only [List.mem_cons, List.not_mem_nil, or_false, not_or] at hpt
  unfold recOccIf
  (repeat' split) <;> simp [hpt, recOcc_get, get_foldl, get_ite]

theorem raise_get {pt : Part} (k : Nat) (n : Node)
    (hpt : pt ∉ [.dupSent, .evt, .rcd]) : Part.get (raise k n) pt = Part.get n pt := by
  simp only [List.mem_cons, List.not_mem_nil, or_false, not_or] at hpt
  unfold raise
  (repeat' split) <;> simp [hpt, get_upd_dup, get_upd_evt, get_upd_rcd, get_upd_evt_rcd_dup, get_foldl, get_ite]

theorem raiseIf_get {pt : Part} (b : Bool) (k : Nat) (n : Node)
    (hpt : pt ∉ [.dupSent, .evt, .rcd]) : Part.get (raiseIf b k n) pt = Part.get n pt := by
  simp only [List.mem_cons, List.not_mem_nil, or_false, not_or] at hpt
  unfold raiseIf
  (repeat' split) <;> simp [hpt, raise_get, get_foldl, get_ite]

theorem recEnter_get {pt : Part} (x : DevSt) (n : Node)
    (hpt : pt ∉ [.rcd]) : Part.get (recEnter x n) pt = Part.get n pt := by
  simp only [List.mem_cons, List.not_mem_nil, or_false, not_or] at hpt
  unfold recEnter
  (repeat' split) <;> simp [hpt, get_upd_rcd, get_foldl, get_ite]

theorem enter_get {pt : Part} (x : DevSt) (n : Node)
    (hpt : pt ∉ [.devState, .dupSent, .evt, .rcd]) : Part.get (enter x n) pt = Part.get n pt := by
  simp only [List.mem_cons, List.not_mem_nil, or_false, not_or] at hpt
  unfold enter
  (repeat' split) <;> simp [hpt, raise_get, recEnter_get, recNote_get, get_upd_dev, get_foldl, get_ite]

theorem drawFree_get {pt : Part} (n : Node)
    (hpt : pt ∉ [.free]) : Part.get (drawFree n).2 pt = Part.get n pt := by
  simp only [List.mem_cons, List.not_mem_nil, or_false, not_or] at hpt
  unfold drawFree
  (repeat' split) <;> simp [hpt, get_upd_free, get_foldl, get_ite]

theorem complete_get {pt : Part} (prod target : Nat) (es : List Entry) (t : Nat) (n : Node)
    (hpt : pt ∉ [.dupSent, .evt, .rcd, .slots]) : Part.get (complete prod target es t n) pt = Part.get n pt := by
  simp only [List.mem_cons, List.not_mem_nil, or_false, not_or] at hpt
  unfold complete
  (repeat' split) <;> simp [hpt, raise_get, get_upd_jn, get_foldl, get_ite]

theorem evtStatWrite_get {pt : Part} (m : Nat) (v same : Word) (n : Node)
    (hpt : pt ∉ [.evt]) : Part.get (evtStatWrite m v same n) pt = Part.get n pt := by
  simp only [List.mem_cons, List.not_mem_nil, or_false, not_or] at hpt
  unfold evtStatWrite
  (repeat' split) <;> simp [hpt, get_upd_evt, get_foldl, get_ite]

theorem evtMaskWrite_get {pt : Part} (m : Nat) (v : Word) (n : Node)
    (hpt : pt ∉ [.evt]) : Part.get (evtMaskWrite m v n) pt = Part.get n pt := by
  simp only [List.mem_cons, List.not_mem_nil, or_false, not_or] at hpt
  unfold evtMaskWrite
  (repeat' split) <;> simp [hpt, get_upd_evt, get_foldl, get_ite]

theorem evtRouteWrite_get {pt : Part} (m : Nat) (v : Word) (n : Node)
    (hpt : pt ∉ [.evt]) : Part.get (evtRouteWrite m v n) pt = Part.get n pt := by
  simp only [List.mem_cons, List.not_mem_nil, or_false, not_or] at hpt
  unfold evtRouteWrite
  (repeat' split) <;> simp [hpt, get_upd_evt, get_foldl, get_ite]

theorem evtMsgqRead_get {pt : Part} (n : Node)
    (hpt : pt ∉ [.evt]) : Part.get (evtMsgqRead n).2 pt = Part.get n pt := by
  simp only [List.mem_cons, List.not_mem_nil, or_false, not_or] at hpt
  unfold evtMsgqRead
  (repeat' split) <;> simp [hpt, get_upd_evt, get_foldl, get_ite]

theorem evtMsgStatWrite_get {pt : Part} (v : Word) (n : Node)
    (hpt : pt ∉ [.evt]) : Part.get (evtMsgStatWrite v n) pt = Part.get n pt := by
  simp only [List.mem_cons, List.not_mem_nil, or_false, not_or] at hpt
  unfold evtMsgStatWrite
  (repeat' split) <;> simp [hpt, get_upd_evt, get_foldl, get_ite]

theorem blkCtrlWrite_get {pt : Part} (b : Nat) (v : Word) (n : Node)
    (hpt : pt ∉ [.blk]) : Part.get (blkCtrlWrite b v n) pt = Part.get n pt := by
  simp only [List.mem_cons, List.not_mem_nil, or_false, not_or] at hpt
  unfold blkCtrlWrite
  (repeat' split) <;> simp [hpt, get_upd_blk, get_foldl, get_ite]

theorem expertTouch_get {pt : Part} (b : Nat) (n : Node)
    (hpt : pt ∉ [.blk]) : Part.get (expertTouch b n) pt = Part.get n pt := by
  simp only [List.mem_cons, List.not_mem_nil, or_false, not_or] at hpt
  unfold expertTouch
  (repeat' split) <;> simp [hpt, get_upd_blk, get_foldl, get_ite]

theorem expertTimeout_get {pt : Part} (b : Nat) (n : Node)
    (hpt : pt ∉ [.blk]) : Part.get (expertTimeout b n) pt = Part.get n pt := by
  simp only [List.mem_cons, List.not_mem_nil, or_false, not_or] at hpt
  unfold expertTimeout
  (repeat' split) <;> simp [hpt, get_upd_blk, get_foldl, get_ite]

theorem expertTimeouts_get {pt : Part} (n : Node)
    (hpt : pt ∉ [.blk]) : Part.get (expertTimeouts n) pt = Part.get n pt := by
  simp only [List.mem_cons, List.not_mem_nil, or_false, not_or] at hpt
  unfold expertTimeouts
  (repeat' split) <;> simp [hpt, expertTimeout_get, get_foldl, get_ite]

theorem setMbChan_get {pt : Part} (ch : Nat) (c : MbChan) (n : Node)
    (hpt : pt ∉ [.mbx]) : Part.get (setMbChan ch c n) pt = Part.get n pt := by
  simp only [List.mem_cons, List.not_mem_nil, or_false, not_or] at hpt
  unfold setMbChan
  (repeat' split) <;> simp [hpt, get_upd_mbx, get_foldl, get_ite]

theorem setMbId_get {pt : Part} (id : Nat) (c : MbId) (n : Node)
    (hpt : pt ∉ [.mbx]) : Part.get (setMbId id c n) pt = Part.get n pt := by
  simp only [List.mem_cons, List.not_mem_nil, or_false, not_or] at hpt
  unfold setMbId
  (repeat' split) <;> simp [hpt, get_upd_mbx, get_foldl, get_ite]

theorem ring_get {pt : Part} (id ch : Nat) (n : Node)
    (hpt : pt ∉ [.dupSent, .evt, .mbx, .rcd]) : Part.get (ring id ch n) pt = Part.get n pt := by
  simp only [List.mem_cons, List.not_mem_nil, or_false, not_or] at hpt
  unfold ring
  (repeat' split) <;> simp [hpt, raiseIf_get, setMbId_get, get_foldl, get_ite]

theorem mbPostMsg_get {pt : Part} (id ch : Nat) (msg : List Word) (n : Node)
    (hpt : pt ∉ [.dupSent, .evt, .mbx, .rcd]) : Part.get (mbPostMsg id ch msg n).2 pt = Part.get n pt := by
  simp only [List.mem_cons, List.not_mem_nil, or_false, not_or] at hpt
  unfold mbPostMsg
  (repeat' split) <;> simp [hpt, raiseIf_get, ring_get, setMbChan_get, get_foldl, get_ite]

theorem mbPost_get {pt : Part} (id ch : Nat) (n : Node)
    (hpt : pt ∉ [.dupSent, .evt, .mbx, .rcd]) : Part.get (mbPost id ch n).2 pt = Part.get n pt := by
  simp only [List.mem_cons, List.not_mem_nil, or_false, not_or] at hpt
  unfold mbPost
  (repeat' split) <;> simp [hpt, mbPostMsg_get, get_foldl, get_ite]

theorem mbFetch_get {pt : Part} (id ch : Nat) (n : Node)
    (hpt : pt ∉ [.mbx]) : Part.get (mbFetch id ch n).2 pt = Part.get n pt := by
  simp only [List.mem_cons, List.not_mem_nil, or_false, not_or] at hpt
  unfold mbFetch
  (repeat' split) <;> simp [hpt, setMbId_get, get_foldl, get_ite]

theorem mbAck_get {pt : Part} (id ch : Nat) (v : Word) (n : Node)
    (hpt : pt ∉ [.dupSent, .evt, .mbx, .rcd]) : Part.get (mbAck id ch v n).2 pt = Part.get n pt := by
  simp only [List.mem_cons, List.not_mem_nil, or_false, not_or] at hpt
  unfold mbAck
  (repeat' split) <;> (try simp [hpt, raiseIf_get, ring_get, setMbChan_get, get_foldl, get_ite]) <;> (try intros) <;> (repeat' split) <;> (try simp_all [hpt, raiseIf_get, ring_get, setMbChan_get, get_foldl, get_ite])

theorem mbClear_get {pt : Part} (n : Node)
    (hpt : pt ∉ [.mbx]) : Part.get (mbClear n) pt = Part.get n pt := by
  simp only [List.mem_cons, List.not_mem_nil, or_false, not_or] at hpt
  unfold mbClear
  (repeat' split) <;> simp [hpt, get_upd_mbx, get_foldl, get_ite]

theorem dbStatusWrite_get {pt : Part} (id : Nat) (v : Word) (n : Node)
    (hpt : pt ∉ [.mbx]) : Part.get (dbStatusWrite id v n) pt = Part.get n pt := by
  simp only [List.mem_cons, List.not_mem_nil, or_false, not_or] at hpt
  unfold dbStatusWrite
  (repeat' split) <;> simp [hpt, setMbId_get, get_foldl, get_ite]

theorem dbMaskWrite_get {pt : Part} (id : Nat) (v : Word) (n : Node)
    (hpt : pt ∉ [.mbx]) : Part.get (dbMaskWrite id v n) pt = Part.get n pt := by
  simp only [List.mem_cons, List.not_mem_nil, or_false, not_or] at hpt
  unfold dbMaskWrite
  (repeat' split) <;> simp [hpt, setMbId_get, get_foldl, get_ite]

theorem mbWinWrite_get {pt : Part} (id i : Nat) (v : Word) (n : Node)
    (hpt : pt ∉ [.mbx]) : Part.get (mbWinWrite id i v n) pt = Part.get n pt := by
  simp only [List.mem_cons, List.not_mem_nil, or_false, not_or] at hpt
  unfold mbWinWrite
  (repeat' split) <;> simp [hpt, setMbId_get, get_foldl, get_ite]

end Sys2Proof.Machine
end

