-- ==== Sys2Proof/Laws/FrameInputs.lean ====
section
/-! SUPPORT. What each operation of inputs, live calibration and charge channels leaves as it was: every part outside the list it names. -/

namespace Sys2Proof.Machine
open Sys2Proof
set_option linter.all false

theorem setUi_get {pt : Part} (c : Nat) (u : UiChan) (n : Node)
    (hpt : pt ∉ [.ui]) : Part.get (setUi c u n) pt = Part.get n pt := by
  simp only [List.mem_cons, List.not_mem_nil, or_false, not_or] at hpt
  unfold setUi
  (repeat' split) <;> simp [hpt, get_upd_ui, get_foldl, get_ite]

theorem modUi_get {pt : Part} (c : Nat) (f : UiChan → UiChan) (n : Node)
    (hpt : pt ∉ [.ui]) : Part.get (modUi c f n) pt = Part.get n pt := by
  simp only [List.mem_cons, List.not_mem_nil, or_false, not_or] at hpt
  unfold modUi
  (repeat' split) <;> simp [hpt, setUi_get, get_foldl, get_ite]

theorem setEx_get {pt : Part} (k : Nat) (u : ExChan) (n : Node)
    (hpt : pt ∉ [.ex]) : Part.get (setEx k u n) pt = Part.get n pt := by
  simp only [List.mem_cons, List.not_mem_nil, or_false, not_or] at hpt
  unfold setEx
  (repeat' split) <;> simp [hpt, get_upd_ex, get_foldl, get_ite]

theorem modEx_get {pt : Part} (k : Nat) (f : ExChan → ExChan) (n : Node)
    (hpt : pt ∉ [.ex]) : Part.get (modEx k f n) pt = Part.get n pt := by
  simp only [List.mem_cons, List.not_mem_nil, or_false, not_or] at hpt
  unfold modEx
  (repeat' split) <;> simp [hpt, setEx_get, get_foldl, get_ite]

theorem setBc_get {pt : Part} (b : Nat) (u : Bc) (n : Node)
    (hpt : pt ∉ [.cal]) : Part.get (setBc b u n) pt = Part.get n pt := by
  simp only [List.mem_cons, List.not_mem_nil, or_false, not_or] at hpt
  unfold setBc
  (repeat' split) <;> simp [hpt, get_upd_cal, get_foldl, get_ite]

theorem modBc_get {pt : Part} (b : Nat) (f : Bc → Bc) (n : Node)
    (hpt : pt ∉ [.cal]) : Part.get (modBc b f n) pt = Part.get n pt := by
  simp only [List.mem_cons, List.not_mem_nil, or_false, not_or] at hpt
  unfold modBc
  (repeat' split) <;> simp [hpt, setBc_get, get_foldl, get_ite]

theorem recordDetour_get {pt : Part} (c b : Nat) (n : Node)
    (hpt : pt ∉ [.dtr, .dupSent, .evt, .rcd]) : Part.get (recordDetour c b n) pt = Part.get n pt := by
  simp only [List.mem_cons, List.not_mem_nil, or_false, not_or] at hpt
  unfold recordDetour
  (repeat' split) <;> simp [hpt, raise_get, recNote_get, get_upd_dtr, get_foldl, get_ite]

theorem prerollDone_get {pt : Part} (c t : Nat) (n : Node)
    (hpt : pt ∉ [.cal, .dtr, .dupSent, .evt, .rcd, .ui]) : Part.get (prerollDone c t n) pt = Part.get n pt := by
  simp only [List.mem_cons, List.not_mem_nil, or_false, not_or] at hpt
  unfold prerollDone
  (repeat' split) <;> simp [hpt, modUi_get, recordDetour_get, setBc_get, get_foldl, get_ite]

theorem prerollDrop_get {pt : Part} (n : Node)
    (hpt : pt ∉ [.cal]) : Part.get (prerollDrop n) pt = Part.get n pt := by
  simp only [List.mem_cons, List.not_mem_nil, or_false, not_or] at hpt
  unfold prerollDrop
  (repeat' split) <;> simp [hpt, modBc_get, get_foldl, get_ite]

theorem bcPair_get {pt : Part} (c : Nat) (m : UiReading) (t : Nat) (n : Node) (b : Nat)
    (hpt : pt ∉ [.cal]) : Part.get (bcPair c m t n b) pt = Part.get n pt := by
  simp only [List.mem_cons, List.not_mem_nil, or_false, not_or] at hpt
  unfold bcPair
  (repeat' split) <;> simp [hpt, setBc_get, get_foldl, get_ite]

theorem uiConvert_get {pt : Part} (c : Nat) (m : UiReading) (t : Nat) (n : Node)
    (hpt : pt ∉ [.cal, .dtr, .dupSent, .evt, .rcd, .slots, .ui]) : Part.get (uiConvert c m t n) pt = Part.get n pt := by
  simp only [List.mem_cons, List.not_mem_nil, or_false, not_or] at hpt
  unfold uiConvert
  (repeat' split) <;> (try simp [hpt, bcPair_get, complete_get, prerollDone_get, raiseIf_get, setUi_get, get_foldl, get_ite]) <;> (try intros) <;> (repeat' split) <;> (try simp_all [hpt, bcPair_get, complete_get, prerollDone_get, raiseIf_get, setUi_get, get_foldl, get_ite])

theorem uiFiltWrite_get {pt : Part} (c : Nat) (v : Word) (n : Node)
    (hpt : pt ∉ [.ui]) : Part.get (uiFiltWrite c v n) pt = Part.get n pt := by
  simp only [List.mem_cons, List.not_mem_nil, or_false, not_or] at hpt
  unfold uiFiltWrite
  (repeat' split) <;> simp [hpt, setUi_get, get_foldl, get_ite]

theorem roundAbandon_get {pt : Part} (b : Nat) (n : Node)
    (hpt : pt ∉ [.cal, .dupSent, .evt, .free, .rcd, .slots, .ui]) : Part.get (roundAbandon b n) pt = Part.get n pt := by
  simp only [List.mem_cons, List.not_mem_nil, or_false, not_or] at hpt
  unfold roundAbandon
  (repeat' split) <;> simp [hpt, complete_get, drawFree_get, modUi_get, raise_get, setBc_get, get_upd_cal, get_foldl, get_ite]

theorem roundsOf_get {pt : Part} (c : Nat) (n : Node)
    (hpt : pt ∉ [.cal, .dupSent, .evt, .free, .rcd, .slots, .ui]) : Part.get (roundsOf c n) pt = Part.get n pt := by
  simp only [List.mem_cons, List.not_mem_nil, or_false, not_or] at hpt
  unfold roundsOf
  (repeat' split) <;> simp [hpt, roundAbandon_get, get_foldl, get_ite]

theorem uiFilterRestart_get {pt : Part} (c : Nat) (t : Nat) (n : Node)
    (hpt : pt ∉ [.cal, .dupSent, .evt, .free, .rcd, .slots, .ui]) : Part.get (uiFilterRestart c t n) pt = Part.get n pt := by
  simp only [List.mem_cons, List.not_mem_nil, or_false, not_or] at hpt
  unfold uiFilterRestart
  (repeat' split) <;> simp [hpt, modUi_get, roundsOf_get, get_foldl, get_ite]

theorem uiForceCtrl_get {pt : Part} (c : Nat) (v : Word) (n : Node)
    (hpt : pt ∉ [.ui]) : Part.get (uiForceCtrl c v n) pt = Part.get n pt := by
  simp only [List.mem_cons, List.not_mem_nil, or_false, not_or] at hpt
  unfold uiForceCtrl
  (repeat' split) <;> simp [hpt, modUi_get, get_foldl, get_ite]

theorem uiForceVal_get {pt : Part} (c : Nat) (v : Word) (n : Node)
    (hpt : pt ∉ [.ui]) : Part.get (uiForceVal c v n) pt = Part.get n pt := by
  simp only [List.mem_cons, List.not_mem_nil, or_false, not_or] at hpt
  unfold uiForceVal
  (repeat' split) <;> simp [hpt, modUi_get, get_foldl, get_ite]

theorem uiStart_get {pt : Part} (t : Nat) (n : Node)
    (hpt : pt ∉ [.ui]) : Part.get (uiStart t n) pt = Part.get n pt := by
  simp only [List.mem_cons, List.not_mem_nil, or_false, not_or] at hpt
  unfold uiStart
  (repeat' split) <;> simp [hpt, modUi_get, get_foldl, get_ite]

theorem uiStop_get {pt : Part} (n : Node)
    (hpt : pt ∉ [.cal, .cj, .dupSent, .evt, .ex, .free, .rcd, .slots, .ui]) : Part.get (uiStop n) pt = Part.get n pt := by
  simp only [List.mem_cons, List.not_mem_nil, or_false, not_or] at hpt
  unfold uiStop
  (repeat' split) <;> simp [hpt, modUi_get, prerollDrop_get, roundAbandon_get, get_upd_cj, get_upd_ex, get_upd_ex_cj, get_foldl, get_ite]

theorem uiUnforce_get {pt : Part} (n : Node)
    (hpt : pt ∉ [.ui]) : Part.get (uiUnforce n) pt = Part.get n pt := by
  simp only [List.mem_cons, List.not_mem_nil, or_false, not_or] at hpt
  unfold uiUnforce
  (repeat' split) <;> simp [hpt, modUi_get, get_foldl, get_ite]

theorem uiApply_get {pt : Part} (n : Node)
    (hpt : pt ∉ [.ui]) : Part.get (uiApply n) pt = Part.get n pt := by
  simp only [List.mem_cons, List.not_mem_nil, or_false, not_or] at hpt
  unfold uiApply
  (repeat' split) <;> simp [hpt, setUi_get, get_foldl, get_ite]

theorem cjConvert_get {pt : Part} (k : Nat) (mC : Int) (t : Nat) (n : Node)
    (hpt : pt ∉ [.cj, .dupSent, .evt, .rcd, .slots]) : Part.get (cjConvert k mC t n) pt = Part.get n pt := by
  simp only [List.mem_cons, List.not_mem_nil, or_false, not_or] at hpt
  unfold cjConvert
  (repeat' split) <;> simp [hpt, complete_get, get_upd_cj, get_foldl, get_ite]

theorem cjStart_get {pt : Part} (t : Nat) (n : Node)
    (hpt : pt ∉ [.cj]) : Part.get (cjStart t n) pt = Part.get n pt := by
  simp only [List.mem_cons, List.not_mem_nil, or_false, not_or] at hpt
  unfold cjStart
  (repeat' split) <;> simp [hpt, get_upd_cj, get_foldl, get_ite]

theorem exApply_get {pt : Part} (k t : Nat) (n : Node)
    (hpt : pt ∉ [.cal, .dupSent, .evt, .ex, .free, .rcd, .slots, .ui]) : Part.get (exApply k t n) pt = Part.get n pt := by
  simp only [List.mem_cons, List.not_mem_nil, or_false, not_or] at hpt
  unfold exApply
  (repeat' split) <;> simp [hpt, modEx_get, modUi_get, roundsOf_get, get_foldl, get_ite]

theorem exRequest_get {pt : Part} (k t : Nat) (n : Node)
    (hpt : pt ∉ [.cal, .dupSent, .evt, .ex, .free, .rcd, .slots, .ui]) : Part.get (exRequest k t n) pt = Part.get n pt := by
  simp only [List.mem_cons, List.not_mem_nil, or_false, not_or] at hpt
  unfold exRequest
  (repeat' split) <;> simp [hpt, exApply_get, modEx_get, get_foldl, get_ite]

theorem exUpdate_get {pt : Part} (k t : Nat) (n : Node)
    (hpt : pt ∉ [.cal, .dupSent, .evt, .ex, .free, .rcd, .slots, .ui]) : Part.get (exUpdate k t n) pt = Part.get n pt := by
  simp only [List.mem_cons, List.not_mem_nil, or_false, not_or] at hpt
  unfold exUpdate
  (repeat' split) <;> simp [hpt, exRequest_get, get_foldl, get_ite]

theorem exRefresh_get {pt : Part} (t : Nat) (n : Node)
    (hpt : pt ∉ [.cal, .dupSent, .evt, .ex, .free, .rcd, .slots, .ui]) : Part.get (exRefresh t n) pt = Part.get n pt := by
  simp only [List.mem_cons, List.not_mem_nil, or_false, not_or] at hpt
  unfold exRefresh
  (repeat' split) <;> simp [hpt, exUpdate_get, get_foldl, get_ite]

theorem exChangeApply_get {pt : Part} (k t : Nat) (n : Node)
    (hpt : pt ∉ [.cal, .dupSent, .evt, .ex, .free, .rcd, .slots, .ui]) : Part.get (exChangeApply k t n) pt = Part.get n pt := by
  simp only [List.mem_cons, List.not_mem_nil, or_false, not_or] at hpt
  unfold exChangeApply
  (repeat' split) <;> simp [hpt, exApply_get, get_foldl, get_ite]

theorem exSettleEnd_get {pt : Part} (k t : Nat) (n : Node)
    (hpt : pt ∉ [.cal, .dupSent, .evt, .ex, .free, .rcd, .slots, .ui]) : Part.get (exSettleEnd k t n) pt = Part.get n pt := by
  simp only [List.mem_cons, List.not_mem_nil, or_false, not_or] at hpt
  unfold exSettleEnd
  (repeat' split) <;> simp [hpt, exApply_get, modEx_get, modUi_get, get_foldl, get_ite]

theorem exCtrlWrite_get {pt : Part} (k : Nat) (v : Word) (n : Node)
    (hpt : pt ∉ [.cal, .dupSent, .evt, .ex, .free, .rcd, .slots, .ui]) : Part.get (exCtrlWrite k v n) pt = Part.get n pt := by
  simp only [List.mem_cons, List.not_mem_nil, or_false, not_or] at hpt
  unfold exCtrlWrite
  (repeat' split) <;> simp [hpt, exUpdate_get, modEx_get, get_foldl, get_ite]

theorem exRegOkChange_get {pt : Part} (k : Nat) (ok : Bool) (t : Nat) (n : Node)
    (hpt : pt ∉ [.cal, .dupSent, .evt, .ex, .free, .rcd, .slots, .ui]) : Part.get (exRegOkChange k ok t n) pt = Part.get n pt := by
  simp only [List.mem_cons, List.not_mem_nil, or_false, not_or] at hpt
  unfold exRegOkChange
  (repeat' split) <;> simp [hpt, exUpdate_get, modEx_get, get_foldl, get_ite]

theorem exLimit_get {pt : Part} (k : Nat) (holds : Bool) (n : Node)
    (hpt : pt ∉ [.dupSent, .evt, .ex, .rcd]) : Part.get (exLimit k holds n) pt = Part.get n pt := by
  simp only [List.mem_cons, List.not_mem_nil, or_false, not_or] at hpt
  unfold exLimit
  (repeat' split) <;> simp [hpt, raise_get, setEx_get, get_foldl, get_ite]

theorem exSenseErr_get {pt : Part} (k : Nat) (holds : Bool) (n : Node)
    (hpt : pt ∉ [.dupSent, .evt, .ex, .rcd]) : Part.get (exSenseErr k holds n) pt = Part.get n pt := by
  simp only [List.mem_cons, List.not_mem_nil, or_false, not_or] at hpt
  unfold exSenseErr
  (repeat' split) <;> simp [hpt, raise_get, setEx_get, get_foldl, get_ite]

theorem exConvert_get {pt : Part} (k : Nat) (nv : Int) (t : Nat) (n : Node)
    (hpt : pt ∉ [.dupSent, .evt, .ex, .rcd, .slots]) : Part.get (exConvert k nv t n) pt = Part.get n pt := by
  simp only [List.mem_cons, List.not_mem_nil, or_false, not_or] at hpt
  unfold exConvert
  (repeat' split) <;> simp [hpt, complete_get, setEx_get, get_foldl, get_ite]

theorem exStart_get {pt : Part} (t : Nat) (n : Node)
    (hpt : pt ∉ [.ex]) : Part.get (exStart t n) pt = Part.get n pt := by
  simp only [List.mem_cons, List.not_mem_nil, or_false, not_or] at hpt
  unfold exStart
  (repeat' split) <;> simp [hpt, modEx_get, get_foldl, get_ite]

theorem exImage_get {pt : Part} (n : Node)
    (hpt : pt ∉ [.ex]) : Part.get (exImage n) pt = Part.get n pt := by
  simp only [List.mem_cons, List.not_mem_nil, or_false, not_or] at hpt
  unfold exImage
  (repeat' split) <;> simp [hpt, modEx_get, get_foldl, get_ite]

theorem uiStatusClear_get {pt : Part} (c : Nat) (v : Word) (n : Node)
    (hpt : pt ∉ [.ui]) : Part.get (uiStatusClear c v n) pt = Part.get n pt := by
  simp only [List.mem_cons, List.not_mem_nil, or_false, not_or] at hpt
  unfold uiStatusClear
  (repeat' split) <;> simp [hpt, modUi_get, get_foldl, get_ite]

theorem uiWrite_get {pt : Part} (c off : Nat) (v : Word) (n : Node)
    (hpt : pt ∉ [.ui]) : Part.get (uiWrite c off v n) pt = Part.get n pt := by
  simp only [List.mem_cons, List.not_mem_nil, or_false, not_or] at hpt
  unfold uiWrite
  (repeat' split) <;> simp [hpt, uiFiltWrite_get, uiForceCtrl_get, uiForceVal_get, uiStatusClear_get, get_foldl, get_ite]

theorem exStatusClear_get {pt : Part} (k : Nat) (v : Word) (n : Node)
    (hpt : pt ∉ [.ex]) : Part.get (exStatusClear k v n) pt = Part.get n pt := by
  simp only [List.mem_cons, List.not_mem_nil, or_false, not_or] at hpt
  unfold exStatusClear
  (repeat' split) <;> simp [hpt, modEx_get, get_foldl, get_ite]

theorem exWrite_get {pt : Part} (k off : Nat) (v : Word) (n : Node)
    (hpt : pt ∉ [.cal, .dupSent, .evt, .ex, .free, .rcd, .slots, .ui]) : Part.get (exWrite k off v n) pt = Part.get n pt := by
  simp only [List.mem_cons, List.not_mem_nil, or_false, not_or] at hpt
  unfold exWrite
  (repeat' split) <;> simp [hpt, exCtrlWrite_get, exStatusClear_get, get_foldl, get_ite]

theorem roundStart_get {pt : Part} (b t : Nat) (n : Node)
    (hpt : pt ∉ [.cal]) : Part.get (roundStart b t n) pt = Part.get n pt := by
  simp only [List.mem_cons, List.not_mem_nil, or_false, not_or] at hpt
  unfold roundStart
  (repeat' split) <;> simp [hpt, setBc_get, get_foldl, get_ite]

theorem setDis_get {pt : Part} (c v : Nat) (n : Node)
    (hpt : pt ∉ [.cal]) : Part.get (setDis c v n) pt = Part.get n pt := by
  simp only [List.mem_cons, List.not_mem_nil, or_false, not_or] at hpt
  unfold setDis
  (repeat' split) <;> simp [hpt, get_upd_cal, get_foldl, get_ite]

theorem roundEnd_get {pt : Part} (b outcome : Nat) (val : Option Int) (t : Nat) (n : Node)
    (hpt : pt ∉ [.cal, .dupSent, .evt, .free, .rcd, .slots]) : Part.get (roundEnd b outcome val t n) pt = Part.get n pt := by
  simp only [List.mem_cons, List.not_mem_nil, or_false, not_or] at hpt
  unfold roundEnd
  cases val
  · cases h : drawFree n with | mk v n1 =>
    have e : Part.get n1 pt = Part.get n pt := by
      have := drawFree_get (pt := pt) n (by simp [hpt])
      rwa [h] at this
    simp [hpt, complete_get, drawFree_get, raise_get, setBc_get, get_upd_cal, get_foldl, get_ite, e]
  · simp [hpt, complete_get, drawFree_get, raise_get, setBc_get, get_upd_cal, get_foldl, get_ite]

theorem ownAgain_get {pt : Part} (c : Nat) (n : Node)
    (hpt : pt ∉ [.ui]) : Part.get (ownAgain c n) pt = Part.get n pt := by
  simp only [List.mem_cons, List.not_mem_nil, or_false, not_or] at hpt
  unfold ownAgain
  (repeat' split) <;> simp [hpt, modUi_get, get_foldl, get_ite]

theorem giveUp_get {pt : Part} (c : Nat) (n : Node)
    (hpt : pt ∉ [.cal]) : Part.get (giveUp c n) pt = Part.get n pt := by
  simp only [List.mem_cons, List.not_mem_nil, or_false, not_or] at hpt
  unfold giveUp
  (repeat' split) <;> simp [hpt, modBc_get, get_foldl, get_ite]

theorem detour_get {pt : Part} (c b : Nat) (rampNum : Int) (rampDen rampN : Nat) (n : Node)
    (hpt : pt ∉ [.cal, .dtr, .dupSent, .evt, .rcd, .ui]) : Part.get (detour c b rampNum rampDen rampN n) pt = Part.get n pt := by
  simp only [List.mem_cons, List.not_mem_nil, or_false, not_or] at hpt
  unfold detour
  (repeat' split) <;> simp [hpt, giveUp_get, modBc_get, modUi_get, recordDetour_get, get_foldl, get_ite]

theorem disagreement_get {pt : Part} (b : Nat) (n : Node)
    (hpt : pt ∉ [.cal, .dupSent, .evt, .rcd]) : Part.get (disagreement b n).1 pt = Part.get n pt := by
  simp only [List.mem_cons, List.not_mem_nil, or_false, not_or] at hpt
  unfold disagreement
  (repeat' split) <;> (try simp [hpt, raise_get, setBc_get, setDis_get, get_foldl, get_ite]) <;> (try intros) <;> (repeat' split) <;> (try simp_all [hpt, raise_get, setBc_get, setDis_get, get_foldl, get_ite])

theorem bcFail_get {pt : Part} (b : Nat) (n : Node)
    (hpt : pt ∉ [.cal, .dupSent, .evt, .rcd]) : Part.get (bcFail b n) pt = Part.get n pt := by
  simp only [List.mem_cons, List.not_mem_nil, or_false, not_or] at hpt
  unfold bcFail
  (repeat' split) <;> simp [hpt, modBc_get, raise_get, get_foldl, get_ite]

theorem takeover_get {pt : Part} (b loopR t : Nat) (n : Node)
    (hpt : pt ∉ [.cal, .dtr, .dupSent, .evt, .free, .rcd, .slots, .ui]) : Part.get (takeover b loopR t n) pt = Part.get n pt := by
  simp only [List.mem_cons, List.not_mem_nil, or_false, not_or] at hpt
  unfold takeover
  (repeat' split) <;> simp [hpt, bcFail_get, detour_get, disagreement_get, modUi_get, roundEnd_get, setBc_get, get_foldl, get_ite]

theorem referencesDone_get {pt : Part} (b : Nat) (m : RefMeas) (t : Nat) (n : Node)
    (hpt : pt ∉ [.cal, .dtr, .dupSent, .evt, .free, .rcd, .slots, .ui]) : Part.get (referencesDone b m t n) pt = Part.get n pt := by
  simp only [List.mem_cons, List.not_mem_nil, or_false, not_or] at hpt
  unfold referencesDone
  (repeat' split) <;> simp [hpt, detour_get, roundEnd_get, setBc_get, get_foldl, get_ite]

theorem crossCheck_get {pt : Part} (b t : Nat) (n : Node)
    (hpt : pt ∉ [.cal, .dtr, .dupSent, .evt, .free, .rcd, .slots, .ui]) : Part.get (crossCheck b t n) pt = Part.get n pt := by
  simp only [List.mem_cons, List.not_mem_nil, or_false, not_or] at hpt
  unfold crossCheck
  have e := disagreement_get (pt := pt) b n (by simp [hpt])
  cases h : disagreement b n with | mk n1 w =>
  rw [h] at e
  dsimp only at e ⊢
  (repeat' split) <;> simp [hpt, bcFail_get, detour_get, disagreement_get, modBc_get, ownAgain_get, roundEnd_get, setBc_get, setDis_get, get_foldl, get_ite, e]

theorem handback_get {pt : Part} (b t : Nat) (n : Node)
    (hpt : pt ∉ [.cal, .dupSent, .evt, .free, .rcd, .slots, .ui]) : Part.get (handback b t n) pt = Part.get n pt := by
  simp only [List.mem_cons, List.not_mem_nil, or_false, not_or] at hpt
  unfold handback
  (repeat' split) <;> (try simp [hpt, modUi_get, ownAgain_get, roundEnd_get, get_foldl, get_ite]) <;> (try intros) <;> (repeat' split) <;> (try simp_all [hpt, modUi_get, ownAgain_get, roundEnd_get, get_foldl, get_ite])

theorem uiFail_get {pt : Part} (c : Nat) (n : Node)
    (hpt : pt ∉ [.devRest, .ui]) : Part.get (uiFail c n) pt = Part.get n pt := by
  simp only [List.mem_cons, List.not_mem_nil, or_false, not_or] at hpt
  unfold uiFail
  (repeat' split) <;> simp [hpt, modUi_get, get_upd_dev, get_foldl, get_ite]

theorem takeFailed_get {pt : Part} (c : Nat) (immediate : Bool) (t : Nat) (n : Node)
    (hpt : pt ∉ [.cal, .devRest, .dtr, .dupSent, .evt, .free, .rcd, .slots, .ui]) : Part.get (takeFailed c immediate t n) pt = Part.get n pt := by
  simp only [List.mem_cons, List.not_mem_nil, or_false, not_or] at hpt
  unfold takeFailed
  dsimp only
  cases (giveUp c n).server (c / 16) with
  | none => simp [hpt, uiFail_get, giveUp_get]
  | some b =>
    cases immediate <;> simp [hpt, detour_get, giveUp_get, modBc_get, modUi_get, roundAbandon_get, get_ite]

theorem bcSelfCal_get {pt : Part} (b : Nat) (m : RefMeas) (t : Nat) (n : Node)
    (hpt : pt ∉ [.cal, .devRest, .dtr, .dupSent, .evt, .free, .rcd, .slots, .ui]) : Part.get (bcSelfCal b m t n) pt = Part.get n pt := by
  simp only [List.mem_cons, List.not_mem_nil, or_false, not_or] at hpt
  unfold bcSelfCal
  (repeat' split) <;> simp [hpt, bcFail_get, roundsOf_get, setBc_get, takeFailed_get, get_foldl, get_ite]

theorem converterFault_get {pt : Part} (c t : Nat) (n : Node)
    (hpt : pt ∉ [.cal, .devRest, .dtr, .dupSent, .evt, .free, .rcd, .slots, .ui]) : Part.get (converterFault c t n) pt = Part.get n pt := by
  simp only [List.mem_cons, List.not_mem_nil, or_false, not_or] at hpt
  unfold converterFault
  (repeat' split) <;> simp [hpt, roundsOf_get, takeFailed_get, get_foldl, get_ite]

theorem initialCal_get {pt : Part} (m : CalMeas) (t : Nat) (n : Node)
    (hpt : pt ∉ [.cal, .devRest, .dtr, .dupSent, .evt, .free, .rcd, .slots, .ui]) : Part.get (initialCal m t n) pt = Part.get n pt := by
  simp only [List.mem_cons, List.not_mem_nil, or_false, not_or] at hpt
  unfold initialCal
  refine (get_foldl _ _ _ (fun m a => ?_)).trans (get_foldl _ _ _ (fun m a => ?_))
  · (repeat' split) <;> simp [hpt, bcFail_get, modBc_get, modUi_get, takeFailed_get, get_foldl, get_ite]
  · (repeat' split) <;> simp [hpt, bcFail_get, modBc_get, modUi_get, takeFailed_get, get_foldl, get_ite]

theorem restoreDetours_get {pt : Part} (n : Node)
    (hpt : pt ∉ [.cal, .ui]) : Part.get (restoreDetours n) pt = Part.get n pt := by
  simp only [List.mem_cons, List.not_mem_nil, or_false, not_or] at hpt
  unfold restoreDetours
  (repeat' split) <;> simp [hpt, modBc_get, modUi_get, get_foldl, get_ite]

theorem markSuspect_get {pt : Part} (addr : Nat) (on : Bool) (n : Node)
    (hpt : pt ∉ [.store]) : Part.get (markSuspect addr on n) pt = Part.get n pt := by
  simp only [List.mem_cons, List.not_mem_nil, or_false, not_or] at hpt
  unfold markSuspect
  (repeat' split) <;> simp [hpt, get_upd_jn, get_foldl, get_ite]

theorem pairTimer_get {pt : Part} (k t : Nat) (n : Node)
    (hpt : pt ∉ [.cal, .dupSent, .evt, .rcd, .store]) : Part.get (pairTimer k t n) pt = Part.get n pt := by
  simp only [List.mem_cons, List.not_mem_nil, or_false, not_or] at hpt
  unfold pairTimer
  (repeat' split) <;> (try simp [hpt, markSuspect_get, raise_get, get_upd_cal, get_foldl, get_ite]) <;> (try intros) <;> (repeat' split) <;> (try simp_all [hpt, markSuspect_get, raise_get, get_upd_cal, get_foldl, get_ite])

theorem pairEval_get {pt : Part} (k t : Nat) (r : Bytes) (n : Node)
    (hpt : pt ∉ [.cal, .dupSent, .evt, .rcd, .store]) : Part.get (pairEval k t r n) pt = Part.get n pt := by
  simp only [List.mem_cons, List.not_mem_nil, or_false, not_or] at hpt
  unfold pairEval
  (repeat' split) <;> simp [hpt, pairTimer_get, get_upd_cal, get_foldl, get_ite]

theorem pairsOf_get {pt : Part} (addr t : Nat) (n : Node)
    (hpt : pt ∉ [.cal, .dupSent, .evt, .rcd, .store]) : Part.get (pairsOf addr t n) pt = Part.get n pt := by
  simp only [List.mem_cons, List.not_mem_nil, or_false, not_or] at hpt
  unfold pairsOf
  (repeat' split) <;> simp [hpt, pairEval_get, get_foldl, get_ite]

theorem triadDo_get {pt : Part} (k t : Nat) (n : Node)
    (hpt : pt ∉ [.cal, .dupSent, .evt, .rcd, .slots]) : Part.get (triadDo k t n) pt = Part.get n pt := by
  simp only [List.mem_cons, List.not_mem_nil, or_false, not_or] at hpt
  unfold triadDo
  (repeat' split) <;> simp [hpt, complete_get, raiseIf_get, get_upd_cal, get_foldl, get_ite]

theorem triadTick_get {pt : Part} (t : Nat) (n : Node)
    (hpt : pt ∉ [.cal, .dupSent, .evt, .rcd, .slots]) : Part.get (triadTick t n) pt = Part.get n pt := by
  simp only [List.mem_cons, List.not_mem_nil, or_false, not_or] at hpt
  unfold triadTick
  (repeat' split) <;> simp [hpt, triadDo_get, get_foldl, get_ite]

theorem rndParamWrite_get {pt : Part} (v : Word) (n : Node)
    (hpt : pt ∉ [.cal]) : Part.get (rndParamWrite v n) pt = Part.get n pt := by
  simp only [List.mem_cons, List.not_mem_nil, or_false, not_or] at hpt
  unfold rndParamWrite
  (repeat' split) <;> simp [hpt, get_upd_cal, get_foldl, get_ite]

theorem calApply_get {pt : Part} (n : Node)
    (hpt : pt ∉ [.cal]) : Part.get (calApply n) pt = Part.get n pt := by
  simp only [List.mem_cons, List.not_mem_nil, or_false, not_or] at hpt
  unfold calApply
  (repeat' split) <;> simp [hpt, get_upd_cal, get_foldl, get_ite]

theorem setCa_get {pt : Part} (c : Nat) (u : CaChan) (n : Node)
    (hpt : pt ∉ [.ca]) : Part.get (setCa c u n) pt = Part.get n pt := by
  simp only [List.mem_cons, List.not_mem_nil, or_false, not_or] at hpt
  unfold setCa
  (repeat' split) <;> simp [hpt, get_upd_ca, get_foldl, get_ite]

theorem modCa_get {pt : Part} (c : Nat) (f : CaChan → CaChan) (n : Node)
    (hpt : pt ∉ [.ca]) : Part.get (modCa c f n) pt = Part.get n pt := by
  simp only [List.mem_cons, List.not_mem_nil, or_false, not_or] at hpt
  unfold modCa
  (repeat' split) <;> simp [hpt, setCa_get, get_foldl, get_ite]

theorem caCheckReset_get {pt : Part} (c : Nat) (n : Node)
    (hpt : pt ∉ [.ca, .dupSent, .evt, .rcd]) : Part.get (caCheckReset c n) pt = Part.get n pt := by
  simp only [List.mem_cons, List.not_mem_nil, or_false, not_or] at hpt
  unfold caCheckReset
  (repeat' split) <;> simp [hpt, raiseIf_get, setCa_get, get_foldl, get_ite]

theorem caBegin_get {pt : Part} (c t : Nat) (n : Node)
    (hpt : pt ∉ [.ca, .dupSent, .evt, .rcd]) : Part.get (caBegin c t n) pt = Part.get n pt := by
  simp only [List.mem_cons, List.not_mem_nil, or_false, not_or] at hpt
  unfold caBegin
  (repeat' split) <;> simp [hpt, raiseIf_get, setCa_get, get_foldl, get_ite]

theorem caTrigger_get {pt : Part} (c t : Nat) (n : Node)
    (hpt : pt ∉ [.ca, .dupSent, .evt, .rcd]) : Part.get (caTrigger c t n) pt = Part.get n pt := by
  simp only [List.mem_cons, List.not_mem_nil, or_false, not_or] at hpt
  unfold caTrigger
  (repeat' split) <;> (try simp [hpt, caBegin_get, modCa_get, raiseIf_get, setCa_get, get_foldl, get_ite]) <;> (try intros) <;> (repeat' split) <;> (try simp_all [hpt, caBegin_get, modCa_get, raiseIf_get, setCa_get, get_foldl, get_ite])

theorem caConvEnd_get {pt : Part} (c : Nat) (q : Int) (n : Node)
    (hpt : pt ∉ [.ca, .dupSent, .evt, .rcd]) : Part.get (caConvEnd c q n) pt = Part.get n pt := by
  simp only [List.mem_cons, List.not_mem_nil, or_false, not_or] at hpt
  unfold caConvEnd
  dsimp only
  cases (n.caC c).conv with
  | none => rfl
  | some v => cases hon : n.caOn c <;> simp [hpt, hon, caCheckReset_get, raiseIf_get, setCa_get]

theorem caResetOpen_get {pt : Part} (c t : Nat) (n : Node)
    (hpt : pt ∉ [.ca, .dupSent, .evt, .rcd]) : Part.get (caResetOpen c t n) pt = Part.get n pt := by
  simp only [List.mem_cons, List.not_mem_nil, or_false, not_or] at hpt
  unfold caResetOpen
  (repeat' split) <;> simp [hpt, caCheckReset_get, setCa_get, get_foldl, get_ite]

theorem caAbandon_get {pt : Part} (c : Nat) (n : Node)
    (hpt : pt ∉ [.ca]) : Part.get (caAbandon c n) pt = Part.get n pt := by
  simp only [List.mem_cons, List.not_mem_nil, or_false, not_or] at hpt
  unfold caAbandon
  (repeat' split) <;> (try simp [hpt, setCa_get, get_foldl, get_ite]) <;> (try intros) <;> (repeat' split) <;> (try simp_all [hpt, setCa_get, get_foldl, get_ite])

theorem caAction_get {pt : Part} (c : Nat) (a : CaAct) (t : Nat) (n : Node)
    (hpt : pt ∉ [.ca, .dupSent, .evt, .rcd]) : Part.get (caAction c a t n) pt = Part.get n pt := by
  simp only [List.mem_cons, List.not_mem_nil, or_false, not_or] at hpt
  unfold caAction
  (repeat' split) <;> (try simp [hpt, raiseIf_get, setCa_get, get_foldl, get_ite]) <;> (try intros) <;> (repeat' split) <;> (try simp_all [hpt, raiseIf_get, setCa_get, get_foldl, get_ite])

theorem caCrank_get {pt : Part} (pf cpr cnt : Nat) (up : Bool) (phase : Nat → Bool) (n : Node)
    (hpt : pt ∉ [.ca]) : Part.get (caCrank pf cpr cnt up phase n) pt = Part.get n pt := by
  simp only [List.mem_cons, List.not_mem_nil, or_false, not_or] at hpt
  unfold caCrank
  (repeat' split) <;> simp [hpt, setCa_get, get_foldl, get_ite]

theorem caIndex_get {pt : Part} (pf : Nat) (n : Node)
    (hpt : pt ∉ [.ca]) : Part.get (caIndex pf n) pt = Part.get n pt := by
  simp only [List.mem_cons, List.not_mem_nil, or_false, not_or] at hpt
  unfold caIndex
  (repeat' split) <;> simp [hpt, modCa_get, get_foldl, get_ite]

theorem caAbandonAll_get {pt : Part} (pf : Nat) (n : Node)
    (hpt : pt ∉ [.ca]) : Part.get (caAbandonAll pf n) pt = Part.get n pt := by
  simp only [List.mem_cons, List.not_mem_nil, or_false, not_or] at hpt
  unfold caAbandonAll
  (repeat' split) <;> simp [hpt, caAbandon_get, get_foldl, get_ite]

theorem caRecord_get {pt : Part} (c t : Nat) (n : Node)
    (hpt : pt ∉ [.ca, .dupSent, .evt, .free, .rcd, .slots]) : Part.get (caRecord c t n) pt = Part.get n pt := by
  simp only [List.mem_cons, List.not_mem_nil, or_false, not_or] at hpt
  have hv : ∀ (l : List (Option Int)) (m : Node), Part.get (caValues l m).2 pt = Part.get m pt := by
    intro l
    induction l with
    | nil => intro m; rfl
    | cons v l ih =>
      intro m
      cases v with
      | some v => exact ih m
      | none => exact (ih _).trans (drawFree_get m (by simp [hpt]))
  unfold caRecord
  dsimp only
  split
  · rfl
  split
  · rfl
  split
  · simp [hpt, complete_get, raise_get, setCa_get, get_foldl, get_ite]
  · simp [hpt, complete_get, raise_get, setCa_get, get_foldl, get_ite, hv]

theorem caCtrlWrite_get {pt : Part} (c : Nat) (v : Word) (n : Node)
    (hpt : pt ∉ [.ca]) : Part.get (caCtrlWrite c v n) pt = Part.get n pt := by
  simp only [List.mem_cons, List.not_mem_nil, or_false, not_or] at hpt
  unfold caCtrlWrite
  (repeat' split) <;> simp [hpt, setCa_get, get_foldl, get_ite]

theorem caBufOpen_get {pt : Part} (p : HostPort) (c : Nat) (n : Node)
    (hpt : pt ∉ [.ca, .port p]) : Part.get (caBufOpen p c n) pt = Part.get n pt := by
  simp only [List.mem_cons, List.not_mem_nil, or_false, not_or] at hpt
  unfold caBufOpen
  (repeat' split) <;> simp [hpt, modPort_get, setCa_get, get_foldl, get_ite]

theorem caBufRelease_get {pt : Part} (p : HostPort) (c : Nat) (n : Node)
    (hpt : pt ∉ [.ca]) : Part.get (caBufRelease p c n) pt = Part.get n pt := by
  simp only [List.mem_cons, List.not_mem_nil, or_false, not_or] at hpt
  unfold caBufRelease
  (repeat' split) <;> simp [hpt, setCa_get, get_foldl, get_ite]

theorem caBufCtrl_get {pt : Part} (p : HostPort) (c : Nat) (v : Word) (n : Node)
    (hpt : pt ∉ [.ca, .port p]) : Part.get (caBufCtrl p c v n) pt = Part.get n pt := by
  simp only [List.mem_cons, List.not_mem_nil, or_false, not_or] at hpt
  unfold caBufCtrl
  (repeat' split) <;> simp [hpt, caBufOpen_get, caBufRelease_get, get_foldl, get_ite]

theorem caBufData_get {pt : Part} (p : HostPort) (c : Nat) (n : Node)
    (hpt : pt ∉ [.ca, .port p]) : Part.get (caBufData p c n).2.2 pt = Part.get n pt := by
  simp only [List.mem_cons, List.not_mem_nil, or_false, not_or] at hpt
  unfold caBufData
  (repeat' split) <;> (try simp [hpt, modPort_get, setCa_get, get_foldl, get_ite]) <;> (try intros) <;> (repeat' split) <;> (try simp_all [hpt, modPort_get, setCa_get, get_foldl, get_ite])

theorem caHoldTimeout_get {pt : Part} (p : HostPort) (c t : Nat) (n : Node)
    (hpt : pt ∉ [.ca]) : Part.get (caHoldTimeout p c t n) pt = Part.get n pt := by
  simp only [List.mem_cons, List.not_mem_nil, or_false, not_or] at hpt
  unfold caHoldTimeout
  (repeat' split) <;> simp [hpt, setCa_get, get_foldl, get_ite]

theorem caApply_get {pt : Part} (n : Node)
    (hpt : pt ∉ [.ca]) : Part.get (caApply n) pt = Part.get n pt := by
  simp only [List.mem_cons, List.not_mem_nil, or_false, not_or] at hpt
  unfold caApply
  (repeat' split) <;> simp [hpt, modCa_get, get_foldl, get_ite]

theorem caStart_get {pt : Part} (t : Nat) (n : Node)
    (hpt : pt ∉ [.ca]) : Part.get (caStart t n) pt = Part.get n pt := by
  simp only [List.mem_cons, List.not_mem_nil, or_false, not_or] at hpt
  unfold caStart
  (repeat' split) <;> simp [hpt, modCa_get, get_foldl, get_ite]

theorem caRole_get {pt : Part} (n : Node)
    (hpt : pt ∉ [.ca]) : Part.get (caRole n) pt = Part.get n pt := by
  simp only [List.mem_cons, List.not_mem_nil, or_false, not_or] at hpt
  unfold caRole
  (repeat' split) <;> simp [hpt, modCa_get, get_foldl, get_ite]

theorem caStop_get {pt : Part} (n : Node)
    (hpt : pt ∉ [.ca]) : Part.get (caStop n) pt = Part.get n pt := by
  simp only [List.mem_cons, List.not_mem_nil, or_false, not_or] at hpt
  unfold caStop
  (repeat' split) <;> simp [hpt, modCa_get, get_foldl, get_ite]

theorem caStatusClear_get {pt : Part} (c : Nat) (v : Word) (n : Node)
    (hpt : pt ∉ [.ca]) : Part.get (caStatusClear c v n) pt = Part.get n pt := by
  simp only [List.mem_cons, List.not_mem_nil, or_false, not_or] at hpt
  unfold caStatusClear
  (repeat' split) <;> simp [hpt, modCa_get, get_foldl, get_ite]

theorem caWrite_get {pt : Part} (p : HostPort) (c off : Nat) (v : Word) (n : Node)
    (hpt : pt ∉ [.ca, .port p]) : Part.get (caWrite p c off v n) pt = Part.get n pt := by
  simp only [List.mem_cons, List.not_mem_nil, or_false, not_or] at hpt
  unfold caWrite
  (repeat' split) <;> simp [hpt, modPort_get, caBufCtrl_get, caCtrlWrite_get, caStatusClear_get, get_foldl, get_ite]

end Sys2Proof.Machine
end

