-- ==== Sys2Proof/Laws/FrameOutputs.lean ====
section
/-! SUPPORT. What each operation of loop, digital and shaped outputs leaves as it was: every part outside the list it names. -/

namespace Sys2Proof.Machine
open Sys2Proof
set_option linter.all false

theorem setLo_get {pt : Part} (k : Nat) (u : LoChan) (n : Node)
    (hpt : pt ∉ [.lo]) : Part.get (setLo k u n) pt = Part.get n pt := by
  simp only [List.mem_cons, List.not_mem_nil, or_false, not_or] at hpt
  unfold setLo
  (repeat' split) <;> simp [hpt, get_upd_lo, get_foldl, get_ite]

theorem modLo_get {pt : Part} (k : Nat) (f : LoChan → LoChan) (n : Node)
    (hpt : pt ∉ [.lo]) : Part.get (modLo k f n) pt = Part.get n pt := by
  simp only [List.mem_cons, List.not_mem_nil, or_false, not_or] at hpt
  unfold modLo
  (repeat' split) <;> simp [hpt, setLo_get, get_foldl, get_ite]

theorem setPo_get {pt : Part} (k : Nat) (u : PoChan) (n : Node)
    (hpt : pt ∉ [.po]) : Part.get (setPo k u n) pt = Part.get n pt := by
  simp only [List.mem_cons, List.not_mem_nil, or_false, not_or] at hpt
  unfold setPo
  (repeat' split) <;> simp [hpt, get_upd_po, get_foldl, get_ite]

theorem modPo_get {pt : Part} (k : Nat) (f : PoChan → PoChan) (n : Node)
    (hpt : pt ∉ [.po]) : Part.get (modPo k f n) pt = Part.get n pt := by
  simp only [List.mem_cons, List.not_mem_nil, or_false, not_or] at hpt
  unfold modPo
  (repeat' split) <;> simp [hpt, setPo_get, get_foldl, get_ite]

theorem setHm_get {pt : Part} (m : Nat) (u : HartM) (n : Node)
    (hpt : pt ∉ [.hart]) : Part.get (setHm m u n) pt = Part.get n pt := by
  simp only [List.mem_cons, List.not_mem_nil, or_false, not_or] at hpt
  unfold setHm
  (repeat' split) <;> simp [hpt, get_upd_hart, get_foldl, get_ite]

theorem modHm_get {pt : Part} (m : Nat) (f : HartM → HartM) (n : Node)
    (hpt : pt ∉ [.hart]) : Part.get (modHm m f n) pt = Part.get n pt := by
  simp only [List.mem_cons, List.not_mem_nil, or_false, not_or] at hpt
  unfold modHm
  (repeat' split) <;> simp [hpt, setHm_get, get_foldl, get_ite]

theorem loUpdate_get {pt : Part} (k : Nat) (n : Node)
    (hpt : pt ∉ [.lo]) : Part.get (loUpdate k n) pt = Part.get n pt := by
  simp only [List.mem_cons, List.not_mem_nil, or_false, not_or] at hpt
  unfold loUpdate
  (repeat' split) <;> simp [hpt, modLo_get, get_foldl, get_ite]

theorem loDemandWrite_get {pt : Part} (k : Nat) (v : Word) (n : Node)
    (hpt : pt ∉ [.lo]) : Part.get (loDemandWrite k v n) pt = Part.get n pt := by
  simp only [List.mem_cons, List.not_mem_nil, or_false, not_or] at hpt
  unfold loDemandWrite
  (repeat' split) <;> simp [hpt, loUpdate_get, modLo_get, get_foldl, get_ite]

theorem loLane_get {pt : Part} (k : Nat) (ppm : Int) (off : Bool) (n : Node)
    (hpt : pt ∉ [.lo]) : Part.get (loLane k ppm off n) pt = Part.get n pt := by
  simp only [List.mem_cons, List.not_mem_nil, or_false, not_or] at hpt
  unfold loLane
  (repeat' split) <;> simp [hpt, loUpdate_get, modLo_get, get_foldl, get_ite]

theorem loFollow_get {pt : Part} (addr : Nat) (n : Node)
    (hpt : pt ∉ [.lo]) : Part.get (loFollow addr n) pt = Part.get n pt := by
  simp only [List.mem_cons, List.not_mem_nil, or_false, not_or] at hpt
  unfold loFollow
  (repeat' split) <;> simp [hpt, loUpdate_get, get_foldl, get_ite]

theorem loReadback_get {pt : Part} (k : Nat) (mean : Int) (comm : Bool) (t : Nat) (n : Node)
    (hpt : pt ∉ [.dupSent, .evt, .lo, .rcd, .slots]) : Part.get (loReadback k mean comm t n) pt = Part.get n pt := by
  simp only [List.mem_cons, List.not_mem_nil, or_false, not_or] at hpt
  unfold loReadback
  (repeat' split) <;> simp [hpt, complete_get, raiseIf_get, setLo_get, get_foldl, get_ite]

theorem loFieldLoss_get {pt : Part} (k : Nat) (lost : Bool) (n : Node)
    (hpt : pt ∉ [.dupSent, .evt, .lo, .rcd]) : Part.get (loFieldLoss k lost n) pt = Part.get n pt := by
  simp only [List.mem_cons, List.not_mem_nil, or_false, not_or] at hpt
  unfold loFieldLoss
  (repeat' split) <;> simp [hpt, raiseIf_get, setLo_get, get_foldl, get_ite]

theorem mwSet_get {pt : Part} (ch : Nat) (n : Node)
    (hpt : pt ∉ [.dupSent, .evt, .mw, .rcd]) : Part.get (mwSet ch n) pt = Part.get n pt := by
  simp only [List.mem_cons, List.not_mem_nil, or_false, not_or] at hpt
  unfold mwSet
  (repeat' split) <;> simp [hpt, raise_get, get_upd_mw, get_foldl, get_ite]

theorem mwClear_get {pt : Part} (ch : Nat) (n : Node)
    (hpt : pt ∉ [.mw]) : Part.get (mwClear ch n) pt = Part.get n pt := by
  simp only [List.mem_cons, List.not_mem_nil, or_false, not_or] at hpt
  unfold mwClear
  (repeat' split) <;> simp [hpt, get_upd_mw, get_foldl, get_ite]

theorem mwEffect_get {pt : Part} (ch t : Nat) (n : Node)
    (hpt : pt ∉ [.ca, .cal, .dupSent, .evt, .ex, .free, .lo, .rcd, .slots, .ui]) : Part.get (mwEffect ch t n) pt = Part.get n pt := by
  simp only [List.mem_cons, List.not_mem_nil, or_false, not_or] at hpt
  unfold mwEffect
  (repeat' split) <;> simp [hpt, exRequest_get, modCa_get, modEx_get, modLo_get, modUi_get, roundsOf_get, get_foldl, get_ite]

theorem mwRestore_get {pt : Part} (ch t : Nat) (n : Node)
    (hpt : pt ∉ [.cal, .dupSent, .evt, .ex, .free, .lo, .rcd, .slots, .ui]) : Part.get (mwRestore ch t n) pt = Part.get n pt := by
  simp only [List.mem_cons, List.not_mem_nil, or_false, not_or] at hpt
  unfold mwRestore
  (repeat' split) <;> simp [hpt, exUpdate_get, loUpdate_get, modLo_get, modUi_get, get_foldl, get_ite]

theorem uiMiswired_get {pt : Part} (c t : Nat) (n : Node)
    (hpt : pt ∉ [.dupSent, .evt, .rcd, .slots, .ui]) : Part.get (uiMiswired c t n) pt = Part.get n pt := by
  simp only [List.mem_cons, List.not_mem_nil, or_false, not_or] at hpt
  unfold uiMiswired
  (repeat' split) <;> simp [hpt, complete_get, setUi_get, get_foldl, get_ite]

theorem hartVar_get {pt : Part} (m t : Nat) (devStat : Byte) (n : Node) (x : Nat × Word × Option Nat)
    (hpt : pt ∉ [.dupSent, .evt, .rcd, .slots]) : Part.get (hartVar m t devStat n x) pt = Part.get n pt := by
  simp only [List.mem_cons, List.not_mem_nil, or_false, not_or] at hpt
  unfold hartVar
  (repeat' split) <;> simp [hpt, complete_get, get_foldl, get_ite]

theorem hartSend_get {pt : Part} (m a cmd : Nat) (long : Bool) (data : Bytes) (u : HartM) (n : Node)
    (hpt : pt ∉ [.hart, .tx]) : Part.get (hartSend m a cmd long data u n) pt = Part.get n pt := by
  simp only [List.mem_cons, List.not_mem_nil, or_false, not_or] at hpt
  unfold hartSend
  (repeat' split) <;> simp [hpt, setHm_get, get_upd_tx, get_foldl, get_ite]

theorem hartNext_get {pt : Part} (m : Nat) (n : Node)
    (hpt : pt ∉ [.hart, .tx]) : Part.get (hartNext m n) pt = Part.get n pt := by
  simp only [List.mem_cons, List.not_mem_nil, or_false, not_or] at hpt
  unfold hartNext
  (repeat' split) <;> (try simp [hpt, hartSend_get, get_foldl, get_ite]) <;> (try intros) <;> (repeat' split) <;> (try simp_all [hpt, hartSend_get, get_foldl, get_ite])

theorem hartDue_get {pt : Part} (v : Nat) (n : Node)
    (hpt : pt ∉ [.hart, .tx]) : Part.get (hartDue v n) pt = Part.get n pt := by
  simp only [List.mem_cons, List.not_mem_nil, or_false, not_or] at hpt
  unfold hartDue
  (repeat' split) <;> simp [hpt, hartNext_get, modHm_get, get_foldl, get_ite]

theorem netAck_get {pt : Part} (ch code : Nat) (n : Node)
    (hpt : pt ∉ [.dupSent, .evt, .mbx, .rcd]) : Part.get (netAck ch code n) pt = Part.get n pt := by
  simp only [List.mem_cons, List.not_mem_nil, or_false, not_or] at hpt
  unfold netAck
  (repeat' split) <;> simp [hpt, mbAck_get, get_foldl, get_ite]

theorem hartPassEnd_get {pt : Part} (m code : Nat) (resp : Option HartResp) (n : Node)
    (hpt : pt ∉ [.dupSent, .evt, .hart, .mbx, .rcd]) : Part.get (hartPassEnd m code resp n) pt = Part.get n pt := by
  simp only [List.mem_cons, List.not_mem_nil, or_false, not_or] at hpt
  unfold hartPassEnd
  (repeat' split) <;> (try simp [hpt, mbPostMsg_get, netAck_get, raise_get, raiseIf_get, setHm_get, get_foldl, get_ite]) <;> (try intros) <;> (repeat' split) <;> (try simp_all [hpt, mbPostMsg_get, netAck_get, raise_get, raiseIf_get, setHm_get, get_foldl, get_ite])

theorem hartFail_get {pt : Part} (m : Nat) (noResp : Bool) (n : Node)
    (hpt : pt ∉ [.dupSent, .evt, .hart, .mbx, .rcd]) : Part.get (hartFail m noResp n) pt = Part.get n pt := by
  simp only [List.mem_cons, List.not_mem_nil, or_false, not_or] at hpt
  unfold hartFail
  (repeat' split) <;> (try simp [hpt, hartPassEnd_get, raise_get, raiseIf_get, setHm_get, get_foldl, get_ite]) <;> (try intros) <;> (repeat' split) <;> (try simp_all [hpt, hartPassEnd_get, raise_get, raiseIf_get, setHm_get, get_foldl, get_ite])

theorem hartComplete_get {pt : Part} (m : Nat) (resp : HartResp) (t : Nat) (n : Node)
    (hpt : pt ∉ [.dupSent, .evt, .hart, .mbx, .rcd, .slots, .tx]) : Part.get (hartComplete m resp t n) pt = Part.get n pt := by
  simp only [List.mem_cons, List.not_mem_nil, or_false, not_or] at hpt
  unfold hartComplete
  (repeat' split) <;> (try simp [hpt, hartFail_get, hartNext_get, hartPassEnd_get, hartVar_get, modHm_get, setHm_get, get_foldl, get_ite]) <;> (try intros) <;> (repeat' split) <;> (try simp_all [hpt, hartFail_get, hartNext_get, hartPassEnd_get, hartVar_get, modHm_get, setHm_get, get_foldl, get_ite])

theorem hartNoResp_get {pt : Part} (m : Nat) (n : Node)
    (hpt : pt ∉ [.dupSent, .evt, .hart, .mbx, .rcd, .tx]) : Part.get (hartNoResp m n) pt = Part.get n pt := by
  simp only [List.mem_cons, List.not_mem_nil, or_false, not_or] at hpt
  unfold hartNoResp
  (repeat' split) <;> simp [hpt, hartFail_get, hartNext_get, get_foldl, get_ite]

theorem hartPassReq_get {pt : Part} (ch : Nat) (n : Node)
    (hpt : pt ∉ [.dupSent, .evt, .hart, .mbx, .rcd, .tx]) : Part.get (hartPassReq ch n) pt = Part.get n pt := by
  simp only [List.mem_cons, List.not_mem_nil, or_false, not_or] at hpt
  unfold hartPassReq
  (repeat' split) <;> simp [hpt, hartNext_get, modHm_get, netAck_get, get_foldl, get_ite]

theorem hmStatusClear_get {pt : Part} (m : Nat) (v : Word) (n : Node)
    (hpt : pt ∉ [.hart]) : Part.get (hmStatusClear m v n) pt = Part.get n pt := by
  simp only [List.mem_cons, List.not_mem_nil, or_false, not_or] at hpt
  unfold hmStatusClear
  (repeat' split) <;> simp [hpt, modHm_get, get_foldl, get_ite]

theorem poUpdate_get {pt : Part} (k : Nat) (n : Node)
    (hpt : pt ∉ [.dupSent, .evt, .po, .rcd]) : Part.get (poUpdate k n) pt = Part.get n pt := by
  simp only [List.mem_cons, List.not_mem_nil, or_false, not_or] at hpt
  unfold poUpdate
  (repeat' split) <;> simp [hpt, modPo_get, raiseIf_get, setPo_get, get_foldl, get_ite]

theorem poTake_get {pt : Part} (k : Nat) (n : Node)
    (hpt : pt ∉ [.dupSent, .evt, .po, .rcd]) : Part.get (poTake k n) pt = Part.get n pt := by
  simp only [List.mem_cons, List.not_mem_nil, or_false, not_or] at hpt
  unfold poTake
  (repeat' split) <;> simp [hpt, modPo_get, poUpdate_get, get_foldl, get_ite]

theorem poBoundary_get {pt : Part} (k : Nat) (n : Node)
    (hpt : pt ∉ [.dupSent, .evt, .po, .rcd]) : Part.get (poBoundary k n) pt = Part.get n pt := by
  simp only [List.mem_cons, List.not_mem_nil, or_false, not_or] at hpt
  unfold poBoundary
  (repeat' split) <;> simp [hpt, poTake_get, get_foldl, get_ite]

theorem poFine_get {pt : Part} (n : Node)
    (hpt : pt ∉ [.dupSent, .evt, .po, .rcd]) : Part.get (poFine n) pt = Part.get n pt := by
  simp only [List.mem_cons, List.not_mem_nil, or_false, not_or] at hpt
  unfold poFine
  refine get_foldl _ _ _ (fun m a => ?_)
  dsimp only
  (repeat' split) <;> simp [hpt, poTake_get, get_foldl, get_ite]

theorem poPulse_get {pt : Part} (k t : Nat) (n : Node)
    (hpt : pt ∉ [.po]) : Part.get (poPulse k t n) pt = Part.get n pt := by
  simp only [List.mem_cons, List.not_mem_nil, or_false, not_or] at hpt
  unfold poPulse
  (repeat' split) <;> simp [hpt, modPo_get, get_foldl, get_ite]

theorem poPulseEnd_get {pt : Part} (k t : Nat) (n : Node)
    (hpt : pt ∉ [.po]) : Part.get (poPulseEnd k t n) pt = Part.get n pt := by
  simp only [List.mem_cons, List.not_mem_nil, or_false, not_or] at hpt
  unfold poPulseEnd
  (repeat' split) <;> simp [hpt, modPo_get, get_foldl, get_ite]

theorem poSetWrite_get {pt : Part} (k : Nat) (v : Word) (n : Node)
    (hpt : pt ∉ [.dupSent, .evt, .po, .rcd]) : Part.get (poSetWrite k v n) pt = Part.get n pt := by
  simp only [List.mem_cons, List.not_mem_nil, or_false, not_or] at hpt
  unfold poSetWrite
  (repeat' split) <;> simp [hpt, modPo_get, poUpdate_get, get_foldl, get_ite]

theorem poLane_get {pt : Part} (k : Nat) (ppm : Int) (off : Bool) (n : Node)
    (hpt : pt ∉ [.dupSent, .evt, .po, .rcd]) : Part.get (poLane k ppm off n) pt = Part.get n pt := by
  simp only [List.mem_cons, List.not_mem_nil, or_false, not_or] at hpt
  unfold poLane
  (repeat' split) <;> simp [hpt, modPo_get, poUpdate_get, get_foldl, get_ite]

theorem poFollow_get {pt : Part} (addr : Nat) (n : Node)
    (hpt : pt ∉ [.dupSent, .evt, .po, .rcd]) : Part.get (poFollow addr n) pt = Part.get n pt := by
  simp only [List.mem_cons, List.not_mem_nil, or_false, not_or] at hpt
  unfold poFollow
  (repeat' split) <;> simp [hpt, poUpdate_get, get_foldl, get_ite]

theorem srcSync_get {pt : Part} (n : Node)
    (hpt : pt ∉ [.dupSent, .evt, .lo, .po, .rcd]) : Part.get (srcSync n) pt = Part.get n pt := by
  simp only [List.mem_cons, List.not_mem_nil, or_false, not_or] at hpt
  unfold srcSync
  (repeat' split) <;> simp [hpt, loUpdate_get, poUpdate_get, get_foldl, get_ite]

theorem loHoldCommit_get {pt : Part} (n : Node)
    (hpt : pt ∉ [.lo, .po]) : Part.get (loHoldCommit n) pt = Part.get n pt := by
  simp only [List.mem_cons, List.not_mem_nil, or_false, not_or] at hpt
  unfold loHoldCommit
  (repeat' split) <;> simp [hpt, modLo_get, modPo_get, get_foldl, get_ite]

theorem loRunEntry_get {pt : Part} (n : Node)
    (hpt : pt ∉ [.dupSent, .evt, .lo, .po, .rcd]) : Part.get (loRunEntry n) pt = Part.get n pt := by
  simp only [List.mem_cons, List.not_mem_nil, or_false, not_or] at hpt
  unfold loRunEntry
  (repeat' split) <;> simp [hpt, loUpdate_get, poTake_get, get_foldl, get_ite]

theorem loSafeEntry_get {pt : Part} (n : Node)
    (hpt : pt ∉ [.po]) : Part.get (loSafeEntry n) pt = Part.get n pt := by
  simp only [List.mem_cons, List.not_mem_nil, or_false, not_or] at hpt
  unfold loSafeEntry
  (repeat' split) <;> simp [hpt, modPo_get, get_foldl, get_ite]

theorem loApply_get {pt : Part} (n : Node)
    (hpt : pt ∉ [.hart, .lo, .po]) : Part.get (loApply n) pt = Part.get n pt := by
  simp only [List.mem_cons, List.not_mem_nil, or_false, not_or] at hpt
  unfold loApply
  (repeat' split) <;> simp [hpt, modLo_get, modPo_get, get_upd_hart, get_foldl, get_ite]

theorem loStatusClear_get {pt : Part} (k : Nat) (v : Word) (n : Node)
    (hpt : pt ∉ [.lo]) : Part.get (loStatusClear k v n) pt = Part.get n pt := by
  simp only [List.mem_cons, List.not_mem_nil, or_false, not_or] at hpt
  unfold loStatusClear
  (repeat' split) <;> simp [hpt, modLo_get, get_foldl, get_ite]

theorem loWrite_get {pt : Part} (k off : Nat) (v : Word) (n : Node)
    (hpt : pt ∉ [.hart, .lo]) : Part.get (loWrite k off v n) pt = Part.get n pt := by
  simp only [List.mem_cons, List.not_mem_nil, or_false, not_or] at hpt
  unfold loWrite
  (repeat' split) <;> simp [hpt, hmStatusClear_get, loDemandWrite_get, loStatusClear_get, get_foldl, get_ite]

theorem poStatusClear_get {pt : Part} (k : Nat) (v : Word) (n : Node)
    (hpt : pt ∉ [.po]) : Part.get (poStatusClear k v n) pt = Part.get n pt := by
  simp only [List.mem_cons, List.not_mem_nil, or_false, not_or] at hpt
  unfold poStatusClear
  (repeat' split) <;> simp [hpt, modPo_get, get_foldl, get_ite]

theorem poWrite_get {pt : Part} (k off : Nat) (v : Word) (n : Node)
    (hpt : pt ∉ [.dupSent, .evt, .po, .rcd]) : Part.get (poWrite k off v n) pt = Part.get n pt := by
  simp only [List.mem_cons, List.not_mem_nil, or_false, not_or] at hpt
  unfold poWrite
  (repeat' split) <;> simp [hpt, poSetWrite_get, poStatusClear_get, get_foldl, get_ite]

theorem mwFlgWrite_get {pt : Part} (m : Nat) (v : Word) (n : Node)
    (hpt : pt ∉ [.mw]) : Part.get (mwFlgWrite m v n) pt = Part.get n pt := by
  simp only [List.mem_cons, List.not_mem_nil, or_false, not_or] at hpt
  unfold mwFlgWrite
  (repeat' split) <;> simp [hpt, get_upd_mw, get_foldl, get_ite]

theorem setDi_get {pt : Part} (k : Nat) (u : DiChan) (n : Node)
    (hpt : pt ∉ [.digIn]) : Part.get (setDi k u n) pt = Part.get n pt := by
  simp only [List.mem_cons, List.not_mem_nil, or_false, not_or] at hpt
  unfold setDi
  (repeat' split) <;> simp [hpt, get_upd_dig, get_foldl, get_ite]

theorem setSs_get {pt : Part} (k : Nat) (u : SsChan) (n : Node)
    (hpt : pt ∉ [.digIn]) : Part.get (setSs k u n) pt = Part.get n pt := by
  simp only [List.mem_cons, List.not_mem_nil, or_false, not_or] at hpt
  unfold setSs
  (repeat' split) <;> simp [hpt, get_upd_dig, get_foldl, get_ite]

theorem setDo_get {pt : Part} (k : Nat) (u : DoChan) (n : Node)
    (hpt : pt ∉ [.digOut]) : Part.get (setDo k u n) pt = Part.get n pt := by
  simp only [List.mem_cons, List.not_mem_nil, or_false, not_or] at hpt
  unfold setDo
  (repeat' split) <;> simp [hpt, get_upd_dig, get_foldl, get_ite]

theorem modDo_get {pt : Part} (k : Nat) (f : DoChan → DoChan) (n : Node)
    (hpt : pt ∉ [.digOut]) : Part.get (modDo k f n) pt = Part.get n pt := by
  simp only [List.mem_cons, List.not_mem_nil, or_false, not_or] at hpt
  unfold modDo
  (repeat' split) <;> simp [hpt, setDo_get, get_foldl, get_ite]

theorem ssOverload_get {pt : Part} (s t : Nat) (n : Node)
    (hpt : pt ∉ [.digIn, .dupSent, .evt, .rcd]) : Part.get (ssOverload s t n) pt = Part.get n pt := by
  simp only [List.mem_cons, List.not_mem_nil, or_false, not_or] at hpt
  unfold ssOverload
  (repeat' split) <;> simp [hpt, raise_get, setSs_get, get_foldl, get_ite]

theorem ssRetry_get {pt : Part} (s : Nat) (ok : Bool) (t : Nat) (n : Node)
    (hpt : pt ∉ [.digIn]) : Part.get (ssRetry s ok t n) pt = Part.get n pt := by
  simp only [List.mem_cons, List.not_mem_nil, or_false, not_or] at hpt
  unfold ssRetry
  (repeat' split) <;> simp [hpt, setSs_get, get_foldl, get_ite]

theorem ssCtrlWrite_get {pt : Part} (s : Nat) (v : Word) (n : Node)
    (hpt : pt ∉ [.digIn]) : Part.get (ssCtrlWrite s v n) pt = Part.get n pt := by
  simp only [List.mem_cons, List.not_mem_nil, or_false, not_or] at hpt
  unfold ssCtrlWrite
  (repeat' split) <;> simp [hpt, setSs_get, get_foldl, get_ite]

theorem ssInit_get {pt : Part} (n : Node)
    (hpt : pt ∉ [.digIn]) : Part.get (ssInit n) pt = Part.get n pt := by
  simp only [List.mem_cons, List.not_mem_nil, or_false, not_or] at hpt
  unfold ssInit
  (repeat' split) <;> simp [hpt, setSs_get, get_foldl, get_ite]

theorem diAccept_get {pt : Part} (k : Nat) (lvl : Bool) (t : Nat) (n : Node)
    (hpt : pt ∉ [.digIn, .dupSent, .evt, .rcd]) : Part.get (diAccept k lvl t n) pt = Part.get n pt := by
  simp only [List.mem_cons, List.not_mem_nil, or_false, not_or] at hpt
  unfold diAccept
  (repeat' split) <;> simp [hpt, raiseIf_get, recOcc_get, setDi_get, get_foldl, get_ite]

theorem diOpenWire_get {pt : Part} (k : Nat) (opn : Bool) (n : Node)
    (hpt : pt ∉ [.digIn, .dupSent, .evt, .rcd]) : Part.get (diOpenWire k opn n) pt = Part.get n pt := by
  simp only [List.mem_cons, List.not_mem_nil, or_false, not_or] at hpt
  unfold diOpenWire
  (repeat' split) <;> simp [hpt, raiseIf_get, setDi_get, get_foldl, get_ite]

theorem diOt_get {pt : Part} (g : Nat) (on : Bool) (n : Node)
    (hpt : pt ∉ [.digIn]) : Part.get (diOt g on n) pt = Part.get n pt := by
  simp only [List.mem_cons, List.not_mem_nil, or_false, not_or] at hpt
  unfold diOt
  (repeat' split) <;> simp [hpt, get_upd_dig, get_foldl, get_ite]

theorem diRecord_get {pt : Part} (t : Nat) (n : Node) (g : Nat)
    (hpt : pt ∉ [.digOut, .dupSent, .evt, .rcd, .slots]) : Part.get (diRecord t n g) pt = Part.get n pt := by
  simp only [List.mem_cons, List.not_mem_nil, or_false, not_or] at hpt
  unfold diRecord
  (repeat' split) <;> simp [hpt, complete_get, get_upd_dig, get_foldl, get_ite]

theorem diSync_get {pt : Part} (n : Node)
    (hpt : pt ∉ [.digOut]) : Part.get (diSync n) pt = Part.get n pt := by
  simp only [List.mem_cons, List.not_mem_nil, or_false, not_or] at hpt
  unfold diSync
  (repeat' split) <;> simp [hpt, get_upd_dig, get_foldl, get_ite]

theorem setCmp_get {pt : Part} (t : Nat) (b : Bool) (n : Node)
    (hpt : pt ∉ [.il]) : Part.get (setCmp t b n) pt = Part.get n pt := by
  simp only [List.mem_cons, List.not_mem_nil, or_false, not_or] at hpt
  unfold setCmp
  (repeat' split) <;> simp [hpt, get_upd_il, get_foldl, get_ite]

theorem ilUi_get {pt : Part} (c : Nat) (x : Int) (n : Node)
    (hpt : pt ∉ [.il]) : Part.get (ilUi c x n) pt = Part.get n pt := by
  simp only [List.mem_cons, List.not_mem_nil, or_false, not_or] at hpt
  unfold ilUi
  (repeat' split) <;> simp [hpt, setCmp_get, get_foldl, get_ite]

theorem ilCa_get {pt : Part} (c : Nat) (x : Int) (n : Node)
    (hpt : pt ∉ [.il]) : Part.get (ilCa c x n) pt = Part.get n pt := by
  simp only [List.mem_cons, List.not_mem_nil, or_false, not_or] at hpt
  unfold ilCa
  (repeat' split) <;> simp [hpt, setCmp_get, get_upd_il, get_foldl, get_ite]

theorem ilTerm_get {pt : Part} (n : Node) (r : Bytes)
    (hpt : pt ∉ [.dupSent, .evt, .il, .rcd]) : Part.get (ilTerm n r) pt = Part.get n pt := by
  simp only [List.mem_cons, List.not_mem_nil, or_false, not_or] at hpt
  unfold ilTerm
  (repeat' split) <;> simp [hpt, raise_get, recNote_get, get_upd_il, get_foldl, get_ite]

theorem ilEval_get {pt : Part} (n : Node)
    (hpt : pt ∉ [.dupSent, .evt, .il, .rcd]) : Part.get (ilEval n) pt = Part.get n pt := by
  simp only [List.mem_cons, List.not_mem_nil, or_false, not_or] at hpt
  unfold ilEval
  (repeat' split) <;> simp [hpt, ilTerm_get, setCmp_get, get_upd_il, get_foldl, get_ite]

theorem ilResetWrite_get {pt : Part} (v : Word) (n : Node)
    (hpt : pt ∉ [.il, .ilRefused]) : Part.get (ilResetWrite v n) pt = Part.get n pt := by
  simp only [List.mem_cons, List.not_mem_nil, or_false, not_or] at hpt
  unfold ilResetWrite
  (repeat' split) <;> simp [hpt, get_upd_il, get_foldl, get_ite]

theorem ilApply_get {pt : Part} (n : Node)
    (hpt : pt ∉ [.il]) : Part.get (ilApply n) pt = Part.get n pt := by
  simp only [List.mem_cons, List.not_mem_nil, or_false, not_or] at hpt
  unfold ilApply
  (repeat' split) <;> simp [hpt, get_upd_il, get_foldl, get_ite]

theorem doRecord_get {pt : Part} (t : Nat) (n : Node) (f : Nat)
    (hpt : pt ∉ [.digOut, .dupSent, .evt, .rcd, .slots]) : Part.get (doRecord t n f) pt = Part.get n pt := by
  simp only [List.mem_cons, List.not_mem_nil, or_false, not_or] at hpt
  unfold doRecord
  (repeat' split) <;> simp [hpt, complete_get, get_upd_dig, get_foldl, get_ite]

theorem doStep_get {pt : Part} (n : Node) (k : Nat)
    (hpt : pt ∉ [.digOut, .rcd]) : Part.get (doStep n k) pt = Part.get n pt := by
  simp only [List.mem_cons, List.not_mem_nil, or_false, not_or] at hpt
  unfold doStep
  (repeat' split) <;> simp [hpt, recOccIf_get, setDo_get, get_foldl, get_ite]

theorem doSync_get {pt : Part} (n : Node)
    (hpt : pt ∉ [.digOut, .rcd]) : Part.get (doSync n) pt = Part.get n pt := by
  simp only [List.mem_cons, List.not_mem_nil, or_false, not_or] at hpt
  unfold doSync
  (repeat' split) <;> simp [hpt, doStep_get, get_upd_dig, get_foldl, get_ite]

theorem doCmdWrite_get {pt : Part} (k : Nat) (on : Bool) (n : Node)
    (hpt : pt ∉ [.digOut]) : Part.get (doCmdWrite k on n) pt = Part.get n pt := by
  simp only [List.mem_cons, List.not_mem_nil, or_false, not_or] at hpt
  unfold doCmdWrite
  (repeat' split) <;> simp [hpt, modDo_get, get_foldl, get_ite]

theorem tpStart_get {pt : Part} (k t : Nat) (n : Node)
    (hpt : pt ∉ [.digOut]) : Part.get (tpStart k t n) pt = Part.get n pt := by
  simp only [List.mem_cons, List.not_mem_nil, or_false, not_or] at hpt
  unfold tpStart
  (repeat' split) <;> simp [hpt, setDo_get, get_foldl, get_ite]

theorem tpOffEdge_get {pt : Part} (k t : Nat) (n : Node)
    (hpt : pt ∉ [.digOut]) : Part.get (tpOffEdge k t n) pt = Part.get n pt := by
  simp only [List.mem_cons, List.not_mem_nil, or_false, not_or] at hpt
  unfold tpOffEdge
  (repeat' split) <;> simp [hpt, modDo_get, get_foldl, get_ite]

theorem tpRunEntry_get {pt : Part} (t : Nat) (n : Node)
    (hpt : pt ∉ [.digOut]) : Part.get (tpRunEntry t n) pt = Part.get n pt := by
  simp only [List.mem_cons, List.not_mem_nil, or_false, not_or] at hpt
  unfold tpRunEntry
  (repeat' split) <;> simp [hpt, modDo_get, tpStart_get, get_foldl, get_ite]

theorem doLane_get {pt : Part} (k : Nat) (ppm : Int) (off : Bool) (n : Node)
    (hpt : pt ∉ [.digOut]) : Part.get (doLane k ppm off n) pt = Part.get n pt := by
  simp only [List.mem_cons, List.not_mem_nil, or_false, not_or] at hpt
  unfold doLane
  (repeat' split) <;> simp [hpt, modDo_get, get_foldl, get_ite]

theorem doHoldCommit_get {pt : Part} (n : Node)
    (hpt : pt ∉ [.digOut]) : Part.get (doHoldCommit n) pt = Part.get n pt := by
  simp only [List.mem_cons, List.not_mem_nil, or_false, not_or] at hpt
  unfold doHoldCommit
  (repeat' split) <;> simp [hpt, modDo_get, get_foldl, get_ite]

theorem doPulse_get {pt : Part} (k t : Nat) (n : Node)
    (hpt : pt ∉ [.digOut]) : Part.get (doPulse k t n) pt = Part.get n pt := by
  simp only [List.mem_cons, List.not_mem_nil, or_false, not_or] at hpt
  unfold doPulse
  (repeat' split) <;> simp [hpt, modDo_get, get_foldl, get_ite]

theorem doPulseEnd_get {pt : Part} (k t : Nat) (n : Node)
    (hpt : pt ∉ [.digOut]) : Part.get (doPulseEnd k t n) pt = Part.get n pt := by
  simp only [List.mem_cons, List.not_mem_nil, or_false, not_or] at hpt
  unfold doPulseEnd
  (repeat' split) <;> simp [hpt, setDo_get, get_foldl, get_ite]

theorem doOverload_get {pt : Part} (k : Nat) (n : Node)
    (hpt : pt ∉ [.digOut, .dupSent, .evt, .rcd]) : Part.get (doOverload k n) pt = Part.get n pt := by
  simp only [List.mem_cons, List.not_mem_nil, or_false, not_or] at hpt
  unfold doOverload
  (repeat' split) <;> simp [hpt, raise_get, recOcc_get, setDo_get, get_foldl, get_ite]

theorem doOvertemp_get {pt : Part} (k : Nat) (n : Node)
    (hpt : pt ∉ [.digOut, .dupSent, .evt, .rcd]) : Part.get (doOvertemp k n) pt = Part.get n pt := by
  simp only [List.mem_cons, List.not_mem_nil, or_false, not_or] at hpt
  unfold doOvertemp
  (repeat' split) <;> simp [hpt, raise_get, setDo_get, get_foldl, get_ite]

theorem doOvertempClear_get {pt : Part} (k : Nat) (n : Node)
    (hpt : pt ∉ [.digOut]) : Part.get (doOvertempClear k n) pt = Part.get n pt := by
  simp only [List.mem_cons, List.not_mem_nil, or_false, not_or] at hpt
  unfold doOvertempClear
  (repeat' split) <;> simp [hpt, modDo_get, get_foldl, get_ite]

theorem doOpenWire_get {pt : Part} (k : Nat) (which opn : Bool) (t : Nat) (n : Node)
    (hpt : pt ∉ [.digOut, .dupSent, .evt, .rcd]) : Part.get (doOpenWire k which opn t n) pt = Part.get n pt := by
  simp only [List.mem_cons, List.not_mem_nil, or_false, not_or] at hpt
  unfold doOpenWire
  (repeat' split) <;> simp [hpt, raiseIf_get, setDo_get, get_foldl, get_ite]

theorem darkTest_get {pt : Part} (k t : Nat) (n : Node)
    (hpt : pt ∉ [.digOut]) : Part.get (darkTest k t n) pt = Part.get n pt := by
  simp only [List.mem_cons, List.not_mem_nil, or_false, not_or] at hpt
  unfold darkTest
  (repeat' split) <;> simp [hpt, setDo_get, get_foldl, get_ite]

theorem darkEnd_get {pt : Part} (k : Nat) (fell : Bool) (t : Nat) (n : Node)
    (hpt : pt ∉ [.digOut, .dupSent, .evt, .rcd]) : Part.get (darkEnd k fell t n) pt = Part.get n pt := by
  simp only [List.mem_cons, List.not_mem_nil, or_false, not_or] at hpt
  unfold darkEnd
  (repeat' split) <;> simp [hpt, raiseIf_get, setDo_get, get_foldl, get_ite]

theorem fpSet_get {pt : Part} (f mv : Nat) (n : Node)
    (hpt : pt ∉ [.digIn]) : Part.get (fpSet f mv n) pt = Part.get n pt := by
  simp only [List.mem_cons, List.not_mem_nil, or_false, not_or] at hpt
  unfold fpSet
  (repeat' split) <;> simp [hpt, get_upd_dig, get_foldl, get_ite]

theorem digScan_get {pt : Part} (t : Nat) (n : Node)
    (hpt : pt ∉ [.digOut, .dupSent, .evt, .rcd, .slots]) : Part.get (digScan t n) pt = Part.get n pt := by
  simp only [List.mem_cons, List.not_mem_nil, or_false, not_or] at hpt
  unfold digScan
  (repeat' split) <;> simp [hpt, diRecord_get, doRecord_get, get_foldl, get_ite]

theorem digFine_get {pt : Part} (t : Nat) (n : Node)
    (hpt : pt ∉ [.digOut, .dupSent, .evt, .rcd, .slots]) : Part.get (digFine t n) pt = Part.get n pt := by
  simp only [List.mem_cons, List.not_mem_nil, or_false, not_or] at hpt
  unfold digFine
  (repeat' split) <;> simp [hpt, diRecord_get, doRecord_get, get_foldl, get_ite]

theorem pinsSet_get {pt : Part} (pins : Word) (n : Node)
    (hpt : pt ∉ [.digIn]) : Part.get (pinsSet pins n) pt = Part.get n pt := by
  simp only [List.mem_cons, List.not_mem_nil, or_false, not_or] at hpt
  unfold pinsSet
  (repeat' split) <;> simp [hpt, get_upd_dig, get_foldl, get_ite]

theorem digApply_get {pt : Part} (oldOn : Nat → Bool) (n : Node)
    (hpt : pt ∉ [.digIn, .digOut]) : Part.get (digApply oldOn n) pt = Part.get n pt := by
  simp only [List.mem_cons, List.not_mem_nil, or_false, not_or] at hpt
  unfold digApply
  (repeat' split) <;> simp [hpt, modDo_get, setDi_get, ssInit_get, get_foldl, get_ite]

theorem digReady_get {pt : Part} (n : Node)
    (hpt : pt ∉ [.digIn]) : Part.get (digReady n) pt = Part.get n pt := by
  simp only [List.mem_cons, List.not_mem_nil, or_false, not_or] at hpt
  unfold digReady
  (repeat' split) <;> simp [hpt, setDi_get, get_foldl, get_ite]

theorem digWrite_get {pt : Part} (addr : Nat) (v : Word) (n : Node)
    (hpt : pt ∉ [.digIn, .digOut, .il, .ilRefused]) : Part.get (digWrite addr v n) pt = Part.get n pt := by
  simp only [List.mem_cons, List.not_mem_nil, or_false, not_or] at hpt
  unfold digWrite
  (repeat' split) <;> simp [hpt, doCmdWrite_get, ilResetWrite_get, modDo_get, setDi_get, setSs_get, ssCtrlWrite_get, get_upd_il, get_foldl, get_ite]

theorem setSv_get {pt : Part} (k : Nat) (u : SvChan) (n : Node)
    (hpt : pt ∉ [.shp]) : Part.get (setSv k u n) pt = Part.get n pt := by
  simp only [List.mem_cons, List.not_mem_nil, or_false, not_or] at hpt
  unfold setSv
  (repeat' split) <;> simp [hpt, get_upd_shp, get_foldl, get_ite]

theorem modSv_get {pt : Part} (k : Nat) (f : SvChan → SvChan) (n : Node)
    (hpt : pt ∉ [.shp]) : Part.get (modSv k f n) pt = Part.get n pt := by
  simp only [List.mem_cons, List.not_mem_nil, or_false, not_or] at hpt
  unfold modSv
  (repeat' split) <;> simp [hpt, setSv_get, get_foldl, get_ite]

theorem setHb_get {pt : Part} (k : Nat) (u : Bank) (n : Node)
    (hpt : pt ∉ [.shp]) : Part.get (setHb k u n) pt = Part.get n pt := by
  simp only [List.mem_cons, List.not_mem_nil, or_false, not_or] at hpt
  unfold setHb
  (repeat' split) <;> simp [hpt, get_upd_shp, get_foldl, get_ite]

theorem svSubMark_get {pt : Part} (b : Nat) (n : Node)
    (hpt : pt ∉ [.shp]) : Part.get (svSubMark b n) pt = Part.get n pt := by
  simp only [List.mem_cons, List.not_mem_nil, or_false, not_or] at hpt
  unfold svSubMark
  (repeat' split) <;> simp [hpt, modSv_get, get_foldl, get_ite]

theorem svRecord_get {pt : Part} (k t : Nat) (n : Node)
    (hpt : pt ∉ [.dupSent, .evt, .rcd, .slots]) : Part.get (svRecord k t n) pt = Part.get n pt := by
  simp only [List.mem_cons, List.not_mem_nil, or_false, not_or] at hpt
  unfold svRecord
  (repeat' split) <;> simp [hpt, complete_get, get_foldl, get_ite]

theorem svAbort_get {pt : Part} (k t : Nat) (n : Node)
    (hpt : pt ∉ [.dupSent, .evt, .rcd, .shp, .slots]) : Part.get (svAbort k t n) pt = Part.get n pt := by
  simp only [List.mem_cons, List.not_mem_nil, or_false, not_or] at hpt
  unfold svAbort
  (repeat' split) <;> simp [hpt, setSv_get, svRecord_get, svSubMark_get, get_foldl, get_ite]

theorem svStart_get {pt : Part} (k prof dur t rank : Nat) (n : Node)
    (hpt : pt ∉ [.dupSent, .evt, .rcd, .shp, .slots]) : Part.get (svStart k prof dur t rank n) pt = Part.get n pt := by
  simp only [List.mem_cons, List.not_mem_nil, or_false, not_or] at hpt
  unfold svStart
  (repeat' split) <;> simp [hpt, modSv_get, raise_get, recOcc_get, setSv_get, svAbort_get, get_foldl, get_ite]

theorem svFire_get {pt : Part} (k prof dur t rank : Nat) (n : Node)
    (hpt : pt ∉ [.dupSent, .evt, .rcd, .shp, .slots]) : Part.get (svFire k prof dur t rank n) pt = Part.get n pt := by
  simp only [List.mem_cons, List.not_mem_nil, or_false, not_or] at hpt
  unfold svFire
  (repeat' split) <;> simp [hpt, modSv_get, raise_get, setSv_get, svAbort_get, svStart_get, get_foldl, get_ite]

theorem svQueued_get {pt : Part} (k t : Nat) (n : Node)
    (hpt : pt ∉ [.dupSent, .evt, .rcd, .shp, .slots]) : Part.get (svQueued k t n) pt = Part.get n pt := by
  simp only [List.mem_cons, List.not_mem_nil, or_false, not_or] at hpt
  unfold svQueued
  (repeat' split) <;> (try simp [hpt, svStart_get, get_foldl, get_ite]) <;> (try intros) <;> (repeat' split) <;> (try simp_all [hpt, svStart_get, get_foldl, get_ite])

theorem svLane_get {pt : Part} (k : Nat) (ppm : Int) (period t : Nat) (n : Node)
    (hpt : pt ∉ [.dupSent, .evt, .rcd, .shp, .slots]) : Part.get (svLane k ppm period t n) pt = Part.get n pt := by
  simp only [List.mem_cons, List.not_mem_nil, or_false, not_or] at hpt
  unfold svLane
  (repeat' split) <;> simp [hpt, modSv_get, svFire_get, get_foldl, get_ite]

theorem svEnd_get {pt : Part} (k t : Nat) (n : Node)
    (hpt : pt ∉ [.dupSent, .evt, .rcd, .shp, .slots]) : Part.get (svEnd k t n) pt = Part.get n pt := by
  simp only [List.mem_cons, List.not_mem_nil, or_false, not_or] at hpt
  unfold svEnd
  (repeat' split) <;> simp [hpt, setSv_get, svRecord_get, svSubMark_get, get_foldl, get_ite]

theorem svTarget_get {pt : Part} (k : Nat) (w : Word) (limit : Bool) (n : Node)
    (hpt : pt ∉ [.shp]) : Part.get (svTarget k w limit n) pt = Part.get n pt := by
  simp only [List.mem_cons, List.not_mem_nil, or_false, not_or] at hpt
  unfold svTarget
  (repeat' split) <;> simp [hpt, setSv_get, get_foldl, get_ite]

theorem svExpire_get {pt : Part} (k : Nat) (n : Node)
    (hpt : pt ∉ [.dupSent, .evt, .rcd, .shp]) : Part.get (svExpire k n) pt = Part.get n pt := by
  simp only [List.mem_cons, List.not_mem_nil, or_false, not_or] at hpt
  unfold svExpire
  (repeat' split) <;> simp [hpt, modSv_get, raise_get, setHb_get, svTarget_get, get_foldl, get_ite]

theorem svPeak_get {pt : Part} (k t : Nat) (n : Node)
    (hpt : pt ∉ [.dupSent, .evt, .rcd, .shp]) : Part.get (svPeak k t n) pt = Part.get n pt := by
  simp only [List.mem_cons, List.not_mem_nil, or_false, not_or] at hpt
  unfold svPeak
  (repeat' split) <;> simp [hpt, setHb_get, setSv_get, svExpire_get, svTarget_get, get_foldl, get_ite]

theorem svSeti_get {pt : Part} (k t : Nat) (n : Node)
    (hpt : pt ∉ [.dupSent, .evt, .rcd, .shp]) : Part.get (svSeti k t n) pt = Part.get n pt := by
  simp only [List.mem_cons, List.not_mem_nil, or_false, not_or] at hpt
  unfold svSeti
  (repeat' split) <;> simp [hpt, svPeak_get, svSubMark_get, get_foldl, get_ite]

theorem svRamp_get {pt : Part} (k t : Nat) (n : Node)
    (hpt : pt ∉ [.dupSent, .evt, .rcd, .shp]) : Part.get (svRamp k t n) pt = Part.get n pt := by
  simp only [List.mem_cons, List.not_mem_nil, or_false, not_or] at hpt
  unfold svRamp
  (repeat' split) <;> simp [hpt, svPeak_get, svSubMark_get, get_foldl, get_ite]

theorem svStagger_get {pt : Part} (k t : Nat) (n : Node)
    (hpt : pt ∉ [.dupSent, .evt, .rcd, .shp]) : Part.get (svStagger k t n) pt = Part.get n pt := by
  simp only [List.mem_cons, List.not_mem_nil, or_false, not_or] at hpt
  unfold svStagger
  (repeat' split) <;> simp [hpt, svExpire_get, svSubMark_get, get_foldl, get_ite]

theorem svWaitt_get {pt : Part} (k t : Nat) (n : Node)
    (hpt : pt ∉ [.shp]) : Part.get (svWaitt k t n) pt = Part.get n pt := by
  simp only [List.mem_cons, List.not_mem_nil, or_false, not_or] at hpt
  unfold svWaitt
  (repeat' split) <;> simp [hpt, modSv_get, get_foldl, get_ite]

theorem svWaiti_get {pt : Part} (k t : Nat) (n : Node)
    (hpt : pt ∉ [.shp]) : Part.get (svWaiti k t n) pt = Part.get n pt := by
  simp only [List.mem_cons, List.not_mem_nil, or_false, not_or] at hpt
  unfold svWaiti
  (repeat' split) <;> simp [hpt, modSv_get, get_foldl, get_ite]

theorem svWaitp_get {pt : Part} (k : Nat) (n : Node)
    (hpt : pt ∉ [.shp]) : Part.get (svWaitp k n) pt = Part.get n pt := by
  simp only [List.mem_cons, List.not_mem_nil, or_false, not_or] at hpt
  unfold svWaitp
  (repeat' split) <;> simp [hpt, modSv_get, get_foldl, get_ite]

theorem svHold_get {pt : Part} (k t : Nat) (n : Node)
    (hpt : pt ∉ [.shp]) : Part.get (svHold k t n) pt = Part.get n pt := by
  simp only [List.mem_cons, List.not_mem_nil, or_false, not_or] at hpt
  unfold svHold
  (repeat' split) <;> simp [hpt, setSv_get, svSubMark_get, get_foldl, get_ite]

theorem svDecay_get {pt : Part} (k : Nat) (sw : SvSw) (t : Nat) (n : Node)
    (hpt : pt ∉ [.shp]) : Part.get (svDecay k sw t n) pt = Part.get n pt := by
  simp only [List.mem_cons, List.not_mem_nil, or_false, not_or] at hpt
  unfold svDecay
  (repeat' split) <;> simp [hpt, modSv_get, svSubMark_get, get_foldl, get_ite]

theorem svFreew_get {pt : Part} (k t : Nat) (n : Node)
    (hpt : pt ∉ [.shp]) : Part.get (svFreew k t n) pt = Part.get n pt := by
  simp only [List.mem_cons, List.not_mem_nil, or_false, not_or] at hpt
  unfold svFreew
  (repeat' split) <;> simp [hpt, svDecay_get, get_foldl, get_ite]

theorem svQuench_get {pt : Part} (k t : Nat) (n : Node)
    (hpt : pt ∉ [.shp]) : Part.get (svQuench k t n) pt = Part.get n pt := by
  simp only [List.mem_cons, List.not_mem_nil, or_false, not_or] at hpt
  unfold svQuench
  (repeat' split) <;> simp [hpt, svDecay_get, get_foldl, get_ite]

theorem svMark_get {pt : Part} (k t : Nat) (n : Node)
    (hpt : pt ∉ [.shp]) : Part.get (svMark k t n) pt = Part.get n pt := by
  simp only [List.mem_cons, List.not_mem_nil, or_false, not_or] at hpt
  unfold svMark
  (repeat' split) <;> simp [hpt, modSv_get, get_foldl, get_ite]

theorem svJif_get {pt : Part} (k : Nat) (n : Node)
    (hpt : pt ∉ [.shp]) : Part.get (svJif k n) pt = Part.get n pt := by
  simp only [List.mem_cons, List.not_mem_nil, or_false, not_or] at hpt
  unfold svJif
  (repeat' split) <;> simp [hpt, modSv_get, get_foldl, get_ite]

theorem svIllegal_get {pt : Part} (k t : Nat) (n : Node)
    (hpt : pt ∉ [.dupSent, .evt, .rcd, .shp, .slots]) : Part.get (svIllegal k t n) pt = Part.get n pt := by
  simp only [List.mem_cons, List.not_mem_nil, or_false, not_or] at hpt
  unfold svIllegal
  (repeat' split) <;> simp [hpt, modSv_get, raise_get, svAbort_get, get_foldl, get_ite]

theorem svLoop_get {pt : Part} (k t : Nat) (n : Node)
    (hpt : pt ∉ [.dupSent, .evt, .rcd, .shp, .slots]) : Part.get (svLoop k t n) pt = Part.get n pt := by
  simp only [List.mem_cons, List.not_mem_nil, or_false, not_or] at hpt
  unfold svLoop
  (repeat' split) <;> simp [hpt, modSv_get, svIllegal_get, get_foldl, get_ite]

theorem svFlag_get {pt : Part} (k : Nat) (n : Node)
    (hpt : pt ∉ [.dupSent, .evt, .rcd, .shp]) : Part.get (svFlag k n) pt = Part.get n pt := by
  simp only [List.mem_cons, List.not_mem_nil, or_false, not_or] at hpt
  unfold svFlag
  (repeat' split) <;> simp [hpt, modSv_get, raise_get, get_foldl, get_ite]

theorem svIllegalAt_get {pt : Part} (k t : Nat) (n : Node)
    (hpt : pt ∉ [.dupSent, .evt, .rcd, .shp, .slots]) : Part.get (svIllegalAt k t n) pt = Part.get n pt := by
  simp only [List.mem_cons, List.not_mem_nil, or_false, not_or] at hpt
  unfold svIllegalAt
  (repeat' split) <;> simp [hpt, svIllegal_get, get_foldl, get_ite]

theorem svWaittEnd_get {pt : Part} (k t : Nat) (n : Node)
    (hpt : pt ∉ [.shp]) : Part.get (svWaittEnd k t n) pt = Part.get n pt := by
  simp only [List.mem_cons, List.not_mem_nil, or_false, not_or] at hpt
  unfold svWaittEnd
  (repeat' split) <;> simp [hpt, modSv_get, get_foldl, get_ite]

theorem svWaitiMet_get {pt : Part} (k : Nat) (n : Node)
    (hpt : pt ∉ [.shp]) : Part.get (svWaitiMet k n) pt = Part.get n pt := by
  simp only [List.mem_cons, List.not_mem_nil, or_false, not_or] at hpt
  unfold svWaitiMet
  (repeat' split) <;> (try simp [hpt, setSv_get, get_foldl, get_ite]) <;> (try intros) <;> (repeat' split) <;> (try simp_all [hpt, setSv_get, get_foldl, get_ite])

theorem svWaitiTmo_get {pt : Part} (k t : Nat) (n : Node)
    (hpt : pt ∉ [.shp]) : Part.get (svWaitiTmo k t n) pt = Part.get n pt := by
  simp only [List.mem_cons, List.not_mem_nil, or_false, not_or] at hpt
  unfold svWaitiTmo
  (repeat' split) <;> simp [hpt, modSv_get, get_foldl, get_ite]

theorem svWaitpDone_get {pt : Part} (k : Nat) (n : Node)
    (hpt : pt ∉ [.shp]) : Part.get (svWaitpDone k n) pt = Part.get n pt := by
  simp only [List.mem_cons, List.not_mem_nil, or_false, not_or] at hpt
  unfold svWaitpDone
  (repeat' split) <;> simp [hpt, modSv_get, get_foldl, get_ite]

theorem svWaitpEarly_get {pt : Part} (k : Nat) (n : Node)
    (hpt : pt ∉ [.shp]) : Part.get (svWaitpEarly k n) pt = Part.get n pt := by
  simp only [List.mem_cons, List.not_mem_nil, or_false, not_or] at hpt
  unfold svWaitpEarly
  (repeat' split) <;> simp [hpt, modSv_get, get_foldl, get_ite]

theorem svHoldEnd_get {pt : Part} (k t : Nat) (n : Node)
    (hpt : pt ∉ [.shp]) : Part.get (svHoldEnd k t n) pt = Part.get n pt := by
  simp only [List.mem_cons, List.not_mem_nil, or_false, not_or] at hpt
  unfold svHoldEnd
  (repeat' split) <;> (try simp [hpt, setSv_get, get_foldl, get_ite]) <;> (try intros) <;> (repeat' split) <;> (try simp_all [hpt, setSv_get, get_foldl, get_ite])

theorem svRampDone_get {pt : Part} (k : Nat) (n : Node)
    (hpt : pt ∉ [.shp]) : Part.get (svRampDone k n) pt = Part.get n pt := by
  simp only [List.mem_cons, List.not_mem_nil, or_false, not_or] at hpt
  unfold svRampDone
  (repeat' split) <;> simp [hpt, setSv_get, get_foldl, get_ite]

theorem svSense_get {pt : Part} (k mA t : Nat) (n : Node)
    (hpt : pt ∉ [.dupSent, .evt, .rcd, .shp, .slots]) : Part.get (svSense k mA t n) pt = Part.get n pt := by
  simp only [List.mem_cons, List.not_mem_nil, or_false, not_or] at hpt
  unfold svSense
  (repeat' split) <;> simp [hpt, modSv_get, setSv_get, svQueued_get, svSubMark_get, get_foldl, get_ite]

theorem svOverCurrent_get {pt : Part} (k t : Nat) (n : Node)
    (hpt : pt ∉ [.dupSent, .evt, .rcd, .shp, .slots]) : Part.get (svOverCurrent k t n) pt = Part.get n pt := by
  simp only [List.mem_cons, List.not_mem_nil, or_false, not_or] at hpt
  unfold svOverCurrent
  (repeat' split) <;> simp [hpt, modSv_get, raise_get, recOcc_get, svAbort_get, get_foldl, get_ite]

theorem bankOverCurrent_get {pt : Part} (b t : Nat) (n : Node)
    (hpt : pt ∉ [.dupSent, .evt, .rcd, .shp, .slots]) : Part.get (bankOverCurrent b t n) pt = Part.get n pt := by
  simp only [List.mem_cons, List.not_mem_nil, or_false, not_or] at hpt
  unfold bankOverCurrent
  (repeat' split) <;> simp [hpt, raise_get, recOcc_get, setHb_get, svAbort_get, get_foldl, get_ite]

theorem svDrop_get {pt : Part} (k t : Nat) (n : Node)
    (hpt : pt ∉ [.shp]) : Part.get (svDrop k t n) pt = Part.get n pt := by
  simp only [List.mem_cons, List.not_mem_nil, or_false, not_or] at hpt
  unfold svDrop
  (repeat' split) <;> simp [hpt, setSv_get, svSubMark_get, get_foldl, get_ite]

theorem svSync_get {pt : Part} (n : Node)
    (hpt : pt ∉ [.dupSent, .evt, .rcd, .shp, .slots]) : Part.get (svSync n) pt = Part.get n pt := by
  simp only [List.mem_cons, List.not_mem_nil, or_false, not_or] at hpt
  unfold svSync
  (repeat' split) <;> simp [hpt, modSv_get, setSv_get, svAbort_get, svDrop_get, get_foldl, get_ite]

theorem svFireWrite_get {pt : Part} (k : Nat) (v : Word) (n : Node)
    (hpt : pt ∉ [.dupSent, .evt, .rcd, .shp, .slots]) : Part.get (svFireWrite k v n) pt = Part.get n pt := by
  simp only [List.mem_cons, List.not_mem_nil, or_false, not_or] at hpt
  unfold svFireWrite
  (repeat' split) <;> simp [hpt, svFire_get, get_foldl, get_ite]

theorem svHtgtWrite_get {pt : Part} (k : Nat) (v : Word) (n : Node)
    (hpt : pt ∉ [.shp]) : Part.get (svHtgtWrite k v n) pt = Part.get n pt := by
  simp only [List.mem_cons, List.not_mem_nil, or_false, not_or] at hpt
  unfold svHtgtWrite
  (repeat' split) <;> simp [hpt, modSv_get, get_foldl, get_ite]

theorem svWrite_get {pt : Part} (k off : Nat) (v : Word) (n : Node)
    (hpt : pt ∉ [.dupSent, .evt, .rcd, .shp, .slots]) : Part.get (svWrite k off v n) pt = Part.get n pt := by
  simp only [List.mem_cons, List.not_mem_nil, or_false, not_or] at hpt
  unfold svWrite
  (repeat' split) <;> simp [hpt, modSv_get, svFireWrite_get, svHtgtWrite_get, get_foldl, get_ite]

theorem hbWrite_get {pt : Part} (b off : Nat) (v : Word) (n : Node)
    (hpt : pt ∉ [.shp]) : Part.get (hbWrite b off v n) pt = Part.get n pt := by
  simp only [List.mem_cons, List.not_mem_nil, or_false, not_or] at hpt
  unfold hbWrite
  (repeat' split) <;> simp [hpt, setHb_get, get_foldl, get_ite]

theorem shMcStep_get {pt : Part} (n : Node)
    (hpt : pt ∉ [.shp]) : Part.get (shMcStep n) pt = Part.get n pt := by
  simp only [List.mem_cons, List.not_mem_nil, or_false, not_or] at hpt
  unfold shMcStep
  (repeat' split) <;> simp [hpt, get_upd_shp, get_foldl, get_ite]

theorem svReady0_get {pt : Part} (n : Node)
    (hpt : pt ∉ [.shp]) : Part.get (svReady0 n) pt = Part.get n pt := by
  simp only [List.mem_cons, List.not_mem_nil, or_false, not_or] at hpt
  unfold svReady0
  (repeat' split) <;> simp [hpt, modSv_get, get_foldl, get_ite]

end Sys2Proof.Machine
end

