-- ==== Sys2Proof/Laws/FrameMotion.lean ====
section
/-! SUPPORT. What each operation of position interfaces and lanes leaves as it was: every part outside the list it names. -/

namespace Sys2Proof.Machine
open Sys2Proof
set_option linter.all false

theorem setPf_get {pt : Part} (k : Nat) (u : PfChan) (n : Node)
    (hpt : pt ∉ [.pf]) : Part.get (setPf k u n) pt = Part.get n pt := by
  simp only [List.mem_cons, List.not_mem_nil, or_false, not_or] at hpt
  unfold setPf
  (repeat' split) <;> simp [hpt, get_upd_pf, get_foldl, get_ite]

theorem modPf_get {pt : Part} (k : Nat) (f : PfChan → PfChan) (n : Node)
    (hpt : pt ∉ [.pf]) : Part.get (modPf k f n) pt = Part.get n pt := by
  simp only [List.mem_cons, List.not_mem_nil, or_false, not_or] at hpt
  unfold modPf
  (repeat' split) <;> simp [hpt, setPf_get, get_foldl, get_ite]

theorem setCmpE_get {pt : Part} (e : Nat) (u : CmpEnt) (n : Node)
    (hpt : pt ∉ [.cmp]) : Part.get (setCmpE e u n) pt = Part.get n pt := by
  simp only [List.mem_cons, List.not_mem_nil, or_false, not_or] at hpt
  unfold setCmpE
  (repeat' split) <;> simp [hpt, get_upd_cmp, get_foldl, get_ite]

theorem pfError_get {pt : Part} (f t : Nat) (n : Node)
    (hpt : pt ∉ [.ca, .pf]) : Part.get (pfError f t n) pt = Part.get n pt := by
  simp only [List.mem_cons, List.not_mem_nil, or_false, not_or] at hpt
  unfold pfError
  (repeat' split) <;> simp [hpt, caAbandonAll_get, modPf_get, get_foldl, get_ite]

theorem pfStill_get {pt : Part} (f t : Nat) (n : Node)
    (hpt : pt ∉ [.ca, .dupSent, .evt, .pf, .rcd]) : Part.get (pfStill f t n) pt = Part.get n pt := by
  simp only [List.mem_cons, List.not_mem_nil, or_false, not_or] at hpt
  unfold pfStill
  (repeat' split) <;> simp [hpt, caAbandonAll_get, raise_get, setPf_get, get_foldl, get_ite]

theorem cmpRearm_get {pt : Part} (f : Nat) (n : Node)
    (hpt : pt ∉ [.cmp]) : Part.get (cmpRearm f n) pt = Part.get n pt := by
  simp only [List.mem_cons, List.not_mem_nil, or_false, not_or] at hpt
  unfold cmpRearm
  (repeat' split) <;> simp [hpt, setCmpE_get, get_foldl, get_ite]

theorem cmpAction_get {pt : Part} (r : Bytes) (f t : Nat) (n : Node)
    (hpt : pt ∉ [.ca, .digOut, .dupSent, .evt, .pf, .po, .rcd, .shp, .slots]) : Part.get (cmpAction r f t n) pt = Part.get n pt := by
  simp only [List.mem_cons, List.not_mem_nil, or_false, not_or] at hpt
  unfold cmpAction
  (repeat' split) <;> simp [hpt, caAction_get, doPulse_get, modPf_get, poPulse_get, raiseIf_get, svFire_get, get_foldl, get_ite]

theorem cmpHit_get {pt : Part} (f t : Nat) (n : Node) (r : Bytes)
    (hpt : pt ∉ [.ca, .cmp, .digOut, .dupSent, .evt, .pf, .po, .rcd, .shp, .slots]) : Part.get (cmpHit f t n r) pt = Part.get n pt := by
  simp only [List.mem_cons, List.not_mem_nil, or_false, not_or] at hpt
  unfold cmpHit
  (repeat' split) <;> simp [hpt, cmpAction_get, setCmpE_get, get_upd_cmp, get_foldl, get_ite]

theorem cmpStep_get {pt : Part} (f : Nat) (old : Word) (d : Int) (t : Nat) (n : Node)
    (hpt : pt ∉ [.ca, .cmp, .digOut, .dupSent, .evt, .pf, .po, .rcd, .shp, .slots]) : Part.get (cmpStep f old d t n) pt = Part.get n pt := by
  simp only [List.mem_cons, List.not_mem_nil, or_false, not_or] at hpt
  unfold cmpStep
  (repeat' split) <;> simp [hpt, cmpHit_get, cmpRearm_get, get_foldl, get_ite]

theorem pfCount_get {pt : Part} (f : Nat) (d : Int) (n : Node)
    (hpt : pt ∉ [.dupSent, .evt, .pf, .rcd]) : Part.get (pfCount f d n) pt = Part.get n pt := by
  simp only [List.mem_cons, List.not_mem_nil, or_false, not_or] at hpt
  unfold pfCount
  (repeat' split) <;> simp [hpt, raiseIf_get, setPf_get, get_foldl, get_ite]

theorem pfIndexEvent_get {pt : Part} (f : Nat) (n : Node)
    (hpt : pt ∉ [.ca, .dupSent, .evt, .pf, .rcd]) : Part.get (pfIndexEvent f n) pt = Part.get n pt := by
  simp only [List.mem_cons, List.not_mem_nil, or_false, not_or] at hpt
  unfold pfIndexEvent
  (repeat' split) <;> simp [hpt, caAbandonAll_get, caIndex_get, raiseIf_get, setPf_get, get_foldl, get_ite]

theorem pfCrank_get {pt : Part} (f : Nat) (old : Word) (d : Int) (n : Node)
    (hpt : pt ∉ [.ca]) : Part.get (pfCrank f old d n) pt = Part.get n pt := by
  simp only [List.mem_cons, List.not_mem_nil, or_false, not_or] at hpt
  unfold pfCrank
  (repeat' split) <;> simp [hpt, caCrank_get, get_foldl, get_ite]

theorem pfStepBy_get {pt : Part} (f : Nat) (d : Int) (index : Bool) (t : Nat) (n : Node)
    (hpt : pt ∉ [.ca, .cmp, .digOut, .dupSent, .evt, .pf, .po, .rcd, .shp, .slots]) : Part.get (pfStepBy f d index t n) pt = Part.get n pt := by
  simp only [List.mem_cons, List.not_mem_nil, or_false, not_or] at hpt
  unfold pfStepBy
  (repeat' split) <;> simp [hpt, caAbandonAll_get, cmpStep_get, pfCount_get, pfCrank_get, pfIndexEvent_get, raiseIf_get, setPf_get, get_foldl, get_ite]

theorem pfTurn_get {pt : Part} (f : Nat) (d : Int) (index : Bool) (t : Nat) (n : Node)
    (hpt : pt ∉ [.ca, .cmp, .digOut, .dupSent, .evt, .pf, .po, .rcd, .shp, .slots]) : Part.get (pfTurn f d index t n) pt = Part.get n pt := by
  simp only [List.mem_cons, List.not_mem_nil, or_false, not_or] at hpt
  unfold pfTurn
  (repeat' split) <;> simp [hpt, modPf_get, pfStepBy_get, get_foldl, get_ite]

theorem pfEdge_get {pt : Part} (f : Nat) (e : PfStep) (t : Nat) (n : Node)
    (hpt : pt ∉ [.ca, .cmp, .digOut, .dupSent, .evt, .pf, .po, .rcd, .shp, .slots]) : Part.get (pfEdge f e t n) pt = Part.get n pt := by
  simp only [List.mem_cons, List.not_mem_nil, or_false, not_or] at hpt
  unfold pfEdge
  (repeat' split) <;> (try simp [hpt, modPf_get, pfStepBy_get, pfTurn_get, get_foldl, get_ite]) <;> (try intros) <;> (repeat' split) <;> (try simp_all [hpt, modPf_get, pfStepBy_get, pfTurn_get, get_foldl, get_ite])

theorem pfQuadError_get {pt : Part} (f : Nat) (e : PfStep) (t : Nat) (n : Node)
    (hpt : pt ∉ [.ca, .dupSent, .evt, .pf, .rcd]) : Part.get (pfQuadError f e t n) pt = Part.get n pt := by
  simp only [List.mem_cons, List.not_mem_nil, or_false, not_or] at hpt
  unfold pfQuadError
  (repeat' split) <;> simp [hpt, pfError_get, raise_get, setPf_get, get_foldl, get_ite]

theorem pfHallError_get {pt : Part} (f : Nat) (a b z : Bool) (t : Nat) (n : Node)
    (hpt : pt ∉ [.ca, .dupSent, .evt, .pf, .rcd]) : Part.get (pfHallError f a b z t n) pt = Part.get n pt := by
  simp only [List.mem_cons, List.not_mem_nil, or_false, not_or] at hpt
  unfold pfHallError
  (repeat' split) <;> simp [hpt, pfError_get, raise_get, setPf_get, get_foldl, get_ite]

theorem pfAmplError_get {pt : Part} (f : Nat) (s c : Int) (n : Node)
    (hpt : pt ∉ [.ca, .dupSent, .evt, .pf, .rcd]) : Part.get (pfAmplError f s c n) pt = Part.get n pt := by
  simp only [List.mem_cons, List.not_mem_nil, or_false, not_or] at hpt
  unfold pfAmplError
  (repeat' split) <;> simp [hpt, caAbandonAll_get, raiseIf_get, setPf_get, get_foldl, get_ite]

theorem pfPublish_get {pt : Part} (f t : Nat) (n : Node)
    (hpt : pt ∉ [.dupSent, .evt, .pf, .rcd, .slots]) : Part.get (pfPublish f t n) pt = Part.get n pt := by
  simp only [List.mem_cons, List.not_mem_nil, or_false, not_or] at hpt
  unfold pfPublish
  (repeat' split) <;> simp [hpt, complete_get, setPf_get, get_foldl, get_ite]

theorem pfFine_get {pt : Part} (t : Nat) (n : Node)
    (hpt : pt ∉ [.ca, .dupSent, .evt, .pf, .rcd, .slots]) : Part.get (pfFine t n) pt = Part.get n pt := by
  simp only [List.mem_cons, List.not_mem_nil, or_false, not_or] at hpt
  unfold pfFine
  (repeat' split) <;> simp [hpt, modPf_get, pfPublish_get, pfStill_get, get_foldl, get_ite]

theorem ssiTake_get {pt : Part} (f : Nat) (frame : SsiFrame) (t : Nat) (n : Node)
    (hpt : pt ∉ [.ca, .cmp, .digOut, .dupSent, .evt, .pf, .po, .rcd, .shp, .slots]) : Part.get (ssiTake f frame t n) pt = Part.get n pt := by
  simp only [List.mem_cons, List.not_mem_nil, or_false, not_or] at hpt
  unfold ssiTake
  dsimp only
  have hp : ∀ m : Node, Part.get m pt = Part.get n pt → Part.get (if m.acq = true then pfPublish f t (pfStill f t m) else m) pt = Part.get n pt := by
    intro m hm
    split <;> simp [hpt, cmpRearm_get, modPf_get, pfError_get, pfPublish_get, pfStepBy_get, pfStill_get, raise_get, setPf_get, get_foldl, get_ite, hm]
  apply hp
  split
  · rfl
  split
  · simp [hpt, cmpRearm_get, modPf_get, pfError_get, pfPublish_get, pfStepBy_get, pfStill_get, raise_get, setPf_get, get_foldl, get_ite]
  · have ht : ∀ m : Node, Part.get m pt = Part.get n pt →
        Part.get (if pfClean (n.pfC f) t = true then modPf f pfTrust m else m) pt = Part.get n pt := by
      intro m hm
      split <;> simp [hpt, cmpRearm_get, modPf_get, pfError_get, pfPublish_get, pfStepBy_get, pfStill_get, raise_get, setPf_get, get_foldl, get_ite, hm]
    apply ht
    split
    · simp [hpt, cmpRearm_get, modPf_get, pfError_get, pfPublish_get, pfStepBy_get, pfStill_get, raise_get, setPf_get, get_foldl, get_ite]
    · split <;> simp [hpt, cmpRearm_get, modPf_get, pfError_get, pfPublish_get, pfStepBy_get, pfStill_get, raise_get, setPf_get, get_foldl, get_ite]

theorem pfSsi_get {pt : Part} (f : Nat) (frame : SsiFrame) (t : Nat) (n : Node)
    (hpt : pt ∉ [.ca, .cmp, .digOut, .dupSent, .evt, .pf, .po, .rcd, .shp, .slots]) : Part.get (pfSsi f frame t n) pt = Part.get n pt := by
  simp only [List.mem_cons, List.not_mem_nil, or_false, not_or] at hpt
  unfold pfSsi
  (repeat' split) <;> (try simp [hpt, modPf_get, ssiTake_get, get_foldl, get_ite]) <;> (try intros) <;> (repeat' split) <;> (try simp_all [hpt, modPf_get, ssiTake_get, get_foldl, get_ite])

theorem pfRawRead_get {pt : Part} (p : HostPort) (f : Nat) (n : Node)
    (hpt : pt ∉ [.port p]) : Part.get (pfRawRead p f n).2 pt = Part.get n pt := by
  simp only [List.mem_cons, List.not_mem_nil, or_false, not_or] at hpt
  unfold pfRawRead
  (repeat' split) <;> simp [hpt, modPort_get, get_foldl, get_ite]

theorem pfWrapRead_get {pt : Part} (p : HostPort) (f : Nat) (n : Node)
    (hpt : pt ∉ [.port p]) : Part.get (pfWrapRead p f n).2 pt = Part.get n pt := by
  simp only [List.mem_cons, List.not_mem_nil, or_false, not_or] at hpt
  unfold pfWrapRead
  (repeat' split) <;> simp [hpt, modPort_get, get_foldl, get_ite]

theorem pfCapRead_get {pt : Part} (p : HostPort) (f k : Nat) (n : Node)
    (hpt : pt ∉ [.port p]) : Part.get (pfCapRead p f k n).2 pt = Part.get n pt := by
  simp only [List.mem_cons, List.not_mem_nil, or_false, not_or] at hpt
  unfold pfCapRead
  (repeat' split) <;> simp [hpt, modPort_get, get_foldl, get_ite]

theorem pfCapRest_get {pt : Part} (p : HostPort) (f k : Nat) (ts : Bool) (n : Node)
    (hpt : pt ∉ [.port p]) : Part.get (pfCapRest p f k ts n).2 pt = Part.get n pt := by
  simp only [List.mem_cons, List.not_mem_nil, or_false, not_or] at hpt
  unfold pfCapRest
  (repeat' split) <;> simp [hpt, modPort_get, get_foldl, get_ite]

theorem pfClr_get {pt : Part} (f : Nat) (v : Word) (n : Node)
    (hpt : pt ∉ [.pf]) : Part.get (pfClr f v n) pt = Part.get n pt := by
  simp only [List.mem_cons, List.not_mem_nil, or_false, not_or] at hpt
  unfold pfClr
  (repeat' split) <;> simp [hpt, modPf_get, get_foldl, get_ite]

theorem cmpSetPos_get {pt : Part} (v : Word) (n : Node)
    (hpt : pt ∉ [.cmp]) : Part.get (cmpSetPos v n) pt = Part.get n pt := by
  simp only [List.mem_cons, List.not_mem_nil, or_false, not_or] at hpt
  unfold cmpSetPos
  (repeat' split) <;> simp [hpt, cmpRearm_get, setCmpE_get, get_upd_cmp, get_foldl, get_ite]

theorem cmpSetEn_get {pt : Part} (v : Word) (n : Node)
    (hpt : pt ∉ [.cmp]) : Part.get (cmpSetEn v n) pt = Part.get n pt := by
  simp only [List.mem_cons, List.not_mem_nil, or_false, not_or] at hpt
  unfold cmpSetEn
  (repeat' split) <;> simp [hpt, cmpRearm_get, setCmpE_get, get_foldl, get_ite]

theorem pfMiswire_get {pt : Part} (f : Nat) (n : Node)
    (hpt : pt ∉ [.ca, .pf]) : Part.get (pfMiswire f n) pt = Part.get n pt := by
  simp only [List.mem_cons, List.not_mem_nil, or_false, not_or] at hpt
  unfold pfMiswire
  (repeat' split) <;> simp [hpt, caAbandonAll_get, modPf_get, get_foldl, get_ite]

theorem pfApply_get {pt : Part} (n : Node)
    (hpt : pt ∉ [.cmp, .pf]) : Part.get (pfApply n) pt = Part.get n pt := by
  simp only [List.mem_cons, List.not_mem_nil, or_false, not_or] at hpt
  unfold pfApply
  (repeat' split) <;> simp [hpt, cmpRearm_get, modPf_get, get_upd_cmp, get_foldl, get_ite]

theorem pfWrite_get {pt : Part} (f off : Nat) (v : Word) (n : Node)
    (hpt : pt ∉ [.pf]) : Part.get (pfWrite f off v n) pt = Part.get n pt := by
  simp only [List.mem_cons, List.not_mem_nil, or_false, not_or] at hpt
  unfold pfWrite
  (repeat' split) <;> simp [hpt, modPf_get, pfClr_get, get_foldl, get_ite]

theorem cmpWrite_get {pt : Part} (addr : Nat) (v : Word) (n : Node)
    (hpt : pt ∉ [.cmp]) : Part.get (cmpWrite addr v n) pt = Part.get n pt := by
  simp only [List.mem_cons, List.not_mem_nil, or_false, not_or] at hpt
  unfold cmpWrite
  (repeat' split) <;> simp [hpt, cmpSetEn_get, cmpSetPos_get, get_upd_cmp, get_foldl, get_ite]

theorem setLn_get {pt : Part} (k : Nat) (u : Lane) (n : Node)
    (hpt : pt ∉ [.ln]) : Part.get (setLn k u n) pt = Part.get n pt := by
  simp only [List.mem_cons, List.not_mem_nil, or_false, not_or] at hpt
  unfold setLn
  (repeat' split) <;> simp [hpt, get_upd_ln, get_foldl, get_ite]

theorem modLn_get {pt : Part} (k : Nat) (f : Lane → Lane) (n : Node)
    (hpt : pt ∉ [.ln]) : Part.get (modLn k f n) pt = Part.get n pt := by
  simp only [List.mem_cons, List.not_mem_nil, or_false, not_or] at hpt
  unfold modLn
  (repeat' split) <;> simp [hpt, setLn_get, get_foldl, get_ite]

theorem setGen_get {pt : Part} (g : Nat) (u : LnGen) (n : Node)
    (hpt : pt ∉ [.gen]) : Part.get (setGen g u n) pt = Part.get n pt := by
  simp only [List.mem_cons, List.not_mem_nil, or_false, not_or] at hpt
  unfold setGen
  (repeat' split) <;> simp [hpt, get_upd_gen, get_foldl, get_ite]

theorem lnTargetOffRec_get {pt : Part} (r : Bytes) (n : Node)
    (hpt : pt ∉ [.digOut, .lo, .po]) : Part.get (lnTargetOffRec r n) pt = Part.get n pt := by
  simp only [List.mem_cons, List.not_mem_nil, or_false, not_or] at hpt
  unfold lnTargetOffRec
  (repeat' split) <;> simp [hpt, modDo_get, modLo_get, modPo_get, get_foldl, get_ite]

theorem lnTargetOff_get {pt : Part} (k : Nat) (n : Node)
    (hpt : pt ∉ [.digOut, .lo, .po]) : Part.get (lnTargetOff k n) pt = Part.get n pt := by
  simp only [List.mem_cons, List.not_mem_nil, or_false, not_or] at hpt
  unfold lnTargetOff
  (repeat' split) <;> simp [hpt, lnTargetOffRec_get, get_foldl, get_ite]

theorem lnTarget_get {pt : Part} (k : Nat) (u : Int) (t : Nat) (n : Node)
    (hpt : pt ∉ [.digOut, .dupSent, .evt, .lo, .po, .rcd, .shp, .slots]) : Part.get (lnTarget k u t n) pt = Part.get n pt := by
  simp only [List.mem_cons, List.not_mem_nil, or_false, not_or] at hpt
  unfold lnTarget
  (repeat' split) <;> (try simp [hpt, doLane_get, loLane_get, poLane_get, svLane_get, get_foldl, get_ite]) <;> (try intros) <;> (repeat' split) <;> (try simp_all [hpt, doLane_get, loLane_get, poLane_get, svLane_get, get_foldl, get_ite])

theorem genEnd_get {pt : Part} (g st : Nat) (n : Node)
    (hpt : pt ∉ [.dupSent, .evt, .gen, .rcd]) : Part.get (genEnd g st n) pt = Part.get n pt := by
  simp only [List.mem_cons, List.not_mem_nil, or_false, not_or] at hpt
  unfold genEnd
  (repeat' split) <;> simp [hpt, raise_get, setGen_get, get_foldl, get_ite]

theorem genSample_get {pt : Part} (gi : Nat) (sp pv u : Int) (t : Nat) (n : Node)
    (hpt : pt ∉ [.dupSent, .evt, .gen, .rcd]) : Part.get (genSample gi sp pv u t n) pt = Part.get n pt := by
  simp only [List.mem_cons, List.not_mem_nil, or_false, not_or] at hpt
  unfold genSample
  (repeat' split) <;> simp [hpt, genEnd_get, setGen_get, get_foldl, get_ite]

theorem lnTestStart_get {pt : Part} (k : Nat) (n : Node)
    (hpt : pt ∉ [.gen, .ln]) : Part.get (lnTestStart k n) pt = Part.get n pt := by
  simp only [List.mem_cons, List.not_mem_nil, or_false, not_or] at hpt
  unfold lnTestStart
  (repeat' split) <;> simp [hpt, setGen_get, setLn_get, get_foldl, get_ite]

theorem lnTestStop_get {pt : Part} (k : Nat) (n : Node)
    (hpt : pt ∉ [.dupSent, .evt, .gen, .rcd]) : Part.get (lnTestStop k n) pt = Part.get n pt := by
  simp only [List.mem_cons, List.not_mem_nil, or_false, not_or] at hpt
  unfold lnTestStop
  (repeat' split) <;> simp [hpt, genEnd_get, get_foldl, get_ite]

theorem lnTestsAbort_get {pt : Part} (n : Node)
    (hpt : pt ∉ [.dupSent, .evt, .gen, .rcd]) : Part.get (lnTestsAbort n) pt = Part.get n pt := by
  simp only [List.mem_cons, List.not_mem_nil, or_false, not_or] at hpt
  unfold lnTestsAbort
  (repeat' split) <;> simp [hpt, genEnd_get, get_foldl, get_ite]

theorem lnSetAct_get {pt : Part} (k m : Nat) (n : Node)
    (hpt : pt ∉ [.digOut, .dupSent, .evt, .gen, .ln, .lo, .po, .rcd]) : Part.get (lnSetAct k m n) pt = Part.get n pt := by
  simp only [List.mem_cons, List.not_mem_nil, or_false, not_or] at hpt
  unfold lnSetAct
  (repeat' split) <;> simp [hpt, genEnd_get, lnTargetOff_get, raise_get, setLn_get, get_foldl, get_ite]

theorem lnFollowFire_get {pt : Part} (k : Nat) (u : Int) (n : Node)
    (hpt : pt ∉ [.digOut, .dupSent, .evt, .gen, .ln, .lo, .po, .rcd]) : Part.get (lnFollowFire k u n) pt = Part.get n pt := by
  simp only [List.mem_cons, List.not_mem_nil, or_false, not_or] at hpt
  unfold lnFollowFire
  (repeat' split) <;> (try simp [hpt, lnSetAct_get, modLn_get, raise_get, get_foldl, get_ite]) <;> (try intros) <;> (repeat' split) <;> (try simp_all [hpt, lnSetAct_get, modLn_get, raise_get, get_foldl, get_ite])

theorem lnFollow_get {pt : Part} (k : Nat) (sp pv u : Int) (t : Nat) (n : Node)
    (hpt : pt ∉ [.digOut, .dupSent, .evt, .gen, .ln, .lo, .po, .rcd]) : Part.get (lnFollow k sp pv u t n) pt = Part.get n pt := by
  simp only [List.mem_cons, List.not_mem_nil, or_false, not_or] at hpt
  unfold lnFollow
  (repeat' split) <;> simp [hpt, lnFollowFire_get, setLn_get, get_foldl, get_ite]

theorem lnFollowDue_get {pt : Part} (k t : Nat) (n : Node)
    (hpt : pt ∉ [.digOut, .dupSent, .evt, .gen, .ln, .lo, .po, .rcd]) : Part.get (lnFollowDue k t n) pt = Part.get n pt := by
  simp only [List.mem_cons, List.not_mem_nil, or_false, not_or] at hpt
  unfold lnFollowDue
  (repeat' split) <;> simp [hpt, lnFollowFire_get, get_foldl, get_ite]

theorem lnSatSet_get {pt : Part} (k b : Nat) (n : Node)
    (hpt : pt ∉ [.dupSent, .evt, .ln, .rcd]) : Part.get (lnSatSet k b n) pt = Part.get n pt := by
  simp only [List.mem_cons, List.not_mem_nil, or_false, not_or] at hpt
  unfold lnSatSet
  (repeat' split) <;> simp [hpt, raiseIf_get, setLn_get, get_foldl, get_ite]

theorem lnMode_get {pt : Part} (k kt t : Nat) (n : Node)
    (hpt : pt ∉ [.digOut, .dupSent, .evt, .gen, .ln, .lo, .po, .rcd]) : Part.get (lnMode k kt t n) pt = Part.get n pt := by
  simp only [List.mem_cons, List.not_mem_nil, or_false, not_or] at hpt
  unfold lnMode
  (repeat' split) <;> simp [hpt, lnSetAct_get, setLn_get, get_foldl, get_ite]

theorem lnDeliver_get {pt : Part} (k : Nat) (u : Int) (t : Nat) (n : Node)
    (hpt : pt ∉ [.digOut, .dupSent, .evt, .ln, .lo, .po, .rcd, .shp, .slots]) : Part.get (lnDeliver k u t n) pt = Part.get n pt := by
  simp only [List.mem_cons, List.not_mem_nil, or_false, not_or] at hpt
  unfold lnDeliver
  (repeat' split) <;> simp [hpt, complete_get, lnTarget_get, setLn_get, get_foldl, get_ite]

theorem lnEval_get {pt : Part} (k t : Nat) (n : Node)
    (hpt : pt ∉ [.digOut, .dupSent, .evt, .gen, .ln, .lo, .po, .rcd, .shp, .slots]) : Part.get (lnEval k t n) pt = Part.get n pt := by
  simp only [List.mem_cons, List.not_mem_nil, or_false, not_or] at hpt
  unfold lnEval
  (repeat' split) <;> simp [hpt, genSample_get, lnDeliver_get, lnFollow_get, lnMode_get, lnSatSet_get, lnSetAct_get, modLn_get, raiseIf_get, setLn_get, get_foldl, get_ite]

theorem lnFine_get {pt : Part} (t : Nat) (n : Node)
    (hpt : pt ∉ [.digOut, .dupSent, .evt, .gen, .ln, .lo, .po, .rcd, .shp, .slots]) : Part.get (lnFine t n) pt = Part.get n pt := by
  simp only [List.mem_cons, List.not_mem_nil, or_false, not_or] at hpt
  unfold lnFine
  (repeat' split) <;> simp [hpt, lnEval_get, get_foldl, get_ite]

theorem lnRequest_get {pt : Part} (k code : Nat) (n : Node)
    (hpt : pt ∉ [.ln]) : Part.get (lnRequest k code n) pt = Part.get n pt := by
  simp only [List.mem_cons, List.not_mem_nil, or_false, not_or] at hpt
  unfold lnRequest
  (repeat' split) <;> simp [hpt, setLn_get, get_foldl, get_ite]

theorem lnApplyPend_get {pt : Part} (k : Nat) (n : Node)
    (hpt : pt ∉ [.ln]) : Part.get (lnApplyPend k n) pt = Part.get n pt := by
  simp only [List.mem_cons, List.not_mem_nil, or_false, not_or] at hpt
  unfold lnApplyPend
  (repeat' split) <;> simp [hpt, setLn_get, get_foldl, get_ite]

theorem lnModeWrite_get {pt : Part} (k : Nat) (v : Word) (n : Node)
    (hpt : pt ∉ [.ln]) : Part.get (lnModeWrite k v n) pt = Part.get n pt := by
  simp only [List.mem_cons, List.not_mem_nil, or_false, not_or] at hpt
  unfold lnModeWrite
  (repeat' split) <;> simp [hpt, lnApplyPend_get, lnRequest_get, get_foldl, get_ite]

theorem lnAddI_get {pt : Part} (k : Nat) (d : Int) (n : Node)
    (hpt : pt ∉ [.ln]) : Part.get (lnAddI k d n) pt = Part.get n pt := by
  simp only [List.mem_cons, List.not_mem_nil, or_false, not_or] at hpt
  unfold lnAddI
  (repeat' split) <;> simp [hpt, modLn_get, get_foldl, get_ite]

theorem lnApply_get {pt : Part} (n : Node)
    (hpt : pt ∉ [.dupSent, .evt, .gen, .ln, .rcd]) : Part.get (lnApply n) pt = Part.get n pt := by
  simp only [List.mem_cons, List.not_mem_nil, or_false, not_or] at hpt
  unfold lnApply
  (repeat' split) <;> simp [hpt, lnTestsAbort_get, raiseIf_get, setLn_get, get_foldl, get_ite]

theorem lnTargetBegin_get {pt : Part} (k : Nat) (n : Node)
    (hpt : pt ∉ [.digOut, .dupSent, .evt, .lo, .po, .rcd]) : Part.get (lnTargetBegin k n) pt = Part.get n pt := by
  simp only [List.mem_cons, List.not_mem_nil, or_false, not_or] at hpt
  unfold lnTargetBegin
  dsimp only
  split
  · simp [hpt, doLane_get, lnTargetOff_get, loLane_get, poLane_get, get_foldl, get_ite]
  · split <;> simp [hpt, doLane_get, lnTargetOff_get, loLane_get, poLane_get, get_foldl, get_ite]

theorem lnBegin_get {pt : Part} (k : Nat) (n : Node)
    (hpt : pt ∉ [.digOut, .dupSent, .evt, .ln, .lo, .po, .rcd]) : Part.get (lnBegin k n) pt = Part.get n pt := by
  simp only [List.mem_cons, List.not_mem_nil, or_false, not_or] at hpt
  unfold lnBegin
  (repeat' split) <;> simp [hpt, lnTargetBegin_get, modLn_get, get_foldl, get_ite]

theorem lnRunEntry_get {pt : Part} (n : Node)
    (hpt : pt ∉ [.digOut, .dupSent, .evt, .ln, .lo, .po, .rcd]) : Part.get (lnRunEntry n) pt = Part.get n pt := by
  simp only [List.mem_cons, List.not_mem_nil, or_false, not_or] at hpt
  unfold lnRunEntry
  (repeat' split) <;> simp [hpt, lnBegin_get, get_foldl, get_ite]

theorem lnStop_get {pt : Part} (old : Bytes) (k : Nat) (n : Node)
    (hpt : pt ∉ [.digOut, .dupSent, .evt, .gen, .ln, .lo, .po, .rcd]) : Part.get (lnStop old k n) pt = Part.get n pt := by
  simp only [List.mem_cons, List.not_mem_nil, or_false, not_or] at hpt
  unfold lnStop
  (repeat' split) <;> simp [hpt, genEnd_get, lnTargetOffRec_get, modLn_get, raise_get, get_foldl, get_ite]

theorem lnReplace_get {pt : Part} (old : Nat → Bytes) (n : Node)
    (hpt : pt ∉ [.digOut, .dupSent, .evt, .gen, .ln, .lo, .po, .rcd]) : Part.get (lnReplace old n) pt = Part.get n pt := by
  simp only [List.mem_cons, List.not_mem_nil, or_false, not_or] at hpt
  unfold lnReplace
  (repeat' split) <;> simp [hpt, lnBegin_get, lnStop_get, lnTargetOffRec_get, modLn_get, get_foldl, get_ite]

theorem lnCapData_get {pt : Part} (p : HostPort) (k : Nat) (n : Node)
    (hpt : pt ∉ [.port p]) : Part.get (lnCapData p k n).2.2 pt = Part.get n pt := by
  simp only [List.mem_cons, List.not_mem_nil, or_false, not_or] at hpt
  unfold lnCapData
  (repeat' split) <;> (try simp [hpt, modPort_get, get_foldl, get_ite]) <;> (try intros) <;> (repeat' split) <;> (try simp_all [hpt, modPort_get, get_foldl, get_ite])

theorem lnTestWrite_get {pt : Part} (k : Nat) (v : Word) (n : Node)
    (hpt : pt ∉ [.dupSent, .evt, .gen, .ln, .rcd]) : Part.get (lnTestWrite k v n) pt = Part.get n pt := by
  simp only [List.mem_cons, List.not_mem_nil, or_false, not_or] at hpt
  unfold lnTestWrite
  (repeat' split) <;> simp [hpt, lnTestStart_get, lnTestStop_get, get_foldl, get_ite]

theorem lnWrite_get {pt : Part} (p : HostPort) (k off : Nat) (v : Word) (n : Node)
    (hpt : pt ∉ [.dupSent, .evt, .gen, .ln, .rcd, .port p]) : Part.get (lnWrite p k off v n) pt = Part.get n pt := by
  simp only [List.mem_cons, List.not_mem_nil, or_false, not_or] at hpt
  unfold lnWrite
  (repeat' split) <;> simp [hpt, modPort_get, lnModeWrite_get, lnTestWrite_get, modLn_get, get_foldl, get_ite]

end Sys2Proof.Machine
end

