-- ==== Sys2Proof/Laws/FrameService.lean ====
section
/-! SUPPORT. What each operation of clock, recorder, alarms, sequencer and panel leaves as it was: every part outside the list it names. -/

namespace Sys2Proof.Machine
open Sys2Proof
set_option linter.all false

theorem clkNote_get {pt : Part} (sev : Nat) (old : Nat) (n : Node)
    (hpt : pt ∉ [.rcd]) : Part.get (clkNote sev old n) pt = Part.get n pt := by
  simp only [List.mem_cons, List.not_mem_nil, or_false, not_or] at hpt
  unfold clkNote
  (repeat' split) <;> simp [hpt, recNote_get, get_foldl, get_ite]

theorem osfSet_get {pt : Part} (n : Node)
    (hpt : pt ∉ [.clk, .dupSent, .evt, .rcd]) : Part.get (osfSet n) pt = Part.get n pt := by
  simp only [List.mem_cons, List.not_mem_nil, or_false, not_or] at hpt
  unfold osfSet
  (repeat' split) <;> simp [hpt, clkNote_get, raise_get, get_upd_clk, get_foldl, get_ite]

theorem clkBoot_get {pt : Part} (n : Node)
    (hpt : pt ∉ [.dupSent, .evt, .rcd]) : Part.get (clkBoot n) pt = Part.get n pt := by
  simp only [List.mem_cons, List.not_mem_nil, or_false, not_or] at hpt
  unfold clkBoot
  (repeat' split) <;> simp [hpt, clkNote_get, raise_get, get_foldl, get_ite]

theorem clkAlarm_get {pt : Part} (n : Node)
    (hpt : pt ∉ [.dupSent, .evt, .rcd]) : Part.get (clkAlarm n) pt = Part.get n pt := by
  simp only [List.mem_cons, List.not_mem_nil, or_false, not_or] at hpt
  unfold clkAlarm
  (repeat' split) <;> simp [hpt, raiseIf_get, get_foldl, get_ite]

theorem clkSecond_get {pt : Part} (n : Node)
    (hpt : pt ∉ [.clk, .dupSent, .evt, .rcd]) : Part.get (clkSecond n) pt = Part.get n pt := by
  simp only [List.mem_cons, List.not_mem_nil, or_false, not_or] at hpt
  unfold clkSecond
  (repeat' split) <;> simp [hpt, clkAlarm_get, osfSet_get, get_upd_clk, get_foldl, get_ite]

theorem clkSet_get {pt : Part} (secs : Nat) (n : Node)
    (hpt : pt ∉ [.clk, .rcd]) : Part.get (clkSet secs n) pt = Part.get n pt := by
  simp only [List.mem_cons, List.not_mem_nil, or_false, not_or] at hpt
  unfold clkSet
  (repeat' split) <;> simp [hpt, clkNote_get, get_upd_clk, get_foldl, get_ite]

theorem clkReject_get {pt : Part} (n : Node)
    (hpt : pt ∉ [.clk, .dupSent, .evt, .rcd]) : Part.get (clkReject n) pt = Part.get n pt := by
  simp only [List.mem_cons, List.not_mem_nil, or_false, not_or] at hpt
  unfold clkReject
  (repeat' split) <;> simp [hpt, raise_get, get_upd_clk, get_foldl, get_ite]

theorem clkRefuse_get {pt : Part} (n : Node)
    (hpt : pt ∉ [.clk]) : Part.get (clkRefuse n) pt = Part.get n pt := by
  simp only [List.mem_cons, List.not_mem_nil, or_false, not_or] at hpt
  unfold clkRefuse
  (repeat' split) <;> simp [hpt, get_upd_clk, get_foldl, get_ite]

theorem clkSetBin_get {pt : Part} (n : Node)
    (hpt : pt ∉ [.clk, .dupSent, .evt, .rcd]) : Part.get (clkSetBin n) pt = Part.get n pt := by
  simp only [List.mem_cons, List.not_mem_nil, or_false, not_or] at hpt
  unfold clkSetBin
  (repeat' split) <;> simp [hpt, clkReject_get, clkSet_get, get_foldl, get_ite]

theorem clkSetBcd_get {pt : Part} (n : Node)
    (hpt : pt ∉ [.clk, .dupSent, .evt, .rcd]) : Part.get (clkSetBcd n) pt = Part.get n pt := by
  simp only [List.mem_cons, List.not_mem_nil, or_false, not_or] at hpt
  unfold clkSetBcd
  (repeat' split) <;> simp [hpt, clkReject_get, clkSet_get, get_foldl, get_ite]

theorem clkOfs_get {pt : Part} (x : Int) (dst : Bool) (n : Node)
    (hpt : pt ∉ [.clk, .rcd]) : Part.get (clkOfs x dst n) pt = Part.get n pt := by
  simp only [List.mem_cons, List.not_mem_nil, or_false, not_or] at hpt
  unfold clkOfs
  (repeat' split) <;> simp [hpt, clkNote_get, get_upd_clk, get_foldl, get_ite]

theorem clkSetOfs_get {pt : Part} (arg : Nat) (n : Node)
    (hpt : pt ∉ [.clk, .rcd]) : Part.get (clkSetOfs arg n) pt = Part.get n pt := by
  simp only [List.mem_cons, List.not_mem_nil, or_false, not_or] at hpt
  unfold clkSetOfs
  (repeat' split) <;> simp [hpt, clkOfs_get, clkRefuse_get, get_foldl, get_ite]

theorem clkDstFwd_get {pt : Part} (n : Node)
    (hpt : pt ∉ [.clk, .rcd]) : Part.get (clkDstFwd n) pt = Part.get n pt := by
  simp only [List.mem_cons, List.not_mem_nil, or_false, not_or] at hpt
  unfold clkDstFwd
  (repeat' split) <;> simp [hpt, clkOfs_get, clkRefuse_get, get_foldl, get_ite]

theorem clkDstBack_get {pt : Part} (n : Node)
    (hpt : pt ∉ [.clk, .rcd]) : Part.get (clkDstBack n) pt = Part.get n pt := by
  simp only [List.mem_cons, List.not_mem_nil, or_false, not_or] at hpt
  unfold clkDstBack
  (repeat' split) <;> simp [hpt, clkOfs_get, clkRefuse_get, get_foldl, get_ite]

theorem clkCmd_get {pt : Part} (v : Word) (n : Node)
    (hpt : pt ∉ [.clk, .dupSent, .evt, .rcd]) : Part.get (clkCmd v n) pt = Part.get n pt := by
  simp only [List.mem_cons, List.not_mem_nil, or_false, not_or] at hpt
  unfold clkCmd
  (repeat' split) <;> simp [hpt, clkDstBack_get, clkDstFwd_get, clkRefuse_get, clkSetBcd_get, clkSetBin_get, clkSetOfs_get, get_foldl, get_ite]

theorem setShadow_get {pt : Part} (i : Nat) (s : Shadow) (n : Node)
    (hpt : pt ∉ [.clk]) : Part.get (setShadow i s n) pt = Part.get n pt := by
  simp only [List.mem_cons, List.not_mem_nil, or_false, not_or] at hpt
  unfold setShadow
  (repeat' split) <;> simp [hpt, get_upd_clk, get_foldl, get_ite]

theorem shadowExpire_get {pt : Part} (i : Nat) (n : Node)
    (hpt : pt ∉ [.clk]) : Part.get (shadowExpire i n) pt = Part.get n pt := by
  simp only [List.mem_cons, List.not_mem_nil, or_false, not_or] at hpt
  unfold shadowExpire
  (repeat' split) <;> simp [hpt, setShadow_get, get_foldl, get_ite]

theorem shadowRead_get {pt : Part} (i k : Nat) (n : Node)
    (hpt : pt ∉ [.clk]) : Part.get (shadowRead i k n).2 pt = Part.get n pt := by
  simp only [List.mem_cons, List.not_mem_nil, or_false, not_or] at hpt
  unfold shadowRead
  (repeat' split) <;> simp [hpt, setShadow_get, get_foldl, get_ite]

theorem clkStatusWrite_get {pt : Part} (i : Nat) (v : Word) (n : Node)
    (hpt : pt ∉ [.clk]) : Part.get (clkStatusWrite i v n) pt = Part.get n pt := by
  simp only [List.mem_cons, List.not_mem_nil, or_false, not_or] at hpt
  unfold clkStatusWrite
  (repeat' split) <;> simp [hpt, setShadow_get, get_upd_clk, get_foldl, get_ite]

theorem clkOscStop_get {pt : Part} (n : Node)
    (hpt : pt ∉ [.clk, .dupSent, .evt, .rcd]) : Part.get (clkOscStop n) pt = Part.get n pt := by
  simp only [List.mem_cons, List.not_mem_nil, or_false, not_or] at hpt
  unfold clkOscStop
  (repeat' split) <;> simp [hpt, osfSet_get, get_upd_clk, get_foldl, get_ite]

theorem clkDip_get {pt : Part} (dead : Bool) (n : Node)
    (hpt : pt ∉ [.clk, .dupSent, .evt, .rcd]) : Part.get (clkDip dead n) pt = Part.get n pt := by
  simp only [List.mem_cons, List.not_mem_nil, or_false, not_or] at hpt
  unfold clkDip
  (repeat' split) <;> simp [hpt, osfSet_get, get_upd_clk, get_foldl, get_ite]

theorem clkSource_get {pt : Part} (toVbak : Bool) (n : Node)
    (hpt : pt ∉ [.clk]) : Part.get (clkSource toVbak n) pt = Part.get n pt := by
  simp only [List.mem_cons, List.not_mem_nil, or_false, not_or] at hpt
  unfold clkSource
  (repeat' split) <;> simp [hpt, get_upd_clk, get_foldl, get_ite]

theorem clkVbak_get {pt : Part} (mV : Nat) (n : Node)
    (hpt : pt ∉ [.clk, .dupSent, .evt, .rcd]) : Part.get (clkVbak mV n) pt = Part.get n pt := by
  simp only [List.mem_cons, List.not_mem_nil, or_false, not_or] at hpt
  unfold clkVbak
  (repeat' split) <;> simp [hpt, raiseIf_get, get_upd_clk, get_foldl, get_ite]

theorem clkApply_get {pt : Part} (n : Node)
    (hpt : pt ∉ [.clk, .rcd]) : Part.get (clkApply n) pt = Part.get n pt := by
  simp only [List.mem_cons, List.not_mem_nil, or_false, not_or] at hpt
  unfold clkApply
  (repeat' split) <;> simp [hpt, clkOfs_get, get_upd_clk, get_foldl, get_ite]

theorem clkRebase_get {pt : Part} (n : Node)
    (hpt : pt ∉ [.clk]) : Part.get (clkRebase n) pt = Part.get n pt := by
  simp only [List.mem_cons, List.not_mem_nil, or_false, not_or] at hpt
  unfold clkRebase
  (repeat' split) <;> simp [hpt, get_upd_clk, get_foldl, get_ite]

theorem clkWrite_get {pt : Part} (addr : Nat) (v : Word) (n : Node)
    (hpt : pt ∉ [.clk, .dupSent, .evt, .rcd]) : Part.get (clkWrite addr v n) pt = Part.get n pt := by
  simp only [List.mem_cons, List.not_mem_nil, or_false, not_or] at hpt
  unfold clkWrite
  (repeat' split) <;> simp [hpt, clkCmd_get, get_upd_clk, get_foldl, get_ite]

theorem msCommit_get {pt : Part} (n : Node)
    (hpt : pt ∉ [.mram]) : Part.get (msCommit n) pt = Part.get n pt := by
  simp only [List.mem_cons, List.not_mem_nil, or_false, not_or] at hpt
  unfold msCommit
  (repeat' split) <;> simp [hpt, get_upd_mram, get_foldl, get_ite]

theorem msRebase_get {pt : Part} (n : Node)
    (hpt : pt ∉ [.rcd]) : Part.get (msRebase n) pt = Part.get n pt := by
  simp only [List.mem_cons, List.not_mem_nil, or_false, not_or] at hpt
  unfold msRebase
  (repeat' split) <;> simp [hpt, get_upd_rcd, get_foldl, get_ite]

theorem msPowerUp_get {pt : Part} (n : Node)
    (hpt : pt ∉ [.mram, .rcd]) : Part.get (msPowerUp n) pt = Part.get n pt := by
  simp only [List.mem_cons, List.not_mem_nil, or_false, not_or] at hpt
  unfold msPowerUp
  (repeat' split) <;> simp [hpt, get_upd_mram, get_upd_rcd, get_upd_mram_rcd, get_foldl, get_ite]

theorem windowClose_get {pt : Part} (n : Node)
    (hpt : pt ∉ [.rcd]) : Part.get (windowClose n) pt = Part.get n pt := by
  simp only [List.mem_cons, List.not_mem_nil, or_false, not_or] at hpt
  unfold windowClose
  (repeat' split) <;> simp [hpt, get_upd_rcd, get_foldl, get_ite]

theorem recDrop_get {pt : Part} (n : Node)
    (hpt : pt ∉ [.dupSent, .evt, .mram, .rcd]) : Part.get (recDrop n) pt = Part.get n pt := by
  simp only [List.mem_cons, List.not_mem_nil, or_false, not_or] at hpt
  unfold recDrop
  (repeat' split) <;> simp [hpt, raise_get, get_upd_mram, get_foldl, get_ite]

theorem recStore_get {pt : Part} (k typ sev : Nat) (pay : Bytes) (n : Node)
    (hpt : pt ∉ [.mram]) : Part.get (recStore k typ sev pay n) pt = Part.get n pt := by
  simp only [List.mem_cons, List.not_mem_nil, or_false, not_or] at hpt
  unfold recStore
  (repeat' split) <;> simp [hpt, get_upd_mram, get_foldl, get_ite]

theorem recRate_get {pt : Part} (n : Node)
    (hpt : pt ∉ [.rcd]) : Part.get (recRate n) pt = Part.get n pt := by
  simp only [List.mem_cons, List.not_mem_nil, or_false, not_or] at hpt
  unfold recRate
  (repeat' split) <;> simp [hpt, get_upd_rcd, get_foldl, get_ite]

theorem recPlace_get {pt : Part} (typ sev : Nat) (pay : Bytes) (n : Node)
    (hpt : pt ∉ [.dupSent, .evt, .mram, .rcd]) : Part.get (recPlace typ sev pay n) pt = Part.get n pt := by
  simp only [List.mem_cons, List.not_mem_nil, or_false, not_or] at hpt
  unfold recPlace
  (repeat' split) <;> (try simp [hpt, recDrop_get, recRate_get, recStore_get, get_foldl, get_ite]) <;> (try intros) <;> (repeat' split) <;> (try simp_all [hpt, recDrop_get, recRate_get, recStore_get, get_foldl, get_ite])

theorem statRoll_get {pt : Part} (i : Nat) (n : Node)
    (hpt : pt ∉ [.mram]) : Part.get (statRoll i n) pt = Part.get n pt := by
  simp only [List.mem_cons, List.not_mem_nil, or_false, not_or] at hpt
  unfold statRoll
  (repeat' split) <;> simp [hpt, get_upd_mram, get_foldl, get_ite]

theorem statAdd_get {pt : Part} (i : Nat) (f : StatSlot → StatSlot) (n : Node)
    (hpt : pt ∉ [.mram]) : Part.get (statAdd i f n) pt = Part.get n pt := by
  simp only [List.mem_cons, List.not_mem_nil, or_false, not_or] at hpt
  unfold statAdd
  (repeat' split) <;> simp [hpt, statRoll_get, get_upd_mram, get_foldl, get_ite]

theorem histSample_get {pt : Part} (i : Nat) (n : Node)
    (hpt : pt ∉ [.mram, .rcd]) : Part.get (histSample i n) pt = Part.get n pt := by
  simp only [List.mem_cons, List.not_mem_nil, or_false, not_or] at hpt
  unfold histSample
  (repeat' split) <;> simp [hpt, statAdd_get, get_upd_rcd, get_foldl, get_ite]

theorem countOcc_get {pt : Part} (cls ch : Nat) (n : Node)
    (hpt : pt ∉ [.mram]) : Part.get (countOcc cls ch n) pt = Part.get n pt := by
  simp only [List.mem_cons, List.not_mem_nil, or_false, not_or] at hpt
  unfold countOcc
  (repeat' split) <;> simp [hpt, statAdd_get, get_foldl, get_ite]

theorem recApply_get {pt : Part} (n : Node)
    (hpt : pt ∉ [.rcd]) : Part.get (recApply n) pt = Part.get n pt := by
  simp only [List.mem_cons, List.not_mem_nil, or_false, not_or] at hpt
  unfold recApply
  (repeat' split) <;> simp [hpt, recNote_get, get_upd_rcd, get_foldl, get_ite]

theorem windowSample_get {pt : Part} (n : Node)
    (hpt : pt ∉ [.rcd]) : Part.get (windowSample n) pt = Part.get n pt := by
  simp only [List.mem_cons, List.not_mem_nil, or_false, not_or] at hpt
  unfold windowSample
  have hw : ∀ k l m, Part.get (windowRecs n k l m) pt = Part.get m pt := by
    intro k
    induction k with
    | zero => intro l m; cases l <;> rfl
    | succ k ih =>
      intro l m
      cases l with
      | nil => rfl
      | cons x r => exact (ih _ _).trans (recNote_get _ _ _ _ (by simp [hpt]))
  dsimp only
  split <;> simp [hpt, get_upd_rcd, get_foldl, get_ite, hw]

theorem recScan_get {pt : Part} (n : Node)
    (hpt : pt ∉ [.mram, .rcd]) : Part.get (recScan n) pt = Part.get n pt := by
  simp only [List.mem_cons, List.not_mem_nil, or_false, not_or] at hpt
  unfold recScan
  (repeat' split) <;> simp [hpt, histSample_get, statRoll_get, windowClose_get, windowSample_get, get_foldl, get_ite]

theorem recSelWrite_get {pt : Part} (p : HostPort) (v : Word) (n : Node)
    (hpt : pt ∉ [.port p]) : Part.get (recSelWrite p v n) pt = Part.get n pt := by
  simp only [List.mem_cons, List.not_mem_nil, or_false, not_or] at hpt
  unfold recSelWrite
  (repeat' split) <;> simp [hpt, modPort_get, get_foldl, get_ite]

theorem recDataRead_get {pt : Part} (p : HostPort) (n : Node)
    (hpt : pt ∉ [.port p]) : Part.get (recDataRead p n).2.2 pt = Part.get n pt := by
  simp only [List.mem_cons, List.not_mem_nil, or_false, not_or] at hpt
  unfold recDataRead
  (repeat' split) <;> (try simp [hpt, setPort_get, get_foldl, get_ite]) <;> (try intros) <;> (repeat' split) <;> (try simp_all [hpt, setPort_get, get_foldl, get_ite])

theorem stSelWrite_get {pt : Part} (p : HostPort) (v : Word) (n : Node)
    (hpt : pt ∉ [.port p]) : Part.get (stSelWrite p v n) pt = Part.get n pt := by
  simp only [List.mem_cons, List.not_mem_nil, or_false, not_or] at hpt
  unfold stSelWrite
  (repeat' split) <;> simp [hpt, modPort_get, get_foldl, get_ite]

theorem stDataRead_get {pt : Part} (p : HostPort) (n : Node)
    (hpt : pt ∉ [.port p]) : Part.get (stDataRead p n).2.2 pt = Part.get n pt := by
  simp only [List.mem_cons, List.not_mem_nil, or_false, not_or] at hpt
  unfold stDataRead
  (repeat' split) <;> (try simp [hpt, setPort_get, get_foldl, get_ite]) <;> (try intros) <;> (repeat' split) <;> (try simp_all [hpt, setPort_get, get_foldl, get_ite])

theorem recAppend_get {pt : Part} (v : Word) (n : Node)
    (hpt : pt ∉ [.rcd]) : Part.get (recAppend v n).2 pt = Part.get n pt := by
  simp only [List.mem_cons, List.not_mem_nil, or_false, not_or] at hpt
  unfold recAppend
  (repeat' split) <;> (try simp [hpt, recNote_get, get_foldl, get_ite]) <;> (try intros) <;> (repeat' split) <;> (try simp_all [hpt, recNote_get, get_foldl, get_ite])

theorem msLoRead_get {pt : Part} (p : HostPort) (n : Node)
    (hpt : pt ∉ [.port p]) : Part.get (msLoRead p n).2 pt = Part.get n pt := by
  simp only [List.mem_cons, List.not_mem_nil, or_false, not_or] at hpt
  unfold msLoRead
  (repeat' split) <;> simp [hpt, modPort_get, get_foldl, get_ite]

theorem msHiRead_get {pt : Part} (p : HostPort) (n : Node)
    (hpt : pt ∉ [.port p]) : Part.get (msHiRead p n).2 pt = Part.get n pt := by
  simp only [List.mem_cons, List.not_mem_nil, or_false, not_or] at hpt
  unfold msHiRead
  (repeat' split) <;> simp [hpt, modPort_get, get_foldl, get_ite]

theorem recAppWrite_get {pt : Part} (addr : Nat) (v : Word) (n : Node)
    (hpt : pt ∉ [.rcd]) : Part.get (recAppWrite addr v n) pt = Part.get n pt := by
  simp only [List.mem_cons, List.not_mem_nil, or_false, not_or] at hpt
  unfold recAppWrite
  (repeat' split) <;> simp [hpt, get_upd_rcd, get_foldl, get_ite]

theorem setAlmP_get {pt : Part} (i : Nat) (p : AlmPt) (n : Node)
    (hpt : pt ∉ [.alm]) : Part.get (setAlmP i p n) pt = Part.get n pt := by
  simp only [List.mem_cons, List.not_mem_nil, or_false, not_or] at hpt
  unfold setAlmP
  (repeat' split) <;> simp [hpt, get_upd_alm, get_foldl, get_ite]

theorem setAlmG_get {pt : Part} (g : Nat) (x : AlmGrp) (n : Node)
    (hpt : pt ∉ [.alm]) : Part.get (setAlmG g x n) pt = Part.get n pt := by
  simp only [List.mem_cons, List.not_mem_nil, or_false, not_or] at hpt
  unfold setAlmG
  (repeat' split) <;> simp [hpt, get_upd_alm, get_foldl, get_ite]

theorem almLog_get {pt : Part} (kind idx new old cause : Nat) (w1 : Word) (n : Node)
    (hpt : pt ∉ [.alm, .dupSent, .evt, .rcd]) : Part.get (almLog kind idx new old cause w1 n) pt = Part.get n pt := by
  simp only [List.mem_cons, List.not_mem_nil, or_false, not_or] at hpt
  unfold almLog
  (repeat' split) <;> simp [hpt, raiseIf_get, get_upd_alm, get_foldl, get_ite]

theorem almGo_get {pt : Part} (i new cause : Nat) (w1 : Option Word) (n : Node)
    (hpt : pt ∉ [.alm, .almDue, .dupSent, .evt, .rcd]) : Part.get (almGo i new cause w1 n) pt = Part.get n pt := by
  simp only [List.mem_cons, List.not_mem_nil, or_false, not_or] at hpt
  unfold almGo
  (repeat' split) <;> simp [hpt, almLog_get, setAlmP_get, get_upd_alm, get_foldl, get_ite]

theorem modAlmP_get {pt : Part} (i : Nat) (f : AlmPt → AlmPt) (n : Node)
    (hpt : pt ∉ [.alm]) : Part.get (modAlmP i f n) pt = Part.get n pt := by
  simp only [List.mem_cons, List.not_mem_nil, or_false, not_or] at hpt
  unfold modAlmP
  (repeat' split) <;> simp [hpt, setAlmP_get, get_foldl, get_ite]

theorem almOnExp_get {pt : Part} (i : Nat) (start : Int) (n : Node)
    (hpt : pt ∉ [.alm, .almDue, .dupSent, .evt, .rcd]) : Part.get (almOnExp i start n) pt = Part.get n pt := by
  simp only [List.mem_cons, List.not_mem_nil, or_false, not_or] at hpt
  unfold almOnExp
  (repeat' split) <;> simp [hpt, almGo_get, modAlmP_get, raise_get, get_foldl, get_ite]

theorem almOffExp_get {pt : Part} (i : Nat) (n : Node)
    (hpt : pt ∉ [.alm, .almDue, .dup, .dupSent, .evt, .rcd]) : Part.get (almOffExp i n) pt = Part.get n pt := by
  simp only [List.mem_cons, List.not_mem_nil, or_false, not_or] at hpt
  unfold almOffExp
  (repeat' split) <;> simp [hpt, almGo_get, modAlmP_get, raise_get, get_foldl, get_ite]

theorem almOnDue_get {pt : Part} (i t : Nat) (n : Node)
    (hpt : pt ∉ [.alm, .almDue, .dupSent, .evt, .rcd]) : Part.get (almOnDue i t n) pt = Part.get n pt := by
  simp only [List.mem_cons, List.not_mem_nil, or_false, not_or] at hpt
  unfold almOnDue
  (repeat' split) <;> (try simp [hpt, almOnExp_get, get_foldl, get_ite]) <;> (try intros) <;> (repeat' split) <;> (try simp_all [hpt, almOnExp_get, get_foldl, get_ite])

theorem almOffDue_get {pt : Part} (i t : Nat) (n : Node)
    (hpt : pt ∉ [.alm, .almDue, .dup, .dupSent, .evt, .rcd]) : Part.get (almOffDue i t n) pt = Part.get n pt := by
  simp only [List.mem_cons, List.not_mem_nil, or_false, not_or] at hpt
  unfold almOffDue
  (repeat' split) <;> (try simp [hpt, almOffExp_get, get_foldl, get_ite]) <;> (try intros) <;> (repeat' split) <;> (try simp_all [hpt, almOffExp_get, get_foldl, get_ite])

theorem almCond_get {pt : Part} (i : Nat) (c : Bool) (t : Nat) (n : Node)
    (hpt : pt ∉ [.alm, .almDue, .dup, .dupSent, .evt, .rcd]) : Part.get (almCond i c t n) pt = Part.get n pt := by
  simp only [List.mem_cons, List.not_mem_nil, or_false, not_or] at hpt
  unfold almCond
  (repeat' split) <;> simp [hpt, almOffExp_get, almOnExp_get, setAlmP_get, get_foldl, get_ite]

theorem almToNormal_get {pt : Part} (i cause : Nat) (w1 : Option Word) (n : Node)
    (hpt : pt ∉ [.alm, .almDue, .dupSent, .evt, .rcd]) : Part.get (almToNormal i cause w1 n) pt = Part.get n pt := by
  simp only [List.mem_cons, List.not_mem_nil, or_false, not_or] at hpt
  unfold almToNormal
  (repeat' split) <;> simp [hpt, almGo_get, almOnExp_get, modAlmP_get, get_foldl, get_ite]

theorem almToSupp_get {pt : Part} (i cause : Nat) (w1 : Option Word) (n : Node)
    (hpt : pt ∉ [.alm, .almDue, .dupSent, .evt, .rcd]) : Part.get (almToSupp i cause w1 n) pt = Part.get n pt := by
  simp only [List.mem_cons, List.not_mem_nil, or_false, not_or] at hpt
  unfold almToSupp
  (repeat' split) <;> simp [hpt, almGo_get, modAlmP_get, get_foldl, get_ite]

theorem almLeave_get {pt : Part} (i cause : Nat) (n : Node)
    (hpt : pt ∉ [.alm, .almDue, .dupSent, .evt, .rcd]) : Part.get (almLeave i cause n) pt = Part.get n pt := by
  simp only [List.mem_cons, List.not_mem_nil, or_false, not_or] at hpt
  unfold almLeave
  (repeat' split) <;> simp [hpt, almToNormal_get, almToSupp_get, modAlmP_get, get_foldl, get_ite]

theorem almOver_get {pt : Part} (i st cause : Nat) (n : Node)
    (hpt : pt ∉ [.alm, .almDue, .dupSent, .evt, .rcd]) : Part.get (almOver i st cause n) pt = Part.get n pt := by
  simp only [List.mem_cons, List.not_mem_nil, or_false, not_or] at hpt
  unfold almOver
  (repeat' split) <;> simp [hpt, almGo_get, modAlmP_get, get_foldl, get_ite]

theorem almShelveDue_get {pt : Part} (i t : Nat) (n : Node)
    (hpt : pt ∉ [.alm, .almDue, .dupSent, .evt, .rcd]) : Part.get (almShelveDue i t n) pt = Part.get n pt := by
  simp only [List.mem_cons, List.not_mem_nil, or_false, not_or] at hpt
  unfold almShelveDue
  (repeat' split) <;> (try simp [hpt, almLeave_get, get_foldl, get_ite]) <;> (try intros) <;> (repeat' split) <;> (try simp_all [hpt, almLeave_get, get_foldl, get_ite])

theorem almRate_get {pt : Part} (i : Nat) (r : Bytes) (e us : Int) (t : Nat) (n : Node)
    (hpt : pt ∉ [.alm, .almDue, .dup, .dupSent, .evt, .rcd]) : Part.get (almRate i r e us t n) pt = Part.get n pt := by
  simp only [List.mem_cons, List.not_mem_nil, or_false, not_or] at hpt
  unfold almRate
  (repeat' split) <;> simp [hpt, almCond_get, modAlmP_get, get_foldl, get_ite]

theorem almEval_get {pt : Part} (i : Nat) (r : Bytes) (t : Nat) (n : Node)
    (hpt : pt ∉ [.alm, .almDue, .dup, .dupSent, .evt, .rcd]) : Part.get (almEval i r t n) pt = Part.get n pt := by
  simp only [List.mem_cons, List.not_mem_nil, or_false, not_or] at hpt
  unfold almEval
  (repeat' split) <;> (try simp [hpt, almCond_get, almRate_get, modAlmP_get, get_foldl, get_ite]) <;> (try intros) <;> (repeat' split) <;> (try simp_all [hpt, almCond_get, almRate_get, modAlmP_get, get_foldl, get_ite])

theorem almRecord_get {pt : Part} (addrs : List Nat) (t : Nat) (n : Node)
    (hpt : pt ∉ [.alm, .almDue, .dup, .dupSent, .evt, .rcd]) : Part.get (almRecord addrs t n) pt = Part.get n pt := by
  simp only [List.mem_cons, List.not_mem_nil, or_false, not_or] at hpt
  unfold almRecord
  (repeat' split) <;> simp [hpt, almEval_get, get_foldl, get_ite]

theorem groupSuppress_get {pt : Part} (g : Nat) (n : Node)
    (hpt : pt ∉ [.alm, .almDue, .dupSent, .evt, .rcd]) : Part.get (groupSuppress g n) pt = Part.get n pt := by
  simp only [List.mem_cons, List.not_mem_nil, or_false, not_or] at hpt
  unfold groupSuppress
  refine (get_foldl _ _ _ (fun m a => ?_)).trans (by simp [hpt, almLog_get, almToSupp_get, modAlmP_get, setAlmG_get, get_foldl, get_ite])
  dsimp only
  (repeat' split) <;> simp [hpt, almLog_get, almToSupp_get, modAlmP_get, setAlmG_get, get_foldl, get_ite]

theorem groupRelease_get {pt : Part} (g : Nat) (n : Node)
    (hpt : pt ∉ [.alm, .almDue, .dupSent, .evt, .rcd]) : Part.get (groupRelease g n) pt = Part.get n pt := by
  simp only [List.mem_cons, List.not_mem_nil, or_false, not_or] at hpt
  unfold groupRelease
  (repeat' split) <;> simp [hpt, almLog_get, almToNormal_get, modAlmP_get, setAlmG_get, get_foldl, get_ite]

theorem groupDue_get {pt : Part} (g t : Nat) (n : Node)
    (hpt : pt ∉ [.alm, .almDue, .dupSent, .evt, .rcd]) : Part.get (groupDue g t n) pt = Part.get n pt := by
  simp only [List.mem_cons, List.not_mem_nil, or_false, not_or] at hpt
  unfold groupDue
  (repeat' split) <;> (try simp [hpt, groupRelease_get, get_foldl, get_ite]) <;> (try intros) <;> (repeat' split) <;> (try simp_all [hpt, groupRelease_get, get_foldl, get_ite])

theorem groupTick_get {pt : Part} (t : Nat) (n : Node) (g : Nat)
    (hpt : pt ∉ [.alm, .almDue, .dupSent, .evt, .rcd]) : Part.get (groupTick t n g) pt = Part.get n pt := by
  simp only [List.mem_cons, List.not_mem_nil, or_false, not_or] at hpt
  unfold groupTick
  (repeat' split) <;> simp [hpt, groupDue_get, groupSuppress_get, setAlmG_get, get_foldl, get_ite]

theorem foCapture_get {pt : Part} (n : Node) (g : Nat)
    (hpt : pt ∉ [.alm, .dupSent, .evt, .rcd]) : Part.get (foCapture n g) pt = Part.get n pt := by
  simp only [List.mem_cons, List.not_mem_nil, or_false, not_or] at hpt
  unfold foCapture
  (repeat' split) <;> (try simp [hpt, raise_get, setAlmG_get, get_foldl, get_ite]) <;> (try intros) <;> (repeat' split) <;> (try simp_all [hpt, raise_get, setAlmG_get, get_foldl, get_ite])

theorem callStart_get {pt : Part} (cause : Nat) (n : Node)
    (hpt : pt ∉ [.alm, .dupSent, .evt, .rcd]) : Part.get (callStart cause n) pt = Part.get n pt := by
  simp only [List.mem_cons, List.not_mem_nil, or_false, not_or] at hpt
  unfold callStart
  (repeat' split) <;> simp [hpt, almLog_get, get_upd_alm, get_foldl, get_ite]

theorem callEnd_get {pt : Part} (s : Nat) (n : Node)
    (hpt : pt ∉ [.alm, .dupSent, .evt, .rcd]) : Part.get (callEnd s n) pt = Part.get n pt := by
  simp only [List.mem_cons, List.not_mem_nil, or_false, not_or] at hpt
  unfold callEnd
  (repeat' split) <;> simp [hpt, almLog_get, raise_get, get_upd_alm, get_foldl, get_ite]

theorem almRefuse_get {pt : Part} (n : Node)
    (hpt : pt ∉ [.alm]) : Part.get (almRefuse n) pt = Part.get n pt := by
  simp only [List.mem_cons, List.not_mem_nil, or_false, not_or] at hpt
  unfold almRefuse
  (repeat' split) <;> simp [hpt, get_upd_alm, get_foldl, get_ite]

theorem callAck_get {pt : Part} (s : Nat) (n : Node)
    (hpt : pt ∉ [.alm, .dupSent, .evt, .rcd]) : Part.get (callAck s n) pt = Part.get n pt := by
  simp only [List.mem_cons, List.not_mem_nil, or_false, not_or] at hpt
  unfold callAck
  (repeat' split) <;> simp [hpt, almRefuse_get, callEnd_get, get_foldl, get_ite]

theorem callEscalate_get {pt : Part} (t : Nat) (n : Node)
    (hpt : pt ∉ [.alm, .dupSent, .evt, .rcd]) : Part.get (callEscalate t n) pt = Part.get n pt := by
  simp only [List.mem_cons, List.not_mem_nil, or_false, not_or] at hpt
  unfold callEscalate
  (repeat' split) <;> simp [hpt, almLog_get, raise_get, get_upd_alm, get_foldl, get_ite]

theorem callRecall_get {pt : Part} (t : Nat) (n : Node)
    (hpt : pt ∉ [.alm, .dupSent, .evt, .rcd]) : Part.get (callRecall t n) pt = Part.get n pt := by
  simp only [List.mem_cons, List.not_mem_nil, or_false, not_or] at hpt
  unfold callRecall
  (repeat' split) <;> simp [hpt, callStart_get, get_upd_alm, get_foldl, get_ite]

theorem callTick_get {pt : Part} (ent : List (Nat × Nat × Bool)) (repat : Bool) (n : Node)
    (hpt : pt ∉ [.alm, .dupSent, .evt, .rcd]) : Part.get (callTick ent repat n) pt = Part.get n pt := by
  simp only [List.mem_cons, List.not_mem_nil, or_false, not_or] at hpt
  unfold callTick
  (repeat' split) <;> simp [hpt, callEnd_get, callStart_get, get_upd_alm, get_foldl, get_ite]

theorem patrolSet_get {pt : Part} (x : Nat) (n : Node)
    (hpt : pt ∉ [.alm, .dupSent, .evt, .rcd]) : Part.get (patrolSet x n) pt = Part.get n pt := by
  simp only [List.mem_cons, List.not_mem_nil, or_false, not_or] at hpt
  unfold patrolSet
  (repeat' split) <;> simp [hpt, almLog_get, get_upd_alm, get_foldl, get_ite]

theorem patrolLoad_get {pt : Part} (n : Node)
    (hpt : pt ∉ [.alm, .dupSent, .evt, .rcd]) : Part.get (patrolLoad n) pt = Part.get n pt := by
  simp only [List.mem_cons, List.not_mem_nil, or_false, not_or] at hpt
  unfold patrolLoad
  (repeat' split) <;> simp [hpt, patrolSet_get, get_upd_alm, get_foldl, get_ite]

theorem patrolPress_get {pt : Part} (n : Node)
    (hpt : pt ∉ [.alm, .dupSent, .evt, .rcd]) : Part.get (patrolPress n) pt = Part.get n pt := by
  simp only [List.mem_cons, List.not_mem_nil, or_false, not_or] at hpt
  unfold patrolPress
  (repeat' split) <;> simp [hpt, callEnd_get, patrolLoad_get, get_foldl, get_ite]

theorem patrolStart_get {pt : Part} (n : Node)
    (hpt : pt ∉ [.alm, .dupSent, .evt, .rcd]) : Part.get (patrolStart n) pt = Part.get n pt := by
  simp only [List.mem_cons, List.not_mem_nil, or_false, not_or] at hpt
  unfold patrolStart
  (repeat' split) <;> simp [hpt, patrolLoad_get, get_foldl, get_ite]

theorem patrolStop_get {pt : Part} (n : Node)
    (hpt : pt ∉ [.alm, .dupSent, .evt, .rcd]) : Part.get (patrolStop n) pt = Part.get n pt := by
  simp only [List.mem_cons, List.not_mem_nil, or_false, not_or] at hpt
  unfold patrolStop
  (repeat' split) <;> simp [hpt, patrolSet_get, get_foldl, get_ite]

theorem patrolWarn_get {pt : Part} (t : Nat) (n : Node)
    (hpt : pt ∉ [.alm, .dupSent, .evt, .rcd]) : Part.get (patrolWarn t n) pt = Part.get n pt := by
  simp only [List.mem_cons, List.not_mem_nil, or_false, not_or] at hpt
  unfold patrolWarn
  (repeat' split) <;> simp [hpt, patrolSet_get, get_foldl, get_ite]

theorem patrolExpire_get {pt : Part} (t : Nat) (n : Node)
    (hpt : pt ∉ [.alm, .dupSent, .evt, .rcd]) : Part.get (patrolExpire t n) pt = Part.get n pt := by
  simp only [List.mem_cons, List.not_mem_nil, or_false, not_or] at hpt
  unfold patrolExpire
  (repeat' split) <;> simp [hpt, almLog_get, patrolSet_get, raise_get, get_upd_alm, get_foldl, get_ite]

theorem almAck1_get {pt : Part} (i : Nat) (n : Node)
    (hpt : pt ∉ [.alm, .almDue, .dupSent, .evt, .rcd]) : Part.get (almAck1 i n) pt = Part.get n pt := by
  simp only [List.mem_cons, List.not_mem_nil, or_false, not_or] at hpt
  unfold almAck1
  (repeat' split) <;> simp [hpt, almGo_get, almToSupp_get, get_foldl, get_ite]

theorem almAck_get {pt : Part} (i : Nat) (n : Node)
    (hpt : pt ∉ [.alm, .almDue, .dupSent, .evt, .rcd]) : Part.get (almAck i n) pt = Part.get n pt := by
  simp only [List.mem_cons, List.not_mem_nil, or_false, not_or] at hpt
  unfold almAck
  (repeat' split) <;> simp [hpt, almAck1_get, almRefuse_get, get_foldl, get_ite]

theorem almAckGroup_get {pt : Part} (g : Nat) (n : Node)
    (hpt : pt ∉ [.alm, .almDue, .dupSent, .evt, .rcd]) : Part.get (almAckGroup g n) pt = Part.get n pt := by
  simp only [List.mem_cons, List.not_mem_nil, or_false, not_or] at hpt
  unfold almAckGroup
  (repeat' split) <;> simp [hpt, almAck1_get, almRefuse_get, get_foldl, get_ite]

theorem almAckAll_get {pt : Part} (n : Node)
    (hpt : pt ∉ [.alm, .almDue, .dupSent, .evt, .rcd]) : Part.get (almAckAll n) pt = Part.get n pt := by
  simp only [List.mem_cons, List.not_mem_nil, or_false, not_or] at hpt
  unfold almAckAll
  (repeat' split) <;> simp [hpt, almAck1_get, get_foldl, get_ite]

theorem almReset_get {pt : Part} (i : Nat) (n : Node)
    (hpt : pt ∉ [.alm, .almDue, .dupSent, .evt, .rcd]) : Part.get (almReset i n) pt = Part.get n pt := by
  simp only [List.mem_cons, List.not_mem_nil, or_false, not_or] at hpt
  unfold almReset
  (repeat' split) <;> simp [hpt, almGo_get, almRefuse_get, raise_get, get_foldl, get_ite]

theorem almShelve_get {pt : Part} (i arg : Nat) (n : Node)
    (hpt : pt ∉ [.alm, .almDue, .dupSent, .evt, .rcd]) : Part.get (almShelve i arg n) pt = Part.get n pt := by
  simp only [List.mem_cons, List.not_mem_nil, or_false, not_or] at hpt
  unfold almShelve
  (repeat' split) <;> simp [hpt, almOver_get, almRefuse_get, modAlmP_get, get_foldl, get_ite]

theorem almUnshelve_get {pt : Part} (i : Nat) (n : Node)
    (hpt : pt ∉ [.alm, .almDue, .dupSent, .evt, .rcd]) : Part.get (almUnshelve i n) pt = Part.get n pt := by
  simp only [List.mem_cons, List.not_mem_nil, or_false, not_or] at hpt
  unfold almUnshelve
  (repeat' split) <;> simp [hpt, almLeave_get, almRefuse_get, get_foldl, get_ite]

theorem almInhibit_get {pt : Part} (i : Nat) (n : Node)
    (hpt : pt ∉ [.alm, .almDue, .dupSent, .evt, .rcd]) : Part.get (almInhibit i n) pt = Part.get n pt := by
  simp only [List.mem_cons, List.not_mem_nil, or_false, not_or] at hpt
  unfold almInhibit
  (repeat' split) <;> simp [hpt, almOver_get, almRefuse_get, get_foldl, get_ite]

theorem almRelease_get {pt : Part} (i : Nat) (n : Node)
    (hpt : pt ∉ [.alm, .almDue, .dupSent, .evt, .rcd]) : Part.get (almRelease i n) pt = Part.get n pt := by
  simp only [List.mem_cons, List.not_mem_nil, or_false, not_or] at hpt
  unfold almRelease
  (repeat' split) <;> simp [hpt, almLeave_get, almRefuse_get, get_foldl, get_ite]

theorem almFoReset_get {pt : Part} (g : Nat) (n : Node)
    (hpt : pt ∉ [.alm]) : Part.get (almFoReset g n) pt = Part.get n pt := by
  simp only [List.mem_cons, List.not_mem_nil, or_false, not_or] at hpt
  unfold almFoReset
  (repeat' split) <;> simp [hpt, almRefuse_get, setAlmG_get, get_foldl, get_ite]

theorem almOos_get {pt : Part} (i : Nat) (n : Node)
    (hpt : pt ∉ [.alm, .almDue, .dupSent, .evt, .rcd]) : Part.get (almOos i n) pt = Part.get n pt := by
  simp only [List.mem_cons, List.not_mem_nil, or_false, not_or] at hpt
  unfold almOos
  (repeat' split) <;> simp [hpt, almOver_get, almRefuse_get, get_foldl, get_ite]

theorem almReturn_get {pt : Part} (i : Nat) (n : Node)
    (hpt : pt ∉ [.alm, .almDue, .dupSent, .evt, .rcd]) : Part.get (almReturn i n) pt = Part.get n pt := by
  simp only [List.mem_cons, List.not_mem_nil, or_false, not_or] at hpt
  unfold almReturn
  (repeat' split) <;> simp [hpt, almLeave_get, almRefuse_get, get_foldl, get_ite]

theorem almCmd_get {pt : Part} (v : Word) (n : Node)
    (hpt : pt ∉ [.alm, .almDue, .dupSent, .evt, .rcd]) : Part.get (almCmd v n) pt = Part.get n pt := by
  simp only [List.mem_cons, List.not_mem_nil, or_false, not_or] at hpt
  unfold almCmd
  (repeat' split) <;> simp [hpt, almAck_get, almAckAll_get, almAckGroup_get, almFoReset_get, almInhibit_get, almRefuse_get, almRelease_get, almReset_get, almShelve_get, almUnshelve_get, get_foldl, get_ite]

theorem almXcmd_get {pt : Part} (v : Word) (n : Node)
    (hpt : pt ∉ [.alm, .almDue, .dupSent, .evt, .rcd]) : Part.get (almXcmd v n) pt = Part.get n pt := by
  simp only [List.mem_cons, List.not_mem_nil, or_false, not_or] at hpt
  unfold almXcmd
  (repeat' split) <;> simp [hpt, almOos_get, almRefuse_get, almReturn_get, get_foldl, get_ite]

theorem almScan_get {pt : Part} (t : Nat) (n : Node)
    (hpt : pt ∉ [.alm, .almDue, .dup, .dupSent, .evt, .rcd]) : Part.get (almScan t n) pt = Part.get n pt := by
  simp only [List.mem_cons, List.not_mem_nil, or_false, not_or] at hpt
  unfold almScan
  split
  · rfl
  dsimp only
  have hw : ∀ (k : Node) (e : List (Nat × Nat × Bool)) (q : List AlmIn), Part.get { k with alm.entered := e, alm.inq := q } pt = Part.get k pt :=
    fun k e q => by simp [hpt, almOffDue_get, almOnDue_get, almShelveDue_get, callEscalate_get, callRecall_get, callTick_get, foCapture_get, groupTick_get, patrolExpire_get, patrolWarn_get, get_upd_alm, get_foldl, get_ite]
  have hi : ∀ (k : Node) (a : AlmIn), Part.get (almInput k a) pt = Part.get k pt := fun k a => by
    cases a <;> simp [almInput, hpt, almOffDue_get, almOnDue_get, almShelveDue_get, callEscalate_get, callRecall_get, callTick_get, foCapture_get, groupTick_get, patrolExpire_get, patrolWarn_get, get_upd_alm, get_foldl, get_ite, almCmd_get, almXcmd_get, callAck_get, patrolStart_get, patrolStop_get, patrolPress_get, almRefuse_get, get_upd_alm]
  rw [patrolExpire_get _ _ (by simp [hpt]), patrolWarn_get _ _ (by simp [hpt]), callEscalate_get _ _ (by simp [hpt]),
    callRecall_get _ _ (by simp [hpt]), callTick_get _ _ _ (by simp [hpt]), get_foldl _ _ _ (fun m a => hi m a), hw,
    get_foldl _ _ _ (fun m a => foCapture_get _ _ (by simp [hpt])), get_foldl _ _ _ (fun m a => groupTick_get _ _ _ (by simp [hpt])),
    get_foldl _ _ _ (fun m a => by simp [hpt, almOffDue_get, almOnDue_get, almShelveDue_get, callEscalate_get, callRecall_get, callTick_get, foCapture_get, groupTick_get, patrolExpire_get, patrolWarn_get, get_upd_alm, get_foldl, get_ite])]
  simp [hpt, almOffDue_get, almOnDue_get, almShelveDue_get, callEscalate_get, callRecall_get, callTick_get, foCapture_get, groupTick_get, patrolExpire_get, patrolWarn_get, get_upd_alm, get_foldl, get_ite]

theorem almPress_get {pt : Part} (k : Nat) (n : Node)
    (hpt : pt ∉ [.alm]) : Part.get (almPress k n) pt = Part.get n pt := by
  simp only [List.mem_cons, List.not_mem_nil, or_false, not_or] at hpt
  unfold almPress
  (repeat' split) <;> simp [hpt, get_upd_alm, get_foldl, get_ite]

theorem almQueue_get {pt : Part} (x : AlmIn) (n : Node)
    (hpt : pt ∉ [.alm]) : Part.get (almQueue x n) pt = Part.get n pt := by
  simp only [List.mem_cons, List.not_mem_nil, or_false, not_or] at hpt
  unfold almQueue
  (repeat' split) <;> simp [hpt, get_upd_alm, get_foldl, get_ite]

theorem almCmdWrite_get {pt : Part} (v : Word) (n : Node)
    (hpt : pt ∉ [.alm, .almDue, .dupSent, .evt, .rcd]) : Part.get (almCmdWrite v n) pt = Part.get n pt := by
  simp only [List.mem_cons, List.not_mem_nil, or_false, not_or] at hpt
  unfold almCmdWrite
  (repeat' split) <;> simp [hpt, almCmd_get, almQueue_get, get_foldl, get_ite]

theorem almXcmdWrite_get {pt : Part} (v : Word) (n : Node)
    (hpt : pt ∉ [.alm, .almDue, .dupSent, .evt, .rcd]) : Part.get (almXcmdWrite v n) pt = Part.get n pt := by
  simp only [List.mem_cons, List.not_mem_nil, or_false, not_or] at hpt
  unfold almXcmdWrite
  (repeat' split) <;> simp [hpt, almQueue_get, almXcmd_get, get_foldl, get_ite]

theorem almDutyWrite_get {pt : Part} (v : Word) (n : Node)
    (hpt : pt ∉ [.alm]) : Part.get (almDutyWrite v n) pt = Part.get n pt := by
  simp only [List.mem_cons, List.not_mem_nil, or_false, not_or] at hpt
  unfold almDutyWrite
  (repeat' split) <;> simp [hpt, almQueue_get, almRefuse_get, get_upd_alm, get_foldl, get_ite]

theorem almCallAckWrite_get {pt : Part} (v : Word) (n : Node)
    (hpt : pt ∉ [.alm]) : Part.get (almCallAckWrite v n) pt = Part.get n pt := by
  simp only [List.mem_cons, List.not_mem_nil, or_false, not_or] at hpt
  unfold almCallAckWrite
  (repeat' split) <;> simp [hpt, almQueue_get, almRefuse_get, get_foldl, get_ite]

theorem almPatrolWrite_get {pt : Part} (v : Word) (n : Node)
    (hpt : pt ∉ [.alm]) : Part.get (almPatrolWrite v n) pt = Part.get n pt := by
  simp only [List.mem_cons, List.not_mem_nil, or_false, not_or] at hpt
  unfold almPatrolWrite
  (repeat' split) <;> simp [hpt, almQueue_get, almRefuse_get, get_foldl, get_ite]

theorem almApply_get {pt : Part} (restart : Bool) (n : Node)
    (hpt : pt ∉ [.alm, .dupSent, .evt, .rcd]) : Part.get (almApply restart n) pt = Part.get n pt := by
  simp only [List.mem_cons, List.not_mem_nil, or_false, not_or] at hpt
  unfold almApply
  (repeat' split) <;> simp [hpt, almLog_get, get_upd_alm, get_foldl, get_ite]

theorem almRestart_get {pt : Part} (i : Nat) (n : Node)
    (hpt : pt ∉ [.alm, .almDue, .dupSent, .evt, .rcd]) : Part.get (almRestart i n) pt = Part.get n pt := by
  simp only [List.mem_cons, List.not_mem_nil, or_false, not_or] at hpt
  unfold almRestart
  (repeat' split) <;> simp [hpt, almGo_get, setAlmP_get, get_foldl, get_ite]

theorem almReplace_get {pt : Part} (old : Nat → Bytes) (n : Node)
    (hpt : pt ∉ [.alm, .almDue, .dupSent, .evt, .rcd]) : Part.get (almReplace old n) pt = Part.get n pt := by
  simp only [List.mem_cons, List.not_mem_nil, or_false, not_or] at hpt
  unfold almReplace
  (repeat' split) <;> simp [hpt, almRestart_get, setAlmP_get, get_foldl, get_ite]

theorem groupReplace_get {pt : Part} (oldCount : Nat) (n : Node)
    (hpt : pt ∉ [.alm, .almDue, .dupSent, .evt, .rcd]) : Part.get (groupReplace oldCount n) pt = Part.get n pt := by
  simp only [List.mem_cons, List.not_mem_nil, or_false, not_or] at hpt
  unfold groupReplace
  (repeat' split) <;> simp [hpt, groupRelease_get, setAlmG_get, get_foldl, get_ite]

theorem wsSync_get {pt : Part} (n : Node)
    (hpt : pt ∉ [.digOut]) : Part.get (wsSync n) pt = Part.get n pt := by
  simp only [List.mem_cons, List.not_mem_nil, or_false, not_or] at hpt
  unfold wsSync
  (repeat' split) <;> simp [hpt, modDo_get, get_foldl, get_ite]

theorem almFindWrite_get {pt : Part} (p : HostPort) (v : Word) (n : Node)
    (hpt : pt ∉ [.port p]) : Part.get (almFindWrite p v n) pt = Part.get n pt := by
  simp only [List.mem_cons, List.not_mem_nil, or_false, not_or] at hpt
  unfold almFindWrite
  (repeat' split) <;> simp [hpt, modPort_get, get_foldl, get_ite]

theorem almLogIdxWrite_get {pt : Part} (p : HostPort) (v : Word) (n : Node)
    (hpt : pt ∉ [.port p]) : Part.get (almLogIdxWrite p v n) pt = Part.get n pt := by
  simp only [List.mem_cons, List.not_mem_nil, or_false, not_or] at hpt
  unfold almLogIdxWrite
  (repeat' split) <;> simp [hpt, modPort_get, get_foldl, get_ite]

theorem almLogData_get {pt : Part} (p : HostPort) (n : Node)
    (hpt : pt ∉ [.dup, .port p]) : Part.get (almLogData p n).2.2 pt = Part.get n pt := by
  simp only [List.mem_cons, List.not_mem_nil, or_false, not_or] at hpt
  unfold almLogData
  (repeat' split) <;> (try simp [hpt, setPort_get, get_foldl, get_ite]) <;> (try intros) <;> (repeat' split) <;> (try simp_all [hpt, setPort_get, get_foldl, get_ite])

theorem almWrite_get {pt : Part} (p : HostPort) (addr : Nat) (v : Word) (n : Node)
    (hpt : pt ∉ [.alm, .almDue, .dupSent, .evt, .rcd, .port p]) : Part.get (almWrite p addr v n) pt = Part.get n pt := by
  simp only [List.mem_cons, List.not_mem_nil, or_false, not_or] at hpt
  unfold almWrite
  (repeat' split) <;> simp [hpt, almCallAckWrite_get, almCmdWrite_get, almDutyWrite_get, almFindWrite_get, almLogIdxWrite_get, almPatrolWrite_get, almXcmdWrite_get, get_upd_alm, get_foldl, get_ite]

theorem setSq_get {pt : Part} (s : Nat) (x : Seq) (n : Node)
    (hpt : pt ∉ [.seq]) : Part.get (setSq s x n) pt = Part.get n pt := by
  simp only [List.mem_cons, List.not_mem_nil, or_false, not_or] at hpt
  unfold setSq
  (repeat' split) <;> simp [hpt, get_upd_seq, get_foldl, get_ite]

theorem modSq_get {pt : Part} (s : Nat) (f : Seq → Seq) (n : Node)
    (hpt : pt ∉ [.seq]) : Part.get (modSq s f n) pt = Part.get n pt := by
  simp only [List.mem_cons, List.not_mem_nil, or_false, not_or] at hpt
  unfold modSq
  (repeat' split) <;> simp [hpt, setSq_get, get_foldl, get_ite]

theorem actDo_get {pt : Part} (s kind tgt arg : Nat) (val : Word) (n : Node)
    (hpt : pt ∉ [.alm, .almDue, .digOut, .dupSent, .evt, .ln, .lo, .po, .rcd, .seq, .shp, .slots]) : Part.get (actDo s kind tgt arg val n) pt = Part.get n pt := by
  simp only [List.mem_cons, List.not_mem_nil, or_false, not_or] at hpt
  unfold actDo
  (repeat' split) <;> (try simp [hpt, almCmdWrite_get, doCmdWrite_get, lnAddI_get, lnRequest_get, loDemandWrite_get, modLn_get, poSetWrite_get, setSq_get, svFire_get, get_foldl, get_ite]) <;> (try intros) <;> (repeat' split) <;> (try simp_all [hpt, almCmdWrite_get, doCmdWrite_get, lnAddI_get, lnRequest_get, loDemandWrite_get, modLn_get, poSetWrite_get, setSq_get, svFire_get, get_foldl, get_ite])

theorem sqAction_get {pt : Part} (s : Nat) (r : Bytes) (o : Nat) (n : Node)
    (hpt : pt ∉ [.alm, .almDue, .digOut, .dupSent, .evt, .ln, .lo, .po, .rcd, .seq, .shp, .slots]) : Part.get (sqAction s r o n) pt = Part.get n pt := by
  simp only [List.mem_cons, List.not_mem_nil, or_false, not_or] at hpt
  unfold sqAction
  (repeat' split) <;> simp [hpt, actDo_get, almRefuse_get, modSq_get, get_foldl, get_ite]

theorem sqActs_get {pt : Part} (s k : Nat) (n : Node)
    (hpt : pt ∉ [.alm, .almDue, .digOut, .dupSent, .evt, .ln, .lo, .po, .rcd, .seq, .shp, .slots]) : Part.get (sqActs s k n) pt = Part.get n pt := by
  simp only [List.mem_cons, List.not_mem_nil, or_false, not_or] at hpt
  unfold sqActs
  (repeat' split) <;> simp [hpt, sqAction_get, get_foldl, get_ite]

theorem sqAside_get {pt : Part} (s k : Nat) (n : Node)
    (hpt : pt ∉ [.alm, .almDue, .digOut, .dupSent, .evt, .ln, .lo, .po, .rcd, .seq, .shp, .slots]) : Part.get (sqAside s k n) pt = Part.get n pt := by
  simp only [List.mem_cons, List.not_mem_nil, or_false, not_or] at hpt
  unfold sqAside
  have hw : ∀ f k b m, Part.get (sqChain s f k b m) pt = Part.get m pt := by
    intro f
    induction f with
    | zero => intro k b m; rfl
    | succ f ih =>
      intro k b m
      unfold sqChain
      dsimp only
      (repeat' split) <;> simp [ih, sqActs_get, hpt]
  exact hw _ _ _ _

theorem sqHold_get {pt : Part} (s cause : Nat) (n : Node)
    (hpt : pt ∉ [.alm, .almDue, .digOut, .dupSent, .evt, .ln, .lo, .po, .rcd, .seq, .shp, .slots]) : Part.get (sqHold s cause n) pt = Part.get n pt := by
  simp only [List.mem_cons, List.not_mem_nil, or_false, not_or] at hpt
  unfold sqHold
  (repeat' split) <;> simp [hpt, modSq_get, raise_get, sqAside_get, get_foldl, get_ite]

theorem sqAcked_get {pt : Part} (s : Nat) (n : Node)
    (hpt : pt ∉ [.alm, .almDue, .digOut, .dupSent, .evt, .ln, .lo, .po, .rcd, .seq, .shp, .slots]) : Part.get (sqAcked s n) pt = Part.get n pt := by
  simp only [List.mem_cons, List.not_mem_nil, or_false, not_or] at hpt
  unfold sqAcked
  (repeat' split) <;> simp [hpt, modSq_get, sqActs_get, get_foldl, get_ite]

theorem sqAckAll_get {pt : Part} (n : Node)
    (hpt : pt ∉ [.alm, .almDue, .digOut, .dupSent, .evt, .ln, .lo, .po, .rcd, .seq, .shp, .slots]) : Part.get (sqAckAll n) pt = Part.get n pt := by
  simp only [List.mem_cons, List.not_mem_nil, or_false, not_or] at hpt
  unfold sqAckAll
  refine get_foldl _ _ _ (fun m a => ?_)
  exact (get_foldl _ _ _ (fun y k => by simp [hpt, modSq_get, sqActs_get, get_foldl, get_ite])).trans (by simp [hpt, modSq_get, sqActs_get, get_foldl, get_ite])

theorem sqEnter1_get {pt : Part} (s k : Nat) (n : Node)
    (hpt : pt ∉ [.alm, .almDue, .digOut, .dupSent, .evt, .ln, .lo, .po, .rcd, .seq, .shp, .slots, .tx]) : Part.get (sqEnter1 s k n) pt = Part.get n pt := by
  simp only [List.mem_cons, List.not_mem_nil, or_false, not_or] at hpt
  unfold sqEnter1
  (repeat' split) <;> simp [hpt, modSq_get, raise_get, sqActs_get, get_upd_tx, get_foldl, get_ite]

theorem sqTo_get {pt : Part} (s code : Nat) (n : Node)
    (hpt : pt ∉ [.alm, .almDue, .digOut, .dupSent, .evt, .ln, .lo, .po, .rcd, .seq, .shp, .slots, .tx]) : Part.get (sqTo s code n) pt = Part.get n pt := by
  simp only [List.mem_cons, List.not_mem_nil, or_false, not_or] at hpt
  unfold sqTo
  have hw : ∀ f c m, Part.get (sqGoto s f c m) pt = Part.get m pt := by
    intro f
    induction f with
    | zero => intro c m; rfl
    | succ f ih =>
      intro c m
      unfold sqGoto
      dsimp only
      (repeat' split) <;> simp [ih, sqHold_get, raise_get, modSq_get, sqEnter1_get, hpt]
  exact hw _ _ _

theorem sqResume_get {pt : Part} (s : Nat) (n : Node)
    (hpt : pt ∉ [.alm, .almDue, .digOut, .dupSent, .evt, .ln, .lo, .po, .rcd, .seq, .shp, .slots]) : Part.get (sqResume s n) pt = Part.get n pt := by
  simp only [List.mem_cons, List.not_mem_nil, or_false, not_or] at hpt
  unfold sqResume
  (repeat' split) <;> simp [hpt, modSq_get, sqAside_get, get_foldl, get_ite]

theorem sqStart_get {pt : Part} (s k : Nat) (n : Node)
    (hpt : pt ∉ [.alm, .almDue, .digOut, .dupSent, .evt, .ln, .lo, .po, .rcd, .seq, .shp, .slots, .tx]) : Part.get (sqStart s k n) pt = Part.get n pt := by
  simp only [List.mem_cons, List.not_mem_nil, or_false, not_or] at hpt
  unfold sqStart
  (repeat' split) <;> simp [hpt, modSq_get, sqTo_get, get_foldl, get_ite]

theorem sqCommand_get {pt : Part} (s : Nat) (n : Node) (v : Word)
    (hpt : pt ∉ [.alm, .almDue, .digOut, .dupSent, .evt, .ln, .lo, .po, .rcd, .seq, .shp, .slots, .tx]) : Part.get (sqCommand s n v) pt = Part.get n pt := by
  simp only [List.mem_cons, List.not_mem_nil, or_false, not_or] at hpt
  unfold sqCommand
  (repeat' split) <;> simp [hpt, modSq_get, sqAside_get, sqHold_get, sqResume_get, sqStart_get, sqTo_get, get_foldl, get_ite]

theorem sqTimeout_get {pt : Part} (s : Nat) (n : Node)
    (hpt : pt ∉ [.alm, .almDue, .digOut, .dupSent, .evt, .ln, .lo, .po, .rcd, .seq, .shp, .slots, .tx]) : Part.get (sqTimeout s n) pt = Part.get n pt := by
  simp only [List.mem_cons, List.not_mem_nil, or_false, not_or] at hpt
  unfold sqTimeout
  (repeat' split) <;> simp [hpt, raise_get, setSq_get, sqTo_get, get_foldl, get_ite]

theorem sqHoldWork_get {pt : Part} (s : Nat) (n : Node)
    (hpt : pt ∉ [.alm, .almDue, .digOut, .dupSent, .evt, .ln, .lo, .po, .rcd, .seq, .shp, .slots]) : Part.get (sqHoldWork s n) pt = Part.get n pt := by
  simp only [List.mem_cons, List.not_mem_nil, or_false, not_or] at hpt
  unfold sqHoldWork
  (repeat' split) <;> simp [hpt, sqHold_get, sqResume_get, get_foldl, get_ite]

theorem sqStepWork_get {pt : Part} (s : Nat) (n : Node)
    (hpt : pt ∉ [.alm, .almDue, .digOut, .dupSent, .evt, .ln, .lo, .po, .rcd, .seq, .shp, .slots, .tx]) : Part.get (sqStepWork s n) pt = Part.get n pt := by
  simp only [List.mem_cons, List.not_mem_nil, or_false, not_or] at hpt
  unfold sqStepWork
  (repeat' split) <;> simp [hpt, sqTimeout_get, sqTo_get, get_foldl, get_ite]

theorem sqTick_get {pt : Part} (auto : Bool) (n : Node) (s : Nat)
    (hpt : pt ∉ [.alm, .almDue, .digOut, .dupSent, .evt, .ln, .lo, .po, .rcd, .seq, .shp, .slots, .tx]) : Part.get (sqTick auto n s) pt = Part.get n pt := by
  simp only [List.mem_cons, List.not_mem_nil, or_false, not_or] at hpt
  unfold sqTick
  (repeat' split) <;> simp [hpt, modSq_get, sqCommand_get, sqHoldWork_get, sqStart_get, sqStepWork_get, get_foldl, get_ite]

theorem seqScan_get {pt : Part} (n : Node)
    (hpt : pt ∉ [.alm, .almDue, .digOut, .dupSent, .evt, .ln, .lo, .po, .rcd, .seq, .shp, .slots, .tx]) : Part.get (seqScan n) pt = Part.get n pt := by
  simp only [List.mem_cons, List.not_mem_nil, or_false, not_or] at hpt
  unfold seqScan
  (repeat' split) <;> simp [hpt, sqTick_get, get_upd_seq, get_foldl, get_ite]

theorem seqHalt_get {pt : Part} (n : Node)
    (hpt : pt ∉ [.alm, .almDue, .digOut, .dupSent, .evt, .ln, .lo, .po, .rcd, .seq, .shp, .slots]) : Part.get (seqHalt n) pt = Part.get n pt := by
  simp only [List.mem_cons, List.not_mem_nil, or_false, not_or] at hpt
  unfold seqHalt
  (repeat' split) <;> simp [hpt, sqHold_get, get_foldl, get_ite]

theorem seqRunEntry_get {pt : Part} (n : Node)
    (hpt : pt ∉ [.seq]) : Part.get (seqRunEntry n) pt = Part.get n pt := by
  simp only [List.mem_cons, List.not_mem_nil, or_false, not_or] at hpt
  unfold seqRunEntry
  (repeat' split) <;> simp [hpt, get_upd_seq, get_foldl, get_ite]

theorem seqApply_get {pt : Part} (n : Node)
    (hpt : pt ∉ [.seq]) : Part.get (seqApply n) pt = Part.get n pt := by
  simp only [List.mem_cons, List.not_mem_nil, or_false, not_or] at hpt
  unfold seqApply
  (repeat' split) <;> simp [hpt, modSq_get, get_upd_seq, get_foldl, get_ite]

theorem seqReplace_get {pt : Part} (n : Node)
    (hpt : pt ∉ [.alm, .almDue, .digOut, .dupSent, .evt, .ln, .lo, .po, .rcd, .seq, .shp, .slots]) : Part.get (seqReplace n) pt = Part.get n pt := by
  simp only [List.mem_cons, List.not_mem_nil, or_false, not_or] at hpt
  unfold seqReplace
  (repeat' split) <;> simp [hpt, raise_get, setSq_get, sqAside_get, get_foldl, get_ite]

theorem seqCtrlWrite_get {pt : Part} (s : Nat) (v : Word) (n : Node)
    (hpt : pt ∉ [.seq]) : Part.get (seqCtrlWrite s v n) pt = Part.get n pt := by
  simp only [List.mem_cons, List.not_mem_nil, or_false, not_or] at hpt
  unfold seqCtrlWrite
  (repeat' split) <;> simp [hpt, modSq_get, get_foldl, get_ite]

theorem seqWrite_get {pt : Part} (addr : Nat) (v : Word) (n : Node)
    (hpt : pt ∉ [.seq]) : Part.get (seqWrite addr v n) pt = Part.get n pt := by
  simp only [List.mem_cons, List.not_mem_nil, or_false, not_or] at hpt
  unfold seqWrite
  (repeat' split) <;> simp [hpt, modSq_get, seqCtrlWrite_get, get_upd_seq, get_foldl, get_ite]

theorem setRg_get {pt : Part} (k : Nat) (x : Rg) (n : Node)
    (hpt : pt ∉ [.dsp]) : Part.get (setRg k x n) pt = Part.get n pt := by
  simp only [List.mem_cons, List.not_mem_nil, or_false, not_or] at hpt
  unfold setRg
  (repeat' split) <;> simp [hpt, get_upd_dsp, get_foldl, get_ite]

theorem modRg_get {pt : Part} (k : Nat) (f : Rg → Rg) (n : Node)
    (hpt : pt ∉ [.dsp]) : Part.get (modRg k f n) pt = Part.get n pt := by
  simp only [List.mem_cons, List.not_mem_nil, or_false, not_or] at hpt
  unfold modRg
  (repeat' split) <;> simp [hpt, setRg_get, get_foldl, get_ite]

theorem drawRect_get {pt : Part} (x y w h : Nat) (img : Bytes) (n : Node)
    (hpt : pt ∉ [.dsp]) : Part.get (drawRect x y w h img n) pt = Part.get n pt := by
  simp only [List.mem_cons, List.not_mem_nil, or_false, not_or] at hpt
  unfold drawRect
  (repeat' split) <;> simp [hpt, get_upd_dsp, get_foldl, get_ite]

theorem drawOutside_get {pt : Part} (n : Node)
    (hpt : pt ∉ [.dsp]) : Part.get (drawOutside n) pt = Part.get n pt := by
  simp only [List.mem_cons, List.not_mem_nil, or_false, not_or] at hpt
  unfold drawOutside
  (repeat' split) <;> simp [hpt, get_upd_dsp, get_foldl, get_ite]

theorem dspRequest_get {pt : Part} (k : Nat) (m0 : Bool) (n : Node)
    (hpt : pt ∉ [.dsp]) : Part.get (dspRequest k m0 n) pt = Part.get n pt := by
  simp only [List.mem_cons, List.not_mem_nil, or_false, not_or] at hpt
  unfold dspRequest
  (repeat' split) <;> simp [hpt, setRg_get, get_upd_dsp, get_foldl, get_ite]

theorem dspHost_get {pt : Part} (v : Word) (m0 : Bool) (n : Node)
    (hpt : pt ∉ [.dsp]) : Part.get (dspHost v m0 n) pt = Part.get n pt := by
  simp only [List.mem_cons, List.not_mem_nil, or_false, not_or] at hpt
  unfold dspHost
  (repeat' split) <;> simp [hpt, dspRequest_get, get_foldl, get_ite]

theorem dspEngine_get {pt : Part} (k t : Nat) (n : Node)
    (hpt : pt ∉ [.dsp]) : Part.get (dspEngine k t n) pt = Part.get n pt := by
  simp only [List.mem_cons, List.not_mem_nil, or_false, not_or] at hpt
  unfold dspEngine
  (repeat' split) <;> simp [hpt, dspRequest_get, setRg_get, get_foldl, get_ite]

theorem renderStart_get {pt : Part} (n : Node) (k : Nat)
    (hpt : pt ∉ [.dsp]) : Part.get (renderStart n k) pt = Part.get n pt := by
  simp only [List.mem_cons, List.not_mem_nil, or_false, not_or] at hpt
  unfold renderStart
  (repeat' split) <;> simp [hpt, modRg_get, get_foldl, get_ite]

theorem dspScan_get {pt : Part} (n : Node)
    (hpt : pt ∉ [.dsp]) : Part.get (dspScan n) pt = Part.get n pt := by
  simp only [List.mem_cons, List.not_mem_nil, or_false, not_or] at hpt
  unfold dspScan
  (repeat' split) <;> simp [hpt, renderStart_get, get_foldl, get_ite]

theorem dspRender_get {pt : Part} (k start t : Nat) (n : Node)
    (hpt : pt ∉ [.dsp]) : Part.get (dspRender k start t n) pt = Part.get n pt := by
  simp only [List.mem_cons, List.not_mem_nil, or_false, not_or] at hpt
  unfold dspRender
  dsimp only
  cases rgDue start (n.rg k) <;> (repeat' split) <;> simp [hpt, dspEngine_get, dspRequest_get, setRg_get, get_foldl, get_ite]

theorem dspBand_get {pt : Part} (n : Node)
    (hpt : pt ∉ [.dsp, .dupSent, .evt, .rcd]) : Part.get (dspBand n).2 pt = Part.get n pt := by
  simp only [List.mem_cons, List.not_mem_nil, or_false, not_or] at hpt
  unfold dspBand
  (repeat' split) <;> simp [hpt, raiseIf_get, get_upd_dsp, get_foldl, get_ite]

theorem dspStart_get {pt : Part} (k t : Nat) (n : Node)
    (hpt : pt ∉ [.dsp, .dupSent, .evt, .rcd]) : Part.get (dspStart k t n) pt = Part.get n pt := by
  simp only [List.mem_cons, List.not_mem_nil, or_false, not_or] at hpt
  unfold dspStart
  have e := dspBand_get (pt := pt) n (by simp [hpt])
  cases h : dspBand n with | mk b n1 =>
  rw [h] at e
  dsimp only at e ⊢
  (repeat' split) <;> simp [hpt, dspBand_get, setRg_get, get_upd_dsp, get_foldl, get_ite, e]

theorem dspDone_get {pt : Part} (k : Nat) (n : Node)
    (hpt : pt ∉ [.dsp, .dupSent, .evt, .rcd]) : Part.get (dspDone k n) pt = Part.get n pt := by
  simp only [List.mem_cons, List.not_mem_nil, or_false, not_or] at hpt
  unfold dspDone
  (repeat' split) <;> simp [hpt, drawRect_get, raise_get, setRg_get, get_upd_dsp, get_foldl, get_ite]

theorem dspAdvance_get {pt : Part} (n : Node) (k : Nat)
    (hpt : pt ∉ [.dsp, .dupSent, .evt, .rcd]) : Part.get (dspAdvance n k) pt = Part.get n pt := by
  simp only [List.mem_cons, List.not_mem_nil, or_false, not_or] at hpt
  unfold dspAdvance
  (repeat' split) <;> simp [hpt, dspDone_get, setRg_get, get_foldl, get_ite]

theorem dspBgAdvance_get {pt : Part} (n : Node)
    (hpt : pt ∉ [.dsp, .dupSent, .evt, .rcd]) : Part.get (dspBgAdvance n) pt = Part.get n pt := by
  simp only [List.mem_cons, List.not_mem_nil, or_false, not_or] at hpt
  unfold dspBgAdvance
  (repeat' split) <;> simp [hpt, drawOutside_get, raise_get, get_upd_dsp, get_foldl, get_ite]

theorem dspBgStart_get {pt : Part} (n : Node)
    (hpt : pt ∉ [.dsp, .dupSent, .evt, .rcd]) : Part.get (dspBgStart n) pt = Part.get n pt := by
  simp only [List.mem_cons, List.not_mem_nil, or_false, not_or] at hpt
  unfold dspBgStart
  have e := dspBand_get (pt := pt) n (by simp [hpt])
  cases h : dspBand n with | mk b n1 =>
  rw [h] at e
  dsimp only at e ⊢
  (repeat' split) <;> simp [hpt, dspBand_get, get_upd_dsp, get_foldl, get_ite, e]

theorem dspFlip_get {pt : Part} (n : Node) (u : Nat × Nat)
    (hpt : pt ∉ [.dsp]) : Part.get (dspFlip n u) pt = Part.get n pt := by
  simp only [List.mem_cons, List.not_mem_nil, or_false, not_or] at hpt
  unfold dspFlip
  (repeat' split) <;> simp [hpt, modRg_get, get_foldl, get_ite]

theorem dspCheck_get {pt : Part} (n : Node) (k : Nat)
    (hpt : pt ∉ [.dsp, .dupSent, .evt, .rcd]) : Part.get (dspCheck n k) pt = Part.get n pt := by
  simp only [List.mem_cons, List.not_mem_nil, or_false, not_or] at hpt
  unfold dspCheck
  (repeat' split) <;> simp [hpt, raise_get, setRg_get, get_foldl, get_ite]

theorem dspDischarge_get {pt : Part} (fault : Bool) (n : Node)
    (hpt : pt ∉ [.dsp]) : Part.get (dspDischarge fault n) pt = Part.get n pt := by
  simp only [List.mem_cons, List.not_mem_nil, or_false, not_or] at hpt
  unfold dspDischarge
  (repeat' split) <;> simp [hpt, get_upd_dsp, get_foldl, get_ite]

theorem dspAbandon_get {pt : Part} (n : Node)
    (hpt : pt ∉ [.dsp]) : Part.get (dspAbandon n) pt = Part.get n pt := by
  simp only [List.mem_cons, List.not_mem_nil, or_false, not_or] at hpt
  unfold dspAbandon
  (repeat' split) <;> simp [hpt, modRg_get, get_upd_dsp, get_foldl, get_ite]

theorem dspStop_get {pt : Part} (n : Node)
    (hpt : pt ∉ [.dsp]) : Part.get (dspStop n) pt = Part.get n pt := by
  simp only [List.mem_cons, List.not_mem_nil, or_false, not_or] at hpt
  unfold dspStop
  (repeat' split) <;> simp [hpt, dspDischarge_get, modRg_get, get_upd_dsp, get_foldl, get_ite]

theorem dspCut_get {pt : Part} (n : Node)
    (hpt : pt ∉ [.dsp]) : Part.get (dspCut n) pt = Part.get n pt := by
  simp only [List.mem_cons, List.not_mem_nil, or_false, not_or] at hpt
  unfold dspCut
  (repeat' split) <;> simp [hpt, dspAbandon_get, dspDischarge_get, get_foldl, get_ite]

theorem dspRise_get {pt : Part} (t : Nat) (n : Node)
    (hpt : pt ∉ [.dsp]) : Part.get (dspRise t n) pt = Part.get n pt := by
  simp only [List.mem_cons, List.not_mem_nil, or_false, not_or] at hpt
  unfold dspRise
  (repeat' split) <;> simp [hpt, get_upd_dsp, get_foldl, get_ite]

theorem dspRiseStep_get {pt : Part} (t : Nat) (n : Node)
    (hpt : pt ∉ [.dsp]) : Part.get (dspRiseStep t n) pt = Part.get n pt := by
  simp only [List.mem_cons, List.not_mem_nil, or_false, not_or] at hpt
  unfold dspRiseStep
  (repeat' split) <;> simp [hpt, dspRequest_get, get_upd_dsp, get_foldl, get_ite]

theorem dspFault_get {pt : Part} (n : Node)
    (hpt : pt ∉ [.dsp, .dupSent, .evt, .rcd]) : Part.get (dspFault n) pt = Part.get n pt := by
  simp only [List.mem_cons, List.not_mem_nil, or_false, not_or] at hpt
  unfold dspFault
  (repeat' split) <;> simp [hpt, dspAbandon_get, dspDischarge_get, raise_get, get_foldl, get_ite]

theorem dspDisStep_get {pt : Part} (t : Nat) (n : Node)
    (hpt : pt ∉ [.dsp]) : Part.get (dspDisStep t n) pt = Part.get n pt := by
  simp only [List.mem_cons, List.not_mem_nil, or_false, not_or] at hpt
  unfold dspDisStep
  (repeat' split) <;> simp [hpt, dspRise_get, get_upd_dsp, get_foldl, get_ite]

theorem dspFrame_get {pt : Part} (upsets : List (Nat × Nat)) (t : Nat) (n : Node)
    (hpt : pt ∉ [.dsp, .dupSent, .evt, .rcd]) : Part.get (dspFrame upsets t n) pt = Part.get n pt := by
  simp only [List.mem_cons, List.not_mem_nil, or_false, not_or] at hpt
  unfold dspFrame
  have h0 : Part.get (upsets.foldl dspFlip n) pt = Part.get n pt := get_foldl _ _ _ (fun m a => dspFlip_get _ _ (by simp [hpt]))
  dsimp only
  split
  · exact h0
  have h1 : Part.get ((List.range 32).foldl dspCheck (upsets.foldl dspFlip n)) pt = Part.get n pt :=
    (get_foldl _ _ _ (fun m a => dspCheck_get _ _ (by simp [hpt]))).trans h0
  have h2 : Part.get (dspBgAdvance ((List.range 32).foldl dspAdvance ((List.range 32).foldl dspCheck (upsets.foldl dspFlip n)))) pt
      = Part.get n pt :=
    (dspBgAdvance_get _ (by simp [hpt])).trans ((get_foldl _ _ _ (fun m a => dspAdvance_get _ _ (by simp [hpt]))).trans h1)
  generalize dspBgAdvance ((List.range 32).foldl dspAdvance ((List.range 32).foldl dspCheck (upsets.foldl dspFlip n))) = k at h2 ⊢
  have h3 : ∀ a b c, Part.get { k with dsp.vcom := a, dsp.frameNo := b, dsp.scans := c } pt = Part.get n pt :=
    fun a b c => (get_upd_dsp k _ (by simp [hpt])).trans h2
  split
  · split
    · exact h3 _ _ _
    · exact (dspDischarge_get _ _ (by simp [hpt])).trans (h3 _ _ _)
  · refine (dspBgStart_get _ (by simp [hpt])).trans ((get_foldl _ _ _ (fun m a => dspStart_get _ _ _ (by simp [hpt]))).trans
      ((get_foldl _ _ _ (fun m a => ?_)).trans (h3 _ _ _)))
    (repeat' split) <;> simp [hpt, dspAdvance_get, dspBgAdvance_get, dspBgStart_get, dspCheck_get, dspDischarge_get, dspFlip_get, dspRequest_get, dspStart_get, modRg_get, get_upd_dsp, get_foldl, get_ite]

theorem dspReady_get {pt : Part} (t : Nat) (n : Node)
    (hpt : pt ∉ [.dsp]) : Part.get (dspReady t n) pt = Part.get n pt := by
  simp only [List.mem_cons, List.not_mem_nil, or_false, not_or] at hpt
  unfold dspReady
  (repeat' split) <;> simp [hpt, dspRise_get, get_upd_dsp, get_foldl, get_ite]

theorem dspSafe_get {pt : Part} (n : Node)
    (hpt : pt ∉ [.dsp]) : Part.get (dspSafe n) pt = Part.get n pt := by
  simp only [List.mem_cons, List.not_mem_nil, or_false, not_or] at hpt
  unfold dspSafe
  (repeat' split) <;> simp [hpt, dspStop_get, get_foldl, get_ite]

theorem dspFit_get {pt : Part} (n : Node)
    (hpt : pt ∉ [.dsp]) : Part.get (dspFit n) pt = Part.get n pt := by
  simp only [List.mem_cons, List.not_mem_nil, or_false, not_or] at hpt
  unfold dspFit
  (repeat' split) <;> simp [hpt, get_upd_dsp, get_foldl, get_ite]

theorem dspAnew_get {pt : Part} (n : Node)
    (hpt : pt ∉ [.dsp]) : Part.get (dspAnew n) pt = Part.get n pt := by
  simp only [List.mem_cons, List.not_mem_nil, or_false, not_or] at hpt
  unfold dspAnew
  (repeat' split) <;> simp [hpt, get_upd_dsp, get_foldl, get_ite]

theorem dspApply_get {pt : Part} (n : Node)
    (hpt : pt ∉ [.dsp]) : Part.get (dspApply n) pt = Part.get n pt := by
  simp only [List.mem_cons, List.not_mem_nil, or_false, not_or] at hpt
  unfold dspApply
  (repeat' split) <;> simp [hpt, dspAnew_get, dspFit_get, modRg_get, get_foldl, get_ite]

theorem dspReplace_get {pt : Part} (old : Nat → Bytes) (oldItems : Nat → List Bytes) (n : Node)
    (hpt : pt ∉ [.dsp]) : Part.get (dspReplace old oldItems n) pt = Part.get n pt := by
  simp only [List.mem_cons, List.not_mem_nil, or_false, not_or] at hpt
  unfold dspReplace
  (repeat' split) <;> simp [hpt, modRg_get, get_upd_dsp, get_foldl, get_ite]

theorem dspCtrl_get {pt : Part} (v : Word) (n : Node)
    (hpt : pt ∉ [.dsp]) : Part.get (dspCtrl v n) pt = Part.get n pt := by
  simp only [List.mem_cons, List.not_mem_nil, or_false, not_or] at hpt
  unfold dspCtrl
  (repeat' split) <;> simp [hpt, dspRise_get, dspStop_get, get_upd_dsp, get_foldl, get_ite]

theorem dspWrite_get {pt : Part} (addr : Nat) (v : Word) (n : Node)
    (hpt : pt ∉ [.dsp]) : Part.get (dspWrite addr v n) pt = Part.get n pt := by
  simp only [List.mem_cons, List.not_mem_nil, or_false, not_or] at hpt
  unfold dspWrite
  (repeat' split) <;> simp [hpt, dspCtrl_get, dspHost_get, modRg_get, get_upd_dsp, get_foldl, get_ite]

end Sys2Proof.Machine
end

