-- ==== Sys2Proof/Laws/FrameModule.lean ====
section
/-! SUPPORT. What each operation of device states, duplex pair, network, junction, loader and accesses leaves as it was: every part outside the list it names. -/

namespace Sys2Proof.Machine
open Sys2Proof
set_option linter.all false

theorem sendFrame_get {pt : Part} (c : TxChan) (dest : Nat) (b : Bytes) (n : Node)
    (hpt : pt ∉ [.tx]) : Part.get (sendFrame c dest b n) pt = Part.get n pt := by
  simp only [List.mem_cons, List.not_mem_nil, or_false, not_or] at hpt
  unfold sendFrame
  (repeat' split) <;> simp [hpt, get_upd_tx, get_foldl, get_ite]

theorem safeEntry_get {pt : Part} (cause : Nat) (n : Node)
    (hpt : pt ∉ [.ca, .cal, .cj, .devRest, .devState, .dsp, .dupSent, .evt, .ex, .free, .gen, .po, .rcd, .slots, .ui]) : Part.get (safeEntry cause n) pt = Part.get n pt := by
  simp only [List.mem_cons, List.not_mem_nil, or_false, not_or] at hpt
  unfold safeEntry
  (repeat' split) <;> simp [hpt, caStop_get, dspSafe_get, enter_get, exRefresh_get, lnTestsAbort_get, loSafeEntry_get, uiStop_get, get_upd_dev, get_foldl, get_ite]

theorem runEntry_get {pt : Part} (t : Nat) (n : Node)
    (hpt : pt ∉ [.cal, .devRest, .devState, .digIn, .digOut, .dupSent, .evt, .ex, .free, .ln, .lo, .po, .rcd, .seq, .slots, .ui]) : Part.get (runEntry t n) pt = Part.get n pt := by
  simp only [List.mem_cons, List.not_mem_nil, or_false, not_or] at hpt
  unfold runEntry
  (repeat' split) <;> simp [hpt, enter_get, exRefresh_get, lnRunEntry_get, loRunEntry_get, seqRunEntry_get, ssInit_get, tpRunEntry_get, get_upd_dev, get_foldl, get_ite]

theorem haltEffect_get {pt : Part} (t : Nat) (n : Node)
    (hpt : pt ∉ [.alm, .almDue, .cal, .devRest, .devState, .digOut, .dupSent, .evt, .ex, .free, .gen, .ln, .lo, .po, .rcd, .seq, .shp, .slots, .ui]) : Part.get (haltEffect t n) pt = Part.get n pt := by
  simp only [List.mem_cons, List.not_mem_nil, or_false, not_or] at hpt
  unfold haltEffect
  (repeat' split) <;> simp [hpt, enter_get, exRefresh_get, lnTestsAbort_get, loSafeEntry_get, seqHalt_get, get_upd_dev, get_foldl, get_ite]

theorem keepOutputs_get {pt : Part} (n : Node) (b : Node)
    (hpt : pt ∉ [.digOut, .dup, .lo, .po]) : Part.get (keepOutputs n b) pt = Part.get b pt := by
  simp only [List.mem_cons, List.not_mem_nil, or_false, not_or] at hpt
  unfold keepOutputs
  (repeat' split) <;> simp [hpt, get_upd_dig, get_upd_dup, get_upd_lo, get_upd_po, get_upd_lo_po_dig_dup, get_foldl, get_ite]

theorem devCtrl_get {pt : Part} (key : BitVec 16) (cmd : Nat) (n : Node)
    (hpt : pt ∉ [.ca, .cal, .cj, .devRest, .devState, .dsp, .dupSent, .evt, .ex, .free, .gen, .po, .rcd, .slots, .ui]) : Part.get (devCtrl key cmd n).1 pt = Part.get n pt := by
  simp only [List.mem_cons, List.not_mem_nil, or_false, not_or] at hpt
  unfold devCtrl
  (repeat' split) <;> simp [hpt, safeEntry_get, get_upd_dev, get_foldl, get_ite]

theorem feedSet_get {pt : Part} (b ok : Bool) (n : Node)
    (hpt : pt ∉ [.devRest, .dupSent, .evt, .rcd]) : Part.get (feedSet b ok n) pt = Part.get n pt := by
  simp only [List.mem_cons, List.not_mem_nil, or_false, not_or] at hpt
  unfold feedSet
  (repeat' split) <;> simp [hpt, raiseIf_get, recNote_get, get_upd_dev, get_foldl, get_ite]

theorem overtempSet_get {pt : Part} (on : Bool) (n : Node)
    (hpt : pt ∉ [.devRest, .dupSent, .evt, .rcd]) : Part.get (overtempSet on n) pt = Part.get n pt := by
  simp only [List.mem_cons, List.not_mem_nil, or_false, not_or] at hpt
  unfold overtempSet
  (repeat' split) <;> simp [hpt, raiseIf_get, recNote_get, get_upd_dev, get_foldl, get_ite]

theorem islFltMark_get {pt : Part} (i : Nat) (n : Node)
    (hpt : pt ∉ [.dupSent, .evt, .isl, .rcd]) : Part.get (islFltMark i n) pt = Part.get n pt := by
  simp only [List.mem_cons, List.not_mem_nil, or_false, not_or] at hpt
  unfold islFltMark
  (repeat' split) <;> simp [hpt, raise_get, get_upd_isl, get_foldl, get_ite]

theorem exHandOver_get {pt : Part} (n : Node)
    (hpt : pt ∉ [.ex]) : Part.get (exHandOver n) pt = Part.get n pt := by
  simp only [List.mem_cons, List.not_mem_nil, or_false, not_or] at hpt
  unfold exHandOver
  (repeat' split) <;> simp [hpt, modEx_get, get_foldl, get_ite]

theorem setRole_get {pt : Part} (r : DupRole) (n : Node)
    (hpt : pt ∉ [.alm, .almDue, .ca, .digOut, .dup, .dupSent, .evt, .ex, .ln, .lo, .po, .rcd, .seq, .shp, .slots]) : Part.get (setRole r n) pt = Part.get n pt := by
  simp only [List.mem_cons, List.not_mem_nil, or_false, not_or] at hpt
  unfold setRole
  (repeat' split) <;> simp [hpt, caRole_get, exHandOver_get, raise_get, recNote_get, sqAckAll_get, get_upd_dup, get_foldl, get_ite]

theorem setPElig_get {pt : Part} (e : Bool) (n : Node)
    (hpt : pt ∉ [.alm, .almDue, .ca, .digOut, .dup, .dupSent, .evt, .ex, .ln, .lo, .po, .rcd, .seq, .shp, .slots]) : Part.get (setPElig e n) pt = Part.get n pt := by
  simp only [List.mem_cons, List.not_mem_nil, or_false, not_or] at hpt
  unfold setPElig
  (repeat' split) <;> simp [hpt, raiseIf_get, setRole_get, get_upd_dup, get_foldl, get_ite]

theorem sendHello_get {pt : Part} (n : Node)
    (hpt : pt ∉ [.tx]) : Part.get (sendHello n) pt = Part.get n pt := by
  simp only [List.mem_cons, List.not_mem_nil, or_false, not_or] at hpt
  unfold sendHello
  (repeat' split) <;> simp [hpt, sendFrame_get, get_foldl, get_ite]

theorem sendBeacons_get {pt : Part} (n : Node)
    (hpt : pt ∉ [.tx]) : Part.get (sendBeacons n) pt = Part.get n pt := by
  simp only [List.mem_cons, List.not_mem_nil, or_false, not_or] at hpt
  unfold sendBeacons
  (repeat' split) <;> simp [hpt, sendFrame_get, get_foldl, get_ite]

theorem laneFrame_get {pt : Part} (lane : Bool) (t : Nat) (n : Node)
    (hpt : pt ∉ [.dup, .isl, .tx]) : Part.get (laneFrame lane t n) pt = Part.get n pt := by
  simp only [List.mem_cons, List.not_mem_nil, or_false, not_or] at hpt
  unfold laneFrame
  (repeat' split) <;> simp [hpt, sendHello_get, get_upd_dup, get_upd_isl, get_upd_isl_dup, get_foldl, get_ite]

theorem slBeacon_get {pt : Part} (lane ready elig roleIn : Bool) (t : Nat) (n : Node)
    (hpt : pt ∉ [.alm, .almDue, .ca, .digOut, .dup, .dupSent, .evt, .ex, .isl, .ln, .lo, .po, .rcd, .seq, .shp, .slots, .tx]) : Part.get (slBeacon lane ready elig roleIn t n) pt = Part.get n pt := by
  simp only [List.mem_cons, List.not_mem_nil, or_false, not_or] at hpt
  unfold slBeacon
  (repeat' split) <;> simp [hpt, laneFrame_get, setPElig_get, get_upd_dup, get_foldl, get_ite]

theorem slCrcError_get {pt : Part} (lane : Bool) (n : Node)
    (hpt : pt ∉ [.dup]) : Part.get (slCrcError lane n) pt = Part.get n pt := by
  simp only [List.mem_cons, List.not_mem_nil, or_false, not_or] at hpt
  unfold slCrcError
  (repeat' split) <;> simp [hpt, get_upd_dup, get_foldl, get_ite]

theorem laneDown_get {pt : Part} (lane : Bool) (t : Nat) (n : Node)
    (hpt : pt ∉ [.dup]) : Part.get (laneDown lane t n) pt = Part.get n pt := by
  simp only [List.mem_cons, List.not_mem_nil, or_false, not_or] at hpt
  unfold laneDown
  (repeat' split) <;> simp [hpt, get_upd_dup, get_foldl, get_ite]

theorem linkLost_get {pt : Part} (t : Nat) (n : Node)
    (hpt : pt ∉ [.alm, .almDue, .ca, .digOut, .dup, .dupSent, .evt, .ex, .isl, .ln, .lo, .po, .rcd, .seq, .shp, .slots]) : Part.get (linkLost t n) pt = Part.get n pt := by
  simp only [List.mem_cons, List.not_mem_nil, or_false, not_or] at hpt
  unfold linkLost
  (repeat' split) <;> simp [hpt, islFltMark_get, raise_get, setRole_get, get_upd_dup, get_foldl, get_ite]

theorem standbyAtReady_get {pt : Part} (n : Node)
    (hpt : pt ∉ [.alm, .almDue, .ca, .digOut, .dup, .dupSent, .evt, .ex, .ln, .lo, .po, .rcd, .seq, .shp, .slots]) : Part.get (standbyAtReady n) pt = Part.get n pt := by
  simp only [List.mem_cons, List.not_mem_nil, or_false, not_or] at hpt
  unfold standbyAtReady
  (repeat' split) <;> simp [hpt, setRole_get, get_upd_dup, get_foldl, get_ite]

theorem carryAtReady_get {pt : Part} (r : DupRole) (n : Node)
    (hpt : pt ∉ [.alm, .almDue, .ca, .digOut, .dup, .dupSent, .evt, .ex, .ln, .lo, .po, .rcd, .seq, .shp, .slots]) : Part.get (carryAtReady r n) pt = Part.get n pt := by
  simp only [List.mem_cons, List.not_mem_nil, or_false, not_or] at hpt
  unfold carryAtReady
  (repeat' split) <;> simp [hpt, setRole_get, get_upd_dup, get_foldl, get_ite]

theorem roleSettle_get {pt : Part} (roleIn : Bool) (t : Nat) (n : Node)
    (hpt : pt ∉ [.alm, .almDue, .ca, .digOut, .dup, .dupSent, .evt, .ex, .ln, .lo, .po, .rcd, .seq, .shp, .slots]) : Part.get (roleSettle roleIn t n) pt = Part.get n pt := by
  simp only [List.mem_cons, List.not_mem_nil, or_false, not_or] at hpt
  unfold roleSettle
  (repeat' split) <;> simp [hpt, standbyAtReady_get, get_upd_dup, get_foldl, get_ite]

theorem findTimeout_get {pt : Part} (roleIn : Bool) (t : Nat) (n : Node)
    (hpt : pt ∉ [.alm, .almDue, .ca, .digOut, .dup, .dupSent, .evt, .ex, .ln, .lo, .po, .rcd, .seq, .shp, .slots]) : Part.get (findTimeout roleIn t n) pt = Part.get n pt := by
  simp only [List.mem_cons, List.not_mem_nil, or_false, not_or] at hpt
  unfold findTimeout
  (repeat' split) <;> simp [hpt, carryAtReady_get, standbyAtReady_get, get_upd_dup, get_foldl, get_ite]

theorem offerImage_get {pt : Part} (fmtAcc : Byte) (n : Node)
    (hpt : pt ∉ [.tx]) : Part.get (offerImage fmtAcc n) pt = Part.get n pt := by
  simp only [List.mem_cons, List.not_mem_nil, or_false, not_or] at hpt
  unfold offerImage
  (repeat' split) <;> simp [hpt, sendFrame_get, get_foldl, get_ite]

theorem partnerWaitOver_get {pt : Part} (t : Nat) (n : Node)
    (hpt : pt ∉ [.dup, .ld]) : Part.get (partnerWaitOver t n) pt = Part.get n pt := by
  simp only [List.mem_cons, List.not_mem_nil, or_false, not_or] at hpt
  unfold partnerWaitOver
  (repeat' split) <;> simp [hpt, get_upd_dup, get_upd_ld, get_upd_ld_dup, get_foldl, get_ite]

theorem sendMirror_get {pt : Part} (n : Node)
    (hpt : pt ∉ [.mir, .tx]) : Part.get (sendMirror n) pt = Part.get n pt := by
  simp only [List.mem_cons, List.not_mem_nil, or_false, not_or] at hpt
  unfold sendMirror
  (repeat' split) <;> simp [hpt, sendFrame_get, get_upd_mir, get_foldl, get_ite]

theorem applyMirror_get {pt : Part} (m : Mirror) (n : Node)
    (hpt : pt ∉ [.alm, .almDue, .dup, .ln, .mir, .seq, .shp, .store]) : Part.get (applyMirror m n) pt = Part.get n pt := by
  simp only [List.mem_cons, List.not_mem_nil, or_false, not_or] at hpt
  have h1 : ∀ a b c d e f g h i, Part.get { n with jn.store := a, alm := b, ln := c, seq.seqs := d, shp.sv := e, mir.seqs := f, mir.latched := g, mir.pend := h, dup.mirrorAt := i } pt = Part.get n pt := by
    intros
    cases pt <;> first | rfl | (exfalso; simp at hpt)
  unfold applyMirror
  exact h1 _ _ _ _ _ _ _ _ _

theorem divergence_get {pt : Part} (n : Node)
    (hpt : pt ∉ [.dup, .dupSent, .evt, .rcd]) : Part.get (divergence n) pt = Part.get n pt := by
  simp only [List.mem_cons, List.not_mem_nil, or_false, not_or] at hpt
  unfold divergence
  (repeat' split) <;> simp [hpt, raise_get, get_upd_dup, get_foldl, get_ite]

theorem slMirror_get {pt : Part} (lane : Bool) (m : Option Mirror) (t : Nat) (n : Node)
    (hpt : pt ∉ [.dup, .dupSent, .evt, .isl, .mir, .rcd, .tx]) : Part.get (slMirror lane m t n) pt = Part.get n pt := by
  simp only [List.mem_cons, List.not_mem_nil, or_false, not_or] at hpt
  unfold slMirror
  split
  · rfl
  split
  · exact (divergence_get _ (by simp [hpt])).trans ((slCrcError_get _ _ (by simp [hpt])).trans (by simp [hpt, divergence_get, laneFrame_get, slCrcError_get, get_upd_dup, get_upd_mir, get_foldl, get_ite]))
  · dsimp only
    have h1 : ∀ (m : Node) a, Part.get { m with mir.got := true, mir.pend := a } pt = Part.get m pt := fun m a => by simp [hpt, divergence_get, laneFrame_get, slCrcError_get, get_upd_dup, get_upd_mir, get_foldl, get_ite]
    have h2 := fun a => (h1 (laneFrame lane t n) a).trans (laneFrame_get _ _ _ (by simp [hpt]))
    have h3 : ∀ (m : Node), Part.get { m with dup.consecDiv := 0, dup.divIneligible := false } pt = Part.get m pt := fun m => by simp [hpt, divergence_get, laneFrame_get, slCrcError_get, get_upd_dup, get_upd_mir, get_foldl, get_ite]
    split
    · exact (divergence_get _ (by simp [hpt])).trans (h2 _)
    · exact (h3 _).trans (h2 _)

theorem mirrorTick_get {pt : Part} (n : Node)
    (hpt : pt ∉ [.alm, .almDue, .dup, .dupSent, .evt, .ln, .lo, .mir, .po, .rcd, .seq, .shp, .slots, .store, .tx]) : Part.get (mirrorTick n) pt = Part.get n pt := by
  simp only [List.mem_cons, List.not_mem_nil, or_false, not_or] at hpt
  unfold mirrorTick
  (repeat' split) <;> (try simp [hpt, applyMirror_get, divergence_get, sendMirror_get, srcSync_get, get_upd_dup, get_upd_jn, get_upd_mir, get_upd_jn_dup, get_foldl, get_ite]) <;> (try intros) <;> (repeat' split) <;> (try simp_all [hpt, applyMirror_get, divergence_get, sendMirror_get, srcSync_get, get_upd_dup, get_upd_jn, get_upd_mir, get_upd_jn_dup, get_foldl, get_ite])

theorem slOutcmd_get {pt : Part} (c : OutCmd) (n : Node)
    (hpt : pt ∉ [.digIn, .digOut, .ex, .lo, .po]) : Part.get (slOutcmd c n) pt = Part.get n pt := by
  simp only [List.mem_cons, List.not_mem_nil, or_false, not_or] at hpt
  unfold slOutcmd
  (repeat' split) <;> simp [hpt, modDo_get, modEx_get, modLo_get, modPo_get, setSs_get, get_foldl, get_ite]

theorem slSeqstep_get {pt : Part} (s k : Nat) (n : Node)
    (hpt : pt ∉ [.seq, .tx]) : Part.get (slSeqstep s k n) pt = Part.get n pt := by
  simp only [List.mem_cons, List.not_mem_nil, or_false, not_or] at hpt
  unfold slSeqstep
  (repeat' split) <;> simp [hpt, modSq_get, sendFrame_get, get_foldl, get_ite]

theorem takeOver_get {pt : Part} (t : Nat) (n : Node)
    (hpt : pt ∉ [.alm, .almDue, .ca, .digOut, .dup, .dupSent, .evt, .ex, .il, .ln, .lo, .po, .rcd, .seq, .shp, .slots]) : Part.get (takeOver t n) pt = Part.get n pt := by
  simp only [List.mem_cons, List.not_mem_nil, or_false, not_or] at hpt
  unfold takeOver
  (repeat' split) <;> simp [hpt, loRunEntry_get, raiseIf_get, setRole_get, get_upd_dup, get_upd_il, get_upd_ln, get_upd_il_ln_dup, get_foldl, get_ite]

theorem slStandDown_get {pt : Part} (t : Nat) (n : Node)
    (hpt : pt ∉ [.alm, .almDue, .ca, .digOut, .dup, .dupSent, .evt, .ex, .il, .ln, .lo, .po, .rcd, .seq, .shp, .slots]) : Part.get (slStandDown t n) pt = Part.get n pt := by
  simp only [List.mem_cons, List.not_mem_nil, or_false, not_or] at hpt
  unfold slStandDown
  (repeat' split) <;> simp [hpt, setPElig_get, setRole_get, takeOver_get, get_upd_dup, get_foldl, get_ite]

theorem roleInLow_get {pt : Part} (t : Nat) (n : Node)
    (hpt : pt ∉ [.alm, .almDue, .ca, .digOut, .dup, .dupSent, .evt, .ex, .il, .ln, .lo, .po, .rcd, .seq, .shp, .slots]) : Part.get (roleInLow t n) pt = Part.get n pt := by
  simp only [List.mem_cons, List.not_mem_nil, or_false, not_or] at hpt
  unfold roleInLow
  (repeat' split) <;> simp [hpt, takeOver_get, get_upd_dup, get_foldl, get_ite]

theorem overlapEnd_get {pt : Part} (t : Nat) (n : Node)
    (hpt : pt ∉ [.dup, .tx]) : Part.get (overlapEnd t n) pt = Part.get n pt := by
  simp only [List.mem_cons, List.not_mem_nil, or_false, not_or] at hpt
  unfold overlapEnd
  (repeat' split) <;> simp [hpt, sendFrame_get, get_upd_dup, get_foldl, get_ite]

theorem crossRampEnd_get {pt : Part} (t : Nat) (n : Node)
    (hpt : pt ∉ [.dup]) : Part.get (crossRampEnd t n) pt = Part.get n pt := by
  simp only [List.mem_cons, List.not_mem_nil, or_false, not_or] at hpt
  unfold crossRampEnd
  (repeat' split) <;> simp [hpt, get_upd_dup, get_foldl, get_ite]

theorem latch_get {pt : Part} (n : Node)
    (hpt : pt ∉ [.dup]) : Part.get (latch n) pt = Part.get n pt := by
  simp only [List.mem_cons, List.not_mem_nil, or_false, not_or] at hpt
  unfold latch
  (repeat' split) <;> simp [hpt, get_upd_dup, get_foldl, get_ite]

theorem relIn_get {pt : Part} (n : Node)
    (hpt : pt ∉ [.dup]) : Part.get (relIn n) pt = Part.get n pt := by
  simp only [List.mem_cons, List.not_mem_nil, or_false, not_or] at hpt
  unfold relIn
  (repeat' split) <;> simp [hpt, get_upd_dup, get_foldl, get_ite]

theorem holdTimeout_get {pt : Part} (t : Nat) (n : Node)
    (hpt : pt ∉ [.dup]) : Part.get (holdTimeout t n) pt = Part.get n pt := by
  simp only [List.mem_cons, List.not_mem_nil, or_false, not_or] at hpt
  unfold holdTimeout
  (repeat' split) <;> simp [hpt, get_upd_dup, get_foldl, get_ite]

theorem standDownNote_get {pt : Part} (n : Node)
    (hpt : pt ∉ [.dupSent, .evt, .rcd]) : Part.get (standDownNote n) pt = Part.get n pt := by
  simp only [List.mem_cons, List.not_mem_nil, or_false, not_or] at hpt
  unfold standDownNote
  (repeat' split) <;> simp [hpt, raise_get, recNote_get, get_foldl, get_ite]

theorem moduleFault_get {pt : Part} (cause : Nat) (n : Node)
    (hpt : pt ∉ [.alm, .almDue, .ca, .cal, .cj, .devRest, .devState, .digOut, .dsp, .dup, .dupSent, .evt, .ex, .free, .gen, .ln, .lo, .po, .rcd, .seq, .shp, .slots, .tx, .ui]) : Part.get (moduleFault cause n) pt = Part.get n pt := by
  simp only [List.mem_cons, List.not_mem_nil, or_false, not_or] at hpt
  unfold moduleFault
  (repeat' split) <;> simp [hpt, latch_get, safeEntry_get, sendFrame_get, setRole_get, standDownNote_get, get_upd_dup, get_foldl, get_ite]

theorem swapSkip_get {pt : Part} (n : Node)
    (hpt : pt ∉ [.dup]) : Part.get (swapSkip n) pt = Part.get n pt := by
  simp only [List.mem_cons, List.not_mem_nil, or_false, not_or] at hpt
  unfold swapSkip
  (repeat' split) <;> simp [hpt, get_upd_dup, get_foldl, get_ite]

theorem swapFrame_get {pt : Part} (m : SwapMsg) (n : Node)
    (hpt : pt ∉ [.tx]) : Part.get (swapFrame m n) pt = Part.get n pt := by
  simp only [List.mem_cons, List.not_mem_nil, or_false, not_or] at hpt
  unfold swapFrame
  (repeat' split) <;> simp [hpt, sendFrame_get, get_foldl, get_ite]

theorem swapPropose_get {pt : Part} (reclaim : Bool) (n : Node)
    (hpt : pt ∉ [.dup, .tx]) : Part.get (swapPropose reclaim n) pt = Part.get n pt := by
  simp only [List.mem_cons, List.not_mem_nil, or_false, not_or] at hpt
  unfold swapPropose
  (repeat' split) <;> simp [hpt, swapFrame_get, swapSkip_get, get_upd_dup, get_foldl, get_ite]

theorem swapAgree_get {pt : Part} (reclaim : Bool) (n : Node)
    (hpt : pt ∉ [.dup, .dupSent, .evt, .rcd, .tx]) : Part.get (swapAgree reclaim n) pt = Part.get n pt := by
  simp only [List.mem_cons, List.not_mem_nil, or_false, not_or] at hpt
  unfold swapAgree
  (repeat' split) <;> simp [hpt, raise_get, get_upd_dup, get_foldl, get_ite]

theorem slSwap_get {pt : Part} (m : SwapMsg) (n : Node)
    (hpt : pt ∉ [.dup, .dupSent, .evt, .rcd, .tx]) : Part.get (slSwap m n) pt = Part.get n pt := by
  simp only [List.mem_cons, List.not_mem_nil, or_false, not_or] at hpt
  unfold slSwap
  (repeat' split) <;> simp [hpt, swapAgree_get, swapFrame_get, swapSkip_get, get_foldl, get_ite]

theorem swapExecute_get {pt : Part} (t : Nat) (n : Node)
    (hpt : pt ∉ [.alm, .almDue, .ca, .digOut, .dup, .dupSent, .evt, .ex, .ln, .lo, .mir, .po, .rcd, .seq, .shp, .slots, .tx]) : Part.get (swapExecute t n) pt = Part.get n pt := by
  simp only [List.mem_cons, List.not_mem_nil, or_false, not_or] at hpt
  unfold swapExecute
  (repeat' split) <;> simp [hpt, latch_get, sendMirror_get, setRole_get, swapSkip_get, get_upd_dup, get_foldl, get_ite]

theorem reclaim_get {pt : Part} (n : Node)
    (hpt : pt ∉ [.dup, .tx]) : Part.get (reclaim n) pt = Part.get n pt := by
  simp only [List.mem_cons, List.not_mem_nil, or_false, not_or] at hpt
  unfold reclaim
  (repeat' split) <;> simp [hpt, swapPropose_get, get_foldl, get_ite]

theorem swapSecond_get {pt : Part} (n : Node)
    (hpt : pt ∉ [.dup, .tx]) : Part.get (swapSecond n) pt = Part.get n pt := by
  simp only [List.mem_cons, List.not_mem_nil, or_false, not_or] at hpt
  unfold swapSecond
  (repeat' split) <;> simp [hpt, swapPropose_get, swapSkip_get, get_foldl, get_ite]

theorem peerResetCount_get {pt : Part} (n : Node)
    (hpt : pt ∉ [.dup]) : Part.get (peerResetCount n) pt = Part.get n pt := by
  simp only [List.mem_cons, List.not_mem_nil, or_false, not_or] at hpt
  unfold peerResetCount
  (repeat' split) <;> simp [hpt, get_upd_dup, get_foldl, get_ite]

theorem sendPeerReset_get {pt : Part} (n : Node)
    (hpt : pt ∉ [.tx]) : Part.get (sendPeerReset n) pt = Part.get n pt := by
  simp only [List.mem_cons, List.not_mem_nil, or_false, not_or] at hpt
  unfold sendPeerReset
  (repeat' split) <;> simp [hpt, sendFrame_get, get_foldl, get_ite]

theorem rejoinReset_get {pt : Part} (t : Nat) (n : Node)
    (hpt : pt ∉ [.dup, .tx]) : Part.get (rejoinReset t n) pt = Part.get n pt := by
  simp only [List.mem_cons, List.not_mem_nil, or_false, not_or] at hpt
  unfold rejoinReset
  (repeat' split) <;> simp [hpt, sendPeerReset_get, get_upd_dup, get_foldl, get_ite]

theorem fwAddrWrite_get {pt : Part} (v : Word) (n : Node)
    (hpt : pt ∉ [.dup]) : Part.get (fwAddrWrite v n) pt = Part.get n pt := by
  simp only [List.mem_cons, List.not_mem_nil, or_false, not_or] at hpt
  unfold fwAddrWrite
  (repeat' split) <;> simp [hpt, get_upd_dup, get_foldl, get_ite]

theorem fwStaged_get {pt : Part} (n : Node)
    (hpt : pt ∉ [.dup]) : Part.get (fwStaged n) pt = Part.get n pt := by
  simp only [List.mem_cons, List.not_mem_nil, or_false, not_or] at hpt
  unfold fwStaged
  (repeat' split) <;> simp [hpt, get_upd_dup, get_foldl, get_ite]

theorem fwInstall_get {pt : Part} (image : Bytes) (n : Node)
    (hpt : pt ∉ [.dup]) : Part.get (fwInstall image n) pt = Part.get n pt := by
  simp only [List.mem_cons, List.not_mem_nil, or_false, not_or] at hpt
  unfold fwInstall
  (repeat' split) <;> simp [hpt, get_upd_dup, get_foldl, get_ite]

theorem fwComplete_get {pt : Part} (ok : Bool) (n : Node)
    (hpt : pt ∉ [.dup, .rcd]) : Part.get (fwComplete ok n) pt = Part.get n pt := by
  simp only [List.mem_cons, List.not_mem_nil, or_false, not_or] at hpt
  unfold fwComplete
  (repeat' split) <;> simp [hpt, recNote_get, get_upd_dup, get_foldl, get_ite]

theorem dupRefuse_get {pt : Part} (n : Node)
    (hpt : pt ∉ [.dup]) : Part.get (dupRefuse n) pt = Part.get n pt := by
  simp only [List.mem_cons, List.not_mem_nil, or_false, not_or] at hpt
  unfold dupRefuse
  (repeat' split) <;> simp [hpt, get_upd_dup, get_foldl, get_ite]

theorem dupSwap_get {pt : Part} (n : Node)
    (hpt : pt ∉ [.dup, .tx]) : Part.get (dupSwap n) pt = Part.get n pt := by
  simp only [List.mem_cons, List.not_mem_nil, or_false, not_or] at hpt
  unfold dupSwap
  (repeat' split) <;> simp [hpt, dupRefuse_get, swapPropose_get, get_foldl, get_ite]

theorem dupPartnerReset_get {pt : Part} (n : Node)
    (hpt : pt ∉ [.dup, .tx]) : Part.get (dupPartnerReset n) pt = Part.get n pt := by
  simp only [List.mem_cons, List.not_mem_nil, or_false, not_or] at hpt
  unfold dupPartnerReset
  (repeat' split) <;> simp [hpt, dupRefuse_get, sendPeerReset_get, get_foldl, get_ite]

theorem dupStatusWrite_get {pt : Part} (v : Word) (n : Node)
    (hpt : pt ∉ [.dup]) : Part.get (dupStatusWrite v n) pt = Part.get n pt := by
  simp only [List.mem_cons, List.not_mem_nil, or_false, not_or] at hpt
  unfold dupStatusWrite
  (repeat' split) <;> simp [hpt, get_upd_dup, get_foldl, get_ite]

theorem setEth_get {pt : Part} (b : Bool) (x : EthPort) (n : Node)
    (hpt : pt ∉ [.net]) : Part.get (setEth b x n) pt = Part.get n pt := by
  simp only [List.mem_cons, List.not_mem_nil, or_false, not_or] at hpt
  unfold setEth
  (repeat' split) <;> simp [hpt, get_upd_net, get_foldl, get_ite]

theorem ethLink_get {pt : Part} (b up fd : Bool) (n : Node)
    (hpt : pt ∉ [.dupSent, .evt, .net, .rcd]) : Part.get (ethLink b up fd n) pt = Part.get n pt := by
  simp only [List.mem_cons, List.not_mem_nil, or_false, not_or] at hpt
  unfold ethLink
  (repeat' split) <;> simp [hpt, raiseIf_get, setEth_get, get_foldl, get_ite]

theorem icmpEcho_get {pt : Part} (b : Bool) (client : Nat) (n : Node)
    (hpt : pt ∉ [.tx]) : Part.get (icmpEcho b client n) pt = Part.get n pt := by
  simp only [List.mem_cons, List.not_mem_nil, or_false, not_or] at hpt
  unfold icmpEcho
  (repeat' split) <;> simp [hpt, sendFrame_get, get_foldl, get_ite]

theorem modbusIdle_get {pt : Part} (b : Bool) (client t : Nat) (n : Node)
    (hpt : pt ∉ [.net]) : Part.get (modbusIdle b client t n) pt = Part.get n pt := by
  simp only [List.mem_cons, List.not_mem_nil, or_false, not_or] at hpt
  unfold modbusIdle
  (repeat' split) <;> simp [hpt, setEth_get, get_foldl, get_ite]

theorem modbusTick_get {pt : Part} (n : Node)
    (hpt : pt ∉ [.net]) : Part.get (modbusTick n) pt = Part.get n pt := by
  simp only [List.mem_cons, List.not_mem_nil, or_false, not_or] at hpt
  unfold modbusTick
  (repeat' split) <;> simp [hpt, get_upd_net, get_foldl, get_ite]

theorem netApply_get {pt : Part} (n : Node)
    (hpt : pt ∉ [.mram, .net, .netAlerts, .wf]) : Part.get (netApply n) pt = Part.get n pt := by
  simp only [List.mem_cons, List.not_mem_nil, or_false, not_or] at hpt
  unfold netApply
  (repeat' split) <;> simp [hpt, setEth_get, get_upd_mram, get_upd_net, get_upd_wf, get_upd_wf_net, get_upd_wf_mram_net, get_foldl, get_ite]

theorem alertFrame_get {pt : Part} (b : Bytes) (n : Node)
    (hpt : pt ∉ [.netAlerts, .tx]) : Part.get (alertFrame b n) pt = Part.get n pt := by
  simp only [List.mem_cons, List.not_mem_nil, or_false, not_or] at hpt
  unfold alertFrame
  (repeat' split) <;> simp [hpt, sendFrame_get, get_upd_net, get_foldl, get_ite]

theorem sendAlf_get {pt : Part} (a : AlertRef) (n : Node)
    (hpt : pt ∉ [.netAlerts, .tx]) : Part.get (sendAlf a n) pt = Part.get n pt := by
  simp only [List.mem_cons, List.not_mem_nil, or_false, not_or] at hpt
  unfold sendAlf
  (repeat' split) <;> simp [hpt, alertFrame_get, get_upd_net, get_foldl, get_ite]

theorem alertStamp_get {pt : Part} (id : Nat) (n : Node)
    (hpt : pt ∉ [.netAlerts]) : Part.get (alertStamp id n) pt = Part.get n pt := by
  simp only [List.mem_cons, List.not_mem_nil, or_false, not_or] at hpt
  unfold alertStamp
  (repeat' split) <;> simp [hpt, get_upd_net, get_foldl, get_ite]

theorem callStamp_get {pt : Part} (n : Node) (s : Nat)
    (hpt : pt ∉ [.netAlerts]) : Part.get (callStamp n s) pt = Part.get n pt := by
  simp only [List.mem_cons, List.not_mem_nil, or_false, not_or] at hpt
  unfold callStamp
  (repeat' split) <;> simp [hpt, alertStamp_get, get_upd_net, get_foldl, get_ite]

theorem alcPeriodic_get {pt : Part} (n : Node)
    (hpt : pt ∉ [.netAlerts, .tx]) : Part.get (alcPeriodic n) pt = Part.get n pt := by
  simp only [List.mem_cons, List.not_mem_nil, or_false, not_or] at hpt
  unfold alcPeriodic
  have hw : ∀ tot k j l m, Part.get (alcSend tot k j l m) pt = Part.get m pt := by
    intro tot k
    induction k with
    | zero => intro j l m; cases l <;> rfl
    | succ k ih =>
      intro j l m
      cases l with
      | nil => rfl
      | cons x r => exact (ih _ _ _).trans (alertFrame_get _ _ (by simp [hpt]))
  dsimp only
  split <;> simp [hw]

theorem sendArc_get {pt : Part} (id : Nat) (c : Byte) (n : Node)
    (hpt : pt ∉ [.net, .netAlerts, .tx]) : Part.get (sendArc id c n) pt = Part.get n pt := by
  simp only [List.mem_cons, List.not_mem_nil, or_false, not_or] at hpt
  unfold sendArc
  (repeat' split) <;> simp [hpt, alertFrame_get, get_upd_net, get_foldl, get_ite]

theorem acnDiscard_get {pt : Part} (b : Bool) (n : Node)
    (hpt : pt ∉ [.net]) : Part.get (acnDiscard b n) pt = Part.get n pt := by
  simp only [List.mem_cons, List.not_mem_nil, or_false, not_or] at hpt
  unfold acnDiscard
  (repeat' split) <;> simp [hpt, get_upd_net, get_foldl, get_ite]

theorem acnRequest_get {pt : Part} (b : Bool) (a : Option AlertRef) (n : Node)
    (hpt : pt ∉ [.net, .netAlerts, .tx]) : Part.get (acnRequest b a n) pt = Part.get n pt := by
  simp only [List.mem_cons, List.not_mem_nil, or_false, not_or] at hpt
  unfold acnRequest
  (repeat' split) <;> simp [hpt, acnDiscard_get, sendAlf_get, get_foldl, get_ite]
  refine get_foldl _ _ _ (fun m a => ?_)
  (repeat' split) <;> simp [hpt, acnDiscard_get, sendAlf_get, get_foldl, get_ite]

theorem acnOther_get {pt : Part} (b : Bool) (a : AcnUse) (n : Node)
    (hpt : pt ∉ [.net, .netAlerts, .tx]) : Part.get (acnOther b a n) pt = Part.get n pt := by
  simp only [List.mem_cons, List.not_mem_nil, or_false, not_or] at hpt
  unfold acnOther
  (repeat' split) <;> simp [hpt, acnDiscard_get, sendArc_get, get_foldl, get_ite]

theorem setCan_get {pt : Part} (p : Bool) (x : CanPort) (n : Node)
    (hpt : pt ∉ [.net]) : Part.get (setCan p x n) pt = Part.get n pt := by
  simp only [List.mem_cons, List.not_mem_nil, or_false, not_or] at hpt
  unfold setCan
  (repeat' split) <;> simp [hpt, get_upd_net, get_foldl, get_ite]

theorem canBusOff_get {pt : Part} (p : Bool) (n : Node)
    (hpt : pt ∉ [.dupSent, .evt, .free, .net, .rcd]) : Part.get (canBusOff p n) pt = Part.get n pt := by
  simp only [List.mem_cons, List.not_mem_nil, or_false, not_or] at hpt
  unfold canBusOff
  have e := drawFree_get (pt := pt) n (by simp [hpt])
  cases h : drawFree n with | mk b n1 =>
  rw [h] at e
  dsimp only at e ⊢
  (repeat' split) <;> simp [hpt, drawFree_get, raise_get, setCan_get, get_foldl, get_ite, e]

theorem canRecover_get {pt : Part} (p : Bool) (n : Node)
    (hpt : pt ∉ [.dupSent, .evt, .net, .rcd]) : Part.get (canRecover p n) pt = Part.get n pt := by
  simp only [List.mem_cons, List.not_mem_nil, or_false, not_or] at hpt
  unfold canRecover
  (repeat' split) <;> simp [hpt, raise_get, setCan_get, get_foldl, get_ite]

theorem canImport_get {pt : Part} (f : CanFrame) (t : Nat) (r : Bytes) (n : Node)
    (hpt : pt ∉ [.dupSent, .evt, .net, .rcd, .slots]) : Part.get (canImport f t r n) pt = Part.get n pt := by
  simp only [List.mem_cons, List.not_mem_nil, or_false, not_or] at hpt
  unfold canImport
  (repeat' split) <;> simp [hpt, complete_get, get_upd_net, get_foldl, get_ite]

theorem rawPost_get {pt : Part} (f : CanFrame) (n : Node)
    (hpt : pt ∉ [.dupSent, .evt, .mbx, .net, .rcd]) : Part.get (rawPost f n) pt = Part.get n pt := by
  simp only [List.mem_cons, List.not_mem_nil, or_false, not_or] at hpt
  unfold rawPost
  (repeat' split) <;> simp [hpt, mbPostMsg_get, get_upd_net, get_foldl, get_ite]

theorem canFrame_get {pt : Part} (f : CanFrame) (t : Nat) (n : Node)
    (hpt : pt ∉ [.dupSent, .evt, .mbx, .net, .rcd, .slots]) : Part.get (canFrame f t n) pt = Part.get n pt := by
  simp only [List.mem_cons, List.not_mem_nil, or_false, not_or] at hpt
  unfold canFrame
  (repeat' split) <;> simp [hpt, canImport_get, rawPost_get, get_foldl, get_ite]

theorem canRawSend_get {pt : Part} (ch : Nat) (n : Node)
    (hpt : pt ∉ [.dupSent, .evt, .mbx, .rcd, .tx]) : Part.get (canRawSend ch n) pt = Part.get n pt := by
  simp only [List.mem_cons, List.not_mem_nil, or_false, not_or] at hpt
  unfold canRawSend
  (repeat' split) <;> simp [hpt, netAck_get, sendFrame_get, get_foldl, get_ite]

theorem mbUnknown_get {pt : Part} (n : Node)
    (hpt : pt ∉ [.dupSent, .evt, .mbx, .rcd]) : Part.get (mbUnknown n) pt = Part.get n pt := by
  simp only [List.mem_cons, List.not_mem_nil, or_false, not_or] at hpt
  unfold mbUnknown
  (repeat' split) <;> simp [hpt, mbAck_get, get_foldl, get_ite]

theorem deliver_get {pt : Part} (r : Record) (n : Node) (e : Entry)
    (hpt : pt ∉ [.store]) : Part.get (deliver r n e) pt = Part.get n pt := by
  simp only [List.mem_cons, List.not_mem_nil, or_false, not_or] at hpt
  unfold deliver
  (repeat' split) <;> simp [hpt, get_upd_jn, get_foldl, get_ite]

theorem storeRecord_get {pt : Part} (r : Record) (n : Node)
    (hpt : pt ∉ [.alm, .almDue, .cal, .dup, .dupSent, .evt, .lo, .mir, .po, .rcd, .store]) : Part.get (storeRecord r n) pt = Part.get n pt := by
  simp only [List.mem_cons, List.not_mem_nil, or_false, not_or] at hpt
  unfold storeRecord
  (repeat' split) <;> simp [hpt, almRecord_get, deliver_get, loFollow_get, pairsOf_get, poFollow_get, get_upd_mir, get_foldl, get_ite]

theorem drainOne_get {pt : Part} (n : Node)
    (hpt : pt ∉ [.alm, .almDue, .cal, .dup, .dupSent, .evt, .lo, .mir, .po, .rcd, .slots, .store]) : Part.get (drainOne n) pt = Part.get n pt := by
  simp only [List.mem_cons, List.not_mem_nil, or_false, not_or] at hpt
  unfold drainOne
  (repeat' split) <;> simp [hpt, storeRecord_get, get_upd_jn, get_foldl, get_ite]

theorem drain_get {pt : Part} (n : Node)
    (hpt : pt ∉ [.alm, .almDue, .cal, .dup, .dupSent, .evt, .lo, .mir, .po, .rcd, .slots, .store]) : Part.get (drain n) pt = Part.get n pt := by
  simp only [List.mem_cons, List.not_mem_nil, or_false, not_or] at hpt
  unfold drain
  (repeat' split) <;> simp [hpt, drainOne_get, get_upd_jn, get_foldl, get_ite]

theorem staleOne_get {pt : Part} (n : Node) (a : Nat)
    (hpt : pt ∉ [.dupSent, .evt, .lo, .po, .rcd, .store]) : Part.get (staleOne n a) pt = Part.get n pt := by
  simp only [List.mem_cons, List.not_mem_nil, or_false, not_or] at hpt
  unfold staleOne
  (repeat' split) <;> simp [hpt, loFollow_get, poFollow_get, raiseIf_get, get_upd_jn, get_foldl, get_ite]

theorem staleTick_get {pt : Part} (n : Node)
    (hpt : pt ∉ [.dupSent, .evt, .lo, .po, .rcd, .store]) : Part.get (staleTick n) pt = Part.get n pt := by
  simp only [List.mem_cons, List.not_mem_nil, or_false, not_or] at hpt
  unfold staleTick
  (repeat' split) <;> simp [hpt, staleOne_get, get_foldl, get_ite]

theorem valueRead_get {pt : Part} (p : HostPort) (a : Nat) (n : Node)
    (hpt : pt ∉ [.store, .port p]) : Part.get (valueRead p a n).2 pt = Part.get n pt := by
  simp only [List.mem_cons, List.not_mem_nil, or_false, not_or] at hpt
  unfold valueRead
  dsimp only
  have h1 : ∀ (m : Node) (v : Table Result), Part.get { m with jn.store := v } pt = Part.get m pt := fun m v => by simp [hpt, modPort_get, get_upd_jn, get_foldl, get_ite]
  exact (h1 _ _).trans (modPort_get _ _ _ (by simp [hpt]))

theorem qseqRead_get {pt : Part} (p : HostPort) (a : Nat) (n : Node)
    (hpt : pt ∉ [.port p]) : Part.get (qseqRead p a n).2 pt = Part.get n pt := by
  simp only [List.mem_cons, List.not_mem_nil, or_false, not_or] at hpt
  unfold qseqRead
  (repeat' split) <;> simp [hpt, modPort_get, get_foldl, get_ite]

theorem detourNote_get {pt : Part} (kind idx : Nat) (n : Node)
    (hpt : pt ∉ [.dtr, .rcd]) : Part.get (detourNote kind idx n) pt = Part.get n pt := by
  simp only [List.mem_cons, List.not_mem_nil, or_false, not_or] at hpt
  unfold detourNote
  (repeat' split) <;> simp [hpt, recNote_get, get_upd_dtr, get_foldl, get_ite]

theorem rowReplace_get {pt : Part} (mem row : Nat) (n : Node)
    (hpt : pt ∉ [.dtr, .dupSent, .evt, .rcd]) : Part.get (rowReplace mem row n) pt = Part.get n pt := by
  simp only [List.mem_cons, List.not_mem_nil, or_false, not_or] at hpt
  unfold rowReplace
  (repeat' split) <;> simp [hpt, detourNote_get, raise_get, get_upd_dtr, get_foldl, get_ite]

theorem eccCorrected_get {pt : Part} (n : Node)
    (hpt : pt ∉ [.dtr, .dupSent, .evt, .rcd]) : Part.get (eccCorrected n) pt = Part.get n pt := by
  simp only [List.mem_cons, List.not_mem_nil, or_false, not_or] at hpt
  unfold eccCorrected
  (repeat' split) <;> simp [hpt, raise_get, get_upd_dtr, get_foldl, get_ite]

theorem eccUncorrectable_get {pt : Part} (mem row : Nat) (n : Node)
    (hpt : pt ∉ [.dtr, .dupSent, .evt, .rcd]) : Part.get (eccUncorrectable mem row n) pt = Part.get n pt := by
  simp only [List.mem_cons, List.not_mem_nil, or_false, not_or] at hpt
  unfold eccUncorrectable
  (repeat' split) <;> simp [hpt, recNote_get, rowReplace_get, get_upd_dtr, get_upd_dup, get_upd_dup_dtr, get_foldl, get_ite]

theorem resultLost_get {pt : Part} (a : Nat) (n : Node)
    (hpt : pt ∉ [.dupSent, .evt, .lo, .po, .rcd, .store]) : Part.get (resultLost a n) pt = Part.get n pt := by
  simp only [List.mem_cons, List.not_mem_nil, or_false, not_or] at hpt
  unfold resultLost
  (repeat' split) <;> simp [hpt, loFollow_get, poFollow_get, raise_get, get_upd_jn, get_foldl, get_ite]

theorem eccOnRead_get {pt : Part} (e : Ecc) (a : Nat) (n : Node)
    (hpt : pt ∉ [.dtr, .dupSent, .evt, .lo, .po, .rcd, .store]) : Part.get (eccOnRead e a n) pt = Part.get n pt := by
  simp only [List.mem_cons, List.not_mem_nil, or_false, not_or] at hpt
  unfold eccOnRead
  (repeat' split) <;> simp [hpt, eccCorrected_get, eccUncorrectable_get, resultLost_get, get_foldl, get_ite]

theorem scrubCorrected_get {pt : Part} (mem row t : Nat) (n : Node)
    (hpt : pt ∉ [.dtr, .dupSent, .evt, .rcd]) : Part.get (scrubCorrected mem row t n) pt = Part.get n pt := by
  simp only [List.mem_cons, List.not_mem_nil, or_false, not_or] at hpt
  unfold scrubCorrected
  (repeat' split) <;> simp [hpt, eccCorrected_get, rowReplace_get, get_upd_dtr, get_foldl, get_ite]

theorem scrub_get {pt : Part} (f : ScrubFind) (t : Nat) (n : Node)
    (hpt : pt ∉ [.alm, .almDue, .ca, .cal, .cj, .devRest, .devState, .digOut, .dsp, .dtr, .dup, .dupSent, .evt, .ex, .free, .gen, .ln, .lo, .po, .rcd, .seq, .shp, .slots, .store, .tx, .ui]) : Part.get (scrub f t n) pt = Part.get n pt := by
  simp only [List.mem_cons, List.not_mem_nil, or_false, not_or] at hpt
  unfold scrub
  (repeat' split) <;> simp [hpt, eccUncorrectable_get, moduleFault_get, resultLost_get, scrubCorrected_get, get_foldl, get_ite]

theorem roleTake_get {pt : Part} (b : Nat) (s : RoleState) (n : Node)
    (hpt : pt ∉ [.alm, .almDue, .ln, .seq]) : Part.get (roleTake b s n) pt = Part.get n pt := by
  simp only [List.mem_cons, List.not_mem_nil, or_false, not_or] at hpt
  unfold roleTake
  (repeat' split) <;> simp [hpt, get_upd_alm, get_upd_ln, get_upd_seq, get_foldl, get_ite]

theorem ckptWrite_get {pt : Part} (n : Node) (b : Byte)
    (hpt : pt ∉ [.ckpt]) : Part.get (ckptWrite n b) pt = Part.get n pt := by
  simp only [List.mem_cons, List.not_mem_nil, or_false, not_or] at hpt
  unfold ckptWrite
  (repeat' split) <;> simp [hpt, get_upd_ckpt, get_foldl, get_ite]

theorem checkpoint_get {pt : Part} (n : Node)
    (hpt : pt ∉ [.ckpt]) : Part.get (checkpoint n) pt = Part.get n pt := by
  simp only [List.mem_cons, List.not_mem_nil, or_false, not_or] at hpt
  unfold checkpoint
  (repeat' split) <;> simp [hpt, ckptWrite_get, get_foldl, get_ite]

theorem testDetour_get {pt : Part} (b : Nat) (n : Node)
    (hpt : pt ∉ [.dupSent, .evt, .gen, .rcd]) : Part.get (testDetour b n) pt = Part.get n pt := by
  simp only [List.mem_cons, List.not_mem_nil, or_false, not_or] at hpt
  unfold testDetour
  (repeat' split) <;> simp [hpt, genEnd_get]

theorem engineFail_get {pt : Part} (e : Nat) (c : EngCause) (n : Node)
    (hpt : pt ∉ [.alm, .almDue, .ca, .cal, .cj, .ckpt, .devRest, .devState, .digOut, .dsp, .dtr, .dup, .dupSent, .evt, .ex, .free, .gen, .isl, .ln, .lo, .po, .rcd, .seq, .shp, .slots, .tx, .ui]) : Part.get (engineFail e c n) pt = Part.get n pt := by
  simp only [List.mem_cons, List.not_mem_nil, or_false, not_or] at hpt
  unfold engineFail
  (repeat' split) <;> (try simp [hpt, detourNote_get, moduleFault_get, testDetour_get, raise_get, get_upd_ckpt, get_upd_dtr, get_upd_isl, get_upd_isl_ckpt_dtr, get_foldl, get_ite]) <;> (try intros) <;> (repeat' split) <;> (try simp_all [hpt, detourNote_get, moduleFault_get, testDetour_get, raise_get, get_upd_ckpt, get_upd_dtr, get_upd_isl, get_upd_isl_ckpt_dtr, get_foldl, get_ite])

theorem spareStart_get {pt : Part} (e : Nat) (n : Node)
    (hpt : pt ∉ [.alm, .almDue, .dupSent, .evt, .isl, .ln, .rcd, .seq]) : Part.get (spareStart e n) pt = Part.get n pt := by
  simp only [List.mem_cons, List.not_mem_nil, or_false, not_or] at hpt
  unfold spareStart
  (repeat' split) <;> simp [hpt, raise_get, roleTake_get, get_upd_isl, get_foldl, get_ite]

theorem spareTick_get {pt : Part} (n : Node)
    (hpt : pt ∉ [.alm, .almDue, .dupSent, .evt, .isl, .ln, .rcd, .seq]) : Part.get (spareTick n) pt = Part.get n pt := by
  simp only [List.mem_cons, List.not_mem_nil, or_false, not_or] at hpt
  unfold spareTick
  (repeat' split) <;> simp [hpt, spareStart_get, get_foldl, get_ite]

theorem lockstep_get {pt : Part} (n : Node)
    (hpt : pt ∉ [.alm, .almDue, .ca, .cal, .cj, .devRest, .devState, .digOut, .dsp, .dup, .dupSent, .evt, .ex, .free, .gen, .ln, .lo, .po, .rcd, .seq, .shp, .slots, .tx, .ui]) : Part.get (lockstep n) pt = Part.get n pt := by
  simp only [List.mem_cons, List.not_mem_nil, or_false, not_or] at hpt
  unfold lockstep
  (repeat' split) <;> simp [hpt, moduleFault_get, get_foldl, get_ite]

theorem selfTest_get {pt : Part} (w : Nat) (pass : Bool) (n : Node)
    (hpt : pt ∉ [.alm, .almDue, .ca, .cal, .cj, .ckpt, .devRest, .devState, .digOut, .dsp, .dtr, .dup, .dupSent, .evt, .ex, .free, .gen, .isl, .ln, .lo, .po, .rcd, .seq, .shp, .slots, .tx, .ui]) : Part.get (selfTest w pass n) pt = Part.get n pt := by
  simp only [List.mem_cons, List.not_mem_nil, or_false, not_or] at hpt
  unfold selfTest
  (repeat' split) <;> simp [hpt, engineFail_get, get_upd_dtr, get_upd_dup, get_upd_dup_dtr, get_foldl, get_ite]

theorem islStops_get {pt : Part} (i : Nat) (n : Node)
    (hpt : pt ∉ [.ca, .cal, .cj, .dsp, .dupSent, .evt, .ex, .free, .net, .rcd, .slots, .ui, .wf]) : Part.get (islStops i n) pt = Part.get n pt := by
  simp only [List.mem_cons, List.not_mem_nil, or_false, not_or] at hpt
  unfold islStops
  (repeat' split) <;> simp [hpt, caStop_get, dspCut_get, uiStop_get, get_upd_net, get_upd_wf, get_upd_wf_net, get_foldl, get_ite]

theorem islandFault_get {pt : Part} (i : Nat) (n : Node)
    (hpt : pt ∉ [.alm, .almDue, .ca, .cal, .cj, .devRest, .devState, .digOut, .dsp, .dup, .dupSent, .evt, .ex, .free, .gen, .isl, .ln, .lo, .net, .po, .rcd, .seq, .shp, .slots, .tx, .ui, .wf]) : Part.get (islandFault i n) pt = Part.get n pt := by
  simp only [List.mem_cons, List.not_mem_nil, or_false, not_or] at hpt
  unfold islandFault
  (repeat' split) <;> simp [hpt, islFltMark_get, islStops_get, moduleFault_get, get_upd_dup, get_foldl, get_ite]

theorem causewayTimeout_get {pt : Part} (src dst : Nat) (n : Node)
    (hpt : pt ∉ [.alm, .almDue, .ca, .cal, .cj, .devRest, .devState, .digOut, .dsp, .dup, .dupSent, .evt, .ex, .free, .gen, .isl, .ln, .lo, .net, .po, .rcd, .seq, .shp, .slots, .tx, .ui, .wf]) : Part.get (causewayTimeout src dst n) pt = Part.get n pt := by
  simp only [List.mem_cons, List.not_mem_nil, or_false, not_or] at hpt
  unfold causewayTimeout
  (repeat' split) <;> simp [hpt, islandFault_get, raise_get, get_upd_isl, get_foldl, get_ite]

theorem rmFail_get {pt : Part} (src : Nat) (e : RmFail) (n : Node)
    (hpt : pt ∉ [.dupSent, .evt, .ld, .rcd]) : Part.get (rmFail src e n) pt = Part.get n pt := by
  simp only [List.mem_cons, List.not_mem_nil, or_false, not_or] at hpt
  unfold rmFail
  (repeat' split) <;> simp [hpt, raise_get, get_upd_ld, get_foldl, get_ite]

theorem rmCode_get {pt : Part} (code : Nat) (n : Node)
    (hpt : pt ∉ [.ld]) : Part.get (rmCode code n) pt = Part.get n pt := by
  simp only [List.mem_cons, List.not_mem_nil, or_false, not_or] at hpt
  unfold rmCode
  (repeat' split) <;> simp [hpt, get_upd_ld, get_foldl, get_ite]

theorem rmRefuse_get {pt : Part} (n : Node)
    (hpt : pt ∉ [.dupSent, .evt, .ld, .rcd]) : Part.get (rmRefuse n) pt = Part.get n pt := by
  simp only [List.mem_cons, List.not_mem_nil, or_false, not_or] at hpt
  unfold rmRefuse
  (repeat' split) <;> simp [hpt, raise_get, rmCode_get, get_foldl, get_ite]

theorem loadNote_get {pt : Part} (ok : Bool) (n : Node)
    (hpt : pt ∉ [.rcd]) : Part.get (loadNote ok n) pt = Part.get n pt := by
  simp only [List.mem_cons, List.not_mem_nil, or_false, not_or] at hpt
  unfold loadNote
  (repeat' split) <;> simp [hpt, recNote_get, get_foldl, get_ite]

theorem setBankInfo_get {pt : Part} (b : Bool) (x : BankInfo) (n : Node)
    (hpt : pt ∉ [.ld]) : Part.get (setBankInfo b x n) pt = Part.get n pt := by
  simp only [List.mem_cons, List.not_mem_nil, or_false, not_or] at hpt
  unfold setBankInfo
  (repeat' split) <;> simp [hpt, get_upd_ld, get_foldl, get_ite]

theorem bankResult_get {pt : Part} (src : LoadSrc) (r : Except RmFail Image) (n : Node)
    (hpt : pt ∉ [.ld]) : Part.get (bankResult src r n) pt = Part.get n pt := by
  simp only [List.mem_cons, List.not_mem_nil, or_false, not_or] at hpt
  unfold bankResult
  (repeat' split) <;> simp [hpt, setBankInfo_get, get_foldl, get_ite]

theorem loadFailed_get {pt : Part} (e : RmFail) (n : Node)
    (hpt : pt ∉ [.devState, .dupSent, .evt, .ld, .rcd]) : Part.get (loadFailed e n) pt = Part.get n pt := by
  simp only [List.mem_cons, List.not_mem_nil, or_false, not_or] at hpt
  unfold loadFailed
  (repeat' split) <;> simp [hpt, bankResult_get, enter_get, loadNote_get, rmFail_get, get_upd_ld, get_foldl, get_ite]

theorem loadEnds_get {pt : Part} (r : Except RmFail Image) (n : Node)
    (hpt : pt ∉ [.devState, .dupSent, .evt, .ld, .rcd]) : Part.get (loadEnds r n) pt = Part.get n pt := by
  simp only [List.mem_cons, List.not_mem_nil, or_false, not_or] at hpt
  unfold loadEnds
  (repeat' split) <;> simp [hpt, enter_get, loadFailed_get, get_upd_ld, get_foldl, get_ite]

theorem routeMapLoad_get {pt : Part} (flashErr : Bool) (m : Mems) (n : Node)
    (hpt : pt ∉ [.devState, .dupSent, .evt, .ld, .rcd]) : Part.get (routeMapLoad flashErr m n) pt = Part.get n pt := by
  simp only [List.mem_cons, List.not_mem_nil, or_false, not_or] at hpt
  unfold routeMapLoad
  (repeat' split) <;> simp [hpt, enter_get, loadEnds_get, get_upd_ld, get_foldl, get_ite]

theorem applyChapters_get {pt : Part} (restart : Bool) (was : Nat → Bool) (n : Node)
    (hpt : pt ∉ [.alm, .ca, .cal, .clk, .cmp, .digIn, .digOut, .dsp, .dupSent, .evt, .ex, .gen, .hart, .il, .ln, .lo, .mram, .net, .netAlerts, .pf, .po, .rcd, .seq, .ui, .wf]) : Part.get (applyChapters restart was n) pt = Part.get n pt := by
  simp only [List.mem_cons, List.not_mem_nil, or_false, not_or] at hpt
  unfold applyChapters
  (repeat' split) <;> simp [hpt, almApply_get, caApply_get, calApply_get, clkApply_get, digApply_get, dspApply_get, exImage_get, ilApply_get, lnApply_get, loApply_get, netApply_get, pfApply_get, recApply_get, seqApply_get, uiApply_get, get_foldl, get_ite]

theorem applyImage_get {pt : Part} (g : Image) (n : Node)
    (hpt : pt ∉ [.alm, .almDue, .ca, .cal, .ckpt, .clk, .cmp, .devState, .digIn, .digOut, .dsp, .dup, .dupSent, .evt, .ex, .free, .gen, .hart, .il, .isl, .ld, .ln, .lo, .mir, .mram, .net, .netAlerts, .pf, .po, .rcd, .seq, .shp, .slots, .store, .ui, .wf]) : Part.get (applyImage g n) pt = Part.get n pt := by
  simp only [List.mem_cons, List.not_mem_nil, or_false, not_or] at hpt
  unfold applyImage
  (repeat' split) <;> simp [hpt, applyChapters_get, bankResult_get, enter_get, exRefresh_get, loadNote_get, raise_get, restoreDetours_get, setRole_get, get_upd_ckpt, get_upd_isl, get_upd_jn, get_upd_ld, get_upd_mir, get_upd_isl_jn_ld_mir_ckpt, get_foldl, get_ite]

theorem routeMapVerify_get {pt : Part} (n : Node)
    (hpt : pt ∉ [.alm, .almDue, .ca, .cal, .ckpt, .clk, .cmp, .devState, .digIn, .digOut, .dsp, .dup, .dupSent, .evt, .ex, .free, .gen, .hart, .il, .isl, .ld, .ln, .lo, .mir, .mram, .net, .netAlerts, .pf, .po, .rcd, .seq, .shp, .slots, .store, .ui, .wf]) : Part.get (routeMapVerify n) pt = Part.get n pt := by
  simp only [List.mem_cons, List.not_mem_nil, or_false, not_or] at hpt
  unfold routeMapVerify
  (repeat' split) <;> simp [hpt, applyImage_get, loadFailed_get, get_foldl, get_ite]

theorem partnerImage_get {pt : Part} (img : Option Bytes) (n : Node)
    (hpt : pt ∉ [.alm, .almDue, .ca, .cal, .ckpt, .clk, .cmp, .devState, .digIn, .digOut, .dsp, .dup, .dupSent, .evt, .ex, .free, .gen, .hart, .il, .isl, .ld, .ln, .lo, .mir, .mram, .net, .netAlerts, .pf, .po, .rcd, .seq, .shp, .slots, .store, .ui, .wf]) : Part.get (partnerImage img n) pt = Part.get n pt := by
  simp only [List.mem_cons, List.not_mem_nil, or_false, not_or] at hpt
  unfold partnerImage
  (repeat' split) <;> simp [hpt, enter_get, loadEnds_get, loadFailed_get, routeMapVerify_get, get_upd_ld, get_foldl, get_ite]

theorem calibrated_get {pt : Part} (m : CalMeas) (roleIn : Bool) (t : Nat) (n : Node)
    (hpt : pt ∉ [.alm, .almDue, .ca, .cal, .cj, .devRest, .devState, .digIn, .digOut, .dsp, .dtr, .dup, .dupSent, .evt, .ex, .free, .ld, .ln, .lo, .po, .rcd, .seq, .shp, .slots, .ui]) : Part.get (calibrated m roleIn t n) pt = Part.get n pt := by
  simp only [List.mem_cons, List.not_mem_nil, or_false, not_or] at hpt
  unfold calibrated
  (repeat' split) <;> simp [hpt, caStart_get, cjStart_get, digReady_get, dspReady_get, enter_get, exRefresh_get, exStart_get, initialCal_get, roleSettle_get, svReady0_get, uiStart_get, get_upd_dev, get_upd_ld, get_upd_ld_dev, get_foldl, get_ite]

theorem stgAddrWrite_get {pt : Part} (v : Word) (n : Node)
    (hpt : pt ∉ [.ld]) : Part.get (stgAddrWrite v n) pt = Part.get n pt := by
  simp only [List.mem_cons, List.not_mem_nil, or_false, not_or] at hpt
  unfold stgAddrWrite
  (repeat' split) <;> simp [hpt, rmCode_get, get_upd_ld, get_foldl, get_ite]

theorem stgDataWrite_get {pt : Part} (v : Word) (m : Mems) (n : Node)
    (hpt : pt ∉ [.ld]) : Part.get (stgDataWrite v m n).2 pt = Part.get n pt := by
  simp only [List.mem_cons, List.not_mem_nil, or_false, not_or] at hpt
  unfold stgDataWrite
  (repeat' split) <;> simp [hpt, rmCode_get, get_upd_ld, get_foldl, get_ite]

theorem stgDataRead_get {pt : Part} (m : Mems) (n : Node)
    (hpt : pt ∉ [.ld]) : Part.get (stgDataRead m n).2 pt = Part.get n pt := by
  simp only [List.mem_cons, List.not_mem_nil, or_false, not_or] at hpt
  unfold stgDataRead
  (repeat' split) <;> simp [hpt, get_upd_ld, get_foldl, get_ite]

theorem rmCtrl_get {pt : Part} (key : Nat) (cmd : Nat) (m : Mems) (n : Node)
    (hpt : pt ∉ [.dupSent, .evt, .ld, .rcd]) : Part.get (rmCtrl key cmd m n).2 pt = Part.get n pt := by
  simp only [List.mem_cons, List.not_mem_nil, or_false, not_or] at hpt
  unfold rmCtrl
  (repeat' split) <;> simp [hpt, rmCode_get, rmRefuse_get, get_upd_ld, get_foldl, get_ite]

theorem checkComplete_get {pt : Part} (m : Mems) (n : Node)
    (hpt : pt ∉ [.dupSent, .evt, .ld, .rcd]) : Part.get (checkComplete m n) pt = Part.get n pt := by
  simp only [List.mem_cons, List.not_mem_nil, or_false, not_or] at hpt
  unfold checkComplete
  (repeat' split) <;> simp [hpt, rmFail_get, get_upd_ld, get_foldl, get_ite]

theorem programComplete_get {pt : Part} (ok : Bool) (m : Mems) (n : Node)
    (hpt : pt ∉ [.dupSent, .evt, .free, .ld, .rcd]) : Part.get (programComplete ok m n).2 pt = Part.get n pt := by
  simp only [List.mem_cons, List.not_mem_nil, or_false, not_or] at hpt
  unfold programComplete
  (repeat' split) <;> simp [hpt, rmFail_get, setBankInfo_get, get_upd_free, get_upd_ld, get_upd_ld_free, get_foldl, get_ite]

theorem commitBegin_get {pt : Part} (m : Mems) (n : Node)
    (hpt : pt ∉ [.ca, .cal, .cj, .devRest, .devState, .digOut, .dsp, .dupSent, .evt, .ex, .free, .gen, .ld, .lo, .mbx, .po, .rcd, .seq, .slots, .ui]) : Part.get (commitBegin m n).2 pt = Part.get n pt := by
  simp only [List.mem_cons, List.not_mem_nil, or_false, not_or] at hpt
  unfold commitBegin
  (repeat' split) <;> simp [hpt, caStop_get, doHoldCommit_get, dspStop_get, enter_get, exRefresh_get, lnTestsAbort_get, loHoldCommit_get, loSafeEntry_get, mbClear_get, seqApply_get, uiStop_get, uiUnforce_get, get_upd_dev, get_upd_ld, get_upd_ld_dev, get_foldl, get_ite]

theorem liveAddrWrite_get {pt : Part} (v : Word) (n : Node)
    (hpt : pt ∉ [.ld]) : Part.get (liveAddrWrite v n) pt = Part.get n pt := by
  simp only [List.mem_cons, List.not_mem_nil, or_false, not_or] at hpt
  unfold liveAddrWrite
  (repeat' split) <;> simp [hpt, rmCode_get, get_upd_ld, get_foldl, get_ite]

theorem liveDataWrite_get {pt : Part} (v : Word) (m : Mems) (n : Node)
    (hpt : pt ∉ [.ld]) : Part.get (liveDataWrite v m n).2 pt = Part.get n pt := by
  simp only [List.mem_cons, List.not_mem_nil, or_false, not_or] at hpt
  unfold liveDataWrite
  (repeat' split) <;> simp [hpt, rmCode_get, get_upd_ld, get_foldl, get_ite]

theorem liveRefuse_get {pt : Part} (e : RmFail) (m : Mems) (n : Node)
    (hpt : pt ∉ [.dupSent, .evt, .ld, .rcd]) : Part.get (liveRefuse e m n).2 pt = Part.get n pt := by
  simp only [List.mem_cons, List.not_mem_nil, or_false, not_or] at hpt
  unfold liveRefuse
  (repeat' split) <;> simp [hpt, rmFail_get, get_upd_ld, get_foldl, get_ite]

theorem liveSubmit_get {pt : Part} (m : Mems) (n : Node)
    (hpt : pt ∉ [.dupSent, .evt, .ld, .rcd]) : Part.get (liveSubmit m n).2 pt = Part.get n pt := by
  simp only [List.mem_cons, List.not_mem_nil, or_false, not_or] at hpt
  unfold liveSubmit
  (repeat' split) <;> simp [hpt, liveRefuse_get, rmRefuse_get, get_upd_ld, get_foldl, get_ite]

theorem liveCancel_get {pt : Part} (m : Mems) (n : Node)
    (hpt : pt ∉ [.dupSent, .evt, .ld, .rcd]) : Part.get (liveCancel m n).2 pt = Part.get n pt := by
  simp only [List.mem_cons, List.not_mem_nil, or_false, not_or] at hpt
  unfold liveCancel
  (repeat' split) <;> simp [hpt, rmRefuse_get, get_upd_ld, get_foldl, get_ite]

theorem liveCtrl_get {pt : Part} (v : Word) (m : Mems) (n : Node)
    (hpt : pt ∉ [.dupSent, .evt, .ld, .rcd]) : Part.get (liveCtrl v m n).2 pt = Part.get n pt := by
  simp only [List.mem_cons, List.not_mem_nil, or_false, not_or] at hpt
  unfold liveCtrl
  (repeat' split) <;> simp [hpt, liveCancel_get, liveSubmit_get, get_foldl, get_ite]

theorem liveCheck_get {pt : Part} (m : Mems) (n : Node)
    (hpt : pt ∉ [.dupSent, .evt, .ld, .rcd]) : Part.get (liveCheck m n).2 pt = Part.get n pt := by
  simp only [List.mem_cons, List.not_mem_nil, or_false, not_or] at hpt
  unfold liveCheck
  (repeat' split) <;> simp [hpt, liveRefuse_get, get_upd_ld, get_foldl, get_ite]

theorem liveApply_get {pt : Part} (g : Image) (n : Node)
    (hpt : pt ∉ [.alm, .almDue, .digOut, .dsp, .dupSent, .evt, .gen, .ld, .ln, .lo, .po, .rcd, .seq, .shp, .slots]) : Part.get (liveApply g n) pt = Part.get n pt := by
  simp only [List.mem_cons, List.not_mem_nil, or_false, not_or] at hpt
  unfold liveApply
  (repeat' split) <;> simp [hpt, almReplace_get, dspReplace_get, groupReplace_get, lnReplace_get, raise_get, seqReplace_get, get_upd_ld, get_foldl, get_ite]

theorem liveReplace_get {pt : Part} (m : Mems) (n : Node)
    (hpt : pt ∉ [.alm, .almDue, .digOut, .dsp, .dupSent, .evt, .gen, .ld, .ln, .lo, .po, .rcd, .seq, .shp, .slots]) : Part.get (liveReplace m n).2 pt = Part.get n pt := by
  simp only [List.mem_cons, List.not_mem_nil, or_false, not_or] at hpt
  unfold liveReplace
  (repeat' split) <;> simp [hpt, liveApply_get, get_foldl, get_ite]

theorem partnerLive_get {pt : Part} (bs : Bytes) (m : Mems) (n : Node)
    (hpt : pt ∉ [.ld]) : Part.get (partnerLive bs m n).2 pt = Part.get n pt := by
  simp only [List.mem_cons, List.not_mem_nil, or_false, not_or] at hpt
  unfold partnerLive
  (repeat' split) <;> simp [hpt, get_upd_ld, get_foldl, get_ite]

theorem snapDataRead_get {pt : Part} (p : HostPort) (n : Node)
    (hpt : pt ∉ [.port p]) : Part.get (snapDataRead p n).2.2 pt = Part.get n pt := by
  simp only [List.mem_cons, List.not_mem_nil, or_false, not_or] at hpt
  unfold snapDataRead
  (repeat' split) <;> (try simp [hpt, modPort_get, get_foldl, get_ite]) <;> (try intros) <;> (repeat' split) <;> (try simp_all [hpt, modPort_get, get_foldl, get_ite])

theorem snapTrigger_get {pt : Part} (p : HostPort) (n : Node)
    (hpt : pt ∉ [.port p]) : Part.get (snapTrigger p n) pt = Part.get n pt := by
  simp only [List.mem_cons, List.not_mem_nil, or_false, not_or] at hpt
  unfold snapTrigger
  (repeat' split) <;> simp [hpt, modPort_get, get_foldl, get_ite]

theorem snapDone_get {pt : Part} (p : HostPort) (n : Node)
    (hpt : pt ∉ [.dupSent, .evt, .rcd, .port p]) : Part.get (snapDone p n) pt = Part.get n pt := by
  simp only [List.mem_cons, List.not_mem_nil, or_false, not_or] at hpt
  unfold snapDone
  (repeat' split) <;> simp [hpt, modPort_get, raise_get, get_foldl, get_ite]

theorem snapAddrWrite_get {pt : Part} (p : HostPort) (v : Word) (n : Node)
    (hpt : pt ∉ [.port p]) : Part.get (snapAddrWrite p v n).2 pt = Part.get n pt := by
  simp only [List.mem_cons, List.not_mem_nil, or_false, not_or] at hpt
  unfold snapAddrWrite
  (repeat' split) <;> simp [hpt, modPort_get, get_foldl, get_ite]

theorem fwDataWrite_get {pt : Part} (v : Word) (m : Mems) (n : Node)
    (hpt : pt ∉ [.dup]) : Part.get (fwDataWrite v m n).2 pt = Part.get n pt := by
  simp only [List.mem_cons, List.not_mem_nil, or_false, not_or] at hpt
  unfold fwDataWrite
  (repeat' split) <;> simp [hpt, dupRefuse_get, fwStaged_get, get_foldl, get_ite]

theorem fwInstallCmd_get {pt : Part} (m : Mems) (n : Node)
    (hpt : pt ∉ [.dup]) : Part.get (fwInstallCmd m n) pt = Part.get n pt := by
  simp only [List.mem_cons, List.not_mem_nil, or_false, not_or] at hpt
  unfold fwInstallCmd
  (repeat' split) <;> simp [hpt, dupRefuse_get, fwInstall_get, get_foldl, get_ite]

theorem mbxWrite_get {pt : Part} (id a : Nat) (v : Word) (n : Node)
    (hpt : pt ∉ [.dupSent, .evt, .mbx, .rcd]) : Part.get (mbxWrite id a v n).2 pt = Part.get n pt := by
  simp only [List.mem_cons, List.not_mem_nil, or_false, not_or] at hpt
  unfold mbxWrite
  (repeat' split) <;> simp [hpt, dbMaskWrite_get, dbStatusWrite_get, mbAck_get, mbFetch_get, mbPost_get, mbWinWrite_get, get_foldl, get_ite]

theorem sendFwd_get {pt : Part} (p : HostPort) (a : Nat) (v : Word) (n : Node)
    (hpt : pt ∉ [.tx]) : Part.get (sendFwd p a v n) pt = Part.get n pt := by
  simp only [List.mem_cons, List.not_mem_nil, or_false, not_or] at hpt
  unfold sendFwd
  (repeat' split) <;> simp [hpt, sendFrame_get, get_foldl, get_ite]

theorem pushFwd_get {pt : Part} (o : FwdOrg) (n : Node)
    (hpt : pt ∉ [.net]) : Part.get (pushFwd o n) pt = Part.get n pt := by
  simp only [List.mem_cons, List.not_mem_nil, or_false, not_or] at hpt
  unfold pushFwd
  (repeat' split) <;> simp [hpt, get_upd_net, get_foldl, get_ite]

theorem spiShift_get {pt : Part} (r : SpiResp) (n : Node)
    (hpt : pt ∉ [.spi]) : Part.get (spiShift r n) pt = Part.get n pt := by
  simp only [List.mem_cons, List.not_mem_nil, or_false, not_or] at hpt
  unfold spiShift
  (repeat' split) <;> simp [hpt, get_upd_spi, get_foldl, get_ite]

theorem spiHeld_get {pt : Part} (tag : Byte) (c : Acc) (n : Node)
    (hpt : pt ∉ [.spi]) : Part.get (spiHeld tag c n) pt = Part.get n pt := by
  simp only [List.mem_cons, List.not_mem_nil, or_false, not_or] at hpt
  unfold spiHeld
  (repeat' split) <;> simp [hpt, spiShift_get, get_upd_spi, get_foldl, get_ite]

theorem spiError_get {pt : Part} (n : Node)
    (hpt : pt ∉ [.dupSent, .evt, .rcd, .spi]) : Part.get (spiError n) pt = Part.get n pt := by
  simp only [List.mem_cons, List.not_mem_nil, or_false, not_or] at hpt
  unfold spiError
  (repeat' split) <;> simp [hpt, raise_get, spiHeld_get, spiShift_get, get_upd_spi, get_foldl, get_ite]

theorem wfSend_get {pt : Part} (net : Bool) (client ver op : Nat) (sess : Word) (seq st : Nat) (pay : Bytes) (n : Node)
    (hpt : pt ∉ [.tx]) : Part.get (wfSend net client ver op sess seq st pay n) pt = Part.get n pt := by
  simp only [List.mem_cons, List.not_mem_nil, or_false, not_or] at hpt
  unfold wfSend
  (repeat' split) <;> simp [hpt, sendFrame_get, get_foldl, get_ite]

theorem modSession_get {pt : Part} (sess : Word) (f : Session → Session) (n : Node)
    (hpt : pt ∉ [.wf]) : Part.get (modSession sess f n) pt = Part.get n pt := by
  simp only [List.mem_cons, List.not_mem_nil, or_false, not_or] at hpt
  unfold modSession
  (repeat' split) <;> simp [hpt, get_upd_wf, get_foldl, get_ite]

theorem sessionExpiry_get {pt : Part} (sess : Word) (n : Node)
    (hpt : pt ∉ [.wf]) : Part.get (sessionExpiry sess n) pt = Part.get n pt := by
  simp only [List.mem_cons, List.not_mem_nil, or_false, not_or] at hpt
  unfold sessionExpiry
  (repeat' split) <;> simp [hpt, get_upd_wf, get_foldl, get_ite]

theorem sessionTick_get {pt : Part} (n : Node)
    (hpt : pt ∉ [.wf]) : Part.get (sessionTick n) pt = Part.get n pt := by
  simp only [List.mem_cons, List.not_mem_nil, or_false, not_or] at hpt
  unfold sessionTick
  (repeat' split) <;> simp [hpt, get_upd_wf, get_foldl, get_ite]

theorem wfAnswer_get {pt : Part} (s : Session) (op : Nat) (seq : BitVec 16) (st : Nat) (pay : Bytes) (n : Node)
    (hpt : pt ∉ [.tx, .wf]) : Part.get (wfAnswer s op seq st pay n) pt = Part.get n pt := by
  simp only [List.mem_cons, List.not_mem_nil, or_false, not_or] at hpt
  unfold wfAnswer
  (repeat' split) <;> simp [hpt, modSession_get, wfSend_get, get_foldl, get_ite]

theorem snapAnswer_get {pt : Part} (n : Node) (s : Session)
    (hpt : pt ∉ [.tx, .wf]) : Part.get (snapAnswer n s) pt = Part.get n pt := by
  simp only [List.mem_cons, List.not_mem_nil, or_false, not_or] at hpt
  unfold snapAnswer
  (repeat' split) <;> simp [hpt, wfAnswer_get, get_foldl, get_ite]

theorem snapComplete_get {pt : Part} (p : HostPort) (n : Node)
    (hpt : pt ∉ [.dupSent, .evt, .rcd, .tx, .wf, .port p]) : Part.get (snapComplete p n) pt = Part.get n pt := by
  simp only [List.mem_cons, List.not_mem_nil, or_false, not_or] at hpt
  unfold snapComplete
  (repeat' split) <;> simp [hpt, snapAnswer_get, snapDone_get, get_foldl, get_ite]

theorem wfEnd_get {pt : Part} (s : Session) (seq : BitVec 16) (op : Nat) (st : Nat) (w : WfPend) (data : Word) (n : Node)
    (hpt : pt ∉ [.tx, .wf]) : Part.get (wfEnd s seq op st w data n) pt = Part.get n pt := by
  simp only [List.mem_cons, List.not_mem_nil, or_false, not_or] at hpt
  unfold wfEnd
  (repeat' split) <;> simp [hpt, wfAnswer_get, get_foldl, get_ite]

theorem pushOne_get {pt : Part} (n : Node) (s : Session)
    (hpt : pt ∉ [.tx, .wf]) : Part.get (pushOne n s) pt = Part.get n pt := by
  simp only [List.mem_cons, List.not_mem_nil, or_false, not_or] at hpt
  unfold pushOne
  (repeat' split) <;> simp [hpt, modSession_get, sendFrame_get, get_foldl, get_ite]

theorem pushTick_get {pt : Part} (n : Node)
    (hpt : pt ∉ [.tx, .wf]) : Part.get (pushTick n) pt = Part.get n pt := by
  simp only [List.mem_cons, List.not_mem_nil, or_false, not_or] at hpt
  unfold pushTick
  (repeat' split) <;> simp [hpt, pushOne_get, get_foldl, get_ite]

theorem mbSend_get {pt : Part} (q : MbReq) (pdu : Bytes) (n : Node)
    (hpt : pt ∉ [.tx]) : Part.get (mbSend q pdu n) pt = Part.get n pt := by
  simp only [List.mem_cons, List.not_mem_nil, or_false, not_or] at hpt
  unfold mbSend
  (repeat' split) <;> simp [hpt, sendFrame_get, get_foldl, get_ite]

theorem mbExcept_get {pt : Part} (q : MbReq) (func code : Nat) (n : Node)
    (hpt : pt ∉ [.tx]) : Part.get (mbExcept q func code n) pt = Part.get n pt := by
  simp only [List.mem_cons, List.not_mem_nil, or_false, not_or] at hpt
  unfold mbExcept
  (repeat' split) <;> simp [hpt, mbSend_get, get_foldl, get_ite]

theorem mbWritten_get {pt : Part} (q : MbReq) (func reg arg bad : Nat) (n : Node)
    (hpt : pt ∉ [.tx]) : Part.get (mbWritten q func reg arg bad n) pt = Part.get n pt := by
  simp only [List.mem_cons, List.not_mem_nil, or_false, not_or] at hpt
  unfold mbWritten
  (repeat' split) <;> simp [hpt, mbExcept_get, mbSend_get, get_foldl, get_ite]

theorem acnAck_get {pt : Part} (b : Bool) (a : AlertRef) (n : Node)
    (hpt : pt ∉ [.alm, .almDue, .dupSent, .evt, .net, .netAlerts, .rcd, .tx]) : Part.get (acnAck b a n) pt = Part.get n pt := by
  simp only [List.mem_cons, List.not_mem_nil, or_false, not_or] at hpt
  unfold acnAck
  (repeat' split) <;> simp [hpt, acnDiscard_get, almCallAckWrite_get, almCmdWrite_get, almRefuse_get, pushFwd_get, sendArc_get, sendFwd_get, get_foldl, get_ite]

theorem svcSend_get {pt : Part} (st : Nat) (tag : Byte) (a : Nat) (data : Word) (n : Node)
    (hpt : pt ∉ [.tx]) : Part.get (svcSend st tag a data n) pt = Part.get n pt := by
  simp only [List.mem_cons, List.not_mem_nil, or_false, not_or] at hpt
  unfold svcSend
  (repeat' split) <;> simp [hpt, sendFrame_get, get_foldl, get_ite]

theorem spiDrop_get {pt : Part} (st : Nat) (n : Node)
    (hpt : pt ∉ [.spi]) : Part.get (spiDrop st n) pt = Part.get n pt := by
  simp only [List.mem_cons, List.not_mem_nil, or_false, not_or] at hpt
  unfold spiDrop
  split
  · exact get_upd_spi n _ (by simp [hpt])
  · rfl

theorem svcDrop_get {pt : Part} (st : Nat) (n : Node)
    (hpt : pt ∉ [.net, .tx]) : Part.get (svcDrop st n) pt = Part.get n pt := by
  simp only [List.mem_cons, List.not_mem_nil, or_false, not_or] at hpt
  unfold svcDrop
  (repeat' split) <;> simp [hpt, svcSend_get, get_upd_net, get_foldl, get_ite]

theorem wfDrop_get {pt : Part} (st : Nat) (n : Node) (s : Session)
    (hpt : pt ∉ [.tx, .wf]) : Part.get (wfDrop st n s) pt = Part.get n pt := by
  simp only [List.mem_cons, List.not_mem_nil, or_false, not_or] at hpt
  unfold wfDrop
  (repeat' split) <;> simp [hpt, wfEnd_get, get_foldl, get_ite]

theorem fwdAnswered_get {pt : Part} (st : Nat) (n : Node)
    (hpt : pt ∉ [.net, .spi, .tx, .wf, .port .m1, .port .m2, .port .m3, .port .m5]) : Part.get (fwdAnswered st n) pt = Part.get n pt := by
  simp only [List.mem_cons, List.not_mem_nil, or_false, not_or] at hpt
  have hp : ∀ q, ¬ pt = .port q := fun q => by cases q <;> simp [hpt]
  unfold fwdAnswered
  (repeat' split) <;> simp [hpt, hp, modPort_get, mbWritten_get, spiDrop_get, svcDrop_get, wfDrop_get, get_upd_net, get_foldl, get_ite]

theorem fwdDropAll_get {pt : Part} (n : Node)
    (hpt : pt ∉ [.net, .spi, .tx, .wf, .port .m1, .port .m2, .port .m3, .port .m5]) : Part.get (fwdDropAll n) pt = Part.get n pt := by
  simp only [List.mem_cons, List.not_mem_nil, or_false, not_or] at hpt
  have hp : ∀ q, ¬ pt = .port q := fun q => by cases q <;> simp [hpt]
  unfold fwdDropAll
  have hw : ∀ k m, Part.get (fwdDrop k m) pt = Part.get m pt := by
    intro k
    induction k with
    | zero => intro m; rfl
    | succ k ih => intro m; exact (ih _).trans (fwdAnswered_get _ _ (by simp [hpt]))
  split <;> simp [hw]

theorem dropWaiting_get {pt : Part} (i : Nat) (n : Node)
    (hpt : pt ∉ [.net, .spi, .tx, .wf]) : Part.get (dropWaiting i n) pt = Part.get n pt := by
  simp only [List.mem_cons, List.not_mem_nil, or_false, not_or] at hpt
  unfold dropWaiting
  (repeat' split) <;> (try simp [hpt, spiDrop_get, svcDrop_get, wfDrop_get, get_foldl, get_ite]) <;> (try intros) <;> (repeat' split) <;> (try simp_all [hpt, spiDrop_get, svcDrop_get, wfDrop_get, get_foldl, get_ite])

theorem settle_get {pt : Part} (n : Node) (hpt : pt ∉ plantParts) : Part.get (settle n) pt = Part.get n pt := by
  have h := settle_follows n
  generalize settle n = m at h ⊢
  have c := h.core
  cases pt with
  | port p => exact congrArg (fun x : Ports => ({ n with ports := x } : Node).port p) h.ports
  | devtime => exact congrArg TimeBase.devtime h.time
  | ticks => exact congrArg (fun x : TimeBase => (x.lastScan, x.lastFine)) h.time
  | store => exact h.jn_store
  | devRest => have e := congrArg (fun x : Device => { x with st := DevSt.off, prev := DevSt.off, stateTick := 0#32 }) (congrArg Node.dev c); exact e
  | digIn => have e := congrArg (fun x : Digital => (x.di, x.ss, x.ot, x.pins, x.fpMv)) (congrArg Node.dig c); exact e
  | ilRefused => exact h.il_refused
  | alm => have e := congrArg Node.alm c; exact e
  | dup => have e := congrArg Node.dup c; exact e
  | net => have e := congrArg Node.net c; exact e
  | slots | devState | evt | digOut | il | shp | almDue | mram | rcd | dupSent | netAlerts | tx => exact absurd (by decide) hpt
  | isl => exact h.isl
  | ld => exact h.ld
  | blk => exact h.blk
  | spi => exact h.spi
  | wf => exact h.wf
  | mbx => exact h.mbx
  | ui => exact h.ui
  | ex => exact h.ex
  | cj => exact h.cj
  | cal => exact h.cal
  | mw => exact h.mw
  | ca => exact h.ca
  | lo => exact h.lo
  | po => exact h.po
  | hart => exact h.hart
  | pf => exact h.pf
  | cmp => exact h.cmp
  | ln => exact h.ln
  | gen => exact h.gen
  | seq => exact h.seq
  | dsp => exact h.dsp
  | clk => exact h.clk
  | mir => exact h.mir
  | ckpt => exact h.ckpt
  | dtr => exact h.dtr
  | fwActs => exact h.fwActs
  | free => exact h.free

theorem runWhenDue_get {pt : Part} (t : Nat) (n : Node)
    (hpt : pt ∉ [.cal, .devRest, .devState, .digIn, .digOut, .dupSent, .evt, .ex, .free, .ln, .lo, .po, .rcd, .seq, .slots, .ui]) : Part.get (runWhenDue t n) pt = Part.get n pt := by
  simp only [List.mem_cons, List.not_mem_nil, or_false, not_or] at hpt
  unfold runWhenDue
  (repeat' split) <;> simp [hpt, runEntry_get, get_foldl, get_ite]

theorem haltWhenDue_get {pt : Part} (t : Nat) (n : Node)
    (hpt : pt ∉ [.alm, .almDue, .cal, .devRest, .devState, .digOut, .dupSent, .evt, .ex, .free, .gen, .ln, .lo, .po, .rcd, .seq, .shp, .slots, .ui]) : Part.get (haltWhenDue t n) pt = Part.get n pt := by
  simp only [List.mem_cons, List.not_mem_nil, or_false, not_or] at hpt
  unfold haltWhenDue
  (repeat' split) <;> simp [hpt, haltEffect_get, get_foldl, get_ite]

theorem tickMeas_get {pt : Part} (x : ScanMeas) (n : Node)
    (hpt : pt ∉ [.digIn, .digOut, .ex]) : Part.get (tickMeas x n) pt = Part.get n pt := by
  simp only [List.mem_cons, List.not_mem_nil, or_false, not_or] at hpt
  unfold tickMeas
  (repeat' split) <;> (try simp [hpt, fpSet_get, modDo_get, modEx_get, pinsSet_get, get_foldl, get_ite]) <;> (try intros) <;> (repeat' split) <;> (try simp_all [hpt, fpSet_get, modDo_get, modEx_get, pinsSet_get, get_foldl, get_ite])

theorem tpTick_get {pt : Part} (t : Nat) (n : Node)
    (hpt : pt ∉ [.digOut]) : Part.get (tpTick t n) pt = Part.get n pt := by
  simp only [List.mem_cons, List.not_mem_nil, or_false, not_or] at hpt
  unfold tpTick
  (repeat' split) <;> simp [hpt, tpStart_get, get_foldl, get_ite]

theorem deviceTick_get {pt : Part} (t : Nat) (m : Mems) (n : Node)
    (hpt : pt ∉ [.alm, .almDue, .ca, .cal, .cj, .devRest, .devState, .digIn, .digOut, .dsp, .dupSent, .evt, .ex, .free, .gen, .ld, .ln, .lo, .mbx, .po, .rcd, .seq, .shp, .slots, .ui]) : Part.get (deviceTick t m n).2 pt = Part.get n pt := by
  simp only [List.mem_cons, List.not_mem_nil, or_false, not_or] at hpt
  unfold deviceTick
  (repeat' split) <;> (try simp [hpt, commitBegin_get, haltWhenDue_get, liveReplace_get, runWhenDue_get, get_foldl, get_ite]) <;> (try intros) <;> (repeat' split) <;> (try simp_all [hpt, commitBegin_get, haltWhenDue_get, liveReplace_get, runWhenDue_get, get_foldl, get_ite])

theorem roleTick_get {pt : Part} (t : Nat) (n : Node)
    (hpt : pt ∉ [.alm, .almDue, .cal, .ckpt, .digOut, .dsp, .dup, .dupSent, .evt, .gen, .isl, .ln, .lo, .po, .rcd, .seq, .shp, .slots, .store, .tx]) : Part.get (roleTick t n) pt = Part.get n pt := by
  simp only [List.mem_cons, List.not_mem_nil, or_false, not_or] at hpt
  unfold roleTick
  (repeat' split) <;> (try simp [hpt, almScan_get, checkpoint_get, digScan_get, dspScan_get, seqScan_get, spareTick_get, staleTick_get, tpTick_get, triadTick_get, get_foldl, get_ite]) <;> (try intros) <;> (repeat' split) <;> (try simp_all [hpt, almScan_get, checkpoint_get, digScan_get, dspScan_get, seqScan_get, spareTick_get, staleTick_get, tpTick_get, triadTick_get, get_foldl, get_ite])

theorem serviceTick_get {pt : Part} (n : Node)
    (hpt : pt ∉ [.blk, .dupSent, .evt, .mbx, .mram, .net, .rcd, .tx, .wf]) : Part.get (serviceTick n) pt = Part.get n pt := by
  simp only [List.mem_cons, List.not_mem_nil, or_false, not_or] at hpt
  unfold serviceTick
  (repeat' split) <;> (try simp [hpt, expertTimeouts_get, mbUnknown_get, modbusTick_get, pushTick_get, recScan_get, sessionTick_get, get_foldl, get_ite]) <;> (try intros) <;> (repeat' split) <;> (try simp_all [hpt, expertTimeouts_get, mbUnknown_get, modbusTick_get, pushTick_get, recScan_get, sessionTick_get, get_foldl, get_ite])

theorem fineTick_get {pt : Part} (pins : Word) (n : Node)
    (hpt : pt ∉ [.ca, .devtime, .digIn, .digOut, .dupSent, .evt, .gen, .ln, .lo, .pf, .po, .rcd, .shp, .slots, .ticks, .tx]) : Part.get (fineTick pins n) pt = Part.get n pt := by
  simp only [List.mem_cons, List.not_mem_nil, or_false, not_or] at hpt
  unfold fineTick
  dsimp only
  have h1 : ∀ (m : Node) a, Part.get { m with time.lastFine := a } pt = Part.get m pt := fun m a => by simp [hpt, advance_get, digFine_get, lnFine_get, pfFine_get, pinsSet_get, poFine_get, sendBeacons_get, get_upd_time, get_foldl, get_ite]
  have h2 : ∀ t, Part.get (pfFine t (digFine t (pinsSet pins { n.advance t with time.lastFine := t / finePer }))) pt = Part.get n pt :=
    fun t => (pfFine_get _ _ (by simp [hpt])).trans ((digFine_get _ _ (by simp [hpt])).trans ((pinsSet_get _ _ (by simp [hpt])).trans
      ((h1 _ _).trans (advance_get _ _ (by simp [hpt])))))
  refine (sendBeacons_get _ (by simp [hpt])).trans ((poFine_get _ (by simp [hpt])).trans ?_)
  split
  · exact h2 _
  · exact (lnFine_get _ _ (by simp [hpt])).trans (h2 _)

theorem uiStep_get {pt : Part} (c : Nat) (x : UiReading) (t : Nat) (n : Node)
    (hpt : pt ∉ [.cal, .dtr, .dupSent, .evt, .il, .rcd, .slots, .ui]) : Part.get (uiStep c x t n) pt = Part.get n pt := by
  simp only [List.mem_cons, List.not_mem_nil, or_false, not_or] at hpt
  unfold uiStep
  (repeat' split) <;> simp [hpt, ilUi_get, uiConvert_get, uiMiswired_get, get_foldl, get_ite]

theorem caStepEnd_get {pt : Part} (c : Nat) (q : Int) (n : Node)
    (hpt : pt ∉ [.ca, .dupSent, .evt, .il, .rcd]) : Part.get (caStepEnd c q n) pt = Part.get n pt := by
  simp only [List.mem_cons, List.not_mem_nil, or_false, not_or] at hpt
  unfold caStepEnd
  (repeat' split) <;> simp [hpt, caConvEnd_get, ilCa_get, get_foldl, get_ite]

theorem caAbandonDue_get {pt : Part} (c t : Nat) (n : Node)
    (hpt : pt ∉ [.ca]) : Part.get (caAbandonDue c t n) pt = Part.get n pt := by
  simp only [List.mem_cons, List.not_mem_nil, or_false, not_or] at hpt
  unfold caAbandonDue
  (repeat' split) <;> simp [hpt, caAbandon_get, get_foldl, get_ite]

theorem diStep_get {pt : Part} (k : Nat) (lvl : Bool) (t : Nat) (n : Node)
    (hpt : pt ∉ [.alm, .digIn, .dupSent, .evt, .rcd]) : Part.get (diStep k lvl t n) pt = Part.get n pt := by
  simp only [List.mem_cons, List.not_mem_nil, or_false, not_or] at hpt
  unfold diStep
  (repeat' split) <;> simp [hpt, almPress_get, diAccept_get, get_foldl, get_ite]

theorem mwDetect_get {pt : Part} (ch t : Nat) (n : Node)
    (hpt : pt ∉ [.ca, .cal, .dupSent, .evt, .ex, .free, .lo, .mw, .pf, .rcd, .slots, .ui]) : Part.get (mwDetect ch t n) pt = Part.get n pt := by
  simp only [List.mem_cons, List.not_mem_nil, or_false, not_or] at hpt
  unfold mwDetect
  (repeat' split) <;> simp [hpt, mwEffect_get, mwSet_get, pfMiswire_get, get_foldl, get_ite]

theorem mwReconnect_get {pt : Part} (ch t : Nat) (n : Node)
    (hpt : pt ∉ [.cal, .dupSent, .evt, .ex, .free, .lo, .mw, .rcd, .slots, .ui]) : Part.get (mwReconnect ch t n) pt = Part.get n pt := by
  simp only [List.mem_cons, List.not_mem_nil, or_false, not_or] at hpt
  unfold mwReconnect
  (repeat' split) <;> simp [hpt, mwClear_get, mwRestore_get, get_foldl, get_ite]

theorem clockSecond_get {pt : Part} (n : Node)
    (hpt : pt ∉ [.clk, .dup, .dupSent, .evt, .rcd, .tx]) : Part.get (clockSecond n) pt = Part.get n pt := by
  simp only [List.mem_cons, List.not_mem_nil, or_false, not_or] at hpt
  unfold clockSecond
  (repeat' split) <;> simp [hpt, clkSecond_get, swapSecond_get, get_foldl, get_ite]

theorem linkLoss_get {pt : Part} (t : Nat) (n : Node)
    (hpt : pt ∉ [.alm, .almDue, .ca, .digOut, .dup, .dupSent, .evt, .ex, .isl, .ln, .lo, .net, .po, .rcd, .seq, .shp, .slots, .spi, .tx, .wf, .port .m1, .port .m2, .port .m3, .port .m5]) : Part.get (linkLoss t n) pt = Part.get n pt := by
  simp only [List.mem_cons, List.not_mem_nil, or_false, not_or] at hpt
  have hp : ∀ q, ¬ pt = .port q := fun q => by cases q <;> simp [hpt]
  unfold linkLoss
  (repeat' split) <;> simp [hpt, hp, fwdDropAll_get, linkLost_get, get_foldl, get_ite]

theorem fwRelay_get {pt : Part} (img : Bytes) (m : Mems) (n : Node)
    (hpt : pt ∉ [.dup]) : Part.get (fwRelay img m n).2 pt = Part.get n pt := by
  simp only [List.mem_cons, List.not_mem_nil, or_false, not_or] at hpt
  unfold fwRelay
  (repeat' split) <;> simp [hpt, get_upd_dup, get_foldl, get_ite]

end Sys2Proof.Machine
end

