-- ==== Sys2Proof/Laws/Flags.lean ====
section
/-! SUPPORT. Event flags: no operation but a write of EVT_STAT and a reset clears one (R134, R135). -/

namespace Sys2Proof.Machine
open Sys2Proof
set_option linter.all false

theorem flag_ite {c : Prop} [Decidable c] (a b : Node) (k : Nat) :
    (if c then a else b).evt.flag k = if c then a.evt.flag k else b.evt.flag k := by split <;> rfl
theorem flag_foldl {β : Type} (f : Node → β → Node) (l : List β) (n : Node) (k : Nat) (h : n.evt.flag k = true)
    (hf : ∀ m x, m.evt.flag k = true → (f m x).evt.flag k = true) : (l.foldl f n).evt.flag k = true := by
  induction l generalizing n with
  | nil => exact h
  | cons x r ih => exact ih _ (hf n x h)
theorem raise_flag' (j : Nat) (n : Node) (k : Nat) (h : n.evt.flag k = true) : (raise j n).evt.flag k = true := (raise_follows j n).flag k h

theorem advance_flag (t : Nat) (n : Node) (j0 : Nat) : ((Node.advance t n)).evt.flag j0 = n.evt.flag j0 :=
  congrArg (fun e => Events.flag e j0) (advance_get (pt := .evt) t n (by simp))

theorem setIsl_flag (i : Nat) (x : IslState) (n : Node) (j0 : Nat) : ((Node.setIsl i x n)).evt.flag j0 = n.evt.flag j0 :=
  congrArg (fun e => Events.flag e j0) (setIsl_get (pt := .evt) i x n (by simp))

theorem setPort_flag (p : HostPort) (x : Port) (n : Node) (j0 : Nat) : ((Node.setPort p x n)).evt.flag j0 = n.evt.flag j0 :=
  congrArg (fun e => Events.flag e j0) (setPort_get (pt := .evt) p x n (by simp))

theorem modPort_flag (p : HostPort) (f : Port → Port) (n : Node) (j0 : Nat) : ((Node.modPort p f n)).evt.flag j0 = n.evt.flag j0 :=
  congrArg (fun e => Events.flag e j0) (modPort_get (pt := .evt) p f n (by simp))

theorem recNote_flag (typ sev : Nat) (pay : Option Bytes) (n : Node) (j0 : Nat) : ((recNote typ sev pay n)).evt.flag j0 = n.evt.flag j0 :=
  congrArg (fun e => Events.flag e j0) (recNote_get (pt := .evt) typ sev pay n (by simp))

theorem recNoteIf_flag (b : Bool) (typ sev : Nat) (pay : Option Bytes) (n : Node) (j0 : Nat) : ((recNoteIf b typ sev pay n)).evt.flag j0 = n.evt.flag j0 :=
  congrArg (fun e => Events.flag e j0) (recNoteIf_get (pt := .evt) b typ sev pay n (by simp))

theorem recOcc_flag (cls ch : Nat) (n : Node) (j0 : Nat) : ((recOcc cls ch n)).evt.flag j0 = n.evt.flag j0 :=
  congrArg (fun e => Events.flag e j0) (recOcc_get (pt := .evt) cls ch n (by simp))

theorem recOccIf_flag (b : Bool) (cls ch : Nat) (n : Node) (j0 : Nat) : ((recOccIf b cls ch n)).evt.flag j0 = n.evt.flag j0 :=
  congrArg (fun e => Events.flag e j0) (recOccIf_get (pt := .evt) b cls ch n (by simp))

theorem raiseIf_flag (b : Bool) (k : Nat) (n : Node) (j0 : Nat) (hj0 : n.evt.flag j0 = true) : ((raiseIf b k n)).evt.flag j0 = true := by
  unfold raiseIf
  (repeat' split) <;> simp (maxDischargeDepth := 12) [hj0, raise_flag', flag_foldl, flag_ite]

theorem recEnter_flag (x : DevSt) (n : Node) (j0 : Nat) : ((recEnter x n)).evt.flag j0 = n.evt.flag j0 :=
  congrArg (fun e => Events.flag e j0) (recEnter_get (pt := .evt) x n (by simp))

theorem enter_flag (x : DevSt) (n : Node) (j0 : Nat) (hj0 : n.evt.flag j0 = true) : ((enter x n)).evt.flag j0 = true := by
  unfold enter
  (repeat' split) <;> simp (maxDischargeDepth := 12) [hj0, recEnter_flag, recNote_flag, raise_flag', flag_foldl, flag_ite]

theorem drawFree_flag (n : Node) (j0 : Nat) : ((drawFree n).2).evt.flag j0 = n.evt.flag j0 :=
  congrArg (fun e => Events.flag e j0) (drawFree_get (pt := .evt) n (by simp))

theorem complete_flag (prod target : Nat) (es : List Entry) (t : Nat) (n : Node) (j0 : Nat) (hj0 : n.evt.flag j0 = true) : ((complete prod target es t n)).evt.flag j0 = true := by
  unfold complete
  (repeat' split) <;> simp (maxDischargeDepth := 12) [hj0, raise_flag', flag_foldl, flag_ite]

theorem blkCtrlWrite_flag (b : Nat) (v : Word) (n : Node) (j0 : Nat) : ((blkCtrlWrite b v n)).evt.flag j0 = n.evt.flag j0 :=
  congrArg (fun e => Events.flag e j0) (blkCtrlWrite_get (pt := .evt) b v n (by simp))

theorem expertTouch_flag (b : Nat) (n : Node) (j0 : Nat) : ((expertTouch b n)).evt.flag j0 = n.evt.flag j0 :=
  congrArg (fun e => Events.flag e j0) (expertTouch_get (pt := .evt) b n (by simp))

theorem expertTimeout_flag (b : Nat) (n : Node) (j0 : Nat) : ((expertTimeout b n)).evt.flag j0 = n.evt.flag j0 :=
  congrArg (fun e => Events.flag e j0) (expertTimeout_get (pt := .evt) b n (by simp))

theorem expertTimeouts_flag (n : Node) (j0 : Nat) : ((expertTimeouts n)).evt.flag j0 = n.evt.flag j0 :=
  congrArg (fun e => Events.flag e j0) (expertTimeouts_get (pt := .evt) n (by simp))

theorem setMbChan_flag (ch : Nat) (c : MbChan) (n : Node) (j0 : Nat) : ((setMbChan ch c n)).evt.flag j0 = n.evt.flag j0 :=
  congrArg (fun e => Events.flag e j0) (setMbChan_get (pt := .evt) ch c n (by simp))

theorem setMbId_flag (id : Nat) (c : MbId) (n : Node) (j0 : Nat) : ((setMbId id c n)).evt.flag j0 = n.evt.flag j0 :=
  congrArg (fun e => Events.flag e j0) (setMbId_get (pt := .evt) id c n (by simp))

theorem ring_flag (id ch : Nat) (n : Node) (j0 : Nat) (hj0 : n.evt.flag j0 = true) : ((ring id ch n)).evt.flag j0 = true := by
  unfold ring
  (repeat' split) <;> simp (maxDischargeDepth := 12) [hj0, raiseIf_flag, setMbId_flag, flag_foldl, flag_ite]

theorem mbPostMsg_flag (id ch : Nat) (msg : List Word) (n : Node) (j0 : Nat) (hj0 : n.evt.flag j0 = true) : ((mbPostMsg id ch msg n).2).evt.flag j0 = true := by
  unfold mbPostMsg
  (repeat' split) <;> simp (maxDischargeDepth := 12) [hj0, raiseIf_flag, ring_flag, setMbChan_flag, flag_foldl, flag_ite]

theorem mbPost_flag (id ch : Nat) (n : Node) (j0 : Nat) (hj0 : n.evt.flag j0 = true) : ((mbPost id ch n).2).evt.flag j0 = true := by
  unfold mbPost
  (repeat' split) <;> simp (maxDischargeDepth := 12) [hj0, mbPostMsg_flag, flag_foldl, flag_ite]

theorem mbFetch_flag (id ch : Nat) (n : Node) (j0 : Nat) : ((mbFetch id ch n).2).evt.flag j0 = n.evt.flag j0 :=
  congrArg (fun e => Events.flag e j0) (mbFetch_get (pt := .evt) id ch n (by simp))

theorem mbAck_flag (id ch : Nat) (v : Word) (n : Node) (j0 : Nat) (hj0 : n.evt.flag j0 = true) : ((mbAck id ch v n).2).evt.flag j0 = true := by
  unfold mbAck
  (repeat' split) <;> (try simp (maxDischargeDepth := 12) (contextual := true) [hj0, raiseIf_flag, ring_flag, setMbChan_flag, flag_foldl, flag_ite]) <;> (try intros) <;> (repeat' split) <;> (try simp_all (maxDischargeDepth := 12) (contextual := true) [hj0, raiseIf_flag, ring_flag, setMbChan_flag, flag_foldl, flag_ite])

theorem mbClear_flag (n : Node) (j0 : Nat) : ((mbClear n)).evt.flag j0 = n.evt.flag j0 :=
  congrArg (fun e => Events.flag e j0) (mbClear_get (pt := .evt) n (by simp))

theorem dbStatusWrite_flag (id : Nat) (v : Word) (n : Node) (j0 : Nat) : ((dbStatusWrite id v n)).evt.flag j0 = n.evt.flag j0 :=
  congrArg (fun e => Events.flag e j0) (dbStatusWrite_get (pt := .evt) id v n (by simp))

theorem dbMaskWrite_flag (id : Nat) (v : Word) (n : Node) (j0 : Nat) : ((dbMaskWrite id v n)).evt.flag j0 = n.evt.flag j0 :=
  congrArg (fun e => Events.flag e j0) (dbMaskWrite_get (pt := .evt) id v n (by simp))

theorem mbWinWrite_flag (id i : Nat) (v : Word) (n : Node) (j0 : Nat) : ((mbWinWrite id i v n)).evt.flag j0 = n.evt.flag j0 :=
  congrArg (fun e => Events.flag e j0) (mbWinWrite_get (pt := .evt) id i v n (by simp))

theorem setUi_flag (c : Nat) (u : UiChan) (n : Node) (j0 : Nat) : ((setUi c u n)).evt.flag j0 = n.evt.flag j0 :=
  congrArg (fun e => Events.flag e j0) (setUi_get (pt := .evt) c u n (by simp))

theorem modUi_flag (c : Nat) (f : UiChan → UiChan) (n : Node) (j0 : Nat) : ((modUi c f n)).evt.flag j0 = n.evt.flag j0 :=
  congrArg (fun e => Events.flag e j0) (modUi_get (pt := .evt) c f n (by simp))

theorem setEx_flag (k : Nat) (u : ExChan) (n : Node) (j0 : Nat) : ((setEx k u n)).evt.flag j0 = n.evt.flag j0 :=
  congrArg (fun e => Events.flag e j0) (setEx_get (pt := .evt) k u n (by simp))

theorem modEx_flag (k : Nat) (f : ExChan → ExChan) (n : Node) (j0 : Nat) : ((modEx k f n)).evt.flag j0 = n.evt.flag j0 :=
  congrArg (fun e => Events.flag e j0) (modEx_get (pt := .evt) k f n (by simp))

theorem setBc_flag (b : Nat) (u : Bc) (n : Node) (j0 : Nat) : ((setBc b u n)).evt.flag j0 = n.evt.flag j0 :=
  congrArg (fun e => Events.flag e j0) (setBc_get (pt := .evt) b u n (by simp))

theorem modBc_flag (b : Nat) (f : Bc → Bc) (n : Node) (j0 : Nat) : ((modBc b f n)).evt.flag j0 = n.evt.flag j0 :=
  congrArg (fun e => Events.flag e j0) (modBc_get (pt := .evt) b f n (by simp))

theorem recordDetour_flag (c b : Nat) (n : Node) (j0 : Nat) (hj0 : n.evt.flag j0 = true) : ((recordDetour c b n)).evt.flag j0 = true := by
  unfold recordDetour
  (repeat' split) <;> simp (maxDischargeDepth := 12) [hj0, recNote_flag, raise_flag', flag_foldl, flag_ite]

theorem prerollDone_flag (c t : Nat) (n : Node) (j0 : Nat) (hj0 : n.evt.flag j0 = true) : ((prerollDone c t n)).evt.flag j0 = true := by
  unfold prerollDone
  refine flag_foldl _ _ _ _ hj0 (fun m a hm => ?_)
  dsimp only
  split
  · simp [hm, modUi_flag, recordDetour_flag, setBc_flag]
  · exact hm

theorem prerollDrop_flag (n : Node) (j0 : Nat) : ((prerollDrop n)).evt.flag j0 = n.evt.flag j0 :=
  congrArg (fun e => Events.flag e j0) (prerollDrop_get (pt := .evt) n (by simp))

theorem bcPair_flag (c : Nat) (m : UiReading) (t : Nat) (n : Node) (b : Nat) (j0 : Nat) : ((bcPair c m t n b)).evt.flag j0 = n.evt.flag j0 :=
  congrArg (fun e => Events.flag e j0) (bcPair_get (pt := .evt) c m t n b (by simp))

theorem uiConvert_flag (c : Nat) (m : UiReading) (t : Nat) (n : Node) (j0 : Nat) (hj0 : n.evt.flag j0 = true) : ((uiConvert c m t n)).evt.flag j0 = true := by
  unfold uiConvert
  (repeat' split) <;> (try simp (maxDischargeDepth := 12) (contextual := true) [hj0, bcPair_flag, complete_flag, prerollDone_flag, raiseIf_flag, setUi_flag, flag_foldl, flag_ite]) <;> (try intros) <;> (repeat' split) <;> (try simp_all (maxDischargeDepth := 12) (contextual := true) [hj0, bcPair_flag, complete_flag, prerollDone_flag, raiseIf_flag, setUi_flag, flag_foldl, flag_ite])

theorem uiFiltWrite_flag (c : Nat) (v : Word) (n : Node) (j0 : Nat) : ((uiFiltWrite c v n)).evt.flag j0 = n.evt.flag j0 :=
  congrArg (fun e => Events.flag e j0) (uiFiltWrite_get (pt := .evt) c v n (by simp))

theorem roundAbandon_flag (b : Nat) (n : Node) (j0 : Nat) (hj0 : n.evt.flag j0 = true) : ((roundAbandon b n)).evt.flag j0 = true := by
  unfold roundAbandon
  (repeat' split) <;> simp (maxDischargeDepth := 12) [hj0, complete_flag, drawFree_flag, modUi_flag, setBc_flag, raise_flag', flag_foldl, flag_ite]

theorem roundsOf_flag (c : Nat) (n : Node) (j0 : Nat) (hj0 : n.evt.flag j0 = true) : ((roundsOf c n)).evt.flag j0 = true := by
  unfold roundsOf
  (repeat' split) <;> (try simp (maxDischargeDepth := 12) (contextual := true) [hj0, roundAbandon_flag, flag_foldl, flag_ite]) <;> (try intros) <;> (repeat' split) <;> (try simp_all (maxDischargeDepth := 12) (contextual := true) [hj0, roundAbandon_flag, flag_foldl, flag_ite])

theorem uiFilterRestart_flag (c : Nat) (t : Nat) (n : Node) (j0 : Nat) (hj0 : n.evt.flag j0 = true) : ((uiFilterRestart c t n)).evt.flag j0 = true := by
  unfold uiFilterRestart
  (repeat' split) <;> simp (maxDischargeDepth := 12) [hj0, modUi_flag, roundsOf_flag, flag_foldl, flag_ite]

theorem uiForceCtrl_flag (c : Nat) (v : Word) (n : Node) (j0 : Nat) : ((uiForceCtrl c v n)).evt.flag j0 = n.evt.flag j0 :=
  congrArg (fun e => Events.flag e j0) (uiForceCtrl_get (pt := .evt) c v n (by simp))

theorem uiForceVal_flag (c : Nat) (v : Word) (n : Node) (j0 : Nat) : ((uiForceVal c v n)).evt.flag j0 = n.evt.flag j0 :=
  congrArg (fun e => Events.flag e j0) (uiForceVal_get (pt := .evt) c v n (by simp))

theorem uiStart_flag (t : Nat) (n : Node) (j0 : Nat) : ((uiStart t n)).evt.flag j0 = n.evt.flag j0 :=
  congrArg (fun e => Events.flag e j0) (uiStart_get (pt := .evt) t n (by simp))

theorem uiStop_flag (n : Node) (j0 : Nat) (hj0 : n.evt.flag j0 = true) : ((uiStop n)).evt.flag j0 = true := by
  unfold uiStop
  (repeat' split) <;> (try simp (maxDischargeDepth := 12) (contextual := true) [hj0, modUi_flag, prerollDrop_flag, roundAbandon_flag, flag_foldl, flag_ite]) <;> (try intros) <;> (repeat' split) <;> (try simp_all (maxDischargeDepth := 12) (contextual := true) [hj0, modUi_flag, prerollDrop_flag, roundAbandon_flag, flag_foldl, flag_ite])

theorem uiUnforce_flag (n : Node) (j0 : Nat) : ((uiUnforce n)).evt.flag j0 = n.evt.flag j0 :=
  congrArg (fun e => Events.flag e j0) (uiUnforce_get (pt := .evt) n (by simp))

theorem uiApply_flag (n : Node) (j0 : Nat) : ((uiApply n)).evt.flag j0 = n.evt.flag j0 :=
  congrArg (fun e => Events.flag e j0) (uiApply_get (pt := .evt) n (by simp))

theorem cjConvert_flag (k : Nat) (mC : Int) (t : Nat) (n : Node) (j0 : Nat) (hj0 : n.evt.flag j0 = true) : ((cjConvert k mC t n)).evt.flag j0 = true := by
  unfold cjConvert
  (repeat' split) <;> simp (maxDischargeDepth := 12) [hj0, complete_flag, flag_foldl, flag_ite]

theorem cjStart_flag (t : Nat) (n : Node) (j0 : Nat) : ((cjStart t n)).evt.flag j0 = n.evt.flag j0 :=
  congrArg (fun e => Events.flag e j0) (cjStart_get (pt := .evt) t n (by simp))

theorem exApply_flag (k t : Nat) (n : Node) (j0 : Nat) (hj0 : n.evt.flag j0 = true) : ((exApply k t n)).evt.flag j0 = true := by
  unfold exApply
  (repeat' split) <;> (try simp (maxDischargeDepth := 12) (contextual := true) [hj0, modEx_flag, modUi_flag, roundsOf_flag, flag_foldl, flag_ite]) <;> (try intros) <;> (repeat' split) <;> (try simp_all (maxDischargeDepth := 12) (contextual := true) [hj0, modEx_flag, modUi_flag, roundsOf_flag, flag_foldl, flag_ite])

theorem exRequest_flag (k t : Nat) (n : Node) (j0 : Nat) (hj0 : n.evt.flag j0 = true) : ((exRequest k t n)).evt.flag j0 = true := by
  unfold exRequest
  (repeat' split) <;> simp (maxDischargeDepth := 12) [hj0, exApply_flag, modEx_flag, flag_foldl, flag_ite]

theorem exUpdate_flag (k t : Nat) (n : Node) (j0 : Nat) (hj0 : n.evt.flag j0 = true) : ((exUpdate k t n)).evt.flag j0 = true := by
  unfold exUpdate
  (repeat' split) <;> simp (maxDischargeDepth := 12) [hj0, exRequest_flag, flag_foldl, flag_ite]

theorem exRefresh_flag (t : Nat) (n : Node) (j0 : Nat) (hj0 : n.evt.flag j0 = true) : ((exRefresh t n)).evt.flag j0 = true := by
  unfold exRefresh
  (repeat' split) <;> (try simp (maxDischargeDepth := 12) (contextual := true) [hj0, exUpdate_flag, flag_foldl, flag_ite]) <;> (try intros) <;> (repeat' split) <;> (try simp_all (maxDischargeDepth := 12) (contextual := true) [hj0, exUpdate_flag, flag_foldl, flag_ite])

theorem exChangeApply_flag (k t : Nat) (n : Node) (j0 : Nat) (hj0 : n.evt.flag j0 = true) : ((exChangeApply k t n)).evt.flag j0 = true := by
  unfold exChangeApply
  (repeat' split) <;> simp (maxDischargeDepth := 12) [hj0, exApply_flag, flag_foldl, flag_ite]

theorem exSettleEnd_flag (k t : Nat) (n : Node) (j0 : Nat) (hj0 : n.evt.flag j0 = true) : ((exSettleEnd k t n)).evt.flag j0 = true := by
  unfold exSettleEnd
  (repeat' split) <;> simp (maxDischargeDepth := 12) [hj0, exApply_flag, modEx_flag, modUi_flag, flag_foldl, flag_ite]

theorem exCtrlWrite_flag (k : Nat) (v : Word) (n : Node) (j0 : Nat) (hj0 : n.evt.flag j0 = true) : ((exCtrlWrite k v n)).evt.flag j0 = true := by
  unfold exCtrlWrite
  (repeat' split) <;> simp (maxDischargeDepth := 12) [hj0, exUpdate_flag, modEx_flag, flag_foldl, flag_ite]

theorem exRegOkChange_flag (k : Nat) (ok : Bool) (t : Nat) (n : Node) (j0 : Nat) (hj0 : n.evt.flag j0 = true) : ((exRegOkChange k ok t n)).evt.flag j0 = true := by
  unfold exRegOkChange
  (repeat' split) <;> simp (maxDischargeDepth := 12) [hj0, exUpdate_flag, modEx_flag, flag_foldl, flag_ite]

theorem exLimit_flag (k : Nat) (holds : Bool) (n : Node) (j0 : Nat) (hj0 : n.evt.flag j0 = true) : ((exLimit k holds n)).evt.flag j0 = true := by
  unfold exLimit
  (repeat' split) <;> simp (maxDischargeDepth := 12) [hj0, setEx_flag, raise_flag', flag_foldl, flag_ite]

theorem exSenseErr_flag (k : Nat) (holds : Bool) (n : Node) (j0 : Nat) (hj0 : n.evt.flag j0 = true) : ((exSenseErr k holds n)).evt.flag j0 = true := by
  unfold exSenseErr
  (repeat' split) <;> simp (maxDischargeDepth := 12) [hj0, setEx_flag, raise_flag', flag_foldl, flag_ite]

theorem exConvert_flag (k : Nat) (nv : Int) (t : Nat) (n : Node) (j0 : Nat) (hj0 : n.evt.flag j0 = true) : ((exConvert k nv t n)).evt.flag j0 = true := by
  unfold exConvert
  (repeat' split) <;> simp (maxDischargeDepth := 12) [hj0, complete_flag, setEx_flag, flag_foldl, flag_ite]

theorem exStart_flag (t : Nat) (n : Node) (j0 : Nat) : ((exStart t n)).evt.flag j0 = n.evt.flag j0 :=
  congrArg (fun e => Events.flag e j0) (exStart_get (pt := .evt) t n (by simp))

theorem exImage_flag (n : Node) (j0 : Nat) : ((exImage n)).evt.flag j0 = n.evt.flag j0 :=
  congrArg (fun e => Events.flag e j0) (exImage_get (pt := .evt) n (by simp))

theorem uiStatusClear_flag (c : Nat) (v : Word) (n : Node) (j0 : Nat) : ((uiStatusClear c v n)).evt.flag j0 = n.evt.flag j0 :=
  congrArg (fun e => Events.flag e j0) (uiStatusClear_get (pt := .evt) c v n (by simp))

theorem uiWrite_flag (c off : Nat) (v : Word) (n : Node) (j0 : Nat) : ((uiWrite c off v n)).evt.flag j0 = n.evt.flag j0 :=
  congrArg (fun e => Events.flag e j0) (uiWrite_get (pt := .evt) c off v n (by simp))

theorem exStatusClear_flag (k : Nat) (v : Word) (n : Node) (j0 : Nat) : ((exStatusClear k v n)).evt.flag j0 = n.evt.flag j0 :=
  congrArg (fun e => Events.flag e j0) (exStatusClear_get (pt := .evt) k v n (by simp))

theorem exWrite_flag (k off : Nat) (v : Word) (n : Node) (j0 : Nat) (hj0 : n.evt.flag j0 = true) : ((exWrite k off v n)).evt.flag j0 = true := by
  unfold exWrite
  (repeat' split) <;> simp (maxDischargeDepth := 12) [hj0, exCtrlWrite_flag, exStatusClear_flag, flag_foldl, flag_ite]

theorem roundStart_flag (b t : Nat) (n : Node) (j0 : Nat) : ((roundStart b t n)).evt.flag j0 = n.evt.flag j0 :=
  congrArg (fun e => Events.flag e j0) (roundStart_get (pt := .evt) b t n (by simp))

theorem setDis_flag (c v : Nat) (n : Node) (j0 : Nat) : ((setDis c v n)).evt.flag j0 = n.evt.flag j0 :=
  congrArg (fun e => Events.flag e j0) (setDis_get (pt := .evt) c v n (by simp))

theorem roundEnd_flag (b outcome : Nat) (val : Option Int) (t : Nat) (n : Node) (j0 : Nat) (hj0 : n.evt.flag j0 = true) : ((roundEnd b outcome val t n)).evt.flag j0 = true := by
  unfold roundEnd
  cases val
  · cases h : drawFree n with | mk v n1 =>
    have e : n1.evt.flag j0 = true := by
      have := drawFree_flag n j0
      rw [h] at this
      exact this.trans hj0
    simp (maxDischargeDepth := 12) (contextual := true) [hj0, complete_flag, drawFree_flag, setBc_flag, raise_flag', flag_foldl, flag_ite, e]
  · simp (maxDischargeDepth := 12) (contextual := true) [hj0, complete_flag, drawFree_flag, setBc_flag, raise_flag', flag_foldl, flag_ite]

theorem ownAgain_flag (c : Nat) (n : Node) (j0 : Nat) : ((ownAgain c n)).evt.flag j0 = n.evt.flag j0 :=
  congrArg (fun e => Events.flag e j0) (ownAgain_get (pt := .evt) c n (by simp))

theorem giveUp_flag (c : Nat) (n : Node) (j0 : Nat) : ((giveUp c n)).evt.flag j0 = n.evt.flag j0 :=
  congrArg (fun e => Events.flag e j0) (giveUp_get (pt := .evt) c n (by simp))

theorem detour_flag (c b : Nat) (rampNum : Int) (rampDen rampN : Nat) (n : Node) (j0 : Nat) (hj0 : n.evt.flag j0 = true) : ((detour c b rampNum rampDen rampN n)).evt.flag j0 = true := by
  unfold detour
  (repeat' split) <;> simp (maxDischargeDepth := 12) [hj0, giveUp_flag, modBc_flag, modUi_flag, recordDetour_flag, flag_foldl, flag_ite]

theorem disagreement_flag (b : Nat) (n : Node) (j0 : Nat) (hj0 : n.evt.flag j0 = true) : ((disagreement b n).1).evt.flag j0 = true := by
  unfold disagreement
  (repeat' split) <;> (try simp (maxDischargeDepth := 12) (contextual := true) [hj0, setBc_flag, setDis_flag, raise_flag', flag_foldl, flag_ite]) <;> (try intros) <;> (repeat' split) <;> (try simp_all (maxDischargeDepth := 12) (contextual := true) [hj0, setBc_flag, setDis_flag, raise_flag', flag_foldl, flag_ite])

theorem bcFail_flag (b : Nat) (n : Node) (j0 : Nat) (hj0 : n.evt.flag j0 = true) : ((bcFail b n)).evt.flag j0 = true := by
  unfold bcFail
  (repeat' split) <;> simp (maxDischargeDepth := 12) [hj0, modBc_flag, raise_flag', flag_foldl, flag_ite]

theorem takeover_flag (b loopR t : Nat) (n : Node) (j0 : Nat) (hj0 : n.evt.flag j0 = true) : ((takeover b loopR t n)).evt.flag j0 = true := by
  unfold takeover
  (repeat' split) <;> simp (maxDischargeDepth := 12) [hj0, bcFail_flag, detour_flag, disagreement_flag, modUi_flag, roundEnd_flag, setBc_flag, flag_foldl, flag_ite]

theorem referencesDone_flag (b : Nat) (m : RefMeas) (t : Nat) (n : Node) (j0 : Nat) (hj0 : n.evt.flag j0 = true) : ((referencesDone b m t n)).evt.flag j0 = true := by
  unfold referencesDone
  (repeat' split) <;> simp (maxDischargeDepth := 12) [hj0, detour_flag, roundEnd_flag, setBc_flag, flag_foldl, flag_ite]

theorem crossCheck_flag (b t : Nat) (n : Node) (j0 : Nat) (hj0 : n.evt.flag j0 = true) : ((crossCheck b t n)).evt.flag j0 = true := by
  unfold crossCheck
  have e := disagreement_flag b n j0 hj0
  cases h : disagreement b n with | mk n1 w =>
  rw [h] at e
  dsimp only at e ⊢
  (repeat' split) <;> simp (maxDischargeDepth := 12) (contextual := true) [hj0, bcFail_flag, detour_flag, disagreement_flag, modBc_flag, ownAgain_flag, roundEnd_flag, setBc_flag, setDis_flag, flag_foldl, flag_ite, e]

theorem handback_flag (b t : Nat) (n : Node) (j0 : Nat) (hj0 : n.evt.flag j0 = true) : ((handback b t n)).evt.flag j0 = true := by
  unfold handback
  (repeat' split) <;> (try simp (maxDischargeDepth := 12) (contextual := true) [hj0, modUi_flag, ownAgain_flag, roundEnd_flag, flag_foldl, flag_ite]) <;> (try intros) <;> (repeat' split) <;> (try simp_all (maxDischargeDepth := 12) (contextual := true) [hj0, modUi_flag, ownAgain_flag, roundEnd_flag, flag_foldl, flag_ite])

theorem uiFail_flag (c : Nat) (n : Node) (j0 : Nat) : ((uiFail c n)).evt.flag j0 = n.evt.flag j0 :=
  congrArg (fun e => Events.flag e j0) (uiFail_get (pt := .evt) c n (by simp))

theorem takeFailed_flag (c : Nat) (immediate : Bool) (t : Nat) (n : Node) (j0 : Nat) (hj0 : n.evt.flag j0 = true) : ((takeFailed c immediate t n)).evt.flag j0 = true := by
  unfold takeFailed
  dsimp only
  cases (giveUp c n).server (c / 16) with
  | none => simp [hj0, uiFail_flag, giveUp_flag]
  | some b => cases immediate <;> simp (maxDischargeDepth := 12) [hj0, detour_flag, giveUp_flag, modBc_flag, modUi_flag, roundAbandon_flag, flag_ite]

theorem bcSelfCal_flag (b : Nat) (m : RefMeas) (t : Nat) (n : Node) (j0 : Nat) (hj0 : n.evt.flag j0 = true) : ((bcSelfCal b m t n)).evt.flag j0 = true := by
  unfold bcSelfCal
  (repeat' split) <;> simp (maxDischargeDepth := 12) [hj0, bcFail_flag, roundsOf_flag, setBc_flag, takeFailed_flag, flag_foldl, flag_ite]

theorem converterFault_flag (c t : Nat) (n : Node) (j0 : Nat) (hj0 : n.evt.flag j0 = true) : ((converterFault c t n)).evt.flag j0 = true := by
  unfold converterFault
  (repeat' split) <;> simp (maxDischargeDepth := 12) [hj0, roundsOf_flag, takeFailed_flag, flag_foldl, flag_ite]

theorem initialCal_flag (m : CalMeas) (t : Nat) (n : Node) (j0 : Nat) (hj0 : n.evt.flag j0 = true) : ((initialCal m t n)).evt.flag j0 = true := by
  unfold initialCal
  refine flag_foldl _ _ _ _ (flag_foldl _ _ _ _ hj0 (fun m a hm => ?_)) (fun m a hm => ?_)
  · (repeat' split) <;> simp (maxDischargeDepth := 12) (contextual := true) [hj0, bcFail_flag, modBc_flag, modUi_flag, takeFailed_flag, flag_foldl, flag_ite, hm]
  · (repeat' split) <;> simp (maxDischargeDepth := 12) (contextual := true) [hj0, bcFail_flag, modBc_flag, modUi_flag, takeFailed_flag, flag_foldl, flag_ite, hm]

theorem restoreDetours_flag (n : Node) (j0 : Nat) : ((restoreDetours n)).evt.flag j0 = n.evt.flag j0 :=
  congrArg (fun e => Events.flag e j0) (restoreDetours_get (pt := .evt) n (by simp))

theorem markSuspect_flag (addr : Nat) (on : Bool) (n : Node) (j0 : Nat) : ((markSuspect addr on n)).evt.flag j0 = n.evt.flag j0 :=
  congrArg (fun e => Events.flag e j0) (markSuspect_get (pt := .evt) addr on n (by simp))

theorem pairTimer_flag (k t : Nat) (n : Node) (j0 : Nat) (hj0 : n.evt.flag j0 = true) : ((pairTimer k t n)).evt.flag j0 = true := by
  unfold pairTimer
  (repeat' split) <;> (try simp (maxDischargeDepth := 12) (contextual := true) [hj0, markSuspect_flag, raise_flag', flag_foldl, flag_ite]) <;> (try intros) <;> (repeat' split) <;> (try simp_all (maxDischargeDepth := 12) (contextual := true) [hj0, markSuspect_flag, raise_flag', flag_foldl, flag_ite])

theorem pairEval_flag (k t : Nat) (r : Bytes) (n : Node) (j0 : Nat) (hj0 : n.evt.flag j0 = true) : ((pairEval k t r n)).evt.flag j0 = true := by
  unfold pairEval
  (repeat' split) <;> simp (maxDischargeDepth := 12) [hj0, pairTimer_flag, flag_foldl, flag_ite]

theorem pairsOf_flag (addr t : Nat) (n : Node) (j0 : Nat) (hj0 : n.evt.flag j0 = true) : ((pairsOf addr t n)).evt.flag j0 = true := by
  unfold pairsOf
  (repeat' split) <;> (try simp (maxDischargeDepth := 12) (contextual := true) [hj0, pairEval_flag, flag_foldl, flag_ite]) <;> (try intros) <;> (repeat' split) <;> (try simp_all (maxDischargeDepth := 12) (contextual := true) [hj0, pairEval_flag, flag_foldl, flag_ite])

theorem triadDo_flag (k t : Nat) (n : Node) (j0 : Nat) (hj0 : n.evt.flag j0 = true) : ((triadDo k t n)).evt.flag j0 = true := by
  unfold triadDo
  (repeat' split) <;> simp (maxDischargeDepth := 12) [hj0, complete_flag, raiseIf_flag, flag_foldl, flag_ite]

theorem triadTick_flag (t : Nat) (n : Node) (j0 : Nat) (hj0 : n.evt.flag j0 = true) : ((triadTick t n)).evt.flag j0 = true := by
  unfold triadTick
  (repeat' split) <;> (try simp (maxDischargeDepth := 12) (contextual := true) [hj0, triadDo_flag, flag_foldl, flag_ite]) <;> (try intros) <;> (repeat' split) <;> (try simp_all (maxDischargeDepth := 12) (contextual := true) [hj0, triadDo_flag, flag_foldl, flag_ite])

theorem rndParamWrite_flag (v : Word) (n : Node) (j0 : Nat) : ((rndParamWrite v n)).evt.flag j0 = n.evt.flag j0 :=
  congrArg (fun e => Events.flag e j0) (rndParamWrite_get (pt := .evt) v n (by simp))

theorem calApply_flag (n : Node) (j0 : Nat) : ((calApply n)).evt.flag j0 = n.evt.flag j0 :=
  congrArg (fun e => Events.flag e j0) (calApply_get (pt := .evt) n (by simp))

theorem setCa_flag (c : Nat) (u : CaChan) (n : Node) (j0 : Nat) : ((setCa c u n)).evt.flag j0 = n.evt.flag j0 :=
  congrArg (fun e => Events.flag e j0) (setCa_get (pt := .evt) c u n (by simp))

theorem modCa_flag (c : Nat) (f : CaChan → CaChan) (n : Node) (j0 : Nat) : ((modCa c f n)).evt.flag j0 = n.evt.flag j0 :=
  congrArg (fun e => Events.flag e j0) (modCa_get (pt := .evt) c f n (by simp))

theorem caCheckReset_flag (c : Nat) (n : Node) (j0 : Nat) (hj0 : n.evt.flag j0 = true) : ((caCheckReset c n)).evt.flag j0 = true := by
  unfold caCheckReset
  (repeat' split) <;> simp (maxDischargeDepth := 12) [hj0, raiseIf_flag, setCa_flag, flag_foldl, flag_ite]

theorem caBegin_flag (c t : Nat) (n : Node) (j0 : Nat) (hj0 : n.evt.flag j0 = true) : ((caBegin c t n)).evt.flag j0 = true := by
  unfold caBegin
  (repeat' split) <;> simp (maxDischargeDepth := 12) [hj0, raiseIf_flag, setCa_flag, flag_foldl, flag_ite]

theorem caTrigger_flag (c t : Nat) (n : Node) (j0 : Nat) (hj0 : n.evt.flag j0 = true) : ((caTrigger c t n)).evt.flag j0 = true := by
  unfold caTrigger
  (repeat' split) <;> (try simp (maxDischargeDepth := 12) (contextual := true) [hj0, caBegin_flag, modCa_flag, raiseIf_flag, setCa_flag, flag_foldl, flag_ite]) <;> (try intros) <;> (repeat' split) <;> (try simp_all (maxDischargeDepth := 12) (contextual := true) [hj0, caBegin_flag, modCa_flag, raiseIf_flag, setCa_flag, flag_foldl, flag_ite])

theorem caConvEnd_flag (c : Nat) (q : Int) (n : Node) (j0 : Nat) (hj0 : n.evt.flag j0 = true) : ((caConvEnd c q n)).evt.flag j0 = true := by
  unfold caConvEnd
  dsimp only
  cases (n.caC c).conv with
  | none => exact hj0
  | some v => cases hon : n.caOn c <;> simp (maxDischargeDepth := 12) [hj0, hon, caCheckReset_flag, raiseIf_flag, setCa_flag]

theorem caResetOpen_flag (c t : Nat) (n : Node) (j0 : Nat) (hj0 : n.evt.flag j0 = true) : ((caResetOpen c t n)).evt.flag j0 = true := by
  unfold caResetOpen
  (repeat' split) <;> simp (maxDischargeDepth := 12) [hj0, caCheckReset_flag, setCa_flag, flag_foldl, flag_ite]

theorem caAbandon_flag (c : Nat) (n : Node) (j0 : Nat) : ((caAbandon c n)).evt.flag j0 = n.evt.flag j0 :=
  congrArg (fun e => Events.flag e j0) (caAbandon_get (pt := .evt) c n (by simp))

theorem caAction_flag (c : Nat) (a : CaAct) (t : Nat) (n : Node) (j0 : Nat) (hj0 : n.evt.flag j0 = true) : ((caAction c a t n)).evt.flag j0 = true := by
  unfold caAction
  dsimp only
  (repeat' split) <;> (try split) <;> simp (maxDischargeDepth := 12) (contextual := true) [hj0, raiseIf_flag, setCa_flag, flag_foldl, flag_ite]

theorem caCrank_flag (pf cpr cnt : Nat) (up : Bool) (phase : Nat → Bool) (n : Node) (j0 : Nat) : ((caCrank pf cpr cnt up phase n)).evt.flag j0 = n.evt.flag j0 :=
  congrArg (fun e => Events.flag e j0) (caCrank_get (pt := .evt) pf cpr cnt up phase n (by simp))

theorem caIndex_flag (pf : Nat) (n : Node) (j0 : Nat) : ((caIndex pf n)).evt.flag j0 = n.evt.flag j0 :=
  congrArg (fun e => Events.flag e j0) (caIndex_get (pt := .evt) pf n (by simp))

theorem caAbandonAll_flag (pf : Nat) (n : Node) (j0 : Nat) : ((caAbandonAll pf n)).evt.flag j0 = n.evt.flag j0 :=
  congrArg (fun e => Events.flag e j0) (caAbandonAll_get (pt := .evt) pf n (by simp))

theorem caRecord_flag (c t : Nat) (n : Node) (j0 : Nat) (hj0 : n.evt.flag j0 = true) : ((caRecord c t n)).evt.flag j0 = true := by
  have hv : ∀ (l : List (Option Int)) (m : Node), (caValues l m).2.evt.flag j0 = m.evt.flag j0 := by
    intro l
    induction l with
    | nil => intro m; rfl
    | cons v l ih =>
      intro m
      cases v with
      | some v => exact ih m
      | none => exact (ih _).trans (drawFree_flag m j0)
  unfold caRecord
  dsimp only
  split
  · exact hj0
  split
  · exact hj0
  split
  · exact (setCa_flag _ _ _ _).trans hj0
  · exact raise_flag' _ _ _ ((setCa_flag _ _ _ _).trans (complete_flag _ _ _ _ _ _ ((hv _ _).trans hj0)))

theorem caCtrlWrite_flag (c : Nat) (v : Word) (n : Node) (j0 : Nat) : ((caCtrlWrite c v n)).evt.flag j0 = n.evt.flag j0 :=
  congrArg (fun e => Events.flag e j0) (caCtrlWrite_get (pt := .evt) c v n (by simp))

theorem caBufOpen_flag (p : HostPort) (c : Nat) (n : Node) (j0 : Nat) : ((caBufOpen p c n)).evt.flag j0 = n.evt.flag j0 :=
  congrArg (fun e => Events.flag e j0) (caBufOpen_get (pt := .evt) p c n (by simp))

theorem caBufRelease_flag (p : HostPort) (c : Nat) (n : Node) (j0 : Nat) : ((caBufRelease p c n)).evt.flag j0 = n.evt.flag j0 :=
  congrArg (fun e => Events.flag e j0) (caBufRelease_get (pt := .evt) p c n (by simp))

theorem caBufCtrl_flag (p : HostPort) (c : Nat) (v : Word) (n : Node) (j0 : Nat) : ((caBufCtrl p c v n)).evt.flag j0 = n.evt.flag j0 :=
  congrArg (fun e => Events.flag e j0) (caBufCtrl_get (pt := .evt) p c v n (by simp))

theorem caBufData_flag (p : HostPort) (c : Nat) (n : Node) (j0 : Nat) : ((caBufData p c n).2.2).evt.flag j0 = n.evt.flag j0 :=
  congrArg (fun e => Events.flag e j0) (caBufData_get (pt := .evt) p c n (by simp))

theorem caHoldTimeout_flag (p : HostPort) (c t : Nat) (n : Node) (j0 : Nat) : ((caHoldTimeout p c t n)).evt.flag j0 = n.evt.flag j0 :=
  congrArg (fun e => Events.flag e j0) (caHoldTimeout_get (pt := .evt) p c t n (by simp))

theorem caApply_flag (n : Node) (j0 : Nat) : ((caApply n)).evt.flag j0 = n.evt.flag j0 :=
  congrArg (fun e => Events.flag e j0) (caApply_get (pt := .evt) n (by simp))

theorem caStart_flag (t : Nat) (n : Node) (j0 : Nat) : ((caStart t n)).evt.flag j0 = n.evt.flag j0 :=
  congrArg (fun e => Events.flag e j0) (caStart_get (pt := .evt) t n (by simp))

theorem caRole_flag (n : Node) (j0 : Nat) : ((caRole n)).evt.flag j0 = n.evt.flag j0 :=
  congrArg (fun e => Events.flag e j0) (caRole_get (pt := .evt) n (by simp))

theorem caStop_flag (n : Node) (j0 : Nat) : ((caStop n)).evt.flag j0 = n.evt.flag j0 :=
  congrArg (fun e => Events.flag e j0) (caStop_get (pt := .evt) n (by simp))

theorem caStatusClear_flag (c : Nat) (v : Word) (n : Node) (j0 : Nat) : ((caStatusClear c v n)).evt.flag j0 = n.evt.flag j0 :=
  congrArg (fun e => Events.flag e j0) (caStatusClear_get (pt := .evt) c v n (by simp))

theorem caWrite_flag (p : HostPort) (c off : Nat) (v : Word) (n : Node) (j0 : Nat) : ((caWrite p c off v n)).evt.flag j0 = n.evt.flag j0 :=
  congrArg (fun e => Events.flag e j0) (caWrite_get (pt := .evt) p c off v n (by simp))

theorem setLo_flag (k : Nat) (u : LoChan) (n : Node) (j0 : Nat) : ((setLo k u n)).evt.flag j0 = n.evt.flag j0 :=
  congrArg (fun e => Events.flag e j0) (setLo_get (pt := .evt) k u n (by simp))

theorem modLo_flag (k : Nat) (f : LoChan → LoChan) (n : Node) (j0 : Nat) : ((modLo k f n)).evt.flag j0 = n.evt.flag j0 :=
  congrArg (fun e => Events.flag e j0) (modLo_get (pt := .evt) k f n (by simp))

theorem setPo_flag (k : Nat) (u : PoChan) (n : Node) (j0 : Nat) : ((setPo k u n)).evt.flag j0 = n.evt.flag j0 :=
  congrArg (fun e => Events.flag e j0) (setPo_get (pt := .evt) k u n (by simp))

theorem modPo_flag (k : Nat) (f : PoChan → PoChan) (n : Node) (j0 : Nat) : ((modPo k f n)).evt.flag j0 = n.evt.flag j0 :=
  congrArg (fun e => Events.flag e j0) (modPo_get (pt := .evt) k f n (by simp))

theorem setHm_flag (m : Nat) (u : HartM) (n : Node) (j0 : Nat) : ((setHm m u n)).evt.flag j0 = n.evt.flag j0 :=
  congrArg (fun e => Events.flag e j0) (setHm_get (pt := .evt) m u n (by simp))

theorem modHm_flag (m : Nat) (f : HartM → HartM) (n : Node) (j0 : Nat) : ((modHm m f n)).evt.flag j0 = n.evt.flag j0 :=
  congrArg (fun e => Events.flag e j0) (modHm_get (pt := .evt) m f n (by simp))

theorem loUpdate_flag (k : Nat) (n : Node) (j0 : Nat) : ((loUpdate k n)).evt.flag j0 = n.evt.flag j0 :=
  congrArg (fun e => Events.flag e j0) (loUpdate_get (pt := .evt) k n (by simp))

theorem loDemandWrite_flag (k : Nat) (v : Word) (n : Node) (j0 : Nat) : ((loDemandWrite k v n)).evt.flag j0 = n.evt.flag j0 :=
  congrArg (fun e => Events.flag e j0) (loDemandWrite_get (pt := .evt) k v n (by simp))

theorem loLane_flag (k : Nat) (ppm : Int) (off : Bool) (n : Node) (j0 : Nat) : ((loLane k ppm off n)).evt.flag j0 = n.evt.flag j0 :=
  congrArg (fun e => Events.flag e j0) (loLane_get (pt := .evt) k ppm off n (by simp))

theorem loFollow_flag (addr : Nat) (n : Node) (j0 : Nat) : ((loFollow addr n)).evt.flag j0 = n.evt.flag j0 :=
  congrArg (fun e => Events.flag e j0) (loFollow_get (pt := .evt) addr n (by simp))

theorem loReadback_flag (k : Nat) (mean : Int) (comm : Bool) (t : Nat) (n : Node) (j0 : Nat) (hj0 : n.evt.flag j0 = true) : ((loReadback k mean comm t n)).evt.flag j0 = true := by
  unfold loReadback
  (repeat' split) <;> simp (maxDischargeDepth := 12) [hj0, complete_flag, raiseIf_flag, setLo_flag, flag_foldl, flag_ite]

theorem loFieldLoss_flag (k : Nat) (lost : Bool) (n : Node) (j0 : Nat) (hj0 : n.evt.flag j0 = true) : ((loFieldLoss k lost n)).evt.flag j0 = true := by
  unfold loFieldLoss
  (repeat' split) <;> simp (maxDischargeDepth := 12) [hj0, raiseIf_flag, setLo_flag, flag_foldl, flag_ite]

theorem mwSet_flag (ch : Nat) (n : Node) (j0 : Nat) (hj0 : n.evt.flag j0 = true) : ((mwSet ch n)).evt.flag j0 = true := by
  unfold mwSet
  (repeat' split) <;> simp (maxDischargeDepth := 12) [hj0, raise_flag', flag_foldl, flag_ite]

theorem mwClear_flag (ch : Nat) (n : Node) (j0 : Nat) : ((mwClear ch n)).evt.flag j0 = n.evt.flag j0 :=
  congrArg (fun e => Events.flag e j0) (mwClear_get (pt := .evt) ch n (by simp))

theorem mwEffect_flag (ch t : Nat) (n : Node) (j0 : Nat) (hj0 : n.evt.flag j0 = true) : ((mwEffect ch t n)).evt.flag j0 = true := by
  unfold mwEffect
  (repeat' split) <;> simp (maxDischargeDepth := 12) [hj0, exRequest_flag, modCa_flag, modEx_flag, modLo_flag, modUi_flag, roundsOf_flag, flag_foldl, flag_ite]

theorem mwRestore_flag (ch t : Nat) (n : Node) (j0 : Nat) (hj0 : n.evt.flag j0 = true) : ((mwRestore ch t n)).evt.flag j0 = true := by
  unfold mwRestore
  (repeat' split) <;> simp (maxDischargeDepth := 12) [hj0, exUpdate_flag, loUpdate_flag, modLo_flag, modUi_flag, flag_foldl, flag_ite]

theorem uiMiswired_flag (c t : Nat) (n : Node) (j0 : Nat) (hj0 : n.evt.flag j0 = true) : ((uiMiswired c t n)).evt.flag j0 = true := by
  unfold uiMiswired
  (repeat' split) <;> simp (maxDischargeDepth := 12) [hj0, complete_flag, setUi_flag, flag_foldl, flag_ite]

theorem hartVar_flag (m t : Nat) (devStat : Byte) (n : Node) (x : Nat × Word × Option Nat) (j0 : Nat) (hj0 : n.evt.flag j0 = true) : ((hartVar m t devStat n x)).evt.flag j0 = true := by
  unfold hartVar
  (repeat' split) <;> simp (maxDischargeDepth := 12) [hj0, complete_flag, flag_foldl, flag_ite]

theorem hartSend_flag (m a cmd : Nat) (long : Bool) (data : Bytes) (u : HartM) (n : Node) (j0 : Nat) : ((hartSend m a cmd long data u n)).evt.flag j0 = n.evt.flag j0 :=
  congrArg (fun e => Events.flag e j0) (hartSend_get (pt := .evt) m a cmd long data u n (by simp))

theorem hartNext_flag (m : Nat) (n : Node) (j0 : Nat) : ((hartNext m n)).evt.flag j0 = n.evt.flag j0 :=
  congrArg (fun e => Events.flag e j0) (hartNext_get (pt := .evt) m n (by simp))

theorem hartDue_flag (v : Nat) (n : Node) (j0 : Nat) : ((hartDue v n)).evt.flag j0 = n.evt.flag j0 :=
  congrArg (fun e => Events.flag e j0) (hartDue_get (pt := .evt) v n (by simp))

theorem netAck_flag (ch code : Nat) (n : Node) (j0 : Nat) (hj0 : n.evt.flag j0 = true) : ((netAck ch code n)).evt.flag j0 = true := by
  unfold netAck
  (repeat' split) <;> simp (maxDischargeDepth := 12) [hj0, mbAck_flag, flag_foldl, flag_ite]

theorem hartPassEnd_flag (m code : Nat) (resp : Option HartResp) (n : Node) (j0 : Nat) (hj0 : n.evt.flag j0 = true) : ((hartPassEnd m code resp n)).evt.flag j0 = true := by
  unfold hartPassEnd
  (repeat' split) <;> (try simp (maxDischargeDepth := 12) (contextual := true) [hj0, mbPostMsg_flag, netAck_flag, raiseIf_flag, setHm_flag, raise_flag', flag_foldl, flag_ite]) <;> (try intros) <;> (repeat' split) <;> (try simp_all (maxDischargeDepth := 12) (contextual := true) [hj0, mbPostMsg_flag, netAck_flag, raiseIf_flag, setHm_flag, raise_flag', flag_foldl, flag_ite])

theorem hartFail_flag (m : Nat) (noResp : Bool) (n : Node) (j0 : Nat) (hj0 : n.evt.flag j0 = true) : ((hartFail m noResp n)).evt.flag j0 = true := by
  unfold hartFail
  (repeat' split) <;> (try simp (maxDischargeDepth := 12) (contextual := true) [hj0, hartPassEnd_flag, raiseIf_flag, setHm_flag, raise_flag', flag_foldl, flag_ite]) <;> (try intros) <;> (repeat' split) <;> (try simp_all (maxDischargeDepth := 12) (contextual := true) [hj0, hartPassEnd_flag, raiseIf_flag, setHm_flag, raise_flag', flag_foldl, flag_ite])

theorem hartComplete_flag (m : Nat) (resp : HartResp) (t : Nat) (n : Node) (j0 : Nat) (hj0 : n.evt.flag j0 = true) : ((hartComplete m resp t n)).evt.flag j0 = true := by
  unfold hartComplete
  (repeat' split) <;> (try simp (maxDischargeDepth := 12) (contextual := true) [hj0, hartFail_flag, hartNext_flag, hartPassEnd_flag, hartVar_flag, modHm_flag, setHm_flag, flag_foldl, flag_ite]) <;> (try intros) <;> (repeat' split) <;> (try simp_all (maxDischargeDepth := 12) (contextual := true) [hj0, hartFail_flag, hartNext_flag, hartPassEnd_flag, hartVar_flag, modHm_flag, setHm_flag, flag_foldl, flag_ite])

theorem hartNoResp_flag (m : Nat) (n : Node) (j0 : Nat) (hj0 : n.evt.flag j0 = true) : ((hartNoResp m n)).evt.flag j0 = true := by
  unfold hartNoResp
  (repeat' split) <;> simp (maxDischargeDepth := 12) [hj0, hartFail_flag, hartNext_flag, flag_foldl, flag_ite]

theorem hartPassReq_flag (ch : Nat) (n : Node) (j0 : Nat) (hj0 : n.evt.flag j0 = true) : ((hartPassReq ch n)).evt.flag j0 = true := by
  unfold hartPassReq
  (repeat' split) <;> simp (maxDischargeDepth := 12) [hj0, hartNext_flag, modHm_flag, netAck_flag, flag_foldl, flag_ite]

theorem hmStatusClear_flag (m : Nat) (v : Word) (n : Node) (j0 : Nat) : ((hmStatusClear m v n)).evt.flag j0 = n.evt.flag j0 :=
  congrArg (fun e => Events.flag e j0) (hmStatusClear_get (pt := .evt) m v n (by simp))

theorem poUpdate_flag (k : Nat) (n : Node) (j0 : Nat) (hj0 : n.evt.flag j0 = true) : ((poUpdate k n)).evt.flag j0 = true := by
  unfold poUpdate
  (repeat' split) <;> simp (maxDischargeDepth := 12) [hj0, modPo_flag, raiseIf_flag, setPo_flag, flag_foldl, flag_ite]

theorem poTake_flag (k : Nat) (n : Node) (j0 : Nat) (hj0 : n.evt.flag j0 = true) : ((poTake k n)).evt.flag j0 = true := by
  unfold poTake
  (repeat' split) <;> simp (maxDischargeDepth := 12) [hj0, modPo_flag, poUpdate_flag, flag_foldl, flag_ite]

theorem poBoundary_flag (k : Nat) (n : Node) (j0 : Nat) (hj0 : n.evt.flag j0 = true) : ((poBoundary k n)).evt.flag j0 = true := by
  unfold poBoundary
  (repeat' split) <;> simp (maxDischargeDepth := 12) [hj0, poTake_flag, flag_foldl, flag_ite]

theorem poFine_flag (n : Node) (j0 : Nat) (hj0 : n.evt.flag j0 = true) : ((poFine n)).evt.flag j0 = true := by
  unfold poFine
  refine flag_foldl _ _ _ _ hj0 (fun m a hm => ?_)
  dsimp only
  (repeat' split) <;> simp (maxDischargeDepth := 12) (contextual := true) [hj0, poTake_flag, flag_foldl, flag_ite, hm]

theorem poPulse_flag (k t : Nat) (n : Node) (j0 : Nat) : ((poPulse k t n)).evt.flag j0 = n.evt.flag j0 :=
  congrArg (fun e => Events.flag e j0) (poPulse_get (pt := .evt) k t n (by simp))

theorem poPulseEnd_flag (k t : Nat) (n : Node) (j0 : Nat) : ((poPulseEnd k t n)).evt.flag j0 = n.evt.flag j0 :=
  congrArg (fun e => Events.flag e j0) (poPulseEnd_get (pt := .evt) k t n (by simp))

theorem poSetWrite_flag (k : Nat) (v : Word) (n : Node) (j0 : Nat) (hj0 : n.evt.flag j0 = true) : ((poSetWrite k v n)).evt.flag j0 = true := by
  unfold poSetWrite
  (repeat' split) <;> simp (maxDischargeDepth := 12) [hj0, modPo_flag, poUpdate_flag, flag_foldl, flag_ite]

theorem poLane_flag (k : Nat) (ppm : Int) (off : Bool) (n : Node) (j0 : Nat) (hj0 : n.evt.flag j0 = true) : ((poLane k ppm off n)).evt.flag j0 = true := by
  unfold poLane
  (repeat' split) <;> simp (maxDischargeDepth := 12) [hj0, modPo_flag, poUpdate_flag, flag_foldl, flag_ite]

theorem poFollow_flag (addr : Nat) (n : Node) (j0 : Nat) (hj0 : n.evt.flag j0 = true) : ((poFollow addr n)).evt.flag j0 = true := by
  unfold poFollow
  (repeat' split) <;> (try simp (maxDischargeDepth := 12) (contextual := true) [hj0, poUpdate_flag, flag_foldl, flag_ite]) <;> (try intros) <;> (repeat' split) <;> (try simp_all (maxDischargeDepth := 12) (contextual := true) [hj0, poUpdate_flag, flag_foldl, flag_ite])

theorem srcSync_flag (n : Node) (j0 : Nat) (hj0 : n.evt.flag j0 = true) : ((srcSync n)).evt.flag j0 = true := by
  unfold srcSync
  refine flag_foldl _ _ _ _ (flag_foldl _ _ _ _ hj0 (fun m a hm => ?_)) (fun m a hm => ?_)
  · split <;> simp (maxDischargeDepth := 12) (contextual := true) [hj0, loUpdate_flag, poUpdate_flag, flag_foldl, flag_ite, hm]
  · split <;> simp (maxDischargeDepth := 12) (contextual := true) [hj0, loUpdate_flag, poUpdate_flag, flag_foldl, flag_ite, hm]

theorem loHoldCommit_flag (n : Node) (j0 : Nat) : ((loHoldCommit n)).evt.flag j0 = n.evt.flag j0 :=
  congrArg (fun e => Events.flag e j0) (loHoldCommit_get (pt := .evt) n (by simp))

theorem loRunEntry_flag (n : Node) (j0 : Nat) (hj0 : n.evt.flag j0 = true) : ((loRunEntry n)).evt.flag j0 = true := by
  unfold loRunEntry
  (repeat' split) <;> (try simp (maxDischargeDepth := 12) (contextual := true) [hj0, loUpdate_flag, poTake_flag, flag_foldl, flag_ite]) <;> (try intros) <;> (repeat' split) <;> (try simp_all (maxDischargeDepth := 12) (contextual := true) [hj0, loUpdate_flag, poTake_flag, flag_foldl, flag_ite])

theorem loSafeEntry_flag (n : Node) (j0 : Nat) : ((loSafeEntry n)).evt.flag j0 = n.evt.flag j0 :=
  congrArg (fun e => Events.flag e j0) (loSafeEntry_get (pt := .evt) n (by simp))

theorem loApply_flag (n : Node) (j0 : Nat) : ((loApply n)).evt.flag j0 = n.evt.flag j0 :=
  congrArg (fun e => Events.flag e j0) (loApply_get (pt := .evt) n (by simp))

theorem loStatusClear_flag (k : Nat) (v : Word) (n : Node) (j0 : Nat) : ((loStatusClear k v n)).evt.flag j0 = n.evt.flag j0 :=
  congrArg (fun e => Events.flag e j0) (loStatusClear_get (pt := .evt) k v n (by simp))

theorem loWrite_flag (k off : Nat) (v : Word) (n : Node) (j0 : Nat) : ((loWrite k off v n)).evt.flag j0 = n.evt.flag j0 :=
  congrArg (fun e => Events.flag e j0) (loWrite_get (pt := .evt) k off v n (by simp))

theorem poStatusClear_flag (k : Nat) (v : Word) (n : Node) (j0 : Nat) : ((poStatusClear k v n)).evt.flag j0 = n.evt.flag j0 :=
  congrArg (fun e => Events.flag e j0) (poStatusClear_get (pt := .evt) k v n (by simp))

theorem poWrite_flag (k off : Nat) (v : Word) (n : Node) (j0 : Nat) (hj0 : n.evt.flag j0 = true) : ((poWrite k off v n)).evt.flag j0 = true := by
  unfold poWrite
  (repeat' split) <;> simp (maxDischargeDepth := 12) [hj0, poSetWrite_flag, poStatusClear_flag, flag_foldl, flag_ite]

theorem mwFlgWrite_flag (m : Nat) (v : Word) (n : Node) (j0 : Nat) : ((mwFlgWrite m v n)).evt.flag j0 = n.evt.flag j0 :=
  congrArg (fun e => Events.flag e j0) (mwFlgWrite_get (pt := .evt) m v n (by simp))

theorem setDi_flag (k : Nat) (u : DiChan) (n : Node) (j0 : Nat) : ((setDi k u n)).evt.flag j0 = n.evt.flag j0 :=
  congrArg (fun e => Events.flag e j0) (setDi_get (pt := .evt) k u n (by simp))

theorem setSs_flag (k : Nat) (u : SsChan) (n : Node) (j0 : Nat) : ((setSs k u n)).evt.flag j0 = n.evt.flag j0 :=
  congrArg (fun e => Events.flag e j0) (setSs_get (pt := .evt) k u n (by simp))

theorem setDo_flag (k : Nat) (u : DoChan) (n : Node) (j0 : Nat) : ((setDo k u n)).evt.flag j0 = n.evt.flag j0 :=
  congrArg (fun e => Events.flag e j0) (setDo_get (pt := .evt) k u n (by simp))

theorem modDo_flag (k : Nat) (f : DoChan → DoChan) (n : Node) (j0 : Nat) : ((modDo k f n)).evt.flag j0 = n.evt.flag j0 :=
  congrArg (fun e => Events.flag e j0) (modDo_get (pt := .evt) k f n (by simp))

theorem ssOverload_flag (s t : Nat) (n : Node) (j0 : Nat) (hj0 : n.evt.flag j0 = true) : ((ssOverload s t n)).evt.flag j0 = true := by
  unfold ssOverload
  (repeat' split) <;> simp (maxDischargeDepth := 12) [hj0, setSs_flag, raise_flag', flag_foldl, flag_ite]

theorem ssRetry_flag (s : Nat) (ok : Bool) (t : Nat) (n : Node) (j0 : Nat) : ((ssRetry s ok t n)).evt.flag j0 = n.evt.flag j0 :=
  congrArg (fun e => Events.flag e j0) (ssRetry_get (pt := .evt) s ok t n (by simp))

theorem ssCtrlWrite_flag (s : Nat) (v : Word) (n : Node) (j0 : Nat) : ((ssCtrlWrite s v n)).evt.flag j0 = n.evt.flag j0 :=
  congrArg (fun e => Events.flag e j0) (ssCtrlWrite_get (pt := .evt) s v n (by simp))

theorem ssInit_flag (n : Node) (j0 : Nat) : ((ssInit n)).evt.flag j0 = n.evt.flag j0 :=
  congrArg (fun e => Events.flag e j0) (ssInit_get (pt := .evt) n (by simp))

theorem diAccept_flag (k : Nat) (lvl : Bool) (t : Nat) (n : Node) (j0 : Nat) (hj0 : n.evt.flag j0 = true) : ((diAccept k lvl t n)).evt.flag j0 = true := by
  unfold diAccept
  (repeat' split) <;> simp (maxDischargeDepth := 12) [hj0, raiseIf_flag, recOcc_flag, setDi_flag, flag_foldl, flag_ite]

theorem diOpenWire_flag (k : Nat) (opn : Bool) (n : Node) (j0 : Nat) (hj0 : n.evt.flag j0 = true) : ((diOpenWire k opn n)).evt.flag j0 = true := by
  unfold diOpenWire
  (repeat' split) <;> simp (maxDischargeDepth := 12) [hj0, raiseIf_flag, setDi_flag, flag_foldl, flag_ite]

theorem diOt_flag (g : Nat) (on : Bool) (n : Node) (j0 : Nat) : ((diOt g on n)).evt.flag j0 = n.evt.flag j0 :=
  congrArg (fun e => Events.flag e j0) (diOt_get (pt := .evt) g on n (by simp))

theorem diRecord_flag (t : Nat) (n : Node) (g : Nat) (j0 : Nat) (hj0 : n.evt.flag j0 = true) : ((diRecord t n g)).evt.flag j0 = true := by
  unfold diRecord
  (repeat' split) <;> simp (maxDischargeDepth := 12) [hj0, complete_flag, flag_foldl, flag_ite]

theorem diSync_flag (n : Node) (j0 : Nat) : ((diSync n)).evt.flag j0 = n.evt.flag j0 :=
  congrArg (fun e => Events.flag e j0) (diSync_get (pt := .evt) n (by simp))

theorem setCmp_flag (t : Nat) (b : Bool) (n : Node) (j0 : Nat) : ((setCmp t b n)).evt.flag j0 = n.evt.flag j0 :=
  congrArg (fun e => Events.flag e j0) (setCmp_get (pt := .evt) t b n (by simp))

theorem ilUi_flag (c : Nat) (x : Int) (n : Node) (j0 : Nat) : ((ilUi c x n)).evt.flag j0 = n.evt.flag j0 :=
  congrArg (fun e => Events.flag e j0) (ilUi_get (pt := .evt) c x n (by simp))

theorem ilCa_flag (c : Nat) (x : Int) (n : Node) (j0 : Nat) : ((ilCa c x n)).evt.flag j0 = n.evt.flag j0 :=
  congrArg (fun e => Events.flag e j0) (ilCa_get (pt := .evt) c x n (by simp))

theorem ilTerm_flag (n : Node) (r : Bytes) (j0 : Nat) (hj0 : n.evt.flag j0 = true) : ((ilTerm n r)).evt.flag j0 = true := by
  unfold ilTerm
  (repeat' split) <;> simp (maxDischargeDepth := 12) [hj0, recNote_flag, raise_flag', flag_foldl, flag_ite]

theorem ilEval_flag (n : Node) (j0 : Nat) (hj0 : n.evt.flag j0 = true) : ((ilEval n)).evt.flag j0 = true := by
  unfold ilEval
  (repeat' split) <;> (try simp (maxDischargeDepth := 12) (contextual := true) [hj0, ilTerm_flag, setCmp_flag, flag_foldl, flag_ite]) <;> (try intros) <;> (repeat' split) <;> (try simp_all (maxDischargeDepth := 12) (contextual := true) [hj0, ilTerm_flag, setCmp_flag, flag_foldl, flag_ite])

theorem ilResetWrite_flag (v : Word) (n : Node) (j0 : Nat) : ((ilResetWrite v n)).evt.flag j0 = n.evt.flag j0 :=
  congrArg (fun e => Events.flag e j0) (ilResetWrite_get (pt := .evt) v n (by simp))

theorem ilApply_flag (n : Node) (j0 : Nat) : ((ilApply n)).evt.flag j0 = n.evt.flag j0 :=
  congrArg (fun e => Events.flag e j0) (ilApply_get (pt := .evt) n (by simp))

theorem doRecord_flag (t : Nat) (n : Node) (f : Nat) (j0 : Nat) (hj0 : n.evt.flag j0 = true) : ((doRecord t n f)).evt.flag j0 = true := by
  unfold doRecord
  (repeat' split) <;> simp (maxDischargeDepth := 12) [hj0, complete_flag, flag_foldl, flag_ite]

theorem doStep_flag (n : Node) (k : Nat) (j0 : Nat) : ((doStep n k)).evt.flag j0 = n.evt.flag j0 :=
  congrArg (fun e => Events.flag e j0) (doStep_get (pt := .evt) n k (by simp))

theorem doSync_flag (n : Node) (j0 : Nat) : ((doSync n)).evt.flag j0 = n.evt.flag j0 :=
  congrArg (fun e => Events.flag e j0) (doSync_get (pt := .evt) n (by simp))

theorem doCmdWrite_flag (k : Nat) (on : Bool) (n : Node) (j0 : Nat) : ((doCmdWrite k on n)).evt.flag j0 = n.evt.flag j0 :=
  congrArg (fun e => Events.flag e j0) (doCmdWrite_get (pt := .evt) k on n (by simp))

theorem tpStart_flag (k t : Nat) (n : Node) (j0 : Nat) : ((tpStart k t n)).evt.flag j0 = n.evt.flag j0 :=
  congrArg (fun e => Events.flag e j0) (tpStart_get (pt := .evt) k t n (by simp))

theorem tpOffEdge_flag (k t : Nat) (n : Node) (j0 : Nat) : ((tpOffEdge k t n)).evt.flag j0 = n.evt.flag j0 :=
  congrArg (fun e => Events.flag e j0) (tpOffEdge_get (pt := .evt) k t n (by simp))

theorem tpRunEntry_flag (t : Nat) (n : Node) (j0 : Nat) : ((tpRunEntry t n)).evt.flag j0 = n.evt.flag j0 :=
  congrArg (fun e => Events.flag e j0) (tpRunEntry_get (pt := .evt) t n (by simp))

theorem doLane_flag (k : Nat) (ppm : Int) (off : Bool) (n : Node) (j0 : Nat) : ((doLane k ppm off n)).evt.flag j0 = n.evt.flag j0 :=
  congrArg (fun e => Events.flag e j0) (doLane_get (pt := .evt) k ppm off n (by simp))

theorem doHoldCommit_flag (n : Node) (j0 : Nat) : ((doHoldCommit n)).evt.flag j0 = n.evt.flag j0 :=
  congrArg (fun e => Events.flag e j0) (doHoldCommit_get (pt := .evt) n (by simp))

theorem doPulse_flag (k t : Nat) (n : Node) (j0 : Nat) : ((doPulse k t n)).evt.flag j0 = n.evt.flag j0 :=
  congrArg (fun e => Events.flag e j0) (doPulse_get (pt := .evt) k t n (by simp))

theorem doPulseEnd_flag (k t : Nat) (n : Node) (j0 : Nat) : ((doPulseEnd k t n)).evt.flag j0 = n.evt.flag j0 :=
  congrArg (fun e => Events.flag e j0) (doPulseEnd_get (pt := .evt) k t n (by simp))

theorem doOverload_flag (k : Nat) (n : Node) (j0 : Nat) (hj0 : n.evt.flag j0 = true) : ((doOverload k n)).evt.flag j0 = true := by
  unfold doOverload
  (repeat' split) <;> simp (maxDischargeDepth := 12) [hj0, recOcc_flag, setDo_flag, raise_flag', flag_foldl, flag_ite]

theorem doOvertemp_flag (k : Nat) (n : Node) (j0 : Nat) (hj0 : n.evt.flag j0 = true) : ((doOvertemp k n)).evt.flag j0 = true := by
  unfold doOvertemp
  (repeat' split) <;> simp (maxDischargeDepth := 12) [hj0, setDo_flag, raise_flag', flag_foldl, flag_ite]

theorem doOvertempClear_flag (k : Nat) (n : Node) (j0 : Nat) : ((doOvertempClear k n)).evt.flag j0 = n.evt.flag j0 :=
  congrArg (fun e => Events.flag e j0) (doOvertempClear_get (pt := .evt) k n (by simp))

theorem doOpenWire_flag (k : Nat) (which opn : Bool) (t : Nat) (n : Node) (j0 : Nat) (hj0 : n.evt.flag j0 = true) : ((doOpenWire k which opn t n)).evt.flag j0 = true := by
  unfold doOpenWire
  (repeat' split) <;> simp (maxDischargeDepth := 12) [hj0, raiseIf_flag, setDo_flag, flag_foldl, flag_ite]

theorem darkTest_flag (k t : Nat) (n : Node) (j0 : Nat) : ((darkTest k t n)).evt.flag j0 = n.evt.flag j0 :=
  congrArg (fun e => Events.flag e j0) (darkTest_get (pt := .evt) k t n (by simp))

theorem darkEnd_flag (k : Nat) (fell : Bool) (t : Nat) (n : Node) (j0 : Nat) (hj0 : n.evt.flag j0 = true) : ((darkEnd k fell t n)).evt.flag j0 = true := by
  unfold darkEnd
  (repeat' split) <;> simp (maxDischargeDepth := 12) [hj0, raiseIf_flag, setDo_flag, flag_foldl, flag_ite]

theorem fpSet_flag (f mv : Nat) (n : Node) (j0 : Nat) : ((fpSet f mv n)).evt.flag j0 = n.evt.flag j0 :=
  congrArg (fun e => Events.flag e j0) (fpSet_get (pt := .evt) f mv n (by simp))

theorem digScan_flag (t : Nat) (n : Node) (j0 : Nat) (hj0 : n.evt.flag j0 = true) : ((digScan t n)).evt.flag j0 = true := by
  unfold digScan
  (repeat' split) <;> (try simp (maxDischargeDepth := 12) (contextual := true) [hj0, diRecord_flag, doRecord_flag, flag_foldl, flag_ite]) <;> (try intros) <;> (repeat' split) <;> (try simp_all (maxDischargeDepth := 12) (contextual := true) [hj0, diRecord_flag, doRecord_flag, flag_foldl, flag_ite])

theorem digFine_flag (t : Nat) (n : Node) (j0 : Nat) (hj0 : n.evt.flag j0 = true) : ((digFine t n)).evt.flag j0 = true := by
  unfold digFine
  (repeat' split) <;> (try simp (maxDischargeDepth := 12) (contextual := true) [hj0, diRecord_flag, doRecord_flag, flag_foldl, flag_ite]) <;> (try intros) <;> (repeat' split) <;> (try simp_all (maxDischargeDepth := 12) (contextual := true) [hj0, diRecord_flag, doRecord_flag, flag_foldl, flag_ite])

theorem pinsSet_flag (pins : Word) (n : Node) (j0 : Nat) : ((pinsSet pins n)).evt.flag j0 = n.evt.flag j0 :=
  congrArg (fun e => Events.flag e j0) (pinsSet_get (pt := .evt) pins n (by simp))

theorem digApply_flag (oldOn : Nat → Bool) (n : Node) (j0 : Nat) : ((digApply oldOn n)).evt.flag j0 = n.evt.flag j0 :=
  congrArg (fun e => Events.flag e j0) (digApply_get (pt := .evt) oldOn n (by simp))

theorem digReady_flag (n : Node) (j0 : Nat) : ((digReady n)).evt.flag j0 = n.evt.flag j0 :=
  congrArg (fun e => Events.flag e j0) (digReady_get (pt := .evt) n (by simp))

theorem digWrite_flag (addr : Nat) (v : Word) (n : Node) (j0 : Nat) : ((digWrite addr v n)).evt.flag j0 = n.evt.flag j0 :=
  congrArg (fun e => Events.flag e j0) (digWrite_get (pt := .evt) addr v n (by simp))

theorem setSv_flag (k : Nat) (u : SvChan) (n : Node) (j0 : Nat) : ((setSv k u n)).evt.flag j0 = n.evt.flag j0 :=
  congrArg (fun e => Events.flag e j0) (setSv_get (pt := .evt) k u n (by simp))

theorem modSv_flag (k : Nat) (f : SvChan → SvChan) (n : Node) (j0 : Nat) : ((modSv k f n)).evt.flag j0 = n.evt.flag j0 :=
  congrArg (fun e => Events.flag e j0) (modSv_get (pt := .evt) k f n (by simp))

theorem setHb_flag (k : Nat) (u : Bank) (n : Node) (j0 : Nat) : ((setHb k u n)).evt.flag j0 = n.evt.flag j0 :=
  congrArg (fun e => Events.flag e j0) (setHb_get (pt := .evt) k u n (by simp))

theorem svSubMark_flag (b : Nat) (n : Node) (j0 : Nat) : ((svSubMark b n)).evt.flag j0 = n.evt.flag j0 :=
  congrArg (fun e => Events.flag e j0) (svSubMark_get (pt := .evt) b n (by simp))

theorem svRecord_flag (k t : Nat) (n : Node) (j0 : Nat) (hj0 : n.evt.flag j0 = true) : ((svRecord k t n)).evt.flag j0 = true := by
  unfold svRecord
  (repeat' split) <;> simp (maxDischargeDepth := 12) [hj0, complete_flag, flag_foldl, flag_ite]

theorem svAbort_flag (k t : Nat) (n : Node) (j0 : Nat) (hj0 : n.evt.flag j0 = true) : ((svAbort k t n)).evt.flag j0 = true := by
  unfold svAbort
  (repeat' split) <;> simp (maxDischargeDepth := 12) [hj0, setSv_flag, svRecord_flag, svSubMark_flag, flag_foldl, flag_ite]

theorem svStart_flag (k prof dur t rank : Nat) (n : Node) (j0 : Nat) (hj0 : n.evt.flag j0 = true) : ((svStart k prof dur t rank n)).evt.flag j0 = true := by
  unfold svStart
  (repeat' split) <;> simp (maxDischargeDepth := 12) [hj0, modSv_flag, recOcc_flag, setSv_flag, svAbort_flag, raise_flag', flag_foldl, flag_ite]

theorem svFire_flag (k prof dur t rank : Nat) (n : Node) (j0 : Nat) (hj0 : n.evt.flag j0 = true) : ((svFire k prof dur t rank n)).evt.flag j0 = true := by
  unfold svFire
  (repeat' split) <;> simp (maxDischargeDepth := 12) [hj0, modSv_flag, setSv_flag, svAbort_flag, svStart_flag, raise_flag', flag_foldl, flag_ite]

theorem svQueued_flag (k t : Nat) (n : Node) (j0 : Nat) (hj0 : n.evt.flag j0 = true) : ((svQueued k t n)).evt.flag j0 = true := by
  unfold svQueued
  (repeat' split) <;> (try simp (maxDischargeDepth := 12) (contextual := true) [hj0, svStart_flag, flag_foldl, flag_ite]) <;> (try intros) <;> (repeat' split) <;> (try simp_all (maxDischargeDepth := 12) (contextual := true) [hj0, svStart_flag, flag_foldl, flag_ite])

theorem svLane_flag (k : Nat) (ppm : Int) (period t : Nat) (n : Node) (j0 : Nat) (hj0 : n.evt.flag j0 = true) : ((svLane k ppm period t n)).evt.flag j0 = true := by
  unfold svLane
  (repeat' split) <;> simp (maxDischargeDepth := 12) [hj0, modSv_flag, svFire_flag, flag_foldl, flag_ite]

theorem svEnd_flag (k t : Nat) (n : Node) (j0 : Nat) (hj0 : n.evt.flag j0 = true) : ((svEnd k t n)).evt.flag j0 = true := by
  unfold svEnd
  (repeat' split) <;> simp (maxDischargeDepth := 12) [hj0, setSv_flag, svRecord_flag, svSubMark_flag, flag_foldl, flag_ite]

theorem svTarget_flag (k : Nat) (w : Word) (limit : Bool) (n : Node) (j0 : Nat) : ((svTarget k w limit n)).evt.flag j0 = n.evt.flag j0 :=
  congrArg (fun e => Events.flag e j0) (svTarget_get (pt := .evt) k w limit n (by simp))

theorem svExpire_flag (k : Nat) (n : Node) (j0 : Nat) (hj0 : n.evt.flag j0 = true) : ((svExpire k n)).evt.flag j0 = true := by
  unfold svExpire
  (repeat' split) <;> simp (maxDischargeDepth := 12) [hj0, modSv_flag, setHb_flag, svTarget_flag, raise_flag', flag_foldl, flag_ite]

theorem svPeak_flag (k t : Nat) (n : Node) (j0 : Nat) (hj0 : n.evt.flag j0 = true) : ((svPeak k t n)).evt.flag j0 = true := by
  unfold svPeak
  (repeat' split) <;> simp (maxDischargeDepth := 12) [hj0, setHb_flag, setSv_flag, svExpire_flag, svTarget_flag, flag_foldl, flag_ite]

theorem svSeti_flag (k t : Nat) (n : Node) (j0 : Nat) (hj0 : n.evt.flag j0 = true) : ((svSeti k t n)).evt.flag j0 = true := by
  unfold svSeti
  (repeat' split) <;> simp (maxDischargeDepth := 12) [hj0, svPeak_flag, svSubMark_flag, flag_foldl, flag_ite]

theorem svRamp_flag (k t : Nat) (n : Node) (j0 : Nat) (hj0 : n.evt.flag j0 = true) : ((svRamp k t n)).evt.flag j0 = true := by
  unfold svRamp
  (repeat' split) <;> simp (maxDischargeDepth := 12) [hj0, svPeak_flag, svSubMark_flag, flag_foldl, flag_ite]

theorem svStagger_flag (k t : Nat) (n : Node) (j0 : Nat) (hj0 : n.evt.flag j0 = true) : ((svStagger k t n)).evt.flag j0 = true := by
  unfold svStagger
  (repeat' split) <;> simp (maxDischargeDepth := 12) [hj0, svExpire_flag, svSubMark_flag, flag_foldl, flag_ite]

theorem svWaitt_flag (k t : Nat) (n : Node) (j0 : Nat) : ((svWaitt k t n)).evt.flag j0 = n.evt.flag j0 :=
  congrArg (fun e => Events.flag e j0) (svWaitt_get (pt := .evt) k t n (by simp))

theorem svWaiti_flag (k t : Nat) (n : Node) (j0 : Nat) : ((svWaiti k t n)).evt.flag j0 = n.evt.flag j0 :=
  congrArg (fun e => Events.flag e j0) (svWaiti_get (pt := .evt) k t n (by simp))

theorem svWaitp_flag (k : Nat) (n : Node) (j0 : Nat) : ((svWaitp k n)).evt.flag j0 = n.evt.flag j0 :=
  congrArg (fun e => Events.flag e j0) (svWaitp_get (pt := .evt) k n (by simp))

theorem svHold_flag (k t : Nat) (n : Node) (j0 : Nat) : ((svHold k t n)).evt.flag j0 = n.evt.flag j0 :=
  congrArg (fun e => Events.flag e j0) (svHold_get (pt := .evt) k t n (by simp))

theorem svDecay_flag (k : Nat) (sw : SvSw) (t : Nat) (n : Node) (j0 : Nat) : ((svDecay k sw t n)).evt.flag j0 = n.evt.flag j0 :=
  congrArg (fun e => Events.flag e j0) (svDecay_get (pt := .evt) k sw t n (by simp))

theorem svFreew_flag (k t : Nat) (n : Node) (j0 : Nat) : ((svFreew k t n)).evt.flag j0 = n.evt.flag j0 :=
  congrArg (fun e => Events.flag e j0) (svFreew_get (pt := .evt) k t n (by simp))

theorem svQuench_flag (k t : Nat) (n : Node) (j0 : Nat) : ((svQuench k t n)).evt.flag j0 = n.evt.flag j0 :=
  congrArg (fun e => Events.flag e j0) (svQuench_get (pt := .evt) k t n (by simp))

theorem svMark_flag (k t : Nat) (n : Node) (j0 : Nat) : ((svMark k t n)).evt.flag j0 = n.evt.flag j0 :=
  congrArg (fun e => Events.flag e j0) (svMark_get (pt := .evt) k t n (by simp))

theorem svJif_flag (k : Nat) (n : Node) (j0 : Nat) : ((svJif k n)).evt.flag j0 = n.evt.flag j0 :=
  congrArg (fun e => Events.flag e j0) (svJif_get (pt := .evt) k n (by simp))

theorem svIllegal_flag (k t : Nat) (n : Node) (j0 : Nat) (hj0 : n.evt.flag j0 = true) : ((svIllegal k t n)).evt.flag j0 = true := by
  unfold svIllegal
  (repeat' split) <;> simp (maxDischargeDepth := 12) [hj0, modSv_flag, svAbort_flag, raise_flag', flag_foldl, flag_ite]

theorem svLoop_flag (k t : Nat) (n : Node) (j0 : Nat) (hj0 : n.evt.flag j0 = true) : ((svLoop k t n)).evt.flag j0 = true := by
  unfold svLoop
  (repeat' split) <;> simp (maxDischargeDepth := 12) [hj0, modSv_flag, svIllegal_flag, flag_foldl, flag_ite]

theorem svFlag_flag (k : Nat) (n : Node) (j0 : Nat) (hj0 : n.evt.flag j0 = true) : ((svFlag k n)).evt.flag j0 = true := by
  unfold svFlag
  (repeat' split) <;> simp (maxDischargeDepth := 12) [hj0, modSv_flag, raise_flag', flag_foldl, flag_ite]

theorem svIllegalAt_flag (k t : Nat) (n : Node) (j0 : Nat) (hj0 : n.evt.flag j0 = true) : ((svIllegalAt k t n)).evt.flag j0 = true := by
  unfold svIllegalAt
  (repeat' split) <;> simp (maxDischargeDepth := 12) [hj0, svIllegal_flag, flag_foldl, flag_ite]

theorem svWaittEnd_flag (k t : Nat) (n : Node) (j0 : Nat) : ((svWaittEnd k t n)).evt.flag j0 = n.evt.flag j0 :=
  congrArg (fun e => Events.flag e j0) (svWaittEnd_get (pt := .evt) k t n (by simp))

theorem svWaitiMet_flag (k : Nat) (n : Node) (j0 : Nat) : ((svWaitiMet k n)).evt.flag j0 = n.evt.flag j0 :=
  congrArg (fun e => Events.flag e j0) (svWaitiMet_get (pt := .evt) k n (by simp))

theorem svWaitiTmo_flag (k t : Nat) (n : Node) (j0 : Nat) : ((svWaitiTmo k t n)).evt.flag j0 = n.evt.flag j0 :=
  congrArg (fun e => Events.flag e j0) (svWaitiTmo_get (pt := .evt) k t n (by simp))

theorem svWaitpDone_flag (k : Nat) (n : Node) (j0 : Nat) : ((svWaitpDone k n)).evt.flag j0 = n.evt.flag j0 :=
  congrArg (fun e => Events.flag e j0) (svWaitpDone_get (pt := .evt) k n (by simp))

theorem svWaitpEarly_flag (k : Nat) (n : Node) (j0 : Nat) : ((svWaitpEarly k n)).evt.flag j0 = n.evt.flag j0 :=
  congrArg (fun e => Events.flag e j0) (svWaitpEarly_get (pt := .evt) k n (by simp))

theorem svHoldEnd_flag (k t : Nat) (n : Node) (j0 : Nat) : ((svHoldEnd k t n)).evt.flag j0 = n.evt.flag j0 :=
  congrArg (fun e => Events.flag e j0) (svHoldEnd_get (pt := .evt) k t n (by simp))

theorem svRampDone_flag (k : Nat) (n : Node) (j0 : Nat) : ((svRampDone k n)).evt.flag j0 = n.evt.flag j0 :=
  congrArg (fun e => Events.flag e j0) (svRampDone_get (pt := .evt) k n (by simp))

theorem svSense_flag (k mA t : Nat) (n : Node) (j0 : Nat) (hj0 : n.evt.flag j0 = true) : ((svSense k mA t n)).evt.flag j0 = true := by
  unfold svSense
  (repeat' split) <;> simp (maxDischargeDepth := 12) [hj0, modSv_flag, setSv_flag, svQueued_flag, svSubMark_flag, flag_foldl, flag_ite]

theorem svOverCurrent_flag (k t : Nat) (n : Node) (j0 : Nat) (hj0 : n.evt.flag j0 = true) : ((svOverCurrent k t n)).evt.flag j0 = true := by
  unfold svOverCurrent
  (repeat' split) <;> simp (maxDischargeDepth := 12) [hj0, modSv_flag, recOcc_flag, svAbort_flag, raise_flag', flag_foldl, flag_ite]

theorem bankOverCurrent_flag (b t : Nat) (n : Node) (j0 : Nat) (hj0 : n.evt.flag j0 = true) : ((bankOverCurrent b t n)).evt.flag j0 = true := by
  unfold bankOverCurrent
  (repeat' split) <;> simp (maxDischargeDepth := 12) [hj0, recOcc_flag, setHb_flag, svAbort_flag, raise_flag', flag_foldl, flag_ite]

theorem svDrop_flag (k t : Nat) (n : Node) (j0 : Nat) : ((svDrop k t n)).evt.flag j0 = n.evt.flag j0 :=
  congrArg (fun e => Events.flag e j0) (svDrop_get (pt := .evt) k t n (by simp))

theorem svSync_flag (n : Node) (j0 : Nat) (hj0 : n.evt.flag j0 = true) : ((svSync n)).evt.flag j0 = true := by
  unfold svSync
  (repeat' split) <;> (try simp (maxDischargeDepth := 12) (contextual := true) [hj0, modSv_flag, setSv_flag, svAbort_flag, svDrop_flag, flag_foldl, flag_ite]) <;> (try intros) <;> (repeat' split) <;> (try simp_all (maxDischargeDepth := 12) (contextual := true) [hj0, modSv_flag, setSv_flag, svAbort_flag, svDrop_flag, flag_foldl, flag_ite])

theorem svFireWrite_flag (k : Nat) (v : Word) (n : Node) (j0 : Nat) (hj0 : n.evt.flag j0 = true) : ((svFireWrite k v n)).evt.flag j0 = true := by
  unfold svFireWrite
  (repeat' split) <;> simp (maxDischargeDepth := 12) [hj0, svFire_flag, flag_foldl, flag_ite]

theorem svHtgtWrite_flag (k : Nat) (v : Word) (n : Node) (j0 : Nat) : ((svHtgtWrite k v n)).evt.flag j0 = n.evt.flag j0 :=
  congrArg (fun e => Events.flag e j0) (svHtgtWrite_get (pt := .evt) k v n (by simp))

theorem svWrite_flag (k off : Nat) (v : Word) (n : Node) (j0 : Nat) (hj0 : n.evt.flag j0 = true) : ((svWrite k off v n)).evt.flag j0 = true := by
  unfold svWrite
  (repeat' split) <;> simp (maxDischargeDepth := 12) [hj0, modSv_flag, svFireWrite_flag, svHtgtWrite_flag, flag_foldl, flag_ite]

theorem hbWrite_flag (b off : Nat) (v : Word) (n : Node) (j0 : Nat) : ((hbWrite b off v n)).evt.flag j0 = n.evt.flag j0 :=
  congrArg (fun e => Events.flag e j0) (hbWrite_get (pt := .evt) b off v n (by simp))

theorem shMcStep_flag (n : Node) (j0 : Nat) : ((shMcStep n)).evt.flag j0 = n.evt.flag j0 :=
  congrArg (fun e => Events.flag e j0) (shMcStep_get (pt := .evt) n (by simp))

theorem svReady0_flag (n : Node) (j0 : Nat) : ((svReady0 n)).evt.flag j0 = n.evt.flag j0 :=
  congrArg (fun e => Events.flag e j0) (svReady0_get (pt := .evt) n (by simp))

theorem setPf_flag (k : Nat) (u : PfChan) (n : Node) (j0 : Nat) : ((setPf k u n)).evt.flag j0 = n.evt.flag j0 :=
  congrArg (fun e => Events.flag e j0) (setPf_get (pt := .evt) k u n (by simp))

theorem modPf_flag (k : Nat) (f : PfChan → PfChan) (n : Node) (j0 : Nat) : ((modPf k f n)).evt.flag j0 = n.evt.flag j0 :=
  congrArg (fun e => Events.flag e j0) (modPf_get (pt := .evt) k f n (by simp))

theorem setCmpE_flag (e : Nat) (u : CmpEnt) (n : Node) (j0 : Nat) : ((setCmpE e u n)).evt.flag j0 = n.evt.flag j0 :=
  congrArg (fun e => Events.flag e j0) (setCmpE_get (pt := .evt) e u n (by simp))

theorem pfError_flag (f t : Nat) (n : Node) (j0 : Nat) : ((pfError f t n)).evt.flag j0 = n.evt.flag j0 :=
  congrArg (fun e => Events.flag e j0) (pfError_get (pt := .evt) f t n (by simp))

theorem pfStill_flag (f t : Nat) (n : Node) (j0 : Nat) (hj0 : n.evt.flag j0 = true) : ((pfStill f t n)).evt.flag j0 = true := by
  unfold pfStill
  (repeat' split) <;> simp (maxDischargeDepth := 12) [hj0, caAbandonAll_flag, setPf_flag, raise_flag', flag_foldl, flag_ite]

theorem cmpRearm_flag (f : Nat) (n : Node) (j0 : Nat) : ((cmpRearm f n)).evt.flag j0 = n.evt.flag j0 :=
  congrArg (fun e => Events.flag e j0) (cmpRearm_get (pt := .evt) f n (by simp))

theorem cmpAction_flag (r : Bytes) (f t : Nat) (n : Node) (j0 : Nat) (hj0 : n.evt.flag j0 = true) : ((cmpAction r f t n)).evt.flag j0 = true := by
  unfold cmpAction
  (repeat' split) <;> simp (maxDischargeDepth := 12) [hj0, caAction_flag, doPulse_flag, modPf_flag, poPulse_flag, raiseIf_flag, svFire_flag, flag_foldl, flag_ite]

theorem cmpHit_flag (f t : Nat) (n : Node) (r : Bytes) (j0 : Nat) (hj0 : n.evt.flag j0 = true) : ((cmpHit f t n r)).evt.flag j0 = true := by
  unfold cmpHit
  (repeat' split) <;> simp (maxDischargeDepth := 12) [hj0, cmpAction_flag, setCmpE_flag, flag_foldl, flag_ite]

theorem cmpStep_flag (f : Nat) (old : Word) (d : Int) (t : Nat) (n : Node) (j0 : Nat) (hj0 : n.evt.flag j0 = true) : ((cmpStep f old d t n)).evt.flag j0 = true := by
  unfold cmpStep
  (repeat' split) <;> (try simp (maxDischargeDepth := 12) (contextual := true) [hj0, cmpHit_flag, cmpRearm_flag, flag_foldl, flag_ite]) <;> (try intros) <;> (repeat' split) <;> (try simp_all (maxDischargeDepth := 12) (contextual := true) [hj0, cmpHit_flag, cmpRearm_flag, flag_foldl, flag_ite])

theorem pfCount_flag (f : Nat) (d : Int) (n : Node) (j0 : Nat) (hj0 : n.evt.flag j0 = true) : ((pfCount f d n)).evt.flag j0 = true := by
  unfold pfCount
  (repeat' split) <;> simp (maxDischargeDepth := 12) [hj0, raiseIf_flag, setPf_flag, flag_foldl, flag_ite]

theorem pfIndexEvent_flag (f : Nat) (n : Node) (j0 : Nat) (hj0 : n.evt.flag j0 = true) : ((pfIndexEvent f n)).evt.flag j0 = true := by
  unfold pfIndexEvent
  (repeat' split) <;> simp (maxDischargeDepth := 12) [hj0, caAbandonAll_flag, caIndex_flag, raiseIf_flag, setPf_flag, flag_foldl, flag_ite]

theorem pfCrank_flag (f : Nat) (old : Word) (d : Int) (n : Node) (j0 : Nat) : ((pfCrank f old d n)).evt.flag j0 = n.evt.flag j0 :=
  congrArg (fun e => Events.flag e j0) (pfCrank_get (pt := .evt) f old d n (by simp))

theorem pfStepBy_flag (f : Nat) (d : Int) (index : Bool) (t : Nat) (n : Node) (j0 : Nat) (hj0 : n.evt.flag j0 = true) : ((pfStepBy f d index t n)).evt.flag j0 = true := by
  unfold pfStepBy
  (repeat' split) <;> simp (maxDischargeDepth := 12) [hj0, caAbandonAll_flag, cmpStep_flag, pfCount_flag, pfCrank_flag, pfIndexEvent_flag, raiseIf_flag, setPf_flag, flag_foldl, flag_ite]

theorem pfTurn_flag (f : Nat) (d : Int) (index : Bool) (t : Nat) (n : Node) (j0 : Nat) (hj0 : n.evt.flag j0 = true) : ((pfTurn f d index t n)).evt.flag j0 = true := by
  unfold pfTurn
  (repeat' split) <;> simp (maxDischargeDepth := 12) [hj0, modPf_flag, pfStepBy_flag, flag_foldl, flag_ite]

theorem pfEdge_flag (f : Nat) (e : PfStep) (t : Nat) (n : Node) (j0 : Nat) (hj0 : n.evt.flag j0 = true) : ((pfEdge f e t n)).evt.flag j0 = true := by
  unfold pfEdge
  (repeat' split) <;> (try simp (maxDischargeDepth := 12) (contextual := true) [hj0, modPf_flag, pfStepBy_flag, pfTurn_flag, flag_foldl, flag_ite]) <;> (try intros) <;> (repeat' split) <;> (try simp_all (maxDischargeDepth := 12) (contextual := true) [hj0, modPf_flag, pfStepBy_flag, pfTurn_flag, flag_foldl, flag_ite])

theorem pfQuadError_flag (f : Nat) (e : PfStep) (t : Nat) (n : Node) (j0 : Nat) (hj0 : n.evt.flag j0 = true) : ((pfQuadError f e t n)).evt.flag j0 = true := by
  unfold pfQuadError
  (repeat' split) <;> simp (maxDischargeDepth := 12) [hj0, pfError_flag, setPf_flag, raise_flag', flag_foldl, flag_ite]

theorem pfHallError_flag (f : Nat) (a b z : Bool) (t : Nat) (n : Node) (j0 : Nat) (hj0 : n.evt.flag j0 = true) : ((pfHallError f a b z t n)).evt.flag j0 = true := by
  unfold pfHallError
  (repeat' split) <;> simp (maxDischargeDepth := 12) [hj0, pfError_flag, setPf_flag, raise_flag', flag_foldl, flag_ite]

theorem pfAmplError_flag (f : Nat) (s c : Int) (n : Node) (j0 : Nat) (hj0 : n.evt.flag j0 = true) : ((pfAmplError f s c n)).evt.flag j0 = true := by
  unfold pfAmplError
  (repeat' split) <;> simp (maxDischargeDepth := 12) [hj0, caAbandonAll_flag, raiseIf_flag, setPf_flag, flag_foldl, flag_ite]

theorem pfPublish_flag (f t : Nat) (n : Node) (j0 : Nat) (hj0 : n.evt.flag j0 = true) : ((pfPublish f t n)).evt.flag j0 = true := by
  unfold pfPublish
  (repeat' split) <;> simp (maxDischargeDepth := 12) [hj0, complete_flag, setPf_flag, flag_foldl, flag_ite]

theorem pfFine_flag (t : Nat) (n : Node) (j0 : Nat) (hj0 : n.evt.flag j0 = true) : ((pfFine t n)).evt.flag j0 = true := by
  unfold pfFine
  (repeat' split) <;> (try simp (maxDischargeDepth := 12) (contextual := true) [hj0, modPf_flag, pfPublish_flag, pfStill_flag, flag_foldl, flag_ite]) <;> (try intros) <;> (repeat' split) <;> (try simp_all (maxDischargeDepth := 12) (contextual := true) [hj0, modPf_flag, pfPublish_flag, pfStill_flag, flag_foldl, flag_ite])

theorem ssiTake_flag (f : Nat) (frame : SsiFrame) (t : Nat) (n : Node) (j0 : Nat) (hj0 : n.evt.flag j0 = true) : ((ssiTake f frame t n)).evt.flag j0 = true := by
  unfold ssiTake
  dsimp only
  have hp : ∀ m : Node, m.evt.flag j0 = true → (if m.acq = true then pfPublish f t (pfStill f t m) else m).evt.flag j0 = true := by
    intro m hm
    split <;> simp (maxDischargeDepth := 12) (contextual := true) [hj0, cmpRearm_flag, modPf_flag, pfError_flag, pfPublish_flag, pfStepBy_flag, pfStill_flag, setPf_flag, raise_flag', flag_foldl, flag_ite, hm]
  apply hp
  split
  · exact hj0
  split
  · simp (maxDischargeDepth := 12) (contextual := true) [hj0, cmpRearm_flag, modPf_flag, pfError_flag, pfPublish_flag, pfStepBy_flag, pfStill_flag, setPf_flag, raise_flag', flag_foldl, flag_ite]
  · have ht : ∀ m : Node, m.evt.flag j0 = true → (if pfClean (n.pfC f) t = true then modPf f pfTrust m else m).evt.flag j0 = true := by
      intro m hm
      split <;> simp (maxDischargeDepth := 12) (contextual := true) [hj0, cmpRearm_flag, modPf_flag, pfError_flag, pfPublish_flag, pfStepBy_flag, pfStill_flag, setPf_flag, raise_flag', flag_foldl, flag_ite, hm]
    apply ht
    split
    · simp (maxDischargeDepth := 12) (contextual := true) [hj0, cmpRearm_flag, modPf_flag, pfError_flag, pfPublish_flag, pfStepBy_flag, pfStill_flag, setPf_flag, raise_flag', flag_foldl, flag_ite]
    · split <;> simp (maxDischargeDepth := 12) (contextual := true) [hj0, cmpRearm_flag, modPf_flag, pfError_flag, pfPublish_flag, pfStepBy_flag, pfStill_flag, setPf_flag, raise_flag', flag_foldl, flag_ite]

theorem pfSsi_flag (f : Nat) (frame : SsiFrame) (t : Nat) (n : Node) (j0 : Nat) (hj0 : n.evt.flag j0 = true) : ((pfSsi f frame t n)).evt.flag j0 = true := by
  unfold pfSsi
  split
  · exact hj0
  split
  · exact ssiTake_flag _ _ _ _ _ ((modPf_flag _ _ _ _).trans hj0)
  · exact hj0

theorem pfRawRead_flag (p : HostPort) (f : Nat) (n : Node) (j0 : Nat) : ((pfRawRead p f n).2).evt.flag j0 = n.evt.flag j0 :=
  congrArg (fun e => Events.flag e j0) (pfRawRead_get (pt := .evt) p f n (by simp))

theorem pfWrapRead_flag (p : HostPort) (f : Nat) (n : Node) (j0 : Nat) : ((pfWrapRead p f n).2).evt.flag j0 = n.evt.flag j0 :=
  congrArg (fun e => Events.flag e j0) (pfWrapRead_get (pt := .evt) p f n (by simp))

theorem pfCapRead_flag (p : HostPort) (f k : Nat) (n : Node) (j0 : Nat) : ((pfCapRead p f k n).2).evt.flag j0 = n.evt.flag j0 :=
  congrArg (fun e => Events.flag e j0) (pfCapRead_get (pt := .evt) p f k n (by simp))

theorem pfCapRest_flag (p : HostPort) (f k : Nat) (ts : Bool) (n : Node) (j0 : Nat) : ((pfCapRest p f k ts n).2).evt.flag j0 = n.evt.flag j0 :=
  congrArg (fun e => Events.flag e j0) (pfCapRest_get (pt := .evt) p f k ts n (by simp))

theorem pfClr_flag (f : Nat) (v : Word) (n : Node) (j0 : Nat) : ((pfClr f v n)).evt.flag j0 = n.evt.flag j0 :=
  congrArg (fun e => Events.flag e j0) (pfClr_get (pt := .evt) f v n (by simp))

theorem cmpSetPos_flag (v : Word) (n : Node) (j0 : Nat) : ((cmpSetPos v n)).evt.flag j0 = n.evt.flag j0 :=
  congrArg (fun e => Events.flag e j0) (cmpSetPos_get (pt := .evt) v n (by simp))

theorem cmpSetEn_flag (v : Word) (n : Node) (j0 : Nat) : ((cmpSetEn v n)).evt.flag j0 = n.evt.flag j0 :=
  congrArg (fun e => Events.flag e j0) (cmpSetEn_get (pt := .evt) v n (by simp))

theorem pfMiswire_flag (f : Nat) (n : Node) (j0 : Nat) : ((pfMiswire f n)).evt.flag j0 = n.evt.flag j0 :=
  congrArg (fun e => Events.flag e j0) (pfMiswire_get (pt := .evt) f n (by simp))

theorem pfApply_flag (n : Node) (j0 : Nat) : ((pfApply n)).evt.flag j0 = n.evt.flag j0 :=
  congrArg (fun e => Events.flag e j0) (pfApply_get (pt := .evt) n (by simp))

theorem pfWrite_flag (f off : Nat) (v : Word) (n : Node) (j0 : Nat) : ((pfWrite f off v n)).evt.flag j0 = n.evt.flag j0 :=
  congrArg (fun e => Events.flag e j0) (pfWrite_get (pt := .evt) f off v n (by simp))

theorem cmpWrite_flag (addr : Nat) (v : Word) (n : Node) (j0 : Nat) : ((cmpWrite addr v n)).evt.flag j0 = n.evt.flag j0 :=
  congrArg (fun e => Events.flag e j0) (cmpWrite_get (pt := .evt) addr v n (by simp))

theorem setLn_flag (k : Nat) (u : Lane) (n : Node) (j0 : Nat) : ((setLn k u n)).evt.flag j0 = n.evt.flag j0 :=
  congrArg (fun e => Events.flag e j0) (setLn_get (pt := .evt) k u n (by simp))

theorem modLn_flag (k : Nat) (f : Lane → Lane) (n : Node) (j0 : Nat) : ((modLn k f n)).evt.flag j0 = n.evt.flag j0 :=
  congrArg (fun e => Events.flag e j0) (modLn_get (pt := .evt) k f n (by simp))

theorem setGen_flag (g : Nat) (u : LnGen) (n : Node) (j0 : Nat) : ((setGen g u n)).evt.flag j0 = n.evt.flag j0 :=
  congrArg (fun e => Events.flag e j0) (setGen_get (pt := .evt) g u n (by simp))

theorem lnTargetOffRec_flag (r : Bytes) (n : Node) (j0 : Nat) : ((lnTargetOffRec r n)).evt.flag j0 = n.evt.flag j0 :=
  congrArg (fun e => Events.flag e j0) (lnTargetOffRec_get (pt := .evt) r n (by simp))

theorem lnTargetOff_flag (k : Nat) (n : Node) (j0 : Nat) : ((lnTargetOff k n)).evt.flag j0 = n.evt.flag j0 :=
  congrArg (fun e => Events.flag e j0) (lnTargetOff_get (pt := .evt) k n (by simp))

theorem lnTarget_flag (k : Nat) (u : Int) (t : Nat) (n : Node) (j0 : Nat) (hj0 : n.evt.flag j0 = true) : ((lnTarget k u t n)).evt.flag j0 = true := by
  unfold lnTarget
  dsimp only
  (repeat' split) <;> simp (maxDischargeDepth := 12) (contextual := true) [hj0, doLane_flag, loLane_flag, poLane_flag, svLane_flag, flag_foldl, flag_ite]

theorem genEnd_flag (g st : Nat) (n : Node) (j0 : Nat) (hj0 : n.evt.flag j0 = true) : ((genEnd g st n)).evt.flag j0 = true := by
  unfold genEnd
  (repeat' split) <;> simp (maxDischargeDepth := 12) [hj0, setGen_flag, raise_flag', flag_foldl, flag_ite]

theorem genSample_flag (gi : Nat) (sp pv u : Int) (t : Nat) (n : Node) (j0 : Nat) (hj0 : n.evt.flag j0 = true) : ((genSample gi sp pv u t n)).evt.flag j0 = true := by
  unfold genSample
  (repeat' split) <;> simp (maxDischargeDepth := 12) [hj0, genEnd_flag, setGen_flag, flag_foldl, flag_ite]

theorem lnTestStart_flag (k : Nat) (n : Node) (j0 : Nat) : ((lnTestStart k n)).evt.flag j0 = n.evt.flag j0 :=
  congrArg (fun e => Events.flag e j0) (lnTestStart_get (pt := .evt) k n (by simp))

theorem lnTestStop_flag (k : Nat) (n : Node) (j0 : Nat) (hj0 : n.evt.flag j0 = true) : ((lnTestStop k n)).evt.flag j0 = true := by
  unfold lnTestStop
  (repeat' split) <;> simp (maxDischargeDepth := 12) [hj0, genEnd_flag, flag_foldl, flag_ite]

theorem lnTestsAbort_flag (n : Node) (j0 : Nat) (hj0 : n.evt.flag j0 = true) : ((lnTestsAbort n)).evt.flag j0 = true := by
  unfold lnTestsAbort
  (repeat' split) <;> simp (maxDischargeDepth := 12) [hj0, genEnd_flag, flag_foldl, flag_ite]

theorem lnSetAct_flag (k m : Nat) (n : Node) (j0 : Nat) (hj0 : n.evt.flag j0 = true) : ((lnSetAct k m n)).evt.flag j0 = true := by
  unfold lnSetAct
  (repeat' split) <;> simp (maxDischargeDepth := 12) [hj0, genEnd_flag, lnTargetOff_flag, setLn_flag, raise_flag', flag_foldl, flag_ite]

theorem lnFollowFire_flag (k : Nat) (u : Int) (n : Node) (j0 : Nat) (hj0 : n.evt.flag j0 = true) : ((lnFollowFire k u n)).evt.flag j0 = true := by
  unfold lnFollowFire
  (repeat' split) <;> (try simp (maxDischargeDepth := 12) (contextual := true) [hj0, lnSetAct_flag, modLn_flag, raise_flag', flag_foldl, flag_ite]) <;> (try intros) <;> (repeat' split) <;> (try simp_all (maxDischargeDepth := 12) (contextual := true) [hj0, lnSetAct_flag, modLn_flag, raise_flag', flag_foldl, flag_ite])

theorem lnFollow_flag (k : Nat) (sp pv u : Int) (t : Nat) (n : Node) (j0 : Nat) (hj0 : n.evt.flag j0 = true) : ((lnFollow k sp pv u t n)).evt.flag j0 = true := by
  unfold lnFollow
  (repeat' split) <;> simp (maxDischargeDepth := 12) [hj0, lnFollowFire_flag, setLn_flag, flag_foldl, flag_ite]

theorem lnFollowDue_flag (k t : Nat) (n : Node) (j0 : Nat) (hj0 : n.evt.flag j0 = true) : ((lnFollowDue k t n)).evt.flag j0 = true := by
  unfold lnFollowDue
  (repeat' split) <;> simp (maxDischargeDepth := 12) [hj0, lnFollowFire_flag, flag_foldl, flag_ite]

theorem lnSatSet_flag (k b : Nat) (n : Node) (j0 : Nat) (hj0 : n.evt.flag j0 = true) : ((lnSatSet k b n)).evt.flag j0 = true := by
  unfold lnSatSet
  (repeat' split) <;> simp (maxDischargeDepth := 12) [hj0, raiseIf_flag, setLn_flag, flag_foldl, flag_ite]

theorem lnMode_flag (k kt t : Nat) (n : Node) (j0 : Nat) (hj0 : n.evt.flag j0 = true) : ((lnMode k kt t n)).evt.flag j0 = true := by
  unfold lnMode
  (repeat' split) <;> simp (maxDischargeDepth := 12) [hj0, lnSetAct_flag, setLn_flag, flag_foldl, flag_ite]

theorem lnDeliver_flag (k : Nat) (u : Int) (t : Nat) (n : Node) (j0 : Nat) (hj0 : n.evt.flag j0 = true) : ((lnDeliver k u t n)).evt.flag j0 = true := by
  unfold lnDeliver
  (repeat' split) <;> simp (maxDischargeDepth := 12) [hj0, complete_flag, lnTarget_flag, setLn_flag, flag_foldl, flag_ite]

theorem lnEval_flag (k t : Nat) (n : Node) (j0 : Nat) (hj0 : n.evt.flag j0 = true) : ((lnEval k t n)).evt.flag j0 = true := by
  unfold lnEval
  (repeat' split) <;> simp (maxDischargeDepth := 12) [hj0, genSample_flag, lnDeliver_flag, lnFollow_flag, lnMode_flag, lnSatSet_flag, lnSetAct_flag, modLn_flag, raiseIf_flag, setLn_flag, flag_foldl, flag_ite]

theorem lnFine_flag (t : Nat) (n : Node) (j0 : Nat) (hj0 : n.evt.flag j0 = true) : ((lnFine t n)).evt.flag j0 = true := by
  unfold lnFine
  (repeat' split) <;> (try simp (maxDischargeDepth := 12) (contextual := true) [hj0, lnEval_flag, flag_foldl, flag_ite]) <;> (try intros) <;> (repeat' split) <;> (try simp_all (maxDischargeDepth := 12) (contextual := true) [hj0, lnEval_flag, flag_foldl, flag_ite])

theorem lnRequest_flag (k code : Nat) (n : Node) (j0 : Nat) : ((lnRequest k code n)).evt.flag j0 = n.evt.flag j0 :=
  congrArg (fun e => Events.flag e j0) (lnRequest_get (pt := .evt) k code n (by simp))

theorem lnApplyPend_flag (k : Nat) (n : Node) (j0 : Nat) : ((lnApplyPend k n)).evt.flag j0 = n.evt.flag j0 :=
  congrArg (fun e => Events.flag e j0) (lnApplyPend_get (pt := .evt) k n (by simp))

theorem lnModeWrite_flag (k : Nat) (v : Word) (n : Node) (j0 : Nat) : ((lnModeWrite k v n)).evt.flag j0 = n.evt.flag j0 :=
  congrArg (fun e => Events.flag e j0) (lnModeWrite_get (pt := .evt) k v n (by simp))

theorem lnAddI_flag (k : Nat) (d : Int) (n : Node) (j0 : Nat) : ((lnAddI k d n)).evt.flag j0 = n.evt.flag j0 :=
  congrArg (fun e => Events.flag e j0) (lnAddI_get (pt := .evt) k d n (by simp))

theorem lnApply_flag (n : Node) (j0 : Nat) (hj0 : n.evt.flag j0 = true) : ((lnApply n)).evt.flag j0 = true := by
  unfold lnApply
  refine flag_foldl _ _ _ _ (lnTestsAbort_flag _ _ hj0) (fun m a hm => ?_)
  simp (maxDischargeDepth := 12) (contextual := true) [hj0, lnTestsAbort_flag, raiseIf_flag, setLn_flag, flag_foldl, flag_ite, hm]

theorem lnTargetBegin_flag (k : Nat) (n : Node) (j0 : Nat) (hj0 : n.evt.flag j0 = true) : ((lnTargetBegin k n)).evt.flag j0 = true := by
  unfold lnTargetBegin
  dsimp only
  split
  · simp (maxDischargeDepth := 12) (contextual := true) [hj0, doLane_flag, lnTargetOff_flag, loLane_flag, poLane_flag, flag_foldl, flag_ite]
  · split <;> simp (maxDischargeDepth := 12) (contextual := true) [hj0, doLane_flag, lnTargetOff_flag, loLane_flag, poLane_flag, flag_foldl, flag_ite]

theorem lnBegin_flag (k : Nat) (n : Node) (j0 : Nat) (hj0 : n.evt.flag j0 = true) : ((lnBegin k n)).evt.flag j0 = true := by
  unfold lnBegin
  (repeat' split) <;> simp (maxDischargeDepth := 12) [hj0, lnTargetBegin_flag, modLn_flag, flag_foldl, flag_ite]

theorem lnRunEntry_flag (n : Node) (j0 : Nat) (hj0 : n.evt.flag j0 = true) : ((lnRunEntry n)).evt.flag j0 = true := by
  unfold lnRunEntry
  exact flag_foldl _ _ _ _ hj0 (fun m a hm => lnBegin_flag _ _ _ hm)

theorem lnStop_flag (old : Bytes) (k : Nat) (n : Node) (j0 : Nat) (hj0 : n.evt.flag j0 = true) : ((lnStop old k n)).evt.flag j0 = true := by
  unfold lnStop
  (repeat' split) <;> simp (maxDischargeDepth := 12) [hj0, genEnd_flag, lnTargetOffRec_flag, modLn_flag, raise_flag', flag_foldl, flag_ite]

theorem lnReplace_flag (old : Nat → Bytes) (n : Node) (j0 : Nat) (hj0 : n.evt.flag j0 = true) : ((lnReplace old n)).evt.flag j0 = true := by
  unfold lnReplace
  refine flag_foldl _ _ _ _ hj0 (fun m a hm => ?_)
  dsimp only
  (repeat' split) <;> simp (maxDischargeDepth := 12) (contextual := true) [hj0, lnBegin_flag, lnStop_flag, lnTargetOffRec_flag, modLn_flag, flag_foldl, flag_ite, hm]

theorem lnCapData_flag (p : HostPort) (k : Nat) (n : Node) (j0 : Nat) : ((lnCapData p k n).2.2).evt.flag j0 = n.evt.flag j0 :=
  congrArg (fun e => Events.flag e j0) (lnCapData_get (pt := .evt) p k n (by simp))

theorem lnTestWrite_flag (k : Nat) (v : Word) (n : Node) (j0 : Nat) (hj0 : n.evt.flag j0 = true) : ((lnTestWrite k v n)).evt.flag j0 = true := by
  unfold lnTestWrite
  (repeat' split) <;> simp (maxDischargeDepth := 12) [hj0, lnTestStart_flag, lnTestStop_flag, flag_foldl, flag_ite]

theorem lnWrite_flag (p : HostPort) (k off : Nat) (v : Word) (n : Node) (j0 : Nat) (hj0 : n.evt.flag j0 = true) : ((lnWrite p k off v n)).evt.flag j0 = true := by
  unfold lnWrite
  (repeat' split) <;> simp (maxDischargeDepth := 12) [hj0, modPort_flag, lnModeWrite_flag, lnTestWrite_flag, modLn_flag, flag_foldl, flag_ite]

theorem clkNote_flag (sev : Nat) (old : Nat) (n : Node) (j0 : Nat) : ((clkNote sev old n)).evt.flag j0 = n.evt.flag j0 :=
  congrArg (fun e => Events.flag e j0) (clkNote_get (pt := .evt) sev old n (by simp))

theorem osfSet_flag (n : Node) (j0 : Nat) (hj0 : n.evt.flag j0 = true) : ((osfSet n)).evt.flag j0 = true := by
  unfold osfSet
  (repeat' split) <;> simp (maxDischargeDepth := 12) [hj0, clkNote_flag, raise_flag', flag_foldl, flag_ite]

theorem clkBoot_flag (n : Node) (j0 : Nat) (hj0 : n.evt.flag j0 = true) : ((clkBoot n)).evt.flag j0 = true := by
  unfold clkBoot
  (repeat' split) <;> simp (maxDischargeDepth := 12) [hj0, clkNote_flag, raise_flag', flag_foldl, flag_ite]

theorem clkAlarm_flag (n : Node) (j0 : Nat) (hj0 : n.evt.flag j0 = true) : ((clkAlarm n)).evt.flag j0 = true := by
  unfold clkAlarm
  (repeat' split) <;> simp (maxDischargeDepth := 12) [hj0, raiseIf_flag, flag_foldl, flag_ite]

theorem clkSecond_flag (n : Node) (j0 : Nat) (hj0 : n.evt.flag j0 = true) : ((clkSecond n)).evt.flag j0 = true := by
  unfold clkSecond
  (repeat' split) <;> simp (maxDischargeDepth := 12) [hj0, clkAlarm_flag, osfSet_flag, flag_foldl, flag_ite]

theorem clkSet_flag (secs : Nat) (n : Node) (j0 : Nat) : ((clkSet secs n)).evt.flag j0 = n.evt.flag j0 :=
  congrArg (fun e => Events.flag e j0) (clkSet_get (pt := .evt) secs n (by simp))

theorem clkReject_flag (n : Node) (j0 : Nat) (hj0 : n.evt.flag j0 = true) : ((clkReject n)).evt.flag j0 = true := by
  unfold clkReject
  (repeat' split) <;> simp (maxDischargeDepth := 12) [hj0, raise_flag', flag_foldl, flag_ite]

theorem clkRefuse_flag (n : Node) (j0 : Nat) : ((clkRefuse n)).evt.flag j0 = n.evt.flag j0 :=
  congrArg (fun e => Events.flag e j0) (clkRefuse_get (pt := .evt) n (by simp))

theorem clkSetBin_flag (n : Node) (j0 : Nat) (hj0 : n.evt.flag j0 = true) : ((clkSetBin n)).evt.flag j0 = true := by
  unfold clkSetBin
  (repeat' split) <;> simp (maxDischargeDepth := 12) [hj0, clkReject_flag, clkSet_flag, flag_foldl, flag_ite]

theorem clkSetBcd_flag (n : Node) (j0 : Nat) (hj0 : n.evt.flag j0 = true) : ((clkSetBcd n)).evt.flag j0 = true := by
  unfold clkSetBcd
  (repeat' split) <;> simp (maxDischargeDepth := 12) [hj0, clkReject_flag, clkSet_flag, flag_foldl, flag_ite]

theorem clkOfs_flag (x : Int) (dst : Bool) (n : Node) (j0 : Nat) : ((clkOfs x dst n)).evt.flag j0 = n.evt.flag j0 :=
  congrArg (fun e => Events.flag e j0) (clkOfs_get (pt := .evt) x dst n (by simp))

theorem clkSetOfs_flag (arg : Nat) (n : Node) (j0 : Nat) : ((clkSetOfs arg n)).evt.flag j0 = n.evt.flag j0 :=
  congrArg (fun e => Events.flag e j0) (clkSetOfs_get (pt := .evt) arg n (by simp))

theorem clkDstFwd_flag (n : Node) (j0 : Nat) : ((clkDstFwd n)).evt.flag j0 = n.evt.flag j0 :=
  congrArg (fun e => Events.flag e j0) (clkDstFwd_get (pt := .evt) n (by simp))

theorem clkDstBack_flag (n : Node) (j0 : Nat) : ((clkDstBack n)).evt.flag j0 = n.evt.flag j0 :=
  congrArg (fun e => Events.flag e j0) (clkDstBack_get (pt := .evt) n (by simp))

theorem clkCmd_flag (v : Word) (n : Node) (j0 : Nat) (hj0 : n.evt.flag j0 = true) : ((clkCmd v n)).evt.flag j0 = true := by
  unfold clkCmd
  (repeat' split) <;> simp (maxDischargeDepth := 12) [hj0, clkDstBack_flag, clkDstFwd_flag, clkRefuse_flag, clkSetBcd_flag, clkSetBin_flag, clkSetOfs_flag, flag_foldl, flag_ite]

theorem setShadow_flag (i : Nat) (s : Shadow) (n : Node) (j0 : Nat) : ((setShadow i s n)).evt.flag j0 = n.evt.flag j0 :=
  congrArg (fun e => Events.flag e j0) (setShadow_get (pt := .evt) i s n (by simp))

theorem shadowExpire_flag (i : Nat) (n : Node) (j0 : Nat) : ((shadowExpire i n)).evt.flag j0 = n.evt.flag j0 :=
  congrArg (fun e => Events.flag e j0) (shadowExpire_get (pt := .evt) i n (by simp))

theorem shadowRead_flag (i k : Nat) (n : Node) (j0 : Nat) : ((shadowRead i k n).2).evt.flag j0 = n.evt.flag j0 :=
  congrArg (fun e => Events.flag e j0) (shadowRead_get (pt := .evt) i k n (by simp))

theorem clkStatusWrite_flag (i : Nat) (v : Word) (n : Node) (j0 : Nat) : ((clkStatusWrite i v n)).evt.flag j0 = n.evt.flag j0 :=
  congrArg (fun e => Events.flag e j0) (clkStatusWrite_get (pt := .evt) i v n (by simp))

theorem clkOscStop_flag (n : Node) (j0 : Nat) (hj0 : n.evt.flag j0 = true) : ((clkOscStop n)).evt.flag j0 = true := by
  unfold clkOscStop
  (repeat' split) <;> simp (maxDischargeDepth := 12) [hj0, osfSet_flag, flag_foldl, flag_ite]

theorem clkDip_flag (dead : Bool) (n : Node) (j0 : Nat) (hj0 : n.evt.flag j0 = true) : ((clkDip dead n)).evt.flag j0 = true := by
  unfold clkDip
  (repeat' split) <;> simp (maxDischargeDepth := 12) [hj0, osfSet_flag, flag_foldl, flag_ite]

theorem clkSource_flag (toVbak : Bool) (n : Node) (j0 : Nat) : ((clkSource toVbak n)).evt.flag j0 = n.evt.flag j0 :=
  congrArg (fun e => Events.flag e j0) (clkSource_get (pt := .evt) toVbak n (by simp))

theorem clkVbak_flag (mV : Nat) (n : Node) (j0 : Nat) (hj0 : n.evt.flag j0 = true) : ((clkVbak mV n)).evt.flag j0 = true := by
  unfold clkVbak
  (repeat' split) <;> simp (maxDischargeDepth := 12) [hj0, raiseIf_flag, flag_foldl, flag_ite]

theorem clkApply_flag (n : Node) (j0 : Nat) : ((clkApply n)).evt.flag j0 = n.evt.flag j0 :=
  congrArg (fun e => Events.flag e j0) (clkApply_get (pt := .evt) n (by simp))

theorem clkRebase_flag (n : Node) (j0 : Nat) : ((clkRebase n)).evt.flag j0 = n.evt.flag j0 :=
  congrArg (fun e => Events.flag e j0) (clkRebase_get (pt := .evt) n (by simp))

theorem clkWrite_flag (addr : Nat) (v : Word) (n : Node) (j0 : Nat) (hj0 : n.evt.flag j0 = true) : ((clkWrite addr v n)).evt.flag j0 = true := by
  unfold clkWrite
  (repeat' split) <;> simp (maxDischargeDepth := 12) [hj0, clkCmd_flag, flag_foldl, flag_ite]

theorem msCommit_flag (n : Node) (j0 : Nat) : ((msCommit n)).evt.flag j0 = n.evt.flag j0 :=
  congrArg (fun e => Events.flag e j0) (msCommit_get (pt := .evt) n (by simp))

theorem msRebase_flag (n : Node) (j0 : Nat) : ((msRebase n)).evt.flag j0 = n.evt.flag j0 :=
  congrArg (fun e => Events.flag e j0) (msRebase_get (pt := .evt) n (by simp))

theorem msPowerUp_flag (n : Node) (j0 : Nat) : ((msPowerUp n)).evt.flag j0 = n.evt.flag j0 :=
  congrArg (fun e => Events.flag e j0) (msPowerUp_get (pt := .evt) n (by simp))

theorem windowClose_flag (n : Node) (j0 : Nat) : ((windowClose n)).evt.flag j0 = n.evt.flag j0 :=
  congrArg (fun e => Events.flag e j0) (windowClose_get (pt := .evt) n (by simp))

theorem recDrop_flag (n : Node) (j0 : Nat) (hj0 : n.evt.flag j0 = true) : ((recDrop n)).evt.flag j0 = true := by
  unfold recDrop
  (repeat' split) <;> simp (maxDischargeDepth := 12) [hj0, raise_flag', flag_foldl, flag_ite]

theorem recStore_flag (k typ sev : Nat) (pay : Bytes) (n : Node) (j0 : Nat) : ((recStore k typ sev pay n)).evt.flag j0 = n.evt.flag j0 :=
  congrArg (fun e => Events.flag e j0) (recStore_get (pt := .evt) k typ sev pay n (by simp))

theorem recRate_flag (n : Node) (j0 : Nat) : ((recRate n)).evt.flag j0 = n.evt.flag j0 :=
  congrArg (fun e => Events.flag e j0) (recRate_get (pt := .evt) n (by simp))

theorem recPlace_flag (typ sev : Nat) (pay : Bytes) (n : Node) (j0 : Nat) (hj0 : n.evt.flag j0 = true) : ((recPlace typ sev pay n)).evt.flag j0 = true := by
  unfold recPlace
  (repeat' split) <;> (try simp (maxDischargeDepth := 12) (contextual := true) [hj0, recDrop_flag, recRate_flag, recStore_flag, flag_foldl, flag_ite]) <;> (try intros) <;> (repeat' split) <;> (try simp_all (maxDischargeDepth := 12) (contextual := true) [hj0, recDrop_flag, recRate_flag, recStore_flag, flag_foldl, flag_ite])

theorem statRoll_flag (i : Nat) (n : Node) (j0 : Nat) : ((statRoll i n)).evt.flag j0 = n.evt.flag j0 :=
  congrArg (fun e => Events.flag e j0) (statRoll_get (pt := .evt) i n (by simp))

theorem statAdd_flag (i : Nat) (f : StatSlot → StatSlot) (n : Node) (j0 : Nat) : ((statAdd i f n)).evt.flag j0 = n.evt.flag j0 :=
  congrArg (fun e => Events.flag e j0) (statAdd_get (pt := .evt) i f n (by simp))

theorem histSample_flag (i : Nat) (n : Node) (j0 : Nat) : ((histSample i n)).evt.flag j0 = n.evt.flag j0 :=
  congrArg (fun e => Events.flag e j0) (histSample_get (pt := .evt) i n (by simp))

theorem countOcc_flag (cls ch : Nat) (n : Node) (j0 : Nat) : ((countOcc cls ch n)).evt.flag j0 = n.evt.flag j0 :=
  congrArg (fun e => Events.flag e j0) (countOcc_get (pt := .evt) cls ch n (by simp))

theorem recApply_flag (n : Node) (j0 : Nat) : ((recApply n)).evt.flag j0 = n.evt.flag j0 :=
  congrArg (fun e => Events.flag e j0) (recApply_get (pt := .evt) n (by simp))

theorem windowSample_flag (n : Node) (j0 : Nat) : ((windowSample n)).evt.flag j0 = n.evt.flag j0 :=
  congrArg (fun e => Events.flag e j0) (windowSample_get (pt := .evt) n (by simp))

theorem recScan_flag (n : Node) (j0 : Nat) : ((recScan n)).evt.flag j0 = n.evt.flag j0 :=
  congrArg (fun e => Events.flag e j0) (recScan_get (pt := .evt) n (by simp))

theorem recSelWrite_flag (p : HostPort) (v : Word) (n : Node) (j0 : Nat) : ((recSelWrite p v n)).evt.flag j0 = n.evt.flag j0 :=
  congrArg (fun e => Events.flag e j0) (recSelWrite_get (pt := .evt) p v n (by simp))

theorem recDataRead_flag (p : HostPort) (n : Node) (j0 : Nat) : ((recDataRead p n).2.2).evt.flag j0 = n.evt.flag j0 :=
  congrArg (fun e => Events.flag e j0) (recDataRead_get (pt := .evt) p n (by simp))

theorem stSelWrite_flag (p : HostPort) (v : Word) (n : Node) (j0 : Nat) : ((stSelWrite p v n)).evt.flag j0 = n.evt.flag j0 :=
  congrArg (fun e => Events.flag e j0) (stSelWrite_get (pt := .evt) p v n (by simp))

theorem stDataRead_flag (p : HostPort) (n : Node) (j0 : Nat) : ((stDataRead p n).2.2).evt.flag j0 = n.evt.flag j0 :=
  congrArg (fun e => Events.flag e j0) (stDataRead_get (pt := .evt) p n (by simp))

theorem recAppend_flag (v : Word) (n : Node) (j0 : Nat) : ((recAppend v n).2).evt.flag j0 = n.evt.flag j0 :=
  congrArg (fun e => Events.flag e j0) (recAppend_get (pt := .evt) v n (by simp))

theorem msLoRead_flag (p : HostPort) (n : Node) (j0 : Nat) : ((msLoRead p n).2).evt.flag j0 = n.evt.flag j0 :=
  congrArg (fun e => Events.flag e j0) (msLoRead_get (pt := .evt) p n (by simp))

theorem msHiRead_flag (p : HostPort) (n : Node) (j0 : Nat) : ((msHiRead p n).2).evt.flag j0 = n.evt.flag j0 :=
  congrArg (fun e => Events.flag e j0) (msHiRead_get (pt := .evt) p n (by simp))

theorem recAppWrite_flag (addr : Nat) (v : Word) (n : Node) (j0 : Nat) : ((recAppWrite addr v n)).evt.flag j0 = n.evt.flag j0 :=
  congrArg (fun e => Events.flag e j0) (recAppWrite_get (pt := .evt) addr v n (by simp))

theorem setAlmP_flag (i : Nat) (p : AlmPt) (n : Node) (j0 : Nat) : ((setAlmP i p n)).evt.flag j0 = n.evt.flag j0 :=
  congrArg (fun e => Events.flag e j0) (setAlmP_get (pt := .evt) i p n (by simp))

theorem setAlmG_flag (g : Nat) (x : AlmGrp) (n : Node) (j0 : Nat) : ((setAlmG g x n)).evt.flag j0 = n.evt.flag j0 :=
  congrArg (fun e => Events.flag e j0) (setAlmG_get (pt := .evt) g x n (by simp))

theorem almLog_flag (kind idx new old cause : Nat) (w1 : Word) (n : Node) (j0 : Nat) (hj0 : n.evt.flag j0 = true) : ((almLog kind idx new old cause w1 n)).evt.flag j0 = true := by
  unfold almLog
  (repeat' split) <;> simp (maxDischargeDepth := 12) [hj0, raiseIf_flag, flag_foldl, flag_ite]

theorem almGo_flag (i new cause : Nat) (w1 : Option Word) (n : Node) (j0 : Nat) (hj0 : n.evt.flag j0 = true) : ((almGo i new cause w1 n)).evt.flag j0 = true := by
  unfold almGo
  (repeat' split) <;> simp (maxDischargeDepth := 12) [hj0, almLog_flag, setAlmP_flag, flag_foldl, flag_ite]

theorem modAlmP_flag (i : Nat) (f : AlmPt → AlmPt) (n : Node) (j0 : Nat) : ((modAlmP i f n)).evt.flag j0 = n.evt.flag j0 :=
  congrArg (fun e => Events.flag e j0) (modAlmP_get (pt := .evt) i f n (by simp))

theorem almOnExp_flag (i : Nat) (start : Int) (n : Node) (j0 : Nat) (hj0 : n.evt.flag j0 = true) : ((almOnExp i start n)).evt.flag j0 = true := by
  unfold almOnExp
  (repeat' split) <;> simp (maxDischargeDepth := 12) [hj0, almGo_flag, modAlmP_flag, raise_flag', flag_foldl, flag_ite]

theorem almOffExp_flag (i : Nat) (n : Node) (j0 : Nat) (hj0 : n.evt.flag j0 = true) : ((almOffExp i n)).evt.flag j0 = true := by
  unfold almOffExp
  (repeat' split) <;> simp (maxDischargeDepth := 12) [hj0, almGo_flag, modAlmP_flag, raise_flag', flag_foldl, flag_ite]

theorem almOnDue_flag (i t : Nat) (n : Node) (j0 : Nat) (hj0 : n.evt.flag j0 = true) : ((almOnDue i t n)).evt.flag j0 = true := by
  unfold almOnDue
  (repeat' split) <;> (try simp (maxDischargeDepth := 12) (contextual := true) [hj0, almOnExp_flag, flag_foldl, flag_ite]) <;> (try intros) <;> (repeat' split) <;> (try simp_all (maxDischargeDepth := 12) (contextual := true) [hj0, almOnExp_flag, flag_foldl, flag_ite])

theorem almOffDue_flag (i t : Nat) (n : Node) (j0 : Nat) (hj0 : n.evt.flag j0 = true) : ((almOffDue i t n)).evt.flag j0 = true := by
  unfold almOffDue
  (repeat' split) <;> (try simp (maxDischargeDepth := 12) (contextual := true) [hj0, almOffExp_flag, flag_foldl, flag_ite]) <;> (try intros) <;> (repeat' split) <;> (try simp_all (maxDischargeDepth := 12) (contextual := true) [hj0, almOffExp_flag, flag_foldl, flag_ite])

theorem almCond_flag (i : Nat) (c : Bool) (t : Nat) (n : Node) (j0 : Nat) (hj0 : n.evt.flag j0 = true) : ((almCond i c t n)).evt.flag j0 = true := by
  unfold almCond
  (repeat' split) <;> simp (maxDischargeDepth := 12) [hj0, almOffExp_flag, almOnExp_flag, setAlmP_flag, flag_foldl, flag_ite]

theorem almToNormal_flag (i cause : Nat) (w1 : Option Word) (n : Node) (j0 : Nat) (hj0 : n.evt.flag j0 = true) : ((almToNormal i cause w1 n)).evt.flag j0 = true := by
  unfold almToNormal
  (repeat' split) <;> simp (maxDischargeDepth := 12) [hj0, almGo_flag, almOnExp_flag, modAlmP_flag, flag_foldl, flag_ite]

theorem almToSupp_flag (i cause : Nat) (w1 : Option Word) (n : Node) (j0 : Nat) (hj0 : n.evt.flag j0 = true) : ((almToSupp i cause w1 n)).evt.flag j0 = true := by
  unfold almToSupp
  (repeat' split) <;> simp (maxDischargeDepth := 12) [hj0, almGo_flag, modAlmP_flag, flag_foldl, flag_ite]

theorem almLeave_flag (i cause : Nat) (n : Node) (j0 : Nat) (hj0 : n.evt.flag j0 = true) : ((almLeave i cause n)).evt.flag j0 = true := by
  unfold almLeave
  (repeat' split) <;> simp (maxDischargeDepth := 12) [hj0, almToNormal_flag, almToSupp_flag, modAlmP_flag, flag_foldl, flag_ite]

theorem almOver_flag (i st cause : Nat) (n : Node) (j0 : Nat) (hj0 : n.evt.flag j0 = true) : ((almOver i st cause n)).evt.flag j0 = true := by
  unfold almOver
  (repeat' split) <;> simp (maxDischargeDepth := 12) [hj0, almGo_flag, modAlmP_flag, flag_foldl, flag_ite]

theorem almShelveDue_flag (i t : Nat) (n : Node) (j0 : Nat) (hj0 : n.evt.flag j0 = true) : ((almShelveDue i t n)).evt.flag j0 = true := by
  unfold almShelveDue
  (repeat' split) <;> (try simp (maxDischargeDepth := 12) (contextual := true) [hj0, almLeave_flag, flag_foldl, flag_ite]) <;> (try intros) <;> (repeat' split) <;> (try simp_all (maxDischargeDepth := 12) (contextual := true) [hj0, almLeave_flag, flag_foldl, flag_ite])

theorem almRate_flag (i : Nat) (r : Bytes) (e us : Int) (t : Nat) (n : Node) (j0 : Nat) (hj0 : n.evt.flag j0 = true) : ((almRate i r e us t n)).evt.flag j0 = true := by
  unfold almRate
  (repeat' split) <;> simp (maxDischargeDepth := 12) [hj0, almCond_flag, modAlmP_flag, flag_foldl, flag_ite]

theorem almEval_flag (i : Nat) (r : Bytes) (t : Nat) (n : Node) (j0 : Nat) (hj0 : n.evt.flag j0 = true) : ((almEval i r t n)).evt.flag j0 = true := by
  unfold almEval
  (repeat' split) <;> (try simp (maxDischargeDepth := 12) (contextual := true) [hj0, almCond_flag, almRate_flag, modAlmP_flag, flag_foldl, flag_ite]) <;> (try intros) <;> (repeat' split) <;> (try simp_all (maxDischargeDepth := 12) (contextual := true) [hj0, almCond_flag, almRate_flag, modAlmP_flag, flag_foldl, flag_ite])

theorem almRecord_flag (addrs : List Nat) (t : Nat) (n : Node) (j0 : Nat) (hj0 : n.evt.flag j0 = true) : ((almRecord addrs t n)).evt.flag j0 = true := by
  unfold almRecord
  (repeat' split) <;> (try simp (maxDischargeDepth := 12) (contextual := true) [hj0, almEval_flag, flag_foldl, flag_ite]) <;> (try intros) <;> (repeat' split) <;> (try simp_all (maxDischargeDepth := 12) (contextual := true) [hj0, almEval_flag, flag_foldl, flag_ite])

theorem groupSuppress_flag (g : Nat) (n : Node) (j0 : Nat) (hj0 : n.evt.flag j0 = true) : ((groupSuppress g n)).evt.flag j0 = true := by
  unfold groupSuppress
  refine flag_foldl _ _ _ _ (by simp (maxDischargeDepth := 12) (contextual := true) [hj0, almLog_flag, almToSupp_flag, modAlmP_flag, setAlmG_flag, flag_foldl, flag_ite]) (fun m a hm => ?_)
  dsimp only
  (repeat' split) <;> simp (maxDischargeDepth := 12) (contextual := true) [hj0, almLog_flag, almToSupp_flag, modAlmP_flag, setAlmG_flag, flag_foldl, flag_ite, hm]

theorem groupRelease_flag (g : Nat) (n : Node) (j0 : Nat) (hj0 : n.evt.flag j0 = true) : ((groupRelease g n)).evt.flag j0 = true := by
  unfold groupRelease
  (repeat' split) <;> (try simp (maxDischargeDepth := 12) (contextual := true) [hj0, almLog_flag, almToNormal_flag, modAlmP_flag, setAlmG_flag, flag_foldl, flag_ite]) <;> (try intros) <;> (repeat' split) <;> (try simp_all (maxDischargeDepth := 12) (contextual := true) [hj0, almLog_flag, almToNormal_flag, modAlmP_flag, setAlmG_flag, flag_foldl, flag_ite])

theorem groupDue_flag (g t : Nat) (n : Node) (j0 : Nat) (hj0 : n.evt.flag j0 = true) : ((groupDue g t n)).evt.flag j0 = true := by
  unfold groupDue
  (repeat' split) <;> (try simp (maxDischargeDepth := 12) (contextual := true) [hj0, groupRelease_flag, flag_foldl, flag_ite]) <;> (try intros) <;> (repeat' split) <;> (try simp_all (maxDischargeDepth := 12) (contextual := true) [hj0, groupRelease_flag, flag_foldl, flag_ite])

theorem groupTick_flag (t : Nat) (n : Node) (g : Nat) (j0 : Nat) (hj0 : n.evt.flag j0 = true) : ((groupTick t n g)).evt.flag j0 = true := by
  unfold groupTick
  (repeat' split) <;> simp (maxDischargeDepth := 12) [hj0, groupDue_flag, groupSuppress_flag, setAlmG_flag, flag_foldl, flag_ite]

theorem foCapture_flag (n : Node) (g : Nat) (j0 : Nat) (hj0 : n.evt.flag j0 = true) : ((foCapture n g)).evt.flag j0 = true := by
  unfold foCapture
  (repeat' split) <;> (try simp (maxDischargeDepth := 12) (contextual := true) [hj0, setAlmG_flag, raise_flag', flag_foldl, flag_ite]) <;> (try intros) <;> (repeat' split) <;> (try simp_all (maxDischargeDepth := 12) (contextual := true) [hj0, setAlmG_flag, raise_flag', flag_foldl, flag_ite])

theorem callStart_flag (cause : Nat) (n : Node) (j0 : Nat) (hj0 : n.evt.flag j0 = true) : ((callStart cause n)).evt.flag j0 = true := by
  unfold callStart
  (repeat' split) <;> simp (maxDischargeDepth := 12) [hj0, almLog_flag, flag_foldl, flag_ite]

theorem callEnd_flag (s : Nat) (n : Node) (j0 : Nat) (hj0 : n.evt.flag j0 = true) : ((callEnd s n)).evt.flag j0 = true := by
  unfold callEnd
  (repeat' split) <;> simp (maxDischargeDepth := 12) [hj0, almLog_flag, raise_flag', flag_foldl, flag_ite]

theorem almRefuse_flag (n : Node) (j0 : Nat) : ((almRefuse n)).evt.flag j0 = n.evt.flag j0 :=
  congrArg (fun e => Events.flag e j0) (almRefuse_get (pt := .evt) n (by simp))

theorem callAck_flag (s : Nat) (n : Node) (j0 : Nat) (hj0 : n.evt.flag j0 = true) : ((callAck s n)).evt.flag j0 = true := by
  unfold callAck
  (repeat' split) <;> simp (maxDischargeDepth := 12) [hj0, almRefuse_flag, callEnd_flag, flag_foldl, flag_ite]

theorem callEscalate_flag (t : Nat) (n : Node) (j0 : Nat) (hj0 : n.evt.flag j0 = true) : ((callEscalate t n)).evt.flag j0 = true := by
  unfold callEscalate
  (repeat' split) <;> simp (maxDischargeDepth := 12) [hj0, almLog_flag, raise_flag', flag_foldl, flag_ite]

theorem callRecall_flag (t : Nat) (n : Node) (j0 : Nat) (hj0 : n.evt.flag j0 = true) : ((callRecall t n)).evt.flag j0 = true := by
  unfold callRecall
  (repeat' split) <;> simp (maxDischargeDepth := 12) [hj0, callStart_flag, flag_foldl, flag_ite]

theorem callTick_flag (ent : List (Nat × Nat × Bool)) (repat : Bool) (n : Node) (j0 : Nat) (hj0 : n.evt.flag j0 = true) : ((callTick ent repat n)).evt.flag j0 = true := by
  unfold callTick
  (repeat' split) <;> simp (maxDischargeDepth := 12) [hj0, callEnd_flag, callStart_flag, flag_foldl, flag_ite]

theorem patrolSet_flag (x : Nat) (n : Node) (j0 : Nat) (hj0 : n.evt.flag j0 = true) : ((patrolSet x n)).evt.flag j0 = true := by
  unfold patrolSet
  (repeat' split) <;> simp (maxDischargeDepth := 12) [hj0, almLog_flag, flag_foldl, flag_ite]

theorem patrolLoad_flag (n : Node) (j0 : Nat) (hj0 : n.evt.flag j0 = true) : ((patrolLoad n)).evt.flag j0 = true := by
  unfold patrolLoad
  (repeat' split) <;> simp (maxDischargeDepth := 12) [hj0, patrolSet_flag, flag_foldl, flag_ite]

theorem patrolPress_flag (n : Node) (j0 : Nat) (hj0 : n.evt.flag j0 = true) : ((patrolPress n)).evt.flag j0 = true := by
  unfold patrolPress
  (repeat' split) <;> simp (maxDischargeDepth := 12) [hj0, callEnd_flag, patrolLoad_flag, flag_foldl, flag_ite]

theorem patrolStart_flag (n : Node) (j0 : Nat) (hj0 : n.evt.flag j0 = true) : ((patrolStart n)).evt.flag j0 = true := by
  unfold patrolStart
  (repeat' split) <;> simp (maxDischargeDepth := 12) [hj0, patrolLoad_flag, flag_foldl, flag_ite]

theorem patrolStop_flag (n : Node) (j0 : Nat) (hj0 : n.evt.flag j0 = true) : ((patrolStop n)).evt.flag j0 = true := by
  unfold patrolStop
  (repeat' split) <;> simp (maxDischargeDepth := 12) [hj0, patrolSet_flag, flag_foldl, flag_ite]

theorem patrolWarn_flag (t : Nat) (n : Node) (j0 : Nat) (hj0 : n.evt.flag j0 = true) : ((patrolWarn t n)).evt.flag j0 = true := by
  unfold patrolWarn
  (repeat' split) <;> simp (maxDischargeDepth := 12) [hj0, patrolSet_flag, flag_foldl, flag_ite]

theorem patrolExpire_flag (t : Nat) (n : Node) (j0 : Nat) (hj0 : n.evt.flag j0 = true) : ((patrolExpire t n)).evt.flag j0 = true := by
  unfold patrolExpire
  (repeat' split) <;> simp (maxDischargeDepth := 12) [hj0, almLog_flag, patrolSet_flag, raise_flag', flag_foldl, flag_ite]

theorem almAck1_flag (i : Nat) (n : Node) (j0 : Nat) (hj0 : n.evt.flag j0 = true) : ((almAck1 i n)).evt.flag j0 = true := by
  unfold almAck1
  (repeat' split) <;> simp (maxDischargeDepth := 12) [hj0, almGo_flag, almToSupp_flag, flag_foldl, flag_ite]

theorem almAck_flag (i : Nat) (n : Node) (j0 : Nat) (hj0 : n.evt.flag j0 = true) : ((almAck i n)).evt.flag j0 = true := by
  unfold almAck
  (repeat' split) <;> simp (maxDischargeDepth := 12) [hj0, almAck1_flag, almRefuse_flag, flag_foldl, flag_ite]

theorem almAckGroup_flag (g : Nat) (n : Node) (j0 : Nat) (hj0 : n.evt.flag j0 = true) : ((almAckGroup g n)).evt.flag j0 = true := by
  unfold almAckGroup
  (repeat' split) <;> (try simp (maxDischargeDepth := 12) (contextual := true) [hj0, almAck1_flag, almRefuse_flag, flag_foldl, flag_ite]) <;> (try intros) <;> (repeat' split) <;> (try simp_all (maxDischargeDepth := 12) (contextual := true) [hj0, almAck1_flag, almRefuse_flag, flag_foldl, flag_ite])

theorem almAckAll_flag (n : Node) (j0 : Nat) (hj0 : n.evt.flag j0 = true) : ((almAckAll n)).evt.flag j0 = true := by
  unfold almAckAll
  (repeat' split) <;> (try simp (maxDischargeDepth := 12) (contextual := true) [hj0, almAck1_flag, flag_foldl, flag_ite]) <;> (try intros) <;> (repeat' split) <;> (try simp_all (maxDischargeDepth := 12) (contextual := true) [hj0, almAck1_flag, flag_foldl, flag_ite])

theorem almReset_flag (i : Nat) (n : Node) (j0 : Nat) (hj0 : n.evt.flag j0 = true) : ((almReset i n)).evt.flag j0 = true := by
  unfold almReset
  (repeat' split) <;> simp (maxDischargeDepth := 12) [hj0, almGo_flag, almRefuse_flag, raise_flag', flag_foldl, flag_ite]

theorem almShelve_flag (i arg : Nat) (n : Node) (j0 : Nat) (hj0 : n.evt.flag j0 = true) : ((almShelve i arg n)).evt.flag j0 = true := by
  unfold almShelve
  (repeat' split) <;> simp (maxDischargeDepth := 12) [hj0, almOver_flag, almRefuse_flag, modAlmP_flag, flag_foldl, flag_ite]

theorem almUnshelve_flag (i : Nat) (n : Node) (j0 : Nat) (hj0 : n.evt.flag j0 = true) : ((almUnshelve i n)).evt.flag j0 = true := by
  unfold almUnshelve
  (repeat' split) <;> simp (maxDischargeDepth := 12) [hj0, almLeave_flag, almRefuse_flag, flag_foldl, flag_ite]

theorem almInhibit_flag (i : Nat) (n : Node) (j0 : Nat) (hj0 : n.evt.flag j0 = true) : ((almInhibit i n)).evt.flag j0 = true := by
  unfold almInhibit
  (repeat' split) <;> simp (maxDischargeDepth := 12) [hj0, almOver_flag, almRefuse_flag, flag_foldl, flag_ite]

theorem almRelease_flag (i : Nat) (n : Node) (j0 : Nat) (hj0 : n.evt.flag j0 = true) : ((almRelease i n)).evt.flag j0 = true := by
  unfold almRelease
  (repeat' split) <;> simp (maxDischargeDepth := 12) [hj0, almLeave_flag, almRefuse_flag, flag_foldl, flag_ite]

theorem almFoReset_flag (g : Nat) (n : Node) (j0 : Nat) : ((almFoReset g n)).evt.flag j0 = n.evt.flag j0 :=
  congrArg (fun e => Events.flag e j0) (almFoReset_get (pt := .evt) g n (by simp))

theorem almOos_flag (i : Nat) (n : Node) (j0 : Nat) (hj0 : n.evt.flag j0 = true) : ((almOos i n)).evt.flag j0 = true := by
  unfold almOos
  (repeat' split) <;> simp (maxDischargeDepth := 12) [hj0, almOver_flag, almRefuse_flag, flag_foldl, flag_ite]

theorem almReturn_flag (i : Nat) (n : Node) (j0 : Nat) (hj0 : n.evt.flag j0 = true) : ((almReturn i n)).evt.flag j0 = true := by
  unfold almReturn
  (repeat' split) <;> simp (maxDischargeDepth := 12) [hj0, almLeave_flag, almRefuse_flag, flag_foldl, flag_ite]

theorem almCmd_flag (v : Word) (n : Node) (j0 : Nat) (hj0 : n.evt.flag j0 = true) : ((almCmd v n)).evt.flag j0 = true := by
  unfold almCmd
  (repeat' split) <;> simp (maxDischargeDepth := 12) [hj0, almAck_flag, almAckAll_flag, almAckGroup_flag, almFoReset_flag, almInhibit_flag, almRefuse_flag, almRelease_flag, almReset_flag, almShelve_flag, almUnshelve_flag, flag_foldl, flag_ite]

theorem almXcmd_flag (v : Word) (n : Node) (j0 : Nat) (hj0 : n.evt.flag j0 = true) : ((almXcmd v n)).evt.flag j0 = true := by
  unfold almXcmd
  (repeat' split) <;> simp (maxDischargeDepth := 12) [hj0, almOos_flag, almRefuse_flag, almReturn_flag, flag_foldl, flag_ite]

theorem almScan_flag (t : Nat) (n : Node) (j0 : Nat) (hj0 : n.evt.flag j0 = true) : ((almScan t n)).evt.flag j0 = true := by
  unfold almScan
  split
  · exact hj0
  dsimp only
  have hi : ∀ (k : Node) (a : AlmIn), k.evt.flag j0 = true → (almInput k a).evt.flag j0 = true := fun k a hk => by
    cases a <;> simp (maxDischargeDepth := 12) [almInput, almCmd_flag, almXcmd_flag, callAck_flag, patrolStart_flag, patrolStop_flag, patrolPress_flag, almRefuse_flag, flag_ite, hk]
  refine patrolExpire_flag _ _ _ (patrolWarn_flag _ _ _ (callEscalate_flag _ _ _ (callRecall_flag _ _ _ (callTick_flag _ _ _ _
    (flag_foldl _ _ _ _ ?_ (fun m a hm => hi m a hm))))))
  refine flag_foldl _ _ _ _ (flag_foldl _ _ _ _ (flag_foldl _ _ _ _ hj0 (fun m a hm => ?_)) (fun m a hm => groupTick_flag _ _ _ _ hm))
    (fun m a hm => foCapture_flag _ _ _ hm)
  exact almShelveDue_flag _ _ _ _ (almOffDue_flag _ _ _ _ (almOnDue_flag _ _ _ _ hm))

theorem almPress_flag (k : Nat) (n : Node) (j0 : Nat) : ((almPress k n)).evt.flag j0 = n.evt.flag j0 :=
  congrArg (fun e => Events.flag e j0) (almPress_get (pt := .evt) k n (by simp))

theorem almQueue_flag (x : AlmIn) (n : Node) (j0 : Nat) : ((almQueue x n)).evt.flag j0 = n.evt.flag j0 :=
  congrArg (fun e => Events.flag e j0) (almQueue_get (pt := .evt) x n (by simp))

theorem almCmdWrite_flag (v : Word) (n : Node) (j0 : Nat) (hj0 : n.evt.flag j0 = true) : ((almCmdWrite v n)).evt.flag j0 = true := by
  unfold almCmdWrite
  (repeat' split) <;> simp (maxDischargeDepth := 12) [hj0, almCmd_flag, almQueue_flag, flag_foldl, flag_ite]

theorem almXcmdWrite_flag (v : Word) (n : Node) (j0 : Nat) (hj0 : n.evt.flag j0 = true) : ((almXcmdWrite v n)).evt.flag j0 = true := by
  unfold almXcmdWrite
  (repeat' split) <;> simp (maxDischargeDepth := 12) [hj0, almQueue_flag, almXcmd_flag, flag_foldl, flag_ite]

theorem almDutyWrite_flag (v : Word) (n : Node) (j0 : Nat) : ((almDutyWrite v n)).evt.flag j0 = n.evt.flag j0 :=
  congrArg (fun e => Events.flag e j0) (almDutyWrite_get (pt := .evt) v n (by simp))

theorem almCallAckWrite_flag (v : Word) (n : Node) (j0 : Nat) : ((almCallAckWrite v n)).evt.flag j0 = n.evt.flag j0 :=
  congrArg (fun e => Events.flag e j0) (almCallAckWrite_get (pt := .evt) v n (by simp))

theorem almPatrolWrite_flag (v : Word) (n : Node) (j0 : Nat) : ((almPatrolWrite v n)).evt.flag j0 = n.evt.flag j0 :=
  congrArg (fun e => Events.flag e j0) (almPatrolWrite_get (pt := .evt) v n (by simp))

theorem almApply_flag (restart : Bool) (n : Node) (j0 : Nat) (hj0 : n.evt.flag j0 = true) : ((almApply restart n)).evt.flag j0 = true := by
  unfold almApply
  (repeat' split) <;> simp (maxDischargeDepth := 12) [hj0, almLog_flag, flag_foldl, flag_ite]

theorem almRestart_flag (i : Nat) (n : Node) (j0 : Nat) (hj0 : n.evt.flag j0 = true) : ((almRestart i n)).evt.flag j0 = true := by
  unfold almRestart
  (repeat' split) <;> simp (maxDischargeDepth := 12) [hj0, almGo_flag, setAlmP_flag, flag_foldl, flag_ite]

theorem almReplace_flag (old : Nat → Bytes) (n : Node) (j0 : Nat) (hj0 : n.evt.flag j0 = true) : ((almReplace old n)).evt.flag j0 = true := by
  unfold almReplace
  (repeat' split) <;> (try simp (maxDischargeDepth := 12) (contextual := true) [hj0, almRestart_flag, setAlmP_flag, flag_foldl, flag_ite]) <;> (try intros) <;> (repeat' split) <;> (try simp_all (maxDischargeDepth := 12) (contextual := true) [hj0, almRestart_flag, setAlmP_flag, flag_foldl, flag_ite])

theorem groupReplace_flag (oldCount : Nat) (n : Node) (j0 : Nat) (hj0 : n.evt.flag j0 = true) : ((groupReplace oldCount n)).evt.flag j0 = true := by
  unfold groupReplace
  (repeat' split) <;> (try simp (maxDischargeDepth := 12) (contextual := true) [hj0, groupRelease_flag, setAlmG_flag, flag_foldl, flag_ite]) <;> (try intros) <;> (repeat' split) <;> (try simp_all (maxDischargeDepth := 12) (contextual := true) [hj0, groupRelease_flag, setAlmG_flag, flag_foldl, flag_ite])

theorem wsSync_flag (n : Node) (j0 : Nat) : ((wsSync n)).evt.flag j0 = n.evt.flag j0 :=
  congrArg (fun e => Events.flag e j0) (wsSync_get (pt := .evt) n (by simp))

theorem almFindWrite_flag (p : HostPort) (v : Word) (n : Node) (j0 : Nat) : ((almFindWrite p v n)).evt.flag j0 = n.evt.flag j0 :=
  congrArg (fun e => Events.flag e j0) (almFindWrite_get (pt := .evt) p v n (by simp))

theorem almLogIdxWrite_flag (p : HostPort) (v : Word) (n : Node) (j0 : Nat) : ((almLogIdxWrite p v n)).evt.flag j0 = n.evt.flag j0 :=
  congrArg (fun e => Events.flag e j0) (almLogIdxWrite_get (pt := .evt) p v n (by simp))

theorem almLogData_flag (p : HostPort) (n : Node) (j0 : Nat) : ((almLogData p n).2.2).evt.flag j0 = n.evt.flag j0 :=
  congrArg (fun e => Events.flag e j0) (almLogData_get (pt := .evt) p n (by simp))

theorem almWrite_flag (p : HostPort) (addr : Nat) (v : Word) (n : Node) (j0 : Nat) (hj0 : n.evt.flag j0 = true) : ((almWrite p addr v n)).evt.flag j0 = true := by
  unfold almWrite
  (repeat' split) <;> simp (maxDischargeDepth := 12) [hj0, almCallAckWrite_flag, almCmdWrite_flag, almDutyWrite_flag, almFindWrite_flag, almLogIdxWrite_flag, almPatrolWrite_flag, almXcmdWrite_flag, flag_foldl, flag_ite]

theorem setSq_flag (s : Nat) (x : Seq) (n : Node) (j0 : Nat) : ((setSq s x n)).evt.flag j0 = n.evt.flag j0 :=
  congrArg (fun e => Events.flag e j0) (setSq_get (pt := .evt) s x n (by simp))

theorem modSq_flag (s : Nat) (f : Seq → Seq) (n : Node) (j0 : Nat) : ((modSq s f n)).evt.flag j0 = n.evt.flag j0 :=
  congrArg (fun e => Events.flag e j0) (modSq_get (pt := .evt) s f n (by simp))

theorem actDo_flag (s kind tgt arg : Nat) (val : Word) (n : Node) (j0 : Nat) (hj0 : n.evt.flag j0 = true) : ((actDo s kind tgt arg val n)).evt.flag j0 = true := by
  unfold actDo
  (repeat' split) <;> (try simp (maxDischargeDepth := 12) (contextual := true) [hj0, almCmdWrite_flag, doCmdWrite_flag, lnAddI_flag, lnRequest_flag, loDemandWrite_flag, modLn_flag, poSetWrite_flag, setSq_flag, svFire_flag, flag_foldl, flag_ite]) <;> (try intros) <;> (repeat' split) <;> (try simp_all (maxDischargeDepth := 12) (contextual := true) [hj0, almCmdWrite_flag, doCmdWrite_flag, lnAddI_flag, lnRequest_flag, loDemandWrite_flag, modLn_flag, poSetWrite_flag, setSq_flag, svFire_flag, flag_foldl, flag_ite])

theorem sqAction_flag (s : Nat) (r : Bytes) (o : Nat) (n : Node) (j0 : Nat) (hj0 : n.evt.flag j0 = true) : ((sqAction s r o n)).evt.flag j0 = true := by
  unfold sqAction
  (repeat' split) <;> simp (maxDischargeDepth := 12) [hj0, actDo_flag, almRefuse_flag, modSq_flag, flag_foldl, flag_ite]

theorem sqActs_flag (s k : Nat) (n : Node) (j0 : Nat) (hj0 : n.evt.flag j0 = true) : ((sqActs s k n)).evt.flag j0 = true := by
  unfold sqActs
  (repeat' split) <;> (try simp (maxDischargeDepth := 12) (contextual := true) [hj0, sqAction_flag, flag_foldl, flag_ite]) <;> (try intros) <;> (repeat' split) <;> (try simp_all (maxDischargeDepth := 12) (contextual := true) [hj0, sqAction_flag, flag_foldl, flag_ite])

theorem sqAside_flag (s k : Nat) (n : Node) (j0 : Nat) (hj0 : n.evt.flag j0 = true) : ((sqAside s k n)).evt.flag j0 = true := by
  unfold sqAside
  have hw : ∀ f k b m, m.evt.flag j0 = true → (sqChain s f k b m).evt.flag j0 = true := by
    intro f
    induction f with
    | zero => intro k b m hm; exact hm
    | succ f ih =>
      intro k b m hm
      unfold sqChain
      dsimp only
      (repeat' split) <;> first | exact hm | exact ih _ _ _ (sqActs_flag _ _ _ _ hm) | exact sqActs_flag _ _ _ _ hm
  exact hw _ _ _ _ hj0

theorem sqHold_flag (s cause : Nat) (n : Node) (j0 : Nat) (hj0 : n.evt.flag j0 = true) : ((sqHold s cause n)).evt.flag j0 = true := by
  unfold sqHold
  (repeat' split) <;> simp (maxDischargeDepth := 12) [hj0, modSq_flag, sqAside_flag, raise_flag', flag_foldl, flag_ite]

theorem sqAcked_flag (s : Nat) (n : Node) (j0 : Nat) (hj0 : n.evt.flag j0 = true) : ((sqAcked s n)).evt.flag j0 = true := by
  unfold sqAcked
  (repeat' split) <;> simp (maxDischargeDepth := 12) [hj0, modSq_flag, sqActs_flag, flag_foldl, flag_ite]

theorem sqAckAll_flag (n : Node) (j0 : Nat) (hj0 : n.evt.flag j0 = true) : ((sqAckAll n)).evt.flag j0 = true := by
  unfold sqAckAll
  (repeat' split) <;> (try simp (maxDischargeDepth := 12) (contextual := true) [hj0, modSq_flag, sqActs_flag, flag_foldl, flag_ite]) <;> (try intros) <;> (repeat' split) <;> (try simp_all (maxDischargeDepth := 12) (contextual := true) [hj0, modSq_flag, sqActs_flag, flag_foldl, flag_ite])

theorem sqEnter1_flag (s k : Nat) (n : Node) (j0 : Nat) (hj0 : n.evt.flag j0 = true) : ((sqEnter1 s k n)).evt.flag j0 = true := by
  unfold sqEnter1
  (repeat' split) <;> simp (maxDischargeDepth := 12) [hj0, modSq_flag, sqActs_flag, raise_flag', flag_foldl, flag_ite]

theorem sqTo_flag (s code : Nat) (n : Node) (j0 : Nat) (hj0 : n.evt.flag j0 = true) : ((sqTo s code n)).evt.flag j0 = true := by
  unfold sqTo
  have hw : ∀ f c m, m.evt.flag j0 = true → (sqGoto s f c m).evt.flag j0 = true := by
    intro f
    induction f with
    | zero => intro c m hm; exact hm
    | succ f ih =>
      intro c m hm
      unfold sqGoto
      dsimp only
      (repeat' split) <;> simp (maxDischargeDepth := 12) [ih, sqHold_flag, raise_flag', modSq_flag, sqEnter1_flag, hm]
  exact hw _ _ _ hj0

theorem sqResume_flag (s : Nat) (n : Node) (j0 : Nat) (hj0 : n.evt.flag j0 = true) : ((sqResume s n)).evt.flag j0 = true := by
  unfold sqResume
  (repeat' split) <;> simp (maxDischargeDepth := 12) [hj0, modSq_flag, sqAside_flag, flag_foldl, flag_ite]

theorem sqStart_flag (s k : Nat) (n : Node) (j0 : Nat) (hj0 : n.evt.flag j0 = true) : ((sqStart s k n)).evt.flag j0 = true := by
  unfold sqStart
  (repeat' split) <;> simp (maxDischargeDepth := 12) [hj0, modSq_flag, sqTo_flag, flag_foldl, flag_ite]

theorem sqCommand_flag (s : Nat) (n : Node) (v : Word) (j0 : Nat) (hj0 : n.evt.flag j0 = true) : ((sqCommand s n v)).evt.flag j0 = true := by
  unfold sqCommand
  (repeat' split) <;> simp (maxDischargeDepth := 12) [hj0, modSq_flag, sqAside_flag, sqHold_flag, sqResume_flag, sqStart_flag, sqTo_flag, flag_foldl, flag_ite]

theorem sqTimeout_flag (s : Nat) (n : Node) (j0 : Nat) (hj0 : n.evt.flag j0 = true) : ((sqTimeout s n)).evt.flag j0 = true := by
  unfold sqTimeout
  (repeat' split) <;> simp (maxDischargeDepth := 12) [hj0, setSq_flag, sqTo_flag, raise_flag', flag_foldl, flag_ite]

theorem sqHoldWork_flag (s : Nat) (n : Node) (j0 : Nat) (hj0 : n.evt.flag j0 = true) : ((sqHoldWork s n)).evt.flag j0 = true := by
  unfold sqHoldWork
  (repeat' split) <;> simp (maxDischargeDepth := 12) [hj0, sqHold_flag, sqResume_flag, flag_foldl, flag_ite]

theorem sqStepWork_flag (s : Nat) (n : Node) (j0 : Nat) (hj0 : n.evt.flag j0 = true) : ((sqStepWork s n)).evt.flag j0 = true := by
  unfold sqStepWork
  (repeat' split) <;> simp (maxDischargeDepth := 12) [hj0, sqTimeout_flag, sqTo_flag, flag_foldl, flag_ite]

theorem sqTick_flag (auto : Bool) (n : Node) (s : Nat) (j0 : Nat) (hj0 : n.evt.flag j0 = true) : ((sqTick auto n s)).evt.flag j0 = true := by
  unfold sqTick
  (repeat' split) <;> (try simp (maxDischargeDepth := 12) (contextual := true) [hj0, modSq_flag, sqCommand_flag, sqHoldWork_flag, sqStart_flag, sqStepWork_flag, flag_foldl, flag_ite]) <;> (try intros) <;> (repeat' split) <;> (try simp_all (maxDischargeDepth := 12) (contextual := true) [hj0, modSq_flag, sqCommand_flag, sqHoldWork_flag, sqStart_flag, sqStepWork_flag, flag_foldl, flag_ite])

theorem seqScan_flag (n : Node) (j0 : Nat) (hj0 : n.evt.flag j0 = true) : ((seqScan n)).evt.flag j0 = true := by
  unfold seqScan
  (repeat' split) <;> (try simp (maxDischargeDepth := 12) (contextual := true) [hj0, sqTick_flag, flag_foldl, flag_ite]) <;> (try intros) <;> (repeat' split) <;> (try simp_all (maxDischargeDepth := 12) (contextual := true) [hj0, sqTick_flag, flag_foldl, flag_ite])

theorem seqHalt_flag (n : Node) (j0 : Nat) (hj0 : n.evt.flag j0 = true) : ((seqHalt n)).evt.flag j0 = true := by
  unfold seqHalt
  (repeat' split) <;> (try simp (maxDischargeDepth := 12) (contextual := true) [hj0, sqHold_flag, flag_foldl, flag_ite]) <;> (try intros) <;> (repeat' split) <;> (try simp_all (maxDischargeDepth := 12) (contextual := true) [hj0, sqHold_flag, flag_foldl, flag_ite])

theorem seqRunEntry_flag (n : Node) (j0 : Nat) : ((seqRunEntry n)).evt.flag j0 = n.evt.flag j0 :=
  congrArg (fun e => Events.flag e j0) (seqRunEntry_get (pt := .evt) n (by simp))

theorem seqApply_flag (n : Node) (j0 : Nat) : ((seqApply n)).evt.flag j0 = n.evt.flag j0 :=
  congrArg (fun e => Events.flag e j0) (seqApply_get (pt := .evt) n (by simp))

theorem seqReplace_flag (n : Node) (j0 : Nat) (hj0 : n.evt.flag j0 = true) : ((seqReplace n)).evt.flag j0 = true := by
  unfold seqReplace
  (repeat' split) <;> (try simp (maxDischargeDepth := 12) (contextual := true) [hj0, setSq_flag, sqAside_flag, raise_flag', flag_foldl, flag_ite]) <;> (try intros) <;> (repeat' split) <;> (try simp_all (maxDischargeDepth := 12) (contextual := true) [hj0, setSq_flag, sqAside_flag, raise_flag', flag_foldl, flag_ite])

theorem seqCtrlWrite_flag (s : Nat) (v : Word) (n : Node) (j0 : Nat) : ((seqCtrlWrite s v n)).evt.flag j0 = n.evt.flag j0 :=
  congrArg (fun e => Events.flag e j0) (seqCtrlWrite_get (pt := .evt) s v n (by simp))

theorem seqWrite_flag (addr : Nat) (v : Word) (n : Node) (j0 : Nat) : ((seqWrite addr v n)).evt.flag j0 = n.evt.flag j0 :=
  congrArg (fun e => Events.flag e j0) (seqWrite_get (pt := .evt) addr v n (by simp))

theorem setRg_flag (k : Nat) (x : Rg) (n : Node) (j0 : Nat) : ((setRg k x n)).evt.flag j0 = n.evt.flag j0 :=
  congrArg (fun e => Events.flag e j0) (setRg_get (pt := .evt) k x n (by simp))

theorem modRg_flag (k : Nat) (f : Rg → Rg) (n : Node) (j0 : Nat) : ((modRg k f n)).evt.flag j0 = n.evt.flag j0 :=
  congrArg (fun e => Events.flag e j0) (modRg_get (pt := .evt) k f n (by simp))

theorem drawRect_flag (x y w h : Nat) (img : Bytes) (n : Node) (j0 : Nat) : ((drawRect x y w h img n)).evt.flag j0 = n.evt.flag j0 :=
  congrArg (fun e => Events.flag e j0) (drawRect_get (pt := .evt) x y w h img n (by simp))

theorem drawOutside_flag (n : Node) (j0 : Nat) : ((drawOutside n)).evt.flag j0 = n.evt.flag j0 :=
  congrArg (fun e => Events.flag e j0) (drawOutside_get (pt := .evt) n (by simp))

theorem dspRequest_flag (k : Nat) (m0 : Bool) (n : Node) (j0 : Nat) : ((dspRequest k m0 n)).evt.flag j0 = n.evt.flag j0 :=
  congrArg (fun e => Events.flag e j0) (dspRequest_get (pt := .evt) k m0 n (by simp))

theorem dspHost_flag (v : Word) (m0 : Bool) (n : Node) (j0 : Nat) : ((dspHost v m0 n)).evt.flag j0 = n.evt.flag j0 :=
  congrArg (fun e => Events.flag e j0) (dspHost_get (pt := .evt) v m0 n (by simp))

theorem dspEngine_flag (k t : Nat) (n : Node) (j0 : Nat) : ((dspEngine k t n)).evt.flag j0 = n.evt.flag j0 :=
  congrArg (fun e => Events.flag e j0) (dspEngine_get (pt := .evt) k t n (by simp))

theorem renderStart_flag (n : Node) (k : Nat) (j0 : Nat) : ((renderStart n k)).evt.flag j0 = n.evt.flag j0 :=
  congrArg (fun e => Events.flag e j0) (renderStart_get (pt := .evt) n k (by simp))

theorem dspScan_flag (n : Node) (j0 : Nat) : ((dspScan n)).evt.flag j0 = n.evt.flag j0 :=
  congrArg (fun e => Events.flag e j0) (dspScan_get (pt := .evt) n (by simp))

theorem dspRender_flag (k start t : Nat) (n : Node) (j0 : Nat) : ((dspRender k start t n)).evt.flag j0 = n.evt.flag j0 :=
  congrArg (fun e => Events.flag e j0) (dspRender_get (pt := .evt) k start t n (by simp))

theorem dspBand_flag (n : Node) (j0 : Nat) (hj0 : n.evt.flag j0 = true) : ((dspBand n).2).evt.flag j0 = true := by
  unfold dspBand
  (repeat' split) <;> simp (maxDischargeDepth := 12) [hj0, raiseIf_flag, flag_foldl, flag_ite]

theorem dspStart_flag (k t : Nat) (n : Node) (j0 : Nat) (hj0 : n.evt.flag j0 = true) : ((dspStart k t n)).evt.flag j0 = true := by
  unfold dspStart
  have e := (dspBand_flag n j0 hj0)
  cases h : dspBand n with | mk b n1 =>
  rw [h] at e
  dsimp only at e ⊢
  (repeat' split) <;> first | exact hj0 | simp (maxDischargeDepth := 12) (contextual := true) [hj0, dspBand_flag, setRg_flag, flag_foldl, flag_ite, e]

theorem dspDone_flag (k : Nat) (n : Node) (j0 : Nat) (hj0 : n.evt.flag j0 = true) : ((dspDone k n)).evt.flag j0 = true := by
  unfold dspDone
  (repeat' split) <;> simp (maxDischargeDepth := 12) [hj0, drawRect_flag, setRg_flag, raise_flag', flag_foldl, flag_ite]

theorem dspAdvance_flag (n : Node) (k : Nat) (j0 : Nat) (hj0 : n.evt.flag j0 = true) : ((dspAdvance n k)).evt.flag j0 = true := by
  unfold dspAdvance
  (repeat' split) <;> simp (maxDischargeDepth := 12) [hj0, dspDone_flag, setRg_flag, flag_foldl, flag_ite]

theorem dspBgAdvance_flag (n : Node) (j0 : Nat) (hj0 : n.evt.flag j0 = true) : ((dspBgAdvance n)).evt.flag j0 = true := by
  unfold dspBgAdvance
  (repeat' split) <;> simp (maxDischargeDepth := 12) [hj0, drawOutside_flag, raise_flag', flag_foldl, flag_ite]

theorem dspBgStart_flag (n : Node) (j0 : Nat) (hj0 : n.evt.flag j0 = true) : ((dspBgStart n)).evt.flag j0 = true := by
  unfold dspBgStart
  have e := (dspBand_flag n j0 hj0)
  cases h : dspBand n with | mk b n1 =>
  rw [h] at e
  dsimp only at e ⊢
  (repeat' split) <;> first | exact hj0 | simp (maxDischargeDepth := 12) (contextual := true) [hj0, dspBand_flag, flag_foldl, flag_ite, e]

theorem dspFlip_flag (n : Node) (u : Nat × Nat) (j0 : Nat) : ((dspFlip n u)).evt.flag j0 = n.evt.flag j0 :=
  congrArg (fun e => Events.flag e j0) (dspFlip_get (pt := .evt) n u (by simp))

theorem dspCheck_flag (n : Node) (k : Nat) (j0 : Nat) (hj0 : n.evt.flag j0 = true) : ((dspCheck n k)).evt.flag j0 = true := by
  unfold dspCheck
  (repeat' split) <;> simp (maxDischargeDepth := 12) [hj0, setRg_flag, raise_flag', flag_foldl, flag_ite]

theorem dspDischarge_flag (fault : Bool) (n : Node) (j0 : Nat) : ((dspDischarge fault n)).evt.flag j0 = n.evt.flag j0 :=
  congrArg (fun e => Events.flag e j0) (dspDischarge_get (pt := .evt) fault n (by simp))

theorem dspAbandon_flag (n : Node) (j0 : Nat) : ((dspAbandon n)).evt.flag j0 = n.evt.flag j0 :=
  congrArg (fun e => Events.flag e j0) (dspAbandon_get (pt := .evt) n (by simp))

theorem dspStop_flag (n : Node) (j0 : Nat) : ((dspStop n)).evt.flag j0 = n.evt.flag j0 :=
  congrArg (fun e => Events.flag e j0) (dspStop_get (pt := .evt) n (by simp))

theorem dspCut_flag (n : Node) (j0 : Nat) : ((dspCut n)).evt.flag j0 = n.evt.flag j0 :=
  congrArg (fun e => Events.flag e j0) (dspCut_get (pt := .evt) n (by simp))

theorem dspRise_flag (t : Nat) (n : Node) (j0 : Nat) : ((dspRise t n)).evt.flag j0 = n.evt.flag j0 :=
  congrArg (fun e => Events.flag e j0) (dspRise_get (pt := .evt) t n (by simp))

theorem dspRiseStep_flag (t : Nat) (n : Node) (j0 : Nat) : ((dspRiseStep t n)).evt.flag j0 = n.evt.flag j0 :=
  congrArg (fun e => Events.flag e j0) (dspRiseStep_get (pt := .evt) t n (by simp))

theorem dspFault_flag (n : Node) (j0 : Nat) (hj0 : n.evt.flag j0 = true) : ((dspFault n)).evt.flag j0 = true := by
  unfold dspFault
  (repeat' split) <;> simp (maxDischargeDepth := 12) [hj0, dspAbandon_flag, dspDischarge_flag, raise_flag', flag_foldl, flag_ite]

theorem dspDisStep_flag (t : Nat) (n : Node) (j0 : Nat) : ((dspDisStep t n)).evt.flag j0 = n.evt.flag j0 :=
  congrArg (fun e => Events.flag e j0) (dspDisStep_get (pt := .evt) t n (by simp))

theorem dspFrame_flag (upsets : List (Nat × Nat)) (t : Nat) (n : Node) (j0 : Nat) (hj0 : n.evt.flag j0 = true) : ((dspFrame upsets t n)).evt.flag j0 = true := by
  unfold dspFrame
  have h0 : (upsets.foldl dspFlip n).evt.flag j0 = true := flag_foldl _ _ _ _ hj0 (fun m a hm => (dspFlip_flag _ _ _).trans hm)
  dsimp only
  split
  · exact h0
  have h1 : ((List.range 32).foldl dspCheck (upsets.foldl dspFlip n)).evt.flag j0 = true :=
    flag_foldl _ _ _ _ h0 (fun m a hm => dspCheck_flag _ _ _ hm)
  have h2 : (dspBgAdvance ((List.range 32).foldl dspAdvance ((List.range 32).foldl dspCheck (upsets.foldl dspFlip n)))).evt.flag j0 = true :=
    dspBgAdvance_flag _ _ (flag_foldl _ _ _ _ h1 (fun m a hm => dspAdvance_flag _ _ _ hm))
  generalize dspBgAdvance ((List.range 32).foldl dspAdvance ((List.range 32).foldl dspCheck (upsets.foldl dspFlip n))) = k at h2 ⊢
  split
  · split
    · exact h2
    · exact (dspDischarge_flag _ _ _).trans h2
  · refine dspBgStart_flag _ _ (flag_foldl _ _ _ _ (flag_foldl _ _ _ _ h2 (fun m a hm => ?_)) (fun m a hm => dspStart_flag _ _ _ _ hm))
    (repeat' split) <;> first | exact hm | (rw [dspRequest_flag]; exact hm)

theorem dspReady_flag (t : Nat) (n : Node) (j0 : Nat) : ((dspReady t n)).evt.flag j0 = n.evt.flag j0 :=
  congrArg (fun e => Events.flag e j0) (dspReady_get (pt := .evt) t n (by simp))

theorem dspSafe_flag (n : Node) (j0 : Nat) : ((dspSafe n)).evt.flag j0 = n.evt.flag j0 :=
  congrArg (fun e => Events.flag e j0) (dspSafe_get (pt := .evt) n (by simp))

theorem dspFit_flag (n : Node) (j0 : Nat) : ((dspFit n)).evt.flag j0 = n.evt.flag j0 :=
  congrArg (fun e => Events.flag e j0) (dspFit_get (pt := .evt) n (by simp))

theorem dspAnew_flag (n : Node) (j0 : Nat) : ((dspAnew n)).evt.flag j0 = n.evt.flag j0 :=
  congrArg (fun e => Events.flag e j0) (dspAnew_get (pt := .evt) n (by simp))

theorem dspApply_flag (n : Node) (j0 : Nat) : ((dspApply n)).evt.flag j0 = n.evt.flag j0 :=
  congrArg (fun e => Events.flag e j0) (dspApply_get (pt := .evt) n (by simp))

theorem dspReplace_flag (old : Nat → Bytes) (oldItems : Nat → List Bytes) (n : Node) (j0 : Nat) : ((dspReplace old oldItems n)).evt.flag j0 = n.evt.flag j0 :=
  congrArg (fun e => Events.flag e j0) (dspReplace_get (pt := .evt) old oldItems n (by simp))

theorem dspCtrl_flag (v : Word) (n : Node) (j0 : Nat) : ((dspCtrl v n)).evt.flag j0 = n.evt.flag j0 :=
  congrArg (fun e => Events.flag e j0) (dspCtrl_get (pt := .evt) v n (by simp))

theorem dspWrite_flag (addr : Nat) (v : Word) (n : Node) (j0 : Nat) : ((dspWrite addr v n)).evt.flag j0 = n.evt.flag j0 :=
  congrArg (fun e => Events.flag e j0) (dspWrite_get (pt := .evt) addr v n (by simp))

theorem sendFrame_flag (c : TxChan) (dest : Nat) (b : Bytes) (n : Node) (j0 : Nat) : ((sendFrame c dest b n)).evt.flag j0 = n.evt.flag j0 :=
  congrArg (fun e => Events.flag e j0) (sendFrame_get (pt := .evt) c dest b n (by simp))

theorem safeEntry_flag (cause : Nat) (n : Node) (j0 : Nat) (hj0 : n.evt.flag j0 = true) : ((safeEntry cause n)).evt.flag j0 = true := by
  unfold safeEntry
  (repeat' split) <;> simp (maxDischargeDepth := 12) [hj0, caStop_flag, dspSafe_flag, enter_flag, exRefresh_flag, lnTestsAbort_flag, loSafeEntry_flag, uiStop_flag, flag_foldl, flag_ite]

theorem runEntry_flag (t : Nat) (n : Node) (j0 : Nat) (hj0 : n.evt.flag j0 = true) : ((runEntry t n)).evt.flag j0 = true := by
  unfold runEntry
  (repeat' split) <;> simp (maxDischargeDepth := 12) [hj0, enter_flag, exRefresh_flag, lnRunEntry_flag, loRunEntry_flag, seqRunEntry_flag, ssInit_flag, tpRunEntry_flag, flag_foldl, flag_ite]

theorem haltEffect_flag (t : Nat) (n : Node) (j0 : Nat) (hj0 : n.evt.flag j0 = true) : ((haltEffect t n)).evt.flag j0 = true := by
  unfold haltEffect
  (repeat' split) <;> simp (maxDischargeDepth := 12) [hj0, enter_flag, exRefresh_flag, lnTestsAbort_flag, loSafeEntry_flag, seqHalt_flag, flag_foldl, flag_ite]

theorem keepOutputs_flag (n : Node) (b : Node) (j0 : Nat) : ((keepOutputs n b)).evt.flag j0 = b.evt.flag j0 :=
  congrArg (fun e => Events.flag e j0) (keepOutputs_get (pt := .evt) n b (by simp))

theorem devCtrl_flag (key : BitVec 16) (cmd : Nat) (n : Node) (j0 : Nat) (hj0 : n.evt.flag j0 = true) : ((devCtrl key cmd n).1).evt.flag j0 = true := by
  unfold devCtrl
  (repeat' split) <;> simp (maxDischargeDepth := 12) [hj0, safeEntry_flag, flag_foldl, flag_ite]

theorem feedSet_flag (b ok : Bool) (n : Node) (j0 : Nat) (hj0 : n.evt.flag j0 = true) : ((feedSet b ok n)).evt.flag j0 = true := by
  unfold feedSet
  (repeat' split) <;> simp (maxDischargeDepth := 12) [hj0, raiseIf_flag, recNote_flag, flag_foldl, flag_ite]

theorem overtempSet_flag (on : Bool) (n : Node) (j0 : Nat) (hj0 : n.evt.flag j0 = true) : ((overtempSet on n)).evt.flag j0 = true := by
  unfold overtempSet
  (repeat' split) <;> simp (maxDischargeDepth := 12) [hj0, raiseIf_flag, recNote_flag, flag_foldl, flag_ite]

theorem islFltMark_flag (i : Nat) (n : Node) (j0 : Nat) (hj0 : n.evt.flag j0 = true) : ((islFltMark i n)).evt.flag j0 = true := by
  unfold islFltMark
  (repeat' split) <;> simp (maxDischargeDepth := 12) [hj0, raise_flag', flag_foldl, flag_ite]

theorem exHandOver_flag (n : Node) (j0 : Nat) : ((exHandOver n)).evt.flag j0 = n.evt.flag j0 :=
  congrArg (fun e => Events.flag e j0) (exHandOver_get (pt := .evt) n (by simp))

theorem setRole_flag (r : DupRole) (n : Node) (j0 : Nat) (hj0 : n.evt.flag j0 = true) : ((setRole r n)).evt.flag j0 = true := by
  unfold setRole
  (repeat' split) <;> simp (maxDischargeDepth := 12) [hj0, caRole_flag, exHandOver_flag, recNote_flag, sqAckAll_flag, raise_flag', flag_foldl, flag_ite]

theorem setPElig_flag (e : Bool) (n : Node) (j0 : Nat) (hj0 : n.evt.flag j0 = true) : ((setPElig e n)).evt.flag j0 = true := by
  unfold setPElig
  (repeat' split) <;> simp (maxDischargeDepth := 12) [hj0, raiseIf_flag, setRole_flag, flag_foldl, flag_ite]

theorem sendHello_flag (n : Node) (j0 : Nat) : ((sendHello n)).evt.flag j0 = n.evt.flag j0 :=
  congrArg (fun e => Events.flag e j0) (sendHello_get (pt := .evt) n (by simp))

theorem sendBeacons_flag (n : Node) (j0 : Nat) : ((sendBeacons n)).evt.flag j0 = n.evt.flag j0 :=
  congrArg (fun e => Events.flag e j0) (sendBeacons_get (pt := .evt) n (by simp))

theorem laneFrame_flag (lane : Bool) (t : Nat) (n : Node) (j0 : Nat) : ((laneFrame lane t n)).evt.flag j0 = n.evt.flag j0 :=
  congrArg (fun e => Events.flag e j0) (laneFrame_get (pt := .evt) lane t n (by simp))

theorem slBeacon_flag (lane ready elig roleIn : Bool) (t : Nat) (n : Node) (j0 : Nat) (hj0 : n.evt.flag j0 = true) : ((slBeacon lane ready elig roleIn t n)).evt.flag j0 = true := by
  unfold slBeacon
  (repeat' split) <;> simp (maxDischargeDepth := 12) [hj0, laneFrame_flag, setPElig_flag, flag_foldl, flag_ite]

theorem slCrcError_flag (lane : Bool) (n : Node) (j0 : Nat) : ((slCrcError lane n)).evt.flag j0 = n.evt.flag j0 :=
  congrArg (fun e => Events.flag e j0) (slCrcError_get (pt := .evt) lane n (by simp))

theorem laneDown_flag (lane : Bool) (t : Nat) (n : Node) (j0 : Nat) : ((laneDown lane t n)).evt.flag j0 = n.evt.flag j0 :=
  congrArg (fun e => Events.flag e j0) (laneDown_get (pt := .evt) lane t n (by simp))

theorem linkLost_flag (t : Nat) (n : Node) (j0 : Nat) (hj0 : n.evt.flag j0 = true) : ((linkLost t n)).evt.flag j0 = true := by
  unfold linkLost
  (repeat' split) <;> simp (maxDischargeDepth := 12) [hj0, islFltMark_flag, setRole_flag, raise_flag', flag_foldl, flag_ite]

theorem standbyAtReady_flag (n : Node) (j0 : Nat) (hj0 : n.evt.flag j0 = true) : ((standbyAtReady n)).evt.flag j0 = true := by
  unfold standbyAtReady
  (repeat' split) <;> simp (maxDischargeDepth := 12) [hj0, setRole_flag, flag_foldl, flag_ite]

theorem carryAtReady_flag (r : DupRole) (n : Node) (j0 : Nat) (hj0 : n.evt.flag j0 = true) : ((carryAtReady r n)).evt.flag j0 = true := by
  unfold carryAtReady
  (repeat' split) <;> simp (maxDischargeDepth := 12) [hj0, setRole_flag, flag_foldl, flag_ite]

theorem roleSettle_flag (roleIn : Bool) (t : Nat) (n : Node) (j0 : Nat) (hj0 : n.evt.flag j0 = true) : ((roleSettle roleIn t n)).evt.flag j0 = true := by
  unfold roleSettle
  (repeat' split) <;> simp (maxDischargeDepth := 12) [hj0, standbyAtReady_flag, flag_foldl, flag_ite]

theorem findTimeout_flag (roleIn : Bool) (t : Nat) (n : Node) (j0 : Nat) (hj0 : n.evt.flag j0 = true) : ((findTimeout roleIn t n)).evt.flag j0 = true := by
  unfold findTimeout
  (repeat' split) <;> simp (maxDischargeDepth := 12) [hj0, carryAtReady_flag, standbyAtReady_flag, flag_foldl, flag_ite]

theorem offerImage_flag (fmtAcc : Byte) (n : Node) (j0 : Nat) : ((offerImage fmtAcc n)).evt.flag j0 = n.evt.flag j0 :=
  congrArg (fun e => Events.flag e j0) (offerImage_get (pt := .evt) fmtAcc n (by simp))

theorem partnerWaitOver_flag (t : Nat) (n : Node) (j0 : Nat) : ((partnerWaitOver t n)).evt.flag j0 = n.evt.flag j0 :=
  congrArg (fun e => Events.flag e j0) (partnerWaitOver_get (pt := .evt) t n (by simp))

theorem sendMirror_flag (n : Node) (j0 : Nat) : ((sendMirror n)).evt.flag j0 = n.evt.flag j0 :=
  congrArg (fun e => Events.flag e j0) (sendMirror_get (pt := .evt) n (by simp))

theorem applyMirror_flag (m : Mirror) (n : Node) (j0 : Nat) : ((applyMirror m n)).evt.flag j0 = n.evt.flag j0 :=
  congrArg (fun e => Events.flag e j0) (applyMirror_get (pt := .evt) m n (by simp))

theorem divergence_flag (n : Node) (j0 : Nat) (hj0 : n.evt.flag j0 = true) : ((divergence n)).evt.flag j0 = true := by
  unfold divergence
  (repeat' split) <;> simp (maxDischargeDepth := 12) [hj0, raise_flag', flag_foldl, flag_ite]

theorem slMirror_flag (lane : Bool) (m : Option Mirror) (t : Nat) (n : Node) (j0 : Nat) (hj0 : n.evt.flag j0 = true) : ((slMirror lane m t n)).evt.flag j0 = true := by
  unfold slMirror
  (repeat' split) <;> simp (maxDischargeDepth := 12) [hj0, divergence_flag, laneFrame_flag, slCrcError_flag, flag_foldl, flag_ite]

theorem mirrorTick_flag (n : Node) (j0 : Nat) (hj0 : n.evt.flag j0 = true) : ((mirrorTick n)).evt.flag j0 = true := by
  unfold mirrorTick
  (repeat' split) <;> simp (maxDischargeDepth := 12) [hj0, applyMirror_flag, divergence_flag, sendMirror_flag, srcSync_flag, flag_foldl, flag_ite]

theorem slOutcmd_flag (c : OutCmd) (n : Node) (j0 : Nat) : ((slOutcmd c n)).evt.flag j0 = n.evt.flag j0 :=
  congrArg (fun e => Events.flag e j0) (slOutcmd_get (pt := .evt) c n (by simp))

theorem slSeqstep_flag (s k : Nat) (n : Node) (j0 : Nat) : ((slSeqstep s k n)).evt.flag j0 = n.evt.flag j0 :=
  congrArg (fun e => Events.flag e j0) (slSeqstep_get (pt := .evt) s k n (by simp))

theorem takeOver_flag (t : Nat) (n : Node) (j0 : Nat) (hj0 : n.evt.flag j0 = true) : ((takeOver t n)).evt.flag j0 = true := by
  unfold takeOver
  (repeat' split) <;> simp (maxDischargeDepth := 12) [hj0, loRunEntry_flag, raiseIf_flag, setRole_flag, flag_foldl, flag_ite]

theorem slStandDown_flag (t : Nat) (n : Node) (j0 : Nat) (hj0 : n.evt.flag j0 = true) : ((slStandDown t n)).evt.flag j0 = true := by
  unfold slStandDown
  (repeat' split) <;> simp (maxDischargeDepth := 12) [hj0, setPElig_flag, setRole_flag, takeOver_flag, flag_foldl, flag_ite]

theorem roleInLow_flag (t : Nat) (n : Node) (j0 : Nat) (hj0 : n.evt.flag j0 = true) : ((roleInLow t n)).evt.flag j0 = true := by
  unfold roleInLow
  (repeat' split) <;> simp (maxDischargeDepth := 12) [hj0, takeOver_flag, flag_foldl, flag_ite]

theorem overlapEnd_flag (t : Nat) (n : Node) (j0 : Nat) : ((overlapEnd t n)).evt.flag j0 = n.evt.flag j0 :=
  congrArg (fun e => Events.flag e j0) (overlapEnd_get (pt := .evt) t n (by simp))

theorem crossRampEnd_flag (t : Nat) (n : Node) (j0 : Nat) : ((crossRampEnd t n)).evt.flag j0 = n.evt.flag j0 :=
  congrArg (fun e => Events.flag e j0) (crossRampEnd_get (pt := .evt) t n (by simp))

theorem latch_flag (n : Node) (j0 : Nat) : ((latch n)).evt.flag j0 = n.evt.flag j0 :=
  congrArg (fun e => Events.flag e j0) (latch_get (pt := .evt) n (by simp))

theorem relIn_flag (n : Node) (j0 : Nat) : ((relIn n)).evt.flag j0 = n.evt.flag j0 :=
  congrArg (fun e => Events.flag e j0) (relIn_get (pt := .evt) n (by simp))

theorem holdTimeout_flag (t : Nat) (n : Node) (j0 : Nat) : ((holdTimeout t n)).evt.flag j0 = n.evt.flag j0 :=
  congrArg (fun e => Events.flag e j0) (holdTimeout_get (pt := .evt) t n (by simp))

theorem standDownNote_flag (n : Node) (j0 : Nat) (hj0 : n.evt.flag j0 = true) : ((standDownNote n)).evt.flag j0 = true := by
  unfold standDownNote
  (repeat' split) <;> simp (maxDischargeDepth := 12) [hj0, recNote_flag, raise_flag', flag_foldl, flag_ite]

theorem moduleFault_flag (cause : Nat) (n : Node) (j0 : Nat) (hj0 : n.evt.flag j0 = true) : ((moduleFault cause n)).evt.flag j0 = true := by
  unfold moduleFault
  (repeat' split) <;> simp (maxDischargeDepth := 12) [hj0, latch_flag, safeEntry_flag, sendFrame_flag, setRole_flag, standDownNote_flag, flag_foldl, flag_ite]

theorem swapSkip_flag (n : Node) (j0 : Nat) : ((swapSkip n)).evt.flag j0 = n.evt.flag j0 :=
  congrArg (fun e => Events.flag e j0) (swapSkip_get (pt := .evt) n (by simp))

theorem swapFrame_flag (m : SwapMsg) (n : Node) (j0 : Nat) : ((swapFrame m n)).evt.flag j0 = n.evt.flag j0 :=
  congrArg (fun e => Events.flag e j0) (swapFrame_get (pt := .evt) m n (by simp))

theorem swapPropose_flag (reclaim : Bool) (n : Node) (j0 : Nat) : ((swapPropose reclaim n)).evt.flag j0 = n.evt.flag j0 :=
  congrArg (fun e => Events.flag e j0) (swapPropose_get (pt := .evt) reclaim n (by simp))

theorem swapAgree_flag (reclaim : Bool) (n : Node) (j0 : Nat) (hj0 : n.evt.flag j0 = true) : ((swapAgree reclaim n)).evt.flag j0 = true := by
  unfold swapAgree
  (repeat' split) <;> simp (maxDischargeDepth := 12) [hj0, raise_flag', flag_foldl, flag_ite]

theorem slSwap_flag (m : SwapMsg) (n : Node) (j0 : Nat) (hj0 : n.evt.flag j0 = true) : ((slSwap m n)).evt.flag j0 = true := by
  unfold slSwap
  (repeat' split) <;> simp (maxDischargeDepth := 12) [hj0, swapAgree_flag, swapFrame_flag, swapSkip_flag, flag_foldl, flag_ite]

theorem swapExecute_flag (t : Nat) (n : Node) (j0 : Nat) (hj0 : n.evt.flag j0 = true) : ((swapExecute t n)).evt.flag j0 = true := by
  unfold swapExecute
  (repeat' split) <;> simp (maxDischargeDepth := 12) [hj0, latch_flag, sendMirror_flag, setRole_flag, swapSkip_flag, flag_foldl, flag_ite]

theorem reclaim_flag (n : Node) (j0 : Nat) : ((reclaim n)).evt.flag j0 = n.evt.flag j0 :=
  congrArg (fun e => Events.flag e j0) (reclaim_get (pt := .evt) n (by simp))

theorem swapSecond_flag (n : Node) (j0 : Nat) : ((swapSecond n)).evt.flag j0 = n.evt.flag j0 :=
  congrArg (fun e => Events.flag e j0) (swapSecond_get (pt := .evt) n (by simp))

theorem peerResetCount_flag (n : Node) (j0 : Nat) : ((peerResetCount n)).evt.flag j0 = n.evt.flag j0 :=
  congrArg (fun e => Events.flag e j0) (peerResetCount_get (pt := .evt) n (by simp))

theorem sendPeerReset_flag (n : Node) (j0 : Nat) : ((sendPeerReset n)).evt.flag j0 = n.evt.flag j0 :=
  congrArg (fun e => Events.flag e j0) (sendPeerReset_get (pt := .evt) n (by simp))

theorem rejoinReset_flag (t : Nat) (n : Node) (j0 : Nat) : ((rejoinReset t n)).evt.flag j0 = n.evt.flag j0 :=
  congrArg (fun e => Events.flag e j0) (rejoinReset_get (pt := .evt) t n (by simp))

theorem fwAddrWrite_flag (v : Word) (n : Node) (j0 : Nat) : ((fwAddrWrite v n)).evt.flag j0 = n.evt.flag j0 :=
  congrArg (fun e => Events.flag e j0) (fwAddrWrite_get (pt := .evt) v n (by simp))

theorem fwStaged_flag (n : Node) (j0 : Nat) : ((fwStaged n)).evt.flag j0 = n.evt.flag j0 :=
  congrArg (fun e => Events.flag e j0) (fwStaged_get (pt := .evt) n (by simp))

theorem fwInstall_flag (image : Bytes) (n : Node) (j0 : Nat) : ((fwInstall image n)).evt.flag j0 = n.evt.flag j0 :=
  congrArg (fun e => Events.flag e j0) (fwInstall_get (pt := .evt) image n (by simp))

theorem fwComplete_flag (ok : Bool) (n : Node) (j0 : Nat) : ((fwComplete ok n)).evt.flag j0 = n.evt.flag j0 :=
  congrArg (fun e => Events.flag e j0) (fwComplete_get (pt := .evt) ok n (by simp))

theorem dupRefuse_flag (n : Node) (j0 : Nat) : ((dupRefuse n)).evt.flag j0 = n.evt.flag j0 :=
  congrArg (fun e => Events.flag e j0) (dupRefuse_get (pt := .evt) n (by simp))

theorem dupSwap_flag (n : Node) (j0 : Nat) : ((dupSwap n)).evt.flag j0 = n.evt.flag j0 :=
  congrArg (fun e => Events.flag e j0) (dupSwap_get (pt := .evt) n (by simp))

theorem dupPartnerReset_flag (n : Node) (j0 : Nat) : ((dupPartnerReset n)).evt.flag j0 = n.evt.flag j0 :=
  congrArg (fun e => Events.flag e j0) (dupPartnerReset_get (pt := .evt) n (by simp))

theorem dupStatusWrite_flag (v : Word) (n : Node) (j0 : Nat) : ((dupStatusWrite v n)).evt.flag j0 = n.evt.flag j0 :=
  congrArg (fun e => Events.flag e j0) (dupStatusWrite_get (pt := .evt) v n (by simp))

theorem setEth_flag (b : Bool) (x : EthPort) (n : Node) (j0 : Nat) : ((setEth b x n)).evt.flag j0 = n.evt.flag j0 :=
  congrArg (fun e => Events.flag e j0) (setEth_get (pt := .evt) b x n (by simp))

theorem ethLink_flag (b up fd : Bool) (n : Node) (j0 : Nat) (hj0 : n.evt.flag j0 = true) : ((ethLink b up fd n)).evt.flag j0 = true := by
  unfold ethLink
  (repeat' split) <;> simp (maxDischargeDepth := 12) [hj0, raiseIf_flag, setEth_flag, flag_foldl, flag_ite]

theorem icmpEcho_flag (b : Bool) (client : Nat) (n : Node) (j0 : Nat) : ((icmpEcho b client n)).evt.flag j0 = n.evt.flag j0 :=
  congrArg (fun e => Events.flag e j0) (icmpEcho_get (pt := .evt) b client n (by simp))

theorem modbusIdle_flag (b : Bool) (client t : Nat) (n : Node) (j0 : Nat) : ((modbusIdle b client t n)).evt.flag j0 = n.evt.flag j0 :=
  congrArg (fun e => Events.flag e j0) (modbusIdle_get (pt := .evt) b client t n (by simp))

theorem modbusTick_flag (n : Node) (j0 : Nat) : ((modbusTick n)).evt.flag j0 = n.evt.flag j0 :=
  congrArg (fun e => Events.flag e j0) (modbusTick_get (pt := .evt) n (by simp))

theorem netApply_flag (n : Node) (j0 : Nat) : ((netApply n)).evt.flag j0 = n.evt.flag j0 :=
  congrArg (fun e => Events.flag e j0) (netApply_get (pt := .evt) n (by simp))

theorem alertFrame_flag (b : Bytes) (n : Node) (j0 : Nat) : ((alertFrame b n)).evt.flag j0 = n.evt.flag j0 :=
  congrArg (fun e => Events.flag e j0) (alertFrame_get (pt := .evt) b n (by simp))

theorem sendAlf_flag (a : AlertRef) (n : Node) (j0 : Nat) : ((sendAlf a n)).evt.flag j0 = n.evt.flag j0 :=
  congrArg (fun e => Events.flag e j0) (sendAlf_get (pt := .evt) a n (by simp))

theorem alertStamp_flag (id : Nat) (n : Node) (j0 : Nat) : ((alertStamp id n)).evt.flag j0 = n.evt.flag j0 :=
  congrArg (fun e => Events.flag e j0) (alertStamp_get (pt := .evt) id n (by simp))

theorem callStamp_flag (n : Node) (s : Nat) (j0 : Nat) : ((callStamp n s)).evt.flag j0 = n.evt.flag j0 :=
  congrArg (fun e => Events.flag e j0) (callStamp_get (pt := .evt) n s (by simp))

theorem alcPeriodic_flag (n : Node) (j0 : Nat) : ((alcPeriodic n)).evt.flag j0 = n.evt.flag j0 :=
  congrArg (fun e => Events.flag e j0) (alcPeriodic_get (pt := .evt) n (by simp))

theorem sendArc_flag (id : Nat) (c : Byte) (n : Node) (j0 : Nat) : ((sendArc id c n)).evt.flag j0 = n.evt.flag j0 :=
  congrArg (fun e => Events.flag e j0) (sendArc_get (pt := .evt) id c n (by simp))

theorem acnDiscard_flag (b : Bool) (n : Node) (j0 : Nat) : ((acnDiscard b n)).evt.flag j0 = n.evt.flag j0 :=
  congrArg (fun e => Events.flag e j0) (acnDiscard_get (pt := .evt) b n (by simp))

theorem acnRequest_flag (b : Bool) (a : Option AlertRef) (n : Node) (j0 : Nat) : ((acnRequest b a n)).evt.flag j0 = n.evt.flag j0 :=
  congrArg (fun e => Events.flag e j0) (acnRequest_get (pt := .evt) b a n (by simp))

theorem acnOther_flag (b : Bool) (a : AcnUse) (n : Node) (j0 : Nat) : ((acnOther b a n)).evt.flag j0 = n.evt.flag j0 :=
  congrArg (fun e => Events.flag e j0) (acnOther_get (pt := .evt) b a n (by simp))

theorem setCan_flag (p : Bool) (x : CanPort) (n : Node) (j0 : Nat) : ((setCan p x n)).evt.flag j0 = n.evt.flag j0 :=
  congrArg (fun e => Events.flag e j0) (setCan_get (pt := .evt) p x n (by simp))

theorem canBusOff_flag (p : Bool) (n : Node) (j0 : Nat) (hj0 : n.evt.flag j0 = true) : ((canBusOff p n)).evt.flag j0 = true := by
  unfold canBusOff
  have e := ((drawFree_flag n j0).trans hj0)
  cases h : drawFree n with | mk b n1 =>
  rw [h] at e
  dsimp only at e ⊢
  (repeat' split) <;> first | exact hj0 | simp (maxDischargeDepth := 12) (contextual := true) [hj0, drawFree_flag, setCan_flag, raise_flag', flag_foldl, flag_ite, e]

theorem canRecover_flag (p : Bool) (n : Node) (j0 : Nat) (hj0 : n.evt.flag j0 = true) : ((canRecover p n)).evt.flag j0 = true := by
  unfold canRecover
  (repeat' split) <;> simp (maxDischargeDepth := 12) [hj0, setCan_flag, raise_flag', flag_foldl, flag_ite]

theorem canImport_flag (f : CanFrame) (t : Nat) (r : Bytes) (n : Node) (j0 : Nat) (hj0 : n.evt.flag j0 = true) : ((canImport f t r n)).evt.flag j0 = true := by
  unfold canImport
  (repeat' split) <;> simp (maxDischargeDepth := 12) [hj0, complete_flag, flag_foldl, flag_ite]

theorem rawPost_flag (f : CanFrame) (n : Node) (j0 : Nat) (hj0 : n.evt.flag j0 = true) : ((rawPost f n)).evt.flag j0 = true := by
  unfold rawPost
  (repeat' split) <;> simp (maxDischargeDepth := 12) [hj0, mbPostMsg_flag, flag_foldl, flag_ite]

theorem canFrame_flag (f : CanFrame) (t : Nat) (n : Node) (j0 : Nat) (hj0 : n.evt.flag j0 = true) : ((canFrame f t n)).evt.flag j0 = true := by
  unfold canFrame
  (repeat' split) <;> (try simp (maxDischargeDepth := 12) (contextual := true) [hj0, canImport_flag, rawPost_flag, flag_foldl, flag_ite]) <;> (try intros) <;> (repeat' split) <;> (try simp_all (maxDischargeDepth := 12) (contextual := true) [hj0, canImport_flag, rawPost_flag, flag_foldl, flag_ite])

theorem canRawSend_flag (ch : Nat) (n : Node) (j0 : Nat) (hj0 : n.evt.flag j0 = true) : ((canRawSend ch n)).evt.flag j0 = true := by
  unfold canRawSend
  (repeat' split) <;> simp (maxDischargeDepth := 12) [hj0, netAck_flag, sendFrame_flag, flag_foldl, flag_ite]

theorem mbUnknown_flag (n : Node) (j0 : Nat) (hj0 : n.evt.flag j0 = true) : ((mbUnknown n)).evt.flag j0 = true := by
  unfold mbUnknown
  (repeat' split) <;> (try simp (maxDischargeDepth := 12) (contextual := true) [hj0, mbAck_flag, flag_foldl, flag_ite]) <;> (try intros) <;> (repeat' split) <;> (try simp_all (maxDischargeDepth := 12) (contextual := true) [hj0, mbAck_flag, flag_foldl, flag_ite])

theorem deliver_flag (r : Record) (n : Node) (e : Entry) (j0 : Nat) : ((deliver r n e)).evt.flag j0 = n.evt.flag j0 :=
  congrArg (fun e => Events.flag e j0) (deliver_get (pt := .evt) r n e (by simp))

theorem storeRecord_flag (r : Record) (n : Node) (j0 : Nat) (hj0 : n.evt.flag j0 = true) : ((storeRecord r n)).evt.flag j0 = true := by
  unfold storeRecord
  (repeat' split) <;> (try simp (maxDischargeDepth := 12) (contextual := true) [hj0, almRecord_flag, deliver_flag, loFollow_flag, pairsOf_flag, poFollow_flag, flag_foldl, flag_ite]) <;> (try intros) <;> (repeat' split) <;> (try simp_all (maxDischargeDepth := 12) (contextual := true) [hj0, almRecord_flag, deliver_flag, loFollow_flag, pairsOf_flag, poFollow_flag, flag_foldl, flag_ite])

theorem drainOne_flag (n : Node) (j0 : Nat) (hj0 : n.evt.flag j0 = true) : ((drainOne n)).evt.flag j0 = true := by
  unfold drainOne
  (repeat' split) <;> simp (maxDischargeDepth := 12) [hj0, storeRecord_flag, flag_foldl, flag_ite]

theorem drain_flag (n : Node) (j0 : Nat) (hj0 : n.evt.flag j0 = true) : ((drain n)).evt.flag j0 = true := by
  unfold drain
  (repeat' split) <;> simp (maxDischargeDepth := 12) [hj0, drainOne_flag, flag_foldl, flag_ite]

theorem staleOne_flag (n : Node) (a : Nat) (j0 : Nat) (hj0 : n.evt.flag j0 = true) : ((staleOne n a)).evt.flag j0 = true := by
  unfold staleOne
  (repeat' split) <;> simp (maxDischargeDepth := 12) [hj0, loFollow_flag, poFollow_flag, raiseIf_flag, flag_foldl, flag_ite]

theorem staleTick_flag (n : Node) (j0 : Nat) (hj0 : n.evt.flag j0 = true) : ((staleTick n)).evt.flag j0 = true := by
  unfold staleTick
  (repeat' split) <;> (try simp (maxDischargeDepth := 12) (contextual := true) [hj0, staleOne_flag, flag_foldl, flag_ite]) <;> (try intros) <;> (repeat' split) <;> (try simp_all (maxDischargeDepth := 12) (contextual := true) [hj0, staleOne_flag, flag_foldl, flag_ite])

theorem valueRead_flag (p : HostPort) (a : Nat) (n : Node) (j0 : Nat) : ((valueRead p a n).2).evt.flag j0 = n.evt.flag j0 :=
  congrArg (fun e => Events.flag e j0) (valueRead_get (pt := .evt) p a n (by simp))

theorem qseqRead_flag (p : HostPort) (a : Nat) (n : Node) (j0 : Nat) : ((qseqRead p a n).2).evt.flag j0 = n.evt.flag j0 :=
  congrArg (fun e => Events.flag e j0) (qseqRead_get (pt := .evt) p a n (by simp))

theorem detourNote_flag (kind idx : Nat) (n : Node) (j0 : Nat) : ((detourNote kind idx n)).evt.flag j0 = n.evt.flag j0 :=
  congrArg (fun e => Events.flag e j0) (detourNote_get (pt := .evt) kind idx n (by simp))

theorem rowReplace_flag (mem row : Nat) (n : Node) (j0 : Nat) (hj0 : n.evt.flag j0 = true) : ((rowReplace mem row n)).evt.flag j0 = true := by
  unfold rowReplace
  (repeat' split) <;> simp (maxDischargeDepth := 12) [hj0, detourNote_flag, raise_flag', flag_foldl, flag_ite]

theorem eccCorrected_flag (n : Node) (j0 : Nat) (hj0 : n.evt.flag j0 = true) : ((eccCorrected n)).evt.flag j0 = true := by
  unfold eccCorrected
  (repeat' split) <;> simp (maxDischargeDepth := 12) [hj0, raise_flag', flag_foldl, flag_ite]

theorem eccUncorrectable_flag (mem row : Nat) (n : Node) (j0 : Nat) (hj0 : n.evt.flag j0 = true) : ((eccUncorrectable mem row n)).evt.flag j0 = true := by
  unfold eccUncorrectable
  (repeat' split) <;> simp (maxDischargeDepth := 12) [hj0, recNote_flag, rowReplace_flag, flag_foldl, flag_ite]

theorem resultLost_flag (a : Nat) (n : Node) (j0 : Nat) (hj0 : n.evt.flag j0 = true) : ((resultLost a n)).evt.flag j0 = true := by
  unfold resultLost
  (repeat' split) <;> simp (maxDischargeDepth := 12) [hj0, loFollow_flag, poFollow_flag, raise_flag', flag_foldl, flag_ite]

theorem eccOnRead_flag (e : Ecc) (a : Nat) (n : Node) (j0 : Nat) (hj0 : n.evt.flag j0 = true) : ((eccOnRead e a n)).evt.flag j0 = true := by
  unfold eccOnRead
  (repeat' split) <;> simp (maxDischargeDepth := 12) [hj0, eccCorrected_flag, eccUncorrectable_flag, resultLost_flag, flag_foldl, flag_ite]

theorem scrubCorrected_flag (mem row t : Nat) (n : Node) (j0 : Nat) (hj0 : n.evt.flag j0 = true) : ((scrubCorrected mem row t n)).evt.flag j0 = true := by
  unfold scrubCorrected
  (repeat' split) <;> simp (maxDischargeDepth := 12) [hj0, eccCorrected_flag, rowReplace_flag, flag_foldl, flag_ite]

theorem scrub_flag (f : ScrubFind) (t : Nat) (n : Node) (j0 : Nat) (hj0 : n.evt.flag j0 = true) : ((scrub f t n)).evt.flag j0 = true := by
  unfold scrub
  (repeat' split) <;> simp (maxDischargeDepth := 12) [hj0, eccUncorrectable_flag, moduleFault_flag, resultLost_flag, scrubCorrected_flag, flag_foldl, flag_ite]

theorem roleTake_flag (b : Nat) (s : RoleState) (n : Node) (j0 : Nat) : ((roleTake b s n)).evt.flag j0 = n.evt.flag j0 :=
  congrArg (fun e => Events.flag e j0) (roleTake_get (pt := .evt) b s n (by simp))

theorem ckptWrite_flag (n : Node) (b : Byte) (j0 : Nat) : ((ckptWrite n b)).evt.flag j0 = n.evt.flag j0 :=
  congrArg (fun e => Events.flag e j0) (ckptWrite_get (pt := .evt) n b (by simp))

theorem checkpoint_flag (n : Node) (j0 : Nat) : ((checkpoint n)).evt.flag j0 = n.evt.flag j0 :=
  congrArg (fun e => Events.flag e j0) (checkpoint_get (pt := .evt) n (by simp))

theorem testDetour_flag (b : Nat) (n : Node) (j0 : Nat) (hj0 : n.evt.flag j0 = true) : ((testDetour b n)).evt.flag j0 = true := by
  unfold testDetour
  (repeat' split) <;> simp [hj0, genEnd_flag]

theorem engineFail_flag (e : Nat) (c : EngCause) (n : Node) (j0 : Nat) (hj0 : n.evt.flag j0 = true) : ((engineFail e c n)).evt.flag j0 = true := by
  unfold engineFail
  (repeat' split) <;> (try simp (maxDischargeDepth := 12) (contextual := true) [hj0, detourNote_flag, moduleFault_flag, testDetour_flag, raise_flag', flag_foldl, flag_ite]) <;> (try intros) <;> (repeat' split) <;> (try simp_all (maxDischargeDepth := 12) (contextual := true) [hj0, detourNote_flag, moduleFault_flag, testDetour_flag, raise_flag', flag_foldl, flag_ite])

theorem spareStart_flag (e : Nat) (n : Node) (j0 : Nat) (hj0 : n.evt.flag j0 = true) : ((spareStart e n)).evt.flag j0 = true := by
  unfold spareStart
  (repeat' split) <;> simp (maxDischargeDepth := 12) [hj0, roleTake_flag, raise_flag', flag_foldl, flag_ite]

theorem spareTick_flag (n : Node) (j0 : Nat) (hj0 : n.evt.flag j0 = true) : ((spareTick n)).evt.flag j0 = true := by
  unfold spareTick
  (repeat' split) <;> (try simp (maxDischargeDepth := 12) (contextual := true) [hj0, spareStart_flag, flag_foldl, flag_ite]) <;> (try intros) <;> (repeat' split) <;> (try simp_all (maxDischargeDepth := 12) (contextual := true) [hj0, spareStart_flag, flag_foldl, flag_ite])

theorem lockstep_flag (n : Node) (j0 : Nat) (hj0 : n.evt.flag j0 = true) : ((lockstep n)).evt.flag j0 = true := by
  unfold lockstep
  (repeat' split) <;> simp (maxDischargeDepth := 12) [hj0, moduleFault_flag, flag_foldl, flag_ite]

theorem selfTest_flag (w : Nat) (pass : Bool) (n : Node) (j0 : Nat) (hj0 : n.evt.flag j0 = true) : ((selfTest w pass n)).evt.flag j0 = true := by
  unfold selfTest
  (repeat' split) <;> simp (maxDischargeDepth := 12) [hj0, engineFail_flag, flag_foldl, flag_ite]

theorem islStops_flag (i : Nat) (n : Node) (j0 : Nat) (hj0 : n.evt.flag j0 = true) : ((islStops i n)).evt.flag j0 = true := by
  unfold islStops
  (repeat' split) <;> simp (maxDischargeDepth := 12) [hj0, caStop_flag, dspCut_flag, uiStop_flag, flag_foldl, flag_ite]

theorem islandFault_flag (i : Nat) (n : Node) (j0 : Nat) (hj0 : n.evt.flag j0 = true) : ((islandFault i n)).evt.flag j0 = true := by
  unfold islandFault
  (repeat' split) <;> simp (maxDischargeDepth := 12) [hj0, islFltMark_flag, islStops_flag, moduleFault_flag, flag_foldl, flag_ite]

theorem causewayTimeout_flag (src dst : Nat) (n : Node) (j0 : Nat) (hj0 : n.evt.flag j0 = true) : ((causewayTimeout src dst n)).evt.flag j0 = true := by
  unfold causewayTimeout
  (repeat' split) <;> simp (maxDischargeDepth := 12) [hj0, islandFault_flag, raise_flag', flag_foldl, flag_ite]

theorem rmFail_flag (src : Nat) (e : RmFail) (n : Node) (j0 : Nat) (hj0 : n.evt.flag j0 = true) : ((rmFail src e n)).evt.flag j0 = true := by
  unfold rmFail
  (repeat' split) <;> simp (maxDischargeDepth := 12) [hj0, raise_flag', flag_foldl, flag_ite]

theorem rmCode_flag (code : Nat) (n : Node) (j0 : Nat) : ((rmCode code n)).evt.flag j0 = n.evt.flag j0 :=
  congrArg (fun e => Events.flag e j0) (rmCode_get (pt := .evt) code n (by simp))

theorem rmRefuse_flag (n : Node) (j0 : Nat) (hj0 : n.evt.flag j0 = true) : ((rmRefuse n)).evt.flag j0 = true := by
  unfold rmRefuse
  (repeat' split) <;> simp (maxDischargeDepth := 12) [hj0, rmCode_flag, raise_flag', flag_foldl, flag_ite]

theorem loadNote_flag (ok : Bool) (n : Node) (j0 : Nat) : ((loadNote ok n)).evt.flag j0 = n.evt.flag j0 :=
  congrArg (fun e => Events.flag e j0) (loadNote_get (pt := .evt) ok n (by simp))

theorem setBankInfo_flag (b : Bool) (x : BankInfo) (n : Node) (j0 : Nat) : ((setBankInfo b x n)).evt.flag j0 = n.evt.flag j0 :=
  congrArg (fun e => Events.flag e j0) (setBankInfo_get (pt := .evt) b x n (by simp))

theorem bankResult_flag (src : LoadSrc) (r : Except RmFail Image) (n : Node) (j0 : Nat) : ((bankResult src r n)).evt.flag j0 = n.evt.flag j0 :=
  congrArg (fun e => Events.flag e j0) (bankResult_get (pt := .evt) src r n (by simp))

theorem loadFailed_flag (e : RmFail) (n : Node) (j0 : Nat) (hj0 : n.evt.flag j0 = true) : ((loadFailed e n)).evt.flag j0 = true := by
  unfold loadFailed
  (repeat' split) <;> simp (maxDischargeDepth := 12) [hj0, bankResult_flag, enter_flag, loadNote_flag, rmFail_flag, flag_foldl, flag_ite]

theorem loadEnds_flag (r : Except RmFail Image) (n : Node) (j0 : Nat) (hj0 : n.evt.flag j0 = true) : ((loadEnds r n)).evt.flag j0 = true := by
  unfold loadEnds
  (repeat' split) <;> simp (maxDischargeDepth := 12) [hj0, enter_flag, loadFailed_flag, flag_foldl, flag_ite]

theorem routeMapLoad_flag (flashErr : Bool) (m : Mems) (n : Node) (j0 : Nat) (hj0 : n.evt.flag j0 = true) : ((routeMapLoad flashErr m n)).evt.flag j0 = true := by
  unfold routeMapLoad
  (repeat' split) <;> simp (maxDischargeDepth := 12) [hj0, enter_flag, loadEnds_flag, flag_foldl, flag_ite]

theorem applyChapters_flag (restart : Bool) (was : Nat → Bool) (n : Node) (j0 : Nat) (hj0 : n.evt.flag j0 = true) : ((applyChapters restart was n)).evt.flag j0 = true := by
  unfold applyChapters
  (repeat' split) <;> simp (maxDischargeDepth := 12) [hj0, almApply_flag, caApply_flag, calApply_flag, clkApply_flag, digApply_flag, dspApply_flag, exImage_flag, ilApply_flag, lnApply_flag, loApply_flag, netApply_flag, pfApply_flag, recApply_flag, seqApply_flag, uiApply_flag, flag_foldl, flag_ite]

theorem applyImage_flag (g : Image) (n : Node) (j0 : Nat) (hj0 : n.evt.flag j0 = true) : ((applyImage g n)).evt.flag j0 = true := by
  unfold applyImage
  (repeat' split) <;> simp (maxDischargeDepth := 12) [hj0, applyChapters_flag, bankResult_flag, enter_flag, exRefresh_flag, loadNote_flag, restoreDetours_flag, setRole_flag, raise_flag', flag_foldl, flag_ite]

theorem routeMapVerify_flag (n : Node) (j0 : Nat) (hj0 : n.evt.flag j0 = true) : ((routeMapVerify n)).evt.flag j0 = true := by
  unfold routeMapVerify
  (repeat' split) <;> simp (maxDischargeDepth := 12) [hj0, applyImage_flag, loadFailed_flag, flag_foldl, flag_ite]

theorem partnerImage_flag (img : Option Bytes) (n : Node) (j0 : Nat) (hj0 : n.evt.flag j0 = true) : ((partnerImage img n)).evt.flag j0 = true := by
  unfold partnerImage
  (repeat' split) <;> simp (maxDischargeDepth := 12) [hj0, enter_flag, loadEnds_flag, loadFailed_flag, routeMapVerify_flag, flag_foldl, flag_ite]

theorem calibrated_flag (m : CalMeas) (roleIn : Bool) (t : Nat) (n : Node) (j0 : Nat) (hj0 : n.evt.flag j0 = true) : ((calibrated m roleIn t n)).evt.flag j0 = true := by
  unfold calibrated
  (repeat' split) <;> simp (maxDischargeDepth := 12) [hj0, caStart_flag, cjStart_flag, digReady_flag, dspReady_flag, enter_flag, exRefresh_flag, exStart_flag, initialCal_flag, roleSettle_flag, svReady0_flag, uiStart_flag, flag_foldl, flag_ite]

theorem stgAddrWrite_flag (v : Word) (n : Node) (j0 : Nat) : ((stgAddrWrite v n)).evt.flag j0 = n.evt.flag j0 :=
  congrArg (fun e => Events.flag e j0) (stgAddrWrite_get (pt := .evt) v n (by simp))

theorem stgDataWrite_flag (v : Word) (m : Mems) (n : Node) (j0 : Nat) : ((stgDataWrite v m n).2).evt.flag j0 = n.evt.flag j0 :=
  congrArg (fun e => Events.flag e j0) (stgDataWrite_get (pt := .evt) v m n (by simp))

theorem stgDataRead_flag (m : Mems) (n : Node) (j0 : Nat) : ((stgDataRead m n).2).evt.flag j0 = n.evt.flag j0 :=
  congrArg (fun e => Events.flag e j0) (stgDataRead_get (pt := .evt) m n (by simp))

theorem rmCtrl_flag (key : Nat) (cmd : Nat) (m : Mems) (n : Node) (j0 : Nat) (hj0 : n.evt.flag j0 = true) : ((rmCtrl key cmd m n).2).evt.flag j0 = true := by
  unfold rmCtrl
  (repeat' split) <;> simp (maxDischargeDepth := 12) [hj0, rmCode_flag, rmRefuse_flag, flag_foldl, flag_ite]

theorem checkComplete_flag (m : Mems) (n : Node) (j0 : Nat) (hj0 : n.evt.flag j0 = true) : ((checkComplete m n)).evt.flag j0 = true := by
  unfold checkComplete
  (repeat' split) <;> simp (maxDischargeDepth := 12) [hj0, rmFail_flag, flag_foldl, flag_ite]

theorem programComplete_flag (ok : Bool) (m : Mems) (n : Node) (j0 : Nat) (hj0 : n.evt.flag j0 = true) : ((programComplete ok m n).2).evt.flag j0 = true := by
  unfold programComplete
  (repeat' split) <;> simp (maxDischargeDepth := 12) [hj0, rmFail_flag, setBankInfo_flag, flag_foldl, flag_ite]

theorem commitBegin_flag (m : Mems) (n : Node) (j0 : Nat) (hj0 : n.evt.flag j0 = true) : ((commitBegin m n).2).evt.flag j0 = true := by
  unfold commitBegin
  (repeat' split) <;> simp (maxDischargeDepth := 12) [hj0, caStop_flag, doHoldCommit_flag, dspStop_flag, enter_flag, exRefresh_flag, lnTestsAbort_flag, loHoldCommit_flag, loSafeEntry_flag, mbClear_flag, seqApply_flag, uiStop_flag, uiUnforce_flag, flag_foldl, flag_ite]

theorem liveAddrWrite_flag (v : Word) (n : Node) (j0 : Nat) : ((liveAddrWrite v n)).evt.flag j0 = n.evt.flag j0 :=
  congrArg (fun e => Events.flag e j0) (liveAddrWrite_get (pt := .evt) v n (by simp))

theorem liveDataWrite_flag (v : Word) (m : Mems) (n : Node) (j0 : Nat) : ((liveDataWrite v m n).2).evt.flag j0 = n.evt.flag j0 :=
  congrArg (fun e => Events.flag e j0) (liveDataWrite_get (pt := .evt) v m n (by simp))

theorem liveRefuse_flag (e : RmFail) (m : Mems) (n : Node) (j0 : Nat) (hj0 : n.evt.flag j0 = true) : ((liveRefuse e m n).2).evt.flag j0 = true := by
  unfold liveRefuse
  (repeat' split) <;> simp (maxDischargeDepth := 12) [hj0, rmFail_flag, flag_foldl, flag_ite]

theorem liveSubmit_flag (m : Mems) (n : Node) (j0 : Nat) (hj0 : n.evt.flag j0 = true) : ((liveSubmit m n).2).evt.flag j0 = true := by
  unfold liveSubmit
  (repeat' split) <;> simp (maxDischargeDepth := 12) [hj0, liveRefuse_flag, rmRefuse_flag, flag_foldl, flag_ite]

theorem liveCancel_flag (m : Mems) (n : Node) (j0 : Nat) (hj0 : n.evt.flag j0 = true) : ((liveCancel m n).2).evt.flag j0 = true := by
  unfold liveCancel
  (repeat' split) <;> simp (maxDischargeDepth := 12) [hj0, rmRefuse_flag, flag_foldl, flag_ite]

theorem liveCtrl_flag (v : Word) (m : Mems) (n : Node) (j0 : Nat) (hj0 : n.evt.flag j0 = true) : ((liveCtrl v m n).2).evt.flag j0 = true := by
  unfold liveCtrl
  (repeat' split) <;> simp (maxDischargeDepth := 12) [hj0, liveCancel_flag, liveSubmit_flag, flag_foldl, flag_ite]

theorem liveCheck_flag (m : Mems) (n : Node) (j0 : Nat) (hj0 : n.evt.flag j0 = true) : ((liveCheck m n).2).evt.flag j0 = true := by
  unfold liveCheck
  (repeat' split) <;> simp (maxDischargeDepth := 12) [hj0, liveRefuse_flag, flag_foldl, flag_ite]

theorem liveApply_flag (g : Image) (n : Node) (j0 : Nat) (hj0 : n.evt.flag j0 = true) : ((liveApply g n)).evt.flag j0 = true := by
  unfold liveApply
  (repeat' split) <;> simp (maxDischargeDepth := 12) [hj0, almReplace_flag, dspReplace_flag, groupReplace_flag, lnReplace_flag, seqReplace_flag, raise_flag', flag_foldl, flag_ite]

theorem liveReplace_flag (m : Mems) (n : Node) (j0 : Nat) (hj0 : n.evt.flag j0 = true) : ((liveReplace m n).2).evt.flag j0 = true := by
  unfold liveReplace
  (repeat' split) <;> simp (maxDischargeDepth := 12) [hj0, liveApply_flag, flag_foldl, flag_ite]

theorem partnerLive_flag (bs : Bytes) (m : Mems) (n : Node) (j0 : Nat) : ((partnerLive bs m n).2).evt.flag j0 = n.evt.flag j0 :=
  congrArg (fun e => Events.flag e j0) (partnerLive_get (pt := .evt) bs m n (by simp))

theorem snapDataRead_flag (p : HostPort) (n : Node) (j0 : Nat) : ((snapDataRead p n).2.2).evt.flag j0 = n.evt.flag j0 :=
  congrArg (fun e => Events.flag e j0) (snapDataRead_get (pt := .evt) p n (by simp))

theorem snapTrigger_flag (p : HostPort) (n : Node) (j0 : Nat) : ((snapTrigger p n)).evt.flag j0 = n.evt.flag j0 :=
  congrArg (fun e => Events.flag e j0) (snapTrigger_get (pt := .evt) p n (by simp))

theorem snapDone_flag (p : HostPort) (n : Node) (j0 : Nat) (hj0 : n.evt.flag j0 = true) : ((snapDone p n)).evt.flag j0 = true := by
  unfold snapDone
  (repeat' split) <;> simp (maxDischargeDepth := 12) [hj0, modPort_flag, raise_flag', flag_foldl, flag_ite]

theorem snapAddrWrite_flag (p : HostPort) (v : Word) (n : Node) (j0 : Nat) : ((snapAddrWrite p v n).2).evt.flag j0 = n.evt.flag j0 :=
  congrArg (fun e => Events.flag e j0) (snapAddrWrite_get (pt := .evt) p v n (by simp))

theorem fwDataWrite_flag (v : Word) (m : Mems) (n : Node) (j0 : Nat) : ((fwDataWrite v m n).2).evt.flag j0 = n.evt.flag j0 :=
  congrArg (fun e => Events.flag e j0) (fwDataWrite_get (pt := .evt) v m n (by simp))

theorem fwInstallCmd_flag (m : Mems) (n : Node) (j0 : Nat) : ((fwInstallCmd m n)).evt.flag j0 = n.evt.flag j0 :=
  congrArg (fun e => Events.flag e j0) (fwInstallCmd_get (pt := .evt) m n (by simp))

theorem mbxWrite_flag (id a : Nat) (v : Word) (n : Node) (j0 : Nat) (hj0 : n.evt.flag j0 = true) : ((mbxWrite id a v n).2).evt.flag j0 = true := by
  unfold mbxWrite
  (repeat' split) <;> simp (maxDischargeDepth := 12) [hj0, dbMaskWrite_flag, dbStatusWrite_flag, mbAck_flag, mbFetch_flag, mbPost_flag, mbWinWrite_flag, flag_foldl, flag_ite]

theorem sendFwd_flag (p : HostPort) (a : Nat) (v : Word) (n : Node) (j0 : Nat) : ((sendFwd p a v n)).evt.flag j0 = n.evt.flag j0 :=
  congrArg (fun e => Events.flag e j0) (sendFwd_get (pt := .evt) p a v n (by simp))

theorem pushFwd_flag (o : FwdOrg) (n : Node) (j0 : Nat) : ((pushFwd o n)).evt.flag j0 = n.evt.flag j0 :=
  congrArg (fun e => Events.flag e j0) (pushFwd_get (pt := .evt) o n (by simp))

theorem spiShift_flag (r : SpiResp) (n : Node) (j0 : Nat) : ((spiShift r n)).evt.flag j0 = n.evt.flag j0 :=
  congrArg (fun e => Events.flag e j0) (spiShift_get (pt := .evt) r n (by simp))

theorem spiHeld_flag (tag : Byte) (c : Acc) (n : Node) (j0 : Nat) : ((spiHeld tag c n)).evt.flag j0 = n.evt.flag j0 :=
  congrArg (fun e => Events.flag e j0) (spiHeld_get (pt := .evt) tag c n (by simp))

theorem spiError_flag (n : Node) (j0 : Nat) (hj0 : n.evt.flag j0 = true) : ((spiError n)).evt.flag j0 = true := by
  unfold spiError
  (repeat' split) <;> simp (maxDischargeDepth := 12) [hj0, spiHeld_flag, spiShift_flag, raise_flag', flag_foldl, flag_ite]

theorem wfSend_flag (net : Bool) (client ver op : Nat) (sess : Word) (seq st : Nat) (pay : Bytes) (n : Node) (j0 : Nat) : ((wfSend net client ver op sess seq st pay n)).evt.flag j0 = n.evt.flag j0 :=
  congrArg (fun e => Events.flag e j0) (wfSend_get (pt := .evt) net client ver op sess seq st pay n (by simp))

theorem modSession_flag (sess : Word) (f : Session → Session) (n : Node) (j0 : Nat) : ((modSession sess f n)).evt.flag j0 = n.evt.flag j0 :=
  congrArg (fun e => Events.flag e j0) (modSession_get (pt := .evt) sess f n (by simp))

theorem sessionExpiry_flag (sess : Word) (n : Node) (j0 : Nat) : ((sessionExpiry sess n)).evt.flag j0 = n.evt.flag j0 :=
  congrArg (fun e => Events.flag e j0) (sessionExpiry_get (pt := .evt) sess n (by simp))

theorem sessionTick_flag (n : Node) (j0 : Nat) : ((sessionTick n)).evt.flag j0 = n.evt.flag j0 :=
  congrArg (fun e => Events.flag e j0) (sessionTick_get (pt := .evt) n (by simp))

theorem wfAnswer_flag (s : Session) (op : Nat) (seq : BitVec 16) (st : Nat) (pay : Bytes) (n : Node) (j0 : Nat) : ((wfAnswer s op seq st pay n)).evt.flag j0 = n.evt.flag j0 :=
  congrArg (fun e => Events.flag e j0) (wfAnswer_get (pt := .evt) s op seq st pay n (by simp))

theorem snapAnswer_flag (n : Node) (s : Session) (j0 : Nat) : ((snapAnswer n s)).evt.flag j0 = n.evt.flag j0 :=
  congrArg (fun e => Events.flag e j0) (snapAnswer_get (pt := .evt) n s (by simp))

theorem snapComplete_flag (p : HostPort) (n : Node) (j0 : Nat) (hj0 : n.evt.flag j0 = true) : ((snapComplete p n)).evt.flag j0 = true := by
  unfold snapComplete
  (repeat' split) <;> simp (maxDischargeDepth := 12) [hj0, snapAnswer_flag, snapDone_flag, flag_foldl, flag_ite]

theorem wfEnd_flag (s : Session) (seq : BitVec 16) (op : Nat) (st : Nat) (w : WfPend) (data : Word) (n : Node) (j0 : Nat) : ((wfEnd s seq op st w data n)).evt.flag j0 = n.evt.flag j0 :=
  congrArg (fun e => Events.flag e j0) (wfEnd_get (pt := .evt) s seq op st w data n (by simp))

theorem pushOne_flag (n : Node) (s : Session) (j0 : Nat) : ((pushOne n s)).evt.flag j0 = n.evt.flag j0 :=
  congrArg (fun e => Events.flag e j0) (pushOne_get (pt := .evt) n s (by simp))

theorem pushTick_flag (n : Node) (j0 : Nat) : ((pushTick n)).evt.flag j0 = n.evt.flag j0 :=
  congrArg (fun e => Events.flag e j0) (pushTick_get (pt := .evt) n (by simp))

theorem mbSend_flag (q : MbReq) (pdu : Bytes) (n : Node) (j0 : Nat) : ((mbSend q pdu n)).evt.flag j0 = n.evt.flag j0 :=
  congrArg (fun e => Events.flag e j0) (mbSend_get (pt := .evt) q pdu n (by simp))

theorem mbExcept_flag (q : MbReq) (func code : Nat) (n : Node) (j0 : Nat) : ((mbExcept q func code n)).evt.flag j0 = n.evt.flag j0 :=
  congrArg (fun e => Events.flag e j0) (mbExcept_get (pt := .evt) q func code n (by simp))

theorem mbWritten_flag (q : MbReq) (func reg arg bad : Nat) (n : Node) (j0 : Nat) : ((mbWritten q func reg arg bad n)).evt.flag j0 = n.evt.flag j0 :=
  congrArg (fun e => Events.flag e j0) (mbWritten_get (pt := .evt) q func reg arg bad n (by simp))

theorem acnAck_flag (b : Bool) (a : AlertRef) (n : Node) (j0 : Nat) (hj0 : n.evt.flag j0 = true) : ((acnAck b a n)).evt.flag j0 = true := by
  unfold acnAck
  (repeat' split) <;> simp (maxDischargeDepth := 12) [hj0, acnDiscard_flag, almCallAckWrite_flag, almCmdWrite_flag, almRefuse_flag, pushFwd_flag, sendArc_flag, sendFwd_flag, flag_foldl, flag_ite]

theorem svcSend_flag (st : Nat) (tag : Byte) (a : Nat) (data : Word) (n : Node) (j0 : Nat) : ((svcSend st tag a data n)).evt.flag j0 = n.evt.flag j0 :=
  congrArg (fun e => Events.flag e j0) (svcSend_get (pt := .evt) st tag a data n (by simp))

theorem spiDrop_flag (st : Nat) (n : Node) (j0 : Nat) : ((spiDrop st n)).evt.flag j0 = n.evt.flag j0 :=
  congrArg (fun e => Events.flag e j0) (spiDrop_get (pt := .evt) st n (by simp))

theorem svcDrop_flag (st : Nat) (n : Node) (j0 : Nat) : ((svcDrop st n)).evt.flag j0 = n.evt.flag j0 :=
  congrArg (fun e => Events.flag e j0) (svcDrop_get (pt := .evt) st n (by simp))

theorem wfDrop_flag (st : Nat) (n : Node) (s : Session) (j0 : Nat) : ((wfDrop st n s)).evt.flag j0 = n.evt.flag j0 :=
  congrArg (fun e => Events.flag e j0) (wfDrop_get (pt := .evt) st n s (by simp))

theorem fwdAnswered_flag (st : Nat) (n : Node) (j0 : Nat) : ((fwdAnswered st n)).evt.flag j0 = n.evt.flag j0 :=
  congrArg (fun e => Events.flag e j0) (fwdAnswered_get (pt := .evt) st n (by simp))

theorem fwdDropAll_flag (n : Node) (j0 : Nat) : ((fwdDropAll n)).evt.flag j0 = n.evt.flag j0 :=
  congrArg (fun e => Events.flag e j0) (fwdDropAll_get (pt := .evt) n (by simp))

theorem dropWaiting_flag (i : Nat) (n : Node) (j0 : Nat) : ((dropWaiting i n)).evt.flag j0 = n.evt.flag j0 :=
  congrArg (fun e => Events.flag e j0) (dropWaiting_get (pt := .evt) i n (by simp))

theorem runWhenDue_flag (t : Nat) (n : Node) (j0 : Nat) (hj0 : n.evt.flag j0 = true) : ((runWhenDue t n)).evt.flag j0 = true := by
  unfold runWhenDue
  (repeat' split) <;> simp (maxDischargeDepth := 12) [hj0, runEntry_flag, flag_foldl, flag_ite]

theorem haltWhenDue_flag (t : Nat) (n : Node) (j0 : Nat) (hj0 : n.evt.flag j0 = true) : ((haltWhenDue t n)).evt.flag j0 = true := by
  unfold haltWhenDue
  (repeat' split) <;> simp (maxDischargeDepth := 12) [hj0, haltEffect_flag, flag_foldl, flag_ite]

theorem tickMeas_flag (x : ScanMeas) (n : Node) (j0 : Nat) : ((tickMeas x n)).evt.flag j0 = n.evt.flag j0 :=
  congrArg (fun e => Events.flag e j0) (tickMeas_get (pt := .evt) x n (by simp))

theorem tpTick_flag (t : Nat) (n : Node) (j0 : Nat) : ((tpTick t n)).evt.flag j0 = n.evt.flag j0 :=
  congrArg (fun e => Events.flag e j0) (tpTick_get (pt := .evt) t n (by simp))

theorem deviceTick_flag (t : Nat) (m : Mems) (n : Node) (j0 : Nat) (hj0 : n.evt.flag j0 = true) : ((deviceTick t m n).2).evt.flag j0 = true := by
  unfold deviceTick
  (repeat' split) <;> simp (maxDischargeDepth := 12) [hj0, commitBegin_flag, haltWhenDue_flag, liveReplace_flag, runWhenDue_flag, flag_foldl, flag_ite]

theorem roleTick_flag (t : Nat) (n : Node) (j0 : Nat) (hj0 : n.evt.flag j0 = true) : ((roleTick t n)).evt.flag j0 = true := by
  unfold roleTick
  (repeat' split) <;> simp (maxDischargeDepth := 12) [hj0, almScan_flag, checkpoint_flag, digScan_flag, dspScan_flag, seqScan_flag, spareTick_flag, staleTick_flag, tpTick_flag, triadTick_flag, flag_foldl, flag_ite]

theorem serviceTick_flag (n : Node) (j0 : Nat) (hj0 : n.evt.flag j0 = true) : ((serviceTick n)).evt.flag j0 = true := by
  unfold serviceTick
  (repeat' split) <;> simp (maxDischargeDepth := 12) [hj0, expertTimeouts_flag, mbUnknown_flag, modbusTick_flag, pushTick_flag, recScan_flag, sessionTick_flag, flag_foldl, flag_ite]

theorem fineTick_flag (pins : Word) (n : Node) (j0 : Nat) (hj0 : n.evt.flag j0 = true) : ((fineTick pins n)).evt.flag j0 = true := by
  unfold fineTick
  dsimp only
  have h2 : ∀ t, (pfFine t (digFine t (pinsSet pins { n.advance t with time.lastFine := t / finePer }))).evt.flag j0 = true :=
    fun t => pfFine_flag _ _ _ (digFine_flag _ _ _ ((pinsSet_flag _ _ _).trans (show (n.advance t).evt.flag j0 = true from by
      rw [advance_flag]; exact hj0)))
  refine (sendBeacons_flag _ _).trans (poFine_flag _ _ ?_)
  split
  · exact h2 _
  · exact lnFine_flag _ _ _ (h2 _)

theorem uiStep_flag (c : Nat) (x : UiReading) (t : Nat) (n : Node) (j0 : Nat) (hj0 : n.evt.flag j0 = true) : ((uiStep c x t n)).evt.flag j0 = true := by
  unfold uiStep
  (repeat' split) <;> simp (maxDischargeDepth := 12) [hj0, ilUi_flag, uiConvert_flag, uiMiswired_flag, flag_foldl, flag_ite]

theorem caStepEnd_flag (c : Nat) (q : Int) (n : Node) (j0 : Nat) (hj0 : n.evt.flag j0 = true) : ((caStepEnd c q n)).evt.flag j0 = true := by
  unfold caStepEnd
  (repeat' split) <;> simp (maxDischargeDepth := 12) [hj0, caConvEnd_flag, ilCa_flag, flag_foldl, flag_ite]

theorem caAbandonDue_flag (c t : Nat) (n : Node) (j0 : Nat) : ((caAbandonDue c t n)).evt.flag j0 = n.evt.flag j0 :=
  congrArg (fun e => Events.flag e j0) (caAbandonDue_get (pt := .evt) c t n (by simp))

theorem diStep_flag (k : Nat) (lvl : Bool) (t : Nat) (n : Node) (j0 : Nat) (hj0 : n.evt.flag j0 = true) : ((diStep k lvl t n)).evt.flag j0 = true := by
  unfold diStep
  (repeat' split) <;> simp (maxDischargeDepth := 12) [hj0, almPress_flag, diAccept_flag, flag_foldl, flag_ite]

theorem mwDetect_flag (ch t : Nat) (n : Node) (j0 : Nat) (hj0 : n.evt.flag j0 = true) : ((mwDetect ch t n)).evt.flag j0 = true := by
  unfold mwDetect
  (repeat' split) <;> simp (maxDischargeDepth := 12) [hj0, mwEffect_flag, mwSet_flag, pfMiswire_flag, flag_foldl, flag_ite]

theorem mwReconnect_flag (ch t : Nat) (n : Node) (j0 : Nat) (hj0 : n.evt.flag j0 = true) : ((mwReconnect ch t n)).evt.flag j0 = true := by
  unfold mwReconnect
  (repeat' split) <;> simp (maxDischargeDepth := 12) [hj0, mwClear_flag, mwRestore_flag, flag_foldl, flag_ite]

theorem clockSecond_flag (n : Node) (j0 : Nat) (hj0 : n.evt.flag j0 = true) : ((clockSecond n)).evt.flag j0 = true := by
  unfold clockSecond
  (repeat' split) <;> simp (maxDischargeDepth := 12) [hj0, clkSecond_flag, swapSecond_flag, flag_foldl, flag_ite]

theorem linkLoss_flag (t : Nat) (n : Node) (j0 : Nat) (hj0 : n.evt.flag j0 = true) : ((linkLoss t n)).evt.flag j0 = true := by
  unfold linkLoss
  (repeat' split) <;> simp (maxDischargeDepth := 12) [hj0, fwdDropAll_flag, linkLost_flag, flag_foldl, flag_ite]

theorem fwRelay_flag (img : Bytes) (m : Mems) (n : Node) (j0 : Nat) : ((fwRelay img m n).2).evt.flag j0 = n.evt.flag j0 :=
  congrArg (fun e => Events.flag e j0) (fwRelay_get (pt := .evt) img m n (by simp))

end Sys2Proof.Machine
end

