-- ==== Sys2Proof/Laws/Memory.lean ====
section
/-! SUPPORT. Every operation on the byte memories keeps their canonical form. -/

namespace Sys2Proof.Machine
open Sys2Proof

theorem Mems.wf_iff (m : Mems) : m.wf = true ↔ Memory.wf 0#8 m.staging = true ∧ Memory.wf 0#8 m.live = true
    ∧ Memory.wf 0xFF#8 m.flashA = true ∧ Memory.wf 0xFF#8 m.flashB = true ∧ Memory.wf 0#8 m.fw = true := by
  simp [Mems.wf, and_assoc]

theorem nil_wf (d : Byte) : Memory.wf d [] = true := rfl

/-- Closes "the canonical form stays" for a memory record built from `h`'s. -/
theorem setBankMem_wf {m : Mems} (b : Bool) {x : Memory} (h : m.wf = true) (hx : Memory.wf 0xFF#8 x = true) :
    (setBankMem m b x).wf = true := by
  rw [Mems.wf_iff] at h ⊢
  unfold setBankMem
  split <;> simp_all

theorem liveEmpty_wf {m : Mems} (h : m.wf = true) : (liveEmpty m).wf = true := by
  rw [Mems.wf_iff] at h ⊢
  simp_all [liveEmpty, nil_wf]

theorem flashUnknown_wf (m : Mems) (n : Node) : Memory.wf 0xFF#8 (flashUnknown m n) = true := memWrite_wf _ _ _ _ (nil_wf _)

theorem stgDataWrite_wf (v : Word) {m : Mems} (n : Node) (h : m.wf = true) : (stgDataWrite v m n).1.wf = true := by
  unfold stgDataWrite
  split
  · exact h
  · rw [Mems.wf_iff] at h ⊢
    exact ⟨memWrite_wf _ _ _ _ h.1, h.2⟩

theorem rmCtrl_wf (key cmd : Nat) {m : Mems} (n : Node) (h : m.wf = true) : (rmCtrl key cmd m n).1.wf = true := by
  unfold rmCtrl
  repeat' split
  all_goals first | exact h | (rw [Mems.wf_iff] at h ⊢; exact ⟨nil_wf _, h.2⟩)

theorem programComplete_wf (ok : Bool) {m : Mems} (n : Node) (h : m.wf = true) : (programComplete ok m n).1.wf = true := by
  unfold programComplete
  repeat' split
  · exact h
  · exact setBankMem_wf _ h (memWrite_wf _ _ _ _ (nil_wf _))
  all_goals exact setBankMem_wf _ h (flashUnknown_wf m n)

theorem commitBegin_wf {m : Mems} (n : Node) (h : m.wf = true) : (commitBegin m n).1.wf = true := by
  unfold commitBegin
  split
  · exact liveEmpty_wf h
  · exact h

theorem liveDataWrite_wf (v : Word) {m : Mems} (n : Node) (h : m.wf = true) : (liveDataWrite v m n).1.wf = true := by
  unfold liveDataWrite
  split
  · exact h
  · rw [Mems.wf_iff] at h ⊢
    exact ⟨h.1, memWrite_wf _ _ _ _ h.2.1, h.2.2⟩

theorem liveSubmit_wf {m : Mems} (n : Node) (h : m.wf = true) : (liveSubmit m n).1.wf = true := by
  unfold liveSubmit
  repeat' split
  · exact h
  · exact liveEmpty_wf h
  · exact h

theorem liveCancel_wf {m : Mems} (n : Node) (h : m.wf = true) : (liveCancel m n).1.wf = true := by
  unfold liveCancel
  split
  · exact h
  · exact liveEmpty_wf h

theorem liveCtrl_wf (v : Word) {m : Mems} (n : Node) (h : m.wf = true) : (liveCtrl v m n).1.wf = true := by
  have hs : (if bitOf v 0 then liveSubmit m n else (m, n)).1.wf = true := by
    split
    · exact liveSubmit_wf n h
    · exact h
  unfold liveCtrl
  simp only
  generalize (if bitOf v 0 then liveSubmit m n else (m, n)) = s at hs ⊢
  split
  · exact liveCancel_wf s.2 hs
  · exact hs

theorem liveCheck_wf {m : Mems} (n : Node) (h : m.wf = true) : (liveCheck m n).1.wf = true := by
  unfold liveCheck
  repeat' split
  all_goals first | exact h | exact liveEmpty_wf h

theorem liveReplace_wf {m : Mems} (n : Node) (h : m.wf = true) : (liveReplace m n).1.wf = true := by
  unfold liveReplace
  repeat' split
  all_goals first | exact h | exact liveEmpty_wf h

theorem partnerLive_wf (bs : Bytes) {m : Mems} (n : Node) (h : m.wf = true) : (partnerLive bs m n).1.wf = true := by
  unfold partnerLive
  split
  · rw [Mems.wf_iff] at h ⊢
    exact ⟨h.1, memWrite_wf _ _ _ _ (nil_wf _), h.2.2⟩
  · exact h

theorem resetMems_wf {m : Mems} (n : Node) (h : m.wf = true) : (resetMems m n).wf = true := by
  have h1 : Mems.wf { flashA := m.flashA, flashB := m.flashB } = true := by
    rw [Mems.wf_iff] at h ⊢
    exact ⟨nil_wf _, nil_wf _, h.2.2.1, h.2.2.2.1, nil_wf _⟩
  unfold resetMems
  simp only
  split
  · exact setBankMem_wf _ h1 (flashUnknown_wf m n)
  · exact h1

theorem fwDataWrite_wf (v : Word) {m : Mems} (n : Node) (h : m.wf = true) : (fwDataWrite v m n).1.wf = true := by
  unfold fwDataWrite
  split
  · exact h
  · rw [Mems.wf_iff] at h ⊢
    exact ⟨h.1, h.2.1, h.2.2.1, h.2.2.2.1, memWrite_wf _ _ _ _ h.2.2.2.2⟩

theorem fwRelay_wf (img : Bytes) {m : Mems} (n : Node) (h : m.wf = true) : (fwRelay img m n).1.wf = true := by
  unfold fwRelay
  split
  · exact h
  · rw [Mems.wf_iff] at h ⊢
    exact ⟨h.1, h.2.1, h.2.2.1, h.2.2.2.1, memWrite_wf _ _ _ _ (nil_wf _)⟩

theorem dupCtrl_wf (v : Word) {m : Mems} (n : Node) (h : m.wf = true) : (dupCtrl v m n).1.wf = true := by
  unfold dupCtrl fwActivate resetBoth
  repeat' split
  all_goals first | exact h | exact resetMems_wf _ h

theorem devCtrlWrite_wf (v : Word) {m : Mems} (n : Node) (h : m.wf = true) : (devCtrlWrite v m n).1.wf = true := by
  unfold devCtrlWrite resetBoth
  simp only
  split
  · exact resetMems_wf _ h
  · exact h

/-- What a register write that reaches the memories leaves in canonical form: all of them. -/
theorem writeMem_wf {a : Nat} {v : Word} {m : Mems} {n : Node} {x : Mems × Node} (h : m.wf = true) (hx : writeMem a v m n = some x) :
    x.1.wf = true := by
  unfold writeMem at hx
  split at hx
  · exact Option.some.inj hx ▸ devCtrlWrite_wf v n h
  · exact Option.some.inj hx ▸ rmCtrl_wf _ _ n h
  · exact Option.some.inj hx ▸ h
  · exact Option.some.inj hx ▸ stgDataWrite_wf v n h
  · exact Option.some.inj hx ▸ h
  · exact Option.some.inj hx ▸ liveDataWrite_wf v n h
  · exact Option.some.inj hx ▸ liveCtrl_wf v n h
  · exact Option.some.inj hx ▸ dupCtrl_wf v n h
  · exact Option.some.inj hx ▸ fwDataWrite_wf v n h
  · exact absurd hx (by simp)

theorem regWrite_wf (p : HostPort) (a : Nat) (v : Word) {m : Mems} (n : Node) (h : m.wf = true) :
    (regWrite p a v m n).2.1.wf = true := by
  unfold regWrite
  repeat' split
  · exact h
  · rename_i hx
    exact writeMem_wf h hx
  · exact h
  · exact h

/-- An access by a host port keeps the canonical form. -/
theorem accDo_wf (p : HostPort) (c : Acc) {m : Mems} (n : Node) (h : m.wf = true) : (accDo p c m n).mem.wf = true := by
  cases c with
  | rd a =>
    show (readAccess p a m n).mem.wf = true
    unfold readAccess
    repeat' split
    all_goals exact h
  | wr a v =>
    show (writeAccess p a v m n).mem.wf = true
    unfold writeAccess
    repeat' split
    all_goals first
      | exact h
      | (unfold writeDo; split
         · exact h
         · exact regWrite_wf p a v n h)

theorem hostDo_wf (p : HostPort) (c : Acc) {m : Mems} (n : Node) (h : m.wf = true) : (hostDo p c m n).1.wf = true :=
  accDo_wf p c n h

end Sys2Proof.Machine
end

