-- ==== Sys2Proof/WellFormed.lean ====
section
/-! DEFINITION. Which commands are well formed: operands that the happening itself admits, where the types do not say so.
The meanings are total; nothing rests on these checks. -/

namespace Sys2Proof

/-- A master identity of R142: not 6, 7 or above 23. -/
def identity (id : Byte) : Bool := decide (id.toNat < 24) && id != 6#8 && id != 7#8

/-- A CAN frame: a standard identifier has 11 bits, a classical frame at most 8 bytes, a CAN FD frame at most 64 (R514). -/
def canShape (f : Machine.CanFrame) : Bool :=
  (f.ide || decide (f.id.toNat < 2048)) && decide (f.data.length ≤ if f.fd then 64 else 8)

/-- The checks of each command. -/
def Instr.wf : Instr → Bool
  | .scanTick .. => true
  | .fineTick .. => true
  | .islandFault .. => true
  | .causewayTimeout .. => true
  | .hostAccessComplete .. => true
  | .devtimeLoRead .. => true
  | .devtimeHiRead .. => true
  | .engineFailure .. => true
  | .spareStart .. => true
  | .lockstepMismatch .. => true
  | .junctionDrain => true
  | .resultValueRead .. => true
  | .resultQseqRead .. => true
  | .staleTimeout .. => true
  | .scrubPass .. => true
  | .routeMapLoad .. => true
  | .routeMapVerify .. => true
  | .stgAddrWrite .. => true
  | .stgDataWrite .. => true
  | .stgDataRead .. => true
  | .checkImg .. => true
  | .checkComplete => true
  | .commitImg .. => true
  | .programA .. => true
  | .programB .. => true
  | .programComplete .. => true
  | .preferA .. => true
  | .preferB .. => true
  | .abortImg .. => true
  | .liveDataWrite .. => true
  | .submitLive .. => true
  | .cancelLive .. => true
  | .liveCheckComplete => true
  | .liveReplacement .. => true
  | .supplyValid .. => true
  | .supplyInvalid => true
  | .resetPin .. => true
  | .watchdogExpiry .. => true
  | .runCmd .. => true
  | .runEntry .. => true
  | .haltCmd .. => true
  | .haltEffect .. => true
  | .safeCmd .. => true
  | .resetCmd .. => true
  | .initialCalibrationComplete .. => true
  | .feedLost .. => true
  | .feedRegained .. => true
  | .overtempSet .. => true
  | .overtempClear .. => true
  | .spiNop op _ _ _ => op != 1#4 && op != 2#4
  | .spiRead .. => true
  | .spiWrite .. => true
  | .spiFrameError .. => true
  | .hello _ _ _ _ sess _ _ => sess != 0#32
  | .closeSess .. => true
  | .wayfareRead .. => true
  | .wayfareWrite .. => true
  | .burstRead .. => true
  | .mbxPost _ _ msg _ => msg.length == 16
  | .mbxFetch .. => true
  | .subscribe .. => true
  | .snapOp .. => true
  | .wayfareBadDatagram .. => true
  | .sessionExpiry .. => true
  | .snapTrigger .. => true
  | .snapCopyComplete .. => true
  | .snapAddrWrite .. => true
  | .snapDataRead .. => true
  | .blkCtrlWrite .. => true
  | .expertTimeout .. => true
  | .registerWrite .. => true
  | .evtStatWrite .. => true
  | .evtMaskWrite .. => true
  | .evtRouteWrite .. => true
  | .evtMsgqRead .. => true
  | .evtMsgStatWrite .. => true
  | .mbPost id _ => identity id
  | .mbFetch id _ => identity id
  | .mbAck id _ _ => identity id
  | .uiConversionComplete .. => true
  | .uiFiltWrite .. => true
  | .uiFilterRestart .. => true
  | .uiForceCtrlWrite .. => true
  | .cjConversionComplete .. => true
  | .exConversionComplete .. => true
  | .exCtrlWrite .. => true
  | .excChangeApply .. => true
  | .excSettleEnd .. => true
  | .exRegOkChange .. => true
  | .exLimitOnset .. => true
  | .exSenseErrOnset .. => true
  | .bypassRoundStart .. => true
  | .bypassTakeover .. => true
  | .bypassReferencesDone .. => true
  | .bypassCrossCheck .. => true
  | .bypassHandback .. => true
  | .bcSelfCalComplete .. => true
  | .converterFault .. => true
  | .pairWatchTimer .. => true
  | .triadVote .. => true
  | .caSampleTrigger .. => true
  | .caConversionEnd .. => true
  | .caResetOpen .. => true
  | .caCycleAbandon .. => true
  | .caRecordComplete .. => true
  | .caRangeRequest .. => true
  | .bufOpen .. => true
  | .bufRelease .. => true
  | .caBufDataRead .. => true
  | .bufHoldTimeout .. => true
  | .loDemandWrite .. => true
  | .loReadback .. => true
  | .loFieldSupplyLoss .. => true
  | .miswireDetect ch _ => decide (ch.val < 120)
  | .miswireReconnect ch _ => decide (ch.val < 120)
  | .hartVariableDue .. => true
  | .hartTransactionComplete .. => true
  | .hartPassThrough .. => true
  | .poPeriodBoundary .. => true
  | .poPulseEnd .. => true
  | .diChangeAccepted .. => true
  | .diOpenWire .. => true
  | .diGroupOt .. => true
  | .ssOverload .. => true
  | .ssRetry .. => true
  | .doCmdWrite .. => true
  | .tpCycleStart .. => true
  | .tpOffEdge .. => true
  | .doOverload .. => true
  | .doOvertemp .. => true
  | .doOvertempClear .. => true
  | .doOpenWire .. => true
  | .darkTest .. => true
  | .darkTestEnd .. => true
  | .doPulseEnd .. => true
  | .ilResetWrite .. => true
  | .svFireWrite .. => true
  | .queuedFiringStart .. => true
  | .endIns .. => true
  | .seti .. => true
  | .ramp .. => true
  | .waitt .. => true
  | .waiti .. => true
  | .waitp .. => true
  | .holdIns .. => true
  | .freew .. => true
  | .quench .. => true
  | .markIns .. => true
  | .jif .. => true
  | .loopIns .. => true
  | .flagIns .. => true
  | .illegalInstruction .. => true
  | .waittExpiry .. => true
  | .waitiMet .. => true
  | .waitiTimeout .. => true
  | .waitpReached .. => true
  | .waitpEarlyEnd .. => true
  | .holdEnd .. => true
  | .rampComplete .. => true
  | .staggerExpiry .. => true
  | .svOverCurrent .. => true
  | .bankOverCurrent .. => true
  | .pfEdge .. => true
  | .quadratureError .. => true
  | .hallError .. => true
  | .amplitudeError .. => true
  | .ssiFrameEnd .. => true
  | .pfRawRead .. => true
  | .pfCapRead .. => true
  | .pfCtrlClr .. => true
  | .stillTimeout .. => true
  | .cmpSetpos .. => true
  | .cmpSeten .. => true
  | .laneEvaluation .. => true
  | .lnModeRequest .. => true
  | .applyLane .. => true
  | .followingError .. => true
  | .testStart .. => true
  | .testStop .. => true
  | .lnCapDataRead .. => true
  | .onDelayExpiry .. => true
  | .offDelayExpiry .. => true
  | .shelveExpiry .. => true
  | .groupRelease .. => true
  | .ackPt .. => true
  | .ackGroup .. => true
  | .ackAll .. => true
  | .alarmReset .. => true
  | .shelvePt .. => true
  | .unshelvePt .. => true
  | .inhibitPt .. => true
  | .releasePt .. => true
  | .foReset .. => true
  | .outOfService .. => true
  | .returnPt .. => true
  | .callEscalation .. => true
  | .callRecall .. => true
  | .almCallAck .. => true
  | .almDutyWrite .. => true
  | .patrolStart .. => true
  | .patrolStop .. => true
  | .patrolPress .. => true
  | .patrolPrewarn .. => true
  | .patrolExpired .. => true
  | .almFindWrite .. => true
  | .almLogIdxWrite .. => true
  | .almLogDataRead .. => true
  | .seqStart .. => true
  | .seqStop .. => true
  | .seqHold .. => true
  | .seqResume .. => true
  | .seqGoto .. => true
  | .stepTimeout .. => true
  | .seqTimerExpiry .. => true
  | .dspRedraw .. => true
  | .dspFull .. => true
  | .renderComplete .. => true
  | .updateStart .. => true
  | .frameScan .. => true
  | .biasOn .. => true
  | .biasOff .. => true
  | .biasRiseStep .. => true
  | .biasFault .. => true
  | .dischargeStep .. => true
  | .slHello .. => true
  | .slBeacon .. => true
  | .linkLaneDown .. => true
  | .linkLost .. => true
  | .slMirror .. => true
  | .slOutcmd .. => true
  | .slSeqstep _ step _ => decide (step < 1024)
  | .slStandDown .. => true
  | .slSwap .. => true
  | .slImage .. => true
  | .slFwd .. => true
  | .slReset .. => true
  | .slFwimg img _ => decide (img.length ≤ 0x800000)
  | .partnerWaitTimeout .. => true
  | .findTimeout .. => true
  | .roleInLow .. => true
  | .overlapEnd .. => true
  | .crossRampComplete .. => true
  | .relInPulse .. => true
  | .holdLatchTimeout .. => true
  | .swapCmd .. => true
  | .swapExecute .. => true
  | .reclaimCmd .. => true
  | .partnerReset .. => true
  | .rejoinReset .. => true
  | .fwDataWrite .. => true
  | .fwInstall .. => true
  | .fwInstallComplete .. => true
  | .fwActivate .. => true
  | .imageCheck .. => true
  | .selfTestVector .. => true
  | .clockSecond .. => true
  | .setBin .. => true
  | .setBcd .. => true
  | .setOfs .. => true
  | .dstStepFwd .. => true
  | .dstStepBack .. => true
  | .calShadowRead .. => true
  | .calDateRead .. => true
  | .shadowTimeout .. => true
  | .oscillatorStop .. => true
  | .i11SupplyDip .. => true
  | .backupSwitch .. => true
  | .vbakMeasure .. => true
  | .milestoneCommit .. => true
  | .msLoRead .. => true
  | .windowClose .. => true
  | .histogramSample .. => true
  | .statWindowRoll .. => true
  | .windowSample .. => true
  | .recSelWrite .. => true
  | .recDataRead .. => true
  | .stSelWrite .. => true
  | .stDataRead .. => true
  | .recAppend .. => true
  | .ethLinkChange .. => true
  | .icmpEcho .. => true
  | .readHoldingRegisters _ start count _ => decide (start < 65536) && decide (count < 65536)
  | .readInputRegisters _ start count _ => decide (start < 65536) && decide (count < 65536)
  | .writeSingleRegister _ reg val _ => decide (reg < 65536) && decide (val < 65536)
  | .writeMultipleRegisters _ start vals _ => decide (start < 65536) && decide (vals.length ≤ 123)
  | .modbusIdleClose .. => true
  | .acnAcknowledge .. => true
  | .acnRequest .. => true
  | .acnOther .. => true
  | .alcPeriodic .. => true
  | .canFrameReceive f _ => canShape f
  | .canRawSend .. => true
  | .canServiceRequest f _ => canShape f
  | .canBusOff .. => true
  | .canBusOffRecovery .. => true
  | .slFrameCrcError .. => true
  | .seqstepAcknowledged .. => true
  | .noResponseAfterRetries .. => true
  | .senseSample .. => true
  | .fpOkChange .. => true
  | .acnDiscarded .. => true

end Sys2Proof
end

