-- ==== Sys2Proof/Tests/Slice0.lean ====
section
/-! SUPPORT. The model's own tests: ill-formed commands, single steps with results that the spec gives, and for every
statement of Certificates/Slice0 that has hypotheses a concrete state and operands that meet them. -/

namespace Sys2Proof.Machine
open Sys2Proof
set_option linter.all false
set_option Elab.async false
set_option maxRecDepth 100000

/-! ### States built for the tests -/

/-- `n` zero bytes with some places set. -/
def wB (n : Nat) (l : List (Nat × Nat)) : Bytes := l.foldl (fun r x => r.set x.1 (BitVec.ofNat 8 x.2)) (List.replicate n 0#8)

/-- An enabled channel record (R66). -/
def wCh (kind i : Nat) (l : List (Nat × Nat) := []) : Bytes := wB 32 ([(0, i), (1, kind), (2, 1)] ++ l)

def wLeg (t : Nat) (ss : List Sect) (body : Bytes := []) : Leg := ⟨t, 1, 0, 0, body, ss, true⟩

/-- Engine roles in the counts of R18. -/
def wRoles : Bytes :=
  [0x10#8, 0x11#8, 0x20#8, 0x21#8, 0x30#8, 0x31#8, 0x32#8, 0x33#8, 0x40#8, 0x41#8, 0x50#8, 0x60#8, 0x70#8, 0x80#8, 0xE0#8, 0xE1#8]

def wImg (chs : List Bytes) (legs : List Leg) : Image :=
  { fmt := 3, len := 248, ocrc := 1#32, mapId := 1#32, mapRev := 1#32,
    legs := wLeg 3 [] wRoles :: wLeg 4 [⟨1, 32, chs, true⟩] :: legs }

/-- Port settings: both Ethernet ports with an address and every service, both CAN controllers on, raw channels 31 (R506). -/
def wPorts : List (Nat × Nat) → Bytes := fun l =>
  wB 64 ([(0, 1), (3, 10), (4, 2), (7, 10), (8, 24), (9, 24), (10, 7), (11, 7), (0x22, 159), (0x23, 159)] ++ l)

/-- The module in RUN with every island up and EXPERT set in every block. -/
def wN : Node :=
  { isl := { states := List.replicate 12 .run, roles := wRoles }
    ld := { img := some (wImg [] []) }
    dev := { st := .run, prev := .ready }
    blk := (List.range 24).map (fun b => (b, { expert := true }))
    mram := { ports := wPorts [] } }

/-- The same with an image of these channels and legs. -/
def wIm (chs : List Bytes) (legs : List Leg) : Node := { wN with ld := { wN.ld with img := some (wImg chs legs) } }

def wSt (n : Node) : State := { node := n }

/-- Of a duplex pair, in this role. -/
def wPair (r : DupRole) (body : List (Nat × Nat) := []) : Node :=
  { wIm [] [wLeg 0x0F [] (wB 32 ((0, 1) :: body))] with dup := { role := r, lane0 := true, lost := false, hello := true, pver := 1, pElig := true } }

/-- The binding of mailbox channel 31 and of channel 30 (R143). -/
def wLock (snd rcv : Nat) : Node := { wN with ld := { wN.ld with lock := some (wB 128 [(120, rcv), (121, snd), (122, 1), (124, snd), (125, rcv), (126, 1)]) } }

/-- Shaped output 15 at instruction word `w` of profile 0 of its bank. -/
def wSv (w : Nat) (u : SvChan) (hb : List (Nat × Nat) := []) : Node :=
  { wIm [wCh 0x0B 15, wCh 0x0C 7 hb] [wLeg 8 [⟨1, 264, [wB 8 [(0, 112), (2, 1)] ++ leBytes 4 w], true⟩]] with shp := { sv := [(15, u)] } }

/-- Position interface 7 of a type. -/
def wPf (ty : Nat) (u : PfChan := {}) (l : List (Nat × Nat) := []) : Node := { wIm [wCh 0x0D 7 ((8, ty) :: l)] [] with pf := [(7, u)] }

/-- Control lane 31. -/
def wLn (u : Lane) (l : List (Nat × Nat) := []) : Node :=
  { wIm [] [wLeg 0x0A [⟨1, 128, [wB 128 ([(0, 31), (2, 1), (4, 1), (13, 0x20)] ++ l)], true⟩, ⟨2, 32, [wB 32 [(0, 1)], wB 32 [(0, 1)]], true⟩]] with
    ln := [(31, u)], jn := { store := [(0x2000, { value := 1#32, q := 1#8, has := true })] } }

/-- Alarm point 4,095. -/
def wPt (u : AlmPt) (fl : Nat := 1) : Node :=
  { wIm [] [wLeg 0x0B [⟨1, 32, List.replicate 4096 (wB 32 [(6, fl)]), true⟩], wLeg 0x0C [⟨2, 16, List.replicate 256 (wB 16 []), true⟩]] with
    alm := { pts := [(4095, u)] } }

/-- Sequence 7, whose first step is step 0. -/
def wSq (u : Seq) (step : List (Nat × Nat) := [(1, 8)]) : Node :=
  { wIm [] [wLeg 0x0D [⟨1, 16, List.replicate 8 (wB 16 [(2, 1)]), true⟩, ⟨2, 64, [wB 64 ((0, 7) :: step)], true⟩]] with seq := { seqs := [(7, u)] } }

/-- A STANDBY whose partner shows the same image. -/
def wElig (r : DupRole) (body : List (Nat × Nat) := []) : Node :=
  let n := wPair r body
  { n with dup := { n.dup with pOcrc := rmOcrc n, pGen := liveGens n, mirrorAt := some 0 } }

/-- A smallest image: identity, island plan, roles and an empty channel plan, with the CRCs of R53. -/
def wBytes : Bytes :=
  leBytes 248 0xA56E1A60104D2BC00000000000000000000000040000017F07696DB1000000000020000100000000000000000000000800000104A6CCA1CCE1E08070605041403332313021201110000000000000000000000010000001039BA420C70000000000000C2F000000000000000000000008000001024BC554AC0000000000000001000000000000000000000000000000000000000000000000000000000000000000000000000000000000000000000000000000300000010125A2D123000000000000000000000000000000000000000000000000000000000000000000000000000000010000000100000005000000F80000000359574D4A

/-- A submission of one alarm table without points (R78). -/
def wLive : Bytes := leBytes 28 0x4A14F7E900000000002000010000000000000001000000080000010B

/-- A byte memory that holds a string from address 0. -/
def wMem (d : Byte) (bs : Bytes) : Memory := bs.zipIdx.filterMap (fun x => if x.1 = d then none else some (x.2, x.1))

def wErr {α : Type} : Except RmFail α → Option RmFail
  | .ok _ => none
  | .error e => some e

/-- What a check gave, where it passed. -/
def wGot {α : Type} (d : α) : Except RmFail α → α
  | .ok g => g
  | .error _ => d

/-- The smallest image, loaded. -/
def wSmall : Image := wGot (wImg [] []) (loadImage wBytes)

/-- The same, verified; its submission, checked. -/
def wVer : Image := wGot wSmall (verifyImage none wSmall)
def wLegs : List Leg := wGot [] (checkLive (wImg [] []) ((liveGens wN).map BitVec.toNat) wLive)

/-- The state of an answer. -/
def wNext : Out → State
  | .next t => t
  | _ => {}

/-- The home unit in STANDBY, owed its plant (R462): home code `h`. -/
def wHome (h : Nat) : Node :=
  let n := wElig .standby [(1, h), (2, 1)]
  { n with dup := { n.dup with owed := true } }

theorem wReclaim : ∃ (t : Nat) (s : State), s.node.up = true ∧ reclaimDue (s.node.advance t) = true ∧ dupReclaim s.node = 1 ∧ s.node.dup.plan = none
    ∧ s.node.dup.proposed = none ∧ s.node.dup.hello = true ∧ svBusy s.node = false := by
  cases h : Config.unit
  · refine ⟨0, wSt (wHome 0), by decide +kernel, ?_, by decide +kernel, by decide +kernel, by decide +kernel, by decide +kernel, by decide +kernel⟩
    simp only [reclaimDue, isHome, unitNo, h]; decide +kernel
  · refine ⟨0, wSt (wHome 1), by decide +kernel, ?_, by decide +kernel, by decide +kernel, by decide +kernel, by decide +kernel, by decide +kernel⟩
    simp only [reclaimDue, isHome, unitNo, h]; decide +kernel

/-! ### Ill-formed commands -/

theorem test_illformed_nop_opcode : (Instr.spiNop 1#4 0#8 0#15 0).wf = false ∧ (Instr.spiNop 2#4 0#8 0#15 0).wf = false := by decide +kernel
theorem test_illformed_hello_session : (Instr.hello false 0 ⟨1#8, 1#8⟩ 0#16 0#32 true 0).wf = false := by decide +kernel
theorem test_illformed_message_length : (Instr.mbxPost ⟨false, 0, 0#32, 0#16, .whole⟩ 0#8 (List.replicate 15 0#32) 0).wf = false := by decide +kernel
theorem test_illformed_post_identity : (Instr.mbPost 6#8 0).wf = false := by decide +kernel
theorem test_illformed_fetch_identity : (Instr.mbFetch 24#8 0).wf = false := by decide +kernel
theorem test_illformed_ack_identity : (Instr.mbAck 7#8 0 0#32).wf = false := by decide +kernel
theorem test_illformed_miswire_channel : (Instr.miswireDetect 120 0).wf = false ∧ (Instr.miswireReconnect 120 0).wf = false := by decide +kernel
theorem test_illformed_can_identifier : (Instr.canFrameReceive ⟨false, false, false, false, 2048#29, []⟩ 0).wf = false := by decide +kernel
theorem test_illformed_can_length : (Instr.canServiceRequest ⟨false, true, false, false, 2048#29, List.replicate 9 0#8⟩ 0).wf = false := by decide +kernel
theorem test_illformed_holding_start : (Instr.readHoldingRegisters ⟨false, 0, 0#16, 1#8⟩ 65536 1 0).wf = false := by decide +kernel
theorem test_illformed_input_count : (Instr.readInputRegisters ⟨false, 0, 0#16, 1#8⟩ 0 65536 0).wf = false := by decide +kernel
theorem test_illformed_single_value : (Instr.writeSingleRegister ⟨false, 0, 0#16, 1#8⟩ 0 65536 0).wf = false := by decide +kernel
theorem test_illformed_multiple_count : (Instr.writeMultipleRegisters ⟨false, 0, 0#16, 1#8⟩ 0 (List.replicate 124 0#16) 0).wf = false := by decide +kernel
theorem test_illformed_seqstep : (Instr.slSeqstep 0 1024 0).wf = false := by decide +kernel
theorem test_illformed_firmware_length : (Instr.slFwimg (List.replicate 0x800001 0#8) 0).wf = false := by
  simp only [Instr.wf, List.length_replicate]; decide

/-! ### Single steps, against the spec's worked examples and tables -/

/-- The module after a command. -/
def wEx (c : Instr) (n : Node) : Node := (wNext (exec c (wSt n))).node

/-- R53: the CRC of the ASCII digits. R110: CRC-8 of the same. -/
theorem test_crc_of_digits : crc32 [0x31#8, 0x32#8, 0x33#8, 0x34#8, 0x35#8, 0x36#8, 0x37#8, 0x38#8, 0x39#8] = 0xCBF43926#32
    ∧ crc8 [0x31#8, 0x32#8, 0x33#8, 0x34#8, 0x35#8, 0x36#8, 0x37#8, 0x38#8, 0x39#8] = 0xF4#8 := by decide +kernel

/-- R25: the first scan tick stands at DEVTIME 250,000. -/
theorem test_scan_tick_period : (wEx (.scanTick ⟨[], [], 0#32, []⟩) wN).time.devtime = 250000 := by decide +kernel

/-- spec/01, example: records of UI40 to UI47, PF2 to PF4 and LO8 in one cycle at S = 45 drain with UI45, UI46, UI47 and PF2 first. -/
def wTwelve : Node :=
  { wN with time := { devtime := 2505253000 },
            jn := { slots := [40, 41, 42, 43, 44, 45, 46, 47, 86, 87, 88, 100].map (fun p => ⟨p, 0, [⟨0x2000 + 64 * p, 1#32, 1#8⟩], 1#8, 2505253000, 0⟩) } }
theorem test_drain_order : (wEx .junctionDrain wTwelve).jn.slots.map (·.prod) = [40, 41, 42, 43, 44, 87, 88, 100] := by decide +kernel
/-- R37: of two records of one time, the one that arrived in an earlier cycle drains first. -/
theorem test_drain_arrival : (drainOne { wN with jn := { slots := [⟨40, 0, [], 1#8, 7, 3⟩, ⟨41, 0, [], 1#8, 7, 2⟩] } }).jn.slots.map (·.prod) = [40] := by decide +kernel

/-- The same example: QSEQ bits 15:0 of every one of them are 0xE894. -/
theorem test_qseq_time : (qseqWord ((wEx .junctionDrain wTwelve).res (0x2000 + 64 * 45)) (some 0)).toNat % 65536 = 0xE894 := by decide +kernel

/-- R26: the read of DEVTIME_LO freezes the high word. -/
theorem test_devtime_latch : ((wEx (.devtimeLoRead .m1) { wN with time := { devtime := 5 * 2 ^ 32 + 7 } }).port .m1).devHi = some 5#32 := by decide +kernel

/-- R6, R73: a staged word lies little-endian. -/
theorem test_staging_bytes : (wNext (exec (.stgDataWrite .m1 0x12345678#32) (wSt wN))).mem.staging = [(0, 0x78#8), (1, 0x56#8), (2, 0x34#8), (3, 0x12#8)] := by decide +kernel

/-- R72, R82: a good bank A is loaded and goes to VERIFY; a blank one leaves BOOT for bank B. -/
theorem test_load_bank : (wNext (exec (.routeMapLoad false 0) { mem := { flashA := wMem 0xFF#8 wBytes } })).node.dev.st = .verify := by decide +kernel
theorem test_load_blank_bank : (wNext (exec (.routeMapLoad false 0) {})).node.ld.sel = .bankB := by decide +kernel

/-- R78: SUBMIT with LIVE_END = 0 is refused with code MISSING. -/
theorem test_submit_empty : (wEx (.submitLive .m1) wN).ld.err.code = 0x0A := by decide +kernel

/-- R99, R100: the watchdog's reset goes to BOOT with cause WDOG. -/
theorem test_watchdog_cause : (wEx (.watchdogExpiry false) wN).dev.st = .boot ∧ resetCauseWord (wEx (.watchdogExpiry false) wN) = 4#32 := by decide +kernel

/-- R91: a RUN command of READY takes effect at the next scan tick; its key is 0x5EA5. -/
theorem test_run_entry : (wEx (.runEntry 250000) { wN with dev := { st := .ready, pend := .run } }).dev.st = .run := by decide +kernel
theorem test_run_wrong_key : (wEx (.runCmd .m1 0x5EA4#16) { wN with dev := { st := .ready } }).dev.pend = .none := by decide +kernel

/-- spec/17, example step 1: a lockstep mismatch in RUN brings DEV_STATE 0x68 and SAFE_CAUSE 1. -/
theorem test_lockstep_safe : devStateWord (wEx (.lockstepMismatch 0) (wPair .active)) = 0x68#32 ∧ (wEx (.lockstepMismatch 0) (wPair .active)).dev.safeCause = 1 := by decide +kernel

/-- R111: the response of a frame carries the tag of the frame before. -/
theorem test_spi_tag : (wEx (.spiWrite 0xA5#8 0x0840#15 4#32 0) wN).spi.resp.tag = 0xA5#8 := by decide +kernel

/-- R135: a write of 1 clears a flag. -/
theorem test_event_clear : (wEx (.evtStatWrite .m1 0 1#32 0#32) { wN with evt := { stat := 3#128 } }).evt.stat = 2#128 := by decide +kernel

/-- R147: a post makes the channel POSTED, with the sender in bits 15:8 of word 1. -/
theorem test_post : ((wEx (.mbPost 5#8 31) (wLock 5 8)).mbChan 31).st = .posted ∧ ((wEx (.mbPost 5#8 31) (wLock 5 8)).mbChan 31).msg.getD 1 0#32 = 0x500#32 := by decide +kernel

/-- R129: a write sets EXPERT of one block only. -/
theorem test_expert_of_one_block : (List.range 24).filter (wEx (.blkCtrlWrite .m1 8 1#32) { wN with blk := [] }).expert = [8] := by decide +kernel

/-- R106, R130: a write of an X-level register with EXPERT = 0 is answered EXPERT_LOCKED. -/
theorem test_expert_locked : ((wEx (.uiFiltWrite .m1 41 0x102#32) { wN with blk := [] }).port .m1).ans.status = 3 := by decide +kernel

/-- spec/06, example: the moisture transmitter of UI41 at 8.64 mA reads 15.80 %. -/
def wUi41 : Node :=
  { wIm [wCh 1 41 [(3, 0xFE), (4, 9), (8, 6), (16, 0x93), (17, 0x18), (18, 4), (20, 0xF4), (21, 1), (26, 31)]] [] with ui := [(41, { conv := true })] }
theorem test_moisture : (wEx (.uiConversionComplete 41 8640000 0 0 (10 ^ 8)) wUi41).jn.slots.map (fun r => r.entries.map (·.value)) = [[0x062C#32]] := by decide +kernel
theorem test_moisture_full : (wEx (.uiConversionComplete 41 20000000 0 0 (10 ^ 8)) wUi41).jn.slots.map (fun r => r.entries.map (·.value)) = [[3000#32]] := by decide +kernel

/-- R161: rate code 11 is refused, and the filter in force stands. -/
theorem test_filter_refused : ((wEx (.uiFiltWrite .m1 41 11#32) wUi41).uiC 41).cfgRefused = true ∧ ((wEx (.uiFiltWrite .m1 41 11#32) wUi41).uiC 41).pend = none := by decide +kernel

/-- R187: VSET 3 is reserved. -/
theorem test_excitation_reserved : ((wEx (.exCtrlWrite .m1 3 0x31#32) wN).exC 3).refused = true := by decide +kernel

/-- spec/07, example: A = 9 mΩ passes the test of 8 × TOL and the round goes on to step 3. -/
theorem test_round_passes : ((wEx (.bypassTakeover 0 0 9150000000) { wIm [wCh 1 10 [(8, 4), (16, 0x80), (17, 0x84), (18, 0x1E)]] [] with cal := { bcs := [(0, { step := 3, chan := 10, cnt1 := 4, sum1 := 36 })] } }).bcOf 0).step = 4 := by decide +kernel

/-- R204: with no round on it, the converter of UI41 fails and BC 2 pre-rolls for it without event 22; the first settled result
makes the detour stand. -/
def wFail : Node := wEx (.converterFault 41 0) wUi41
theorem test_preroll : (wFail.bcOf 2).chan = 41 ∧ wFail.evt.flag 22 = false ∧ (wFail.uiC 41).src = 0 := by decide +kernel
theorem test_preroll_done :
    ((wEx (.uiConversionComplete 41 0 8640000 0 (10 ^ 12)) wFail).uiC 41).src = 2 ∧ (wEx (.uiConversionComplete 41 0 8640000 0 (10 ^ 12)) wFail).evt.flag 22 = true := by decide +kernel

/-- R212: the median of three. -/
theorem test_triad_median : (wEx (.triadVote 15 0) (wIm [] [wLeg 6 [⟨3, 16, [wB 16 [(0, 15), (3, 0x20), (4, 0x40), (5, 0x20), (6, 0x80), (7, 0x20), (8, 9), (12, 1)]], true⟩]] |>
    fun n => { n with jn := { store := [(0x2000, { value := 7#32, q := 1#8, has := true }), (0x2040, { value := 2#32, q := 1#8, has := true }), (0x2080, { value := 5#32, q := 1#8, has := true })] } })).jn.slots.map
    (fun r => r.entries.map (·.value)) = [[5#32]] := by decide +kernel

/-- R240: a range request in AUTO is refused. -/
theorem test_range_refused : ((wEx (.caRangeRequest .m1 0 0x101#32) (wIm [wCh 4 0 [(8, 1), (10, 1)]] [])).caC 0).refused = true := by decide +kernel

/-- spec/09, example: LO8 between 4,000 and 20,000 µA carries 17,600 µA at 850,000 ppm and 19,200 µA at 950,000 ppm. -/
def wLo8 : Node := wIm [wCh 5 8 [(8, 1), (16, 0xA0), (17, 0x0F), (18, 0x20), (19, 0x4E)]] []
theorem test_loop_current : ((wEx (.loDemandWrite .m1 8 850000#32) wLo8).loC 8).cmd = 17600 ∧ ((wEx (.loDemandWrite .m1 8 950000#32) wLo8).loC 8).cmd = 19200 := by decide +kernel

/-- R255: a miswired channel is disconnected, and stays marked after its reconnection. -/
theorem test_miswire : (wEx (.miswireDetect 64 0) wN).miswired 64 = true ∧ (wEx (.miswireReconnect 64 0) (wEx (.miswireDetect 64 0) wN)).mw.flg.getLsbD 64 = true := by decide +kernel

/-- R272: a change counts. -/
theorem test_input_change : ((wEx (.diChangeAccepted 0 true 2500) { wIm [wCh 0x0E 0 [(9, 1)]] [] with dig := { di := [(0, { accepted := true })] } }).diC 0).cnt = 1#32 := by decide +kernel

/-- R282: an output on by command goes off at an overload, and not before. -/
def wDo4 : Node := { wIm [wCh 0x0A 4] [] with dig := { fpMv := [(0, 24000)] } }
theorem test_output_command : ((wEx (.doCmdWrite .m1 4 1#32 0) wDo4).doC 4).on = true := by decide +kernel
theorem test_output_overload : ((wEx (.doOverload 4 0) (wEx (.doCmdWrite .m1 4 1#32 0) wDo4)).doC 4).on = false := by decide +kernel

/-- spec/11, examples: the words of INJECT and PRIME. -/
theorem test_seti_word : ((wEx (.seti 15 0) (wSv 0x0C000226 { running := true })).svC 15).tgt20 = 20 * 5500 ∧ ((wEx (.seti 15 0) (wSv 0x0C000226 { running := true })).svC 15).phase = 1 := by decide +kernel
theorem test_waiti_word : ((wEx (.waiti 15 0) (wSv 0x2083221C { running := true })).svC 15).wait = .current false 5400 500000 8 := by decide +kernel
theorem test_waiti_fall_word : ((wEx (.waiti 15 0) (wSv 0x24A7D005 { running := true, im := 100 })).svC 15).wait = .current true 50 1250000 10 := by decide +kernel
theorem test_waitt_word : ((wEx (.waitt 15 0) (wSv 0x18000BB8 { running := true })).svC 15).wait = .till 75000 := by decide +kernel
theorem test_hold_word : ((wEx (.holdIns 15 0) (wSv 0x3004B078 { running := true })).svC 15).wait = .hold (some 750000) ∧ ((wEx (.holdIns 15 0) (wSv 0x3004B078 { running := true })).svC 15).tgt20 = 24000 := by decide +kernel
theorem test_jif_word : ((wEx (.jif 15 0) (wSv 0x54000004 { running := true })).svC 15).pc = 4 := by decide +kernel
theorem test_flag_word : ((wEx (.flagIns 15 0) (wSv 0x60000101 { running := true })).svC 15).bad = true ∧ ((wEx (.flagIns 15 0) (wSv 0x60000101 { running := true })).svC 15).uflag = 2#32 := by decide +kernel
def wLoop (n : Node) : Node := wEx (.loopIns 15 0) n
theorem test_loop_word : (let n := wSv 0x58000300 { running := true }
    [((wLoop n).svC 15).pc, ((wLoop (wLoop n)).svC 15).pc, ((wLoop (wLoop (wLoop n))).svC 15).pc]) = [0, 0, 1] := by decide +kernel

/-- R325, R330: a step forward from 0xFFFF_FFFF wraps upward. -/
theorem test_count_wraps : ((wEx (.pfEdge 7 (.lines true false false) 10) (wPf 1 { c := 0xFFFFFFFF#32 })).pfC 7).c = 0#32
    ∧ ((wEx (.pfEdge 7 (.lines true false false) 10) (wPf 1 { c := 0xFFFFFFFF#32 })).pfC 7).wrapCnt = 1#32 := by decide +kernel

/-- spec/12, example step 7: both lines change in one sample. -/
theorem test_quadrature_error : ((wEx (.quadratureError 7 (.lines true true false) 50000000) (wPf 1 { c := 1001#32 })).pfC 7).c = 1001#32
    ∧ ((wEx (.quadratureError 7 (.lines true true false) 50000000) (wPf 1 { c := 1001#32 })).pfC 7).qerrCnt = 1 := by decide +kernel

/-- spec/12, example: CMP_DATA0 and CMP_DATA1 of entry 0. -/
theorem test_compare_words : (cmpDataWord (wIm [] [wLeg 9 [⟨1, 16, [wB 16 [(2, 0x38), (3, 6), (4, 0xB0), (5, 0x36), (9, 2)]], true⟩]]) 0, cmpDataWord (wIm [] [wLeg 9 [⟨1, 16, [wB 16 [(2, 0x38), (3, 6), (4, 0xB0), (5, 0x36), (9, 2)]], true⟩]]) 1)
    = (0x06380000#32, 0x36B0#32) := by decide +kernel

/-- spec/13, example: the evaluation of CL4, at a DEVTIME at which R351 has it fall due. -/
def wCl4 (pv : Word) (l : Lane) : Node :=
  { wIm [] [wLeg 0x0A [⟨1, 128, [wB 128 [(0, 4), (2, 7), (3, 2), (4, 0xA0), (5, 0x86), (6, 1), (12, 0x40), (13, 0x2A), (18, 0), (19, 8)]], true⟩, ⟨2, 32, [], true⟩]] with
    ln := [(4, { l with par := { kp := 209715, ki := 715828, kd := 12, kf := 3121, shifts := 0x10001F14#32, ilo := 0, ihi := 400, olo := 50, ohi := 400, feLim := 150, feTime := 1800000 },
                        act := 2, req := 2, sp := 1450, prevAct := some 2, prevPv := true })]
    jn := { store := [(0x2A40, { value := pv, q := 1#8, has := true })] } }
def wEval : Lane := (wEx (.laneEvaluation 4 2500000000) (wCl4 1580#32 { i := 240, ires := 10000000, f := -1572, fres := 10000 })).lnC 4
theorem test_lane_output : wEval.u = some 201 ∧ wEval.i = 239 ∧ wEval.f = -1573 := by decide +kernel
theorem test_lane_remainders : wEval.ires = 2064426008 ∧ wEval.fres = 50568 ∧ wEval.p = -26 ∧ wEval.d = -12 := by decide +kernel

/-- R360: mode code 5 is refused. -/
theorem test_lane_mode_refused : ((wEx (.lnModeRequest .m1 31 5#32) (wLn {})).lnC 31).cmdRefused = true := by decide +kernel

/-- spec/14, example: UI10 at 9,012 starts the on-delay of point 310, which expires 5 s later. -/
def wPt310 (p : AlmPt) : Node :=
  { wIm [] [wLeg 0x0B [⟨1, 32, List.replicate 310 (wB 32 []) ++ [wB 32 [(0, 0x80), (1, 0x22), (4, 1), (5, 1), (6, 0x0D), (8, 0x28), (9, 0x23), (12, 0xC8), (16, 0xF4), (17, 1), (20, 12), (22, 0x36), (23, 1)]], true⟩]] with
    alm := { pts := [(310, p)] }, jn := { slots := [⟨10, 0, [⟨0x2280, 9012#32, 1#8⟩], 1#8, 500000012000, 0⟩] } }
theorem test_alarm_condition : ((wEx .junctionDrain (wPt310 {})).almP 310).cond = true ∧ ((wEx .junctionDrain (wPt310 {})).almP 310).onAt = some 500000012000 := by decide +kernel
theorem test_alarm_raised : ((wEx (.onDelayExpiry 310 501250250000) (wPt310 { cond := true, onAt := some 500000012000 })).almP 310).st = 1 := by decide +kernel

/-- R388: an acknowledgement of an active point. -/
theorem test_alarm_acknowledged : ((wEx (.ackPt .m1 310 0) (wPt310 { cond := true, st := 1 })).almP 310).st = 2 := by decide +kernel

/-- R406: a START waits for the scan tick. -/
theorem test_sequence_start_waits : ((wEx (.seqStart .m1 7 none 0) (wSq {})).sq 7).st = 0 ∧ ((wEx (.seqStart .m1 7 none 0) (wSq {})).sq 7).q = [1#32] := by decide +kernel

/-- R439: BIAS_ON starts the rise. -/
theorem test_bias_on : (wEx (.biasOn .m1 0) (wIm [] [wLeg 0x0E [⟨4, 32, [], true⟩]])).dsp.bias = 1 := by decide +kernel

/-- R456: an eligible STANDBY takes control at SL_ROLE_IN low, with event 112; an ineligible one does not. -/
theorem test_takeover : (wEx (.roleInLow 0) (wElig .standby)).dup.role ≠ .standby ∧ (wEx (.roleInLow 0) (wElig .standby)).evt.flag 112 = true := by decide +kernel
theorem test_no_takeover : (wEx (.roleInLow 0) (wPair .standby)).dup.role = .standby := by decide +kernel

/-- R472, R478: the calendar's end is 23:59:59 on 31 December 2399. -/
theorem test_calendar_end : tsetDecode 0x235959#32 0x23991231#32 = some (0x02F060597F, 2399) := by decide +kernel
theorem test_leap_day : tsetDecode 0x000000#32 0x21000229#32 = none ∧ tsetDecode 0x000000#32 0x20000229#32 = some (59 * 86400, 2000) := by decide +kernel
theorem test_clock_end : (wEx (.clockSecond 0) { wN with clk := { secs := 0x02F060597F } }).clk.rangeEnd = true := by decide +kernel

/-- R494: a record appended takes the next sequence number. -/
theorem test_append : (wEx (.recAppend .m1 0x80#32 0) { wN with mram := { wN.mram with seq := 41#32 } }).mram.seq = 42#32 := by decide +kernel

/-- spec/19, example: function 0x10 sets LN_SP of CL4 to 1,450. -/
theorem test_modbus_setpoint : ((wEx (.writeMultipleRegisters ⟨false, 0, 0#16, 1#8⟩ 8 [0#16, 0x05AA#16] 0) (wCl4 0#32 {})).lnC 4).sp = 1450 := by decide +kernel

/-- spec/19, example: signal 5 of CAN0 reads 1,038.2 °C, and all ones leave its VALUE with VALID = 0. -/
def wSig5 : Node := { wIm [] [wLeg 0x11 [⟨2, 16, [leBytes 2 5 ++ leBytes 4 0x58FF2040 ++ leBytes 4 0x03E01E10 ++ [1#8, 0#8, 0x70#8, 0xFE#8, 10#8, 4#8]], true⟩]] with net := { lastVal := [(5, 10382#32)] } }
def wFrame (a b : Byte) : CanFrame := ⟨false, true, false, false, 0x18FF2040#29, [0#8, 0#8, a, b, 0#8, 0#8, 0#8, 0#8]⟩
theorem test_can_signal : (wEx (.canFrameReceive (wFrame 0x1E#8 0x2A#8) 0) wSig5).jn.slots.map (fun r => r.entries) = [[⟨0x7C28, 10382#32, 1#8⟩]] := by decide +kernel
theorem test_can_signal_absent : (wEx (.canFrameReceive (wFrame 0xFF#8 0xFF#8) 0) wSig5).jn.slots.map (fun r => r.entries) = [[⟨0x7C28, 10382#32, 0#8⟩]] := by decide +kernel

/-! ### Every statement with hypotheses: a state and operands that meet them -/

theorem test_meets_StepIdlesOnAnEmptyQueue :
    (∃ (s : State), s.pending = []) :=
  ⟨{}, by decide +kernel⟩

theorem test_meets_TicksAdvanceTheTimeBase :
    (∃ (s : State), s.node.up = true) ∧
    (∃ (s : State), s.node.up = true) :=
  ⟨⟨(wSt wN), by decide +kernel⟩,
   ⟨(wSt wN), by decide +kernel⟩⟩

theorem test_meets_IslandFaultsMarkTheIsland :
    (∃ (i : Fin 12) (s : State), s.node.up = true ∧ s.node.islSt i.val = .run) ∧
    (∃ (a : Fin 12) (b : Fin 12) (s : State), s.node.up = true ∧ s.node.islSt (farEnd a.val b.val) = .run) ∧
    (∃ (i : Fin 12) (s : State), s.node.up = true ∧ s.node.islSt i.val ∈ [IslState.off, .fault]) ∧
    (∃ (a : Fin 12) (b : Fin 12) (s : State), s.node.up = true ∧ s.node.islSt (farEnd a.val b.val) ∈ [IslState.off, .fault]) :=
  ⟨⟨11, (wSt wN), by decide +kernel⟩,
   ⟨11, 11, (wSt wN), by decide +kernel⟩,
   ⟨11, (wSt { wN with isl := { wN.isl with states := List.replicate 12 .fault } }), by decide +kernel⟩,
   ⟨11, 11, (wSt { wN with isl := { wN.isl with states := List.replicate 12 .fault } }), by decide +kernel⟩⟩

theorem test_meets_EnginesAndLockstep :
    (∃ (e : Fin 16) (s : State), s.node.up = true ∧ s.node.isl.roles.length = 16 ∧ (s.node.isl.roles.getD e.val 0#8).toNat < 0xF0) ∧
    (∃ (e : Fin 16) (k : Nat) (ro : Byte) (s : State), s.node.up = true ∧ s.node.isl.roles.length = 16 ∧ k < 16 ∧ s.node.isl.paused = [(k, ro, e.val)]) ∧
    (∃ (s : State), s.node.up = true ∧ s.node.acq = true ∧ s.node.pair = false) ∧
    (∃ (e : Fin 16) (j : Nat) (s : State), s.node.up = true ∧ s.node.isl.roles.length = 16 ∧ (s.node.isl.roles.getD e.val 0#8).toNat / 16 = 3 ∧ j < 16 ∧ (s.node.isl.roles.getD j 0#8).toNat / 16 = 14 ∧ s.node.isl.paused = [] ∧ ((s.node.genC ((s.node.isl.roles.getD e.val 0#8).toNat % 16 / 2)).state = 1 ∨ (s.node.genC ((s.node.isl.roles.getD e.val 0#8).toNat % 16 / 2)).state = 2)) :=
  ⟨⟨0, (wSt wN), by decide +kernel⟩,
   ⟨3, 14, 0x30#8, (wSt { wN with isl := { wN.isl with paused := [(14, 0x30#8, 3)] } }), by decide +kernel⟩,
   ⟨(wSt wN), by decide +kernel⟩,
   ⟨15, 0, (wSt { wN with isl := { wN.isl with roles := 0xE0#8 :: List.replicate 14 0#8 ++ [0x30#8] }, gen := [(0, { state := 1 })] }), by decide +kernel⟩⟩

theorem test_meets_LatchedReads :
    (∃ (s : State), Serves s 0x0010) ∧
    (∃ (p : HostPort) (w : Word) (s : State), Serves s 0x0014 ∧ (s.node.port p).devHi = some w) ∧
    (∃ (p : HostPort) (s : State), Serves s 0x0014 ∧ (s.node.port p).devHi = none) ∧
    (∃ (s : State), s.node.up = true) ∧
    (∃ (p : HostPort) (r : Fin 518) (w : Word) (s : State), s.node.up = true ∧ (s.node.port p).latch = some (resAddr r.val, w)) ∧
    (∃ (p : HostPort) (r : Fin 518) (s : State), s.node.up = true ∧ (∀ w, (s.node.port p).latch ≠ some (resAddr r.val, w))) ∧
    (∃ (s : State), s.node.up = true) :=
  ⟨⟨(wSt wN), by unfold Serves; decide +kernel⟩,
   ⟨.m5, 5#32, (wSt { wN with ports := { m5 := { devHi := some 5#32 } } }), by unfold Serves; decide +kernel⟩,
   ⟨.m5, (wSt wN), by unfold Serves; decide +kernel⟩,
   ⟨(wSt { wN with jn := { store := [(resAddr 517, { value := 7#32, q := 1#8, has := true, fresh := 15#4 })] } }), by decide +kernel⟩,
   ⟨.m5, 517, 0#32, (wSt { wN with ports := { m5 := { latch := some (resAddr 517, 0#32) } } }), by decide +kernel⟩,
   ⟨.m5, 517, (wSt { wN with jn := { store := [(resAddr 517, { value := 7#32, q := 1#8, has := true, fresh := 15#4 })] }, ports := { m5 := { latch := some (0x2000, 9#32) } } }), by decide +kernel, fun w h => absurd (congrArg (Option.map Prod.fst) h) (show Option.map Prod.fst (some ((0x2000 : Nat), (9#32 : Word))) ≠ some (resAddr 517) by decide)⟩,
   ⟨(wSt { wN with jn := { store := [(resAddr 517, { value := 7#32, q := 1#8, has := true, fresh := 15#4 })] } }), by decide +kernel⟩⟩

theorem test_meets_StoreTakesAndLosesResults :
    (∃ (r : Record) (e : Entry) (s : State), s.node.up = true ∧ s.node.dup.role ≠ .standby ∧ s.node.dup.taking = false ∧ s.node.jn.slots = [r] ∧ r.entries = [e] ∧ s.node.recs 0x06 2 = []) ∧
    (∃ (r : Fin 518) (e : Nat) (t : Nat) (s : State), s.node.up = true ∧ s.node.dup.role ≠ .standby ∧ (s.node.res (resAddr r.val)).has = true ∧ (s.node.res (resAddr r.val)).lost = false ∧ qHas (s.node.res (resAddr r.val)).q qSTALE = false ∧ expectE s.node (resAddr r.val) = some e ∧ (s.node.res (resAddr r.val)).time + 3 * e < timeAfter s t) ∧
    (∃ (s : State), s.node.up = true ∧ s.node.dtr.corr ≠ 0xFFFFFFFF#32) ∧
    (∃ (s : State), s.node.up = true ∧ s.node.dtr.unc ≠ 0xFFFFFFFF#32) :=
  ⟨⟨⟨16, 0, [⟨0x2000, 1#32, 1#8⟩], 1#8, 0, 0⟩, ⟨0x2000, 1#32, 1#8⟩, (wSt { wN with jn := { slots := [⟨16, 0, [⟨0x2000, 1#32, 1#8⟩], 1#8, 0, 0⟩] } }), by decide +kernel⟩,
   ⟨0, (uiPeriod 0), (10 ^ 12), (wSt { wN with jn := { store := [(0x2000, { has := true, q := 1#8 })] } }), by decide +kernel⟩,
   ⟨(wSt wN), by decide +kernel⟩,
   ⟨(wSt wN), by decide +kernel⟩⟩

theorem test_meets_OutstandingReadCompletes :
    (∃ (tag : Byte) (a : Nat) (t : Nat) (st : Nat) (w : Word) (n' : Node) (s : State), Serves s a ∧ (regAttr a).isSome = true ∧ s.node.spi.outst = some (tag, .rd a) ∧ s.node.net.fwds = [] ∧ regRead .m1 a s.mem (s.node.advance t) = (st, w, n')) ∧
    (∃ (tag : Byte) (r : Fin 518) (s : State), s.node.up = true ∧ s.node.spi.outst = some (tag, .rd (resAddr r.val)) ∧ s.node.net.fwds = []) ∧
    (∃ (tag : Byte) (a : Nat) (v : Word) (t : Nat) (x : Bool) (st : Nat) (m' : Mems) (n' : Node) (s : State), Takes s a ∧ regAttr a = some ⟨x, .wr⟩ ∧ s.node.spi.outst = some (tag, .wr a v) ∧ s.node.net.fwds = [] ∧ regWrite .m1 a v s.mem (s.node.advance t) = (st, m', n')) ∧
    (∃ (tag : Byte) (a : Nat) (v : Word) (x : RegAttr) (s : State), s.node.up = true ∧ regAttr a = some x ∧ forwards s.node a = true ∧ linkUp s.node = true ∧ levelLocked s.node a x = false ∧ s.node.spi.outst = some (tag, .wr a v) ∧ s.node.net.fwds = []) ∧
    (∃ (x : Session) (seq : BitVec 16) (op : Nat) (a : Nat) (t : Nat) (st : Nat) (w : Word) (n' : Node) (s : State), Serves s a ∧ (regAttr a).isSome = true ∧ s.node.wf.find? (fun y => y.number == x.number) = some x ∧ x.outst = some (seq, op, .rd a) ∧ regRead (netPort x.net) a s.mem (s.node.advance t) = (st, w, n')) ∧
    (∃ (x : Session) (seq : BitVec 16) (op : Nat) (a : Nat) (v : Word) (t : Nat) (y : Bool) (st : Nat) (m' : Mems) (n' : Node) (s : State), Takes s a ∧ regAttr a = some ⟨y, .wr⟩ ∧ s.node.wf.find? (fun z => z.number == x.number) = some x ∧ x.outst = some (seq, op, .wr a v) ∧ s.node.net.fwds = [] ∧ regWrite (netPort x.net) a v s.mem (s.node.advance t) = (st, m', n')) ∧
    (∃ (x : Session) (seq : BitVec 16) (op : Nat) (a : Nat) (step : Nat) (t : Nat) (done : List Word) (w : Word) (n' : Node) (s : State), Serves s a ∧ (regAttr a).isSome = true ∧ s.node.wf.find? (fun y => y.number == x.number) = some x ∧ x.outst = some (seq, op, .burst a 1 step done) ∧ regRead (netPort x.net) a s.mem (s.node.advance t) = (0, w, n')) ∧
    (∃ (tag : Byte) (r : Fin 518) (s : State), s.node.up = true ∧ s.node.net.svc = some (tag, .rd (resAddr r.val)) ∧ s.node.net.fwds = []) ∧
    (∃ (tag : Byte) (a : Nat) (v : Word) (t : Nat) (x : Bool) (m' : Mems) (n' : Node) (s : State), Takes s a ∧ regAttr a = some ⟨x, .wr⟩ ∧ s.node.net.svc = some (tag, .wr a v) ∧ s.node.net.fwds = [] ∧ regWrite .m5 a v s.mem (s.node.advance t) = (0, m', n') ∧ svcRspWord n' = svcRspWord s.node) :=
  ⟨⟨7#8, 0x380C, 0, (regRead .m1 0x380C {} (({ wN with spi := { outst := some (7#8, .rd 0x380C) } }).advance 0)).1, (regRead .m1 0x380C {} (({ wN with spi := { outst := some (7#8, .rd 0x380C) } }).advance 0)).2.1, (regRead .m1 0x380C {} (({ wN with spi := { outst := some (7#8, .rd 0x380C) } }).advance 0)).2.2, (wSt { wN with spi := { outst := some (7#8, .rd 0x380C) } }), by unfold Serves; decide +kernel, by decide +kernel, by decide +kernel, by decide +kernel, rfl⟩,
   ⟨0#8, 517, (wSt { wN with spi := { outst := some (0#8, .rd (resAddr 517)) } }), by decide +kernel⟩,
   ⟨7#8, 0x380C, 5#32, 0, false, (regWrite .m1 0x380C 5#32 {} (({ wN with spi := { outst := some (7#8, .wr 0x380C 5#32) } }).advance 0)).1, (regWrite .m1 0x380C 5#32 {} (({ wN with spi := { outst := some (7#8, .wr 0x380C 5#32) } }).advance 0)).2.1, (regWrite .m1 0x380C 5#32 {} (({ wN with spi := { outst := some (7#8, .wr 0x380C 5#32) } }).advance 0)).2.2, (wSt { wN with spi := { outst := some (7#8, .wr 0x380C 5#32) } }), by unfold Takes; decide +kernel, by decide +kernel, by decide +kernel, by decide +kernel, rfl⟩,
   ⟨7#8, 0x380C, 5#32, ⟨false, .wr⟩, (wSt { wPair .standby with spi := { outst := some (7#8, .wr 0x380C 5#32) } }), by decide +kernel⟩,
   ⟨⟨false, 1#32, 0, 1, none, none, 0, some (2#16, 16, .rd 0x380C), none, 0⟩, 2#16, 16, 0x380C, 0, (regRead .m3 0x380C {} (({ wN with wf := [⟨false, 1#32, 0, 1, none, none, 0, some (2#16, 16, .rd 0x380C), none, 0⟩] }).advance 0)).1, (regRead .m3 0x380C {} (({ wN with wf := [⟨false, 1#32, 0, 1, none, none, 0, some (2#16, 16, .rd 0x380C), none, 0⟩] }).advance 0)).2.1, (regRead .m3 0x380C {} (({ wN with wf := [⟨false, 1#32, 0, 1, none, none, 0, some (2#16, 16, .rd 0x380C), none, 0⟩] }).advance 0)).2.2, (wSt { wN with wf := [⟨false, 1#32, 0, 1, none, none, 0, some (2#16, 16, .rd 0x380C), none, 0⟩] }), by unfold Serves; decide +kernel, by decide +kernel, by decide +kernel, by decide +kernel, rfl⟩,
   ⟨⟨false, 1#32, 0, 1, none, none, 0, some (2#16, 16, .wr 0x380C 5#32), none, 0⟩, 2#16, 16, 0x380C, 5#32, 0, false, (regWrite .m3 0x380C 5#32 {} (({ wN with wf := [⟨false, 1#32, 0, 1, none, none, 0, some (2#16, 16, .wr 0x380C 5#32), none, 0⟩] }).advance 0)).1, (regWrite .m3 0x380C 5#32 {} (({ wN with wf := [⟨false, 1#32, 0, 1, none, none, 0, some (2#16, 16, .wr 0x380C 5#32), none, 0⟩] }).advance 0)).2.1, (regWrite .m3 0x380C 5#32 {} (({ wN with wf := [⟨false, 1#32, 0, 1, none, none, 0, some (2#16, 16, .wr 0x380C 5#32), none, 0⟩] }).advance 0)).2.2, (wSt { wN with wf := [⟨false, 1#32, 0, 1, none, none, 0, some (2#16, 16, .wr 0x380C 5#32), none, 0⟩] }), by unfold Takes; decide +kernel, by decide +kernel, by decide +kernel, by decide +kernel, by decide +kernel, rfl⟩,
   ⟨⟨false, 1#32, 0, 1, none, none, 0, some (2#16, 16, .burst 0x380C 1 4 [3#32]), none, 0⟩, 2#16, 16, 0x380C, 4, 0, [3#32], (regRead .m3 0x380C {} (({ wN with wf := [⟨false, 1#32, 0, 1, none, none, 0, some (2#16, 16, .burst 0x380C 1 4 [3#32]), none, 0⟩] }).advance 0)).2.1, (regRead .m3 0x380C {} (({ wN with wf := [⟨false, 1#32, 0, 1, none, none, 0, some (2#16, 16, .burst 0x380C 1 4 [3#32]), none, 0⟩] }).advance 0)).2.2, (wSt { wN with wf := [⟨false, 1#32, 0, 1, none, none, 0, some (2#16, 16, .burst 0x380C 1 4 [3#32]), none, 0⟩] }), by unfold Serves; decide +kernel, by decide +kernel, by decide +kernel, by decide +kernel, rfl⟩,
   ⟨7#8, 517, (wSt { wN with net := { svc := some (7#8, .rd (resAddr 517)) }, jn := { store := [(resAddr 517, { value := 7#32, q := 1#8, has := true, fresh := 15#4 })] } }), by decide +kernel⟩,
   ⟨7#8, 0x380C, 5#32, 0, false, (regWrite .m5 0x380C 5#32 {} (({ wN with net := { svc := some (7#8, .wr 0x380C 5#32) } }).advance 0)).2.1, (regWrite .m5 0x380C 5#32 {} (({ wN with net := { svc := some (7#8, .wr 0x380C 5#32) } }).advance 0)).2.2, (wSt { wN with net := { svc := some (7#8, .wr 0x380C 5#32) } }), by unfold Takes; decide +kernel, by decide +kernel, by decide +kernel, by decide +kernel, rfl, by decide +kernel⟩⟩

theorem test_meets_StagingWindow :
    (∃ (s : State), Takes s 0x0840 ∧ s.node.ld.stgState ≠ 5 ∧ s.node.ld.stgState ≠ 8) ∧
    (∃ (s : State), Takes s 0x0844 ∧ s.node.ld.stgState ≠ 5 ∧ s.node.ld.stgState ≠ 8) ∧
    (∃ (s : State), Serves s 0x0844) ∧
    (∃ (s : State), Takes s 0x0844 ∧ (s.node.ld.stgState = 5 ∨ s.node.ld.stgState = 8)) ∧
    (∃ (s : State), Takes s 0x0840 ∧ (s.node.ld.stgState = 5 ∨ s.node.ld.stgState = 8)) :=
  ⟨⟨(wSt wN), by unfold Takes; decide +kernel⟩,
   ⟨(wSt wN), by unfold Takes; decide +kernel⟩,
   ⟨(wSt wN), by unfold Serves; decide +kernel⟩,
   ⟨(wSt { wN with ld := { wN.ld with stgState := 8 } }), by unfold Takes; decide +kernel⟩,
   ⟨(wSt { wN with ld := { wN.ld with stgState := 5 } }), by unfold Takes; decide +kernel⟩⟩

theorem test_meets_LoaderCommands :
    (∃ (s : State), Takes s 0x0804 ∧ s.node.ld.stgState ∈ [1, 3, 4, 6, 7]) ∧
    (∃ (s : State), Takes s 0x0804 ∧ s.node.ld.stgState ∈ [3, 6, 7] ∧ s.node.dev.st ∈ [DevSt.boot, .ready, .run, .degraded, .safe]) ∧
    (∃ (s : State), Takes s 0x0804 ∧ s.node.ld.stgState ∈ [3, 6, 7]) ∧
    (∃ (s : State), Takes s 0x0804 ∧ s.node.ld.stgState ≠ 5) :=
  ⟨⟨(wSt { wN with ld := { wN.ld with stgState := 1 } }), by unfold Takes; decide +kernel⟩,
   ⟨(wSt { wN with ld := { wN.ld with stgState := 3 } }), by unfold Takes; decide +kernel⟩,
   ⟨(wSt { wN with ld := { wN.ld with stgState := 7 } }), by unfold Takes; decide +kernel⟩,
   ⟨(wSt wN), by unfold Takes; decide +kernel⟩⟩

theorem test_meets_LoaderCommandsTurnedAway :
    (∃ (key : BitVec 16) (s : State), Takes s 0x0804 ∧ key ≠ 0x10AD#16) ∧
    (∃ (key : BitVec 16) (s : State), Takes s 0x0804 ∧ key = 0x10AD#16 ∧ s.node.ld.stgState = 5) ∧
    (∃ (s : State), Takes s 0x0804 ∧ s.node.ld.stgState ∈ [0, 2, 8]) ∧
    (∃ (s : State), Takes s 0x0804 ∧ s.node.ld.stgState ∈ [0, 1, 2, 4, 8]) ∧
    (∃ (s : State), Takes s 0x0804 ∧ s.node.dev.st ∈ [DevSt.load, .verify, .calibrate]) :=
  ⟨⟨0x10AE#16, (wSt wN), by unfold Takes; decide +kernel⟩,
   ⟨0x10AD#16, (wSt { wN with ld := { wN.ld with stgState := 5 } }), by unfold Takes; decide +kernel⟩,
   ⟨(wSt { wN with ld := { wN.ld with stgState := 2 } }), by unfold Takes; decide +kernel⟩,
   ⟨(wSt { wN with ld := { wN.ld with stgState := 2 } }), by unfold Takes; decide +kernel⟩,
   ⟨(wSt { wN with dev := { st := .verify }, ld := { wN.ld with stgState := 3 } }), by unfold Takes; decide +kernel⟩⟩

theorem test_meets_CheckAndProgramEnd :
    (∃ (s : State) (g : Image), s.node.up = true ∧ s.node.ld.stgState = 2 ∧ checkImage s.node.ld.lock (areaBytes 0#8 s.mem.staging) = .ok g) ∧
    (∃ (s : State) (e : RmFail), s.node.up = true ∧ s.node.ld.stgState = 2 ∧ checkImage s.node.ld.lock (areaBytes 0#8 s.mem.staging) = .error e) ∧
    (∃ (s : State), s.node.up = true ∧ s.node.ld.stgState = 5) :=
  ⟨⟨{ node := { wN with ld := { wN.ld with stgState := 2 } }, mem := { staging := wMem 0#8 wBytes } }, wVer, by decide +kernel⟩,
   ⟨(wSt { wN with ld := { wN.ld with stgState := 2 } }), ⟨1, 0, 0⟩, by decide +kernel, by decide +kernel, rfl⟩,
   ⟨(wSt { wN with ld := { wN.ld with stgState := 5 } }), by decide +kernel⟩⟩

theorem test_meets_LoadingPhases :
    (∃ (g : Image) (s : State), s.node.up = true ∧ s.node.dev.st = .boot ∧ s.node.ld.sel = .bankA ∧ loadBank s.mem.flashA false = .ok g) ∧
    (∃ (g : Image) (s : State), s.node.up = true ∧ s.node.dev.st = .boot ∧ s.node.ld.sel = .bankB ∧ loadBank s.mem.flashB false = .ok g) ∧
    (∃ (f : Bool) (e : RmFail) (s : State), s.node.up = true ∧ s.node.dev.st = .boot ∧ s.node.ld.sel = .bankA ∧ s.node.ld.tried = [] ∧ loadBank s.mem.flashA f = .error e) ∧
    (∃ (g : Image) (h : Image) (s : State), s.node.up = true ∧ s.node.dev.st = .verify ∧ s.node.ld.cand = some g ∧ verifyImage s.node.ld.lock g = .ok h) ∧
    (∃ (f : Bool) (e : RmFail) (s : State), s.node.up = true ∧ s.node.dev.st = .boot ∧ s.node.ld.sel = .bankB ∧ s.node.ld.tried = [.bankA] ∧ loadBank s.mem.flashB f = .error e) ∧
    (∃ (g : Image) (s : State), s.node.up = true ∧ s.node.dev.st = .load ∧ s.node.ld.sel = .staging ∧ loadImage (areaBytes 0#8 s.mem.staging) = .ok g) ∧
    (∃ (e : RmFail) (s : State), s.node.up = true ∧ s.node.dev.st = .load ∧ s.node.ld.sel = .staging ∧ loadImage (areaBytes 0#8 s.mem.staging) = .error e) ∧
    (∃ (g : Image) (e : RmFail) (s : State), s.node.up = true ∧ s.node.dev.st = .verify ∧ s.node.ld.cand = some g ∧ verifyImage s.node.ld.lock g = .error e) :=
  ⟨⟨wSmall, { mem := { flashA := wMem 0xFF#8 wBytes } }, by decide +kernel⟩,
   ⟨wSmall, { node := { ld := { sel := .bankB } }, mem := { flashB := wMem 0xFF#8 wBytes } }, by decide +kernel⟩,
   ⟨false, ⟨0x11, 0, 0⟩, {}, by decide +kernel⟩,
   ⟨wSmall, wVer, (wSt { dev := { st := .verify }, ld := { cand := some wSmall } }), by decide +kernel⟩,
   ⟨false, ⟨0x11, 0, 0⟩, (wSt { ld := { sel := .bankB, tried := [.bankA] } }), by decide +kernel⟩,
   ⟨wSmall, { node := { dev := { st := .load }, ld := { sel := .staging } }, mem := { staging := wMem 0#8 wBytes } }, by decide +kernel⟩,
   ⟨⟨1, 0, 0⟩, (wSt { dev := { st := .load }, ld := { sel := .staging } }), by decide +kernel⟩,
   ⟨(wImg [] []), ⟨10, 1, 0⟩, (wSt { dev := { st := .verify }, ld := { cand := some (wImg [] []) } }), by decide +kernel⟩⟩

theorem test_meets_LiveReplacement :
    (∃ (s : State), Takes s 0x0854 ∧ s.node.ld.liveStat ≠ 2 ∧ s.node.ld.liveStat ≠ 3) ∧
    (∃ (s : State), Takes s 0x0858 ∧ s.node.acq = true ∧ s.node.ld.liveStat ≠ 2 ∧ s.node.ld.liveStat ≠ 3 ∧ s.mem.liveEnd ≠ 0) ∧
    (∃ (s : State), Takes s 0x0858 ∧ s.node.acq = true ∧ s.node.ld.liveStat ≠ 2 ∧ s.node.ld.liveStat ≠ 3 ∧ s.mem.liveEnd = 0) ∧
    (∃ (s : State), Takes s 0x0858 ∧ s.node.ld.liveStat ≠ 3) ∧
    (∃ (s : State) (g : Image) (ls : List Leg), s.node.up = true ∧ s.node.ld.img = some g ∧ s.node.ld.liveStat = 2 ∧ checkLive g ((liveGens s.node).map BitVec.toNat) (memBytes 0#8 s.mem.live 0 s.mem.liveEnd) = .ok ls) ∧
    (∃ (s : State) (g : Image), s.node.up = true ∧ s.node.ld.img = some g ∧ s.node.ld.liveStat = 3 ∧ commitDue s.node = false) ∧
    (∃ (s : State), Takes s 0x0858 ∧ (s.node.acq = false ∨ s.node.ld.liveStat = 2 ∨ s.node.ld.liveStat = 3)) ∧
    (∃ (s : State), Takes s 0x0858 ∧ s.node.ld.liveStat = 3) ∧
    (∃ (s : State), Takes s 0x0854 ∧ (s.node.ld.liveStat = 2 ∨ s.node.ld.liveStat = 3)) ∧
    (∃ (s : State) (g : Image) (e : RmFail), s.node.up = true ∧ s.node.ld.img = some g ∧ s.node.ld.liveStat = 2 ∧ checkLive g ((liveGens s.node).map BitVec.toNat) (memBytes 0#8 s.mem.live 0 s.mem.liveEnd) = .error e) ∧
    (∃ (s : State), s.node.up = true ∧ commitDue s.node = true) :=
  ⟨⟨(wSt wN), by unfold Takes; decide +kernel⟩,
   ⟨{ node := wN, mem := { liveEnd := 4 } }, by unfold Takes; decide +kernel⟩,
   ⟨(wSt wN), by unfold Takes; decide +kernel⟩,
   ⟨(wSt wN), by unfold Takes; decide +kernel⟩,
   ⟨{ node := { wN with ld := { wN.ld with liveStat := 2 } }, mem := { live := wMem 0#8 wLive, liveEnd := 28 } }, (wImg [] []), wLegs, by decide +kernel⟩,
   ⟨(wSt { wN with ld := { wN.ld with liveStat := 3 } }), (wImg [] []), by decide +kernel⟩,
   ⟨(wSt { wN with dev := { st := .safe } }), by unfold Takes; decide +kernel⟩,
   ⟨(wSt { wN with ld := { wN.ld with liveStat := 3 } }), by unfold Takes; decide +kernel⟩,
   ⟨(wSt { wN with ld := { wN.ld with liveStat := 3 } }), by unfold Takes; decide +kernel⟩,
   ⟨{ node := { wN with ld := { wN.ld with liveStat := 2 } }, mem := { liveEnd := 28 } }, (wImg [] []), ⟨5, 0, 0⟩, by decide +kernel⟩,
   ⟨(wSt { wN with ld := { wN.ld with stgState := 8, liveStat := 3 } }), by decide +kernel⟩⟩

theorem test_meets_ResetsBringBoot :
    (∃ (s : State), s.node.dev.st = .off ∧ s.node.dev.pinLow = false) ∧
    (∃ (s : State), s.node.dev.st ≠ .off) ∧
    (∃ (s : State), s.node.dev.st ≠ .off ∧ s.node.dev.pinLow = false) ∧
    (∃ (s : State), s.node.dev.st ≠ .off ∧ s.node.dev.pinLow = true) ∧
    (∃ (s : State), s.node.up = true) ∧
    (∃ (s : State), Takes s 0x0024) ∧
    (∃ (s : State), s.node.dev.st = .off ∧ s.node.dev.pinLow = true) ∧
    (∃ (s : State), s.node.dev.st ≠ .off) ∧
    (∃ (s : State), s.node.dev.st = .off) ∧
    (∃ (low : Bool) (s : State), s.node.dev.pinLow = low) ∧
    (∃ (low : Bool) (s : State), s.node.dev.pinLow ≠ low ∧ s.node.dev.st = .off) ∧
    (∃ (s : State), s.node.up = false) :=
  ⟨⟨(wSt { wN with dev := { st := .off } }), by decide +kernel⟩,
   ⟨(wSt wN), by decide +kernel⟩,
   ⟨(wSt wN), by decide +kernel⟩,
   ⟨(wSt { wN with dev := { st := .run, pinLow := true } }), by decide +kernel⟩,
   ⟨(wSt wN), by decide +kernel⟩,
   ⟨(wSt wN), by unfold Takes; decide +kernel⟩,
   ⟨(wSt { dev := { st := .off, pinLow := true } }), by decide +kernel⟩,
   ⟨(wSt wN), by decide +kernel⟩,
   ⟨(wSt { dev := { st := .off } }), by decide +kernel⟩,
   ⟨false, (wSt wN), by decide +kernel⟩,
   ⟨false, (wSt { dev := { st := .off, pinLow := true } }), by decide +kernel⟩,
   ⟨(wSt { dev := { st := .off } }), by decide +kernel⟩⟩

theorem test_meets_DeviceCommands :
    (∃ (s : State), Takes s 0x0024 ∧ s.node.dev.st = .ready) ∧
    (∃ (s : State), Takes s 0x0024 ∧ s.node.running = true) ∧
    (∃ (s : State), Takes s 0x0024 ∧ s.node.acq = true) ∧
    (∃ (key : BitVec 16) (s : State), Takes s 0x0024 ∧ key ≠ 0x5EA5#16) ∧
    (∃ (s : State), Takes s 0x0024 ∧ s.node.dev.st = .calibrate) ∧
    (∃ (s : State), Takes s 0x0024 ∧ s.node.acq = false) :=
  ⟨⟨(wSt { wN with dev := { st := .ready } }), by unfold Takes; decide +kernel⟩,
   ⟨(wSt wN), by unfold Takes; decide +kernel⟩,
   ⟨(wSt wN), by unfold Takes; decide +kernel⟩,
   ⟨0#16, (wSt { wN with dev := { st := .ready } }), by unfold Takes; decide +kernel⟩,
   ⟨(wSt { wN with dev := { st := .calibrate } }), by unfold Takes; decide +kernel⟩,
   ⟨(wSt { wN with dev := { st := .safe } }), by unfold Takes; decide +kernel⟩⟩

theorem test_meets_EntriesAndConditions :
    (∃ (s : State), s.node.up = true ∧ s.node.dev.st = .calibrate) ∧
    (∃ (s : State), s.node.up = true ∧ s.node.dev.st = .ready ∧ s.node.dev.pend = .run ∧ s.node.dup.findAt = none) ∧
    (∃ (s : State), s.node.up = true ∧ s.node.running = true ∧ s.node.dev.pend = .halt) ∧
    (∃ (s : State), s.node.up = true) ∧
    (∃ (s : State), s.node.up = true) ∧
    (∃ (s : State), s.node.up = true ∧ (s.node.dev.st ≠ .ready ∨ s.node.dev.pend ≠ .run ∨ s.node.dup.findAt ≠ none)) ∧
    (∃ (s : State), s.node.up = true ∧ (s.node.running = false ∨ s.node.dev.pend ≠ .halt)) :=
  ⟨⟨(wSt { wN with dev := { st := .calibrate } }), by decide +kernel⟩,
   ⟨(wSt { wN with dev := { st := .ready, pend := .run } }), by decide +kernel⟩,
   ⟨(wSt { wN with dev := { st := .run, pend := .halt } }), by decide +kernel⟩,
   ⟨(wSt wN), by decide +kernel⟩,
   ⟨(wSt wN), by decide +kernel⟩,
   ⟨(wSt wN), by decide +kernel⟩,
   ⟨(wSt wN), by decide +kernel⟩⟩

theorem test_meets_SpiFrames :
    (∃ (s : State), s.node.up = true ∧ s.node.spi.outst = none) ∧
    (∃ (op : BitVec 4) (s : State), s.node.up = true ∧ s.node.spi.outst = none ∧ 2 < op.toNat) ∧
    (∃ (a : BitVec 15) (t : Nat) (st : Nat) (w : Word) (n' : Node) (s : State), Serves s a.toNat ∧ s.node.spi.outst = none ∧ (regAttr a.toNat).isSome = true ∧ regIsl a.toNat false = 0 ∧ regRead .m1 a.toNat s.mem { (spiShift s.node.spi.resp (s.node.advance t)) with spi.resp := {} } = (st, w, n')) ∧
    (∃ (a : BitVec 15) (s : State), Serves s a.toNat ∧ s.node.spi.outst = none ∧ (regAttr a.toNat).isSome = true ∧ regIsl a.toNat false ≠ 0) ∧
    (∃ (a : BitVec 15) (s : State), s.node.up = true ∧ s.node.spi.outst = none ∧ regAttr a.toNat = none) ∧
    (∃ (s : State), Takes s 0x0840 ∧ s.node.spi.outst = none ∧ s.node.ld.stgState ≠ 5 ∧ s.node.ld.stgState ≠ 8) ∧
    (∃ (a : BitVec 15) (s : State), Takes s a.toNat ∧ s.node.spi.outst = none ∧ (regAttr a.toNat).isSome = true ∧ regIsl a.toNat true ≠ 0) ∧
    (∃ (tg : Byte) (c : Acc) (s : State), s.node.up = true ∧ s.node.spi.outst = some (tg, c)) ∧
    (∃ (s : State), s.node.up = true ∧ s.node.spi.outst = none) ∧
    (∃ (tg : Byte) (c : Acc) (s : State), s.node.up = true ∧ s.node.spi.outst = some (tg, c)) ∧
    (∃ (a : BitVec 15) (s : State), s.node.up = true ∧ s.node.spi.outst = none ∧ (regAttr a.toNat).isSome = true ∧ s.node.isRun (regIsl a.toNat false) = false ∧ isValue a.toNat = false ∧ isQseq a.toNat = false) ∧
    (∃ (a : BitVec 15) (v : Word) (t : Nat) (st : Nat) (x : Bool) (m' : Mems) (n' : Node) (s : State), Takes s a.toNat ∧ s.node.spi.outst = none ∧ regAttr a.toNat = some ⟨x, .wr⟩ ∧ regIsl a.toNat true = 0 ∧ regWrite .m1 a.toNat v s.mem { (spiShift s.node.spi.resp (s.node.advance t)) with spi.resp := {} } = (st, m', n')) ∧
    (∃ (a : BitVec 15) (s : State), s.node.up = true ∧ s.node.spi.outst = none ∧ regAttr a.toNat = none) ∧
    (∃ (a : BitVec 15) (x : RegAttr) (s : State), s.node.up = true ∧ s.node.spi.outst = none ∧ regAttr a.toNat = some x ∧ forwards s.node a.toNat = false ∧ s.node.isRun (regIsl a.toNat true) = false) ∧
    (∃ (a : BitVec 15) (x : RegAttr) (s : State), s.node.up = true ∧ s.node.spi.outst = none ∧ regAttr a.toNat = some x ∧ forwards s.node a.toNat = false ∧ s.node.isRun (regIsl a.toNat true) = true ∧ levelLocked s.node a.toNat x = true) ∧
    (∃ (a : BitVec 15) (x : RegAttr) (s : State), s.node.up = true ∧ s.node.spi.outst = none ∧ regAttr a.toNat = some x ∧ forwards s.node a.toNat = true ∧ linkUp s.node = true ∧ levelLocked s.node a.toNat x = false) :=
  ⟨⟨(wSt wN), by decide +kernel⟩,
   ⟨3#4, (wSt wN), by decide +kernel⟩,
   ⟨0x0020#15, 0, (regRead .m1 0x0020 {} { (spiShift {} ((wN).advance 0)) with spi.resp := {} }).1, (regRead .m1 0x0020 {} { (spiShift {} ((wN).advance 0)) with spi.resp := {} }).2.1, (regRead .m1 0x0020 {} { (spiShift {} ((wN).advance 0)) with spi.resp := {} }).2.2, (wSt wN), by unfold Serves; decide +kernel, by decide +kernel, by decide +kernel, by decide +kernel, rfl⟩,
   ⟨0x2010#15, (wSt wN), by unfold Serves; decide +kernel⟩,
   ⟨0x7FFF#15, (wSt wN), by decide +kernel⟩,
   ⟨(wSt wN), by unfold Takes; decide +kernel⟩,
   ⟨0x2010#15, (wSt wN), by unfold Takes; decide +kernel⟩,
   ⟨1#8, (.rd 0x2010), (wSt { wN with spi := { outst := some (1#8, .rd 0x2010) } }), by decide +kernel⟩,
   ⟨(wSt wN), by decide +kernel⟩,
   ⟨1#8, (.rd 0x2010), (wSt { wN with spi := { outst := some (1#8, .rd 0x2010) } }), by decide +kernel⟩,
   ⟨0x2010#15, (wSt { wN with isl := { wN.isl with states := wN.isl.states.set 3 .fault } }), by decide +kernel⟩,
   ⟨0x0840#15, 4#32, 0, (regWrite .m1 0x0840 4#32 {} { (spiShift {} ((wN).advance 0)) with spi.resp := {} }).1, true, (regWrite .m1 0x0840 4#32 {} { (spiShift {} ((wN).advance 0)) with spi.resp := {} }).2.1, (regWrite .m1 0x0840 4#32 {} { (spiShift {} ((wN).advance 0)) with spi.resp := {} }).2.2, (wSt wN), by unfold Takes; decide +kernel, by decide +kernel, by decide +kernel, by decide +kernel, rfl⟩,
   ⟨0x7FFF#15, (wSt wN), by decide +kernel⟩,
   ⟨0x2010#15, ⟨true, .wr⟩, (wSt { wN with isl := { wN.isl with states := wN.isl.states.set 3 .fault } }), by decide +kernel⟩,
   ⟨0x3024#15, ⟨true, .wr⟩, (wSt { wN with blk := [] }), by decide +kernel⟩,
   ⟨0x3024#15, ⟨true, .wr⟩, (wSt (wPair .standby)), by decide +kernel⟩⟩

theorem test_meets_WayfareSessions :
    (∃ (b : Bool) (mn : Byte) (mx : Byte) (sess : Word) (t : Nat) (s : State), s.node.up = true ∧ wayfareOn s.node b = true ∧ sess ≠ 0#32 ∧ (∀ x ∈ s.node.wf, x.number ≠ sess) ∧ 0 < min mx.toNat (wfModMax s.node) ∧ mn.toNat ≤ min mx.toNat (wfModMax s.node) ∧ ((sessionTick (s.node.advance t)).wf.filter (fun x => x.net == b)).length < 4) ∧
    (∃ (b : Bool) (mn : Byte) (mx : Byte) (s : State), s.node.up = true ∧ wayfareOn s.node b = true ∧ (min mx.toNat (wfModMax s.node) < mn.toNat ∨ mx = 0#8)) ∧
    (∃ (b : Bool) (mn : Byte) (mx : Byte) (t : Nat) (s : State), s.node.up = true ∧ wayfareOn s.node b = true ∧ 0 < min mx.toNat (wfModMax s.node) ∧ mn.toNat ≤ min mx.toNat (wfModMax s.node) ∧ 4 ≤ ((sessionTick (s.node.advance t)).wf.filter (fun x => x.net == b)).length) ∧
    (∃ (q : WfReq) (x : Session) (t : Nat) (s : State), Fresh q s t x) ∧
    (∃ (sess : Word) (x : Session) (s : State), s.node.up = true ∧ x ∈ s.node.wf ∧ x.number = sess) ∧
    (∃ (b : Bool) (s : State), s.node.up = true ∧ wayfareOn s.node b = true) ∧
    (∃ (b : Bool) (s : State), s.node.up = true ∧ wayfareOn s.node b = true) ∧
    (∃ (b : Bool) (s : State), s.node.up = true ∧ wayfareOn s.node b = false) :=
  ⟨⟨false, 1#8, 1#8, 1#32, 0, (wSt wN), by decide +kernel, by decide +kernel, by decide +kernel, by decide +kernel, by show 0 < min 1 (wfModMax wN); unfold wfModMax; split <;> decide, by show _ ≤ min 1 (wfModMax wN); unfold wfModMax; split <;> decide, by decide +kernel⟩,
   ⟨false, 1#8, 0#8, (wSt wN), by decide +kernel, by decide +kernel, .inr rfl⟩,
   ⟨false, 1#8, 1#8, 0, (wSt { wN with wf := List.replicate 4 ⟨false, 1#32, 0, 1, none, none, 0, none, none, 0⟩ }), by decide +kernel, by decide +kernel, by show 0 < min 1 (wfModMax _); unfold wfModMax; split <;> decide, by show _ ≤ min 1 (wfModMax _); unfold wfModMax; split <;> decide, by decide +kernel⟩,
   ⟨⟨false, 0, 1#32, 2#16, .whole⟩, ⟨false, 1#32, 0, 1, none, none, 0, none, none, 0⟩, 0, (wSt { wN with wf := [⟨false, 1#32, 0, 1, none, none, 0, none, none, 0⟩] }), by unfold Fresh; decide +kernel⟩,
   ⟨1#32, ⟨false, 1#32, 0, 1, none, none, 0, none, none, 0⟩, (wSt { wN with wf := [⟨false, 1#32, 0, 1, none, none, 0, none, none, 0⟩] }), by decide +kernel⟩,
   ⟨false, (wSt wN), by decide +kernel⟩,
   ⟨false, (wSt wN), by decide +kernel⟩,
   ⟨false, (wSt { wN with mram := { ports := wPorts [(10, 0), (11, 0)] } }), by decide +kernel⟩⟩

theorem test_meets_WayfareRequests :
    (∃ (q : WfReq) (x : Session) (t : Nat) (s : State), Fresh q s t x ∧ Serves s 0x0020) ∧
    (∃ (q : WfReq) (x : Session) (t : Nat) (s : State) (a : Word), Fresh q s t x ∧ Serves s a.toNat ∧ (regAttr a.toNat).isSome = true ∧ regIsl a.toNat false ≠ 0) ∧
    (∃ (q : WfReq) (x : Session) (t : Nat) (s : State), Fresh q s t x ∧ Takes s 0x0840 ∧ s.node.ld.stgState ≠ 5 ∧ s.node.ld.stgState ≠ 8) ∧
    (∃ (q : WfReq) (x : Session) (t : Nat) (s : State) (a : Word), Fresh q s t x ∧ Takes s a.toNat ∧ (regAttr a.toNat).isSome = true ∧ regIsl a.toNat true ≠ 0) ∧
    (∃ (q : WfReq) (x : Session) (t : Nat) (s : State), Fresh q s t x ∧ Serves s 0x0028 ∧ Serves s 0x002C) ∧
    (∃ (q : WfReq) (x : Session) (t : Nat) (s : State) (c : BitVec 16) (m : BitVec 16), Fresh q s t x ∧ (c = 0#16 ∨ (if x.ver = 1 then 128 else 360) < c.toNat ∨ 1 < m.toNat)) ∧
    (∃ (q : WfReq) (x : Session) (t : Nat) (s : State) (ch : Fin 32) (msg : List Word) (r : Nat), Fresh q s t x ∧ msg.length = 16 ∧ mbBinding s.node ch.val = (portCode (netPort x.net), r, true) ∧ s.node.isRun (idIsland r) = true) ∧
    (∃ (q : WfReq) (x : Session) (t : Nat) (s : State) (ch : Fin 32), Fresh q s t x ∧ mbMayFetch s.node (portCode (netPort x.net)) ch.val = true) ∧
    (∃ (q : WfReq) (x : Session) (t : Nat) (s : State) (per : BitVec 16) (mode : Byte) (l : List Word), Fresh q s t x ∧ 1 ≤ per.toNat ∧ per.toNat ≤ 10000 ∧ (mode = 1#8 ∨ (mode = 2#8 ∧ x.ver ≠ 1)) ∧ l ≠ [] ∧ l.length ≤ 120 ∧ (∀ a ∈ l, isValue a.toNat = true)) ∧
    (∃ (q : WfReq) (x : Session) (t : Nat) (s : State), Fresh q s t x ∧ (s.node.port (netPort x.net)).snap.copying = false) ∧
    (∃ (q : WfReq) (x : Session) (t : Nat) (s : State) (a : Word) (st : Nat) (w : Word) (n' : Node), Fresh q s t x ∧ Serves s a.toNat ∧ (regAttr a.toNat).isSome = true ∧ regIsl a.toNat false = 0 ∧ regRead (netPort x.net) a.toNat s.mem (wfNode q s t x) = (st, w, n')) ∧
    (∃ (q : WfReq) (x : Session) (t : Nat) (s : State) (a : Word), Fresh q s t x ∧ regAttr a.toNat = none) ∧
    (∃ (q : WfReq) (x : Session) (t : Nat) (s : State) (a : Word), Fresh q s t x ∧ (regAttr a.toNat).isSome = true ∧ s.node.isRun (regIsl a.toNat false) = false ∧ isValue a.toNat = false ∧ isQseq a.toNat = false) ∧
    (∃ (q : WfReq) (x : Session) (t : Nat) (s : State) (a : Word) (v : Word) (y : Bool) (st : Nat) (m' : Mems) (n' : Node), Fresh q s t x ∧ Takes s a.toNat ∧ regAttr a.toNat = some ⟨y, .wr⟩ ∧ regIsl a.toNat true = 0 ∧ regWrite (netPort x.net) a.toNat v s.mem (wfNode q s t x) = (st, m', n')) ∧
    (∃ (q : WfReq) (x : Session) (t : Nat) (s : State) (a : Word), Fresh q s t x ∧ regAttr a.toNat = none) ∧
    (∃ (q : WfReq) (x : Session) (t : Nat) (s : State) (a : Word), Fresh q s t x ∧ (regAttr a.toNat).isSome = true ∧ forwards s.node a.toNat = false ∧ s.node.isRun (regIsl a.toNat true) = false) ∧
    (∃ (q : WfReq) (x : Session) (t : Nat) (s : State) (a : Word) (y : RegAttr), Fresh q s t x ∧ regAttr a.toNat = some y ∧ forwards s.node a.toNat = false ∧ s.node.isRun (regIsl a.toNat true) = true ∧ levelLocked s.node a.toNat y = true) ∧
    (∃ (q : WfReq) (x : Session) (t : Nat) (s : State) (a : Word) (y : RegAttr), Fresh q s t x ∧ regAttr a.toNat = some y ∧ forwards s.node a.toNat = true ∧ linkUp s.node = true ∧ levelLocked s.node a.toNat y = false) ∧
    (∃ (q : WfReq) (x : Session) (t : Nat) (s : State) (a : Word) (c : BitVec 16) (m : BitVec 16), Fresh q s t x ∧ 0 < c.toNat ∧ c.toNat ≤ 128 ∧ m.toNat ≤ 1 ∧ Serves s a.toNat ∧ (regAttr a.toNat).isSome = true ∧ regIsl a.toNat false ≠ 0) ∧
    (∃ (q : WfReq) (x : Session) (t : Nat) (s : State) (ch : Fin 32) (msg : List Word), Fresh q s t x ∧ msg.length = 16 ∧ (mbBinding s.node ch.val).2.2 = false) ∧
    (∃ (q : WfReq) (x : Session) (t : Nat) (s : State) (ch : Byte) (msg : List Word), Fresh q s t x ∧ (32 ≤ ch.toNat ∨ msg.length ≠ 16)) ∧
    (∃ (q : WfReq) (x : Session) (t : Nat) (s : State) (ch : Fin 32), Fresh q s t x ∧ mbMayFetch s.node (portCode (netPort x.net)) ch.val = false) ∧
    (∃ (q : WfReq) (x : Session) (t : Nat) (s : State) (ch : Byte), Fresh q s t x ∧ 32 ≤ ch.toNat) ∧
    (∃ (q : WfReq) (x : Session) (t : Nat) (s : State), Fresh q s t x) ∧
    (∃ (q : WfReq) (x : Session) (t : Nat) (s : State) (per : BitVec 16) (mode : Byte) (l : List Word), Fresh q s t x ∧ mode ≠ 0#8 ∧ (per.toNat < 1 ∨ 10000 < per.toNat ∨ 2 < mode.toNat ∨ (mode = 2#8 ∧ x.ver = 1) ∨ l = [] ∨ 120 < l.length ∨ (∃ a ∈ l, isValue a.toNat = false))) ∧
    (∃ (q : WfReq) (x : Session) (t : Nat) (s : State), Fresh q s t x ∧ (s.node.port (netPort x.net)).snap.copying = true) ∧
    (∃ (q : WfReq) (t : Nat) (s : State), s.node.up = true ∧ wayfareOn s.node q.net = true ∧ findSession (sessionTick (s.node.advance t)) q = none) ∧
    (∃ (q : WfReq) (x : Session) (t : Nat) (s : State) (r : WfResp), s.node.up = true ∧ wayfareOn s.node q.net = true ∧ findSession (sessionTick (s.node.advance t)) q = some x ∧ x.lastSeq = some q.seq ∧ x.resp = some r) ∧
    (∃ (q : WfReq) (x : Session) (t : Nat) (s : State), s.node.up = true ∧ wayfareOn s.node q.net = true ∧ findSession (sessionTick (s.node.advance t)) q = some x ∧ x.lastSeq ≠ some q.seq ∧ x.outst.isSome = true) ∧
    (∃ (q : WfReq) (x : Session) (t : Nat) (s : State), s.node.up = true ∧ wayfareOn s.node q.net = true ∧ findSession (sessionTick (s.node.advance t)) q = some x ∧ x.lastSeq ≠ some q.seq ∧ x.outst = none ∧ q.form ≠ .whole) :=
  ⟨⟨⟨false, 0, 1#32, 2#16, .whole⟩, ⟨false, 1#32, 0, 1, none, none, 0, none, none, 0⟩, 0, (wSt { wN with wf := [⟨false, 1#32, 0, 1, none, none, 0, none, none, 0⟩] }), by unfold Fresh Serves; decide +kernel⟩,
   ⟨⟨false, 0, 1#32, 2#16, .whole⟩, ⟨false, 1#32, 0, 1, none, none, 0, none, none, 0⟩, 0, (wSt { wN with wf := [⟨false, 1#32, 0, 1, none, none, 0, none, none, 0⟩] }), 0x2010#32, by unfold Fresh Serves; decide +kernel⟩,
   ⟨⟨false, 0, 1#32, 2#16, .whole⟩, ⟨false, 1#32, 0, 1, none, none, 0, none, none, 0⟩, 0, (wSt { wN with wf := [⟨false, 1#32, 0, 1, none, none, 0, none, none, 0⟩] }), by unfold Fresh Takes; decide +kernel⟩,
   ⟨⟨false, 0, 1#32, 2#16, .whole⟩, ⟨false, 1#32, 0, 1, none, none, 0, none, none, 0⟩, 0, (wSt { wN with wf := [⟨false, 1#32, 0, 1, none, none, 0, none, none, 0⟩] }), 0x2010#32, by unfold Fresh Takes; decide +kernel⟩,
   ⟨⟨false, 0, 1#32, 2#16, .whole⟩, ⟨false, 1#32, 0, 1, none, none, 0, none, none, 0⟩, 0, (wSt { wN with wf := [⟨false, 1#32, 0, 1, none, none, 0, none, none, 0⟩] }), by unfold Fresh Serves; decide +kernel⟩,
   ⟨⟨false, 0, 1#32, 2#16, .whole⟩, ⟨false, 1#32, 0, 1, none, none, 0, none, none, 0⟩, 0, (wSt { wN with wf := [⟨false, 1#32, 0, 1, none, none, 0, none, none, 0⟩] }), 0#16, 0#16, by unfold Fresh; decide +kernel⟩,
   ⟨⟨false, 0, 1#32, 2#16, .whole⟩, ⟨false, 1#32, 0, 1, none, none, 0, none, none, 0⟩, 0, (wSt { wLock 2 8 with wf := [⟨false, 1#32, 0, 1, none, none, 0, none, none, 0⟩] }), 31, (List.replicate 16 0#32), 8, by unfold Fresh; decide +kernel⟩,
   ⟨⟨false, 0, 1#32, 2#16, .whole⟩, ⟨false, 1#32, 0, 1, none, none, 0, none, none, 0⟩, 0, (wSt { wLock 2 8 with wf := [⟨false, 1#32, 0, 1, none, none, 0, none, none, 0⟩] }), 31, by unfold Fresh; decide +kernel⟩,
   ⟨⟨false, 0, 1#32, 2#16, .whole⟩, ⟨false, 1#32, 0, 1, none, none, 0, none, none, 0⟩, 0, (wSt { wN with wf := [⟨false, 1#32, 0, 1, none, none, 0, none, none, 0⟩] }), 10000#16, 1#8, (List.replicate 120 0x2000#32), by unfold Fresh; decide +kernel, by decide +kernel, by decide +kernel, by decide +kernel, by simp, by simp, by intro a h; rw [List.eq_of_mem_replicate h]; decide +kernel⟩,
   ⟨⟨false, 0, 1#32, 2#16, .whole⟩, ⟨false, 1#32, 0, 1, none, none, 0, none, none, 0⟩, 0, (wSt { wN with wf := [⟨false, 1#32, 0, 1, none, none, 0, none, none, 0⟩] }), by unfold Fresh; decide +kernel⟩,
   ⟨⟨false, 0, 1#32, 2#16, .whole⟩, ⟨false, 1#32, 0, 1, none, none, 0, none, none, 0⟩, 0, (wSt { wN with wf := [⟨false, 1#32, 0, 1, none, none, 0, none, none, 0⟩] }), 0x0020#32, (regRead .m3 0x0020 {} (wfNode ⟨false, 0, 1#32, 2#16, .whole⟩ (wSt { wN with wf := [⟨false, 1#32, 0, 1, none, none, 0, none, none, 0⟩] }) 0 ⟨false, 1#32, 0, 1, none, none, 0, none, none, 0⟩)).1, (regRead .m3 0x0020 {} (wfNode ⟨false, 0, 1#32, 2#16, .whole⟩ (wSt { wN with wf := [⟨false, 1#32, 0, 1, none, none, 0, none, none, 0⟩] }) 0 ⟨false, 1#32, 0, 1, none, none, 0, none, none, 0⟩)).2.1, (regRead .m3 0x0020 {} (wfNode ⟨false, 0, 1#32, 2#16, .whole⟩ (wSt { wN with wf := [⟨false, 1#32, 0, 1, none, none, 0, none, none, 0⟩] }) 0 ⟨false, 1#32, 0, 1, none, none, 0, none, none, 0⟩)).2.2, by unfold Fresh; decide +kernel, by unfold Serves; decide +kernel, by decide +kernel, by decide +kernel, rfl⟩,
   ⟨⟨false, 0, 1#32, 2#16, .whole⟩, ⟨false, 1#32, 0, 1, none, none, 0, none, none, 0⟩, 0, (wSt { wN with wf := [⟨false, 1#32, 0, 1, none, none, 0, none, none, 0⟩] }), 0x7FFF#32, by unfold Fresh; decide +kernel⟩,
   ⟨⟨false, 0, 1#32, 2#16, .whole⟩, ⟨false, 1#32, 0, 1, none, none, 0, none, none, 0⟩, 0, (wSt { wN with wf := [⟨false, 1#32, 0, 1, none, none, 0, none, none, 0⟩], isl := { wN.isl with states := wN.isl.states.set 3 .fault } }), 0x2010#32, by unfold Fresh; decide +kernel⟩,
   ⟨⟨false, 0, 1#32, 2#16, .whole⟩, ⟨false, 1#32, 0, 1, none, none, 0, none, none, 0⟩, 0, (wSt { wN with wf := [⟨false, 1#32, 0, 1, none, none, 0, none, none, 0⟩] }), 0x0840#32, 4#32, true, (regWrite .m3 0x0840 4#32 {} (wfNode ⟨false, 0, 1#32, 2#16, .whole⟩ (wSt { wN with wf := [⟨false, 1#32, 0, 1, none, none, 0, none, none, 0⟩] }) 0 ⟨false, 1#32, 0, 1, none, none, 0, none, none, 0⟩)).1, (regWrite .m3 0x0840 4#32 {} (wfNode ⟨false, 0, 1#32, 2#16, .whole⟩ (wSt { wN with wf := [⟨false, 1#32, 0, 1, none, none, 0, none, none, 0⟩] }) 0 ⟨false, 1#32, 0, 1, none, none, 0, none, none, 0⟩)).2.1, (regWrite .m3 0x0840 4#32 {} (wfNode ⟨false, 0, 1#32, 2#16, .whole⟩ (wSt { wN with wf := [⟨false, 1#32, 0, 1, none, none, 0, none, none, 0⟩] }) 0 ⟨false, 1#32, 0, 1, none, none, 0, none, none, 0⟩)).2.2, by unfold Fresh; decide +kernel, by unfold Takes; decide +kernel, by decide +kernel, by decide +kernel, rfl⟩,
   ⟨⟨false, 0, 1#32, 2#16, .whole⟩, ⟨false, 1#32, 0, 1, none, none, 0, none, none, 0⟩, 0, (wSt { wN with wf := [⟨false, 1#32, 0, 1, none, none, 0, none, none, 0⟩] }), 0x7FFF#32, by unfold Fresh; decide +kernel⟩,
   ⟨⟨false, 0, 1#32, 2#16, .whole⟩, ⟨false, 1#32, 0, 1, none, none, 0, none, none, 0⟩, 0, (wSt { wN with wf := [⟨false, 1#32, 0, 1, none, none, 0, none, none, 0⟩], isl := { wN.isl with states := wN.isl.states.set 3 .fault } }), 0x2010#32, by unfold Fresh; decide +kernel⟩,
   ⟨⟨false, 0, 1#32, 2#16, .whole⟩, ⟨false, 1#32, 0, 1, none, none, 0, none, none, 0⟩, 0, (wSt { wN with wf := [⟨false, 1#32, 0, 1, none, none, 0, none, none, 0⟩], blk := [] }), 0x3024#32, ⟨true, .wr⟩, by unfold Fresh; decide +kernel⟩,
   ⟨⟨false, 0, 1#32, 2#16, .whole⟩, ⟨false, 1#32, 0, 1, none, none, 0, none, none, 0⟩, 0, (wSt { wPair .standby with wf := [⟨false, 1#32, 0, 1, none, none, 0, none, none, 0⟩] }), 0x3024#32, ⟨true, .wr⟩, by unfold Fresh; decide +kernel⟩,
   ⟨⟨false, 0, 1#32, 2#16, .whole⟩, ⟨false, 1#32, 0, 1, none, none, 0, none, none, 0⟩, 0, (wSt { wN with wf := [⟨false, 1#32, 0, 1, none, none, 0, none, none, 0⟩] }), 0x2010#32, 128#16, 1#16, by unfold Fresh Serves; decide +kernel⟩,
   ⟨⟨false, 0, 1#32, 2#16, .whole⟩, ⟨false, 1#32, 0, 1, none, none, 0, none, none, 0⟩, 0, (wSt { wN with wf := [⟨false, 1#32, 0, 1, none, none, 0, none, none, 0⟩] }), 31, (List.replicate 16 0#32), by unfold Fresh; decide +kernel⟩,
   ⟨⟨false, 0, 1#32, 2#16, .whole⟩, ⟨false, 1#32, 0, 1, none, none, 0, none, none, 0⟩, 0, (wSt { wN with wf := [⟨false, 1#32, 0, 1, none, none, 0, none, none, 0⟩] }), 32#8, [], by unfold Fresh; decide +kernel⟩,
   ⟨⟨false, 0, 1#32, 2#16, .whole⟩, ⟨false, 1#32, 0, 1, none, none, 0, none, none, 0⟩, 0, (wSt { wN with wf := [⟨false, 1#32, 0, 1, none, none, 0, none, none, 0⟩] }), 31, by unfold Fresh; decide +kernel⟩,
   ⟨⟨false, 0, 1#32, 2#16, .whole⟩, ⟨false, 1#32, 0, 1, none, none, 0, none, none, 0⟩, 0, (wSt { wN with wf := [⟨false, 1#32, 0, 1, none, none, 0, none, none, 0⟩] }), 32#8, by unfold Fresh; decide +kernel⟩,
   ⟨⟨false, 0, 1#32, 2#16, .whole⟩, ⟨false, 1#32, 0, 1, none, none, 0, none, none, 0⟩, 0, (wSt { wN with wf := [⟨false, 1#32, 0, 1, none, none, 0, none, none, 0⟩] }), by unfold Fresh; decide +kernel⟩,
   ⟨⟨false, 0, 1#32, 2#16, .whole⟩, ⟨false, 1#32, 0, 1, none, none, 0, none, none, 0⟩, 0, (wSt { wN with wf := [⟨false, 1#32, 0, 1, none, none, 0, none, none, 0⟩] }), 1#16, 2#8, [0x2000#32], by unfold Fresh; decide +kernel, by decide +kernel, .inr (.inr (.inr (.inl ⟨rfl, rfl⟩)))⟩,
   ⟨⟨false, 0, 1#32, 2#16, .whole⟩, ⟨false, 1#32, 0, 1, none, none, 0, none, none, 0⟩, 0, (wSt { wN with wf := [⟨false, 1#32, 0, 1, none, none, 0, none, none, 0⟩], ports := { m2 := { snap := { copying := true } } } }), by unfold Fresh; decide +kernel⟩,
   ⟨⟨false, 0, 1#32, 2#16, .whole⟩, 0, (wSt wN), by decide +kernel⟩,
   ⟨⟨false, 0, 1#32, 2#16, .whole⟩, ⟨false, 1#32, 0, 1, some 2#16, some ⟨0x10, 0, [7#8]⟩, 0, none, none, 0⟩, 0, (wSt { wN with wf := [⟨false, 1#32, 0, 1, some 2#16, some ⟨0x10, 0, [7#8]⟩, 0, none, none, 0⟩] }), ⟨0x10, 0, [7#8]⟩, by decide +kernel⟩,
   ⟨⟨false, 0, 1#32, 2#16, .whole⟩, ⟨false, 1#32, 0, 1, some 1#16, none, 0, some (1#16, 0x10, .rd 0x2010), none, 0⟩, 0, (wSt { wN with wf := [⟨false, 1#32, 0, 1, some 1#16, none, 0, some (1#16, 0x10, .rd 0x2010), none, 0⟩] }), by decide +kernel⟩,
   ⟨⟨false, 0, 1#32, 2#16, .unknownOp 9#8⟩, ⟨false, 1#32, 0, 1, none, none, 0, none, none, 0⟩, 0, (wSt { wN with wf := [⟨false, 1#32, 0, 1, none, none, 0, none, none, 0⟩] }), by decide +kernel⟩⟩

theorem test_meets_Snapshots :
    (∃ (p : HostPort) (s : State), Takes s 0x1C00 ∧ (s.node.port p).snap.copying = false) ∧
    (∃ (p : HostPort) (s : State), s.node.up = true ∧ (s.node.port p).snap.copying = true) ∧
    (∃ (v : Word) (s : State), Takes s 0x1C10 ∧ (isValue v.toNat || isQseq v.toNat) = true) ∧
    (∃ (v : Word) (s : State), Takes s 0x1C10 ∧ (isValue v.toNat || isQseq v.toNat) = false) ∧
    (∃ (p : HostPort) (s : State), Serves s 0x1C14 ∧ (s.node.port p).snap.ready = true ∧ (s.node.port p).snap.copying = false ∧ (isValue (s.node.port p).snap.addr || isQseq (s.node.port p).snap.addr) = true) ∧
    (∃ (p : HostPort) (s : State), Serves s 0x1C14 ∧ (s.node.port p).snap.ready = false) ∧
    (∃ (p : HostPort) (s : State), Takes s 0x1C00 ∧ (s.node.port p).snap.copying = true) ∧
    (∃ (p : HostPort) (s : State), s.node.up = true ∧ (s.node.port p).snap.copying = false) ∧
    (∃ (x : Session) (seq : BitVec 16) (s : State), s.node.up = true ∧ (s.node.port (netPort x.net)).snap.copying = true ∧ s.node.wf = [x] ∧ x.outst = some (seq, 0x40, .snap)) ∧
    (∃ (p : HostPort) (s : State), Serves s 0x1C14 ∧ ((s.node.port p).snap.copying = true ∨ (isValue (s.node.port p).snap.addr || isQseq (s.node.port p).snap.addr) = false)) :=
  ⟨⟨.m5, (wSt wN), by unfold Takes; decide +kernel⟩,
   ⟨.m5, (wSt { wN with ports := { m5 := { snap := { copying := true } } } }), by decide +kernel⟩,
   ⟨0x2000#32, (wSt wN), by unfold Takes; decide +kernel⟩,
   ⟨0x2001#32, (wSt wN), by unfold Takes; decide +kernel⟩,
   ⟨.m5, (wSt { wN with ports := { m5 := { snap := { ready := true } } } }), by unfold Serves; decide +kernel⟩,
   ⟨.m5, (wSt wN), by unfold Serves; decide +kernel⟩,
   ⟨.m5, (wSt { wN with ports := { m5 := { snap := { copying := true } } } }), by unfold Takes; decide +kernel⟩,
   ⟨.m5, (wSt wN), by decide +kernel⟩,
   ⟨⟨false, 1#32, 0, 1, none, none, 0, some (2#16, 0x40, .snap), none, 0⟩, 2#16, (wSt { wN with wf := [⟨false, 1#32, 0, 1, none, none, 0, some (2#16, 0x40, .snap), none, 0⟩], ports := { m2 := { snap := { copying := true, time := 77 } } } }), by decide +kernel⟩,
   ⟨.m5, (wSt { wN with ports := { m5 := { snap := { ready := true, addr := 0x8000 } } } }), by unfold Serves; decide +kernel⟩⟩

theorem test_meets_RegisterWrites :
    (∃ (b : Fin 24) (s : State), Takes s (blkAddr.getD b.val 0)) ∧
    (∃ (s : State), s.node.up = true) ∧
    (∃ (p : HostPort) (a : BitVec 15) (v : Word) (t : Nat) (x : Bool) (st : Nat) (m' : Mems) (n' : Node) (s : State),
      Takes s a.toNat ∧ regAttr a.toNat = some ⟨x, .wr⟩ ∧ regWrite p a.toNat v s.mem (s.node.advance t) = (st, m', n') ∧ n'.up = true) ∧
    (∃ (a : BitVec 15) (x : Bool) (s : State), Takes s a.toNat ∧ regAttr a.toNat = some ⟨x, .ro⟩) ∧
    (∃ (a : BitVec 15) (s : State), s.node.up = true ∧ regAttr a.toNat = none) ∧
    (∃ (a : BitVec 15) (x : RegAttr) (s : State), s.node.up = true ∧ forwards s.node a.toNat = false ∧ regAttr a.toNat = some x ∧ s.node.isRun (regIsl a.toNat true) = false) ∧
    (∃ (a : BitVec 15) (x : RegAttr) (s : State), s.node.up = true ∧ forwards s.node a.toNat = false ∧ regAttr a.toNat = some x ∧ s.node.isRun (regIsl a.toNat true) = true ∧ levelLocked s.node a.toNat x = true) ∧
    (∃ (a : BitVec 15) (t : Nat) (x : RegAttr) (s : State), s.node.up = true ∧ forwards s.node a.toNat = true ∧ regAttr a.toNat = some x ∧ linkUp (s.node.advance t) = true ∧ levelLocked s.node a.toNat x = false) ∧
    (∃ (a : BitVec 15) (t : Nat) (x : RegAttr) (s : State), s.node.up = true ∧ forwards s.node a.toNat = true ∧ regAttr a.toNat = some x ∧ linkUp (s.node.advance t) = false) ∧
    (∃ (a : BitVec 15) (t : Nat) (x : RegAttr) (s : State), s.node.up = true ∧ forwards s.node a.toNat = true ∧ regAttr a.toNat = some x ∧ linkUp (s.node.advance t) = true ∧ levelLocked s.node a.toNat x = true) :=
  ⟨⟨23, (wSt wN), by unfold Takes; decide +kernel⟩,
   ⟨(wSt wN), by decide +kernel⟩,
   ⟨.m5, 0x0840#15, 4#32, 0, true, (regWrite .m5 0x0840 4#32 {} (wN.advance 0)).1, (regWrite .m5 0x0840 4#32 {} (wN.advance 0)).2.1,
    (regWrite .m5 0x0840 4#32 {} (wN.advance 0)).2.2, wSt wN, by unfold Takes; decide +kernel, by decide +kernel, rfl, by decide +kernel⟩,
   ⟨0x2000#15, false, (wSt wN), by unfold Takes; decide +kernel⟩,
   ⟨0x7FFF#15, (wSt wN), by decide +kernel⟩,
   ⟨0x2010#15, ⟨true, .wr⟩, (wSt { wN with isl := { wN.isl with states := wN.isl.states.set 3 .fault } }), by decide +kernel⟩,
   ⟨0x3024#15, ⟨true, .wr⟩, (wSt { wN with blk := [] }), by decide +kernel⟩,
   ⟨0x3024#15, 0, ⟨true, .wr⟩, (wSt (wPair .standby)), by decide +kernel⟩,
   ⟨0x3024#15, 0, ⟨true, .wr⟩, (wSt { wPair .standby with dup := { role := .standby } }), by decide +kernel⟩,
   ⟨0x3024#15, 0, ⟨true, .wr⟩, (wSt { wPair .standby with blk := [] }), by decide +kernel⟩⟩

theorem test_meets_EventRegisters :
    (∃ (m : Fin 4) (s : State), Takes s (0x0C00 + 4 * m.val)) ∧
    (∃ (m : Fin 4) (s : State), Takes s (0x0C10 + 4 * m.val)) ∧
    (∃ (m : Fin 16) (s : State), Takes s (0x0C40 + 4 * m.val)) ∧
    (∃ (s : State), Serves s 0x0D10 ∧ s.node.evt.queue = []) ∧
    (∃ (s : State) (e : MsgEntry) (r : List MsgEntry), Serves s 0x0D10 ∧ s.node.evt.queue = e :: r ∧ s.node.evt.half = false) ∧
    (∃ (s : State) (e : MsgEntry) (r : List MsgEntry), Serves s 0x0D10 ∧ s.node.evt.queue = e :: r ∧ s.node.evt.half = true) ∧
    (∃ (s : State), Takes s 0x0D14) :=
  ⟨⟨3, (wSt wN), by unfold Takes; decide +kernel⟩,
   ⟨3, (wSt wN), by unfold Takes; decide +kernel⟩,
   ⟨15, (wSt wN), by unfold Takes; decide +kernel⟩,
   ⟨(wSt wN), by unfold Serves; decide +kernel⟩,
   ⟨(wSt { wN with evt := { queue := [⟨1#32, 2#32⟩], half := false } }), ⟨1#32, 2#32⟩, [], by unfold Serves; decide +kernel⟩,
   ⟨(wSt { wN with evt := { queue := [⟨1#32, 2#32⟩], half := true } }), ⟨1#32, 2#32⟩, [], by unfold Serves; decide +kernel⟩,
   ⟨(wSt wN), by unfold Takes; decide +kernel⟩⟩

theorem test_meets_Mailboxes :
    (∃ (p : HostPort) (ch : Fin 32) (r : Nat) (s : State), Takes s 0x1100 ∧ mbBinding s.node ch.val = (portCode p, r, true) ∧ s.node.isRun (idIsland r) = true) ∧
    (∃ (id : Byte) (ch : Fin 32) (r : Nat) (s : State), s.node.up = true ∧ idHost id.toNat = false ∧ mbBinding s.node ch.val = (id.toNat, r, true) ∧ s.node.isRun (idIsland r) = true ∧ s.node.isRun (idIsland id.toNat) = true) ∧
    (∃ (p : HostPort) (ch : Fin 32) (s : State), Takes s 0x1104 ∧ mbMayFetch s.node (portCode p) ch.val = true) ∧
    (∃ (id : Byte) (ch : Fin 32) (s : State), s.node.up = true ∧ idHost id.toNat = false ∧ mbMayFetch s.node id.toNat ch.val = true ∧ s.node.isRun (idIsland id.toNat) = true) ∧
    (∃ (p : HostPort) (ch : Fin 32) (v : Word) (snd : Nat) (s : State), Takes s (0x1000 + 4 * ch.val) ∧ mbBinding s.node ch.val = (snd, portCode p, true) ∧ (s.node.mbChan ch.val).st = .posted ∧ bitOf v 31 = true) ∧
    (∃ (id : Byte) (ch : Fin 32) (v : Word) (snd : Nat) (s : State), s.node.up = true ∧ idHost id.toNat = false ∧ s.node.isRun (idIsland id.toNat) = true ∧ mbBinding s.node ch.val = (snd, id.toNat, true) ∧ (s.node.mbChan ch.val).st = .posted ∧ bitOf v 31 = true) ∧
    (∃ (ch : Fin 32) (s : State), Takes s 0x1100 ∧ (mbBinding s.node ch.val).2.2 = false) ∧
    (∃ (ch : Fin 32) (snd : Nat) (r : Nat) (s : State), Takes s 0x1100 ∧ mbBinding s.node ch.val = (snd, r, true) ∧ s.node.isRun (idIsland r) = false) ∧
    (∃ (p : HostPort) (ch : Fin 32) (s : State), Takes s 0x1104 ∧ mbMayFetch s.node (portCode p) ch.val = false) ∧
    (∃ (p : HostPort) (ch : Fin 32) (snd : Nat) (r : Nat) (b : Bool) (s : State), Takes s (0x1000 + 4 * ch.val) ∧ mbBinding s.node ch.val = (snd, r, b) ∧ (b = false ∨ r ≠ portCode p)) ∧
    (∃ (p : HostPort) (ch : Fin 32) (v : Word) (snd : Nat) (s : State), Takes s (0x1000 + 4 * ch.val) ∧ mbBinding s.node ch.val = (snd, portCode p, true) ∧ ((s.node.mbChan ch.val).st ≠ .posted ∨ bitOf v 31 = false)) ∧
    (∃ (id : Byte) (ch : Fin 32) (snd : Nat) (r : Nat) (b : Bool) (s : State), s.node.up = true ∧ idHost id.toNat = false ∧ mbBinding s.node ch.val = (snd, r, b) ∧ (b = false ∨ snd ≠ id.toNat ∨ s.node.isRun (idIsland r) = false)) :=
  ⟨⟨.m5, 31, 8, (wSt (wLock 5 8)), by unfold Takes; decide +kernel⟩,
   ⟨8#8, 31, 9, (wSt (wLock 8 9)), by decide +kernel⟩,
   ⟨.m5, 31, (wSt (wLock 5 8)), by unfold Takes; decide +kernel⟩,
   ⟨8#8, 31, (wSt (wLock 8 9)), by decide +kernel⟩,
   ⟨.m5, 31, 0x80000000#32, 8, (wSt { wLock 8 5 with mbx := { chans := [(31, { st := .posted })] } }), by unfold Takes; decide +kernel⟩,
   ⟨8#8, 31, 0x80000000#32, 9, (wSt { wLock 9 8 with mbx := { chans := [(31, { st := .posted })] } }), by decide +kernel⟩,
   ⟨31, (wSt wN), by unfold Takes; decide +kernel⟩,
   ⟨31, 5, 8, (wSt { wLock 5 8 with isl := { wN.isl with states := wN.isl.states.set 1 .fault } }), by unfold Takes; decide +kernel⟩,
   ⟨.m5, 31, (wSt (wLock 8 9)), by unfold Takes; decide +kernel⟩,
   ⟨.m5, 31, 5, 8, true, (wSt (wLock 5 8)), by unfold Takes; decide +kernel⟩,
   ⟨.m5, 31, 0x80000000#32, 8, (wSt (wLock 8 5)), by unfold Takes; decide +kernel⟩,
   ⟨8#8, 31, 9, 10, true, (wSt (wLock 9 10)), by decide +kernel⟩⟩

theorem test_meets_UiConversions :
    (∃ (c : Fin 64) (t : Nat) (s : State), s.node.up = true ∧ s.node.acq = true ∧ s.node.isRun 3 = true ∧ s.node.chOn 1 c.val = true ∧ (s.node.uiC c.val).conv = true ∧ (s.node.uiC c.val).failed = false ∧ s.node.miswired c.val = false ∧ s.node.roleOn 1 (c.val / 32) = true ∧ atBoundary (s.node.uiC c.val).grid (s.node.uiC c.val).lastAt (uiPeriod (s.node.uiC c.val).rate) t = true ∧ s.node.uiPastTc c.val t = false) ∧
    (∃ (c : Fin 64) (t : Nat) (s : State), s.node.up = true ∧ s.node.miswired c.val = false ∧ ((s.node.acq = false ∨ s.node.isRun 3 = false ∨ s.node.roleOn 1 (c.val / 32) = false ∨ s.node.chOn 1 c.val = false ∨ (s.node.uiC c.val).conv = false ∨ (s.node.uiC c.val).failed = true ∨ s.node.uiPastTc c.val t = true ∨ atBoundary (s.node.uiC c.val).grid (s.node.uiC c.val).lastAt (uiPeriod (s.node.uiC c.val).rate) t = false))) ∧
    (∃ (c : Fin 64) (t : Nat) (s : State), s.node.up = true ∧ s.node.miswired c.val = true ∧ s.node.acq = true ∧ s.node.isRun 3 = true ∧ s.node.roleOn 1 (c.val / 32) = true ∧ s.node.chOn 1 c.val = true ∧ (s.node.uiC c.val).failed = false ∧ (s.node.uiC c.val).published = true ∧ atBoundary (s.node.uiC c.val).grid (s.node.uiC c.val).lastAt (uiPeriod (s.node.uiC c.val).rate) t = true) :=
  ⟨⟨63, (10 ^ 8), (wSt { wIm [wCh 1 63 [(8, 1)]] [] with ui := [(63, { conv := true })] }), by decide +kernel⟩,
   ⟨63, 7, (wSt { wIm [wCh 1 63 [(8, 1)]] [] with ui := [(63, { conv := true })] }), by decide +kernel⟩,
   ⟨63, (10 ^ 8), (wSt { wIm [wCh 1 63] [] with ui := [(63, { published := true, last := 9#32, forceVal := 5#32 })], mw := { act := 1#128 <<< 63 } }), by decide +kernel⟩⟩

theorem test_meets_UiFilters :
    (∃ (c : Fin 64) (v : Word) (s : State), Takes s (0x2010 + 0x40 * c.val) ∧ uiFiltOk (fld v 3 0) (bitOf v 8) = true ∧ ((s.node.uiC c.val).conv = true ∨ s.node.uiHeld c.val = true)) ∧
    (∃ (c : Fin 64) (v : Word) (s : State), Takes s (0x2010 + 0x40 * c.val) ∧ uiFiltOk (fld v 3 0) (bitOf v 8) = true ∧ (s.node.uiC c.val).conv = false ∧ s.node.uiHeld c.val = false) ∧
    (∃ (c : Fin 64) (v : Word) (s : State), Takes s (0x2010 + 0x40 * c.val) ∧ uiFiltOk (fld v 3 0) (bitOf v 8) = false) ∧
    (∃ (c : Fin 64) (rate : Nat) (line : Bool) (t : Nat) (s : State), s.node.up = true ∧ (s.node.uiC c.val).pend = some (rate, line) ∧ (s.node.uiC c.val).conv = true ∧ (t = (s.node.uiC c.val).lastAt ∨ atBoundary (s.node.uiC c.val).grid (s.node.uiC c.val).lastAt (uiPeriod (s.node.uiC c.val).rate) t = true)) ∧
    (∃ (c : Fin 64) (s : State), Takes s (0x202C + 0x40 * c.val)) ∧
    (∃ (c : Fin 64) (t : Nat) (s : State), s.node.up = true ∧ t ≠ (s.node.uiC c.val).lastAt ∧ (((s.node.uiC c.val).pend = none ∨ (s.node.uiC c.val).conv = false ∨ atBoundary (s.node.uiC c.val).grid (s.node.uiC c.val).lastAt (uiPeriod (s.node.uiC c.val).rate) t = false))) :=
  ⟨⟨63, 0#32, (wSt { wIm [wCh 1 63 [(8, 1)]] [] with ui := [(63, { conv := true })] }), by unfold Takes; decide +kernel, by decide +kernel, .inl rfl⟩,
   ⟨63, 0#32, (wSt wN), by unfold Takes; decide +kernel⟩,
   ⟨63, 11#32, (wSt wN), by unfold Takes; decide +kernel⟩,
   ⟨63, 10, false, 0, (wSt { wIm [wCh 1 63] [] with ui := [(63, { conv := true, pend := some (10, false) })] }), by decide +kernel⟩,
   ⟨63, (wSt wN), by unfold Takes; decide +kernel⟩,
   ⟨63, 7, (wSt { wIm [wCh 1 63] [] with ui := [(63, { conv := true, pend := some (10, false) })] }), by decide +kernel⟩⟩

theorem test_meets_ColdJunctionsAndSupplies :
    (∃ (k : Fin 8) (t : Nat) (s : State), s.node.up = true ∧ s.node.acq = true ∧ s.node.isRun 3 = true ∧ recOn (s.node.recOf 3 k.val) = true ∧ (tget {} s.node.cj k.val).conv = true ∧ (tget {} s.node.cj k.val).settle ≤ t ∧ s.node.roleOn 1 (k.val / 4) = true ∧ atBoundary (tget {} s.node.cj k.val).grid (tget {} s.node.cj k.val).lastAt (uiPeriod 2) t = true) ∧
    (∃ (k : Fin 16) (t : Nat) (s : State), s.node.up = true ∧ s.node.acq = true ∧ s.node.isRun 3 = true ∧ recOn (s.node.recOf 2 k.val) = true ∧ (s.node.exC k.val).conv = true ∧ (s.node.exC k.val).settle ≤ t ∧ s.node.roleOn 1 (k.val / 8) = true ∧ atBoundary (s.node.exC k.val).grid (s.node.exC k.val).lastAt (uiPeriod 2) t = true ∧ (s.node.exC k.val).tc.any (fun x => decide (x < t)) = false) ∧
    (∃ (k : Fin 16) (v : Word) (s : State), Takes s (0x3408 + 0x20 * k.val) ∧ (s.node.dev.st = .ready ∨ s.node.running = true) ∧ exHeld s.node k.val = false ∧ fld v 5 4 ≠ 3) ∧
    (∃ (k : Fin 16) (v : Word) (s : State), Takes s (0x3408 + 0x20 * k.val) ∧ ((s.node.dev.st ≠ .ready ∧ s.node.running = false) ∨ exHeld s.node k.val = true ∨ fld v 5 4 = 3)) ∧
    (∃ (k : Fin 16) (x : Nat) (t : Nat) (s : State), s.node.up = true ∧ (s.node.exC k.val).tc = some x ∧ x ≤ t ∧ (s.node.exC k.val).discard = none) ∧
    (∃ (k : Fin 16) (d : Nat) (t : Nat) (s : State), s.node.up = true ∧ (s.node.exC k.val).discard = some d ∧ d ≤ t ∧ (s.node.exC k.val).tc = none) ∧
    (∃ (k : Fin 16) (s : State), s.node.up = true ∧ (s.node.exC k.val).discard = none) ∧
    (∃ (k : Fin 16) (s : State), s.node.up = true ∧ (s.node.exC k.val).limitNow = false) ∧
    (∃ (k : Fin 16) (s : State), s.node.up = true ∧ (s.node.exC k.val).senseNow = false) ∧
    (∃ (s : State), s.node.up = true) ∧
    (∃ (k : Fin 16) (t : Nat) (s : State), s.node.up = true ∧ s.node.acq = true ∧ s.node.isRun 3 = true ∧ recOn (s.node.recOf 2 k.val) = true ∧ (s.node.exC k.val).conv = true ∧ t < (s.node.exC k.val).settle ∧ (s.node.exC k.val).published = true ∧ s.node.roleOn 1 (k.val / 8) = true ∧ atBoundary (s.node.exC k.val).grid (s.node.exC k.val).lastAt (uiPeriod 2) t = true ∧ (s.node.exC k.val).tc.any (fun x => decide (x < t)) = false) ∧
    (∃ (k : Fin 8) (t : Nat) (s : State), s.node.up = true ∧ ((s.node.acq = false ∨ s.node.isRun 3 = false ∨ s.node.roleOn 1 (k.val / 4) = false ∨ recOn (s.node.recOf 3 k.val) = false ∨ (tget {} s.node.cj k.val).conv = false ∨ t < (tget {} s.node.cj k.val).settle ∨ atBoundary (tget {} s.node.cj k.val).grid (tget {} s.node.cj k.val).lastAt (uiPeriod 2) t = false))) ∧
    (∃ (k : Fin 16) (t : Nat) (s : State), s.node.up = true ∧ ((s.node.acq = false ∨ s.node.isRun 3 = false ∨ s.node.roleOn 1 (k.val / 8) = false ∨ recOn (s.node.recOf 2 k.val) = false ∨ (s.node.exC k.val).conv = false ∨ (s.node.exC k.val).tc.any (fun x => decide (x < t)) = true ∨ atBoundary (s.node.exC k.val).grid (s.node.exC k.val).lastAt (uiPeriod 2) t = false))) ∧
    (∃ (k : Fin 16) (t : Nat) (s : State), s.node.up = true ∧ (((s.node.exC k.val).tc = none ∨ (s.node.exC k.val).discard ≠ none ∨ ∃ x, (s.node.exC k.val).tc = some x ∧ t < x))) ∧
    (∃ (k : Fin 16) (d : Nat) (x : Nat) (t : Nat) (s : State), s.node.up = true ∧ (s.node.exC k.val).discard = some d ∧ d ≤ t ∧ (s.node.exC k.val).tc = some x) ∧
    (∃ (k : Fin 16) (t : Nat) (s : State), s.node.up = true ∧ (((s.node.exC k.val).discard = none ∨ ∃ d, (s.node.exC k.val).discard = some d ∧ t < d))) ∧
    (∃ (k : Fin 16) (d : Nat) (s : State), s.node.up = true ∧ (s.node.exC k.val).discard = some d) ∧
    (∃ (k : Fin 16) (s : State), s.node.up = true ∧ (s.node.exC k.val).limitNow = true ∧ (s.node.exC k.val).senseNow = true) :=
  ⟨⟨7, 25000000, (wSt { wIm [wCh 3 7] [] with cj := [(7, { conv := true })] }), by decide +kernel⟩,
   ⟨15, 25000000, (wSt { wIm [wCh 2 15] [] with ex := [(15, { conv := true })] }), by decide +kernel⟩,
   ⟨15, 0#32, (wSt wN), by unfold Takes; decide +kernel⟩,
   ⟨15, 0x30#32, (wSt wN), by unfold Takes; decide +kernel⟩,
   ⟨15, 0, 0, (wSt { wN with ex := [(15, { tc := some 0, regOk := true })] }), by decide +kernel⟩,
   ⟨15, 0, 0, (wSt { wIm [wCh 1 63 [(14, 15)], wCh 2 15] [] with ex := [(15, { discard := some 0 })] }), by decide +kernel⟩,
   ⟨15, (wSt wN), by decide +kernel⟩,
   ⟨15, (wSt wN), by decide +kernel⟩,
   ⟨15, (wSt wN), by decide +kernel⟩,
   ⟨(wSt wN), by decide +kernel⟩,
   ⟨15, 25000000, (wSt { wIm [wCh 2 15] [] with ex := [(15, { conv := true, settle := 10 ^ 9, published := true, last := 9#32 })] }), by decide +kernel⟩,
   ⟨7, 7, (wSt { wIm [wCh 3 7] [] with cj := [(7, { conv := true })] }), by decide +kernel⟩,
   ⟨15, 7, (wSt { wIm [wCh 2 15] [] with ex := [(15, { conv := true })] }), by decide +kernel⟩,
   ⟨15, 8, (wSt { wN with ex := [(15, { tc := some 9 })] }), by decide +kernel⟩,
   ⟨15, 5, 9, 5, (wSt { wN with ex := [(15, { tc := some 9, discard := some 5 })] }), by decide +kernel⟩,
   ⟨15, 4, (wSt { wN with ex := [(15, { discard := some 5 })] }), by decide +kernel⟩,
   ⟨15, 5, (wSt { wN with ex := [(15, { discard := some 5, regOk := true })] }), by decide +kernel⟩,
   ⟨15, (wSt { wN with ex := [(15, { limitNow := true, senseNow := true })] }), by decide +kernel⟩⟩

theorem test_meets_RoundsThatAgree :
    (∃ (b : Fin 4) (c : Nat) (t : Nat) (s : State), s.node.up = true ∧ s.node.isRun 3 = true ∧ s.node.suspended = false ∧ s.node.inPool b.val = true ∧ (s.node.bcOf b.val).step = 0 ∧ ((s.node.bcOf b.val).started = true → (s.node.bcOf b.val).t0 + s.node.cal.rndPeriod * 250000000 ≤ t) ∧ (s.node.advance t).nextChan b.val = some c ∧ (t - (s.node.uiC c).grid) % uiPeriod (s.node.uiC c).rate = 0) ∧
    (∃ (b : Fin 4) (s : State), s.node.up = true ∧ (s.node.bcOf b.val).step = 3 ∧ (s.node.bcOf b.val).cnt1 = (s.node.bcOf b.val).novl ∧ (s.node.bcOf b.val).sum1.natAbs * 4000000 ≤ 8 * (s.node.bcOf b.val).tol * uiSpan4 (s.node.recOf 1 (s.node.bcOf b.val).chan) * (s.node.bcOf b.val).novl) ∧
    (∃ (b : Fin 4) (m : RefMeas) (s : State), s.node.up = true ∧ (s.node.bcOf b.val).step = 4 ∧ (s.node.bcOf b.val).refs = false ∧ 0x3EB851EC ≤ m.gain.toNat ∧ m.gain.toNat ≤ 0x4147AE14 ∧ m.offsIn = true) ∧
    (∃ (b : Fin 4) (s : State), s.node.up = true ∧ (s.node.bcOf b.val).step = 5 ∧ (s.node.bcOf b.val).cnt2 = (s.node.bcOf b.val).novl ∧ (s.node.bcOf b.val).verdict = .none ∧ (s.node.bcOf b.val).sum2.natAbs * 4000000 ≤ (s.node.bcOf b.val).tol * uiSpan4 (s.node.recOf 1 (s.node.bcOf b.val).chan) * (s.node.bcOf b.val).novl) ∧
    (∃ (b : Fin 4) (s : State), s.node.up = true ∧ (s.node.bcOf b.val).step = 5 ∧ (s.node.bcOf b.val).verdict = .agree ∧ tget 0 s.node.dtr.conv (s.node.bcOf b.val).chan = 0) ∧
    (∃ (b : Fin 4) (t : Nat) (s : State), s.node.up = true ∧ (((s.node.bcOf b.val).step ≠ 0 ∨ s.node.isRun 3 = false ∨ s.node.suspended = true ∨ (s.node.advance t).nextChan b.val = none ∨ ((s.node.bcOf b.val).started = true ∧ t < (s.node.bcOf b.val).t0 + s.node.cal.rndPeriod * 250000000) ∨ ∃ c, (s.node.advance t).nextChan b.val = some c ∧ (t - (s.node.uiC c).grid) % uiPeriod (s.node.uiC c).rate ≠ 0))) ∧
    (∃ (b : Fin 4) (s : State), s.node.up = true ∧ (((s.node.bcOf b.val).step ≠ 3 ∨ (s.node.bcOf b.val).cnt1 ≠ (s.node.bcOf b.val).novl))) ∧
    (∃ (b : Fin 4) (s : State), s.node.up = true ∧ (((s.node.bcOf b.val).step ≠ 4 ∨ (s.node.bcOf b.val).refs = true))) ∧
    (∃ (b : Fin 4) (s : State), s.node.up = true ∧ (((s.node.bcOf b.val).step ≠ 5 ∨ (s.node.bcOf b.val).cnt2 ≠ (s.node.bcOf b.val).novl ∨ (s.node.bcOf b.val).verdict ≠ .none))) ∧
    (∃ (b : Fin 4) (s : State), s.node.up = true ∧ (((s.node.bcOf b.val).step ≠ 5 ∨ (s.node.bcOf b.val).verdict = .none))) :=
  ⟨⟨3, 63, 0, (wSt { wIm [wCh 1 63 [(8, 1)]] [] with ui := [(63, { conv := true })] }), by decide +kernel⟩,
   ⟨3, (wSt { wIm [wCh 1 63 [(8, 1)]] [] with cal := { bcs := [(3, { chan := 63, step := 3, cnt1 := 4 })] } }), by decide +kernel⟩,
   ⟨3, ⟨0x3EB851EC#32, 0#32, true⟩, (wSt { wIm [wCh 1 63 [(8, 1)]] [] with cal := { bcs := [(3, { chan := 63, step := 4 })] } }), by decide +kernel⟩,
   ⟨3, (wSt { wIm [wCh 1 63 [(8, 1)]] [] with cal := { bcs := [(3, { chan := 63, step := 5, cnt2 := 4 })] } }), by decide +kernel⟩,
   ⟨3, (wSt { wIm [wCh 1 63 [(8, 1)]] [] with cal := { bcs := [(3, { chan := 63, step := 5, verdict := .agree })] } }), by decide +kernel⟩,
   ⟨3, 0, (wSt { wIm [wCh 1 63 [(8, 1)]] [] with cal := { bcs := [(3, { chan := 63, step := 1 })] } }), by decide +kernel⟩,
   ⟨3, (wSt { wIm [wCh 1 63 [(8, 1)]] [] with cal := { bcs := [(3, { chan := 63, step := 3 })] } }), by decide +kernel⟩,
   ⟨3, (wSt { wIm [wCh 1 63 [(8, 1)]] [] with cal := { bcs := [(3, { chan := 63, step := 4, refs := true })] } }), by decide +kernel⟩,
   ⟨3, (wSt { wIm [wCh 1 63 [(8, 1)]] [] with cal := { bcs := [(3, { chan := 63, step := 5 })] } }), by decide +kernel⟩,
   ⟨3, (wSt { wIm [wCh 1 63 [(8, 1)]] [] with cal := { bcs := [(3, { chan := 63, step := 5 })] } }), by decide +kernel⟩⟩

theorem test_meets_RoundsThatFail :
    (∃ (b : Fin 4) (s : State), s.node.up = true ∧ (s.node.bcOf b.val).step = 3 ∧ (s.node.bcOf b.val).cnt1 = (s.node.bcOf b.val).novl ∧ 8 * (s.node.bcOf b.val).tol * uiSpan4 (s.node.recOf 1 (s.node.bcOf b.val).chan) * (s.node.bcOf b.val).novl < (s.node.bcOf b.val).sum1.natAbs * 4000000 ∧ disOf s.node (s.node.bcOf b.val).chan = 0 ∧ (s.node.bcOf b.val).dis.length < 2) ∧
    (∃ (b : Fin 4) (m : RefMeas) (s : State), s.node.up = true ∧ (s.node.bcOf b.val).step = 4 ∧ (s.node.bcOf b.val).refs = false ∧ m.offsIn = false) ∧
    (∃ (b : Fin 4) (m : RefMeas) (s : State), s.node.up = true ∧ (s.node.bcOf b.val).step = 1 ∧ refsOk m = true) ∧
    (∃ (b : Fin 4) (m : RefMeas) (s : State), s.node.up = true ∧ (s.node.bcOf b.val).step = 1 ∧ refsOk m = false) ∧
    (∃ (c : Fin 64) (s : State) (b : Nat), s.node.up = true ∧ s.node.isRun 3 = true ∧ s.node.chOn 1 c.val = true ∧ (s.node.uiC c.val).failed = false ∧ ((∀ b < 4, (s.node.bcOf b).chan = c.val → (s.node.bcOf b).step < 2 ∨ 5 < (s.node.bcOf b).step)) ∧ (∀ b < 4, (s.node.bcOf b).step = 6 → (s.node.bcOf b).chan ≠ c.val) ∧ s.node.server (c.val / 16) = some b) ∧
    (∃ (c : Fin 64) (s : State), s.node.up = true ∧ s.node.isRun 3 = true ∧ s.node.chOn 1 c.val = true ∧ (s.node.uiC c.val).failed = false ∧ ((∀ b < 4, (s.node.bcOf b).chan = c.val → (s.node.bcOf b).step < 2 ∨ 5 < (s.node.bcOf b).step)) ∧ (∀ b < 4, (s.node.bcOf b).step = 6 → (s.node.bcOf b).chan ≠ c.val) ∧ s.node.server (c.val / 16) = none) ∧
    (∃ (b : Fin 4) (s : State), s.node.up = true ∧ (s.node.bcOf b.val).step = 5 ∧ (s.node.bcOf b.val).cnt2 = (s.node.bcOf b.val).novl ∧ (s.node.bcOf b.val).verdict = .none ∧ (s.node.bcOf b.val).tol * uiSpan4 (s.node.recOf 1 (s.node.bcOf b.val).chan) * (s.node.bcOf b.val).novl < (s.node.bcOf b.val).sum2.natAbs * 4000000 ∧ disOf s.node (s.node.bcOf b.val).chan = 0 ∧ (s.node.bcOf b.val).dis.length < 2) ∧
    (∃ (b : Fin 4) (s : State), s.node.up = true ∧ (s.node.bcOf b.val).step = 5 ∧ (s.node.bcOf b.val).verdict = .disagree ∧ tget 0 s.node.dtr.conv (s.node.bcOf b.val).chan = 0) ∧
    (∃ (b : Fin 4) (s : State), s.node.up = true ∧ (s.node.bcOf b.val).step = 3 ∧ (s.node.bcOf b.val).cnt1 = (s.node.bcOf b.val).novl ∧ 8 * (s.node.bcOf b.val).tol * uiSpan4 (s.node.recOf 1 (s.node.bcOf b.val).chan) * (s.node.bcOf b.val).novl < (s.node.bcOf b.val).sum1.natAbs * 4000000 ∧ disOf s.node (s.node.bcOf b.val).chan = 2 ∧ (s.node.bcOf b.val).dis.length < 2) ∧
    (∃ (b : Fin 4) (c1 : Nat) (c2 : Nat) (s : State), s.node.up = true ∧ (s.node.bcOf b.val).step = 3 ∧ (s.node.bcOf b.val).cnt1 = (s.node.bcOf b.val).novl ∧ 8 * (s.node.bcOf b.val).tol * uiSpan4 (s.node.recOf 1 (s.node.bcOf b.val).chan) * (s.node.bcOf b.val).novl < (s.node.bcOf b.val).sum1.natAbs * 4000000 ∧ (s.node.bcOf b.val).dis = [c1, c2] ∧ c1 ≠ c2 ∧ c1 ≠ (s.node.bcOf b.val).chan ∧ c2 ≠ (s.node.bcOf b.val).chan) ∧
    (∃ (b : Fin 4) (m : RefMeas) (s : State), s.node.up = true ∧ (s.node.bcOf b.val).step = 6 ∧ refsOk m = true) ∧
    (∃ (b : Fin 4) (m : RefMeas) (s : State), s.node.up = true ∧ (s.node.bcOf b.val).step = 6 ∧ refsOk m = false) ∧
    (∃ (b : Fin 4) (s : State), s.node.up = true ∧ (s.node.bcOf b.val).step ≠ 1 ∧ (s.node.bcOf b.val).step ≠ 6) ∧
    (∃ (c : Fin 64) (s : State), s.node.up = true ∧ ((s.node.isRun 3 = false ∨ s.node.chOn 1 c.val = false ∨ (s.node.uiC c.val).failed = true))) :=
  ⟨⟨3, (wSt { wIm [wCh 1 63 [(8, 1)]] [] with cal := { bcs := [(3, { chan := 63, step := 3, cnt1 := 4, sum1 := 40000 })] } }), by decide +kernel⟩,
   ⟨3, ⟨0x40000000#32, 0#32, false⟩, (wSt { wIm [wCh 1 63 [(8, 1)]] [] with cal := { bcs := [(3, { chan := 63, step := 4 })] } }), by decide +kernel⟩,
   ⟨3, ⟨0x4147AE14#32, 0#32, true⟩, (wSt { wIm [wCh 1 63 [(8, 1)]] [] with cal := { bcs := [(3, { chan := 63, step := 1 })] } }), by decide +kernel⟩,
   ⟨3, ⟨0x4147AE15#32, 0#32, true⟩, (wSt { wIm [wCh 1 63 [(8, 1)]] [] with cal := { bcs := [(3, { chan := 63, step := 1 })] } }), by decide +kernel⟩,
   ⟨63, (wSt { wIm [wCh 1 63 [(8, 1)]] [] with ui := [(63, { conv := true })] }), 3, by decide +kernel⟩,
   ⟨63, (wSt { wIm [wCh 1 63] [] with cal := { bcs := [(0, { step := 7 }), (1, { step := 7 }), (2, { step := 7 }), (3, { step := 7 })] } }), by decide +kernel⟩,
   ⟨3, (wSt { wIm [wCh 1 63 [(8, 1)]] [] with cal := { bcs := [(3, { chan := 63, step := 5, cnt2 := 4, sum2 := 1000000 })] } }), by decide +kernel⟩,
   ⟨3, (wSt { wIm [wCh 1 63 [(8, 1)]] [] with cal := { bcs := [(3, { chan := 63, step := 5, verdict := .disagree, sum2 := 4000 })] } }), by decide +kernel⟩,
   ⟨3, (wSt { { wIm [wCh 1 63 [(8, 1)]] [] with cal := { bcs := [(3, { chan := 63, step := 3, cnt1 := 4, sum1 := 40000 })] } } with cal.dis := [(63, 2)] }), by decide +kernel⟩,
   ⟨3, 5, 6, (wSt { wIm [wCh 1 63 [(8, 1)]] [] with cal := { bcs := [(3, { chan := 63, step := 3, cnt1 := 4, sum1 := 40000, dis := [5, 6] })] } }), by decide +kernel⟩,
   ⟨3, ⟨0x40000000#32, 0#32, true⟩, (wSt { wIm [wCh 1 63 [(8, 1)]] [] with cal := { bcs := [(3, { chan := 63, step := 6 })] } }), by decide +kernel⟩,
   ⟨3, ⟨0x40000000#32, 0#32, false⟩, (wSt { wIm [wCh 1 63 [(8, 1)]] [] with cal := { bcs := [(3, { chan := 63, step := 6 })] } }), by decide +kernel⟩,
   ⟨3, (wSt { wIm [wCh 1 63 [(8, 1)]] [] with cal := { bcs := [(3, { chan := 63, step := 5 })] } }), by decide +kernel⟩,
   ⟨0, (wSt { wIm [wCh 1 63 [(8, 1)]] [] with cal := { bcs := [(3, { chan := 63, step := 5 })] } }), by decide +kernel⟩⟩

theorem test_meets_PairsAndTriads :
    (∃ (k : Fin 64) (r : Bytes) (s0 : Nat) (t : Nat) (s : State), s.node.up = true ∧ s.node.keyed 0x06 2 k.val = some r ∧ (tget ({} : Pair) s.node.cal.pairs k.val).since = some s0 ∧ s0 + u16 r 6 * 2500000 ≤ t ∧ (tget ({} : Pair) s.node.cal.pairs k.val).suspect = false ∧ (tget ({} : Pair) s.node.cal.pairs k.val).beyond = true) ∧
    (∃ (k : Fin 16) (r : Bytes) (t : Nat) (s : State), s.node.up = true ∧ s.node.acq = true ∧ s.node.keyed 0x06 3 k.val = some r ∧ (tget ({} : Triad) s.node.cal.triads k.val).voteAt ≠ some (timeAfter s t / 250000) ∧ (wd (timeAfter s t / 250000)).toNat % u16 r 12 = 0 ∧ (∀ a ∈ [u16 r 2, u16 r 4, u16 r 6], qHas (resQ (s.node.res a)) qVALID = true) ∧ (∀ a ∈ [u16 r 2, u16 r 4, u16 r 6], |(s.node.res a).value.toInt - (median3 [(s.node.res (u16 r 2)).value.toInt, (s.node.res (u16 r 4)).value.toInt, (s.node.res (u16 r 6)).value.toInt])| ≤ (u32 r 8 : Int))) ∧
    (∃ (k : Fin 64) (r : Bytes) (s0 : Nat) (t : Nat) (s : State), s.node.up = true ∧ s.node.keyed 0x06 2 k.val = some r ∧ (tget ({} : Pair) s.node.cal.pairs k.val).since = some s0 ∧ s0 + u16 r 6 * 2500000 ≤ t ∧ (tget ({} : Pair) s.node.cal.pairs k.val).suspect = true ∧ (tget ({} : Pair) s.node.cal.pairs k.val).beyond = false) ∧
    (∃ (k : Fin 64) (t : Nat) (s : State), s.node.up = true ∧ (((tget ({} : Pair) s.node.cal.pairs k.val).since = none ∨ s.node.keyed 0x06 2 k.val = none ∨ (tget ({} : Pair) s.node.cal.pairs k.val).suspect = (tget ({} : Pair) s.node.cal.pairs k.val).beyond ∨ ∃ r s0, s.node.keyed 0x06 2 k.val = some r ∧ (tget ({} : Pair) s.node.cal.pairs k.val).since = some s0 ∧ t < s0 + u16 r 6 * 2500000))) ∧
    (∃ (k : Fin 16) (r : Bytes) (i : Nat) (j : Nat) (l : Nat) (t : Nat) (s : State), s.node.up = true ∧ s.node.acq = true ∧ s.node.keyed 0x06 3 k.val = some r ∧ (tget ({} : Triad) s.node.cal.triads k.val).voteAt ≠ some (timeAfter s t / 250000) ∧ (wd (timeAfter s t / 250000)).toNat % u16 r 12 = 0 ∧ i < 3 ∧ j < 3 ∧ l < 3 ∧ i ≠ j ∧ i ≠ l ∧ j ≠ l ∧ qHas (resQ (s.node.res (u16 r (2 + 2 * i)))) qVALID = true ∧ qHas (resQ (s.node.res (u16 r (2 + 2 * j)))) qVALID = true ∧ ((qHas (resQ (s.node.res (u16 r (2 + 2 * l)))) qVALID = false ∧ |(s.node.res (u16 r (2 + 2 * i))).value.toInt - (s.node.res (u16 r (2 + 2 * j))).value.toInt| ≤ (u32 r 8 : Int) ∨ qHas (resQ (s.node.res (u16 r (2 + 2 * l)))) qVALID = true ∧ |(s.node.res (u16 r (2 + 2 * i))).value.toInt - (median3 [(s.node.res (u16 r 2)).value.toInt, (s.node.res (u16 r 4)).value.toInt, (s.node.res (u16 r 6)).value.toInt])| ≤ (u32 r 8 : Int) ∧ |(s.node.res (u16 r (2 + 2 * j))).value.toInt - (median3 [(s.node.res (u16 r 2)).value.toInt, (s.node.res (u16 r 4)).value.toInt, (s.node.res (u16 r 6)).value.toInt])| ≤ (u32 r 8 : Int) ∧ (u32 r 8 : Int) < |(s.node.res (u16 r (2 + 2 * l))).value.toInt - (median3 [(s.node.res (u16 r 2)).value.toInt, (s.node.res (u16 r 4)).value.toInt, (s.node.res (u16 r 6)).value.toInt])|))) ∧
    (∃ (k : Fin 16) (r : Bytes) (x : Nat) (t : Nat) (s : State), s.node.up = true ∧ s.node.acq = true ∧ s.node.keyed 0x06 3 k.val = some r ∧ (tget ({} : Triad) s.node.cal.triads k.val).voteAt ≠ some (timeAfter s t / 250000) ∧ (wd (timeAfter s t / 250000)).toNat % u16 r 12 = 0 ∧ (∀ a ∈ [u16 r 2, u16 r 4, u16 r 6], a ≠ x → qHas (resQ (s.node.res a)) qVALID = false) ∧ u16 r 2 ≠ u16 r 4 ∧ u16 r 2 ≠ u16 r 6 ∧ u16 r 4 ≠ u16 r 6) ∧
    (∃ (k : Fin 16) (t : Nat) (s : State), s.node.up = true ∧ ((s.node.acq = false ∨ s.node.keyed 0x06 3 k.val = none ∨ (tget ({} : Triad) s.node.cal.triads k.val).voteAt = some (timeAfter s t / 250000) ∨ ∃ r, s.node.keyed 0x06 3 k.val = some r ∧ (wd (timeAfter s t / 250000)).toNat % u16 r 12 ≠ 0))) :=
  ⟨⟨63, (wB 16 [(0, 63)]), 0, 0, (wSt { wIm [] [wLeg 6 [⟨2, 16, [wB 16 [(0, 63)]], true⟩]] with cal := { pairs := [(63, { since := some 0, beyond := true })] } }), by decide +kernel⟩,
   ⟨15, (wB 16 [(0, 15), (3, 0x20), (4, 0x40), (5, 0x20), (6, 0x80), (7, 0x20), (8, 1), (12, 1)]), 0, (wSt { wIm [] [wLeg 6 [⟨3, 16, [wB 16 [(0, 15), (3, 0x20), (4, 0x40), (5, 0x20), (6, 0x80), (7, 0x20), (8, 1), (12, 1)]], true⟩]] with jn := { store := [(0x2000, { value := 1#32, q := 1#8, has := true }), (0x2040, { value := 2#32, q := 1#8, has := true }), (0x2080, { value := 3#32, q := 1#8, has := true })] } }), by decide +kernel⟩,
   ⟨63, (wB 16 [(0, 63), (2, 0x00), (3, 0x20), (4, 0x40), (5, 0x20)]), 0, 0, (wSt { wIm [] [wLeg 6 [⟨2, 16, [wB 16 [(0, 63), (2, 0x00), (3, 0x20), (4, 0x40), (5, 0x20)]], true⟩]] with cal := { pairs := [(63, { since := some 0, suspect := true })] }, jn := { store := [(0x2000, { value := 1#32, q := 0x11#8, has := true }), (0x2040, { value := 2#32, q := 0x11#8, has := true })] } }), by decide +kernel⟩,
   ⟨63, 0, (wSt { wIm [] [wLeg 6 [⟨2, 16, [wB 16 [(0, 63), (6, 1), (2, 0x00), (3, 0x20), (4, 0x40), (5, 0x20)]], true⟩]] with cal := { pairs := [(63, { since := some 9, suspect := true })] } }), by decide +kernel, .inr (.inr (.inr ⟨_, 9, rfl, rfl, by decide +kernel⟩))⟩,
   ⟨15, (wB 16 [(0, 15), (3, 0x20), (4, 0x40), (5, 0x20), (6, 0x80), (7, 0x20), (8, 1), (12, 1)]), 0, 1, 2, 0, (wSt { wIm [] [wLeg 6 [⟨3, 16, [wB 16 [(0, 15), (3, 0x20), (4, 0x40), (5, 0x20), (6, 0x80), (7, 0x20), (8, 1), (12, 1)]], true⟩]] with jn := { store := [(0x2000, { value := 1#32, q := 1#8, has := true }), (0x2040, { value := 2#32, q := 1#8, has := true }), (0x2080, { value := 9#32, q := 1#8, has := true })] } }), by decide +kernel⟩,
   ⟨15, (wB 16 [(0, 15), (3, 0x20), (4, 0x40), (5, 0x20), (6, 0x80), (7, 0x20), (8, 1), (12, 1)]), 0x2040, 0, (wSt { wIm [] [wLeg 6 [⟨3, 16, [wB 16 [(0, 15), (3, 0x20), (4, 0x40), (5, 0x20), (6, 0x80), (7, 0x20), (8, 1), (12, 1)]], true⟩]] with jn := { store := [(0x2000, { value := 1#32, q := 0#8, has := true }), (0x2040, { value := 1#32, q := 1#8, has := true }), (0x2080, { value := 9#32, q := 0#8, has := true })] } }), by decide +kernel⟩,
   ⟨15, 0, (wSt wN), by decide +kernel, .inr (.inl (by decide +kernel))⟩⟩

theorem test_meets_ChargeSampling :
    (∃ (c : Fin 16) (y : CaCyc) (t : Nat) (s : State), s.node.up = true ∧ s.node.caOn c.val = true ∧ caMode (s.node.recOf 4 c.val) = 1 ∧ 0 < caStep (s.node.recOf 4 c.val) ∧ (s.node.caC c.val).nextAt ≤ t ∧ (s.node.caC c.val).cur = some y ∧ y.trig < y.len ∧ (s.node.caC c.val).settle = 0 ∧ (s.node.caC c.val).req = none ∧ (s.node.caC c.val).conv = none) ∧
    (∃ (c : Fin 16) (t : Nat) (s : State), s.node.up = true ∧ s.node.caOn c.val = true ∧ caMode (s.node.recOf 4 c.val) = 1 ∧ 0 < caStep (s.node.recOf 4 c.val) ∧ (s.node.caC c.val).nextAt ≤ t ∧ (s.node.caC c.val).cur = none ∧ (s.node.caC c.val).settle = 0 ∧ (s.node.caC c.val).req = none ∧ (s.node.caC c.val).conv = none) ∧
    (∃ (c : Fin 16) (v : CaConv) (y : CaCyc) (s : State), s.node.up = true ∧ s.node.caOn c.val = true ∧ (s.node.caC c.val).conv = some v ∧ v.j = 0 ∧ v.prev = false ∧ (s.node.caC c.val).held = none ∧ (s.node.caC c.val).cur = some y) ∧
    (∃ (c : Fin 16) (t : Nat) (s : State), s.node.up = true ∧ (s.node.caC c.val).closed = true ∧ (s.node.caC c.val).closedAt + caRstTime (s.node.recOf 4 c.val) * 250 ≤ t) ∧
    (∃ (c : Fin 16) (y : CaCyc) (t : Nat) (s : State), s.node.up = true ∧ caMode (s.node.recOf 4 c.val) = 2 ∧ (s.node.caC c.val).cur = some y ∧ y.trig < y.len ∧ y.t0 + caTmo (s.node.recOf 4 c.val) * 25000000 ≤ t) ∧
    (∃ (c : Fin 16) (y : CaCyc) (s : State), s.node.up = true ∧ s.node.caOn c.val = true ∧ (caMode (s.node.recOf 4 c.val) ≠ 1 ∨ caStep (s.node.recOf 4 c.val) = 0) ∧ 0 < (s.node.caC c.val).due ∧ (s.node.caC c.val).cur = some y ∧ y.trig < y.len ∧ (s.node.caC c.val).settle = 0 ∧ (s.node.caC c.val).req = none ∧ (s.node.caC c.val).conv = none) ∧
    (∃ (c : Fin 16) (y : CaCyc) (v : CaConv) (t : Nat) (s : State), s.node.up = true ∧ s.node.caOn c.val = true ∧ caMode (s.node.recOf 4 c.val) = 1 ∧ 0 < caStep (s.node.recOf 4 c.val) ∧ (s.node.caC c.val).nextAt ≤ t ∧ (s.node.caC c.val).cur = some y ∧ y.trig < y.len ∧ (s.node.caC c.val).settle = 0 ∧ (s.node.caC c.val).req = none ∧ (s.node.caC c.val).conv = some v ∧ (s.node.caC c.val).held = none) ∧
    (∃ (c : Fin 16) (y : CaCyc) (q : Nat) (t : Nat) (s : State), s.node.up = true ∧ s.node.caOn c.val = true ∧ caMode (s.node.recOf 4 c.val) = 1 ∧ 0 < caStep (s.node.recOf 4 c.val) ∧ (s.node.caC c.val).nextAt ≤ t ∧ (s.node.caC c.val).cur = some y ∧ y.trig + 4 < y.len ∧ (s.node.caC c.val).settle = 0 ∧ (s.node.caC c.val).req = some q ∧ (s.node.caC c.val).deferred = false ∧ (s.node.caC c.val).conv = none ∧ (s.node.caC c.val).closed = false) ∧
    (∃ (c : Fin 16) (t : Nat) (s : State), s.node.up = true ∧ ((s.node.caOn c.val = false ∨ (caMode (s.node.recOf 4 c.val) = 1 ∧ 0 < caStep (s.node.recOf 4 c.val) ∧ t < (s.node.caC c.val).nextAt) ∨ ((caMode (s.node.recOf 4 c.val) ≠ 1 ∨ caStep (s.node.recOf 4 c.val) = 0) ∧ (s.node.caC c.val).due = 0)))) ∧
    (∃ (c : Fin 16) (s : State), s.node.up = true ∧ ((s.node.caOn c.val = false ∨ (s.node.caC c.val).conv = none))) ∧
    (∃ (c : Fin 16) (t : Nat) (s : State), s.node.up = true ∧ (((s.node.caC c.val).closed = false ∨ t < (s.node.caC c.val).closedAt + caRstTime (s.node.recOf 4 c.val) * 250))) ∧
    (∃ (c : Fin 16) (y : CaCyc) (s : State), s.node.up = true ∧ caMode (s.node.recOf 4 c.val) = 2 ∧ (s.node.caC c.val).cur = some y ∧ y.trig < y.len ∧ ((pfValid s.node (caPf (s.node.recOf 4 c.val)) = false ∨ (s.node.pfC (caPf (s.node.recOf 4 c.val))).still = true))) ∧
    (∃ (c : Fin 16) (t : Nat) (s : State), s.node.up = true ∧ ((caMode (s.node.recOf 4 c.val) ≠ 2 ∨ (s.node.caC c.val).cur = none ∨ (∃ y, (s.node.caC c.val).cur = some y ∧ (y.len ≤ y.trig ∨ (t < y.t0 + caTmo (s.node.recOf 4 c.val) * 25000000 ∧ pfValid s.node (caPf (s.node.recOf 4 c.val)) = true ∧ (s.node.pfC (caPf (s.node.recOf 4 c.val))).still = false)))))) :=
  ⟨⟨15, ⟨0, 2, 0, [], 0, 0, 1, 0, false, false, true, true⟩, 0, (wSt { wIm [wCh 4 15 [(8, 1), (13, 1)]] [] with ca := [(15, { cur := some ⟨0, 2, 0, [], 0, 0, 1, 0, false, false, true, true⟩ })] }), by decide +kernel⟩,
   ⟨15, 0, (wSt (wIm [wCh 4 15 [(8, 1), (13, 1)]] [])), by decide +kernel⟩,
   ⟨15, ⟨0, false, false, 0, false⟩, ⟨0, 2, 0, [], 0, 0, 1, 0, false, false, true, true⟩, (wSt { wIm [wCh 4 15 [(8, 1), (13, 1)]] [] with ca := [(15, { cur := some ⟨0, 2, 0, [], 0, 0, 1, 0, false, false, true, true⟩, conv := some ⟨0, false, false, 0, false⟩ })] }), by decide +kernel⟩,
   ⟨15, 0, (wSt { wN with ca := [(15, { closed := true })] }), by decide +kernel⟩,
   ⟨15, ⟨0, 2, 0, [], 0, 0, 1, 0, false, false, true, true⟩, 0, (wSt { wIm [wCh 4 15 [(8, 2)]] [] with ca := [(15, { cur := some ⟨0, 2, 0, [], 0, 0, 1, 0, false, false, true, true⟩ })] }), by decide +kernel⟩,
   ⟨15, ⟨0, 2, 0, [], 0, 0, 1, 0, false, false, true, true⟩, (wSt { wIm [wCh 4 15 [(8, 2)]] [] with ca := [(15, { due := 2, cur := some ⟨0, 2, 0, [], 0, 0, 1, 0, false, false, true, true⟩ })] }), by decide +kernel⟩,
   ⟨15, ⟨0, 2, 0, [], 0, 0, 1, 0, false, false, true, true⟩, ⟨0, false, false, 0, false⟩, 0, (wSt { wIm [wCh 4 15 [(8, 1), (13, 1)]] [] with ca := [(15, { cur := some ⟨0, 2, 0, [], 0, 0, 1, 0, false, false, true, true⟩, conv := some ⟨0, false, false, 0, false⟩ })] }), by decide +kernel⟩,
   ⟨15, ⟨0, 20, 0, [], 0, 0, 1, 0, false, false, true, true⟩, 3, 0, (wSt { wIm [wCh 4 15 [(8, 1), (13, 1)]] [] with ca := [(15, { lastQ := 77, req := some 3, cur := some ⟨0, 20, 0, [], 0, 0, 1, 0, false, false, true, true⟩ })] }), by decide +kernel⟩,
   ⟨15, 0, (wSt { wIm [wCh 4 15 [(8, 1), (13, 1)]] [] with ca := [(15, { nextAt := 5 })] }), by decide +kernel⟩,
   ⟨15, (wSt (wIm [wCh 4 15 [(8, 1), (13, 1)]] [])), by decide +kernel⟩,
   ⟨15, 0, (wSt (wIm [wCh 4 15 [(8, 1), (13, 1)]] [])), by decide +kernel⟩,
   ⟨15, ⟨0, 2, 0, [], 0, 0, 1, 0, false, false, true, true⟩, (wSt { wIm [wCh 4 15 [(8, 2), (29, 9)]] [] with pf := [(0, { still := true })], ca := [(15, { cur := some ⟨0, 2, 0, [], 0, 0, 1, 0, false, false, true, true⟩ })] }), by decide +kernel⟩,
   ⟨15, 0, (wSt (wIm [wCh 4 15 [(8, 1), (13, 1)]] [])), by decide +kernel, .inl (by decide +kernel)⟩⟩

theorem test_meets_ChargeRecords :
    (∃ (c : Fin 16) (y : CaCyc) (s : State), s.node.up = true ∧ s.node.caOn c.val = true ∧ caMode (s.node.recOf 4 c.val) = 2 ∧ (s.node.caC c.val).prev = some y ∧ (s.node.caC c.val).conv = none ∧ y.record = true ∧ s.node.roleOn 2 (c.val / 8) = true) ∧
    (∃ (c : Fin 16) (v : Word) (s : State), Takes s (0x3024 + 0x40 * c.val) ∧ bitOf v 8 = true ∧ s.node.acq = true ∧ s.node.chOn 4 c.val = true ∧ caAuto (s.node.recOf 4 c.val) = false) ∧
    (∃ (c : Fin 16) (v : Word) (s : State), Takes s (0x3024 + 0x40 * c.val) ∧ bitOf v 8 = true ∧ (s.node.acq = false ∨ s.node.chOn 4 c.val = false ∨ caAuto (s.node.recOf 4 c.val) = true)) ∧
    (∃ (c : Fin 16) (s : State), Takes s (0x3034 + 0x40 * c.val) ∧ (s.node.caC c.val).latest ≠ 0) ∧
    (∃ (c : Fin 16) (s : State), Takes s (0x3034 + 0x40 * c.val)) ∧
    (∃ (p : HostPort) (c : Fin 16) (buf : List Word) (w : Word) (s : State), Serves s (0x303C + 0x40 * c.val) ∧ caHeld (s.node.caC c.val) (portIdx p) = some buf ∧ buf[tget 0 (s.node.port p).caBufAddr c.val]? = some w) ∧
    (∃ (p : HostPort) (c : Fin 16) (s : State), Serves s (0x303C + 0x40 * c.val) ∧ caHeld (s.node.caC c.val) (portIdx p) = none) ∧
    (∃ (p : HostPort) (c : Fin 16) (b : Nat) (r : Nat) (s : State), s.node.up = true ∧ (s.node.caC c.val).holds = [(portIdx p, b, r)]) ∧
    (∃ (c : Fin 16) (y : CaCyc) (s : State), s.node.up = true ∧ s.node.caOn c.val = true ∧ caMode (s.node.recOf 4 c.val) = 1 ∧ (s.node.caC c.val).prev = none ∧ (s.node.caC c.val).cur = some y ∧ y.len ≤ y.trig ∧ (s.node.caC c.val).conv = none ∧ (s.node.caC c.val).held = none ∧ y.record = true ∧ s.node.roleOn 2 (c.val / 8) = true) ∧
    (∃ (c : Fin 16) (y : CaCyc) (s : State), s.node.up = true ∧ s.node.caOn c.val = true ∧ (s.node.caC c.val).prev = some y ∧ (s.node.caC c.val).conv = none ∧ y.record = false ∧ s.node.roleOn 2 (c.val / 8) = true) ∧
    (∃ (c : Fin 16) (s : State), s.node.up = true ∧ ((s.node.caOn c.val = false ∨ s.node.roleOn 2 (c.val / 8) = false ∨ caFinished (s.node.caC c.val) = none))) ∧
    (∃ (c : Fin 16) (v : Word) (s : State), Takes s (0x3024 + 0x40 * c.val) ∧ bitOf v 8 = false) ∧
    (∃ (c : Fin 16) (s : State), Takes s (0x3034 + 0x40 * c.val) ∧ (s.node.caC c.val).latest = 0) ∧
    (∃ (p : HostPort) (c : Fin 16) (buf : List Word) (s : State), Serves s (0x303C + 0x40 * c.val) ∧ caHeld (s.node.caC c.val) (portIdx p) = some buf ∧ buf.length ≤ tget 0 (s.node.port p).caBufAddr c.val) ∧
    (∃ (p : HostPort) (c : Fin 16) (s : State), s.node.up = true ∧ (∀ h ∈ (s.node.caC c.val).holds, h.1 ≠ portIdx p)) :=
  ⟨⟨15, ⟨0, 2, 0, [], 0, 0, 1, 0, false, false, true, true⟩, (wSt { wIm [wCh 4 15 [(8, 2)]] [] with ca := [(15, { prev := some ⟨0, 2, 0, [], 0, 0, 1, 0, false, false, true, true⟩ })] }), by decide +kernel⟩,
   ⟨15, 0x100#32, (wSt (wIm [wCh 4 15 [(8, 1), (13, 1)]] [])), by unfold Takes; decide +kernel⟩,
   ⟨15, 0x100#32, (wSt wN), by unfold Takes; decide +kernel⟩,
   ⟨15, (wSt { wN with ca := [(15, { latest := 2 })] }), by unfold Takes; decide +kernel⟩,
   ⟨15, (wSt wN), by unfold Takes; decide +kernel⟩,
   ⟨.m5, 15, [7#32], 7#32, (wSt { wN with ca := [(15, { bufA := [7#32], holds := [(3, 1, 0)] })] }), by unfold Serves; decide +kernel⟩,
   ⟨.m5, 15, (wSt wN), by unfold Serves; decide +kernel⟩,
   ⟨.m5, 15, 1, 0, (wSt { wN with ca := [(15, { holds := [(3, 1, 0)] })] }), by decide +kernel⟩,
   ⟨15, ⟨0, 2, 2, [⟨1, 500, 0, false, false, false, false, 0⟩, ⟨0, 300, 0, false, false, false, false, 0⟩], 0, 0, 1, 0, false, false, true, true⟩, (wSt { wIm [wCh 4 15 [(8, 1), (13, 1), (24, 1)]] [] with ca := [(15, { cur := some ⟨0, 2, 2, [⟨1, 500, 0, false, false, false, false, 0⟩, ⟨0, 300, 0, false, false, false, false, 0⟩], 0, 0, 1, 0, false, false, true, true⟩ })] }), by decide +kernel⟩,
   ⟨15, ⟨0, 2, 0, [], 0, 0, 1, 0, false, false, true, false⟩, (wSt { wIm [wCh 4 15 [(8, 2)]] [] with ca := [(15, { prev := some ⟨0, 2, 0, [], 0, 0, 1, 0, false, false, true, false⟩ })] }), by decide +kernel⟩,
   ⟨15, (wSt (wIm [wCh 4 15 [(8, 2)]] [])), by decide +kernel⟩,
   ⟨15, 0#32, (wSt wN), by unfold Takes; decide +kernel⟩,
   ⟨15, (wSt wN), by unfold Takes; decide +kernel⟩,
   ⟨.m5, 15, [7#32], (wSt { wN with ca := [(15, { bufA := [7#32], holds := [(3, 1, 0)] })], ports := { m5 := { caBufAddr := [(15, 1)] } } }), by unfold Serves; decide +kernel⟩,
   ⟨.m5, 15, (wSt wN), by decide +kernel⟩⟩

theorem test_meets_LoopOutputs :
    (∃ (k : Fin 16) (s : State), Takes s (0x380C + 0x40 * k.val)) ∧
    (∃ (k : Fin 16) (t : Nat) (s : State), s.node.up = true ∧ s.node.acq = true ∧ s.node.isRun 5 = true ∧ recOn (s.node.recOf 5 k.val) = true ∧ t % 2500000 = 0 ∧ loMode (s.node.recOf 5 k.val) ≠ 2 ∧ s.node.miswired (64 + k.val) = false) ∧
    (∃ (k : Fin 16) (s : State), s.node.up = true ∧ recOn (s.node.recOf 5 k.val) = true ∧ loMode (s.node.recOf 5 k.val) = 2 ∧ s.node.carries = true ∧ s.node.miswired (64 + k.val) = false) ∧
    (∃ (k : Fin 16) (t : Nat) (s : State), s.node.up = true ∧ s.node.acq = true ∧ s.node.isRun 5 = true ∧ recOn (s.node.recOf 5 k.val) = true ∧ t % 2500000 = 0 ∧ loMode (s.node.recOf 5 k.val) = 2 ∧ s.node.carries = true ∧ s.node.miswired (64 + k.val) = false ∧ (s.node.loC k.val).fieldOk = false) ∧
    (∃ (k : Fin 16) (t : Nat) (s : State), s.node.up = true ∧ s.node.acq = true ∧ s.node.isRun 5 = true ∧ recOn (s.node.recOf 5 k.val) = true ∧ t % 2500000 = 0 ∧ s.node.miswired (64 + k.val) = true ∧ loMode (s.node.recOf 5 k.val) ≠ 2) ∧
    (∃ (k : Fin 16) (t : Nat) (s : State), s.node.up = true ∧ ((s.node.acq = false ∨ s.node.isRun 5 = false ∨ recOn (s.node.recOf 5 k.val) = false ∨ t % 2500000 ≠ 0))) ∧
    (∃ (k : Fin 16) (s : State), s.node.up = true ∧ recOn (s.node.recOf 5 k.val) = true ∧ loMode (s.node.recOf 5 k.val) = 2 ∧ ((s.node.carries = false ∨ s.node.miswired (64 + k.val) = true))) ∧
    (∃ (k : Fin 16) (s : State), s.node.up = true ∧ ((recOn (s.node.recOf 5 k.val) = false ∨ loMode (s.node.recOf 5 k.val) ≠ 2))) :=
  ⟨⟨15, (wSt wN), by unfold Takes; decide +kernel⟩,
   ⟨15, 0, (wSt { wIm [wCh 5 15] [] with lo := [(15, { hrRun := 2 })] }), by decide +kernel⟩,
   ⟨15, (wSt (wIm [wCh 5 15 [(8, 2)]] [])), by decide +kernel⟩,
   ⟨15, 0, (wSt (wIm [wCh 5 15 [(8, 2)]] [])), by decide +kernel⟩,
   ⟨15, 0, (wSt { wIm [wCh 5 15] [] with mw := { act := 1#128 <<< 79 } }), by decide +kernel⟩,
   ⟨15, 7, (wSt (wIm [wCh 5 15] [])), by decide +kernel⟩,
   ⟨15, (wSt { wIm [wCh 5 15 [(8, 2)]] [] with mw := { act := 1#128 <<< 79 } }), by decide +kernel⟩,
   ⟨15, (wSt (wIm [wCh 5 15] [])), by decide +kernel⟩⟩

theorem test_meets_Miswiring :
    (∃ (ch : Fin 128) (s : State), s.node.up = true ∧ ch.val < 120 ∧ s.node.miswired ch.val = false) ∧
    (∃ (ch : Fin 128) (s : State), s.node.up = true ∧ ch.val < 120 ∧ s.node.miswired ch.val = true) ∧
    (∃ (ch : Fin 128) (s : State), s.node.up = true ∧ ((120 ≤ ch.val ∨ s.node.miswired ch.val = true))) ∧
    (∃ (ch : Fin 128) (s : State), s.node.up = true ∧ ((120 ≤ ch.val ∨ s.node.miswired ch.val = false))) :=
  ⟨⟨119, (wSt wN), by decide +kernel⟩,
   ⟨119, (wSt { wN with mw := { act := BitVec.allOnes 128 } }), by decide +kernel⟩,
   ⟨120, (wSt wN), by decide +kernel⟩,
   ⟨119, (wSt wN), by decide +kernel⟩⟩

theorem test_meets_HartMasters :
    (∃ (v : Fin 128) (s : State), s.node.up = true ∧ recOn (s.node.recOf 7 v.val) = true ∧ s.node.hartOn (hvMaster (s.node.recOf 7 v.val)) = true ∧ (s.node.hmC (hvMaster (s.node.recOf 7 v.val))).run = .idle ∧ (s.node.hmC (hvMaster (s.node.recOf 7 v.val))).pend = none ∧ (s.node.hmC (hvMaster (s.node.recOf 7 v.val))).due = [] ∧ (s.node.hmC (hvMaster (s.node.recOf 7 v.val))).ident.contains (hvAddr (s.node.recOf 7 v.val)) = true) ∧
    (∃ (v : Fin 128) (s : State), s.node.up = true ∧ recOn (s.node.recOf 7 v.val) = true ∧ s.node.hartOn (hvMaster (s.node.recOf 7 v.val)) = true ∧ (s.node.hmC (hvMaster (s.node.recOf 7 v.val))).run = .pass ∧ (s.node.hmC (hvMaster (s.node.recOf 7 v.val))).due.contains v.val = false) ∧
    (∃ (v : Fin 128) (s : State), s.node.up = true ∧ recOn (s.node.recOf 7 v.val) = true ∧ s.node.hartOn (hvMaster (s.node.recOf 7 v.val)) = true ∧ (s.node.hmC (hvMaster (s.node.recOf 7 v.val))).run = .idle ∧ (s.node.hmC (hvMaster (s.node.recOf 7 v.val))).pend = none ∧ (s.node.hmC (hvMaster (s.node.recOf 7 v.val))).due = [] ∧ (s.node.hmC (hvMaster (s.node.recOf 7 v.val))).ident.contains (hvAddr (s.node.recOf 7 v.val)) = false) ∧
    (∃ (m : Fin 32) (a : Nat) (v : Nat) (w : Word) (x : HartResp) (num : Int) (den : Nat) (s : State), s.node.up = true ∧ s.node.hartOn m.val = true ∧ (s.node.hmC m.val).run = .vars a [v] ∧ x.isErr = false ∧ x.vals = [(v, w, none)] ∧ floatOver w (recScale (s.node.recOf 7 v)) = some (num, den) ∧ x.devStat.getLsbD 7 = false) ∧
    (∃ (m : Fin 32) (a : Nat) (l : List Nat) (s : State), s.node.up = true ∧ (s.node.hmC m.val).run = .vars a l ∧ (s.node.hmC m.val).noResp < 65535) ∧
    (∃ (ch : Fin 32) (snd : Nat) (s : State), s.node.up = true ∧ netId s.node ≠ 0 ∧ mbBinding s.node ch.val = (snd, netId s.node, true) ∧ (s.node.mbChan ch.val).st = .posted ∧ fld ((s.node.mbChan ch.val).msg.getD 0 0#32) 31 24 = 0x48 ∧ u8 (msgPayload (s.node.mbChan ch.val).msg) 0 ≤ 31 ∧ u8 (msgPayload (s.node.mbChan ch.val).msg) 1 ≤ 63 ∧ u8 (msgPayload (s.node.mbChan ch.val).msg) 4 ≤ 48 ∧ u8 (msgPayload (s.node.mbChan ch.val).msg) 5 ≤ 31 ∧ s.node.hartOn (u8 (msgPayload (s.node.mbChan ch.val).msg) 0) = true ∧ (s.node.hmC (u8 (msgPayload (s.node.mbChan ch.val).msg) 0)).pend = none ∧ (s.node.hmC (u8 (msgPayload (s.node.mbChan ch.val).msg) 0)).run = .idle ∧ mbBinding s.node (u8 (msgPayload (s.node.mbChan ch.val).msg) 5) = (netId s.node, snd, true) ∧ (s.node.hmC (u8 (msgPayload (s.node.mbChan ch.val).msg) 0)).ident.contains (u8 (msgPayload (s.node.mbChan ch.val).msg) 1) = true) ∧
    (∃ (v : Fin 128) (s : State), s.node.up = true ∧ ((recOn (s.node.recOf 7 v.val) = false ∨ s.node.hartOn (hvMaster (s.node.recOf 7 v.val)) = false))) ∧
    (∃ (m : Fin 32) (a : Nat) (v : Nat) (x : HartResp) (s : State), s.node.up = true ∧ s.node.hartOn m.val = true ∧ (s.node.hmC m.val).run = .ident a ∧ (s.node.hmC m.val).pend = none ∧ (s.node.hmC m.val).due = [v] ∧ hvAddr (s.node.recOf 7 v) = a ∧ x.isErr = false) ∧
    (∃ (m : Fin 32) (p : HartPass) (x : HartResp) (s : State), s.node.up = true ∧ s.node.hartOn m.val = true ∧ (s.node.hmC m.val).run = .pass ∧ (s.node.hmC m.val).pend = some p ∧ x.isErr = false) ∧
    (∃ (m : Fin 32) (a : Nat) (l : List Nat) (x : HartResp) (s : State), s.node.up = true ∧ s.node.hartOn m.val = true ∧ (s.node.hmC m.val).run = .vars a l ∧ x.isErr = true ∧ (s.node.hmC m.val).commErr < 65535) ∧
    (∃ (m : Fin 32) (s : State), s.node.up = true ∧ (((s.node.hmC m.val).run = .idle ∨ s.node.hartOn m.val = false))) ∧
    (∃ (m : Fin 32) (p : HartPass) (s : State), s.node.up = true ∧ (s.node.hmC m.val).run = .pass ∧ (s.node.hmC m.val).pend = some p) ∧
    (∃ (m : Fin 32) (s : State), s.node.up = true ∧ (s.node.hmC m.val).run = .idle) ∧
    (∃ (ch : Fin 32) (snd : Nat) (code : Nat) (s : State), s.node.up = true ∧ netId s.node ≠ 0 ∧ mbBinding s.node ch.val = (snd, netId s.node, true) ∧ (s.node.mbChan ch.val).st = .posted ∧ fld ((s.node.mbChan ch.val).msg.getD 0 0#32) 31 24 = 0x48 ∧ (((31 < u8 (msgPayload (s.node.mbChan ch.val).msg) 0 ∨ 63 < u8 (msgPayload (s.node.mbChan ch.val).msg) 1 ∨ 48 < u8 (msgPayload (s.node.mbChan ch.val).msg) 4 ∨ 31 < u8 (msgPayload (s.node.mbChan ch.val).msg) 5) ∧ code = 0x02 ∨ ¬(31 < u8 (msgPayload (s.node.mbChan ch.val).msg) 0 ∨ 63 < u8 (msgPayload (s.node.mbChan ch.val).msg) 1 ∨ 48 < u8 (msgPayload (s.node.mbChan ch.val).msg) 4 ∨ 31 < u8 (msgPayload (s.node.mbChan ch.val).msg) 5) ∧ s.node.hartOn (u8 (msgPayload (s.node.mbChan ch.val).msg) 0) = false ∧ code = 0x12 ∨ ¬(31 < u8 (msgPayload (s.node.mbChan ch.val).msg) 0 ∨ 63 < u8 (msgPayload (s.node.mbChan ch.val).msg) 1 ∨ 48 < u8 (msgPayload (s.node.mbChan ch.val).msg) 4 ∨ 31 < u8 (msgPayload (s.node.mbChan ch.val).msg) 5) ∧ s.node.hartOn (u8 (msgPayload (s.node.mbChan ch.val).msg) 0) = true ∧ (s.node.hmC (u8 (msgPayload (s.node.mbChan ch.val).msg) 0)).pend ≠ none ∧ code = 0x13 ∨ ¬(31 < u8 (msgPayload (s.node.mbChan ch.val).msg) 0 ∨ 63 < u8 (msgPayload (s.node.mbChan ch.val).msg) 1 ∨ 48 < u8 (msgPayload (s.node.mbChan ch.val).msg) 4 ∨ 31 < u8 (msgPayload (s.node.mbChan ch.val).msg) 5) ∧ s.node.hartOn (u8 (msgPayload (s.node.mbChan ch.val).msg) 0) = true ∧ (s.node.hmC (u8 (msgPayload (s.node.mbChan ch.val).msg) 0)).pend = none ∧ mbBinding s.node (u8 (msgPayload (s.node.mbChan ch.val).msg) 5) ≠ (netId s.node, snd, true) ∧ code = 0x14))) ∧
    (∃ (ch : Fin 32) (s : State), s.node.up = true ∧ ((netId s.node = 0 ∨ (mbBinding s.node ch.val).2 ≠ (netId s.node, true) ∨ (s.node.mbChan ch.val).st ≠ .posted ∨ fld ((s.node.mbChan ch.val).msg.getD 0 0#32) 31 24 ≠ 0x48))) :=
  ⟨⟨127, (wSt { wIm [wCh 6 31, wCh 7 127 [(8, 31)]] [] with hart := [(31, { ident := [0] })] }), by decide +kernel⟩,
   ⟨127, (wSt { wIm [wCh 6 31, wCh 7 127 [(8, 31)]] [] with hart := [(31, { run := .pass })] }), by decide +kernel⟩,
   ⟨127, (wSt (wIm [wCh 6 31, wCh 7 127 [(8, 31)]] [])), by decide +kernel⟩,
   ⟨31, 0, 127, 0x3F800000#32, ⟨0#8, 0#8, false, [], [(127, 0x3F800000#32, none)]⟩, 8388608, 8388608, (wSt { wIm [wCh 6 31, wCh 7 127 [(8, 31)]] [] with hart := [(31, { run := .vars 0 [127] })] }), by decide +kernel⟩,
   ⟨31, 63, [127], (wSt { wN with hart := [(31, { run := .vars 63 [127] })] }), by decide +kernel⟩,
   ⟨31, 1, (wSt { wLock 1 20 with ld := { (wIm [wCh 6 31] []).ld with lock := (wLock 1 20).ld.lock }, mbx := { chans := [(31, { st := .posted, msg := mkMsg 0x48 0 6 [31#8, 63#8, 0#8, 0#8, 48#8, 30#8] })] }, hart := [(31, { ident := [63] })] }), by decide +kernel⟩,
   ⟨127, (wSt (wIm [wCh 7 127 [(8, 31)]] [])), by decide +kernel⟩,
   ⟨31, 0, 127, ⟨0#8, 0#8, false, [], []⟩, (wSt { wIm [wCh 6 31, wCh 7 127 [(8, 31)]] [] with hart := [(31, { run := .ident 0, due := [127] })] }), by decide +kernel⟩,
   ⟨31, ⟨31, 0, 1, 63, 0, [], 30⟩, ⟨5#8, 0#8, false, [], []⟩, (wSt { wIm [wCh 6 31, wCh 7 127 [(8, 31)]] [] with hart := [(31, { run := .pass, pend := some ⟨31, 0, 1, 63, 0, [], 30⟩ })] }), by decide +kernel⟩,
   ⟨31, 0, [127], ⟨5#8, 0#8, true, [], []⟩, (wSt { wIm [wCh 6 31, wCh 7 127 [(8, 31)]] [] with hart := [(31, { run := .vars 0 [127] })] }), by decide +kernel⟩,
   ⟨31, (wSt (wIm [wCh 6 31, wCh 7 127 [(8, 31)]] [])), by decide +kernel⟩,
   ⟨31, ⟨31, 0, 1, 63, 0, [], 30⟩, (wSt { wIm [wCh 6 31, wCh 7 127 [(8, 31)]] [] with hart := [(31, { run := .pass, pend := some ⟨31, 0, 1, 63, 0, [], 30⟩ })] }), by decide +kernel⟩,
   ⟨31, (wSt (wIm [wCh 6 31, wCh 7 127 [(8, 31)]] [])), by decide +kernel⟩,
   ⟨31, 1, 2, (wSt { wLock 1 20 with mbx := { chans := [(31, { st := .posted, msg := mkMsg 0x48 0 6 [31#8, 63#8, 0#8, 0#8, 49#8, 30#8] })] } }), by decide +kernel, by decide +kernel, by decide +kernel, by decide +kernel, by decide +kernel, .inl ⟨.inr (.inr (.inl (by decide +kernel))), rfl⟩⟩,
   ⟨31, (wSt { wLock 1 20 with mbx := { chans := [(31, { st := .posted, msg := mkMsg 0x47 0 6 [31#8, 63#8, 0#8, 0#8, 49#8, 30#8] })] } }), by decide +kernel⟩⟩

theorem test_meets_PulseOutputs :
    (∃ (k : Fin 8) (s : State), s.node.up = true ∧ recOn (s.node.recOf 0x0F k.val) = true ∧ s.node.driving = true ∧ poMode (s.node.recOf 0x0F k.val) = 1 ∧ poSrc (s.node.recOf 0x0F k.val) = 0) ∧
    (∃ (k : Fin 8) (s : State), s.node.up = true ∧ (s.node.poC k.val).pulse = true) ∧
    (∃ (k : Fin 8) (s : State), s.node.up = true ∧ recOn (s.node.recOf 0x0F k.val) = true ∧ s.node.driving = true ∧ poMode (s.node.recOf 0x0F k.val) = 2 ∧ poSrc (s.node.recOf 0x0F k.val) = 0 ∧ 100 ≤ (s.node.poC k.val).out) ∧
    (∃ (k : Fin 8) (s : State), s.node.up = true ∧ ((recOn (s.node.recOf 0x0F k.val) = false ∨ s.node.driving = false ∨ poMode (s.node.recOf 0x0F k.val) = 3 ∨ (poMode (s.node.recOf 0x0F k.val) = 2 ∧ (s.node.poC k.val).out < 100)))) ∧
    (∃ (k : Fin 8) (s : State), s.node.up = true ∧ recOn (s.node.recOf 0x0F k.val) = true ∧ s.node.driving = true ∧ poMode (s.node.recOf 0x0F k.val) = 1 ∧ poSrc (s.node.recOf 0x0F k.val) = 2 ∧ qHas (resQ (s.node.res (poSrcAddr (s.node.recOf 0x0F k.val)))) qVALID = false) ∧
    (∃ (k : Fin 8) (s : State), s.node.up = true ∧ (s.node.poC k.val).pulse = false) :=
  ⟨⟨7, (wSt (wIm [wCh 0x0F 7 [(8, 1)]] [])), by decide +kernel⟩,
   ⟨7, (wSt { wN with po := [(7, { pulse := true })] }), by decide +kernel⟩,
   ⟨7, (wSt { wIm [wCh 0x0F 7 [(8, 2), (20, 200)]] [] with po := [(7, { out := 100, set := 700000 })] }), by decide +kernel⟩,
   ⟨7, (wSt (wIm [wCh 0x0F 7 [(8, 2)]] [])), by decide +kernel⟩,
   ⟨7, (wSt (wIm [wCh 0x0F 7 [(8, 1), (9, 1), (10, 2), (17, 0x20)]] [])), by decide +kernel⟩,
   ⟨7, (wSt wN), by decide +kernel⟩⟩

theorem test_meets_DigitalInputs :
    (∃ (k : Fin 48) (l : Bool) (t : Nat) (s : State), s.node.up = true ∧ s.node.inForce = true ∧ recOn (s.node.recOf 0x0E k.val) = true ∧ diSampled (s.node.recOf 0x0E k.val) k.val t = true ∧ diFiltered (s.node.recOf 0x0E k.val) (s.node.diC k.val) t = true ∧ (s.node.diC k.val).accepted = true ∧ (s.node.diC k.val).level ≠ l) ∧
    (∃ (k : Fin 48) (t : Nat) (s : State), s.node.up = true ∧ s.node.inForce = true ∧ recOn (s.node.recOf 0x0E k.val) = true ∧ diSampled (s.node.recOf 0x0E k.val) k.val t = true ∧ diFiltered (s.node.recOf 0x0E k.val) (s.node.diC k.val) t = true ∧ (s.node.diC k.val).accepted = false) ∧
    (∃ (k : Fin 48) (s : State), s.node.up = true ∧ s.node.inForce = true ∧ recOn (s.node.recOf 0x0E k.val) = true ∧ recBit (s.node.recOf 0x0E k.val) 12 0 = true ∧ s.node.carries = true ∧ (s.node.diC k.val).opn = false) ∧
    (∃ (k : Fin 48) (s : State), s.node.up = true ∧ s.node.inForce = true ∧ recOn (s.node.recOf 0x0E k.val) = true ∧ recBit (s.node.recOf 0x0E k.val) 12 0 = true ∧ s.node.carries = true) ∧
    (∃ (s : State), s.node.up = true) ∧
    (∃ (k : Fin 6) (s : State), s.node.up = true ∧ ssOut s.node k.val = true) ∧
    (∃ (k : Fin 6) (s : State), s.node.up = true ∧ (s.node.ssC k.val).overload = true) ∧
    (∃ (k : Fin 48) (l : Bool) (t : Nat) (s : State), s.node.up = true ∧ ((s.node.inForce = false ∨ recOn (s.node.recOf 0x0E k.val) = false ∨ diSampled (s.node.recOf 0x0E k.val) k.val t = false ∨ diFiltered (s.node.recOf 0x0E k.val) (s.node.diC k.val) t = false ∨ ((s.node.diC k.val).accepted = true ∧ (s.node.diC k.val).level = l)))) ∧
    (∃ (k : Fin 48) (o : Bool) (s : State), s.node.up = true ∧ ((s.node.inForce = false ∨ recOn (s.node.recOf 0x0E k.val) = false ∨ recBit (s.node.recOf 0x0E k.val) 12 0 = false ∨ s.node.carries = false ∨ (s.node.diC k.val).opn = o))) ∧
    (∃ (k : Fin 6) (s : State), s.node.up = true ∧ ssOut s.node k.val = false) ∧
    (∃ (k : Fin 6) (s : State), s.node.up = true ∧ (s.node.ssC k.val).overload = false) :=
  ⟨⟨47, true, 10, (wSt { wIm [wCh 0x0E 47 [(9, 1), (12, 1)]] [] with dig := { di := [(47, { accepted := true })] } }), by decide +kernel⟩,
   ⟨47, 10, (wSt (wIm [wCh 0x0E 47 [(9, 1)]] [])), by decide +kernel⟩,
   ⟨47, (wSt { wIm [wCh 0x0E 47 [(9, 1), (12, 1)]] [] with dig := { di := [(47, { accepted := true })] } }), by decide +kernel⟩,
   ⟨47, (wSt { wIm [wCh 0x0E 47 [(9, 1), (12, 1)]] [] with dig := { di := [(47, { accepted := true })] } }), by decide +kernel⟩,
   ⟨(wSt wN), by decide +kernel⟩,
   ⟨5, (wSt { wIm [wCh 9 5] [] with dig := { ss := [(5, { on := true })] } }), by decide +kernel⟩,
   ⟨5, (wSt { wN with dig := { ss := [(5, { overload := true })] } }), by decide +kernel⟩,
   ⟨47, true, 2, (wSt { wIm [wCh 0x0E 47 [(9, 1), (12, 1)]] [] with dig := { di := [(47, { accepted := true })] } }), by decide +kernel⟩,
   ⟨47, false, (wSt { wIm [wCh 0x0E 47 [(9, 1), (12, 1)]] [] with dig := { di := [(47, { accepted := true })] } }), by decide +kernel⟩,
   ⟨5, (wSt { wN with dig := { ss := [(5, { on := true, overload := true })] } }), by decide +kernel⟩,
   ⟨5, (wSt wN), by decide +kernel⟩⟩

theorem test_meets_DigitalCommands :
    (∃ (k : Fin 32) (s : State), Takes s (0x4404 + 0x10 * k.val) ∧ doSrc (s.node.recOf 0x0A k.val) = 0) ∧
    (∃ (k : Fin 32) (s : State), Takes s (0x4404 + 0x10 * k.val) ∧ doSrc (s.node.recOf 0x0A k.val) ≠ 0) ∧
    (∃ (k : Fin 32) (t : Nat) (s : State), s.node.up = true ∧ s.node.driving = true ∧ recOn (s.node.recOf 0x0A k.val) = true ∧ doSrc (s.node.recOf 0x0A k.val) = 1 ∧ (s.node.doC k.val).tpNext ≤ t) ∧
    (∃ (k : Fin 32) (e : Nat) (t : Nat) (s : State), s.node.up = true ∧ (s.node.doC k.val).tpOff = some e ∧ e ≤ t) ∧
    (∃ (k : Fin 32) (s : State), s.node.up = true ∧ (s.node.doC k.val).pulse = true) ∧
    (∃ (k : Fin 32) (t : Nat) (s : State), s.node.up = true ∧ ((s.node.driving = false ∨ recOn (s.node.recOf 0x0A k.val) = false ∨ doSrc (s.node.recOf 0x0A k.val) ≠ 1 ∨ t < (s.node.doC k.val).tpNext))) ∧
    (∃ (k : Fin 32) (t : Nat) (s : State), s.node.up = true ∧ (((s.node.doC k.val).tpOff = none ∨ ∃ e, (s.node.doC k.val).tpOff = some e ∧ t < e))) ∧
    (∃ (k : Fin 32) (s : State), s.node.up = true ∧ (s.node.doC k.val).pulse = false) :=
  ⟨⟨31, (wSt (wIm [wCh 0x0A 31] [])), by unfold Takes; decide +kernel⟩,
   ⟨31, (wSt (wIm [wCh 0x0A 31 [(9, 1)]] [])), by unfold Takes; decide +kernel⟩,
   ⟨31, 0, (wSt (wIm [wCh 0x0A 31 [(9, 1)]] [])), by decide +kernel⟩,
   ⟨31, 0, 0, (wSt { wIm [wCh 0x0A 31] [] with dig := { dout := [(31, { tpOff := some 0 })], fpMv := [(3, 24000)] } }), by decide +kernel⟩,
   ⟨31, (wSt { wIm [wCh 0x0A 31] [] with dig := { dout := [(31, { pulse := true })], fpMv := [(3, 24000)] } }), by decide +kernel⟩,
   ⟨31, 0, (wSt { wIm [wCh 0x0A 31 [(9, 1)]] [] with dig := { dout := [(31, { tpNext := 5 })], fpMv := [(3, 24000)] } }), by decide +kernel⟩,
   ⟨31, 0, (wSt { wIm [wCh 0x0A 31] [] with dig := { dout := [(31, { tpOff := some 5 })], fpMv := [(3, 24000)] } }), by decide +kernel, .inr ⟨5, rfl, by decide +kernel⟩⟩,
   ⟨31, (wSt wN), by decide +kernel⟩⟩

theorem test_meets_DigitalProtection :
    (∃ (k : Fin 32) (s : State), s.node.up = true ∧ (s.node.doC k.val).on = true ∧ s.node.dup.latched = false ∧ doSrc (s.node.recOf 0x0A k.val) = 0 ∧ (s.node.doC k.val).cmd = true) ∧
    (∃ (k : Fin 32) (s : State), s.node.up = true ∧ s.node.isRun 5 = true ∧ (s.node.doC k.val).overtemp = false ∧ s.node.dup.latched = false) ∧
    (∃ (s : State), s.node.up = true) ∧
    (∃ (k : Fin 32) (which : Bool) (t : Nat) (s : State), s.node.up = true ∧ recOn (s.node.recOf 0x0A k.val) = true ∧ recBit (s.node.recOf 0x0A k.val) 10 (if which then 2 else 1) = true ∧ (s.node.doC k.val).on = !which ∧ doChecks s.node k.val t = true) ∧
    (∃ (k : Fin 32) (s : State), s.node.up = true ∧ recOn (s.node.recOf 0x0A k.val) = true ∧ recBit (s.node.recOf 0x0A k.val) 10 0 = true ∧ s.node.inForce = true ∧ (s.node.doC k.val).on = true ∧ (s.node.doC k.val).pulse = false ∧ (s.node.doC k.val).dark = false ∧ (s.node.doC k.val).darkAt = none) ∧
    (∃ (k : Fin 32) (t : Nat) (s : State), s.node.up = true ∧ (s.node.doC k.val).dark = true ∧ (s.node.doC k.val).darkEnd ≤ t) ∧
    (∃ (s : State), s.node.up = true) ∧
    (∃ (k : Fin 32) (s : State), s.node.up = true ∧ (s.node.doC k.val).on = true) ∧
    (∃ (k : Fin 32) (s : State), s.node.up = true ∧ (s.node.doC k.val).on = false) ∧
    (∃ (k : Fin 32) (s : State), s.node.up = true ∧ ((s.node.isRun 5 = false ∨ (s.node.doC k.val).overtemp = true))) ∧
    (∃ (k : Fin 32) (which : Bool) (t : Nat) (s : State), s.node.up = true ∧ ((recOn (s.node.recOf 0x0A k.val) = false ∨ recBit (s.node.recOf 0x0A k.val) 10 (if which then 2 else 1) = false ∨ (s.node.doC k.val).on = which ∨ doChecks s.node k.val t = false))) ∧
    (∃ (k : Fin 32) (t : Nat) (s : State), s.node.up = true ∧ ((recOn (s.node.recOf 0x0A k.val) = false ∨ recBit (s.node.recOf 0x0A k.val) 10 0 = false ∨ s.node.inForce = false ∨ (s.node.doC k.val).on = false ∨ (s.node.doC k.val).pulse = true ∨ ∃ a, (s.node.doC k.val).darkAt = some a ∧ t < a + doDtPer (s.node.recOf 0x0A k.val) * 250000000))) ∧
    (∃ (k : Fin 32) (t : Nat) (s : State), s.node.up = true ∧ (((s.node.doC k.val).dark = false ∨ t < (s.node.doC k.val).darkEnd))) :=
  ⟨⟨31, (wSt { wIm [wCh 0x0A 31] [] with dig := { dout := [(31, { on := true, cmd := true })], fpMv := [(3, 24000)] } }), by decide +kernel⟩,
   ⟨31, (wSt wN), by decide +kernel⟩,
   ⟨(wSt wN), by decide +kernel⟩,
   ⟨31, false, 25000000, (wSt { wIm [wCh 0x0A 31 [(10, 2)]] [] with dig := { dout := [(31, { on := true })], fpMv := [(3, 24000)] } }), by decide +kernel⟩,
   ⟨31, (wSt { wIm [wCh 0x0A 31 [(10, 1)]] [] with dig := { dout := [(31, { on := true })], fpMv := [(3, 24000)] } }), by decide +kernel⟩,
   ⟨31, 0, (wSt { wIm [wCh 0x0A 31] [] with dig := { dout := [(31, { dark := true })], fpMv := [(3, 24000)] } }), by decide +kernel⟩,
   ⟨(wSt wN), by decide +kernel⟩,
   ⟨31, (wSt { wIm [wCh 0x0A 31] [] with dig := { dout := [(31, { on := true, cmd := true })], fpMv := [(3, 24000)] } }), by decide +kernel⟩,
   ⟨31, (wSt { wIm [wCh 0x0A 31] [] with dig := { dout := [(31, { cmd := true })], fpMv := [(3, 24000)] } }), by decide +kernel⟩,
   ⟨31, (wSt { wIm [wCh 0x0A 31] [] with dig := { dout := [(31, { overtemp := true })], fpMv := [(3, 24000)] } }), by decide +kernel⟩,
   ⟨31, false, 0, (wSt { wIm [wCh 0x0A 31] [] with dig := { dout := [(31, { on := true })], fpMv := [(3, 24000)] } }), by decide +kernel⟩,
   ⟨31, 0, (wSt { wIm [wCh 0x0A 31] [] with dig := { dout := [(31, { on := true })], fpMv := [(3, 24000)] } }), by decide +kernel, .inr (.inl (by decide +kernel))⟩,
   ⟨31, 0, (wSt { wIm [wCh 0x0A 31] [] with dig := { dout := [(31, { dark := true, darkEnd := 5 })], fpMv := [(3, 24000)] } }), by decide +kernel⟩⟩

theorem test_meets_PinsFollowTheirRule :
    (∃ (s : State), s.node.up = true) :=
  ⟨(wSt wN), by decide +kernel⟩

theorem test_meets_InterlockReset :
    (∃ (s : State), Takes s 0x4388) :=
  ⟨(wSt wN), by unfold Takes; decide +kernel⟩

theorem test_meets_Firings :
    (∃ (k : Fin 16) (v : Word) (s : State), Takes s (0x4804 + 0x40 * k.val) ∧ SvFree s k.val ∧ bitOf v 8 = true ∧ svRefuses s.node k.val = false ∧ (s.node.svC k.val).phase = 0 ∧ (s.node.svC k.val).queue = none ∧ (s.node.svC k.val).im < 50 ∧ svHasProf s.node (k.val / 2) (fld v 3 0) = true) ∧
    (∃ (k : Fin 16) (v : Word) (t : Nat) (s : State), Takes s (0x4804 + 0x40 * k.val) ∧ SvFree s k.val ∧ bitOf v 8 = true ∧ svRefuses s.node k.val = false ∧ ((s.node.svC k.val).phase = 1 ∨ (s.node.svC k.val).phase = 2) ∧ svOutranks (s.node.svC k.val) 3 (timeAfter s t) = false) ∧
    (∃ (k : Fin 16) (v : Word) (s : State), Takes s (0x4804 + 0x40 * k.val) ∧ SvFree s k.val ∧ bitOf v 8 = true ∧ svRefuses s.node k.val = false ∧ (s.node.svC k.val).phase = 3 ∧ ((s.node.svC k.val).queue = none ∨ (s.node.svC k.val).queueBy ≤ 3)) ∧
    (∃ (k : Fin 16) (v : Word) (s : State), Takes s (0x4804 + 0x40 * k.val) ∧ SvFree s k.val ∧ bitOf v 8 = true ∧ svRefuses s.node k.val = true) ∧
    (∃ (k : Fin 16) (prof : Nat) (dur : Nat) (s : State), SvFree s k.val ∧ (s.node.svC k.val).queue = some (prof, dur) ∧ (s.node.svC k.val).running = false ∧ (s.node.svC k.val).im < 50 ∧ svRefuses s.node k.val = false ∧ svHasProf s.node (k.val / 2) prof = true) ∧
    (∃ (k : Fin 16) (prof : Nat) (dur : Nat) (s : State), SvFree s k.val ∧ (((s.node.svC k.val).queue = none ∨ ((s.node.svC k.val).queue = some (prof, dur) ∧ ((s.node.svC k.val).running = true ∨ 50 ≤ (s.node.svC k.val).im ∨ svRefuses s.node k.val = true))))) ∧
    (∃ (k : Fin 16) (v : Word) (s : State), Takes s (0x4804 + 0x40 * k.val) ∧ SvFree s k.val ∧ bitOf v 8 = false) ∧
    (∃ (k : Fin 16) (v : Word) (s : State), Takes s (0x4804 + 0x40 * k.val) ∧ SvFree s k.val ∧ bitOf v 8 = true ∧ svRefuses s.node k.val = false ∧ (s.node.svC k.val).phase = 0 ∧ (s.node.svC k.val).queue = none ∧ (s.node.svC k.val).im < 50 ∧ svHasProf s.node (k.val / 2) (fld v 3 0) = false) ∧
    (∃ (k : Fin 16) (v : Word) (s : State), Takes s (0x4804 + 0x40 * k.val) ∧ bitOf v 8 = true ∧ s.node.carries = true ∧ svRefuses s.node k.val = true) :=
  ⟨⟨15, 0x100#32, (wSt (wSv 0 {})), by unfold Takes SvFree; decide +kernel⟩,
   ⟨15, 0x100#32, 0, (wSt (wSv 0 { phase := 1 })), by unfold Takes SvFree; decide +kernel⟩,
   ⟨15, 0x100#32, (wSt (wSv 0 { phase := 3 })), by unfold Takes SvFree; decide +kernel⟩,
   ⟨15, 0x100#32, (wSt wN), by unfold Takes SvFree; decide +kernel⟩,
   ⟨15, 0, 0, (wSt (wSv 0 { queue := some (0, 0) })), by unfold SvFree; decide +kernel⟩,
   ⟨15, 0, 7, (wSt (wSv 0 { queue := some (0, 7), im := 50 })), by unfold SvFree; decide +kernel⟩,
   ⟨15, 0#32, (wSt (wSv 0 {})), by unfold Takes SvFree; decide +kernel⟩,
   ⟨15, 0x101#32, (wSt (wSv 0 {})), by unfold Takes SvFree; decide +kernel⟩,
   ⟨15, 0x100#32, (wSt (wSv 0 { oc := true })), by unfold Takes; decide +kernel⟩⟩

theorem test_meets_ShaperTargets :
    (∃ (k : Fin 16) (s : State), SvRuns s k.val 1 ∧ (bitOf (svCur s.node k.val) 26 = false ∨ (s.node.svC k.val).wait = .freed ∨ svClash s.node k.val (fld (svCur s.node k.val) 9 0) = false)) ∧
    (∃ (k : Fin 16) (s : State), SvRuns s k.val 2 ∧ (bitOf (svCur s.node k.val) 26 = false ∨ (s.node.svC k.val).wait = .freed ∨ svClash s.node k.val (fld (svCur s.node k.val) 9 0) = false)) ∧
    (∃ (k : Fin 16) (s : State), SvRuns s k.val 1 ∧ bitOf (svCur s.node k.val) 26 = true ∧ (s.node.svC k.val).wait = .none ∧ svClash s.node k.val (fld (svCur s.node k.val) 9 0) = true ∧ 0 < hbStagMax (s.node.recOf 0x0C (k.val / 2))) ∧
    (∃ (k : Fin 16) (s : State), SvRuns s k.val 6 ∧ bitOf (svCur s.node k.val) 26 = false) ∧
    (∃ (k : Fin 16) (s : State), SvRuns s k.val 6 ∧ bitOf (svCur s.node k.val) 26 = true) ∧
    (∃ (k : Fin 16) (s : State), SvRuns s k.val 7) ∧
    (∃ (k : Fin 16) (s : State), SvRuns s k.val 8) ∧
    (∃ (k : Fin 16) (s : State), SvRuns s k.val 1 ∧ bitOf (svCur s.node k.val) 26 = true ∧ (s.node.svC k.val).wait = .none ∧ svClash s.node k.val (fld (svCur s.node k.val) 9 0) = true ∧ hbStagMax (s.node.recOf 0x0C (k.val / 2)) = 0) ∧
    (∃ (k : Fin 16) (s : State), SvRuns s k.val 2 ∧ bitOf (svCur s.node k.val) 26 = true ∧ (s.node.svC k.val).wait = .none ∧ svClash s.node k.val (fld (svCur s.node k.val) 9 0) = true ∧ 0 < hbStagMax (s.node.recOf 0x0C (k.val / 2))) ∧
    (∃ (k : Fin 16) (s : State), SvFree s k.val ∧ svReady s.node k.val = false) :=
  ⟨⟨15, (wSt (wSv (1 * 2 ^ 27 + 0) { running := true })), by unfold SvRuns SvFree; decide +kernel⟩,
   ⟨15, (wSt (wSv (2 * 2 ^ 27 + 0) { running := true })), by unfold SvRuns SvFree; decide +kernel⟩,
   ⟨15, (wSt { wSv (2 ^ 27 + 2 ^ 26 + 1023) { running := true } [(12, 1)] with shp := { sv := [(14, { phase := 1 }), (15, { running := true })] } }), by unfold SvRuns SvFree; decide +kernel⟩,
   ⟨15, (wSt (wSv (6 * 2 ^ 27 + 0) { running := true })), by unfold SvRuns SvFree; decide +kernel⟩,
   ⟨15, (wSt (wSv (6 * 2 ^ 27 + 2 ^ 26) { running := true })), by unfold SvRuns SvFree; decide +kernel⟩,
   ⟨15, (wSt (wSv (7 * 2 ^ 27 + 0) { running := true })), by unfold SvRuns SvFree; decide +kernel⟩,
   ⟨15, (wSt (wSv (8 * 2 ^ 27 + 0) { running := true })), by unfold SvRuns SvFree; decide +kernel⟩,
   ⟨15, (wSt { wSv (2 ^ 27 + 2 ^ 26 + 1023) { running := true } [(12, 0)] with shp := { sv := [(14, { phase := 1 }), (15, { running := true })] } }), by unfold SvRuns SvFree; decide +kernel⟩,
   ⟨15, (wSt { wSv (2 ^ 28 + 2 ^ 26 + 1023) { running := true } [(12, 1)] with shp := { sv := [(14, { phase := 1 }), (15, { running := true })] } }), by unfold SvRuns SvFree; decide +kernel⟩,
   ⟨15, (wSt (wSv (1 * 2 ^ 27 + 0) { running := true, wait := .till 9 })), by unfold SvFree; decide +kernel⟩⟩

theorem test_meets_ShaperWaits :
    (∃ (k : Fin 16) (s : State), SvRuns s k.val 3) ∧
    (∃ (k : Fin 16) (s : State), SvRuns s k.val 4) ∧
    (∃ (k : Fin 16) (s : State), SvRuns s k.val 5) ∧
    (∃ (k : Fin 16) (t : Nat) (s : State) (e : Nat), SvFree s k.val ∧ (s.node.svC k.val).wait = .till e ∧ e ≤ t) ∧
    (∃ (k : Fin 16) (s : State) (d : Bool) (i : Nat) (e : Nat) (g : Nat), SvFree s k.val ∧ (s.node.svC k.val).wait = .current d i e g ∧ (if d then (s.node.svC k.val).im ≤ i else i ≤ (s.node.svC k.val).im)) ∧
    (∃ (k : Fin 16) (t : Nat) (s : State) (d : Bool) (i : Nat) (e : Nat) (g : Nat), SvFree s k.val ∧ (s.node.svC k.val).wait = .current d i e g ∧ e ≤ t) ∧
    (∃ (k : Fin 16) (s : State) (f : Nat) (c : Nat) (b : Word), SvFree s k.val ∧ (s.node.svC k.val).wait = .position f c b ∧ c ≤ (((s.node.pfC f).c - b).toInt).natAbs) ∧
    (∃ (k : Fin 16) (s : State) (f : Nat) (c : Nat) (b : Word), SvFree s k.val ∧ (s.node.svC k.val).wait = .position f c b ∧ (pfValid s.node f = false ∨ (s.node.pfC f).still = true ∨ (s.node.pfC f).reversal = true)) ∧
    (∃ (k : Fin 16) (t : Nat) (s : State) (o : Option Nat), SvFree s k.val ∧ (s.node.svC k.val).wait = .hold o ∧ (match o with | some e => e | none => (s.node.svC k.val).endAt) ≤ t) ∧
    (∃ (k : Fin 16) (s : State), SvFree s k.val ∧ (s.node.svC k.val).wait = .ramp ∧ (s.node.svC k.val).tgt20 = (s.node.svC k.val).goal20) ∧
    (∃ (k : Fin 16) (s : State), SvFree s k.val ∧ svReady s.node k.val = false) ∧
    (∃ (k : Fin 16) (s : State), SvFree s k.val ∧ ((s.node.svC k.val).wait = .none ∨ (s.node.svC k.val).wait = .freed)) ∧
    (∃ (k : Fin 16) (t : Nat) (s : State) (e : Nat), SvFree s k.val ∧ t < e ∧ ((s.node.svC k.val).wait = .till e ∨ (s.node.svC k.val).wait = .hold (some e) ∨ (s.node.svC k.val).wait = .stall e ∨ ((s.node.svC k.val).wait = .hold none ∧ (s.node.svC k.val).endAt = e))) :=
  ⟨⟨15, (wSt (wSv (3 * 2 ^ 27 + 0) { running := true })), by unfold SvRuns SvFree; decide +kernel⟩,
   ⟨15, (wSt (wSv (4 * 2 ^ 27 + 0) { running := true })), by unfold SvRuns SvFree; decide +kernel⟩,
   ⟨15, (wSt (wSv (5 * 2 ^ 27 + 0) { running := true })), by unfold SvRuns SvFree; decide +kernel⟩,
   ⟨15, 0, (wSt (wSv (3 * 2 ^ 27 + 0) { running := true, wait := .till 0 })), 0, by unfold SvFree; decide +kernel⟩,
   ⟨15, (wSt (wSv (4 * 2 ^ 27 + 0) { running := true, wait := .current false 0 0 0 })), false, 0, 0, 0, by unfold SvFree; decide +kernel⟩,
   ⟨15, 0, (wSt (wSv (4 * 2 ^ 27 + 0) { running := true, wait := .current true 0 0 0 })), true, 0, 0, 0, by unfold SvFree; decide +kernel⟩,
   ⟨15, (wSt { wSv 0 {} with shp := { sv := [(15, { running := true, wait := .position 7 0 0#32 })] } }), 7, 0, 0#32, by unfold SvFree; decide +kernel⟩,
   ⟨15, (wSt { wSv 0 {} with shp := { sv := [(15, { running := true, wait := .position 7 1 0#32 })] }, pf := [(7, { still := true })] }), 7, 1, 0#32, by unfold SvFree; decide +kernel⟩,
   ⟨15, 0, (wSt (wSv (6 * 2 ^ 27 + 0) { running := true, wait := .hold (some 0) })), (some 0), by unfold SvFree; decide +kernel⟩,
   ⟨15, (wSt (wSv (2 * 2 ^ 27 + 0) { running := true, wait := .ramp })), by unfold SvFree; decide +kernel⟩,
   ⟨15, (wSt (wSv (3 * 2 ^ 27 + 0) { running := true, wait := .till 9 })), by unfold SvFree; decide +kernel⟩,
   ⟨15, (wSt (wSv (3 * 2 ^ 27 + 0) { running := true })), by unfold SvFree; decide +kernel⟩,
   ⟨15, 0, (wSt (wSv (3 * 2 ^ 27 + 0) { running := true, wait := .till 9 })), 9, by unfold SvFree; decide +kernel⟩⟩

theorem test_meets_ShaperControl :
    (∃ (k : Fin 16) (s : State), SvRuns s k.val 9) ∧
    (∃ (k : Fin 16) (s : State), SvRuns s k.val 10) ∧
    (∃ (k : Fin 16) (s : State), SvRuns s k.val 11 ∧ (s.node.svC k.val).loopAt = none ∧ 1 < fld (svCur s.node k.val) 17 8) ∧
    (∃ (k : Fin 16) (s : State), SvRuns s k.val 11 ∧ (((s.node.svC k.val).loopAt = none ∧ fld (svCur s.node k.val) 17 8 = 1) ∨ ((s.node.svC k.val).loopAt = some (s.node.svC k.val).pc ∧ (s.node.svC k.val).loopN = 0))) ∧
    (∃ (k : Fin 16) (s : State), SvRuns s k.val 11 ∧ (s.node.svC k.val).loopAt = some (s.node.svC k.val).pc ∧ 0 < (s.node.svC k.val).loopN) ∧
    (∃ (k : Fin 16) (s : State), SvRuns s k.val 12) ∧
    (∃ (k : Fin 16) (s : State), SvRuns s k.val 0) ∧
    (∃ (k : Fin 16) (s : State), SvFree s k.val ∧ svReady s.node k.val = true ∧ 13 ≤ opOf (svCur s.node k.val)) ∧
    (∃ (k : Fin 16) (s : State) (a : Nat), SvRuns s k.val 11 ∧ (s.node.svC k.val).loopAt = some a ∧ a ≠ (s.node.svC k.val).pc) ∧
    (∃ (k : Fin 16) (s : State), SvFree s k.val ∧ svReady s.node k.val = false) :=
  ⟨⟨15, (wSt (wSv (9 * 2 ^ 27 + 0) { running := true })), by unfold SvRuns SvFree; decide +kernel⟩,
   ⟨15, (wSt (wSv (10 * 2 ^ 27 + 0) { running := true })), by unfold SvRuns SvFree; decide +kernel⟩,
   ⟨15, (wSt (wSv (11 * 2 ^ 27 + 512) { running := true })), by unfold SvRuns SvFree; decide +kernel⟩,
   ⟨15, (wSt (wSv (11 * 2 ^ 27 + 256) { running := true })), by unfold SvRuns SvFree; decide +kernel⟩,
   ⟨15, (wSt (wSv (11 * 2 ^ 27 + 512) { running := true, loopAt := some 0, loopN := 1 })), by unfold SvRuns SvFree; decide +kernel⟩,
   ⟨15, (wSt (wSv (12 * 2 ^ 27 + 0) { running := true })), by unfold SvRuns SvFree; decide +kernel⟩,
   ⟨15, (wSt (wSv (0 * 2 ^ 27 + 0) { running := true })), by unfold SvRuns SvFree; decide +kernel⟩,
   ⟨15, (wSt (wSv (31 * 2 ^ 27 + 0) { running := true })), by unfold SvFree; decide +kernel⟩,
   ⟨15, (wSt (wSv (11 * 2 ^ 27 + 512) { running := true, loopAt := some 5 })), 5, by unfold SvRuns SvFree; decide +kernel⟩,
   ⟨15, (wSt (wSv (11 * 2 ^ 27 + 0) { running := true, wait := .till 9 })), by unfold SvFree; decide +kernel⟩⟩

theorem test_meets_ShaperProtection :
    (∃ (k : Fin 16) (e : Nat) (t : Nat) (s : State), SvFree s k.val ∧ (s.node.svC k.val).wait = .stall e ∧ e ≤ t ∧ opOf (svCur s.node k.val) = 1) ∧
    (∃ (s : State), s.node.up = true ∧ s.node.isRun 5 = true) ∧
    (∃ (s : State), s.node.up = true ∧ s.node.isRun 5 = true) ∧
    (∃ (k : Fin 16) (s : State), SvFree s k.val ∧ (s.node.svC k.val).running = true ∧ (s.node.svC k.val).wait ≠ .ramp ∧ (s.node.svC k.val).src1 = false) ∧
    (∃ (k : Fin 16) (e : Nat) (t : Nat) (s : State), SvFree s k.val ∧ (s.node.svC k.val).wait = .stall e ∧ e ≤ t ∧ opOf (svCur s.node k.val) = 2) ∧
    (∃ (k : Fin 16) (s : State), SvFree s k.val ∧ (s.node.svC k.val).running = true ∧ (s.node.svC k.val).wait = .ramp ∧ (s.node.svC k.val).src1 = false) ∧
    (∃ (k : Fin 16) (t : Nat) (s : State), SvFree s k.val ∧ (s.node.svC k.val).running = true ∧ (s.node.svC k.val).wait ≠ .ramp ∧ (s.node.svC k.val).src1 = false ∧ (s.node.svC k.val).lim = none ∧ ((s.node.svC k.val).phase = 1 ∨ (s.node.svC k.val).phase = 2) ∧ (s.node.svC k.val).swAt + 250 ≤ t) ∧
    (∃ (k : Fin 16) (s : State), SvFree s k.val ∧ (s.node.svC k.val).running = true ∧ (s.node.svC k.val).src1 = true) ∧
    (∃ (s : State), s.node.up = true ∧ s.node.isRun 5 = false) ∧
    (∃ (s : State), s.node.up = true ∧ s.node.isRun 5 = false) :=
  ⟨⟨15, 0, 0, (wSt (wSv (1 * 2 ^ 27 + 0) { running := true, wait := .stall 0 })), by unfold SvFree; decide +kernel⟩,
   ⟨(wSt wN), by decide +kernel⟩,
   ⟨(wSt wN), by decide +kernel⟩,
   ⟨15, (wSt (wSv (6 * 2 ^ 27 + 0) { running := true })), by unfold SvFree; decide +kernel⟩,
   ⟨15, 0, 0, (wSt (wSv (2 * 2 ^ 27 + 0) { running := true, wait := .stall 0 })), by unfold SvFree; decide +kernel⟩,
   ⟨15, (wSt (wSv (2 * 2 ^ 27 + 0) { running := true, wait := .ramp, tgt20 := 4, goal20 := 9, rate := 3 })), by unfold SvFree; decide +kernel⟩,
   ⟨15, 250, (wSt (wSv (1 * 2 ^ 27 + 0) { running := true, phase := 1, tgt20 := 4000 })), by unfold SvFree; decide +kernel⟩,
   ⟨15, (wSt (wSv (1 * 2 ^ 27 + 0) { running := true, src1 := true, htgt := 9 })), by unfold SvFree; decide +kernel⟩,
   ⟨(wSt { wN with isl := { wN.isl with states := wN.isl.states.set 5 .fault } }), by decide +kernel⟩,
   ⟨(wSt { wN with isl := { wN.isl with states := wN.isl.states.set 5 .fault } }), by decide +kernel⟩⟩

theorem test_meets_PositionSteps :
    (∃ (f : Fin 8) (a : Bool) (b : Bool) (z : Bool) (t : Nat) (s : State), s.node.up = true ∧ s.node.pfOn f.val = true ∧ pfType (s.node.recOf 0x0D f.val) = 1 ∧ pfAccepts (s.node.recOf 0x0D f.val) (s.node.pfC f.val) a b z t = true ∧ (quadStep (s.node.pfC f.val) a b = 1 ∨ quadStep (s.node.pfC f.val) a b = -1)) ∧
    (∃ (f : Fin 8) (a : Bool) (b : Bool) (z : Bool) (sec : Nat) (o : Nat) (d : Int) (t : Nat) (s : State), s.node.up = true ∧ s.node.pfOn f.val = true ∧ pfType (s.node.recOf 0x0D f.val) = 2 ∧ pfAccepts (s.node.recOf 0x0D f.val) (s.node.pfC f.val) a b z t = true ∧ hallSector a b z = some sec ∧ (s.node.pfC f.val).sector = some o ∧ hallStep o sec = some d) ∧
    (∃ (f : Fin 8) (sn : Int) (cs : Int) (q : Nat) (z : Bool) (t : Nat) (s : State), s.node.up = true ∧ s.node.pfOn f.val = true ∧ pfType (s.node.recOf 0x0D f.val) = 3 ∧ pfAmplOk (s.node.recOf 0x0D f.val) (pfSq sn cs) = true ∧ pfAccepts (s.node.recOf 0x0D f.val) (s.node.pfC f.val) (s.node.pfC f.val).a (s.node.pfC f.val).b z t = true ∧ (s.node.pfC f.val).phase = some q ∧ (symMod ((pfPhase sn cs : Int) - q) 1024).natAbs ≤ 256) ∧
    (∃ (f : Fin 8) (sn : Int) (cs : Int) (z : Bool) (t : Nat) (s : State), s.node.up = true ∧ s.node.pfOn f.val = true ∧ pfType (s.node.recOf 0x0D f.val) = 3 ∧ pfAmplOk (s.node.recOf 0x0D f.val) (pfSq sn cs) = true ∧ pfAccepts (s.node.recOf 0x0D f.val) (s.node.pfC f.val) (s.node.pfC f.val).a (s.node.pfC f.val).b z t = true ∧ (s.node.pfC f.val).phase = none) ∧
    (∃ (f : Fin 8) (a : Bool) (b : Bool) (z : Bool) (sec : Nat) (t : Nat) (s : State), s.node.up = true ∧ pfType (s.node.recOf 0x0D f.val) = 2 ∧ pfAccepts (s.node.recOf 0x0D f.val) (s.node.pfC f.val) a b z t = true ∧ hallSector a b z = some sec ∧ (s.node.pfC f.val).sector = none) ∧
    (∃ (f : Fin 8) (a : Bool) (b : Bool) (z : Bool) (t : Nat) (s : State), s.node.up = true ∧ pfAccepts (s.node.recOf 0x0D f.val) (s.node.pfC f.val) a b z t = false) ∧
    (∃ (f : Fin 8) (a : Bool) (b : Bool) (z : Bool) (t : Nat) (s : State), s.node.up = true ∧ ((s.node.pfOn f.val = false ∨ 3 ≤ pfType (s.node.recOf 0x0D f.val))) ∧ pfAccepts (s.node.recOf 0x0D f.val) (s.node.pfC f.val) a b z t = true) ∧
    (∃ (f : Fin 8) (sn : Int) (cs : Int) (s : State), s.node.up = true ∧ ((s.node.pfOn f.val = false ∨ pfType (s.node.recOf 0x0D f.val) ≠ 3 ∨ pfAmplOk (s.node.recOf 0x0D f.val) (pfSq sn cs) = false))) :=
  ⟨⟨7, true, false, false, 10, (wSt (wPf 1)), by decide +kernel, by decide +kernel, by decide +kernel, by decide +kernel, .inl (by decide +kernel)⟩,
   ⟨7, true, true, false, 1, 0, 1, 10, (wSt (wPf 2 { sector := some 0 })), by decide +kernel⟩,
   ⟨7, 1000, 0, 0, false, 10, (wSt (wPf 3 { phase := some 0 })), by decide +kernel⟩,
   ⟨7, 1000, 0, false, 10, (wSt (wPf 3)), by decide +kernel⟩,
   ⟨7, true, false, false, 0, 10, (wSt (wPf 2)), by decide +kernel⟩,
   ⟨7, true, false, false, 0, (wSt (wPf 1)), by decide +kernel⟩,
   ⟨7, true, false, false, 10, (wSt (wPf 4)), by decide +kernel⟩,
   ⟨7, 1, 2, (wSt (wPf 3)), by decide +kernel⟩⟩

theorem test_meets_SsiFrames :
    (∃ (f : Fin 8) (x : SsiFrame) (e : Nat) (t : Nat) (s : State) (b : Nat), s.node.up = true ∧ s.node.pfRuns f.val = true ∧ pfType (s.node.recOf 0x0D f.val) = 4 ∧ ssiEnd s.node f.val t = some e ∧ s.node.miswired (112 + f.val) = false ∧ ssiBits (s.node.recOf 0x0D f.val) x = some b ∧ (s.node.pfC f.val).ssi = none) ∧
    (∃ (f : Fin 8) (x : SsiFrame) (e : Nat) (t : Nat) (s : State) (b : Nat) (o : Nat), s.node.up = true ∧ s.node.pfRuns f.val = true ∧ pfType (s.node.recOf 0x0D f.val) = 4 ∧ ssiEnd s.node f.val t = some e ∧ s.node.miswired (112 + f.val) = false ∧ ssiBits (s.node.recOf 0x0D f.val) x = some b ∧ (s.node.pfC f.val).ssi = some o) ∧
    (∃ (f : Fin 8) (x : SsiFrame) (e : Nat) (t : Nat) (s : State), s.node.up = true ∧ s.node.pfRuns f.val = true ∧ pfType (s.node.recOf 0x0D f.val) = 4 ∧ ssiEnd s.node f.val t = some e ∧ s.node.miswired (112 + f.val) = false ∧ ssiBits (s.node.recOf 0x0D f.val) x = none) ∧
    (∃ (f : Fin 8) (e : Nat) (t : Nat) (s : State), s.node.up = true ∧ s.node.pfRuns f.val = true ∧ pfType (s.node.recOf 0x0D f.val) = 4 ∧ ssiEnd s.node f.val t = some e ∧ s.node.miswired (112 + f.val) = true) ∧
    (∃ (f : Fin 8) (t : Nat) (s : State), s.node.up = true ∧ s.node.pfRuns f.val = true ∧ pfType (s.node.recOf 0x0D f.val) = 4 ∧ ssiEnd s.node f.val t = none) :=
  ⟨⟨7, ⟨true, 0, false, true⟩, 125, 125, (wSt (wPf 4 { ssiAt := some 0 })), 0, by decide +kernel⟩,
   ⟨7, ⟨true, 0, false, true⟩, 625, 700, (wSt (wPf 4 { ssi := some 5, ssiAt := some 0 } [(10, 4)])), 0, 5, by decide +kernel⟩,
   ⟨7, ⟨true, 0, false, false⟩, 125, 125, (wSt (wPf 4 { ssiAt := some 0 })), by decide +kernel⟩,
   ⟨7, 125, 125, (wSt { wPf 4 { ssiAt := some 0 } with mw := { act := 1#128 <<< 119 } }), by decide +kernel⟩,
   ⟨7, 124, (wSt (wPf 4 { ssiAt := some 0 })), by decide +kernel⟩⟩

theorem test_meets_PositionErrors :
    (∃ (f : Fin 8) (a : Bool) (b : Bool) (z : Bool) (t : Nat) (s : State), s.node.up = true ∧ s.node.pfOn f.val = true ∧ pfType (s.node.recOf 0x0D f.val) = 1 ∧ pfAccepts (s.node.recOf 0x0D f.val) (s.node.pfC f.val) a b z t = true ∧ quadStep (s.node.pfC f.val) a b = 2) ∧
    (∃ (f : Fin 8) (a : Bool) (b : Bool) (z : Bool) (t : Nat) (s : State), s.node.up = true ∧ s.node.pfOn f.val = true ∧ pfType (s.node.recOf 0x0D f.val) = 2 ∧ pfAccepts (s.node.recOf 0x0D f.val) (s.node.pfC f.val) a b z t = true ∧ hallSector a b z = none) ∧
    (∃ (f : Fin 8) (a : Bool) (b : Bool) (z : Bool) (t : Nat) (s : State) (w : Nat) (o : Nat), s.node.up = true ∧ s.node.pfOn f.val = true ∧ pfType (s.node.recOf 0x0D f.val) = 2 ∧ pfAccepts (s.node.recOf 0x0D f.val) (s.node.pfC f.val) a b z t = true ∧ hallSector a b z = some w ∧ (s.node.pfC f.val).sector = some o ∧ hallStep o w = none) ∧
    (∃ (f : Fin 8) (sn : Int) (cs : Int) (s : State), s.node.up = true ∧ s.node.pfOn f.val = true ∧ pfType (s.node.recOf 0x0D f.val) = 3 ∧ pfAmplOk (s.node.recOf 0x0D f.val) (pfSq sn cs) = false) ∧
    (∃ (f : Fin 8) (sn : Int) (cs : Int) (s : State), s.node.up = true ∧ s.node.pfOn f.val = true ∧ pfType (s.node.recOf 0x0D f.val) = 3 ∧ pfAmplOk (s.node.recOf 0x0D f.val) (pfSq sn cs) = true) ∧
    (∃ (f : Fin 8) (v : Word) (s : State), Takes s (0x5014 + 0x100 * f.val) ∧ bitOf v 0 = true ∧ (pfType (s.node.recOf 0x0D f.val) = 1 ∨ pfType (s.node.recOf 0x0D f.val) = 3) ∧ pfIdx (s.node.recOf 0x0D f.val) = false ∧ s.node.miswired (112 + f.val) = false) ∧
    (∃ (f : Fin 8) (v : Word) (s : State), Takes s (0x5014 + 0x100 * f.val) ∧ bitOf v 0 = true ∧ (pfType (s.node.recOf 0x0D f.val) = 1 ∨ pfType (s.node.recOf 0x0D f.val) = 3) ∧ pfIdx (s.node.recOf 0x0D f.val) = true) ∧
    (∃ (f : Fin 8) (t : Nat) (s : State), s.node.up = true ∧ s.node.pfRuns f.val = true ∧ (s.node.pfC f.val).still = false ∧ (s.node.pfC f.val).edgeAt + pfStillT (s.node.recOf 0x0D f.val) * 250000 ≤ t) ∧
    (∃ (f : Fin 8) (sn : Int) (cs : Int) (z : Bool) (q : Nat) (t : Nat) (s : State), s.node.up = true ∧ s.node.pfOn f.val = true ∧ pfType (s.node.recOf 0x0D f.val) = 3 ∧ pfAmplOk (s.node.recOf 0x0D f.val) (pfSq sn cs) = true ∧ pfAccepts (s.node.recOf 0x0D f.val) (s.node.pfC f.val) (s.node.pfC f.val).a (s.node.pfC f.val).b z t = true ∧ (s.node.pfC f.val).phase = some q ∧ 256 < (symMod ((pfPhase sn cs : Int) - q) 1024).natAbs) ∧
    (∃ (f : Fin 8) (a : Bool) (b : Bool) (z : Bool) (t : Nat) (s : State), s.node.up = true ∧ ((s.node.pfOn f.val = false ∨ pfAccepts (s.node.recOf 0x0D f.val) (s.node.pfC f.val) a b z t = false))) ∧
    (∃ (f : Fin 8) (a : Bool) (b : Bool) (s : State), s.node.up = true ∧ (pfType (s.node.recOf 0x0D f.val) ≠ 1 ∨ quadStep (s.node.pfC f.val) a b ≠ 2)) ∧
    (∃ (f : Fin 8) (a : Bool) (b : Bool) (z : Bool) (w : Nat) (o : Nat) (s : State), s.node.up = true ∧ (pfType (s.node.recOf 0x0D f.val) ≠ 2 ∨ (hallSector a b z = some w ∧ ((s.node.pfC f.val).sector = none ∨ ((s.node.pfC f.val).sector = some o ∧ (hallStep o w).isSome = true))))) ∧
    (∃ (f : Fin 8) (s : State), s.node.up = true ∧ ((s.node.pfOn f.val = false ∨ pfType (s.node.recOf 0x0D f.val) ≠ 3))) ∧
    (∃ (f : Fin 8) (t : Nat) (s : State), s.node.up = true ∧ ((s.node.pfRuns f.val = false ∨ (s.node.pfC f.val).still = true ∨ t < (s.node.pfC f.val).edgeAt + pfStillT (s.node.recOf 0x0D f.val) * 250000))) ∧
    (∃ (f : Fin 8) (v : Word) (s : State), Takes s (0x5014 + 0x100 * f.val) ∧ ((bitOf v 0 = false ∨ pfType (s.node.recOf 0x0D f.val) = 2 ∨ pfType (s.node.recOf 0x0D f.val) = 4 ∨ s.node.miswired (112 + f.val) = true))) :=
  ⟨⟨7, true, true, false, 10, (wSt (wPf 1)), by decide +kernel⟩,
   ⟨7, true, true, true, 10, (wSt (wPf 2)), by decide +kernel⟩,
   ⟨7, false, true, true, 10, (wSt (wPf 2 { sector := some 0 })), 3, 0, by decide +kernel⟩,
   ⟨7, 1, 2, (wSt (wPf 3)), by decide +kernel⟩,
   ⟨7, 1000, 0, (wSt (wPf 3)), by decide +kernel⟩,
   ⟨7, 1#32, (wSt (wPf 1)), by unfold Takes; decide +kernel⟩,
   ⟨7, 1#32, (wSt (wPf 3 {} [(9, 2)])), by unfold Takes; decide +kernel⟩,
   ⟨7, (10 ^ 9), (wSt (wPf 1)), by decide +kernel⟩,
   ⟨7, 0, -1000, false, 0, 10, (wSt (wPf 3 { phase := some 0 })), by decide +kernel⟩,
   ⟨7, true, true, false, 0, (wSt (wPf 1)), by decide +kernel⟩,
   ⟨7, true, false, (wSt (wPf 1)), by decide +kernel⟩,
   ⟨7, false, false, false, 0, 0, (wSt (wPf 1)), by decide +kernel⟩,
   ⟨7, (wSt (wPf 1)), by decide +kernel⟩,
   ⟨7, 0, (wSt (wPf 1 { still := true })), by decide +kernel⟩,
   ⟨7, 1#32, (wSt (wPf 2)), by unfold Takes; decide +kernel⟩⟩

theorem test_meets_CompareTable :
    (∃ (f : Fin 8) (a : Bool) (b : Bool) (z : Bool) (r : Bytes) (t : Nat) (s : State), s.node.up = true ∧ s.node.pfOn f.val = true ∧ pfType (s.node.recOf 0x0D f.val) = 1 ∧ pfAccepts (s.node.recOf 0x0D f.val) (s.node.pfC f.val) a b z t = true ∧ quadStep (s.node.pfC f.val) a b = (if pfInv (s.node.recOf 0x0D f.val) then -1 else 1) ∧ s.node.recs 0x09 1 = [r] ∧ cmpPf r = f.val ∧ cmpRel r = false ∧ cmpEn s.node r = true ∧ (s.node.cmpE (u16 r 0)).armed = true ∧ recBit r 2 5 = true ∧ cmpPos s.node r = (s.node.pfC f.val).c + 1#32 ∧ 0 < u8 r 9 ∧ cmpAct r = 8) ∧
    (∃ (v : Word) (r : Bytes) (s : State), Takes s 0x5814 ∧ cmpRec s.node = some r ∧ (cmpRel r = false ∨ v.toNat < pfCpr (s.node.recOf 0x0D (cmpPf r)))) ∧
    (∃ (v : Word) (r : Bytes) (s : State), Takes s 0x5814 ∧ cmpRec s.node = some r ∧ cmpRel r = true ∧ pfCpr (s.node.recOf 0x0D (cmpPf r)) ≤ v.toNat) ∧
    (∃ (r : Bytes) (s : State), Takes s 0x5818 ∧ cmpRec s.node = some r) ∧
    (∃ (f : Fin 8) (s : State), Serves s (0x501C + 0x100 * f.val)) ∧
    (∃ (f : Fin 8) (k : Fin 4) (s : State), Serves s (0x5060 + 0x100 * f.val + 0x10 * k.val)) ∧
    (∃ (s : State), cmpRec s.node = none ∧ Takes s 0x5814) ∧
    (∃ (s : State), cmpRec s.node = none ∧ Takes s 0x5818) :=
  ⟨⟨7, true, false, false, (wB 16 [(0, 0xFF), (1, 3), (2, 47), (3, 8), (4, 1), (9, 1)]), 10, (wSt { wIm [wCh 0x0D 7 [(8, 1), (12, 4)]] [wLeg 9 [⟨1, 16, [wB 16 [(0, 0xFF), (1, 3), (2, 47), (3, 8), (4, 1), (9, 1)]], true⟩]] with cmp := { idx := 1023, ents := [(1023, { armed := true })] } }), by decide +kernel⟩,
   ⟨0#32, (wB 16 [(0, 0xFF), (1, 3), (2, 15), (3, 8), (4, 1), (9, 1)]), (wSt { wIm [wCh 0x0D 7 [(8, 1), (12, 4)]] [wLeg 9 [⟨1, 16, [wB 16 [(0, 0xFF), (1, 3), (2, 15), (3, 8), (4, 1), (9, 1)]], true⟩]] with cmp := { idx := 1023 } }), by unfold Takes; decide +kernel⟩,
   ⟨4#32, (wB 16 [(0, 0xFF), (1, 3), (2, 31), (3, 8), (4, 1), (9, 1)]), (wSt { wIm [wCh 0x0D 7 [(8, 1), (12, 4)]] [wLeg 9 [⟨1, 16, [wB 16 [(0, 0xFF), (1, 3), (2, 31), (3, 8), (4, 1), (9, 1)]], true⟩]] with cmp := { idx := 1023 } }), by unfold Takes; decide +kernel⟩,
   ⟨(wB 16 [(0, 0xFF), (1, 3), (2, 15), (3, 8), (4, 1), (9, 1)]), (wSt { wIm [wCh 0x0D 7 [(8, 1), (12, 4)]] [wLeg 9 [⟨1, 16, [wB 16 [(0, 0xFF), (1, 3), (2, 15), (3, 8), (4, 1), (9, 1)]], true⟩]] with cmp := { idx := 1023 } }), by unfold Takes; decide +kernel⟩,
   ⟨7, (wSt wN), by unfold Serves; decide +kernel⟩,
   ⟨7, 3, (wSt wN), by unfold Serves; decide +kernel⟩,
   ⟨(wSt wN), by unfold Takes; decide +kernel⟩,
   ⟨(wSt wN), by unfold Takes; decide +kernel⟩⟩

theorem test_meets_LaneEvaluation :
    (∃ (k : Fin 32) (t : Nat) (s : State), s.node.up = true ∧ s.node.lnRuns k.val = true ∧ t % 2500 = 0 ∧ t / 2500 % max 1 (lnPer (s.node.lnRec k.val)) = lnPhase (s.node.lnRec k.val) ∧ (s.node.lnC k.val).tick ≠ some (t / 2500) ∧ lnTesting s.node k.val = false ∧ (s.node.lnC k.val).reqNew = false ∧ ((s.node.lnC k.val).act = 2 ∨ ((s.node.lnC k.val).act = 3 ∧ ((s.node.lnOuter k.val).all (fun o => ((lnView (s.node.lnC o) (t / 2500)).act == 0 && (lnView (s.node.lnC o) (t / 2500)).started) || !s.node.roleOn 3 (o / 8))) = false)) ∧ qHas (resQ (s.node.res (lnPvAddr (s.node.lnRec k.val)))) qVALID = true ∧ (if lnKind (s.node.lnRec k.val) = 5 then some (lnView (s.node.lnC (lnTgt (s.node.lnRec k.val))) (t / 2500)) else none).all (fun w => w.act == 3) = true) ∧
    (∃ (k : Fin 32) (t : Nat) (s : State), s.node.up = true ∧ s.node.lnRuns k.val = true ∧ t % 2500 = 0 ∧ t / 2500 % max 1 (lnPer (s.node.lnRec k.val)) = lnPhase (s.node.lnRec k.val) ∧ (s.node.lnC k.val).tick ≠ some (t / 2500) ∧ lnTesting s.node k.val = false ∧ (s.node.lnC k.val).reqNew = false ∧ ((s.node.lnC k.val).act = 2 ∨ ((s.node.lnC k.val).act = 3 ∧ ((s.node.lnOuter k.val).all (fun o => ((lnView (s.node.lnC o) (t / 2500)).act == 0 && (lnView (s.node.lnC o) (t / 2500)).started) || !s.node.roleOn 3 (o / 8))) = false)) ∧ qHas (resQ (s.node.res (lnPvAddr (s.node.lnRec k.val)))) qVALID = false ∧ (if lnKind (s.node.lnRec k.val) = 5 then some (lnView (s.node.lnC (lnTgt (s.node.lnRec k.val))) (t / 2500)) else none).all (fun w => w.act == 3) = true) ∧
    (∃ (k : Fin 32) (t : Nat) (s : State), s.node.up = true ∧ s.node.lnRuns k.val = true ∧ t % 2500 = 0 ∧ t / 2500 % max 1 (lnPer (s.node.lnRec k.val)) = lnPhase (s.node.lnRec k.val) ∧ (s.node.lnC k.val).tick ≠ some (t / 2500) ∧ lnTesting s.node k.val = false ∧ (s.node.lnC k.val).reqNew = false ∧ (s.node.lnC k.val).act = 1 ∧ (if lnKind (s.node.lnRec k.val) = 5 then some (lnView (s.node.lnC (lnTgt (s.node.lnRec k.val))) (t / 2500)) else none).all (fun w => w.act == 3) = true) ∧
    (∃ (k : Fin 32) (t : Nat) (s : State), s.node.up = true ∧ s.node.lnRuns k.val = true ∧ t % 2500 = 0 ∧ t / 2500 % max 1 (lnPer (s.node.lnRec k.val)) = lnPhase (s.node.lnRec k.val) ∧ (s.node.lnC k.val).tick ≠ some (t / 2500) ∧ lnTesting s.node k.val = false ∧ (s.node.lnC k.val).reqNew = false ∧ (s.node.lnC k.val).act = 0) ∧
    (∃ (k : Fin 32) (t : Nat) (s : State), s.node.up = true ∧ s.node.lnRuns k.val = true ∧ t % 2500 = 0 ∧ t / 2500 % max 1 (lnPer (s.node.lnRec k.val)) = lnPhase (s.node.lnRec k.val) ∧ (s.node.lnC k.val).tick ≠ some (t / 2500) ∧ lnTesting s.node k.val = false ∧ (s.node.lnC k.val).reqNew = false ∧ (s.node.lnC k.val).act = 4 ∧ (if lnKind (s.node.lnRec k.val) = 5 then some (lnView (s.node.lnC (lnTgt (s.node.lnRec k.val))) (t / 2500)) else none).all (fun w => w.act == 3) = true) ∧
    (∃ (k : Fin 32) (t : Nat) (s : State) (w : LnView), s.node.up = true ∧ s.node.lnRuns k.val = true ∧ t % 2500 = 0 ∧ t / 2500 % max 1 (lnPer (s.node.lnRec k.val)) = lnPhase (s.node.lnRec k.val) ∧ (s.node.lnC k.val).tick ≠ some (t / 2500) ∧ lnTesting s.node k.val = false ∧ (s.node.lnC k.val).reqNew = false ∧ ((s.node.lnC k.val).act = 1 ∨ (s.node.lnC k.val).act = 2 ∨ ((s.node.lnC k.val).act = 3 ∧ ((s.node.lnOuter k.val).all (fun o => ((lnView (s.node.lnC o) (t / 2500)).act == 0 && (lnView (s.node.lnC o) (t / 2500)).started) || !s.node.roleOn 3 (o / 8))) = false) ∨ (s.node.lnC k.val).act = 4) ∧ (if lnKind (s.node.lnRec k.val) = 5 then some (lnView (s.node.lnC (lnTgt (s.node.lnRec k.val))) (t / 2500)) else none) = some w ∧ w.act ≠ 3) ∧
    (∃ (k : Fin 32) (t : Nat) (s : State), s.node.up = true ∧ s.node.lnRuns k.val = true ∧ t % 2500 = 0 ∧ t / 2500 % max 1 (lnPer (s.node.lnRec k.val)) = lnPhase (s.node.lnRec k.val) ∧ (s.node.lnC k.val).tick ≠ some (t / 2500) ∧ lnTesting s.node k.val = false ∧ (s.node.lnC k.val).reqNew = true ∧ ((s.node.lnC k.val).req = 0 ∨ (s.node.lnC k.val).req = 1 ∨ (s.node.lnC k.val).req = 4 ∨ ((s.node.lnC k.val).req = 2 ∧ qHas (resQ (s.node.res (lnPvAddr (s.node.lnRec k.val)))) qVALID = true ∧ ((s.node.lnC k.val).par).feLim ≤ 0))) ∧
    (∃ (k : Fin 32) (t : Nat) (s : State), s.node.up = true ∧ s.node.lnRuns k.val = true ∧ t % 2500 = 0 ∧ t / 2500 % max 1 (lnPer (s.node.lnRec k.val)) = lnPhase (s.node.lnRec k.val) ∧ (s.node.lnC k.val).tick ≠ some (t / 2500) ∧ lnTesting s.node k.val = false ∧ (s.node.lnC k.val).reqNew = false ∧ (s.node.lnC k.val).act = 3 ∧ ((s.node.lnOuter k.val).all (fun o => ((lnView (s.node.lnC o) (t / 2500)).act == 0 && (lnView (s.node.lnC o) (t / 2500)).started) || !s.node.roleOn 3 (o / 8))) = true ∧ qHas (resQ (s.node.res (lnPvAddr (s.node.lnRec k.val)))) qVALID = true ∧ ((s.node.lnC k.val).par).feLim ≤ 0) ∧
    (∃ (k : Fin 32) (t : Nat) (s : State), s.node.up = true ∧ (s.node.lnRuns k.val = false ∨ t % 2500 ≠ 0 ∨ t / 2500 % max 1 (lnPer (s.node.lnRec k.val)) ≠ lnPhase (s.node.lnRec k.val) ∨ (s.node.lnC k.val).tick = some (t / 2500))) :=
  ⟨⟨31, 0, (wSt (wLn { act := 2, prevAct := some 2, prevPv := true })), by decide +kernel⟩,
   ⟨31, 0, (wSt { wLn { act := 2 } with jn := {} }), by decide +kernel⟩,
   ⟨31, 0, (wSt (wLn { act := 1 })), by decide +kernel⟩,
   ⟨31, 0, (wSt (wLn {})), by decide +kernel⟩,
   ⟨31, 0, (wSt (wLn { act := 4 } [(16, 0), (17, 0x20)])), by decide +kernel⟩,
   ⟨31, 0, (wSt (wLn { act := 1 } [(18, 5), (19, 30)])), {}, by decide +kernel⟩,
   ⟨31, 0, (wSt (wLn { req := 1, reqNew := true })), by decide +kernel⟩,
   ⟨31, 0, (wSt (wLn { act := 3 })), by decide +kernel⟩,
   ⟨31, 1, (wSt (wLn {})), by decide +kernel⟩⟩

theorem test_meets_LaneCommands :
    (∃ (k : Fin 32) (v : Word) (s : State), Takes s (0x5C08 + 0x80 * k.val) ∧ (¬ (lnOn (s.node.lnRec k.val) = false ∨ 4 < fld v 2 0 ∨ (fld v 2 0 = 3 ∧ s.node.lnOuter k.val = none) ∨ (fld v 2 0 = 4 ∧ lnTrkAddr (s.node.lnRec k.val) = 0)))) ∧
    (∃ (k : Fin 32) (v : Word) (s : State), Takes s (0x5C08 + 0x80 * k.val) ∧ ((lnOn (s.node.lnRec k.val) = false ∨ 4 < fld v 2 0 ∨ (fld v 2 0 = 3 ∧ s.node.lnOuter k.val = none) ∨ (fld v 2 0 = 4 ∧ lnTrkAddr (s.node.lnRec k.val) = 0)))) ∧
    (∃ (k : Fin 32) (s : State), Takes s (0x5C08 + 0x80 * k.val) ∧ (lnOn (s.node.lnRec k.val) = true ∧ (1 ≤ ((s.node.lnC k.val).pendp).kf ∧ ((s.node.lnC k.val).pendp).kf ≤ 2 ^ lnSF ((s.node.lnC k.val).pendp)) ∧ ((s.node.lnC k.val).pendp).ilo ≤ ((s.node.lnC k.val).pendp).ihi ∧ ((s.node.lnC k.val).pendp).olo ≤ ((s.node.lnC k.val).pendp).ohi ∧ lnOutOk (lnKind (s.node.lnRec k.val)) ((s.node.lnC k.val).pendp).olo ((s.node.lnC k.val).pendp).ohi = true)) ∧
    (∃ (k : Fin 32) (s : State), Takes s (0x5C08 + 0x80 * k.val) ∧ (¬ (lnOn (s.node.lnRec k.val) = true ∧ (1 ≤ ((s.node.lnC k.val).pendp).kf ∧ ((s.node.lnC k.val).pendp).kf ≤ 2 ^ lnSF ((s.node.lnC k.val).pendp)) ∧ ((s.node.lnC k.val).pendp).ilo ≤ ((s.node.lnC k.val).pendp).ihi ∧ ((s.node.lnC k.val).pendp).olo ≤ ((s.node.lnC k.val).pendp).ohi ∧ lnOutOk (lnKind (s.node.lnRec k.val)) ((s.node.lnC k.val).pendp).olo ((s.node.lnC k.val).pendp).ohi = true))) ∧
    (∃ (k : Fin 32) (a : Nat) (t : Nat) (s : State), s.node.up = true ∧ s.node.lnRuns k.val = true ∧ ((s.node.lnC k.val).act = 2 ∨ (s.node.lnC k.val).act = 3) ∧ (s.node.lnC k.val).pvBad = false ∧ (s.node.lnC k.val).feDone = false ∧ lnTesting s.node k.val = false ∧ (s.node.lnC k.val).feAt = some a ∧ a + (s.node.lnC k.val).par.feTime * 250000 ≤ t ∧ (s.node.lnC k.val).tick = some (t / 2500)) ∧
    (∃ (k : Fin 32) (t : Nat) (s : State), s.node.up = true ∧ (s.node.lnRuns k.val = false ∨ ((s.node.lnC k.val).act ≠ 2 ∧ (s.node.lnC k.val).act ≠ 3) ∨ (s.node.lnC k.val).pvBad = true ∨ (s.node.lnC k.val).feDone = true ∨ lnTesting s.node k.val = true ∨ (s.node.lnC k.val).tick ≠ some (t / 2500) ∨ (s.node.lnC k.val).feAt.all (fun a => t < a + (s.node.lnC k.val).par.feTime * 250000) = true)) :=
  ⟨⟨31, 2#32, (wSt (wLn {})), by unfold Takes; decide +kernel⟩,
   ⟨31, 5#32, (wSt (wLn {})), by unfold Takes; decide +kernel⟩,
   ⟨31, (wSt (wLn { pendp := { kf := 1 } })), by unfold Takes; decide +kernel⟩,
   ⟨31, (wSt (wLn {})), by unfold Takes; decide +kernel⟩,
   ⟨31, 0, 0, (wSt (wLn { act := 2, feAt := some 0, tick := some 0 })), by decide +kernel⟩,
   ⟨31, 0, (wSt (wLn { act := 1 })), by decide +kernel⟩⟩

theorem test_meets_LaneTests :
    (∃ (k : Fin 32) (s : State), Takes s (0x5C70 + 0x80 * k.val) ∧ genRuns (s.node.genC (k.val / 16)) = false ∧ u8 ((s.node.dense 0x0A 2 (k.val / 16)).getD []) 0 ≠ 0 ∧ (¬ (u8 ((s.node.dense 0x0A 2 (k.val / 16)).getD []) 0 = 4 ∧ 25000000 < u32 ((s.node.dense 0x0A 2 (k.val / 16)).getD []) 16 * lnPer (s.node.lnRec k.val))) ∧ lnOn (s.node.lnRec k.val) = true ∧ ((u8 ((s.node.dense 0x0A 2 (k.val / 16)).getD []) 1 = 0 ∧ ((s.node.lnC k.val).act = 2 ∨ (s.node.lnC k.val).act = 3)) ∨ (u8 ((s.node.dense 0x0A 2 (k.val / 16)).getD []) 1 = 1 ∧ (s.node.lnC k.val).act ≠ 0 ∧ (s.node.lnC k.val).act ≠ 4))) ∧
    (∃ (k : Fin 32) (s : State), Takes s (0x5C70 + 0x80 * k.val) ∧ (genRuns (s.node.genC (k.val / 16)) = true ∨ u8 ((s.node.dense 0x0A 2 (k.val / 16)).getD []) 0 = 0 ∨ (u8 ((s.node.dense 0x0A 2 (k.val / 16)).getD []) 0 = 4 ∧ 25000000 < u32 ((s.node.dense 0x0A 2 (k.val / 16)).getD []) 16 * lnPer (s.node.lnRec k.val)) ∨ lnOn (s.node.lnRec k.val) = false ∨ (u8 ((s.node.dense 0x0A 2 (k.val / 16)).getD []) 1 = 0 ∧ (s.node.lnC k.val).act ≠ 2 ∧ (s.node.lnC k.val).act ≠ 3) ∨ (u8 ((s.node.dense 0x0A 2 (k.val / 16)).getD []) 1 = 1 ∧ ((s.node.lnC k.val).act = 0 ∨ (s.node.lnC k.val).act = 4)))) ∧
    (∃ (k : Fin 32) (s : State), Takes s (0x5C70 + 0x80 * k.val) ∧ lnTesting s.node k.val = true) ∧
    (∃ (p : HostPort) (k : Fin 32) (s : State) (w : Word), Serves s (0x5C7C + 0x80 * k.val) ∧ (s.node.genC (k.val / 16)).state ≠ 0 ∧ (s.node.genC (k.val / 16)).lane = k.val ∧ genWord (s.node.genC (k.val / 16)) (tget 0 (s.node.port p).lnCapAddr k.val) = some w) ∧
    (∃ (p : HostPort) (k : Fin 32) (s : State), Serves s (0x5C7C + 0x80 * k.val) ∧ ((s.node.genC (k.val / 16)).state = 0 ∨ (s.node.genC (k.val / 16)).lane ≠ k.val ∨ genWord (s.node.genC (k.val / 16)) (tget 0 (s.node.port p).lnCapAddr k.val) = none)) ∧
    (∃ (k : Fin 32) (s : State), Takes s (0x5C70 + 0x80 * k.val) ∧ lnTesting s.node k.val = false) ∧
    (∃ (k : Fin 32) (t : Nat) (s : State), s.node.up = true ∧ s.node.lnRuns k.val = true ∧ t % 2500 = 0 ∧ t / 2500 % max 1 (lnPer (s.node.lnRec k.val)) = lnPhase (s.node.lnRec k.val) ∧ (s.node.lnC k.val).tick ≠ some (t / 2500) ∧ (s.node.lnC k.val).reqNew = false ∧ (s.node.lnC k.val).act = 1 ∧ lnTesting s.node k.val = true ∧ lnKind (s.node.lnRec k.val) ≠ 5) :=
  ⟨⟨31, (wSt (wLn { act := 3 })), by unfold Takes; decide +kernel⟩,
   ⟨31, (wSt wN), by unfold Takes; decide +kernel⟩,
   ⟨31, (wSt { wN with gen := [(1, { state := 1, lane := 31 })] }), by unfold Takes; decide +kernel⟩,
   ⟨.m5, 31, (wSt { wN with gen := [(1, { state := 3, lane := 31 })] }), 31#32, by unfold Serves; decide +kernel⟩,
   ⟨.m5, 31, (wSt wN), by unfold Serves; decide +kernel⟩,
   ⟨31, (wSt (wLn {})), by unfold Takes; decide +kernel⟩,
   ⟨31, 0, (wSt { wLn { act := 1 } with gen := [(1, { state := 2, lane := 31, cfg := wB 32 [(0, 1), (1, 1), (4, 5), (20, 9)] })] }), by decide +kernel⟩⟩

theorem test_meets_AlarmDelays :
    (∃ (i : Fin 4096) (a : Int) (t : Nat) (s : State), s.node.up = true ∧ s.node.almWorks = true ∧ (s.node.almP i.val).onAt = some a ∧ (s.node.almP i.val).cond = true ∧ a + (u16 (s.node.almRec i.val) 16 * 2500000 : Nat) ≤ t ∧ (s.node.almP i.val).st = 0) ∧
    (∃ (i : Fin 4096) (a : Int) (t : Nat) (s : State), s.node.up = true ∧ s.node.almWorks = true ∧ (s.node.almP i.val).onAt = some a ∧ (s.node.almP i.val).cond = true ∧ a + (u16 (s.node.almRec i.val) 16 * 2500000 : Nat) ≤ t ∧ (s.node.almP i.val).st = 3) ∧
    (∃ (i : Fin 4096) (a : Int) (t : Nat) (s : State), s.node.up = true ∧ s.node.almWorks = true ∧ (s.node.almP i.val).onAt = some a ∧ (s.node.almP i.val).cond = true ∧ a + (u16 (s.node.almRec i.val) 16 * 2500000 : Nat) ≤ t ∧ (s.node.almP i.val).st ≠ 0 ∧ (s.node.almP i.val).st ≠ 3) ∧
    (∃ (i : Fin 4096) (a : Int) (t : Nat) (s : State), s.node.up = true ∧ s.node.almWorks = true ∧ (s.node.almP i.val).offAt = some a ∧ (s.node.almP i.val).cond = false ∧ a + (u16 (s.node.almRec i.val) 18 * 2500000 : Nat) ≤ t ∧ (s.node.almP i.val).st = 1 ∧ ptLatch (s.node.almRec i.val) = false) ∧
    (∃ (i : Fin 4096) (a : Int) (t : Nat) (s : State), s.node.up = true ∧ s.node.almWorks = true ∧ (s.node.almP i.val).offAt = some a ∧ (s.node.almP i.val).cond = false ∧ a + (u16 (s.node.almRec i.val) 18 * 2500000 : Nat) ≤ t ∧ (s.node.almP i.val).st = 2 ∧ ptLatch (s.node.almRec i.val) = false) ∧
    (∃ (i : Fin 4096) (a : Int) (t : Nat) (s : State), s.node.up = true ∧ s.node.almWorks = true ∧ (s.node.almP i.val).offAt = some a ∧ (s.node.almP i.val).cond = false ∧ a + (u16 (s.node.almRec i.val) 18 * 2500000 : Nat) ≤ t ∧ (ptLatch (s.node.almRec i.val) = true ∨ ((s.node.almP i.val).st ≠ 1 ∧ (s.node.almP i.val).st ≠ 2))) ∧
    (∃ (i : Fin 4096) (e : Nat) (t : Nat) (s : State), s.node.up = true ∧ s.node.almWorks = true ∧ (s.node.almP i.val).shelveEnd = some e ∧ e ≤ t ∧ (s.node.almP i.val).st = 5) ∧
    (∃ (g : Fin 256) (e : Nat) (t : Nat) (s : State), s.node.up = true ∧ s.node.almWorks = true ∧ (s.node.almG g.val).dlyEnd = some e ∧ e ≤ t ∧ (s.node.almG g.val).supp = true ∧ groupHolds s.node (s.node.groupRec g.val) = false) ∧
    (∃ (i : Fin 4096) (t : Nat) (s : State), s.node.up = true ∧ (s.node.almWorks = false ∨ (s.node.almP i.val).cond = false ∨ (s.node.almP i.val).onAt.all (fun a => decide ((t : Int) < a + (u16 (s.node.almRec i.val) 16 * 2500000 : Nat))) = true)) ∧
    (∃ (i : Fin 4096) (t : Nat) (s : State), s.node.up = true ∧ (s.node.almWorks = false ∨ (s.node.almP i.val).cond = true ∨ (s.node.almP i.val).offAt.all (fun a => decide ((t : Int) < a + (u16 (s.node.almRec i.val) 18 * 2500000 : Nat))) = true)) ∧
    (∃ (i : Fin 4096) (t : Nat) (s : State), s.node.up = true ∧ (s.node.almWorks = false ∨ (s.node.almP i.val).st ≠ 5 ∨ (s.node.almP i.val).shelveEnd.all (fun e => decide (t < e)) = true)) ∧
    (∃ (g : Fin 256) (t : Nat) (s : State), s.node.up = true ∧ (s.node.almWorks = false ∨ (s.node.almG g.val).supp = false ∨ groupHolds s.node (s.node.groupRec g.val) = true ∨ (s.node.almG g.val).dlyEnd.all (fun e => decide (t < e)) = true)) :=
  ⟨⟨4095, 0, 0, (wSt (wPt { onAt := some 0, cond := true })), by decide +kernel⟩,
   ⟨4095, 0, 0, (wSt (wPt { onAt := some 0, cond := true, st := 3 })), by decide +kernel⟩,
   ⟨4095, 0, 0, (wSt (wPt { onAt := some 0, cond := true, st := 2 })), by decide +kernel⟩,
   ⟨4095, 0, 0, (wSt (wPt { offAt := some 0, st := 1 })), by decide +kernel⟩,
   ⟨4095, 0, 0, (wSt (wPt { offAt := some 0, st := 2 })), by decide +kernel⟩,
   ⟨4095, 0, 0, (wSt (wPt { offAt := some 0, st := 1 } 3)), by decide +kernel⟩,
   ⟨4095, 0, 0, (wSt (wPt { shelveEnd := some 0, st := 5 })), by decide +kernel⟩,
   ⟨255, 0, 0, (wSt { wN with alm := { grps := [(255, { dlyEnd := some 0, supp := true })] } }), by decide +kernel⟩,
   ⟨4095, 0, (wSt (wPt { onAt := some 0 })), by decide +kernel⟩,
   ⟨4095, 0, (wSt (wPt { offAt := some 0, cond := true })), by decide +kernel⟩,
   ⟨4095, 0, (wSt (wPt { shelveEnd := some 0 })), by decide +kernel⟩,
   ⟨255, 0, (wSt { wN with alm := { grps := [(255, { dlyEnd := some 0 })] } }), by decide +kernel⟩⟩

theorem test_meets_Acknowledgements :
    (∃ (i : Fin 4096) (s : State), Takes s 0x6C40 ∧ s.node.almWorks = true ∧ s.node.ptUsed i.val = true) ∧
    (∃ (i : Fin 4096) (s : State), Takes s 0x6C40 ∧ s.node.almWorks = true ∧ s.node.ptUsed i.val = false) ∧
    (∃ (g : Fin 256) (s : State), Takes s 0x6C40 ∧ s.node.almWorks = true ∧ s.node.groupUsed g.val = true) ∧
    (∃ (g : Fin 256) (s : State), Takes s 0x6C40 ∧ s.node.almWorks = true ∧ s.node.groupUsed g.val = false) ∧
    (∃ (s : State), Takes s 0x6C40 ∧ s.node.almWorks = true) :=
  ⟨⟨4095, (wSt (wPt {  })), by unfold Takes; decide +kernel⟩,
   ⟨4095, (wSt wN), by unfold Takes; decide +kernel⟩,
   ⟨255, (wSt (wPt {  })), by unfold Takes; decide +kernel⟩,
   ⟨255, (wSt wN), by unfold Takes; decide +kernel⟩,
   ⟨(wSt wN), by unfold Takes; decide +kernel⟩⟩

theorem test_meets_PointCommands :
    (∃ (i : Fin 4096) (s : State), Takes s 0x6C40 ∧ s.node.almWorks = true ∧ s.node.ptUsed i.val = true ∧ (s.node.almP i.val).st = 2 ∧ ptLatch (s.node.almRec i.val) = true ∧ (s.node.almP i.val).cond = false ∧ (s.node.almP i.val).offAt = none) ∧
    (∃ (i : Fin 4096) (s : State), Takes s 0x6C40 ∧ s.node.almWorks = true ∧ s.node.ptUsed i.val = true ∧ (¬ ((s.node.almP i.val).st = 2 ∧ ptLatch (s.node.almRec i.val) = true ∧ (s.node.almP i.val).cond = false ∧ (s.node.almP i.val).offAt = none))) ∧
    (∃ (i : Fin 4096) (s : State) (arg : BitVec 11), Takes s 0x6C40 ∧ s.node.almWorks = true ∧ s.node.ptUsed i.val = true ∧ ptShelv (s.node.almRec i.val) = true ∧ 1 ≤ arg.toNat ∧ arg.toNat ≤ 1440 ∧ (s.node.almP i.val).st ≤ 5) ∧
    (∃ (i : Fin 4096) (s : State) (arg : BitVec 11), Takes s 0x6C40 ∧ s.node.almWorks = true ∧ s.node.ptUsed i.val = true ∧ (¬ (ptShelv (s.node.almRec i.val) = true ∧ 1 ≤ arg.toNat ∧ arg.toNat ≤ 1440 ∧ (s.node.almP i.val).st ≤ 5))) ∧
    (∃ (i : Fin 4096) (s : State), Takes s 0x6C40 ∧ s.node.almWorks = true ∧ s.node.ptUsed i.val = true ∧ (s.node.almP i.val).st = 5) ∧
    (∃ (i : Fin 4096) (s : State), Takes s 0x6C40 ∧ s.node.almWorks = true ∧ s.node.ptUsed i.val = true ∧ (s.node.almP i.val).st ≠ 5) ∧
    (∃ (i : Fin 4096) (s : State), Takes s 0x6C40 ∧ s.node.almWorks = true ∧ s.node.ptUsed i.val = true ∧ (s.node.almP i.val).st < 6) ∧
    (∃ (i : Fin 4096) (s : State), Takes s 0x6C40 ∧ s.node.almWorks = true ∧ s.node.ptUsed i.val = true ∧ 6 ≤ (s.node.almP i.val).st) ∧
    (∃ (i : Fin 4096) (s : State), Takes s 0x6C40 ∧ s.node.almWorks = true ∧ s.node.ptUsed i.val = true ∧ (s.node.almP i.val).st = 6) ∧
    (∃ (i : Fin 4096) (s : State), Takes s 0x6C40 ∧ s.node.almWorks = true ∧ s.node.ptUsed i.val = true ∧ (s.node.almP i.val).st ≠ 6) ∧
    (∃ (i : Fin 4096) (s : State), Takes s 0x6C44 ∧ s.node.almWorks = true ∧ s.node.ptUsed i.val = true ∧ (s.node.almP i.val).st ≠ 7) ∧
    (∃ (i : Fin 4096) (s : State), Takes s 0x6C44 ∧ s.node.almWorks = true ∧ s.node.ptUsed i.val = true ∧ (s.node.almP i.val).st = 7) ∧
    (∃ (g : Fin 256) (s : State), Takes s 0x6C40 ∧ s.node.almWorks = true ∧ s.node.groupUsed g.val = true ∧ ((s.node.almG g.val).fo = 0 ∨ (s.node.almP ((s.node.almG g.val).fo - 1)).st ≠ 1)) ∧
    (∃ (g : Fin 256) (s : State), Takes s 0x6C40 ∧ s.node.almWorks = true ∧ (s.node.groupUsed g.val = false ∨ ((s.node.almG g.val).fo ≠ 0 ∧ (s.node.almP ((s.node.almG g.val).fo - 1)).st = 1))) ∧
    (∃ (i : Fin 4096) (s : State), Takes s 0x6C40 ∧ Takes s 0x6C44 ∧ s.node.almWorks = true ∧ s.node.ptUsed i.val = false) :=
  ⟨⟨4095, (wSt (wPt { st := 2 } 3)), by unfold Takes; decide +kernel⟩,
   ⟨4095, (wSt (wPt {  })), by unfold Takes; decide +kernel⟩,
   ⟨4095, (wSt (wPt { st := 5 } 9)), 1440#11, by unfold Takes; decide +kernel⟩,
   ⟨4095, (wSt (wPt {  } 9)), 1441#11, by unfold Takes; decide +kernel⟩,
   ⟨4095, (wSt (wPt { st := 5 })), by unfold Takes; decide +kernel⟩,
   ⟨4095, (wSt (wPt {  })), by unfold Takes; decide +kernel⟩,
   ⟨4095, (wSt (wPt {  })), by unfold Takes; decide +kernel⟩,
   ⟨4095, (wSt (wPt { st := 6 })), by unfold Takes; decide +kernel⟩,
   ⟨4095, (wSt (wPt { st := 6 })), by unfold Takes; decide +kernel⟩,
   ⟨4095, (wSt (wPt {  })), by unfold Takes; decide +kernel⟩,
   ⟨4095, (wSt (wPt {  })), by unfold Takes; decide +kernel⟩,
   ⟨4095, (wSt (wPt { st := 7 })), by unfold Takes; decide +kernel⟩,
   ⟨255, (wSt (wPt {  })), by unfold Takes; decide +kernel⟩,
   ⟨255, (wSt wN), by unfold Takes; decide +kernel⟩,
   ⟨4095, (wSt wN), by unfold Takes; decide +kernel⟩⟩

theorem test_meets_AlarmCommandsWhileNotRunning :
    (∃ (s : State), s.node.almRun = false ∧ Takes s 0x6C40 ∧ Takes s 0x6C44 ∧ Takes s 0x6C58 ∧ Takes s 0x6C50 ∧ Takes s 0x6C60) ∧
    (∃ (s : State), Takes s 0x6C40 ∧ Takes s 0x6C44 ∧ s.node.almRun = true ∧ s.node.almWorks = false) :=
  ⟨⟨wSt { wN with dev := { st := .safe } }, by decide +kernel, by unfold Takes; decide +kernel, by unfold Takes; decide +kernel, by unfold Takes; decide +kernel,
    by unfold Takes; decide +kernel, by unfold Takes; decide +kernel⟩,
   ⟨(wSt { wN with isl := { wN.isl with paused := [(0, 0x40#8, 0)] } }), by unfold Takes; decide +kernel⟩⟩

theorem test_meets_CallsAndPatrol :
    (∃ (e : Nat) (t : Nat) (s : State), s.node.up = true ∧ s.node.almWorks = true ∧ s.node.alm.escAt = some e ∧ e ≤ t ∧ (s.node.alm.level = 1 ∨ s.node.alm.level = 2) ∧ (s.node.alm.cause = 2 ∨ (s.node.alm.cause = 0 ∧ s.node.alm.duty ≠ 0xFF))) ∧
    (∃ (e : Nat) (t : Nat) (s : State), s.node.up = true ∧ s.node.almWorks = true ∧ s.node.alm.level = 0 ∧ s.node.alm.recallAt = some e ∧ e ≤ t) ∧
    (∃ (s : State), s.node.almRun = true ∧ Takes s 0x6C58) ∧
    (∃ (v : Word) (s : State), s.node.almRun = true ∧ Takes s 0x6C50 ∧ dutyOk s.node (fld v 7 0) = true) ∧
    (∃ (v : Word) (s : State), s.node.almRun = true ∧ Takes s 0x6C50 ∧ dutyOk s.node (fld v 7 0) = false) ∧
    (∃ (s : State), s.node.almRun = true ∧ Takes s 0x6C60) ∧
    (∃ (t : Nat) (s : State), s.node.up = true ∧ s.node.almWorks = true ∧ s.node.alm.patrol = 1 ∧ s.node.alm.patWarn ≤ t) ∧
    (∃ (t : Nat) (s : State), s.node.up = true ∧ s.node.almWorks = true ∧ s.node.alm.patrol = 2 ∧ s.node.alm.patEnd ≤ t) ∧
    (∃ (t : Nat) (s : State), s.node.up = true ∧ (s.node.almWorks = false ∨ s.node.alm.escAt.all (fun e => decide (t < e)) = true ∨ (s.node.alm.level ≠ 1 ∧ s.node.alm.level ≠ 2) ∨ s.node.alm.cause = 1 ∨ (s.node.alm.cause = 0 ∧ s.node.alm.duty = 0xFF))) ∧
    (∃ (t : Nat) (s : State), s.node.up = true ∧ (s.node.almWorks = false ∨ s.node.alm.recallAt.all (fun e => decide (t < e)) = true ∨ s.node.alm.level ≠ 0)) ∧
    (∃ (t : Nat) (s : State), s.node.up = true ∧ (s.node.almWorks = false ∨ s.node.alm.patrol ≠ 1 ∨ t < s.node.alm.patWarn)) ∧
    (∃ (t : Nat) (s : State), s.node.up = true ∧ (s.node.almWorks = false ∨ s.node.alm.patrol ≠ 2 ∨ t < s.node.alm.patEnd)) :=
  ⟨⟨0, 0, (wSt { wN with alm := { escAt := some 0, level := 2, cause := 2 } }), by decide +kernel⟩,
   ⟨0, 0, (wSt { wN with alm := { recallAt := some 0 } }), by decide +kernel⟩,
   ⟨(wSt wN), by unfold Takes; decide +kernel⟩,
   ⟨0xFF#32, (wSt wN), by unfold Takes; decide +kernel⟩,
   ⟨0xFE#32, (wSt wN), by unfold Takes; decide +kernel⟩,
   ⟨(wSt wN), by unfold Takes; decide +kernel⟩,
   ⟨0, (wSt { wN with alm := { patrol := 1 } }), by decide +kernel⟩,
   ⟨0, (wSt { wN with alm := { patrol := 2 } }), by decide +kernel⟩,
   ⟨0, (wSt { wN with alm := { escAt := some 0, level := 1, cause := 1 } }), by decide +kernel⟩,
   ⟨0, (wSt { wN with alm := { recallAt := some 0, level := 1 } }), by decide +kernel⟩,
   ⟨0, (wSt { wN with alm := { patrol := 2 } }), by decide +kernel⟩,
   ⟨0, (wSt { wN with alm := { patrol := 1 } }), by decide +kernel⟩⟩

theorem test_meets_AlarmFindAndLog :
    (∃ (s : State), Takes s 0x6C68) ∧
    (∃ (s : State), Takes s 0x6CA4) ∧
    (∃ (p : HostPort) (s : State), Serves s 0x6CA8 ∧ (s.node.port p).almLogWord = 0 ∧ almLogHeld s.node (s.node.port p).almLogIdx = true) ∧
    (∃ (p : HostPort) (s : State), Serves s 0x6CA8 ∧ 0 < (s.node.port p).almLogWord ∧ (s.node.port p).almLogWord < 3) ∧
    (∃ (p : HostPort) (s : State), Serves s 0x6CA8 ∧ (s.node.port p).almLogWord = 3) ∧
    (∃ (p : HostPort) (s : State), Serves s 0x6CA8 ∧ (s.node.port p).almLogWord = 0 ∧ almLogHeld s.node (s.node.port p).almLogIdx = false) :=
  ⟨⟨(wSt wN), by unfold Takes; decide +kernel⟩,
   ⟨(wSt wN), by unfold Takes; decide +kernel⟩,
   ⟨.m5, (wSt { wN with alm := { head := 1 } }), by unfold Serves; decide +kernel⟩,
   ⟨.m5, (wSt { wN with ports := { m5 := { almLogWord := 1 } } }), by unfold Serves; decide +kernel⟩,
   ⟨.m5, (wSt { wN with ports := { m5 := { almLogWord := 3 } } }), by unfold Serves; decide +kernel⟩,
   ⟨.m5, (wSt wN), by unfold Serves; decide +kernel⟩⟩

theorem test_meets_SequenceCommands :
    (∃ (q : Fin 8) (s : State), Takes s (0x7000 + 0x40 * q.val)) ∧
    (∃ (q : Nat) (n : Node), q < 8 ∧ sqOn (n.seqRec q) = true ∧ (n.sq q).st = 0 ∧ n.running = true ∧ sqFirst (n.seqRec q) < 1024 ∧ stSeq (n.stepRec (sqFirst (n.seqRec q))) = q ∧ stNact (n.stepRec (sqFirst (n.seqRec q))) = 0 ∧ stNtr (n.stepRec (sqFirst (n.seqRec q))) ≠ 0 ∧ n.dup.role ≠ .active) ∧
    (∃ (q : Nat) (n : Node), q < 8 ∧ sqOn (n.seqRec q) = true ∧ (n.sq q).st = 3) ∧
    (∃ (q : Nat) (n : Node), q < 8 ∧ sqOn (n.seqRec q) = true ∧ (n.sq q).st = 1 ∧ n.running = true) ∧
    (∃ (q : Nat) (n : Node), q < 8 ∧ sqOn (n.seqRec q) = true ∧ (n.sq q).st = 2 ∧ n.running = true ∧ n.stepOf q (n.sq q).step = true) ∧
    (∃ (q : Nat) (n : Node) (v : Word), q < 8 ∧ sqOn (n.seqRec q) = true ∧ (fld v 3 0 = 0 ∨ 5 < fld v 3 0 ∨ (fld v 3 0 = 1 ∧ ((n.sq q).st = 1 ∨ (n.sq q).st = 2)) ∨ (fld v 3 0 = 2 ∧ (n.sq q).st = 0) ∨ (fld v 3 0 = 3 ∧ (n.sq q).st ≠ 1) ∨ (4 ≤ fld v 3 0 ∧ (n.sq q).st ≠ 2))) :=
  ⟨⟨7, (wSt wN), by unfold Takes; decide +kernel⟩,
   ⟨7, (wSq {}), by decide +kernel⟩,
   ⟨7, (wSq { st := 3 }), by decide +kernel⟩,
   ⟨7, (wSq { st := 1 }), by decide +kernel⟩,
   ⟨7, (wSq { st := 2 }), by decide +kernel⟩,
   ⟨7, (wSq {}), 0#32, by decide +kernel⟩⟩

theorem test_meets_SequenceTimes :
    (∃ (q : Fin 8) (a : Nat) (t : Nat) (s : State), s.node.up = true ∧ s.node.seqRuns = true ∧ (s.node.sq q.val).st = 1 ∧ (s.node.sq q.val).since = some a ∧ stTmo (s.node.stepRec (s.node.sq q.val).step) ≠ 0 ∧ stTmo (s.node.stepRec (s.node.sq q.val).step) ≤ (s.node.sq q.val).acc + (timeAfter s t - a) - (s.node.sq q.val).stepAt ∧ stNext (s.node.stepRec (s.node.sq q.val).step) = 0xFFFF) ∧
    (∃ (q : Fin 8) (a : Nat) (t : Nat) (s : State), s.node.up = true ∧ s.node.seqRuns = true ∧ (s.node.sq q.val).st = 1 ∧ (s.node.sq q.val).since = some a ∧ stTmo (s.node.stepRec (s.node.sq q.val).step) ≠ 0 ∧ stTmo (s.node.stepRec (s.node.sq q.val).step) ≤ (s.node.sq q.val).acc + (timeAfter s t - a) - (s.node.sq q.val).stepAt ∧ stNext (s.node.stepRec (s.node.sq q.val).step) = 0xFFFE) ∧
    (∃ (q : Fin 8) (a : Nat) (t : Nat) (s : State), s.node.up = true ∧ s.node.seqRuns = true ∧ (s.node.sq q.val).st = 1 ∧ (s.node.sq q.val).since = some a ∧ stTmo (s.node.stepRec (s.node.sq q.val).step) ≠ 0 ∧ stTmo (s.node.stepRec (s.node.sq q.val).step) ≤ (s.node.sq q.val).acc + (timeAfter s t - a) - (s.node.sq q.val).stepAt ∧ stNext (s.node.stepRec (s.node.sq q.val).step) < 1024 ∧ stLink (s.node.stepRec (stNext (s.node.stepRec (s.node.sq q.val).step))) = false) ∧
    (∃ (q : Fin 8) (k : Fin 4) (a : Nat) (e : Nat) (t : Nat) (s : State), s.node.up = true ∧ (s.node.sq q.val).since = some a ∧ (s.node.sq q.val).tmr.getD k.val none = some e ∧ e ≤ (s.node.sq q.val).acc + (timeAfter s t - a)) ∧
    (∃ (q : Fin 8) (k : Nat) (r : List Nat) (s : State), s.node.up = true ∧ (s.node.sq q.val).acts = k :: r) ∧
    (∃ (q : Fin 8) (t : Nat) (s : State), s.node.up = true ∧ (s.node.seqRuns = false ∨ (s.node.sq q.val).st ≠ 1 ∨ stTmo (s.node.stepRec (s.node.sq q.val).step) = 0 ∨ (s.node.sq q.val).since.all (fun a => decide ((s.node.sq q.val).acc + (timeAfter s t - a) - (s.node.sq q.val).stepAt < stTmo (s.node.stepRec (s.node.sq q.val).step))) = true ∧ (s.node.sq q.val).since.isSome = true)) ∧
    (∃ (q : Fin 8) (k : Fin 4) (t : Nat) (s : State), s.node.up = true ∧ ((s.node.sq q.val).tmr.getD k.val none = none ∨ (s.node.sq q.val).since = none ∨ ((s.node.sq q.val).tmr.getD k.val none).all (fun e => (s.node.sq q.val).since.all (fun a => decide ((s.node.sq q.val).acc + (timeAfter s t - a) < e))) = true)) ∧
    (∃ (q : Fin 8) (s : State), s.node.up = true ∧ (s.node.sq q.val).acts = []) :=
  ⟨⟨7, 0, (10 ^ 12), (wSt (wSq { st := 1, since := some 0 } [(1, 8), (2, 1), (4, 255), (5, 255)])), by decide +kernel⟩,
   ⟨7, 0, (10 ^ 12), (wSt (wSq { st := 1, since := some 0 } [(1, 8), (2, 1), (4, 254), (5, 255)])), by decide +kernel⟩,
   ⟨7, 0, (10 ^ 12), (wSt (wSq { st := 1, since := some 0 } [(1, 8), (2, 1)])), by decide +kernel⟩,
   ⟨7, 3, 0, 0, 0, (wSt (wSq { since := some 0, tmr := [none, none, none, some 0] })), by decide +kernel⟩,
   ⟨7, 0, [], (wSt (wSq { acts := [0] })), by decide +kernel⟩,
   ⟨7, 0, (wSt (wSq { st := 1 })), by decide +kernel⟩,
   ⟨7, 3, 0, (wSt (wSq {})), by decide +kernel⟩,
   ⟨7, (wSt (wSq {})), by decide +kernel⟩⟩

theorem test_meets_DisplayUpdates :
    (∃ (full : Bool) (s : State), Takes s (if full then 0x7414 else 0x7410) ∧ dspTakes s.node = true) ∧
    (∃ (full : Bool) (s : State), Takes s (if full then 0x7414 else 0x7410) ∧ dspTakes s.node = false) ∧
    (∃ (r : Fin 32) (start : Nat) (vs : List ItemView) (s : State), s.node.up = true ∧ rgOn (s.node.rgRec r.val) = true ∧ s.node.acq = true ∧ s.node.isRun 9 = true ∧ s.node.roleOn 6 0 = true ∧ (((s.node.rg r.val).rendering.find? (fun y => y.1 == start) = some (start, vs) ∨ ((s.node.rg r.val).rendering.find? (fun y => y.1 == start) = none ∧ (s.node.rg r.val).redraw = true ∧ (s.node.rg r.val).shown = some vs)))) ∧
    (∃ (r : Fin 32) (m0 : Bool) (s : State), s.node.up = true ∧ (s.node.rg r.val).req = some m0 ∧ rgOn (s.node.rgRec r.val) = true ∧ s.node.dsp.bias = 2 ∧ s.node.isRun 9 = true ∧ s.node.acq = true ∧ ((s.node.rg r.val).run = false ∨ rgPrio (s.node.rgRec r.val) = true)) ∧
    (∃ (r : Fin 32) (start : Nat) (s : State), s.node.up = true ∧ (rgOn (s.node.rgRec r.val) = false ∨ s.node.acq = false ∨ s.node.isRun 9 = false ∨ s.node.roleOn 6 0 = false ∨ ((s.node.rg r.val).rendering.find? (fun y => y.1 == start) = none ∧ ((s.node.rg r.val).redraw = false ∨ (s.node.rg r.val).shown = none)))) ∧
    (∃ (r : Fin 32) (s : State), s.node.up = true ∧ ((s.node.rg r.val).req = none ∨ rgOn (s.node.rgRec r.val) = false ∨ s.node.dsp.bias ≠ 2 ∨ s.node.isRun 9 = false ∨ s.node.acq = false ∨ ((s.node.rg r.val).run = true ∧ rgPrio (s.node.rgRec r.val) = false))) :=
  ⟨⟨false, (wSt { wN with dsp := { bias := 2 } }), by unfold Takes; decide +kernel⟩,
   ⟨false, (wSt wN), by unfold Takes; decide +kernel⟩,
   ⟨31, 0, [], (wSt { wIm [] [wLeg 0x0E [⟨4, 32, List.replicate 32 (wB 32 [(4, 2), (6, 1), (8, 1)]), true⟩]] with dsp := { rgs := [(31, { rendering := [(0, [])] })] } }), by decide +kernel⟩,
   ⟨31, false, (wSt { wIm [] [wLeg 0x0E [⟨4, 32, List.replicate 32 (wB 32 [(4, 2), (6, 1), (8, 1)]), true⟩]] with dsp := { bias := 2, rgs := [(31, { req := some false })] } }), by decide +kernel⟩,
   ⟨31, 0, (wSt { wN with dsp := { bias := 2 } }), by decide +kernel⟩,
   ⟨31, (wSt { wN with dsp := { bias := 2 } }), by decide +kernel⟩⟩

theorem test_meets_DisplayFrames :
    (∃ (t : Nat) (s : State), s.node.up = true ∧ s.node.dsp.bias = 2 ∧ s.node.isRun 9 = true ∧ s.node.dsp.scans < (t - s.node.dsp.scanAt) * pnFrate s.node.panel / 250000000) ∧
    (∃ (t : Nat) (s : State), s.node.up = true ∧ (s.node.dsp.bias ≠ 2 ∨ s.node.isRun 9 = false ∨ (t - s.node.dsp.scanAt) * pnFrate s.node.panel / 250000000 ≤ s.node.dsp.scans)) :=
  ⟨⟨(10 ^ 9), (wSt { wIm [] [wLeg 0x0E [⟨1, 64, [wB 64 [(6, 10)]], true⟩]] with dsp := { bias := 2 } }), by decide +kernel⟩,
   ⟨0, (wSt { wN with dsp := { bias := 2 } }), by decide +kernel⟩⟩

theorem test_meets_BiasRails :
    (∃ (s : State), Takes s 0x7404 ∧ s.node.acq = true ∧ s.node.hasLeg 0x0E = true ∧ s.node.dsp.bias ≠ 1 ∧ s.node.dsp.bias ≠ 2) ∧
    (∃ (s : State), Takes s 0x7404 ∧ (s.node.acq = false ∨ s.node.dsp.bias = 1 ∨ s.node.dsp.bias = 2)) ∧
    (∃ (s : State), Takes s 0x7404 ∧ s.node.acq = true ∧ s.node.dsp.bias = 1) ∧
    (∃ (s : State), Takes s 0x7404 ∧ s.node.acq = true ∧ s.node.dsp.bias = 2) ∧
    (∃ (t : Nat) (s : State), s.node.up = true ∧ s.node.dsp.bias = 1 ∧ s.node.isRun 9 = true ∧ s.node.dsp.riseAt + 500000 * (s.node.dsp.riseStep + 1) ≤ t) ∧
    (∃ (s : State), s.node.up = true ∧ (s.node.dsp.bias = 1 ∨ s.node.dsp.bias = 2)) ∧
    (∃ (s : State), s.node.up = true ∧ s.node.dsp.dis = 1) ∧
    (∃ (s : State), s.node.up = true ∧ s.node.dsp.dis = 2) ∧
    (∃ (s : State), s.node.up = true ∧ s.node.dsp.dis = 3) ∧
    (∃ (s : State), s.node.up = true ∧ s.node.dsp.dis = 4 ∧ s.node.dsp.want = false) ∧
    (∃ (s : State), Takes s 0x7404 ∧ s.node.acq = true ∧ s.node.hasLeg 0x0E = false ∧ s.node.dsp.bias ≠ 1 ∧ s.node.dsp.bias ≠ 2) ∧
    (∃ (s : State), Takes s 0x7404 ∧ s.node.acq = true ∧ s.node.dsp.bias ≠ 1 ∧ s.node.dsp.bias ≠ 2) ∧
    (∃ (s : State), Takes s 0x7404 ∧ s.node.acq = false) ∧
    (∃ (t : Nat) (s : State), s.node.up = true ∧ (s.node.dsp.bias ≠ 1 ∨ s.node.isRun 9 = false ∨ t < s.node.dsp.riseAt + 500000 * (s.node.dsp.riseStep + 1))) ∧
    (∃ (s : State), s.node.up = true ∧ s.node.dsp.bias ≠ 1 ∧ s.node.dsp.bias ≠ 2) ∧
    (∃ (s : State), s.node.up = true ∧ s.node.dsp.dis = 4 ∧ s.node.dsp.want = true ∧ s.node.acq = true ∧ s.node.isRun 9 = true) ∧
    (∃ (s : State), s.node.up = true ∧ s.node.dsp.dis = 4 ∧ (s.node.acq = false ∨ s.node.isRun 9 = false)) ∧
    (∃ (s : State), s.node.up = true ∧ (s.node.dsp.dis = 0 ∨ 4 < s.node.dsp.dis)) :=
  ⟨⟨(wSt (wIm [] [wLeg 0x0E [⟨4, 32, List.replicate 32 (wB 32 [(4, 2), (6, 1), (8, 1)]), true⟩]])), by unfold Takes; decide +kernel⟩,
   ⟨(wSt { wN with dsp := { bias := 1 } }), by unfold Takes; decide +kernel⟩,
   ⟨(wSt { wN with dsp := { bias := 1 } }), by unfold Takes; decide +kernel⟩,
   ⟨(wSt { wN with dsp := { bias := 2 } }), by unfold Takes; decide +kernel⟩,
   ⟨500000, (wSt { wN with dsp := { bias := 1 } }), by decide +kernel⟩,
   ⟨(wSt { wN with dsp := { bias := 1 } }), by decide +kernel⟩,
   ⟨(wSt { wN with dsp := { dis := 1 } }), by decide +kernel⟩,
   ⟨(wSt { wN with dsp := { dis := 2 } }), by decide +kernel⟩,
   ⟨(wSt { wN with dsp := { dis := 3 } }), by decide +kernel⟩,
   ⟨(wSt { wN with dsp := { dis := 4 } }), by decide +kernel⟩,
   ⟨(wSt { wN with dsp := {} }), by unfold Takes; decide +kernel⟩,
   ⟨(wSt { wN with dsp := {} }), by unfold Takes; decide +kernel⟩,
   ⟨(wSt { wN with dev := { wN.dev with st := .boot } }), by unfold Takes; decide +kernel⟩,
   ⟨0, (wSt { wN with dsp := {} }), by decide +kernel⟩,
   ⟨(wSt { wN with dsp := {} }), by decide +kernel⟩,
   ⟨(wSt { wN with dsp := { dis := 4, want := true } }), by decide +kernel⟩,
   ⟨(wSt { wN with dev := { wN.dev with st := .boot }, dsp := { dis := 4 } }), by decide +kernel⟩,
   ⟨(wSt { wN with dsp := {} }), by decide +kernel⟩⟩

theorem test_meets_LinkAndRoles :
    (∃ (s : State), s.node.up = true ∧ s.node.straitOn = true) ∧
    (∃ (s : State), s.node.up = true ∧ s.node.straitOn = true) ∧
    (∃ (s : State), s.node.up = true ∧ s.node.dup.lane0 = true) ∧
    (∃ (s : State), s.node.up = true ∧ s.node.dup.lane1 = true) ∧
    (∃ (t : Nat) (s : State), s.node.up = true ∧ s.node.islSt 8 = .run ∧ s.node.dup.lost = false ∧ s.node.dup.lane0 = false ∧ s.node.dup.lane1 = false ∧ max s.node.dup.last0 s.node.dup.last1 + 62500 ≤ t) ∧
    (∃ (lane : Bool) (s : State), s.node.up = true ∧ s.node.straitOn = true ∧ (if lane then s.node.dup.slErr1 else s.node.dup.slErr0) < 0xFFFF) ∧
    (∃ (t : Nat) (s : State), s.node.dev.st = .boot ∧ s.node.dev.pinLow = false ∧ s.node.dup.waitHello = true ∧ 12500000 ≤ t) ∧
    (∃ (a : Nat) (t : Nat) (s : State), s.node.up = true ∧ s.node.dup.findAt = some a ∧ a ≤ t) ∧
    (∃ (s : State), s.node.up = true ∧ s.node.straitOn = false) ∧
    (∃ (lane : Bool) (s : State), s.node.up = true ∧ (if lane then s.node.dup.lane1 else s.node.dup.lane0) = false) ∧
    (∃ (lane : Bool) (s : State), s.node.up = true ∧ s.node.straitOn = true ∧ (if lane then s.node.dup.slErr1 else s.node.dup.slErr0) = 0xFFFF) ∧
    (∃ (t : Nat) (s : State), s.node.up = true ∧ (s.node.dup.lost = true ∨ s.node.dup.lane0 = true ∨ s.node.dup.lane1 = true ∨ t < max s.node.dup.last0 s.node.dup.last1 + 62500)) ∧
    (∃ (t : Nat) (s : State), s.node.up = true ∧ (s.node.dev.st ≠ .boot ∨ s.node.dup.waitHello = false ∨ t < 12500000)) ∧
    (∃ (t : Nat) (s : State), s.node.up = true ∧ s.node.dup.findAt.all (fun a => decide (t < a)) = true) :=
  ⟨⟨(wSt wN), by decide +kernel⟩,
   ⟨(wSt wN), by decide +kernel⟩,
   ⟨(wSt { wN with dup := { lane0 := true } }), by decide +kernel⟩,
   ⟨(wSt { wN with dup := { lane1 := true } }), by decide +kernel⟩,
   ⟨62500, (wSt { wN with dup := { lost := false } }), by decide +kernel⟩,
   ⟨false, (wSt wN), by decide +kernel⟩,
   ⟨12500000, { node := { dup := { waitHello := true } } }, by decide +kernel⟩,
   ⟨0, 0, (wSt { wN with dup := { findAt := some 0 } }), by decide +kernel⟩,
   ⟨(wSt { wN with isl := { wN.isl with states := List.replicate 12 .off } }), by decide +kernel⟩,
   ⟨false, (wSt wN), by decide +kernel⟩,
   ⟨false, (wSt { wN with dup := { slErr0 := 0xFFFF } }), by decide +kernel⟩,
   ⟨0, (wSt { wN with dup := { lost := true } }), by decide +kernel⟩,
   ⟨0, (wSt { wN with dup := { waitHello := false } }), by decide +kernel⟩,
   ⟨0, (wSt wN), by decide +kernel⟩⟩

theorem test_meets_PartnerData :
    (∃ (m : Mirror) (s : State), s.node.up = true ∧ s.node.straitOn = true ∧ s.node.dup.role = .standby ∧ diverges m s.node = false) ∧
    (∃ (m : Mirror) (s : State), s.node.up = true ∧ s.node.straitOn = true ∧ s.node.dup.role = .standby ∧ diverges m s.node = true) ∧
    (∃ (s : State), s.node.up = true ∧ s.node.straitOn = true ∧ s.node.dup.role = .standby) ∧
    (∃ (s : State) (k : Fin 32), s.node.up = true ∧ s.node.straitOn = true ∧ s.node.dup.role = .standby ∧ doSrc (s.node.recOf 0x0A k.val) = 0) ∧
    (∃ (s : State) (k : Fin 16), s.node.up = true ∧ s.node.straitOn = true ∧ s.node.dup.role = .standby ∧ loSrc (s.node.recOf 5 k.val) = 0) ∧
    (∃ (s : State) (k : Fin 8), s.node.up = true ∧ s.node.straitOn = true ∧ s.node.dup.role = .standby ∧ poSrc (s.node.recOf 0x0F k.val) = 0) ∧
    (∃ (s : State), s.node.up = true ∧ s.node.straitOn = true ∧ s.node.dup.role = .standby) ∧
    (∃ (s : State), s.node.up = true ∧ s.node.straitOn = true ∧ s.node.dup.role = .standby) ∧
    (∃ (s : State), s.node.up = true ∧ s.node.straitOn = true ∧ s.node.dup.role = .standby) ∧
    (∃ (s : State) (bs : Bytes) (g : Image) (h : Image), s.node.up = true ∧ s.node.dev.st = .boot ∧ s.node.ld.sel = .partner ∧ loadImage bs = .ok g ∧ verifyImage s.node.ld.lock g = .ok h) ∧
    (∃ (s : State), s.node.up = true ∧ s.node.dev.st = .boot ∧ s.node.ld.sel = .partner) ∧
    (∃ (s : State), s.node.up = true ∧ (s.node.dev.st = .load ∨ s.node.dev.st = .verify ∨ s.node.dev.st = .calibrate)) ∧
    (∃ (s : State), s.node.up = true ∧ s.node.straitOn = true ∧ linkUp s.node = true ∧ s.node.dup.role ≠ .standby ∧ s.node.isRun 5 = true) ∧
    (∃ (s : State) (p : HostPort) (r : List FwdOrg), s.node.up = true ∧ s.node.straitOn = true ∧ linkUp s.node = true ∧ s.node.net.fwds = .port p :: r) ∧
    (∃ (s : State), s.node.up = true ∧ (s.node.straitOn = false ∨ linkUp s.node = false)) ∧
    (∃ (s : State), s.node.up = true ∧ (s.node.straitOn = false ∨ s.node.dup.role ≠ .standby)) ∧
    (∃ (bs : Bytes) (e : RmFail) (s : State), s.node.up = true ∧ s.node.dev.st = .boot ∧ s.node.ld.sel = .partner ∧ loadImage bs = .error e) ∧
    (∃ (bs : Bytes) (e : RmFail) (s : State) (g : Image), s.node.up = true ∧ s.node.dev.st = .boot ∧ s.node.ld.sel = .partner ∧ loadImage bs = .ok g ∧ verifyImage s.node.ld.lock g = .error e) ∧
    (∃ (s : State), s.node.up = true ∧ (s.node.dev.st ≠ .boot ∨ s.node.ld.sel ≠ .partner)) ∧
    (∃ (s : State), s.node.up = true ∧ s.node.dev.st ≠ .load ∧ s.node.dev.st ≠ .verify ∧ s.node.dev.st ≠ .calibrate) ∧
    (∃ (s : State) (k : Fin 32), s.node.up = true ∧ s.node.straitOn = true ∧ s.node.dup.role = .standby ∧ doSrc (s.node.recOf 0x0A k.val) = 1) ∧
    (∃ (s : State) (k : Fin 32), s.node.up = true ∧ s.node.straitOn = true ∧ s.node.dup.role = .standby ∧ doSrc (s.node.recOf 0x0A k.val) = 2) ∧
    (∃ (s : State) (k : Fin 16), s.node.up = true ∧ s.node.straitOn = true ∧ s.node.dup.role = .standby ∧ loSrc (s.node.recOf 5 k.val) = 1) ∧
    (∃ (s : State) (k : Fin 8), s.node.up = true ∧ s.node.straitOn = true ∧ s.node.dup.role = .standby ∧ poSrc (s.node.recOf 0x0F k.val) = 1) ∧
    (∃ (s : State), s.node.up = true ∧ s.node.straitOn = true ∧ linkUp s.node = true) ∧
    (∃ (s : State), s.node.up = true ∧ s.node.straitOn = true ∧ linkUp s.node = true ∧ s.node.net.fwds = []) :=
  ⟨⟨⟨0, [], [], {}, [], [], 0#32, []⟩, (wSt { wN with dup := { role := .standby } }), by decide +kernel⟩,
   ⟨⟨0, [(0x2FC0, { value := 0x40000000#32, q := 1#8, has := true })], [], {}, [], [], 0#32, []⟩, (wSt { wIm [wCh 1 63 [(8, 1)]] [] with dup := { role := .standby }, mir := { shadow := [(0x2FC0, { value := 0#32, q := 1#8, has := true })] } }), by decide +kernel⟩,
   ⟨(wSt { wN with dup := { role := .standby } }), by decide +kernel⟩,
   ⟨(wSt { wN with dup := { role := .standby } }), 31, by decide +kernel⟩,
   ⟨(wSt { wN with dup := { role := .standby } }), 15, by decide +kernel⟩,
   ⟨(wSt { wN with dup := { role := .standby } }), 7, by decide +kernel⟩,
   ⟨(wSt { wN with dup := { role := .standby } }), by decide +kernel⟩,
   ⟨(wSt { wN with dup := { role := .standby } }), by decide +kernel⟩,
   ⟨(wSt { wN with dup := { role := .standby } }), by decide +kernel⟩,
   ⟨{ node := { ld := { sel := .partner } } }, wBytes, wSmall, wVer, by decide +kernel⟩,
   ⟨{ node := { ld := { sel := .partner } } }, by decide +kernel⟩,
   ⟨(wSt { wN with dev := { st := .load } }), by decide +kernel⟩,
   ⟨(wSt (wPair .active)), by decide +kernel⟩,
   ⟨(wSt { wPair .active with net := { fwds := [.port .m5] } }), .m5, [], by decide +kernel⟩,
   ⟨(wSt { wN with isl := { wN.isl with states := List.replicate 12 .off } }), by decide +kernel⟩,
   ⟨(wSt wN), by decide +kernel⟩,
   ⟨[], ⟨1, 0, 0⟩, { node := { ld := { sel := .partner } } }, by decide +kernel⟩,
   ⟨wBytes, ⟨15, 16, 0⟩, { node := { ld := { sel := .partner, lock := some [] } } }, wSmall, by decide +kernel⟩,
   ⟨(wSt wN), by decide +kernel⟩,
   ⟨(wSt wN), by decide +kernel⟩,
   ⟨(wSt { wIm [wCh 0x0A 31 [(9, 1)]] [] with dup := { role := .standby } }), 31, by decide +kernel⟩,
   ⟨(wSt { wIm [wCh 0x0A 31 [(9, 2)]] [] with dup := { role := .standby } }), 31, by decide +kernel⟩,
   ⟨(wSt { wIm [wCh 5 15 [(11, 1)]] [] with dup := { role := .standby } }), 15, by decide +kernel⟩,
   ⟨(wSt { wIm [wCh 0x0F 7 [(10, 1)]] [] with dup := { role := .standby } }), 7, by decide +kernel⟩,
   ⟨(wSt (wPair .active)), by decide +kernel⟩,
   ⟨(wSt (wPair .active)), by decide +kernel⟩⟩

theorem test_meets_TakingControl :
    (∃ (t : Nat) (s : State), s.node.up = true ∧ s.node.dup.role = .standby ∧ s.node.straitOn = true ∧ eligible (s.node.advance t) = true) ∧
    (∃ (t : Nat) (s : State), s.node.up = true ∧ s.node.dup.role = .standby ∧ s.node.straitOn = true ∧ eligible (s.node.advance t) = false) ∧
    (∃ (a : Nat) (t : Nat) (s : State), s.node.up = true ∧ a ≤ t ∧ s.node.dup.overlap = some a) ∧
    (∃ (a : Nat) (t : Nat) (s : State), s.node.up = true ∧ a ≤ t ∧ s.node.dup.crossRamp = some a) ∧
    (∃ (s : State), s.node.up = true) ∧
    (∃ (t : Nat) (s : State), s.node.up = true ∧ s.node.dup.latched = true ∧ s.node.dup.latchAt + 1250000 ≤ t) ∧
    (∃ (s : State), s.node.up = true ∧ s.node.straitOn = true ∧ s.node.dup.role ≠ .standby) ∧
    (∃ (t : Nat) (s : State), s.node.up = true ∧ s.node.dup.overlap.all (fun a => decide (t < a)) = true) ∧
    (∃ (t : Nat) (s : State), s.node.up = true ∧ s.node.dup.crossRamp.all (fun a => decide (t < a)) = true) ∧
    (∃ (t : Nat) (s : State), s.node.up = true ∧ (s.node.dup.latched = false ∨ t < s.node.dup.latchAt + 1250000)) ∧
    (∃ (s : State), s.node.up = true ∧ s.node.straitOn = false) ∧
    (∃ (s : State), s.node.up = true ∧ s.node.dup.role ≠ .standby) :=
  ⟨⟨0, (wSt (wElig .standby)), by decide +kernel⟩,
   ⟨0, (wSt (wPair .standby)), by decide +kernel⟩,
   ⟨0, 0, (wSt { wN with dup := { overlap := some 0 } }), by decide +kernel⟩,
   ⟨0, 0, (wSt { wN with dup := { crossRamp := some 0 } }), by decide +kernel⟩,
   ⟨(wSt wN), by decide +kernel⟩,
   ⟨1250000, (wSt { wN with dup := { latched := true } }), by decide +kernel⟩,
   ⟨(wSt wN), by decide +kernel⟩,
   ⟨0, (wSt wN), by decide +kernel⟩,
   ⟨0, (wSt wN), by decide +kernel⟩,
   ⟨0, (wSt wN), by decide +kernel⟩,
   ⟨(wSt { wN with isl := { wN.isl with states := List.replicate 12 .off } }), by decide +kernel⟩,
   ⟨(wSt wN), by decide +kernel⟩⟩

theorem test_meets_StandingDown :
    (∃ (s : State), s.node.up = true ∧ (s.node.acq = true ∨ s.node.dev.st = .calibrate) ∧ s.node.pair = false) ∧
    (∃ (s : State), s.node.up = true ∧ (s.node.acq = true ∨ s.node.dev.st = .calibrate) ∧ s.node.pair = true ∧ (s.node.dup.role = .standby ∨ (s.node.dup.role = .active ∧ s.node.dup.pElig = true))) ∧
    (∃ (s : State), s.node.up = true ∧ (s.node.acq = true ∨ s.node.dev.st = .calibrate)) ∧
    (∃ (w : Nat) (s : State), s.node.up = true ∧ (s.node.acq = true ∨ s.node.dev.st = .calibrate ∨ s.node.dev.st = .safe) ∧ s.node.dtr.stest ≠ 0xFFFFFFFF#32 ∧ 16 ≤ w) ∧
    (∃ (w : Nat) (s : State), s.node.up = true ∧ (s.node.acq = true ∨ s.node.dev.st = .calibrate ∨ s.node.dev.st = .safe) ∧ s.node.dtr.stest ≠ 0xFFFFFFFF#32 ∧ w < 16 ∧ s.node.applied = true ∧ s.node.isl.roles.length = 16 ∧ (s.node.isl.roles.getD w 0#8).toNat < 0xE0) ∧
    (∃ (s : State), s.node.up = true ∧ (s.node.acq = true ∨ s.node.dev.st = .calibrate ∨ s.node.dev.st = .safe) ∧ s.node.dtr.stest ≠ 0xFFFFFFFF#32) ∧
    (∃ (s : State), s.node.up = true ∧ (s.node.acq = true ∨ s.node.dev.st = .calibrate) ∧ s.node.pair = true ∧ s.node.dup.role = .active ∧ s.node.dup.pElig = false) ∧
    (∃ (s : State), s.node.up = true ∧ (s.node.acq = true ∨ s.node.dev.st = .calibrate) ∧ s.node.pair = true ∧ s.node.dup.role = .alone) ∧
    (∃ (s : State), s.node.up = true ∧ s.node.acq = false ∧ s.node.dev.st ≠ .calibrate) ∧
    (∃ (s : State), s.node.up = true ∧ s.node.acq = false ∧ s.node.dev.st ≠ .calibrate ∧ s.node.dev.st ≠ .safe) ∧
    (∃ (s : State) (w : Nat), s.node.up = true ∧ (s.node.acq = true ∨ s.node.dev.st = .calibrate ∨ s.node.dev.st = .safe) ∧ 16 ≤ w ∧ s.node.dtr.stest = 0xFFFFFFFF#32) :=
  ⟨⟨(wSt wN), by decide +kernel⟩,
   ⟨(wSt (wPair .standby)), by decide +kernel⟩,
   ⟨(wSt wN), by decide +kernel⟩,
   ⟨16, (wSt wN), by decide +kernel⟩,
   ⟨0, (wSt wN), by decide +kernel⟩,
   ⟨(wSt wN), by decide +kernel⟩,
   ⟨(wSt { wPair .active with dup := { role := .active } }), by decide +kernel⟩,
   ⟨(wSt { wPair .active with dup := { role := .alone } }), by decide +kernel⟩,
   ⟨(wSt { wN with dev := { st := .load } }), by decide +kernel⟩,
   ⟨(wSt { wN with dev := { st := .load } }), by decide +kernel⟩,
   ⟨(wSt { wN with dtr := { stest := 0xFFFFFFFF#32 } }), 16, by decide +kernel⟩⟩

theorem test_meets_PlannedSwaps :
    (∃ (t : Nat) (s : State) (b : Bool) (c : Nat), s.node.up = true ∧ s.node.straitOn = true ∧ s.node.pair = true ∧ swapOk (s.node.advance t) c = true ∧ b = false ∧ s.node.dup.plan = none) ∧
    (∃ (t : Nat) (s : State) (b : Bool) (c : Nat), s.node.up = true ∧ s.node.straitOn = true ∧ s.node.pair = true ∧ (swapOk (s.node.advance t) c = false ∨ b = true ∨ s.node.dup.plan ≠ none)) ∧
    (∃ (s : State) (q : Bool), s.node.up = true ∧ s.node.straitOn = true ∧ s.node.pair = true ∧ s.node.dup.proposed = some q) ∧
    (∃ (t : Nat) (s : State), Takes s 0x7804 ∧ s.node.pair = true ∧ s.node.dup.role ≠ .alone ∧ s.node.dup.plan = none ∧ s.node.dup.proposed = none ∧ swapOk (s.node.advance t) (dupCleanT s.node) = true) ∧
    (∃ (t : Nat) (s : State), Takes s 0x7804 ∧ s.node.pair = true ∧ s.node.dup.role ≠ .alone ∧ s.node.dup.plan = none ∧ s.node.dup.proposed = none ∧ swapOk (s.node.advance t) (dupCleanT s.node) = false) ∧
    (∃ (s : State), Takes s 0x7804 ∧ (s.node.pair = false ∨ s.node.dup.role = .alone)) ∧
    (∃ (s : State), Takes s 0x7804 ∧ s.node.pair = true ∧ linkUp s.node = true) ∧
    (∃ (s : State), Takes s 0x7804 ∧ (s.node.pair = false ∨ linkUp s.node = false)) ∧
    (∃ (pl : SwapPlan) (t : Nat) (s : State), s.node.up = true ∧ s.node.dup.plan = some pl ∧ pl.outgoing = true ∧ pl.at_ ≤ t ∧ s.node.dup.role = .active ∧ s.node.dup.pElig = true) ∧
    (∃ (t : Nat) (s : State), s.node.up = true ∧ reclaimDue (s.node.advance t) = true ∧ dupReclaim s.node = 1 ∧ s.node.dup.plan = none
      ∧ s.node.dup.proposed = none ∧ s.node.dup.hello = true ∧ svBusy s.node = false) ∧
    (∃ (a : Nat) (t : Nat) (s : State), s.node.up = true ∧ s.node.dup.rejoinAt = some a ∧ a ≤ t) ∧
    (∃ (t : Nat) (s : State), s.node.up = true ∧ peerResetOk (s.node.advance t) = true) ∧
    (∃ (t : Nat) (s : State), s.node.up = true ∧ peerResetOk (s.node.advance t) = false) ∧
    (∃ (s : State), Takes s 0x7804 ∧ s.node.pair = true ∧ s.node.dup.role ≠ .alone ∧ (s.node.dup.plan ≠ none ∨ s.node.dup.proposed ≠ none)) ∧
    (∃ (t : Nat) (s : State) (pl : SwapPlan), s.node.up = true ∧ s.node.dup.plan = some pl ∧ pl.outgoing = true ∧ pl.at_ ≤ t ∧ (s.node.dup.role ≠ .active ∨ s.node.dup.pElig = false)) ∧
    (∃ (t : Nat) (s : State), s.node.up = true ∧ s.node.dup.plan.all (fun x => !x.outgoing || decide (t < x.at_)) = true) ∧
    (∃ (t : Nat) (s : State), s.node.up = true ∧ (reclaimDue (s.node.advance t) = false ∨ dupReclaim s.node ≠ 1)) ∧
    (∃ (t : Nat) (s : State), s.node.up = true ∧ s.node.dup.rejoinAt.all (fun a => decide (t < a)) = true) ∧
    (∃ (s : State), s.node.up = true ∧ (s.node.straitOn = false ∨ s.node.pair = false)) ∧
    (∃ (s : State), s.node.up = true ∧ s.node.dup.proposed = none) ∧
    (∃ (s : State), s.node.up = true ∧ s.node.dup.proposed = none) :=
  ⟨⟨0, (wSt (wPair .active)), false, 0, by decide +kernel⟩,
   ⟨0, (wSt (wPair .active)), true, 0, by decide +kernel⟩,
   ⟨(wSt { wPair .active with dup := { proposed := some false } }), false, by decide +kernel⟩,
   ⟨0, (wSt (wPair .active)), by unfold Takes; decide +kernel⟩,
   ⟨0, (wSt { wPair .active with dup := { role := .active } }), by unfold Takes; decide +kernel⟩,
   ⟨(wSt wN), by unfold Takes; decide +kernel⟩,
   ⟨(wSt (wPair .active)), by unfold Takes; decide +kernel⟩,
   ⟨(wSt wN), by unfold Takes; decide +kernel⟩,
   ⟨⟨0, true, false⟩, 0, (wSt { wPair .active with dup := { role := .active, pElig := true, plan := some ⟨0, true, false⟩ } }), by decide +kernel⟩,
   wReclaim,
   ⟨0, 0, (wSt { wN with dup := { rejoinAt := some 0 } }), by decide +kernel⟩,
   ⟨0, (wSt (wPair .standby [(3, 2)])), by decide +kernel⟩,
   ⟨0, (wSt wN), by decide +kernel⟩,
   ⟨(wSt { wPair .active with dup := { role := .active, plan := some ⟨0, true, false⟩ } }), by unfold Takes; decide +kernel⟩,
   ⟨0, (wSt { wN with dup := { plan := some ⟨0, true, false⟩ } }), ⟨0, true, false⟩, by decide +kernel⟩,
   ⟨0, (wSt { wN with dup := { plan := some ⟨0, false, false⟩ } }), by decide +kernel⟩,
   ⟨0, (wSt wN), by decide +kernel⟩,
   ⟨0, (wSt wN), by decide +kernel⟩,
   ⟨(wSt wN), by decide +kernel⟩,
   ⟨(wSt wN), by decide +kernel⟩,
   ⟨(wSt wN), by decide +kernel⟩⟩

theorem test_meets_Firmware :
    (∃ (s : State), Takes s 0x7844 ∧ s.node.dup.fwRun = false) ∧
    (∃ (s : State), Takes s 0x7844 ∧ s.node.dup.fwRun = true) ∧
    (∃ (img : Bytes) (s : State), s.node.up = true ∧ s.node.straitOn = true ∧ 2 ≤ s.node.dup.pver ∧ s.node.dup.fwRun = false ∧ img.length ≤ 0x800000) ∧
    (∃ (s : State), Takes s 0x7804 ∧ s.node.dup.fwStat ∈ [1, 4, 5] ∧ 4 < (memBytes 0#8 s.mem.fw 0 s.node.dup.fwEnd).length ∧ crc32 ((memBytes 0#8 s.mem.fw 0 s.node.dup.fwEnd).take ((memBytes 0#8 s.mem.fw 0 s.node.dup.fwEnd).length - 4)) = w32 (memBytes 0#8 s.mem.fw 0 s.node.dup.fwEnd) ((memBytes 0#8 s.mem.fw 0 s.node.dup.fwEnd).length - 4)) ∧
    (∃ (s : State), Takes s 0x7804 ∧ s.node.dup.fwStat ∈ [1, 4, 5] ∧ (¬ (4 < (memBytes 0#8 s.mem.fw 0 s.node.dup.fwEnd).length ∧ crc32 ((memBytes 0#8 s.mem.fw 0 s.node.dup.fwEnd).take ((memBytes 0#8 s.mem.fw 0 s.node.dup.fwEnd).length - 4)) = w32 (memBytes 0#8 s.mem.fw 0 s.node.dup.fwEnd) ((memBytes 0#8 s.mem.fw 0 s.node.dup.fwEnd).length - 4)))) ∧
    (∃ (s : State), Takes s 0x7804 ∧ s.node.dup.fwStat ∉ [1, 4, 5]) ∧
    (∃ (s : State), Takes s 0x7804 ∧ s.node.dup.fwStat = 3 ∧ (s.node.carries = false ∨ s.node.running = false)) ∧
    (∃ (s : State), Takes s 0x7804 ∧ (s.node.dup.fwStat ≠ 3 ∨ (s.node.carries = true ∧ s.node.running = true))) ∧
    (∃ (s : State), s.node.up = true ∧ s.node.dup.fwRun = true) ∧
    (∃ (img : Bytes) (s : State), s.node.up = true ∧ (s.node.straitOn = false ∨ s.node.dup.pver < 2 ∨ s.node.dup.fwRun = true ∨ 0x800000 < img.length)) ∧
    (∃ (s : State), s.node.up = true ∧ s.node.dup.fwRun = false) :=
  ⟨⟨(wSt wN), by unfold Takes; decide +kernel⟩,
   ⟨(wSt { wN with dup := { fwRun := true } }), by unfold Takes; decide +kernel⟩,
   ⟨[], (wSt { wN with dup := { pver := 2 } }), by decide +kernel⟩,
   ⟨{ node := { wN with dup := { fwEnd := 8, fwStat := 1 } }, mem := { fw := [(4, 0x1C#8), (5, 0xDF#8), (6, 0x44#8), (7, 0x21#8)] } }, by unfold Takes; decide +kernel⟩,
   ⟨(wSt { wN with dup := { fwEnd := 8, fwStat := 4 } }), by unfold Takes; decide +kernel⟩,
   ⟨(wSt wN), by unfold Takes; decide +kernel⟩,
   ⟨(wSt { wN with dup := { fwStat := 3 }, dev := { st := .ready } }), by unfold Takes; decide +kernel⟩,
   ⟨(wSt wN), by unfold Takes; decide +kernel⟩,
   ⟨(wSt { wN with dup := { fwRun := true } }), by decide +kernel⟩,
   ⟨[], (wSt wN), by decide +kernel⟩,
   ⟨(wSt wN), by decide +kernel⟩⟩

theorem test_meets_CalendarSets :
    (∃ (s : State), Takes s 0x1440 ∧ ((s.node.clk).tsetHi.toNat * 2 ^ 32 + (s.node.clk).tsetLo.toNat) ≤ 0x02F060597F) ∧
    (∃ (s : State), Takes s 0x1440 ∧ 0x02F060597F < ((s.node.clk).tsetHi.toNat * 2 ^ 32 + (s.node.clk).tsetLo.toNat)) ∧
    (∃ (s : State) (v : Int) (y : Nat), Takes s 0x1440 ∧ tsetDecode (s.node.clk).tsetTime (s.node.clk).tsetDate = some (v, y) ∧ 0 ≤ (v - (if clkLocal s.node then (s.node.clk).ofs * 900 else 0)) ∧ (v - (if clkLocal s.node then (s.node.clk).ofs * 900 else 0)) ≤ 0x02F060597F ∧ (clkLocal s.node = true → 1999 ≤ y ∧ y ≤ 2400)) ∧
    (∃ (s : State), Takes s 0x1440 ∧ tsetDecode (s.node.clk).tsetTime (s.node.clk).tsetDate = none) ∧
    (∃ (s : State) (arg : Byte), Takes s 0x1440 ∧ (-56 ≤ sgn 8 arg.toNat ∧ sgn 8 arg.toNat ≤ 56)) ∧
    (∃ (s : State) (arg : Byte), Takes s 0x1440 ∧ (¬ (-56 ≤ sgn 8 arg.toNat ∧ sgn 8 arg.toNat ≤ 56))) ∧
    (∃ (s : State), Takes s 0x1440 ∧ (s.node.clk).dst = false ∧ (-60 ≤ (s.node.clk).ofs) ∧ (s.node.clk).ofs ≤ 52) ∧
    (∃ (s : State), Takes s 0x1440 ∧ ((s.node.clk).dst = true ∨ 52 < (s.node.clk).ofs ∨ (s.node.clk).ofs < -60)) ∧
    (∃ (s : State), Takes s 0x1440 ∧ (s.node.clk).dst = true ∧ (-52 ≤ (s.node.clk).ofs) ∧ (s.node.clk).ofs ≤ 60) ∧
    (∃ (s : State), Takes s 0x1440 ∧ ((s.node.clk).dst = false ∨ (s.node.clk).ofs < -52 ∨ 60 < (s.node.clk).ofs)) ∧
    (∃ (s : State) (v : Int) (y : Nat), Takes s 0x1440 ∧ tsetDecode (s.node.clk).tsetTime (s.node.clk).tsetDate = some (v, y) ∧ ((v - (if clkLocal s.node then (s.node.clk).ofs * 900 else 0)) < 0 ∨ 0x02F060597F < (v - (if clkLocal s.node then (s.node.clk).ofs * 900 else 0)) ∨ (clkLocal s.node = true ∧ (y < 1999 ∨ 2400 < y)))) :=
  ⟨⟨(wSt { wN with clk := { tsetHi := 2#32, tsetLo := 0xF060597F#32 } }), by unfold Takes; decide +kernel⟩,
   ⟨(wSt { wN with clk := { tsetHi := 2#32, tsetLo := 0xF0605980#32 } }), by unfold Takes; decide +kernel⟩,
   ⟨(wSt { wN with clk := { tsetDate := 0x20000101#32, tsetTime := 0x000001#32 } }), 1, 2000, by unfold Takes; decide +kernel⟩,
   ⟨(wSt { wN with clk := { tsetDate := 0x20000132#32 } }), by unfold Takes; decide +kernel⟩,
   ⟨(wSt wN), 0xC8#8, by unfold Takes; decide +kernel⟩,
   ⟨(wSt wN), 0xC7#8, by unfold Takes; decide +kernel⟩,
   ⟨(wSt { wN with clk := { ofs := 52 } }), by unfold Takes; decide +kernel⟩,
   ⟨(wSt { wN with clk := { ofs := 53 } }), by unfold Takes; decide +kernel⟩,
   ⟨(wSt { wN with clk := { dst := true, ofs := 60 } }), by unfold Takes; decide +kernel⟩,
   ⟨(wSt { wN with clk := { dst := true, ofs := -53 } }), by unfold Takes; decide +kernel⟩,
   ⟨(wSt { wN with clk := { tsetDate := 0x19991231#32 } }), -86400, 1999, by unfold Takes; decide +kernel⟩⟩

theorem test_meets_CalendarRuns :
    (∃ (s : State), s.node.clk.rangeEnd = false ∧ s.node.clk.secs < 0x02F060597F) ∧
    (∃ (s : State), s.node.clk.rangeEnd = false ∧ s.node.clk.secs = 0x02F060597F) ∧
    (∃ (s : State), s.node.up = true) ∧
    (∃ (s : State), s.node.clk.rangeEnd = true) :=
  ⟨⟨(wSt wN), by decide +kernel⟩,
   ⟨(wSt { wN with clk := { secs := 0x02F060597F } }), by decide +kernel⟩,
   ⟨(wSt wN), by decide +kernel⟩,
   ⟨(wSt { wN with clk := { rangeEnd := true } }), by decide +kernel⟩⟩

theorem test_meets_CoherentReads :
    (∃ (p : HostPort) (k : Fin 4) (s : State), Serves s (0x1400 + 4 * k.val) ∧ (tget {} s.node.clk.shadows (portCode p)).frozen = false) ∧
    (∃ (p : HostPort) (k : Fin 4) (t : Nat) (s : State), Serves s (0x1400 + 4 * k.val) ∧ (tget {} s.node.clk.shadows (portCode p)).frozen = true ∧ timeAfter s t < (tget {} s.node.clk.shadows (portCode p)).since + 500000) ∧
    (∃ (p : HostPort) (s : State), Serves s 0x1410 ∧ (tget {} s.node.clk.shadows (portCode p)).frozen = false) ∧
    (∃ (p : HostPort) (t : Nat) (s : State), Serves s 0x1410 ∧ (tget {} s.node.clk.shadows (portCode p)).frozen = true ∧ timeAfter s t < (tget {} s.node.clk.shadows (portCode p)).since + 500000) ∧
    (∃ (p : HostPort) (t : Nat) (s : State), s.node.up = true ∧ (tget {} s.node.clk.shadows (portCode p)).frozen = true ∧ (tget {} s.node.clk.shadows (portCode p)).since + 500000 ≤ timeAfter s t) ∧
    (∃ (p : HostPort) (k : Fin 4) (t : Nat) (s : State), Serves s (0x1400 + 4 * k.val) ∧ (tget {} s.node.clk.shadows (portCode p)).frozen = true ∧ (tget {} s.node.clk.shadows (portCode p)).since + 500000 ≤ timeAfter s t) ∧
    (∃ (p : HostPort) (t : Nat) (s : State), Serves s 0x1410 ∧ (tget {} s.node.clk.shadows (portCode p)).frozen = true ∧ (tget {} s.node.clk.shadows (portCode p)).since + 500000 ≤ timeAfter s t) ∧
    (∃ (p : HostPort) (t : Nat) (s : State), s.node.up = true ∧ ((tget {} s.node.clk.shadows (portCode p)).frozen = false ∨ timeAfter s t < (tget {} s.node.clk.shadows (portCode p)).since + 500000)) :=
  ⟨⟨.m5, 3, (wSt wN), by unfold Serves; decide +kernel⟩,
   ⟨.m5, 3, 499999, (wSt { wN with clk := { shadows := [(5, { frozen := true })] } }), by unfold Serves; decide +kernel⟩,
   ⟨.m5, (wSt wN), by unfold Serves; decide +kernel⟩,
   ⟨.m5, 499999, (wSt { wN with clk := { shadows := [(5, { frozen := true })] } }), by unfold Serves; decide +kernel⟩,
   ⟨.m5, 500000, (wSt { wN with clk := { shadows := [(5, { frozen := true })] } }), by decide +kernel⟩,
   ⟨.m5, 3, 500000, (wSt { wN with clk := { shadows := [(5, { frozen := true })] } }), by unfold Serves; decide +kernel⟩,
   ⟨.m5, 500000, (wSt { wN with clk := { shadows := [(5, { frozen := true })] } }), by unfold Serves; decide +kernel⟩,
   ⟨.m5, 0, (wSt wN), by decide +kernel⟩⟩

theorem test_meets_RecorderStatistics :
    (∃ (s : State), s.node.up = true) ∧
    (∃ (s : State), Serves s 0x1814) ∧
    (∃ (a : Nat) (t : Nat) (s : State), s.node.up = true ∧ s.node.rcd.runAt = some a ∧ a + startupW s.node ≤ timeAfter s t) ∧
    (∃ (a : Nat) (t : Nat) (s : State), s.node.up = true ∧ s.node.rcd.recovAt = some a ∧ a + recovW s.node ≤ timeAfter s t) ∧
    (∃ (a : Nat) (t : Nat) (s : State), s.node.up = true ∧ s.node.rcd.recovAt = some a ∧ timeAfter s t < a + recovW s.node) ∧
    (∃ (i : Fin 512) (t : Nat) (s : State), s.node.up = true ∧ planKind (s.node.planItem i.val) = 1 ∧ planPer (s.node.planItem i.val) ≠ 0 ∧ (wd (timeAfter s t / 250000)).toNat % planPer (s.node.planItem i.val) = 0 ∧ s.node.isRun 10 = true ∧ s.node.roleOn 8 0 = true ∧ qHas (resQ (s.node.res (planSrc (s.node.planItem i.val)))) qVALID = true ∧ tget none s.node.rcd.lastSeq i.val ≠ some (s.node.res (planSrc (s.node.planItem i.val))).seq ∧ (tget {} s.node.mram.items i.val).mem = (s.node.planItem i.val).take 12 ∧ planWin (s.node.planItem i.val) = 0 ∧ (tget {} s.node.mram.items i.val).cur = 0 ∧ (tget {} (tget {} s.node.mram.items i.val).slots 0).opened ≠ 0 ∧ (tget {} (tget {} s.node.mram.items i.val).slots 0).num < 0xFFFFFFFF ∧ tget 0 (tget {} (tget {} s.node.mram.items i.val).slots 0).bins (statBin (planLo (s.node.planItem i.val)) (planHi (s.node.planItem i.val)) (s.node.res (planSrc (s.node.planItem i.val))).value.toInt) < 0xFFFFFFFF) ∧
    (∃ (i : Fin 512) (t : Nat) (s : State), s.node.up = true ∧ (planKind (s.node.planItem i.val) = 1 ∨ planKind (s.node.planItem i.val) = 2) ∧ (tget {} s.node.mram.items i.val).mem = (s.node.planItem i.val).take 12 ∧ planWin (s.node.planItem i.val) ≠ 0 ∧ (tget {} s.node.mram.items i.val).cur ≠ 0 ∧ (tget {} s.node.mram.items i.val).cur ≤ 15 ∧ (tget {} (tget {} s.node.mram.items i.val).slots (tget {} s.node.mram.items i.val).cur).opened % 2 ^ 40 + planWin (s.node.planItem i.val) * 57600 ≤ opNow (s.node.advance t)) ∧
    (∃ (t : Nat) (s : State), s.node.up = true ∧ s.node.rcd.runAt.all (fun a => decide (timeAfter s t < a + startupW s.node)) = true) ∧
    (∃ (i : Fin 512) (t : Nat) (s : State), s.node.up = true ∧ (planKind (s.node.planItem i.val) = 1 ∧ planPer (s.node.planItem i.val) ≠ 0 ∧ (wd (timeAfter s t / 250000)).toNat % planPer (s.node.planItem i.val) = 0 ∧ s.node.isRun 10 = true ∧ s.node.roleOn 8 0 = true ∧ qHas (resQ (s.node.res (planSrc (s.node.planItem i.val)))) qVALID = true ∧ tget none s.node.rcd.lastSeq i.val ≠ some (s.node.res (planSrc (s.node.planItem i.val))).seq)) ∧
    (∃ (i : Fin 512) (t : Nat) (s : State), s.node.up = true ∧ (¬ (planKind (s.node.planItem i.val) = 1 ∧ planPer (s.node.planItem i.val) ≠ 0 ∧ (wd (timeAfter s t / 250000)).toNat % planPer (s.node.planItem i.val) = 0 ∧ s.node.isRun 10 = true ∧ s.node.roleOn 8 0 = true ∧ qHas (resQ (s.node.res (planSrc (s.node.planItem i.val)))) qVALID = true ∧ tget none s.node.rcd.lastSeq i.val ≠ some (s.node.res (planSrc (s.node.planItem i.val))).seq))) ∧
    (∃ (i : Fin 512) (t : Nat) (s : State), s.node.up = true ∧ ((planKind (s.node.planItem i.val) ≠ 1 ∧ planKind (s.node.planItem i.val) ≠ 2) ∨ (tget {} s.node.mram.items i.val).mem ≠ (s.node.planItem i.val).take 12 ∨ planWin (s.node.planItem i.val) = 0 ∨ (tget {} s.node.mram.items i.val).cur = 0 ∨ opNow (s.node.advance t) < (tget {} (tget {} s.node.mram.items i.val).slots (tget {} s.node.mram.items i.val).cur).opened % 2 ^ 40 + planWin (s.node.planItem i.val) * 57600)) :=
  ⟨⟨(wSt wN), by decide +kernel⟩,
   ⟨(wSt wN), by unfold Serves; decide +kernel⟩,
   ⟨0, (10 ^ 11), (wSt { wN with rcd := { runAt := some 0 } }), by decide +kernel⟩,
   ⟨0, (10 ^ 11), (wSt { wN with rcd := { recovAt := some 0 } }), by decide +kernel⟩,
   ⟨0, 0, (wSt { wN with rcd := { recovAt := some 0 } }), by decide +kernel⟩,
   ⟨511, 0, (wSt { wIm [] [wLeg 0x12 [⟨1, 16, List.replicate 512 (wB 16 [(0, 1), (3, 0x20), (8, 30), (12, 1)]), true⟩]] with jn := { store := [(0x2000, { value := 1#32, q := 1#8, has := true })] }, mram := { wN.mram with items := [(511, { mem := (wB 16 [(0, 1), (3, 0x20), (8, 30), (12, 1)]).take 12, slots := [(0, { opened := 1 })] })] } }), by decide +kernel⟩,
   ⟨511, (9 * 10 ^ 11), (wSt { wIm [] [wLeg 0x12 [⟨1, 16, List.replicate 512 (wB 16 [(0, 1), (1, 1), (3, 0x20), (8, 30), (12, 1)]), true⟩]] with mram := { wN.mram with items := [(511, { mem := (wB 16 [(0, 1), (1, 1), (3, 0x20), (8, 30), (12, 1)]).take 12, cur := 15 })] } }), by decide +kernel⟩,
   ⟨0, (wSt wN), by decide +kernel⟩,
   ⟨511, 0, (wSt { wIm [] [wLeg 0x12 [⟨1, 16, List.replicate 512 (wB 16 [(0, 1), (3, 0x20), (8, 30), (12, 1)]), true⟩]] with jn := { store := [(0x2000, { value := 1#32, q := 1#8, has := true })] } }), by decide +kernel⟩,
   ⟨511, 0, (wSt wN), by decide +kernel⟩,
   ⟨511, 0, (wSt wN), by decide +kernel⟩⟩

theorem test_meets_RecorderRing :
    (∃ (v : Word) (s : State), Takes s 0x1930 ∧ s.node.rcd.due = [] ∧ s.node.running = false ∧ s.node.terms = [] ∧ s.node.mram.ring.length < 23831 ∧ s.node.rcd.rateNum < 1000 ∧ 0x80 ≤ fld v 7 0 ∧ fld v 9 8 ≤ 2 ∧ fld v 31 24 ≤ 240) ∧
    (∃ (v : Word) (s : State), Takes s 0x1930 ∧ s.node.rcd.due = [] ∧ s.node.running = false ∧ s.node.terms = [] ∧ s.node.mram.ring.length < 23831 ∧ s.node.rcd.rateNum < 1000 ∧ (fld v 7 0 < 0x80 ∨ 2 < fld v 9 8 ∨ 240 < fld v 31 24)) ∧
    (∃ (i : Nat) (r : Bytes) (t : Nat) (s : State), s.node.up = true ∧ s.node.rcd.due = [] ∧ s.node.running = false ∧ s.node.terms = [] ∧ s.node.mram.ring.length < 23831 ∧ s.node.rcd.rateNum < 1000 ∧ s.node.isRun 10 = true ∧ s.node.roleOn 8 0 = true ∧ windowDue (s.node.advance t) = [(i, r)] ∧ s.node.rcd.winAt ≠ some (timeAfter s t / 250000)) ∧
    (∃ (v : Word) (s : State) (k : Nat) (r : RingRec), Takes s 0x1820 ∧ (k, r) ∈ s.node.mram.ring ∧ v ≤ r.seq ∧ ((∀ y ∈ s.node.mram.ring, v ≤ y.2.seq → y = (k, r) ∨ r.seq < y.2.seq))) ∧
    (∃ (v : Word) (s : State), Takes s 0x1820 ∧ (∀ y ∈ s.node.mram.ring, y.2.seq < v)) ∧
    (∃ (p : HostPort) (s : State) (w : Word), Serves s 0x1824 ∧ (s.node.port p).recLatch[(s.node.port p).recPos]? = some w) ∧
    (∃ (p : HostPort) (s : State), Serves s 0x1824 ∧ (s.node.port p).recLatch.length ≤ (s.node.port p).recPos) ∧
    (∃ (s : State), Takes s 0x1830) ∧
    (∃ (p : HostPort) (s : State) (w : Word), Serves s 0x1834 ∧ (s.node.port p).stLatch[(s.node.port p).stPos]? = some w) ∧
    (∃ (p : HostPort) (s : State), Serves s 0x1834 ∧ (s.node.port p).stLatch.length ≤ (s.node.port p).stPos) ∧
    (∃ (v : Word) (t : Nat) (s : State), Takes s 0x1930 ∧ s.node.rcd.due = [] ∧ s.node.running = false ∧ s.node.terms = [] ∧ s.node.rcd.rateSec = timeAfter s t / 250000000 ∧ 1000 ≤ s.node.rcd.rateNum ∧ 0x80 ≤ fld v 7 0 ∧ fld v 9 8 ≤ 2 ∧ fld v 31 24 ≤ 240) ∧
    (∃ (t : Nat) (s : State), s.node.up = true ∧ (s.node.isRun 10 = false ∨ s.node.roleOn 8 0 = false ∨ windowDue (s.node.advance t) = [] ∨ s.node.rcd.winAt = some (timeAfter s t / 250000))) :=
  ⟨⟨0xF0000280#32, (wSt { wN with dev := { st := .ready } }), by unfold Takes; decide +kernel⟩,
   ⟨0x300#32, (wSt { wN with dev := { st := .ready } }), by unfold Takes; decide +kernel⟩,
   ⟨0, (wB 16 [(0, 3), (12, 1), (14, 7)]), 0, (wSt { wIm [] [wLeg 0x12 [⟨1, 16, List.replicate 1 (wB 16 [(0, 3), (12, 1), (14, 7)]), true⟩]] with dev := { st := .ready } }), by decide +kernel⟩,
   ⟨0#32, (wSt { wN with mram := { wN.mram with ring := [(0, {})] } }), 0, {}, by unfold Takes; decide +kernel⟩,
   ⟨1#32, (wSt { wN with mram := { wN.mram with ring := [(0, {})] } }), by unfold Takes; decide +kernel⟩,
   ⟨.m5, (wSt { wN with ports := { m5 := { recLatch := [5#32] } } }), 5#32, by unfold Serves; decide +kernel⟩,
   ⟨.m5, (wSt wN), by unfold Serves; decide +kernel⟩,
   ⟨(wSt wN), by unfold Takes; decide +kernel⟩,
   ⟨.m5, (wSt { wN with ports := { m5 := { stLatch := [5#32] } } }), 5#32, by unfold Serves; decide +kernel⟩,
   ⟨.m5, (wSt wN), by unfold Serves; decide +kernel⟩,
   ⟨0xF0000280#32, 0, (wSt { wN with dev := { st := .ready }, rcd := { rateNum := 1000 } }), by unfold Takes; decide +kernel⟩,
   ⟨0, (wSt wN), by decide +kernel⟩⟩

theorem test_meets_EthernetPorts :
    (∃ (s : State), s.node.up = true ∧ s.node.isRun 7 = true) ∧
    (∃ (b : Bool) (s : State), s.node.up = true ∧ ethOn s.node b = true) ∧
    (∃ (s : State), s.node.up = true) ∧
    (∃ (b : Bool) (i : Fin 4096) (s : State), s.node.up = true ∧ alertOn s.node b = true ∧ s.node.ptUsed i.val = true ∧ s.node.almWorks = true ∧ s.node.almRun = true ∧ (s.node.pair = false ∨ s.node.dup.role ≠ .standby)) ∧
    (∃ (b : Bool) (i : Fin 4096) (s : State), s.node.up = true ∧ alertOn s.node b = true ∧ s.node.ptUsed i.val = true ∧ s.node.almRun = false ∧ (s.node.pair = false ∨ s.node.dup.role ≠ .standby)) ∧
    (∃ (b : Bool) (i : Fin 4096) (s : State), s.node.up = true ∧ alertOn s.node b = true ∧ s.node.ptUsed i.val = true ∧ alertSends s.node = true) ∧
    (∃ (b : Bool) (i : Fin 4096) (s : State), s.node.up = true ∧ alertOn s.node b = true ∧ s.node.ptUsed i.val = true ∧ alertSends s.node = true ∧ s.node.net.arcSent < 0xFFFF) ∧
    (∃ (b : Bool) (i : Fin 4096) (s : State), s.node.up = true ∧ alertOn s.node b = true ∧ s.node.ptUsed i.val = false ∧ s.node.net.acnBad < 0xFFFF) ∧
    (∃ (b : Bool) (s : State), s.node.up = true ∧ alertOn s.node b = true ∧ s.node.net.acnBad < 0xFFFF) ∧
    (∃ (s : State), s.node.up = true ∧ alertOn s.node false = true ∧ alertOn s.node true = false ∧ s.node.carries = true ∧ alertList s.node ≠ [] ∧ (alertList s.node).length ≤ 4) ∧
    (∃ (s : State), s.node.up = true ∧ alertSends s.node = true ∧ (alertList s.node).length ≤ 4112) ∧
    (∃ (s : State), s.node.up = true ∧ alertSends s.node = false) ∧
    (∃ (s : State), s.node.up = true ∧ s.node.isRun 7 = false) ∧
    (∃ (b : Bool) (s : State), s.node.up = true ∧ ethOn s.node b = false) ∧
    (∃ (b : Bool) (i : Fin 4096) (s : State), s.node.up = true ∧ alertOn s.node b = true ∧ s.node.ptUsed i.val = true ∧ s.node.almRun = true ∧ s.node.almWorks = false ∧ (s.node.pair = false ∨ s.node.dup.role ≠ .standby)) ∧
    (∃ (b : Bool) (i : Fin 4096) (s : State), s.node.up = true ∧ alertOn s.node b = true ∧ s.node.ptUsed i.val = true ∧ s.node.pair = true ∧ s.node.dup.role = .standby ∧ linkUp s.node = true) ∧
    (∃ (b : Bool) (i : Fin 4096) (s : State), s.node.up = true ∧ alertOn s.node b = true ∧ s.node.ptUsed i.val = true ∧ alertSends s.node = false) ∧
    (∃ (b : Bool) (k : Fin 16) (s : State), s.node.up = true ∧ alertOn s.node b = true ∧ stnNet (s.node.stn k.val) = true ∧ s.node.almRun = true ∧ (s.node.pair = false ∨ s.node.dup.role ≠ .standby) ∧ callReaches s.node k.val = true) ∧
    (∃ (b : Bool) (k : Fin 16) (s : State), s.node.up = true ∧ alertOn s.node b = true ∧ stnNet (s.node.stn k.val) = true ∧ (s.node.almRun = false ∨ callReaches s.node k.val = false) ∧ (s.node.pair = false ∨ s.node.dup.role ≠ .standby) ∧ s.node.net.arcSent < 0xFFFF) ∧
    (∃ (b : Bool) (k : Fin 16) (s : State), s.node.up = true ∧ alertOn s.node b = true ∧ stnNet (s.node.stn k.val) = true ∧ alertSends s.node = true) ∧
    (∃ (b : Bool) (k : Fin 16) (s : State), s.node.up = true ∧ alertOn s.node b = true ∧ stnNet (s.node.stn k.val) = false ∧ s.node.net.acnBad < 0xFFFF) ∧
    (∃ (b : Bool) (s : State) (i : Fin 4096), s.node.up = true ∧ alertOn s.node b = true ∧ alertSends s.node = true ∧ 10000 + i.val ∈ alertList s.node) ∧
    (∃ (b : Bool) (s : State), s.node.up = true ∧ alertOn s.node b = true ∧ (alertList s.node = [] ∨ alertSends s.node = false)) ∧
    (∃ (b : Bool) (s : State), s.node.up = true ∧ alertOn s.node b = false) ∧
    (∃ (b : Bool) (s : State), s.node.up = true ∧ alertOn s.node b = false) :=
  ⟨⟨(wSt wN), by decide +kernel⟩,
   ⟨false, (wSt wN), by decide +kernel⟩,
   ⟨(wSt wN), by decide +kernel⟩,
   ⟨true, 4095, (wSt (wPt {})), by decide +kernel⟩,
   ⟨true, 4095, (wSt { wPt {} with dev := { st := .safe } }), by decide +kernel⟩,
   ⟨true, 4095, (wSt (wPt {})), by decide +kernel⟩,
   ⟨true, 4095, (wSt (wPt {})), by decide +kernel⟩,
   ⟨true, 4095, (wSt wN), by decide +kernel⟩,
   ⟨true, (wSt wN), by decide +kernel⟩,
   ⟨(wSt { wPt { st := 1 } with mram := { ports := wPorts [(11, 3)] } }), by decide +kernel⟩,
   ⟨(wSt wN), by decide +kernel⟩,
   ⟨(wSt (wPair .standby)), by decide +kernel⟩,
   ⟨(wSt { wN with isl := { wN.isl with states := List.replicate 12 .fault } }), by decide +kernel⟩,
   ⟨false, (wSt { wN with isl := { wN.isl with states := List.replicate 12 .fault } }), by decide +kernel⟩,
   ⟨false, 4095, (wSt { wPt {} with isl := { wN.isl with paused := [(0, 0x40#8, 0)] } }), by decide +kernel⟩,
   ⟨false, 4095, (wSt { wIm [] [wLeg 0x0B [⟨1, 32, List.replicate 4096 (wB 32 [(6, 1)]), true⟩], wLeg 0x0C [⟨2, 16, List.replicate 256 (wB 16 []), true⟩], wLeg 0x0F [] (wB 32 [(0, 1)])] with dup := { role := .standby, lane0 := true, lost := false, hello := true, pver := 1, pElig := true } }), by decide +kernel⟩,
   ⟨false, 4095, (wSt { wIm [] [wLeg 0x0B [⟨1, 32, List.replicate 4096 (wB 32 [(6, 1)]), true⟩], wLeg 0x0C [⟨2, 16, List.replicate 256 (wB 16 []), true⟩], wLeg 0x0F [] (wB 32 [(0, 1)])] with dup := { role := .standby, lane0 := true, lost := false, hello := true, pver := 1, pElig := true } }), by decide +kernel⟩,
   ⟨false, 15, (wSt { wIm [] [wLeg 0x0C [⟨3, 32, List.replicate 16 (wB 32 [(0, 3), (4, 1)]), true⟩]] with alm := { level := 1 } }), by decide +kernel⟩,
   ⟨false, 15, (wSt (wIm [] [wLeg 0x0C [⟨3, 32, List.replicate 16 (wB 32 [(0, 3), (4, 1)]), true⟩]])), by decide +kernel, by decide +kernel, by decide +kernel, .inr rfl, by decide +kernel⟩,
   ⟨false, 15, (wSt { wIm [] [wLeg 0x0C [⟨3, 32, List.replicate 16 (wB 32 [(0, 3), (4, 1)]), true⟩]] with alm := { level := 1 } }), by decide +kernel⟩,
   ⟨false, 15, (wSt (wIm [] [wLeg 0x0C [⟨3, 32, List.replicate 16 (wB 32 [(0, 3)]), true⟩]])), by decide +kernel⟩,
   ⟨false, (wSt (wPt { st := 1 })), 4095, by decide +kernel⟩,
   ⟨false, (wSt wN), by decide +kernel, by decide +kernel, .inl (by decide +kernel)⟩,
   ⟨false, (wSt { wN with mram := { ports := wPorts [(10, 0)] } }), by decide +kernel⟩,
   ⟨false, (wSt { wN with mram := { ports := wPorts [(10, 0)] } }), by decide +kernel⟩⟩

theorem test_meets_ModbusTcp :
    (∃ (q : MbReq) (start : Nat) (count : Nat) (s : State), MbServed s q ∧ start + count ≤ 160 ∧ 1 ≤ count ∧ count ≤ 125 ∧ s.node.isRun 0 = true) ∧
    (∃ (q : MbReq) (start : Nat) (count : Nat) (s : State), MbServed s q ∧ 160 < start + count) ∧
    (∃ (q : MbReq) (start : Nat) (count : Nat) (s : State) (r : Fin 518), MbServed s q ∧ start = resAddr r.val / 2 ∧ count = 4) ∧
    (∃ (q : MbReq) (start : Nat) (s : State), MbServed s q ∧ start % 2 = 1) ∧
    (∃ (q : MbReq) (k : Fin 32) (s : State) (val : Nat), MbServed s q ∧ s.node.isRun 0 = true ∧ (s.node.pair = false ∨ s.node.dup.role ≠ .standby) ∧ lnOn (s.node.lnRec k.val) = true ∧ val % 8 ≤ 2) ∧
    (∃ (q : MbReq) (s : State), MbServed s q ∧ s.node.isRun 0 = true ∧ (s.node.pair = false ∨ s.node.dup.role ≠ .standby)) ∧
    (∃ (q : MbReq) (reg : Nat) (s : State), MbServed s q ∧ 160 ≤ reg) ∧
    (∃ (q : MbReq) (start : Nat) (count : Nat) (s : State), MbServed s q ∧ start + count ≤ 160 ∧ start < 160 ∧ (count = 0 ∨ 125 < count)) ∧
    (∃ (q : MbReq) (start : Nat) (count : Nat) (s : State), MbServed s q ∧ start + count ≤ 160 ∧ 1 ≤ count ∧ count ≤ 125 ∧ s.node.isRun 0 = false) ∧
    (∃ (q : MbReq) (start : Nat) (count : Nat) (s : State) (l : List (Fin 518)), MbServed s q ∧ start % 2 = 0 ∧ count = 4 * l.length ∧ l.length ≤ 31 ∧ l ≠ [] ∧ l.map (fun r => resAddr r.val) = (List.range l.length).map (fun j => 2 * start + 8 * j)) ∧
    (∃ (q : MbReq) (start : Nat) (count : Nat) (s : State) (r : Fin 518), MbServed s q ∧ start = resAddr r.val / 2 ∧ (count = 0 ∨ count = 1)) ∧
    (∃ (q : MbReq) (start : Nat) (count : Nat) (s : State), MbServed s q ∧ start < resAddr 0 / 2 ∧ 1 ≤ count) ∧
    (∃ (q : MbReq) (k : Fin 32) (val : Nat) (s : State), MbServed s q ∧ s.node.isRun 0 = true ∧ (s.node.pair = false ∨ s.node.dup.role ≠ .standby) ∧ (lnOn (s.node.lnRec k.val) = false ∨ 4 < val % 8)) ∧
    (∃ (q : MbReq) (s : State), MbServed s q ∧ s.node.isRun 0 = false ∧ (s.node.pair = false ∨ s.node.dup.role ≠ .standby)) ∧
    (∃ (q : MbReq) (s : State), MbServed s q ∧ s.node.pair = true ∧ s.node.dup.role = .standby ∧ linkUp s.node = true) ∧
    (∃ (q : MbReq) (s : State), MbServed s q ∧ s.node.pair = true ∧ s.node.dup.role = .standby ∧ linkUp s.node = false) ∧
    (∃ (q : MbReq) (reg : Nat) (s : State), MbServed s q ∧ reg < 128) ∧
    (∃ (q : MbReq) (start : Nat) (vals : List (BitVec 16)) (s : State), MbServed s q ∧ s.node.isRun 0 = true ∧ (s.node.pair = false ∨ s.node.dup.role ≠ .standby) ∧ start % 2 = 0 ∧ vals.length % 2 = 0 ∧ vals ≠ [] ∧ start + vals.length ≤ 64) ∧
    (∃ (q : MbReq) (start : Nat) (vals : List (BitVec 16)) (s : State), MbServed s q ∧ s.node.isRun 0 = true ∧ (s.node.pair = false ∨ s.node.dup.role ≠ .standby) ∧ start % 2 = 0 ∧ vals.length % 2 = 0 ∧ vals ≠ [] ∧ 64 ≤ start ∧ start + vals.length ≤ 128) ∧
    (∃ (q : MbReq) (start : Nat) (vals : List (BitVec 16)) (s : State), MbServed s q ∧ (128 < start + vals.length ∨ 128 ≤ start)) ∧
    (∃ (q : MbReq) (start : Nat) (vals : List (BitVec 16)) (s : State), MbServed s q ∧ start + vals.length ≤ 128 ∧ start < 128 ∧ (vals = [] ∨ 123 < vals.length ∨ start % 2 = 1 ∨ vals.length % 2 = 1)) ∧
    (∃ (q : MbReq) (c : Nat) (s : State), s.node.up = true ∧ modbusOn s.node q.net = true ∧ (((s.node.eth q.net).conns.any (fun c => c.1 == q.client) = true ∨ (s.node.eth q.net).conns.length < 4)) ∧ q.unit ≠ 1#8 ∧ q.unit ≠ 0xFF#8) ∧
    (∃ (q : MbReq) (c : Nat) (s : State), s.node.up = true ∧ (modbusOn s.node q.net = false ∨ ((s.node.eth q.net).conns.any (fun c => c.1 == q.client) = false ∧ 4 ≤ (s.node.eth q.net).conns.length))) :=
  ⟨⟨⟨false, 0, 0#16, 1#8⟩, 35, 125, (wSt wN), by unfold MbServed; decide +kernel⟩,
   ⟨⟨false, 0, 0#16, 1#8⟩, 160, 1, (wSt wN), by unfold MbServed; decide +kernel⟩,
   ⟨⟨false, 0, 0#16, 1#8⟩, (resAddr 517 / 2), 4, (wSt wN), 517, by unfold MbServed; decide +kernel⟩,
   ⟨⟨false, 0, 0#16, 1#8⟩, 1, (wSt wN), by unfold MbServed; decide +kernel⟩,
   ⟨⟨false, 0, 0#16, 1#8⟩, 31, (wSt (wLn {})), 2, by unfold MbServed; decide +kernel⟩,
   ⟨⟨false, 0, 0#16, 1#8⟩, (wSt wN), by unfold MbServed; decide +kernel⟩,
   ⟨⟨false, 0, 0#16, 1#8⟩, 160, (wSt wN), by unfold MbServed; decide +kernel⟩,
   ⟨⟨false, 0, 0#16, 1#8⟩, 159, 0, (wSt wN), by unfold MbServed; decide +kernel, by decide +kernel, by decide +kernel, .inl rfl⟩,
   ⟨⟨false, 0, 0#16, 1#8⟩, 0, 1, (wSt { wN with isl := { wN.isl with states := .fault :: List.replicate 11 .run } }), by unfold MbServed; decide +kernel⟩,
   ⟨⟨false, 0, 0#16, 1#8⟩, (resAddr 517 / 2), 4, (wSt wN), [517], by unfold MbServed; decide +kernel⟩,
   ⟨⟨false, 0, 0#16, 1#8⟩, (resAddr 517 / 2), 1, (wSt wN), 517, by unfold MbServed; decide +kernel, by decide +kernel, .inr rfl⟩,
   ⟨⟨false, 0, 0#16, 1#8⟩, 0, 2, (wSt wN), by unfold MbServed; decide +kernel⟩,
   ⟨⟨false, 0, 0#16, 1#8⟩, 31, 0, (wSt wN), by unfold MbServed; decide +kernel, by decide +kernel, by decide +kernel, .inl (by decide +kernel)⟩,
   ⟨⟨false, 0, 0#16, 1#8⟩, (wSt { wN with isl := { wN.isl with states := .fault :: List.replicate 11 .run } }), by unfold MbServed; decide +kernel⟩,
   ⟨⟨false, 0, 0#16, 1#8⟩, (wSt (wPair .standby)), by unfold MbServed; decide +kernel⟩,
   ⟨⟨false, 0, 0#16, 1#8⟩, (wSt { wPair .standby with dup := { role := .standby } }), by unfold MbServed; decide +kernel⟩,
   ⟨⟨false, 0, 0#16, 1#8⟩, 127, (wSt wN), by unfold MbServed; decide +kernel⟩,
   ⟨⟨false, 0, 0#16, 1#8⟩, 62, [1#16, 2#16], (wSt (wLn {})), by unfold MbServed; decide +kernel⟩,
   ⟨⟨false, 0, 0#16, 1#8⟩, 124, [1#16, 2#16, 3#16, 4#16], (wSt (wLn {})), by unfold MbServed; decide +kernel⟩,
   ⟨⟨false, 0, 0#16, 1#8⟩, 127, [1#16, 2#16], (wSt wN), by unfold MbServed; decide +kernel, .inl (by decide)⟩,
   ⟨⟨false, 0, 0#16, 1#8⟩, 0, [1#16], (wSt wN), by unfold MbServed; decide +kernel⟩,
   ⟨⟨false, 0, 0#16, 5#8⟩, 0, (wSt wN), by decide +kernel, by decide +kernel, .inr (by decide +kernel), by decide +kernel⟩,
   ⟨⟨false, 0, 0#16, 1#8⟩, 0, (wSt { wN with mram := { ports := wPorts [(10, 0)] } }), by decide +kernel, .inl (by decide +kernel)⟩⟩

theorem test_meets_CanPorts :
    (∃ (f : CanFrame) (r : Bytes) (s : State), s.node.up = true ∧ canOn s.node f.port = true ∧ (s.node.can f.port).st ≠ 3 ∧ s.node.acq = true ∧ s.node.roleOn 7 0 = true ∧ importRecs s.node f = [r] ∧ svcMatch s.node f = false ∧ (∀ k ∈ (fieldBits (fld (w32 r 6) 8 0) (fld (w32 r 6) 14 9 + 1) (bitOf (w32 r 6) 15)), k < 8 * f.data.length) ∧ (bitOf (w32 r 6) 25 = false ∨ ((fieldBits (fld (w32 r 6) 8 0) (fld (w32 r 6) 14 9 + 1) (bitOf (w32 r 6) 15)).foldl (fun a k => 2 * a + dataBit f.data k) 0) ≠ 2 ^ (fld (w32 r 6) 14 9 + 1) - 1)) ∧
    (∃ (f : CanFrame) (r : Bytes) (s : State), s.node.up = true ∧ canOn s.node f.port = true ∧ (s.node.can f.port).st ≠ 3 ∧ s.node.acq = true ∧ s.node.roleOn 7 0 = true ∧ importRecs s.node f = [r] ∧ svcMatch s.node f = false ∧ (∃ k ∈ (fieldBits (fld (w32 r 6) 8 0) (fld (w32 r 6) 14 9 + 1) (bitOf (w32 r 6) 15)), 8 * f.data.length ≤ k) ∧ s.node.net.impErr < 0xFFFFFFFF) ∧
    (∃ (f : CanFrame) (r : Bytes) (s : State), s.node.up = true ∧ canOn s.node f.port = true ∧ (s.node.can f.port).st ≠ 3 ∧ s.node.acq = true ∧ s.node.roleOn 7 0 = true ∧ importRecs s.node f = [r] ∧ svcMatch s.node f = false ∧ (∀ k ∈ (fieldBits (fld (w32 r 6) 8 0) (fld (w32 r 6) 14 9 + 1) (bitOf (w32 r 6) 15)), k < 8 * f.data.length) ∧ bitOf (w32 r 6) 25 = true ∧ ((fieldBits (fld (w32 r 6) 8 0) (fld (w32 r 6) 14 9 + 1) (bitOf (w32 r 6) 15)).foldl (fun a k => 2 * a + dataBit f.data k) 0) = 2 ^ (fld (w32 r 6) 14 9 + 1) - 1 ∧ (tget 0x80000000#32 s.node.net.lastVal (u16 r 0)) ≠ 0x80000000#32) ∧
    (∃ (f : CanFrame) (r : Bytes) (s : State), s.node.up = true ∧ canOn s.node f.port = true ∧ (s.node.can f.port).st ≠ 3 ∧ s.node.acq = true ∧ s.node.roleOn 7 0 = true ∧ importRecs s.node f = [r] ∧ svcMatch s.node f = false ∧ (∀ k ∈ (fieldBits (fld (w32 r 6) 8 0) (fld (w32 r 6) 14 9 + 1) (bitOf (w32 r 6) 15)), k < 8 * f.data.length) ∧ bitOf (w32 r 6) 25 = true ∧ ((fieldBits (fld (w32 r 6) 8 0) (fld (w32 r 6) 14 9 + 1) (bitOf (w32 r 6) 15)).foldl (fun a k => 2 * a + dataBit f.data k) 0) = 2 ^ (fld (w32 r 6) 14 9 + 1) - 1 ∧ (tget 0x80000000#32 s.node.net.lastVal (u16 r 0)) = 0x80000000#32) ∧
    (∃ (f : CanFrame) (rcv : Nat) (s : State), s.node.up = true ∧ canOn s.node f.port = true ∧ (s.node.can f.port).st ≠ 3 ∧ importRecs s.node f = [] ∧ svcMatch s.node f = false ∧ rawMatch s.node f = true ∧ 128 ≤ rawCh s.node f.port ∧ mbBinding s.node (rawCh s.node f.port % 32) = (netId s.node, rcv, true) ∧ s.node.isRun (idIsland rcv) = true) ∧
    (∃ (ch : Fin 32) (snd : Nat) (s : State), s.node.up = true ∧ mbBinding s.node ch.val = (snd, netId s.node, true) ∧ (s.node.mbChan ch.val).st = .posted ∧ fld ((s.node.mbChan ch.val).msg.getD 0 0#32) 31 24 = 0x43 ∧ canLenOk (u8 (msgPayload (s.node.mbChan ch.val).msg) 2) (recBit (msgPayload (s.node.mbChan ch.val).msg) 1 1) = true ∧ (recBit (msgPayload (s.node.mbChan ch.val).msg) 1 1 = false ∨ canData s.node (((msgPayload (s.node.mbChan ch.val).msg).getD 0 0#8).getLsbD 0) ≠ 0) ∧ canOn s.node (((msgPayload (s.node.mbChan ch.val).msg).getD 0 0#8).getLsbD 0) = true ∧ (s.node.can (((msgPayload (s.node.mbChan ch.val).msg).getD 0 0#8).getLsbD 0)).st ≠ 3 ∧ s.node.carries = true) ∧
    (∃ (f : CanFrame) (s : State), s.node.up = true ∧ canOn s.node f.port = true ∧ (s.node.can f.port).st ≠ 3 ∧ svcMatch s.node f = true ∧ f.data.length = 8 ∧ s.node.net.svc = none ∧ fld (w32 f.data 0) 31 28 = 0) ∧
    (∃ (f : CanFrame) (s : State) (r : Fin 518), s.node.up = true ∧ canOn s.node f.port = true ∧ (s.node.can f.port).st ≠ 3 ∧ svcMatch s.node f = true ∧ f.data.length = 8 ∧ s.node.net.svc = none ∧ fld (w32 f.data 0) 31 28 = 1 ∧ (fld (w32 f.data 0) 14 0) = resAddr r.val ∧ s.node.isRun 0 = true) ∧
    (∃ (f : CanFrame) (s : State), s.node.up = true ∧ canOn s.node f.port = true ∧ (s.node.can f.port).st ≠ 3 ∧ svcMatch s.node f = true ∧ f.data.length = 8 ∧ s.node.net.svc = none ∧ fld (w32 f.data 0) 31 28 = 1 ∧ (regAttr (fld (w32 f.data 0) 14 0)).isSome = true ∧ regIsl (fld (w32 f.data 0) 14 0) false ≠ 0 ∧ s.node.isRun (regIsl (fld (w32 f.data 0) 14 0) false) = true) ∧
    (∃ (f : CanFrame) (s : State), s.node.up = true ∧ canOn s.node f.port = true ∧ (s.node.can f.port).st ≠ 3 ∧ svcMatch s.node f = true ∧ f.data.length = 8 ∧ s.node.net.svc = none ∧ 3 ≤ fld (w32 f.data 0) 31 28) ∧
    (∃ (f : CanFrame) (s : State), s.node.up = true ∧ canOn s.node f.port = true ∧ (s.node.can f.port).st ≠ 3 ∧ svcMatch s.node f = true ∧ f.data.length = 8 ∧ s.node.net.svc ≠ none) ∧
    (∃ (c : Bool) (s : State), s.node.up = true ∧ canOn s.node c = true ∧ (s.node.can c).st ≠ 3) ∧
    (∃ (c : Bool) (s : State), s.node.up = true ∧ canOn s.node c = true ∧ (s.node.can c).st = 3) ∧
    (∃ (c : Bool) (s : State), s.node.up = true ∧ (canOn s.node c = false ∨ (s.node.can c).st = 3)) ∧
    (∃ (c : Bool) (s : State), s.node.up = true ∧ (canOn s.node c = false ∨ (s.node.can c).st ≠ 3)) ∧
    (∃ (f : CanFrame) (s : State), s.node.up = true ∧ (canOn s.node f.port = false ∨ (s.node.can f.port).st = 3)) ∧
    (∃ (f : CanFrame) (s : State), s.node.up = true ∧ importRecs s.node f ≠ [] ∧ svcMatch s.node f = false ∧ (s.node.acq = false ∨ s.node.roleOn 7 0 = false)) ∧
    (∃ (f : CanFrame) (rcv : Nat) (s : State), s.node.up = true ∧ canOn s.node f.port = true ∧ (s.node.can f.port).st ≠ 3 ∧ importRecs s.node f = [] ∧ svcMatch s.node f = false ∧ rawMatch s.node f = true ∧ 128 ≤ rawCh s.node f.port ∧ mbBinding s.node (rawCh s.node f.port % 32) = (netId s.node, rcv, true) ∧ s.node.isRun (idIsland rcv) = true ∧ (s.node.mbChan (rawCh s.node f.port % 32)).st = .posted ∧ s.node.net.rawLost0 < 0xFFFF ∧ s.node.net.rawLost1 < 0xFFFF) ∧
    (∃ (f : CanFrame) (s : State), s.node.up = true ∧ canOn s.node f.port = true ∧ (s.node.can f.port).st ≠ 3 ∧ importRecs s.node f = [] ∧ svcMatch s.node f = false ∧ (rawMatch s.node f = false ∨ rawCh s.node f.port < 128)) ∧
    (∃ (ch : Fin 32) (snd : Nat) (s : State), s.node.up = true ∧ mbBinding s.node ch.val = (snd, netId s.node, true) ∧ (s.node.mbChan ch.val).st = .posted ∧ fld ((s.node.mbChan ch.val).msg.getD 0 0#32) 31 24 = 0x43 ∧ (canLenOk (u8 (msgPayload (s.node.mbChan ch.val).msg) 2) (recBit (msgPayload (s.node.mbChan ch.val).msg) 1 1) = false ∨ (recBit (msgPayload (s.node.mbChan ch.val).msg) 1 1 = true ∧ canData s.node (((msgPayload (s.node.mbChan ch.val).msg).getD 0 0#8).getLsbD 0) = 0))) ∧
    (∃ (ch : Fin 32) (snd : Nat) (s : State), s.node.up = true ∧ mbBinding s.node ch.val = (snd, netId s.node, true) ∧ (s.node.mbChan ch.val).st = .posted ∧ fld ((s.node.mbChan ch.val).msg.getD 0 0#32) 31 24 = 0x43 ∧ canLenOk (u8 (msgPayload (s.node.mbChan ch.val).msg) 2) (recBit (msgPayload (s.node.mbChan ch.val).msg) 1 1) = true ∧ (recBit (msgPayload (s.node.mbChan ch.val).msg) 1 1 = false ∨ canData s.node (((msgPayload (s.node.mbChan ch.val).msg).getD 0 0#8).getLsbD 0) ≠ 0) ∧ (canOn s.node (((msgPayload (s.node.mbChan ch.val).msg).getD 0 0#8).getLsbD 0) = false ∨ (s.node.can (((msgPayload (s.node.mbChan ch.val).msg).getD 0 0#8).getLsbD 0)).st = 3 ∨ s.node.carries = false)) ∧
    (∃ (ch : Fin 32) (s : State), s.node.up = true ∧ ((s.node.mbChan ch.val).st ≠ .posted ∨ fld ((s.node.mbChan ch.val).msg.getD 0 0#32) 31 24 ≠ 0x43 ∨ (mbBinding s.node ch.val).2.1 ≠ netId s.node ∨ (mbBinding s.node ch.val).2.2 = false)) ∧
    (∃ (f : CanFrame) (s : State), s.node.up = true ∧ canOn s.node f.port = true ∧ (s.node.can f.port).st ≠ 3 ∧ svcMatch s.node f = true ∧ f.data.length = 8 ∧ s.node.net.svc = none ∧ fld (w32 f.data 0) 31 28 = 2 ∧ accWaits s.node (.wr (fld (w32 f.data 0) 14 0) (w32 f.data 4)) = true) ∧
    (∃ (f : CanFrame) (s : State), s.node.up = true ∧ canOn s.node f.port = true ∧ (s.node.can f.port).st ≠ 3 ∧ svcMatch s.node f = true ∧ f.data.length = 8 ∧ s.node.net.svc = none ∧ 1 ≤ fld (w32 f.data 0) 31 28 ∧ fld (w32 f.data 0) 31 28 ≤ 2 ∧ regAttr (fld (w32 f.data 0) 14 0) = none) ∧
    (∃ (f : CanFrame) (s : State), s.node.up = true ∧ canOn s.node f.port = true ∧ (s.node.can f.port).st ≠ 3 ∧ (svcMatch s.node f = false ∨ f.data.length ≠ 8)) :=
  ⟨⟨⟨false, false, false, false, 0x123#29, [1#8]⟩, (wB 16 [(0, 127), (2, 0x23), (3, 1), (7, 0x0E)]), (wSt (wIm [] [wLeg 0x11 [⟨2, 16, [wB 16 [(0, 127), (2, 0x23), (3, 1), (7, 0x0E)]], true⟩]])), by decide +kernel, by decide +kernel, by decide +kernel, by decide +kernel, by decide +kernel, by decide +kernel, by decide +kernel, by decide +kernel, .inl (by decide +kernel)⟩,
   ⟨⟨false, false, false, false, 0x123#29, []⟩, (wB 16 [(0, 127), (2, 0x23), (3, 1), (7, 0x0E)]), (wSt (wIm [] [wLeg 0x11 [⟨2, 16, [wB 16 [(0, 127), (2, 0x23), (3, 1), (7, 0x0E)]], true⟩]])), by decide +kernel⟩,
   ⟨⟨false, false, false, false, 0x123#29, [0xFF#8]⟩, (wB 16 [(0, 127), (2, 0x23), (3, 1), (7, 0x0E), (9, 2)]), (wSt { wIm [] [wLeg 0x11 [⟨2, 16, [wB 16 [(0, 127), (2, 0x23), (3, 1), (7, 0x0E), (9, 2)]], true⟩]] with net := { lastVal := [(127, 7#32)] } }), by decide +kernel⟩,
   ⟨⟨false, false, false, false, 0x123#29, [0xFF#8]⟩, (wB 16 [(0, 127), (2, 0x23), (3, 1), (7, 0x0E), (9, 2)]), (wSt (wIm [] [wLeg 0x11 [⟨2, 16, [wB 16 [(0, 127), (2, 0x23), (3, 1), (7, 0x0E), (9, 2)]], true⟩]])), by decide +kernel⟩,
   ⟨⟨false, false, false, false, 0x123#29, []⟩, 1, (wSt (wLock 20 1)), by decide +kernel⟩,
   ⟨31, 1, (wSt { wLock 1 20 with mbx := { chans := [(31, { st := .posted, msg := mkMsg 0x43 0 8 [0#8, 0#8, 8#8] })] } }), by decide +kernel⟩,
   ⟨⟨false, false, false, false, 0x123#29, (leBytes 8 (0))⟩, (wSt { wN with mram := { ports := wPorts [(0x28, 0x23), (0x29, 1), (0x2C, 0x24), (0x2D, 1)] } }), by decide +kernel⟩,
   ⟨⟨false, false, false, false, 0x123#29, (leBytes 8 (0x10000000 + resAddr 517))⟩, (wSt { wN with mram := { ports := wPorts [(0x28, 0x23), (0x29, 1), (0x2C, 0x24), (0x2D, 1)] } }), 517, by decide +kernel⟩,
   ⟨⟨false, false, false, false, 0x123#29, (leBytes 8 (0x10002010))⟩, (wSt { wN with mram := { ports := wPorts [(0x28, 0x23), (0x29, 1), (0x2C, 0x24), (0x2D, 1)] } }), by decide +kernel⟩,
   ⟨⟨false, false, false, false, 0x123#29, (leBytes 8 (0xF0000000))⟩, (wSt { wN with mram := { ports := wPorts [(0x28, 0x23), (0x29, 1), (0x2C, 0x24), (0x2D, 1)] } }), by decide +kernel⟩,
   ⟨⟨false, false, false, false, 0x123#29, (leBytes 8 (0))⟩, (wSt { wN with mram := { ports := wPorts [(0x28, 0x23), (0x29, 1), (0x2C, 0x24), (0x2D, 1)] }, net := { svc := some (0#8, .rd 0) } }), by decide +kernel⟩,
   ⟨true, (wSt wN), by decide +kernel⟩,
   ⟨false, (wSt { wN with net := { can0 := { st := 3 } } }), by decide +kernel⟩,
   ⟨true, (wSt { wN with net := { can1 := { st := 3 } } }), by decide +kernel, .inr rfl⟩,
   ⟨true, (wSt wN), by decide +kernel, .inr (by decide)⟩,
   ⟨⟨false, false, false, false, 0x123#29, [1#8]⟩, (wSt { wN with net := { can0 := { st := 3 } } }), by decide +kernel, .inr rfl⟩,
   ⟨⟨false, false, false, false, 0x123#29, [1#8]⟩, (wSt { wIm [] [wLeg 0x11 [⟨2, 16, [wB 16 [(0, 127), (2, 0x23), (3, 1), (7, 0x0E)]], true⟩]] with dev := { st := .boot } }), by decide +kernel, by decide +kernel, by decide +kernel, .inl (by decide +kernel)⟩,
   ⟨⟨false, false, false, false, 0x123#29, []⟩, 1, (wSt { wLock 20 1 with mbx := { chans := [(31, { st := .posted })] } }), by decide +kernel⟩,
   ⟨⟨false, false, false, false, 0x123#29, []⟩, (wSt { wN with mram := { ports := wPorts [(0x22, 0)] } }), by decide +kernel, by decide +kernel, by decide +kernel, by decide +kernel, by decide +kernel, .inr (by decide +kernel)⟩,
   ⟨31, 1, (wSt { wLock 1 20 with mbx := { chans := [(31, { st := .posted, msg := mkMsg 0x43 0 8 [0#8, 0#8, 9#8] })] } }), by decide +kernel, by decide +kernel, by decide +kernel, by decide +kernel, .inl (by decide +kernel)⟩,
   ⟨31, 1, (wSt { wLock 1 20 with mbx := { chans := [(31, { st := .posted, msg := mkMsg 0x43 0 8 [0#8, 0#8, 8#8] })] }, net := { can0 := { st := 3 } } }), by decide +kernel, by decide +kernel, by decide +kernel, by decide +kernel, by decide +kernel, .inl (by decide +kernel), .inr (.inl rfl)⟩,
   ⟨31, (wSt wN), by decide +kernel, .inl (by decide)⟩,
   ⟨⟨false, false, false, false, 0x123#29, (leBytes 8 (0x20002010))⟩, (wSt { wN with mram := { ports := wPorts [(0x28, 0x23), (0x29, 1), (0x2C, 0x24), (0x2D, 1)] } }), by decide +kernel⟩,
   ⟨⟨false, false, false, false, 0x123#29, (leBytes 8 (0x10007FFF))⟩, (wSt { wN with mram := { ports := wPorts [(0x28, 0x23), (0x29, 1), (0x2C, 0x24), (0x2D, 1)] } }), by decide +kernel⟩,
   ⟨⟨false, false, false, false, 0x123#29, []⟩, (wSt { wN with mram := { ports := wPorts [(0x28, 0x23), (0x29, 1), (0x2C, 0x24), (0x2D, 1)] } }), by decide +kernel, by decide +kernel, by decide +kernel, .inr (by decide)⟩⟩

theorem test_meets_OtherChannelsStand :
    (∃ (k : Nat) (n : Fin 64), k ≠ n.val) ∧
    (∃ (k : Nat) (n : Fin 16), k ≠ n.val) ∧
    (∃ (k : Nat) (n : Fin 16), k ≠ n.val) ∧
    (∃ (k : Nat) (n : Fin 16), k ≠ n.val) ∧
    (∃ (k : Nat) (n : Fin 8), k ≠ n.val) ∧
    (∃ (k : Nat) (n : Fin 48), k ≠ n.val) ∧
    (∃ (k : Nat) (n : Fin 6), k ≠ n.val) ∧
    (∃ (k : Nat) (n : Fin 8), k ≠ n.val) ∧
    (∃ (k : Nat) (n : Fin 32), k ≠ n.val) ∧
    (∃ (k : Nat) (n : Fin 32), k ≠ n.val) :=
  ⟨⟨0, 63, by decide +kernel⟩,
   ⟨0, 15, by decide +kernel⟩,
   ⟨0, 15, by decide +kernel⟩,
   ⟨0, 15, by decide +kernel⟩,
   ⟨0, 7, by decide +kernel⟩,
   ⟨0, 47, by decide +kernel⟩,
   ⟨0, 5, by decide +kernel⟩,
   ⟨0, 7, by decide +kernel⟩,
   ⟨0, 31, by decide +kernel⟩,
   ⟨0, 31, by decide +kernel⟩⟩

theorem test_meets_DevtimePairIsCoherent :
    (∃ (s : State), Serves s 0x0010) ∧
    (∃ (p : HostPort) (w : Word) (s : State), Serves s 0x0014 ∧ (s.node.port p).devHi = some w) ∧
    (∃ (p : HostPort) (s : State), Serves s 0x0014 ∧ (s.node.port p).devHi = none) ∧
    (∃ (p : HostPort) (s s1 s2 s3 : State), Serves s 0x0010 ∧ exec (.devtimeLoRead p) s = .next s1 ∧ Serves s2 0x0014
      ∧ (s2.node.port p).devHi = (s1.node.port p).devHi ∧ exec (.devtimeHiRead p) s2 = .next s3) :=
  ⟨⟨(wSt wN), by unfold Serves; decide +kernel⟩,
   ⟨.m5, 5#32, (wSt { wN with ports := { m5 := { devHi := some 5#32 } } }), by unfold Serves; decide +kernel⟩,
   ⟨.m5, (wSt wN), by unfold Serves; decide +kernel⟩,
   ⟨.m5, wSt wN, wNext (exec (.devtimeLoRead .m5) (wSt wN)), wNext (exec (.devtimeLoRead .m5) (wSt wN)),
    wNext (exec (.devtimeHiRead .m5) (wNext (exec (.devtimeLoRead .m5) (wSt wN)))), by unfold Serves; decide +kernel, rfl, by unfold Serves; decide +kernel, rfl, rfl⟩⟩

theorem test_meets_MilestonePairIsCoherent :
    (∃ (s : State), Serves s 0x1814) ∧
    (∃ (p : HostPort) (w : Word) (n : Node), (n.port p).msHi = some w) ∧
    (∃ (p : HostPort) (n : Node), (n.port p).msHi = none) ∧
    (∃ (p : HostPort) (s s1 : State) (n : Node), Serves s 0x1814 ∧ exec (.msLoRead p) s = .next s1 ∧ (n.port p).msHi = (s1.node.port p).msHi) :=
  ⟨⟨(wSt wN), by unfold Serves; decide +kernel⟩,
   ⟨.m5, 5#32, { wN with ports := { m5 := { msHi := some 5#32 } } }, by decide +kernel⟩,
   ⟨.m5, wN, by decide +kernel⟩,
   ⟨.m5, wSt wN, wNext (exec (.msLoRead .m5) (wSt wN)), (wNext (exec (.msLoRead .m5) (wSt wN))).node, by unfold Serves; decide +kernel, rfl, rfl⟩⟩

theorem test_meets_SwitchOvertemperature :
    (∃ (k : Fin 32) (s : State), s.node.up = true ∧ s.node.isRun 5 = true ∧ s.node.dup.latched = false ∧ (s.node.doC k.val).overtemp = false) ∧
    (∃ (s : State), s.node.up = true) :=
  ⟨⟨31, (wSt wN), by decide +kernel⟩,
   ⟨(wSt wN), by decide +kernel⟩⟩

theorem test_meets_MemoriesStayCanonical :
    (∃ (s : State) (t : State), s.mem.wf = true ∧ step s = .next t) :=
  ⟨{}, {}, by decide +kernel, rfl⟩

theorem test_meets_FlagsClearOnlyByWritesAndResets :
    (∃ (c : Instr), mayClearFlags c = false) :=
  ⟨.junctionDrain, by decide +kernel⟩

end Sys2Proof.Machine
end

section
/-! SUPPORT. The step, the completion of every command, and what reset leaves. -/

namespace Sys2Proof.Machine
open Sys2Proof

/-- Settles O1: both halves are the two branches of `step`. -/
theorem stepRunsTheFrontCommand : Obligations.StepRunsTheFrontCommand := by
  unfold Obligations.StepRunsTheFrontCommand
  refine ⟨fun _ _ _ => rfl, fun s h => ?_⟩
  simp only [step, h]

/-- Settles O2, by cases on the command: every arm of `exec` is an operation behind `onNode` or `onBoth`, which answer a next
state and write the byte memories and the module alone. -/
theorem everyCommandCompletes : Obligations.EveryCommandCompletes := by
  unfold Obligations.EveryCommandCompletes
  intro c s
  cases c <;> exact ⟨_, rfl, rfl⟩

/-- Settles O3: the reset state is one state, and the registers are read in it, at each port in turn. -/
theorem resetValues : Obligations.ResetValues := by
  unfold Obligations.ResetValues
  refine ⟨rfl, by decide, rfl, rfl, rfl, fun p => ?_⟩
  cases p <;> decide +kernel

end Sys2Proof.Machine
end

section
/-! SUPPORT. What a read and a write of a register leave of the event flags: all of them, but where the write is one of EVT_STATm, a RESET or an FW_ACTIVATE (R99, R135). -/

namespace Sys2Proof.Machine
open Sys2Proof

/-! ### Registers keep event flags -/

theorem evtMsgqRead_flag (n : Node) (k : Nat) : (evtMsgqRead n).2.evt.flag k = n.evt.flag k := by
  unfold evtMsgqRead
  repeat' split
  all_goals rfl

theorem globRead_flag (n : Node) (p : HostPort) (a k : Nat) : (globRead n p a).2.evt.flag k = n.evt.flag k := by
  unfold globRead
  repeat' split
  all_goals simp only [modPort_flag]

theorem evtRead_flag (n : Node) (a k : Nat) : (evtRead n a).2.evt.flag k = n.evt.flag k := by
  unfold evtRead
  simp only [apply_ite Prod.snd, evtMsgqRead_flag, flag_ite, ite_self]

theorem calendarRead_flag (p : HostPort) (a : Nat) (n : Node) (k : Nat) :
    (calendarRead p a n).2.evt.flag k = n.evt.flag k := by
  unfold calendarRead
  simp only [apply_ite Prod.snd, shadowRead_flag, flag_ite, ite_self]

theorem recorderRead_flag (p : HostPort) (a : Nat) (n : Node) (k : Nat) :
    (recorderRead p a n).2.2.evt.flag k = n.evt.flag k := by
  unfold recorderRead
  split <;> simp only [msLoRead_flag, msHiRead_flag, recDataRead_flag, stDataRead_flag]

theorem snapRead_flag (p : HostPort) (a : Nat) (n : Node) (k : Nat) :
    (snapRead p a n).2.2.evt.flag k = n.evt.flag k := by
  unfold snapRead
  dsimp only
  split <;> simp only [snapDataRead_flag]

theorem positionRead_flag (p : HostPort) (a : Nat) (n : Node) (k : Nat) :
    (positionRead p a n).2.evt.flag k = n.evt.flag k := by
  unfold positionRead
  simp only [apply_ite Prod.snd, pfRawRead_flag, pfWrapRead_flag, pfCapRead_flag, pfCapRest_flag, flag_ite, ite_self]

theorem readLow_flag (p : HostPort) (a : Nat) (m : Mems) (n : Node) (k : Nat) :
    (readLow p a m n).2.2.evt.flag k = n.evt.flag k := by
  unfold readLow
  simp only [apply_ite Prod.snd, globRead_flag, evtRead_flag, calendarRead_flag, recorderRead_flag, snapRead_flag,
    stgDataRead_flag, flag_ite, ite_self]

theorem readHigh_flag (p : HostPort) (a : Nat) (m : Mems) (n : Node) (k : Nat) :
    (readHigh p a m n).2.2.evt.flag k = n.evt.flag k := by
  have hfw : (fwDataRead m n).2.evt.flag k = n.evt.flag k := rfl
  unfold readHigh
  simp only [apply_ite Prod.snd, caBufData_flag, shMcStep_flag, positionRead_flag, lnCapData_flag, almLogData_flag, hfw,
    flag_ite, ite_self]

/-- A read clears no event flag; a read of EVT_MSGQ moves the queue alone. -/
theorem regRead_flag (p : HostPort) (a : Nat) (m : Mems) (n : Node) (k : Nat) :
    (regRead p a m n).2.2.evt.flag k = n.evt.flag k := by
  unfold regRead
  split
  · rfl
  · simp only [apply_ite Prod.snd, valueRead_flag, qseqRead_flag, readLow_flag, readHigh_flag, flag_ite, ite_self]

/-- A write of `v` at `a` that can clear no event flag: of a register of EVT_STATm it clears no bit (R135), of DEV_CTRL it is no
RESET (R102), of DUP_CTRL no FW_ACTIVATE (R469). -/
structure SparesFlags (a : Nat) (v : Word) : Prop where
  evtStat : 0x0C00 ≤ a → a < 0x0C10 → v = 0#32
  devCtrl : a = 0x0024 → fld v 3 0 ≠ 5
  dupCtrl : a = 0x7804 → fld v 3 0 ≠ 4

/-- Only the RESET command of DEV_CTRL asks for a reset. -/
theorem devCtrl_resets (key : BitVec 16) (cmd : Nat) (n : Node) (h : cmd ≠ 5) : (devCtrl key cmd n).2 = false := by
  unfold devCtrl
  split
  · rfl
  · rename_i ha
    dsimp only
    split
    · rfl
    · rfl
    · rfl
    · simp_all [devAllows]

theorem devCtrlWrite_flag {v : Word} (hv : fld v 3 0 ≠ 5) (m : Mems) {n : Node} {k : Nat} (h : n.evt.flag k = true) :
    (devCtrlWrite v m n).2.evt.flag k = true := by
  simp only [devCtrlWrite, devCtrl_resets _ _ n hv]
  exact devCtrl_flag _ _ n k h

theorem dupCtrl_flag {v : Word} (hv : fld v 3 0 ≠ 4) (m : Mems) (n : Node) (k : Nat) :
    (dupCtrl v m n).2.evt.flag k = n.evt.flag k := by
  unfold dupCtrl
  split
  · exact dupRefuse_flag n k
  · split
    · exact dupSwap_flag n k
    · exact dupPartnerReset_flag n k
    · exact fwInstallCmd_flag m n k
    · exact absurd ‹_› hv
    · exact dupRefuse_flag n k

theorem writeMem_flag {a : Nat} {v : Word} (hs : SparesFlags a v) {m : Mems} {n : Node} {x : Mems × Node} {k : Nat}
    (h : n.evt.flag k = true) (hx : writeMem a v m n = some x) : x.2.evt.flag k = true := by
  unfold writeMem at hx
  split at hx
  · exact Option.some.inj hx ▸ devCtrlWrite_flag (hs.devCtrl rfl) m h
  · exact Option.some.inj hx ▸ rmCtrl_flag _ _ m n k h
  · exact Option.some.inj hx ▸ (stgAddrWrite_flag v n k).trans h
  · exact Option.some.inj hx ▸ (stgDataWrite_flag v m n k).trans h
  · exact Option.some.inj hx ▸ (liveAddrWrite_flag v n k).trans h
  · exact Option.some.inj hx ▸ (liveDataWrite_flag v m n k).trans h
  · exact Option.some.inj hx ▸ liveCtrl_flag v m n k h
  · exact Option.some.inj hx ▸ (dupCtrl_flag (hs.dupCtrl rfl) m n k).trans h
  · exact Option.some.inj hx ▸ (fwDataWrite_flag v m n k).trans h
  · exact absurd hx (by simp)

/-! The event controller's own registers. -/

theorem append_ctl (e : Events) (j t : Nat) :
    (e.append j t).stat = e.stat ∧ (e.append j t).mask = e.mask ∧ (e.append j t).route = e.route := by
  unfold Events.append
  split <;> exact ⟨rfl, rfl, rfl⟩

/-- A change of masks or routes puts pending sources into the queue (R136) and touches no flag, mask or route besides. -/
theorem restream_ctl (old e : Events) (t : Nat) : (Events.restream old e t).stat = e.stat
    ∧ (Events.restream old e t).mask = e.mask ∧ (Events.restream old e t).route = e.route := by
  unfold Events.restream
  refine List.foldlRecOn
    (motive := fun (x : Events) => x.stat = e.stat ∧ x.mask = e.mask ∧ x.route = e.route) _ _ ⟨rfl, rfl, rfl⟩ ?_
  rintro x ⟨hs, hm, hr⟩ j -
  split
  · obtain ⟨as, am, ar⟩ := append_ctl x j t
    exact ⟨as.trans hs, am.trans hm, ar.trans hr⟩
  · exact ⟨hs, hm, hr⟩

theorem evtMaskWrite_flag (i : Nat) (v : Word) (n : Node) (k : Nat) : (evtMaskWrite i v n).evt.flag k = n.evt.flag k := by
  simp only [evtMaskWrite, Events.flag, restream_ctl]

theorem evtRouteWrite_flag (i : Nat) (v : Word) (n : Node) (k : Nat) : (evtRouteWrite i v n).evt.flag k = n.evt.flag k := by
  simp only [evtRouteWrite, Events.flag, restream_ctl]

theorem evtMsgStatWrite_flag (v : Word) (n : Node) (k : Nat) : (evtMsgStatWrite v n).evt.flag k = n.evt.flag k := by
  unfold evtMsgStatWrite
  split <;> rfl

theorem getLsbD_slice128 (x : BitVec 128) (i j : Nat) : (slice128 x i).getLsbD j = (decide (j < 32) && x.getLsbD (32 * i + j)) := by
  simp [slice128]

theorem getLsbD_ones32 (j : Nat) : (0xFFFFFFFF#128).getLsbD j = decide (j < 32) := by
  have h : (0xFFFFFFFF : Nat) = 2 ^ 32 - 1 := by norm_num
  rw [BitVec.getLsbD_ofNat, h, Nat.testBit_two_pow_sub_one]
  by_cases hj : j < 32
  · simp [hj]; omega
  · simp [hj]

/-- A slice put into the sources' bits: bits of slice `i` are those of the word, the others stand (R141). -/
theorem getLsbD_putSlice128 (x : BitVec 128) (i : Nat) (w : Word) (k : Nat) (hk : k < 128) :
    (putSlice128 x i w).getLsbD k = if k / 32 = i then w.getLsbD (k % 32) else x.getLsbD k := by
  simp only [putSlice128, BitVec.getLsbD_or, BitVec.getLsbD_and, BitVec.getLsbD_not, BitVec.getLsbD_shiftLeft,
    BitVec.getLsbD_setWidth, getLsbD_ones32, hk]
  by_cases h : k / 32 = i
  · have h1 : ¬ k < 32 * i := by omega
    have h2 : k - 32 * i = k % 32 := by omega
    have h3 : k % 32 < 32 := Nat.mod_lt _ (by norm_num)
    simp only [h, h1, h2, h3, decide_true, decide_false, if_true]
    simp only [Bool.not_true, Bool.not_false, Bool.and_false, Bool.and_true, Bool.true_and, Bool.false_or]
    simp [h3, lt_trans h3]
  · by_cases h1 : k < 32 * i
    · simp [h, h1]
    · have h2 : ¬ k - 32 * i < 32 := by omega
      simp [h, h1, h2, BitVec.getLsbD_of_ge _ _ (not_lt.mp h2)]

/-- A flag after a write of EVT_STATm (R135): cleared by a 1 at its place in slice `i`, and as it was elsewhere. -/
theorem evtStatWrite_flag (i : Nat) (v : Word) (n : Node) (k : Nat) (hk : k < 128) :
    (evtStatWrite i v 0#32 n).evt.flag k = if k / 32 = i then n.evt.flag k && !bitOf v (k % 32) else n.evt.flag k := by
  simp only [evtStatWrite, Events.flag, getLsbD_putSlice128 _ _ _ _ hk]
  split
  · have hj : 32 * i + k % 32 = k := by omega
    have h3 : k % 32 < 32 := Nat.mod_lt _ (by norm_num)
    simp only [w1c, bitOf, BitVec.getLsbD_and, BitVec.getLsbD_not, getLsbD_slice128, h3, hj, decide_true, Bool.true_and]
    simp
  · rfl

theorem evtStatWrite_zero_flag (i : Nat) (n : Node) (k : Nat) (h : n.evt.flag k = true) :
    (evtStatWrite i 0#32 0#32 n).evt.flag k = true := by
  rw [evtStatWrite_flag i _ n k (BitVec.lt_of_getLsbD h)]
  simp [bitOf, h]

theorem writeLow_flag {a : Nat} {v : Word} (hs : SparesFlags a v) (p : HostPort) {n : Node} {k : Nat}
    (h : n.evt.flag k = true) : (writeLow p a v n).2.evt.flag k = true := by
  have hstat : a < 0x0C00 ∨ 0x0C10 ≤ a ∨ (evtStatWrite ((a - 0x0C00) / 4) v 0#32 n).evt.flag k = true := by
    by_cases h1 : 0x0C00 ≤ a ∧ a < 0x0C10
    · rw [hs.evtStat h1.1 h1.2]
      exact .inr (.inr (evtStatWrite_zero_flag _ n k h))
    · omega
  unfold writeLow
  simp only [apply_ite Prod.snd, flag_ite]
  simp [h, evtMaskWrite_flag, evtRouteWrite_flag, evtMsgStatWrite_flag, mbxWrite_flag, clkStatusWrite_flag,
    clkWrite_flag, recSelWrite_flag, stSelWrite_flag, recAppWrite_flag, recAppend_flag, snapTrigger_flag, snapAddrWrite_flag,
    rndParamWrite_flag]
  tauto

theorem writeHigh_flag (p : HostPort) (a : Nat) (v : Word) {n : Node} {k : Nat} (h : n.evt.flag k = true) :
    (writeHigh p a v n).evt.flag k = true := by
  unfold writeHigh
  simp [h, flag_ite, uiWrite_flag, caWrite_flag, exWrite_flag, poWrite_flag, mwFlgWrite_flag, loWrite_flag, digWrite_flag,
    svWrite_flag, hbWrite_flag, pfWrite_flag, cmpWrite_flag, lnWrite_flag, almWrite_flag, seqWrite_flag, dspWrite_flag,
    dupStatusWrite_flag, fwAddrWrite_flag]

theorem regWrite_flag {a : Nat} {v : Word} (hs : SparesFlags a v) (p : HostPort) (m : Mems) {n : Node} {k : Nat}
    (h : n.evt.flag k = true) : (regWrite p a v m n).2.2.evt.flag k = true := by
  unfold regWrite
  repeat' split
  · exact (blkCtrlWrite_flag _ v n k).trans h
  · exact writeMem_flag hs h ‹_›
  · exact writeLow_flag hs p h
  · exact writeHigh_flag p a v h

end Sys2Proof.Machine
end

section
/-! SUPPORT. Event flags over whole accesses: host ports, SPI, Wayfare, Modbus, the link, mailboxes, and the scan tick. -/

namespace Sys2Proof.Machine
open Sys2Proof

/-! ### Accesses keep event flags -/

theorem readAccess_flag (p : HostPort) (a : Nat) (m : Mems) (n : Node) (k : Nat) :
    (readAccess p a m n).node.evt.flag k = n.evt.flag k := by
  unfold readAccess
  split
  · rfl
  · split
    · rfl
    · exact regRead_flag p a m n k

/-- Whether or not the write then touches EXPERT's 60 s, flags are those of the node at hand. -/
theorem touched_flag (b : Bool) (blk : Nat) (n : Node) (k : Nat) :
    (if b then expertTouch blk n else n).evt.flag k = n.evt.flag k := by
  rw [flag_ite, expertTouch_flag, ite_self]

theorem writeDo_flag {a : Nat} {v : Word} (hs : SparesFlags a v) (p : HostPort) (x : RegAttr) (m : Mems) {n : Node} {k : Nat}
    (h : n.evt.flag k = true) : (writeDo p a v x m n).node.evt.flag k = true := by
  unfold writeDo
  split
  · exact h
  · exact (touched_flag _ _ _ k).trans (regWrite_flag hs p m h)

theorem writeAccess_flag {a : Nat} {v : Word} (hs : SparesFlags a v) (p : HostPort) (m : Mems) {n : Node} {k : Nat}
    (h : n.evt.flag k = true) : (writeAccess p a v m n).node.evt.flag k = true := by
  have hl : (accLocked m n).node.evt.flag k = true := raise_flag' 7 n k h
  unfold writeAccess
  split
  · exact h
  · rename_i x _
    simp only [apply_ite AccOut.node, flag_ite, sendFwd_flag, expertTouch_flag, hl, writeDo_flag hs p x m h, accRefuse, h,
      ite_self]

/-- The plant blocks hold no register whose write clears a flag (R451). -/
theorem sparesFlags_of_plantReg {a : Nat} (v : Word) (h : plantReg a = true) : SparesFlags a v := by
  have hr : 0x2000 ≤ a ∧ a < 0x73FC := by
    simp [plantReg] at h
    omega
  exact ⟨by omega, by omega, by omega⟩

theorem partnerWrite_flag (p : HostPort) (a : Nat) (v : Word) (m : Mems) {n : Node} {k : Nat}
    (h : n.evt.flag k = true) : (partnerWrite p a v m n).node.evt.flag k = true := by
  unfold partnerWrite
  split
  · exact h
  · split
    · exact h
    · split
      · exact h
      · exact writeDo_flag (sparesFlags_of_plantReg v (by simpa using ‹¬ (!plantReg a) = true›)) p _ m h

/-- Accesses that can clear no event flag: every read, and the writes of `SparesFlags`. -/
def Acc.sparesFlags : Acc → Prop
  | .rd _ => True
  | .wr a v => SparesFlags a v

theorem accDo_flag {c : Acc} (hc : c.sparesFlags) (p : HostPort) (m : Mems) {n : Node} {k : Nat} (h : n.evt.flag k = true) :
    (accDo p c m n).node.evt.flag k = true := by
  cases c with
  | rd a => exact (readAccess_flag p a m n k).trans h
  | wr a v => exact writeAccess_flag hc p m h

theorem hostDo_flag {c : Acc} (hc : c.sparesFlags) (p : HostPort) (m : Mems) {n : Node} {k : Nat} (h : n.evt.flag k = true) :
    (hostDo p c m n).2.evt.flag k = true := by
  unfold hostDo
  simp only [flag_ite, pushFwd_flag, modPort_flag, accDo_flag hc p m h, ite_self]

/-! ### The SPI port -/

/-- A write of 0 clears nothing and commands nothing. -/
theorem sparesFlags_zero (a : Nat) : SparesFlags a 0#32 := ⟨fun _ _ => rfl, fun _ => by decide, fun _ => by decide⟩

theorem spiStart_flag {c : Acc} (hc : c.sparesFlags) (tag : Byte) (m : Mems) {n : Node} {k : Nat} (h : n.evt.flag k = true) :
    (spiStart tag c m n).2.evt.flag k = true := by
  have ho := accDo_flag hc .m1 m h
  unfold spiStart
  split
  · exact h
  · dsimp only
    split
    · exact (pushFwd_flag _ _ k).trans ho
    · exact ho

/-- A frame other than a WRITE carries the data word 0. -/
theorem spiFrame_flag (op : Nat) (tag : Byte) (a : Nat) (m : Mems) {n : Node} {k : Nat} (h : n.evt.flag k = true) :
    (spiFrame op tag a 0#32 m n).2.evt.flag k = true := by
  have h1 : ({ spiShift n.spi.resp n with spi.resp := {} } : Node).evt.flag k = true := h
  unfold spiFrame
  split
  · exact (spiHeld_flag _ _ n k).trans h
  · dsimp only
    split
    · exact h1
    · exact spiStart_flag (c := .rd a) trivial tag m h1
    · exact spiStart_flag (c := .wr a 0#32) (sparesFlags_zero a) tag m h1
    · exact h1

/-! ### Wayfare -/

/-- The module after an operation of a session, answered or waiting. -/
def WfOut.node : WfOut → Node
  | .done _ _ _ n => n
  | .wait _ _ n => n

theorem wfRequest_flag {q : WfReq} {op : Nat} {body : Session → Mems → Node → WfOut} {k : Nat}
    (hb : ∀ s m n, n.evt.flag k = true → (body s m n).node.evt.flag k = true) (m : Mems) {n : Node}
    (h : n.evt.flag k = true) : (wfRequest q op body m n).2.evt.flag k = true := by
  have h0 : (sessionTick n).evt.flag k = true := (sessionTick_flag n k).trans h
  unfold wfRequest
  split
  · exact h
  · dsimp only
    split
    · exact (wfSend_flag _ _ _ _ _ _ _ _ _ k).trans h0
    · rename_i s _
      repeat' split
      all_goals simp only [wfSend_flag, wfAnswer_flag, modSession_flag, h0]
      all_goals
        have hw := hb s m (modSession s.number (fun x => { x with lastSeq := some q.seq, resp := none })
          (modSession s.number (fun x => { x with lastReq := (sessionTick n).now }) (sessionTick n)))
          (by simp only [modSession_flag, h0])
        simpa only [WfOut.node, *] using hw

theorem wfHello_flag (net : Bool) (client minV maxV : Nat) (seq : BitVec 16) (sess : Word) (whole : Bool) (n : Node) (k : Nat) :
    (wfHello net client minV maxV seq sess whole n).evt.flag k = n.evt.flag k := by
  unfold wfHello
  simp only [flag_ite, wfSend_flag, sessionTick_flag, ite_self]

theorem wfClose_flag (q : WfReq) (n : Node) (k : Nat) : (wfClose q n).evt.flag k = n.evt.flag k := by
  unfold wfClose
  dsimp only
  repeat' split
  all_goals simp only [wfSend_flag, wfAnswer_flag, modSession_flag, sessionTick_flag]

theorem wfAccess_flag {c : Acc} (hc : c.sparesFlags) (s : Session) (m : Mems) (n : Node) (k : Nat) (h : n.evt.flag k = true) :
    (wfAccess c s m n).node.evt.flag k = true := by
  have ho := accDo_flag hc (netPort s.net) m h
  unfold wfAccess
  dsimp only
  split
  · exact h
  · split
    · exact (pushFwd_flag _ _ k).trans ho
    · exact ho

theorem burstGo_flag (p : HostPort) (step : Nat) (m : Mems) (c a : Nat) (done : List Word) (n : Node) (k : Nat)
    (h : n.evt.flag k = true) : (burstGo p step m c a done n).node.evt.flag k = true := by
  induction c generalizing a done n with
  | zero => exact h
  | succ c ih =>
    have ho : (readAccess p a m n).node.evt.flag k = true := (readAccess_flag p a m n k).trans h
    unfold burstGo
    split
    · exact h
    · dsimp only
      split
      · exact ho
      · exact ih _ _ _ ho

theorem wfBurst_flag (a count mode : Nat) (s : Session) (m : Mems) (n : Node) (k : Nat) (h : n.evt.flag k = true) :
    (wfBurst a count mode s m n).node.evt.flag k = true := by
  unfold wfBurst
  simp only [apply_ite WfOut.node, flag_ite, burstGo_flag _ _ m _ _ _ n k h]
  simp only [WfOut.node, h, ite_self]

theorem wfPost_flag (ch : Nat) (msg : List Word) (s : Session) (m : Mems) (n : Node) (k : Nat) (h : n.evt.flag k = true) :
    (wfPost ch msg s m n).node.evt.flag k = true := by
  unfold wfPost
  split
  · exact h
  · exact mbPostMsg_flag _ ch msg n k h

theorem wfFetch_flag (ch : Nat) (s : Session) (m : Mems) (n : Node) (k : Nat) (h : n.evt.flag k = true) :
    (wfFetch ch s m n).node.evt.flag k = true := by
  unfold wfFetch
  repeat' split
  all_goals exact h

theorem wfSubscribe_flag (period mode : Nat) (addrs : List Nat) (s : Session) (m : Mems) (n : Node) (k : Nat)
    (h : n.evt.flag k = true) : (wfSubscribe period mode addrs s m n).node.evt.flag k = true := by
  unfold wfSubscribe
  dsimp only
  repeat' split
  all_goals exact h

theorem wfSnap_flag (s : Session) (m : Mems) (n : Node) (k : Nat) (h : n.evt.flag k = true) :
    (wfSnap s m n).node.evt.flag k = true :=
  (snapTrigger_flag (netPort s.net) n k).trans h

/-! ### Modbus, the link and the mailboxes -/

theorem modbusConn_flag {b : Bool} {client t : Nat} {n n1 : Node} (hc : modbusConn b client t n = some n1) (k : Nat) :
    n1.evt.flag k = n.evt.flag k := by
  unfold modbusConn at hc
  dsimp only at hc
  repeat' split at hc
  · cases hc
  · exact Option.some.inj hc ▸ setEth_flag b _ n k
  · exact Option.some.inj hc ▸ setEth_flag b _ n k
  · cases hc

theorem mbRequest_flag {q : MbReq} {func : Nat} {m : Mems} {body : Node → Mems × Node} {k : Nat}
    (hb : ∀ n, n.evt.flag k = true → (body n).2.evt.flag k = true) {n : Node} (h : n.evt.flag k = true) :
    (mbRequest q func m body n).2.evt.flag k = true := by
  unfold mbRequest
  split
  · exact h
  · rename_i n1 hc
    have h1 : n1.evt.flag k = true := (modbusConn_flag hc k).trans h
    split
    · exact (mbExcept_flag q func 0x0B n1 k).trans h1
    · exact hb n1 h1

theorem mbReadHolding_flag (q : MbReq) (start count : Nat) (m : Mems) {n : Node} {k : Nat} (h : n.evt.flag k = true) :
    (mbReadHolding q start count m n).2.evt.flag k = true := by
  refine mbRequest_flag (fun n1 h1 => ?_) h
  simp only [flag_ite, mbExcept_flag, mbSend_flag, h1, ite_self]

theorem mbReadInput_flag (q : MbReq) (start count : Nat) (m : Mems) {n : Node} {k : Nat} (h : n.evt.flag k = true) :
    (mbReadInput q start count m n).2.evt.flag k = true := by
  refine mbRequest_flag (fun n1 h1 => ?_) h
  simp only [flag_ite, mbExcept_flag, mbSend_flag, h1, ite_self]

theorem mbWrites_flag (q : MbReq) (func reg arg : Nat) (l : List (Nat × Word)) (hl : ∀ x ∈ l, SparesFlags x.1 x.2) (bad : Nat)
    (m : Mems) (n : Node) (k : Nat) (h : n.evt.flag k = true) : (mbWrites q func reg arg l bad m n).2.evt.flag k = true := by
  induction l generalizing bad m n with
  | nil => exact (mbWritten_flag q func reg arg bad n k).trans h
  | cons x r ih =>
    obtain ⟨a, v⟩ := x
    have ho := writeAccess_flag (hl (a, v) (by simp)) (netPort q.net) m h
    have ih' := ih (fun y hy => hl y (by simp [hy]))
    unfold mbWrites
    dsimp only
    split
    · have hp := (pushFwd_flag (.modbus q func reg arg r.isEmpty bad) (writeAccess (netPort q.net) a v m n).node k).trans ho
      split
      · exact hp
      · exact ih' _ _ _ hp
    · exact ih' _ _ _ ho

theorem mbWriteSingle_flag (q : MbReq) (reg val : Nat) (m : Mems) {n : Node} {k : Nat} (h : n.evt.flag k = true) :
    (mbWriteSingle q reg val m n).2.evt.flag k = true := by
  refine mbRequest_flag (fun n1 h1 => ?_) h
  split
  · exact (mbExcept_flag q _ _ n1 k).trans h1
  · split
    · exact (mbExcept_flag q _ _ n1 k).trans h1
    · refine mbWrites_flag q _ _ _ _ (fun x hx => ?_) _ m n1 k h1
      obtain rfl := List.mem_singleton.mp hx
      exact ⟨by omega, by omega, by omega⟩

theorem mbPairs_sparesFlags (r : Nat) (vals : List (BitVec 16)) : ∀ x ∈ mbPairs r vals, SparesFlags x.1 x.2 := by
  fun_induction mbPairs r vals with
  | case1 r h l rest ih =>
    intro x hx
    rcases List.mem_cons.mp hx with rfl | hx
    · have ha : 0x5C10 ≤ mbPairAddr r ∧ mbPairAddr r % 0x80 ≠ 4 := by
        unfold mbPairAddr
        split <;> omega
      exact ⟨fun _ _ => by omega, fun _ => by omega, fun _ => by omega⟩
    · exact ih x hx
  | case2 r vals h => simp

theorem mbWriteMultiple_flag (q : MbReq) (start : Nat) (vals : List (BitVec 16)) (m : Mems) {n : Node} {k : Nat}
    (h : n.evt.flag k = true) : (mbWriteMultiple q start vals m n).2.evt.flag k = true := by
  refine mbRequest_flag (fun n1 h1 => ?_) h
  split
  · exact (mbExcept_flag q _ _ n1 k).trans h1
  · split
    · exact (mbExcept_flag q _ _ n1 k).trans h1
    · exact mbWrites_flag q _ _ _ _ (mbPairs_sparesFlags start vals) _ m n1 k h1

theorem slFwd_flag (f : FwdMsg) (m : Mems) {n : Node} {k : Nat} (h : n.evt.flag k = true) :
    (slFwd f m n).2.evt.flag k = true := by
  unfold slFwd
  split
  · exact h
  · split
    · exact (sendFrame_flag _ _ _ _ k).trans (partnerWrite_flag _ _ _ m h)
    · exact (fwdAnswered_flag _ n k).trans h

theorem mbBy_flag (id : Nat) {c : Acc} (hc : c.sparesFlags) {f : Node → Nat × Node} {k : Nat}
    (hf : ∀ n, n.evt.flag k = true → (f n).2.evt.flag k = true) (m : Mems) {n : Node} (h : n.evt.flag k = true) :
    (mbBy id c f m n).2.evt.flag k = true := by
  unfold mbBy
  split
  · exact hostDo_flag hc .m1 m h
  · exact hostDo_flag hc .m2 m h
  · exact hostDo_flag hc .m3 m h
  · exact hostDo_flag hc .m5 m h
  · split
    · exact hf n h
    · exact h

/-! ### The scan tick -/

theorem scanTick_flag (x : ScanMeas) (m : Mems) {n : Node} {k : Nat} (h : n.evt.flag k = true) :
    (scanTick x m n).2.evt.flag k = true := by
  unfold scanTick
  generalize tickTime scanPer n.time.lastScan n.now = t
  dsimp only
  generalize hn : ({ n.advance t with time.lastScan := t / scanPer } : Node) = n0
  have h0 : n0.evt.flag k = true := hn ▸ h
  have h1 := mirrorTick_flag _ k ((tickMeas_flag x n0 k).trans h0)
  exact serviceTick_flag _ k (roleTick_flag t _ k (deviceTick_flag t m _ k (swapExecute_flag t _ k h1)))

/-! ### The partner's HELLO -/

theorem slHello_flag (x : SlHello) (n : Node) (k : Nat) (h : n.evt.flag k = true) : (slHello x n).evt.flag k = true := by
  unfold slHello
  split
  · exact h
  · extract_lets own hi common d1 n1 n2 l2 d2 n3 n4
    have h2 : n2.evt.flag k = true := raise_flag' 114 _ k (raiseIf_flag _ 117 n1 k h)
    have h3 : n3.evt.flag k = true := by
      simp only [n3, flag_ite, h2, ite_self]
    have h4 : n4.evt.flag k = true := by
      simp only [n4, flag_ite, offerImage_flag, h3, ite_self]
    split
    · split
      · exact standbyAtReady_flag n4 k h4
      · exact h4
    · exact h4

end Sys2Proof.Machine
end

section
/-! SUPPORT. Event flags over whole commands. -/

namespace Sys2Proof.Machine
open Sys2Proof

/-! ### From operations to commands -/

theorem keepsFlags_onNode {f : Node → Node} (hf : ∀ n k, n.evt.flag k = true → (f n).evt.flag k = true) (s : State) :
    Ends (onNode f s) (KeepsFlags s) :=
  ⟨_, rfl, fun k => hf s.node k⟩

theorem keepsFlags_onBoth {f : Mems → Node → Mems × Node} (hf : ∀ m n k, n.evt.flag k = true → (f m n).2.evt.flag k = true)
    (s : State) : Ends (onBoth f s) (KeepsFlags s) :=
  ⟨_, rfl, fun k => hf s.mem s.node k⟩

section
variable {f : Node → Node} (hf : ∀ n k, n.evt.flag k = true → (f n).evt.flag k = true)
include hf

theorem keepsFlags_plantAt (t : Nat) (s : State) : Ends (onNode (plantAt t f) s) (KeepsFlags s) := by
  refine keepsFlags_onNode (fun n k h => ?_) s
  unfold plantAt
  split
  · exact settle_flag _ k (hf _ k ((advance_flag t n k).trans h))
  · exact h

theorem keepsFlags_plantOp (s : State) : Ends (onNode (plantOp f) s) (KeepsFlags s) := by
  refine keepsFlags_onNode (fun n k h => ?_) s
  unfold plantOp
  split
  · exact settle_flag _ k (hf n k h)
  · exact h

theorem keepsFlags_upAt (t : Nat) (s : State) : Ends (onNode (upAt t f) s) (KeepsFlags s) := by
  refine keepsFlags_onNode (fun n k h => ?_) s
  unfold upAt
  split
  · exact hf _ k ((advance_flag t n k).trans h)
  · exact h

/-- The clock of a module that is not up leaves its events alone. -/
theorem keepsFlags_clockAt (t : Nat) (s : State) : Ends (onNode (clockAt t f) s) (KeepsFlags s) := by
  refine keepsFlags_onNode (fun n k h => ?_) s
  unfold clockAt
  split
  · exact settle_flag _ k (hf _ k ((advance_flag t n k).trans h))
  · exact h

end

section
variable {f : Mems → Node → Mems × Node} (hf : ∀ m n k, n.evt.flag k = true → (f m n).2.evt.flag k = true)
include hf

theorem keepsFlags_plantMem (t : Nat) (s : State) : Ends (onBoth (plantMem t f) s) (KeepsFlags s) := by
  refine keepsFlags_onBoth (fun m n k h => ?_) s
  have hx := hf m (n.advance t) k ((advance_flag t n k).trans h)
  unfold plantMem
  split
  · dsimp only
    split
    · exact settle_flag _ k hx
    · exact hx
  · exact h

theorem keepsFlags_upMem (t : Nat) (s : State) : Ends (onBoth (upMem t f) s) (KeepsFlags s) := by
  refine keepsFlags_onBoth (fun m n k h => ?_) s
  unfold upMem
  split
  · exact hf m _ k ((advance_flag t n k).trans h)
  · exact h

end

theorem hostDoRead_flag (p : HostPort) (a : Nat) (m : Mems) {n : Node} {k : Nat} (h : n.evt.flag k = true) :
    (hostDo p (.rd a) m n).2.evt.flag k = true := hostDo_flag (c := .rd a) trivial p m h

theorem hostDoWrite_flag {a : Nat} {v : Word} (hs : SparesFlags a v) (p : HostPort) (m : Mems) {n : Node} {k : Nat}
    (h : n.evt.flag k = true) : (hostDo p (.wr a v) m n).2.evt.flag k = true := hostDo_flag (c := .wr a v) hs p m h

theorem keepsFlags_hostRead (p : HostPort) (a : Nat) (s : State) : Ends (onBoth (hostOp p (.rd a)) s) (KeepsFlags s) := by
  refine keepsFlags_onBoth (fun m n k h => ?_) s
  unfold hostOp
  split
  · exact hostDoRead_flag p a m h
  · exact h

theorem keepsFlags_hostWrite {a : Nat} {v : Word} (hs : SparesFlags a v) (p : HostPort) (s : State) :
    Ends (onBoth (hostOp p (.wr a v)) s) (KeepsFlags s) := by
  refine keepsFlags_onBoth (fun m n k h => ?_) s
  unfold hostOp
  split
  · exact hostDoWrite_flag hs p m h
  · exact h

theorem keepsFlags_hostPlant {a : Nat} {v : Word} (hs : SparesFlags a v) (t : Nat) (p : HostPort) (s : State) :
    Ends (onBoth (hostPlant t p (.wr a v)) s) (KeepsFlags s) :=
  keepsFlags_plantMem (fun m _ _ h => hostDoWrite_flag hs p m h) t s

theorem sparesFlags_of_addr {a : Nat} (v : Word) (h1 : a < 0x0C00 ∨ 0x0C10 ≤ a) (h2 : a ≠ 0x0024) (h3 : a ≠ 0x7804) :
    SparesFlags a v :=
  ⟨by omega, fun h => absurd h h2, fun h => absurd h h3⟩

theorem sparesFlags_blkCtrl (b : Fin 24) (v : Word) : SparesFlags (blkAddr.getD b.val 0) v := by
  have h : ∀ b : Fin 24, (blkAddr.getD b.val 0 < 0x0C00 ∨ 0x0C10 ≤ blkAddr.getD b.val 0) ∧ blkAddr.getD b.val 0 ≠ 0x0024
    ∧ blkAddr.getD b.val 0 ≠ 0x7804 := by decide
  exact sparesFlags_of_addr v (h b).1 (h b).2.1 (h b).2.2

theorem sparesFlags_devCtrl (key : BitVec 16) {c : Nat} (hc : c < 16) (h5 : c ≠ 5) : SparesFlags 0x0024 (keyed key c) :=
  ⟨by omega, fun _ => by rwa [fld_keyed_cmd key c hc], by omega⟩

theorem sparesFlags_dupCtrl (key : BitVec 16) {c : Nat} (hc : c < 16) (h4 : c ≠ 4) : SparesFlags 0x7804 (keyed key c) :=
  ⟨by omega, by omega, fun _ => by rwa [fld_keyed_cmd key c hc]⟩

/-- Settles O5, by cases on the command. The commands that `mayClearFlags` names are out by the hypothesis; every other one is one
operation behind a wrapper, and the operation's own lemma says that it keeps the flags. -/
theorem flagsClearOnlyByWritesAndResets : Obligations.FlagsClearOnlyByWritesAndResets := by
  unfold Obligations.FlagsClearOnlyByWritesAndResets
  intro c s hc
  cases c with
  -- left out by the statement: writes that may reach EVT_STATm, and resets
  | evtStatWrite | registerWrite | spiWrite | wayfareWrite | hostAccessComplete | canServiceRequest | canFrameReceive
  | supplyValid | supplyInvalid | resetPin | watchdogExpiry | resetCmd | slReset | fwActivate => cases hc
  -- the alarm engine
  | onDelayExpiry | offDelayExpiry | shelveExpiry | groupRelease | callEscalation | callRecall | patrolPrewarn | patrolExpired =>
    exact keepsFlags_plantAt (fun n k h => by
      simp [h, almOnDue_flag, almOffDue_flag, almShelveDue_flag, groupDue_flag, callEscalate_flag, callRecall_flag,
        patrolWarn_flag, patrolExpire_flag]) _ s
  -- charge channels
  | caSampleTrigger | caConversionEnd | caResetOpen | caCycleAbandon | caRecordComplete =>
    exact keepsFlags_plantAt (fun n k h => by
      simp [h, caTrigger_flag, caStepEnd_flag, caResetOpen_flag, caAbandonDue_flag, caRecord_flag]) _ s
  | bufHoldTimeout =>
    exact keepsFlags_upAt (fun n k h => by simp [h, caHoldTimeout_flag]) _ s
  -- the calendar clock
  | clockSecond | oscillatorStop | i11SupplyDip | backupSwitch =>
    exact keepsFlags_clockAt (fun n k h => by simp [h, clockSecond_flag, clkOscStop_flag, clkDip_flag, clkSource_flag]) _ s
  | shadowTimeout =>
    exact keepsFlags_upAt (fun n k h => by simp [h, shadowExpire_flag]) _ s
  | vbakMeasure =>
    exact keepsFlags_plantAt (fun n k h => by simp [h, clkVbak_flag]) _ s
  -- digital inputs and outputs
  | diChangeAccepted | diOpenWire | diGroupOt | ssOverload | ssRetry | tpCycleStart | tpOffEdge | doOverload | doOvertemp
  | doOvertempClear | doOpenWire | darkTest | darkTestEnd | doPulseEnd | fpOkChange =>
    exact keepsFlags_plantAt (fun n k h => by
      simp [h, diStep_flag, diOpenWire_flag, diOt_flag, ssOverload_flag, ssRetry_flag, tpStart_flag, tpOffEdge_flag,
        doOverload_flag, doOvertemp_flag, doOvertempClear_flag, doOpenWire_flag, darkTest_flag, darkEnd_flag, doPulseEnd_flag,
        fpSet_flag]) _ s
  -- the display
  | renderComplete | updateStart | frameScan | biasRiseStep | biasFault | dischargeStep =>
    exact keepsFlags_plantAt (fun n k h => by
      simp [h, dspRender_flag, dspStart_flag, dspFrame_flag, dspRiseStep_flag, dspFault_flag, dspDisStep_flag]) _ s
  -- the duplex link
  | slHello | slBeacon | linkLaneDown | linkLost | slMirror | slOutcmd | slSeqstep | slStandDown | slSwap
  | partnerWaitTimeout | findTimeout | roleInLow | overlapEnd | crossRampComplete | relInPulse | holdLatchTimeout
  | swapExecute | reclaimCmd | rejoinReset | fwInstallComplete | imageCheck | selfTestVector | slFrameCrcError =>
    exact keepsFlags_plantAt (fun n k h => by
      simp [h, slHello_flag, slBeacon_flag, laneDown_flag, linkLoss_flag, slMirror_flag, slOutcmd_flag, slSeqstep_flag,
        slStandDown_flag, slSwap_flag, partnerWaitOver_flag, findTimeout_flag, roleInLow_flag, overlapEnd_flag,
        crossRampEnd_flag, relIn_flag, holdTimeout_flag, swapExecute_flag, reclaim_flag, rejoinReset_flag, fwComplete_flag,
        flag_ite, moduleFault_flag, selfTest_flag, slCrcError_flag]) _ s
  -- host ports
  | spiFrameError | hello | closeSess | wayfareBadDatagram | sessionExpiry | snapCopyComplete =>
    exact keepsFlags_upAt (fun n k h => by
      simp [h, spiError_flag, wfHello_flag, wfClose_flag, raiseIf_flag, sessionExpiry_flag, snapComplete_flag]) _ s
  -- universal inputs
  | uiConversionComplete | uiFilterRestart | cjConversionComplete | exConversionComplete | excChangeApply | excSettleEnd
  | exRegOkChange | exLimitOnset | exSenseErrOnset =>
    exact keepsFlags_plantAt (fun n k h => by
      simp [h, uiStep_flag, uiFilterRestart_flag, cjConvert_flag, exConvert_flag, exChangeApply_flag, exSettleEnd_flag,
        exRegOkChange_flag, exLimit_flag, exSenseErr_flag]) _ s
  -- control lanes
  | laneEvaluation | followingError =>
    exact keepsFlags_plantAt (fun n k h => by simp [h, lnEval_flag, lnFollowDue_flag]) _ s
  -- the loader
  | routeMapVerify =>
    exact keepsFlags_plantAt (fun n k h => by simp [h, routeMapVerify_flag]) _ s
  -- loops, pulse outputs, HART
  | loReadback | loFieldSupplyLoss | miswireDetect | miswireReconnect | hartVariableDue | hartTransactionComplete
  | hartPassThrough | poPeriodBoundary | poPulseEnd | noResponseAfterRetries =>
    exact keepsFlags_plantAt (fun n k h => by
      simp [h, loReadback_flag, loFieldLoss_flag, mwDetect_flag, mwReconnect_flag, hartDue_flag, hartComplete_flag,
        hartPassReq_flag, poBoundary_flag, poPulseEnd_flag, hartNoResp_flag]) _ s
  -- the network ports
  | ethLinkChange | acnAcknowledge | canBusOff | canBusOffRecovery =>
    exact keepsFlags_plantAt (fun n k h => by simp [h, ethLink_flag, acnAck_flag, canBusOff_flag, canRecover_flag]) _ s
  | icmpEcho | modbusIdleClose | acnRequest | acnOther | alcPeriodic | canRawSend | acnDiscarded =>
    exact keepsFlags_upAt (fun n k h => by
      simp [h, icmpEcho_flag, modbusIdle_flag, acnRequest_flag, acnOther_flag, alcPeriodic_flag, canRawSend_flag,
        acnDiscard_flag]) _ s
  -- position interfaces
  | pfEdge | quadratureError | hallError | amplitudeError | ssiFrameEnd | stillTimeout =>
    exact keepsFlags_plantAt (fun n k h => by
      simp [h, pfEdge_flag, pfQuadError_flag, pfHallError_flag, pfAmplError_flag, pfSsi_flag, pfStill_flag]) _ s
  -- the recorder
  | milestoneCommit | windowClose | histogramSample | statWindowRoll =>
    exact keepsFlags_upAt (fun n k h => by simp [h, msCommit_flag, windowClose_flag, histSample_flag, statRoll_flag]) _ s
  | windowSample =>
    exact keepsFlags_plantAt (fun n k h => by simp [h, windowSample_flag]) _ s
  -- bypass converters, pairs, triads
  | bypassRoundStart | bypassTakeover | bypassReferencesDone | bypassCrossCheck | bypassHandback | bcSelfCalComplete
  | converterFault | pairWatchTimer | triadVote =>
    exact keepsFlags_plantAt (fun n k h => by
      simp [h, roundStart_flag, takeover_flag, referencesDone_flag, crossCheck_flag, handback_flag, bcSelfCal_flag,
        converterFault_flag, pairTimer_flag, triadDo_flag]) _ s
  -- the sequencer
  | stepTimeout | seqTimerExpiry | seqstepAcknowledged =>
    exact keepsFlags_plantAt (fun n k h => by simp [h, sqTimeout_flag, sqAcked_flag]) _ s
  -- shaped outputs
  | queuedFiringStart | endIns | seti | ramp | waitt | waiti | waitp | holdIns | freew | quench | markIns | jif | loopIns
  | flagIns | illegalInstruction | waittExpiry | waitiMet | waitiTimeout | waitpReached | waitpEarlyEnd | holdEnd
  | rampComplete | staggerExpiry | svOverCurrent | bankOverCurrent | senseSample =>
    exact keepsFlags_plantAt (fun n k h => by
      simp [h, svQueued_flag, svEnd_flag, svSeti_flag, svRamp_flag, svWaitt_flag, svWaiti_flag, svWaitp_flag, svHold_flag,
        svFreew_flag, svQuench_flag, svMark_flag, svJif_flag, svLoop_flag, svFlag_flag, svIllegalAt_flag, svWaittEnd_flag,
        svWaitiMet_flag, svWaitiTmo_flag, svWaitpDone_flag, svWaitpEarly_flag, svHoldEnd_flag, svRampDone_flag, svStagger_flag,
        svOverCurrent_flag, bankOverCurrent_flag, svSense_flag]) _ s
  -- device states
  | runEntry | haltEffect | initialCalibrationComplete | feedLost | feedRegained | overtempSet | overtempClear =>
    exact keepsFlags_plantAt (fun n k h => by
      simp [h, runWhenDue_flag, haltWhenDue_flag, calibrated_flag, feedSet_flag, overtempSet_flag]) _ s
  -- ticks, islands, engines
  | fineTick | junctionDrain =>
    exact keepsFlags_plantOp (fun n k h => by simp [h, fineTick_flag, drain_flag]) s
  | islandFault | causewayTimeout | engineFailure | spareStart | lockstepMismatch | staleTimeout | scrubPass =>
    exact keepsFlags_plantAt (fun n k h => by
      simp [h, islandFault_flag, dropWaiting_flag, causewayTimeout_flag, engineFail_flag, spareStart_flag, lockstep_flag,
        staleOne_flag, scrub_flag]) _ s
  -- reads by a host port
  | devtimeLoRead | devtimeHiRead | resultQseqRead | stgDataRead | snapDataRead | evtMsgqRead | caBufDataRead | pfRawRead
  | pfCapRead | lnCapDataRead | almLogDataRead | msLoRead | recDataRead | stDataRead =>
    exact keepsFlags_hostRead _ _ s
  | calShadowRead | calDateRead => exact keepsFlags_upMem (fun m _ _ h => hostDoRead_flag _ _ m h) _ s
  | resultValueRead =>
    exact keepsFlags_plantMem (fun m _ k h => hostDoRead_flag _ _ m (eccOnRead_flag _ _ _ k h)) _ s
  -- writes by a host port at registers other than EVT_STATm, DEV_CTRL and DUP_CTRL
  | stgAddrWrite | snapAddrWrite | evtMaskWrite | evtRouteWrite | evtMsgStatWrite | bufRelease | almFindWrite | almLogIdxWrite
  | recSelWrite | stSelWrite =>
    exact keepsFlags_hostWrite (sparesFlags_of_addr _ (by omega) (by omega) (by omega)) _ s
  | snapTrigger | bufOpen =>
    exact keepsFlags_upMem (fun m _ _ h => hostDoWrite_flag (sparesFlags_of_addr _ (by omega) (by omega) (by omega)) _ m h) _ s
  | stgDataWrite | checkImg | commitImg | programA | programB | preferA | preferB | abortImg | liveDataWrite | submitLive
  | cancelLive | uiFiltWrite | uiForceCtrlWrite | exCtrlWrite | caRangeRequest | loDemandWrite | doCmdWrite | ilResetWrite
  | svFireWrite | pfCtrlClr | cmpSetpos | cmpSeten | lnModeRequest | applyLane | testStart | testStop | ackPt | ackGroup | ackAll
  | alarmReset | shelvePt | unshelvePt | inhibitPt | releasePt | foReset | outOfService | returnPt | almCallAck | almDutyWrite
  | patrolStart | patrolStop | patrolPress | seqStart | seqStop | seqHold | seqResume | seqGoto | dspRedraw | dspFull | biasOn
  | biasOff | fwDataWrite | setBin | setBcd | setOfs | dstStepFwd | dstStepBack | recAppend =>
    exact keepsFlags_hostPlant (sparesFlags_of_addr _ (by omega) (by omega) (by omega)) _ _ s
  | blkCtrlWrite _ b v => exact keepsFlags_hostPlant (sparesFlags_blkCtrl b v) _ _ s
  -- DEV_CTRL and DUP_CTRL with a command that resets nothing
  | runCmd | haltCmd | safeCmd => exact keepsFlags_hostPlant (sparesFlags_devCtrl _ (by omega) (by omega)) _ _ s
  | swapCmd | partnerReset | fwInstall => exact keepsFlags_hostPlant (sparesFlags_dupCtrl _ (by omega) (by omega)) _ _ s
  -- SPI and Wayfare
  | spiNop | spiRead => exact keepsFlags_upMem (fun m _ _ h => spiFrame_flag _ _ _ m h) _ s
  | wayfareRead =>
    exact keepsFlags_upMem (fun m _ k h => wfRequest_flag (fun s m n => wfAccess_flag (c := .rd _) trivial s m n k) m h) _ s
  | burstRead => exact keepsFlags_upMem (fun m _ k h => wfRequest_flag (fun s m n => wfBurst_flag _ _ _ s m n k) m h) _ s
  | mbxPost => exact keepsFlags_upMem (fun m _ k h => wfRequest_flag (fun s m n => wfPost_flag _ _ s m n k) m h) _ s
  | mbxFetch => exact keepsFlags_upMem (fun m _ k h => wfRequest_flag (fun s m n => wfFetch_flag _ s m n k) m h) _ s
  | subscribe => exact keepsFlags_upMem (fun m _ k h => wfRequest_flag (fun s m n => wfSubscribe_flag _ _ _ s m n k) m h) _ s
  | snapOp => exact keepsFlags_upMem (fun m _ k h => wfRequest_flag (fun s m n => wfSnap_flag s m n k) m h) _ s
  -- mailboxes, by a port or by an engine
  | mbPost =>
    exact keepsFlags_plantMem (fun m _ k h => mbBy_flag _ (c := .wr _ _) (sparesFlags_of_addr _ (by omega) (by omega) (by omega))
      (fun n => mbPost_flag _ _ n k) m h) _ s
  | mbFetch =>
    exact keepsFlags_plantMem (fun m _ k h => mbBy_flag _ (c := .wr _ _) (sparesFlags_of_addr _ (by omega) (by omega) (by omega))
      (fun n hn => (mbFetch_flag _ _ n k).trans hn) m h) _ s
  | mbAck =>
    exact keepsFlags_plantMem (fun m _ k h => mbBy_flag _ (c := .wr _ _) (sparesFlags_of_addr _ (by omega) (by omega) (by omega))
      (fun n => mbAck_flag _ _ _ n k) m h) _ s
  -- Modbus
  | readHoldingRegisters => exact keepsFlags_upMem (fun m _ _ h => mbReadHolding_flag _ _ _ m h) _ s
  | readInputRegisters => exact keepsFlags_upMem (fun m _ _ h => mbReadInput_flag _ _ _ m h) _ s
  | writeSingleRegister => exact keepsFlags_plantMem (fun m _ _ h => mbWriteSingle_flag _ _ _ m h) _ s
  | writeMultipleRegisters => exact keepsFlags_plantMem (fun m _ _ h => mbWriteMultiple_flag _ _ _ m h) _ s
  -- the loader, the link and the scan tick, which also reach byte memories
  | routeMapLoad => exact keepsFlags_plantMem (fun m n k h => by simp [h, routeMapLoad_flag]) _ s
  | checkComplete => exact keepsFlags_plantMem (fun m n k h => by simp [h, checkComplete_flag]) _ s
  | programComplete => exact keepsFlags_plantMem (fun m n k h => by simp [h, programComplete_flag]) _ s
  | liveCheckComplete => exact keepsFlags_plantMem (fun m n k h => liveCheck_flag m n k h) _ s
  | liveReplacement => exact keepsFlags_plantMem (fun m n k h => liveReplace_flag m n k h) _ s
  | slImage =>
    exact keepsFlags_plantMem (fun m n k h => by
      simp [h, apply_ite Prod.snd, flag_ite, partnerLive_flag, partnerImage_flag]) _ s
  | slFwd => exact keepsFlags_plantMem (fun m _ _ h => slFwd_flag _ m h) _ s
  | slFwimg => exact keepsFlags_plantMem (fun m n k h => (fwRelay_flag _ m n k).trans h) _ s
  | scanTick => exact keepsFlags_plantMem (fun m _ _ h => scanTick_flag _ m h) _ s
  | expertTimeout b =>
    exact keepsFlags_onNode (f := fun n => if n.up then expertTimeout b.val n else n)
      (fun n k h => by simp [h, flag_ite, expertTimeout_flag]) s

end Sys2Proof.Machine
end

section
/-! SUPPORT. What an access by a host port leaves as it was: the rule that joins the port, the link and the level check to the register. -/

namespace Sys2Proof.Machine
open Sys2Proof

/-! ### Leaving parts as they were -/

theorem Leaves.refl (ps : List Part) (n : Node) : Leaves ps n n := fun _ _ => rfl

theorem Leaves.trans {ps : List Part} {a b c : Node} (h : Leaves ps a b) (g : Leaves ps b c) : Leaves ps a c :=
  fun x hx => (g x hx).trans (h x hx)

theorem Leaves.mono {ps qs : List Part} {n m : Node} (h : Leaves ps n m) (hs : ps ⊆ qs) : Leaves qs n m :=
  fun x hx => h x (fun hp => hx (hs hp))

theorem Leaves.ite {c : Prop} [Decidable c] {ps : List Part} {n a b : Node} (ha : c → Leaves ps n a) (hb : ¬ c → Leaves ps n b) :
    Leaves ps n (if c then a else b) := by
  split
  · exact ha ‹_›
  · exact hb ‹_›

theorem advance_leaves (t : Nat) (n : Node) : Leaves [.devtime] n (n.advance t) := fun _ hx => advance_get t n hx

theorem settle_leaves (n : Node) : Leaves plantParts n (settle n) := fun _ hx => settle_get n hx

theorem modPort_leaves (p : HostPort) (f : Port → Port) (n : Node) : Leaves [.port p] n (n.modPort p f) :=
  fun _ hx => modPort_get p f n hx

theorem advance_zero (n : Node) : n.advance 0 = n := by simp [Node.advance]

/-! ### What an access leaves as it was -/

/-- An access at port `p` keeps the byte memories, and the module outside `qs`. -/
def AccFrame (p : HostPort) (c : Acc) (qs : List Part) : Prop :=
  ∀ m n, (hostDo p c m n).1 = m ∧ Leaves qs n (hostDo p c m n).2

/-- A write of `v` at `a` that is carried out keeps the byte memories, and the module outside `ps`. -/
def WritesOnly (p : HostPort) (a : Nat) (v : Word) (ps : List Part) : Prop :=
  ∀ m n, (regWrite p a v m n).2.1 = m ∧ Leaves ps n (regWrite p a v m n).2.2

/-- A read at `a` that is served keeps the module outside `ps`. -/
def ReadsOnly (p : HostPort) (a : Nat) (ps : List Part) : Prop := ∀ m n, Leaves ps n (regRead p a m n).2.2

theorem accFrame_of_reads {p : HostPort} {a : Nat} {ps qs : List Part} (h : ReadsOnly p a ps) (hs : ps ⊆ qs)
    (hp : Part.port p ∈ qs) : AccFrame p (.rd a) qs := by
  have hr : ∀ m n, (readAccess p a m n).mem = m ∧ Leaves qs n (readAccess p a m n).node ∧ (readAccess p a m n).fwd = false := by
    intro m n
    unfold readAccess
    split
    · exact ⟨rfl, Leaves.refl _ _, rfl⟩
    · split
      · exact ⟨rfl, Leaves.refl _ _, rfl⟩
      · exact ⟨rfl, (h m n).mono hs, rfl⟩
  intro m n
  obtain ⟨hm, hn, hf⟩ := hr m n
  refine ⟨hm, ?_⟩
  simp only [hostDo, accDo, hf, Bool.false_eq_true, if_false]
  exact hn.trans ((modPort_leaves p _ _).mono (by simpa using hp))

/-- Where a port's write at `a` shows: at the port; with the link where it may be handed on (R451); with the block's EXPERT and
event 7 where the register is X-level (R130, R131). -/
structure WriteReach (p : HostPort) (a : Nat) (qs : List Part) : Prop where
  port : Part.port p ∈ qs
  link : plantReg a = true → [Part.net, .tx] ⊆ qs
  level : ∀ x, regAttr a = some x → x.x = true → Part.blk :: eventParts ⊆ qs

theorem touched_leaves (b : Bool) (blk : Nat) (n : Node) {qs : List Part} (h : b = true → Part.blk ∈ qs) :
    Leaves qs n (if b then expertTouch blk n else n) :=
  Leaves.ite (fun hb _ hx => expertTouch_get blk n (fun hm => hx (List.mem_singleton.mp hm ▸ h hb))) (fun _ => Leaves.refl _ _)

theorem writeDo_leaves {p : HostPort} {a : Nat} {v : Word} {ps qs : List Part} (h : WritesOnly p a v ps) (hs : ps ⊆ qs)
    (x : RegAttr) (hl : x.x = true → Part.blk ∈ qs) (m : Mems) (n : Node) :
    (writeDo p a v x m n).mem = m ∧ Leaves qs n (writeDo p a v x m n).node ∧ (writeDo p a v x m n).fwd = false := by
  unfold writeDo
  split
  · exact ⟨rfl, Leaves.refl _ _, rfl⟩
  · obtain ⟨hm, hn⟩ := h m n
    exact ⟨hm, (hn.mono hs).trans (touched_leaves _ _ _ (fun hb => hl (by simp_all))), rfl⟩

theorem sendFwd_leaves (p : HostPort) (a : Nat) (v : Word) (n : Node) : Leaves [.tx] n (sendFwd p a v n) :=
  fun _ hx => sendFwd_get p a v n hx

theorem writeAccess_leaves {p : HostPort} {a : Nat} {v : Word} {ps qs : List Part} (h : WritesOnly p a v ps) (hs : ps ⊆ qs)
    (hr : WriteReach p a qs) (m : Mems) (n : Node) :
    (writeAccess p a v m n).mem = m ∧ Leaves qs n (writeAccess p a v m n).node
      ∧ ((writeAccess p a v m n).fwd = true → plantReg a = true) := by
  unfold writeAccess
  split
  · exact ⟨rfl, Leaves.refl _ _, nofun⟩
  · rename_i x hx
    have hblk : x.x = true → Part.blk ∈ qs := fun hb => hr.level x hx hb (by simp)
    have hlock : levelLocked n a x = true → Leaves qs n (accLocked m n).node := fun hl =>
      Leaves.mono (ps := eventParts) (fun y hy => raise_get 7 n (by simpa [eventParts, and_assoc, or_comm, or_left_comm] using hy))
        (fun y hy => hr.level x hx (by simp_all [levelLocked]) (by simp [hy]))
    split
    · have hp : plantReg a = true := by simp_all [forwards]
      split
      · exact ⟨rfl, Leaves.refl _ _, nofun⟩
      · split
        · exact ⟨rfl, hlock ‹_›, nofun⟩
        · exact ⟨rfl, (touched_leaves _ _ _ hblk).trans ((sendFwd_leaves _ _ _ _).mono (by simpa using hr.link hp (by simp))),
            fun _ => hp⟩
    · split
      · exact ⟨rfl, Leaves.refl _ _, nofun⟩
      · split
        · exact ⟨rfl, hlock ‹_›, nofun⟩
        · obtain ⟨hm, hn, hf⟩ := writeDo_leaves h hs x hblk m n
          exact ⟨hm, hn, by simp [hf]⟩

theorem accFrame_of_writes {p : HostPort} {a : Nat} {v : Word} {ps qs : List Part} (h : WritesOnly p a v ps) (hs : ps ⊆ qs)
    (hr : WriteReach p a qs) : AccFrame p (.wr a v) qs := by
  intro m n
  obtain ⟨hm, hn, hf⟩ := writeAccess_leaves h hs hr m n
  refine ⟨hm, ?_⟩
  have h1 : Leaves qs n ((writeAccess p a v m n).node.modPort p
      (fun q => { q with ans := { status := (writeAccess p a v m n).st, addr := a, data := (writeAccess p a v m n).data } })) :=
    hn.trans ((modPort_leaves p _ _).mono (by simpa using hr.port))
  refine Leaves.ite (fun hw => h1.trans ?_) (fun _ => h1)
  exact fun x hx => pushFwd_get _ _ (fun hm => hx (List.mem_singleton.mp hm ▸ hr.link (hf hw) (by simp)))

/-! ### From accesses to commands -/

section
variable {p : HostPort} {c : Acc} {qs : List Part} (h : AccFrame p c qs) (s : State)
include h

theorem keeps_hostOp : Ends (onBoth (hostOp p c) s) (Keeps qs s) := by
  refine ⟨_, rfl, rfl, ?_⟩
  simp only [hostOp]
  split
  · exact h s.mem s.node
  · exact ⟨rfl, Leaves.refl _ _⟩

theorem keeps_upMem (t : Nat) (ht : Part.devtime ∈ qs) : Ends (onBoth (upMem t (hostDo p c)) s) (Keeps qs s) := by
  refine ⟨_, rfl, rfl, ?_⟩
  simp only [upMem]
  split
  · obtain ⟨hm, hn⟩ := h s.mem (s.node.advance t)
    exact ⟨hm, ((advance_leaves t s.node).mono (by simpa using ht)).trans hn⟩
  · exact ⟨rfl, Leaves.refl _ _⟩

end

/-- A command whose operation leaves all but `qs`, which holds what the plant's own work may change. -/
theorem keeps_plantMem {f : Mems → Node → Mems × Node} {qs : List Part} (hf : ∀ m n, (f m n).1 = m ∧ Leaves qs n (f m n).2)
    (hq : plantParts ⊆ qs) (t : Nat) (ht : t = 0 ∨ Part.devtime ∈ qs) (s : State) :
    Ends (onBoth (plantMem t f) s) (Keeps qs s) := by
  refine ⟨_, rfl, rfl, ?_⟩
  have ha : Leaves qs s.node (s.node.advance t) := by
    rcases ht with rfl | ht
    · rw [advance_zero]
      exact Leaves.refl _ _
    · exact (advance_leaves t s.node).mono (by simpa using ht)
  simp only [plantMem]
  split
  · obtain ⟨hm, hn⟩ := hf s.mem (s.node.advance t)
    exact ⟨hm, Leaves.ite (fun _ => (ha.trans hn).trans ((settle_leaves _).mono hq)) (fun _ => ha.trans hn)⟩
  · exact ⟨rfl, Leaves.refl _ _⟩

theorem keeps_hostPlant {p : HostPort} {c : Acc} {qs : List Part} (h : AccFrame p c qs) (hq : plantParts ⊆ qs) (t : Nat)
    (ht : t = 0 ∨ Part.devtime ∈ qs) (s : State) : Ends (onBoth (hostPlant t p c) s) (Keeps qs s) :=
  keeps_plantMem (f := hostDo p c) h hq t ht s

end Sys2Proof.Machine
end

section
/-! SUPPORT. Which operation of the model a register's write is, by the address. -/

namespace Sys2Proof.Machine
open Sys2Proof

/-! ### Which operation a register's write is -/

/-- The writes of `writeMem` are at nine addresses. -/
theorem writeMem_none {a : Nat} (v : Word) (m : Mems) (n : Node)
    (h : a ∉ [0x0024, 0x0804, 0x0840, 0x0844, 0x0850, 0x0854, 0x0858, 0x7804, 0x7844]) : writeMem a v m n = none := by
  simp only [List.mem_cons, List.not_mem_nil, or_false, not_or] at h
  unfold writeMem
  split <;> simp_all

theorem regWrite_low {a : Nat} (ha : a < 0x2000) (hb : blkAt a = none)
    (hm : a ∉ [0x0024, 0x0804, 0x0840, 0x0844, 0x0850, 0x0854, 0x0858, 0x7804, 0x7844]) (p : HostPort) (v : Word) (m : Mems)
    (n : Node) : regWrite p a v m n = ((writeLow p a v n).1, m, (writeLow p a v n).2) := by
  simp [regWrite, hb, writeMem_none v m n hm, ha]

theorem regWrite_high {a : Nat} (ha : 0x2000 ≤ a) (hb : blkAt a = none) (hd : a ≠ 0x7804 ∧ a ≠ 0x7844) (p : HostPort) (v : Word)
    (m : Mems) (n : Node) : regWrite p a v m n = (0, m, writeHigh p a v n) := by
  have hm : a ∉ [0x0024, 0x0804, 0x0840, 0x0844, 0x0850, 0x0854, 0x0858, 0x7804, 0x7844] := by
    simp only [List.mem_cons, List.not_mem_nil, or_false, not_or]
    omega
  simp [regWrite, hb, writeMem_none v m n hm, not_lt.mpr ha]

theorem regWrite_blkCtrl (p : HostPort) (b : Fin 24) (v : Word) (m : Mems) (n : Node) :
    regWrite p (blkAddr.getD b.val 0) v m n = (0, m, blkCtrlWrite b.val v n) := by
  have h : ∀ b : Fin 24, blkAt (blkAddr.getD b.val 0) = some b.val := by decide
  simp only [regWrite, h b]

section
variable (p : HostPort) {a : Nat} (v : Word) (n : Node)

theorem writeLow_evtStat (h1 : 0x0C00 ≤ a) (h2 : a < 0x0C10) :
    writeLow p a v n = (0, evtStatWrite ((a - 0x0C00) / 4) v 0#32 n) := by
  unfold writeLow
  iterate 3 rw [if_neg (by omega)]
  rw [if_pos h2]

theorem writeLow_evtMask (h1 : 0x0C10 ≤ a) (h2 : a < 0x0C20) : writeLow p a v n = (0, evtMaskWrite ((a - 0x0C10) / 4) v n) := by
  unfold writeLow
  iterate 4 rw [if_neg (by omega)]
  rw [if_pos h2]

theorem writeLow_evtRoute (h1 : 0x0C20 ≤ a) (h2 : a < 0x0C80) : writeLow p a v n = (0, evtRouteWrite ((a - 0x0C40) / 4) v n) := by
  unfold writeLow
  iterate 5 rw [if_neg (by omega)]
  rw [if_pos h2]

theorem writeLow_evtMsgStat (h1 : 0x0C80 ≤ a) (h2 : a < 0x1000) : writeLow p a v n = (0, evtMsgStatWrite v n) := by
  unfold writeLow
  iterate 6 rw [if_neg (by omega)]
  rw [if_pos h2]

theorem writeHigh_ui (h2 : a < 0x3000) : writeHigh p a v n = uiWrite ((a - 0x2000) / 0x40) (a % 0x40) v n := if_pos h2

theorem writeHigh_ca (h1 : 0x3000 ≤ a) (h2 : a < 0x3400) :
    writeHigh p a v n = caWrite p ((a - 0x3000) / 0x40) (a % 0x40) v n := by
  unfold writeHigh
  rw [if_neg (by omega), if_pos h2]

theorem writeHigh_ex (h1 : 0x3400 ≤ a) (h2 : a < 0x3600) :
    writeHigh p a v n = exWrite ((a - 0x3400) / 0x20) (a % 0x20) v n := by
  unfold writeHigh
  iterate 2 rw [if_neg (by omega)]
  rw [if_pos h2]

theorem writeHigh_lo (h1 : 0x3800 ≤ a) (h2 : a < 0x3C00) :
    writeHigh p a v n = loWrite ((a - 0x3800) / 0x40) (a % 0x40) v n := by
  unfold writeHigh
  iterate 5 rw [if_neg (by omega)]
  rw [if_pos h2]

theorem writeHigh_dig (h1 : 0x3C00 ≤ a) (h2 : a < 0x4800) : writeHigh p a v n = digWrite a v n := by
  unfold writeHigh
  iterate 6 rw [if_neg (by omega)]
  rw [if_pos h2]

theorem writeHigh_sv (h1 : 0x4800 ≤ a) (h2 : a < 0x4C00) :
    writeHigh p a v n = svWrite ((a - 0x4800) / 0x40) (a % 0x40) v n := by
  unfold writeHigh
  iterate 7 rw [if_neg (by omega)]
  rw [if_pos h2]

theorem writeHigh_pf (h1 : 0x5000 ≤ a) (h2 : a < 0x5800) :
    writeHigh p a v n = pfWrite ((a - 0x5000) / 0x100) (a % 0x100) v n := by
  unfold writeHigh
  iterate 10 rw [if_neg (by omega)]
  rw [if_pos h2]

theorem writeHigh_cmp (h1 : 0x5800 ≤ a) (h2 : a < 0x5C00) : writeHigh p a v n = cmpWrite a v n := by
  unfold writeHigh
  iterate 11 rw [if_neg (by omega)]
  rw [if_pos h2]

theorem writeHigh_ln (h1 : 0x5C00 ≤ a) (h2 : a < 0x6C00) :
    writeHigh p a v n = lnWrite p ((a - 0x5C00) / 0x80) ((a - 0x5C00) % 0x80) v n := by
  unfold writeHigh
  iterate 12 rw [if_neg (by omega)]
  rw [if_pos h2]

theorem writeHigh_alm (h1 : 0x6C00 ≤ a) (h2 : a < 0x7000) : writeHigh p a v n = almWrite p a v n := by
  unfold writeHigh
  iterate 13 rw [if_neg (by omega)]
  rw [if_pos h2]

theorem writeHigh_seq (h1 : 0x7000 ≤ a) (h2 : a < 0x7400) : writeHigh p a v n = seqWrite a v n := by
  unfold writeHigh
  iterate 14 rw [if_neg (by omega)]
  rw [if_pos h2]

theorem writeHigh_dsp (h1 : 0x7400 ≤ a) (h2 : a < 0x7800) : writeHigh p a v n = dspWrite a v n := by
  unfold writeHigh
  iterate 15 rw [if_neg (by omega)]
  rw [if_pos h2]

end

end Sys2Proof.Machine
end

section
/-! SUPPORT. What each register's write leaves as it was. -/

namespace Sys2Proof.Machine
open Sys2Proof

/-! ### What each register's write leaves as it was -/

/-- Above 0x2000 the BLK_CTRL registers end their kilobytes (R543). -/
theorem blkAt_high {a : Nat} (ha : 0x2000 ≤ a) (hm : a % 0x400 ≠ 0x3FC) : blkAt a = none := by
  have h : a ∉ blkAddr := by
    simp only [blkAddr, List.mem_cons, List.not_mem_nil, or_false, not_or]
    omega
  simp [blkAt, h]

section
variable {p : HostPort} {a : Nat} {v : Word} {ps : List Part}

/-- A register below 0x2000 whose write is this operation of the node alone. -/
theorem WritesOnly.of_eq {st : Node → Nat} {f : Node → Node} (he : ∀ m n, regWrite p a v m n = (st n, m, f n))
    (hf : ∀ n, Leaves ps n (f n)) : WritesOnly p a v ps := by
  intro m n
  rw [he]
  exact ⟨rfl, hf n⟩

theorem WritesOnly.high (ha : 0x2000 ≤ a) (hm : a % 0x400 ≠ 0x3FC) (hd : a ≠ 0x7804 ∧ a ≠ 0x7844)
    (h : ∀ n, Leaves ps n (writeHigh p a v n)) : WritesOnly p a v ps :=
  WritesOnly.of_eq (regWrite_high ha (blkAt_high ha hm) hd p v) h

/-! Loader, device, host ports, events. -/

theorem writesOnly_stgAddr : WritesOnly p 0x0840 v [.ld] :=
  WritesOnly.of_eq (regWrite_stgAddr p v) (fun n _ hx => stgAddrWrite_get v n hx)

/-- ABORT apart, a command of RM_CTRL writes no byte memory at once (R74). -/
theorem rmCtrl_mem (key : Nat) {cmd : Nat} (hc : 1 ≤ cmd ∧ cmd ≤ 6) (m : Mems) (n : Node) : (rmCtrl key cmd m n).1 = m := by
  unfold rmCtrl
  split
  · rfl
  · split
    · rfl
    · obtain ⟨h1, h6⟩ := hc
      interval_cases cmd <;> rfl

theorem writesOnly_rmCtrl (key : BitVec 16) {cmd : Nat} (hc : 1 ≤ cmd ∧ cmd ≤ 6) :
    WritesOnly p 0x0804 (keyed key cmd) [.dupSent, .evt, .ld, .rcd] := by
  intro m n
  rw [regWrite_rmCtrl, fld_keyed_cmd key cmd (by omega)]
  exact ⟨rmCtrl_mem _ hc m n, fun _ hx => rmCtrl_get _ cmd m n hx⟩

theorem regWrite_devCtrl (p : HostPort) (key : BitVec 16) {cmd : Nat} (hc : cmd < 16) (h5 : cmd ≠ 5) (m : Mems) (n : Node) :
    regWrite p 0x0024 (keyed key cmd) m n = (0, m, (devCtrl key cmd n).1) := by
  have h : devCtrlWrite (keyed key cmd) m n = (m, (devCtrl key cmd n).1) := by
    simp [devCtrlWrite, fld_keyed_key key cmd (by omega), fld_keyed_cmd key cmd hc, devCtrl_resets key cmd n h5]
  show (0, (devCtrlWrite (keyed key cmd) m n).1, (devCtrlWrite (keyed key cmd) m n).2) = _
  rw [h]

/-- RUN and HALT wait for the tick: at once they change the pending command and the refusal (R91, R92). -/
theorem writesOnly_runHalt (key : BitVec 16) {cmd : Nat} (hc : cmd = 1 ∨ cmd = 2) : WritesOnly p 0x0024 (keyed key cmd) [.devRest] := by
  refine WritesOnly.of_eq (regWrite_devCtrl p key (by omega) (by omega)) (fun n x hx => ?_)
  have hd : x ≠ .devRest := by simpa using hx
  rcases hc with rfl | rfl
  all_goals
    unfold devCtrl
    split <;> simp [get_upd_dev, hd]

theorem writesOnly_safe (key : BitVec 16) : WritesOnly p 0x0024 (keyed key 3)
    [.ca, .cal, .cj, .devRest, .devState, .dsp, .dupSent, .evt, .ex, .free, .gen, .po, .rcd, .slots, .ui] :=
  WritesOnly.of_eq (regWrite_devCtrl p key (by omega) (by omega)) (fun n _ hx => devCtrl_get key 3 n hx)

theorem writesOnly_snapTrigger : WritesOnly p 0x1C00 1#32 [.port p] :=
  WritesOnly.of_eq (st := fun _ => 0) (f := snapTrigger p) (fun _ _ => rfl) (fun n _ hx => snapTrigger_get p n hx)

theorem writesOnly_snapAddr : WritesOnly p 0x1C10 v [.port p] :=
  WritesOnly.of_eq (st := fun n => (snapAddrWrite p v n).1) (f := fun n => (snapAddrWrite p v n).2) (fun _ _ => rfl)
    (fun n _ hx => snapAddrWrite_get p v n hx)

theorem writesOnly_recSel : WritesOnly p 0x1820 v [.port p] :=
  WritesOnly.of_eq (st := fun _ => 0) (f := recSelWrite p v) (fun _ _ => rfl) (fun n _ hx => recSelWrite_get p v n hx)

theorem writesOnly_stSel : WritesOnly p 0x1830 v [.port p] :=
  WritesOnly.of_eq (st := fun _ => 0) (f := stSelWrite p v) (fun _ _ => rfl) (fun n _ hx => stSelWrite_get p v n hx)

theorem writesOnly_recAppend : WritesOnly p 0x1930 v [.rcd] :=
  WritesOnly.of_eq (st := fun n => (recAppend v n).1) (f := fun n => (recAppend v n).2) (fun _ _ => rfl)
    (fun n _ hx => recAppend_get v n hx)

theorem writesOnly_clkCmd : WritesOnly p 0x1440 v [.clk, .dupSent, .evt, .rcd] :=
  WritesOnly.of_eq (st := fun _ => 0) (f := clkCmd v) (fun _ _ => rfl) (fun n _ hx => clkCmd_get v n hx)

theorem writesOnly_blkCtrl (b : Fin 24) : WritesOnly p (blkAddr.getD b.val 0) v [.blk] :=
  WritesOnly.of_eq (regWrite_blkCtrl p b v) (fun n _ hx => blkCtrlWrite_get b.val v n hx)

/-- The event controller's registers (R141) are written by `writeLow`. -/
theorem regWrite_evt (h1 : 0x0C00 ≤ a) (h2 : a < 0x0D18) (p : HostPort) (v : Word) (m : Mems) (n : Node) :
    regWrite p a v m n = ((writeLow p a v n).1, m, (writeLow p a v n).2) := by
  have hb : blkAt a = none := by
    have h : a ∉ blkAddr := by
      simp only [blkAddr, List.mem_cons, List.not_mem_nil, or_false, not_or]
      omega
    simp [blkAt, h]
  refine regWrite_low (by omega) hb ?_ p v m n
  simp only [List.mem_cons, List.not_mem_nil, or_false, not_or]
  omega

theorem writesOnly_evt (h1 : 0x0C00 ≤ a) (h2 : a < 0x0D18) : WritesOnly p a v [.evt] := by
  refine WritesOnly.of_eq (regWrite_evt h1 h2 p v) (fun n x hx => ?_)
  by_cases h3 : a < 0x0C10
  · rw [writeLow_evtStat p v n h1 h3]
    exact evtStatWrite_get _ v _ n hx
  · by_cases h4 : a < 0x0C20
    · rw [writeLow_evtMask p v n (by omega) h4]
      exact evtMaskWrite_get _ v n hx
    · by_cases h5 : a < 0x0C80
      · rw [writeLow_evtRoute p v n (by omega) h5]
        exact evtRouteWrite_get _ v n hx
      · rw [writeLow_evtMsgStat p v n (by omega) (by omega)]
        exact evtMsgStatWrite_get v n hx

/-! The plant's chapters. -/

theorem writesOnly_ui (h1 : 0x2000 ≤ a) (h2 : a < 0x3000) (hm : a % 0x400 ≠ 0x3FC) : WritesOnly p a v [.ui] :=
  WritesOnly.high h1 hm (by omega) (fun n _ hx => by rw [writeHigh_ui p v n h2]; exact uiWrite_get _ _ v n hx)

theorem writesOnly_ca (h1 : 0x3000 ≤ a) (h2 : a < 0x3400) (hm : a % 0x400 ≠ 0x3FC) : WritesOnly p a v [.ca, .port p] :=
  WritesOnly.high (by omega) hm (by omega) (fun n _ hx => by rw [writeHigh_ca p v n h1 h2]; exact caWrite_get p _ _ v n hx)

theorem writesOnly_ex (h1 : 0x3400 ≤ a) (h2 : a < 0x3600) (hm : a % 0x400 ≠ 0x3FC) :
    WritesOnly p a v [.cal, .dupSent, .evt, .ex, .free, .rcd, .slots, .ui] :=
  WritesOnly.high (by omega) hm (by omega) (fun n _ hx => by rw [writeHigh_ex p v n h1 h2]; exact exWrite_get _ _ v n hx)

theorem writesOnly_loDemand (c : Fin 16) : WritesOnly p (0x380C + 0x40 * c.val) v [.lo] :=
  WritesOnly.high (by omega) (by omega) (by omega) (fun n _ hx => by
    have ho : (0x380C + 0x40 * c.val) % 0x40 = 0x0C := by omega
    rw [writeHigh_lo p v n (by omega) (by omega), ho]
    exact loDemandWrite_get _ v n hx)

theorem digWrite_doCmd (k : Fin 32) (v : Word) (n : Node) : digWrite (0x4404 + 0x10 * k.val) v n = doCmdWrite k.val (bitOf v 0) n := by
  have hk : (0x4404 + 0x10 * k.val - 0x4400) / 16 = k.val := by omega
  have ho : (0x4404 + 0x10 * k.val) % 16 = 4 := by omega
  unfold digWrite
  iterate 2 rw [if_neg (by simp; omega)]
  rw [if_pos (by simp; omega)]
  simp only [hk, ho]

theorem writesOnly_doCmd (k : Fin 32) : WritesOnly p (0x4404 + 0x10 * k.val) v [.digOut] :=
  WritesOnly.high (by omega) (by omega) (by omega) (fun n _ hx => by
    rw [writeHigh_dig p v n (by omega) (by omega), digWrite_doCmd]
    exact doCmdWrite_get _ _ n hx)

theorem writesOnly_ilReset : WritesOnly p 0x4388 v [.il, .ilRefused] :=
  WritesOnly.of_eq (st := fun _ => 0) (f := ilResetWrite v) (fun _ _ => rfl) (fun n _ hx => ilResetWrite_get v n hx)

theorem writesOnly_sv (h1 : 0x4800 ≤ a) (h2 : a < 0x4C00) (hm : a % 0x400 ≠ 0x3FC) :
    WritesOnly p a v [.dupSent, .evt, .rcd, .shp, .slots] :=
  WritesOnly.high (by omega) hm (by omega) (fun n _ hx => by rw [writeHigh_sv p v n h1 h2]; exact svWrite_get _ _ v n hx)

theorem writesOnly_pf (h1 : 0x5000 ≤ a) (h2 : a < 0x5800) (hm : a % 0x400 ≠ 0x3FC) : WritesOnly p a v [.pf] :=
  WritesOnly.high (by omega) hm (by omega) (fun n _ hx => by rw [writeHigh_pf p v n h1 h2]; exact pfWrite_get _ _ v n hx)

theorem writesOnly_cmp (h1 : 0x5800 ≤ a) (h2 : a < 0x5C00) (hm : a % 0x400 ≠ 0x3FC) : WritesOnly p a v [.cmp] :=
  WritesOnly.high (by omega) hm (by omega) (fun n _ hx => by rw [writeHigh_cmp p v n h1 h2]; exact cmpWrite_get a v n hx)

theorem writesOnly_lnMode (k : Fin 32) : WritesOnly p (0x5C08 + 0x80 * k.val) v [.ln] :=
  WritesOnly.high (by omega) (by omega) (by omega) (fun n _ hx => by
    have ho : (0x5C08 + 0x80 * k.val - 0x5C00) % 0x80 = 0x08 := by omega
    rw [writeHigh_ln p v n (by omega) (by omega), ho]
    exact lnModeWrite_get _ v n hx)

theorem writesOnly_ln (h1 : 0x5C00 ≤ a) (h2 : a < 0x6C00) (hm : a % 0x400 ≠ 0x3FC) :
    WritesOnly p a v [.dupSent, .evt, .gen, .ln, .rcd, .port p] :=
  WritesOnly.high (by omega) hm (by omega) (fun n _ hx => by rw [writeHigh_ln p v n h1 h2]; exact lnWrite_get p _ _ v n hx)

theorem writesOnly_alm (h1 : 0x6C00 ≤ a) (h2 : a < 0x7000) (hm : a % 0x400 ≠ 0x3FC) :
    WritesOnly p a v [.alm, .almDue, .dupSent, .evt, .rcd, .port p] :=
  WritesOnly.high (by omega) hm (by omega) (fun n _ hx => by rw [writeHigh_alm p v n h1 h2]; exact almWrite_get p a v n hx)

theorem writesOnly_almFind : WritesOnly p 0x6C68 v [.port p] :=
  WritesOnly.of_eq (st := fun _ => 0) (f := almFindWrite p v) (fun _ _ => rfl) (fun n _ hx => almFindWrite_get p v n hx)

theorem writesOnly_almLogIdx : WritesOnly p 0x6CA4 v [.port p] :=
  WritesOnly.of_eq (st := fun _ => 0) (f := almLogIdxWrite p v) (fun _ _ => rfl) (fun n _ hx => almLogIdxWrite_get p v n hx)

theorem writesOnly_seq (h1 : 0x7000 ≤ a) (h2 : a < 0x7400) (hm : a % 0x400 ≠ 0x3FC) : WritesOnly p a v [.seq] :=
  WritesOnly.high (by omega) hm (by omega) (fun n _ hx => by rw [writeHigh_seq p v n h1 h2]; exact seqWrite_get a v n hx)

theorem writesOnly_dsp (h1 : 0x7400 ≤ a) (h2 : a < 0x7800) (hm : a % 0x400 ≠ 0x3FC) : WritesOnly p a v [.dsp] :=
  WritesOnly.high (by omega) hm (by omega) (fun n _ hx => by rw [writeHigh_dsp p v n h1 h2]; exact dspWrite_get a v n hx)

/-- SWAP, PARTNER_RESET and FW_INSTALL; FW_ACTIVATE resets (R469). -/
theorem writesOnly_dupCtrl {cmd : Nat} (hc : cmd = 1 ∨ cmd = 2 ∨ cmd = 3) :
    WritesOnly p 0x7804 (keyed 0x5A5A#16 cmd) [.dup, .tx] := by
  intro m n
  have hd : regWrite p 0x7804 (keyed 0x5A5A#16 cmd) m n
      = (0, (dupCtrl (keyed 0x5A5A#16 cmd) m n).1, (dupCtrl (keyed 0x5A5A#16 cmd) m n).2) := rfl
  rw [hd]
  have hk : fld (keyed 0x5A5A#16 cmd) 31 16 = 0x5A5A := fld_keyed_key _ cmd (by omega)
  have hf : fld (keyed 0x5A5A#16 cmd) 3 0 = cmd := fld_keyed_cmd _ cmd (by omega)
  unfold dupCtrl
  rw [if_neg (by simp [hk]), hf]
  rcases hc with rfl | rfl | rfl
  · exact ⟨rfl, fun _ hx => dupSwap_get n hx⟩
  · exact ⟨rfl, fun _ hx => dupPartnerReset_get n hx⟩
  · exact ⟨rfl, fun _ hx => fwInstallCmd_get m n (by simp_all)⟩

end

end Sys2Proof.Machine
end

section
/-! SUPPORT. What the register tables say of the registers that commands name. -/

namespace Sys2Proof.Machine
open Sys2Proof

/-- The register is neither a block control, a VALUE nor a QSEQ: its chapter reads it. -/
abbrev ChapterReads (a : Nat) : Prop := blkAt a = none ∧ isValue a = false ∧ isQseq a = false

/-- A write needs no EXPERT (R130). -/
abbrev NeedsNoExpert (a : Nat) : Prop := (regAttr a).any (·.x) = false

/-- What the register tables (R543, and the tables of the chapters) say of the registers that commands name. The kernel evaluates
the tables here once for all of them. -/
structure RegisterTables : Prop where
  value (r : Fin 518) : blkAt (resAddr r.val) = none ∧ isValue (resAddr r.val) = true
  qseq (r : Fin 518) : blkAt (resAddr r.val + 4) = none ∧ isValue (resAddr r.val + 4) = false ∧ isQseq (resAddr r.val + 4) = true
  caBufData (n : Fin 16) : ChapterReads (0x303C + 0x40 * n.val)
  pfRaw (n : Fin 8) : ChapterReads (0x501C + 0x100 * n.val)
  pfCap (n : Fin 8) (k : Fin 4) : ChapterReads (0x5060 + 0x100 * n.val + 0x10 * k.val)
  lnCapData (n : Fin 32) : ChapterReads (0x5C7C + 0x80 * n.val)
  /-- STG_ADDR, RM_CTRL, CLK_CMD, REC_APPEND, DSP_BIAS and DUP_CTRL -/
  offPlant : ∀ a ∈ [0x0840, 0x0804, 0x1440, 0x1930, 0x7404, 0x7804], plantReg a = false
  /-- DEV_CTRL, SNAP_CTRL, SNAP_ADDR, REC_SEL, ST_SEL and the display's draw requests -/
  atPort : ∀ a ∈ [0x0024, 0x1C00, 0x1C10, 0x1820, 0x1830, 0x7410, 0x7414], plantReg a = false ∧ NeedsNoExpert a
  /-- IL_RESET and the alarm registers of the level of every port -/
  plantOpen : ∀ a ∈ [0x4388, 0x6C40, 0x6C50, 0x6C58, 0x6C60, 0x6C68, 0x6CA4], NeedsNoExpert a
  pfCtrl (n : Fin 8) : plantReg (0x5014 + 0x100 * n.val) = false ∧ NeedsNoExpert (0x5014 + 0x100 * n.val)
  caBufCtrl (n : Fin 16) : NeedsNoExpert (0x3034 + 0x40 * n.val)
  loDemand (n : Fin 16) : NeedsNoExpert (0x380C + 0x40 * n.val)
  doCmd (n : Fin 32) : NeedsNoExpert (0x4404 + 0x10 * n.val)
  svFire (n : Fin 16) : NeedsNoExpert (0x4804 + 0x40 * n.val)
  lnMode (n : Fin 32) : NeedsNoExpert (0x5C08 + 0x80 * n.val)
  seqCtrl (q : Fin 8) : NeedsNoExpert (0x7000 + 0x40 * q.val)
  blkCtrl (b : Fin 24) : plantReg (blkAddr.getD b.val 0) = false ∧ regAttr (blkAddr.getD b.val 0) = some ⟨false, .wr⟩
  evt (k : Fin 280) : plantReg (0x0C00 + k.val) = false ∧ NeedsNoExpert (0x0C00 + k.val)
  evtStat (i : Fin 4) : regAttr (0x0C00 + 4 * i.val) = some ⟨false, .wr⟩
  evtMask (i : Fin 4) : regAttr (0x0C10 + 4 * i.val) = some ⟨false, .wr⟩
  evtRoute (i : Fin 16) : regAttr (0x0C40 + 4 * i.val) = some ⟨false, .wr⟩
  evtMsgq : regAttr 0x0D10 = some ⟨false, .ro⟩
  evtMsgStat : regAttr 0x0D14 = some ⟨false, .wr⟩

/-- Its parts are taken of `(registerTables)`: the bare name with a dot would be looked up below this theorem first, and the lookup
waits until the kernel is through with the tables. -/
theorem registerTables : RegisterTables := by
  constructor
  all_goals decide +kernel

end Sys2Proof.Machine
end

section
/-! SUPPORT. What each register's read leaves as it was, and membership in the lists of parts. -/

namespace Sys2Proof.Machine
open Sys2Proof

/-! ### What each register's read leaves as it was -/

section
variable {p : HostPort} {a : Nat}

theorem regRead_high (ha : 0x2000 ≤ a) (hb : blkAt a = none) (hv : isValue a = false) (hq : isQseq a = false) (p : HostPort)
    (m : Mems) (n : Node) : regRead p a m n = readHigh p a m n := by
  simp [regRead, hb, hv, hq, not_lt.mpr ha]

theorem readsOnly_devtimeLo : ReadsOnly p 0x0010 [.port p] := fun _ n => modPort_leaves p _ n

theorem readsOnly_devtimeHi : ReadsOnly p 0x0014 [.port p] := by
  intro m n
  have h : (regRead p 0x0014 m n).2.2 = (globRead n p 0x0014).2 := rfl
  rw [h]
  unfold globRead
  rcases (n.port p).devHi with _ | d
  · simp only
    exact Leaves.refl _ _
  · simp only
    exact modPort_leaves p _ n

theorem readsOnly_snapData : ReadsOnly p 0x1C14 [.port p] := fun _ n _ hx => snapDataRead_get p n hx

theorem readsOnly_msLo : ReadsOnly p 0x1814 [.port p] := fun _ n _ hx => msLoRead_get p n hx

theorem readsOnly_recData : ReadsOnly p 0x1824 [.port p] := fun _ n _ hx => recDataRead_get p n hx

theorem readsOnly_stData : ReadsOnly p 0x1834 [.port p] := fun _ n _ hx => stDataRead_get p n hx

theorem readsOnly_almLogData : ReadsOnly p 0x6CA8 [.port p] := by
  intro m n x hx
  have h : (regRead p 0x6CA8 m n).2.2 = (almLogData p n).2.2 := rfl
  rw [h]
  unfold almLogData
  dsimp only
  split
  · rfl
  · exact setPort_get p _ n hx

theorem readsOnly_stgData : ReadsOnly p 0x0844 [.ld] := fun m n _ hx => stgDataRead_get m n hx

theorem readsOnly_evtMsgq : ReadsOnly p 0x0D10 [.evt] := fun _ n _ hx => evtMsgqRead_get n hx

/-- The calendar's shadow registers (R473). -/
theorem readsOnly_calendar (k : Fin 5) : ReadsOnly p (0x1400 + 4 * k.val) [.clk] := by
  have h : ∀ m n, regRead p (0x1400 + 4 * k.val) m n = (0, shadowRead (portCode p) k.val n) := by
    intro m n
    fin_cases k <;> rfl
  intro m n x hx
  rw [h]
  exact shadowRead_get _ _ n hx

theorem readsOnly_caBufData (c : Fin 16) : ReadsOnly p (0x303C + 0x40 * c.val) [.ca, .port p] := by
  intro m n x hx
  obtain ⟨hb, hv, hq⟩ := (registerTables).caBufData c
  rw [regRead_high (by omega) hb hv hq]
  unfold readHigh
  have h2 : 0x303C + 0x40 * c.val < 0x3400 := by omega
  rw [if_neg (by omega), if_pos h2]
  have ho : (0x303C + 0x40 * c.val) % 0x40 = 0x3C := by omega
  simp only [ho, if_true]
  exact caBufData_get p _ n hx

theorem positionRead_leaves (p : HostPort) (a : Nat) (n : Node) : Leaves [.port p] n (positionRead p a n).2 := by
  intro x hx
  unfold positionRead
  simp only [apply_ite Prod.snd, get_ite, pfRawRead_get p _ n hx, pfWrapRead_get p _ n hx, pfCapRead_get p _ _ n hx,
    pfCapRest_get p _ _ _ n hx, ite_self]

theorem readsOnly_position (h1 : 0x5000 ≤ a) (h2 : a < 0x5800) (hm : a % 0x400 ≠ 0x3FC) (hv : isValue a = false)
    (hq : isQseq a = false) : ReadsOnly p a [.port p] := by
  intro m n
  have ha : 0x2000 ≤ a := by omega
  rw [regRead_high ha (blkAt_high ha hm) hv hq]
  have h : readHigh p a m n = (0, positionRead p a n) := by
    unfold readHigh
    iterate 11 rw [if_neg (by omega)]
    rw [if_pos h2]
  rw [h]
  exact positionRead_leaves p a n

theorem readsOnly_pfRaw (f : Fin 8) : ReadsOnly p (0x501C + 0x100 * f.val) [.port p] := by
  obtain ⟨_, hv, hq⟩ := (registerTables).pfRaw f
  exact readsOnly_position (by omega) (by omega) (by omega) hv hq

theorem readsOnly_pfCap (f : Fin 8) (k : Fin 4) : ReadsOnly p (0x5060 + 0x100 * f.val + 0x10 * k.val) [.port p] := by
  obtain ⟨_, hv, hq⟩ := (registerTables).pfCap f k
  exact readsOnly_position (by omega) (by omega) (by omega) hv hq

theorem readsOnly_lnCapData (k : Fin 32) : ReadsOnly p (0x5C7C + 0x80 * k.val) [.port p] := by
  intro m n x hx
  obtain ⟨hb, hv, hq⟩ := (registerTables).lnCapData k
  rw [regRead_high (by omega) hb hv hq]
  have h : readHigh p (0x5C7C + 0x80 * k.val) m n = lnCapData p ((0x5C7C + 0x80 * k.val - 0x5C00) / 0x80) n := by
    unfold readHigh
    have h2 : 0x5C7C + 0x80 * k.val < 0x6C00 := by omega
    iterate 13 rw [if_neg (by omega)]
    rw [if_pos h2]
    have ho : (0x5C7C + 0x80 * k.val - 0x5C00) % 0x80 = 0x7C := by omega
    simp only [ho, if_true]
  rw [h]
  exact lnCapData_get p _ n hx

theorem regRead_value (p : HostPort) (r : Fin 518) (m : Mems) (n : Node) :
    regRead p (resAddr r.val) m n = (0, valueRead p (resAddr r.val) n) := by
  obtain ⟨hb, hv⟩ := (registerTables).value r
  simp [regRead, hb, hv]

theorem regRead_qseq (p : HostPort) (r : Fin 518) (m : Mems) (n : Node) :
    regRead p (resAddr r.val + 4) m n = (0, qseqRead p (resAddr r.val) n) := by
  obtain ⟨hb, hv, hq⟩ := (registerTables).qseq r
  simp [regRead, hb, hv, hq]

theorem readsOnly_value (r : Fin 518) : ReadsOnly p (resAddr r.val) [.store, .port p] := by
  intro m n x hx
  rw [regRead_value]
  exact valueRead_get p _ n hx

theorem readsOnly_qseq (r : Fin 518) : ReadsOnly p (resAddr r.val + 4) [.port p] := by
  intro m n x hx
  rw [regRead_qseq]
  exact qseqRead_get p _ n hx

end

/-! ### Membership in the lists of parts -/

@[simp] theorem mem_eventParts {x : Part} : x ∈ eventParts ↔ x = .evt ∨ x = .rcd ∨ x = .dupSent := by simp [eventParts]

@[simp] theorem mem_plantParts {x : Part} : x ∈ plantParts ↔ x = .slots ∨ x = .devState ∨ x = .evt ∨ x = .digOut ∨ x = .il
    ∨ x = .shp ∨ x = .almDue ∨ x = .mram ∨ x = .rcd ∨ x = .dupSent ∨ x = .netAlerts ∨ x = .tx := by simp [plantParts]

@[simp] theorem mem_withPlant {x : Part} {ps : List Part} : x ∈ withPlant ps ↔ x ∈ ps ∨ x ∈ plantParts := List.mem_append

@[simp] theorem mem_withLink {x : Part} {ps : List Part} : x ∈ withLink ps ↔ x ∈ ps ∨ x = .net ∨ x = .tx := by simp [withLink]

@[simp] theorem mem_withLevel {x : Part} {ps : List Part} : x ∈ withLevel ps ↔ x ∈ ps ∨ x = .blk ∨ x ∈ eventParts := by
  simp [withLevel]

theorem eventParts_subset_withLevel (ps : List Part) : Part.blk :: eventParts ⊆ withLevel ps :=
  List.subset_append_right ps _

theorem plantParts_subset_withPlant (ps : List Part) : plantParts ⊆ withPlant ps := List.subset_append_right ps _

end Sys2Proof.Machine
end

section
/-! SUPPORT. The frame of each register that a command names. -/

namespace Sys2Proof.Machine
open Sys2Proof

/-! ### Where a write shows -/

section
variable {p : HostPort} {a : Nat} {qs : List Part}

/-- A register that is neither of the plant nor X-level: at the port alone. -/
theorem WriteReach.atPort (hp : Part.port p ∈ qs) (ha : plantReg a = false ∧ NeedsNoExpert a) : WriteReach p a qs :=
  ⟨hp, by simp [ha.1], fun x hx hb => by simp [NeedsNoExpert, hx, hb] at ha⟩

theorem WriteReach.withLink (hp : Part.port p ∈ qs) (hl : [Part.net, .tx] ⊆ qs) (ha : NeedsNoExpert a) :
    WriteReach p a qs :=
  ⟨hp, fun _ => hl, fun x hx hb => by simp [NeedsNoExpert, hx, hb] at ha⟩

theorem WriteReach.withLevel (hp : Part.port p ∈ qs) (hx : Part.blk :: eventParts ⊆ qs) (ha : plantReg a = false) :
    WriteReach p a qs :=
  ⟨hp, by simp [ha], fun _ _ _ => hx⟩

theorem WriteReach.withBoth (hp : Part.port p ∈ qs) (hl : [Part.net, .tx] ⊆ qs) (hx : Part.blk :: eventParts ⊆ qs) :
    WriteReach p a qs :=
  ⟨hp, fun _ => hl, fun _ _ _ => hx⟩

/-! ### The frame of a register's reads and writes -/

variable {v : Word} {ps : List Part}

theorem ReadsOnly.keeps_hostOp (h : ReadsOnly p a ps) (hs : ps ⊆ qs) (hp : Part.port p ∈ qs) (s : State) :
    Ends (onBoth (hostOp p (.rd a)) s) (Keeps qs s) :=
  Machine.keeps_hostOp (accFrame_of_reads h hs hp) s

theorem WritesOnly.keeps_hostOp (h : WritesOnly p a v ps) (hs : ps ⊆ qs) (hr : WriteReach p a qs) (s : State) :
    Ends (onBoth (hostOp p (.wr a v)) s) (Keeps qs s) :=
  Machine.keeps_hostOp (accFrame_of_writes h hs hr) s

theorem WritesOnly.keeps_upMem (h : WritesOnly p a v ps) (hs : ps ⊆ qs) (hr : WriteReach p a qs) (t : Nat)
    (ht : Part.devtime ∈ qs) (s : State) : Ends (onBoth (upMem t (hostDo p (.wr a v))) s) (Keeps qs s) :=
  Machine.keeps_upMem (accFrame_of_writes h hs hr) s t ht

/-- A plant write shows also in what the plant's own work may change. -/
theorem WritesOnly.keeps_plant (h : WritesOnly p a v ps) (hs : ps ⊆ withPlant qs) (hr : WriteReach p a (withPlant qs)) {t : Nat}
    (ht : t = 0 ∨ Part.devtime ∈ withPlant qs) (s : State) :
    Ends (onBoth (hostPlant t p (.wr a v)) s) (Keeps (withPlant qs) s) :=
  keeps_hostPlant (accFrame_of_writes h hs hr) (plantParts_subset_withPlant qs) t ht s

end

section
variable (p : HostPort) (v : Word) (t : Nat) (s : State)

/-! Loader, device, the module's own registers. -/

theorem keeps_stgAddrWrite : Ends (exec (.stgAddrWrite p v) s) (Keeps (withLevel [.port p, .ld]) s) :=
  writesOnly_stgAddr.keeps_hostOp (by simp)
    (.withLevel (by simp) (eventParts_subset_withLevel _) ((registerTables).offPlant 0x0840 (by simp))) s

theorem keeps_rmCtrlWrite (key : BitVec 16) {cmd : Nat} (hc : 1 ≤ cmd ∧ cmd ≤ 6) :
    Ends (onBoth (hostPlant 0 p (.wr 0x0804 (keyed key cmd))) s) (Keeps (withPlant (withLevel [.port p, .ld])) s) :=
  (writesOnly_rmCtrl key hc).keeps_plant (by simp)
    (.withLevel (by simp) (by simp [eventParts]) ((registerTables).offPlant 0x0804 (by simp))) (by simp) s

theorem keeps_runHaltWrite (key : BitVec 16) {cmd : Nat} (hc : cmd = 1 ∨ cmd = 2) :
    Ends (onBoth (hostPlant 0 p (.wr 0x0024 (keyed key cmd))) s) (Keeps (withPlant [.port p, .devRest]) s) :=
  (writesOnly_runHalt key hc).keeps_plant (by simp) (.atPort (by simp) ((registerTables).atPort 0x0024 (by simp))) (by simp) s

theorem keeps_safeCmd (key : BitVec 16) : Ends (exec (.safeCmd p key) s)
    (Keeps (withPlant [.port p, .ca, .cal, .cj, .devRest, .dsp, .ex, .free, .gen, .po, .ui]) s) :=
  (writesOnly_safe key).keeps_plant (by simp) (.atPort (by simp) ((registerTables).atPort 0x0024 (by simp))) (by simp) s

theorem keeps_blkCtrlWrite (b : Fin 24) : Ends (exec (.blkCtrlWrite p b v) s) (Keeps (withPlant [.port p, .blk]) s) := by
  obtain ⟨hp, ha⟩ := (registerTables).blkCtrl b
  have hx : NeedsNoExpert (blkAddr.getD b.val 0) := by rw [NeedsNoExpert, ha]; rfl
  exact (writesOnly_blkCtrl b).keeps_plant (by simp) (.atPort (by simp) ⟨hp, hx⟩) (by simp) s

/-- The event controller's registers are at the level of every port. -/
theorem keeps_evtWrite {a : Nat} (h1 : 0x0C00 ≤ a) (h2 : a < 0x0D18) :
    Ends (onBoth (hostOp p (.wr a v)) s) (Keeps [.port p, .evt] s) :=
  have ha : 0x0C00 + (a - 0x0C00) = a := by omega
  (writesOnly_evt h1 h2).keeps_hostOp (by simp) (.atPort (by simp) (ha ▸ (registerTables).evt ⟨a - 0x0C00, by omega⟩)) s

theorem keeps_clkCmdWrite : Ends (onBoth (hostPlant t p (.wr 0x1440 v)) s)
    (Keeps (withPlant (withLevel [.port p, .devtime, .clk])) s) :=
  writesOnly_clkCmd.keeps_plant (by simp)
    (.withLevel (by simp) (by simp [eventParts]) ((registerTables).offPlant 0x1440 (by simp))) (by simp) s

theorem keeps_recAppend : Ends (exec (.recAppend p v t) s) (Keeps (withPlant (withLevel [.port p, .devtime])) s) :=
  writesOnly_recAppend.keeps_plant (by simp)
    (.withLevel (by simp) (by simp [eventParts]) ((registerTables).offPlant 0x1930 (by simp))) (by simp) s

theorem keeps_dupCtrlWrite {cmd : Nat} (hc : cmd = 1 ∨ cmd = 2 ∨ cmd = 3) :
    Ends (onBoth (hostPlant t p (.wr 0x7804 (keyed 0x5A5A#16 cmd))) s)
      (Keeps (withPlant (withLevel [.port p, .devtime, .dup])) s) :=
  (writesOnly_dupCtrl hc).keeps_plant (by simp)
    (.withLevel (by simp) (by simp [eventParts]) ((registerTables).offPlant 0x7804 (by simp))) (by simp) s

/-! Inputs. -/

theorem keeps_uiWrite {a : Nat} (h1 : 0x2000 ≤ a) (h2 : a < 0x3000) (hm : a % 0x400 ≠ 0x3FC) :
    Ends (onBoth (hostPlant 0 p (.wr a v)) s) (Keeps (withPlant (withLevel (withLink [.port p, .ui]))) s) :=
  (writesOnly_ui h1 h2 hm).keeps_plant (by simp) (.withBoth (by simp) (by simp) (by simp [eventParts])) (by simp) s

theorem keeps_exCtrlWrite (n : Fin 16) : Ends (exec (.exCtrlWrite p n v) s)
    (Keeps (withPlant (withLevel (withLink [.port p, .cal, .ex, .free, .ui]))) s) :=
  (writesOnly_ex (by omega) (by omega) (by omega)).keeps_plant (by simp) (.withBoth (by simp) (by simp) (by simp [eventParts]))
    (by simp) s

theorem keeps_caRangeRequest (n : Fin 16) : Ends (exec (.caRangeRequest p n v) s)
    (Keeps (withPlant (withLevel (withLink [.port p, .ca]))) s) :=
  (writesOnly_ca (by omega) (by omega) (by omega)).keeps_plant (by simp) (.withBoth (by simp) (by simp) (by simp [eventParts]))
    (by simp) s

theorem keeps_bufOpen (n : Fin 16) : Ends (exec (.bufOpen p n t) s) (Keeps (withLink [.port p, .devtime, .ca]) s) :=
  (writesOnly_ca (by omega) (by omega) (by omega)).keeps_upMem (by simp)
    (.withLink (by simp) (by simp) ((registerTables).caBufCtrl n)) t
    (by simp) s

theorem keeps_bufRelease (n : Fin 16) : Ends (exec (.bufRelease p n) s) (Keeps (withLink [.port p, .ca]) s) :=
  (writesOnly_ca (by omega) (by omega) (by omega)).keeps_hostOp (by simp)
    (.withLink (by simp) (by simp) ((registerTables).caBufCtrl n)) s

/-! Outputs and positions. -/

theorem keeps_loDemandWrite (n : Fin 16) : Ends (exec (.loDemandWrite p n v) s) (Keeps (withPlant (withLink [.port p, .lo])) s) :=
  (writesOnly_loDemand n).keeps_plant (by simp) (.withLink (by simp) (by simp) ((registerTables).loDemand n)) (by simp) s

theorem keeps_doCmdWrite (n : Fin 32) : Ends (exec (.doCmdWrite p n v t) s) (Keeps (withPlant (withLink [.port p, .devtime])) s) :=
  (writesOnly_doCmd n).keeps_plant (by simp) (.withLink (by simp) (by simp) ((registerTables).doCmd n)) (by simp) s

theorem keeps_ilResetWrite : Ends (exec (.ilResetWrite p v t) s)
    (Keeps (withPlant (withLink [.port p, .devtime, .ilRefused])) s) :=
  writesOnly_ilReset.keeps_plant (by simp) (.withLink (by simp) (by simp) ((registerTables).plantOpen 0x4388 (by simp))) (by simp) s

theorem keeps_svFireWrite (n : Fin 16) : Ends (exec (.svFireWrite p n v t) s)
    (Keeps (withPlant (withLink [.port p, .devtime])) s) :=
  (writesOnly_sv (by omega) (by omega) (by omega)).keeps_plant (by simp)
    (.withLink (by simp) (by simp) ((registerTables).svFire n)) (by simp) s

theorem keeps_pfCtrlClr (n : Fin 8) : Ends (exec (.pfCtrlClr p n v) s) (Keeps (withPlant [.port p, .pf]) s) :=
  (writesOnly_pf (by omega) (by omega) (by omega)).keeps_plant (by simp) (.atPort (by simp) ((registerTables).pfCtrl n)) (by simp) s

theorem keeps_cmpWrite {a : Nat} (h1 : 0x5800 ≤ a) (h2 : a < 0x5C00) (hm : a % 0x400 ≠ 0x3FC) :
    Ends (onBoth (hostPlant 0 p (.wr a v)) s) (Keeps (withPlant (withLevel (withLink [.port p, .cmp]))) s) :=
  (writesOnly_cmp h1 h2 hm).keeps_plant (by simp) (.withBoth (by simp) (by simp) (by simp [eventParts])) (by simp) s

/-! Lanes, alarms, sequencer, display. -/

theorem keeps_lnModeWrite (n : Fin 32) : Ends (onBoth (hostPlant 0 p (.wr (0x5C08 + 0x80 * n.val) v)) s)
    (Keeps (withPlant (withLink [.port p, .ln])) s) :=
  (writesOnly_lnMode n).keeps_plant (by simp) (.withLink (by simp) (by simp) ((registerTables).lnMode n)) (by simp) s

theorem keeps_lnTestWrite (n : Fin 32) : Ends (onBoth (hostPlant t p (.wr (0x5C70 + 0x80 * n.val) v)) s)
    (Keeps (withPlant (withLevel (withLink [.port p, .devtime, .gen, .ln]))) s) :=
  (writesOnly_ln (by omega) (by omega) (by omega)).keeps_plant (by simp) (.withBoth (by simp) (by simp) (by simp [eventParts]))
    (by simp) s

/-- An alarm register at the level of every port. -/
theorem keeps_almWrite {a : Nat} (h1 : 0x6C00 ≤ a) (h2 : a < 0x7000) (hm : a % 0x400 ≠ 0x3FC)
    (hx : NeedsNoExpert a) :
    Ends (onBoth (hostPlant t p (.wr a v)) s) (Keeps (withPlant (withLink [.port p, .devtime, .alm])) s) :=
  (writesOnly_alm h1 h2 hm).keeps_plant (by simp) (.withLink (by simp) (by simp) hx) (by simp) s

theorem keeps_almXCmdWrite : Ends (onBoth (hostPlant t p (.wr 0x6C44 v)) s)
    (Keeps (withPlant (withLevel (withLink [.port p, .devtime, .alm]))) s) :=
  (writesOnly_alm (by omega) (by omega) (by omega)).keeps_plant (by simp) (.withBoth (by simp) (by simp) (by simp [eventParts]))
    (by simp) s

theorem keeps_almFindWrite : Ends (exec (.almFindWrite p v) s) (Keeps (withLink [.port p]) s) :=
  writesOnly_almFind.keeps_hostOp (by simp) (.withLink (by simp) (by simp) ((registerTables).plantOpen 0x6C68 (by simp))) s

theorem keeps_almLogIdxWrite : Ends (exec (.almLogIdxWrite p v) s) (Keeps (withLink [.port p]) s) :=
  writesOnly_almLogIdx.keeps_hostOp (by simp) (.withLink (by simp) (by simp) ((registerTables).plantOpen 0x6CA4 (by simp))) s

theorem keeps_seqCtrlWrite (q : Fin 8) : Ends (onBoth (hostPlant t p (.wr (0x7000 + 0x40 * q.val) v)) s)
    (Keeps (withPlant (withLink [.port p, .devtime, .seq])) s) :=
  (writesOnly_seq (by omega) (by omega) (by omega)).keeps_plant (by simp)
    (.withLink (by simp) (by simp) ((registerTables).seqCtrl q)) (by simp) s

/-- DSP_REDRAW and DSP_FULL are at the level of every port. -/
theorem keeps_dspDrawWrite {a : Nat} (h : a = 0x7410 ∨ a = 0x7414) :
    Ends (onBoth (hostPlant 0 p (.wr a v)) s) (Keeps (withPlant [.port p, .dsp]) s) := by
  have ha : plantReg a = false ∧ NeedsNoExpert a := by
    exact (registerTables).atPort a (by rcases h with rfl | rfl <;> simp)
  exact (writesOnly_dsp (by omega) (by omega) (by omega)).keeps_plant (by simp) (.atPort (by simp) ha) (by simp) s

theorem keeps_dspBiasWrite : Ends (onBoth (hostPlant t p (.wr 0x7404 v)) s)
    (Keeps (withPlant (withLevel [.port p, .devtime, .dsp])) s) :=
  (writesOnly_dsp (by omega) (by omega) (by omega)).keeps_plant (by simp)
    (.withLevel (by simp) (by simp [eventParts]) ((registerTables).offPlant 0x7404 (by simp))) (by simp) s

/-! Reads. -/

/-- The word of memory an error was found in is dealt with before the read (R46, R49). -/
theorem keeps_resultValueRead (r : Fin 518) (ecc : Ecc) :
    Ends (exec (.resultValueRead p r ecc) s) (Keeps (withPlant [.port p, .dtr, .lo, .po, .store]) s) := by
  have hr : AccFrame p (.rd (resAddr r.val)) (withPlant [.port p, .dtr, .lo, .po, .store]) :=
    accFrame_of_reads (readsOnly_value r) (by simp) (by simp)
  have he : ∀ n, Leaves (withPlant [.port p, .dtr, .lo, .po, .store]) n (eccOnRead ecc (resAddr r.val) n) := fun n =>
    Leaves.mono (fun x hx => eccOnRead_get ecc _ n hx) (by simp)
  refine keeps_plantMem (fun m n => ?_) (plantParts_subset_withPlant _) 0 (Or.inl rfl) s
  obtain ⟨hm, hn⟩ := hr m (eccOnRead ecc (resAddr r.val) n)
  exact ⟨hm, (he n).trans hn⟩

theorem keeps_calendarRead (k : Fin 5) : Ends (onBoth (upMem t (hostDo p (.rd (0x1400 + 4 * k.val)))) s)
    (Keeps [.port p, .devtime, .clk] s) :=
  keeps_upMem (accFrame_of_reads (readsOnly_calendar k) (by simp) (by simp)) s t (by simp)

end

end Sys2Proof.Machine
end

section
/-! SUPPORT. The frame of the named register accesses. -/

namespace Sys2Proof.Machine
open Sys2Proof

section
variable (p : HostPort) (s : State)

/-- Registers whose reading moves the port's own state alone. -/
theorem keeps_portReads : ∀ c ∈ ([.devtimeLoRead p, .devtimeHiRead p, .snapDataRead p, .almLogDataRead p, .msLoRead p,
    .recDataRead p, .stDataRead p] : List Instr), Ends (exec c s) (Keeps [.port p] s) :=
  have read {a : Nat} (h : ReadsOnly p a [.port p]) : Ends (onBoth (hostOp p (.rd a)) s) (Keeps [.port p] s) :=
    h.keeps_hostOp (by simp) (by simp) s
  List.forall_iff_forall_mem.mp (show _ ∧ _ ∧ _ ∧ _ ∧ _ ∧ _ ∧ _ from
    ⟨read readsOnly_devtimeLo, read readsOnly_devtimeHi, read readsOnly_snapData, read readsOnly_almLogData, read readsOnly_msLo,
      read readsOnly_recData, read readsOnly_stData⟩)

theorem keeps_rmCtrlCommands (key : BitVec 16) : ∀ c ∈ ([.checkImg p key, .commitImg p key, .programA p key, .programB p key,
    .preferA p key, .preferB p key] : List Instr), Ends (exec c s) (Keeps (withPlant (withLevel [.port p, .ld])) s) :=
  have cmd (k : Nat) (hk : 1 ≤ k ∧ k ≤ 6) := keeps_rmCtrlWrite p s key hk
  List.forall_iff_forall_mem.mp (show _ ∧ _ ∧ _ ∧ _ ∧ _ ∧ _ from
    ⟨cmd 1 (by omega), cmd 2 (by omega), cmd 3 (by omega), cmd 4 (by omega), cmd 5 (by omega), cmd 6 (by omega)⟩)

theorem keeps_selectorWrites (v : Word) : ∀ c ∈ ([.snapAddrWrite p v, .recSelWrite p v, .stSelWrite p v] : List Instr),
    Ends (exec c s) (Keeps [.port p] s) :=
  have write {a : Nat} (h : WritesOnly p a v [.port p]) (ha : plantReg a = false ∧ NeedsNoExpert a) :
      Ends (onBoth (hostOp p (.wr a v)) s) (Keeps [.port p] s) := h.keeps_hostOp (by simp) (.atPort (by simp) ha) s
  List.forall_iff_forall_mem.mp (show _ ∧ _ ∧ _ from ⟨
    write writesOnly_snapAddr ((registerTables).atPort _ (by simp)), write writesOnly_recSel ((registerTables).atPort _ (by simp)),
    write writesOnly_stSel ((registerTables).atPort _ (by simp))⟩)

/-! The alarm commands of the level of every port, by the register they write. -/

theorem keeps_almCmdWrite (v : Word) (t : Nat) : Ends (onBoth (hostPlant t p (.wr 0x6C40 v)) s)
    (Keeps (withPlant (withLink [.port p, .devtime, .alm])) s) :=
  keeps_almWrite p v t s (by omega) (by omega) (by omega) ((registerTables).plantOpen _ (by simp))

theorem keeps_patrolWrite (v : Word) (t : Nat) : Ends (onBoth (hostPlant t p (.wr 0x6C60 v)) s)
    (Keeps (withPlant (withLink [.port p, .devtime, .alm])) s) :=
  keeps_almWrite p v t s (by omega) (by omega) (by omega) ((registerTables).plantOpen _ (by simp))

theorem keeps_pointCommands (i : Fin 4096) (t : Nat) : ∀ c ∈ ([.ackPt p i t, .alarmReset p i t, .unshelvePt p i t,
    .inhibitPt p i t, .releasePt p i t] : List Instr),
    Ends (exec c s) (Keeps (withPlant (withLink [.port p, .devtime, .alm])) s) :=
  have cmd (k : Nat) := keeps_almCmdWrite p s (almCmdWord k 0 i.val) t
  List.forall_iff_forall_mem.mp (show _ ∧ _ ∧ _ ∧ _ ∧ _ from ⟨cmd 1, cmd 4, cmd 6, cmd 7, cmd 8⟩)

theorem keeps_ackAllPatrol (t : Nat) : ∀ c ∈ ([.ackAll p t, .patrolStart p t, .patrolStop p t, .patrolPress p t] : List Instr),
    Ends (exec c s) (Keeps (withPlant (withLink [.port p, .devtime, .alm])) s) :=
  List.forall_iff_forall_mem.mp (show _ ∧ _ ∧ _ ∧ _ from ⟨keeps_almCmdWrite p s _ t, keeps_patrolWrite p s 1#32 t,
    keeps_patrolWrite p s 2#32 t, keeps_patrolWrite p s 4#32 t⟩)

theorem keeps_callDutyWrites (v : Word) (t : Nat) : ∀ c ∈ ([.almCallAck p v t, .almDutyWrite p v t] : List Instr),
    Ends (exec c s) (Keeps (withPlant (withLink [.port p, .devtime, .alm])) s) :=
  List.forall_iff_forall_mem.mp (And.intro
    (keeps_almWrite (a := 0x6C58) p v t s (by omega) (by omega) (by omega) ((registerTables).plantOpen _ (by simp)))
    (keeps_almWrite (a := 0x6C50) p v t s (by omega) (by omega) (by omega) ((registerTables).plantOpen _ (by simp))))

end

/-- Settles O8: each clause is the frame of the register its commands access, which joins what a host access may show
(`AccFrame`) to what the register's own read or write leaves (`ReadsOnly`, `WritesOnly`). -/
theorem frameOfRegisterAccesses : Obligations.FrameOfRegisterAccesses := by
  intro s
  refine ⟨?reads, ?value, ?qseq, ?stgAddr, ?stgData, ?rmCtrl, ?runHalt, ?safe, ?snap, ?selectors, ?blkCtrl, ?evtStat, ?evtMask,
    ?evtRoute, ?evtMsgq, ?evtMsgStat, ?ui, ?ex, ?caRange, ?bufOpen, ?bufRelease, ?bufData, ?lo, ?doCmd, ?il, ?sv, ?pfRaw, ?pfCap,
    ?pfClr, ?cmp, ?lnMode, ?lnApply, ?lnTest, ?lnCap, ?points, ?groups, ?ackAll, ?shelve, ?service, ?callDuty, ?almSel, ?seqStart,
    ?seqCmds, ?seqGoto, ?dspDraw, ?bias, ?dup, ?clk, ?setOfs, ?shadow, ?date, ?recAppend⟩
  case reads => exact fun p => keeps_portReads p s
  case value => exact fun p r ecc => keeps_resultValueRead p s r ecc
  case qseq => exact fun p r => (readsOnly_qseq r).keeps_hostOp (by simp) (by simp) s
  case stgAddr => exact fun p v => keeps_stgAddrWrite p v s
  case stgData => exact fun p => readsOnly_stgData.keeps_hostOp (by simp) (by simp) s
  case rmCtrl => exact fun p key => keeps_rmCtrlCommands p s key
  case runHalt =>
    exact fun p key => List.forall_iff_forall_mem.mp
      (And.intro (keeps_runHaltWrite p s key (.inl rfl)) (keeps_runHaltWrite p s key (.inr rfl)))
  case safe => exact fun p key => keeps_safeCmd p s key
  case snap =>
    exact fun p t => writesOnly_snapTrigger.keeps_upMem (by simp) (.atPort (by simp) ((registerTables).atPort _ (by simp))) t
      (by simp) s
  case selectors => exact fun p v => keeps_selectorWrites p s v
  case blkCtrl => exact fun p b v => keeps_blkCtrlWrite p v s b
  case evtStat => exact fun p m v same => keeps_evtWrite p _ s (by omega) (by omega)
  case evtMask => exact fun p m v => keeps_evtWrite p v s (by omega) (by omega)
  case evtRoute => exact fun p m v => keeps_evtWrite p v s (by omega) (by omega)
  case evtMsgq => exact fun p => readsOnly_evtMsgq.keeps_hostOp (by simp) (by simp) s
  case evtMsgStat => exact fun p v => keeps_evtWrite p v s (by omega) (by omega)
  case ui =>
    exact fun p n v => List.forall_iff_forall_mem.mp (And.intro
      (keeps_uiWrite (a := 0x2010 + 0x40 * n.val) p v s (by omega) (by omega) (by omega))
      (keeps_uiWrite (a := 0x202C + 0x40 * n.val) p v s (by omega) (by omega) (by omega)))
  case ex => exact fun p n v => keeps_exCtrlWrite p v s n
  case caRange => exact fun p n v => keeps_caRangeRequest p v s n
  case bufOpen => exact fun p n t => keeps_bufOpen p t s n
  case bufRelease => exact fun p n => keeps_bufRelease p s n
  case bufData => exact fun p n => (readsOnly_caBufData n).keeps_hostOp (by simp) (by simp) s
  case lo => exact fun p n v => keeps_loDemandWrite p v s n
  case doCmd => exact fun p n v t => keeps_doCmdWrite p v t s n
  case il => exact fun p v t => keeps_ilResetWrite p v t s
  case sv => exact fun p n v t => keeps_svFireWrite p v t s n
  case pfRaw => exact fun p n => (readsOnly_pfRaw n).keeps_hostOp (by simp) (by simp) s
  case pfCap => exact fun p n k => (readsOnly_pfCap n k).keeps_hostOp (by simp) (by simp) s
  case pfClr => exact fun p n v => keeps_pfCtrlClr p v s n
  case cmp =>
    exact fun p v => List.forall_iff_forall_mem.mp (And.intro
      (keeps_cmpWrite (a := 0x5814) p v s (by omega) (by omega) (by omega))
      (keeps_cmpWrite (a := 0x5818) p v s (by omega) (by omega) (by omega)))
  case lnMode => exact fun p n v => keeps_lnModeWrite p _ s n
  case lnApply => exact fun p n => keeps_lnModeWrite p _ s n
  case lnTest =>
    exact fun p n t => List.forall_iff_forall_mem.mp (And.intro (keeps_lnTestWrite p 1#32 t s n) (keeps_lnTestWrite p 2#32 t s n))
  case lnCap => exact fun p n => (readsOnly_lnCapData n).keeps_hostOp (by simp) (by simp) s
  case points => exact fun p i t => keeps_pointCommands p s i t
  case groups =>
    exact fun p g t => List.forall_iff_forall_mem.mp (And.intro (keeps_almCmdWrite p s _ t) (keeps_almCmdWrite p s _ t))
  case ackAll => exact fun p t => keeps_ackAllPatrol p s t
  case shelve => exact fun p i arg t => keeps_almCmdWrite p s _ t
  case service =>
    exact fun p i t => List.forall_iff_forall_mem.mp (And.intro (keeps_almXCmdWrite p _ t s) (keeps_almXCmdWrite p _ t s))
  case callDuty => exact fun p v t => keeps_callDutyWrites p s v t
  case almSel =>
    exact fun p v => List.forall_iff_forall_mem.mp (And.intro (keeps_almFindWrite p v s) (keeps_almLogIdxWrite p v s))
  case seqStart => exact fun p q at_ t => keeps_seqCtrlWrite p _ t s q
  case seqCmds =>
    exact fun p q t => List.forall_iff_forall_mem.mp (show _ ∧ _ ∧ _ from
      ⟨keeps_seqCtrlWrite p 2#32 t s q, keeps_seqCtrlWrite p 3#32 t s q, keeps_seqCtrlWrite p 4#32 t s q⟩)
  case seqGoto => exact fun p q arg t => keeps_seqCtrlWrite p _ t s q
  case dspDraw =>
    exact fun p v => List.forall_iff_forall_mem.mp
      (And.intro (keeps_dspDrawWrite p v s (.inl rfl)) (keeps_dspDrawWrite p v s (.inr rfl)))
  case bias =>
    exact fun p t => List.forall_iff_forall_mem.mp (And.intro (keeps_dspBiasWrite p 1#32 t s) (keeps_dspBiasWrite p 2#32 t s))
  case dup =>
    exact fun p t => List.forall_iff_forall_mem.mp (show _ ∧ _ ∧ _ from ⟨keeps_dupCtrlWrite p t s (.inl rfl),
      keeps_dupCtrlWrite p t s (.inr (.inl rfl)), keeps_dupCtrlWrite p t s (.inr (.inr rfl))⟩)
  case clk =>
    exact fun p t => List.forall_iff_forall_mem.mp (show _ ∧ _ ∧ _ ∧ _ from ⟨keeps_clkCmdWrite p _ t s,
      keeps_clkCmdWrite p _ t s, keeps_clkCmdWrite p _ t s, keeps_clkCmdWrite p _ t s⟩)
  case setOfs => exact fun p arg t => keeps_clkCmdWrite p _ t s
  case shadow => exact fun p k t => keeps_calendarRead p t s ⟨k.val, by omega⟩
  case date => exact fun p t => keeps_calendarRead p t s 4
  case recAppend => exact fun p v t => keeps_recAppend p v t s

end Sys2Proof.Machine
end

section
/-! SUPPORT. The registers of the event controller. -/

namespace Sys2Proof.Machine
open Sys2Proof

/-! ### What the event controller's registers hold after a write -/

section
variable {α : Type} [DecidableEq α] (d : α) (c : Nat → Prop) [DecidablePred c] (f : Nat → α) (t : Table α) (k : Nat)

/-- Settings of a table at `b`, `b + 1` and so on, each where its condition holds. -/
theorem tget_foldl_tset (b N : Nat) : tget d ((List.range N).foldl (fun o j => if c j then tset d o (b + j) (f j) else o) t) k
      = if b ≤ k ∧ k < b + N ∧ c (k - b) then f (k - b) else tget d t k := by
  induction N with
  | zero =>
    have h : ¬ (b ≤ k ∧ k < b + 0 ∧ c (k - b)) := by omega
    rw [if_neg h]
    rfl
  | succ N ih =>
    simp only [List.range_succ, List.foldl_append, List.foldl_cons, List.foldl_nil]
    by_cases hk : k = b + N
    · subst hk
      by_cases hc : c N
      · simp [hc]
      · simp [hc, ih]
    · have hr : k < b + (N + 1) ↔ k < b + N := by omega
      simp only [hr, ← ih]
      split
      · exact tget_tset_ne d _ _ _ _ hk
      · rfl

/-- The fields of word `i`, `B` to a word. -/
theorem tget_foldl_tset_block {B : Nat} (hB : 0 < B) (i : Nat) :
    tget d ((List.range B).foldl (fun o j => if c j then tset d o (B * i + j) (f j) else o) t) k
      = if k / B = i ∧ c (k % B) then f (k % B) else tget d t k := by
  rw [tget_foldl_tset]
  by_cases hk : k / B = i
  · have hm : B * i + k % B = k := hk ▸ Nat.div_add_mod k B
    have hlt : k % B < B := Nat.mod_lt k hB
    have hs : k - B * i = k % B := by omega
    have hl : B * i ≤ k := by omega
    have hu : k < B * i + B := by omega
    simp only [hs, hl, hu, hk, true_and]
  · have hn : ¬ (B * i ≤ k ∧ k < B * i + B) := fun h => hk (Nat.div_eq_of_lt_le (by linarith [h.1]) (by linarith [h.2]))
    rw [if_neg (fun h => hn ⟨h.1, h.2.1⟩), if_neg (fun h => hk h.1)]

end

theorem bitOf_and_not (v w : Word) (j : Nat) (hj : j < 32) : bitOf (v &&& ~~~w) j = (bitOf v j && !bitOf w j) := by
  simp [bitOf, hj]

section
variable (i : Nat) (v : Word) (n : Node) (k : Nat)

theorem evtStatWrite_occOf : (evtStatWrite i v 0#32 n).evt.occOf k
    = if k / 32 = i ∧ bitOf v (k % 32) = true then 0 else n.evt.occOf k := by
  have hv : v &&& ~~~ (0#32) = v := BitVec.and_allOnes
  simp only [evtStatWrite, hv]
  exact tget_foldl_tset_block 0 (fun j => v.getLsbD j = true) (fun _ => 0) n.evt.occ k (by omega) i

theorem evtMaskWrite_mask (hk : k < 128) : (evtMaskWrite i v n).evt.mask.getLsbD k
    = if k / 32 = i then bitOf v (k % 32) else n.evt.mask.getLsbD k := by
  simp only [evtMaskWrite, restream_ctl, bitOf]
  exact getLsbD_putSlice128 _ _ _ _ hk

theorem evtMaskWrite_stat : (evtMaskWrite i v n).evt.stat = n.evt.stat := by simp only [evtMaskWrite, restream_ctl]

theorem evtRouteWrite_stat : (evtRouteWrite i v n).evt.stat = n.evt.stat := by simp only [evtRouteWrite, restream_ctl]

/-- Codes above 4 leave their field (R141). -/
theorem evtRouteWrite_routeOf : (evtRouteWrite i v n).evt.routeOf k
    = if k / 8 = i ∧ fld v (4 * (k % 8) + 3) (4 * (k % 8)) ≤ 4 then fld v (4 * (k % 8) + 3) (4 * (k % 8)) else n.evt.routeOf k := by
  simp only [evtRouteWrite, Events.routeOf, restream_ctl]
  exact tget_foldl_tset_block 0 (fun j => fld v (4 * j + 3) (4 * j) ≤ 4) (fun j => fld v (4 * j + 3) (4 * j)) n.evt.route k
    (by omega) i

theorem evtMsgStatWrite_evt : (evtMsgStatWrite v n).evt
    = if bitOf v 31 then { n.evt with ovf := false, lost := 0 } else n.evt := by
  unfold evtMsgStatWrite
  split <;> rfl

end

/-! ### The operations at the registers' addresses -/

section
variable (p : HostPort) (v : Word) (m : Mems) (n : Node)

theorem regWrite_evtStat (i : Fin 4) : regWrite p (0x0C00 + 4 * i.val) v m n = (0, m, evtStatWrite i.val v 0#32 n) := by
  have hi : (0x0C00 + 4 * i.val - 0x0C00) / 4 = i.val := by omega
  rw [regWrite_evt (by omega) (by omega), writeLow_evtStat p v n (by omega) (by omega), hi]

theorem regWrite_evtMask (i : Fin 4) : regWrite p (0x0C10 + 4 * i.val) v m n = (0, m, evtMaskWrite i.val v n) := by
  have hi : (0x0C10 + 4 * i.val - 0x0C10) / 4 = i.val := by omega
  rw [regWrite_evt (by omega) (by omega), writeLow_evtMask p v n (by omega) (by omega), hi]

theorem regWrite_evtRoute (i : Fin 16) : regWrite p (0x0C40 + 4 * i.val) v m n = (0, m, evtRouteWrite i.val v n) := by
  have hi : (0x0C40 + 4 * i.val - 0x0C40) / 4 = i.val := by omega
  rw [regWrite_evt (by omega) (by omega), writeLow_evtRoute p v n (by omega) (by omega), hi]

theorem regWrite_evtMsgStat : regWrite p 0x0D14 v m n = (0, m, evtMsgStatWrite v n) := by
  rw [regWrite_evt (by omega) (by omega), writeLow_evtMsgStat p v n (by omega) (by omega)]

theorem regRead_evtMsgq : regRead p 0x0D10 m n = (0, (evtMsgqRead n).1, (evtMsgqRead n).2) := rfl

end

/-! ### The commands -/

section
variable (p : HostPort) (v : Word) (s : State)

theorem evtStatWrite_ends (i : Fin 4) (same : Word) (h : Takes s (0x0C00 + 4 * i.val)) :
    Ends (exec (.evtStatWrite p i v same) s) (fun u => Acks u p (0x0C00 + 4 * i.val)
      ∧ (∀ j < 32, u.node.evt.flag (32 * i.val + j) = (s.node.evt.flag (32 * i.val + j) && !(bitOf v j && !bitOf same j)))
      ∧ (∀ j < 32, bitOf v j = true → bitOf same j = false → u.node.evt.occOf (32 * i.val + j) = 0)
      ∧ (∀ k < 128, k / 32 ≠ i.val → u.node.evt.flag k = s.node.evt.flag k ∧ u.node.evt.occOf k = s.node.evt.occOf k)) := by
  refine ends_hostOp ((registerTables).evtStat i) h p _ (regWrite_evtStat p _ _ _ i) ⟨wrDone_ans _ _ _ _, ?_, ?_, ?_⟩
  · intro j hj
    have hd : (32 * i.val + j) / 32 = i.val := by omega
    have hm : (32 * i.val + j) % 32 = j := by omega
    simp only [wrDone_evt, evtStatWrite_flag _ _ _ (32 * i.val + j) (by omega), hd, hm, if_true, bitOf_and_not v same j hj]
  · intro j hj hv hs
    have hd : (32 * i.val + j) / 32 = i.val := by omega
    have hm : (32 * i.val + j) % 32 = j := by omega
    simp [evtStatWrite_occOf, hd, hm, bitOf_and_not v same j hj, hv, hs]
  · intro k hk hne
    simp [evtStatWrite_flag _ _ _ k hk, evtStatWrite_occOf, hne]

theorem evtMaskWrite_ends (i : Fin 4) (h : Takes s (0x0C10 + 4 * i.val)) :
    Ends (exec (.evtMaskWrite p i v) s) (fun u => Acks u p (0x0C10 + 4 * i.val)
      ∧ (∀ k < 128, u.node.evt.mask.getLsbD k = if k / 32 = i.val then bitOf v (k % 32) else s.node.evt.mask.getLsbD k)
      ∧ u.node.evt.stat = s.node.evt.stat) := by
  refine ends_hostOp ((registerTables).evtMask i) h p v (regWrite_evtMask p v _ _ i) ⟨wrDone_ans _ _ _ _, ?_, ?_⟩
  · intro k hk
    simp only [wrDone_evt, evtMaskWrite_mask _ _ _ k hk]
  · simp only [wrDone_evt, evtMaskWrite_stat]

theorem evtRouteWrite_ends (i : Fin 16) (h : Takes s (0x0C40 + 4 * i.val)) :
    Ends (exec (.evtRouteWrite p i v) s) (fun u => Acks u p (0x0C40 + 4 * i.val)
      ∧ (∀ k < 128, u.node.evt.routeOf k = if k / 8 = i.val ∧ fld v (4 * (k % 8) + 3) (4 * (k % 8)) ≤ 4
          then fld v (4 * (k % 8) + 3) (4 * (k % 8)) else s.node.evt.routeOf k)
      ∧ u.node.evt.stat = s.node.evt.stat) := by
  refine ends_hostOp ((registerTables).evtRoute i) h p v (regWrite_evtRoute p v _ _ i) ⟨wrDone_ans _ _ _ _, ?_, ?_⟩
  · intro k _
    simp only [wrDone_evt, evtRouteWrite_routeOf]
  · simp only [wrDone_evt, evtRouteWrite_stat]

/-- A read of EVT_MSGQ answers the word that `evtMsgqRead` gives and moves the queue as it does (R139). -/
theorem evtMsgqRead_ends (h : Serves s 0x0D10) : Ends (exec (.evtMsgqRead p) s) (fun u =>
    Answered u p 0 0x0D10 (evtMsgqRead s.node).1 ∧ u.node.evt = (evtMsgqRead s.node).2.evt) :=
  ends_hostRead (registerTables).evtMsgq h p (regRead_evtMsgq p s.mem s.node) ⟨by simp [Answered], by simp⟩

theorem evtMsgStatWrite_ends (h : Takes s 0x0D14) : Ends (exec (.evtMsgStatWrite p v) s) (fun u => Acks u p 0x0D14
    ∧ u.node.evt = if bitOf v 31 then { s.node.evt with ovf := false, lost := 0 } else s.node.evt) :=
  ends_hostOp (registerTables).evtMsgStat h p v (regWrite_evtMsgStat p v _ _) ⟨wrDone_ans _ _ _ _, by simp [evtMsgStatWrite_evt]⟩

end

/-- Settles O24: each register's operation, carried out by a port's access that is taken. -/
theorem eventRegisters : Obligations.EventRegisters := by
  refine ⟨?stat, ?mask, ?route, ?msgq, ?msgStat⟩
  case stat => exact fun p m v same s h => evtStatWrite_ends p v s m same h
  case mask => exact fun p m v s h => evtMaskWrite_ends p v s m h
  case route => exact fun p m v s h => evtRouteWrite_ends p v s m h
  case msgq =>
    intro p s h
    refine ⟨fun hq => ?empty, fun e r hq hh => ?word0, fun e r hq hh => ?word1⟩
    case empty => simpa [evtMsgqRead, hq] using evtMsgqRead_ends p s h
    case word0 => simpa [evtMsgqRead, hq, hh] using evtMsgqRead_ends p s h
    case word1 => simpa [evtMsgqRead, hq, hh] using evtMsgqRead_ends p s h
  case msgStat => exact fun p v s h => evtMsgStatWrite_ends p v s h

end Sys2Proof.Machine
end

section
/-! SUPPORT. Block controls, and the outcomes of a host port's write. -/

namespace Sys2Proof.Machine
open Sys2Proof

/-! ### Block controls (R129, R131) -/

theorem blkOf_blkCtrlWrite (b c : Nat) (v : Word) (n : Node) (h : c ≠ b) : (blkCtrlWrite b v n).blkOf c = n.blkOf c :=
  tget_tset_ne _ _ _ _ _ h

theorem expert_blkCtrlWrite (b : Nat) (v : Word) (n : Node) : (blkCtrlWrite b v n).expert b = bitOf v 0 := by
  simp [blkCtrlWrite, Node.expert, Node.blkOf]

theorem blkOf_expertTimeout (b c : Nat) (n : Node) (h : c ≠ b) : (expertTimeout b n).blkOf c = n.blkOf c := by
  unfold expertTimeout
  simp only []
  split
  · exact tget_tset_ne _ _ _ _ _ h
  · rfl

/-- The 60 s of R131 in counts of DEVTIME. -/
theorem expert_expertTimeout (b : Nat) (n : Node) : (expertTimeout b n).expert b
    = (n.expert b && decide (n.time.devtime < (n.blkOf b).since + 15000000000)) := by
  have hw : (n.blkOf b).since + 60 * secPer ≤ n.now ↔ ¬ n.time.devtime < (n.blkOf b).since + 15000000000 := not_lt.symm
  by_cases h : ((n.blkOf b).expert && decide ((n.blkOf b).since + 60 * secPer ≤ n.now)) = true
  · have hx : expertTimeout b n = { n with blk := tset {} n.blk b { n.blkOf b with expert := false, since := 0 } } := if_pos h
    have ht : ¬ n.time.devtime < (n.blkOf b).since + 15000000000 := hw.mp (of_decide_eq_true (Bool.and_elim_right h))
    rw [hx, decide_eq_false ht]
    simp [Node.expert, Node.blkOf]
  · have hx : expertTimeout b n = n := if_neg h
    rw [hx]
    cases he : n.expert b
    · rfl
    · have ht : n.time.devtime < (n.blkOf b).since + 15000000000 := by
        by_contra hn
        exact h (Bool.and_intro he (decide_eq_true (hw.mpr hn)))
      rw [decide_eq_true ht]
      rfl

theorem blkCtrlWrite_ends (p : HostPort) (b : Fin 24) (v : Word) (s : State) (h : Takes s (blkAddr.getD b.val 0)) :
    Ends (exec (.blkCtrlWrite p b v) s) (fun u => Acks u p (blkAddr.getD b.val 0) ∧ u.node.expert b.val = bitOf v 0
      ∧ ∀ c, c ≠ b.val → u.node.blkOf c = s.node.blkOf c) := by
  refine ends_hostPlant ((registerTables).blkCtrl b).2 h 0 p v (regWrite_blkCtrl p b v _ _) h.1 ⟨?_, ?_, fun c hc => ?_⟩
  · simp only [Acks, Answered, settle_port, wrDone_ans]
  · have he := expert_blkCtrlWrite b.val v (s.node.advance 0)
    simpa [wrDone, Node.expert, Node.blkOf] using he
  · have he := blkOf_blkCtrlWrite b.val c v (s.node.advance 0) hc
    simpa [wrDone, Node.blkOf] using he

theorem expertTimeout_ends (b : Fin 24) (s : State) (hu : s.node.up = true) :
    Ends (exec (.expertTimeout b) s) (fun u => u.node.expert b.val
        = (s.node.expert b.val && decide (s.node.time.devtime < (s.node.blkOf b.val).since + 15000000000))
      ∧ (∀ c, c ≠ b.val → u.node.blkOf c = s.node.blkOf c) ∧ Leaves [.blk] s.node u.node) := by
  refine ⟨_, rfl, ?_⟩
  simp only [hu, if_true]
  exact ⟨expert_expertTimeout b.val s.node, fun c hc => blkOf_expertTimeout b.val c s.node hc,
    fun _ hx => expertTimeout_get b.val s.node hx⟩

/-! ### The outcomes of a write access (R106, R130, R451) -/

section
variable {a : Nat} {n : Node} {x : RegAttr} (p : HostPort) (v : Word) (m : Mems)

theorem writeAccess_noRegister (ha : regAttr a = none) : writeAccess p a v m n = accRefuse 2 m n := by simp [writeAccess, ha]

theorem writeAccess_readOnly {e : Bool} (ha : regAttr a = some ⟨e, .ro⟩) (hf : forwards n a = false)
    (hr : n.isRun (regIsl a true) = true) (hl : levelLocked n a ⟨e, .ro⟩ = false) :
    writeAccess p a v m n = accRefuse 0 m n := by
  simp [writeAccess, ha, hf, hr, hl, writeDo, accRefuse]

theorem writeAccess_islandDown (ha : regAttr a = some x) (hf : forwards n a = false) (hr : n.isRun (regIsl a true) = false) :
    writeAccess p a v m n = accRefuse 1 m n := by
  simp [writeAccess, ha, hf, hr]

theorem writeAccess_locked (ha : regAttr a = some x) (hf : forwards n a = false) (hr : n.isRun (regIsl a true) = true)
    (hl : levelLocked n a x = true) : writeAccess p a v m n = accLocked m n := by
  simp [writeAccess, ha, hf, hr, hl]

theorem writeAccess_linkDown (ha : regAttr a = some x) (hf : forwards n a = true) (hk : linkUp n = false) :
    writeAccess p a v m n = accRefuse 1 m n := by
  simp [writeAccess, ha, hf, hk]

theorem writeAccess_forwardLocked (ha : regAttr a = some x) (hf : forwards n a = true) (hk : linkUp n = true)
    (hl : levelLocked n a x = true) : writeAccess p a v m n = accLocked m n := by
  simp [writeAccess, ha, hf, hk, hl]

theorem writeAccess_forward (ha : regAttr a = some x) (hf : forwards n a = true) (hk : linkUp n = true)
    (hl : levelLocked n a x = false) : writeAccess p a v m n
      = { st := 4, fwd := true, mem := m, node := sendFwd p a v (if x.x then expertTouch (regBlk a) n else n) } := by
  simp [writeAccess, ha, hf, hk, hl]

end

/-! ### How a write by a host port ends -/

/-- The answer that an access leaves at its port. -/
def answerAt (p : HostPort) (st a : Nat) (n : Node) : Node :=
  n.modPort p (fun q => { q with ans := { status := st, addr := a, data := 0#32 } })

section
variable {p : HostPort} {a t : Nat} {v : Word} {st : Nat} {s : State} {n n' : Node} {m m' : Mems}

theorem answerAt_up : (answerAt p st a n).up = n.up := modPort_up p _ n

theorem answerAt_ans : ((answerAt p st a n).port p).ans = { status := st, addr := a, data := 0#32 } := by simp [answerAt]

theorem answerAt_leaves (p : HostPort) (st a : Nat) (n : Node) : Leaves [.port p] n (answerAt p st a n) := modPort_leaves p _ n

theorem hostDo_accRefuse (h : writeAccess p a v m n = accRefuse st m n) : hostDo p (.wr a v) m n = (m, answerAt p st a n) := by
  simp only [hostDo, accDo, h, accRefuse, accAddr, answerAt, Bool.false_eq_true, if_false]

theorem hostDo_accLocked (h : writeAccess p a v m n = accLocked m n) :
    hostDo p (.wr a v) m n = (m, answerAt p 3 a (raise 7 n)) := by
  simp only [hostDo, accDo, h, accLocked, accAddr, answerAt, Bool.false_eq_true, if_false]

theorem hostDo_forward (h : writeAccess p a v m n = { st := 4, fwd := true, mem := m, node := n' }) :
    hostDo p (.wr a v) m n = (m, pushFwd (.port p) (answerAt p 4 a n')) := by
  simp only [hostDo, accDo, h, accAddr, answerAt, if_true]

/-- The module's outputs follow what the access made of it. -/
theorem ends_hostDo {c : Acc} (hu : s.node.up = true) (hd : hostDo p c s.mem (s.node.advance t) = (m', n'))
    (hn : n'.up = true) {P : State → Prop} (hP : P { s with mem := m', node := settle n' }) :
    Ends (onBoth (hostPlant t p c) s) P := by
  refine ⟨_, rfl, ?_⟩
  simp only [hostPlant, plantMem, hu, hd, hn, if_true]
  exact hP

/-- What an answer at DEVTIME `t` leaves, where the access itself changed nothing that the plant does not. -/
theorem settle_answerAt_leaves {k : Node} (h : Leaves plantParts (k.advance t) n) :
    Leaves ([.devtime, .port p] ++ plantParts) k (settle (answerAt p st a n)) := by
  have ha : Leaves ([.devtime, .port p] ++ plantParts) k (k.advance t) := (advance_leaves t k).mono (by simp)
  have hn : Leaves ([.devtime, .port p] ++ plantParts) (k.advance t) n := h.mono (List.subset_append_right _ _)
  have hp : Leaves ([.devtime, .port p] ++ plantParts) n (answerAt p st a n) := (answerAt_leaves p st a n).mono (by simp)
  have hs : Leaves ([.devtime, .port p] ++ plantParts) (answerAt p st a n) (settle (answerAt p st a n)) :=
    (settle_leaves _).mono (List.subset_append_right _ _)
  exact ((ha.trans hn).trans hp).trans hs

/-- An access that changes nothing but the port's answer. -/
theorem ends_accRefuse (hu : s.node.up = true)
    (h : writeAccess p a v s.mem (s.node.advance t) = accRefuse st s.mem (s.node.advance t)) :
    Ends (onBoth (hostPlant t p (.wr a v)) s) (fun u => Answered u p st a 0#32 ∧ u.mem = s.mem
      ∧ Leaves ([.devtime, .port p] ++ plantParts) s.node u.node) := by
  refine ends_hostDo hu (hostDo_accRefuse h) (by rw [answerAt_up, advance_up, hu]) ⟨?_, rfl, ?_⟩
  · simp only [Answered, settle_port, answerAt_ans]
  · dsimp only
    exact settle_answerAt_leaves (Leaves.refl _ _)

theorem ends_accLocked (hu : s.node.up = true)
    (h : writeAccess p a v s.mem (s.node.advance t) = accLocked s.mem (s.node.advance t)) :
    Ends (onBoth (hostPlant t p (.wr a v)) s) (fun u => Answered u p 3 a 0#32 ∧ u.node.evt.flag 7 = true ∧ u.mem = s.mem
      ∧ Leaves ([.devtime, .port p] ++ plantParts) s.node u.node) := by
  refine ends_hostDo hu (hostDo_accLocked h) (by rw [answerAt_up, raise_up, advance_up, hu]) ⟨?_, ?_, rfl, ?_⟩
  · simp only [Answered, settle_port, answerAt_ans]
  · dsimp only
    exact settle_flag _ _ ((modPort_flag _ _ _ _).trans (raise_flag 7 _ rfl (by omega)))
  · have hr : Leaves [.dupSent, .evt, .rcd] (s.node.advance t) (raise 7 (s.node.advance t)) := fun _ hx => raise_get 7 _ hx
    dsimp only
    exact settle_answerAt_leaves (hr.mono (by simp [plantParts]))

/-- A write handed to the partner (R451): the answer waits with the port. -/
theorem ends_forward {x : RegAttr} (hu : s.node.up = true) (ha : regAttr a = some x) (hf : forwards s.node a = true)
    (hk : linkUp (s.node.advance t) = true) (hl : levelLocked s.node a x = false) :
    Ends (onBoth (hostPlant t p (.wr a v)) s) (fun u => Answered u p 4 a 0#32
      ∧ u.node.net.fwds = s.node.net.fwds ++ [.port p] ∧ u.mem = s.mem ∧ u.node.ld = s.node.ld) := by
  have hw := writeAccess_forward (n := s.node.advance t) p v s.mem ha hf hk hl
  generalize hk' : (if x.x then expertTouch (regBlk a) (s.node.advance t) else s.node.advance t) = k at hw
  obtain ⟨hd, hn, hg⟩ : k.dev = s.node.dev ∧ k.net = s.node.net ∧ k.ld = s.node.ld := by
    rw [← hk']
    split <;> simp
  refine ends_hostDo hu (hostDo_forward hw) ?_ ⟨?_, ?_, rfl, ?_⟩
  · simpa [pushFwd, Node.up, answerAt, sendFwd, sendFrame, hd] using hu
  · simp only [Answered, settle_port]
    exact answerAt_ans
  · simp [pushFwd, answerAt, sendFwd, sendFrame, hn]
  · simp [pushFwd, answerAt, sendFwd, sendFrame, hg]

/-- A write that the register takes. -/
theorem ends_taken {x : Bool} (h : Takes s a) (ha : regAttr a = some ⟨x, .wr⟩)
    (hr : regWrite p a v s.mem (s.node.advance t) = (st, m', n')) (hu : n'.up = true) :
    Ends (onBoth (hostPlant t p (.wr a v)) s) (fun u => Answered u p st a 0#32 ∧ u.mem = m'
      ∧ Leaves ([.port p, .blk] ++ plantParts) n' u.node) := by
  refine ends_hostPlant ha h t p v hr hu ⟨?_, rfl, ?_⟩
  · simp only [Answered, settle_port, wrDone_ans]
  · dsimp only
    have hw : Leaves ([.port p, .blk] ++ plantParts) n' (wrDone p a x (st, m', n')) :=
      (touched_leaves _ _ _ (fun _ => by simp)).trans ((modPort_leaves p _ _).mono (by simp))
    exact hw.trans ((settle_leaves _).mono (List.subset_append_right _ _))

end

/-- Settles O23: the clauses are the outcomes of a host port's write, in the order of R106 and R451. -/
theorem registerWrites : Obligations.RegisterWrites := by
  refine ⟨blkCtrlWrite_ends, expertTimeout_ends, ?taken, ?readOnly, ?noRegister, ?islandDown, ?locked, ?forwarded, ?linkDown,
    ?forwardLocked⟩
  case taken => exact fun p a v t x st m' n' s h ha hr hu => ends_taken h ha hr hu
  case readOnly =>
    rintro p a v t x s ⟨hu, hf, hr, hl⟩ ha
    rw [ha] at hl
    exact ends_accRefuse hu (writeAccess_readOnly (n := s.node.advance t) p v _ ha hf hr hl)
  case noRegister => exact fun p a v t s hu ha => ends_accRefuse hu (writeAccess_noRegister p v _ ha)
  case islandDown =>
    exact fun p a v t x s hu hf ha hr => ends_accRefuse hu (writeAccess_islandDown (n := s.node.advance t) p v _ ha hf hr)
  case locked =>
    exact fun p a v t x s hu hf ha hr hl => ends_accLocked hu (writeAccess_locked (n := s.node.advance t) p v _ ha hf hr hl)
  case forwarded => exact fun p a v t x s hu hf ha hk hl => ends_forward hu ha hf hk hl
  case linkDown =>
    exact fun p a v t x s hu hf ha hk => ends_accRefuse hu (writeAccess_linkDown (n := s.node.advance t) p v _ ha hf hk)
  case forwardLocked =>
    exact fun p a v t x s hu hf ha hk hl =>
      ends_accLocked hu (writeAccess_forwardLocked (n := s.node.advance t) p v _ ha hf hk hl)

end Sys2Proof.Machine
end

section
/-! SUPPORT. DEVTIME_LO and DEVTIME_HI: the pair of reads by one port (R27). -/

namespace Sys2Proof.Machine
open Sys2Proof

/-! ### The pair DEVTIME_LO and DEVTIME_HI (R27) -/

theorem regAttr_devtime : regAttr 0x0010 = some ⟨false, .ro⟩ ∧ regAttr 0x0014 = some ⟨false, .ro⟩ := by decide +kernel

section
variable (p : HostPort) (s : State)

/-- The module after DEVTIME_LO: the upper bits wait for the port's next DEVTIME_HI. -/
theorem regRead_devtimeLo (m : Mems) (n : Node) : regRead p 0x0010 m n
    = (0, wd n.now, n.modPort p (fun q => { q with devHi := some (wd (n.now / 2 ^ 32)) })) := rfl

theorem regRead_devtimeHi (m : Mems) (n : Node) : regRead p 0x0014 m n = (0, (globRead n p 0x0014).1, (globRead n p 0x0014).2) := rfl

theorem globRead_devtimeHi_latched {n : Node} {w : Word} (h : (n.port p).devHi = some w) :
    globRead n p 0x0014 = (w, n.modPort p (fun q => { q with devHi := none })) := by
  simp [globRead, h]

theorem globRead_devtimeHi_live {n : Node} (h : (n.port p).devHi = none) :
    globRead n p 0x0014 = (wd (n.now / 2 ^ 32), n) := by
  simp [globRead, h]

theorem devtimeLoRead_ends (h : Serves s 0x0010) : Ends (exec (.devtimeLoRead p) s) (fun t =>
    Answered t p 0 0x0010 (wd s.node.now) ∧ (t.node.port p).devHi = some (wd (s.node.now / 2 ^ 32))) :=
  ends_hostRead regAttr_devtime.1 h p (regRead_devtimeLo p s.mem s.node) ⟨by simp [Answered], by simp⟩

theorem devtimeHiRead_latched_ends {w : Word} (h : Serves s 0x0014) (hw : (s.node.port p).devHi = some w) :
    Ends (exec (.devtimeHiRead p) s) (fun t => Answered t p 0 0x0014 w ∧ (t.node.port p).devHi = none) := by
  have hr := regRead_devtimeHi p s.mem s.node
  rw [globRead_devtimeHi_latched p hw] at hr
  exact ends_hostRead regAttr_devtime.2 h p hr ⟨by simp [Answered], by simp⟩

theorem devtimeHiRead_live_ends (h : Serves s 0x0014) (hw : (s.node.port p).devHi = none) :
    Ends (exec (.devtimeHiRead p) s) (fun t => Answered t p 0 0x0014 (wd (s.node.now / 2 ^ 32))) := by
  have hr := regRead_devtimeHi p s.mem s.node
  rw [globRead_devtimeHi_live p hw] at hr
  exact ends_hostRead regAttr_devtime.2 h p hr (by simp [Answered])

end

/-- A high and a low word put together are the number they were cut from, modulo 2^64. -/
theorem wd_high_low (x : Nat) : (wd (x / 2 ^ 32)).toNat * 2 ^ 32 + (wd x).toNat = x % 2 ^ 64 := by
  simp only [wd, BitVec.toNat_ofNat]
  omega

/-- What holds of the state after a command holds of the state it answers. -/
theorem Ends.of_next {o : Out} {P : State → Prop} {t : State} (h : Ends o P) (ht : o = .next t) : P t := by
  obtain ⟨u, hu, hp⟩ := h
  cases hu.symm.trans ht
  exact hp

/-- Settles O12: DEVTIME_LO leaves the upper bits of its own instant in the latch that DEVTIME_HI reads. -/
theorem devtimePairIsCoherent : Obligations.DevtimePairIsCoherent := by
  refine ⟨devtimeLoRead_ends, fun p w s h hw => devtimeHiRead_latched_ends p s h hw,
    fun p s h hw => devtimeHiRead_live_ends p s h hw, fun p s s1 s2 s3 h h1 h2 hp h3 => ?_⟩
  obtain ⟨hlo, hhi⟩ := (devtimeLoRead_ends p s h).of_next h1
  obtain ⟨ha, _⟩ := (devtimeHiRead_latched_ends p s2 h2 (hp.trans hhi)).of_next h3
  rw [hlo, ha]
  exact wd_high_low s.node.now

end Sys2Proof.Machine
end

section
/-! SUPPORT. A drained record's SUSPECT is kept beside its quality (R209, R211). -/

namespace Sys2Proof.Machine
open Sys2Proof

/-- Refutes O14, by its first clause. The store remembers of each result whether its record itself carried SUSPECT
(`Result.susp`, `storeEntry`), so that a pair that clears leaves it (R211); the clause gives that field its default, which a
record with SUSPECT in its quality (R209) does not. -/
theorem not_storeTakesAndLosesResults : ¬ Obligations.StoreTakesAndLosesResults := by
  rintro ⟨hdrain, -⟩
  obtain ⟨t, ht, hres, -⟩ := hdrain ⟨16, 0, [⟨0x2000, 1#32, qSUSPECT⟩], 1#8, 0, 0⟩ ⟨0x2000, 1#32, qSUSPECT⟩
    (wSt { wN with jn := { slots := [⟨16, 0, [⟨0x2000, 1#32, qSUSPECT⟩], 1#8, 0, 0⟩] } })
    (by decide) (by decide) rfl rfl rfl (by decide +kernel)
  have hsusp : ((wNext (exec .junctionDrain
      (wSt { wN with jn := { slots := [⟨16, 0, [⟨0x2000, 1#32, qSUSPECT⟩], 1#8, 0, 0⟩] } }))).node.res 0x2000).susp = true := by
    decide +kernel
  rw [ht, wNext, hres] at hsusp
  exact Bool.false_ne_true hsusp

end Sys2Proof.Machine
end

section
/-! SUPPORT. What a scan tick and a fine tick make of the time base, the block controls and the pins (R25, R131, R286). -/

namespace Sys2Proof.Machine
open Sys2Proof

/-! ### EXPERT at a scan tick (R131) -/

section
variable (b : Nat) (l : List Nat) (n : Node)

theorem expertTimeout_time : (expertTimeout b n).time = n.time := by
  unfold expertTimeout
  dsimp only
  split <;> rfl

theorem blkOf_expertTimeouts_of_notMem (h : b ∉ l) : (l.foldl (fun m c => expertTimeout c m) n).blkOf b = n.blkOf b := by
  induction l generalizing n with
  | nil => rfl
  | cons c r ih =>
    obtain ⟨hc, hr⟩ := not_or.mp (mt List.mem_cons.mpr h)
    exact (ih _ hr).trans (blkOf_expertTimeout c b n hc)

/-- Each block is timed once, whatever the order. -/
theorem expert_expertTimeouts_of_mem (h : b ∈ l) (hl : l.Nodup) : (l.foldl (fun m c => expertTimeout c m) n).expert b
    = (n.expert b && decide (n.time.devtime < (n.blkOf b).since + 15000000000)) := by
  induction l generalizing n with
  | nil => exact absurd h List.not_mem_nil
  | cons c r ih =>
    obtain ⟨hc, hr⟩ := List.nodup_cons.mp hl
    by_cases hbc : b = c
    · subst hbc
      have hk : (r.foldl (fun m c => expertTimeout c m) (expertTimeout b n)).expert b = (expertTimeout b n).expert b :=
        congrArg BlkCtl.expert (blkOf_expertTimeouts_of_notMem b r _ hc)
      exact hk.trans (expert_expertTimeout b n)
    · have hb : (expertTimeout c n).blkOf b = n.blkOf b := blkOf_expertTimeout c b n hbc
      have hi := ih (expertTimeout c n) ((List.mem_cons.mp h).resolve_left hbc) hr
      simp only [Node.expert, hb, expertTimeout_time] at hi ⊢
      exact hi

theorem expert_expertTimeouts (h : b < 24) : (expertTimeouts n).expert b
    = (n.expert b && decide (n.time.devtime < (n.blkOf b).since + 15000000000)) :=
  expert_expertTimeouts_of_mem b _ n (List.mem_range.mpr h) List.nodup_range

end

/-! ### The scan tick -/

/-- A part of a module that the plant's own work does not reach, after an operation on the byte memories too. -/
theorem plantMem_field {α : Type} {F : Node → α} (hF : ∀ k, F (settle k) = F k) (t : Nat) (f : Mems → Node → Mems × Node)
    (m : Mems) {n : Node} (h : n.up = true) : F (plantMem t f m n).2 = F (f m (n.advance t)).2 := by
  simp only [plantMem, h, if_true]
  split
  · exact hF _
  · rfl

theorem tickTime_div (per last now : Nat) (h : 0 < per) : tickTime per last now / per = max (last + 1) (now / per) :=
  Nat.mul_div_cancel _ h

section
variable {pt : Part} (x : ScanMeas) (t : Nat) (m : Mems) (n : Node)

/-- The work of a scan tick before the ports' and mailboxes' leaves the time base and the block controls. -/
theorem tickWork_get (h : pt ∈ [Part.devtime, .ticks, .blk]) :
    Part.get (roleTick t (deviceTick t m (swapExecute t (mirrorTick (tickMeas x n)))).2) pt = Part.get n pt := by
  simp only [List.mem_cons, List.not_mem_nil, or_false] at h
  rcases h with rfl | rfl | rfl <;>
    rw [roleTick_get _ _ (by simp), deviceTick_get _ _ _ (by simp), swapExecute_get _ _ (by simp), mirrorTick_get _ (by simp),
      tickMeas_get _ _ (by simp)]

theorem serviceTick_get_ticks (h : pt ∈ [Part.devtime, .ticks]) : Part.get (serviceTick n) pt = Part.get n pt := by
  simp only [List.mem_cons, List.not_mem_nil, or_false] at h
  rcases h with rfl | rfl <;> exact serviceTick_get n (by simp)

/-- Of the ports' and mailboxes' work at a tick only the time-out of EXPERT reaches a block control. -/
theorem serviceTick_expert {b : Nat} (h : b < 24) : (serviceTick n).expert b
    = (n.expert b && decide (n.time.devtime < (n.blkOf b).since + 15000000000)) := by
  have hblk : (serviceTick n).blk = (expertTimeouts (recScan n)).blk := by
    change Part.get (serviceTick n) .blk = Part.get (expertTimeouts (recScan n)) .blk
    rw [serviceTick, pushTick_get _ (by simp), mbUnknown_get _ (by simp), modbusTick_get _ (by simp), sessionTick_get _ (by simp)]
  have hrec : (recScan n).blk = n.blk := recScan_get (pt := .blk) n (by simp)
  have htime : (recScan n).time.devtime = n.time.devtime := recScan_get (pt := .devtime) n (by simp)
  have he := expert_expertTimeouts b (recScan n) h
  simp only [Node.expert, Node.blkOf, hblk, hrec, htime] at he ⊢
  exact he

/-- Until the ports' and mailboxes' work the tick has moved the time base and left the block controls. -/
theorem scanTick_eq_serviceTick {T : Nat} (hT : tickTime scanPer n.time.lastScan n.now = T) :
    ∃ w : Node, (scanTick x m n).2 = serviceTick w ∧ w.blk = n.blk ∧ w.time.devtime = max n.time.devtime T
      ∧ w.time.lastScan = T / scanPer ∧ w.time.lastFine = n.time.lastFine := by
  have hwork := fun pt h =>
    tickWork_get (pt := pt) x T m { n.advance T with time.lastScan := T / scanPer } h
  have hticks := Prod.mk.inj (hwork .ticks (by simp))
  refine ⟨_, ?_, hwork .blk (by simp), hwork .devtime (by simp), hticks.1, hticks.2⟩
  unfold scanTick
  rw [hT]

theorem scanTick_ends (s : State) (hu : s.node.up = true) : Ends (exec (.scanTick x) s) (fun t =>
    let k := max (s.node.time.lastScan + 1) (s.node.time.devtime / 250000)
    t.node.time.devtime = max s.node.time.devtime (k * 250000) ∧ t.node.time.lastScan = k
      ∧ t.node.time.lastFine = s.node.time.lastFine
      ∧ ∀ b < 24, t.node.expert b = (s.node.expert b && decide (t.node.time.devtime < (s.node.blkOf b).since + 15000000000))) := by
  obtain ⟨w, hw, hblk, hdev, hscan, hfine⟩ := scanTick_eq_serviceTick x s.mem s.node rfl
  rw [tickTime_div scanPer _ _ (by decide)] at hscan
  have htime := plantMem_field settle_time 0 (scanTick x) s.mem hu
  have hset := plantMem_field settle_blk 0 (scanTick x) s.mem hu
  rw [advance_zero, hw] at htime hset
  have hserv : (serviceTick w).time.devtime = w.time.devtime := serviceTick_get_ticks (pt := .devtime) w (by simp)
  have hnums := Prod.mk.inj (serviceTick_get_ticks (pt := .ticks) w (by simp))
  refine ⟨_, rfl, ?_, ?_, ?_, fun b hb => ?_⟩
  · exact (congrArg TimeBase.devtime htime).trans (hserv.trans hdev)
  · exact (congrArg TimeBase.lastScan htime).trans (hnums.1.trans hscan)
  · exact (congrArg TimeBase.lastFine htime).trans (hnums.2.trans hfine)
  · have he := serviceTick_expert w hb
    simp only [Node.expert, Node.blkOf, hblk, hset, htime, hserv] at he ⊢
    exact he

end

/-! ### The fine tick -/

/-- Measured pins in place of the published ones, but for an output in a dark test (R286). -/
theorem bitOf_pinsSet (pins : Word) (n : Node) {j : Nat} (hj : j < 32) :
    bitOf (pinsSet pins n).dig.pins j = if (n.doC j).dark then bitOf n.dig.pins j else bitOf pins j := by
  have hfold : ∀ N ≤ 32, bitOf ((List.range N).foldl
      (fun w k => if (n.doC k).dark then setBitW w k (bitOf n.dig.pins k) else w) pins) j
      = if j < N ∧ (n.doC j).dark = true then bitOf n.dig.pins j else bitOf pins j := by
    intro N
    induction N with
    | zero => simp
    | succ N ih =>
      intro hN
      have ih := ih (by omega)
      simp only [List.range_succ, List.foldl_append, List.foldl_cons, List.foldl_nil]
      by_cases hj : j = N
      · subst hj
        cases hd : (n.doC j).dark <;> simp [hd, ih, bitOf_setBitW _ _ _ _ (show j < 32 by omega)]
      · have hlt : j < N + 1 ↔ j < N := by omega
        split <;> simp [ih, hlt, hj, bitOf_setBitW _ _ _ _ (show N < 32 by omega)]
  have h := hfold 32 le_rfl
  simp only [hj, true_and] at h
  exact h

section
variable (pins : Word) (n : Node)

/-- After the pins are taken a fine tick works on records, positions, lanes and pulse outputs: the time base and the pins stand. -/
theorem fineTick_get_pinsSet {pt : Part} (h : pt ∈ [Part.devtime, .ticks, .digIn]) {T : Nat}
    (hT : tickTime finePer n.time.lastFine n.now = T) : Part.get (fineTick pins n) pt
    = Part.get (pinsSet pins { n.advance T with time.lastFine := T / finePer }) pt := by
  simp only [List.mem_cons, List.not_mem_nil, or_false] at h
  unfold fineTick
  rw [hT]
  rcases h with rfl | rfl | rfl <;>
    rw [sendBeacons_get _ (by simp), poFine_get _ (by simp), get_ite, lnFine_get _ _ (by simp), ite_self,
      pfFine_get _ _ (by simp), digFine_get _ _ (by simp)]

theorem fineTick_ends (s : State) (hu : s.node.up = true) : Ends (exec (.fineTick pins) s) (fun t =>
    let k := max (s.node.time.lastFine + 1) (s.node.time.devtime / 2500)
    t.node.time.devtime = max s.node.time.devtime (k * 2500) ∧ t.node.time.lastFine = k
      ∧ t.node.time.lastScan = s.node.time.lastScan ∧ t.node.blk = s.node.blk
      ∧ ∀ j < 32, bitOf t.node.dig.pins j = if (s.node.doC j).dark then bitOf s.node.dig.pins j else bitOf pins j) := by
  have hget := fun pt h => fineTick_get_pinsSet (pt := pt) pins s.node h rfl
  have hdev := hget .devtime (by simp)
  have hticks := Prod.mk.inj (hget .ticks (by simp))
  have hblk : (fineTick pins s.node).blk = s.node.blk := fineTick_get (pt := .blk) pins s.node (by simp)
  have hpins : (fineTick pins s.node).dig.pins = _ := congrArg (fun x : _ × _ × _ × _ × _ => x.2.2.2.1) (hget .digIn (by simp))
  refine ends_plantOp hu (fineTick pins) ?_
  dsimp only
  rw [settle_time, settle_blk, settle_dig_pins, hpins]
  refine ⟨hdev, ?_, hticks.1, hblk, fun j hj => bitOf_pinsSet _ _ hj⟩
  exact hticks.2.trans (tickTime_div finePer _ _ (by decide))

end

/-- Settles O10: the time base is moved before the work of a tick, and the parts that work reaches are not the time base; the
block controls are timed at the new DEVTIME, the pins are taken first. -/
theorem ticksAdvanceTheTimeBase : Obligations.TicksAdvanceTheTimeBase :=
  ⟨fun x s hu => scanTick_ends x s hu, fun pins s hu => fineTick_ends pins s hu⟩

end Sys2Proof.Machine
end

section
/-! SUPPORT. Frames handed to the outside stand through the plant's own work at the end of a command. -/

namespace Sys2Proof.Machine
open Sys2Proof

/-! ### Frames stand -/

section
variable {x : TxFrame} {n : Node}

theorem mem_tx_foldl {β : Type} {f : Node → β → Node} (hf : ∀ k b, x ∈ k.tx → x ∈ (f k b).tx) (l : List β) (h : x ∈ n.tx) :
    x ∈ (l.foldl f n).tx := by
  induction l generalizing n with
  | nil => exact h
  | cons b r ih => exact ih (hf n b h)

theorem mem_sendFrame_tx (c : TxChan) (d : Nat) (b : Bytes) (h : x ∈ n.tx) : x ∈ (sendFrame c d b n).tx :=
  List.mem_append_left _ h

theorem sent_mem_sendFrame_tx (c : TxChan) (d : Nat) (b : Bytes) (n : Node) :
    ({ chan := c, dest := d, bytes := b } : TxFrame) ∈ (sendFrame c d b n).tx :=
  List.mem_append_right _ (List.mem_singleton_self _)

theorem fieldSync_tx (n : Node) : (fieldSync n).tx = n.tx := by
  change Part.get (fieldSync n) .tx = Part.get n .tx
  unfold fieldSync
  rw [svSync_get _ (by simp), doSync_get _ (by simp), wsSync_get _ (by simp), ilEval_get _ (by simp), diSync_get _ (by simp)]

theorem degradeSync_tx (n : Node) : (degradeSync n).tx = n.tx := by
  have h : ∀ y, (enter y n).tx = n.tx := fun y => enter_get (pt := .tx) y n (by simp)
  unfold degradeSync
  split
  · split <;> simp [h]
  · split <;> simp [h]
  · rfl

theorem recFlush_tx (n : Node) : (recFlush n).tx = n.tx := by
  have hone : ∀ k y, Part.get (recOne k y) .tx = Part.get k .tx := by
    intro k y
    unfold recOne
    rw [get_ite, recPlace_get _ _ _ _ (by simp), recDrop_get _ (by simp), ite_self]
  change Part.get (recFlush n) .tx = Part.get n .tx
  unfold recFlush
  rw [get_ite]
  dsimp only
  rw [get_foldl _ _ _ (fun k y => countOcc_get _ _ k (by simp)), get_foldl _ _ _ hone]
  exact ite_self _

theorem mem_outFlush_tx (h : x ∈ n.tx) : x ∈ (outFlush n).tx := by
  unfold outFlush
  split
  · refine mem_tx_foldl (fun k y hk => ?_) _ h
    dsimp only
    split
    · exact hk
    · exact mem_sendFrame_tx _ _ _ hk
  · exact h

theorem mem_alertFrame_tx (b : Bytes) (h : x ∈ n.tx) : x ∈ (alertFrame b n).tx := by
  have hsend : ∀ (q : Bool) (k : Node) (c : TxChan) (d : Nat) (y : Bytes), x ∈ k.tx →
      x ∈ (if alertOn k q then sendFrame c d y k else k).tx := by
    intro q k c d y hk
    split
    · exact mem_sendFrame_tx _ _ _ hk
    · exact hk
  exact hsend true _ _ _ _ (hsend false _ _ _ _ h)

theorem mem_sendAlf_tx (a : AlertRef) (h : x ∈ n.tx) : x ∈ (sendAlf a n).tx := mem_alertFrame_tx _ h

theorem mem_alertFlush_tx (h : x ∈ n.tx) : x ∈ (alertFlush n).tx := by
  unfold alertFlush
  split
  · dsimp only
    generalize hp : (n.alm.alfDue.map (·.1)).dedup = pts
    generalize hk : (List.range 16).foldl callStamp (pts.foldl (fun m i => alertStamp (10000 + i) m) n) = k
    have h0 : x ∈ k.tx := by
      have e : k.tx = n.tx := by
        change Part.get k .tx = Part.get n .tx
        rw [← hk, get_foldl _ _ _ (fun m s => callStamp_get m s (by simp)),
          get_foldl _ _ _ (fun m i => alertStamp_get _ m (by simp))]
      rwa [e]
    generalize hm : (if n.alm.alfDue.isEmpty then k else { k with alm.alfDue := [] } : Node) = m
    have h1 : x ∈ m.tx := by
      rw [← hm]
      split <;> exact h0
    split
    · refine mem_tx_foldl (fun w s hw => ?_) _ (mem_tx_foldl (fun w i hw => ?_) _ h1)
      · split
        · exact mem_sendAlf_tx _ hw
        · exact hw
      · split
        · split
          · exact mem_sendAlf_tx _ hw
          · exact hw
        · exact hw
    · exact h1
  · split <;> exact h

theorem mem_settle_tx (h : x ∈ n.tx) : x ∈ (settle n).tx := by
  refine mem_alertFlush_tx (mem_outFlush_tx ?_)
  rw [recFlush_tx, degradeSync_tx, fieldSync_tx]
  exact h

end

end Sys2Proof.Machine
end

section
/-! SUPPORT. Reads of VALUE and QSEQ by the host ports (R22, R46, R47, R49). -/

namespace Sys2Proof.Machine
open Sys2Proof

/-! ### VALUE and QSEQ as registers -/

theorem regAttr_result (r : Fin 518) :
    (regAttr (resAddr r.val)).isSome = true ∧ (regAttr (resAddr r.val + 4)).isSome = true := by
  revert r
  decide +kernel

section
variable (p : HostPort) (r : Fin 518) (m : Mems) (n : Node) (s : State)

/-- VALUE is served whatever its island does (R22). -/
theorem readAccess_value : readAccess p (resAddr r.val) m n
    = { st := 0, data := valueWord (n.res (resAddr r.val)), mem := m, node := (valueRead p (resAddr r.val) n).2 } := by
  obtain ⟨x, hx⟩ := Option.isSome_iff_exists.mp (regAttr_result r).1
  obtain ⟨_, hv⟩ := (registerTables).value r
  simp [readAccess, hx, hv, regRead_value, valueRead]

theorem readAccess_qseq : readAccess p (resAddr r.val + 4) m n
    = { st := 0, data := (qseqRead p (resAddr r.val) n).1, mem := m, node := (qseqRead p (resAddr r.val) n).2 } := by
  obtain ⟨x, hx⟩ := Option.isSome_iff_exists.mp (regAttr_result r).2
  obtain ⟨_, _, hq⟩ := (registerTables).qseq r
  simp [readAccess, hx, hq, regRead_qseq]

theorem hostDo_value : hostDo p (.rd (resAddr r.val)) m n
    = (m, (valueRead p (resAddr r.val) n).2.modPort p (fun q =>
        { q with ans := { status := 0, addr := resAddr r.val, data := valueWord (n.res (resAddr r.val)) } })) := by
  simp [hostDo, accDo, readAccess_value, accAddr]

theorem hostDo_qseq : hostDo p (.rd (resAddr r.val + 4)) m n
    = (m, (qseqRead p (resAddr r.val) n).2.modPort p (fun q =>
        { q with ans := { status := 0, addr := resAddr r.val + 4, data := (qseqRead p (resAddr r.val) n).1 } })) := by
  simp [hostDo, accDo, readAccess_qseq, accAddr]

theorem valueRead_latch (a : Nat) :
    ((valueRead p a n).2.port p).latch = some (a, qseqWord (n.res a) (some (portIdx p))) := by
  have h : (valueRead p a n).2.port p
      = (n.modPort p (fun q => { q with latch := some (a, qseqWord (n.res a) (some (portIdx p))) })).port p := by
    cases p <;> rfl
  rw [h, port_modPort]

theorem valueRead_res (a b : Nat) : (valueRead p a n).2.res b
    = if b = a then { n.res a with fresh := (n.res a).fresh &&& ~~~ BitVec.ofNat 4 (2 ^ portIdx p) } else n.res b := by
  simp [valueRead, Node.res, tget_tset]

/-- An operation on the module, whether or not it is still up after it. -/
theorem ends_plantMem_settled {s : State} (hu : s.node.up = true) (t : Nat) (f : Mems → Node → Mems × Node) {m' : Mems} {n' : Node}
    (hf : f s.mem (s.node.advance t) = (m', n')) {P : State → Prop} (hP : P { s with mem := m', node := n' })
    (hset : P { s with mem := m', node := n' } → P { s with mem := m', node := settle n' }) : Ends (onBoth (plantMem t f) s) P := by
  cases hn : n'.up with
  | true => exact ends_plantMem hu t f hf hn (hset hP)
  | false =>
    refine ⟨_, rfl, ?_⟩
    simpa only [plantMem, hu, hf, hn, if_true, Bool.false_eq_true, if_false] using hP

/-- A VALUE read by a port: what the check finds in the entry comes first. -/
theorem resultValueRead_ends (e : Ecc) (hu : s.node.up = true) {k : Node} (hk : eccOnRead e (resAddr r.val) s.node = k) :
    Ends (exec (.resultValueRead p r e) s) (fun t =>
      Answered t p 0 (resAddr r.val) (valueWord (k.res (resAddr r.val)))
      ∧ (t.node.port p).latch = some (resAddr r.val, qseqWord (k.res (resAddr r.val)) (some (portIdx p)))
      ∧ (∀ b, t.node.res b = (valueRead p (resAddr r.val) k).2.res b) ∧ ∀ j, k.evt.flag j = true → t.node.evt.flag j = true) := by
  refine ends_plantMem_settled hu 0 _ (Eq.trans (by rw [advance_zero, hk]) (hostDo_value p r s.mem k)) ?_ ?_
  · refine ⟨?_, ?_, fun b => ?_, fun j hj => ?_⟩
    · rw [Answered, port_modPort]
    · rw [port_modPort]
      exact valueRead_latch p k _
    · simp only [Node.res, modPort_jn]
    · rwa [modPort_flag, valueRead_flag]
  · generalize Node.modPort p _ _ = z
    simp only [Answered, settle_port, settle_res]
    exact fun ⟨ha, hl, hr, hf⟩ => ⟨ha, hl, hr, fun j hj => settle_flag z j (hf j hj)⟩

/-- A QSEQ read by a port. -/
theorem resultQseqRead_ends (hu : s.node.up = true) : Ends (exec (.resultQseqRead p r) s) (fun t =>
    Answered t p 0 (resAddr r.val + 4) (qseqRead p (resAddr r.val) s.node).1
    ∧ (t.node.port p).latch = ((qseqRead p (resAddr r.val) s.node).2.port p).latch ∧ t.node.jn.store = s.node.jn.store) := by
  have hstore : (qseqRead p (resAddr r.val) s.node).2.jn.store = s.node.jn.store :=
    qseqRead_get (pt := .store) p _ s.node (by simp)
  refine ⟨_, rfl, ?_⟩
  simp only [hostOp_up _ _ _ _ hu, hostDo_qseq, Answered, port_modPort, modPort_jn, hstore, and_self]

theorem qseqRead_latched {a : Nat} {w : Word} (h : (n.port p).latch = some (a, w)) :
    qseqRead p a n = (w, n.modPort p (fun q => { q with latch := none })) := by
  simp [qseqRead, h]

theorem qseqRead_other {a : Nat} (h : ∀ w, (n.port p).latch ≠ some (a, w)) :
    qseqRead p a n = (qseqWord (n.res a) (some (portIdx p)), n) := by
  unfold qseqRead
  split
  · next b w hb =>
    rw [if_neg]
    rintro rfl
    exact h w hb
  · rfl

/-! ### What the check finds in the entry (R49) -/

theorem res_of_store {k : Node} (h : k.jn.store = n.jn.store) (a : Nat) : k.res a = n.res a := by
  rw [Node.res, h, Node.res]

theorem eccCorrected_res (a : Nat) : (eccCorrected n).res a = n.res a :=
  res_of_store n (eccCorrected_get (pt := .store) n (by simp)) a

/-- An entry with an uncorrectable error is lost, and no other. -/
theorem resultLost_res (a b : Nat) : (resultLost a n).res b
    = if b = a ∧ (n.res a).has = true then { n.res a with lost := true } else n.res b := by
  have h : (resultLost a n).jn.store
      = if (n.res a).has then tset {} n.jn.store a { n.res a with lost := true } else n.jn.store := by
    change Part.get (resultLost a n) .store = _
    unfold resultLost
    rw [poFollow_get _ _ (by simp), loFollow_get _ _ (by simp), raise_get _ _ (by simp), get_ite]
    rfl
  rw [Node.res, h]
  cases hh : (n.res a).has <;> simp [tget_tset, Node.res]

theorem resultLost_flag_self (a : Nat) : (resultLost a n).evt.flag 21 = true := by
  unfold resultLost
  exact poFollow_flag _ _ 21 ((loFollow_flag _ _ 21).trans (raise_flag 21 _ rfl (by omega)))

theorem eccUncorrectable_res (i row a : Nat) : (eccUncorrectable i row n).res a = n.res a :=
  res_of_store n (eccUncorrectable_get (pt := .store) i row n (by simp)) a

theorem valueWord_resultLost (a : Nat) : valueWord ((resultLost a n).res a) = 0x80000000#32 := by
  rw [resultLost_res]
  cases hh : (n.res a).has <;> simp [valueWord, hh]

/-- A read clears FRESH and leaves every VALUE. -/
theorem valueWord_valueRead (a b : Nat) : valueWord ((valueRead p a n).2.res b) = valueWord (n.res b) := by
  rw [valueRead_res]
  split
  · next h => rw [h]; rfl
  · rfl

end

end Sys2Proof.Machine
end

section
/-! SUPPORT. The completion of an access that the SPI port, a session or the CAN service waits for (R46, R112, R119, R120, R518). -/

namespace Sys2Proof.Machine
open Sys2Proof

theorem Ends.imp {o : Out} {P Q : State → Prop} (h : Ends o P) (hpq : ∀ t, P t → Q t) : Ends o Q := by
  obtain ⟨t, ht, hp⟩ := h
  exact ⟨t, ht, hpq t hp⟩

/-! ### The outcome of a single access -/

theorem readAccess_served {p : HostPort} {a st : Nat} {w : Word} {m : Mems} {n n' : Node} (ha : (regAttr a).isSome = true)
    (hr : n.isRun (regIsl a false) = true) (h : regRead p a m n = (st, w, n')) :
    readAccess p a m n = { st := st, data := w, mem := m, node := n' } := by
  obtain ⟨x, hx⟩ := Option.isSome_iff_exists.mp ha
  simp [readAccess, hx, hr, h]

theorem writeAccess_taken {p : HostPort} {a st t : Nat} {v : Word} {x : Bool} {m' : Mems} {n' : Node} {s : State}
    (ha : regAttr a = some ⟨x, .wr⟩) (h : Takes s a) (hr : regWrite p a v s.mem (s.node.advance t) = (st, m', n')) :
    writeAccess p a v s.mem (s.node.advance t)
      = { st := st, mem := m', node := if x && st == 0 then expertTouch (regBlk a) n' else n' } := by
  obtain ⟨_, hfwd, hrun, hlock⟩ := h
  have hfwd' : forwards (s.node.advance t) a = false := hfwd
  have hrun' : (s.node.advance t).isRun (regIsl a true) = true := hrun
  have hlock' : levelLocked (s.node.advance t) a ⟨x, .wr⟩ = false := by
    rw [ha] at hlock
    exact hlock
  simp [writeAccess, ha, hfwd', hrun', hlock', writeDo, hr]

/-! ### An answer is sent -/

theorem wfAnswer_mem_tx (x : Session) (op : Nat) (seq : BitVec 16) (st : Nat) (pay : Bytes) (n : Node) :
    { chan := .wayfare x.net, dest := x.client, bytes := wfFrame x.ver op x.number seq.toNat st 1 pay }
      ∈ (wfAnswer x op seq st pay n).tx := sent_mem_sendFrame_tx _ _ _ _

theorem wfAnswer_session (x : Session) (op : Nat) (seq : BitVec 16) (st : Nat) (pay : Bytes) (n : Node) :
    ∀ y ∈ (wfAnswer x op seq st pay n).wf, y.number = x.number →
      y.outst = none ∧ y.resp = some { op := op, status := st, payload := pay } := by
  intro y hy hn
  obtain ⟨z, _, rfl⟩ := List.mem_map.mp hy
  by_cases hz : z.number = x.number
  · simp only [hz, if_true, and_self]
  · rw [if_neg hz] at hn
    exact absurd hn hz

theorem svcSend_mem_tx (st : Nat) (tag : Byte) (a : Nat) (d : Word) (n : Node) :
    { chan := .can (bitOf (svcRspWord n) 31), dest := fld (svcRspWord n) 28 0,
      bytes := leBytes 4 (st * 2 ^ 24 + tag.toNat * 65536 + a) ++ leBytes 4 (if st = 0 then d.toNat else 0) }
      ∈ (svcSend st tag a d n).tx := sent_mem_sendFrame_tx _ _ _ _

/-- The service's response identifier is a setting of the port, which no level check touches. -/
theorem svcRspWord_expertTouch (b : Nat) (n : Node) : svcRspWord (expertTouch b n) = svcRspWord n := by
  simp [svcRspWord, Node.portSet]

section
variable {s : State} {t : Nat} (hu : s.node.up = true)
include hu

/-! ### SPI -/

/-- The SPI port's access is answered with the outcome it has. -/
theorem spiAnswered_ends {tag : Byte} {c : Acc} {o : AccOut} (hs : s.node.spi.outst = some (tag, c)) (hf : s.node.net.fwds = [])
    (ho : accDo .m1 c s.mem (s.node.advance t) = o) (hfwd : o.fwd = false) :
    Ends (exec (.hostAccessComplete .spi t) s) (fun u => u.node.spi.outst = none ∧ u.node.spi.resp = spiAnswer tag c o
      ∧ u.node.port .m1 = o.node.port .m1 ∧ u.mem = o.mem) := by
  refine ends_plantMem_settled hu t (accessComplete .spi) (m' := o.mem) (n' := spiEnd tag c o) ?_ ⟨rfl, rfl, rfl, rfl⟩ ?_
  · simp [accessComplete, spiComplete, hs, hf, ho, hfwd]
  · simp only [settle_spi, settle_port, imp_self]

/-- A write that the STANDBY hands on leaves the SPI port waiting (R451). -/
theorem spiForwarded_ends {tag : Byte} {c : Acc} {o : AccOut} (hs : s.node.spi.outst = some (tag, c)) (hf : s.node.net.fwds = [])
    (ho : accDo .m1 c s.mem (s.node.advance t) = o) (hfwd : o.fwd = true) :
    Ends (exec (.hostAccessComplete .spi t) s) (fun u => u.node.spi = o.node.spi ∧ u.node.net.fwds = o.node.net.fwds ++ [.spi]
      ∧ u.mem = o.mem) := by
  refine ends_plantMem_settled hu t (accessComplete .spi) (m' := o.mem) (n' := pushFwd .spi o.node) ?_ ⟨rfl, rfl, rfl⟩ ?_
  · simp [accessComplete, spiComplete, hs, hf, ho, hfwd]
  · simp only [settle_spi, settle_net_fwds, imp_self]

/-! ### A session -/

/-- A session's request is answered: the answer is sent, and kept for a repeat (R118). -/
theorem wfAnswered_ends {x : Session} {op st : Nat} {seq : BitVec 16} {pay : Bytes} {m' : Mems} {n' : Node}
    (h : wfComplete x.number s.mem (s.node.advance t) = (m', wfAnswer x op seq st pay n')) :
    Ends (exec (.hostAccessComplete (.wf x.number) t) s) (fun u =>
      { chan := .wayfare x.net, dest := x.client, bytes := wfFrame x.ver op x.number seq.toNat st 1 pay } ∈ u.node.tx
      ∧ (∀ y ∈ u.node.wf, y.number = x.number → y.outst = none ∧ y.resp = some { op := op, status := st, payload := pay })
      ∧ u.mem = m') := by
  refine ends_plantMem_settled hu t (accessComplete (.wf x.number)) h
    ⟨wfAnswer_mem_tx x op seq st pay n', wfAnswer_session x op seq st pay n', rfl⟩ ?_
  generalize wfAnswer x op seq st pay n' = z
  simp only [settle_wf]
  exact fun ⟨htx, hwf, hm⟩ => ⟨mem_settle_tx htx, hwf, hm⟩

/-! ### The CAN service -/

/-- The CAN service's access is answered with the outcome it has, to the identifier in force (R518). -/
theorem svcAnswered_ends {tag : Byte} {c : Acc} {o : AccOut} (hs : s.node.net.svc = some (tag, c)) (hf : s.node.net.fwds = [])
    (ho : accDo .m5 c s.mem (s.node.advance t) = o) (hfwd : o.fwd = false) (hst : o.st = 0)
    (hid : svcRspWord o.node = svcRspWord s.node) : Ends (exec (.hostAccessComplete .svc t) s) (fun u =>
      u.node.net.svc = none ∧ SvcSent s u 0 tag (accAddr c) o.data ∧ u.mem = o.mem) := by
  refine ends_plantMem_settled hu t (accessComplete .svc) (m' := o.mem)
    (n' := svcSend 0 tag (accAddr c) o.data { o.node with net.svc := none }) ?_ ⟨rfl, ?_, rfl⟩ ?_
  · simp [accessComplete, svcComplete, hs, hf, ho, hfwd, hst]
  · have htx := svcSend_mem_tx 0 tag (accAddr c) o.data { o.node with net.svc := none }
    have hid' : svcRspWord { o.node with net.svc := none } = svcRspWord s.node := hid
    rw [hid', if_pos rfl] at htx
    exact htx
  · generalize svcSend 0 tag (accAddr c) o.data { o.node with net.svc := none } = z
    simp only [SvcSent, settle_net_svc]
    exact fun ⟨hn, htx, hm⟩ => ⟨hn, mem_settle_tx htx, hm⟩

end

/-! ### Completed accesses -/

section
variable {s : State} {t : Nat}

/-- A session's write is performed and answered with its status. -/
theorem wfWriteComplete_ends {x : Session} {seq : BitVec 16} {op a st : Nat} {v : Word} {y : Bool} {m' : Mems} {n' : Node}
    (ht : Takes s a) (ha : regAttr a = some ⟨y, .wr⟩) (hx : s.node.wf.find? (fun z => z.number == x.number) = some x)
    (ho : x.outst = some (seq, op, .wr a v)) (hf : s.node.net.fwds = [])
    (hr : regWrite (netPort x.net) a v s.mem (s.node.advance t) = (st, m', n')) :
    Ends (exec (.hostAccessComplete (.wf x.number) t) s) (fun u =>
      { chan := .wayfare x.net, dest := x.client, bytes := wfFrame x.ver op x.number seq.toNat st 1 [] } ∈ u.node.tx
      ∧ (∀ z ∈ u.node.wf, z.number = x.number → z.outst = none ∧ z.resp = some { op := op, status := st, payload := [] })
      ∧ u.mem = m') := by
  refine wfAnswered_ends ht.1 (n' := if y && st == 0 then expertTouch (regBlk a) n' else n') ?_
  simp [wfComplete, hx, ho, hf, writeAccess_taken ha ht hr, wfEnd]

/-- A session's read is performed and answered with the word. -/
theorem wfReadComplete_ends {x : Session} {seq : BitVec 16} {op a st : Nat} {w : Word} {n' : Node} (hs : Serves s a)
    (ha : (regAttr a).isSome = true) (hx : s.node.wf.find? (fun y => y.number == x.number) = some x)
    (ho : x.outst = some (seq, op, .rd a)) (hr : regRead (netPort x.net) a s.mem (s.node.advance t) = (st, w, n')) :
    Ends (exec (.hostAccessComplete (.wf x.number) t) s) (fun u =>
      { chan := .wayfare x.net, dest := x.client, bytes := wfFrame x.ver op x.number seq.toNat st 1 (leBytes 4 w.toNat) } ∈ u.node.tx
      ∧ (∀ y ∈ u.node.wf, y.number = x.number → y.outst = none
          ∧ y.resp = some { op := op, status := st, payload := leBytes 4 w.toNat }) ∧ u.mem = s.mem) := by
  refine wfAnswered_ends hs.1 (n' := n') ?_
  simp [wfComplete, hx, ho, readAccess_served (n := s.node.advance t) ha hs.2 hr, wfEnd]

/-- The last word of a burst is read, and all of them answered (R120). -/
theorem wfBurstComplete_ends {x : Session} {seq : BitVec 16} {op a step : Nat} {done : List Word} {w : Word} {n' : Node}
    (hs : Serves s a) (ha : (regAttr a).isSome = true) (hx : s.node.wf.find? (fun y => y.number == x.number) = some x)
    (ho : x.outst = some (seq, op, .burst a 1 step done))
    (hr : regRead (netPort x.net) a s.mem (s.node.advance t) = (0, w, n')) :
    Ends (exec (.hostAccessComplete (.wf x.number) t) s) (fun u =>
      { chan := .wayfare x.net, dest := x.client, bytes := wfFrame x.ver op x.number seq.toNat 0 1 (burstPay (done ++ [w])) }
        ∈ u.node.tx ∧ ∀ y ∈ u.node.wf, y.number = x.number → y.outst = none) := by
  have h : wfComplete x.number s.mem (s.node.advance t) = (s.mem, wfAnswer x op seq 0 (burstPay (done ++ [w])) n') := by
    simp [wfComplete, hx, ho, readAccess_served (n := s.node.advance t) ha hs.2 hr, burstGo]
  exact (wfAnswered_ends hs.1 h).imp (fun u ⟨htx, hwf, _⟩ => ⟨htx, fun y hy hn => (hwf y hy hn).1⟩)

/-- A write that the STANDBY hands on: the SPI port waits for the partner's answer. -/
theorem spiWriteForwarded_ends {tag : Byte} {a : Nat} {v : Word} {x : RegAttr} (hu : s.node.up = true) (ha : regAttr a = some x)
    (hfw : forwards s.node a = true) (hk : linkUp s.node = true) (hl : levelLocked s.node a x = false)
    (hs : s.node.spi.outst = some (tag, .wr a v)) (hf : s.node.net.fwds = []) :
    Ends (exec (.hostAccessComplete .spi t) s) (fun u => u.node.spi.outst = some (tag, .wr a v)
      ∧ u.node.net.fwds = [.spi] ∧ u.mem = s.mem) := by
  have ho : accDo .m1 (.wr a v) s.mem (s.node.advance t) = _ :=
    writeAccess_forward .m1 v s.mem ha hfw hk hl
  have hkeep : ∀ n : Node, (if x.x then expertTouch (regBlk a) n else n).spi = n.spi
      ∧ (if x.x then expertTouch (regBlk a) n else n).net = n.net := by
    intro n
    split <;> simp
  refine (spiForwarded_ends hu hs hf ho rfl).imp (fun u ⟨hspi, hfwd, hm⟩ => ⟨?_, ?_, hm⟩)
  · have h : u.node.spi = (s.node.advance t).spi := hspi.trans (hkeep _).1
    rw [h]
    exact hs
  · have h : u.node.net.fwds = (s.node.advance t).net.fwds ++ [.spi] :=
      hfwd.trans (congrArg (fun e : Net => e.fwds ++ [.spi]) (hkeep _).2)
    rw [h]
    exact congrArg (· ++ [FwdOrg.spi]) hf

end

theorem resultValueRead_clean_ends (p : HostPort) (r : Fin 518) (s : State) (hu : s.node.up = true) :
    Ends (exec (.resultValueRead p r .clean) s) (fun t =>
      Answered t p 0 (resAddr r.val) (valueWord (s.node.res (resAddr r.val)))
      ∧ (t.node.port p).latch = some (resAddr r.val, qseqWord (s.node.res (resAddr r.val)) (some (portIdx p)))
      ∧ (t.node.res (resAddr r.val)).fresh = (s.node.res (resAddr r.val)).fresh &&& ~~~ BitVec.ofNat 4 (2 ^ portIdx p)
      ∧ (t.node.res (resAddr r.val)).value = (s.node.res (resAddr r.val)).value
      ∧ ∀ a, a ≠ resAddr r.val → t.node.res a = s.node.res a) := by
  refine (resultValueRead_ends p r s .clean hu rfl).imp (fun t ⟨ha, hl, hres, _⟩ => ⟨ha, hl, ?_, ?_, fun a hne => ?_⟩)
  · rw [hres, valueRead_res, if_pos rfl]; rfl
  · rw [hres, valueRead_res, if_pos rfl]; rfl
  · rw [hres, valueRead_res, if_neg hne]; rfl

theorem resultValueRead_corrected_ends (p : HostPort) (r : Fin 518) (s : State) (hu : s.node.up = true) :
    Ends (exec (.resultValueRead p r .corrected) s) (fun t =>
      Answered t p 0 (resAddr r.val) (valueWord (s.node.res (resAddr r.val)))
      ∧ (t.node.port p).latch = some (resAddr r.val, qseqWord (s.node.res (resAddr r.val)) (some (portIdx p)))
      ∧ t.node.evt.flag 20 = true) := by
  have hr : (eccCorrected s.node).res (resAddr r.val) = s.node.res (resAddr r.val) := eccCorrected_res s.node _
  refine (resultValueRead_ends p r s .corrected hu (k := eccCorrected s.node) rfl).imp (fun t ⟨ha, hl, _, hflag⟩ => ?_)
  rw [hr] at ha hl
  exact ⟨ha, hl, hflag 20 (raise_flag 20 _ rfl (by omega))⟩

theorem resultValueRead_uncorrectable_ends (p : HostPort) (r : Fin 518) (i : Fin 64) (row : Nat) (s : State) (hu : s.node.up = true) :
    Ends (exec (.resultValueRead p r (.uncorrectable i row)) s) (fun t =>
      Answered t p 0 (resAddr r.val) 0x80000000#32 ∧ valueWord (t.node.res (resAddr r.val)) = 0x80000000#32
      ∧ (∀ a, a ≠ resAddr r.val → t.node.res a = s.node.res a) ∧ t.node.evt.flag 21 = true) := by
  let k := eccUncorrectable i.val row (resultLost (resAddr r.val) s.node)
  have hk : ∀ a, k.res a = (resultLost (resAddr r.val) s.node).res a := eccUncorrectable_res _ i.val row
  have hlost : valueWord (k.res (resAddr r.val)) = 0x80000000#32 := by
    rw [hk]
    exact valueWord_resultLost s.node _
  refine (resultValueRead_ends p r s (.uncorrectable i row) hu (k := k) rfl).imp (fun t ⟨ha, _, hres, hflag⟩ =>
    ⟨hlost ▸ ha, ?_, fun a hne => ?_, hflag 21 (eccUncorrectable_flag _ _ _ 21 (resultLost_flag_self s.node _))⟩)
  · rw [hres, valueWord_valueRead, hlost]
  · rw [hres, valueRead_res, if_neg hne, hk, resultLost_res, if_neg (fun h => hne h.1)]

/-- Settles O13: a port's read latches what the second half needs; an access that waited ends as the same access does at once. -/
theorem latchedReads : Obligations.LatchedReads := by
  refine ⟨⟨devtimeLoRead_ends, fun p w s h hw => devtimeHiRead_latched_ends p s h hw,
    fun p s h hw => devtimeHiRead_live_ends p s h hw, resultValueRead_clean_ends, ?_, ?_, resultValueRead_corrected_ends, resultValueRead_uncorrectable_ends⟩, ?_, ?_,
    ?_, ?_, ?_, ?_, ?_, ?_, ?_⟩
  case refine_1 =>
    intro p r w s hu hw
    have h := resultQseqRead_ends p r s hu
    rw [qseqRead_latched p s.node hw] at h
    exact h.imp (fun t ⟨ha, hl, hs⟩ => ⟨ha, hl.trans (by rw [port_modPort]), hs⟩)
  case refine_2 =>
    intro p r s hu hw
    have h := resultQseqRead_ends p r s hu
    rw [qseqRead_other p s.node hw] at h
    exact h
  case refine_3 =>
    intro tag a t st w n' s h ha hs hf hr
    exact (spiAnswered_ends h.1 hs hf (readAccess_served (n := s.node.advance t) ha h.2 hr) rfl).imp
      (fun u ⟨ho, hresp, _, hm⟩ => ⟨ho, hresp, hm⟩)
  case refine_4 =>
    intro tag r t s hu hs hf
    refine (spiAnswered_ends hu hs hf (readAccess_value .m1 r s.mem (s.node.advance t)) rfl).imp
      (fun u ⟨ho, hresp, hp, _⟩ => ⟨ho, hresp, ?_⟩)
    rw [hp]
    exact valueRead_latch .m1 (s.node.advance t) _
  case refine_5 =>
    intro tag a v t x st m' n' s h ha hs hf hr
    refine (spiAnswered_ends h.1 hs hf (writeAccess_taken ha h hr) rfl).imp (fun u ⟨ho, hresp, _, hm⟩ => ⟨ho, ?_, hm⟩)
    rw [hresp, spiAnswer, ite_self]
    rfl
  case refine_6 =>
    intro tag a v t x s hu ha hfw hk hl hs hf
    exact spiWriteForwarded_ends hu ha hfw hk hl hs hf
  case refine_7 =>
    intro x seq op a t st w n' s h ha hx ho hr
    exact wfReadComplete_ends h ha hx ho hr
  case refine_8 =>
    intro x seq op a v t y st m' n' s h ha hx ho hf hr
    exact wfWriteComplete_ends h ha hx ho hf hr
  case refine_9 =>
    intro x seq op a step t done w n' s h ha hx ho hr
    exact wfBurstComplete_ends h ha hx ho hr
  case refine_10 =>
    intro tag r t s hu hs hf
    exact (svcAnswered_ends hu hs hf (readAccess_value .m5 r s.mem (s.node.advance t)) rfl rfl rfl).imp
      (fun u ⟨hn, hsent, _⟩ => ⟨hn, hsent⟩)
  case refine_11 =>
    intro tag a v t x m' n' s h ha hs hf hr hid
    refine svcAnswered_ends h.1 hs hf (writeAccess_taken ha h hr) rfl rfl ?_
    dsimp only
    split
    · exact (svcRspWord_expertTouch _ n').trans hid
    · exact hid

end Sys2Proof.Machine
end

section
/-! SUPPORT. What an island's fault, an engine's failure, a spare's start and a lockstep mismatch change, and what else stands
(R17, R20, R29, R32, R454). -/

namespace Sys2Proof.Machine
open Sys2Proof

/-! ### Islands (R17, R20) -/

section
variable {i : Nat} {n : Node}

theorem islSt_lt (h : n.islSt i = .run) : i < n.isl.states.length := by
  by_contra hlt
  rw [Node.islSt, List.getD_eq_default _ _ (by omega)] at h
  exact IslState.noConfusion h

theorem getD_lset {α : Type} (l : List α) (k j : Nat) (v d : α) (hk : k < l.length) :
    (lset l k v).getD j d = if j = k then v else l.getD j d := by
  simp only [lset, List.getD_eq_getElem?_getD, List.getElem?_set, hk]
  by_cases hj : k = j
  · simp [hj]
  · simp [hj, Ne.symm hj]

theorem islandFault_of_down (h : n.islSt i ∈ [IslState.off, .fault]) : islandFault i n = n := by
  simp only [List.mem_cons, List.not_mem_nil, or_false] at h
  rw [islandFault, if_pos]
  rcases h with h | h <;> simp [h]

theorem islandFault_of_run (h : n.islSt i = .run) : islandFault i n
    = if faultStands i then moduleFault 4 (islStops i (islFltMark i { n with dup.cleanAt := n.now }))
      else islStops i (islFltMark i { n with dup.cleanAt := n.now }) := by
  rw [islandFault, if_neg (by simp [h])]

/-- What the fault of an island stops lies outside the islands' own registers. -/
theorem islandFault_isl (h : n.islSt i = .run) : (islandFault i n).isl
    = { n.isl with states := lset n.isl.states i .fault, flt := setBitW n.isl.flt i true } := by
  change Part.get (islandFault i n) .isl = _
  rw [islandFault_of_run h, get_ite, moduleFault_get _ _ (by simp), ite_self, islStops_get _ _ (by simp), islFltMark,
    raise_get _ _ (by simp)]
  rfl

theorem islandFault_flag_self (h : n.islSt i = .run) : (islandFault i n).evt.flag 16 = true := by
  have hm : (islStops i (islFltMark i { n with dup.cleanAt := n.now })).evt.flag 16 = true :=
    islStops_flag _ _ 16 (raise_flag 16 _ rfl (by omega))
  rw [islandFault_of_run h]
  split
  · exact moduleFault_flag _ _ 16 hm
  · exact hm

theorem islSt_islandFault (h : n.islSt i = .run) (j : Nat) : (islandFault i n).islSt j = if j = i then .fault else n.islSt j := by
  rw [Node.islSt, islandFault_isl h]
  exact getD_lset _ _ _ _ _ (islSt_lt h)

end

theorem bitOf_setBitW_self (w : Word) {i : Nat} (hi : i < 32) (b : Bool) : bitOf (setBitW w i b) i = b := by
  rw [bitOf_setBitW w i i b hi, if_pos rfl]

theorem islandFault_run_ends (i : Fin 12) (t : Nat) (s : State) (hu : s.node.up = true) (h : s.node.islSt i.val = .run) :
    Ends (exec (.islandFault i t) s) (fun u => u.node.islSt i.val = .fault ∧ bitOf u.node.isl.flt i.val = true
      ∧ u.node.evt.flag 16 = true ∧ (∀ j, j ≠ i.val → u.node.islSt j = s.node.islSt j)
      ∧ u.node.time.devtime = timeAfter s t) := by
  have hrun : (s.node.advance t).islSt i.val = .run := h
  have hst := islSt_islandFault hrun
  have htime : (islandFault i.val (s.node.advance t)).time.devtime = (s.node.advance t).time.devtime :=
    islandFault_get (pt := .devtime) i.val (s.node.advance t) (by simp)
  refine ends_plantAt hu t _ ?_
  dsimp only
  refine ⟨?_, ?_, settle_flag _ 16 (islandFault_flag_self hrun), fun j hj => ?_, ?_⟩
  · rw [Node.islSt, settle_isl, ← Node.islSt, hst, if_pos rfl]
  · rw [settle_isl, islandFault_isl hrun]
    exact bitOf_setBitW_self _ (by omega) true
  · rw [Node.islSt, settle_isl, ← Node.islSt, hst, if_neg hj]
    rfl
  · rw [settle_time, htime]
    rfl

theorem islandFault_down_ends (i : Fin 12) (t : Nat) (s : State) (hu : s.node.up = true)
    (h : s.node.islSt i.val ∈ [IslState.off, .fault]) : Ends (exec (.islandFault i t) s) (fun u => u.node.isl = s.node.isl) := by
  refine ends_plantAt hu t _ ?_
  rw [settle_isl, islandFault_of_down (n := s.node.advance t) h]
  rfl

/-! ### A causeway's timeout (R19, R20) -/

/-- The registers of a timed-out causeway, before the far island's fault. -/
def cwyMark (src dst : Nat) (n : Node) : Node :=
  raise 17 { n with isl.toCnt := satInc 0xFFFF n.isl.toCnt, isl.toDst := dst, isl.toSrc := src, isl.toScan := n.scan.toNat % 256 }

section
variable (a b : Nat) (n : Node)

theorem causewayTimeout_eq : causewayTimeout a b n = islandFault (farEnd a b) (cwyMark a b n) := rfl

theorem cwyMark_isl : (cwyMark a b n).isl
    = { n.isl with toCnt := satInc 0xFFFF n.isl.toCnt, toDst := b, toSrc := a, toScan := n.scan.toNat % 256 } := by
  rw [cwyMark, raise_isl]

theorem cwyMark_flag_self : (cwyMark a b n).evt.flag 17 = true := raise_flag 17 _ rfl (by omega)

theorem cwyMark_islSt (j : Nat) : (cwyMark a b n).islSt j = n.islSt j := by
  rw [Node.islSt, cwyMark_isl, Node.islSt]

variable {a b n} in
theorem causewayTimeout_isl_of_run (h : n.islSt (farEnd a b) = .run) : (causewayTimeout a b n).isl
    = { n.isl with states := lset n.isl.states (farEnd a b) .fault, flt := setBitW n.isl.flt (farEnd a b) true,
                   toCnt := satInc 0xFFFF n.isl.toCnt, toDst := b, toSrc := a, toScan := n.scan.toNat % 256 } := by
  rw [causewayTimeout_eq, islandFault_isl ((cwyMark_islSt a b n _).trans h), cwyMark_isl]

variable {a b n} in
theorem causewayTimeout_of_down (h : n.islSt (farEnd a b) ∈ [IslState.off, .fault]) : causewayTimeout a b n = cwyMark a b n :=
  islandFault_of_down ((cwyMark_islSt a b n _).symm ▸ h)

/-- The accesses that waited for the crossing are not the islands' registers. -/
theorem dropWaiting_isl (i : Nat) : (dropWaiting i n).isl = n.isl := dropWaiting_get (pt := .isl) i n (by simp)

end

theorem causewayTimeout_run_ends (a b : Fin 12) (t : Nat) (s : State) (hu : s.node.up = true)
    (h : s.node.islSt (farEnd a.val b.val) = .run) :
    Ends (exec (.causewayTimeout a b t) s) (fun u => u.node.islSt (farEnd a.val b.val) = .fault
      ∧ bitOf u.node.isl.flt (farEnd a.val b.val) = true
      ∧ (∀ j, j ≠ farEnd a.val b.val → u.node.islSt j = s.node.islSt j)
      ∧ u.node.isl.toDst = b.val ∧ u.node.isl.toSrc = a.val
      ∧ u.node.isl.toCnt = (if s.node.isl.toCnt < 0xFFFF then s.node.isl.toCnt + 1 else 0xFFFF)
      ∧ u.node.evt.flag 16 = true ∧ u.node.evt.flag 17 = true) := by
  have hrun : (s.node.advance t).islSt (farEnd a.val b.val) = .run := h
  have hmark := (cwyMark_islSt a.val b.val (s.node.advance t) _).trans hrun
  have hfar : farEnd a.val b.val < 32 := by
    unfold farEnd
    split <;> omega
  have hst : ∀ j, (lset s.node.isl.states (farEnd a.val b.val) IslState.fault).getD j .off
      = if j = farEnd a.val b.val then .fault else s.node.islSt j := fun j => getD_lset _ _ _ _ _ (islSt_lt h)
  have hisl := causewayTimeout_isl_of_run hrun
  refine ends_plantAt hu t _ ?_
  dsimp only
  simp only [Node.islSt, settle_isl, dropWaiting_isl, hisl, advance_isl]
  refine ⟨(hst _).trans (if_pos rfl), bitOf_setBitW_self _ hfar true, fun j hj => (hst j).trans (if_neg hj), trivial, trivial, rfl,
    settle_flag _ 16 ?_, settle_flag _ 17 ?_⟩
  · rw [dropWaiting_flag]
    exact islandFault_flag_self hmark
  · rw [dropWaiting_flag]
    exact islandFault_flag _ _ 17 (cwyMark_flag_self _ _ _)

theorem causewayTimeout_down_ends (a b : Fin 12) (t : Nat) (s : State) (hu : s.node.up = true)
    (h : s.node.islSt (farEnd a.val b.val) ∈ [IslState.off, .fault]) :
    Ends (exec (.causewayTimeout a b t) s) (fun u => (∀ j, u.node.islSt j = s.node.islSt j)
      ∧ u.node.isl.flt = s.node.isl.flt ∧ u.node.isl.toDst = b.val ∧ u.node.isl.toSrc = a.val
      ∧ u.node.isl.toCnt = (if s.node.isl.toCnt < 0xFFFF then s.node.isl.toCnt + 1 else 0xFFFF)
      ∧ u.node.evt.flag 17 = true) := by
  have heq : causewayTimeout a.val b.val (s.node.advance t) = cwyMark a.val b.val (s.node.advance t) :=
    causewayTimeout_of_down h
  refine ends_plantAt hu t _ ?_
  dsimp only
  simp only [Node.islSt, settle_isl, dropWaiting_isl, heq, cwyMark_isl, advance_isl]
  refine ⟨fun _ => trivial, trivial, trivial, trivial, rfl, settle_flag _ 17 ?_⟩
  rw [dropWaiting_flag]
  exact cwyMark_flag_self _ _ _

end Sys2Proof.Machine
end

section
/-! SUPPORT. Engines: a failure, the spare that takes the role, the lockstep comparison (R28, R29, R32, R373, R454). -/

namespace Sys2Proof.Machine
open Sys2Proof

/-! ### A failed engine (R29) -/

/-- Engine `e` is out: its role byte, its detour and the missed checkpoint are noted, its role not yet handed on. -/
def engineOut (e : Nat) (c : EngCause) (n : Node) : Node :=
  detourNote 1 e { n with
    isl.ckptMiss := if c = .checkpoint then satInc 0xFFFF n.isl.ckptMiss else n.isl.ckptMiss,
    ckpt := if c = .checkpoint then tmod {} n.ckpt (n.isl.roles.getD e 0#8).toNat Ckpt.drop else n.ckpt,
    isl.roles := lset n.isl.roles e (BitVec.ofNat 8 (0xF0 + (n.isl.roles.getD e 0#8).toNat % 16)),
    dtr.engRun := setBitW n.dtr.engRun e true }

/-- The roles that still wait, but for those that waited for `e` itself. -/
def stillPaused (e : Nat) (n : Node) : Node := { n with isl.paused := n.isl.paused.filter (fun x => x.1 != e) }

/-- Role `ro` of engine `of_` is handed to a spare, or is lost. -/
def roleHandOn (e : Nat) (ro : Byte) (of_ : Nat) (n : Node) : Node :=
  match spareFor (stillPaused e n) e with
  | some s => testDetour ro.toNat { stillPaused e n with isl.paused := (stillPaused e n).isl.paused ++ [(s, ro, of_)] }
  | none => moduleFault 2 (raise 23 { stillPaused e n with isl.paused := (stillPaused e n).isl.paused ++ [(16, ro, of_)] })

section
variable {e : Nat} {c : EngCause} {n : Node}

theorem engineOut_isl : (engineOut e c n).isl = { n.isl with
    ckptMiss := if c = .checkpoint then satInc 0xFFFF n.isl.ckptMiss else n.isl.ckptMiss,
    roles := lset n.isl.roles e (BitVec.ofNat 8 (0xF0 + (n.isl.roles.getD e 0#8).toNat % 16)) } :=
  detourNote_get (pt := .isl) 1 e _ (by simp)

theorem engineOut_engRun : (engineOut e c n).dtr.engRun = setBitW n.dtr.engRun e true := rfl

/-- A failed engine hands on its own role, or the one it was to take. -/
theorem engineFail_cases (h : (n.isl.roles.getD e 0#8).toNat / 16 ≠ 15) : engineFail e c n = raise 18 (engineOut e c n)
    ∨ ∃ ro of_, engineFail e c n = roleHandOn e ro of_ (engineOut e c n) := by
  unfold engineFail
  dsimp only
  rw [if_neg h]
  split
  · exact .inl rfl
  · exact .inr ⟨_, _, rfl⟩

theorem engineFail_of_role (h0 : (n.isl.roles.getD e 0#8).toNat / 16 ≠ 0) (h14 : (n.isl.roles.getD e 0#8).toNat / 16 ≠ 14)
    (h15 : (n.isl.roles.getD e 0#8).toNat / 16 ≠ 15) :
    engineFail e c n = roleHandOn e (n.isl.roles.getD e 0#8) e (engineOut e c n) := by
  unfold engineFail
  dsimp only
  rw [if_neg h15, if_neg h0, if_neg h14]
  rfl

/-- What follows a failure changes which roles wait, and no role, count or detour. -/
theorem roleHandOn_keeps (ro : Byte) (of_ : Nat) (m : Node) : (roleHandOn e ro of_ m).isl.roles = m.isl.roles
    ∧ (roleHandOn e ro of_ m).isl.ckptMiss = m.isl.ckptMiss ∧ (roleHandOn e ro of_ m).dtr = m.dtr := by
  have key : ∃ q, Part.get (roleHandOn e ro of_ m) .isl = { m.isl with paused := q } ∧ Part.get (roleHandOn e ro of_ m) .dtr = m.dtr := by
    unfold roleHandOn
    split
    · rw [testDetour_get _ _ (by simp), testDetour_get _ _ (by simp)]
      exact ⟨_, rfl, rfl⟩
    · rw [moduleFault_get _ _ (by simp), moduleFault_get _ _ (by simp), raise_get _ _ (by simp), raise_get _ _ (by simp)]
      exact ⟨_, rfl, rfl⟩
  obtain ⟨q, hisl, hdtr⟩ := key
  change (roleHandOn e ro of_ m).isl = _ at hisl
  exact ⟨by rw [hisl], by rw [hisl], hdtr⟩

theorem engineFail_keeps (h : (n.isl.roles.getD e 0#8).toNat / 16 ≠ 15) :
    (engineFail e c n).isl.roles = (engineOut e c n).isl.roles
    ∧ (engineFail e c n).isl.ckptMiss = (engineOut e c n).isl.ckptMiss ∧ (engineFail e c n).dtr = (engineOut e c n).dtr := by
  rcases engineFail_cases (c := c) h with heq | ⟨ro, of_, heq⟩
  · rw [heq, raise_isl, raise_dtr]
    exact ⟨rfl, rfl, rfl⟩
  · rw [heq]
    exact roleHandOn_keeps ro of_ _

/-! ### Spares -/

theorem spareFor_eq_none (h : ∀ j < 16, (n.isl.roles.getD j 0#8).toNat / 16 ≠ 14) : spareFor n e = none := by
  have hnil : (List.range 16).filter (fun k => (n.isl.roles.getD k 0#8).toNat / 16 == 14
      && !n.isl.paused.any (fun x => x.1 == k)) = [] := by
    refine List.filter_eq_nil_iff.mpr (fun k hk => ?_)
    rw [Bool.and_eq_true, beq_iff_eq]
    exact fun ⟨hc, _⟩ => h k (List.mem_range.mp hk) hc
  simp only [spareFor, hnil, List.find?_nil, List.head?_nil]

theorem spareFor_isSome {j : Nat} (hj : j < 16) (h : (n.isl.roles.getD j 0#8).toNat / 16 = 14) (hp : n.isl.paused = []) :
    ∃ s, spareFor n e = some s := by
  unfold spareFor
  dsimp only
  split
  · exact ⟨_, rfl⟩
  · refine Option.isSome_iff_exists.mp ?_
    rw [List.isSome_head?]
    refine List.ne_nil_of_mem (List.mem_filter.mpr ⟨List.mem_range.mpr hj, ?_⟩)
    rw [hp, h]
    rfl

theorem roleHandOn_lost {ro : Byte} {of_ : Nat} (h : ∀ j < 16, (n.isl.roles.getD j 0#8).toNat / 16 ≠ 14) :
    (roleHandOn e ro of_ n).evt.flag 23 = true := by
  have hs : spareFor (stillPaused e n) e = none := spareFor_eq_none h
  rw [roleHandOn, hs]
  exact moduleFault_flag _ _ 23 (raise_flag 23 _ rfl (by omega))

theorem roleHandOn_spare {ro : Byte} {of_ j : Nat} (hj : j < 16) (h : (n.isl.roles.getD j 0#8).toNat / 16 = 14)
    (hp : n.isl.paused = []) : ∃ q, roleHandOn e ro of_ n = testDetour ro.toNat { n with isl.paused := q } := by
  have hp' : (stillPaused e n).isl.paused = [] := by
    rw [stillPaused, hp]
    rfl
  obtain ⟨s, hs⟩ := spareFor_isSome (n := stillPaused e n) (e := e) hj h hp'
  exact ⟨_, by rw [roleHandOn, hs]; rfl⟩

end

/-- The test of a lane engine that goes to a spare is aborted (R373). -/
theorem testDetour_aborts {b : Nat} {n : Node} (h3 : b / 16 = 3)
    (hg : (n.genC (b % 16 / 2)).state = 1 ∨ (n.genC (b % 16 / 2)).state = 2) :
    ((testDetour b n).genC (b % 16 / 2)).state = 4 ∧ (testDetour b n).evt.flag 90 = true := by
  have hr : genRuns (n.genC (b % 16 / 2)) = true := by
    rcases hg with h | h <;> simp [genRuns, h]
  rw [testDetour, if_pos h3, genEnd, if_pos hr]
  refine ⟨?_, raise_flag 90 _ rfl (by omega)⟩
  rw [Node.genC, raise_gen]
  simp [setGen]

/-! ### The commands -/

theorem getD_engineOut {e : Nat} {c : EngCause} {n : Node} (he : e < n.isl.roles.length) (j : Nat) :
    (engineOut e c n).isl.roles.getD j 0#8
      = if j = e then BitVec.ofNat 8 (0xF0 + (n.isl.roles.getD e 0#8).toNat % 16) else n.isl.roles.getD j 0#8 := by
  rw [engineOut_isl]
  exact getD_lset _ _ _ _ _ he

theorem engineFailure_ends (e : Fin 16) (c : EngCause) (t : Nat) (s : State) (hu : s.node.up = true)
    (hlen : s.node.isl.roles.length = 16) (hrole : (s.node.isl.roles.getD e.val 0#8).toNat < 0xF0) :
    Ends (exec (.engineFailure e c t) s) (fun u =>
      ((u.node.isl.roles.getD e.val 0#8).toNat = 0xF0 + (s.node.isl.roles.getD e.val 0#8).toNat % 16)
      ∧ (∀ j, j ≠ e.val → u.node.isl.roles.getD j 0#8 = s.node.isl.roles.getD j 0#8)
      ∧ bitOf u.node.dtr.engRun e.val = true
      ∧ u.node.isl.ckptMiss = (if c ≠ .checkpoint then s.node.isl.ckptMiss
          else if s.node.isl.ckptMiss < 0xFFFF then s.node.isl.ckptMiss + 1 else 0xFFFF)
      ∧ (0x10 ≤ (s.node.isl.roles.getD e.val 0#8).toNat → (s.node.isl.roles.getD e.val 0#8).toNat < 0xE0 →
          (∀ j < 16, (s.node.isl.roles.getD j 0#8).toNat / 16 ≠ 14) → u.node.evt.flag 23 = true)) := by
  have he : e.val < (s.node.advance t).isl.roles.length := by
    rw [advance_isl, hlen]
    exact e.isLt
  have hcode : ((s.node.advance t).isl.roles.getD e.val 0#8).toNat / 16 ≠ 15 := by
    rw [advance_isl]
    omega
  obtain ⟨hroles, hmiss, hdtr⟩ := engineFail_keeps (c := c) hcode
  have hget := getD_engineOut (c := c) he
  refine ends_plantAt hu t _ ?_
  dsimp only
  simp only [settle_isl, settle_dtr, hroles, hmiss, hdtr, hget, advance_isl]
  refine ⟨?_, fun j hj => if_neg hj, ?_, ?_, fun hlo hhi hno => settle_flag _ 23 ?_⟩
  · rw [if_pos trivial, BitVec.toNat_ofNat]
    omega
  · rw [engineOut_engRun]
    exact bitOf_setBitW_self _ (by omega) true
  · rw [engineOut_isl]
    cases c <;> rfl
  · rw [engineFail_of_role (by rw [advance_isl]; omega) (by rw [advance_isl]; omega) hcode]
    refine roleHandOn_lost (fun j hj => ?_)
    rw [hget]
    split
    · rw [BitVec.toNat_ofNat]
      omega
    · exact hno j hj

theorem engineFailure_test_ends (e : Fin 16) (c : EngCause) (j : Nat) (t : Nat) (s : State) (hu : s.node.up = true)
    (hlen : s.node.isl.roles.length = 16) (h3 : (s.node.isl.roles.getD e.val 0#8).toNat / 16 = 3) (hj : j < 16)
    (h14 : (s.node.isl.roles.getD j 0#8).toNat / 16 = 14) (hp : s.node.isl.paused = [])
    (hg : (s.node.genC ((s.node.isl.roles.getD e.val 0#8).toNat % 16 / 2)).state = 1
      ∨ (s.node.genC ((s.node.isl.roles.getD e.val 0#8).toNat % 16 / 2)).state = 2) :
    Ends (exec (.engineFailure e c t) s) (fun u =>
      (u.node.genC ((s.node.isl.roles.getD e.val 0#8).toNat % 16 / 2)).state = 4 ∧ u.node.evt.flag 90 = true) := by
  have he : e.val < (s.node.advance t).isl.roles.length := by
    rw [advance_isl, hlen]
    exact e.isLt
  have hne : j ≠ e.val := by
    rintro rfl
    omega
  have hspare : ((engineOut e.val c (s.node.advance t)).isl.roles.getD j 0#8).toNat / 16 = 14 := by
    rw [getD_engineOut he, if_neg hne]
    exact h14
  have hpaused : (engineOut e.val c (s.node.advance t)).isl.paused = [] := by
    rw [engineOut_isl]
    exact hp
  obtain ⟨q, hq⟩ := roleHandOn_spare (e := e.val) (ro := s.node.isl.roles.getD e.val 0#8) (of_ := e.val) hj hspare hpaused
  have hgen : (engineOut e.val c (s.node.advance t)).gen = s.node.gen := detourNote_get (pt := .gen) 1 e.val _ (by simp)
  have hfail : engineFail e.val c (s.node.advance t)
      = testDetour (s.node.isl.roles.getD e.val 0#8).toNat { engineOut e.val c (s.node.advance t) with isl.paused := q } :=
    (engineFail_of_role (n := s.node.advance t) (by rw [advance_isl]; omega) (by rw [advance_isl]; omega)
      (by rw [advance_isl]; omega)).trans hq
  obtain ⟨hst, hflag⟩ := testDetour_aborts (n := { engineOut e.val c (s.node.advance t) with isl.paused := q }) h3
    (by simpa only [Node.genC, hgen] using hg)
  refine ends_plantAt hu t _ ?_
  dsimp only
  rw [settle_genC, hfail]
  exact ⟨hst, settle_flag _ 90 hflag⟩

/-- A spare that waits takes the role, with its last complete checkpoint (R29). -/
theorem spareStart_of_paused {e k : Nat} {ro : Byte} {n : Node} (hp : n.isl.paused = [(k, ro, e)]) (hk : k < 16) :
    ∃ m : Node, spareStart e n = raise 18 { m with isl.roles := lset n.isl.roles k ro, isl.paused := [] }
      ∧ ∀ x, ro.toNat / 16 = 5 → (tget {} n.ckpt ro.toNat).last = some x → m.seq = x.seq := by
  have hfind : n.isl.paused.find? (fun x => x.2.2 == e && decide (x.1 < 16)) = some (k, ro, e) := by
    simp [hp, hk]
  have hrest : n.isl.paused.filter (fun x => x.2.2 != e) = [] := by simp [hp]
  unfold spareStart
  rw [hfind, hrest]
  refine ⟨_, rfl, fun x h5 hx => ?_⟩
  rw [hx]
  dsimp only
  rw [roleTake, h5]
  rfl

theorem spareStart_ends (e : Fin 16) (k : Nat) (ro : Byte) (t : Nat) (s : State) (hu : s.node.up = true)
    (hlen : s.node.isl.roles.length = 16) (hk : k < 16) (hp : s.node.isl.paused = [(k, ro, e.val)]) :
    Ends (exec (.spareStart e t) s) (fun u => u.node.isl.roles.getD k 0#8 = ro ∧ u.node.isl.paused = []
      ∧ u.node.evt.flag 18 = true
      ∧ ∀ x, ro.toNat / 16 = 5 → (tget {} s.node.ckpt ro.toNat).last = some x → u.node.seq = x.seq) := by
  obtain ⟨m, hm, hseq⟩ := spareStart_of_paused (n := s.node.advance t) hp hk
  refine ends_plantAt hu t _ ?_
  dsimp only
  rw [settle_isl, settle_seq, hm, raise_isl, raise_seq]
  refine ⟨?_, rfl, settle_flag _ 18 (raise_flag 18 _ rfl (by omega)), hseq⟩
  exact (getD_lset s.node.isl.roles k k ro 0#8 (by omega)).trans (if_pos rfl)

/-! ### Lockstep (R32) -/

/-- The device's registers are its state and the rest. -/
theorem dev_of_parts {n k : Node} (hs : Part.get k .devState = Part.get n .devState) (hr : Part.get k .devRest = Part.get n .devRest) :
    k.dev = n.dev := by
  obtain ⟨hst, hs⟩ := Prod.mk.inj hs
  obtain ⟨hprev, htick⟩ := Prod.mk.inj hs
  have h := congrArg (fun d : Device => { d with st := n.dev.st, prev := n.dev.prev, stateTick := n.dev.stateTick }) hr
  calc k.dev = { k.dev with st := n.dev.st, prev := n.dev.prev, stateTick := n.dev.stateTick } := by rw [← hst, ← hprev, ← htick]
    _ = n.dev := h

theorem enter_dev {x : DevSt} {n : Node} (h : n.dev.st ≠ x) :
    (enter x n).dev = { n.dev with prev := n.dev.st, st := x, stateTick := n.scan } := by
  rw [enter, if_neg h, recNote_dev, dev_of_parts (recEnter_get x _ (by simp)) (recEnter_get x _ (by simp)), raise_dev]

/-- The entry to SAFE from another state: what it stops does not reach the device's own state. -/
theorem safeEntry_dev (cause : Nat) {n : Node} (h : n.dev.st ≠ .safe) :
    (safeEntry cause n).dev.st = .safe ∧ (safeEntry cause n).dev.safeCause = cause ∧ (safeEntry cause n).dev.prev = n.dev.st := by
  have hstop : (lnTestsAbort (loSafeEntry (caStop (uiStop n)))).dev = n.dev := by
    apply dev_of_parts <;>
      rw [lnTestsAbort_get _ (by simp), loSafeEntry_get _ (by simp), caStop_get _ (by simp), uiStop_get _ (by simp)]
  have hkeep : ∀ (t : Nat) (m : Node), (dspSafe (exRefresh t m)).dev = m.dev := by
    intro t m
    apply dev_of_parts <;> rw [dspSafe_get _ (by simp), exRefresh_get _ _ (by simp)]
  rw [safeEntry, hkeep, enter_dev (by dsimp only; rw [hstop]; exact h), hstop]
  exact ⟨rfl, rfl, rfl⟩

/-- A mismatch in a module that acquires alone (R32, R83). -/
theorem lockstep_eq_safeEntry {n : Node} (ha : n.acq = true) (hp : n.pair = false) : lockstep n = safeEntry 1 n := by
  simp [lockstep, moduleFault, ha, hp]

theorem st_ne_safe_of_acq {n : Node} (ha : n.acq = true) : n.dev.st ≠ .safe := by
  intro hs
  simp [Node.acq, Node.running, hs] at ha

theorem lockstepMismatch_ends (t : Nat) (s : State) (hu : s.node.up = true) (ha : s.node.acq = true) (hp : s.node.pair = false) :
    Ends (exec (.lockstepMismatch t) s) (fun u =>
      u.node.dev.st = .safe ∧ u.node.dev.safeCause = 1 ∧ u.node.dev.prev = s.node.dev.st) := by
  have hsafe := safeEntry_dev 1 (n := s.node.advance t) (st_ne_safe_of_acq ha)
  have hlock : lockstep (s.node.advance t) = safeEntry 1 (s.node.advance t) := lockstep_eq_safeEntry ha hp
  have hrun : (safeEntry 1 (s.node.advance t)).running = false := by
    simp [Node.running, hsafe.1]
  refine ends_plantAt hu t _ ?_
  dsimp only
  rw [hlock, settle_dev _ hrun]
  exact hsafe

/-- Settles O11: each operation is one change of the islands' and engines' registers; what follows a fault or a failure (SAFE, the
stand-down, the aborted test) lies outside them. -/
theorem islandsEnginesAndLockstep : Obligations.IslandsEnginesAndLockstep :=
  ⟨⟨islandFault_run_ends, causewayTimeout_run_ends, islandFault_down_ends, causewayTimeout_down_ends⟩,
    engineFailure_ends, spareStart_ends, lockstepMismatch_ends, engineFailure_test_ends⟩

end Sys2Proof.Machine
end

section
/-! SUPPORT. A universal input's conversion: what it publishes and what it leaves in the channel (R162, R165, R182, R202). -/

namespace Sys2Proof.Machine
open Sys2Proof

/-! ### Folds in which at most one step does something -/

theorem foldl_eq_self {α β : Type} {f : α → β → α} {l : List β} {a : α} (h : ∀ b ∈ l, f a b = a) : l.foldl f a = a := by
  induction l with
  | nil => rfl
  | cons b r ih =>
    rw [List.foldl_cons, h b List.mem_cons_self]
    exact ih (fun c hc => h c (List.mem_cons_of_mem b hc))

theorem foldl_eq_single {α β : Type} {f : α → β → α} {l : List β} {a : α} {b : β} (hb : b ∈ l) (hl : l.Nodup)
    (h : ∀ c ∈ l, c ≠ b → f a c = a) (h' : ∀ c ∈ l, c ≠ b → f (f a b) c = f a b) : l.foldl f a = f a b := by
  induction l with
  | nil => exact absurd hb List.not_mem_nil
  | cons d r ih =>
    obtain ⟨hd, hr⟩ := List.nodup_cons.mp hl
    rw [List.foldl_cons]
    by_cases hdb : d = b
    · subst hdb
      exact foldl_eq_self (fun c hc => h' c (List.mem_cons_of_mem d hc) (fun e => hd (e ▸ hc)))
    · rw [h d List.mem_cons_self hdb]
      exact ih ((List.mem_cons.mp hb).resolve_left (Ne.symm hdb)) hr (fun c hc => h c (List.mem_cons_of_mem d hc))
        (fun c hc => h' c (List.mem_cons_of_mem d hc))

/-! ### A producer's record -/

/-- The record that a producer completes, whether or not one was overrun (R34, R36). -/
theorem complete_mem_slots (prod target : Nat) (es : List Entry) (t : Nat) (n : Node) :
    { prod := prod, target := target, entries := es, seq := tget 0#8 n.jn.seqs (slotKey prod target) + 1#8, time := t,
      arr := n.jn.cycle } ∈ (complete prod target es t n).jn.slots := by
  unfold complete
  dsimp only
  split
  · rw [raise_jn]
    exact List.mem_append_right _ (List.mem_singleton_self _)
  · exact List.mem_append_right _ (List.mem_singleton_self _)

/-! ### The pre-rolled converter (R202, R204) -/

section
variable {c t : Nat} {n : Node}

/-- A pre-roll ends at the channel's first settled result. -/
def prerollEnds (c t : Nat) (n : Node) (b : Nat) : Bool :=
  (n.bcOf b).preroll && (n.bcOf b).chan == c && decide ((n.uiC c).settle ≤ t)

theorem prerollEnds_of_other {b : Nat} (hb : (n.bcOf b).preroll = true → (n.bcOf b).chan ≠ c) : prerollEnds c t n b = false := by
  cases hp : (n.bcOf b).preroll with
  | false => simp [prerollEnds, hp]
  | true => simp [prerollEnds, hb hp]

/-- BC `b` publishes for the channel from now on. -/
def prerollEnd (c : Nat) (n : Node) (b : Nat) : Node :=
  modUi c (fun u => { u with src := 2 }) (recordDetour c b (setBc b { n.bcOf b with preroll := false } n))

theorem prerollDone_eq : prerollDone c t n
    = (List.range 4).foldl (fun m b => if prerollEnds c t m b then prerollEnd c m b else m) n := rfl

theorem prerollDone_of_none (h : ∀ b < 4, prerollEnds c t n b = false) : prerollDone c t n = n := by
  rw [prerollDone_eq]
  exact foldl_eq_self (fun b hb => by rw [h b (List.mem_range.mp hb)]; rfl)

theorem prerollEnd_uiC (b : Nat) : (prerollEnd c n b).uiC c = { n.uiC c with src := 2 } := by
  have h : (recordDetour c b (setBc b { n.bcOf b with preroll := false } n)).ui = n.ui := by
    change Part.get (recordDetour c b _) .ui = _
    rw [recordDetour_get _ _ _ (by simp), setBc_get _ _ _ (by simp)]
    rfl
  rw [prerollEnd, modUi, uiC_setUi, if_pos rfl, Node.uiC, h]
  rfl

theorem prerollEnd_bcOf {b d : Nat} (hd : d ≠ b) : (prerollEnd c n b).bcOf d = n.bcOf d := by
  have h : (prerollEnd c n b).cal = (setBc b { n.bcOf b with preroll := false } n).cal := by
    change Part.get (prerollEnd c n b) .cal = _
    rw [prerollEnd, modUi_get _ _ _ (by simp), recordDetour_get _ _ _ (by simp)]
    rfl
  rw [Node.bcOf, h, ← Node.bcOf, bcOf_setBc, if_neg hd]

/-- The one BC that pre-rolled for the channel. -/
theorem prerollDone_of_unique {b : Nat} (hb : b < 4) (hst : prerollEnds c t n b = true)
    (hno : ∀ d < 4, d ≠ b → prerollEnds c t n d = false) : prerollDone c t n = prerollEnd c n b := by
  have hstep : (if prerollEnds c t n b then prerollEnd c n b else n) = prerollEnd c n b := if_pos hst
  have hafter : ∀ d < 4, d ≠ b → prerollEnds c t (prerollEnd c n b) d = false := by
    intro d hd hne
    have h := hno d hd hne
    rw [prerollEnds] at h ⊢
    rw [prerollEnd_bcOf hne, prerollEnd_uiC]
    exact h
  rw [prerollDone_eq]
  refine (foldl_eq_single (b := b) (List.mem_range.mpr hb) List.nodup_range (fun d hd hne => ?_) (fun d hd hne => ?_)).trans hstep
  · rw [hno d (List.mem_range.mp hd) hne]
    rfl
  · rw [hstep, hafter d (List.mem_range.mp hd) hne]
    rfl

/-- A pre-roll's end changes of the channel only who publishes. -/
theorem prerollDone_uiC : ∃ k, (prerollDone c t n).uiC c = { n.uiC c with src := k } := by
  rw [prerollDone_eq]
  generalize List.range 4 = l
  induction l generalizing n with
  | nil => exact ⟨(n.uiC c).src, rfl⟩
  | cons b r ih =>
    rw [List.foldl_cons]
    split
    · obtain ⟨k, hk⟩ := ih (n := prerollEnd c n b)
      exact ⟨k, by rw [hk, prerollEnd_uiC]⟩
    · exact ih

theorem prerollEnd_detour (b : Nat) : tget 0 (prerollEnd c n b).dtr.conv c = b + 1 ∧ (prerollEnd c n b).evt.flag 22 = true := by
  have hd : (prerollEnd c n b).dtr = (recordDetour c b (setBc b { n.bcOf b with preroll := false } n)).dtr :=
    modUi_get (pt := .dtr) c _ _ (by simp)
  refine ⟨?_, ?_⟩
  · rw [hd, recordDetour, recNote_dtr, raise_dtr]
    exact tget_tset_same 0 n.dtr.conv c (b + 1)
  · rw [prerollEnd, modUi_flag, recordDetour, recNote_flag]
    exact raise_flag 22 _ rfl (by omega)

end

end Sys2Proof.Machine
end

section
/-! SUPPORT. What a conversion of a universal input publishes (R43, R162, R163, R165, R182). -/

namespace Sys2Proof.Machine
open Sys2Proof

section
variable {c t : Nat} {n : Node} {m : UiReading}

/-- Every boundary counts and shows the reading, whatever it publishes. -/
theorem uiPublish_chan : (uiPublish n c m t).chan.lastAt = t ∧ (uiPublish n c m t).chan.cnt = (n.uiC c).cnt + 1#32
    ∧ (uiPublish n c m t).chan.src = (n.uiC c).src ∧ (uiPublish n c m t).chan.raw = uiX n c (n.uiC c) m := by
  unfold uiPublish
  dsimp only
  split_ifs <;> exact ⟨rfl, rfl, rfl, rfl⟩

theorem uiPublish_forced (hs : (n.uiC c).settle ≤ t) (hf : (n.uiC c).force = true) : (uiPublish n c m t).entry
    = some { addr := 0x2000 + c * 0x40, value := (n.uiC c).forceVal, q := 0x81#8 } := by
  have hset : (decide (t < (n.uiC c).settle) && !((n.uiC c).src == 1)) = false := by
    simp [hs]
  unfold uiPublish
  dsimp only
  rw [hset]
  simp only [hf, Bool.false_eq_true, if_false, if_true]
  rfl

theorem uiPublish_settling (hs : t < (n.uiC c).settle) (h0 : (n.uiC c).src = 0) (hp : (n.uiC c).published = true)
    (hf : (n.uiC c).force = false) : (uiPublish n c m t).entry
      = some { addr := 0x2000 + c * 0x40, value := (n.uiC c).last, q := 0x04#8 } := by
  unfold uiPublish
  simp only [h0, hs, hp, hf, decide_true, Nat.reduceBEq, Bool.not_false, Bool.and_true, Bool.or_false, if_true, Bool.not_true,
    Bool.false_eq_true, if_false]
  rfl

/-- Without lead or cold-junction terms, and with no correction being ramped out, x is the reading of the own converter. -/
theorem uiX_own (h0 : (n.uiC c).src = 0) (hr : (n.uiC c).rampN ≤ (n.uiC c).rampJ)
    (hm : [1, 2, 5, 6].contains (uiMode (n.recOf 1 c)) = true) (hw : [2, 3].contains (uiWire (n.recOf 1 c)) = false) :
    uiX n c (n.uiC c) m = m.1 := by
  have hbase : uiBase (n.uiC c) m = m.1 := by
    simp [uiBase, h0, Nat.not_lt.mpr hr]
  simp only [List.contains_eq_mem, List.mem_cons, List.not_mem_nil, or_false, decide_eq_true_eq, decide_eq_false_iff_not, not_or]
    at hm hw
  have hm3 : uiMode (n.recOf 1 c) ≠ 3 := by omega
  simp [uiX, hbase, hw, hm3]

/-- A linear channel without curve (R165). -/
theorem uiE32_linear {r : Bytes} (tb : Bytes) (cut : Bool) (x : Int) (hm : [1, 2, 5, 6].contains (uiMode r) = true)
    (hc : uiCurve r = 0) : (uiE32 r tb cut x).1 = divRound (x * i32 r 16) (2 ^ u8 r 26) + i32 r 20 := by
  have hlin : (uiMode r == 1 || uiMode r == 2 || uiMode r == 5 || uiMode r == 6) = true := by
    simpa [or_assoc] using hm
  simp [uiE32, hc, hlin]

theorem uiPublish_settled (hs : (n.uiC c).settle ≤ t) (hf : (n.uiC c).force = false) : ∃ q, (uiPublish n c m t).entry
    = some { addr := 0x2000 + c * 0x40,
             value := (satE32 (uiE32 (n.recOf 1 c) (n.uiTbl (n.recOf 1 c)) (n.uiC c).cut (uiX n c (n.uiC c) m)).1).1, q := q } := by
  have hset : (decide (t < (n.uiC c).settle) && !((n.uiC c).src == 1)) = false := by
    simp [hs]
  unfold uiPublish
  dsimp only
  rw [hset]
  simp only [hf, Bool.false_eq_true, if_false]
  exact ⟨_, rfl⟩

end

/-! ### The conversion -/

section
variable {c t : Nat} {n : Node} {m : UiReading}

/-- The channel converts at `t` (R162, R163, R177). -/
def uiDue (n : Node) (c t : Nat) : Bool :=
  n.acq && n.isRun 3 && n.roleOn 1 (c / 32) && n.chOn 1 c && (n.uiC c).conv && !(n.uiC c).failed
    && atBoundary (n.uiC c).grid (n.uiC c).lastAt (uiPeriod (n.uiC c).rate) t && !n.uiPastTc c t

/-- The outcome of a conversion reaches the channel, its slot and the rounds that observe it. -/
def uiDeliver (c : Nat) (m : UiReading) (t : Nat) (o : UiOut) (n : Node) : Node :=
  (List.range 4).foldl (bcPair c m t) (raiseIf o.ev34 34 (raiseIf o.ev32 32
    (match o.entry with
      | some e => complete c 0 [e] t (setUi c o.chan n)
      | none => setUi c o.chan n)))

theorem uiConvert_of_due (h : uiDue n c t = true) :
    uiConvert c m t n = uiDeliver c m t (uiPublish (prerollDone c t n) c m t) (prerollDone c t n) := if_pos h

theorem uiConvert_of_not_due (h : uiDue n c t = false) : uiConvert c m t n = n := if_neg (by rw [← uiDue, h]; exact Bool.false_ne_true)

/-- What a delivery leaves but for the slot of the channel. -/
theorem uiDeliver_get {x : Part} {o : UiOut} (hx : x ∉ [Part.cal, .dupSent, .evt, .rcd, .slots]) :
    Part.get (uiDeliver c m t o n) x = Part.get (setUi c o.chan n) x := by
  simp only [List.mem_cons, List.not_mem_nil, or_false, not_or] at hx
  obtain ⟨hcal, hdup, hevt, hrcd, hslots⟩ := hx
  unfold uiDeliver
  rw [get_foldl _ _ _ (fun k b => bcPair_get c m t k b (by simp [hcal])), raiseIf_get _ _ _ (by simp [hdup, hevt, hrcd]),
    raiseIf_get _ _ _ (by simp [hdup, hevt, hrcd])]
  split
  · exact complete_get _ _ _ _ _ (by simp [hdup, hevt, hrcd, hslots])
  · rfl

theorem uiDeliver_flag {o : UiOut} {k : Nat} (h : n.evt.flag k = true) : (uiDeliver c m t o n).evt.flag k = true := by
  have hset : (setUi c o.chan n).evt.flag k = true := (setUi_flag c o.chan n k).trans h
  unfold uiDeliver
  refine flag_foldl _ _ _ k (raiseIf_flag _ _ _ k (raiseIf_flag _ _ _ k ?_)) (fun w b hw => (bcPair_flag c m t w b k).trans hw)
  split
  · exact complete_flag _ _ _ _ _ k hset
  · exact hset

/-- The record of one entry that the channel completes at `t`. -/
def uiRecord (n : Node) (c t : Nat) (e : Entry) : Record :=
  { prod := c, target := 0, entries := [e], seq := tget 0#8 n.jn.seqs (slotKey c 0) + 1#8, time := t, arr := n.jn.cycle }

theorem uiDeliver_slot {o : UiOut} {e : Entry} (he : o.entry = some e) : uiRecord n c t e ∈ (uiDeliver c m t o n).jn.slots := by
  have hslots : (uiDeliver c m t o n).jn.slots = (complete c 0 [e] t (setUi c o.chan n)).jn.slots := by
    have h : Part.get (uiDeliver c m t o n) .slots = Part.get (complete c 0 [e] t (setUi c o.chan n)) .slots := by
      unfold uiDeliver
      rw [get_foldl _ _ _ (fun k b => bcPair_get c m t k b (by simp)), raiseIf_get _ _ _ (by simp), raiseIf_get _ _ _ (by simp), he]
    exact (Prod.mk.inj h).1
  rw [hslots]
  exact complete_mem_slots c 0 [e] t (setUi c o.chan n)

end

end Sys2Proof.Machine
end

section
/-! SUPPORT. The commands of the universal inputs (R161, R162, R164, R182, R202, R256). -/

namespace Sys2Proof.Machine
open Sys2Proof

/-! ### A conversion at its boundary -/

section
variable {c t : Nat} {n : Node} {m : UiReading}

/-- The interlock comparators follow the conversion, and reach nothing else. -/
theorem uiStep_get_uiConvert {x : Part} (hx : x ∉ [Part.il]) (h : n.miswired c = false) :
    Part.get (uiStep c m t n) x = Part.get (uiConvert c m t n) x := by
  unfold uiStep
  rw [if_neg (by rw [h]; exact Bool.false_ne_true)]
  dsimp only
  rw [get_ite, ilUi_get _ _ _ hx, ite_self]

theorem uiRecord_prerollDone (e : Entry) : uiRecord (prerollDone c t n) c t e = uiRecord n c t e := by
  have h : Part.get (prerollDone c t n) .slots = Part.get n .slots := prerollDone_get _ _ _ (by simp)
  have hseqs : (prerollDone c t n).jn.seqs = n.jn.seqs := congrArg (fun x : _ × _ × _ × _ × _ × _ => x.2.1) h
  have hcycle : (prerollDone c t n).jn.cycle = n.jn.cycle := congrArg (fun x : _ × _ × _ × _ × _ × _ => x.2.2.2.2.2) h
  rw [uiRecord, hseqs, hcycle, uiRecord]

/-- A conversion at its boundary: the channel and the record are those of `uiPublish`, the detour that of the pre-roll's end. -/
theorem uiStep_of_due (hm : n.miswired c = false) (hd : uiDue n c t = true) :
    (uiStep c m t n).uiC c = (uiPublish (prerollDone c t n) c m t).chan
    ∧ (∀ e, (uiPublish (prerollDone c t n) c m t).entry = some e →
        uiRecord n c t e ∈ (uiStep c m t n).jn.slots)
    ∧ (uiStep c m t n).dtr = (prerollDone c t n).dtr
    ∧ ∀ k, (prerollDone c t n).evt.flag k = true → (uiStep c m t n).evt.flag k = true := by
  have hconv := uiConvert_of_due (m := m) hd
  refine ⟨?_, fun e he => ?_, ?_, fun k hk => ?_⟩
  · have h : (uiStep c m t n).ui = (setUi c (uiPublish (prerollDone c t n) c m t).chan (prerollDone c t n)).ui := by
      change Part.get (uiStep c m t n) .ui = Part.get (setUi _ _ _) .ui
      rw [uiStep_get_uiConvert (by simp) hm, hconv, uiDeliver_get (by simp)]
    rw [Node.uiC, h, ← Node.uiC, uiC_setUi_same]
  · have h : Part.get (uiStep c m t n) .slots = Part.get (uiConvert c m t n) .slots := uiStep_get_uiConvert (by simp) hm
    have hs : (uiStep c m t n).jn.slots = (uiConvert c m t n).jn.slots := (Prod.mk.inj h).1
    rw [hs, hconv, ← uiRecord_prerollDone]
    exact uiDeliver_slot he
  · change Part.get (uiStep c m t n) .dtr = Part.get (prerollDone c t n) .dtr
    rw [uiStep_get_uiConvert (by simp) hm, hconv, uiDeliver_get (by simp), setUi_get _ _ _ (by simp)]
  · have h : (uiStep c m t n).evt = (uiConvert c m t n).evt := uiStep_get_uiConvert (x := .evt) (by simp) hm
    rw [h, hconv]
    exact uiDeliver_flag hk

/-- Between boundaries, and while the channel does not convert, nothing happens. -/
theorem uiStep_of_not_due (hm : n.miswired c = false) (hd : uiDue n c t = false) : uiStep c m t n = n := by
  unfold uiStep
  rw [if_neg (by rw [hm]; exact Bool.false_ne_true), uiConvert_of_not_due hd]
  simp

section
variable (hm : n.miswired c = false) (hd : uiDue n c t = true)
include hm hd

theorem uiStep_chan : ((uiStep c m t n).uiC c).lastAt = t ∧ ((uiStep c m t n).uiC c).cnt = (n.uiC c).cnt + 1#32 := by
  obtain ⟨hchan, _⟩ := uiStep_of_due (m := m) hm hd
  obtain ⟨hlast, hcnt, _⟩ := uiPublish_chan (m := m) (c := c) (t := t) (n := prerollDone c t n)
  obtain ⟨src, hpre⟩ := prerollDone_uiC (c := c) (t := t) (n := n)
  rw [hpre] at hcnt
  exact ⟨hchan ▸ hlast, hchan ▸ hcnt⟩

theorem uiStep_forced (hs : (n.uiC c).settle ≤ t) (hf : (n.uiC c).force = true) :
    uiRecord n c t { addr := 0x2000 + c * 0x40, value := (n.uiC c).forceVal, q := 0x81#8 } ∈ (uiStep c m t n).jn.slots := by
  obtain ⟨_, hslot, _⟩ := uiStep_of_due (m := m) hm hd
  obtain ⟨src, hpre⟩ := prerollDone_uiC (c := c) (t := t) (n := n)
  have he := uiPublish_forced (m := m) (n := prerollDone c t n) (c := c) (t := t) (by rw [hpre]; exact hs) (by rw [hpre]; exact hf)
  rw [hpre] at he
  exact hslot _ he

theorem uiStep_settling (hs : t < (n.uiC c).settle) (h0 : (n.uiC c).src = 0) (hp : (n.uiC c).published = true)
    (hf : (n.uiC c).force = false) :
    uiRecord n c t { addr := 0x2000 + c * 0x40, value := (n.uiC c).last, q := 0x04#8 } ∈ (uiStep c m t n).jn.slots := by
  obtain ⟨_, hslot, _⟩ := uiStep_of_due (m := m) hm hd
  have hnone : prerollDone c t n = n := by
    refine prerollDone_of_none (fun b _ => ?_)
    simp [prerollEnds, Nat.not_le.mpr hs]
  rw [hnone] at hslot
  exact hslot _ (uiPublish_settling hs h0 hp hf)

/-- The first settled result after a converter's failure comes from the bypass converter, whose detour then stands. -/
theorem uiStep_detours {b : Nat} (hb : b < 4) (hs : (n.uiC c).settle ≤ t) (hp : (n.bcOf b).preroll = true)
    (hch : (n.bcOf b).chan = c) (hno : ∀ d < 4, d ≠ b → (n.bcOf d).preroll = true → (n.bcOf d).chan ≠ c) :
    ((uiStep c m t n).uiC c).src = 2 ∧ tget 0 (uiStep c m t n).dtr.conv c = b + 1 ∧ (uiStep c m t n).evt.flag 22 = true := by
  obtain ⟨hchan, _, hdtr, hflag⟩ := uiStep_of_due (m := m) hm hd
  obtain ⟨_, _, hsrc, _⟩ := uiPublish_chan (m := m) (c := c) (t := t) (n := prerollDone c t n)
  have hst : prerollEnds c t n b = true := by
    simp [prerollEnds, hp, hch, hs]
  have huniq := prerollDone_of_unique hb hst (fun d hd hne => prerollEnds_of_other (hno d hd hne))
  obtain ⟨hconv, h22⟩ := prerollEnd_detour (c := c) (n := n) b
  rw [huniq] at hchan hdtr hflag hsrc
  rw [hchan, hsrc, hdtr, prerollEnd_uiC]
  exact ⟨rfl, hconv, hflag 22 h22⟩

theorem uiStep_linear (hs : (n.uiC c).settle ≤ t) (h0 : (n.uiC c).src = 0) (hf : (n.uiC c).force = false)
    (hno : ∀ b < 4, (n.bcOf b).preroll = true → (n.bcOf b).chan ≠ c) (hr : (n.uiC c).rampN ≤ (n.uiC c).rampJ)
    (hmode : [1, 2, 5, 6].contains (uiMode (n.recOf 1 c)) = true) (hcurve : uiCurve (n.recOf 1 c) = 0)
    (hwire : [2, 3].contains (uiWire (n.recOf 1 c)) = false) : ((uiStep c m t n).uiC c).raw = m.1 ∧ ∃ q,
      uiRecord n c t ⟨0x2000 + c * 0x40, (satE32 (divRound (m.1 * i32 (n.recOf 1 c) 16) (2 ^ u8 (n.recOf 1 c) 26)
        + i32 (n.recOf 1 c) 20)).1, q⟩ ∈ (uiStep c m t n).jn.slots := by
  obtain ⟨hchan, hslot, _⟩ := uiStep_of_due (m := m) hm hd
  have hnone : prerollDone c t n = n := prerollDone_of_none (fun b hb => prerollEnds_of_other (hno b hb))
  obtain ⟨_, _, _, hraw⟩ := uiPublish_chan (m := m) (c := c) (t := t) (n := n)
  obtain ⟨q, hq⟩ := uiPublish_settled (m := m) hs hf
  have hx : uiX n c (n.uiC c) m = m.1 := uiX_own h0 hr hmode hwire
  rw [hnone] at hchan hslot
  rw [hx, uiE32_linear _ _ _ hmode hcurve] at hq
  exact ⟨by rw [hchan, hraw, hx], q, hslot _ hq⟩

end

/-! ### A miswired channel (R256) -/

theorem uiStep_of_miswired (hm : n.miswired c = true) : uiStep c m t n = uiMiswired c t n := by
  rw [uiStep, if_pos hm]

/-- A miswired channel completes at `t`: its grid need not run. -/
def uiMisDue (n : Node) (c t : Nat) : Bool :=
  n.acq && n.isRun 3 && n.roleOn 1 (c / 32) && n.chOn 1 c && (n.uiC c).published && !(n.uiC c).failed
    && atBoundary (n.uiC c).grid (n.uiC c).lastAt (uiPeriod (n.uiC c).rate) t

/-- The completion goes on from the grid that ran last; what it publishes is the forced value, or the last one out of range. -/
theorem uiMiswired_slot (h : uiMisDue n c t = true) :
    uiRecord n c t { addr := 0x2000 + c * 0x40, value := if (n.uiC c).force then (n.uiC c).forceVal else (n.uiC c).last,
                     q := if (n.uiC c).force then 0x81#8 else 0x08#8 } ∈ (uiMiswired c t n).jn.slots := by
  have hq : mkQ (n.uiC c).force false (!(n.uiC c).force) false false (n.uiC c).force = if (n.uiC c).force then 0x81#8 else 0x08#8 := by
    cases (n.uiC c).force <;> rfl
  unfold uiMiswired
  dsimp only
  rw [if_pos (by exact h), hq]
  exact complete_mem_slots _ _ _ _ _

end

/-- A record that a command completed for a UI channel stands at the end of the command. -/
theorem delivers_of_slot {s : State} {c t u : Nat} {e : Entry} {k : Node} (hc : c < 64)
    (h : uiRecord (s.node.advance u) c t e ∈ k.jn.slots) : Delivers s { s with node := settle k } c 0 t [e] := by
  have hp : (uiRecord (s.node.advance u) c t e).prod < 118 := Nat.lt_trans hc (by decide)
  have h' := settle_slot k _ h (.inl hp)
  unfold Delivers
  dsimp only
  rw [uiRecord] at h'
  exact h'

/-! ### Filter and force registers (R164, R182) -/

/-- UI_FILT and UI_FORCE_CTRL are writable. -/
theorem regAttr_ui (c : Fin 64) {o : Nat} (ho : o ∈ [0x10, 0x2C]) : ∃ x, regAttr (0x2000 + o + 0x40 * c.val) = some ⟨x, .wr⟩ := by
  have h : (regAttr (0x2000 + o + 0x40 * c.val)).map RegAttr.acc = some .wr := by
    revert o c
    decide +kernel
  obtain ⟨⟨x, acc⟩, hx, hacc⟩ := Option.map_eq_some_iff.mp h
  exact ⟨x, by rw [hx, ← hacc]⟩

section
variable (p : HostPort) (c : Fin 64) (v : Word)

theorem regWrite_ui (m : Mems) (n : Node) {o : Nat} (ho : o < 0x3C) :
    regWrite p (0x2000 + o + 0x40 * c.val) v m n = (0, m, uiWrite c.val o v n) := by
  have hdiv : (0x2000 + o + 0x40 * c.val - 0x2000) / 0x40 = c.val := by omega
  have hmod : (0x2000 + o + 0x40 * c.val) % 0x40 = o := by omega
  rw [regWrite_high (by omega) (blkAt_high (by omega) (by omega)) ⟨by omega, by omega⟩, writeHigh_ui p v n (by omega), hdiv, hmod]

/-- A write of UI_FILT or UI_FORCE_CTRL that the register takes. -/
theorem uiWrite_ends {o : Nat} (ho : o ∈ [0x10, 0x2C]) {s : State} (h : Takes s (0x2000 + o + 0x40 * c.val)) :
    Ends (onBoth (hostPlant 0 p (.wr (0x2000 + o + 0x40 * c.val) v)) s) (fun u => Acks u p (0x2000 + o + 0x40 * c.val)
      ∧ ∀ d, u.node.uiC d = (uiWrite c.val o v s.node).uiC d) := by
  have hlt : o < 0x3C := by
    simp only [List.mem_cons, List.not_mem_nil, or_false] at ho
    omega
  obtain ⟨x, hx⟩ := regAttr_ui c ho
  have hdev : (uiWrite c.val o v s.node).dev = s.node.dev :=
    dev_of_parts (uiWrite_get _ _ _ _ (by simp)) (uiWrite_get _ _ _ _ (by simp))
  have hup : (uiWrite c.val o v s.node).up = true := by
    rw [Node.up, hdev]
    exact h.1
  refine ends_hostPlant hx h 0 p v (by rw [advance_zero]; exact regWrite_ui p c v s.mem s.node hlt) hup ⟨?_, fun d => ?_⟩
  · simp [Acks, Answered]
  · rw [settle_uiC, Node.uiC, wrDone_ui, Node.uiC]

end

section
variable {c t : Nat} {v : Word} {n : Node}

theorem uiFiltWrite_waits (hok : uiFiltOk (fld v 3 0) (bitOf v 8) = true) (h : (n.uiC c).conv = true ∨ n.uiHeld c = true) :
    uiFiltWrite c v n = setUi c { n.uiC c with pend := some (fld v 3 0, bitOf v 8) } n := by
  simp [uiFiltWrite, hok, h]

theorem uiFiltWrite_stored (hok : uiFiltOk (fld v 3 0) (bitOf v 8) = true) (hc : (n.uiC c).conv = false) (hh : n.uiHeld c = false) :
    uiFiltWrite c v n = setUi c { n.uiC c with rate := fld v 3 0, line := bitOf v 8, pend := none } n := by
  simp [uiFiltWrite, hok, hc, hh]

theorem uiFiltWrite_refused (hok : uiFiltOk (fld v 3 0) (bitOf v 8) = false) :
    uiFiltWrite c v n = setUi c { n.uiC c with cfgRefused := true } n := by
  simp [uiFiltWrite, hok]

/-- At its boundary the filter restarts under the setting that waited, whatever round ends with it (R164, R206). -/
theorem uiFilterRestart_of_due {rate : Nat} {line : Bool} (hp : (n.uiC c).pend = some (rate, line)) (hc : (n.uiC c).conv = true)
    (ht : t = (n.uiC c).lastAt ∨ atBoundary (n.uiC c).grid (n.uiC c).lastAt (uiPeriod (n.uiC c).rate) t = true) :
    (uiFilterRestart c t n).uiC c
      = uiRestart t { (roundsOf c n).uiC c with rate := rate, line := line, pend := none, filtRestart := true } := by
  have hdue : ((n.uiC c).conv && (t == (n.uiC c).lastAt
      || atBoundary (n.uiC c).grid (n.uiC c).lastAt (uiPeriod (n.uiC c).rate) t)) = true := by
    simpa [hc] using ht
  unfold uiFilterRestart
  rw [hp]
  dsimp only
  rw [if_pos hdue, modUi, uiC_setUi_same]

/-- At no other time. -/
theorem uiFilterRestart_of_not_due (ht : t ≠ (n.uiC c).lastAt) (h : (n.uiC c).pend = none ∨ (n.uiC c).conv = false
    ∨ atBoundary (n.uiC c).grid (n.uiC c).lastAt (uiPeriod (n.uiC c).rate) t = false) : uiFilterRestart c t n = n := by
  unfold uiFilterRestart
  split
  · next hp =>
    rw [if_neg]
    rcases h with h | h | h
    · exact absurd (h.symm.trans hp) (by simp)
    · simp [h]
    · simp [h, ht]
  · rfl

end

/-- Settles O26: a conversion's outcome is `uiPublish` after the pre-roll's end, and what follows it leaves the channel and its
record; the registers of a channel are its own. -/
theorem universalInputs : Obligations.UniversalInputs := by
  refine ⟨⟨?_, ?_, ?_⟩, ?_, ?_, ?_, ?_⟩
  case refine_1 =>
    intro c own byp lead t s hu hacq hisl hch hconv hfail hm hrole hb hpast
    have hdue : uiDue (s.node.advance t) c.val t = true := by
      change uiDue s.node c.val t = true
      simp [uiDue, hacq, hisl, hch, hconv, hfail, hrole, hb, hpast]
    have htime : (uiStep c.val (own, byp, lead) t (s.node.advance t)).time.devtime = timeAfter s t :=
      uiStep_get (pt := .devtime) _ _ _ _ (by simp)
    obtain ⟨hlast, hcnt⟩ := uiStep_chan (m := (own, byp, lead)) (n := s.node.advance t) hm hdue
    refine ends_plantAt hu t _ ?_
    dsimp only
    rw [settle_uiC, settle_time, settle_dtr]
    refine ⟨hlast, hcnt, htime, fun hs hf => ?_, fun hs h0 hp hf => ?_, fun b hb hs hp hbc hno => ?_,
      fun hs h0 hf hno hr hmode hcurve hwire => ?_⟩
    · exact delivers_of_slot c.isLt (uiStep_forced (n := s.node.advance t) hm hdue hs hf)
    · exact delivers_of_slot c.isLt (uiStep_settling (n := s.node.advance t) hm hdue hs h0 hp hf)
    · obtain ⟨hsrc, hdtr, hflag⟩ := uiStep_detours (m := (own, byp, lead)) (n := s.node.advance t) hm hdue hb hs hp hbc hno
      exact ⟨hsrc, hdtr, settle_flag _ 22 hflag⟩
    · obtain ⟨hraw, q, hq⟩ := uiStep_linear (m := (own, byp, lead)) (n := s.node.advance t) hm hdue hs h0 hf hno hr hmode hcurve hwire
      exact ⟨hraw, q, delivers_of_slot c.isLt hq⟩
  case refine_2 =>
    intro c own byp lead t s hu hm h
    have hdue : uiDue (s.node.advance t) c.val t = false := by
      change uiDue s.node c.val t = false
      rcases h with h | h | h | h | h | h | h | h <;> simp [uiDue, h]
    refine ends_plantAt hu t _ ?_
    dsimp only
    rw [uiStep_of_not_due (n := s.node.advance t) hm hdue, settle_uiC, settle_jn_store, settle_time]
    exact ⟨rfl, rfl, rfl⟩
  case refine_3 =>
    intro c own byp lead t s hu hm hacq hisl hrole hch hfail hpub hb
    have hdue : uiMisDue (s.node.advance t) c.val t = true := by
      change uiMisDue s.node c.val t = true
      simp [uiMisDue, hacq, hisl, hrole, hch, hfail, hpub, hb]
    have hslot := uiMiswired_slot hdue
    rw [← uiStep_of_miswired (m := (own, byp, lead)) (n := s.node.advance t) hm, advance_uiC] at hslot
    refine ends_plantAt hu t _ ⟨fun hf => ?_, fun hf => ?_⟩
    · rw [hf] at hslot
      exact delivers_of_slot c.isLt hslot
    · rw [hf] at hslot
      exact delivers_of_slot c.isLt hslot
  case refine_4 =>
    intro p c v s h
    have hw := uiWrite_ends p c v (o := 0x10) (by simp) h
    refine ⟨fun hok hrun => hw.imp (fun u ⟨hack, hui⟩ => ⟨hack, (hui c.val).trans ?_⟩),
      fun hok hconv hheld => hw.imp (fun u ⟨hack, hui⟩ => ⟨hack, (hui c.val).trans ?_⟩),
      fun hok => hw.imp (fun u ⟨hack, hui⟩ => ⟨hack, (hui c.val).trans ?_⟩)⟩
    · rw [uiWrite, uiFiltWrite_waits hok hrun, uiC_setUi_same]
    · rw [uiWrite, uiFiltWrite_stored hok hconv hheld, uiC_setUi_same]
    · rw [uiWrite, uiFiltWrite_refused hok, uiC_setUi_same]
  case refine_5 =>
    intro c rate line t s hu hp hc ht
    refine ends_plantAt hu t _ ?_
    dsimp only
    rw [settle_uiC, uiFilterRestart_of_due (n := s.node.advance t) hp hc ht]
    exact ⟨rfl, rfl, rfl, rfl, rfl, rfl⟩
  case refine_6 =>
    intro p c v s h
    refine (uiWrite_ends p c v (o := 0x2C) (by simp) h).imp (fun u ⟨hack, hui⟩ => ⟨hack, ?_, fun d hd => ?_⟩)
    · rw [hui, uiWrite, uiForceCtrl, modUi, uiC_setUi_same]
    · rw [hui, uiWrite, uiForceCtrl, modUi, uiC_setUi, if_neg hd]
  case refine_7 =>
    intro c t s hu ht h
    refine ends_plantAt hu t _ ?_
    dsimp only
    rw [settle_uiC, uiFilterRestart_of_not_due (n := s.node.advance t) ht h, advance_uiC]

end Sys2Proof.Machine
end

section
/-! SUPPORT. Every command keeps the byte memories in their canonical form. -/

namespace Sys2Proof.Machine
open Sys2Proof

/-- The operation keeps every byte memory in its canonical form. -/
def KeepsForm (f : Mems → Node → Mems × Node) : Prop := ∀ (m : Mems) (n : Node), m.wf = true → (f m n).1.wf = true

/-! ### Wrappers -/

section
variable {f : Mems → Node → Mems × Node}

theorem KeepsForm.ends (hf : KeepsForm f) {s : State} (h : s.mem.wf = true) : Ends (onBoth f s) (fun u => u.mem.wf = true) :=
  ⟨_, rfl, hf s.mem s.node h⟩

theorem KeepsForm.upMem (hf : KeepsForm f) (t : Nat) : KeepsForm (upMem t f) := by
  intro m n h
  unfold Machine.upMem
  split
  · exact hf m _ h
  · exact h

theorem KeepsForm.plantMem (hf : KeepsForm f) (t : Nat) : KeepsForm (plantMem t f) := by
  intro m n h
  unfold Machine.plantMem
  split
  · exact hf m _ h
  · exact h

/-- An operation that reads the byte memories and writes none. -/
theorem keepsForm_readOnly (g : Mems → Node → Node) : KeepsForm (fun m k => (m, g m k)) := fun _ _ h => h

end

section
variable (p : HostPort) (c : Acc) (t : Nat)

theorem keepsForm_hostDo : KeepsForm (hostDo p c) := fun _ n h => hostDo_wf p c n h

theorem keepsForm_hostOp : KeepsForm (hostOp p c) := by
  intro m n h
  unfold hostOp
  split
  · exact hostDo_wf p c n h
  · exact h

theorem keepsForm_hostPlant : KeepsForm (hostPlant t p c) := (keepsForm_hostDo p c).plantMem t

end

/-! ### The other ways to the registers -/

theorem readAccess_mem (p : HostPort) (a : Nat) (m : Mems) (n : Node) : (readAccess p a m n).mem = m := by
  unfold readAccess
  split
  · rfl
  · split <;> rfl

theorem writeAccess_wf (p : HostPort) (a : Nat) (v : Word) {m : Mems} (n : Node) (h : m.wf = true) :
    (writeAccess p a v m n).mem.wf = true := accDo_wf p (.wr a v) n h

theorem partnerWrite_wf (p : HostPort) (a : Nat) (v : Word) {m : Mems} (n : Node) (h : m.wf = true) :
    (partnerWrite p a v m n).mem.wf = true := by
  unfold partnerWrite
  split
  · exact h
  · split
    · exact h
    · split
      · exact h
      · unfold writeDo
        split
        · exact h
        · exact regWrite_wf p a v n h

theorem keepsForm_spiStart (tag : Byte) (c : Acc) : KeepsForm (spiStart tag c) := by
  intro m n h
  unfold spiStart
  split
  · exact h
  · dsimp only
    split <;> exact accDo_wf .m1 c n h

theorem keepsForm_spiFrame (op : Nat) (tag : Byte) (a : Nat) (v : Word) : KeepsForm (spiFrame op tag a v) := by
  intro m n h
  unfold spiFrame
  split
  · exact h
  · dsimp only
    split
    · exact h
    · exact keepsForm_spiStart _ _ _ _ h
    · exact keepsForm_spiStart _ _ _ _ h
    · exact h

theorem keepsForm_spiComplete : KeepsForm spiComplete := by
  intro m n h
  unfold spiComplete
  split
  · next tag c _ =>
    split
    · exact h
    · dsimp only
      split <;> exact accDo_wf .m1 c n h
  · exact h

/-! ### Wayfare -/

/-- The byte memories after a request's execution. -/
def WfOut.mem : WfOut → Mems
  | .done _ _ m _ => m
  | .wait _ m _ => m

theorem wfAccess_wf (c : Acc) (s : Session) {m : Mems} (n : Node) (h : m.wf = true) : (wfAccess c s m n).mem.wf = true := by
  unfold wfAccess
  dsimp only
  split
  · exact h
  · split <;> exact accDo_wf (netPort s.net) c n h

theorem burstGo_mem (p : HostPort) (step : Nat) (m : Mems) (k a : Nat) (done : List Word) (n : Node) :
    (burstGo p step m k a done n).mem = m := by
  induction k generalizing a done n with
  | zero => rfl
  | succ k ih =>
    unfold burstGo
    split
    · rfl
    · dsimp only
      split
      · rfl
      · exact ih _ _ _

theorem wfBurst_mem (a count mode : Nat) (s : Session) (m : Mems) (n : Node) : (wfBurst a count mode s m n).mem = m := by
  unfold wfBurst
  generalize (if s.ver = 1 then 128 else 360) = limit
  split
  · rfl
  · exact burstGo_mem _ _ m _ _ _ n

theorem wfPost_mem (ch : Nat) (msg : List Word) (s : Session) (m : Mems) (n : Node) : (wfPost ch msg s m n).mem = m := by
  unfold wfPost
  split <;> rfl

theorem wfFetch_mem (ch : Nat) (s : Session) (m : Mems) (n : Node) : (wfFetch ch s m n).mem = m := by
  unfold wfFetch
  split
  · rfl
  · split <;> rfl

theorem wfSubscribe_mem (period mode : Nat) (addrs : List Nat) (s : Session) (m : Mems) (n : Node) :
    (wfSubscribe period mode addrs s m n).mem = m := by
  unfold wfSubscribe
  dsimp only
  split
  · rfl
  · split <;> rfl

theorem keepsForm_wfRequest {body : Session → Mems → Node → WfOut} (q : WfReq) (op : Nat)
    (hb : ∀ s m n, m.wf = true → (body s m n).mem.wf = true) : KeepsForm (wfRequest q op body) := by
  intro m n h
  unfold wfRequest
  split
  · exact h
  · dsimp only
    split
    · exact h
    · next s _ =>
      split
      · split <;> exact h
      · split
        · exact h
        · split
          · exact h
          · generalize modSession _ _ _ = n2
            have hm := hb s m n2 h
            cases hx : body s m n2 <;> rw [hx] at hm <;> exact hm

/-- A request whose execution leaves the byte memories. -/
theorem keepsForm_wfRequest_of_mem {body : Session → Mems → Node → WfOut} (q : WfReq) (op : Nat)
    (hb : ∀ s m n, (body s m n).mem = m) : KeepsForm (wfRequest q op body) :=
  keepsForm_wfRequest q op (fun s m n h => (hb s m n).symm ▸ h)

theorem keepsForm_wfComplete (sess : Word) : KeepsForm (wfComplete sess) := by
  intro m n h
  unfold wfComplete
  split
  · exact h
  · next s _ =>
    split
    · exact h
    · next seq op w _ =>
      cases w with
      | snap => exact h
      | rd a =>
        dsimp only
        rw [readAccess_mem]
        exact h
      | wr a v =>
        dsimp only
        split
        · exact h
        · split <;> exact writeAccess_wf _ a v n h
      | burst a k step done =>
        dsimp only
        split
        · rw [readAccess_mem]
          exact h
        · generalize (readAccess _ a m n).node = n1
          generalize done ++ [_] = got
          have hm := burstGo_mem (netPort s.net) step m (k - 1) (a + step) got n1
          cases hx : burstGo (netPort s.net) step m (k - 1) (a + step) got n1 <;> rw [hx] at hm <;>
            exact (congrArg Mems.wf hm).trans h

/-! ### Modbus, the CAN service, the link -/

theorem keepsForm_mbRequest {body : Mems → Node → Mems × Node} (q : MbReq) (func : Nat) (hb : KeepsForm body) :
    KeepsForm (fun m n => mbRequest q func m (body m) n) := by
  intro m n h
  dsimp only
  unfold mbRequest
  split
  · exact h
  · split
    · exact h
    · exact hb m _ h

theorem mbWrites_wf (q : MbReq) (func reg arg : Nat) (l : List (Nat × Word)) (bad : Nat) {m : Mems} (n : Node)
    (h : m.wf = true) : (mbWrites q func reg arg l bad m n).1.wf = true := by
  induction l generalizing bad m n with
  | nil => exact h
  | cons x r ih =>
    obtain ⟨a, v⟩ := x
    have hw := writeAccess_wf (netPort q.net) a v n h
    unfold mbWrites
    dsimp only
    split
    · split
      · exact hw
      · exact ih _ _ hw
    · exact ih _ _ hw

theorem keepsForm_mbReadHolding (q : MbReq) (start count : Nat) : KeepsForm (mbReadHolding q start count) :=
  keepsForm_mbRequest q 3 (fun _ _ h => h)

theorem keepsForm_mbReadInput (q : MbReq) (start count : Nat) : KeepsForm (mbReadInput q start count) :=
  keepsForm_mbRequest q 4 (fun _ _ h => h)

theorem keepsForm_mbWriteSingle (q : MbReq) (reg val : Nat) : KeepsForm (mbWriteSingle q reg val) := by
  refine keepsForm_mbRequest q 6 (fun m n h => ?_)
  split
  · exact h
  · split
    · exact h
    · exact mbWrites_wf _ _ _ _ _ _ _ h

theorem keepsForm_mbWriteMultiple (q : MbReq) (start : Nat) (vals : List (BitVec 16)) :
    KeepsForm (mbWriteMultiple q start vals) := by
  refine keepsForm_mbRequest q 16 (fun m n h => ?_)
  split
  · exact h
  · split
    · exact h
    · exact mbWrites_wf _ _ _ _ _ _ _ h

theorem keepsForm_svcStart (tag : Byte) (c : Acc) : KeepsForm (svcStart tag c) := by
  intro m n h
  unfold svcStart
  split
  · exact h
  · dsimp only
    split <;> exact accDo_wf .m5 c n h

theorem keepsForm_svcRequest (f : CanFrame) : KeepsForm (svcRequest f) := by
  intro m n h
  unfold svcRequest
  split
  · exact h
  · dsimp only
    split
    · exact h
    · split
      · exact h
      · exact keepsForm_svcStart _ _ _ _ h
      · exact keepsForm_svcStart _ _ _ _ h
      · exact h

theorem keepsForm_svcComplete : KeepsForm svcComplete := by
  intro m n h
  unfold svcComplete
  split
  · next tag c _ =>
    split
    · exact h
    · dsimp only
      split <;> exact accDo_wf .m5 c n h
  · exact h

theorem keepsForm_accessComplete (r : AccessRef) : KeepsForm (accessComplete r) := by
  cases r with
  | spi => exact keepsForm_spiComplete
  | wf x => exact keepsForm_wfComplete x
  | svc => exact keepsForm_svcComplete

theorem keepsForm_canTake (f : CanFrame) (t : Nat) : KeepsForm (canTake f t) := by
  intro m n h
  unfold canTake
  dsimp only
  split
  · exact keepsForm_svcRequest f m _ h
  · exact h

theorem keepsForm_mbBy (id : Nat) (c : Acc) (f : Node → Nat × Node) : KeepsForm (mbBy id c f) := by
  intro m n h
  unfold mbBy
  split
  · exact hostDo_wf .m1 c n h
  · exact hostDo_wf .m2 c n h
  · exact hostDo_wf .m3 c n h
  · exact hostDo_wf .m5 c n h
  · split <;> exact h

theorem keepsForm_slFwd (f : FwdMsg) : KeepsForm (slFwd f) := by
  intro m n h
  unfold slFwd
  split
  · exact h
  · cases f with
    | write p a v => exact partnerWrite_wf p a.toNat v n h
    | answer st => exact h

theorem keepsForm_slImage (live : Bool) (img : Option Bytes) :
    KeepsForm (fun m k => if live then partnerLive (img.getD []) m k else (m, partnerImage img k)) := by
  intro m n h
  dsimp only
  split
  · exact partnerLive_wf _ n h
  · exact h

/-! ### The scan tick and resets -/

theorem keepsForm_deviceTick (t : Nat) : KeepsForm (deviceTick t) :=
  fun _ _ h => liveReplace_wf _ (commitBegin_wf _ h)

theorem keepsForm_scanTick (x : ScanMeas) : KeepsForm (scanTick x) := by
  intro m n h
  unfold scanTick
  dsimp only
  exact keepsForm_deviceTick _ m _ h

theorem resetBoth_wf (cause : Nat) (roleIn : Bool) {m : Mems} (n : Node) (h : m.wf = true) :
    (resetBoth cause roleIn m n).1.wf = true := resetMems_wf n h

theorem keepsForm_supplyValid (roleIn : Bool) : KeepsForm (supplyValid roleIn) := by
  intro m n h
  unfold supplyValid
  split
  · exact h
  · split
    · exact h
    · exact resetBoth_wf 1 roleIn n h

theorem keepsForm_supplyInvalid : KeepsForm supplyInvalid := by
  intro m n h
  unfold supplyInvalid
  split
  · exact h
  · exact resetMems_wf n h

theorem keepsForm_resetPin (low roleIn : Bool) : KeepsForm (resetPin low roleIn) := by
  intro m n h
  unfold resetPin
  split
  · exact h
  · split
    · exact h
    · split
      · exact resetBoth_wf 2 roleIn n h
      · exact resetBoth_wf n.dev.cause roleIn n h

theorem keepsForm_watchdog (roleIn : Bool) : KeepsForm (watchdog roleIn) := by
  intro m n h
  unfold watchdog
  split
  · exact resetBoth_wf 3 roleIn n h
  · exact h

theorem keepsForm_partnerReset (roleIn : Bool) (t : Nat) : KeepsForm (partnerReset roleIn t) := by
  intro m n h
  unfold partnerReset
  dsimp only
  split
  · exact resetBoth_wf 5 roleIn _ h
  · exact h

theorem keepsForm_softReset (roleIn : Bool) (p : HostPort) (key : BitVec 16) : KeepsForm (softReset roleIn p key) :=
  fun m _ h => keepsForm_hostPlant p _ 0 m _ h

/-! ### Every command -/

/-- Every command keeps the canonical form: those behind `onBoth` by their operation, and the others reach no byte memory. -/
theorem exec_keepsForm (c : Instr) (s : State) (h : s.mem.wf = true) : Ends (exec c s) (fun u => u.mem.wf = true) := by
  cases c with
  -- named accesses by a host port
  | devtimeLoRead | devtimeHiRead | resultQseqRead | stgDataRead | snapDataRead | evtMsgqRead | caBufDataRead | pfRawRead
  | pfCapRead | lnCapDataRead | almLogDataRead | msLoRead | recDataRead | stDataRead | stgAddrWrite | snapAddrWrite
  | evtStatWrite | evtMaskWrite | evtRouteWrite | evtMsgStatWrite | bufRelease | almFindWrite | almLogIdxWrite | recSelWrite
  | stSelWrite => exact (keepsForm_hostOp _ _).ends h
  | calShadowRead | calDateRead | snapTrigger | bufOpen => exact ((keepsForm_hostDo _ _).upMem _).ends h
  | stgDataWrite | checkImg | commitImg | programA | programB | preferA | preferB | abortImg | liveDataWrite | submitLive
  | cancelLive | uiFiltWrite | uiForceCtrlWrite | exCtrlWrite | caRangeRequest | loDemandWrite | doCmdWrite | ilResetWrite
  | svFireWrite | pfCtrlClr | cmpSetpos | cmpSeten | lnModeRequest | applyLane | testStart | testStop | ackPt | ackGroup | ackAll
  | alarmReset | shelvePt | unshelvePt | inhibitPt | releasePt | foReset | outOfService | returnPt | almCallAck | almDutyWrite
  | patrolStart | patrolStop | patrolPress | seqStart | seqStop | seqHold | seqResume | seqGoto | dspRedraw | dspFull | biasOn
  | biasOff | fwDataWrite | setBin | setBcd | setOfs | dstStepFwd | dstStepBack | recAppend | blkCtrlWrite | registerWrite
  | runCmd | haltCmd | safeCmd | swapCmd | partnerReset | fwInstall | fwActivate =>
    exact (keepsForm_hostPlant _ _ _).ends h
  | resultValueRead => exact (KeepsForm.plantMem (fun _ _ h => hostDo_wf _ _ _ h) _).ends h
  -- SPI, Wayfare, waiting accesses
  | spiNop | spiRead => exact ((keepsForm_spiFrame _ _ _ _).upMem _).ends h
  | spiWrite => exact ((keepsForm_spiFrame _ _ _ _).plantMem _).ends h
  | wayfareRead => exact ((keepsForm_wfRequest _ _ (fun s _ n h => wfAccess_wf _ s n h)).upMem _).ends h
  | wayfareWrite => exact ((keepsForm_wfRequest _ _ (fun s _ n h => wfAccess_wf _ s n h)).plantMem _).ends h
  | burstRead => exact ((keepsForm_wfRequest_of_mem _ _ (wfBurst_mem _ _ _)).upMem _).ends h
  | mbxPost => exact ((keepsForm_wfRequest_of_mem _ _ (wfPost_mem _ _)).upMem _).ends h
  | mbxFetch => exact ((keepsForm_wfRequest_of_mem _ _ (wfFetch_mem _)).upMem _).ends h
  | subscribe => exact ((keepsForm_wfRequest_of_mem _ _ (wfSubscribe_mem _ _ _)).upMem _).ends h
  | snapOp => exact ((keepsForm_wfRequest_of_mem _ _ (fun _ _ _ => rfl)).upMem _).ends h
  | hostAccessComplete r => exact ((keepsForm_accessComplete r).plantMem _).ends h
  -- mailboxes, Modbus, CAN
  | mbPost | mbFetch | mbAck => exact ((keepsForm_mbBy _ _ _).plantMem _).ends h
  | readHoldingRegisters => exact ((keepsForm_mbReadHolding _ _ _).upMem _).ends h
  | readInputRegisters => exact ((keepsForm_mbReadInput _ _ _).upMem _).ends h
  | writeSingleRegister => exact ((keepsForm_mbWriteSingle _ _ _).plantMem _).ends h
  | writeMultipleRegisters => exact ((keepsForm_mbWriteMultiple _ _ _).plantMem _).ends h
  | canFrameReceive => exact ((keepsForm_canTake _ _).plantMem _).ends h
  | canServiceRequest => exact ((keepsForm_svcRequest _).plantMem _).ends h
  -- the loader, live replacement, firmware and the link
  | routeMapLoad | checkComplete => exact ((keepsForm_readOnly _).plantMem _).ends h
  | programComplete ok => exact (KeepsForm.plantMem (fun _ n h => programComplete_wf ok n h) _).ends h
  | liveCheckComplete => exact (KeepsForm.plantMem (fun _ n h => liveCheck_wf n h) _).ends h
  | liveReplacement => exact (KeepsForm.plantMem (fun _ n h => liveReplace_wf n h) _).ends h
  | slImage live img => exact ((keepsForm_slImage live img).plantMem _).ends h
  | slFwd f => exact ((keepsForm_slFwd f).plantMem _).ends h
  | slFwimg img => exact (KeepsForm.plantMem (fun _ n h => fwRelay_wf img n h) _).ends h
  -- the scan tick, supply and resets
  | scanTick x => exact ((keepsForm_scanTick x).plantMem _).ends h
  | supplyValid => exact (keepsForm_supplyValid _).ends h
  | supplyInvalid => exact keepsForm_supplyInvalid.ends h
  | resetPin => exact (keepsForm_resetPin _ _).ends h
  | watchdogExpiry => exact (keepsForm_watchdog _).ends h
  | slReset => exact (keepsForm_partnerReset _ _).ends h
  | resetCmd => exact (keepsForm_softReset _ _ _).ends h
  -- commands that reach the module alone
  | _ => exact ⟨_, rfl, h⟩

/-- Settles O4: a step runs the command at the front of the queue, and every command keeps the canonical form. -/
theorem memoriesStayCanonical : Obligations.MemoriesStayCanonical := by
  intro s t h hs
  obtain ⟨hrun, hidle⟩ := stepRunsTheFrontCommand
  cases hq : s.pending with
  | nil =>
    obtain rfl : s = t := Host.Outcome.next.inj ((hidle s hq).symm.trans hs)
    exact h
  | cons c q =>
    have hf : step s = exec c { s with pending := q } := by simp only [step, hq]
    exact (exec_keepsForm c { s with pending := q } h).of_next (hf.symm.trans hs)

end Sys2Proof.Machine
end

section
/-! SUPPORT. What a command that works on the loader leaves of it once the plant has followed: what its operation left. -/

namespace Sys2Proof.Machine
open Sys2Proof

theorem up_iff (n : Node) : n.up = true ↔ n.dev.st ≠ .off ∧ n.dev.pinLow = false := by
  simp [Node.up]

/-- An operation that leaves the device's registers leaves the module up. -/
theorem up_of_parts {n k : Node} (hs : Part.get k .devState = Part.get n .devState) (hr : Part.get k .devRest = Part.get n .devRest)
    (hu : n.up = true) : k.up = true := by
  rw [up_iff, dev_of_parts hs hr, ← up_iff]
  exact hu

/-- The state `u` holds what the operation left in `x`: byte memories and loader, every flag raised, and the device's registers
where the module does not run. -/
structure Settled (x : Mems × Node) (u : State) : Prop where
  mem : u.mem = x.1
  ld : u.node.ld = x.2.ld
  flag : ∀ k, x.2.evt.flag k = true → u.node.evt.flag k = true
  dev : x.2.running = false → u.node.dev = x.2.dev

section
variable {s : State} {t : Nat} {x : Mems × Node}

theorem settled_settle (q : List Instr) : Settled x { pending := q, mem := x.1, node := settle x.2 } :=
  ⟨rfl, settle_ld x.2, settle_flag x.2, settle_dev x.2⟩

/-- A happening that may reach a byte memory. -/
theorem ends_plantMem_settledOp (hu : s.node.up = true) {f : Mems → Node → Mems × Node} (hf : f s.mem (s.node.advance t) = x)
    (hx : x.2.up = true) : Ends (onBoth (plantMem t f) s) (Settled x) :=
  ends_plantMem hu t f hf hx (settled_settle s.pending)

/-- A happening that reads the byte memories. -/
theorem ends_plantMem_readOnly (hu : s.node.up = true) {f : Mems → Node → Node} {n : Node} (hf : f s.mem (s.node.advance t) = n)
    (hn : n.up = true) : Ends (onBoth (plantMem t (fun m k => (m, f m k))) s) (Settled (s.mem, n)) :=
  ends_plantMem_settledOp hu (congrArg (Prod.mk s.mem) hf) hn

/-- A happening that reaches the module alone. -/
theorem ends_plantAt_settledOp (hu : s.node.up = true) {f : Node → Node} {n : Node} (hf : f (s.node.advance t) = n) :
    Ends (onNode (plantAt t f) s) (Settled (s.mem, n)) :=
  ends_plantAt hu t f (hf ▸ settled_settle (x := (s.mem, f (s.node.advance t))) s.pending)

/-- A write of a register of the loader, by a command that the plant follows. -/
theorem ends_hostPlant_settledOp {a : Nat} {e : Bool} {v : Word} {p : HostPort} (ha : regAttr a = some ⟨e, .wr⟩) (h : Takes s a)
    (hr : regWrite p a v s.mem s.node = (0, x)) (hx : x.2.up = true) :
    Ends (onBoth (hostPlant 0 p (.wr a v)) s) (fun u => Acks u p a ∧ Settled x u) := by
  refine ends_hostPlant ha h 0 p v (m' := x.1) (n' := x.2) (by rw [advance_zero, hr]) hx ?_
  generalize hw : wrDone p a e (0, x.1, x.2) = w
  have hans : (w.port p).ans = { status := 0, addr := a, data := 0#32 } := by rw [← hw, wrDone_ans]
  have hld : w.ld = x.2.ld := by rw [← hw, wrDone_ld]
  have hevt : w.evt = x.2.evt := by rw [← hw, wrDone_evt]
  have hdev : w.dev = x.2.dev := by rw [← hw, wrDone_dev]
  refine ⟨?_, rfl, (settle_ld w).trans hld, fun k hk => settle_flag w k (hevt ▸ hk), fun hn => (settle_dev w ?_).trans hdev⟩
  · simp only [Acks, Answered, settle_port, hans]
  · simpa only [Node.running, hdev] using hn

end

/-- The registers of the loader that commands write: STG_ADDR, STG_DATA, RM_CTRL, LIVE_DATA and LIVE_CTRL. -/
theorem regAttr_loader : ∀ a ∈ [0x0840, 0x0844, 0x0804, 0x0854, 0x0858], regAttr a = some ⟨true, .wr⟩ := by
  decide +kernel

/-! ### Errors (R70, R71, R74) -/

section
variable (src : Nat) (e : RmFail) (n : Node)

theorem rmFail_ld : (rmFail src e n).ld = { n.ld with err := { src := src, leg := e.leg, code := e.code }, errOfs := e.ofs } :=
  raise_ld 2 _

theorem rmFail_dev : (rmFail src e n).dev = n.dev := raise_dev 2 _

theorem rmFail_raises : (rmFail src e n).evt.flag 2 = true := raise_flag 2 _ rfl (by omega)

theorem rmFail_up : (rmFail src e n).up = n.up := raise_up 2 _

theorem rmRefuse_ld : (rmRefuse n).ld = (rmCode 0x14 n).ld := raise_ld 2 _

theorem rmRefuse_raises : (rmRefuse n).evt.flag 2 = true := raise_flag 2 _ rfl (by omega)

theorem rmRefuse_up : (rmRefuse n).up = n.up := raise_up 2 _

end

/-- The command changed nothing of memories and loader but RM_ERR, which holds this code. -/
def TurnedAway (code : Nat) (s u : State) : Prop :=
  u.mem = s.mem ∧ u.node.ld.err.code = code
    ∧ u.node.ld = { s.node.ld with err := u.node.ld.err, errOfs := u.node.ld.errOfs }

theorem turnedAway_of_rmCode {code : Nat} {s u : State} (hm : u.mem = s.mem) (hl : u.node.ld = (rmCode code s.node).ld) :
    TurnedAway code s u := by
  refine ⟨hm, ?_, ?_⟩ <;> rw [hl] <;> rfl

theorem Settled.turnedAway {code : Nat} {s u : State} (h : Settled (s.mem, rmCode code s.node) u) : TurnedAway code s u :=
  turnedAway_of_rmCode h.mem h.ld

/-- A command that was not allowed: turned away with code STATE, and event 2 (R74, R78). -/
def CommandRefused (s u : State) : Prop :=
  u.mem = s.mem ∧ u.node.ld.err.code = 0x14
    ∧ u.node.ld = { s.node.ld with err := u.node.ld.err, errOfs := u.node.ld.errOfs } ∧ u.node.evt.flag 2 = true

theorem Settled.commandRefused {s u : State} (h : Settled (s.mem, rmRefuse s.node) u) : CommandRefused s u := by
  obtain ⟨hm, hcode, hl⟩ := turnedAway_of_rmCode h.mem (h.ld.trans (rmRefuse_ld s.node))
  exact ⟨hm, hcode, hl, h.flag 2 (rmRefuse_raises s.node)⟩

/-- The same said of RM_ERR as the staging window's clauses do. -/
theorem TurnedAway.ld_eq {code : Nat} {s u : State} (h : TurnedAway code s u) :
    u.node.ld = { s.node.ld with err := { src := u.node.ld.err.src, leg := u.node.ld.err.leg, code := code },
                                 errOfs := u.node.ld.errOfs } := by
  obtain ⟨_, rfl, hl⟩ := h
  exact hl

end Sys2Proof.Machine
end

section
/-! SUPPORT. The staging window and the commands of RM_CTRL (R73, R74). -/

namespace Sys2Proof.Machine
open Sys2Proof

/-! ### The staging window (R73) -/

theorem stgHeld_iff (n : Node) : stgHeld n = true ↔ n.ld.stgState = 5 ∨ n.ld.stgState = 8 := by
  simp [stgHeld]

theorem stgHeld_of_ne {n : Node} (h5 : n.ld.stgState ≠ 5) (h8 : n.ld.stgState ≠ 8) : stgHeld n = false := by
  simp [stgHeld, h5, h8]

section
variable {v : Word} {m : Mems} {n : Node}

theorem stgAddrWrite_of_held (h : stgHeld n = true) : stgAddrWrite v n = rmCode 0x14 n := if_pos h

theorem stgAddrWrite_of_free (h : stgHeld n = false) :
    stgAddrWrite v n = { n with ld.stgAddr := fld v 23 2 * 4, ld.stgState := 1 } := if_neg (by simp [h])

theorem stgDataWrite_of_held (h : stgHeld n = true) : stgDataWrite v m n = (m, rmCode 0x14 n) := if_pos h

theorem stgDataWrite_of_free (h : stgHeld n = false) :
    stgDataWrite v m n = ({ m with staging := memWrite 0#8 m.staging n.ld.stgAddr (leBytes 4 v.toNat) },
      { n with ld.stgAddr := stgNext n, ld.stgState := 1 }) := if_neg (by simp [h])

end

section
variable (p : HostPort) (v : Word) {s : State}

theorem stgAddrWrite_ends (h : Takes s 0x0840) : Ends (exec (.stgAddrWrite p v) s) (fun u => Acks u p 0x0840
    ∧ u.node.ld = (stgAddrWrite v s.node).ld ∧ u.mem = s.mem) :=
  ends_hostOp (regAttr_loader _ (by simp)) h p v (regWrite_stgAddr p v s.mem s.node)
    ⟨by simp only [Acks, Answered, wrDone_ans], wrDone_ld _ _ _ _, rfl⟩

theorem stgDataWrite_ends (h : Takes s 0x0844) {x : Mems × Node} (hx : stgDataWrite v s.mem s.node = x) (hu : x.2.up = true) :
    Ends (exec (.stgDataWrite p v) s) (fun u => Acks u p 0x0844 ∧ Settled x u) :=
  ends_hostPlant_settledOp (regAttr_loader _ (by simp)) h (hx ▸ regWrite_stgData p v s.mem s.node) hu

theorem stgDataWrite_free_ends (h : Takes s 0x0844) (hf : stgHeld s.node = false) :
    Ends (exec (.stgDataWrite p v) s) (fun t => Acks t p 0x0844 ∧ memWord 0#8 t.mem.staging s.node.ld.stgAddr = v
      ∧ (∀ a, a < s.node.ld.stgAddr ∨ s.node.ld.stgAddr + 4 ≤ a → tget 0#8 t.mem.staging a = tget 0#8 s.mem.staging a)
      ∧ { t.mem with staging := s.mem.staging } = s.mem
      ∧ t.node.ld.stgAddr = (s.node.ld.stgAddr + 4) % 2 ^ 24 ∧ t.node.ld.stgState = 1) := by
  refine (stgDataWrite_ends p v h (stgDataWrite_of_free hf) h.1).imp (fun u ⟨hack, hu⟩ => ?_)
  rw [hu.mem, hu.ld]
  exact ⟨hack, memWord_memWrite _ _ _ v, fun a ha => tget_memWrite_out _ _ _ _ a (by simpa using ha), rfl, rfl, rfl⟩

theorem stgDataWrite_held_ends (h : Takes s 0x0844) (hf : stgHeld s.node = true) :
    Ends (exec (.stgDataWrite p v) s) (TurnedAway 0x14 s) :=
  (stgDataWrite_ends p v h (stgDataWrite_of_held hf) h.1).imp (fun _ ⟨_, hu⟩ => hu.turnedAway)

theorem stgDataRead_ends (h : Serves s 0x0844) :
    Ends (exec (.stgDataRead p) s) (fun t => Answered t p 0 0x0844 (memWord 0#8 s.mem.staging s.node.ld.stgAddr)
      ∧ t.node.ld = { s.node.ld with stgAddr := (s.node.ld.stgAddr + 4) % 2 ^ 24 } ∧ t.mem = s.mem) :=
  ends_hostRead (regAttr_loader _ (by simp)) h p (regRead_stgData p s.mem s.node)
    ⟨by simp [Answered, stgDataRead], modPort_ld _ _ _, rfl⟩

end

/-! ### RM_CTRL (R74) -/

/-- What an allowed command of RM_CTRL does. -/
def rmEffect (cmd : Nat) (m : Mems) (n : Node) : Mems × Node :=
  match cmd with
  | 1 => (m, { n with ld.stgState := 2 })
  | 2 => (m, { n with ld.stgState := 8 })
  | 3 => (m, { n with ld.stgState := 5, ld.progB := false })
  | 4 => (m, { n with ld.stgState := 5, ld.progB := true })
  | 5 => (m, { n with ld.prefB := false })
  | 6 => (m, { n with ld.prefB := true })
  | _ => ({ m with staging := [] }, { n with ld.stgState := 0 })

section
variable {key cmd : Nat} {m : Mems} {n : Node}

theorem rmCtrl_of_otherKey (h : key ≠ 0x10AD) : rmCtrl key cmd m n = (m, rmCode 0x15 n) := if_pos h

theorem rmCtrl_of_not_allowed (h : rmAllows n cmd = false) : rmCtrl 0x10AD cmd m n = (m, rmRefuse n) := by
  simp [rmCtrl, h]

theorem rmCtrl_of_allowed (h : rmAllows n cmd = true) : rmCtrl 0x10AD cmd m n = rmEffect cmd m n :=
  (if_neg (not_not.mpr rfl)).trans (if_neg (by simp [h]))

theorem rmEffect_dev : (rmEffect cmd m n).2.dev = n.dev := by
  unfold rmEffect
  split <;> rfl

end

/-! Which commands are allowed, by STG_STATE and the device's state. -/

section
variable {n : Node}

theorem stgChecked_iff : stgChecked n = true ↔ n.ld.stgState ∈ [3, 6, 7] := by
  simp [stgChecked, or_assoc]

theorem rmAllows_check_iff : rmAllows n 1 = true ↔ n.ld.stgState ∈ [1, 3, 4, 6, 7] := by
  simp [rmAllows, or_assoc]

/-- COMMIT needs a state in which the module may restart. -/
theorem rmAllows_commit_iff : rmAllows n 2 = true
    ↔ n.ld.stgState ∈ [3, 6, 7] ∧ n.dev.st ∈ [DevSt.boot, .ready, .run, .degraded, .safe] := by
  rw [← stgChecked_iff]
  cases h : n.dev.st <;> simp [rmAllows, Node.acq, Node.running, h]

theorem rmAllows_programA : rmAllows n 3 = stgChecked n := rfl

theorem rmAllows_programB : rmAllows n 4 = stgChecked n := rfl

/-- PREFER and ABORT wait for nothing but the end of PROGRAM. -/
theorem rmAllows_of_not_programming {cmd : Nat} (hc : cmd ∈ [5, 6, 7]) (h : n.ld.stgState ≠ 5) : rmAllows n cmd = true := by
  simp only [List.mem_cons, List.not_mem_nil, or_false] at hc
  rcases hc with rfl | rfl | rfl <;> simp [rmAllows, h]

theorem rmAllows_of_programming (cmd : Nat) (h : n.ld.stgState = 5) : rmAllows n cmd = false := by
  unfold rmAllows
  split <;> simp [stgChecked, h]

theorem rmAllows_of_not_checked {cmd : Nat} (hc : cmd ∈ [2, 3, 4]) (h : stgChecked n = false) : rmAllows n cmd = false := by
  simp only [List.mem_cons, List.not_mem_nil, or_false] at hc
  rcases hc with rfl | rfl | rfl <;> simp [rmAllows, h]

end

section
variable (p : HostPort) {s : State} {cmd : Nat}

theorem rmCtrl_ends (key : BitVec 16) (hc : cmd < 16) (h : Takes s 0x0804) {x : Mems × Node}
    (hx : rmCtrl key.toNat cmd s.mem s.node = x) (hu : x.2.up = true) :
    Ends (onBoth (hostPlant 0 p (.wr 0x0804 (keyed key cmd))) s) (fun u => Acks u p 0x0804 ∧ Settled x u) := by
  have hr := regWrite_rmCtrl p (keyed key cmd) s.mem s.node
  rw [fld_keyed_key key cmd (by omega), fld_keyed_cmd key cmd hc, hx] at hr
  exact ends_hostPlant_settledOp (regAttr_loader _ (by simp)) h hr hu

theorem rmCtrl_allowed_ends (hc : cmd < 16) (h : Takes s 0x0804) (hal : rmAllows s.node cmd = true) :
    Ends (onBoth (hostPlant 0 p (.wr 0x0804 (keyed 0x10AD#16 cmd))) s) (fun u => Acks u p 0x0804
      ∧ u.node.ld = (rmEffect cmd s.mem s.node).2.ld ∧ u.mem = (rmEffect cmd s.mem s.node).1) := by
  have hu : (rmEffect cmd s.mem s.node).2.up = true := by
    rw [up_iff, rmEffect_dev, ← up_iff]
    exact h.1
  exact (rmCtrl_ends p 0x10AD#16 hc h (rmCtrl_of_allowed hal) hu).imp (fun _ ⟨hack, hx⟩ => ⟨hack, hx.ld, hx.mem⟩)

theorem rmCtrl_otherKey_ends (key : BitVec 16) (hc : cmd < 16) (h : Takes s 0x0804) (hk : key ≠ 0x10AD#16) :
    Ends (onBoth (hostPlant 0 p (.wr 0x0804 (keyed key cmd))) s) (TurnedAway 0x15 s) := by
  have hk' : key.toNat ≠ 0x10AD := fun he => hk (BitVec.eq_of_toNat_eq he)
  exact (rmCtrl_ends p key hc h (rmCtrl_of_otherKey hk') h.1).imp (fun _ ⟨_, hx⟩ => hx.turnedAway)

theorem rmCtrl_refused_ends (hc : cmd < 16) (h : Takes s 0x0804) (hal : rmAllows s.node cmd = false) :
    Ends (onBoth (hostPlant 0 p (.wr 0x0804 (keyed 0x10AD#16 cmd))) s) (CommandRefused s) :=
  (rmCtrl_ends p 0x10AD#16 hc h (rmCtrl_of_not_allowed hal) ((rmRefuse_up s.node).trans h.1)).imp
    (fun _ ⟨_, hx⟩ => hx.commandRefused)

/-- With another key, and while PROGRAM runs, every command is turned away. -/
theorem rmCtrl_away_ends (key : BitVec 16) (hc : cmd < 16) (h : Takes s 0x0804) :
    (key ≠ 0x10AD#16 → Ends (onBoth (hostPlant 0 p (.wr 0x0804 (keyed key cmd))) s) (TurnedAway 0x15 s))
    ∧ (key = 0x10AD#16 → s.node.ld.stgState = 5 →
      Ends (onBoth (hostPlant 0 p (.wr 0x0804 (keyed key cmd))) s) (CommandRefused s)) := by
  refine ⟨rmCtrl_otherKey_ends p key hc h, ?_⟩
  rintro rfl h5
  exact rmCtrl_refused_ends p hc h (rmAllows_of_programming cmd h5)

end

/-- Settles O15: the staging window is one write or read of the area at STG_ADDR; a command of RM_CTRL is carried out where the key
is right and `rmAllows` says so, and turned away otherwise. -/
theorem stagingAndLoaderCommands : Obligations.StagingAndLoaderCommands := by
  refine ⟨⟨?_, ?_, stgDataRead_ends, ?_, ?_⟩, fun p s h => ⟨?_, ?_, ?_, ?_, ?_, ?_, ?_⟩, ?_, fun p s h => ⟨?_, ?_, ?_⟩⟩
  -- the staging window
  · intro p v s h h5 h8
    refine (stgAddrWrite_ends p v h).imp (fun u ⟨hack, hl, hm⟩ => ?_)
    rw [hl, stgAddrWrite_of_free (stgHeld_of_ne h5 h8)]
    exact ⟨hack, rfl, rfl, hm⟩
  · exact fun p v s h h5 h8 => stgDataWrite_free_ends p v h (stgHeld_of_ne h5 h8)
  · exact fun p v s h hs => (stgDataWrite_held_ends p v h ((stgHeld_iff _).mpr hs)).imp (fun _ ht => ⟨ht.1, ht.ld_eq⟩)
  · intro p v s h hs
    refine (stgAddrWrite_ends p v h).imp (fun u ⟨_, hl, hm⟩ => ⟨hm, TurnedAway.ld_eq (turnedAway_of_rmCode hm ?_)⟩)
    rw [hl, stgAddrWrite_of_held ((stgHeld_iff _).mpr hs)]
  -- commands allowed
  · exact fun hs => rmCtrl_allowed_ends p (by omega) h (rmAllows_check_iff.mpr hs)
  · exact fun hs hd => rmCtrl_allowed_ends p (by omega) h (rmAllows_commit_iff.mpr ⟨hs, hd⟩)
  · exact fun hs => rmCtrl_allowed_ends p (by omega) h (rmAllows_programA.trans (stgChecked_iff.mpr hs))
  · exact fun hs => rmCtrl_allowed_ends p (by omega) h (rmAllows_programB.trans (stgChecked_iff.mpr hs))
  · exact fun hs => rmCtrl_allowed_ends p (by omega) h (rmAllows_of_not_programming (by simp) hs)
  · exact fun hs => rmCtrl_allowed_ends p (by omega) h (rmAllows_of_not_programming (by simp) hs)
  · exact fun hs => rmCtrl_allowed_ends p (by omega) h (rmAllows_of_not_programming (by simp) hs)
  -- commands turned away
  · intro p key s h
    have away (cmd : Nat) (hc : cmd < 16) := rmCtrl_away_ends p key hc h
    exact List.forall_iff_forall_mem.mp (show _ ∧ _ ∧ _ ∧ _ ∧ _ ∧ _ ∧ _ from ⟨away 1 (by omega), away 2 (by omega),
      away 3 (by omega), away 4 (by omega), away 5 (by omega), away 6 (by omega), away 7 (by omega)⟩)
  · intro hs
    refine rmCtrl_refused_ends p (by omega) h (Bool.eq_false_iff.mpr (mt rmAllows_check_iff.mp ?_))
    simp only [List.mem_cons, List.not_mem_nil, or_false] at hs ⊢
    omega
  · intro hs
    have hchk : stgChecked s.node = false := by
      refine Bool.eq_false_iff.mpr (mt stgChecked_iff.mp ?_)
      simp only [List.mem_cons, List.not_mem_nil, or_false] at hs ⊢
      omega
    have refused (cmd : Nat) (hc : cmd < 16) (hm : cmd ∈ [2, 3, 4]) :=
      rmCtrl_refused_ends p hc h (rmAllows_of_not_checked hm hchk)
    exact List.forall_iff_forall_mem.mp (show _ ∧ _ ∧ _ from
      ⟨refused 2 (by omega) (by simp), refused 3 (by omega) (by simp), refused 4 (by omega) (by simp)⟩)
  · intro hs
    refine rmCtrl_refused_ends p (by omega) h (Bool.eq_false_iff.mpr (mt rmAllows_commit_iff.mp (fun ⟨_, hd⟩ => ?_)))
    simp only [List.mem_cons, List.not_mem_nil, or_false] at hs hd
    rcases hs with hs | hs | hs <;> simp [hs] at hd

end Sys2Proof.Machine
end

section
/-! SUPPORT. Live replacement: the live area, its submission and check, and its effect (R77 to R81). -/

namespace Sys2Proof.Machine
open Sys2Proof

/-! ### LIVE_DATA and LIVE_CTRL -/

theorem liveHeld_iff (n : Node) : liveHeld n = true ↔ n.ld.liveStat = 2 ∨ n.ld.liveStat = 3 := by
  simp [liveHeld]

theorem liveHeld_of_ne {n : Node} (h2 : n.ld.liveStat ≠ 2) (h3 : n.ld.liveStat ≠ 3) : liveHeld n = false := by
  simp [liveHeld, h2, h3]

section
variable {v : Word} {m : Mems} {n : Node}

theorem liveDataWrite_of_held (h : liveHeld n = true) : liveDataWrite v m n = (m, rmCode 0x14 n) := if_pos h

theorem liveDataWrite_of_free (h : liveHeld n = false) : liveDataWrite v m n
    = ({ m with live := memWrite 0#8 m.live n.ld.liveAddr (leBytes 4 v.toNat), liveEnd := max m.liveEnd (n.ld.liveAddr + 4) },
       { n with ld.liveAddr := (n.ld.liveAddr + 4) % 524288, ld.liveStat := 1, ld.liveLegs := 0 }) := if_neg (by simp [h])

theorem liveCtrl_submit : liveCtrl 1#32 m n = liveSubmit m n := rfl

theorem liveCtrl_cancel : liveCtrl 2#32 m n = liveCancel m n := rfl

theorem liveSubmit_of_not_allowed (h : n.acq = false ∨ n.ld.liveStat = 2 ∨ n.ld.liveStat = 3) :
    liveSubmit m n = (m, rmRefuse n) := by
  refine if_pos ?_
  rw [Bool.or_eq_true, Bool.not_eq_true', liveHeld_iff]
  exact h

section
variable (ha : n.acq = true) (hf : liveHeld n = false)
include ha hf

theorem liveSubmit_of_empty (he : m.liveEnd = 0) :
    liveSubmit m n = liveRefuse ⟨0x0A, 0, 0⟩ m { n with ld.liveLegs := 0 } := by
  simp [liveSubmit, ha, hf, he]

theorem liveSubmit_of_allowed (he : m.liveEnd ≠ 0) : liveSubmit m n
    = (m, { n with ld.liveStat := 2, ld.liveLegs := liveSeen (memBytes 0#8 m.live 0 m.liveEnd) 6 0 0 }) := by
  simp [liveSubmit, ha, hf, he]

end

theorem liveCancel_of_pending (h : n.ld.liveStat = 3) : liveCancel m n = (m, rmRefuse n) := if_pos h

theorem liveCancel_of_not_pending (h : n.ld.liveStat ≠ 3) :
    liveCancel m n = (liveEmpty m, { n with ld.liveStat := 0, ld.liveLegs := 0 }) := if_neg h

/-- A submission refused: the area is emptied, and the cause stands in RM_ERR with SRC 5 (R78). -/
theorem liveRefuse_ld (e : RmFail) : (liveRefuse e m n).2.ld
    = { n.ld with liveStat := 5, livePend := [], err := { src := 5, leg := e.leg, code := e.code }, errOfs := e.ofs } :=
  rmFail_ld 5 e _

theorem liveRefuse_raises (e : RmFail) : (liveRefuse e m n).2.evt.flag 2 = true := rmFail_raises 5 e _

theorem liveRefuse_up (e : RmFail) : (liveRefuse e m n).2.up = n.up := rmFail_up 5 e _

/-! ### The check and the effect -/

section
variable {g : Image} (hg : n.ld.img = some g)
include hg

theorem liveCheck_of_ok (h2 : n.ld.liveStat = 2) {ls : List Leg}
    (hc : checkLive g ((liveGens n).map BitVec.toNat) (memBytes 0#8 m.live 0 m.liveEnd) = .ok ls) :
    liveCheck m n = (m, { n with ld.liveStat := 3, ld.livePend := ls }) := by
  simp [liveCheck, hg, h2, hc]

theorem liveCheck_of_error (h2 : n.ld.liveStat = 2) {e : RmFail}
    (hc : checkLive g ((liveGens n).map BitVec.toNat) (memBytes 0#8 m.live 0 m.liveEnd) = .error e) :
    liveCheck m n = liveRefuse e m n := by
  simp [liveCheck, hg, h2, hc]

theorem liveReplace_of_pending (h3 : n.ld.liveStat = 3) (hd : commitDue n = false) :
    liveReplace m n = (liveEmpty m, liveApply g n) := by
  simp [liveReplace, hg, h3, hd]

end

/-- A COMMIT that begins takes the place of the replacement (R76). -/
theorem liveReplace_of_commitDue (hd : commitDue n = true) : liveReplace m n = (m, n) := by
  unfold liveReplace
  split
  · simp [hd]
  · rfl

/-- The legs that waited stand in the running image; what they carry over lies outside the loader. -/
theorem liveApply_ld (g : Image) (n : Node) : (liveApply g n).ld
    = { n.ld with img := some (withLive g n.ld.livePend), livePend := [], liveStat := 4, liveTick := n.scan, diverged := true } := by
  change Part.get (liveApply g n) .ld = _
  unfold liveApply
  dsimp only
  simp only [raise_get, get_ite, dspReplace_get, seqReplace_get, almReplace_get, groupReplace_get, lnReplace_get, ite_self,
    List.mem_cons, List.not_mem_nil, reduceCtorEq, or_self, not_false_eq_true]
  rfl

theorem liveApply_raises (g : Image) (n : Node) : (liveApply g n).evt.flag 1 = true := raise_flag 1 _ rfl (by omega)

theorem liveApply_up (g : Image) {n : Node} (h : n.up = true) : (liveApply g n).up = true :=
  up_of_parts (liveApply_get (pt := .devState) g n (by simp)) (liveApply_get (pt := .devRest) g n (by simp)) h

end

/-! ### The commands -/

section
variable (p : HostPort) {s : State} {x : Mems × Node}

theorem liveDataWrite_ends (v : Word) (h : Takes s 0x0854) (hx : liveDataWrite v s.mem s.node = x) (hu : x.2.up = true) :
    Ends (exec (.liveDataWrite p v) s) (fun u => Acks u p 0x0854 ∧ Settled x u) :=
  ends_hostPlant_settledOp (regAttr_loader _ (by simp)) h (hx ▸ regWrite_liveData p v s.mem s.node) hu

theorem submitLive_ends (h : Takes s 0x0858) (hx : liveSubmit s.mem s.node = x) (hu : x.2.up = true) :
    Ends (exec (.submitLive p) s) (fun u => Acks u p 0x0858 ∧ Settled x u) :=
  ends_hostPlant_settledOp (regAttr_loader _ (by simp)) h
    ((regWrite_liveCtrl p 1#32 s.mem s.node).trans (by rw [liveCtrl_submit, hx])) hu

theorem cancelLive_ends (h : Takes s 0x0858) (hx : liveCancel s.mem s.node = x) (hu : x.2.up = true) :
    Ends (exec (.cancelLive p) s) (fun u => Acks u p 0x0858 ∧ Settled x u) :=
  ends_hostPlant_settledOp (regAttr_loader _ (by simp)) h
    ((regWrite_liveCtrl p 2#32 s.mem s.node).trans (by rw [liveCtrl_cancel, hx])) hu

end

/-- Settles O17: each command is one branch of its operation, and the plant that follows leaves loader and byte memories. -/
theorem liveReplacement : Obligations.LiveReplacement := by
  refine ⟨?write, fun p s h ha h2 h3 => ⟨?submit, ?empty⟩, ?cancel, ?checked, ?applied, ?submitRefused, ?cancelRefused,
    ?writeRefused, ?checkFailed, ?commit⟩
  case write =>
    intro p v s h h2 h3
    refine (liveDataWrite_ends p v h (liveDataWrite_of_free (liveHeld_of_ne h2 h3)) h.1).imp (fun u ⟨hack, hu⟩ => ?_)
    rw [hu.mem, hu.ld]
    exact ⟨hack, memWord_memWrite _ _ _ v, fun a ha => tget_memWrite_out _ _ _ _ a (by simpa using ha), rfl, rfl⟩
  case submit =>
    intro he
    refine (submitLive_ends p h (liveSubmit_of_allowed ha (liveHeld_of_ne h2 h3) he) h.1).imp (fun u ⟨hack, hu⟩ => ?_)
    rw [hu.ld]
    exact ⟨hack, rfl, hu.mem⟩
  case empty =>
    intro he
    refine (submitLive_ends p h (liveSubmit_of_empty ha (liveHeld_of_ne h2 h3) he)
      ((liveRefuse_up _).trans h.1)).imp (fun u ⟨_, hu⟩ => ?_)
    rw [hu.ld, hu.mem, liveRefuse_ld]
    exact ⟨rfl, rfl, rfl, hu.flag 2 (liveRefuse_raises _), rfl⟩
  case cancel =>
    intro p s h h3
    refine (cancelLive_ends p h (liveCancel_of_not_pending h3) h.1).imp (fun u ⟨hack, hu⟩ => ?_)
    rw [hu.ld]
    exact ⟨hack, hu.mem, rfl⟩
  case checked =>
    intro s g ls hu hg h2 hc
    exact (ends_plantMem_settledOp (t := 0) hu (liveCheck_of_ok (n := s.node.advance 0) hg h2 hc) hu).imp
      (fun u hx => ⟨hx.ld, hx.mem⟩)
  case applied =>
    intro t s g hu hg h3 hd
    refine (ends_plantMem_settledOp (t := t) hu (liveReplace_of_pending (n := s.node.advance t) hg h3 hd)
      (liveApply_up g hu)).imp (fun u hx => ?_)
    rw [hx.ld, liveApply_ld]
    exact ⟨rfl, rfl, rfl, rfl, rfl, hx.flag 1 (liveApply_raises g _), hx.mem⟩
  case submitRefused =>
    exact fun p s h hn => (submitLive_ends p h (liveSubmit_of_not_allowed hn) ((rmRefuse_up s.node).trans h.1)).imp
      (fun _ ⟨_, hx⟩ => let ⟨hm, hcode, hl, hflag⟩ := hx.commandRefused; ⟨hcode, hflag, hm, hl⟩)
  case cancelRefused =>
    exact fun p s h h3 => (cancelLive_ends p h (liveCancel_of_pending h3) ((rmRefuse_up s.node).trans h.1)).imp
      (fun _ ⟨_, hx⟩ => let ⟨hm, hcode, hl, hflag⟩ := hx.commandRefused; ⟨hcode, hflag, hm, hl⟩)
  case writeRefused =>
    exact fun p v s h hh => (liveDataWrite_ends p v h (liveDataWrite_of_held ((liveHeld_iff _).mpr hh)) h.1).imp
      (fun _ ⟨_, hx⟩ => let ⟨hm, hcode, hl⟩ := hx.turnedAway; ⟨hcode, hm, hl⟩)
  case checkFailed =>
    intro s g e hu hg h2 hc
    refine (ends_plantMem_settledOp (t := 0) hu (liveCheck_of_error (n := s.node.advance 0) hg h2 hc)
      ((liveRefuse_up e).trans hu)).imp (fun u hx => ?_)
    rw [hx.ld, liveRefuse_ld]
    exact ⟨rfl, hg, rfl, rfl, hx.flag 2 (liveRefuse_raises e), hx.mem⟩
  case commit =>
    exact fun t s hu hd => (ends_plantMem_settledOp (t := t) hu (liveReplace_of_commitDue (n := s.node.advance t) hd) hu).imp
      (fun u hx => ⟨hx.ld, hx.mem⟩)

end Sys2Proof.Machine
end

section
/-! SUPPORT. The ends of CHECK and PROGRAM (R70, R74, R75). -/

namespace Sys2Proof.Machine
open Sys2Proof

/-! ### Bytes read and written -/

theorem length_memBytes (d : Byte) (m : Memory) (ofs len : Nat) : (memBytes d m ofs len).length = len := by
  simp [memBytes]

theorem getD_memBytes (d d' : Byte) (m : Memory) (ofs len i : Nat) (h : i < len) :
    (memBytes d m ofs len).getD i d' = tget d m (ofs + i) := by
  simp [memBytes, h]

/-- A memory that was empty holds the image written into it. -/
theorem tget_memWrite_areaBytes (d d' : Byte) (m : Memory) (i : Nat) (h : i < (areaBytes d m).length) :
    tget d' (memWrite d' [] 0 (areaBytes d m)) i = tget d m i := by
  rw [tget_memWrite, if_pos ⟨Nat.zero_le i, by omega⟩, Nat.sub_zero, areaBytes, getD_memBytes, Nat.zero_add]
  rwa [areaBytes, length_memBytes] at h

section
variable (m : Mems) (b : Bool) (x : Memory)

theorem bankMem_setBankMem_same : bankMem (setBankMem m b x) b = x := by cases b <;> rfl

theorem bankMem_setBankMem_other : bankMem (setBankMem m b x) (!b) = bankMem m (!b) := by cases b <;> rfl

theorem setBankMem_staging : (setBankMem m b x).staging = m.staging := by cases b <;> rfl

end

/-! ### The banks' information (R81) -/

section
variable (b : Bool) (x : BankInfo) (n : Node)

theorem setBankInfo_same : (if b then (setBankInfo b x n).ld.bankB else (setBankInfo b x n).ld.bankA) = x := by cases b <;> rfl

theorem setBankInfo_ld_rest : (setBankInfo b x n).ld
    = { n.ld with bankA := (setBankInfo b x n).ld.bankA, bankB := (setBankInfo b x n).ld.bankB } := by cases b <;> rfl

theorem setBankInfo_up : (setBankInfo b x n).up = n.up := by cases b <;> rfl

end

/-! ### CHECK_COMPLETE -/

section
variable {m : Mems} {n : Node} (h2 : n.ld.stgState = 2)
include h2

theorem checkComplete_of_ok {g : Image} (hc : checkImage n.ld.lock (areaBytes 0#8 m.staging) = .ok g) :
    checkComplete m n = { n with ld.stgState := 3 } := by
  simp [checkComplete, h2, hc]

theorem checkComplete_of_error {e : RmFail} (hc : checkImage n.ld.lock (areaBytes 0#8 m.staging) = .error e) :
    checkComplete m n = rmFail 3 e { n with ld.stgState := 4 } := by
  simp [checkComplete, h2, hc]

end

/-! ### PROGRAM_COMPLETE -/

section
variable {m : Mems} {n : Node} (h5 : n.ld.stgState = 5)
include h5

theorem programComplete_done : programComplete true m n
    = (setBankMem m n.ld.progB (memWrite 0xFF#8 [] 0 (areaBytes 0#8 m.staging)),
       setBankInfo n.ld.progB { state := 1, code := 0, rev := u32 (areaBytes 0#8 m.staging) 0x14 % 65536 }
         { n with ld.stgState := 6 }) := by
  simp [programComplete, h5]

theorem programComplete_failed : programComplete false m n
    = (setBankMem m n.ld.progB (flashUnknown m n),
       rmFail (if n.ld.progB then 2 else 1) ⟨0x10, 0, 0⟩
         (setBankInfo n.ld.progB { state := 3, code := 0x10, rev := 0 } { n with ld.stgState := 7, free := n.free + 1 })) := by
  simp [programComplete, h5]

end

section
variable (t : Nat) (s : State) (hu : s.node.up = true) (h5 : s.node.ld.stgState = 5)
include hu h5

theorem programComplete_done_ends : Ends (exec (.programComplete true t) s) (fun u => u.node.ld.stgState = 6
    ∧ (∀ i < (areaBytes 0#8 s.mem.staging).length, tget 0xFF#8 (bankMem u.mem s.node.ld.progB) i = tget 0#8 s.mem.staging i)
    ∧ bankMem u.mem (!s.node.ld.progB) = bankMem s.mem (!s.node.ld.progB) ∧ u.mem.staging = s.mem.staging
    ∧ (if s.node.ld.progB then u.node.ld.bankB else u.node.ld.bankA).state = 1 ∧ u.node.ld.img = s.node.ld.img) := by
  refine (ends_plantMem_settledOp (t := t) hu (programComplete_done (n := s.node.advance t) h5)
    ((setBankInfo_up _ _ _).trans hu)).imp (fun u hx => ?_)
  rw [hx.mem, hx.ld]
  refine ⟨?_, fun i hi => ?_, bankMem_setBankMem_other _ _ _, setBankMem_staging _ _ _, ?_, ?_⟩
  · rw [setBankInfo_ld_rest]
  · dsimp only
    rw [advance_ld, bankMem_setBankMem_same]
    exact tget_memWrite_areaBytes _ _ _ i hi
  · exact congrArg BankInfo.state (setBankInfo_same s.node.ld.progB _ _)
  · rw [setBankInfo_ld_rest]
    rfl

theorem programComplete_failed_ends : Ends (exec (.programComplete false t) s) (fun u => u.node.ld.stgState = 7
    ∧ (if s.node.ld.progB then u.node.ld.bankB else u.node.ld.bankA) = { state := 3, code := 0x10, rev := 0 }
    ∧ bankMem u.mem (!s.node.ld.progB) = bankMem s.mem (!s.node.ld.progB) ∧ u.node.ld.img = s.node.ld.img
    ∧ u.node.evt.flag 2 = true) := by
  refine (ends_plantMem_settledOp (t := t) hu (programComplete_failed (n := s.node.advance t) h5)
    ((rmFail_up _ _ _).trans ((setBankInfo_up _ _ _).trans hu))).imp (fun u hx => ?_)
  rw [hx.mem, hx.ld, rmFail_ld]
  refine ⟨?_, setBankInfo_same s.node.ld.progB _ _, bankMem_setBankMem_other _ _ _, ?_, hx.flag 2 (rmFail_raises _ _ _)⟩
  · dsimp only
    rw [setBankInfo_ld_rest]
  · dsimp only
    rw [setBankInfo_ld_rest]
    rfl

end

end Sys2Proof.Machine
end

section
/-! SUPPORT. The phases of a load: LOAD, VERIFY, and the application of an image (R68 to R72, R76, R80, R83). -/

namespace Sys2Proof.Machine
open Sys2Proof

/-! ### Entering a state of the load -/

/-- The module has come to the state `x`, its RESET_N as it was. -/
def Comes (x : DevSt) (n k : Node) : Prop := k.dev.st = x ∧ k.dev.pinLow = n.dev.pinLow

section
variable {x y : DevSt} {n k l : Node}

theorem comes_of_dev (h : k.dev = n.dev) : Comes n.dev.st n k := ⟨congrArg Device.st h, congrArg Device.pinLow h⟩

theorem Comes.trans (h : Comes x n k) (g : Comes y k l) : Comes y n l := ⟨g.1, g.2.trans h.2⟩

theorem Comes.up (h : Comes x n k) (hx : x ≠ .off) (hu : n.up = true) : k.up = true := by
  rw [up_iff] at hu ⊢
  exact ⟨h.1 ▸ hx, h.2.trans hu.2⟩

end

theorem enter_comes (x : DevSt) (n : Node) : Comes x n (enter x n) := by
  by_cases h : n.dev.st = x
  · rw [enter, if_pos h]
    exact ⟨h, rfl⟩
  · rw [Comes, enter_dev h]
    exact ⟨rfl, rfl⟩

theorem enter_ld (x : DevSt) (n : Node) : (enter x n).ld = n.ld := enter_get (pt := .ld) x n (by simp)

/-- The states of a load do not drive the plant. -/
theorem not_running_of_load {n : Node} (h : n.dev.st ∈ [DevSt.boot, .verify, .calibrate]) : n.running = false := by
  simp only [List.mem_cons, List.not_mem_nil, or_false] at h
  rcases h with h | h | h <;> simp [Node.running, h]

theorem ne_off_of_load {x : DevSt} (h : x ∈ [DevSt.boot, .verify, .calibrate]) : x ≠ .off := by
  rintro rfl
  simp at h

/-- What a phase of the load leaves at the end of its command. -/
def PhaseEnds (x : DevSt) (k : Node) (s u : State) : Prop :=
  u.node.dev.st = x ∧ u.node.ld = k.ld ∧ (∀ j, k.evt.flag j = true → u.node.evt.flag j = true) ∧ u.mem = s.mem

theorem Settled.phaseEnds {x : DevSt} {s u : State} {k : Node} (h : Settled (s.mem, k) u) (hx : k.dev.st = x)
    (hl : x ∈ [DevSt.boot, .verify, .calibrate]) : PhaseEnds x k s u :=
  ⟨(congrArg Device.st (h.dev (not_running_of_load (hx ▸ hl)))).trans hx, h.ld, h.flag, h.mem⟩

/-! ### LOAD (R68, R83) -/

/-- The LOAD phase has begun. -/
def loading (n : Node) : Node := enter .load { n with ld.phase := 2 }

theorem loading_ld (n : Node) : (loading n).ld = { n.ld with phase := 2 } := enter_ld .load _

theorem loading_comes (n : Node) : Comes .load n (loading n) := enter_comes .load { n with ld.phase := 2 }

section
variable {m : Mems} {n : Node} (f : Bool)

theorem routeMapLoad_bankA (hst : n.dev.st = .boot) (hs : n.ld.sel = .bankA) :
    routeMapLoad f m n = loadEnds (loadBank m.flashA f) (loading n) := by
  simp [routeMapLoad, loading, hst, hs]

theorem routeMapLoad_bankB (hst : n.dev.st = .boot) (hs : n.ld.sel = .bankB) :
    routeMapLoad f m n = loadEnds (loadBank m.flashB f) (loading n) := by
  simp [routeMapLoad, loading, hst, hs]

theorem routeMapLoad_staging (hst : n.dev.st = .load) (hs : n.ld.sel = .staging) :
    routeMapLoad f m n = loadEnds (loadImage (areaBytes 0#8 m.staging)) (loading n) := by
  simp [routeMapLoad, loading, hst, hs]

end

theorem loadEnds_ok_ld (g : Image) (n : Node) : (loadEnds (.ok g) n).ld = { n.ld with cand := some g, phase := 3 } :=
  enter_ld .verify _

theorem loadEnds_ok_comes (g : Image) (n : Node) : Comes .verify n (loadEnds (.ok g) n) :=
  enter_comes .verify { n with ld.cand := some g, ld.phase := 3 }

/-! ### A phase that fails (R70, R72) -/

theorem bankResult_ld_rest (src : LoadSrc) (r : Except RmFail Image) (n : Node) : (bankResult src r n).ld
    = { n.ld with bankA := (bankResult src r n).ld.bankA, bankB := (bankResult src r n).ld.bankB } := by
  cases src <;> rfl

theorem bankResult_dev (src : LoadSrc) (r : Except RmFail Image) (n : Node) : (bankResult src r n).dev = n.dev :=
  dev_of_parts (bankResult_get src r n (by simp)) (bankResult_get src r n (by simp))

/-- The failure is noted: RM_ERR, event 2, a record, and the bank's information. -/
def failNoted (e : RmFail) (n : Node) : Node :=
  bankResult n.ld.sel (.error e) (loadNote false (rmFail (srcCode n.ld.sel) e n))

theorem failNoted_ld (e : RmFail) (n : Node) : (failNoted e n).ld
    = { n.ld with err := { src := srcCode n.ld.sel, leg := e.leg, code := e.code }, errOfs := e.ofs,
                  bankA := (failNoted e n).ld.bankA, bankB := (failNoted e n).ld.bankB } := by
  have hn : (loadNote false (rmFail (srcCode n.ld.sel) e n)).ld = (rmFail (srcCode n.ld.sel) e n).ld := recNote_ld _ _ _ _
  rw [failNoted, bankResult_ld_rest, hn, rmFail_ld]

theorem failNoted_dev (e : RmFail) (n : Node) : (failNoted e n).dev = n.dev := by
  rw [failNoted, bankResult_dev, loadNote, recNote_dev, rmFail_dev]

theorem failNoted_raises (e : RmFail) (n : Node) : (failNoted e n).evt.flag 2 = true := by
  rw [failNoted, bankResult_flag, loadNote_flag]
  exact rmFail_raises _ e n

/-- A bank that failed says why (R81). -/
theorem failNoted_bankA {e : RmFail} {n : Node} (h : n.ld.sel = .bankA) : (failNoted e n).ld.bankA.code = e.code := by
  rw [failNoted, h]
  rfl

theorem failNoted_bankB {e : RmFail} {n : Node} (h : n.ld.sel = .bankB) : (failNoted e n).ld.bankB.code = e.code := by
  rw [failNoted, h]
  rfl

theorem loadFailed_ld (e : RmFail) (n : Node) : (loadFailed e n).ld
    = { (failNoted e n).ld with
        phase := 6, cand := none, sel := nextSrc n n.ld.sel, tried := (failNoted e n).ld.tried ++ [n.ld.sel],
        stgState := if n.ld.sel = .staging then 4 else (failNoted e n).ld.stgState,
        restarting := (failNoted e n).ld.restarting && nextSrc n n.ld.sel != .none,
        img := if nextSrc n n.ld.sel = .none then none else (failNoted e n).ld.img } :=
  enter_ld .boot _

theorem loadFailed_comes (e : RmFail) (n : Node) : Comes .boot n (loadFailed e n) := by
  have hd : Comes n.dev.st n (failNoted e n) := comes_of_dev (failNoted_dev e n)
  exact hd.trans (enter_comes .boot _)

theorem loadFailed_raises (e : RmFail) (n : Node) : (loadFailed e n).evt.flag 2 = true :=
  enter_flag .boot _ 2 (failNoted_raises e n)

/-- What the failure of a phase leaves of the loader, whichever the source: the next source selected, and the cause in RM_ERR. -/
structure FailedFrom (e : RmFail) (n k : Node) : Prop where
  sel : k.ld.sel = nextSrc n n.ld.sel
  err : k.ld.err = { src := srcCode n.ld.sel, leg := e.leg, code := e.code }
  cand : k.ld.cand = none
  prefB : k.ld.prefB = n.ld.prefB
  img : nextSrc n n.ld.sel = .none → k.ld.img = none
  bankA : n.ld.sel = .bankA → k.ld.bankA.code = e.code
  bankB : n.ld.sel = .bankB → k.ld.bankB.code = e.code

theorem loadFailed_failedFrom (e : RmFail) (n : Node) : FailedFrom e n (loadFailed e n) := by
  constructor
  all_goals rw [loadFailed_ld]
  case err | prefB => rw [failNoted_ld]
  case img => exact fun h => if_pos h
  case bankA => exact failNoted_bankA
  case bankB => exact failNoted_bankB

/-! ### Whole commands of the LOAD phase -/

section
variable (f : Bool) (t : Nat) (s : State) {r : Except RmFail Image} (hu : s.node.up = true)
  (hr : routeMapLoad f s.mem (s.node.advance t) = loadEnds r (loading (s.node.advance t)))
include hu hr

/-- The command leaves what its operation does, which brings the module to `x`. -/
theorem routeMapLoad_ends {x : DevSt} (hx : Comes x (loading (s.node.advance t)) (loadEnds r (loading (s.node.advance t))))
    (hl : x ∈ [DevSt.boot, .verify, .calibrate]) :
    Ends (exec (.routeMapLoad f t) s) (PhaseEnds x (loadEnds r (loading (s.node.advance t))) s) := by
  have hc := (loading_comes (s.node.advance t)).trans hx
  exact (ends_plantMem_readOnly (t := t) hu hr (hc.up (ne_off_of_load hl) hu)).imp
    (fun _ hs => hs.phaseEnds hc.1 hl)

theorem routeMapLoad_ok_ends {g : Image} (hg : r = .ok g) : Ends (exec (.routeMapLoad f t) s) (fun u =>
    u.node.dev.st = .verify ∧ u.node.ld.cand = some g ∧ u.node.ld.phase = 3 ∧ u.mem = s.mem) := by
  subst hg
  refine (routeMapLoad_ends f t s hu hr (loadEnds_ok_comes g _) (by simp)).imp (fun u ⟨hst, hld, _, hm⟩ => ?_)
  rw [hld, loadEnds_ok_ld]
  exact ⟨hst, rfl, rfl, hm⟩

theorem routeMapLoad_error_ends {e : RmFail} (he : r = .error e) : Ends (exec (.routeMapLoad f t) s) (fun u =>
    u.node.dev.st = .boot ∧ FailedFrom e (loading (s.node.advance t)) u.node ∧ u.node.evt.flag 2 = true ∧ u.mem = s.mem) := by
  subst he
  refine (routeMapLoad_ends f t s hu hr (loadFailed_comes e _) (by simp)).imp (fun u ⟨hst, hld, hflag, hm⟩ => ?_)
  obtain ⟨hsel, herr, hcand, hpref, himg, hA, hB⟩ := loadFailed_failedFrom e (loading (s.node.advance t))
  exact ⟨hst, by constructor <;> rw [hld] <;> assumption, hflag 2 (loadFailed_raises e _), hm⟩

end

/-! ### Application (R71, R80) -/

/-- The chapters take the image over and CALIBRATE is entered: the loader stands. -/
theorem chaptersApplied_ld (restart : Bool) (was : Nat → Bool) (n : Node) :
    (enter .calibrate (restoreDetours (applyChapters restart was n))).ld = n.ld := by
  rw [enter_ld]
  change Part.get (restoreDetours (applyChapters restart was n)) .ld = Part.get n .ld
  rw [restoreDetours_get _ (by simp), applyChapters_get _ _ _ (by simp)]

theorem chaptersApplied_comes (restart : Bool) (was : Nat → Bool) (n : Node) :
    Comes .calibrate n (enter .calibrate (restoreDetours (applyChapters restart was n))) := by
  refine (comes_of_dev (dev_of_parts ?_ ?_)).trans (enter_comes .calibrate _) <;>
    rw [restoreDetours_get _ (by simp), applyChapters_get _ _ _ (by simp)]

/-- The role, event 1 and the record of a load that has ended well. -/
theorem loadNoted_get {pt : Part} (hpt : pt ∈ [Part.ld, .devState, .devRest]) (r : DupRole) (t : Nat) (n : Node) :
    Part.get (loadNote true (raise 1 (exRefresh t (setRole r n)))) pt = Part.get n pt := by
  simp only [List.mem_cons, List.not_mem_nil, or_false] at hpt
  rcases hpt with rfl | rfl | rfl <;>
    rw [loadNote_get _ _ (by simp), raise_get _ _ (by simp), exRefresh_get _ _ (by simp), setRole_get _ _ (by simp)]

theorem loadNoted_ld (r : DupRole) (t : Nat) (n : Node) : (loadNote true (raise 1 (exRefresh t (setRole r n)))).ld = n.ld :=
  loadNoted_get (pt := .ld) (by simp) r t n

theorem loadNoted_dev (r : DupRole) (t : Nat) (n : Node) : (loadNote true (raise 1 (exRefresh t (setRole r n)))).dev = n.dev :=
  dev_of_parts (loadNoted_get (by simp) r t n) (loadNoted_get (by simp) r t n)

section
variable (g : Image) (n : Node)

theorem applyImage_ld : (applyImage g n).ld.img = some g ∧ (applyImage g n).ld.phase = 5
    ∧ (applyImage g n).ld.lock = some (n.ld.lock.getD (bindTable g)) := by
  unfold applyImage
  dsimp only
  rw [loadNoted_ld, chaptersApplied_ld]
  exact ⟨rfl, rfl, rfl⟩

theorem applyImage_comes : Comes .calibrate n (applyImage g n) := by
  unfold applyImage
  dsimp only
  rw [Comes, loadNoted_dev]
  obtain ⟨hst, hpin⟩ := chaptersApplied_comes _ _ _
  refine ⟨hst, hpin.trans ?_⟩
  exact congrArg Device.pinLow (bankResult_dev n.ld.sel (.ok g) n)

theorem applyImage_raises : (applyImage g n).evt.flag 1 = true := raise_flag 1 _ rfl (by omega)

end

/-! ### VERIFY (R71, R83) -/

section
variable {g : Image} {n : Node} (hst : n.dev.st = .verify) (hg : n.ld.cand = some g)
include hst hg

theorem routeMapVerify_of_ok {h : Image} (hv : verifyImage n.ld.lock g = .ok h) : routeMapVerify n = applyImage h n := by
  simp [routeMapVerify, hst, hg, hv]

theorem routeMapVerify_of_error {e : RmFail} (hv : verifyImage n.ld.lock g = .error e) : routeMapVerify n = loadFailed e n := by
  simp [routeMapVerify, hst, hg, hv]

end

/-- Settles O16: CHECK and PROGRAM end by one branch of their operation; a phase of the load ends in `loadEnds`, `applyImage` or
`loadFailed`, each of which enters a state that drives no plant, so that the plant's own work leaves it. -/
theorem checkProgramAndLoadPhases : Obligations.CheckProgramAndLoadPhases := by
  refine ⟨⟨fun s hu h2 => ⟨?checked, ?checkFailed⟩, programComplete_done_ends, programComplete_failed_ends⟩,
    ?loadA, ?loadB, ?failA, ?verified, ?failB, ?loadStaged, ?failStaged, ?verifyFailed⟩
  case checked =>
    intro g hc
    exact (ends_plantMem_readOnly (t := 0) hu (checkComplete_of_ok (n := s.node.advance 0) h2 hc) hu).imp
      (fun u hx => ⟨hx.ld, hx.mem⟩)
  case checkFailed =>
    intro e hc
    refine (ends_plantMem_readOnly (t := 0) hu (checkComplete_of_error (n := s.node.advance 0) h2 hc)
      ((rmFail_up 3 e _).trans hu)).imp (fun u hx => ?_)
    rw [hx.ld, rmFail_ld]
    exact ⟨rfl, rfl, rfl, rfl, hx.flag 2 (rmFail_raises 3 e _), hx.mem⟩
  case loadA =>
    exact fun g t s hu hst hs hg => routeMapLoad_ok_ends false t s hu (routeMapLoad_bankA (n := s.node.advance t) false hst hs) hg
  case loadB =>
    exact fun g t s hu hst hs hg => routeMapLoad_ok_ends false t s hu (routeMapLoad_bankB (n := s.node.advance t) false hst hs) hg
  case loadStaged =>
    exact fun g f t s hu hst hs hg => routeMapLoad_ok_ends f t s hu (routeMapLoad_staging (n := s.node.advance t) f hst hs) hg
  case failA =>
    intro f t e s hu hst hs htried he
    have hld : (loading (s.node.advance t)).ld = { s.node.ld with phase := 2 } := loading_ld _
    refine (routeMapLoad_error_ends f t s hu (routeMapLoad_bankA (n := s.node.advance t) f hst hs) he).imp
      (fun u ⟨hboot, hf, hflag, hm⟩ => ⟨hboot, ?_, ?_, ?_, hf.bankA (by rw [hld, hs]), hflag, hm⟩)
    · rw [hf.sel, hld]
      simp [nextSrc, hld, hs, htried, otherBank]
    · rw [hf.prefB, hld]
    · rw [hf.err, hld, hs, srcCode]
  case failB =>
    intro f t e s hu hst hs htried he
    have hld : (loading (s.node.advance t)).ld = { s.node.ld with phase := 2 } := loading_ld _
    have hnext : nextSrc (loading (s.node.advance t)) (loading (s.node.advance t)).ld.sel = .none := by
      simp [nextSrc, hld, hs, htried, otherBank]
    refine (routeMapLoad_error_ends f t s hu (routeMapLoad_bankB (n := s.node.advance t) f hst hs) he).imp
      (fun u ⟨hboot, hf, hflag, hm⟩ => ⟨hboot, hf.sel.trans hnext, hf.img hnext, ?_, hf.bankB (by rw [hld, hs]), hflag, hm⟩)
    rw [hf.err, hld, hs, srcCode]
  case failStaged =>
    intro f t e s hu hst hs he
    have hld : (loading (s.node.advance t)).ld = { s.node.ld with phase := 2 } := loading_ld _
    refine (routeMapLoad_error_ends f t s hu (routeMapLoad_staging (n := s.node.advance t) f hst hs) he).imp
      (fun u ⟨hboot, hf, hflag, hm⟩ => ⟨hboot, ?_, ?_, hflag, hm⟩)
    · rw [hf.sel]
      simp [nextSrc, hld, hs]
    · rw [hf.err, hld, hs, srcCode]
  case verified =>
    intro g h t s hu hst hg hv
    have hc : Comes .calibrate (s.node.advance t) (applyImage h (s.node.advance t)) := applyImage_comes h _
    obtain ⟨himg, hphase, hlock⟩ := applyImage_ld h (s.node.advance t)
    refine (ends_plantAt_settledOp hu (routeMapVerify_of_ok (n := s.node.advance t) hst hg hv)).imp (fun u hx => ?_)
    obtain ⟨hcal, hld, hflag, hm⟩ := hx.phaseEnds hc.1 (by simp)
    rw [hld, hlock]
    refine ⟨hcal, himg, hphase, rfl, fun k hk => ?_, hflag 1 (applyImage_raises h _), hm⟩
    rw [advance_ld, hk, Option.getD_some]
  case verifyFailed =>
    intro g t e s hu hst hg hv
    have hf := loadFailed_failedFrom e (s.node.advance t)
    refine (ends_plantAt_settledOp hu (routeMapVerify_of_error (n := s.node.advance t) hst hg hv)).imp (fun u hx => ?_)
    obtain ⟨hboot, hld, hflag, hm⟩ := hx.phaseEnds (loadFailed_comes e _).1 (by simp)
    rw [hld, hf.cand, hf.err]
    exact ⟨hboot, rfl, rfl, rfl, hflag 2 (loadFailed_raises e _), hm⟩

end Sys2Proof.Machine
end

section
/-! SUPPORT. The resets and the supply (R82, R88, R99 to R101). -/

namespace Sys2Proof.Machine
open Sys2Proof

/-! ### What a reset leaves of the module (R99, R100) -/

/-- SL_ROLE_IN as last read belongs to the pair's state (R94). -/
theorem roleIn_of_dup {n k : Node} (h : Part.get k .dup = Part.get n .dup) : k.dup.roleIn = n.dup.roleIn :=
  (congrArg Duplex.roleIn h :)

section
variable (n : Node)

theorem clkBoot_devtime : (clkBoot n).time.devtime = n.time.devtime := clkBoot_get (pt := .devtime) n (by simp)

theorem clkBoot_ld : (clkBoot n).ld = n.ld := clkBoot_get (pt := .ld) n (by simp)

theorem clkBoot_dtr : (clkBoot n).dtr = n.dtr := clkBoot_get (pt := .dtr) n (by simp)

theorem clkBoot_clk : (clkBoot n).clk = n.clk := clkBoot_get (pt := .clk) n (by simp)

theorem clkBoot_dev : (clkBoot n).dev = n.dev := dev_of_parts (clkBoot_get n (by simp)) (clkBoot_get n (by simp))

end

section
variable (cause : Nat) (roleIn : Bool) (n : Node)

theorem resetNode_devtime : (resetNode cause roleIn n).time.devtime = 0 := by
  simp [resetNode, clkBoot_devtime, apply_ite Node.time, keepOutputs]

theorem resetNode_dev : (resetNode cause roleIn n).dev = { cause := cause, feedA := n.dev.feedA, feedB := n.dev.feedB } := by
  simp [resetNode, clkBoot_dev, apply_ite Node.dev, keepOutputs]

theorem resetNode_ld : (resetNode cause roleIn n).ld
    = { prefB := n.ld.prefB,
        sel := if roleIn then LoadSrc.none else if n.ld.prefB then LoadSrc.bankB else LoadSrc.bankA } := by
  simp [resetNode, clkBoot_ld, apply_ite Node.ld, keepOutputs]

theorem resetNode_dtr : (resetNode cause roleIn n).dtr
    = { engFuse := n.dtr.engFuse, engRun := n.dtr.engRun,
        conv := n.dtr.conv, rowFuse := n.dtr.rowFuse, rowRun := n.dtr.rowRun } := by
  simp [resetNode, clkBoot_dtr, apply_ite Node.dtr, keepOutputs]

theorem resetNode_clk : (resetNode cause roleIn n).clk = clkKeep (clkRebase n).clk := by
  simp [resetNode, clkBoot_clk, apply_ite Node.clk, keepOutputs]

theorem resetNode_roleIn : (resetNode cause roleIn n).dup.roleIn = roleIn := by
  have hraise : ∀ (j : Nat) (k : Node), (raise j k).dup.roleIn = k.dup.roleIn := fun j k =>
    roleIn_of_dup (raise_get j k (by simp))
  have hraiseIf : ∀ (b : Bool) (j : Nat) (k : Node), (raiseIf b j k).dup.roleIn = k.dup.roleIn := fun b j k =>
    roleIn_of_dup (raiseIf_get b j k (by simp))
  have hclk : ∀ k : Node, (clkBoot k).dup.roleIn = k.dup.roleIn := fun k => roleIn_of_dup (clkBoot_get k (by simp))
  simp [resetNode, hraise, hraiseIf, hclk, apply_ite Node.dup, apply_ite Duplex.roleIn, keepOutputs]

theorem resetNode_up : (resetNode cause roleIn n).up = true := by
  rw [Node.up, resetNode_dev]
  rfl

theorem resetNode_raises : (resetNode cause roleIn n).evt.flag 0 = true :=
  raiseIf_flag _ 3 _ 0 (raise_flag 0 _ rfl (by omega))

theorem resetNode_watchdog_raises : (resetNode 3 roleIn n).evt.flag 3 = true := raise_flag 3 _ rfl (by omega)

end

section
variable (m : Mems) (n : Node)

theorem resetMems_areas : (resetMems m n).staging = [] ∧ (resetMems m n).live = [] ∧ (resetMems m n).liveEnd = 0 := by
  unfold resetMems setBankMem
  (repeat' split) <;> exact ⟨rfl, rfl, rfl⟩

/-- A reset that cuts no programming off leaves both banks. -/
theorem resetMems_flash (h : n.ld.stgState ≠ 5) : (resetMems m n).flashA = m.flashA ∧ (resetMems m n).flashB = m.flashB := by
  rw [resetMems, if_neg h]
  exact ⟨rfl, rfl⟩

end

theorem resetNode_booted (cause : Nat) (roleIn : Bool) (s : State) :
    Booted cause s { s with mem := resetMems s.mem s.node, node := resetNode cause roleIn s.node } := by
  obtain ⟨hstaging, hlive, hend⟩ := resetMems_areas s.mem s.node
  unfold Booted
  dsimp only
  rw [resetNode_dev, resetNode_devtime, resetNode_ld, resetNode_dtr, resetNode_clk]
  exact ⟨rfl, rfl, rfl, rfl, rfl, rfl, rfl, rfl, rfl, hstaging, hlive, hend, resetMems_flash s.mem s.node, rfl, rfl, rfl,
    resetNode_raises cause roleIn s.node⟩

/-! ### What follows a reset -/

/-- All that `Booted` says of a module `n` goes for `k` too. -/
structure BootStands (n k : Node) : Prop where
  dev : k.dev = n.dev
  devtime : k.time.devtime = n.time.devtime
  ld : k.ld = n.ld
  dtr : k.dtr = n.dtr
  clk : k.clk = n.clk
  flag : n.evt.flag 0 = true → k.evt.flag 0 = true

section
variable {cause : Nat} {s t : State} {k : Node}

theorem Booted.stands (h : Booted cause s t) (hk : BootStands t.node k) : Booted cause s { t with node := k } := by
  obtain ⟨hst, hprev, hcause, hpend, hzero, himg, hlock, hstg, hpref, hstaging, hlive, hend, hflash, hconv, heng, hsecs, h0⟩ := h
  unfold Booted
  dsimp only
  rw [hk.dev, hk.devtime, hk.ld, hk.dtr, hk.clk]
  exact ⟨hst, hprev, hcause, hpend, hzero, himg, hlock, hstg, hpref, hstaging, hlive, hend, hflash, hconv, heng, hsecs, hk.flag h0⟩

theorem Booted.not_running (h : Booted cause s t) : t.node.running = false := not_running_of_load (h.1 ▸ by simp)

/-- The plant's own work after a reset. -/
theorem Booted.settled (h : Booted cause s t) : Booted cause s { t with node := settle t.node } :=
  h.stands ⟨settle_dev _ h.not_running, congrArg TimeBase.devtime (settle_time _), settle_ld _, settle_dtr _, settle_clk _,
    settle_flag _ 0⟩

end

/-- A happening that ends in a reset, with logic up. -/
theorem ends_afterReset {cause : Nat} {s : State} {k : Node} {f : Mems → Node → Mems × Node}
    (hf : f s.mem s.node = afterReset (resetMems s.mem s.node, k)) (hu : k.up = true)
    (hb : Booted cause s { s with mem := resetMems s.mem s.node, node := k }) :
    Ends (onBoth f s) (fun t => Booted cause s t ∧ t.node.up = true ∧ ∀ j, k.evt.flag j = true → t.node.evt.flag j = true) := by
  have hf' : f s.mem s.node = (resetMems s.mem s.node, settle k) := by simp [hf, afterReset, hu]
  refine ⟨_, rfl, ?_⟩
  rw [hf']
  dsimp only
  exact ⟨hb.settled, (settle_up k).trans hu, settle_flag k⟩

/-- A happening that leaves the module as it was. -/
theorem onBoth_self {f : Mems → Node → Mems × Node} {s : State} (h : f s.mem s.node = (s.mem, s.node)) : onBoth f s = .next s := by
  rw [onBoth_eq, h]

/-! ### Supply and RESET_N (R88, R99, R524) -/

section
variable (roleIn : Bool) (m : Mems) {n : Node}

theorem supplyValid_of_on (h : n.dev.st ≠ .off) : supplyValid roleIn m n = (m, n) := by
  simp [supplyValid, h]

theorem supplyValid_of_held (h : n.dev.st = .off) (hl : n.dev.pinLow = true) :
    supplyValid roleIn m n = (m, { n with dev.st := .boot, dev.cause := 1 }) := by
  simp [supplyValid, h, hl]

theorem supplyValid_of_off (h : n.dev.st = .off) (hl : n.dev.pinLow = false) :
    supplyValid roleIn m n = afterReset (resetBoth 1 roleIn m n) := by
  simp [supplyValid, h, hl]

theorem supplyInvalid_of_off (h : n.dev.st = .off) : supplyInvalid m n = (m, n) := if_pos h

theorem supplyInvalid_of_on (h : n.dev.st ≠ .off) : supplyInvalid m n = (resetMems m n, offNode (msCommit n)) := if_neg h

theorem resetPin_same {low : Bool} (h : n.dev.pinLow = low) : resetPin low roleIn m n = (m, n) := if_pos h

theorem resetPin_of_off {low : Bool} (h : n.dev.pinLow ≠ low) (ho : n.dev.st = .off) :
    resetPin low roleIn m n = (m, { n with dev.pinLow := low }) := by
  simp [resetPin, h, ho]

section
variable (ho : n.dev.st ≠ .off)
include ho

theorem resetPin_low (h : n.dev.pinLow = false) : resetPin true roleIn m n
    = (resetMems m n, { resetNode 2 roleIn n with dev.pinLow := true, rcd.due := [], rcd.occ := [] }) := by
  simp [resetPin, resetBoth, h, ho]

theorem resetPin_release (h : n.dev.pinLow = true) : resetPin false roleIn m n
    = afterReset (resetMems m n,
        if n.dup.latched then keepOutputs n (resetNode n.dev.cause roleIn n) else resetNode n.dev.cause roleIn n) := by
  simp [resetPin, resetBoth, h, ho]

end

theorem watchdog_of_up (h : n.up = true) : watchdog roleIn m n = afterReset (resetBoth 3 roleIn m n) := if_pos h

theorem watchdog_of_down (h : n.up = false) : watchdog roleIn m n = (m, n) := by
  simp [watchdog, h]

end

theorem supplyInvalid_ends (s : State) (h : s.node.dev.st ≠ .off) :
    Ends (exec .supplyInvalid s) (fun t => t.node.dev.st = .off ∧ t.node.ld.img = none ∧ t.node.ld.prefB = s.node.ld.prefB
      ∧ t.mem.staging = [] ∧ t.node.clk.secs = s.node.clk.secs
      ∧ (s.node.ld.stgState ≠ 5 → t.mem.flashA = s.mem.flashA ∧ t.mem.flashB = s.mem.flashB)) := by
  refine ⟨_, rfl, ?_⟩
  rw [supplyInvalid_of_on _ h]
  exact ⟨rfl, rfl, rfl, (resetMems_areas _ _).1, rfl, resetMems_flash _ _⟩

/-- RESET_N goes low: the module stands in BOOT, held (R99). -/
theorem resetPin_low_ends (roleIn : Bool) (s : State) (ho : s.node.dev.st ≠ .off) (h : s.node.dev.pinLow = false) :
    Ends (exec (.resetPin true roleIn) s) (fun t => Booted 2 s t ∧ t.node.up = false ∧ t.node.dev.pinLow = true) := by
  refine ⟨_, rfl, ?_⟩
  rw [resetPin_low _ _ ho h]
  exact ⟨resetNode_booted 2 roleIn s, Bool.and_false _, rfl⟩

/-- RESET_N is released: latches that have engaged stand (R457). -/
theorem resetPin_release_ends (roleIn : Bool) (s : State) (ho : s.node.dev.st ≠ .off) (h : s.node.dev.pinLow = true) :
    Ends (exec (.resetPin false roleIn) s) (fun t => Booted s.node.dev.cause s t ∧ t.node.up = true) := by
  have hb := resetNode_booted s.node.dev.cause roleIn s
  refine (ends_afterReset (f := resetPin false roleIn) (resetPin_release roleIn s.mem ho h) ?_ ?_).imp (fun _ ht => ⟨ht.1, ht.2.1⟩)
  · rw [apply_ite Node.up]
    exact (if_ctx_congr Iff.rfl (fun _ => resetNode_up _ _ _) (fun _ => resetNode_up _ _ _)).trans (ite_self _)
  · split
    · exact hb.stands ⟨rfl, rfl, rfl, rfl, rfl, id⟩
    · exact hb

/-! ### The RESET command (R99, R102) -/

theorem regAttr_devCtrl : regAttr 0x0024 = some ⟨false, .wr⟩ := by
  decide +kernel

theorem regWrite_devCtrlWrite (p : HostPort) (v : Word) (m : Mems) (n : Node) :
    regWrite p 0x0024 v m n = (0, (devCtrlWrite v m n).1, (devCtrlWrite v m n).2) := rfl

/-- The command is allowed in every state; the module resets. -/
theorem devCtrlWrite_reset (m : Mems) (n : Node) : devCtrlWrite (keyed 0x5EA5#16 5) m n
    = (resetMems m n, resetNode 4 n.dup.roleIn { n with dev.refused := false }) := by
  have hx : devCtrl 0x5EA5#16 5 n = ({ n with dev.refused := false }, true) := rfl
  simp only [devCtrlWrite, fld_keyed_key _ 5 (by omega), fld_keyed_cmd _ 5 (by omega), BitVec.ofNat_toNat, BitVec.setWidth_eq, hx]
  rfl

/-- The module has read SL_ROLE_IN (R94). -/
def State.withRoleIn (roleIn : Bool) (s : State) : State := { s with node := { s.node with dup.roleIn := roleIn } }

/-- RESET is a write of DEV_CTRL by a module that has read SL_ROLE_IN. -/
theorem exec_resetCmd (p : HostPort) (key : BitVec 16) (roleIn : Bool) (s : State) :
    exec (.resetCmd p key roleIn) s = onBoth (hostPlant 0 p (.wr 0x0024 (keyed key 5))) (s.withRoleIn roleIn) := by
  have hf : ∀ m : Mems, softReset roleIn p key m s.node
      = hostPlant 0 p (.wr 0x0024 (keyed key 5)) m (s.withRoleIn roleIn).node := fun _ => rfl
  change onBoth (softReset roleIn p key) s = _
  rw [onBoth_eq, onBoth_eq, hf]
  rfl

theorem takes_withRoleIn {s : State} {a : Nat} (roleIn : Bool) (h : Takes s a) : Takes (s.withRoleIn roleIn) a := h

/-- The reset of a module that has read SL_ROLE_IN and accepted the command. -/
theorem softReset_booted (roleIn : Bool) (s : State) : Booted 4 s
    { s with mem := resetMems s.mem s.node,
             node := resetNode 4 roleIn { s.node with dup.roleIn := roleIn, dev.refused := false } } :=
  resetNode_booted 4 roleIn { s with node := { s.node with dup.roleIn := roleIn, dev.refused := false } }

theorem wrDone_bootStands (p : HostPort) (a : Nat) (x : Bool) (m : Mems) (k : Node) : BootStands k (wrDone p a x (0, m, k)) :=
  ⟨wrDone_dev .., congrArg TimeBase.devtime (wrDone_time ..), wrDone_ld .., wrDone_dtr .., wrDone_clk ..,
    fun h0 => (congrArg (Events.flag · 0) (wrDone_evt ..)).trans h0⟩

theorem resetCmd_ends (p : HostPort) (roleIn : Bool) (s : State) (h : Takes s 0x0024) :
    Ends (exec (.resetCmd p 0x5EA5#16 roleIn) s) (fun t => Booted 4 s t ∧ t.node.up = true ∧ t.node.dup.roleIn = roleIn) := by
  have hr : regWrite p 0x0024 (keyed 0x5EA5#16 5) s.mem ({ s.node with dup.roleIn := roleIn }.advance 0)
      = (0, resetMems s.mem s.node, resetNode 4 roleIn { s.node with dup.roleIn := roleIn, dev.refused := false }) := by
    rw [advance_zero, regWrite_devCtrlWrite, devCtrlWrite_reset]
    rfl
  rw [exec_resetCmd]
  refine ends_hostPlant regAttr_devCtrl (takes_withRoleIn roleIn h) 0 p _ hr (resetNode_up _ _ _) ?_
  refine ⟨((softReset_booted roleIn s).stands (wrDone_bootStands p 0x0024 false _ _)).settled, ?_, ?_⟩
  · rw [settle_up, wrDone_up]
    exact resetNode_up _ _ _
  · rw [settle_dup_roleIn, wrDone_dup]
    exact resetNode_roleIn _ _ _

/-- Settles O18: whatever the source, the module comes to what `resetNode` makes of it; the plant's own work and engaged latches
leave that. -/
theorem resetsBringBoot : Obligations.ResetsBringBoot := by
  refine ⟨?valid, supplyInvalid_ends, resetPin_low_ends, resetPin_release_ends, ?watchdog, resetCmd_ends, ?validHeld,
    fun r s h => onBoth_self (supplyValid_of_on r s.mem h), fun s h => onBoth_self (supplyInvalid_of_off s.mem h),
    fun low r s h => onBoth_self (resetPin_same r s.mem h), ?pinOff, fun r s h => onBoth_self (watchdog_of_down r s.mem h)⟩
  case valid =>
    exact fun r s h hl => (ends_afterReset (f := supplyValid r) (supplyValid_of_off r s.mem h hl) (resetNode_up _ _ _)
      (resetNode_booted 1 r s)).imp (fun _ ht => ⟨ht.1, ht.2.1⟩)
  case watchdog =>
    exact fun r s h => (ends_afterReset (f := watchdog r) (watchdog_of_up r s.mem h) (resetNode_up _ _ _)
      (resetNode_booted 3 r s)).imp (fun _ ht => ⟨ht.1, ht.2.1, ht.2.2 3 (resetNode_watchdog_raises r s.node)⟩)
  case validHeld =>
    intro r s h hl
    refine ⟨_, rfl, ?_⟩
    rw [supplyValid_of_held r s.mem h hl]
    exact ⟨rfl, by simp [Node.up, hl], rfl⟩
  case pinOff =>
    intro low r s h ho
    refine ⟨_, rfl, ?_⟩
    rw [resetPin_of_off r s.mem h ho]
    exact ⟨rfl, rfl, rfl⟩

end Sys2Proof.Machine
end

section
/-! SUPPORT. The device's registers once the plant has followed, and the commands of DEV_CTRL (R91, R97, R102, R103). -/

namespace Sys2Proof.Machine
open Sys2Proof

/-! ### The device's registers -/

/-- What the plant's own work, after a command that left `n`, leaves of the device in `k`: all but RUN against DEGRADED (R83). -/
structure DevSettled (n k : Node) : Prop where
  rest : Part.get k .devRest = Part.get n .devRest
  running : k.running = n.running
  idle : n.running = false → k.dev = n.dev
  flag : ∀ j, n.evt.flag j = true → k.evt.flag j = true

theorem settle_devSettled (n : Node) : DevSettled n (settle n) :=
  ⟨settle_get n (by simp [plantParts]), settle_running n, settle_dev n, settle_flag n⟩

section
variable {n k : Node} (h : DevSettled n k)
include h

theorem DevSettled.pend : k.dev.pend = n.dev.pend := (congrArg Device.pend h.rest :)

theorem DevSettled.refused : k.dev.refused = n.dev.refused := (congrArg Device.refused h.rest :)

theorem DevSettled.feedA : k.dev.feedA = n.dev.feedA := (congrArg Device.feedA h.rest :)

theorem DevSettled.feedB : k.dev.feedB = n.dev.feedB := (congrArg Device.feedB h.rest :)

theorem DevSettled.overtemp : k.dev.overtemp = n.dev.overtemp := (congrArg Device.overtemp h.rest :)

end

theorem devRest_of_dev {n k : Node} (h : k.dev = n.dev) : Part.get k .devRest = Part.get n .devRest := by
  simp only [Part.get, h]
  rfl

/-- Nothing of it depends on what lies outside the device's registers and the event controller. -/
theorem DevSettled.of_dev {m n k : Node} (h : DevSettled m k) (hd : m.dev = n.dev) (he : m.evt = n.evt) : DevSettled n k := by
  obtain ⟨hrest, hrun, hidle, hflag⟩ := h
  have hr : m.running = n.running := by simp only [Node.running, hd]
  exact ⟨hrest.trans (devRest_of_dev hd), hrun.trans hr, fun hn => (hidle (hr.trans hn)).trans hd, fun j hj => hflag j (he ▸ hj)⟩

/-- A happening of the module. -/
theorem ends_plantAt_dev {s : State} (hu : s.node.up = true) (t : Nat) (f : Node → Node) :
    Ends (onNode (plantAt t f) s) (fun u => DevSettled (f (s.node.advance t)) u.node) := by
  refine ends_plantAt hu t f ?_
  dsimp only
  exact settle_devSettled _

theorem ready_not_running {n : Node} (h : n.dev.st = .ready) : n.running = false := by
  simp [Node.running, h]

theorem enter_raises {x : DevSt} {n : Node} (h : n.dev.st ≠ x) : (enter x n).evt.flag 0 = true := by
  rw [enter, if_neg h, recNote_flag, recEnter_flag]
  exact raise_flag 0 _ rfl (by omega)

/-! ### The entry to SAFE by command (R97) -/

/-- What the entry to SAFE stops first lies outside the device's registers. -/
theorem safeStops_dev (n : Node) : (lnTestsAbort (loSafeEntry (caStop (uiStop n)))).dev = n.dev := by
  apply dev_of_parts <;>
    rw [lnTestsAbort_get _ (by simp), loSafeEntry_get _ (by simp), caStop_get _ (by simp), uiStop_get _ (by simp)]

theorem safeEntry_devRest (cause : Nat) (n : Node) : Part.get (safeEntry cause n) .devRest
    = Part.get { n with dev.safeCause := cause, dev.pend := .none } .devRest := by
  unfold safeEntry
  dsimp only
  rw [dspSafe_get _ (by simp), exRefresh_get _ _ (by simp), enter_get _ _ (by simp), safeStops_dev]
  exact devRest_of_dev rfl

theorem safeEntry_dev_rest (cause : Nat) (n : Node) : (safeEntry cause n).dev.pend = .none
    ∧ (safeEntry cause n).dev.refused = n.dev.refused ∧ (safeEntry cause n).dev.pinLow = n.dev.pinLow :=
  have h := safeEntry_devRest cause n
  ⟨(congrArg Device.pend h :), (congrArg Device.refused h :), (congrArg Device.pinLow h :)⟩

theorem safeEntry_raises (cause : Nat) {n : Node} (h : n.dev.st ≠ .safe) : (safeEntry cause n).evt.flag 0 = true := by
  unfold safeEntry
  rw [dspSafe_flag]
  refine exRefresh_flag _ _ 0 (enter_raises ?_)
  dsimp only
  rw [safeStops_dev]
  exact h

/-! ### A write of DEV_CTRL (R102, R103) -/

section
variable {n : Node}

theorem devAllows_otherKey {key : BitVec 16} (cmd : Nat) (h : key ≠ 0x5EA5#16) : devAllows n key cmd = false := by
  simp [devAllows, h]

theorem devAllows_run_iff : devAllows n 0x5EA5#16 1 = true ↔ n.dev.st = .ready := by
  simp [devAllows]

theorem devAllows_halt_iff : devAllows n 0x5EA5#16 2 = true ↔ n.running = true := by
  simp [devAllows]

theorem devAllows_safe_iff : devAllows n 0x5EA5#16 3 = true ↔ n.acq = true := by
  simp [devAllows, Node.acq]

theorem devCtrl_of_not_allowed {key : BitVec 16} {cmd : Nat} (h : devAllows n key cmd = false) :
    devCtrl key cmd n = ({ n with dev.refused := true }, false) := by
  simp [devCtrl, h]

theorem devCtrl_run (h : n.dev.st = .ready) :
    devCtrl 0x5EA5#16 1 n = ({ n with dev.refused := false, dev.pend := .run }, false) := by
  simp [devCtrl, devAllows_run_iff.mpr h]

theorem devCtrl_halt (h : n.running = true) :
    devCtrl 0x5EA5#16 2 n = ({ n with dev.refused := false, dev.pend := .halt }, false) := by
  simp [devCtrl, devAllows_halt_iff.mpr h]

theorem devCtrl_safe (h : n.acq = true) :
    devCtrl 0x5EA5#16 3 n = (safeEntry 6 { n with dev.refused := false }, false) := by
  simp [devCtrl, devAllows_safe_iff.mpr h]

end

/-- A write that does not reset the module. -/
theorem devCtrlWrite_of_stays {key : BitVec 16} {cmd : Nat} (hc : cmd < 16) (m : Mems) {n k : Node}
    (h : devCtrl key cmd n = (k, false)) : devCtrlWrite (keyed key cmd) m n = (m, k) := by
  simp [devCtrlWrite, fld_keyed_key key cmd (by omega), fld_keyed_cmd key cmd hc, h]

section
variable (p : HostPort) {s : State} {cmd : Nat}

/-- A write of DEV_CTRL that does not reset the module. -/
theorem ends_devCtrl {key : BitVec 16} (hc : cmd < 16) (h : Takes s 0x0024) {k : Node}
    (hk : devCtrl key cmd s.node = (k, false)) (hu : k.up = true) :
    Ends (onBoth (hostPlant 0 p (.wr 0x0024 (keyed key cmd))) s)
      (fun u => Acks u p 0x0024 ∧ u.mem = s.mem ∧ DevSettled k u.node) := by
  refine ends_hostPlant (st := 0) (m' := s.mem) (n' := k) regAttr_devCtrl h 0 p (keyed key cmd)
    (by rw [advance_zero, regWrite_devCtrlWrite, devCtrlWrite_of_stays hc s.mem hk]) hu ?_
  dsimp only
  refine ⟨?_, rfl, (settle_devSettled _).of_dev (wrDone_dev ..) (wrDone_evt ..)⟩
  simp only [Acks, Answered, settle_port, wrDone_ans]

/-- The command was refused: CMD_REFUSED is all that changes of the device (R103). -/
def DevRefused (s u : State) : Prop :=
  u.node.dev.refused = true ∧ u.node.dev.pend = s.node.dev.pend ∧ u.node.running = s.node.running
    ∧ (s.node.running = false → u.node.dev = { s.node.dev with refused := true }) ∧ u.mem = s.mem

theorem DevRefused.idle {u : State} (h : DevRefused s u) (hr : s.node.running = false) :
    u.node.dev = { s.node.dev with refused := true } ∧ u.mem = s.mem :=
  let ⟨_, _, _, hdev, hm⟩ := h
  ⟨hdev hr, hm⟩

theorem devCtrl_refused_ends {key : BitVec 16} (hc : cmd < 16) (h : Takes s 0x0024) (ha : devAllows s.node key cmd = false) :
    Ends (onBoth (hostPlant 0 p (.wr 0x0024 (keyed key cmd))) s) (DevRefused s) :=
  (ends_devCtrl p hc h (devCtrl_of_not_allowed ha) h.1).imp
    (fun _ ⟨_, hm, hd⟩ => ⟨hd.refused, hd.pend, hd.running, hd.idle, hm⟩)

end

section
variable (p : HostPort) (s : State) (h : Takes s 0x0024)
include h

theorem runCmd_ends (hs : s.node.dev.st = .ready) : Ends (exec (.runCmd p 0x5EA5#16) s) (fun t =>
    Acks t p 0x0024 ∧ t.node.dev = { s.node.dev with pend := .run, refused := false }) :=
  (ends_devCtrl p (by omega) h (devCtrl_run hs) h.1).imp (fun _ ⟨hack, _, hd⟩ => ⟨hack, hd.idle (ready_not_running hs)⟩)

theorem haltCmd_ends (hr : s.node.running = true) : Ends (exec (.haltCmd p 0x5EA5#16) s) (fun t =>
    Acks t p 0x0024 ∧ t.node.dev.pend = .halt ∧ t.node.dev.refused = false ∧ t.node.running = true) :=
  (ends_devCtrl p (by omega) h (devCtrl_halt hr) h.1).imp
    (fun _ ⟨hack, _, hd⟩ => ⟨hack, hd.pend, hd.refused, hd.running.trans hr⟩)

theorem safeCmd_ends (ha : s.node.acq = true) : Ends (exec (.safeCmd p 0x5EA5#16) s) (fun t =>
    Acks t p 0x0024 ∧ t.node.dev.st = .safe ∧ t.node.dev.safeCause = 6 ∧ t.node.dev.prev = s.node.dev.st
      ∧ t.node.dev.pend = .none ∧ t.node.dev.refused = false ∧ t.node.evt.flag 0 = true) := by
  have hne : s.node.dev.st ≠ .safe := st_ne_safe_of_acq ha
  obtain ⟨hsafe, hcause, hprev⟩ := safeEntry_dev 6 (n := { s.node with dev.refused := false }) hne
  obtain ⟨hpend, hrefused, hpin⟩ := safeEntry_dev_rest 6 { s.node with dev.refused := false }
  have hup := (up_iff _).mpr ⟨hsafe ▸ by simp, hpin.trans ((up_iff s.node).mp h.1).2⟩
  refine (ends_devCtrl p (by omega) h (devCtrl_safe ha) hup).imp (fun u ⟨hack, _, hd⟩ => ?_)
  rw [hd.idle (by simp [Node.running, hsafe])]
  exact ⟨hack, hsafe, hcause, hprev, hpend, hrefused, hd.flag 0 (safeEntry_raises 6 hne)⟩

theorem otherKey_ends (key : BitVec 16) (r : Bool) : ∀ c ∈ [Instr.runCmd p key, .haltCmd p key, .safeCmd p key, .resetCmd p key r],
    key ≠ 0x5EA5#16 → Ends (exec c s) (DevRefused s) := by
  refine List.forall_iff_forall_mem.mp (show _ ∧ _ ∧ _ ∧ _ from ⟨?_, ?_, ?_, ?_⟩) <;> intro hk
  · exact devCtrl_refused_ends p (by omega) h (devAllows_otherKey 1 hk)
  · exact devCtrl_refused_ends p (by omega) h (devAllows_otherKey 2 hk)
  · exact devCtrl_refused_ends p (by omega) h (devAllows_otherKey 3 hk)
  · rw [exec_resetCmd]
    exact devCtrl_refused_ends p (by omega) (takes_withRoleIn r h) (devAllows_otherKey 5 hk)

/-- Outside READY, RUN and DEGRADED none of the three is allowed (R102). -/
theorem notAcquiring_ends (ha : s.node.acq = false) :
    ∀ c ∈ [Instr.runCmd p 0x5EA5#16, .haltCmd p 0x5EA5#16, .safeCmd p 0x5EA5#16],
    Ends (exec c s) (fun t => t.node.dev = { s.node.dev with refused := true } ∧ t.mem = s.mem) := by
  obtain ⟨hready, hrun⟩ : s.node.dev.st ≠ .ready ∧ s.node.running = false := by simpa [Node.acq] using ha
  have refused {cmd : Nat} (hc : cmd < 16) (hno : ¬ devAllows s.node 0x5EA5#16 cmd = true) :=
    (devCtrl_refused_ends p hc h (Bool.eq_false_iff.mpr hno)).imp (fun _ hd => hd.idle hrun)
  exact List.forall_iff_forall_mem.mp (show _ ∧ _ ∧ _ from
    ⟨refused (by omega) (mt devAllows_run_iff.mp hready), refused (by omega) (mt devAllows_halt_iff.mp (by simp [hrun])),
     refused (by omega) (mt devAllows_safe_iff.mp (by simp [ha]))⟩)

end

/-! ### The entry to READY (R82, R90, R91, R447) -/

/-- The module at its entry to READY, before AUTO_RUN is looked at. -/
def readied (x : CalMeas) (roleIn : Bool) (t : Nat) (n : Node) : Node :=
  dspReady t (svReady0 (digReady (caStart t (exStart t (cjStart t (uiStart t (exRefresh t
    (roleSettle roleIn t (enter .ready (initialCal x t n))))))))))

/-- AUTO_RUN asks for RUN (R91). -/
def autoRunAsked (n : Node) : Node := if n.autoRun then { n with dev.pend := .run } else n

/-- Live legs of the partner are checked from the entry to READY on (R448). -/
def liveLegsWait (n : Node) : Node := if n.ld.partnerLive then { n with ld.partnerLive := false, ld.liveStat := 2 } else n

section
variable (n : Node)

theorem autoRunAsked_dev : (autoRunAsked n).dev = { n.dev with pend := if n.autoRun then .run else n.dev.pend } := by
  unfold autoRunAsked
  split <;> rfl

theorem autoRunAsked_evt : (autoRunAsked n).evt = n.evt := by
  unfold autoRunAsked
  split <;> rfl

theorem liveLegsWait_dev : (liveLegsWait n).dev = n.dev := by
  unfold liveLegsWait
  split <;> rfl

theorem liveLegsWait_evt : (liveLegsWait n).evt = n.evt := by
  unfold liveLegsWait
  split <;> rfl

end

section
variable (x : CalMeas) (roleIn : Bool) (t : Nat) {n : Node}

theorem readied_get {pt : Part} (hpt : pt ∈ [Part.devState, .ld]) (n : Node) :
    Part.get (readied x roleIn t n) pt = Part.get (enter .ready (initialCal x t n)) pt := by
  unfold readied
  simp only [List.mem_cons, List.not_mem_nil, or_false] at hpt
  rcases hpt with rfl | rfl <;>
    rw [dspReady_get _ _ (by simp), svReady0_get _ (by simp), digReady_get _ (by simp), caStart_get _ _ (by simp),
      exStart_get _ _ (by simp), cjStart_get _ _ (by simp), uiStart_get _ _ (by simp), exRefresh_get _ _ (by simp),
      roleSettle_get _ _ _ (by simp)]

theorem readied_ld (n : Node) : (readied x roleIn t n).ld = n.ld := by
  change Part.get (readied x roleIn t n) .ld = Part.get n .ld
  rw [readied_get x roleIn t (by simp), enter_get _ _ (by simp), initialCal_get _ _ _ (by simp)]

section
variable (h : n.dev.st = .calibrate)
include h

theorem initialCal_st : (initialCal x t n).dev.st = .calibrate := by
  have hs : Part.get (initialCal x t n) .devState = Part.get n .devState := initialCal_get _ _ _ (by simp)
  exact (Prod.mk.inj hs).1.trans h

theorem readied_devState : (readied x roleIn t n).dev.st = .ready ∧ (readied x roleIn t n).dev.prev = .calibrate := by
  have hcal : (initialCal x t n).dev.st = .calibrate := initialCal_st x t h
  obtain ⟨hst, hrest⟩ := Prod.mk.inj (readied_get x roleIn t (pt := .devState) (by simp) n)
  obtain ⟨hprev, -⟩ := Prod.mk.inj hrest
  rw [enter_dev (by simp [hcal])] at hst hprev
  exact ⟨hst, hprev.trans hcal⟩

theorem readied_raises : (readied x roleIn t n).evt.flag 0 = true := by
  unfold readied
  rw [dspReady_flag, svReady0_flag, digReady_flag, caStart_flag, exStart_flag, cjStart_flag, uiStart_flag]
  exact exRefresh_flag _ _ 0 (roleSettle_flag _ _ _ 0 (enter_raises (by simp [initialCal_st x t h])))

/-- The image that is applied in CALIBRATE is applied in READY. -/
theorem readied_autoRun : (readied x roleIn t n).autoRun = n.autoRun := by
  have hready := (readied_devState x roleIn t h).1
  have happlied : n.applied = true ∧ (readied x roleIn t n).applied = true := by
    simp [Node.applied, Node.acq, h, hready]
  simp only [Node.autoRun, Node.legBody, happlied.1, happlied.2, readied_ld]

theorem calibrated_of_calibrate : calibrated x roleIn t n = liveLegsWait (autoRunAsked (readied x roleIn t n)) := by
  rw [calibrated, if_neg (by simp [h])]
  rfl

theorem calibrated_dev : (calibrated x roleIn t n).dev
    = { (readied x roleIn t n).dev with pend := if n.autoRun then .run else (readied x roleIn t n).dev.pend } := by
  rw [calibrated_of_calibrate x roleIn t h, liveLegsWait_dev, autoRunAsked_dev, readied_autoRun x roleIn t h]

theorem calibrated_raises : (calibrated x roleIn t n).evt.flag 0 = true := by
  rw [calibrated_of_calibrate x roleIn t h, liveLegsWait_evt, autoRunAsked_evt]
  exact readied_raises x roleIn t h

end
end

/-! ### RUN and HALT take effect (R84, R91, R92, R447) -/

section
variable (t : Nat) {n : Node}

theorem runEntry_dev (h : n.dev.st = .ready) : (runEntry t n).dev
    = { n.dev with pend := .none, prev := .ready, st := if n.degraded then .degraded else .run, stateTick := n.scan } := by
  have hkeep : ∀ m : Node, (seqRunEntry (tpRunEntry t (ssInit (loRunEntry (lnRunEntry (exRefresh t m)))))).dev = m.dev := by
    intro m
    apply dev_of_parts <;>
      rw [seqRunEntry_get _ (by simp), tpRunEntry_get _ _ (by simp), ssInit_get _ (by simp), loRunEntry_get _ (by simp),
        lnRunEntry_get _ (by simp), exRefresh_get _ _ (by simp)]
  have hne : n.dev.st ≠ if n.degraded then .degraded else .run := by
    split <;> simp [h]
  rw [runEntry, hkeep, enter_dev (n := { n with dev.pend := .none }) hne]
  dsimp only
  rw [h]
  rfl

theorem runEntry_running (h : n.dev.st = .ready) : (runEntry t n).running = true := by
  rw [Node.running, runEntry_dev t h]
  dsimp only
  split <;> rfl

theorem runEntry_raises (h : n.dev.st = .ready) : (runEntry t n).evt.flag 0 = true := by
  have hne : n.dev.st ≠ if n.degraded then .degraded else .run := by
    split <;> simp [h]
  rw [runEntry, seqRunEntry_flag, tpRunEntry_flag, ssInit_flag]
  exact loRunEntry_flag _ 0 (lnRunEntry_flag _ 0 (exRefresh_flag _ _ 0 (enter_raises hne)))

theorem runWhenDue_of_due (h : n.dev.st = .ready) (hp : n.dev.pend = .run) (hf : n.dup.findAt = none) :
    runWhenDue t n = runEntry t n := by
  simp [runWhenDue, runDue, h, hp, hf]

theorem runWhenDue_of_not_due (h : n.dev.st ≠ .ready ∨ n.dev.pend ≠ .run ∨ n.dup.findAt ≠ none) : runWhenDue t n = n := by
  refine if_neg ?_
  simp only [runDue, Bool.and_eq_true, beq_iff_eq, Option.isNone_iff_eq_none]
  tauto

theorem haltEffect_dev (h : n.dev.st ≠ .ready) : (haltEffect t n).dev
    = { n.dev with pend := .none, prev := n.dev.st, st := .ready, stateTick := n.scan } := by
  have hkeep : ∀ m : Node, (exRefresh t (loSafeEntry (lnTestsAbort (seqHalt m)))).dev = m.dev := by
    intro m
    apply dev_of_parts <;>
      rw [exRefresh_get _ _ (by simp), loSafeEntry_get _ (by simp), lnTestsAbort_get _ (by simp), seqHalt_get _ (by simp)]
  rw [haltEffect, hkeep, enter_dev (n := { n with dev.pend := .none }) h]
  rfl

theorem haltEffect_raises (h : n.dev.st ≠ .ready) : (haltEffect t n).evt.flag 0 = true := by
  refine exRefresh_flag _ _ 0 ?_
  rw [loSafeEntry_flag]
  exact lnTestsAbort_flag _ 0 (seqHalt_flag _ 0 (enter_raises h))

theorem haltWhenDue_of_due (h : n.running = true) (hp : n.dev.pend = .halt) : haltWhenDue t n = haltEffect t n := by
  simp [haltWhenDue, haltDue, h, hp]

theorem haltWhenDue_of_not_due (h : n.running = false ∨ n.dev.pend ≠ .halt) : haltWhenDue t n = n := by
  refine if_neg ?_
  simp only [haltDue, Bool.and_eq_true, beq_iff_eq]
  rcases h with h | h <;> simp [h]

theorem st_ne_ready_of_running (h : n.running = true) : n.dev.st ≠ .ready := by
  intro hs
  simp [ready_not_running hs] at h

end

/-! ### Feeds and temperature (R87) -/

section
variable {n : Node}

theorem feedSet_dev (b ok : Bool) (n : Node) : (feedSet b ok n).dev
    = if b then { n.dev with feedB := ok } else { n.dev with feedA := ok } := by
  unfold feedSet
  by_cases h : (if b then n.dev.feedB else n.dev.feedA) = ok
  · rw [if_pos h]
    cases b <;> simp [← h]
  · rw [if_neg h]
    cases b <;> simp

theorem feedSet_running (b ok : Bool) (n : Node) : (feedSet b ok n).running = n.running := by
  cases b <;> simp only [Node.running, feedSet_dev] <;> rfl

/-- The loss of a feed that was good. -/
theorem feedSet_raises {b : Bool} (h : (if b then n.dev.feedB else n.dev.feedA) = true) :
    (feedSet b false n).evt.flag (if b then 5 else 4) = true := by
  unfold feedSet
  dsimp only
  rw [if_neg (by simp [h]), recNote_flag]
  cases b
  · exact raise_flag 4 _ rfl (by omega)
  · exact raise_flag 5 _ rfl (by omega)

theorem overtempSet_dev (on : Bool) (n : Node) : (overtempSet on n).dev = { n.dev with overtemp := on } := by
  unfold overtempSet
  split
  case isTrue h => simp [← h]
  case isFalse => simp

theorem overtempSet_running (on : Bool) (n : Node) : (overtempSet on n).running = n.running := by
  simp only [Node.running, overtempSet_dev]

theorem overtempSet_raises (h : n.dev.overtemp = false) : (overtempSet true n).evt.flag 6 = true := by
  rw [overtempSet, if_neg (by simp [h]), recNote_flag]
  exact raise_flag 6 _ rfl (by omega)

end

/-! ### Whole commands -/

theorem calibrated_ends (x : CalMeas) (r : Bool) (t : Nat) (s : State) (hu : s.node.up = true) (hs : s.node.dev.st = .calibrate) :
    Ends (exec (.initialCalibrationComplete x r t) s) (fun u => u.node.dev.st = .ready ∧ u.node.dev.prev = .calibrate
      ∧ u.node.evt.flag 0 = true ∧ (s.node.autoRun = true → u.node.dev.pend = .run)) := by
  obtain ⟨hst, hprev⟩ := readied_devState x r t (n := s.node.advance t) hs
  have hdev := calibrated_dev x r t (n := s.node.advance t) hs
  have hidle : (calibrated x r t (s.node.advance t)).running = false := ready_not_running (by rw [hdev]; exact hst)
  refine (ends_plantAt_dev hu t (calibrated x r t)).imp (fun u hd => ?_)
  rw [hd.idle hidle, hdev]
  exact ⟨hst, hprev, hd.flag 0 (calibrated_raises x r t hs), fun ha => if_pos ha⟩

theorem runEntry_ends (t : Nat) (s : State) (hu : s.node.up = true) (hs : s.node.dev.st = .ready) (hp : s.node.dev.pend = .run)
    (hf : s.node.dup.findAt = none) : Ends (exec (.runEntry t) s) (fun u =>
      u.node.running = true ∧ u.node.dev.pend = .none ∧ u.node.evt.flag 0 = true) := by
  have hst : (s.node.advance t).dev.st = .ready := hs
  refine (ends_plantAt_dev hu t (runWhenDue t)).imp (fun u hd => ?_)
  rw [runWhenDue_of_due t hst hp hf] at hd
  exact ⟨hd.running.trans (runEntry_running t hst), hd.pend.trans (by rw [runEntry_dev t hst]), hd.flag 0 (runEntry_raises t hst)⟩

theorem haltEffect_ends (t : Nat) (s : State) (hu : s.node.up = true) (hr : s.node.running = true) (hp : s.node.dev.pend = .halt) :
    Ends (exec (.haltEffect t) s) (fun u => u.node.dev.st = .ready ∧ u.node.dev.prev = s.node.dev.st ∧ u.node.dev.pend = .none
      ∧ u.node.evt.flag 0 = true) := by
  have hne : (s.node.advance t).dev.st ≠ .ready := st_ne_ready_of_running hr
  have hidle : (haltEffect t (s.node.advance t)).running = false := ready_not_running (by rw [haltEffect_dev t hne])
  refine (ends_plantAt_dev hu t (haltWhenDue t)).imp (fun u hd => ?_)
  rw [haltWhenDue_of_due t (n := s.node.advance t) hr hp] at hd
  rw [hd.idle hidle, haltEffect_dev t hne]
  exact ⟨rfl, rfl, rfl, hd.flag 0 (haltEffect_raises t hne)⟩

/-- Settles O19: a write of DEV_CTRL is one branch of `devCtrl`, a happening one change of the device's registers, of which the
plant's own work moves no more than RUN against DEGRADED. -/
theorem deviceStates : Obligations.DeviceStates := by
  refine ⟨⟨fun p s h hs => runCmd_ends p s h hs, fun p s h hr => haltCmd_ends p s h hr, fun p s h ha => safeCmd_ends p s h ha,
      fun p key r s h => otherKey_ends p s h key r, ?calibrating, ?running, fun p s h ha => notAcquiring_ends p s h ha, ?ready⟩,
    calibrated_ends, runEntry_ends, haltEffect_ends, ?feedLost, ?feedRegained, ?overtempSet, ?overtempClear, ?runNotDue, ?haltNotDue⟩
  case calibrating =>
    exact fun p s h hs => notAcquiring_ends p s h (by simp [Node.acq, Node.running, hs])
  case running =>
    intro p s h hr
    have hno : devAllows s.node 0x5EA5#16 1 = false :=
      Bool.eq_false_iff.mpr (mt devAllows_run_iff.mp (st_ne_ready_of_running hr))
    exact (devCtrl_refused_ends p (by omega) h hno).imp
      (fun _ ⟨href, hpend, hrun, _, hm⟩ => ⟨href, hpend, hrun.trans hr, hm⟩)
  case ready =>
    intro p s h hs
    have hrun : s.node.running = false := ready_not_running hs
    have hno : devAllows s.node 0x5EA5#16 2 = false := Bool.eq_false_iff.mpr (mt devAllows_halt_iff.mp (by simp [hrun]))
    exact (devCtrl_refused_ends p (by omega) h hno).imp (fun _ hd => hd.idle hrun)
  case feedLost =>
    intro b t s hu
    refine (ends_plantAt_dev hu t (feedSet b false)).imp (fun u hd => ?_)
    rw [hd.feedA, hd.feedB, hd.running, feedSet_running, feedSet_dev]
    refine ⟨?_, ?_, fun hgood => hd.flag _ (feedSet_raises hgood), rfl⟩ <;> cases b <;> rfl
  case feedRegained =>
    intro b t s hu
    refine (ends_plantAt_dev hu t (feedSet b true)).imp (fun u hd => ?_)
    rw [hd.feedA, hd.feedB, hd.running, feedSet_running, feedSet_dev]
    refine ⟨?_, ?_, rfl⟩ <;> cases b <;> rfl
  case overtempSet =>
    intro t s hu
    refine (ends_plantAt_dev hu t (overtempSet true)).imp (fun u hd => ?_)
    rw [hd.overtemp, hd.running, overtempSet_running, overtempSet_dev]
    exact ⟨rfl, fun hoff => hd.flag 6 (overtempSet_raises hoff), rfl⟩
  case overtempClear =>
    intro t s hu
    refine (ends_plantAt_dev hu t (overtempSet false)).imp (fun u hd => ?_)
    rw [hd.overtemp, hd.running, overtempSet_running, overtempSet_dev]
    exact ⟨rfl, rfl⟩
  case runNotDue =>
    intro t s hu hn
    have hstays : runWhenDue t (s.node.advance t) = s.node.advance t := runWhenDue_of_not_due t hn
    exact (ends_plantAt_dev hu t (runWhenDue t)).imp (fun u hd => ⟨(hstays ▸ hd).running, (hstays ▸ hd).pend⟩)
  case haltNotDue =>
    intro t s hu hn
    have hstays : haltWhenDue t (s.node.advance t) = s.node.advance t := haltWhenDue_of_not_due t hn
    exact (ends_plantAt_dev hu t (haltWhenDue t)).imp (fun u hd => ⟨(hstays ▸ hd).running, (hstays ▸ hd).pend⟩)

end Sys2Proof.Machine
end

section
/-! SUPPORT. What a command of a port or a session leaves as its operation made it, whether or not the plant follows it. -/

namespace Sys2Proof.Machine
open Sys2Proof

/-- The state `u` holds what the operation left in `x`: byte memories, ports, sessions, mailboxes, loader and waiters, every
flag raised and every frame sent. -/
structure Ended (x : Mems × Node) (u : State) : Prop where
  mem : u.mem = x.1
  spi : u.node.spi = x.2.spi
  wf : u.node.wf = x.2.wf
  ld : u.node.ld = x.2.ld
  mbx : u.node.mbx = x.2.mbx
  fwds : u.node.net.fwds = x.2.net.fwds
  port : ∀ p, u.node.port p = x.2.port p
  flag : ∀ k, x.2.evt.flag k = true → u.node.evt.flag k = true
  tx : ∀ f ∈ x.2.tx, f ∈ u.node.tx

section
variable {s : State} {t : Nat} {x : Mems × Node}

theorem ended_at (q : List Instr) (m : Mems) (n : Node) : Ended (m, n) { pending := q, mem := m, node := n } :=
  ⟨rfl, rfl, rfl, rfl, rfl, rfl, fun _ => rfl, fun _ h => h, fun _ h => h⟩

theorem ended_settle (q : List Instr) (m : Mems) (n : Node) : Ended (m, n) { pending := q, mem := m, node := settle n } := by
  have htx : ∀ f ∈ n.tx, f ∈ (settle n).tx := fun _ h => mem_settle_tx h
  refine ⟨rfl, settle_spi n, settle_wf n, settle_ld n, settle_mbx n, ?_, ?_, settle_flag n, htx⟩ <;> dsimp only
  exacts [settle_net_fwds n, fun p => settle_port p n]

/-- A happening that the plant does not follow. -/
theorem ends_upMem (hu : s.node.up = true) {f : Mems → Node → Mems × Node} (hf : f s.mem (s.node.advance t) = x)
    {P : State → Prop} (hP : P { s with mem := x.1, node := x.2 }) : Ends (onBoth (upMem t f) s) P := by
  refine ⟨_, rfl, ?_⟩
  simp only [upMem_up t f s.mem s.node hu, hf]
  exact hP

theorem upMem_ended (hu : s.node.up = true) {f : Mems → Node → Mems × Node} (hf : f s.mem (s.node.advance t) = x) :
    Ends (onBoth (upMem t f) s) (Ended x) :=
  ends_upMem hu hf (ended_at s.pending x.1 x.2)

/-- A happening that the plant follows, if the module is still up. -/
theorem plantMem_ended (hu : s.node.up = true) {f : Mems → Node → Mems × Node} (hf : f s.mem (s.node.advance t) = x) :
    Ends (onBoth (plantMem t f) s) (Ended x) :=
  ends_plantMem_settled hu t f (m' := x.1) (n' := x.2) hf (ended_at s.pending x.1 x.2)
    (fun _ => ended_settle s.pending x.1 x.2)

/-- A happening that reaches the module alone. -/
theorem upAt_ended (hu : s.node.up = true) {f : Node → Node} {n : Node} (hf : f (s.node.advance t) = n) :
    Ends (onNode (upAt t f) s) (Ended (s.mem, n)) :=
  ends_upAt hu t f (hf ▸ ended_at s.pending s.mem _)

end

end Sys2Proof.Machine
end

section
/-! SUPPORT. Which accesses of a host port wait, and how those that do not are refused (R22, R106, R112); what a read leaves. -/

namespace Sys2Proof.Machine
open Sys2Proof

/-! ### Waiting for a crossing (R22, R112) -/

section
variable {a : Nat} {v : Word} {n : Node} {x : RegAttr}

theorem accWaits_read_home (h : regIsl a false = 0) : accWaits n (.rd a) = false := by simp [accWaits, h]

theorem accWaits_read_crossing (ha : (regAttr a).isSome = true) (hi : regIsl a false ≠ 0)
    (hr : n.isRun (regIsl a false) = true) : accWaits n (.rd a) = true := by simp [accWaits, ha, hi, hr]

theorem accWaits_read_noRegister (ha : regAttr a = none) : accWaits n (.rd a) = false := by simp [accWaits, ha]

theorem accWaits_read_down (hr : n.isRun (regIsl a false) = false) : accWaits n (.rd a) = false := by simp [accWaits, hr]

theorem accWaits_write_home (ha : regAttr a = some x) (h : regIsl a true = 0) : accWaits n (.wr a v) = false := by
  simp [accWaits, ha, h]

theorem accWaits_write_noRegister (ha : regAttr a = none) : accWaits n (.wr a v) = false := by simp [accWaits, ha]

theorem accWaits_write_down (ha : regAttr a = some x) (hr : n.isRun (regIsl a true) = false) : accWaits n (.wr a v) = false := by
  simp [accWaits, ha, hr]

theorem accWaits_write_locked (ha : regAttr a = some x) (hl : levelLocked n a x = true) : accWaits n (.wr a v) = false := by
  simp [accWaits, ha, hl]

theorem accWaits_write_forwarded (ha : regAttr a = some x) (hf : forwards n a = true) : accWaits n (.wr a v) = false := by
  simp [accWaits, ha, hf]

/-- A write that is carried out across a causeway waits for it. -/
theorem accWaits_write_crossing {s : State} (h : Takes s a) (ha : (regAttr a).isSome = true) (hi : regIsl a true ≠ 0) :
    accWaits s.node (.wr a v) = true := by
  obtain ⟨y, hy⟩ := Option.isSome_iff_exists.mp ha
  obtain ⟨_, hf, hr, hl⟩ := h
  rw [hy, Option.any_some] at hl
  simp [accWaits, hy, hi, hr, hf, hl]

end

/-! ### Reads (R106) -/

section
variable {p : HostPort} {a : Nat} {m : Mems} {n : Node}

theorem readAccess_noRegister (ha : regAttr a = none) : readAccess p a m n = accRefuse 2 m n := by simp [readAccess, ha]

theorem readAccess_islandDown (ha : (regAttr a).isSome = true) (hr : n.isRun (regIsl a false) = false)
    (hv : isValue a = false) (hq : isQseq a = false) : readAccess p a m n = accRefuse 1 m n := by
  obtain ⟨x, hx⟩ := Option.isSome_iff_exists.mp ha
  simp [readAccess, hx, hr, hv, hq]

/-- A write that the register takes, whatever the module's time, sessions and SPI port were made before it. -/
theorem writeAccess_carried {st : Nat} {v : Word} {x : Bool} {m' : Mems} {n' : Node} {s : State}
    (ha : regAttr a = some ⟨x, .wr⟩) (h : Takes s a) (hr : regWrite p a v s.mem s.node = (st, m', n')) :
    writeAccess p a v s.mem s.node
      = { st := st, mem := m', node := if x && st == 0 then expertTouch (regBlk a) n' else n' } := by
  rw [← advance_zero s.node] at hr
  have hw := writeAccess_taken ha h hr
  rwa [advance_zero] at hw

end

/-! ### What a read leaves as it was -/

/-- What a read by port `p` may change: its latches, the store's FRESH, the message queue, the calendar's shadows and the
windows that a read moves on. -/
def readParts (p : HostPort) : List Part := [.port p, .store, .evt, .clk, .ld, .dup, .ca, .shp]

section
variable {pt : Part} {p : HostPort} (a : Nat) (m : Mems) (n : Node)

theorem globRead_get (hpt : pt ∉ [Part.port p]) : Part.get (globRead n p a).2 pt = Part.get n pt := by
  unfold globRead
  (repeat' split) <;> simp only [modPort_get p _ n hpt]

theorem evtRead_get (hpt : pt ∉ [Part.evt]) : Part.get (evtRead n a).2 pt = Part.get n pt := by
  unfold evtRead
  simp only [apply_ite Prod.snd, evtMsgqRead_get n hpt, get_ite, ite_self]

theorem calendarRead_get (hpt : pt ∉ [Part.clk]) : Part.get (calendarRead p a n).2 pt = Part.get n pt := by
  unfold calendarRead
  simp only [apply_ite Prod.snd, shadowRead_get _ _ n hpt, get_ite, ite_self]

theorem recorderRead_get (hpt : pt ∉ [Part.port p]) : Part.get (recorderRead p a n).2.2 pt = Part.get n pt := by
  unfold recorderRead
  split <;> simp only [msLoRead_get p n hpt, msHiRead_get p n hpt, recDataRead_get p n hpt, stDataRead_get p n hpt]

theorem snapRead_get (hpt : pt ∉ [Part.port p]) : Part.get (snapRead p a n).2.2 pt = Part.get n pt := by
  unfold snapRead
  dsimp only
  split <;> simp only [snapDataRead_get p n hpt]

theorem readLow_get (hpt : pt ∉ readParts p) : Part.get (readLow p a m n).2.2 pt = Part.get n pt := by
  have hp : pt ∉ [Part.port p] := by simp_all [readParts]
  have he : pt ∉ [Part.evt] := by simp_all [readParts]
  have hc : pt ∉ [Part.clk] := by simp_all [readParts]
  have hl : pt ∉ [Part.ld] := by simp_all [readParts]
  unfold readLow
  simp only [apply_ite Prod.snd, get_ite, globRead_get a n hp, evtRead_get a n he, calendarRead_get a n hc,
    recorderRead_get a n hp, snapRead_get a n hp, stgDataRead_get m n hl, ite_self]

theorem readHigh_get (hpt : pt ∉ readParts p) : Part.get (readHigh p a m n).2.2 pt = Part.get n pt := by
  have hp : pt ∉ [Part.port p] := by simp_all [readParts]
  have hc : pt ∉ [Part.ca, .port p] := by simp_all [readParts]
  have hs : pt ∉ [Part.shp] := by simp_all [readParts]
  have hd : pt ∉ [Part.dup, .port p] := by simp_all [readParts]
  have hfw : Part.get (fwDataRead m n).2 pt = Part.get n pt := get_upd_dup n _ (.inl (by simp_all [readParts])) (.inr rfl)
  unfold readHigh
  simp only [apply_ite Prod.snd, get_ite, caBufData_get p _ n hc, shMcStep_get n hs, positionRead_leaves p a n pt hp,
    lnCapData_get p _ n hp, almLogData_get p n hd, hfw, ite_self]

/-- A read leaves the module outside `readParts`. -/
theorem regRead_get (hpt : pt ∉ readParts p) : Part.get (regRead p a m n).2.2 pt = Part.get n pt := by
  have hv : pt ∉ [Part.store, .port p] := by simp_all [readParts]
  have hq : pt ∉ [Part.port p] := by simp_all [readParts]
  unfold regRead
  split
  · rfl
  · simp only [apply_ite Prod.snd, get_ite, valueRead_get p _ n hv, qseqRead_get p _ n hq, readLow_get a m n hpt,
      readHigh_get a m n hpt, ite_self]

theorem regRead_spi : (regRead p a m n).2.2.spi = n.spi := regRead_get (pt := .spi) (p := p) a m n (by simp [readParts])

theorem regRead_wf : (regRead p a m n).2.2.wf = n.wf := regRead_get (pt := .wf) (p := p) a m n (by simp [readParts])

end

end Sys2Proof.Machine
end

section
/-! SUPPORT. Frames of the SPI port: what they shift out, and how the access of a frame starts (R109 to R113, R451). -/

namespace Sys2Proof.Machine
open Sys2Proof

/-! ### What a frame shifts out -/

/-- A frame that meets no outstanding access has shifted out the answer to the one before (R111). -/
def spiCleared (n : Node) : Node := { spiShift n.spi.resp n with spi.resp := {} }

section
variable {op : Nat} {tag tg : Byte} {a : Nat} {v : Word} {c : Acc} {m : Mems} {n : Node}

theorem spiFrame_outstanding (h : n.spi.outst = some (tg, c)) : spiFrame op tag a v m n = (m, spiHeld tg c n) := by
  simp [spiFrame, h]

theorem spiFrame_nop (h : n.spi.outst = none) : spiFrame 0 tag a v m n = (m, spiCleared n) := by
  simp [spiFrame, h, spiCleared]

theorem spiFrame_read (h : n.spi.outst = none) : spiFrame 1 tag a v m n = spiStart tag (.rd a) m (spiCleared n) := by
  simp [spiFrame, h, spiCleared]

theorem spiFrame_write (h : n.spi.outst = none) : spiFrame 2 tag a v m n = spiStart tag (.wr a v) m (spiCleared n) := by
  simp [spiFrame, h, spiCleared]

theorem spiFrame_reserved (h : n.spi.outst = none) (hop : 2 < op) : spiFrame op tag a v m n
    = (m, { spiCleared n with spi.resp := { status := 2, tag := tag, addr := a, data := 0#32 } }) := by
  obtain ⟨k, rfl⟩ : ∃ k, op = k + 3 := ⟨op - 3, by omega⟩
  simp [spiFrame, h, spiCleared]

/-- BUSY, or first the CRC_ERR of a bad frame (R106, R112). -/
theorem spiHeld_spi : (spiHeld tag c n).spi = { n.spi with
    out := if n.spi.crcErr then { status := 5 } else { status := 4, tag := tag, addr := accAddr c, data := 0#32 },
    miso := (if n.spi.crcErr then { status := 5 } else { status := 4, tag := tag, addr := accAddr c, data := 0#32 } : SpiResp).wire,
    crcErr := false } := rfl

/-! ### How an access starts -/

theorem spiStart_waits (h : accWaits n c = true) : spiStart tag c m n = (m, { n with spi.outst := some (tag, c) }) := by
  simp [spiStart, h]

theorem spiStart_answered {o : AccOut} (h : accWaits n c = false) (ho : accDo .m1 c m n = o) (hf : o.fwd = false) :
    spiStart tag c m n = (o.mem, { o.node with spi.resp := spiAnswer tag c o }) := by
  simp [spiStart, h, ho, hf]

theorem spiAnswer_of_noData {o : AccOut} (h : o.data = 0#32) :
    spiAnswer tag c o = { status := o.st, tag := tag, addr := accAddr c, data := 0#32 } := by
  simp only [spiAnswer, h, ite_self]

theorem spiStart_forwarded {o : AccOut} (h : accWaits n c = false) (ho : accDo .m1 c m n = o) (hf : o.fwd = true) :
    spiStart tag c m n = (o.mem, pushFwd .spi { o.node with spi.outst := some (tag, c) }) := by
  simp [spiStart, h, ho, hf]

end

/-! ### The commands -/

section
variable {tag : Byte} {a : BitVec 15} {v : Word} {t : Nat} {s : State}

/-- A frame that meets an outstanding access does nothing. -/
theorem spiOutstanding_ends {tg : Byte} {c : Acc} (hu : s.node.up = true) (ho : s.node.spi.outst = some (tg, c)) :
    ∀ i ∈ [Instr.spiNop 0#4 tag a t, .spiRead tag a t, .spiWrite tag a v t],
      Ends (exec i s) (Ended (s.mem, spiHeld tg c (s.node.advance t))) := by
  simp only [List.forall_mem_cons, List.not_mem_nil, false_implies, implies_true, and_true]
  exact ⟨upMem_ended hu (spiFrame_outstanding ho), upMem_ended hu (spiFrame_outstanding ho),
    plantMem_ended hu (spiFrame_outstanding ho)⟩

variable (hu : s.node.up = true) (hs : s.node.spi.outst = none)
include hu hs

theorem spiRead_ends {x : Mems × Node} (hx : spiStart tag (.rd a.toNat) s.mem (spiCleared (s.node.advance t)) = x) :
    Ends (exec (.spiRead tag a t) s) (Ended x) :=
  upMem_ended hu ((spiFrame_read (n := s.node.advance t) hs).trans hx)

theorem spiWrite_ends {x : Mems × Node} (hx : spiStart tag (.wr a.toNat v) s.mem (spiCleared (s.node.advance t)) = x) :
    Ends (exec (.spiWrite tag a v t) s) (Ended x) :=
  plantMem_ended hu ((spiFrame_write (n := s.node.advance t) hs).trans hx)

/-- A read that ends with a status and no effect is answered in the next frame. -/
theorem spiRead_refused_ends {st : Nat} (hw : accWaits (spiCleared (s.node.advance t)) (.rd a.toNat) = false)
    (hr : readAccess .m1 a.toNat s.mem (spiCleared (s.node.advance t)) = accRefuse st s.mem (spiCleared (s.node.advance t))) :
    Ends (exec (.spiRead tag a t) s) (fun u => u.mem = s.mem ∧ u.node.spi = { s.node.spi with
      out := s.node.spi.resp, miso := s.node.spi.resp.wire, resp := { status := st, tag := tag, addr := a.toNat, data := 0#32 } }) := by
  refine (spiRead_ends hu hs (spiStart_answered hw hr rfl)).imp (fun u h => ⟨h.mem, h.spi.trans ?_⟩)
  rw [spiAnswer_of_noData rfl]
  rfl

/-- A write that ends with a status and no effect of its own. -/
theorem spiWrite_refused_ends {st : Nat} {n : Node} (hw : accWaits (spiCleared (s.node.advance t)) (.wr a.toNat v) = false)
    (hr : writeAccess .m1 a.toNat v s.mem (spiCleared (s.node.advance t)) = { st := st, mem := s.mem, node := n }) :
    Ends (exec (.spiWrite tag a v t) s) (fun u => u.mem = s.mem ∧ (∀ k, n.evt.flag k = true → u.node.evt.flag k = true)
      ∧ u.node.spi.resp = { status := st, tag := tag, addr := a.toNat, data := 0#32 }) := by
  refine (spiWrite_ends hu hs (spiStart_answered hw hr rfl)).imp (fun u h => ⟨h.mem, h.flag, ?_⟩)
  rw [h.spi, spiAnswer_of_noData rfl]
  rfl

end

section
variable {tag : Byte} {a : BitVec 15} {v : Word} {t : Nat} {s : State}

/-- A read within I0 is answered in the next frame with the register's word or status. -/
theorem spiRead_served_ends {st : Nat} {w : Word} {n' : Node} (h : Serves s a.toNat) (hs : s.node.spi.outst = none)
    (ha : (regAttr a.toNat).isSome = true) (hi : regIsl a.toNat false = 0)
    (hr : regRead .m1 a.toNat s.mem (spiCleared (s.node.advance t)) = (st, w, n')) :
    Ends (exec (.spiRead tag a t) s) (fun u => u.node.spi.out = s.node.spi.resp ∧ u.node.spi.outst = none
      ∧ u.node.spi.resp = { status := st, tag := tag, addr := a.toNat, data := if st = 0 then w else 0#32 } ∧ u.mem = s.mem) := by
  have ho : accDo .m1 (.rd a.toNat) s.mem (spiCleared (s.node.advance t)) = { st := st, data := w, mem := s.mem, node := n' } :=
    readAccess_served ha h.2 hr
  have hn : n'.spi = (spiCleared (s.node.advance t)).spi := by
    have hk := regRead_spi (p := .m1) a.toNat s.mem (spiCleared (s.node.advance t))
    rwa [hr] at hk
  refine (spiRead_ends h.1 hs (spiStart_answered (accWaits_read_home hi) ho rfl)).imp (fun u hu => ?_)
  have hspi : u.node.spi = { n'.spi with resp := spiAnswer tag (.rd a.toNat) { st := st, data := w, mem := s.mem, node := n' } } :=
    hu.spi
  rw [hspi, hn]
  exact ⟨rfl, hs, rfl, hu.mem⟩

/-- A read across a causeway stays outstanding (R112). -/
theorem spiRead_crossing_ends (h : Serves s a.toNat) (hs : s.node.spi.outst = none)
    (ha : (regAttr a.toNat).isSome = true) (hi : regIsl a.toNat false ≠ 0) :
    Ends (exec (.spiRead tag a t) s) (fun u => u.node.spi = { s.node.spi with
      out := s.node.spi.resp, miso := s.node.spi.resp.wire, resp := {}, outst := some (tag, .rd a.toNat) } ∧ u.mem = s.mem) :=
  (spiRead_ends h.1 hs (spiStart_waits (accWaits_read_crossing (n := spiCleared (s.node.advance t)) ha hi h.2))).imp
    (fun _ hu => ⟨hu.spi, hu.mem⟩)

theorem spiWrite_crossing_ends (h : Takes s a.toNat) (hs : s.node.spi.outst = none) (ha : (regAttr a.toNat).isSome = true)
    (hi : regIsl a.toNat true ≠ 0) :
    Ends (exec (.spiWrite tag a v t) s) (fun u => u.node.spi = { s.node.spi with
      out := s.node.spi.resp, miso := s.node.spi.resp.wire, resp := {}, outst := some (tag, .wr a.toNat v) } ∧ u.mem = s.mem) :=
  (spiWrite_ends h.1 hs (spiStart_waits
    (accWaits_write_crossing (s := { s with node := spiCleared (s.node.advance t) }) h ha hi))).imp (fun _ hu => ⟨hu.spi, hu.mem⟩)

/-- A write that the register takes within I0 has its effect at once. -/
theorem spiWrite_taken_ends {st : Nat} {x : Bool} {m' : Mems} {n' : Node} (h : Takes s a.toNat) (hs : s.node.spi.outst = none)
    (ha : regAttr a.toNat = some ⟨x, .wr⟩) (hi : regIsl a.toNat true = 0)
    (hr : regWrite .m1 a.toNat v s.mem (spiCleared (s.node.advance t)) = (st, m', n')) :
    Ends (exec (.spiWrite tag a v t) s) (fun u => u.mem = m' ∧ u.node.ld = n'.ld
      ∧ u.node.spi.resp = { status := st, tag := tag, addr := a.toNat, data := 0#32 }) := by
  have ho := writeAccess_carried (s := { s with node := spiCleared (s.node.advance t) }) ha h hr
  refine (spiWrite_ends h.1 hs (spiStart_answered (accWaits_write_home ha hi) ho rfl)).imp (fun u hu => ⟨hu.mem, hu.ld.trans ?_, ?_⟩)
  · dsimp only
    split <;> simp
  · rw [hu.spi, spiAnswer_of_noData rfl]
    rfl

/-- A plant write of a STANDBY stays outstanding until the partner answers (R451). -/
theorem spiWrite_forwarded_ends {x : RegAttr} (hu : s.node.up = true) (hs : s.node.spi.outst = none)
    (ha : regAttr a.toNat = some x) (hf : forwards s.node a.toNat = true) (hk : linkUp s.node = true)
    (hl : levelLocked s.node a.toNat x = false) :
    Ends (exec (.spiWrite tag a v t) s) (fun u => u.mem = s.mem ∧ u.node.spi.outst = some (tag, .wr a.toNat v)
      ∧ u.node.net.fwds = s.node.net.fwds ++ [.spi]) := by
  have ho := writeAccess_forward (n := spiCleared (s.node.advance t)) .m1 v s.mem ha hf hk hl
  refine (spiWrite_ends hu hs (spiStart_forwarded (accWaits_write_forwarded ha hf) ho rfl)).imp
    (fun u hu => ⟨hu.mem, ?_, hu.fwds.trans ?_⟩)
  · rw [hu.spi]
    rfl
  · have hnet : ∀ n : Node, (if x.x then expertTouch (regBlk a.toNat) n else n).net = n.net := by
      intro n
      split <;> simp
    exact congrArg (fun e : Net => e.fwds ++ [.spi]) (hnet _)

/-- A broken frame raises event 8; the frame after it carries CRC_ERR (R113). -/
theorem spiFrameError_ends (hu : s.node.up = true) : Ends (exec (.spiFrameError t) s)
    (fun u => u.node.spi = (spiError (s.node.advance t)).spi ∧ u.node.evt.flag 8 = true ∧ u.mem = s.mem) := by
  have hraise : (spiError (s.node.advance t)).evt.flag 8 = true := by
    unfold spiError
    split <;> exact raise_flag 8 _ rfl (by omega)
  exact (upAt_ended hu rfl).imp (fun u h => ⟨h.spi, h.flag 8 hraise, h.mem⟩)

theorem spiError_spi_free {n : Node} (h : n.spi.outst = none) : (spiError n).spi
    = { n.spi with out := n.spi.resp, miso := n.spi.resp.wire, resp := { status := 5 } } := by
  simp [spiError, h, spiShift]

theorem spiError_spi_outstanding {n : Node} {tg : Byte} {c : Acc} (h : n.spi.outst = some (tg, c)) :
    (spiError n).spi = { (spiHeld tg c n).spi with crcErr := true } := by
  simp [spiError, h]

end

/-- STG_ADDR is written within I0. -/
theorem regIsl_stgAddr : regIsl 0x0840 true = 0 := by decide +kernel

/-- Settles O20: a frame is held while an access is outstanding; otherwise it shifts out the last answer and its command starts
an access, which waits, is answered or is handed on. -/
theorem spiFrames : Obligations.SpiFrames := by
  refine ⟨?nop, ?reserved, fun tag a t st w n' s h hs ha hi hr => spiRead_served_ends h hs ha hi hr,
    fun tag a t s h hs ha hi => spiRead_crossing_ends h hs ha hi, ?readNoRegister, ?stgAddr,
    fun tag a v t s h hs ha hi => spiWrite_crossing_ends h hs ha hi, ?outstanding, ?errorFree, ?errorOutstanding, ?readDown,
    ?taken, ?writeNoRegister, ?writeDown, ?locked, fun tag a v t x s hu hs ha hf hk hl => spiWrite_forwarded_ends hu hs ha hf hk hl⟩
  case nop => exact fun tag a t s hu hs => ends_upMem hu (spiFrame_nop hs) ⟨rfl, rfl⟩
  case reserved =>
    refine fun op tag a t s hu hs hop => (upMem_ended hu (spiFrame_reserved hs hop)).imp (fun u h => ?_)
    rw [h.spi]
    exact ⟨rfl, rfl, rfl, h.mem⟩
  case readNoRegister =>
    refine fun tag a t s hu hs ha =>
      (spiRead_refused_ends hu hs (accWaits_read_noRegister ha) (readAccess_noRegister ha)).imp (fun u ⟨_, h⟩ => ?_)
    rw [h]
    exact ⟨rfl, rfl⟩
  case stgAddr =>
    intro tag v t s h hs h5 h8
    refine (spiWrite_taken_ends (a := 0x0840#15) h hs (regAttr_loader _ (by simp)) regIsl_stgAddr (regWrite_stgAddr .m1 v _ _)).imp
      (fun u ⟨_, hld, hresp⟩ => ⟨?_, hresp⟩)
    rw [hld, stgAddrWrite_of_free (n := spiCleared (s.node.advance t)) (stgHeld_of_ne h5 h8)]
    rfl
  case outstanding =>
    refine fun tag tg a c v t s hu ho i hi => (spiOutstanding_ends hu ho i hi).imp (fun u h => ?_)
    rw [h.spi, spiHeld_spi]
    exact ⟨h.mem, rfl, rfl, ho, rfl⟩
  case errorFree =>
    refine fun t s hu ho => (spiFrameError_ends hu).imp (fun u ⟨hspi, hflag, hm⟩ => ?_)
    rw [hspi, spiError_spi_free (n := s.node.advance t) ho]
    exact ⟨rfl, rfl, hflag, hm⟩
  case errorOutstanding =>
    refine fun tg c t s hu ho => (spiFrameError_ends hu).imp (fun u ⟨hspi, hflag, hm⟩ => ?_)
    rw [hspi, spiError_spi_outstanding (n := s.node.advance t) ho]
    exact ⟨ho, rfl, hflag, hm⟩
  case readDown =>
    refine fun tag a t s hu hs ha hr hv hq =>
      (spiRead_refused_ends hu hs (accWaits_read_down hr) (readAccess_islandDown ha hr hv hq)).imp (fun u ⟨_, h⟩ => ?_)
    rw [h]
    exact ⟨rfl, hs, rfl⟩
  case taken =>
    exact fun tag a v t st x m' n' s h hs ha hi hr =>
      (spiWrite_taken_ends h hs ha hi hr).imp (fun _ ⟨hm, _, hresp⟩ => ⟨hm, hresp⟩)
  case writeNoRegister =>
    exact fun tag a v t s hu hs ha =>
      (spiWrite_refused_ends hu hs (accWaits_write_noRegister ha) (writeAccess_noRegister .m1 v _ ha)).imp
        (fun _ ⟨hm, _, hresp⟩ => ⟨hm, hresp⟩)
  case writeDown =>
    exact fun tag a v t x s hu hs ha hf hr =>
      (spiWrite_refused_ends hu hs (accWaits_write_down ha hr) (writeAccess_islandDown .m1 v _ ha hf hr)).imp
        (fun _ ⟨hm, _, hresp⟩ => ⟨hm, hresp⟩)
  case locked =>
    exact fun tag a v t x s hu hs ha hf hr hl =>
      (spiWrite_refused_ends hu hs (accWaits_write_locked ha hl) (writeAccess_locked .m1 v _ ha hf hr hl)).imp
        (fun _ ⟨hm, hflag, hresp⟩ => ⟨hm, hflag 7 (raise_flag 7 _ rfl (by omega)), hresp⟩)

end Sys2Proof.Machine
end

section
/-! SUPPORT. Snapshots of the result store: trigger, copy, address and data (R124 to R126). -/

namespace Sys2Proof.Machine
open Sys2Proof

/-! ### The registers -/

/-- SNAP_CTRL, SNAP_ADDR and SNAP_DATA. -/
theorem regAttr_snap : regAttr 0x1C00 = some ⟨false, .wr⟩ ∧ regAttr 0x1C10 = some ⟨false, .wr⟩ ∧ regAttr 0x1C14 = some ⟨false, .ro⟩ := by
  decide +kernel

section
variable (p : HostPort) (v : Word) (m : Mems) (n : Node)

theorem regWrite_snapCtrl : regWrite p 0x1C00 1#32 m n = (0, m, snapTrigger p n) := rfl

theorem regWrite_snapAddr : regWrite p 0x1C10 v m n = ((snapAddrWrite p v n).1, m, (snapAddrWrite p v n).2) := rfl

theorem regRead_snapData : regRead p 0x1C14 m n = snapDataRead p n := rfl

end

/-! ### The operations -/

/-- A snapshot once its copy is complete (R124). -/
def snapShown (x : Snap) : Snap :=
  { x with copying := false, ready := true, taken := true, buf := x.pendBuf, pendBuf := [], seq := x.seq + 1#8, cnt := x.cnt + 1#32 }

section
variable {p : HostPort} {v : Word} {n : Node}

theorem snapTrigger_of_copying (h : (n.port p).snap.copying = true) : snapTrigger p n = n := if_pos h

theorem snapTrigger_of_idle (h : (n.port p).snap.copying = false) : snapTrigger p n = n.modPort p (fun q => { q with
    snap := { (n.port p).snap with copying := true, ready := false, buf := [], pendBuf := snapFrozen p n, time := n.now } }) :=
  if_neg (by simp [h])

theorem snapDone_of_copying (h : (n.port p).snap.copying = true) :
    snapDone p n = raise 9 (n.modPort p (fun q => { q with snap := snapShown (n.port p).snap })) := if_pos h

theorem snapComplete_of_copying (h : (n.port p).snap.copying = true) :
    snapComplete p n = ((snapDone p n).wf.filter (fun s => netPort s.net == p)).foldl snapAnswer (snapDone p n) := if_pos h

theorem snapComplete_of_idle (h : (n.port p).snap.copying = false) : snapComplete p n = n := if_neg (by simp [h])

theorem snapAddrWrite_of_result (h : (isValue v.toNat || isQseq v.toNat) = true) :
    snapAddrWrite p v n = (0, n.modPort p (fun q => { q with snap.addr := v.toNat })) := if_pos h

theorem snapAddrWrite_of_other (h : (isValue v.toNat || isQseq v.toNat) = false) : snapAddrWrite p v n = (2, n) :=
  if_neg (by simp [h])

theorem snapDataRead_of_ready (hr : (n.port p).snap.ready = true) (hc : (n.port p).snap.copying = false)
    (ha : (isValue (n.port p).snap.addr || isQseq (n.port p).snap.addr) = true) : snapDataRead p n
      = (0, tget 0#32 (n.port p).snap.buf (n.port p).snap.addr,
        n.modPort p (fun q => { q with snap.addr := nextResult (n.port p).snap.addr })) := by
  simp only [snapDataRead, hr, hc, ha, Bool.not_true, Bool.or_self, Bool.false_eq_true, if_false]

theorem snapDataRead_refused (h : (n.port p).snap.ready = false ∨ (n.port p).snap.copying = true
    ∨ (isValue (n.port p).snap.addr || isQseq (n.port p).snap.addr) = false) : snapDataRead p n = (2, 0#32, n) := by
  refine if_pos ?_
  rcases h with h | h | h <;> simp only [h, Bool.not_false, Bool.or_true, Bool.true_or]

/-- The answers that a completed copy brings reach sessions and frames alone. -/
theorem snapAnswers_get {pt : Part} (hpt : pt ∉ [Part.tx, .wf]) (l : List Session) (n : Node) :
    Part.get (l.foldl snapAnswer n) pt = Part.get n pt :=
  get_foldl snapAnswer l n (fun m s => snapAnswer_get m s hpt)

theorem snapAnswers_jn (l : List Session) (n : Node) : (l.foldl snapAnswer n).jn = n.jn := by
  induction l generalizing n with
  | nil => rfl
  | cons x r ih =>
    refine (ih _).trans ?_
    unfold snapAnswer
    split <;> rfl

theorem snapDone_snap (h : (n.port p).snap.copying = true) : ((snapDone p n).port p).snap = snapShown (n.port p).snap := by
  have hraise : ∀ k : Node, (raise 9 k).port p = k.port p := fun k => raise_get (pt := .port p) 9 k (by simp)
  rw [snapDone_of_copying h, hraise, port_modPort]

theorem snapDone_raises (h : (n.port p).snap.copying = true) : (snapDone p n).evt.flag 9 = true := by
  rw [snapDone_of_copying h]
  exact raise_flag 9 _ rfl (by omega)

theorem snapDone_jn : (snapDone p n).jn = n.jn := by
  unfold snapDone
  dsimp only
  split <;> simp

theorem snapDone_wf : (snapDone p n).wf = n.wf := by
  unfold snapDone
  dsimp only
  split <;> simp

/-- What a completed copy leaves at its port, of the events and of the junction. -/
theorem snapComplete_shown (h : (n.port p).snap.copying = true) : ((snapComplete p n).port p).snap = snapShown (n.port p).snap
    ∧ (snapComplete p n).evt.flag 9 = true ∧ (snapComplete p n).jn = n.jn := by
  have hport := snapAnswers_get (pt := .port p) (by simp) ((snapDone p n).wf.filter (fun s => netPort s.net == p)) (snapDone p n)
  have hevt := snapAnswers_get (pt := .evt) (by simp) ((snapDone p n).wf.filter (fun s => netPort s.net == p)) (snapDone p n)
  rw [snapComplete_of_copying h]
  refine ⟨(congrArg Port.snap hport).trans (snapDone_snap h), ?_, (snapAnswers_jn _ _).trans snapDone_jn⟩
  exact (congrArg (fun e : Events => e.flag 9) hevt).trans (snapDone_raises h)

/-- The one session, whose SNAP waits, is answered (R124). -/
theorem snapComplete_wf {x : Session} {seq : BitVec 16} (h : (n.port (netPort x.net)).snap.copying = true) (hw : n.wf = [x])
    (hx : x.outst = some (seq, 0x40, .snap)) : (snapComplete (netPort x.net) n).wf = [{ x with
      resp := some { op := 0x40, status := 0, payload := snapPay (snapDone (netPort x.net) n) (netPort x.net) }, outst := none }] := by
  have hone : (snapDone (netPort x.net) n).wf = [x] := snapDone_wf.trans hw
  have hf : [x].filter (fun s => netPort s.net == netPort x.net) = [x] := List.filter_eq_self.mpr (by simp)
  rw [snapComplete_of_copying h, hone, hf, List.foldl_cons, List.foldl_nil]
  simp [snapAnswer, hx, wfAnswer, wfSend, sendFrame, modSession, hone]

end

/-! ### The commands -/

theorem advance_port (p : HostPort) (t : Nat) (n : Node) : (n.advance t).port p = n.port p := by cases p <;> rfl

/-- A timed write carried out, not followed by the plant. -/
theorem ends_upMemWrite {s : State} {a : Nat} {x : Bool} (ha : regAttr a = some ⟨x, .wr⟩) (h : Takes s a) (t : Nat) (p : HostPort)
    (v : Word) {st : Nat} {m' : Mems} {n' : Node} (hr : regWrite p a v s.mem (s.node.advance t) = (st, m', n'))
    {P : State → Prop} (hP : P { s with mem := m', node := wrDone p a x (st, m', n') }) :
    Ends (onBoth (upMem t (hostDo p (.wr a v))) s) P := by
  refine ⟨_, rfl, ?_⟩
  simp only [upMem_wr ha h t p v hr]
  exact hP

/-- A write carried out leaves of a port's snapshot what the register's operation made of it. -/
theorem wrDone_snap (p : HostPort) (a : Nat) (x : Bool) (r : Nat × Mems × Node) :
    ((wrDone p a x r).port p).snap = (r.2.2.port p).snap := by
  have htouch : ∀ (b : Nat) (n : Node), (expertTouch b n).port p = n.port p := fun b n => by
    simp only [Node.port, expertTouch_ports]
  simp only [wrDone, port_modPort]
  split
  · rw [htouch]
  · rfl

section
variable (p : HostPort) (v : Word) (t : Nat) (s : State)

theorem snapTrigger_ends (h : Takes s 0x1C00) {k : Node} (hk : snapTrigger p (s.node.advance t) = k) :
    Ends (exec (.snapTrigger p t) s) (fun u => Acks u p 0x1C00 ∧ (u.node.port p).snap = (k.port p).snap ∧ u.node.jn = k.jn) :=
  ends_upMemWrite regAttr_snap.1 h t p 1#32 (hk ▸ regWrite_snapCtrl p s.mem (s.node.advance t))
    ⟨wrDone_ans _ _ _ _, wrDone_snap _ _ _ _, wrDone_jn _ _ _ _⟩

theorem snapAddrWrite_ends (h : Takes s 0x1C10) {st : Nat} {k : Node} (hk : snapAddrWrite p v s.node = (st, k)) :
    Ends (exec (.snapAddrWrite p v) s) (fun u => Answered u p st 0x1C10 0#32 ∧ (u.node.port p).snap = (k.port p).snap) := by
  have hr := regWrite_snapAddr p v s.mem s.node
  rw [hk] at hr
  exact ends_hostOp regAttr_snap.2.1 h p v hr ⟨wrDone_ans _ _ _ _, wrDone_snap _ _ _ _⟩

theorem snapDataRead_ends (h : Serves s 0x1C14) {st : Nat} {w : Word} {k : Node} (hk : snapDataRead p s.node = (st, w, k)) :
    Ends (exec (.snapDataRead p) s) (fun u => Answered u p st 0x1C14 w ∧ (u.node.port p).snap = (k.port p).snap
      ∧ u.node.jn = k.jn) := by
  refine ends_hostRead regAttr_snap.2.2 h p ((regRead_snapData p s.mem s.node).trans hk) ⟨?_, ?_, modPort_jn _ _ _⟩
  · simp only [Answered, port_modPort]
  · simp only [port_modPort]

theorem snapDataRead_refused_ends (h : Serves s 0x1C14) (hn : (s.node.port p).snap.ready = false
    ∨ (s.node.port p).snap.copying = true ∨ (isValue (s.node.port p).snap.addr || isQseq (s.node.port p).snap.addr) = false) :
    Ends (exec (.snapDataRead p) s) (fun u => Answered u p 2 0x1C14 0#32 ∧ (u.node.port p).snap = (s.node.port p).snap) :=
  (snapDataRead_ends p s h (snapDataRead_refused hn)).imp (fun _ ⟨ha, hs, _⟩ => ⟨ha, hs⟩)

theorem snapCopyComplete_ends (hu : s.node.up = true) (hc : (s.node.port p).snap.copying = true) :
    Ends (exec (.snapCopyComplete p t) s) (fun u => (u.node.port p).snap = snapShown (s.node.port p).snap
      ∧ u.node.evt.flag 9 = true ∧ u.node.jn = s.node.jn) := by
  have hk := snapComplete_shown (n := s.node.advance t) (p := p) (by rwa [advance_port])
  rw [advance_port] at hk
  exact ends_upAt hu t (snapComplete p) hk

/-- A SNAP that waits is answered with the time and the number of the snapshot. -/
theorem snapAnswered_ends (hu : s.node.up = true) {x : Session} {seq : BitVec 16}
    (hc : (s.node.port (netPort x.net)).snap.copying = true) (hw : s.node.wf = [x]) (hx : x.outst = some (seq, 0x40, .snap)) :
    Ends (exec (.snapCopyComplete (netPort x.net) t) s) (fun u => ∃ y, u.node.wf = [y] ∧ y.outst = none
      ∧ y.resp = some { op := 0x40, status := 0, payload := leBytes 8 (s.node.port (netPort x.net)).snap.time
          ++ [(s.node.port (netPort x.net)).snap.seq + 1#8, 0#8, 0#8, 0#8] }) := by
  have hc' : ((s.node.advance t).port (netPort x.net)).snap.copying = true := by rwa [advance_port]
  refine ends_upAt hu t (snapComplete (netPort x.net)) ⟨_, snapComplete_wf hc' hw hx, rfl, ?_⟩
  simp only [snapPay, snapDone_snap hc', advance_port, snapShown]

end

/-- Settles O22: a snapshot is the work of its port; each access and the end of the copy is one case of its operation. -/
theorem snapshots : Obligations.Snapshots := by
  refine ⟨?trigger, ?complete, ?address, ?otherAddress, ?data, fun p s h hr => snapDataRead_refused_ends p s h (.inl hr),
    ?triggerCopying, ?completeIdle, fun x seq t s hu hc hw hx => snapAnswered_ends t s hu hc hw hx,
    fun p s h hn => snapDataRead_refused_ends p s h (.inr hn)⟩
  case trigger =>
    intro p t s h hc
    have hk := snapTrigger_of_idle (p := p) (n := s.node.advance t) (by rwa [advance_port])
    refine (snapTrigger_ends p t s h hk).imp (fun u ⟨hack, hs, hj⟩ => ?_)
    rw [port_modPort] at hs
    rw [hs]
    exact ⟨hack, rfl, rfl, rfl, rfl, hj.trans (modPort_jn _ _ _)⟩
  case complete =>
    refine fun p t s hu hc => (snapCopyComplete_ends p t s hu hc).imp (fun u ⟨hs, hflag, hj⟩ => ?_)
    rw [hs]
    exact ⟨rfl, rfl, rfl, rfl, hflag, hj⟩
  case address =>
    refine fun p v s h ha => (snapAddrWrite_ends p v s h (snapAddrWrite_of_result ha)).imp (fun u ⟨hack, hs⟩ => ⟨hack, ?_⟩)
    rw [hs, port_modPort]
  case otherAddress => exact fun p v s h ha => snapAddrWrite_ends p v s h (snapAddrWrite_of_other ha)
  case data =>
    refine fun p s h hr hc ha => (snapDataRead_ends p s h (snapDataRead_of_ready hr hc ha)).imp (fun u ⟨hans, hs, hj⟩ => ?_)
    rw [hs, port_modPort]
    exact ⟨hans, rfl, hj.trans (modPort_jn _ _ _)⟩
  case triggerCopying =>
    intro p t s h hc
    have hk := snapTrigger_of_copying (p := p) (n := s.node.advance t) (by rwa [advance_port])
    refine (snapTrigger_ends p t s h hk).imp (fun u ⟨hack, hs, _⟩ => ⟨hack, ?_⟩)
    rw [hs, advance_port]
  case completeIdle =>
    exact fun p t s hu hc => ends_upAt hu t (snapComplete p) (snapComplete_of_idle (n := s.node.advance t) (by rwa [advance_port]))

end Sys2Proof.Machine
end

section
/-! SUPPORT. Wayfare sessions: the session a request names, what HELLO, CLOSE and time make of the sessions (R115 to R117). -/

namespace Sys2Proof.Machine
open Sys2Proof

/-! ### The sessions -/

section
variable {q : WfReq} {x y : Session} {k : Word} {f : Session → Session} {n : Node}

/-- The session that a request names is one of its port, its number and its client. -/
theorem findSession_some (h : findSession n q = some x) :
    x ∈ n.wf ∧ x.net = q.net ∧ x.number = q.session ∧ x.client = q.client := by
  have hp := List.find?_some h
  simp only [Bool.and_eq_true, beq_iff_eq] at hp
  obtain ⟨⟨hnet, hnum⟩, hcl⟩ := hp
  exact ⟨List.mem_of_find?_eq_some h, hnet, hnum, hcl⟩

theorem mem_modSession (hy : y ∈ n.wf) (hn : y.number = k) : f y ∈ (modSession k f n).wf :=
  List.mem_map.mpr ⟨y, hy, if_pos hn⟩

theorem of_mem_modSession (hy : y ∈ (modSession k f n).wf) (hn : y.number = k) :
    ∃ z ∈ n.wf, z.number = k ∧ y = f z := by
  obtain ⟨z, hz, rfl⟩ := List.mem_map.mp hy
  by_cases hk : z.number = k
  · exact ⟨z, hz, hk, if_pos hk⟩
  · rw [if_neg hk] at hn
    exact absurd hn hk

/-- Two changes of a session are one. -/
theorem modSession_modSession (hf : ∀ z, (f z).number = z.number) (g : Session → Session) (n : Node) :
    modSession k g (modSession k f n) = modSession k (g ∘ f) n := by
  have hz : ∀ z : Session, (if (if z.number = k then f z else z).number = k then g (if z.number = k then f z else z)
      else if z.number = k then f z else z) = if z.number = k then g (f z) else z := by
    intro z
    by_cases hk : z.number = k
    · simp only [if_pos hk, hf]
    · simp only [if_neg hk]
  simp [modSession, hz]

end

/-! ### HELLO (R117) -/

section
variable {net : Bool} {client mn mx : Nat} {seq : BitVec 16} {sess : Word} {n : Node}

theorem wfHello_off (whole : Bool) (h : wayfareOn n net = false) : wfHello net client mn mx seq sess whole n = n := by
  simp [wfHello, h]

variable (hon : wayfareOn n net = true)
include hon

theorem wfHello_malformed : wfHello net client mn mx seq sess false n
    = wfSend net client 0 1 0#32 seq.toNat 0x11 [] (sessionTick n) := by
  simp [wfHello, hon]

theorem wfHello_noVersion (h : min mx (wfModMax n) < mn ∨ min mx (wfModMax n) = 0) : wfHello net client mn mx seq sess true n
    = wfSend net client 0 1 0#32 seq.toNat 0x12 [] (sessionTick n) := by
  have hv : min mx (wfModMax (sessionTick n)) < mn ∨ min mx (wfModMax (sessionTick n)) = 0 := h
  simp only [wfHello, hon, hv, Bool.not_true, Bool.false_eq_true, if_false, if_true]

variable (h0 : 0 < min mx (wfModMax n)) (hmn : mn ≤ min mx (wfModMax n))
include h0 hmn

theorem wfHello_full (h4 : 4 ≤ ((sessionTick n).wf.filter (fun s => s.net == net)).length) :
    wfHello net client mn mx seq sess true n = wfSend net client 0 1 0#32 seq.toNat 0x13 [] (sessionTick n) := by
  have hv : ¬ (min mx (wfModMax (sessionTick n)) < mn ∨ min mx (wfModMax (sessionTick n)) = 0) :=
    not_or.mpr ⟨Nat.not_lt.mpr hmn, Nat.pos_iff_ne_zero.mp h0⟩
  simp only [wfHello, hon, hv, h4, Bool.not_true, Bool.false_eq_true, if_false, if_true]

theorem wfHello_opens (h4 : ((sessionTick n).wf.filter (fun s => s.net == net)).length < 4) (hs : sess ≠ 0#32)
    (hnew : ∀ x ∈ n.wf, x.number ≠ sess) : wfHello net client mn mx seq sess true n
      = wfSend net client 0 1 0#32 seq.toNat 0
          ([BitVec.ofNat 8 (min mx (wfModMax n)), BitVec.ofNat 8 (wfModMax n), 0#8, 0#8] ++ leBytes 4 sess.toNat
            ++ leBytes 4 0x4A4D7740 ++ leBytes 4 n.rev.toNat)
          { sessionTick n with wf := (sessionTick n).wf
              ++ [{ net := net, number := sess, client := client, ver := min mx (wfModMax n), lastReq := n.now }] } := by
  have hv : ¬ (min mx (wfModMax (sessionTick n)) < mn ∨ min mx (wfModMax (sessionTick n)) = 0) :=
    not_or.mpr ⟨Nat.not_lt.mpr hmn, Nat.pos_iff_ne_zero.mp h0⟩
  have hany : ¬ (sess = 0#32 ∨ (sessionTick n).wf.any (fun s => s.number == sess) = true) := by
    simp only [hs, false_or, List.any_eq_true, beq_iff_eq, not_exists, not_and]
    exact fun x hx => hnew x (List.mem_filter.mp hx).1
  simp only [wfHello, hon, hv, Nat.not_le.mpr h4, hany, Bool.not_true, Bool.false_eq_true, if_false]
  rfl

end

/-! ### What HELLO, time and a damaged datagram make of the sessions -/

section
variable {b : Bool} {c : Nat} {mn mx : Byte} {q : BitVec 16} {sess : Word} {t : Nat} {s : State}

/-- HELLO refused: answered under session 0, and no session opens. -/
theorem hello_refused_ends (hu : s.node.up = true) {w : Bool} {st : Nat}
    (h : wfHello b c mn.toNat mx.toNat q sess w (s.node.advance t)
      = wfSend b c 0 1 0#32 q.toNat st [] (sessionTick (s.node.advance t))) :
    Ends (exec (.hello b c ⟨mn, mx⟩ q sess w t) s) (fun u => u.node.wf = (sessionTick (s.node.advance t)).wf
      ∧ Replied u { net := b, client := c, session := 0#32, seq := q } 0 1 0#32 st []) :=
  (upAt_ended hu h).imp (fun _ hu => ⟨hu.wf, hu.tx _ (sent_mem_sendFrame_tx _ _ _ _)⟩)

theorem sessionExpiry_ends (hu : s.node.up = true) {x : Session} (hx : x ∈ s.node.wf) (hn : x.number = sess) :
    Ends (exec (.sessionExpiry sess t) s) (fun u =>
      (x.lastReq + 30 * 250000000 ≤ timeAfter s t → x ∉ u.node.wf) ∧ (timeAfter s t < x.lastReq + 30 * 250000000 → x ∈ u.node.wf)
      ∧ ∀ y ∈ s.node.wf, y.number ≠ sess → y ∈ u.node.wf) := by
  have hmem : ∀ y, y ∈ (sessionExpiry sess (s.node.advance t)).wf
      ↔ y ∈ s.node.wf ∧ ¬ (y.number = sess ∧ y.lastReq + 30 * 250000000 ≤ timeAfter s t) := by
    intro y
    refine List.mem_filter.trans (and_congr_right (fun _ => ?_))
    rw [Bool.not_eq_true', ← Bool.not_eq_true, Bool.and_eq_true, beq_iff_eq, decide_eq_true_eq]
    exact Iff.rfl
  refine ends_upAt hu t (sessionExpiry sess) ⟨fun hle hin => ?_, fun hlt => ?_, fun y hy hne => ?_⟩
  · exact ((hmem x).mp hin).2 ⟨hn, hle⟩
  · exact (hmem x).mpr ⟨hx, fun h => absurd h.2 (Nat.not_le.mpr hlt)⟩
  · exact (hmem y).mpr ⟨hy, fun h => hne h.1⟩

/-- A damaged datagram raises event 8 and is answered by nothing (R116). -/
theorem wayfareBadDatagram_ends (hu : s.node.up = true) (hon : wayfareOn s.node b = true) :
    Ends (exec (.wayfareBadDatagram b t) s) (fun u => u.node.evt.flag 8 = true ∧ u.node.tx = s.node.tx ∧ u.node.wf = s.node.wf) := by
  have hr : raiseIf (wayfareOn (s.node.advance t) b) 8 (s.node.advance t) = raise 8 (s.node.advance t) := if_pos hon
  refine ends_upAt hu t _ ?_
  rw [hr]
  exact ⟨raise_flag 8 _ rfl (by omega), raise_tx 8 _, raise_wf 8 _⟩

/-- A port without the service does nothing. -/
theorem wayfareOff_ends (hu : s.node.up = true) (hoff : wayfareOn s.node b = false) (w : Bool) :
    ∀ i ∈ [Instr.hello b c ⟨mn, mx⟩ q sess w t, .wayfareBadDatagram b t],
      Ends (exec i s) (fun u => u.node.tx = s.node.tx ∧ u.node.wf = s.node.wf ∧ u.node.evt = s.node.evt) := by
  have hh := wfHello_off (client := c) (mn := mn.toNat) (mx := mx.toNat) (seq := q) (sess := sess) (n := s.node.advance t) w hoff
  have hr : raiseIf (wayfareOn (s.node.advance t) b) 8 (s.node.advance t) = s.node.advance t := if_neg (by
    rw [Bool.not_eq_true]
    exact hoff)
  simp only [List.forall_mem_cons, List.not_mem_nil, false_implies, implies_true, and_true]
  refine ⟨ends_upAt hu t _ ?_, ends_upAt hu t _ ?_⟩
  · rw [hh]
    exact ⟨rfl, rfl, rfl⟩
  · rw [hr]
    exact ⟨rfl, rfl, rfl⟩

end

end Sys2Proof.Machine
end

section
/-! SUPPORT. Wayfare requests: what each is answered before it is executed, and how an executed one ends (R105, R106, R117, R118). -/

namespace Sys2Proof.Machine
open Sys2Proof

/-! ### A request is heard -/

/-- Sessions past their 30 s are gone, and the request is the session's last (R117). -/
def wfHeard (x : Session) (n : Node) : Node := modSession x.number (fun y => { y with lastReq := n.now }) (sessionTick n)

/-- The request is noted as the session's last executed one (R118). -/
def wfTaken (q : WfReq) (x : Session) (n : Node) : Node :=
  modSession x.number (fun y => { y with lastSeq := some q.seq, resp := none }) (wfHeard x n)

/-- The session that the request names, once the request is noted. -/
def Session.taken (q : WfReq) (now : Nat) (x : Session) : Session := { x with lastReq := now, lastSeq := some q.seq, resp := none }

theorem wfTaken_eq (q : WfReq) (x : Session) (n : Node) :
    wfTaken q x n = modSession x.number (Session.taken q n.now) (sessionTick n) := modSession_modSession (by exact fun _ => rfl) _ _

theorem taken_mem_wfTaken {q : WfReq} {x : Session} {n : Node} (h : findSession (sessionTick n) q = some x) :
    x.taken q n.now ∈ (wfTaken q x n).wf := by
  rw [wfTaken_eq]
  exact mem_modSession (findSession_some h).1 rfl

/-! ### What a request is answered -/

section
variable {q : WfReq} {op : Nat} {body : Session → Mems → Node → WfOut} {m : Mems} {n : Node} (hon : wayfareOn n q.net = true)
include hon

theorem wfRequest_noSession (h : findSession (sessionTick n) q = none) : wfRequest q op body m n
    = (m, wfSend q.net q.client 0 (wfOp q op) q.session q.seq.toNat 0x10 [] (sessionTick n)) := by
  simp [wfRequest, hon, h]

theorem wfClose_noSession (h : findSession (sessionTick n) q = none) : wfClose q n
    = wfSend q.net q.client 0 (wfOp q 2) q.session q.seq.toNat 0x10 [] (sessionTick n) := by
  simp [wfClose, hon, h]

variable {x : Session} (hx : findSession (sessionTick n) q = some x)
include hx

theorem wfRequest_repeat (hq : x.lastSeq = some q.seq) {r : WfResp} (hr : x.resp = some r) : wfRequest q op body m n
    = (m, wfSend x.net x.client x.ver r.op x.number q.seq.toNat r.status r.payload (wfHeard x n)) := by
  simp only [wfRequest, hon, hx, hq, hr, Bool.not_true, Bool.false_eq_true, if_false, if_true]
  rfl

theorem wfClose_repeat (hq : x.lastSeq = some q.seq) {r : WfResp} (hr : x.resp = some r) : wfClose q n
    = wfSend x.net x.client x.ver r.op x.number q.seq.toNat r.status r.payload (wfHeard x n) := by
  simp only [wfClose, hon, hx, hq, hr, Bool.not_true, Bool.false_eq_true, if_false, if_true]
  rfl

variable (hq : x.lastSeq ≠ some q.seq)
include hq

theorem wfRequest_busy (ho : x.outst.isSome = true) : wfRequest q op body m n
    = (m, wfSend x.net x.client x.ver (wfOp q op) x.number q.seq.toNat 4 [] (wfHeard x n)) := by
  simp only [wfRequest, hon, hx, hq, ho, Bool.not_true, Bool.false_eq_true, if_false, if_true]
  rfl

theorem wfClose_busy (ho : x.outst.isSome = true) : wfClose q n
    = wfSend x.net x.client x.ver (wfOp q 2) x.number q.seq.toNat 4 [] (wfHeard x n) := by
  simp only [wfClose, hon, hx, hq, ho, Bool.not_true, Bool.false_eq_true, if_false, if_true]
  rfl

variable (ho : x.outst = none)
include ho

theorem wfRequest_malformed (hf : q.form ≠ .whole) :
    wfRequest q op body m n = (m, wfAnswer x (wfOp q op) q.seq 0x11 [] (wfTaken q x n)) := by
  simp only [wfRequest, hon, hx, hq, ho, hf, Option.isSome_none, Bool.not_true, Bool.false_eq_true, if_false, ne_eq,
    not_false_eq_true, if_true]
  rfl

theorem wfClose_malformed (hf : q.form ≠ .whole) :
    wfClose q n = wfAnswer x (wfOp q 2) q.seq 0x11 [] (wfTaken q x n) := by
  simp only [wfClose, hon, hx, hq, ho, hf, Option.isSome_none, Bool.not_true, Bool.false_eq_true, if_false, ne_eq,
    not_false_eq_true, if_true, wfTaken_eq, wfAnswer]
  rw [modSession_modSession (by exact fun _ => rfl), modSession_modSession (by exact fun _ => rfl)]
  rfl

theorem wfClose_closes (hf : q.form = .whole) : wfClose q n = wfSend x.net x.client x.ver 2 x.number q.seq.toNat 0 []
    { sessionTick n with wf := (sessionTick n).wf.filter (fun y => y.number != x.number) } := by
  simp only [wfClose, hon, hx, hq, ho, hf, Option.isSome_none, Bool.not_true, Bool.false_eq_true, if_false, ne_eq, not_true_eq_false]

theorem wfRequest_done (hf : q.form = .whole) {st : Nat} {pay : Bytes} {m' : Mems} {n' : Node}
    (hb : body x m (wfTaken q x n) = .done st pay m' n') : wfRequest q op body m n = (m', wfAnswer x op q.seq st pay n') := by
  have hb' : body x m (modSession x.number (fun y => { y with lastSeq := some q.seq, resp := none })
      (modSession x.number (fun y => { y with lastReq := (sessionTick n).now }) (sessionTick n))) = .done st pay m' n' := hb
  simp only [wfRequest, hon, hx, hq, ho, hf, hb', Option.isSome_none, Bool.not_true, Bool.false_eq_true, if_false, ne_eq,
    not_true_eq_false]

theorem wfRequest_waits (hf : q.form = .whole) {w : WfPend} {m' : Mems} {n' : Node}
    (hb : body x m (wfTaken q x n) = .wait w m' n') : wfRequest q op body m n
      = (m', modSession x.number (fun y => { y with outst := some (q.seq, op, w) }) n') := by
  have hb' : body x m (modSession x.number (fun y => { y with lastSeq := some q.seq, resp := none })
      (modSession x.number (fun y => { y with lastReq := (sessionTick n).now }) (sessionTick n))) = .wait w m' n' := hb
  simp only [wfRequest, hon, hx, hq, ho, hf, hb', Option.isSome_none, Bool.not_true, Bool.false_eq_true, if_false, ne_eq,
    not_true_eq_false]

end

/-! ### What a session holds of its answer -/

section
variable {q : WfReq} {op st : Nat} {pay : Bytes} {x y : Session} {u : State} {m' : Mems} {n n' : Node}

theorem replied_of_answer (hx : findSession (sessionTick n) q = some x) (hu : Ended (m', wfAnswer x op q.seq st pay n') u) :
    Replied u q x.ver op x.number st pay := by
  obtain ⟨_, hnet, _, hcl⟩ := findSession_some hx
  have h := hu.tx _ (wfAnswer_mem_tx x op q.seq st pay n')
  rwa [hnet, hcl] at h

theorem replied_of_send {ver : Nat} {sess : Word} (hx : findSession (sessionTick n) q = some x)
    (hu : Ended (m', wfSend x.net x.client ver op sess q.seq.toNat st pay n') u) : Replied u q ver op sess st pay := by
  obtain ⟨_, hnet, _, hcl⟩ := findSession_some hx
  rw [hnet, hcl] at hu
  exact hu.tx _ (sent_mem_sendFrame_tx _ _ _ _)

/-- A session that stands in what a request made of the module keeps the answer. -/
theorem answered_mem (hu : Ended (m', wfAnswer x op q.seq st pay n') u) (hy : y ∈ n'.wf) (hn : y.number = x.number) :
    { y with resp := some { op := op, status := st, payload := pay }, outst := none } ∈ u.node.wf := by
  rw [hu.wf]
  exact mem_modSession hy hn

/-- The request's answer is kept where its session still stands. -/
theorem responded_of_answer (hx : findSession (sessionTick n) q = some x) (hw : n'.wf = (wfTaken q x n).wf)
    (hu : Ended (m', wfAnswer x op q.seq st pay n') u) : Responded u x q op st pay :=
  ⟨_, answered_mem hu (y := x.taken q n.now) (hw ▸ taken_mem_wfTaken hx) rfl, rfl, rfl, rfl, rfl, rfl⟩

end

/-! ### The commands -/

/-- The command ends as the request of this operation. -/
def Executes (i : Instr) (q : WfReq) (op : Nat) (body : Session → Mems → Node → WfOut) (t : Nat) (s : State) : Prop :=
  Ends (exec i s) (Ended (wfRequest q op body s.mem (s.node.advance t)))

section
variable {q : WfReq} {t : Nat} {s : State} (hu : s.node.up = true)
include hu

theorem wayfareRead_executes (a : Word) : Executes (.wayfareRead q a t) q 0x10 (wfAccess (.rd a.toNat)) t s := upMem_ended hu rfl

theorem wayfareWrite_executes (a v : Word) : Executes (.wayfareWrite q a v t) q 0x11 (wfAccess (.wr a.toNat v)) t s :=
  plantMem_ended hu rfl

theorem burstRead_executes (a : Word) (c m : BitVec 16) :
    Executes (.burstRead q a c m t) q 0x12 (wfBurst a.toNat c.toNat m.toNat) t s := upMem_ended hu rfl

theorem mbxPost_executes (ch : Byte) (msg : List Word) : Executes (.mbxPost q ch msg t) q 0x20 (wfPost ch.toNat msg) t s :=
  upMem_ended hu rfl

theorem mbxFetch_executes (ch : Byte) : Executes (.mbxFetch q ch t) q 0x21 (wfFetch ch.toNat) t s := upMem_ended hu rfl

theorem subscribe_executes (per : BitVec 16) (mode : Byte) (l : List Word) :
    Executes (.subscribe q per mode l t) q 0x30 (wfSubscribe per.toNat mode.toNat (l.map (·.toNat))) t s := upMem_ended hu rfl

theorem snapOp_executes : Executes (.snapOp q t) q 0x40 wfSnap t s := upMem_ended hu rfl

theorem closeSess_ends {n : Node} (h : wfClose q (s.node.advance t) = n) : Ends (exec (.closeSess q t) s) (Ended (s.mem, n)) :=
  upAt_ended hu h

/-- An outcome that no request's execution comes to is the outcome of every operation, CLOSE included. -/
theorem requests_end {k : Nat → Node} (hreq : ∀ op body, wfRequest q op body s.mem (s.node.advance t) = (s.mem, k op))
    (hclose : wfClose q (s.node.advance t) = k 2) (a v : Word) (n m per : BitVec 16) (ch mode : Byte) (msg l : List Word) :
    ∀ y ∈ [(Instr.wayfareRead q a t, 0x10), (.wayfareWrite q a v t, 0x11), (.burstRead q a n m t, 0x12), (.mbxPost q ch msg t, 0x20),
      (.mbxFetch q ch t, 0x21), (.subscribe q per mode l t, 0x30), (.snapOp q t, 0x40), (.closeSess q t, 2)],
      Ends (exec y.1 s) (Ended (s.mem, k y.2)) := by
  have hex : ∀ {i op body}, Executes i q op body t s → Ends (exec i s) (Ended (s.mem, k op)) := fun h => hreq _ _ ▸ h
  simp only [List.forall_mem_cons, List.not_mem_nil, false_implies, implies_true, and_true]
  exact ⟨hex (wayfareRead_executes hu a), hex (wayfareWrite_executes hu a v), hex (burstRead_executes hu a n m),
    hex (mbxPost_executes hu ch msg), hex (mbxFetch_executes hu ch), hex (subscribe_executes hu per mode l),
    hex (snapOp_executes hu), closeSess_ends hu hclose⟩

end

/-! ### A request that is executed -/

theorem Fresh.up {q : WfReq} {s : State} {t : Nat} {x : Session} (h : Fresh q s t x) : s.node.up = true := h.1

theorem Fresh.found {q : WfReq} {s : State} {t : Nat} {x : Session} (h : Fresh q s t x) :
    findSession (sessionTick (s.node.advance t)) q = some x := by
  obtain ⟨_, _, _, hx, _, _⟩ := h
  exact hx

section
variable {i : Instr} {q : WfReq} {op : Nat} {body : Session → Mems → Node → WfOut} {t : Nat} {s : State} {x : Session}
  {m' : Mems} {n' : Node} (hi : Executes i q op body t s) (hf : Fresh q s t x)
include hi hf

/-- It is answered. -/
theorem Executes.replied {st : Nat} {pay : Bytes} (hb : body x s.mem (wfNode q s t x) = .done st pay m' n') :
    Ends (exec i s) (fun u => Replied u q x.ver op x.number st pay ∧ Ended (m', wfAnswer x op q.seq st pay n') u) := by
  obtain ⟨_, hon, hform, hx, hseq, hout⟩ := hf
  unfold Executes at hi
  rw [wfRequest_done (n := s.node.advance t) hon hx hseq hout hform hb] at hi
  exact hi.imp (fun u hu => ⟨replied_of_answer hx hu, hu⟩)

/-- It is answered, and the answer kept. -/
theorem Executes.responded {st : Nat} {pay : Bytes} (hb : body x s.mem (wfNode q s t x) = .done st pay m' n')
    (hw : n'.wf = (wfNode q s t x).wf) : Ends (exec i s) (fun u => Responded u x q op st pay
      ∧ Replied u q x.ver op x.number st pay ∧ Ended (m', wfAnswer x op q.seq st pay n') u) :=
  (hi.replied hf hb).imp (fun _ ⟨hr, hu⟩ => ⟨responded_of_answer hf.found hw hu, hr, hu⟩)

/-- It waits. -/
theorem Executes.waits {w : WfPend} (hb : body x s.mem (wfNode q s t x) = .wait w m' n') (hw : n'.wf = (wfNode q s t x).wf) :
    Ends (exec i s) (fun u => Waits u x q op w
      ∧ Ended (m', modSession x.number (fun y => { y with outst := some (q.seq, op, w) }) n') u) := by
  obtain ⟨_, hon, hform, hx, hseq, hout⟩ := hf
  unfold Executes at hi
  rw [wfRequest_waits (n := s.node.advance t) hon hx hseq hout hform hb] at hi
  refine hi.imp (fun u hu => ⟨⟨{ x.taken q (s.node.advance t).now with outst := some (q.seq, op, w) }, ?_, rfl, rfl, rfl⟩, hu⟩)
  rw [hu.wf]
  exact mem_modSession (hw ▸ taken_mem_wfTaken hx) rfl

end

end Sys2Proof.Machine
end

section
/-! SUPPORT. What each operation of Wayfare does on its session (R105, R106, R119 to R124, R130, R146 to R150, R451). -/

namespace Sys2Proof.Machine
open Sys2Proof

/-! ### READ and WRITE -/

section
variable {x : Session} {a st : Nat} {v w : Word} {m m' : Mems} {n n' : Node}

theorem wfAccess_read_waits (h : accWaits n (.rd a) = true) : wfAccess (.rd a) x m n = .wait (.rd a) m n := by
  simp [wfAccess, h]

theorem wfAccess_write_waits (h : accWaits n (.wr a v) = true) : wfAccess (.wr a v) x m n = .wait (.wr a v) m n := by
  simp [wfAccess, h]

theorem wfAccess_read (h : accWaits n (.rd a) = false)
    (ho : readAccess (netPort x.net) a m n = { st := st, data := w, mem := m, node := n' }) :
    wfAccess (.rd a) x m n = .done st (leBytes 4 w.toNat) m n' := by
  simp [wfAccess, h, accDo, ho]

theorem wfAccess_write (h : accWaits n (.wr a v) = false)
    (ho : writeAccess (netPort x.net) a v m n = { st := st, mem := m', node := n' }) :
    wfAccess (.wr a v) x m n = .done st [] m' n' := by
  simp [wfAccess, h, accDo, ho]

theorem wfAccess_write_forwarded (h : accWaits n (.wr a v) = false)
    (ho : writeAccess (netPort x.net) a v m n = { st := st, fwd := true, mem := m', node := n' }) :
    wfAccess (.wr a v) x m n = .wait (.wr a v) m' (pushFwd (.wf x.number) n') := by
  simp [wfAccess, h, accDo, ho]

end

section
variable {q : WfReq} {x : Session} {t : Nat} {s : State} {a v : Word} (hf : Fresh q s t x)
include hf

/-- A read within I0 is answered with the register's word or status. -/
theorem wayfareRead_served_ends {st : Nat} {w : Word} {n' : Node} (h : Serves s a.toNat) (ha : (regAttr a.toNat).isSome = true)
    (hi : regIsl a.toNat false = 0) (hr : regRead (netPort x.net) a.toNat s.mem (wfNode q s t x) = (st, w, n')) :
    Ends (exec (.wayfareRead q a t) s) (fun u => Responded u x q 0x10 st (leBytes 4 w.toNat)
      ∧ Replied u q x.ver 0x10 x.number st (leBytes 4 w.toNat) ∧ u.mem = s.mem) := by
  have hb := wfAccess_read (n := wfNode q s t x) (accWaits_read_home hi) (readAccess_served ha h.2 hr)
  have hw := regRead_wf (p := netPort x.net) a.toNat s.mem (wfNode q s t x)
  rw [hr] at hw
  exact ((wayfareRead_executes hf.up a).responded hf hb hw).imp (fun _ ⟨hres, hrep, hu⟩ => ⟨hres, hrep, hu.mem⟩)

/-- A read that ends with a status and no effect carries DATA 0. -/
theorem wayfareRead_refused_ends {st : Nat} (hw : accWaits (wfNode q s t x) (.rd a.toNat) = false)
    (hr : readAccess (netPort x.net) a.toNat s.mem (wfNode q s t x) = accRefuse st s.mem (wfNode q s t x)) :
    Ends (exec (.wayfareRead q a t) s) (fun u => Responded u x q 0x10 st (leBytes 4 0)) :=
  ((wayfareRead_executes hf.up a).responded hf (wfAccess_read hw hr) rfl).imp (fun _ ⟨hres, _⟩ => hres)

theorem wayfareRead_crossing_ends (h : Serves s a.toNat) (ha : (regAttr a.toNat).isSome = true) (hi : regIsl a.toNat false ≠ 0) :
    Ends (exec (.wayfareRead q a t) s) (fun u => Waits u x q 0x10 (.rd a.toNat)) :=
  ((wayfareRead_executes hf.up a).waits hf
    (wfAccess_read_waits (accWaits_read_crossing (n := wfNode q s t x) ha hi h.2)) rfl).imp (fun _ ⟨hres, _⟩ => hres)

theorem wayfareWrite_crossing_ends (h : Takes s a.toNat) (ha : (regAttr a.toNat).isSome = true) (hi : regIsl a.toNat true ≠ 0) :
    Ends (exec (.wayfareWrite q a v t) s) (fun u => Waits u x q 0x11 (.wr a.toNat v) ∧ u.mem = s.mem) :=
  ((wayfareWrite_executes hf.up a v).waits hf
    (wfAccess_write_waits (accWaits_write_crossing (s := { s with node := wfNode q s t x }) h ha hi)) rfl).imp
    (fun _ ⟨hres, hu⟩ => ⟨hres, hu.mem⟩)

/-- A write that the register takes within I0 is answered with its status. -/
theorem wayfareWrite_taken_ends {st : Nat} {e : Bool} {m' : Mems} {n' : Node} (h : Takes s a.toNat)
    (ha : regAttr a.toNat = some ⟨e, .wr⟩) (hi : regIsl a.toNat true = 0)
    (hr : regWrite (netPort x.net) a.toNat v s.mem (wfNode q s t x) = (st, m', n')) :
    Ends (exec (.wayfareWrite q a v t) s) (fun u => Replied u q x.ver 0x11 x.number st [] ∧ u.mem = m'
      ∧ u.node.ld = n'.ld ∧ (n'.wf = (wfNode q s t x).wf → Responded u x q 0x11 st [])) := by
  have ho := writeAccess_carried (s := { s with node := wfNode q s t x }) ha h hr
  have hkeep : ∀ c : Bool, (if c then expertTouch (regBlk a.toNat) n' else n').ld = n'.ld
      ∧ (if c then expertTouch (regBlk a.toNat) n' else n').wf = n'.wf := by
    intro c
    split <;> simp
  refine ((wayfareWrite_executes hf.up a v).replied hf (wfAccess_write (accWaits_write_home ha hi) ho)).imp
    (fun u ⟨hrep, hu⟩ => ⟨hrep, hu.mem, hu.ld.trans (hkeep _).1, fun hw => ?_⟩)
  exact responded_of_answer hf.found ((hkeep _).2.trans hw) hu

/-- A write that ends with a status and no effect of its own. -/
theorem wayfareWrite_refused_ends {st : Nat} {n : Node} (hw : accWaits (wfNode q s t x) (.wr a.toNat v) = false)
    (hr : writeAccess (netPort x.net) a.toNat v s.mem (wfNode q s t x) = { st := st, mem := s.mem, node := n })
    (hn : n.wf = (wfNode q s t x).wf) :
    Ends (exec (.wayfareWrite q a v t) s) (fun u => Responded u x q 0x11 st []
      ∧ (∀ k, n.evt.flag k = true → u.node.evt.flag k = true) ∧ u.mem = s.mem) :=
  ((wayfareWrite_executes hf.up a v).responded hf (wfAccess_write hw hr) hn).imp
    (fun _ ⟨hres, _, hu⟩ => ⟨hres, hu.flag, hu.mem⟩)

/-- A plant write of a STANDBY waits for the partner (R451). -/
theorem wayfareWrite_forwarded_ends {y : RegAttr} (ha : regAttr a.toNat = some y) (hfw : forwards s.node a.toNat = true)
    (hk : linkUp s.node = true) (hl : levelLocked s.node a.toNat y = false) :
    Ends (exec (.wayfareWrite q a v t) s) (fun u => Waits u x q 0x11 (.wr a.toNat v)
      ∧ u.node.net.fwds = s.node.net.fwds ++ [.wf x.number] ∧ u.mem = s.mem) := by
  have ho := writeAccess_forward (n := wfNode q s t x) (netPort x.net) v s.mem ha hfw hk hl
  have hkeep : ∀ n : Node, (if y.x then expertTouch (regBlk a.toNat) n else n).wf = n.wf
      ∧ (if y.x then expertTouch (regBlk a.toNat) n else n).net = n.net := by
    intro n
    split <;> simp
  refine ((wayfareWrite_executes hf.up a v).waits hf (wfAccess_write_forwarded (accWaits_write_forwarded ha hfw) ho)
    (hkeep _).1).imp (fun u ⟨hres, hu⟩ => ⟨hres, hu.fwds.trans ?_, hu.mem⟩)
  exact congrArg (fun e : Net => e.fwds ++ [.wf x.number]) (hkeep (wfNode q s t x)).2

end

/-! ### BURST_READ (R120) -/

section
variable {p : HostPort} {step a k count mode : Nat} {done : List Word} {m : Mems} {n n' : Node} {w : Word} {x : Session}

theorem burstGo_waits (h : accWaits n (.rd a) = true) :
    burstGo p step m (k + 1) a done n = .wait (.burst a (k + 1) step done) m n := by
  simp [burstGo, h]

theorem burstGo_read (h : accWaits n (.rd a) = false)
    (ho : readAccess p a m n = { st := 0, data := w, mem := m, node := n' }) :
    burstGo p step m (k + 1) a done n = burstGo p step m k (a + step) (done ++ [w]) n' := by
  simp [burstGo, h, ho]

/-- Most words of a burst (R120, R132). -/
def burstMax (x : Session) : Nat := if x.ver = 1 then 128 else 360

theorem wfBurst_refused (h : count = 0 ∨ burstMax x < count ∨ 1 < mode) : wfBurst a count mode x m n = .done 0x11 [] m n :=
  if_pos h

theorem wfBurst_reads (h0 : 0 < count) (hc : count ≤ 128) (hm : mode ≤ 1) : wfBurst a count mode x m n
    = burstGo (netPort x.net) (if mode = 0 then 4 else 0) m count a [] n := by
  refine if_neg (show ¬ (count = 0 ∨ burstMax x < count ∨ 1 < mode) from ?_)
  unfold burstMax
  split <;> omega

end

/-- DEV_STATUS and RESET_CAUSE, side by side in I0. -/
theorem regTables_devStatus : (regAttr 0x0028).isSome = true ∧ (regAttr 0x002C).isSome = true ∧ regIsl 0x0028 false = 0
    ∧ regIsl 0x002C false = 0 := by decide +kernel

/-- DEV_STATE, in I0. -/
theorem regTables_devState : (regAttr 0x0020).isSome = true ∧ regIsl 0x0020 false = 0 := by decide +kernel

theorem regRead_devState (p : HostPort) (m : Mems) (n : Node) : regRead p 0x0020 m n = (0, devStateWord n, n) := rfl

theorem regRead_devStatus (p : HostPort) (m : Mems) (n : Node) : regRead p 0x0028 m n = (0, devStatusWord n, n) := rfl

theorem regRead_resetCause (p : HostPort) (m : Mems) (n : Node) : regRead p 0x002C m n = (0, resetCauseWord n, n) := rfl

section
variable {q : WfReq} {x : Session} {t : Nat} {s : State} (hf : Fresh q s t x)
include hf

/-- Two words of one burst. -/
theorem burstRead_devStatus_ends (h1 : Serves s 0x0028) (h2 : Serves s 0x002C) :
    Ends (exec (.burstRead q 0x0028#32 2#16 0#16 t) s) (fun u =>
      Responded u x q 0x12 0 (burstPay [devStatusWord s.node, resetCauseWord s.node])) := by
  obtain ⟨ha1, ha2, hi1, hi2⟩ := regTables_devStatus
  have hr1 := readAccess_served (n := wfNode q s t x) ha1 h1.2 (regRead_devStatus (netPort x.net) s.mem _)
  have hr2 := readAccess_served (n := wfNode q s t x) ha2 h2.2 (regRead_resetCause (netPort x.net) s.mem _)
  have hb : wfBurst 0x0028 2 0 x s.mem (wfNode q s t x)
      = .done 0 (burstPay [devStatusWord s.node, resetCauseWord s.node]) s.mem (wfNode q s t x) := by
    rw [wfBurst_reads (by omega) (by omega) (by omega), if_pos rfl, burstGo_read (accWaits_read_home hi1) hr1,
      burstGo_read (accWaits_read_home hi2) hr2]
    rfl
  exact ((burstRead_executes hf.up 0x0028#32 2#16 0#16).responded hf hb rfl).imp (fun _ ⟨hres, _⟩ => hres)

theorem burstRead_refused_ends {a : Word} {c m : BitVec 16} (h : c = 0#16 ∨ burstMax x < c.toNat ∨ 1 < m.toNat) :
    Ends (exec (.burstRead q a c m t) s) (fun u => Responded u x q 0x12 0x11 []) := by
  have hc : c.toNat = 0 ∨ burstMax x < c.toNat ∨ 1 < m.toNat := h.imp_left (fun hz => by rw [hz]; rfl)
  exact ((burstRead_executes hf.up a c m).responded hf (wfBurst_refused hc) rfl).imp (fun _ ⟨hres, _⟩ => hres)

theorem burstRead_crossing_ends {a : Word} {c m : BitVec 16} (h0 : 0 < c.toNat) (hc : c.toNat ≤ 128) (hm : m.toNat ≤ 1)
    (h : Serves s a.toNat) (ha : (regAttr a.toNat).isSome = true) (hi : regIsl a.toNat false ≠ 0) :
    Ends (exec (.burstRead q a c m t) s) (fun u =>
      Waits u x q 0x12 (.burst a.toNat c.toNat (if m = 0#16 then 4 else 0) [])) := by
  have hw := accWaits_read_crossing (n := wfNode q s t x) ha hi h.2
  have hstep : (if m.toNat = 0 then 4 else 0) = if m = 0#16 then 4 else 0 := if_congr (by rw [← BitVec.toNat_inj]; rfl) rfl rfl
  have hb := wfBurst_reads (a := a.toNat) (x := x) (m := s.mem) (n := wfNode q s t x) h0 hc hm
  obtain ⟨k, hk⟩ : ∃ k, c.toNat = k + 1 := ⟨c.toNat - 1, by omega⟩
  rw [hstep, hk, burstGo_waits hw, ← hk] at hb
  exact ((burstRead_executes hf.up a c m).waits hf hb rfl).imp (fun _ ⟨hres, _⟩ => hres)

end

/-! ### MBX_POST and MBX_FETCH (R146, R147, R150) -/

section
variable {id ch r : Nat} {msg : List Word} {m : Mems} {n : Node} {x : Session}

/-- The channel after a post. -/
def MbChan.posted (id : Nat) (msg : List Word) (c : MbChan) : MbChan :=
  { st := .posted, msg := stampSrc id msg, ack := false, code := 0,
    replaced := if c.st = .posted then satInc 255 c.replaced else c.replaced }

theorem mbPostMsg_posts (hb : mbBinding n ch = (id, r, true)) (hr : n.isRun (idIsland r) = true) : mbPostMsg id ch msg n
    = (0, ring r ch (raiseIf (idHost r) 124 (setMbChan ch ((n.mbChan ch).posted id msg) n))) := by
  simp [mbPostMsg, hb, hr, MbChan.posted]

theorem mbPostMsg_unbound (hb : (mbBinding n ch).2.2 = false) : mbPostMsg id ch msg n = (6, n) := by
  simp [mbPostMsg, hb]

theorem ring_mbChan (r c : Nat) (k : Nat) (n : Node) : (ring r c n).mbChan k = n.mbChan k := by
  simp [ring, setMbId, Node.mbChan]

theorem setMbChan_mbChan (c : MbChan) : (setMbChan ch c n).mbChan ch = c := by simp [setMbChan, Node.mbChan]

theorem wfPost_posts (hc : ch < 32) (hl : msg.length = 16) : wfPost ch msg x m n
    = .done (mbPostMsg (portCode (netPort x.net)) ch msg n).1 [] m (mbPostMsg (portCode (netPort x.net)) ch msg n).2 :=
  if_neg (by omega)

theorem wfPost_refused (h : 32 ≤ ch ∨ msg.length ≠ 16) : wfPost ch msg x m n = .done 0x11 [] m n := if_pos h

theorem wfFetch_refused (h : 32 ≤ ch) : wfFetch ch x m n = .done 0x11 [] m n := if_pos h

theorem wfFetch_denied (hc : ch < 32) (h : mbMayFetch n (portCode (netPort x.net)) ch = false) :
    wfFetch ch x m n = .done 6 [] m n := by
  simp [wfFetch, Nat.not_le.mpr hc, h]

theorem wfFetch_fetches (hc : ch < 32) (h : mbMayFetch n (portCode (netPort x.net)) ch = true) : wfFetch ch x m n
    = .done 0 ((mbSlot n ch).flatMap (fun w => leBytes 4 w.toNat) ++ leBytes 4 (mbAckWord n ch).toNat) m n := by
  simp [wfFetch, Nat.not_le.mpr hc, h]

end

theorem toNat_channel (ch : Fin 32) : (BitVec.ofNat 8 ch.val).toNat = ch.val :=
  (BitVec.toNat_ofNat _ _).trans (Nat.mod_eq_of_lt (by omega))

section
variable {q : WfReq} {x : Session} {t : Nat} {s : State} (hf : Fresh q s t x)
include hf

theorem mbxPost_posts_ends {ch : Byte} {msg : List Word} {r : Nat} (hc : ch.toNat < 32) (hl : msg.length = 16)
    (hb : mbBinding s.node ch.toNat = (portCode (netPort x.net), r, true)) (hr : s.node.isRun (idIsland r) = true) :
    Ends (exec (.mbxPost q ch msg t) s) (fun u => Responded u x q 0x20 0 []
      ∧ (u.node.mbChan ch.toNat).st = .posted ∧ (u.node.mbChan ch.toNat).msg = stampSrc (portCode (netPort x.net)) msg) := by
  have hw := mbPostMsg_get (pt := .wf) (portCode (netPort x.net)) ch.toNat msg (wfNode q s t x) (by simp)
  have hd := wfPost_posts (x := x) (m := s.mem) (n := wfNode q s t x) hc hl
  rw [mbPostMsg_posts (msg := msg) (n := wfNode q s t x) hb hr] at hd hw
  refine ((mbxPost_executes hf.up ch msg).responded hf hd hw).imp (fun u ⟨hres, _, hu⟩ => ?_)
  have hchan : u.node.mbChan ch.toNat = ((wfNode q s t x).mbChan ch.toNat).posted (portCode (netPort x.net)) msg := by
    refine (congrArg (fun b : Mailbox => tget {} b.chans ch.toNat) hu.mbx).trans ?_
    exact (ring_mbChan _ _ _ _).trans ((raiseIf_mbChan _ _ _ _).trans (setMbChan_mbChan _))
  rw [hchan]
  exact ⟨hres, rfl, rfl⟩

/-- A post that ends with a status and no effect. -/
theorem mbxPost_refused_ends {ch : Byte} {msg : List Word} {st : Nat}
    (h : wfPost ch.toNat msg x s.mem (wfNode q s t x) = .done st [] s.mem (wfNode q s t x)) :
    Ends (exec (.mbxPost q ch msg t) s) (fun u => Responded u x q 0x20 st [] ∧ u.node.mbx = s.node.mbx) :=
  ((mbxPost_executes hf.up ch msg).responded hf h rfl).imp (fun _ ⟨hres, _, hu⟩ => ⟨hres, hu.mbx⟩)

/-- A fetch changes no mailbox. -/
theorem mbxFetch_ends {ch : Byte} {st : Nat} {pay : Bytes}
    (h : wfFetch ch.toNat x s.mem (wfNode q s t x) = .done st pay s.mem (wfNode q s t x)) :
    Ends (exec (.mbxFetch q ch t) s) (fun u => Responded u x q 0x21 st pay ∧ u.node.mbx = s.node.mbx) :=
  ((mbxFetch_executes hf.up ch).responded hf h rfl).imp (fun _ ⟨hres, _, hu⟩ => ⟨hres, hu.mbx⟩)

end

/-! ### SUBSCRIBE and SNAP (R121, R123, R124) -/

/-- A subscription as the session begins it. -/
def Sub.started (per : Nat) (onChange : Bool) (l : List Nat) : Sub :=
  { period := per, onChange := onChange, addrs := l, last := l.map (fun _ => none) }

section
variable {per mode : Nat} {l : List Nat} {m : Mems} {n : Node} {x : Session}

theorem wfSubscribe_off : wfSubscribe per 0 l x m n
    = .done 0 [] m (modSession x.number (fun y => { y with sub := none }) n) := by
  simp [wfSubscribe]

/-- PERIOD, MODE, COUNT or an address that R121 does not allow. -/
def SubRefused (per mode : Nat) (l : List Nat) (x : Session) : Prop :=
  per < 1 ∨ 10000 < per ∨ 2 < mode ∨ (mode = 2 ∧ x.ver = 1) ∨ l = [] ∨ 120 < l.length ∨ ∃ a ∈ l, isValue a = false

theorem subRefused_iff : SubRefused per mode l x ↔ per < 1 ∨ 10000 < per ∨ 2 < mode ∨ (mode = 2 ∧ x.ver = 1)
    ∨ l.isEmpty = true ∨ 120 < l.length ∨ (!l.all isValue) = true := by
  simp [SubRefused]

theorem wfSubscribe_refused (hm : mode ≠ 0) (h : SubRefused per mode l x) : wfSubscribe per mode l x m n = .done 0x11 [] m n := by
  simp only [wfSubscribe, hm, if_false, subRefused_iff.mp h, if_true]

theorem wfSubscribe_taken (hm : mode ≠ 0) (h : ¬ SubRefused per mode l x) : wfSubscribe per mode l x m n
    = .done 0 [] m (modSession x.number (fun y => { y with sub := some (Sub.started per (mode == 2) l) }) n) := by
  simp only [wfSubscribe, hm, if_false, mt subRefused_iff.mpr h]
  rfl

end

/-! The obligation gives MODE as a byte and the addresses as words. -/

section
variable {per : Nat} {mode : Byte} {l : List Word} {x : Session}

theorem mode_toNat_eq (k : Byte) : mode.toNat = k.toNat ↔ mode = k := BitVec.toNat_inj

theorem mode_toNat_ne (h : mode ≠ 0#8) : mode.toNat ≠ 0 := fun h0 => h ((mode_toNat_eq 0#8).mp h0)

theorem mode_beq : (mode.toNat == 2) = (mode == 2#8) := Bool.eq_iff_iff.mpr (by
  rw [beq_iff_eq, beq_iff_eq]
  exact mode_toNat_eq 2#8)

theorem subRefused_words : SubRefused per mode.toNat (l.map (·.toNat)) x ↔ per < 1 ∨ 10000 < per ∨ 2 < mode.toNat
    ∨ (mode = 2#8 ∧ x.ver = 1) ∨ l = [] ∨ 120 < l.length ∨ ∃ a ∈ l, isValue a.toNat = false := by
  have h2 : mode.toNat = 2 ↔ mode = 2#8 := mode_toNat_eq 2#8
  simp [SubRefused, h2]

theorem not_subRefused_words (h1 : 1 ≤ per) (hp : per ≤ 10000) (hm : mode = 1#8 ∨ (mode = 2#8 ∧ x.ver ≠ 1)) (hl : l ≠ [])
    (h120 : l.length ≤ 120) (hv : ∀ a ∈ l, isValue a.toNat = true) : ¬ SubRefused per mode.toNat (l.map (·.toNat)) x := by
  have hver : ¬ (mode = 2#8 ∧ x.ver = 1) := by
    rintro ⟨rfl, h⟩
    simp [h] at hm
  have hle : mode.toNat ≤ 2 := by rcases hm with rfl | ⟨rfl, _⟩ <;> decide
  have hval : ¬ ∃ a ∈ l, isValue a.toNat = false := by
    rintro ⟨a, ha, h⟩
    simp [hv a ha] at h
  simp only [subRefused_words, hver, hl, hval, false_or, or_false]
  omega

end

section
variable {q : WfReq} {x : Session} {t : Nat} {s : State} (hf : Fresh q s t x)
include hf

/-- SUBSCRIBE answered: the session holds the subscription, or none, that the operation left. -/
theorem subscribe_ends {per : BitVec 16} {mode : Byte} {l : List Word} {b : Option Sub}
    (hb : wfSubscribe per.toNat mode.toNat (l.map (·.toNat)) x s.mem (wfNode q s t x)
      = .done 0 [] s.mem (modSession x.number (fun y => { y with sub := b }) (wfNode q s t x))) :
    Ends (exec (.subscribe q per mode l t) s) (fun u => Responded u x q 0x30 0 []
      ∧ (∃ y ∈ u.node.wf, y.number = x.number ∧ y.sub = b) ∧ ∀ y ∈ u.node.wf, y.number = x.number → y.sub = b) := by
  have hmem := mem_modSession (f := fun y => { y with sub := b }) (taken_mem_wfTaken hf.found) rfl
  refine ((subscribe_executes hf.up per mode l).replied hf hb).imp (fun u ⟨_, hu⟩ => ?_)
  have hin := answered_mem hu hmem rfl
  refine ⟨⟨_, hin, rfl, rfl, rfl, rfl, rfl⟩, ⟨_, hin, rfl, rfl⟩, fun y hy hn => ?_⟩
  rw [hu.wf] at hy
  obtain ⟨z, hz, hzn, rfl⟩ := of_mem_modSession hy hn
  obtain ⟨w, _, _, rfl⟩ := of_mem_modSession hz hzn
  rfl

theorem subscribe_refused_ends {per : BitVec 16} {mode : Byte} {l : List Word}
    (hb : wfSubscribe per.toNat mode.toNat (l.map (·.toNat)) x s.mem (wfNode q s t x) = .done 0x11 [] s.mem (wfNode q s t x)) :
    Ends (exec (.subscribe q per mode l t) s) (fun u => Responded u x q 0x30 0x11 []
      ∧ ∃ y ∈ u.node.wf, y.number = x.number ∧ y.sub = x.sub) :=
  ((subscribe_executes hf.up per mode l).responded hf hb rfl).imp (fun _ ⟨hres, _, hu⟩ =>
    ⟨hres, _, answered_mem (y := x.taken q (s.node.advance t).now) hu (taken_mem_wfTaken hf.found) rfl, rfl, rfl⟩)

/-- SNAP waits for the copy that it triggers, or for the one under way (R124). -/
theorem snapOp_ends {k : Node} (hk : snapTrigger (netPort x.net) (wfNode q s t x) = k) :
    Ends (exec (.snapOp q t) s) (fun u => Waits u x q 0x40 .snap ∧ u.node.port (netPort x.net) = k.port (netPort x.net)) := by
  have hw : k.wf = (wfNode q s t x).wf := hk ▸ snapTrigger_get (pt := .wf) (netPort x.net) (wfNode q s t x) (by simp)
  have hb : wfSnap x s.mem (wfNode q s t x) = .wait .snap s.mem k := congrArg (WfOut.wait .snap s.mem) hk
  exact ((snapOp_executes hf.up).waits hf hb hw).imp (fun _ ⟨hres, hu⟩ => ⟨hres, hu.port _⟩)

end

theorem wfNode_port (q : WfReq) (s : State) (t : Nat) (x : Session) (p : HostPort) : (wfNode q s t x).port p = s.node.port p := by
  cases p <;> rfl

/-- Settles O21: HELLO, CLOSE and time work the list of sessions; a request is turned away before its execution, or executed on its
session, which then keeps its answer or waits. -/
theorem wayfareSessionsAndRequests : Obligations.WayfareSessionsAndRequests := by
  refine ⟨⟨?hello, ?noVersion, ?full, ?close, fun sess x t s hu hx hn => sessionExpiry_ends hu hx hn,
    fun b t s hu hon => wayfareBadDatagram_ends hu hon, ?helloMalformed, fun b c mn mx q sess w t s hu hoff => wayfareOff_ends hu hoff w⟩,
    fun q x t s hf => ⟨?readDevState, fun a h ha hi => wayfareRead_crossing_ends hf h ha hi, ?writeStgAddr,
      fun a v h ha hi => wayfareWrite_crossing_ends hf h ha hi, fun h1 h2 => burstRead_devStatus_ends hf h1 h2,
      fun a c m h => burstRead_refused_ends hf h, ?post, ?fetch, ?subscribe, ?snap,
      fun a st w n' h ha hi hr => wayfareRead_served_ends hf h ha hi hr, ?readNoRegister, ?readDown, ?writeTaken, ?writeNoRegister,
      ?writeDown, ?writeLocked, fun a v y ha hfw hk hl => wayfareWrite_forwarded_ends hf ha hfw hk hl,
      fun a c m h0 hc hm h ha hi => burstRead_crossing_ends hf h0 hc hm h ha hi, ?postUnbound,
      fun ch msg h => mbxPost_refused_ends hf (wfPost_refused h), ?fetchDenied, ?fetchRefused, ?subscribeOff, ?subscribeRefused,
      ?snapCopying⟩, ?noSession, ?turnedAway⟩
  case hello =>
    intro b c mn mx q sess t s hu hon hs hnew h0 hmn h4
    have h := wfHello_opens (client := c) (seq := q) (n := s.node.advance t) hon h0 hmn h4 hs hnew
    exact (upAt_ended hu h).imp (fun _ hu => ⟨hu.wf, hu.tx _ (sent_mem_sendFrame_tx _ _ _ _)⟩)
  case noVersion =>
    intro b c mn mx q sess t s hu hon hv
    have hz : mx = 0#8 → min mx.toNat (wfModMax s.node) = 0 := by
      rintro rfl
      exact Nat.zero_min _
    exact hello_refused_ends hu (wfHello_noVersion (n := s.node.advance t) hon (hv.imp_right hz))
  case full =>
    exact fun b c mn mx q sess t s hu hon h0 hmn h4 =>
      hello_refused_ends hu (wfHello_full (n := s.node.advance t) hon h0 hmn h4)
  case helloMalformed =>
    exact fun b c mn mx q sess t s hu hon => hello_refused_ends hu (wfHello_malformed (n := s.node.advance t) hon)
  case close =>
    rintro q x t s ⟨hu, hon, hform, hx, hseq, hout⟩
    refine (closeSess_ends hu (wfClose_closes (n := s.node.advance t) hon hx hseq hout hform)).imp
      (fun u he => ⟨fun y hy => ?_, replied_of_send hx he⟩)
    rw [he.wf] at hy
    simpa using (List.mem_filter.mp hy).2
  case readDevState =>
    intro h
    obtain ⟨ha, hi⟩ := regTables_devState
    exact (wayfareRead_served_ends (a := 0x0020#32) hf h ha hi (regRead_devState (netPort x.net) s.mem _)).imp
      (fun _ ⟨hres, hrep, _⟩ => ⟨hres, hrep⟩)
  case writeStgAddr =>
    intro v h h5 h8
    have hw := stgAddrWrite_of_free (v := v) (n := wfNode q s t x) (stgHeld_of_ne h5 h8)
    refine (wayfareWrite_taken_ends (a := 0x0840#32) hf h (regAttr_loader _ (by simp)) regIsl_stgAddr
      (regWrite_stgAddr (netPort x.net) v s.mem _)).imp (fun u ⟨_, _, hld, hres⟩ => ?_)
    rw [hw] at hld hres
    exact ⟨congrArg Loader.stgAddr hld, hres rfl⟩
  case post =>
    intro ch msg r hl hb hr
    have h := mbxPost_posts_ends (ch := BitVec.ofNat 8 ch.val) hf (by rw [toNat_channel]; exact ch.isLt) hl
      (by rwa [toNat_channel]) hr
    rwa [toNat_channel] at h
  case fetch =>
    intro ch hm
    refine mbxFetch_ends hf ?_
    rw [toNat_channel]
    exact wfFetch_fetches (n := wfNode q s t x) ch.isLt hm
  case subscribe =>
    intro per mode l h1 hp hm hl h120 hv
    have hm0 : mode ≠ 0#8 := by rcases hm with rfl | ⟨rfl, _⟩ <;> decide
    refine (subscribe_ends hf (wfSubscribe_taken (n := wfNode q s t x) (mode_toNat_ne hm0) (not_subRefused_words h1 hp hm hl h120 hv))).imp
      (fun u ⟨hres, ⟨y, hy, hn, hsub⟩, _⟩ => ⟨hres, y, hy, hn, hsub.trans ?_⟩)
    simp [Sub.started, Function.comp_def, mode_beq]
  case snap =>
    intro hc
    refine (snapOp_ends hf (snapTrigger_of_idle (by rwa [wfNode_port]))).imp (fun u ⟨hw, hp⟩ => ?_)
    rw [hp, port_modPort]
    exact ⟨hw, rfl, rfl⟩
  case snapCopying =>
    intro hc
    refine (snapOp_ends hf (snapTrigger_of_copying (by rwa [wfNode_port]))).imp (fun u ⟨hw, hp⟩ => ⟨hw, ?_⟩)
    rw [hp, wfNode_port]
  case readNoRegister =>
    exact fun a ha => wayfareRead_refused_ends hf (accWaits_read_noRegister ha) (readAccess_noRegister ha)
  case readDown =>
    exact fun a ha hr hv hq => wayfareRead_refused_ends hf (accWaits_read_down hr) (readAccess_islandDown ha hr hv hq)
  case writeTaken =>
    exact fun a v y st m' n' h ha hi hr => (wayfareWrite_taken_ends hf h ha hi hr).imp (fun _ ⟨hrep, hm, _, _⟩ => ⟨hrep, hm⟩)
  case writeNoRegister =>
    exact fun a v ha => (wayfareWrite_refused_ends hf (accWaits_write_noRegister ha) (writeAccess_noRegister _ v _ ha) rfl).imp
      (fun _ ⟨hres, _, hm⟩ => ⟨hres, hm⟩)
  case writeDown =>
    intro a v ha hfw hr
    obtain ⟨y, hy⟩ := Option.isSome_iff_exists.mp ha
    exact (wayfareWrite_refused_ends hf (accWaits_write_down hy hr) (writeAccess_islandDown _ v _ hy hfw hr) rfl).imp
      (fun _ ⟨hres, _, hm⟩ => ⟨hres, hm⟩)
  case writeLocked =>
    exact fun a v y ha hfw hr hl => (wayfareWrite_refused_ends hf (accWaits_write_locked ha hl)
      (writeAccess_locked _ v _ ha hfw hr hl) (raise_wf 7 _)).imp
      (fun _ ⟨hres, hflag, hm⟩ => ⟨hres, hflag 7 (raise_flag 7 _ rfl (by omega)), hm⟩)
  case postUnbound =>
    intro ch msg hl hb
    have hd := wfPost_posts (x := x) (m := s.mem) (n := wfNode q s t x) ch.isLt hl
    rw [mbPostMsg_unbound (n := wfNode q s t x) hb] at hd
    refine mbxPost_refused_ends hf ?_
    rwa [toNat_channel]
  case fetchDenied =>
    intro ch hm
    refine (mbxFetch_ends hf (st := 6) (pay := []) ?_).imp (fun _ ⟨hres, _⟩ => hres)
    rw [toNat_channel]
    exact wfFetch_denied (n := wfNode q s t x) ch.isLt hm
  case fetchRefused =>
    exact fun ch h => (mbxFetch_ends hf (wfFetch_refused h)).imp (fun _ ⟨hres, _⟩ => hres)
  case subscribeOff =>
    exact fun per l => (subscribe_ends hf wfSubscribe_off).imp (fun _ ⟨hres, _, hall⟩ => ⟨hres, hall⟩)
  case subscribeRefused =>
    exact fun per mode l hm h => subscribe_refused_ends hf (wfSubscribe_refused (mode_toNat_ne hm) (subRefused_words.mpr h))
  case noSession =>
    intro q t a v n m per ch mode msg l s hu hon hx y hy
    refine (requests_end (k := fun op => wfSend q.net q.client 0 (wfOp q op) q.session q.seq.toNat 0x10 []
      (sessionTick (s.node.advance t))) hu (fun op body => wfRequest_noSession (n := s.node.advance t) hon hx)
      (wfClose_noSession (n := s.node.advance t) hon hx) a v n m per ch mode msg l y hy).imp (fun _ he => ⟨?_, he.mem⟩)
    exact he.tx _ (sent_mem_sendFrame_tx _ _ _ _)
  case turnedAway =>
    intro q x t a v n m per ch mode msg l s hu hon hx y hy
    refine ⟨fun r hq hr => ?_, fun hq ho => ?_, fun hq ho hform => ?_⟩
    · exact (requests_end hu (fun op body => wfRequest_repeat (n := s.node.advance t) hon hx hq hr)
        (wfClose_repeat (n := s.node.advance t) hon hx hq hr) a v n m per ch mode msg l y hy).imp
        (fun _ he => ⟨replied_of_send hx he, he.mem, he.mbx, he.ld⟩)
    · exact (requests_end (k := fun op => wfSend x.net x.client x.ver (wfOp q op) x.number q.seq.toNat 4 []
        (wfHeard x (s.node.advance t))) hu (fun op body => wfRequest_busy (n := s.node.advance t) hon hx hq ho)
        (wfClose_busy (n := s.node.advance t) hon hx hq ho) a v n m per ch mode msg l y hy).imp
        (fun _ he => ⟨replied_of_send hx he, he.mem, he.mbx, he.ld⟩)
    · exact (requests_end (k := fun op => wfAnswer x (wfOp q op) q.seq 0x11 [] (wfTaken q x (s.node.advance t))) hu
        (fun op body => wfRequest_malformed (n := s.node.advance t) hon hx hq ho hform)
        (wfClose_malformed (n := s.node.advance t) hon hx hq ho hform) a v n m per ch mode msg l y hy).imp
        (fun _ he => ⟨responded_of_answer hx rfl he, replied_of_answer hx he, he.mem, he.mbx, he.ld⟩)

end Sys2Proof.Machine
end

section
/-! SUPPORT. Mailboxes: what a post, a fetch and an acknowledgement make of the channels, the doorbells and the windows (R145 to
R152). -/

namespace Sys2Proof.Machine
open Sys2Proof

/-! ### A party is told of a change of a channel -/

/-- Channel `ch` comes to hold `c`, and the party `id` is told: event `ev` at a host, and its doorbell rings (R147, R148, R152). -/
def tell (id ev ch : Nat) (c : MbChan) (n : Node) : Node := ring id ch (raiseIf (idHost id) ev (setMbChan ch c n))

/-- The channel after an acknowledgement with the word `v` (R148). -/
def MbChan.acked (v : Word) (c : MbChan) : MbChan := { c with st := .acked, ack := true, code := fld v 30 24 }

section
variable {id ev ch : Nat} {c : MbChan} {n : Node}

theorem tell_mbChan (j : Nat) : (tell id ev ch c n).mbChan j = if j = ch then c else n.mbChan j :=
  (ring_mbChan _ _ _ _).trans ((raiseIf_mbChan _ _ _ _).trans (mbChan_setMbChan _ _ _ _))

theorem ring_dbStat (hc : ch < 32) : bitOf ((ring id ch n).mbId id).dbStat ch = true := by
  simp [ring, bitOf_setBitW _ _ _ _ hc]

theorem tell_flag (hid : idHost id = true) (he : evtExists ev = true) (hev : ev < 128) :
    (tell id ev ch c n).evt.flag ev = true := by
  rw [tell, hid]
  exact ring_flag _ _ _ _ (raise_flag ev _ he hev)

end

/-! ### The operations (R146 to R150) -/

/-- Messages replaced are counted up to 255 (R147). -/
theorem posted_replaced (id : Nat) (msg : List Word) (c : MbChan) :
    (c.posted id msg).replaced = if c.st = .posted then min 255 (c.replaced + 1) else c.replaced := by
  have h : satInc 255 c.replaced = min 255 (c.replaced + 1) := by
    unfold satInc
    split <;> omega
  rw [MbChan.posted, h]

section
variable {id ch r snd : Nat} {v : Word} {n : Node}

theorem mbPost_posts (hb : mbBinding n ch = (id, r, true)) (hr : n.isRun (idIsland r) = true) :
    mbPost id ch n = (0, tell r 124 ch ((n.mbChan ch).posted id (n.mbId id).win) n) := mbPostMsg_posts hb hr

theorem mbPost_unbound (hb : (mbBinding n ch).2.2 = false) : mbPost id ch n = (6, n) := mbPostMsg_unbound hb

theorem mbPost_receiverDown (hb : mbBinding n ch = (snd, r, true)) (hr : n.isRun (idIsland r) = false) :
    mbPost id ch n = (1, n) := by
  simp [mbPost, mbPostMsg, hb, hr]

/-- A post that is not the bound sender's to a running receiver changes nothing. -/
theorem mbPost_refused {b : Bool} (hb : mbBinding n ch = (snd, r, b))
    (h : b = false ∨ snd ≠ id ∨ n.isRun (idIsland r) = false) : (mbPost id ch n).2 = n := by
  rcases h with rfl | hs | hr
  · rw [mbPost_unbound (by rw [hb])]
  · simp only [mbPost, mbPostMsg, hb]
    split
    · rfl
    · simp [hs]
  · cases b
    · rw [mbPost_unbound (by rw [hb])]
    · rw [mbPost_receiverDown hb hr]

theorem mbFetch_fetches (h : mbMayFetch n id ch = true) :
    mbFetch id ch n = (0, setMbId id { n.mbId id with win := mbSlot n ch } n) := if_pos h

theorem mbFetch_denied (h : mbMayFetch n id ch = false) : mbFetch id ch n = (6, n) := if_neg (by simp [h])

theorem mbAck_acks (hb : mbBinding n ch = (snd, id, true)) (hst : (n.mbChan ch).st = .posted) (hv : bitOf v 31 = true) :
    mbAck id ch v n = (0, tell snd 125 ch ((n.mbChan ch).acked v) n) := by
  simp [mbAck, hb, hst, hv, tell, MbChan.acked]

theorem mbAck_denied {b : Bool} (hb : mbBinding n ch = (snd, r, b)) (h : b = false ∨ r ≠ id) : mbAck id ch v n = (6, n) := by
  simp only [mbAck, hb]
  exact if_pos (by simpa using h)

/-- Without a message to acknowledge, or with bit 31 at 0, the write is ignored. -/
theorem mbAck_ignored (hb : mbBinding n ch = (snd, id, true)) (h : (n.mbChan ch).st ≠ .posted ∨ bitOf v 31 = false) :
    mbAck id ch v n = (0, n) := by
  rcases h with h | h <;> simp [mbAck, hb, h]

end

/-! ### The registers of the mailboxes (R154) -/

section
variable (p : HostPort) {a : Nat} (v : Word) (m : Mems) (n : Node)

theorem regWrite_mbx (h1 : 0x1000 ≤ a) (h2 : a < 0x1208) :
    regWrite p a v m n = ((mbxWrite (portCode p) a v n).1, m, (mbxWrite (portCode p) a v n).2) := by
  have hb : blkAt a = none := by
    have h : a ∉ blkAddr := by
      simp only [blkAddr, List.mem_cons, List.not_mem_nil, or_false, not_or]
      omega
    simp [blkAt, h]
  have hw : writeLow p a v n = mbxWrite (portCode p) a v n := by
    unfold writeLow
    iterate 7 rw [if_neg (by omega)]
    rw [if_pos (by omega)]
  rw [regWrite_low (by omega) hb ?_ p v m n, hw]
  simp only [List.mem_cons, List.not_mem_nil, or_false, not_or]
  omega

theorem fld_channel (ch : Fin 32) : fld (wd ch.val) 4 0 = ch.val := by
  simp [fld, wd]

theorem regWrite_mbPost (ch : Fin 32) : regWrite p 0x1100 (wd ch.val) m n
    = ((mbPost (portCode p) ch.val n).1, m, (mbPost (portCode p) ch.val n).2) := by
  rw [regWrite_mbx p _ m n (by omega) (by omega)]
  simp [mbxWrite, fld_channel]

theorem regWrite_mbFetch (ch : Fin 32) : regWrite p 0x1104 (wd ch.val) m n
    = ((mbFetch (portCode p) ch.val n).1, m, (mbFetch (portCode p) ch.val n).2) := by
  rw [regWrite_mbx p _ m n (by omega) (by omega)]
  simp [mbxWrite, fld_channel]

theorem regWrite_mbAck (ch : Fin 32) : regWrite p (0x1000 + 4 * ch.val) v m n
    = ((mbAck (portCode p) ch.val v n).1, m, (mbAck (portCode p) ch.val v n).2) := by
  have hc : (0x1000 + 4 * ch.val - 0x1000) / 4 = ch.val := by omega
  have hw : mbxWrite (portCode p) (0x1000 + 4 * ch.val) v n = mbAck (portCode p) ch.val v n :=
    (if_pos (by omega)).trans (by rw [hc])
  rw [regWrite_mbx p v m n (by omega) (by omega), hw]

theorem regAttr_mbAck : ∀ ch : Fin 32, regAttr (0x1000 + 4 * ch.val) = some ⟨false, .wr⟩ := by decide +kernel

theorem regAttr_mbPost : regAttr 0x1100 = some ⟨false, .wr⟩ := by decide +kernel

theorem regAttr_mbFetch : regAttr 0x1104 = some ⟨false, .wr⟩ := by decide +kernel

end

/-! ### From the operations to the commands -/

/-- The state holds the mailboxes of `n` and every event flag that stands in `n`. -/
structure MailOf (n : Node) (u : State) : Prop where
  mbx : u.node.mbx = n.mbx
  flag : ∀ k, n.evt.flag k = true → u.node.evt.flag k = true

section
variable {n : Node} {u : State} (h : MailOf n u)
include h

theorem MailOf.mbChan (c : Nat) : u.node.mbChan c = n.mbChan c := by
  rw [Node.mbChan, h.mbx, Node.mbChan]

theorem MailOf.mbId (i : Nat) : u.node.mbId i = n.mbId i := by
  rw [Node.mbId, h.mbx, Node.mbId]

end

/-- What a change of channel `ch` of which `id` is told leaves: the channel, the ring and the event. -/
theorem MailOf.told {id ev ch : Nat} {c : MbChan} {n : Node} {u : State} (h : MailOf (tell id ev ch c n) u) (hc : ch < 32)
    (he : evtExists ev = true) (hev : ev < 128) : u.node.mbChan ch = c ∧ bitOf (u.node.mbId id).dbStat ch = true
      ∧ (idHost id = true → u.node.evt.flag ev = true) ∧ ∀ j, j ≠ ch → u.node.mbChan j = n.mbChan j := by
  refine ⟨?_, ?_, fun hid => h.flag ev (tell_flag hid he hev), fun j hj => ?_⟩
  · rw [h.mbChan, tell_mbChan, if_pos rfl]
  · rw [h.mbId]
    exact ring_dbStat hc
  · rw [h.mbChan, tell_mbChan, if_neg hj]

theorem MailOf.fetched {id ch : Nat} {n : Node} {u : State}
    (h : MailOf (setMbId id { n.mbId id with win := mbSlot n ch } n) u) :
    (u.node.mbId id).win = mbSlot n ch ∧ u.node.mbx.chans = n.mbx.chans := by
  refine ⟨?_, ?_⟩
  · rw [h.mbId, mbId_setMbId_same]
  · rw [h.mbx]
    rfl

theorem mbBy_host (p : HostPort) (c : Acc) (f : Node → Nat × Node) :
    mbBy (BitVec.ofNat 8 (portCode p)).toNat c f = hostDo p c := by
  cases p <;> rfl

theorem mbBy_engine {id : Nat} (hid : idHost id = false) (c : Acc) (f : Node → Nat × Node) (m : Mems) (n : Node) :
    mbBy id c f m n = (m, if n.isRun (idIsland id) = true then (f n).2 else n) := by
  simp only [idHost, Bool.or_eq_false_iff, beq_eq_false_iff_ne] at hid
  obtain ⟨⟨⟨h1, h2⟩, h3⟩, h5⟩ := hid
  unfold mbBy
  split
  · exact absurd rfl h1
  · exact absurd rfl h2
  · exact absurd rfl h3
  · exact absurd rfl h5
  · exact (apply_ite (Prod.mk m) _ _ _).symm

/-- A mailbox command of a host is the operation `f` at its register, which answers the operation's status. -/
theorem mailHost_ends {p : HostPort} {a st : Nat} {v : Word} {f g : Node → Nat × Node} {s : State} {n : Node}
    (ha : regAttr a = some ⟨false, .wr⟩) (h : Takes s a) (hr : ∀ m n, regWrite p a v m n = ((f n).1, m, (f n).2))
    (hf : f s.node = (st, n)) :
    Ends (onBoth (plantMem 0 (mbBy (BitVec.ofNat 8 (portCode p)).toNat (.wr a v) g)) s)
      (fun u => Answered u p st a 0#32 ∧ MailOf n u) := by
  have hd := hostDo_wr ha h 0 p v
  rw [hr, advance_zero, hf] at hd
  rw [mbBy_host]
  refine (plantMem_ended (t := 0) h.1 ((congrArg (hostDo p _ s.mem) (advance_zero _)).trans hd)).imp
    (fun u he => ⟨?_, ?_, fun k hk => he.flag k ?_⟩)
  · rw [Answered, he.port]
    exact wrDone_ans _ _ _ _
  · exact he.mbx.trans (wrDone_mbx _ _ _ _)
  · rw [wrDone_evt]
    exact hk

/-- A mailbox command of an engine is the operation `f`, if the engine's island runs. -/
theorem mailEngine_ends {id : Nat} {c : Acc} {f : Node → Nat × Node} {s : State} (hu : s.node.up = true)
    (hid : idHost id = false) :
    Ends (onBoth (plantMem 0 (mbBy id c f)) s) (MailOf (if s.node.isRun (idIsland id) = true then (f s.node).2 else s.node)) := by
  have hd := mbBy_engine hid c f s.mem (s.node.advance 0)
  rw [advance_zero] at hd
  exact (plantMem_ended (t := 0) hu ((congrArg (mbBy id c f s.mem) (advance_zero _)).trans hd)).imp
    (fun _ he => ⟨he.mbx, he.flag⟩)

theorem mailEngine_running_ends {id st : Nat} {c : Acc} {f : Node → Nat × Node} {s : State} {n : Node} (hu : s.node.up = true)
    (hid : idHost id = false) (hi : s.node.isRun (idIsland id) = true) (hf : f s.node = (st, n)) :
    Ends (onBoth (plantMem 0 (mbBy id c f)) s) (MailOf n) := by
  have h := mailEngine_ends (c := c) (f := f) hu hid
  rwa [if_pos hi, hf] at h

section
variable {p : HostPort} {ch : Fin 32} {st : Nat} {n : Node} {s : State}

theorem mbPost_host_ends (h : Takes s 0x1100) (hf : mbPost (portCode p) ch.val s.node = (st, n)) :
    Ends (exec (.mbPost (BitVec.ofNat 8 (portCode p)) ch) s) (fun u => Answered u p st 0x1100 0#32 ∧ MailOf n u) :=
  mailHost_ends regAttr_mbPost h (fun m n => regWrite_mbPost p m n ch) hf

theorem mbFetch_host_ends (h : Takes s 0x1104) (hf : mbFetch (portCode p) ch.val s.node = (st, n)) :
    Ends (exec (.mbFetch (BitVec.ofNat 8 (portCode p)) ch) s) (fun u => Answered u p st 0x1104 0#32 ∧ MailOf n u) :=
  mailHost_ends regAttr_mbFetch h (fun m n => regWrite_mbFetch p m n ch) hf

theorem mbAck_host_ends {v : Word} (h : Takes s (0x1000 + 4 * ch.val)) (hf : mbAck (portCode p) ch.val v s.node = (st, n)) :
    Ends (exec (.mbAck (BitVec.ofNat 8 (portCode p)) ch v) s)
      (fun u => Answered u p st (0x1000 + 4 * ch.val) 0#32 ∧ MailOf n u) :=
  mailHost_ends (regAttr_mbAck ch) h (fun m n => regWrite_mbAck p v m n ch) hf

end

/-- Settles O25: a host's command is its register's operation and an engine's the operation itself; a post and an acknowledgement
that are carried out change the channel and tell the other party, and the refused ones change nothing. -/
theorem mailboxes : Obligations.Mailboxes := by
  refine ⟨?hostPost, ?enginePost, ?hostFetch, ?engineFetch, ?hostAck, ?engineAck, ?postUnbound, ?postDown, ?fetchDenied,
    ?ackDenied, ?ackIgnored, ?enginePostRefused⟩
  case hostPost =>
    intro p ch r s h hb hr
    refine (mbPost_host_ends h (mbPost_posts hb hr)).imp (fun u ⟨hans, hu⟩ => ?_)
    obtain ⟨hchan, hbell, hevt, hrest⟩ := hu.told ch.isLt rfl (by omega)
    rw [hchan]
    exact ⟨hans, rfl, rfl, posted_replaced _ _ _, hbell, hevt, hrest⟩
  case enginePost =>
    intro id ch r s hup hid hb hr hi
    refine (mailEngine_running_ends hup hid hi (mbPost_posts hb hr)).imp (fun u hu => ?_)
    obtain ⟨hchan, hbell, hevt, -⟩ := hu.told ch.isLt rfl (by omega)
    rw [hchan]
    exact ⟨rfl, rfl, hbell, hevt⟩
  case hostFetch =>
    exact fun p ch s h hm => (mbFetch_host_ends h (mbFetch_fetches hm)).imp (fun _ ⟨hans, hu⟩ => ⟨hans, hu.fetched⟩)
  case engineFetch =>
    exact fun id ch s hup hid hm hi => (mailEngine_running_ends hup hid hi (mbFetch_fetches hm)).imp (fun _ hu => hu.fetched)
  case hostAck =>
    intro p ch v snd s h hb hst hv
    refine (mbAck_host_ends h (mbAck_acks hb hst hv)).imp (fun u ⟨hans, hu⟩ => ?_)
    obtain ⟨hchan, hbell, hevt, -⟩ := hu.told ch.isLt rfl (by omega)
    rw [hchan]
    exact ⟨hans, rfl, rfl, rfl, hbell, hevt⟩
  case engineAck =>
    intro id ch v snd s hup hid hi hb hst hv
    refine (mailEngine_running_ends hup hid hi (mbAck_acks hb hst hv)).imp (fun u hu => ?_)
    obtain ⟨hchan, hbell, hevt, -⟩ := hu.told ch.isLt rfl (by omega)
    rw [hchan]
    exact ⟨rfl, rfl, hbell, hevt⟩
  case postUnbound =>
    exact fun p ch s h hb => (mbPost_host_ends h (mbPost_unbound hb)).imp (fun _ ⟨hans, hu⟩ => ⟨hans, hu.mbx⟩)
  case postDown =>
    exact fun p ch snd r s h hb hr => (mbPost_host_ends h (mbPost_receiverDown hb hr)).imp (fun _ ⟨hans, hu⟩ => ⟨hans, hu.mbx⟩)
  case fetchDenied =>
    exact fun p ch s h hm => (mbFetch_host_ends h (mbFetch_denied hm)).imp (fun _ ⟨hans, hu⟩ => ⟨hans, hu.mbx⟩)
  case ackDenied =>
    exact fun p ch v snd r b s h hb hd => (mbAck_host_ends h (mbAck_denied hb hd)).imp (fun _ ⟨hans, hu⟩ => ⟨hans, hu.mbx⟩)
  case ackIgnored =>
    exact fun p ch v snd s h hb hd => (mbAck_host_ends h (mbAck_ignored hb hd)).imp (fun _ ⟨hans, hu⟩ => ⟨hans, hu.mbx⟩)
  case enginePostRefused =>
    intro id ch snd r b s hup hid hb hd
    refine (mailEngine_ends hup hid).imp (fun u hu => ?_)
    rw [mbPost_refused hb hd, ite_self] at hu
    exact hu.mbx

end Sys2Proof.Machine
end

section
/-! SUPPORT. What a happening of the plant leaves as it was: what its operation leaves, but for the plant's own work after it. -/

namespace Sys2Proof.Machine
open Sys2Proof

/-! ### From an operation to its command -/

section
variable {f : Node → Node} {ps qs : List Part} (hf : ∀ n, Leaves ps n (f n)) (t : Nat) (s : State)
include hf

/-- A happening that the plant follows shows where its operation works, in DEVTIME, and in what the plant's own work may change. -/
theorem keeps_plantAt (hq : .devtime :: ps ⊆ withPlant qs) : Ends (onNode (plantAt t f) s) (Keeps (withPlant qs) s) := by
  obtain ⟨htime, hps⟩ := List.cons_subset.mp hq
  refine ⟨_, rfl, rfl, rfl, Leaves.ite (fun _ => ?_) (fun _ => Leaves.refl _ _)⟩
  have ha : Leaves (withPlant qs) s.node (s.node.advance t) := (advance_leaves t s.node).mono (by simpa using htime)
  exact (ha.trans ((hf _).mono hps)).trans ((settle_leaves _).mono (plantParts_subset_withPlant qs))

theorem keeps_plantOp (hq : ps ⊆ withPlant qs) : Ends (onNode (plantOp f) s) (Keeps (withPlant qs) s) :=
  ⟨_, rfl, rfl, rfl, Leaves.ite (fun _ => ((hf _).mono hq).trans ((settle_leaves _).mono (plantParts_subset_withPlant qs)))
    (fun _ => Leaves.refl _ _)⟩

/-- One that the plant does not follow. -/
theorem keeps_upAt (hq : .devtime :: ps ⊆ qs) : Ends (onNode (upAt t f) s) (Keeps qs s) := by
  obtain ⟨htime, hps⟩ := List.cons_subset.mp hq
  refine ⟨_, rfl, rfl, rfl, Leaves.ite (fun _ => ?_) (fun _ => Leaves.refl _ _)⟩
  exact ((advance_leaves t s.node).mono (by simpa using htime)).trans ((hf _).mono hps)

end

/-! ### Commands of one kind -/

section
variable (t : Nat) (s : State)

/-- A far island that enters FAULT ends what waits for it (R20). -/
theorem causewayTimeout_leaves (src dst : Nat) (n : Node) :
    Leaves [.alm, .almDue, .ca, .cal, .cj, .devRest, .devState, .digOut, .dsp, .dup, .dupSent, .evt, .ex, .free, .gen, .isl, .ln,
      .lo, .net, .po, .rcd, .seq, .shp, .slots, .spi, .tx, .ui, .wf] n (dropWaiting (farEnd src dst) (causewayTimeout src dst n)) := by
  have hc : Leaves _ n (causewayTimeout src dst n) := fun _ => causewayTimeout_get src dst n
  have hd : Leaves _ (causewayTimeout src dst n) (dropWaiting (farEnd src dst) (causewayTimeout src dst n)) :=
    fun _ => dropWaiting_get (farEnd src dst) _
  exact (hc.mono (by decide)).trans (hd.mono (by decide))

/-- Digital outputs: cycles, pulses, tests and protection of one channel (R280 to R286). -/
theorem keeps_digitalOutput (n : Fin 32) : ∀ c ∈ ([.tpCycleStart n t, .tpOffEdge n t, .doOverload n t, .doOvertemp n t,
    .doOvertempClear n t, .darkTest n t, .doPulseEnd n t] : List Instr), Ends (exec c s) (Keeps (withPlant [.devtime]) s) := by
  simp only [List.forall_mem_cons]
  exact ⟨keeps_plantAt (fun k _ => tpStart_get n.val t k) t s (by decide),
    keeps_plantAt (fun k _ => tpOffEdge_get n.val t k) t s (by decide),
    keeps_plantAt (fun k _ => doOverload_get n.val k) t s (by decide),
    keeps_plantAt (fun k _ => doOvertemp_get n.val k) t s (by decide),
    keeps_plantAt (fun k _ => doOvertempClear_get n.val k) t s (by decide),
    keeps_plantAt (fun k _ => darkTest_get n.val t k) t s (by decide),
    keeps_plantAt (fun k _ => doPulseEnd_get n.val t k) t s (by decide), List.forall_mem_nil _⟩

/-- Shaped outputs: firings, instructions, ends of waits and protection of one channel (R304 to R317). -/
theorem keeps_shapedOutput (n : Fin 16) : ∀ c ∈ ([.queuedFiringStart n t, .endIns n t, .seti n t, .ramp n t, .waitt n t,
    .waiti n t, .waitp n t, .holdIns n t, .freew n t, .quench n t, .markIns n t, .jif n t, .loopIns n t, .flagIns n t,
    .illegalInstruction n t, .waittExpiry n t, .waitiMet n t, .waitiTimeout n t, .waitpReached n t, .waitpEarlyEnd n t,
    .holdEnd n t, .rampComplete n t, .staggerExpiry n t, .svOverCurrent n t] : List Instr),
    Ends (exec c s) (Keeps (withPlant [.devtime]) s) := by
  simp only [List.forall_mem_cons]
  exact ⟨keeps_plantAt (fun k _ => svQueued_get n.val t k) t s (by decide),
    keeps_plantAt (fun k _ => svEnd_get n.val t k) t s (by decide),
    keeps_plantAt (fun k _ => svSeti_get n.val t k) t s (by decide),
    keeps_plantAt (fun k _ => svRamp_get n.val t k) t s (by decide),
    keeps_plantAt (fun k _ => svWaitt_get n.val t k) t s (by decide),
    keeps_plantAt (fun k _ => svWaiti_get n.val t k) t s (by decide),
    keeps_plantAt (fun k _ => svWaitp_get n.val k) t s (by decide),
    keeps_plantAt (fun k _ => svHold_get n.val t k) t s (by decide),
    keeps_plantAt (fun k _ => svFreew_get n.val t k) t s (by decide),
    keeps_plantAt (fun k _ => svQuench_get n.val t k) t s (by decide),
    keeps_plantAt (fun k _ => svMark_get n.val t k) t s (by decide),
    keeps_plantAt (fun k _ => svJif_get n.val k) t s (by decide),
    keeps_plantAt (fun k _ => svLoop_get n.val t k) t s (by decide),
    keeps_plantAt (fun k _ => svFlag_get n.val k) t s (by decide),
    keeps_plantAt (fun k _ => svIllegalAt_get n.val t k) t s (by decide),
    keeps_plantAt (fun k _ => svWaittEnd_get n.val t k) t s (by decide),
    keeps_plantAt (fun k _ => svWaitiMet_get n.val k) t s (by decide),
    keeps_plantAt (fun k _ => svWaitiTmo_get n.val t k) t s (by decide),
    keeps_plantAt (fun k _ => svWaitpDone_get n.val k) t s (by decide),
    keeps_plantAt (fun k _ => svWaitpEarly_get n.val k) t s (by decide),
    keeps_plantAt (fun k _ => svHoldEnd_get n.val t k) t s (by decide),
    keeps_plantAt (fun k _ => svRampDone_get n.val k) t s (by decide),
    keeps_plantAt (fun k _ => svStagger_get n.val t k) t s (by decide),
    keeps_plantAt (fun k _ => svOverCurrent_get n.val t k) t s (by decide), List.forall_mem_nil _⟩

end

/-- Settles O6: a command changes where its operation works, and in what the plant's own work after it may change. -/
theorem frameOfPlantHappenings : Obligations.FrameOfPlantHappenings := by
  intro s
  and_intros
  -- islands, engines, junction
  · exact fun i t => keeps_plantAt (fun k _ => islandFault_get i.val k) t s (by decide)
  · exact fun a b t => keeps_plantAt (fun k => causewayTimeout_leaves a.val b.val k) t s (by decide)
  · exact fun e c t => keeps_plantAt (fun k _ => engineFail_get e.val c k) t s (by decide)
  · exact fun e t => keeps_plantAt (fun k _ => spareStart_get e.val k) t s (by decide)
  · exact fun t => keeps_plantAt (fun k _ => lockstep_get k) t s (by decide)
  · exact keeps_plantOp (fun k _ => drain_get k) s (by decide)
  · exact fun r t => keeps_plantAt (fun k _ => staleOne_get k (resAddr r.val)) t s (by decide)
  · exact fun f t => keeps_plantAt (fun k _ => scrub_get f t k) t s (by decide)
  -- device states
  · exact fun t => keeps_plantAt (fun k _ => runWhenDue_get t k) t s (by decide)
  · exact fun t => keeps_plantAt (fun k _ => haltWhenDue_get t k) t s (by decide)
  · exact fun m roleIn t => keeps_plantAt (fun k _ => calibrated_get m roleIn t k) t s (by decide)
  · intro b t
    simp only [List.forall_mem_cons]
    exact ⟨keeps_plantAt (fun k _ => feedSet_get b false k) t s (by decide),
      keeps_plantAt (fun k _ => feedSet_get b true k) t s (by decide), List.forall_mem_nil _⟩
  · intro t
    simp only [List.forall_mem_cons]
    exact ⟨keeps_plantAt (fun k _ => overtempSet_get true k) t s (by decide),
      keeps_plantAt (fun k _ => overtempSet_get false k) t s (by decide), List.forall_mem_nil _⟩
  -- universal inputs, cold junctions, excitation supplies
  · exact fun n own byp lead t => keeps_plantAt (fun k _ => uiStep_get n.val ⟨own, byp, lead⟩ t k) t s (by decide)
  · exact fun n t => keeps_plantAt (fun k _ => uiFilterRestart_get n.val t k) t s (by decide)
  · exact fun n mC t => keeps_plantAt (fun k _ => cjConvert_get n.val mC t k) t s (by decide)
  · exact fun n nv t => keeps_plantAt (fun k _ => exConvert_get n.val nv t k) t s (by decide)
  · intro n t
    simp only [List.forall_mem_cons]
    exact ⟨keeps_plantAt (fun k _ => exChangeApply_get n.val t k) t s (by decide),
      keeps_plantAt (fun k _ => exSettleEnd_get n.val t k) t s (by decide), List.forall_mem_nil _⟩
  · exact fun n ok t => keeps_plantAt (fun k _ => exRegOkChange_get n.val ok t k) t s (by decide)
  · intro n holds t
    simp only [List.forall_mem_cons]
    exact ⟨keeps_plantAt (fun k _ => exLimit_get n.val holds k) t s (by decide),
      keeps_plantAt (fun k _ => exSenseErr_get n.val holds k) t s (by decide), List.forall_mem_nil _⟩
  -- rounds
  · exact fun b t => keeps_plantAt (fun k _ => roundStart_get b.val t k) t s (by decide)
  · exact fun b loopR t => keeps_plantAt (fun k _ => takeover_get b.val loopR t k) t s (by decide)
  · exact fun b m t => keeps_plantAt (fun k _ => referencesDone_get b.val m t k) t s (by decide)
  · exact fun b t => keeps_plantAt (fun k _ => crossCheck_get b.val t k) t s (by decide)
  · exact fun b t => keeps_plantAt (fun k _ => handback_get b.val t k) t s (by decide)
  · exact fun b m t => keeps_plantAt (fun k _ => bcSelfCal_get b.val m t k) t s (by decide)
  · exact fun n t => keeps_plantAt (fun k _ => converterFault_get n.val t k) t s (by decide)
  · exact fun n t => keeps_plantAt (fun k _ => pairTimer_get n.val t k) t s (by decide)
  · exact fun n t => keeps_plantAt (fun k _ => triadDo_get n.val t k) t s (by decide)
  -- charge channels
  · intro n t
    simp only [List.forall_mem_cons]
    exact ⟨keeps_plantAt (fun k _ => caTrigger_get n.val t k) t s (by decide),
      keeps_plantAt (fun k _ => caResetOpen_get n.val t k) t s (by decide),
      keeps_plantAt (fun k _ => caAbandonDue_get n.val t k) t s (by decide), List.forall_mem_nil _⟩
  · exact fun n q t => keeps_plantAt (fun k _ => caStepEnd_get n.val q k) t s (by decide)
  · exact fun n t => keeps_plantAt (fun k _ => caRecord_get n.val t k) t s (by decide)
  · exact fun p n t => keeps_upAt (fun k _ => caHoldTimeout_get p n.val t k) t s (by decide)
  -- loop outputs, miswiring, HART, pulse outputs
  · exact fun n mean comm t => keeps_plantAt (fun k _ => loReadback_get n.val mean comm t k) t s (by decide)
  · exact fun n lost t => keeps_plantAt (fun k _ => loFieldLoss_get n.val lost k) t s (by decide)
  · exact fun ch t => keeps_plantAt (fun k _ => mwDetect_get ch.val t k) t s (by decide)
  · exact fun ch t => keeps_plantAt (fun k _ => mwReconnect_get ch.val t k) t s (by decide)
  · exact fun v t => keeps_plantAt (fun k _ => hartDue_get v.val k) t s (by decide)
  · exact fun m resp t => keeps_plantAt (fun k _ => hartComplete_get m.val resp t k) t s (by decide)
  · exact fun ch t => keeps_plantAt (fun k _ => hartPassReq_get ch.val k) t s (by decide)
  · intro n t
    simp only [List.forall_mem_cons]
    exact ⟨keeps_plantAt (fun k _ => poBoundary_get n.val k) t s (by decide),
      keeps_plantAt (fun k _ => poPulseEnd_get n.val t k) t s (by decide), List.forall_mem_nil _⟩
  · exact fun m t => keeps_plantAt (fun k _ => hartNoResp_get m.val k) t s (by decide)
  -- digital inputs and outputs
  · exact fun n lvl t => keeps_plantAt (fun k _ => diStep_get n.val lvl t k) t s (by decide)
  · exact fun n opn t => keeps_plantAt (fun k _ => diOpenWire_get n.val opn k) t s (by decide)
  · exact fun g on t => keeps_plantAt (fun k _ => diOt_get g.val on k) t s (by decide)
  · exact fun n t => keeps_plantAt (fun k _ => ssOverload_get n.val t k) t s (by decide)
  · exact fun n ok t => keeps_plantAt (fun k _ => ssRetry_get n.val ok t k) t s (by decide)
  · exact fun n t => keeps_digitalOutput t s n
  · exact fun n which opn t => keeps_plantAt (fun k _ => doOpenWire_get n.val which opn t k) t s (by decide)
  · exact fun n fell t => keeps_plantAt (fun k _ => darkEnd_get n.val fell t k) t s (by decide)
  · exact fun f mv t => keeps_plantAt (fun k _ => fpSet_get f.val mv k) t s (by decide)
  -- shaped outputs
  · exact fun n t => keeps_shapedOutput t s n
  · exact fun b t => keeps_plantAt (fun k _ => bankOverCurrent_get b.val t k) t s (by decide)
  · exact fun n mA t => keeps_plantAt (fun k _ => svSense_get n.val mA t k) t s (by decide)
  -- position interfaces, lanes
  · exact fun n e t => keeps_plantAt (fun k _ => pfEdge_get n.val e t k) t s (by decide)
  · exact fun n e t => keeps_plantAt (fun k _ => pfQuadError_get n.val e t k) t s (by decide)
  · exact fun n e t => keeps_plantAt (fun k _ => pfHallError_get n.val e.u e.v e.w t k) t s (by decide)
  · exact fun n e t => keeps_plantAt (fun k _ => pfAmplError_get n.val e.sin e.cos k) t s (by decide)
  · exact fun n frame t => keeps_plantAt (fun k _ => pfSsi_get n.val frame t k) t s (by decide)
  · exact fun n t => keeps_plantAt (fun k _ => pfStill_get n.val t k) t s (by decide)
  · intro n t
    simp only [List.forall_mem_cons]
    exact ⟨keeps_plantAt (fun k _ => lnEval_get n.val t k) t s (by decide),
      keeps_plantAt (fun k _ => lnFollowDue_get n.val t k) t s (by decide), List.forall_mem_nil _⟩

end Sys2Proof.Machine
end

section
/-! SUPPORT. Channels of one kind stand apart: what an operation on channel `i` leaves of the others. -/

namespace Sys2Proof.Machine
open Sys2Proof

/-! ### Kinds of channels -/

/-- The kinds of channels of the plant that have a table of their own. -/
inductive ChanKind where
  | ui | ex | ca | lo | po | di | ss | pf | hart | ln

/-- The part that holds the channels of a kind. -/
def ChanKind.part : ChanKind → Part
  | .ui => .ui
  | .ex => .ex
  | .ca => .ca
  | .lo => .lo
  | .po => .po
  | .di => .digIn
  | .ss => .digIn
  | .pf => .pf
  | .hart => .hart
  | .ln => .ln

def ChanKind.Val : ChanKind → Type
  | .ui => UiChan
  | .ex => ExChan
  | .ca => CaChan
  | .lo => LoChan
  | .po => PoChan
  | .di => DiChan
  | .ss => SsChan
  | .pf => PfChan
  | .hart => HartM
  | .ln => Lane

/-- Channel `k` of a kind. -/
def ChanKind.chan (n : Node) (k : Nat) : (κ : ChanKind) → κ.Val
  | .ui => n.uiC k
  | .ex => n.exC k
  | .ca => n.caC k
  | .lo => n.loC k
  | .po => n.poC k
  | .di => n.diC k
  | .ss => n.ssC k
  | .pf => n.pfC k
  | .hart => n.hmC k
  | .ln => n.lnC k

theorem ChanKind.chan_of_get {n m : Node} (κ : ChanKind) (h : Part.get m κ.part = Part.get n κ.part) (k : Nat) :
    κ.chan m k = κ.chan n k := by
  cases κ with
  | ui => exact congrArg (fun l => tget ({} : UiChan) l k) h
  | ex => exact congrArg (fun l => tget ({} : ExChan) l k) h
  | ca => exact congrArg (fun l => tget ({} : CaChan) l k) h
  | lo => exact congrArg (fun l => tget ({} : LoChan) l k) h
  | po => exact congrArg (fun l => tget ({} : PoChan) l k) h
  | di => exact congrArg (fun l => tget ({} : DiChan) l k) (Prod.mk.inj h).1
  | ss => exact congrArg (fun l => tget ({} : SsChan) l k) (Prod.mk.inj (Prod.mk.inj h).2).1
  | pf => exact congrArg (fun l => tget ({} : PfChan) l k) h
  | hart => exact congrArg (fun l => tget ({} : HartM) l k) h
  | ln => exact congrArg (fun l => tget ({} : Lane) l k) h

/-- The parts that every command may change beside its own hold no channel. -/
theorem ChanKind.part_notMem (κ : ChanKind) (p : HostPort) : κ.part ∉ [.devtime, .port p, .blk, .net] ++ plantParts := by
  cases κ <;> simp [ChanKind.part]

/-! ### The other channels stand -/

/-- Of the channels of a kind, at most number `i` differs. -/
def OthersStand (κ : ChanKind) (i : Nat) (n m : Node) : Prop := ∀ k, k ≠ i → κ.chan m k = κ.chan n k

section
variable {κ : ChanKind} {i : Nat} {n m : Node}

theorem OthersStand.refl (n : Node) : OthersStand κ i n n := fun _ _ => rfl

theorem OthersStand.trans {w : Node} (h : OthersStand κ i n m) (g : OthersStand κ i m w) : OthersStand κ i n w :=
  fun k hk => (g k hk).trans (h k hk)

theorem OthersStand.of_get (h : Part.get m κ.part = Part.get n κ.part) : OthersStand κ i n m := fun k _ => κ.chan_of_get h k

theorem OthersStand.then_get {w : Node} (h : OthersStand κ i n m) (g : Part.get w κ.part = Part.get m κ.part) :
    OthersStand κ i n w := h.trans (.of_get g)

theorem OthersStand.ite {c : Prop} [Decidable c] {w : Node} (h : OthersStand κ i n m) (g : OthersStand κ i n w) :
    OthersStand κ i n (if c then m else w) := by
  split
  · exact h
  · exact g

theorem OthersStand.then_ite {c : Prop} [Decidable c] {w : Node} (h : OthersStand κ i n m) (g : OthersStand κ i m w) :
    OthersStand κ i n (if c then w else m) := (h.trans g).ite h

theorem OthersStand.foldl {β : Type} {f : Node → β → Node} {l : List β} (h : OthersStand κ i n m)
    (hf : ∀ w x, OthersStand κ i w (f w x)) : OthersStand κ i n (l.foldl f m) := by
  induction l generalizing m with
  | nil => exact h
  | cons x r ih => exact ih (h.trans (hf m x))

theorem OthersStand.then_raise (h : OthersStand κ i n m) (j : Nat) : OthersStand κ i n (raise j m) :=
  h.then_get (raise_get j m (by cases κ <;> simp [ChanKind.part]))

theorem OthersStand.then_raiseIf (h : OthersStand κ i n m) (b : Bool) (j : Nat) : OthersStand κ i n (raiseIf b j m) :=
  h.then_get (raiseIf_get b j m (by cases κ <;> simp [ChanKind.part]))

theorem OthersStand.then_complete (h : OthersStand κ i n m) (p g : Nat) (es : List Entry) (t : Nat) :
    OthersStand κ i n (complete p g es t m) :=
  h.then_get (complete_get p g es t m (by cases κ <;> simp [ChanKind.part]))

theorem OthersStand.of_leaves {ps : List Part} {p : HostPort} (h : Leaves ps n m)
    (hs : ps ⊆ [.devtime, .port p, .blk, .net] ++ plantParts) : OthersStand κ i n m :=
  .of_get (h _ (fun hx => κ.part_notMem p (hs hx)))

end

/-! ### One channel is written -/

section
variable {i : Nat} {n : Node}

theorem setUi_others (u : UiChan) : OthersStand .ui i n (setUi i u n) := fun k hk => (uiC_setUi i u n k).trans (if_neg hk)
theorem modUi_others (f : UiChan → UiChan) : OthersStand .ui i n (modUi i f n) := setUi_others _
theorem setEx_others (u : ExChan) : OthersStand .ex i n (setEx i u n) := fun k hk => (exC_setEx i u n k).trans (if_neg hk)
theorem modEx_others (f : ExChan → ExChan) : OthersStand .ex i n (modEx i f n) := setEx_others _
theorem setCa_others (u : CaChan) : OthersStand .ca i n (setCa i u n) := fun k hk => (caC_setCa i u n k).trans (if_neg hk)
theorem modCa_others (f : CaChan → CaChan) : OthersStand .ca i n (modCa i f n) := setCa_others _
theorem setLo_others (u : LoChan) : OthersStand .lo i n (setLo i u n) := fun k hk => (loC_setLo i u n k).trans (if_neg hk)
theorem modLo_others (f : LoChan → LoChan) : OthersStand .lo i n (modLo i f n) := setLo_others _
theorem setPo_others (u : PoChan) : OthersStand .po i n (setPo i u n) := fun k hk => (poC_setPo i u n k).trans (if_neg hk)
theorem modPo_others (f : PoChan → PoChan) : OthersStand .po i n (modPo i f n) := setPo_others _
theorem setDi_others (u : DiChan) : OthersStand .di i n (setDi i u n) := fun k hk => (diC_setDi i u n k).trans (if_neg hk)
theorem setSs_others (u : SsChan) : OthersStand .ss i n (setSs i u n) := fun k hk => (ssC_setSs i u n k).trans (if_neg hk)
theorem setPf_others (u : PfChan) : OthersStand .pf i n (setPf i u n) := fun k hk => (pfC_setPf i u n k).trans (if_neg hk)
theorem modPf_others (f : PfChan → PfChan) : OthersStand .pf i n (modPf i f n) := setPf_others _
theorem setHm_others (u : HartM) : OthersStand .hart i n (setHm i u n) := fun k hk => (hmC_setHm i u n k).trans (if_neg hk)
theorem modHm_others (f : HartM → HartM) : OthersStand .hart i n (modHm i f n) := setHm_others _
theorem setLn_others (u : Lane) : OthersStand .ln i n (setLn i u n) := fun k hk => (lnC_setLn i u n k).trans (if_neg hk)
theorem modLn_others (f : Lane → Lane) : OthersStand .ln i n (modLn i f n) := setLn_others _

end

/-! ### From an operation to its command -/

section
variable {κ : ChanKind} {i k : Nat} (hk : k ≠ i) (s : State)
include hk

theorem othersStand_plantAt {f : Node → Node} (hf : ∀ n, OthersStand κ i n (f n)) (t : Nat) :
    Ends (onNode (plantAt t f) s) (fun u => κ.chan u.node k = κ.chan s.node k) := by
  have ha : OthersStand κ i s.node (s.node.advance t) := .of_leaves (p := .m1) (advance_leaves t s.node) (by simp)
  have hs : ∀ m, OthersStand κ i m (settle m) := fun m => .of_leaves (p := .m1) (settle_leaves m) (List.subset_append_right _ _)
  exact ⟨_, rfl, OthersStand.ite ((ha.trans (hf _)).trans (hs _)) (.refl _) k hk⟩

theorem othersStand_upAt {f : Node → Node} (hf : ∀ n, OthersStand κ i n (f n)) (t : Nat) :
    Ends (onNode (upAt t f) s) (fun u => κ.chan u.node k = κ.chan s.node k) := by
  have ha : OthersStand κ i s.node (s.node.advance t) := .of_leaves (p := .m1) (advance_leaves t s.node) (by simp)
  exact ⟨_, rfl, OthersStand.ite (ha.trans (hf _)) (.refl _) k hk⟩

end

/-! ### Accesses of the host ports -/

/-- An access by a port reaches at most channel `i` of a kind. -/
def AccOthers (κ : ChanKind) (i : Nat) (p : HostPort) (c : Acc) : Prop := ∀ m n, OthersStand κ i n (hostDo p c m n).2

section
variable {κ : ChanKind} {i : Nat} {p : HostPort} {a : Nat}

theorem accOthers_of_access {c : Acc} (h : ∀ m n, OthersStand κ i n (accDo p c m n).node) : AccOthers κ i p c := by
  intro m n
  have hp : OthersStand κ i n ((accDo p c m n).node.modPort p
      (fun q => { q with ans := { status := (accDo p c m n).st, addr := accAddr c, data := (accDo p c m n).data } })) :=
    (h m n).trans (.of_leaves (p := p) (modPort_leaves p _ _) (by simp))
  have hf : ∀ k, OthersStand κ i k (pushFwd (.port p) k) := fun k =>
    .of_leaves (p := p) (ps := [.net]) (fun _ hx => pushFwd_get _ k hx) (by simp)
  exact OthersStand.ite (hp.trans (hf _)) hp

theorem accOthers_rd (h : ∀ m n, OthersStand κ i n (regRead p a m n).2.2) : AccOthers κ i p (.rd a) := by
  refine accOthers_of_access (fun m n => ?_)
  unfold accDo readAccess
  dsimp only
  split
  · exact .refl n
  · split
    · exact .refl n
    · exact h m n

theorem touched_others (b : Bool) (blk : Nat) (n : Node) : OthersStand κ i n (if b then expertTouch blk n else n) :=
  .ite (.of_leaves (p := .m1) (ps := [.blk]) (fun _ hx => expertTouch_get blk n hx) (by simp)) (.refl n)

theorem accOthers_wr {v : Word} (h : ∀ m n, OthersStand κ i n (regWrite p a v m n).2.2) : AccOthers κ i p (.wr a v) := by
  refine accOthers_of_access (fun m n => ?_)
  have hlock : OthersStand κ i n (accLocked m n).node := (OthersStand.refl n).then_raise 7
  have hsend : ∀ k, OthersStand κ i k (sendFwd p a v k) := fun k => .of_leaves (p := p) (sendFwd_leaves p a v k) (by simp)
  unfold accDo writeAccess
  dsimp only
  split
  · exact .refl n
  · split
    · split
      · exact .refl n
      · split
        · exact hlock
        · exact (touched_others _ _ n).trans (hsend _)
    · split
      · exact .refl n
      · split
        · exact hlock
        · unfold writeDo
          split
          · exact .refl n
          · exact (h m n).trans (touched_others _ _ _)

/-- A register of the chapters above 0x2000. -/
theorem accOthers_high {v : Word} (ha : 0x2000 ≤ a) (hm : a % 0x400 ≠ 0x3FC) (hd : a ≠ 0x7804 ∧ a ≠ 0x7844)
    (h : ∀ n, OthersStand κ i n (writeHigh p a v n)) : AccOthers κ i p (.wr a v) :=
  accOthers_wr (fun m n => by rw [regWrite_high ha (blkAt_high ha hm) hd]; exact h n)

variable {c : Acc} {k : Nat} (h : AccOthers κ i p c) (hk : k ≠ i) (s : State)
include h hk

theorem AccOthers.hostOp : Ends (onBoth (hostOp p c) s) (fun u => κ.chan u.node k = κ.chan s.node k) := by
  refine ⟨_, rfl, ?_⟩
  dsimp only [Machine.hostOp]
  split
  · exact h s.mem s.node k hk
  · rfl

theorem AccOthers.upMem (t : Nat) : Ends (onBoth (upMem t (hostDo p c)) s) (fun u => κ.chan u.node k = κ.chan s.node k) := by
  have ha : OthersStand κ i s.node (s.node.advance t) := .of_leaves (p := p) (advance_leaves t s.node) (by simp)
  refine ⟨_, rfl, ?_⟩
  dsimp only [Machine.upMem]
  split
  · exact ha.trans (h _ _) k hk
  · rfl

theorem AccOthers.hostPlant (t : Nat) : Ends (onBoth (hostPlant t p c) s) (fun u => κ.chan u.node k = κ.chan s.node k) := by
  have ha : OthersStand κ i s.node (s.node.advance t) := .of_leaves (p := p) (advance_leaves t s.node) (by simp)
  have hs : ∀ m, OthersStand κ i m (settle m) := fun m => .of_leaves (p := p) (settle_leaves m) (List.subset_append_right _ _)
  refine ⟨_, rfl, ?_⟩
  dsimp only [Machine.hostPlant, plantMem]
  split
  · exact OthersStand.ite ((ha.trans (h _ _)).trans (hs _)) (ha.trans (h _ _)) k hk
  · rfl

end

/-! ### Universal inputs -/

section
variable (c : Nat) (t : Nat) (v : Word) (n : Node)

theorem roundAbandon_others {b : Nat} (h : (n.bcOf b).chan = c) : OthersStand .ui c n (roundAbandon b n) := by
  unfold roundAbandon
  dsimp only
  split
  · rw [h]
    exact ((((((modUi_others _).then_get (drawFree_get _ (by decide))).then_get (get_upd_cal _ _ (by decide))).then_get
      (setBc_get _ _ _ (by decide))).then_complete _ _ _ _).then_raise _)
  · exact .refl n

theorem roundsOf_others : OthersStand .ui c n (roundsOf c n) :=
  (OthersStand.refl n).foldl (fun m b => by
    split
    next h => exact roundAbandon_others c m (beq_iff_eq.mp h)
    next => exact .refl m)

theorem uiFiltWrite_others : OthersStand .ui c n (uiFiltWrite c v n) := by
  unfold uiFiltWrite
  exact (setUi_others _).ite ((setUi_others _).ite (setUi_others _))

theorem uiFilterRestart_others : OthersStand .ui c n (uiFilterRestart c t n) := by
  unfold uiFilterRestart
  split
  · exact ((roundsOf_others c n).trans (modUi_others _)).ite (.refl n)
  · exact .refl n

theorem prerollDone_others : OthersStand .ui c n (prerollDone c t n) :=
  (OthersStand.refl n).foldl (fun m b => by
    have hb : OthersStand .ui c m (recordDetour c b (setBc b { m.bcOf b with preroll := false } m)) :=
      (OthersStand.of_get (setBc_get _ _ _ (by decide))).then_get (recordDetour_get _ _ _ (by decide))
    exact (hb.trans (modUi_others _)).ite (.refl m))

theorem uiConvert_others (m : UiReading) : OthersStand .ui c n (uiConvert c m t n) := by
  have hs : OthersStand .ui c n (setUi c (uiPublish (prerollDone c t n) c m t).chan (prerollDone c t n)) :=
    (prerollDone_others c t n).trans (setUi_others _)
  unfold uiConvert
  dsimp only
  split
  · refine OthersStand.foldl (OthersStand.then_raiseIf (.then_raiseIf ?_ _ _) _ _) (fun w b => .of_get (bcPair_get _ _ _ _ _ (by decide)))
    split
    · exact hs.then_complete _ _ _ _
    · exact hs
  · exact .refl n

theorem uiMiswired_others : OthersStand .ui c n (uiMiswired c t n) := by
  unfold uiMiswired
  exact ((setUi_others _).then_complete _ _ _ _).ite (.refl n)

theorem uiStep_others (x : UiReading) : OthersStand .ui c n (uiStep c x t n) := by
  unfold uiStep
  exact (uiMiswired_others c t n).ite ((uiConvert_others c t n x).then_ite (.of_get (ilUi_get _ _ _ (by decide))))

end

/-! ### Excitation supplies -/

section
variable (k : Nat) (t : Nat) (v : Word) (n : Node)

theorem exApply_others : OthersStand .ex k n (exApply k t n) := by
  have hf : OthersStand .ex k n ((List.range 64).foldl (fun m c => if m.boundTo k c then
      modUi c (fun u => { u with conv := false }) (roundsOf c m) else m) n) :=
    (OthersStand.refl n).foldl (fun m c =>
      ((OthersStand.of_get (roundsOf_get c m (by decide))).then_get (modUi_get c _ _ (by decide))).ite (.refl m))
  exact hf.trans (modEx_others _)

theorem exRequest_others : OthersStand .ex k n (exRequest k t n) := by
  unfold exRequest
  split
  · exact modEx_others _
  · split
    · exact (OthersStand.refl n).ite (modEx_others _)
    · exact exApply_others k t n

theorem exUpdate_others : OthersStand .ex k n (exUpdate k t n) := by
  unfold exUpdate
  exact (OthersStand.refl n).ite (exRequest_others k t n)

theorem exCtrlWrite_others : OthersStand .ex k n (exCtrlWrite k v n) := by
  unfold exCtrlWrite
  exact ((modEx_others _).trans (exUpdate_others k _ _)).ite (modEx_others _)

theorem exChangeApply_others : OthersStand .ex k n (exChangeApply k t n) := by
  unfold exChangeApply
  split
  · exact (exApply_others k _ n).ite (.refl n)
  · exact .refl n

theorem modUi_foldl_others (b : Node → Nat → Bool) (f : UiChan → UiChan) (l : List Nat) :
    OthersStand .ex k n (l.foldl (fun m c => if b m c then modUi c f m else m) n) :=
  (OthersStand.refl n).foldl (fun m c => (OthersStand.of_get (modUi_get c f m (by decide))).ite (.refl m))

theorem exSettleEnd_others : OthersStand .ex k n (exSettleEnd k t n) := by
  unfold exSettleEnd
  split
  · exact .refl n
  · exact (OthersStand.refl n).ite (((modEx_others _).trans (exApply_others k _ _)).ite
      (((modEx_others _).trans (modUi_foldl_others k _ _ _ _)).then_ite (modUi_foldl_others k _ _ _ _)))

theorem exRegOkChange_others (ok : Bool) : OthersStand .ex k n (exRegOkChange k ok t n) := by
  unfold exRegOkChange
  exact (OthersStand.refl n).ite ((modEx_others _).trans (exUpdate_others k _ _))

theorem exLimit_others (holds : Bool) : OthersStand .ex k n (exLimit k holds n) := by
  unfold exLimit
  exact ((setEx_others _).then_raise _).ite (setEx_others _)

theorem exSenseErr_others (holds : Bool) : OthersStand .ex k n (exSenseErr k holds n) := by
  unfold exSenseErr
  exact ((setEx_others _).then_raise _).ite (setEx_others _)

theorem exConvert_others (nv : Int) : OthersStand .ex k n (exConvert k nv t n) := by
  unfold exConvert
  dsimp only
  refine OthersStand.ite (.ite (.ite ((setEx_others _).then_complete _ _ _ _) (setEx_others _))
    (((setEx_others _).trans (setEx_others _)).then_complete _ _ _ _)) (.refl n)

end

/-! ### Charge amplifiers -/

section
variable (c : Nat) (t : Nat) (v : Word) (p : HostPort) (n : Node)

theorem caBegin_others : OthersStand .ca c n (caBegin c t n) := by
  unfold caBegin
  exact ((setCa_others _).then_raiseIf _ _).then_raiseIf _ _

theorem caCheckReset_others : OthersStand .ca c n (caCheckReset c n) := by
  unfold caCheckReset
  exact ((setCa_others _).then_raiseIf _ _).ite (.refl n)

theorem caTrigger_others : OthersStand .ca c n (caTrigger c t n) := by
  unfold caTrigger
  dsimp only
  refine (OthersStand.refl n).ite ?_
  have h1 (f : CaChan → CaChan) (b : Bool) : OthersStand .ca c n (modCa c f (if b then caBegin c t n else n)) :=
    ((caBegin_others c t n).ite (.refl n)).trans (modCa_others f)
  split
  · exact h1 _ _
  · exact ((h1 _ _).trans (setCa_others _)).then_raiseIf _ _

theorem caConvEnd_others (q : Int) : OthersStand .ca c n (caConvEnd c q n) := by
  unfold caConvEnd
  dsimp only
  split
  · exact .refl n
  · exact (OthersStand.refl n).ite ((((setCa_others _).then_raiseIf _ _).then_raiseIf _ _).trans (caCheckReset_others c _))

theorem caStepEnd_others (q : Int) : OthersStand .ca c n (caStepEnd c q n) := by
  unfold caStepEnd
  exact (caConvEnd_others c n q).then_ite (.of_get (ilCa_get _ _ _ (by decide)))

theorem caResetOpen_others : OthersStand .ca c n (caResetOpen c t n) := by
  unfold caResetOpen
  exact ((setCa_others _).trans (caCheckReset_others c _)).ite (.refl n)

theorem caAbandon_others : OthersStand .ca c n (caAbandon c n) := by
  unfold caAbandon
  dsimp only
  split
  · exact (setCa_others _).ite (.refl n)
  · exact .refl n

theorem caAbandonDue_others : OthersStand .ca c n (caAbandonDue c t n) := by
  unfold caAbandonDue
  exact (caAbandon_others c n).ite (.refl n)

theorem caValues_get {x : Part} (hx : x ∉ [Part.free]) (l : List (Option Int)) :
    Part.get (caValues l n).2 x = Part.get n x := by
  induction l generalizing n with
  | nil => rfl
  | cons o l ih =>
    cases o with
    | some w => exact ih n
    | none => exact (ih _).trans (drawFree_get n hx)

theorem caRecord_others : OthersStand .ca c n (caRecord c t n) := by
  unfold caRecord
  dsimp only
  refine (OthersStand.refl n).ite ?_
  split
  · exact .refl n
  · exact (setCa_others _).ite ((((OthersStand.of_get (caValues_get n (by decide) _)).then_complete _ _ _ _).trans
      (setCa_others _)).then_raise _)

theorem caCtrlWrite_others : OthersStand .ca c n (caCtrlWrite c v n) := by
  unfold caCtrlWrite
  exact (OthersStand.refl n).ite ((setCa_others _).ite (setCa_others _))

theorem caBufOpen_others : OthersStand .ca c n (caBufOpen p c n) := by
  unfold caBufOpen
  exact (OthersStand.of_get (modPort_get p _ n (by simp [ChanKind.part]))).trans (setCa_others _)

theorem caBufCtrl_others : OthersStand .ca c n (caBufCtrl p c v n) := by
  unfold caBufCtrl caBufRelease
  exact (caBufOpen_others c p n).ite ((setCa_others _).ite (.refl n))

theorem caBufData_others : OthersStand .ca c n (caBufData p c n).2.2 := by
  unfold caBufData
  dsimp only
  split
  · exact .refl n
  · split
    · exact (setCa_others _).then_get (modPort_get (pt := .ca) p _ _ (by simp))
    · exact setCa_others _

theorem caHoldTimeout_others : OthersStand .ca c n (caHoldTimeout p c t n) := by
  unfold caHoldTimeout
  exact (setCa_others _).ite (.refl n)

end

/-! ### Loop and pulse outputs -/

section
variable (k : Nat) (t : Nat) (v : Word) (n : Node)

theorem loUpdate_others : OthersStand .lo k n (loUpdate k n) := by
  unfold loUpdate
  refine (OthersStand.refl n).ite ?_
  split
  · exact modLo_others _
  · exact (modLo_others _).ite (modLo_others _)

theorem loDemandWrite_others : OthersStand .lo k n (loDemandWrite k v n) :=
  (modLo_others _).trans (loUpdate_others k _)

theorem loReadback_others (mean : Int) (comm : Bool) : OthersStand .lo k n (loReadback k mean comm t n) := by
  unfold loReadback
  exact (OthersStand.refl n).ite ((((setLo_others _).then_raiseIf _ _).then_raiseIf _ _).then_complete _ _ _ _)

theorem loFieldLoss_others (lost : Bool) : OthersStand .lo k n (loFieldLoss k lost n) := by
  unfold loFieldLoss
  exact (OthersStand.refl n).ite ((setLo_others _).ite (((setLo_others _).then_raiseIf _ _).ite (setLo_others _)))

theorem poUpdate_others : OthersStand .po k n (poUpdate k n) := by
  unfold poUpdate
  refine (OthersStand.refl n).ite ?_
  split
  · exact modPo_others _
  · exact (modPo_others _).ite ((setPo_others _).then_raiseIf _ _)

theorem poTake_others : OthersStand .po k n (poTake k n) := by
  have hu := poUpdate_others k n
  unfold poTake
  refine (OthersStand.refl n).ite ?_
  split
  · exact hu
  · exact hu.trans (modPo_others _)

theorem poBoundary_others : OthersStand .po k n (poBoundary k n) := by
  unfold poBoundary
  exact (OthersStand.refl n).ite (poTake_others k n)

theorem poPulseEnd_others : OthersStand .po k n (poPulseEnd k t n) := by
  unfold poPulseEnd
  exact (modPo_others _).ite (.refl n)

end

/-! ### Digital inputs and sensor supplies -/

section
variable (k : Nat) (t : Nat) (b : Bool) (n : Node)

theorem diAccept_others : OthersStand .di k n (diAccept k b t n) := by
  unfold diAccept
  exact (OthersStand.refl n).ite ((setDi_others _).ite ((OthersStand.refl n).ite
    (((setDi_others _).then_raiseIf _ _).then_get (recOcc_get _ _ _ (by decide)))))

theorem diStep_others : OthersStand .di k n (diStep k b t n) := by
  unfold diStep
  exact (diAccept_others k t b n).then_ite (.of_get (almPress_get _ _ (by decide)))

theorem diOpenWire_others : OthersStand .di k n (diOpenWire k b n) := by
  unfold diOpenWire
  exact (OthersStand.refl n).ite ((setDi_others _).then_raiseIf _ _)

theorem ssOverload_others : OthersStand .ss k n (ssOverload k t n) := by
  unfold ssOverload
  exact ((setSs_others _).then_raise _).ite (.refl n)

theorem ssRetry_others : OthersStand .ss k n (ssRetry k b t n) := by
  unfold ssRetry
  exact (setSs_others _).ite (.refl n)

end

/-! ### Position interfaces -/

section
variable (f : Nat) (t : Nat) (n : Node)

theorem caAbandonAll_others : OthersStand .pf f n (caAbandonAll f n) := .of_get (caAbandonAll_get f n (by decide))

theorem pfError_others : OthersStand .pf f n (pfError f t n) := by
  unfold pfError
  exact (modPf_others _).then_ite (caAbandonAll_others f _)

theorem pfStill_others : OthersStand .pf f n (pfStill f t n) := by
  unfold pfStill
  exact (((setPf_others _).then_raise _).trans (caAbandonAll_others f _)).ite (.refl n)

theorem pfCount_others (d : Int) : OthersStand .pf f n (pfCount f d n) := by
  unfold pfCount
  exact (setPf_others _).then_raiseIf _ _

theorem pfIndexEvent_others : OthersStand .pf f n (pfIndexEvent f n) := by
  unfold pfIndexEvent
  exact (((setPf_others _).then_raiseIf _ _).then_ite (caAbandonAll_others f _)).then_get (caIndex_get _ _ (by decide))

theorem cmpAction_others (r : Bytes) : OthersStand .pf f n (cmpAction r f t n) := by
  unfold cmpAction
  refine OthersStand.then_raiseIf ?_ _ _
  split
  · exact .of_get (doPulse_get _ _ _ (by decide))
  · exact .of_get (poPulse_get _ _ _ (by decide))
  · exact .of_get (caAction_get _ _ _ _ (by decide))
  · exact .of_get (caAction_get _ _ _ _ (by decide))
  · exact .of_get (caAction_get _ _ _ _ (by decide))
  · exact .of_get (svFire_get _ _ _ _ _ _ (by decide))
  · exact modPf_others _
  · exact .refl n

theorem cmpHit_others (r : Bytes) : OthersStand .pf f n (cmpHit f t n r) :=
  ((OthersStand.of_get (setCmpE_get _ _ _ (by decide))).then_get (get_upd_cmp _ _ (by decide))).trans (cmpAction_others f t _ r)

theorem cmpStep_others (old : Word) (d : Int) : OthersStand .pf f n (cmpStep f old d t n) := by
  unfold cmpStep
  refine OthersStand.then_get (OthersStand.foldl (.refl n) ?_) (cmpRearm_get f _ (by decide))
  exact fun m x => cmpHit_others f t m x.2

theorem pfStepBy_others (d : Int) (index : Bool) : OthersStand .pf f n (pfStepBy f d index t n) := by
  have hi : OthersStand .pf f n (if index then pfIndexEvent f (pfCount f d n) else pfCount f d n) :=
    (pfCount_others f n d).then_ite (pfIndexEvent_others f _)
  unfold pfStepBy
  exact ((((hi.trans (setPf_others _)).then_raiseIf _ _).then_ite (caAbandonAll_others f _)).then_get
    (pfCrank_get _ _ _ _ (by decide))).trans (cmpStep_others f t _ _ d)

theorem pfTurn_others (d : Int) (index : Bool) : OthersStand .pf f n (pfTurn f d index t n) :=
  ((modPf_others _).ite (.refl n)).trans (pfStepBy_others f t _ d index)

theorem pfEdge_others (e : PfStep) : OthersStand .pf f n (pfEdge f e t n) := by
  have hm (g : PfChan → PfChan) : OthersStand .pf f n (modPf f g n) := modPf_others g
  unfold pfEdge
  dsimp only
  split
  · refine (OthersStand.refl n).ite (.ite (.ite (hm _) (.ite (.refl n) ((hm _).trans (pfTurn_others f t _ _ _)))) (.ite ?_ (hm _)))
    split
    · split
      · exact OthersStand.ite ((hm _).trans (modPf_others _))
          ((((hm _).trans (modPf_others _)).trans (pfStepBy_others f t _ _ _)).then_ite (modPf_others _))
      · exact (OthersStand.refl n).ite ((hm _).trans (modPf_others _))
    · exact (hm _).trans (modPf_others _)
    · exact (OthersStand.refl n).ite ((hm _).trans (modPf_others _))
  · refine (OthersStand.refl n).ite ?_
    split
    · exact hm _
    · exact (OthersStand.refl n).ite ((hm _).ite ((hm _).trans (pfTurn_others f t _ _ _)))

theorem pfQuadError_others (e : PfStep) : OthersStand .pf f n (pfQuadError f e t n) := by
  unfold pfQuadError
  exact (OthersStand.refl n).ite (((setPf_others _).trans (pfError_others f t _)).then_raise _)

theorem pfHallError_others (a b z : Bool) : OthersStand .pf f n (pfHallError f a b z t n) := by
  unfold pfHallError
  exact (((setPf_others _).trans (pfError_others f t _)).then_raise _).ite (.refl n)

theorem pfAmplError_others (s c : Int) : OthersStand .pf f n (pfAmplError f s c n) := by
  unfold pfAmplError
  exact (OthersStand.refl n).ite ((setPf_others _).ite (((setPf_others _).then_raiseIf _ _).then_ite (caAbandonAll_others f _)))

theorem pfPublish_others : OthersStand .pf f n (pfPublish f t n) := by
  unfold pfPublish
  exact ((OthersStand.refl n).then_complete _ _ _ _).ite ((setPf_others _).then_complete _ _ _ _)

theorem ssiTake_others (frame : SsiFrame) : OthersStand .pf f n (ssiTake f frame t n) := by
  have hend {m : Node} (h : OthersStand .pf f n m) : OthersStand .pf f n (if m.acq then pfPublish f t (pfStill f t m) else m) :=
    h.then_ite ((pfStill_others f t m).trans (pfPublish_others f t _))
  unfold ssiTake
  refine hend ((OthersStand.refl n).ite ?_)
  split
  · exact ((modPf_others _).trans (pfError_others f t _)).then_raise _
  · refine OthersStand.then_ite ?_ (modPf_others _)
    split
    · exact (setPf_others _).then_get (cmpRearm_get _ _ (by decide))
    · exact (setPf_others _).ite ((setPf_others _).trans (pfStepBy_others f t _ _ _))

theorem pfSsi_others (frame : SsiFrame) : OthersStand .pf f n (pfSsi f frame t n) := by
  unfold pfSsi
  refine (OthersStand.refl n).ite ?_
  split
  · exact (modPf_others _).trans (ssiTake_others f _ _ frame)
  · exact .refl n

theorem pfClr_others (v : Word) : OthersStand .pf f n (pfClr f v n) := by
  unfold pfClr
  exact (modPf_others _).ite (.refl n)

end

/-! ### HART masters -/

section
variable (m : Nat) (n : Node)

theorem hartSend_others (a cmd : Nat) (long : Bool) (data : Bytes) (u : HartM) :
    OthersStand .hart m n (hartSend m a cmd long data u n) :=
  (setHm_others u).then_get (get_upd_tx _ _ (by decide))

theorem hartNext_others : OthersStand .hart m n (hartNext m n) := by
  unfold hartNext
  refine (OthersStand.refl n).ite ?_
  split
  · exact (hartSend_others m n _ _ _ _ _).ite (hartSend_others m n _ _ _ _ _)
  · split
    · exact (hartSend_others m n _ _ _ _ _).ite (hartSend_others m n _ _ _ _ _)
    · exact .refl n

theorem hartPassEnd_others (code : Nat) (resp : Option HartResp) : OthersStand .hart m n (hartPassEnd m code resp n) := by
  unfold hartPassEnd
  dsimp only
  split
  · exact setHm_others _
  · refine OthersStand.then_raiseIf (.then_raise (.then_get ?_ (netAck_get _ _ _ (by decide))) _) _ _
    split
    · exact (setHm_others _).then_get (mbPostMsg_get _ _ _ _ (by decide))
    · exact setHm_others _

theorem hartFail_others (noResp : Bool) : OthersStand .hart m n (hartFail m noResp n) := by
  have hp (u : HartM) (code : Nat) (b : Bool) : OthersStand .hart m n (raiseIf b 60 (hartPassEnd m code none (setHm m u n))) :=
    ((setHm_others u).trans (hartPassEnd_others m _ code none)).then_raiseIf b 60
  have hs (u : HartM) (b : Bool) : OthersStand .hart m n (raiseIf b 60 (raise 59 (setHm m u n))) :=
    ((setHm_others u).then_raise 59).then_raiseIf b 60
  unfold hartFail
  dsimp only
  split
  · exact hp _ _ _
  · exact hs _ _
  · exact (hp _ _ _).ite (hs _ _)
  · exact .refl n

theorem hartComplete_others (resp : HartResp) (t : Nat) : OthersStand .hart m n (hartComplete m resp t n) := by
  have hs (u : HartM) : OthersStand .hart m n (setHm m u n) := setHm_others u
  unfold hartComplete
  dsimp only
  refine (OthersStand.refl n).ite (OthersStand.trans (.ite ((hs _).trans (hartFail_others m _ _)) ?_) (hartNext_others m _))
  split
  · exact ((hs _).trans (modHm_others _)).trans (hartPassEnd_others m _ _ _)
  · exact ((hs _).foldl (fun w x => .of_get (hartVar_get _ _ _ w x (by decide)))).trans (modHm_others _)
  · exact (hs _).trans (modHm_others _)
  · exact hs _

theorem hartNoResp_others : OthersStand .hart m n (hartNoResp m n) := by
  unfold hartNoResp
  exact (OthersStand.refl n).ite ((hartFail_others m n _).trans (hartNext_others m _))

end

/-! ### Lanes -/

section
variable (k : Nat) (t : Nat) (n : Node)

theorem lnSetAct_others (m : Nat) : OthersStand .ln k n (lnSetAct k m n) := by
  unfold lnSetAct
  exact (OthersStand.refl n).ite ((((setLn_others _).then_raise _).then_ite (.of_get (genEnd_get _ _ _ (by decide)))).then_ite
    (.of_get (lnTargetOff_get _ _ (by decide))))

theorem lnFollowFire_others (u : Int) : OthersStand .ln k n (lnFollowFire k u n) := by
  have h1 (f : Lane → Lane) : OthersStand .ln k n (raise 89 (modLn k f n)) := (modLn_others f).then_raise 89
  unfold lnFollowFire
  dsimp only
  split
  · exact ((h1 _).trans (modLn_others _)).trans (lnSetAct_others k _ 1)
  · exact (h1 _).trans (lnSetAct_others k _ 0)
  · exact h1 _

theorem lnFollow_others (sp pv u : Int) : OthersStand .ln k n (lnFollow k sp pv u t n) := by
  unfold lnFollow
  exact (setLn_others _).ite ((setLn_others _).ite (((setLn_others _).trans (lnFollowFire_others k _ u)).ite (setLn_others _)))

theorem lnFollowDue_others : OthersStand .ln k n (lnFollowDue k t n) := by
  unfold lnFollowDue
  exact (lnFollowFire_others k n _).ite (.refl n)

theorem lnSatSet_others (b : Nat) : OthersStand .ln k n (lnSatSet k b n) := by
  unfold lnSatSet
  exact (setLn_others _).then_raiseIf _ _

theorem lnMode_others (kt : Nat) : OthersStand .ln k n (lnMode k kt t n) := by
  unfold lnMode
  dsimp only
  have h1 (l : Lane) (m : Nat) (c : Prop) [Decidable c] : OthersStand .ln k n (if c then lnSetAct k m (setLn k l n) else n) :=
    ((setLn_others l).trans (lnSetAct_others k _ m)).ite (.refl n)
  exact ((h1 _ _ _).then_ite ((setLn_others _).trans (lnSetAct_others k _ 2))).ite (h1 _ _ _)

theorem lnDeliver_others (u : Int) : OthersStand .ln k n (lnDeliver k u t n) := by
  unfold lnDeliver
  have h (l : Lane) (p g : Nat) (es : List Entry) (d : Nat) : OthersStand .ln k n (complete p g es d (setLn k l n)) :=
    (setLn_others l).then_complete p g es d
  exact (h _ _ _ _ _).ite ((h _ _ _ _ _).then_get (lnTarget_get _ _ _ _ (by decide)))

theorem lnEval_others : OthersStand .ln k n (lnEval k t n) := by
  have hmode (u : Lane) (kt : Nat) : OthersStand .ln k n (lnMode k kt t (setLn k u n)) :=
    (setLn_others u).trans (lnMode_others k t _ kt)
  unfold lnEval
  extract_lets
  refine (OthersStand.refl n).ite ?_
  extract_lets
  refine OthersStand.ite ((hmode _ _).trans (setLn_others _)) ?_
  extract_lets
  split
  extract_lets
  split
  extract_lets
  split
  extract_lets n2 n3 n4 n5 n6 n7
  have h2 : OthersStand .ln k n n2 := ((hmode _ _).trans (setLn_others _)).then_raiseIf _ _
  have h4 : OthersStand .ln k n n4 :=
    (h2.then_ite (lnSetAct_others k _ 0)).trans (.ite (lnFollow_others k t _ _ _ _) (modLn_others _))
  have h6 : OthersStand .ln k n n6 :=
    (h4.trans (lnSatSet_others k _ _)).then_ite (.of_get (genSample_get _ _ _ _ _ _ (by decide)))
  exact (h6.trans (modLn_others _)).trans (lnDeliver_others k t _ _)

theorem lnRequest_others (code : Nat) : OthersStand .ln k n (lnRequest k code n) := by
  unfold lnRequest
  exact (setLn_others _).ite (setLn_others _)

theorem lnModeWrite_others (v : Word) : OthersStand .ln k n (lnModeWrite k v n) := by
  unfold lnModeWrite lnApplyPend
  exact ((setLn_others _).ite (setLn_others _)).ite (lnRequest_others k n _)

end

/-! ### The channels' own registers -/

section
variable (p : HostPort) (v : Word)

theorem accOthers_uiFilt (c : Fin 64) : AccOthers .ui c.val p (.wr (0x2010 + 0x40 * c.val) v) :=
  accOthers_wr (fun m n => by rw [regWrite_ui (o := 0x10) p c v m n (by omega)]; exact uiFiltWrite_others c.val v n)

theorem accOthers_uiForce (c : Fin 64) : AccOthers .ui c.val p (.wr (0x202C + 0x40 * c.val) v) :=
  accOthers_wr (fun m n => by rw [regWrite_ui (o := 0x2C) p c v m n (by omega)]; exact modUi_others _)

theorem accOthers_exCtrl (k : Fin 16) : AccOthers .ex k.val p (.wr (0x3408 + 0x20 * k.val) v) :=
  accOthers_high (by omega) (by omega) (by omega) (fun n => by
    have hk : (0x3408 + 0x20 * k.val - 0x3400) / 0x20 = k.val := by omega
    have ho : (0x3408 + 0x20 * k.val) % 0x20 = 0x08 := by omega
    rw [writeHigh_ex p v n (by omega) (by omega), hk, ho]
    exact exCtrlWrite_others k.val v n)

theorem accOthers_caCtrl (c : Fin 16) : AccOthers .ca c.val p (.wr (0x3024 + 0x40 * c.val) v) :=
  accOthers_high (by omega) (by omega) (by omega) (fun n => by
    have hk : (0x3024 + 0x40 * c.val - 0x3000) / 0x40 = c.val := by omega
    have ho : (0x3024 + 0x40 * c.val) % 0x40 = 0x24 := by omega
    rw [writeHigh_ca p v n (by omega) (by omega), hk, ho]
    exact caCtrlWrite_others c.val v n)

theorem accOthers_caBufCtrl (c : Fin 16) : AccOthers .ca c.val p (.wr (0x3034 + 0x40 * c.val) v) :=
  accOthers_high (by omega) (by omega) (by omega) (fun n => by
    have hk : (0x3034 + 0x40 * c.val - 0x3000) / 0x40 = c.val := by omega
    have ho : (0x3034 + 0x40 * c.val) % 0x40 = 0x34 := by omega
    rw [writeHigh_ca p v n (by omega) (by omega), hk, ho]
    exact caBufCtrl_others c.val v p n)

theorem accOthers_caBufData (c : Fin 16) : AccOthers .ca c.val p (.rd (0x303C + 0x40 * c.val)) :=
  accOthers_rd (fun m n => by
    obtain ⟨hb, hv, hq⟩ := registerTables.caBufData c
    rw [regRead_high (by omega) hb hv hq]
    unfold readHigh
    have h2 : 0x303C + 0x40 * c.val < 0x3400 := by omega
    have hk : (0x303C + 0x40 * c.val - 0x3000) / 0x40 = c.val := by omega
    have ho : (0x303C + 0x40 * c.val) % 0x40 = 0x3C := by omega
    rw [if_neg (by omega), if_pos h2]
    simp only [ho, hk, if_true]
    exact caBufData_others c.val p n)

theorem accOthers_loDemand (k : Fin 16) : AccOthers .lo k.val p (.wr (0x380C + 0x40 * k.val) v) :=
  accOthers_high (by omega) (by omega) (by omega) (fun n => by
    have hk : (0x380C + 0x40 * k.val - 0x3800) / 0x40 = k.val := by omega
    have ho : (0x380C + 0x40 * k.val) % 0x40 = 0x0C := by omega
    rw [writeHigh_lo p v n (by omega) (by omega), hk, ho]
    exact loDemandWrite_others k.val v n)

theorem accOthers_pfClr (f : Fin 8) : AccOthers .pf f.val p (.wr (0x5014 + 0x100 * f.val) v) :=
  accOthers_high (by omega) (by omega) (by omega) (fun n => by
    have hk : (0x5014 + 0x100 * f.val - 0x5000) / 0x100 = f.val := by omega
    have ho : (0x5014 + 0x100 * f.val) % 0x100 = 0x14 := by omega
    rw [writeHigh_pf p v n (by omega) (by omega), hk, ho]
    exact pfClr_others f.val n v)

theorem accOthers_lnMode (k : Fin 32) : AccOthers .ln k.val p (.wr (0x5C08 + 0x80 * k.val) v) :=
  accOthers_high (by omega) (by omega) (by omega) (fun n => by
    have hk : (0x5C08 + 0x80 * k.val - 0x5C00) / 0x80 = k.val := by omega
    have ho : (0x5C08 + 0x80 * k.val - 0x5C00) % 0x80 = 0x08 := by omega
    rw [writeHigh_ln p v n (by omega) (by omega), hk, ho]
    exact lnModeWrite_others k.val n v)

end

/-- Settles O9: each operation writes its own channel's entry of the table alone (the `_others` lemmas), and what a command
does before and after it touches no channel (`othersStand_plantAt`, `AccOthers.hostPlant`). -/
theorem otherChannelsStand : Obligations.OtherChannelsStand := by
  intro s p v t k
  and_intros
  · intro n hk own byp lead
    simp only [List.forall_mem_cons]
    exact ⟨othersStand_plantAt hk s (fun w => uiStep_others n.val t w _) t,
      othersStand_plantAt hk s (fun w => uiFilterRestart_others n.val t w) t,
      (accOthers_uiFilt p v n).hostPlant hk s 0, (accOthers_uiForce p v n).hostPlant hk s 0, List.forall_mem_nil _⟩
  · intro n hk nv ok
    simp only [List.forall_mem_cons]
    exact ⟨othersStand_plantAt hk s (fun w => exConvert_others n.val t w nv) t, (accOthers_exCtrl p v n).hostPlant hk s 0,
      othersStand_plantAt hk s (fun w => exChangeApply_others n.val t w) t,
      othersStand_plantAt hk s (fun w => exSettleEnd_others n.val t w) t,
      othersStand_plantAt hk s (fun w => exRegOkChange_others n.val t w ok) t,
      othersStand_plantAt hk s (fun w => exLimit_others n.val w ok) t,
      othersStand_plantAt hk s (fun w => exSenseErr_others n.val w ok) t, List.forall_mem_nil _⟩
  · intro n hk q
    simp only [List.forall_mem_cons]
    exact ⟨othersStand_plantAt hk s (fun w => caTrigger_others n.val t w) t,
      othersStand_plantAt hk s (fun w => caStepEnd_others n.val w q) t,
      othersStand_plantAt hk s (fun w => caResetOpen_others n.val t w) t,
      othersStand_plantAt hk s (fun w => caAbandonDue_others n.val t w) t,
      othersStand_plantAt hk s (fun w => caRecord_others n.val t w) t,
      (accOthers_caCtrl p v n).hostPlant hk s 0, (accOthers_caBufCtrl p _ n).upMem hk s t, (accOthers_caBufCtrl p _ n).hostOp hk s,
      (accOthers_caBufData p n).hostOp hk s, othersStand_upAt hk s (fun w => caHoldTimeout_others n.val t p w) t,
      List.forall_mem_nil _⟩
  · intro n hk mean comm lost
    simp only [List.forall_mem_cons]
    exact ⟨othersStand_plantAt hk s (fun w => loReadback_others n.val t w mean comm) t,
      othersStand_plantAt hk s (fun w => loFieldLoss_others n.val w lost) t,
      (accOthers_loDemand p v n).hostPlant hk s 0, List.forall_mem_nil _⟩
  · intro n hk
    simp only [List.forall_mem_cons]
    exact ⟨othersStand_plantAt hk s (fun w => poBoundary_others n.val w) t,
      othersStand_plantAt hk s (fun w => poPulseEnd_others n.val t w) t, List.forall_mem_nil _⟩
  · intro n hk b
    simp only [List.forall_mem_cons]
    exact ⟨othersStand_plantAt hk s (fun w => diStep_others n.val t b w) t,
      othersStand_plantAt hk s (fun w => diOpenWire_others n.val b w) t, List.forall_mem_nil _⟩
  · intro n hk ok
    simp only [List.forall_mem_cons]
    exact ⟨othersStand_plantAt hk s (fun w => ssOverload_others n.val t w) t,
      othersStand_plantAt hk s (fun w => ssRetry_others n.val t ok w) t, List.forall_mem_nil _⟩
  · intro n hk e hl sc fr
    simp only [List.forall_mem_cons]
    exact ⟨othersStand_plantAt hk s (fun w => pfEdge_others n.val t w e) t,
      othersStand_plantAt hk s (fun w => pfQuadError_others n.val t w e) t,
      othersStand_plantAt hk s (fun w => pfHallError_others n.val t w hl.u hl.v hl.w) t,
      othersStand_plantAt hk s (fun w => pfAmplError_others n.val w sc.sin sc.cos) t,
      othersStand_plantAt hk s (fun w => pfSsi_others n.val t w fr) t,
      othersStand_plantAt hk s (fun w => pfStill_others n.val t w) t,
      (accOthers_pfClr p v n).hostPlant hk s 0, List.forall_mem_nil _⟩
  · intro n hk r
    simp only [List.forall_mem_cons]
    exact ⟨othersStand_plantAt hk s (fun w => hartComplete_others n.val w r t) t,
      othersStand_plantAt hk s (fun w => hartNoResp_others n.val w) t, List.forall_mem_nil _⟩
  · intro n hk
    simp only [List.forall_mem_cons]
    exact ⟨othersStand_plantAt hk s (fun w => lnEval_others n.val t w) t, (accOthers_lnMode p _ n).hostPlant hk s 0,
      (accOthers_lnMode p _ n).hostPlant hk s 0, othersStand_plantAt hk s (fun w => lnFollowDue_others n.val t w) t,
      List.forall_mem_nil _⟩

end Sys2Proof.Machine
end

section
/-! SUPPORT. The events that the plant's own work after a command can raise. -/

namespace Sys2Proof.Machine
open Sys2Proof

/-- Flag `j` of the event controller is as it was. -/
def SameFlag (j : Nat) (n m : Node) : Prop := m.evt.flag j = n.evt.flag j

section
variable {j : Nat} {n m w : Node}

theorem SameFlag.refl (n : Node) : SameFlag j n n := rfl

theorem SameFlag.trans (h : SameFlag j n m) (g : SameFlag j m w) : SameFlag j n w := Eq.trans g h

theorem SameFlag.of_get (h : Part.get m .evt = Part.get n .evt) : SameFlag j n m := congrArg (fun e => Events.flag e j) h

theorem SameFlag.ite {c : Prop} [Decidable c] (h : SameFlag j n m) (g : SameFlag j n w) : SameFlag j n (if c then m else w) := by
  split
  · exact h
  · exact g

theorem SameFlag.foldl {β : Type} {f : Node → β → Node} {l : List β} (h : SameFlag j n m) (hf : ∀ k x, SameFlag j k (f k x)) :
    SameFlag j n (l.foldl f m) := by
  induction l generalizing m with
  | nil => exact h
  | cons x r ih => exact ih (h.trans (hf m x))

theorem occur_flag_other (e : Events) {i : Nat} (t : Nat) (h : i ≠ j) : (e.occur i t).flag j = e.flag j := by
  have hb : (evBit i).getLsbD j = false := by
    rw [evBit, BitVec.getLsbD_ofNat, Nat.testBit_two_pow_of_ne h, Bool.and_false]
  have h' : ({ e with stat := e.stat ||| evBit i, occ := tset 0 e.occ i (satInc 255 (e.occOf i)) } : Events).flag j = e.flag j := by
    simp [Events.flag, hb]
  unfold Events.occur
  dsimp only
  split
  · unfold Events.append
    split <;> exact h'
  · exact h'

theorem raise_sameFlag {i : Nat} (n : Node) (h : i ≠ j) : SameFlag j n (raise i n) := by
  unfold raise
  exact SameFlag.ite (occur_flag_other n.evt n.now h) (.refl n)

theorem complete_sameFlag (h : 41 ≠ j) (p g : Nat) (es : List Entry) (t : Nat) (n : Node) : SameFlag j n (complete p g es t n) := by
  have hjn (x : Junction) : SameFlag j n { n with jn := x } := .refl n
  unfold complete
  exact ((hjn _).trans (raise_sameFlag _ h)).ite (hjn _)

theorem ilEval_sameFlag (h : 70 ≠ j) (n : Node) : SameFlag j n (ilEval n) := by
  have hterm (m : Node) (r : Bytes) : SameFlag j m (ilTerm m r) := by
    have hil (x : Interlock) : SameFlag j m { m with il := x } := .refl m
    unfold ilTerm
    dsimp only
    exact (hil _).ite (.ite (((hil _).trans (raise_sameFlag _ h)).trans (.of_get (recNote_get _ _ _ _ (by decide)))) (hil _))
  unfold ilEval
  refine (SameFlag.refl n).ite (.foldl (.foldl (.refl n) fun m r => ?_) hterm)
  exact (SameFlag.of_get (setCmp_get _ _ _ (by decide))).ite (.refl m)

theorem svSync_sameFlag (h : 41 ≠ j) (n : Node) : SameFlag j n (svSync n) := by
  have hset (k : Nat) (u : SvChan) (m : Node) : SameFlag j m (setSv k u m) := .of_get (setSv_get k u m (by decide))
  have habort (k t : Nat) (m : Node) : SameFlag j m (svAbort k t m) := by
    unfold svAbort svRecord
    exact (((hset _ _ _).trans (complete_sameFlag h _ _ _ _ _)).trans (.of_get (svSubMark_get _ _ (by decide)))).ite (hset _ _ _)
  unfold svSync
  refine (SameFlag.refl n).foldl fun m k => ?_
  exact (((habort _ _ _).ite (.of_get (svDrop_get _ _ _ (by decide)))).trans (hset _ _ _)).ite
    ((hset _ _ _).ite ((hset _ _ _).ite (.refl m)))

theorem fieldSync_sameFlag (h70 : 70 ≠ j) (h41 : 41 ≠ j) (n : Node) : SameFlag j n (fieldSync n) := by
  have hd : SameFlag j n (diSync n) := .of_get (diSync_get n (by decide))
  have hw (m : Node) : SameFlag j m (wsSync m) := .of_get (wsSync_get m (by decide))
  have ho (m : Node) : SameFlag j m (doSync m) := .of_get (doSync_get m (by decide))
  exact (((hd.trans (ilEval_sameFlag h70 _)).trans (hw _)).trans (ho _)).trans (svSync_sameFlag h41 _)

theorem degradeSync_sameFlag (h : 0 ≠ j) (n : Node) : SameFlag j n (degradeSync n) := by
  have henter (x : DevSt) : SameFlag j n (enter x n) := by
    unfold enter
    refine (SameFlag.refl n).ite (.trans (.trans ?_ (.of_get (recEnter_get _ _ (by decide)))) (.of_get (recNote_get _ _ _ _ (by decide))))
    exact raise_sameFlag { n with dev.prev := n.dev.st, dev.st := x, dev.stateTick := n.scan } h
  unfold degradeSync
  split
  · exact (henter _).ite (.refl n)
  · exact (SameFlag.refl n).ite (henter _)
  · exact .refl n

theorem recFlush_sameFlag (h : 123 ≠ j) (n : Node) : SameFlag j n (recFlush n) := by
  have hdrop (m : Node) : SameFlag j m (recDrop m) := raise_sameFlag { m with mram.drop := satInc 0xFFFFFFFF m.mram.drop } h
  have hrate (m : Node) : SameFlag j m (recRate m) := .of_get (recRate_get m (by decide))
  have hstore (k typ sev : Nat) (pay : Bytes) (m : Node) : SameFlag j m (recStore k typ sev pay m) :=
    .of_get (recStore_get k typ sev pay m (by decide))
  have hplace (typ sev : Nat) (pay : Bytes) (m : Node) : SameFlag j m (recPlace typ sev pay m) := by
    unfold recPlace
    refine (hrate m).trans (.ite (hdrop _) (.ite (hstore _ _ _ _ _) ?_))
    split
    · exact hstore _ _ _ _ _
    · exact hdrop _
  unfold recFlush
  refine (SameFlag.refl n).ite (.foldl (.foldl (.refl n) fun m x => ?_) fun m x => .of_get (countOcc_get _ _ _ (by decide)))
  unfold recOne
  exact (hplace _ _ _ _).ite (hdrop _)

theorem outFlush_sameFlag (n : Node) : SameFlag j n (outFlush n) := by
  unfold outFlush
  refine SameFlag.ite ((SameFlag.refl n).foldl fun m x => ?_) (.refl n)
  exact (SameFlag.refl m).ite rfl

theorem alertFlush_sameFlag (n : Node) : SameFlag j n (alertFlush n) := by
  have hsend (a : AlertRef) (m : Node) : SameFlag j m (sendAlf a m) := .of_get (sendAlf_get a m (by decide))
  unfold alertFlush
  dsimp only
  refine SameFlag.ite ?_ (SameFlag.ite (.refl n) (.refl n))
  generalize hk : (List.range 16).foldl callStamp ((n.alm.alfDue.map (·.1)).dedup.foldl (fun m i => alertStamp (10000 + i) m) n) = k
  have h0 : SameFlag j n k := hk ▸ ((SameFlag.refl n).foldl fun m i => .of_get (alertStamp_get _ m (by decide))).foldl
    fun m s => .of_get (callStamp_get m s (by decide))
  have h1 : SameFlag j n (if n.alm.alfDue.isEmpty then k else { k with alm.alfDue := [] }) := h0.ite h0
  refine SameFlag.ite ((h1.foldl fun m i => ?_).foldl fun m s => (hsend _ m).ite (.refl m)) h1
  split
  · exact (hsend _ m).ite (.refl m)
  · exact .refl m

/-- After a command the plant raises only DEV_STATE_CHANGED (0), the overrun of a queue (41), an interlock's trip (70) and a
record's loss (123). -/
theorem settle_flag_other (hj : j ∉ [0, 41, 70, 123]) (n : Node) : (settle n).evt.flag j = n.evt.flag j := by
  simp only [List.mem_cons, List.not_mem_nil, or_false, not_or] at hj
  obtain ⟨h0, h41, h70, h123⟩ := hj
  have hfield := (fieldSync_sameFlag (Ne.symm h70) (Ne.symm h41) n).trans (degradeSync_sameFlag (Ne.symm h0) _)
  exact ((hfield.trans (recFlush_sameFlag (Ne.symm h123) _)).trans (outFlush_sameFlag _)).trans (alertFlush_sameFlag _)

end

end Sys2Proof.Machine
end

section
/-! SUPPORT. Cold junctions and excitation supplies: what each operation does to a supply and to the inputs it feeds (R174 to R181). -/

namespace Sys2Proof.Machine
open Sys2Proof

/-! ### A fold that visits one channel -/

/-- What holds until the visit of `c`, what the visit brings about, and what the later steps keep. -/
theorem foldl_visit {α β : Type} {f : α → β → α} {P Q : α → Prop} {c : β} (hP : ∀ a, ∀ x, x ≠ c → P a → P (f a x))
    (hv : ∀ a, P a → Q (f a c)) (hQ : ∀ a, ∀ x, x ≠ c → Q a → Q (f a x)) {l : List β} (hc : c ∈ l) (hl : l.Nodup) {a : α} (ha : P a) :
    Q (l.foldl f a) := by
  have hrest : ∀ (r : List β) (b : α), c ∉ r → Q b → Q (r.foldl f b) := by
    intro r
    induction r with
    | nil => exact fun _ _ h => h
    | cons x r ih =>
      intro b hr h
      obtain ⟨hx, hr⟩ := not_or.mp (mt List.mem_cons.mpr hr)
      exact ih _ hr (hQ b x (Ne.symm hx) h)
  induction l generalizing a with
  | nil => exact absurd hc List.not_mem_nil
  | cons x r ih =>
    obtain ⟨hx, hr⟩ := List.nodup_cons.mp hl
    by_cases he : x = c
    · subst he
      exact hrest r _ hx (hv a ha)
    · exact ih ((List.mem_cons.mp hc).resolve_left (Ne.symm he)) hr (hP a x he ha)

section
variable {n : Node}

theorem boundTo_of_ld {m : Node} (h : m.ld = n.ld) (k c : Nat) : m.boundTo k c = n.boundTo k c := by
  simp [Node.boundTo, Node.chOn, Node.recOf, h]

theorem modUi_leaves (c : Nat) (f : UiChan → UiChan) (n : Node) : Leaves [.ui] n (modUi c f n) := fun _ hx => modUi_get c f n hx

/-- A change of the inputs that `b` names changes input `c` once. -/
theorem uiC_modUi_foldl {b : Node → Nat → Bool} {f : UiChan → UiChan} {c : Nat} (hc : c < 64)
    (hb : ∀ m, Leaves [.ui] n m → m.uiC c = n.uiC c → b m c = b n c) :
    ((List.range 64).foldl (fun m j => if b m j then modUi j f m else m) n).uiC c = if b n c then f (n.uiC c) else n.uiC c := by
  have hother (m : Node) (j : Nat) (hj : j ≠ c) : (if b m j then modUi j f m else m).uiC c = m.uiC c :=
    ((modUi_others f).ite (.refl m) : OthersStand .ui j m _) c (Ne.symm hj)
  refine foldl_visit (P := fun m => Leaves [.ui] n m ∧ m.uiC c = n.uiC c)
    (Q := fun m => m.uiC c = if b n c then f (n.uiC c) else n.uiC c) ?_ ?_ ?_ (List.mem_range.mpr hc) List.nodup_range ⟨.refl _ n, rfl⟩
  · rintro m j hj ⟨hm, hu⟩
    exact ⟨hm.trans (.ite (fun _ => modUi_leaves j f m) (fun _ => .refl _ m)), (hother m j hj).trans hu⟩
  · rintro m ⟨hm, hu⟩
    rw [hb m hm hu]
    split
    · rw [modUi, uiC_setUi_same, hu]
    · exact hu
  · exact fun m j hj hu => (hother m j hj).trans hu

theorem leaves_modUi_foldl (b : Node → Nat → Bool) (f : UiChan → UiChan) (l : List Nat) (n : Node) :
    Leaves [.ui] n (l.foldl (fun m j => if b m j then modUi j f m else m) n) := fun _ hx =>
  get_foldl _ _ _ (fun m j => Leaves.ite (fun _ => modUi_leaves j f m) (fun _ => .refl _ m) _ hx)

theorem exC_of_leaves {m : Node} (h : Leaves [.ui] n m) (k : Nat) : m.exC k = n.exC k :=
  ChanKind.ex.chan_of_get (h _ (by decide)) k

theorem exC_modEx_same (k : Nat) (f : ExChan → ExChan) (n : Node) : (modEx k f n).exC k = f (n.exC k) := exC_setEx_same k _ n

/-! ### A change of a supply (R177 to R179) -/

variable {k t : Nat}

/-- The conversions of the inputs at a supply end, with the rounds that compare them. -/
def exAbandon (k : Nat) (n : Node) : Node :=
  (List.range 64).foldl (fun m c => if m.boundTo k c then modUi c (fun u => { u with conv := false }) (roundsOf c m) else m) n

/-- A supply whose change has come: what is wanted holds from then on, and 1 ms is discarded. -/
def exChanged (want : Bool × Nat) (t : Nat) (e : ExChan) : ExChan :=
  { e with aOn := want.1, aVset := want.2, aReg := e.regOk, tc := none, conv := false, discard := some (t + 250000) }

theorem exApply_eq : exApply k t n = modEx k (exChanged (exWant n k) t) (exAbandon k n) := rfl

theorem exAbandon_get {x : Part} (hx : x ∉ [Part.cal, .dupSent, .evt, .free, .rcd, .slots, .ui]) :
    Part.get (exAbandon k n) x = Part.get n x :=
  get_foldl _ _ _ (fun m c => by
    split
    · exact (modUi_get c _ _ (by simp_all)).trans (roundsOf_get c m hx)
    · rfl)

theorem exAbandon_uiC_conv {c : Nat} (hc : c < 64) (hb : n.boundTo k c = true) : ((exAbandon k n).uiC c).conv = false := by
  refine foldl_visit (P := fun m : Node => m.ld = n.ld) (Q := fun m : Node => (m.uiC c).conv = false) ?_ ?_ ?_
    (List.mem_range.mpr hc) List.nodup_range rfl
  · intro m j _ hm
    split
    · exact ((modUi_get (pt := .ld) j _ _ (by decide)).trans (roundsOf_get j m (by decide))).trans hm
    · exact hm
  · intro m hm
    rw [boundTo_of_ld hm, hb, if_pos rfl, modUi, uiC_setUi_same]
  · intro m j hj hm
    have h : OthersStand .ui j m (if m.boundTo k j then modUi j (fun u => { u with conv := false }) (roundsOf j m) else m) :=
      ((roundsOf_others j m).trans (modUi_others _)).ite (.refl m)
    exact (congrArg UiChan.conv (h c (Ne.symm hj))).trans hm

theorem exApply_exC : (exApply k t n).exC k = exChanged (exWant n k) t (n.exC k) := by
  rw [exApply_eq, exC_modEx_same]
  exact congrArg _ (ChanKind.ex.chan_of_get (exAbandon_get (by decide)) k)

theorem exApply_uiC_conv {c : Nat} (hc : c < 64) (hb : n.boundTo k c = true) : ((exApply k t n).uiC c).conv = false := by
  have h : (exApply k t n).uiC c = (exAbandon k n).uiC c := ChanKind.ui.chan_of_get (modEx_get k _ _ (by decide)) c
  rw [h]
  exact exAbandon_uiC_conv hc hb

/-- What EX_CTRL and the regulator say of a supply outlasts a request for a change. -/
theorem exUpdate_asked : ((exUpdate k t n).exC k).on = (n.exC k).on ∧ ((exUpdate k t n).exC k).vset = (n.exC k).vset
    ∧ ((exUpdate k t n).exC k).regOk = (n.exC k).regOk := by
  have hreq : ((exRequest k t n).exC k).on = (n.exC k).on ∧ ((exRequest k t n).exC k).vset = (n.exC k).vset
      ∧ ((exRequest k t n).exC k).regOk = (n.exC k).regOk := by
    unfold exRequest
    split
    · rw [exC_modEx_same]
      exact ⟨rfl, rfl, rfl⟩
    · split
      · split
        · exact ⟨rfl, rfl, rfl⟩
        · rw [exC_modEx_same]
          exact ⟨rfl, rfl, rfl⟩
      · rw [exApply_exC]
        exact ⟨rfl, rfl, rfl⟩
  unfold exUpdate
  dsimp only
  split
  · exact ⟨rfl, rfl, rfl⟩
  · exact hreq

theorem exChangeApply_of_due {x : Nat} (htc : (n.exC k).tc = some x) (hx : x ≤ t) (hd : (n.exC k).discard = none) :
    exChangeApply k t n = exApply k x n := by
  simp [exChangeApply, htc, hd, hx]

theorem exChangeApply_of_not_due (h : (n.exC k).tc = none ∨ (n.exC k).discard ≠ none ∨ ∃ x, (n.exC k).tc = some x ∧ t < x) :
    exChangeApply k t n = n := by
  unfold exChangeApply
  split
  next x hd htc =>
    rcases h with h | h | ⟨y, hy, hlt⟩
    · exact absurd (h.symm.trans htc) (by simp)
    · exact absurd hd h
    · obtain rfl : x = y := Option.some.inj (htc.symm.trans hy)
      exact if_neg (Nat.not_le.mpr hlt)
  next => rfl

/-! ### The end of a discard (R180) -/

theorem exSettleEnd_of_early (h : (n.exC k).discard = none ∨ ∃ d, (n.exC k).discard = some d ∧ t < d) : exSettleEnd k t n = n := by
  unfold exSettleEnd
  rcases h with h | ⟨d, hd, hlt⟩
  · rw [h]
  · rw [hd]
    exact if_pos hlt

theorem exWant_undiscard : exWant (modEx k (fun e => { e with discard := none }) n) k = exWant n k := by
  unfold exWant
  rw [exC_modEx_same]
  rfl

/-- A change asked for meanwhile is applied at the discard's end. -/
theorem exSettleEnd_of_change {d x : Nat} (hd : (n.exC k).discard = some d) (ht : d ≤ t) (htc : (n.exC k).tc = some x) :
    exSettleEnd k t n = exApply k d (modEx k (fun e => { e with discard := none }) n) := by
  simp [exSettleEnd, hd, htc, Nat.not_lt.mpr ht]

/-- A supply whose discard is over: its own conversions start again where it acquires and has a record. -/
def exSettled (go : Bool) (d : Nat) (e : ExChan) : ExChan :=
  { e with discard := none, restart := true, conv := go, grid := d, lastAt := d, settle := d + uiSettle 2 true }

/-- The inputs at a supply whose discard is over say so. -/
def exMark (k d : Nat) (n : Node) : Node :=
  (List.range 64).foldl (fun m c => if m.boundTo k c then modUi c (fun u => { u with excRestart := true }) m else m)
    (modEx k (exSettled (n.acq && n.chOn 2 k) d) n)

/-- The filter setting that waits takes effect. -/
def uiTakePend (u : UiChan) : UiChan :=
  match u.pend with
  | some (rate, line) => { u with rate := rate, line := line, pend := none, filtRestart := true }
  | none => u

/-- The inputs at a supply whose discard is over convert again. -/
def exResume (k d : Nat) (n : Node) : Node :=
  (List.range 64).foldl (fun m c => if m.boundTo k c && !(m.uiC c).failed && !m.miswired c then
    modUi c (fun u => uiRestart d (uiTakePend u)) m else m) n

theorem exSettleEnd_of_over {d : Nat} (hd : (n.exC k).discard = some d) (ht : d ≤ t) (htc : (n.exC k).tc = none) :
    exSettleEnd k t n = if n.acq then exResume k d (exMark k d n) else exMark k d n := by
  unfold exSettleEnd
  rw [hd, htc]
  exact if_neg (Nat.not_lt.mpr ht)

section
variable (k d : Nat) (n : Node)

theorem exMark_leaves : Leaves [.ui, .ex] n (exMark k d n) := fun x hx =>
  (leaves_modUi_foldl (fun m c => m.boundTo k c) _ _ _ x (by simp_all)).trans (modEx_get k _ n (by simp_all))

theorem exMark_exC : (exMark k d n).exC k = exSettled (n.acq && n.chOn 2 k) d (n.exC k) :=
  (exC_of_leaves (leaves_modUi_foldl _ _ _ _) k).trans (exC_modEx_same k _ n)

theorem exResume_exC (m : Node) : (exResume k d m).exC k = m.exC k := exC_of_leaves (leaves_modUi_foldl _ _ _ m) k

theorem exMark_uiC {c : Nat} (hc : c < 64) (hb : n.boundTo k c = true) :
    (exMark k d n).uiC c = { n.uiC c with excRestart := true } := by
  have hm : Leaves [.ex] n (modEx k (exSettled (n.acq && n.chOn 2 k) d) n) := fun _ hx => modEx_get k _ n hx
  have hui : (modEx k (exSettled (n.acq && n.chOn 2 k) d) n).uiC c = n.uiC c := ChanKind.ui.chan_of_get (hm _ (by decide)) c
  have hbound : (modEx k (exSettled (n.acq && n.chOn 2 k) d) n).boundTo k c = true := by
    rw [boundTo_of_ld (hm .ld (by decide)), hb]
  unfold exMark
  rw [uiC_modUi_foldl (b := fun m j => m.boundTo k j) hc fun m hm _ => boundTo_of_ld (hm .ld (by decide)) k c]
  dsimp only
  rw [hbound, if_pos rfl, hui]

theorem exResume_uiC (m : Node) {c : Nat} (hc : c < 64) : (exResume k d m).uiC c
    = if m.boundTo k c && !(m.uiC c).failed && !m.miswired c then uiRestart d (uiTakePend (m.uiC c)) else m.uiC c := by
  unfold exResume
  refine uiC_modUi_foldl (n := m) (b := fun m j => m.boundTo k j && !(m.uiC j).failed && !m.miswired j) hc fun w hw hu => ?_
  have hmw : w.mw = m.mw := hw .mw (by decide)
  rw [boundTo_of_ld (hw .ld (by decide)), hu, Node.miswired, hmw, ← Node.miswired]

theorem uiTakePend_excRestart (u : UiChan) : (uiTakePend u).excRestart = u.excRestart := by
  unfold uiTakePend
  split <;> rfl

end

section
variable {d : Nat} (hd : (n.exC k).discard = some d) (ht : d ≤ t) (htc : (n.exC k).tc = none)
include hd ht htc

theorem exSettleEnd_exC : (exSettleEnd k t n).exC k = exSettled (n.acq && n.chOn 2 k) d (n.exC k) := by
  rw [exSettleEnd_of_over hd ht htc]
  split
  · exact (exResume_exC k d _).trans (exMark_exC k d n)
  · exact exMark_exC k d n

theorem exSettleEnd_excRestart {c : Nat} (hc : c < 64) (hb : n.boundTo k c = true) :
    ((exSettleEnd k t n).uiC c).excRestart = true := by
  rw [exSettleEnd_of_over hd ht htc]
  split
  · rw [exResume_uiC k d _ hc, exMark_uiC k d n hc hb]
    split
    · exact uiTakePend_excRestart _
    · rfl
  · rw [exMark_uiC k d n hc hb]

theorem exSettleEnd_resumes {c : Nat} (hc : c < 64) (hb : n.boundTo k c = true) (ha : n.acq = true)
    (hf : (n.uiC c).failed = false) (hm : n.miswired c = false) :
    (exSettleEnd k t n).uiC c = uiRestart d (uiTakePend { n.uiC c with excRestart := true }) := by
  have hbound : (exMark k d n).boundTo k c = true := (boundTo_of_ld (exMark_leaves k d n .ld (by decide)) k c).trans hb
  have hmw : (exMark k d n).mw = n.mw := exMark_leaves k d n .mw (by decide)
  rw [exSettleEnd_of_over hd ht htc, if_pos ha, exResume_uiC k d _ hc, exMark_uiC k d n hc hb, if_pos]
  rw [Node.miswired, hmw, ← Node.miswired, hbound, hm, hf]
  rfl

end

end

end Sys2Proof.Machine
end

section
/-! SUPPORT. The commands of cold junctions and excitation supplies (R174 to R181, R187). -/

namespace Sys2Proof.Machine
open Sys2Proof

/-! ### Conversions -/

/-- A record completed by a producer whose queue the shaped outputs do not use stands at the end of the command. -/
theorem delivers_of_complete {s : State} {k : Node} {p t : Nat} {es : List Entry} (hp : p < 118 ∨ 126 ≤ p) (hj : k.jn = s.node.jn) :
    Delivers s { s with node := settle (complete p 0 es t k) } p 0 t es := by
  have h := settle_slot _ _ (complete_mem_slots p 0 es t k) hp
  unfold Delivers
  dsimp only
  rw [hj] at h
  exact h

section
variable {k t : Nat} {n : Node}

/-- Cold junction `k` completes at `t`. -/
def cjDue (n : Node) (k t : Nat) : Bool :=
  n.acq && n.isRun 3 && n.roleOn 1 (k / 4) && recOn (n.recOf 3 k) && (tget {} n.cj k).conv && decide ((tget {} n.cj k).settle ≤ t)
    && atBoundary (tget {} n.cj k).grid (tget {} n.cj k).lastAt (uiPeriod 2) t

theorem cjConvert_of_due (mC : Int) (h : cjDue n k t = true) : cjConvert k mC t n
    = complete (224 + k) 0
        [mkEntry (0x3600 + k * 0x10) (tempE32 (n.recOf 3 k) ((mC + i16 (n.recOf 3 k) 8) * 1000)) true false false false false] t
        { n with cj := tset {} n.cj k { tget {} n.cj k with lastAt := t } } := if_pos h

theorem cjConvert_of_not_due (mC : Int) (h : cjDue n k t = false) : cjConvert k mC t n = n :=
  if_neg (show ¬ cjDue n k t = true by rw [h]; exact Bool.false_ne_true)

/-- Supply `k` completes at `t`. -/
def exDue (n : Node) (k t : Nat) : Bool :=
  n.acq && n.isRun 3 && n.roleOn 1 (k / 8) && recOn (n.recOf 2 k) && (n.exC k).conv
    && atBoundary (n.exC k).grid (n.exC k).lastAt (uiPeriod 2) t && !(n.exC k).tc.any (fun x => decide (x < t))

theorem exConvert_of_not_due (nv : Int) (h : exDue n k t = false) : exConvert k nv t n = n :=
  if_neg (show ¬ exDue n k t = true by rw [h]; exact Bool.false_ne_true)

/-- What a settled supply publishes (R175). -/
def exEntry (n : Node) (k : Nat) (nv : Int) : Entry :=
  mkEntry (0x3400 + k * 0x20) (divRound nv (10 ^ (recScale (n.recOf 2 k) + 9).toNat)) true false false false false

theorem exConvert_of_settled (nv : Int) (h : exDue n k t = true) (hs : (n.exC k).settle ≤ t) : exConvert k nv t n
    = complete (208 + k) 0 [exEntry n k nv] t (setEx k { n.exC k with lastAt := t, published := true, last := (exEntry n k nv).value }
        (setEx k { n.exC k with lastAt := t } n)) :=
  (if_pos h).trans (if_neg (Nat.not_lt.mpr hs))

theorem exConvert_of_settling (nv : Int) (h : exDue n k t = true) (hs : t < (n.exC k).settle) (hp : (n.exC k).published = true) :
    exConvert k nv t n = complete (208 + k) 0 [{ addr := 0x3400 + k * 0x20, value := (n.exC k).last, q := 0x04#8 }] t
      (setEx k { n.exC k with lastAt := t } n) :=
  (if_pos h).trans ((if_pos hs).trans (if_pos hp))

/-! ### Limits and sense errors (R187) -/

theorem exLimit_onset (h : (n.exC k).limitNow = false) :
    exLimit k true n = raise 35 (setEx k { n.exC k with limit := true, limitNow := true } n) := by
  simp [exLimit, h]

theorem exSenseErr_onset (h : (n.exC k).senseNow = false) :
    exSenseErr k true n = raise 35 (setEx k { n.exC k with senseErr := true, senseNow := true } n) := by
  simp [exSenseErr, h]

theorem exLimit_of_stands {b : Bool} (h : (b && !(n.exC k).limitNow) = false) :
    exLimit k b n = setEx k { n.exC k with limitNow := b } n := by
  simp [exLimit, h]

theorem exSenseErr_of_stands {b : Bool} (h : (b && !(n.exC k).senseNow) = false) :
    exSenseErr k b n = setEx k { n.exC k with senseNow := b } n := by
  simp [exSenseErr, h]

end

/-! ### EX_CTRL (R178) -/

section
variable {v : Word}

theorem exCtrlWrite_refused {k : Nat} {n : Node}
    (h : (n.dev.st ≠ .ready ∧ n.running = false) ∨ exHeld n k = true ∨ fld v 5 4 = 3) :
    (exCtrlWrite k v n).exC k = { n.exC k with refused := true } := by
  unfold exCtrlWrite
  rw [if_neg, exC_modEx_same]
  rcases h with ⟨hst, hrun⟩ | h | h
  · simp [hst, hrun]
  · simp [h]
  · simp [h]

theorem exCtrlWrite_taken {k : Nat} {n : Node} (hr : n.dev.st = .ready ∨ n.running = true) (hh : exHeld n k = false)
    (hf : fld v 5 4 ≠ 3) : ((exCtrlWrite k v n).exC k).on = bitOf v 0 ∧ ((exCtrlWrite k v n).exC k).vset = fld v 5 4 := by
  obtain ⟨hon, hvset, _⟩ := exUpdate_asked (k := k) (t := n.now) (n := modEx k (fun e => { e with on := bitOf v 0, vset := fld v 5 4 }) n)
  unfold exCtrlWrite
  rw [if_pos (by simpa [hh, hf] using hr), hon, hvset, exC_modEx_same]
  exact ⟨rfl, rfl⟩

/-- EX_CTRL is writable. -/
theorem regAttr_exCtrl (k : Fin 16) : ∃ x, regAttr (0x3408 + 0x20 * k.val) = some ⟨x, .wr⟩ := by
  have h : (regAttr (0x3408 + 0x20 * k.val)).map RegAttr.acc = some .wr := by
    revert k
    decide +kernel
  obtain ⟨⟨x, acc⟩, hx, hacc⟩ := Option.map_eq_some_iff.mp h
  exact ⟨x, by rw [hx, ← hacc]⟩

theorem regWrite_exCtrl (p : HostPort) (k : Fin 16) (m : Mems) (n : Node) :
    regWrite p (0x3408 + 0x20 * k.val) v m n = (0, m, exCtrlWrite k.val v n) := by
  have hk : (0x3408 + 0x20 * k.val - 0x3400) / 0x20 = k.val := by omega
  have ho : (0x3408 + 0x20 * k.val) % 0x20 = 0x08 := by omega
  rw [regWrite_high (by omega) (blkAt_high (by omega) (by omega)) ⟨by omega, by omega⟩, writeHigh_ex p v n (by omega) (by omega), hk, ho]
  rfl

/-- A write of EX_CTRL that the register takes. -/
theorem exCtrlWrite_ends (p : HostPort) (k : Fin 16) (v : Word) {s : State} (h : Takes s (0x3408 + 0x20 * k.val)) :
    Ends (exec (.exCtrlWrite p k v) s) (fun u => Acks u p (0x3408 + 0x20 * k.val) ∧ u.node.exC k.val = (exCtrlWrite k.val v s.node).exC k.val) := by
  obtain ⟨x, hx⟩ := regAttr_exCtrl k
  have hdev : (exCtrlWrite k.val v s.node).dev = s.node.dev :=
    dev_of_parts (exCtrlWrite_get _ _ _ (by simp)) (exCtrlWrite_get _ _ _ (by simp))
  have hup : (exCtrlWrite k.val v s.node).up = true := by
    rw [Node.up, hdev]
    exact h.1
  refine ends_hostPlant hx h 0 p v (by rw [advance_zero]; exact regWrite_exCtrl p k s.mem s.node) hup ⟨?_, ?_⟩
  · simp [Acks, Answered]
  · rw [settle_exC, Node.exC, wrDone_ex, Node.exC]

end

/-- Settles O27: a conversion at its boundary completes one record, a change of a supply is `exApply`, the end of its discard
`exMark` and `exResume`; what follows a command raises no event 35. -/
theorem coldJunctionsAndSupplies : Obligations.ColdJunctionsAndSupplies := by
  and_intros
  -- a settled cold junction publishes
  · intro k mC t s hu hacq hisl hrec hconv hs hrole hb
    have hdue : cjDue (s.node.advance t) k.val t = true := by
      change cjDue s.node k.val t = true
      simp [cjDue, hacq, hisl, hrec, hconv, hs, hrole, hb]
    refine ends_plantAt hu t _ ?_
    rw [cjConvert_of_due mC hdue]
    exact delivers_of_complete (.inr (by omega)) rfl
  -- a settled supply publishes
  · intro k nv t s hu hacq hisl hrec hconv hs hrole hb htc
    have hdue : exDue (s.node.advance t) k.val t = true := by
      change exDue s.node k.val t = true
      simp [exDue, hacq, hisl, hrec, hconv, hrole, hb, htc]
    refine ends_plantAt hu t _ ?_
    dsimp only
    rw [exConvert_of_settled nv hdue hs, settle_exC, complete_exC, exC_setEx_same]
    exact ⟨delivers_of_complete (.inr (by omega)) rfl, rfl⟩
  -- EX_CTRL
  · intro p k v s h
    refine ⟨fun hr hh hf => (exCtrlWrite_ends p k v h).imp fun u ⟨hack, hex⟩ => ⟨hack, ?_⟩,
      fun href => (exCtrlWrite_ends p k v h).imp fun u ⟨hack, hex⟩ => ⟨hack, hex.trans (exCtrlWrite_refused href)⟩⟩
    rw [hex]
    exact exCtrlWrite_taken hr hh hf
  -- a change at T_c
  · intro k x t s hu htc hx hd
    refine ends_plantAt hu t _ ?_
    dsimp only
    rw [exChangeApply_of_due (n := s.node.advance t) htc hx hd, settle_exC, exApply_exC]
    refine ⟨rfl, rfl, rfl, rfl, rfl, fun c hc hb => ?_⟩
    rw [settle_uiC]
    exact exApply_uiC_conv (n := s.node.advance t) hc hb
  -- the end of a discard
  · intro k d t s hu hd ht htc
    refine ends_plantAt hu t _ ?_
    dsimp only
    rw [settle_exC, exSettleEnd_exC (n := s.node.advance t) hd ht htc]
    refine ⟨rfl, rfl, rfl, rfl, fun c hc hb => ?_⟩
    rw [settle_uiC]
    refine ⟨exSettleEnd_excRestart (n := s.node.advance t) hd ht htc hc hb, fun ha hf hm => ?_⟩
    rw [exSettleEnd_resumes (n := s.node.advance t) hd ht htc hc hb ha hf hm]
    exact ⟨rfl, rfl, rfl⟩
  -- the regulator outside a discard
  · intro k ok t s hu hd
    refine ends_plantAt hu t _ ?_
    have hno : ((s.node.advance t).exC k.val).discard.isSome = false := by simp [hd]
    obtain ⟨_, _, hreg⟩ := exUpdate_asked (k := k.val) (t := t) (n := modEx k.val (fun e => { e with regOk := ok }) (s.node.advance t))
    rw [settle_exC, exRegOkChange, hno, if_neg Bool.false_ne_true, hreg, exC_modEx_same]
  -- a limit sets in
  · intro k t s hu h
    refine ends_plantAt hu t _ ?_
    dsimp only
    rw [exLimit_onset (n := s.node.advance t) h, settle_exC, raise_exC, exC_setEx_same]
    exact ⟨rfl, rfl, settle_flag _ 35 (raise_flag 35 _ rfl (by omega))⟩
  -- a sense error sets in
  · intro k t s hu h
    refine ends_plantAt hu t _ ?_
    dsimp only
    rw [exSenseErr_onset (n := s.node.advance t) h, settle_exC, raise_exC, exC_setEx_same]
    exact ⟨rfl, rfl, settle_flag _ 35 (raise_flag 35 _ rfl (by omega))⟩
  -- a limit or a sense error ends
  · intro k t s hu
    simp only [List.forall_mem_cons]
    refine ⟨ends_plantAt hu t _ ?_, ends_plantAt hu t _ ?_, List.forall_mem_nil _⟩
    · dsimp only
      rw [exLimit_of_stands rfl, settle_exC, exC_setEx_same]
      exact ⟨rfl, rfl⟩
    · dsimp only
      rw [exSenseErr_of_stands rfl, settle_exC, exC_setEx_same]
      exact ⟨rfl, rfl⟩
  -- a settling supply publishes its last VALUE
  · intro k nv t s hu hacq hisl hrec hconv hs hp hrole hb htc
    have hdue : exDue (s.node.advance t) k.val t = true := by
      change exDue s.node k.val t = true
      simp [exDue, hacq, hisl, hrec, hconv, hrole, hb, htc]
    refine ends_plantAt hu t _ ?_
    rw [exConvert_of_settling nv hdue hs hp]
    exact delivers_of_complete (.inr (by omega)) rfl
  -- a cold junction that is not due
  · intro k mC t s hu h
    have hdue : cjDue (s.node.advance t) k.val t = false := by
      change cjDue s.node k.val t = false
      rcases h with h | h | h | h | h | h | h <;> simp [cjDue, h]
    refine ends_plantAt hu t _ ?_
    dsimp only
    rw [cjConvert_of_not_due mC hdue, settle_cj, advance_cj]
  -- a supply that is not due
  · intro k nv t s hu h
    have hdue : exDue (s.node.advance t) k.val t = false := by
      change exDue s.node k.val t = false
      rcases h with h | h | h | h | h | h | h <;> simp [exDue, h]
    refine ends_plantAt hu t _ ?_
    dsimp only
    rw [exConvert_of_not_due nv hdue, settle_exC, advance_exC]
  -- no change at hand
  · intro k t s hu h
    refine ends_plantAt hu t _ ?_
    dsimp only
    rw [exChangeApply_of_not_due (n := s.node.advance t) h, settle_exC, advance_exC]
  -- a change asked for during a discard
  · intro k d x t s hu hd ht htc
    refine ends_plantAt hu t _ ?_
    dsimp only
    rw [exSettleEnd_of_change (n := s.node.advance t) hd ht htc, settle_exC, exApply_exC, exWant_undiscard]
    exact ⟨rfl, rfl, rfl⟩
  -- the discard still runs
  · intro k t s hu h
    refine ends_plantAt hu t _ ?_
    dsimp only
    rw [exSettleEnd_of_early (n := s.node.advance t) h, settle_exC, advance_exC]
  -- the regulator during a discard
  · intro k ok d t s hu hd
    refine ends_plantAt hu t _ ?_
    have hsome : ((s.node.advance t).exC k.val).discard.isSome = true := by simp [hd]
    rw [settle_exC, exRegOkChange, if_pos hsome, advance_exC]
  -- a limit and a sense error that stand raise nothing more
  · intro k t s hu hl hsn
    simp only [List.forall_mem_cons]
    refine ⟨ends_plantAt hu t _ ?_, ends_plantAt hu t _ ?_, List.forall_mem_nil _⟩
    · dsimp only
      rw [exLimit_of_stands (b := true) (by simp [hl]), settle_exC, exC_setEx_same, settle_flag_other (by decide), advance_exC, ← hl]
      exact ⟨rfl, rfl⟩
    · dsimp only
      rw [exSenseErr_of_stands (b := true) (by simp [hsn]), settle_exC, exC_setEx_same, settle_flag_other (by decide), advance_exC, ← hsn]
      exact ⟨rfl, rfl⟩

end Sys2Proof.Machine
end

section
/-! SUPPORT. Pair watch: when its timer turns a pair's state and what that leaves in the stored results (R211). -/

namespace Sys2Proof.Machine
open Sys2Proof

/-! ### SUSPECT on a stored result -/

section
variable {n : Node} {a b x : Nat} {on : Bool}

theorem markSuspect_of_has (h : (n.res a).has = true) :
    (markSuspect a on n).res a = { n.res a with q := if on then (n.res a).q ||| qSUSPECT else (n.res a).q &&& ~~~ qSUSPECT } := by
  rw [markSuspect, if_pos h]
  exact tget_tset_same _ _ _ _

theorem markSuspect_other (h : x ≠ a) : (markSuspect a on n).res x = n.res x := by
  unfold markSuspect
  dsimp only
  split
  · exact tget_tset_ne _ _ _ _ _ h
  · rfl

theorem markSuspect_has : ((markSuspect a on n).res x).has = (n.res x).has := by
  by_cases hx : x = a
  · subst hx
    cases h : (n.res x).has with
    | true => rw [markSuspect_of_has h, h]
    | false => rw [markSuspect, if_neg (by simp [h]), h]
  · rw [markSuspect_other hx]

theorem qHas_mark (q : Byte) (on : Bool) : qHas (if on then q ||| qSUSPECT else q &&& ~~~ qSUSPECT) qSUSPECT = on := by
  revert q on
  decide

theorem markSuspect_suspect (h : (n.res a).has = true) : qHas ((markSuspect a on n).res a).q qSUSPECT = on := by
  rw [markSuspect_of_has h]
  exact qHas_mark _ on

/-- SUSPECT of both members of a pair is set to what `f` says of each. -/
def markBoth (f : Nat → Bool) (a b : Nat) (n : Node) : Node := markSuspect b (f b) (markSuspect a (f a) n)

theorem markBoth_suspect {f : Nat → Bool} (hx : x ∈ [a, b]) (h : (n.res x).has = true) :
    qHas ((markBoth f a b n).res x).q qSUSPECT = f x := by
  by_cases hb : x = b
  · subst hb
    exact markSuspect_suspect (markSuspect_has.trans h)
  · obtain rfl : x = a := by simpa [hb] using hx
    rw [markBoth, markSuspect_other hb]
    exact markSuspect_suspect h

theorem markBoth_other {f : Nat → Bool} (ha : x ≠ a) (hb : x ≠ b) : (markBoth f a b n).res x = n.res x :=
  (markSuspect_other hb).trans (markSuspect_other ha)

theorem markBoth_get {pt : Part} {f : Nat → Bool} (h : pt ∉ [.store]) : Part.get (markBoth f a b n) pt = Part.get n pt :=
  (markSuspect_get _ _ _ h).trans (markSuspect_get _ _ _ h)

end

/-! ### The timer -/

/-- Pair `k` of the watch. -/
def Node.watchPair (n : Node) (k : Nat) : Pair := tget {} n.cal.pairs k

/-- The timed condition has become the pair's state; the timer stops. -/
def pairTurned (k : Nat) (n : Node) : Node :=
  { n with cal.pairs := tset {} n.cal.pairs k { n.watchPair k with suspect := (n.watchPair k).beyond, since := none } }

section
variable {n : Node} {k t s0 : Nat} {r : Bytes}

theorem pairTurned_same : (pairTurned k n).watchPair k = { n.watchPair k with suspect := (n.watchPair k).beyond, since := none } :=
  tget_tset_same _ _ _ _

theorem pairTurned_other {d : Nat} (h : d ≠ k) : (pairTurned k n).watchPair d = n.watchPair d := tget_tset_ne _ _ _ _ _ h

/-- SUSPECT of a member once the pair has turned: a pair suspects it, or its producer does (R45). -/
def pairMark (k : Nat) (n : Node) (a : Nat) : Bool := (n.watchPair k).beyond || (pairSuspect (pairTurned k n) a || (n.res a).susp)

theorem pairTimer_of_due (hk : n.keyed 0x06 2 k = some r) (hs : (n.watchPair k).since = some s0) (ht : s0 + u16 r 6 * 2500000 ≤ t)
    (hne : (n.watchPair k).suspect ≠ (n.watchPair k).beyond) :
    pairTimer k t n = raiseIf (n.watchPair k).beyond 38 (markBoth (pairMark k n) (u16 r 2) (u16 r 4) (pairTurned k n)) := by
  have hgo : ¬ (decide (t < s0 + u16 r 6 * 2500000) || (n.watchPair k).suspect == (n.watchPair k).beyond) = true := by
    simp [Nat.not_lt.mpr ht, hne]
  unfold pairTimer
  rw [hk]
  dsimp only
  rw [← Node.watchPair, hs]
  dsimp only
  rw [if_neg hgo]
  cases hb : (n.watchPair k).beyond with
  | true => simp [markBoth, pairMark, pairTurned, hb, raiseIf]
  | false =>
    simp only [markBoth, pairMark, pairTurned, hb, raiseIf, Bool.false_or, Bool.false_eq_true, if_false]
    rfl

theorem pairTimer_of_not_due (h : (n.watchPair k).since = none ∨ n.keyed 0x06 2 k = none
    ∨ (n.watchPair k).suspect = (n.watchPair k).beyond
    ∨ ∃ r s0, n.keyed 0x06 2 k = some r ∧ (n.watchPair k).since = some s0 ∧ t < s0 + u16 r 6 * 2500000) :
    pairTimer k t n = n := by
  unfold pairTimer
  split
  · rfl
  next r hk =>
    dsimp only
    split
    · rfl
    next s0 hs =>
      rw [if_pos]
      rcases h with h | h | h | ⟨r', s', hr, hs', hlt⟩
      · exact absurd (h.symm.trans hs) (by simp)
      · exact absurd (h.symm.trans hk) (by simp)
      · simp [show (tget {} n.cal.pairs k : Pair).suspect = (tget {} n.cal.pairs k).beyond from h]
      · obtain rfl : r = r' := Option.some.inj (hk.symm.trans hr)
        obtain rfl : s0 = s' := Option.some.inj (hs.symm.trans hs')
        simp [hlt]

/-- Once the one suspect pair has cleared, no pair suspects a result. -/
theorem pairTurned_suspects_none (h1 : (n.watchPair k).beyond = false) (h : ∀ d < 64, d ≠ k → (n.watchPair d).suspect = false)
    (a : Nat) : pairSuspect (pairTurned k n) a = false := by
  refine List.any_eq_false.mpr fun d hd => ?_
  have hsusp : ((pairTurned k n).watchPair d).suspect = false := by
    by_cases hdk : d = k
    · rw [hdk, pairTurned_same, h1]
    · rw [pairTurned_other hdk, h d (List.mem_range.mp hd) hdk]
  rw [Node.watchPair] at hsusp
  simp [hsusp]

end

end Sys2Proof.Machine
end

section
/-! SUPPORT. Triads: who takes part in a vote, what it finds, what it leaves (R212). -/

namespace Sys2Proof.Machine
open Sys2Proof

/-! ### The vote -/

theorem forall_lt_three {P : Nat → Prop} (h0 : P 0) (h1 : P 1) (h2 : P 2) : ∀ i < 3, P i := by
  intro i hi
  interval_cases i
  · exact h0
  · exact h1
  · exact h2

section
variable {valid : Nat → Bool} {val : Nat → Int} {band i j l : Nat}

/-- The members that take part, with what they read. -/
def voters (valid : Nat → Bool) (val : Nat → Int) : List (Nat × Int) := ((List.range 3).filter valid).map (fun i => (i, val i))

/-- The median of the three members. -/
def voteMid (val : Nat → Int) : Int := median3 [val 0, val 1, val 2]

theorem voters_all (h : ∀ i < 3, valid i = true) : voters valid val = [(0, val 0), (1, val 1), (2, val 2)] := by
  simp [voters, List.range_succ, h 0, h 1, h 2]

theorem triadVote_agree (hv : ∀ i < 3, valid i = true) (hb : ∀ i < 3, |val i - voteMid val| ≤ (band : Int)) :
    triadVote (voters valid val) band = (some (voteMid val), 0, 7) := by
  rw [voters_all hv]
  have h0 := hb 0 (by decide)
  have h1 := hb 1 (by decide)
  have h2 := hb 2 (by decide)
  rw [voteMid] at h0 h1 h2 ⊢
  simp [triadVote, h0, h1, h2]

/-- Two of the three remain, in rising order. -/
theorem triadVote_pair_of_lt (hij : i < j) (hj : j < 3) (hl : l < 3) (hli : l ≠ i) (hlj : l ≠ j) (hvi : valid i = true)
    (hvj : valid j = true)
    (h : valid l = false ∧ |val i - val j| ≤ (band : Int) ∨ valid l = true ∧ |val i - voteMid val| ≤ (band : Int)
      ∧ |val j - voteMid val| ≤ (band : Int) ∧ (band : Int) < |val l - voteMid val|) :
    triadVote (voters valid val) band = (some (divRound (val i + val j) 2), 1, 2 ^ i + 2 ^ j) := by
  have hcase : (i = 0 ∧ j = 1 ∧ l = 2) ∨ (i = 0 ∧ j = 2 ∧ l = 1) ∨ (i = 1 ∧ j = 2 ∧ l = 0) := by omega
  rcases h with ⟨hvl, hd⟩ | ⟨hvl, hi, hj', hl'⟩
  -- one is not VALID
  · rcases hcase with ⟨rfl, rfl, rfl⟩ | ⟨rfl, rfl, rfl⟩ | ⟨rfl, rfl, rfl⟩ <;>
      simp [voters, List.range_succ, triadVote, hvi, hvj, hvl, hd]
  -- one lies outside the band
  · have hall : ∀ d < 3, valid d = true := by
      intro d hd
      obtain rfl | rfl | rfl : d = i ∨ d = j ∨ d = l := by omega
      · exact hvi
      · exact hvj
      · exact hvl
    rw [voters_all hall]
    rw [voteMid] at hi hj' hl'
    rcases hcase with ⟨rfl, rfl, rfl⟩ | ⟨rfl, rfl, rfl⟩ | ⟨rfl, rfl, rfl⟩ <;>
      simp [triadVote, hi, hj', Int.not_le.mpr hl']

/-- Two of the three remain: one is not VALID, or lies outside the band about the median. -/
theorem triadVote_pair (hi : i < 3) (hj : j < 3) (hl : l < 3) (hij : i ≠ j) (hli : l ≠ i) (hlj : l ≠ j) (hvi : valid i = true)
    (hvj : valid j = true)
    (h : valid l = false ∧ |val i - val j| ≤ (band : Int) ∨ valid l = true ∧ |val i - voteMid val| ≤ (band : Int)
      ∧ |val j - voteMid val| ≤ (band : Int) ∧ (band : Int) < |val l - voteMid val|) :
    triadVote (voters valid val) band = (some (divRound (val i + val j) 2), 1, 2 ^ i + 2 ^ j) := by
  rcases Nat.lt_or_gt_of_ne hij with hlt | hgt
  · exact triadVote_pair_of_lt hlt hj hl hli hlj hvi hvj h
  · rw [Int.add_comm (val i), Nat.add_comm (2 ^ i)]
    refine triadVote_pair_of_lt hgt hi hl hlj hli hvj hvi (h.imp ?_ ?_)
    · exact fun ⟨hvl, hd⟩ => ⟨hvl, abs_sub_comm (val i) (val j) ▸ hd⟩
    · exact fun ⟨hvl, h1, h2, h3⟩ => ⟨hvl, h2, h1, h3⟩

theorem triadVote_alone (h : ∀ i < 3, ∀ j < 3, i ≠ j → valid i = true → valid j = false) :
    triadVote (voters valid val) band = (none, 2, 0) := by
  have h01 := h 0 (by decide) 1 (by decide) (by decide)
  have h02 := h 0 (by decide) 2 (by decide) (by decide)
  have h12 := h 1 (by decide) 2 (by decide) (by decide)
  cases h0 : valid 0 with
  | true => simp [voters, List.range_succ, h0, h01 h0, h02 h0, triadVote]
  | false =>
    cases h1 : valid 1 with
    | true => simp [voters, List.range_succ, h0, h1, h12 h1, triadVote]
    | false => cases h2 : valid 2 <;> simp [voters, List.range_succ, h0, h1, h2, triadVote]

end

/-! ### A vote at its tick -/

/-- Triad `k`. -/
def Node.triad (n : Node) (k : Nat) : Triad := tget {} n.cal.triads k

/-- The result of a triad's member `i` in the store. -/
def Node.member (n : Node) (r : Bytes) (i : Nat) : Result := n.res (u16 r (2 + 2 * i))

/-- Member `i` takes part. -/
def memberValid (n : Node) (r : Bytes) (i : Nat) : Bool := qHas (resQ (n.member r i)) qVALID

def memberVal (n : Node) (r : Bytes) (i : Nat) : Int := (n.member r i).value.toInt

/-- The triad votes at this tick (R212). -/
def triadDue (n : Node) (k : Nat) (r : Bytes) : Bool :=
  n.acq && (n.triad k).voteAt != some (n.now / scanPer) && n.scan.toNat % u16 r 12 == 0

/-- The triad after a vote. -/
def triadVoted (n : Node) (v : Option Int) (st used : Nat) (old : Triad) : Triad :=
  { state := st, used := used, last := (v.map fun x => (satE32 x).1).getD old.last, voted := old.voted || v.isSome,
    voteAt := some (n.now / scanPer) }

/-- The state worsens, from NORMAL or from DEGRADED to FAILED (R212). -/
def triadWorsens (old st : Nat) : Bool := old == 0 && st != 0 || old == 1 && st == 2

/-- A vote is noted, with event 39 where the state worsens. -/
def triadNote (k : Nat) (v : Option Int) (st used : Nat) (n : Node) : Node :=
  raiseIf (triadWorsens (n.triad k).state st) 39
    { n with cal.triads := tset {} n.cal.triads k (triadVoted n v st used (n.triad k)) }

/-- A member used in the vote is SUSPECT. -/
def triadSuspect (n : Node) (r : Bytes) (used : Nat) : Bool :=
  [(0, u16 r 2), (1, u16 r 4), (2, u16 r 6)].any fun (i, a) => (used / 2 ^ i) % 2 == 1 && qHas (resQ (n.res a)) qSUSPECT

/-- The entry that a vote publishes. -/
def triadEntry (k : Nat) (r : Bytes) (v : Option Int) (used : Nat) (n : Node) : Entry :=
  { addr := 0x1D00 + k * 0x10, value := (v.map fun x => (satE32 x).1).getD (n.triad k).last,
    q := mkQ v.isSome false false (triadSuspect n r used) false false }

section
variable {n : Node} {k t : Nat} {r : Bytes} {v : Option Int} {st used : Nat}

theorem members_live : ([(0, u16 r 2), (1, u16 r 4), (2, u16 r 6)].filter (fun (_, a) => qHas (resQ (n.res a)) qVALID)).map
    (fun (i, a) => (i, (n.res a).value.toInt)) = voters (memberValid n r) (memberVal n r) := by
  have hmem : [(0, u16 r 2), (1, u16 r 4), (2, u16 r 6)] = (List.range 3).map (fun i => (i, u16 r (2 + 2 * i))) := rfl
  rw [hmem, List.filter_map, List.map_map]
  rfl

theorem triadDo_of_due (hk : n.keyed 0x06 3 k = some r) (hd : triadDue n k r = true)
    (hv : triadVote (voters (memberValid n r) (memberVal n r)) (u32 r 8) = (v, st, used)) :
    triadDo k t n = if v.isSome || (n.triad k).voted then complete (158 + k) 0 [triadEntry k r v used n] t (triadNote k v st used n)
      else triadNote k v st used n := by
  have hgo : (!n.acq || (n.triad k).voteAt == some (n.now / scanPer) || n.scan.toNat % u16 r 12 != 0) = false := by
    simpa [triadDue, and_assoc] using hd
  unfold triadDo
  rw [hk]
  dsimp only
  rw [← Node.triad, if_neg (by rw [hgo]; exact Bool.false_ne_true), members_live, hv]
  cases v <;> rfl

theorem triadDo_of_not_due (h : ∀ r, n.keyed 0x06 3 k = some r → triadDue n k r = false) : triadDo k t n = n := by
  unfold triadDo
  split
  · rfl
  next r hk =>
    have hgo : (!n.acq || (n.triad k).voteAt == some (n.now / scanPer) || n.scan.toNat % u16 r 12 != 0) = true := by
      rw [← Bool.not_eq_false', ← h r hk]
      simp [triadDue, Bool.not_or, bne]
    exact if_pos hgo

theorem member_addr_mem (r : Bytes) : ∀ i < 3, u16 r (2 + 2 * i) ∈ [u16 r 2, u16 r 4, u16 r 6] :=
  forall_lt_three (by simp) (by simp) (by simp)

theorem member_addr_inj {i j : Nat} (hi : i < 3) (hj : j < 3) (h24 : u16 r 2 ≠ u16 r 4) (h26 : u16 r 2 ≠ u16 r 6)
    (h46 : u16 r 4 ≠ u16 r 6) (h : u16 r (2 + 2 * i) = u16 r (2 + 2 * j)) : i = j := by
  have hnd : [u16 r 2, u16 r 4, u16 r 6].Nodup := by simp [h24, h26, h46]
  have hget : ∀ d, (hd : d < 3) → [u16 r 2, u16 r 4, u16 r 6][d] = u16 r (2 + 2 * d) := by
    intro d hd
    interval_cases d <;> rfl
  exact (hnd.getElem_inj_iff (hi := hi) (hj := hj)).mp (by rw [hget i hi, hget j hj, h])

theorem triadNote_triad : (triadNote k v st used n).triad k = triadVoted n v st used (n.triad k) := by
  rw [Node.triad, triadNote, raiseIf_cal]
  exact tget_tset_same _ _ _ _

theorem triadNote_jn : (triadNote k v st used n).jn = n.jn := raiseIf_jn _ _ _

theorem triadNote_event (h : triadWorsens (n.triad k).state st = true) :
    (triadNote k v st used n).evt.flag 39 = true := by
  rw [triadNote, h]
  exact raise_flag 39 _ rfl (by omega)

theorem triadDo_triad (hk : n.keyed 0x06 3 k = some r) (hd : triadDue n k r = true)
    (hv : triadVote (voters (memberValid n r) (memberVal n r)) (u32 r 8) = (v, st, used)) :
    (triadDo k t n).triad k = triadVoted n v st used (n.triad k) := by
  rw [triadDo_of_due hk hd hv, ← triadNote_triad (st := st)]
  split
  · rw [Node.triad, complete_cal, ← Node.triad]
  · rfl

theorem triadDo_event (hk : n.keyed 0x06 3 k = some r) (hd : triadDue n k r = true)
    (hv : triadVote (voters (memberValid n r) (memberVal n r)) (u32 r 8) = (v, st, used))
    (h : triadWorsens (n.triad k).state st = true) :
    (triadDo k t n).evt.flag 39 = true := by
  rw [triadDo_of_due hk hd hv]
  split
  · exact complete_flag _ _ _ _ _ 39 (triadNote_event h)
  · exact triadNote_event h

theorem triadDo_of_published (hk : n.keyed 0x06 3 k = some r) (hd : triadDue n k r = true)
    (hv : triadVote (voters (memberValid n r) (memberVal n r)) (u32 r 8) = (v, st, used))
    (hp : (v.isSome || (n.triad k).voted) = true) :
    triadDo k t n = complete (158 + k) 0 [triadEntry k r v used n] t (triadNote k v st used n) := by
  rw [triadDo_of_due hk hd hv, if_pos hp]

/-- A value voted is VALID. -/
theorem triadEntry_of_value {x : Int} : ∃ q, qHas q qVALID = true
    ∧ triadEntry k r (some x) used n = ⟨0x1D00 + k * 0x10, (satE32 x).1, q⟩ := by
  refine ⟨mkQ true false false (triadSuspect n r used) false false, ?_, rfl⟩
  cases triadSuspect n r used <;> rfl

theorem triadEntry_of_none : triadEntry k r none 0 n = ⟨0x1D00 + k * 0x10, (n.triad k).last, 0x00#8⟩ := by
  have hs : triadSuspect n r 0 = false := by simp [triadSuspect]
  rw [triadEntry, hs]
  rfl

end

end Sys2Proof.Machine
end

section
/-! SUPPORT. The commands of pair watch and triads (R211, R212). -/

namespace Sys2Proof.Machine
open Sys2Proof

section
variable {s : State} {k t : Nat} {r : Bytes} {v : Option Int} {st used : Nat}

/-- What a pair's timer leaves at the end of its command. -/
theorem pairWatchTimer_ends (k : Fin 64) {s0 : Nat} (hu : s.node.up = true) (hk : s.node.keyed 0x06 2 k.val = some r)
    (hs : (s.node.watchPair k.val).since = some s0) (ht : s0 + u16 r 6 * 2500000 ≤ t)
    (hne : (s.node.watchPair k.val).suspect ≠ (s.node.watchPair k.val).beyond) :
    Ends (exec (.pairWatchTimer k t) s) (fun u => (u.node.watchPair k.val).suspect = (s.node.watchPair k.val).beyond
      ∧ ((s.node.watchPair k.val).beyond = true → u.node.evt.flag 38 = true)
      ∧ ((s.node.watchPair k.val).beyond = false → u.node.evt.flag 38 = s.node.evt.flag 38)
      ∧ (∀ a ∈ [u16 r 2, u16 r 4], (s.node.res a).has = true → qHas (u.node.res a).q qSUSPECT = pairMark k.val s.node a)
      ∧ ∀ a, a ≠ u16 r 2 → a ≠ u16 r 4 → u.node.res a = s.node.res a) := by
  refine ends_plantAt hu t _ ?_
  dsimp only
  rw [pairTimer_of_due (n := s.node.advance t) hk hs ht hne]
  generalize hm : markBoth (pairMark k.val (s.node.advance t)) (u16 r 2) (u16 r 4) (pairTurned k.val (s.node.advance t)) = m
  have hcal : m.cal = (pairTurned k.val (s.node.advance t)).cal := hm ▸ markBoth_get (pt := .cal) (by simp)
  have hevt : m.evt = s.node.evt := hm ▸ markBoth_get (pt := .evt) (by simp)
  have hres : ∀ a, (settle (raiseIf (s.node.watchPair k.val).beyond 38 m)).res a = m.res a := fun a => by
    rw [settle_res, Node.res, raiseIf_jn, ← Node.res]
  refine ⟨?_, fun hb => ?_, fun hb => ?_, fun a ha hhas => ?_, fun a ha hb => ?_⟩
  · rw [Node.watchPair, settle_cal, raiseIf_cal, hcal, ← Node.watchPair, pairTurned_same]
    rfl
  · rw [show ((s.node.advance t).watchPair k.val).beyond = true from hb]
    exact settle_flag _ 38 (raise_flag 38 _ rfl (by omega))
  · rw [show ((s.node.advance t).watchPair k.val).beyond = false from hb, settle_flag_other (by decide)]
    exact congrArg (fun e => Events.flag e 38) hevt
  · have hmark := markBoth_suspect (f := pairMark k.val (s.node.advance t)) (n := pairTurned k.val (s.node.advance t)) ha hhas
    rw [hm] at hmark
    exact (congrArg (fun x : Result => qHas x.q qSUSPECT) (hres a)).trans hmark
  · exact (hres a).trans (hm ▸ markBoth_other ha hb)

/-- A triad's tick, as DEVTIME gives it. -/
theorem triadDue_advance (ha : s.node.acq = true) (hv : (s.node.triad k).voteAt ≠ some (timeAfter s t / 250000))
    (hp : (wd (timeAfter s t / 250000)).toNat % u16 r 12 = 0) : triadDue (s.node.advance t) k r = true := by
  change (s.node.acq && (s.node.triad k).voteAt != some (timeAfter s t / 250000)
    && (wd (timeAfter s t / 250000)).toNat % u16 r 12 == 0) = true
  simp [ha, hv, hp]

theorem triadDue_advance_false (h : s.node.acq = false ∨ (s.node.triad k).voteAt = some (timeAfter s t / 250000)
    ∨ (wd (timeAfter s t / 250000)).toNat % u16 r 12 ≠ 0) : triadDue (s.node.advance t) k r = false := by
  change (s.node.acq && (s.node.triad k).voteAt != some (timeAfter s t / 250000)
    && (wd (timeAfter s t / 250000)).toNat % u16 r 12 == 0) = false
  rcases h with h | h | h <;> simp [h]

/-- What a vote leaves at the end of its command. -/
theorem triadVote_ends (k : Fin 16) (hu : s.node.up = true) (hk : s.node.keyed 0x06 3 k.val = some r)
    (hd : triadDue (s.node.advance t) k.val r = true)
    (hv : triadVote (voters (memberValid s.node r) (memberVal s.node r)) (u32 r 8) = (v, st, used)) :
    Ends (exec (.triadVote k t) s) (fun u => (u.node.triad k.val).state = st ∧ (u.node.triad k.val).used = used
      ∧ (triadWorsens (s.node.triad k.val).state st = true → u.node.evt.flag 39 = true)
      ∧ ((v.isSome || (s.node.triad k.val).voted) = true →
        Delivers s u (158 + k.val) 0 t [triadEntry k.val r v used s.node])) := by
  refine ends_plantAt hu t _ ?_
  dsimp only
  have htriad := triadDo_triad (t := t) (n := s.node.advance t) hk hd hv
  refine ⟨?_, ?_, fun h => ?_, fun h => ?_⟩
  · rw [Node.triad, settle_cal, ← Node.triad, htriad]
    rfl
  · rw [Node.triad, settle_cal, ← Node.triad, htriad]
    rfl
  · exact settle_flag _ 39 (triadDo_event hk hd hv h)
  · rw [triadDo_of_published (n := s.node.advance t) hk hd hv h]
    exact delivers_of_complete (.inr (by omega)) triadNote_jn

end

/-- Settles O29: a pair's timer sets both marks to what `markBoth` is given, a triad's vote is `triadVote` of the members that
are VALID. -/
theorem pairsAndTriads : Obligations.PairsAndTriads := by
  and_intros
  -- a pair becomes suspect
  · intro k r s0 t s hu hk hs ht h0 h1
    have hmark : ∀ a, pairMark k.val s.node a = true := fun a => by rw [pairMark, Node.watchPair, h1, Bool.true_or]
    refine (pairWatchTimer_ends k hu hk hs ht (fun h => by simp [Node.watchPair, h0, h1] at h)).imp
      fun u ⟨hsusp, hevt, _, hmarks, hothers⟩ => ⟨hsusp.trans h1, hevt h1, fun h => ?_, fun h => ?_, hothers⟩
    · exact (hmarks _ (by simp) h).trans (hmark _)
    · exact (hmarks _ (by simp) h).trans (hmark _)
  -- all three members agree
  · intro k r t s hu ha hk hv hp hall m hband
    simp only [List.forall_mem_cons] at hall hband
    obtain ⟨v0, v1, v2, _⟩ := hall
    obtain ⟨b0, b1, b2, _⟩ := hband
    have hvote := triadVote_agree (valid := memberValid s.node r) (val := memberVal s.node r) (band := u32 r 8)
      (forall_lt_three v0 v1 v2) (forall_lt_three b0 b1 b2)
    obtain ⟨q, hq, he⟩ := triadEntry_of_value (k := k.val) (r := r) (used := 7) (n := s.node)
      (x := voteMid (memberVal s.node r))
    refine (triadVote_ends k hu hk (triadDue_advance ha hv hp) hvote).imp
      fun u ⟨hst, hused, _, hdel⟩ => ⟨hst, hused, q, hq, ?_⟩
    rw [he] at hdel
    exact hdel rfl
  -- a pair clears
  · intro k r s0 t s hu hk hs ht h0 h1
    refine (pairWatchTimer_ends k hu hk hs ht (fun h => by simp [Node.watchPair, h0, h1] at h)).imp
      fun u ⟨hsusp, _, hevt, hmarks, hothers⟩ => ⟨hsusp.trans h1, hevt h1, fun hno a ha hown hhas => ?_, hothers⟩
    rw [hmarks a ha hhas, pairMark, pairTurned_suspects_none h1 hno a, hown, Node.watchPair, h1]
    rfl
  -- a timer that has not run out
  · intro k t s hu h
    refine ends_plantAt hu t _ ?_
    dsimp only
    rw [pairTimer_of_not_due (n := s.node.advance t) h, settle_cal, settle_jn_store]
    exact ⟨rfl, rfl⟩
  -- two members remain
  · intro k r i j l t s hu ha hk hv hp hi hj hl hij hil hjl mid hvi hvj hcase
    have hvote := triadVote_pair (valid := memberValid s.node r) (val := memberVal s.node r) (band := u32 r 8) hi hj hl hij
      (Ne.symm hil) (Ne.symm hjl) hvi hvj hcase
    obtain ⟨q, hq, he⟩ := triadEntry_of_value (k := k.val) (r := r) (used := 2 ^ i + 2 ^ j) (n := s.node)
      (x := divRound (memberVal s.node r i + memberVal s.node r j) 2)
    refine (triadVote_ends k hu hk (triadDue_advance ha hv hp) hvote).imp
      fun u ⟨hst, hused, hevt, hdel⟩ => ⟨hst, hused, fun h0 => hevt ?_, q, hq, ?_⟩
    · rw [Node.triad, h0]
      rfl
    · rw [he] at hdel
      exact hdel rfl
  -- fewer than two members are VALID
  · intro k r x t s hu ha hk hv hp hbad h24 h26 h46
    have hvote := triadVote_alone (valid := memberValid s.node r) (val := memberVal s.node r) (band := u32 r 8)
      (fun i hi j hj hij hvi => by
        have hxi : u16 r (2 + 2 * i) = x := by
          by_contra hne
          exact absurd (hvi.symm.trans (hbad _ (member_addr_mem r i hi) hne)) (by decide)
        exact hbad _ (member_addr_mem r j hj) (fun hxj => hij (member_addr_inj hi hj h24 h26 h46 (hxi.trans hxj.symm))))
    refine (triadVote_ends k hu hk (triadDue_advance ha hv hp) hvote).imp
      fun u ⟨hst, hused, hevt, hdel⟩ => ⟨hst, hused, fun h01 => hevt ?_, fun hvoted => ?_⟩
    · obtain h0 | h1 := Nat.le_one_iff_eq_zero_or_eq_one.mp h01
      · rw [Node.triad, h0]
        rfl
      · rw [Node.triad, h1]
        rfl
    · rw [triadEntry_of_none] at hdel
      exact hdel hvoted
  -- between its ticks
  · intro k t s hu h
    refine ends_plantAt hu t _ ?_
    dsimp only
    rw [triadDo_of_not_due (n := s.node.advance t) ?_, settle_cal]
    · rfl
    · intro r hk
      refine triadDue_advance_false ?_
      rcases h with h | h | h | ⟨r', hk', h⟩
      · exact .inl h
      · exact absurd (h.symm.trans hk) (by simp)
      · exact .inr (.inl h)
      · obtain rfl : r' = r := Option.some.inj (hk'.symm.trans hk)
        exact .inr (.inr h)

end Sys2Proof.Machine
end

section
/-! SUPPORT. Bypass converters and disagreement counts: what each operation of a round reads as afterwards (R190 to R203). -/

namespace Sys2Proof.Machine
open Sys2Proof

/-! ### Reading after writing -/

section
variable {b c d : Nat} {n m : Node}

theorem uiC_of_get (h : Part.get m .ui = Part.get n .ui) (c : Nat) : m.uiC c = n.uiC c := ChanKind.ui.chan_of_get h c

theorem bcOf_of_cal (h : m.cal = n.cal) (b : Nat) : m.bcOf b = n.bcOf b := congrArg (fun x : Calib => tget ({} : Bc) x.bcs b) h

theorem disOf_of_cal (h : m.cal = n.cal) (c : Nat) : disOf m c = disOf n c := congrArg (fun x : Calib => tget 0 x.dis c) h

theorem uiC_modUi_same (f : UiChan → UiChan) : (modUi c f n).uiC c = f (n.uiC c) := uiC_setUi_same c _ n

theorem uiC_modUi_other (f : UiChan → UiChan) (h : c ≠ d) : (modUi d f n).uiC c = n.uiC c := modUi_others f c h

theorem bcOf_modBc_same (f : Bc → Bc) : (modBc b f n).bcOf b = f (n.bcOf b) := bcOf_setBc_same b _ n

theorem ui_modBc (f : Bc → Bc) : (modBc b f n).ui = n.ui := modBc_get (pt := .ui) b f n (by simp)

theorem disOf_modBc (f : Bc → Bc) (c : Nat) : disOf (modBc b f n) c = disOf n c := rfl

theorem bcOf_setBc_other (u : Bc) (h : d ≠ b) : (setBc b u n).bcOf d = n.bcOf d := (bcOf_setBc b u n d).trans (if_neg h)

theorem disOf_setDis_same (v : Nat) : disOf (setDis c v n) c = v := tget_tset_same _ _ _ _

theorem disOf_setDis_other (v : Nat) (h : d ≠ c) : disOf (setDis c v n) d = disOf n d := tget_tset_ne _ _ _ _ _ h

end

/-! ### The end of a round (R193, R200, R215) -/

section
variable {b o t : Nat} {val : Option Int} {n : Node}

/-- A converter whose round has ended: self-calibration follows. -/
def roundClosed (n : Node) (b o : Nat) : Bc :=
  { n.bcOf b with step := 1, lastChan := (n.bcOf b).chan, chan := 0, outcome := o, lastScan := n.scan.toNat % 65536,
                  period := roundPeriod (n.bcOf b), verdict := .none, refs := false }

/-- The module whose round of BC `b` has ended, but for the record and event 36. -/
def roundDone (b o : Nat) (n : Node) : Node := setBc b (roundClosed n b o) { n with cal.rndCnt := n.cal.rndCnt + 1#32 }

theorem roundEnd_cal : (roundEnd b o val t n).cal = (roundDone b o n).cal := by
  cases val <;> rw [roundEnd, raise_cal, complete_cal] <;> rfl

theorem roundEnd_bcOf : (roundEnd b o val t n).bcOf b = roundClosed n b o :=
  (bcOf_of_cal roundEnd_cal b).trans (bcOf_setBc_same b _ _)

theorem roundEnd_unbound : ((roundEnd b o val t n).bcOf b).step ≠ 6 := by
  rw [roundEnd_bcOf]
  exact (by decide : 1 ≠ 6)

theorem roundEnd_disOf (c : Nat) : disOf (roundEnd b o val t n) c = disOf n c := disOf_of_cal roundEnd_cal c

theorem roundEnd_uiC (c : Nat) : (roundEnd b o val t n).uiC c = n.uiC c := uiC_of_get (roundEnd_get b o val t n (by simp)) c

theorem roundEnd_event : (roundEnd b o val t n).evt.flag 36 = true := raise_flag 36 _ rfl (by omega)

/-- The converter's record of the round stands at the end of the command. -/
theorem delivers_of_roundEnd {s : State} {x : Int} (hb : b < 4) (hj : n.jn = s.node.jn) :
    Delivers s { s with node := settle (roundEnd b o (some x) t n) } (64 + b) 0 t
      [{ addr := 0x1C80 + b * 0x10, value := (satE32 x).1, q := mkQ true false (o != 0) false false false }] := by
  have hslot := complete_mem_slots (64 + b) 0
    [{ addr := 0x1C80 + b * 0x10, value := (satE32 x).1, q := mkQ true false (o != 0) false false false }] t
    (roundDone b o n)
  have hdone : (roundDone b o n).jn = s.node.jn := hj
  have hend : (roundEnd b o (some x) t n).jn = (complete (64 + b) 0
      [{ addr := 0x1C80 + b * 0x10, value := (satE32 x).1, q := mkQ true false (o != 0) false false false }] t
      (roundDone b o n)).jn := raise_jn _ _
  rw [hdone, ← hend] at hslot
  have h := settle_slot _ _ hslot (.inl (show 64 + b < 118 by omega))
  unfold Delivers
  dsimp only
  exact h

end

/-! ### The own converter again -/

theorem ownAgain_uiC (c : Nat) (n : Node) : (ownAgain c n).uiC c
    = { n.uiC c with src := if tget 0 n.dtr.conv c = 0 then 0 else 2, rampN := 0, rampJ := 0, rampNum := 0 } := uiC_modUi_same _

/-! ### A detour (R202) -/

section
variable {b c d : Nat} {n : Node}

theorem giveUp_of_none (h : ∀ b < 4, (n.bcOf b).step = 6 → (n.bcOf b).chan ≠ c) : giveUp c n = n :=
  foldl_eq_self fun b hb => if_neg fun ⟨h6, hc⟩ => h b (List.mem_range.mp hb) h6 hc

theorem giveUp_bcOf (h : ¬((n.bcOf d).step = 6 ∧ (n.bcOf d).chan = c)) : (giveUp c n).bcOf d = n.bcOf d := by
  unfold giveUp
  refine List.foldlRecOn (motive := fun m : Node => m.bcOf d = n.bcOf d) _ _ rfl fun m hm b _ => ?_
  split
  next hb =>
    have hdb : d ≠ b := by
      rintro rfl
      exact h (hm ▸ hb)
    exact (bcOf_setBc_other _ hdb).trans hm
  next => exact hm

theorem recordDetour_cal : (recordDetour c b n).cal = n.cal := recordDetour_get (pt := .cal) c b n (by simp)

theorem recordDetour_conv : tget 0 (recordDetour c b n).dtr.conv c = b + 1 := by
  rw [recordDetour, recNote_dtr, raise_dtr]
  exact tget_tset_same 0 n.dtr.conv c (b + 1)

theorem recordDetour_event : (recordDetour c b n).evt.flag 22 = true := by
  rw [recordDetour, recNote_flag]
  exact raise_flag 22 _ rfl (by omega)

variable {x : Int} {den len : Nat}

theorem detour_bcOf (h : (n.bcOf b).step ≠ 6) : (detour c b x den len n).bcOf b = { n.bcOf b with step := 6, chan := c } := by
  rw [detour, bcOf_modBc_same, bcOf_of_cal (modUi_get (pt := .cal) _ _ _ (by simp)), bcOf_of_cal recordDetour_cal,
    giveUp_bcOf (fun h6 => h h6.1)]

theorem detour_src : ((detour c b x den len n).uiC c).src = 2 := by
  rw [detour, uiC_of_get (modBc_get _ _ _ (by simp)), uiC_modUi_same]

theorem detour_conv : tget 0 (detour c b x den len n).dtr.conv c = b + 1 := by
  have hd (f : Bc → Bc) (g : UiChan → UiChan) (m : Node) : (modBc b f (modUi c g m)).dtr = m.dtr :=
    (modBc_get (pt := .dtr) b f _ (by simp)).trans (modUi_get c g m (by simp))
  rw [detour, hd]
  exact recordDetour_conv

theorem detour_event : (detour c b x den len n).evt.flag 22 = true := by
  rw [detour, modBc_flag, modUi_flag]
  exact recordDetour_event

end

/-! ### A disagreement (R200, R203) -/

section
variable {b c : Nat} {n : Node}

/-- Event 37 and the channel's count; the converter remembers the channel. -/
def disagreed (b : Nat) (n : Node) : Node :=
  raise 37 (setDis (n.bcOf b).chan (min 3 (disOf n (n.bcOf b).chan + 1))
    (setBc b { n.bcOf b with dis := ((n.bcOf b).chan :: (n.bcOf b).dis).take 3 } n))

theorem disagreed_disOf : disOf (disagreed b n) (n.bcOf b).chan = min 3 (disOf n (n.bcOf b).chan + 1) :=
  (disOf_of_cal (raise_cal _ _) _).trans (disOf_setDis_same _)

theorem disagreed_disOf_other (h : c ≠ (n.bcOf b).chan) : disOf (disagreed b n) c = disOf n c :=
  (disOf_of_cal (raise_cal _ _) _).trans (disOf_setDis_other _ h)

theorem disagreed_ui : (disagreed b n).ui = n.ui := raise_ui _ _

theorem disagreed_event : (disagreed b n).evt.flag 37 = true := raise_flag 37 _ rfl (by omega)

/-- With fewer than two disagreements before it, a round's disagreement is judged by the channel's count alone. -/
theorem disagreement_of_short (h : (n.bcOf b).dis.length < 2) :
    disagreement b n = (disagreed b n, if disOf n (n.bcOf b).chan < 2 then 0 else 4) := by
  have hlen : (((n.bcOf b).chan :: (n.bcOf b).dis).take 3).length ≠ 3 := by
    rw [List.length_take, List.length_cons]
    omega
  have hcnt : min 3 (disOf n (n.bcOf b).chan + 1) = 3 ↔ ¬ disOf n (n.bcOf b).chan < 2 := by omega
  unfold disagreement
  simp only [hlen, hcnt, decide_false, Bool.false_and, Bool.false_eq_true, if_false, ite_not]
  split <;> rfl

/-- The third disagreement in a row on another channel takes the counts of all three back. -/
def disTaken (b c1 c2 : Nat) (n : Node) : Node :=
  [(n.bcOf b).chan, c1, c2].foldl (fun m d => setDis d (disOf m d - 1) m) (disagreed b n)

theorem disagreement_of_third {c1 c2 : Nat} (h : (n.bcOf b).dis = [c1, c2]) (h12 : c1 ≠ c2) (h1 : c1 ≠ (n.bcOf b).chan)
    (h2 : c2 ≠ (n.bcOf b).chan) : disagreement b n = (disTaken b c1 c2 n, 6) := by
  unfold disagreement
  simp [h, h12, Ne.symm h1, Ne.symm h2, disTaken, disagreed]

section
variable {c1 c2 : Nat}

theorem disTaken_disOf (h12 : c1 ≠ c2) (h1 : c1 ≠ (n.bcOf b).chan) (h2 : c2 ≠ (n.bcOf b).chan) :
    disOf (disTaken b c1 c2 n) c1 = disOf n c1 - 1 ∧ disOf (disTaken b c1 c2 n) c2 = disOf n c2 - 1 := by
  simp only [disTaken, List.foldl_cons, List.foldl_nil]
  constructor
  · rw [disOf_setDis_other _ h12, disOf_setDis_same, disOf_setDis_other _ h1, disagreed_disOf_other h1]
  · rw [disOf_setDis_same, disOf_setDis_other _ (Ne.symm h12), disOf_setDis_other _ h2, disagreed_disOf_other h2]

end

/-! ### A converter that leaves the pool (R203) -/

theorem bcFail_bcOf : (bcFail b n).bcOf b = { n.bcOf b with step := 7, chan := 0xFF, preroll := false } :=
  (raise_bcOf _ _ _).trans (bcOf_modBc_same _)

theorem bcFail_disOf (c : Nat) : disOf (bcFail b n) c = disOf n c := disOf_of_cal (raise_cal _ _) c

theorem bcFail_event : (bcFail b n).evt.flag 22 = true := raise_flag 22 _ rfl (by omega)

theorem inPool_of_failed {m : Node} (h : (m.bcOf b).step = 7) : m.inPool b = false := by
  rw [Node.inPool, h]
  rfl

end

end Sys2Proof.Machine
end

section
/-! SUPPORT. The steps of a bypass round, one equation per outcome (R192 to R203). -/

namespace Sys2Proof.Machine
open Sys2Proof

section
variable {b t : Nat} {n : Node}

/-! ### The start (R192, R193) -/

/-- A round may start (R192, R193). -/
def roundDue (n : Node) (b t : Nat) : Bool :=
  (n.bcOf b).step == 0 && n.isRun 3 && !n.suspended && n.inPool b
    && (!(n.bcOf b).started || decide ((n.bcOf b).t0 + n.cal.rndPeriod * secPer ≤ t))

/-- The converter at the start of a round on channel `c`. -/
def roundOpened (n : Node) (b c t : Nat) : Bc :=
  { n.bcOf b with step := 2, chan := c, t0 := t, started := true, tol := n.cal.rndTol, novl := n.cal.rndNovl,
                  per := n.cal.rndPeriod, s := uiSettle (n.uiC c).rate (n.uiC c).line, p := uiPeriod (n.uiC c).rate, sum1 := 0,
                  cnt1 := 0, sum2 := 0, cnt2 := 0, refs := false, verdict := .none, pos := some c }

theorem roundStart_of_due {c : Nat} (hd : roundDue n b t = true) (hc : n.nextChan b = some c)
    (hb : (t - (n.uiC c).grid) % uiPeriod (n.uiC c).rate = 0) : roundStart b t n = setBc b (roundOpened n b c t) n := by
  unfold roundStart
  rw [if_pos (by exact hd), hc]
  dsimp only
  rw [hb]
  rfl

theorem roundStart_of_not_due (h : roundDue n b t = false ∨ n.nextChan b = none
    ∨ ∃ c, n.nextChan b = some c ∧ (t - (n.uiC c).grid) % uiPeriod (n.uiC c).rate ≠ 0) : roundStart b t n = n := by
  by_cases hd : roundDue n b t = true
  · unfold roundStart
    rw [if_pos (by exact hd)]
    rcases h with h | h | ⟨c, hc, hb⟩
    · exact absurd (h.symm.trans hd) (by decide)
    · rw [h]
    · rw [hc]
      exact if_pos (by simpa using hb)
  · exact if_neg hd

/-! ### The take-over (R195, R199) -/

/-- The loop resistance that the pre-roll of a TC channel found. -/
def loopNoted (b loopR : Nat) (n : Node) : Node :=
  if uiMode (n.recOf 1 (n.bcOf b).chan) = 3 then modUi (n.bcOf b).chan (fun u => { u with loopR := loopR }) n else n

theorem loopNoted_cal (loopR : Nat) : (loopNoted b loopR n).cal = n.cal := by
  unfold loopNoted
  split <;> rfl

theorem loopNoted_src (loopR c : Nat) : ((loopNoted b loopR n).uiC c).src = (n.uiC c).src := by
  unfold loopNoted
  split
  · by_cases h : c = (n.bcOf b).chan
    · rw [h, uiC_modUi_same]
    · rw [uiC_modUi_other _ h]
  · rfl

/-- The mean of an overlap in ppm of SPAN, as VALUE shows it (R215). -/
def roundPpm (n : Node) (b : Nat) (sum : Int) : Int :=
  ppmOfSpan sum (n.bcOf b).novl (uiSpan4 (n.recOf 1 (n.bcOf b).chan))

/-- Overlap 1 is complete. -/
def takeoverDue (n : Node) (b : Nat) : Bool := (n.bcOf b).step == 3 && (n.bcOf b).cnt1 == (n.bcOf b).novl

/-- |A| ≤ 8 × TOL. -/
def takeoverFits (n : Node) (b : Nat) : Bool :=
  withinTol (n.bcOf b).sum1 (n.bcOf b).novl 8 (n.bcOf b).tol (uiSpan4 (n.recOf 1 (n.bcOf b).chan))

variable {loopR : Nat}

theorem takeover_of_fits (hd : takeoverDue n b = true) (hf : takeoverFits n b = true) : takeover b loopR t n
    = modUi (n.bcOf b).chan
        (fun u => { u with src := 1, rampNum := (n.bcOf b).sum1, rampDen := (n.bcOf b).novl, rampN := 0, rampJ := 0 })
        (setBc b { n.bcOf b with step := 4 } (loopNoted b loopR n)) :=
  (if_pos hd).trans (if_pos hf)

theorem takeover_of_not_due (hd : takeoverDue n b = false) : takeover b loopR t n = n :=
  if_neg (show ¬ takeoverDue n b = true by rw [hd]; exact Bool.false_ne_true)

/-- A refused take-over is a disagreement; what follows depends on what stood before it. -/
theorem takeover_of_refused (hd : takeoverDue n b = true) (hf : takeoverFits n b = false) {m : Node} {what : Nat}
    (hw : disagreement b (loopNoted b loopR n) = (m, what)) : takeover b loopR t n =
      (if what = 6 then bcFail b (roundEnd b (if what = 0 then 1 else what) (some (roundPpm n b (n.bcOf b).sum1)) t m)
      else if what = 4 then detour (n.bcOf b).chan b (n.bcOf b).sum1 (n.bcOf b).novl (n.bcOf b).novl
        (roundEnd b (if what = 0 then 1 else what) (some (roundPpm n b (n.bcOf b).sum1)) t m)
      else roundEnd b (if what = 0 then 1 else what) (some (roundPpm n b (n.bcOf b).sum1)) t m) := by
  obtain ⟨hs, hc⟩ : (n.bcOf b).step = 3 ∧ (n.bcOf b).cnt1 = (n.bcOf b).novl := by simpa [takeoverDue] using hd
  unfold takeoverFits at hf
  unfold loopNoted at hw
  unfold takeover
  simp only [hs, hc, hf, hw, beq_self_eq_true, Bool.and_self, if_true, Bool.false_eq_true, if_false]
  rfl

section
variable (hd : takeoverDue n b = true) (hf : takeoverFits n b = false)
include hd hf

theorem takeover_refused (hs : (n.bcOf b).dis.length < 2) (hc : disOf n (n.bcOf b).chan < 2) : takeover b loopR t n
    = roundEnd b 1 (some (roundPpm n b (n.bcOf b).sum1)) t (disagreed b (loopNoted b loopR n)) := by
  have hcal : (loopNoted b loopR n).cal = n.cal := loopNoted_cal loopR
  have hw : disagreement b (loopNoted b loopR n) = (disagreed b (loopNoted b loopR n), 0) := by
    rw [disagreement_of_short (by rw [bcOf_of_cal hcal]; exact hs), bcOf_of_cal hcal, disOf_of_cal hcal, if_pos hc]
  rw [takeover_of_refused hd hf hw, if_neg (by decide), if_neg (by decide), if_pos rfl]

theorem takeover_detours (hs : (n.bcOf b).dis.length < 2) (hc : 2 ≤ disOf n (n.bcOf b).chan) : takeover b loopR t n
    = detour (n.bcOf b).chan b (n.bcOf b).sum1 (n.bcOf b).novl (n.bcOf b).novl
        (roundEnd b 4 (some (roundPpm n b (n.bcOf b).sum1)) t (disagreed b (loopNoted b loopR n))) := by
  have hcal : (loopNoted b loopR n).cal = n.cal := loopNoted_cal loopR
  have hw : disagreement b (loopNoted b loopR n) = (disagreed b (loopNoted b loopR n), 4) := by
    rw [disagreement_of_short (by rw [bcOf_of_cal hcal]; exact hs), bcOf_of_cal hcal, disOf_of_cal hcal,
      if_neg (Nat.not_lt.mpr hc)]
  rw [takeover_of_refused hd hf hw, if_neg (by decide), if_pos rfl, if_neg (by decide)]

theorem takeover_fails {c1 c2 : Nat} (h : (n.bcOf b).dis = [c1, c2]) (h12 : c1 ≠ c2) (h1 : c1 ≠ (n.bcOf b).chan)
    (h2 : c2 ≠ (n.bcOf b).chan) : takeover b loopR t n
      = bcFail b (roundEnd b 6 (some (roundPpm n b (n.bcOf b).sum1)) t (disTaken b c1 c2 (loopNoted b loopR n))) := by
  have hcal : (loopNoted b loopR n).bcOf b = n.bcOf b := bcOf_of_cal (loopNoted_cal loopR) b
  have hw : disagreement b (loopNoted b loopR n) = (disTaken b c1 c2 (loopNoted b loopR n), 6) :=
    disagreement_of_third (by rw [hcal, h]) h12 (by rw [hcal]; exact h1) (by rw [hcal]; exact h2)
  rw [takeover_of_refused hd hf hw, if_pos rfl, if_neg (by decide)]

end

/-! ### The references (R196) -/

section
variable {m : RefMeas}

theorem referencesDone_of_good (hs : (n.bcOf b).step = 4) (hr : (n.bcOf b).refs = false) (hm : refsOk m = true) :
    referencesDone b m t n = setBc b { n.bcOf b with refs := true, newGain := m.gain, newOffs := m.offs } n := by
  simp [referencesDone, hs, hr, hm]

theorem referencesDone_of_bad (hs : (n.bcOf b).step = 4) (hr : (n.bcOf b).refs = false) (hm : refsOk m = false) :
    referencesDone b m t n = detour (n.bcOf b).chan b (n.bcOf b).sum1 (n.bcOf b).novl (n.bcOf b).novl (roundEnd b 3 none t n) := by
  simp [referencesDone, hs, hr, hm]

theorem referencesDone_of_not_due (h : (n.bcOf b).step ≠ 4 ∨ (n.bcOf b).refs = true) : referencesDone b m t n = n := by
  rcases h with h | h <;> simp [referencesDone, h]

end

/-! ### The cross-check (R197) -/

/-- Overlap 2 is complete and not judged yet. -/
def crossDue (n : Node) (b : Nat) : Bool :=
  (n.bcOf b).step == 5 && (n.bcOf b).cnt2 == (n.bcOf b).novl && (n.bcOf b).verdict == .none

/-- |M2| ≤ TOL. -/
def crossFits (n : Node) (b : Nat) : Bool :=
  withinTol (n.bcOf b).sum2 (n.bcOf b).novl 1 (n.bcOf b).tol (uiSpan4 (n.recOf 1 (n.bcOf b).chan))

theorem crossCheck_of_fits (hd : crossDue n b = true) (hf : crossFits n b = true) : crossCheck b t n
    = setDis (n.bcOf b).chan 0 (setBc b { n.bcOf b with verdict := .agree, dis := [] } n) :=
  (if_pos hd).trans (if_pos hf)

theorem crossCheck_of_not_due (hd : crossDue n b = false) : crossCheck b t n = n :=
  if_neg (show ¬ crossDue n b = true by rw [hd]; exact Bool.false_ne_true)

theorem crossCheck_disagrees (hd : crossDue n b = true) (hf : crossFits n b = false) (hs : (n.bcOf b).dis.length < 2)
    (hc : disOf n (n.bcOf b).chan < 2) : crossCheck b t n
      = modBc b (fun k => { k with verdict := .disagree, lastChan := (n.bcOf b).chan, outcome := 2,
                                   lastScan := (disagreed b n).scan.toNat % 65536 }) (disagreed b n) := by
  refine (if_pos hd).trans ((if_neg (show ¬ crossFits n b = true by rw [hf]; exact Bool.false_ne_true)).trans ?_)
  rw [disagreement_of_short hs, if_pos hc]
  rfl

/-! ### The handback (R194, R197) -/

/-- The own converter with the calibration that a round found, its correction to be ramped out. -/
def handedBack (n : Node) (b : Nat) (u : UiChan) : UiChan :=
  { u with src := if tget 0 n.dtr.conv (n.bcOf b).chan = 0 then 0 else 2, gain := (n.bcOf b).newGain, offs := (n.bcOf b).newOffs,
           rampNum := (n.bcOf b).sum1 - (n.bcOf b).sum2, rampDen := (n.bcOf b).novl, rampN := (n.bcOf b).novl, rampJ := 0 }

theorem handback_of_agree (hs : (n.bcOf b).step = 5) (hv : (n.bcOf b).verdict = .agree) : handback b t n
    = roundEnd b 0 (some (roundPpm n b (n.bcOf b).sum2)) t (modUi (n.bcOf b).chan (handedBack n b) n) := by
  simp only [handback, hs, hv, bne_self_eq_false, Bool.false_eq_true, if_false]
  rfl

theorem handback_of_disagree (hs : (n.bcOf b).step = 5) (hv : (n.bcOf b).verdict = .disagree) : handback b t n
    = roundEnd b 2 (some (roundPpm n b (n.bcOf b).sum2)) t (ownAgain (n.bcOf b).chan n) := by
  simp only [handback, hs, hv, bne_self_eq_false, Bool.false_eq_true, if_false]
  rfl

theorem handback_of_not_due (h : (n.bcOf b).step ≠ 5 ∨ (n.bcOf b).verdict = .none) : handback b t n = n := by
  rcases h with h | h
  · simp [handback, h]
  · simp only [handback, h]
    split <;> rfl

end

end Sys2Proof.Machine
end

section
/-! SUPPORT. Converters that fail: abandoned rounds, the converter that takes over, the channel left without one (R203 to R206). -/

namespace Sys2Proof.Machine
open Sys2Proof

section
variable {b c d t : Nat} {n : Node}

/-! ### Rounds abandoned (R206) -/

/-- The converter runs no round. -/
def outOfRound (k : Bc) : Prop := k.step < 2 ∨ 5 < k.step

theorem roundAbandon_of_out (h : outOfRound (n.bcOf b)) : roundAbandon b n = n := by
  have hno : ¬(2 ≤ (n.bcOf b).step ∧ (n.bcOf b).step ≤ 5) := by
    rcases h with h | h <;> omega
  unfold roundAbandon
  dsimp only
  rw [if_neg (by simpa using hno)]

theorem roundAbandon_bcOf_other (h : d ≠ b) : (roundAbandon b n).bcOf d = n.bcOf d := by
  unfold roundAbandon
  dsimp only
  split
  · rw [raise_bcOf, complete_bcOf, bcOf_setBc_other _ h]
    rfl
  · rfl

theorem roundsOf_of_out (h : ∀ b < 4, (n.bcOf b).chan = c → outOfRound (n.bcOf b)) : roundsOf c n = n := by
  refine foldl_eq_self fun b hb => ?_
  split
  next hc => exact roundAbandon_of_out (h b (List.mem_range.mp hb) (by simpa using hc))
  next => rfl

/-! ### The pool (R190, R191) -/

theorem server_spec {g : Nat} (h : n.server g = some b) : b < 4 ∧ n.inPool b = true := by
  obtain ⟨i, _, rfl⟩ := List.mem_map.mp (List.mem_of_find?_eq_some h)
  exact ⟨Nat.mod_lt _ (by decide), List.find?_some h⟩

/-! ### The converter that takes a failed one's place (R204, R205) -/

/-- A round of the taking converter is abandoned, its channel's filter restarted. -/
def freed (b t : Nat) (n : Node) : Node :=
  if 2 ≤ (n.bcOf b).step ∧ (n.bcOf b).step ≤ 5 then
    modUi (n.bcOf b).chan (fun u => uiRestart t { u with filtRestart := true }) (roundAbandon b n)
  else roundAbandon b n

theorem freed_bcOf_other (h : d ≠ b) : (freed b t n).bcOf d = n.bcOf d := by
  unfold freed
  split
  · exact roundAbandon_bcOf_other h
  · exact roundAbandon_bcOf_other h

theorem freed_uiC (h : (n.bcOf b).chan = c → outOfRound (n.bcOf b)) : (freed b t n).uiC c = n.uiC c := by
  unfold freed
  split
  next hr =>
    have hc : c ≠ (n.bcOf b).chan := by
      intro hc
      rcases h hc.symm with h | h <;> omega
    rw [uiC_modUi_other _ hc]
    exact roundAbandon_others _ _ rfl c hc
  next hr =>
    rw [roundAbandon_of_out (by unfold outOfRound; omega)]

theorem freed_dtr : (freed b t n).dtr = n.dtr := by
  have h : (roundAbandon b n).dtr = n.dtr := roundAbandon_get (pt := .dtr) b n (by simp)
  unfold freed
  split
  · exact h
  · exact h

/-- The channel while its converter pre-rolls: it settles, without a correction. -/
def prerolling (t : Nat) (u : UiChan) : UiChan :=
  { u with settle := max u.settle (t + uiSettle u.rate u.line), prevX := none, susp := 0, rampN := 0, rampJ := 0, rampNum := 0 }

/-- The channel's new converter pre-rolls. -/
def prerolled (c b t : Nat) (n : Node) : Node :=
  modUi c (prerolling t) (modBc b (fun k => { k with step := 6, chan := c, preroll := true }) (freed b t n))

theorem prerolled_uiC (h : (n.bcOf b).chan = c → outOfRound (n.bcOf b)) : (prerolled c b t n).uiC c = prerolling t (n.uiC c) := by
  rw [prerolled, uiC_modUi_same, uiC_of_get (modBc_get _ _ _ (by simp)), freed_uiC h]

theorem prerolled_bcOf : (prerolled c b t n).bcOf b = { (freed b t n).bcOf b with step := 6, chan := c, preroll := true } := by
  rw [prerolled, bcOf_of_cal (modUi_get (pt := .cal) _ _ _ (by simp)), bcOf_modBc_same]

theorem prerolled_bcOf_other (h : d ≠ b) : (prerolled c b t n).bcOf d = n.bcOf d := by
  rw [prerolled, bcOf_of_cal (modUi_get (pt := .cal) _ _ _ (by simp)), modBc, bcOf_setBc_other _ h, freed_bcOf_other h]

theorem prerolled_dtr : (prerolled c b t n).dtr = n.dtr := by
  have h : (prerolled c b t n).dtr = (freed b t n).dtr := (modUi_get (pt := .dtr) c _ _ (by simp)).trans (modBc_get b _ _ (by simp))
  rw [h, freed_dtr]

theorem takeFailed_of_server (h : (giveUp c n).server (c / 16) = some b) :
    takeFailed c false t n = prerolled c b t (giveUp c n) := by
  unfold takeFailed
  dsimp only
  rw [h]
  rfl

theorem takeFailed_of_empty (h : (giveUp c n).server (c / 16) = none) (i : Bool) : takeFailed c i t n = uiFail c (giveUp c n) := by
  unfold takeFailed
  dsimp only
  rw [h]

theorem uiFail_bcOf : (uiFail c n).bcOf d = n.bcOf d := bcOf_of_cal (uiFail_get (pt := .cal) c n (by simp)) d

theorem uiFail_uiC : (uiFail c n).uiC c = { uiHalt (n.uiC c) with failed := true, src := 3 } := by
  change (modUi c (fun u => { uiHalt u with failed := true, src := 3 }) n).uiC c = _
  rw [uiC_modUi_same]

theorem uiFail_chanFail : (uiFail c n).dev.chanFail.contains (256 + c) = true := by
  unfold uiFail
  dsimp only
  split
  next h => exact h
  next => simp

/-- A failed converter stays failed: the pool does not offer it. -/
theorem takeFailed_bcOf_failed (h : (n.bcOf d).step = 7) : (takeFailed c false t n).bcOf d = n.bcOf d := by
  have hg : (giveUp c n).bcOf d = n.bcOf d := giveUp_bcOf (fun h6 => by omega)
  cases hsv : (giveUp c n).server (c / 16) with
  | none =>
    rw [takeFailed_of_empty hsv, uiFail_bcOf, hg]
  | some b =>
    have hdb : d ≠ b := by
      rintro rfl
      have hp := (server_spec hsv).2
      rw [inPool_of_failed (by rw [hg, h])] at hp
      exact Bool.false_ne_true hp
    rw [takeFailed_of_server hsv, prerolled_bcOf_other hdb, hg]

/-! ### Self-calibration (R193, R204) -/

section
variable {m : RefMeas}

theorem bcSelfCal_of_good (h : (n.bcOf b).step = 1 ∨ (n.bcOf b).step = 6) (hm : refsOk m = true) : bcSelfCal b m t n
    = setBc b { n.bcOf b with step := if (n.bcOf b).step = 1 then 0 else 6, gain := m.gain, offs := m.offs } n := by
  rcases h with h | h <;> simp [bcSelfCal, h, hm]

theorem bcSelfCal_of_bad (h : (n.bcOf b).step = 1) (hm : refsOk m = false) : bcSelfCal b m t n = bcFail b n := by
  simp [bcSelfCal, h, hm]

theorem bcSelfCal_of_bound_bad (h : (n.bcOf b).step = 6) (hm : refsOk m = false) :
    bcSelfCal b m t n = takeFailed (n.bcOf b).chan false t (bcFail b (roundsOf (n.bcOf b).chan n)) := by
  simp [bcSelfCal, h, hm]

theorem bcSelfCal_of_not_due (h1 : (n.bcOf b).step ≠ 1) (h6 : (n.bcOf b).step ≠ 6) : bcSelfCal b m t n = n := by
  simp [bcSelfCal, h1, h6]

end

/-! ### CONVERTER_FAULT (R204) -/

theorem converterFault_of_due (hi : n.isRun 3 = true) (hc : n.chOn 1 c = true) (hf : (n.uiC c).failed = false) :
    converterFault c t n = takeFailed c false t (roundsOf c n) := by
  simp [converterFault, hi, hc, hf]

theorem converterFault_of_not_due (h : n.isRun 3 = false ∨ n.chOn 1 c = false ∨ (n.uiC c).failed = true) :
    converterFault c t n = n := by
  rcases h with h | h | h <;> simp [converterFault, h]

end

end Sys2Proof.Machine
end

section
/-! SUPPORT. The commands of bypass rounds and failed converters (R192 to R205). -/

namespace Sys2Proof.Machine
open Sys2Proof

theorem settle_disOf (n : Node) (c : Nat) : disOf (settle n) c = disOf n c := disOf_of_cal (settle_cal n) c

theorem settle_inPool (n : Node) (b : Nat) : (settle n).inPool b = n.inPool b := by rw [Node.inPool, settle_bcOf, ← Node.inPool]

section
variable {s : State} {b t : Nat}

theorem roundDue_of (hi : s.node.isRun 3 = true) (hs : s.node.suspended = false) (hp : s.node.inPool b = true)
    (h0 : (s.node.bcOf b).step = 0)
    (ht : (s.node.bcOf b).started = true → (s.node.bcOf b).t0 + s.node.cal.rndPeriod * 250000000 ≤ t) :
    roundDue (s.node.advance t) b t = true := by
  change roundDue s.node b t = true
  cases hst : (s.node.bcOf b).started with
  | true => simp [roundDue, hi, hs, hp, h0, hst, secPer, ht hst]
  | false => simp [roundDue, hi, hs, hp, h0, hst]

theorem roundDue_false_of (h : (s.node.bcOf b).step ≠ 0 ∨ s.node.isRun 3 = false ∨ s.node.suspended = true
    ∨ ((s.node.bcOf b).started = true ∧ t < (s.node.bcOf b).t0 + s.node.cal.rndPeriod * 250000000)) :
    roundDue (s.node.advance t) b t = false := by
  change roundDue s.node b t = false
  rcases h with h | h | h | ⟨hst, ht⟩
  · simp [roundDue, h]
  · simp [roundDue, h]
  · simp [roundDue, h]
  · simp [roundDue, hst, secPer, Nat.not_le.mpr ht]

theorem takeoverDue_of (hs : (s.node.bcOf b).step = 3) (hc : (s.node.bcOf b).cnt1 = (s.node.bcOf b).novl) :
    takeoverDue (s.node.advance t) b = true := by
  change takeoverDue s.node b = true
  simp [takeoverDue, hs, hc]

theorem takeoverFits_false_of (h : 8 * (s.node.bcOf b).tol * uiSpan4 (s.node.recOf 1 (s.node.bcOf b).chan) * (s.node.bcOf b).novl
    < (s.node.bcOf b).sum1.natAbs * 4000000) : takeoverFits (s.node.advance t) b = false :=
  decide_eq_false (Nat.not_le.mpr h)

theorem crossDue_of (hs : (s.node.bcOf b).step = 5) (hc : (s.node.bcOf b).cnt2 = (s.node.bcOf b).novl)
    (hv : (s.node.bcOf b).verdict = .none) : crossDue (s.node.advance t) b = true := by
  change crossDue s.node b = true
  simp [crossDue, hs, hc, hv]

theorem refsOk_false_of_offs {m : RefMeas} (h : m.offsIn = false) : refsOk m = false := by simp [refsOk, h]

/-- A command that changes nothing of the rounds. -/
theorem ends_unchanged {f : Node → Node} (hu : s.node.up = true) (h : f (s.node.advance t) = s.node.advance t) :
    Ends (onNode (plantAt t f) s) (fun u => u.node.cal = s.node.cal ∧ u.node.ui = s.node.ui) := by
  refine ends_plantAt hu t f ?_
  rw [h, settle_cal, settle_ui]
  exact ⟨rfl, rfl⟩

end

/-- Settles O28: each step of a round is one equation per outcome (`takeover_of_fits`, `takeover_refused`, `crossCheck_disagrees`,
`handback_of_agree`, …), a failed converter's channel goes to the first converter of the pool (`takeFailed_of_server`). -/
theorem bypassRounds : Obligations.BypassRounds := by
  and_intros
  -- a round starts
  · intro b c t s hu hi hsus hp h0 ht hc hb
    refine ends_plantAt hu t _ ?_
    dsimp only
    rw [roundStart_of_due (n := s.node.advance t) (roundDue_of hi hsus hp h0 ht) hc hb, settle_bcOf, settle_ui, bcOf_setBc_same]
    exact ⟨rfl, rfl, rfl, rfl, rfl, rfl, rfl, rfl, rfl⟩
  -- the bypass converter takes over
  · intro b loopR t s hu hs hc hw
    refine ends_plantAt hu t _ ?_
    dsimp only
    rw [takeover_of_fits (n := s.node.advance t) (takeoverDue_of hs hc) (decide_eq_true hw), settle_bcOf, settle_uiC, advance_bcOf,
      uiC_modUi_same]
    exact ⟨congrArg Bc.step (bcOf_setBc_same b.val _ _), rfl, rfl, rfl⟩
  -- good references are kept
  · intro b m t s hu hs hr hlo hhi hin
    refine ends_plantAt hu t _ ?_
    dsimp only
    rw [referencesDone_of_good (n := s.node.advance t) hs hr (by simp [refsOk, hlo, hhi, hin]), settle_bcOf, settle_ui,
      bcOf_setBc_same]
    exact ⟨rfl, rfl⟩
  -- the cross-check passes
  · intro b t s hu hs hc hv hw
    refine ends_plantAt hu t _ ?_
    dsimp only
    rw [crossCheck_of_fits (n := s.node.advance t) (crossDue_of hs hc hv) (decide_eq_true (by rwa [Nat.one_mul])), settle_bcOf,
      settle_disOf, settle_ui]
    exact ⟨congrArg Bc.verdict (bcOf_setBc_same b.val _ _), disOf_setDis_same _, rfl⟩
  -- the own converter publishes again with the new calibration
  · intro b t s hu hs hv hd
    refine ends_plantAt hu t _ ?_
    dsimp only
    rw [handback_of_agree (n := s.node.advance t) hs hv, settle_uiC, settle_bcOf, roundEnd_uiC, roundEnd_bcOf, advance_bcOf,
      uiC_modUi_same]
    refine ⟨if_pos hd, rfl, rfl, rfl, rfl, rfl, rfl, rfl, settle_flag _ 36 roundEnd_event, ?_⟩
    exact delivers_of_roundEnd b.isLt rfl
  -- no round starts
  · intro b t s hu h
    refine ends_unchanged hu (roundStart_of_not_due ?_)
    rcases h with h | h | h | h | h | h
    · exact .inl (roundDue_false_of (.inl h))
    · exact .inl (roundDue_false_of (.inr (.inl h)))
    · exact .inl (roundDue_false_of (.inr (.inr (.inl h))))
    · exact .inr (.inl h)
    · exact .inl (roundDue_false_of (.inr (.inr (.inr h))))
    · exact .inr (.inr h)
  -- overlap 1 is not complete
  · intro b loopR t s hu h
    refine ends_unchanged hu (takeover_of_not_due ?_)
    change takeoverDue s.node b.val = false
    rcases h with h | h <;> simp [takeoverDue, h]
  -- no references are measured
  · exact fun b m t s hu h => ends_unchanged hu (referencesDone_of_not_due h)
  -- nothing to cross-check
  · intro b t s hu h
    refine ends_unchanged hu (crossCheck_of_not_due ?_)
    change crossDue s.node b.val = false
    rcases h with h | h | h <;> simp [crossDue, h]
  -- nothing to hand back
  · exact fun b t s hu h => ends_unchanged hu (handback_of_not_due h)
  -- a refused take-over
  · intro b loopR t s hu hs hc hw h0 hdis
    refine ends_plantAt hu t _ ?_
    dsimp only
    have hcal : (loopNoted b.val loopR (s.node.advance t)).cal = s.node.cal := loopNoted_cal loopR
    have hcnt := disagreed_disOf (b := b.val) (n := loopNoted b.val loopR (s.node.advance t))
    rw [bcOf_of_cal hcal, disOf_of_cal hcal, h0] at hcnt
    rw [takeover_refused (n := s.node.advance t) (takeoverDue_of hs hc) (takeoverFits_false_of hw) hdis
      (show disOf s.node (s.node.bcOf b.val).chan < 2 by rw [h0]; decide), settle_bcOf, settle_uiC, settle_disOf, roundEnd_bcOf,
      roundEnd_uiC, roundEnd_disOf, hcnt]
    refine ⟨rfl, rfl, ?_, rfl, settle_flag _ 36 roundEnd_event, settle_flag _ 37 (roundEnd_flag _ _ _ _ _ 37 disagreed_event)⟩
    exact (congrArg UiChan.src (uiC_of_get disagreed_ui _)).trans (loopNoted_src loopR _)
  -- references out of limits
  · intro b m t s hu hs hr hin
    refine ends_plantAt hu t _ ?_
    dsimp only
    rw [referencesDone_of_bad (n := s.node.advance t) hs hr (refsOk_false_of_offs hin), settle_bcOf, settle_uiC, settle_dtr,
      detour_bcOf roundEnd_unbound, roundEnd_bcOf]
    exact ⟨rfl, rfl, rfl, detour_src, detour_conv, settle_flag _ 22 detour_event,
      settle_flag _ 36 (detour_flag _ _ _ _ _ _ 36 roundEnd_event)⟩
  -- self-calibration of a converter of the pool
  · intro b m t s hu hs
    refine ⟨fun hm => ?_, fun hm => ?_⟩
    · refine ends_plantAt hu t _ ?_
      dsimp only
      rw [bcSelfCal_of_good (n := s.node.advance t) (.inl hs) hm, settle_bcOf, bcOf_setBc_same, advance_bcOf, if_pos hs]
    · refine ends_plantAt hu t _ ?_
      dsimp only
      have h7 : ((bcFail b.val (s.node.advance t)).bcOf b.val).step = 7 := by rw [bcFail_bcOf]
      rw [bcSelfCal_of_bad (n := s.node.advance t) hs hm, settle_bcOf, settle_inPool]
      exact ⟨h7, inPool_of_failed h7, settle_flag _ 22 bcFail_event⟩
  -- a converter fault
  · intro c t s hu hi hc hf hout h6
    have hrounds : roundsOf c.val (s.node.advance t) = s.node.advance t := roundsOf_of_out hout
    have hgive : giveUp c.val (s.node.advance t) = s.node.advance t := giveUp_of_none h6
    refine ⟨fun b hb => ends_plantAt hu t _ ?_, fun hnone => ends_plantAt hu t _ ?_⟩
    · dsimp only
      rw [converterFault_of_due (n := s.node.advance t) hi hc hf, hrounds, takeFailed_of_server (by rw [hgive]; exact hb), hgive,
        settle_uiC, settle_bcOf, settle_dtr, prerolled_uiC (n := s.node.advance t) (hout b (server_spec hb).1), prerolled_bcOf,
        prerolled_dtr]
      exact ⟨hf, rfl, Nat.le_max_right _ _, rfl, rfl, rfl, rfl⟩
    · dsimp only
      rw [converterFault_of_due (n := s.node.advance t) hi hc hf, hrounds, takeFailed_of_empty (by rw [hgive]; exact hnone), hgive,
        settle_uiC, settle_dev_chanFail, uiFail_uiC]
      exact ⟨rfl, rfl, rfl, uiFail_chanFail⟩
  -- a cross-check that fails
  · intro b t s hu hs hc hv hw h0 hdis
    refine ends_plantAt hu t _ ?_
    dsimp only
    have hcnt := disagreed_disOf (b := b.val) (n := s.node.advance t)
    rw [show disOf (s.node.advance t) ((s.node.advance t).bcOf b.val).chan = 0 from h0] at hcnt
    rw [crossCheck_disagrees (n := s.node.advance t) (crossDue_of hs hc hv)
      (decide_eq_false (Nat.not_le.mpr (by rwa [Nat.one_mul]))) hdis
      (show disOf s.node (s.node.bcOf b.val).chan < 2 by rw [h0]; decide), settle_bcOf, settle_disOf, settle_ui, bcOf_modBc_same,
      disOf_modBc, ui_modBc]
    refine ⟨rfl, rfl, rfl, hcnt, disagreed_ui, settle_flag _ 37 ?_⟩
    rw [modBc_flag]
    exact disagreed_event
  -- handback after a failed cross-check
  · intro b t s hu hs hv hd
    refine ends_plantAt hu t _ ?_
    dsimp only
    rw [handback_of_disagree (n := s.node.advance t) hs hv, settle_uiC, settle_bcOf, roundEnd_uiC, roundEnd_bcOf, advance_bcOf,
      ownAgain_uiC]
    refine ⟨if_pos hd, rfl, rfl, rfl, rfl, rfl, settle_flag _ 36 roundEnd_event, ?_⟩
    exact delivers_of_roundEnd b.isLt rfl
  -- the third disagreement of a channel
  · intro b loopR t s hu hs hc hw h2 hdis
    refine ends_plantAt hu t _ ?_
    dsimp only
    rw [takeover_detours (n := s.node.advance t) (takeoverDue_of hs hc) (takeoverFits_false_of hw) hdis (Nat.le_of_eq h2.symm),
      settle_bcOf, settle_uiC, settle_dtr, detour_bcOf roundEnd_unbound, roundEnd_bcOf]
    exact ⟨rfl, rfl, rfl, detour_src, detour_conv, settle_flag _ 22 detour_event,
      settle_flag _ 37 (detour_flag _ _ _ _ _ _ 37 (roundEnd_flag _ _ _ _ _ 37 disagreed_event))⟩
  -- the third channel in a row disagrees with one converter
  · intro b loopR c1 c2 t s hu hs hc hw hdis h12 h1 h2
    refine ends_plantAt hu t _ ?_
    dsimp only
    have hcal : (loopNoted b.val loopR (s.node.advance t)).cal = s.node.cal := loopNoted_cal loopR
    obtain ⟨hd1, hd2⟩ := disTaken_disOf (b := b.val) (n := loopNoted b.val loopR (s.node.advance t)) h12
      (by rw [bcOf_of_cal hcal]; exact h1) (by rw [bcOf_of_cal hcal]; exact h2)
    rw [disOf_of_cal hcal] at hd1 hd2
    rw [takeover_fails (n := s.node.advance t) (takeoverDue_of hs hc) (takeoverFits_false_of hw) hdis h12 h1 h2, settle_bcOf,
      settle_disOf, settle_disOf, settle_inPool, bcFail_disOf, bcFail_disOf, roundEnd_disOf, roundEnd_disOf, hd1, hd2,
      inPool_of_failed (congrArg Bc.step bcFail_bcOf), bcFail_bcOf, roundEnd_bcOf]
    exact ⟨rfl, rfl, rfl, rfl, rfl, settle_flag _ 22 bcFail_event, settle_flag _ 36 (bcFail_flag _ _ 36 roundEnd_event)⟩
  -- self-calibration of a bound converter
  · intro b m t s hu hs
    refine ⟨fun hm => ?_, fun hm => ?_⟩
    · refine ends_plantAt hu t _ ?_
      dsimp only
      rw [bcSelfCal_of_good (n := s.node.advance t) (.inr hs) hm, settle_bcOf, settle_ui, bcOf_setBc_same, advance_bcOf,
        if_neg (by rw [hs]; decide), ← hs]
      exact ⟨rfl, rfl⟩
    · refine ends_plantAt hu t _ ?_
      dsimp only
      have h7 (m : Node) : ((bcFail b.val m).bcOf b.val).step = 7 := congrArg Bc.step bcFail_bcOf
      rw [bcSelfCal_of_bound_bad (n := s.node.advance t) hs hm, settle_bcOf, settle_inPool,
        inPool_of_failed ((congrArg Bc.step (takeFailed_bcOf_failed (h7 _))).trans (h7 _)), takeFailed_bcOf_failed (h7 _)]
      exact ⟨h7 _, rfl, settle_flag _ 22 (takeFailed_flag _ _ _ _ 22 bcFail_event)⟩
  -- no self-calibration runs
  · exact fun b m t s hu h1 h6 => ends_unchanged hu (bcSelfCal_of_not_due h1 h6)
  -- no converter fails
  · exact fun c t s hu h => ends_unchanged hu (converterFault_of_not_due h)

end Sys2Proof.Machine
end

section
/-! SUPPORT. Charge channels: what a trigger, a conversion, the reset switch and a lost cycle make of a channel (R220 to R229, R239,
R240). -/

namespace Sys2Proof.Machine
open Sys2Proof

section
variable {c t : Nat} {n : Node} {r : Bytes} {u : CaChan} {y : CaCyc}

/-! ### The sample a trigger takes (R220, R239, R240) -/

/-- Range command and trigger: the next sample of cycle `y`. -/
def caSampled (r : Bytes) (y : CaCyc) (u : CaChan) : CaChan :=
  let x := caSwitch r u y.trig y.len u.closed
  caPlace { k := y.trig, rst := x.1.closed, late := false, j := x.2.1 }
    { x.1 with cur := some { y with trig := y.trig + 1, range1 := x.1.range } }

theorem caSwitch_of_no_request (hs : u.settle = 0) (hr : u.req = none) (hw : u.conv = none ∨ u.held = none) (k len : Nat) (b : Bool) :
    caSwitch r u k len b = (u, 0, false) := by
  unfold caSwitch
  rcases hw with hw | hw
  · simp [hw, hs, hr]
  · cases hv : u.conv <;> simp [hw, hs, hr]

/-- Outside a settling window, and without a range command, a trigger takes its sample in the range that stands. -/
theorem caSampled_of_no_request (hs : u.settle = 0) (hr : u.req = none) (hw : u.conv = none ∨ u.held = none) :
    caSampled r y u = caPlace { k := y.trig, rst := u.closed, late := false, j := 0 }
      { u with cur := some { y with trig := y.trig + 1, range1 := u.range } } := by
  unfold caSampled
  rw [caSwitch_of_no_request hs hr hw]

/-- A range command meets the trigger: the range switches, and the sample is the first of a settling window. -/
theorem caSampled_of_request {q : Nat} (hs : u.settle = 0) (hr : u.req = some q) (hd : u.deferred = false) (hv : u.conv = none)
    (hc : u.closed = false) (hl : y.trig + 4 < y.len) :
    caSampled r y u = { u with
      range := q, req := none, settle := 2, qb := u.lastQ, cur := some { y with trig := y.trig + 1, range1 := q },
      conv := some { k := y.trig, rst := false, late := false, j := 1 } } := by
  have hm : caMeetsReset r u y.trig y.len = false := by simp [caMeetsReset, Nat.not_le.mpr hl]
  simp [caSampled, caSwitch, caPlace, hs, hr, hd, hv, hc, hm]

/-! ### Triggers (R220 to R223, R226) -/

/-- The channel's triggers come from its own time base (R221). -/
def caTimed (r : Bytes) : Bool := caMode r == 1 && decide (0 < caStep r)

/-- A trigger of channel `c` has come at `t`. -/
def caDue (n : Node) (c t : Nat) : Bool :=
  n.caOn c && (if caTimed (n.recOf 4 c) then decide ((n.caC c).nextAt ≤ t) else decide (0 < (n.caC c).due))

theorem caTimed_true (hm : caMode r = 1) (hs : 0 < caStep r) : caTimed r = true := by simp [caTimed, hm, hs]

theorem caTimed_false (h : caMode r ≠ 1 ∨ caStep r = 0) : caTimed r = false := by rcases h with h | h <;> simp [caTimed, h]

/-- The trigger no longer waits; the time base names the next one. -/
def caCounted (r : Bytes) (t : Nat) (u : CaChan) : CaChan :=
  { u with due := u.due - 1, nextAt := if caTimed r then t + caStep r * 1000 else u.nextAt }

/-- A trigger that finds no cycle or block with samples to come opens one. -/
def caOpened (c t : Nat) (n : Node) : Node :=
  if (match (n.caC c).cur with | some y => decide (y.len ≤ y.trig) | none => true) then caBegin c t n else n

theorem caOpened_of_running (hc : (n.caC c).cur = some y) (hl : y.trig < y.len) : caOpened c t n = n := by
  simp [caOpened, hc, Nat.not_le.mpr hl]

theorem caOpened_of_none (hc : (n.caC c).cur = none) : caOpened c t n = caBegin c t n := by simp [caOpened, hc]

/-- A block that starts between settling windows and conversions leaves the rest of the channel as its trigger finds it. -/
theorem caBegin_caC (hs : (n.caC c).settle = 0) (hv : (n.caC c).conv = none) :
    ∃ z u, (caBegin c t n).caC c = u ∧ u.cur = some z ∧ z.t0 = t ∧ z.trig = 0 ∧ z.len = caLen (n.recOf 4 c) ∧ z.samples = []
      ∧ u.blocks = (n.caC c).blocks + 1 ∧ u.settle = 0 ∧ u.req = (n.caC c).req ∧ u.conv = none := by
  unfold caBegin
  dsimp only
  rw [raiseIf_caC, raiseIf_caC, caC_setCa_same]
  refine ⟨_, _, rfl, rfl, rfl, rfl, rfl, rfl, rfl, ?_⟩
  simp [caCut, hs, hv]

theorem caTrigger_of_not_due (h : caDue n c t = false) : caTrigger c t n = n :=
  if_pos (show (!caDue n c t) = true by rw [h]; rfl)

/-- A trigger that has come takes the next sample of the cycle that runs, or that it opens. -/
theorem caTrigger_caC (h : caDue n c t = true) (hc : ((caOpened c t n).caC c).cur = some y) :
    (caTrigger c t n).caC c = caSampled (n.recOf 4 c) y (caCounted (n.recOf 4 c) t ((caOpened c t n).caC c)) := by
  have hu : (modCa c (caCounted (n.recOf 4 c) t) (caOpened c t n)).caC c
      = caCounted (n.recOf 4 c) t ((caOpened c t n).caC c) := caC_setCa_same c _ _
  refine (congrArg (fun m => Node.caC m c) (if_neg (show ¬(!caDue n c t) = true by rw [h]; decide))).trans ?_
  dsimp only
  split
  next hnone => exact absurd ((hc.symm.trans (congrArg CaChan.cur hu).symm).trans hnone) (by simp)
  next z hz =>
    obtain rfl : y = z := Option.some.inj ((hc.symm.trans (congrArg CaChan.cur hu).symm).trans hz)
    rw [raiseIf_caC, caC_setCa_same, caSampled, ← hu]
    rfl

end

end Sys2Proof.Machine
end

section
/-! SUPPORT. Charge channels: what a conversion's end, the opening of the reset switch and a lost cycle make of a channel (R220,
R223 to R227). -/

namespace Sys2Proof.Machine
open Sys2Proof

section
variable {c t : Nat} {n : Node} {u : CaChan} {y : CaCyc}

/-! ### The end of a conversion (R219, R220) -/

/-- The check of a closure's reset sample touches the marks of that closure alone (R227). -/
theorem caCheckReset_caC (c : Nat) (n : Node) : ∃ pend bad mark, (caCheckReset c n).caC c
    = { n.caC c with rstPend := pend, rstFault := bad,
                     cur := (n.caC c).cur.map (fun y => { y with rstFault := y.rstFault || mark }) } := by
  unfold caCheckReset
  dsimp only
  split_ifs
  · exact ⟨_, _, _, (raiseIf_caC _ _ _ _).trans (caC_setCa_same c _ _)⟩
  · exact ⟨(n.caC c).rstPend, (n.caC c).rstFault, false, by simp⟩

/-- The sample that conversion `v`, of no settling window, ends with. -/
def caConverted (u : CaChan) (v : CaConv) (q : Int) : CaSample :=
  let fs : Int := caFs u.range
  let qc := clampI (-fs) fs q
  { k := v.k, q := qc, q0 := if v.rst then qc else u.q0, rst := v.rst, interp := false, sat := decide (fs ≤ |q|), late := v.late, j := 0 }

/-- Conversion `v` of the present cycle ends while no trigger is held. -/
def caJoined (u : CaChan) (v : CaConv) (y : CaCyc) (q : Int) : CaChan :=
  let s := caConverted u v q
  { u with conv := none, q0 := s.q0, lastQ := s.q, cur := some { y with samples := s :: y.samples }, sat := u.sat || s.sat }

section
variable {v : CaConv} {q : Int} (hon : n.caOn c = true) (hv : (n.caC c).conv = some v) (hj : v.j = 0) (hp : v.prev = false)
  (hh : (n.caC c).held = none) (hc : (n.caC c).cur = some y)
include hon hv hj hp hh hc

theorem caConvEnd_of_own : caConvEnd c q n = caCheckReset c
    (raiseIf ((caConverted (n.caC c) v q).sat && !y.samples.any (·.sat)) 50 (setCa c (caJoined (n.caC c) v y q) n)) := by
  simp [caConvEnd, hv, hon, hj, hp, hh, hc, caJoined, caConverted, inR, raiseIf]

theorem caStepEnd_caC_of_own : ∃ pend bad mark, (caStepEnd c q n).caC c = { caJoined (n.caC c) v y q with
    rstPend := pend, rstFault := bad,
    cur := some { y with samples := caConverted (n.caC c) v q :: y.samples, rstFault := y.rstFault || mark } } := by
  have hil (b : Bool) (x : Int) (m : Node) : (if b then ilCa c x m else m).caC c = m.caC c := by
    split
    · exact ChanKind.ca.chan_of_get (ilCa_get _ _ _ (by decide)) c
    · rfl
  unfold caStepEnd
  rw [hil, caConvEnd_of_own hon hv hj hp hh hc]
  obtain ⟨pend, bad, mark, h⟩ := caCheckReset_caC c
    (raiseIf ((caConverted (n.caC c) v q).sat && !y.samples.any (·.sat)) 50 (setCa c (caJoined (n.caC c) v y q) n))
  rw [raiseIf_caC, caC_setCa_same] at h
  exact ⟨pend, bad, mark, h⟩

theorem caStepEnd_saturated (hq : (caFs (n.caC c).range : Int) ≤ |q|) (hs : y.samples.any (·.sat) = false) :
    (caStepEnd c q n).evt.flag 50 = true := by
  have hsat : (caConverted (n.caC c) v q).sat = true := decide_eq_true hq
  have hconv : (caConvEnd c q n).evt.flag 50 = true := by
    rw [caConvEnd_of_own hon hv hj hp hh hc, hsat, hs]
    exact caCheckReset_flag c _ 50 (raise_flag 50 _ rfl (by omega))
  unfold caStepEnd
  dsimp only
  split
  · rwa [ilCa_flag]
  · exact hconv

end

/-- Without a conversion there is no end of one. -/
theorem caStepEnd_of_idle {q : Int} (h : n.caOn c = false ∨ (n.caC c).conv = none) : caStepEnd c q n = n := by
  have hconv : caConvEnd c q n = n := by
    unfold caConvEnd
    dsimp only
    rcases h with h | h
    · rw [h]
      split <;> rfl
    · rw [h]
  unfold caStepEnd
  rw [hconv, if_neg]
  rcases h with h | h <;> simp [h]

/-! ### The reset switch (R226, R227) -/

theorem caResetOpen_closed (hc : (n.caC c).closed = true) (ht : (n.caC c).closedAt + caRstTime (n.recOf 4 c) * 250 ≤ t) :
    ((caResetOpen c t n).caC c).closed = false := by
  have hopen : caResetOpen c t n = caCheckReset c (setCa c { n.caC c with closed := false } n) :=
    if_pos (Bool.and_eq_true_iff.mpr ⟨hc, decide_eq_true ht⟩)
  obtain ⟨_, _, _, h⟩ := caCheckReset_caC c (setCa c { n.caC c with closed := false } n)
  rw [hopen, h, caC_setCa_same]

theorem caResetOpen_of_not_due (h : (n.caC c).closed = false ∨ t < (n.caC c).closedAt + caRstTime (n.recOf 4 c) * 250) :
    caResetOpen c t n = n := by
  refine if_neg ?_
  rcases h with h | h
  · simp [h]
  · exact fun ht => absurd (of_decide_eq_true (Bool.and_eq_true_iff.mp ht).2) (Nat.not_le.mpr h)

/-! ### A lost crank cycle (R223, R224) -/

/-- The position interface of a crank-angle channel does not serve. -/
def caUnserved (n : Node) (c : Nat) : Bool :=
  !pfValid n (caPf (n.recOf 4 c)) || (n.pfC (caPf (n.recOf 4 c))).still

/-- A cycle is dropped: the next one waits for an index. -/
def caDropped (u : CaChan) : CaChan :=
  { u with cur := none, conv := none, held := none, settle := 0, seenIdx := false, due := 0, unsettled := [], nextRange := none,
           abandon := satInc 255 u.abandon }

theorem caTimedOut_of_cur (hc : (n.caC c).cur = some y) :
    caTimedOut n c t = decide (y.t0 + caTmo (n.recOf 4 c) * 25000000 ≤ t) := by
  simp [caTimedOut, hc]

theorem caAbandonDue_of_lost (hm : caMode (n.recOf 4 c) = 2) (hc : (n.caC c).cur = some y) (hl : y.trig < y.len)
    (h : caTimedOut n c t = true ∨ caUnserved n c = true) : caAbandonDue c t n = setCa c (caDropped (n.caC c)) n := by
  have habandon : caAbandon c n = setCa c (caDropped (n.caC c)) n := by simp [caAbandon, hc, hm, hl, caDropped]
  refine (if_pos ?_).trans habandon
  rcases h with h | h
  · simp [hc, h]
  · rw [caUnserved] at h
    simp only [hc, hm, Option.isSome_some, beq_self_eq_true, h, Bool.and_self, Bool.or_true]

/-- Outside crank-angle mode, without a cycle, with the cycle's samples all triggered, or in time and served: nothing is lost. -/
theorem caAbandonDue_of_not_lost (h : caMode (n.recOf 4 c) ≠ 2 ∨ (n.caC c).cur = none ∨ ∃ y, (n.caC c).cur = some y
    ∧ (y.len ≤ y.trig ∨ (caTimedOut n c t = false ∧ caUnserved n c = false))) : caAbandonDue c t n = n := by
  have hstays (ha : caAbandon c n = n) : caAbandonDue c t n = n := by
    unfold caAbandonDue
    dsimp only
    rw [ha, ite_self]
  rcases h with h | h | ⟨y, hc, hl | ⟨htime, hserved⟩⟩
  · refine hstays ?_
    unfold caAbandon
    dsimp only
    split <;> simp [h]
  · exact hstays (by simp [caAbandon, h])
  · exact hstays (by simp [caAbandon, hc, Nat.not_lt.mpr hl])
  · rw [caUnserved] at hserved
    refine if_neg ?_
    simp [htime, hserved]

end

end Sys2Proof.Machine
end

section
/-! SUPPORT. The record of a finished cycle or block of a charge channel (R231, R233 to R238). -/

namespace Sys2Proof.Machine
open Sys2Proof

/-! ### Results -/

theorem caCrankResults_length (r tab : Bytes) (peg : Int) (smp : List CaSample) : (caCrankResults r tab peg smp).length = 4 :=
  (apply_ite List.length _ _ _).trans (ite_self _)

theorem caBlockResults_length (r : Bytes) (smp : List CaSample) : (caBlockResults r smp).length = 4 :=
  (apply_ite List.length _ _ _).trans (ite_self _)

theorem caValues_length (l : List (Option Int)) (n : Node) : (caValues l n).1.length = l.length := by
  induction l generalizing n with
  | nil => rfl
  | cons o l ih => cases o <;> simp [caValues, ih]

/-- A result that is not left open is the value delivered. -/
theorem caValues_getElem? {l : List (Option Int)} {i : Nat} {v : Int} (n : Node) (h : l[i]? = some (some v)) :
    (caValues l n).1[i]? = some v := by
  induction l generalizing n i with
  | nil => simp at h
  | cons o l ih => cases i with
    | zero =>
      obtain rfl : o = some v := by simpa using h
      rfl
    | succ i => cases o <;> exact ih _ (by simpa using h)

theorem caValues_jn (l : List (Option Int)) (n : Node) : (caValues l n).2.jn = n.jn := by
  induction l generalizing n with
  | nil => rfl
  | cons o l ih => cases o <;> exact ih _

/-- Results of cycle `y` of channel `c` by its mode (R233, R237). -/
def caResults (n : Node) (c : Nat) (y : CaCyc) : List (Option Int) :=
  let r := n.recOf 4 c
  if caMode r = 2 then caCrankResults r ((n.keyed 0x05 2 (u8 r 14)).getD []) y.peg y.samples.reverse
  else caBlockResults r y.samples.reverse

theorem caResults_length (n : Node) (c : Nat) (y : CaCyc) : (caResults n c y).length = 4 := by
  unfold caResults
  dsimp only
  split
  · exact caCrankResults_length _ _ _ _
  · exact caBlockResults_length _ _

/-- Entries of the record of cycle `y`. -/
def caEntries (n : Node) (c : Nat) (y : CaCyc) : List Entry :=
  let smp := y.samples.reverse
  (caValues (caResults n c y) n).1.zipIdx.map (fun (v, i) => mkEntry (0x3000 + c * 0x40 + 8 * i) v
    (!y.rstFault && !y.pegBad && !smp.any (·.sat)) (smp.any (·.interp)) (smp.any (·.sat)) false false)

theorem caEntries_length (n : Node) (c : Nat) (y : CaCyc) : (caEntries n c y).length = 4 := by
  simp [caEntries, caValues_length, caResults_length]

theorem caEntries_getElem? {n : Node} {c i : Nat} {y : CaCyc} {v : Int} (h : (caResults n c y)[i]? = some (some v)) :
    ((caEntries n c y)[i]?).map (fun e => (e.addr, e.value)) = some (0x3000 + c * 0x40 + 8 * i, (satE32 v).1) := by
  simp [caEntries, caValues_getElem? n h, mkEntry]

/-! ### CA_RECORD_COMPLETE (R231, R238) -/

section
variable {c t : Nat} {n : Node} {u : CaChan} {y : CaCyc} {isPrev : Bool}

theorem caFinished_prev (hp : u.prev = some y) (hv : u.conv = none) : caFinished u = some (y, true) := by simp [caFinished, hp, hv]

theorem caFinished_whole (hp : u.prev = none) (hc : u.cur = some y) (hl : y.len ≤ y.trig) (hv : u.conv = none) (hh : u.held = none) :
    caFinished u = some (y, false) := by
  simp [caFinished, hp, hc, hl, hv, hh]

/-- Finished cycle `y` leaves the channel; a whole one leaves the range of the next (R241). -/
def caRetired (isPrev : Bool) (y : CaCyc) (u : CaChan) : CaChan :=
  if isPrev then { u with prev := none } else { u with cur := none, nextRange := some (caAutoRange u.range y) }

theorem caRecord_of_not_due (h : n.caOn c = false ∨ n.roleOn 2 (c / 8) = false ∨ caFinished (n.caC c) = none) : caRecord c t n = n := by
  unfold caRecord
  dsimp only
  rcases h with h | h | h
  · rw [h]
    rfl
  · rw [if_pos (by simp [h])]
  · rw [h]
    exact ite_self _

section
variable (hon : n.caOn c = true) (hrole : n.roleOn 2 (c / 8) = true) (hf : caFinished (n.caC c) = some (y, isPrev))
include hon hrole hf

/-- A cycle taken with the input switch open yields no record (R217). -/
theorem caRecord_of_open (hr : y.record = false) : caRecord c t n = setCa c (caRetired isPrev y (n.caC c)) n := by
  simp [caRecord, hon, hrole, hf, hr, caRetired]

theorem caRecord_of_finished (hr : y.record = true) : ∃ u, caRecord c t n = raise 48 (setCa c u
      (complete (68 + c) 0 (caEntries n c y) t (caValues (caResults n c y) n).2))
    ∧ u.prev = (caRetired isPrev y (n.caC c)).prev ∧ u.cur = (caRetired isPrev y (n.caC c)).cur
    ∧ u.cycle = (n.caC c).cycle + 1#32 ∧ (y.store = true → u.latest = if y.buf = 2 then 2 else 1) := by
  have hcycle : (caRetired isPrev y (n.caC c)).cycle = (n.caC c).cycle := by
    unfold caRetired
    split <;> rfl
  unfold caRecord
  dsimp only
  rw [if_neg (by simp [hon, hrole]), hf]
  dsimp only
  rw [if_neg (by simp [hr])]
  refine ⟨_, rfl, ?_⟩
  rw [← hcycle]
  dsimp only
  split_ifs <;> simp_all [caRetired]

end

end

/-- A completed record that the rest of its operation leaves in its slot stands at the end of the command. -/
theorem delivers_of_completed {s : State} {k m : Node} {p t : Nat} {es : List Entry} (hp : p < 118 ∨ 126 ≤ p)
    (hk : k.jn = (complete p 0 es t m).jn) (hm : m.jn = s.node.jn) : Delivers s { s with node := settle k } p 0 t es := by
  have hslot := complete_mem_slots p 0 es t m
  rw [← hk, hm] at hslot
  have hstands := settle_slot k _ hslot hp
  unfold Delivers
  dsimp only
  exact hstands

/-- The record of finished cycle `y`: the cycle leaves its channel, is counted, stored and delivered, with event 48. -/
theorem caRecordComplete_ends {s : State} {c : Fin 16} {y : CaCyc} {isPrev : Bool} (t : Nat) (hu : s.node.up = true)
    (hon : s.node.caOn c.val = true) (hrole : s.node.roleOn 2 (c.val / 8) = true)
    (hf : caFinished (s.node.caC c.val) = some (y, isPrev)) (hr : y.record = true) :
    Ends (exec (.caRecordComplete c t) s) (fun u =>
      (u.node.caC c.val).prev = (caRetired isPrev y (s.node.caC c.val)).prev
      ∧ (u.node.caC c.val).cur = (caRetired isPrev y (s.node.caC c.val)).cur
      ∧ (u.node.caC c.val).cycle = (s.node.caC c.val).cycle + 1#32 ∧ u.node.evt.flag 48 = true
      ∧ (y.store = true → (u.node.caC c.val).latest = if y.buf = 2 then 2 else 1)
      ∧ ∃ es, Delivers s u (68 + c.val) 0 t es ∧ es.length = 4
        ∧ ∀ i < 4, ∀ v, (caResults s.node c.val y)[i]? = some (some v) →
          (es[i]?).map (fun e => (e.addr, e.value)) = some (0x3000 + c.val * 0x40 + 8 * i, (satE32 v).1)) := by
  obtain ⟨x, heq, hprev, hcur, hcycle, hlatest⟩ := caRecord_of_finished (t := t) (n := s.node.advance t) hon hrole hf hr
  refine ends_plantAt hu t _ ?_
  dsimp only
  rw [heq, settle_caC, raise_caC, caC_setCa_same]
  refine ⟨hprev, hcur, hcycle, settle_flag _ 48 (raise_flag 48 _ rfl (by omega)), hlatest, caEntries (s.node.advance t) c.val y, ?_,
    caEntries_length _ _ _, fun i _ v hv => caEntries_getElem? hv⟩
  exact delivers_of_completed (m := (caValues (caResults (s.node.advance t) c.val y) (s.node.advance t)).2)
    (.inl (by omega)) (raise_jn _ _) (caValues_jn _ _)

end Sys2Proof.Machine
end

section
/-! SUPPORT. Range command and buffers of a charge channel at the host ports (R231, R239, R244). -/

namespace Sys2Proof.Machine
open Sys2Proof

/-! ### The operations -/

section
variable {p : HostPort} {c t : Nat} {n : Node} {v : Word} {buf : List Word}

theorem caCtrlWrite_of_clear (h : bitOf v 8 = false) : caCtrlWrite c v n = n := by simp [caCtrlWrite, h]

theorem caCtrlWrite_taken (hv : bitOf v 8 = true) (ha : n.acq = true) (hc : n.chOn 4 c = true) (hr : caAuto (n.recOf 4 c) = false) :
    (caCtrlWrite c v n).caC c = { n.caC c with req := some (fld v 1 0) } := by
  simp [caCtrlWrite, hv, ha, hc, hr]

theorem caCtrlWrite_refused (hv : bitOf v 8 = true) (h : n.acq = false ∨ n.chOn 4 c = false ∨ caAuto (n.recOf 4 c) = true) :
    (caCtrlWrite c v n).caC c = { n.caC c with refused := true } := by
  unfold caCtrlWrite
  rw [if_neg (by simp [hv]), if_neg (by rcases h with h | h | h <;> simp [h]), caC_setCa_same]

theorem setCa_port (u : CaChan) (p : HostPort) : (setCa c u n).port p = n.port p := by cases p <;> rfl

theorem mem_dropHold {i : Nat} {u : CaChan} {h : Nat × Nat × Nat} : h ∈ (dropHold i u).holds ↔ h ∈ u.holds ∧ h.1 ≠ i := by
  simp [dropHold]

theorem dropHold_latest (i : Nat) (u : CaChan) : (dropHold i u).latest = u.latest := rfl

theorem caBufOpen_holds (h : (n.caC c).latest ≠ 0) :
    ((caBufOpen p c n).caC c).holds = (dropHold (portIdx p) (n.caC c)).holds ++ [(portIdx p, (n.caC c).latest, n.now)] := by
  unfold caBufOpen
  dsimp only
  rw [caC_setCa_same, dropHold_latest, if_neg h]

theorem caBufOpen_empty (h : (n.caC c).latest = 0) : ((caBufOpen p c n).caC c).holds = (dropHold (portIdx p) (n.caC c)).holds := by
  unfold caBufOpen
  dsimp only
  rw [caC_setCa_same, dropHold_latest, if_pos h]

theorem caBufOpen_addr : tget 0 ((caBufOpen p c n).port p).caBufAddr c = 0 := by
  unfold caBufOpen
  rw [setCa_port, port_modPort, tget_tset_same]

/-- A port's read of its buffer starts the time of its hold again. -/
def caTouched (p : HostPort) (c : Nat) (n : Node) : Node :=
  setCa c { n.caC c with
    holds := (n.caC c).holds.map (fun h => if h.1 == portIdx p then (h.1, h.2.1, n.now) else h) } n

theorem caBufData_of_none (h : caHeld (n.caC c) (portIdx p) = none) : caBufData p c n = (2, 0#32, n) := by simp [caBufData, h]

theorem caBufData_of_word {w : Word} (h : caHeld (n.caC c) (portIdx p) = some buf)
    (hw : buf[tget 0 (n.port p).caBufAddr c]? = some w) :
    caBufData p c n = (0, w, (caTouched p c n).modPort p
      (fun x => { x with caBufAddr := tset 0 x.caBufAddr c ((tget 0 (n.port p).caBufAddr c + 1) % 65536) })) := by
  simp [caBufData, h, hw, caTouched]

theorem caBufData_of_past_end (h : caHeld (n.caC c) (portIdx p) = some buf) (hw : buf.length ≤ tget 0 (n.port p).caBufAddr c) :
    caBufData p c n = (2, 0#32, caTouched p c n) := by
  simp [caBufData, h, List.getElem?_eq_none hw, caTouched]

theorem caHoldTimeout_of_one {b r : Nat} (h : (n.caC c).holds = [(portIdx p, b, r)]) :
    ((caHoldTimeout p c t n).caC c).holds = if r + 500000000 ≤ t then [] else [(portIdx p, b, r)] := by
  have hany : ((n.caC c).holds.any fun h => h.1 == portIdx p && decide (h.2.2 + 2 * secPer ≤ t)) = decide (r + 500000000 ≤ t) := by
    rw [h, List.any_cons, List.any_nil, Bool.or_false, beq_self_eq_true, Bool.true_and]
    rfl
  unfold caHoldTimeout
  dsimp only
  rw [hany]
  by_cases ht : r + 500000000 ≤ t
  · simp [ht, h, dropHold]
  · simp [ht, h]

theorem caHoldTimeout_of_none (h : ∀ x ∈ (n.caC c).holds, x.1 ≠ portIdx p) : caHoldTimeout p c t n = n := by
  refine if_neg (by
    simp only [List.any_eq_true, Bool.and_eq_true, beq_iff_eq]
    exact fun ⟨x, hx, he, _⟩ => h x hx he)

end

/-! ### Their registers -/

/-- CA_CTRL and CA_BUF_CTRL are writable. -/
theorem regAttr_ca (c : Fin 16) : ∀ a ∈ [0x3024 + 0x40 * c.val, 0x3034 + 0x40 * c.val], ∃ x, regAttr a = some ⟨x, .wr⟩ := by
  have h : ∀ a ∈ [0x3024 + 0x40 * c.val, 0x3034 + 0x40 * c.val], (regAttr a).map RegAttr.acc = some .wr := by
    revert c
    decide +kernel
  intro a ha
  obtain ⟨⟨x, acc⟩, hx, hacc⟩ := Option.map_eq_some_iff.mp (h a ha)
  exact ⟨x, by rw [hx, ← hacc]⟩

theorem regAttr_caBufData (c : Fin 16) : ∃ x, regAttr (0x303C + 0x40 * c.val) = some x := by
  refine Option.isSome_iff_exists.mp ?_
  revert c
  decide +kernel

theorem regWrite_ca (p : HostPort) (c : Fin 16) {off : Nat} (ho : off < 0x3C) (v : Word) (m : Mems) (n : Node) :
    regWrite p (0x3000 + off + 0x40 * c.val) v m n = (0, m, caWrite p c.val off v n) := by
  have hc : (0x3000 + off + 0x40 * c.val - 0x3000) / 0x40 = c.val := by omega
  have hoff : (0x3000 + off + 0x40 * c.val) % 0x40 = off := by omega
  rw [regWrite_high (by omega) (blkAt_high (by omega) (by omega)) ⟨by omega, by omega⟩, writeHigh_ca p v n (by omega) (by omega), hc,
    hoff]

theorem regRead_caBufData (p : HostPort) (c : Fin 16) (m : Mems) (n : Node) :
    regRead p (0x303C + 0x40 * c.val) m n = caBufData p c.val n := by
  obtain ⟨hb, hv, hq⟩ := (registerTables).caBufData c
  have hc : (0x303C + 0x40 * c.val - 0x3000) / 0x40 = c.val := by omega
  have hoff : (0x303C + 0x40 * c.val) % 0x40 = 0x3C := by omega
  rw [regRead_high (by omega) hb hv hq]
  unfold readHigh
  rw [if_neg (by omega), if_pos (by omega)]
  simp only [hc, hoff, if_true]

/-! ### The commands -/

/-- A write carried out leaves of its port's buffer addresses what the register's operation made of them. -/
theorem wrDone_caBufAddr (p : HostPort) (a : Nat) (x : Bool) (r : Nat × Mems × Node) :
    ((wrDone p a x r).port p).caBufAddr = (r.2.2.port p).caBufAddr := by
  simp only [wrDone, port_modPort]
  split
  · simp only [Node.port, expertTouch_ports]
  · rfl

theorem wrDone_caC (p : HostPort) (a : Nat) (x : Bool) (r : Nat × Mems × Node) (c : Nat) :
    (wrDone p a x r).caC c = r.2.2.caC c := by
  rw [Node.caC, wrDone_ca, ← Node.caC]

section
variable (p : HostPort) (c : Fin 16) {s : State}

theorem caRangeRequest_ends (v : Word) (h : Takes s (0x3024 + 0x40 * c.val)) :
    Ends (exec (.caRangeRequest p c v) s) (fun u => Acks u p (0x3024 + 0x40 * c.val)
      ∧ u.node.caC c.val = (caCtrlWrite c.val v s.node).caC c.val) := by
  obtain ⟨x, hx⟩ := regAttr_ca c (0x3024 + 0x40 * c.val) (by simp)
  have hdev : (caCtrlWrite c.val v s.node).dev = s.node.dev :=
    dev_of_parts (caCtrlWrite_get _ _ _ (by simp)) (caCtrlWrite_get _ _ _ (by simp))
  have hup : (caCtrlWrite c.val v s.node).up = true := by
    rw [Node.up, hdev]
    exact h.1
  refine ends_hostPlant hx h 0 p v (by rw [advance_zero]; exact regWrite_ca p c (off := 0x24) (by omega) v s.mem s.node) hup ⟨?_, ?_⟩
  · simp [Acks, Answered]
  · rw [settle_caC, wrDone_caC]

theorem bufOpen_ends (t : Nat) (h : Takes s (0x3034 + 0x40 * c.val)) :
    Ends (exec (.bufOpen p c t) s) (fun u => Acks u p (0x3034 + 0x40 * c.val)
      ∧ u.node.caC c.val = (caBufOpen p c.val (s.node.advance t)).caC c.val ∧ tget 0 (u.node.port p).caBufAddr c.val = 0) := by
  obtain ⟨x, hx⟩ := regAttr_ca c (0x3034 + 0x40 * c.val) (by simp)
  refine ends_upMemWrite hx h t p 1#32 (regWrite_ca p c (off := 0x34) (by omega) 1#32 s.mem (s.node.advance t))
    ⟨wrDone_ans _ _ _ _, wrDone_caC _ _ _ _ _, ?_⟩
  rw [wrDone_caBufAddr]
  exact caBufOpen_addr

theorem bufRelease_ends (h : Takes s (0x3034 + 0x40 * c.val)) :
    Ends (exec (.bufRelease p c) s) (fun u => Acks u p (0x3034 + 0x40 * c.val)
      ∧ u.node.caC c.val = dropHold (portIdx p) (s.node.caC c.val)) := by
  obtain ⟨x, hx⟩ := regAttr_ca c (0x3034 + 0x40 * c.val) (by simp)
  exact ends_hostOp hx h p 2#32 (regWrite_ca p c (off := 0x34) (by omega) 2#32 s.mem s.node)
    ⟨wrDone_ans _ _ _ _, (wrDone_caC _ _ _ _ _).trans (caC_setCa_same _ _ _)⟩

theorem caBufDataRead_ends (h : Serves s (0x303C + 0x40 * c.val)) {st : Nat} {w : Word} {k : Node}
    (hk : caBufData p c.val s.node = (st, w, k)) :
    Ends (exec (.caBufDataRead p c) s) (fun u => Answered u p st (0x303C + 0x40 * c.val) w
      ∧ (u.node.port p).caBufAddr = (k.port p).caBufAddr ∧ u.node.ca = k.ca) := by
  obtain ⟨x, hx⟩ := regAttr_caBufData c
  refine ends_hostRead hx h p ((regRead_caBufData p c s.mem s.node).trans hk) ⟨?_, ?_, modPort_ca _ _ _⟩
  · simp only [Answered, port_modPort]
  · simp only [port_modPort]

end

end Sys2Proof.Machine
end

section
/-! SUPPORT. The commands of the charge channels (R220 to R244). -/

namespace Sys2Proof.Machine
open Sys2Proof

section
variable {s : State} {c : Fin 16} {t : Nat}

/-- A command whose operation does nothing at its time leaves the charge channels. -/
theorem ends_ca_unchanged {f : Node → Node} (hu : s.node.up = true) (h : f (s.node.advance t) = s.node.advance t) :
    Ends (onNode (plantAt t f) s) (fun u => u.node.ca = s.node.ca) := by
  refine ends_plantAt hu t f ?_
  rw [h, settle_ca]
  rfl

/-- A trigger that is due takes the next sample of the cycle that runs. -/
theorem caSampleTrigger_ends {y : CaCyc} (hu : s.node.up = true) (hd : caDue s.node c.val t = true)
    (hc : (s.node.caC c.val).cur = some y) (hl : y.trig < y.len) :
    Ends (exec (.caSampleTrigger c t) s) (fun u => u.node.caC c.val
      = caSampled (s.node.recOf 4 c.val) y (caCounted (s.node.recOf 4 c.val) t (s.node.caC c.val))) := by
  have hopen : caOpened c.val t (s.node.advance t) = s.node.advance t := caOpened_of_running hc hl
  have hch := caTrigger_caC (n := s.node.advance t) (t := t) hd ((congrArg (fun m => (Node.caC m c.val).cur) hopen).trans hc)
  rw [hopen] at hch
  refine ends_plantAt hu t _ ?_
  dsimp only
  rw [settle_caC]
  exact hch

theorem caDue_of_timed (hon : s.node.caOn c.val = true) (hm : caMode (s.node.recOf 4 c.val) = 1)
    (hs : 0 < caStep (s.node.recOf 4 c.val)) (ht : (s.node.caC c.val).nextAt ≤ t) : caDue s.node c.val t = true := by
  simp [caDue, hon, caTimed_true hm hs, ht]

theorem caDue_of_waiting (hon : s.node.caOn c.val = true) (hm : caMode (s.node.recOf 4 c.val) ≠ 1 ∨ caStep (s.node.recOf 4 c.val) = 0)
    (hw : 0 < (s.node.caC c.val).due) : caDue s.node c.val t = true := by
  simp [caDue, hon, caTimed_false hm, hw]

theorem caDue_false (h : s.node.caOn c.val = false
      ∨ (caMode (s.node.recOf 4 c.val) = 1 ∧ 0 < caStep (s.node.recOf 4 c.val) ∧ t < (s.node.caC c.val).nextAt)
      ∨ ((caMode (s.node.recOf 4 c.val) ≠ 1 ∨ caStep (s.node.recOf 4 c.val) = 0) ∧ (s.node.caC c.val).due = 0)) :
    caDue s.node c.val t = false := by
  rcases h with h | ⟨hm, hs, ht⟩ | ⟨hm, hw⟩
  · simp [caDue, h]
  · simp [caDue, caTimed_true hm hs, ht]
  · simp [caDue, caTimed_false hm, hw]

theorem clampI_symm (m : Nat) (q : Int) : clampI (-(m : Int)) m q = max (-(m : Int)) (min (m : Int) q) := by
  unfold clampI
  split_ifs <;> omega

end

/-- Settles O30: a trigger that is due is `caSampled` of the channel, a conversion's end `caConverted` in its cycle, a lost cycle
`caDropped`, a finished one's record `caRecord_of_finished`; a port's access is its register's operation. -/
theorem chargeChannels : Obligations.ChargeChannels := by
  and_intros
  -- the next sample of the running block
  · intro c y t s hu hon hm hs ht hc hl hw hr hv
    refine (caSampleTrigger_ends hu (caDue_of_timed hon hm hs ht) hc hl).imp fun u h => ?_
    rw [h, caSampled_of_no_request (u := caCounted _ t _) hw hr (.inl hv)]
    simp [caPlace, caCounted, hv, caTimed_true hm hs]
  -- a block opens
  · intro c t s hu hon hm hs ht hc hw hr hv
    obtain ⟨z, x, hx, hcur, ht0, htrig, hlen, hsmp, hblocks, hxw, hxr, hxv⟩ :=
      caBegin_caC (n := s.node.advance t) (t := t) hw hv
    have hopen : caOpened c.val t (s.node.advance t) = caBegin c.val t (s.node.advance t) := caOpened_of_none hc
    have hch := caTrigger_caC (n := s.node.advance t) (t := t) (y := z) (caDue_of_timed hon hm hs ht) (by rw [hopen, hx, hcur])
    refine ends_plantAt hu t _ ?_
    dsimp only
    rw [settle_caC, hch, hopen, hx, caSampled_of_no_request (u := caCounted _ t _) hxw (hxr.trans hr) (.inl hxv)]
    simp only [caPlace, caCounted, hxv]
    refine ⟨⟨_, rfl, ht0, congrArg (· + 1) htrig, hlen.trans ?_, hsmp⟩, hblocks⟩
    exact if_neg (show ¬caMode (s.node.recOf 4 c.val) = 2 by rw [hm]; decide)
  -- a conversion joins its block
  · intro c q v y t s hu hon hv hj hp hh hc
    refine ends_plantAt hu t _ ?_
    obtain ⟨pend, bad, mark, hch⟩ := caStepEnd_caC_of_own (n := s.node.advance t) (q := q) hon hv hj hp hh hc
    dsimp only
    rw [settle_caC, hch]
    refine ⟨rfl, clampI_symm _ q, ⟨_, _, rfl, rfl, rfl, clampI_symm _ q, rfl, decide_eq_true_iff⟩, fun hq hs => ?_⟩
    exact settle_flag _ 50 (caStepEnd_saturated (n := s.node.advance t) hon hv hj hp hh hc hq hs)
  -- the reset switch opens
  · intro c t s hu hc ht
    refine ends_plantAt hu t _ ?_
    dsimp only
    rw [settle_caC]
    exact caResetOpen_closed (n := s.node.advance t) hc ht
  -- a cycle past CYC_TMO
  · intro c y t s hu hm hc hl ht
    refine ends_plantAt hu t _ ?_
    dsimp only
    rw [caAbandonDue_of_lost (n := s.node.advance t) hm hc hl (.inl ((caTimedOut_of_cur hc).trans (decide_eq_true ht))),
      settle_caC, caC_setCa_same]
    exact ⟨rfl, rfl, rfl, rfl⟩
  -- a trigger that came by count or action
  · intro c y t s hu hon hm hd hc hl hw hr hv
    refine (caSampleTrigger_ends hu (caDue_of_waiting hon hm hd) hc hl).imp fun u h => ?_
    rw [h, caSampled_of_no_request (u := caCounted _ t _) hw hr (.inl hv)]
    simp [caPlace, caCounted, hv]
  -- a trigger during a conversion
  · intro c y v t s hu hon hm hs ht hc hl hw hr hv hh
    refine (caSampleTrigger_ends hu (caDue_of_timed hon hm hs ht) hc hl).imp fun u h => ?_
    rw [h, caSampled_of_no_request (u := caCounted _ t _) hw hr (.inr hh)]
    simp [caPlace, caCounted, hv]
  -- a range command meets the trigger
  · intro c y q t s hu hon hm hs ht hc hl hw hr hdef hv hcl
    refine (caSampleTrigger_ends hu (caDue_of_timed hon hm hs ht) hc (by omega)).imp fun u h => ?_
    rw [h, caSampled_of_request (u := caCounted _ t _) hw hr hdef hv hcl hl]
    exact ⟨rfl, rfl, rfl, rfl, rfl⟩
  -- no trigger is due
  · exact fun c t s hu h => ends_ca_unchanged hu (caTrigger_of_not_due (caDue_false h))
  -- no conversion runs
  · exact fun c q t s hu h => ends_ca_unchanged hu (caStepEnd_of_idle h)
  -- the reset switch stays
  · exact fun c t s hu h => ends_ca_unchanged hu (caResetOpen_of_not_due h)
  -- a cycle whose position no longer serves
  · intro c y t s hu hm hc hl h
    have hserve : caUnserved (s.node.advance t) c.val = true := by
      change caUnserved s.node c.val = true
      rcases h with h | h <;> simp [caUnserved, h]
    refine ends_plantAt hu t _ ?_
    dsimp only
    rw [caAbandonDue_of_lost (n := s.node.advance t) hm hc hl (.inr hserve), settle_caC, caC_setCa_same]
    exact ⟨rfl, rfl⟩
  -- no cycle is lost
  · intro c t s hu h
    refine ends_ca_unchanged hu (caAbandonDue_of_not_lost (n := s.node.advance t) ?_)
    rcases h with h | h | ⟨y, hc, hl | ⟨ht, hpf, hst⟩⟩
    · exact .inl h
    · exact .inr (.inl h)
    · exact .inr (.inr ⟨y, hc, .inl hl⟩)
    · refine .inr (.inr ⟨y, hc, .inr ⟨(caTimedOut_of_cur hc).trans (decide_eq_false (Nat.not_le.mpr ht)), ?_⟩⟩)
      change caUnserved s.node c.val = false
      simp [caUnserved, hpf, hst]
  -- the record of a crank cycle
  · intro c y t s hu hon hm hp hv hr hrole
    refine (caRecordComplete_ends t hu hon hrole (caFinished_prev hp hv) hr).imp
      fun u ⟨hprev, _, hcycle, hflag, hlatest, es, hdel, hlen, hes⟩ => ⟨hprev, hcycle, hflag, hlatest, es, hdel, hlen, ?_⟩
    rwa [caResults, if_pos hm] at hes
  -- a range command
  · intro p c v s h hv
    have hends := caRangeRequest_ends p c v h
    exact ⟨fun ha hc hr => hends.imp fun u ⟨hack, hch⟩ => ⟨hack, hch.trans (caCtrlWrite_taken hv ha hc hr)⟩,
      fun href => hends.imp fun u ⟨hack, hch⟩ => ⟨hack, hch.trans (caCtrlWrite_refused hv href)⟩⟩
  -- OPEN with a complete buffer
  · intro p c t s h hl
    refine (bufOpen_ends p c t h).imp fun u ⟨hack, hch, haddr⟩ => ⟨hack, ?_, haddr⟩
    rw [hch, caBufOpen_holds (n := s.node.advance t) hl]
    exact List.mem_append_right _ (List.mem_singleton_self _)
  -- RELEASE
  · intro p c s h
    refine (bufRelease_ends p c h).imp fun u ⟨hack, hch⟩ => ⟨hack, fun x hx => ?_, fun x hx hne => ?_⟩
    · exact (mem_dropHold.mp (hch ▸ hx)).2
    · rw [hch]
      exact mem_dropHold.mpr ⟨hx, hne⟩
  -- a read steps through the held buffer
  · intro p c buf w s h hheld hw
    refine (caBufDataRead_ends p c h (caBufData_of_word hheld hw)).imp fun u ⟨hans, haddr, _⟩ => ⟨hans, ?_⟩
    rw [haddr, port_modPort, tget_tset_same]
  -- a read without a hold
  · intro p c s h hheld
    exact (caBufDataRead_ends p c h (caBufData_of_none hheld)).imp fun u ⟨hans, _, hca⟩ => ⟨hans, hca⟩
  -- the end of a hold
  · exact fun p c b r t s hu h => ends_upAt hu t _ (caHoldTimeout_of_one (n := s.node.advance t) h)
  -- the record of a block
  · intro c y t s hu hon hm hp hc hl hv hh hr hrole
    refine (caRecordComplete_ends t hu hon hrole (caFinished_whole hp hc hl hv hh) hr).imp
      fun u ⟨_, hcur, hcycle, hflag, hlatest, es, hdel, hlen, hes⟩ => ⟨hcur, hcycle, hflag, hlatest, es, hdel, hlen, ?_⟩
    rwa [caResults, if_neg (show ¬caMode (s.node.recOf 4 c.val) = 2 by rw [hm]; decide)] at hes
  -- a cycle taken with the input switch open
  · intro c y t s hu hon hp hv hr hrole
    refine ends_plantAt hu t _ ?_
    rw [caRecord_of_open (n := s.node.advance t) hon hrole (caFinished_prev hp hv) hr, settle_caC, caC_setCa_same]
    rfl
  -- no record is due
  · exact fun c t s hu h => ends_ca_unchanged hu (caRecord_of_not_due h)
  -- CA_CTRL without a command
  · exact fun p c v s h hv => (caRangeRequest_ends p c v h).imp fun u ⟨hack, hch⟩ => ⟨hack, by rw [hch, caCtrlWrite_of_clear hv]⟩
  -- OPEN without a complete buffer
  · intro p c t s h hl
    refine (bufOpen_ends p c t h).imp fun u ⟨hack, hch, haddr⟩ => ⟨hack, fun x hx => ?_, haddr⟩
    rw [hch, caBufOpen_empty (n := s.node.advance t) hl] at hx
    exact (mem_dropHold.mp hx).2
  -- a read past the end
  · intro p c buf s h hheld hpast
    refine (caBufDataRead_ends p c h (caBufData_of_past_end hheld hpast)).imp fun u ⟨hans, haddr, _⟩ => ⟨hans, ?_⟩
    rw [haddr, caTouched, setCa_port]
  -- no hold of the port
  · intro p c t s hu h
    refine ends_upAt hu t _ ?_
    rw [caHoldTimeout_of_none (n := s.node.advance t) h]
    rfl

end Sys2Proof.Machine
end

section
/-! SUPPORT. Loop outputs: the current a demand commands, and what a readback window and the field supply make of a channel (R246 to
R256). -/

namespace Sys2Proof.Machine
open Sys2Proof

/-! ### From an operation to its command -/

/-- A happening whose operation makes `k` of the module, followed by the plant. -/
theorem ends_plantAt_of_eq {s : State} {t : Nat} {f : Node → Node} {k : Node} (hu : s.node.up = true)
    (hf : f (s.node.advance t) = k) {P : State → Prop} (hP : P { s with node := settle k }) : Ends (onNode (plantAt t f) s) P :=
  ends_plantAt hu t f (by rw [hf]; exact hP)

/-- A flag that an operation raised stands at the end of its command. -/
theorem flag_at_end {q : List Instr} {m : Mems} {n : Node} (k : Nat) (h : n.evt.flag k = true) :
    (State.mk q m (settle n)).node.evt.flag k = true := settle_flag n k h

/-! ### The commanded current (R246 to R249) -/

section
variable {k : Nat} {n : Node}

theorem clampI_eq_max_min {lo hi : Int} (h : lo ≤ hi) (x : Int) : clampI lo hi x = max lo (min hi x) := by
  unfold clampI
  split_ifs <;> omega

theorem loC_modLo_same (k : Nat) (f : LoChan → LoChan) (n : Node) : (modLo k f n).loC k = f (n.loC k) := loC_setLo_same k _ n

/-- With the linear characteristic the demand takes its share of the span, clamped to the range of the mode. -/
theorem loCurrent_linear {r : Bytes} (h : loChar r = 0) (cut : Bool) (d : Int) : (loCurrent n r cut d).1
    = max (if loMode r = 2 then 3600 else 0) (min 24000 (loILo r + divRound (d * (loIHi r - loILo r)) 1000000)) := by
  have hc : loCharac n r cut d = ((d, 1), cut, false) := by simp [loCharac, h]
  by_cases hm : loMode r = 2
  · simp [loCurrent, hc, loRange, hm, clampI_eq_max_min]
  · simp [loCurrent, hc, loRange, hm, clampI_eq_max_min]

theorem loUpdate_demand (k : Nat) (n : Node) : ((loUpdate k n).loC k).demand = (n.loC k).demand := by
  unfold loUpdate
  dsimp only
  split
  · rfl
  · split
    · rw [loC_modLo_same]
    · split
      · rw [loC_modLo_same]
      · rw [loC_modLo_same]
        rfl

theorem loUpdate_cmd_of_not_driving (h : n.driving = false) : ((loUpdate k n).loC k).cmd = (n.loC k).cmd := by
  unfold loUpdate
  dsimp only
  split
  · rfl
  · split
    · rw [loC_modLo_same]
    · rw [if_pos (by simp [h]), loC_modLo_same]

theorem loUpdate_cmd_of_driving {d : Int} (hon : recOn (n.recOf 5 k) = true) (hd : n.driving = true) (hl : loLaneOff n k = false)
    (hdem : loDemand n k = some d) : ((loUpdate k n).loC k).cmd = (loCurrent n (n.recOf 5 k) (n.loC k).cut d).1 := by
  simp [loUpdate, hon, hd, hl, hdem, loC_modLo_same, loSetCmd]

theorem loDemandWrite_demand (v : Word) : ((loDemandWrite k v n).loC k).demand = v.toInt := by
  rw [loDemandWrite, loUpdate_demand, loC_modLo_same]

theorem loDemandWrite_cmd_of_not_driving (h : n.driving = false) (v : Word) :
    ((loDemandWrite k v n).loC k).cmd = (n.loC k).cmd := by
  rw [loDemandWrite, loUpdate_cmd_of_not_driving (n := modLo k _ n) h, loC_modLo_same]

theorem loDemandWrite_cmd_of_driving (hon : recOn (n.recOf 5 k) = true) (hd : n.driving = true) (hs : loSrc (n.recOf 5 k) = 0)
    (hc : loChar (n.recOf 5 k) = 0) (v : Word) : ((loDemandWrite k v n).loC k).cmd
      = max (if loMode (n.recOf 5 k) = 2 then 3600 else 0)
          (min 24000 (loILo (n.recOf 5 k) + divRound (v.toInt * (loIHi (n.recOf 5 k) - loILo (n.recOf 5 k))) 1000000)) := by
  generalize hm : modLo k (fun u => { u with demand := v.toInt }) n = m
  have hr : m.recOf 5 k = n.recOf 5 k := hm ▸ rfl
  have hdrv : m.driving = true := hm ▸ hd
  have hl : loLaneOff m k = false := by simp [loLaneOff, hr, hs]
  have hdem : loDemand m k = some v.toInt := by
    have hch : (m.loC k).demand = v.toInt := by rw [← hm, loC_modLo_same]
    simp [loDemand, hr, hs, hch]
  rw [loDemandWrite, hm, loUpdate_cmd_of_driving (hr ▸ hon) hdrv hl hdem, hr, loCurrent_linear hc]

end

/-! ### LO_DEMAND -/

/-- A register that the tables give as writable. -/
theorem regAttr_of_writable {a : Nat} (h : (regAttr a).map RegAttr.acc = some .wr) : ∃ x, regAttr a = some ⟨x, .wr⟩ := by
  obtain ⟨⟨x, acc⟩, hx, hacc⟩ := Option.map_eq_some_iff.mp h
  exact ⟨x, by rw [hx, ← hacc]⟩

theorem regAttr_loDemand (k : Fin 16) : ∃ x, regAttr (0x380C + 0x40 * k.val) = some ⟨x, .wr⟩ := by
  refine regAttr_of_writable ?_
  revert k
  decide +kernel

theorem regWrite_loDemand (p : HostPort) (k : Fin 16) (v : Word) (m : Mems) (n : Node) :
    regWrite p (0x380C + 0x40 * k.val) v m n = (0, m, loDemandWrite k.val v n) := by
  have hk : (0x380C + 0x40 * k.val - 0x3800) / 0x40 = k.val := by omega
  have ho : (0x380C + 0x40 * k.val) % 0x40 = 0x0C := by omega
  rw [regWrite_high (by omega) (blkAt_high (by omega) (by omega)) ⟨by omega, by omega⟩, writeHigh_lo p v n (by omega) (by omega),
    hk, ho]
  rfl

/-- A write of LO_DEMAND that the register takes. -/
theorem loDemandWrite_ends (p : HostPort) (k : Fin 16) (v : Word) {s : State} (h : Takes s (0x380C + 0x40 * k.val)) :
    Ends (exec (.loDemandWrite p k v) s) (fun u => Acks u p (0x380C + 0x40 * k.val)
      ∧ ∀ j, u.node.loC j = (loDemandWrite k.val v s.node).loC j) := by
  obtain ⟨x, hx⟩ := regAttr_loDemand k
  have hdev : (loDemandWrite k.val v s.node).dev = s.node.dev :=
    dev_of_parts (loDemandWrite_get _ _ _ (by simp)) (loDemandWrite_get _ _ _ (by simp))
  have hup : (loDemandWrite k.val v s.node).up = true := by
    rw [Node.up, hdev]
    exact h.1
  refine ends_hostPlant hx h 0 p v (by rw [advance_zero]; exact regWrite_loDemand p k v s.mem s.node) hup ⟨?_, fun j => ?_⟩
  · simp [Acks, Answered]
  · rw [settle_loC, Node.loC, wrDone_lo, Node.loC]

/-! ### A readback window (R251 to R254, R256) -/

/-- A window of channel `k` ends at `t`. -/
def loDue (n : Node) (k t : Nat) : Bool := n.acq && n.isRun 5 && recOn (n.recOf 5 k) && t % loWindow == 0

/-- The channel as its next window begins. -/
def loRestarted (k : Nat) (comm : Bool) (t : Nat) (n : Node) : LoChan :=
  { n.loC k with acc := 0, accAt := t, fieldOk := if loMode (n.recOf 5 k) = 1 then comm else (n.loC k).fieldOk }

/-- Nothing keeps the window from being judged: the role is on and the channel is not miswired (R254, R256). -/
def loJudged (n : Node) (k : Nat) : Bool := n.carries && !n.miswired (64 + k)

/-- The channel after HEADROOM is judged, and event 56. -/
def loHeadJudged (k : Nat) (mean : Int) (comm : Bool) (t : Nat) (n : Node) : LoChan × Bool :=
  if loJudged n k && loCommands n k then loHeadroom (mean - loCmdMean t (n.loC k)) (loRestarted k comm t n)
  else (loRestarted k comm t n, false)

/-- Channel `u` after OPEN is judged, and event 57. -/
def loOpenJudged (k : Nat) (mean : Int) (n : Node) (u : LoChan) : LoChan × Bool :=
  if loJudged n k then (if loMode (n.recOf 5 k) = 1 then loOpen mean u.cmd u else loOpenField u) else (u, false)

/-- The channel once its window is judged. -/
def loAfter (k : Nat) (mean : Int) (comm : Bool) (t : Nat) (n : Node) : LoChan :=
  (loOpenJudged k mean n (loHeadJudged k mean comm t n).1).1

/-- What channel `u` publishes of the window. -/
def loReading (k : Nat) (mean : Int) (n : Node) (u : LoChan) : Entry :=
  if loMode (n.recOf 5 k) == 2 && !u.fieldOk then mkEntry (0x3800 + k * 0x40) 0 false false true false false
  else mkEntry (0x3800 + k * 0x40) mean (!n.miswired (64 + k)) false (n.miswired (64 + k) || u.headroom) false false

section
variable {k t : Nat} {mean : Int} {comm : Bool} {n : Node} {u : LoChan}

theorem loDue_of (ha : n.acq = true) (hr : n.isRun 5 = true) (hon : recOn (n.recOf 5 k) = true) (ht : t % 2500000 = 0) :
    loDue n k t = true := by
  simp [loDue, loWindow, ha, hr, hon, ht]

theorem loReadback_of_due (h : loDue n k t = true) : loReadback k mean comm t n
    = complete (92 + k) 0 [loReading k mean n (loAfter k mean comm t n)] t
        (raiseIf (loOpenJudged k mean n (loHeadJudged k mean comm t n).1).2 57
          (raiseIf (loHeadJudged k mean comm t n).2 56 (setLo k (loAfter k mean comm t n) n))) :=
  if_neg (show ¬ (!loDue n k t) = true by simp [h])

theorem loReadback_of_not_due (h : loDue n k t = false) : loReadback k mean comm t n = n :=
  if_pos (show (!loDue n k t) = true by simp [h])

theorem loHeadroom_keeps (err : Int) (u : LoChan) : (loHeadroom err u).1.acc = u.acc ∧ (loHeadroom err u).1.accAt = u.accAt
    ∧ (loHeadroom err u).1.fieldOk = u.fieldOk := by
  unfold loHeadroom
  dsimp only
  split
  · exact ⟨rfl, rfl, rfl⟩
  · split <;> exact ⟨rfl, rfl, rfl⟩

/-- The third window in a row beyond 100 µA sets HEADROOM. -/
theorem loHeadroom_third {err : Int} (hb : 100 < |err|) (hh : u.headroom = false) (hr : u.hrRun = 2) :
    loHeadroom err u = ({ u with hrRun := 0, headroom := true, hrSeen := true }, true) := by
  simp [loHeadroom, hb, hh, hr]

theorem loOpenJudged_keeps (k : Nat) (mean : Int) (n : Node) (u : LoChan) :
    (loOpenJudged k mean n u).1.acc = u.acc ∧ (loOpenJudged k mean n u).1.accAt = u.accAt
      ∧ (loOpenJudged k mean n u).1.fieldOk = u.fieldOk ∧ (loOpenJudged k mean n u).1.headroom = u.headroom
      ∧ (loOpenJudged k mean n u).1.hrSeen = u.hrSeen := by
  have hopen (i : Int) : (loOpen mean i u).1.acc = u.acc ∧ (loOpen mean i u).1.accAt = u.accAt
      ∧ (loOpen mean i u).1.fieldOk = u.fieldOk ∧ (loOpen mean i u).1.headroom = u.headroom
      ∧ (loOpen mean i u).1.hrSeen = u.hrSeen := by
    unfold loOpen
    dsimp only
    generalize (if u.opn then decide (50 ≤ mean) else decide (mean < 50) && decide (1000 ≤ i)) = want
    split
    · exact ⟨rfl, rfl, rfl, rfl, rfl⟩
    · split <;> exact ⟨rfl, rfl, rfl, rfl, rfl⟩
  have hfield : (loOpenField u).1.acc = u.acc ∧ (loOpenField u).1.accAt = u.accAt ∧ (loOpenField u).1.fieldOk = u.fieldOk
      ∧ (loOpenField u).1.headroom = u.headroom ∧ (loOpenField u).1.hrSeen = u.hrSeen := by
    unfold loOpenField
    split <;> exact ⟨rfl, rfl, rfl, rfl, rfl⟩
  unfold loOpenJudged
  split
  · split
    · exact hopen u.cmd
    · exact hfield
  · exact ⟨rfl, rfl, rfl, rfl, rfl⟩

/-- Whatever is judged, the next window begins with an empty sum. -/
theorem loAfter_restarted : (loAfter k mean comm t n).acc = 0 ∧ (loAfter k mean comm t n).accAt = t
    ∧ (loAfter k mean comm t n).fieldOk = (loRestarted k comm t n).fieldOk := by
  obtain ⟨hacc, hat, hfield, -, -⟩ := loOpenJudged_keeps k mean n (loHeadJudged k mean comm t n).1
  have hhead : (loHeadJudged k mean comm t n).1.acc = 0 ∧ (loHeadJudged k mean comm t n).1.accAt = t
      ∧ (loHeadJudged k mean comm t n).1.fieldOk = (loRestarted k comm t n).fieldOk := by
    unfold loHeadJudged
    split
    · exact loHeadroom_keeps _ (loRestarted k comm t n)
    · exact ⟨rfl, rfl, rfl⟩
  obtain ⟨hacc', hat', hfield'⟩ := hhead
  exact ⟨hacc.trans hacc', hat.trans hat', hfield.trans hfield'⟩

theorem loJudged_of (hc : n.carries = true) (hw : n.miswired (64 + k) = false) : loJudged n k = true := by simp [loJudged, hc, hw]

theorem carries_of_driving (h : n.driving = true) : n.carries = true := by
  simp only [Node.driving, Bool.and_eq_true] at h
  exact h.1.2

/-- The third deviation in a row of a channel that applies its current is HEADROOM with event 56. -/
theorem loAfter_headroom (hd : n.driving = true) (hw : n.miswired (64 + k) = false) (hs : (n.loC k).srcBad = false)
    (hl : loLaneOff n k = false) (hb : 100 < |mean - loCmdMean t (n.loC k)|) (hh : (n.loC k).headroom = false)
    (hr : (n.loC k).hrRun = 2) : (loAfter k mean comm t n).headroom = true ∧ (loAfter k mean comm t n).hrSeen = true
      ∧ (loHeadJudged k mean comm t n).2 = true := by
  have hhead : loHeadJudged k mean comm t n = ({ loRestarted k comm t n with hrRun := 0, headroom := true, hrSeen := true }, true) :=
    (if_pos (by simp [loJudged_of (carries_of_driving hd) hw, loCommands, hd, hs, hl])).trans (loHeadroom_third hb hh hr)
  obtain ⟨-, -, -, hhd, hsn⟩ := loOpenJudged_keeps k mean n (loHeadJudged k mean comm t n).1
  rw [loAfter, hhd, hsn, hhead]
  exact ⟨rfl, rfl, rfl⟩

/-- A sinking channel whose field side is without supply is OPEN after the window. -/
theorem loAfter_open (hm : loMode (n.recOf 5 k) = 2) (hc : n.carries = true) (hw : n.miswired (64 + k) = false)
    (hf : (n.loC k).fieldOk = false) : (loAfter k mean comm t n).opn = true := by
  have hfield : (loHeadJudged k mean comm t n).1.fieldOk = false := by
    obtain ⟨-, -, hkeep, -, -⟩ := loOpenJudged_keeps k mean n (loHeadJudged k mean comm t n).1
    rw [← hkeep, ← loAfter, loAfter_restarted.2.2, loRestarted, hm]
    exact hf
  have hopen : loOpenJudged k mean n (loHeadJudged k mean comm t n).1 = loOpenField (loHeadJudged k mean comm t n).1 :=
    (if_pos (loJudged_of hc hw)).trans (if_neg (by rw [hm]; decide))
  rw [loAfter, hopen, loOpenField, hfield]
  cases ho : (loHeadJudged k mean comm t n).1.opn <;> simp [ho]

theorem loReading_of_supplied (h : loMode (n.recOf 5 k) ≠ 2) :
    ∃ q, loReading k mean n u = ⟨0x3800 + k * 0x40, (satE32 mean).1, q⟩ :=
  ⟨_, if_neg (by simp [h])⟩

theorem loReading_of_miswired (h : loMode (n.recOf 5 k) ≠ 2) (hw : n.miswired (64 + k) = true) :
    loReading k mean n u = ⟨0x3800 + k * 0x40, (satE32 mean).1, 0x08#8⟩ := by
  rw [loReading, hw, if_neg (by simp [h])]
  simp [mkEntry, mkQ, qRANGE]

theorem loReading_of_dead (h : loMode (n.recOf 5 k) = 2) (hf : u.fieldOk = false) :
    loReading k mean n u = ⟨0x3800 + k * 0x40, 0#32, 0x08#8⟩ := by
  rw [loReading, if_pos (by simp [h, hf])]
  rfl

end

/-- A window that ends publishes its reading and leaves the judged channel. -/
theorem loReadback_ends (k : Fin 16) (mean : Int) (comm : Bool) {t : Nat} {s : State} (hu : s.node.up = true)
    (hd : loDue s.node k.val t = true) : Ends (exec (.loReadback k mean comm t) s) (fun u =>
      Delivers s u (92 + k.val) 0 t [loReading k.val mean s.node (loAfter k.val mean comm t s.node)]
      ∧ u.node.loC k.val = loAfter k.val mean comm t s.node
      ∧ ((loHeadJudged k.val mean comm t s.node).2 = true → u.node.evt.flag 56 = true) ∧ u.node.mw = s.node.mw) := by
  refine ends_plantAt_of_eq hu (loReadback_of_due (n := s.node.advance t) hd) ⟨?_, ?_, fun h56 => ?_, ?_⟩
  · exact delivers_of_complete (.inl (by omega)) (by rw [raiseIf_jn, raiseIf_jn]; rfl)
  · rw [settle_loC, complete_loC, raiseIf_loC, raiseIf_loC, loC_setLo_same]
    rfl
  · refine flag_at_end 56 ?_
    refine complete_flag _ _ _ _ _ 56 ?_
    refine raiseIf_flag _ _ _ 56 ?_
    rw [show (loHeadJudged k.val mean comm t (s.node.advance t)).2 = true from h56]
    exact raise_flag 56 _ rfl (by omega)
  · rw [settle_mw, complete_mw, raiseIf_mw, raiseIf_mw]
    rfl

/-- A miswired loop output is high impedance. -/
theorem loPin_of_miswired {k : Nat} {n : Node} (h : n.miswired (64 + k) = true) : loPin n k = none := if_pos h

/-! ### The field supply of a sinking channel (R253, R254) -/

section
variable {k : Nat} {lost : Bool} {n : Node}

theorem loFieldLoss_of_unjudged (hon : recOn (n.recOf 5 k) = true) (hm : loMode (n.recOf 5 k) = 2) (h : loJudged n k = false) :
    loFieldLoss k lost n = setLo k { n.loC k with fieldOk := !lost } n := by
  have h' : (!n.carries || n.miswired (64 + k)) = true := by simpa [loJudged, imp_iff_not_or] using h
  simp only [loFieldLoss, hon, hm, h', if_true]
  rfl

theorem loFieldLoss_of_judged (hon : recOn (n.recOf 5 k) = true) (hm : loMode (n.recOf 5 k) = 2) (h : loJudged n k = true) :
    loFieldLoss k lost n
      = if lost then raiseIf (!(n.loC k).opn) 57 (setLo k { n.loC k with fieldOk := false, opn := true, openSeen := true } n)
      else setLo k { n.loC k with fieldOk := true, opn := false } n := by
  obtain ⟨hc, hw⟩ : n.carries = true ∧ n.miswired (64 + k) = false := by simpa [loJudged] using h
  simp [loFieldLoss, hon, hm, hc, hw]

theorem loFieldLoss_of_other (h : recOn (n.recOf 5 k) = false ∨ loMode (n.recOf 5 k) ≠ 2) : loFieldLoss k lost n = n :=
  if_pos (by rcases h with h | h <;> simp [h])

end

end Sys2Proof.Machine
end

section
/-! SUPPORT. Pulse outputs: what a period boundary takes and when a pulse ends (R250, R265, R266). -/

namespace Sys2Proof.Machine
open Sys2Proof

section
variable {k t : Nat} {n : Node} {d : Int}

theorem poC_modPo_same (k : Nat) (f : PoChan → PoChan) (n : Node) : (modPo k f n).poC k = f (n.poC k) := poC_setPo_same k _ n

/-! ### The demand (R247, R265) -/

theorem poDemand_of_host (h : poSrc (n.recOf 0x0F k) = 0) : poDemand n k = some (n.poC k).set := by simp [poDemand, h]

theorem poDemand_of_bad_result (h : poSrc (n.recOf 0x0F k) = 2)
    (hq : qHas (resQ (n.res (poSrcAddr (n.recOf 0x0F k)))) qVALID = false) : poDemand n k = none := by
  simp [poDemand, h, hq]

theorem poLaneOff_of_other_source (h : poSrc (n.recOf 0x0F k) ≠ 1) : poLaneOff n k = false := by simp [poLaneOff, h]

theorem poValue_of_duty {r : Bytes} (h : poMode r = 1) (d : Int) : poValue r d = max 0 (min 1000000 d) := by
  rw [poValue, if_neg (by rw [h]; decide), clampI_eq_max_min (by decide)]

theorem poValue_of_frequency {r : Bytes} (h : poMode r = 2) (d : Int) :
    poValue r d = divRound (max 0 (min 1000000 d) * (poFmax r : Nat)) 1000000 := by
  rw [poValue, if_pos h, clampI_eq_max_min (by decide)]

/-! ### A demand is judged -/

theorem poUpdate_of_no_demand (hon : recOn (n.recOf 0x0F k) = true) (hm : poMode (n.recOf 0x0F k) ≠ 3) (hdem : poDemand n k = none) :
    poUpdate k n = modPo k (fun u => { u with srcBad := true }) n := by
  simp [poUpdate, hon, hm, hdem]

/-- A demand beyond the range is clamped, with event 61 where the one before was not (R266). -/
theorem poUpdate_clamps (hon : recOn (n.recOf 0x0F k) = true) (hm : poMode (n.recOf 0x0F k) ≠ 3) (hd : n.driving = true)
    (hl : poLaneOff n k = false) (hdem : poDemand n k = some d) (hc : (n.poC k).clamp = false) (hr : d < 0 ∨ 1000000 < d) :
    (poUpdate k n).evt.flag 61 = true := by
  have hcl : (decide (d < 0) || decide (1000000 < d)) = true := by simpa using hr
  simp only [poUpdate, hon, hm, hdem, hd, hl, hcl, hc, beq_iff_eq, Bool.not_true, Bool.not_false, Bool.or_self, Bool.and_self,
    Bool.false_or, if_false, Bool.false_eq_true]
  exact raise_flag 61 _ rfl (by omega)

/-! ### A period boundary -/

theorem poBoundary_eq_poTake (h : poMode (n.recOf 0x0F k) ≠ 2 ∨ 100 ≤ (n.poC k).out) : poBoundary k n = poTake k n :=
  if_neg (by rcases h with h | h <;> simp [h])

theorem poBoundary_of_none (h : recOn (n.recOf 0x0F k) = false ∨ n.driving = false ∨ poMode (n.recOf 0x0F k) = 3
    ∨ (poMode (n.recOf 0x0F k) = 2 ∧ (n.poC k).out < 100)) : poBoundary k n = n := by
  by_cases hstop : poMode (n.recOf 0x0F k) = 2 ∧ (n.poC k).out < 100
  · exact if_pos (by simp [hstop])
  · rw [poBoundary_eq_poTake (by omega)]
    refine if_pos ?_
    rcases h with h | h | h | h
    · simp [h]
    · simp [h]
    · simp [h]
    · exact absurd h hstop

/-- Where channel `k` is driven, a boundary takes the demand. -/
theorem poTake_of_demand (hon : recOn (n.recOf 0x0F k) = true) (hd : n.driving = true) (hm : poMode (n.recOf 0x0F k) ≠ 3)
    (hl : poLaneOff n k = false) (hdem : poDemand n k = some d) : poTake k n
      = modPo k (fun u => { u with
          out := poValue (n.recOf 0x0F k) d
          driven := some (poWave (n.recOf 0x0F k) (poValue (n.recOf 0x0F k) d)) }) (poUpdate k n) := by
  simp [poTake, hon, hd, hm, hl, hdem]

theorem poTake_of_no_demand (hon : recOn (n.recOf 0x0F k) = true) (hd : n.driving = true) (hm : poMode (n.recOf 0x0F k) ≠ 3)
    (hl : poLaneOff n k = false) (hdem : poDemand n k = none) : poTake k n = modPo k (fun u => { u with srcBad := true }) n := by
  rw [← poUpdate_of_no_demand hon hm hdem]
  simp [poTake, hon, hd, hm, hl, hdem]

/-- A boundary of a driven output whose source gives demand `d`. -/
theorem poPeriodBoundary_ends {s : State} (k : Fin 8) (t : Nat) (hu : s.node.up = true) (hon : recOn (s.node.recOf 0x0F k.val) = true)
    (hd : s.node.driving = true) (hm : poMode (s.node.recOf 0x0F k.val) ≠ 3)
    (hb : poMode (s.node.recOf 0x0F k.val) ≠ 2 ∨ 100 ≤ (s.node.poC k.val).out)
    (hl : poLaneOff s.node k.val = false) (hdem : poDemand s.node k.val = some d) :
    Ends (exec (.poPeriodBoundary k t) s) (fun u => (u.node.poC k.val).out = poValue (s.node.recOf 0x0F k.val) d
      ∧ (u.node.poC k.val).driven = some (poWave (s.node.recOf 0x0F k.val) (poValue (s.node.recOf 0x0F k.val) d))
      ∧ ((s.node.poC k.val).clamp = false → d < 0 ∨ 1000000 < d → u.node.evt.flag 61 = true)
      ∧ ∀ j, j ≠ k.val → u.node.poC j = s.node.poC j) := by
  have htake := (poBoundary_eq_poTake (n := s.node.advance t) hb).trans (poTake_of_demand hon hd hm hl hdem)
  refine ends_plantAt_of_eq hu htake ⟨?_, ?_, fun hc hr => ?_, fun j hj => ?_⟩
  · rw [settle_poC, poC_modPo_same]
    rfl
  · rw [settle_poC, poC_modPo_same]
    rfl
  · refine flag_at_end 61 ?_
    rw [modPo_flag]
    exact poUpdate_clamps (n := s.node.advance t) hon hm hd hl hdem hc hr
  · rw [settle_poC, ← htake]
    exact poBoundary_others k.val (s.node.advance t) j hj

/-! ### What the output drives without a demand (R250) -/

/-- A channel whose source is bad drives the safe state of its record. -/
theorem poPin_of_srcBad (hl : n.dup.latched = false) (hon : recOn (n.recOf 0x0F k) = true) (hd : n.driving = true)
    (hs : (n.poC k).srcBad = true) : poPin n k = poSafePin (n.recOf 0x0F k) (n.poC k) := by
  obtain ⟨⟨hrun, hc⟩, hi⟩ : (n.running = true ∧ n.carries = true) ∧ n.isRun 5 = true := by simpa [Node.driving] using hd
  have hout : n.outputsOn = true := by simp [Node.outputsOn, hc]
  have hcmd : poCommands n k = false := by simp [poCommands, hs]
  have happ : n.applied = true := by simp [Node.applied, Node.acq, hrun]
  simp [poPin, hl, hon, hi, hout, hcmd, happ]

theorem settle_driving (n : Node) : (settle n).driving = n.driving := by
  simp [Node.driving, Node.carries, Node.isRun, Node.islSt]

theorem settle_recOf (n : Node) (kind i : Nat) : (settle n).recOf kind i = n.recOf kind i := by simp [Node.recOf]

theorem poSafePin_low {r : Bytes} (h : poSafe r = 0) (u : PoChan) : poSafePin r u = .low := by simp [poSafePin, h]

theorem poSafePin_high {r : Bytes} (h : poSafe r = 1) (u : PoChan) : poSafePin r u = .high := by simp [poSafePin, h]

/-! ### The end of a pulse -/

theorem poPulseEnd_pulse (h : (n.poC k).pulse = true) : ((poPulseEnd k t n).poC k).pulse = decide (t < (n.poC k).pulseEnd) := by
  unfold poPulseEnd
  by_cases ht : (n.poC k).pulseEnd ≤ t
  · rw [if_pos (by simp [h, ht]), poC_modPo_same]
    simp [ht]
  · rw [if_neg (by simp [ht]), h]
    simpa using ht

theorem poPulseEnd_of_none (h : (n.poC k).pulse = false) : poPulseEnd k t n = n := if_neg (by simp [h])

end

end Sys2Proof.Machine
end

section
/-! SUPPORT. The commands of loop and pulse outputs (R246 to R266). -/

namespace Sys2Proof.Machine
open Sys2Proof

/-- Settles O31: a demand is in force by `loUpdate`, a window that ends leaves `loAfter` of its channel and publishes `loReading`, the
loss of a field supply is `loFieldLoss`; a boundary of a pulse output takes the demand by `poTake`. -/
theorem loopAndPulseOutputs : Obligations.LoopAndPulseOutputs := by
  and_intros
  -- a demand of the host
  · intro p k v s h
    refine (loDemandWrite_ends p k v h).imp fun u ⟨hack, hch⟩ => ⟨hack, ?_, fun j hj => ?_, fun hon hd hs hc => ?_, fun hd => ?_⟩
    · rw [hch, loDemandWrite_demand]
    · exact (hch j).trans (loDemandWrite_others k.val v s.node j hj)
    · rw [hch]
      exact loDemandWrite_cmd_of_driving hon hd hs hc v
    · rw [hch, loDemandWrite_cmd_of_not_driving hd]
  -- a window ends
  · intro k mean comm t s hu ha hr hon ht hm hw
    refine (loReadback_ends k mean comm hu (loDue_of ha hr hon ht)).imp fun u ⟨hdel, hch, h56, _⟩ => ?_
    obtain ⟨hacc, hat, hfield⟩ := loAfter_restarted (k := k.val) (mean := mean) (comm := comm) (t := t) (n := s.node)
    obtain ⟨q, hq⟩ := loReading_of_supplied (mean := mean) (u := loAfter k.val mean comm t s.node) hm
    rw [hch]
    refine ⟨⟨q, hq ▸ hdel⟩, hacc, hat, fun h1 => ?_, fun hd hs hl hb hh hrun => ?_⟩
    · rw [hfield, loRestarted, if_pos h1]
    · obtain ⟨hhead, hseen, hevt⟩ := loAfter_headroom (comm := comm) hd hw hs hl hb hh hrun
      exact ⟨hhead, hseen, h56 hevt⟩
  -- the field supply goes or comes back
  · intro k t s hu hon hm hc hw
    have hj : loJudged (s.node.advance t) k.val = true := loJudged_of hc hw
    refine ⟨ends_plantAt_of_eq hu (loFieldLoss_of_judged (n := s.node.advance t) hon hm hj) ⟨?_, ?_, fun ho => ?_⟩,
      ends_plantAt_of_eq hu (loFieldLoss_of_judged (n := s.node.advance t) hon hm hj) ⟨?_, ?_⟩⟩
    · rw [if_pos rfl, settle_loC, raiseIf_loC, loC_setLo_same]
    · rw [if_pos rfl, settle_loC, raiseIf_loC, loC_setLo_same]
    · refine flag_at_end 57 ?_
      rw [if_pos rfl, show ((s.node.advance t).loC k.val).opn = false from ho]
      exact raise_flag 57 _ rfl (by omega)
    · rw [if_neg Bool.false_ne_true, settle_loC, loC_setLo_same]
    · rw [if_neg Bool.false_ne_true, settle_loC, loC_setLo_same]
  -- a window without a field supply
  · intro k mean comm t s hu ha hr hon ht hm hc hw hf
    refine (loReadback_ends k mean comm hu (loDue_of ha hr hon ht)).imp fun u ⟨hdel, hch, _, _⟩ => ⟨?_, ?_⟩
    · have hdead : (loAfter k.val mean comm t s.node).fieldOk = false := by
        rw [loAfter_restarted.2.2, loRestarted, hm]
        exact hf
      rwa [loReading_of_dead hm hdead] at hdel
    · rw [hch]
      exact loAfter_open hm hc hw hf
  -- a window of a miswired channel
  · intro k mean comm t s hu ha hr hon ht hw hm
    refine (loReadback_ends k mean comm hu (loDue_of ha hr hon ht)).imp fun u ⟨hdel, _, _, hmw⟩ => ⟨?_, ?_⟩
    · rwa [loReading_of_miswired hm hw] at hdel
    · exact loPin_of_miswired (by rw [Node.miswired, hmw]; exact hw)
  -- no window ends
  · intro k mean comm t s hu h
    refine ends_plantAt_of_eq hu (loReadback_of_not_due (n := s.node.advance t) ?_) ?_
    · change loDue s.node k.val t = false
      rcases h with h | h | h | h <;> simp [loDue, loWindow, h]
    · rw [settle_lo]
      rfl
  -- the field supply where OPEN is not judged
  · intro k lost t s hu hon hm h
    have hj : loJudged (s.node.advance t) k.val = false := by
      change loJudged s.node k.val = false
      rcases h with h | h <;> simp [loJudged, h]
    refine ends_plantAt_of_eq hu (loFieldLoss_of_unjudged (n := s.node.advance t) hon hm hj) ⟨?_, ?_⟩
    · rw [settle_loC, loC_setLo_same]
      rfl
    · rw [settle_flag_other (by decide)]
      rfl
  -- the field supply of another channel
  · intro k lost t s hu h
    refine ends_plantAt_of_eq hu (loFieldLoss_of_other (n := s.node.advance t) h) ?_
    rw [settle_lo]
    rfl
  -- a boundary of a duty output
  · intro k t s hu hon hd hm hs
    rw [← poValue_of_duty hm]
    exact poPeriodBoundary_ends k t hu hon hd (by omega) (.inl (by omega)) (poLaneOff_of_other_source (by omega)) (poDemand_of_host hs)
  -- a running pulse
  · intro k t s hu h
    refine ends_plantAt hu t _ ?_
    dsimp only
    rw [settle_poC]
    exact poPulseEnd_pulse (n := s.node.advance t) h
  -- a boundary of a frequency output
  · intro k t s hu hon hd hm hs hout
    rw [← poValue_of_frequency hm]
    exact (poPeriodBoundary_ends k t hu hon hd (by omega) (.inr hout) (poLaneOff_of_other_source (by omega))
      (poDemand_of_host hs)).imp fun u ⟨ho, _⟩ => ho
  -- no boundary
  · intro k t s hu h
    refine ends_plantAt_of_eq hu (poBoundary_of_none (n := s.node.advance t) h) ?_
    rw [settle_po]
    rfl
  -- a source that is not VALID
  · intro k t s hu hon hd hm hs hq
    have h2 : poMode (s.node.recOf 0x0F k.val) ≠ 2 := by omega
    have h3 : poMode (s.node.recOf 0x0F k.val) ≠ 3 := by omega
    have htake := (poBoundary_eq_poTake (n := s.node.advance t) (.inl h2)).trans
      (poTake_of_no_demand hon hd h3 (poLaneOff_of_other_source (show poSrc (s.node.recOf 0x0F k.val) ≠ 1 by omega))
        (poDemand_of_bad_result hs hq))
    generalize hk : modPo k.val (fun u => { u with srcBad := true }) (s.node.advance t) = m at htake
    have hch : (settle m).poC k.val = { s.node.poC k.val with srcBad := true } := by
      rw [settle_poC, ← hk, poC_modPo_same]
      rfl
    have hr : (settle m).recOf 0x0F k.val = s.node.recOf 0x0F k.val := (settle_recOf m _ _).trans (hk ▸ rfl)
    have hdrv : (settle m).driving = true := (settle_driving m).trans (hk ▸ hd)
    have hlat : (settle m).dup.latched = s.node.dup.latched := (settle_dup_latched m).trans (hk ▸ rfl)
    refine ends_plantAt_of_eq hu htake ?_
    dsimp only
    refine ⟨hch, fun hl => ?_⟩
    have hpin := poPin_of_srcBad (hlat.trans hl) (by rw [hr]; exact hon) hdrv (by rw [hch])
    rw [hpin, hr]
    exact ⟨fun hlow => poSafePin_low hlow _, fun hhigh => poSafePin_high hhigh _⟩
  -- no pulse
  · intro k t s hu h
    refine ends_plantAt_of_eq hu (poPulseEnd_of_none (n := s.node.advance t) h) ?_
    rw [settle_po]
    rfl

end Sys2Proof.Machine
end

section
/-! SUPPORT. Miswiring: the bits of a channel, what becomes of it, and its reconnection (R255 to R257, R269). -/

namespace Sys2Proof.Machine
open Sys2Proof

section
variable {ch t : Nat} {n : Node}

/-! ### The bits (R255, R269) -/

theorem getLsbD_mwBit (h : ch < 128) (c : Nat) : (mwBit ch).getLsbD c = decide (c = ch) := by
  rw [mwBit, BitVec.getLsbD_ofNat]
  by_cases hc : c = ch
  · subst hc
    simp [h]
  · rw [Nat.testBit_two_pow_of_ne (Ne.symm hc), Bool.and_false, decide_eq_false hc]

theorem mwSet_miswired (h : ch < 128) (c : Nat) : (mwSet ch n).miswired c = (n.miswired c || decide (c = ch)) := by
  rw [← getLsbD_mwBit h, Node.miswired, mwSet, raise_mw]
  exact BitVec.getLsbD_or

theorem mwSet_latched (h : ch < 128) : (mwSet ch n).mw.flg.getLsbD ch = true := by
  rw [mwSet, raise_mw]
  simp [getLsbD_mwBit h]

theorem mwSet_flag_self (ch : Nat) (n : Node) : (mwSet ch n).evt.flag 40 = true := raise_flag 40 _ rfl (by omega)

theorem mwClear_miswired_self (h : ch < 128) : (mwClear ch n).miswired ch = false := by
  simp [mwClear, Node.miswired, getLsbD_mwBit h]

theorem miswired_of_mw {m : Node} (h : m.mw = n.mw) (c : Nat) : m.miswired c = n.miswired c := congrArg (fun x => x.act.getLsbD c) h

/-! ### A channel found miswired (R256) -/

/-- What is so already, and a number without a channel, is no news. -/
theorem mwDetect_of_no_news (h : 120 ≤ ch ∨ n.miswired ch = true) : mwDetect ch t n = n :=
  if_pos (by rcases h with h | h <;> simp [mwExists, h])

theorem mwDetect_of_news (he : ch < 120) (hw : n.miswired ch = false) : mwDetect ch t n
    = if 112 ≤ ch then pfMiswire (ch - 112) (mwSet ch n) else mwEffect ch t (mwSet ch n) :=
  if_neg (by simp [mwExists, he, hw])

theorem mwDetect_mw (he : ch < 120) (hw : n.miswired ch = false) : (mwDetect ch t n).mw = (mwSet ch n).mw := by
  rw [mwDetect_of_news he hw]
  split
  · exact pfMiswire_get (pt := .mw) _ _ (by decide)
  · exact mwEffect_get (pt := .mw) _ _ _ (by decide)

theorem mwDetect_raises (he : ch < 120) (hw : n.miswired ch = false) : (mwDetect ch t n).evt.flag 40 = true := by
  rw [mwDetect_of_news he hw]
  split
  · rw [pfMiswire_flag]
    exact mwSet_flag_self ch n
  · exact mwEffect_flag _ _ _ 40 (mwSet_flag_self ch n)

theorem mwEffect_ui (h : ch < 64) : ((mwEffect ch t n).uiC ch).conv = false := by
  rw [mwEffect, if_pos h, uiC_modUi_same]
  rfl

theorem mwEffect_ca (h1 : 80 ≤ ch) (h2 : ch < 96) :
    ((mwEffect ch t n).caC (ch - 80)).connected = false ∧ ((mwEffect ch t n).caC (ch - 80)).cur = none := by
  rw [mwEffect, if_neg (by omega), if_neg (by omega), if_pos h2]
  dsimp only
  rw [modCa, caC_setCa_same]
  exact ⟨rfl, rfl⟩

theorem exWant_of_miswired {k : Nat} (h : n.miswired (96 + k) = true) : (exWant n k).1 = false := by
  rw [Node.miswired] at h
  simp [exWant, h]

/-- A request leaves off a supply that is off and not wanted. -/
theorem exRequest_off {k : Nat} (hw : (exWant n k).1 = false) (h : (n.exC k).aOn = false) :
    ((exRequest k t n).exC k).aOn = false := by
  unfold exRequest
  split
  · rw [exC_modEx_same]
    exact h
  · split
    · split
      · exact h
      · rw [exC_modEx_same]
        exact h
    · rw [exApply_exC]
      exact hw

theorem mwEffect_ex (h1 : 96 ≤ ch) (h2 : ch < 112) (hw : n.miswired ch = true) : ((mwEffect ch t n).exC (ch - 96)).aOn = false := by
  rw [mwEffect, if_neg (by omega), if_neg (by omega), if_neg (by omega), if_pos h2]
  refine exRequest_off (exWant_of_miswired ?_) (by rw [exC_modEx_same])
  rw [show 96 + (ch - 96) = ch by omega]
  exact hw

/-! ### Reconnection (R256, R257) -/

theorem mwReconnect_of_no_news (h : 120 ≤ ch ∨ n.miswired ch = false) : mwReconnect ch t n = n :=
  if_pos (by rcases h with h | h <;> simp [mwExists, h])

theorem mwReconnect_of_news (he : ch < 120) (hw : n.miswired ch = true) : mwReconnect ch t n = mwRestore ch t (mwClear ch n) :=
  if_neg (by simp [mwExists, he, hw])

/-- A universal input that may convert starts again. -/
theorem mwRestore_ui (ha : n.acq = true) (hon : n.chOn 1 ch = true) (hf : (n.uiC ch).failed = false) (h : ch < 64) :
    (mwRestore ch t n).uiC ch = uiRestart t (n.uiC ch) := by
  rw [mwRestore, if_pos h, if_pos (by simp [ha, hon, hf]), uiC_modUi_same]

end

end Sys2Proof.Machine
end

section
/-! SUPPORT. The commands of miswired channels (R255 to R257). -/

namespace Sys2Proof.Machine
open Sys2Proof

/-- A command of miswiring whose operation has nothing to do leaves the bits and the channels. -/
theorem ends_mw_unchanged {s : State} {t : Nat} {f : Node → Node} (hu : s.node.up = true)
    (h : f (s.node.advance t) = s.node.advance t) :
    Ends (onNode (plantAt t f) s) (fun u => u.node.mw = s.node.mw ∧ u.node.ui = s.node.ui ∧ u.node.lo = s.node.lo) := by
  refine ends_plantAt_of_eq hu h ?_
  rw [settle_mw, settle_ui, settle_lo]
  exact ⟨rfl, rfl, rfl⟩

/-- Settles O32: detection sets the channel's bits by `mwSet`, reconnection clears the active one by `mwClear`; what then becomes of
the channel is `mwEffect` and `mwRestore` of its kind. -/
theorem miswiring : Obligations.Miswiring := by
  and_intros
  -- a channel is found miswired
  · intro ch t s hu he hw
    generalize hk : mwDetect ch.val t (s.node.advance t) = k
    have hmw : (settle k).mw = (mwSet ch.val (s.node.advance t)).mw := (settle_mw k).trans (hk ▸ mwDetect_mw he hw)
    have hbit (c : Nat) : (settle k).miswired c = (s.node.miswired c || decide (c = ch.val)) :=
      (miswired_of_mw hmw c).trans (mwSet_miswired ch.isLt c)
    have hself : (settle k).miswired ch.val = true := by simp [hbit]
    have heff (h : ch.val < 112) : k = mwEffect ch.val t (mwSet ch.val (s.node.advance t)) := by
      rw [← hk, mwDetect_of_news (n := s.node.advance t) he hw, if_neg (by omega)]
    refine ends_plantAt_of_eq hu hk ?_
    dsimp only
    refine ⟨hself, ?_, ?_, fun h => ?_, fun h1 h2 => ?_, fun h1 h2 => ?_, fun h1 h2 => ?_, fun c _ hc => ?_⟩
    · rw [hmw]
      exact mwSet_latched ch.isLt
    · rw [← hk]
      exact settle_flag _ 40 (mwDetect_raises (n := s.node.advance t) he hw)
    · rw [settle_uiC, heff (by omega)]
      exact mwEffect_ui h
    · exact loPin_of_miswired (by rw [show 64 + (ch.val - 64) = ch.val by omega]; exact hself)
    · rw [settle_caC, heff (by omega)]
      exact mwEffect_ca h1 h2
    · rw [settle_exC, heff (by omega)]
      exact mwEffect_ex h1 h2 (by simp [mwSet_miswired ch.isLt])
    · rw [hbit, decide_eq_false hc, Bool.or_false]
  -- its reconnection
  · intro ch t s hu he hw
    have hmw : (settle (mwRestore ch.val t (mwClear ch.val (s.node.advance t)))).mw = (mwClear ch.val (s.node.advance t)).mw :=
      (settle_mw _).trans (mwRestore_get (pt := .mw) _ _ _ (by decide))
    refine ends_plantAt_of_eq hu (mwReconnect_of_news (n := s.node.advance t) he hw) ?_
    dsimp only
    refine ⟨?_, ?_, fun ha hon hf h => ?_⟩
    · exact (miswired_of_mw hmw _).trans (mwClear_miswired_self ch.isLt)
    · rw [hmw]
      rfl
    · rw [settle_uiC, mwRestore_ui (n := mwClear ch.val (s.node.advance t)) ha hon hf h]
      exact ⟨rfl, rfl⟩
  -- no news
  · exact fun ch t s hu h => ends_mw_unchanged hu (mwDetect_of_no_news (n := s.node.advance t) h)
  · exact fun ch t s hu h => ends_mw_unchanged hu (mwReconnect_of_no_news (n := s.node.advance t) h)

end Sys2Proof.Machine
end

section
/-! SUPPORT. A HART master: which transaction it starts, and how one ends (R258, R261 to R263). -/

namespace Sys2Proof.Machine
open Sys2Proof

section
variable {m a t : Nat} {n : Node}

theorem hmC_modHm_same (m : Nat) (f : HartM → HartM) (n : Node) : (modHm m f n).hmC m = f (n.hmC m) := hmC_setHm_same m _ n

/-! ### The next transaction (R258, R261) -/

theorem hartSend_hmC (m a cmd : Nat) (long : Bool) (data : Bytes) (u : HartM) (n : Node) : (hartSend m a cmd long data u n).hmC m = u :=
  hmC_setHm_same m u n

/-- One due variable is read alone. -/
theorem hartPick_single (n : Node) (v : Nat) : hartPick n [v] = some (hvAddr (n.recOf 7 v), [v]) := by
  by_cases h : hvSel (n.recOf 7 v) = 4
  · simp [hartPick, h]
  · simp [hartPick, h]

theorem hartNext_of_busy (h : (n.hmC m).run ≠ .idle) : hartNext m n = n := if_pos (by simp [h])

theorem hartNext_of_pass {p : HartPass} (hr : (n.hmC m).run = .idle) (hon : n.hartOn m = true) (hp : (n.hmC m).pend = some p)
    (hi : (n.hmC m).ident.contains p.addr = true) : (hartNext m n).hmC m = { n.hmC m with run := .pass } := by
  simp only [hartNext, hr, hon, hp, hi, bne_self_eq_false, Bool.not_true, Bool.or_self, Bool.false_eq_true, if_false, if_true,
    hartSend_hmC]

theorem hartNext_of_due {vs : List Nat} (hr : (n.hmC m).run = .idle) (hon : n.hartOn m = true) (hp : (n.hmC m).pend = none)
    (hk : hartPick n (n.hmC m).due = some (a, vs)) : (hartNext m n).hmC m
      = if (n.hmC m).ident.contains a then { n.hmC m with run := .vars a vs, due := (n.hmC m).due.filter (fun v => !vs.contains v) }
        else { n.hmC m with run := .ident a } := by
  simp only [hartNext, hr, hon, hp, hk, bne_self_eq_false, Bool.not_true, Bool.or_self, Bool.false_eq_true, if_false]
  split <;> exact hartSend_hmC _ _ _ _ _ _ _

/-- A start changes nothing of the master but its transaction and what is due; without a request it starts no pass-through. -/
theorem hartNext_hmC (m : Nat) (n : Node) : ∃ r d, (hartNext m n).hmC m = { n.hmC m with run := r, due := d }
    ∧ ((n.hmC m).pend = none → (n.hmC m).run ≠ .pass → r ≠ .pass) := by
  unfold hartNext
  dsimp only
  split
  · exact ⟨_, _, rfl, fun _ h => h⟩
  · split
    next p hp =>
      have hno {r : HartRun} : (n.hmC m).pend = none → (n.hmC m).run ≠ .pass → r ≠ .pass := fun h => by simp [hp] at h
      split
      · exact ⟨_, _, hartSend_hmC _ _ _ _ _ _ _, hno⟩
      · exact ⟨_, _, hartSend_hmC _ _ _ _ _ _ _, hno⟩
    next =>
      split
      · split
        · exact ⟨_, _, hartSend_hmC _ _ _ _ _ _ _, fun _ _ => by simp⟩
        · exact ⟨_, _, hartSend_hmC _ _ _ _ _ _ _, fun _ _ => by simp⟩
      · exact ⟨_, _, rfl, fun _ h => h⟩

/-! ### A variable falls due (R261) -/

/-- Variable `v` joins the due ones of master `m`. -/
def hartAsked (m v : Nat) (n : Node) : Node :=
  modHm m (fun u => { u with due := if u.due.contains v then u.due else u.due ++ [v] }) n

theorem hartDue_of_on {v : Nat} (hr : recOn (n.recOf 7 v) = true) (hon : n.hartOn (hvMaster (n.recOf 7 v)) = true) :
    hartDue v n = hartNext (hvMaster (n.recOf 7 v)) (hartAsked (hvMaster (n.recOf 7 v)) v n) :=
  if_pos (by simp [hr, hon])

theorem hartDue_of_off {v : Nat} (h : recOn (n.recOf 7 v) = false ∨ n.hartOn (hvMaster (n.recOf 7 v)) = false) : hartDue v n = n :=
  if_neg (by rcases h with h | h <;> simp [h])

theorem hartAsked_hmC {v : Nat} (h : (n.hmC m).due.contains v = false) :
    (hartAsked m v n).hmC m = { n.hmC m with due := (n.hmC m).due ++ [v] } := by
  rw [hartAsked, hmC_modHm_same, h]
  rfl

/-- The only due variable of an idle master starts its transaction, or the identification of its device. -/
theorem hartDue_starts {v : Nat} (hr : recOn (n.recOf 7 v) = true) (hm : hvMaster (n.recOf 7 v) = m) (hon : n.hartOn m = true)
    (hrun : (n.hmC m).run = .idle) (hp : (n.hmC m).pend = none) (hd : (n.hmC m).due = []) : (hartDue v n).hmC m
      = if (n.hmC m).ident.contains (hvAddr (n.recOf 7 v)) then { n.hmC m with run := .vars (hvAddr (n.recOf 7 v)) [v] }
        else { n.hmC m with run := .ident (hvAddr (n.recOf 7 v)), due := [v] } := by
  have hch : (hartAsked m v n).hmC m = { n.hmC m with due := [v] } := by
    rw [hartAsked_hmC (by rw [hd]; rfl), hd]
    rfl
  have hpick : hartPick (hartAsked m v n) ((hartAsked m v n).hmC m).due = some (hvAddr (n.recOf 7 v), [v]) := by
    rw [hch]
    exact hartPick_single _ v
  rw [hartDue_of_on hr (hm ▸ hon), hm, hartNext_of_due (n := hartAsked m v n) (by rw [hch]; exact hrun) hon (by rw [hch]; exact hp) hpick,
    hch]
  simp [hd]

/-- Behind a transaction that runs, a variable waits. -/
theorem hartDue_waits {v : Nat} (hr : recOn (n.recOf 7 v) = true) (hm : hvMaster (n.recOf 7 v) = m) (hon : n.hartOn m = true)
    (hrun : (n.hmC m).run ≠ .idle) (hno : (n.hmC m).due.contains v = false) :
    (hartDue v n).hmC m = { n.hmC m with due := (n.hmC m).due ++ [v] } := by
  have hch := hartAsked_hmC hno
  rw [hartDue_of_on hr (hm ▸ hon), hm, hartNext_of_busy (by rw [hch]; exact hrun), hch]

/-! ### A transaction fails (R263) -/

theorem hartFail_of_vars {l : List Nat} (b : Bool) (h : (n.hmC m).run = .vars a l) : hartFail m b n
    = raiseIf (hartFailed (n.recOf 6 m) b (n.hmC m)).2 60
        (raise 59 (setHm m { (hartFailed (n.recOf 6 m) b (n.hmC m)).1 with run := .idle } n)) := by
  simp only [hartFail, h]

theorem hartFail_of_pass (b : Bool) (h : (n.hmC m).run = .pass) : hartFail m b n
    = raiseIf (hartFailed (n.recOf 6 m) b (n.hmC m)).2 60
        (hartPassEnd m (if b then 0x10 else 0x11) none (setHm m (hartFailed (n.recOf 6 m) b (n.hmC m)).1 n)) := by
  simp only [hartFail, h]

/-- A failed transaction for variables: ERR and event 59, and one failure more of its kind. -/
theorem hartFail_vars_counts {l : List Nat} (b : Bool) (h : (n.hmC m).run = .vars a l) : ((hartFail m b n).hmC m).err = true
    ∧ ((hartFail m b n).hmC m).noResp = (if b then satInc 65535 (n.hmC m).noResp else (n.hmC m).noResp)
    ∧ ((hartFail m b n).hmC m).commErr = (if b then (n.hmC m).commErr else satInc 65535 (n.hmC m).commErr)
    ∧ (hartFail m b n).evt.flag 59 = true := by
  rw [hartFail_of_vars b h, raiseIf_hmC, raise_hmC, hmC_setHm_same]
  exact ⟨rfl, rfl, rfl, raiseIf_flag _ _ _ _ (raise_flag 59 _ rfl (by omega))⟩

theorem satInc_below {mx x : Nat} (h : x < mx) : satInc mx x = x + 1 := if_pos h

theorem hartNoResp_of_busy (h : (n.hmC m).run ≠ .idle) : hartNoResp m n = hartNext m (hartFail m true n) := if_neg (by simp [h])

theorem hartNoResp_of_idle (h : (n.hmC m).run = .idle) : hartNoResp m n = n := if_pos (by simp [h])

/-! ### A pass-through ends (R264) -/

theorem hartPassEnd_hmC (m code : Nat) (resp : Option HartResp) (n : Node) :
    (hartPassEnd m code resp n).hmC m = { n.hmC m with run := .idle, pend := none } := by
  unfold hartPassEnd
  dsimp only
  split
  next hp =>
    rw [hmC_setHm_same, ← hp]
  next p hp =>
    rw [raiseIf_hmC, raise_hmC]
    refine (ChanKind.hart.chan_of_get (netAck_get _ _ _ (by decide)) m).trans ?_
    split
    · exact (ChanKind.hart.chan_of_get (mbPostMsg_get _ _ _ _ (by decide)) m).trans (hmC_setHm_same m _ n)
    · exact hmC_setHm_same m _ n

/-- The end of a request is event 58, and 59 too where it failed. -/
theorem hartPassEnd_flags {p : HartPass} (code : Nat) (resp : Option HartResp) (hp : (n.hmC m).pend = some p) :
    (hartPassEnd m code resp n).evt.flag 58 = true ∧ (code ≠ 0 → (hartPassEnd m code resp n).evt.flag 59 = true) := by
  simp only [hartPassEnd, hp]
  refine ⟨raiseIf_flag _ _ _ _ (raise_flag 58 _ rfl (by omega)), fun hc => ?_⟩
  rw [show (code != 0) = true by simpa using hc]
  exact raise_flag 59 _ rfl (by omega)

theorem hartFail_pass {p : HartPass} (b : Bool) (h : (n.hmC m).run = .pass) (hp : (n.hmC m).pend = some p) :
    ((hartFail m b n).hmC m).pend = none ∧ ((hartFail m b n).hmC m).err = true
      ∧ (hartFail m b n).evt.flag 58 = true ∧ (hartFail m b n).evt.flag 59 = true := by
  have hp' : ((setHm m (hartFailed (n.recOf 6 m) b (n.hmC m)).1 n).hmC m).pend = some p := by
    rw [hmC_setHm_same]
    exact hp
  obtain ⟨h58, h59⟩ := hartPassEnd_flags (if b then 0x10 else 0x11) none hp'
  rw [hartFail_of_pass b h, raiseIf_hmC, hartPassEnd_hmC, hmC_setHm_same]
  exact ⟨rfl, rfl, raiseIf_flag _ _ _ _ h58, raiseIf_flag _ _ _ _ (h59 (by cases b <;> decide))⟩

/-! ### A response (R261 to R264) -/

/-- The response's code and the device's status are kept. -/
def hartHeard (m : Nat) (x : HartResp) (n : Node) : Node :=
  setHm m { n.hmC m with lastRc := x.rc.toNat, devStat := x.devStat.toNat } n

/-- The device at `a` answers: its failures are forgotten and it counts as alive (R263). -/
def hartAlive (a : Nat) (u : HartM) : HartM :=
  { u with fails := tset 0 u.fails a 0, live := if u.live.contains a then u.live else u.live ++ [a] }

theorem hartAlive_contains (a : Nat) (u : HartM) : (hartAlive a u).live.contains a = true := by
  unfold hartAlive
  dsimp only
  split
  · assumption
  · simp

variable {x : HartResp}

theorem hartComplete_of_idle (h : (n.hmC m).run = .idle ∨ n.hartOn m = false) : hartComplete m x t n = n :=
  if_pos (by rcases h with h | h <;> simp [h])

theorem hartComplete_of_error (hr : (n.hmC m).run ≠ .idle) (hon : n.hartOn m = true) (he : x.isErr = true) :
    hartComplete m x t n = hartNext m (hartFail m false (hartHeard m x n)) := by
  simp [hartComplete, hr, hon, he, hartHeard]

theorem hartComplete_of_vars {vs : List Nat} (hr : (n.hmC m).run = .vars a vs) (hon : n.hartOn m = true) (he : x.isErr = false) :
    hartComplete m x t n = hartNext m (modHm m (fun u => { hartAlive a u with run := .idle })
      ((x.vals.filter (fun y => vs.contains y.1)).foldl (hartVar m t x.devStat) (hartHeard m x n))) := by
  simp [hartComplete, hr, hon, he, hartHeard, hartAlive]

theorem hartComplete_of_ident (hr : (n.hmC m).run = .ident a) (hon : n.hartOn m = true) (he : x.isErr = false) :
    hartComplete m x t n = hartNext m (modHm m (fun u => { hartAlive a u with run := .idle, ident := u.ident ++ [a] })
      (hartHeard m x n)) := by
  simp [hartComplete, hr, hon, he, hartHeard, hartAlive]

theorem hartComplete_of_pass (hr : (n.hmC m).run = .pass) (hon : n.hartOn m = true) (he : x.isErr = false) :
    hartComplete m x t n = hartNext m (hartPassEnd m 0 (some x) (modHm m (hartAlive (hartAddr (n.hmC m))) (hartHeard m x n))) := by
  simp only [hartComplete, hartHeard, hr, hon, he, Bool.not_true, Bool.or_false, Bool.false_eq_true, if_false, beq_iff_eq, reduceCtorEq]
  rfl

/-- A variable with a number and without an error is published over its scale (R262). -/
theorem hartVar_of_float {v den : Nat} {w : Word} {num : Int} {ds : Byte} (hf : floatOver w (recScale (n.recOf 7 v)) = some (num, den))
    (hd : ds.getLsbD 7 = false) : hartVar m t ds n (v, w, none)
      = complete (174 + m) v [mkEntry (0x3C00 + v * 8) (divRound num den) true false false false false] t n := by
  simp only [hartVar, hartQ, hf, hd, Bool.false_eq_true, if_false]

theorem hartHeard_hmC (m : Nat) (x : HartResp) (n : Node) :
    (hartHeard m x n).hmC m = { n.hmC m with lastRc := x.rc.toNat, devStat := x.devStat.toNat } := hmC_setHm_same m _ n

/-! ### What a response leaves (R261 to R264) -/

/-- A good response to one variable: its record, and a device alive. -/
theorem hartComplete_imports {v den : Nat} {w : Word} {num : Int} (hr : (n.hmC m).run = .vars a [v]) (hon : n.hartOn m = true)
    (he : x.isErr = false) (hv : x.vals = [(v, w, none)]) (hf : floatOver w (recScale (n.recOf 7 v)) = some (num, den))
    (hd : x.devStat.getLsbD 7 = false) :
    ((hartComplete m x t n).hmC m).live.contains a = true ∧ ((hartComplete m x t n).hmC m).lastRc = x.rc.toNat
      ∧ (hartComplete m x t n).jn.slots = (complete (174 + m) v
          [mkEntry (0x3C00 + v * 8) (divRound num den) true false false false false] t (hartHeard m x n)).jn.slots := by
  have hfilter : x.vals.filter (fun y => [v].contains y.1) = [(v, w, none)] := by simp [hv]
  rw [hartComplete_of_vars hr hon he, hfilter, List.foldl_cons, List.foldl_nil, hartVar_of_float (n := hartHeard m x n) hf hd]
  generalize hk : modHm m _ (complete _ _ _ _ _) = k
  obtain ⟨r, d, hch, _⟩ := hartNext_hmC m k
  have hslots : (hartNext m k).jn.slots = k.jn.slots := congrArg Prod.fst (hartNext_get (pt := .slots) m k (by decide))
  rw [hch, hslots, ← hk, hmC_modHm_same, complete_hmC, hartHeard_hmC]
  exact ⟨hartAlive_contains a _, rfl, rfl⟩

/-- The answer to command 0 identifies the device, whose only due variable is then read. -/
theorem hartComplete_identifies {v : Nat} (hr : (n.hmC m).run = .ident a) (hon : n.hartOn m = true) (he : x.isErr = false)
    (hp : (n.hmC m).pend = none) (hd : (n.hmC m).due = [v]) (ha : hvAddr (n.recOf 7 v) = a) :
    ((hartComplete m x t n).hmC m).ident.contains a = true ∧ ((hartComplete m x t n).hmC m).live.contains a = true
      ∧ ((hartComplete m x t n).hmC m).run = .vars a [v] := by
  rw [hartComplete_of_ident hr hon he]
  have hch := hmC_modHm_same m (fun u => { hartAlive a u with run := .idle, ident := u.ident ++ [a] }) (hartHeard m x n)
  rw [hartHeard_hmC] at hch
  generalize hk : modHm m _ (hartHeard m x n) = k at hch ⊢
  have hon' : k.hartOn m = true := hk ▸ hon
  have hpick : hartPick k (k.hmC m).due = some (a, [v]) := by
    have hkey : hvAddr (k.recOf 7 v) = a := hk ▸ ha
    rw [hch, ← hkey]
    exact (congrArg (hartPick k) hd).trans (hartPick_single k v)
  have hident : (k.hmC m).ident.contains a = true := by
    rw [hch]
    simp
  have hlive : (k.hmC m).live.contains a = true := by
    rw [hch]
    exact hartAlive_contains a _
  rw [hartNext_of_due (by rw [hch]) hon' (by rw [hch]; exact hp) hpick, if_pos hident]
  exact ⟨hident, hlive, rfl⟩

/-- The answer to a pass-through ends it, and no other follows it at once. -/
theorem hartComplete_ends_pass {p : HartPass} (hr : (n.hmC m).run = .pass) (hon : n.hartOn m = true) (he : x.isErr = false)
    (hp : (n.hmC m).pend = some p) : ((hartComplete m x t n).hmC m).pend = none ∧ ((hartComplete m x t n).hmC m).run ≠ .pass
      ∧ (hartComplete m x t n).evt.flag 58 = true ∧ ((hartComplete m x t n).hmC m).lastRc = x.rc.toNat := by
  rw [hartComplete_of_pass hr hon he]
  have hch := hmC_modHm_same m (hartAlive (hartAddr (n.hmC m))) (hartHeard m x n)
  rw [hartHeard_hmC] at hch
  generalize modHm m _ (hartHeard m x n) = k at hch ⊢
  have hpend : (k.hmC m).pend = some p := by
    rw [hch]
    exact hp
  have hend := hartPassEnd_hmC m 0 (some x) k
  obtain ⟨r, d, hnext, hno⟩ := hartNext_hmC m (hartPassEnd m 0 (some x) k)
  rw [hnext, hend, hartNext_flag]
  refine ⟨rfl, hno (by rw [hend]) (by rw [hend]; simp), (hartPassEnd_flags 0 (some x) hpend).1, ?_⟩
  rw [hch]
  rfl

/-- An error in answer to variables counts. -/
theorem hartComplete_error {l : List Nat} (hr : (n.hmC m).run = .vars a l) (hon : n.hartOn m = true) (he : x.isErr = true)
    (hlt : (n.hmC m).commErr < 65535) : ((hartComplete m x t n).hmC m).commErr = (n.hmC m).commErr + 1
      ∧ ((hartComplete m x t n).hmC m).err = true ∧ (hartComplete m x t n).evt.flag 59 = true := by
  rw [hartComplete_of_error (by simp [hr]) hon he]
  have hrun : ((hartHeard m x n).hmC m).run = .vars a l := by
    rw [hartHeard_hmC]
    exact hr
  obtain ⟨herr, _, hcnt, h59⟩ := hartFail_vars_counts false hrun
  obtain ⟨r, d, hch, _⟩ := hartNext_hmC m (hartFail m false (hartHeard m x n))
  rw [hch, hartNext_flag]
  refine ⟨hcnt.trans ?_, herr, h59⟩
  rw [hartHeard_hmC]
  exact satInc_below hlt

/-! ### No response (R263) -/

theorem hartNoResp_counts {l : List Nat} (hr : (n.hmC m).run = .vars a l) (hlt : (n.hmC m).noResp < 65535) :
    ((hartNoResp m n).hmC m).noResp = (n.hmC m).noResp + 1 ∧ ((hartNoResp m n).hmC m).err = true
      ∧ (hartNoResp m n).evt.flag 59 = true := by
  rw [hartNoResp_of_busy (by simp [hr])]
  obtain ⟨herr, hcnt, _, h59⟩ := hartFail_vars_counts true hr
  obtain ⟨r, d, hch, _⟩ := hartNext_hmC m (hartFail m true n)
  rw [hch, hartNext_flag]
  exact ⟨hcnt.trans (satInc_below hlt), herr, h59⟩

theorem hartNoResp_ends_pass {p : HartPass} (hr : (n.hmC m).run = .pass) (hp : (n.hmC m).pend = some p) :
    ((hartNoResp m n).hmC m).pend = none ∧ ((hartNoResp m n).hmC m).err = true ∧ (hartNoResp m n).evt.flag 58 = true
      ∧ (hartNoResp m n).evt.flag 59 = true := by
  rw [hartNoResp_of_busy (by simp [hr])]
  obtain ⟨r, d, hch, _⟩ := hartNext_hmC m (hartFail m true n)
  rw [hch, hartNext_flag, hartNext_flag]
  exact hartFail_pass true hr hp

end

end Sys2Proof.Machine
end

section
/-! SUPPORT. Pass-through requests of a HART master: which are heard, which are turned away, and with what code (R264). -/

namespace Sys2Proof.Machine
open Sys2Proof

section
variable {ch snd code : Nat} {n : Node}

/-- The NET engine finds a request of `snd` on channel `ch`. -/
structure HartRequested (ch snd : Nat) (n : Node) : Prop where
  engine : netId n ≠ 0
  bound : mbBinding n ch = (snd, netId n, true)
  posted : (n.mbChan ch).st = .posted
  kind : fld ((n.mbChan ch).msg.getD 0 0#32) 31 24 = 0x48

/-- Master, polling address, length or reply channel of a request lie outside their range. -/
def HartPassBad (pay : Bytes) : Prop := 31 < u8 pay 0 ∨ 63 < u8 pay 1 ∨ 48 < u8 pay 4 ∨ 31 < u8 pay 5

/-- The request that payload `pay` on channel `ch` makes. -/
def hartPassOf (ch snd : Nat) (n : Node) : HartPass :=
  let pay := msgPayload (n.mbChan ch).msg
  { ch := ch, tag := ((n.mbChan ch).msg.getD 0 0#32).toNat % 2 ^ 24, sender := snd, addr := u8 pay 1, cmd := u16 pay 2,
    data := (pay.drop 8).take (u8 pay 4), reply := u8 pay 5 }

theorem hartPassReq_of_none (h : netId n = 0 ∨ (mbBinding n ch).2 ≠ (netId n, true) ∨ (n.mbChan ch).st ≠ .posted
    ∨ fld ((n.mbChan ch).msg.getD 0 0#32) 31 24 ≠ 0x48) : hartPassReq ch n = n := by
  unfold hartPassReq
  dsimp only
  split
  · rfl
  next hreq =>
    obtain ⟨⟨⟨hb, hr⟩, hid⟩, hst⟩ : (((mbBinding n ch).2.2 = true ∧ (mbBinding n ch).2.1 = netId n) ∧ ¬netId n = 0)
        ∧ (n.mbChan ch).st = .posted := by simpa using hreq
    refine if_pos ?_
    rcases h with h | h | h | h
    · exact absurd h hid
    · exact absurd (Prod.ext hr hb) h
    · exact absurd hst h
    · simpa using h

/-- What becomes of a request, in the order of the checks. -/
theorem hartPassReq_of_request (h : HartRequested ch snd n) {pay : Bytes} (hpay : msgPayload (n.mbChan ch).msg = pay) :
    hartPassReq ch n
      = if decide (31 < u8 pay 0) || decide (63 < u8 pay 1) || decide (48 < u8 pay 4) || decide (31 < u8 pay 5) then netAck ch 0x02 n
        else if !n.hartOn (u8 pay 0) then netAck ch 0x12 n
        else if (n.hmC (u8 pay 0)).pend.isSome then netAck ch 0x13 n
        else if !((mbBinding n (u8 pay 5 % 32)).2.2 && (mbBinding n (u8 pay 5 % 32)).1 == netId n
          && (mbBinding n (u8 pay 5 % 32)).2.1 == snd) then netAck ch 0x14 n
        else hartNext (u8 pay 0) (modHm (u8 pay 0) (fun u => { u with pend := some (hartPassOf ch snd n) }) n) := by
  obtain ⟨hid, hb, hst, hk⟩ := h
  subst hpay
  simp only [hartPassReq, hb, hst, hk, beq_self_eq_true, Bool.and_self, bne_self_eq_false,
    Bool.false_eq_true, if_false, show (netId n != 0) = true by simpa using hid, Bool.not_true]
  rfl

theorem not_hartPassBad {pay : Bytes} (h : ¬HartPassBad pay) : u8 pay 5 % 32 = u8 pay 5
    ∧ (decide (31 < u8 pay 0) || decide (63 < u8 pay 1) || decide (48 < u8 pay 4) || decide (31 < u8 pay 5)) = false := by
  simp only [HartPassBad, not_or, not_lt] at h
  obtain ⟨h0, h1, h4, h5⟩ := h
  refine ⟨by omega, ?_⟩
  simp [h0, h1, h4, h5]

/-- A request that passes every check waits for its master, which starts it where it is idle. -/
theorem hartPassReq_taken (h : HartRequested ch snd n) {pay : Bytes} (hpay : msgPayload (n.mbChan ch).msg = pay) (hok : ¬HartPassBad pay)
    (hon : n.hartOn (u8 pay 0) = true) (hp : (n.hmC (u8 pay 0)).pend = none) (hr : mbBinding n (u8 pay 5) = (netId n, snd, true)) :
    hartPassReq ch n = hartNext (u8 pay 0) (modHm (u8 pay 0) (fun u => { u with pend := some (hartPassOf ch snd n) }) n) := by
  obtain ⟨hmod, hin⟩ := not_hartPassBad hok
  rw [hartPassReq_of_request h hpay, hin, hmod, hr]
  simp [hon, hp]

/-- An idle master starts the request of an identified device at once. -/
theorem hartPassReq_starts {m : Nat} (h : HartRequested ch snd n) {pay : Bytes} (hpay : msgPayload (n.mbChan ch).msg = pay)
    (hok : ¬HartPassBad pay) (hm : u8 pay 0 = m) (hon : n.hartOn m = true) (hp : (n.hmC m).pend = none) (hrun : (n.hmC m).run = .idle)
    (hr : mbBinding n (u8 pay 5) = (netId n, snd, true)) (hi : (n.hmC m).ident.contains (u8 pay 1) = true) :
    (hartPassReq ch n).hmC m = { n.hmC m with run := .pass, pend := some (hartPassOf ch snd n) } := by
  have hch := hmC_modHm_same m (fun u => { u with pend := some (hartPassOf ch snd n) }) n
  have haddr : (hartPassOf ch snd n).addr = u8 pay 1 := by rw [← hpay]; rfl
  subst hm
  rw [hartPassReq_taken h hpay hok hon hp hr]
  generalize hk : modHm (u8 pay 0) _ n = k at hch ⊢
  have hon' : k.hartOn (u8 pay 0) = true := hk ▸ hon
  rw [hartNext_of_pass (p := hartPassOf ch snd n) (by rw [hch]; exact hrun) hon' (by rw [hch]) (by rw [hch, haddr]; exact hi), hch]

/-- A request that fails a check is acknowledged with the first one's code. -/
theorem hartPassReq_refused (h : HartRequested ch snd n) {pay : Bytes} (hpay : msgPayload (n.mbChan ch).msg = pay)
    (hc : HartPassBad pay ∧ code = 0x02 ∨ ¬HartPassBad pay ∧ n.hartOn (u8 pay 0) = false ∧ code = 0x12
      ∨ ¬HartPassBad pay ∧ n.hartOn (u8 pay 0) = true ∧ (n.hmC (u8 pay 0)).pend ≠ none ∧ code = 0x13
      ∨ ¬HartPassBad pay ∧ n.hartOn (u8 pay 0) = true ∧ (n.hmC (u8 pay 0)).pend = none
        ∧ mbBinding n (u8 pay 5) ≠ (netId n, snd, true) ∧ code = 0x14) :
    hartPassReq ch n = netAck ch code n ∧ code < 128 := by
  rw [hartPassReq_of_request h hpay]
  rcases hc with ⟨hbad, rfl⟩ | ⟨hok, hon, rfl⟩ | ⟨hok, hon, hp, rfl⟩ | ⟨hok, hon, hp, hr, rfl⟩
  · refine ⟨if_pos ?_, by omega⟩
    simpa [HartPassBad, or_assoc] using hbad
  · rw [(not_hartPassBad hok).2, hon]
    exact ⟨rfl, by omega⟩
  · rw [(not_hartPassBad hok).2, hon, Option.isSome_iff_ne_none.mpr hp]
    exact ⟨rfl, by omega⟩
  · obtain ⟨hmod, hin⟩ := not_hartPassBad hok
    have hno : ((mbBinding n (u8 pay 5)).2.2 && (mbBinding n (u8 pay 5)).1 == netId n && (mbBinding n (u8 pay 5)).2.1 == snd) = false := by
      refine Bool.eq_false_iff.mpr fun hall => hr ?_
      obtain ⟨⟨hb, hs⟩, hv⟩ : ((mbBinding n (u8 pay 5)).2.2 = true ∧ (mbBinding n (u8 pay 5)).1 = netId n)
          ∧ (mbBinding n (u8 pay 5)).2.1 = snd := by simpa using hall
      exact Prod.ext hs (Prod.ext hv hb)
    rw [hin, hon, hp, hmod, hno]
    exact ⟨rfl, by omega⟩

/-! ### The acknowledgement (R148) -/

theorem ackWord_code (h : code < 128) : fld (wd (2 ^ 31 + code * 2 ^ 24)) 30 24 = code := by
  simp [fld, wd]
  omega

theorem ackWord_ack (h : code < 128) : bitOf (wd (2 ^ 31 + code * 2 ^ 24)) 31 = true := by
  rw [bitOf, wd, BitVec.getLsbD_ofNat]
  simp [Nat.testBit, Nat.shiftRight_eq_div_pow]
  omega

/-- The request on its channel is acknowledged with the code. -/
theorem netAck_mbChan (h : HartRequested ch snd n) (hc : code < 128) :
    (netAck ch code n).mbChan ch = { n.mbChan ch with st := .acked, ack := true, code := code } := by
  rw [netAck, mbAck_acks h.bound h.posted (ackWord_ack hc), tell_mbChan, if_pos rfl, MbChan.acked, ackWord_code hc]

end

end Sys2Proof.Machine
end

section
/-! SUPPORT. The commands of the HART masters (R258 to R264). -/

namespace Sys2Proof.Machine
open Sys2Proof

/-- A command that finds nothing to do leaves the masters. -/
theorem ends_hart_unchanged {s : State} {t : Nat} {f : Node → Node} (hu : s.node.up = true)
    (h : f (s.node.advance t) = s.node.advance t) : Ends (onNode (plantAt t f) s) (fun u => u.node.hart = s.node.hart) := by
  refine ends_plantAt_of_eq hu h ?_
  rw [settle_hart]
  rfl

/-- A completed record of any target, left in its slot by what followed, stands at the end of the command. -/
theorem delivers_of_slots {s : State} {k m : Node} {p g t : Nat} {es : List Entry} (hp : p < 118 ∨ 126 ≤ p)
    (hk : k.jn.slots = (complete p g es t m).jn.slots) (hm : m.jn = s.node.jn) : Delivers s { s with node := settle k } p g t es := by
  have hslot := complete_mem_slots p g es t m
  rw [← hk, hm] at hslot
  have hstands := settle_slot k _ hslot hp
  unfold Delivers
  dsimp only
  exact hstands

/-- Settles O33: a due variable is `hartAsked` of its master, a response `hartHeard`, a failure `hartFail`; after each `hartNext` starts
what is next. A request is taken or turned away by `hartPassReq_taken` and `hartPassReq_refused`. -/
theorem hartMasters : Obligations.HartMasters := by
  and_intros
  -- a variable falls due
  · intro v t s hu hr hon
    dsimp only
    refine ⟨fun hrun hp hd hi => ?_, fun hrun hno => ?_, fun hrun hp hd hi => ?_⟩
    · have hch := (hartDue_starts (n := s.node.advance t) hr rfl hon hrun hp hd).trans (if_pos hi)
      refine ends_plantAt hu t _ ?_
      dsimp only
      rw [settle_hmC]
      exact ⟨congrArg HartM.run hch, (congrArg HartM.due hch).trans hd⟩
    · have hch := hartDue_waits (n := s.node.advance t) hr rfl hon (fun h => absurd (hrun.symm.trans h) (by decide)) hno
      refine ends_plantAt hu t _ ?_
      dsimp only
      rw [settle_hmC]
      exact ⟨(congrArg HartM.run hch).trans hrun, congrArg HartM.due hch⟩
    · have hch := (hartDue_starts (n := s.node.advance t) hr rfl hon hrun hp hd).trans
        (if_neg (fun h => absurd (hi.symm.trans h) (by decide)))
      refine ends_plantAt hu t _ ?_
      dsimp only
      rw [settle_hmC]
      exact ⟨congrArg HartM.run hch, congrArg HartM.due hch⟩
  -- a response to variables
  · intro m a v w x num den t s hu hon hrun he hv hf hd
    obtain ⟨hlive, hrc, hslots⟩ := hartComplete_imports (t := t) (n := s.node.advance t) hrun hon he hv hf hd
    refine ends_plantAt hu t _ ⟨delivers_of_slots (.inr (by omega)) hslots rfl, ?_⟩
    dsimp only
    rw [settle_hmC]
    exact ⟨hlive, hrc⟩
  -- no response to variables
  · intro m a l t s hu hrun hlt
    obtain ⟨hcnt, herr, h59⟩ := hartNoResp_counts (n := s.node.advance t) hrun hlt
    refine ends_plantAt hu t _ ?_
    dsimp only
    rw [settle_hmC]
    exact ⟨hcnt, herr, settle_flag _ 59 h59⟩
  -- a request that its idle master takes
  · intro ch snd t s hu hid hb hst hk
    dsimp only
    intro h0 h1 h4 h5 hon hp hrun hr hi
    have hok : ¬HartPassBad (msgPayload (s.node.mbChan ch.val).msg) := by
      unfold HartPassBad
      omega
    have hch := hartPassReq_starts (n := s.node.advance t) ⟨hid, hb, hst, hk⟩ rfl hok rfl hon hp hrun hr hi
    refine ends_plantAt hu t _ ?_
    dsimp only
    rw [settle_hmC]
    exact ⟨congrArg HartM.run hch, _, congrArg HartM.pend hch, rfl, rfl, rfl, rfl⟩
  -- a variable of a master that is off
  · exact fun v t s hu h => ends_hart_unchanged hu (hartDue_of_off (n := s.node.advance t) h)
  -- a device is identified, and its variable read
  · intro m a v x t s hu hon hrun hp hd ha he
    refine ends_plantAt hu t _ ?_
    dsimp only
    rw [settle_hmC]
    exact hartComplete_identifies (n := s.node.advance t) hrun hon he hp hd ha
  -- a response to a pass-through
  · intro m p x t s hu hon hrun hp he
    obtain ⟨hpend, hno, h58, hrc⟩ := hartComplete_ends_pass (t := t) (n := s.node.advance t) hrun hon he hp
    refine ends_plantAt hu t _ ?_
    dsimp only
    rw [settle_hmC]
    exact ⟨hpend, hno, settle_flag _ 58 h58, hrc⟩
  -- an error in answer to variables
  · intro m a l x t s hu hon hrun he hlt
    obtain ⟨hcnt, herr, h59⟩ := hartComplete_error (t := t) (n := s.node.advance t) hrun hon he hlt
    refine ends_plantAt hu t _ ?_
    dsimp only
    rw [settle_hmC, settle_jn_store]
    exact ⟨hcnt, herr, settle_flag _ 59 h59, hartComplete_get (pt := .store) _ _ _ _ (by decide)⟩
  -- a response without a transaction
  · exact fun m x t s hu h => ends_hart_unchanged hu (hartComplete_of_idle (n := s.node.advance t) h)
  -- no response to a pass-through
  · intro m p t s hu hrun hp
    obtain ⟨hpend, herr, h58, h59⟩ := hartNoResp_ends_pass (n := s.node.advance t) hrun hp
    refine ends_plantAt hu t _ ?_
    dsimp only
    rw [settle_hmC]
    exact ⟨hpend, herr, settle_flag _ 58 h58, settle_flag _ 59 h59⟩
  -- no response without a transaction
  · exact fun m t s hu h => ends_hart_unchanged hu (hartNoResp_of_idle (n := s.node.advance t) h)
  -- a request that is turned away
  · intro ch snd code t s hu hid hb hst hk
    dsimp only
    intro hc
    have hreq : HartRequested ch.val snd (s.node.advance t) := ⟨hid, hb, hst, hk⟩
    obtain ⟨heq, hlt⟩ := hartPassReq_refused hreq rfl hc
    refine ends_plantAt_of_eq hu heq ?_
    rw [settle_mbChan, settle_hart, netAck_mbChan hreq hlt]
    exact ⟨rfl, rfl, rfl, netAck_get (pt := .hart) _ _ _ (by decide)⟩
  -- no request
  · intro ch t s hu h
    refine ends_plantAt_of_eq hu (hartPassReq_of_none (n := s.node.advance t) h) ?_
    rw [settle_hart, settle_mbx]
    exact ⟨rfl, rfl⟩

end Sys2Proof.Machine
end

section
/-! SUPPORT. The pins of the digital outputs: what R282 reads, how one output is decided, and that every pin stands as R282 decides
it once the plant has followed a command. -/

namespace Sys2Proof.Machine
open Sys2Proof

/-! ### What R282 reads -/

/-- What R282 reads of the module beside the output itself. -/
structure PinRule where
  ld : Loader
  il : Interlock
  latched : Bool
  outputsOn : Bool
  inForce : Bool
  running : Bool

def Node.pinRule (n : Node) : PinRule := ⟨n.ld, n.il, n.dup.latched, n.outputsOn, n.inForce, n.running⟩

/-- An output apart from its pin and what is remembered of the pin. -/
def DoChan.asked (u : DoChan) : DoChan := { u with on := false, driven := false, chgAt := 0 }

/-- What the plant's own work does not write of an output is the same where the outputs agree apart from it. -/
theorem DoChan.eq_of_core {α : Type} {u w : DoChan} (g : DoChan → α) (h : u.core = w.core)
    (hg : ∀ x : DoChan, g x.core = g x := by exact fun _ => rfl) : g u = g w := by
  rw [← hg, h, hg]

/-- The rows of R282 below the hold latch. -/
def doFree (n : Node) (k : Nat) : Bool :=
  if !n.outputsOn || (n.doC k).overload || (n.doC k).overtemp then false
  else if ilDo n k false then false
  else if ilDo n k true then true
  else doAsk n k

section
variable {n m : Node} {k : Nat}

theorem doWant_eq (n : Node) (k : Nat) :
    doWant n k = if n.dup.latched then (n.doC k).on && doSrc (n.recOf 0x0A k) != 3 else doFree n k := rfl

theorem doWant_of_overload (hl : n.dup.latched = false) (h : (n.doC k).overload = true) : doWant n k = false := by
  simp [doWant, hl, h]

theorem doWant_of_overtemp (hl : n.dup.latched = false) (h : (n.doC k).overtemp = true) : doWant n k = false := by
  simp [doWant, hl, h]

theorem recOf_of_ld (h : m.ld = n.ld) (kind i : Nat) : m.recOf kind i = n.recOf kind i := by rw [Node.recOf, h, ← Node.recOf]

theorem il_of_parts (h : Part.get m .il = Part.get n .il) (hr : m.il.refused = n.il.refused) : m.il = n.il := by
  have h' := congrArg (fun x : Interlock => { x with refused := n.il.refused }) h
  calc m.il = { m.il with refused := n.il.refused } := by rw [← hr]
    _ = n.il := h'

theorem doC_of_digOut (h : Part.get m .digOut = Part.get n .digOut) (k : Nat) : m.doC k = n.doC k :=
  congrArg (fun d : Table DoChan => tget ({} : DoChan) d k) (Prod.mk.inj h).1

theorem Follows.outputsOn (h : Follows n m) : m.outputsOn = n.outputsOn := by
  simp [Node.outputsOn, Node.carries, h.dup_role, h.dup_unreleased]

/-- RUN and DEGRADED both run an image; every other state stands. -/
theorem Follows.applied (h : Follows n m) : m.applied = n.applied := by
  obtain ⟨hrun, hdev⟩ := h.mode
  cases hn : n.running with
  | true => simp [Node.applied, Node.acq, hrun, hn]
  | false => simp [Node.applied, Node.acq, hrun, hn, hdev hn]

theorem Follows.inForce (h : Follows n m) : m.inForce = n.inForce := by
  simp [Node.inForce, Node.isRun, Node.islSt, h.isl, h.applied, h.ld]

/-- Of what R282 reads the plant's own work changes the interlock terms alone. -/
theorem Follows.pinRule (h : Follows n m) : m.pinRule = { n.pinRule with il := m.il } := by
  simp [Node.pinRule, h.ld, h.dup_latched, h.outputsOn, h.inForce, h.mode.1]

theorem Follows.pinRule_of_il (h : Follows n m) (hil : m.il = n.il) : m.pinRule = n.pinRule := by
  rw [h.pinRule, hil]
  rfl

theorem ilDo_of_pinRule (h : m.pinRule = n.pinRule) (on : Bool) : ilDo m k on = ilDo n k on := by
  obtain ⟨hld, hil, _, _, hforce, _⟩ := PinRule.mk.inj h
  simp [ilDo, ilForces, Node.terms, Node.recs, hld, hil, hforce]

theorem doAsk_congr (h : m.pinRule = n.pinRule) (hu : (m.doC k).asked = (n.doC k).asked) : doAsk m k = doAsk n k := by
  obtain ⟨hld, _, _, _, hforce, hrun⟩ := PinRule.mk.inj h
  have hask (x : Node) : doAsk x k = doAsk (setDo k (x.doC k).asked x) k := by
    simp only [doAsk, doCommand, doSafeVal, doC_setDo_same]
    rfl
  have hset (u : DoChan) : doAsk (setDo k u m) k = doAsk (setDo k u n) k := by
    have hr : (setDo k u m).recOf 0x0A k = (setDo k u n).recOf 0x0A k := recOf_of_ld hld 0x0A k
    have hf : (setDo k u m).inForce = (setDo k u n).inForce := hforce
    have hm : (setDo k u m).running = (setDo k u n).running := hrun
    simp only [doAsk, doCommand, doC_setDo_same, hr, hf, hm]
  rw [hask m, hask n, hu, hset]

theorem doFree_congr (h : m.pinRule = n.pinRule) (hu : (m.doC k).asked = (n.doC k).asked) : doFree m k = doFree n k := by
  have hov : (m.doC k).overload = (n.doC k).overload := (congrArg DoChan.overload hu :)
  have hot : (m.doC k).overtemp = (n.doC k).overtemp := (congrArg DoChan.overtemp hu :)
  have hon : m.outputsOn = n.outputsOn := congrArg PinRule.outputsOn h
  simp only [doFree, hov, hot, hon, ilDo_of_pinRule h, doAsk_congr h hu]

theorem doWant_congr (h : m.pinRule = n.pinRule) (hu : m.doC k = n.doC k) : doWant m k = doWant n k := by
  have hl : m.dup.latched = n.dup.latched := congrArg PinRule.latched h
  rw [doWant_eq, doWant_eq, doFree_congr h (congrArg DoChan.asked hu), hu, hl, recOf_of_ld (congrArg PinRule.ld h)]

/-- A lane that is OFF or does not run commands nothing, so that the held value is not read. -/
theorem doCommanded_congr (h : m.pinRule = n.pinRule) (hu : (m.doC k).core = (n.doC k).core) (hws : (m.doC k).ws = (n.doC k).ws) :
    doCommanded m k = doCommanded n k := by
  have hr : m.recOf 0x0A k = n.recOf 0x0A k := recOf_of_ld (congrArg PinRule.ld h) 0x0A k
  have hrun : m.running = n.running := congrArg PinRule.running h
  have hlane : (m.doC k).laneOff = (n.doC k).laneOff := DoChan.eq_of_core DoChan.laneOff hu
  have hcmd : (m.doC k).cmd = (n.doC k).cmd := DoChan.eq_of_core DoChan.cmd hu
  have htp : (m.doC k).tpOn = (n.doC k).tpOn := DoChan.eq_of_core DoChan.tpOn hu
  have hpulse : (m.doC k).pulse = (n.doC k).pulse := DoChan.eq_of_core DoChan.pulse hu
  simp only [doCommanded, doLaneSafe, doCommand, hr, hrun, hlane, hcmd, htp, hpulse, hws]
  by_cases hs : doSrc (n.recOf 0x0A k) = 1
  · cases hoff : (n.doC k).laneOff <;> simp [hs]
  · split
    · rfl
    · next h => exact absurd h hs
    · rfl
    · rfl

end

/-! ### One output is decided (R95, R282, R283) -/

/-- OVERLOAD is let go: nothing commands or forces the output, and it did not arise while forced on (R283). -/
def doReleases (n : Node) (k : Nat) : Bool := !(n.doC k).ovlForced && !doCommanded n k && !ilDo n k true && !ilDo n k false

section
variable {n m : Node} {k j : Nat}

/-- An output as the safe state comes to apply: HOLD takes its pin (R95). -/
def doHeld (n : Node) (k : Nat) : DoChan :=
  if n.dig.driving && !n.driving && (n.doC k).driven then { n.doC k with held := some (n.doC k).on } else n.doC k

/-- An output as R282 is asked about it: HOLD and OVERLOAD are up to date. -/
def doReady (n : Node) (k : Nat) : DoChan :=
  if (n.doC k).overload && !(n.doC k).ovlForced && !doCommanded n k && !ilDo n k true && !ilDo n k false
  then { doHeld n k with overload := false } else doHeld n k

theorem doHeld_keeps (n : Node) (k : Nat) : (doHeld n k).core = (n.doC k).core ∧ (doHeld n k).ws = (n.doC k).ws
    ∧ (doHeld n k).on = (n.doC k).on ∧ (doHeld n k).overload = (n.doC k).overload := by
  unfold doHeld
  split <;> exact ⟨rfl, rfl, rfl, rfl⟩

theorem doReady_keeps (n : Node) (k : Nat) : (doReady n k).core = (n.doC k).core ∧ (doReady n k).ws = (n.doC k).ws
    ∧ (doReady n k).on = (n.doC k).on ∧ (doReady n k).overload = ((n.doC k).overload && !doReleases n k) := by
  obtain ⟨hcore, hws, hon, hov⟩ := doHeld_keeps n k
  unfold doReady
  split
  · next h =>
    refine ⟨hcore, hws, hon, ?_⟩
    have hrel : doReleases n k = true := by simp_all [doReleases]
    rw [hrel, Bool.not_true, Bool.and_false]
  · next h =>
    refine ⟨hcore, hws, hon, hov.trans ?_⟩
    cases ho : (n.doC k).overload
    · rfl
    · have hrel : doReleases n k = false := by simpa [doReleases, ho] using h
      rw [hrel]
      rfl

theorem doStep_eq (n : Node) (k : Nat) : doStep n k
    = recOccIf (doWant (setDo k (doReady n k) n) k && !(n.doC k).on) 1 k
        (setDo k (if doWant (setDo k (doReady n k) n) k == (n.doC k).on
          then { doReady n k with driven := (doReady n k).driven || (n.driving && n.chOn 0x0A k) }
          else { doReady n k with driven := (doReady n k).driven || (n.driving && n.chOn 0x0A k),
                                  on := doWant (setDo k (doReady n k) n) k, chgAt := n.now }) n) := rfl

/-- An output's step gives it the pin that R282 decides of `doReady`. -/
theorem doStep_doC (n : Node) (k : Nat) : ∃ (d : Bool) (c : Nat),
    (doStep n k).doC k = { doReady n k with on := doWant (setDo k (doReady n k) n) k, driven := d, chgAt := c } := by
  obtain ⟨_, _, hon, _⟩ := doReady_keeps n k
  rw [doStep_eq, recOccIf_doC, doC_setDo_same]
  split
  · next h => exact ⟨(doReady n k).driven || (n.driving && n.chOn 0x0A k), (doReady n k).chgAt, by rw [eq_of_beq h, ← hon]⟩
  · exact ⟨_, _, rfl⟩

theorem doStep_others (n : Node) (h : j ≠ k) : (doStep n k).doC j = n.doC j := by
  rw [doStep_eq, recOccIf_doC, doC_setDo, if_neg h]

theorem doStep_pinRule (n : Node) (k : Nat) : (doStep n k).pinRule = n.pinRule :=
  (doStep_follows n k).pinRule_of_il (il_of_parts (doStep_get (pt := .il) n k (by decide)) (doStep_follows n k).il_refused)

theorem doStep_overload (n : Node) (k : Nat) : ((doStep n k).doC k).overload = ((n.doC k).overload && !doReleases n k) := by
  obtain ⟨d, c, h⟩ := doStep_doC n k
  obtain ⟨_, _, _, hov⟩ := doReady_keeps n k
  rw [h]
  exact hov

theorem doStep_ws (n : Node) (k : Nat) : ((doStep n k).doC k).ws = (n.doC k).ws := by
  obtain ⟨d, c, h⟩ := doStep_doC n k
  obtain ⟨_, hws, _, _⟩ := doReady_keeps n k
  rw [h]
  exact hws

/-- The pin that a step sets is the one R282 decides after it: the rule does not read the pin, but to hold it. -/
theorem doStep_pin (n : Node) (k : Nat) : ((doStep n k).doC k).on = doWant (doStep n k) k := by
  obtain ⟨d, c, h⟩ := doStep_doC n k
  generalize hm : setDo k (doReady n k) n = m at h
  have hch : m.doC k = doReady n k := hm ▸ doC_setDo_same k _ n
  have hrule : (doStep n k).pinRule = m.pinRule := (doStep_pinRule n k).trans (hm ▸ rfl)
  have hasked : ((doStep n k).doC k).asked = (m.doC k).asked := by rw [h, hch]; rfl
  have hl : (doStep n k).dup.latched = m.dup.latched := congrArg PinRule.latched hrule
  have hon : ((doStep n k).doC k).on = doWant m k := by rw [h]
  rw [doWant_eq (doStep n k), doFree_congr hrule hasked, hl, recOf_of_ld (congrArg PinRule.ld hrule), hon, doWant_eq m]
  split
  · rw [Bool.and_assoc, Bool.and_self]
  · rfl

end

/-! ### All of them are (R282) -/

section
variable {n : Node} {k : Nat}

/-- Among the 32 outputs `k` is decided once, by its own step, from what it was. -/
theorem doSync_decides (n : Node) (hk : k < 32) :
    ∃ a : Node, a.pinRule = n.pinRule ∧ a.doC k = n.doC k ∧ (doSync n).doC k = (doStep a k).doC k := by
  have hvisit : ∃ a : Node, a.pinRule = n.pinRule ∧ a.doC k = n.doC k
      ∧ ((List.range 32).foldl doStep n).doC k = (doStep a k).doC k := by
    refine foldl_visit (P := fun a : Node => a.pinRule = n.pinRule ∧ a.doC k = n.doC k)
      (Q := fun b : Node => ∃ a : Node, a.pinRule = n.pinRule ∧ a.doC k = n.doC k ∧ b.doC k = (doStep a k).doC k) ?_ ?_ ?_
      (List.mem_range.mpr hk) List.nodup_range ⟨rfl, rfl⟩
    · exact fun a x hx ⟨hrule, hch⟩ => ⟨(doStep_pinRule a x).trans hrule, (doStep_others a (Ne.symm hx)).trans hch⟩
    · exact fun a ⟨hrule, hch⟩ => ⟨a, hrule, hch, rfl⟩
    · exact fun b x hx ⟨a, hrule, hch, h⟩ => ⟨a, hrule, hch, (doStep_others b (Ne.symm hx)).trans h⟩
  obtain ⟨a, hrule, hch, h⟩ := hvisit
  refine ⟨a, hrule, hch, Eq.trans ?_ h⟩
  unfold doSync
  generalize (List.range 32).foldl doStep n = m
  refine List.foldlRecOn (motive := fun w : Node => w.doC k = m.doC k) _ _ rfl fun w hw f _ => ?_
  dsimp only
  split <;> exact hw

theorem doSync_pinRule (n : Node) : (doSync n).pinRule = n.pinRule :=
  (doSync_follows n).pinRule_of_il (il_of_parts (doSync_get (pt := .il) n (by decide)) (doSync_follows n).il_refused)

theorem doSync_pin (n : Node) (hk : k < 32) : ((doSync n).doC k).on = doWant (doSync n) k := by
  obtain ⟨a, hrule, _, h⟩ := doSync_decides n hk
  rw [h, doStep_pin]
  exact (doWant_congr ((doSync_pinRule n).trans (((doStep_pinRule a k).trans hrule).symm)) h).symm

theorem doSync_overload (n : Node) (hk : k < 32) : ((doSync n).doC k).overload = ((n.doC k).overload && !doReleases n k) := by
  obtain ⟨a, hrule, hch, h⟩ := doSync_decides n hk
  have hrel : doReleases a k = doReleases n k := by
    simp only [doReleases, hch, ilDo_of_pinRule hrule, doCommanded_congr hrule (congrArg DoChan.core hch) (congrArg DoChan.ws hch)]
  rw [h, doStep_overload, hrel, hch]

theorem doSync_ws (n : Node) (hk : k < 32) : ((doSync n).doC k).ws = (n.doC k).ws := by
  obtain ⟨a, _, hch, h⟩ := doSync_decides n hk
  rw [h, doStep_ws, hch]

end

/-! ### What follows the outputs reaches neither them nor the interlock terms -/

/-- Input states, interlock terms and station signals are up to date, and the outputs are next. -/
def beforePins (n : Node) : Node := wsSync (ilEval (diSync n))

theorem degradeSync_get {pt : Part} (n : Node) (hpt : pt ∉ [.devState, .dupSent, .evt, .rcd]) :
    Part.get (degradeSync n) pt = Part.get n pt := by
  unfold degradeSync
  split
  · rw [get_ite, enter_get _ _ hpt, ite_self]
  · rw [get_ite, enter_get _ _ hpt, ite_self]
  · rfl

theorem recFlush_get {pt : Part} (n : Node) (hpt : pt ∉ [.dupSent, .evt, .mram, .rcd]) :
    Part.get (recFlush n) pt = Part.get n pt := by
  have hone (m : Node) (x : Nat × Nat × Option Bytes) : Part.get (recOne m x) pt = Part.get m pt := by
    rw [recOne, get_ite, recPlace_get _ _ _ _ hpt, recDrop_get _ hpt, ite_self]
  have hcount (m : Node) (x : Nat × Nat) : Part.get (countOcc x.1 x.2 m) pt = Part.get m pt :=
    countOcc_get _ _ m (by simp_all)
  have hempty : Part.get { n with rcd.due := [], rcd.occ := [] } pt = Part.get n pt := get_upd_rcd n _ (by simp_all)
  unfold recFlush
  rw [get_ite]
  dsimp only
  rw [get_foldl _ _ _ hcount, get_foldl _ _ _ hone, hempty, ite_self]

theorem outFlush_get {pt : Part} (n : Node) (hpt : pt ∉ [.dupSent, .tx]) : Part.get (outFlush n) pt = Part.get n pt := by
  unfold outFlush
  rw [get_ite, get_foldl, ite_self]
  intro m x
  have hsend (f : Node) : Part.get { f with dup.sent := tset 0#32 m.dup.sent x.1 x.2 } pt = Part.get f pt := by
    refine get_upd_dup f _ (.inr rfl) (.inl ?_)
    simp_all
  dsimp only
  rw [get_ite, hsend, sendFrame_get _ _ _ _ (by simp_all), ite_self]

theorem alertFlush_get {pt : Part} (n : Node) (hpt : pt ∉ [.almDue, .netAlerts, .tx]) : Part.get (alertFlush n) pt = Part.get n pt := by
  have hsend (a : AlertRef) (m : Node) : Part.get (sendAlf a m) pt = Part.get m pt := sendAlf_get a m (by simp_all)
  have hdue (m : Node) : Part.get { m with alm.alfDue := [] } pt = Part.get m pt :=
    get_upd_alm m _ (.inr rfl) (.inl (by simp_all))
  have hstamp (i : Nat) (m : Node) : Part.get (alertStamp i m) pt = Part.get m pt := alertStamp_get i m (by simp_all)
  have hcall (m : Node) (s : Nat) : Part.get (callStamp m s) pt = Part.get m pt := callStamp_get m s (by simp_all)
  unfold alertFlush
  dsimp only
  generalize hk : (List.range 16).foldl callStamp ((n.alm.alfDue.map (·.1)).dedup.foldl (fun m i => alertStamp (10000 + i) m) n) = k
  have h0 : Part.get k pt = Part.get n pt := by rw [← hk, get_foldl _ _ _ hcall, get_foldl _ _ _ fun m i => hstamp _ m]
  have hcalls (m : Node) (s : Fin 16) :
      Part.get (if stnNet (m.stn s.val) && alertChanged m (.call s) then sendAlf (.call s) m else m) pt = Part.get m pt := by
    rw [get_ite, hsend, ite_self]
  have hpoints (m : Node) (i : Nat) : Part.get (if h : i < 4096 then
      (if alertChanged m (.point ⟨i, h⟩) then sendAlf (.point ⟨i, h⟩) m else m) else m) pt = Part.get m pt := by
    split
    · rw [get_ite, hsend, ite_self]
    · rfl
  simp only [get_ite, get_foldl _ _ _ hcalls, get_foldl _ _ _ hpoints, hdue, h0, ite_self]

/-- Once the outputs are decided, the rest of the plant's work reaches neither them nor the interlock terms. -/
theorem settle_get_pins {pt : Part} (n : Node) (hpt : pt = .digOut ∨ pt = .il) :
    Part.get (settle n) pt = Part.get (doSync (beforePins n)) pt := by
  have hne (ps : List Part) (h : Part.digOut ∉ ps ∧ Part.il ∉ ps) : pt ∉ ps := by
    rcases hpt with rfl | rfl
    · exact h.1
    · exact h.2
  unfold settle fieldSync
  rw [alertFlush_get _ (hne _ (by decide)), outFlush_get _ (hne _ (by decide)), recFlush_get _ (hne _ (by decide)),
    degradeSync_get _ (hne _ (by decide)), svSync_get _ (hne _ (by decide))]
  rfl

theorem settle_doC_eq (n : Node) (k : Nat) : (settle n).doC k = (doSync (beforePins n)).doC k :=
  doC_of_digOut (settle_get_pins n (.inl rfl)) k

theorem beforePins_follows (n : Node) : Follows n (beforePins n) :=
  ((diSync_follows n).trans (ilEval_follows _)).trans (wsSync_follows _)

theorem settle_il (n : Node) : (settle n).il = (ilEval (diSync n)).il := by
  have hr : (settle n).il.refused = (ilEval (diSync n)).il.refused :=
    (settle_follows n).il_refused.trans ((diSync_follows n).trans (ilEval_follows _)).il_refused.symm
  refine il_of_parts ?_ hr
  rw [settle_get_pins n (.inr rfl), doSync_get _ (by decide), beforePins, wsSync_get _ (by decide)]

theorem wsSync_il (n : Node) : (wsSync n).il = n.il :=
  il_of_parts (wsSync_get n (by decide)) (wsSync_follows n).il_refused

theorem settle_pinRule (n : Node) : (settle n).pinRule = (beforePins n).pinRule := by
  have hil : (beforePins n).il = (settle n).il := (wsSync_il _).trans (settle_il n).symm
  rw [(settle_follows n).pinRule, (beforePins_follows n).pinRule, hil]

theorem diSync_doC (n : Node) (k : Nat) : (diSync n).doC k = n.doC k := by
  unfold diSync
  refine List.foldlRecOn (motive := fun w : Node => w.doC k = n.doC k) _ _ rfl fun w hw g _ => ?_
  dsimp only
  split <;> exact hw

theorem wsSync_overload (n : Node) (k : Nat) : ((wsSync n).doC k).overload = (n.doC k).overload := by
  unfold wsSync
  split
  · rfl
  · refine List.foldlRecOn (motive := fun w : Node => (w.doC k).overload = (n.doC k).overload) _ _ rfl fun w hw j _ => ?_
    dsimp only
    split
    · rw [modDo, doC_setDo]
      split
      · next h => exact h ▸ hw
      · exact hw
    · exact hw

theorem beforePins_overload (n : Node) (k : Nat) : ((beforePins n).doC k).overload = (n.doC k).overload := by
  rw [beforePins, wsSync_overload, doC_of_digOut (ilEval_get _ (by decide)), diSync_doC]

section
variable {n : Node} {k : Nat}

/-- After the plant's own work every pin stands as R282 decides it. -/
theorem settle_pin (n : Node) (hk : k < 32) : ((settle n).doC k).on = doWant (settle n) k := by
  rw [doWant_congr ((settle_pinRule n).trans (doSync_pinRule _).symm) (settle_doC_eq n k), settle_doC_eq, doSync_pin _ hk]

theorem settle_commanded (n : Node) (hk : k < 32) : doCommanded (settle n) k = doCommanded (beforePins n) k := by
  refine doCommanded_congr (settle_pinRule n) ?_ ?_
  · exact (settle_doC n k).trans ((beforePins_follows n).dout k).symm
  · exact (congrArg DoChan.ws (settle_doC_eq n k)).trans (doSync_ws _ hk)

/-- OVERLOAD stands where it arose while forced on, and where the output is commanded (R283). -/
theorem settle_overload (hk : k < 32) (h : (n.doC k).overload = true)
    (hc : (n.doC k).ovlForced = true ∨ doCommanded (settle n) k = true) : ((settle n).doC k).overload = true := by
  have hforced : ((beforePins n).doC k).ovlForced = (n.doC k).ovlForced :=
    DoChan.eq_of_core DoChan.ovlForced ((beforePins_follows n).dout k)
  have hrel : doReleases (beforePins n) k = false := by
    rw [settle_commanded n hk] at hc
    rcases hc with hc | hc <;> simp [doReleases, hforced, hc]
  rw [settle_doC_eq, doSync_overload _ hk, beforePins_overload, h, hrel]
  rfl

end

end Sys2Proof.Machine
end

section
/-! SUPPORT. The commands of the digital block, as they bear on every pin (R282). -/

namespace Sys2Proof.Machine
open Sys2Proof

/-- Every pin of the module stands as R282 decides it. -/
def PinsStand (n : Node) : Prop := ∀ j < 32, (n.doC j).on = doWant n j

theorem settle_pinsStand (n : Node) : PinsStand (settle n) := fun _ hj => settle_pin n hj

theorem pinsStand_plantAt {s : State} (hu : s.node.up = true) (t : Nat) (f : Node → Node) :
    Ends (onNode (plantAt t f) s) (fun u => PinsStand u.node) := by
  refine ends_plantAt hu t f ?_
  dsimp only
  exact settle_pinsStand _

/-- A port's access that does not reach the device's state, carried out or not. -/
theorem pinsStand_hostPlant {s : State} {p : HostPort} {c : Acc} {qs : List Part} (hu : s.node.up = true) (t : Nat)
    (h : AccFrame p c qs) (hq : .devState ∉ qs ∧ .devRest ∉ qs) :
    Ends (onBoth (hostPlant t p c) s) (fun u => PinsStand u.node) := by
  obtain ⟨_, hl⟩ := h s.mem (s.node.advance t)
  have hdev : (hostDo p c s.mem (s.node.advance t)).2.dev = s.node.dev := dev_of_parts (hl _ hq.1) (hl _ hq.2)
  have hup : (hostDo p c s.mem (s.node.advance t)).2.up = true := by rw [Node.up, hdev]; exact hu
  refine ends_plantMem hu t (hostDo p c) (m' := (hostDo p c s.mem (s.node.advance t)).1) (Prod.mk.eta).symm hup ?_
  dsimp only
  exact settle_pinsStand _

theorem accFrame_doCmd (p : HostPort) (k : Fin 32) (v : Word) :
    AccFrame p (.wr (0x4404 + 0x10 * k.val) v) (withLink [.port p, .digOut]) :=
  accFrame_of_writes (writesOnly_doCmd k) (by simp) (.withLink (by simp) (by simp) ((registerTables).doCmd k))

theorem accFrame_ilReset (p : HostPort) (v : Word) : AccFrame p (.wr 0x4388 v) (withLink [.port p, .il, .ilRefused]) :=
  accFrame_of_writes writesOnly_ilReset (by simp) (.withLink (by simp) (by simp) ((registerTables).plantOpen 0x4388 (by simp)))

/-- Settles O37: every command of the digital block ends in the plant's own work, which decides every pin anew by R282. -/
theorem pinsFollowTheirRule : Obligations.PinsFollowTheirRule := by
  unfold Obligations.PinsFollowTheirRule
  intro i k g f b c mv t p v s hu
  have hplant (f : Node → Node) := pinsStand_plantAt hu t f
  simp only [List.forall_mem_cons]
  exact ⟨hplant _, hplant _, hplant _, hplant _, hplant _, pinsStand_hostPlant hu t (accFrame_doCmd p k v) (by simp), hplant _, hplant _,
    hplant _, hplant _, hplant _, hplant _, hplant _, hplant _, hplant _,
    pinsStand_hostPlant hu t (accFrame_ilReset p v) (by simp), hplant _, List.forall_mem_nil _⟩

end Sys2Proof.Machine
end

section
/-! SUPPORT. Digital outputs: what each operation makes of an output, and what a command leaves of it (R280 to R287, R295, R296). -/

namespace Sys2Proof.Machine
open Sys2Proof

/-! ### From an operation to its command -/

theorem raiseIf_raises {b : Bool} (j : Nat) (n : Node) (hb : b = true) (hj : evtExists j = true) (h : j < 128) :
    (raiseIf b j n).evt.flag j = true := by
  rw [hb]
  exact raise_flag j n hj h

/-- Of an output the plant's own work changes the pin, HOLD, OVERLOAD and the station signal alone; it raises four events. -/
theorem ends_out {s : State} {t : Nat} {f : Node → Node} {m : Node} (hu : s.node.up = true) (hf : f (s.node.advance t) = m) (k : Nat) :
    Ends (onNode (plantAt t f) s) (fun u => (u.node.doC k).core = (m.doC k).core
      ∧ (∀ j, m.evt.flag j = true → u.node.evt.flag j = true) ∧ ∀ j ∉ [0, 41, 70, 123], u.node.evt.flag j = m.evt.flag j) := by
  refine ends_plantAt_of_eq hu hf ?_
  dsimp only
  exact ⟨settle_doC m k, settle_flag m, fun j hj => settle_flag_other hj m⟩

theorem settle_overtemp (n : Node) (k : Nat) : ((settle n).doC k).overtemp = (n.doC k).overtemp :=
  DoChan.eq_of_core DoChan.overtemp (settle_doC n k)

theorem settle_otSeen (n : Node) (k : Nat) : ((settle n).doC k).otSeen = (n.doC k).otSeen :=
  DoChan.eq_of_core DoChan.otSeen (settle_doC n k)

section
variable {k t : Nat} {n : Node}

theorem doC_modDo_same (k : Nat) (f : DoChan → DoChan) (n : Node) : (modDo k f n).doC k = f (n.doC k) := doC_setDo_same k _ n

theorem doC_modDo_other {j : Nat} (h : j ≠ k) (f : DoChan → DoChan) (n : Node) : (modDo k f n).doC j = n.doC j :=
  (doC_setDo k _ n j).trans (if_neg h)

/-! ### Commands (R280, R295, R296) -/

theorem doCommanded_of_host (h : doSrc (n.recOf 0x0A k) = 0) : doCommanded n k = (n.doC k).cmd := by
  simp [doCommanded, doCommand, doLaneSafe, h]

theorem doCmdWrite_of_host (h : doSrc (n.recOf 0x0A k) = 0) (on : Bool) :
    doCmdWrite k on n = modDo k (fun u => { u with cmd := on }) n := if_pos h

theorem doCmdWrite_of_other_source (h : doSrc (n.recOf 0x0A k) ≠ 0) (on : Bool) :
    doCmdWrite k on n = modDo k (fun u => { u with refused := true }) n := if_neg h

/-! ### Time proportioning and pulses (R280, R281) -/

/-- The on part that the lane's output asks for in a cycle of `cyc` counts. -/
def tpAsked (cyc : Nat) (d : Int) : Nat := (divRound (max 0 (min 1000000 d) * (cyc : Int)) 1000000).toNat

/-- The on part that is driven: both parts reach the minimum, or the cycle is not divided. -/
def tpDriven (cyc mp on : Nat) : Nat :=
  if on < mp ∧ cyc - on < mp then (if cyc - on < on then cyc else 0)
  else if on < mp then 0 else if cyc - on < mp then cyc else on

theorem tpAsked_of_no_cycle (d : Int) : tpAsked 0 d = 0 := by simp [tpAsked, divRound]

/-- An output as a cycle of `cyc` counts begins at `t` with the on part `on`. -/
def tpBegun (u : DoChan) (t cyc on : Nat) : DoChan :=
  { u with tpOn := decide (0 < on), tpOff := if 0 < on ∧ on < cyc then some (t + on) else none, tpNext := t + cyc }

theorem tpStart_of_due (hd : n.driving = true) (hon : recOn (n.recOf 0x0A k) = true) (hs : doSrc (n.recOf 0x0A k) = 1)
    (ht : (n.doC k).tpNext ≤ t) : tpStart k t n
      = setDo k (tpBegun (n.doC k) t (doTpCyc (n.recOf 0x0A k) * 25000000)
          (tpDriven (doTpCyc (n.recOf 0x0A k) * 25000000) (doW (n.recOf 0x0A k) * 250000)
            (tpAsked (doTpCyc (n.recOf 0x0A k) * 25000000) (n.doC k).laneD))) n := by
  unfold tpStart
  dsimp only
  rw [if_neg (by simp [hd, hon, hs, ht]), clampI_eq_max_min (by decide)]
  rfl

theorem tpStart_of_none (h : n.driving = false ∨ recOn (n.recOf 0x0A k) = false ∨ doSrc (n.recOf 0x0A k) ≠ 1
      ∨ t < (n.doC k).tpNext) : tpStart k t n = n :=
  if_pos (by rcases h with h | h | h | h <;> simp [h])

theorem tpOffEdge_of_due {e : Nat} (h : (n.doC k).tpOff = some e) (ht : e ≤ t) :
    tpOffEdge k t n = modDo k (fun u => { u with tpOn := false, tpOff := none }) n := by
  simp [tpOffEdge, h, ht]

theorem tpOffEdge_of_none (h : (n.doC k).tpOff = none ∨ ∃ e, (n.doC k).tpOff = some e ∧ t < e) : tpOffEdge k t n = n := by
  rcases h with h | ⟨e, h, ht⟩
  · simp [tpOffEdge, h]
  · simp [tpOffEdge, h, Nat.not_le.mpr ht]

theorem doPulseEnd_pulse (h : (n.doC k).pulse = true) : ((doPulseEnd k t n).doC k).pulse = decide (t < (n.doC k).pulseEnd) := by
  unfold doPulseEnd
  by_cases ht : (n.doC k).pulseEnd ≤ t
  · rw [if_pos (by simp [h, ht]), doC_setDo_same]
    simp [ht]
  · rw [if_neg (by simp [ht]), h]
    simpa using ht

theorem doPulseEnd_of_none (h : (n.doC k).pulse = false) : doPulseEnd k t n = n := if_neg (by simp [h])

/-! ### Overload and over-temperature (R283, R284) -/

theorem doOverload_of_on (h : (n.doC k).on = true) : doOverload k n
    = recOcc 4 k (raise 67 (setDo k { n.doC k with overload := true, ovlForced := ilDo n k true } n)) := if_pos h

theorem doOverload_of_off (h : (n.doC k).on = false) : doOverload k n = n := if_neg (by simp [h])

theorem doOvertemp_of_new (hr : n.isRun 5 = true) (h : (n.doC k).overtemp = false) :
    doOvertemp k n = raise 69 (setDo k { n.doC k with overtemp := true, otSeen := true } n) := if_pos (by simp [hr, h])

theorem doOvertemp_of_none (h : n.isRun 5 = false ∨ (n.doC k).overtemp = true) : doOvertemp k n = n :=
  if_neg (by rcases h with h | h <;> simp [h])

/-! ### Open wires and dark tests (R285, R286) -/

/-- The open-wire check with the output off (`which`) or on reads `opn`. -/
def openNoted (which opn : Bool) (u : DoChan) : DoChan := if which then { u with openOff := opn } else { u with openOn := opn }

theorem doOpenWire_of_checked {which : Bool} (hon : recOn (n.recOf 0x0A k) = true)
    (hb : recBit (n.recOf 0x0A k) 10 (if which then 2 else 1) = true) (hpin : (n.doC k).on = !which) (hc : doChecks n k t = true)
    (opn : Bool) : doOpenWire k which opn t n
      = raiseIf (opn && !(if which then (n.doC k).openOff else (n.doC k).openOn)) 68 (setDo k (openNoted which opn (n.doC k)) n) := by
  unfold doOpenWire
  dsimp only
  rw [if_neg (by simp [hon, hb, hpin, hc])]
  cases which <;> rfl

theorem doOpenWire_of_unchecked {which : Bool} (h : recOn (n.recOf 0x0A k) = false
      ∨ recBit (n.recOf 0x0A k) 10 (if which then 2 else 1) = false ∨ (n.doC k).on = which ∨ doChecks n k t = false) (opn : Bool) :
    doOpenWire k which opn t n = n :=
  if_pos (by rcases h with h | h | h | h <;> simp [h])

theorem darkTest_of_first (hon : recOn (n.recOf 0x0A k) = true) (hb : recBit (n.recOf 0x0A k) 10 0 = true) (hf : n.inForce = true)
    (hpin : (n.doC k).on = true) (hp : (n.doC k).pulse = false) (hd : (n.doC k).dark = false) (ha : (n.doC k).darkAt = none) :
    darkTest k t n = setDo k { n.doC k with dark := true, darkEnd := t + 50000, darkAt := some t } n := by
  unfold darkTest
  dsimp only
  rw [ha, if_pos (by simp [hon, hb, hf, hpin, hp, hd])]

theorem darkTest_of_none (h : recOn (n.recOf 0x0A k) = false ∨ recBit (n.recOf 0x0A k) 10 0 = false ∨ n.inForce = false
      ∨ (n.doC k).on = false ∨ (n.doC k).pulse = true
      ∨ ∃ a, (n.doC k).darkAt = some a ∧ t < a + doDtPer (n.recOf 0x0A k) * 250000000) : darkTest k t n = n := by
  unfold darkTest
  dsimp only
  rcases h with h | h | h | h | h | ⟨a, h, ht⟩
  iterate 5 rw [if_neg (by simp [h])]
  rw [h, if_neg (by simp [secPer, Nat.not_le.mpr ht])]

theorem darkEnd_of_due (h : (n.doC k).dark = true) (ht : (n.doC k).darkEnd ≤ t) (fell : Bool) : darkEnd k fell t n
    = raiseIf (!fell) 71 (setDo k { n.doC k with dark := false, darkFail := (n.doC k).darkFail || !fell } n) :=
  if_pos (by simp [h, ht])

theorem darkEnd_of_none (h : (n.doC k).dark = false ∨ t < (n.doC k).darkEnd) (fell : Bool) : darkEnd k fell t n = n :=
  if_neg (by rcases h with h | h <;> simp [h])

end

end Sys2Proof.Machine
end

section
/-! SUPPORT. Over-temperature of an output's switch (R284). -/

namespace Sys2Proof.Machine
open Sys2Proof

section
variable {s : State} (k : Fin 32) (t : Nat)

theorem doOvertemp_ends (hu : s.node.up = true) (hr : s.node.isRun 5 = true) (hl : s.node.dup.latched = false)
    (ho : (s.node.doC k.val).overtemp = false) :
    Ends (exec (.doOvertemp k t) s) (fun u => (u.node.doC k.val).overtemp = true ∧ (u.node.doC k.val).otSeen = true
      ∧ (u.node.doC k.val).on = false ∧ u.node.evt.flag 69 = true) := by
  generalize hm : raise 69 (setDo k.val { s.node.doC k.val with overtemp := true, otSeen := true } (s.node.advance t)) = m
  have hch : m.doC k.val = { s.node.doC k.val with overtemp := true, otSeen := true } := by rw [← hm, raise_doC, doC_setDo_same]
  have hot : ((settle m).doC k.val).overtemp = true := by rw [settle_overtemp, hch]
  have hlat : (settle m).dup.latched = false := by
    rw [settle_dup_latched, ← hm, (raise_follows 69 _).dup_latched]
    exact hl
  refine ends_plantAt_of_eq hu ((doOvertemp_of_new (n := s.node.advance t) hr ho).trans hm) ?_
  dsimp only
  refine ⟨hot, ?_, ?_, settle_flag m 69 ?_⟩
  · rw [settle_otSeen, hch]
  · rw [settle_pin m k.isLt, doWant_of_overtemp hlat hot]
  · rw [← hm]
    exact raise_flag 69 _ rfl (by omega)

theorem doOvertempClear_ends (hu : s.node.up = true) :
    Ends (exec (.doOvertempClear k t) s) (fun u => (u.node.doC k.val).overtemp = false
      ∧ (u.node.doC k.val).otSeen = (s.node.doC k.val).otSeen ∧ (u.node.doC k.val).on = doWant u.node k.val) := by
  refine ends_plantAt hu t _ ?_
  dsimp only
  refine ⟨?_, ?_, settle_pin _ k.isLt⟩
  · rw [settle_overtemp, doOvertempClear, doC_modDo_same]
  · rw [settle_otSeen, doOvertempClear, doC_modDo_same]
    rfl

end

/-- Settles O36: an output that is too hot is off in every row of R282 below the hold latch; cooled, its pin is decided anew. -/
theorem switchOvertemperature : Obligations.SwitchOvertemperature := by
  unfold Obligations.SwitchOvertemperature
  refine ⟨fun k t s hu hr hl ho => ?_, fun k t s hu => ?_⟩
  · exact (doOvertemp_ends k t hu hr hl ho).imp fun u ⟨hot, hseen, hon, h69⟩ => ⟨hon, hot, hseen, h69⟩
  · exact (doOvertempClear_ends k t hu).imp fun u ⟨hot, _, hon⟩ => ⟨hot, hon⟩

end Sys2Proof.Machine
end

section
/-! SUPPORT. The interlock terms: what an evaluation makes of the latches, and IL_RESET (R288 to R290). -/

namespace Sys2Proof.Machine
open Sys2Proof

/-! ### Expressions over inputs -/

/-- What the states of the digital inputs are read from is the same. -/
structure SameInputs (n m : Node) : Prop where
  ld : m.ld = n.ld
  di : m.dig.di = n.dig.di
  ss : m.dig.ss = n.dig.ss
  inForce : m.inForce = n.inForce
  outputsOn : m.outputsOn = n.outputsOn
  running : m.running = n.running

section
variable {n m : Node}

theorem Follows.sameInputs (h : Follows n m) : SameInputs n m :=
  ⟨h.ld, h.dig_di, h.dig_ss, h.inForce, h.outputsOn, h.mode.1⟩

theorem SameInputs.ssOut (h : SameInputs n m) (k : Nat) : ssOut m k = ssOut n k := by
  have hch : m.ssC k = n.ssC k := by rw [Node.ssC, h.ss, ← Node.ssC]
  simp only [Machine.ssOut, recOf_of_ld h.ld, hch, h.inForce, h.outputsOn, h.running]

theorem SameInputs.state (h : SameInputs n m) (k : Nat) : diState m k = diState n k := by
  have hch : m.diC k = n.diC k := by rw [Node.diC, h.di, ← Node.diC]
  simp only [diState, Node.chOn, recOf_of_ld h.ld, hch]

theorem SameInputs.bad (h : SameInputs n m) (k : Nat) : diBad m k = diBad n k := by
  have hch : m.diC k = n.diC k := by rw [Node.diC, h.di, ← Node.diC]
  simp only [diBad, diSsBad, Node.chOn, recOf_of_ld h.ld, hch, h.ssOut]

/-- An expression whose literals all name inputs takes its value from the inputs. -/
theorem SameInputs.expr (h : SameInputs n m) {r : Bytes} (hr : ∀ l ∈ ilLits r, l / 64 % 2 = 0) : ilExpr m r = ilExpr n r := by
  have hlit (l : Nat) (hl : l ∈ ilLits r) : ilLit m l = ilLit n l := by
    simp only [ilLit, hr l hl, h.state, h.bad]
    rfl
  have hany : (ilLits r).any (ilLit m) = (ilLits r).any (ilLit n) := by
    rw [Bool.eq_iff_iff, List.any_eq_true, List.any_eq_true]
    exact exists_congr fun l => and_congr_right fun hl => by rw [hlit l hl]
  have hall : (ilLits r).all (ilLit m) = (ilLits r).all (ilLit n) := by
    rw [Bool.eq_iff_iff, List.all_eq_true, List.all_eq_true]
    exact forall₂_congr fun l hl => by rw [hlit l hl]
  simp only [ilExpr, hany, hall]

theorem terms_of_ld (h : m.ld = n.ld) : m.terms = n.terms := by rw [Node.terms, Node.recs, h, ← Node.recs, ← Node.terms]

end

/-! ### One evaluation (R288, R290) -/

section
variable {n m : Node} {r : Bytes} {j : Nat}

theorem bitOf_setBitW_true_other {i : Nat} (w : Word) (h : i ≠ j) : bitOf (setBitW w i true) j = bitOf w j := by
  have hb : (oneHot i).getLsbD j = false := by
    rw [oneHot, BitVec.getLsbD_ofNat, Nat.testBit_two_pow_of_ne h, Bool.and_false]
  simp [setBitW, bitOf, hb]

theorem bitOf_setBitW_true {i : Nat} {w : Word} (h : bitOf w j = true) : bitOf (setBitW w i true) j = true := by
  unfold bitOf at h
  simp [setBitW, bitOf, h]

/-- A term that trips with LATCH in its record is latched; nothing else is done to the latches. -/
theorem ilTerm_latched (n : Node) (r : Bytes) : (ilTerm n r).il.latched = n.il.latched
    ∨ (ilExpr n r = true ∧ (ilTerm n r).il.latched = setBitW n.il.latched (ilKey r) true) := by
  unfold ilTerm
  dsimp only
  split
  · exact .inl rfl
  · have hlatch (b : Bool) : (if ilExpr n r && b && ilLatch r then setBitW n.il.latched (ilKey r) true else n.il.latched) = n.il.latched
        ∨ (ilExpr n r = true ∧ (if ilExpr n r && b && ilLatch r then setBitW n.il.latched (ilKey r) true else n.il.latched)
          = setBitW n.il.latched (ilKey r) true) := by
      split
      · next h => exact .inr ⟨by simp_all, rfl⟩
      · exact .inl rfl
    split
    · rw [recNote_il, raise_il]
      exact hlatch _
    · exact hlatch _

theorem ilTerm_keeps_latch (h : bitOf n.il.latched j = true) : bitOf (ilTerm n r).il.latched j = true := by
  rcases ilTerm_latched n r with e | ⟨_, e⟩
  · rw [e, h]
  · rw [e, bitOf_setBitW_true h]

theorem ilTerm_keeps_unlatched (h : bitOf n.il.latched j = false) (hr : ilKey r = j → ilExpr n r = false) :
    bitOf (ilTerm n r).il.latched j = false := by
  rcases ilTerm_latched n r with e | ⟨hon, e⟩
  · rw [e, h]
  · have hne : ilKey r ≠ j := fun hk => by simp [hr hk] at hon
    rw [e, bitOf_setBitW_true_other _ hne, h]

/-- An evaluation works the terms one by one, once the comparators have taken BADVAL. -/
theorem ilEval_eq (n : Node) : ilEval n = n
    ∨ ∃ m : Node, Follows n m ∧ m.il.latched = n.il.latched ∧ ilEval n = n.terms.foldl ilTerm m := by
  unfold ilEval
  split
  · exact .inl rfl
  · right
    dsimp only
    generalize (List.range 16).foldl (fun w c => if (n.caC c).connected then w else setBitW w c false) n.il.caSeen = seen
    generalize hb : ({ n with il.caSeen := seen } : Node) = b
    have hstart : Follows n b ∧ b.il.latched = n.il.latched := hb ▸ ⟨Follows.of_eq rfl rfl rfl rfl rfl, rfl⟩
    generalize hm : b.terms.foldl (fun m r => if ilSrc r != 0 && ilCmpBad m r then setCmp (ilKey r) (recBit r 19 1) m else m) b = m
    have hcmp : Follows n m ∧ m.il.latched = n.il.latched := by
      rw [← hm]
      refine List.foldlRecOn (motive := fun w : Node => Follows n w ∧ w.il.latched = n.il.latched) _ _ hstart fun w ⟨hw, hl⟩ r _ => ?_
      split
      · exact ⟨hw.trans (setCmp_follows _ _ w), hl⟩
      · exact ⟨hw, hl⟩
    exact ⟨m, hcmp.1, hcmp.2, by rw [terms_of_ld hcmp.1.ld]⟩

theorem ilEval_keeps_latch (h : bitOf n.il.latched j = true) : bitOf (ilEval n).il.latched j = true := by
  rcases ilEval_eq n with e | ⟨m, _, hl, e⟩
  · rw [e, h]
  · rw [e]
    exact List.foldlRecOn (motive := fun w : Node => bitOf w.il.latched j = true) _ _ (hl ▸ h) fun w hw r _ => ilTerm_keeps_latch hw

/-- A term whose expression over inputs is false is not latched anew. -/
theorem ilEval_keeps_unlatched (h : bitOf n.il.latched j = false)
    (hr : ∀ r ∈ n.terms, ilKey r = j → (∀ l ∈ ilLits r, l / 64 % 2 = 0) ∧ ilExpr n r = false) :
    bitOf (ilEval n).il.latched j = false := by
  rcases ilEval_eq n with e | ⟨m, hm, hl, e⟩
  · rw [e, h]
  · rw [e]
    refine (List.foldlRecOn (motive := fun w : Node => Follows n w ∧ bitOf w.il.latched j = false) _ _ ⟨hm, hl ▸ h⟩
      fun w ⟨hw, hb⟩ r hmem => ⟨hw.trans (ilTerm_follows w r), ilTerm_keeps_unlatched hb fun hk => ?_⟩).2
    obtain ⟨hlits, hexpr⟩ := hr r hmem hk
    exact (hw.sameInputs.expr hlits).trans hexpr

theorem diSync_il (n : Node) : (diSync n).il = n.il := il_of_parts (diSync_get n (by decide)) (diSync_follows n).il_refused

theorem settle_keeps_latch (h : bitOf n.il.latched j = true) : bitOf (settle n).il.latched j = true := by
  rw [settle_il]
  exact ilEval_keeps_latch (by rw [diSync_il]; exact h)

theorem settle_keeps_unlatched (h : bitOf n.il.latched j = false)
    (hr : ∀ r ∈ n.terms, ilKey r = j → (∀ l ∈ ilLits r, l / 64 % 2 = 0) ∧ ilExpr n r = false) :
    bitOf (settle n).il.latched j = false := by
  have hd := diSync_follows n
  rw [settle_il]
  refine ilEval_keeps_unlatched (by rw [diSync_il]; exact h) fun r hmem hk => ?_
  obtain ⟨hlits, hexpr⟩ := hr r (terms_of_ld hd.ld ▸ hmem) hk
  exact ⟨hlits, (hd.sameInputs.expr hlits).trans hexpr⟩

end

/-! ### IL_RESET (R290) -/

theorem bitOf_ilResetWrite (v : Word) (n : Node) {j : Nat} (hj : j < 32) :
    bitOf (ilResetWrite v n).il.latched j = (bitOf n.il.latched j && !(bitOf v j && !bitOf n.il.active j)) := by
  rw [← bitOf_and_not v n.il.active j hj, ← bitOf_and_not _ _ j hj]
  rfl

theorem regWrite_ilReset (p : HostPort) (v : Word) (m : Mems) (n : Node) :
    regWrite p 0x4388 v m n = (0, m, ilResetWrite v n) := rfl

theorem ilResetWrite_ends {s : State} (p : HostPort) (v : Word) (t : Nat) (h : Takes s 0x4388) :
    Ends (exec (.ilResetWrite p v t) s) (fun u => Acks u p 0x4388
      ∧ u.node.il.refused = s.node.il.refused ||| (v &&& s.node.il.active)
      ∧ (∀ j < 32, bitOf s.node.il.latched j = true → bitOf v j = false ∨ bitOf s.node.il.active j = true →
          bitOf u.node.il.latched j = true)
      ∧ ∀ j < 32, bitOf v j = true → bitOf s.node.il.active j = false →
          (∀ r ∈ s.node.terms, ilKey r = j → (∀ l ∈ ilLits r, l / 64 % 2 = 0) ∧ ilExpr s.node r = false) →
          bitOf u.node.il.latched j = false) := by
  obtain ⟨x, hx⟩ : ∃ x, regAttr 0x4388 = some ⟨x, .wr⟩ := regAttr_of_writable (by decide +kernel)
  have hup : (ilResetWrite v (s.node.advance t)).up = true := h.1
  generalize hw : wrDone p 0x4388 x (0, s.mem, ilResetWrite v (s.node.advance t)) = w
  have hil : w.il = (ilResetWrite v s.node).il := by rw [← hw, wrDone_il]; rfl
  have hbit (j : Nat) (hj : j < 32) := hil ▸ bitOf_ilResetWrite v s.node hj
  have hin : SameInputs s.node w := by
    rw [← hw]
    refine ⟨?_, ?_, ?_, ?_, ?_, ?_⟩
    · rw [wrDone_ld]; rfl
    · rw [wrDone_dig]; rfl
    · rw [wrDone_dig]; rfl
    · simp only [Node.inForce, Node.isRun, Node.islSt, Node.applied, Node.acq, Node.running, wrDone_isl, wrDone_ld, wrDone_dev]; rfl
    · simp only [Node.outputsOn, Node.carries, wrDone_dup]; rfl
    · rw [wrDone_running]; rfl
  refine ends_hostPlant hx h t p v (regWrite_ilReset p v s.mem (s.node.advance t)) hup ?_
  dsimp only
  rw [hw]
  refine ⟨?_, ?_, fun j hj hlat hc => settle_keeps_latch ?_, fun j hj hv ha hr => settle_keeps_unlatched ?_ fun r hmem hk => ?_⟩
  · rw [← hw]
    simp [Acks, Answered]
  · rw [settle_il_refused, hil]
    rfl
  · rw [hbit j hj, hlat]
    rcases hc with hc | hc <;> simp [hc]
  · simp [hbit j hj, hv, ha]
  · obtain ⟨hlits, hexpr⟩ := hr r (terms_of_ld hin.ld ▸ hmem) hk
    exact ⟨hlits, (hin.expr hlits).trans hexpr⟩

end Sys2Proof.Machine
end

section
/-! SUPPORT. The commands that protect and check digital outputs (R283 to R287, R290). -/

namespace Sys2Proof.Machine
open Sys2Proof

section
variable {s : State} (k : Fin 32) (t : Nat)

/-- An overload that opens the pin unless the hold latch keeps it; it stands while the output is commanded, and where it arose while
forced on. -/
theorem doOverload_ends (hu : s.node.up = true) (hon : (s.node.doC k.val).on = true) :
    Ends (exec (.doOverload k t) s) (fun u => u.node.evt.flag 67 = true
      ∧ (doCommanded u.node k.val = true ∨ ilDo s.node k.val true = true → (u.node.doC k.val).overload = true)
      ∧ (s.node.dup.latched = false → (u.node.doC k.val).overload = true → (u.node.doC k.val).on = false)
      ∧ (doSrc (s.node.recOf 0x0A k.val) = 0 → doCommanded u.node k.val = (s.node.doC k.val).cmd)) := by
  generalize hm : recOcc 4 k.val (raise 67 (setDo k.val { s.node.doC k.val with overload := true, ovlForced := ilDo s.node k.val true }
    (s.node.advance t))) = m
  have hch : m.doC k.val = { s.node.doC k.val with overload := true, ovlForced := ilDo s.node k.val true } := by
    rw [← hm, recOcc_doC, raise_doC, doC_setDo_same]
  have hlat : (settle m).dup.latched = s.node.dup.latched := by
    rw [settle_dup_latched, ← hm, recOcc_dup, (raise_follows 67 _).dup_latched]
    rfl
  have hrec : (settle m).recOf 0x0A k.val = s.node.recOf 0x0A k.val := by
    rw [settle_recOf, ← hm, recOf_of_ld ((recOcc_ld _ _ _).trans (raise_ld _ _))]
    rfl
  have hcmd : ((settle m).doC k.val).cmd = (s.node.doC k.val).cmd := by
    rw [DoChan.eq_of_core DoChan.cmd (settle_doC m k.val), hch]
  have hforced : (m.doC k.val).ovlForced = ilDo s.node k.val true := by rw [hch]
  have hset : (m.doC k.val).overload = true := by rw [hch]
  refine ends_plantAt_of_eq hu ((doOverload_of_on (n := s.node.advance t) hon).trans hm) ?_
  dsimp only
  refine ⟨settle_flag m 67 ?_, fun hc => settle_overload k.isLt hset ?_, fun hl hov => ?_, fun hs => ?_⟩
  · rw [← hm, recOcc_evt]
    exact raise_flag 67 _ rfl (by omega)
  · rw [hforced]
    exact hc.symm
  · rw [settle_pin m k.isLt, doWant_of_overload (hlat.trans hl) hov]
  · rw [doCommanded_of_host ((congrArg doSrc hrec).trans hs), hcmd]

end

/-- Settles O35: a cause, or the time of a check, is one branch of its operation, which the plant's own work leaves standing
(`ends_out`, `settle_overload`); without it the operation is nothing. IL_RESET takes its bits off the latches, and an evaluation sets
none whose expression is false. -/
theorem digitalProtection : Obligations.DigitalProtection := by
  unfold Obligations.DigitalProtection
  refine ⟨⟨?_, ?_, ?_, ?_, ?_, ?_, ?_, ?_, ?_, ?_, ?_, ?_, ?_⟩, fun p v t s h => ilResetWrite_ends p v t h⟩
  -- an overload of a commanded output
  · intro k t s hu hon hl hs hc
    refine (doOverload_ends k t hu hon).imp fun u ⟨h67, hstays, hopen, hcmd⟩ => ?_
    have hov := hstays (.inl ((hcmd hs).trans hc))
    exact ⟨hopen hl hov, hov, h67⟩
  -- over-temperature and its end
  · exact fun k t s hu hr ho hl => doOvertemp_ends k t hu hr hl ho
  · exact fun k t s hu => (doOvertempClear_ends k t hu).imp fun u ⟨hot, hseen, _⟩ => ⟨hot, hseen⟩
  -- an open-wire check
  · intro k which opn t s hu hon hb hpin hc
    refine (ends_out hu (doOpenWire_of_checked (n := s.node.advance t) hon hb hpin hc opn) k.val).imp
      fun u ⟨hch, hflag, _⟩ => ⟨?_, ?_⟩
    · rw [raiseIf_doC, doC_setDo_same] at hch
      cases which
      · exact DoChan.eq_of_core DoChan.openOn hch
      · exact DoChan.eq_of_core DoChan.openOff hch
    · intro ho hwas
      exact hflag 68 (raiseIf_raises 68 _ (by rw [ho]; exact congrArg (!·) hwas) rfl (by omega))
  -- the first dark test
  · intro k t s hu hon hb hf hpin hp hd ha
    refine (ends_out hu (darkTest_of_first (n := s.node.advance t) hon hb hf hpin hp hd ha) k.val).imp fun u ⟨hch, _⟩ => ?_
    rw [doC_setDo_same] at hch
    exact ⟨DoChan.eq_of_core DoChan.dark hch, DoChan.eq_of_core DoChan.darkEnd hch,
      DoChan.eq_of_core DoChan.darkAt hch⟩
  -- the end of a dark test
  · intro k fell t s hu hd ht
    refine (ends_out hu (darkEnd_of_due (n := s.node.advance t) hd ht fell) k.val).imp
      fun u ⟨hch, hflag, _⟩ => ⟨?_, ?_, fun hfell => ?_⟩
    · rw [raiseIf_doC, doC_setDo_same] at hch
      exact DoChan.eq_of_core DoChan.dark hch
    · rw [raiseIf_doC, doC_setDo_same] at hch
      exact DoChan.eq_of_core DoChan.darkFail hch
    · exact hflag 71 (raiseIf_raises 71 _ (by rw [hfell]; rfl) rfl (by omega))
  -- a field supply
  · intro f mv t s hu
    refine ends_plantAt hu t _ ?_
    dsimp only
    have hmv : tget 0 (settle (fpSet f.val mv (s.node.advance t))).dig.fpMv f.val = mv := by
      rw [settle_dig_fpMv]
      exact tget_tset_same _ _ _ _
    exact ⟨hmv, by rw [fpOk, hmv]⟩
  -- an overload of an output that is on
  · intro k t s hu hon
    refine (doOverload_ends k t hu hon).imp fun u ⟨h67, hstays, hopen, _⟩ => ⟨h67, fun hc _ => ?_, fun hf => hstays (.inr hf)⟩
    have hov := hstays (.inl hc)
    exact ⟨hov, fun hl => hopen hl hov⟩
  -- neither overload nor over-temperature
  · intro k t s hu hon
    exact (ends_out hu (doOverload_of_off (n := s.node.advance t) hon) k.val).imp fun u ⟨_, _, hother⟩ => hother 67 (by decide)
  · intro k t s hu h
    exact (ends_out hu (doOvertemp_of_none (n := s.node.advance t) h) k.val).imp fun u ⟨hch, _, hother⟩ =>
      ⟨DoChan.eq_of_core DoChan.overtemp hch, hother 69 (by decide)⟩
  -- no open-wire check
  · intro k which opn t s hu h
    exact (ends_out hu (doOpenWire_of_unchecked (n := s.node.advance t) h opn) k.val).imp fun u ⟨hch, _, hother⟩ =>
      ⟨DoChan.eq_of_core DoChan.openOff hch, DoChan.eq_of_core DoChan.openOn hch, hother 68 (by decide)⟩
  -- no dark test, and no end of one
  · intro k t s hu h
    exact (ends_out hu (darkTest_of_none (n := s.node.advance t) h) k.val).imp fun u ⟨hch, _⟩ =>
      ⟨DoChan.eq_of_core DoChan.dark hch, DoChan.eq_of_core DoChan.darkAt hch⟩
  · intro k fell t s hu h
    exact (ends_out hu (darkEnd_of_none (n := s.node.advance t) h fell) k.val).imp fun u ⟨hch, _⟩ =>
      ⟨DoChan.eq_of_core DoChan.dark hch, DoChan.eq_of_core DoChan.darkFail hch⟩

end Sys2Proof.Machine
end

section
/-! SUPPORT. Digital inputs and sensor supplies: what each operation makes of them (R273 to R279). -/

namespace Sys2Proof.Machine
open Sys2Proof

/-! ### From an operation to its command -/

/-- Inputs and supplies stand through the plant's own work, which raises four events. -/
theorem ends_din {s : State} {t : Nat} {f : Node → Node} {m : Node} (hu : s.node.up = true) (hf : f (s.node.advance t) = m) :
    Ends (onNode (plantAt t f) s) (fun u => u.node.dig.di = m.dig.di ∧ u.node.dig.ss = m.dig.ss
      ∧ (∀ j, m.evt.flag j = true → u.node.evt.flag j = true) ∧ ∀ j ∉ [0, 41, 70, 123], u.node.evt.flag j = m.evt.flag j) := by
  refine ends_plantAt_of_eq hu hf ?_
  dsimp only
  exact ⟨settle_dig_di m, settle_dig_ss m, settle_flag m, fun j hj => settle_flag_other hj m⟩

section
variable {k t : Nat} {n m : Node}

theorem diC_of_di (h : m.dig.di = n.dig.di) (k : Nat) : m.diC k = n.diC k := by rw [Node.diC, h, ← Node.diC]

theorem ssC_of_ss (h : m.dig.ss = n.dig.ss) (k : Nat) : m.ssC k = n.ssC k := by rw [Node.ssC, h, ← Node.ssC]

theorem diC_setDi_other {j : Nat} (h : j ≠ k) (u : DiChan) (n : Node) : (setDi k u n).diC j = n.diC j :=
  (diC_setDi k u n j).trans (if_neg h)

/-! ### Levels (R273) -/

/-- A sample that the filter lets pass. -/
structure DiPasses (n : Node) (k t : Nat) : Prop where
  inForce : n.inForce = true
  on : recOn (n.recOf 0x0E k) = true
  sampled : diSampled (n.recOf 0x0E k) k t = true
  filtered : diFiltered (n.recOf 0x0E k) (n.diC k) t = true

theorem diAccept_of_change {l : Bool} (h : DiPasses n k t) (ha : (n.diC k).accepted = true) (hl : (n.diC k).level ≠ l) :
    diAccept k l t n = recOcc 5 k (raiseIf (recBit (n.recOf 0x0E k) 12 1) 64
      (setDi k { n.diC k with level := l, chg := true, cnt := (n.diC k).cnt + 1#32, ts := wd t, since := t } n)) := by
  unfold diAccept
  dsimp only
  rw [if_neg (by simp [h.inForce, h.on, h.sampled, h.filtered]), if_neg (by simp [ha]), if_neg (by simpa using hl)]

theorem diAccept_of_first (h : DiPasses n k t) (ha : (n.diC k).accepted = false) (l : Bool) :
    diAccept k l t n = setDi k { n.diC k with accepted := true, level := l, since := t } n := by
  unfold diAccept
  dsimp only
  rw [if_neg (by simp [h.inForce, h.on, h.sampled, h.filtered]), if_pos (by simp [ha])]

theorem diAccept_of_none {l : Bool} (h : n.inForce = false ∨ recOn (n.recOf 0x0E k) = false
      ∨ diSampled (n.recOf 0x0E k) k t = false ∨ diFiltered (n.recOf 0x0E k) (n.diC k) t = false
      ∨ ((n.diC k).accepted = true ∧ (n.diC k).level = l)) : diAccept k l t n = n := by
  unfold diAccept
  dsimp only
  rcases h with h | h | h | h | ⟨ha, hl⟩
  iterate 4 rw [if_pos (by simp [h])]
  split
  · rfl
  · rw [if_neg (by simp [ha]), if_pos (by simp [hl])]

/-- The alarm engine sees an input's rise; the input is what `diAccept` made of it. -/
theorem diStep_di (k : Nat) (l : Bool) (t : Nat) (n : Node) : (diStep k l t n).dig.di = (diAccept k l t n).dig.di := by
  have hpress : (almPress k (diAccept k l t n)).dig.di = (diAccept k l t n).dig.di :=
    congrArg Prod.fst (almPress_get (pt := .digIn) k (diAccept k l t n) (by decide))
  unfold diStep
  dsimp only
  split
  · exact hpress
  · rfl

theorem diStep_raises {l : Bool} {j : Nat} (h : (diAccept k l t n).evt.flag j = true) : (diStep k l t n).evt.flag j = true := by
  unfold diStep
  dsimp only
  split
  · exact (almPress_flag _ _ j).trans h
  · exact h

/-! ### Open wires (R274) -/

theorem diOpenWire_of_change {o : Bool} (hf : n.inForce = true) (hon : recOn (n.recOf 0x0E k) = true)
    (hb : recBit (n.recOf 0x0E k) 12 0 = true) (hc : n.carries = true) (ho : (n.diC k).opn ≠ o) :
    diOpenWire k o n = raiseIf o 65 (setDi k { n.diC k with opn := o, owSeen := (n.diC k).owSeen || o } n) :=
  if_neg (by simp [hf, hon, hb, hc, ho])

theorem diOpenWire_of_none {o : Bool} (h : n.inForce = false ∨ recOn (n.recOf 0x0E k) = false ∨ recBit (n.recOf 0x0E k) 12 0 = false
      ∨ n.carries = false ∨ (n.diC k).opn = o) : diOpenWire k o n = n :=
  if_pos (by rcases h with h | h | h | h | h <;> simp [h])

/-- Where the check runs, an input that is not open says so afterwards. -/
theorem diOpenWire_closed (hf : n.inForce = true) (hon : recOn (n.recOf 0x0E k) = true) (hb : recBit (n.recOf 0x0E k) 12 0 = true)
    (hc : n.carries = true) : (diOpenWire k false n).diC k = { n.diC k with opn := false } := by
  cases ho : (n.diC k).opn with
  | true =>
    rw [diOpenWire_of_change hf hon hb hc (by simp [ho]), raiseIf_diC, diC_setDi_same, Bool.or_false]
  | false =>
    rw [diOpenWire_of_none (.inr (.inr (.inr (.inr ho)))), ← ho]

/-! ### Sensor supplies (R279) -/

theorem ssOut_of_overload (h : (n.ssC k).overload = true) : ssOut n k = false := by simp [ssOut, h]

theorem ssOverload_of_on (h : ssOut n k = true) :
    ssOverload k t n = raise 66 (setSs k { n.ssC k with overload := true, ovlSeen := true, retryAt := t } n) := if_pos h

theorem ssOverload_of_off (h : ssOut n k = false) : ssOverload k t n = n := if_neg (by simp [h])

theorem ssRetry_ssC (h : (n.ssC k).overload = true) (ok : Bool) : (ssRetry k ok t n).ssC k
    = if (n.ssC k).retryAt + 250000000 ≤ t then { n.ssC k with overload := !ok, retryAt := t } else n.ssC k := by
  unfold ssRetry
  dsimp only
  by_cases ht : (n.ssC k).retryAt + 250000000 ≤ t
  · rw [if_pos (by simp [h, secPer, ht]), if_pos ht, ssC_setSs_same]
  · rw [if_neg (by simp [secPer, ht]), if_neg ht]

theorem ssRetry_of_none (h : (n.ssC k).overload = false) (ok : Bool) : ssRetry k ok t n = n := if_neg (by simp [h])

end

end Sys2Proof.Machine
end

section
/-! SUPPORT. The commands of digital inputs, sensor supplies and output commands (R273 to R281, R295, R296). -/

namespace Sys2Proof.Machine
open Sys2Proof

/-! ### DO_CMD (R280, R296) -/

theorem regAttr_doCmd (k : Fin 32) : ∃ x, regAttr (0x4404 + 0x10 * k.val) = some ⟨x, .wr⟩ := by
  refine regAttr_of_writable ?_
  revert k
  decide +kernel

theorem regWrite_doCmd (p : HostPort) (k : Fin 32) (v : Word) (m : Mems) (n : Node) :
    regWrite p (0x4404 + 0x10 * k.val) v m n = (0, m, doCmdWrite k.val (bitOf v 0) n) := by
  rw [regWrite_high (by omega) (blkAt_high (by omega) (by omega)) ⟨by omega, by omega⟩, writeHigh_dig p v n (by omega) (by omega),
    digWrite_doCmd]

/-- A write of DO_CMD that the register takes. -/
theorem doCmdWrite_ends (p : HostPort) (k : Fin 32) (v : Word) (t : Nat) {s : State} (h : Takes s (0x4404 + 0x10 * k.val)) :
    Ends (exec (.doCmdWrite p k v t) s) (fun u => Acks u p (0x4404 + 0x10 * k.val)
      ∧ ∀ j, (u.node.doC j).core = ((doCmdWrite k.val (bitOf v 0) (s.node.advance t)).doC j).core) := by
  obtain ⟨x, hx⟩ := regAttr_doCmd k
  have hdev : (doCmdWrite k.val (bitOf v 0) (s.node.advance t)).dev = (s.node.advance t).dev :=
    dev_of_parts (doCmdWrite_get _ _ _ (by simp)) (doCmdWrite_get _ _ _ (by simp))
  have hup : (doCmdWrite k.val (bitOf v 0) (s.node.advance t)).up = true := by
    rw [Node.up, hdev]
    exact h.1
  refine ends_hostPlant hx h t p v (regWrite_doCmd p k v s.mem (s.node.advance t)) hup ⟨?_, fun j => ?_⟩
  · simp [Acks, Answered]
  · rw [settle_doC, Node.doC, wrDone_dig, ← Node.doC]

/-! ### TP_CYCLE_START (R281) -/

/-- The on part that is driven, by which of the parts reach the minimum. -/
theorem tpDriven_of_both {cyc mp on : Nat} (h1 : mp ≤ on) (h2 : mp ≤ cyc - on) : tpDriven cyc mp on = on := by
  unfold tpDriven
  rw [if_neg (by omega), if_neg (by omega), if_neg (by omega)]

theorem tpDriven_of_short_on {cyc mp on : Nat} (h1 : on < mp) (h2 : mp ≤ cyc - on) : tpDriven cyc mp on = 0 := by
  unfold tpDriven
  rw [if_neg (by omega), if_pos h1]

theorem tpDriven_of_short_off {cyc mp on : Nat} (h1 : mp ≤ on) (h2 : cyc - on < mp) : tpDriven cyc mp on = cyc := by
  unfold tpDriven
  rw [if_neg (by omega), if_neg (by omega), if_pos h2]

theorem tpDriven_of_neither {cyc mp on : Nat} (h1 : on < mp) (h2 : cyc - on < mp) :
    tpDriven cyc mp on = if cyc - on < on then cyc else 0 := if_pos ⟨h1, h2⟩

theorem tpBegun_off (u : DoChan) (t cyc : Nat) : (tpBegun u t cyc 0).tpOn = false ∧ (tpBegun u t cyc 0).tpOff = none :=
  ⟨rfl, rfl⟩

theorem tpBegun_full (u : DoChan) (t : Nat) {cyc : Nat} (h : 0 < cyc) :
    (tpBegun u t cyc cyc).tpOn = true ∧ (tpBegun u t cyc cyc).tpOff = none := by simp [tpBegun, h]

theorem tpBegun_divided (u : DoChan) (t : Nat) {cyc on : Nat} (h : 0 < on) (h2 : on < cyc) :
    (tpBegun u t cyc on).tpOn = true ∧ (tpBegun u t cyc on).tpOff = some (t + on) := by simp [tpBegun, h, h2]

/-- A cycle that is due, in the words of R281. -/
theorem tpCycleStart_ends (k : Fin 32) (t : Nat) {s : State} (hu : s.node.up = true) (hd : s.node.driving = true)
    (hon : recOn (s.node.recOf 0x0A k.val) = true) (hs : doSrc (s.node.recOf 0x0A k.val) = 1) (ht : (s.node.doC k.val).tpNext ≤ t)
    {cyc mp on : Nat} (hcyc : cyc = doTpCyc (s.node.recOf 0x0A k.val) * 25000000) (hmp : mp = doW (s.node.recOf 0x0A k.val) * 250000)
    (hpart : on = tpAsked cyc (s.node.doC k.val).laneD) :
    Ends (exec (.tpCycleStart k t) s) (fun u => (u.node.doC k.val).tpNext = t + cyc
      ∧ (mp ≤ on → mp ≤ cyc - on → 0 < on → on < cyc →
          (u.node.doC k.val).tpOn = true ∧ (u.node.doC k.val).tpOff = some (t + on))
      ∧ (on < mp → mp ≤ cyc - on → (u.node.doC k.val).tpOn = false ∧ (u.node.doC k.val).tpOff = none)
      ∧ (mp ≤ on → cyc - on < mp → (u.node.doC k.val).tpOn = true ∧ (u.node.doC k.val).tpOff = none)
      ∧ (on < mp → cyc - on < mp → (u.node.doC k.val).tpOn = decide (cyc - on < on) ∧ (u.node.doC k.val).tpOff = none)) := by
  have hzero : cyc = 0 → on = 0 := fun h => by rw [hpart, h, tpAsked_of_no_cycle]
  refine (ends_out hu (tpStart_of_due (n := s.node.advance t) hd hon hs ht) k.val).imp fun u ⟨hch, _⟩ => ?_
  have hbegun : (u.node.doC k.val).core = (tpBegun (s.node.doC k.val) t cyc (tpDriven cyc mp on)).core := by
    rw [doC_setDo_same] at hch
    rw [hch, hpart, hmp, hcyc]
    rfl
  rw [DoChan.eq_of_core DoChan.tpNext hbegun, DoChan.eq_of_core DoChan.tpOn hbegun,
    DoChan.eq_of_core DoChan.tpOff hbegun]
  refine ⟨rfl, fun h1 h2 h3 h4 => ?_, fun h1 h2 => ?_, fun h1 h2 => ?_, fun h1 h2 => ?_⟩
  · rw [tpDriven_of_both h1 h2]
    exact tpBegun_divided _ t h3 h4
  · rw [tpDriven_of_short_on h1 h2]
    exact tpBegun_off _ t cyc
  · rw [tpDriven_of_short_off h1 h2]
    exact tpBegun_full _ t (by omega)
  · rw [tpDriven_of_neither h1 h2]
    by_cases hlong : cyc - on < on
    · rw [if_pos hlong, decide_eq_true hlong]
      exact tpBegun_full _ t (by omega)
    · rw [if_neg hlong, decide_eq_false hlong]
      exact tpBegun_off _ t cyc

/-- Settles O34: a happening that is due is one branch of its operation, and otherwise the operation is nothing; the plant's own work
leaves inputs, supplies and commands standing (`ends_din`, `ends_out`, `doCmdWrite_ends`). -/
theorem digitalInputsAndCommands : Obligations.DigitalInputsAndCommands := by
  unfold Obligations.DigitalInputsAndCommands
  refine ⟨⟨?_, ?_, ?_, ?_, ?_, ?_, ?_, ?_, ?_⟩, ⟨?_, ?_, ?_, ?_, ?_, ?_, ?_⟩⟩
  -- a level that passes the filter
  · intro k l t s hu hf hon hsam hfil
    have hp : DiPasses (s.node.advance t) k.val t := ⟨hf, hon, hsam, hfil⟩
    refine ⟨fun ha hl => ?_, fun ha => ?_⟩
    · have hacc := diAccept_of_change hp ha hl
      refine (ends_din hu (f := diStep k.val l t) rfl).imp fun u ⟨hdi, _, hflag, _⟩ => ⟨?_, fun h64 => ?_, fun j hj => ?_⟩
      · rw [diC_of_di (hdi.trans (diStep_di _ _ _ _)), hacc, recOcc_diC, raiseIf_diC, diC_setDi_same]
        rfl
      · refine hflag 64 (diStep_raises ?_)
        rw [hacc, recOcc_evt]
        exact raiseIf_raises 64 _ h64 rfl (by omega)
      · rw [diC_of_di (hdi.trans (diStep_di _ _ _ _)), hacc, recOcc_diC, raiseIf_diC, diC_setDi_other hj]
        rfl
    · refine (ends_din hu (f := diStep k.val l t) rfl).imp fun u ⟨hdi, _⟩ => ?_
      rw [diC_of_di (hdi.trans (diStep_di _ _ _ _)), diAccept_of_first hp ha, diC_setDi_same]
      rfl
  -- an open wire is found, and is gone
  · intro k t s hu hf hon hb hc
    refine ⟨fun ho => ?_, ?_⟩
    · have hopen := diOpenWire_of_change (n := s.node.advance t) hf hon hb hc (o := true) (by rw [advance_diC, ho]; decide)
      refine (ends_din hu hopen).imp fun u ⟨hdi, _, hflag, _⟩ => ⟨?_, hflag 65 (raiseIf_raises 65 _ rfl rfl (by omega))⟩
      rw [diC_of_di hdi, raiseIf_diC, diC_setDi_same, Bool.or_true]
      rfl
    · refine (ends_din hu (f := diOpenWire k.val false) rfl).imp fun u ⟨hdi, _⟩ => ?_
      rw [diC_of_di hdi, diOpenWire_closed (n := s.node.advance t) hf hon hb hc]
      rfl
  -- over-temperature of a group
  · intro g on t s hu
    refine ends_plantAt hu t _ ?_
    dsimp only
    rw [settle_dig_ot]
    refine ⟨bitOf_setBitW_self _ (by omega) on, fun j _ hj => ?_⟩
    exact (bitOf_setBitW _ _ _ _ (by omega)).trans (if_neg hj)
  -- overload of a supply, and its retry
  · intro k t s hu hout
    refine (ends_din hu (ssOverload_of_on (n := s.node.advance t) hout)).imp fun u ⟨_, hss, hflag, _⟩ => ?_
    have hch : u.node.ssC k.val = { s.node.ssC k.val with overload := true, ovlSeen := true, retryAt := t } := by
      rw [ssC_of_ss hss, raise_ssC, ssC_setSs_same]
      rfl
    exact ⟨hch, ssOut_of_overload (by rw [hch]), hflag 66 (raise_flag 66 _ rfl (by omega))⟩
  · intro k ok t s hu ho
    refine (ends_din hu (f := ssRetry k.val ok t) rfl).imp fun u ⟨_, hss, _⟩ => ?_
    rw [ssC_of_ss hss, ssRetry_ssC (n := s.node.advance t) ho]
    rfl
  -- inputs and supplies without a cause
  · intro k l t s hu h
    refine (ends_din hu (f := diStep k.val l t) rfl).imp fun u ⟨hdi, _⟩ => ?_
    rw [hdi, diStep_di, diAccept_of_none (n := s.node.advance t) h]
    rfl
  · intro k o t s hu h
    exact (ends_din hu (diOpenWire_of_none (n := s.node.advance t) h)).imp fun u ⟨hdi, _, _, hother⟩ => ⟨hdi, hother 65 (by decide)⟩
  · intro k t s hu h
    exact (ends_din hu (ssOverload_of_off (n := s.node.advance t) h)).imp fun u ⟨_, hss, _⟩ => hss
  · intro k ok t s hu h
    exact (ends_din hu (ssRetry_of_none (n := s.node.advance t) h ok)).imp fun u ⟨_, hss, _⟩ => hss
  -- a host's command
  · intro p k v t s h
    refine ⟨fun hs => ?_, fun hs => ?_⟩
    · refine (doCmdWrite_ends p k v t h).imp fun u ⟨hack, hch⟩ => ?_
      rw [doCmdWrite_of_host (n := s.node.advance t) hs] at hch
      have hself := hch k.val
      rw [doC_modDo_same] at hself
      refine ⟨hack, DoChan.eq_of_core DoChan.cmd hself, (DoChan.eq_of_core DoChan.refused hself).trans rfl,
        fun j hj => ?_⟩
      rw [DoChan.eq_of_core DoChan.cmd (hch j), doC_modDo_other hj]
      rfl
    · refine (doCmdWrite_ends p k v t h).imp fun u ⟨hack, hch⟩ => ?_
      have hself := hch k.val
      rw [doCmdWrite_of_other_source (n := s.node.advance t) hs, doC_modDo_same] at hself
      exact ⟨hack, (DoChan.eq_of_core DoChan.cmd hself).trans rfl, DoChan.eq_of_core DoChan.refused hself⟩
  -- a cycle of time proportioning, and the end of its on part
  · exact fun k t s hu hd hon hs ht => tpCycleStart_ends k t hu hd hon hs ht rfl rfl rfl
  · intro k e t s hu hoff ht
    refine (ends_out hu (tpOffEdge_of_due (n := s.node.advance t) hoff ht) k.val).imp fun u ⟨hch, _⟩ => ?_
    rw [doC_modDo_same] at hch
    exact ⟨DoChan.eq_of_core DoChan.tpOn hch, DoChan.eq_of_core DoChan.tpOff hch⟩
  -- a pulse
  · intro k t s hu hp
    refine (ends_out hu (f := doPulseEnd k.val t) rfl k.val).imp fun u ⟨hch, _⟩ => ?_
    exact (DoChan.eq_of_core DoChan.pulse hch).trans (doPulseEnd_pulse (n := s.node.advance t) hp)
  -- commands that are not due
  · intro k t s hu h
    exact (ends_out hu (tpStart_of_none (n := s.node.advance t) h) k.val).imp fun u ⟨hch, _⟩ =>
      ⟨DoChan.eq_of_core DoChan.tpNext hch, DoChan.eq_of_core DoChan.tpOn hch,
        DoChan.eq_of_core DoChan.tpOff hch⟩
  · intro k t s hu h
    exact (ends_out hu (tpOffEdge_of_none (n := s.node.advance t) h) k.val).imp fun u ⟨hch, _⟩ =>
      ⟨DoChan.eq_of_core DoChan.tpOn hch, DoChan.eq_of_core DoChan.tpOff hch⟩
  · intro k t s hu h
    exact (ends_out hu (doPulseEnd_of_none (n := s.node.advance t) h) k.val).imp fun u ⟨hch, _⟩ =>
      (DoChan.eq_of_core DoChan.pulse hch).trans h

end Sys2Proof.Machine
end
